-- ==== Sys2Proof/Word.lean ====
section
/-! DEFINITION. The word types of the KV-9624: register words (R11), bytes, the 4,096-byte block of R13 and
its 512-byte sector. -/

namespace Sys2Proof

/-- A register word (R11). -/
abbrev Word := BitVec 32

/-- A byte of a packet, a frame or a buffer. -/
abbrev Byte := BitVec 8

/-- A logical block of 4,096 bytes (R13). Byte `i` is bits `8*i+7` to `8*i`. -/
abbrev Block := BitVec 32768

/-- One 512-byte sector of a block (R84). Sector `i` of a block is its bits `4096*i+4095` to `4096*i`. -/
abbrev Sector := BitVec 4096

/-- An NQN, as its UTF-8 bytes without the padding (R286). -/
abbrev Nqn := List Byte

/-- A time of the machine's clock in nanoseconds, or a deadline that is armed. -/
abbrev Timer := Option Nat

end Sys2Proof
end

