-- ==== Sys2Proof/Machine/Types.lean ====
section
/-! DEFINITION. The types of the commands' operands: what hosts, masters, the peer, the drives and the
supplies hand to the block. Each names the rule that gives its contents. -/

namespace Sys2Proof.Machine

/-- The three parts of R1. -/
inductive Part where
  | kv9624a
  | kv9624c
  | kv9616b
  deriving DecidableEq, Repr

/-- The module slots of R19. -/
inductive Side where
  | a
  | b
  deriving DecidableEq, Repr

/-- The four management masters (R245). -/
inductive Master where
  | service
  | bmc
  | inband
  | peer
  deriving DecidableEq, Repr

/-- NVMe-oF transports (R31). -/
inductive Transport where
  | rdma
  | tcp
  deriving DecidableEq, Repr

/-- Service of an RDMA CM connection request (R31). -/
inductive QpType where
  | rc
  | uc
  | ud
  deriving DecidableEq, Repr

/-- SGL descriptor types (R38). -/
inductive SglKind where
  | keyed
  | transport
  | other
  deriving DecidableEq, Repr

/-- A host command capsule as the checks of R61 see it. `fieldsOk` says that every other field of the
capsule is one the module supports. `nlb` counts logical blocks of the namespace's own format; for a Dataset
Management, `ranges` lists its ranges; `deallocate` is the Deallocate bit or attribute. -/
structure Capsule where
  opcode : Nat
  cid : Nat
  nsid : Nat
  slba : Nat
  nlb : Nat
  fua : Bool
  fuse : Nat
  deallocate : Bool
  ranges : List (Nat × Nat)
  sgl : SglKind
  fieldsOk : Bool
  /-- The remote key that the host asks the module to invalidate with the response (R32). -/
  invalidate : Option Nat := none
  deriving DecidableEq, Repr

/-- The Connect command of R39 and R43. `qsize` is the number of entries asked for; `cntlid` names the
association for an I/O queue. -/
structure ConnectReq where
  cid : Nat
  sqid : Nat
  qsize : Nat
  kato : Nat
  cntlid : Nat
  hostNqn : Nqn
  subNqn : Nqn
  discovery : Bool
  deriving DecidableEq, Repr

/-- The messages of DH-HMAC-CHAP that a host sends (R35). -/
inductive AuthMsg where
  | negotiate (hashes groups : List Nat) (secureConcat : Bool)
  | reply (response : List Byte) (bidirectional : Bool)
  | success2
  | failure2
  deriving DecidableEq, Repr

/-- A frame as it arrives at a MAC: its bytes from the destination MAC to the end of the payload, and what the line, FCS, ICRC
and MACsec checks found (chapter 10, R315, R379, R597). `macsec` is `none` for an unprotected frame, else whether
its ICV holds. -/
structure FrameIn where
  bytes : List Byte
  fecOk : Bool
  icrcOk : Bool
  macsec : Option Bool
  fcsOk : Bool := true
  deriving DecidableEq, Repr

/-- The outcome the module reports for an NVMe command: status code type, status code, Do Not Retry (R61). -/
structure CplStatus where
  sct : Nat
  sc : Nat
  dnr : Bool
  deriving DecidableEq, Repr

/-- The fields of a BARKER payload (R220). -/
structure Barker where
  uid : Nat
  unitPres : BitVec 32
  slot : Nat
  port : Nat
  fidst : Nat
  fid : Nat
  heard : Nat
  lsaSeq : Nat
  bkSeq : Nat
  /-- Source MAC address of the frame: the sending port's (R217). -/
  mac : BitVec 48
  deriving DecidableEq, Repr

/-- One LINK entry of an LSA (R230). -/
structure LsaLink where
  port : Nat
  nbrFid : Nat
  nbrPort : Nat
  midplane : Bool
  deriving DecidableEq, Repr

/-- The payload of an LSA (R230). -/
structure Lsa where
  uid : Nat
  fid : Nat
  seq : BitVec 32
  links : List LsaLink
  deriving DecidableEq, Repr

/-- The Relti header of a frame to forward (R217), its payload length counted by LEN. -/
structure ReltiHdr where
  typ : Nat
  dst : Nat
  src : Nat
  hops : Nat
  control : Bool
  len : Nat
  flow : Nat
  deriving DecidableEq, Repr

/-- What a STATUS frame of the peer reports (R219): dirty counts of its rings and its effective ceiling (R82),
free mirror space (R75), rebuild figures (R196) and the retrain notices of R536. Sizes are in blocks of 4,096
bytes; `memberTraffic` is the peer's part of H in MB/s. -/
structure PeerStatus where
  dirty : Nat
  ceiling : Nat
  mirrorRoom : Nat
  rebuildRings : Nat
  memberTraffic : Nat
  retrainNotice : Bool
  retrainAck : Bool
  hbEnabled : Bool
  retrainClear : Bool
  deriving DecidableEq, Repr

/-- Member states (R179). -/
inductive MemSt where
  | unused
  | online
  | absent
  | stale
  | failed
  | replacing
  deriving DecidableEq, Repr

/-- A member slot (R136, R179). -/
structure MemberSlot where
  st : MemSt
  bay : Option Nat
  serial : Nat
  /-- This module's own port to the drive is unusable (R182). -/
  localBad : Bool
  rejoin : Timer
  /-- Order of displacement, 0 when not displaced (R151). -/
  dorder : Nat
  /-- Stripes whose chunk of this slot is on its target (R189), and chunk slots (R144) that copyback has filled (R192).
  The turn map of R191 follows from them. -/
  rebuilt : List Nat
  filled : List Nat
  /-- Write Zeroes of initialisation still outstanding (R142). -/
  initLeft : Bool
  /-- Regions it missed a write in since their bit was set (R169). -/
  missed : List Nat
  /-- Stripes whose chunk on it the running resynchronisation has rewritten (R208). -/
  resynced : List Nat := []
  deriving DecidableEq, Repr

/-- An open intent record (R167). -/
structure Intent where
  idx : Nat
  ring : Nat
  kind : Nat
  flags : Nat
  stripe : Nat
  rowmask : Nat
  posmask : Nat
  seq : Nat
  epoch : Nat
  region0 : Nat
  region1 : Nat
  version : Nat
  deriving DecidableEq, Repr

/-- What a module tells its peer of a ring (R135, R140, R142, R178, R179, R216): its definition, and of a ring that it masters
the members, the flags and the progress, which the peer's registers mirror. `owner` says that the sender masters the ring. -/
structure RingShare where
  num : Nat
  n : Nat
  k : Nat
  m : Nat
  s : Nat
  seed : BitVec 32
  chunks : Nat
  gen : Nat
  owner : Bool
  slots : List MemberSlot
  initRunning : Bool
  torn : Bool
  flushIncomplete : Bool
  resyncAll : Bool
  suspects : List Intent
  hunting : Bool
  verify : Option Nat
  bitmap : List Nat
  patrol : Nat
  /-- A handover of the ring runs: commands that change its data are held (R243). -/
  held : Bool
  deriving DecidableEq, Repr

/-- A block of a MIRROR or FWD frame (R257 KIND 0x01 and 0x04). A deallocation record takes one entry (R57, R84): then
`ranges` holds its whole blocks, as first block and count. -/
structure MirBlock where
  vsid : Nat
  nsid : Nat
  lba : Nat
  version : Nat
  ring : Nat
  writeThrough : Bool
  smask : BitVec 8
  data : Block
  ranges : List (Nat × Nat)
  deriving DecidableEq, Repr

/-- A free notice (R257 KIND 0x02). -/
structure MirFree where
  vsid : Nat
  nsid : Nat
  lba : Nat
  nlb : Nat
  version : Nat
  ring : Nat
  deriving DecidableEq, Repr

/-- The body of a mirror-stream frame (R257): one kind per frame. Safety-net lines are carried as AREA, INDEX
and the 64 bytes of the line. `ring` carries what the peer learns of a ring over the fabric, for which the spec names no frame
(log 79). -/
inductive MirBody where
  | blocks (entries : List MirBlock)
  | joinCopy (entries : List MirBlock)
  | free (entries : List MirFree)
  | lines (entries : List (Nat × Nat × List Byte))
  | ring (r : RingShare)
  deriving DecidableEq, Repr

/-- KIND of a CMDSTATE record (R259). -/
inductive CmdKind where
  | intake
  | admitted
  | committed
  | responding
  | freed
  | squashed
  deriving DecidableEq, Repr

/-- A CMDSTATE record (R259). `capsule` is the payload of an I/O INTAKE record, `adminOpcode` and `args` what the SQE of an
admin INTAKE record holds, and `cqe` the payload of a RESPONDING one. -/
structure CmdRecord where
  kind : CmdKind
  admin : Bool
  writeThrough : Bool
  forwarded : Bool
  cntlid : Nat
  sqid : Nat
  cid : Nat
  tag : Nat
  conn : Nat
  vmark : Nat
  vsid : Nat
  spos : Nat
  slen : Nat
  capsule : Option Capsule
  cqe : Option CplStatus
  adminOpcode : Nat
  args : List Nat := []
  /-- Dword 0 of the completion queue entry of an admin RESPONDING record. -/
  dw0 : Nat := 0
  deriving DecidableEq, Repr

/-- What R262 lists of a connection beside its positions: MAC addresses, the host's IP address, VLAN tag, queue pair numbers
or TCP ports; send window and receive window, window scale, SACK permitted, timestamp offset and TS.Recent; message
sequence number, credits, retry count and timeout. They are what its establishment settled (log 78). -/
structure ConnPath where
  lmac : Nat := 0
  rmac : Nat := 0
  rip : Nat := 0
  vlan : Nat := 0
  lnum : Nat := 0
  rnum : Nat := 0
  sndWnd : Nat := 0
  rcvWnd : Nat := 0
  wscale : Nat := 0
  sack : Nat := 0
  tsOff : Nat := 0
  tsRecent : Nat := 0
  msn : Nat := 0
  credits : Nat := 0
  retries : Nat := 0
  retryTime : Nat := 0
  deriving DecidableEq, Repr

/-- An XPORT record of a connection (R262), as far as takeover uses it: transport, association, positions. `features` are
features 0x01, 0x04, 0x0B and 0x81 (R47); `sqhd` is the head of its queue. -/
structure XportRecord where
  conn : Nat
  transport : Transport
  tls : Bool
  addr : BitVec 128
  hdgst : Bool
  ddgst : Bool
  tc : Nat
  discovery : Bool
  cc : Nat
  features : List Nat
  sqhd : Nat
  psk : Nat
  cntlid : Nat
  sqid : Nat
  qsize : Nat
  vsid : Nat
  hostNqn : Nqn
  port : Nat
  kato : Nat
  ccEn : Bool
  csts : Nat
  granted : Nat
  rcvNext : Nat
  sndUna : Nat
  sndNext : Nat
  mtu : Nat
  readSeq : Nat
  writeSeq : Nat
  wrappedKeys : List Byte
  path : ConnPath := {}
  dscp : Nat := 0
  cwnd : Nat := 0
  ece : Bool := false
  pduBuf : List Byte := []
  pduLeft : Nat := 0
  deriving DecidableEq, Repr

/-- A superblock copy as it is found on a drive (R139): ring, seed, GEN, whether its CRC is valid, the serial numbers of the
member slots and their orders of displacement. -/
structure SbCopy where
  ring : Nat
  seed : Nat
  gen : Nat
  valid : Bool
  serials : List Nat
  orders : List Nat
  deriving DecidableEq, Repr

/-- What the module learns of a drive when it is identified (R137, R207): serial number, conditions of R137, capacity in
bytes, and the superblock copies on it (R139, R143). -/
structure DriveInfo where
  serial : Nat
  lbaf4kMeta16 : Bool
  nsMgmt : Bool
  maxNs : Nat
  writeZeroes : Bool
  dlfeatZero : Bool
  capacity : Nat
  superblocks : List SbCopy
  deriving DecidableEq, Repr

/-- A block as a member returns it (R164): whether the drive delivered it without an error, its 16 bytes of metadata with
byte 0 lowest, and its 4,096 bytes. -/
structure MemberBlock where
  ok : Bool
  md : BitVec 128
  data : Block
  deriving DecidableEq, Repr

/-- The blocks of one row that a patrol, a verification or a rebuild reads (R189, R211): one entry per chunk
position, `none` for a block that is unavailable (R184). -/
abbrev RowData := List (Option MemberBlock)

/-- What a resynchronisation hands over (R208): the member slot, and the blocks read, by stripe and row. -/
structure SlotReads where
  slot : Nat
  rows : List (Nat × Nat × RowData)
  deriving DecidableEq, Repr

/-- What a copyback hands over (R192): the chunk slot, and the blocks read, by row. -/
structure ChunkReads where
  chunk : Nat
  rows : List (Nat × RowData)
  deriving DecidableEq, Repr

/-- What the end of a migration phase brings (R304): whether its frames arrived, and the blocks its reads returned: namespace,
block and data. -/
structure PhaseReads where
  ok : Bool
  blocks : List (Nat × Nat × Block)
  deriving DecidableEq, Repr

/-- A configuration change that the peer propagates in a MGMT frame of KIND 0x03 (R143, R283, R389): the opcode
of the command and its parameter bytes. -/
structure Propagation where
  opcode : Nat
  params : List Byte
  deriving DecidableEq, Repr

/-- A subsystem in a configuration store (R282, R286, R289): its record, whether it is in TARGET, its access list, and
its portals as INDEX, PORT, AF, PREFIX and ADDR. -/
structure StoredVs where
  record : List Byte
  target : Bool
  hosts : List Nqn
  portals : List (Nat × Nat × Nat × Nat × BitVec 128)
  deriving DecidableEq, Repr

/-- A namespace in a configuration store (R282, R291). -/
structure StoredNs where
  vsid : Nat
  nsid : Nat
  ring : Nat
  first : Nat
  regions : Nat
  lbaf : Nat
  keySlot : Nat
  deriving DecidableEq, Repr

/-- What a module sends of its stores when the peers join (R284, R389): the configuration store with its generation, and
the key store with its own, its keys as the commands that fill its slots. -/
structure PeerStore where
  gen : Nat
  subs : List StoredVs
  nss : List StoredNs
  keyGen : Nat
  keys : List Propagation
  deriving DecidableEq, Repr

/-- A MIGRATE frame (R305). -/
inductive MigrateBody where
  | blocks (entries : List MirBlock)
  | image (offset : Nat) (bytes : List Byte)
  | ack (seq : Nat)
  | abort
  deriving DecidableEq, Repr

/-- What an MKA frame on a fabric port brings (R378, R380): the member that sent it, whether its ICV holds under
the CAK, its key server priority, the highest packet number it reports, and the SAK it distributes or confirms. -/
structure MkaMsg where
  member : Nat
  icvOk : Bool
  priority : Nat
  lowestPn : Nat
  sak : Option Nat
  sakInstalled : Option Nat
  deriving DecidableEq, Repr

/-- The outcome a drive reports for a member command (R466). -/
inductive MemberResult where
  | success
  | error (dnr : Bool)
  deriving DecidableEq, Repr

/-- Status of a PCIe completion for a DMA read (R451). -/
inductive DmaCpl where
  | success
  | unsupported
  | abort
  | retry
  | poisoned
  | malformed
  deriving DecidableEq, Repr

/-- Requests of the SPDM responder (R459). -/
inductive SpdmReq where
  | getVersion
  | getCapabilities
  | negotiateAlgorithms
  | getDigests
  | getCertificate (slot : Nat)
  | challenge (slot : Nat)
  | getMeasurements (index : Nat)
  | other
  deriving DecidableEq, Repr

/-- A DOE data object (R458). -/
inductive DoeObject where
  | discovery (index : Nat)
  | spdm (req : SpdmReq)
  | other
  deriving DecidableEq, Repr

/-- Instructions of the TAP (R583). -/
inductive TapInstr where
  | bypass
  | idcode
  | samplePreload
  | extest
  | intest
  | extestPulse
  | extestTrain
  | clamp
  | highz
  deriving DecidableEq, Repr

/-- The switched rails of R500, in their power-up order. -/
inductive Rail where
  | bpc
  | pll
  | sds
  | vdd
  | sram
  | hbm
  | io18
  | io33
  deriving DecidableEq, Repr

/-- The load figures of R516 over one window, in units of 1/100 per cent: the window is 1 ms or 100 ms, `hostUtil`
gives each host port, `memberUtil` the member traffic's share. -/
structure LoadWindow where
  isMs : Bool
  hostUtil : List Nat
  memberUtil : Nat
  deriving DecidableEq, Repr

/-- The result of scanning one lane (R528, R530): eye height in mV, width in 1/128 UI, and the number of RS-FEC
codewords with 13 or more corrected symbols in the scan period. -/
structure ScanResult where
  height : Nat
  width : Nat
  fecHigh : Nat
  deriving DecidableEq, Repr

/-- What a live test measured (R573-R580): errors, the WHERE word, and whether the following check or comparison
passed. -/
structure TestOutcome where
  errors : Nat
  whereWord : Nat
  checkOk : Bool
  elapsedUs : Nat
  deriving DecidableEq, Repr

end Sys2Proof.Machine
end

