-- ==== Sys2Proof/Syntax.lean ====
section
/-! DEFINITION. The commands of the block: one constructor per row of spec/opcode_table.json, in the table's
order. The table gives its rows no operands and no bits: the operands are those the row's rule names. A
management command's row (RING_CREATE and its like) takes the master whose started command it executes; the
parameters are those of that master's packet in the mailbox. A `…Write` row takes the word written. -/

namespace Sys2Proof

open Sys2Proof.Machine

/-- The commands of the KV-9624 model. -/
inductive Instr where
  | rdmaCmConnectionRequest (conn port : Nat) (addr : BitVec 128) (qp : QpType) (mtu : Nat)
  | tcpSyn (conn port : Nat) (addr : BitVec 128) (mss : Nat)
  | icreq (conn : Nat) (hdgst ddgst : Bool)
  | connect (conn : Nat) (req : ConnectReq)
  | propertySet (cntlid cid offset value : Nat)
  | propertyGet (cntlid cid offset : Nat)
  | authenticationSend (conn cid : Nat) (msg : AuthMsg)
  | authenticationReceive (conn cid : Nat)
  | disconnect (cntlid sqid cid : Nat)
  | disconnectComplete (cntlid sqid : Nat)
  | getLogPage (cntlid cid lid : Nat)
  | identify (cntlid cid cns nsid : Nat)
  | abort (cntlid acid sqid cid : Nat)
  | setFeatures (cntlid cid fid value : Nat) (save : Bool)
  | getFeatures (cntlid cid fid : Nat)
  | asynchronousEventRequest (cntlid cid : Nat)
  | keepAlive (cntlid cid : Nat)
  | nvmeMiSend (cntlid cid miOpcode : Nat) (packet : List Byte)
  | nvmeMiReceive (cntlid cid miOpcode : Nat) (packet : List Byte)
  | formatNvm (cntlid cid nsid lbaf ses : Nat) (protection : Bool)
  | sanitize (cntlid cid action : Nat)
  | invalidAdminOpcode (cntlid cid opcode : Nat)
  | flush (tag : Nat)
  | write (tag : Nat)
  | read (tag : Nat)
  | compare (tag : Nat)
  | writeZeroes (tag : Nat)
  | datasetManagement (tag : Nat)
  | invalidIoOpcode (cntlid sqid : Nat)
  | capsuleIntake (cntlid sqid : Nat) (capsule : Capsule)
  | admission (vsid : Nat)
  | hostDataReceived (tag : Nat) (ok : Bool) (sectors : List Sector)
  | commitPoint (tag : Nat)
  | responseHandoff (tag : Nat)
  | responseAcknowledged (tag : Nat)
  | squashComplete (tag : Nat)
  | keepAliveTimeout (cntlid : Nat)
  | connectionLoss (conn : Nat)
  | controllerResetComplete (cntlid : Nat)
  | shutdownComplete (cntlid : Nat)
  | tagqryWrite (w : Word)
  | rangeLockGrant (tag : Nat)
  | joinCopyComplete
  | powerFailTrip
  | flushEnd
  | formatPrepareDone (rec : Nat)
  | eraseRegionDone (rec : Nat)
  | keyReplacementDone (rec : Nat)
  | deallocDone (rec : Nat)
  | progressRecordAvailable
  | coalescingWindowExpiry (group : Nat)
  | groupDataReady (group : Nat)
  | residueTimeout (group tag : Nat)
  | groupRegionRelease (group : Nat)
  | ringCreate (m : Master)
  | ringDelete (m : Master)
  | ringInitComplete (ring : Nat)
  | stripeWriteStart (ring stripe : Nat)
  | stripeWriteComplete (ring stripe : Nat)
  | drainMaxageExpiry (ring stripe : Nat)
  | bitmapSweep (ring : Nat)
  | bitmapCheckpoint (ring : Nat)
  | checkpointWriteComplete (ring : Nat)
  | suspectStripeDone (ring stripe : Nat) (rows : List (Nat × RowData))
  | verifyStripeDone (ring : Nat) (rows : List (Nat × RowData))
  | ptqryWrite (w : Word)
  | rejoinWindowExpiry (ring slot : Nat)
  | driveIdentified (bay : Nat) (info : DriveInfo)
  | rejoinResyncComplete (ring : Nat) (done : SlotReads)
  | smartCriticalWarning (bay : Nat) (bits : BitVec 8)
  | rebuildStripeDone (ring stripe : Nat) (rows : List (Nat × RowData))
  | copybackChunkDone (ring slot : Nat) (done : ChunkReads)
  | rebuildRateTick (hostTraffic : Nat)
  | patrolStripeCheck (ring : Nat) (rows : List (Nat × RowData))
  | memberFail (m : Master)
  | memberReplace (m : Master)
  | lostList (m : Master)
  | barkerSend
  | barkerReceive (port : Nat) (b : Barker) (store : Option PeerStore)
  | barkerTimeout (port : Nat)
  | pcsLinkDown (port : Nat)
  | pcsLinkUp (port : Nat)
  | peerwaitExpiry
  | claimInterval
  | claimWaitExpiry
  | claimReceive (port uid fid nonce : Nat)
  | defendReceive (port uid fid claimUid nonce : Nat)
  | fidRetry
  | lsaReceive (port : Nat) (lsa : Lsa)
  | lsaRefresh
  | lsdbEntryExpiry (fid : Nat)
  | formerFidExpiry
  | frameForward (port : Nat) (hdr : ReltiHdr)
  | badReltiFrame (port : Nat) (f : FrameIn)
  | statusSend
  | statusReceive (st : PeerStatus)
  | electReceive (ring prio fid epoch : Nat)
  | electionTimeout (ring : Nat)
  | ownerSend (ring : Nat)
  | ownerReceive (ring fid epoch : Nat)
  | ringHandover (m : Master)
  | handoverQuiesced (ring : Nat)
  | handoverTimeout (ring : Nat)
  | ownerClaim (m : Master)
  | ownerRenew (m : Master)
  | handover (m : Master)
  | ownerRelease (m : Master)
  | electionWindowClose
  | leaseExpiry
  | rtqryWrite (w : Word)
  | mirrorReceive (src mseq : Nat) (body : MirBody)
  | mirackSend
  | mirackReceive (second : Bool) (mseq room : Nat)
  | mirrorResendTimeout (mseq : Nat)
  | cmdstateReceive (mseq : Nat) (r : CmdRecord)
  | xportReceive (mseq : Nat) (x : XportRecord)
  | fwdReceive (mseq : Nat) (entries : List MirBlock)
  | healthCheck (coresOk crossbarOk : Bool)
  | heartbeatLoss
  | fenceDelayExpiry
  | fenceInAsserted
  | fenceRelease (m : Master)
  | peerRemoved
  | fenceHoldExpiry
  | announcementRepeat (identity : Nat)
  | takeoverDataDrained
  | vsCreate (m : Master)
  | vsDelete (m : Master)
  | vsModify (m : Master)
  | vsHosts (m : Master)
  | vsPortal (m : Master)
  | nsCreate (m : Master)
  | nsDelete (m : Master)
  | nsDeleteComplete (vsid nsid : Nat)
  | vsReset (m : Master)
  | vsResetDrained (vsid : Nat)
  | vsFreeze (m : Master)
  | freezeQuiesced (vsid : Nat)
  | quiesceTimeout (vsid : Nat)
  | maxfrzExpiry (vsid : Nat)
  | vsThaw (m : Master)
  | vsSave (m : Master)
  | vsRestore (m : Master)
  | vsMigrate (m : Master)
  | vsQuery (m : Master)
  | mgmtPropagation (p : Propagation)
  | migrateReceive (src tvsid seq : Nat) (body : MigrateBody)
  | migrationPhaseEnd (vsid : Nat) (done : PhaseReads)
  | vsqryWrite (w : Word)
  | frameReceive (port : Nat) (f : FrameIn)
  | recirculationPass (id : Nat) (authOk : Bool) (plain : List Byte)
  | exceptionDrain
  | bankSwap (byCommand : Bool)
  | swapEffect
  | swapRefusal
  | tableCommit
  | tableRead
  | batchStart
  | batchEnd
  | polcirWrite (w : Word)
  | carouselMatch
  | transferComplete (input : Nat)
  | transmitSelect (port : Nat)
  | sample (point : Nat) (bytes : List Byte)
  | samplingConfigWrite (ratio : Bool) (w : Word)
  | pfcRepeat (port cls : Nat)
  | pfcFrameReceive (port : Nat) (quanta : List (Option Nat))
  | pauseExpiry (port cls : Nat)
  | cnpReceive (conn : Nat)
  | rateRecovery (host : Nat)
  | occqryWrite (w : Word)
  | rekeyPieceLoaded (slot : Nat) (blocks : List (Nat × Block))
  | rekeyRegionDone (slot : Nat)
  | mkaFrameReceive (port : Nat) (msg : MkaMsg)
  | mkaHello (port : Nat)
  | mkaLifeExpiry (port member : Nat)
  | clientHello (conn : Nat) (identities : List (List Byte)) (suiteOk groupOk binderOk : Bool)
  | keyUpdateReceive (conn : Nat)
  | pairKeyAgreementComplete (ok : Bool)
  | keyInfo (m : Master)
  | keyChallenge (m : Master)
  | keyLogin (m : Master)
  | keyLogout (m : Master)
  | keyGenerate (m : Master)
  | keyImport (m : Master)
  | keyExport (m : Master)
  | keyDelete (m : Master)
  | keyRekey (m : Master)
  | keySelftest (m : Master) (failRow : Nat)
  | keyZeroize (m : Master)
  | keyRandom (m : Master)
  | sessionIdleExpiry
  | nonceExpiry
  | loginLockoutExpiry (officer : Nat)
  | vaultEnvironmentZeroize
  | entropyHealthFailure
  | vaultSelftestComplete (failRow : Nat)
  | doorbellSend (w : Word)
  | mctpMessage (packet : List Byte)
  | mctpControlMessage (command : Nat)
  | mgmtFrameReceive (fid kind : Nat) (packet : List Byte)
  | poll (m : Master) (packet : List Byte)
  | commandStart (m : Master)
  | describe (m : Master)
  | mbFlush (m : Master)
  | mbReset (m : Master)
  | regRead (m : Master)
  | regWrite (m : Master)
  | regModify (m : Master)
  | pmuLoRead (addr : Nat)
  | fabTopo (m : Master)
  | fwDownload (m : Master)
  | fwCommit (m : Master)
  | fwCommitDone
  | fwActivate (m : Master)
  | activationComplete
  | activationTimeout
  | fwStatus (m : Master)
  | pldmGetSensorReading (sensor : Nat)
  | pldmRequestUpdate
  | pldmComponentTransfer (offset : Nat) (bytes : List Byte)
  | pldmVerifyApply
  | pldmActivateFirmware
  | bar0Read (addr : Nat) (enables : List (BitVec 4))
  | bar0Write (addr : Nat) (words : List (Word × BitVec 4))
  | sepPerstDeassert
  | sepLinkDown
  | configWrite (offset : Nat) (w : Word) (enables : BitVec 4)
  | functionLevelReset
  | flrComplete
  | hotReset
  | dmaCompletion (tag addr : Nat) (status : DmaCpl) (bytes : List Byte)
  | completionTimeout (tag : Nat)
  | quarantineExpiry (tag : Nat)
  | containmentRelease
  | containmentReleaseEffect
  | doeRequest (obj : DoeObject)
  | doeAbort
  | presenceAssert (bay : Nat)
  | debounceComplete (bay : Nat)
  | presenceLoss (bay : Nat)
  | rampStart (bay : Nat)
  | powerGood (bay : Nat)
  | pgtimeout (bay : Nat)
  | perstDelayExpiry (bay : Nat)
  | driveLinkL0 (port speed width : Nat)
  | linkTrainingTimeout (port : Nat)
  | bayReady (bay : Nat)
  | overcurrent (bay : Nat)
  | fasttrip (bay : Nat)
  | undervolt (bay : Nat)
  | bayInputFault
  | bayInputRestored
  | retryExpiry (bay : Nat)
  | bholdARise
  | holderRegain
  | powerCycleDelay (bay : Nat)
  | dpxCompletionTimeout (port tag : Nat)
  | dpxQuarantineExpiry (port tag : Nat)
  | memberCommandCompletion (id : Nat) (result : MemberResult) (blocks : List MemberBlock)
  | memberCommandTimeout (id : Nat)
  | memberAbortTimeout (id : Nat)
  | hedgeExpiry (id : Nat)
  | surpriseLinkDown (port : Nat)
  | drivePortFatalError (port : Nat)
  | containmentHoldExpiry (port : Nat)
  | dpcrelWrite (w : Word)
  | bayPower (m : Master)
  | bayLed (m : Master)
  | bayClear (m : Master)
  | bayQuery (m : Master)
  | powerUp (recalled : List MirBlock) (bist : List TestOutcome)
  | efuseCurrentLimit
  | efuseFastTrip
  | efuseRetry
  | efuseFaultClear
  | vinCutoff
  | vinOvervoltage
  | railFault (rail : Rail)
  | aonFeedLoss
  | referenceLoss
  | referenceRestored
  | domainWake (domain : Nat)
  | domainIdle (domain : Nat)
  | powerStateEvaluation (window : LoadWindow)
  | retentionCheck (ok : Bool)
  | supervisorTrim
  | modRestart (m : Master)
  | restartDrainComplete
  | pwrPolicy (m : Master)
  | pwrQuery (m : Master)
  | thermalTrip
  | marginScan (lane : Nat)
  | marginScanComplete (lane : Nat) (r : ScanResult)
  | relearnWaitExpiry
  | egressDrained
  | retrainCheck (scans : List ScanResult)
  | parkedRetry (port : Nat)
  | routeMoveWait
  | retrainNoticeTimeout
  | drivePortRetrainEnd (port : Nat) (ok : Bool)
  | hbmPass (stack : Nat) (temp : Int)
  | hbmSlice
  | eccBurst (pc : Nat)
  | chopAverage (channel : Nat) (microvolt : Int)
  | sensorTrim (differences : List Int)
  | cntConfig (m : Master)
  | cntRead (m : Master)
  | cntSnapshot (m : Master)
  | boxOfficeSweep (late : Bool)
  | testStart (m : Master)
  | testStop (m : Master)
  | testResult (m : Master)
  | liveTestEnd (r : TestOutcome)
  | tapInstruction (ir : TapInstr)
  | timeBaseSet
  | timeBaseLatch
  | fenceInDeasserted
  | bholdAFall
  | masterPresenceExpiry (m : Master)
  | duplicateSuppressionExpiry (uid nonce : Nat)
  | sepPerstAssert
  | sepLinkUp (speed width : Nat)
  | domainOn (domain : Nat) (ok : Bool)
  | sampleQueueDrain
  | hbmpcPiece (errors : Nat)
  | bayTestVoutCheck (millivolt : Nat)
  deriving DecidableEq, Repr

end Sys2Proof
end

