-- ==== Sys2Proof/Decode.lean ====
section
/-! DEFINITION. The command a word spells. The opcode table gives no row any bits (fields: none), so no word spells a
command. -/

namespace Sys2Proof

/-- The command that the `nbits` bits of `w` spell by spec/opcode_table.json: the table gives its rows no bits. -/
def decodeTableWord (_nbits _w : Nat) : Option Instr := none

end Sys2Proof
end

