-- ==== Sys2Proof/Config.lean ====
section
/-! DEFINITION. What a part fixes (R1 to R3, R20), and the free values: constants without a body for what the
spec leaves open or takes from outside it (logs 4 and 12). -/

namespace Sys2Proof.Config

open Sys2Proof.Machine

/-- Bays of a part (R1). -/
def bays : Part → Nat
  | .kv9616b => 16
  | _ => 24

/-- Host ports of a part (R1). -/
def hostPorts : Part → Nat
  | .kv9616b => 2
  | _ => 4

/-- Fabric ports of a part (R1). -/
def fabPorts : Part → Nat
  | .kv9616b => 2
  | _ => 4

/-- Whether a part has external port `n`: 0 to 3 for H0 to H3, 4 to 7 for F0 to F3 (R1). -/
def extPort (p : Part) (n : Nat) : Bool := if n < 4 then decide (n < hostPorts p) else decide (n - 4 < fabPorts p)

/-- Whether a part has cipher lanes and key vault (R1). -/
def hasCipher : Part → Bool
  | .kv9624c => false
  | _ => true

/-- Whether a part supports m = 3 (R1). -/
def hasTriple : Part → Bool
  | .kv9616b => false
  | _ => true

/-- Whether a part has the read fan-out unit (R1). -/
def hasRfu : Part → Bool
  | .kv9616b => false
  | _ => true

/-- ID.UNITPRES of a part (R3). -/
def unitPres : Part → Word
  | .kv9624a => 0x0044180F
  | .kv9624c => 0x0044180E
  | .kv9616b => 0x00221009

/-- Midplane ports of a part (R20, R222). -/
def midplane : Part → List Nat
  | .kv9616b => [0]
  | _ => [0, 1]

/-- A free number: value `k` of a run (log 4). -/
opaque freeNat : Nat → Nat

/-- Field `k` of what the establishment of connection `c` settles (R262; log 78). -/
opaque connPart (c k : Nat) : Nat

/-- A free byte (log 4). -/
opaque freeByte : Nat → Byte

/-- XTS-AES-256 encryption of a data unit (R369): key material, tweak, plaintext. The cipher is IEEE 1619's and is
not modelled further (log 12). -/
opaque xtsEncrypt : Nat → Nat → Block → Block

/-- XTS-AES-256 decryption of a data unit (R369; log 12). -/
opaque xtsDecrypt : Nat → Nat → Block → Block

/-- The wrapped traffic keys of a connection (R263, R301): wrapping key, write and read key (log 12). -/
opaque wrapKeys : Nat → Nat → Nat → List Byte

/-- The traffic keys of a wrapped pair under a wrapping key, write and read key (R263, R301; log 12). -/
opaque unwrapKeys : Nat → List Byte → Nat × Nat

/-- A key wrapped under another (R390): wrapping key, TYPE, GEN, key; 80 bytes that AES-KW fixes (log 12). -/
opaque wrapKey : Nat → Nat → Nat → Nat → List Byte

/-- The unwrapping of R391: wrapping key, TYPE asked for, wrapped bytes; the key, when the integrity value and TYPE
hold (log 12). -/
opaque unwrapKey : Nat → Nat → List Byte → Option Nat

/-- The name of the pair key that the two vaults of a shelf agree (R388; log 12). -/
opaque pairKey : Nat

/-- Whether a login response is the HMAC of R394 under an officer's key: key, nonce, master, officer, response (log
12). -/
opaque officerGood : Nat → Nat → Nat → Nat → List Byte → Bool

/-- Whether the two halves of an XTS key are equal (R391; log 12). -/
opaque xtsHalvesEqual : Nat → Bool

/-- Whether the digest and the signature of a staged firmware image hold (R430; log 12). -/
opaque firmwareGood : List Host.Cell → Bool

/-- The name of the transfer key that two modules of a migration agree (R388; log 12). -/
opaque transferKey : Nat

/-- The body of an SPDM response: request code and parameter (R459): digests, certificates, signatures and
measurements of ROMs that the spec does not give (log 12). -/
opaque spdmBody : Nat → Nat → List Byte

/-- Whether a DH-HMAC-CHAP response is right under the host's secret: hash, group, response (R35; log 12). -/
opaque chapGood : Nat → Nat → List Byte → Bool

/-- Where the read cache keeps a block (R509), which the spec does not give (log 4). -/
opaque cacheStack : Nat → Nat → Nat → Nat

/-- The hash of SRC, DST and FLOW that chooses among ports of equal cost (R233), which the spec does not give (log
4). -/
opaque flowHash : Nat → Nat → Nat → Nat

/-- The NVMe version that the module reports, which the spec does not give (log 4). -/
opaque nvmeVersion : Nat

/-- Serial number, model number and firmware revision of Identify Controller, which the spec does not give (log 4). -/
opaque identByte : Nat → Byte

/-- The globally unique identifier of a namespace (UID, VSID, NSID), which the spec does not give (log 4). -/
opaque nguid : Nat → Nat → Nat → Nat

/-- A byte of the SMART / Health Information log at a reading, which the spec does not give (log 4). -/
opaque smartByte : Nat → Nat → Byte

/-- The controller's response of bidirectional DH-HMAC-CHAP: hash, group, the host's response (log 4). -/
opaque chapAnswer : Nat → Nat → List Byte → Nat

end Sys2Proof.Config
end

