-- ==== Sys2Proof/Machine/Bits.lean ====
section
/-! DEFINITION. Fields of register words (R10, R11), byte strings in the two byte orders the spec uses, CRC-32C,
and sector and byte access to a block of 4,096 bytes. -/

namespace Sys2Proof.Machine

/-- Bits `hi` to `lo` of a number (R10). -/
def bitsOf (x hi lo : Nat) : Nat := x / 2 ^ lo % 2 ^ (hi + 1 - lo)

/-- Field `[hi:lo]` of a register word. -/
def fieldOf (w : Word) (hi lo : Nat) : Nat := bitsOf w.toNat hi lo

/-- A register word from one field's value at its place. -/
def place (v lo : Nat) : Word := BitVec.ofNat 32 (v * 2 ^ lo)

/-- A field of one bit. -/
def placeBit (b : Bool) (lo : Nat) : Word := if b then place 1 lo else 0

/-- Ceiling division. -/
def ceilDiv (a b : Nat) : Nat := (a + b - 1) / b

/-- `a` limited to `m` (a saturating count). -/
def satAt (m a : Nat) : Nat := if m < a then m else a

/-- The little-endian number of a byte string. -/
def leNat : List Byte → Nat
  | [] => 0
  | b :: bs => b.toNat + 256 * leNat bs

/-- The big-endian number of a byte string. -/
def beNat (bs : List Byte) : Nat := bs.foldl (fun a b => a * 256 + b.toNat) 0

/-- `n` bytes of a number, little-endian. -/
def leBytes : Nat → Nat → List Byte
  | 0, _ => []
  | n + 1, v => BitVec.ofNat 8 (v % 256) :: leBytes n (v / 256)

/-- `n` bytes of a number, big-endian. -/
def beBytes (n v : Nat) : List Byte := (leBytes n v).reverse

/-- `n` bytes from offset `o`, as far as the string reaches. -/
def slice (bs : List Byte) (o n : Nat) : List Byte := (bs.drop o).take n

/-- The little-endian number in `n` bytes from offset `o`. -/
def leAt (bs : List Byte) (o n : Nat) : Nat := leNat (slice bs o n)

/-- The big-endian number in `n` bytes from offset `o`. -/
def beAt (bs : List Byte) (o n : Nat) : Nat := beNat (slice bs o n)

/-- The byte at offset `o`, 0 past the end. -/
def byteAt (bs : List Byte) (o : Nat) : Nat := leAt bs o 1

/-- A byte string of `n` zero bytes. -/
def zeroBytes (n : Nat) : List Byte := List.replicate n 0

/-- A byte string cut or padded with zero bytes to length `n`. -/
def padTo (n : Nat) (bs : List Byte) : List Byte := bs.take n ++ zeroBytes (n - bs.length)

/-- A byte string without its trailing zero bytes (the padding of R286). -/
def stripZeros (bs : List Byte) : List Byte := (bs.reverse.dropWhile (fun b => b = 0)).reverse

/-- One bit of the reflected CRC-32C register: the Castagnoli polynomial 0x1EDC6F41 is 0x82F63B78 reflected. -/
def crcBit (c : BitVec 32) : BitVec 32 :=
  if c.getLsbD 0 then (c >>> 1) ^^^ 0x82F63B78#32 else c >>> 1

/-- One byte into the CRC-32C register. -/
def crcByte (c : BitVec 32) (b : Byte) : BitVec 32 :=
  let x := c ^^^ b.setWidth 32
  crcBit (crcBit (crcBit (crcBit (crcBit (crcBit (crcBit (crcBit x)))))))

/-- CRC-32C of a byte string (R104, R164, R167, R217, R410): register preset to ones and inverted at the end. -/
def crc32c (bs : List Byte) : BitVec 32 := ~~~ (bs.foldl crcByte 0xFFFFFFFF#32)

/-- A 64-byte safety-net line of 60 content bytes: the content and its CRC-32C in bytes 0x3C to 0x3F (R167). -/
def sealLine (bs : List Byte) : List Byte :=
  let c := padTo 60 bs
  c ++ leBytes 4 (crc32c c).toNat

/-- Whether a 64-byte line's CRC holds. -/
def lineOk (l : List Byte) : Bool := l.length = 64 && leAt l 60 4 = (crc32c (l.take 60)).toNat

/-- Sector `i` of a block (R84). -/
def blockSector (b : Block) (i : Nat) : Sector := b.extractLsb' (4096 * i) 4096

/-- The ones of sector `i` in a block. -/
def sectorOnes (i : Nat) : Block := (BitVec.setWidth 32768 (~~~ (0 : Sector))) <<< (4096 * i)

/-- A block with sector `i` replaced. -/
def setSector (b : Block) (i : Nat) (x : Sector) : Block :=
  (b &&& ~~~ sectorOnes i) ||| ((BitVec.setWidth 32768 x) <<< (4096 * i))

/-- The bytes of a bit vector of `8 * n` bits, lowest first. -/
def bytesOf (n v : Nat) : List Byte := leBytes n v

/-- The block whose bytes are given, lowest first. -/
def blockOfBytes (bs : List Byte) : Block := BitVec.ofNat 32768 (leNat bs)

/-- The 4,096 bytes of a block, lowest first. -/
def blockBytes (b : Block) : List Byte := leBytes 4096 b.toNat

/-- The list with `f` applied to every element that satisfies `p`. -/
def updWhere {α : Type} (p : α → Bool) (f : α → α) (l : List α) : List α :=
  l.map (fun x => if p x then f x else x)

/-- Whether a list of numbers holds `x`. -/
def hasNat (l : List Nat) (x : Nat) : Bool := l.any (fun y => y = x)

/-- `x` added to a list of numbers that does not hold it yet. -/
def addNat (l : List Nat) (x : Nat) : List Nat := if hasNat l x then l else l ++ [x]

/-- `x` taken out of a list of numbers. -/
def dropNat (l : List Nat) (x : Nat) : List Nat := l.filter (fun y => y ≠ x)

/-- The sum of a list of numbers. -/
def sumNat (l : List Nat) : Nat := l.foldl (fun a b => a + b) 0

/-- The numbers `a`, `a + 1`, … of which there are `n`. -/
def natsFrom : Nat → Nat → List Nat
  | _, 0 => []
  | a, n + 1 => a :: natsFrom (a + 1) n

/-- The word whose bit `i` is set for each listed `i`. -/
def maskOf (l : List Nat) : Word := l.foldl (fun w i => w ||| place 1 i) 0

/-- The position-wise update of a list. -/
def setAt {α : Type} : List α → Nat → α → List α
  | [], _, _ => []
  | _ :: xs, 0, v => v :: xs
  | x :: xs, n + 1, v => x :: setAt xs n v

/-- Whether a deadline is armed and has come. -/
def due (t : Timer) (now : Nat) : Bool :=
  match t with
  | some d => d ≤ now
  | none => false

/-- One microsecond, millisecond and second in nanoseconds. -/
def us (n : Nat) : Nat := n * 1000

/-- Milliseconds in nanoseconds. -/
def ms (n : Nat) : Nat := n * 1000000

/-- Seconds in nanoseconds. -/
def sec (n : Nat) : Nat := n * 1000000000

end Sys2Proof.Machine
end

