-- ==== Sys2Proof/Machine/RegMap.lean ====
section
/-! DEFINITION. The register map: one row for every register table of the spec (the chapters' tables, collected by
20_register_map.md), written from those tables: where the register lies, which bits have which access code of
R14, and the reset value of its kept bits (R592). Fields that the module reports rather than keeps (RO) are
derived from the rest of the state in Machine/Flags.lean. -/

namespace Sys2Proof.Machine

/-- One register, or a bank of `n1` by `n2` registers of one layout at strides `s1` and `s2`. `rw`, `w1c` and
`rc` are the bits of those access codes (R14), `reset` the reset value of these bits; `window` marks a register
whose fields show an entry that another register selects, and which therefore keeps nothing itself. -/
structure RegDesc where
  base : Nat
  n1 : Nat
  s1 : Nat
  n2 : Nat
  s2 : Nat
  rw : Word
  w1c : Word
  rc : Word
  wo : Word
  reset : Word
  window : Bool
  deriving DecidableEq, Repr

/-! The addresses of R17 and of the block summary of chapter 20; of a bank, its first register. -/

/-- ID.PARTID, chapter 20. -/
def Reg.idPartid : Nat := 0x0
/-- ID.VENDOR, chapter 20. -/
def Reg.idVendor : Nat := 0x4
/-- ID.UNITPRES, chapter 00. -/
def Reg.idUnitpres : Nat := 0x8
/-- ID.SLOT, chapter 20. -/
def Reg.idSlot : Nat := 0xc
/-- ID.UIDLO, chapter 20. -/
def Reg.idUidlo : Nat := 0x10
/-- ID.UIDHI, chapter 20. -/
def Reg.idUidhi : Nat := 0x14
/-- ID.FWVER0, chapter 20. -/
def Reg.idFwver0 : Nat := 0x18
/-- ID.FWVER1, chapter 20. -/
def Reg.idFwver1 : Nat := 0x1c
/-- PWR.STATE, chapter 16. -/
def Reg.pwrState : Nat := 0x10000
/-- PWR.POLICY0, chapter 16. -/
def Reg.pwrPolicy0 : Nat := 0x10004
/-- PWR.POLICY1, chapter 16. -/
def Reg.pwrPolicy1 : Nat := 0x10008
/-- PWR.EVT, chapter 16. -/
def Reg.pwrEvt : Nat := 0x1000c
/-- PWR.INSTAT, chapter 16. -/
def Reg.pwrInstat : Nat := 0x10010
/-- PWR.DOMONi, chapter 16. -/
def Reg.pwrDomon : Nat := 0x10020
/-- PWR.DOMRETi, chapter 16. -/
def Reg.pwrDomret : Nat := 0x10030
/-- BAY.CFG, chapter 15. -/
def Reg.bayCfg : Nat := 0x20000
/-- BAY.HOLD, chapter 15. -/
def Reg.bayHold : Nat := 0x20004
/-- BAY.BCFGn, chapter 15. -/
def Reg.bayBcfg : Nat := 0x20100
/-- BAY.BSTATn, chapter 15. -/
def Reg.bayBstat : Nat := 0x20104
/-- BAY.BMEASn, chapter 15. -/
def Reg.bayBmeas : Nat := 0x20108
/-- BAY.BCNTn, chapter 15. -/
def Reg.bayBcnt : Nat := 0x2010c
/-- DPX.CFG, chapter 15. -/
def Reg.dpxCfg : Nat := 0x30000
/-- DPX.IOCFG, chapter 15. -/
def Reg.dpxIocfg : Nat := 0x30004
/-- DPX.DPCCFG, chapter 15. -/
def Reg.dpxDpccfg : Nat := 0x30008
/-- DPX.DPCREL, chapter 15. -/
def Reg.dpxDpcrel : Nat := 0x3000c
/-- DPX.LATE_CPL, chapter 15. -/
def Reg.dpxLateCpl : Nat := 0x30010
/-- DPX.CTO, chapter 15. -/
def Reg.dpxCto : Nat := 0x30014
/-- DPX.CONTAIN, chapter 15. -/
def Reg.dpxContain : Nat := 0x30018
/-- DPX.IORETRY, chapter 15. -/
def Reg.dpxIoretry : Nat := 0x3001c
/-- DPX.HEDGED, chapter 15. -/
def Reg.dpxHedged : Nat := 0x30020
/-- DPX.PSTATn, chapter 15. -/
def Reg.dpxPstat : Nat := 0x30100
/-- MAC.TSCTL, chapter 20. -/
def Reg.macTsctl : Nat := 0x40000
/-- MAC.TODSEC, chapter 20. -/
def Reg.macTodsec : Nat := 0x40004
/-- MAC.TODNS, chapter 20. -/
def Reg.macTodns : Nat := 0x40008
/-- MAC.TSADJ, chapter 20. -/
def Reg.macTsadj : Nat := 0x4000c
/-- MAC.PCFGp, chapter 20. -/
def Reg.macPcfg : Nat := 0x40100
/-- MAC.ADDRLOp, chapter 20. -/
def Reg.macAddrlo : Nat := 0x40104
/-- MAC.ADDRHIp, chapter 20. -/
def Reg.macAddrhi : Nat := 0x40108
/-- MAC.LSTATp, chapter 20. -/
def Reg.macLstat : Nat := 0x4010c
/-- MAC.FECCORp, chapter 20. -/
def Reg.macFeccor : Nat := 0x40110
/-- MAC.FECUNCp, chapter 20. -/
def Reg.macFecunc : Nat := 0x40114
/-- MAC.FCSERRp, chapter 20. -/
def Reg.macFcserr : Nat := 0x40118
/-- MAC.PFCRXp, chapter 20. -/
def Reg.macPfcrx : Nat := 0x4011c
/-- MAC.FECHIp, chapter 20. -/
def Reg.macFechi : Nat := 0x40120
/-- PPC.BANKCTL, chapter 10. -/
def Reg.ppcBankctl : Nat := 0x50000
/-- PPC.BANKSTAT, chapter 10. -/
def Reg.ppcBankstat : Nat := 0x50004
/-- PPC.INFLIGHT, chapter 10. -/
def Reg.ppcInflight : Nat := 0x50008
/-- PPC.UPDCFG, chapter 10. -/
def Reg.ppcUpdcfg : Nat := 0x5000c
/-- PPC.TUNPORT, chapter 10. -/
def Reg.ppcTunport : Nat := 0x50010
/-- PPC.TWADDR, chapter 10. -/
def Reg.ppcTwaddr : Nat := 0x50020
/-- PPC.TWCTL, chapter 10. -/
def Reg.ppcTwctl : Nat := 0x50024
/-- PPC.TWDATAi, chapter 10. -/
def Reg.ppcTwdata : Nat := 0x50040
/-- PPC.EXRATEn, chapter 10. -/
def Reg.ppcExrate : Nat := 0x50080
/-- PPC.INCOMPL, chapter 10. -/
def Reg.ppcIncompl : Nat := 0x500a0
/-- PPC.MALFORM, chapter 10. -/
def Reg.ppcMalform : Nat := 0x500a4
/-- PPC.TREEERR, chapter 10. -/
def Reg.ppcTreeerr : Nat := 0x500a8
/-- PPC.PDUERR, chapter 10. -/
def Reg.ppcPduerr : Nat := 0x500ac
/-- PPC.ICRCERR, chapter 10. -/
def Reg.ppcIcrcerr : Nat := 0x500b0
/-- PPC.EXDROP0, chapter 10. -/
def Reg.ppcExdrop0 : Nat := 0x500b4
/-- PPC.EXDROP1, chapter 10. -/
def Reg.ppcExdrop1 : Nat := 0x500b8
/-- PPC.EXDROP2, chapter 10. -/
def Reg.ppcExdrop2 : Nat := 0x500bc
/-- PPC.EXQFULL, chapter 10. -/
def Reg.ppcExqfull : Nat := 0x500c0
/-- PPC.RCLIMIT, chapter 10. -/
def Reg.ppcRclimit : Nat := 0x500c4
/-- XBR.CFG, chapter 11. -/
def Reg.xbrCfg : Nat := 0x60000
/-- XBR.SAMPCFG, chapter 11. -/
def Reg.xbrSampcfg : Nat := 0x60004
/-- XBR.SAMPN, chapter 11. -/
def Reg.xbrSampn : Nat := 0x60008
/-- XBR.SAMPLED, chapter 11. -/
def Reg.xbrSampled : Nat := 0x60010
/-- XBR.SAMPDROP, chapter 11. -/
def Reg.xbrSampdrop : Nat := 0x60014
/-- XBR.RESFULL, chapter 11. -/
def Reg.xbrResfull : Nat := 0x60018
/-- XBR.MCWDRAW, chapter 11. -/
def Reg.xbrMcwdraw : Nat := 0x6001c
/-- XBR.OCCQRY, chapter 11. -/
def Reg.xbrOccqry : Nat := 0x60020
/-- XBR.OCCDATA, chapter 11. -/
def Reg.xbrOccdata : Nat := 0x60024
/-- ESS.PORTCFGp, chapter 11. -/
def Reg.essPortcfg : Nat := 0x70000
/-- ESS.PFCTHRp, chapter 11. -/
def Reg.essPfcthr : Nat := 0x70020
/-- ESS.TCWGTLp, chapter 11. -/
def Reg.essTcwgtl : Nat := 0x70040
/-- ESS.TCWGTHp, chapter 11. -/
def Reg.essTcwgth : Nat := 0x70044
/-- ESS.ECNc, chapter 11. -/
def Reg.essEcn : Nat := 0x70080
/-- ESS.DECFG, chapter 11. -/
def Reg.essDecfg : Nat := 0x700a0
/-- ESS.CNPCFG, chapter 11. -/
def Reg.essCnpcfg : Nat := 0x700a4
/-- ESS.SHSEL, chapter 11. -/
def Reg.essShsel : Nat := 0x70100
/-- ESS.SHRATE, chapter 11. -/
def Reg.essShrate : Nat := 0x70104
/-- ESS.SHBURST, chapter 11. -/
def Reg.essShburst : Nat := 0x70108
/-- ESS.SHWGT, chapter 11. -/
def Reg.essShwgt : Nat := 0x7010c
/-- ESS.DEDROP, chapter 11. -/
def Reg.essDedrop : Nat := 0x70180
/-- ESS.ECNMARK, chapter 11. -/
def Reg.essEcnmark : Nat := 0x70184
/-- ESS.CNPTX, chapter 11. -/
def Reg.essCnptx : Nat := 0x70188
/-- ESS.CNPRX, chapter 11. -/
def Reg.essCnprx : Nat := 0x7018c
/-- ESS.PFCOVF, chapter 11. -/
def Reg.essPfcovf : Nat := 0x70190
/-- ESS.LINKFLUSH, chapter 11. -/
def Reg.essLinkflush : Nat := 0x70194
/-- ESS.POLSEL, chapter 10. -/
def Reg.essPolsel : Nat := 0x78000
/-- ESS.POLCIR, chapter 10. -/
def Reg.essPolcir : Nat := 0x78004
/-- ESS.POLBKT, chapter 10. -/
def Reg.essPolbkt : Nat := 0x78008
/-- ESS.POLRED, chapter 10. -/
def Reg.essPolred : Nat := 0x7800c
/-- HCE.HCFG, chapter 02. -/
def Reg.hceHcfg : Nat := 0x80000
/-- HCE.TAGSTAT, chapter 02. -/
def Reg.hceTagstat : Nat := 0x80010
/-- HCE.TAGPEAK, chapter 02. -/
def Reg.hceTagpeak : Nat := 0x80014
/-- HCE.TAGQRY, chapter 02. -/
def Reg.hceTagqry : Nat := 0x80018
/-- HCE.TAGINFO, chapter 02. -/
def Reg.hceTaginfo : Nat := 0x8001c
/-- HCE.TAGSQ, chapter 02. -/
def Reg.hceTagsq : Nat := 0x80020
/-- HCE.ABTCNT, chapter 02. -/
def Reg.hceAbtcnt : Nat := 0x80024
/-- HCE.PROTOERR, chapter 02. -/
def Reg.hceProtoerr : Nat := 0x80028
/-- HCE.WBCTL, chapter 03. -/
def Reg.hceWbctl : Nat := 0x80040
/-- HCE.WBSTAT, chapter 03. -/
def Reg.hceWbstat : Nat := 0x80044
/-- HCE.WTSTATE, chapter 03. -/
def Reg.hceWtstate : Nat := 0x80048
/-- HCE.FLCFG, chapter 03. -/
def Reg.hceFlcfg : Nat := 0x8004c
/-- HCE.RLTSTAT, chapter 03. -/
def Reg.hceRltstat : Nat := 0x80050
/-- HCE.RLWAIT, chapter 03. -/
def Reg.hceRlwait : Nat := 0x80054
/-- RFU.CFG, chapter 04. -/
def Reg.rfuCfg : Nat := 0x90000
/-- RFU.RESCFG, chapter 04. -/
def Reg.rfuRescfg : Nat := 0x90004
/-- RFU.GRPSTAT, chapter 04. -/
def Reg.rfuGrpstat : Nat := 0x90008
/-- RFU.OPENED, chapter 04. -/
def Reg.rfuOpened : Nat := 0x90010
/-- RFU.JOINED, chapter 04. -/
def Reg.rfuJoined : Nat := 0x90014
/-- RFU.SOLO, chapter 04. -/
def Reg.rfuSolo : Nat := 0x90018
/-- RFU.RESID, chapter 04. -/
def Reg.rfuResid : Nat := 0x9001c
/-- RFU.NOGRP, chapter 04. -/
def Reg.rfuNogrp : Nat := 0x90020
/-- RFU.UNICAST, chapter 04. -/
def Reg.rfuUnicast : Nat := 0x90024
/-- RGE.DRNCFG, chapter 05. -/
def Reg.rgeDrncfg : Nat := 0xa0000
/-- RGE.BMCFG, chapter 05. -/
def Reg.rgeBmcfg : Nat := 0xa0004
/-- RGE.JSTAT, chapter 05. -/
def Reg.rgeJstat : Nat := 0xa0008
/-- RGE.TORN, chapter 05. -/
def Reg.rgeTorn : Nat := 0xa000c
/-- RGE.PTQRY, chapter 05. -/
def Reg.rgePtqry : Nat := 0xa0010
/-- RGE.PTDATA, chapter 05. -/
def Reg.rgePtdata : Nat := 0xa0014
/-- RGE.RBCFG, chapter 06. -/
def Reg.rgeRbcfg : Nat := 0xa0018
/-- RGE.RBLAW, chapter 06. -/
def Reg.rgeRblaw : Nat := 0xa001c
/-- RGE.RBRATE, chapter 06. -/
def Reg.rgeRbrate : Nat := 0xa0020
/-- RGE.PATCFG, chapter 06. -/
def Reg.rgePatcfg : Nat := 0xa0024
/-- RGE.MBCFG, chapter 06. -/
def Reg.rgeMbcfg : Nat := 0xa0028
/-- RGE.REPAIRED, chapter 06. -/
def Reg.rgeRepaired : Nat := 0xa002c
/-- RGE.PATMIS, chapter 06. -/
def Reg.rgePatmis : Nat := 0xa0030
/-- RGE.LOSTCNT, chapter 06. -/
def Reg.rgeLostcnt : Nat := 0xa0034
/-- RGE.RCFGn, chapter 05. -/
def Reg.rgeRcfg : Nat := 0xa0100
/-- RGE.RSTATn, chapter 05. -/
def Reg.rgeRstat : Nat := 0xa0104
/-- RGE.RSEEDn, chapter 05. -/
def Reg.rgeRseed : Nat := 0xa0108
/-- RGE.RREGn, chapter 05. -/
def Reg.rgeRreg : Nat := 0xa010c
/-- RGE.RSYNCn, chapter 05. -/
def Reg.rgeRsync : Nat := 0xa0110
/-- RGE.MSTATn_j, chapter 06. -/
def Reg.rgeMstat : Nat := 0xa0200
/-- RGE.RBLEFTn, chapter 06. -/
def Reg.rgeRbleft : Nat := 0xa0600
/-- RGE.RBLVLn, chapter 06. -/
def Reg.rgeRblvl : Nat := 0xa0604
/-- RGE.PATPOSn, chapter 06. -/
def Reg.rgePatpos : Nat := 0xa0608
/-- SNT.STAT, chapter 20. -/
def Reg.sntStat : Nat := 0xb0000
/-- SNT.ECCCOR, chapter 20. -/
def Reg.sntEcccor : Nat := 0xb0004
/-- SNT.ECCUNC, chapter 20. -/
def Reg.sntEccunc : Nat := 0xb0008
/-- SNT.WEAR, chapter 20. -/
def Reg.sntWear : Nat := 0xb000c
/-- RFX.CFG, chapter 07. -/
def Reg.rfxCfg : Nat := 0xc0000
/-- RFX.FIDCFG, chapter 07. -/
def Reg.rfxFidcfg : Nat := 0xc0004
/-- RFX.FIDSTAT, chapter 07. -/
def Reg.rfxFidstat : Nat := 0xc0008
/-- RFX.LINKSTAT, chapter 07. -/
def Reg.rfxLinkstat : Nat := 0xc000c
/-- RFX.NBR, chapter 07. -/
def Reg.rfxNbr : Nat := 0xc0010
/-- RFX.PEERSTAT, chapter 07. -/
def Reg.rfxPeerstat : Nat := 0xc0014
/-- RFX.ELCFG, chapter 07. -/
def Reg.rfxElcfg : Nat := 0xc0018
/-- RFX.RTQRY, chapter 07. -/
def Reg.rfxRtqry : Nat := 0xc001c
/-- RFX.RTDATA, chapter 07. -/
def Reg.rfxRtdata : Nat := 0xc0020
/-- RFX.BADHDR, chapter 07. -/
def Reg.rfxBadhdr : Nat := 0xc0024
/-- RFX.NOROUTE, chapter 07. -/
def Reg.rfxNoroute : Nat := 0xc0028
/-- RFX.HOPEXP, chapter 07. -/
def Reg.rfxHopexp : Nat := 0xc002c
/-- RFX.RPRIOn, chapter 07. -/
def Reg.rfxRprio : Nat := 0xc0100
/-- RFX.REPOCHn, chapter 07. -/
def Reg.rfxRepoch : Nat := 0xc0104
/-- RFX.RMASTn, chapter 07. -/
def Reg.rfxRmast : Nat := 0xc0108
/-- RFX.TKCFG, chapter 08. -/
def Reg.rfxTkcfg : Nat := 0xc0200
/-- RFX.TKSTAT, chapter 08. -/
def Reg.rfxTkstat : Nat := 0xc0204
/-- RFX.TKTIME, chapter 08. -/
def Reg.rfxTktime : Nat := 0xc0208
/-- RFX.MIRSTAT, chapter 08. -/
def Reg.rfxMirstat : Nat := 0xc020c
/-- RFX.MIRRTX, chapter 08. -/
def Reg.rfxMirrtx : Nat := 0xc0210
/-- VSM.FRZCFG, chapter 09. -/
def Reg.vsmFrzcfg : Nat := 0xd0000
/-- VSM.MIGCFG, chapter 09. -/
def Reg.vsmMigcfg : Nat := 0xd0004
/-- VSM.CFGSTAT, chapter 09. -/
def Reg.vsmCfgstat : Nat := 0xd0008
/-- VSM.POOLTAG, chapter 09. -/
def Reg.vsmPooltag : Nat := 0xd000c
/-- VSM.POOLQC, chapter 09. -/
def Reg.vsmPoolqc : Nat := 0xd0010
/-- VSM.POOLNH, chapter 09. -/
def Reg.vsmPoolnh : Nat := 0xd0014
/-- VSM.VSQRY, chapter 09. -/
def Reg.vsmVsqry : Nat := 0xd0018
/-- VSM.VSINFO, chapter 09. -/
def Reg.vsmVsinfo : Nat := 0xd001c
/-- VSM.VSSHARE, chapter 09. -/
def Reg.vsmVsshare : Nat := 0xd0020
/-- ICL.LANESTAT, chapter 12. -/
def Reg.iclLanestat : Nat := 0xe0000
/-- ICL.RKCFG, chapter 12. -/
def Reg.iclRkcfg : Nat := 0xe0004
/-- ICL.MSCFGp, chapter 12. -/
def Reg.iclMscfg : Nat := 0xe0010
/-- ICL.MSDROP, chapter 12. -/
def Reg.iclMsdrop : Nat := 0xe0020
/-- ICL.MSAUTH, chapter 12. -/
def Reg.iclMsauth : Nat := 0xe0024
/-- ICL.TLSAUTH, chapter 12. -/
def Reg.iclTlsauth : Nat := 0xe0028
/-- ICL.KEYUPD, chapter 12. -/
def Reg.iclKeyupd : Nat := 0xe002c
/-- ICL.REKEYS, chapter 12. -/
def Reg.iclRekeys : Nat := 0xe0030
/-- KVT.STAT, chapter 12. -/
def Reg.kvtStat : Nat := 0xf0000
/-- KVT.LOCK, chapter 12. -/
def Reg.kvtLock : Nat := 0xf0004
/-- KVT.LOCKCFG, chapter 12. -/
def Reg.kvtLockcfg : Nat := 0xf0008
/-- MBX.DOORBELL, chapter 13. -/
def Reg.mbxDoorbell : Nat := 0x100000
/-- MBX.RSTAT, chapter 13. -/
def Reg.mbxRstat : Nat := 0x100004
/-- MBX.INBCFG, chapter 13. -/
def Reg.mbxInbcfg : Nat := 0x100008
/-- MBX.MSTAT, chapter 13. -/
def Reg.mbxMstat : Nat := 0x10000c
/-- MBX.CRCERR, chapter 13. -/
def Reg.mbxCrcerr : Nat := 0x100010
/-- MBX.REJECT, chapter 13. -/
def Reg.mbxReject : Nat := 0x100014
/-- MBX.FWSTAT, chapter 13. -/
def Reg.mbxFwstat : Nat := 0x100020
/-- MBX.OWNCFG, chapter 07. -/
def Reg.mbxOwncfg : Nat := 0x100040
/-- MBX.OWNSTAT, chapter 07. -/
def Reg.mbxOwnstat : Nat := 0x100044
/-- SEP.CFG, chapter 14. -/
def Reg.sepCfg : Nat := 0x110000
/-- SEP.STAT, chapter 14. -/
def Reg.sepStat : Nat := 0x110004
/-- SEP.OUTST, chapter 14. -/
def Reg.sepOutst : Nat := 0x110008
/-- SEP.EVTSTAT, chapter 14. -/
def Reg.sepEvtstat : Nat := 0x110010
/-- SEP.EVTEN, chapter 14. -/
def Reg.sepEvten : Nat := 0x110014
/-- SEP.LATE_CPL, chapter 14. -/
def Reg.sepLateCpl : Nat := 0x110020
/-- SEP.CTO, chapter 14. -/
def Reg.sepCto : Nat := 0x110024
/-- SEP.DMAFAIL, chapter 14. -/
def Reg.sepDmafail : Nat := 0x110028
/-- SEP.NARROW, chapter 14. -/
def Reg.sepNarrow : Nat := 0x11002c
/-- LCU.SDCFG, chapter 17. -/
def Reg.lcuSdcfg : Nat := 0x120000
/-- LCU.SDTHR, chapter 17. -/
def Reg.lcuSdthr : Nat := 0x120004
/-- LCU.DPTHR, chapter 17. -/
def Reg.lcuDpthr : Nat := 0x120008
/-- LCU.FECLIM, chapter 17. -/
def Reg.lcuFeclim : Nat := 0x12000c
/-- LCU.LNQRY, chapter 17. -/
def Reg.lcuLnqry : Nat := 0x120010
/-- LCU.LNDATA, chapter 17. -/
def Reg.lcuLndata : Nat := 0x120014
/-- LCU.SDSTAT, chapter 17. -/
def Reg.lcuSdstat : Nat := 0x120018
/-- LCU.DPSTAT, chapter 17. -/
def Reg.lcuDpstat : Nat := 0x12001c
/-- LCU.HBMCFG, chapter 17. -/
def Reg.lcuHbmcfg : Nat := 0x120020
/-- LCU.HBMSTAT, chapter 17. -/
def Reg.lcuHbmstat : Nat := 0x120024
/-- LCU.BPCSTAT, chapter 17. -/
def Reg.lcuBpcstat : Nat := 0x120028
/-- LCU.BPCOOR, chapter 17. -/
def Reg.lcuBpcoor : Nat := 0x12002c
/-- LCU.TSSTAT, chapter 17. -/
def Reg.lcuTsstat : Nat := 0x120030
/-- LCU.RETRAINS, chapter 17. -/
def Reg.lcuRetrains : Nat := 0x120040
/-- LCU.DEFERS, chapter 17. -/
def Reg.lcuDefers : Nat := 0x120044
/-- LCU.HBMRT, chapter 17. -/
def Reg.lcuHbmrt : Nat := 0x120048
/-- LCU.DPRETRAIN, chapter 17. -/
def Reg.lcuDpretrain : Nat := 0x12004c
/-- PMU.BOXSTAT, chapter 18. -/
def Reg.pmuBoxstat : Nat := 0x130000
/-- PMU.CFGv, chapter 18. -/
def Reg.pmuCfg : Nat := 0x131000
/-- PMU.OVFv, chapter 18. -/
def Reg.pmuOvf : Nat := 0x131004
/-- PMU.CYCLOv, chapter 18. -/
def Reg.pmuCyclo : Nat := 0x131008
/-- PMU.CYCHIv, chapter 18. -/
def Reg.pmuCychi : Nat := 0x13100c
/-- PMU.CTLn_v, chapter 18. -/
def Reg.pmuCtl : Nat := 0x131040
/-- PMU.ABASEn_v, chapter 18. -/
def Reg.pmuAbase : Nat := 0x131044
/-- PMU.AMASKn_v, chapter 18. -/
def Reg.pmuAmask : Nat := 0x131048
/-- PMU.CNTLOn_v, chapter 18. -/
def Reg.pmuCntlo : Nat := 0x1310c0
/-- PMU.CNTHIn_v, chapter 18. -/
def Reg.pmuCnthi : Nat := 0x1310c4
/-- TST.STAT, chapter 19. -/
def Reg.tstStat : Nat := 0x140000
/-- TST.PLANE, chapter 19. -/
def Reg.tstPlane : Nat := 0x140004
/-- TST.IDCODE, chapter 19. -/
def Reg.tstIdcode : Nat := 0x140008
/-- SNS.VIN, chapter 16. -/
def Reg.snsVin : Nat := 0x150000
/-- SNS.PIN, chapter 16. -/
def Reg.snsPin : Nat := 0x150004
/-- SNS.TEMP, chapter 16. -/
def Reg.snsTemp : Nat := 0x150008
/-- RFX.LSDB, chapter 07 (R250). -/
def Reg.rfxLsdb : Nat := 0xc0030


/-- Part 0 of the register table. -/
def regTable0 : List RegDesc := [
  ⟨0x0, 1, 0x0, 1, 0x0, 0x0, 0x0, 0x0, 0x0, 0x0, false⟩,
  ⟨0x4, 1, 0x0, 1, 0x0, 0x0, 0x0, 0x0, 0x0, 0x0, false⟩,
  ⟨0x8, 1, 0x0, 1, 0x0, 0x0, 0x0, 0x0, 0x0, 0x0, false⟩,
  ⟨0xc, 1, 0x0, 1, 0x0, 0x0, 0x0, 0x0, 0x0, 0x0, false⟩,
  ⟨0x10, 1, 0x0, 1, 0x0, 0x0, 0x0, 0x0, 0x0, 0x0, false⟩,
  ⟨0x14, 1, 0x0, 1, 0x0, 0x0, 0x0, 0x0, 0x0, 0x0, false⟩,
  ⟨0x18, 1, 0x0, 1, 0x0, 0x0, 0x0, 0x0, 0x0, 0x0, false⟩,
  ⟨0x1c, 1, 0x0, 1, 0x0, 0x0, 0x0, 0x0, 0x0, 0x0, false⟩,
  ⟨0x10000, 1, 0x0, 1, 0x0, 0x0, 0x0, 0x0, 0x0, 0x0, false⟩,
  ⟨0x10004, 1, 0x0, 1, 0x0, 0xffffffff, 0x0, 0x0, 0x0, 0x3190201, false⟩,
  ⟨0x10008, 1, 0x0, 1, 0x0, 0xffffffff, 0x0, 0x0, 0x0, 0x1e0632, false⟩,
  ⟨0x1000c, 1, 0x0, 1, 0x0, 0x0, 0x3f, 0x0, 0x0, 0x0, false⟩,
  ⟨0x10010, 1, 0x0, 1, 0x0, 0x0, 0x0, 0x0, 0x0, 0x0, false⟩,
  ⟨0x10020, 4, 0x4, 1, 0x0, 0x0, 0x0, 0x0, 0x0, 0x0, false⟩,
  ⟨0x10030, 4, 0x4, 1, 0x0, 0x0, 0x0, 0x0, 0x0, 0x0, false⟩,
  ⟨0x20000, 1, 0x0, 1, 0x0, 0xf0ff00, 0x0, 0x0, 0x0, 0x400a00, false⟩,
  ⟨0x20004, 1, 0x0, 1, 0x0, 0x0, 0x0, 0x0, 0x0, 0x0, false⟩,
  ⟨0x20100, 24, 0x10, 1, 0x0, 0x3ffffcff, 0x0, 0x0, 0x0, 0xe053c0a, false⟩,
  ⟨0x20104, 24, 0x10, 1, 0x0, 0x0, 0x0, 0x0, 0x0, 0x0, false⟩,
  ⟨0x20108, 24, 0x10, 1, 0x0, 0x0, 0x0, 0x0, 0x0, 0x0, false⟩,
  ⟨0x2010c, 24, 0x10, 1, 0x0, 0x0, 0x0, 0x0, 0x0, 0x0, false⟩,
  ⟨0x30000, 1, 0x0, 1, 0x0, 0x7ff07, 0x0, 0x0, 0x0, 0x60a02, false⟩,
  ⟨0x30004, 1, 0x0, 1, 0x0, 0xffff00ff, 0x0, 0x0, 0x0, 0x320014, false⟩,
  ⟨0x30008, 1, 0x0, 1, 0x0, 0xf03ff, 0x0, 0x0, 0x0, 0x30064, false⟩]

/-- Part 1 of the register table. -/
def regTable1 : List RegDesc := [
  ⟨0x3000c, 1, 0x0, 1, 0x0, 0x0, 0x0, 0x0, 0xffffff, 0x0, false⟩,
  ⟨0x30010, 1, 0x0, 1, 0x0, 0x0, 0x0, 0xffffffff, 0x0, 0x0, false⟩,
  ⟨0x30014, 1, 0x0, 1, 0x0, 0x0, 0x0, 0xffffffff, 0x0, 0x0, false⟩,
  ⟨0x30018, 1, 0x0, 1, 0x0, 0x0, 0x0, 0xffffffff, 0x0, 0x0, false⟩,
  ⟨0x3001c, 1, 0x0, 1, 0x0, 0x0, 0x0, 0xffffffff, 0x0, 0x0, false⟩,
  ⟨0x30020, 1, 0x0, 1, 0x0, 0x0, 0x0, 0xffffffff, 0x0, 0x0, false⟩,
  ⟨0x30100, 24, 0x4, 1, 0x0, 0x0, 0x0, 0x0, 0x0, 0x0, false⟩,
  ⟨0x40000, 1, 0x0, 1, 0x0, 0x0, 0x0, 0x0, 0x3, 0x0, false⟩,
  ⟨0x40004, 1, 0x0, 1, 0x0, 0xffffffff, 0x0, 0x0, 0x0, 0x0, false⟩,
  ⟨0x40008, 1, 0x0, 1, 0x0, 0x3fffffff, 0x0, 0x0, 0x0, 0x0, false⟩,
  ⟨0x4000c, 1, 0x0, 1, 0x0, 0xffffffff, 0x0, 0x0, 0x0, 0x0, false⟩,
  ⟨0x40100, 8, 0x40, 1, 0x0, 0x80000002, 0x0, 0x0, 0x0, 0x80000002, false⟩,
  ⟨0x40104, 8, 0x40, 1, 0x0, 0x0, 0x0, 0x0, 0x0, 0x0, false⟩,
  ⟨0x40108, 8, 0x40, 1, 0x0, 0x0, 0x0, 0x0, 0x0, 0x0, false⟩,
  ⟨0x4010c, 8, 0x40, 1, 0x0, 0x0, 0x0, 0x0, 0x0, 0x0, false⟩,
  ⟨0x40110, 8, 0x40, 1, 0x0, 0x0, 0x0, 0xffffffff, 0x0, 0x0, false⟩,
  ⟨0x40114, 8, 0x40, 1, 0x0, 0x0, 0x0, 0xffffffff, 0x0, 0x0, false⟩,
  ⟨0x40118, 8, 0x40, 1, 0x0, 0x0, 0x0, 0xffffffff, 0x0, 0x0, false⟩,
  ⟨0x4011c, 8, 0x40, 1, 0x0, 0x0, 0x0, 0xffffffff, 0x0, 0x0, false⟩,
  ⟨0x40120, 8, 0x40, 1, 0x0, 0x0, 0x0, 0xffffffff, 0x0, 0x0, false⟩,
  ⟨0x50000, 1, 0x0, 1, 0x0, 0x0, 0x0, 0x0, 0x1, 0x0, false⟩,
  ⟨0x50004, 1, 0x0, 1, 0x0, 0x0, 0x200, 0x0, 0x0, 0x0, false⟩,
  ⟨0x50008, 1, 0x0, 1, 0x0, 0x0, 0x0, 0x0, 0x0, 0x0, false⟩,
  ⟨0x5000c, 1, 0x0, 1, 0x0, 0x103, 0x0, 0x0, 0x0, 0x0, false⟩]

/-- Part 2 of the register table. -/
def regTable2 : List RegDesc := [
  ⟨0x50010, 1, 0x0, 1, 0x0, 0xffffffff, 0x0, 0x0, 0x0, 0x17c112b5, false⟩,
  ⟨0x50020, 1, 0x0, 1, 0x0, 0xe000ffff, 0x0, 0x0, 0x0, 0x0, false⟩,
  ⟨0x50024, 1, 0x0, 1, 0x0, 0x0, 0x200, 0x0, 0xf, 0x0, false⟩,
  ⟨0x50040, 8, 0x4, 1, 0x0, 0xffffffff, 0x0, 0x0, 0x0, 0x0, false⟩,
  ⟨0x50080, 3, 0x4, 1, 0x0, 0xffffffff, 0x0, 0x0, 0x0, 0x1000c350, false⟩,
  ⟨0x500a0, 1, 0x0, 1, 0x0, 0x0, 0x0, 0xffffffff, 0x0, 0x0, false⟩,
  ⟨0x500a4, 1, 0x0, 1, 0x0, 0x0, 0x0, 0xffffffff, 0x0, 0x0, false⟩,
  ⟨0x500a8, 1, 0x0, 1, 0x0, 0x0, 0x0, 0xffffffff, 0x0, 0x0, false⟩,
  ⟨0x500ac, 1, 0x0, 1, 0x0, 0x0, 0x0, 0xffffffff, 0x0, 0x0, false⟩,
  ⟨0x500b0, 1, 0x0, 1, 0x0, 0x0, 0x0, 0xffffffff, 0x0, 0x0, false⟩,
  ⟨0x500b4, 1, 0x0, 1, 0x0, 0x0, 0x0, 0xffffffff, 0x0, 0x0, false⟩,
  ⟨0x500b8, 1, 0x0, 1, 0x0, 0x0, 0x0, 0xffffffff, 0x0, 0x0, false⟩,
  ⟨0x500bc, 1, 0x0, 1, 0x0, 0x0, 0x0, 0xffffffff, 0x0, 0x0, false⟩,
  ⟨0x500c0, 1, 0x0, 1, 0x0, 0x0, 0x0, 0xffffffff, 0x0, 0x0, false⟩,
  ⟨0x500c4, 1, 0x0, 1, 0x0, 0x0, 0x0, 0xffffffff, 0x0, 0x0, false⟩,
  ⟨0x60000, 1, 0x0, 1, 0x0, 0x7, 0x0, 0x0, 0x0, 0x3, false⟩,
  ⟨0x60004, 1, 0x0, 1, 0x0, 0x800300ff, 0x0, 0x0, 0x0, 0x100ff, false⟩,
  ⟨0x60008, 1, 0x0, 1, 0x0, 0xfffff, 0x0, 0x0, 0x0, 0x3fff, false⟩,
  ⟨0x60010, 1, 0x0, 1, 0x0, 0x0, 0x0, 0xffffffff, 0x0, 0x0, false⟩,
  ⟨0x60014, 1, 0x0, 1, 0x0, 0x0, 0x0, 0xffffffff, 0x0, 0x0, false⟩,
  ⟨0x60018, 1, 0x0, 1, 0x0, 0x0, 0x0, 0xffffffff, 0x0, 0x0, false⟩,
  ⟨0x6001c, 1, 0x0, 1, 0x0, 0x0, 0x0, 0xffffffff, 0x0, 0x0, false⟩,
  ⟨0x60020, 1, 0x0, 1, 0x0, 0x7010f, 0x0, 0x0, 0x0, 0x8, false⟩,
  ⟨0x60024, 1, 0x0, 1, 0x0, 0x0, 0x0, 0x0, 0x0, 0x0, false⟩]

/-- Part 3 of the register table. -/
def regTable3 : List RegDesc := [
  ⟨0x70000, 4, 0x4, 1, 0x0, 0xff00ff, 0x0, 0x0, 0x0, 0x14, false⟩,
  ⟨0x70010, 4, 0x4, 1, 0x0, 0xff00ff, 0x0, 0x0, 0x0, 0x600014, false⟩,
  ⟨0x70020, 4, 0x4, 1, 0x0, 0xffffff, 0x0, 0x0, 0x0, 0x202010, false⟩,
  ⟨0x70030, 4, 0x4, 1, 0x0, 0xffffff, 0x0, 0x0, 0x0, 0x101008, false⟩,
  ⟨0x70040, 8, 0x8, 1, 0x0, 0xffffffff, 0x0, 0x0, 0x0, 0x10101010, false⟩,
  ⟨0x70044, 8, 0x8, 1, 0x0, 0xffffff, 0x0, 0x0, 0x0, 0x101010, false⟩,
  ⟨0x70080, 8, 0x4, 1, 0x0, 0x807fffff, 0x0, 0x0, 0x0, 0x80142004, false⟩,
  ⟨0x700a0, 1, 0x0, 1, 0x0, 0x7f, 0x0, 0x0, 0x0, 0x4b, false⟩,
  ⟨0x700a4, 1, 0x0, 1, 0x0, 0x8000ffff, 0x0, 0x0, 0x0, 0x80003732, false⟩,
  ⟨0x70100, 1, 0x0, 1, 0x0, 0x37ff, 0x0, 0x0, 0x0, 0x0, false⟩,
  ⟨0x70104, 1, 0x0, 1, 0x0, 0xfffff, 0x0, 0x0, 0x0, 0x0, true⟩,
  ⟨0x70108, 1, 0x0, 1, 0x0, 0xffff, 0x0, 0x0, 0x0, 0x40, true⟩,
  ⟨0x7010c, 1, 0x0, 1, 0x0, 0xff, 0x0, 0x0, 0x0, 0x10, true⟩,
  ⟨0x70180, 1, 0x0, 1, 0x0, 0x0, 0x0, 0xffffffff, 0x0, 0x0, false⟩,
  ⟨0x70184, 1, 0x0, 1, 0x0, 0x0, 0x0, 0xffffffff, 0x0, 0x0, false⟩,
  ⟨0x70188, 1, 0x0, 1, 0x0, 0x0, 0x0, 0xffffffff, 0x0, 0x0, false⟩,
  ⟨0x7018c, 1, 0x0, 1, 0x0, 0x0, 0x0, 0xffffffff, 0x0, 0x0, false⟩,
  ⟨0x70190, 1, 0x0, 1, 0x0, 0x0, 0x0, 0xffffffff, 0x0, 0x0, false⟩,
  ⟨0x70194, 1, 0x0, 1, 0x0, 0x0, 0x0, 0xffffffff, 0x0, 0x0, false⟩,
  ⟨0x78000, 1, 0x0, 1, 0x0, 0x3ff, 0x0, 0x0, 0x0, 0x0, false⟩,
  ⟨0x78004, 1, 0x0, 1, 0x0, 0xfffff, 0x0, 0x0, 0x0, 0x0, true⟩,
  ⟨0x78008, 1, 0x0, 1, 0x0, 0xffffffff, 0x0, 0x0, 0x0, 0x400040, true⟩,
  ⟨0x7800c, 1, 0x0, 1, 0x0, 0x0, 0x0, 0xffffffff, 0x0, 0x0, true⟩,
  ⟨0x80000, 1, 0x0, 1, 0x0, 0xff0007, 0x0, 0x0, 0x0, 0x800006, false⟩]

/-- Part 4 of the register table. -/
def regTable4 : List RegDesc := [
  ⟨0x80010, 1, 0x0, 1, 0x0, 0x0, 0x0, 0x0, 0x0, 0x0, false⟩,
  ⟨0x80014, 1, 0x0, 1, 0x0, 0x0, 0x0, 0x7ffff, 0x0, 0x0, false⟩,
  ⟨0x80018, 1, 0x0, 1, 0x0, 0x3ffff, 0x0, 0x0, 0x0, 0x0, false⟩,
  ⟨0x8001c, 1, 0x0, 1, 0x0, 0x0, 0x0, 0x0, 0x0, 0x0, false⟩,
  ⟨0x80020, 1, 0x0, 1, 0x0, 0x0, 0x0, 0x0, 0x0, 0x0, false⟩,
  ⟨0x80024, 1, 0x0, 1, 0x0, 0x0, 0x0, 0xffffffff, 0x0, 0x0, false⟩,
  ⟨0x80028, 1, 0x0, 1, 0x0, 0x0, 0x0, 0xffffffff, 0x0, 0x0, false⟩,
  ⟨0x80040, 1, 0x0, 1, 0x0, 0x7f131f, 0x0, 0x0, 0x0, 0x320108, false⟩,
  ⟨0x80044, 1, 0x0, 1, 0x0, 0x0, 0x0, 0x0, 0x0, 0x0, false⟩,
  ⟨0x80048, 1, 0x0, 1, 0x0, 0x0, 0x0, 0x0, 0x0, 0x0, false⟩,
  ⟨0x8004c, 1, 0x0, 1, 0x0, 0xffff00ff, 0x0, 0x0, 0x0, 0x36b00041, false⟩,
  ⟨0x80050, 1, 0x0, 1, 0x0, 0x0, 0x0, 0x0, 0x0, 0x0, false⟩,
  ⟨0x80054, 1, 0x0, 1, 0x0, 0x0, 0x0, 0xffffffff, 0x0, 0x0, false⟩,
  ⟨0x90000, 1, 0x0, 1, 0x0, 0xfe7fe1, 0x0, 0x0, 0x0, 0x800641, false⟩,
  ⟨0x90004, 1, 0x0, 1, 0x0, 0x7ff, 0x0, 0x0, 0x0, 0xc8, false⟩,
  ⟨0x90008, 1, 0x0, 1, 0x0, 0x0, 0x0, 0x0, 0x0, 0x0, false⟩,
  ⟨0x90010, 1, 0x0, 1, 0x0, 0x0, 0x0, 0xffffffff, 0x0, 0x0, false⟩,
  ⟨0x90014, 1, 0x0, 1, 0x0, 0x0, 0x0, 0xffffffff, 0x0, 0x0, false⟩,
  ⟨0x90018, 1, 0x0, 1, 0x0, 0x0, 0x0, 0xffffffff, 0x0, 0x0, false⟩,
  ⟨0x9001c, 1, 0x0, 1, 0x0, 0x0, 0x0, 0xffffffff, 0x0, 0x0, false⟩,
  ⟨0x90020, 1, 0x0, 1, 0x0, 0x0, 0x0, 0xffffffff, 0x0, 0x0, false⟩,
  ⟨0x90024, 1, 0x0, 1, 0x0, 0x0, 0x0, 0xffffffff, 0x0, 0x0, false⟩,
  ⟨0xa0000, 1, 0x0, 1, 0x0, 0x3fff, 0x0, 0x0, 0x0, 0x64, false⟩,
  ⟨0xa0004, 1, 0x0, 1, 0x0, 0xfff0fff, 0x0, 0x0, 0x0, 0xa003c, false⟩]

/-- Part 5 of the register table. -/
def regTable5 : List RegDesc := [
  ⟨0xa0008, 1, 0x0, 1, 0x0, 0x0, 0x0, 0x0, 0x0, 0x0, false⟩,
  ⟨0xa000c, 1, 0x0, 1, 0x0, 0x0, 0x0, 0xffffffff, 0x0, 0x0, false⟩,
  ⟨0xa0010, 1, 0x0, 1, 0x0, 0x71f0fff, 0x0, 0x0, 0x0, 0x0, false⟩,
  ⟨0xa0014, 1, 0x0, 1, 0x0, 0x0, 0x0, 0x0, 0x0, 0x0, false⟩,
  ⟨0xa0018, 1, 0x0, 1, 0x0, 0xff00ff, 0x0, 0x0, 0x0, 0xa00014, false⟩,
  ⟨0xa001c, 1, 0x0, 1, 0x0, 0x7f01ff, 0x0, 0x0, 0x0, 0x50008c, false⟩,
  ⟨0xa0020, 1, 0x0, 1, 0x0, 0x0, 0x0, 0x0, 0x0, 0x0, false⟩,
  ⟨0xa0024, 1, 0x0, 1, 0x0, 0xff01, 0x0, 0x0, 0x0, 0xe01, false⟩,
  ⟨0xa0028, 1, 0x0, 1, 0x0, 0xfd, 0x0, 0x0, 0x0, 0x29, false⟩,
  ⟨0xa002c, 1, 0x0, 1, 0x0, 0x0, 0x0, 0xffffffff, 0x0, 0x0, false⟩,
  ⟨0xa0030, 1, 0x0, 1, 0x0, 0x0, 0x0, 0xffffffff, 0x0, 0x0, false⟩,
  ⟨0xa0034, 1, 0x0, 1, 0x0, 0x0, 0x80000000, 0x0, 0x0, 0x0, false⟩,
  ⟨0xa0100, 8, 0x20, 1, 0x0, 0x0, 0x0, 0x0, 0x0, 0x0, false⟩,
  ⟨0xa0104, 8, 0x20, 1, 0x0, 0x0, 0x380, 0x0, 0x0, 0x0, true⟩,
  ⟨0xa0108, 8, 0x20, 1, 0x0, 0x0, 0x0, 0x0, 0x0, 0x0, false⟩,
  ⟨0xa010c, 8, 0x20, 1, 0x0, 0x0, 0x0, 0x0, 0x0, 0x0, false⟩,
  ⟨0xa0110, 8, 0x20, 1, 0x0, 0x0, 0x0, 0x0, 0x0, 0x0, false⟩,
  ⟨0xa0200, 8, 0x80, 24, 0x4, 0x0, 0x0, 0x0, 0x0, 0x0, false⟩,
  ⟨0xa0600, 8, 0x10, 1, 0x0, 0x0, 0x0, 0x0, 0x0, 0x0, false⟩,
  ⟨0xa0604, 8, 0x10, 1, 0x0, 0x0, 0x0, 0x0, 0x0, 0x0, false⟩,
  ⟨0xa0608, 8, 0x10, 1, 0x0, 0x0, 0x0, 0x0, 0x0, 0x0, false⟩,
  ⟨0xb0000, 1, 0x0, 1, 0x0, 0x0, 0x0, 0x0, 0x0, 0x0, false⟩,
  ⟨0xb0004, 1, 0x0, 1, 0x0, 0x0, 0x0, 0xffffffff, 0x0, 0x0, false⟩,
  ⟨0xb0008, 1, 0x0, 1, 0x0, 0x0, 0x0, 0xffffffff, 0x0, 0x0, false⟩]

/-- Part 6 of the register table. -/
def regTable6 : List RegDesc := [
  ⟨0xb000c, 1, 0x0, 1, 0x0, 0x0, 0x0, 0x0, 0x0, 0x0, false⟩,
  ⟨0xc0000, 1, 0x0, 1, 0x0, 0xffff000f, 0x0, 0x0, 0x0, 0x88b5000f, false⟩,
  ⟨0xc0004, 1, 0x0, 1, 0x0, 0xff, 0x0, 0x0, 0x0, 0x0, false⟩,
  ⟨0xc0008, 1, 0x0, 1, 0x0, 0x0, 0x800, 0x0, 0x0, 0x0, false⟩,
  ⟨0xc000c, 1, 0x0, 1, 0x0, 0x0, 0x0, 0x0, 0x0, 0x0, false⟩,
  ⟨0xc0010, 1, 0x0, 1, 0x0, 0x0, 0x0, 0x0, 0x0, 0x0, false⟩,
  ⟨0xc0014, 1, 0x0, 1, 0x0, 0x0, 0x0, 0x0, 0x0, 0x0, false⟩,
  ⟨0xc0018, 1, 0x0, 1, 0x0, 0x3f, 0x0, 0x0, 0x0, 0x5, false⟩,
  ⟨0xc001c, 1, 0x0, 1, 0x0, 0x7f, 0x0, 0x0, 0x0, 0x0, false⟩,
  ⟨0xc0020, 1, 0x0, 1, 0x0, 0x0, 0x0, 0x0, 0x0, 0x0, false⟩,
  ⟨0xc0024, 1, 0x0, 1, 0x0, 0x0, 0x0, 0xffffffff, 0x0, 0x0, false⟩,
  ⟨0xc0028, 1, 0x0, 1, 0x0, 0x0, 0x0, 0xffffffff, 0x0, 0x0, false⟩,
  ⟨0xc002c, 1, 0x0, 1, 0x0, 0x0, 0x0, 0xffffffff, 0x0, 0x0, false⟩,
  ⟨0xc0100, 8, 0x10, 1, 0x0, 0xff, 0x0, 0x0, 0x0, 0x0, false⟩,
  ⟨0xc0104, 8, 0x10, 1, 0x0, 0x0, 0x0, 0x0, 0x0, 0x0, false⟩,
  ⟨0xc0108, 8, 0x10, 1, 0x0, 0x0, 0x0, 0x0, 0x0, 0x0, false⟩,
  ⟨0xc0200, 1, 0x0, 1, 0x0, 0xff03, 0x0, 0x0, 0x0, 0x7f03, false⟩,
  ⟨0xc0204, 1, 0x0, 1, 0x0, 0x0, 0x400, 0x0, 0x0, 0x0, false⟩,
  ⟨0xc0208, 1, 0x0, 1, 0x0, 0x0, 0x0, 0x0, 0x0, 0x0, false⟩,
  ⟨0xc020c, 1, 0x0, 1, 0x0, 0x0, 0x0, 0x0, 0x0, 0x0, false⟩,
  ⟨0xc0210, 1, 0x0, 1, 0x0, 0x0, 0x0, 0xffffffff, 0x0, 0x0, false⟩,
  ⟨0xd0000, 1, 0x0, 1, 0x0, 0x3ff007f, 0x0, 0x0, 0x0, 0x640014, false⟩,
  ⟨0xd0004, 1, 0x0, 1, 0x0, 0xf1fff, 0x0, 0x0, 0x0, 0x80100, false⟩,
  ⟨0xd0008, 1, 0x0, 1, 0x0, 0x0, 0x3, 0x0, 0x0, 0x0, false⟩]

/-- Part 7 of the register table. -/
def regTable7 : List RegDesc := [
  ⟨0xd000c, 1, 0x0, 1, 0x0, 0x0, 0x0, 0x0, 0x0, 0x0, false⟩,
  ⟨0xd0010, 1, 0x0, 1, 0x0, 0x0, 0x0, 0x0, 0x0, 0x0, false⟩,
  ⟨0xd0014, 1, 0x0, 1, 0x0, 0x0, 0x0, 0x0, 0x0, 0x0, false⟩,
  ⟨0xd0018, 1, 0x0, 1, 0x0, 0x1ff, 0x0, 0x0, 0x0, 0x0, false⟩,
  ⟨0xd001c, 1, 0x0, 1, 0x0, 0x0, 0x0, 0x0, 0x0, 0x0, false⟩,
  ⟨0xd0020, 1, 0x0, 1, 0x0, 0x0, 0x0, 0x0, 0x0, 0x0, false⟩,
  ⟨0xe0000, 1, 0x0, 1, 0x0, 0x0, 0x0, 0x0, 0x0, 0x0, false⟩,
  ⟨0xe0004, 1, 0x0, 1, 0x0, 0x80003fff, 0x0, 0x0, 0x0, 0x80002b28, false⟩,
  ⟨0xe0010, 4, 0x4, 1, 0x0, 0x8000ffff, 0x0, 0x0, 0x0, 0x0, false⟩,
  ⟨0xe0020, 1, 0x0, 1, 0x0, 0x0, 0x0, 0xffffffff, 0x0, 0x0, false⟩,
  ⟨0xe0024, 1, 0x0, 1, 0x0, 0x0, 0x0, 0xffffffff, 0x0, 0x0, false⟩,
  ⟨0xe0028, 1, 0x0, 1, 0x0, 0x0, 0x0, 0xffffffff, 0x0, 0x0, false⟩,
  ⟨0xe002c, 1, 0x0, 1, 0x0, 0x0, 0x0, 0xffffffff, 0x0, 0x0, false⟩,
  ⟨0xe0030, 1, 0x0, 1, 0x0, 0x0, 0x0, 0xffffffff, 0x0, 0x0, false⟩,
  ⟨0xf0000, 1, 0x0, 1, 0x0, 0x0, 0xc0, 0x0, 0x0, 0x0, false⟩,
  ⟨0xf0004, 1, 0x0, 1, 0x0, 0x0, 0x0, 0x0, 0x0, 0x0, false⟩,
  ⟨0xf0008, 1, 0x0, 1, 0x0, 0x3fff, 0x0, 0x0, 0x0, 0x3e8, false⟩,
  ⟨0x100000, 1, 0x0, 1, 0x0, 0x0, 0x0, 0x0, 0x1, 0x0, false⟩,
  ⟨0x100004, 1, 0x0, 1, 0x0, 0x0, 0x0, 0x0, 0x0, 0x0, false⟩,
  ⟨0x100008, 1, 0x0, 1, 0x0, 0x800001ff, 0x0, 0x0, 0x0, 0x0, false⟩,
  ⟨0x10000c, 1, 0x0, 1, 0x0, 0x0, 0x0, 0x0, 0x0, 0x0, false⟩,
  ⟨0x100010, 1, 0x0, 1, 0x0, 0x0, 0x0, 0xffffffff, 0x0, 0x0, false⟩,
  ⟨0x100014, 1, 0x0, 1, 0x0, 0x0, 0x0, 0xffffffff, 0x0, 0x0, false⟩,
  ⟨0x100020, 1, 0x0, 1, 0x0, 0x0, 0x20, 0x0, 0x0, 0x0, false⟩]

/-- Part 8 of the register table. -/
def regTable8 : List RegDesc := [
  ⟨0x100040, 1, 0x0, 1, 0x0, 0x1fff, 0x0, 0x0, 0x0, 0x2e4, false⟩,
  ⟨0x100044, 1, 0x0, 1, 0x0, 0x0, 0x0, 0x0, 0x0, 0x0, false⟩,
  ⟨0x110000, 1, 0x0, 1, 0x0, 0x3, 0x0, 0x0, 0x0, 0x1, false⟩,
  ⟨0x110004, 1, 0x0, 1, 0x0, 0x0, 0x0, 0x0, 0x0, 0x0, false⟩,
  ⟨0x110008, 1, 0x0, 1, 0x0, 0x0, 0x0, 0x0, 0x0, 0x0, false⟩,
  ⟨0x110010, 1, 0x0, 1, 0x0, 0x0, 0xf, 0x0, 0x0, 0x0, false⟩,
  ⟨0x110014, 1, 0x0, 1, 0x0, 0xf, 0x0, 0x0, 0x0, 0xf, false⟩,
  ⟨0x110020, 1, 0x0, 1, 0x0, 0x0, 0x0, 0xffffffff, 0x0, 0x0, false⟩,
  ⟨0x110024, 1, 0x0, 1, 0x0, 0x0, 0x0, 0xffffffff, 0x0, 0x0, false⟩,
  ⟨0x110028, 1, 0x0, 1, 0x0, 0x0, 0x0, 0xffffffff, 0x0, 0x0, false⟩,
  ⟨0x11002c, 1, 0x0, 1, 0x0, 0x0, 0x0, 0xffffffff, 0x0, 0x0, false⟩,
  ⟨0x120000, 1, 0x0, 1, 0x0, 0xc0000fff, 0x0, 0x0, 0x0, 0xc000030a, false⟩,
  ⟨0x120004, 1, 0x0, 1, 0x0, 0xffffffff, 0x0, 0x0, 0x0, 0xc061008, false⟩,
  ⟨0x120008, 1, 0x0, 1, 0x0, 0xffffffff, 0x0, 0x0, 0x0, 0xa050c06, false⟩,
  ⟨0x12000c, 1, 0x0, 1, 0x0, 0xffffff, 0x0, 0x0, 0x0, 0x3e8, false⟩,
  ⟨0x120010, 1, 0x0, 1, 0x0, 0x7f, 0x0, 0x0, 0x0, 0x0, false⟩,
  ⟨0x120014, 1, 0x0, 1, 0x0, 0x0, 0x0, 0x0, 0x0, 0x0, false⟩,
  ⟨0x120018, 1, 0x0, 1, 0x0, 0x0, 0x0, 0x0, 0x0, 0x0, false⟩,
  ⟨0x12001c, 1, 0x0, 1, 0x0, 0x0, 0x0, 0x0, 0x0, 0x0, false⟩,
  ⟨0x120020, 1, 0x0, 1, 0x0, 0x801f0fff, 0x0, 0x0, 0x0, 0x8005000a, false⟩,
  ⟨0x120024, 1, 0x0, 1, 0x0, 0x0, 0x0, 0x0, 0x0, 0x0, false⟩,
  ⟨0x120028, 1, 0x0, 1, 0x0, 0x0, 0x0, 0x0, 0x0, 0x0, false⟩,
  ⟨0x12002c, 1, 0x0, 1, 0x0, 0x0, 0x80ffffff, 0x0, 0x0, 0x0, false⟩,
  ⟨0x120030, 1, 0x0, 1, 0x0, 0x0, 0x0, 0x0, 0x0, 0x0, false⟩]

/-- Part 9 of the register table. -/
def regTable9 : List RegDesc := [
  ⟨0x120040, 1, 0x0, 1, 0x0, 0x0, 0x0, 0xffffffff, 0x0, 0x0, false⟩,
  ⟨0x120044, 1, 0x0, 1, 0x0, 0x0, 0x0, 0xffffffff, 0x0, 0x0, false⟩,
  ⟨0x120048, 1, 0x0, 1, 0x0, 0x0, 0x0, 0xffffffff, 0x0, 0x0, false⟩,
  ⟨0x12004c, 1, 0x0, 1, 0x0, 0x0, 0x0, 0xffffffff, 0x0, 0x0, false⟩,
  ⟨0x130000, 1, 0x0, 1, 0x0, 0x0, 0x80000000, 0x0, 0x0, 0x0, false⟩,
  ⟨0x131000, 4, 0x100, 1, 0x0, 0x3, 0x0, 0x0, 0x0, 0x0, false⟩,
  ⟨0x131004, 4, 0x100, 1, 0x0, 0x0, 0x1ff, 0x0, 0x0, 0x0, false⟩,
  ⟨0x131008, 4, 0x100, 1, 0x0, 0x0, 0x0, 0x0, 0x0, 0x0, true⟩,
  ⟨0x13100c, 4, 0x100, 1, 0x0, 0x0, 0x0, 0x0, 0x0, 0x0, true⟩,
  ⟨0x131040, 4, 0x100, 8, 0x10, 0xffff00ff, 0x0, 0x0, 0x0, 0x7fff0000, false⟩,
  ⟨0x131044, 4, 0x100, 8, 0x10, 0xffffffff, 0x0, 0x0, 0x0, 0x0, false⟩,
  ⟨0x131048, 4, 0x100, 8, 0x10, 0xffffffff, 0x0, 0x0, 0x0, 0x0, false⟩,
  ⟨0x1310c0, 4, 0x100, 8, 0x8, 0xffffffff, 0x0, 0x0, 0x0, 0x0, true⟩,
  ⟨0x1310c4, 4, 0x100, 8, 0x8, 0xffffffff, 0x0, 0x0, 0x0, 0x0, true⟩,
  ⟨0x140000, 1, 0x0, 1, 0x0, 0x0, 0x0, 0x0, 0x0, 0x0, false⟩,
  ⟨0x140004, 1, 0x0, 1, 0x0, 0x0, 0x0, 0x0, 0x0, 0x0, false⟩,
  ⟨0x140008, 1, 0x0, 1, 0x0, 0x0, 0x0, 0x0, 0x0, 0x0, false⟩,
  ⟨0x150000, 1, 0x0, 1, 0x0, 0x0, 0x0, 0x0, 0x0, 0x0, false⟩,
  ⟨0x150004, 1, 0x0, 1, 0x0, 0x0, 0x0, 0x0, 0x0, 0x0, false⟩,
  ⟨0x150008, 1, 0x0, 1, 0x0, 0x0, 0x0, 0x0, 0x0, 0x0, false⟩,
  ⟨0xc0030, 1, 0x0, 1, 0x0, 0x0, 0x0, 0x0, 0x0, 0x0, true⟩]

/-- Every register of the map. -/
def regTable : List RegDesc :=
  regTable0 ++ regTable1 ++ regTable2 ++ regTable3 ++ regTable4 ++ regTable5 ++ regTable6 ++ regTable7 ++ regTable8 ++ regTable9

/-- Whether the address is one of the row's registers. -/
def RegDesc.has (d : RegDesc) (a : Nat) : Bool :=
  if a < d.base then false
  else
    let o := a - d.base
    if d.n1 = 1 then o = 0
    else if d.n2 = 1 then o % d.s1 = 0 && o / d.s1 < d.n1
    else o / d.s1 < d.n1 && o % d.s1 % d.s2 = 0 && o % d.s1 / d.s2 < d.n2

/-- The row of a register address, or none for an offset that no chapter lists (R587). -/
def regFind (a : Nat) : Option RegDesc := regTable.find? (fun d => d.has a)

/-- The bits of a register that the register file keeps. -/
def RegDesc.kept (d : RegDesc) : Word := if d.window then 0 else d.rw ||| d.w1c ||| d.rc

/-- The kept bits of a register address. -/
def regKept (a : Nat) : Word :=
  match regFind a with
  | some d => d.kept
  | none => 0

/-- Bits of a register that belong to a unit, bay or port that the part does not have (R1, R6): cipher block and vault on the
KV-9624-C; fan-out unit, H2, H3, F2, F3 and bays 16 to 23 on the KV-9616-B. -/
def absentBits (p : Part) (a : Nat) : Word :=
  match p with
  | .kv9624a => 0
  | .kv9624c => if 0xE0000 ≤ a && a < 0x100000 then 0xFFFFFFFF else 0
  | .kv9616b =>
    let port := fun (n : Nat) => if 2 ≤ n % 4 then (0xFFFFFFFF : Word) else 0
    let bay := fun (n : Nat) => if 16 ≤ n then (0xFFFFFFFF : Word) else 0
    if a / 0x10000 = 9 then 0xFFFFFFFF
    else if 0x40100 ≤ a && a < 0x40300 then port ((a - 0x40100) / 0x40)
    else if 0x70000 ≤ a && a < 0x70040 then port ((a - 0x70000) / 4)
    else if 0x70040 ≤ a && a < 0x70080 then port ((a - 0x70040) / 8)
    else if 0x20100 ≤ a && a < 0x20280 then bay ((a - 0x20100) / 0x10)
    else if 0x30100 ≤ a && a < 0x30160 then bay ((a - 0x30100) / 4)
    else if a = Reg.xbrSampcfg then 0xCC
    else if a = Reg.rfxCfg then 0xC
    else if a = Reg.rfxLinkstat then 0x0C000C0C
    else if a = Reg.rfxNbr then 0xFFFF0000
    else if a = Reg.iclMscfg + 8 || a = Reg.iclMscfg + 12 then 0xFFFFFFFF
    else if a = Reg.lcuSdstat then 0xCCCCCC
    else if a = Reg.bayHold || a = Reg.dpxDpcrel || a = Reg.lcuDpstat || a = Reg.lcuBpcstat || a = Reg.lcuBpcoor then 0xFF0000
    else 0

/-- The reset value of the kept bits of a register (the Reset columns; R592); RFX.RPRIOn depends on the slot (R239), and
absent bits read 0 (R6). -/
def regReset (p : Part) (sl : Side) (a : Nat) : Word :=
  (if 0xC0100 ≤ a ∧ a < 0xC0180 ∧ a % 16 = 0 then
    (if ((a - 0xC0100) / 16 % 2 = 0) = (sl = .a) then 0x40 else 0x80)
  else
    match regFind a with
    | some d => if d.window then 0 else d.reset
    | none => 0) &&& ~~~ absentBits p a

end Sys2Proof.Machine
end

