-- ==== Sys2Proof/Machine/State.lean ====
section
/-! DEFINITION. The state of a KV-9624: one structure per block of R17, put together in `State`. Every field's
default is its reset value, from the rule its docstring cites, or from the log entry named there; `State.reset`
is the state of these defaults. Absolute times are in nanoseconds of the model's clock `State.now` (log 2). -/

namespace Sys2Proof.Machine

/-! ## Host command engine (chapters 02 and 03) -/

/-- Tag states of R52; a FREE tag has no record. -/
inductive TagSt where
  | admitted
  | executing
  | committed
  | responding
  | squashing
  deriving DecidableEq, Repr

/-- One internal tag that is not FREE (R52). -/
structure TagRec where
  tag : Nat
  cntlid : Nat
  sqid : Nat
  /-- CID mapped to the tag; the mapping ends when the tag enters RESPONDING (R54). -/
  cid : Nat
  cidMapped : Bool
  st : TagSt
  vsid : Nat
  cap : Capsule
  /-- Admission sequence number, the version of what it writes (R74). -/
  seq : Nat
  /-- Commits by R78: admitted in write-through or with FUA, or overtaken by it (R79). -/
  wt : Bool
  /-- Whether a completion is to be posted. -/
  post : Bool
  /-- The completion's status, once decided. -/
  result : Option CplStatus
  /-- MSEQ of the RESPONDING record (R260), once sent. -/
  respMseq : Option Nat
  /-- MSEQ of the COMMITTED record of a read (R259), once sent. -/
  readMseq : Option Nat
  /-- Host data transfer outstanding (R32, R33). -/
  fetching : Bool
  /-- Host data in the block buffer. -/
  dataIn : Bool
  hostData : List Sector
  /-- The data has entered the write buffer (R84, R87). -/
  placed : Bool
  /-- MSEQ of the last mirror frame of its data, and of the ADMITTED record (R260). -/
  dataMseq : Nat
  dataMseq2 : Nat
  /-- Intent records of R276 opened (R623). -/
  intents : Bool
  /-- Read-fan-out group it belongs to. -/
  group : Option Nat
  /-- Highest version in the buffer when its lock was granted (VMARK of R259). -/
  vmark : Nat
  /-- When its capsule was received (R560). -/
  rcvAt : Nat
  /-- Blocks gathered for a Read or Compare, in order (R89). -/
  blocks : List (Option Block)
  /-- Stored blocks that a partial write is merged onto (R84): block and content. -/
  bases : List (Nat × Block)
  /-- Taken over from the dead module, whose reads are served uncoalesced (R131). -/
  alone : Bool := false
  deriving DecidableEq, Repr

/-- A submission queue (R41, R58): its capsules with the times of their receipt. `none` in `entries` is an entry
removed from the middle. -/
structure SubQ where
  cntlid : Nat
  sqid : Nat
  size : Nat
  sqhd : Nat
  entries : List (Option (Nat × Capsule))
  conn : Nat
  vsid : Nat
  /-- Admission stopped on this queue (R42, R69, R72). -/
  stopped : Bool
  /-- CID of the Disconnect in progress (R72). -/
  disc : Option Nat
  deriving DecidableEq, Repr

/-- An entry of the Error Information log (R63): its place in the count of all entries, and the first LBA that failed, 0
where there is none. -/
structure ErrEntry where
  count : Nat
  sqid : Nat
  cid : Nat
  status : CplStatus
  lba : Nat
  deriving DecidableEq, Repr

/-- A controller: one association (R38, R51, R69-R73). -/
structure Ctrl where
  cntlid : Nat
  vsid : Nat
  hostNqn : Nqn
  discovery : Bool
  /-- Connection of the admin queue; `adminSize` its entries. -/
  conn : Nat
  adminSize : Nat
  adminSqhd : Nat
  ccEn : Bool
  rdy : Bool
  /-- CC as the host last wrote it. -/
  cc : Nat
  /-- CC.SHN written and CSTS.SHST (R71). -/
  shn : Nat
  shst : Nat
  /-- A controller reset is in progress (R69); `resetDisc` is the CID of the admin Disconnect that began it, and
  `resetEnds` says that the association ends with it. -/
  resetting : Bool
  resetDisc : Option Nat
  resetEnds : Bool
  /-- Keep Alive timeout in ms, 0 on discovery controllers only (R43); its deadline. -/
  kato : Nat
  kaDeadline : Timer
  /-- I/O queues granted (R40). -/
  granted : Nat
  /-- Features 0x01, 0x04, 0x0B and 0x81 (R47). -/
  featArb : Nat
  featTemp : Nat
  featAer : Nat
  featHostId : Nat
  /-- CIDs of the Asynchronous Event Requests outstanding (R50). -/
  aers : List Nat
  /-- Aborts outstanding: own CID, and the tag awaited (R66, R68). -/
  aborts : List (Nat × Nat)
  errLog : List ErrEntry
  /-- Namespaces for the Changed Namespace List log (R46). -/
  changed : List Nat
  /-- Asynchronous events that wait for a request (R50). -/
  events : List Nat
  /-- The admin submission queue from its head on (R51, R103, R104): commands that wait, and `none` for an entry that was
  taken from the middle, which SQHD has not passed yet (R58). -/
  adminWait : List (Option Instr)
  deriving DecidableEq, Repr

/-- Progress of DH-HMAC-CHAP on a connection (R35). -/
inductive AuthSt where
  | idle
  | challenge (hash group : Nat)
  | success (hash answer : Nat) (bidirectional : Bool)
  | failed (second : Bool)
  | done
  deriving DecidableEq, Repr

/-- A host connection (R31-R35) with the transport state that R262 mirrors. -/
structure HConn where
  id : Nat
  port : Nat
  addr : BitVec 128
  transport : Transport
  vsid : Nat
  /-- Path MTU of the queue pair, or MSS (R122). -/
  unit : Nat
  hdgst : Bool
  ddgst : Bool
  icDone : Bool
  tls : Bool
  /-- Controller and queue it carries, once connected. -/
  bound : Option (Nat × Nat)
  auth : AuthSt
  /-- MSEQ that the peer must hold before the transport acknowledgement goes out (R261). -/
  held : Option Nat
  rcvNext : Nat
  sndUna : Nat
  sndNext : Nat
  /-- Traffic class of the rule that delivers its capsules (R351). -/
  tc : Nat := 0
  /-- Bytes of a PDU header that is not whole yet, and bytes of the current PDU still to come (R322). -/
  pduBuf : List Byte := []
  pduLeft : Nat := 0
  /-- What its establishment settled (R262), and the DSCP of the last packet received (R351). -/
  path : ConnPath := {}
  dscp : Nat := 0
  /-- Congestion window in bytes; the acknowledgements carry ECE, the next segment carries CWR; the send position at the last
  halving (R363). -/
  cwnd : Nat := 0
  ece : Bool := false
  cwr : Bool := false
  cutAt : Option Nat := none
  deriving DecidableEq, Repr

/-- A range lock table entry, in admission order in its list (R83-R86). -/
structure RangeLock where
  tag : Nat
  vsid : Nat
  nsid : Nat
  first : Nat
  last : Nat
  excl : Bool
  granted : Bool
  deriving DecidableEq, Repr

/-- A version of a block in the write buffer (R74-R77). -/
structure WbEntry where
  vsid : Nat
  nsid : Nat
  blk : Nat
  ver : Nat
  ring : Nat
  data : Block
  /-- Mask of the sectors that come from host data (R205). -/
  smask : BitVec 8
  /-- In the mirror region (R75); else in the own region. -/
  mirror : Bool
  /-- Past its write's commit point: dirty (R76). -/
  committed : Bool
  /-- Of a write that commits by R78. -/
  wt : Bool
  /-- Part of an issued stripe write (R77). -/
  issued : Bool
  /-- Freed, and kept only for the reads of R264. -/
  dead : Bool
  /-- When it was placed (RGE.DRNCFG.MAXAGE). -/
  at_ : Nat
  /-- Who admitted its write: 0 this module, 1 the peer, 2 + FID a module of another shelf (R75). -/
  owner : Nat
  /-- Written by a rekey or a migration (the privilege of its events, R553). -/
  internal : Bool := false
  deriving DecidableEq, Repr

/-- A deallocation record (R57, R84): whole blocks still to be deallocated on the members. -/
structure DeallocRec where
  tag : Nat
  vsid : Nat
  nsid : Nat
  ver : Nat
  ring : Nat
  ranges : List (Nat × Nat)
  mirror : Bool
  committed : Bool
  deriving DecidableEq, Repr

/-- Phases of a Format or Sanitize (R104). -/
inductive OpPhase where
  | prepare
  | key
  | erase
  | dealloc
  | done
  deriving DecidableEq, Repr

/-- A progress record (R104) with what the module keeps beside it: the admin command that waits for DONE and the
namespaces of the operation still to do. -/
structure Progress where
  idx : Nat
  op : Nat
  phase : OpPhase
  vsid : Nat
  nsid : Nat
  cursor : Nat
  total : Nat
  lbaf : Nat
  epoch : Nat
  seq : Nat
  cmd : Option (Nat × Nat)
  nss : List Nat
  regionsDone : Nat
  regionsAll : Nat
  /-- Kept over a restart and not resumed yet: the ringmaster resumes it (R106). -/
  asleep : Bool
  deriving DecidableEq, Repr

/-- A chunk of a flush group on the member in a bay (R96): the metadata of R97 and the ciphertext of each block. `ok` falls
when its write fails. -/
structure FlushChunk where
  bay : Nat
  blocks : List (Nat × Block)
  ok : Bool
  deriving DecidableEq, Repr

/-- A flush group (R96): its data chunks, and its XOR parity chunk. -/
structure FlushGroup where
  data : List FlushChunk
  parity : FlushChunk
  deriving DecidableEq, Repr

/-- The host command engine with its write buffer. -/
structure HceSt where
  conns : List HConn := []
  ctrls : List Ctrl := []
  sqs : List SubQ := []
  tags : List TagRec := []
  /-- Admission sequence number, 48 bits (R74); 0 at reset is log 10. -/
  seq : Nat := 0
  /-- Round-robin position of each subsystem: VSID, next queue index (R59; log 10). -/
  rr : List (Nat × Nat) := []
  /-- Visits of the running weighted round to each subsystem: VSID, count (R59). -/
  wrr : List (Nat × Nat) := []
  rlt : List RangeLock := []
  wb : List WbEntry := []
  deallocs : List DeallocRec := []
  /-- Write-through causes of HCE.WTSTATE: STARTUP is 1 at reset (R28). TEST and NOHOLD are derived. -/
  wtStartup : Bool := true
  wtPeerAbs : Bool := false
  wtMirLink : Bool := false
  wtTakeover : Bool := false
  wtMismatch : Bool := false
  wtJoinCopy : Bool := false
  /-- EFF_CEIL in GiB and NOHOLD as last recomputed (R95); both 0 at reset (03 WBSTAT, WTSTATE). -/
  effCeil : Nat := 0
  wtNoHold : Bool := false
  /-- Snapshots latched by a write of HCE.TAGQRY (R52). -/
  tagInfo : Word := 0
  tagSq : Word := 0
  /-- Admission stopped on every queue: flush, restart, fence (R96, R523). -/
  halted : Bool := false
  /-- Power-fail flush in progress; rings not flushed whole; flush-complete marker (R96, 20 SNT.STAT). -/
  flushing : Bool := false
  notWhole : List Nat := []
  flushMark : Bool := false
  /-- The slot's flush area on the members, and the deallocation records flushed with it (R96, R97). -/
  flushArea : List FlushGroup := []
  flushRecs : List DeallocRec := []
  /-- Rings with data in the flush (R99). -/
  flushRings : List Nat := []
  progress : List Progress := []
  /-- Subsystems whose last Sanitize has ended (R101, R105). -/
  sanitized : List Nat := []
  /-- Read cache: namespace, block, written, ciphertext (R23, R118). -/
  cache : List (Nat × Nat × Nat × Bool × Block) := []
  /-- Next free controller ID (R38). -/
  nextCntlid : Nat := 1
  /-- Index of each connected host NQN (R352). -/
  hostIdx : List (Nat × Nqn) := []
  deriving DecidableEq, Repr

/-! ## Read fan-out unit (chapter 04) -/

/-- A requester's delivery class (R122). -/
structure RfuClass where
  transport : Transport
  unit : Nat
  hdgst : Bool
  ddgst : Bool
  deriving DecidableEq, Repr

/-- A requester of a group. `moved` is set once R127 has moved it to unicast; `done` once all its data is sent. -/
structure Requester where
  tag : Nat
  cls : Option RfuClass
  unicast : Bool
  moved : Bool
  fromCache : Bool
  done : Bool
  deriving DecidableEq, Repr

/-- A group table entry (R112-R119) with the settings it opened with (R133). -/
structure Group where
  id : Nat
  vsid : Nat
  nsid : Nat
  slba : Nat
  nlb : Nat
  reqs : List Requester
  isOpen : Bool
  windowEnd : Timer
  maxReq : Nat
  residue : Nat
  /-- Closed by an exclusive lock; delivery waits for the window if a requester joined (R114). -/
  byLock : Bool
  joined : Bool
  media : Bool
  dataReady : Bool
  releasedAt : Timer
  blocks : List (Option (Bool × Block))
  lost : Bool
  deriving DecidableEq, Repr

structure RfuSt where
  groups : List Group := []
  nextId : Nat := 0
  deriving DecidableEq, Repr

/-! ## Ring engine and safety net (chapters 05 and 06) -/

/-- A row of a gather: which data positions are wanted, what has been asked, got and failed (R186). -/
structure RowNeed where
  ring : Nat
  stripe : Nat
  row : Nat
  wanted : List Nat
  asked : List Nat
  got : List (Nat × MemberBlock)
  failed : List Nat
  /-- Failed positions whose block was unreadable (R199), not merely out of reach. -/
  bad : List Nat
  /-- Data positions that are lost, and count as zero (R201). -/
  lost : List Nat := []
  deriving DecidableEq, Repr

/-- A chunk on its way to a member slot by rebuild, copyback or rejoin, under the record of SEQ `seq` (R189, R192, R208). -/
structure RebuildTask where
  ring : Nat
  stripe : Nat
  pos : Nat
  slot : Nat
  seq : Nat
  deriving DecidableEq, Repr

/-- For whom a gather of member blocks runs. -/
inductive GatherFor where
  | tag (t : Nat)
  | group (g : Nat)
  | stripe (ring stripe : Nat)
  | mend
  deriving DecidableEq, Repr

/-- A gather of blocks from the members (R25, R161, R186). -/
structure Gather where
  id : Nat
  owner : GatherFor
  rows : List RowNeed
  deriving DecidableEq, Repr

/-- Phases of a stripe write (R162). -/
inductive SwPhase where
  | reading
  | intent
  | writing
  deriving DecidableEq, Repr

/-- A stripe write in flight (R159-R162). `parts` are the keys and versions it carries. -/
structure StripeWrite where
  ring : Nat
  stripe : Nat
  phase : SwPhase
  rows : List Nat
  rmw : Bool
  full : Bool
  parts : List (Nat × Nat × Nat × Nat)
  /-- Blocks of deallocation records it carries: namespace, block, version. -/
  zeroed : List (Nat × Nat × Nat × Nat)
  wt : Bool
  intentIdx : Nat
  intentMseq : Nat
  /-- Member commands outstanding. -/
  outstanding : List Nat
  /-- Positions of chunks of which a member write failed (R163, R205). -/
  missedAt : List Nat
  /-- It carries blocks of a rekey or a migration only (R553). -/
  internal : Bool := false
  deriving DecidableEq, Repr

/-- A ring (R135-R153). -/
structure Ring where
  num : Nat
  n : Nat
  k : Nat
  m : Nat
  s : Nat
  seed : BitVec 32
  /-- Chunk slots per member (R144). -/
  chunks : Nat
  gen : Nat
  slots : List MemberSlot
  initRunning : Bool
  torn : Bool
  flushIncomplete : Bool
  resyncAll : Bool
  /-- Suspect stripes still to process, as their intent records (R174 step 4). -/
  suspects : List Intent
  /-- Stripes still to verify under step 7 of R174: next stripe, when a verification runs. -/
  verify : Option Nat
  /-- Ring header (R171): SEQ, CKSEQ, CKSLOT; and the rotation position of R172. -/
  hdrSeq : Nat
  ckSeq : Nat
  ckSlot : Nat
  ckRot : Nat
  /-- Checkpoint write in flight: its slot and CKSEQ. -/
  ckpt : Option (Nat × Nat)
  /-- This module's own header area holds the ring (R167, R174 step 1). -/
  hdrOwn : Bool
  /-- The search for the newest checkpoint, where no header copy holds the ring: CKSEQ, CLEAN and regions of the newest one
  found so far (R174 step 1). -/
  hunt : Option (Option (Nat × Bool × List Nat))
  /-- When the next sweep and the next checkpoint are due (R170, R172). -/
  sweepAt : Timer
  ckptAt : Timer
  /-- Regions whose dirty-region bit is set (R169). -/
  bitmap : List Nat
  owner : Bool
  epoch : Nat
  master : Option Nat
  /-- Own and peer bid of a running election (R237): PRIO, FID, EPOCH; and the time limit. -/
  bid : Option (Nat × Nat × Nat)
  peerBid : Option (Nat × Nat × Nat)
  bidTimer : Timer
  /-- MSEQ of the winner's epoch update, while it waits for the peer (R238). -/
  ownMseq : Option Nat
  /-- Handover in progress: its master and deadline (R243). -/
  handover : Option (Master × Nat)
  held : Bool
  /-- Stripe cursor of each level's rebuild pass (R190). -/
  cursors : List Nat
  /-- Patrol cursor, as a stripe (R210). -/
  patrol : Nat
  svcSeq : Nat
  deriving DecidableEq, Repr

/-- An entry of the lost-extent table (R202). -/
structure LostExtent where
  idx : Nat
  ring : Nat
  cause : Nat
  vsid : Nat
  nsid : Nat
  lba : Nat
  nlb : Nat
  rba : Nat
  nrb : Nat
  seq : Nat
  deriving DecidableEq, Repr

structure RgeSt where
  rings : List Ring := []
  intents : List Intent := []
  /-- Journal SEQ and the next slot (R167, R168); 0 at reset is log 10. -/
  jseq : Nat := 0
  jnext : Nat := 0
  gathers : List Gather := []
  nextGather : Nat := 0
  writes : List StripeWrite := []
  /-- Blocks whose repair waits until their stripe is free: ring, stripe, row, position (R159, R199). -/
  mends : List (Nat × Nat × Nat × Nat) := []
  /-- Chunks whose rebuild writes are outstanding (R189, R192, R208). -/
  tasks : List RebuildTask := []
  lost : List LostExtent := []
  /-- Rate R in MB/s and f in 1/256 (R195). -/
  rate : Nat := 0
  fshare : Nat := 0
  /-- This module's part of H in MB/s, as last counted (R195, R196). -/
  traffic : Nat := 0
  /-- Bytes of rebuild work issued since the controller last ran (R176, R195). -/
  work : Nat := 0
  /-- What the peer was last told of each ring (R142, R178, R179; log 79). -/
  shared : List RingShare := []
  /-- RGE.PTDATA, latched by a write of RGE.PTQRY. -/
  ptData : Word := 0
  deriving DecidableEq, Repr

/-- The safety net's store of the peer's lines (R167, R257): area, index, 64 bytes. -/
structure SntSt where
  /-- The MRAM is initialised and in service (20 SNT.STAT): 0 at reset. -/
  ready : Bool := false
  peerLines : List (Nat × Nat × List Byte) := []
  /-- Write count of the most-written line, in units of 65,536 (20 SNT.WEAR; log 10). -/
  wear : Nat := 0
  deriving DecidableEq, Repr

/-! ## Relti fabric and takeover (chapters 07 and 08) -/

/-- A frame body of the mirror stream (R253). -/
inductive StreamBody where
  | mirror (b : MirBody)
  | fwd (entries : List MirBlock)
  | cmd (r : CmdRecord)
  | xport (x : XportRecord)
  deriving DecidableEq, Repr

/-- A stream frame that no MIRACK covers yet (R256). -/
structure StreamFrame where
  mseq : Nat
  body : StreamBody
  port : Nat
  sentAt : Nat
  deriving DecidableEq, Repr

/-- The sending side of a mirror stream (R253-R256). `next` is the MSEQ of the next frame. -/
structure Stream where
  isOpen : Bool := false
  next : Nat := 1
  acked : Nat := 0
  out : List StreamFrame := []
  rrPort : Nat := 0
  deriving DecidableEq, Repr

/-- A fabric port (R220-R222). -/
structure FabPort where
  pcs : Bool := false
  up : Bool := false
  nbrUid : Nat := 0
  nbrFid : Nat := 0x7F
  nbrPort : Nat := 0
  /-- MAC address of the neighbour's port, as its barkers carry it (R217). -/
  nbrMac : BitVec 48 := 0
  heard : Nat := 0
  bkSeq : Nat := 0
  lastBarker : Timer := none
  deriving DecidableEq, Repr

/-- FID states (07 RFX.FIDSTAT). -/
inductive FidSt where
  | unclaimed
  | claiming
  | held
  | full
  deriving DecidableEq, Repr

/-- A link-state database entry (R230, R231). -/
structure LsdbEntry where
  lsa : Lsa
  expires : Nat
  deriving DecidableEq, Repr

/-- The peer as the fabric knows it (R9, R75, R82, R196, R222). -/
structure PeerSt where
  joined : Bool := false
  absent : Bool := false
  mismatch : Bool := false
  fid : Nat := 0x7F
  uid : Nat := 0
  dirty : Nat := 0
  ceiling : Nat := 0
  room : Nat := 0
  rebuildRings : Nat := 0
  traffic : Nat := 0
  hbEnabled : Bool := false
  deriving DecidableEq, Repr

structure RfxSt where
  ports : List FabPort := [{}, {}, {}, {}]
  fidSt : FidSt := .unclaimed
  fid : Nat := 0x7F
  candidate : Nat := 0x7F
  nonce : Nat := 0
  claims : Nat := 0
  claimTimer : Timer := none
  claimWait : Timer := none
  retryTimer : Timer := none
  failedCands : List Nat := []
  former : Option Nat := none
  formerTimer : Timer := none
  /-- FID of the fabric identity record, when valid (R224; log 10). -/
  identity : Option Nat := none
  dups : List (Nat × Nat × Nat) := []
  lsdb : List LsdbEntry := []
  lsaSeq : BitVec 32 := 0
  routes : List (Nat × Nat × List Nat) := []
  rtData : Word := 0
  peer : PeerSt := {}
  /-- The first barker has been sent, and when the PEERWAIT limit falls (R223). -/
  peerWait : Timer := none
  started : Bool := false
  /-- Join copy still running: MSEQ of its last frame (R80). -/
  joinMseq : Option Nat := none
  out1 : Stream := {}
  out2 : Stream := {}
  /-- Modules whose second copies this one holds: FID, highest MSEQ applied of its stream (R253). -/
  second : List (Nat × Nat) := []
  /-- Highest MSEQ applied of the peer's stream, frames held in the reorder buffer, frames since the last MIRACK. -/
  rxApplied : Nat := 0
  rxHeld : List (Nat × StreamBody) := []
  rxUnacked : Nat := 0
  /-- Forwards of the peer's stream that wait for this module's second holder: their MSEQ, the MSEQ of the second copy, and
  their versions (R82; log 76). -/
  hold2 : List (Nat × Nat × List Nat) := []
  /-- Free mirror space of the second holder, in blocks, from its MIRACK frames (R75). -/
  room2 : Nat := 0
  /-- Mirrored command and transport records of the peer (R259, R262). -/
  peerCmds : List CmdRecord := []
  peerXports : List XportRecord := []
  deriving DecidableEq, Repr

/-- Phases of RFX.TKSTAT. -/
inductive TkPhase where
  | idle
  | fencing
  | hold
  | resuming
  | draining
  deriving DecidableEq, Repr

/-- An address announced after a takeover (R272): its VSID and portal index, its port and the announcements owed. -/
structure Announce where
  id : Nat
  addr : BitVec 128
  v6 : Bool
  port : Nat
  left : Nat
  nextAt : Nat
  deriving DecidableEq, Repr

structure TkSt where
  phase : TkPhase := .idle
  cause : Nat := 0
  count : Nat := 0
  lastUs : Nat := 0
  mir2dn : Bool := false
  fenceIn : Bool := false
  fenceOut : Bool := false
  fenceDelay : Timer := none
  fenceHold : Timer := none
  declaredAt : Nat := 0
  /-- Health: HB_OUT toggling (R265), and whether the health check failed since power-up (R624). -/
  hbOut : Bool := true
  healthBad : Bool := false
  /-- Peer identities moved to this module's ports: peer port, port that carries it (R272). -/
  idents : List (Nat × Nat) := []
  announces : List Announce := []
  /-- Dirty data of a takeover was lost with its power (R279). -/
  lostDirty : Bool := false
  /-- Halted by the fence (R268). -/
  fenced : Bool := false
  deriving DecidableEq, Repr

/-! ## Virtual subsystems (chapter 09) -/

/-- Subsystem states (R290); NONE has no record. -/
inductive VsState where
  | active
  | resetting
  | freezing
  | frozen
  | target
  | moved
  deriving DecidableEq, Repr

structure Portal where
  index : Nat
  port : Nat
  af : Nat
  pfx : Nat
  addr : BitVec 128
  deriving DecidableEq, Repr

/-- A virtual subsystem (R286, R290). -/
structure Vs where
  vsid : Nat
  flags : Nat
  ports : Nat
  tagshare : Nat
  qpairs : Nat
  cntls : Nat
  nsmax : Nat
  hostmax : Nat
  svcid : Nat
  subnqn : Nqn
  st : VsState
  hosts : List Nqn
  portals : List Portal
  quiesceEnd : Timer
  frzEnd : Timer
  /-- Master whose VS_RESET or VS_FREEZE waits. -/
  waiter : Option Master
  /-- Image pieces of a restore received so far, and the image of a save. -/
  restore : List Byte
  image : List Byte
  /-- Frozen by a migration's CUTOVER (R304). -/
  byMigration : Bool
  /-- MAXFRZ when the freeze started, in ms (R308). -/
  frzLen : Nat
  /-- Restored from an image and not thawed since (R302). -/
  restored : Bool
  /-- An image acknowledgement that waits for the peer (R304): source FID, SEQ, MSEQ. -/
  ackDue : Option (Nat × Nat × Nat)
  deriving DecidableEq, Repr

/-- A namespace (R291-R293). -/
structure Ns where
  vsid : Nat
  nsid : Nat
  ring : Nat
  first : Nat
  regions : Nat
  lbaf : Nat
  keySlot : Nat
  deleting : Bool
  waiter : Option Master
  /-- Its deletion has come to the deallocation of its regions (R293). -/
  zeroing : Bool := false
  deriving DecidableEq, Repr

/-- Migration phases (R304). -/
inductive MigPhase where
  | copy
  | catchUp
  | cutover
  | restore
  deriving DecidableEq, Repr

structure Migration where
  vsid : Nat
  tvsid : Nat
  tfidA : Nat
  tfidB : Nat
  master : Master
  phase : MigPhase
  passes : Nat
  maxPasses : Nat
  cutover : Nat
  seq : Nat
  /-- Marked regions: namespace and region (R304). -/
  marked : List (Nat × Nat)
  /-- The regions that the running pass sends again (R304). -/
  sending : List (Nat × Nat)
  /-- This module copies the namespaces; the peer follows it from CUTOVER on (R303, R304). -/
  lead : Bool
  deriving DecidableEq, Repr

structure VsmSt where
  subs : List Vs := []
  nss : List Ns := []
  /-- Generation of the configuration store, 64 bits (R282; log 10). -/
  gen : Nat := 0
  migs : List Migration := []
  /-- Propagations the peer has not applied yet (R283): master and opcode. -/
  vsInfo : Word := 0
  vsShare : Word := 0
  deriving DecidableEq, Repr

/-! ## Management mailbox (chapter 13) -/

/-- An accepted command (R416-R421). -/
structure MbCmd where
  m : Master
  seq : Nat
  opcode : Nat
  rev : Nat
  flags : Nat
  params : List Byte
  daddr : Nat
  dlen : Nat
  /-- Accepted from the control owner (R246). -/
  fromOwner : Bool
  started : Bool
  /-- Its row has run; it waits inside its operation for a later event. -/
  running : Bool
  /-- DMA bytes still to fetch (R411), and whether the fetch failed. -/
  fetching : Bool
  /-- Posted with DMAP or DMAR while Bus Master Enable was 0 (R451). -/
  noDma : Bool := false
  deriving DecidableEq, Repr

/-- The result the mailbox holds for a master (R416-R419). -/
structure Held where
  seq : Option Nat
  opcode : Nat
  /-- `none` while PENDING; else status and result. -/
  result : Option (Nat × List Byte)
  dmaErr : Bool
  ddone : Nat
  present : Timer
  deriving DecidableEq, Repr

/-- One firmware slot (R430, R434). -/
structure FwSlot where
  valid : Bool
  version : Nat
  svn : Nat
  deriving DecidableEq, Repr

structure MbxSt where
  cmds : List MbCmd := []
  held : List Held := List.replicate 4 ⟨none, 0, none, false, 0, none⟩
  /-- The mailbox is ready (R502); set at power-up. -/
  ready : Bool := false
  cmdWin : List Host.Cell := []
  replyWin : List Byte := []
  replyReject : Bool := false
  replyStatus : Nat := 0
  replyDmaErr : Bool := false
  /-- Control owner, lease deadline, election window, and the masters whose OWNER_CLAIM waits (R245-R249). -/
  owner : Option Master := none
  lease : Timer := none
  window : Timer := none
  claims : List Master := []
  /-- MSEQ that the peer must hold before a running MB_FLUSH completes (R423). -/
  flushMseq : Nat := 0
  /-- Firmware (R430-R434): slot 0 valid and running at reset is log 11. -/
  slot0 : FwSlot := ⟨true, 0, 0⟩
  slot1 : FwSlot := ⟨false, 0, 0⟩
  runSlot : Nat := 0
  bootSlot : Nat := 0
  minSvn : Nat := 0
  /-- An activation: its slot, and when its 500 ms end (R433). -/
  activating : Option (Nat × Nat) := none
  prevSlot : Nat := 0
  /-- A commit whose slot is being written: slot, whether MINSVN rises (R432). -/
  commitSlot : Option (Nat × Bool) := none
  stage : List Host.Cell := []
  stagedTop : Nat := 0
  /-- PLDM update: 0 none, 1 requested, 2 its image is committed, 3 applied (R435). -/
  pldm : Nat := 0
  deriving DecidableEq, Repr

/-! ## Cipher lanes and key vault (chapter 12) -/

/-- Vault states (R392). -/
inductive VaultSt where
  | selftest
  | uncommissioned
  | operational
  | error
  deriving DecidableEq, Repr

/-- A key slot that is not empty, with its key record (R372, R385). `material` names the key's bytes, which the
model does not hold in the clear: equal numbers are equal keys (log 12). `oldMaterial` is the key beside it during
a rekey (R373). -/
structure KeySlot where
  slot : Nat
  typ : Nat
  gen : Nat
  material : Nat
  oldMaterial : Option Nat
  count : Nat
  /-- Data units under the old key (R375). -/
  oldCount : Nat
  resv : Nat
  resvMseq : Nat
  cursor : Nat
  seq : Nat
  ident : List Byte
  deriving DecidableEq, Repr

/-- A rekey's work on its region (R374): step 2 running on pieces, and the MSEQ of the CURSOR line in step 4. -/
structure Rekey where
  slot : Nat
  region : Nat
  loading : Bool
  loaded : Nat
  curMseq : Option Nat
  deriving DecidableEq, Repr

/-- A login or a lockout of an officer (R394): failed login times, and the end of the lockout. -/
structure OfficerSt where
  officer : Nat
  fails : List Nat
  lockout : Timer
  deriving DecidableEq, Repr

/-- A MACsec port (R377-R380): key server, transmit and receive SA, packet numbers, MKA participants with their
life deadlines. -/
structure MacsecPort where
  txSak : Option Nat := none
  rxSak : Option Nat := none
  /-- A SAK that this key server has distributed and whose installation it awaits. -/
  newSak : Option Nat := none
  txPn : Nat := 1
  helloAt : Timer := none
  members : List (Nat × Nat × Nat) := []
  deriving DecidableEq, Repr

/-- TLS context of a connection (R381-R384): records sent and received under the current keys, key names, and the
MSEQ of the XPORT record of a pending write key. -/
structure TlsCtx where
  conn : Nat
  psk : Nat
  txKey : Nat
  rxKey : Nat
  txCount : Nat
  rxCount : Nat
  pendingKey : Option (Nat × Nat)
  deriving DecidableEq, Repr

structure KvtSt where
  st : VaultSt := .selftest
  failTest : Nat := 0
  slots : List KeySlot := []
  /-- Generation of the key store (R389; log 10). -/
  storeGen : Nat := 0
  paired : Bool := false
  /-- A session: master, officer, last command time (R393, R394). -/
  session : Option (Master × Nat × Nat) := none
  nonce : Option (Nat × Nat × Nat) := none
  officers : List OfficerSt := []
  unwrapFails : Nat := 0
  drbgCount : Nat := 0
  lanesOn : List Nat := []
  lanesFailed : List Nat := []
  rekeys : List Rekey := []
  macsec : List MacsecPort := [{}, {}, {}, {}]
  tls : List TlsCtx := []
  deriving DecidableEq, Repr

/-! ## Drive ports and bays (chapter 15) -/

/-- What a member command does for whom. -/
inductive MPurpose where
  | gather (g ring stripe pos : Nat)
  | stripe (ring stripe pos seq : Nat)
  | initZero (ring slot : Nat)
  | repair (ring stripe row pos seq : Nat)
  | checkpoint (ring : Nat)
  | flush (group pos : Nat)
  | upkeep
  deriving DecidableEq, Repr

/-- What a member command is. `writeZeroes` has the Deallocate bit set (R142). -/
inductive MOp where
  | read
  | write
  | writeZeroes
  | createNs
  | deleteNs
  | superblock
  deriving DecidableEq, Repr

/-- An NVMe command to a drive that has not completed (R466). `rows` are the blocks it moves, as block rows of the
chunk or member blocks, with the data of a write. -/
structure MemberCmd where
  id : Nat
  bay : Nat
  ring : Nat
  slot : Nat
  op : MOp
  lba : Nat
  rows : List Nat
  data : List Block
  /-- The 16 bytes of metadata of each block written, byte 0 lowest (R97, R164). -/
  metas : List (BitVec 128)
  fua : Bool
  purpose : MPurpose
  tries : Nat
  issuedAt : Nat
  deadline : Timer
  abortEnd : Timer
  hedged : Bool
  deriving DecidableEq, Repr

/-- A drive-port training state (15 DPX.PSTATn). -/
inductive TrainSt where
  | down
  | training
  | l0
  | failed
  deriving DecidableEq, Repr

/-- An outstanding or quarantined DPX read (R464, R465): tag, issue time, whether it is the second issue. -/
structure DpxRead where
  tag : Nat
  issuedAt : Nat
  second : Bool
  quarantined : Bool
  deriving DecidableEq, Repr

/-- A root port (R461-R470). -/
structure DrivePort where
  train : TrainSt := .down
  speed : Nat := 0
  width : Nat := 0
  attempts : Nat := 0
  trainEnd : Timer := none
  perst : Bool := true
  contained : Bool := false
  cause : Nat := 0
  holdEnd : Timer := none
  /-- Times of the containments of the last 60 s, and the third case of R470. -/
  history : List Nat := []
  stuck : Bool := false
  reads : List DpxRead := []
  deriving DecidableEq, Repr

/-- Bay states (15 BAY.BSTATn). -/
inductive BaySt where
  | empty
  | debounce
  | wait
  | ramping
  | powered
  | ready
  | off
  | retryWait
  | fault
  | inhibit
  deriving DecidableEq, Repr

/-- A bay (R474-R488) and the drive in it, as far as identified. -/
structure Bay where
  st : BaySt := .empty
  seated : Bool := false
  present : Bool := false
  fault : Nat := 0
  retryLeft : Nat := 0
  pg : Bool := false
  pwrdis : Bool := false
  gate : Bool := false
  debounceEnd : Timer := none
  rampEnd : Timer := none
  perstAt : Timer := none
  retryAt : Timer := none
  cycleAt : Timer := none
  led : Nat := 4
  /-- Turned on by BAY_POWER, whatever AUTOON says (R474). -/
  forced : Bool := false
  inserts : Nat := 0
  faults : Nat := 0
  drive : Option DriveInfo := none
  deriving DecidableEq, Repr

structure BaysSt where
  bays : List Bay := List.replicate 24 {}
  ports : List DrivePort := List.replicate 24 {}
  cmds : List MemberCmd := []
  nextCmd : Nat := 0
  /-- This module is the holder; level of BHOLD_A_N (R471). -/
  holder : Bool := false
  bholdHigh : Bool := false
  inputFault : Bool := false
  deriving DecidableEq, Repr

/-! ## Propagation to the peer (R143, R283, R389) -/

/-- A change sent to the peer, with its parameters, whose command completes when the peer has applied it, and what
undoes it: the
subsystem and its namespaces, or the key slot, as they were. -/
structure PropRec where
  m : Master
  opcode : Nat
  params : List Byte
  vsid : Nat
  subs : List Vs
  nss : List Ns
  slot : Nat
  keys : List KeySlot
  result : List Byte
  deriving DecidableEq, Repr
/-! ## Packet parser and classifier (chapter 10) -/

/-- An entry of a rule bank's tables (R317): bank, table (0 nodes, 1 rules), index, and its 32 bytes. An entry that
is not listed is all zero, hence not VALID. -/
structure TableEntry where
  bank : Nat
  table : Nat
  index : Nat
  bytes : List Byte
  deriving DecidableEq, Repr

/-- A frame between two passes (R321): what its next pass starts from. `outer` are the VNI, tunnel kind and outer
destination address that the next key carries. -/
structure Recirc where
  id : Nat
  port : Nat
  bank : Nat
  epoch : Nat
  pass : Nat
  bytes : List Byte
  cookie : Nat
  decap : Bool
  tls : Bool
  vni : Nat
  tunnel : Nat
  odip : List Byte
  /-- Length on arrival, its ingress class, whether policed already, and whether marked yellow (R331, R332). -/
  len : Nat
  icls : Nat
  policed : Bool
  yellow : Bool
  icrcOk : Bool
  deriving DecidableEq, Repr

/-- An entry of the exception queue (R329): descriptor and frame. -/
structure ExEntry where
  desc : List Byte
  frame : List Byte
  deriving DecidableEq, Repr

/-- A token bucket. `level` counts tokens in the bucket's own small unit; `at_` is when it was brought up to date. -/
structure Bucket where
  level : Int
  at_ : Nat
  deriving DecidableEq, Repr

/-- An ingress policer that is not at its reset setting (R331, R332): rates and sizes as their registers, bucket
levels in 1/8000 byte, red frames since the last read. -/
structure Policer where
  index : Nat
  cir : Nat
  cbs : Nat
  ebs : Nat
  tc : Nat
  te : Nat
  at_ : Nat
  red : Nat
  deriving DecidableEq, Repr

structure PpcSt where
  cur : Nat := 0
  epoch : Nat := 0
  tables : List TableEntry := []
  recircs : List Recirc := []
  nextId : Nat := 0
  exq : List ExEntry := []
  /-- Levels of the three exception buckets in 10^-9 tokens; full at reset (R330). -/
  buckets : List Bucket := [⟨256000000000, 0⟩, ⟨256000000000, 0⟩, ⟨256000000000, 0⟩]
  /-- Staged commits of an open batch: TWADDR word and entry (R328). -/
  batch : Option (List (Word × List Byte)) := none
  /-- A swap that waits: its limit, and the master whose REG_WRITE asked with the words it has still to write. -/
  swap : Option (Nat × Option (Master × Nat)) := none
  /-- The management cores owe a recompilation of both banks (R326). -/
  recompile : Bool := false
  policers : List Policer := []
  /-- Frames and bytes that the rule counters gained since the last sweep (R320, R559). -/
  ruleCnt : List (Nat × Nat × Nat) := []
  deriving DecidableEq, Repr

/-! ## Crossbar and egress scheduler (chapter 11) -/

/-- A copy of a frame owed to a crossbar output (R335, R343): for an external port its egress queue (R352; index
1,024 is the port queue), its VSID (512 for none), class and length; the requester's tag for R127 and the host
connection it belongs to. -/
structure Copy where
  port : Nat
  host : Nat
  vsid : Nat
  cls : Nat
  len : Nat
  ect : Bool
  tag : Option Nat
  conn : Option Nat
  /-- Of read data: the CID, the offset of its payload, the offset at which its message begins, and the message's end (R124); an
  end of 0 is any other frame. -/
  cid : Nat := 0
  off : Nat := 0
  base : Nat := 0
  stop : Nat := 0
  /-- Withdrawn while its transfer runs: it leaves at the output (R129, R345). -/
  dropped : Bool := false
  deriving DecidableEq, Repr

/-- The fields of a frame on a host connection that its output rewrites (R124): what the connection's path settles (MAC
addresses, VLAN tag, IP addresses, queue pair numbers or TCP ports), DSCP and class; the PSN or TCP sequence number; BTH
opcode; the RETH's offset into the host's buffer and its DMA length, on the first packet; acknowledgement number, window, ECE
and CWR; CCCID and DATAO. Checksums, ICRC and header digests follow from these and from the payload. -/
structure Rewrite where
  conn : Nat
  path : ConnPath
  dscp : Nat
  pcp : Nat
  seq : Nat
  bthOp : Option Nat
  reth : Option (Nat × Nat)
  ack : Nat
  ece : Bool
  cwr : Bool
  cccid : Nat
  datao : Nat
  deriving DecidableEq, Repr

/-- A frame at a crossbar input (R337): the copies it owes, those whose transfer runs, and whether it is on the
residue list (R344). `icls` is its ingress class on an external port (R342). -/
structure XFrame where
  id : Nat
  input : Nat
  icls : Nat
  control : Bool
  multicast : Bool
  owed : List Copy
  moving : List Copy
  residue : Bool
  len : Nat
  /-- Counted in XBR.RESFULL (R344). -/
  held : Bool := false
  deriving DecidableEq, Repr

/-- A queue's or class's tags (R354), in 1/256 byte: class and host index (of a class, the length its tag was
computed with), start and finish tag of the head, last finish tag. -/
structure WfqTag where
  cls : Nat
  host : Nat
  start : Nat
  fin : Nat
  last : Nat
  deriving DecidableEq, Repr

/-- The egress side of an external port (R351 to R354, R360): queued copies in arrival order, with the frame each
belongs to; queue tags, class tags; virtual times; classes paused by the link partner, since when and until when. -/
structure EgPort where
  queue : List (Nat × Copy) := []
  qtags : List WfqTag := []
  ctags : List WfqTag := []
  vq : Nat := 0
  vc : Nat := 0
  paused : List (Nat × Nat × Nat) := []
  deriving DecidableEq, Repr

/-- A shaper that is not at its reset setting (R356): type and index of ESS.SHSEL, rate, burst, weight, tokens in
1/8000 byte, and for hosts the effective rate in 1/1024 of the configured one, the next reaction and recovery
(R362). -/
structure Shaper where
  typ : Nat
  index : Nat
  rate : Nat
  burst : Nat
  weight : Nat
  tokens : Int
  at_ : Nat
  eff : Nat
  reactAt : Nat
  recovAt : Timer
  deriving DecidableEq, Repr

structure XbrSt where
  frames : List XFrame := []
  nextId : Nat := 0
  /-- Grant pointers of the outputs and accept pointers of the inputs (R338; log 10); inputs whose last completed
  transfer was multicast. -/
  grant : List Nat := List.replicate 14 0
  accept : List Nat := List.replicate 14 0
  lastMulti : List Nat := []
  ports : List EgPort := List.replicate 8 {}
  shapers : List Shaper := []
  /-- Port and class pairs in XOFF (R359), and when each last sent its PFC frame. -/
  xoff : List (Nat × Nat × Nat) := []
  /-- Last CNP sent on a connection (R362). -/
  cnpSent : List (Nat × Nat) := []
  /-- Countdowns of the sample points (R348): ingress 0 to 7, egress 8 to 15; `none` is a reload still to be drawn. -/
  countdown : List (Option Nat) := List.replicate 16 none
  samples : List (List Byte × List Byte) := []
  sampleSeq : Nat := 0
  /-- XBR.OCCDATA, latched by a write of XBR.OCCQRY. -/
  occData : Word := 0
  deriving DecidableEq, Repr

/-! ## Service endpoint (chapter 14) -/

/-- A DMA read request (R447 to R450): its address, the bytes still to come, when it was issued, and whether its tag
is quarantined. -/
structure SepRead where
  tag : Nat
  addr : Nat
  left : Nat
  issuedAt : Nat
  quarantined : Bool
  deriving DecidableEq, Repr

/-- A DMA fetch of a command's parameters in progress (R411, R447): next address to ask for, bytes not asked for
yet, and what has arrived. -/
structure SepFetch where
  next : Nat
  left : Nat
  got : List (Nat × List Byte)
  deriving DecidableEq, Repr

structure SepSt where
  perst : Bool := true
  linkUp : Bool := false
  speed : Nat := 0
  width : Nat := 0
  /-- Configuration space (R440 to R442): Command bits, power state, BARs, Device Control, MSI-X control and table.
  The reset values are the PCI Express base specification's (log 7). -/
  mse : Bool := false
  bme : Bool := false
  parity : Bool := false
  serr : Bool := false
  d3hot : Bool := false
  bar0 : Nat := 0
  bar2 : Nat := 0
  devCtl : Word := 0x00002810
  tag10 : Bool := false
  msixEn : Bool := false
  msixMask : Bool := false
  /-- Of each vector: address, data, masked. -/
  vectors : List (Nat × Nat × Bool) := [(0, 0, true), (0, 0, true)]
  pba : List Nat := []
  /-- AER: uncorrectable status, mask, severity; correctable status, mask (R455; reset values log 7). -/
  uncStat : Word := 0
  uncMask : Word := 0
  uncSev : Word := 0x00462030
  corStat : Word := 0
  corMask : Word := 0x00002000
  reads : List SepRead := []
  fetch : Option SepFetch := none
  /-- Containment (R456, R457): cause, 0 when not contained; limit of a release that waits. -/
  cause : Nat := 0
  relPend : Timer := none
  flr : Bool := false
  /-- The DOE mailbox's response object (R458). -/
  doe : Option (List Byte) := none
  deriving DecidableEq, Repr

/-! ## Supplies, power domains and states (chapter 16) -/

/-- Power states (R515). -/
inductive PwrMode where
  | active
  | lull
  | doze
  | standby
  deriving DecidableEq, Repr

/-- A MOD_RESTART or offline test accepted (R523, R581): mode, and the test to boot into. -/
structure Restart where
  mode : Nat
  test : Option (Nat × Bool)
  /-- Dirty data still drains. -/
  draining : Bool
  /-- The clean checkpoints of R173 have been issued. -/
  clean : Bool := false
  deriving DecidableEq, Repr

structure PwrSt where
  mode : PwrMode := .active
  /-- The datapath and application cores have left reset (step 5 of R502). -/
  up : Bool := false
  efOn : Bool := false
  efFault : Nat := 0
  efRetry : Nat := 3
  efRetryAt : Timer := none
  vinOk : Bool := false
  vsbOk : Bool := false
  tripped : Bool := false
  refBackup : Bool := false
  /-- A rail fault keeps the module off until VIN is cycled or MOD_RESTART (R504). -/
  railOff : Bool := false
  railsUp : List Rail := []
  /-- Domains ON and in RET; one in neither list is OFF (R506). -/
  domOn : List Nat := []
  domRet : List Nat := []
  /-- Domains that wake, and when they are ON at the latest (R522). -/
  waking : List (Nat × Nat) := []
  /-- 100 ms windows in a row with U below LULLTHR and below DOZETHR (R517). -/
  lullRun : Nat := 0
  dozeRun : Nat := 0
  /-- Host identities carried by another port: identity, port (R519, R532). -/
  idents : List (Nat × Nat) := []
  /-- Utilisation of the host ports over the last 100 ms, in 1/100 per cent (R532). -/
  util : List Nat := [0, 0, 0, 0]
  shed : List Nat := []
  restart : Option Restart := none
  /-- Retained core checked last (R514). -/
  coreRot : Nat := 0
  oscTrims : Nat := 0
  deriving DecidableEq, Repr

/-! ## Live calibration (chapter 17) -/

/-- A SerDes lane (R528 to R530), numbered as LCU.LNQRY does. -/
structure LaneSt where
  lane : Nat
  eyeH : Nat
  eyeW : Nat
  below : Nat
  warn : Bool
  scanning : Bool
  /-- When its last scan started (R528). -/
  started : Option Nat := none
  deriving DecidableEq, Repr

/-- Phases of a port retrain (R532 to R536). -/
inductive RtPhase where
  | notice
  | relearn
  | draining
  | routeMove
  | training
  deriving DecidableEq, Repr

/-- A retrain of a host or fabric port, or the traffic move and retrain of a port test (R573). `port` is 0 to 7. -/
structure Retrain where
  port : Nat
  target : Nat
  phase : RtPhase
  deadline : Timer
  forTest : Bool
  deriving DecidableEq, Repr

/-- HBM retraining (R538 to R540): a stack pass with its next channel, a pseudo-channel with its slices done, the
pseudo-channels waiting out of turn. -/
structure HbmCal where
  pass : Option (Nat × Nat) := none
  pc : Option (Nat × Nat) := none
  last : Nat := 0
  urgent : List Nat := []
  /-- Stacks whose pass waits for the pass that runs, with their temperature. -/
  waiting : List (Nat × Int) := []
  /-- Of each stack: time and temperature (°C) of its last pass. -/
  lastPass : List (Option (Nat × Int)) := List.replicate 4 none
  deriving DecidableEq, Repr

structure LcuSt where
  /-- Lanes scanned since the module left reset. Their adapted coefficients are saved as well (R529); every other lane trains from
  defaults. -/
  lanes : List LaneSt := []
  lnData : Word := 0
  retrains : List Retrain := []
  parked : List (Nat × Nat) := []
  defer : List Nat := []
  dpDefer : List Nat := []
  dpRun : Option Nat := none
  /-- F0's loss is out of the link criterion (R536), here and as the peer has announced. -/
  exempt : Bool := false
  peerNotice : Bool := false
  hbm : HbmCal := {}
  /-- Offset corrections of the sense amplifiers in µV: 0 to 23 the bays, 24 the eFuse; none before the first
  estimate (R541 to R543). -/
  offsets : List (Option Int) := List.replicate 25 none
  /-- Offsets of the fast sensors in 1/8 °C and the faulty ones (R544, R545). -/
  trims : List Int := List.replicate 32 0
  faulty : List Nat := []
  deriving DecidableEq, Repr

/-! ## Performance monitor (chapter 18) -/

/-- A counter set (R548): cycles counted before `from_`, when counting began again (none while stopped), the eight
counters, and the holding register with the LO register it belongs to (R557). -/
structure PmuSet where
  base : Nat := 0
  from_ : Option Nat := none
  cnt : List Nat := List.replicate 8 0
  hold : Option (Nat × Nat) := none
  deriving DecidableEq, Repr

/-- A VSID's record (R560). -/
structure VsRec where
  vsid : Nat
  stamp : Nat
  rdCmd : Nat
  wrCmd : Nat
  rdBytes : Nat
  wrBytes : Nat
  rdLat : Nat
  wrLat : Nat
  oth : Nat
  err : Nat
  deriving DecidableEq, Repr

structure PmuSt where
  sets : List PmuSet := [{}, {}, {}, {}]
  /-- What the blocks counted since the last sweep, and the box office's tables (R559). -/
  narrow : List VsRec := []
  recs : List VsRec := []
  rules : List (Nat × Nat × Nat) := []
  rulesStamp : Nat := 0
  sweeps : Nat := 0
  deriving DecidableEq, Repr

/-! ## Test unit and time base (chapters 19 and 20) -/

/-- A TEST_RESULT record (R572). -/
structure TestRec where
  test : Nat
  unit : Nat
  status : Nat
  code : Nat
  errors : Nat
  where_ : Nat
  elapsed : Nat
  deriving DecidableEq, Repr

/-- A live test that runs (R567): test, unit, PARAM, start. `moving` while its traffic is moved away (R573), or until the VOUT of
the bay has been checked (R575). -/
structure LiveTest where
  test : Nat
  unit : Nat
  param : Nat
  start : Nat
  moving : Bool
  deriving DecidableEq, Repr

structure TstSt where
  live : Option LiveTest := none
  results : List TestRec := []
  lastTest : Nat := 0
  lastUnit : Nat := 0
  /-- In test boot, held there, and the offline test of this boot (R582). -/
  boot : Bool := false
  hold : Bool := false
  plane : List Nat := []
  /-- Pieces of HBMPC walked, and its error count so far (R578). -/
  pieces : Nat := 0
  errors : Nat := 0
  firstBad : Nat := 0
  deriving DecidableEq, Repr

/-- The time base (R595): time of day at `at_`, in ns. -/
structure MacSt where
  tod : Nat := 0
  at_ : Nat := 0
  /-- Host ports whose link is up (R597 LSTAT). -/
  hostUp : List Nat := []
  deriving DecidableEq, Repr

/-! ## The whole state -/

/-- Output pins of the module, as far as a command of the table moves them. -/
inductive Pin where
  | hbOut
  | fenceOut
  | bholdA
  | gate (bay : Nat)
  | pwrdis (bay : Nat)
  | perst (bay : Nat)
  | led (bay : Nat)
  deriving DecidableEq, Repr

/-- What crosses the module's boundary outward: capsules and data to hosts, connection messages, Relti and mirror
frames, commands to drives, replies to masters, and pins. -/
inductive Emission where
  | cqe (cntlid sqid cid : Nat) (status : CplStatus) (dw0 sqhd : Nat)
  | adminData (cntlid cid : Nat) (bytes : List Byte)
  | fetch (cntlid sqid cid : Nat)
  | r2t (cntlid sqid cid offset len : Nat)
  | readData (t : Transport) (cntlid sqid cid : Nat) (sectors : List Sector)
  | invalidate (conn key : Nat)
  | cmAccept (conn : Nat)
  | cmReject (conn reason : Nat)
  | cmDisconnect (conn : Nat)
  | synAck (conn : Nat)
  | rst (conn : Nat)
  | icresp (conn maxH2c cpda : Nat) (hdgst ddgst : Bool)
  | termReq (conn : Nat)
  | auth (conn kind code : Nat) (bytes : List Byte)
  | tls (conn kind : Nat)
  | nak (conn psn : Nat)
  | dupAck (conn ack : Nat)
  | resend (conn position : Nat)
  | relti (port typ dst : Nat) (payload : List Byte)
  | head (port : Nat) (bytes : List Byte)
  | stream (second : Bool) (mseq port : Nat) (body : StreamBody)
  | mirack (dst mseq room : Nat)
  | member (cmd : MemberCmd)
  | memberAbort (id : Nat)
  | reply (m : Master) (seq status : Nat) (flags : Nat) (result : List Byte)
  | frame (port : Nat) (bytes : List Byte)
  | propagate (opcode : Nat) (params : List Byte)
  | migrate (dst tvsid seq : Nat) (body : MigrateBody)
  | announce (port : Nat) (addr : BitVec 128)
  | pin (p : Pin) (high : Bool)
  | dmaWrite (addr : Nat) (bytes : List Byte)
  | dmaRead (tag addr len : Nat)
  | msi (vector : Nat)
  | pfc (port cls quanta : Nat)
  | cnp (conn : Nat)
  | transmit (port frame : Nat) (copy : Copy) (hdr : Option Rewrite)
  | sepCpl (status : Nat) (bytes : List Byte)
  | aer (error : Nat)
  | doe (bytes : List Byte)
  | tdo (instruction word : Nat)
  | reset (mode : Nat)
  | status (port : Nat) (st : PeerStatus)
  | store (st : PeerStore)
  deriving DecidableEq, Repr

/-- The state of one module. -/
structure State where
  /-- The model's clock, in ns (log 2). -/
  now : Nat := 0
  /-- Part (R1), slot (R19, R607), UID (R220), SMBus address (R608) and the 48-bit MAC addresses of the eight
  ports: fixed by fuses and straps, given here as a module of KV-9624-A in slot A (log 3). -/
  part : Part := .kv9624a
  slot : Side := .a
  uid : Nat := 1
  smbAddr : Nat := 0x37
  /-- The two slot-identity straps name a slot (R607). -/
  strapsOk : Bool := true
  macs : List (BitVec 48) := [0x024B56000000, 0x024B56000001, 0x024B56000002, 0x024B56000003,
    0x024B56000004, 0x024B56000005, 0x024B56000006, 0x024B56000007]
  /-- Kept bits of the registers: sorted by address, no entry at its reset value (R11, R592). -/
  regs : List (Nat × Word) := []
  hce : HceSt := {}
  rfu : RfuSt := {}
  rge : RgeSt := {}
  snt : SntSt := {}
  rfx : RfxSt := {}
  tk : TkSt := {}
  vsm : VsmSt := {}
  kvt : KvtSt := {}
  mbx : MbxSt := {}
  bay : BaysSt := {}
  /-- Changes the peer has not applied yet (R283). -/
  props : List PropRec := []
  ppc : PpcSt := {}
  xbr : XbrSt := {}
  sep : SepSt := {}
  pwr : PwrSt := {}
  lcu : LcuSt := {}
  pmu : PmuSt := {}
  tst : TstSt := {}
  mac : MacSt := {}
  /-- The model's own field: what has crossed the boundary outward, newest first. -/
  out : List Emission := []
  /-- The model's own field: the number of the next free value (log 4). -/
  freeCtr : Nat := 0
  /-- The queue of waiting commands, first in, first out. -/
  pending : List Instr := []
  deriving DecidableEq, Repr

/-- Why a command stops the machine. No command of this model does: every event that the spec describes has an
effect, and one whose subject is not there lapses (log 5). The constructor is for an access outside the register
space by a path that the spec does not have (R586); nothing raises it, which is safe. -/
inductive Fault where
  | noSuchPath
  deriving DecidableEq, Repr

/-- Why a command is refused. `notModelled` is raised only by Machine/Dispatch.lean, for a row without a meaning:
safe. -/
inductive Refusal where
  | notModelled (mnemonic : String)
  deriving DecidableEq, Repr

/-- The module when its datapath leaves reset (R592). -/
def State.reset : State := {}

end Sys2Proof.Machine
end

