-- ==== Sys2Proof/Machine/Ops.lean ====
section
/-! DEFINITION. The named operations over the state that every family shares: the register file, emissions, the
mirror stream, status codes, the mailbox's completion of a command, and look-ups. -/

namespace Sys2Proof.Machine

/-! ## The register file -/

/-- The kept bits of a register in a file: the listed entry, or the reset value. -/
def regGet (p : Part) (sl : Side) (l : List (Nat × Word)) (a : Nat) : Word :=
  match l.find? (fun e => e.1 = a) with
  | some e => e.2
  | none => regReset p sl a

/-- Insertion into a list sorted by address, in place of an entry at the same address. -/
def regInsert (a : Nat) (w : Word) : List (Nat × Word) → List (Nat × Word)
  | [] => [(a, w)]
  | e :: l => if a < e.1 then (a, w) :: e :: l else if a = e.1 then (a, w) :: l else e :: regInsert a w l

/-- Removal of the entry at an address. -/
def regErase (a : Nat) (l : List (Nat × Word)) : List (Nat × Word) := l.filter (fun e => e.1 ≠ a)

/-- The file with a register's kept bits written; a register at its reset value is not listed. -/
def regPut (p : Part) (sl : Side) (l : List (Nat × Word)) (a : Nat) (w : Word) : List (Nat × Word) :=
  if w = regReset p sl a then regErase a l else regInsert a w l

/-- The canonical form of the register file: addresses strictly rising, no entry at its reset value. -/
def regsWf (p : Part) (sl : Side) : List (Nat × Word) → Bool
  | [] => true
  | [e] => e.2 ≠ regReset p sl e.1
  | e :: f :: l => e.1 < f.1 && e.2 ≠ regReset p sl e.1 && regsWf p sl (f :: l)

/-- The kept bits of a register. -/
def State.reg (s : State) (a : Nat) : Word := regGet s.part s.slot s.regs a

/-- Field `[hi:lo]` of a register's kept bits. -/
def State.cfg (s : State) (a hi lo : Nat) : Nat := fieldOf (s.reg a) hi lo

/-- One kept bit. -/
def State.cfgBit (s : State) (a i : Nat) : Bool := s.cfg a i i = 1

/-- A register's kept bits written; bits of absent units stay 0 (R6). -/
def State.putReg (s : State) (a : Nat) (w : Word) : State :=
  { s with regs := regPut s.part s.slot s.regs a (w &&& ~~~ absentBits s.part a) }

/-- An RC counter of 32 bits with `n` events added, saturating (R14). -/
def State.bumpBy (s : State) (a n : Nat) : State :=
  s.putReg a (BitVec.ofNat 32 (satAt 0xFFFFFFFF ((s.reg a).toNat + n)))

/-- An RC counter of 32 bits with one event added. -/
def State.bump (s : State) (a : Nat) : State := s.bumpBy a 1

/-- A W1C flag set by the module (R14). -/
def State.raiseFlag (s : State) (a i : Nat) : State := s.putReg a (s.reg a ||| place 1 i)

/-- A 16-bit half of a counter with one event added, saturating at 0xFFFF (02 HCE.ABTCNT). -/
def State.bumpHalf (s : State) (a lo : Nat) : State :=
  let v := s.cfg a (lo + 15) lo
  s.putReg a ((s.reg a &&& ~~~ place 0xFFFF lo) ||| place (satAt 0xFFFF (v + 1)) lo)

/-! ## Addressed buffers (R431, R436) -/

/-- The byte at an address of a buffer: the listed one, else the zero of a cleared buffer. -/
def cellRead (l : List Host.Cell) (a : Nat) : Byte :=
  match l.find? (fun c => c.1 = a) with
  | some c => c.2
  | none => 0

/-- Insertion into a list sorted by address, in place of a cell at the same address. -/
def cellInsert (a : Nat) (b : Byte) : List Host.Cell → List Host.Cell
  | [] => [(a, b)]
  | c :: l => if a < c.1 then (a, b) :: c :: l else if a = c.1 then (a, b) :: l else c :: cellInsert a b l

/-- A byte written; a zero is not listed. -/
def cellWrite (l : List Host.Cell) (a : Nat) (b : Byte) : List Host.Cell :=
  if b = 0 then l.filter (fun c => c.1 ≠ a) else cellInsert a b l

/-- Bytes written from an address upward. -/
def cellWrites (l : List Host.Cell) : Nat → List Byte → List Host.Cell
  | _, [] => l
  | a, b :: bs => cellWrites (cellWrite l a b) (a + 1) bs

/-- The canonical form of a buffer: addresses strictly rising, no zero listed. -/
def cellsWf : List Host.Cell → Bool
  | [] => true
  | [c] => c.2 ≠ 0
  | c :: d :: l => c.1 < d.1 && c.2 ≠ 0 && cellsWf (d :: l)

/-- `n` bytes of a buffer from an address. -/
def cellBytes (l : List Host.Cell) (a n : Nat) : List Byte := (natsFrom a n).map (cellRead l)

/-! ## Emissions and free values -/

/-- Something crosses the boundary outward. -/
def State.emit (s : State) (e : Emission) : State := { s with out := e :: s.out }

/-- Several emissions, the first of the list first. -/
def State.emitAll (s : State) (es : List Emission) : State := { s with out := es.reverse ++ s.out }

/-- The next free number (log 4). -/
def State.freeNow (s : State) : Nat := Config.freeNat s.freeCtr

/-- The state after a free value has been taken. -/
def State.tookFree (s : State) : State := { s with freeCtr := s.freeCtr + 1 }

/-! ## Performance events (R550 to R555, R562) -/

/-- The register of counter `n` of set `v` at offset `o` of its group. -/
def pmuReg (base v n : Nat) : Nat := base + 0x100 * v + 0x10 * n

/-- What a counter adds for an event: 0 unless it is enabled, its set is not frozen and the event passes the four
filters (R550, R554). -/
def State.pmuPasses (s : State) (v n ev : Nat) (addr cls : Option Nat) (priv mst : Nat) : Bool :=
  let c := pmuReg Reg.pmuCtl v n
  let am := s.reg (pmuReg Reg.pmuAmask v n)
  s.cfgBit c 31 && !s.cfgBit (Reg.pmuCfg + 0x100 * v) 0 && s.cfg c 7 0 = ev && ev ≠ 0 && s.cfgBit c (28 + priv) &&
    (if priv = 2 then s.cfgBit c (24 + mst) else s.cfg c 27 24 ≠ 0) &&
    (match cls with | some b => s.cfgBit c (16 + b) | none => s.cfg c 23 16 ≠ 0) &&
    (match addr with
     | some a => (BitVec.ofNat 32 a &&& am) = (s.reg (pmuReg Reg.pmuAbase v n) &&& am)
     | none => am = 0)

/-- The width at which a set's programmable counters wrap (R555, R562). -/
def State.pmuWrap (s : State) (v : Nat) : Nat := if s.cfgBit (Reg.pmuCfg + 0x100 * v) 1 then 2 ^ 32 else 2 ^ 48

/-- A programmable counter of set `v` wrapped `c` times: its OVF bit (R555), and in chain mode the enabled odd counter
above an even one whose EVENT is 0x00 counts on (R562). -/
def State.pmuWrapped (s : State) (v n w c : Nat) : State :=
  if 4 ≤ v then s
  else
    let s2 := s.raiseFlag (Reg.pmuOvf + 0x100 * v) n
    let r := pmuReg Reg.pmuCtl v (n + 1)
    if w = 2 ^ 32 && n % 2 = 0 && s.cfgBit r 31 && s.cfg r 7 0 = 0 && !s.cfgBit (Reg.pmuCfg + 0x100 * v) 0 then
      let q := s2.pmu.sets.getD v {}
      let y := q.cnt.getD (n + 1) 0 + c
      let s3 := { s2 with
        pmu := { s2.pmu with sets := setAt s2.pmu.sets v { q with cnt := setAt q.cnt (n + 1) (y % w) } } }
      if y < w then s3 else s3.raiseFlag (Reg.pmuOvf + 0x100 * v) (n + 1)
    else s2

/-- A programmable counter gains `inc` and wraps at its width (R555). -/
def State.pmuAdd (s : State) (v n inc : Nat) : State :=
  let p := s.pmu.sets.getD v {}
  let w := s.pmuWrap v
  let x := p.cnt.getD n 0 + inc
  let s1 := { s with pmu := { s.pmu with sets := setAt s.pmu.sets v { p with cnt := setAt p.cnt n (x % w) } } }
  if x < w then s1 else s1.pmuWrapped v n w (x / w)

/-- No counter of the monitor is programmed. -/
def State.pmuIdle (s : State) : Bool := s.regs.all (fun e => e.1 < Reg.pmuCfg || Reg.pmuCnthi + 0x400 < e.1)

/-- An event of R552 with its address, class, privilege (0 host, 1 internal, 2 management) and master. No counter is
enabled while the register file lists none of the monitor's registers. -/
def State.count (s : State) (ev : Nat) (addr cls : Option Nat) (priv mst inc : Nat) : State :=
  if s.pmuIdle then s
  else
    (natsFrom 0 32).foldl (fun t i =>
      if s.pmuPasses (i / 8) (i % 8) ev addr cls priv mst then t.pmuAdd (i / 8) (i % 8) inc else t) s

/-- An event of privilege Host. -/
def State.hostEvent (s : State) (ev addr : Nat) (cls : Option Nat) (inc : Nat) : State :=
  s.count ev (some addr) cls 0 0 inc

/-- AES blocks that the cipher lanes process, with their privilege (ICL_BLK, R552). Which lane takes a piece of work the spec does
not say: a free value (log 91). -/
def State.laneWork (s : State) (blocks priv : Nat) : State :=
  if s.pmuIdle || blocks = 0 then s else (s.count 0x28 (some (s.freeNow % 16)) none priv 0 blocks).tookFree

/-- Traffic of the HBM in one nanosecond (HBM_RD64, HBM_WR64 of R552): the spec does not say which accesses are made, nor by which
pseudo-channel a datum lies; pseudo-channel, privilege and amount are free values (log 91). -/
def State.hbmTraffic (s : State) : State :=
  if s.pmuIdle then s
  else
    let f := fun (i : Nat) => Config.freeNat (s.freeCtr + i)
    let s1 := s.count 0x40 (some (f 0 % 128)) none (f 1 % 3) (f 2 % 4) (f 3 % 17)
    let s2 := s1.count 0x41 (some (f 4 % 128)) none (f 5 % 3) (f 6 % 4) (f 7 % 17)
    { s2 with freeCtr := s2.freeCtr + 8 }

/-- The cycle counter of a set: 1.8 GHz of the time base (R549). -/
def State.cycles (s : State) (v : Nat) : Nat :=
  let p := s.pmu.sets.getD v {}
  (p.base + (match p.from_ with | some t => (s.now - t) * 9 / 5 | none => 0)) % 2 ^ 64

/-- One nanosecond of the clock on an empty queue (log 2); a cycle counter that wraps in it sets OVF bit 8 (R555). -/
def State.tick (s : State) : State :=
  let t := State.hbmTraffic { s with now := s.now + 1 }
  (natsFrom 0 4).foldl (fun u v => if t.cycles v < s.cycles v then u.raiseFlag (Reg.pmuOvf + 0x100 * v) 8 else u) t

/-- What the blocks count for a VSID's record (R560). -/
def State.vsCount (s : State) (v : Nat) (f : VsRec → VsRec) : State :=
  let l := s.pmu.narrow
  let l1 := if l.any (fun r => r.vsid = v) then l else l ++ [⟨v, 0, 0, 0, 0, 0, 0, 0, 0, 0⟩]
  { s with pmu := { s.pmu with narrow := updWhere (fun r => r.vsid = v) f l1 } }

/-! ## Frames into the crossbar (R335 to R337) -/

/-- The one copy of a frame that belongs to no host connection. -/
def plainCopy (port host vsid cls len : Nat) : Copy :=
  { port := port, host := host, vsid := vsid, cls := cls, len := len, ect := false, tag := none, conn := none }

/-- A frame enters a crossbar input with the copies it owes. -/
def State.xbar (s : State) (input icls : Nat) (control : Bool) (copies : List Copy) (len : Nat) : State :=
  if copies.isEmpty then s
  else
    let f : XFrame := ⟨s.xbr.nextId, input, icls, control, 1 < copies.length, copies, [], false, len, false⟩
    { s with xbr := { s.xbr with frames := s.xbr.frames ++ [f], nextId := s.xbr.nextId + 1 } }

/-- Lengths, from destination MAC through FCS, of the frames that carry `n` payload bytes in units of `u`, with
`h` bytes of headers and trailers each. -/
def frameLens (h u : Nat) : Nat → Nat → List Nat
  | 0, _ => []
  | fuel + 1, n => if n ≤ u || u = 0 then [h + n] else (h + u) :: frameLens h u fuel (n - u)

/-- Egress class of a Relti TYPE (R358). -/
def reltiClass (typ : Nat) : Nat :=
  if typ ≤ 0x07 then 7 else if typ ≤ 0x0C then 6 else if typ = 0x0D then 5 else 1

def State.fabPort (s : State) (p : Nat) : FabPort := s.rfx.ports.getD p {}

def State.setFabPort (s : State) (p : Nat) (f : FabPort → FabPort) : State :=
  { s with rfx := { s.rfx with ports := setAt s.rfx.ports p (f (s.fabPort p)) } }

/-- The 16-byte Relti header (R217). -/
def ReltiHdr.bytes (h : ReltiHdr) : List Byte :=
  let b := [0x10] ++ beBytes 1 h.typ ++ beBytes 1 h.dst ++ beBytes 1 h.src ++ beBytes 1 h.hops ++
    beBytes 1 (if h.control then 1 else 0) ++ beBytes 2 h.len ++ beBytes 2 h.flow ++ zeroBytes 2
  b ++ beBytes 4 (crc32c b).toNat

/-- The Ethernet and Relti headers of a frame that leaves on a fabric port (R217). -/
def State.reltiHead (s : State) (port : Nat) (h : ReltiHdr) : List Byte :=
  beBytes 6 (if h.typ = 1 then 0x0300C04B5600 else (s.fabPort port).nbrMac.toNat) ++ beBytes 6 (s.macs.getD (4 + port) 0).toNat ++
    beBytes 2 (s.cfg Reg.rfxCfg 31 16) ++ h.bytes

/-- A Relti frame of `n` payload bytes leaves through the crossbar for a fabric port (R217, R358): the originator sets HOPS to 8,
of a BARKER to 1 (R220), the control flag of the TYPEs that R218 names, and FLOW to 0 (log 83). Frames of the fabric unit
enter at the host command engine's input, as R335 gives the unit no port of its own (log 20). -/
def State.xbarRelti (s : State) (port dst typ n : Nat) : State :=
  let h : ReltiHdr := ⟨typ, dst, s.rfx.fid, if typ = 1 then 1 else 8, typ ≤ 0x07, n, 0⟩
  (s.emit (.head port (s.reltiHead port h))).xbar 8 0 (typ ≤ 0x07) [plainCopy (4 + port) 0 512 (reltiClass typ) (34 + n)]
    (34 + n)

/-- TYPE and payload length of a stream frame (R253, R257, R259, R262). -/
def StreamBody.typ : StreamBody → Nat
  | .mirror _ => 0x08
  | .cmd _ => 0x0A
  | .xport _ => 0x0B
  | .fwd _ => 0x0C

def StreamBody.size : StreamBody → Nat
  | .mirror (.blocks l) => 8 + 4120 * l.length
  | .mirror (.joinCopy l) => 8 + 4120 * l.length
  | .mirror (.free l) => 8 + 24 * l.length
  | .mirror (.lines l) => 8 + 72 * l.length
  | .mirror (.ring _) => 8 + 4120
  | .fwd l => 8 + 4120 * l.length
  | .cmd _ => 6 + 112
  | .xport _ => 6 + 256

/-! ## Status codes -/

def cplSuccess : CplStatus := ⟨0, 0x00, false⟩
/-- The statuses of R61. -/
def cplInvalidOpcode : CplStatus := ⟨0, 0x01, true⟩
def cplInvalidField : CplStatus := ⟨0, 0x02, true⟩
def cplCidConflict : CplStatus := ⟨0, 0x03, true⟩
def cplTransferError : CplStatus := ⟨0, 0x04, false⟩
def cplAborted : CplStatus := ⟨0, 0x07, false⟩
def cplSqDeleted : CplStatus := ⟨0, 0x08, false⟩
def cplInvalidNs : CplStatus := ⟨0, 0x0B, true⟩
def cplSglType : CplStatus := ⟨0, 0x11, true⟩
def cplSanitize : CplStatus := ⟨0, 0x1D, false⟩
def cplLbaRange : CplStatus := ⟨0, 0x80, true⟩
def cplFormat : CplStatus := ⟨0, 0x84, false⟩
def cplUnrecRead : CplStatus := ⟨2, 0x81, true⟩
def cplCompare : CplStatus := ⟨2, 0x85, true⟩
def cplAccessDenied : CplStatus := ⟨2, 0x86, true⟩
/-- Connect Controller Busy (R39, R287). -/
def cplConnBusy : CplStatus := ⟨1, 0x81, false⟩
/-- Statuses that the spec names without a code; the codes are the NVMe specifications' (PRESUMED, log 6). -/
def cplConnParam : CplStatus := ⟨1, 0x82, true⟩
def cplConnHost : CplStatus := ⟨1, 0x84, true⟩
def cplAuthRequired : CplStatus := ⟨1, 0x91, true⟩
def cplAbortLimit : CplStatus := ⟨1, 0x03, true⟩
def cplInvalidLogPage : CplStatus := ⟨1, 0x09, true⟩
def cplInvalidFormat : CplStatus := ⟨1, 0x0A, true⟩
def cplNotSaveable : CplStatus := ⟨1, 0x0D, true⟩
def cplAerLimit : CplStatus := ⟨1, 0x05, true⟩

/-- The status codes of R18. -/
def stOk : Nat := 0
def stPending : Nat := 1
def stBusy : Nat := 2
def stNotOwner : Nat := 3
def stInvalidOpcode : Nat := 4
def stInvalidParam : Nat := 5
def stAbsent : Nat := 6
def stAborted : Nat := 7
def stAuthFailed : Nat := 8
def stLimit : Nat := 9
def stConflict : Nat := 10
def stCrc : Nat := 11

/-- The status of the first check that fails, in the order of the list; `true` marks a failing check. -/
def firstFail : List (Bool × Nat) → Option Nat
  | [] => none
  | (b, st) :: l => if b then some st else firstFail l

/-! ## Masters and the mailbox -/

/-- The 2-bit identifier of a master (07 Control owner). -/
def Master.num : Master → Nat
  | .service => 0
  | .bmc => 1
  | .inband => 2
  | .peer => 3

/-- The master of a 2-bit identifier. -/
def masterOf : Nat → Master
  | 0 => .service
  | 1 => .bmc
  | 2 => .inband
  | _ => .peer

/-- What the mailbox holds for a master (R416). -/
def State.heldOf (s : State) (m : Master) : Held :=
  s.mbx.held.getD m.num ⟨none, 0, none, false, 0, none⟩

/-- The held record of a master changed. -/
def State.setHeld (s : State) (m : Master) (f : Held → Held) : State :=
  { s with mbx := { s.mbx with held := setAt s.mbx.held m.num (f (s.heldOf m)) } }

/-- The outstanding command of a master, if any. -/
def State.cmdOf (s : State) (m : Master) : Option MbCmd := s.mbx.cmds.find? (fun c => c.m = m)

/-- Whether none of the events of R451 stops a transfer of the endpoint's DMA master. -/
def State.dmaAlive (s : State) : Bool := s.sep.linkUp && s.sep.bme && !s.sep.flr && s.sep.cause = 0

/-- Whether the endpoint's DMA master may issue requests (R439, R452, R453, R456). -/
def State.dmaUp (s : State) : Bool := s.dmaAlive && !s.sep.d3hot

/-- The write requests of a result (R448): in ascending order, none above Max_Payload_Size or across a 4 KiB boundary. -/
def dmaPieces (mps : Nat) : Nat → Nat → List Byte → List (Nat × List Byte)
  | 0, _, _ => []
  | n + 1, a, bs =>
    if bs.isEmpty then []
    else
      let k := Nat.min mps (4096 - a % 4096)
      (a, bs.take k) :: dmaPieces mps n (a + k) (bs.drop k)

/-- A result leaves by DMA. -/
def State.dmaResult (s : State) (a : Nat) (bs : List Byte) : State :=
  (dmaPieces (128 * 2 ^ fieldOf s.sep.devCtl 7 5) bs.length a bs).foldl (fun t e => t.emit (.dmaWrite e.1 e.2)) s

/-- An MSI-X message, or its pending bit while it cannot be sent (R446, R452). -/
def State.sendMsi (s : State) (v : Nat) : State :=
  let masked := s.sep.msixMask || ((s.sep.vectors.getD v (0, 0, true)).2.2)
  if !s.sep.msixEn then s
  else if s.dmaUp && !masked then s.emit (.msi v)
  else { s with sep := { s.sep with pba := addNat s.sep.pba v } }

/-- A bit of SEP.EVTSTAT sets; vector 1 follows when it is enabled (R446). -/
def State.sepEvent (s : State) (bit : Nat) : State :=
  let s1 := s.raiseFlag Reg.sepEvtstat bit
  if s.cfgBit Reg.sepEvten bit && !(s.reg Reg.sepEvtstat).getLsbD bit then s1.sendMsi 1 else s1

/-- Whether `m` is the control owner's command's master (R245). -/
def State.isOwner (s : State) (m : Master) : Bool := s.mbx.owner = some m

/-- The master's command leaves the mailbox with its status and result held (R417). A result of a DMAR command goes
out by DMA; where the writes cannot be issued, DMAERR sets and the effect stands (R411, R451). -/
def State.finishOne (s : State) (m : Master) (st : Nat) (res : List Byte) : State :=
  match s.cmdOf m with
  | none => s
  | some c =>
    let dma := c.flags / 8 % 2 = 1 && st = stOk
    let bad := dma && (c.noDma || !s.dmaUp)
    let s1 := { s with mbx := { s.mbx with cmds := s.mbx.cmds.filter (fun d => d.m ≠ m) } }
    let s2 := s1.setHeld m (fun h =>
      { h with
        result := some (st, if dma then [] else res), dmaErr := bad,
        ddone := if dma && !bad then res.length else 0 })
    if bad then s2.bump Reg.sepDmafail else if dma then s2.dmaResult c.daddr res else s2

/-- A command ends; with it an MB_RESET that waited for the started commands before it (R422). -/
def State.finish (s : State) (m : Master) (st : Nat) (res : List Byte) : State :=
  let s1 := s.finishOne m st res
  match s1.mbx.cmds with
  | c :: _ => if c.opcode = 0x0103 && c.running then s1.finishOne c.m stOk [] else s1
  | [] => s1

/-- Bytes of a result that a command has room for (R414). -/
def MbCmd.room (c : MbCmd) : Nat := if c.flags / 8 % 2 = 1 then c.dlen else 4096

/-- A result whose length the state fixes: without room for it the command completes with INVALID_PARAM (R414). -/
def State.answer (s : State) (c : MbCmd) (res : List Byte) : State :=
  if c.room < res.length then s.finish c.m stInvalidParam [] else s.finish c.m stOk res

/-- The master's command stays outstanding after its row has run: it waits inside its operation (R421). -/
def State.keepRunning (s : State) (m : Master) : State :=
  let cs := updWhere (fun c => c.m = m) (fun c => { c with running := true }) s.mbx.cmds
  { s with mbx := { s.mbx with cmds := cs } }

/-- Whether a row of opcode `op` has work: the master's command has started with that opcode, its parameters are
fetched, and its row has not run. -/
def MbCmd.ready (c : MbCmd) (op : Nat) : Bool :=
  c.opcode = op && c.started && !c.running && !c.fetching

/-- The operation of opcode `op` for master `m`: `f` on its started command; without one the row lapses. -/
def State.runCmd (s : State) (m : Master) (op : Nat) (f : MbCmd → State → State) : State :=
  match s.cmdOf m with
  | some c => if c.ready op then f c s else s
  | none => s

/-- A command refused with the first failing check, or carried out. -/
def State.checked (s : State) (m : Master) (checks : List (Bool × Nat)) (f : State → State) : State :=
  match firstFail checks with
  | some st => s.finish m st []
  | none => f s

/-- Whether the peer pair is formed: the peer has joined (R80, R222). -/
def State.paired (s : State) : Bool := s.rfx.peer.joined

/-! ## Fabric ports and the mirror streams (R253-R256) -/

/-- The midplane ports that are up (R21, R222). -/
def State.upMidplane (s : State) : List Nat :=
  (Config.midplane s.part).filter (fun p => (s.fabPort p).up)

/-- The mirror link is up while a midplane port is (R21). -/
def State.mirrorUp (s : State) : Bool := !s.upMidplane.isEmpty

/-- The port that carries the stream's next frame: round robin over the up midplane ports (R254). -/
def State.nextMidplane (s : State) (after : Nat) : Nat :=
  let ps := s.upMidplane
  match ps.find? (fun p => after < p) with
  | some p => p
  | none => ps.headD 0

/-- The next-hop port towards a FID (R232): of several the one that the hash of SRC, DST and FLOW selects (R233). -/
def State.routePort (s : State) (dst : Nat) : Option Nat :=
  match s.rfx.routes.find? (fun r => r.1 = dst) with
  | some (_, _, ps) => ps[Config.flowHash s.rfx.fid dst 0 % Nat.max ps.length 1]?
  | none => none

/-- The midplane port of a frame to the peer that belongs to no stream, selected alike (R233). -/
def State.peerPort (s : State) : Option Nat :=
  let ps := s.upMidplane
  ps[Config.flowHash s.rfx.fid s.rfx.peer.fid 0 % Nat.max ps.length 1]?

/-- A MGMT frame of `n` payload bytes to the peer (R408). -/
def State.mgmtPeer (s : State) (n : Nat) : State :=
  match s.peerPort.orElse (fun _ => s.routePort s.rfx.peer.fid) with
  | some p => s.xbarRelti p s.rfx.peer.fid 0x0D n
  | none => s

/-- A change of configuration goes to the peer in a MGMT frame of KIND 0x03 (R283, R408). -/
def State.sendProp (s : State) (opcode : Nat) (params : List Byte) : State :=
  (s.emit (.propagate opcode params)).mgmtPeer (68 + params.length)

/-- A change of configuration that goes to the peer (R283): the command completes at once when no peer pair can
apply it, else it waits for the peer's reply. -/
def State.propagate (s : State) (m : Master) (r : PropRec) : State :=
  if s.rfx.peer.absent || s.rfx.peer.mismatch then s.finish m stOk r.result
  else
    let s1 := s.keepRunning m
    let s2 := { s1 with props := s1.props ++ [r] }
    if s.paired then s2.sendProp r.opcode r.params else s2

/-- The answer to a propagation of the peer (R283, R408). -/
def State.replyPeer (s : State) (st : Nat) : State := (s.emit (.reply .peer 0 st 0 [])).mgmtPeer 68

/-- Payload bytes of a MIGRATE frame (R305). -/
def MigrateBody.size : MigrateBody → Nat
  | .blocks l => 8 + 4120 * l.length
  | .image _ bs => 12 + bs.length
  | .ack _ | .abort => 8

/-- A MIGRATE frame to a module of the fabric; without a route it is dropped and counted (R234, R305). -/
def State.sendMigrate (s : State) (dst tvsid seq : Nat) (body : MigrateBody) : State :=
  match s.routePort dst with
  | some p => (s.emit (.migrate dst tvsid seq body)).xbarRelti p dst 0x0E body.size
  | none => s.bump Reg.rfxNoroute

/-- Frames that take the routed path to a joined peer while the mirror link is down: forwards (R235), and free notices, which
let a forward's command commit; they carry MSEQ 0 there (log 46). -/
def StreamBody.routed : StreamBody → Bool
  | .fwd _ => true
  | .mirror (.free _) => true
  | _ => false

/-- A frame onto the peer stream, while it is open (R253, R254). -/
def State.mirSend (s : State) (b : StreamBody) : State :=
  let o := s.rfx.out1
  if o.isOpen then
    let p := s.nextMidplane o.rrPort
    let o' := { o with next := o.next + 1, out := o.out ++ [⟨o.next, b, p, s.now⟩], rrPort := p }
    let s1 := ({ s with rfx := { s.rfx with out1 := o' } }).emit (.stream false o.next p b)
    (s1.xbarRelti p s.rfx.peer.fid b.typ b.size).hostEvent 0x31 (4 + p) none (ceilDiv (34 + b.size) 64)
  else if s.rfx.peer.joined && b.routed then
    match s.routePort s.rfx.peer.fid with
    | some p => (s.emit (.stream false 0 p b)).xbarRelti p s.rfx.peer.fid b.typ b.size
    | none => s
  else s

/-- Several frames onto the peer stream. -/
def State.mirSendAll (s : State) (bs : List StreamBody) : State := bs.foldl State.mirSend s

/-- MSEQ of the last frame put on the peer stream. -/
def State.lastMseq (s : State) : Nat := s.rfx.out1.next - 1

/-- Whether the peer holds everything up to an MSEQ (R255). A closed stream has nothing to wait for (R256). -/
def State.peerHolds (s : State) (m : Nat) : Bool := !s.rfx.out1.isOpen || m ≤ s.rfx.out1.acked

/-- Whether a second copy is due: MIRDEG 2 with a second holder named and reachable (R253, 08 TKCFG). -/
def State.mirror2 (s : State) : Bool :=
  s.cfg Reg.hceWbctl 9 8 = 2 && s.cfgBit Reg.rfxTkcfg 15 && !s.tk.mir2dn

/-- A second copy is due and cannot be sent: no second holder is named, or it is unreachable (R81, 08 TKCFG). -/
def State.lacks2 (s : State) : Bool := s.cfg Reg.hceWbctl 9 8 = 2 && !s.mirror2

/-- The external fabric port towards the second holder: of the next-hop ports of its route, the midplane ones left out
(R21), the one that the stream's single FLOW value selects (R254). -/
def State.port2 (s : State) : Option Nat :=
  let dst := s.cfg Reg.rfxTkcfg 14 8
  match s.rfx.routes.find? (fun r => r.1 = dst) with
  | some (_, _, ps) =>
    let l := ps.filter (fun p => !hasNat (Config.midplane s.part) p)
    l[Config.flowHash s.rfx.fid dst 0 % Nat.max l.length 1]?
  | none => none

/-- A frame onto the second holder's stream, which takes the routed path (R21, R254). -/
def State.mirSend2 (s : State) (b : StreamBody) : State :=
  if s.mirror2 then
    match s.port2 with
    | some p =>
      let o := s.rfx.out2
      let o' := { o with next := o.next + 1, out := o.out ++ [⟨o.next, b, p, s.now⟩], rrPort := p }
      (({ s with rfx := { s.rfx with out2 := o' } }).emit (.stream true o.next p b)).xbarRelti p
        (s.cfg Reg.rfxTkcfg 14 8) b.typ b.size
    | none => s
  else s

def State.lastMseq2 (s : State) : Nat := s.rfx.out2.next - 1

/-- Whether the second holder holds everything up to an MSEQ, as far as a second copy is due (R81). -/
def State.secondHolds (s : State) (m : Nat) : Bool := !s.mirror2 || m ≤ s.rfx.out2.acked

/-- An update of an own safety-net line goes to the peer (R167, R257 KIND 0x03). -/
def State.sendLine (s : State) (area index : Nat) (line : List Byte) : State :=
  s.mirSend (.mirror (.lines [(area, index, line)]))

/-- A Relti frame from this module (R217). -/
def State.relti (s : State) (port typ dst : Nat) (payload : List Byte) : State :=
  (s.emit (.relti port typ dst payload)).xbarRelti port dst typ payload.length

/-- A frame of the shelf exchange to the peer, on an up midplane port (R219, R233). -/
def State.toPeer (s : State) (typ : Nat) (payload : List Byte) : State :=
  match s.peerPort with
  | none => s
  | some p => s.relti p typ s.rfx.peer.fid payload

/-! ## Time base (R595) -/

/-- The time base now, in ns in steps of 2 ns, with its rate correction in units of 1/65,536 ppm. -/
def State.timeNow (s : State) : Nat :=
  let d : Int := Int.ofNat (s.now - s.mac.at_)
  let adj := (s.reg Reg.macTsadj).toInt
  (Int.ofNat s.mac.tod + d + d * adj / 65536000000).toNat / 2 * 2

/-- A TS field: seconds in bits 63 to 32, nanoseconds below. -/
def State.tsField (s : State) : Nat := s.timeNow / 1000000000 % 2 ^ 32 * 2 ^ 32 + s.timeNow % 1000000000

/-- The TS field of a frame of a port: 0 while MAC.PCFGp.TSEN is 0 (R596). -/
def State.portTs (s : State) (p : Nat) : Nat := if s.cfgBit (Reg.macPcfg + 0x40 * p) 1 then s.tsField else 0

def State.updMac (s : State) (f : MacSt → MacSt) : State := { s with mac := f s.mac }

/-- The time base is loaded from MAC.TODSEC and MAC.TODNS. -/
def State.timeSet (s : State) : State :=
  let t := 1000000000 * (s.reg Reg.macTodsec).toNat + (s.reg Reg.macTodns).toNat
  s.updMac (fun x => { x with tod := t, at_ := s.now })

/-- The time base is copied into MAC.TODSEC and MAC.TODNS. -/
def State.timeLatch (s : State) : State :=
  let t := s.timeNow
  (s.putReg Reg.macTodsec (BitVec.ofNat 32 (t / 1000000000))).putReg Reg.macTodns (BitVec.ofNat 32 (t % 1000000000))

/-- A new rate correction holds from now on (MAC.TSADJ). -/
def State.timeRate (s : State) (w : Word) : State :=
  (s.updMac (fun x => { x with tod := s.timeNow, at_ := s.now })).putReg Reg.macTsadj w

/-! ## Look-ups in the tables -/

def State.findTag (s : State) (t : Nat) : Option TagRec := s.hce.tags.find? (fun r => r.tag = t)

def State.updTag (s : State) (t : Nat) (f : TagRec → TagRec) : State :=
  { s with hce := { s.hce with tags := updWhere (fun r => r.tag = t) f s.hce.tags } }

def State.findCtrl (s : State) (c : Nat) : Option Ctrl := s.hce.ctrls.find? (fun r => r.cntlid = c)

def State.updCtrl (s : State) (c : Nat) (f : Ctrl → Ctrl) : State :=
  { s with hce := { s.hce with ctrls := updWhere (fun r => r.cntlid = c) f s.hce.ctrls } }

def State.findSq (s : State) (c q : Nat) : Option SubQ :=
  s.hce.sqs.find? (fun r => r.cntlid = c && r.sqid = q)

def State.updSq (s : State) (c q : Nat) (f : SubQ → SubQ) : State :=
  { s with hce := { s.hce with sqs := updWhere (fun r => r.cntlid = c && r.sqid = q) f s.hce.sqs } }

def State.findConn (s : State) (c : Nat) : Option HConn := s.hce.conns.find? (fun r => r.id = c)

def State.updConn (s : State) (c : Nat) (f : HConn → HConn) : State :=
  { s with hce := { s.hce with conns := updWhere (fun r => r.id = c) f s.hce.conns } }

def State.findVs (s : State) (v : Nat) : Option Vs := s.vsm.subs.find? (fun r => r.vsid = v)

def State.updVs (s : State) (v : Nat) (f : Vs → Vs) : State :=
  { s with vsm := { s.vsm with subs := updWhere (fun r => r.vsid = v) f s.vsm.subs } }

def State.findNs (s : State) (v n : Nat) : Option Ns :=
  s.vsm.nss.find? (fun r => r.vsid = v && r.nsid = n)

def State.updNs (s : State) (v n : Nat) (f : Ns → Ns) : State :=
  { s with vsm := { s.vsm with nss := updWhere (fun r => r.vsid = v && r.nsid = n) f s.vsm.nss } }

def State.findRing (s : State) (r : Nat) : Option Ring := s.rge.rings.find? (fun x => x.num = r)

def State.updRing (s : State) (r : Nat) (f : Ring → Ring) : State :=
  { s with rge := { s.rge with rings := updWhere (fun x => x.num = r) f s.rge.rings } }

def State.findGroup (s : State) (g : Nat) : Option Group := s.rfu.groups.find? (fun x => x.id = g)

def State.updGroup (s : State) (g : Nat) (f : Group → Group) : State :=
  { s with rfu := { s.rfu with groups := updWhere (fun x => x.id = g) f s.rfu.groups } }

def State.bayOf (s : State) (b : Nat) : Bay := s.bay.bays.getD b {}

def State.setBay (s : State) (b : Nat) (f : Bay → Bay) : State :=
  { s with bay := { s.bay with bays := setAt s.bay.bays b (f (s.bayOf b)) } }

def State.portOf (s : State) (p : Nat) : DrivePort := s.bay.ports.getD p {}

def State.setPort (s : State) (p : Nat) (f : DrivePort → DrivePort) : State :=
  { s with bay := { s.bay with ports := setAt s.bay.ports p (f (s.portOf p)) } }

/-- This module's port to a bay can carry commands (R180, R182). -/
def State.portUsable (s : State) (b : Nat) : Bool :=
  (s.portOf b).train = .l0 && !(s.portOf b).contained && !s.tk.fenced

def State.findKey (s : State) (k : Nat) : Option KeySlot := s.kvt.slots.find? (fun r => r.slot = k)

def State.updKey (s : State) (k : Nat) (f : KeySlot → KeySlot) : State :=
  { s with kvt := { s.kvt with slots := updWhere (fun r => r.slot = k) f s.kvt.slots } }

/-- Whether this module is ringmaster of a ring. -/
def State.owns (s : State) (r : Nat) : Bool :=
  match s.findRing r with
  | some x => x.owner
  | none => false

end Sys2Proof.Machine
end

