-- ==== Sys2Proof/Machine/Layout.lean ====
section
/-! DEFINITION. The ring layout and the parity arithmetic: the placement table (R144 to R147), the mapping of ring
blocks (R148 to R150), the spare rule (R151 to R153), availability of chunks (R183, R184), and GF(2^8) (R155 to
R158). -/

namespace Sys2Proof.Machine

/-! ## Placement table (R145, R146) -/

/-- `next` of R146: the xorshift step on the 32-bit state. -/
def placeNext (st : BitVec 32) : BitVec 32 :=
  let a := st ^^^ (st <<< 13)
  let b := a ^^^ (a >>> 17)
  b ^^^ (b <<< 5)

/-- The exchange of two list places. -/
def swapAt (l : List Nat) (i j : Nat) : List Nat := setAt (setAt l i (l.getD j 0)) j (l.getD i 0)

/-- The exchange loop of `make_row`, from `q` down to 1. -/
def placeLoop : Nat → BitVec 32 → List Nat → List Nat
  | 0, _, l => l
  | q + 1, st, l =>
    let st' := placeNext st
    placeLoop q st' (swapAt l (q + 1) (st'.toNat % (q + 2)))

/-- `make_row` of R146: row `r` of the table of a ring of `n` members. -/
def makeRow (seed : BitVec 32) (r n : Nat) : List Nat :=
  let s0 := seed ^^^ (BitVec.ofNat 32 r * 0x9E3779B9#32)
  let s1 := if s0 = 0 then 0x6D2B79F5#32 else s0
  let s5 := placeNext (placeNext (placeNext (placeNext s1)))
  placeLoop (n - 1) s5 (natsFrom 0 n)

/-- Width w of a stripe. -/
def Ring.w (r : Ring) : Nat := r.k + r.m

/-- Stripe positions D of a slab. -/
def Ring.d (r : Ring) : Nat := r.n - r.s

/-- Slabs L (R144). -/
def Ring.slabs (r : Ring) : Nat := r.chunks / r.w

/-- Stripes of the ring. -/
def Ring.stripes (r : Ring) : Nat := r.slabs * r.d

/-- Regions (R150). -/
def Ring.regions (r : Ring) : Nat := ceilDiv (r.slabs * r.d * r.k) 1024

/-- Row of the placement table that a slab uses (R145). -/
def Ring.row (r : Ring) (slab : Nat) : List Nat := makeRow r.seed (slab % 4096) r.n

/-- The slot record of a member slot. -/
def Ring.slotAt (r : Ring) (j : Nat) : MemberSlot :=
  r.slots.getD j ⟨.unused, none, 0, false, none, 0, [], [], false, [], []⟩

def Ring.setSlot (r : Ring) (j : Nat) (f : MemberSlot → MemberSlot) : Ring :=
  { r with slots := setAt r.slots j (f (r.slotAt j)) }

/-- Displaced (R151). -/
def Ring.displaced (r : Ring) (j : Nat) : Bool := (r.slotAt j).dorder ≠ 0

/-- The highest order of displacement given (R151). -/
def Ring.topOrder (r : Ring) : Nat := r.slots.foldl (fun a m => Nat.max a m.dorder) 0

/-- List A of R152: the displaced members at stripe positions, in displacement order. -/
def Ring.listA (r : Ring) (row : List Nat) : List Nat :=
  let ds := (row.take r.d).filter (fun j => r.displaced j)
  (natsFrom 1 r.topOrder).filterMap (fun o => ds.find? (fun j => (r.slotAt j).dorder = o))

/-- List B of R152: the members at spare positions that are not displaced, in ascending position. -/
def Ring.listB (r : Ring) (row : List Nat) : List Nat := (row.drop r.d).filter (fun j => !r.displaced j)

/-- The spare target of a displaced member in a slab, when R152 gives it one. -/
def Ring.spareOf (r : Ring) (row : List Nat) (j : Nat) : Option Nat :=
  let i := (r.listA row).findIdx (fun x => x = j)
  (r.listB row)[i]?

/-- `member_at` of R152: the member that holds position `q` of a slab, or none when the chunk has no target. -/
def Ring.memberAt (r : Ring) (slab q : Nat) : Option Nat :=
  let row := r.row slab
  let j := row.getD q 0
  if r.displaced j then r.spareOf row j else some j

/-- Slab and position in it of a stripe (R149). -/
def Ring.slabOf (r : Ring) (stripe : Nat) : Nat := stripe / r.d
def Ring.stripePos (r : Ring) (stripe : Nat) : Nat := stripe % r.d

/-- The member slot whose own position holds chunk `c` of a stripe (R145). -/
def Ring.homeOf (r : Ring) (stripe c : Nat) : Nat :=
  (r.row (r.slabOf stripe)).getD ((r.stripePos stripe + c) % r.d) 0

/-- The spare target of chunk `c` of a stripe while its home is displaced. -/
def Ring.targetOf (r : Ring) (stripe c : Nat) : Option Nat :=
  r.spareOf (r.row (r.slabOf stripe)) (r.homeOf stripe c)

/-- Chunk slot of chunk `c` of a stripe on its member (R145). -/
def Ring.chunkSlot (r : Ring) (stripe c : Nat) : Nat := r.slabOf stripe * r.w + c

/-- First block of chunk `c` of a stripe in the ring data namespace of its member (R149). -/
def Ring.chunkLba (r : Ring) (stripe c : Nat) : Nat := (r.slabOf stripe * r.w + c) * 16

/-- Stripe, data position and block row of a ring block (R149). -/
def Ring.ofRba (r : Ring) (rba : Nat) : Nat × Nat × Nat := (rba / 16 / r.k, rba / 16 % r.k, rba % 16)

/-- The ring block of a data position and row of a stripe. -/
def Ring.toRba (r : Ring) (stripe c row : Nat) : Nat := (stripe * r.k + c) * 16 + row

/-- First and last region of a stripe (R169). -/
def Ring.region0 (r : Ring) (stripe : Nat) : Nat := stripe * r.k / 1024
def Ring.region1 (r : Ring) (stripe : Nat) : Nat := (stripe * r.k + r.k - 1) / 1024

/-- Whether the dirty-region bit of a region of the stripe is set. -/
def Ring.dirtyStripe (r : Ring) (stripe : Nat) : Bool :=
  hasNat r.bitmap (r.region0 stripe) || hasNat r.bitmap (r.region1 stripe)

/-- A member slot can be read for a stripe's chunk by this module (R184). -/
def Ring.slotReadable (r : Ring) (j stripe : Nat) : Bool :=
  let m := r.slotAt j
  match m.st with
  | .online => !m.localBad
  | .stale => !m.localBad && !r.dirtyStripe stripe
  | _ => false

/-- Where chunk `c` of a stripe can be read now: on its home, its copied-back place or its spare target; none when
the chunk is unavailable (R184). -/
def Ring.chunkAt (r : Ring) (stripe c : Nat) : Option Nat :=
  let h := r.homeOf stripe c
  let m := r.slotAt h
  let spare := match r.targetOf stripe c with
    | some t => if hasNat m.rebuilt stripe && r.slotReadable t stripe then some t else none
    | none => none
  match m.st with
  | .online | .stale => if r.slotReadable h stripe then some h else none
  | .replacing => if hasNat m.filled (r.chunkSlot stripe c) && !m.localBad then some h else spare
  | .failed => spare
  | _ => none

/-- Unavailable chunks of a stripe: its level (R190). -/
def Ring.levelOf (r : Ring) (stripe : Nat) : Nat :=
  ((natsFrom 0 r.w).filter (fun c => (r.chunkAt stripe c).isNone)).length

/-- Whether a member slot takes member writes (R183). -/
def Ring.slotWritable (r : Ring) (j : Nat) : Bool :=
  match (r.slotAt j).st with
  | .online | .stale => true
  | _ => false

/-- The member slots that a stripe write writes chunk `c` to (R183, R187, R192). -/
def Ring.writeSlots (r : Ring) (stripe c : Nat) : List Nat :=
  let h := r.homeOf stripe c
  let m := r.slotAt h
  let spare := match r.targetOf stripe c with
    | some t => if hasNat m.rebuilt stripe && r.slotWritable t then [t] else []
    | none => []
  match m.st with
  | .online | .stale => [h]
  | .replacing => if hasNat m.filled (r.chunkSlot stripe c) then h :: spare else spare
  | .failed => spare
  | _ => []

/-! ## Parity (R155 to R158) -/

/-- The high bit of every byte of a block, and the low bit. -/
def highBits : Block := BitVec.ofNat 32768 ((2 ^ 32768 - 1) / 255 * 128)

/-- Multiplication of every byte of a block by 0x02 (R155). -/
def gfDouble (b : Block) : Block :=
  let h := (b &&& highBits) >>> 7
  ((b &&& ~~~ highBits) <<< 1) ^^^ h ^^^ (h <<< 2) ^^^ (h <<< 3) ^^^ (h <<< 4)

/-- Multiplication of every byte of a block by a constant, its bits taken from the lowest. -/
def gfScaleBits : Nat → Nat → Block → Block
  | 0, _, _ => 0
  | n + 1, c, b => (if c % 2 = 1 then b else 0) ^^^ gfScaleBits n (c / 2) (gfDouble b)

/-- Multiplication of every byte of a block by the constant `c`. -/
def gfScale (c : Nat) (b : Block) : Block := gfScaleBits 8 c b

/-- Multiplication of a byte by 0x02 (R155). -/
def gfDouble8 (x : Nat) : Nat := if x < 128 then 2 * x else (2 * x) ^^^ 0x11D

def gfMulBits : Nat → Nat → Nat → Nat
  | 0, _, _ => 0
  | n + 1, a, b => (if a % 2 = 1 then b else 0) ^^^ gfMulBits n (a / 2) (gfDouble8 b)

/-- The product of two bytes (R155). -/
def gfMul (a b : Nat) : Nat := gfMulBits 8 a b

/-- g to the power `n`, g = 0x02. -/
def gfExp : Nat → Nat
  | 0 => 1
  | n + 1 => gfDouble8 (gfExp n)

def gfPow (a : Nat) : Nat → Nat
  | 0 => 1
  | n + 1 => gfMul a (gfPow a n)

/-- The inverse of a byte other than 0. -/
def gfInv (a : Nat) : Nat := gfPow a 254

/-- The coefficient of data position `c` in parity `j`: 0 for P, 1 for Q, 2 for Z (R156). -/
def parCoef (j c : Nat) : Nat := gfExp (j * c)

/-- The sum of coefficient times block over listed positions. -/
def parSum (j : Nat) (l : List (Nat × Block)) : Block :=
  l.foldl (fun a e => a ^^^ gfScale (parCoef j e.1) e.2) 0

/-- Parity `j` of the data blocks of a row, in position order (R156). -/
def parityOf (j : Nat) (data : List Block) : Block := parSum j ((natsFrom 0 data.length).zip data)

/-- Elimination for `n` unknowns: each row is its coefficients and its right side. -/
def gfSolve : Nat → List (List Nat × Block) → Option (List Block)
  | 0, _ => some []
  | n + 1, rows =>
    match rows.find? (fun r => r.1.headD 0 ≠ 0) with
    | none => none
    | some (cs, b) =>
      let iv := gfInv (cs.headD 0)
      let ps := (cs.drop 1).map (gfMul iv)
      let pb := gfScale iv b
      let rest := rows.map (fun r =>
        let h := r.1.headD 0
        (((r.1.drop 1).zip ps).map (fun e => e.1 ^^^ gfMul h e.2), r.2 ^^^ gfScale h pb))
      match gfSolve n rest with
      | none => none
      | some xs => some ((pb ^^^ (ps.zip xs).foldl (fun a e => a ^^^ gfScale e.1 e.2) 0) :: xs)

/-- The data blocks of a row, solved from known blocks by position (R158, R186); none when they do not suffice. -/
def rowSolve (k : Nat) (known : List (Nat × Block)) : Option (List Block) :=
  let have_ := known.filter (fun e => e.1 < k)
  let miss := (natsFrom 0 k).filter (fun c => !have_.any (fun e => e.1 = c))
  let pars := (known.filter (fun e => k ≤ e.1)).take miss.length
  if pars.length < miss.length then none
  else
    let rows := pars.map (fun e => (miss.map (parCoef (e.1 - k)), e.2 ^^^ parSum (e.1 - k) have_))
    match gfSolve miss.length rows with
    | none => none
    | some xs =>
      let all := have_ ++ miss.zip xs
      some ((natsFrom 0 k).map (fun c => ((all.find? (fun e => e.1 = c)).map (fun e => e.2)).getD 0))

/-- Block at chunk position `c` of a row whose data blocks are known: data or parity. -/
def rowBlock (k : Nat) (data : List Block) (c : Nat) : Block :=
  if c < k then data.getD c 0 else parityOf (c - k) data

end Sys2Proof.Machine
end

