-- ==== Sys2Proof/Machine/Buffer.lean ====
section
/-! DEFINITION. The data side of the host commands: namespaces and their blocks, keys, the dirty ceiling, the write
buffer, member commands, gathers of blocks from the members, and the lost-extent table. -/

namespace Sys2Proof.Machine

/-! ## Namespaces -/

/-- Blocks of 4,096 bytes of a namespace (R291). -/
def Ns.blocks (n : Ns) : Nat := n.regions * 16384

/-- Logical blocks of a namespace (R291). -/
def Ns.lbas (n : Ns) : Nat := if n.lbaf = 1 then n.blocks * 8 else n.blocks

/-- The 4,096-byte block of an LBA (R148). -/
def Ns.blkOf (n : Ns) (lba : Nat) : Nat := if n.lbaf = 1 then lba / 8 else lba

/-- First block, and number of blocks, that `nlb` logical blocks from `lba` touch (R84). -/
def Ns.touch (n : Ns) (lba nlb : Nat) : Nat × Nat :=
  if nlb = 0 then (n.blkOf lba, 0) else (n.blkOf lba, n.blkOf (lba + nlb - 1) - n.blkOf lba + 1)

/-- Bytes of a logical block. -/
def Ns.lbaBytes (n : Ns) : Nat := if n.lbaf = 1 then 512 else 4096

/-- First sector, in sectors of the namespace, and number of sectors of a range. -/
def Ns.sectors (n : Ns) (lba nlb : Nat) : Nat × Nat :=
  if n.lbaf = 1 then (lba, nlb) else (lba * 8, nlb * 8)

/-- Ring block of a namespace block (R148, R291). -/
def Ns.rba (n : Ns) (b : Nat) : Nat := (n.first + b / 16384) * 16384 + b % 16384

/-- The namespace that holds a ring block, and its block there. -/
def State.nsOfRba (s : State) (ring rba : Nat) : Option (Ns × Nat) :=
  match s.vsm.nss.find? (fun n => n.ring = ring && n.first ≤ rba / 16384 && rba / 16384 < n.first + n.regions) with
  | some n => some (n, rba - n.first * 16384)
  | none => none

/-! ## Keys (R369 to R371) -/

/-- The first namespace created that names a key slot: the only one it serves (R370). -/
def State.servedNs (s : State) (slot : Nat) : Option Ns := s.vsm.nss.find? (fun n => n.keySlot = slot)

/-- Whether I/O to a namespace has its key (R370). -/
def State.keyLoaded (s : State) (n : Ns) : Bool :=
  n.keySlot = 0xFFFF ||
    (s.kvt.st = .operational &&
      (match s.findKey n.keySlot with | some k => k.typ = 1 | none => false) &&
      (match s.servedNs n.keySlot with | some m => m.vsid = n.vsid && m.nsid = n.nsid | none => false))

/-- The key material of a block of a namespace (R373): below CURSOR the new key, else the old one while a rekey
runs; none in the clear. -/
def State.keyAt (s : State) (n : Ns) (b : Nat) : Option Nat :=
  if n.keySlot = 0xFFFF then none
  else
    match s.findKey n.keySlot with
    | none => none
    | some k =>
      match k.oldMaterial with
      | none => some k.material
      | some o => some (if b / 16384 < k.cursor then k.material else o)

/-- Plaintext to what the members store (R24, R369). -/
def State.seal (s : State) (n : Ns) (b : Nat) (d : Block) : Block :=
  match s.keyAt n b with
  | none => d
  | some k => Config.xtsEncrypt k b d

/-- What the members store to plaintext; a block never written holds zeroes (R164). -/
def State.unseal (s : State) (n : Ns) (b : Nat) (written : Bool) (d : Block) : Block :=
  if !written then 0
  else
    match s.keyAt n b with
    | none => d
    | some k => Config.xtsDecrypt k b d

/-! ## Write-through state and dirty ceiling (R28, R91 to R95) -/

/-- Bays of the drives that are members of any ring, present and not failed (R94). -/
def State.memberBays (s : State) : List Nat :=
  let bs := s.rge.rings.flatMap (fun r => r.slots.filterMap (fun m =>
    match m.st with
    | .online | .stale | .replacing => m.bay
    | _ => none))
  bs.foldl addNat []

/-- cmax of R94 in GiB, rounded down. -/
def ceilMax (holdup rate n : Nat) : Nat :=
  let g := Nat.min 13 n
  if g = 0 then 0 else (holdup - 5) * n * rate * 1000 * (g - 1) / (2 * g) / 2 ^ 30

/-- cflash of R94 in GiB, rounded down. -/
def ceilFlash (n : Nat) : Nat :=
  let g := Nat.min 13 n
  if g = 0 then 0 else 4 * n * (g - 1) / (2 * g)

/-- FORCE_WT or a test mode (03 WTSTATE). -/
def State.wtTest (s : State) : Bool :=
  s.cfgBit Reg.hceWbctl 12 || (match s.tst.live with | some t => 1 ≤ t.test && t.test ≤ 7 | none => false)

/-- The causes of HCE.WTSTATE, bit 0 upward. -/
def State.wtCauses (s : State) : List Bool :=
  [s.hce.wtStartup, s.wtTest, s.hce.wtPeerAbs, s.hce.wtMirLink, s.hce.wtTakeover, s.hce.wtMismatch,
    s.hce.wtNoHold, s.hce.wtJoinCopy]

/-- Write-through in force (03 WTSTATE.WT). -/
def State.wtOn (s : State) : Bool := s.wtCauses.any (fun b => b)

/-- A tag that has not reached its commit point. -/
def TagRec.open_ (r : TagRec) : Bool := r.st = .admitted || r.st = .executing

/-- When write-through is in force, every command before its commit point commits by R78 (R79). -/
def State.applyWt (s : State) : State :=
  if s.wtOn then
    { s with hce := { s.hce with
        tags := updWhere TagRec.open_ (fun r => { r with wt := true }) s.hce.tags
        wb := updWhere (fun e => !e.committed) (fun e => { e with wt := true }) s.hce.wb } }
  else s

/-- EFF_CEIL and NOHOLD recomputed (R95). -/
def State.recomputeCeil (s : State) : State :=
  let n := s.memberBays.length
  let c := Nat.min (s.cfg Reg.hceWbctl 4 0)
    (Nat.min (ceilMax (s.cfg Reg.hceFlcfg 7 0) (s.cfg Reg.hceFlcfg 31 16) n) (ceilFlash n))
  ({ s with hce := { s.hce with effCeil := c, wtNoHold := c = 0 } }).applyWt

/-- Blocks of 4,096 bytes that count against the ceiling (R57, R91): own entries and deallocation records. -/
def State.ownBlocks (s : State) : Nat :=
  (s.hce.wb.filter (fun e => !e.mirror && !e.dead)).length + (s.hce.deallocs.filter (fun e => !e.mirror)).length

/-- Dirty blocks of R91. -/
def State.dirtyBlocks (s : State) : Nat :=
  (s.hce.wb.filter (fun e => !e.mirror && !e.dead && e.committed)).length +
    (s.hce.deallocs.filter (fun e => !e.mirror && e.committed)).length

/-- Blocks per GiB. -/
def gibBlocks : Nat := 262144

/-- Mirror region in blocks (R23, R75), and its use. -/
def mirrorBlocks : Nat := 32 * gibBlocks
def State.mirrorUse (s : State) : Nat := (s.hce.wb.filter (fun e => e.mirror && !e.dead)).length

/-- Mirror space that second copies for modules of other shelves take. -/
def State.secondUse (s : State) : Nat := (s.hce.wb.filter (fun e => e.mirror && !e.dead && 2 ≤ e.owner)).length

/-- Free mirror space this module reports to its peer (R75). -/
def State.mirrorRoom (s : State) : Nat := mirrorBlocks - s.mirrorUse

/-- Free mirror space this module reports as a second holder: the peer's copies keep the first place, up to the peer's
effective ceiling of at most 28 GiB (R75). -/
def State.secondRoom (s : State) : Nat :=
  mirrorBlocks - Nat.max (s.mirrorUse - s.secondUse) (Nat.min s.rfx.peer.ceiling (28 * gibBlocks)) - s.secondUse

/-! ## Versions in the write buffer (R74 to R77, R89) -/

def WbEntry.at (e : WbEntry) (v n b : Nat) : Bool := e.vsid = v && e.nsid = n && e.blk = b

/-- Whether a whole-block range list covers a block. -/
def covers (rs : List (Nat × Nat)) (b : Nat) : Bool := rs.any (fun r => r.1 ≤ b && b < r.1 + r.2)

/-- Versions of a block in the buffer: version, content, sector mask; committed ones up to `maxVer`. -/
def State.versions (s : State) (v n b maxVer : Nat) : List (Nat × Block × BitVec 8) :=
  (s.hce.wb.filter (fun e => e.at v n b && e.committed && e.ver ≤ maxVer)).map (fun e => (e.ver, e.data, e.smask)) ++
  (s.hce.deallocs.filter (fun e => e.vsid = v && e.nsid = n && e.committed && e.ver ≤ maxVer && covers e.ranges b)).map
    (fun e => (e.ver, 0, 0xFF))

/-- The newest of a list of versions. -/
def newestOf (l : List (Nat × Block × BitVec 8)) : Option (Nat × Block × BitVec 8) :=
  l.foldl (fun a e => match a with
    | none => some e
    | some x => if x.1 ≤ e.1 then some e else some x) none

/-- Versions that are not freed: an entry kept for R264 serves no other read (R76, R89). -/
def State.liveVersions (s : State) (v n b : Nat) : List (Nat × Block × BitVec 8) :=
  State.versions { s with hce := { s.hce with wb := s.hce.wb.filter (fun e => !e.dead) } } v n b (2 ^ 48)

/-- The newest committed version of a block, own or mirror (R89). -/
def State.newest (s : State) (v n b : Nat) : Option (Nat × Block × BitVec 8) := newestOf (s.liveVersions v n b)

/-- Highest block version in the write buffer (VMARK, R259). -/
def State.highVersion (s : State) : Nat := s.hce.wb.foldl (fun a e => Nat.max a e.ver) 0

/-- A tag whose read is released and not yet acknowledged by the transport (R264). -/
def TagRec.reading (r : TagRec) : Bool :=
  r.cap.opcode = 2 && (r.st = .committed || r.st = .responding) && r.readMseq.isSome

/-- Whether a released read may be served again from an entry (R264). -/
def State.pinned (s : State) (e : WbEntry) : Bool :=
  s.hce.tags.any (fun r => r.reading && r.vsid = e.vsid && r.cap.nsid = e.nsid && e.ver ≤ r.vmark &&
    (match s.findNs e.vsid e.nsid with
     | some n => (n.touch r.cap.slba r.cap.nlb).1 ≤ e.blk &&
        e.blk < (n.touch r.cap.slba r.cap.nlb).1 + (n.touch r.cap.slba r.cap.nlb).2
     | none => false))

/-- Entries freed: removed, or kept as dead while R264 needs them. -/
def State.freeEntries (s : State) (p : WbEntry → Bool) : State :=
  { s with hce := { s.hce with
      wb := (s.hce.wb.filter (fun e => !p e || s.pinned e)).map (fun e => if p e then { e with dead := true } else e) } }

/-- Dead entries that no released read needs any more leave the buffer. -/
def State.sweepDead (s : State) : State :=
  { s with hce := { s.hce with wb := s.hce.wb.filter (fun e => !e.dead || s.pinned e) } }

/-- A free notice for one block to the mirror holders (R76, R257 KIND 0x02). -/
def State.freeNotice (s : State) (v n b ver ring : Nat) : State :=
  let f : StreamBody := .mirror (.free [⟨v, n, b, 1, ver, ring⟩])
  (s.mirSend f).mirSend2 f

/-- The tag of a deallocation record that another module admitted; tags have 18 bits (R52). -/
def noTag : Nat := 262144

/-- A newer version of `cnt` blocks supersedes the older dirty ones of the own region that no issued stripe write carries: they
are freed, and their mirror copies with them by the ringmaster's notice (R76, R77). -/
def State.supersede (s : State) (v n b cnt ver : Nat) : State :=
  let old := fun (e : WbEntry) => e.vsid = v && e.nsid = n && b ≤ e.blk && e.blk < b + cnt && e.ver < ver && e.committed &&
    !e.issued && !e.dead && !e.mirror
  (s.hce.wb.filter old).foldl (fun u e => u.freeNotice e.vsid e.nsid e.blk e.ver e.ring) (s.freeEntries old)

/-- Forwarded versions that this module holds as ringmaster reach their commit point: they become dirty (R77, R82). -/
def State.commitForwarded (s : State) (vers : List Nat) : State :=
  let hit := fun (e : WbEntry) => e.owner = 1 && !e.mirror && !e.wt && !e.dead && hasNat vers e.ver
  (s.hce.wb.filter hit).foldl (fun t e => t.supersede e.vsid e.nsid e.blk 1 e.ver)
    { s with hce := { s.hce with wb := updWhere hit (fun e => { e with committed := true }) s.hce.wb } }

/-- A version that this module admitted reaches its write's commit point: it becomes dirty, and supersedes older ones (R76,
R77). -/
def State.commitVersion (s : State) (ver : Nat) : State :=
  let mine := s.hce.wb.filter (fun e => e.ver = ver && e.owner = 0 && !e.dead)
  let s1 := { s with hce := { s.hce with
    wb := updWhere (fun e => e.ver = ver && e.owner = 0) (fun e => { e with committed := true }) s.hce.wb
    deallocs := updWhere (fun e => e.ver = ver && e.tag ≠ noTag) (fun e => { e with committed := true }) s.hce.deallocs } }
  let recs := s.hce.deallocs.filter (fun e => e.ver = ver && e.tag ≠ noTag)
  let s2 := mine.foldl (fun t m => t.supersede m.vsid m.nsid m.blk 1 ver) s1
  recs.foldl (fun t d => d.ranges.foldl (fun u x => u.supersede d.vsid d.nsid x.1 x.2 ver) t) s2

/-- The dirty versions of `cnt` blocks in the own region go to the mirror holders again: a free notice takes every copy at or
below its version (R257), and what a squashed version leaves as it was keeps its copies (R77). -/
def State.reMirror (s : State) (v n b cnt : Nat) : State :=
  let hit := fun (e : WbEntry) => e.vsid = v && e.nsid = n && b ≤ e.blk && e.blk < b + cnt && !e.mirror && e.committed && !e.dead
  (s.hce.wb.filter hit).foldl (fun t e =>
    let f : StreamBody := .mirror (.blocks [⟨e.vsid, e.nsid, e.blk, e.ver, e.ring, e.wt, e.smask, e.data, []⟩])
    (t.mirSend f).mirSend2 f) s

/-- The notice that a squashed version of `cnt` blocks goes (R77): of a forwarded write (`mirror`) it tells the ringmaster. -/
def State.dropNotice (s : State) (mirror : Bool) (v n b cnt ver ring : Nat) : State :=
  let f : StreamBody := .mirror (.free [⟨v, n, b, cnt, ver, ring⟩])
  if mirror then s.mirSend f else ((s.mirSend f).mirSend2 f).reMirror v n b cnt

/-- A squashed write's versions leave the buffer with their mirror copies (R67, R77). -/
def State.dropVersion (s : State) (ver : Nat) : State :=
  let mine := s.hce.wb.filter (fun e => e.ver = ver && e.owner = 0 && !e.committed)
  let s1 := { s with hce := { s.hce with
    wb := s.hce.wb.filter (fun e => e.ver ≠ ver || e.owner ≠ 0 || e.committed)
    deallocs := s.hce.deallocs.filter (fun e => e.ver ≠ ver || e.tag = noTag || e.committed) } }
  let recs := s.hce.deallocs.filter (fun e => e.ver = ver && e.tag < noTag && !e.committed)
  let s2 := mine.foldl (fun t e => t.dropNotice e.mirror e.vsid e.nsid e.blk 1 e.ver e.ring) s1
  recs.foldl (fun t d => d.ranges.foldl (fun u x => u.dropNotice d.mirror d.vsid d.nsid x.1 x.2 d.ver d.ring) t) s2

/-! ## Lost-extent table (R200 to R206) -/

/-- The entry in a line of the table (R202): the line names no subsystem, which follows from ring and block. -/
def State.lostOfLine (s : State) (idx : Nat) (l : List Byte) : Option LostExtent :=
  let ring := byteAt l 1
  let rba := leAt l 28 8
  if lineOk l && byteAt l 0 = 1 then
    (s.nsOfRba ring rba).map (fun n =>
      ⟨idx, ring, byteAt l 2, n.1.vsid, leAt l 4 4, leAt l 8 8, leAt l 16 4, rba, leAt l 36 4, leAt l 40 8⟩)
  else none

/-- The peer's entries for rings that this module does not master: its reads of such a ring meet them too (R22, R204). -/
def State.peerLost (s : State) : List LostExtent :=
  s.snt.peerLines.filterMap (fun e =>
    if e.1 = 4 then (s.lostOfLine e.2.1 e.2.2).bind (fun x => if s.owns x.ring then none else some x) else none)

/-- Whether a namespace block is in the table. -/
def State.isLost (s : State) (v n b : Nat) : Bool :=
  match s.findNs v n with
  | none => false
  | some ns =>
    let hit := fun (e : LostExtent) => e.vsid = v && e.nsid = n && e.rba ≤ ns.rba b && ns.rba b < e.rba + e.nrb
    s.rge.lost.any hit || s.peerLost.any hit

/-- A block counts as touched by a read unless a committed version whose sectors all come from host data serves it
(R204). -/
def State.lostTouched (s : State) (v n b : Nat) : Bool :=
  s.isLost v n b && (match s.newest v n b with | some e => e.2.2 ≠ 0xFF | none => true)

/-- The 64 bytes of an entry (R202). -/
def LostExtent.line (e : LostExtent) : List Byte :=
  sealLine ([1, BitVec.ofNat 8 e.ring, BitVec.ofNat 8 e.cause, 0] ++ leBytes 4 e.nsid ++ leBytes 8 e.lba ++
    leBytes 4 e.nlb ++ leBytes 4 0 ++ leBytes 8 e.rba ++ leBytes 4 e.nrb ++ leBytes 8 e.seq)

/-- A free index of the table. -/
def State.lostIdx (s : State) : Nat :=
  ((natsFrom 0 (s.rge.lost.length + 1)).find? (fun i => !s.rge.lost.any (fun e => e.idx = i))).getD 0

/-- Distance in LBA between two entries of one namespace. -/
def lostGap (a b : LostExtent) : Nat :=
  if a.lba ≤ b.lba then b.lba - (a.lba + a.nlb) else a.lba - (b.lba + b.nlb)

/-- Two entries of one namespace as one that spans both, CAUSE 0x04 (R203). -/
def lostSpan (a b : LostExtent) : LostExtent :=
  let lo := Nat.min a.lba b.lba
  let rlo := Nat.min a.rba b.rba
  { a with
    cause := 4
    lba := lo
    nlb := Nat.max (a.lba + a.nlb) (b.lba + b.nlb) - lo
    rba := rlo
    nrb := Nat.max (a.rba + a.nrb) (b.rba + b.nrb) - rlo }

/-- The list element with the least value of `f`. -/
def leastBy {α : Type} (f : α → Nat) : List α → Option α
  | [] => none
  | x :: l => match leastBy f l with
    | none => some x
    | some y => if f x ≤ f y then some x else some y

/-- The closest pair of entries of one namespace (R203). -/
def closestPair (l : List LostExtent) : Option (LostExtent × LostExtent) :=
  let ps := l.flatMap (fun a => (l.filter (fun b => a.idx < b.idx && a.vsid = b.vsid && a.nsid = b.nsid)).map
    (fun b => (a, b)))
  leastBy (fun p => lostGap p.1 p.2) ps

def State.putLost (s : State) (e : LostExtent) : State :=
  let l := if s.rge.lost.any (fun x => x.idx = e.idx)
    then updWhere (fun x => x.idx = e.idx) (fun _ => e) s.rge.lost else s.rge.lost ++ [e]
  ({ s with rge := { s.rge with lost := l } }).sendLine 4 e.idx e.line

/-- An entry leaves the table. -/
def State.dropLost (s : State) (idx : Nat) : State :=
  ({ s with rge := { s.rge with lost := s.rge.lost.filter (fun x => x.idx ≠ idx) } }).sendLine 4 idx (sealLine [])

/-- The two closest entries of one namespace become one, and OVF sets (R203). -/
def State.mergeLost (s : State) : State :=
  match closestPair s.rge.lost with
  | none => s
  | some (a, b) => ((s.dropLost b.idx).putLost (lostSpan a b)).raiseFlag Reg.rgeLostcnt 31

/-- An entry comes into the table (R203): a new one while there is room; when the table is full it extends the nearest entry of
its namespace, or takes the place that a merge makes. -/
def State.addLost (s : State) (e : LostExtent) : State :=
  let same := s.rge.lost.filter (fun x => x.ring = e.ring && x.vsid = e.vsid && x.nsid = e.nsid)
  if s.rge.lost.length < 16384 then s.putLost { e with idx := s.lostIdx }
  else
    match leastBy (fun x => lostGap x e) same with
    | some x => (s.putLost (lostSpan x e)).raiseFlag Reg.rgeLostcnt 31
    | none =>
      let s1 := s.mergeLost
      s1.putLost { e with idx := s1.lostIdx }

/-- A lost block is recorded (R200 to R203): it extends a contiguous entry, or comes in as a new one. -/
def State.recordLost (s : State) (ring rba cause : Nat) : State :=
  match s.nsOfRba ring rba with
  | none => s
  | some (n, b) =>
    if s.isLost n.vsid n.nsid b then s
    else
      let per := if n.lbaf = 1 then 8 else 1
      let e : LostExtent := ⟨0, ring, cause, n.vsid, n.nsid, b * per, per, rba, 1, s.rge.jseq⟩
      let same := s.rge.lost.filter (fun x => x.ring = ring && x.vsid = n.vsid && x.nsid = n.nsid)
      match same.find? (fun x => (x.rba + x.nrb = rba && x.lba + x.nlb = e.lba) ||
          (rba + 1 = x.rba && e.lba + per = x.lba)) with
      | some x => s.putLost { (lostSpan x e) with cause := x.cause }
      | none => s.addLost e

/-- A block leaves the table (R205): an entry shrinks at an end, goes, or is split while an entry is free. -/
def State.clearLost (s : State) (v n b : Nat) : State :=
  match s.findNs v n with
  | none => s
  | some ns =>
    let rba := ns.rba b
    let per := if ns.lbaf = 1 then 8 else 1
    match s.rge.lost.find? (fun e => e.vsid = v && e.nsid = n && e.rba ≤ rba && rba < e.rba + e.nrb) with
    | none => s
    | some e =>
      if e.nrb = 1 then s.dropLost e.idx
      else if rba = e.rba then
        s.putLost { e with rba := e.rba + 1, nrb := e.nrb - 1, lba := e.lba + per, nlb := e.nlb - per }
      else if rba + 1 = e.rba + e.nrb then s.putLost { e with nrb := e.nrb - 1, nlb := e.nlb - per }
      else if s.rge.lost.length < 16384 then
        let k := rba - e.rba
        let s1 := s.putLost { e with nrb := k, nlb := k * per }
        s1.putLost { e with
          idx := s1.lostIdx
          rba := rba + 1
          nrb := e.nrb - k - 1
          lba := e.lba + (k + 1) * per
          nlb := e.nlb - (k + 1) * per }
      else s

/-! ## Blocks and their metadata (R164) -/

/-- The 16 bytes of metadata that a ring block carries: BCRC, STRIPE, POS, RING, SEQ (R164). -/
def blockMeta (ring stripe pos seq : Nat) (d : Block) : BitVec 128 :=
  BitVec.ofNat 128 ((crc32c (blockBytes d)).toNat + stripe % 2 ^ 48 * 2 ^ 32 + pos % 256 * 2 ^ 80 + ring % 256 * 2 ^ 88 +
    seq % 2 ^ 32 * 2 ^ 96)

/-- A block whose metadata is not all zero has been written since initialisation (R164). -/
def MemberBlock.written (b : MemberBlock) : Bool := b.md ≠ 0

/-- A block is readable when the drive delivers it and its BCRC holds; one never written has none (R164, R199). -/
def MemberBlock.readable (b : MemberBlock) : Bool :=
  b.ok && (!b.written || bitsOf b.md.toNat 31 0 = (crc32c (blockBytes b.data)).toNat)

/-- SEQ of the intent record that wrote a block. -/
def MemberBlock.seq (b : MemberBlock) : Nat := bitsOf b.md.toNat 127 96

/-- A block that the drive does not deliver. -/
def badBlock : MemberBlock := ⟨false, 0, 0⟩

/-- The metadata that a command writes with its blocks. -/
def MPurpose.metas (p : MPurpose) (data : List Block) : List (BitVec 128) :=
  match p with
  | .stripe r st pos seq => data.map (blockMeta r st pos seq)
  | .repair r st _ pos seq => data.map (blockMeta r st pos seq)
  | _ => []

/-! ## Commands to drives (R466) -/

/-- The privilege of a stripe write's events (R553): the drain of host data is Host. -/
def State.stripePriv (s : State) (ring stripe : Nat) : Nat :=
  if s.rge.writes.any (fun w => w.ring = ring && w.stripe = stripe && w.internal) then 1 else 0

/-- The privilege of a member command (R553): what a host command or its data causes, the flush too, is Host. -/
def State.cmdPriv (s : State) (p : MPurpose) : Nat :=
  match p with
  | .gather g _ _ _ =>
    match (s.rge.gathers.find? (fun x => x.id = g)).map (fun (x : Gather) => x.owner) with
    | some (GatherFor.stripe r st) => s.stripePriv r st
    | some GatherFor.mend => 1
    | _ => 0
  | .stripe r st _ _ => s.stripePriv r st
  | .flush _ _ => 0
  | _ => 1

/-- A command goes to a drive, with the metadata of the blocks that it writes; its time limit is DPX.IOCFG.TMO, and a read may
be hedged after HEDGE. -/
def State.issueWith (s : State) (bay ring slot : Nat) (op : MOp) (lba : Nat) (rows : List Nat)
    (data : List Block) (metas : List (BitVec 128)) (fua : Bool) (purpose : MPurpose) : State :=
  let c : MemberCmd := ⟨s.bay.nextCmd, bay, ring, slot, op, lba, rows, data, metas, fua, purpose, 1, s.now,
    some (s.now + ms (10 * s.cfg Reg.dpxIocfg 31 16)), none, false⟩
  let s1 := ({ s with bay := { s.bay with cmds := s.bay.cmds ++ [c], nextCmd := s.bay.nextCmd + 1 } }).emit (.member c)
  let priv := s.cmdPriv purpose
  match op with
  | .read => (s1.count 0x20 (some bay) none priv 0 1).count 0x22 (some bay) none priv 0 (64 * rows.length)
  | .write => (s1.count 0x21 (some bay) none priv 0 1).count 0x23 (some bay) none priv 0 (64 * rows.length)
  | _ => s1

/-- A command to a drive. -/
def State.issueMember (s : State) (bay ring slot : Nat) (op : MOp) (lba : Nat) (rows : List Nat)
    (data : List Block) (fua : Bool) (purpose : MPurpose) : State :=
  s.issueWith bay ring slot op lba rows data (purpose.metas data) fua purpose

/-- A command to the drive of a member slot, when the slot has one. -/
def State.toSlot (s : State) (r : Ring) (slot : Nat) (op : MOp) (lba : Nat) (rows : List Nat)
    (data : List Block) (fua : Bool) (purpose : MPurpose) : State :=
  match (r.slotAt slot).bay with
  | some b => s.issueMember b r.num slot op lba rows data fua purpose
  | none => s

/-! ## Gathers (R25, R186) -/

/-- A stripe that the ring's records leave in doubt: suspect, or with the newest checkpoint still sought (R174, R175). -/
def Ring.doubtful (r : Ring) (stripe : Nat) : Bool := r.hunt.isSome || r.suspects.any (fun i => i.stripe = stripe)

/-- A stripe of a ring with RESYNC_ALL set that step 7 of R174 has not verified yet (R175). -/
def Ring.unverified (r : Ring) (stripe : Nat) : Bool :=
  r.resyncAll && (match r.verify with | some v => decide (v ≤ stripe) | none => false)

/-- Chunk positions of a stripe in the order in which a reconstruction reads them: data, then P, Q, Z (R186). -/
def Ring.readable (r : Ring) (stripe : Nat) : List Nat :=
  (natsFrom 0 r.w).filter (fun c => (r.chunkAt stripe c).isSome)

/-- Positions of a row that can still be read. -/
def Ring.canRead (r : Ring) (n : RowNeed) : List Nat := (r.readable n.stripe).filter (fun c => !hasNat n.failed c)

/-- No wanted block of a row needs a reconstruction. -/
def Ring.direct (r : Ring) (n : RowNeed) : Bool := n.wanted.all (fun c => hasNat (r.canRead n) c)

/-- Positions still to ask for a row: the wanted ones that can be read, or, when a wanted one cannot, what brings
the row to k blocks; of a stripe that is not verified, every block that can be read, for the check of R175. -/
def Ring.toAsk (r : Ring) (n : RowNeed) : List Nat :=
  let can := r.canRead n
  let goal := if r.direct n then n.wanted else if r.unverified n.stripe then can else can.take r.k
  goal.filter (fun c => !hasNat n.asked c)

/-- A row cannot be recovered: fewer than k blocks can be read and a wanted one is not among them. -/
def Ring.rowLost (r : Ring) (n : RowNeed) : Bool := !r.direct n && (r.canRead n).length < r.k

/-- An unavailable chunk of a stripe that may come back by itself: it is on an ABSENT member, its own or one it was relocated
onto (R184, R188), or out of reach only through a port of this module, which does not master the ring (R182; log 81). -/
def Ring.mayReturn (r : Ring) (stripe c : Nat) : Bool :=
  let m := r.slotAt (r.homeOf stripe c)
  let gone := fun (x : MemberSlot) => x.st = .absent || (!r.owner && x.localBad)
  match m.st with
  | .failed | .replacing => hasNat m.rebuilt stripe && (match r.targetOf stripe c with | some t => gone (r.slotAt t) | none => false)
  | _ => gone m

/-- Reads and stripe writes of a stripe wait while more than m chunks are unavailable and one of them is on an
ABSENT member (R188). -/
def Ring.mustWait (r : Ring) (stripe : Nat) : Bool :=
  r.m < r.levelOf stripe && (natsFrom 0 r.w).any (fun c => (r.chunkAt stripe c).isNone && r.mayReturn stripe c)

/-- Every wanted block of a row has arrived. -/
def RowNeed.whole (n : RowNeed) : Bool := n.wanted.all (fun c => n.got.any (fun e => e.1 = c))

/-- The data blocks of a row, once k of its blocks have arrived. -/
def RowNeed.solved (n : RowNeed) (k : Nat) : Option (List Block) :=
  if k ≤ n.got.length then rowSolve k (n.got.map (fun e => (e.1, e.2.data))) else none

/-- Every block of a row that can be read has arrived. -/
def Ring.allIn (r : Ring) (n : RowNeed) : Bool := (r.canRead n).all (fun c => n.got.any (fun e => e.1 = c))

/-- The reconstruction of a row of a stripe that is not verified does not agree with the redundancy that remains (R175). -/
def Ring.mismatch (r : Ring) (n : RowNeed) : Bool :=
  r.unverified n.stripe && !n.whole && r.allIn n &&
    (match n.solved r.k with
     | some data => n.got.any (fun e => rowBlock r.k data e.1 ≠ e.2.data)
     | none => false)

/-- The blocks of a row at the wanted positions, when they are known or can be solved; where the stripe is not verified, once
every block that can be read agrees (R175). A reconstructed block of zeroes counts as one never written: its metadata is not
known (log 71). -/
def Ring.rowResult (r : Ring) (n : RowNeed) : Option (List (Nat × MemberBlock)) :=
  if n.whole then some (n.wanted.filterMap (fun c => n.got.find? (fun e => e.1 = c)))
  else if r.unverified n.stripe && (!r.allIn n || r.mismatch n) then none
  else
    match n.solved r.k with
    | none => none
    | some data => some (n.wanted.map (fun c =>
        match n.got.find? (fun e => e.1 = c) with
        | some e => e
        | none => (c, ⟨true, if rowBlock r.k data c = 0 then 0 else blockMeta n.ring n.stripe c 0 (rowBlock r.k data c),
            rowBlock r.k data c⟩)))

/-- A row waits: for members that may return (R188), or, where it needs a reconstruction, until its stripe is no longer suspect
(R175). -/
def Ring.rowWaits (r : Ring) (n : RowNeed) : Bool := r.mustWait n.stripe || (r.doubtful n.stripe && !r.direct n)

/-- The reads that a row of a gather still has to issue (R186); a row that must wait issues none (R175, R188). -/
def State.askRow (s : State) (gid : Nat) (n : RowNeed) : State × RowNeed :=
  match s.findRing n.ring with
  | none => (s, n)
  | some r =>
    if r.rowWaits n then (s, n)
    else
      let ask := r.toAsk n
      let s1 := ask.foldl (fun t c =>
        match r.chunkAt n.stripe c with
        | some j => t.toSlot r j .read (r.chunkLba n.stripe c) [n.row] [] false (.gather gid n.ring n.stripe c)
        | none => t) s
      (s1, { n with asked := n.asked ++ ask })

/-- Every row of a gather asked. -/
def State.askRows (s : State) (gid : Nat) : List RowNeed → State × List RowNeed
  | [] => (s, [])
  | n :: l =>
    let (s1, n1) := s.askRow gid n
    let (s2, l2) := s1.askRows gid l
    (s2, n1 :: l2)

/-- The rows of ring blocks, one row need for each stripe and block row. -/
def rowNeeds (r : Ring) (rbas : List Nat) : List RowNeed :=
  rbas.foldl (fun l rba =>
    let (st, c, row) := r.ofRba rba
    if l.any (fun n => n.stripe = st && n.row = row) then
      updWhere (fun n => n.stripe = st && n.row = row) (fun n => { n with wanted := addNat n.wanted c }) l
    else l ++ [⟨r.num, st, row, [c], [], [], [], [], []⟩]) []

/-- A gather starts: its reads go to the members. -/
def State.startGather (s : State) (owner : GatherFor) (rows : List RowNeed) : State :=
  let gid := s.rge.nextGather
  let s0 := { s with rge := { s.rge with gathers := s.rge.gathers ++ [(⟨gid, owner, rows⟩ : Gather)], nextGather := gid + 1 } }
  let (s1, rows1) := s0.askRows gid rows
  { s1 with rge := { s1.rge with gathers := updWhere (fun (g : Gather) => g.id = gid) (fun (g : Gather) => { g with rows := rows1 }) s1.rge.gathers } }

/-! ## Power domains (R505 to R508, R522) -/

def State.updPwr (s : State) (f : PwrSt → PwrSt) : State := { s with pwr := f s.pwr }

/-- Whether a power domain exists on a part. -/
def domPresent (p : Part) (d : Nat) : Bool :=
  let hp := Config.hostPorts p
  let fp := Config.fabPorts p
  d < 112 && !(8 ≤ d && d < 24 && hp ≤ (d - 8) / 4) && !(24 ≤ d && d < 28 && hp ≤ d - 24) &&
    !(28 ≤ d && d < 36 && fp ≤ (d - 28) / 2) && !(36 ≤ d && d < 40 && fp ≤ d - 36) &&
    !((d = 49 || d = 50) && !Config.hasRfu p) && !(((59 ≤ d && d < 75) || d = 75) && !Config.hasCipher p) &&
    !(96 ≤ d && d < 108 && Config.bays p ≤ 2 * (d - 96))

/-- Every domain of a part. -/
def allDomains (p : Part) : List Nat := (natsFrom 0 112).filter (domPresent p)

/-- The longest wake time in ns: from RET, or from OFF by kind of domain (R522). -/
def wakeNs (ret : Bool) (d : Nat) : Nat :=
  if ret then us 2
  else if 59 ≤ d && d < 75 then us 5
  else if (8 ≤ d && d < 24) || (28 ≤ d && d < 36) then us 250
  else if 76 ≤ d && d < 84 then ms 2
  else us 20

/-- A wake event for a domain that is not ON (R508, R522). -/
def State.wakeDom (s : State) (d : Nat) : State :=
  if !domPresent s.part d || hasNat s.pwr.domOn d || s.pwr.waking.any (fun (w : Nat × Nat) => w.1 = d) then s
  else s.updPwr (fun p => { p with waking := p.waking ++ [(d, s.now + wakeNs (hasNat p.domRet d) d)] })

def State.wakeAll (s : State) (ds : List Nat) : State := ds.foldl State.wakeDom s

/-- SerDes lanes and MAC of a host port, and of a fabric port. -/
def hostDoms (p : Nat) : List Nat := natsFrom (8 + 4 * p) 4 ++ [24 + p]
def fabDoms (p : Nat) : List Nat := natsFrom (28 + 2 * p) 2 ++ [36 + p]

/-! ## HBM stacks (R509, R510) -/

/-- HBM stacks in which the write buffer and the mirror lie: each fills 10, 8, 7 and 7 GiB in turn (R509, R510). -/
def State.stacksUsed (s : State) : Nat :=
  let need := fun (n : Nat) =>
    if n = 0 then 0 else if n ≤ 10 * gibBlocks then 1 else if n ≤ 18 * gibBlocks then 2 else if n ≤ 25 * gibBlocks then 3 else 4
  Nat.max (need (s.hce.wb.filter (fun e => !e.mirror)).length) (need (s.hce.wb.filter (fun e => e.mirror)).length)

/-- An allocation that needs a shed stack wakes it (R510). -/
def State.wakeStacks (s : State) : State :=
  s.wakeAll (((natsFrom 0 4).filter (fun k => hasNat s.pwr.shed k && k < s.stacksUsed)).flatMap (fun k => [76 + 2 * k, 77 + 2 * k]))

/-- The stack of a block's place in the read cache, stacks 1 to 3 (R509; a free choice, log 4), is awake. -/
def State.cacheAwake (s : State) (v n b : Nat) : Bool := !hasNat s.pwr.shed (1 + Config.cacheStack v n b % 3)

/-- The cached ciphertext of a block (R118); an entry in a shed stack counts as a miss (R510). -/
def State.cached (s : State) (v n b : Nat) : Option (Bool × Block) :=
  if !s.cacheAwake v n b then none
  else (s.hce.cache.find? (fun e => e.1 = v && e.2.1 = n && e.2.2.1 = b)).map (fun e => e.2.2.2)

/-- Blocks that the 64 GiB of the read cache hold (R23). -/
def cacheBlocks : Nat := 64 * gibBlocks

/-- A block enters the read cache (R118); lost blocks never do (R204), nor does one whose stack is shed (R510), nor one of which
the write buffer holds a version: what was read is then older (R25). In a full
cache the block that entered first makes room: which one goes the spec leaves open (log 69). -/
def State.cacheInsert (s : State) (v n b : Nat) (written : Bool) (ct : Block) : State :=
  if s.isLost v n b || !s.cacheAwake v n b || (s.cached v n b).isSome || !(s.liveVersions v n b).isEmpty then s
  else
    let kept := if s.hce.cache.length < cacheBlocks then s.hce.cache else s.hce.cache.drop 1
    { s with hce := { s.hce with cache := kept ++ [(v, n, b, written, ct)] } }

/-- A block leaves the read cache. -/
def State.cacheDrop (s : State) (p : Nat × Nat × Nat × Bool × Block → Bool) : State :=
  { s with hce := { s.hce with cache := s.hce.cache.filter (fun e => !p e) } }

end Sys2Proof.Machine
end

