-- ==== Sys2Proof/Machine/Pipeline.lean ====
section
/-! DEFINITION. What the host commands share once they are admitted: range locks (R83 to R88), read groups (R109 to
R130), placing writes (R74, R84), commit points (R53, R78), responses (R54, R55, R260) and squashing (R67). -/

namespace Sys2Proof.Machine

/-! ## Records and completions -/

/-- A CMDSTATE record of a tag (R259). -/
def TagRec.cmdRec (r : TagRec) (k : CmdKind) (conn : Nat) (cqe : Option CplStatus) : CmdRecord :=
  { kind := k, admin := false, writeThrough := r.wt, forwarded := false, cntlid := r.cntlid, sqid := r.sqid,
    cid := r.cid, tag := r.tag, conn := conn, vmark := if k = .committed then r.vmark else 0, vsid := r.vsid,
    spos := 0, slen := 0, capsule := none, cqe := cqe, adminOpcode := 0 }

/-- The connection of a queue, 0 when it is gone. -/
def State.connOf (s : State) (c q : Nat) : Nat := ((s.findSq c q).map (fun x => x.conn)).getD 0

/-- The transport of a queue's connection. -/
def State.transportOf (s : State) (c q : Nat) : Transport := ((s.findConn (s.connOf c q)).map (fun k => k.transport)).getD .tcp

def State.sendRec (s : State) (r : TagRec) (k : CmdKind) (cqe : Option CplStatus) : State :=
  s.mirSend (.cmd (r.cmdRec k (s.connOf r.cntlid r.sqid) cqe))

/-- An entry of the Error Information log for a status other than Success, of which the newest 256 are kept (R46,
R63). -/
def State.logError (s : State) (c q cid : Nat) (st : CplStatus) (lba : Nat) : State :=
  if st = cplSuccess then s
  else s.updCtrl c (fun x => { x with errLog := (⟨(x.errLog.head?.map (fun e => e.count)).getD 0 + 1, q, cid, st, lba⟩ :: x.errLog).take 256 })

/-- Headers and trailers of a frame on a host connection: Ethernet, IPv4 or IPv6, UDP with BTH and ICRC or TCP, and
FCS, as the worked example of R356 counts them (header lengths of the protocols themselves: log 7). -/
def HConn.overhead (k : HConn) : Nat :=
  let v4 := (k.addr >>> 32) = 0xFFFF
  14 + (if v4 then 20 else 40) + (match k.transport with | .rdma => 8 + 12 + 4 | .tcp => 20) + 4

/-- The copies that carry `n` payload bytes of a host connection, one for each frame of its unit (R351). -/
def State.hostCopies (s : State) (id n : Nat) (tag : Option Nat) : List Copy :=
  match s.findConn id with
  | none => []
  | some k =>
    let host := match k.bound with
      | some (c, _) =>
        (match s.findCtrl c with
         | some x => ((s.hce.hostIdx.find? (fun e => e.2 = x.hostNqn)).map (fun e => e.1)).getD 1024
         | none => 1024)
      | none => 1024
    (frameLens k.overhead k.unit (n + 1) n).map (fun len =>
      { port := k.port, host := host, vsid := k.vsid, cls := k.tc, len := len, ect := true, tag := tag, conn := some id })

/-- The copies that carry the read data of a tag from byte `base` to its end, with what R124 needs of their place. -/
def State.dataCopies (s : State) (r : TagRec) (base n : Nat) : List Copy :=
  let id := s.connOf r.cntlid r.sqid
  let u := ((s.findConn id).map (fun k => k.unit)).getD 0
  let cs := s.hostCopies id n (some r.tag)
  ((natsFrom 0 cs.length).zip cs).map (fun (e : Nat × Copy) =>
    { e.2 with cid := r.cid, off := base + e.1 * u, base := base, stop := base + n })

/-- Read data of a tag from byte `base` on leaves for its host alone, a frame for each copy. -/
def State.dataFrames (s : State) (r : TagRec) (inp base n : Nat) : State :=
  (s.dataCopies r base n).foldl (fun t c => t.xbar inp 0 false [c] c.len) s

/-- `n` bytes of payload leave on a host connection from crossbar input `inp`, a frame for each copy. -/
def State.hostFrames (s : State) (id inp n : Nat) (tag : Option Nat) : State :=
  (s.hostCopies id n tag).foldl (fun t c => t.xbar inp 0 false [c] c.len) s

/-- The frames of several requesters side by side: frame `i` owes each its `i`-th copy (R121). -/
def sideBySide : Nat → List (List Copy) → List (List Copy)
  | 0, _ => []
  | f + 1, l =>
    let hs := l.filterMap (fun c => c.head?)
    if hs.isEmpty then [] else hs :: sideBySide f (l.map (fun c => c.drop 1))

/-- A copy of a tag that is still to be sent. -/
def Copy.isOf (c : Copy) (tag : Nat) : Bool := c.tag = some tag && !c.dropped

/-- Copies of a tag that have not started transmission, in frames at the inputs and in egress queues. -/
def State.copiesOf (s : State) (tag : Nat) : List Copy :=
  s.xbr.ports.flatMap (fun e => (e.queue.filter (fun x => x.2.isOf tag)).map (fun x => x.2)) ++
    s.xbr.frames.flatMap (fun f => (f.owed ++ f.moving).filter (fun c => c.isOf tag))

/-- A tag's copies leave before they start (R127, R129, R345); one whose transfer runs leaves at its output. A mirror copy
has no tag and is never withdrawn (R346). -/
def State.dropCopies (s : State) (tag : Nat) : State :=
  let leave := fun (f : XFrame) => { f with
    owed := f.owed.filter (fun c => c.tag ≠ some tag),
    moving := updWhere (fun (c : Copy) => c.tag = some tag) (fun c => { c with dropped := true }) f.moving }
  let fs := (s.xbr.frames.map leave).filter (fun f => !(f.owed.isEmpty && f.moving.isEmpty))
  let ps := s.xbr.ports.map (fun e => { e with queue := e.queue.filter (fun x => x.2.tag ≠ some tag) })
  { s with xbr := { s.xbr with frames := fs, ports := ps } }

/-- The XPORT record of a connection (R262), as far as takeover uses it. Traffic keys leave only wrapped under the pair
key (R263). -/
def State.xportOf (s : State) (k : HConn) : XportRecord :=
  let (c, q) := k.bound.getD (0xFFFF, 0)
  let ctl := s.findCtrl c
  let ctx := s.kvt.tls.find? (fun t => t.conn = k.id)
  { conn := k.id, transport := k.transport, tls := k.tls, addr := k.addr, hdgst := k.hdgst, ddgst := k.ddgst, tc := k.tc,
    discovery := (ctl.map (fun x => x.discovery)).getD false, cc := (ctl.map (fun x => x.cc)).getD 0,
    features := (ctl.map (fun x => [x.featArb, x.featTemp, x.featAer, x.featHostId])).getD [],
    sqhd := if q = 0 then (ctl.map (fun x => x.adminSqhd)).getD 0 else ((s.findSq c q).map (fun x => x.sqhd)).getD 0,
    psk := (ctx.map (fun t => t.psk)).getD 0, cntlid := c, sqid := q,
    qsize := if q = 0 then (ctl.map (fun x => x.adminSize)).getD 0 else ((s.findSq c q).map (fun x => x.size)).getD 0,
    vsid := k.vsid, hostNqn := (ctl.map (fun x => x.hostNqn)).getD [], port := k.port,
    kato := (ctl.map (fun x => x.kato)).getD 0, ccEn := (ctl.map (fun x => x.ccEn)).getD false,
    csts := (ctl.map (fun x => (if x.rdy then 1 else 0) + 4 * x.shst)).getD 0,
    granted := (ctl.map (fun x => x.granted)).getD 0, rcvNext := k.rcvNext, sndUna := k.sndUna, sndNext := k.sndNext,
    mtu := k.unit, readSeq := (ctx.map (fun t => t.rxCount)).getD 0, writeSeq := (ctx.map (fun t => t.txCount)).getD 0,
    wrappedKeys := (ctx.map (fun t => Config.wrapKeys Config.pairKey t.txKey t.rxKey)).getD [], path := k.path, dscp := k.dscp, cwnd := k.cwnd,
    ece := k.ece, pduBuf := k.pduBuf, pduLeft := k.pduLeft }

/-- A connection's XPORT record goes to the peer (R262). -/
def State.sendXport (s : State) (id : Nat) : State :=
  match s.findConn id with
  | some k => s.mirSend (.xport (s.xportOf k))
  | none => s

/-- Class bit of an opcode for the PMU's host events (R552). -/
def opClass (op : Nat) : Option Nat := some (if op = 2 || op = 5 then 0 else if op = 1 || op = 8 then 1 else 2)

/-- Counts of a posted I/O completion of a command received at `t` (R552, R560). -/
def State.countCpl (s : State) (vsid op : Nat) (st : CplStatus) (t : Nat) : State :=
  let s1 := s.hostEvent 0x02 vsid (opClass op) 1
  let s2 := if st = cplSuccess then s1 else s1.hostEvent 0x03 vsid (opClass op) 1
  s2.vsCount vsid (fun r =>
    let r1 := if st = cplSuccess then r else { r with err := r.err + 1 }
    if op = 2 || op = 5 then { r1 with rdCmd := r1.rdCmd + 1, rdLat := r1.rdLat + (s.now - t) }
    else if op = 1 || op = 8 then { r1 with wrCmd := r1.wrCmd + 1, wrLat := r1.wrLat + (s.now - t) }
    else { r1 with oth := r1.oth + 1 })

/-- Read data is delivered to its host, by RDMA WRITE or in C2HData PDUs (R32, R33): the counts of commands and bytes are its subsystem's (R132, R552, R560). -/
def State.giveRead (s : State) (r : TagRec) (secs : List Sector) : State :=
  let n := 512 * secs.length
  ((s.emit (.readData (s.transportOf r.cntlid r.sqid) r.cntlid r.sqid r.cid secs)).hostEvent 0x05 r.vsid none (ceilDiv n 64)).vsCount r.vsid
    (fun x => { x with rdBytes := x.rdBytes + n })

/-- Read data goes to its host alone, in frames from crossbar input `inp`. -/
def State.sendRead (s : State) (r : TagRec) (inp : Nat) (secs : List Sector) : State :=
  (s.giveRead r secs).dataFrames r inp 0 (512 * secs.length)

/-- A completion is posted: its SQHD is that of its queue (R41, R58). -/
def State.postCqe (s : State) (c q cid : Nat) (st : CplStatus) (dw0 lba : Nat) : State :=
  let hd := if q = 0 then ((s.findCtrl c).map (fun x => x.adminSqhd)).getD 0
    else ((s.findSq c q).map (fun x => x.sqhd)).getD 0
  let conn := if q = 0 then ((s.findCtrl c).map (fun x => x.conn)).getD 0 else s.connOf c q
  ((s.logError c q cid st lba).emit (.cqe c q cid st dw0 hd)).hostFrames conn 8 16 none

/-- The completion of an admin command. -/
def State.adminCqe (s : State) (c cid : Nat) (st : CplStatus) (dw0 : Nat) : State := s.postCqe c 0 cid st dw0 0

/-- An admin command completes: its RESPONDING record goes out before its capsule (R260; log 32). -/
def State.adminDone (s : State) (c cid : Nat) (st : CplStatus) (dw0 : Nat) : State :=
  match s.findCtrl c with
  | none => s
  | some x =>
    let r : CmdRecord :=
      { kind := .responding, admin := true, writeThrough := false, forwarded := false, cntlid := c, sqid := 0, cid := cid,
        tag := 0, conn := x.conn, vmark := 0, vsid := x.vsid, spos := 0, slen := 0, capsule := none, cqe := some st,
        adminOpcode := 0, dw0 := dw0 }
    (s.mirSend (.cmd r)).adminCqe c cid st dw0

/-! ## Range locks (R83 to R88) -/

/-- The whole blocks of a range for a deallocation, and its partly covered sectors (R84): first whole block, count;
and the sector ranges left over. -/
def Ns.splitDealloc (n : Ns) (lba nlb : Nat) : (Nat × Nat) × List (Nat × Nat) :=
  let (s0, cnt) := n.sectors lba nlb
  let b0 := ceilDiv s0 8
  let b1 := (s0 + cnt) / 8
  if b1 ≤ b0 then ((b0, 0), if cnt = 0 then [] else [(s0, cnt)])
  else
    ((b0, b1 - b0), (if s0 = b0 * 8 then [] else [(s0, b0 * 8 - s0)]) ++
      (if s0 + cnt = b1 * 8 then [] else [(b1 * 8, s0 + cnt - b1 * 8)]))

/-- The ranges that a command names, in LBAs. -/
def Capsule.lbaRanges (c : Capsule) : List (Nat × Nat) :=
  if c.opcode = 9 then c.ranges else [(c.slba, c.nlb)]

/-- The block ranges for which a command takes range locks (R83). -/
def Capsule.lockRanges (c : Capsule) (n : Ns) : List (Nat × Nat) :=
  if c.opcode = 0 || (c.opcode = 9 && !c.deallocate) then []
  else c.lbaRanges.map (fun r => n.touch r.1 r.2)

/-- Exclusive commands (R85). -/
def Capsule.exclusive (c : Capsule) : Bool := c.opcode = 1 || c.opcode = 8 || c.opcode = 9

def RangeLock.overlaps (a b : RangeLock) : Bool :=
  a.vsid = b.vsid && a.nsid = b.nsid && a.first ≤ b.last && b.first ≤ a.last

/-- Whether an earlier request blocks a later one (R86). -/
def RangeLock.blocks (earlier later : RangeLock) : Bool :=
  earlier.tag ≠ later.tag && earlier.overlaps later && (earlier.excl || later.excl)

/-- No entry of tag `t` is blocked by an earlier request of another command; `before` are the earlier entries. -/
def lockFreeFrom (t : Nat) : List RangeLock → List RangeLock → Bool
  | _, [] => true
  | before, e :: l =>
    (e.tag ≠ t || !before.any (fun f => f.blocks e)) && lockFreeFrom t (before ++ [e]) l

/-- A command's lock requests can all be granted (R86). -/
def State.lockFree (s : State) (t : Nat) : Bool := lockFreeFrom t [] s.hce.rlt

/-- Every lock of the tag is granted (true for one that takes none). -/
def State.locked (s : State) (t : Nat) : Bool := s.hce.rlt.all (fun e => e.tag ≠ t || e.granted)

/-- The tag holds a granted lock that it still needs. -/
def State.holdsLock (s : State) (t : Nat) : Bool := s.hce.rlt.any (fun e => e.tag = t)

/-- The tag's locks are released (R67, R85). -/
def State.releaseLocks (s : State) (t : Nat) : State :=
  { s with hce := { s.hce with rlt := s.hce.rlt.filter (fun e => e.tag ≠ t) } }

/-! ## Responses (R54, R55, R66, R260) -/

/-- The sectors that a Read returns from its blocks. -/
def readSectors (n : Ns) (lba nlb : Nat) (blocks : List (Option Block)) : List Sector :=
  let (s0, cnt) := n.sectors lba nlb
  let b0 := s0 / 8
  (natsFrom s0 cnt).map (fun x => blockSector ((blocks.getD (x / 8 - b0) none).getD 0) (x % 8))

/-- The first LBA of a command that failed, 0 where there is none (R63): the first of a lost block, the first that differs in
a Compare, the first beyond the namespace. -/
def State.failLba (s : State) (r : TagRec) (st : CplStatus) : Nat :=
  match s.findNs r.vsid r.cap.nsid with
  | none => 0
  | some n =>
    if st = cplUnrecRead then
      ((natsFrom r.cap.slba r.cap.nlb).find? (fun l => s.lostTouched r.vsid r.cap.nsid (n.blkOf l))).getD r.cap.slba
    else if st = cplCompare then
      let got := readSectors n r.cap.slba r.cap.nlb r.blocks
      let at_ := ((natsFrom 0 got.length).find? (fun i => got.getD i 0 ≠ r.hostData.getD i 0)).getD 0
      r.cap.slba + (if n.lbaf = 1 then at_ else at_ / 8)
    else if st = cplLbaRange then
      ((r.cap.lbaRanges.find? (fun x => n.lbas < x.1 + x.2)).map (fun x => Nat.max n.lbas x.1)).getD 0
    else 0

/-- Work that an engine still holds for a tag; the response of a group's requester follows its data (R125). -/
def State.engineBusy (s : State) (r : TagRec) : Bool :=
  r.fetching || s.rge.gathers.any (fun g => g.owner = .tag r.tag) || (r.group.isSome && !(s.copiesOf r.tag).isEmpty)

/-- A tag's result is decided and its RESPONDING record goes to the peer (R260). -/
def State.respond (s : State) (t : Nat) (st : CplStatus) : State :=
  match s.findTag t with
  | none => s
  | some r =>
    if !r.post then s.updTag t (fun x => { x with result := some st })
    else
      let s1 := s.sendRec r .responding (some st)
      s1.updTag t (fun x => { x with result := some st, respMseq := some s1.lastMseq })

/-- A requester leaves its group (R129). -/
def State.leaveGroup (s : State) (t : Nat) : State :=
  { s with rfu := { s.rfu with
      groups := s.rfu.groups.map (fun g => { g with reqs := g.reqs.filter (fun q => q.tag ≠ t) }) } }

/-- A tag returns to FREE (R52): its record leaves, its groups and dead versions with it. -/
def State.freeTag (s : State) (t : Nat) : State :=
  match s.findTag t with
  | none => s
  | some r =>
    let s1 := s.sendRec r (if r.st = .squashing then .squashed else .freed) none
    let s2 := { s1 with hce := { s1.hce with tags := s1.hce.tags.filter (fun x => x.tag ≠ t) } }
    (s2.leaveGroup t).sweepDead

/-- A requester has all its data (R128). -/
def State.groupDone (s : State) (t : Nat) : State :=
  { s with rfu := { s.rfu with
      groups := s.rfu.groups.map (fun g =>
        { g with reqs := updWhere (fun q => q.tag = t) (fun q => { q with done := true }) g.reqs }) } }

/-- Aborts that waited for a tag's completion complete after it, with "aborted" in bit 0 (R66). -/
def State.finishAborts (s : State) (c t : Nat) : State :=
  match s.findCtrl c with
  | none => s
  | some x =>
    let mine := x.aborts.filter (fun a => a.2 = t)
    let s1 := s.updCtrl c (fun y => { y with aborts := y.aborts.filter (fun a => a.2 ≠ t) })
    mine.foldl (fun u a => (u.adminDone c a.1 cplSuccess 0).bumpHalf Reg.hceAbtcnt 0) s1

/-- The response that was just sent on an RDMA connection was a SEND with Invalidate, where the host asked for that (R32). -/
def State.sendInvalidate (s : State) (r : TagRec) : State :=
  match r.cap.invalidate with
  | some k => if s.transportOf r.cntlid r.sqid = .rdma then s.emit (.invalidate (s.connOf r.cntlid r.sqid) k) else s
  | none => s

/-- The response capsule is handed to the host port: the tag enters RESPONDING and the CID is unmapped (R52, R54). -/
def State.handOff (s : State) (r : TagRec) (st : CplStatus) : State :=
  let s1 := s.updTag r.tag (fun x => { x with st := .responding, cidMapped := false })
  let s2 := (s1.postCqe r.cntlid r.sqid r.cid st 0 (s.failLba r st)).sendInvalidate r
  ((s2.countCpl r.vsid r.cap.opcode st r.rcvAt).groupDone r.tag).finishAborts r.cntlid r.tag

/-- Squashing (R67): locks, buffer reservation, versions and group place of a tag before its commit point are
released; its completion, if one is to be posted, carries `st`. A tag past R623 is not squashed. -/
def State.squash (s : State) (t : Nat) (st : CplStatus) (post : Bool) : State :=
  match s.findTag t with
  | none => s
  | some r =>
    if !r.open_ || r.intents then s
    else
      let s1 := (s.releaseLocks t).dropVersion r.seq
      let s2 := s1.leaveGroup t
      s2.updTag t (fun x => { x with st := .squashing, result := some st, post := post })

/-- A command fails before its commit point (R52). -/
def State.failTag (s : State) (t : Nat) (st : CplStatus) : State := s.squash t st true

/-! ## Reads: sources in the R25 order (R89) -/

/-- Blocks that the read cache and the media give for a host, and their decryption (R367, R552). -/
def State.countSources (s : State) (n : Ns) (hits miss : Nat) : State :=
  ((s.hostEvent 0x08 n.vsid none hits).hostEvent 0x09 n.vsid none miss).laneWork
    (if n.keySlot = 0xFFFF then 0 else 256 * (hits + miss)) 0

/-- The blocks of a Read or Compare, as far as buffer and cache hold them, newest version first. -/
def State.nearBlock (s : State) (n : Ns) (b : Nat) : Option Block :=
  match s.newest n.vsid n.nsid b with
  | some e => some e.2.1
  | none => (s.cached n.vsid n.nsid b).map (fun e => s.unseal n b e.1 e.2)

/-- A tag's read is gathered alone: buffer and cache serve what they hold, the media the rest (R25, R89). -/
def State.gatherRead (s : State) (r : TagRec) (n : Ns) : State :=
  let (b0, cnt) := n.touch r.cap.slba r.cap.nlb
  let bs := natsFrom b0 cnt
  let got := bs.map (fun b => s.nearBlock n b)
  let miss := bs.filter (fun b => (s.nearBlock n b).isNone)
  let hits := bs.filter (fun b => (s.newest n.vsid n.nsid b).isNone && (s.cached n.vsid n.nsid b).isSome)
  let s0 := s.countSources n hits.length miss.length
  let s1 := s0.updTag r.tag (fun x => { x with st := .executing, blocks := got })
  match s.findRing n.ring with
  | none => s1
  | some g => if miss.isEmpty then s1.releaseLocks r.tag else s1.startGather (.tag r.tag) (rowNeeds g (miss.map n.rba))

/-- All data of a Read or Compare is in the block buffer. -/
def TagRec.gathered (r : TagRec) : Bool := !r.blocks.isEmpty && r.blocks.all (fun b => b.isSome)

/-! ## Read groups (R109 to R130) -/

/-- No version of any block of the range is in the buffer (R26, R109). -/
def State.bufferFree (s : State) (n : Ns) (b0 cnt : Nat) : Bool :=
  !s.hce.wb.any (fun e => e.vsid = n.vsid && e.nsid = n.nsid && !e.dead && b0 ≤ e.blk && e.blk < b0 + cnt) &&
  !s.hce.deallocs.any (fun e => e.vsid = n.vsid && e.nsid = n.nsid &&
    e.ranges.any (fun x => x.1 < b0 + cnt && b0 < x.1 + x.2))

/-- A Read is offered to the fan-out unit (R8, R109), but for one of a dead module (R131). -/
def State.offered (s : State) (r : TagRec) (n : Ns) : Bool :=
  Config.hasRfu s.part && !r.alone && r.cap.opcode = 2 && s.cfgBit Reg.rfuCfg 0 && s.locked r.tag && s.keyLoaded n &&
    (let (b0, cnt) := n.touch r.cap.slba r.cap.nlb
     s.bufferFree n b0 cnt)

def Group.key (g : Group) (r : TagRec) : Bool :=
  g.vsid = r.vsid && g.nsid = r.cap.nsid && g.slba = r.cap.slba && g.nlb = r.cap.nlb

/-- A group's data is in the block buffer. -/
def Group.complete (g : Group) : Bool := g.blocks.all (fun b => b.isSome)

/-- The class of a requester's connection, none when it takes unicast (R122, R123). -/
def State.classOf (s : State) (c q : Nat) : Option RfuClass :=
  match s.findConn (s.connOf c q) with
  | some k => if k.tls then none else some ⟨k.transport, k.unit, k.hdgst, k.ddgst⟩
  | none => none

/-- A requester commits with its group's release (R125); one that takes unicast has its own frames, and its response
becomes due. -/
def State.releaseTo (s : State) (n : Ns) (g : Group) (q : Requester) : State :=
  match s.findTag q.tag with
  | none => s
  | some r =>
    let plain := ((natsFrom (n.touch g.slba g.nlb).1 g.blocks.length).zip g.blocks).map (fun e =>
      e.2.map (fun x => s.unseal n e.1 x.1 x.2))
    let secs := readSectors n g.slba g.nlb plain
    let s1 := s.updTag q.tag (fun x => { x with st := .committed })
    let s2 := if !r.post then s1 else if q.unicast then s1.sendRead r 9 secs else s1.giveRead r secs
    s2.respond q.tag cplSuccess

/-- The multicast frames of one class: one frame for each payload unit, which owes a copy to each requester (R121,
R122). -/
def State.classFrames (s : State) (n : Ns) (g : Group) (reqs : List Requester) (c : RfuClass) : State :=
  let bytes := 512 * (n.sectors g.slba g.nlb).2
  let rs := (reqs.filter (fun q => q.cls = some c && !q.unicast)).filterMap (fun q => s.findTag q.tag)
  let cs := (rs.filter (fun r => r.post)).map (fun r => s.dataCopies r 0 bytes)
  (sideBySide (bytes + 1) cs).foldl (fun t l => t.xbar 9 0 false l ((l.map (fun x => x.len)).headD 0)) s

/-- Classes are formed in requester order: at most eight, a further one and TLS take unicast (R122, R123). -/
def assignClasses (s : State) : List RfuClass → List Requester → List Requester
  | _, [] => []
  | seen, q :: l =>
    match s.findTag q.tag with
    | none => q :: assignClasses s seen l
    | some r =>
      match s.classOf r.cntlid r.sqid with
      | none => { q with cls := none, unicast := true } :: assignClasses s seen l
      | some c =>
        if seen.any (fun x => x = c) then { q with cls := some c } :: assignClasses s seen l
        else if seen.length < 8 then { q with cls := some c } :: assignClasses s (seen ++ [c]) l
        else { q with cls := none, unicast := true } :: assignClasses s seen l

/-- Delivery may begin (R114). -/
def Group.deliverable (g : Group) (now : Nat) : Bool :=
  !g.isOpen && g.dataReady && g.releasedAt.isNone && (!(g.byLock && g.joined) || due g.windowEnd now)

/-- The COMMITTED records of a group's requesters that have none yet go to the peer (R259, R260). -/
def State.groupRecords (s : State) (g : Group) : State :=
  g.reqs.foldl (fun u q =>
    match u.findTag q.tag with
    | some r =>
      if r.readMseq.isSome then u
      else
        let u1 := u.sendRec r .committed none
        u1.updTag q.tag (fun x => { x with readMseq := some u1.lastMseq })
    | none => u) s

/-- Every requester's COMMITTED record is held by the peer (R260). -/
def State.groupHeld (s : State) (g : Group) : Bool :=
  g.reqs.all (fun q => match s.findTag q.tag with
    | some r => (match r.readMseq with | some m => s.peerHolds m | none => false)
    | none => true)

/-- A deliverable group is released: classes are formed, and once the peer holds every record the multicast frames
go out (R121 to R125). -/
def State.deliver (s : State) (gid : Nat) : State :=
  match s.findGroup gid with
  | none => s
  | some g =>
    if !g.deliverable s.now then s
    else
      match s.findNs g.vsid g.nsid with
      | none => s
      | some n =>
        let s1 := s.groupRecords g
        if !s1.groupHeld g then s1
        else
          let reqs := assignClasses s1 [] g.reqs
          let s2 := s1.updGroup gid (fun x => { x with reqs := reqs, releasedAt := some s1.now })
          let s3 := s2.bumpBy Reg.rfuUnicast (reqs.filter (fun q => q.unicast)).length
          let add := fun (l : List RfuClass) c => if l.any (fun x => x = c) then l else l ++ [c]
          let cs := (reqs.filterMap (fun q => q.cls)).foldl add []
          let s4 := cs.foldl (fun u c => u.classFrames n g reqs c) s3
          reqs.foldl (fun u q => u.releaseTo n g q) s4

/-- A group closes to joiners; `byLock` when an exclusive grant closed it (R114, R119). -/
def State.closeGroup (s : State) (gid : Nat) (byLock : Bool) : State :=
  (s.updGroup gid (fun g => if g.isOpen then { g with isOpen := false, byLock := byLock } else g)).deliver gid

/-- Solo close: the data is ready and exactly one requester is there (R114, R116, R129). -/
def State.soloClose (s : State) (gid : Nat) : State :=
  match s.findGroup gid with
  | none => s
  | some g =>
    if g.isOpen && g.dataReady && g.reqs.length = 1 then
      (s.bump Reg.rfuSolo).closeGroup gid false
    else s

/-- A group whose range holds a lost block: every requester fails (R130). -/
def State.failGroup (s : State) (gid : Nat) : State :=
  match s.findGroup gid with
  | none => s
  | some g =>
    let s1 := g.reqs.foldl (fun t q => t.failTag q.tag cplUnrecRead) s
    { s1 with rfu := { s1.rfu with groups := s1.rfu.groups.filter (fun x => x.id ≠ gid) } }

/-- Some block of the range lies in a lost extent that a read meets (R130, R204). -/
def State.rangeLost (s : State) (n : Ns) (slba nlb : Nat) : Bool :=
  (natsFrom (n.touch slba nlb).1 (n.touch slba nlb).2).any (fun b => s.lostTouched n.vsid n.nsid b)

/-- The group's data reaches the block buffer (R114, R118, R119): locks of the requesters are released, its media blocks
enter the cache, and a solo group closes. The blocks of a solo group enter it under the cache's own fill rule, which the
spec leaves open: the model's takes them all (log 69). -/
def State.groupReady (s : State) (gid : Nat) : State :=
  match s.findGroup gid with
  | none => s
  | some g =>
    if g.dataReady || !g.complete then s
    else if ((s.findNs g.vsid g.nsid).map (fun n => s.rangeLost n g.slba g.nlb)).getD false then s.failGroup gid
    else
      let s1 := s.updGroup gid (fun x => { x with dataReady := true })
      let b0 := match s.findNs g.vsid g.nsid with | some n => (n.touch g.slba g.nlb).1 | none => 0
      let s2 := if g.media then
          ((natsFrom b0 g.blocks.length).zip g.blocks).foldl (fun u e =>
            match e.2 with
            | some x => u.cacheInsert g.vsid g.nsid e.1 x.1 x.2
            | none => u) s1
        else s1
      let s3 := g.reqs.foldl (fun u q => u.releaseLocks q.tag) s2
      (s3.soloClose gid).deliver gid

/-- The read of a new group: cache blocks from HBM, the rest through the ring engine (R118). -/
def State.groupRead (s : State) (gid : Nat) (n : Ns) (b0 cnt : Nat) : State :=
  let bs := natsFrom b0 cnt
  let got := bs.map (fun b => s.cached n.vsid n.nsid b)
  let miss := bs.filter (fun b => (s.cached n.vsid n.nsid b).isNone)
  let s0 := s.countSources n (bs.length - miss.length) miss.length
  let s1 := s0.updGroup gid (fun g => { g with blocks := got, media := !miss.isEmpty })
  match s.findRing n.ring with
  | none => s1
  | some r => if miss.isEmpty then s1 else s1.startGather (.group gid) (rowNeeds r (miss.map n.rba))

/-- A read joins an open group (R117): JOINED counts it, its block-buffer reservation returns, and MAXREQ closes the
group. -/
def State.joinGroup (s : State) (g : Group) (t : Nat) : State :=
  let s1 := s.updTag t (fun x => { x with group := some g.id, st := .executing })
  let s2 := (s1.updGroup g.id (fun x =>
    { x with reqs := x.reqs ++ [⟨t, none, false, false, false, false⟩], joined := !x.reqs.isEmpty })).bump
      Reg.rfuJoined
  let s3 := (if g.dataReady then s2.releaseLocks t else s2).hostEvent 0x0A g.vsid none 1
  if g.maxReq ≤ g.reqs.length + 1 then s3.closeGroup g.id false else s3.soloClose g.id

/-- A read opens a group of its key (R112, R113). -/
def State.openGroup (s : State) (r : TagRec) (n : Ns) : State :=
  let gid := s.rfu.nextId
  let (b0, cnt) := n.touch r.cap.slba r.cap.nlb
  let g : Group :=
    { id := gid, vsid := r.vsid, nsid := r.cap.nsid, slba := r.cap.slba, nlb := r.cap.nlb,
      reqs := [⟨r.tag, none, false, false, false, false⟩], isOpen := true,
      windowEnd := some (s.now + us (s.cfg Reg.rfuCfg 14 5)), maxReq := s.cfg Reg.rfuCfg 23 17,
      residue := s.cfg Reg.rfuRescfg 10 0, byLock := false, joined := false, media := false, dataReady := false,
      releasedAt := none, blocks := [], lost := false }
  let s1 := { s with rfu := { groups := s.rfu.groups ++ [g], nextId := gid + 1 } }
  let s2 := (s1.updTag r.tag (fun x => { x with group := some gid, st := .executing })).bump Reg.rfuOpened
  s2.groupRead gid n b0 cnt

/-- The offer of a Read whose lock is granted (R109 to R115). -/
def State.offer (s : State) (t : Nat) : State :=
  match s.findTag t with
  | none => s
  | some r =>
    match s.findNs r.vsid r.cap.nsid with
    | none => s
    | some n =>
      if !s.keyLoaded n then s.failTag t cplAccessDenied
      else if !s.offered r n then s
      else if s.rangeLost n r.cap.slba r.cap.nlb then s.failTag t cplUnrecRead
      else
        match s.rfu.groups.find? (fun g => g.isOpen && g.key r) with
        | some g => s.joinGroup g t
        | none =>
          if 16384 ≤ s.rfu.groups.length then (s.bump Reg.rfuNogrp).gatherRead r n
          else s.openGroup r n

/-! ## Writes into the buffer (R74, R82, R84, R87) -/

/-- A block with sectors `i0` to `i0 + cnt - 1` replaced. -/
def overlay (base : Block) (i0 : Nat) (xs : List Sector) : Block :=
  ((natsFrom i0 xs.length).zip xs).foldl (fun b e => setSector b e.1 e.2) base

/-- The mask of sectors `i0` to `i0 + cnt - 1`. -/
def sectorMask (i0 cnt : Nat) : BitVec 8 := (natsFrom i0 cnt).foldl (fun m i => m ||| (1#8 <<< i)) 0

/-- One block that a write produces, with the sectors it covers. -/
structure BlockWrite where
  blk : Nat
  first : Nat
  secs : List Sector
  deriving DecidableEq, Repr

/-- The blocks of a run of sectors from sector `s0`. -/
def splitSectors (s0 : Nat) (xs : List Sector) : List BlockWrite :=
  let last := s0 + xs.length
  (natsFrom (s0 / 8) (ceilDiv last 8 - s0 / 8)).map (fun b =>
    let lo := Nat.max s0 (b * 8)
    let hi := Nat.min last (b * 8 + 8)
    ⟨b, lo - b * 8, (xs.drop (lo - s0)).take (hi - lo)⟩)

/-- The block writes of a command: host data, zeroes, or the partly covered blocks of a deallocation (R84). -/
def TagRec.blockWrites (r : TagRec) (n : Ns) : List BlockWrite :=
  if r.cap.opcode = 1 then splitSectors (n.sectors r.cap.slba r.cap.nlb).1 r.hostData
  else if r.cap.opcode = 8 && !r.cap.deallocate then
    let (s0, cnt) := n.sectors r.cap.slba r.cap.nlb
    splitSectors s0 (List.replicate cnt 0)
  else r.cap.lbaRanges.flatMap (fun x => (n.splitDealloc x.1 x.2).2.flatMap (fun p =>
    splitSectors p.1 (List.replicate p.2 0)))

/-- The whole blocks that a command deallocates. -/
def TagRec.deallocRanges (r : TagRec) (n : Ns) : List (Nat × Nat) :=
  if (r.cap.opcode = 8 || r.cap.opcode = 9) && r.cap.deallocate then
    (r.cap.lbaRanges.map (fun x => (n.splitDealloc x.1 x.2).1)).filter (fun x => x.2 ≠ 0)
  else []

/-- The blocks of block writes, each once. -/
def writeBlocks (ws : List BlockWrite) : List Nat := (ws.map (fun w => w.blk)).foldl addNat []

/-- Every sector that block writes give a block, on its stored content: ranges of one command may meet in a block (R84). -/
def mergeOnto (base : Block) (b : Nat) (ws : List BlockWrite) : Block :=
  (ws.filter (fun w => w.blk = b)).foldl (fun d w => overlay d w.first w.secs) base

/-- A block write covers the whole block. -/
def wholeWrite (b : Nat) (ws : List BlockWrite) : Bool := ws.any (fun w => w.blk = b && w.secs.length = 8)

/-- The stored content under a partial write: lost blocks count as zeroes (R205). -/
def State.baseOf (s : State) (r : TagRec) (n : Ns) (b : Nat) : Option Block :=
  match s.newest n.vsid n.nsid b with
  | some e => some e.2.1
  | none =>
    if s.isLost n.vsid n.nsid b then some 0
    else
      match s.nearBlock n b with
      | some x => some x
      | none => (r.bases.find? (fun e => e.1 = b)).map (fun e => e.2)

/-- The sectors that block writes give a block. -/
def hostMask (b : Nat) (ws : List BlockWrite) : BitVec 8 :=
  (ws.filter (fun w => w.blk = b)).foldl (fun m w => m ||| sectorMask w.first w.secs.length) 0

/-- The sector mask of a new version (R205, R257): the sectors that its write supplies, and those of the version that it is
merged onto. -/
def State.maskFor (s : State) (n : Ns) (b : Nat) (ws : List BlockWrite) : BitVec 8 :=
  (match s.newest n.vsid n.nsid b with | some e => e.2.2 | none => 0) ||| hostMask b ws

/-- Entries two to a frame (R257). -/
def pairUp : List MirBlock → List (List MirBlock)
  | [] => []
  | [a] => [[a]]
  | a :: b :: l => [a, b] :: pairUp l

/-- The frames that carry a write's versions: MIRROR of KIND 0x01 for an own ring, FWD for a ring of the peer
(R22, R257, R258). -/
def carryFrames (own : Bool) (bs : List MirBlock) : List StreamBody :=
  (pairUp bs).map (fun p => if own then .mirror (.blocks p) else .fwd p)

/-- A command's data enters the write buffer under its version and goes to every holder (R22, R27, R74, R84). Needs
its locks granted, its host data in, and the content that partial blocks are merged onto. -/
def State.placeWrite (s : State) (t : Nat) : State :=
  match s.findTag t with
  | none => s
  | some r =>
    match s.findNs r.vsid r.cap.nsid with
    | none => s
    | some n =>
      let ws := r.blockWrites n
      let bs := writeBlocks ws
      let need := bs.filter (fun b => !wholeWrite b ws && (s.baseOf r n b).isNone)
      if r.st ≠ .executing || r.placed || !s.locked t || (r.cap.opcode = 1 && !r.dataIn) ||
          s.rge.gathers.any (fun g => g.owner = .tag t) then s
      else if !need.isEmpty then
        (match s.findRing n.ring with
         | some g => (s.countSources n 0 need.length).startGather (.tag t) (rowNeeds g (need.map n.rba))
         | none => s)
      else
        let own := s.owns n.ring
        -- a second copy that is due and cannot be sent: the write commits by R78 (R81)
        let wt := r.wt || (own && s.lacks2)
        let es := bs.map (fun b => (⟨r.vsid, r.cap.nsid, b, r.seq, n.ring,
          mergeOnto ((s.baseOf r n b).getD 0) b ws, s.maskFor n b ws, !own, false, wt, false, false,
          s.now, 0, false⟩ : WbEntry))
        let dr := r.deallocRanges n
        let ds : List DeallocRec := if dr.isEmpty then [] else [⟨t, r.vsid, r.cap.nsid, r.seq, n.ring, dr, !own, false⟩]
        let ms := es.map (fun e => (⟨e.vsid, e.nsid, e.blk, e.ver, e.ring, e.wt, e.smask, e.data, []⟩ : MirBlock)) ++
          ds.map (fun d => (⟨d.vsid, d.nsid, 0, d.ver, d.ring, wt, 0xFF, 0, d.ranges⟩ : MirBlock))
        let fs := carryFrames own ms
        let s1 := State.wakeStacks { s with hce := { s.hce with wb := s.hce.wb ++ es, deallocs := s.hce.deallocs ++ ds } }
        let s2 := s1.mirSendAll fs
        let bytes := 512 * sumNat (ws.map (fun w => w.secs.length))
        let s3 := ((if own then fs.foldl State.mirSend2 s2 else s2).hostEvent 0x06 r.vsid none
          (ceilDiv bytes 64)).vsCount r.vsid (fun x => { x with wrBytes := x.wrBytes + bytes })
        s3.updTag t (fun x =>
          { x with placed := true, wt := wt, dataMseq := s3.lastMseq, dataMseq2 := if own then s3.lastMseq2 else 0 })

/-! ## Lock grants (R86, R109, R119) -/

/-- What a granted lock lets a command do: a read is offered, a write's data is placed, an exclusive grant closes
the open groups it meets. -/
def State.lockGranted (s : State) (t : Nat) : State :=
  match s.findTag t with
  | none => s
  | some r =>
    let mine := s.hce.rlt.filter (fun e => e.tag = t && e.excl)
    let hit := s.rfu.groups.filter (fun g => g.isOpen && (match s.findNs g.vsid g.nsid with
      | some n => mine.any (fun e => e.vsid = g.vsid && e.nsid = g.nsid &&
          e.first < (n.touch g.slba g.nlb).1 + (n.touch g.slba g.nlb).2 && (n.touch g.slba g.nlb).1 ≤ e.last)
      | none => false))
    let s1 := hit.foldl (fun u g => u.closeGroup g.id true) s
    if r.cap.opcode = 2 || r.cap.opcode = 5 then
      (s1.updTag t (fun x => { x with vmark := s1.highVersion })).offer t
    else s1.placeWrite t

/-- A waiting lock request is granted when nothing earlier blocks it (R86). -/
def State.tryLock (s : State) (t : Nat) : State :=
  if s.holdsLock t && !s.locked t && s.lockFree t then
    let s1 := { s with hce := { s.hce with
      rlt := updWhere (fun e => e.tag = t) (fun e => { e with granted := true }) s.hce.rlt } }
    s1.lockGranted t
  else s

/-! ## Commit points (R27, R53, R78, R79) -/

/-- No version of the write is left to store: every stripe write that carries it has completed (R78). -/
def State.onMedium (s : State) (r : TagRec) : Bool :=
  r.placed && !s.hce.wb.any (fun e => e.ver = r.seq && e.owner = 0 && !e.dead) &&
    !s.hce.deallocs.any (fun e => e.ver = r.seq && e.tag = r.tag)

/-- A data-changing command has reached its commit point. -/
def State.writeCommits (s : State) (r : TagRec) : Bool :=
  if r.wt then s.onMedium r
  else r.placed && s.peerHolds r.dataMseq && s.secondHolds r.dataMseq2

/-- The outcome of a Compare (R53, R61). -/
def State.compareResult (_s : State) (r : TagRec) (n : Ns) : CplStatus :=
  if readSectors n r.cap.slba r.cap.nlb r.blocks = r.hostData then cplSuccess else cplCompare

/-- A Read or Compare whose data is in the block buffer reaches its commit point once the peer holds its COMMITTED
record (R53, R260); the first time, that record is sent. -/
def State.commitRead (s : State) (r : TagRec) (n : Ns) : State :=
  match r.readMseq with
  | none =>
    let s1 := s.sendRec r .committed none
    let s2 := s1.updTag r.tag (fun x => { x with readMseq := some s1.lastMseq })
    if s2.rfx.out1.isOpen then s2
    else
      let s3 := s2.updTag r.tag (fun x => { x with st := .committed })
      if r.cap.opcode = 2 then
        (if r.post then s3.sendRead r 8 (readSectors n r.cap.slba r.cap.nlb r.blocks) else s3).respond r.tag cplSuccess
      else s3.respond r.tag (s.compareResult r n)
  | some m =>
    if !s.peerHolds m then s
    else
      let s3 := s.updTag r.tag (fun x => { x with st := .committed })
      if r.cap.opcode = 2 then
        (if r.post then s3.sendRead r 8 (readSectors n r.cap.slba r.cap.nlb r.blocks) else s3).respond r.tag cplSuccess
      else s3.respond r.tag (s.compareResult r n)

/-- A data-changing command commits: its versions become dirty, its locks go, its result is Success. -/
def State.commitWrite (s : State) (r : TagRec) : State :=
  let s1 := (s.commitVersion r.seq).releaseLocks r.tag
  (s1.updTag r.tag (fun x => { x with st := .committed })).respond r.tag cplSuccess

/-- A committed tag with no completion to post is free once its work is done (R52). -/
def State.settle (s : State) (t : Nat) : State :=
  match s.findTag t with
  | some r => if r.st = .committed && !r.post && !s.engineBusy r then s.freeTag t else s
  | none => s

/-- A read carried on past its commit point has its data, or meets a lost extent, which is its result (R53). -/
def State.rereadDone (s : State) (r : TagRec) (n : Ns) (lost : Bool) : State :=
  let s1 := if lost then s.respond r.tag cplUnrecRead
    else (if r.post then s.sendRead r 8 (readSectors n r.cap.slba r.cap.nlb r.blocks) else s).respond r.tag cplSuccess
  s1.settle r.tag

/-- The end of one queue's life: admission stops, waiting capsules go, commands before their commit point are
squashed, later ones are carried through without completion, and RESPONDING tags are released (R42, R55, R69). -/
def State.windTag (s : State) (t : Nat) : State :=
  match s.findTag t with
  | none => s
  | some r =>
    if r.st = .responding then s.freeTag t
    else
      let s1 := (if r.open_ then s else s.dropCopies t).updTag t (fun x => { x with post := false })
      if r.open_ && !r.intents then s1.squash t cplAborted false else s1.settle t

/-- The tags of a queue. -/
def State.tagsOf (s : State) (p : TagRec → Bool) : List Nat := (s.hce.tags.filter p).map (fun r => r.tag)

/-- A queue ceases to exist, its commands wound up without completions (R42, R69). -/
def State.endQueue (s : State) (c q : Nat) : State :=
  let s1 := (s.tagsOf (fun r => r.cntlid = c && r.sqid = q)).foldl State.windTag s
  { s1 with hce := { s1.hce with sqs := s1.hce.sqs.filter (fun x => !(x.cntlid = c && x.sqid = q)) } }

/-- A connection leaves the module's table, and its TLS context with it. The peer is told by a last XPORT record that names
no subsystem (log 47). -/
def State.dropConn (s : State) (c : Nat) : State :=
  let s1 := match s.findConn c with
    | some k => s.mirSend (.xport { s.xportOf k with vsid := 512 })
    | none => s
  { s1 with
    hce := { s1.hce with conns := s1.hce.conns.filter (fun x => x.id ≠ c) }
    kvt := { s1.kvt with tls := s1.kvt.tls.filter (fun x => x.conn ≠ c) } }

/-- A connection is closed by the module: RST on TCP, a disconnect request on RDMA (R297). -/
def State.closeConn (s : State) (c : Nat) : State :=
  match s.findConn c with
  | none => s
  | some k => (match k.transport with | .rdma => s.emit (.cmDisconnect c) | .tcp => s.emit (.rst c)).dropConn c

/-- The Formats of a controller that run on complete no command any more (R69). -/
def State.forgetFormats (s : State) (c : Nat) : State :=
  let ps := updWhere (fun (p : Progress) => p.cmd.any (fun (e : Nat × Nat) => e.1 = c)) (fun p => { p with cmd := none }) s.hce.progress
  { s with hce := { s.hce with progress := ps } }

/-- A controller reset begins (R69): no completion for any of its commands, a Format that still runs included, and its I/O
queues cease to exist. `disc` is the CID of an admin Disconnect; `ends` says that the association ends with the reset.
CC.EN reads 0 from here on, after an abrupt shutdown too, whose write of CC may have left EN at 1 (log 65). -/
def State.beginReset (s : State) (c : Nat) (disc : Option Nat) (ends : Bool) : State :=
  match s.findCtrl c with
  | none => s
  | some x =>
    let qs := (s.hce.sqs.filter (fun q => q.cntlid = c)).map (fun q => q.sqid)
    let s1 := qs.foldl (fun u q => u.endQueue c q) s
    let s2 := ((s1.tagsOf (fun r => r.cntlid = c)).foldl State.windTag s1).forgetFormats c
    s2.updCtrl c (fun y =>
      { y with ccEn := false, resetting := true, resetDisc := disc, resetEnds := x.resetEnds || ends, aers := [],
               aborts := [], adminWait := [], events := [], kaDeadline := if ends then none else y.kaDeadline })

/-- The end of a connection as a transport error (R42): its queue is wound up; with the association's last
connection gone, a controller reset begins (R69). -/
def State.loseConn (s : State) (id : Nat) : State :=
  match s.findConn id with
  | none => s
  | some k =>
    let s1 := s.dropConn id
    match k.bound with
    | none => s1
    | some (c, q) =>
      let s2 := if q = 0 then s1 else s1.endQueue c q
      if s2.hce.conns.any (fun y => match y.bound with | some (d, _) => d = c | none => false) then s2
      else s2.beginReset c none true

end Sys2Proof.Machine
end

