-- ==== Sys2Proof/Machine/Parser.lean ====
section
/-! DEFINITION. The packet parser (R309 to R316) and the decision trees (R317 to R320). -/

namespace Sys2Proof.Machine

/-! ## Headers (R309 to R315) -/

/-- The header types of R309; `stop` stands for any next header that the parser does not recognise. -/
inductive Hdr where
  | eth
  | vlan
  | ipv4
  | ipv6
  | ext (kind : Nat)
  | udp
  | tcp
  | bth
  | vxlan
  | geneve
  | relti
  | stop
  deriving DecidableEq, Repr

/-- What a pass has parsed: header count, end of the last header, end of the IP payload and of the UDP payload
or TCP segment, and the key's fields (R316). `inner` is where a tunnelled frame starts; `payload` is where the
transport payload starts; `pkt` is where the IP header starts. -/
structure Parsed where
  hdrs : Nat := 0
  off : Nat := 0
  tags : List Nat := []
  etype : Nat := 0
  pkt : Nat := 0
  ipEnd : Nat := 0
  v4 : Bool := false
  v6 : Bool := false
  frag : Bool := false
  optx : Bool := false
  tclass : Nat := 0
  proto : Nat := 0
  sip : List Byte := zeroBytes 16
  dip : List Byte := zeroBytes 16
  l4 : Option Nat := none
  sport : Nat := 0
  dport : Nat := 0
  tcpfl : Nat := 0
  bthop : Option Nat := none
  dqp : Nat := 0
  rtype : Nat := 0
  rdst : Nat := 0
  vni : Nat := 0
  tunnel : Nat := 0
  inner : Nat := 0
  payload : Nat := 0
  l4off : Nat := 0
  deriving DecidableEq, Repr

/-- How a pass ends: normally, under the limits of R311, or with a contradiction of R313. -/
inductive ParseEnd where
  | done
  | incomplete
  | malformed (code : Nat)
  deriving DecidableEq, Repr

/-- The header after an EtherType (R309). A third tag is of no recognised type (R310). -/
def afterEtype (relti et tags : Nat) : Hdr :=
  if et = relti then .relti
  else if et = 0x88A8 || et = 0x8100 then (if tags < 2 then .vlan else .stop)
  else if et = 0x0800 then .ipv4
  else if et = 0x86DD then .ipv6
  else .stop

/-- The header after an IP protocol or next-header number; extension headers belong to IPv6 alone. -/
def afterProto (v6 : Bool) (pr : Nat) : Hdr :=
  if pr = 17 then .udp
  else if pr = 6 then .tcp
  else if v6 && (pr = 0 || pr = 43 || pr = 44 || pr = 60) then .ext pr
  else .stop

/-- The header after a UDP destination port. -/
def afterUdp (vx gen dport : Nat) : Hdr :=
  if dport = 4791 then .bth else if dport = vx then .vxlan else if dport = gen then .geneve else .stop

/-- Bytes of the extended transport headers after a BTH of opcode `op` (the InfiniBand architecture's RC opcodes,
log 7): RETH 16, AETH 4, ImmDt 4, AtomicETH 28, AtomicAckETH 8, IETH 4, DETH 8 of UD. -/
def bthExt (op : Nat) : Nat :=
  let o := op % 32
  let t := op / 32
  (if t = 3 then 8 else 0) +
  (if o = 0x03 || o = 0x05 || o = 0x09 || o = 0x16 || o = 0x17 then 4
   else if o = 0x06 || o = 0x0A || o = 0x0C then 16
   else if o = 0x0B then 20
   else if o = 0x0D || o = 0x0F || o = 0x10 || o = 0x11 then 4
   else if o = 0x12 then 12
   else if o = 0x13 || o = 0x14 then 28
   else 0)

/-- IPv4 in the form of R316. -/
def mapV4 (bs : List Byte) : List Byte := zeroBytes 10 ++ [0xFF, 0xFF] ++ bs

/-- One header of type `h` at `p.off`: its contradictions, or what is parsed and the header that follows. `relti`,
`vx` and `gen` are the configured EtherType and tunnel ports. -/
def parseOne (relti vx gen : Nat) (bs : List Byte) (h : Hdr) (p : Parsed) : Except ParseEnd (Parsed × Hdr) :=
  let o := p.off
  let n := bs.length
  -- a header of `len` bytes: not parsed beyond the 384 bytes, contradictory beyond the frame
  let fits : Nat → Except ParseEnd Unit := fun len =>
    if 10 ≤ p.hdrs || 384 < o + len then .error .incomplete
    else if n < o + len then .error (.malformed 1) else .ok ()
  let q := { p with hdrs := p.hdrs + 1 }
  match h with
  | .stop => .error .done
  | .eth => do
    fits 14
    let et := beAt bs (o + 12) 2
    .ok ({ q with off := o + 14, etype := et }, afterEtype relti et 0)
  | .vlan => do
    fits 4
    let et := beAt bs (o + 2) 2
    .ok ({ q with off := o + 4, etype := et, tags := p.tags ++ [beAt bs o 2] }, afterEtype relti et (p.tags.length + 1))
  | .ipv4 => do
    fits 20
    let ihl := byteAt bs o % 16 * 4
    if ihl < 20 then .error (.malformed 2)
    else do
      fits ihl
      let tot := beAt bs (o + 2) 2
      if n - o < tot then .error (.malformed 3)
      else if tot < ihl then .error (.malformed 4)
      else
        let pr := byteAt bs (o + 9)
        let frag := beAt bs (o + 6) 2 % 0x4000 ≠ 0
        .ok ({ q with
          off := o + ihl, pkt := o, ipEnd := o + tot, v4 := true, frag := frag, optx := 20 < ihl,
          tclass := byteAt bs (o + 1), proto := pr, sip := mapV4 (slice bs (o + 12) 4),
          dip := mapV4 (slice bs (o + 16) 4) }, if frag then .stop else afterProto false pr)
  | .ipv6 => do
    fits 40
    let len := beAt bs (o + 4) 2
    if n - (o + 40) < len then .error (.malformed 5)
    else
      let pr := byteAt bs (o + 6)
      .ok ({ q with
        off := o + 40, pkt := o, ipEnd := o + 40 + len, v6 := true, tclass := beAt bs o 2 / 16 % 256, proto := pr,
        sip := slice bs (o + 8) 16, dip := slice bs (o + 24) 16 }, afterProto true pr)
  | .ext k => do
    fits 8
    let len := if k = 44 then 8 else (byteAt bs (o + 1) + 1) * 8
    if p.ipEnd < o + len then .error (.malformed 6)
    else do
      fits len
      let pr := byteAt bs o
      .ok ({ q with off := o + len, optx := true, proto := pr, frag := k = 44 },
        if k = 44 then .stop else afterProto true pr)
  | .udp => do
    fits 8
    let len := beAt bs (o + 4) 2
    if len < 8 || p.ipEnd < o + len then .error (.malformed 7)
    else
      let d := beAt bs (o + 2) 2
      .ok ({ q with
        off := o + 8, l4 := some 17, sport := beAt bs o 2, dport := d, payload := o + 8, ipEnd := o + len },
        afterUdp vx gen d)
  | .tcp => do
    fits 20
    let doff := byteAt bs (o + 12) / 16 * 4
    if doff < 20 || p.ipEnd < o + doff then .error (.malformed 8)
    else do
      fits doff
      .ok ({ q with
        off := o + doff, l4 := some 6, sport := beAt bs o 2, dport := beAt bs (o + 2) 2, tcpfl := byteAt bs (o + 13),
        payload := o + doff, l4off := o }, .stop)
  | .bth => do
    fits 12
    let op := byteAt bs o
    let len := 12 + bthExt op
    if p.ipEnd < o + len + byteAt bs (o + 1) / 16 % 4 + 4 then .error (.malformed 9)
    else do
      fits len
      .ok ({ q with off := o + len, bthop := some op, dqp := beAt bs (o + 5) 3, payload := o + len }, .stop)
  | .vxlan => do
    fits 8
    .ok ({ q with off := o + 8, vni := beAt bs (o + 4) 3, tunnel := 1, inner := o + 8 }, .stop)
  | .geneve => do
    fits 8
    let len := 8 + byteAt bs o % 64 * 4
    if p.ipEnd < o + len then .error (.malformed 10)
    else do
      fits len
      .ok ({ q with off := o + len, vni := beAt bs (o + 4) 3, tunnel := 2, inner := o + len }, .stop)
  | .relti => do
    fits 16
    .ok ({ q with off := o + 16, rtype := byteAt bs (o + 1), rdst := byteAt bs (o + 2) }, .stop)

/-- A pass from header `h`, at most `fuel` headers on; eleven are enough, since the eleventh is never parsed. -/
def parseFrom (relti vx gen : Nat) (bs : List Byte) : Nat → Hdr → Parsed → Parsed × ParseEnd
  | 0, _, p => (p, .incomplete)
  | fuel + 1, h, p =>
    match parseOne relti vx gen bs h p with
    | .error e => (p, e)
    | .ok (p1, h1) => parseFrom relti vx gen bs fuel h1 p1

/-- The parse of a pass under the module's configuration (R309, R311). -/
def State.parse (s : State) (bs : List Byte) : Parsed × ParseEnd :=
  parseFrom (s.cfg Reg.rfxCfg 31 16) (s.cfg Reg.ppcTunport 15 0) (s.cfg Reg.ppcTunport 31 16) bs 12 .eth {}

/-! ## The key vector (R316) -/

/-- What a pass knows beside its frame: port, pass, recorded bank and epoch, and what the previous pass handed on. -/
structure PassInfo where
  port : Nat
  pass : Nat
  bank : Nat
  epoch : Nat
  cookie : Nat
  decap : Bool
  tls : Bool
  vni : Nat
  tunnel : Nat
  odip : List Byte
  deriving DecidableEq, Repr

/-- PORT of the key: 0x00 to 0x03 for H0 to H3, 0x10 to 0x13 for F0 to F3. -/
def keyPort (p : Nat) : Nat := if p < 4 then p else 0x10 + (p - 4)

/-- The 128-byte key. -/
def keyBytes (i : PassInfo) (bs : List Byte) (p : Parsed) : List Byte :=
  let b := fun (c : Bool) (n : Nat) => if c then n else 0
  let flags := b (p.tags.length = 1) 1 + b (p.tags.length = 2) 2 + b p.v4 4 + b p.v6 8 + b p.frag 16 + b p.optx 32 +
    b (p.l4 = some 6) 64 + b (p.l4 = some 17) 128
  let tci := fun (n : Nat) => (p.tags.getD n 0) / 0x2000 * 0x2000 + (p.tags.getD n 0) % 0x1000
  let vni := if i.decap then i.vni else p.vni
  let tun := if i.decap && p.tunnel = 0 then i.tunnel else p.tunnel
  beBytes 1 (keyPort i.port) ++ beBytes 1 (i.pass + b i.decap 16 + b i.tls 32) ++ beBytes 1 flags ++
  beBytes 1 p.hdrs ++ beBytes 2 (tci 0) ++ beBytes 2 (if p.tags.length = 2 then tci 1 else 0) ++ beBytes 2 p.etype ++
  beBytes 1 p.tclass ++ beBytes 1 p.proto ++ p.sip ++ p.dip ++ beBytes 2 p.sport ++ beBytes 2 p.dport ++
  beBytes 1 p.tcpfl ++ beBytes 1 (p.bthop.getD 0) ++ beBytes 3 p.dqp ++ [0] ++ beBytes 1 p.rtype ++
  beBytes 1 p.rdst ++ beBytes 3 vni ++ beBytes 1 tun ++ (if i.decap then i.odip else zeroBytes 16) ++
  beBytes 4 i.cookie ++ slice bs 0 6 ++ slice bs 6 6 ++ zeroBytes 36

/-! ## Decision trees (R317 to R320) -/

/-- An entry of a bank's table; all zero when nothing is listed. -/
def State.entry (s : State) (bank table index : Nat) : List Byte :=
  match s.ppc.tables.find? (fun e => e.bank = bank && e.table = table && e.index = index) with
  | some e => e.bytes
  | none => zeroBytes 32

/-- A rule that a walk ends at: its index and its fields (R319). -/
structure Rule where
  index : Nat
  action : Nat
  dest : Nat
  count : Option Nat
  policer : Nat
  tc : Nat
  cookie : Nat
  deriving DecidableEq, Repr

/-- How a walk ends. -/
inductive WalkEnd where
  | rule (r : Rule)
  | miss
  | treeError
  deriving DecidableEq, Repr

/-- A leaf's rule: without VALID a miss, with a reserved action a tree error. -/
def State.leafRule (s : State) (bank idx : Nat) : WalkEnd :=
  let e := s.entry bank 1 idx
  if byteAt e 0 % 2 = 0 then .miss
  else
    let a := byteAt e 1
    if a = 0 || 6 < a then .treeError
    else .rule ⟨idx, a, beAt e 2 2, if byteAt e 0 / 2 % 2 = 1 then some (beAt e 4 2 % 32768) else none, beAt e 6 2,
      byteAt e 8 % 8, beAt e 16 8⟩

/-- The walk from a node, with the tests left (R318, R319). -/
def State.walk (s : State) (bank : Nat) (key : List Byte) : Nat → Nat → WalkEnd
  | fuel, node =>
    let e := s.entry bank 0 node
    let kind := byteAt e 0
    if byteAt e 3 % 2 = 0 then .treeError
    else if (kind ≠ 1 && kind ≠ 2 && kind ≠ 3) || 128 < byteAt e 1 + byteAt e 2 then .treeError
    else if kind = 3 then s.leafRule bank (beAt e 24 2 % 32768)
    else
      match fuel with
      | 0 => .treeError
      | n + 1 =>
        let v := beAt key (byteAt e 1) (byteAt e 2) &&& beAt e 16 8
        let holds := if kind = 1 then v = beAt e 8 8 else v ≤ beAt e 8 8
        s.walk bank key n (if holds then beAt e 4 2 else beAt e 6 2)

/-- Classification of a key: at most 24 tests. -/
def State.classify (s : State) (bank : Nat) (key : List Byte) : WalkEnd := s.walk bank key 24 0

end Sys2Proof.Machine
end

