-- ==== Sys2Proof/Machine/Ingress.lean ====
section
/-! DEFINITION. The ingress family (chapter 10): frames received and recirculated, the exception queue, policers, rule
banks and the table window; and PFC at the ingress regions (R359). -/

namespace Sys2Proof.Machine

/-! ## Exception queue (R329, R330) -/

/-- Tokens of exception bucket `n` at this moment, in 10^-9 tokens (R330). -/
def State.exLevel (s : State) (n : Nat) : Int :=
  let b := s.ppc.buckets.getD n ⟨0, 0⟩
  let r := Reg.ppcExrate + 4 * n
  min (b.level + (s.now - b.at_ : Nat) * (s.cfg r 19 0 : Nat)) ((s.cfg r 31 20 * 1000000000 : Nat))

def State.setExLevel (s : State) (n : Nat) (l : Int) : State :=
  { s with ppc := { s.ppc with buckets := setAt s.ppc.buckets n ⟨l, s.now⟩ } }

/-- The bucket of a cause (R329). -/
def exBucket (cause : Nat) : Nat := if cause = 1 then 1 else if cause = 4 then 2 else 0

/-- The 32-byte descriptor of R329. -/
def State.exDesc (s : State) (cause : Nat) (i : PassInfo) (p : Parsed) (held orig rule mcode cookie : Nat) :
    List Byte :=
  leBytes 1 cause ++ leBytes 1 (keyPort i.port) ++ leBytes 1 (i.pass + (if held < orig then 128 else 0)) ++
  leBytes 1 p.hdrs ++ leBytes 2 p.off ++ leBytes 2 held ++ leBytes 2 orig ++ leBytes 2 i.epoch ++ leBytes 2 rule ++
  leBytes 2 mcode ++ leBytes 8 (s.portTs i.port) ++ leBytes 8 cookie

/-- A frame is offered to the exception queue (R330): it takes a token of its bucket, and a place. -/
def State.offerEx (s : State) (cause : Nat) (i : PassInfo) (p : Parsed) (bs : List Byte) (rule mcode cookie : Nat) :
    State :=
  let n := exBucket cause
  let l := s.exLevel n
  if l < 1000000000 then (s.setExLevel n l).bump (Reg.ppcExdrop0 + 4 * n)
  else
    let s1 := s.setExLevel n (l - 1000000000)
    if 4096 ≤ s.ppc.exq.length then s1.bump Reg.ppcExqfull
    else
      let fr := if cause = 3 then bs.take 256 else bs
      let d := s.exDesc cause i p fr.length bs.length rule mcode cookie
      { s1 with ppc := { s1.ppc with exq := s1.ppc.exq ++ [⟨d, fr⟩] } }

/-! ## Policers (R331, R332) -/

/-- Policer `v` as it stands; one that is not listed has its reset setting. -/
def State.policer (s : State) (v : Nat) : Policer :=
  match s.ppc.policers.find? (fun p => p.index = v) with
  | some p => p
  | none => ⟨v, 0, 64, 64, 64 * 1024 * 8000, 64 * 1024 * 8000, 0, 0⟩

def State.setPolicer (s : State) (p : Policer) : State :=
  { s with ppc := { s.ppc with policers := s.ppc.policers.filter (fun q => q.index ≠ p.index) ++ [p] } }

/-- The colours of RFC 2697. -/
inductive Colour where
  | green
  | yellow
  | red
  deriving DecidableEq, Repr

/-- The policer's buckets brought up to `now`: CIR fills the committed bucket, then the excess one; 1 Mb/s is one unit
of 1/8000 byte per ns. -/
def Policer.fill (p : Policer) (now : Nat) : Policer :=
  let add := (now - p.at_) * p.cir
  let c := p.cbs * 1024 * 8000
  let e := p.ebs * 1024 * 8000
  let tc := Nat.min c (p.tc + add)
  { p with tc := tc, te := Nat.min e (p.te + (p.tc + add - tc)), at_ := now }

/-- The colour of a frame of `len` bytes, and the policer after it. -/
def Policer.mark (p : Policer) (now len : Nat) : Colour × Policer :=
  if p.cir = 0 then (.green, p)
  else
    let q := p.fill now
    let need := len * 8000
    if need ≤ q.tc then (.green, { q with tc := q.tc - need })
    else if need ≤ q.te then (.yellow, { q with te := q.te - need })
    else (.red, { q with red := satAt 0xFFFFFFFF (q.red + 1) })

/-! ## Ingress regions and PFC (R342, R359) -/

/-- Bytes in the ingress region of a port, of one class or of all. -/
def State.ingressUse (s : State) (port : Nat) (cls : Option Nat) : Nat :=
  sumNat ((s.xbr.frames.filter (fun f => f.input = port && (match cls with | some c => f.icls = c | none => true))).map
    (fun f => f.len))

/-- Size of a port's ingress region (R340). -/
def ingressSize (port : Nat) : Nat := if port < 4 then 6 * 2 ^ 20 else 2 * 2 ^ 20

def State.pfcOn (s : State) (port cls : Nat) : Bool := s.cfgBit (Reg.essPortcfg + 4 * port) (16 + cls)
def State.xonAt (s : State) (port : Nat) : Nat := s.cfg (Reg.essPfcthr + 4 * port) 7 0 * 16384
def State.xoffAt (s : State) (port : Nat) : Nat := s.cfg (Reg.essPfcthr + 4 * port) 15 8 * 16384
def State.hdrAt (s : State) (port : Nat) : Nat := s.cfg (Reg.essPfcthr + 4 * port) 23 16 * 16384

def State.inXoff (s : State) (port cls : Nat) : Bool := s.xbr.xoff.any (fun e => e.1 = port && e.2.1 = cls)

/-- A class leaves XOFF: a PFC frame with 0 quanta (R359). -/
def State.pfcXon (s : State) (port cls : Nat) : State :=
  if s.inXoff port cls then
    ({ s with xbr := { s.xbr with xoff := s.xbr.xoff.filter (fun e => !(e.1 = port && e.2.1 = cls)) } }).emit
      (.pfc port cls 0)
  else s

/-- The occupancy of a class is judged after it changed (R359). -/
def State.pfcJudge (s : State) (port cls : Nat) : State :=
  let use := s.ingressUse port (some cls)
  if !s.pfcOn port cls then s.pfcXon port cls
  else if s.inXoff port cls then (if use ≤ s.xonAt port then s.pfcXon port cls else s)
  else if s.xoffAt port ≤ use then
    ({ s with xbr := { s.xbr with xoff := s.xbr.xoff ++ [(port, cls, s.now)] } }).emit (.pfc port cls 0xFFFF)
  else s

/-- PFC_REPEAT (R359): every 20 µs while a class in XOFF stays at or above XON, its PFC frame is repeated. -/
def execPfcRepeat (port cls : Nat) (s : State) : Host.Outcome State Fault Refusal :=
  match s.xbr.xoff.find? (fun e => e.1 = port && e.2.1 = cls) with
  | none => .next s
  | some e =>
    if s.now < e.2.2 + us 20 then .next s
    else if !s.pfcOn port cls || s.ingressUse port (some cls) < s.xonAt port then .next (s.pfcXon port cls)
    else
      let l := updWhere (fun x : Nat × Nat × Nat => x.1 = port && x.2.1 = cls) (fun x => (x.1, x.2.1, s.now)) s.xbr.xoff
      .next (({ s with xbr := { s.xbr with xoff := l } }).emit (.pfc port cls 0xFFFF))

/-- Ingress class of a frame (R342, R358). -/
def ingressClass (port : Nat) (p : Parsed) : Nat :=
  if port < 4 then
    (match p.tags with
     | t :: _ => t / 0x2000
     | [] => if p.v4 || p.v6 then p.tclass / 32 else 0)
  else if p.rtype ≠ 0 then reltiClass p.rtype else 0

/-! ## NVMe/TCP PDU delineation (R322) -/

/-- Whether the fields of a PDU common header agree with each other and the PDU type, for the PDUs that a host sends;
header lengths are the NVMe/TCP transport specification's (log 7). A command capsule carries at most `cap` bytes of data
(R38), beside its header with padding and two digests; one that carries more is such an error (log 68). -/
def pduOk (cap : Nat) (h : List Byte) : Bool :=
  let t := byteAt h 0
  let hlen := byteAt h 2
  let pdo := byteAt h 3
  let plen := leAt h 4 4
  if t = 0x00 then hlen = 128 && plen = 128
  else if t = 0x02 then hlen = 24 && 24 ≤ plen && plen ≤ 152
  else if t = 0x04 then hlen = 72 && 72 ≤ plen && plen ≤ Nat.max 76 pdo + cap + (if cap = 0 then 0 else 4) &&
    (pdo = 0 || (72 ≤ pdo && pdo ≤ plen))
  else if t = 0x06 then hlen = 24 && 24 ≤ plen && 24 ≤ pdo && pdo ≤ plen
  else false

/-- In-capsule data that a connection's queue takes (R38): 8,192 bytes on the admin queue and before Connect, none on an I/O
queue after its Connect. -/
def HConn.capsuleData (k : HConn) : Nat :=
  match k.bound with
  | some (_, q) => if q = 0 then 8192 else 0
  | none => 8192

/-- The PDUs of `bs` followed from a connection's receive state: bytes of a partial header and bytes left of the
current PDU; none when a header contradicts itself. -/
def pduRun (cap : Nat) : Nat → List Byte → Nat → List Byte → Option (List Byte × Nat)
  | 0, buf, left, _ => some (buf, left)
  | fuel + 1, buf, left, bs =>
    if 0 < left then (if bs.length ≤ left then some (buf, left - bs.length) else pduRun cap fuel buf 0 (bs.drop left))
    else
      let h := buf ++ bs.take (8 - buf.length)
      if h.length < 8 then some (h, 0)
      else if !pduOk cap h then none
      else pduRun cap fuel [] (leAt h 4 4 - 8) (bs.drop (8 - buf.length))

/-! ## What happens after classification -/

/-- The connection a TO_HCE packet belongs to: an RC queue pair by its number, an NVMe/TCP connection by the portal's
address and the host's port, which the connection number's low 16 bits stand for (log 23). -/
def State.connFor (s : State) (vsid : Nat) (p : Parsed) : Option HConn :=
  s.hce.conns.find? (fun k => k.vsid = vsid && k.addr.toNat = beNat p.dip &&
    (match k.transport with
     | .rdma => p.bthop.isSome && k.id = p.dqp
     | .tcp => p.l4 = some 6 && k.id % 65536 = p.sport))

/-- A CE-marked RoCEv2 packet of one of the module's queue pairs is answered by a CNP, at most one per GAP (R362). -/
def State.cnpSend (s : State) (k : HConn) : State :=
  let gap := us (s.cfg Reg.essCnpcfg 7 0)
  if s.xbr.cnpSent.any (fun e => e.1 = k.id && s.now < e.2 + gap) then s
  else
    let s1 := { s with xbr := { s.xbr with cnpSent := s.xbr.cnpSent.filter (fun e : Nat × Nat => e.1 ≠ k.id) ++ [(k.id, s.now)] } }
    ((s1.emit (.cnp k.id)).hostFrames k.id 12 16 none).bump Reg.essCnptx

/-- ECN of a TCP segment (R363): a CE mark sets ECE on the acknowledgements until CWR arrives; ECE halves the congestion
window, once per round trip, which ends when what was sent before the last halving is acknowledged. -/
def HConn.tcpEcn (k : HConn) (ce : Bool) (flags ack : Nat) : HConn :=
  let k1 := if ce then { k with ece := true } else if flags / 128 % 2 = 1 then { k with ece := false } else k
  let roundOver := match k.cutAt with
    | some p => (ack + 2 ^ 32 - p) % 2 ^ 32 < 2 ^ 31
    | none => true
  if flags / 64 % 2 = 1 && roundOver then
    { k1 with cwnd := k1.cwnd / 2, cwr := true, cutAt := some k1.sndNext }
  else k1

/-- The positions after a TCP segment of `n` payload bytes: what is received, and what is acknowledged (R262). -/
def HConn.tcpMoves (k : HConn) (n flags ack : Nat) : HConn :=
  let newer := flags / 16 % 2 = 1 && (ack + 2 ^ 32 - k.sndUna) % 2 ^ 32 < 2 ^ 31
  { k with rcvNext := (k.rcvNext + n) % 2 ^ 32, sndUna := if newer then ack else k.sndUna }

/-- A frame goes to the host command engine (R320, R322): its crossbar frame, the CNP of a CE mark, and on the last
pass of a TCP segment its ECN bits, positions and PDUs. -/
def State.toHce (s : State) (i : PassInfo) (bs : List Byte) (p : Parsed) (r : Rule) (icls len : Nat) : State :=
  let s1 := s.xbar i.port icls false [plainCopy 8 1024 r.dest r.tc len] len
  match s1.connFor r.dest p with
  | none => s1
  | some k =>
    let s2 := s1.updConn k.id (fun c => { c with tc := r.tc, dscp := p.tclass / 4 })
    if p.bthop.isSome then (if p.tclass % 4 = 3 then s2.cnpSend k else s2)
    else
      let pay := slice bs p.payload (p.ipEnd - p.payload)
      let ack := beAt bs (p.l4off + 8) 4
      let seen := s2.updConn k.id (fun c => (c.tcpEcn (p.tclass % 4 = 3) p.tcpfl ack).tcpMoves pay.length p.tcpfl ack)
      match pduRun k.capsuleData (pay.length + 1) k.pduBuf k.pduLeft pay with
      | some (buf, left) => seen.updConn k.id (fun c => { c with pduBuf := buf, pduLeft := left })
      | none => ((seen.bump Reg.ppcPduerr).emit (.termReq k.id)).loseConn k.id

/-- A received Relti frame that fails R218 is dropped and counted. -/
def State.badRelti (s : State) : State := s.bump Reg.rfxBadhdr

/-- Whether a Relti frame passes R218. -/
def State.reltiOk (s : State) (bs : List Byte) (p : Parsed) : Bool :=
  let h := slice bs 14 16
  p.etype = s.cfg Reg.rfxCfg 31 16 && p.tags.isEmpty && byteAt h 0 / 16 = 1 && 1 ≤ byteAt h 1 && byteAt h 1 ≤ 0x0E &&
    beAt h 12 4 = (crc32c (h.take 12)).toNat && beAt h 6 2 ≤ bs.length - 30

/-- A recirculation (R321, R322): a further pass, or the exception queue on pass 2. -/
def State.recirculate (s : State) (i : PassInfo) (bs : List Byte) (p : Parsed) (r : Rule) (icls len : Nat)
    (policed yellow icrcOk : Bool) : State :=
  if i.pass = 2 then (s.bump Reg.ppcRclimit).offerEx 5 i p bs r.index 0 r.cookie
  else
    let decap := r.action = 5
    let q : Recirc :=
      { id := s.ppc.nextId, port := i.port, bank := i.bank, epoch := i.epoch, pass := i.pass + 1,
        bytes := if decap then bs.drop p.inner else bs, cookie := r.cookie, decap := decap || i.decap, tls := !decap,
        vni := if decap then p.vni else i.vni, tunnel := if decap then p.tunnel else i.tunnel,
        odip := if decap then p.dip else i.odip, len := len, icls := icls, policed := policed, yellow := yellow,
        icrcOk := icrcOk }
    let s1 := { s with ppc := { s.ppc with recircs := s.ppc.recircs ++ [q], nextId := s.ppc.nextId + 1 } }
    s1.xbar i.port icls false [plainCopy 13 1024 512 r.tc (q.bytes.length + 4)] (bs.length + 4)

/-- The rule counter of a rule with the count flag gains the frame and its bytes (R320). -/
def State.countRule (s : State) (r : Rule) (len : Nat) : State :=
  match r.count with
  | none => s
  | some c =>
    let l := s.ppc.ruleCnt
    let l1 := if l.any (fun e => e.1 = c) then updWhere (fun e => e.1 = c) (fun e => (e.1, e.2.1 + 1, e.2.2 + len)) l
      else l ++ [(c, 1, len)]
    { s with ppc := { s.ppc with ruleCnt := l1 } }

/-- A classified frame follows its descriptor (R320): policer, then action. -/
def State.applyRule (s : State) (i : PassInfo) (bs : List Byte) (p : Parsed) (r : Rule) (icls len : Nat)
    (policed yellow icrcOk : Bool) : State :=
  let s1 := s.countRule r (bs.length + 4)
  let (col, s2) :=
    if policed || 520 ≤ r.policer then ((if yellow then Colour.yellow else Colour.green), s1)
    else
      let (c, q) := (s1.policer r.policer).mark s.now len
      (c, s1.setPolicer q)
  if col = .red then s2
  else
    let yel := col = .yellow
    let thr := s2.cfg Reg.essDecfg 6 0 * ingressSize i.port / 100
    if yel && !s2.pfcOn i.port icls && thr ≤ s2.ingressUse i.port none && (r.action = 2 || 5 ≤ r.action) then
      s2.bump Reg.essDedrop
    else if r.action = 2 then s2.toHce i bs p r icls len
    else if r.action = 3 then (if s2.reltiOk bs p then s2 else s2.badRelti)
    else if r.action = 4 then s2.offerEx 4 i p bs r.index 0 r.cookie
    else if r.action = 5 || r.action = 6 then
      s2.recirculate i bs p r icls len (policed || r.policer < 520) yel icrcOk
    else s2

/-- One pass of a frame (R311 to R322). `len` is its length on arrival, FCS included. -/
def State.onePass (s : State) (i : PassInfo) (bs : List Byte) (icls len : Nat) (policed yellow icrcOk : Bool) :
    State :=
  let (p, e) := s.parse bs
  match e with
  | .incomplete => (s.bump Reg.ppcIncompl).offerEx 2 i p bs 0xFFFF 0 0
  | .malformed c =>
    if p.etype = s.cfg Reg.rfxCfg 31 16 then s.badRelti
    else (s.bump Reg.ppcMalform).offerEx 3 i p bs 0xFFFF c 0
  | .done =>
    if p.etype = s.cfg Reg.rfxCfg 31 16 && !s.reltiOk bs p then s.badRelti
    else if p.bthop.isSome && !icrcOk then s.bump Reg.ppcIcrcerr
    else
      match s.classify i.bank (keyBytes i bs p) with
      | .miss => s.offerEx 1 i p bs 0xFFFF 0 0
      | .treeError => (s.bump Reg.ppcTreeerr).offerEx 1 i p bs 0xFFFF 0 0
      | .rule r => s.applyRule i bs p r icls len policed yellow icrcOk

/-- FRAME_RECEIVE (R311): a frame arrives on port 0 to 3 (H0 to H3) or 4 to 7 (F0 to F3). The MAC drops frames with
uncorrectable codewords (R597), a bad FCS and what MACsec refuses (R379), and consumes MAC control frames and EAPOL; the
ingress region admits the rest (R342), PFC is judged (R359) and pass 0 runs. -/
def execFrameReceive (port : Nat) (f : FrameIn) (s : State) : Host.Outcome State Fault Refusal :=
  let len := f.bytes.length + 4
  let et := beAt f.bytes 12 2
  let (p, _) := s.parse f.bytes
  let icls := ingressClass port p
  let use := s.ingressUse port none
  let mc := Reg.iclMscfg + 4 * (port - 4)
  if 8 ≤ port then .next s
  else if !s.cfgBit (Reg.macPcfg + 0x40 * port) 31 then .next s
  else if !f.fecOk then .next (s.bump (Reg.macFecunc + 0x40 * port))
  else if !f.fcsOk then .next s
  else if 4 ≤ port && s.cfgBit mc 31 && f.macsec = none && et ≠ 0x888E then .next (s.bump Reg.iclMsdrop)
  else if 4 ≤ port && s.cfgBit mc 31 && f.macsec = some false then .next (s.bump Reg.iclMsauth)
  else if et = 0x8808 || (4 ≤ port && et = 0x888E) then .next s
  else
    let s0 := (s.hostEvent 0x10 port (some icls) 1).hostEvent 0x12 port (some icls) (ceilDiv len 64)
    if s0.pfcOn port icls && s0.xoffAt port + s0.hdrAt port < s0.ingressUse port (some icls) + len then
      .next (s0.bump Reg.essPfcovf)
    else if !s0.pfcOn port icls && ingressSize port < use + len then .next s0
    else
      let i : PassInfo := ⟨port, 0, s.ppc.cur, s.ppc.epoch, 0, false, false, 0, 0, zeroBytes 16⟩
      .next ((s0.onePass i f.bytes icls len false false f.icrcOk).pfcJudge port icls)

/-- A TLS record that fails its check draws the alert bad_record_mac and ends its connection (R383). -/
def State.tlsBad (s : State) (conn : Nat) : State :=
  ((s.bump Reg.iclTlsauth).emit (.tls conn 20)).loseConn conn

/-- A TLS record received whole (R384): a host that sends 2^24 + 2^20 records under one key draws an alert, and its
connection closes. -/
def State.tlsReceived (s : State) (conn : Nat) : State :=
  match s.kvt.tls.find? (fun t => t.conn = conn) with
  | none => s
  | some t =>
    if 2 ^ 24 + 2 ^ 20 ≤ t.rxCount + 1 then (s.emit (.tls conn 10)).loseConn conn
    else { s with kvt := { s.kvt with tls := updWhere (fun x => x.conn = conn) (fun x => { x with rxCount := x.rxCount + 1 }) s.kvt.tls } }

/-- RECIRCULATION_PASS (R321): a recirculated frame is parsed again in its recorded bank (R323). A frame of
RECIRC_TLS brings the plaintext of its records, or the failure of one. -/
def execRecirculationPass (id : Nat) (authOk : Bool) (plain : List Byte) (s : State) :
    Host.Outcome State Fault Refusal :=
  match s.ppc.recircs.find? (fun r => r.id = id) with
  | none => .next s
  | some r =>
    let s1 := { s with ppc := { s.ppc with recircs := s.ppc.recircs.filter (fun x => x.id ≠ id) } }
    if r.tls && !authOk then .next (s1.tlsBad (r.cookie % 2 ^ 32))
    else
      let (p, _) := s.parse r.bytes
      let bs := if r.tls then r.bytes.take p.payload ++ plain else r.bytes
      let i : PassInfo := ⟨r.port, r.pass, r.bank, r.epoch, r.cookie % 2 ^ 32, r.decap, r.tls, r.vni, r.tunnel, r.odip⟩
      let s2 := if r.tls then (s1.laneWork (ceilDiv plain.length 16) 0).tlsReceived (r.cookie % 2 ^ 32) else s1
      .next (s2.onePass i bs r.icls r.len r.policed r.yellow r.icrcOk)

/-- EXCEPTION_DRAIN (R329, R433): the management cores take the oldest entry of the exception queue; while firmware is
activated the queue waits. -/
def execExceptionDrain (s : State) : Host.Outcome State Fault Refusal :=
  if s.mbx.activating.isSome then .next s
  else .next { s with ppc := { s.ppc with exq := s.ppc.exq.drop 1 } }

/-! ## Rule banks (R323 to R328) -/

/-- Frames in flight against a bank (R324). -/
def State.inflight (s : State) (bank : Nat) : Nat := (s.ppc.recircs.filter (fun r => r.bank = bank)).length

/-- The standby bank is draining (R324). -/
def State.draining (s : State) : Bool := s.inflight (1 - s.ppc.cur) ≠ 0

/-- A swap takes effect: the standby bank becomes current and EPOCH rises (R323). -/
def State.swapNow (s : State) : State :=
  { s with ppc := { s.ppc with
      cur := 1 - s.ppc.cur, epoch := (s.ppc.epoch + 1) % 65536, swap := none, recompile := false } }

/-- A swap requested (R325): at once, or waiting up to 1 ms while the standby bank drains. -/
def State.requestSwap (s : State) (by_ : Option (Master × Nat)) : State :=
  if s.ppc.swap.isSome then s
  else if s.draining then { s with ppc := { s.ppc with swap := some (s.now + ms 1, by_) } }
  else s.swapNow

/-- BANK_SWAP (R325, R326): `byCommand` is a request of the control owner by another path than REG_WRITE, taken only
while OWNWR is 1; otherwise the management cores ask, who change no bank while OWNWR is 1. -/
def execBankSwap (byCommand : Bool) (s : State) : Host.Outcome State Fault Refusal :=
  if s.cfgBit Reg.ppcUpdcfg 8 = byCommand then .next (s.requestSwap none) else .next s

/-- The table window's entry address is refused (R327; TWADDR): an index above 32,767 of the rule table. -/
def twBad (w : Word) : Bool := fieldOf w 30 29 = 1 && 32767 < fieldOf w 15 0

/-- The window's data as an entry. -/
def State.twEntry (s : State) : List Byte := (natsFrom 0 8).flatMap (fun i => leBytes 4 (s.reg (Reg.ppcTwdata + 4 * i)).toNat)

/-- An entry is written to a table; tables of reserved TABLE values do not exist. -/
def State.putEntry (s : State) (w : Word) (e : List Byte) : State :=
  let b := fieldOf w 31 31
  let t := fieldOf w 30 29
  let n := fieldOf w 15 0
  if 2 ≤ t then s
  else
    let rest := s.ppc.tables.filter (fun x => !(x.bank = b && x.table = t && x.index = n))
    { s with ppc := { s.ppc with tables := if e = zeroBytes 32 then rest else rest ++ [⟨b, t, n, e⟩] } }

/-- Whether a commit is refused (R327, R328, TWADDR). -/
def State.commitRefused (s : State) : Bool :=
  let w := s.reg Reg.ppcTwaddr
  twBad w || (fieldOf w 31 31 ≠ s.ppc.cur && s.draining) ||
    (match s.ppc.batch with | some l => 1024 ≤ l.length | none => false)

/-- A commit of the window's entry: staged in an open batch, else written (R327, R328). A paused write ends within
its step, since the spec bounds its pause only from above (log 24). -/
def State.tableCommit (s : State) : State :=
  if s.commitRefused then s.raiseFlag Reg.ppcTwctl 9
  else
    let w := s.reg Reg.ppcTwaddr
    match s.ppc.batch with
    | some l => { s with ppc := { s.ppc with batch := some (l ++ [(w, s.twEntry)]) } }
    | none => s.putEntry w s.twEntry

/-- The addressed entry goes whole into the window's data (R326). -/
def State.tableRead (s : State) : State :=
  let w := s.reg Reg.ppcTwaddr
  if twBad w then s.raiseFlag Reg.ppcTwctl 9
  else
    let e := s.entry (fieldOf w 31 31) (fieldOf w 30 29) (fieldOf w 15 0)
    (natsFrom 0 8).foldl (fun t i => t.putReg (Reg.ppcTwdata + 4 * i) (BitVec.ofNat 32 (leAt e (4 * i) 4))) s

/-- A batch opens (R328). -/
def State.batchStart (s : State) : State :=
  if s.ppc.batch.isSome then s.raiseFlag Reg.ppcTwctl 9 else { s with ppc := { s.ppc with batch := some [] } }

/-- A batch ends: its entries are written in staging order, those to a draining bank refused (R327, R328). -/
def State.batchEnd (s : State) : State :=
  match s.ppc.batch with
  | none => s.raiseFlag Reg.ppcTwctl 9
  | some l =>
    let s1 := { s with ppc := { s.ppc with batch := none } }
    l.foldl (fun t e =>
      if fieldOf e.1 31 31 ≠ t.ppc.cur && t.draining then t.raiseFlag Reg.ppcTwctl 9 else t.putEntry e.1 e.2) s1

/-- TABLE_COMMIT (R327). -/
def execTableCommit (s : State) : Host.Outcome State Fault Refusal := .next s.tableCommit

/-- TABLE_READ (R326). -/
def execTableRead (s : State) : Host.Outcome State Fault Refusal := .next s.tableRead

/-- BATCH_START (R328). -/
def execBatchStart (s : State) : Host.Outcome State Fault Refusal := .next s.batchStart

/-- BATCH_END (R328). -/
def execBatchEnd (s : State) : Host.Outcome State Fault Refusal := .next s.batchEnd

/-- The selected policer is that of an absent port, or none: it reads 0 and ignores writes (R6, R331). -/
def State.noPolicer (s : State) : Bool :=
  let i := s.cfg Reg.essPolsel 9 0
  520 ≤ i || (512 ≤ i && !Config.extPort s.part (i - 512))

/-- POLCIR_WRITE (R332): CIR of the selected policer, both its buckets full. -/
def State.polcirWrite (s : State) (w : Word) : State :=
  let c := fieldOf w 19 0
  if 800000 < c || s.noPolicer then s
  else
    let p := s.policer (s.cfg Reg.essPolsel 9 0)
    s.setPolicer { p with cir := c, tc := p.cbs * 1024 * 8000, te := p.ebs * 1024 * 8000, at_ := s.now }

def execPolcirWrite (w : Word) (s : State) : Host.Outcome State Fault Refusal := .next (s.polcirWrite w)

/-- A write of POLBKT: the buckets keep their levels, limited to the new sizes. -/
def State.polbktWrite (s : State) (w : Word) : State :=
  let c := fieldOf w 15 0
  let e := fieldOf w 31 16
  if c < 16 || s.noPolicer then s
  else
    let p := (s.policer (s.cfg Reg.essPolsel 9 0)).fill s.now
    s.setPolicer { p with
      cbs := c, ebs := e, tc := Nat.min p.tc (c * 1024 * 8000), te := Nat.min p.te (e * 1024 * 8000) }

end Sys2Proof.Machine
end

