-- ==== Sys2Proof/Machine/Crossbar.lean ====
section
/-! DEFINITION. The crossbar and egress family (chapter 11): the carousel, transfers and residue, the egress scheduler,
shapers, PFC pauses, congestion notification and sampling. -/

namespace Sys2Proof.Machine

/-! ## Shapers (R356, R362) -/

def State.shaper (s : State) (typ index : Nat) : Shaper :=
  match s.xbr.shapers.find? (fun x => x.typ = typ && x.index = index) with
  | some x => x
  | none => ⟨typ, index, 0, 64, 16, (64 * 1024 * 8000 : Nat), 0, 1024, 0, none⟩

def State.setShaper (s : State) (x : Shaper) : State :=
  { s with xbr := { s.xbr with
      shapers := s.xbr.shapers.filter (fun y => !(y.typ = x.typ && y.index = x.index)) ++ [x] } }

/-- The rate in force in Mb/s; 0 is open. A lowered rate of an open shaper counts from 800 Gb/s (R362). -/
def Shaper.rateNow (x : Shaper) : Nat :=
  if x.eff = 1024 then x.rate else (if x.rate = 0 then 800000 else x.rate) * x.eff / 1024

/-- Tokens at `now`, in 1/8000 byte: 1 Mb/s is one such unit per ns. -/
def Shaper.level (x : Shaper) (now : Nat) : Int :=
  min (x.tokens + ((now - x.at_) * x.rateNow : Nat)) ((x.burst * 1024 * 8000 : Nat))

/-- A shaper allows a frame while its tokens are above zero, or it is open. -/
def Shaper.allows (x : Shaper) (now : Nat) : Bool := x.rateNow = 0 || 0 < x.level now

/-- A frame of `l` bytes is taken from a shaper. -/
def State.chargeShaper (s : State) (typ index l : Nat) : State :=
  let x := s.shaper typ index
  if x.rateNow = 0 then s
  else s.setShaper { x with tokens := x.level s.now - ((l * 8000 : Nat) : Int), at_ := s.now }

/-- The shapers that a copy passes at an external port (R356). -/
def Copy.shapers (c : Copy) : List (Nat × Nat) :=
  if c.port < 4 && c.host < 1024 then [(0, c.host), (1, c.vsid), (2, c.port * 8 + c.cls)] else [(2, c.port * 8 + c.cls)]

def State.shapersAllow (s : State) (c : Copy) : Bool :=
  c.shapers.all (fun e => (s.shaper e.1 e.2).allows s.now)

/-! ## Egress ports -/

def State.egPort (s : State) (p : Nat) : EgPort := s.xbr.ports.getD p {}

def State.setEgPort (s : State) (p : Nat) (e : EgPort) : State :=
  { s with xbr := { s.xbr with ports := setAt s.xbr.ports p e } }

/-- Bytes in a port's egress region, of one class or of all: each frame is stored once (R343). -/
def State.egressUse (s : State) (p : Nat) (cls : Option Nat) : Nat :=
  let q := (s.egPort p).queue.filter (fun e => match cls with | some c => e.2.cls = c | none => true)
  (q.foldl (fun (a : List Nat × Nat) e => if hasNat a.1 e.1 then a else (e.1 :: a.1, a.2 + e.2.len)) ([], 0)).2

def EgPort.isPaused (e : EgPort) (cls now : Nat) : Bool := e.paused.any (fun x => x.1 = cls && now < x.2.2)

/-- The link of an external port is up. -/
def State.extUp (s : State) (p : Nat) : Bool := if p < 4 then hasNat s.mac.hostUp p else (s.fabPort (p - 4)).pcs

/-- A copy of a multicast frame is ready: its port takes it, tokens and no pause (R126, R339). -/
def State.copyReady (s : State) (c : Copy) : Bool :=
  8 ≤ c.port || (s.extUp c.port && s.shapersAllow c && !(s.egPort c.port).isPaused c.cls s.now)

/-- An output has room for a copy (R339); a port that drains for its retrain takes no new frames (R532 step 4). Internal intakes
are taken to have room (log 25). -/
def State.outRoom (s : State) (c : Copy) : Bool :=
  8 ≤ c.port || (!s.lcu.retrains.any (fun r => r.port = c.port && r.phase = .draining)) && s.egressUse c.port none + c.len ≤ ingressSize c.port

/-! ## The carousel (R337 to R339, R344) -/

/-- A match in the making: inputs and outputs taken, and the grants accepted as frame and copy. -/
structure Matching where
  ins : List Nat
  outs : List Nat
  pairs : List (Nat × Nat × Nat)
  deriving DecidableEq, Repr

/-- Outputs that a running transfer holds. -/
def State.busyOuts (s : State) : List Nat := s.xbr.frames.flatMap (fun f => f.moving.map (fun c => c.port))

/-- Inputs that a running transfer holds. -/
def State.busyIns (s : State) : List Nat :=
  (s.xbr.frames.filter (fun f => !f.moving.isEmpty)).map (fun f => f.input)

/-- The first frame of a lane of the virtual output queue from input `i` to output `o`. -/
def State.laneHead (s : State) (i o : Nat) (control : Bool) : Option XFrame :=
  s.xbr.frames.find? (fun f => f.input = i && !f.multicast && f.control = control && f.owed.any (fun c => c.port = o))

/-- The unicast request of input `i` for output `o`: its frame, and whether it is urgent. -/
def State.uniRequest (s : State) (i o : Nat) : Option (Nat × Bool) :=
  let can := fun (f : XFrame) => f.owed.all (fun c => s.outRoom c)
  match s.laneHead i o true with
  | some f => if can f then some (f.id, true) else none
  | none =>
    match s.laneHead i o false with
    | some f => if can f then some (f.id, false) else none
    | none => none

/-- Frames on an input's residue list (R344). -/
def State.residues (s : State) (i : Nat) : Nat := (s.xbr.frames.filter (fun f => f.input = i && f.residue)).length

/-- The multicast frames at an input that owe copies and move none. -/
def State.multiWaiting (s : State) (i : Nat) : List XFrame :=
  s.xbr.frames.filter (fun f => f.input = i && f.multicast && f.moving.isEmpty && !f.owed.isEmpty)

/-- The multicast candidates of an input: its residue list, and the head of its multicast queue (R344). -/
def State.multiFrames (s : State) (i : Nat) : List XFrame :=
  (s.multiWaiting i).filter (fun f => f.residue) ++ ((s.multiWaiting i).filter (fun f => !f.residue)).take 1

/-- Some copy of a frame can go now. -/
def State.someReady (s : State) (f : XFrame) : Bool := f.owed.any (fun c => s.outRoom c && s.copyReady c)

/-- A head that owes no ready copy delays no later frame (R126): such heads of an input go to the residue list while it has
room; the head that finds it full waits and is counted (R344). -/
def State.passHeads (s : State) (i : Nat) : State :=
  let stuck := ((s.multiWaiting i).filter (fun f => !f.residue)).takeWhile (fun f => !s.someReady f)
  let room := 1024 - s.residues i
  let go := (stuck.take room).map (fun f => f.id)
  let full := (stuck.drop room).head?
  let mark := fun (f : XFrame) =>
    if hasNat go f.id then { f with residue := true }
    else if full.any (fun h => h.id = f.id) then { f with held := true } else f
  let s1 := { s with xbr := { s.xbr with frames := s.xbr.frames.map mark } }
  if full.any (fun h => !h.held) then s1.bump Reg.xbrResfull else s1

/-- The multicast request of input `i` for output `o`. -/
def State.multiRequest (s : State) (i o : Nat) : Option (Nat × Bool) :=
  ((s.multiFrames i).find? (fun f => f.owed.any (fun c => c.port = o && s.outRoom c && s.copyReady c))).map
    (fun f => (f.id, false))

/-- Whether an input's turn is multicast: it alternates after each completed transfer when it holds both (R338). -/
def State.multiTurn (s : State) (i : Nat) : Bool :=
  let m := (natsFrom 0 14).any (fun o => (s.multiRequest i o).isSome)
  let u := (natsFrom 0 14).any (fun o => (s.uniRequest i o).isSome)
  m && !(u && hasNat s.xbr.lastMulti i)

def State.request (s : State) (i o : Nat) : Option (Nat × Bool) :=
  if s.multiTurn i then s.multiRequest i o else s.uniRequest i o

/-- Ports in ascending order from a pointer, wrapping after 13. -/
def fromPtr (p : Nat) : List Nat := (natsFrom p (14 - p)) ++ natsFrom 0 p

/-- The grant of output `o`: the first urgent request at or after its pointer, else the first request. -/
def State.grantOf (s : State) (m : Matching) (o : Nat) : Option (Nat × Nat × Nat) :=
  if hasNat m.outs o then none
  else
    let ins := (fromPtr (s.xbr.grant.getD o 0)).filter (fun i => !hasNat m.ins i)
    let reqs := ins.filterMap (fun i => (s.request i o).map (fun r => (i, r)))
    match (reqs.find? (fun r => r.2.2)).orElse (fun _ => reqs.head?) with
    | some r => some (o, r.1, r.2.1)
    | none => none

/-- What input `i` accepts of the grants (output, input, frame). -/
def State.acceptOf (s : State) (gs : List (Nat × Nat × Nat)) (i : Nat) : List (Nat × Nat × Nat) :=
  let mine := gs.filter (fun g => g.2.1 = i)
  if s.multiTurn i then
    (match mine with
     | [] => []
     | g :: _ => mine.filter (fun x => x.2.2 = g.2.2))
  else
    match (fromPtr (s.xbr.accept.getD i 0)).find? (fun o => mine.any (fun g => g.1 = o)) with
    | some o => mine.filter (fun g => g.1 = o)
    | none => []

/-- One iteration: the new pairs, and the matching with them. -/
def State.iterate (s : State) (m : Matching) : List (Nat × Nat × Nat) × Matching :=
  let gs := (natsFrom 0 14).filterMap (fun o => s.grantOf m o)
  let acc := (natsFrom 0 14).flatMap (fun i => s.acceptOf gs i)
  (acc, ⟨m.ins ++ acc.map (fun g => g.2.1), m.outs ++ acc.map (fun g => g.1), m.pairs ++ acc⟩)

/-- Further iterations. -/
def State.iterateN (s : State) : Nat → Matching → Matching
  | 0, m => m
  | n + 1, m => s.iterateN n (s.iterate m).2

/-- The pointers after the first iteration's matches (R338); a multicast match leaves its input's pointer. -/
def State.movePtrs (s : State) (acc : List (Nat × Nat × Nat)) : State :=
  acc.foldl (fun t g =>
    let t1 := { t with xbr := { t.xbr with grant := setAt t.xbr.grant g.1 ((g.2.1 + 1) % 14) } }
    if s.multiTurn g.2.1 then t1
    else { t1 with xbr := { t1.xbr with accept := setAt t1.xbr.accept g.2.1 ((g.1 + 1) % 14) } }) s

/-- CAROUSEL_MATCH (R338): one datapath cycle of matching. Matched copies begin their transfer. -/
def execCarouselMatch (s0 : State) : Host.Outcome State Fault Refusal :=
  let s := (natsFrom 0 14).foldl State.passHeads s0
  let m0 : Matching := ⟨s.busyIns, s.busyOuts, []⟩
  let (acc1, m1) := s.iterate m0
  let m := s.iterateN (s.cfg Reg.xbrCfg 2 0 - 1) m1
  let lost := (natsFrom 0 14).filter (fun i => !hasNat m.ins i && (natsFrom 0 14).any (fun o => (s.request i o).isSome))
  let s1 := s.movePtrs acc1
  let fs := s1.xbr.frames.map (fun f =>
    let outs := (m.pairs.filter (fun g => g.2.2 = f.id)).map (fun g => g.1)
    if outs.isEmpty then f
    else { f with
      owed := f.owed.filter (fun c => !hasNat outs c.port), moving := f.owed.filter (fun c => hasNat outs c.port) })
  let s2 := { s1 with xbr := { s1.xbr with frames := fs } }
  .next (lost.foldl (fun t i => t.hostEvent 0x18 i none 1) s2)

/-! ## Egress queues and weighted fair queueing (R351 to R355) -/

/-- Length L of R354. -/
def State.lenOf (s : State) (c : Copy) : Nat := c.len + s.cfg (Reg.essPortcfg + 4 * c.port) 7 0

/-- Weight of a class on a port, and of a queue. -/
def State.classWeight (s : State) (p cls : Nat) : Nat :=
  if cls < 4 then s.cfg (Reg.essTcwgtl + 8 * p) (8 * cls + 7) (8 * cls)
  else s.cfg (Reg.essTcwgth + 8 * p) (8 * (cls - 4) + 7) (8 * (cls - 4))

def State.queueWeight (s : State) (p host : Nat) : Nat :=
  if p < 4 && host < 1024 then (s.shaper 0 host).weight else 16

/-- A tag in 48 bits. -/
def wfqStep (start len w : Nat) : Nat := (start + len * 256 / Nat.max w 1) % 2 ^ 48

/-- The queue of a class and host index on a port: its frames in arrival order. -/
def EgPort.queueOf (e : EgPort) (cls host : Nat) : List (Nat × Copy) :=
  e.queue.filter (fun x => x.2.cls = cls && x.2.host = host)

def findWfq (l : List WfqTag) (cls host : Nat) : WfqTag :=
  match l.find? (fun t => t.cls = cls && t.host = host) with
  | some t => t
  | none => ⟨cls, host, 0, 0, 0⟩

def findCls (l : List WfqTag) (cls : Nat) : WfqTag :=
  match l.find? (fun t => t.cls = cls) with
  | some t => t
  | none => ⟨cls, 0, 0, 0, 0⟩

/-- A queue's head gets its tags: it became backlogged, or sent (R354). -/
def State.tagQueue (s : State) (p : Nat) (e : EgPort) (cls host : Nat) : EgPort :=
  match (e.queueOf cls host).head? with
  | none => e
  | some (_, c) =>
    let t := findWfq e.qtags cls host
    let st := Nat.max e.vq t.last
    let rest := e.qtags.filter (fun x => !(x.cls = cls && x.host = host))
    { e with qtags := rest ++ [{ t with start := st, fin := wfqStep st (s.lenOf c) (s.queueWeight p host) }] }

/-- A class's start tag when it becomes backlogged or has sent. -/
def tagClass (e : EgPort) (cls : Nat) : EgPort :=
  let t := findCls e.ctags cls
  { e with ctags := e.ctags.filter (fun x => x.cls ≠ cls) ++ [{ t with start := Nat.max e.vc t.last, host := 0 }] }

/-- A copy joins its queue. -/
def State.enqueue (s : State) (p fid : Nat) (c : Copy) : State :=
  let e := s.egPort p
  let newQ := (e.queueOf c.cls c.host).isEmpty
  let newC := !e.queue.any (fun x => x.2.cls = c.cls)
  let e1 := { e with queue := e.queue ++ [(fid, c)] }
  let e2 := if newQ then s.tagQueue p e1 c.cls c.host else e1
  s.setEgPort p (if newC then tagClass e2 c.cls else e2)

/-- The ECN decision for a copy at a host port (R361): between the thresholds the draw is a free value (log 4). -/
def State.ecnMark (s : State) (c : Copy) : State :=
  let r := Reg.essEcn + 4 * c.cls
  if 4 ≤ c.port || !c.ect || !s.cfgBit r 31 then s
  else
    let q := s.egressUse c.port (some c.cls)
    let kmin := s.cfg r 7 0 * 16384
    let kmax := s.cfg r 15 8 * 16384
    if q ≤ kmin then s
    else if kmax ≤ q then s.bump Reg.essEcnmark
    else
      let s1 := s.tookFree
      if s.freeNow % (100 * (kmax - kmin)) < s.cfg r 22 16 * (q - kmin) then s1.bump Reg.essEcnmark else s1

/-- TRANSFER_COMPLETE (R343, R344): the copies whose transfer ran are queued at their ports or taken by their engines, but
for those withdrawn meanwhile (R129, R345). Copies still owed make the frame residue, while the list of 1,024 has room; a
frame that owes nothing leaves its input, and PFC is judged there (R359). -/
def execTransferComplete (input : Nat) (s : State) : Host.Outcome State Fault Refusal :=
  match s.xbr.frames.find? (fun f => f.input = input && !f.moving.isEmpty) with
  | none => .next s
  | some f =>
    let s1 := f.moving.foldl (fun t c => if c.port < 8 && !c.dropped then (t.ecnMark c).enqueue c.port f.id c else t) s
    let lm := if f.multicast then addNat s1.xbr.lastMulti input else dropNat s1.xbr.lastMulti input
    let full := 1024 ≤ s1.residues input
    let keep := !f.owed.isEmpty
    let fs := if keep then updWhere (fun x => x.id = f.id)
        (fun x => { x with moving := [], residue := x.residue || !full, held := x.held || full }) s1.xbr.frames
      else s1.xbr.frames.filter (fun x => x.id ≠ f.id)
    let s2 := { s1 with xbr := { s1.xbr with frames := fs, lastMulti := lm } }
    let s3 := if keep && full && !f.residue && !f.held then s2.bump Reg.xbrResfull else s2
    .next (if keep || 8 ≤ input then s3 else s3.pfcJudge input f.icls)

/-- A port's link goes down: its queued frames are discarded and counted (R341). -/
def State.flushEgress (s : State) (p : Nat) : State :=
  let e := s.egPort p
  (s.setEgPort p { paused := e.paused }).bumpBy Reg.essLinkflush e.queue.length

/-! ## TLS records and MACsec packets sent (R380, R384) -/

/-- A pending write key takes effect once the peer holds its XPORT record (R384). -/
def State.switchKeys (s : State) : State :=
  let f := fun (t : TlsCtx) => match t.pendingKey with
    | some (k, m) => if s.peerHolds m then { t with txKey := k, txCount := 0, pendingKey := none } else t
    | none => t
  { s with kvt := { s.kvt with tls := s.kvt.tls.map f } }

/-- One TLS record sent on a connection: after 2^24 under one write key, KeyUpdate goes out and a new write key, a
free value, waits for the peer (R384). -/
def State.tlsSent (s : State) (conn : Nat) : State :=
  match s.kvt.tls.find? (fun t => t.conn = conn) with
  | none => s
  | some t =>
    let upd := fun (u : State) (f : TlsCtx → TlsCtx) =>
      { u with kvt := { u.kvt with tls := updWhere (fun x => x.conn = conn) f u.kvt.tls } }
    let s1 := upd s (fun x => { x with txCount := x.txCount + 1 })
    if t.txCount + 1 < 2 ^ 24 || t.pendingKey.isSome then s1
    else
      let s2 := ((s1.emit (.tls conn 24)).bump Reg.iclKeyupd).sendXport conn
      (upd s2.tookFree (fun x => { x with pendingKey := some (s2.freeNow, s2.lastMseq) })).switchKeys

/-! ## Transmission (R353) -/

/-- Whether a queue's head may leave now. -/
def State.headOk (s : State) (e : EgPort) (cls host : Nat) : Bool :=
  match (e.queueOf cls host).head? with
  | some (_, c) => s.shapersAllow c
  | none => false

/-- The queue of a class with the smallest finish tag among the eligible ones; equal tags go to the lower index. Tags
within half the number space compare by their difference (serial arithmetic). -/
def State.bestQueue (s : State) (e : EgPort) (cls : Nat) : Option WfqTag :=
  let hosts := ((e.queue.filter (fun x => x.2.cls = cls)).map (fun x => x.2.host)).foldl addNat []
  let ok := (hosts.filter (fun h => s.headOk e cls h)).map (fun h => findWfq e.qtags cls h)
  ok.foldl (fun b t => match b with
    | none => some t
    | some x =>
      if t.fin = x.fin then (if t.host < x.host then some t else b)
      else if (x.fin + 2 ^ 48 - t.fin) % 2 ^ 48 < 2 ^ 47 then some t else b) none

/-- The finish tag of a class, for the head that its choice would send; it is computed anew when that length changes
(R354). -/
def State.classTag (s : State) (p : Nat) (e : EgPort) (cls : Nat) (q : WfqTag) : WfqTag :=
  let t := findCls e.ctags cls
  let l := match (e.queueOf cls q.host).head? with | some (_, c) => s.lenOf c | none => 0
  if t.host = l then t else { t with host := l, fin := wfqStep t.start l (s.classWeight p cls) }

/-- The choice of R353 on a port: class tag and queue tag. -/
def State.choose (s : State) (p : Nat) : Option (WfqTag × WfqTag) :=
  let e := s.egPort p
  let cand := fun (cls : Nat) => if e.isPaused cls s.now then none
    else (s.bestQueue e cls).map (fun q => (s.classTag p e cls q, q))
  match cand 7 with
  | some x => some x
  | none => (natsFrom 0 7).foldl (fun (b : Option (WfqTag × WfqTag)) cls =>
      match cand cls, b with
      | none, _ => b
      | some x, none => some x
      | some x, some y => if x.1.fin ≠ y.1.fin && (y.1.fin + 2 ^ 48 - x.1.fin) % 2 ^ 48 < 2 ^ 47 then some x else b) none

/-! ## Pauses and congestion notification (R360, R362) -/

/-- A pause of a class ends or is replaced: the paused cycles are counted (R552). -/
def State.endPause (s : State) (port cls : Nat) : State :=
  let e := s.egPort port
  match e.paused.find? (fun x => x.1 = cls) with
  | none => s
  | some x =>
    let s1 := s.setEgPort port { e with paused := e.paused.filter (fun y => y.1 ≠ cls) }
    s1.hostEvent 0x14 port (some cls) ((Nat.min s.now x.2.2 - x.2.1) * 9 / 5)

/-- PFC_FRAME_RECEIVE (R360): each class named is paused for its quanta of 0.64 ns on a host port, 1.28 ns on a fabric
port; 0 quanta ends the pause. -/
def execPfcFrameReceive (port : Nat) (quanta : List (Option Nat)) (s : State) : Host.Outcome State Fault Refusal :=
  if 8 ≤ port then .next s
  else
    let s0 := s.bump (Reg.macPfcrx + 0x40 * port)
    .next ((natsFrom 0 8).foldl (fun t c =>
      match quanta.getD c none with
      | none => t
      | some q =>
        let t1 := t.endPause port c
        if q = 0 then t1
        else
          let e := t1.egPort port
          let d := ceilDiv (q * (if port < 4 then 64 else 128)) 100
          t1.setEgPort port { e with paused := e.paused ++ [(c, s.now, s.now + d)] }) s0)

/-- PAUSE_EXPIRY (R360): the time of a pause has run out. -/
def execPauseExpiry (port cls : Nat) (s : State) : Host.Outcome State Fault Refusal :=
  if (s.egPort port).paused.any (fun x => x.1 = cls && x.2.2 ≤ s.now) then .next (s.endPause port cls) else .next s

/-- The host index of a connection's host (R352). -/
def State.hostOf (s : State) (conn : Nat) : Option Nat :=
  match s.findConn conn with
  | some k =>
    (match k.bound with
     | some (c, _) =>
       (match s.findCtrl c with
        | some x => (s.hce.hostIdx.find? (fun e => e.2 = x.hostNqn)).map (fun e => e.1)
        | none => none)
     | none => none)
  | none => none

/-- CNP_RECEIVE (R362): while REACT is 1, the effective rate of the host's shaper halves, at most once per GAP and not
below 1/64 of the configured rate. -/
def execCnpReceive (conn : Nat) (s : State) : Host.Outcome State Fault Refusal :=
  let s1 := s.bump Reg.essCnprx
  match s.hostOf conn with
  | none => .next s1
  | some h =>
    if !s.cfgBit Reg.essCnpcfg 31 then .next s1
    else
      let x := s.shaper 0 h
      let rec_ := some (s.now + us (s.cfg Reg.essCnpcfg 15 8))
      if s.now < x.reactAt then .next (s1.setShaper { x with recovAt := rec_ })
      else
        .next (s1.setShaper { x with
          tokens := x.level s.now, at_ := s.now, eff := Nat.max 16 (x.eff / 2),
          reactAt := s.now + us (s.cfg Reg.essCnpcfg 7 0), recovAt := rec_ })

/-- RATE_RECOVERY (R362): RECOV µs without a CNP raise the effective rate by 1/16 of the configured rate. -/
def execRateRecovery (host : Nat) (s : State) : Host.Outcome State Fault Refusal :=
  let x := s.shaper 0 host
  if !due x.recovAt s.now then .next s
  else
    let e := Nat.min 1024 (x.eff + 64)
    .next (s.setShaper { x with
      tokens := x.level s.now, at_ := s.now, eff := e,
      recovAt := if e = 1024 then none else some (s.now + us (s.cfg Reg.essCnpcfg 15 8)) })

/-! ## Sampling and occupancy (R347 to R350) -/

/-- Whether a sample point is enabled: points 0 to 7 are ingress, 8 to 15 egress. -/
def State.pointOn (s : State) (pt : Nat) : Bool :=
  s.cfgBit Reg.xbrSampcfg 31 && s.cfgBit Reg.xbrSampcfg (pt % 8) && s.cfgBit Reg.xbrSampcfg (if pt < 8 then 16 else 17)

/-- The descriptor of a sample (R349). -/
def State.sampleDesc (s : State) (pt held orig : Nat) : List Byte :=
  leBytes 1 (pt % 8 + (if pt < 8 then 0 else 128)) ++ leBytes 1 (if held < orig then 1 else 0) ++ leBytes 2 held ++
  leBytes 2 (orig + 4) ++ zeroBytes 2 ++ leBytes 8 (s.portTs (pt % 8)) ++ leBytes 4 s.xbr.sampleSeq ++ zeroBytes 12

/-- A sample is taken (R349, R350). -/
def State.takeSample (s : State) (pt : Nat) (bytes : List Byte) : State :=
  let fr := bytes.take 256
  let s1 := { s with xbr := { s.xbr with sampleSeq := (s.xbr.sampleSeq + 1) % 2 ^ 32 } }
  if 1024 ≤ s.xbr.samples.length then s1.bump Reg.xbrSampdrop
  else
    let d := s.sampleDesc pt fr.length bytes.length
    ({ s1 with xbr := { s1.xbr with samples := s1.xbr.samples ++ [(d, fr)] } }).bump Reg.xbrSampled

/-- SAMPLE (R347, R348): a frame passes a sample point; when the point's countdown ends it is sampled, and the next
frame draws a new value from 1 to 2N − 1, a free value (log 4). -/
def execSample (point : Nat) (bytes : List Byte) (s : State) : Host.Outcome State Fault Refusal :=
  if 16 ≤ point || !s.pointOn point then .next s
  else
    let n := s.cfg Reg.xbrSampn 19 0 + 1
    let (c, s1) := match s.xbr.countdown.getD point none with
      | some c => (c, s)
      | none => (1 + s.freeNow % (2 * n - 1), s.tookFree)
    let put := fun (t : State) (v : Option Nat) => { t with xbr := { t.xbr with countdown := setAt t.xbr.countdown point v } }
    if c ≤ 1 then .next ((put s1 none).takeSample point bytes) else .next (put s1 (some (c - 1)))

/-- SAMPLING_CONFIG_WRITE (R348): a write of XBR.SAMPN (`ratio`) or XBR.SAMPCFG reloads every countdown. -/
def State.samplingWrite (s : State) (ratio : Bool) (w : Word) : State :=
  let a := if ratio then Reg.xbrSampn else Reg.xbrSampcfg
  let s1 := s.putReg a (w &&& regKept a)
  { s1 with xbr := { s1.xbr with countdown := List.replicate 16 none } }

def execSamplingConfigWrite (ratio : Bool) (w : Word) (s : State) : Host.Outcome State Fault Refusal :=
  .next (s.samplingWrite ratio w)

/-- SAMPLE_QUEUE_DRAIN (R350): the management cores take the oldest sample. -/
def execSampleQueueDrain (s : State) : Host.Outcome State Fault Refusal :=
  .next { s with xbr := { s.xbr with samples := s.xbr.samples.drop 1 } }

/-- OCCQRY_WRITE (R340; XBR.OCCQRY): the occupancy that the written word selects is latched in XBR.OCCDATA. -/
def State.occWrite (s : State) (w : Word) : State :=
  let p := fieldOf w 18 16
  let all := fieldOf w 3 3 = 1
  let c := fieldOf w 2 0
  let cls := if all then none else some c
  let eg := fieldOf w 8 8 = 1
  let n := if eg then s.egressUse p cls else s.ingressUse p cls
  let st := !all && (if eg then (s.egPort p).isPaused c s.now else s.inXoff p c)
  let s1 := s.putReg Reg.xbrOccqry (w &&& regKept Reg.xbrOccqry)
  { s1 with xbr := { s1.xbr with occData := placeBit st 31 ||| place (satAt 0x1FFF (ceilDiv n 1024)) 0 } }

def execOccqryWrite (w : Word) (s : State) : Host.Outcome State Fault Refusal := .next (s.occWrite w)

end Sys2Proof.Machine
end

