-- ==== Sys2Proof/Machine/Perf.lean ====
section
/-! DEFINITION. The performance monitor (chapter 18): counter sets, their registers and commands, and the box
office. -/

namespace Sys2Proof.Machine

/-- The events of R552. -/
def pmuEvents : List Nat :=
  natsFrom 0x00 11 ++ natsFrom 0x10 5 ++ [0x18] ++ natsFrom 0x20 5 ++ [0x28, 0x30, 0x31, 0x38, 0x39, 0x40, 0x41]

/-- Set and bank offset of a PMU bank address (R566). -/
def pmuBank (a : Nat) : Option (Nat × Nat) :=
  if Reg.pmuCfg ≤ a && a < Reg.pmuCfg + 0x400 then some ((a - Reg.pmuCfg) / 0x100, (a - Reg.pmuCfg) % 0x100) else none

def State.pmuSet (s : State) (v : Nat) : PmuSet := s.pmu.sets.getD v {}

def State.setPmuSet (s : State) (v : Nat) (f : PmuSet → PmuSet) : State :=
  { s with pmu := { s.pmu with sets := setAt s.pmu.sets v (f (s.pmuSet v)) } }

/-- The live value of a cycle or counter register of a bank offset, and whether it is one (R557, R562). -/
def State.pmuLive (s : State) (v o : Nat) : Option Nat :=
  let chain := s.cfgBit (Reg.pmuCfg + 0x100 * v) 1
  if o = 0x08 then some (s.cycles v % 2 ^ 32)
  else if o = 0x0C then some (s.cycles v / 2 ^ 32)
  else if 0xC0 ≤ o && o < 0x100 then
    let c := (s.pmuSet v).cnt.getD ((o - 0xC0) / 8) 0
    some (if o % 8 = 0 then c % 2 ^ 32 else if chain then 0 else c / 2 ^ 32)
  else none

/-- A LO register of the monitor. -/
def pmuIsLo (o : Nat) : Bool := o = 0x08 || (0xC0 ≤ o && o % 8 = 0)

/-- What a read of a bank register returns: HI from the holding register when the set's last read was of the matching
LO register (R557). -/
def State.pmuValue (s : State) (v o : Nat) : Option Nat :=
  match (s.pmuSet v).hold with
  | some (lo, up) => if o = lo + 4 then some up else s.pmuLive v o
  | none => s.pmuLive v o

/-- What a read of a bank register leaves: a LO read fills the holding register, any other read ends its validity. -/
def State.pmuTouch (s : State) (a : Nat) : State :=
  match pmuBank a with
  | none => s
  | some (v, o) =>
    s.setPmuSet v (fun p => { p with
      hold := if pmuIsLo o then some (o, (s.pmuLive v (o + 4)).getD 0) else none })

/-- PMU_LO_READ (R557). -/
def execPmuLoRead (addr : Nat) (s : State) : Host.Outcome State Fault Refusal := .next (s.pmuTouch addr)

/-- Counters and OVF bits of a set cleared: `mask` as the VALUE of CNT_CONFIG's clear (R563). -/
def State.pmuClear (s : State) (v mask : Nat) : State :=
  let s1 := s.setPmuSet v (fun p => { p with
    cnt := (natsFrom 0 8).map (fun n => if mask / 2 ^ n % 2 = 1 then 0 else p.cnt.getD n 0)
    base := if mask / 256 % 2 = 1 then 0 else p.base
    from_ := if mask / 256 % 2 = 1 then p.from_.map (fun _ => s.now) else p.from_ })
  if mask / 512 % 2 = 1 then s1.putReg (Reg.pmuOvf + 0x100 * v) 0 else s1

/-- A CFG word written: a change of CHAIN clears every counter and the OVF bits of the set (R562). -/
def State.pmuSetMode (s : State) (v : Nat) (w : Word) : State :=
  let a := Reg.pmuCfg + 0x100 * v
  let s1 := s.putReg a (w &&& 3)
  if s.cfgBit a 1 = s1.cfgBit a 1 then s1 else s1.pmuClear v (0xFF + 512)

/-- A counter programmed: a CTL word that names a reserved event is ignored (R552, R556). -/
def State.pmuProgram (s : State) (v n : Nat) (w : Word) : State :=
  if hasNat pmuEvents (fieldOf w 7 0) then
    let a := pmuReg Reg.pmuCtl v n
    s.putReg a (w &&& regKept a)
  else s

/-- A write of a bank register that is not a plain one: CFG, CTL, counter values (R552, R562; CNTLO, CNTHI). -/
def State.pmuWrite (s : State) (v o : Nat) (w : Word) : State :=
  if o = 0 then s.pmuSetMode v w
  else if 0x40 ≤ o && o < 0xC0 && o % 16 = 0 then s.pmuProgram v ((o - 0x40) / 16) w
  else if 0xC0 ≤ o then
    let n := (o - 0xC0) / 8
    let c := (s.pmuSet v).cnt.getD n 0
    let x := if o % 8 = 0 then c / 2 ^ 32 * 2 ^ 32 + w.toNat
      else if s.cfgBit (Reg.pmuCfg + 0x100 * v) 1 then c
      else c % 2 ^ 32 + fieldOf w 15 0 * 2 ^ 32
    s.setPmuSet v (fun p => { p with cnt := setAt p.cnt n x })
  else s

/-- CNT_CONFIG (R563). -/
def execCntConfig (m : Master) (s : State) : Host.Outcome State Fault Refusal :=
  .next (s.runCmd m 0x0901 (fun c s =>
    let v := byteAt c.params 0
    let op := byteAt c.params 1
    let n := byteAt c.params 2
    let w := BitVec.ofNat 32 (leAt c.params 4 4)
    s.checked m
      [(v ≠ m.num && !c.fromOwner, stNotOwner),
       (3 < v || op = 0 || 3 < op, stInvalidParam),
       (op = 1 && (7 < n || !hasNat pmuEvents (fieldOf w 7 0)), stInvalidParam)]
      (fun s =>
        let s1 :=
          if op = 1 then
            ((s.pmuProgram v n w).putReg (pmuReg Reg.pmuAbase v n) (BitVec.ofNat 32 (leAt c.params 8 4))).putReg
              (pmuReg Reg.pmuAmask v n) (BitVec.ofNat 32 (leAt c.params 12 4))
          else if op = 2 then s.pmuClear v w.toNat
          else s.pmuSetMode v w
        s1.finish m stOk [])))

/-- CFG and OVF of a set, as a result's first 8 bytes. -/
def State.pmuHead (s : State) (v : Nat) : List Byte :=
  leBytes 4 (s.reg (Reg.pmuCfg + 0x100 * v)).toNat ++ leBytes 4 (s.reg (Reg.pmuOvf + 0x100 * v)).toNat

/-- A VSID's record of the box office, zero when nothing was counted. -/
def State.vsRecord (s : State) (v : Nat) : VsRec :=
  match s.pmu.recs.find? (fun r => r.vsid = v) with
  | some r => r
  | none => ⟨v, 0, 0, 0, 0, 0, 0, 0, 0, 0⟩

/-- The 64 bytes of a record (R560). -/
def VsRec.bytes (r : VsRec) : List Byte :=
  leBytes 8 r.stamp ++ leBytes 8 r.rdCmd ++ leBytes 8 r.wrCmd ++ leBytes 8 r.rdBytes ++ leBytes 8 r.wrBytes ++
  leBytes 8 r.rdLat ++ leBytes 8 r.wrLat ++ leBytes 4 r.oth ++ leBytes 4 r.err

/-- Frames and bytes of a rule counter in the box office's table. -/
def State.ruleTotals (s : State) (i : Nat) : Nat × Nat :=
  match s.pmu.rules.find? (fun e => e.1 = i) with
  | some e => e.2
  | none => (0, 0)

/-- CNT_READ (R564). -/
def execCntRead (m : Master) (s : State) : Host.Outcome State Fault Refusal :=
  .next (s.runCmd m 0x0902 (fun c s =>
    let v := byteAt c.params 0
    let kind := byteAt c.params 1
    let start := leAt c.params 4 4
    let cnt := leAt c.params 8 4
    let dmar := c.flags / 8 % 2 = 1
    s.checked m
      [(kind = 0 || 3 < kind || (kind = 1 && 3 < v), stInvalidParam),
       (kind = 2 && (cnt = 0 || 512 < start + cnt || (64 < cnt && !dmar)), stInvalidParam),
       (kind = 3 && (cnt = 0 || 32768 < start + cnt || (255 < cnt && !dmar)), stInvalidParam)]
      (fun s =>
        let res :=
          if kind = 1 then
            let st := leBytes 8 (s.cycles v)
            s.pmuHead v ++ st ++ st ++ (natsFrom 0 8).flatMap (fun n => leBytes 8 ((s.pmuSet v).cnt.getD n 0) ++ st)
          else if kind = 2 then (natsFrom start cnt).flatMap (fun i => (s.vsRecord i).bytes)
          else
            leBytes 8 s.pmu.rulesStamp ++ zeroBytes 8 ++
              (natsFrom start cnt).flatMap (fun i => leBytes 8 (s.ruleTotals i).1 ++ leBytes 8 (s.ruleTotals i).2)
        s.finish m stOk res)))

/-- CNT_SNAPSHOT (R558, R565). -/
def execCntSnapshot (m : Master) (s : State) : Host.Outcome State Fault Refusal :=
  .next (s.runCmd m 0x0903 (fun c s =>
    let v := byteAt c.params 0
    s.checked m [(3 < v, stInvalidParam)] (fun s =>
      s.finish m stOk (s.pmuHead v ++ leBytes 8 (s.cycles v) ++
        (natsFrom 0 8).flatMap (fun n => leBytes 8 ((s.pmuSet v).cnt.getD n 0))))))

/-- BOX_OFFICE_SWEEP (R559): what the blocks counted goes into the tables with the stamp of set 0's cycle counter;
`late` says that the sweep took longer than 1 ms. -/
def execBoxOfficeSweep (late : Bool) (s : State) : Host.Outcome State Fault Refusal :=
  let st := s.cycles 0
  let add := fun (l : List VsRec) (n : VsRec) =>
    let l1 := if l.any (fun r => r.vsid = n.vsid) then l else l ++ [⟨n.vsid, 0, 0, 0, 0, 0, 0, 0, 0, 0⟩]
    updWhere (fun r => r.vsid = n.vsid) (fun r => ({
      vsid := r.vsid, stamp := st, rdCmd := r.rdCmd + n.rdCmd, wrCmd := r.wrCmd + n.wrCmd,
      rdBytes := r.rdBytes + n.rdBytes, wrBytes := r.wrBytes + n.wrBytes, rdLat := r.rdLat + n.rdLat,
      wrLat := r.wrLat + n.wrLat, oth := (r.oth + n.oth) % 2 ^ 32, err := (r.err + n.err) % 2 ^ 32 } : VsRec)) l1
  let addR := fun (l : List (Nat × Nat × Nat)) (n : Nat × Nat × Nat) =>
    if l.any (fun e => e.1 = n.1) then
      updWhere (fun e => e.1 = n.1) (fun e => (e.1, e.2.1 + n.2.1, e.2.2 + n.2.2)) l
    else l ++ [n]
  let s1 := { s with
    pmu := { s.pmu with
      recs := s.pmu.narrow.foldl add s.pmu.recs, narrow := [], rules := s.ppc.ruleCnt.foldl addR s.pmu.rules,
      rulesStamp := st, sweeps := (s.pmu.sweeps + 1) % 2 ^ 31 }
    ppc := { s.ppc with ruleCnt := [] } }
  .next (if late then s1.raiseFlag Reg.pmuBoxstat 31 else s1)

/-- The records of a VSID are zeroed (R561). -/
def State.zeroVsRec (s : State) (v : Nat) : State :=
  { s with pmu := { s.pmu with
      recs := s.pmu.recs.filter (fun r => r.vsid ≠ v), narrow := s.pmu.narrow.filter (fun r => r.vsid ≠ v) } }

end Sys2Proof.Machine
end

