-- ==== Sys2Proof/Machine/Endpoint.lean ====
section
/-! DEFINITION. The service endpoint (chapter 14): link and configuration space, the DMA master, containment, and the
DOE mailbox. Places in configuration space follow R440 and R441 and, inside a capability, the PCI Express base
specification (log 7). -/

namespace Sys2Proof.Machine

def State.updSep (s : State) (f : SepSt → SepSt) : State := { s with sep := f s.sep }

/-- The route of master 0x0 is available (R438). -/
def State.sepRoute (s : State) : Bool := s.sep.linkUp && !s.sep.d3hot && s.sep.mse

/-- Non-posted requests outstanding, and tags in quarantine (R450). -/
def State.npOut (s : State) : Nat := (s.sep.reads.filter (fun r => !r.quarantined)).length
def State.quar (s : State) : Nat := (s.sep.reads.filter (fun r => r.quarantined)).length

/-! ## Errors and containment (R455 to R457) -/

/-- The function enters containment (R456). -/
def State.sepContain (s : State) (cause : Nat) : State :=
  if s.sep.cause ≠ 0 then s else s.updSep (fun x => { x with cause := cause })

/-- An uncorrectable error is logged in AER; one of Fatal severity causes containment (R455, R456). -/
def State.aerUnc (s : State) (bit : Nat) : State :=
  let s0 := s.updSep (fun x => { x with uncStat := x.uncStat ||| place 1 bit })
  let s1 := if s.sep.uncMask.getLsbD bit then s0 else s0.emit (.aer bit)
  if fieldOf s.sep.uncSev bit bit = 1 then s1.sepContain 1 else s1

/-- An advisory non-fatal error is logged: the error's own status and bit 13 of the correctable status. -/
def State.aerAdvisory (s : State) (bit : Nat) : State :=
  let t := s.updSep (fun x => { x with uncStat := x.uncStat ||| place 1 bit, corStat := x.corStat ||| place 1 13 })
  if s.sep.uncMask.getLsbD bit || s.sep.corMask.getLsbD 13 then t else t.emit (.aer bit)

/-! ## The DMA master (R447 to R451) -/

/-- A parameter fetch fails (R451): its command completes with INVALID_PARAM and has no effect. -/
def State.fetchFail (s : State) : State :=
  match s.sep.fetch with
  | none => s
  | some _ =>
    ((s.updSep (fun x => { x with fetch := none })).bump Reg.sepDmafail).finish .service stInvalidParam []

/-- Read requests of a fetch are issued while a request and a tag are free (R447): ascending, at most the maximum
read request size, none across a 4 KiB boundary. The 10-bit tags are those of the base specification that the 8-bit space does not
hold, 768 in all (log 88). -/
def State.pumpFetch : Nat → State → State
  | 0, s => s
  | n + 1, s =>
    match s.sep.fetch with
    | none => s
    | some f =>
      if f.left = 0 || 64 ≤ s.npOut || !s.dmaUp then s
      else
        let tags := if s.sep.tag10 then natsFrom 256 768 else natsFrom 0 256
        match tags.find? (fun t => !s.sep.reads.any (fun r => r.tag = t)) with
        | none => s
        | some t =>
          let mrrs := 128 * 2 ^ fieldOf s.sep.devCtl 14 12
          let len := Nat.min (Nat.min mrrs (4096 - f.next % 4096)) f.left
          let s1 := s.updSep (fun x => { x with
            reads := x.reads ++ [⟨t, f.next, len, s.now, false⟩],
            fetch := some { f with next := f.next + len, left := f.left - len } })
          State.pumpFetch n (s1.emit (.dmaRead t f.next len))

/-- A fetch of a DMAP command starts, or fails at once, as it does for one posted without Bus Master Enable (R451). -/
def State.startFetch (s : State) (addr len : Nat) (noDma : Bool) : State :=
  let s1 := s.updSep (fun x => { x with fetch := some ⟨addr, len, []⟩ })
  if s.dmaAlive && !noDma then State.pumpFetch 64 s1 else s1.fetchFail

/-- The bytes of a finished fetch, in address order. -/
def fetchBytes : Nat → Nat → List (Nat × List Byte) → List Byte
  | 0, _, _ => []
  | n + 1, a, l =>
    match l.find? (fun e => e.1 = a) with
    | some e => e.2 ++ fetchBytes n (a + e.2.length) l
    | none => []

/-- A fetch with every byte arrived hands the parameters to its command (R411). -/
def State.fetchDone (s : State) : State :=
  match s.sep.fetch, s.cmdOf .service with
  | some f, some c =>
    if f.left = 0 && s.npOut = 0 then
      let bs := fetchBytes f.got.length c.daddr f.got
      let cs := updWhere (fun d => d.m = .service) (fun d => { d with params := d.params ++ bs, fetching := false }) s.mbx.cmds
      { s with sep := { s.sep with fetch := none }, mbx := { s.mbx with cmds := cs } }
    else s
  | _, _ => s

/-- A tag returns. -/
def State.dropRead (s : State) (tag : Nat) : State :=
  s.updSep (fun x => { x with reads := x.reads.filter (fun r => r.tag ≠ tag) })

/-- DMA_COMPLETION (R447, R450, R451): a piece of a read at its address, a failed read, or a late completion. -/
def execDmaCompletion (tag addr : Nat) (status : DmaCpl) (bytes : List Byte) (s : State) :
    Host.Outcome State Fault Refusal :=
  match s.sep.reads.find? (fun r => r.tag = tag) with
  | none => .next (s.aerAdvisory 16)
  | some r =>
    if r.quarantined then
      .next (State.pumpFetch 64 (((s.dropRead tag).bump Reg.sepLateCpl).aerAdvisory 16))
    else
      match status with
      | .success =>
        let left := r.left - bytes.length
        let s1 := if left = 0 then s.dropRead tag
          else s.updSep (fun x => { x with
            reads := updWhere (fun y => y.tag = tag) (fun y => { y with left := left }) x.reads })
        if !s.dmaAlive then .next s1
        else
          let s2 := s1.updSep (fun x => { x with
            fetch := x.fetch.map (fun f => { f with got := f.got ++ [(addr, bytes)] }) })
          .next (State.pumpFetch 64 s2).fetchDone
      | .poisoned =>
        let s1 := ((s.dropRead tag).fetchFail).aerUnc 12
        .next (if s.cfgBit Reg.sepCfg 1 then s1.sepContain 2 else s1)
      | .malformed => .next (((s.dropRead tag).fetchFail).aerUnc 18)
      | .unsupported | .abort | .retry => .next (s.dropRead tag).fetchFail

/-- COMPLETION_TIMEOUT (R449, R450): 50 ms, −5 %, after its issue a read is reported, counted and its tag quarantined. -/
def execCompletionTimeout (tag : Nat) (s : State) : Host.Outcome State Fault Refusal :=
  match s.sep.reads.find? (fun r => r.tag = tag && !r.quarantined) with
  | none => .next s
  | some r =>
    if s.now < r.issuedAt + us 47500 then .next s
    else
      let s1 := s.updSep (fun x => { x with
        reads := updWhere (fun y => y.tag = tag) (fun y => { y with quarantined := true }) x.reads })
      .next (((s1.bump Reg.sepCto).fetchFail).aerUnc 14)

/-- QUARANTINE_EXPIRY (R450): 100 ms after the request was issued its tag is free again. -/
def execQuarantineExpiry (tag : Nat) (s : State) : Host.Outcome State Fault Refusal :=
  if s.sep.reads.any (fun r => r.tag = tag && r.quarantined && r.issuedAt + ms 100 ≤ s.now) then
    .next (State.pumpFetch 64 (s.dropRead tag))
  else .next s

/-! ## Function resets (R453, R454) -/

/-- A reset of the function begins: requests stop and a fetch fails. -/
def State.flrBegin (s : State) : State := (s.updSep (fun x => { x with flr := true })).fetchFail

/-- The configuration registers that a function reset resets (R453). -/
def SepSt.resetCfg (x : SepSt) : SepSt :=
  { x with
    mse := false, bme := false, parity := false, serr := false, d3hot := false, bar0 := 0, bar2 := 0,
    devCtl := 0x00002810, tag10 := false, msixEn := false, msixMask := false,
    vectors := [(0, 0, true), (0, 0, true)], pba := [], doe := none }

/-- Vectors that wait are sent once they may be (R446, R452). -/
def State.msiFlush (s : State) : State :=
  if s.sep.msixEn && s.dmaUp then s.sep.pba.foldl (fun t v => t.sendMsi v) (s.updSep (fun x => { x with pba := [] })) else s

/-- Containment ends (R457). -/
def State.sepRelease (s : State) : State :=
  if s.sep.cause = 0 then s
  else ((s.updSep (fun x => { x with cause := 0, relPend := none })).sepEvent 3).msiFlush

/-- FUNCTION_LEVEL_RESET (R453). -/
def execFunctionLevelReset (s : State) : Host.Outcome State Fault Refusal := .next s.flrBegin

/-- FLR_COMPLETE (R453, R457): with every outstanding request retired, the registers are reset. -/
def execFlrComplete (s : State) : Host.Outcome State Fault Refusal :=
  if s.sep.flr && s.npOut = 0 then
    .next ((s.updSep (fun x => { x.resetCfg with flr := false })).sepRelease)
  else .next s

/-- HOT_RESET (R454): as an FLR, and the link retrains. -/
def execHotReset (s : State) : Host.Outcome State Fault Refusal :=
  .next (s.flrBegin.updSep (fun x => { x with linkUp := false, speed := 0, width := 0, reads := [] }))

/-- SEP_PERST_ASSERT (R454). -/
def execSepPerstAssert (s : State) : Host.Outcome State Fault Refusal :=
  .next (s.flrBegin.updSep (fun x => { x with perst := true, linkUp := false, speed := 0, width := 0, reads := [] }))

/-- SEP_PERST_DEASSERT (R438): the link may train. -/
def execSepPerstDeassert (s : State) : Host.Outcome State Fault Refusal :=
  .next (s.updSep (fun x => { x with perst := false }))

/-- SEP_LINK_UP (R437, R438): the link trains while PERST# is deasserted and SEP.CFG.EN is 1. -/
def execSepLinkUp (speed width : Nat) (s : State) : Host.Outcome State Fault Refusal :=
  if s.sep.perst || !s.cfgBit Reg.sepCfg 0 then .next s
  else .next (s.updSep (fun x => { x with linkUp := true, speed := speed, width := width }))

/-- The endpoint's link goes down: a fetch fails, and no tag stays in quarantine (R450, R451). -/
def State.sepDown (s : State) : State :=
  (s.fetchFail).updSep (fun x => { x with linkUp := false, speed := 0, width := 0, reads := [] })

/-- SEP_LINK_DOWN (R450, R451). -/
def execSepLinkDown (s : State) : Host.Outcome State Fault Refusal := .next s.sepDown

/-- A release of containment is asked for: it takes effect within 50 ms (R457). -/
def State.relAsk (s : State) : State :=
  if s.sep.cause = 0 then s else s.updSep (fun x => { x with relPend := some (s.now + ms 50) })

/-- CONTAINMENT_RELEASE (R457). -/
def execContainmentRelease (s : State) : Host.Outcome State Fault Refusal := .next s.relAsk

/-- CONTAINMENT_RELEASE_EFFECT (R457): no request is outstanding, or the 50 ms have passed. -/
def execContainmentReleaseEffect (s : State) : Host.Outcome State Fault Refusal :=
  if s.sep.relPend.isSome && (s.npOut = 0 || due s.sep.relPend s.now) then .next s.sepRelease else .next s

/-! ## Configuration writes (R440 to R442, R452) -/

/-- A word with the enabled bytes replaced. -/
def mergeBytes (old w : Word) (en : BitVec 4) : Word :=
  let m := (natsFrom 0 4).foldl (fun a i => if en.getLsbD i then a ||| place 0xFF (8 * i) else a) 0
  (old &&& ~~~ m) ||| (w &&& m)

/-- The Command register's bits as a word. -/
def SepSt.command (x : SepSt) : Word :=
  placeBit x.mse 1 ||| placeBit x.bme 2 ||| placeBit x.parity 6 ||| placeBit x.serr 8 ||| place 1 10

/-- Bus Master Enable changes (R451, R452): clearing it fails a fetch; setting it sends the vectors that wait. -/
def State.setBme (s : State) (b : Bool) : State :=
  if s.sep.bme && !b then (s.updSep (fun x => { x with bme := false })).fetchFail
  else if !s.sep.bme && b then
    (s.updSep (fun x => { x with bme := true })).msiFlush
  else s

/-- CONFIG_WRITE (R440): a configuration write of one word with byte enables. During an FLR it is answered with retry
status (R453). -/
def execConfigWrite (offset : Nat) (w : Word) (enables : BitVec 4) (s : State) : Host.Outcome State Fault Refusal :=
  let x := s.sep
  if x.flr || !x.linkUp then .next s
  else if offset = 0x04 then
    let c := mergeBytes x.command w enables
    .next ((s.updSep (fun y => { y with
      mse := c.getLsbD 1, parity := c.getLsbD 6, serr := c.getLsbD 8 })).setBme (c.getLsbD 2))
  else if offset = 0x10 then
    let b := mergeBytes (BitVec.ofNat 32 x.bar0) w enables
    .next (s.updSep (fun y => { y with bar0 := x.bar0 / 2 ^ 32 * 2 ^ 32 + b.toNat / 2 ^ 21 * 2 ^ 21 }))
  else if offset = 0x14 then
    let b := mergeBytes (BitVec.ofNat 32 (x.bar0 / 2 ^ 32)) w enables
    .next (s.updSep (fun y => { y with bar0 := b.toNat * 2 ^ 32 + x.bar0 % 2 ^ 32 }))
  else if offset = 0x18 then
    let b := mergeBytes (BitVec.ofNat 32 x.bar2) w enables
    .next (s.updSep (fun y => { y with bar2 := x.bar2 / 2 ^ 32 * 2 ^ 32 + b.toNat / 2 ^ 13 * 2 ^ 13 }))
  else if offset = 0x1C then
    let b := mergeBytes (BitVec.ofNat 32 (x.bar2 / 2 ^ 32)) w enables
    .next (s.updSep (fun y => { y with bar2 := b.toNat * 2 ^ 32 + x.bar2 % 2 ^ 32 }))
  else if offset = 0x44 then
    let ps := fieldOf (mergeBytes (if x.d3hot then 3 else 0) w enables) 1 0
    if ps = 3 then .next (s.updSep (fun y => { y with d3hot := true }))
    else if ps = 0 then .next (State.pumpFetch 64 (s.updSep (fun y => { y with d3hot := false })).msiFlush)
    else .next s
  else if offset = 0x58 then
    let c := mergeBytes x.devCtl w enables
    let s1 := s.updSep (fun y => { y with devCtl := c &&& 0x00007FFF })
    if c.getLsbD 15 then .next s1.flrBegin else .next s1
  else if offset = 0x78 then
    .next (s.updSep (fun y => { y with tag10 := (mergeBytes (placeBit x.tag10 12) w enables).getLsbD 12 }))
  else if offset = 0xB0 then
    let c := mergeBytes (placeBit x.msixEn 31 ||| placeBit x.msixMask 30) w enables
    .next (s.updSep (fun y => { y with msixEn := c.getLsbD 31, msixMask := c.getLsbD 30 })).msiFlush
  else if offset = 0x104 then
    .next (s.updSep (fun y => { y with uncStat := x.uncStat &&& ~~~ (mergeBytes 0 w enables) }))
  else if offset = 0x108 then .next (s.updSep (fun y => { y with uncMask := mergeBytes x.uncMask w enables }))
  else if offset = 0x10C then .next (s.updSep (fun y => { y with uncSev := mergeBytes x.uncSev w enables }))
  else if offset = 0x110 then
    .next (s.updSep (fun y => { y with corStat := x.corStat &&& ~~~ (mergeBytes 0 w enables) }))
  else if offset = 0x114 then .next (s.updSep (fun y => { y with corMask := mergeBytes x.corMask w enables }))
  else if offset = 0x228 then (if (mergeBytes 0 w enables).getLsbD 31 then .next s.relAsk else .next s)
  else .next s

/-! ## Data Object Exchange (R458, R459) -/

/-- A DOE object: vendor 0x0001, type, length in double words, body. -/
def doeObject (typ : Nat) (body : List Byte) : List Byte :=
  leBytes 2 1 ++ leBytes 1 typ ++ zeroBytes 1 ++ leBytes 4 (2 + ceilDiv body.length 4) ++ body

/-- A response of the mailbox. -/
def State.doeReply (s : State) (o : List Byte) : State := (s.updSep (fun x => { x with doe := some o })).emit (.doe o)

/-- An SPDM response: version 1.2, its code, its two parameters and its body; ERROR is code 0x7F with its error code (log
7). -/
def spdmMsg (code p1 p2 : Nat) (body : List Byte) : List Byte := [0x12] ++ beBytes 1 code ++ beBytes 1 p1 ++ beBytes 1 p2 ++ body

def spdmError (e : Nat) : List Byte := spdmMsg 0x7F e 0 []

/-- The measurements of R459: SVN and MINSVN, UNITPRES, and the digests that the spec does not give. -/
def State.measurement (s : State) (i : Nat) : List Byte :=
  if i = 3 then leBytes 4 (if s.mbx.runSlot = 0 then s.mbx.slot0.svn else s.mbx.slot1.svn) ++ leBytes 1 s.mbx.minSvn
  else if i = 4 then leBytes 4 (Config.unitPres s.part).toNat
  else Config.spdmBody 0xE0 i

/-- The responder's answer (R459). -/
def State.spdm (s : State) (r : SpdmReq) : List Byte :=
  let signed := fun (code p : Nat) (body : List Byte) =>
    if s.kvt.st = .selftest then spdmError 0x03
    else if s.kvt.st = .error then spdmError 0x05
    else spdmMsg code p 0 body
  match r with
  | .getVersion => [0x10, 0x04, 0, 0, 0, 2] ++ leBytes 2 0x1100 ++ leBytes 2 0x1200
  | .getCapabilities => spdmMsg 0x61 0 0 ([0, 20] ++ zeroBytes 2 ++ leBytes 4 0x16)
  | .negotiateAlgorithms => spdmMsg 0x63 0 0 (Config.spdmBody 0xE3 0)
  | .getDigests => spdmMsg 0x01 0 1 (Config.spdmBody 0x81 0)
  | .getCertificate slot => if slot = 0 then spdmMsg 0x02 0 0 (Config.spdmBody 0x82 0) else spdmError 0x01
  | .challenge slot => if slot = 0 then signed 0x03 0 (Config.spdmBody 0x83 0) else spdmError 0x01
  | .getMeasurements i => signed 0x60 i (s.measurement i ++ Config.spdmBody 0xE0 0)
  | .other => spdmError 0x07

/-- DOE_REQUEST (R458, R459): Discovery lists the protocols served; CMA/SPDM is not served on the KV-9624-C. -/
def execDoeRequest (obj : DoeObject) (s : State) : Host.Outcome State Fault Refusal :=
  let last := if Config.hasCipher s.part then 1 else 0
  match obj with
  | .discovery i =>
    if i ≤ last then
      .next (s.doeReply (doeObject 0 (leBytes 2 1 ++ leBytes 1 i ++ leBytes 1 (if i < last then i + 1 else 0))))
    else .next (s.doeReply (doeObject 0 (leBytes 2 0xFFFF ++ zeroBytes 2)))
  | .spdm r => if Config.hasCipher s.part then .next (s.doeReply (doeObject 1 (s.spdm r))) else .next s
  | .other => .next s

/-- DOE_ABORT (R458). -/
def execDoeAbort (s : State) : Host.Outcome State Fault Refusal := .next (s.updSep (fun x => { x with doe := none }))

end Sys2Proof.Machine
end

