-- ==== Sys2Proof/Machine/Shared.lean ====
section
/-! DEFINITION. Operations of the fabric and of recovery that several families share: safety-net lines (R167 to R171),
host-port identities (R272, R519), link-state routing (R230 to R232), the mirror link and the peer's state (R80, R81,
R266), ring mastership and resynchronisation (R174, R236 to R238). -/

namespace Sys2Proof.Machine

def State.updRfx (s : State) (f : RfxSt → RfxSt) : State := { s with rfx := f s.rfx }
def State.updTk (s : State) (f : TkSt → TkSt) : State := { s with tk := f s.tk }
def State.updKvt (s : State) (f : KvtSt → KvtSt) : State := { s with kvt := f s.kvt }
/-- A session of the vault ends (R394). -/
def State.endSession (s : State) : State := s.updKvt (fun k => { k with session := none })

def State.updHce (s : State) (f : HceSt → HceSt) : State := { s with hce := f s.hce }
def State.updRge (s : State) (f : RgeSt → RgeSt) : State := { s with rge := f s.rge }

/-! ## Intent journal, ring header and bitmap lines (R167 to R171) -/

/-- The 64 bytes of an open record. -/
def Intent.line (i : Intent) : List Byte :=
  sealLine ([1] ++ leBytes 1 i.ring ++ leBytes 1 i.kind ++ leBytes 1 i.flags ++ leBytes 6 i.stripe ++
    leBytes 2 i.rowmask ++ leBytes 4 i.posmask ++ leBytes 8 i.seq ++ leBytes 4 i.epoch ++ leBytes 4 i.region0 ++
    leBytes 4 i.region1 ++ leBytes 6 i.version)

/-- A line of the journal as an open record, when its STATE and CRC say so (R168). -/
def intentOf (idx : Nat) (l : List Byte) : Option Intent :=
  if lineOk l && byteAt l 0 = 1 then
    some ⟨idx, byteAt l 1 % 8, byteAt l 2, byteAt l 3, leAt l 4 6, leAt l 10 2, leAt l 12 4, leAt l 16 8, leAt l 24 4,
      leAt l 28 4, leAt l 32 4, leAt l 36 6⟩
  else none

/-- The next slot in circular order that is not open (R168). -/
def freeSlot (open_ : List Intent) : Nat → Nat → Nat
  | 0, i => i
  | n + 1, i => if open_.any (fun x => x.idx = i) then freeSlot open_ n ((i + 1) % 262144) else i

/-- An intent record is opened: SEQ rises, the slot is the next free one, the line goes to the peer (R167, R168). -/
def State.openIntent (s : State) (ring kind flags stripe rowmask posmask version : Nat) : State × Nat :=
  let i := freeSlot s.rge.intents s.rge.intents.length s.rge.jnext
  let g := s.findRing ring
  let r0 := (g.map (fun r => r.region0 stripe)).getD 0
  let r1 := (g.map (fun r => r.region1 stripe)).getD 0
  let x : Intent := ⟨i, ring, kind, flags, stripe, rowmask, posmask, s.rge.jseq + 1,
    (g.map (fun r => r.epoch)).getD 0, r0, if r1 = r0 then 0xFFFFFFFF else r1, version⟩
  let s1 := s.updRge (fun e => { e with intents := e.intents ++ [x], jseq := e.jseq + 1, jnext := (i + 1) % 262144 })
  (s1.sendLine 1 i x.line, i)

/-- An own record is freed (R168). -/
def State.freeIntent (s : State) (idx : Nat) : State :=
  (s.updRge (fun e => { e with intents := e.intents.filter (fun x => x.idx ≠ idx) })).sendLine 1 idx (sealLine [])

/-- The ring header line (R171). -/
def Ring.header (r : Ring) : List Byte :=
  sealLine (leBytes 1 r.num ++ leBytes 1 (1 + (if r.resyncAll then 2 else 0)) ++ zeroBytes 2 ++ leBytes 4 r.regions ++
    leBytes 8 r.hdrSeq ++ leBytes 8 r.ckSeq ++ leBytes 1 r.ckSlot ++ zeroBytes 3 ++ leBytes 4 r.epoch)

def State.sendHeader (s : State) (ring : Nat) : State :=
  match s.findRing ring with
  | some r => s.sendLine 2 ring r.header
  | none => s

/-- INDEX of a bitmap line of a ring in its area: the layout of the area among rings is not stated (log 26). -/
def bmIndex (ring line : Nat) : Nat := ring * 2 ^ 20 + line

/-- A bitmap line of a ring (R171). -/
def Ring.bmLine (r : Ring) (line : Nat) : List Byte :=
  sealLine (leBytes 60 (sumNat ((r.bitmap.filter (fun x => x / 480 = line)).map (fun x => 2 ^ (x % 480)))))

/-- The regions whose bit a line sets; of a line whose CRC fails, every one where no other copy is valid, else none (R174). -/
def bmRegions (line : Nat) (l : List Byte) (other : Bool) : List Nat :=
  let all := natsFrom (480 * line) 480
  if lineOk l then
    let v := leNat (l.take 60)
    all.filter (fun x => v / 2 ^ (x % 480) % 2 = 1)
  else if other then [] else all

/-- The bit of a region is set before a member write (R169). -/
def State.setRegion (s : State) (ring region : Nat) : State :=
  match s.findRing ring with
  | none => s
  | some r =>
    if hasNat r.bitmap region || r.regions ≤ region then s
    else
      let s1 := s.updRing ring (fun x => { x with bitmap := x.bitmap ++ [region] })
      s1.sendLine 3 (bmIndex ring (region / 480)) (({ r with bitmap := r.bitmap ++ [region] }).bmLine (region / 480))

/-- The bits of a stripe's regions are set before any member write of the stripe (R169). -/
def State.markStripe (s : State) (r : Ring) (stripe : Nat) : State :=
  (s.setRegion r.num (r.region0 stripe)).setRegion r.num (r.region1 stripe)

/-- The peer's copies of a ring's records: header, open records, regions. -/
def State.peerHeader (s : State) (ring : Nat) : Option (List Byte) :=
  (s.snt.peerLines.find? (fun e => e.1 = 2 && e.2.1 = ring && lineOk e.2.2)).map (fun e => e.2.2)

def State.peerIntents (s : State) (ring : Nat) : List Intent :=
  (s.snt.peerLines.filterMap (fun e => if e.1 = 1 then intentOf e.2.1 e.2.2 else none)).filter (fun i => i.ring = ring)

def State.peerRegions (s : State) (ring : Nat) (own : Bool) : List Nat :=
  s.snt.peerLines.flatMap (fun e => if e.1 = 3 && e.2.1 / 2 ^ 20 = ring then bmRegions (e.2.1 % 2 ^ 20) e.2.2 own else [])

/-! ## Host-port identities (R272, R519, R532) -/

/-- The port that carries identity `i`: 0 to 3 are the module's own, 4 to 7 the peer's after a takeover. -/
def State.identPort (s : State) (i : Nat) : Nat :=
  let l := if i < 4 then s.pwr.idents else s.tk.idents
  ((l.find? (fun e => e.1 = i)).map (fun e => e.2)).getD (i % 4)

/-- Identities on a host port. -/
def State.identsOn (s : State) (p : Nat) : List Nat :=
  (natsFrom 0 4).filter (fun i => s.identPort i = p) ++
  ((s.tk.idents.filter (fun e => e.2 = p)).map (fun e => e.1))

/-- A port that is up and holds only its own identity (R531). -/
def State.ownOnly (s : State) (p : Nat) : Bool := hasNat s.mac.hostUp p && s.identsOn p = [p]

/-- The addresses of an identity's port, each announced at once and twice more at 1 ms (R272). -/
def State.announceIdent (s : State) (i port : Nat) : State :=
  let adds := s.vsm.subs.flatMap (fun v => (v.portals.filter (fun q => q.port = i % 4)).map (fun q => (q.addr, decide (q.af = 6))))
  let s1 := adds.foldl (fun t a => t.emit (.announce port a.1)) s
  s1.updTk (fun k => { k with
    announces := k.announces.filter (fun a => a.id ≠ i) ++
      adds.map (fun a => (⟨i, a.1, a.2, port, 2, s.now + ms 1⟩ : Announce)) })

/-- An identity moves to a host port and is announced there; its connections' frames leave on that port from then on. -/
def State.moveIdent (s : State) (i port : Nat) : State :=
  let old := s.identPort i
  if old = port then s
  else
    let s1 := if i < 4 then
        let l := s.pwr.idents.filter (fun e => e.1 ≠ i)
        { s with pwr := { s.pwr with idents := if i = port then l else l ++ [(i, port)] } }
      else s.updTk (fun k => { k with idents := k.idents.filter (fun e => e.1 ≠ i) ++ [(i, port)] })
    let adds := s.vsm.subs.flatMap (fun v => (v.portals.filter (fun q => q.port = i % 4)).map (fun q => q.addr))
    let goes := fun (k : HConn) => k.port = old && adds.any (fun a => a = k.addr)
    (s1.updHce (fun h => { h with conns := updWhere goes (fun k => { k with port := port }) h.conns })).announceIdent i port

/-! ## Link-state routing (R229 to R233) -/

/-- Flooding: every up fabric port but one (R229). -/
def State.flood (s : State) (except_ : Option Nat) (typ : Nat) (payload : List Byte) : State :=
  let ps := (natsFrom 0 4).filter (fun p => (s.fabPort p).up && except_ ≠ some p)
  ps.foldl (fun t p => t.relti p typ 0x7F payload) s

/-- The links of the module's own LSA: its up ports, but not those whose retrain has begun (R535). -/
def State.ownLinks (s : State) : List LsaLink :=
  ((natsFrom 0 4).filter (fun p => (s.fabPort p).up &&
      !s.lcu.retrains.any (fun r => r.port = 4 + p && r.phase = .routeMove))).map (fun p =>
    ⟨p, (s.fabPort p).nbrFid, (s.fabPort p).nbrPort, hasNat (Config.midplane s.part) p⟩)

/-- The payload of an LSA (R230). -/
def Lsa.bytes (l : Lsa) : List Byte :=
  beBytes 8 l.uid ++ beBytes 1 l.fid ++ beBytes 1 l.links.length ++ zeroBytes 2 ++ beBytes 4 l.seq.toNat ++
  padTo 16 (l.links.flatMap (fun k => beBytes 1 k.port ++ beBytes 1 k.nbrFid ++ beBytes 1 k.nbrPort ++
    beBytes 1 (if k.midplane then 1 else 0)))

/-- A link that module `f` lists is listed by its other end too (R232). -/
def linkUsed (lsas : List Lsa) (f : Nat) (k : LsaLink) : Bool :=
  lsas.any (fun a => a.fid = k.nbrFid && a.links.any (fun l => l.port = k.nbrPort && l.nbrFid = f && l.nbrPort = k.port))

/-- Two modules have a link that both of its ends list. -/
def bothList (lsas : List Lsa) (f g : Nat) : Bool :=
  lsas.any (fun a => a.fid = f && a.links.any (fun k => k.nbrFid = g && linkUsed lsas f k))

/-- One more hop: destinations first reached from those at `h` hops, with the union of their next-hop ports. -/
def routeStep (lsas : List Lsa) (own h : Nat) (l : List (Nat × Nat × List Nat)) : List (Nat × Nat × List Nat) :=
  let news := (lsas.map (fun a => a.fid)).filter (fun f => f ≠ own && !l.any (fun e => e.1 = f))
  l ++ news.filterMap (fun f =>
    let ps := (l.filter (fun e => e.2.1 = h && bothList lsas e.1 f)).flatMap (fun e => e.2.2)
    if ps.isEmpty then none else some (f, h + 1, ps.foldl addNat []))

/-- Shortest paths of at most 8 hops: destination, hops, next-hop ports (R232). -/
def State.computeRoutes (s : State) : List (Nat × Nat × List Nat) :=
  let own := s.rfx.fid
  let me : Lsa := ⟨s.uid, own, s.rfx.lsaSeq, s.ownLinks⟩
  let lsas := me :: s.rfx.lsdb.map (fun e => e.lsa)
  let first := ((lsas.drop 1).map (fun a => a.fid)).filterMap (fun f =>
    let ps := (s.ownLinks.filter (fun k => k.nbrFid = f && linkUsed lsas own k)).map (fun k => k.port)
    if ps.isEmpty then none else some (f, 1, ps))
  (natsFrom 1 7).foldl (fun l h => routeStep lsas own h l) first

/-- Frames of the second holder's stream whose port has gone down are sent again on the new route (R346). -/
def State.resend2 (s : State) : State :=
  match s.port2 with
  | none => s
  | some p =>
    let gone := fun (f : StreamFrame) => !(s.fabPort f.port).up
    (s.rfx.out2.out.filter gone).foldl (fun t f =>
      (t.emit (.stream true f.mseq p f.body)).xbarRelti p (s.cfg Reg.rfxTkcfg 14 8) f.body.typ f.body.size)
      (s.updRfx (fun x => { x with
        out2 := { x.out2 with out := updWhere gone (fun f => { f with port := p, sentAt := s.now }) x.out2.out } }))

/-- The routes follow the database, and with them whether the second holder can be reached (R81, R232). -/
def State.reroute (s : State) : State :=
  let s1 := s.updRfx (fun x => { x with routes := s.computeRoutes })
  let down := s.cfgBit Reg.rfxTkcfg 15 && s.cfg Reg.hceWbctl 9 8 = 2 && s1.port2.isNone
  let s2 := (s1.updTk (fun k => { k with mir2dn := down })).resend2
  if down && !s.tk.mir2dn then
    let waits := fun (r : TagRec) => r.open_ && r.placed && s.rfx.out2.acked < r.dataMseq2
    let vers := (s.hce.tags.filter waits).map (fun r => r.seq) ++ s.rfx.hold2.flatMap (fun e => e.2.2)
    s2.updHce (fun x => { x with
      tags := updWhere waits (fun r => { r with wt := true }) x.tags
      wb := updWhere (fun e => hasNat vers e.ver && !e.committed) (fun e => { e with wt := true }) x.wb })
  else s2

/-- A new LSA of this module, while it holds a FID (R230). -/
def State.sendLsa (s : State) : State :=
  if s.rfx.fidSt ≠ .held then s.reroute
  else
    let n := s.rfx.lsaSeq + 1
    let s1 := s.updRfx (fun x => { x with lsaSeq := n })
    (s1.flood none 4 (Lsa.bytes ⟨s.uid, s.rfx.fid, n, s1.ownLinks⟩)).reroute

/-! ## Becoming ringmaster (R174, R238) -/

/-- Dirty data of a ring changes region: adopted from the mirror, or handed to it (R243, R270). -/
def State.ringRegion (s : State) (ring : Nat) (mirror : Bool) : State :=
  s.updHce (fun x => { x with
    wb := updWhere (fun e => e.ring = ring && e.owner ≤ 1) (fun e => { e with mirror := mirror }) x.wb
    deallocs := updWhere (fun e => e.ring = ring) (fun e => { e with mirror := mirror }) x.deallocs })

/-- Records whose lines are in the journal of a ring: own and peer, in ascending order of SEQ (R174 step 2). -/
def insSeq (i : Intent) : List Intent → List Intent
  | [] => [i]
  | x :: l => if i.seq ≤ x.seq then i :: x :: l else x :: insSeq i l

def State.suspectsOf (s : State) (ring : Nat) : List Intent :=
  ((s.rge.intents.filter (fun i => i.ring = ring)) ++ s.peerIntents ring).foldl (fun l i => insSeq i l) []

/-- The read of a ring's checkpoint slot on a member (R172): block 0 and the lines. -/
def State.readSlot (s : State) (r : Ring) (j : Nat) : State :=
  let n := 1 + ceilDiv (ceilDiv r.regions 480) 64
  s.toSlot r j .read (0x100 + 0x800 * r.num) (natsFrom 0 n) [] false (.checkpoint r.num)

/-- The read of the checkpoint that the header names (R174 step 3). -/
def State.readCheckpoint (s : State) (r : Ring) : State :=
  if r.ckSeq = 0 || r.displaced r.ckSlot then s else s.readSlot r r.ckSlot

/-- A read of a checkpoint of the ring is outstanding. -/
def State.huntRuns (s : State) (ring : Nat) : Bool := s.bay.cmds.any (fun c => c.purpose = .checkpoint ring && c.op = .read)

/-- The search for the newest checkpoint ends with its last read (R174 step 1): with CLEAN set its bitmap governs and no stripe
is suspect; else every stripe is to be verified. -/
def State.endHunt (s : State) (ring : Nat) : State :=
  match s.findRing ring with
  | none => s
  | some r =>
    match r.hunt with
    | none => s
    | some best =>
      if s.huntRuns ring then s
      else
        let r1 := match best with
          | some (seq, true, regs) => { r with
              hunt := none, suspects := [], ckSeq := Nat.max r.ckSeq seq,
              bitmap := (regs.filter (fun x => x < r.regions)).foldl addNat r.bitmap }
          | _ => { r with hunt := none, resyncAll := true, verify := some 0 }
        (s.updRing ring (fun _ => r1)).sendHeader ring

/-- R174 begins: header, intent set and bitmap are taken, and suspects wait in ascending SEQ. Where neither safety-net copy
holds the ring, the newest checkpoint is sought on every member that is not displaced; while the safety net is not in
service no journal can be read, and every stripe is to be verified. A ring in INIT has no records yet. -/
def State.startResync (s : State) (ring : Nat) : State :=
  match s.findRing ring with
  | none => s
  | some r =>
    let ph := s.peerHeader ring
    let pseq := (ph.map (fun l => leAt l 8 8)).getD 0
    let newer := ph.isSome && (!r.hdrOwn || r.hdrSeq < pseq)
    let none_ := ph.isNone && !r.hdrOwn && !r.initRunning
    let ra := r.resyncAll || (!s.snt.ready && !r.initRunning) || (newer && byteAt (ph.getD []) 1 / 2 % 2 = 1)
    let bm := (s.peerRegions ring r.hdrOwn).foldl addNat r.bitmap
    let r1 : Ring := { r with
      hdrSeq := Nat.max r.hdrSeq pseq
      ckSeq := if newer then leAt (ph.getD []) 16 8 else r.ckSeq
      ckSlot := if newer then byteAt (ph.getD []) 24 else r.ckSlot
      suspects := s.suspectsOf ring
      bitmap := bm.filter (fun x => x < r.regions)
      resyncAll := ra
      verify := if ra then some 0 else none
      hdrOwn := true
      hunt := if none_ then some none else none }
    let s1 := (s.updRing ring (fun _ => r1)).sendHeader ring
    if none_ then
      (((natsFrom 0 r.n).filter (fun j => !r.displaced j)).foldl (fun t j => t.readSlot r1 j) s1).endHunt ring
    else s1.readCheckpoint r1

/-- Write Zeroes over the ring data namespace of every member still to be zeroed (R142). -/
def State.issueInit (s : State) (ring : Nat) : State :=
  match s.findRing ring with
  | none => s
  | some r =>
    (natsFrom 0 r.n).foldl (fun t j =>
      let m := r.slotAt j
      if m.initLeft && (m.st = .online || m.st = .stale) then
        t.toSlot r j .writeZeroes 0 [] [] false (.initZero ring j)
      else t) s

/-- The valid copy of a slot's key record with the higher SEQ: own, or the peer's line (R372). -/
def State.newerKey (s : State) (k : KeySlot) : KeySlot :=
  match s.snt.peerLines.find? (fun e => e.1 = 8 && e.2.1 = k.slot && lineOk e.2.2 && k.seq < leAt e.2.2 20 8) with
  | some (_, _, l) => { k with resv := leAt l 8 8, cursor := leAt l 16 4, seq := leAt l 20 8 }
  | none => k

/-- Counting of a ring's namespace keys resumes at RESV (R372), and a rekey of one resumes at CURSOR, its region from the
start (R376). -/
def State.resumeKeys (s : State) (ring : Nat) : State :=
  let mine := (s.vsm.nss.filter (fun n => n.ring = ring && n.keySlot ≠ 0xFFFF)).map (fun n => n.keySlot)
  let slots := s.kvt.slots.map (fun k =>
    if hasNat mine k.slot then
      let x := s.newerKey k
      { x with count := x.resv }
    else k)
  let again := (slots.filter (fun k => hasNat mine k.slot && k.oldMaterial.isSome)).map (fun k =>
    (⟨k.slot, k.cursor, false, 0, none⟩ : Rekey))
  s.updKvt (fun v => { v with slots := slots, rekeys := v.rekeys.filter (fun r => !hasNat mine r.slot) ++ again })

/-- The chunk of a stripe whose own position is member slot `j`, if the stripe has one there (R145). -/
def Ring.chunkOf (r : Ring) (stripe j : Nat) : Option Nat := (natsFrom 0 r.w).find? (fun c => r.homeOf stripe c = j)

/-- Stripes of a turn: 4,096 slabs (R191). -/
def Ring.turnStripes (r : Ring) (turn : Nat) : List Nat :=
  let lo := turn * 4096 * r.d
  natsFrom lo (Nat.min r.stripes (lo + 4096 * r.d) - lo)

/-- Turns of the ring. -/
def Ring.turns (r : Ring) : Nat := ceilDiv r.slabs 4096

/-- A line of the peer's service record of a ring (R212). -/
def State.svcLineOf (s : State) (ring l : Nat) : Option (List Byte) :=
  (s.snt.peerLines.find? (fun e => e.1 = 5 && e.2.1 = bmIndex ring l && lineOk e.2.2)).map (fun e => e.2.2)

/-- The turn map of a slot in the peer's service record: four slots in the header, a map of 205 lines for each. -/
def State.svcDone (s : State) (ring : Nat) (hdr : List Byte) (j turn : Nat) : Bool :=
  match (natsFrom 0 4).find? (fun i => byteAt hdr (2 + i) = j) with
  | none => false
  | some i =>
    match s.svcLineOf ring (1 + 205 * i + turn / 480) with
    | some l => leNat (l.take 60) / 2 ^ (turn % 480) % 2 = 1
    | none => false

/-- Rebuilt copies stay only where the target did not change (R153, R194). -/
def Ring.retarget (old new : Ring) : Ring :=
  { new with slots := ((natsFrom 0 new.slots.length).zip new.slots).map (fun e =>
      { e.2 with rebuilt := e.2.rebuilt.filter (fun st =>
          match old.chunkOf st e.1 with
          | some c => old.targetOf st c = new.targetOf st c
          | none => false) }) }

/-- The bit of a turn in the turn map of a displaced slot (R191, R192): every chunk of the slot in that turn is on its
target or has none; for a slot being replaced, every chunk has been copied back. -/
def Ring.turnDone (r : Ring) (j turn : Nat) : Bool :=
  let m := r.slotAt j
  (r.turnStripes turn).all (fun st =>
    match r.chunkOf st j with
    | none => true
    | some c =>
      if m.st = .replacing then hasNat m.filled (r.chunkSlot st c)
      else (r.targetOf st c).isNone || hasNat m.rebuilt st)

/-- Unmarked turns of a displaced slot. -/
def Ring.turnsLeft (r : Ring) (j : Nat) : Nat :=
  ((natsFrom 0 r.turns).filter (fun t => !r.turnDone j t)).length

/-- Displaced slots in displacement order. -/
def Ring.displacedSlots (r : Ring) : List Nat :=
  (natsFrom 1 r.topOrder).filterMap (fun o => (natsFrom 0 r.n).find? (fun j => (r.slotAt j).dorder = o))

/-- Rebuild and copyback of turns that the turn map does not mark are repeated (R191, R192); `done` is the map of a slot. -/
def Ring.keepTurns (r : Ring) (done : Nat → Nat → Bool) : Ring :=
  let slab := 4096 * Nat.max r.d 1
  let slots := 4096 * Nat.max r.w 1
  { r with slots := ((natsFrom 0 r.slots.length).zip r.slots).map (fun e => { e.2 with
      rebuilt := e.2.rebuilt.filter (fun st => done e.1 (st / slab)),
      filled := e.2.filled.filter (fun c => done e.1 (c / slots)) }) }

/-- A turn map that the service record holds: it has one for each of four displaced slots (R212). -/
def Ring.recordedTurn (r : Ring) (j turn : Nat) : Bool := hasNat (r.displacedSlots.take 4) j && r.turnDone j turn

/-- Progress of rebuild, copyback and patrol as the peer's service record gives it, when that is the newer; work of turns that
the record does not mark is repeated (R191, R210, R212). -/
def State.adoptService (s : State) (ring : Nat) : State :=
  match s.findRing ring, s.svcLineOf ring 0 with
  | some r, some h =>
    if byteAt h 0 ≠ ring || leAt h 16 8 ≤ r.svcSeq then s.updRing ring (fun x => x.keepTurns x.recordedTurn)
    else
      let put := fun (e : Nat × MemberSlot) =>
        let ts := (natsFrom 0 r.turns).filter (fun t => s.svcDone ring h e.1 t)
        let sts := (ts.flatMap r.turnStripes).filterMap (fun st => (r.chunkOf st e.1).map (fun c => (st, c)))
        if e.2.st = .replacing then
          { e.2 with filled := sts.map (fun x => r.chunkSlot x.1 x.2), rebuilt := (e.2.rebuilt).filter (fun st => hasNat (sts.map (fun x => x.1)) st) }
        else if e.2.dorder ≠ 0 then
          { e.2 with rebuilt := (sts.filter (fun x => (r.targetOf x.1 x.2).isSome)).map (fun x => x.1) }
        else e.2
      s.updRing ring (fun x => { x with
        slots := ((natsFrom 0 x.slots.length).zip x.slots).map put, patrol := leAt h 8 8 * Nat.max r.d 1, svcSeq := leAt h 16 8 })
  | some _, none => s.updRing ring (fun x => x.keepTurns x.recordedTurn)
  | _, _ => s

/-- Lost extents of a ring that the peer recorded come into this module's table, within its limit (R202, R203). -/
def State.adoptLost (s : State) (ring : Nat) : State :=
  (s.peerLost.filter (fun e => e.ring = ring)).foldl (fun t e =>
    if t.rge.lost.any (fun x => x.ring = ring && x.rba ≤ e.rba && e.rba + e.nrb ≤ x.rba + x.nrb) then t
    else t.addLost e) s

/-- A member slot as a new ringmaster finds it: a member that its root port does not reach is ABSENT, and a replacement FAILED
(R179, R180); the rejoin window of an ABSENT one runs. -/
def MemberSlot.claimed (m : MemberSlot) (window : Nat) : MemberSlot :=
  match m.st with
  | .online | .stale => if m.localBad then { m with st := .absent, rejoin := some window } else m
  | .absent => { m with rejoin := some (m.rejoin.getD window) }
  | .replacing => if m.localBad then { m with st := .failed, filled := [] } else m
  | _ => m

/-- This module masters a ring: its mirror copies become own data, the records that the peer kept of
it are taken over, and R174 runs (R238, R243, R270). -/
def State.becomeMaster (s : State) (ring epoch : Nat) : State :=
  let s1 := ((s.adoptLost ring).adoptService ring).updRing ring (fun r => { r with
    owner := true, epoch := epoch, master := some s.rfx.fid, bid := none, peerBid := none, bidTimer := none,
    ownMseq := none, handover := none, held := false, cursors := [0, 0, 0],
    sweepAt := some (s.now + sec (s.cfg Reg.rgeBmcfg 11 0)), ckptAt := some (s.now + sec (s.cfg Reg.rgeBmcfg 27 16)),
    slots := r.slots.map (fun m => m.claimed (s.now + sec (s.cfg Reg.rgeMbcfg 7 2))) })
  let s2 := (((s1.ringRegion ring false).resumeKeys ring).startResync ring).recomputeCeil
  if (s2.findRing ring).any (fun r => r.initRunning) then s2.issueInit ring else s2

/-- Bids compared (R237): lag, priority, FID. -/
def bidWins (own peer : Nat × Nat × Nat) : Bool :=
  let top := Nat.max own.2.2 peer.2.2
  let a := (top - own.2.2, own.1, own.2.1)
  let b := (top - peer.2.2, peer.1, peer.2.1)
  a.1 < b.1 || (a.1 = b.1 && (a.2.1 < b.2.1 || (a.2.1 = b.2.1 && a.2.2 < b.2.2)))

/-- An epoch line of a ring goes to the peer (AREA 0x07; its layout within the area is the model's, log 26). -/
def State.sendEpoch (s : State) (ring epoch : Nat) : State := s.sendLine 7 ring (sealLine (leBytes 4 epoch))

/-- The decision of an election (R238): the winner's new epoch goes to the safety net and waits for the peer. -/
def State.decide (s : State) (ring : Nat) : State :=
  match s.findRing ring with
  | none => s
  | some r =>
    match r.bid with
    | none => s
    | some b =>
      let wins := match r.peerBid with
        | some p => bidWins b p
        | none => true
      let top := match r.peerBid with
        | some p => Nat.max b.2.2 p.2.2
        | none => b.2.2
      if wins then
        let s1 := (s.updRing ring (fun x => { x with epoch := top + 1, bidTimer := none })).sendEpoch ring (top + 1)
        s1.updRing ring (fun x => { x with ownMseq := some s1.lastMseq })
      else s.updRing ring (fun x => { x with bid := none, bidTimer := none })

/-- A bid that waits goes to the peer (R237), once a FID is held and the peer is there to answer it; with the peer's bid
at hand, or the peer absent, the election is decided (R238). -/
def State.sendBid (s : State) (ring : Nat) : State :=
  match s.findRing ring with
  | none => s
  | some r =>
    match r.bid with
    | none => s
    | some b =>
      if r.bidTimer.isSome || r.ownMseq.isSome then s
      else if s.rfx.peer.absent then s.decide ring
      else if s.rfx.fidSt = .held && s.mirrorUp && (s.rfx.peer.joined || s.rfx.peer.mismatch) then
        let s1 := s.updRing ring (fun x => { x with bid := some (b.1, s.rfx.fid, r.epoch), bidTimer := some (s.now + ms 10) })
        let s2 := s1.toPeer 5 (beBytes 1 ring ++ beBytes 1 b.1 ++ beBytes 1 s.rfx.fid ++ [0] ++ beBytes 4 r.epoch)
        if r.peerBid.isSome then s2.decide ring else s2
      else s

/-- Every bid that waits. -/
def State.sendBids (s : State) : State := s.rge.rings.foldl (fun t r => t.sendBid r.num) s

/-- A ring comes online: with no ringmaster known, this module bids (R236, R237). -/
def State.ringOnline (s : State) (ring : Nat) : State :=
  match s.findRing ring with
  | none => s
  | some r =>
    if r.master.isSome || r.bid.isSome then s
    else
      let prio := s.cfg (Reg.rfxRprio + 0x10 * ring) 7 0
      (s.updRing ring (fun x => { x with bid := some (prio, s.rfx.fid, r.epoch) })).sendBid ring

/-! ## The peer (R80, R81, R223, R266) -/

/-- The peer stream closes: its unacknowledged frames go, and the writes that wait for them commit by R78 (R81,
R256). Of rings that the peer masters no copy comes any more, so that cached blocks of them might be old: they go (R25; log
69). -/
def State.closeStream (s : State) : State :=
  let waits := fun (r : TagRec) => r.open_ && s.rfx.out1.acked < Nat.max r.dataMseq 1
  let vers := (s.hce.tags.filter waits).map (fun r => r.seq) ++ s.rfx.hold2.flatMap (fun e => e.2.2)
  let s1 := s.updRfx (fun x => { x with
    out1 := { x.out1 with isOpen := false, out := [] }, rxHeld := [], hold2 := [], joinMseq := none })
  (s1.updHce (fun x => { x with
    tags := updWhere waits (fun r => { r with wt := true }) x.tags
    wb := updWhere (fun e => hasNat vers e.ver && !e.committed) (fun e => { e with wt := true }) x.wb })).cacheDrop (fun c =>
      s.vsm.nss.any (fun n => n.vsid = c.1 && n.nsid = c.2.1 && !s.owns n.ring))

/-- The mirror link is declared down (R81). -/
def State.mirrorDown (s : State) : State :=
  let s1 := s.updHce (fun x => { x with wtMirLink := true })
  (s1.closeStream).applyWt

/-- The peer has applied a change: its command completes, but an NS_DELETE whose own deallocation still runs waits for
that (R283, R293). -/
def State.propDone (s : State) (p : PropRec) : State :=
  if p.opcode = 0x0507 && s.vsm.nss.any (fun n => n.vsid = p.vsid && n.waiter = some p.m) then s
  else s.finish p.m stOk p.result

/-- Propagations that wait for the peer complete at once when it is absent (R283). -/
def State.flushProps (s : State) : State :=
  let ps := s.props
  ps.foldl State.propDone { s with props := [] }

/-- Handovers that death overtakes: before OWNER is sent the command ends with STATE_CONFLICT (R244). -/
def State.failHandovers (s : State) : State :=
  s.rge.rings.foldl (fun t r =>
    match r.handover with
    | some (m, _) =>
      (t.updRing r.num (fun x => { x with handover := none, held := false })).finish m stConflict []
    | none => t) s

/-- Every election that waits for the peer is decided (R238). -/
def State.decideAll (s : State) : State := s.rge.rings.foldl (fun t r => t.decide r.num) s

/-- The peer is declared absent (R223). -/
def State.peerAbsent (s : State) : State :=
  let s1 := s.updRfx (fun x => { x with peer := { x.peer with absent := true, joined := false }, peerWait := none })
  let s2 := s1.updHce (fun x => { x with wtPeerAbs := true, wtStartup := false })
  (s2.applyWt.decideAll).flushProps

/-- A survivor asserts the fence, once the fence may be asserted (R267, TKCFG.FENCEEN). -/
def State.assertFence (s : State) : State :=
  if s.tk.fenceIn || s.tk.fenceOut || !s.cfgBit Reg.rfxTkcfg 0 then s
  else
    let s1 := (s.updTk (fun k => { k with
      fenceOut := true, phase := .hold, fenceDelay := none, fenceHold := some (s.now + ms 1) })).emit (.pin .fenceOut false)
    -- step 2 of R270: the dead module's identities come to this module's ports (R272)
    let low := s1.mac.hostUp.foldl (fun a p => Nat.min a p) 4
    (natsFrom 0 (Config.hostPorts s.part)).foldl (fun t n =>
      let p := if hasNat t.mac.hostUp n then n
        else match t.lcu.retrains.find? (fun r => r.port = n && r.phase = .training) with
          -- the target of a retrain past step 4 holds this identity as well (R534)
          | some r => if r.target = n then (if low < 4 then low else n) else r.target
          | none => if low < 4 then low else n
      (t.updTk (fun k => { k with idents := k.idents.filter (fun e => e.1 ≠ 4 + n) ++ [(4 + n, p)] })).announceIdent
        (4 + n) p) s1

/-- Cause bits of TKSTAT.CAUSE joined: 1 heartbeat, 2 midplane links. -/
def joinCause (a b : Nat) : Nat := if a = b then a else 3

/-! ## Thaw and the end of a migration (R299 to R306) -/

/-- A connection goes on at its mirrored point (R273): a PSN sequence error NAK, or three duplicate acknowledgements and a
congestion window of 10 segments; what was not acknowledged is sent again. -/
def State.resumeAt (s : State) (k : HConn) : State :=
  let s1 := match k.transport with
    | .rdma => (s.emit (.nak k.id k.rcvNext)).hostFrames k.id 12 16 none
    | .tcp =>
      let ack := fun (t : State) => (t.emit (.dupAck k.id k.rcvNext)).hostFrames k.id 12 0 none
      (ack (ack (ack s))).updConn k.id (fun c => { c with cwnd := 10 * c.unit })
  s1.emit (.resend k.id k.sndUna)

/-- Regions of a migration that runs are marked (R304). -/
def State.markMig (s : State) (v : Nat) (hit : List (Nat × Nat)) : State :=
  let add := fun (l : List (Nat × Nat)) (x : Nat × Nat) => if l.any (fun e => e = x) then l else l ++ [x]
  { s with vsm := { s.vsm with
    migs := updWhere (fun g => g.vsid = v && (g.phase = .copy || g.phase = .catchUp))
      (fun g => { g with marked := hit.foldl add g.marked }) s.vsm.migs } }

/-- A freeze, or its attempt, ends: ACTIVE again. Keep Alive timers restart and acknowledgement resumes (R300); the
connections of a restored subsystem are resumed (R273, R302). -/
def State.thaw (s : State) (v : Nat) : State :=
  match s.findVs v with
  | none => s
  | some x =>
    let s1 := s.updVs v (fun y => { y with
      st := .active, quiesceEnd := none, frzEnd := none, image := [], byMigration := false, restored := false, ackDue := none })
    let ack := if s.rfx.out1.isOpen then some s.lastMseq else none
    let s2 := s1.updHce (fun e => { e with
      ctrls := updWhere (fun c => c.vsid = v && c.kato ≠ 0)
        (fun c => { c with kaDeadline := some (s.now + ms (100 * ceilDiv c.kato 100)) }) e.ctrls
      conns := updWhere (fun k => k.vsid = v && k.held = some (2 ^ 48)) (fun k => { k with held := ack }) e.conns })
    if x.restored then (s2.hce.conns.filter (fun k => k.vsid = v)).foldl State.resumeAt s2 else s2

/-- A migration ends without its acknowledgement (R304, R306): the targets are told, the other source module when `tell` (log
80), and a freeze of its CUTOVER ends. -/
def State.endMigration (s : State) (v : Nat) (tell : Bool) : State :=
  match s.vsm.migs.find? (fun g => g.vsid = v) with
  | none => s
  | some g =>
    let s1 := { s with vsm := { s.vsm with migs := s.vsm.migs.filter (fun x => x.vsid ≠ v) } }
    let s2 := (s1.sendMigrate g.tfidA g.tvsid (g.seq + 1) .abort).sendMigrate g.tfidB g.tvsid (g.seq + 1) .abort
    let s3 := if tell && s2.paired then s2.sendProp 0x050A (leBytes 2 v ++ zeroBytes 2) else s2
    if (s3.findVs v).any (fun x => x.byMigration) then s3.thaw v else s3

/-- A migration aborts on both source modules. -/
def State.abortMigration (s : State) (v : Nat) : State := s.endMigration v true

/-! ## Waking (R517) -/

/-- To Active: every domain wakes (R517). -/
def State.wakeActive (s : State) : State :=
  if s.pwr.mode = .lull || s.pwr.mode = .doze then
    (s.wakeAll (allDomains s.part)).updPwr (fun p => { p with mode := .active, lullRun := 0, dozeRun := 0 })
  else s

/-! ## What a death or a fence does to calibration and live tests (R534, R571) -/

/-- A test's record replaces that of its last run (R572). -/
def State.putResult (s : State) (r : TestRec) : State :=
  { s with tst := { s.tst with
      results := s.tst.results.filter (fun x => x.test ≠ r.test) ++ [r], lastTest := r.test, lastUnit := r.unit } }

/-- Training starts (R462). -/
def State.train (s : State) (port : Nat) : State :=
  s.setPort port (fun p => { p with train := .training, attempts := 1, trainEnd := some (s.now + ms 250), speed := 0, width := 0 })

/-- A host port's retrain before step 5 of R532 ends: the identities that moved for it come back (R534). -/
def State.cancelRetrain (s : State) (r : Retrain) : State :=
  let s1 := { s with lcu := { s.lcu with retrains := s.lcu.retrains.filter (fun x => x.port ≠ r.port) } }
  if r.port < 4 then
    ([r.port, 4 + r.port] : List Nat).foldl (fun t i =>
      if t.identPort i = r.target && i % 4 ≠ r.target then t.moveIdent i r.port else t) s1
  else if r.phase = .routeMove then s1.sendLsa
  else s1

/-- Whether a retrain's link is still up. -/
def Retrain.early (r : Retrain) : Bool := r.phase ≠ .training

/-- Host port retrains that a death declaration cancels (R534). -/
def State.cancelRetrains (s : State) : State :=
  (s.lcu.retrains.filter (fun r => r.port < 4 && r.early)).foldl State.cancelRetrain s

/-- A live test ends before its time with STATUS `status` and its unit returns to service (R571): a port whose traffic has
only been moved gets it back, one that is down trains and is checked, a bay's insertion sequence runs. -/
def State.stopLive (s : State) (status : Nat) : State :=
  match s.tst.live with
  | none => s
  | some l =>
    let s1 := ({ s with tst := { s.tst with live := none, pieces := 0, errors := 0, firstBad := 0 } }).putResult
      ⟨l.test, l.unit, status, 0, if l.test = 7 then s.tst.errors else 0, 0, (s.now - l.start) / 1000⟩
    if l.test = 1 || l.test = 2 then
      let p := if l.test = 1 then l.unit else 4 + l.unit
      match s1.lcu.retrains.find? (fun r => r.port = p && r.forTest) with
      | some r =>
        if r.early then s1.cancelRetrain r
        else { s1 with lcu := { s1.lcu with
          retrains := updWhere (fun x => x.port = p) (fun x => { x with forTest := false }) s1.lcu.retrains } }
      | none => s1
    else if l.test = 3 then s1.train l.unit
    else if l.test = 4 then
      s1.setBay l.unit (fun b => if l.moving && b.st = .off then { b with st := .wait, forced := true } else b)
    else if l.test = 5 then
      s1.updKvt (fun k => if hasNat k.lanesFailed l.unit then k else { k with lanesOn := addNat k.lanesOn l.unit })
    else s1

/-- The joined peer is declared dead (R266): takeover begins with the fence (R267, R270); a second cause is added to
the first. A module of a different part that can be reached no more counts as removed: PEERABS instead of MISMATCH (03
WTSTATE). A live test is aborted (R571), host port retrains before step 5 are cancelled (R534), and the module wakes to
Active (R518). -/
def State.declareDead (s : State) (cause : Nat) : State :=
  if s.rfx.peer.mismatch then
    let s1 := s.updRfx (fun x => { x with peer := { x.peer with mismatch := false, absent := true } })
    s1.updHce (fun x => { x with wtMismatch := false, wtPeerAbs := true })
  else if !s.rfx.peer.joined then
    (if s.tk.phase ≠ .idle then s.updTk (fun k => { k with cause := joinCause k.cause cause }) else s)
  else
    let s1 := s.updRfx (fun x => { x with peer := { x.peer with joined := false, absent := true } })
    let s2 := s1.updHce (fun x => { x with wtTakeover := true, wtPeerAbs := true })
    let s3 := s2.updTk (fun k => { k with
      cause := cause, phase := .fencing, declaredAt := s.now, fenceDelay := if s.slot = .a then none else some (s.now + ms 5) })
    let s4 := (((s3.closeStream.applyWt).failHandovers).flushProps).decideAll
    let s5 := (s4.vsm.migs.map (fun g => g.vsid)).foldl State.abortMigration (s4.sepEvent 1)
    let s6 := (s5.stopLive 5).cancelRetrains
    let s7 := if s6.mbx.activating.isSome then s6 else s6.wakeActive
    if s.slot = .a then s7.assertFence else s7

/-- Dirty data as join-copy entries, two to a frame (R80, R257 KIND 0x04). -/
def State.joinFrames (s : State) : List StreamBody :=
  let es := (s.hce.wb.filter (fun e => !e.mirror && !e.dead && e.committed)).map (fun e =>
    (⟨e.vsid, e.nsid, e.blk, e.ver, e.ring, e.wt, e.smask, e.data, []⟩ : MirBlock))
  let ds := (s.hce.deallocs.filter (fun d => !d.mirror && d.committed)).map (fun d =>
    (⟨d.vsid, d.nsid, 0, d.ver, d.ring, false, 0xFF, 0, d.ranges⟩ : MirBlock))
  (pairUp (es ++ ds)).map (fun p => .mirror (.joinCopy p))

/-- Forwards that still wait for the ringmaster (R235): data of own commands in the mirror region. -/
def State.waitingFrames (s : State) : List StreamBody :=
  let es := (s.hce.wb.filter (fun e => e.mirror && e.owner = 0 && !e.committed)).map (fun e =>
    (⟨e.vsid, e.nsid, e.blk, e.ver, e.ring, e.wt, e.smask, e.data, []⟩ : MirBlock))
  let ds := (s.hce.deallocs.filter (fun d => d.mirror && d.tag ≠ noTag && !d.committed)).map (fun d =>
    (⟨d.vsid, d.nsid, 0, d.ver, d.ring, true, 0xFF, 0, d.ranges⟩ : MirBlock))
  carryFrames false (es ++ ds)

/-- What waited for frames of a closed stream waits no more (R256): their MSEQ values mean nothing in the stream that
opens. -/
def State.clearMseqs (s : State) : State :=
  let s1 := s.updHce (fun x => { x with
    tags := x.tags.map (fun r => { r with
      respMseq := r.respMseq.map (fun _ => 0), readMseq := r.readMseq.map (fun _ => 0), dataMseq := 0 }),
    conns := x.conns.map (fun k => if k.held = some (2 ^ 48) then k else { k with held := none }) })
  let s2 := s1.updRge (fun x => { x with
    rings := x.rings.map (fun r => { r with ownMseq := r.ownMseq.map (fun _ => 0) }),
    writes := x.writes.map (fun w => { w with intentMseq := 0 }) })
  let s3 := s2.updKvt (fun k => { k with
    slots := k.slots.map (fun x => { x with resvMseq := 0 }),
    rekeys := k.rekeys.map (fun r => { r with curMseq := r.curMseq.map (fun _ => 0) }),
    tls := k.tls.map (fun t => { t with pendingKey := t.pendingKey.map (fun p => (p.1, 0)) }) })
  { s3 with
    mbx := { s3.mbx with flushMseq := 0 },
    vsm := { s3.vsm with subs := s3.vsm.subs.map (fun v => { v with ackDue := v.ackDue.map (fun a => (a.1, a.2.1, 0)) }) } }

/-! ## Displacement and turns (R151, R191, R194) -/

/-- The next order number of a displacement (R151). -/
def Ring.nextOrder (r : Ring) : Nat := r.topOrder + 1

/-- After a slot has left displacement the remaining numbers keep their relative order, without a gap (R151; log 82). -/
def Ring.closeOrders (r : Ring) : Ring :=
  { r with slots := r.slots.map (fun m =>
      if m.dorder = 0 then m
      else { m with dorder := 1 + (r.slots.filter (fun x => 0 < x.dorder && x.dorder < m.dorder)).length }) }

/-- Rebuild, copyback or rejoin work is pending (R185 REBUILDING). -/
def Ring.rebuilding (r : Ring) : Bool :=
  r.slots.any (fun m => m.st = .stale || m.st = .replacing) || r.displacedSlots.any (fun j => r.turnsLeft j ≠ 0)

/-- A ring has rebuild work: rebuild, copyback, rejoin or verification (R193). -/
def Ring.hasWork (r : Ring) : Bool := r.owner && (r.rebuilding || r.verify.isSome)

/-- Steps 4 to 7 of R174 are in progress (RSTAT.RESYNCING). -/
def Ring.resyncing (r : Ring) : Bool := !r.suspects.isEmpty || r.verify.isSome || r.hunt.isSome

/-- Header line of the service record (R212). -/
def Ring.svcHeader (r : Ring) : List Byte :=
  let ds := r.displacedSlots.take 4
  sealLine (leBytes 1 r.num ++ leBytes 1 1 ++ (natsFrom 0 4).flatMap (fun i => leBytes 1 (ds.getD i 0xFF)) ++
    leBytes 1 (sumNat ((natsFrom 0 4).map (fun i =>
      match ds[i]? with
      | some j => if (r.slotAt j).st = .replacing then 2 ^ i else 0
      | none => 0))) ++ zeroBytes 1 ++ leBytes 8 (r.patrol / Nat.max r.d 1) ++ leBytes 8 r.svcSeq)

/-- Line `l` of map `i` of the service record. -/
def Ring.svcMap (r : Ring) (i l : Nat) : List Byte :=
  match r.displacedSlots[i]? with
  | none => sealLine []
  | some j => sealLine (leBytes 60 (sumNat ((natsFrom 0 480).map (fun b =>
      if 480 * l + b < r.turns && r.turnDone j (480 * l + b) then 2 ^ b else 0))))

/-- Lines of a turn map. -/
def Ring.mapLines (r : Ring) : List Nat := natsFrom 0 (ceilDiv r.turns 480)

/-- The key record (R372). -/
def KeySlot.line (k : KeySlot) : List Byte :=
  sealLine ([if k.oldMaterial.isSome then 2 else 1] ++ leBytes 1 k.typ ++ leBytes 2 k.slot ++ leBytes 4 k.gen ++
    leBytes 8 k.resv ++ leBytes 4 k.cursor ++ leBytes 8 k.seq)

/-- Phase code of R104. -/
def OpPhase.code : OpPhase → Nat
  | .prepare => 0
  | .key => 1
  | .erase => 2
  | .dealloc => 3
  | .done => 4

/-- The 32 bytes of a progress record (R104), as a safety-net line. -/
def Progress.line (p : Progress) : List Byte :=
  let b := leBytes 1 p.op ++ leBytes 1 p.phase.code ++ leBytes 2 p.vsid ++ leBytes 4 p.nsid ++ leBytes 4 p.cursor ++
    leBytes 4 p.total ++ leBytes 1 p.lbaf ++ zeroBytes 3 ++ leBytes 4 p.epoch ++ leBytes 4 p.seq
  padTo 64 (b ++ leBytes 4 (crc32c b).toNat)

/-- The lines of a ring's service record: header and turn maps (R212). -/
def Ring.svcLines (r : Ring) : List (Nat × List Byte) :=
  (bmIndex r.num 0, r.svcHeader) ::
    (natsFrom 0 4).flatMap (fun i => r.mapLines.map (fun l => (bmIndex r.num (1 + 205 * i + l), r.svcMap i l)))

/-- Progress records that run, ring epochs and key records as a new peer gets them (R104, R238, R372). -/
def State.joinRecords (s : State) : State :=
  let s1 := (s.hce.progress.filter (fun p => !p.asleep)).foldl (fun t p => t.sendLine 6 p.idx p.line) s
  let s2 := s1.rge.rings.foldl (fun t r => t.sendEpoch r.num r.epoch) s1
  s2.kvt.slots.foldl (fun t k => t.sendLine 8 k.slot k.line) s2

/-- The peer joins (R80): the streams open, the module's dirty data, safety-net lines and connections are copied, and
waiting propagations go out. -/
def State.joinPeer (s : State) : State :=
  let s1 := s.clearMseqs.updRfx (fun x => { x with
    peer := { x.peer with joined := true, absent := false, mismatch := false }, peerWait := none,
    out1 := { isOpen := true }, rxApplied := 0, rxHeld := [], rxUnacked := 0, hold2 := [], peerCmds := [], peerXports := [] })
  let s2 := (s1.updKvt (fun k => { k with paired := false })).updHce (fun x => { x with
    wtStartup := false, wtPeerAbs := false, wtMirLink := false, wtMismatch := false, wtJoinCopy := true
    wb := x.wb.filter (fun e => !e.mirror || e.owner ≠ 1), deallocs := x.deallocs.filter (fun d => !d.mirror || d.tag ≠ noTag) })
  let s3 := (s2.mirSendAll s2.joinFrames).mirSendAll s2.waitingFrames
  let s4 := s3.rge.intents.foldl (fun t i => t.sendLine 1 i.idx i.line) s3
  let s5 := (s4.rge.rings.filter (fun r => r.owner)).foldl (fun t r =>
    ((r.bitmap.map (fun x => x / 480)).foldl addNat []).foldl (fun u l => u.sendLine 3 (bmIndex r.num l) (r.bmLine l))
      (t.sendHeader r.num)) s4
  let s6 := ((s5.rge.rings.filter (fun r => r.owner)).flatMap Ring.svcLines).foldl (fun t e => t.sendLine 5 e.1 e.2)
    (s5.rge.lost.foldl (fun t e => t.sendLine 4 e.idx e.line) s5)
  let s7 := s6.hce.conns.foldl (fun t k => t.sendXport k.id) s6.joinRecords
  let s8 := s7.props.foldl (fun t p => t.sendProp p.opcode p.params) s7
  (((s8.updRfx (fun x => { x with joinMseq := some s8.lastMseq })).updRge (fun e => { e with shared := [] })).applyWt).sendBids

/-! ## What the peer learns of a ring (R135, R142, R178, R179) -/

/-- What this module tells the peer of a ring. -/
def Ring.share (r : Ring) : RingShare :=
  { num := r.num, n := r.n, k := r.k, m := r.m, s := r.s, seed := r.seed, chunks := r.chunks, gen := r.gen, owner := r.owner,
    slots := r.slots.map (fun m => { m with localBad := false, rejoin := none }), initRunning := r.initRunning, torn := r.torn,
    flushIncomplete := r.flushIncomplete, resyncAll := r.resyncAll, suspects := r.suspects, hunting := r.hunt.isSome,
    verify := r.verify, bitmap := r.bitmap, patrol := r.patrol, held := r.held }

/-- The peer is told of every ring mastered here, and of one that has no ringmaster yet, whenever what it was told last is no
longer so: within the 10 µs of R142 and R179 (log 79). -/
def State.shareRings (s : State) : State :=
  if !s.rfx.out1.isOpen then s
  else
    (s.rge.rings.filter (fun r => r.owner || r.master.isNone)).foldl (fun t r =>
      if t.rge.shared.any (fun x => x = r.share) then t
      else (t.updRge (fun e => { e with shared := e.shared.filter (fun x => x.num ≠ r.num) ++ [r.share] })).mirSend
        (.mirror (.ring r.share))) s

/-- What a step does while no command waits: the clock goes on (log 2), and the peer learns of changes of rings. -/
def State.idle (s : State) : State := s.tick.shareRings

end Sys2Proof.Machine
end

