-- ==== Sys2Proof/Machine/Stripes.lean ====
section
/-! DEFINITION. The ring engine's operations (chapters 05 and 06): superblocks and service records, member states,
repair of block rows, stripe writes, and the delivery of gathered blocks. -/

namespace Sys2Proof.Machine

/-! ## The service record (R212) -/

/-- An update of the service record goes to the peer (R212): its header, and the map lines of one turn. -/
def State.sendService (s : State) (ring turn : Nat) : State :=
  match s.findRing ring with
  | none => s
  | some r =>
    let r1 := { r with svcSeq := r.svcSeq + 1 }
    let line := fun (i : Nat) => bmIndex ring (1 + 205 * i + turn / 480)
    (r1.svcLines.filter (fun e => e.1 = bmIndex ring 0 || (natsFrom 0 4).any (fun i => e.1 = line i))).foldl
      (fun t e => t.sendLine 5 e.1 e.2) (s.updRing ring (fun _ => r1))

/-- The whole service record goes to the peer: the set of displaced slots has changed, and the maps with it. -/
def State.sendServiceAll (s : State) (ring : Nat) : State :=
  match s.findRing ring with
  | none => s
  | some r =>
    let r1 := { r with svcSeq := r.svcSeq + 1 }
    r1.svcLines.foldl (fun t e => t.sendLine 5 e.1 e.2) (s.updRing ring (fun _ => r1))

/-! ## Superblocks (R139) -/

/-- The superblock of a ring for the drive in member slot `j`. -/
def Ring.superblock (r : Ring) (j : Nat) : Block :=
  let ser := (natsFrom 0 24).flatMap (fun i => leBytes 20 (r.slotAt i).serial)
  let ord := (natsFrom 0 24).map (fun i => (r.slotAt i).dorder)
  let body := leBytes 4 0x4B565247 ++ leBytes 1 r.num ++ leBytes 1 j ++ leBytes 1 r.n ++ leBytes 1 r.k ++
    leBytes 1 r.m ++ leBytes 1 r.s ++ zeroBytes 2 ++ leBytes 4 r.seed.toNat ++ leBytes 8 r.slabs ++ leBytes 8 r.gen ++
    ser ++ leBytes 3 (sumNat ((natsFrom 0 24).map (fun i => if r.displaced i then 2 ^ i else 0))) ++
    ord.flatMap (leBytes 1)
  let c := padTo 0xFFC body
  blockOfBytes (c ++ leBytes 4 (crc32c c).toNat)

/-- A copy of the superblock as it is found again (R139). -/
def Ring.sbCopy (r : Ring) : SbCopy :=
  ⟨r.num, r.seed.toNat, r.gen, true, r.slots.map (fun m => m.serial), r.slots.map (fun m => m.dorder)⟩

/-- A drive of the ring can be reached through this module's port. -/
def State.reaches (s : State) (m : MemberSlot) : Bool :=
  match m.bay with
  | some b => s.portUsable b && m.st ≠ .absent
  | none => false

/-- Both copies of the superblock are written to every member that this module reaches (R139). -/
def State.writeSuperblocks (s : State) (ring : Nat) : State :=
  match s.findRing ring with
  | none => s
  | some r =>
    let r1 := { r with gen := r.gen + 1 }
    (natsFrom 0 r1.n).foldl (fun t j =>
      let m := r1.slotAt j
      if t.reaches m then
        let b := r1.superblock j
        let t1 := t.toSlot r1 j .superblock ring [0, 8] [b, b] true .upkeep
        match m.bay with
        | some y => t1.setBay y (fun x => { x with drive := x.drive.map (fun d =>
            { d with superblocks := d.superblocks.filter (fun e => e.ring ≠ ring) ++ [r1.sbCopy, r1.sbCopy] }) })
        | none => t1
      else t) (s.updRing ring (fun _ => r1))

/-! ## Rows that an upkeep task reads and mends (R174, R198, R199, R211) -/

/-- The readable blocks of a row by position, and the unreadable positions. -/
def rowGood (d : RowData) : List (Nat × Block) :=
  ((natsFrom 0 d.length).zip d).filterMap (fun e => match e.2 with
    | some b => if b.readable then some (e.1, b.data) else none
    | none => none)

def rowBad (d : RowData) : List Nat :=
  ((natsFrom 0 d.length).zip d).filterMap (fun e => match e.2 with
    | some b => if b.readable then none else some e.1
    | none => none)

/-- A row as its readable blocks determine it: the data blocks, the lost data positions (as zero), and the cause of a
loss (R198, R200). With `check`, redundancy beyond the reconstruction checks its result (R174 step 8, R175). -/
def mendRow (k : Nat) (check : Bool) (d : RowData) : List Block × List Nat × Nat :=
  let good := rowGood d
  let lost := (natsFrom 0 k).filter (fun c => !good.any (fun e => e.1 = c))
  let zeroed := (natsFrom 0 k).map (fun c => ((good.find? (fun e => e.1 = c)).map (fun e => e.2)).getD 0)
  match rowSolve k good with
  | none => (zeroed, lost, if (rowBad d).isEmpty then 1 else 2)
  | some data =>
    if check && !lost.isEmpty && good.any (fun e => k ≤ e.1 && rowBlock k data e.1 ≠ e.2) then (zeroed, lost, 3)
    else (data, [], 0)

/-- What an upkeep task reads of a row: nothing at the positions of unavailable chunks (R174 step 8, R184). -/
def Ring.rowRead (r : Ring) (stripe : Nat) (d : RowData) : RowData :=
  ((natsFrom 0 d.length).zip d).map (fun (e : Nat × Option MemberBlock) => if (r.chunkAt stripe e.1).isSome then e.2 else none)

/-- A block written to a member slot by a task under the record of SEQ `seq`. -/
def State.putBlock (s : State) (r : Ring) (j stripe c row seq : Nat) (b : Block) : State :=
  s.toSlot r j .write (r.chunkLba stripe c) [row] [b] false (.repair r.num stripe row c seq)

/-- Member slots that miss a write of a stripe (R169): the chunk's own, or the one it was relocated onto. -/
def Ring.missing (r : Ring) (stripe c : Nat) : List Nat :=
  let h := r.homeOf stripe c
  let own := if hasNat (r.writeSlots stripe c) h then [] else [h]
  match r.targetOf stripe c with
  | some t => if hasNat (r.slotAt h).rebuilt stripe && !r.slotWritable t then own ++ [t] else own
  | none => own

/-- The regions of a stripe are noted for the member slots that miss a write of its chunk (R169). -/
def State.markMissed (s : State) (r : Ring) (stripe c : Nat) : State :=
  (r.missing stripe c).foldl (fun t j => t.updRing r.num (fun x => x.setSlot j (fun m =>
    { m with missed := addNat (addNat m.missed (x.region0 stripe)) (x.region1 stripe) }))) s

/-- A block written to every member slot that takes member writes of its chunk (R183, R187). -/
def State.putMember (s : State) (r : Ring) (stripe c row seq : Nat) (b : Block) : State :=
  (r.writeSlots stripe c).foldl (fun t j => t.putBlock r j stripe c row seq b) (s.markMissed r stripe c)

/-- A task's command of a stripe, or of the record of SEQ `seq`, is outstanding. -/
def MPurpose.repairs (p : MPurpose) (ring stripe : Nat) : Bool :=
  match p with
  | .repair r st _ _ _ => r = ring && st = stripe
  | _ => false

def MPurpose.under (p : MPurpose) (ring seq : Nat) : Bool :=
  match p with
  | .repair r _ _ _ q => r = ring && q = seq
  | _ => false

/-- A stripe write of the stripe is in flight, or a task's writes are (R159, R189). -/
def State.stripeBusy (s : State) (ring stripe : Nat) : Bool :=
  s.rge.writes.any (fun w => w.ring = ring && w.stripe = stripe) || s.bay.cmds.any (fun c => c.purpose.repairs ring stripe)

/-- Every intent record is open: what needs one waits (R166). -/
def State.journalFull (s : State) : Bool := 65536 ≤ s.rge.intents.length

/-- The record of a task is freed once none of its member writes is outstanding. -/
def State.endTask (s : State) (ring seq : Nat) : State :=
  if s.bay.cmds.any (fun c => c.purpose.under ring seq) then s
  else
    match s.rge.intents.find? (fun i => i.ring = ring && i.seq = seq && 2 ≤ i.kind) with
    | some i => s.freeIntent i.idx
    | none => s

/-- Rows and positions that a task's commands, numbered from `first` on, write. -/
def State.taskWrites (s : State) (first : Nat) : List Nat × List Nat :=
  let cs := s.bay.cmds.filter (fun c => first ≤ c.id)
  (cs.flatMap (fun c => c.rows), cs.filterMap (fun c => match c.purpose with
    | .repair _ _ _ p _ => some p
    | _ => none))

/-- A task that may write members of a stripe, given the SEQ of its record: where it writes any, the record is opened with
the rows and positions that it writes, and the dirty-region bits are set first (R162, R169, R199). -/
def State.underRecord (s : State) (r : Ring) (kind stripe : Nat) (f : Nat → State → State) : State :=
  let dry := f (s.rge.jseq + 1) s
  let (rows, poss) := dry.taskWrites s.bay.nextCmd
  if rows.isEmpty then dry
  else
    let (s1, _) := s.openIntent r.num kind (if r.levelOf stripe = 0 then 0 else 2) stripe (maskOf rows).toNat (maskOf poss).toNat 0
    (f s1.rge.jseq (s1.markStripe r stripe)).endTask r.num s1.rge.jseq

/-- Data and parity blocks of a row written at the listed positions. -/
def State.putRow (s : State) (r : Ring) (stripe row seq : Nat) (data : List Block) (poss : List Nat) : State :=
  poss.foldl (fun t c => t.putMember r stripe c row seq (rowBlock r.k data c)) s

/-- Lost blocks of a row recorded (R200 to R203). -/
def State.recordRow (s : State) (r : Ring) (stripe row : Nat) (lost : List Nat) (cause : Nat) : State :=
  lost.foldl (fun t c => t.recordLost r.num (r.toRba stripe c row) cause) s

/-- Unreadable blocks of a row rewritten in place, each counted (R199). -/
def State.repairPut (s : State) (r : Ring) (stripe row seq : Nat) (data : List Block) (bad : List Nat) : State :=
  (s.putRow r stripe row seq data bad).bumpBy Reg.rgeRepaired bad.length

/-- One row reconciled or verified (R174 steps 4, 7 and 8): unreadable blocks repaired, lost data recorded and zeroed
(R201), parity written; `force` writes parity even where it agrees. -/
def State.settleRow (s : State) (r : Ring) (stripe seq : Nat) (force : Bool) (e : Nat × RowData) : State :=
  let d := r.rowRead stripe e.2
  let (data, lost, cause) := mendRow r.k true d
  let good := rowGood d
  let bad := (rowBad d).filter (fun c => !hasNat lost c)
  let s1 := (s.recordRow r stripe e.1 lost cause).putRow r stripe e.1 seq data lost
  let s2 := s1.repairPut r stripe e.1 seq data (bad.filter (fun c => c < r.k))
  let pars := natsFrom r.k r.m
  let wrong := pars.filter (fun c => force || good.all (fun g => g.1 ≠ c || g.2 ≠ rowBlock r.k data c))
  s2.putRow r stripe e.1 seq data wrong

/-! ## Stripe writes (R159 to R166, R187) -/

/-- A version that a stripe write would carry: where it lies in the stripe and what it stores. -/
structure Cand where
  vsid : Nat
  nsid : Nat
  blk : Nat
  ver : Nat
  pos : Nat
  row : Nat
  wt : Bool
  at_ : Nat
  dealloc : Bool
  deriving DecidableEq, Repr

/-- A newer version waits while a released read is still served from the medium under it (R264). -/
def State.readHolds (s : State) (n : Ns) (b ver : Nat) : Bool :=
  s.hce.tags.any (fun r => r.reading && r.vsid = n.vsid && r.cap.nsid = n.nsid && r.vmark < ver &&
    (n.touch r.cap.slba r.cap.nlb).1 ≤ b && b < (n.touch r.cap.slba r.cap.nlb).1 + (n.touch r.cap.slba r.cap.nlb).2 &&
    !s.hce.wb.any (fun e => e.at n.vsid n.nsid b && e.ver ≤ r.vmark))

/-- Blocks of a region in the hands of a rekey, and blocks whose key has reached its limit, wait (R372, R374, R375). -/
def State.keyHolds (s : State) (n : Ns) (b : Nat) : Bool :=
  if n.keySlot = 0xFFFF then false
  else
    !s.keyLoaded n ||
    s.kvt.rekeys.any (fun k => k.slot = n.keySlot && k.region = b / 16384 && (k.loading || k.curMseq.isSome)) ||
    (match s.findKey n.keySlot with
     | some k =>
       if k.oldMaterial.isSome && k.cursor ≤ b / 16384 then 2 ^ 44 ≤ k.oldCount else 2 ^ 44 ≤ k.count
     | none => true)

/-- A lost block whose chunk has no target waits (R206). -/
def State.lostHolds (s : State) (r : Ring) (n : Ns) (b : Nat) : Bool :=
  let (st, c, _) := r.ofRba (n.rba b)
  s.isLost n.vsid n.nsid b && (r.writeSlots st c).isEmpty

/-- The candidate of a block, when nothing holds it back. -/
def State.candOf (s : State) (r : Ring) (v ns b ver at_ : Nat) (wt dealloc : Bool) : Option Cand :=
  match s.findNs v ns with
  | none => none
  | some n =>
    let (_, c, row) := r.ofRba (n.rba b)
    if s.readHolds n b ver || (!dealloc && s.keyHolds n b) || s.lostHolds r n b then none
    else some ⟨v, ns, b, ver, c, row, wt, at_, dealloc⟩

/-- Stripe of a namespace block. -/
def State.stripeOf (s : State) (r : Ring) (v n b : Nat) : Option Nat :=
  (s.findNs v n).map (fun x => (r.ofRba (x.rba b)).1)

/-- Whether a deallocation record may drain: committed, or of a command that commits by R78. -/
def State.deallocReady (s : State) (d : DeallocRec) : Bool :=
  !d.mirror && (d.committed || d.tag = noTag || (match s.findTag d.tag with | some t => t.wt | none => false))

/-- Every version of a stripe that may drain now; own region only. -/
def State.allCands (s : State) (r : Ring) (stripe : Nat) : List Cand :=
  (s.hce.wb.filterMap (fun e =>
    if e.ring = r.num && !e.mirror && !e.dead && !e.issued && (e.committed || e.wt) &&
        s.stripeOf r e.vsid e.nsid e.blk = some stripe then
      s.candOf r e.vsid e.nsid e.blk e.ver e.at_ e.wt false
    else none)) ++
  (s.hce.deallocs.filter (fun d => d.ring = r.num && s.deallocReady d)).flatMap (fun d =>
    (natsFrom (stripe * r.k * 16) (16 * r.k)).filterMap (fun rba =>
      match s.nsOfRba r.num rba with
      | some (n, b) =>
        if n.vsid = d.vsid && n.nsid = d.nsid && covers d.ranges b then
          s.candOf r n.vsid n.nsid b d.ver 0 (!d.committed) true
        else none
      | none => none))

/-- The newest version of each block of a stripe that may drain. -/
def State.cands (s : State) (r : Ring) (stripe : Nat) : List Cand :=
  let l := s.allCands r stripe
  l.filter (fun c => !l.any (fun d => d.pos = c.pos && d.row = c.row && c.ver < d.ver))

/-- What starts a stripe write (R160, R174): all k chunks dirty, a write-through block, dirty data above DRAIN_THR with
no older stripe waiting, or age. -/
def State.trigger (s : State) (r : Ring) (cs : List Cand) (aged : Bool) : Bool :=
  let oldest := cs.foldl (fun a c => Nat.min a c.at_) s.now
  let old := oldest + ms (s.cfg Reg.rgeDrncfg 13 0) < s.now
  let above := s.cfg Reg.hceWbctl 22 16 * s.hce.effCeil * gibBlocks < 100 * s.dirtyBlocks
  let first := s.hce.wb.all (fun e => e.ring ≠ r.num || e.mirror || e.dead || e.issued || !e.committed ||
    oldest ≤ e.at_ || (match s.findNs e.vsid e.nsid with
      | some n => s.readHolds n e.blk e.ver || s.keyHolds n e.blk || s.lostHolds r n e.blk ||
          r.mustWait (r.ofRba (n.rba e.blk)).1 || s.rge.writes.any (fun w => w.ring = r.num && w.stripe = (r.ofRba (n.rba e.blk)).1)
      | none => true))
  if aged then old
  else cs.length = 16 * r.k || cs.any (fun c => c.wt) || (above && first) || old

/-- Block rows that the candidates touch, and the dirty positions of a row. -/
def candRows (cs : List Cand) : List Nat := (natsFrom 0 16).filter (fun b => cs.any (fun c => c.row = b))
def dirtyIn (cs : List Cand) (row : Nat) : List Nat := (cs.filter (fun c => c.row = row)).map (fun c => c.pos)

/-- The reads of a row (R161): old data and parity when fewer, else the clean data. -/
def Ring.rowReads (r : Ring) (cs : List Cand) (degraded : Bool) (row : Nat) : List Nat :=
  let d := dirtyIn cs row
  if !degraded && d.length + r.m < r.k - d.length then d ++ natsFrom r.k r.m
  else (natsFrom 0 r.k).filter (fun c => !hasNat d c)

/-- Marks versions as part of an issued stripe write (R77). -/
def State.markIssued (s : State) (cs : List Cand) (v : Bool) : State :=
  let hit := fun (e : WbEntry) => cs.any (fun c => !c.dealloc && e.at c.vsid c.nsid c.blk && e.ver = c.ver)
  s.updHce (fun h => { h with wb := updWhere hit (fun e => { e with issued := v }) h.wb })

/-- Every block of a version has the intent record of its stripe write open (R276), host data and deallocated blocks alike. -/
def State.verOpen (s : State) (ver : Nat) : Bool :=
  s.hce.wb.all (fun e => e.ver ≠ ver || e.dead || e.mirror || e.issued || e.committed) &&
    s.hce.deallocs.all (fun d => d.ver ≠ ver || d.mirror || d.committed || d.ranges.all (fun x => (natsFrom x.1 x.2).all (fun b =>
      s.rge.writes.any (fun w => w.zeroed.any (fun p => p = (d.vsid, d.nsid, b, ver))))))

/-- A command that commits by R78 is past the point of R623 once every stripe write that carries its blocks has its intent
record open. -/
def State.markIntents (s : State) : State :=
  let opened := fun (t : TagRec) => t.open_ && t.wt && t.placed && s.verOpen t.seq &&
    s.rge.writes.any (fun w => (w.parts ++ w.zeroed).any (fun p => p.2.2.2 = t.seq))
  s.updHce (fun h => { h with tags := updWhere opened (fun t => { t with intents := true }) h.tags })

/-- A dirty block comes from a rekey or a migration (R553). -/
def State.candInternal (s : State) (c : Cand) : Bool :=
  !c.dealloc && s.hce.wb.any (fun e => e.at c.vsid c.nsid c.blk && e.ver = c.ver && e.internal)

/-- A stripe write starts (R162 step 1): its versions are bound to it, its intent record is opened, its reads go out. -/
def State.openStripe (s : State) (r : Ring) (stripe : Nat) (cs : List Cand) : State :=
  let rows := candRows cs
  let deg := r.levelOf stripe ≠ 0
  let full := cs.length = 16 * r.k
  let reads := rows.map (fun b => (b, r.rowReads cs deg b))
  let pos := (cs.map (fun c => c.pos)).foldl addNat (natsFrom r.k r.m)
  let wt := cs.any (fun c => c.wt)
  let flags := (if wt then 1 else 0) + (if deg then 2 else 0)
  let (s1, i) := s.openIntent r.num (if full then 0 else 1) flags stripe (maskOf rows).toNat (maskOf pos).toNat
    (cs.foldl (fun a c => Nat.max a c.ver) 0)
  let w : StripeWrite :=
    { ring := r.num, stripe := stripe, phase := .reading, rows := rows,
      rmw := reads.any (fun e => e.2.any (fun c => r.k ≤ c)), full := full,
      parts := (cs.filter (fun c => !c.dealloc)).map (fun c => (c.vsid, c.nsid, c.blk, c.ver)),
      zeroed := (cs.filter (fun c => c.dealloc)).map (fun c => (c.vsid, c.nsid, c.blk, c.ver)), wt := wt, intentIdx := i,
      intentMseq := s1.lastMseq, outstanding := [], missedAt := [], internal := cs.all s.candInternal }
  let s2 := ((s1.markIssued cs true).updRge (fun e => { e with writes := e.writes ++ [w] })).markIntents
  let s3 := State.count s2 0x24 (some r.num) (some (if full then 0 else 1)) (if w.internal then 1 else 0) 0 1
  let needs := (reads.filter (fun e => !e.2.isEmpty)).map (fun e => (⟨r.num, stripe, e.1, e.2, [], [], [], [], []⟩ : RowNeed))
  if needs.isEmpty then s3 else s3.startGather (.stripe r.num stripe) needs

/-- The gather of a stripe write. -/
def State.stripeGather (s : State) (ring stripe : Nat) : Option Gather :=
  s.rge.gathers.find? (fun g => g.owner = .stripe ring stripe)

/-- Every stripe write of a write-through command has its intent record open (R276). -/
def State.allOpen (s : State) (w : StripeWrite) : Bool := !w.wt || (w.parts ++ w.zeroed).all (fun p => s.verOpen p.2.2.2)

/-- A stripe write whose command was squashed before the point of R623: a version that it carries is gone. -/
def State.forsaken (s : State) (w : StripeWrite) : Bool :=
  w.parts.any (fun p => !s.hce.wb.any (fun e => e.at p.1 p.2.1 p.2.2.1 && e.ver = p.2.2.2)) ||
    w.zeroed.any (fun p => !s.hce.deallocs.any (fun d => d.vsid = p.1 && d.nsid = p.2.1 && d.ver = p.2.2.2 && covers d.ranges p.2.2.1))

/-- Such a stripe write is given up before any member write: its record is freed, and its other versions wait again (R67). -/
def State.abandonStripe (s : State) (w : StripeWrite) : State :=
  let mine := fun (e : WbEntry) => w.parts.any (fun p => e.at p.1 p.2.1 p.2.2.1 && e.ver = p.2.2.2)
  let s1 := s.updHce (fun h => { h with wb := updWhere mine (fun e => { e with issued := false }) h.wb })
  (s1.updRge (fun e => { e with
    writes := e.writes.filter (fun x => !(x.ring = w.ring && x.stripe = w.stripe))
    gathers := e.gathers.filter (fun x => x.owner ≠ .stripe w.ring w.stripe) })).freeIntent w.intentIdx

/-- Data units that a stripe write encrypts under a key slot, under the current and under the old key (R372, R375). -/
def State.unitsOf (s : State) (w : StripeWrite) (slot : Nat) (old : Bool) : Nat :=
  (w.parts.filter (fun p => match s.findNs p.1 p.2.1, s.findKey slot with
    | some n, some k => n.keySlot = slot && (k.oldMaterial.isSome && Nat.ble k.cursor (p.2.2.1 / 16384)) == old
    | _, _ => false)).length

/-- Key slots that a stripe write uses. -/
def State.slotsOf (s : State) (w : StripeWrite) : List Nat :=
  (w.parts.filterMap (fun p => match s.findNs p.1 p.2.1 with
    | some n => if n.keySlot = 0xFFFF then none else some n.keySlot
    | none => none)).foldl addNat []

/-- A key record changes: SEQ rises and the line goes to the peer. -/
def State.putKey (s : State) (slot : Nat) (f : KeySlot → KeySlot) : State :=
  let s1 := s.updKey slot (fun k => { (f k) with seq := k.seq + 1 })
  match s1.findKey slot with
  | some k => s1.sendLine 8 slot k.line
  | none => s1

/-- A rekey starts (R373): the next key stands beside the current one under GEN + 1, CURSOR at 0; the peer is told
(R389). -/
def State.startRekey (s : State) (slot : Nat) : State :=
  let k := s.freeNow
  let s1 := (s.tookFree).putKey slot (fun x => { x with
    oldMaterial := some x.material, material := k, gen := x.gen + 1, oldCount := x.count, count := 0, resv := 0, cursor := 0 })
  { s1 with kvt := { s1.kvt with rekeys := s1.kvt.rekeys ++ [⟨slot, 0, false, 0, none⟩], storeGen := s1.kvt.storeGen + 1 } }

/-- A rekey that starts by itself (R373): the count has reached the threshold, AUTO is 1, and none runs on the slot. -/
def State.autoRekey (s : State) (slot : Nat) : State :=
  match s.findKey slot with
  | none => s
  | some k =>
    if s.cfgBit Reg.iclRkcfg 31 && k.typ = 1 && k.oldMaterial.isNone && 2 ^ s.cfg Reg.iclRkcfg 13 8 ≤ k.count then
      (s.startRekey slot).sendProp 0x0609 (leBytes 2 slot ++ [1, 0] ++ leBytes 4 (k.gen + 1) ++
        padTo 80 (Config.wrapKey Config.pairKey 1 (k.gen + 1) s.freeNow))
    else s

/-- The usage count of a key would pass RESV: RESV + 2^20 is written, to be held by the peer (R372). -/
def State.reserve (s : State) (w : StripeWrite) : State :=
  (s.slotsOf w).foldl (fun t k =>
    match t.findKey k with
    | some x =>
      if x.resv < x.count + t.unitsOf w k false && t.peerHolds x.resvMseq then
        let t1 := t.putKey k (fun y => { y with resv := y.resv + 2 ^ 20 })
        t1.updKey k (fun y => { y with resvMseq := t1.lastMseq })
      else t
    | none => t) s

/-- Every reservation that a stripe write needs is held. -/
def State.reserved (s : State) (w : StripeWrite) : Bool :=
  (s.slotsOf w).all (fun k => match s.findKey k with
    | some x => x.count + s.unitsOf w k false ≤ x.resv && s.peerHolds x.resvMseq
    | none => true)

/-- What the members store for a part or a deallocated block of a stripe: position, row, block. -/
def State.storedParts (s : State) (r : Ring) (w : StripeWrite) : List (Nat × Nat × Block) :=
  (w.parts.filterMap (fun p => match s.findNs p.1 p.2.1, s.hce.wb.find? (fun e => e.at p.1 p.2.1 p.2.2.1 && e.ver = p.2.2.2) with
    | some n, some e =>
      let (_, c, row) := r.ofRba (n.rba e.blk)
      some (c, row, s.seal n e.blk e.data)
    | _, _ => none)) ++
  (w.zeroed.filterMap (fun p => (s.findNs p.1 p.2.1).map (fun n =>
    let (_, c, row) := r.ofRba (n.rba p.2.2.1)
    (c, row, (0 : Block)))))

/-- The blocks of a row that a stripe write stores: position and block (R156, R161); lost blocks of the row are written as zeroes,
which the parity takes in (R201). -/
def Ring.rowWrites (r : Ring) (parts : List (Nat × Nat × Block)) (g : Option Gather) (row : Nat) : List (Nat × Block) :=
  let new := (parts.filter (fun p => p.2.1 = row)).map (fun p => (p.1, p.2.2))
  let need := g.bind (fun (x : Gather) => x.rows.find? (fun (n : RowNeed) => n.row = row))
  let lost := (need.map (fun n => n.lost)).getD []
  let got : List (Nat × MemberBlock) := (need.bind (fun n => if lost.isEmpty then r.rowResult n else some n.got)).getD []
  let oldAt := fun (c : Nat) => ((got.find? (fun e => e.1 = c)).map (fun e => e.2.data)).getD 0
  let rmw := lost.isEmpty && got.any (fun e => r.k ≤ e.1)
  let data := (natsFrom 0 r.k).map (fun c => ((new.find? (fun e => e.1 = c)).map (fun e => e.2)).getD (oldAt c))
  let par := (natsFrom 0 r.m).map (fun j =>
    (r.k + j, if rmw then oldAt (r.k + j) ^^^ parSum j (new.map (fun e => (e.1, e.2 ^^^ oldAt e.1))) else parityOf j data))
  new ++ (lost.filter (fun c => !new.any (fun e => e.1 = c))).map (fun c => (c, (0 : Block))) ++ par

/-- Positions and rows that a stripe write deallocates: members take them as Write Zeroes with Deallocate, so that their
metadata is all zero and they read as never written (R84, R164). -/
def State.deallocAt (s : State) (r : Ring) (w : StripeWrite) : List (Nat × Nat) :=
  w.zeroed.filterMap (fun p => (s.findNs p.1 p.2.1).map (fun n => (r.ofRba (n.rba p.2.2.1)).2))

/-- Steps 2 and 3 of R162: dirty-region bits, then every member write. Write-through versions free older ones of their
blocks now (R77). -/
def State.issueStripe (s : State) (r : Ring) (w : StripeWrite) : State :=
  let g := s.stripeGather w.ring w.stripe
  let parts := s.storedParts r w
  let writes := w.rows.map (fun b => (b, r.rowWrites parts g b))
  let dead := s.deallocAt r w
  let seq := ((s.rge.intents.find? (fun i => i.idx = w.intentIdx)).map (fun i => i.seq)).getD 0
  let s1 := s.markStripe r w.stripe
  let first := s1.bay.nextCmd
  let s2 := (natsFrom 0 r.w).foldl (fun t c =>
    let bs := writes.filterMap (fun e => (e.2.find? (fun x => x.1 = c)).map (fun x => (e.1, x.2)))
    if bs.isEmpty then t
    else
      let (zs, ds) := bs.partition (fun x => dead.any (fun p => p.1 = c && p.2 = x.1))
      let t1 := (r.writeSlots w.stripe c).foldl (fun u j =>
        let put := fun (v : State) (op : MOp) (rows : List Nat) (data : List Block) =>
          if rows.isEmpty then v
          else v.toSlot r j op (r.chunkLba w.stripe c) rows data w.wt (.stripe w.ring w.stripe c seq)
        put (put u .write (ds.map (fun x => x.1)) (ds.map (fun x => x.2))) .writeZeroes (zs.map (fun x => x.1)) []) t
      t1.markMissed r w.stripe c) s1
  let ids := natsFrom first (s2.bay.nextCmd - first)
  let s3 := (s2.slotsOf w).foldl (fun t k =>
    (t.updKey k (fun x => { x with
      count := x.count + s.unitsOf w k false, oldCount := x.oldCount + s.unitsOf w k true })).autoRekey k) s2
  let s3b := s3.laneWork (256 * sumNat ((s.slotsOf w).map (fun k => s.unitsOf w k false + s.unitsOf w k true)))
    (if w.internal then 1 else 0)
  let s4 := s3b.updRge (fun e => { e with
    writes := updWhere (fun x => x.ring = w.ring && x.stripe = w.stripe)
      (fun x => { x with phase := .writing, outstanding := ids }) e.writes
    gathers := e.gathers.filter (fun x => x.owner ≠ .stripe w.ring w.stripe) })
  let s6 := s4.cacheDrop (fun e => w.parts.any (fun p => p.1 = e.1 && p.2.1 = e.2.1 && p.2.2.1 = e.2.2.1) ||
    w.zeroed.any (fun p => p.1 = e.1 && p.2.1 = e.2.1 && p.2.2.1 = e.2.2.1))
  if w.wt then
    w.zeroed.foldl (fun t p => t.supersede p.1 p.2.1 p.2.2.1 1 p.2.2.2)
      (w.parts.foldl (fun t p => t.supersede p.1 p.2.1 p.2.2.1 1 p.2.2.2) s6)
  else s6

/-- A stripe write would reach a member whose drive port is being retrained: it waits (R537). -/
def State.portHolds (s : State) (r : Ring) (stripe : Nat) : Bool :=
  match s.lcu.dpRun with
  | none => false
  | some p => (natsFrom 0 r.w).any (fun c => (r.writeSlots stripe c).any (fun j => (r.slotAt j).bay = some p))

/-- A stripe write goes as far as it can: its reads are in, the peer holds its intent record (R162), every stripe of
its write-through commands has one (R276), and its key usage is reserved (R372). -/
def State.advanceStripe (s : State) (ring stripe : Nat) : State :=
  match s.rge.writes.find? (fun w => w.ring = ring && w.stripe = stripe), s.findRing ring with
  | some w, some r =>
    let read := match s.stripeGather ring stripe with
      | some g => g.rows.all (fun n => (r.rowResult n).isSome)
      | none => true
    if w.phase = .writing then s
    else if s.forsaken w then s.abandonStripe w
    else if !read then s
    else
      let s1 := s.updRge (fun e => { e with
        writes := updWhere (fun x => x.ring = ring && x.stripe = stripe) (fun x => { x with phase := .intent }) e.writes })
      if !s1.peerHolds w.intentMseq || !s1.allOpen w || s1.portHolds r stripe then s1
      else
        let s2 := s1.reserve w
        if s2.reserved w then s2.issueStripe r w else s2
  | _, _ => s

/-- Every stripe write in flight advanced. -/
def State.advanceAll (s : State) : State := s.rge.writes.foldl (fun t w => t.advanceStripe w.ring w.stripe) s

/-- A stripe may be written now: this module masters the ring, suspects come first (R174), one write per stripe (R159),
a free record (R166), no wait of R188, no flush. -/
def State.stripeFree (s : State) (r : Ring) (stripe : Nat) : Bool :=
  r.owner && r.suspects.isEmpty && r.hunt.isNone && stripe < r.stripes && !s.journalFull && !s.hce.flushing &&
    !r.mustWait stripe && !s.portHolds r stripe && !s.stripeBusy r.num stripe

/-- A triggered stripe write starts, and goes as far as it can. -/
def State.tryStripe (s : State) (ring stripe : Nat) (aged : Bool) : State :=
  match s.findRing ring with
  | none => s
  | some r =>
    let cs := s.cands r stripe
    if s.stripeFree r stripe && !cs.isEmpty && s.trigger r cs aged then (s.openStripe r stripe cs).advanceAll else s

/-- Whole blocks taken out of a deallocation record. -/
def cutRange (b : Nat) (l : List (Nat × Nat)) : List (Nat × Nat) :=
  l.flatMap (fun r =>
    if r.1 ≤ b && b < r.1 + r.2 then
      (if r.1 < b then [(r.1, b - r.1)] else []) ++ (if b + 1 < r.1 + r.2 then [(b + 1, r.1 + r.2 - b - 1)] else [])
    else [r])

/-- A block of a deallocation record is on the medium: it leaves the record, and the record with its last block. -/
def State.deallocDoneAt (s : State) (v n b ver : Nat) : State :=
  s.updHce (fun h => { h with
    deallocs := ((updWhere (fun (d : DeallocRec) => d.vsid = v && d.nsid = n && d.ver ≤ ver)
      (fun d => { d with ranges := cutRange b d.ranges }) h.deallocs).filter (fun d => !d.ranges.isEmpty)) })

/-- Steps 4 and 5 of R162: the record is freed, the entries go with their copies (R76), and blocks whose versions come whole
from host data leave the lost-extent table where a member has stored them (R205). -/
def State.endStripe (s : State) (w : StripeWrite) : State :=
  let s1 := (s.updRge (fun e => { e with writes := e.writes.filter (fun x => !(x.ring = w.ring && x.stripe = w.stripe)) })).freeIntent
    w.intentIdx
  let s2 := w.parts.foldl (fun t p =>
    let mine := fun (e : WbEntry) => e.at p.1 p.2.1 p.2.2.1 && e.ver = p.2.2.2
    let stored := match t.findRing w.ring, t.findNs p.1 p.2.1 with
      | some r, some n => !hasNat w.missedAt (r.ofRba (n.rba p.2.2.1)).2.1
      | _, _ => true
    let whole := stored && t.hce.wb.any (fun e => mine e && e.smask = 0xFF)
    let t1 := if whole then t.clearLost p.1 p.2.1 p.2.2.1 else t
    ((t1.freeEntries mine).freeNotice p.1 p.2.1 p.2.2.1 p.2.2.2 w.ring).deallocDoneAt p.1 p.2.1 p.2.2.1 p.2.2.2) s1
  w.zeroed.foldl (fun t p =>
    let old := fun (e : WbEntry) => e.at p.1 p.2.1 p.2.2.1 && e.ver < p.2.2.2 && e.committed && !e.mirror
    (((t.freeEntries old).clearLost p.1 p.2.1 p.2.2.1).freeNotice p.1 p.2.1 p.2.2.1 p.2.2.2 w.ring).deallocDoneAt
      p.1 p.2.1 p.2.2.1 p.2.2.2) s2

/-! ## Gathers come home (R186, R198, R199) -/

/-- A row has all that can be had: its blocks, or the certainty of their loss. -/
def State.rowSettled (s : State) (n : RowNeed) : Bool :=
  match s.findRing n.ring with
  | none => true
  | some r => (r.rowResult n).isSome || ((r.rowLost n || r.mismatch n) && !r.rowWaits n)

/-- The lost data positions of a settled row: with more blocks unavailable than m, every one that is (R200), or those that the
check of R175 condemns. -/
def Ring.lostIn (r : Ring) (n : RowNeed) : List Nat :=
  if (r.rowResult n).isSome then [] else (natsFrom 0 r.k).filter (fun c => !n.got.any (fun e => e.1 = c))

/-- CAUSE of a loss that a gather finds (R202). -/
def Ring.lossCause (r : Ring) (n : RowNeed) : Nat := if r.mismatch n then 3 else if n.bad.isEmpty then 1 else 2

/-- Positions whose repair waits until the stripe is free (R159, R166). -/
def State.deferMend (s : State) (n : RowNeed) (cs : List Nat) : State :=
  s.updRge (fun e => { e with
    mends := cs.foldl (fun l c => if l.any (fun m => m = (n.ring, n.stripe, n.row, c)) then l else l ++ [(n.ring, n.stripe, n.row, c)]) e.mends })

/-- What a gather found wrong in a row is put right under a KIND 0x03 record, at once or when the stripe is free: unreadable
blocks of a solved row are rewritten in place (R199); lost blocks that have a place are written as zeroes, and the parity
follows (R201). -/
def State.repairRow (s : State) (r : Ring) (n : RowNeed) : State :=
  let lost := r.lostIn n
  let place := lost.filter (fun c => !(r.writeSlots n.stripe c).isEmpty)
  let bad := if lost.isEmpty then n.bad else []
  if !r.owner || (bad.isEmpty && place.isEmpty) then s
  else if s.journalFull || s.stripeBusy r.num n.stripe then s.deferMend n (bad ++ place)
  else if lost.isEmpty then
    match n.solved r.k with
    | none => s
    | some data =>
      (s.underRecord r 3 n.stripe (fun seq t =>
        bad.foldl (fun u c => match r.chunkAt n.stripe c with
          | some j => u.putBlock r j n.stripe c n.row seq (rowBlock r.k data c)
          | none => u) t)).bumpBy Reg.rgeRepaired bad.length
  else
    let data := (natsFrom 0 r.k).map (fun c => ((n.got.find? (fun e => e.1 = c)).map (fun e => e.2.data)).getD 0)
    let cs := place ++ natsFrom r.k r.m
    s.underRecord r 3 n.stripe (fun seq t => t.putRow r n.stripe n.row seq data cs)

/-- The block that a gather found for a ring block, none where it is lost. -/
def State.gathered (s : State) (g : Gather) (ring rba : Nat) : Option MemberBlock :=
  match s.findRing ring with
  | none => none
  | some r =>
    let (st, c, row) := r.ofRba rba
    match g.rows.find? (fun n => n.stripe = st && n.row = row) with
    | none => none
    | some n => ((r.rowResult n).bind (fun l => l.find? (fun e => e.1 = c))).map (fun e => e.2)

/-- Losses of a gather recorded by the ringmaster (R200, R202), repairs issued (R199, R201). -/
def State.gatherFaults (s : State) (g : Gather) : State :=
  g.rows.foldl (fun t n =>
    match t.findRing n.ring with
    | none => t
    | some r =>
      (if r.owner then t.recordRow r n.stripe n.row (r.lostIn n) (r.lossCause n) else t).repairRow r n) s

/-- Some wanted data block of a gather is lost. -/
def State.gatherLost (s : State) (g : Gather) : Bool :=
  g.rows.any (fun n => match s.findRing n.ring with
    | some r => (r.lostIn n).any (fun c => hasNat n.wanted c)
    | none => false)

/-- A settled gather is handed to its owner. -/
def State.handGather (s : State) (g : Gather) : State :=
  let lost := s.gatherLost g
  let s1 := s.gatherFaults g
  match g.owner with
  | .stripe ring stripe =>
    -- lost blocks count as zero (R201)
    let fill := fun (n : RowNeed) => match s.findRing n.ring with
      | some r => { n with got := n.got ++ (r.lostIn n).map (fun c => (c, (⟨true, 0, 0⟩ : MemberBlock))), bad := [], lost := r.lostIn n }
      | none => n
    let s2 := s1.updRge (fun e => { e with
      gathers := updWhere (fun x => x.id = g.id) (fun x => { x with rows := x.rows.map fill }) e.gathers })
    s2.advanceStripe ring stripe
  | .mend => s1.updRge (fun e => { e with gathers := e.gathers.filter (fun x => x.id ≠ g.id) })
  | .tag t =>
    let s2 := s1.updRge (fun e => { e with gathers := e.gathers.filter (fun x => x.id ≠ g.id) })
    (match s2.findTag t with
     | none => s2
     | some r =>
       match s2.findNs r.vsid r.cap.nsid with
       | none => s2
       | some n =>
         if r.cap.opcode = 2 || r.cap.opcode = 5 then
           if lost then (if r.st = .committed then s2.rereadDone r n true else s2.failTag t cplUnrecRead)
           else
             let (b0, cnt) := n.touch r.cap.slba r.cap.nlb
             let bs := (natsFrom b0 cnt).zip r.blocks
             let full := { r with blocks := bs.map (fun e =>
               if e.2.isSome then e.2
               else (s.gathered g n.ring (n.rba e.1)).map (fun m => s.unseal n e.1 m.written m.data)) }
             let s3 := (s2.updTag t (fun x => { x with blocks := full.blocks })).releaseLocks t
             -- the model's fill rule: what a Read brings from the media enters the cache (log 69)
             let fill := fun (u : State) (e : Nat × Option Block) => if e.2.isSome then u
               else match s.gathered g n.ring (n.rba e.1) with
                 | some m => u.cacheInsert n.vsid n.nsid e.1 m.written m.data
                 | none => u
             let s4 := if r.cap.opcode = 2 then bs.foldl fill s3 else s3
             if r.st = .committed then s4.rereadDone full n false else s4
         else
           let ws := (r.blockWrites n).filterMap (fun w =>
             (s.gathered g n.ring (n.rba w.blk)).map (fun m => (w.blk, s.unseal n w.blk m.written m.data)))
           (s2.updTag t (fun x => { x with bases := x.bases ++ ws })).placeWrite t)
  | .group gid =>
    let s2 := s1.updRge (fun e => { e with gathers := e.gathers.filter (fun x => x.id ≠ g.id) })
    if lost then s2.failGroup gid
    else
      (match s2.findGroup gid with
       | none => s2
       | some x =>
         match s2.findNs x.vsid x.nsid with
         | none => s2
         | some n =>
           let b0 := (n.touch x.slba x.nlb).1
           let bs := (natsFrom b0 x.blocks.length).zip x.blocks
           (s2.updGroup gid (fun y => { y with blocks := bs.map (fun e =>
             if e.2.isSome then e.2
             else (s.gathered g n.ring (n.rba e.1)).map (fun m => (m.written, m.data))) })).groupReady gid)

/-- A gather asks for what it still needs, or is handed over when it is settled. -/
def State.gatherStep (s : State) (gid : Nat) : State :=
  match s.rge.gathers.find? (fun g => g.id = gid) with
  | none => s
  | some g =>
    if g.rows.all s.rowSettled then s.handGather g
    else
      let open_ := g.rows.filter (fun n => !s.rowSettled n)
      let (s1, rows) := s.askRows gid open_
      s1.updRge (fun e => { e with
        gathers := updWhere (fun x => x.id = gid) (fun x => { x with
          rows := (g.rows.filter s.rowSettled) ++ rows }) e.gathers })

/-- Every gather looks again after a change of a member or a port (R188). -/
def State.reask (s : State) : State :=
  (s.rge.gathers.foldl (fun t g => t.gatherStep g.id) s).advanceAll

/-- One block of a gather's row arrives, or is found unreadable, or the drive cannot be reached. -/
def State.gatherBlock (s : State) (gid stripe row pos : Nat) (b : Option MemberBlock) : State :=
  let f := fun (n : RowNeed) =>
    match b with
    | some m =>
      if m.readable then { n with got := if n.got.any (fun e => e.1 = pos) then n.got else n.got ++ [(pos, m)] }
      else { n with failed := addNat n.failed pos, bad := addNat n.bad pos }
    | none => { n with failed := addNat n.failed pos }
  let s1 := s.updRge (fun e => { e with
    gathers := updWhere (fun x => x.id = gid) (fun x => { x with
      rows := updWhere (fun n => n.stripe = stripe && n.row = row) f x.rows }) e.gathers })
  s1.gatherStep gid

/-- Repairs that waited for a stripe: with the stripe free, the positions are read again (R199). -/
def State.startMends (s : State) (ring stripe : Nat) : State :=
  let mine := s.rge.mends.filter (fun m => m.1 = ring && m.2.1 = stripe)
  if mine.isEmpty || s.stripeBusy ring stripe || s.journalFull then s
  else
    let rows := mine.foldl (fun l m => addNat l m.2.2.1) []
    let needs := rows.map (fun b =>
      (⟨ring, stripe, b, (mine.filter (fun m => m.2.2.1 = b)).map (fun m => m.2.2.2), [], [], [], [], []⟩ : RowNeed))
    let s1 := s.updRge (fun e => { e with mends := e.mends.filter (fun m => !(m.1 = ring && m.2.1 = stripe)) })
    (s1.startGather .mend needs).gatherStep s1.rge.nextGather

/-! ## Member states (R179 to R183) -/

/-- Chunks of a stripe that rebuild can write now: home FAILED, a target that takes writes, not there yet. -/
def Ring.workChunks (r : Ring) (stripe : Nat) : List Nat :=
  (natsFrom 0 r.w).filter (fun c =>
    let h := r.homeOf stripe c
    (r.slotAt h).st = .failed && !hasNat (r.slotAt h).rebuilt stripe &&
      (match r.targetOf stripe c with | some t => r.slotWritable t | none => false))

/-- Stripes with a chunk that rebuild can write. -/
def Ring.workStripes (r : Ring) : List Nat :=
  if r.slots.any (fun m => m.st = .failed) then (natsFrom 0 r.stripes).filter (fun st => !(r.workChunks st).isEmpty) else []

/-- The pass that a level belongs to: RBLVL shows 1 to 3 (R190, R216). -/
def passOf (level : Nat) : Nat := Nat.min 3 level

/-- The stripe that the running pass visits next, with its pass (R190): the highest level with work, in ascending order
from the level's cursor, with wrap. -/
def Ring.nextRebuild (r : Ring) : Option (Nat × Nat) :=
  let work := r.workStripes
  let top := work.foldl (fun a st => Nat.max a (passOf (r.levelOf st))) 0
  let mine := work.filter (fun st => passOf (r.levelOf st) = top)
  match mine.find? (fun st => r.cursors.getD (top - 1) 0 ≤ st) with
  | some st => some (top, st)
  | none => mine.head?.map (fun st => (top, st))

/-- A pass ends when no stripe of its level has work left; the next one of that level begins at slab 0 (R190). -/
def Ring.trimCursors (r : Ring) : Ring :=
  let work := r.workStripes
  { r with cursors := (natsFrom 0 3).map (fun i =>
      if work.any (fun st => passOf (r.levelOf st) = i + 1) then r.cursors.getD i 0 else 0) }

/-- With the last rebuild work the controller ends: R is 0 until work appears again (R195). -/
def State.endWork (s : State) : State :=
  if s.rge.rings.any Ring.hasWork then s else s.updRge (fun e => { e with rate := 0, fshare := 0, work := 0 })

/-- A change of a ring's members: passes that have nothing left end, superblocks when the displaced set changed, and the ceiling
(R95, R139, R190). -/
def State.membersChanged (s : State) (ring : Nat) (displacedChanged : Bool) : State :=
  let s0 := s.updRing ring Ring.trimCursors
  let s1 := if displacedChanged && s0.owns ring then (s0.writeSuperblocks ring).sendServiceAll ring else s0
  s1.recomputeCeil.endWork.reask

/-- A member command leaves the outstanding ones. -/
def State.dropCmd (s : State) (id : Nat) : State :=
  { s with bay := { s.bay with cmds := s.bay.cmds.filter (fun c => c.id ≠ id) } }

/-- A write of a stripe write has ended; when it failed with the member, the member has missed it (R163, R169). -/
def State.stripeCmdDone (s : State) (c : MemberCmd) (ring stripe : Nat) (missed : Bool) : State :=
  let s1 := s.updRge (fun e => { e with
    writes := updWhere (fun w => w.ring = ring && w.stripe = stripe)
      (fun w => { w with
        outstanding := dropNat w.outstanding c.id
        missedAt := match c.purpose with
          | .stripe _ _ pos _ => if missed then addNat w.missedAt pos else w.missedAt
          | _ => w.missedAt }) e.writes })
  if missed then
    s1.updRing ring (fun r => r.setSlot c.slot (fun m => { m with
      missed := addNat (addNat m.missed (r.region0 stripe)) (r.region1 stripe) }))
  else s1

/-- A task's write did not reach its member: the member has missed it, its chunk stays to be done, and the record waits for
it no more. -/
def State.repairGone (s : State) (c : MemberCmd) (ring stripe seq : Nat) : State :=
  let s1 := s.updRge (fun e => { e with tasks := e.tasks.filter (fun t => !(t.ring = ring && t.seq = seq && t.slot = c.slot)) })
  (s1.updRing ring (fun r => r.setSlot c.slot (fun m => { m with
    missed := addNat (addNat m.missed (r.region0 stripe)) (r.region1 stripe) }))).endTask ring seq

/-- A checkpoint that could not be written is none (R172). -/
def State.checkpointGone (s : State) (ring : Nat) : State := s.updRing ring (fun r => { r with ckpt := none })

/-- A member that is displaced holds up nothing: the writes it still has outstanding are left for rebuild (R162, R163). -/
def State.releaseCmd (s : State) (c : MemberCmd) : State :=
  let s1 := s.dropCmd c.id
  match c.purpose with
  | .stripe ring st _ _ => s1.stripeCmdDone c ring st true
  | .repair ring st _ _ seq => s1.repairGone c ring st seq
  | .checkpoint ring => if c.op = .write then s1.checkpointGone ring else s1.endHunt ring
  | _ => s1

/-- Whether a command is a member write, or a checkpoint's, of a ring's member slot. -/
def MemberCmd.holdsUp (c : MemberCmd) (ring j : Nat) : Bool :=
  c.ring = ring && c.slot = j && (match c.purpose with
    | .stripe _ _ _ _ | .repair _ _ _ _ _ | .initZero _ _ | .checkpoint _ => true
    | _ => false)

def State.releaseSlot (s : State) (ring j : Nat) : State :=
  (s.bay.cmds.filter (fun c => c.holdsUp ring j)).foldl State.releaseCmd s

/-- A slot is declared FAILED (R181, R189): it is displaced, its own progress starts anew, and relocated chunks that it
held are reassigned (R194). -/
def State.memberFailed (s : State) (ring j : Nat) : State :=
  let s0 := s.releaseSlot ring j
  match s0.findRing ring with
  | none => s0
  | some r =>
    let o := (r.slotAt j).dorder
    let new := r.setSlot j (fun m => { m with
      st := .failed, rejoin := none, dorder := if o = 0 then r.nextOrder else o,
      rebuilt := if o = 0 then [] else m.rebuilt, filled := [], initLeft := false })
    (s0.updRing ring (fun _ => r.retarget new)).membersChanged ring true

/-- A member leaves (R180): ONLINE and STALE turn ABSENT with the rejoin window running, a replacement turns FAILED with
its copyback stopped (R192). -/
def State.memberLeaves (s : State) (ring j : Nat) : State :=
  match s.findRing ring with
  | none => s
  | some r =>
    match (r.slotAt j).st with
    | .online | .stale =>
      (s.updRing ring (fun x => x.setSlot j (fun m => { m with
        st := .absent, rejoin := some (s.now + sec (s.cfg Reg.rgeMbcfg 7 2)) }))).membersChanged ring false
    | .replacing => s.memberFailed ring j
    | _ => s

/-- The member slots of a drive: ring and slot. -/
def State.slotsOfBay (s : State) (bay : Nat) : List (Nat × Nat) :=
  s.rge.rings.flatMap (fun r => ((natsFrom 0 r.n).filter (fun j => (r.slotAt j).bay = some bay)).map (fun j => (r.num, j)))

/-- This module's port to a drive is lost, or the drive is gone (R180, R182): on the ringmaster the member leaves, on
the other module, which sets no member state (R179), its LOCAL sets. -/
def State.driveLost (s : State) (bay : Nat) : State :=
  (s.slotsOfBay bay).foldl (fun t e =>
    if t.owns e.1 then t.memberLeaves e.1 e.2
    else (t.updRing e.1 (fun x => x.setSlot e.2 (fun m => { m with localBad := true }))).reask) s

/-- A cause of R181 that concerns the drive: every slot of it on the rings mastered here. -/
def State.driveFailed (s : State) (bay : Nat) : State :=
  (s.slotsOfBay bay).foldl (fun t e =>
    let st := ((t.findRing e.1).map (fun r => (r.slotAt e.2).st)).getD .unused
    if t.owns e.1 && (st = .online || st = .stale || st = .absent || st = .replacing) then t.memberFailed e.1 e.2 else t) s

/-- While a drive port is retrained or tested its member is treated as R182 describes (R537). -/
def State.beginDpRun (s : State) (port : Nat) : State :=
  (s.slotsOfBay port).foldl (fun t e => (t.updRing e.1 (fun x => x.setSlot e.2 (fun m => { m with localBad := true }))).reask)
    { s with lcu := { s.lcu with dpRun := some port } }

/-- This module masters a ring, and what waited on the ring looks again. -/
def State.masterRing (s : State) (ring epoch : Nat) : State := (s.becomeMaster ring epoch).reask

/-- The port is back in L0: its member serves again, and what waited goes on (R537). -/
def State.endDpRun (s : State) (port : Nat) : State :=
  if s.lcu.dpRun ≠ some port then s
  else
    let s1 := { s with lcu := { s.lcu with dpRun := none } }
    (((s1.slotsOfBay port).foldl (fun t e => t.updRing e.1 (fun x => x.setSlot e.2 (fun m => { m with localBad := false }))) s1).reask).advanceAll

end Sys2Proof.Machine
end

