-- ==== Sys2Proof/Machine/Formats.lean ====
section
/-! DEFINITION. Format NVM and Sanitize (R100 to R108): the progress records, their phases, and the events that end a
phase. -/

namespace Sys2Proof.Machine

/-- The phase of a code. -/
def phaseOf (n : Nat) : OpPhase :=
  if n = 0 then .prepare else if n = 1 then .key else if n = 2 then .erase else if n = 3 then .dealloc else .done

/-- A Sanitize, rather than a Format. -/
def Progress.sanitizes (p : Progress) : Bool := p.op = 4 || p.op = 5

/-- The phases of R104 that replace a key, and those that erase. -/
def Progress.keys (p : Progress) : Bool := p.op = 3 || p.op = 5
def Progress.erases (p : Progress) : Bool := p.op = 2 || p.op = 4

/-- The namespaces that an operation concerns from now on. -/
def Progress.concerns (p : Progress) (v n : Nat) : Bool := p.vsid = v && (p.nsid = n || hasNat p.nss n)

/-- Namespaces of a subsystem in ascending NSID order. -/
def insNat (x : Nat) : List Nat → List Nat
  | [] => [x]
  | y :: l => if x ≤ y then x :: y :: l else y :: insNat x l
def State.nsidsOf (s : State) (v : Nat) : List Nat :=
  ((s.vsm.nss.filter (fun n => n.vsid = v)).map (fun n => n.nsid)).foldl (fun l x => insNat x l) []

/-- 64 MiB regions of a namespace. -/
def State.regionsOf (s : State) (v n : Nat) : Nat := ((s.findNs v n).map (fun x => x.regions)).getD 0

/-- A progress record of a line, when its CRC holds and it is not free (R106). A Sanitize concerns every namespace of its
subsystem: those below NSID are complete, and it goes on with those above. -/
def State.progressOf (s : State) (idx : Nat) (l : List Byte) : Option Progress :=
  if leAt l 28 4 = (crc32c (l.take 28)).toNat && byteAt l 0 ≠ 0 then
    let v := leAt l 2 2
    let n := leAt l 4 4
    let op := byteAt l 0
    let all := if op = 4 || op = 5 then s.nsidsOf v else [n]
    let regs := s.regionsOf v
    let here := if byteAt l 1 = 2 then leAt l 8 4 else if byteAt l 1 = 3 && (op = 2 || op = 4) then regs n else 0
    some
      { idx := idx, op := op, phase := phaseOf (byteAt l 1), vsid := v, nsid := n, cursor := leAt l 8 4,
        total := leAt l 12 4, lbaf := byteAt l 16, epoch := leAt l 20 4, seq := leAt l 24 4, cmd := none,
        nss := all.filter (fun x => n < x),
        regionsDone := sumNat ((all.filter (fun k => k < n)).map regs) + here, regionsAll := sumNat (all.map regs),
        asleep := false }
  else none

/-- The operations that the peer runs, as its mirrored records tell (R104). -/
def State.peerOps (s : State) : List Progress :=
  s.snt.peerLines.filterMap (fun e => if e.1 = 6 then s.progressOf e.2.1 e.2.2 else none)

/-- Every operation in progress, of this module or of the peer: its phase is not DONE (R102, R103). -/
def State.opsOn (s : State) : List Progress := (s.hce.progress ++ s.peerOps).filter (fun p => p.phase ≠ .done)

/-- A Format runs on a namespace; a Format or a Sanitize runs on a subsystem (R61, R102, R103). -/
def State.formatOn (s : State) (v n : Nat) : Bool := s.opsOn.any (fun p => !p.sanitizes && p.vsid = v && p.nsid = n)
def State.formatIn (s : State) (v : Nat) : Bool := s.opsOn.any (fun p => !p.sanitizes && p.vsid = v)
def State.sanitizeOn (s : State) (v : Nat) : Bool := s.opsOn.any (fun p => p.sanitizes && p.vsid = v)

/-- Epoch of the ring of a namespace. -/
def State.epochOf (s : State) (v n : Nat) : Nat :=
  ((s.findNs v n).bind (fun x => s.findRing x.ring)).elim 0 (fun r => r.epoch)

/-- A record changes: SEQ rises, EPOCH is the ringmaster's now, and the line goes to the peer (R104, R105). -/
def State.putProgress (s : State) (idx : Nat) (f : Progress → Progress) : State :=
  let g := fun (p : Progress) => { (f p) with seq := p.seq + 1, epoch := s.epochOf (f p).vsid (f p).nsid }
  let s1 := s.updHce (fun x => { x with progress := updWhere (fun p => p.idx = idx) g x.progress })
  match s1.hce.progress.find? (fun p => p.idx = idx) with
  | some p => s1.sendLine 6 idx p.line
  | none => s1

/-- A record is freed. -/
def State.freeProgress (s : State) (idx : Nat) : State :=
  (s.updHce (fun x => { x with progress := x.progress.filter (fun p => p.idx ≠ idx) })).sendLine 6 idx (zeroBytes 64)

/-- A free record of the 64 (R104). -/
def State.freeRecord (s : State) : Option Nat :=
  (natsFrom 0 64).find? (fun i => !s.hce.progress.any (fun p => p.idx = i))

/-- An operation starts in PREPARE (R102): record `idx`, the namespaces in order, and for a Format its command. -/
def State.startOp (s : State) (idx op v n lbaf : Nat) (rest : List Nat) (cmd : Option (Nat × Nat)) : State :=
  let p : Progress :=
    { idx := idx, op := op, phase := .prepare, vsid := v, nsid := n, cursor := 0, total := s.regionsOf v n, lbaf := lbaf,
      epoch := s.epochOf v n, seq := 1, cmd := cmd, nss := rest, regionsDone := 0,
      regionsAll := sumNat ((n :: rest).map (s.regionsOf v)), asleep := false }
  (s.updHce (fun x => { x with progress := x.progress ++ [p] })).sendLine 6 idx p.line

/-- Notices of R37 and R291 to one controller: at once when an Asynchronous Event Request waits, else with the next one.
The events' codes and their enables are the NVMe base specification's (log 7). -/
def State.raiseEvent (s : State) (c bit code : Nat) : State :=
  match s.findCtrl c with
  | none => s
  | some x =>
    if x.featAer / 2 ^ bit % 2 = 0 then s
    else
      match x.aers with
      | cid :: l => (s.updCtrl c (fun y => { y with aers := l })).adminDone c cid cplSuccess code
      | [] => s.updCtrl c (fun y => { y with events := addNat y.events code })

/-- A Changed Namespace List notice to every controller of a subsystem; `ana` adds the ANA change notice. -/
def State.notice (s : State) (v n : Nat) (ana : Bool) : State :=
  (s.hce.ctrls.filter (fun c => c.vsid = v && !c.discovery)).foldl (fun t c =>
    let t1 := (t.updCtrl c.cntlid (fun y => { y with changed := addNat y.changed n })).raiseEvent c.cntlid 8 0x00040002
    if ana then t1.raiseEvent c.cntlid 11 0x000C0302 else t1) s

/-- Buffer and cache entries of a namespace that no issued stripe write carries are discarded, own and mirror (R102,
R293); of a ring mastered here the mirror holders are told (R76). -/
def State.discardNs (s : State) (v n : Nat) : State :=
  let s1 := (s.updHce (fun x => { x with
    wb := x.wb.filter (fun e => !(e.vsid = v && e.nsid = n && !e.issued))
    deallocs := x.deallocs.filter (fun e => !(e.vsid = v && e.nsid = n)) })).cacheDrop (fun e => e.1 = v && e.2.1 = n)
  match s.findNs v n with
  | some x =>
    if s.owns x.ring then
      let f : StreamBody := .mirror (.free [⟨v, n, 0, x.blocks, s.hce.seq, x.ring⟩])
      (s1.mirSend f).mirSend2 f
    else s1
  | none => s1

/-- Stripe writes in flight that carry blocks of a namespace. -/
def State.nsInFlight (s : State) (v n : Nat) : Bool :=
  s.rge.writes.any (fun w => w.parts.any (fun p => p.1 = v && p.2.1 = n) || w.zeroed.any (fun p => p.1 = v && p.2.1 = n))

/-- Admitted commands of a namespace that have not completed, on this module or, as its records tell, on the peer (R102,
R293). -/
def State.nsBusy (s : State) (v n : Nat) : Bool :=
  s.hce.tags.any (fun r => r.vsid = v && r.cap.nsid = n && r.st ≠ .responding) ||
    s.rfx.peerCmds.any (fun r => !r.admin && (r.kind = .admitted || r.kind = .committed) && r.vsid = v &&
      r.capsule.any (fun c => c.nsid = n))

/-- Lost extents of a namespace leave the table (R108, R205). -/
def State.clearNsLost (s : State) (v n : Nat) : State :=
  (s.rge.lost.filter (fun e => e.vsid = v && e.nsid = n)).foldl (fun t e => t.dropLost e.idx) s

/-! ## Zeroes on the members (R100, R101, R293) -/

/-- The tag that marks the deallocation record of an operation, and of the deletion of a namespace. -/
def opTag (idx : Nat) : Nat := noTag + 1 + idx
def deleteTag (v n : Nat) : Nat := noTag + 129 + v + 512 * n

/-- Blocks of a namespace are to hold zeroes on the members: a committed deallocation record of them, which stripe writes
carry out with their parity, goes to its holders, or to the ringmaster (R22, R84). It replaces the record of the same tag. -/
def State.putZeroes (s : State) (tag v n first cnt : Nat) : State :=
  match s.findNs v n with
  | none => s
  | some x =>
    let own := s.owns x.ring
    let ver := s.hce.seq + 1
    let fs := carryFrames own [⟨v, n, 0, ver, x.ring, false, 0xFF, 0, [(first, cnt)]⟩]
    let s1 := s.updHce (fun h => { h with
      seq := ver,
      deallocs := h.deallocs.filter (fun d => d.tag ≠ tag) ++ [⟨tag, v, n, ver, x.ring, [(first, cnt)], !own, true⟩] })
    let s2 := s1.mirSendAll fs
    if own then fs.foldl State.mirSend2 s2 else s2

/-- Nothing of the record with a tag is left to store. -/
def State.zeroesDone (s : State) (tag : Nat) : Bool := !s.hce.deallocs.any (fun d => d.tag = tag)

/-- What the members are to do in the phase of an operation: in ERASE the region at CURSOR is overwritten with zeroes, in
DEALLOC every LBA of the namespace is deallocated (R100, R104). -/
def State.runPhase (s : State) (idx : Nat) : State :=
  match s.hce.progress.find? (fun p => p.idx = idx) with
  | none => s
  | some p =>
    match p.phase with
    | .erase => s.putZeroes (opTag idx) p.vsid p.nsid (16384 * p.cursor) 16384
    | .dealloc => s.putZeroes (opTag idx) p.vsid p.nsid 0 (16384 * s.regionsOf p.vsid p.nsid)
    | _ => s

/-- The first phase of a namespace after PREPARE: KEY with the generation to be reached, where it has a key, ERASE, or
DEALLOC. -/
def State.enterNs (s : State) (idx : Nat) : State :=
  match s.hce.progress.find? (fun p => p.idx = idx) with
  | none => s
  | some p =>
    let slot := ((s.findNs p.vsid p.nsid).map (fun x => x.keySlot)).getD 0xFFFF
    let gen := ((s.findKey slot).map (fun k => k.gen)).getD 0
    let s1 := if p.erases && 0 < p.total then s.putProgress idx (fun q => { q with phase := .erase, cursor := 0 })
      else if p.keys && slot ≠ 0xFFFF then s.putProgress idx (fun q => { q with phase := .key, cursor := gen + 1 })
      else s.putProgress idx (fun q => { q with phase := .dealloc, cursor := 0 })
    s1.runPhase idx

/-- An operation of this module in a phase, once it is resumed (R106). -/
def State.opIn (s : State) (idx : Nat) (ph : OpPhase) : Option Progress :=
  s.hce.progress.find? (fun p => p.idx = idx && p.phase = ph && !p.asleep)

/-- FORMAT_PREPARE_DONE (R102): every admitted command on the namespaces has completed; their buffer and cache entries
go. -/
def execFormatPrepareDone (rec : Nat) (s : State) : Host.Outcome State Fault Refusal :=
  match s.opIn rec .prepare with
  | none => .next s
  | some p =>
    let nss := p.nsid :: p.nss
    if nss.any (fun n => s.nsBusy p.vsid n || s.nsInFlight p.vsid n) then .next s
    else .next ((nss.foldl (fun t n => t.discardNs p.vsid n) s).enterNs rec)

/-- ERASE_REGION_DONE (R105): the members hold zeroes in one more region; the next one follows, or DEALLOC. -/
def execEraseRegionDone (rec : Nat) (s : State) : Host.Outcome State Fault Refusal :=
  match s.opIn rec .erase with
  | none => .next s
  | some p =>
    if !s.zeroesDone (opTag rec) then .next s
    else
      let s1 := s.putProgress rec (fun q => { q with cursor := q.cursor + 1, regionsDone := q.regionsDone + 1 })
      .next ((if p.cursor + 1 < p.total then s1
        else s1.putProgress rec (fun q => { q with phase := .dealloc, cursor := 0 })).runPhase rec)

/-- The key of a slot is replaced: new material, the generation of CURSOR, a count that begins at 0 (R100, R106). -/
def State.replaceKey (s : State) (slot gen : Nat) : State :=
  ((s.putKey slot (fun k => { k with
    material := s.freeNow, oldMaterial := none, gen := gen, count := 0, oldCount := 0, resv := 0, cursor := 0 })).tookFree).updKvt
      (fun x => { x with rekeys := x.rekeys.filter (fun r => r.slot ≠ slot) })

/-- KEY_REPLACEMENT_DONE (R100, R104, R106): the key's generation is CURSOR, which is not repeated where it has been reached;
DEALLOC follows. -/
def execKeyReplacementDone (rec : Nat) (s : State) : Host.Outcome State Fault Refusal :=
  match s.opIn rec .key with
  | none => .next s
  | some p =>
    let slot := ((s.findNs p.vsid p.nsid).map (fun x => x.keySlot)).getD 0xFFFF
    let s1 := if (s.findKey slot).any (fun k => k.gen < p.cursor) then s.replaceKey slot p.cursor else s
    .next ((s1.putProgress rec (fun q => { q with phase := .dealloc, cursor := 0 })).runPhase rec)

/-- An operation is DONE (R101, R102, R107): a Format's namespace has its new format, and its command completes, or, resumed,
its notice goes out; the record is freed. -/
def State.endOp (s : State) (p : Progress) : State :=
  let s1 := s.putProgress p.idx (fun q => { q with phase := .done })
  let s2 := if p.sanitizes then s1.updHce (fun x => { x with sanitized := addNat x.sanitized p.vsid })
    else
      let t := s1.updNs p.vsid p.nsid (fun n => { n with lbaf := p.lbaf })
      match p.cmd with
      | some (c, cid) => t.adminDone c cid cplSuccess 0
      | none => t.notice p.vsid p.nsid false
  s2.freeProgress p.idx

/-- DEALLOC_DONE (R104, R105, R108): every LBA of the namespace is deallocated and none is lost; the next namespace of a
Sanitize follows. -/
def execDeallocDone (rec : Nat) (s : State) : Host.Outcome State Fault Refusal :=
  match s.opIn rec .dealloc with
  | none => .next s
  | some p =>
    if !s.zeroesDone (opTag rec) then .next s
    else
      let s1 := s.clearNsLost p.vsid p.nsid
      let add := if p.erases then 0 else p.total
      match p.nss with
      | [] => .next (s1.endOp p)
      | n :: rest =>
        let s2 := s1.putProgress rec (fun q => { q with
          nsid := n, nss := rest, cursor := 0, regionsDone := q.regionsDone + add, total := s.regionsOf q.vsid n })
        .next (s2.enterNs rec)

/-! ## Resumption (R106, R107) -/

/-- The ring of the namespace that a record names. -/
def State.ringOfOp (s : State) (p : Progress) : Option Nat := (s.findNs p.vsid p.nsid).map (fun n => n.ring)

/-- Whether two records are copies of one record. -/
def Progress.sameOp (p q : Progress) : Bool := p.op = q.op && p.vsid = q.vsid && (p.sanitizes || p.nsid = q.nsid)

/-- A record is resumed by its phase (R106): DONE frees it; ERASE goes on at CURSOR, PREPARE and DEALLOC from their start, KEY
with the replacement that is due. -/
def State.resumeOp (s : State) (p : Progress) : State :=
  if p.phase = .done then s.freeProgress p.idx
  else (s.putProgress p.idx (fun q => { q with asleep := false })).runPhase p.idx

/-- The ringmaster of `rings` resumes the operations on their namespaces (R106): those of its own records that a restart left
asleep, and those whose mirrored lines the peer left, of two copies the one of higher SEQ. A line taken over keeps its index
in the peer's area, 64 above the own ones. -/
def State.resumeOps (s : State) (rings : List Nat) : State :=
  let here := fun (p : Progress) => match s.ringOfOp p with | some r => hasNat rings r | none => false
  let theirs := s.peerOps.filter here
  let mine := s.hce.progress.filter (fun p => p.asleep && here p)
  let taken := theirs.filter (fun p => !mine.any (fun q => p.sameOp q && p.seq ≤ q.seq))
  let kept := mine.filter (fun q => !taken.any (fun p => p.sameOp q))
  let new := taken.map (fun p => { p with idx := p.idx + 64, asleep := true })
  let s1 := s.updHce (fun x => { x with
    progress := x.progress.filter (fun p => !(p.asleep && here p)) ++ kept ++ new })
  let s2 := { s1 with snt := { s1.snt with peerLines := s1.snt.peerLines.filter (fun e =>
    !(e.1 = 6 && theirs.any (fun p => p.idx = e.2.1))) } }
  (kept ++ new).foldl State.resumeOp s2

/-- The peer masters a ring: what a restart left asleep here of its operations, the peer has resumed (R106). -/
def State.leaveOps (s : State) (ring : Nat) : State :=
  s.updHce (fun x => { x with progress := x.progress.filter (fun p => !(p.asleep && s.ringOfOp p = some ring)) })

/-- A progress line of the peer (R102, R107): once its operation has left PREPARE, entries of its namespaces go here too; a
Format that is DONE has given its namespace the new format. -/
def State.peerProgress (s : State) (idx : Nat) (l : List Byte) : State :=
  let was := s.peerOps.find? (fun p => p.idx = idx)
  match s.progressOf idx l with
  | none => s
  | some p =>
    if p.phase = .done then
      (if p.sanitizes then s.updHce (fun x => { x with sanitized := addNat x.sanitized p.vsid })
       else (s.updNs p.vsid p.nsid (fun n => { n with lbaf := p.lbaf })).notice p.vsid p.nsid false)
    else if was.any (fun q => q.phase = .prepare) && p.phase ≠ .prepare then
      (p.nsid :: p.nss).foldl (fun t n => t.discardNs p.vsid n) s
    else s

end Sys2Proof.Machine
end

