-- ==== Sys2Proof/Machine/Relti.lean ====
section
/-! DEFINITION. The Relti fabric family (chapter 07): barkers and links, FID claims, link-state routing, STATUS, ring
election and handover, and the control owner. Fabric ports are 0 to 3 for F0 to F3, except in PCS_LINK_UP and
PCS_LINK_DOWN, which also concern host ports and number H0 to H3 as 0 to 3 and F0 to F3 as 4 to 7. -/

namespace Sys2Proof.Machine

/-! ## Links (R220 to R223) -/

/-- A fabric port with MACsec has a SAK in both directions, or needs none (R379). -/
def State.sakReady (s : State) (p : Nat) : Bool :=
  let m := s.kvt.macsec.getD p {}
  !s.cfgBit (Reg.iclMscfg + 4 * p) 31 || (m.txSak.isSome && m.rxSak.isSome)

/-- A fabric port is enabled (RFX.CFG.PORTEN and MAC.PCFGp.EN, R596), and its MACsec is ready. -/
def State.fabEnabled (s : State) (p : Nat) : Bool :=
  p < Config.fabPorts s.part && s.cfgBit Reg.rfxCfg p && s.cfgBit (Reg.macPcfg + 0x40 * (4 + p)) 31 && s.sakReady p

/-- A fabric port goes down (R221): its egress frames are flushed (R341) and the LSA changes. With the last midplane
port the mirror link is lost: death of a joined peer, or under the exemption of R536 the link declared down. -/
def State.portDown (s : State) (p : Nat) : State :=
  if !(s.fabPort p).up then s
  else
    let s1 := ((s.setFabPort p (fun f => { f with up := false })).flushEgress (4 + p)).sendLsa
    if !hasNat (Config.midplane s.part) p || s1.mirrorUp then s1
    else if s.lcu.exempt then s1.mirrorDown
    else s1.declareDead 2

/-- The mirror link is up again after an exemption: the streams reopen with the copy of R80 (R536 step 5). -/
def State.portUp (s : State) (p : Nat) : State :=
  if (s.fabPort p).up then s
  else (s.setFabPort p (fun f => { f with up := true })).sendLsa

/-- FID candidates present in the link-state database under another UID (R226). -/
def State.inLsdb (s : State) (fid : Nat) : Bool := s.rfx.lsdb.any (fun e => e.lsa.fid = fid && e.lsa.uid ≠ s.uid)

/-- The first candidate of R224. -/
def State.firstCandidate (s : State) : Nat :=
  match s.rfx.identity with
  | some f => f
  | none => if s.cfgBit Reg.rfxFidcfg 7 then s.cfg Reg.rfxFidcfg 6 0 else s.uid % 127

/-- The payload of a CLAIM (R225) and of a DEFEND (R227). -/
def claimBytes (uid fid nonce : Nat) : List Byte := beBytes 8 uid ++ beBytes 1 fid ++ beBytes 2 nonce ++ zeroBytes 5
def defendBytes (uid fid claimant nonce : Nat) : List Byte :=
  beBytes 8 uid ++ beBytes 1 fid ++ beBytes 8 claimant ++ beBytes 2 nonce

/-- A claim of a candidate begins with its first CLAIM and a nonce of its own, a free value (R225; log 4). -/
def State.beginClaim (s : State) (cand : Nat) : State :=
  let n := s.freeNow % 65536
  let s1 := s.tookFree.updRfx (fun x => { x with
    fidSt := .claiming, fid := 0x7F, candidate := cand, nonce := n, claims := 1, claimTimer := some (s.now + ms 5),
    claimWait := some (s.now + ms 20), retryTimer := none })
  s1.flood none 2 (claimBytes s.uid cand n)

/-- A claim fails (R226): the next candidate that has not failed and is not in the database, or FULL. -/
def State.claimFail (s : State) : State :=
  let failed := addNat s.rfx.failedCands s.rfx.candidate
  let s1 := s.updRfx (fun x => { x with failedCands := failed })
  let next := (natsFrom 1 126).find? (fun k =>
    let c := (s.rfx.candidate + k) % 127
    !hasNat failed c && !s.inLsdb c)
  match next with
  | some k => s1.beginClaim ((s.rfx.candidate + k) % 127)
  | none => s1.updRfx (fun x => { x with
      fidSt := .full, fid := 0x7F, claimTimer := none, claimWait := none, retryTimer := some (s.now + sec 10),
      failedCands := [] })

/-- A claim starts with its first candidate; one already in the database fails at once (R226). -/
def State.startClaim (s : State) : State :=
  let c := s.firstCandidate
  let s1 := s.beginClaim c
  if s.inLsdb c then s1.claimFail else s1

/-- The BARKER payload of a port (R220). -/
def State.barkerBytes (s : State) (p : Nat) : List Byte :=
  let f := s.fabPort p
  let st := match s.rfx.fidSt with
    | .unclaimed => 0
    | .claiming => 1
    | .held => 2
    | .full => 3
  beBytes 8 s.uid ++ beBytes 4 (Config.unitPres s.part).toNat ++ beBytes 1 (if s.slot = .a then 0 else 1) ++
  beBytes 1 p ++ beBytes 1 st ++ beBytes 1 s.rfx.fid ++ beBytes 8 f.heard ++ beBytes 4 s.rfx.lsaSeq.toNat ++
  beBytes 4 f.bkSeq ++ zeroBytes 16

/-- BARKER_SEND (R220): every 1 ms, one on every enabled fabric port. The first one starts the PEERWAIT limit (R223)
and the claim of a FID (R224). -/
def execBarkerSend (s : State) : Host.Outcome State Fault Refusal :=
  let ps := (natsFrom 0 4).filter (fun p => s.fabEnabled p)
  let s1 := ps.foldl (fun t p =>
    let t1 := t.setFabPort p (fun f => { f with bkSeq := (f.bkSeq + 1) % 2 ^ 32 })
    t1.relti p 1 0x7F (t1.barkerBytes p)) s
  let s2 := if s.rfx.started then s1
    else s1.updRfx (fun x => { x with
      started := true
      peerWait := if x.peer.joined || x.peer.mismatch then none else some (s.now + sec (s.cfg Reg.rfxElcfg 5 0)) })
  .next (if s2.rfx.fidSt = .unclaimed then s2.startClaim else s2)

/-- A midplane neighbour is the peer (R222): a different part forms no pair (R9), the same part joins once a midplane
port is up (R80), after what `pre` does to the stores (R284). -/
def State.meetPeer (s : State) (b : Barker) (pre : State → State) : State :=
  let s1 := s.updRfx (fun x => { x with peer := { x.peer with uid := b.uid, fid := b.fid } })
  if BitVec.ofNat 32 b.unitPres.toNat ≠ Config.unitPres s.part then
    let s2 := s1.updRfx (fun x => { x with peer := { x.peer with mismatch := true, absent := false }, peerWait := none })
    ((s2.updHce (fun x => { x with wtStartup := false, wtMismatch := true, wtPeerAbs := false })).applyWt).sendBids
  else if s1.mirrorUp && !s1.rfx.peer.joined && !s1.tk.fenceOut then (pre s1).joinPeer
  else s1

/-- A received barker (R220, R221): the neighbour is noted; another UID than before takes the port down first; a barker
that has heard this module brings it up. -/
def State.takeBarker (s : State) (port : Nat) (b : Barker) (pre : State → State) : State :=
  let f := s.fabPort port
  if !s.fabEnabled port || !f.pcs then s
  else
    let s1 := if f.nbrUid ≠ 0 && f.nbrUid ≠ b.uid then s.portDown port else s
    let s2 := s1.setFabPort port (fun g => { g with
      nbrUid := b.uid, nbrFid := b.fid, nbrPort := b.port, nbrMac := b.mac, heard := b.uid, lastBarker := some s.now })
    let s3 := if b.heard = s.uid then s2.portUp port else s2
    let s4 := if f.nbrFid ≠ b.fid && (s3.fabPort port).up && f.up then s3.sendLsa else s3
    (if hasNat (Config.midplane s.part) port then s4.meetPeer b pre else s4)

/-- BARKER_TIMEOUT (R221): three periods of 1 ms without a valid barker. -/
def execBarkerTimeout (port : Nat) (s : State) : Host.Outcome State Fault Refusal :=
  match (s.fabPort port).lastBarker with
  | some t => if t + ms 3 ≤ s.now then .next (s.portDown port) else .next s
  | none => .next s

/-- The PCS link of a port goes down (R221, R341): ports 0 to 3 are H0 to H3, 4 to 7 F0 to F3. -/
def State.pcsDown (s : State) (port : Nat) : State :=
  if port < 4 then ({ s with mac := { s.mac with hostUp := dropNat s.mac.hostUp port } }).flushEgress port
  else
    let p := port - 4
    (s.portDown p).setFabPort p (fun f => { f with pcs := false, nbrUid := 0, nbrFid := 0x7F, heard := 0 })

/-- PCS_LINK_DOWN (R221, R341). -/
def execPcsLinkDown (port : Nat) (s : State) : Host.Outcome State Fault Refusal := .next (s.pcsDown port)

/-- A port whose link is down for a retrain, a port test or as parked: its link counts as up only once its check has passed
(R532, R533, R573). Ports 0 to 3 are H0 to H3, 4 to 7 F0 to F3. -/
def State.retrainHolds (s : State) (port : Nat) : Bool :=
  s.lcu.retrains.any (fun r => r.port = port && !r.early) || s.lcu.parked.any (fun r => r.1 = port)

/-- A port may run: MAC.PCFGp.EN, and RFX.CFG.PORTEN of a fabric port (R596); in test boot its transmitters idle (R582). -/
def State.macRuns (s : State) (port : Nat) : Bool :=
  !s.tst.boot && s.cfgBit (Reg.macPcfg + 0x40 * port) 31 && (port < 4 || s.cfgBit Reg.rfxCfg (port - 4))

/-- The lanes and the MAC of a port are ON (R505, R519, R520). -/
def State.portAwake (s : State) (port : Nat) : Bool :=
  (if port < 4 then hostDoms port else fabDoms (port - 4)).all (hasNat s.pwr.domOn)

/-- PCS_LINK_UP (R221, R520, R596): a port that is shed has no link; a fabric port waits for its barker. On a host port that is up again, identities that were placed
elsewhere for its sake come back (R272, R519), once the module is not in Doze. -/
def execPcsLinkUp (port : Nat) (s : State) : Host.Outcome State Fault Refusal :=
  if s.retrainHolds port || 8 ≤ port || !s.macRuns port || !s.portAwake port then .next s
  else if port < 4 then
    let s1 := { s with mac := { s.mac with hostUp := addNat s.mac.hostUp port } }
    if s.pwr.mode = .doze || s.lcu.retrains.any (fun r => r.port = port) then .next s1
    else
      let s2 := if s1.identPort port = port then s1 else s1.moveIdent port port
      let s3 := if s2.tk.idents.any (fun e => e.1 = 4 + port) then s2.moveIdent (4 + port) port else s2
      .next s3
  else .next (s.setFabPort (port - 4) (fun f => { f with pcs := true }))

/-- PEERWAIT_EXPIRY (R223): no barker of a midplane neighbour came in time. -/
def execPeerwaitExpiry (s : State) : Host.Outcome State Fault Refusal :=
  if due s.rfx.peerWait s.now then .next s.peerAbsent else .next s

/-! ## FID claim and defence (R224 to R229) -/

/-- CLAIM_INTERVAL (R225): the second and third CLAIM, 5 ms apart. -/
def execClaimInterval (s : State) : Host.Outcome State Fault Refusal :=
  if s.rfx.fidSt = .claiming && due s.rfx.claimTimer s.now && s.rfx.claims < 3 then
    let s1 := s.updRfx (fun x => { x with
      claims := x.claims + 1, claimTimer := if x.claims + 1 < 3 then some (s.now + ms 5) else none })
    .next (s1.flood none 2 (claimBytes s.uid s.rfx.candidate s.rfx.nonce))
  else .next s

/-- OWNER frame of a ring: RING, FID, reserved, epoch (R238). -/
def State.ownerFrame (s : State) (ring fid epoch : Nat) : State :=
  s.toPeer 6 (beBytes 1 ring ++ beBytes 1 fid ++ zeroBytes 2 ++ beBytes 4 epoch)

/-- CLAIM_WAIT_EXPIRY (R225): the claim succeeds; the FID goes to the identity record, an LSA is sent, and for rings
mastered here new OWNER frames with the same epoch (R228). -/
def execClaimWaitExpiry (s : State) : Host.Outcome State Fault Refusal :=
  if s.rfx.fidSt = .claiming && due s.rfx.claimWait s.now then
    let f := s.rfx.candidate
    let s1 := (s.updRfx (fun x => { x with
      fidSt := .held, fid := f, identity := some f, claimTimer := none, claimWait := none, failedCands := [] })).sendLine
        7 8 (sealLine (leBytes 1 f))
    let s2 := s1.sendLsa.sendBids
    .next ((s2.rge.rings.filter (fun r => r.owner)).foldl (fun t r =>
      (t.updRing r.num (fun x => { x with master := some f })).ownerFrame r.num f r.epoch) s2)
  else .next s

/-- A CLAIM or DEFEND is new: its pair is kept for 50 ms (R229). -/
def State.noteDup (s : State) (uid nonce : Nat) : State :=
  s.updRfx (fun x => { x with dups := x.dups ++ [(uid, nonce, s.now + ms 50)] })

def State.isDup (s : State) (uid nonce : Nat) : Bool :=
  s.rfx.dups.any (fun d => d.1 = uid && d.2.1 = nonce && s.now < d.2.2)

/-- CLAIM_RECEIVE (R226, R227): flooded on, answered by the holder, and lost to a lower UID. -/
def execClaimReceive (port uid fid nonce : Nat) (s : State) : Host.Outcome State Fault Refusal :=
  if uid = s.uid || s.isDup uid nonce then .next s
  else
    let s1 := s.noteDup uid nonce
    let s2 := if s.rfx.fidSt = .held then s1.flood (some port) 2 (claimBytes uid fid nonce) else s1
    if s.rfx.fidSt = .held && s.rfx.fid = fid then .next (s2.flood none 3 (defendBytes s.uid fid uid nonce))
    else if s.rfx.fidSt = .claiming && s.rfx.candidate = fid && uid < s.uid then .next s2.claimFail
    else .next s2

/-- DEFEND_RECEIVE (R226). -/
def execDefendReceive (port uid fid claimUid nonce : Nat) (s : State) : Host.Outcome State Fault Refusal :=
  if uid = s.uid || s.isDup uid nonce then .next s
  else
    let s1 := s.noteDup uid nonce
    let s2 := if s.rfx.fidSt = .held then s1.flood (some port) 3 (defendBytes uid fid claimUid nonce) else s1
    if s.rfx.fidSt = .claiming && s.rfx.candidate = fid then .next s2.claimFail else .next s2

/-- DUPLICATE_SUPPRESSION_EXPIRY (R229). -/
def execDuplicateSuppressionExpiry (uid nonce : Nat) (s : State) : Host.Outcome State Fault Refusal :=
  .next (s.updRfx (fun x => { x with
    dups := x.dups.filter (fun d => !(d.1 = uid && d.2.1 = nonce && d.2.2 ≤ s.now)) }))

/-- FID_RETRY (R226): every 10 s while no FID was free. -/
def execFidRetry (s : State) : Host.Outcome State Fault Refusal :=
  if s.rfx.fidSt = .full && due s.rfx.retryTimer s.now then .next s.startClaim else .next s

/-- The FID is given up (R228): MOVED sets, the former FID is accepted for 1 s, and a new claim starts with the candidate after
it, as after a claim that fails (R226; log 84). -/
def State.giveUpFid (s : State) : State :=
  let s1 := s.raiseFlag Reg.rfxFidstat 11
  let s2 := s1.updRfx (fun x => { x with
    former := some x.fid, formerTimer := some (s.now + sec 1), identity := none, failedCands := [x.fid] })
  (s2.updRfx (fun x => { x with candidate := x.fid })).claimFail

/-- A sequence number is newer in 32-bit serial arithmetic (R231). -/
def serialNewer (a b : BitVec 32) : Bool := (a - b) ≠ 0 && (a - b).toNat < 2 ^ 31

/-- LSA_RECEIVE (R231): stored and flooded when new or newer, else discarded; the own LSA is no entry of the database
(log 72). An LSA of another module with the own FID is settled by UID (R228), and one that holds the candidate fails the
claim (R226). -/
def execLsaReceive (port : Nat) (lsa : Lsa) (s : State) : Host.Outcome State Fault Refusal :=
  if lsa.uid = s.uid then .next s
  else if s.rfx.fidSt = .held && lsa.fid = s.rfx.fid then
    .next (if s.uid < lsa.uid then s else s.giveUpFid)
  else
    let take := match s.rfx.lsdb.find? (fun e => e.lsa.fid = lsa.fid) with
      | none => s.rfx.lsdb.length < 127
      | some e => serialNewer lsa.seq e.lsa.seq
    if !take then .next s
    else
      let s1 := s.updRfx (fun x => { x with
        lsdb := x.lsdb.filter (fun e => e.lsa.fid ≠ lsa.fid) ++ [⟨lsa, s.now + ms 3500⟩] })
      let s2 := if s.rfx.fidSt = .held then s1.flood (some port) 4 lsa.bytes else s1
      let s3 := s2.reroute
      .next (if s.rfx.fidSt = .claiming && s.rfx.candidate = lsa.fid then s3.claimFail else s3)

/-- LSA_REFRESH (R230): every 1 s. -/
def execLsaRefresh (s : State) : Host.Outcome State Fault Refusal :=
  if s.rfx.fidSt = .held then .next s.sendLsa else .next s

/-- LSDB_ENTRY_EXPIRY (R231): 3.5 s without an LSA. -/
def execLsdbEntryExpiry (fid : Nat) (s : State) : Host.Outcome State Fault Refusal :=
  if s.rfx.lsdb.any (fun e => e.lsa.fid = fid && e.expires ≤ s.now) then
    .next (s.updRfx (fun x => { x with lsdb := x.lsdb.filter (fun e => e.lsa.fid ≠ fid) })).reroute
  else .next s

/-- FORMER_FID_EXPIRY (R228). -/
def execFormerFidExpiry (s : State) : Host.Outcome State Fault Refusal :=
  if due s.rfx.formerTimer s.now then .next (s.updRfx (fun x => { x with former := none, formerTimer := none }))
  else .next s

/-- FRAME_FORWARD (R234): a frame for another module goes to a next-hop port. HOPS counts down first. -/
def execFrameForward (port : Nat) (hdr : ReltiHdr) (s : State) : Host.Outcome State Fault Refusal :=
  if s.rfx.fidSt ≠ .held || hdr.dst = s.rfx.fid || s.rfx.former = some hdr.dst then .next s
  else if hdr.hops ≤ 1 then .next (s.bump Reg.rfxHopexp)
  else
    match s.rfx.routes.find? (fun r => r.1 = hdr.dst) with
    | none => .next (s.bump Reg.rfxNoroute)
    | some (_, _, ps) =>
      let p := ps.getD (Config.flowHash hdr.src hdr.dst hdr.flow % Nat.max ps.length 1) 0
      let len := 34 + hdr.len
      let s1 := (s.emit (.head p (s.reltiHead p { hdr with hops := hdr.hops - 1 }))).xbar (4 + port) (reltiClass hdr.typ)
        hdr.control [plainCopy (4 + p) 0 512 (reltiClass hdr.typ) len] len
      .next (s1.count 0x30 (some (4 + p)) none 1 0 1)

/-- BAD_RELTI_FRAME (R218). -/
def execBadReltiFrame (_port : Nat) (_f : FrameIn) (s : State) : Host.Outcome State Fault Refusal := .next s.badRelti

/-- RTQRY_WRITE: the route to the written FID is latched in RFX.RTDATA. -/
def State.rtqryWrite (s : State) (w : Word) : State :=
  let d := fieldOf w 6 0
  let v := match s.rfx.routes.find? (fun r => r.1 = d) with
    | some (_, h, ps) => place 1 31 ||| place h 8 ||| maskOf ps
    | none => 0
  (s.putReg Reg.rfxRtqry (w &&& regKept Reg.rfxRtqry)).updRfx (fun x => { x with rtData := v })

def execRtqryWrite (w : Word) (s : State) : Host.Outcome State Fault Refusal := .next (s.rtqryWrite w)

/-! ## STATUS (R219) -/

/-- What a STATUS frame of this module reports. -/
def State.statusNow (s : State) : PeerStatus :=
  { dirty := s.dirtyBlocks, ceiling := s.hce.effCeil * gibBlocks, mirrorRoom := s.mirrorRoom,
    rebuildRings := (s.rge.rings.filter Ring.hasWork).length, memberTraffic := s.rge.traffic,
    retrainNotice := s.lcu.retrains.any (fun r => r.phase = .notice), retrainAck := s.lcu.peerNotice && s.lcu.exempt,
    hbEnabled := s.cfgBit Reg.rfxTkcfg 1, retrainClear := !s.lcu.exempt }

/-- A STATUS frame to the peer. -/
def State.sendStatus (s : State) : State :=
  match s.peerPort with
  | none => s
  | some p => (s.emit (.status p s.statusNow)).xbarRelti p s.rfx.peer.fid 7 64

/-- STATUS_SEND (R219). -/
def execStatusSend (s : State) : Host.Outcome State Fault Refusal := .next s.sendStatus

/-- Conditions of R536 on this module for a retrain of F0. -/
def State.f0Ok (s : State) : Bool :=
  s.rfx.peer.joined && s.cfgBit Reg.rfxTkcfg 1 && s.rfx.peer.hbEnabled && !s.hce.wtTakeover &&
    s.mbx.activating.isNone && s.pwr.mode ≠ .doze

/-- Steps 2 to 4 of R536 after the acknowledgement: F0 is exempt, the mirror link is down, the port trains. -/
def State.f0Train (s : State) : State :=
  let s1 := { s with lcu := { s.lcu with
    exempt := true, retrains := updWhere (fun r => r.port = 4) (fun r => { r with phase := .training, deadline := none })
      s.lcu.retrains } }
  (s1.mirrorDown).setFabPort 0 (fun f => { f with up := false, pcs := false })

/-- STATUS_RECEIVE (R219, R536): the peer's figures; its retrain notice is taken up when the conditions hold here, and
its acknowledgement starts the retrain that waits for it. -/
def execStatusReceive (st : PeerStatus) (s : State) : Host.Outcome State Fault Refusal :=
  let s1 := s.updRfx (fun x => { x with peer := { x.peer with
    dirty := st.dirty, ceiling := st.ceiling, room := st.mirrorRoom, rebuildRings := st.rebuildRings,
    traffic := st.memberTraffic, hbEnabled := st.hbEnabled } })
  let s2 := if st.retrainNotice && !s1.lcu.exempt && s1.f0Ok then
      let t := { s1 with lcu := { s1.lcu with exempt := true, peerNotice := true } }
      t.mirrorDown
    else s1
  let s3 := if st.retrainAck && s2.lcu.retrains.any (fun r => r.port = 4 && r.phase = .notice) then s2.f0Train else s2
  .next (if st.retrainClear && s3.lcu.peerNotice && s3.mirrorUp then
      ({ s3 with lcu := { s3.lcu with exempt := false, peerNotice := false } }).joinPeer
    else s3)

/-! ## Ringmaster election and handover (R236 to R244) -/

/-- ELECT_RECEIVE (R237, R238): with both bids the election is decided; a module that masters the ring answers with
OWNER (R236). -/
def execElectReceive (ring prio fid epoch : Nat) (s : State) : Host.Outcome State Fault Refusal :=
  match s.findRing ring with
  | none => .next s
  | some r =>
    if r.owner then .next (s.ownerFrame ring s.rfx.fid r.epoch)
    else
      let s1 := s.updRing ring (fun x => { x with peerBid := some (prio, fid, epoch) })
      if r.bidTimer.isSome then .next (s1.decide ring) else .next (s1.sendBid ring)

/-- ELECTION_TIMEOUT (R238): 10 ms after the own bid without the peer's. -/
def execElectionTimeout (ring : Nat) (s : State) : Host.Outcome State Fault Refusal :=
  match s.findRing ring with
  | some r => if due r.bidTimer s.now && r.peerBid.isNone then .next (s.decide ring) else .next s
  | none => .next s

/-- OWNER_SEND (R238): once the peer holds the winner's new epoch, OWNER goes out, R174 runs, and operations on the ring's
namespaces are resumed (R106). -/
def execOwnerSend (ring : Nat) (s : State) : Host.Outcome State Fault Refusal :=
  match s.findRing ring with
  | some r =>
    (match r.ownMseq with
     | some m =>
       if s.peerHolds m then
         .next (((s.ownerFrame ring s.rfx.fid r.epoch).masterRing ring r.epoch).resumeOps [ring])
       else .next s
     | none => .next s)
  | none => .next s

/-- OWNER_RECEIVE (R238, R240, R243): the higher epoch governs. Named itself, the module adopts the ring; else it
records the ringmaster, and its own entries for the ring turn into mirror copies. -/
def execOwnerReceive (ring fid epoch : Nat) (s : State) : Host.Outcome State Fault Refusal :=
  match s.findRing ring with
  | none => .next s
  | some r =>
    if epoch < r.epoch || (epoch = r.epoch && r.owner) then .next s
    else if fid = s.rfx.fid then .next ((s.sendEpoch ring epoch).masterRing ring epoch)
    else
      let s1 := s.updRing ring (fun x => { x with
        owner := false, epoch := epoch, master := some fid, bid := none, peerBid := none, bidTimer := none,
        ownMseq := none, held := false })
      .next ((if r.owner then s1.ringRegion ring true else s1).leaveOps ring)

/-- RING_HANDOVER (R242, R243 step 1). -/
def execRingHandover (m : Master) (s : State) : Host.Outcome State Fault Refusal :=
  .next (s.runCmd m 0x0306 (fun c s =>
    let n := byteAt c.params 0
    let r := s.findRing n
    s.checked m
      [(7 < n, stInvalidParam), (r.isNone, stConflict), (!s.owns n, stNotOwner),
       (!s.rfx.peer.joined || !s.mirrorUp ||
          r.any (fun x => x.initRunning || x.resyncing || x.handover.isSome), stConflict)]
      (fun s => (s.updRing n (fun x => { x with handover := some (m, s.now + ms 20), held := true })).keepRunning m)))

/-- Admitted data-changing commands of a ring's namespaces that have not committed, those that the peer forwarded among them, or
member writes in flight (R243 step 2). -/
def State.ringBusy (s : State) (ring : Nat) : Bool :=
  s.rge.writes.any (fun w => w.ring = ring) || s.bay.cmds.any (fun c => (natsFrom 0 24).any (c.holdsUp ring)) ||
    s.hce.wb.any (fun e => e.ring = ring && !e.mirror && !e.dead && !e.committed) ||
    s.hce.deallocs.any (fun d => d.ring = ring && !d.mirror && !d.committed) ||
    s.hce.tags.any (fun r => r.open_ && r.cap.exclusive &&
      (match s.findNs r.vsid r.cap.nsid with | some n => n.ring = ring | none => false))

/-- HANDOVER_QUIESCED (R243 steps 3 to 5): the epoch rises, OWNER names the peer, and the own entries become mirror
copies. -/
def execHandoverQuiesced (ring : Nat) (s : State) : Host.Outcome State Fault Refusal :=
  match s.findRing ring with
  | none => .next s
  | some r =>
    match r.handover with
    | none => .next s
    | some (m, _) =>
      if !r.owner || s.ringBusy ring then .next s
      else
        let e := r.epoch + 1
        let s1 := ((s.sendEpoch ring e).sendHeader ring).ownerFrame ring s.rfx.peer.fid e
        let s2 := s1.updRing ring (fun x => { x with
          owner := false, epoch := e, master := some s.rfx.peer.fid, handover := none, held := false })
        .next ((s2.ringRegion ring true).finish m stOk [])

/-- HANDOVER_TIMEOUT (R243): step 2 took longer than 20 ms. -/
def execHandoverTimeout (ring : Nat) (s : State) : Host.Outcome State Fault Refusal :=
  match s.findRing ring with
  | none => .next s
  | some r =>
    match r.handover with
    | none => .next s
    | some (m, t) =>
      if s.now < t then .next s
      else .next ((s.updRing ring (fun x => { x with handover := none, held := false })).finish m stBusy [])

/-! ## Control owner (R245 to R249) -/

def State.updMbx (s : State) (f : MbxSt → MbxSt) : State := { s with mbx := f s.mbx }

/-- MBX.OWNCFG.LEASE in ns. -/
def State.leaseNs (s : State) : Nat := sec (s.cfg Reg.mbxOwncfg 12 8)

/-- A master becomes control owner; its lease starts (R245, R249), and a session of another master ends (R394). The service endpoint hears of a loss by master 0x0
(SEP.EVTSTAT.OWNLOST). -/
def State.setOwner (s : State) (m : Option Master) : State :=
  let s0 := if s.kvt.session.any (fun (x : Master × Nat × Nat) => m ≠ some x.1) then s.endSession else s
  let s1 := s0.updMbx (fun x => { x with owner := m, lease := m.map (fun _ => s.now + s.leaseNs) })
  if s.mbx.owner = some .service && m ≠ some .service then s1.sepEvent 0 else s1

/-- The result of OWNER_CLAIM and OWNER_RENEW (R248): owner and lease left in ms. -/
def State.ownerResult (s : State) : List Byte :=
  let o := (s.mbx.owner.map Master.num).getD 0
  let left := match s.mbx.lease with | some t => (t - s.now) / 1000000 | none => 0
  leBytes 1 o ++ zeroBytes 1 ++ leBytes 2 left

/-- OWNER_CLAIM (R245, R247). -/
def execOwnerClaim (m : Master) (s : State) : Host.Outcome State Fault Refusal :=
  .next (s.runCmd m 0x0B01 (fun _ s =>
    if s.mbx.window.isSome then
      (s.updMbx (fun x => { x with claims := if x.claims.any (fun k => k = m) then x.claims else x.claims ++ [m] })).keepRunning m
    else if s.mbx.owner = some m then s.finish m stOk s.ownerResult
    else if s.mbx.owner.isSome then s.finish m stNotOwner []
    else
      let s1 := s.setOwner (some m)
      s1.finish m stOk s1.ownerResult))

/-- OWNER_RENEW (R246, R248). -/
def execOwnerRenew (m : Master) (s : State) : Host.Outcome State Fault Refusal :=
  .next (s.runCmd m 0x0B02 (fun c s => s.checked m [(!c.fromOwner, stNotOwner)] (fun s => s.finish m stOk s.ownerResult)))

/-- A master is present (R245). -/
def State.present (s : State) (m : Master) : Bool :=
  match (s.heldOf m).present with
  | some t => s.now < t
  | none => false

/-- HANDOVER (R248, R249). -/
def execHandover (m : Master) (s : State) : Host.Outcome State Fault Refusal :=
  .next (s.runCmd m 0x0B03 (fun c s =>
    let t := byteAt c.params 0
    s.checked m
      [(!c.fromOwner, stNotOwner), (3 < t || t = m.num, stInvalidParam), (!s.present (masterOf t), stConflict)]
      (fun s => (s.setOwner (some (masterOf t))).finish m stOk [])))

/-- A re-election window of 100 ms opens (R246). -/
def State.openWindow (s : State) : State := s.updMbx (fun x => { x with window := some (s.now + ms 100), claims := [] })

/-- OWNER_RELEASE (R246, R248). -/
def execOwnerRelease (m : Master) (s : State) : Host.Outcome State Fault Refusal :=
  .next (s.runCmd m 0x0B04 (fun c s =>
    s.checked m [(!c.fromOwner, stNotOwner)] (fun s => ((s.setOwner none).openWindow).finish m stOk [])))

/-- The masters in the order of MBX.OWNCFG, highest rank first. -/
def State.ranking (s : State) : List Master :=
  (natsFrom 0 4).map (fun i => masterOf (s.cfg Reg.mbxOwncfg (2 * i + 1) (2 * i)))

/-- ELECTION_WINDOW_CLOSE (R245): the claimant of highest rank becomes control owner. -/
def execElectionWindowClose (s : State) : Host.Outcome State Fault Refusal :=
  if !due s.mbx.window s.now then .next s
  else
    let cs := s.mbx.claims
    let s1 := s.updMbx (fun x => { x with window := none, claims := [] })
    match s.ranking.find? (fun m => cs.any (fun k => k = m)) with
    | none => .next s1
    | some w =>
      let s2 := s1.setOwner (some w)
      .next (cs.foldl (fun t k => if k = w then t.finish k stOk t.ownerResult else t.finish k stNotOwner []) s2)

/-- LEASE_EXPIRY (R246). -/
def execLeaseExpiry (s : State) : Host.Outcome State Fault Refusal :=
  if due s.mbx.lease s.now then .next ((s.setOwner none).openWindow) else .next s

/-- MASTER_PRESENCE_EXPIRY (R245): no packet within twice the lease. -/
def execMasterPresenceExpiry (m : Master) (s : State) : Host.Outcome State Fault Refusal :=
  if due (s.heldOf m).present s.now then .next (s.setHeld m (fun h => { h with present := none })) else .next s

end Sys2Proof.Machine
end

