-- ==== Sys2Proof/Machine/Rings.lean ====
section
/-! DEFINITION. The ring family (chapter 05): creation and deletion, stripe writes, the dirty-region bitmap and its
checkpoints, resynchronisation, the placement query. -/

namespace Sys2Proof.Machine

/-! ## Drives as members (R137, R138) -/

/-- The conditions of R137. -/
def DriveInfo.fit (d : DriveInfo) : Bool :=
  d.lbaf4kMeta16 && d.nsMgmt && 10 ≤ d.maxNs && d.writeZeroes && d.dlfeatZero

/-- Rings of which the drive in a bay is a member. -/
def State.ringsOfBay (s : State) (bay : Nat) : List Ring :=
  s.rge.rings.filter (fun r => r.slots.any (fun m => m.bay = some bay && m.st ≠ .failed))

def gib : Nat := 2 ^ 30

/-- Bytes free on the drive of a bay for ring data: capacity less the namespaces of R138 it holds or still needs. -/
def State.freeBytes (s : State) (bay : Nat) (d : DriveInfo) : Nat :=
  d.capacity - 9 * gib - sumNat ((s.ringsOfBay bay).map (fun r => r.chunks * 65536))

/-- The identified drive in a powered bay. -/
def State.poweredDrive (s : State) (bay : Nat) : Option DriveInfo :=
  let b := s.bayOf bay
  if b.st = .powered || b.st = .ready then b.drive else none

/-- A drive that can become a member, or what refuses it (R141, R213): empty, unpowered or unfit. -/
def State.fitDrive (s : State) (bay : Nat) : Bool :=
  match s.poweredDrive bay with
  | some d => d.fit
  | none => false

/-- Room for `bytes` of ring data on a drive that is a member of fewer than 8 rings. -/
def State.roomOn (s : State) (bay bytes : Nat) : Bool :=
  match s.poweredDrive bay with
  | some d => (s.ringsOfBay bay).length < 8 && bytes ≤ s.freeBytes bay d
  | none => false

/-- The namespaces of R138 created on a drive: metadata and flush area with its first ring, and the ring's data. -/
def State.makeNamespaces (s : State) (r : Ring) (j bay : Nat) : State :=
  let s1 := if (s.ringsOfBay bay).all (fun x => x.num = r.num) then
      (s.issueMember bay r.num j .createNs (gib / 4096) [0] [] false .upkeep).issueMember bay r.num j .createNs
        (8 * gib / 4096) [1] [] false .upkeep
    else s
  s1.issueMember bay r.num j .createNs (r.chunks * 16) [2 + r.num] [] false .upkeep

/-- Chunk slots per member (R140, R144): MEMCAP GiB, or the largest that fits on every member. -/
def State.ringChunks (s : State) (memcap : Nat) (bays : List Nat) : Nat :=
  if memcap ≠ 0 then memcap * gib / 65536
  else (bays.map (fun b => match s.poweredDrive b with
    | some d => s.freeBytes b d / 65536
    | none => 0)).foldl Nat.min (2 ^ 48)

/-- RING_CREATE (R140 to R142). -/
def execRingCreate (m : Master) (s : State) : Host.Outcome State Fault Refusal :=
  .next (s.runCmd m 0x0301 (fun c s =>
    let p := c.params
    let num := byteAt p 0
    let k := byteAt p 1
    let mm := byteAt p 2
    let sp := byteAt p 3
    let n := byteAt p 4
    let seed := leAt p 8 4
    let memcap := leAt p 12 4
    let bays := ((p.drop 16).take (Nat.min n 24)).map (fun b => b.toNat)
    let chunks := s.ringChunks memcap bays
    let range := 7 < num || k < 4 || 16 < k || mm < 1 || 3 < mm || 2 < sp || n < 8 || 24 < n || leAt p 5 3 ≠ 0 ||
      seed = 0 || n - sp < k + mm || bays.any (fun b => 23 < b) || !bays.Nodup
    s.checked m
      [((mm = 3 && !Config.hasTriple s.part) || bays.any (fun b => Config.bays s.part ≤ b && b ≤ 23), stAbsent),
       (range, stInvalidParam),
       ((s.findRing num).isSome, stConflict),
       (bays.any (fun b => !s.fitDrive b), stConflict),
       (bays.any (fun b => !s.roomOn b (if memcap = 0 then 0 else memcap * gib)) || chunks < k + mm, stLimit)]
      (fun s =>
        let slot := fun (b : Nat) =>
          (⟨.online, some b, ((s.bayOf b).drive.map (fun d => d.serial)).getD 0, false, none, 0, [], [], true, [], []⟩ : MemberSlot)
        let r : Ring :=
          { num := num, n := n, k := k, m := mm, s := sp, seed := BitVec.ofNat 32 seed, chunks := chunks, gen := 0,
            slots := bays.map slot, initRunning := true, torn := false, flushIncomplete := false, resyncAll := false,
            suspects := [], verify := none, hdrSeq := 0, ckSeq := 0, ckSlot := 0, ckRot := 0, ckpt := none, hdrOwn := false,
            hunt := none, sweepAt := none, ckptAt := none, bitmap := [],
            owner := false, epoch := 0, master := none, bid := none, peerBid := none, bidTimer := none, ownMseq := none,
            handover := none, held := false, cursors := [0, 0, 0], patrol := 0, svcSeq := 0 }
        let s1 := s.updRge (fun e => { e with rings := e.rings ++ [r] })
        let s2 := ((natsFrom 0 n).zip bays).foldl (fun t e => t.makeNamespaces r e.1 e.2) s1
        (((s2.writeSuperblocks num).recomputeCeil).finish m stOk []).ringOnline num)))

/-- A ring leaves this module's safety net and registers (R143). -/
def State.removeRing (s : State) (ring : Nat) : State :=
  let s1 := s.updRge (fun e => { e with
    rings := e.rings.filter (fun r => r.num ≠ ring), intents := e.intents.filter (fun i => i.ring ≠ ring),
    lost := e.lost.filter (fun x => x.ring ≠ ring), mends := e.mends.filter (fun x => x.1 ≠ ring),
    tasks := e.tasks.filter (fun t => t.ring ≠ ring),
    shared := e.shared.filter (fun x => x.num ≠ ring) })
  ({ s1 with snt := { s1.snt with peerLines := s1.snt.peerLines.filter (fun e =>
      !((e.1 = 2 && e.2.1 = ring) || ((e.1 = 3 || e.1 = 5) && e.2.1 / 2 ^ 20 = ring))) } }).recomputeCeil

/-- RING_DELETE (R143): the ring data namespace and superblocks go from every member reached, the ring's lines are
cleared, and the peer is told. -/
def execRingDelete (m : Master) (s : State) : Host.Outcome State Fault Refusal :=
  .next (s.runCmd m 0x0302 (fun c s =>
    let n := byteAt c.params 0
    s.checked m
      [(7 < n, stInvalidParam), ((s.findRing n).isNone, stConflict), (!s.owns n, stNotOwner),
       (s.vsm.nss.any (fun x => x.ring = n), stConflict)]
      (fun s =>
        match s.findRing n with
        | none => s
        | some r =>
          let s1 := (natsFrom 0 r.n).foldl (fun t j =>
            let x := r.slotAt j
            if t.reaches x then
              let t1 := (t.toSlot r j .deleteNs 0 [2 + n] [] false .upkeep).toSlot r j .superblock n [0, 8] [0, 0] true .upkeep
              match x.bay with
              | some b => t1.setBay b (fun y => { y with drive := y.drive.map (fun d =>
                  { d with superblocks := d.superblocks.filter (fun e => e.ring ≠ n) }) })
              | none => t1
            else t) s
          let s2 := (r.bitmap.foldl (fun l x => addNat l (x / 480)) []).foldl (fun t l => t.sendLine 3 (bmIndex n l) (sealLine []))
            ((s1.sendLine 2 n (sealLine [])).sendLine 5 (bmIndex n 0) (sealLine []))
          (s2.removeRing n).propagate m
            { m := m, opcode := 0x0302, params := c.params, vsid := 512, subs := [], nss := [], slot := 0, keys := [],
              result := [] })))

/-- RING_INIT_COMPLETE (R142): every member that counts has completed its Write Zeroes. -/
def execRingInitComplete (ring : Nat) (s : State) : Host.Outcome State Fault Refusal :=
  match s.findRing ring with
  | some r =>
    if r.initRunning && r.owner && r.slots.all (fun m => !m.initLeft) then
      .next (s.updRing ring (fun x => { x with initRunning := false }))
    else .next s
  | none => .next s

/-! ## Stripe writes -/

/-- STRIPE_WRITE_START (R159 to R162). -/
def execStripeWriteStart (ring stripe : Nat) (s : State) : Host.Outcome State Fault Refusal :=
  .next (s.tryStripe ring stripe false)

/-- DRAIN_MAXAGE_EXPIRY (R160). -/
def execDrainMaxageExpiry (ring stripe : Nat) (s : State) : Host.Outcome State Fault Refusal :=
  .next (s.tryStripe ring stripe true)

/-- STRIPE_WRITE_COMPLETE (R162 steps 4 and 5): no member write is outstanding. -/
def execStripeWriteComplete (ring stripe : Nat) (s : State) : Host.Outcome State Fault Refusal :=
  match s.rge.writes.find? (fun w => w.ring = ring && w.stripe = stripe) with
  | some w => if w.phase = .writing && w.outstanding.isEmpty then .next ((s.endStripe w).startMends ring stripe) else .next s
  | none => .next s

/-! ## Bitmap and checkpoints (R169 to R173) -/

/-- A region's bit may be cleared (R169): no open record names it, and no member still misses a write in it. -/
def State.sweepable (s : State) (r : Ring) (x : Nat) : Bool :=
  !s.rge.intents.any (fun i => i.ring = r.num && (i.region0 = x || i.region1 = x)) &&
    (natsFrom 0 r.n).all (fun j =>
      let m := r.slotAt j
      !hasNat m.missed x || m.st = .online || (r.displaced j && r.turnsLeft j = 0))

/-- BITMAP_SWEEP (R170, R177): every SWEEP seconds each line with a bit to clear is rewritten once, and the header's SEQ rises
(R171). -/
def execBitmapSweep (ring : Nat) (s : State) : Host.Outcome State Fault Refusal :=
  match s.findRing ring with
  | none => .next s
  | some r =>
    if !r.owner || !due r.sweepAt s.now then .next s
    else
      let gone := r.bitmap.filter (fun x => s.sweepable r x)
      let r1 := { r with
        bitmap := r.bitmap.filter (fun x => !hasNat gone x), hdrSeq := r.hdrSeq + 1,
        sweepAt := some (s.now + sec (s.cfg Reg.rgeBmcfg 11 0)),
        slots := r.slots.map (fun m => { m with missed := m.missed.filter (fun x => !hasNat gone x) }) }
      let s1 := s.updRing ring (fun _ => r1)
      let lines := gone.foldl (fun l x => addNat l (x / 480)) []
      .next ((lines.foldl (fun t l => t.sendLine 3 (bmIndex ring l) (r1.bmLine l)) s1).sendHeader ring)

/-- The three lowest-numbered slots that are not displaced (R172). -/
def Ring.ckSlots (r : Ring) : List Nat := ((natsFrom 0 r.n).filter (fun j => !r.displaced j)).take 3

/-- The blocks of a checkpoint (R172). -/
def Ring.ckBlocks (r : Ring) (seq : Nat) (clean : Bool) : List Block :=
  let c := padTo 0xFFC (leBytes 4 0x4B564250 ++ leBytes 1 r.num ++ leBytes 1 (if clean then 1 else 0) ++ zeroBytes 2 ++
    leBytes 8 seq ++ leBytes 4 r.regions)
  let lines := ceilDiv r.regions 480
  blockOfBytes (c ++ leBytes 4 (crc32c c).toNat) ::
    (natsFrom 0 (ceilDiv lines 64)).map (fun b =>
      blockOfBytes ((natsFrom (64 * b) (Nat.min 64 (lines - 64 * b))).flatMap (fun l => r.bmLine l)))

/-- A checkpoint goes to a member slot. -/
def State.writeCheckpoint (s : State) (r : Ring) (j seq : Nat) (clean : Bool) : State :=
  let bs := r.ckBlocks seq clean
  s.toSlot r j .write (0x100 + 0x800 * r.num) (natsFrom 0 bs.length) bs false (.checkpoint r.num)

/-- A clean checkpoint to every rotation member, for a ring without an open record (R173). -/
def State.cleanCheckpoint (s : State) (r : Ring) : State :=
  match r.ckSlots with
  | [] => s
  | j :: js =>
    if !r.owner || s.rge.intents.any (fun i => i.ring = r.num) then s
    else
      let seq := r.ckSeq + 1
      let s1 := (s.updRing r.num (fun x => { x with hdrSeq := x.hdrSeq + 1, ckpt := some (j, seq) })).sendHeader r.num
      (j :: js).foldl (fun t i => t.writeCheckpoint r i seq true) s1

/-- The clean checkpoints of an orderly shutdown (R173). -/
def State.cleanCheckpoints (s : State) : State := s.rge.rings.foldl State.cleanCheckpoint s

/-- BITMAP_CHECKPOINT (R172, R177): every CKPT seconds, to the members in rotation. -/
def execBitmapCheckpoint (ring : Nat) (s : State) : Host.Outcome State Fault Refusal :=
  match s.findRing ring with
  | none => .next s
  | some r =>
    let js := r.ckSlots
    if !r.owner || r.ckpt.isSome || js.isEmpty || !due r.ckptAt s.now || s.pwr.restart.any (fun x => x.clean) then .next s
    else
      let j := js.getD (r.ckRot % js.length) 0
      let seq := r.ckSeq + 1
      let s1 := s.updRing ring (fun x => { x with
        hdrSeq := x.hdrSeq + 1, ckpt := some (j, seq), ckRot := (x.ckRot + 1) % 3,
        ckptAt := some (s.now + sec (s.cfg Reg.rgeBmcfg 27 16)) })
      .next ((s1.sendHeader ring).writeCheckpoint r j seq false)

/-- CHECKPOINT_WRITE_COMPLETE (R172): the header names the checkpoint once its write has completed. -/
def execCheckpointWriteComplete (ring : Nat) (s : State) : Host.Outcome State Fault Refusal :=
  match s.findRing ring with
  | none => .next s
  | some r =>
    match r.ckpt with
    | none => .next s
    | some (j, seq) =>
      if s.bay.cmds.any (fun c => c.purpose = .checkpoint ring && c.op = .write) then .next s
      else .next ((s.updRing ring (fun x => { x with ckSeq := seq, ckSlot := j, ckpt := none })).sendHeader ring)

/-! ## Resynchronisation (R174) -/

/-- Rows whose bit is set in a ROWMASK. -/
def maskRows (mask : Nat) : List Nat := (natsFrom 0 16).filter (fun b => mask / 2 ^ b % 2 = 1)

/-- The blocks of a row given with a completed task, none where they are not. -/
def rowsFor (rows : List (Nat × RowData)) (b : Nat) : RowData :=
  ((rows.find? (fun e => e.1 = b)).map (fun e => e.2)).getD []

/-- Newest dirty versions of a row of a stripe that the buffer holds. -/
def State.bufferedRow (s : State) (r : Ring) (stripe row : Nat) : List WbEntry :=
  let es := s.hce.wb.filter (fun e => e.ring = r.num && !e.dead && e.committed &&
    (match s.findNs e.vsid e.nsid with
     | some n => r.ofRba (n.rba e.blk) = (stripe, (r.ofRba (n.rba e.blk)).2.1, row)
     | none => false))
  es.filter (fun e => !es.any (fun f => f.at e.vsid e.nsid e.blk && e.ver < f.ver))

/-- The redo of a row: the newest buffered versions over the row's stored data, with its parity, as a stripe write stores
them. -/
def State.redoRow (s : State) (r : Ring) (stripe seq : Nat) (d : RowData) (row : Nat) : State :=
  let es := s.bufferedRow r stripe row
  let (data, lost, cause) := mendRow r.k true d
  let bad := (rowBad d).filter (fun c => c < r.k && !hasNat lost c)
  let put := es.filterMap (fun e => (s.findNs e.vsid e.nsid).map (fun n => ((r.ofRba (n.rba e.blk)).2.1, s.seal n e.blk e.data)))
  let new := (natsFrom 0 r.k).map (fun c => ((put.find? (fun x => x.1 = c)).map (fun x => x.2)).getD (data.getD c 0))
  let gone := lost.filter (fun c => !put.any (fun x => x.1 = c))
  let mend := bad.filter (fun c => !put.any (fun x => x.1 = c))
  let s1 := (s.recordRow r stripe row gone cause).bumpBy Reg.rgeRepaired bad.length
  let s2 := ((put.map (fun x => x.1)) ++ gone ++ mend ++ natsFrom r.k r.m).foldl (fun t c =>
    (r.writeSlots stripe c).foldl (fun u j =>
      u.toSlot r j .write (r.chunkLba stripe c) [row] [rowBlock r.k new c] false (.stripe r.num stripe c seq))
      (t.markMissed r stripe c)) s1
  s2.cacheDrop (fun x => es.any (fun e => x.1 = e.vsid && x.2.1 = e.nsid && x.2.2.1 = e.blk))

/-- The redo of a stripe's rows as one stripe write under the record in slot `x`: its versions leave the buffer when it is complete
(R76, R162). -/
def State.redoStripe (s : State) (r : Ring) (stripe x seq : Nat) (rows : List (Nat × RowData)) (rs : List Nat) : State :=
  let es := rs.flatMap (s.bufferedRow r stripe)
  let key := fun (e : WbEntry) => (e.vsid, e.nsid, e.blk, e.ver)
  let s1 := rs.foldl (fun t b => t.redoRow r stripe seq (r.rowRead stripe (rowsFor rows b)) b) s
  let w : StripeWrite :=
    { ring := r.num, stripe := stripe, phase := .writing, rows := rs, rmw := false, full := false, parts := es.map key,
      zeroed := [], wt := false, intentIdx := x, intentMseq := s.lastMseq,
      outstanding := natsFrom s.bay.nextCmd (s1.bay.nextCmd - s.bay.nextCmd), missedAt := [] }
  (s1.updRge (fun e => { e with writes := e.writes ++ [w] })).updHce (fun h => { h with
    wb := updWhere (fun e => es.any (fun f => key f = key e)) (fun e => { e with issued := true }) h.wb })

/-- A row in which some data blocks carry the record's SEQ and others do not (R174 step 5). -/
def tornRow (i : Intent) (k : Nat) (d : RowData) : Bool :=
  let bs := (((natsFrom 0 d.length).zip d).filter (fun e => e.1 < k && i.posmask / 2 ^ e.1 % 2 = 1)).filterMap (fun e => e.2)
  let has := fun (b : MemberBlock) => b.seq = i.seq % 2 ^ 32
  bs.any has && bs.any (fun b => !has b)

/-- SUSPECT_STRIPE_DONE (R174 steps 4, 5 and 8): the suspect of lowest SEQ is redone from the buffer or reconciled, under
a KIND 0x03 record; the original record is freed. `rows` are the blocks read of every row of its ROWMASK. -/
def execSuspectStripeDone (ring stripe : Nat) (rows : List (Nat × RowData)) (s : State) : Host.Outcome State Fault Refusal :=
  match s.findRing ring with
  | none => .next s
  | some r =>
    match r.suspects with
    | [] => .next s
    | i :: rest =>
      let rs := maskRows i.rowmask
      if !r.owner || i.stripe ≠ stripe || !rs.all (fun b => rows.any (fun e => e.1 = b)) ||
          s.stripeBusy ring stripe || s.journalFull then .next s
      else
        let (s1, x) := s.openIntent ring 3 i.flags stripe i.rowmask i.posmask i.version
        let seq := s1.rge.jseq
        let s2 := s1.markStripe r stripe
        let redo := s.hce.wb.any (fun e => e.ring = ring && !e.dead && e.committed && s.stripeOf r e.vsid e.nsid e.blk = some stripe)
        let torn := !redo && rs.any (fun b => tornRow i r.k (rowsFor rows b))
        let s3 := if redo then s2.redoStripe r stripe x seq rows rs
          else (rs.foldl (fun t b => t.settleRow r stripe seq true (b, rowsFor rows b)) s2).endTask ring seq
        let s4 := if torn then (s3.bump Reg.rgeTorn).updRing ring (fun y => { y with torn := true }) else s3
        let s5 := if s4.rge.intents.any (fun y => y.idx = i.idx && y.ring = ring && y.seq = i.seq) then s4.freeIntent i.idx
          else { s4 with snt := { s4.snt with peerLines := s4.snt.peerLines.filter (fun e => !(e.1 = 1 && e.2.1 = i.idx)) } }
        .next ((s5.updRing ring (fun y => { y with suspects := rest })).reask)

/-! ## The pace of rebuild work (R193, R195) -/

/-- This module's share f of the shelf's rings with rebuild work, in 1/256 (R195, R196). -/
def State.workShare (s : State) : Nat :=
  let mine := (s.rge.rings.filter Ring.hasWork).length
  256 * mine / Nat.max (mine + if s.rfx.peer.joined then s.rfx.peer.rebuildRings else 0) 1

/-- R in MB/s: RBCFG.FLOOR × f until the controller has run on the work at hand (R195). -/
def State.rateNow (s : State) : Nat :=
  if s.rge.rate = 0 then 100 * s.cfg Reg.rgeRbcfg 7 0 * s.workShare / 256 else s.rge.rate

/-- Rebuild work is issued at R: what 10 ms of R allow is not used up (R176, R195). -/
def State.mayWork (s : State) : Bool := s.rge.work < 10000 * s.rateNow

/-- Bytes of rebuild work issued. -/
def State.worked (s : State) (n : Nat) : State := s.updRge (fun e => { e with work := e.work + n })

/-- No rebuild pass, rejoin or copyback of the ring is pending: the verification may run (R193). -/
def Ring.onlyVerify (r : Ring) : Bool :=
  r.nextRebuild.isNone && r.slots.all (fun m => m.st ≠ .stale && m.st ≠ .replacing)

/-- VERIFY_STRIPE_DONE (R174 steps 7 and 8): the stripe at the verification's cursor; mismatching parity is
rewritten. -/
def execVerifyStripeDone (ring : Nat) (rows : List (Nat × RowData)) (s : State) : Host.Outcome State Fault Refusal :=
  match s.findRing ring with
  | none => .next s
  | some r =>
    match r.verify with
    | none => .next s
    | some st =>
      if !r.owner || !r.suspects.isEmpty || !(natsFrom 0 16).all (fun b => rows.any (fun e => e.1 = b)) ||
          s.stripeBusy ring st || s.journalFull || !r.onlyVerify || !s.mayWork then .next s
      else
        let s1 := s.underRecord r 3 st (fun seq t =>
          (natsFrom 0 16).foldl (fun u b => u.settleRow r st seq false (b, rowsFor rows b)) t)
        .next ((((s1.worked 65536).updRing ring (fun y => { y with
          verify := if st + 1 < r.stripes then some (st + 1) else none })).endWork).reask)

/-- PTQRY_WRITE: the placement-table entry is latched in RGE.PTDATA. -/
def State.ptqryWrite (s : State) (w : Word) : State :=
  let v := match s.findRing (fieldOf w 26 24) with
    | some r => if fieldOf w 20 16 < r.n then (makeRow r.seed (fieldOf w 11 0) r.n).getD (fieldOf w 20 16) 0x1F else 0x1F
    | none => 0x1F
  (s.putReg Reg.rgePtqry (w &&& regKept Reg.rgePtqry)).updRge (fun e => { e with ptData := BitVec.ofNat 32 v })

def execPtqryWrite (w : Word) (s : State) : Host.Outcome State Fault Refusal := .next (s.ptqryWrite w)

end Sys2Proof.Machine
end

