-- ==== Sys2Proof/Machine/Members.lean ====
section
/-! DEFINITION. The member family (chapter 06): drives that return or are replaced, rebuild, copyback, the rate
controller, patrol, and the ring-service commands. -/

namespace Sys2Proof.Machine

/-! ## Identified drives (R139, R143, R192, R207) -/

/-- A replacement is accepted for a displaced slot (R192). -/
def State.acceptReplacement (s : State) (ring j bay : Nat) : State :=
  match s.findRing ring, (s.bayOf bay).drive with
  | some r, some d =>
    let s1 := s.makeNamespaces r j bay
    (s1.updRing ring (fun x => x.setSlot j (fun m => { m with
      st := .replacing, bay := some bay, serial := d.serial, filled := [], resynced := [], localBad := false }))).membersChanged
      ring true
  | _, _ => s

/-- A replacement fits a slot: R137, room, and no slot of the ring holds the drive already. -/
def State.canReplace (s : State) (r : Ring) (bay : Nat) : Bool :=
  s.fitDrive bay && s.roomOn bay (r.chunks * 65536) &&
    !r.slots.any (fun m => m.bay = some bay && m.st ≠ .failed)

/-- A drive in the bay of a FAILED slot while AUTOREPL is 1 becomes its replacement, when it fits (R192). -/
def State.autoReplace (s : State) (ring j bay : Nat) : State :=
  match s.findRing ring with
  | some r =>
    if (r.slotAt j).st = .failed && s.cfgBit Reg.rgeMbcfg 0 && s.canReplace r bay then s.acceptReplacement ring j bay else s
  | none => s

/-- An identified drive has the serial number of a slot of a ring mastered here (R180, R207): an ABSENT member rejoins, for a
FAILED slot it is a new drive, and a second drive of an ONLINE or STALE one is refused. -/
def State.matchOwn (s : State) (r : Ring) (bay j : Nat) : State :=
  let m := r.slotAt j
  match m.st with
  | .absent =>
    let s1 := s.updRing r.num (fun x => x.setSlot j (fun y => { y with
      st := .stale, bay := some bay, rejoin := none, localBad := false, resynced := [] }))
    let s2 := if r.initRunning && m.initLeft then
        (match s1.findRing r.num with
         | some x => s1.toSlot x j .writeZeroes 0 [] [] false (.initZero r.num j)
         | none => s1)
      else s1
    s2.membersChanged r.num false
  | .online | .stale =>
    if m.bay = some bay then (s.updRing r.num (fun x => x.setSlot j (fun y => { y with localBad := false }))).reask
    else s.setBay bay (fun b => { b with drive := none })
  | .failed | .replacing =>
    let s1 := (s.updRing r.num (fun x => x.setSlot j (fun y => { y with localBad := y.localBad && y.bay ≠ some bay }))).reask
    if m.bay = some bay then s1.autoReplace r.num j bay else s1
  | .unused => s

/-- What identification of a drive does to one member slot. The module that does not master the ring changes no member state
(R179): it notes that its own port reaches the drive (R182). -/
def State.matchSlot (s : State) (bay : Nat) (d : DriveInfo) (ring j : Nat) : State :=
  match s.findRing ring with
  | none => s
  | some r =>
    let m := r.slotAt j
    if m.st = .unused then s
    else if !r.owner then
      (if m.serial = d.serial then
        (s.updRing ring (fun x => x.setSlot j (fun y => { y with bay := some bay, localBad := false }))).reask
       else s)
    else if m.serial = d.serial then s.matchOwn r bay j
    else if m.bay = some bay then
      (if m.st = .absent then s.memberFailed ring j else s).autoReplace ring j bay
    else s

/-- The bay holder clears what superblocks of deleted rings left on a drive (R143). -/
def State.cleanDrive (s : State) (bay : Nat) (d : DriveInfo) : State :=
  if !s.bay.holder then s
  else
    let old := d.superblocks.filter (fun e => e.valid && !s.rge.rings.any (fun r => r.num = e.ring && r.seed.toNat = e.seed))
    let s1 := ((old.map (fun e => e.ring)).foldl addNat []).foldl (fun t n =>
      (t.issueMember bay n 0 .deleteNs 0 [2 + n] [] false .upkeep).issueMember bay n 0 .superblock n [0, 8] [0, 0]
        true .upkeep) s
    s1.setBay bay (fun b => { b with drive := b.drive.map (fun x =>
      { x with superblocks := x.superblocks.filter (fun e => !old.any (fun o => o.ring = e.ring)) }) })

/-- The superblock copy of a ring with the highest GEN among those whose CRC is valid (R139). -/
def bestCopy (l : List SbCopy) (r : Ring) : Option SbCopy :=
  (l.filter (fun e => e.valid && e.ring = r.num && e.seed = r.seed.toNat)).foldl (fun a e =>
    match a with
    | some x => if x.gen < e.gen then some e else a
    | none => some e) none

/-- A member slot as a superblock gives it: serial number and order of displacement. -/
def MemberSlot.fromSb (m : MemberSlot) (serial order : Nat) : MemberSlot :=
  { m with
    serial := serial, dorder := order,
    st := if order ≠ 0 then (if m.st = .replacing then .replacing else .failed)
      else if m.st = .failed || m.st = .replacing then .absent else m.st,
    rebuilt := if order = m.dorder then m.rebuilt else [] }

/-- A superblock copy newer than what this module knows of a ring that it does not master is used (R139). -/
def State.useSuperblocks (s : State) (d : DriveInfo) : State :=
  s.updRge (fun e => { e with rings := e.rings.map (fun r =>
    match bestCopy d.superblocks r with
    | some c =>
      if r.owner || c.gen ≤ r.gen then r
      else { r with gen := c.gen, slots := ((natsFrom 0 r.slots.length).zip r.slots).map (fun (x : Nat × MemberSlot) =>
        if x.1 < r.n then x.2.fromSb (c.serials.getD x.1 0) (c.orders.getD x.1 0) else x.2) }
    | none => r) })

/-- DRIVE_IDENTIFIED (R139, R143, R207). -/
def execDriveIdentified (bay : Nat) (info : DriveInfo) (s : State) : Host.Outcome State Fault Refusal :=
  if Config.bays s.part ≤ bay then .next s
  else
    let s1 := ((s.setBay bay (fun b => { b with drive := some info })).cleanDrive bay info).useSuperblocks info
    let slots := s1.rge.rings.flatMap (fun r => (natsFrom 0 r.n).map (fun j => (r.num, j)))
    .next (slots.foldl (fun t e => t.matchSlot bay info e.1 e.2) s1)

/-- REJOIN_WINDOW_EXPIRY (R180): only the ringmaster sets member state (R179). -/
def execRejoinWindowExpiry (ring slot : Nat) (s : State) : Host.Outcome State Fault Refusal :=
  match s.findRing ring with
  | some r =>
    if r.owner && (r.slotAt slot).st = .absent && due (r.slotAt slot).rejoin s.now then .next (s.memberFailed ring slot)
    else .next s
  | none => .next s

/-- SMART_CRITICAL_WARNING (R181): bit 2 or bit 3. -/
def execSmartCriticalWarning (bay : Nat) (bits : BitVec 8) (s : State) : Host.Outcome State Fault Refusal :=
  if bits.getLsbD 2 || bits.getLsbD 3 then .next (s.driveFailed bay) else .next s

/-! ## Rebuild, rejoin and copyback (R189 to R194, R208) -/

/-- One block row of a stripe whose chunks `put` are written to the member slots beside them: each is copied or reconstructed,
unreadable blocks of the row are repaired in place (R198), lost ones are recorded and written as zeroes, and the row's
parity follows (R201). -/
def State.renewRow (s : State) (r : Ring) (stripe seq : Nat) (put : List (Nat × Nat)) (d : RowData) (row : Nat) : State :=
  let e := r.rowRead stripe d
  let (data, lost, cause) := mendRow r.k (r.unverified stripe) e
  let s1 := (s.recordRow r stripe row lost cause).repairPut r stripe row seq data ((rowBad e).filter (fun c => !hasNat lost c))
  let s2 := put.foldl (fun t p => t.putBlock r p.2 stripe p.1 row seq (rowBlock r.k data p.1)) s1
  if lost.isEmpty then s2
  else (lost ++ natsFrom r.k r.m).foldl (fun t c =>
    ((r.writeSlots stripe c).filter (fun j => !put.any (fun p => p = (c, j)))).foldl (fun u j =>
      u.putBlock r j stripe c row seq (rowBlock r.k data c)) (t.markMissed r stripe c)) s2

/-- The 16 rows of a stripe read, and nothing in its way (R159, R166, R174, R188), with rate left (R195). -/
def State.mayRenew (s : State) (r : Ring) (stripe : Nat) (rows : List (Nat × RowData)) : Bool :=
  r.owner && r.suspects.isEmpty && r.hunt.isNone && (natsFrom 0 16).all (fun b => rows.any (fun e => e.1 = b)) &&
    !r.mustWait stripe && !s.stripeBusy r.num stripe && !s.journalFull && s.mayWork

/-- Chunks of a stripe go to member slots under a KIND 0x02 record; their writes once completed, the chunks are done. -/
def State.renewStripe (s : State) (r : Ring) (stripe : Nat) (put : List (Nat × Nat)) (rows : List (Nat × RowData)) : State :=
  let s1 := s.underRecord r 2 stripe (fun seq t =>
    let t1 := t.updRge (fun e => { e with tasks := e.tasks ++ put.map (fun p => (⟨r.num, stripe, p.1, p.2, seq⟩ : RebuildTask)) })
    (natsFrom 0 16).foldl (fun u b => u.renewRow r stripe seq put (rowsFor rows b) b) t1)
  s1.worked (65536 * put.length)

/-- REBUILD_STRIPE_DONE (R189, R190, R198): the chunks of the pass's next stripe that have a target are reconstructed and written
there; `rows` are the blocks read of all 16 rows. -/
def execRebuildStripeDone (ring stripe : Nat) (rows : List (Nat × RowData)) (s : State) : Host.Outcome State Fault Refusal :=
  match s.findRing ring with
  | none => .next s
  | some r =>
    match r.nextRebuild with
    | none => .next s
    | some (pass, next) =>
      if next ≠ stripe || !s.mayRenew r stripe rows then .next s
      else
        let put := (r.workChunks stripe).filterMap (fun c => (r.targetOf stripe c).map (fun t => (c, t)))
        .next (((s.renewStripe r stripe put rows).updRing ring (fun y => { y with
          cursors := setAt y.cursors (pass - 1) (stripe + 1) })).reask)

/-- Chunks of a stripe that are stored on a member slot: its own, and those relocated onto it (R152, R208). -/
def Ring.storedOn (r : Ring) (stripe j : Nat) : List Nat :=
  (natsFrom 0 r.w).filter (fun c =>
    let h := r.homeOf stripe c
    h = j || (r.displaced h && r.targetOf stripe c = some j && hasNat (r.slotAt h).rebuilt stripe))

/-- Stripes that the resynchronisation of a STALE member still has to rewrite, in ascending order of their regions (R208). -/
def Ring.syncStripes (r : Ring) (j : Nat) : List Nat :=
  if r.bitmap.isEmpty then []
  else (natsFrom 0 r.stripes).filter (fun st =>
    r.dirtyStripe st && !hasNat (r.slotAt j).resynced st && !(r.storedOn st j).isEmpty)

/-- A STALE member with nothing left to rewrite becomes ONLINE (R208). -/
def State.endSync (s : State) (ring j : Nat) : State :=
  match s.findRing ring with
  | none => s
  | some r =>
    if (r.slotAt j).st = .stale && (r.syncStripes j).isEmpty then
      (s.updRing ring (fun x => x.setSlot j (fun m => { m with st := .online, missed := [], resynced := [] }))).membersChanged
        ring false
    else s

/-- The stripes of a resynchronisation, each in its turn, as far as their rows are given and the rate allows. -/
def State.syncRun (s : State) (ring j : Nat) (rows : List (Nat × Nat × RowData)) : List Nat → State
  | [] => s
  | st :: l =>
    let mine := (rows.filter (fun e => e.1 = st)).map (fun e => e.2)
    match s.findRing ring with
    | none => s
    | some r =>
      if !s.mayRenew r st mine then s
      else (s.renewStripe r st ((r.storedOn st j).map (fun c => (c, j))) mine).syncRun ring j rows l

/-- REJOIN_RESYNC_COMPLETE (R193, R208): the chunks that a STALE member stores in dirty regions are reconstructed and rewritten;
`done` holds the slot and the blocks read. With nothing left the member becomes ONLINE. Any rebuild pass comes first.
A member of a ring in INIT becomes ONLINE with its Write Zeroes instead (R142). -/
def execRejoinResyncComplete (ring : Nat) (done : SlotReads) (s : State) : Host.Outcome State Fault Refusal :=
  match s.findRing ring with
  | some r =>
    if r.owner && (r.slotAt done.slot).st = .stale && r.suspects.isEmpty && r.hunt.isNone &&
        !(r.initRunning && (r.slotAt done.slot).initLeft) && r.nextRebuild.isNone then
      .next (((s.syncRun ring done.slot done.rows (r.syncStripes done.slot)).endSync ring done.slot).reask)
    else .next s
  | none => .next s

/-- COPYBACK_CHUNK_DONE (R192, R193): a chunk slot of the replacement is filled, in ascending turn order, from its target or by
reconstruction; `done` holds the chunk slot and the blocks read of the stripe's 16 rows. -/
def execCopybackChunkDone (ring slot : Nat) (done : ChunkReads) (s : State) : Host.Outcome State Fault Refusal :=
  match s.findRing ring with
  | none => .next s
  | some r =>
    let turn := (natsFrom 0 r.turns).find? (fun t => !r.turnDone slot t)
    let slab := done.chunk / Nat.max r.w 1
    let c := done.chunk % Nat.max r.w 1
    match (natsFrom (slab * r.d) r.d).find? (fun st => r.homeOf st c = slot) with
    | none => .next s
    | some st =>
      if (r.slotAt slot).st ≠ .replacing || hasNat (r.slotAt slot).filled done.chunk || turn ≠ some (slab / 4096) ||
          r.nextRebuild.isSome || r.slots.any (fun m => m.st = .stale) || !s.mayRenew r st done.rows then .next s
      else .next ((s.renewStripe r st [(c, slot)] done.rows).reask)

/-- Copyback of a slot whose turns are all marked is complete: it leaves displacement and is ONLINE (R151, R180, R192). -/
def State.endCopyback (s : State) (ring j : Nat) : State :=
  match s.findRing ring with
  | none => s
  | some r =>
    if (r.slotAt j).st = .replacing && r.turnsLeft j = 0 then
      let r1 := (r.setSlot j (fun m => { m with
        st := .online, dorder := 0, filled := [], rebuilt := [], missed := [], resynced := [] })).closeOrders
      (s.updRing ring (fun _ => r.retarget r1)).membersChanged ring true
    else s

/-- What a chunk written by a rebuild task is from now on: copied back, resynchronised, or on its target. -/
def Ring.chunkDone (r : Ring) (t : RebuildTask) : Ring :=
  let h := r.homeOf t.stripe t.pos
  let r1 := if h ≠ t.slot then
      (if r.targetOf t.stripe t.pos = some t.slot then
        r.setSlot h (fun m => { m with rebuilt := addNat m.rebuilt t.stripe })
       else r)
    else if (r.slotAt h).st = .replacing then
      r.setSlot h (fun m => { m with filled := addNat m.filled (r.chunkSlot t.stripe t.pos) })
    else r
  if (r1.slotAt t.slot).st = .stale then r1.setSlot t.slot (fun m => { m with resynced := addNat m.resynced t.stripe }) else r1

/-- The write of a chunk has completed when no command of its task is outstanding: the service record follows, and the slot
may leave displacement or become ONLINE (R191, R192, R208). -/
def State.tasksDone (s : State) (ring seq : Nat) : State :=
  let done := s.rge.tasks.filter (fun t => t.ring = ring && t.seq = seq &&
    !s.bay.cmds.any (fun c => c.slot = t.slot && c.purpose.under ring seq))
  let s1 := s.updRge (fun e => { e with tasks := e.tasks.filter (fun t => !done.any (fun x => x = t)) })
  done.foldl (fun u t =>
    match u.findRing ring with
    | none => u
    | some r =>
      if !r.owner then u
      else
        let u1 := (u.updRing ring (fun x => (x.chunkDone t).trimCursors)).sendService ring (r.slabOf t.stripe / 4096)
        (((u1.endCopyback ring (r.homeOf t.stripe t.pos)).endSync ring t.slot).endWork).reask) s1

/-- REBUILD_RATE_TICK (R195): every 10 ms, rates in MB/s and f in 1/256, rounded down (log 31). The peer's part of H counts
while it is joined. -/
def execRebuildRateTick (hostTraffic : Nat) (s : State) : Host.Outcome State Fault Refusal :=
  let mine := s.rge.rings.filter Ring.hasWork
  let s0 := s.updRge (fun e => { e with traffic := hostTraffic, work := 0 })
  if mine.isEmpty then .next (s0.updRge (fun e => { e with rate := 0, fshare := 0 }))
  else
    let f := s.workShare
    let n := (s.memberBays.filter (fun b => (s.slotsOfBay b).all (fun e =>
      match s.findRing e.1 with
      | some r => (r.slotAt e.2).st = .online || (r.slotAt e.2).st = .stale
      | none => true))).length
    let kk := mine.foldl (fun a r => Nat.max a r.k) 0
    let host := hostTraffic + if s.rfx.peer.joined then s.rfx.peer.traffic else 0
    let t := (s.cfg Reg.rgeRblaw 22 16 * n * (100 * s.cfg Reg.rgeRblaw 8 0) / 100 - host) * f / 256 / (kk + 1)
    let floor := 100 * s.cfg Reg.rgeRbcfg 7 0 * f / 256
    let ceil := 100 * s.cfg Reg.rgeRbcfg 23 16 * f / 256
    let r0 := s.rateNow
    let r1 := if r0 ≤ t then r0 + (t - r0) / 2 else r0 - (r0 - t) / 2
    .next (s0.updRge (fun e => { e with rate := Nat.min (Nat.max r1 floor) ceil, fshare := f }))

/-! ## Patrol (R210, R211) -/

/-- A whole row as the patrol finds it: the one position that explains the syndromes, if exactly one does (R211). -/
def explains (k m : Nat) (bs : List Block) : Option Nat :=
  let data := bs.take k
  let syn := (natsFrom 0 m).map (fun j => parityOf j data ^^^ bs.getD (k + j) 0)
  let s0 := syn.getD 0 0
  let dataPos := (natsFrom 0 k).filter (fun c => s0 ≠ 0 && (natsFrom 1 (m - 1)).all (fun j => syn.getD j 0 = gfScale (parCoef j c) s0))
  let parPos := (natsFrom 0 m).filter (fun j => syn.getD j 0 ≠ 0 && (natsFrom 0 m).all (fun i => i = j || syn.getD i 0 = 0))
  match dataPos ++ parPos.map (fun j => k + j) with
  | [p] => if 2 ≤ m then some p else none
  | _ => none

/-- The patrol of one row, under the record of SEQ `seq`. -/
def State.patrolRow (s : State) (r : Ring) (stripe seq : Nat) (d0 : RowData) (row : Nat) : State :=
  let d := r.rowRead stripe d0
  let good := rowGood d
  let (data, lost, cause) := mendRow r.k (r.unverified stripe) d
  if !lost.isEmpty then
    ((s.recordRow r stripe row lost cause).putRow r stripe row seq data (lost ++ natsFrom r.k r.m))
  else if good.length < r.w then s.repairPut r stripe row seq data (rowBad d)
  else
    let bs := (natsFrom 0 r.w).map (fun c => ((good.find? (fun e => e.1 = c)).map (fun e => e.2)).getD 0)
    let whole := bs.take r.k
    if (natsFrom 0 r.m).all (fun j => parityOf j whole = bs.getD (r.k + j) 0) then s
    else
      let s1 := s.bump Reg.rgePatmis
      match explains r.k r.m bs with
      | some p =>
        let fixed := if p < r.k then
            setAt whole p (whole.getD p 0 ^^^ parityOf 0 whole ^^^ bs.getD r.k 0)
          else whole
        s1.putRow r stripe row seq fixed [p]
      | none => s1.putRow r stripe row seq whole (natsFrom r.k r.m)

/-- PATROL_STRIPE_CHECK (R210, R211): the stripe at the patrol's cursor, while the patrol runs and is not paused; what it rewrites
it writes under a KIND 0x03 record (R199). -/
def execPatrolStripeCheck (ring : Nat) (rows : List (Nat × RowData)) (s : State) : Host.Outcome State Fault Refusal :=
  match s.findRing ring with
  | none => .next s
  | some r =>
    let st := r.patrol
    if !r.owner || !s.cfgBit Reg.rgePatcfg 0 || r.rebuilding || r.resyncing ||
        !(natsFrom 0 16).all (fun b => rows.any (fun e => e.1 = b)) || s.stripeBusy ring st || s.journalFull || r.mustWait st then
      .next s
    else
      let s1 := s.underRecord r 3 st (fun seq t =>
        (natsFrom 0 16).foldl (fun u b => u.patrolRow r st seq (rowsFor rows b) b) t)
      let next := if st + 1 < r.stripes then st + 1 else 0
      let s2 := s1.updRing ring (fun y => { y with patrol := next })
      .next (if r.slabOf next / 4096 ≠ r.slabOf st / 4096 || next = 0 then s2.sendService ring (r.slabOf st / 4096) else s2)

/-! ## Commands (R213) -/

/-- Unavailable chunks of a stripe that cannot come back by themselves (R188). -/
def Ring.goneIn (r : Ring) (stripe : Nat) : Nat :=
  ((natsFrom 0 r.w).filter (fun c => (r.chunkAt stripe c).isNone && !r.mayReturn stripe c)).length

/-- The failure of a slot would make a stripe lose data (R213): more than m chunks are then unavailable (R200) where it had
fewer, or where it waited for a member that may return (R188). -/
def Ring.losesData (r : Ring) (j : Nat) : Bool :=
  let r1 := r.setSlot j (fun m => { m with st := .failed, dorder := if m.dorder = 0 then r.nextOrder else m.dorder })
  (natsFrom 0 r.stripes).any (fun st => r.m < r1.levelOf st &&
    (r.levelOf st < r1.levelOf st || (r.goneIn st ≤ r.m && r.m < r1.goneIn st) || (r.mustWait st && !r1.mustWait st)))

/-- MEMBER_FAIL (R213). -/
def execMemberFail (m : Master) (s : State) : Host.Outcome State Fault Refusal :=
  .next (s.runCmd m 0x0303 (fun c s =>
    let n := byteAt c.params 0
    let j := byteAt c.params 1
    let fl := byteAt c.params 2
    let r := s.findRing n
    let st := (r.map (fun x => (x.slotAt j).st)).getD .unused
    s.checked m
      [(7 < n || 23 < j || 1 < fl, stInvalidParam), (r.isNone, stConflict), (!s.owns n, stNotOwner),
       (!(st = .online || st = .stale || st = .absent), stConflict),
       (fl = 0 && (r.map (fun x => x.losesData j)).getD false, stConflict)]
      (fun s => (s.memberFailed n j).finish m stOk [])))

/-- MEMBER_REPLACE (R192, R213). -/
def execMemberReplace (m : Master) (s : State) : Host.Outcome State Fault Refusal :=
  .next (s.runCmd m 0x0304 (fun c s =>
    let n := byteAt c.params 0
    let j := byteAt c.params 1
    let b := byteAt c.params 2
    let r := s.findRing n
    let inRing := (r.map (fun x => x.slots.any (fun y => y.bay = some b && y.st ≠ .failed))).getD false
    s.checked m
      [(7 < n || 23 < j || 23 < b, stInvalidParam), (r.isNone, stConflict), (!s.owns n, stNotOwner),
       (Config.bays s.part ≤ b, stAbsent), ((r.map (fun x => (x.slotAt j).st)).getD .unused ≠ .failed, stConflict),
       (!s.fitDrive b || inRing, stConflict),
       (!s.roomOn b ((r.map (fun x => x.chunks * 65536)).getD 0), stLimit)]
      (fun s => (s.acceptReplacement n j b).finish m stOk [])))

/-- Entries in the order of their index. -/
def insLost (x : LostExtent) : List LostExtent → List LostExtent
  | [] => [x]
  | y :: l => if x.idx ≤ y.idx then x :: y :: l else y :: insLost x l

/-- The lost extents of a ring: this module's own, and, of a ring that the peer masters, those that the peer keeps (R202, R241). -/
def State.lostOf (s : State) (ring : Nat) : List LostExtent := (s.rge.lost ++ s.peerLost).filter (fun e => e.ring = ring)

/-- LOST_LIST (R213). -/
def execLostList (m : Master) (s : State) : Host.Outcome State Fault Refusal :=
  .next (s.runCmd m 0x0305 (fun c s =>
    let n := byteAt c.params 0
    let start := leAt c.params 4 4
    s.checked m [(7 < n, stInvalidParam)] (fun s =>
      let all := (s.lostOf n).foldl (fun l e => insLost e l) []
      let from_ := all.filter (fun e => start ≤ e.idx)
      let next := ((from_.drop 63).head?.map (fun e => e.idx)).getD 0xFFFFFFFF
      s.answer c (padTo 64 (leBytes 4 all.length ++ leBytes 4 next) ++ (from_.take 63).flatMap (fun e => e.line)))))

end Sys2Proof.Machine
end

