-- ==== Sys2Proof/Machine/Drives.lean ====
section
/-! DEFINITION. The drive ports and bays (chapter 15): root ports, commands to members, containment, the bay power
holder, the insertion sequence, faults, and the bay commands. -/

namespace Sys2Proof.Machine

/-! ## Member commands that end (R466, R469) -/

def State.findCmd (s : State) (id : Nat) : Option MemberCmd := s.bay.cmds.find? (fun c => c.id = id)

/-- A write of a task has completed: its chunk may be done, its record is freed with its last write, and repairs that waited
for the stripe begin. -/
def State.repairDone (s : State) (ring stripe seq : Nat) : State :=
  ((s.tasksDone ring seq).endTask ring seq).startMends ring stripe

/-- A chunk of a flush group could not be written: the group's parity stands for it (R96, R98). -/
def State.flushChunkLost (s : State) (group pos : Nat) : State :=
  let bad := fun (c : FlushChunk) => { c with ok := false }
  s.updHce (fun h => { h with
    flushArea := ((natsFrom 0 h.flushArea.length).zip h.flushArea).map (fun (e : Nat × FlushGroup) =>
      if e.1 ≠ group then e.2
      else if pos < e.2.data.length then { e.2 with data := setAt e.2.data pos (bad (e.2.data.getD pos e.2.parity)) }
      else { e.2 with parity := bad e.2.parity }) })

/-- A request returned as failed by its port: a failure of the port, never a data error (R469). -/
def State.cmdPortFailed (s : State) (c : MemberCmd) : State :=
  let s1 := s.dropCmd c.id
  match c.purpose with
  | .gather g _ st pos => c.rows.foldl (fun t row => t.gatherBlock g st row pos none) s1
  | .stripe ring st _ _ => s1.stripeCmdDone c ring st true
  | .repair ring st _ _ seq => s1.repairGone c ring st seq
  | .checkpoint ring => if c.op = .write then s1.checkpointGone ring else s1.endHunt ring
  | .flush g pos => s1.flushChunkLost g pos
  | _ => s1

/-- Every request outstanding on a port returns failed (R469). -/
def State.failPort (s : State) (port : Nat) : State :=
  (s.bay.cmds.filter (fun c => c.bay = port)).foldl State.cmdPortFailed s

/-- A retrain or test of the port is over without L0. -/
def State.dropDpRun (s : State) (port : Nat) : State :=
  if s.lcu.dpRun = some port then { s with lcu := { s.lcu with dpRun := none } } else s

/-! ## Root ports (R461 to R470) -/

/-- The port's link goes down with its reset asserted: its requests fail and its drive cannot be reached. -/
def State.linkOff (s : State) (port : Nat) (presence : Bool) : State :=
  let up := (s.portOf port).train = .l0
  let s1 := (s.setPort port (fun p => { p with
    train := .down, speed := 0, width := 0, trainEnd := none, perst := true, reads := [] })).emit (.pin (.perst port) false)
  let s2 := (s1.dropDpRun port).failPort port
  if up || presence then s2.driveLost port else s2

/-- Containment (R468, R469): cause recorded, quarantines gone, requests failed; a port contained more than LIMIT times
in 60 s stays contained (R470). -/
def State.contain (s : State) (port cause : Nat) : State :=
  let p := s.portOf port
  if p.contained then s
  else
    let hist := (s.now :: p.history).filter (fun t => s.now < t + sec 60)
    let stuck := s.cfg Reg.dpxDpccfg 19 16 < hist.length
    let s1 := s.setPort port (fun q => { q with
      contained := true, cause := cause, train := .down, speed := 0, width := 0, trainEnd := none, reads := [],
      history := hist, stuck := q.stuck || stuck,
      holdEnd := if (cause = 1 || cause = 3 || cause = 4) && !stuck then some (s.now + ms (s.cfg Reg.dpxDpccfg 9 0)) else none })
    (((s1.bump Reg.dpxContain).dropDpRun port).failPort port).driveLost port

/-- Containment ends; the link of a powered bay out of reset trains again (R470). -/
def State.release (s : State) (port : Nat) : State :=
  let s1 := s.setPort port (fun p => { p with contained := false, stuck := false, holdEnd := none })
  let b := s.bayOf port
  if (b.st = .powered || b.st = .ready) && !(s.portOf port).perst then s1.train port else s1

/-- DRIVE_LINK_L0 (R462, R474): the link is up, no faster than MAXSPD; the drive's controller registers are read. -/
def execDriveLinkL0 (port speed width : Nat) (s : State) : Host.Outcome State Fault Refusal :=
  let p := s.portOf port
  if p.train = .training && !p.contained && !p.perst && !s.tk.fenced then
    .next ((s.setPort port (fun q => { q with
      train := .l0, speed := Nat.min speed (s.cfg Reg.dpxCfg 18 16), width := Nat.min width 2, trainEnd := none,
      reads := [⟨0, s.now, false, false⟩] })).endDpRun port)
  else .next s

/-- LINK_TRAINING_TIMEOUT (R462): two retries, each after 1 ms of PERST_N, then FAILED. -/
def execLinkTrainingTimeout (port : Nat) (s : State) : Host.Outcome State Fault Refusal :=
  let p := s.portOf port
  if p.train = .training && due p.trainEnd s.now then
    if p.attempts < 3 then
      .next ((s.setPort port (fun q => { q with attempts := q.attempts + 1, trainEnd := some (s.now + ms 251) })).emitAll
        [.pin (.perst port) false, .pin (.perst port) true])
    else
      let s1 := s.setPort port (fun q => { q with train := .failed, trainEnd := none })
      if s.lcu.dpRun = some port then .next ((s1.dropDpRun port).driveLost port) else .next s1
  else .next s

/-- A tag not in use and not quarantined on the port (R465). -/
def DrivePort.freeTag (p : DrivePort) : Nat :=
  ((natsFrom 0 1024).find? (fun t => !p.reads.any (fun r => r.tag = t))).getD 0

/-- DPX_COMPLETION_TIMEOUT (R464, R465): counted; issued again once with a new tag; the second time the port is
contained. -/
def execDpxCompletionTimeout (port tag : Nat) (s : State) : Host.Outcome State Fault Refusal :=
  let p := s.portOf port
  match p.reads.find? (fun r => r.tag = tag && !r.quarantined) with
  | none => .next s
  | some r =>
    if s.now < r.issuedAt + ms (s.cfg Reg.dpxCfg 15 8) then .next s
    else if r.second then .next ((s.bump Reg.dpxCto).contain port 4)
    else
      .next ((s.bump Reg.dpxCto).setPort port (fun q => { q with
        reads := (updWhere (fun x => x.tag = tag) (fun x => { x with quarantined := true }) q.reads) ++
          [⟨q.freeTag, s.now, true, false⟩] }))

/-- DPX_QUARANTINE_EXPIRY (R465): 2 × CTO after the request was issued. -/
def execDpxQuarantineExpiry (port tag : Nat) (s : State) : Host.Outcome State Fault Refusal :=
  .next (s.setPort port (fun p => { p with reads := p.reads.filter (fun r =>
    !(r.tag = tag && r.quarantined && r.issuedAt + ms (2 * s.cfg Reg.dpxCfg 15 8) ≤ s.now)) }))

/-- SURPRISE_LINK_DOWN (R468): while presence is asserted. -/
def execSurpriseLinkDown (port : Nat) (s : State) : Host.Outcome State Fault Refusal :=
  if (s.portOf port).train = .l0 && (s.bayOf port).seated then .next (s.contain port 1) else .next s

/-- DRIVE_PORT_FATAL_ERROR (R468). -/
def execDrivePortFatalError (port : Nat) (s : State) : Host.Outcome State Fault Refusal :=
  if port < Config.bays s.part && (s.portOf port).train ≠ .down then .next (s.contain port 3) else .next s

/-- CONTAINMENT_HOLD_EXPIRY (R470). -/
def execContainmentHoldExpiry (port : Nat) (s : State) : Host.Outcome State Fault Refusal :=
  let p := s.portOf port
  if p.contained && !p.stuck && due p.holdEnd s.now then .next (s.release port) else .next s

/-- DPCREL_WRITE (R470): ports held under the third case. -/
def State.dpcrelWrite (s : State) (w : Word) : State :=
  (natsFrom 0 24).foldl (fun t i => if w.getLsbD i && (t.portOf i).stuck then t.release i else t) s

def execDpcrelWrite (w : Word) (s : State) : Host.Outcome State Fault Refusal := .next (s.dpcrelWrite w)

/-! ## Commands to members (R466, R467) -/

/-- A member write may be issued to the slot of a command (R183). -/
def State.takesWrites (s : State) (c : MemberCmd) : Bool :=
  match c.purpose with
  | .stripe ring _ _ _ | .repair ring _ _ _ _ | .initZero ring _ =>
    (match s.findRing ring with
     | some r => (r.slotAt c.slot).st = .online || (r.slotAt c.slot).st = .stale || (r.slotAt c.slot).st = .replacing
     | none => false)
  | _ => true

/-- A write that failed: issued again while its member takes writes, or the member is declared FAILED after the third failure or
an error with DNR (R181, R183, R466). -/
def State.writeFailed (s : State) (c : MemberCmd) (dnr : Bool) : State :=
  if !s.takesWrites c then s.cmdPortFailed c
  else if !dnr && c.tries < 3 then
    let n := { c with id := s.bay.nextCmd, tries := c.tries + 1, issuedAt := s.now, deadline := some (s.now + ms (10 * s.cfg Reg.dpxIocfg 31 16)), abortEnd := none }
    let s1 := { s with bay := { s.bay with cmds := s.bay.cmds ++ [n], nextCmd := s.bay.nextCmd + 1 } }
    let s2 := s1.updRge (fun e => { e with writes := e.writes.map (fun w =>
      if hasNat w.outstanding c.id then { w with outstanding := dropNat w.outstanding c.id ++ [n.id] } else w) })
    (s2.emit (.member n)).bump Reg.dpxIoretry
  else
    match c.purpose with
    | .stripe ring st _ _ => (s.stripeCmdDone c ring st true).memberFailed ring c.slot
    | .repair ring st _ _ seq => (s.repairGone c ring st seq).memberFailed ring c.slot
    | .checkpoint ring => (s.checkpointGone ring).driveFailed c.bay
    | .initZero ring slot => s.memberFailed ring slot
    | .flush g pos => s.flushChunkLost g pos
    | _ => s.driveFailed c.bay

/-- A read that failed: its block is unreadable and is served by reconstruction, then repaired (R186, R199, R466). -/
def State.readFailed (s : State) (c : MemberCmd) : State :=
  match c.purpose with
  | .gather g _ st pos => c.rows.foldl (fun t row => t.gatherBlock g st row pos (some badBlock)) s
  | .checkpoint ring => s.endHunt ring
  | _ => s

/-- A checkpoint that was read (R172): the lines of the one that the header names join the bitmap (R174 step 3); while the newest
one is sought, it is kept where it is newer than those before it (R174 step 1). An unreadable one counts for nothing. -/
def State.takeCheckpoint (s : State) (ring : Nat) (bs : List MemberBlock) : State :=
  match bs with
  | [] => s
  | b :: rest =>
    let h := blockBytes b.data
    let ok := (b :: rest).all MemberBlock.readable && leAt h 0 4 = 0x4B564250 && byteAt h 4 = ring && leAt h 0xFFC 4 = (crc32c (h.take 0xFFC)).toNat
    match s.findRing ring with
    | none => s
    | some r =>
      if !ok || rest.length ≠ ceilDiv (ceilDiv r.regions 480) 64 || (r.hunt.isNone && leAt h 8 8 ≠ r.ckSeq) then s
      else
        let regs := ((natsFrom 0 rest.length).zip rest).flatMap (fun e =>
          let bytes := blockBytes e.2.data
          (natsFrom 0 64).flatMap (fun i =>
            if 480 * (64 * e.1 + i) < r.regions then bmRegions (64 * e.1 + i) (slice bytes (64 * i) 64) r.hunt.isNone else []))
        match r.hunt with
        | some best =>
          if best.any (fun x => leAt h 8 8 ≤ x.1) then s
          else s.updRing ring (fun x => { x with hunt := some (some (leAt h 8 8, byteAt h 5 % 2 == 1, regs)) })
        | none => s.updRing ring (fun x => { x with bitmap := (regs.filter (fun y => y < r.regions)).foldl addNat x.bitmap })

/-- A command that completed with success. -/
def State.cmdSucceeded (s : State) (c : MemberCmd) (blocks : List MemberBlock) : State :=
  match c.purpose with
  | .gather g _ st pos =>
    ((natsFrom 0 c.rows.length).zip c.rows).foldl (fun t e =>
      t.gatherBlock g st e.2 pos (some (blocks.getD e.1 badBlock))) s
  | .stripe ring st _ _ => s.stripeCmdDone c ring st false
  | .repair ring st _ _ seq => s.repairDone ring st seq
  | .initZero ring slot =>
    let s1 := s.updRing ring (fun r => r.setSlot slot (fun m => { m with
      initLeft := false, st := if m.st = .stale then .online else m.st }))
    s1.reask
  | .checkpoint ring => if c.op = .read then (s.takeCheckpoint ring blocks).endHunt ring else s
  | .flush _ _ => s
  | .upkeep => s

/-- MEMBER_COMMAND_COMPLETION (R466): by result. A completion for nothing outstanding is a late one: it is discarded,
and where its number is a quarantined tag it is counted and frees the tag (R465). -/
def execMemberCommandCompletion (id : Nat) (result : MemberResult) (blocks : List MemberBlock) (s : State) :
    Host.Outcome State Fault Refusal :=
  match s.findCmd id with
  | none =>
    (match (natsFrom 0 24).find? (fun p => (s.portOf p).reads.any (fun r => r.tag = id && r.quarantined)) with
     | some p => .next ((s.setPort p (fun q => { q with reads := q.reads.filter (fun r => !(r.tag = id && r.quarantined)) })).bump
        Reg.dpxLateCpl)
     | none => .next s)
  | some c =>
    let s1 := s.dropCmd id
    match result with
    | .success => .next (s1.cmdSucceeded c blocks)
    | .error dnr => .next (if c.op = .read then s1.readFailed c else s1.writeFailed c dnr)

/-- MEMBER_COMMAND_TIMEOUT (R466): an Abort goes to the drive with 1 s to complete; the work goes on as after an error
with DNR = 0. -/
def execMemberCommandTimeout (id : Nat) (s : State) : Host.Outcome State Fault Refusal :=
  match s.findCmd id with
  | none => .next s
  | some c =>
    if !due c.deadline s.now then .next s
    else
      let old := { c with deadline := none, abortEnd := some (s.now + sec 1), purpose := .upkeep }
      let s1 := ({ s with bay := { s.bay with cmds := updWhere (fun x => x.id = id) (fun _ => old) s.bay.cmds } }).emit (.memberAbort id)
      .next (if c.op = .read then s1.readFailed c else s1.writeFailed c false)

/-- MEMBER_ABORT_TIMEOUT (R466). -/
def execMemberAbortTimeout (id : Nat) (s : State) : Host.Outcome State Fault Refusal :=
  match s.findCmd id with
  | none => .next s
  | some c => if due c.abortEnd s.now then .next ((s.dropCmd id).contain c.bay 4) else .next s

/-- HEDGE_EXPIRY (R467): a read still outstanding is also served by reconstruction, where redundancy is to spare. -/
def execHedgeExpiry (id : Nat) (s : State) : Host.Outcome State Fault Refusal :=
  let h := s.cfg Reg.dpxIocfg 7 0
  match s.findCmd id with
  | none => .next s
  | some c =>
    match c.purpose with
    | .gather g ring st pos =>
      (match s.findRing ring with
       | some r =>
         if h = 0 || c.hedged || s.now < c.issuedAt + ms h || r.m ≤ r.levelOf st then .next s
         else
           let s1 := { s with bay := { s.bay with cmds := updWhere (fun x => x.id = id) (fun x => { x with hedged := true }) s.bay.cmds } }
           .next (c.rows.foldl (fun t row => t.gatherBlock g st row pos none) (s1.bump Reg.dpxHedged))
       | none => .next s)
    | _ => .next s

/-! ## The insertion sequence (R474 to R478) -/

/-- Retries of the bay's configuration (R483). -/
def State.retryN (s : State) (b : Nat) : Nat := s.cfg (Reg.bayBcfg + 0x10 * b) 15 12

/-- Gate and PWRDIS as the holder drives them. -/
def State.gateTo (s : State) (b : Nat) (on : Bool) : State :=
  let s1 := s.setBay b (fun x => { x with gate := on && s.bay.holder, pwrdis := !on && s.bay.holder })
  if s.bay.holder then s1.emitAll [.pin (.pwrdis b) (!on), .pin (.gate b) on] else s1

/-- Power leaves a bay: gate off, PWRDIS and PERST_N asserted, power-good gone, the drive out of reach. -/
def State.powerOff (s : State) (b : Nat) (st : BaySt) : State :=
  let s1 := (s.gateTo b false).linkOff b false
  s1.setBay b (fun x => { x with st := st, pg := false, rampEnd := none, perstAt := none, retryAt := none, cycleAt := none })

/-- PRESENCE_ASSERT (R474 step 1). -/
def execPresenceAssert (bay : Nat) (s : State) : Host.Outcome State Fault Refusal :=
  if Config.bays s.part ≤ bay then .next s
  else
    .next (s.setBay bay (fun b =>
      if b.st = .empty then { b with seated := true, st := .debounce, debounceEnd := some (s.now + ms 250) }
      else { b with seated := true }))

/-- DEBOUNCE_COMPLETE (R470, R474, R483, R484): a new insertion; the fault clears, the retry count is restored, and
containment of any cause ends. -/
def execDebounceComplete (bay : Nat) (s : State) : Host.Outcome State Fault Refusal :=
  let b := s.bayOf bay
  if b.st = .debounce && b.seated && due b.debounceEnd s.now then
    let s1 := s.setBay bay (fun x => { x with
      present := true, st := if s.bay.inputFault && s.bay.holder then .inhibit else .wait, debounceEnd := none, fault := 0,
      retryLeft := s.retryN bay, inserts := satAt 0xFFFF (x.inserts + 1), forced := false })
    .next (s1.setPort bay (fun p => { p with contained := false, stuck := false, holdEnd := none, history := [] }))
  else .next s

/-- PRESENCE_LOSS (R477, R484): the bay is EMPTY, its port contained; a deassertion during the debounce restarts it. -/
def execPresenceLoss (bay : Nat) (s : State) : Host.Outcome State Fault Refusal :=
  let b := s.bayOf bay
  if b.st = .empty then .next (s.setBay bay (fun x => { x with seated := false }))
  else if b.st = .debounce && !b.present then
    .next (s.setBay bay (fun x => { x with seated := false, st := .empty, debounceEnd := none }))
  else
    let s1 := s.contain bay 2
    let s2 := (s1.setPort bay (fun p => { p with cause := 2, holdEnd := none })).powerOff bay .empty
    .next (s2.setBay bay (fun x => { x with
      seated := false, present := false, drive := none, debounceEnd := none, forced := false }))

/-- Bays that ramp now. -/
def State.ramping (s : State) : Nat := (s.bay.bays.filter (fun b => b.st = .ramping)).length

/-- RAMP_START (R474 steps 2 to 4, R476): the lowest waiting bay, while fewer than STAGGER ramp; without AUTOON the bay
goes OFF. -/
def execRampStart (bay : Nat) (s : State) : Host.Outcome State Fault Refusal :=
  let b := s.bayOf bay
  if !s.bay.holder || b.st ≠ .wait || s.bay.inputFault || s.cfg Reg.bayCfg 23 20 ≤ s.ramping ||
      (natsFrom 0 bay).any (fun i => (s.bayOf i).st = .wait) then .next s
  else if !s.cfgBit (Reg.bayBcfg + 0x10 * bay) 10 && !b.forced then .next (s.powerOff bay .off)
  else
    .next ((s.gateTo bay true).setBay bay (fun x => { x with
      st := .ramping, rampEnd := some (s.now + ms (s.cfg (Reg.bayBcfg + 0x10 * bay) 7 0 + 40)) }))

/-- POWER_GOOD (R474 steps 5 and 6, R478): each module deasserts its PERST_N 100 ms later; the non-holder follows
VOUT. -/
def execPowerGood (bay : Nat) (s : State) : Host.Outcome State Fault Refusal :=
  let b := s.bayOf bay
  if b.st = .ramping || (!s.bay.holder && b.present && b.st = .wait) then
    .next (s.setBay bay (fun x => { x with st := .powered, pg := true, rampEnd := none, perstAt := some (s.now + ms 100) }))
  else .next s

/-- A fault latches (R482, R483): the bay waits for its retry, or stays in FAULT. -/
def State.bayFault (s : State) (b code : Nat) : State :=
  if !s.bay.holder then s.powerOff b .wait
  else
    let x := s.bayOf b
    let retry := s.cfgBit (Reg.bayBcfg + 0x10 * b) 11 && x.retryLeft ≠ 0
    (s.powerOff b (if retry then .retryWait else .fault)).setBay b (fun y => { y with
      fault := code, faults := satAt 0xFFFF (y.faults + 1), retryAt := if retry then some (s.now + sec 1) else none })

/-- A bay whose gate is on. -/
def Bay.live (b : Bay) : Bool := b.st = .ramping || b.st = .powered || b.st = .ready

/-- PGTIMEOUT (R478). -/
def execPgtimeout (bay : Nat) (s : State) : Host.Outcome State Fault Refusal :=
  let b := s.bayOf bay
  if b.st = .ramping && due b.rampEnd s.now then .next (s.bayFault bay 3) else .next s

/-- OVERCURRENT (R479): the fault timer expired. -/
def execOvercurrent (bay : Nat) (s : State) : Host.Outcome State Fault Refusal :=
  if (s.bayOf bay).live then .next (s.bayFault bay 1) else .next s

/-- FASTTRIP (R480, R484). -/
def execFasttrip (bay : Nat) (s : State) : Host.Outcome State Fault Refusal :=
  if (s.bayOf bay).live then .next (s.bayFault bay 2) else .next s

/-- UNDERVOLT (R481): after power-good. -/
def execUndervolt (bay : Nat) (s : State) : Host.Outcome State Fault Refusal :=
  let b := s.bayOf bay
  if b.st = .powered || b.st = .ready then .next (s.bayFault bay 4) else .next s

/-- PERST_DELAY_EXPIRY (R474 steps 6 and 7): PERST_N goes up and the link trains. -/
def execPerstDelayExpiry (bay : Nat) (s : State) : Host.Outcome State Fault Refusal :=
  let b := s.bayOf bay
  if (b.st = .powered || b.st = .ready) && due b.perstAt s.now && !s.tk.fenced then
    let s1 := ((s.setBay bay (fun x => { x with perstAt := none })).setPort bay (fun p => { p with perst := false })).emit
      (.pin (.perst bay) true)
    .next (if (s.portOf bay).contained then s1 else s1.train bay)
  else .next s

/-- BAY_READY (R474 step 7, R483): the drive is identified; the retry count is restored. -/
def execBayReady (bay : Nat) (s : State) : Host.Outcome State Fault Refusal :=
  let b := s.bayOf bay
  if b.st = .powered && b.drive.isSome && (s.portOf bay).train = .l0 then
    .next ((s.setBay bay (fun x => { x with st := .ready, retryLeft := s.retryN bay })).setPort bay (fun p => { p with
      reads := p.reads.filter (fun r => r.quarantined) }))
  else .next s

/-- RETRY_EXPIRY (R483). -/
def execRetryExpiry (bay : Nat) (s : State) : Host.Outcome State Fault Refusal :=
  let b := s.bayOf bay
  if b.st = .retryWait && due b.retryAt s.now then
    .next (s.setBay bay (fun x => { x with st := if s.bay.inputFault then .inhibit else .wait, retryAt := none, retryLeft := x.retryLeft - 1 }))
  else .next s

/-- BAY_INPUT_FAULT (R481): every gate off; bays that hold a drive and are not OFF or FAULT enter INHIBIT. -/
def execBayInputFault (s : State) : Host.Outcome State Fault Refusal :=
  let s1 := { s with bay := { s.bay with inputFault := true } }
  if !s.bay.holder then .next s1
  else
    .next ((natsFrom 0 (Config.bays s.part)).foldl (fun t b =>
      let x := t.bayOf b
      if x.st = .empty || x.st = .off || x.st = .fault || x.st = .inhibit then t
      else (t.powerOff b .inhibit).setBay b (fun y => { y with debounceEnd := none, present := true })) s1)

/-- BAY_INPUT_RESTORED (R481): those bays restart at step 2, without a debounce. -/
def execBayInputRestored (s : State) : Host.Outcome State Fault Refusal :=
  .next ({ s with bay := { s.bay with
    inputFault := false, bays := updWhere (fun b => b.st = .inhibit) (fun b => { b with st := .wait }) s.bay.bays } })

/-! ## The holder (R471, R472) -/

/-- A new holder takes every bay: a live one with its gate fully on, every other present one by a fresh insertion
sequence; LEDs start automatic (R472, R488). -/
def State.takeBays (s : State) : State :=
  let s1 := { s with bay := { s.bay with holder := true } }
  (natsFrom 0 (Config.bays s.part)).foldl (fun t b =>
    let x := t.bayOf b
    let t1 := t.setBay b (fun y => { y with fault := 0, retryLeft := t.retryN b, led := 4, retryAt := none, cycleAt := none, forced := false })
    if x.st = .powered || x.st = .ready then t1.gateTo b true
    else if x.seated then
      t1.setBay b (fun y => { y with st := .debounce, present := false, pg := false, debounceEnd := some (t.now + ms 250) })
    else t1) s1

/-- The holder lets its bay lines go (R471). -/
def State.dropBays (s : State) : State :=
  { s with bay := { s.bay with
    holder := false, bays := s.bay.bays.map (fun b => { b with gate := false, pwrdis := false }) } }

/-- BHOLD_A_RISE (R471, R472): slot B becomes holder. -/
def execBholdARise (s : State) : Host.Outcome State Fault Refusal :=
  let s1 := { s with bay := { s.bay with bholdHigh := true } }
  if s.slot = .b && !s.bay.holder && !s.tk.fenced then .next s1.takeBays else .next s1

/-- BHOLD_A_FALL (R471): slot A holds the line again, and slot B is holder no more. -/
def execBholdAFall (s : State) : Host.Outcome State Fault Refusal :=
  let s1 := { s with bay := { s.bay with bholdHigh := false } }
  if s.slot = .b then .next s1.dropBays else .next s1

/-- HOLDER_REGAIN (R471, R472): slot A is holder again. -/
def execHolderRegain (s : State) : Host.Outcome State Fault Refusal :=
  if s.slot = .a && !s.bay.holder && !s.tk.fenced then
    .next ((({ s with bay := { s.bay with bholdHigh := false } }).emit (.pin .bholdA false)).takeBays)
  else .next s

/-! ## Bay commands (R486 to R488) -/

/-- The checks that every bay command makes first: number, presence on the part, and the holder where needed. -/
def State.bayChecks (s : State) (b : Nat) (holder : Bool) : List (Bool × Nat) :=
  [(23 < b, stInvalidParam), (Config.bays s.part ≤ b, stAbsent), (holder && !s.bay.holder, stNotOwner)]

/-- The drive of a bay is an ONLINE or STALE member of some ring. -/
def State.inUse (s : State) (b : Nat) : Bool :=
  s.rge.rings.any (fun r => r.slots.any (fun m => m.bay = some b && (m.st = .online || m.st = .stale)))

/-- BAY_POWER (R483, R484, R486): a latched fault stays until BAY_CLEAR or a new insertion. -/
def execBayPower (m : Master) (s : State) : Host.Outcome State Fault Refusal :=
  .next (s.runCmd m 0x0801 (fun c s =>
    let b := byteAt c.params 0
    let op := byteAt c.params 1
    let st := (s.bayOf b).st
    s.checked m
      (s.bayChecks b true ++
        ([(2 < op, stInvalidParam), ((op = 0 || op = 2) && s.inUse b, stConflict),
         (op = 1 && (st = .empty || st = .fault), stConflict)] : List (Bool × Nat)))
      (fun s =>
        let s1 :=
          if op = 1 then
            (if st = .off then s.setBay b (fun x => { x with st := if s.bay.inputFault then .inhibit else .wait, forced := true, cycleAt := none }) else s)
          else if st = .empty || st = .fault then s
          else
            let t := (s.powerOff b .off).setBay b (fun x => { x with debounceEnd := none, present := true, forced := false })
            if op = 2 then t.setBay b (fun x => { x with cycleAt := some (s.now + sec 1) }) else t
        s1.finish m stOk [])))

/-- POWER_CYCLE_DELAY (R486): 1 s after BAY_POWER cycled the bay off. -/
def execPowerCycleDelay (bay : Nat) (s : State) : Host.Outcome State Fault Refusal :=
  let b := s.bayOf bay
  if b.st = .off && due b.cycleAt s.now then
    .next (s.setBay bay (fun x => { x with st := if s.bay.inputFault then .inhibit else .wait, forced := true, cycleAt := none }))
  else .next s

/-- BAY_LED (R486, R488). -/
def execBayLed (m : Master) (s : State) : Host.Outcome State Fault Refusal :=
  .next (s.runCmd m 0x0802 (fun c s =>
    let b := byteAt c.params 0
    let p := byteAt c.params 1
    s.checked m (s.bayChecks b true ++ ([(4 < p, stInvalidParam)] : List (Bool × Nat)))
      (fun s => ((s.setBay b (fun x => { x with led := p })).emit (.pin (.led b) (p ≠ 0))).finish m stOk [])))

/-- BAY_CLEAR (R470, R484, R486). -/
def execBayClear (m : Master) (s : State) : Host.Outcome State Fault Refusal :=
  .next (s.runCmd m 0x0803 (fun c s =>
    let b := byteAt c.params 0
    let x := s.bayOf b
    let latched := x.st = .fault || x.st = .retryWait || (x.st = .empty && x.fault ≠ 0)
    s.checked m (s.bayChecks b true ++ [(!latched && !(s.portOf b).stuck, stConflict)])
      (fun s =>
        let s1 := if latched then
            s.setBay b (fun y => { y with
              fault := 0, retryLeft := s.retryN b, retryAt := none,
              st := if y.st = .empty then .empty else if s.bay.inputFault then .inhibit else .wait })
          else s
        let s2 := if (s.portOf b).stuck then s1.release b else s1
        s2.finish m stOk [])))

/-- Encoding of a bay state (BAY.BSTATn.STATE). -/
def BaySt.code : BaySt → Nat
  | .empty => 0
  | .debounce => 1
  | .wait => 2
  | .ramping => 3
  | .powered => 4
  | .ready => 5
  | .off => 6
  | .retryWait => 7
  | .fault => 8
  | .inhibit => 9

/-- The LED pattern in force (R488). -/
def Bay.pattern (b : Bay) : Nat :=
  if b.led ≠ 4 then b.led
  else match b.st with
    | .empty => 0
    | .ready => 1
    | .fault | .retryWait => 3
    | _ => 2

/-- BAY_QUERY (R487). VOUT and IOUT are measurements: free values (log 4). -/
def execBayQuery (m : Master) (s : State) : Host.Outcome State Fault Refusal :=
  .next (s.runCmd m 0x0804 (fun c s =>
    let b := byteAt c.params 0
    s.checked m (s.bayChecks b false)
      (fun s =>
        let x := s.bayOf b
        let p := s.portOf b
        let v := s.freeNow % 65536
        let i := s.tookFree.freeNow % 65536
        let flags := (if x.present then 1 else 0) + (if s.bay.holder then 2 else 0) + (if x.pg then 4 else 0) +
          (if x.pwrdis then 8 else 0) + (if p.contained then 16 else 0)
        s.tookFree.tookFree.finish m stOk
          (leBytes 1 x.st.code ++ leBytes 1 (if s.bay.holder then x.fault else 0) ++ leBytes 1 x.retryLeft ++ leBytes 1 flags ++
           leBytes 2 v ++ leBytes 2 i ++ leBytes 1 p.speed ++ leBytes 1 p.width ++ leBytes 1 x.pattern ++ zeroBytes 1 ++
           leBytes 2 x.inserts ++ leBytes 2 x.faults))))

end Sys2Proof.Machine
end

