-- ==== Sys2Proof/Machine/Packets.lean ====
section
/-! DEFINITION. Management packets (chapter 13): their acceptance, sequence rules and replies (R410 to R419), the opcode
table (R426), the start of commands (R420 to R425, R625). -/

namespace Sys2Proof.Machine

/-! ## The opcode table (R426) -/

/-- An opcode: whether a master other than the control owner may issue it, and the length of its parameters where that
is one number. -/
structure OpRow where
  op : Nat
  anyone : Bool
  len : Option Nat
  deriving DecidableEq, Repr

/-- The opcodes of mailbox, registers, rings and fabric. -/
def opRows1 : List OpRow :=
  [⟨0x0101, true, some 0⟩, ⟨0x0102, true, some 0⟩, ⟨0x0103, false, some 0⟩, ⟨0x0201, true, some 8⟩, ⟨0x0202, false, none⟩,
   ⟨0x0203, false, some 12⟩, ⟨0x0301, false, some 40⟩, ⟨0x0302, false, some 4⟩, ⟨0x0303, false, some 4⟩,
   ⟨0x0304, false, some 4⟩, ⟨0x0305, true, some 8⟩, ⟨0x0306, false, some 4⟩, ⟨0x0401, false, some 0⟩,
   ⟨0x0402, true, some 4⟩]

/-- The opcodes of virtual subsystems and keys. -/
def opRows2 : List OpRow :=
  [⟨0x0501, false, some 288⟩, ⟨0x0502, false, some 4⟩, ⟨0x0503, false, some 16⟩, ⟨0x0504, false, some 260⟩,
   ⟨0x0505, false, some 24⟩, ⟨0x0506, false, some 16⟩, ⟨0x0507, false, some 8⟩, ⟨0x0508, false, some 4⟩,
   ⟨0x0509, false, some 4⟩, ⟨0x050A, false, some 4⟩, ⟨0x050B, false, some 8⟩, ⟨0x050C, false, none⟩,
   ⟨0x050D, false, some 8⟩, ⟨0x050E, true, some 4⟩, ⟨0x0601, true, some 4⟩, ⟨0x0602, false, some 4⟩,
   ⟨0x0603, false, some 52⟩, ⟨0x0604, false, some 0⟩, ⟨0x0605, false, some 4⟩, ⟨0x0606, false, none⟩,
   ⟨0x0607, false, some 4⟩, ⟨0x0608, false, some 4⟩, ⟨0x0609, false, some 4⟩, ⟨0x060A, true, some 0⟩,
   ⟨0x060B, false, some 4⟩, ⟨0x060C, true, some 4⟩]

/-- The opcodes of firmware, bays, power, counters, tests and ownership. -/
def opRows3 : List OpRow :=
  [⟨0x0701, false, none⟩, ⟨0x0702, false, some 4⟩, ⟨0x0703, false, some 4⟩, ⟨0x0704, true, some 0⟩,
   ⟨0x0801, false, some 4⟩, ⟨0x0802, false, some 4⟩, ⟨0x0803, false, some 4⟩, ⟨0x0804, true, some 4⟩,
   ⟨0x0805, false, some 8⟩, ⟨0x0806, true, some 0⟩, ⟨0x0807, false, some 4⟩, ⟨0x0901, true, some 16⟩,
   ⟨0x0902, true, some 12⟩, ⟨0x0903, true, some 4⟩, ⟨0x0A01, false, some 8⟩, ⟨0x0A02, false, some 0⟩,
   ⟨0x0A03, true, some 4⟩, ⟨0x0B01, true, some 0⟩, ⟨0x0B02, false, some 0⟩, ⟨0x0B03, false, some 4⟩,
   ⟨0x0B04, false, some 0⟩]

/-- The opcode table, in ascending order. -/
def opRows : List OpRow := opRows1 ++ opRows2 ++ opRows3

def opRow (op : Nat) : Option OpRow := opRows.find? (fun r => r.op = op)

/-- A command that changes state: one marked "no" for non-owners (R421). -/
def opChanges (op : Nat) : Bool :=
  match opRow op with
  | some r => !r.anyone
  | none => false

/-- Barriers (R423). -/
def opBarrier (op : Nat) : Bool := op = 0x0102 || op = 0x0703

/-- Bytes of parameters by DMA. -/
def MbCmd.dmap (c : MbCmd) : Bool := c.flags / 4 % 2 = 1
def MbCmd.dmar (c : MbCmd) : Bool := c.flags / 8 % 2 = 1

/-- The parameter length, inline and by DMA, fits the opcode (R413). -/
def MbCmd.lenOk (c : MbCmd) : Bool :=
  let n := c.params.length + (if c.dmap then c.dlen else 0)
  match opRow c.opcode with
  | none => false
  | some r =>
    match r.len with
    | some l => n = l
    | none =>
      if c.opcode = 0x0202 then 8 ≤ n && n = 8 + 4 * leAt c.params 4 2
      else if c.opcode = 0x050C then 8 ≤ n
      else if c.opcode = 0x0606 then
        88 ≤ n && n = 88 + leAt c.params 6 2 + (if leAt c.params 4 2 = 0xFFFE then 97 else 0)
      else 4 ≤ n

/-- Bytes of the result, where the opcode and the parameters fix them (R414). -/
def MbCmd.resultLen (c : MbCmd) : Nat :=
  let op := c.opcode
  if op = 0x0101 then 64 + 4 * opRows.length
  else if op = 0x0201 then 4 * leAt c.params 4 2
  else if op = 0x0202 || op = 0x0203 || op = 0x0506 || op = 0x060A || op = 0x0B01 || op = 0x0B02 then 4
  else if op = 0x050E then 304
  else if op = 0x0601 then 24
  else if op = 0x0602 || op = 0x0704 || op = 0x0806 then 32
  else if op = 0x0607 || op = 0x0903 then 80
  else if op = 0x060C then leAt c.params 0 2
  else if op = 0x0804 || op = 0x0A03 then 16
  else if op = 0x0902 then
    let k := byteAt c.params 1
    let n := leAt c.params 8 4
    if k = 1 then 152 else if k = 2 then 64 * n else 16 + 16 * n
  else 0

/-- The result has room (R414). -/
def MbCmd.resultOk (c : MbCmd) : Bool := c.resultLen ≤ c.room

/-! ## Replies (R412) -/

/-- A reply: its status, flags and result. -/
structure Reply where
  m : Master
  seq : Nat
  opcode : Nat
  status : Nat
  reject : Bool
  dmaErr : Bool
  ddone : Nat
  result : List Byte
  deriving DecidableEq, Repr

/-- The bytes of a reply. -/
def Reply.bytes (r : Reply) : List Byte :=
  let h := leBytes 2 r.status ++ leBytes 2 r.opcode ++ leBytes 1 r.m.num ++
    leBytes 1 ((if r.reject then 1 else 0) + (if r.dmaErr then 2 else 0)) ++ zeroBytes 2 ++ leBytes 4 r.seq ++
    leBytes 2 r.result.length ++ zeroBytes 2 ++ leBytes 4 r.ddone ++ zeroBytes 40
  h ++ leBytes 4 (crc32c (h ++ r.result)).toNat ++ r.result

/-- The reply of what the mailbox holds for a master (R417, R418). -/
def State.heldReply (s : State) (m : Master) (seq : Nat) : Reply :=
  let h := s.heldOf m
  match h.result with
  | none => ⟨m, seq, h.opcode, stPending, false, false, 0, []⟩
  | some (st, res) => ⟨m, seq, h.opcode, st, false, h.dmaErr, h.ddone, res⟩

/-- A rejection (R415). -/
def rejectReply (m : Master) (p : List Byte) (st : Nat) : Reply := ⟨m, leAt p 8 4, leAt p 0 2, st, true, false, 0, []⟩

/-! ## Acceptance (R415 to R420) -/

/-- What refuses a packet's form: PLEN first, as the CRC of R410 runs over PLEN bytes, then the CRC, then the fields
(R415; log 34). -/
def packetForm (m : Master) (p : List Byte) : Option Nat :=
  let plen := leAt p 12 2
  let fl := byteAt p 3
  let dma := fl / 4 % 2 = 1 || fl / 8 % 2 = 1
  if 4096 < plen then some stInvalidParam
  else if p.length < 64 + plen || leAt p 60 4 ≠ (crc32c (p.take 60 ++ slice p 64 plen)).toNat then some stCrc
  else if byteAt p 4 ≠ m.num then some stInvalidParam
  else if dma && (m ≠ .service || (fl / 4 % 2 = 1 && fl / 8 % 2 = 1) || leAt p 16 8 % 4 ≠ 0 || leAt p 24 4 % 4 ≠ 0 ||
      leAt p 24 4 < 4 || 2 ^ 26 < leAt p 24 4) then some stInvalidParam
  else none

/-- The lease of the owner and the presence of a master renewed (R245, R246, R418). -/
def State.renew (s : State) (m : Master) (post : Bool) : State :=
  let s1 := if s.isOwner m then s.updMbx (fun x => { x with lease := some (s.now + s.leaseNs) }) else s
  if post then s1.setHeld m (fun h => { h with present := some (s.now + 2 * s.leaseNs) }) else s1

/-- A rejected packet is counted; what is held stays (R415). -/
def State.reject (s : State) (m : Master) (p : List Byte) (st : Nat) : State × Reply :=
  (s.bump (if st = stCrc then Reg.mbxCrcerr else Reg.mbxReject), rejectReply m p st)

/-- A new command enters the queue; PENDING replaces the held result (R417, R420). A vault session of its master goes on
(R394). -/
def State.accept (s : State) (m : Master) (p : List Byte) : State × Reply :=
  let c : MbCmd :=
    { m := m, seq := leAt p 8 4, opcode := leAt p 0 2, rev := byteAt p 2, flags := byteAt p 3,
      params := slice p 64 (leAt p 12 2), daddr := leAt p 16 8, dlen := leAt p 24 4, fromOwner := s.isOwner m,
      started := false, running := false, fetching := false, noDma := !s.sep.bme }
  let s0 := s.updKvt (fun k => { k with session := k.session.map (fun (x : Master × Nat × Nat) =>
    if x.1 = m then (x.1, x.2.1, s.now) else x) })
  let s1 := s0.updMbx (fun x => { x with cmds := x.cmds ++ [c] })
  let s2 := s1.setHeld m (fun h => { h with seq := some c.seq, opcode := c.opcode, result := none, dmaErr := false, ddone := 0 })
  let s3 := State.count (s2.renew m true) 0x38 (some c.opcode) none 2 m.num 1
  (s3, s3.heldReply m c.seq)

/-- A packet from a master's route: a poll, a retransmission, a new command, or a rejection. -/
def State.receive (s : State) (m : Master) (p : List Byte) : State × Reply :=
  let h := s.heldOf m
  let seq := leAt p 8 4
  let op := leAt p 0 2
  match packetForm m p with
  | some st => s.reject m p st
  | none =>
    if byteAt p 3 % 2 = 1 then
      if leAt p 12 2 = 0 && h.seq = some seq then (s.renew m false, s.heldReply m seq) else s.reject m p stInvalidParam
    else
      let sync := byteAt p 3 / 2 % 2 = 1
      let fresh := match h.seq with
        | none => true
        | some q => sync || seq = (q + 1) % 2 ^ 32
      if fresh then
        if (s.cmdOf m).isSome then s.reject m p stBusy else s.accept m p
      else if h.seq = some seq && h.opcode = op then (s.renew m true, s.heldReply m seq)
      else s.reject m p stInvalidParam

/-- The supervisor core alone runs: Standby, or a module that has not powered up (R513, R523). -/
def State.coresOff (s : State) : Bool := s.pwr.mode = .standby || !s.pwr.up

/-- Whether the mailbox takes a master's packets: it is ready, or, on a module that is fenced, in Standby or in test
boot, the master is the BMC (R268, R523, R582). -/
def State.mbxServes (s : State) (m : Master) : Bool :=
  if s.tk.fenced || s.coresOff || s.tst.boot then m = .bmc else s.mbx.ready

/-- The reply as it leaves on its route. -/
def State.sendReply (s : State) (r : Reply) : State :=
  let s1 := s.emit (.reply r.m r.seq r.status ((if r.reject then 1 else 0) + (if r.dmaErr then 2 else 0)) r.result)
  if r.m = .peer then s1.mgmtPeer (68 + r.result.length) else s1

/-- The reply window holds a status other than PENDING (RSTAT.DONE). -/
def State.replyDone (s : State) : Bool := !s.mbx.replyWin.isEmpty && s.mbx.replyStatus ≠ stPending

/-- A packet of the service host: its reply fills the reply window (R436); vector 0 follows when DONE rises (R446). -/
def State.serviceReply (s : State) (r : Reply) : State :=
  let s1 := s.updMbx (fun x => { x with
    replyWin := r.bytes, replyReject := r.reject, replyStatus := r.status, replyDmaErr := r.dmaErr })
  let s2 := s1.sendReply r
  if !s.replyDone && s2.replyDone then s2.sendMsi 0 else s2

/-- The packet of a route is taken and answered there. -/
def State.route (s : State) (m : Master) (p : List Byte) : State :=
  if !s.mbxServes m then s
  else
    let (s1, r) := s.receive m p
    if m = .service then s1.serviceReply r else s1.sendReply r

/-- The packet in the command window. -/
def State.windowPacket (s : State) : List Byte :=
  cellBytes s.mbx.cmdWin 0 4160

/-- A write of MBX.DOORBELL through BAR0 (R436). -/
def State.doorbell (s : State) (w : Word) : State :=
  if fieldOf w 0 0 = 1 then
    let win := s.windowPacket
    s.route .service (win.take (64 + leAt win 12 2))
  else s

/-- DOORBELL_SEND (R405, R436): the service host submits the packet in the command window. -/
def execDoorbellSend (w : Word) (s : State) : Host.Outcome State Fault Refusal :=
  if s.sepRoute then .next (s.doorbell w) else .next s

/-- MCTP_MESSAGE (R405, R406): a reassembled vendor-defined message of the BMC; messages above 4,160 bytes are
dropped. -/
def execMctpMessage (packet : List Byte) (s : State) : Host.Outcome State Fault Refusal :=
  if 4160 < packet.length then .next s else .next (s.route .bmc packet)

/-- MCTP_CONTROL_MESSAGE (R406): served by the module; DSP0236 gives the answer's contents, which change no state of
this model (log 7). -/
def execMctpControlMessage (command : Nat) (s : State) : Host.Outcome State Fault Refusal :=
  .next (s.emit (.reply .bmc command stOk 0 []))

/-- POLL (R418): a poll of the master on its route. -/
def execPoll (m : Master) (packet : List Byte) (s : State) : Host.Outcome State Fault Refusal :=
  if byteAt packet 3 % 2 = 1 then .next (s.route m packet) else .next s

/-! ## The start of commands (R413, R421 to R425, R625) -/

/-- Commands before one in the order of acceptance. -/
def earlier (m : Master) : List MbCmd → List MbCmd
  | [] => []
  | c :: l => if c.m = m then [] else c :: earlier m l

/-- The command may start now (R421 to R423). -/
def State.mayStart (s : State) (c : MbCmd) : Bool :=
  let e := earlier c.m s.mbx.cmds
  c.opcode = 0x0103 ||
    (s.mbx.activating.isNone && !e.any (fun d => opBarrier d.opcode) && (!opBarrier c.opcode || e.isEmpty) &&
      (!opChanges c.opcode || !e.any (fun d => opChanges d.opcode)))

/-- What a fenced module, one in Standby or one in test boot refuses (R268, R523, R582). -/
def State.restricted (s : State) (op : Nat) : Bool :=
  if s.tk.fenced then !(op = 0x0101 || op = 0x0201)
  else if s.coresOff then !(op = 0x0101 || op = 0x0201 || op = 0x0807)
  else if s.tst.boot then !(op = 0x0101 || op = 0x0201 || op = 0x0807 || op = 0x0A02 || op = 0x0A03)
  else false

/-- The BMC route serves MOD_RESTART in Standby and test boot, and TEST_STOP in test boot, where there is no owner
(R523, R582; log 35). -/
def State.bmcOnly (s : State) (c : MbCmd) : Bool := (s.coresOff || s.tst.boot) && c.m = .bmc

/-- The first check of R625 that an accepted command fails. -/
def State.startCheck (s : State) (c : MbCmd) : Option Nat :=
  firstFail
    [((opRow c.opcode).isNone || c.rev ≠ 1, stInvalidOpcode), (s.restricted c.opcode, stConflict),
     (!c.fromOwner && opChanges c.opcode && !s.bmcOnly c, stNotOwner), (!c.lenOk || !c.resultOk, stInvalidParam)]

/-- COMMAND_START (R421): the command starts, or ends with the first failing check; parameters by DMA are fetched
(R411). -/
def execCommandStart (m : Master) (s : State) : Host.Outcome State Fault Refusal :=
  match s.cmdOf m with
  | none => .next s
  | some c =>
    if c.started || !s.mayStart c then .next s
    else
      match s.startCheck c with
      | some st => .next (s.finish m st [])
      | none =>
        let cs := updWhere (fun (d : MbCmd) => d.m = m) (fun d => { d with started := true, fetching := c.dmap }) s.mbx.cmds
        let s1 := s.updMbx (fun x => { x with cmds := cs })
        if c.dmap then .next (s1.startFetch c.daddr c.dlen c.noDma) else .next s1

/-! ## Mailbox commands -/

/-- Bit v set when the route of master v is available (R427, R438). -/
def State.routes (s : State) : Nat :=
  (if s.sepRoute then 1 else 0) + 2 + (if s.cfgBit Reg.mbxInbcfg 31 then 4 else 0) + (if s.rfx.peer.joined then 8 else 0)

/-- The running firmware slot's record. -/
def State.fwRunning (s : State) : FwSlot := if s.mbx.runSlot = 0 then s.mbx.slot0 else s.mbx.slot1

/-- Version of the running firmware, 0 while none runs (20 ID.FWVER0): the management cores of a module that is fenced, in
Standby or in test boot run none. -/
def State.fwVersion (s : State) : Nat :=
  if s.mbx.ready && !s.coresOff && !s.tk.fenced && !s.tst.boot then s.fwRunning.version else 0

/-- DESCRIBE (R427). -/
def execDescribe (m : Master) (s : State) : Host.Outcome State Fault Refusal :=
  .next (s.runCmd m 0x0101 (fun _ s =>
    let rows := if s.tk.fenced then opRows.filter (fun r => r.op = 0x0101 || r.op = 0x0201) else opRows
    s.finish m stOk
      (leBytes 4 (Config.unitPres s.part).toNat ++ leBytes 4 s.routes ++ zeroBytes 24 ++ leBytes 8 s.fwVersion ++
        leBytes 1 s.mbx.runSlot ++ leBytes 1 (if s.slot = .a then 0 else 1) ++ leBytes 2 rows.length ++ zeroBytes 20 ++
        rows.flatMap (fun r => leBytes 2 r.op ++ [1] ++
          leBytes 1 ((if r.anyone then 1 else 0) + (if opBarrier r.op then 2 else 0))))))

/-- A running MB_FLUSH completes once the peer holds what it waits for (R423). -/
def State.flushCheck (s : State) : State :=
  match s.mbx.cmds.find? (fun c => c.opcode = 0x0102 && c.running) with
  | some c => if s.peerHolds s.mbx.flushMseq then s.finish c.m stOk [] else s
  | none => s

/-- MB_FLUSH (R423): every safety-net update made so far is to be held by the peer. -/
def execMbFlush (m : Master) (s : State) : Host.Outcome State Fault Refusal :=
  .next (s.runCmd m 0x0102 (fun _ s =>
    ((s.updMbx (fun x => { x with flushMseq := s.lastMseq })).keepRunning m).flushCheck))

/-- MB_RESET (R422): unstarted commands end, the held SEQ of every other master is forgotten, and the command completes
with the started ones before it. -/
def execMbReset (m : Master) (s : State) : Host.Outcome State Fault Refusal :=
  .next (s.runCmd m 0x0103 (fun _ s =>
    let idle := s.mbx.cmds.filter (fun c => !c.started)
    let s1 := idle.foldl (fun t c => t.finishOne c.m stAborted []) s
    let s2 := ([Master.service, .bmc, .inband, .peer].filter (fun k => k ≠ m)).foldl (fun t k =>
      t.setHeld k (fun h => { h with seq := none })) s1
    if (earlier m s2.mbx.cmds).isEmpty then s2.finish m stOk [] else s2.keepRunning m))

/-- FAB_TOPO (R426): the stored LSA payloads in ascending FID from START. -/
def insLsa (x : Lsa) : List Lsa → List Lsa
  | [] => [x]
  | y :: l => if x.fid ≤ y.fid then x :: y :: l else y :: insLsa x l

def execFabTopo (m : Master) (s : State) : Host.Outcome State Fault Refusal :=
  .next (s.runCmd m 0x0402 (fun c s =>
    let l := ((s.rfx.lsdb.map (fun e => e.lsa)).filter (fun a => byteAt c.params 0 ≤ a.fid)).foldl (fun k a => insLsa a k) []
    s.answer c (leBytes 1 l.length ++ zeroBytes 3 ++ l.flatMap Lsa.bytes)))

end Sys2Proof.Machine
end

