-- ==== Sys2Proof/Machine/Hosts.lean ====
section
/-! DEFINITION. The host family, first part (chapter 02): connections, Connect and the properties, authentication, the
admin commands, Disconnect, and the ends of controllers. -/

namespace Sys2Proof.Machine

/-! ## Connections (R31 to R34, R39, R287, R382) -/

/-- The subsystem whose portal a connection request on a port names: the portal's identity is on that port, and the
subsystem is presented on it (R286, R519). -/
def State.portalVs (s : State) (port : Nat) (addr : BitVec 128) : Option Vs :=
  s.vsm.subs.find? (fun v => v.portals.any (fun q => q.addr = addr && v.ports / 2 ^ q.port % 2 = 1 &&
    (s.identPort q.port = port || s.identPort (4 + q.port) = port)))

/-- What the establishment of a connection settles, of which the commands tell only part: free values (log 78). -/
def connPath (id : Nat) : ConnPath :=
  let f := Config.connPart id
  { lmac := f 0, rmac := f 1, rip := f 2, vlan := f 3, lnum := f 4, rnum := f 5, sndWnd := f 6, rcvWnd := f 7, wscale := f 8,
    sack := f 9, tsOff := f 10, tsRecent := f 11, msn := f 12, credits := f 13, retries := f 14, retryTime := f 15 }

/-- A new connection's record; its sequence numbers and initial congestion window are free (log 78). -/
def newConn (id port : Nat) (addr : BitVec 128) (t : Transport) (vsid unit : Nat) : HConn :=
  { id := id, port := port, addr := addr, transport := t, vsid := vsid, unit := unit, hdgst := false, ddgst := false,
    icDone := false, tls := false, bound := none, auth := .idle, held := none, rcvNext := Config.connPart id 16,
    sndUna := Config.connPart id 17, sndNext := Config.connPart id 17, path := connPath id, cwnd := Config.connPart id 18 }

def State.addConn (s : State) (k : HConn) : State :=
  let c := { k with path := { k.path with lmac := (s.macs.getD k.port 0).toNat } }
  (s.updHce (fun x => { x with conns := x.conns ++ [c] })).sendXport k.id

/-- RDMA_CM_CONNECTION_REQUEST (R31, R39, R287). Reject reasons: 1 is "invalid RDMA QP type", 0 any other (log 7). -/
def execRdmaCmConnectionRequest (conn port : Nat) (addr : BitVec 128) (qp : QpType) (mtu : Nat) (s : State) :
    Host.Outcome State Fault Refusal :=
  match s.portalVs port addr with
  | none => .next s
  | some v =>
    if (s.findConn conn).isSome then .next s
    else if qp ≠ .rc then .next (s.emit (.cmReject conn 1))
    else if !s.cfgBit Reg.hceHcfg 1 || v.flags % 2 = 0 then .next (s.emit (.cmReject conn 0))
    else .next ((s.addConn (newConn conn port addr .rdma v.vsid mtu)).emit (.cmAccept conn))

/-- TCP_SYN (R39, R287). -/
def execTcpSyn (conn port : Nat) (addr : BitVec 128) (mss : Nat) (s : State) : Host.Outcome State Fault Refusal :=
  match s.portalVs port addr with
  | none => .next s
  | some v =>
    if (s.findConn conn).isSome then .next s
    else if !s.cfgBit Reg.hceHcfg 2 || v.flags / 2 % 2 = 0 then .next (s.emit (.rst conn))
    else .next ((s.addConn (newConn conn port addr .tcp v.vsid mss)).emit (.synAck conn))

/-- ICREQ (R33, R382): digests as the host asks; a subsystem that requires TLS closes a connection without it. -/
def execIcreq (conn : Nat) (hdgst ddgst : Bool) (s : State) : Host.Outcome State Fault Refusal :=
  match s.findConn conn with
  | none => .next s
  | some k =>
    if k.transport ≠ .tcp || k.icDone then .next s
    else if ((s.findVs k.vsid).map (fun v => v.flags)).getD 0 / 4 % 2 = 1 && !k.tls then
      .next ((s.emit (.rst conn)).loseConn conn)
    else
      let s1 := s.updConn conn (fun c => { c with icDone := true, hdgst := hdgst, ddgst := ddgst })
      .next ((s1.sendXport conn).emit (.icresp conn 131072 0 hdgst ddgst))

/-! ## Connect (R38, R39, R43, R287, R352) -/

/-- I/O queue pairs of the module, or of a subsystem. -/
def State.qpUsed (s : State) (v : Option Nat) : Nat :=
  (s.hce.sqs.filter (fun q => match v with | some x => q.vsid = x | none => true)).length

def State.ctrlsOf (s : State) (v : Nat) : List Ctrl := s.hce.ctrls.filter (fun c => c.vsid = v)

/-- Index of a host NQN: the one it has, or the lowest free of 1,024 (R352). -/
def State.hostIndex (s : State) (h : Nqn) : Option Nat :=
  match s.hce.hostIdx.find? (fun e => e.2 = h) with
  | some e => some e.1
  | none => (natsFrom 0 1024).find? (fun i => !s.hce.hostIdx.any (fun e => e.1 = i))

/-- The next controller ID that is free, from 0x0001 to 0xFFEF (R38). -/
def State.freeCntlid (s : State) : Nat :=
  let ids := (natsFrom 0 4097).map (fun i => (s.hce.nextCntlid - 1 + i) % 0xFFEF + 1)
  (ids.find? (fun i => (s.findCtrl i).isNone && !s.rfx.peerXports.any (fun x => x.cntlid = i))).getD 0

/-- Head of a queue, 0 where there is none. -/
def State.headOf (s : State) (c q : Nat) : Nat :=
  if q = 0 then ((s.findCtrl c).map (fun x => x.adminSqhd)).getD 0 else ((s.findSq c q).map (fun x => x.sqhd)).getD 0

/-- A completion of a Connect or of authentication on a connection that may carry no queue yet (R41). A refused Connect
of an I/O queue enters the log of its controller (R63). -/
def State.connCqe (s : State) (conn cid : Nat) (q : Nat) (c : Nat) (st : CplStatus) (dw0 : Nat) : State :=
  ((s.logError c q cid st 0).emit (.cqe c q cid st dw0 (s.headOf c q))).hostFrames conn 8 16 none

/-- The host has failed authentication on the connection (R35). -/
def AuthSt.isFailed : AuthSt → Bool
  | .failed _ => true
  | _ => false

/-- A Connect to a subsystem whose state, host list, SUBNQN or authentication refuses it (R35, R287). -/
def State.connectVs (s : State) (k : HConn) (r : ConnectReq) : Option CplStatus :=
  match s.findVs k.vsid with
  | none => some cplConnParam
  | some v =>
    if !r.discovery && v.subnqn ≠ r.subNqn then some cplConnParam
    else if v.st = .target || v.st = .moved then some cplConnParam
    else if v.st ≠ .active then some cplConnBusy
    else if !r.discovery && !v.hosts.any (fun h => h = r.hostNqn) then some cplConnHost
    else if (v.flags / 8 % 2 = 1 && k.auth ≠ .done) || k.auth.isFailed then some cplAuthRequired
    else none

/-- What refuses a Connect on an admin queue (R38, R39, R43, R287). -/
def State.connectAdmin (s : State) (k : HConn) (r : ConnectReq) : Option CplStatus :=
  if !s.cfgBit Reg.hceHcfg 0 then some cplConnBusy
  else
    match s.connectVs k r with
    | some st => some st
    | none =>
      let v := s.findVs k.vsid
      if r.qsize < 2 || 32 < r.qsize || (r.kato = 0 && !r.discovery) || 4096 ≤ s.hce.ctrls.length ||
          (s.hostIndex r.hostNqn).isNone || (v.map (fun x => x.cntls)).getD 0 ≤ (s.ctrlsOf k.vsid).length then
        some cplConnParam
      else none

/-- What refuses a Connect on an I/O queue. -/
def State.connectIo (s : State) (k : HConn) (r : ConnectReq) : Option CplStatus :=
  match s.connectVs k r with
  | some st => some st
  | none =>
    match s.findCtrl r.cntlid with
    | none => some cplConnParam
    | some c =>
      let pairs := ((s.findVs k.vsid).map (fun x => x.qpairs)).getD 0
      if c.vsid ≠ k.vsid || c.hostNqn ≠ r.hostNqn || c.discovery || c.resetting || r.qsize < 2 || 4096 < r.qsize ||
          c.granted < r.sqid || (s.findSq r.cntlid r.sqid).isSome || 16384 ≤ s.qpUsed none ||
          pairs ≤ s.qpUsed (some k.vsid) then some cplConnParam
      else none

/-- The Keep Alive timeout in ns, in steps of 100 ms (R38). -/
def katoNs (kato : Nat) : Nat := ms (100 * ceilDiv kato 100)

/-- A new association (R38). Until its host sets Number of Queues it is granted one I/O queue (log 67). -/
def State.openAssoc (s : State) (conn : Nat) (k : HConn) (r : ConnectReq) : State :=
  let id := s.freeCntlid
  let c : Ctrl :=
    { cntlid := id, vsid := k.vsid, hostNqn := r.hostNqn, discovery := r.discovery, conn := conn, adminSize := r.qsize,
      adminSqhd := 1 % r.qsize, ccEn := false, rdy := false, cc := 0, shn := 0, shst := 0, resetting := false,
      resetDisc := none, resetEnds := false, kato := r.kato,
      kaDeadline := if r.kato = 0 then none else some (s.now + katoNs r.kato), granted := 1, featArb := 0, featTemp := 0,
      featAer := 0, featHostId := 0, aers := [], aborts := [], errLog := [], changed := [], events := [], adminWait := [] }
  let ix := (s.hostIndex r.hostNqn).getD 0
  let s1 := s.updHce (fun x => { x with
    ctrls := x.ctrls ++ [c], nextCntlid := id % 0xFFEF + 1
    hostIdx := if x.hostIdx.any (fun e => e.1 = ix) then x.hostIdx else x.hostIdx ++ [(ix, r.hostNqn)] })
  ((s1.updConn conn (fun y => { y with bound := some (id, 0) })).sendXport conn).connCqe conn r.cid 0 id cplSuccess id

/-- A new I/O queue (R39, R41). -/
def State.openQueue (s : State) (conn : Nat) (k : HConn) (r : ConnectReq) : State :=
  let q : SubQ := ⟨r.cntlid, r.sqid, r.qsize, 1 % r.qsize, [], conn, k.vsid, false, none⟩
  let s1 := s.updHce (fun x => { x with sqs := x.sqs ++ [q] })
  ((s1.updConn conn (fun y => { y with bound := some (r.cntlid, r.sqid) })).sendXport conn).connCqe conn r.cid r.sqid r.cntlid
    cplSuccess r.cntlid

/-- The invalid-parameter attributes in Dword 0 of a refused Connect: a KATO of 0 where it is not accepted is named by its
offset 48 in the command (R43; the offset is the NVMe over Fabrics specification's, log 7). The attributes of other
refusals, which the spec does not give, are 0 (log 62). -/
def connAttr (r : ConnectReq) (st : CplStatus) : Nat :=
  if st = cplConnParam && r.sqid = 0 && r.kato = 0 && !r.discovery then 48 else 0

/-- CONNECT (R39, R43, R287). -/
def execConnect (conn : Nat) (req : ConnectReq) (s : State) : Host.Outcome State Fault Refusal :=
  match s.findConn conn with
  | none => .next s
  | some k =>
    if k.bound.isSome || (k.transport = .tcp && !k.icDone) then .next s
    else
      let bad := if req.sqid = 0 then s.connectAdmin k req else s.connectIo k req
      match bad with
      | some st => .next (s.connCqe conn req.cid req.sqid (if req.sqid = 0 then 0xFFFF else req.cntlid) st (connAttr req st))
      | none => .next (if req.sqid = 0 then s.openAssoc conn k req else s.openQueue conn k req)

/-! ## The end of an association (R69 to R73) -/

/-- An association ends: its connections close, its host's index goes with the host's last association (R352). -/
def State.endAssoc (s : State) (c : Nat) : State :=
  match s.findCtrl c with
  | none => s
  | some x =>
    let mine := (s.hce.conns.filter (fun k => match k.bound with | some (d, _) => d = c | none => false)).map (fun k => k.id)
    let s1 := mine.foldl State.closeConn s
    s1.updHce (fun y =>
      let cs := y.ctrls.filter (fun d => d.cntlid ≠ c)
      { y with
        ctrls := cs
        hostIdx := if cs.any (fun d => d.hostNqn = x.hostNqn) then y.hostIdx else y.hostIdx.filter (fun e => e.2 ≠ x.hostNqn) })

/-- CONTROLLER_RESET_COMPLETE (R69, R70, R72): no tag of the controller remains in any engine. -/
def execControllerResetComplete (cntlid : Nat) (s : State) : Host.Outcome State Fault Refusal :=
  match s.findCtrl cntlid with
  | none => .next s
  | some x =>
    if !x.resetting || s.hce.tags.any (fun r => r.cntlid = cntlid) then .next s
    else
      let s1 := s.updCtrl cntlid (fun y => { y with rdy := false, resetting := false, resetDisc := none })
      let s2 := match x.resetDisc with
        | some cid => s1.adminCqe cntlid cid cplSuccess 0
        | none => s1
      if x.resetEnds then .next (s2.endAssoc cntlid)
      else
        let ios := (s2.hce.conns.filter (fun k => match k.bound with | some (d, q) => d = cntlid && q ≠ 0 | none => false)).map
          (fun k => k.id)
        .next ((ios.foldl State.closeConn s2).sendXport x.conn)

/-- SHUTDOWN_COMPLETE (R71): every admitted command has completed, or the reset of an abrupt shutdown is over. -/
def execShutdownComplete (cntlid : Nat) (s : State) : Host.Outcome State Fault Refusal :=
  match s.findCtrl cntlid with
  | none => .next s
  | some x =>
    if x.shst ≠ 1 || x.resetting || s.hce.tags.any (fun r => r.cntlid = cntlid && r.st ≠ .responding) then .next s
    else .next ((s.updCtrl cntlid (fun y => { y with shst := 2 })).sendXport x.conn)

/-- KEEP_ALIVE_TIMEOUT (R43, R300, R433): the association ends as by a controller reset; none is declared while a
subsystem is frozen or firmware is activated. -/
def execKeepAliveTimeout (cntlid : Nat) (s : State) : Host.Outcome State Fault Refusal :=
  match s.findCtrl cntlid with
  | none => .next s
  | some x =>
    let frozen := match s.findVs x.vsid with | some v => v.st = .frozen | none => false
    if due x.kaDeadline s.now && !frozen && s.mbx.activating.isNone && !x.resetting then .next (s.beginReset cntlid none true)
    else .next s

/-- CONNECTION_LOSS (R42, R69). -/
def execConnectionLoss (conn : Nat) (s : State) : Host.Outcome State Fault Refusal := .next (s.loseConn conn)

/-! ## Properties (R69 to R71) -/

/-- The INTAKE record of an admin capsule goes to the peer (R259). -/
def State.intakeAdmin (s : State) (c cid op : Nat) (args : List Nat) : State :=
  match s.findCtrl c with
  | none => s
  | some x =>
    s.mirSend (.cmd
      { kind := .intake, admin := true, writeThrough := false, forwarded := false, cntlid := c, sqid := 0, cid := cid, tag := 0,
        conn := x.conn, vmark := 0, vsid := x.vsid, spos := 0, slen := 0, capsule := none, cqe := none, adminOpcode := op,
        args := args })

/-- The head of an admin queue moves over `n` entries. -/
def Ctrl.advance (x : Ctrl) (n : Nat) : Ctrl := { x with adminSqhd := (x.adminSqhd + n) % Nat.max x.adminSize 1 }

/-- A controller whose admin queue an admin capsule has left: SQHD passes it, once nothing waits before it (R50, R51, R58). -/
def Ctrl.passed (y : Ctrl) : Ctrl :=
  if y.adminWait.isEmpty then y.advance 1 else { y with adminWait := y.adminWait ++ [none] }

/-- An admin capsule leaves its queue. -/
def State.passAdmin (s : State) (c : Nat) : State := s.updCtrl c Ctrl.passed

/-- An admin capsule is taken from its queue at once. -/
def State.takeAdmin (s : State) (c cid op : Nat) (args : List Nat) : State := (s.intakeAdmin c cid op args).passAdmin c

/-- A write of CC: EN from 1 to 0 resets, SHN shuts down (R69, R71). -/
def State.writeCc (s : State) (c v : Nat) : State :=
  match s.findCtrl c with
  | none => s
  | some x =>
    let en := v % 2 = 1
    let shn := bitsOf v 15 14
    let s1 := s.updCtrl c (fun y => { y with cc := v })
    let s2 :=
      if x.ccEn && !en then s1.beginReset c none false
      else if !x.ccEn && en && !x.resetting then s1.updCtrl c (fun y => { y with ccEn := true, rdy := true, shn := 0, shst := 0 })
      else s1
    let s3 :=
      if shn = 1 && x.shn = 0 then s2.updCtrl c (fun y => { y with shn := 1, shst := 1 })
      else if shn = 2 && x.shn ≠ 2 then (s2.updCtrl c (fun y => { y with shn := 2, shst := 1 })).beginReset c none false
      else s2
    s3.sendXport x.conn

/-- Property Set (R44, R69, R71): offset 0x14 is CC; no other property can be written. The Property Set that clears CC.EN
completes at once with Success: whether R69 step 4 withholds that completion too the spec leaves open (log 63). -/
def State.doPropertySet (s : State) (c cid offset value : Nat) : State :=
  if offset = 0x14 then (s.writeCc c value).adminDone c cid cplSuccess 0 else s.adminDone c cid cplInvalidField 0

/-- Property Get (R44): CAP, VS, CC and CSTS. CAP has MQES 4,095, CQR 1, the NVM command set and round robin only (R38);
its timeout and the version are values that the spec does not give (log 4). -/
def State.doPropertyGet (s : State) (c cid offset : Nat) : State :=
  match s.findCtrl c with
  | none => s
  | some x =>
    if offset = 0x00 then
      s.tookFree.adminDone c cid cplSuccess (4095 + 2 ^ 16 + 2 ^ 24 * (s.freeNow % 256) + 2 ^ 37)
    else if offset = 0x08 then s.adminDone c cid cplSuccess (Config.nvmeVersion % 2 ^ 32)
    else if offset = 0x14 then s.adminDone c cid cplSuccess (x.cc / 2 * 2 + (if x.ccEn then 1 else 0))
    else if offset = 0x1C then s.adminDone c cid cplSuccess ((if x.rdy then 1 else 0) + 4 * x.shst)
    else s.adminDone c cid cplInvalidField 0

/-! ## DH-HMAC-CHAP (R35) -/

/-- Hash and group identifiers that the module supports: SHA-256, SHA-384, SHA-512; null and ffdhe2048 to ffdhe8192,
numbered as the NVMe base specification numbers them (log 7). -/
def chapHash (h : Nat) : Bool := 1 ≤ h && h ≤ 3
def chapGroup (g : Nat) : Bool := g ≤ 5

/-- The completion of an authentication command on its connection: of the admin queue, of an I/O queue, whose SQHD passes the
command, or of a connection that carries no queue yet. -/
def State.authCqe (s : State) (conn cid : Nat) : State :=
  match (s.findConn conn).bind (fun k => k.bound) with
  | none => s.connCqe conn cid 0 0xFFFF cplSuccess 0
  | some (c, q) =>
    if q = 0 then s.adminDone c cid cplSuccess 0
    else (s.updSq c q (fun y => { y with sqhd := (y.sqhd + 1) % Nat.max y.size 1 })).connCqe conn cid q c cplSuccess 0

/-- What an Authentication Send makes of the exchange (R35): of several offers the first that the module supports is
taken (log 38); `answer` is the controller's response of a bidirectional exchange. -/
def AuthSt.after (a : AuthSt) (msg : AuthMsg) : AuthSt :=
  match msg with
  | .negotiate hs gs concat =>
    (match hs.find? chapHash, gs.find? chapGroup with
     | some h, some g => if concat then .failed false else .challenge h g
     | _, _ => .failed false)
  | .reply resp bi =>
    (match a with
     | .challenge h g => if Config.chapGood h g resp then .success h (Config.chapAnswer h g resp) bi else .failed false
     | _ => .failed false)
  | .success2 =>
    (match a with
     | .success _ _ true => .done
     | _ => .failed true)
  | .failure2 => .failed true

/-- Authentication Send (R35). -/
def State.authSend (s : State) (conn cid : Nat) (msg : AuthMsg) : State :=
  (s.updConn conn (fun k => { k with auth := k.auth.after msg })).authCqe conn cid

/-- Bytes of a response under a hash: SHA-256, SHA-384, SHA-512. -/
def chapLen (h : Nat) : Nat := if h = 1 then 32 else if h = 2 then 48 else 64

/-- Authentication Receive (R35): the message of the state the exchange is in, kinds 1 AUTH_challenge, 2 AUTH_success1 with
the controller's response where the host asked for it, 3 AUTH_failure1, 4 AUTH_failure2; reason code 0x01 on a failure. -/
def State.authReceive (s : State) (conn cid : Nat) : State :=
  match s.findConn conn with
  | none => s
  | some k =>
    let send := fun (t : State) (kind code : Nat) (bs : List Byte) => (t.emit (.auth conn kind code bs)).authCqe conn cid
    match k.auth with
    | .challenge h g => send s.tookFree 1 0 (leBytes 1 h ++ leBytes 1 g ++ leBytes (chapLen h) s.freeNow)
    | .success h a bi =>
      if bi then send s 2 0 (leBytes (chapLen h) a) else send (s.updConn conn (fun y => { y with auth := .done })) 2 0 []
    | .failed second => send s (if second then 4 else 3) 1 []
    | .idle => send s 3 1 []
    | .done => send s 2 0 []

/-- An authentication message as the arguments of an INTAKE record. -/
def AuthMsg.nats : AuthMsg → List Nat
  | .negotiate hs gs c => [0, hs.length] ++ hs ++ [gs.length] ++ gs ++ [if c then 1 else 0]
  | .reply r bi => [1, if bi then 1 else 0] ++ r.map (fun b => b.toNat)
  | .success2 => [2]
  | .failure2 => [3]

/-- The authentication message of such arguments. -/
def authMsgOf (l : List Nat) : AuthMsg :=
  let n := l.getD 1 0
  let m := l.getD (2 + n) 0
  if l.getD 0 0 = 0 then
    .negotiate ((l.drop 2).take n) ((l.drop (3 + n)).take m) (l.getD (3 + n + m) 0 = 1)
  else if l.getD 0 0 = 1 then .reply ((l.drop 2).map (fun x => (BitVec.ofNat 8 x : Byte))) (n = 1)
  else if l.getD 0 0 = 2 then .success2
  else .failure2

/-! ## Admin commands (R44 to R51, R64 to R68) -/

/-- Bytes placed at an offset of a data structure. -/
def putAt (bs : List Byte) (o : Nat) (x : List Byte) : List Byte := bs.take o ++ x ++ bs.drop (o + x.length)

/-- Fields of Identify Controller that the NVMe base specification requires for the features of R44 to R48 (log 7), beside
those of R49: VID and SSVID; serial number, model and firmware revision, free values; CMIC with several ports, several
controllers and ANA; VER; OAES with namespace attribute and ANA change notices; CNTRLTYPE; OACS with Format NVM and
NVMe-MI; ELPE; SANICAP; NN; the ANA group limits; SGLS; MNAN. -/
def identBase (p : Part) (x : Ctrl) : List (Nat × List Byte) :=
  [(0, leBytes 2 0x1F6C), (2, leBytes 2 0x1F6C), (4, (natsFrom 4 68).map Config.identByte), (76, [0x0B]),
   (78, leBytes 2 x.cntlid), (80, leBytes 4 Config.nvmeVersion), (92, leBytes 4 0x900), (111, [if x.discovery then 2 else 1]),
   (256, leBytes 2 0x42), (262, [255]), (328, leBytes 4 (if Config.hasCipher p then 3 else 2)), (344, leBytes 4 65535),
   (348, leBytes 4 8192), (516, leBytes 4 65535), (536, leBytes 4 0x200005), (540, leBytes 4 8192)]

/-- Identify Controller (R49); the offsets are the NVMe base specification's (log 7). -/
def State.identCtrl (s : State) (x : Ctrl) : List Byte :=
  let nqn := padTo 256 (((s.findVs x.vsid).map (fun v => v.subnqn)).getD [])
  (identBase s.part x ++
   [(77, [9]), (258, [3]), (259, [3]), (320, leBytes 2 1), (343, [1]), (512, [0x66]), (513, [0x44]), (514, leBytes 2 0x1000),
    (520, leBytes 2 0x000D), (528, leBytes 2 0x001F), (768, nqn), (1792, leBytes 4 4), (1796, leBytes 4 1)]).foldl
    (fun (b : List Byte) (e : Nat × List Byte) => putAt b e.1 e.2) (zeroBytes 4096)

/-- Identify Namespace: size and the two formats of R100, shared by the controllers, in an ANA group of its own (R37); a
deallocated block reads as zeroes. -/
def Ns.ident (n : Ns) : List Byte :=
  let sz := leBytes 8 n.lbas
  [(0, sz ++ sz ++ sz), (25, [1]), (26, leBytes 1 n.lbaf), (30, [1]), (33, [9]), (92, leBytes 4 n.nsid), (130, [12]),
   (134, [9])].foldl (fun (b : List Byte) (e : Nat × List Byte) => putAt b e.1 e.2) (zeroBytes 4096)

/-- Namespace identification descriptors, CNS 0x03: a globally unique identifier, a free value, and the NVM command set
(layout log 7). -/
def State.identDescs (s : State) (n : Ns) : List Byte :=
  padTo 4096 ([2, 16, 0, 0] ++ beBytes 16 (Config.nguid s.uid n.vsid n.nsid) ++ [4, 1, 0, 0, 0])

/-- Independent namespace data, CNS 0x08: shared, its ANA group, ready (layout log 7). -/
def Ns.identIndep (n : Ns) : List Byte :=
  [(1, [1]), (4, leBytes 4 n.nsid), (14, [1])].foldl (fun (b : List Byte) (e : Nat × List Byte) => putAt b e.1 e.2) (zeroBytes 4096)

/-- Data of an admin command and its completion with Success. -/
def State.adminData (s : State) (c cid : Nat) (bs : List Byte) : State :=
  (((s.emit (.adminData c cid bs)).hostFrames (((s.findCtrl c).map (fun x => x.conn)).getD 0) 8 bs.length none)).adminDone c cid
    cplSuccess 0

/-- Identify (R44, R49). The data of the NVM command set, CNS 0x05 and 0x06, name no limit and no extended format: all
zero (layout log 7). -/
def State.doIdentify (s : State) (c cid cns nsid : Nat) : State :=
  match s.findCtrl c with
  | none => s
  | some x =>
    if cns = 0x01 then s.adminData c cid (s.identCtrl x)
    else if cns = 0x06 then s.adminData c cid (zeroBytes 4096)
    else if cns = 0x02 then
      s.adminData c cid (padTo 4096 ((((s.nsidsOf x.vsid).filter (fun n => nsid < n)).take 1024).flatMap (leBytes 4)))
    else if cns = 0x00 || cns = 0x03 || cns = 0x05 || cns = 0x08 then
      match s.findNs x.vsid nsid with
      | none => s.adminDone c cid cplInvalidNs 0
      | some n =>
        s.adminData c cid (if cns = 0 then n.ident else if cns = 3 then s.identDescs n
          else if cns = 5 then zeroBytes 4096 else n.identIndep)
    else s.adminDone c cid cplInvalidField 0

/-- Sanitize Status: SPROG and the state, 0x0 none yet, 0x1 ended, 0x2 in progress (R105; layout log 7). The formula's 65,536,
during the last DEALLOC, does not fit the field and reads 65,535 (log 70). -/
def State.sanitizeLog (s : State) (v : Nat) : List Byte :=
  match s.opsOn.find? (fun p => p.vsid = v && p.sanitizes) with
  | some p => padTo 512 (leBytes 2 (satAt 65535 (65536 * p.regionsDone / Nat.max p.regionsAll 1)) ++ leBytes 2 2)
  | none => padTo 512 (leBytes 2 65535 ++ leBytes 2 (if hasNat s.hce.sanitized v then 1 else 0))

/-- An entry of the Error Information log (R63; layout log 7). -/
def ErrEntry.bytes (e : ErrEntry) : List Byte :=
  padTo 64 (leBytes 8 e.count ++ leBytes 2 e.sqid ++ leBytes 2 e.cid ++
    leBytes 2 (e.status.sc * 2 + e.status.sct * 512 + (if e.status.dnr then 32768 else 0)) ++ zeroBytes 2 ++ leBytes 8 e.lba)

/-- A discovery log entry: transport, address family, port, address and SUBNQN of a portal that the host may reach
(R36). -/
def State.discoveryLog (s : State) (h : Nqn) : List Byte :=
  let vs := s.vsm.subs.filter (fun v => v.hosts.any (fun y => y = h) && v.st ≠ .target && v.st ≠ .moved)
  let es := vs.flatMap (fun v => (v.portals.filter (fun q => v.ports / 2 ^ q.port % 2 = 1)).flatMap (fun q => ((if v.flags % 2 = 1 then [1] else []) ++
    (if v.flags / 2 % 2 = 1 then [3] else [])).map (fun t => (v, q, t))))
  padTo 1024 (zeroBytes 8 ++ leBytes 8 es.length) ++ es.flatMap (fun e =>
    padTo 256 (leBytes 1 e.2.2 ++ leBytes 1 (if e.2.1.af = 4 then 1 else 2) ++ [2, 0] ++ leBytes 2 (e.2.1.port + 1)) ++
    padTo 256 (beBytes 16 e.2.1.addr.toNat ++ leBytes 2 e.1.svcid) ++ padTo 512 e.1.subnqn)

/-- Commands Supported and Effects: a word for each admin and each I/O opcode, bit 0 for a supported command, bit 1 for one
that may change logical blocks (R44, R45; layout log 7). -/
def effectsLog : List Byte :=
  let word := fun (known changes : List Nat) (op : Nat) =>
    leBytes 4 (if !hasNat known op then 0 else if hasNat changes op then 3 else 1)
  (natsFrom 0 256).flatMap (word [0x02, 0x06, 0x08, 0x09, 0x0A, 0x0C, 0x18, 0x1D, 0x1E, 0x80, 0x84] [0x80, 0x84]) ++
    (natsFrom 0 256).flatMap (word [0x00, 0x01, 0x02, 0x05, 0x08, 0x09] [0x01, 0x08, 0x09]) ++ zeroBytes 2048

/-- Get Log Page (R46). Reading the Changed Namespace List clears it. The SMART / Health Information is measured: its bytes
are free values (log 4). -/
def State.doLog (s : State) (c cid lid : Nat) : State :=
  match s.findCtrl c with
  | none => s
  | some x =>
    if lid = 0x01 then s.adminData c cid (padTo 16384 (x.errLog.flatMap ErrEntry.bytes))
    else if lid = 0x02 then s.tookFree.adminData c cid ((natsFrom 0 512).map (Config.smartByte s.freeCtr))
    else if lid = 0x03 then
      s.adminData c cid (padTo 512 (leBytes 1 (s.mbx.runSlot + 1) ++ zeroBytes 7 ++ leBytes 8 s.mbx.slot0.version ++
        leBytes 8 s.mbx.slot1.version))
    else if lid = 0x04 then
      (s.updCtrl c (fun y => { y with changed := [] })).adminData c cid (padTo 4096 (x.changed.flatMap (leBytes 4)))
    else if lid = 0x05 then s.adminData c cid effectsLog
    else if lid = 0x0C then
      let ns := s.nsidsOf x.vsid
      s.adminData c cid (zeroBytes 8 ++ leBytes 2 ns.length ++ zeroBytes 6 ++ ns.flatMap (fun n =>
        padTo 32 (leBytes 4 n ++ leBytes 4 1 ++ zeroBytes 8 ++ [1]) ++ leBytes 4 n))
    else if lid = 0x81 then s.adminData c cid (s.sanitizeLog x.vsid)
    else if lid = 0x70 && x.discovery then s.adminData c cid (s.discoveryLog x.hostNqn)
    else s.adminDone c cid cplInvalidLogPage 0

/-- An Abort that did not abort (R66). -/
def State.notAborted (s : State) (c acid : Nat) : State := (s.adminDone c acid cplSuccess 1).bumpHalf Reg.hceAbtcnt 16

/-- Entries removed at the head of a queue: SQHD passes them (R58). -/
def SubQ.pass (q : SubQ) : SubQ :=
  let n := q.entries.length - (q.entries.dropWhile (fun e => e.isNone)).length
  { q with entries := q.entries.drop n, sqhd := (q.sqhd + n) % Nat.max q.size 1 }

/-- A capsule that leaves its queue without a tag: the peer drops its INTAKE record (R259). -/
def State.dropIntake (s : State) (q : SubQ) (cid : Nat) : State :=
  s.mirSend (.cmd
    { kind := .squashed, admin := false, writeThrough := false, forwarded := false, cntlid := q.cntlid, sqid := q.sqid,
      cid := cid, tag := 0, conn := q.conn, vmark := 0, vsid := q.vsid, spos := 0, slen := 0, capsule := none, cqe := none,
      adminOpcode := 0 })

/-- Abort (R64 to R68, R623). Where two waiting capsules of the queue carry the CID, both are removed and one completion is
posted (log 64). -/
def State.doAbort (s : State) (c acid sqid cid : Nat) : State :=
  match s.findCtrl c with
  | none => s
  | some x =>
    if 4 ≤ x.aborts.length then s.adminDone c acid cplAbortLimit 0
    else if sqid = 0 then s.notAborted c acid
    else
      match s.findSq c sqid with
      | none => s.notAborted c acid
      | some q =>
        match s.hce.tags.find? (fun r => r.cntlid = c && r.sqid = sqid && r.cidMapped && r.cid = cid) with
        | some r =>
          if r.open_ && !r.intents then
            let s1 := s.squash r.tag cplAborted true
            s1.updCtrl c (fun y => { y with aborts := y.aborts ++ [(acid, r.tag)] })
          else s.notAborted c acid
        | none =>
          if q.entries.any (fun (e : Option (Nat × Capsule)) => e.any (fun p => p.2.cid = cid)) then
            let s1 := s.updSq c sqid (fun y =>
              ({ y with entries := y.entries.map (fun (e : Option (Nat × Capsule)) => if e.any (fun (p : Nat × Capsule) => p.2.cid = cid) then none else e) }).pass)
            let s2 := (s1.dropIntake q cid).postCqe c sqid cid cplAborted 0 0
            (s2.adminDone c acid cplSuccess 0).bumpHalf Reg.hceAbtcnt 0
          else s.notAborted c acid

/-- The queues that Number of Queues grants (R40). -/
def State.grantQueues (s : State) (x : Ctrl) (value : Nat) : Nat :=
  let ask := Nat.min (bitsOf value 15 0) (bitsOf value 31 16) + 1
  let left := ((s.findVs x.vsid).map (fun v => v.qpairs)).getD 0 - s.qpUsed (some x.vsid)
  Nat.max 1 (Nat.min ask (Nat.min (s.cfg Reg.hceHcfg 23 16) left))

/-- Features of R47. -/
def featKnown (fid : Nat) : Bool :=
  fid = 0x01 || fid = 0x04 || fid = 0x07 || fid = 0x0B || fid = 0x0F || fid = 0x81

/-- Set Features (R40, R43, R47). -/
def State.doSetFeature (s : State) (c cid fid value : Nat) (save : Bool) : State :=
  match s.findCtrl c with
  | none => s
  | some x =>
    if !featKnown fid then s.adminDone c cid cplInvalidField 0
    else if save then s.adminDone c cid cplNotSaveable 0
    else if fid = 0x07 then
      let g := s.grantQueues x value
      ((s.updCtrl c (fun y => { y with granted := g })).sendXport x.conn).adminDone c cid cplSuccess
        ((g - 1) * 2 ^ 16 + (g - 1))
    else if fid = 0x0F && value = 0 && !x.discovery then s.adminDone c cid cplInvalidField 0
    else
      let s1 := s.updCtrl c (fun y =>
        if fid = 0x01 then { y with featArb := value }
        else if fid = 0x04 then { y with featTemp := value }
        else if fid = 0x0B then { y with featAer := value }
        else if fid = 0x81 then { y with featHostId := value }
        else { y with kato := value, kaDeadline := if value = 0 then none else some (s.now + katoNs value) })
      (s1.sendXport x.conn).adminDone c cid cplSuccess 0

/-- Get Features (R47). -/
def State.doGetFeature (s : State) (c cid fid : Nat) : State :=
  match s.findCtrl c with
  | none => s
  | some x =>
    if !featKnown fid then s.adminDone c cid cplInvalidField 0
    else
      s.adminDone c cid cplSuccess
        (if fid = 0x01 then x.featArb
         else if fid = 0x04 then x.featTemp
         else if fid = 0x07 then (x.granted - 1) * 2 ^ 16 + (x.granted - 1)
         else if fid = 0x0B then x.featAer
         else if fid = 0x81 then x.featHostId
         else x.kato)

/-- Asynchronous Event Request (R38, R50): it stays outstanding, or brings an event that waits. -/
def State.doAer (s : State) (c cid : Nat) : State :=
  match s.findCtrl c with
  | none => s
  | some x =>
    if 4 ≤ x.aers.length then s.adminDone c cid cplAerLimit 0
    else
      match x.events with
      | e :: l => (s.updCtrl c (fun y => { y with events := l })).adminDone c cid cplSuccess e
      | [] => s.updCtrl c (fun y => { y with aers := y.aers ++ [cid] })

/-- In-band packets are taken on this controller (R407). -/
def State.inbandOn (s : State) (x : Ctrl) : Bool := s.cfgBit Reg.mbxInbcfg 31 && x.vsid = s.cfg Reg.mbxInbcfg 8 0

/-- NVMe-MI Send and Receive (R405, R407): 0xC0 carries a packet, 0xC1 a poll whose reply returns; another opcode gets
the NVMe-MI status Invalid Command Opcode, 0x03 (log 6). -/
def State.doMi (s : State) (c cid op : Nat) (packet : List Byte) (receive : Bool) : State :=
  match s.findCtrl c with
  | none => s
  | some x =>
    if !s.inbandOn x then s.adminDone c cid cplInvalidField 0
    else if op = (if receive then 0xC1 else 0xC0) then
      if !s.mbxServes .inband then s.adminDone c cid cplSuccess 0
      else
        let (s1, r) := s.receive .inband packet
        if receive then (s1.sendReply r).adminData c cid r.bytes else s1.adminDone c cid cplSuccess 0
    else s.adminDone c cid cplSuccess 0x03

/-- Format NVM (R100, R102 to R104): none while it waits at the head of the admin queue. -/
def State.doFormat (s : State) (c cid nsid lbaf ses : Nat) (prot : Bool) : Option State :=
  match s.findCtrl c with
  | none => some s
  | some x =>
    if 2 < ses then some (s.adminDone c cid cplInvalidField 0)
    else
      match s.findNs x.vsid nsid with
      | none => some (s.adminDone c cid cplInvalidNs 0)
      | some _ =>
        if 1 < lbaf || prot || (ses = 2 && !Config.hasCipher s.part) then some (s.adminDone c cid cplInvalidFormat 0)
        else if s.sanitizeOn x.vsid then some (s.adminDone c cid cplSanitize 0)
        else if s.formatOn x.vsid nsid then some (s.adminDone c cid cplFormat 0)
        else
          match s.freeRecord with
          | none => none
          | some i => some (s.startOp i (ses + 1) x.vsid nsid lbaf [] (some (c, cid)))

/-- Sanitize (R44, R101, R103): SANACT 2 is Block Erase, 4 Crypto Erase (log 7). It completes once it has started. -/
def State.doSanitize (s : State) (c cid action : Nat) : Option State :=
  match s.findCtrl c with
  | none => some s
  | some x =>
    if action ≠ 2 && action ≠ 4 then some (s.adminDone c cid cplInvalidField 0)
    else if action = 4 && !Config.hasCipher s.part then some (s.adminDone c cid cplInvalidFormat 0)
    else if s.sanitizeOn x.vsid then some (s.adminDone c cid cplSanitize 0)
    else if s.formatIn x.vsid then none
    else
      match s.nsidsOf x.vsid with
      | [] => some (s.adminDone c cid cplSuccess 0)
      | n :: rest =>
        match s.freeRecord with
        | none => none
        | some i =>
          some ((s.startOp i (if action = 2 then 4 else 5) x.vsid n (((s.findNs x.vsid n).map (fun y => y.lbaf)).getD 0) rest
            none).adminDone c cid cplSuccess 0)

/-- An admin command executed; none while it must wait at the head of its queue. -/
def State.adminRun (s : State) (i : Instr) : Option State :=
  match i with
  | .getLogPage c cid lid => some (s.doLog c cid lid)
  | .identify c cid cns nsid => some (s.doIdentify c cid cns nsid)
  | .setFeatures c cid fid v save => some (s.doSetFeature c cid fid v save)
  | .getFeatures c cid fid => some (s.doGetFeature c cid fid)
  | .asynchronousEventRequest c cid => some (s.doAer c cid)
  | .nvmeMiSend c cid op p => some (s.doMi c cid op p false)
  | .nvmeMiReceive c cid op p => some (s.doMi c cid op p true)
  | .formatNvm c cid nsid lbaf ses prot => s.doFormat c cid nsid lbaf ses prot
  | .sanitize c cid a => s.doSanitize c cid a
  | .invalidAdminOpcode c cid _ => some (s.adminDone c cid cplInvalidOpcode 0)
  | .propertySet c cid o v => some (s.doPropertySet c cid o v)
  | .propertyGet c cid o => some (s.doPropertyGet c cid o)
  | .authenticationSend k cid msg => some (s.authSend k cid msg)
  | .authenticationReceive k cid => some (s.authReceive k cid)
  | .disconnect c _ cid => some (s.beginReset c (some cid) true)
  | _ => some s

/-- What the SQE of an admin command holds beside controller, CID and opcode, as its INTAKE record carries it (R259). -/
def adminArgs : Instr → List Nat
  | .identify _ _ cns nsid => [cns, nsid]
  | .setFeatures _ _ fid v save => [fid, v, if save then 1 else 0]
  | .getFeatures _ _ fid => [fid]
  | .nvmeMiSend _ _ op p => op :: p.map (fun b => b.toNat)
  | .nvmeMiReceive _ _ op p => op :: p.map (fun b => b.toNat)
  | .formatNvm _ _ nsid lbaf ses prot => [nsid, lbaf, ses, if prot then 1 else 0]
  | .sanitize _ _ a => [a]
  | .propertySet _ _ o v => [0, o, v]
  | .propertyGet _ _ o => [4, o]
  | .authenticationSend _ _ msg => 5 :: msg.nats
  | .authenticationReceive _ _ => [6]
  | .disconnect _ _ _ => [8]
  | _ => []

/-- The admin command of a record, to be executed again (R274). -/
def CmdRecord.instr (r : CmdRecord) : Instr :=
  let a := fun (i : Nat) => r.args.getD i 0
  let p := (r.args.drop 1).map (fun x => (BitVec.ofNat 8 x : Byte))
  let c := r.cntlid
  let cid := r.cid
  if r.adminOpcode = 0x02 then .getLogPage c cid (a 0)
  else if r.adminOpcode = 0x06 then .identify c cid (a 0) (a 1)
  else if r.adminOpcode = 0x09 then .setFeatures c cid (a 0) (a 1) (a 2 = 1)
  else if r.adminOpcode = 0x0A then .getFeatures c cid (a 0)
  else if r.adminOpcode = 0x0C then .asynchronousEventRequest c cid
  else if r.adminOpcode = 0x1D then .nvmeMiSend c cid (a 0) p
  else if r.adminOpcode = 0x1E then .nvmeMiReceive c cid (a 0) p
  else if r.adminOpcode = 0x80 then .formatNvm c cid (a 0) (a 1) (a 2) (a 3 = 1)
  else if r.adminOpcode = 0x84 then .sanitize c cid (a 0)
  else if r.adminOpcode = 0x7F then
    (if a 0 = 0 then .propertySet c cid (a 1) (a 2)
     else if a 0 = 4 then .propertyGet c cid (a 1)
     else if a 0 = 5 then .authenticationSend r.conn cid (authMsgOf (r.args.drop 1))
     else if a 0 = 6 then .authenticationReceive r.conn cid
     else .disconnect c 0 cid)
  else .invalidAdminOpcode c cid r.adminOpcode

/-- A connection that the module ends as a transport error (R42). -/
def State.closeLost (s : State) (id : Nat) : State :=
  match s.findConn id with
  | none => s
  | some k => (match k.transport with | .rdma => s.emit (.cmDisconnect id) | .tcp => s.emit (.rst id)).loseConn id

/-- Commands that hold one of the 32 admin tags of a controller (R50): Asynchronous Event Requests, Aborts and Formats that
have not completed. -/
def State.adminBusy (s : State) (x : Ctrl) : Nat :=
  x.aers.length + x.aborts.length + (s.hce.progress.filter (fun p => p.cmd.any (fun (e : Nat × Nat) => e.1 = x.cntlid))).length

/-- What a controller in reset still takes: after a write of CC.EN its host reads CSTS (R69, R70); where the association ends
with the reset no command completes (R72). -/
def Ctrl.resetTakes (x : Ctrl) : Instr → Bool
  | .propertySet .. => !x.resetEnds
  | .propertyGet .. => !x.resetEnds
  | _ => false

/-- The controller of an admin command takes it from its queue (R51): it runs, or waits behind a command at the head of the
queue, for an admin tag (R50), or while firmware is activated (R433). A capsule into a full queue breaks flow control
(R42). -/
def State.adminSubmit (s : State) (c cid op : Nat) (i : Instr) : State :=
  match s.findCtrl c with
  | none => s
  | some x =>
    if x.resetting && !x.resetTakes i then s
    else if x.adminSize ≤ x.adminWait.length + 1 then ((s.bump Reg.hceProtoerr).closeLost x.conn)
    else
      let s1 := s.intakeAdmin c cid op (adminArgs i)
      let wait := s1.updCtrl c (fun y => { y with adminWait := y.adminWait ++ [some i] })
      if !x.adminWait.isEmpty || s.mbx.activating.isSome || 32 ≤ s.adminBusy x then wait
      else
        match (s1.passAdmin c).adminRun i with
        | some t => t
        | none => wait

/-- The head of an admin queue leaves it, and the entries after it that were taken from the middle (R58). -/
def Ctrl.leaveHead (x : Ctrl) : Ctrl :=
  let l := (x.adminWait.drop 1).dropWhile (fun e => e.isNone)
  { x.advance (x.adminWait.length - l.length) with adminWait := l }

/-- The waiting admin commands of a controller run in order until one must wait again. -/
def State.adminPump (c : Nat) : Nat → State → State
  | 0, s => s
  | n + 1, s =>
    match s.findCtrl c with
    | none => s
    | some x =>
      match x.adminWait with
      | some i :: _ =>
        if 32 ≤ s.adminBusy x then s
        else
          (match (s.updCtrl c Ctrl.leaveHead).adminRun i with
           | some t => State.adminPump c n t
           | none => s)
      | _ => s

/-- The admin queues of every controller go on. -/
def State.adminAll (s : State) : State :=
  s.hce.ctrls.foldl (fun t c => State.adminPump c.cntlid (c.adminWait.length + 1) t) s

/-- A command that runs beside one that is already executing (R51). -/
def State.adminBeside (s : State) (c cid op : Nat) (args : List Nat) (f : State → State) : State :=
  match s.findCtrl c with
  | none => s
  | some x => if x.resetting then s else f (s.takeAdmin c cid op args)

/-- GET_LOG_PAGE (R46, R51). -/
def execGetLogPage (cntlid cid lid : Nat) (s : State) : Host.Outcome State Fault Refusal :=
  .next (s.adminBeside cntlid cid 0x02 [lid] (fun t => t.doLog cntlid cid lid))

/-- IDENTIFY (R44, R49). -/
def execIdentify (cntlid cid cns nsid : Nat) (s : State) : Host.Outcome State Fault Refusal :=
  .next (s.adminSubmit cntlid cid 0x06 (.identify cntlid cid cns nsid))

/-- ABORT (R64 to R68). -/
def execAbort (cntlid acid sqid cid : Nat) (s : State) : Host.Outcome State Fault Refusal :=
  .next (s.adminBeside cntlid acid 0x08 [sqid, cid] (fun t => t.doAbort cntlid acid sqid cid))

/-- SET_FEATURES (R40, R43, R47). -/
def execSetFeatures (cntlid cid fid value : Nat) (save : Bool) (s : State) : Host.Outcome State Fault Refusal :=
  .next (s.adminSubmit cntlid cid 0x09 (.setFeatures cntlid cid fid value save))

/-- GET_FEATURES (R47). -/
def execGetFeatures (cntlid cid fid : Nat) (s : State) : Host.Outcome State Fault Refusal :=
  .next (s.adminSubmit cntlid cid 0x0A (.getFeatures cntlid cid fid))

/-- ASYNCHRONOUS_EVENT_REQUEST (R38, R50, R51). -/
def execAsynchronousEventRequest (cntlid cid : Nat) (s : State) : Host.Outcome State Fault Refusal :=
  .next (s.adminSubmit cntlid cid 0x0C (.asynchronousEventRequest cntlid cid))

/-- KEEP_ALIVE (R43, R51): the timer starts again. -/
def execKeepAlive (cntlid cid : Nat) (s : State) : Host.Outcome State Fault Refusal :=
  .next (s.adminBeside cntlid cid 0x18 [] (fun t =>
    (t.updCtrl cntlid (fun y => { y with
      kaDeadline := if y.kato = 0 then none else some (s.now + katoNs y.kato) })).adminDone cntlid cid cplSuccess 0))

/-- NVME_MI_SEND (R405, R407). -/
def execNvmeMiSend (cntlid cid miOpcode : Nat) (packet : List Byte) (s : State) : Host.Outcome State Fault Refusal :=
  .next (s.adminSubmit cntlid cid 0x1D (.nvmeMiSend cntlid cid miOpcode packet))

/-- NVME_MI_RECEIVE (R405, R407). -/
def execNvmeMiReceive (cntlid cid miOpcode : Nat) (packet : List Byte) (s : State) : Host.Outcome State Fault Refusal :=
  .next (s.adminSubmit cntlid cid 0x1E (.nvmeMiReceive cntlid cid miOpcode packet))

/-- FORMAT_NVM (R100, R102 to R104). -/
def execFormatNvm (cntlid cid nsid lbaf ses : Nat) (protection : Bool) (s : State) : Host.Outcome State Fault Refusal :=
  .next (s.adminSubmit cntlid cid 0x80 (.formatNvm cntlid cid nsid lbaf ses protection))

/-- SANITIZE (R101, R103). -/
def execSanitize (cntlid cid action : Nat) (s : State) : Host.Outcome State Fault Refusal :=
  .next (s.adminSubmit cntlid cid 0x84 (.sanitize cntlid cid action))

/-- PROPERTY_SET (R44, R51, R69, R71). -/
def execPropertySet (cntlid cid offset value : Nat) (s : State) : Host.Outcome State Fault Refusal :=
  .next (s.adminSubmit cntlid cid 0x7F (.propertySet cntlid cid offset value))

/-- PROPERTY_GET (R44, R51). -/
def execPropertyGet (cntlid cid offset : Nat) (s : State) : Host.Outcome State Fault Refusal :=
  .next (s.adminSubmit cntlid cid 0x7F (.propertyGet cntlid cid offset))

/-- The controller whose admin queue a connection carries. -/
def HConn.adminOf (k : HConn) : Option Nat := k.bound.bind (fun b => if b.2 = 0 then some b.1 else none)

/-- AUTHENTICATION_SEND (R35, R51): on a connection that carries an admin queue it takes its turn there. -/
def execAuthenticationSend (conn cid : Nat) (msg : AuthMsg) (s : State) : Host.Outcome State Fault Refusal :=
  match s.findConn conn with
  | none => .next s
  | some k =>
    match k.adminOf with
    | some c => .next (s.adminSubmit c cid 0x7F (.authenticationSend conn cid msg))
    | none => .next (s.authSend conn cid msg)

/-- AUTHENTICATION_RECEIVE (R35, R51). -/
def execAuthenticationReceive (conn cid : Nat) (s : State) : Host.Outcome State Fault Refusal :=
  match s.findConn conn with
  | none => .next s
  | some k =>
    match k.adminOf with
    | some c => .next (s.adminSubmit c cid 0x7F (.authenticationReceive conn cid))
    | none => .next (s.authReceive conn cid)

/-- INVALID_ADMIN_OPCODE (R44). -/
def execInvalidAdminOpcode (cntlid cid opcode : Nat) (s : State) : Host.Outcome State Fault Refusal :=
  .next (s.adminSubmit cntlid cid opcode (.invalidAdminOpcode cntlid cid opcode))

/-- PROGRESS_RECORD_AVAILABLE (R103, R104): the Formats and Sanitizes that wait at the head of admin queues go on. -/
def execProgressRecordAvailable (s : State) : Host.Outcome State Fault Refusal := .next s.adminAll

/-! ## Disconnect (R72) -/

/-- The capsules of a queue that have not been admitted complete with Command Aborted due to SQ Deletion. -/
def State.flushQueue (s : State) (q : SubQ) : State :=
  let cids := q.entries.filterMap (fun e => e.map (fun p => p.2.cid))
  let s1 := s.updSq q.cntlid q.sqid (fun y =>
    { y with entries := [], sqhd := (y.sqhd + y.entries.length) % Nat.max y.size 1 })
  cids.foldl (fun t cid => (t.dropIntake q cid).postCqe q.cntlid q.sqid cid cplSqDeleted 0 0) s1

/-- DISCONNECT (R72): on an I/O queue its commands before their commit point and its waiting capsules complete with
Command Aborted due to SQ Deletion; on the admin queue it is a controller reset. -/
def execDisconnect (cntlid sqid cid : Nat) (s : State) : Host.Outcome State Fault Refusal :=
  match s.findCtrl cntlid with
  | none => .next s
  | some _ =>
    if sqid = 0 then
      .next (s.adminSubmit cntlid cid 0x7F (.disconnect cntlid 0 cid))
    else
      match s.findSq cntlid sqid with
      | none => .next s
      | some q =>
        if q.disc.isSome then .next s
        else
          let s1 := (s.flushQueue q).updSq cntlid sqid (fun y => { y with stopped := true, disc := some cid })
          .next ((s1.tagsOf (fun r => r.cntlid = cntlid && r.sqid = sqid && r.open_)).foldl
            (fun t k => t.squash k cplSqDeleted true) s1)

/-- DISCONNECT_COMPLETE (R55, R72): every completion of the queue has been posted; the Disconnect completes, and the
queue and its RESPONDING tags go. -/
def execDisconnectComplete (cntlid sqid : Nat) (s : State) : Host.Outcome State Fault Refusal :=
  match s.findSq cntlid sqid with
  | none => .next s
  | some q =>
    match q.disc with
    | none => .next s
    | some cid =>
      if s.hce.tags.any (fun r => r.cntlid = cntlid && r.sqid = sqid && r.st ≠ .responding) then .next s
      else .next (((s.postCqe cntlid sqid cid cplSuccess 0 0).endQueue cntlid sqid).dropConn q.conn)

end Sys2Proof.Machine
end

