-- ==== Sys2Proof/Machine/Queues.lean ====
section
/-! DEFINITION. The host family, second part (chapters 02 and 03): capsules, admission, the I/O commands with a tag, and
range locks. -/

namespace Sys2Proof.Machine

/-! ## Capsules (R41, R42, R58, R261) -/

/-- CAPSULE_INTAKE (R42, R58, R259, R261): the capsule enters its queue, and its INTAKE record goes to the peer, which
must hold it before the transport acknowledges. In a freeze nothing new is acknowledged (R299): what is held back then
waits for the thaw. A queue of N entries is full with N − 1 (log 33). A capsule behind a Disconnect completes with Command
Aborted due to SQ Deletion (R72). -/
def execCapsuleIntake (cntlid sqid : Nat) (capsule : Capsule) (s : State) : Host.Outcome State Fault Refusal :=
  match s.findSq cntlid sqid with
  | none => .next s
  | some q =>
    if q.disc.isSome then
      .next ((s.updSq cntlid sqid (fun y => { y with sqhd := (y.sqhd + 1) % Nat.max y.size 1 })).postCqe cntlid sqid capsule.cid
        cplSqDeleted 0 0)
    else if q.size ≤ q.entries.length + 1 then .next ((s.bump Reg.hceProtoerr).closeLost q.conn)
    else
      let s1 := s.updSq cntlid sqid (fun y => { y with entries := y.entries ++ [some (s.now, capsule)] })
      let s2 := s1.mirSend (.cmd
        { kind := .intake, admin := false, writeThrough := false, forwarded := false, cntlid := cntlid, sqid := sqid,
          cid := capsule.cid, tag := 0, conn := q.conn, vmark := 0, vsid := q.vsid, spos := 0, slen := 0,
          capsule := some capsule, cqe := none, adminOpcode := 0 })
      let still := (s.findVs q.vsid).any (fun v => v.st = .freezing || v.st = .frozen)
      let m := if still then some (2 ^ 48) else if s.hce.wtPeerAbs || s.hce.wtMismatch then none else some s2.lastMseq
      .next (s2.updConn q.conn (fun k => { k with held := m }))

/-! ## Admission (R57 to R61) -/

/-- The I/O opcodes of R45. -/
def ioKnown (op : Nat) : Bool := op = 0 || op = 1 || op = 2 || op = 5 || op = 8 || op = 9

/-- Commands that move data between host and module. -/
def ioMoves (op : Nat) : Bool := op = 1 || op = 2 || op = 5

/-- Bytes of a command's data transfer. -/
def Capsule.bytes (c : Capsule) (n : Ns) : Nat := if ioMoves c.opcode then c.nlb * n.lbaBytes else 0

/-- The SGL descriptor that R38 allows on a connection. -/
def sglOk (t : Transport) (c : Capsule) : Bool :=
  !(ioMoves c.opcode || c.opcode = 9) ||
    (match t, c.sgl with
     | .rdma, .keyed => true
     | .tcp, .transport => true
     | _, _ => false)

/-- A range that lies within the namespace. -/
def Ns.holds (n : Ns) (r : Nat × Nat) : Bool := r.1 + r.2 ≤ n.lbas

/-- The status of the first condition of R61, from the second on, that a command meets. -/
def State.ioCheck (s : State) (vsid : Nat) (t : Transport) (c : Capsule) : Option CplStatus :=
  if !ioKnown c.opcode then some cplInvalidOpcode
  else if c.fuse ≠ 0 then some cplInvalidField
  else if !sglOk t c then some cplSglType
  else
    match s.findNs vsid c.nsid with
    | none => some cplInvalidNs
    | some n =>
      if !c.fieldsOk || 2097152 < c.bytes n || (c.opcode = 9 && 256 < c.ranges.length) then some cplInvalidField
      else if s.sanitizeOn vsid then some cplSanitize
      else if s.formatOn vsid c.nsid then some cplFormat
      else if c.opcode ≠ 0 && !c.lbaRanges.all (fun r => n.holds r) then some cplLbaRange
      else if !s.keyLoaded n then some cplAccessDenied
      else none

/-- Blocks that a command needs in the write buffer: every block it writes, and one entry for its deallocation record
(R57, R84). -/
def Capsule.needBlocks (c : Capsule) (n : Ns) : Nat :=
  if c.opcode = 1 || (c.opcode = 8 && !c.deallocate) then (n.touch c.slba c.nlb).2
  else if (c.opcode = 8 || c.opcode = 9) && c.deallocate then
    1 + sumNat (c.lbaRanges.map (fun r => sumNat ((n.splitDealloc r.1 r.2).2.map (fun p =>
      ceilDiv (p.1 + p.2) 8 - p.1 / 8))))
  else 0

/-- Blocks reserved by admitted commands that have not placed their data, of own rings or of the peer's. -/
def State.reservedBlocks (s : State) (own : Bool) : Nat :=
  sumNat ((s.hce.tags.filter (fun r => r.open_ && !r.placed)).map (fun r =>
    match s.findNs r.vsid r.cap.nsid with
    | some n => if s.owns n.ring = own then r.cap.needBlocks n else 0
    | none => 0))

/-- The own region of the write buffer in blocks: 32 GiB (R23). -/
def ownRegion : Nat := 32 * gibBlocks

/-- Condition 3 of R57 (R75, R82, R91). With an effective ceiling of 0 no data can be dirty, every write commits by R78,
and the ceiling does not hold it back (R95; log 36). -/
def State.room (s : State) (n : Ns) (need : Nat) : Bool :=
  if need = 0 then true
  else if s.owns n.ring then
    let r := s.reservedBlocks true
    s.ownBlocks + r + need ≤ ownRegion && (s.hce.effCeil = 0 || s.ownBlocks + r + need ≤ s.hce.effCeil * gibBlocks) &&
      (!s.rfx.out1.isOpen || r + need ≤ s.rfx.peer.room) && (!s.mirror2 || r + need ≤ s.rfx.room2)
  else
    let r := s.reservedBlocks false
    s.mirrorUse + r + need ≤ mirrorBlocks && (s.rfx.peer.ceiling = 0 || s.rfx.peer.dirty + r + need ≤ s.rfx.peer.ceiling)

/-- Bytes that a tag holds in the block buffer: a requester that joined a group has returned them, and the bytes of the
one that opened it are its group's region (R117, R128). -/
def State.bufferOf (s : State) (r : TagRec) : Nat :=
  if r.st = .responding || r.st = .squashing || r.group.isSome then 0
  else ((s.findNs r.vsid r.cap.nsid).map (fun n => r.cap.bytes n)).getD 0

/-- Bytes of a group's region, held until its entry is free (R128). -/
def State.regionOf (s : State) (g : Group) : Nat := ((s.findNs g.vsid g.nsid).map (fun n => g.nlb * n.lbaBytes)).getD 0

/-- The command-data region of the block buffer (R340). -/
def commandData : Nat := 126 * 2 ^ 20

def State.bufferUse (s : State) : Nat := sumNat (s.hce.tags.map s.bufferOf) + sumNat (s.rfu.groups.map s.regionOf)

/-- The tag share of a subsystem, and the tags it holds (R287, R295). -/
def State.shareFree (s : State) (v : Nat) : Bool :=
  (s.hce.tags.filter (fun r => r.vsid = v)).length < ((s.findVs v).map (fun x => x.tagshare)).getD 0

/-- The five conditions of R57, for a command that passes R61. New data-changing commands of a ring in handover are
held (R243). -/
def State.admissible (s : State) (v : Nat) (c : Capsule) (n : Ns) : Bool :=
  let need := c.needBlocks n
  s.hce.tags.length < 262144 && s.shareFree v && s.room n need && s.bufferUse + c.bytes n ≤ commandData &&
    s.hce.rlt.length + (c.lockRanges n).length ≤ 65536 && !n.deleting &&
    !(0 < need && ((s.findRing n.ring).map (fun r => r.held)).getD false)

/-- The lowest FREE tag (log 37). -/
def State.freeTagNum (s : State) : Nat :=
  ((natsFrom 0 (s.hce.tags.length + 1)).find? (fun i => !s.hce.tags.any (fun r => r.tag = i))).getD 0

/-- A new tag record (R52, R74, R79). -/
def State.newTag (s : State) (q : SubQ) (c : Capsule) (at_ : Nat) : TagRec :=
  { tag := s.freeTagNum, cntlid := q.cntlid, sqid := q.sqid, cid := c.cid, cidMapped := true, st := .admitted, vsid := q.vsid,
    cap := c, seq := s.hce.seq + 1, wt := s.wtOn || c.fua || (s.cfg Reg.hceWbctl 9 8 = 2 && !s.mirror2), post := true,
    result := none, respMseq := none, readMseq := none, fetching := false, dataIn := false, hostData := [], placed := false,
    dataMseq := 0, dataMseq2 := 0, intents := false, group := none, vmark := 0, rcvAt := at_, blocks := [], bases := [] }

/-- The head of a queue leaves it (R58). -/
def State.leaveHead (s : State) (q : SubQ) : State :=
  s.updSq q.cntlid q.sqid (fun y =>
    ({ y with entries := y.entries.drop 1, sqhd := (y.sqhd + 1) % Nat.max y.size 1 }).pass)

/-- A tag is granted: its record, its ADMITTED record for the peer, the peak (R52, R57, R259). -/
def State.grantTag (s : State) (r : TagRec) : State :=
  let s1 := (s.updHce (fun x => { x with tags := x.tags ++ [r], seq := r.seq })).updTk (fun k => { k with healthBad := false })
  let s2 := s1.sendRec r .admitted none
  let s3 := s2.updTag r.tag (fun x => { x with dataMseq := s2.lastMseq })
  let n := s3.hce.tags.length
  let s4 := if (s3.reg Reg.hceTagpeak).toNat < n then s3.putReg Reg.hceTagpeak (BitVec.ofNat 32 n) else s3
  s4.hostEvent 0x01 r.vsid (opClass r.cap.opcode) 1

/-- A write admitted while its subsystem is copied or caught up marks the regions it touches (R304). -/
def State.markRegions (s : State) (r : TagRec) (n : Ns) : State :=
  if r.cap.exclusive then
    s.markMig r.vsid ((r.cap.lockRanges n).flatMap (fun p =>
      (natsFrom (p.1 / 16384) ((p.1 + p.2 - 1) / 16384 + 1 - p.1 / 16384)).map (fun x => (n.nsid, x))))
  else s

/-- The lock requests of an admitted command, and their grant where nothing blocks them (R83, R86). -/
def State.takeLocks (s : State) (r : TagRec) (n : Ns) : State :=
  let ls := (r.cap.lockRanges n).map (fun p => (⟨r.tag, r.vsid, r.cap.nsid, p.1, p.1 + p.2 - 1, r.cap.exclusive, false⟩ : RangeLock))
  let s1 := (s.updHce (fun x => { x with rlt := x.rlt ++ ls })).tryLock r.tag
  let waiting := (s1.hce.rlt.filter (fun e => e.tag = r.tag && !e.granted)).length
  (s1.bumpBy Reg.hceRlwait waiting).hostEvent 0x07 r.vsid none waiting

/-- Commands whose commit point is their admission (R53): Flush, and Dataset Management without Deallocate. -/
def Capsule.commitsAtOnce (c : Capsule) : Bool := c.opcode = 0 || (c.opcode = 9 && !c.deallocate)

/-- One visit of admission to the head of a queue (R56 to R61). A command that fails a check of R61 takes a tag and goes
straight to SQUASHING (R52; log 39). -/
def State.visit (s : State) (q : SubQ) : State :=
  match q.entries with
  | some (t, c) :: _ =>
    let v := q.vsid
    let tr := ((s.findConn q.conn).map (fun k => k.transport)).getD .tcp
    if s.hce.tags.any (fun r => r.cntlid = q.cntlid && r.sqid = q.sqid && r.cidMapped && r.cid = c.cid) then
      let s1 := ((s.leaveHead q).dropIntake q c.cid).postCqe q.cntlid q.sqid c.cid cplCidConflict 0 0
      s1.countCpl v c.opcode cplCidConflict t
    else
      match s.ioCheck v tr c with
      | some st =>
        if s.hce.tags.length < 262144 && s.shareFree v then
          let r := s.newTag q c t
          ((s.leaveHead q).grantTag r).failTag r.tag st
        else s.hostEvent 0x04 v (opClass c.opcode) 1
      | none =>
        match s.findNs v c.nsid with
        | none => s
        | some n =>
          if !s.admissible v c n then s.hostEvent 0x04 v (opClass c.opcode) 1
          else
            let r := s.newTag q c t
            let s1 := (s.leaveHead q).grantTag r
            if c.commitsAtOnce then s1.updTag r.tag (fun x => { x with st := .committed }) else (s1.markRegions r n).takeLocks r n
  | _ => s

/-- Admission may visit a queue: its controller runs, its subsystem is ACTIVE, nothing has stopped it (R42, R69, R71,
R72, R96, R290). -/
def State.visitable (s : State) (q : SubQ) : Bool :=
  !s.hce.halted && !s.tk.fenced && !q.stopped && q.disc.isNone && !q.entries.isEmpty &&
    (match s.findCtrl q.cntlid with
     | some c => c.ccEn && !c.resetting && c.shn = 0
     | none => false) &&
    (match s.findVs q.vsid with
     | some v => v.st = .active
     | none => false)

/-- The next queue of a subsystem in round robin that admission may visit, with its place (R59). -/
def State.pickQueue (s : State) (vsid : Nat) : Option (Nat × SubQ) :=
  let qs := s.hce.sqs.filter (fun q => q.vsid = vsid)
  let at_ := ((s.hce.rr.find? (fun e => e.1 = vsid)).map (fun e => e.2)).getD 0
  let can := ((natsFrom 0 qs.length).zip qs).filter (fun e => s.visitable e.2)
  match can.find? (fun e => at_ ≤ e.1) with
  | some e => some e
  | none => can.head?

/-- Visits of the running weighted round that a subsystem has had. -/
def State.visits (s : State) (v : Nat) : Nat := ((s.hce.wrr.find? (fun e => e.1 = v)).map (fun e => e.2)).getD 0

/-- The subsystem has visits left in the round: its weight is its share (R59, R287). -/
def State.visitsLeft (s : State) (v : Nat) : Bool := s.visits v < Nat.max 1 (((s.findVs v).map (fun x => x.tagshare)).getD 0)

/-- Whether admission may visit a subsystem: it has visits left in the weighted round, or no subsystem with a queue to visit
has, and a new round begins (R59). -/
def State.turnOf (s : State) (v : Nat) : Option State :=
  if s.visitsLeft v then some s
  else if s.vsm.subs.any (fun x => s.visitsLeft x.vsid && (s.pickQueue x.vsid).isSome) then none
  else some (s.updHce (fun x => { x with wrr := [] }))

/-- ADMISSION (R57 to R59): one visit to the next queue of a subsystem in round robin; across subsystems the visits of a
round follow their weights, and one out of turn lapses (log 40). -/
def execAdmission (vsid : Nat) (s : State) : Host.Outcome State Fault Refusal :=
  match s.pickQueue vsid with
  | none => .next s
  | some (i, q) =>
    match s.turnOf vsid with
    | none => .next s
    | some t =>
      .next ((t.updHce (fun x => { x with
        rr := x.rr.filter (fun e => e.1 ≠ vsid) ++ [(vsid, i + 1)]
        wrr := x.wrr.filter (fun e => e.1 ≠ vsid) ++ [(vsid, t.visits vsid + 1)] })).visit q)

/-- INVALID_IO_OPCODE (R45, R61): the command at the head of a queue, whose opcode is not of R45. -/
def execInvalidIoOpcode (cntlid sqid : Nat) (s : State) : Host.Outcome State Fault Refusal :=
  match s.findSq cntlid sqid with
  | none => .next s
  | some q =>
    match q.entries with
    | some (_, c) :: _ => if s.visitable q && !ioKnown c.opcode then .next (s.visit q) else .next s
    | _ => .next s

/-! ## Execution (R52, R53, R84, R87, R89) -/

/-- The R2T PDUs that ask for `n` bytes from `offset` on, MAXH2CDATA to each (R33). The 2 MiB of R38 take 16, so a command
never has more than the 16 that R33 allows outstanding (log 66). -/
def State.sendR2ts (s : State) (r : TagRec) : Nat → Nat → Nat → State
  | 0, _, _ => s
  | fuel + 1, offset, n =>
    if n = 0 then s
    else
      let k := Nat.min n 131072
      State.sendR2ts (s.emit (.r2t r.cntlid r.sqid r.cid offset k)) r fuel (offset + k) (n - k)

/-- The first engine request of a tag that fetches host data: RDMA READ, or R2T PDUs (R32, R33). -/
def State.startFetchData (s : State) (r : TagRec) : State :=
  let s1 := s.updTag r.tag (fun x => { x with st := .executing, fetching := true })
  match s.transportOf r.cntlid r.sqid with
  | .rdma => s1.emit (.fetch r.cntlid r.sqid r.cid)
  | .tcp => s1.sendR2ts r 16 0 (((s.findNs r.vsid r.cap.nsid).map (fun n => r.cap.bytes n)).getD 0)

/-- A row for a tag in a state with an opcode; otherwise it lapses. -/
def State.onTag (s : State) (tag op : Nat) (st : TagSt) (f : TagRec → State) : State :=
  match s.findTag tag with
  | some r => if r.cap.opcode = op && r.st = st then f r else s
  | none => s

/-- FLUSH (R48, R53): committed at admission, it completes with Success. -/
def execFlush (tag : Nat) (s : State) : Host.Outcome State Fault Refusal :=
  .next (s.onTag tag 0 .committed (fun r => if r.result.isSome then s else s.respond tag cplSuccess))

/-- WRITE (R32, R33, R52): the fetch of the host's data begins. -/
def execWrite (tag : Nat) (s : State) : Host.Outcome State Fault Refusal :=
  .next (s.onTag tag 1 .admitted (fun r => s.startFetchData r))

/-- A Read or Compare whose range holds a lost block fails (R204); else its blocks are gathered. -/
def State.gatherOrFail (s : State) (r : TagRec) : State :=
  match s.findNs r.vsid r.cap.nsid with
  | none => s
  | some n =>
    let (b0, cnt) := n.touch r.cap.slba r.cap.nlb
    if (natsFrom b0 cnt).any (fun b => s.lostTouched r.vsid r.cap.nsid b) then s.failTag r.tag cplUnrecRead
    else s.gatherRead r n

/-- READ (R25, R87, R89): with its lock granted, and outside a group, its data is gathered. -/
def execRead (tag : Nat) (s : State) : Host.Outcome State Fault Refusal :=
  .next (s.onTag tag 2 .admitted (fun r => if s.locked tag && r.group.isNone then s.gatherOrFail r else s))

/-- COMPARE (R53, R87): the host's data is fetched, and once its lock is granted its blocks are gathered. -/
def execCompare (tag : Nat) (s : State) : Host.Outcome State Fault Refusal :=
  match s.findTag tag with
  | none => .next s
  | some r =>
    if r.cap.opcode ≠ 5 || !r.open_ then .next s
    else
      let s1 := if r.st = .admitted then s.startFetchData r else s
      if s1.locked tag && r.blocks.isEmpty && !s1.rge.gathers.any (fun g => g.owner = .tag tag) then
        (match s1.findTag tag with
         | some x => .next (s1.gatherOrFail x)
         | none => .next s1)
      else .next s1

/-- A command without host data that changes data: its first engine request, and its data as soon as its locks allow. -/
def State.startChange (s : State) (tag op : Nat) : State :=
  s.onTag tag op .admitted (fun _ => (s.updTag tag (fun x => { x with st := .executing })).placeWrite tag)

/-- WRITE_ZEROES (R45, R84). -/
def execWriteZeroes (tag : Nat) (s : State) : Host.Outcome State Fault Refusal := .next (s.startChange tag 8)

/-- DATASET_MANAGEMENT (R45, R53, R84): without the Deallocate attribute it changes nothing and completes. -/
def execDatasetManagement (tag : Nat) (s : State) : Host.Outcome State Fault Refusal :=
  match s.findTag tag with
  | none => .next s
  | some r =>
    if r.cap.opcode ≠ 9 then .next s
    else if r.cap.deallocate then .next (s.startChange tag 9)
    else if r.st = .committed && r.result.isNone then .next (s.respond tag cplSuccess)
    else .next s

/-- HOST_DATA_RECEIVED (R61, R87): the data of a write or compare is in the block buffer, or its transfer has failed. The
data of a squashed command is dropped. -/
def execHostDataReceived (tag : Nat) (ok : Bool) (sectors : List Sector) (s : State) : Host.Outcome State Fault Refusal :=
  match s.findTag tag with
  | none => .next s
  | some r =>
    if !r.fetching then .next s
    else
      let s1 := s.updTag tag (fun x => { x with fetching := false })
      let want := match s.findNs r.vsid r.cap.nsid with
        | some n => (n.sectors r.cap.slba r.cap.nlb).2
        | none => 0
      if !r.open_ then .next s1
      else if !ok || sectors.length ≠ want then .next (s1.failTag tag cplTransferError)
      else
        let s2 := s1.updTag tag (fun x => { x with dataIn := true, hostData := sectors })
        if r.cap.opcode = 1 then .next (s2.placeWrite tag) else .next s2

/-- COMMIT_POINT (R53, R65, R78, R125): a command whose conditions hold commits. -/
def execCommitPoint (tag : Nat) (s : State) : Host.Outcome State Fault Refusal :=
  match s.findTag tag with
  | none => .next s
  | some r =>
    match s.findNs r.vsid r.cap.nsid with
    | none => .next s
    | some n =>
      if r.st ≠ .executing then .next s
      else if r.cap.opcode = 2 || r.cap.opcode = 5 then
        match r.group with
        | some g => .next (s.deliver g)
        | none => if r.gathered && (r.cap.opcode = 2 || r.dataIn) then .next ((s.commitRead r n).settle tag) else .next s
      else if s.writeCommits r then .next ((s.commitWrite r).settle tag)
      else .next s

/-! ## Responses (R54, R55, R66, R67, R260) -/

/-- The response of a tag whose RESPONDING record the peer holds is handed to the host port. -/
def State.tryHandOff (s : State) (tag : Nat) : State :=
  match s.findTag tag with
  | none => s
  | some r =>
    match r.result, r.respMseq with
    | some st, some m =>
      if (r.st = .committed || r.st = .squashing) && r.post && !s.engineBusy r && s.peerHolds m then s.handOff r st else s
    | _, _ => s

/-- RESPONSE_HANDOFF (R52, R54, R260). -/
def execResponseHandoff (tag : Nat) (s : State) : Host.Outcome State Fault Refusal := .next (s.tryHandOff tag)

/-- RESPONSE_ACKNOWLEDGED (R55): the transport has acknowledged the response capsule. -/
def execResponseAcknowledged (tag : Nat) (s : State) : Host.Outcome State Fault Refusal :=
  match s.findTag tag with
  | some r => if r.st = .responding then .next (s.freeTag tag) else .next s
  | none => .next s

/-- SQUASH_COMPLETE (R52, R67): no engine holds work for the tag: it is free, or its completion becomes due. -/
def execSquashComplete (tag : Nat) (s : State) : Host.Outcome State Fault Refusal :=
  match s.findTag tag with
  | none => .next s
  | some r =>
    if r.st ≠ .squashing || s.engineBusy r then .next s
    else if !r.post then .next ((s.freeTag tag).finishAborts r.cntlid tag)
    else if r.respMseq.isSome then .next (s.tryHandOff tag)
    else .next ((s.respond tag (r.result.getD cplAborted)).tryHandOff tag)

/-- RANGE_LOCK_GRANT (R86, R88): a waiting request that nothing earlier blocks any more. -/
def execRangeLockGrant (tag : Nat) (s : State) : Host.Outcome State Fault Refusal := .next (s.tryLock tag)

/-! ## Tag query (R52) -/

/-- The code of a tag state. -/
def TagSt.code : TagSt → Nat
  | .admitted => 1
  | .executing => 2
  | .committed => 3
  | .responding => 4
  | .squashing => 5

/-- A write of HCE.TAGQRY latches TAGINFO and TAGSQ. -/
def State.tagqryWrite (s : State) (w : Word) : State :=
  let t := fieldOf w 17 0
  let (a, b) := match s.findTag t with
    | none => (0, 0)
    | some r =>
      let cid := if r.st = .responding || (r.st = .squashing && !r.post) then 0 else r.cid
      (place r.st.code 29 ||| place r.vsid 20 ||| place (cid % 65536) 0, place (r.cntlid % 65536) 16 ||| place (r.sqid % 256) 0)
  (s.putReg Reg.hceTagqry (w &&& regKept Reg.hceTagqry)).updHce (fun x => { x with tagInfo := a, tagSq := b })

/-- TAGQRY_WRITE. -/
def execTagqryWrite (w : Word) (s : State) : Host.Outcome State Fault Refusal := .next (s.tagqryWrite w)

end Sys2Proof.Machine
end

