-- ==== Sys2Proof/Machine/Fanout.lean ====
section
/-! DEFINITION. The read fan-out unit's own events (chapter 04): the end of the coalescing window, the arrival of a
group's data, residue that moves to unicast, and the release of a group's region. -/

namespace Sys2Proof.Machine

/-- COALESCING_WINDOW_EXPIRY (R113, R114): the window is over; the group closes, and delivery begins where only the window
held it. -/
def execCoalescingWindowExpiry (group : Nat) (s : State) : Host.Outcome State Fault Refusal :=
  match s.findGroup group with
  | none => .next s
  | some g => if due g.windowEnd s.now then .next (s.closeGroup group false) else .next s

/-- GROUP_DATA_READY (R114, R118, R119): the group's data is in the block buffer. -/
def execGroupDataReady (group : Nat) (s : State) : Host.Outcome State Fault Refusal := .next (s.groupReady group)

/-- The first byte of a read that its copies, not yet started, still carry. -/
def firstByte (cs : List Copy) : Nat := ((cs.map (fun c => c.off)).min?).getD 0

/-- Whether the read cache holds every block of a group's range from byte `off` of it on. -/
def State.tailCached (s : State) (g : Group) (ns : Ns) (off : Nat) : Bool :=
  let (s0, cnt) := ns.sectors g.slba g.nlb
  let b := (s0 + off / 512) / 8
  (natsFrom b (ceilDiv (s0 + cnt) 8 - b)).all (fun x => (s.cached g.vsid g.nsid x).isSome)

/-- RESIDUE_TIMEOUT (R127, R345): a requester whose copies still wait leaves the multicast; its remaining bytes, from the first
that was not delivered, go to it by unicast. -/
def execResidueTimeout (group tag : Nat) (s : State) : Host.Outcome State Fault Refusal :=
  match s.findGroup group with
  | none => .next s
  | some g =>
    match g.reqs.find? (fun q => q.tag = tag), g.releasedAt, s.findNs g.vsid g.nsid, s.findTag tag with
    | some q, some t, some n, some r =>
      let cs := s.copiesOf tag
      if q.unicast || q.moved || q.done || r.st ≠ .committed || cs.isEmpty || s.now < t + us g.residue then .next s
      else
        let off := firstByte cs
        let bytes := 512 * (n.sectors g.slba g.nlb).2 - off
        let s1 := ((s.dropCopies tag).bumpBy Reg.xbrMcwdraw cs.length).bump Reg.rfuResid
        let cached := s.tailCached g n off
        let mv := fun (y : Requester) => { y with moved := true, unicast := true, fromCache := cached }
        let s2 := s1.updGroup group (fun x => { x with reqs := updWhere (fun y => y.tag = tag) mv x.reqs })
        .next (s2.dataFrames r 9 off bytes)
    | _, _, _, _ => .next s

/-- The region still has a copy, or a unicast that reads from it, to serve (R128). -/
def State.regionBusy (s : State) (g : Group) : Bool :=
  g.reqs.any (fun q => !q.fromCache && !(s.copiesOf q.tag).isEmpty)

/-- GROUP_REGION_RELEASE (R112, R128, R129): every copy and unicast from the region is sent; the entry is free. A group that
closed without requesters frees it with its data. -/
def execGroupRegionRelease (group : Nat) (s : State) : Host.Outcome State Fault Refusal :=
  match s.findGroup group with
  | none => .next s
  | some g =>
    let ended := !g.isOpen && (g.releasedAt.isSome || (g.reqs.isEmpty && g.dataReady))
    if ended && !s.regionBusy g then
      .next { s with rfu := { s.rfu with groups := s.rfu.groups.filter (fun x => x.id ≠ group) } }
    else .next s

end Sys2Proof.Machine
end

