-- ==== Sys2Proof/Machine/Subsystems.lean ====
section
/-! DEFINITION. The virtual subsystem manager (chapter 09): configuration commands (R282 to R296), reset (R297), freeze and
thaw (R299, R300). -/

namespace Sys2Proof.Machine

def State.updVsm (s : State) (f : VsmSt → VsmSt) : State := { s with vsm := f s.vsm }

/-! ## The subsystem record (R285, R286) -/

/-- The grants of a record: tags, queue pairs, controllers, namespaces, host entries. -/
structure Grants where
  tags : Nat
  qpairs : Nat
  cntls : Nat
  nsmax : Nat
  hostmax : Nat
  deriving DecidableEq, Repr

/-- A field of which 0 selects the default. -/
def orDefault (v d : Nat) : Nat := if v = 0 then d else v

/-- The grants in bytes 0x004 to 0x00F of a record. -/
def grantsOf (p : List Byte) : Grants :=
  ⟨orDefault (leAt p 4 4) 512, orDefault (leAt p 8 2) 32, orDefault (leAt p 10 2) 8, orDefault (leAt p 12 2) 16,
    orDefault (leAt p 14 2) 16⟩

/-- The ranges of R285. -/
def Grants.inRange (g : Grants) : Bool :=
  16 ≤ g.tags && g.tags ≤ 262144 && g.qpairs ≤ 16384 && g.cntls ≤ 4096 && g.nsmax ≤ 8192 && g.hostmax ≤ 1024

/-- What the subsystems other than `v` are granted of each pool. -/
def State.granted (s : State) (v : Nat) : Grants :=
  let l := s.vsm.subs.filter (fun x => x.vsid ≠ v)
  ⟨sumNat (l.map (fun x => x.tagshare)), sumNat (l.map (fun x => x.qpairs)), sumNat (l.map (fun x => x.cntls)),
    sumNat (l.map (fun x => x.nsmax)), sumNat (l.map (fun x => x.hostmax))⟩

/-- A pool would be exceeded (R285). -/
def State.overPool (s : State) (v : Nat) (g : Grants) : Bool :=
  let o := s.granted v
  262144 < o.tags + g.tags || 16384 < o.qpairs + g.qpairs || 4096 < o.cntls + g.cntls || 8192 < o.nsmax + g.nsmax ||
    8192 < o.hostmax + g.hostmax

/-- The 288 bytes of a subsystem's record. -/
def Vs.record (v : Vs) : List Byte :=
  leBytes 2 v.vsid ++ leBytes 1 v.flags ++ leBytes 1 v.ports ++ leBytes 4 v.tagshare ++ leBytes 2 v.qpairs ++
    leBytes 2 v.cntls ++ leBytes 2 v.nsmax ++ leBytes 2 v.hostmax ++ leBytes 2 v.svcid ++ zeroBytes 14 ++ padTo 256 v.subnqn

/-- State codes of R290; 0 is NONE. -/
def VsState.code : VsState → Nat
  | .active => 1
  | .resetting => 2
  | .freezing => 3
  | .frozen => 4
  | .target => 5
  | .moved => 6

/-- The state of a VSID. -/
def State.vsState (s : State) (v : Nat) : Option VsState := (s.findVs v).map (fun x => x.st)

/-- Associations of a subsystem exist. -/
def State.hasAssoc (s : State) (v : Nat) : Bool := s.hce.ctrls.any (fun c => c.vsid = v)

/-! ## Configuration commands (R283, R288, R626): checks and effect, here and on the peer -/

/-- What a configuration command answers: its effect and result, or the status of its first failing check. -/
abbrev Plan := Except Nat (State × List Byte)

/-- The first failing check, or the effect. -/
def planned (checks : List (Bool × Nat)) (e : State × List Byte) : Plan :=
  match firstFail checks with
  | some st => .error st
  | none => .ok e

/-- VS_CREATE. -/
def State.planVsCreate (s : State) (p : List Byte) : Plan :=
  let v := leAt p 0 2
  let flags := byteAt p 2
  let g := grantsOf p
  let nqn := stripZeros (slice p 0x20 256)
  let x : Vs :=
    { vsid := v, flags := flags, ports := byteAt p 3, tagshare := g.tags, qpairs := g.qpairs, cntls := g.cntls,
      nsmax := g.nsmax, hostmax := g.hostmax, svcid := orDefault (leAt p 0x10 2) 4420, subnqn := nqn,
      st := if flags / 16 % 2 = 1 then .target else .active, hosts := [], portals := [], quiesceEnd := none, frzEnd := none,
      waiter := none, restore := [], image := [], byMigration := false, frzLen := 0, restored := false, ackDue := none }
  planned
    [(511 < v || 31 < flags || 15 < byteAt p 3 || !g.inRange || (slice p 0x12 14).any (fun b => b ≠ 0) || nqn.isEmpty ||
        s.vsm.subs.any (fun y => y.subnqn = nqn), stInvalidParam),
     (flags / 4 % 2 = 1 && !Config.hasCipher s.part, stAbsent), ((s.findVs v).isSome, stConflict),
     (s.overPool v g, stLimit)]
    ((s.updVsm (fun m => { m with subs := m.subs ++ [x] })).zeroVsRec v, [])

/-- Associations and connections of a MOVED subsystem go without a frame to any host (R307). -/
def State.forgetHosts (s : State) (v : Nat) : State :=
  let s1 := (s.tagsOf (fun r => r.vsid = v)).foldl State.windTag s
  let ids := (s1.hce.conns.filter (fun k => k.vsid = v)).map (fun k => k.id)
  (ids.foldl State.dropConn s1).updHce (fun x =>
    let cs := x.ctrls.filter (fun c => c.vsid ≠ v)
    { x with
      ctrls := cs, sqs := x.sqs.filter (fun q => q.vsid ≠ v)
      hostIdx := x.hostIdx.filter (fun e => cs.any (fun c => c.hostNqn = e.2)) })

/-- VS_DELETE. -/
def State.planVsDelete (s : State) (p : List Byte) : Plan :=
  let v := leAt p 0 2
  let st := s.vsState v
  planned
    [(511 < v, stInvalidParam),
     (st.isNone || s.vsm.nss.any (fun n => n.vsid = v) || (st = some .active && s.hasAssoc v) ||
        (st ≠ some .active && st ≠ some .moved), stConflict)]
    (((s.forgetHosts v).updVsm (fun m => { m with subs := m.subs.filter (fun x => x.vsid ≠ v) })).zeroVsRec v, [])

/-- VS_MODIFY (R294 to R296). -/
def State.planVsModify (s : State) (p : List Byte) : Plan :=
  let v := leAt p 0 2
  let g := grantsOf p
  planned [(511 < v || !g.inRange, stInvalidParam), ((s.findVs v).isNone, stConflict), (s.overPool v g, stLimit)]
    (s.updVs v (fun x => { x with
      tagshare := g.tags, qpairs := g.qpairs, cntls := g.cntls, nsmax := g.nsmax, hostmax := g.hostmax }), [])

/-- Every association of a host in a subsystem ends, as by a controller reset (R69, R289). -/
def State.endHost (s : State) (v : Nat) (h : Nqn) : State :=
  (s.hce.ctrls.filter (fun c => c.vsid = v && c.hostNqn = h)).foldl (fun t c => t.beginReset c.cntlid none true) s

/-- VS_HOSTS (R289). -/
def State.planVsHosts (s : State) (p : List Byte) : Plan :=
  let v := leAt p 0 2
  let op := byteAt p 2
  let h := stripZeros (slice p 4 256)
  let hosts := ((s.findVs v).map (fun x => x.hosts)).getD []
  let known := hosts.any (fun y => y = h)
  let used := sumNat (s.vsm.subs.map (fun x => x.hosts.length))
  planned
    [(511 < v || (op ≠ 1 && op ≠ 2) || h.isEmpty || (op = 2 && !known), stInvalidParam), ((s.findVs v).isNone, stConflict),
     (op = 1 && !known && (((s.findVs v).map (fun x => x.hostmax)).getD 0 ≤ hosts.length || 8192 ≤ used), stLimit)]
    (if op = 1 then (if known then s else s.updVs v (fun x => { x with hosts := x.hosts ++ [h] }), [])
     else ((s.updVs v (fun x => { x with hosts := x.hosts.filter (fun y => y ≠ h) })).endHost v h, []))

/-- A portal goes; every connection that uses its address is closed (R289). -/
def State.dropPortal (s : State) (v index : Nat) (keep : Option (BitVec 128)) : State :=
  match (s.findVs v).bind (fun x => x.portals.find? (fun q => q.index = index)) with
  | none => s
  | some q =>
    let s1 := s.updVs v (fun x => { x with portals := x.portals.filter (fun y => y.index ≠ index) })
    if keep = some q.addr then s1
    else (s1.hce.conns.filter (fun k => k.vsid = v && k.addr = q.addr)).foldl (fun t k => t.closeLost k.id) s1

/-- VS_PORTAL (R289). ADDR is taken as one number of 128 bits, its first byte the most significant. An INDEX that holds another
address takes the new one, and the connections of the old one are closed (log 75). -/
def State.planVsPortal (s : State) (p : List Byte) : Plan :=
  let v := leAt p 0 2
  let ix := byteAt p 2
  let port := byteAt p 3
  let af := byteAt p 4
  let pfx := byteAt p 5
  let addr := BitVec.ofNat 128 (beAt p 8 16)
  let clash := s.vsm.subs.any (fun x => x.portals.any (fun q => q.addr = addr && !(x.vsid = v && q.index = ix)))
  let held := ((s.findVs v).map (fun x => x.portals)).getD []
  planned
    [(511 < v || 7 < ix || (3 < port && port ≠ 0xFF) ||
        (port ≠ 0xFF && ((af ≠ 4 && af ≠ 6) || (if af = 4 then 32 else 128) < pfx)) ||
        (port = 0xFF && !held.any (fun q => q.index = ix)), stInvalidParam),
     (port ≠ 0xFF && Config.hostPorts s.part ≤ port, stAbsent),
     ((s.findVs v).isNone || (port ≠ 0xFF && clash), stConflict)]
    (if port = 0xFF then (s.dropPortal v ix none, [])
     else ((s.dropPortal v ix (some addr)).updVs v (fun x =>
        { x with portals := x.portals ++ [(⟨ix, port, af, pfx, addr⟩ : Portal)] }), []))

/-- Regions of a ring that hold 16,384 blocks each (R150, R291). -/
def Ring.fullRegions (r : Ring) : Nat := r.stripes * r.k / 1024

/-- The lowest free run of `n` regions of a ring (R291). -/
def State.fitRun (s : State) (r : Ring) (n : Nat) : Option Nat :=
  let used := s.vsm.nss.filter (fun x => x.ring = r.num)
  let ends := (0 :: used.map (fun x => x.first + x.regions)).filter (fun f =>
    f + n ≤ r.fullRegions && !used.any (fun x => x.first < f + n && f < x.first + x.regions))
  leastBy (fun x => x) ends

/-- NS_CREATE (R291, R292); the peer applies it without the ownership check. -/
def State.planNsCreate (s : State) (p : List Byte) (peer : Bool) : Plan :=
  let v := leAt p 0 2
  let ring := byteAt p 2
  let nsid := leAt p 4 4
  let regions := leAt p 8 4
  let slot := leAt p 12 2
  let g := s.findRing ring
  let fit := g.bind (fun r => s.fitRun r regions)
  let nsmax := ((s.findVs v).map (fun x => x.nsmax)).getD 0
  let n : Ns :=
    { vsid := v, nsid := nsid, ring := ring, first := fit.getD 0, regions := regions, lbaf := byteAt p 3, keySlot := slot,
      deleting := false, waiter := none }
  planned
    [(slot ≠ 0xFFFF && !Config.hasCipher s.part, stAbsent),
     (1 < byteAt p 3 || nsid = 0 || 65535 < nsid || (s.findNs v nsid).isSome || regions = 0 || 7 < ring || 511 < v,
        stInvalidParam),
     (g.isNone, stConflict), (!peer && !s.owns ring, stNotOwner),
     (g.any (fun r => r.initRunning) || s.vsState v ≠ some .active, stConflict),
     (nsmax ≤ (s.vsm.nss.filter (fun x => x.vsid = v)).length || 8192 ≤ s.vsm.nss.length || fit.isNone, stLimit)]
    ((s.updVsm (fun m => { m with nss := m.nss ++ [n] })).notice v nsid true, leBytes 4 (fit.getD 0))

/-- NS_DELETE up to its wait (R293, R307): admission to the namespace stops. -/
def State.planNsDelete (s : State) (p : List Byte) : Plan :=
  let v := leAt p 0 2
  let nsid := leAt p 4 4
  let st := s.vsState v
  planned
    [(511 < v || (match s.findNs v nsid with | some n => n.deleting | none => true), stInvalidParam),
     (s.formatOn v nsid || s.sanitizeOn v || (st ≠ some .active && st ≠ some .moved), stConflict)]
    (s.updNs v nsid (fun n => { n with deleting := true }), [])

/-- The plan of a configuration opcode (R283). -/
def State.plan (s : State) (op : Nat) (p : List Byte) (peer : Bool) : Plan :=
  if op = 0x0501 then s.planVsCreate p
  else if op = 0x0502 then s.planVsDelete p
  else if op = 0x0503 then s.planVsModify p
  else if op = 0x0504 then s.planVsHosts p
  else if op = 0x0505 then s.planVsPortal p
  else if op = 0x0506 then s.planNsCreate p peer
  else s.planNsDelete p

/-- The store's generation rises at every change (R282). -/
def State.storeChanged (s : State) : State := s.updVsm (fun m => { m with gen := (m.gen + 1) % 2 ^ 64 })

/-- What undoes a change of configuration made in state `old` (R283). -/
def State.configRec (old : State) (m : Master) (op : Nat) (p res : List Byte) : PropRec :=
  let v := leAt p 0 2
  { m := m, opcode := op, params := p, vsid := v, subs := old.vsm.subs.filter (fun x => x.vsid = v),
    nss := old.vsm.nss.filter (fun n => n.vsid = v), slot := 0, keys := [], result := res }

/-- A configuration command that changes the store goes to the peer (R283). -/
def State.sendConfig (s : State) (m : Master) (old : State) (op : Nat) (p res : List Byte) : State :=
  s.storeChanged.propagate m (old.configRec m op p res)

/-- A change goes to the peer while its command also waits for something here. -/
def State.askPeer (s : State) (m : Master) (old : State) (op : Nat) (p res : List Byte) : State :=
  if s.rfx.peer.absent || s.rfx.peer.mismatch then s
  else
    let s1 := { s with props := s.props ++ [old.configRec m op p res] }
    if s.paired then s1.sendProp op p else s1

/-- A configuration command of a master. -/
def State.configure (s : State) (m : Master) (op : Nat) : State :=
  s.runCmd m op (fun c s =>
    match s.plan op c.params false with
    | .error st => s.finish m st []
    | .ok (t, res) => t.sendConfig m s op c.params res)

/-- VS_CREATE (R285, R286, R288). -/
def execVsCreate (m : Master) (s : State) : Host.Outcome State Fault Refusal := .next (s.configure m 0x0501)

/-- VS_DELETE (R288, R307). -/
def execVsDelete (m : Master) (s : State) : Host.Outcome State Fault Refusal := .next (s.configure m 0x0502)

/-- VS_MODIFY (R294 to R296). -/
def execVsModify (m : Master) (s : State) : Host.Outcome State Fault Refusal := .next (s.configure m 0x0503)

/-- An NQN that the list already holds is added: OK, and nothing changes (R288). -/
def State.hostKnown (s : State) (p : List Byte) : Bool :=
  byteAt p 2 = 1 && ((s.findVs (leAt p 0 2)).any (fun x => x.hosts.any (fun y => y = stripZeros (slice p 4 256))))

/-- VS_HOSTS (R289). -/
def execVsHosts (m : Master) (s : State) : Host.Outcome State Fault Refusal :=
  match s.cmdOf m with
  | none => .next s
  | some c =>
    if s.hostKnown c.params && leAt c.params 0 2 ≤ 511 then .next (s.runCmd m 0x0504 (fun _ s => s.finish m stOk []))
    else .next (s.configure m 0x0504)

/-- VS_PORTAL (R289). -/
def execVsPortal (m : Master) (s : State) : Host.Outcome State Fault Refusal := .next (s.configure m 0x0505)

/-- NS_CREATE (R291, R292). -/
def execNsCreate (m : Master) (s : State) : Host.Outcome State Fault Refusal := .next (s.configure m 0x0506)

/-- NS_DELETE (R293): the namespace closes here and, by the propagation, on the peer. The command waits for
NS_DELETE_COMPLETE and for the peer. -/
def execNsDelete (m : Master) (s : State) : Host.Outcome State Fault Refusal :=
  .next (s.runCmd m 0x0507 (fun c s =>
    match s.planNsDelete c.params with
    | .error st => s.finish m st []
    | .ok (t, _) =>
      ((t.updNs (leAt c.params 0 2) (leAt c.params 4 4) (fun n => { n with waiter := some m })).keepRunning m).askPeer m s
        0x0507 c.params []))

/-- NS_DELETE_COMPLETE (R205, R291, R293): with nothing of the namespace admitted its entries are discarded; with none of its
stripe writes in flight the ringmaster begins to deallocate its regions; once that is done, they become free, its lost extents leave the table, and
NS_DELETE completes when the peer has applied it. -/
def execNsDeleteComplete (vsid nsid : Nat) (s : State) : Host.Outcome State Fault Refusal :=
  match s.findNs vsid nsid with
  | none => .next s
  | some n =>
    if !n.deleting || s.nsBusy vsid nsid then .next s
    else if !n.zeroing then
      let s0 := s.discardNs vsid nsid
      if s0.nsInFlight vsid nsid then .next s0
      else
        let s1 := s0.updNs vsid nsid (fun x => { x with zeroing := true })
        .next (if s.owns n.ring then s1.putZeroes (deleteTag vsid nsid) vsid nsid 0 n.blocks else s1)
    else if !s.zeroesDone (deleteTag vsid nsid) then .next s
    else
      let s1 := s.clearNsLost vsid nsid
      let s2 := s1.updVsm (fun m => { m with nss := m.nss.filter (fun x => !(x.vsid = vsid && x.nsid = nsid)) })
      let s3 := (s2.notice vsid nsid true).storeChanged
      match n.waiter with
      | none => .next (s3.replyPeer stOk)
      | some m => .next (if s3.props.any (fun p => p.m = m && p.opcode = 0x0507) then s3 else s3.finish m stOk [])

/-! ## Reset (R297, R298) -/

/-- A freeze ends without its command's success. -/
def State.endFreeze (s : State) (v : Nat) : State :=
  match s.findVs v with
  | none => s
  | some x =>
    let s1 := match x.waiter with
      | some w => s.finish w stBusy []
      | none => s
    (s1.updVs v (fun y => { y with waiter := none })).thaw v

/-- VS_RESET (R297, R298, R306): admission stops, committed commands are carried through and the others squashed, all
without completions; a freeze and a migration end. -/
def execVsReset (m : Master) (s : State) : Host.Outcome State Fault Refusal :=
  .next (s.runCmd m 0x0508 (fun c s =>
    let v := leAt c.params 0 2
    let st := s.vsState v
    s.checked m
      [(511 < v, stInvalidParam), (st.isNone || st = some .target || st = some .moved, stConflict),
       (st = some .resetting || s.tk.phase = .fencing || s.tk.phase = .hold || s.tk.phase = .resuming, stBusy)]
      (fun s =>
        let s1 := s.abortMigration v
        let s2 := if st = some .freezing || st = some .frozen then s1.endFreeze v else s1
        let s3 := s2.updVs v (fun x => { x with st := .resetting, waiter := some m, image := [] })
        ((s3.tagsOf (fun r => r.vsid = v)).foldl State.windTag s3).keepRunning m)))

/-- VS_RESET_DRAINED (R297): no tag of the subsystem remains; every association ends, connections are closed, the state
returns to ACTIVE and the command completes. -/
def execVsResetDrained (vsid : Nat) (s : State) : Host.Outcome State Fault Refusal :=
  match s.findVs vsid with
  | none => .next s
  | some x =>
    if x.st ≠ .resetting || s.hce.tags.any (fun r => r.vsid = vsid) then .next s
    else
      let s1 := (s.hce.ctrls.filter (fun c => c.vsid = vsid)).foldl (fun t c => t.endAssoc c.cntlid) s
      let s2 := (s1.hce.conns.filter (fun k => k.vsid = vsid)).foldl (fun t k => t.closeConn k.id) s1
      let s3 := s2.updHce (fun h => { h with sqs := h.sqs.filter (fun q => q.vsid ≠ vsid) })
      let s4 := s3.updVs vsid (fun y => { y with st := .active, waiter := none })
      .next (match x.waiter with
        | some m => s4.finish m stOk []
        | none => s4)

/-! ## Freeze and thaw (R299, R300) -/

/-- A freeze begins (R299, R308). -/
def State.startFreeze (s : State) (v : Nat) (waiter : Option Master) (byMig : Bool) : State :=
  s.updVs v (fun x => { x with
    st := .freezing, quiesceEnd := some (s.now + ms (s.cfg Reg.vsmFrzcfg 6 0)), frzLen := s.cfg Reg.vsmFrzcfg 25 16,
    waiter := waiter, byMigration := byMig })

/-- VS_FREEZE (R299). -/
def execVsFreeze (m : Master) (s : State) : Host.Outcome State Fault Refusal :=
  .next (s.runCmd m 0x0509 (fun c s =>
    let v := leAt c.params 0 2
    s.checked m [(511 < v, stInvalidParam), (s.vsState v ≠ some .active, stConflict)]
      (fun s => (s.startFreeze v (some m) false).keepRunning m)))

/-- FREEZE_QUIESCED (R299, R300): no tag is outside FREE; Keep Alive timers stop and the command completes. -/
def execFreezeQuiesced (vsid : Nat) (s : State) : Host.Outcome State Fault Refusal :=
  match s.findVs vsid with
  | none => .next s
  | some x =>
    if x.st ≠ .freezing || s.hce.tags.any (fun r => r.vsid = vsid) then .next s
    else
      let s1 := s.updVs vsid (fun y => { y with
        st := .frozen, quiesceEnd := none, frzEnd := some (s.now + ms y.frzLen), waiter := none })
      let s2 := s1.updHce (fun h => { h with ctrls := updWhere (fun c => c.vsid = vsid) (fun c => { c with kaDeadline := none }) h.ctrls })
      .next (match x.waiter with
        | some m => s2.finish m stOk []
        | none => s2)

/-- QUIESCE_TIMEOUT (R299, R304): admission resumes and the command completes with BUSY; a migration aborts. -/
def execQuiesceTimeout (vsid : Nat) (s : State) : Host.Outcome State Fault Refusal :=
  match s.findVs vsid with
  | none => .next s
  | some x =>
    if x.st = .freezing && due x.quiesceEnd s.now then .next ((s.abortMigration vsid).endFreeze vsid) else .next s

/-- MAXFRZ_EXPIRY (R300, R304): the subsystem thaws by itself and FRZEXP sets; a migration aborts. -/
def execMaxfrzExpiry (vsid : Nat) (s : State) : Host.Outcome State Fault Refusal :=
  match s.findVs vsid with
  | none => .next s
  | some x =>
    if x.st = .frozen && due x.frzEnd s.now then
      .next (((s.abortMigration vsid).thaw vsid).raiseFlag Reg.vsmCfgstat 1)
    else .next s

/-- VS_THAW (R300, R302). -/
def execVsThaw (m : Master) (s : State) : Host.Outcome State Fault Refusal :=
  .next (s.runCmd m 0x050A (fun c s =>
    let v := leAt c.params 0 2
    s.checked m [(511 < v, stInvalidParam), (s.vsState v ≠ some .frozen, stConflict)]
      (fun s => (s.thaw v).finish m stOk [])))

/-! ## Queries (R288, R290) -/

/-- The answer of VS_QUERY. -/
def State.vsQuery (s : State) (v : Nat) : List Byte :=
  match s.findVs v with
  | none => zeroBytes 304
  | some x =>
    x.record ++ leBytes 1 x.st.code ++ zeroBytes 3 ++ leBytes 4 (s.hce.tags.filter (fun r => r.vsid = v)).length ++
      leBytes 2 (s.qpUsed (some v)) ++ leBytes 2 (s.ctrlsOf v).length ++
      leBytes 2 (s.vsm.nss.filter (fun n => n.vsid = v)).length ++ leBytes 2 x.hosts.length

/-- VS_QUERY (R288, R626). -/
def execVsQuery (m : Master) (s : State) : Host.Outcome State Fault Refusal :=
  .next (s.runCmd m 0x050E (fun c s =>
    let v := leAt c.params 0 2
    s.checked m [(511 < v, stInvalidParam)] (fun s => s.finish m stOk (s.vsQuery v))))

/-- A write of VSM.VSQRY latches VSINFO and VSSHARE (R290). -/
def State.vsqryWrite (s : State) (w : Word) : State :=
  let v := fieldOf w 8 0
  let st := ((s.vsState v).map VsState.code).getD 0
  let s1 := s.putReg Reg.vsmVsqry (place v 0)
  s1.updVsm (fun m => { m with
    vsInfo := place st 28 ||| place (s.hce.tags.filter (fun r => r.vsid = v)).length 0
    vsShare := place (((s.findVs v).map (fun x => x.tagshare)).getD 0) 0 })

/-- VSQRY_WRITE (R290). -/
def execVsqryWrite (w : Word) (s : State) : Host.Outcome State Fault Refusal := .next (s.vsqryWrite w)

end Sys2Proof.Machine
end

