-- ==== Sys2Proof/Machine/Migration.lean ====
section
/-! DEFINITION. State images and migration of virtual subsystems (R301 to R307). -/

namespace Sys2Proof.Machine

/-! ## The state image (R301). The layout inside the 256-byte records is the model's (log 41). -/

/-- The 64 bytes of a queued command, as far as the model keeps it. A Dataset Management carries the number of its ranges;
they are host data. -/
def Capsule.sqe (c : Capsule) : List Byte :=
  let sgl := match c.sgl with | .keyed => 0x40 | .transport => 0x5A | .other => 0
  let dw12 := (if c.opcode = 9 then 0 else (c.nlb + 65535) % 65536) + (if c.fua then 2 ^ 30 else 0) +
    (if c.deallocate then 2 ^ 25 else 0)
  leBytes 1 c.opcode ++ leBytes 1 (c.fuse % 4 + (if c.fieldsOk then 0 else 4)) ++ leBytes 2 c.cid ++ leBytes 4 c.nsid ++
    zeroBytes 31 ++ leBytes 1 sgl ++ leBytes 8 (if c.opcode = 9 then c.ranges.length else c.slba) ++ leBytes 4 dw12 ++
    zeroBytes 12

/-- A command from its 64 bytes. The ranges of a Dataset Management, fetched again from the host, are free values (log
4), taken from number `k` on. -/
def capsuleOf (k : Nat) (b : List Byte) : Capsule :=
  let op := byteAt b 0
  let n := if op = 9 then leAt b 40 8 % 257 else 0
  { opcode := op, cid := leAt b 2 2, nsid := leAt b 4 4, slba := if op = 9 then 0 else leAt b 40 8,
    nlb := if op = 9 then 0 else leAt b 48 2 + 1, fua := leAt b 48 4 / 2 ^ 30 % 2 = 1, fuse := byteAt b 1 % 4,
    deallocate := leAt b 48 4 / 2 ^ 25 % 2 = 1,
    ranges := (natsFrom 0 n).map (fun i => (Config.freeNat (k + 2 * i), Config.freeNat (k + 2 * i + 1))),
    sgl := if byteAt b 39 = 0x40 then .keyed else if byteAt b 39 = 0x5A then .transport else .other,
    fieldsOk := byteAt b 1 / 4 % 2 = 0 }

/-- An INTAKE record (R259) of a queued capsule. -/
def intakeBytes (q : SubQ) (c : Capsule) : List Byte :=
  [1, 0] ++ leBytes 2 q.cntlid ++ leBytes 2 q.sqid ++ leBytes 2 c.cid ++ zeroBytes 4 ++ leBytes 4 q.conn ++ zeroBytes 6 ++
    leBytes 2 q.vsid ++ zeroBytes 24 ++ c.sqe

/-- An entry of the portal section. -/
def Portal.bytes (p : Portal) : List Byte :=
  leBytes 1 p.index ++ leBytes 1 p.port ++ leBytes 1 p.af ++ leBytes 1 p.pfx ++ zeroBytes 4 ++ beBytes 16 p.addr.toNat ++
    zeroBytes 8

/-- The eight portal entries of a subsystem. -/
def Vs.portalBytes (v : Vs) : List Byte :=
  (natsFrom 0 8).flatMap (fun i =>
    match v.portals.find? (fun p => p.index = i) with
    | some p => p.bytes
    | none => leBytes 1 i ++ [0xFF] ++ zeroBytes 30)

/-- A namespace entry: the key wrapped under the transfer key (R388, R390), zeroes without one. -/
def State.nsEntry (s : State) (n : Ns) : List Byte :=
  let key := match s.findKey n.keySlot with
    | some k => padTo 80 (Config.wrapKey Config.transferKey k.typ k.gen k.material)
    | none => zeroBytes 80
  leBytes 4 n.nsid ++ leBytes 1 n.lbaf ++ zeroBytes 3 ++ leBytes 4 n.regions ++ zeroBytes 4 ++ key

/-- An association record. -/
def Ctrl.assocBytes (c : Ctrl) : List Byte :=
  padTo 32 (leBytes 2 c.cntlid ++ leBytes 4 c.cc ++ leBytes 1 ((if c.rdy then 1 else 0) + 4 * c.shst) ++
    leBytes 1 ((if c.ccEn then 1 else 0) + (if c.discovery then 2 else 0)) ++ leBytes 2 c.granted ++ leBytes 4 c.kato ++
    leBytes 2 c.adminSize ++ leBytes 2 c.adminSqhd ++ leBytes 4 c.featArb ++ leBytes 2 c.featTemp ++ leBytes 4 c.featAer ++
    leBytes 4 c.conn) ++ padTo 224 c.hostNqn

/-- What the establishment of a connection settled, in 64 bytes. -/
def ConnPath.bytes (p : ConnPath) : List Byte :=
  leBytes 6 p.lmac ++ leBytes 6 p.rmac ++ leBytes 16 p.rip ++ leBytes 2 p.vlan ++ leBytes 3 p.lnum ++ leBytes 3 p.rnum ++
    leBytes 4 p.sndWnd ++ leBytes 4 p.rcvWnd ++ leBytes 1 p.wscale ++ leBytes 1 p.sack ++ leBytes 4 p.tsOff ++
    leBytes 4 p.tsRecent ++ leBytes 3 p.msn ++ leBytes 2 p.credits ++ leBytes 1 p.retries ++ leBytes 4 p.retryTime

/-- The same read back. -/
def pathOf (b : List Byte) : ConnPath :=
  { lmac := leAt b 0 6, rmac := leAt b 6 6, rip := leAt b 12 16, vlan := leAt b 28 2, lnum := leAt b 30 3, rnum := leAt b 33 3,
    sndWnd := leAt b 36 4, rcvWnd := leAt b 40 4, wscale := byteAt b 44, sack := byteAt b 45, tsOff := leAt b 46 4,
    tsRecent := leAt b 50 4, msn := leAt b 54 3, credits := leAt b 57 2, retries := byteAt b 59, retryTime := leAt b 60 4 }

/-- A connection record. -/
def State.connBytes (s : State) (k : HConn) : List Byte :=
  let (c, q) := k.bound.getD (0xFFFF, 0)
  let ctx := s.kvt.tls.find? (fun t => t.conn = k.id)
  let bits := (if k.hdgst then 1 else 0) + (if k.ddgst then 2 else 0) + (if k.icDone then 4 else 0) +
    (if k.tls then 8 else 0) + (match k.transport with | .rdma => 16 | .tcp => 0) + (if k.ece then 32 else 0) +
    (if k.cwr then 64 else 0) + (if k.cutAt.isSome then 128 else 0)
  padTo 176 (leBytes 4 k.id ++ leBytes 1 k.port ++ leBytes 1 bits ++ leBytes 2 c ++ leBytes 2 q ++
    leBytes 2 (((s.findSq c q).map (fun x => x.size)).getD 0) ++ leBytes 2 (((s.findSq c q).map (fun x => x.sqhd)).getD 0) ++
    leBytes 1 k.tc ++ leBytes 1 k.dscp ++ beBytes 16 k.addr.toNat ++ leBytes 4 k.unit ++ leBytes 4 k.rcvNext ++
    leBytes 4 k.sndUna ++ leBytes 4 k.sndNext ++ leBytes 8 ((ctx.map (fun t => t.txCount)).getD 0) ++
    leBytes 8 ((ctx.map (fun t => t.rxCount)).getD 0) ++ leBytes 4 ((ctx.map (fun t => t.psk)).getD 0) ++ k.path.bytes ++
    leBytes 4 k.cwnd ++ leBytes 4 (k.cutAt.getD 0) ++ leBytes 4 k.pduLeft ++ leBytes 1 k.pduBuf.length ++ padTo 7 k.pduBuf) ++
    (match ctx with | some t => padTo 80 (Config.wrapKeys Config.transferKey t.txKey t.rxKey) | none => zeroBytes 80)

/-- The image of a frozen subsystem. -/
def State.imageOf (s : State) (v : Vs) : List Byte :=
  let nss := s.vsm.nss.filter (fun n => n.vsid = v.vsid)
  let cs := s.hce.ctrls.filter (fun c => c.vsid = v.vsid && !c.discovery)
  let ks := s.hce.conns.filter (fun k => k.vsid = v.vsid && k.bound.isSome)
  let qs := (s.hce.sqs.filter (fun q => q.vsid = v.vsid)).flatMap (fun q => q.entries.filterMap (fun e =>
    e.map (fun x => intakeBytes q x.2)))
  let body := v.record ++ v.hosts.flatMap (padTo 256) ++ v.portalBytes ++ nss.flatMap s.nsEntry ++
    cs.flatMap Ctrl.assocBytes ++ ks.flatMap s.connBytes ++ qs.flatten
  let len := 64 + body.length + 4
  let head := padTo 60 (leBytes 4 0x4B565653 ++ [1, 0, 0, 0] ++ leBytes 8 s.vsm.gen ++ leBytes 8 s.uid ++ leBytes 4 len ++
    leBytes 4 nss.length ++ leBytes 4 cs.length ++ leBytes 4 ks.length ++ leBytes 4 qs.length ++ leBytes 4 v.hosts.length)
  let all := head ++ leBytes 4 (crc32c head).toNat ++ body
  all ++ leBytes 4 (crc32c all).toNat

/-- VS_SAVE (R301, R302): a piece of the frozen subsystem's image from OFFSET. -/
def execVsSave (m : Master) (s : State) : Host.Outcome State Fault Refusal :=
  .next (s.runCmd m 0x050B (fun c s =>
    let v := leAt c.params 0 2
    let img := ((s.findVs v).map s.imageOf).getD []
    s.checked m
      [(511 < v, stInvalidParam), (s.vsState v ≠ some .frozen, stConflict), (64 * 2 ^ 20 < img.length, stLimit)]
      (fun s =>
        (s.updVs v (fun x => { x with image := img })).finish m stOk
          (slice img (leAt c.params 4 4) (if c.dmar then c.dlen else 4096)))))

/-! ## Restoring an image (R302) -/

/-- Entry `i` of a section of `n`-byte entries that starts at `o`. -/
def section_ (img : List Byte) (o n count : Nat) : List (List Byte) := (natsFrom 0 count).map (fun i => slice img (o + n * i) n)

/-- The CRCs of header and trailer hold. -/
def imageOk (img : List Byte) : Bool :=
  let n := leAt img 0x18 4
  n = img.length && 68 ≤ n && leAt img 60 4 = (crc32c (img.take 60)).toNat &&
    leAt img (n - 4) 4 = (crc32c (img.take (n - 4))).toNat

/-- An association of an image. -/
def ctrlOf (vsid : Nat) (b : List Byte) : Ctrl :=
  { cntlid := leAt b 0 2, vsid := vsid, hostNqn := stripZeros (slice b 32 224), discovery := byteAt b 7 / 2 % 2 = 1,
    conn := leAt b 28 4, adminSize := leAt b 14 2, adminSqhd := leAt b 16 2, ccEn := byteAt b 7 % 2 = 1,
    rdy := byteAt b 6 % 2 = 1, cc := leAt b 2 4, shn := 0, shst := byteAt b 6 / 4, resetting := false, resetDisc := none,
    resetEnds := false, kato := leAt b 10 4, kaDeadline := none, granted := leAt b 8 2, featArb := leAt b 18 4,
    featTemp := leAt b 22 2, featAer := leAt b 24 4, featHostId := 0, aers := [], aborts := [], errLog := [], changed := [],
    events := [], adminWait := [] }

/-- A connection of an image. -/
def connOfBytes (vsid : Nat) (b : List Byte) : HConn :=
  let bits := byteAt b 5
  { id := leAt b 0 4, port := byteAt b 4, addr := BitVec.ofNat 128 (beAt b 16 16),
    transport := if bits / 16 % 2 = 1 then .rdma else .tcp, vsid := vsid, unit := leAt b 32 4, hdgst := bits % 2 = 1,
    ddgst := bits / 2 % 2 = 1, icDone := bits / 4 % 2 = 1, tls := bits / 8 % 2 = 1,
    bound := some (leAt b 6 2, leAt b 8 2), auth := .idle, held := none, rcvNext := leAt b 36 4, sndUna := leAt b 40 4,
    sndNext := leAt b 44 4, tc := byteAt b 14, dscp := byteAt b 15, path := pathOf (slice b 68 64), cwnd := leAt b 132 4,
    ece := bits / 32 % 2 = 1, cwr := bits / 64 % 2 = 1, cutAt := if bits / 128 % 2 = 1 then some (leAt b 136 4) else none,
    pduLeft := leAt b 140 4, pduBuf := slice b 145 (byteAt b 144) }

/-- The queue that a connection of an image carries. -/
def queueOf (vsid : Nat) (b : List Byte) : SubQ :=
  ⟨leAt b 6 2, leAt b 8 2, leAt b 10 2, leAt b 12 2, [], leAt b 0 4, vsid, false, none⟩

/-- The TLS context of a connection of an image: its keys unwrapped under the transfer key. -/
def tlsOf (b : List Byte) : TlsCtx :=
  let keys := Config.unwrapKeys Config.transferKey (slice b 176 80)
  ⟨leAt b 0 4, leAt b 64 4, keys.1, keys.2, leAt b 48 8, leAt b 56 8, none⟩

/-- A portal of an image. -/
def portalOf (b : List Byte) : Portal := ⟨byteAt b 0, byteAt b 1, byteAt b 2, byteAt b 3, BitVec.ofNat 128 (beAt b 8 16)⟩

/-- The index of a host that comes with an image. -/
def State.addHost (s : State) (h : Nqn) : State :=
  match s.hostIndex h with
  | some i => s.updHce (fun x => { x with hostIdx := if x.hostIdx.any (fun e => e.1 = i) then x.hostIdx else x.hostIdx ++ [(i, h)] })
  | none => s

/-- A verified image is applied to a subsystem in TARGET, which enters FROZEN (R302). Data came in plaintext and is stored
under the target's own keys, so the wrapped namespace keys replace none (log 41). -/
def State.applyImage (s : State) (v : Nat) (img : List Byte) : State :=
  let nns := leAt img 0x1C 4
  let na := leAt img 0x20 4
  let nc := leAt img 0x24 4
  let nq := leAt img 0x28 4
  let nh := leAt img 0x2C 4
  let rec_ := slice img 64 288
  let oh := 352
  let op := oh + 256 * nh
  let oa := op + 256 + 96 * nns
  let oc := oa + 256 * na
  let oq := oc + 256 * nc
  let hosts := (section_ img oh 256 nh).map stripZeros
  let ports := ((section_ img op 32 8).map portalOf).filter (fun p => p.port ≠ 0xFF)
  let cs := (section_ img oa 256 na).map (ctrlOf v)
  let kb := section_ img oc 256 nc
  let qs := (kb.map (queueOf v)).filter (fun q => q.sqid ≠ 0)
  let es := section_ img oq 112 nq
  let put := fun (l : List SubQ) (b : List Byte) =>
    updWhere (fun (q : SubQ) => q.cntlid = leAt b 2 2 && q.sqid = leAt b 4 2)
      (fun q => { q with entries := q.entries ++ [some (s.now, capsuleOf s.freeCtr (slice b 48 64))] }) l
  let s1 := s.updVs v (fun x => { x with
    flags := byteAt rec_ 2 % 16, ports := byteAt rec_ 3, svcid := leAt rec_ 0x10 2, subnqn := stripZeros (slice rec_ 0x20 256),
    hosts := hosts, portals := ports, st := .frozen, restore := [], restored := true,
    frzEnd := some (s.now + ms (s.cfg Reg.vsmFrzcfg 25 16)) })
  let s2 := s1.updHce (fun h => { h with
    ctrls := h.ctrls ++ cs.filter (fun c => (s.findCtrl c.cntlid).isNone)
    conns := h.conns ++ (kb.map (connOfBytes v)).filter (fun k => (s.findConn k.id).isNone)
    sqs := h.sqs ++ es.foldl put qs })
  let s3 := s2.updKvt (fun k => { k with tls := k.tls ++ (kb.filter (fun b => byteAt b 5 / 8 % 2 = 1)).map tlsOf })
  let s4 := (cs.map (fun c => c.hostNqn)).foldl State.addHost { s3 with freeCtr := s3.freeCtr + 512 }
  kb.foldl (fun t b => t.sendXport (leAt b 0 4)) s4

/-- A piece of an image at OFFSET; whether it was the last one, and what the image then gives. A piece that does not follow on the
one before replaces what lies beyond its OFFSET, and a gap before it counts as zeroes (log 77). -/
def State.takePiece (s : State) (v offset : Nat) (bs : List Byte) : State × Option (List Byte) :=
  match s.findVs v with
  | none => (s, none)
  | some x =>
    let img := padTo offset x.restore ++ bs
    if 0x1C ≤ img.length && leAt img 0x18 4 ≤ img.length then (s.updVs v (fun y => { y with restore := [] }), some img)
    else (s.updVs v (fun y => { y with restore := img }), none)

/-- VS_RESTORE (R302): pieces at ascending OFFSET; the last one checks the CRCs and applies the image. -/
def execVsRestore (m : Master) (s : State) : Host.Outcome State Fault Refusal :=
  .next (s.runCmd m 0x050C (fun c s =>
    let v := leAt c.params 0 2
    s.checked m [(511 < v, stInvalidParam), (s.vsState v ≠ some .target, stConflict)]
      (fun s =>
        match s.takePiece v (leAt c.params 4 4) (c.params.drop 8) with
        | (t, none) => t.finish m stOk []
        | (t, some img) => if imageOk img then (t.applyImage v img).finish m stOk [] else t.finish m stCrc [])))

/-! ## Migration (R303 to R306) -/

/-- What the other source module is told of a migration, at its start and at its CUTOVER (R304; log 80): its operands and
whether CUTOVER begins. -/
def Migration.told (g : Migration) (cut : Bool) : List Byte :=
  leBytes 2 g.vsid ++ leBytes 2 g.tvsid ++ leBytes 1 g.tfidA ++ leBytes 1 g.tfidB ++ [if cut then 1 else 0, 0]

/-- VS_MIGRATE (R303): the migration starts with COPY. The command completes then, as VS_RESET, which waits for it under
R421, is to find the migration running (R306; log 42). Of a subsystem that migrates already the new migration replaces the
running one (log 73). -/
def execVsMigrate (m : Master) (s : State) : Host.Outcome State Fault Refusal :=
  .next (s.runCmd m 0x050D (fun c s =>
    let v := leAt c.params 0 2
    let nss := s.vsm.nss.filter (fun n => n.vsid = v)
    s.checked m
      [(511 < v || 511 < leAt c.params 2 2, stInvalidParam), (nss.any (fun n => !s.owns n.ring), stNotOwner),
       (s.vsState v ≠ some .active || (s.findVs v).any (fun x => x.portals.isEmpty) || !s.paired, stConflict)]
      (fun s =>
        let g : Migration :=
          { vsid := v, tvsid := leAt c.params 2 2, tfidA := byteAt c.params 4, tfidB := byteAt c.params 5, master := m,
            phase := .copy, passes := 0, maxPasses := s.cfg Reg.vsmMigcfg 19 16, cutover := s.cfg Reg.vsmMigcfg 12 0,
            seq := 0, marked := [], sending := [], lead := true }
        ((s.updVsm (fun x => { x with migs := x.migs.filter (fun y => y.vsid ≠ v) ++ [g] })).sendProp 0x050D
          (g.told false)).finish m stOk [])))

def State.updMig (s : State) (v : Nat) (f : Migration → Migration) : State :=
  s.updVsm (fun m => { m with migs := updWhere (fun g => g.vsid = v) f m.migs })

/-- CUTOVER begins: the subsystem freezes, and what is marked remains to be sent (R304). -/
def State.startCutover (s : State) (g : Migration) : State :=
  (s.updMig g.vsid (fun x => { x with phase := .cutover, sending := x.marked, marked := [] })).startFreeze g.vsid none true

/-- What follows a pass: a further pass over the marked regions, or CUTOVER, which freezes the subsystem on both source modules
(R304). -/
def State.nextPass (s : State) (g : Migration) : State :=
  if 64 * g.marked.length < g.cutover || g.maxPasses ≤ g.passes then
    let t := s.startCutover g
    if t.paired then t.sendProp 0x050D (g.told true) else t
  else
    s.updMig g.vsid (fun x => { x with phase := .catchUp, passes := x.passes + 1, sending := x.marked, marked := [] })

/-- The entries that a phase sends (R304, R305): the blocks that its reads returned, in plaintext, each with the newest version
where the write buffer or the cache holds one; in COPY of every region, after it of the regions sent again. -/
def State.phaseBlocks (s : State) (g : Migration) (bs : List (Nat × Nat × Block)) : List MirBlock :=
  bs.filterMap (fun e =>
    match s.findNs g.vsid e.1 with
    | none => none
    | some n =>
      if n.blocks ≤ e.2.1 || !(g.phase = .copy || g.sending.any (fun x => x = (e.1, e.2.1 / 16384))) then none
      else
        let ver := ((s.newest g.vsid e.1 e.2.1).map (fun x => x.1)).getD 0
        some ⟨g.tvsid, e.1, if n.lbaf = 1 then 8 * e.2.1 else e.2.1, ver, n.ring, false, 0xFF,
          (s.nearBlock n e.2.1).getD e.2.2, []⟩)

/-- The block frames of a phase go to TFIDA, two entries to a frame, SEQ rising by 1 (R304, R305). -/
def State.sendPhase (s : State) (g : Migration) (bs : List (Nat × Nat × Block)) : State :=
  let fs := pairUp (s.phaseBlocks g bs)
  let sealed_ := bs.filter (fun e => ((s.findNs g.vsid e.1).map (fun (n : Ns) => n.keySlot != 0xFFFF)).getD false)
  (((natsFrom 1 fs.length).zip fs).foldl (fun t e => t.sendMigrate g.tfidA g.tvsid (g.seq + e.1) (.blocks e.2))
    (s.laneWork (256 * sealed_.length) 1)).updMig g.vsid
    (fun x => { x with seq := g.seq + fs.length })

/-- Frames of an image piece by piece (R305 KIND 0x02). -/
def imageFrames (img : List Byte) : Nat → Nat → List (Nat × List Byte)
  | 0, _ => []
  | f + 1, o => if img.length ≤ o then [] else (o, slice img o 8192) :: imageFrames img f (o + 8192)

/-- The image of this source module goes to the target module in its slot (R303, R304). -/
def State.sendImage (s : State) (g : Migration) (v : Vs) : State :=
  let fs := imageFrames (s.imageOf v) ((s.imageOf v).length + 1) 0
  let dst := if s.slot = .a then g.tfidA else g.tfidB
  (((natsFrom 1 fs.length).zip fs).foldl (fun t e => t.sendMigrate dst g.tvsid (g.seq + e.1) (.image e.2.1 e.2.2)) s).updMig
    g.vsid (fun x => { x with phase := .restore, sending := [], seq := g.seq + fs.length })

/-- MIGRATION_PHASE_END (R304, R306): the phase's frames are sent and acknowledged, or the migration fails. `done` says
which, and what the phase's reads returned: namespace, block and data (log 42). -/
def execMigrationPhaseEnd (vsid : Nat) (done : PhaseReads) (s : State) :
    Host.Outcome State Fault Refusal :=
  match s.vsm.migs.find? (fun g => g.vsid = vsid) with
  | none => .next s
  | some g =>
    if !done.ok then .next (s.abortMigration vsid)
    else
      match g.phase with
      | .copy => .next (if g.lead then (s.sendPhase g done.blocks).nextPass g else s)
      | .catchUp => .next ((s.sendPhase g done.blocks).nextPass g)
      | .cutover =>
        (match s.findVs vsid with
         | none => .next s
         | some v =>
           if v.st ≠ .frozen then .next s
           else
             let s1 := if g.lead then s.sendPhase g done.blocks else s
             let h := (s1.vsm.migs.find? (fun x => x.vsid = vsid)).getD g
             .next (s1.sendImage h v))
      | .restore => .next s

/-- The other source module tells of a migration (R304; log 80): its start, or its CUTOVER, at which the subsystem freezes here
too; one that cannot freeze aborts the migration. -/
def State.joinMigration (s : State) (p : List Byte) : State :=
  let v := leAt p 0 2
  let g : Migration :=
    { vsid := v, tvsid := leAt p 2 2, tfidA := byteAt p 4, tfidB := byteAt p 5, master := .peer, phase := .copy, passes := 0,
      maxPasses := 0, cutover := 0, seq := 0, marked := [], sending := [], lead := false }
  let t := s.updVsm (fun x => { x with migs := x.migs.filter (fun y => y.vsid ≠ v) ++ [g] })
  if byteAt p 6 = 0 then t
  else if t.vsState v = some .active then t.startCutover g
  else t.abortMigration v

/-- Blocks of a migration are written as host writes: a new version in the own region, or forwarded (R22, R304). -/
def State.takeBlocks (s : State) (v : Nat) (es : List MirBlock) : State :=
  let ver := s.hce.seq + 1
  let known := es.filter (fun e => (s.findNs v e.nsid).isSome)
  let mk := fun (e : MirBlock) =>
    let n := (s.findNs v e.nsid).getD ⟨v, e.nsid, 0, 0, 0, 0, 0xFFFF, false, none, false⟩
    (⟨v, e.nsid, n.blkOf e.lba, ver, n.ring, e.data, 0xFF, !s.owns n.ring, false, s.wtOn, false, false, s.now, 0, true⟩ : WbEntry)
  let ws := known.map mk
  let ms := fun (own : Bool) => (ws.filter (fun w => w.mirror = !own)).map (fun w =>
    (⟨w.vsid, w.nsid, w.blk, w.ver, w.ring, w.wt, w.smask, w.data, []⟩ : MirBlock))
  if ws.isEmpty then s
  else
    let s1 := (s.updHce (fun x => { x with wb := x.wb ++ ws, seq := ver })).wakeStacks
    ((s1.mirSendAll (carryFrames true (ms true))).mirSendAll (carryFrames false (ms false))).commitVersion ver

/-- A restored image is acknowledged once the peer holds it; the portals are announced and the subsystem thaws (R304
RESTORE, RESUME). -/
def State.ackImage (s : State) (v : Nat) : State :=
  match s.findVs v with
  | none => s
  | some x =>
    match x.ackDue with
    | some (src, seq, m) =>
      if !s.peerHolds m then s
      else
        let s1 := s.sendMigrate src v seq (.ack seq)
        let s2 := x.portals.foldl (fun t q => t.emit (.announce (t.identPort q.port) q.addr)) s1
        let an := x.portals.map (fun q => (⟨q.port, q.addr, q.af == 6, s.identPort q.port, 2, s.now + ms 1⟩ : Announce))
        (s2.updTk (fun k => { k with announces := k.announces ++ an })).thaw v
    | none => s

/-- Every image acknowledgement that the peer has made possible. -/
def State.ackImages (s : State) : State :=
  (s.vsm.subs.filter (fun x => x.ackDue.isSome)).foldl (fun t x => t.ackImage x.vsid) s

/-- MIGRATE_RECEIVE (R304 to R306): at the target, blocks, image pieces and an abort; at the source, the acknowledgement
of the image, after which the subsystem is MOVED and no connection is closed. -/
def execMigrateReceive (src tvsid seq : Nat) (body : MigrateBody) (s : State) : Host.Outcome State Fault Refusal :=
  let target := s.vsState tvsid = some .target
  match body with
  | .blocks es => if target then .next ((s.takeBlocks tvsid es).sendMigrate src tvsid seq (.ack seq)) else .next s
  | .image o bs =>
    if !target then .next s
    else
      (match s.takePiece tvsid o bs with
       | (t, none) => .next t
       | (t, some img) =>
         if imageOk img then
           let t1 := t.applyImage tvsid img
           .next ((t1.updVs tvsid (fun x => { x with ackDue := some (src, seq, t1.lastMseq) })).ackImage tvsid)
         else .next (t.sendMigrate src tvsid seq .abort))
  | .ack n =>
    (match s.vsm.migs.find? (fun g => g.tvsid = tvsid && (g.tfidA = src || g.tfidB = src)) with
     | none => .next s
     | some g =>
       if g.phase = .restore && g.seq ≤ n then
         .next ((s.updVs g.vsid (fun x => { x with st := .moved, frzEnd := none, byMigration := false, image := [] })).updVsm
           (fun m => { m with migs := m.migs.filter (fun x => x.vsid ≠ g.vsid) }))
       else .next s)
  | .abort =>
    (match s.vsm.migs.find? (fun g => g.tvsid = tvsid && (g.tfidA = src || g.tfidB = src)) with
     | some g => .next (s.abortMigration g.vsid)
     | none =>
       if target then .next (s.updVs tvsid (fun x => { x with restore := [] })) else .next s)

end Sys2Proof.Machine
end

