-- ==== Sys2Proof/Machine/Vault.lean ====
section
/-! DEFINITION. The key vault (chapter 12): sessions (R393 to R397), the key commands (R398), self-tests and zeroisation
(R399 to R402). Ciphers and key bytes are opaque (log 12). -/

namespace Sys2Proof.Machine

/-! ## States of the vault (R392, R400, R401) -/

/-- The vault follows whether an officer key exists; leaving OPERATIONAL ends the session (R392, R394). -/
def State.vaultSettle (s : State) : State :=
  let has := s.kvt.slots.any (fun k => k.typ = 4)
  match s.kvt.st with
  | .operational => if has then s else (s.updKvt (fun k => { k with st := .uncommissioned })).endSession
  | .uncommissioned => if has then s.updKvt (fun k => { k with st := .operational }) else s
  | _ => s

/-- TLS connections are closed and MACsec ports go down, as their keys are gone (R400). -/
def State.dropKeyed (s : State) : State :=
  let conns := s.kvt.tls.map (fun t => t.conn)
  let s1 := conns.foldl State.closeLost s
  let s2 := s1.updKvt (fun k => { k with tls := [], macsec := List.replicate 4 {} })
  (natsFrom 0 4).foldl (fun t p => if t.cfgBit (Reg.iclMscfg + 4 * p) 31 then t.portDown p else t) s2

/-- ERROR (R400): every plaintext key is zeroised and the lanes stop; the health check fails from now on. -/
def State.vaultError (s : State) (row : Nat) : State :=
  let s1 := s.updKvt (fun k => { k with
    st := .error, failTest := row, session := none, nonce := none, paired := false, lanesOn := [], drbgCount := 0
    rekeys := k.rekeys.map (fun r => { r with loading := false, loaded := 0 }) })
  s1.dropKeyed

/-- Volatile zeroisation (R401 LEVEL 0x01). -/
def State.zeroise (s : State) : State := (s.vaultError s.kvt.failTest).raiseFlag Reg.kvtStat 7

/-- Full zeroisation (R401 LEVEL 0x02): the wrapped store and the key records of this module go too. -/
def State.zeroiseAll (s : State) : State :=
  let s1 := s.zeroise
  let s2 := s1.kvt.slots.foldl (fun t k => t.sendLine 8 k.slot (sealLine [])) s1
  s2.updKvt (fun k => { k with slots := [], rekeys := [], officers := [] })

/-- VAULT_SELFTEST_COMPLETE (R387, R392, R399, R400): the store is unwrapped, or the vault enters ERROR. -/
def execVaultSelftestComplete (failRow : Nat) (s : State) : Host.Outcome State Fault Refusal :=
  if !Config.hasCipher s.part || s.kvt.st ≠ .selftest then .next s
  else if failRow ≠ 0 then .next (s.vaultError failRow)
  else .next ((s.updKvt (fun k => { k with st := .uncommissioned })).vaultSettle)

/-- VAULT_ENVIRONMENT_ZEROIZE (R402). -/
def execVaultEnvironmentZeroize (s : State) : Host.Outcome State Fault Refusal :=
  if Config.hasCipher s.part then .next s.zeroise else .next s

/-- ENTROPY_HEALTH_FAILURE (R399, R400): row 4 of the test table. -/
def execEntropyHealthFailure (s : State) : Host.Outcome State Fault Refusal :=
  if Config.hasCipher s.part then .next (s.vaultError 4) else .next s

/-! ## Sessions (R393, R394) -/

/-- The master holds the session. -/
def State.inSession (s : State) (m : Master) : Bool := s.kvt.session.any (fun (x : Master × Nat × Nat) => x.1 = m)

/-- SESSION_IDLE_EXPIRY (R394). -/
def execSessionIdleExpiry (s : State) : Host.Outcome State Fault Refusal :=
  match s.kvt.session with
  | some (_, _, t) => if t + ms (s.cfg Reg.kvtLockcfg 13 0) ≤ s.now then .next s.endSession else .next s
  | none => .next s

/-- NONCE_EXPIRY (R394): 5 s after the challenge. -/
def execNonceExpiry (s : State) : Host.Outcome State Fault Refusal :=
  match s.kvt.nonce with
  | some (_, _, t) => if t ≤ s.now then .next (s.updKvt (fun k => { k with nonce := none })) else .next s
  | none => .next s

/-- The login record of an officer. -/
def State.officer (s : State) (o : Nat) : OfficerSt := (s.kvt.officers.find? (fun x => x.officer = o)).getD ⟨o, [], none⟩

def State.setOfficer (s : State) (x : OfficerSt) : State :=
  s.updKvt (fun k => { k with officers := k.officers.filter (fun y => y.officer ≠ x.officer) ++ [x] })

/-- LOGIN_LOCKOUT_EXPIRY (R394). -/
def execLoginLockoutExpiry (officer : Nat) (s : State) : Host.Outcome State Fault Refusal :=
  let x := s.officer officer
  if due x.lockout s.now then .next (s.setOfficer { x with lockout := none }) else .next s

/-- A failed login: the eighth within 60 s locks the officer out for 60 s (R394). -/
def State.loginFailed (s : State) (o : Nat) : State :=
  let x := s.officer o
  let fs := x.fails.filter (fun t => s.now < t + sec 60) ++ [s.now]
  s.setOfficer (if 8 ≤ fs.length then ⟨o, [], some (s.now + sec 60)⟩ else { x with fails := fs })

/-- A slot of a type. -/
def State.slotIs (s : State) (k typ : Nat) : Bool := (s.findKey k).any (fun x => x.typ = typ)

/-- What every key command checks first: the part has a vault (R4), and the vault serves it (R392; log 43). -/
def State.keyChecks (s : State) (serves : List VaultSt) : List (Bool × Nat) :=
  [(!Config.hasCipher s.part, stAbsent), (!serves.any (fun x => x = s.kvt.st), stConflict)]

/-- States in which the vault gives normal service. -/
def serving : List VaultSt := [.uncommissioned, .operational]

/-- KEY_CHALLENGE (R394): the nonce is a free value. -/
def execKeyChallenge (m : Master) (s : State) : Host.Outcome State Fault Refusal :=
  .next (s.runCmd m 0x0602 (fun c s =>
    let o := leAt c.params 0 2
    s.checked m (s.keyChecks serving ++ ([(!s.slotIs o 4, stConflict)] : List (Bool × Nat)))
      (fun s =>
        let n := s.freeNow
        ((s.tookFree).updKvt (fun k => { k with nonce := some (o, n, s.now + sec 5) })).finish m stOk (leBytes 32 n))))

/-- The response of a login is right for the nonce in force. -/
def State.loginGood (s : State) (m : Master) (o : Nat) (resp : List Byte) : Bool :=
  match s.kvt.nonce, s.findKey o with
  | some (p, n, t), some k => p = o && s.now < t && k.typ = 4 && Config.officerGood k.material n m.num o resp
  | _, _ => false

/-- KEY_LOGIN (R394): BUSY while another session holds the lock, LIMIT_REACHED in a lockout; a match takes the lock. The
nonce serves one login. -/
def execKeyLogin (m : Master) (s : State) : Host.Outcome State Fault Refusal :=
  .next (s.runCmd m 0x0603 (fun c s =>
    let o := leAt c.params 0 2
    let other := s.kvt.session.any (fun (x : Master × Nat × Nat) => !(x.1 = m && x.2.1 = o))
    s.checked m
      (s.keyChecks serving ++
        ([(other, stBusy), ((s.officer o).lockout.any (fun t => s.now < t), stLimit)] : List (Bool × Nat)))
      (fun s =>
        let s1 := s.updKvt (fun k => { k with nonce := none })
        if s.loginGood m o (slice c.params 4 48) then
          (s1.updKvt (fun k => { k with session := some (m, o, s.now) })).finish m stOk []
        else (s1.loginFailed o).finish m stAuthFailed [])))

/-- KEY_LOGOUT (R394). -/
def execKeyLogout (m : Master) (s : State) : Host.Outcome State Fault Refusal :=
  .next (s.runCmd m 0x0604 (fun _ s =>
    s.checked m (s.keyChecks serving ++ ([(!s.inSession m, stConflict)] : List (Bool × Nat)))
      (fun s => s.endSession.finish m stOk [])))

/-! ## Key slots (R385, R389 to R391, R398) -/

/-- Internal slots (R385). -/
def internalSlot (k : Nat) : Bool := k < 16

/-- The types that a user slot may hold. -/
def userType (t : Nat) : Bool := 1 ≤ t && t ≤ 5

/-- A pair key is missing although the peer has joined (R389). -/
def State.unpaired (s : State) : Bool := s.paired && !s.kvt.paired

/-- The key that a KEK slot names: an AES-KW key, or the derived one of R397. -/
def State.kekOf (s : State) (kek : Nat) : Option Nat :=
  if kek = 0xFFFE then some (Config.freeNat 0xFFFE)
  else (s.findKey kek).bind (fun k => if k.typ = 5 then some k.material else none)

/-- A slot filled; its key record is written and the store's generation rises. -/
def State.fillSlot (s : State) (slot typ gen material : Nat) (ident : List Byte) : State :=
  let k : KeySlot :=
    { slot := slot, typ := typ, gen := gen, material := material, oldMaterial := none, count := 0, oldCount := 0, resv := 0,
      resvMseq := 0, cursor := 0, seq := 1, ident := ident }
  let s1 := s.updKvt (fun x => { x with slots := x.slots ++ [k], storeGen := x.storeGen + 1 })
  (s1.sendLine 8 slot k.line).vaultSettle

/-- A slot emptied. -/
def State.emptySlot (s : State) (slot : Nat) : State :=
  let s1 := s.updKvt (fun x => { x with slots := x.slots.filter (fun k => k.slot ≠ slot), storeGen := x.storeGen + 1 })
  (s1.sendLine 8 slot (sealLine [])).vaultSettle

/-- What a change of a slot sends to the peer: slot, type, generation, the key wrapped under the pair key, its identity
(R389, R390). -/
def State.keyParams (s : State) (slot : Nat) : List Byte :=
  match s.findKey slot with
  | some k => leBytes 2 slot ++ leBytes 1 k.typ ++ [0] ++ leBytes 4 k.gen ++
      padTo 80 (Config.wrapKey Config.pairKey k.typ k.gen k.material) ++ k.ident
  | none => leBytes 2 slot ++ zeroBytes 2

/-- A key command whose change goes to the peer (R389); `old` is the state before it. -/
def State.sendKey (s : State) (m : Master) (old : State) (op slot : Nat) : State :=
  s.propagate m
    { m := m, opcode := op, params := s.keyParams slot, vsid := 512, subs := [], nss := [], slot := slot,
      keys := old.kvt.slots.filter (fun k => k.slot = slot), result := [] }

/-- KEY_INFO (R398, R403). -/
def execKeyInfo (m : Master) (s : State) : Host.Outcome State Fault Refusal :=
  .next (s.runCmd m 0x0601 (fun c s =>
    let n := leAt c.params 0 2
    let approved := if serving.any (fun x => x = s.kvt.st) then 1 else 0
    let body := match s.findKey n with
      | some k => leBytes 1 k.typ ++ leBytes 1 (if k.oldMaterial.isSome then 2 else 1) ++ zeroBytes 2 ++ leBytes 4 k.gen ++
          leBytes 8 k.count ++ leBytes 4 k.cursor
      | none => leBytes 1 (if n < 4 then 6 else 0) ++ leBytes 1 (if n < 4 then 1 else 0) ++ zeroBytes 18
    s.checked m (s.keyChecks [.uncommissioned, .operational, .error] ++ ([(0xFFF < n, stInvalidParam)] : List (Bool × Nat)))
      (fun s => s.finish m stOk (body ++ leBytes 1 approved ++ zeroBytes 3))))

/-- KEY_GENERATE (R389, R398): the key is a free value. -/
def execKeyGenerate (m : Master) (s : State) : Host.Outcome State Fault Refusal :=
  .next (s.runCmd m 0x0605 (fun c s =>
    let n := leAt c.params 0 2
    let t := byteAt c.params 2
    s.checked m
      (s.keyChecks serving ++
        ([(!s.inSession m, stConflict), ((s.findKey n).isSome || internalSlot n, stConflict),
          (0xFFF < n || !userType t || t = 2 || t = 3, stInvalidParam), (s.unpaired, stAuthFailed),
          (t = 4 && 8 ≤ (s.kvt.slots.filter (fun k => k.typ = 4)).length, stLimit)] : List (Bool × Nat)))
      (fun s => (s.tookFree.fillSlot n t 1 s.freeNow []).sendKey m s 0x0605 n)))

/-- A failed unwrap: the sixteenth in a row ends the session (R391, R394). -/
def State.unwrapFailed (s : State) : State :=
  let n := s.kvt.unwrapFails + 1
  let s1 := s.updKvt (fun k => { k with unwrapFails := if 16 ≤ n then 0 else n })
  if 16 ≤ n then s1.endSession else s1

/-- Whether a KEK may serve an import (R397): slot 0xFFFE only for officer keys, and once OPERATIONAL for KEKs. -/
def State.kekAllowed (s : State) (kek t : Nat) : Bool :=
  if kek = 0xFFFE then t = 4 || (t = 5 && s.kvt.st = .operational) else s.slotIs kek 5

/-- KEY_IMPORT (R390, R391, R397, R398), checked in the order of its row: the unwrap, the slot, the parameters. -/
def execKeyImport (m : Master) (s : State) : Host.Outcome State Fault Refusal :=
  .next (s.runCmd m 0x0606 (fun c s =>
    let n := leAt c.params 0 2
    let t := byteAt c.params 2
    let kek := leAt c.params 4 2
    let idl := leAt c.params 6 2
    let free := s.kvt.st = .uncommissioned && kek = 0xFFFE && t = 4
    let key := (s.kekOf kek).bind (fun k => Config.unwrapKey k t (slice c.params 8 80))
    let bad := s.kekAllowed kek t && userType t && key.isNone
    match firstFail (s.keyChecks serving ++ ([(!free && !s.inSession m, stConflict)] : List (Bool × Nat))) with
    | some st => s.finish m st []
    | none =>
      if bad then (s.unwrapFailed).finish m stAuthFailed []
      else
        let s1 := s.updKvt (fun k => { k with unwrapFails := 0 })
        s1.checked m
          [((s.findKey n).isSome || internalSlot n, stConflict),
           (0xFFF < n || !userType t || !s.kekAllowed kek t || (if t = 2 then 256 else if t = 3 then 32 else 0) < idl ||
              (t = 1 && key.any Config.xtsHalvesEqual), stInvalidParam),
           (s.unpaired, stAuthFailed), (t = 4 && 8 ≤ (s.kvt.slots.filter (fun k => k.typ = 4)).length, stLimit)]
          (fun s1 => (s1.fillSlot n t 1 (key.getD 0) (slice c.params 88 idl)).sendKey m s 0x0606 n)))

/-- KEY_EXPORT (R390, R398). -/
def execKeyExport (m : Master) (s : State) : Host.Outcome State Fault Refusal :=
  .next (s.runCmd m 0x0607 (fun c s =>
    let n := leAt c.params 0 2
    let kek := leAt c.params 2 2
    s.checked m
      (s.keyChecks serving ++
        ([(!s.inSession m, stConflict),
          (internalSlot n || (s.findKey n).isNone || s.slotIs n 4 || !s.slotIs kek 5, stConflict)] : List (Bool × Nat)))
      (fun s =>
        match s.findKey n, s.findKey kek with
        | some k, some w => s.finish m stOk (padTo 80 (Config.wrapKey w.material k.typ k.gen k.material))
        | _, _ => s)))

/-- A rekey of a slot runs. -/
def State.rekeying (s : State) (n : Nat) : Bool := (s.findKey n).any (fun k => k.oldMaterial.isSome)

/-- KEY_DELETE (R389, R398). -/
def execKeyDelete (m : Master) (s : State) : Host.Outcome State Fault Refusal :=
  .next (s.runCmd m 0x0608 (fun c s =>
    let n := leAt c.params 0 2
    s.checked m
      (s.keyChecks serving ++
        ([(!s.inSession m, stConflict), (internalSlot n || s.vsm.nss.any (fun x => x.keySlot = n) || s.rekeying n, stConflict),
          (s.unpaired, stAuthFailed)] : List (Bool × Nat)))
      (fun s => (s.emptySlot n).sendKey m s 0x0608 n)))

/-- KEY_REKEY (R373, R389, R398). -/
def execKeyRekey (m : Master) (s : State) : Host.Outcome State Fault Refusal :=
  .next (s.runCmd m 0x0609 (fun c s =>
    let n := leAt c.params 0 2
    s.checked m
      (s.keyChecks serving ++
        ([(!s.inSession m, stConflict), (!s.slotIs n 1 || (s.servedNs n).isNone || s.rekeying n, stConflict),
          ((s.servedNs n).any (fun x => !s.owns x.ring), stNotOwner), (s.unpaired, stAuthFailed)] : List (Bool × Nat)))
      (fun s => (s.startRekey n).sendKey m s 0x0609 n)))

/-- KEY_SELFTEST (R399, R400): the DRBG reseeds; `failRow` is the test that failed, 0 for none. -/
def execKeySelftest (m : Master) (failRow : Nat) (s : State) : Host.Outcome State Fault Refusal :=
  .next (s.runCmd m 0x060A (fun _ s =>
    s.checked m (s.keyChecks serving)
      (fun s =>
        let s1 := s.updKvt (fun k => { k with drbgCount := 0 })
        (if failRow = 0 then s1 else s1.vaultError failRow).finish m stOk (leBytes 4 failRow))))

/-- KEY_ZEROIZE (R401): LEVEL 0x02 needs the session. -/
def execKeyZeroize (m : Master) (s : State) : Host.Outcome State Fault Refusal :=
  .next (s.runCmd m 0x060B (fun c s =>
    let l := byteAt c.params 0
    s.checked m
      ([(!Config.hasCipher s.part, stAbsent), (s.kvt.st = .selftest, stConflict), (l ≠ 1 && l ≠ 2, stInvalidParam),
        (l = 2 && !s.inSession m, stConflict)] : List (Bool × Nat))
      (fun s => (if l = 1 then s.zeroise else s.zeroiseAll).finish m stOk [])))

/-- KEY_RANDOM (R398, R399): LEN free bytes; the DRBG reseeds after 2^20 requests. -/
def execKeyRandom (m : Master) (s : State) : Host.Outcome State Fault Refusal :=
  .next (s.runCmd m 0x060C (fun c s =>
    let n := leAt c.params 0 2
    s.checked m (s.keyChecks serving ++ ([(n = 0 || 4096 < n, stInvalidParam)] : List (Bool × Nat)))
      (fun s =>
        let bs := (natsFrom s.freeCtr n).map Config.freeByte
        (({ s with freeCtr := s.freeCtr + n }).updKvt (fun k => { k with drbgCount := (k.drbgCount + 1) % 2 ^ 20 })).finish m
          stOk bs)))

/-! ## The peer's vault (R388, R389) -/

/-- A key change that the peer propagates: slot, type, generation, wrapped key, identity. -/
def State.planKey (s : State) (op : Nat) (p : List Byte) : Plan :=
  let n := leAt p 0 2
  let t := byteAt p 2
  let gen := leAt p 4 4
  let key := Config.unwrapKey Config.pairKey t (slice p 8 80)
  let off := !Config.hasCipher s.part
  if op = 0x0608 then planned [(off, stAbsent)] (s.emptySlot n, [])
  else
    planned [(off, stAbsent), (!s.kvt.paired || key.isNone, stAuthFailed)]
      (if op = 0x0609 then
         (({ s with kvt := { s.kvt with storeGen := s.kvt.storeGen + 1 } }).updKey n (fun k => { k with
            oldMaterial := some k.material, material := key.getD 0, gen := gen, oldCount := k.count, count := 0, resv := 0,
            cursor := 0 }), [])
       else ((s.emptySlot n).fillSlot n t gen (key.getD 0) (p.drop 88), []))

/-- PAIR_KEY_AGREEMENT_COMPLETE (R263, R388): with a pair key, TLS keys travel in XPORT records; a failed agreement sets
PAIRFAIL. -/
def execPairKeyAgreementComplete (ok : Bool) (s : State) : Host.Outcome State Fault Refusal :=
  if !Config.hasCipher s.part || !s.paired || !serving.any (fun x => x = s.kvt.st) then .next s
  else if ok then
    .next (s.kvt.tls.foldl (fun t x => t.sendXport x.conn) (s.updKvt (fun k => { k with paired := true })))
  else .next ((s.updKvt (fun k => { k with paired := false })).raiseFlag Reg.kvtStat 6)

/-! ## Rekeying (R374 to R376) -/

/-- Room for a region's load (R374 step 1): dirty data plus 64 MiB below DRAIN_THR per cent of the ceiling; without that
limit while drains wait for the old key's own (R375). -/
def State.rekeyRoom (s : State) (k : KeySlot) : Bool :=
  2 ^ 44 ≤ k.oldCount || (s.dirtyBlocks + 16384) * 100 < s.cfg Reg.hceWbctl 22 16 * (s.hce.effCeil * gibBlocks)

def State.updRekey (s : State) (slot : Nat) (f : Rekey → Rekey) : State :=
  s.updKvt (fun k => { k with rekeys := updWhere (fun r => r.slot = slot) f k.rekeys })

/-- A piece of 2 MiB may be loaded now: the region has pieces left, no range lock overlaps it, and the ring is not handed
over. -/
def State.pieceFree (s : State) (n : Ns) (k : KeySlot) (r : Rekey) : Bool :=
  let b0 := r.region * 16384 + r.loaded * 512
  s.owns n.ring && !(s.findRing n.ring).any (fun x => x.held) && s.keyLoaded n && k.oldMaterial.isSome && r.loaded < 32 &&
    r.curMseq.isNone && r.region < n.regions && (r.loading || s.rekeyRoom k) &&
    !s.hce.rlt.any (fun e => e.vsid = n.vsid && e.nsid = n.nsid && e.first < b0 + 512 && b0 ≤ e.last)

/-- REKEY_PIECE_LOADED (R374 step 2): the blocks of a piece that the members returned and the buffer does not hold,
decrypted under the old key, are dirty under a new version and mirrored. -/
def execRekeyPieceLoaded (slot : Nat) (blocks : List (Nat × Block)) (s : State) : Host.Outcome State Fault Refusal :=
  match s.kvt.rekeys.find? (fun r => r.slot = slot), s.servedNs slot, s.findKey slot with
  | some r, some n, some k =>
    if !s.pieceFree n k r then .next s
    else
      let b0 := r.region * 16384 + r.loaded * 512
      let ver := s.hce.seq + 1
      let take := blocks.filter (fun e => b0 ≤ e.1 && e.1 < b0 + 512 && (s.newest n.vsid n.nsid e.1).isNone &&
        !s.isLost n.vsid n.nsid e.1)
      let ws := take.map (fun e =>
        (⟨n.vsid, n.nsid, e.1, ver, n.ring, s.unseal n e.1 true e.2, 0, false, false, s.wtOn, false, false, s.now, 0, true⟩ : WbEntry))
      let ms := ws.map (fun w => (⟨w.vsid, w.nsid, w.blk, w.ver, w.ring, w.wt, w.smask, w.data, []⟩ : MirBlock))
      let s1 := s.updRekey slot (fun x => { x with loading := true, loaded := x.loaded + 1 })
      if ws.isEmpty then .next s1
      else
        let s2 := ((s1.updHce (fun x => { x with wb := x.wb ++ ws, seq := ver })).wakeStacks).laneWork (256 * ws.length) 1
        .next ((s2.mirSendAll (carryFrames true ms)).commitVersion ver)
  | _, _, _ => .next s

/-- Step 4 of R374 once the peer holds the CURSOR line: the region's cached blocks go; at the last region the old key is
zeroised and the rekey is counted. -/
def State.rekeyStep (s : State) (n : Ns) (r : Rekey) : State :=
  let s1 := s.cacheDrop (fun e => e.1 = n.vsid && e.2.1 = n.nsid && e.2.2.1 / 16384 = r.region)
  if r.region + 1 < n.regions then
    s1.updRekey r.slot (fun x => { x with region := x.region + 1, loading := false, loaded := 0, curMseq := none })
  else
    let s2 := s1.putKey r.slot (fun k => { k with oldMaterial := none, oldCount := 0 })
    (s2.updKvt (fun k => { k with rekeys := k.rekeys.filter (fun x => x.slot ≠ r.slot) })).bump Reg.iclRekeys

/-- REKEY_REGION_DONE (R374 step 4): with every piece loaded, CURSOR passes the region and its line goes to the peer. -/
def execRekeyRegionDone (slot : Nat) (s : State) : Host.Outcome State Fault Refusal :=
  match s.kvt.rekeys.find? (fun r => r.slot = slot), s.servedNs slot with
  | some r, some n =>
    (match r.curMseq with
     | some m => if s.peerHolds m then .next (s.rekeyStep n r) else .next s
     | none =>
       if r.loaded < 32 || !s.owns n.ring then .next s
       else
         let s1 := s.putKey slot (fun k => { k with cursor := r.region + 1 })
         let s2 := s1.updRekey slot (fun x => { x with curMseq := some s1.lastMseq })
         if s2.peerHolds s1.lastMseq then .next (s2.rekeyStep n r) else .next s2)
  | _, _ => .next s

/-! ## MKA (R378 to R380; MKPDU and key server election as IEEE 802.1X has them, log 44) -/

/-- MKA runs on a fabric port: EN is 1, the vault serves, a slot holds a CAK, no firmware is being activated. -/
def State.mkaOn (s : State) (p : Nat) : Bool :=
  p < Config.fabPorts s.part && Config.hasCipher s.part && s.cfgBit (Reg.iclMscfg + 4 * p) 31 &&
    serving.any (fun x => x = s.kvt.st) && s.kvt.slots.any (fun k => k.typ = 3) && s.mbx.activating.isNone

def State.msPort (s : State) (p : Nat) : MacsecPort := s.kvt.macsec.getD p {}

def State.setMsPort (s : State) (p : Nat) (x : MacsecPort) : State := s.updKvt (fun k => { k with macsec := setAt k.macsec p x })

/-- This participant's name: the SCI of its port. -/
def State.sci (s : State) (p : Nat) : Nat := (s.macs.getD (4 + p) 0).toNat * 65536 + 1

/-- The key server is the live participant of lowest priority value, then of lowest name; this module's is 16. -/
def State.keyServer (s : State) (p : Nat) (x : MacsecPort) : Bool :=
  x.members.all (fun (y : Nat × Nat × Nat) => 16 < y.2.1 || (y.2.1 = 16 && s.sci p < y.1))

/-- An MKA frame of this participant: EAPOL to the port group address, its name and priority, the SAK that it distributes
or has installed. -/
def State.mkaSend (s : State) (p : Nat) : State :=
  let x := s.msPort p
  let sak := (match x.newSak with | some k => [1] ++ beBytes 8 k | none => zeroBytes 9) ++
    (match x.txSak with | some k => [1] ++ beBytes 8 k | none => zeroBytes 9)
  (s.setMsPort p { x with helloAt := some (s.now + sec 2) }).emit
    (.frame (4 + p) (beBytes 6 0x0180C2000003 ++ beBytes 6 (s.macs.getD (4 + p) 0).toNat ++ beBytes 2 0x888E ++
      beBytes 8 (s.sci p) ++ [16] ++ sak))

/-- MKA_FRAME_RECEIVE (R378 to R380): the member's life restarts. The key server distributes a SAK when there is none or a
packet number has reached 2^62, and uses it once the member has installed it; another participant installs what it is
given. -/
def execMkaFrameReceive (port : Nat) (msg : MkaMsg) (s : State) : Host.Outcome State Fault Refusal :=
  if !s.mkaOn port then .next s
  else if !msg.icvOk then .next (s.bump Reg.iclMsauth)
  else
    let x := s.msPort port
    let x1 : MacsecPort :=
      { x with members := x.members.filter (fun y => y.1 ≠ msg.member) ++ [(msg.member, msg.priority, s.now + sec 6)] }
    if s.keyServer port x1 then
      let x2 : MacsecPort := if x1.newSak.isSome && msg.sakInstalled = x1.newSak then
          { x1 with txSak := x1.newSak, rxSak := x1.newSak, newSak := none, txPn := 1 }
        else x1
      if x2.newSak.isNone && (x2.txSak.isNone || (msg.sakInstalled = x2.txSak && 2 ^ 62 ≤ msg.lowestPn)) then
        .next ((s.tookFree.setMsPort port { x2 with newSak := some s.freeNow }).mkaSend port)
      else .next (s.setMsPort port x2)
    else
      match msg.sak with
      | some k =>
        if x1.txSak = some k then .next (s.setMsPort port x1)
        else .next ((s.setMsPort port { x1 with txSak := some k, rxSak := some k, newSak := none, txPn := 1 }).mkaSend port)
      | none => .next (s.setMsPort port x1)

/-- MKA_HELLO (R378): every 2 s. -/
def execMkaHello (port : Nat) (s : State) : Host.Outcome State Fault Refusal :=
  let at_ := (s.msPort port).helloAt
  if s.mkaOn port && (at_.isNone || due at_ s.now) then .next (s.mkaSend port) else .next s

/-- MKA_LIFE_EXPIRY (R378): 6 s without a frame of a member; with the last one the SAKs go, and the port is not up
(R379). -/
def execMkaLifeExpiry (port member : Nat) (s : State) : Host.Outcome State Fault Refusal :=
  let x := s.msPort port
  if x.members.any (fun (y : Nat × Nat × Nat) => y.1 = member && y.2.2 ≤ s.now) then
    let ms_ := x.members.filter (fun y => y.1 ≠ member)
    if ms_.isEmpty then
      let s1 := s.setMsPort port { helloAt := x.helloAt }
      if s.cfgBit (Reg.iclMscfg + 4 * port) 31 then .next (s1.portDown port) else .next s1
    else .next (s.setMsPort port { x with members := ms_ })
  else .next s

/-! ## TLS (R381 to R384) -/

/-- A handshake ends with an alert, and its connection closes. -/
def State.tlsAlert (s : State) (conn code : Nat) : State := (s.emit (.tls conn code)).loseConn conn

/-- The slot whose PSK identity a ClientHello offers first (R382). -/
def State.pskOf (s : State) (ids : List (List Byte)) : Option Nat :=
  ids.findSome? (fun i => (s.kvt.slots.find? (fun k => k.typ = 2 && k.ident = i)).map (fun k => k.slot))

/-- CLIENT_HELLO (R381, R382): a PSK handshake on a TCP connection that has exchanged nothing yet. The traffic keys are
free values, and the XPORT record carries them (R263). Alert codes are RFC 8446's (log 7). -/
def execClientHello (conn : Nat) (identities : List (List Byte)) (suiteOk groupOk binderOk : Bool) (s : State) :
    Host.Outcome State Fault Refusal :=
  match s.findConn conn with
  | none => .next s
  | some k =>
    if k.transport ≠ .tcp || k.icDone || k.tls || !Config.hasCipher s.part || !serving.any (fun x => x = s.kvt.st) ||
        s.mbx.activating.isSome then .next s
    else
      match s.pskOf identities with
      | none => .next (s.tlsAlert conn 115)
      | some p =>
        if !suiteOk then .next (s.tlsAlert conn 40)
        else if !groupOk then .next (s.emit (.tls conn 6))
        else if !binderOk then .next (s.tlsAlert conn 51)
        else
          let t : TlsCtx := ⟨conn, p, s.freeNow, s.tookFree.freeNow, 0, 0, none⟩
          let s1 := s.tookFree.tookFree.updConn conn (fun x => { x with tls := true })
          .next (((s1.updKvt (fun v => { v with tls := v.tls ++ [t] })).emit (.tls conn 2)).sendXport conn)

/-- KEY_UPDATE_RECEIVE (R384): the read key changes, and acknowledgement waits until the peer holds the change (R261). -/
def execKeyUpdateReceive (conn : Nat) (s : State) : Host.Outcome State Fault Refusal :=
  if s.kvt.tls.any (fun t => t.conn = conn) then
    let s1 := (s.tookFree.updKvt (fun k => { k with
      tls := updWhere (fun t => t.conn = conn) (fun t => { t with rxKey := s.freeNow, rxCount := 0 }) k.tls })).sendXport conn
    .next (if s1.peerHolds s1.lastMseq then s1
      else s1.updConn conn (fun x => { x with held := some (Nat.max (x.held.getD 0) s1.lastMseq) }))
  else .next s

end Sys2Proof.Machine
end

