-- ==== Sys2Proof/Machine/Firmware.lean ====
section
/-! DEFINITION. Propagation from the peer and MGMT frames (R143, R283, R389, R408), firmware (R430 to R435) and PLDM
(R406, R621). -/

namespace Sys2Proof.Machine

/-! ## Propagation (R143, R283, R389, R408) -/

/-- A change that the peer propagates: its effect here, or the status that refuses it. -/
def State.planPeer (s : State) (op : Nat) (p : List Byte) : Plan :=
  if 0x0501 ≤ op && op ≤ 0x0507 then (s.plan op p true).map (fun e => (e.1.storeChanged, e.2))
  else if op = 0x0302 then .ok (s.removeRing (byteAt p 0), [])
  else if op = 0x050D then .ok (s.joinMigration p, [])
  else if op = 0x050A then .ok (s.endMigration (leAt p 0 2) false, [])
  else if op = 0x0605 || op = 0x0606 || op = 0x0608 || op = 0x0609 then s.planKey op p
  else .error stInvalidOpcode

/-- The answer to a propagation. -/
def State.answerPeer (s : State) (st : Nat) : State := s.replyPeer st

/-- A propagation is applied and answered; an NS_DELETE is answered once its deallocation is done (R293). -/
def State.takePropagation (s : State) (op : Nat) (p : List Byte) : State :=
  match s.planPeer op p with
  | .error st => s.answerPeer st
  | .ok (t, _) => if op = 0x0507 then t else t.answerPeer stOk

/-- MGMT_PROPAGATION (R143, R283, R389). -/
def execMgmtPropagation (p : Propagation) (s : State) : Host.Outcome State Fault Refusal :=
  if s.paired then .next (s.takePropagation p.opcode p.params) else .next s

/-- What a refusal by the peer undoes: a subsystem with its namespaces, or a key slot (R283, R389). -/
def State.undo (s : State) (p : PropRec) : State :=
  if p.opcode / 256 = 5 then
    s.updVsm (fun m => { m with
      subs := m.subs.filter (fun x => x.vsid ≠ p.vsid) ++ p.subs, nss := m.nss.filter (fun n => n.vsid ≠ p.vsid) ++ p.nss })
  else if p.opcode / 256 = 6 then
    (s.updKvt (fun k => { k with
      slots := k.slots.filter (fun x => x.slot ≠ p.slot) ++ p.keys, rekeys := k.rekeys.filter (fun r => r.slot ≠ p.slot) })).vaultSettle
  else s

/-- The peer's reply to a propagation: the command completes, or is undone and completes with the peer's status. -/
def State.takeReply (s : State) (op st : Nat) : State :=
  match s.props.find? (fun p => p.opcode = op) with
  | none => s
  | some p =>
    let s1 := { s with props := s.props.erase p }
    if st = stOk then s1.propDone p else (s1.undo p).finish p.m st []

/-- MGMT_FRAME_RECEIVE (R405, R408): a packet of master 0x3 from the peer's FID only, a reply, or a propagation. Frames of
another KIND are dropped. -/
def execMgmtFrameReceive (fid kind : Nat) (packet : List Byte) (s : State) : Host.Outcome State Fault Refusal :=
  if kind = 1 then
    if s.rfx.peer.joined && fid = s.rfx.peer.fid then .next (s.route .peer packet) else .next (s.bump Reg.mbxReject)
  else if !s.paired || fid ≠ s.rfx.peer.fid then .next s
  else if kind = 2 then .next (s.takeReply (leAt packet 2 2) (leAt packet 0 2))
  else if kind = 3 then .next (s.takePropagation (leAt packet 0 2) (slice packet 64 (leAt packet 12 2)))
  else .next s

/-! ## Firmware (R430 to R434) -/

/-- Bytes of the staging area (R431). -/
def stageSize : Nat := 33554432

/-- Bytes of an image enter the staging area. -/
def State.stageBytes (s : State) (o : Nat) (bs : List Byte) : State :=
  s.updMbx (fun x => { x with stage := cellWrites x.stage o bs, stagedTop := Nat.max x.stagedTop (o + bs.length) })

/-- FW_DOWNLOAD (R431). -/
def execFwDownload (m : Master) (s : State) : Host.Outcome State Fault Refusal :=
  .next (s.runCmd m 0x0701 (fun c s =>
    let o := leAt c.params 0 4
    let bs := c.params.drop 4
    s.checked m [(stageSize < o + bs.length, stInvalidParam)] (fun s => (s.stageBytes o bs).finish m stOk [])))

/-- The PART bit of a part (R430). -/
def partBit : Part → Nat
  | .kv9624a => 0
  | .kv9624c => 1
  | .kv9616b => 2

/-- A field of the staged image's header. -/
def State.staged (s : State) (o n : Nat) : Nat := leNat (cellBytes s.mbx.stage o n)

/-- The staged header's fields are in range and name this part. -/
def State.headerOk (s : State) : Bool :=
  s.staged 0 4 = 0x4B564657 && s.staged 4 1 = 1 && bitsOf (s.staged 6 2) (partBit s.part) (partBit s.part) = 1 &&
    1 ≤ s.staged 0x14 4 && s.staged 0x14 4 ≤ 33553920 && s.staged 0x10 4 ≤ 63

/-- The checks of R432, in order. -/
def State.commitChecks (s : State) (slot : Nat) : List (Bool × Nat) :=
  [(!s.headerOk, stInvalidParam),
   (!Config.firmwareGood (s.mbx.stage.filter (fun c => c.1 < 512 + s.staged 0x14 4)), stAuthFailed),
   (s.staged 0x10 4 < s.mbx.minSvn || slot = s.mbx.runSlot, stConflict)]

/-- A slot's record replaced. -/
def State.setSlot (s : State) (slot : Nat) (x : FwSlot) : State :=
  s.updMbx (fun b => if slot = 0 then { b with slot0 := x } else { b with slot1 := x })

def State.fwSlot (s : State) (slot : Nat) : FwSlot := if slot = 0 then s.mbx.slot0 else s.mbx.slot1

/-- The slot is erased, and the image is being written (R432). -/
def State.beginCommit (s : State) (slot : Nat) (raise_ : Bool) : State :=
  (s.setSlot slot ⟨false, 0, 0⟩).updMbx (fun x => { x with commitSlot := some (slot, raise_) })

/-- FW_COMMIT (R432): after the checks the slot is written, and the command waits for that; while the update of R435 writes a
slot, BUSY (log 87). -/
def execFwCommit (m : Master) (s : State) : Host.Outcome State Fault Refusal :=
  .next (s.runCmd m 0x0702 (fun c s =>
    let slot := byteAt c.params 0
    let fl := byteAt c.params 1
    s.checked m (([(1 < slot || 1 < fl, stInvalidParam), (s.mbx.commitSlot.isSome, stBusy)] : List (Bool × Nat)) ++ s.commitChecks slot)
      (fun s => (s.beginCommit slot (fl = 1)).keepRunning m)))

/-- The mailbox's commands of an opcode that wait end. -/
def State.finishOp (s : State) (op st : Nat) : State :=
  match s.mbx.cmds.find? (fun c => c.opcode = op && c.running) with
  | some c => s.finish c.m st []
  | none => s

/-- FW_COMMIT_DONE (R431, R432, R435): the image is written and read back; MINSVN never falls, and the staging area is
cleared. -/
def execFwCommitDone (s : State) : Host.Outcome State Fault Refusal :=
  match s.mbx.commitSlot with
  | none => .next s
  | some (slot, raise_) =>
    let svn := s.staged 0x10 4
    let s1 := s.setSlot slot ⟨true, s.staged 8 8, svn⟩
    let s2 := s1.updMbx (fun x => { x with
      commitSlot := none, minSvn := if raise_ then Nat.max x.minSvn svn else x.minSvn, stage := [], stagedTop := 0,
      pldm := if x.pldm = 2 then 3 else x.pldm })
    .next (s2.finishOp 0x0702 stOk)

/-- The checks of an activation (R432, R433): an invalid slot holds no image whose header stands. -/
def State.activateChecks (s : State) (slot : Nat) : List (Bool × Nat) :=
  [(1 < slot || !(s.fwSlot slot).valid, stInvalidParam),
   ((s.fwSlot slot).svn < s.mbx.minSvn || slot = s.mbx.runSlot, stConflict)]

/-- Activation begins: 500 ms for the new firmware to run. -/
def State.beginActivate (s : State) (slot : Nat) : State :=
  s.updMbx (fun x => { x with activating := some (slot, s.now + ms 500), prevSlot := x.runSlot })

/-- FW_ACTIVATE (R433). -/
def execFwActivate (m : Master) (s : State) : Host.Outcome State Fault Refusal :=
  .next (s.runCmd m 0x0703 (fun c s =>
    let slot := byteAt c.params 0
    s.checked m (s.activateChecks slot) (fun s => (s.beginActivate slot).keepRunning m)))

/-- ACTIVATION_COMPLETE (R433 step 3, R446): the new firmware runs from its slot, which is the boot slot; FW_ACTIVATE
completes and the admin commands that waited go on. -/
def execActivationComplete (s : State) : Host.Outcome State Fault Refusal :=
  match s.mbx.activating with
  | none => .next s
  | some (slot, _) =>
    let s1 := s.updMbx (fun x => { x with
      activating := none, runSlot := slot, bootSlot := slot, pldm := if x.pldm = 3 then 0 else x.pldm })
    .next ((s1.sepEvent 2).finishOp 0x0703 stOk).adminAll

/-- The value of MBX.FWSTAT. -/
def State.fwstat (s : State) : Word :=
  place s.mbx.minSvn 16 ||| placeBit s.mbx.activating.isSome 6 ||| (s.reg Reg.mbxFwstat &&& place 1 5) |||
    place s.mbx.bootSlot 4 ||| place s.mbx.runSlot 3 ||| placeBit s.mbx.slot1.valid 1 ||| placeBit s.mbx.slot0.valid 0

/-- FW_STATUS (R434). -/
def execFwStatus (m : Master) (s : State) : Host.Outcome State Fault Refusal :=
  .next (s.runCmd m 0x0704 (fun _ s =>
    let of_ := fun (x : FwSlot) => if x.valid then leBytes 8 x.version ++ leBytes 4 x.svn else zeroBytes 12
    s.finish m stOk (of_ s.mbx.slot0 ++ of_ s.mbx.slot1 ++ leBytes 4 s.mbx.stagedTop ++ leBytes 4 s.fwstat.toNat)))

/-! ## PLDM (R406, R435, R621): command and completion codes are the DMTF specifications' (log 7) -/

/-- A PLDM answer on the BMC route: command, completion code, data. -/
def State.pldmReply (s : State) (cmd code : Nat) (bs : List Byte) : State := s.emit (.reply .bmc cmd code 0 bs)

/-- PLDM_REQUEST_UPDATE (R435): refused while the BMC is not control owner. -/
def execPldmRequestUpdate (s : State) : Host.Outcome State Fault Refusal :=
  if s.isOwner .bmc then .next ((s.updMbx (fun x => { x with pldm := 1 })).pldmReply 0x10 0 [])
  else .next (s.pldmReply 0x10 4 [])

/-- PLDM_COMPONENT_TRANSFER (R435): bytes of the component fill the staging area. -/
def execPldmComponentTransfer (offset : Nat) (bytes : List Byte) (s : State) : Host.Outcome State Fault Refusal :=
  if s.mbx.pldm = 1 && offset + bytes.length ≤ stageSize then .next (s.stageBytes offset bytes) else .next s

/-- PLDM_VERIFY_APPLY (R435): FW_COMMIT to the slot that is not running. -/
def execPldmVerifyApply (s : State) : Host.Outcome State Fault Refusal :=
  if s.mbx.pldm ≠ 1 || s.mbx.commitSlot.isSome then .next s
  else
    let slot := 1 - s.mbx.runSlot
    match firstFail (s.commitChecks slot) with
    | some st => .next (s.pldmReply 0x17 st [])
    | none => .next (((s.beginCommit slot false).updMbx (fun x => { x with pldm := 2 })).pldmReply 0x17 0 [])

/-- PLDM_ACTIVATE_FIRMWARE (R423, R435): FW_ACTIVATE of the slot that is not running, once the commands accepted before
it have completed. -/
def execPldmActivateFirmware (s : State) : Host.Outcome State Fault Refusal :=
  if s.mbx.pldm ≠ 3 || !s.mbx.cmds.isEmpty || s.mbx.activating.isSome then .next s
  else
    let slot := 1 - s.mbx.runSlot
    match firstFail (s.activateChecks slot) with
    | some st => .next (s.pldmReply 0x1A st [])
    | none => .next ((s.beginActivate slot).pldmReply 0x1A 0 [])

/-- Thresholds of a sensor in the units of its register: lower critical, lower warning, upper warning, upper critical,
upper fatal (R621). -/
def State.limits (s : State) (sensor : Nat) : List (Option Int) :=
  let small := s.part = .kv9616b
  if sensor = 1 then [some 3600, some 3800, some 7200, some 7500, some 8000]
  else if sensor = 2 then [none, none, some 10000, some 12000, none]
  else if sensor = 3 then [none, none, some (if small then 210000 else 280000), some (if small then 225000 else 300000), none]
  else if sensor = 4 then [none, none, some 760, some 800, some 880]
  else [none, none, some 640, some 680, some 760]

/-- presentState of a reading: upper fatal, critical, warning, then lower critical, warning, else normal. -/
def presentState (v : Int) (l : List (Option Int)) : Nat :=
  let above := fun (i : Nat) => (l.getD i none).any (fun t => t ≤ v)
  let below := fun (i : Nat) => (l.getD i none).any (fun t => v ≤ t)
  if above 4 then 0x0A else if above 3 then 9 else if above 2 then 8 else if below 0 then 6 else if below 1 then 5 else 1

/-- Bytes of a sensor's register field. -/
def sensorSize (sensor : Nat) : Nat := if sensor = 3 then 4 else 2

/-- What a sensor measures now, a free value of its register's width; the current and power converters stop in Standby
(log 4). Temperatures are signed. -/
def State.measured (s : State) (sensor : Nat) : Int :=
  let w := 2 ^ (8 * sensorSize sensor)
  let n := s.freeNow % w
  if s.pwr.mode = .standby && sensor ≠ 1 then 0
  else if 4 ≤ sensor && w / 2 ≤ n then Int.ofNat n - Int.ofNat w
  else Int.ofNat n

/-- PLDM_GET_SENSOR_READING (R621): an unknown sensor is refused; sensors 4 and 5 are unavailable in Standby and while
every HBM stack is shed. -/
def execPldmGetSensorReading (sensor : Nat) (s : State) : Host.Outcome State Fault Refusal :=
  if sensor = 0 || 5 < sensor then .next (s.pldmReply 0x11 0x80 [])
  else if 4 ≤ sensor && (s.pwr.mode = .standby || (natsFrom 0 4).all (fun k => hasNat s.pwr.shed k)) then
    .next (s.pldmReply 0x11 0 ([BitVec.ofNat 8 (sensorSize sensor), 2, 0, 0, 0, 0] ++ zeroBytes (sensorSize sensor)))
  else
    let v := s.measured sensor
    let st := presentState v (s.limits sensor)
    let w := 2 ^ (8 * sensorSize sensor)
    let before := Config.freeByte s.freeCtr
    .next (s.tookFree.pldmReply 0x11 0
      ([BitVec.ofNat 8 (sensorSize sensor), 0, 0, BitVec.ofNat 8 st, before, BitVec.ofNat 8 st] ++
        leBytes (sensorSize sensor) (v % Int.ofNat w).toNat))

end Sys2Proof.Machine
end

