-- ==== Sys2Proof/Machine/Power.lean ====
section
/-! DEFINITION. Supplies, rails, power domains and power states (chapter 16), the power-fail flush and its restore (R96 to
R99), restarts (R523, R581, R582, R592), the health check's failure (R265, R624) and the thermal trip (R620). -/

namespace Sys2Proof.Machine

/-! ## Power domains (R505 to R507) -/

/-- Domains whose lowest mode is ON, and those whose lowest mode is RET; that of every other is OFF. -/
def domAlways (d : Nat) : Bool := d = 0 || d = 7
def domRetains (d : Nat) : Bool :=
  (1 ≤ d && d ≤ 6) || (40 ≤ d && d ≤ 58) || d = 75 || (96 ≤ d && d ≤ 110)

/-- Domains go OFF. -/
def State.domsOff (s : State) (ds : List Nat) : State :=
  s.updPwr (fun p => { p with
    domOn := p.domOn.filter (fun d => !hasNat ds d), domRet := p.domRet.filter (fun d => !hasNat ds d),
    waking := p.waking.filter (fun w => !hasNat ds w.1) })

/-- DOMAIN_WAKE (R508): work arrives for a domain that is not ON, and waits. -/
def execDomainWake (domain : Nat) (s : State) : Host.Outcome State Fault Refusal :=
  if s.pwr.up then .next (s.wakeDom domain) else .next s

/-- DOMAIN_ON (R399, R507, R522): the domain is ON. A cipher lane is in service once its known-answer test has passed, and
is retired else; an HBM stack is back, retrained (R538), once both its domains are ON. -/
def execDomainOn (domain : Nat) (ok : Bool) (s : State) : Host.Outcome State Fault Refusal :=
  if !s.pwr.waking.any (fun (w : Nat × Nat) => w.1 = domain) then .next s
  else
    let s1 := s.updPwr (fun p => { p with
      waking := p.waking.filter (fun w => w.1 ≠ domain), domRet := dropNat p.domRet domain, domOn := addNat p.domOn domain })
    if 59 ≤ domain && domain < 75 then
      let l := domain - 59
      if hasNat s.kvt.lanesFailed l then .next s1
      else .next (s1.updKvt (fun k =>
        if ok then { k with lanesOn := addNat k.lanesOn l } else { k with lanesFailed := addNat k.lanesFailed l }))
    else if 76 ≤ domain && domain < 84 then
      let k := (domain - 76) / 2
      if hasNat s1.pwr.domOn (76 + 2 * k) && hasNat s1.pwr.domOn (77 + 2 * k) then
        .next ((s1.updPwr (fun p => { p with shed := dropNat p.shed k })).bumpBy Reg.lcuHbmrt 32)
      else .next s1
    else .next s1

/-- A domain holds state that keeps it from going OFF (R507), or work that keeps it ON. -/
def State.domNeeded (s : State) (d : Nat) : Bool :=
  if 59 ≤ d && d < 75 then !s.kvt.tls.isEmpty || s.vsm.nss.any (fun n => n.keySlot ≠ 0xFFFF)
  else if 84 ≤ d && d < 96 then !s.hce.tags.isEmpty || !s.rfu.groups.isEmpty || !s.rge.gathers.isEmpty
  else if d = 110 then (natsFrom 0 32).any (fun i => s.cfgBit (pmuReg Reg.pmuCtl (i / 8) (i % 8)) 31)
  else if d = 111 then s.tst.live.isSome
  else false

/-- A stack that holds no write-buffer entry is shed (R510); one with a pseudo-channel in retraining waits (R539). -/
def State.shedStack (s : State) (k : Nat) : State :=
  if k < s.stacksUsed || hasNat s.pwr.shed k || s.lcu.hbm.pc.any (fun x => x.1 / 32 = k) then s
  else (s.domsOff [76 + 2 * k, 77 + 2 * k]).updPwr (fun p => { p with shed := p.shed ++ [k] })

/-- The first stack that the power state sheds (R515). -/
def State.deepest (s : State) : Nat :=
  match s.pwr.mode with
  | .lull => 2
  | .doze => 1
  | _ => 4

/-- Stacks from `k` upward are shed. -/
def State.shedStacks (s : State) (k : Nat) : State := (natsFrom k (4 - k)).foldl State.shedStack s

/-- DOMAIN_IDLE (R506, R507, R515): idle for 5 µs in Lull or Doze, a domain goes to its lowest mode; ports and HBM stacks
go with the power state. -/
def execDomainIdle (domain : Nat) (s : State) : Host.Outcome State Fault Refusal :=
  let low := s.pwr.mode = .lull || s.pwr.mode = .doze
  if !low || !hasNat s.pwr.domOn domain || domAlways domain || s.domNeeded domain then .next s
  else if domRetains domain then
    .next (s.updPwr (fun p => { p with domOn := dropNat p.domOn domain, domRet := addNat p.domRet domain }))
  else if (59 ≤ domain && domain < 75) then
    .next ((s.domsOff [domain]).updKvt (fun k => { k with lanesOn := dropNat k.lanesOn (domain - 59) }))
  else if (84 ≤ domain && domain < 96) || domain = 111 then .next (s.domsOff [domain])
  else if 76 ≤ domain && domain < 84 then
    let k := (domain - 76) / 2
    .next (if s.deepest ≤ k then s.shedStack k else s)
  else .next s

/-! ## Power states (R509, R510, R515 to R521) -/

def State.policy (s : State) (i : Nat) : Nat :=
  if i < 4 then s.cfg Reg.pwrPolicy0 (8 * i + 7) (8 * i) else s.cfg Reg.pwrPolicy1 (8 * (i - 4) + 7) (8 * (i - 4))

/-- MAXSTATE, and the state as its number. -/
def PwrMode.rank : PwrMode → Nat
  | .active => 0
  | .lull => 1
  | .doze => 2
  | .standby => 3

/-- An Active hold (R518, R524). -/
def State.activeHold (s : State) : Bool :=
  s.hce.wtTakeover || s.wtTest || (s.pwr.mode ≠ .standby && s.policy 0 < s.pwr.mode.rank)

/-- Rebuild work or RESYNCING of a ring mastered here, whose work this module does (R518; log 90), and a rekey or a
migration. -/
def State.rebuildBlock (s : State) : Bool :=
  s.rge.rings.any (fun r => r.owner && (r.hasWork || r.resyncing))
def State.moveBlock (s : State) : Bool :=
  s.kvt.slots.any (fun k => k.oldMaterial.isSome) || !s.vsm.migs.isEmpty

/-- A Doze block (R518). -/
def State.dozeBlock (s : State) : Bool :=
  s.rebuildBlock || s.moveBlock || s.cfg Reg.hceWbctl 9 8 = 2 || s.policy 1 % 2 = 0

/-- PWR.STATE.BLOCK. -/
def State.blockBits (s : State) : Nat :=
  (if s.policy 0 < 2 then 1 else 0) + (if s.policy 1 % 2 = 0 then 2 else 0) + (if s.cfg Reg.hceWbctl 9 8 = 2 then 4 else 0) +
    (if s.rebuildBlock then 8 else 0) + (if s.moveBlock then 16 else 0) + (if s.activeHold then 32 else 0) +
    (if s.mbx.activating.isSome then 64 else 0)

/-- A fabric port is shed and goes down (R520, R221). -/
def State.shedFab (s : State) (p : Nat) : State :=
  (((s.portDown p).setFabPort p (fun f => { f with pcs := false, nbrUid := 0, nbrFid := 0x7F, heard := 0 })).domsOff (fabDoms p))

/-- Fabric ports that the policy sheds: F1 to F3 with their bit set. -/
def State.shedPorts (s : State) : List Nat :=
  (natsFrom 1 (Config.fabPorts s.part - 1)).filter (fun p => s.policy 1 / 2 ^ p % 2 = 1)

/-- Entry to Lull (R515, R520). -/
def State.enterLull (s : State) : State :=
  let s1 := s.shedPorts.foldl State.shedFab s
  (s1.shedStacks 2).updPwr (fun p => { p with mode := .lull, lullRun := 0, dozeRun := 0 })

/-- Entry to Doze (R515, R519): the identities move to KEEPHOST, the other host ports go down, stacks 1 to 3 are shed and
the engines go to retention. -/
def State.enterDoze (s : State) : State :=
  let keep := s.policy 7
  let others := (natsFrom 0 (Config.hostPorts s.part)).filter (fun p => p ≠ keep)
  let s1 := (natsFrom 0 (Config.hostPorts s.part)).foldl (fun t i => t.moveIdent i keep) s
  let s2 := others.foldl (fun t p =>
    (({ t with mac := { t.mac with hostUp := dropNat t.mac.hostUp p } }).flushEgress p).domsOff (hostDoms p)) s1
  let s3 := s2.shedStacks 1
  let ret := s3.pwr.domOn.filter (fun d => domRetains d && !s3.domNeeded d)
  s3.updPwr (fun p => { p with
    mode := .doze, lullRun := 0, dozeRun := 0, domOn := p.domOn.filter (fun d => !hasNat ret d), domRet := p.domRet ++ ret })

/-- From Doze to Lull: the host ports and stack 1 wake (R515). -/
def State.leaveDoze (s : State) : State :=
  let ds := (natsFrom 0 (Config.hostPorts s.part)).flatMap hostDoms ++ [76, 77, 78, 79]
  (s.wakeAll ds).updPwr (fun p => { p with mode := .lull, lullRun := 0, dozeRun := 0 })

/-- In Lull and Doze a fabric port whose shed bit is cleared wakes, and one whose bit is set is shed (R515, R520). -/
def State.applyShed (s : State) : State :=
  if s.pwr.mode = .lull || s.pwr.mode = .doze then
    (natsFrom 1 (Config.fabPorts s.part - 1)).foldl (fun t p =>
      if !hasNat t.shedPorts p then t.wakeAll (fabDoms p) else if t.portAwake (4 + p) then t.shedFab p else t) s
  else s

/-- An Active hold wakes the module at once, but not during an activation of firmware (R518, R521). -/
def State.holdWake (s : State) : State := if s.activeHold && s.mbx.activating.isNone then s.wakeActive else s

/-- A new policy takes effect (R524): as an Active hold where it forbids the current state, else on the fabric ports that it
sheds. A new KEEPHOST counts from the next entry to Doze on (log 90). -/
def State.applyPolicy (s : State) : State := s.holdWake.applyShed

/-- U of R516, in 1/100 per cent. -/
def State.loadOf (s : State) (w : LoadWindow) : Nat :=
  (s.mac.hostUp.map (fun p => w.hostUtil.getD p 0)).foldl Nat.max w.memberUtil

/-- POWER_STATE_EVALUATION (R516 to R518): one window of 1 ms or 100 ms. In Doze the one host port that is up is the kept one. -/
def execPowerStateEvaluation (window : LoadWindow) (s : State) : Host.Outcome State Fault Refusal :=
  if !s.pwr.up then .next s
  else
    let u := s.loadOf window
    let s1 := if window.isMs then s else s.updPwr (fun p => { p with util := window.hostUtil })
    if s.mbx.activating.isSome then .next s1
    else if s.activeHold then .next (s1.wakeActive.updPwr (fun p => { p with lullRun := 0, dozeRun := 0 }))
    else
      match s.pwr.mode with
      | .standby => .next s1
      | .active =>
        if window.isMs then .next s1
        else
          let run := if 1 ≤ s.policy 0 && u < s.policy 2 * 100 then s.pwr.lullRun + 1 else 0
          let s2 := s1.updPwr (fun p => { p with lullRun := run })
          if s.policy 5 * 100 ≤ run && run ≠ 0 then .next s2.enterLull else .next s2
      | .lull =>
        if window.isMs then (if s.policy 4 * 100 < u then .next s1.wakeActive else .next s1)
        else
          let run := if s.policy 0 = 2 && !s.dozeBlock && u < s.policy 3 * 100 then s.pwr.dozeRun + 1 else 0
          let s2 := s1.updPwr (fun p => { p with dozeRun := run })
          if s.policy 6 * 100 ≤ run && run ≠ 0 then .next s2.enterDoze else .next s2
      | .doze =>
        if window.isMs && s.policy 4 * 100 < u then .next s1.wakeActive
        else if s.dozeBlock || (window.isMs && s.mac.hostUp.any (fun p => 4000 < window.hostUtil.getD p 0)) then .next s1.leaveDoze
        else .next s1

/-! ## Flush and restore (R96 to R99) -/

/-- Data blocks that the slot's flush area holds (R94, R97). -/
def State.flushRoom (s : State) : Nat :=
  let n := s.memberBays.length
  let g := Nat.min 13 n
  if g = 0 then 0 else 4 * gibBlocks * n * (g - 1) / g

/-- A block cannot be flushed: its key is gone or its vault does not serve (R624). -/
def State.unsealable (s : State) (e : WbEntry) : Bool :=
  match s.findNs e.vsid e.nsid with
  | some n => n.keySlot ≠ 0xFFFF && (s.kvt.st = .error || (s.findKey n.keySlot).isNone)
  | none => false

/-- A buffered block is of an encrypted namespace. -/
def State.sealed (s : State) (e : WbEntry) : Bool := ((s.findNs e.vsid e.nsid).map (fun (n : Ns) => n.keySlot != 0xFFFF)).getD false

/-- A block as the flush stores it (R96 step 3, R97): the metadata, with NSID, LBA and the low 32 bits of the version, and the
ciphertext. The subsystem, which the 16 bytes do not name, stands above them (log 74). -/
def State.flushed (s : State) (e : WbEntry) : Nat × Block :=
  match s.findNs e.vsid e.nsid with
  | some n =>
    let lba := if n.lbaf = 1 then 8 * e.blk else e.blk
    (e.nsid % 2 ^ 32 + lba % 2 ^ 64 * 2 ^ 32 + e.ver % 2 ^ 32 * 2 ^ 96 + e.vsid * 2 ^ 128, s.seal n e.blk e.data)
  | none => (0, e.data)

/-- A list cut into pieces of `n`. -/
def cutList {α : Type} (n : Nat) : Nat → List α → List (List α)
  | 0, _ => []
  | f + 1, l => if l.isEmpty then [] else l.take n :: cutList n f (l.drop n)

/-- The XOR of chunks, block by block, metadata and content. -/
def chunkXor (l : List FlushChunk) : List (Nat × Block) :=
  let len := l.foldl (fun a c => Nat.max a c.blocks.length) 0
  (natsFrom 0 len).map (fun i => l.foldl (fun (a : Nat × Block) c =>
    let b := c.blocks.getD i (0, 0)
    (a.1 ^^^ b.1, a.2 ^^^ b.2)) (0, 0))

/-- The flush groups of blocks (R96): chunks of 64 KiB, up to G − 1 data chunks and one of parity to a group, each on another
of the member bays; group `i` begins one bay further than the group before it (log 74). -/
def flushGroups (bays : List Nat) (blocks : List (Nat × Block)) : List FlushGroup :=
  let g := Nat.min 13 bays.length
  let groups := cutList (g - 1) (blocks.length + 1) (cutList 16 (blocks.length + 1) blocks)
  ((natsFrom 0 groups.length).zip groups).map (fun e =>
    let bay := fun (j : Nat) => bays.getD ((e.1 + j) % bays.length) 0
    let data := ((natsFrom 0 e.2.length).zip e.2).map (fun c => (⟨bay c.1, c.2, true⟩ : FlushChunk))
    ⟨data, ⟨bay (g - 1), chunkXor data, true⟩⟩)

/-- The first block of the slot's half of a flush area namespace, and of chunk `i` on a member in it (R97). -/
def State.flushLba (s : State) (i : Nat) : Nat := (if s.slot = .a then 0 else 4 * gibBlocks) + 16 * i

/-- A chunk of group `i` goes to its member. -/
def State.writeChunk (s : State) (i pos : Nat) (c : FlushChunk) : State :=
  s.issueWith c.bay 8 0 .write (s.flushLba i) (natsFrom 0 c.blocks.length) (c.blocks.map (fun b => b.2))
    (c.blocks.map (fun b => BitVec.ofNat 128 b.1)) true (.flush i pos)

/-- The chunks of every group go to the members through this module's drive ports (R96). -/
def State.writeGroups (s : State) (gs : List FlushGroup) : State :=
  ((natsFrom 0 gs.length).zip gs).foldl (fun t e =>
    ((natsFrom 0 e.2.data.length).zip e.2.data).foldl (fun u c => u.writeChunk e.1 c.1 c.2)
      (t.writeChunk e.1 e.2.data.length e.2.parity)) s

/-- The flush begins (R96): admission stops, uncommitted writes are squashed without completions, but not those past the point of
R623, whose stripe writes run to their end (R165); dirty data goes in groups to
the flush area, in ascending ring number as far as it fits, and rings not flushed whole are recorded. -/
def State.startFlush (s : State) : State :=
  if s.hce.flushing || !s.pwr.up then s
  else
    let s1 := (s.tagsOf (fun r => r.open_ && !r.intents)).foldl State.windTag (s.updHce (fun x => { x with halted := true, flushing := true }))
    let dirty := s1.hce.wb.filter (fun e => !e.mirror && !e.dead && e.committed)
    let inOrder := (natsFrom 0 8).flatMap (fun r => dirty.filter (fun e => e.ring = r))
    let can := inOrder.filter (fun e => !s1.unsealable e)
    let take := can.take s1.flushRoom
    let left := (can.drop s1.flushRoom ++ inOrder.filter s1.unsealable).map (fun e => e.ring)
    let gs := flushGroups s1.memberBays (take.map s1.flushed)
    let s2 := s1.updHce (fun x => { x with
      flushArea := gs, flushRecs := x.deallocs.filter (fun d => d.committed && !d.mirror),
      flushRings := (inOrder.map (fun e => e.ring)).foldl addNat [], notWhole := left.foldl addNat [], flushMark := false })
    (s2.writeGroups gs).laneWork (256 * (take.filter s1.sealed).length) 0

/-- A chunk can be read back: it was written, and its drive is there and not failed. -/
def State.chunkThere (s : State) (c : FlushChunk) : Bool :=
  c.ok && (s.bayOf c.bay).seated &&
    !s.rge.rings.any (fun r => r.slots.any (fun m => m.bay = some c.bay && m.st = .failed))

/-- The blocks of a group that can be verified, a single lost chunk rebuilt from the parity (R98); none of one that has lost
more. -/
def State.groupBlocks (s : State) (g : FlushGroup) : Option (List (Nat × Block)) :=
  let lost := (natsFrom 0 g.data.length).filter (fun i => !s.chunkThere (g.data.getD i g.parity))
  match lost with
  | [] => some (g.data.flatMap (fun c => c.blocks))
  | [i] =>
    if s.chunkThere g.parity then
      let others := (natsFrom 0 g.data.length).filterMap (fun j => if j = i then none else g.data[j]?)
      some ((others.flatMap (fun c => c.blocks)) ++ chunkXor (g.parity :: others))
    else none
  | _ => none

/-- The version of a flushed block: the highest one up to the admission number that ends in the 32 bits kept (R97). -/
def fullVersion (seq low : Nat) : Nat := seq - (seq + 2 ^ 32 - low) % 2 ^ 32

/-- A flushed block returns to the own region as dirty (R98), decrypted (R371). Its sector mask is not kept. -/
def State.restored (s : State) (b : Nat × Block) : Option WbEntry :=
  let v := b.1 / 2 ^ 128
  let nsid := b.1 % 2 ^ 32
  let lba := b.1 / 2 ^ 32 % 2 ^ 64
  (s.findNs v nsid).map (fun n =>
    (⟨v, nsid, n.blkOf lba, fullVersion s.hce.seq (b.1 / 2 ^ 96 % 2 ^ 32), n.ring, s.unseal n (n.blkOf lba) true b.2, 0, false, true,
      false, false, false, s.now, 0, false⟩ : WbEntry))

/-- Of the versions of each block only the newest (R98). -/
def newestOnly (l : List WbEntry) : List WbEntry :=
  l.filter (fun e => !l.any (fun f => f.at e.vsid e.nsid e.blk && e.ver < f.ver))

/-- The restore at start-up (R98, R99, R280), and the report of what was lost (R279). FLUSH_INCOMPLETE sets for each ring not
flushed whole, and, where a group cannot be verified or the marker is absent, for every ring of the flush. -/
def State.restore (s : State) (recalled : List MirBlock) : State :=
  let groups := s.hce.flushArea.map s.groupBlocks
  let es := (groups.flatMap (fun g => g.getD [])).filterMap s.restored
  let back := recalled.map (fun m =>
    (⟨m.vsid, m.nsid, m.lba, m.version, m.ring, m.data, m.smask, false, true, false, false, false, s.now, 0, false⟩ : WbEntry))
  let new := newestOnly (es ++ back)
  let top := new.foldl (fun a e => Nat.max a e.ver) s.hce.seq
  let torn := groups.any (fun g => g.isNone) || (!s.hce.flushMark && !s.hce.flushRings.isEmpty)
  let rings := if torn then s.hce.flushRings else s.hce.notWhole
  let s1 := rings.foldl (fun t r => t.updRing r (fun x => { x with flushIncomplete := true })) s
  let s2 := s1.updHce (fun x => { x with
    wb := x.wb ++ new, deallocs := x.deallocs ++ x.flushRecs, seq := top, flushArea := [], flushRecs := [],
    flushRings := [], notWhole := [], flushMark := false })
  let s3 := if s2.tk.lostDirty && recalled.isEmpty then s2.raiseFlag Reg.rfxTkstat 10 else s2
  s3.updTk (fun k => { k with lostDirty := false })

/-! ## Restart (R503, R592) -/

/-- Registers that a restart keeps: MBX.OWNCFG and the power policy, kept in the safety net, and the ID, PWR and SNS
blocks, whose reset is VSB power-up; BUFLOST stays until firmware clears it (R279, R592). -/
def keptReg (a : Nat) : Bool :=
  a = Reg.mbxOwncfg || a / 65536 = Reg.pwrEvt / 65536 || a / 65536 = Reg.snsVin / 65536 || a / 65536 = Reg.idPartid / 65536

/-- A ring after a restart: superblock, ring header, journal epoch, bitmap, service record and reports are kept. -/
def Ring.rebooted (r : Ring) : Ring :=
  { r with
    slots := r.slots.map (fun m => { m with localBad := true, rejoin := none }), suspects := [], verify := none, ckpt := none,
    owner := false, master := none, bid := none, peerBid := none, bidTimer := none, ownMseq := none, handover := none,
    held := false, cursors := [0, 0, 0], hunt := none, sweepAt := none, ckptAt := none }

/-- What is left when the power of the datapath goes: safety net, flash, fuses, the always-on domain, and what lies
outside. The admission number goes on (log 10). -/
def State.rebooted (s : State) : State :=
  let z : State := {}
  let lost := s.tk.lostDirty || (s.hce.wtTakeover && s.dirtyBlocks ≠ 0 && !s.hce.flushMark)
  let pwr0 : PwrSt := { s.pwr with
    up := false, railsUp := [], domOn := [0], domRet := [], waking := [], lullRun := 0, dozeRun := 0, idents := [],
    util := [0, 0, 0, 0], shed := [], coreRot := 0 }
  let bufLost := s.reg Reg.rfxTkstat
  let t : State := { z with
    now := s.now, part := s.part, slot := s.slot, uid := s.uid, smbAddr := s.smbAddr, strapsOk := s.strapsOk, macs := s.macs,
    regs := s.regs.filter (fun e => keptReg e.1),
    hce := { z.hce with
      seq := s.hce.seq, flushMark := s.hce.flushMark, flushArea := s.hce.flushArea, flushRecs := s.hce.flushRecs,
      flushRings := s.hce.flushRings, notWhole := s.hce.notWhole, sanitized := s.hce.sanitized,
      progress := s.hce.progress.map (fun p => { p with cmd := none, asleep := true }) },
    rge := { z.rge with
      rings := s.rge.rings.map (fun r => (r.keepTurns r.recordedTurn).rebooted), intents := s.rge.intents, jseq := s.rge.jseq, jnext := s.rge.jnext,
      lost := s.rge.lost },
    snt := { s.snt with ready := false },
    rfx := { z.rfx with identity := s.rfx.identity },
    tk := { z.tk with fenceIn := s.tk.fenceIn, fenced := s.tk.fenceIn, healthBad := s.tk.healthBad, hbOut := false, lostDirty := lost },
    vsm := { z.vsm with
      gen := s.vsm.gen, nss := s.vsm.nss.map (fun n => { n with waiter := none, zeroing := false }),
      subs := s.vsm.subs.map (fun v => { v with
        st := (if v.st = .target || v.st = .moved then v.st else .active), quiesceEnd := none, frzEnd := none, waiter := none,
        restore := [], image := [], byMigration := false, restored := false, ackDue := none }) },
    kvt := { z.kvt with slots := s.kvt.slots.map (fun k => { k with count := k.resv }), storeGen := s.kvt.storeGen },
    mbx := { z.mbx with
      slot0 := s.mbx.slot0, slot1 := s.mbx.slot1, runSlot := s.mbx.runSlot, bootSlot := s.mbx.bootSlot, minSvn := s.mbx.minSvn },
    bay := { z.bay with
      bays := s.bay.bays.map (fun b => ({ seated := b.seated } : Bay)), bholdHigh := s.bay.bholdHigh },
    sep := { z.sep with perst := s.sep.perst },
    pwr := pwr0,
    tst := { z.tst with results := s.tst.results, lastTest := s.tst.lastTest, lastUnit := s.tst.lastUnit },
    mac := { z.mac with at_ := s.now },
    out := s.out, freeCtr := s.freeCtr, pending := s.pending }
  if bufLost.getLsbD 10 then t.raiseFlag Reg.rfxTkstat 10 else t

/-- HB_OUT stops toggling (R265). -/
def State.hbStop (s : State) : State :=
  if s.tk.hbOut then (s.updTk (fun k => { k with hbOut := false })).emit (.pin .hbOut false) else s

/-- A flush that power leaves before its end: the groups written so far are left, a free number of them, and no marker (R99;
log 4). -/
def State.cutFlush (s : State) : State :=
  if s.hce.flushing then
    let n := s.freeNow % (s.hce.flushArea.length + 1)
    s.tookFree.updHce (fun x => { x with flushArea := x.flushArea.take n, flushRecs := [] })
  else s

/-- Power-down by R503, with the eFuse open or closed; slot A lets BHOLD_A_N go, as BPC falls (R471, R503). -/
def State.powerDown (s : State) (efuse : Bool) : State :=
  if !s.pwr.up then s.updPwr (fun p => { p with efOn := efuse })
  else
    let s0 := s.hbStop.cutFlush.dropBays
    let s1 := if s.slot = .a && s.bay.holder then s0.emit (.pin .bholdA true) else s0
    s1.rebooted.updPwr (fun p => { p with efOn := efuse })

/-- A write to the flush area. -/
def MemberCmd.flushes (c : MemberCmd) : Bool :=
  match c.purpose with
  | .flush _ _ => true
  | _ => false

/-- FLUSH_END (R96 step 4, R98, R165): every stripe write whose record is open has run to completion and the groups are
written; the marker is set, and a restart follows; after a thermal trip the eFuse opens and the module stays off (R620). -/
def execFlushEnd (s : State) : Host.Outcome State Fault Refusal :=
  if !s.hce.flushing || !s.rge.writes.isEmpty || s.bay.cmds.any MemberCmd.flushes then .next s
  else .next ((s.updHce (fun x => { x with flushMark := true, flushing := false })).powerDown (!s.pwr.tripped && !s.pwr.railOff))

/-- POWER_FAIL_TRIP (R96, R497, R499): the domains wake, which is no change of state (R517); in Standby, or before the datapath
has left reset, nothing is flushed. -/
def execPowerFailTrip (s : State) : Host.Outcome State Fault Refusal :=
  let s1 := (s.raiseFlag Reg.pwrEvt 0).updPwr (fun p => { p with vinOk := false })
  .next (if s.pwr.up then (s1.wakeAll (allDomains s.part)).startFlush else s1)

/-! ## The health check's failure (R265, R624) -/

/-- The health check fails: HB_OUT stops, and a joined peer takes over. Without one the module flushes and restarts; when it
fails again before a host command was admitted, it stays powered down. -/
def State.healthFail (s : State) : State :=
  let s1 := s.hbStop
  if s.paired || s.hce.flushing || !s.pwr.up then s1
  else if s.tk.healthBad then (s1.startFlush).updPwr (fun p => { p with railOff := true })
  else (s1.startFlush).updTk (fun k => { k with healthBad := true })

/-- HEALTH_CHECK (R265, R400, R433, R514): every 100 µs. During an activation the application cores are not tested. HB_OUT
toggles while the check passes and nothing else has stopped it. -/
def execHealthCheck (coresOk crossbarOk : Bool) (s : State) : Host.Outcome State Fault Refusal :=
  if !s.pwr.up || s.tk.fenced || s.tst.boot then .next s
  else if (coresOk || s.mbx.activating.isSome) && crossbarOk && s.kvt.st ≠ .error then
    if s.tk.hbOut || s.pwr.tripped || s.pwr.restart.isSome || s.hce.flushing then .next s
    else .next ((s.updTk (fun k => { k with hbOut := true })).emit (.pin .hbOut true))
  else if s.tk.hbOut then .next s.healthFail
  else .next s

/-- The cores that R514 checks in rotation: the application cores, then the crossbar core, by power domain. -/
def checkedCore (i : Nat) : Nat := [2, 3, 4, 5, 42].getD (i % 5) 2

/-- RETENTION_CHECK (R514): every 100 ms the next retained core runs its full check. -/
def execRetentionCheck (ok : Bool) (s : State) : Host.Outcome State Fault Refusal :=
  let next := (natsFrom 1 5).find? (fun i => hasNat s.pwr.domRet (checkedCore (s.pwr.coreRot + i)))
  match next with
  | none => .next s
  | some i =>
    let s1 := s.updPwr (fun p => { p with coreRot := (p.coreRot + i) % 5 })
    .next (if ok || !s.tk.hbOut then s1 else s1.healthFail)

/-! ## Start (R494, R502, R582) -/

/-- The firmware of the boot slot runs, or of the other slot with FALLBACK (R432). -/
def State.bootFirmware (s : State) : State :=
  let b := s.mbx.bootSlot
  if (s.fwSlot b).valid then s.updMbx (fun x => { x with runSlot := b, ready := true })
  else if (s.fwSlot (1 - b)).valid then (s.updMbx (fun x => { x with runSlot := 1 - b, ready := true })).raiseFlag Reg.mbxFwstat 5
  else s

/-- A boot after step 5 of R502: heartbeat, bays, firmware, mailbox with its election window of 1 s (R245), safety net,
restore, rings online (R236). -/
def State.boot (s : State) (recalled : List MirBlock) : State :=
  let s1 := (s.updTk (fun k => { k with hbOut := true })).emit (.pin .hbOut true)
  let s2 := if s1.slot = .a then
      (({ s1 with bay := { s1.bay with bholdHigh := false } }).emit (.pin .bholdA false)).takeBays
    else if s1.bay.bholdHigh then s1.takeBays else s1
  let s3 := s2.bootFirmware
  let s4 := if s3.mbx.ready then s3.updMbx (fun x => { x with window := some (s3.now + sec 1), claims := [] }) else s3
  let s5 := ({ s4 with snt := { s4.snt with ready := true } }).restore recalled
  let s6 := (s5.rge.rings.map (fun r => r.num)).foldl State.ringOnline s5
  { s6 with tst := { s6.tst with boot := false, hold := false } }.recomputeCeil

/-- The tests of an offline TEST (R568). -/
def offlineTests (t : Nat) : List Nat := if t = 0x1F then [0x10, 0x11, 0x12, 0x13] else [t]

/-- Test boot (R582): the supervisor core runs the tests, whose results replace those of the last test boot; with every one
passed and HOLD 0, the boot goes on. -/
def State.testBoot (s : State) (t : Nat) (hold : Bool) (bist : List TestOutcome) (recalled : List MirBlock) : State :=
  let ts := offlineTests t
  let s0 := { s with tst := { s.tst with results := s.tst.results.filter (fun r => r.test < 0x10), boot := true } }
  let rec_ := fun (e : Nat × TestOutcome) =>
    (⟨e.1, 0, if e.2.errors = 0 && e.2.checkOk then 2 else 3, 0, e.2.errors, e.2.whereWord, e.2.elapsedUs⟩ : TestRec)
  let rs := (ts.zip bist).map rec_
  let s1 := rs.foldl State.putResult s0
  if rs.length = ts.length && rs.all (fun r => r.status = 2) && !hold then s1.boot recalled
  else { s1 with tst := { s1.tst with hold := true } }

/-- Whether the module may power up: its straps name a slot (R607), it is not fenced, not in Standby, and no fault or trip keeps it
off. -/
def State.mayPower (s : State) : Bool :=
  s.strapsOk && !s.pwr.up && !s.tk.fenceIn && s.pwr.mode ≠ .standby && !s.pwr.railOff && !s.pwr.tripped && s.pwr.efFault = 0

/-- The cycle counters count from the start of the time base (R549). -/
def State.startCycles (s : State) : State :=
  { s with pmu := { s.pmu with sets := s.pmu.sets.map (fun p => { p with base := 0, from_ := some s.now }) } }

/-- POWER_UP (R494, R502, R607): VSB and VIN hold, the eFuse closes unless the straps name no slot, the rails rise in order, the datapath leaves reset
and the time base starts at 0 (R595); then
test boot after an offline TEST_START (R582), or the boot. `recalled` is what a second holder gives back (R280), `bist` what
the tests of a test boot found. -/
def execPowerUp (recalled : List MirBlock) (bist : List TestOutcome) (s : State) : Host.Outcome State Fault Refusal :=
  if !s.strapsOk then .next (s.updPwr (fun p => { p with vsbOk := true, vinOk := true }))
  else if !s.mayPower then .next s
  else
    let s0 := State.startCycles (s.updMac (fun x => { x with tod := 0, at_ := s.now }))
    let s1 := s0.updPwr (fun p => { p with
      up := true, efOn := true, vinOk := true, vsbOk := true, mode := .active, restart := none,
      railsUp := [.bpc, .pll, .sds, .vdd, .sram, .hbm, .io18, .io33], domOn := allDomains s.part, domRet := [], waking := [] })
    let s2 := if Config.hasCipher s.part then s1.updKvt (fun k => { k with lanesOn := natsFrom 0 16 }) else s1
    match s.pwr.restart.bind (fun (r : Restart) => r.test) with
    | some (t, hold) => .next (s2.testBoot t hold bist recalled)
    | none => .next (s2.boot recalled)

/-! ## Supplies (R493 to R499, R504, R511, R512) -/

/-- The input eFuse trips (R495, R496): every rail but the always-on one falls with no flush; a retry follows in 1 s while one
is left. -/
def State.efuseTrip (s : State) (code : Nat) : State :=
  if !s.pwr.efOn then s
  else
    ((s.raiseFlag Reg.pwrEvt 1).powerDown false).updPwr (fun p => { p with
      efFault := code, efRetryAt := if p.efRetry = 0 then none else some (s.now + sec 1) })

/-- EFUSE_CURRENT_LIMIT (R495). -/
def execEfuseCurrentLimit (s : State) : Host.Outcome State Fault Refusal := .next (s.efuseTrip 1)

/-- EFUSE_FAST_TRIP (R495). -/
def execEfuseFastTrip (s : State) : Host.Outcome State Fault Refusal := .next (s.efuseTrip 2)

/-- EFUSE_RETRY (R495). -/
def execEfuseRetry (s : State) : Host.Outcome State Fault Refusal :=
  if due s.pwr.efRetryAt s.now then
    .next (s.updPwr (fun p => { p with efRetry := p.efRetry - 1, efRetryAt := none, efFault := 0, efOn := true }))
  else .next s

/-- What a VIN cycle, or MOD_RESTART on the BMC route, clears: a latched eFuse fault, a rail fault, a thermal trip. -/
def State.clearOff (s : State) : State :=
  s.updPwr (fun p => { p with efFault := 0, efRetry := 3, efRetryAt := none, railOff := false, tripped := false })

/-- EFUSE_FAULT_CLEAR (R495): VIN below 20 V for 100 ms. -/
def execEfuseFaultClear (s : State) : Host.Outcome State Fault Refusal :=
  .next (s.updPwr (fun p => { p with efFault := 0, efRetry := 3, efRetryAt := none }))

/-- VIN_CUTOFF (R498, R503): the rails shut down. -/
def execVinCutoff (s : State) : Host.Outcome State Fault Refusal :=
  let s2 := (s.powerDown false).updPwr (fun p => { p with vinOk := false, railOff := false, tripped := false })
  .next (if s2.pwr.mode = .standby && !s2.tk.fenceIn then s2.updPwr (fun p => { p with mode := .active }) else s2)

/-- VIN_OVERVOLTAGE (R499). -/
def execVinOvervoltage (s : State) : Host.Outcome State Fault Refusal := .next (s.raiseFlag Reg.pwrEvt 5)

/-- RAIL_FAULT (R504): with VDD the vault zeroises first (R402); the module powers down and stays off. -/
def execRailFault (rail : Rail) (s : State) : Host.Outcome State Fault Refusal :=
  if !s.pwr.up then .next s
  else
    let s1 := if rail = .vdd && Config.hasCipher s.part then s.zeroise else s
    .next (((s1.raiseFlag Reg.pwrEvt 2).powerDown false).updPwr (fun p => { p with railOff := true }))

/-- AON_FEED_LOSS (R493). -/
def execAonFeedLoss (s : State) : Host.Outcome State Fault Refusal := .next (s.raiseFlag Reg.pwrEvt 4)

/-- REFERENCE_LOSS (R512). -/
def execReferenceLoss (s : State) : Host.Outcome State Fault Refusal :=
  .next ((s.raiseFlag Reg.pwrEvt 3).updPwr (fun p => { p with refBackup := true }))

/-- REFERENCE_RESTORED (R512). -/
def execReferenceRestored (s : State) : Host.Outcome State Fault Refusal :=
  .next (s.updPwr (fun p => { p with refBackup := false }))

/-- SUPERVISOR_TRIM (R511): every 1 s the RC oscillator is trimmed against the crystal. -/
def execSupervisorTrim (s : State) : Host.Outcome State Fault Refusal :=
  .next (s.updPwr (fun p => { p with oscTrims := p.oscTrims + 1 }))

/-! ## Restart and thermal trip (R523, R620) -/

/-- TDIE or THBM is above its operating maximum (R620); the readings are free values. -/
def State.tooHot (s : State) : Bool := 800 < s.measured 4 || 680 < s.tookFree.measured 5

/-- What MOD_RESTART and an offline TEST_START do once accepted (R523, R581): admission stops and dirty data drains. -/
def State.beginRestart (s : State) (mode : Nat) (test : Option (Nat × Bool)) : State :=
  (s.updHce (fun x => { x with halted := true })).updPwr (fun p => { p with restart := some ⟨mode, test, true, false⟩ })

/-- The ground on which R523 refuses a restart: this module masters a ring and the peer has joined. -/
def State.masters (s : State) : Bool := s.paired && s.rge.rings.any (fun r => r.owner)

/-- MOD_RESTART (R495, R504, R523, R582, R620). From the BMC, on a module that is off, in Standby or in test boot, MODE 0x01
starts it and MODE 0x02 leaves it in Standby; a fenced module waits for its release. -/
def execModRestart (m : Master) (s : State) : Host.Outcome State Fault Refusal :=
  .next (s.runCmd m 0x0807 (fun c s =>
    let mode := byteAt c.params 0
    let off := s.coresOff || s.tst.boot
    let hot := s.pwr.tripped && mode = 1
    let s0 := if hot then s.tookFree.tookFree else s
    s0.checked m
      [(mode ≠ 1 && mode ≠ 2, stInvalidParam), (!off && s.masters, stConflict), (hot && s.tooHot, stConflict)]
      (fun s =>
        let s1 := s.finish m stOk []
        if !off then s1.beginRestart mode none
        else if mode = 2 then (if s1.tst.boot then s1.powerDown false else s1).updPwr (fun p => { p with mode := .standby })
        else if s1.tst.boot then s1.boot []
        else s1.clearOff.updPwr (fun p => { p with mode := .active }))))

/-- The module powers down for its restart: MODE 0x02 ends in Standby (R523 step 4). -/
def State.restartDown (s : State) (r : Restart) : State :=
  (s.powerDown false).updPwr (fun p => { p with
    mode := if r.mode = 2 then .standby else .active, restart := if r.mode = 2 then none else some { r with draining := false } })

/-- A checkpoint of a ring mastered here is being written. -/
def State.checkpointing (s : State) : Bool := s.rge.rings.any (fun r => r.owner && r.ckpt.isSome)

/-- RESTART_DRAIN_COMPLETE (R173, R523): with every dirty block on the medium, HB_OUT stops for a joined peer to take over;
without one the shelf shuts down in order: clean checkpoints are written, then every host connection is closed and the module
powers down. -/
def execRestartDrainComplete (s : State) : Host.Outcome State Fault Refusal :=
  match s.pwr.restart with
  | none => .next s
  | some r =>
    if !r.draining || s.ownBlocks ≠ 0 || !s.pwr.up then .next s
    else if s.paired then
      .next ((s.updPwr (fun p => { p with restart := some { r with draining := false } })).hbStop)
    else
      if s.checkpointing then .next s
      else
        let s1 := if r.clean then s
          else (s.updPwr (fun p => { p with restart := some { r with clean := true } })).cleanCheckpoints
        if s1.checkpointing then .next s1
        else .next (((s1.hce.conns.map (fun k => k.id)).foldl State.closeConn s1).restartDown r)

/-- THERMAL_TRIP (R620): with a joined peer HB_OUT stops at once; without one the module flushes; a trip during a flush waits
for its end. -/
def execThermalTrip (s : State) : Host.Outcome State Fault Refusal :=
  if !s.pwr.up then .next s
  else
    let s1 := s.updPwr (fun p => { p with tripped := true })
    if s.hce.flushing then .next s1
    else if s.paired then .next s1.hbStop
    else .next s1.startFlush

/-! ## Commands (R524 to R526) -/

/-- What refuses a policy of eight bytes (R524). -/
def policyCheck (part : Part) (b : List Nat) : Option Nat :=
  let g := fun (i : Nat) => b.getD i 0
  let hp := Config.hostPorts part
  let sheds := (natsFrom (Config.fabPorts part) (4 - Config.fabPorts part)).any (fun p => g 1 / 2 ^ p % 2 = 1)
  firstFail
    [((hp ≤ g 7 && g 7 < 4) || sheds, stAbsent),
     (2 < g 0 || 15 < g 1 || g 2 < 2 || 90 < g 2 || g 3 < 1 || 50 < g 3 || g 4 < 5 || 100 < g 4 || g 5 = 0 || g 6 = 0 || 3 < g 7 ||
        g 2 ≤ g 3 || g 4 ≤ g 2, stInvalidParam)]

/-- PWR_POLICY (R524): the policy is kept, and one that forbids the current state wakes the module. -/
def execPwrPolicy (m : Master) (s : State) : Host.Outcome State Fault Refusal :=
  .next (s.runCmd m 0x0805 (fun c s =>
    match policyCheck s.part ((natsFrom 0 8).map (byteAt c.params)) with
    | some st => s.finish m st []
    | none =>
      let w := fun (o : Nat) => BitVec.ofNat 32 (leAt c.params o 4)
      ((((s.putReg Reg.pwrPolicy0 (w 0)).putReg Reg.pwrPolicy1 (w 4)).applyPolicy).finish m stOk [])))

/-- Bytes of a signed reading. -/
def readingBytes (n : Nat) (v : Int) : List Byte := leBytes n (v % Int.ofNat (2 ^ (8 * n))).toNat

/-- PWR_QUERY (R525): the readings are free values (log 4). -/
def execPwrQuery (m : Master) (s : State) : Host.Outcome State Fault Refusal :=
  .next (s.runCmd m 0x0806 (fun _ s =>
    let at_ := fun (i : Nat) => { s with freeCtr := s.freeCtr + i }
    let bs := leBytes 1 s.pwr.mode.rank ++ leBytes 1 s.blockBits ++ zeroBytes 2 ++ readingBytes 2 ((at_ 0).measured 1) ++
      readingBytes 2 ((at_ 1).measured 2) ++ readingBytes 4 ((at_ 2).measured 3) ++ readingBytes 2 ((at_ 3).measured 4) ++
      readingBytes 2 ((at_ 4).measured 5) ++ leBytes 14 (sumNat (s.pwr.domOn.map (fun d => 2 ^ d))) ++ zeroBytes 2
    (at_ 5).finish m stOk bs))

end Sys2Proof.Machine
end

