-- ==== Sys2Proof/Machine/Takeover.lean ====
section
/-! DEFINITION. The stores at the join (R284, R389), and takeover and recovery (chapter 08): the mirror streams as they are
received (R253 to R264), death, fence and takeover (R265 to R280), and an activation that fails (R433). -/

namespace Sys2Proof.Machine

/-! ## Stores at the join (R284, R389) -/

/-- A subsystem as a configuration store holds it. -/
def Vs.stored (v : Vs) : StoredVs :=
  ⟨v.record, v.st = .target, v.hosts, v.portals.map (fun q => (q.index, q.port, q.af, q.pfx, q.addr))⟩

/-- The stores of this module: the keys of its user slots wrapped under the pair key (R389). -/
def State.ownStore (s : State) : PeerStore :=
  { gen := s.vsm.gen, subs := s.vsm.subs.map Vs.stored,
    nss := s.vsm.nss.map (fun n => (⟨n.vsid, n.nsid, n.ring, n.first, n.regions, n.lbaf, n.keySlot⟩ : StoredNs)),
    keyGen := s.kvt.storeGen,
    keys := (s.kvt.slots.filter (fun k => !internalSlot k.slot)).map (fun k => (⟨0x0606, s.keyParams k.slot⟩ : Propagation)) }

/-- A subsystem of the peer's store; one that this module has keeps its course. -/
def State.takeStoredVs (s : State) (x : StoredVs) : Vs :=
  let v := leAt x.record 0 2
  let g := grantsOf x.record
  let own := s.findVs v
  let base : Vs := own.getD
    { vsid := v, flags := 0, ports := 0, tagshare := 0, qpairs := 0, cntls := 0, nsmax := 0, hostmax := 0, svcid := 0,
      subnqn := [], st := .active, hosts := [], portals := [], quiesceEnd := none, frzEnd := none, waiter := none,
      restore := [], image := [], byMigration := false, frzLen := 0, restored := false, ackDue := none }
  { base with
    flags := byteAt x.record 2, ports := byteAt x.record 3, tagshare := g.tags, qpairs := g.qpairs, cntls := g.cntls,
    nsmax := g.nsmax, hostmax := g.hostmax, svcid := orDefault (leAt x.record 0x10 2) 4420,
    subnqn := stripZeros (slice x.record 0x20 256), hosts := x.hosts,
    portals := x.portals.map (fun q => (⟨q.1, q.2.1, q.2.2.1, q.2.2.2.1, q.2.2.2.2⟩ : Portal)),
    st := if x.target then .target else if base.st = .target then .active else base.st }

def State.takeStoredNs (s : State) (x : StoredNs) : Ns :=
  let own := s.findNs x.vsid x.nsid
  ⟨x.vsid, x.nsid, x.ring, x.first, x.regions, x.lbaf, x.keySlot, own.any (fun n => n.deleting), own.bind (fun n => n.waiter), own.any (fun n => n.zeroing)⟩

/-- The peer's configuration store replaces this module's (R284). -/
def State.takeConfig (s : State) (st : PeerStore) : State :=
  let gone := s.vsm.subs.filter (fun v => !st.subs.any (fun x => leAt x.record 0 2 = v.vsid))
  let s1 := gone.foldl (fun t v => t.forgetHosts v.vsid) s
  s1.updVsm (fun m => { m with gen := st.gen, subs := st.subs.map s1.takeStoredVs, nss := st.nss.map s1.takeStoredNs })

/-- A key of the peer's store; one that this module has already keeps its record. -/
def State.takeStoredKey (s : State) (p : Propagation) : State :=
  let n := leAt p.params 0 2
  let t := byteAt p.params 2
  let gen := leAt p.params 4 4
  match Config.unwrapKey Config.pairKey t (slice p.params 8 80) with
  | none => s
  | some key =>
    if (s.findKey n).any (fun k => k.typ = t && k.gen = gen && k.material = key) then s
    else (s.updKvt (fun k => { k with slots := k.slots.filter (fun x => x.slot ≠ n) })).fillSlot n t gen key (p.params.drop 88)

/-- The peer's key store replaces this module's user slots (R389). -/
def State.takeKeys (s : State) (st : PeerStore) : State :=
  let names := st.keys.map (fun p => leAt p.params 0 2)
  let s1 := s.updKvt (fun k => { k with slots := k.slots.filter (fun x => internalSlot x.slot || hasNat names x.slot) })
  ((st.keys.foldl State.takeStoredKey s1).updKvt (fun k => { k with storeGen := st.keyGen })).vaultSettle

/-- The stores are reconciled before the copy of R80: the higher generation's is used; of different ones with equal
generations slot A's is, and CONFLICT sets (R284, R389). -/
def State.reconcile (s : State) (store : Option PeerStore) : State :=
  match store with
  | none => s.emit (.store s.ownStore)
  | some st =>
    let own := s.ownStore
    let differs := own.gen = st.gen && !(own.subs = st.subs && own.nss = st.nss)
    let s1 := if own.gen < st.gen || (differs && s.slot = .b) then s.takeConfig st else s
    let s2 := if differs then s1.raiseFlag Reg.vsmCfgstat 0 else s1
    let keysDiffer := own.keyGen = st.keyGen && own.keys ≠ st.keys
    let s3 := if Config.hasCipher s.part && (own.keyGen < st.keyGen || (keysDiffer && s.slot = .b)) then s2.takeKeys st else s2
    if st.gen < own.gen || st.keyGen < own.keyGen || ((differs || keysDiffer) && s.slot = .a) then s3.emit (.store own) else s3

/-- BARKER_RECEIVE (R9, R80, R220 to R222, R284): `store` is what the peer sends of its stores before it joins. -/
def execBarkerReceive (port : Nat) (b : Barker) (store : Option PeerStore) (s : State) : Host.Outcome State Fault Refusal :=
  .next (s.takeBarker port b (fun t => t.reconcile store))

/-! ## What the frames of the peer's stream do (R22, R76, R82, R257 to R262) -/

/-- Blocks of the peer: copies for the mirror region, or, of a ring mastered here, data for the own region (R22, R75,
R258). A version that came before is replaced. Cached content of the blocks is older and goes (R25). The admission number
rises to the highest version (log 45). `held` says that the versions are not at their commit point yet (R82). -/
def State.applyBlocks (s : State) (es : List MirBlock) (join held : Bool) : State :=
  let mk := fun (e : MirBlock) =>
    (⟨e.vsid, e.nsid, e.lba, e.version, e.ring, e.data, e.smask, !s.owns e.ring, join || !(e.writeThrough || held),
      e.writeThrough, false, false, s.now, 1, false⟩ : WbEntry)
  let mkd := fun (e : MirBlock) =>
    (⟨noTag, e.vsid, e.nsid, e.version, e.ring, e.ranges, !s.owns e.ring, join || !e.writeThrough⟩ : DeallocRec)
  let ws := (es.filter (fun e => e.ranges.isEmpty)).map mk
  let ds := (es.filter (fun e => !e.ranges.isEmpty)).map mkd
  let again := fun (w : WbEntry) => ws.any (fun e => w.at e.vsid e.nsid e.blk && w.ver = e.ver && w.owner = 1)
  let dagain := fun (d : DeallocRec) =>
    ds.any (fun e => d.tag = noTag && d.vsid = e.vsid && d.nsid = e.nsid && d.ver = e.ver)
  ((s.updHce (fun h => { h with
    wb := h.wb.filter (fun w => !again w) ++ ws, deallocs := h.deallocs.filter (fun d => !dagain d) ++ ds,
    seq := es.foldl (fun a e => Nat.max a e.version) h.seq })).wakeStacks).cacheDrop (fun c => es.any (fun e =>
      c.1 = e.vsid && c.2.1 = e.nsid && (if e.ranges.isEmpty then c.2.2.1 = e.lba else covers e.ranges c.2.2.1)))

/-- The ringmaster of a forwarded write that was squashed tells its second holder, which keeps the older dirty versions
(R77). -/
def State.dropForwarded (s : State) (f : MirFree) : State := (s.mirSend2 (.mirror (.free [f]))).reMirror f.vsid f.nsid f.lba f.nlb

/-- A span taken out of a range list. -/
def cutSpan (a n : Nat) (l : List (Nat × Nat)) : List (Nat × Nat) :=
  l.flatMap (fun r =>
    let e := r.1 + r.2
    (if r.1 < Nat.min a e then [(r.1, Nat.min a e - r.1)] else []) ++
      (if Nat.max r.1 (a + n) < e then [(Nat.max r.1 (a + n), e - Nat.max r.1 (a + n))] else []))

/-- A free notice (R76, R77, R257 KIND 0x02): copies at or below VERSION go, and cached content with them, which is older than
what the members now hold (R25). Of a ring mastered here it tells of a forwarded write that was squashed, whose versions
alone go. -/
def State.applyFree (s : State) (f : MirFree) : State :=
  let mine := s.owns f.ring
  let at_ := fun (v n b : Nat) => v = f.vsid && n = f.nsid && f.lba ≤ b && b < f.lba + f.nlb
  let s0 := (s.freeEntries (fun e => at_ e.vsid e.nsid e.blk && e.owner ≤ 1 &&
    (if mine then e.owner = 1 && e.ver = f.version && !e.issued else e.mirror && e.ver ≤ f.version))).cacheDrop (fun c =>
      at_ c.1 c.2.1 c.2.2.1)
  let s1 := if mine then s0.dropForwarded f else s0
  s1.updHce (fun h => { h with
    deallocs := (h.deallocs.map (fun d =>
      if d.vsid = f.vsid && d.nsid = f.nsid && (if mine then d.tag = noTag && d.ver = f.version else d.mirror && d.ver ≤ f.version) then
        { d with ranges := cutSpan f.lba f.nlb d.ranges }
      else d)).filter (fun d => !d.ranges.isEmpty) })

/-- A safety-net line of the peer (R167, R257 KIND 0x03): an all-zero one is no record. The CURSOR of a key record moves this
module's own rekey (R376), an epoch line its epoch (R238), a progress line what the peer's operation does to its namespaces
here (R102, R103, R107), and a lost extent of a ring that the peer masters replaces what this module still holds of it. -/
def State.applyLine (s : State) (e : Nat × Nat × List Byte) : State :=
  let (area, idx, l) := e
  let rest := s.snt.peerLines.filter (fun x => !(x.1 = area && x.2.1 = idx))
  let s0 := if area = 6 then s.peerProgress idx l else s
  let s1 := { s0 with snt := { s.snt with peerLines := if l = sealLine [] then rest else rest ++ [e] } }
  if area = 8 && lineOk l then
    s1.updKey (leAt l 2 2) (fun k =>
      if k.gen ≠ leAt l 4 4 then k
      else { k with cursor := leAt l 16 4, oldMaterial := if byteAt l 0 = 1 then none else k.oldMaterial })
  else if area = 7 && idx < 8 && lineOk l then
    s1.updRing idx (fun r => { r with epoch := Nat.max r.epoch (leAt l 0 4) })
  else if area = 4 then
    match s1.lostOfLine idx l with
    | some x =>
      if s1.owns x.ring then s1
      else (s1.rge.lost.filter (fun y => y.ring = x.ring && y.rba < x.rba + x.nrb && x.rba < y.rba + y.nrb)).foldl
        (fun t y => t.dropLost y.idx) s1
    | none => s1
  else if area = 6 then s1.adminAll
  else s1

/-- What the ringmaster tells of a ring, on the module that does not master it: member states, flags and progress follow it
(R142, R178, R179, R216). This module's own port states stay (R182). -/
def Ring.follow (r : Ring) (v : RingShare) : Ring :=
  { r with
    n := v.n, k := v.k, m := v.m, s := v.s, seed := v.seed, chunks := v.chunks, gen := v.gen,
    slots := ((natsFrom 0 v.slots.length).zip v.slots).map (fun e => { e.2 with localBad := (r.slotAt e.1).localBad }),
    initRunning := v.initRunning, torn := v.torn, flushIncomplete := v.flushIncomplete, resyncAll := v.resyncAll,
    suspects := v.suspects, hunt := if v.hunting then some none else none, verify := v.verify, bitmap := v.bitmap,
    patrol := v.patrol, held := v.held }

/-- A ring that the peer tells of and this module does not know yet (R135, R140). -/
def RingShare.ring (v : RingShare) : Ring :=
  Ring.follow
    { num := v.num, n := v.n, k := v.k, m := v.m, s := v.s, seed := v.seed, chunks := v.chunks, gen := v.gen, slots := [],
      initRunning := v.initRunning, torn := false, flushIncomplete := false, resyncAll := false, suspects := [], verify := none,
      hdrSeq := 0, ckSeq := 0, ckSlot := 0, ckRot := 0, ckpt := none, hdrOwn := false, hunt := none, sweepAt := none,
      ckptAt := none, bitmap := [], owner := false, epoch := 0, master := none, bid := none, peerBid := none, bidTimer := none,
      ownMseq := none, handover := none, held := false, cursors := [0, 0, 0], patrol := 0, svcSeq := 0 } v

/-- The peer tells of a ring: one that is not known here comes online, with the peer as its ringmaster or for an election
(R135, R140); one that the peer masters follows it (R179). -/
def State.applyRing (s : State) (v : RingShare) : State :=
  match s.findRing v.num with
  | none =>
    let r := { v.ring with master := if v.owner then some s.rfx.peer.fid else none }
    (s.updRge (fun e => { e with rings := e.rings ++ [r] })).recomputeCeil.ringOnline v.num
  | some r =>
    if r.owner || !v.owner then s
    else ((s.updRing v.num (fun x => x.follow v)).recomputeCeil).reask

/-- Whether two records are of one command. -/
def CmdRecord.same (a b : CmdRecord) : Bool :=
  a.admin = b.admin && a.cntlid = b.cntlid && a.sqid = b.sqid && a.cid = b.cid

/-- The first element that satisfies `p` taken out of a list. -/
def dropFirst {α : Type} (p : α → Bool) : List α → List α
  | [] => []
  | x :: l => if p x then l else x :: dropFirst p l

/-- The list of the peer's commands after one more record (R259, R274): INTAKE adds one, ADMITTED takes it from its queue
and keeps the capsule, later ones change it in place, FREED and SQUASHED end it. -/
def takeRecord (l : List CmdRecord) (r : CmdRecord) : List CmdRecord :=
  let queued := fun (x : CmdRecord) => x.same r && x.kind = .intake
  let tagged := fun (x : CmdRecord) => x.same r && x.kind ≠ .intake && (r.admin || x.tag = r.tag)
  match r.kind with
  | .intake => (if r.admin then l.filter (fun x => !x.same r) else l) ++ [r]
  | .admitted => dropFirst queued l ++ [{ r with capsule := (l.find? queued).bind (fun x => x.capsule) }]
  | .committed => updWhere tagged (fun x => { r with capsule := x.capsule }) l
  | .responding =>
    if r.admin then l.filter (fun x => !x.same r) ++ [r]
    else updWhere tagged (fun x => { r with capsule := x.capsule, vmark := x.vmark }) l
  | .freed => l.filter (fun x => !tagged x)
  | .squashed => if l.any tagged then l.filter (fun x => !tagged x) else dropFirst queued l

/-- A CMDSTATE record of the peer; the head of its queue passes a capsule that leaves it (R58). -/
def State.applyRecord (s : State) (r : CmdRecord) : State :=
  let left := !r.admin && (r.kind = .admitted ||
    (r.kind = .squashed && !s.rfx.peerCmds.any (fun x => x.same r && x.kind ≠ .intake && x.tag = r.tag)))
  s.updRfx (fun x => { x with
    peerCmds := takeRecord x.peerCmds r,
    peerXports := if left then
        updWhere (fun (c : XportRecord) => c.cntlid = r.cntlid && c.sqid = r.sqid && r.sqid ≠ 0)
          (fun c => { c with sqhd := (c.sqhd + 1) % Nat.max c.qsize 1 }) x.peerXports
      else x.peerXports })

/-- An XPORT record of the peer (R262); one without a subsystem ends its connection's (log 47). -/
def State.applyXport (s : State) (r : XportRecord) : State :=
  s.updRfx (fun x => { x with
    peerXports := x.peerXports.filter (fun c => c.conn ≠ r.conn) ++ (if r.vsid = 512 then [] else [r]) })

/-- A forwarded write marks the regions of a migration that it touches (R304). -/
def State.markForward (s : State) (es : List MirBlock) : State :=
  let regs := fun (e : MirBlock) =>
    if e.ranges.isEmpty then [(e.nsid, e.lba / 16384)]
    else e.ranges.flatMap (fun r =>
      (natsFrom (r.1 / 16384) ((r.1 + r.2 - 1) / 16384 + 1 - r.1 / 16384)).map (fun x => (e.nsid, x)))
  es.foldl (fun t e => t.markMig e.vsid (regs e)) s

/-- A forward of the peer for rings mastered here (R22, R82): its data enters the own region. Under mirror degree 2 it goes to the
second holder, and its MIRACK waits for that copy (log 76); where no second copy can be sent it commits by R78 (R81). A
write in normal service without a second copy is at its commit point, and supersedes older versions (R77). -/
def State.takeForward (s0 : State) (mseq : Nat) (es : List MirBlock) : State :=
  let s := s0.markForward es
  let own := es.filter (fun e => s.owns e.ring)
  let vers := own.map (fun e => e.version)
  let two := s.cfg Reg.hceWbctl 9 8 = 2 && !own.isEmpty
  let es1 := if s.lacks2 then es.map (fun e => { e with writeThrough := true }) else es
  let s1 := s.applyBlocks es1 false two
  if two then
    let s2 := s1.mirSend2 (.mirror (.blocks own))
    if mseq = 0 then s2 else s2.updRfx (fun x => { x with hold2 := x.hold2 ++ [(mseq, s2.lastMseq2, vers)] })
  else s1.commitForwarded vers

/-- One frame of the peer's stream applied; none while a forward finds no space below the ceiling (R82). With an effective
ceiling of 0 every write commits by R78, and none is held back (R95; log 36). -/
def State.rxApply (s : State) (mseq : Nat) (b : StreamBody) : Option State :=
  match b with
  | .mirror (.blocks es) => some (s.applyBlocks es false false)
  | .mirror (.joinCopy es) => some (s.applyBlocks es true false)
  | .mirror (.free fs) => some (fs.foldl State.applyFree s)
  | .mirror (.lines ls) => some (ls.foldl State.applyLine s)
  | .mirror (.ring r) => some (s.applyRing r)
  | .fwd es =>
    let own := es.filter (fun e => s.owns e.ring)
    if s.hce.effCeil ≠ 0 && !own.isEmpty && s.hce.effCeil * gibBlocks < s.ownBlocks + own.length then none
    else some (s.takeForward mseq es)
  | .cmd r => some (s.applyRecord r)
  | .xport x => some (s.applyXport x)

/-! ## The receiving side of the peer's stream (R254 to R256) -/

/-- Frames held back are applied in order (R254); those of the routed path bear MSEQ 0 (log 46). -/
def State.rxDrain : Nat → State → State
  | 0, s => s
  | n + 1, s =>
    match s.rfx.rxHeld.find? (fun e => e.1 = 0 || e.1 = s.rfx.rxApplied + 1) with
    | none => s
    | some e =>
      match s.rxApply e.1 e.2 with
      | none => s
      | some t =>
        State.rxDrain n (t.updRfx (fun x => { x with
          rxHeld := dropFirst (fun y => y.1 = e.1) x.rxHeld, rxUnacked := x.rxUnacked + 1,
          rxApplied := if e.1 = 0 then x.rxApplied else e.1 }))

def State.rxDrainAll (s : State) : State := State.rxDrain (s.rfx.rxHeld.length + 1) s

/-- A forward that waited for its second copy is held: the second holder has it, no second copy is due any more, or, where none
could be sent, its data is on the medium (R81, R82). -/
def State.forwardHeld (s : State) (h : Nat × Nat × List Nat) : Bool :=
  s.cfg Reg.hceWbctl 9 8 ≠ 2 || (s.mirror2 && h.2.1 ≤ s.rfx.out2.acked) ||
    !(s.hce.wb.any (fun e => e.owner = 1 && !e.mirror && !e.dead && hasNat h.2.2 e.ver) ||
      s.hce.deallocs.any (fun d => d.tag = noTag && !d.mirror && hasNat h.2.2 d.ver))

/-- Forwards whose second copies are held reach their commit point, and their MIRACK waits no more (R82). -/
def State.settleForwards (s : State) : State :=
  let done := s.rfx.hold2.filter s.forwardHeld
  (s.updRfx (fun x => { x with hold2 := x.hold2.filter (fun h => !s.forwardHeld h) })).commitForwarded (done.flatMap (fun h => h.2.2))

/-- The MSEQ that a MIRACK covers: the highest applied, below the first forward that still waits (R82, R255). -/
def State.ackable (s : State) : Nat := s.rfx.hold2.foldl (fun a h => Nat.min a (h.1 - 1)) s.rfx.rxApplied

/-- A MIRACK to the peer on an up midplane port (R233, R255). -/
def State.sendMirack (s : State) : State :=
  let t := s.settleForwards
  match t.peerPort with
  | none => t
  | some p =>
    ((t.emit (.mirack t.rfx.peer.fid t.ackable t.mirrorRoom)).xbarRelti p t.rfx.peer.fid 0x09 16).updRfx (fun x => { x with
      rxUnacked := 0 })

/-- A frame of the peer's stream arrives (R254 to R256): a frame applied before is discarded, one that comes early is held in
the reorder buffer of 4 MiB, and 64 frames bring a MIRACK. -/
def State.rxFrame (s : State) (mseq : Nat) (b : StreamBody) : State :=
  if !s.rfx.peer.joined then s
  else if mseq ≠ 0 && mseq ≤ s.rfx.rxApplied then s.updRfx (fun x => { x with rxUnacked := x.rxUnacked + 1 })
  else if mseq ≠ 0 && s.rfx.rxHeld.any (fun e => e.1 = mseq) then s
  else if mseq ≠ s.rfx.rxApplied + 1 && 4194304 < sumNat (s.rfx.rxHeld.map (fun e => e.2.size)) + b.size then s
  else
    let s1 := (s.updRfx (fun x => { x with rxHeld := x.rxHeld ++ [(mseq, b)] })).rxDrainAll
    if 64 ≤ s1.rfx.rxUnacked then s1.sendMirack else s1

/-- A frame of a stream for which this module is second holder (R75, R253, R280): it keeps block data and free notices, in
order, and answers each with a MIRACK that reports its free mirror space. A stream that opens again starts at 1. -/
def State.secondFrame (s : State) (src mseq : Nat) (b : MirBody) : State :=
  let ack := fun (t : State) (m : Nat) =>
    let t1 := t.emit (.mirack src m t.secondRoom)
    match t1.routePort src with
    | some p => t1.xbarRelti p src 0x09 16
    | none => t1
  let mine := fun (e : WbEntry) => e.owner = 2 + src
  let old := ((s.rfx.second.find? (fun e => e.1 = src)).map (fun e => e.2)).getD 0
  let s0 := if mseq = 1 && old ≠ 0 then s.updHce (fun h => { h with wb := h.wb.filter (fun e => !mine e) }) else s
  let last := if mseq = 1 then 0 else old
  if mseq ≤ last then ack s old
  else if mseq ≠ last + 1 then s
  else
    let put := fun (es : List MirBlock) =>
      State.wakeStacks (s0.updHce (fun h => { h with
        wb := h.wb ++ ((es.filter (fun e => e.ranges.isEmpty)).map (fun e =>
          (⟨e.vsid, e.nsid, e.lba, e.version, e.ring, e.data, e.smask, true, false, false, false, false, s.now, 2 + src, false⟩ : WbEntry))) }))
    let s1 := match b with
      | .blocks es => put es
      | .joinCopy es => put es
      | .free fs => s0.updHce (fun h => { h with
          wb := h.wb.filter (fun e => !(mine e && fs.any (fun f =>
            e.vsid = f.vsid && e.nsid = f.nsid && f.lba ≤ e.blk && e.blk < f.lba + f.nlb && e.ver ≤ f.version))) })
      | .lines _ => s0
      | .ring _ => s0
    ack (s1.updRfx (fun x => { x with second := x.second.filter (fun e => e.1 ≠ src) ++ [(src, mseq)] })) mseq

/-- MIRROR_RECEIVE (R75, R76, R254, R257). -/
def execMirrorReceive (src mseq : Nat) (body : MirBody) (s : State) : Host.Outcome State Fault Refusal :=
  if src = s.rfx.peer.fid then .next (s.rxFrame mseq (.mirror body)) else .next (s.secondFrame src mseq body)

/-- CMDSTATE_RECEIVE (R259). -/
def execCmdstateReceive (mseq : Nat) (r : CmdRecord) (s : State) : Host.Outcome State Fault Refusal :=
  .next (s.rxFrame mseq (.cmd r))

/-- XPORT_RECEIVE (R262). -/
def execXportReceive (mseq : Nat) (x : XportRecord) (s : State) : Host.Outcome State Fault Refusal :=
  .next (s.rxFrame mseq (.xport x))

/-- FWD_RECEIVE (R22, R82, R258). -/
def execFwdReceive (mseq : Nat) (entries : List MirBlock) (s : State) : Host.Outcome State Fault Refusal :=
  .next (s.rxFrame mseq (.fwd entries))

/-- MIRACK_SEND (R255): 2 µs after a frame that is not acknowledged yet, or a forward that is held now (R82). A forward that
waited for space is tried again. -/
def execMirackSend (s : State) : Host.Outcome State Fault Refusal :=
  if !s.rfx.peer.joined then .next s
  else
    let s1 := s.rxDrainAll
    if s1.rfx.rxUnacked = 0 && !s1.rfx.hold2.any s1.forwardHeld then .next s1 else .next s1.sendMirack

/-! ## The sending side (R255, R256, R261) -/

/-- MIRACK_RECEIVE (R75, R255, R261): frames up to MSEQ are held by the receiver; what waited for them goes on. -/
def execMirackReceive (second : Bool) (mseq room : Nat) (s : State) : Host.Outcome State Fault Refusal :=
  let cover := fun (o : Stream) =>
    { o with acked := Nat.max o.acked (Nat.min mseq (o.next - 1)), out := o.out.filter (fun f => mseq < f.mseq) }
  if second then
    let t := s.updRfx (fun x => { x with out2 := cover x.out2, room2 := room })
    .next (if t.rfx.hold2.any t.forwardHeld then t.sendMirack else t)
  else if !s.rfx.out1.isOpen then .next s
  else
    let s1 := s.updRfx (fun x => { x with out1 := cover x.out1 })
    let s2 := s1.updHce (fun h => { h with
      conns := updWhere (fun k => k.held.any (fun m => m ≠ 2 ^ 48 && m ≤ s1.rfx.out1.acked)) (fun k => { k with held := none })
        h.conns })
    .next ((((s2.advanceAll).switchKeys).flushCheck).ackImages)

/-- MIRROR_RESEND_TIMEOUT (R256): a frame not covered within 20 µs goes out again on the next up midplane port. -/
def execMirrorResendTimeout (mseq : Nat) (s : State) : Host.Outcome State Fault Refusal :=
  match s.rfx.out1.out.find? (fun f => f.mseq = mseq) with
  | none => .next s
  | some f =>
    if s.now < f.sentAt + us 20 || !s.mirrorUp then .next s
    else
      let p := s.nextMidplane f.port
      let s1 := s.updRfx (fun x => { x with
        out1 := { x.out1 with out := updWhere (fun g => g.mseq = mseq) (fun g => { g with port := p, sentAt := s.now }) x.out1.out } })
      .next (((s1.emit (.stream false mseq p f.body)).xbarRelti p s.rfx.peer.fid f.body.typ f.body.size).bump Reg.rfxMirrtx)

/-- JOIN_COPY_COMPLETE (R80): the peer holds the last frame of the copy. -/
def execJoinCopyComplete (s : State) : Host.Outcome State Fault Refusal :=
  match s.rfx.joinMseq with
  | some m =>
    if s.rfx.out1.isOpen && m ≤ s.rfx.out1.acked then
      .next ((s.updRfx (fun x => { x with joinMseq := none })).updHce (fun h => { h with wtJoinCopy := false }))
    else .next s
  | none => .next s

/-! ## Death and fence (R265 to R269) -/

/-- HEARTBEAT_LOSS (R266): no edge on HB_IN for 1 ms while HBEN is 1. -/
def execHeartbeatLoss (s : State) : Host.Outcome State Fault Refusal :=
  if s.cfgBit Reg.rfxTkcfg 1 then .next (s.declareDead 1) else .next s

/-- FENCE_DELAY_EXPIRY (R267): the survivor in slot B, 5 ms after its declaration. -/
def execFenceDelayExpiry (s : State) : Host.Outcome State Fault Refusal :=
  if s.tk.phase = .fencing && due s.tk.fenceDelay s.now then
    .next (s.updTk (fun k => { k with fenceDelay := none })).assertFence
  else .next s

/-- The datapath goes into reset for a fence while the rails stay: only the always-on state and what a restart keeps is left
(R268, R592). -/
def State.fenceReset (s : State) : State :=
  let t := s.rebooted
  { t with
    pwr := { s.pwr with up := false, lullRun := 0, dozeRun := 0, idents := [], util := [0, 0, 0, 0] }, bay := { s.bay with cmds := [] },
    tk := { t.tk with fenceIn := true, fenced := true } }

/-- FENCE_IN_ASSERTED (R268, R471, R523, R571, R620): drive ports in reset and contained, bay lines let go, transmitters
idle, cores and datapath in reset. A module that restarts, or that has tripped, powers down once it is fenced. -/
def execFenceInAsserted (s : State) : Host.Outcome State Fault Refusal :=
  if s.tk.fenceIn then .next s
  else if !s.pwr.up then .next (s.updTk (fun k => { k with fenceIn := true, fenced := true }))
  else
    let s1 := s.stopLive 5
    let s2 := (natsFrom 0 (Config.bays s.part)).foldl (fun t p =>
      (t.setPort p (fun q => { q with
        contained := true, cause := 5, holdEnd := none, perst := true, train := .down, trainEnd := none, reads := [], speed := 0,
        width := 0 })).emit (.pin (.perst p) false)) s1
    let s3 := if s.slot = .a && s2.bay.holder then
        ({ s2.dropBays with bay := { s2.dropBays.bay with bholdHigh := true } }).emit (.pin .bholdA true)
      else s2.dropBays
    let s4 := s3.hbStop.updTk (fun k => { k with fenceIn := true, fenced := true })
    match s.pwr.restart with
    | some r => .next (s4.restartDown r)
    | none => if s.pwr.tripped then .next (s4.powerDown false) else .next s4.fenceReset

/-- FENCE_IN_DEASSERTED (R268, R269, R470, R523): the fence is released; the module restarts as at power-up, leaving Standby.
Containment by the fence ends; drives that stayed powered come out of reset after the delay of R474 (log 48). -/
def execFenceInDeasserted (s : State) : Host.Outcome State Fault Refusal :=
  if !s.tk.fenceIn then .next s
  else
    let s1 := s.updTk (fun k => { k with fenceIn := false, fenced := false })
    let s2 := if s1.pwr.mode = .standby then s1.updPwr (fun p => { p with mode := .active }) else s1
    .next { s2 with bay := { s2.bay with
      ports := updWhere (fun q => q.contained && q.cause = 5) (fun q => { q with contained := false, stuck := false }) s2.bay.ports
      bays := updWhere (fun b => b.st = .powered || b.st = .ready)
        (fun b => { b with st := .powered, perstAt := some (s.now + ms 100) }) s2.bay.bays } }

/-- The fence is released (R269). -/
def State.releaseFence (s : State) : State :=
  if s.tk.fenceOut then (s.updTk (fun k => { k with fenceOut := false })).emit (.pin .fenceOut true) else s

/-- FENCE_RELEASE (R269). -/
def execFenceRelease (m : Master) (s : State) : Host.Outcome State Fault Refusal :=
  .next (s.runCmd m 0x0401 (fun _ s =>
    s.checked m [(!s.tk.fenceOut, stConflict)] (fun s => s.releaseFence.finish m stOk [])))

/-- PEER_REMOVED (R269): the fenced slot reports its module removed. -/
def execPeerRemoved (s : State) : Host.Outcome State Fault Refusal := .next s.releaseFence

/-! ## Takeover (R270 to R276) -/

/-- Step 3 of R270 for one ring: its epoch rises and this module masters it. -/
def State.takeRing (s : State) (ring : Nat) : State :=
  match s.findRing ring with
  | none => s
  | some r => (s.sendEpoch ring (r.epoch + 1)).masterRing ring (r.epoch + 1)

/-- The association of a mirrored admin queue, its Keep Alive timer started again (R262, R273). -/
def XportRecord.ctrl (x : XportRecord) (now : Nat) : Ctrl :=
  { cntlid := x.cntlid, vsid := x.vsid, hostNqn := x.hostNqn, discovery := x.discovery, conn := x.conn, adminSize := x.qsize,
    adminSqhd := x.sqhd, ccEn := x.ccEn, rdy := x.csts % 2 = 1, cc := x.cc, shn := bitsOf x.cc 15 14, shst := x.csts / 4,
    resetting := !x.ccEn && x.csts % 2 = 1, resetDisc := none, resetEnds := false, kato := x.kato,
    kaDeadline := if x.kato = 0 then none else some (now + katoNs x.kato), granted := x.granted, featArb := x.features.getD 0 0,
    featTemp := x.features.getD 1 0, featAer := x.features.getD 2 0, featHostId := x.features.getD 3 0, aers := [], aborts := [],
    errLog := [], changed := [], events := [], adminWait := [] }

/-- Step 4 of R270 for one connection (R272, R273): it goes on at its mirrored point on the port that carries its identity.
One whose number is in use here is not resumed (log 47). -/
def State.resumeConn (s : State) (x : XportRecord) : State :=
  if (s.findConn x.conn).isSome then s
  else
    let bound := if x.cntlid = 0xFFFF then none else some (x.cntlid, x.sqid)
    let k : HConn :=
      { id := x.conn, port := s.identPort (4 + x.port), addr := x.addr, transport := x.transport, vsid := x.vsid, unit := x.mtu,
        hdgst := x.hdgst, ddgst := x.ddgst, icDone := x.transport = .tcp, tls := x.tls, bound := bound,
        auth := if bound.isSome then .done else .idle, held := none, rcvNext := x.rcvNext, sndUna := x.sndUna,
        sndNext := x.sndNext, tc := x.tc, path := x.path, dscp := x.dscp, ece := x.ece, pduBuf := x.pduBuf,
        pduLeft := x.pduLeft }
    let s1 := s.updHce (fun h => { h with conns := h.conns ++ [k] })
    let s2 := if bound.isNone then s1
      else if x.sqid = 0 then
        (if (s1.findCtrl x.cntlid).isSome then s1
         else (s1.updHce (fun h => { h with ctrls := h.ctrls ++ [x.ctrl s.now] })).addHost x.hostNqn)
      else s1.updHce (fun h => { h with
        sqs := h.sqs ++ [(⟨x.cntlid, x.sqid, x.qsize, x.sqhd, [], x.conn, x.vsid, false, none⟩ : SubQ)] })
    let s3 := if x.tls then
        let keys := Config.unwrapKeys Config.pairKey x.wrappedKeys
        let ctx : TlsCtx := ⟨x.conn, x.psk, keys.1, keys.2, x.writeSeq, x.readSeq, none⟩
        s2.updKvt (fun v => { v with tls := v.tls ++ [ctx] })
      else s2
    s3.resumeAt k

/-- A read whose data release had begun is past its commit point: it is served from versions at or below VMARK or from the
medium (R264, R274), alone (R131), and a lost extent that it meets is its result (R53). -/
def State.reread (s : State) (r : TagRec) : State :=
  match s.findNs r.vsid r.cap.nsid with
  | none => s
  | some n =>
    let (b0, cnt) := n.touch r.cap.slba r.cap.nlb
    let near := fun (b : Nat) =>
      match newestOf (s.versions n.vsid n.nsid b r.vmark) with
      | some e => some e.2.1
      | none => (s.cached n.vsid n.nsid b).map (fun e => s.unseal n b e.1 e.2)
    let bs := natsFrom b0 cnt
    let miss := bs.filter (fun b => (near b).isNone)
    let hits := bs.filter (fun b =>
      (newestOf (s.versions n.vsid n.nsid b r.vmark)).isNone && (s.cached n.vsid n.nsid b).isSome)
    let full := { r with st := .committed, blocks := bs.map near }
    let s1 := (s.countSources n hits.length miss.length).updTag r.tag (fun _ => full)
    match s1.findRing n.ring with
    | none => s1
    | some g =>
      if s.rangeLost n r.cap.slba r.cap.nlb then s1.rereadDone full n true
      else if miss.isEmpty then s1.rereadDone full n false
      else s1.startGather (.tag r.tag) (rowNeeds g (miss.map n.rba))

/-- Step 5 of R270 for one I/O command with its capsule (R274): by its last record it is queued, executed from the start, its
data sent again, or its completion sent again. A command that finds no tag waits at the head of its queue. -/
def State.reenterIo (s : State) (r : CmdRecord) (c : Capsule) (q : SubQ) : State :=
  if r.kind = .intake then
    s.updSq r.cntlid r.sqid (fun y => { y with entries := y.entries ++ [some (s.now, c)] })
  else if 262144 ≤ s.hce.tags.length then
    s.updSq r.cntlid r.sqid (fun y => { y with entries := some (s.now, c) :: y.entries })
  else
    let t := { s.newTag q c s.now with alone := true }
    let s1 := s.grantTag t
    let tr := ((s.findConn q.conn).map (fun k => k.transport)).getD .tcp
    match r.kind, r.cqe with
    | .responding, some st =>
      -- its work is done: by way of COMMITTED, its completion is handed over again (R52)
      (s1.updTag t.tag (fun x => { x with st := .committed, result := some st })).handOff t st
    | .committed, _ =>
      if c.opcode = 2 then
        (match (s1.updTag t.tag (fun x => { x with vmark := r.vmark })).findTag t.tag with
         | some x => (s1.updTag t.tag (fun y => { y with vmark := r.vmark })).reread x
         | none => s1)
      else
        (match s.findNs q.vsid c.nsid with
         | some n => s1.takeLocks t n
         | none => s1.failTag t.tag cplInvalidNs)
    | _, _ =>
      match s.ioCheck q.vsid tr c with
      | some st => s1.failTag t.tag st
      | none =>
        if c.commitsAtOnce then s1.updTag t.tag (fun x => { x with st := .committed })
        else
          match s.findNs q.vsid c.nsid with
          | some n => s1.takeLocks t n
          | none => s1

/-- Step 5 of R270 for one admin command (R274): a Format that runs completes at DONE, an Asynchronous Event Request stays
outstanding, any other is executed again. -/
def State.reenterAdmin (s : State) (r : CmdRecord) : State :=
  let c := r.cntlid
  if (s.findCtrl c).isNone then s
  else if r.kind = .responding then
    (match r.cqe with
     | some st => s.adminCqe c r.cid st r.dw0
     | none => s)
  else if r.adminOpcode = 0x0C then s.updCtrl c (fun y => { y with aers := y.aers ++ [r.cid] })
  else if r.adminOpcode = 0x7F then s.beginReset c (some r.cid) true
  else if r.adminOpcode = 0x08 then s.doAbort c r.cid (r.args.getD 0 0) (r.args.getD 1 0)
  else if r.adminOpcode = 0x18 then s.adminDone c r.cid cplSuccess 0
  else if r.adminOpcode = 0x02 then s.doLog c r.cid (r.args.getD 0 0)
  else
    let runs := fun (p : Progress) => p.vsid = r.vsid && p.nsid = r.args.getD 0 0 && p.op ≤ 3 && p.cmd.isNone
    if r.adminOpcode = 0x80 && s.hce.progress.any runs then
      s.updHce (fun h => { h with progress := updWhere runs (fun p => { p with cmd := some (c, r.cid) }) h.progress })
    else s.updCtrl c (fun y => { y with adminWait := y.adminWait ++ [some r.instr] })

/-- A mirrored command re-entered. -/
def State.reenter (s : State) (r : CmdRecord) : State :=
  if r.admin then s.reenterAdmin r
  else
    match r.capsule, s.findSq r.cntlid r.sqid with
    | some c, some q => s.reenterIo r c q
    | _, _ => s

/-- FENCE_HOLD_EXPIRY (R270 to R274): after the hold of 1 ms the dead module's rings are taken, its connections resumed and
its commands re-entered; admitted ones in their admission order, ahead of the queued ones. -/
def execFenceHoldExpiry (s : State) : Host.Outcome State Fault Refusal :=
  if s.tk.phase ≠ .hold || !due s.tk.fenceHold s.now then .next s
  else
    let rings := (s.rge.rings.filter (fun r => !r.owner && r.master = some s.rfx.peer.fid)).map (fun r => r.num)
    let s1 := s.updTk (fun k => { k with fenceHold := none, phase := .resuming })
    let s1' := rings.foldl State.takeRing s1
    let s2 := s1'.resumeOps ((s1'.rge.rings.filter (fun r => r.owner)).map (fun r => r.num))
    let s3 := s2.rfx.peerXports.foldl State.resumeConn s2
    let cmds := s3.rfx.peerCmds.filter (fun r => r.kind ≠ .intake) ++ s3.rfx.peerCmds.filter (fun r => r.kind = .intake)
    let s4 := (cmds.foldl State.reenter s3).adminAll
    let s5 := s4.updRfx (fun x => { x with peerCmds := [], peerXports := [] })
    .next (s5.updTk (fun k => { k with
      phase := .draining, count := satAt 255 (k.count + 1), lastUs := (s.now - k.declaredAt) / 1000 }))

/-- ANNOUNCEMENT_REPEAT (R272): the second and third announcement of an identity's addresses, at intervals of 1 ms. -/
def execAnnouncementRepeat (identity : Nat) (s : State) : Host.Outcome State Fault Refusal :=
  let mine := fun (a : Announce) => a.id = identity && 0 < a.left && a.nextAt ≤ s.now
  let s1 := (s.tk.announces.filter mine).foldl (fun t a => t.emit (.announce a.port a.addr)) s
  .next (s1.updTk (fun k => { k with
    announces := (updWhere mine (fun a => { a with left := a.left - 1, nextAt := a.nextAt + ms 1 }) k.announces).filter
      (fun a => 0 < a.left) }))

/-- TAKEOVER_DATA_DRAINED (R28, R270, R278): every taken-over block is on the medium. -/
def execTakeoverDataDrained (s : State) : Host.Outcome State Fault Refusal :=
  if s.tk.phase ≠ .draining || s.hce.wb.any (fun e => e.owner = 1 && !e.mirror && !e.dead) ||
      s.hce.deallocs.any (fun d => d.tag = noTag && !d.mirror) then .next s
  else .next ((s.updTk (fun k => { k with phase := .idle })).updHce (fun h => { h with wtTakeover := false }))

/-! ## An activation that fails (R433) -/

/-- ACTIVATION_TIMEOUT (R419, R433): 500 ms without the new firmware: HB_OUT stops, and the module restarts on its previous
slot with FALLBACK set; the result of FW_ACTIVATE is lost. -/
def execActivationTimeout (s : State) : Host.Outcome State Fault Refusal :=
  match s.mbx.activating with
  | none => .next s
  | some (_, t) =>
    if s.now < t then .next s
    else
      let s1 := (s.updMbx (fun x => { x with activating := none, runSlot := x.prevSlot })).hbStop
      .next ((s1.powerDown true).raiseFlag Reg.mbxFwstat 5)

end Sys2Proof.Machine
end

