-- ==== Sys2Proof/Machine/Calibration.lean ====
section
/-! DEFINITION. Live calibration (chapter 17): margin scans and port retrains, HBM retraining, offsets of the current-sense
amplifiers, trims of the temperature sensors. Ports are 0 to 3 for H0 to H3, 4 to 7 for F0 to F3, and 8 upward for the drive
ports. -/

namespace Sys2Proof.Machine

def State.updLcu (s : State) (f : LcuSt → LcuSt) : State := { s with lcu := f s.lcu }

/-! ## Margin scans (R528 to R530) -/

/-- The port of a lane as LCU.LNQRY numbers lanes. -/
def lanePort (lane : Nat) : Option Nat :=
  if lane < 16 then some (lane / 4)
  else if lane < 24 then some (4 + (lane - 16) / 2)
  else if 32 ≤ lane && lane < 80 then some (8 + (lane - 32) / 2)
  else none

/-- The lanes of a port. -/
def portLanes (port : Nat) : List Nat :=
  if port < 4 then natsFrom (4 * port) 4
  else if port < 8 then natsFrom (16 + 2 * (port - 4)) 2
  else natsFrom (32 + 2 * (port - 8)) 2

/-- The part has the port. -/
def portPresent (p : Part) (port : Nat) : Bool :=
  if port < 4 then port < Config.hostPorts p
  else if port < 8 then port - 4 < Config.fabPorts p
  else port - 8 < Config.bays p

/-- The link of a port is up. -/
def State.linkUp (s : State) (port : Nat) : Bool :=
  if port < 4 then hasNat s.mac.hostUp port
  else if port < 8 then (s.fabPort (port - 4)).pcs
  else (s.portOf (port - 8)).train = .l0

def State.laneOf (s : State) (lane : Nat) : LaneSt :=
  (s.lcu.lanes.find? (fun l => l.lane = lane)).getD ⟨lane, 0, 0, 0, false, false, none⟩

def State.putLane (s : State) (x : LaneSt) : State :=
  s.updLcu (fun l => { l with lanes := l.lanes.filter (fun y => y.lane ≠ x.lane) ++ [x] })

/-- The threshold register of a port. -/
def thrReg (port : Nat) : Nat := if port < 8 then Reg.lcuSdthr else Reg.lcuDpthr

/-- A scan below either retrain threshold (R530). -/
def State.lowScan (s : State) (port : Nat) (r : ScanResult) : Bool :=
  r.height < s.cfg (thrReg port) 23 16 || r.width < s.cfg (thrReg port) 7 0

/-- A scan below either warning threshold. -/
def State.warnScan (s : State) (port : Nat) (r : ScanResult) : Bool :=
  r.height < s.cfg (thrReg port) 31 24 || r.width < s.cfg (thrReg port) 15 8

/-- A scan result entered for its lane: it raises or resets the lane's count. On a host or fabric port, too many hard RS-FEC
corrections in the scan period raise it as well (R530; log 49). -/
def State.noteScan (s : State) (lane port : Nat) (r : ScanResult) : State :=
  let x := s.laneOf lane
  let low := s.lowScan port r || (port < 8 && s.cfg Reg.lcuFeclim 23 0 < r.fecHigh)
  s.putLane
    { lane := lane, eyeH := satAt 255 r.height, eyeW := satAt 255 r.width, below := if low then satAt 15 (x.below + 1) else 0,
      warn := s.warnScan port r, scanning := false, started := x.started }

/-- A lane is due for a scan: SCAN seconds have passed since its last one started (R528). -/
def State.scanDue (s : State) (lane : Nat) : Bool :=
  match (s.laneOf lane).started with
  | none => true
  | some t => t + sec (s.cfg Reg.lcuSdcfg 7 0) ≤ s.now

/-- MARGIN_SCAN (R528): a lane's scan starts when it is due, one lane of a port at a time, while its link is up. -/
def execMarginScan (lane : Nat) (s : State) : Host.Outcome State Fault Refusal :=
  match lanePort lane with
  | none => .next s
  | some p =>
    let busy := (portLanes p).any (fun l => (s.laneOf l).scanning)
    if s.pwr.up && s.cfgBit Reg.lcuSdcfg 31 && portPresent s.part p && s.linkUp p && !busy && s.scanDue lane then
      .next (s.putLane { s.laneOf lane with scanning := true, started := some s.now })
    else .next s

/-! ## When a retrain may start (R531, R536) -/

/-- A stripe of the ring has an unavailable chunk (R185). -/
def Ring.degraded (r : Ring) : Bool :=
  r.slots.any (fun m => (m.st ≠ .online && m.st ≠ .unused) || m.localBad) &&
    (natsFrom 0 r.stripes).any (fun st => 0 < r.levelOf st)

/-- A host port to which the identities of `p` can move: up, with its own identity alone; the least used one, or the lowest of
several (R532). -/
def State.rtTarget (s : State) (p : Nat) : Option Nat :=
  leastBy (fun q => s.pwr.util.getD q 0) ((natsFrom 0 4).filter (fun q => q ≠ p && s.ownOnly q))

/-- The conditions of R531 for a drive port. -/
def State.driveRtOk (s : State) (d : Nat) : Bool :=
  !s.tk.fenced && s.lcu.dpRun.isNone && s.rge.rings.all (fun r =>
    !r.slots.any (fun m => m.bay = some d) ||
      (!r.degraded && !r.slots.any (fun m => m.bay = some d && (m.st = .failed || m.st = .replacing))))

/-- The conditions of R531. Only one port of each kind retrains at a time. -/
def State.rtOk (s : State) (port : Nat) : Bool :=
  if port < 4 then
    s.pwr.mode ≠ .doze && !s.hce.wtTakeover && s.mbx.activating.isNone && (s.rtTarget port).isSome &&
      !s.lcu.retrains.any (fun r => r.port < 4)
  else if port < 8 then
    let f := port - 4
    let mid := Config.midplane s.part
    !s.lcu.retrains.any (fun r => 4 ≤ r.port) &&
      (if hasNat mid f then (if mid.length = 1 then s.f0Ok else (s.upMidplane.any (fun q => q ≠ f)))
       else (natsFrom 0 4).any (fun q => q ≠ f && (s.fabPort q).up))
  else s.driveRtOk (port - 8)

/-- A retrain, or the traffic move of a port test, starts: the identities move (R532), the routes move (R535), the peer is told
(R536), or the drive port's member is left out (R537). -/
def State.beginRetrain (s : State) (port : Nat) (forTest : Bool) : State :=
  let s0 := s.updLcu (fun l => { l with
    defer := dropNat l.defer port, dpDefer := if 8 ≤ port then dropNat l.dpDefer (port - 8) else l.dpDefer })
  let add := fun (t : State) (r : Retrain) => t.updLcu (fun l => { l with retrains := l.retrains ++ [r] })
  if port < 4 then
    match s0.rtTarget port with
    | none => s0
    | some q =>
      let s1 := add s0 ⟨port, q, .relearn, some (s.now + ms 5), forTest⟩
      (s0.identsOn port).foldl (fun t i => t.moveIdent i q) s1
  else if port < 8 then
    if hasNat (Config.midplane s.part) (port - 4) && (Config.midplane s.part).length = 1 then
      let s1 := add s0 ⟨port, port, .notice, some (s.now + ms 1), forTest⟩
      s1.sendStatus
    else (add s0 ⟨port, port, .routeMove, some (s.now + ms 1), forTest⟩).sendLsa
  else s0.beginDpRun (port - 8)

/-- A wanted retrain is deferred, counted once (R531). -/
def State.deferRetrain (s : State) (port : Nat) : State :=
  if port < 8 then
    if hasNat s.lcu.defer port then s else (s.updLcu (fun l => { l with defer := l.defer ++ [port] })).bump Reg.lcuDefers
  else if hasNat s.lcu.dpDefer (port - 8) then s
  else (s.updLcu (fun l => { l with dpDefer := l.dpDefer ++ [port - 8] })).bump Reg.lcuDefers

/-- A retrain of the port runs, or the port is parked. -/
def State.rtBusy (s : State) (port : Nat) : Bool :=
  s.lcu.retrains.any (fun r => r.port = port) || s.lcu.parked.any (fun r => r.1 = port) ||
    (8 ≤ port && s.lcu.dpRun = some (port - 8))

/-- The port of the live test that runs. -/
def State.testedPort (s : State) : Option Nat :=
  match s.tst.live with
  | some l => if l.test = 1 then some l.unit else if l.test = 2 then some (4 + l.unit) else if l.test = 3 then some (8 + l.unit) else none
  | none => none

/-- A port is judged after a scan: its retrain starts when one is wanted and the conditions hold, and is deferred else, as
during a test of the port (R530, R531, R571). -/
def State.judgePort (s : State) (port : Nat) : State :=
  let wanted := s.cfgBit Reg.lcuSdcfg 30 && (portLanes port).any (fun l => s.cfg Reg.lcuSdcfg 11 8 ≤ (s.laneOf l).below)
  if !wanted then
    s.updLcu (fun l => { l with
      defer := dropNat l.defer port, dpDefer := if 8 ≤ port then dropNat l.dpDefer (port - 8) else l.dpDefer })
  else if s.testedPort = some port then s.deferRetrain port
  else if s.rtBusy port then s
  else if s.rtOk port then s.beginRetrain port false
  else s.deferRetrain port

/-- MARGIN_SCAN_COMPLETE (R528 to R531): a scan that the loss of its link has cut gives no result. -/
def execMarginScanComplete (lane : Nat) (r : ScanResult) (s : State) : Host.Outcome State Fault Refusal :=
  match lanePort lane with
  | none => .next s
  | some p =>
    if !(s.laneOf lane).scanning then .next s
    else if !s.linkUp p then .next (s.putLane { s.laneOf lane with scanning := false })
    else .next ((s.noteScan lane p r).judgePort p)

/-! ## Port retrains (R532 to R537) -/

def State.updRetrain (s : State) (port : Nat) (f : Retrain → Retrain) : State :=
  s.updLcu (fun l => { l with retrains := updWhere (fun r => r.port = port) f l.retrains })

/-- RELEARN_WAIT_EXPIRY (R532 steps 3 and 4). -/
def execRelearnWaitExpiry (s : State) : Host.Outcome State Fault Refusal :=
  match s.lcu.retrains.find? (fun r => r.phase = .relearn && due r.deadline s.now) with
  | some r => .next (s.updRetrain r.port (fun x => { x with phase := .draining, deadline := none }))
  | none => .next s

/-- The traffic of a port under test has moved; its run begins. -/
def State.testRuns (s : State) (r : Retrain) : State :=
  if r.forTest then { s with tst := { s.tst with live := s.tst.live.map (fun l => { l with moving := false }) } } else s

/-- EGRESS_DRAINED (R532 step 5): the egress queues are empty, and the link goes down. -/
def execEgressDrained (s : State) : Host.Outcome State Fault Refusal :=
  match s.lcu.retrains.find? (fun r => r.phase = .draining && (s.egPort r.port).queue.isEmpty) with
  | some r =>
    let s1 := { s with mac := { s.mac with hostUp := dropNat s.mac.hostUp r.port } }
    .next ((s1.updRetrain r.port (fun x => { x with phase := .training })).testRuns r)
  | none => .next s

/-- ROUTE_MOVE_WAIT (R535): 1 ms after the LSA the link goes down. -/
def execRouteMoveWait (s : State) : Host.Outcome State Fault Refusal :=
  match s.lcu.retrains.find? (fun r => r.phase = .routeMove && due r.deadline s.now) with
  | some r =>
    let s1 := s.updRetrain r.port (fun x => { x with phase := .training, deadline := none })
    .next (((s1.portDown (r.port - 4)).setFabPort (r.port - 4) (fun f => { f with pcs := false })).testRuns r)
  | none => .next s

/-- A FABPORT test whose notice finds no acknowledgement ends as aborted. -/
def State.abortIfTest (s : State) (r : Retrain) : State := if r.forTest then s.stopLive 5 else s

/-- RETRAIN_NOTICE_TIMEOUT (R536 step 1): no acknowledgement came within 1 ms, and the retrain is deferred. -/
def execRetrainNoticeTimeout (s : State) : Host.Outcome State Fault Refusal :=
  match s.lcu.retrains.find? (fun r => r.phase = .notice && due r.deadline s.now) with
  | some r =>
    let s1 := (s.abortIfTest r).updLcu (fun l => { l with retrains := l.retrains.filter (fun x => x.port ≠ r.port) })
    .next (if r.forTest then s1 else s1.deferRetrain r.port)
  | none => .next s

/-- The end of step 6 of R532: with the check passed the link serves again, the identities move back, and after a retrain of
F0 on a KV-9616-B the exemption ends and the streams reopen (R536); with the check failed the port is parked for 10 min
(R533). -/
def State.endRetrain (s : State) (r : Retrain) (ok : Bool) : State :=
  let s1 := s.updLcu (fun l => { l with
    retrains := l.retrains.filter (fun x => x.port ≠ r.port), parked := l.parked.filter (fun x => x.1 ≠ r.port) })
  if !ok then s1.updLcu (fun l => { l with parked := l.parked ++ [(r.port, s.now + sec 600)] })
  else
    let s2 := if r.forTest then s1 else s1.bump Reg.lcuRetrains
    if r.port < 4 then
      let s3 := { s2 with mac := { s2.mac with hostUp := addNat s2.mac.hostUp r.port } }
      ([r.port, 4 + r.port] : List Nat).foldl (fun t i =>
        if t.identPort i ≠ r.port && (i < 4 || t.tk.idents.any (fun e => e.1 = i)) then t.moveIdent i r.port else t) s3
    else
      let f := r.port - 4
      let s3 := s2.setFabPort f (fun x => { x with pcs := true })
      if s.lcu.exempt && hasNat (Config.midplane s.part) f then
        let s4 := (s3.portUp f).updLcu (fun l => { l with exempt := false })
        if s4.rfx.peer.joined then s4.joinPeer else s4
      else s3

/-- The results of the check's scans are kept with the lanes. -/
def State.noteScans (s : State) (port : Nat) (scans : List ScanResult) : State :=
  ((portLanes port).zip scans).foldl (fun t e => t.noteScan e.1 port e.2) s

/-- RETRAIN_CHECK (R532 step 6, R533): every lane of a port that trains has been scanned: of the host port with four lanes, or of
the fabric port with two. -/
def execRetrainCheck (scans : List ScanResult) (s : State) : Host.Outcome State Fault Refusal :=
  match s.lcu.retrains.find? (fun r => r.phase = .training && !r.forTest && (portLanes r.port).length = scans.length) with
  | some r => .next ((s.noteScans r.port scans).endRetrain r (scans.all (fun x => !s.lowScan r.port x)))
  | none => .next s

/-- PARKED_RETRY (R533): every 10 min a parked port is retrained without moving anything, one port of a kind at a time. -/
def execParkedRetry (port : Nat) (s : State) : Host.Outcome State Fault Refusal :=
  let same := s.lcu.retrains.any (fun r => (r.port < 4) = (port < 4))
  if s.lcu.parked.any (fun e => e.1 = port && e.2 ≤ s.now) && !same then
    .next (s.updLcu (fun l => { l with
      parked := updWhere (fun e => e.1 = port) (fun e => (e.1, s.now + sec 600)) l.parked,
      retrains := l.retrains ++ [(⟨port, s.identPort port, .training, none, false⟩ : Retrain)] }))
  else .next s

/-- DRIVE_PORT_RETRAIN_END (R462, R537): the port is back in L0, or it is not within 250 ms and trains by R462. -/
def execDrivePortRetrainEnd (port : Nat) (ok : Bool) (s : State) : Host.Outcome State Fault Refusal :=
  if s.lcu.dpRun ≠ some port || s.testedPort = some (8 + port) then .next s
  else
    let s1 := s.bump Reg.lcuDpretrain
    .next (if ok then s1.endDpRun port else s1.train port)

/-! ## HBM retraining (R538 to R540) -/

/-- A stack's pass starts. -/
def HbmCal.start (h : HbmCal) (now stack : Nat) (temp : Int) : HbmCal :=
  { h with pass := some (stack, 0), lastPass := setAt h.lastPass stack (some (now, temp)) }

/-- A pass that waits starts once no other runs. -/
def HbmCal.turn (h : HbmCal) (now : Nat) : HbmCal :=
  match h.pass, h.waiting with
  | none, (k, t) :: ws => ({ h with waiting := ws } : HbmCal).start now k t
  | _, _ => h

/-- HBM_PASS (R538): a stack is passed when its interval is over or its temperature has moved, unless it is shed; after the pass
that runs, since pseudo-channels are retrained one at a time. -/
def execHbmPass (stack : Nat) (temp : Int) (s : State) : Host.Outcome State Fault Refusal :=
  let due_ := match s.lcu.hbm.lastPass.getD stack none with
    | none => true
    | some (t, c) => t + sec (s.cfg Reg.lcuHbmcfg 11 0) ≤ s.now || s.cfg Reg.lcuHbmcfg 20 16 ≤ (temp - c).natAbs
  if s.pwr.up && stack < 4 && s.cfgBit Reg.lcuHbmcfg 31 && !hasNat s.pwr.shed stack && due_ then
    .next (s.updLcu (fun l => { l with
      hbm := ({ l.hbm with waiting := l.hbm.waiting.filter (fun w => w.1 ≠ stack) ++ [(stack, temp)] } : HbmCal).turn s.now }))
  else .next s

/-- The next pseudo-channel: one that is wanted at once, else the next of the pass; the pass of a stack that is shed is
abandoned (R539, R540). -/
def State.nextPc (s : State) : Option Nat × Option (Nat × Nat) :=
  match s.lcu.hbm.urgent, s.lcu.hbm.pass with
  | u :: _, p => (some u, p)
  | [], some (k, ch) => if hasNat s.pwr.shed k then (none, none) else (some (32 * k + ch), if ch = 31 then none else some (k, ch + 1))
  | [], none => (none, none)

/-- HBM_SLICE (R539): one of the 40 slices of a pseudo-channel. A stack that waited to be shed is shed after its last. -/
def execHbmSlice (s : State) : Host.Outcome State Fault Refusal :=
  match s.lcu.hbm.pc with
  | none =>
    let (pc, pass) := s.nextPc
    .next (s.updLcu (fun l => { l with
      hbm := ({ l.hbm with pc := pc.map (fun c => (c, 1)), pass := pass } : HbmCal).turn s.now }))
  | some (c, n) =>
    if n + 1 < 40 then .next (s.updLcu (fun l => { l with hbm := { l.hbm with pc := some (c, n + 1) } }))
    else
      let s1 := (s.updLcu (fun l => { l with hbm := { l.hbm with pc := none, last := c, urgent := dropNat l.hbm.urgent c } })).bump
        Reg.lcuHbmrt
      .next (if s1.pwr.mode = .lull then s1.shedStacks 2 else if s1.pwr.mode = .doze then s1.shedStacks 1 else s1)

/-- ECC_BURST (R540). -/
def execEccBurst (pc : Nat) (s : State) : Host.Outcome State Fault Refusal :=
  if s.pwr.up && pc < 128 && !hasNat s.pwr.shed (pc / 32) then
    .next (s.updLcu (fun l => { l with hbm := { l.hbm with urgent := addNat l.hbm.urgent pc } }))
  else .next s

/-! ## Current sensing and temperature sensors (R541 to R545) -/

/-- A number held between `-m` and `m`. -/
def clampTo (m x : Int) : Int := if m < x then m else if x < -m then -m else x

/-- CHOP_AVERAGE (R541 to R543): the first estimate is taken whole, a later one by at most 10 µV; beyond 1.5 mV it is clamped
and reported. Channels 0 to 23 are the bays, 24 the eFuse. -/
def execChopAverage (channel : Nat) (microvolt : Int) (s : State) : Host.Outcome State Fault Refusal :=
  if !s.pwr.railsUp.any (fun r => r = .bpc) || 24 < channel || (channel < 24 && Config.bays s.part ≤ channel) then .next s
  else
    let e := clampTo 1500 microvolt
    let v := match s.lcu.offsets.getD channel none with
      | none => e
      | some o => o + clampTo 10 (e - o)
    let s1 := s.updLcu (fun l => { l with offsets := setAt l.offsets channel (some v) })
    .next (if e = microvolt then s1 else s1.raiseFlag Reg.lcuBpcoor (if channel = 24 then 31 else channel))

/-- One sensor against its diode, in 1/8 °C (R544, R545). -/
def trimOne (trim d : Int) (bad : Bool) : Int × Bool :=
  (trim - clampTo 2 d, if bad then 16 < d.natAbs else 64 < d.natAbs)

/-- SENSOR_TRIM (R544, R545): every 10 s each fast sensor is compared with its diode; `differences` are what it reads above it. -/
def execSensorTrim (differences : List Int) (s : State) : Host.Outcome State Fault Refusal :=
  if !s.pwr.up then .next s
  else
    let rs := (natsFrom 0 32).map (fun i =>
      match differences[i]? with
      | some d => trimOne (s.lcu.trims.getD i 0) d (hasNat s.lcu.faulty i)
      | none => (s.lcu.trims.getD i 0, hasNat s.lcu.faulty i))
    .next (s.updLcu (fun l => { l with
      trims := rs.map (fun r => r.1), faulty := (natsFrom 0 32).filter (fun i => (rs.map (fun r => r.2)).getD i false) }))

/-! ## Lane query (R528, R530) -/

/-- STATUS of a lane. -/
def State.laneStatus (s : State) (lane : Nat) : Nat :=
  match lanePort lane with
  | none => 0
  | some p =>
    if s.lcu.parked.any (fun r => r.1 = p) then 5
    else if s.rtBusy p then 3
    else if hasNat s.lcu.defer p || (8 ≤ p && hasNat s.lcu.dpDefer (p - 8)) then 4
    else if !s.linkUp p || !s.lcu.lanes.any (fun l => l.lane = lane && (l.eyeH ≠ 0 || l.eyeW ≠ 0 || l.below ≠ 0)) then 0
    else if (s.laneOf lane).warn then 2
    else 1

/-- A write of LCU.LNQRY latches LCU.LNDATA; a reserved lane number is out of range, and the write is ignored (R622). -/
def State.lnqryWrite (s : State) (w : Word) : State :=
  let lane := fieldOf w 6 0
  let x := s.laneOf lane
  if (24 ≤ lane && lane < 32) || 80 ≤ lane then s
  else (s.putReg Reg.lcuLnqry (w &&& regKept Reg.lcuLnqry)).updLcu (fun l => { l with
    lnData := place x.eyeH 24 ||| place x.eyeW 16 ||| place x.below 8 ||| place (s.laneStatus lane) 0 })

end Sys2Proof.Machine
end

