-- ==== Sys2Proof/Machine/Test.lean ====
section
/-! DEFINITION. The test unit (chapter 19): live tests, offline tests and test boot, boundary scan; and the time base (R595). -/

namespace Sys2Proof.Machine

def State.updTst (s : State) (f : TstSt → TstSt) : State := { s with tst := f s.tst }

/-! ## TEST_START (R567 to R582) -/

/-- TEST values that are not reserved, and the offline ones (R568). -/
def testKnown (t : Nat) : Bool := (1 ≤ t && t ≤ 9) || (0x10 ≤ t && t ≤ 0x13) || t = 0x1F
def testOffline (t : Nat) : Bool := 0x10 ≤ t

/-- The highest UNIT of a test. -/
def testUnits (t : Nat) : Nat :=
  if t = 1 || t = 2 then 3 else if t = 3 || t = 4 then 23 else if t = 5 then 15 else if t = 6 then 4 else if t = 7 then 127
  else if t = 9 then 7 else 0

/-- The unit of a test is not on the part. -/
def testAbsent (p : Part) (t u : Nat) : Bool :=
  (t = 1 && u ≤ 3 && !portPresent p u) || (t = 2 && u ≤ 3 && !portPresent p (4 + u)) ||
    ((t = 3 || t = 4) && u ≤ 23 && !portPresent p (8 + u)) || (t = 5 && !Config.hasCipher p) ||
    (t = 9 && u ≤ 7 && !portPresent p u)

/-- The own condition of a test fails (R573 to R578, R581). A shed stack wakes for its test, but not during an activation of
firmware (R521). -/
def State.testConflict (s : State) (t u : Nat) : Bool :=
  if t = 1 then !s.rtOk u
  else if t = 2 then !s.rtOk (4 + u)
  else if t = 3 then !s.driveRtOk u
  else if t = 4 then s.inUse u
  else if t = 5 then !s.kvt.lanesFailed.isEmpty
  else if t = 6 then !s.tst.plane.isEmpty
  else if t = 7 then
    (hasNat s.pwr.shed (u / 32) && s.mbx.activating.isSome) || hasNat s.lcu.hbm.urgent u
  else testOffline t && s.masters

/-- A live test starts: its record says "running", traffic moves away or the unit leaves service (R569, R572 to R578). -/
def State.startLive (s : State) (t u param : Nat) : State :=
  let s0 := (s.updTst (fun x => { x with
    live := some ⟨t, u, param, s.now, t = 1 || t = 2 || t = 4⟩, pieces := 0, errors := 0, firstBad := 0 })).putResult ⟨t, u, 1, 0, 0, 0, 0⟩
  let s1 := (s0.applyWt).holdWake
  if t = 1 then s1.beginRetrain u true
  else if t = 2 then s1.beginRetrain (4 + u) true
  else if t = 3 then s1.beginDpRun u
  else if t = 4 then
    let b := s1.bayOf u
    (s1.powerOff u (if b.st = .empty then .empty else .off)).setBay u (fun x => { x with debounceEnd := none, present := x.seated })
  else if t = 5 then s1.updKvt (fun k => { k with lanesOn := dropNat k.lanesOn u })
  else s1

/-- TEST_START (R567, R568, R570, R581): a live test runs beside the traffic; an offline one restarts the module into test
boot. PARAM 0 selects 1,000 ms; from 1 to 9 it is outside its range (log 50). -/
def execTestStart (m : Master) (s : State) : Host.Outcome State Fault Refusal :=
  .next (s.runCmd m 0x0A01 (fun c s =>
    let t := byteAt c.params 0
    let u := byteAt c.params 1
    let fl := byteAt c.params 2
    let p := leAt c.params 4 4
    s.checked m
      [(testAbsent s.part t u, stAbsent),
       (!testKnown t || testUnits t < u || 10000 < p || (p ≠ 0 && p < 10) || 1 < fl || byteAt c.params 3 ≠ 0, stInvalidParam),
       (s.tst.live.isSome, stBusy), (t = 4 && !s.bay.holder, stNotOwner), (s.testConflict t u, stConflict)]
      (fun s =>
        let s1 := s.finish m stOk []
        if testOffline t then s1.beginRestart 1 (some (t, fl % 2 = 1))
        else s1.startLive t u (if p = 0 then 1000 else p))))

/-- TEST_STOP (R571, R582): a live test stops and its unit returns to service; in test boot the boot goes on. -/
def execTestStop (m : Master) (s : State) : Host.Outcome State Fault Refusal :=
  .next (s.runCmd m 0x0A02 (fun _ s =>
    let s1 := s.finish m stOk []
    if s1.tst.boot then s1.boot [] else s1.stopLive 4))

/-- The 16 bytes of a record (R572). -/
def TestRec.bytes (r : TestRec) : List Byte :=
  leBytes 1 r.test ++ leBytes 1 r.unit ++ leBytes 1 r.status ++ leBytes 1 r.code ++ leBytes 4 r.errors ++ leBytes 4 r.where_ ++
    leBytes 4 r.elapsed

/-- The record of the last run of a test; STATUS 0 when it has never run. -/
def State.testRec (s : State) (t : Nat) : TestRec := (s.tst.results.find? (fun r => r.test = t)).getD ⟨t, 0, 0, 0, 0, 0, 0⟩

/-- TEST_RESULT (R567, R572). -/
def execTestResult (m : Master) (s : State) : Host.Outcome State Fault Refusal :=
  .next (s.runCmd m 0x0A03 (fun c s =>
    let t := byteAt c.params 0
    s.checked m [(!testKnown t || (slice c.params 1 3).any (fun b => b ≠ 0), stInvalidParam)]
      (fun s => s.finish m stOk (s.testRec t).bytes)))

/-! ## The ends of live tests (R573 to R580) -/

/-- A live test is over with its outcome. -/
def State.closeLive (s : State) (l : LiveTest) (pass : Bool) (code errors where_ : Nat) : State :=
  (s.updTst (fun x => { x with live := none })).putResult
    ⟨l.test, l.unit, if pass then 2 else 3, code, errors, where_, (s.now - l.start) / 1000⟩

/-- LIVE_TEST_END (R573 to R577, R579, R580): a port that fails is parked, a drive port trains again whatever its result, a
cipher lane or parity lane that fails is retired. A port test runs for PARAM ms after its traffic has moved (R568), a BAY test
ends once the insertion sequence after its check of VOUT has, and HBMPC with its last piece. -/
def execLiveTestEnd (r : TestOutcome) (s : State) : Host.Outcome State Fault Refusal :=
  match s.tst.live with
  | none => .next s
  | some l =>
    let good := r.errors = 0 && r.checkOk
    if l.moving || l.test = 7 || (l.test ≤ 3 && s.now < l.start + ms l.param) then .next s
    else if l.test = 1 || l.test = 2 then
      let p := if l.test = 1 then l.unit else 4 + l.unit
      let s1 := s.closeLive l good 0 r.errors r.whereWord
      match s1.lcu.retrains.find? (fun x => x.port = p && x.forTest) with
      | some x => .next (s1.endRetrain x good)
      | none => .next s1
    else if l.test = 3 then .next ((s.closeLive l (r.errors = 0) 0 r.errors r.whereWord).train l.unit)
    else if l.test = 4 then
      let b := s.bayOf l.unit
      if b.st = .wait || b.st = .ramping || b.st = .retryWait || b.st = .debounce then .next s
      else
        let code := if b.fault ≠ 0 then b.fault else if s.cfgBit Reg.lcuBpcoor l.unit then 8 else 0
        .next (s.closeLive l (code = 0) code r.errors r.whereWord)
    else if l.test = 5 then
      .next ((s.closeLive l good 0 r.errors r.whereWord).updKvt (fun k =>
        if good then { k with lanesOn := addNat k.lanesOn l.unit } else { k with lanesFailed := addNat k.lanesFailed l.unit }))
    else if l.test = 6 then
      .next ((s.closeLive l good 0 r.errors r.whereWord).updTst (fun x =>
        if good then x else { x with plane := addNat x.plane l.unit }))
    else .next (s.closeLive l (r.errors = 0) 0 r.errors r.whereWord)

/-- HBMPC_PIECE (R578): the next 4 KiB piece of the pseudo-channel has been walked; the last of 294,912 ends the test. WHERE is
the offset of the first failing piece. -/
def execHbmpcPiece (errors : Nat) (s : State) : Host.Outcome State Fault Refusal :=
  match s.tst.live with
  | none => .next s
  | some l =>
    if l.test ≠ 7 then .next s
    else
      let first := if s.tst.errors = 0 && errors ≠ 0 then 4096 * s.tst.pieces else s.tst.firstBad
      let n := s.tst.pieces + 1
      let e := satAt 0xFFFFFFFF (s.tst.errors + errors)
      if n < 294912 then .next (s.updTst (fun x => { x with pieces := n, errors := e, firstBad := first }))
      else .next ((s.closeLive l (e = 0) 0 e first).updTst (fun x => { x with pieces := 0, errors := 0, firstBad := 0 }))

/-- BAY_TEST_VOUT_CHECK (R575): 50 ms after the gate turned off VOUT must be below 1 V; an empty bay then passes, and with a
drive the insertion sequence runs from its second step. -/
def execBayTestVoutCheck (millivolt : Nat) (s : State) : Host.Outcome State Fault Refusal :=
  match s.tst.live with
  | none => .next s
  | some l =>
    let b := s.bayOf l.unit
    if l.test ≠ 4 || !l.moving || s.now < l.start + ms 50 then .next s
    else
      let again := fun (t : State) =>
        if b.st = .off then t.setBay l.unit (fun x => { x with st := if t.bay.inputFault then .inhibit else .wait }) else t
      if 1000 ≤ millivolt then .next (again (s.closeLive l false 9 0 0))
      else if b.st = .empty then .next (s.closeLive l true 0 0 0)
      else .next ((again s).updTst (fun x => { x with live := some { l with moving := false } }))

/-! ## Boundary scan (R583, R584) -/

def TapInstr.code : TapInstr → Nat
  | .bypass => 0
  | .idcode => 1
  | .samplePreload => 2
  | .extest => 3
  | .intest => 4
  | .extestPulse => 5
  | .extestTrain => 6
  | .clamp => 7
  | .highz => 8

/-- IDCODE of a part (R584). -/
def idcode (p : Part) : Nat := match p with
  | .kv9616b => 0x1961674B
  | _ => 0x1962474B

/-- The instruction that the TAP acts on: some are honoured in test boot only, and act as BYPASS else (R583). -/
def State.tapActs (s : State) (i : TapInstr) : TapInstr :=
  match i with
  | .bypass => .bypass
  | .idcode => .idcode
  | .samplePreload => .samplePreload
  | _ => if s.tst.boot then i else .bypass

/-- TAP_INSTRUCTION (R583, R584): what the TAP shows on TDO: the instruction acted on, and the IDCODE word. The TAP is powered
while the IO18 rail is up. -/
def execTapInstruction (i : TapInstr) (s : State) : Host.Outcome State Fault Refusal :=
  if !s.pwr.railsUp.any (fun r => r = .io18) then .next s
  else
    let a := s.tapActs i
    .next (s.emit (.tdo a.code (if a = .idcode then idcode s.part else 0)))

/-! ## Time base (R595) -/

/-- TIME_BASE_SET: a write of MAC.TSCTL.SET. -/
def execTimeBaseSet (s : State) : Host.Outcome State Fault Refusal := .next s.timeSet

/-- TIME_BASE_LATCH: a write of MAC.TSCTL.LATCH. -/
def execTimeBaseLatch (s : State) : Host.Outcome State Fault Refusal := .next s.timeLatch

end Sys2Proof.Machine
end

