-- ==== Sys2Proof/Machine/Operands.lean ====
section
/-! DEFINITION. The operand forms of register accesses: which words a register takes (R622 and the range rules of the
chapters), which accesses are refused (R268, R326, R396, R523), and the parameters of the register commands (R428, R429). -/

namespace Sys2Proof.Machine

/-- A number lies between two bounds. -/
def within (lo hi v : Nat) : Bool := lo ≤ v && v ≤ hi

/-- Registers of a bank: `n` of them at stride `d` from `b`. -/
def inBank (b d n a : Nat) : Bool := b ≤ a && (a - b) % d = 0 && (a - b) / d < n

/-- The four ranks of MBX.OWNCFG name four different masters (R252). -/
def ranksDiffer (w : Word) : Bool :=
  let r := fun (i : Nat) => fieldOf w (2 * i + 1) (2 * i)
  hasNat [r 0, r 1, r 2, r 3] 0 && hasNat [r 0, r 1, r 2, r 3] 1 && hasNat [r 0, r 1, r 2, r 3] 2 &&
    hasNat [r 0, r 1, r 2, r 3] 3

/-- Margin thresholds: no field 0, each retrain limit below its warning (R546). -/
def marginsOk (w : Word) : Bool :=
  fieldOf w 23 16 ≠ 0 && fieldOf w 7 0 ≠ 0 && fieldOf w 23 16 < fieldOf w 31 24 && fieldOf w 7 0 < fieldOf w 15 8

/-- PFC limits against the port's ingress region (R359). -/
def pfcOk (port : Nat) (en thr : Word) : Bool :=
  let xon := fieldOf thr 7 0
  let xoff := fieldOf thr 15 8
  let hdr := fieldOf thr 23 16
  let n := ((natsFrom 16 8).filter (fun i => fieldOf en i i = 1)).length
  xon ≠ 0 && hdr ≠ 0 && xon < xoff && (xoff + hdr) * 16384 * n ≤ ingressSize port

/-- Ranges of the HCE, RFU, RGE and RFX registers, from their tables and R177, R214 and R252. -/
def hostRange (a : Nat) (w : Word) : Bool :=
  let f := fieldOf w
  if a = Reg.hceHcfg then within 1 128 (f 23 16)
  else if a = Reg.hceWbctl then within 10 100 (f 22 16) && within 1 2 (f 9 8) && within 1 28 (f 4 0)
  else if a = Reg.hceFlcfg then 10 ≤ f 7 0
  else if a = Reg.rfuCfg then within 2 64 (f 23 17) && within 1 1000 (f 14 5)
  else if a = Reg.rfuRescfg then within 20 2000 (f 10 0)
  else if a = Reg.rgeDrncfg then within 1 10000 (f 13 0)
  else if a = Reg.rgeBmcfg then within 1 3600 (f 27 16) && within 1 3600 (f 11 0)
  else if a = Reg.rgeRbcfg then within 1 160 (f 23 16) && within 1 160 (f 7 0) && f 7 0 ≤ f 23 16
  else if a = Reg.rgeRblaw then within 10 95 (f 22 16) && within 10 500 (f 8 0)
  else if a = Reg.rgePatcfg then within 1 90 (f 15 8)
  else if a = Reg.rgeMbcfg then within 1 60 (f 7 2)
  else if a = Reg.rfxFidcfg then f 6 0 ≠ 0x7F
  else if a = Reg.rfxElcfg then within 1 60 (f 5 0)
  else if a = Reg.mbxOwncfg then within 1 30 (f 12 8) && ranksDiffer w
  else if a = Reg.vsmFrzcfg then within 10 1000 (f 25 16) && within 1 100 (f 6 0)
  else if a = Reg.vsmMigcfg then within 1 15 (f 19 16) && within 16 4096 (f 12 0)
  else true

/-- Ranges of the PPC, XBR, ESS, ICL, KVT, DPX, BAY, LCU and MAC registers, from their tables and R333, R359, R365, R489, R491
and R546. -/
def unitRange (a : Nat) (w : Word) : Bool :=
  let f := fieldOf w
  if inBank Reg.ppcExrate 4 3 a then f 31 20 ≠ 0 && within 1 1000000 (f 19 0)
  else if a = Reg.essPolsel then f 9 0 ≤ 519
  else if a = Reg.xbrCfg then within 1 4 (f 2 0)
  else if inBank Reg.essTcwgtl 8 8 a then f 31 24 ≠ 0 && f 23 16 ≠ 0 && f 15 8 ≠ 0 && f 7 0 ≠ 0
  else if inBank Reg.essTcwgth 8 8 a then f 23 16 ≠ 0 && f 15 8 ≠ 0 && f 7 0 ≠ 0
  else if inBank Reg.essEcn 4 8 a then f 22 16 ≤ 100 && f 7 0 < f 15 8
  else if a = Reg.essDecfg then within 10 100 (f 6 0)
  else if a = Reg.essCnpcfg then f 15 8 ≠ 0 && f 7 0 ≠ 0
  else if a = Reg.essShsel then
    (if f 13 12 = 0 then f 10 0 ≤ 1023 else if f 13 12 = 1 then f 10 0 ≤ 511 else f 13 12 = 2 && f 10 0 ≤ 63)
  else if a = Reg.iclRkcfg then within 40 43 (f 13 8) && within 1 160 (f 7 0)
  else if a = Reg.kvtLockcfg then within 10 10000 (f 13 0)
  else if a = Reg.dpxCfg then within 4 6 (f 18 16) && within 1 50 (f 15 8) && f 2 0 ≤ 5
  else if a = Reg.dpxIocfg then within 5 1000 (f 31 16)
  else if a = Reg.dpxDpccfg then f 19 16 ≠ 0 && within 10 1000 (f 9 0)
  else if a = Reg.bayCfg then within 1 8 (f 23 20) && within 4 20 (f 15 8)
  else if inBank Reg.bayBcfg 16 24 a then
    within 4 32 (f 29 24) && within 1 50 (f 23 16) && f 15 12 ≠ 0 && within 2 50 (f 7 0)
  else if a = Reg.lcuSdcfg then f 11 8 ≠ 0 && f 7 0 ≠ 0
  else if a = Reg.lcuSdthr || a = Reg.lcuDpthr then marginsOk w
  else if a = Reg.lcuHbmcfg then within 1 20 (f 20 16) && within 1 3600 (f 11 0)
  else if a = Reg.macTodns then f 29 0 ≤ 999999999
  else if a = Reg.macTsadj then decide (-32768000 ≤ w.toInt) && decide (w.toInt ≤ 32768000)
  else true

/-- Whether a register takes a word: with a field out of range, or a value that is ignored, the write is ignored as a whole
(R622). Two pairs of registers are judged together: PFC limits and enables of a port (R359), and the two words of the power
policy, which PWR_POLICY would refuse as well (R526). -/
def State.takes (s : State) (a : Nat) (w : Word) : Bool :=
  if inBank Reg.essPortcfg 4 8 a then
    let p := (a - Reg.essPortcfg) / 4
    pfcOk p w (s.reg (Reg.essPfcthr + 4 * p))
  else if inBank Reg.essPfcthr 4 8 a then
    let p := (a - Reg.essPfcthr) / 4
    pfcOk p (s.reg (Reg.essPortcfg + 4 * p)) w
  else if a = Reg.pwrPolicy0 || a = Reg.pwrPolicy1 then
    let x := if a = Reg.pwrPolicy0 then w else s.reg Reg.pwrPolicy0
    let y := if a = Reg.pwrPolicy0 then s.reg Reg.pwrPolicy1 else w
    (policyCheck s.part ((leBytes 4 x.toNat ++ leBytes 4 y.toNat).map (fun b => b.toNat))).isNone
  else hostRange a w && unitRange a w

/-! ## Refused accesses (R590) -/

/-- The block of an address is served: in Standby, before power-up and in test boot ID, PWR and SNS alone (R523, R582), on a
fenced module these and RFX (R268). -/
def State.servesBlock (s : State) (a : Nat) : Bool :=
  let b := a / 0x10000
  let low := b = 0 || b = 1 || b = 0x15
  if s.pwr.mode = .standby then low
  else if s.tk.fenced then low || b = 0xC
  else if !s.pwr.up || s.tst.boot then low
  else true

/-- The whole register belongs to a unit that the part does not have (R6). -/
def State.absentReg (s : State) (a : Nat) : Bool := absentBits s.part a = 0xFFFFFFFF

/-- The vault's registers other than KVT.STAT and KVT.LOCK are reached by the session holder's route alone (R396). -/
def State.kvtHidden (s : State) (m : Master) (a : Nat) : Bool :=
  a / 0x10000 = 0xF && a ≠ Reg.kvtStat && a ≠ Reg.kvtLock && Config.hasCipher s.part &&
    !s.kvt.session.any (fun (x : Master × Nat × Nat) => x.1 = m)

/-- A read of a word by a master is refused (R268, R396, R523). -/
def State.readRefused (s : State) (m : Master) (a : Nat) : Bool := !s.servesBlock a || s.kvtHidden m a

/-- A write to PPC.BANKCTL or the table window is refused while OWNWR is 0, but for TWADDR and a READ alone (R326). -/
def State.windowRefused (s : State) (a : Nat) (w : Word) : Bool :=
  !s.cfgBit Reg.ppcUpdcfg 8 &&
    (a = Reg.ppcBankctl || inBank Reg.ppcTwdata 4 8 a || (a = Reg.ppcTwctl && (w &&& 0x20F) ≠ 2))

/-- A write of a word by a master is refused (R268, R326, R396, R523). -/
def State.writeRefused (s : State) (m : Master) (a : Nat) (w : Word) : Bool :=
  s.readRefused m a || s.windowRefused a w

/-! ## Parameters of the register commands (R428, R429) -/

def MbCmd.addr (c : MbCmd) : Nat := leAt c.params 0 4
def MbCmd.wordCount (c : MbCmd) : Nat := leAt c.params 4 2

/-- Words of a REG_WRITE. -/
def MbCmd.words (c : MbCmd) : List Word :=
  (natsFrom 0 c.wordCount).map (fun i => BitVec.ofNat 32 (leAt c.params (8 + 4 * i) 4))

/-- A range of words that R12 and R428 refuse: not aligned, or reaching 0x0016_0000. -/
def badRange (a n : Nat) : Bool := a % 4 ≠ 0 || 0x160000 < a + 4 * n

end Sys2Proof.Machine
end

