-- ==== Sys2Proof/Machine/Flags.lean ====
section
/-! DEFINITION. The fields that the module reports (RO, R14): every status field of the register map, computed from the
state, block by block. -/

namespace Sys2Proof.Machine

/-- A word whose bit `i` is set for each `i` below `n` that satisfies `p`. -/
def bitWord (n : Nat) (p : Nat → Bool) : Word := maskOf ((natsFrom 0 n).filter p)

/-- Identity block (R3, R594). -/
def State.idWord (s : State) (a : Nat) : Word :=
  let v := s.fwVersion
  if a = Reg.idPartid then
    (match s.part with | .kv9624a => 0x96244101 | .kv9624c => 0x96244301 | .kv9616b => 0x96164201)
  else if a = Reg.idVendor then 0x1F6C
  else if a = Reg.idUnitpres then Config.unitPres s.part
  else if a = Reg.idSlot then place (s.smbAddr % 128) 8 ||| placeBit (s.slot = .b) 0
  else if a = Reg.idUidlo then BitVec.ofNat 32 s.uid
  else if a = Reg.idUidhi then BitVec.ofNat 32 (s.uid / 2 ^ 32)
  else if a = Reg.idFwver0 then place (bitsOf v 15 0) 16 ||| place (bitsOf v 31 16) 0
  else if a = Reg.idFwver1 then BitVec.ofNat 32 (bitsOf v 63 32)
  else 0

/-- Power registers (chapter 16). -/
def State.pwrWord (s : State) (a : Nat) : Word :=
  let p := s.pwr
  if a = Reg.pwrState then place s.blockBits 16 ||| place p.mode.rank 0
  else if a = Reg.pwrInstat then
    placeBit p.efOn 31 ||| place (p.efFault % 16) 24 ||| place (p.efRetry % 4) 20 ||| placeBit p.refBackup 2 |||
      placeBit p.vinOk 1 ||| placeBit p.vsbOk 0
  else if inBank Reg.pwrDomon 4 4 a then bitWord 32 (fun j => hasNat p.domOn (8 * (a - Reg.pwrDomon) + j))
  else if inBank Reg.pwrDomret 4 4 a then bitWord 32 (fun j => hasNat p.domRet (8 * (a - Reg.pwrDomret) + j))
  else 0

/-- Bay registers (R491): a measurement is a free value, and the non-holder's FAULT reads 0. -/
def State.bayWord (s : State) (a : Nat) : Word :=
  let n := (a - Reg.bayBcfg) / 16
  let x := s.bayOf n
  if a = Reg.bayHold then
    placeBit s.bay.holder 31 ||| placeBit s.bay.bholdHigh 30 ||| bitWord 24 (fun i => (s.bayOf i).present)
  else if inBank Reg.bayBstat 16 24 a then
    place x.st.code 28 ||| place (if s.bay.holder then x.fault % 16 else 0) 20 ||| place (x.retryLeft % 16) 16 |||
      placeBit x.present 7 ||| placeBit x.pg 6 ||| placeBit x.pwrdis 5 ||| placeBit x.gate 4
  else if inBank Reg.bayBmeas 16 24 a then
    place (s.freeNow % 65536) 16 ||| place (s.tookFree.freeNow % 65536) 0
  else if inBank Reg.bayBcnt 16 24 a then
    place (satAt 0xFFFF x.faults) 16 ||| place (satAt 0xFFFF x.inserts) 0
  else 0

def TrainSt.code : TrainSt → Nat
  | .down => 0
  | .training => 1
  | .l0 => 2
  | .failed => 3

/-- DPX.PSTATn. -/
def State.dpxWord (s : State) (a : Nat) : Word :=
  if inBank Reg.dpxPstat 4 24 a then
    let p := s.portOf ((a - Reg.dpxPstat) / 4)
    placeBit p.contained 31 ||| place (p.cause % 8) 28 ||| place p.train.code 16 ||| place (p.width % 16) 4 |||
      place (p.speed % 16) 0
  else 0

/-- MAC.LSTATp.STATE (R597): ports 0 to 3 are H0 to H3, 4 to 7 F0 to F3. -/
def State.macState (s : State) (p : Nat) : Nat :=
  if !s.macRuns p then 0
  else if s.lcu.retrains.any (fun r => r.port = p) || s.testedPort = some p then 5
  else if s.lcu.parked.any (fun r => r.1 = p) then 4
  else if s.linkUp p then 3
  else if !hasNat s.pwr.domOn (if p < 4 then 24 + p else 36 + (p - 4)) then 1
  else 2

/-- MAC registers (R596, R597). FECLOCK of a port that trains is a free value. -/
def State.macWord (s : State) (a : Nat) : Word :=
  let p := (a - Reg.macPcfg) / 0x40
  let m := (s.macs.getD p 0).toNat
  if inBank Reg.macAddrlo 0x40 8 a then BitVec.ofNat 32 m
  else if inBank Reg.macAddrhi 0x40 8 a then BitVec.ofNat 32 (m / 2 ^ 32)
  else if inBank Reg.macLstat 0x40 8 a then
    let st := s.macState p
    let up := s.linkUp p
    let lock := up || ((st = 2 || st = 5) && s.freeNow % 2 = 1)
    let ids := if p < 4 then satAt 8 (s.identsOn p).length else 0
    placeBit up 31 ||| placeBit lock 30 ||| place ids 24 ||| place (if up then (if p < 4 then 4 else 2) else 0) 16 ||| place st 0
  else 0

/-- Parser registers (chapter 10). -/
def State.ppcWord (s : State) (a : Nat) : Word :=
  if a = Reg.ppcBankstat then place s.ppc.epoch 16 ||| placeBit s.draining 8 ||| place (s.ppc.cur % 2) 0
  else if a = Reg.ppcInflight then place (s.inflight 1 % 65536) 16 ||| place (s.inflight 0 % 65536) 0
  else if a = Reg.ppcTwctl then placeBit s.ppc.batch.isSome 10
  else 0

/-- The selected shaper of ESS.SHSEL: none for one of an absent port (R6). -/
def State.selShaper (s : State) : Option Shaper :=
  let t := s.cfg Reg.essShsel 13 12
  let i := s.cfg Reg.essShsel 10 0
  if t = 2 && !Config.extPort s.part (i / 8) then none else some (s.shaper t i)

/-- Egress and policer windows (chapters 10 and 11). -/
def State.essWord (s : State) (a : Nat) : Word :=
  let q := s.policer (s.cfg Reg.essPolsel 9 0)
  let f := fun (g : Shaper → Nat) => BitVec.ofNat 32 ((s.selShaper.map g).getD 0)
  if a = Reg.essShrate then f (fun x => x.rate)
  else if a = Reg.essShburst then f (fun x => x.burst)
  else if a = Reg.essShwgt then f (fun x => if x.typ = 0 then x.weight else 0)
  else if s.noPolicer then 0
  else if a = Reg.essPolcir then BitVec.ofNat 32 q.cir
  else if a = Reg.essPolbkt then place (q.ebs % 65536) 16 ||| place (q.cbs % 65536) 0
  else if a = Reg.essPolred then BitVec.ofNat 32 q.red
  else 0

/-- Host command engine registers (chapters 02 and 03). -/
def State.hceWord (s : State) (a : Nat) : Word :=
  if a = Reg.hceTagstat then BitVec.ofNat 32 s.hce.tags.length
  else if a = Reg.hceTaginfo then s.hce.tagInfo
  else if a = Reg.hceTagsq then s.hce.tagSq
  else if a = Reg.hceWbstat then place s.hce.effCeil 16 ||| place (satAt 0xFFFF (ceilDiv s.dirtyBlocks 256)) 0
  else if a = Reg.hceWtstate then
    placeBit s.wtOn 8 ||| bitWord 8 (fun i => s.wtCauses.getD i false)
  else if a = Reg.hceRltstat then BitVec.ofNat 32 s.hce.rlt.length
  else 0

def MemSt.code : MemSt → Nat
  | .unused => 0
  | .online => 1
  | .absent => 2
  | .stale => 3
  | .failed => 4
  | .replacing => 5

/-- Regions still to verify under step 7 of R174 (RGE.RSYNCn). -/
def Ring.syncLeft (r : Ring) : Nat :=
  match r.verify with
  | some st => r.regions - st * r.k / 1024
  | none => 0

/-- DEGRADED as the ringmaster has it: an own port of the other module counts for that module only (R184, R185). -/
def Ring.degradedFlag (r : Ring) : Bool :=
  let own : Ring := { r with slots := r.slots.map (fun m => { m with localBad := false }) }
  if r.owner then r.degraded else own.degraded

/-- RGE.RSTATn of a ring (R178, R185). -/
def State.ringStat (s : State) (r : Ring) : Word :=
  placeBit r.torn 9 ||| placeBit r.flushIncomplete 8 ||| placeBit r.resyncAll 7 ||| placeBit r.resyncing 6 |||
    placeBit (!(s.lostOf r.num).isEmpty) 5 ||| placeBit r.rebuilding 4 ||| placeBit r.degradedFlag 3 |||
    placeBit r.owner 2 ||| placeBit r.initRunning 1 ||| place 1 0

/-- The bay of the drive in a member slot, 0x1F while it holds none (R215): the drive of the slot's serial number is there. -/
def State.bayField (s : State) (m : MemberSlot) : Nat :=
  match m.bay with
  | some b => if (s.bayOf b).drive.any (fun d => d.serial = m.serial) then b else 0x1F
  | none => 0x1F

/-- MSTATn_j of a ring that exists (R215). -/
def State.memberStat (s : State) (r : Ring) (j : Nat) : Word :=
  if j < r.n then
    let m := r.slotAt j
    place m.st.code 16 ||| place (s.bayField m) 8 ||| placeBit m.localBad 0
  else place 0x1F 8

/-- RGE.RBRATE (R195): f and R while rebuild work is pending, else 0. -/
def State.rbrate (s : State) : Word :=
  if s.rge.rings.any Ring.hasWork then place (s.workShare % 512) 16 ||| place (s.rateNow % 65536) 0 else 0

/-- Ring engine registers (chapters 05 and 06). -/
def State.rgeWord (s : State) (a : Nat) : Word :=
  let bank := fun (n : Nat) (f : Ring → Word) => match s.findRing n with | some r => f r | none => 0
  let g := (a - Reg.rgeRcfg) / 0x20
  let h := (a - Reg.rgeRbleft) / 16
  if a = Reg.rgeJstat then BitVec.ofNat 32 s.rge.intents.length
  else if a = Reg.rgePtdata then s.rge.ptData
  else if a = Reg.rgeRbrate then s.rbrate
  else if a = Reg.rgeLostcnt then BitVec.ofNat 32 s.rge.lost.length
  else if inBank Reg.rgeRcfg 0x20 8 a then
    bank g (fun r => place r.s 18 ||| place r.m 16 ||| place r.k 8 ||| place r.n 0)
  else if inBank Reg.rgeRstat 0x20 8 a then bank g s.ringStat
  else if inBank Reg.rgeRseed 0x20 8 a then bank g (fun r => r.seed)
  else if inBank Reg.rgeRreg 0x20 8 a then bank g (fun r => BitVec.ofNat 32 r.regions)
  else if inBank Reg.rgeRsync 0x20 8 a then bank g (fun r => BitVec.ofNat 32 r.syncLeft)
  else if Reg.rgeMstat ≤ a && a < Reg.rgeMstat + 0x400 then
    let j := (a - Reg.rgeMstat) % 0x80 / 4
    if j < 24 && a % 4 = 0 then bank ((a - Reg.rgeMstat) / 0x80) (fun r => s.memberStat r j) else 0
  else if inBank Reg.rgeRbleft 16 8 a then
    bank h (fun r => BitVec.ofNat 32 (sumNat (r.displacedSlots.map r.turnsLeft)))
  else if inBank Reg.rgeRblvl 16 8 a then bank h (fun r => place ((r.nextRebuild.map (fun e => e.1)).getD 0) 0)
  else if inBank Reg.rgePatpos 16 8 a then bank h (fun r => BitVec.ofNat 32 (r.slabOf r.patrol))
  else 0

/-- SNT.STAT and SNT.WEAR (chapter 20): MIRSYNC while the peer holds every line sent to it. -/
def State.sntWord (s : State) (a : Nat) : Word :=
  let isLines := fun (f : StreamFrame) => match f.body with | .mirror (.lines _) => true | _ => false
  if a = Reg.sntStat then
    placeBit s.snt.ready 31 ||| placeBit s.hce.flushMark 30 ||| placeBit (s.rfx.out1.isOpen && !s.rfx.out1.out.any isLines) 29
  else if a = Reg.sntWear then BitVec.ofNat 32 s.snt.wear
  else 0

def FidSt.code : FidSt → Nat
  | .unclaimed => 0
  | .claiming => 1
  | .held => 2
  | .full => 3

def TkPhase.code : TkPhase → Nat
  | .idle => 0
  | .fencing => 1
  | .hold => 2
  | .resuming => 3
  | .draining => 4

/-- Fabric and takeover registers (chapters 07 and 08). -/
def State.rfxWord (s : State) (a : Nat) : Word :=
  let x := s.rfx
  let g := (a - Reg.rfxRprio) / 16
  if a = Reg.rfxFidstat then place x.fidSt.code 8 ||| place (if x.fidSt = .held then x.fid % 128 else 0x7F) 0
  else if a = Reg.rfxLinkstat then
    (maskOf (Config.midplane s.part) <<< 24) ||| (bitWord 4 (fun p => (s.fabPort p).pcs) <<< 8) |||
      bitWord 4 (fun p => (s.fabPort p).up)
  else if a = Reg.rfxNbr then
    (natsFrom 0 4).foldl (fun w p => w ||| place ((s.fabPort p).nbrFid % 128) (8 * p)) 0
  else if a = Reg.rfxPeerstat then
    placeBit x.peer.joined 15 ||| placeBit x.peer.absent 14 ||| placeBit x.peer.mismatch 13 ||| placeBit s.mirrorUp 12 |||
      place (x.peer.fid % 128) 0
  else if a = Reg.rfxRtdata then x.rtData
  else if a = Reg.rfxLsdb then place (x.lsdb.length % 128) 0
  else if inBank Reg.rfxRepoch 16 8 a then BitVec.ofNat 32 (((s.findRing g).map (fun r => r.epoch)).getD 0)
  else if inBank Reg.rfxRmast 16 8 a then
    (match (s.findRing g).bind (fun r => r.master) with
     | some f => place 1 7 ||| place (f % 128) 0
     | none => 0x7F)
  else if a = Reg.rfxTkstat then
    place s.tk.cause 24 ||| place s.tk.phase.code 16 ||| placeBit s.tk.mir2dn 11 ||| placeBit s.tk.fenceIn 9 |||
      placeBit s.tk.fenceOut 8 ||| place (satAt 0xFF s.tk.count) 0
  else if a = Reg.rfxTktime then BitVec.ofNat 32 s.tk.lastUs
  else if a = Reg.rfxMirstat then
    place (satAt 0xFFFF x.out2.out.length) 16 ||| place (satAt 0xFFFF x.out1.out.length) 0
  else 0

/-- Subsystem pools and queries (chapter 09). -/
def State.vsmWord (s : State) (a : Nat) : Word :=
  let sum := fun (f : Vs → Nat) => sumNat (s.vsm.subs.map f)
  if a = Reg.vsmPooltag then BitVec.ofNat 32 (262144 - sum (fun v => v.tagshare))
  else if a = Reg.vsmPoolqc then place (4096 - sum (fun v => v.cntls)) 16 ||| place (16384 - sum (fun v => v.qpairs)) 0
  else if a = Reg.vsmPoolnh then place (8192 - sum (fun v => v.hostmax)) 16 ||| place (8192 - sum (fun v => v.nsmax)) 0
  else if a = Reg.vsmVsinfo then s.vsm.vsInfo
  else if a = Reg.vsmVsshare then s.vsm.vsShare
  else 0

def VaultSt.code : VaultSt → Nat
  | .selftest => 0
  | .uncommissioned => 1
  | .operational => 2
  | .error => 3

/-- Cipher lane and vault registers (chapter 12). -/
def State.kvtWord (s : State) (a : Nat) : Word :=
  let k := s.kvt
  if a = Reg.iclLanestat then (maskOf k.lanesFailed <<< 16) ||| maskOf k.lanesOn
  else if a = Reg.kvtStat then
    place (k.slots.filter (fun x => !internalSlot x.slot)).length 16 ||| place (k.failTest % 256) 8 ||| placeBit k.paired 5 |||
      placeBit (k.st = .uncommissioned || k.st = .operational) 4 ||| place k.st.code 0
  else if a = Reg.kvtLock then
    (match k.session with
     | some (m, o, _) => place 1 31 ||| place m.num 24 ||| place (o % 4096) 0
     | none => 0)
  else 0

/-- Mailbox registers (chapters 07 and 13). -/
def State.mbxWord (s : State) (a : Nat) : Word :=
  let masters : List Master := [.service, .bmc, .inband, .peer]
  if a = Reg.mbxRstat then
    place (s.mbx.replyStatus % 65536) 16 ||| placeBit s.mbx.replyDmaErr 2 ||| placeBit s.mbx.replyReject 1 |||
      placeBit (!s.mbx.replyWin.isEmpty && s.mbx.replyStatus ≠ stPending) 0
  else if a = Reg.mbxMstat then
    bitWord 4 (fun v => (s.heldOf (masterOf v)).seq.isSome) <<< 4 ||| bitWord 4 (fun v => (s.cmdOf (masterOf v)).isSome)
  else if a = Reg.mbxFwstat then s.fwstat
  else if a = Reg.mbxOwnstat then
    let left := match s.mbx.lease with | some t => (t - s.now) / 1000000 | none => 0
    placeBit s.mbx.owner.isSome 31 ||| place ((s.mbx.owner.map Master.num).getD 0) 24 |||
      maskOf ((masters.filter s.present).map (fun m => 20 + m.num)) ||| place (satAt 0xFFFF left) 0
  else 0

/-- Endpoint registers (chapter 14). -/
def State.sepWord (s : State) (a : Nat) : Word :=
  let x := s.sep
  if a = Reg.sepStat then
    placeBit x.flr 11 ||| placeBit (x.cause ≠ 0) 10 ||| placeBit x.d3hot 9 ||| placeBit x.mse 8 ||| placeBit x.bme 7 |||
      place (x.width % 8) 4 ||| place (x.speed % 8) 1 ||| placeBit x.linkUp 0
  else if a = Reg.sepOutst then place (s.quar % 1024) 16 ||| place (s.npOut % 128) 0
  else 0

/-- Calibration registers (chapter 17). -/
def State.lcuWord (s : State) (a : Nat) : Word :=
  let l := s.lcu
  if a = Reg.lcuLndata then l.lnData
  else if a = Reg.lcuSdstat then
    (bitWord 8 (fun p => l.parked.any (fun r => r.1 = p)) <<< 16) ||| (bitWord 8 (fun p => hasNat l.defer p) <<< 8) |||
      bitWord 8 (fun p => l.lanes.any (fun x => x.warn && lanePort x.lane = some p))
  else if a = Reg.lcuDpstat then bitWord 24 (fun n => hasNat l.dpDefer n)
  else if a = Reg.lcuHbmstat then
    placeBit l.hbm.pc.isSome 31 ||| place (((l.hbm.pc.map (fun x => x.1)).getD l.hbm.last) % 128) 0
  else if a = Reg.lcuBpcstat then
    placeBit (l.offsets.getD 24 none).isSome 31 ||| bitWord 24 (fun n => (l.offsets.getD n none).isSome)
  else if a = Reg.lcuTsstat then maskOf l.faulty
  else 0

/-- Performance monitor registers (R555 to R557, R566). -/
def State.pmuWord (s : State) (a : Nat) : Word :=
  if a = Reg.pmuBoxstat then BitVec.ofNat 32 (s.pmu.sweeps % 2 ^ 31)
  else
    match pmuBank a with
    | some (v, o) => BitVec.ofNat 32 ((s.pmuValue v o).getD 0)
    | none => 0

/-- Test registers (R584; chapter 19). -/
def State.tstWord (s : State) (a : Nat) : Word :=
  if a = Reg.tstStat then
    placeBit s.tst.live.isSome 31 ||| placeBit s.tst.hold 30 ||| place (s.tst.lastTest % 256) 16 |||
      place (s.tst.lastUnit % 256) 8 ||| place ((s.testRec s.tst.lastTest).status % 8) 0
  else if a = Reg.tstPlane then maskOf s.tst.plane
  else if a = Reg.tstIdcode then BitVec.ofNat 32 (idcode s.part)
  else 0

/-- A signed reading in 16 bits. -/
def State.reading (s : State) (k sensor : Nat) : Nat :=
  let t := { s with freeCtr := s.freeCtr + k }
  (t.measured sensor % 65536).toNat

/-- Measurements (chapter 16): free values (log 4). -/
def State.snsWord (s : State) (a : Nat) : Word :=
  if a = Reg.snsVin then place (s.reading 1 2) 16 ||| place (s.reading 0 1) 0
  else if a = Reg.snsPin then BitVec.ofInt 32 (s.measured 3)
  else if a = Reg.snsTemp then place (s.reading 1 5) 16 ||| place (s.reading 0 4) 0
  else 0

/-- Free values that a read of a register takes. -/
def freeUsed (a : Nat) : Nat :=
  if inBank Reg.bayBmeas 16 24 a || a = Reg.snsVin || a = Reg.snsTemp then 2
  else if inBank Reg.macLstat 0x40 8 a || a = Reg.snsPin then 1
  else 0

/-- The reported fields of a register, by block (R17). -/
def State.derived (s : State) (a : Nat) : Word :=
  match a / 0x10000 with
  | 0x0 => s.idWord a
  | 0x1 => s.pwrWord a
  | 0x2 => s.bayWord a
  | 0x3 => s.dpxWord a
  | 0x4 => s.macWord a
  | 0x5 => s.ppcWord a
  | 0x6 => if a = Reg.xbrOccdata then s.xbr.occData else 0
  | 0x7 => s.essWord a
  | 0x8 => s.hceWord a
  | 0x9 => if a = Reg.rfuGrpstat then BitVec.ofNat 32 s.rfu.groups.length else 0
  | 0xA => s.rgeWord a
  | 0xB => s.sntWord a
  | 0xC => s.rfxWord a
  | 0xD => s.vsmWord a
  | 0xE => s.kvtWord a
  | 0xF => s.kvtWord a
  | 0x10 => s.mbxWord a
  | 0x11 => s.sepWord a
  | 0x12 => s.lcuWord a
  | 0x13 => s.pmuWord a
  | 0x14 => s.tstWord a
  | 0x15 => s.snsWord a
  | _ => 0

/-- What a read of a register returns (R6, R14, R587): its kept bits, its reported fields, 0 in WO and RSV fields and in what
belongs to an absent unit. -/
def State.regWord (s : State) (a : Nat) : Word :=
  ((s.reg a &&& regKept a) ||| s.derived a) &&& ~~~ absentBits s.part a

end Sys2Proof.Machine
end

