-- ==== Sys2Proof/Machine/Registers.lean ====
section
/-! DEFINITION. Register accesses: reads with their side effects, writes of each register, the commands REG_READ, REG_WRITE and
REG_MODIFY (R428, R429), the waiting bank swap (R325), and memory requests to BAR0 and BAR2 (R425, R436, R443 to R445). -/

namespace Sys2Proof.Machine

/-! ## Reads -/

/-- A register word was accessed by a master (R552 event 0x39): class 0 read, 1 write. -/
def State.regEvent (s : State) (m : Master) (a cls : Nat) : State := s.count 0x39 (some a) (some cls) 2 m.num 1

/-- RC fields of a register are cleared (R14, R16); ESS.POLRED belongs to the selected policer. -/
def State.clearRc (s : State) (a : Nat) : State :=
  if a = Reg.essPolred then
    (if s.noPolicer then s else s.setPolicer { s.policer (s.cfg Reg.essPolsel 9 0) with red := 0 })
  else
    match regFind a with
    | some d => if d.rc = 0 then s else s.putReg a (s.reg a &&& ~~~ d.rc)
    | none => s

/-- What a read of a register leaves behind: RC fields cleared, the monitor's holding register (R557), free values taken. -/
def State.afterRead (s : State) (a : Nat) : State :=
  if s.absentReg a then s
  else
    let t := (s.clearRc a).pmuTouch a
    { t with freeCtr := t.freeCtr + freeUsed a }

/-- A read of a register by a master. -/
def State.regRead (s : State) (m : Master) (a : Nat) : Word × State := (s.regWord a, (s.afterRead a).regEvent m a 0)

/-! ## Writes -/

/-- A write of a register without further effect: RW bits replaced, W1C bits cleared by a 1, the rest kept (R14, R15). -/
def State.plainWrite (s : State) (a : Nat) (w : Word) : State :=
  match regFind a with
  | some d => if d.window then s else s.putReg a ((s.reg a &&& ~~~ (d.rw ||| (d.w1c &&& w))) ||| (w &&& d.rw))
  | none => s

/-- A bit that was 1 is 0 after a write. -/
def fell (old new : Word) (i : Nat) : Bool := old.getLsbD i && !new.getLsbD i

/-- Ring flags cleared by a write of RGE.RSTATn (R176, R178); RESYNC_ALL is kept in the ring header as well (R171). -/
def State.rstatWrite (s : State) (ring : Nat) (w : Word) : State :=
  match s.findRing ring with
  | none => s
  | some r =>
    let s1 := s.updRing ring (fun x => { x with
      torn := x.torn && !w.getLsbD 9, flushIncomplete := x.flushIncomplete && !w.getLsbD 8,
      resyncAll := x.resyncAll && !w.getLsbD 7 })
    if r.resyncAll && w.getLsbD 7 && r.owner then (s1.updRing ring (fun x => { x with hdrSeq := x.hdrSeq + 1 })).sendHeader ring
    else s1

/-- The selected shaper changed; its tokens are kept, clipped to its BURST (R356). -/
def State.shaperWrite (s : State) (f : Shaper → Shaper) : State :=
  match s.selShaper with
  | none => s
  | some x =>
    let y := f x
    s.setShaper { y with tokens := min (x.level s.now) ((y.burst * 1024 * 8000 : Nat) : Int), at_ := s.now }

/-- A write of ESS.SHRATE, ESS.SHBURST or ESS.SHWGT. -/
def State.shaperRegWrite (s : State) (a : Nat) (w : Word) : State :=
  let v := fieldOf w 19 0
  let b := fieldOf w 15 0
  let g := fieldOf w 7 0
  if a = Reg.essShrate then (if 800000 < v then s else s.shaperWrite (fun x => { x with rate := v }))
  else if a = Reg.essShburst then (if b = 0 then s else s.shaperWrite (fun x => { x with burst := b }))
  else if g = 0 || s.cfg Reg.essShsel 13 12 ≠ 0 then s
  else s.shaperWrite (fun x => { x with weight := g })

/-- A write of a PFC register: the occupancy of each class is judged under the new limits (R359). -/
def State.pfcWrite (s : State) (a port : Nat) (w : Word) : State :=
  (natsFrom 0 8).foldl (fun t c => t.pfcJudge port c) (s.plainWrite a w)

/-- A write of PPC.EXRATEn: tokens accrued so far are kept, up to the new BURST (R330, R333). -/
def State.exrateWrite (s : State) (a : Nat) (w : Word) : State :=
  let n := (a - Reg.ppcExrate) / 4
  let l := s.exLevel n
  (s.plainWrite a w).setExLevel n (min l ((fieldOf w 31 20 * 1000000000 : Nat) : Int))

/-- A write of PPC.TWCTL: REFUSED is cleared first, then COMMIT, READ, BATCH_START and BATCH_END act in this order (log 51). -/
def State.twctlWrite (s : State) (w : Word) : State :=
  let s1 := s.plainWrite Reg.ppcTwctl w
  let s2 := if w.getLsbD 0 then s1.tableCommit else s1
  let s3 := if w.getLsbD 1 then s2.tableRead else s2
  let s4 := if w.getLsbD 2 then s3.batchStart else s3
  if w.getLsbD 3 then s4.batchEnd else s4

/-- A write of PPC.UPDCFG: when OWNWR returns to 0 the management cores recompile both banks (R326). -/
def State.updcfgWrite (s : State) (w : Word) : State :=
  let s1 := s.plainWrite Reg.ppcUpdcfg w
  if s.cfgBit Reg.ppcUpdcfg 8 && !s1.cfgBit Reg.ppcUpdcfg 8 then { s1 with ppc := { s1.ppc with recompile := true } } else s1

/-- A write of MAC.PCFGp: clearing EN takes the link down (R596). -/
def State.pcfgWrite (s : State) (a : Nat) (w : Word) : State :=
  let s1 := s.plainWrite a w
  if fell (s.reg a) (s1.reg a) 31 then s1.pcsDown ((a - Reg.macPcfg) / 0x40) else s1

/-- A write of RFX.CFG: a port disabled goes down (R596). -/
def State.rfxCfgWrite (s : State) (w : Word) : State :=
  let s1 := s.plainWrite Reg.rfxCfg w
  (natsFrom 0 4).foldl (fun t p => if fell (s.reg Reg.rfxCfg) (s1.reg Reg.rfxCfg) p then t.pcsDown (4 + p) else t) s1

/-- A write of ICL.MSCFGp: a port that now requires MACsec and has no SAK is not up (R379); clearing EN ends its key agreement. -/
def State.mscfgWrite (s : State) (a : Nat) (w : Word) : State :=
  let p := (a - Reg.iclMscfg) / 4
  let s1 := s.plainWrite a w
  if fell (s.reg a) (s1.reg a) 31 then s1.setMsPort p {}
  else if s1.sakReady p then s1
  else s1.portDown p

/-- A write of HCE.WBCTL or HCE.FLCFG: the ceiling, write-through and the second copy follow (R79, R81, R95). -/
def State.bufferWrite (s : State) (a : Nat) (w : Word) : State := ((s.plainWrite a w).recomputeCeil).reroute

/-- A write of RFX.TKCFG: with FENCEEN 1 a takeover that waits for it goes on (08 TKCFG); the second holder may have changed. -/
def State.tkcfgWrite (s : State) (w : Word) : State :=
  let s1 := (s.plainWrite Reg.rfxTkcfg w).reroute
  if s1.tk.phase = .fencing && s1.tk.fenceDelay.isNone then s1.assertFence else s1

/-- A write of SEP.CFG: clearing EN takes the link down (R438). -/
def State.sepCfgWrite (s : State) (w : Word) : State :=
  let s1 := s.plainWrite Reg.sepCfg w
  if fell (s.reg Reg.sepCfg) (s1.reg Reg.sepCfg) 0 then s1.sepDown else s1

/-- A write of MAC.TSCTL: with both bits it is ignored (chapter 20). -/
def State.tsctlWrite (s : State) (w : Word) : State :=
  if fieldOf w 1 0 = 2 then s.timeSet else if fieldOf w 1 0 = 1 then s.timeLatch else s

/-- A write to a bank of the performance monitor: CFG, CTL and counters have effects of their own, the rest are plain. -/
def State.pmuRegWrite (s : State) (a v o : Nat) (w : Word) : State :=
  if o = 0 || (0x40 ≤ o && o < 0xC0 && o % 16 = 0) || (0xC0 ≤ o && o % 4 = 0) then s.pmuWrite v o w else s.plainWrite a w

/-- Registers of the blocks PWR to ESS whose write does more than keep its fields. -/
def State.lowWrite (s : State) (a : Nat) (w : Word) : State :=
  if a = Reg.pwrPolicy0 || a = Reg.pwrPolicy1 then (s.plainWrite a w).applyPolicy
  else if a = Reg.dpxDpcrel then s.dpcrelWrite (w &&& ~~~ absentBits s.part a)
  else if a = Reg.macTsctl then s.tsctlWrite w
  else if a = Reg.macTsadj then s.timeRate w
  else if inBank Reg.macPcfg 0x40 8 a then s.pcfgWrite a w
  else if a = Reg.ppcBankctl then (if w.getLsbD 0 then s.requestSwap none else s)
  else if a = Reg.ppcTwctl then s.twctlWrite w
  else if a = Reg.ppcUpdcfg then s.updcfgWrite w
  else if inBank Reg.ppcExrate 4 3 a then s.exrateWrite a w
  else if a = Reg.xbrSampn then s.samplingWrite true w
  else if a = Reg.xbrSampcfg then s.samplingWrite false w
  else if a = Reg.xbrOccqry then s.occWrite w
  else if inBank Reg.essPortcfg 4 8 a then s.pfcWrite a ((a - Reg.essPortcfg) / 4) w
  else if inBank Reg.essPfcthr 4 8 a then s.pfcWrite a ((a - Reg.essPfcthr) / 4) w
  else if a = Reg.essShrate || a = Reg.essShburst || a = Reg.essShwgt then s.shaperRegWrite a w
  else if a = Reg.essPolcir then s.polcirWrite w
  else if a = Reg.essPolbkt then s.polbktWrite w
  else s.plainWrite a w

/-- Registers of the blocks HCE to PMU whose write does more than keep its fields. -/
def State.highWrite (s : State) (a : Nat) (w : Word) : State :=
  if a = Reg.hceTagqry then s.tagqryWrite w
  else if a = Reg.hceWbctl || a = Reg.hceFlcfg then s.bufferWrite a w
  else if a = Reg.rgePtqry then s.ptqryWrite w
  else if inBank Reg.rgeRstat 0x20 8 a then s.rstatWrite ((a - Reg.rgeRcfg) / 0x20) w
  else if a = Reg.rfxCfg then s.rfxCfgWrite w
  else if a = Reg.rfxRtqry then s.rtqryWrite w
  else if a = Reg.rfxTkcfg then s.tkcfgWrite w
  else if a = Reg.vsmVsqry then s.vsqryWrite w
  else if inBank Reg.iclMscfg 4 4 a then s.mscfgWrite a w
  else if a = Reg.sepCfg then s.sepCfgWrite w
  else if a = Reg.lcuLnqry then s.lnqryWrite w
  else
    match pmuBank a with
    | some (v, o) => s.pmuRegWrite a v o w
    | none => s.plainWrite a w

/-- REGISTER_WRITE (R622): a word out of range, or of an absent unit (R6), changes nothing; any other applies its fields. -/
def State.applyWrite (s : State) (a : Nat) (w : Word) : State :=
  if s.absentReg a || !s.takes a w then s
  else if a < 0x80000 then s.lowWrite a w
  else s.highWrite a w

/-- A write of a register by a master. -/
def State.regWrite (s : State) (m : Master) (a : Nat) (w : Word) : State := (s.applyWrite a w).regEvent m a 1

/-! ## Commands (R428, R429) -/

/-- The words of a REG_READ in order, up to the first that is refused. -/
def State.readWords (m : Master) : Nat → Nat → List Byte → State → State
  | 0, _, acc, s => s.finish m stOk acc
  | n + 1, a, acc, s =>
    if s.readRefused m a then s.finish m stConflict acc
    else
      let r := s.regRead m a
      State.readWords m n (a + 4) (acc ++ leBytes 4 r.1.toNat) r.2

/-- REG_READ (R428). -/
def execRegRead (m : Master) (s : State) : Host.Outcome State Fault Refusal :=
  .next (s.runCmd m 0x0201 (fun c s =>
    s.checked m [(c.wordCount = 0 || 1024 < c.wordCount || badRange c.addr c.wordCount, stInvalidParam)]
      (State.readWords m c.wordCount c.addr [])))

/-- A table write of this word meets a draining bank: by REG_WRITE it completes with STATE_CONFLICT (R327). -/
def State.drainRefused (s : State) (a : Nat) (w : Word) : Bool :=
  let addr := s.reg Reg.ppcTwaddr
  a = Reg.ppcTwctl && s.draining &&
    ((w.getLsbD 0 && !twBad addr && fieldOf addr 31 31 ≠ s.ppc.cur) ||
     (w.getLsbD 3 && s.ppc.batch.any (fun l => l.any (fun e => fieldOf e.1 31 31 ≠ s.ppc.cur))))

/-- The words of a REG_WRITE in order from word `n`, up to the first that is refused. A swap that has to wait suspends the
command at its word (R325). -/
def State.writeWords (m : Master) : List Word → Nat → Nat → State → State
  | [], _, n, s => s.finish m stOk (leBytes 4 n)
  | w :: ws, a, n, s =>
    if s.writeRefused m a w then s.finish m stConflict (leBytes 4 n)
    else if a = Reg.ppcBankctl && w.getLsbD 0 && s.ppc.swap.isNone && s.draining then
      ((s.requestSwap (some (m, n))).regEvent m a 1).keepRunning m
    else
      let s1 := s.regWrite m a w
      if s.drainRefused a w then s1.finish m stConflict (leBytes 4 n)
      else State.writeWords m ws (a + 4) (n + 1) s1

/-- REG_WRITE (R428). -/
def execRegWrite (m : Master) (s : State) : Host.Outcome State Fault Refusal :=
  .next (s.runCmd m 0x0202 (fun c s =>
    s.checked m [(c.wordCount = 0 || 1022 < c.wordCount || badRange c.addr c.wordCount, stInvalidParam)]
      (State.writeWords m c.words c.addr 0)))

/-- W1C bits of a register. -/
def w1cBits (a : Nat) : Word :=
  match regFind a with
  | some d => d.w1c
  | none => 0

/-- The word that REG_MODIFY writes: VALUE under MASK, the old word elsewhere, 0 in W1C bits outside MASK (R429). -/
def modified (old mask value w1c : Word) : Word := ((old &&& ~~~ mask) ||| (value &&& mask)) &&& (mask ||| ~~~ w1c)

/-- REG_MODIFY (R429). -/
def execRegModify (m : Master) (s : State) : Host.Outcome State Fault Refusal :=
  .next (s.runCmd m 0x0203 (fun c s =>
    let a := c.addr
    let w := modified (s.regWord a) (BitVec.ofNat 32 (leAt c.params 4 4)) (BitVec.ofNat 32 (leAt c.params 8 4)) (w1cBits a)
    s.checked m [(badRange a 1, stInvalidParam), (s.writeRefused m a w, stConflict)]
      (fun s => (((s.regRead m a).2.regWrite m a w).finish m stOk (leBytes 4 (s.regWord a).toNat)))))

/-! ## A swap that waits (R325) -/

/-- The REG_WRITE that a waiting swap suspended goes on behind its word. -/
def State.resumeWrite (s : State) (by_ : Option (Master × Nat)) : State :=
  match by_ with
  | none => s
  | some (m, n) =>
    match s.cmdOf m with
    | some c =>
      if c.opcode = 0x0202 && c.running then State.writeWords m (c.words.drop (n + 1)) (c.addr + 4 * (n + 1)) (n + 1) s else s
    | none => s

/-- SWAP_EFFECT (R325): the draining bank's count is zero, and the waiting swap takes effect. -/
def execSwapEffect (s : State) : Host.Outcome State Fault Refusal :=
  match s.ppc.swap with
  | none => .next s
  | some (_, by_) => if s.draining then .next s else .next (s.swapNow.resumeWrite by_)

/-- SWAP_REFUSAL (R325): 1 ms after the request the count is not zero. A REG_WRITE completes with BUSY; another path sees
PPC.BANKSTAT.REFUSED. -/
def execSwapRefusal (s : State) : Host.Outcome State Fault Refusal :=
  match s.ppc.swap with
  | none => .next s
  | some (limit, by_) =>
    if s.now < limit || !s.draining then .next s
    else
      let s1 := { s with ppc := { s.ppc with swap := none } }
      match by_ with
      | some (m, n) => .next (s1.finish m stBusy (leBytes 4 n))
      | none => .next (s1.raiseFlag Reg.ppcBankstat 9)

/-! ## Memory requests of the service host (R425, R436, R443 to R445) -/

/-- Where a bus address falls: `false` in BAR0 and `true` in BAR2, with the offset (R443). -/
def State.barHit (s : State) (addr : Nat) : Option (Bool × Nat) :=
  if s.sep.bar0 ≤ addr && addr < s.sep.bar0 + 0x200000 then some (false, addr - s.sep.bar0)
  else if s.sep.bar2 ≤ addr && addr < s.sep.bar2 + 0x2000 then some (true, addr - s.sep.bar2)
  else none

/-- A request of 1 to 16 double words within an aligned 64-byte block (R444). -/
def barSize (off n : Nat) : Bool := off % 4 = 0 && within 1 16 n && off % 64 / 4 + n ≤ 16

/-- An error of a memory request (R455): fatal by its severity, else advisory. -/
def State.aerRole (s : State) (bit : Nat) : State :=
  if fieldOf s.sep.uncSev bit bit = 1 then s.aerUnc bit else s.aerAdvisory bit

/-- The function answers memory requests (R439, R440, R456). -/
def State.barServes (s : State) : Bool := s.sep.mse && !s.sep.d3hot && s.sep.cause = 0 && !s.sep.flr

/-- Offsets in the command window and in the reply window of the mailbox (R436). -/
def inCmdWin (a : Nat) : Bool := 0x102000 ≤ a && a < 0x103040
def inReplyWin (a : Nat) : Bool := 0x104000 ≤ a && a < 0x105040

/-- A word read through BAR0: the windows of R436, 0 where R396 or R443 gives it, else the register. -/
def State.bar0Word (s : State) (a : Nat) : Word × State :=
  if 0x160000 ≤ a || s.readRefused .service a then (0, s)
  else if inCmdWin a then
    (BitVec.ofNat 32 (leNat (cellBytes s.mbx.cmdWin (a - 0x102000) 4)), s.regEvent .service a 0)
  else if inReplyWin a then (BitVec.ofNat 32 (leAt s.mbx.replyWin (a - 0x104000) 4), s.regEvent .service a 0)
  else s.regRead .service a

/-- Words of BAR2: the MSI-X table, and the PBA at 0x1000 (R443, R446). -/
def State.bar2Word (s : State) (a : Nat) : Word :=
  if a < 32 then
    let v := s.sep.vectors.getD (a / 16) (0, 0, true)
    if a % 16 = 0 then BitVec.ofNat 32 v.1
    else if a % 16 = 4 then BitVec.ofNat 32 (v.1 / 2 ^ 32)
    else if a % 16 = 8 then BitVec.ofNat 32 v.2.1
    else placeBit v.2.2 0
  else if a = 0x1000 then bitWord 2 (hasNat s.sep.pba)
  else 0

/-- The enabled bytes of a word. -/
def enabledBytes (w : Word) (en : BitVec 4) : List Byte :=
  ((natsFrom 0 4).filter (fun i => en.getLsbD i)).map (fun i => (leBytes 4 w.toNat).getD i 0)

/-- The words of a BAR0 read in ascending order. -/
def State.bar0Reads : List (BitVec 4) → Nat → List Byte → State → List Byte × State
  | [], _, acc, s => (acc, s)
  | en :: es, a, acc, s =>
    let r := s.bar0Word a
    State.bar0Reads es (a + 4) (acc ++ enabledBytes r.1 en) r.2

/-- BAR0_READ (R439, R443 to R445, R456): a memory read of the service host, one set of byte enables for each double word.
Completion status 0 is success, 1 Unsupported Request, 4 Completer Abort. -/
def execBar0Read (addr : Nat) (enables : List (BitVec 4)) (s : State) : Host.Outcome State Fault Refusal :=
  if !s.sep.linkUp then .next s
  else if !s.barServes then .next ((s.aerRole 20).emit (.sepCpl 1 []))
  else
    match s.barHit addr with
    | none => .next ((s.aerRole 20).emit (.sepCpl 1 []))
    | some (second, off) =>
      if !barSize off enables.length then .next ((s.aerRole 15).emit (.sepCpl 4 []))
      else if second then
        .next (s.emit (.sepCpl 0
          ((enables.zip (natsFrom 0 enables.length)).flatMap (fun e => enabledBytes (s.bar2Word (off + 4 * e.2)) e.1))))
      else
        let r := State.bar0Reads enables off [] s
        .next (r.2.emit (.sepCpl 0 r.1))

/-- Enabled bytes written into the command window. -/
def State.cmdWinWrite (s : State) (a : Nat) (w : Word) (en : BitVec 4) : State :=
  let bs := leBytes 4 w.toNat
  let win := (natsFrom 0 4).foldl (fun l i => if en.getLsbD i then cellWrite l (a - 0x102000 + i) (bs.getD i 0) else l) s.mbx.cmdWin
  (s.updMbx (fun x => { x with cmdWin := win })).regEvent .service a 1

/-- A word written through BAR0 (R425, R436, R443 to R445): the command window takes bytes; any other partial write is counted in
SEP.NARROW; a register is written by the control owner alone, and other writes are counted in MBX.REJECT. -/
def State.bar0Put (s : State) (a : Nat) (w : Word) (en : BitVec 4) : State :=
  if 0x160000 ≤ a then (if en = 0xF then s else s.bump Reg.sepNarrow)
  else if !s.servesBlock a then s
  else if inCmdWin a then s.cmdWinWrite a w en
  else if en ≠ 0xF then s.bump Reg.sepNarrow
  else if a = Reg.mbxDoorbell then (s.regEvent .service a 1).doorbell w
  else if !s.isOwner .service then s.bump Reg.mbxReject
  else if s.writeRefused .service a w then s
  else s.regWrite .service a w

/-- The words of a BAR0 write in ascending order. -/
def State.bar0Puts : List (Word × BitVec 4) → Nat → State → State
  | [], _, s => s
  | (w, en) :: es, a, s => State.bar0Puts es (a + 4) (s.bar0Put a w en)

/-- A word written into the MSI-X table (R446). -/
def State.bar2Put (s : State) (a : Nat) (w : Word) (en : BitVec 4) : State :=
  if 32 ≤ a then s
  else
    let i := a / 16
    let v := s.sep.vectors.getD i (0, 0, true)
    let x := mergeBytes (s.bar2Word a) w en
    let v1 :=
      if a % 16 = 0 then (v.1 / 2 ^ 32 * 2 ^ 32 + x.toNat / 4 * 4, v.2.1, v.2.2)
      else if a % 16 = 4 then (x.toNat * 2 ^ 32 + v.1 % 2 ^ 32, v.2.1, v.2.2)
      else if a % 16 = 8 then (v.1, x.toNat, v.2.2)
      else (v.1, v.2.1, x.getLsbD 0)
    (s.updSep (fun y => { y with vectors := setAt y.vectors i v1 })).msiFlush

/-- The words of a BAR2 write in ascending order. -/
def State.bar2Puts : List (Word × BitVec 4) → Nat → State → State
  | [], _, s => s
  | (w, en) :: es, a, s => State.bar2Puts es (a + 4) (s.bar2Put a w en)

/-- BAR0_WRITE (R425, R439, R443 to R445, R456): a memory write of the service host. One of another size, or in containment, is
discarded. -/
def execBar0Write (addr : Nat) (words : List (Word × BitVec 4)) (s : State) : Host.Outcome State Fault Refusal :=
  if !s.sep.linkUp || s.sep.cause ≠ 0 then .next s
  else if !s.barServes then .next (s.aerRole 20)
  else
    match s.barHit addr with
    | none => .next (s.aerRole 20)
    | some (second, off) =>
      if !barSize off words.length then .next s
      else if second then .next (State.bar2Puts words off s)
      else .next (State.bar0Puts words off s)

end Sys2Proof.Machine
end

