-- ==== Sys2Proof/Machine/Transmit.lean ====
section
/-! DEFINITION. The transmit stage of an external port (R353, R380). -/

namespace Sys2Proof.Machine

/-- A protected frame leaves a MACsec port: at packet number 2^62 this key server distributes a new SAK, at 2^63
without one the SA stops and the port goes down (R380). -/
def State.macsecSent (s : State) (p : Nat) : State :=
  if p < 4 || !s.cfgBit (Reg.iclMscfg + 4 * (p - 4)) 31 then s
  else
    let m := s.kvt.macsec.getD (p - 4) {}
    let m1 := { m with txPn := m.txPn + 1 }
    let put := fun (t : State) (x : MacsecPort) => { t with kvt := { t.kvt with macsec := setAt t.kvt.macsec (p - 4) x } }
    if m1.txPn = 2 ^ 62 && m.newSak.isNone then
      put s.tookFree { m1 with newSak := some s.freeNow }
    else if 2 ^ 63 ≤ m1.txPn then
      (put s { m1 with txSak := none }).portDown (p - 4)
    else put s m1

/-- Payload bytes of a copy on a connection. -/
def HConn.payload (k : HConn) (c : Copy) : Nat := c.len - k.overhead

/-- BTH opcode of a copy: RDMA WRITE First, Middle, Last or Only by its place in its message, SEND Only for any other frame
(R32, R124; opcodes of log 7). -/
def HConn.bthOp (k : HConn) (c : Copy) : Nat :=
  if c.stop = 0 then 0x04
  else
    let ends := c.stop ≤ c.off + k.payload c
    if c.off = c.base then (if ends then 0x0A else 0x06) else (if ends then 0x08 else 0x07)

/-- The header that the output writes for a copy on a connection (R124, R351, R363). The RETH of a message's first packet
carries the offset into the host's buffer and the DMA length. -/
def HConn.rewrite (k : HConn) (c : Copy) : Rewrite :=
  { conn := k.id, path := k.path, dscp := k.dscp, pcp := k.tc, seq := k.sndNext,
    bthOp := if k.transport = .rdma then some (k.bthOp c) else none,
    reth := if k.transport = .rdma && c.stop ≠ 0 && c.off = c.base then some (c.base, c.stop - c.base) else none,
    ack := k.rcvNext, ece := k.ece, cwr := k.cwr, cccid := c.cid, datao := c.off }

/-- The connection after a frame of it was sent: the next PSN, or the next byte of the TCP stream, in the width of its
header field; CWR was carried (R262, R363). -/
def HConn.sent (k : HConn) (c : Copy) : HConn :=
  match k.transport with
  | .rdma => { k with sndNext := (k.sndNext + 1) % 2 ^ 24, cwr := false }
  | .tcp => { k with sndNext := (k.sndNext + k.payload c) % 2 ^ 32, cwr := false }

/-- TRANSMIT_SELECT (R353): the port's transmit stage takes the chosen frame. Shapers are charged, tags and virtual
times advance (R354), and the record and packet counts of its connection and port rise. -/
def execTransmitSelect (port : Nat) (s : State) : Host.Outcome State Fault Refusal :=
  match s.choose port with
  | none => .next s
  | some (ct, qt) =>
    let e := s.egPort port
    match (e.queueOf ct.cls qt.host).head? with
    | none => .next s
    | some (fid, c) =>
      let q1 := e.queue.erase (fid, c)
      let e1 : EgPort := { e with
        queue := q1, vq := qt.fin, vc := ct.fin,
        qtags := e.qtags.filter (fun x => !(x.cls = ct.cls && x.host = qt.host)) ++ [{ qt with last := qt.fin }],
        ctags := e.ctags.filter (fun x => x.cls ≠ ct.cls) ++ [{ ct with last := ct.fin }] }
      let e2 := if q1.isEmpty then { e1 with vq := 0, vc := 0, qtags := [], ctags := [] }
        else
          let e3 := s.tagQueue port e1 ct.cls qt.host
          if q1.any (fun x => x.2.cls = ct.cls) then tagClass e3 ct.cls else e3
      let s1 := c.shapers.foldl (fun t x => t.chargeShaper x.1 x.2 (s.lenOf c)) (s.setEgPort port e2)
      let s2 := (s1.hostEvent 0x11 port (some c.cls) 1).hostEvent 0x13 port (some c.cls) (ceilDiv c.len 64)
      let s3 := match c.conn with
        | some k => (if s2.kvt.tls.any (fun t => t.conn = k) then s2.laneWork (ceilDiv c.len 16) 0 else s2).tlsSent k
        | none => s2
      let hdr := c.conn.bind (fun k => (s3.findConn k).map (fun x => x.rewrite c))
      let s4 := match c.conn with
        | some k => s3.updConn k (fun x => x.sent c)
        | none => s3
      .next ((s4.macsecSent port).emit (.transmit port fid c hdr))

end Sys2Proof.Machine
end

