-- ==== Sys2Proof/Machine/Dispatch.lean ====
section
/-! DEFINITION. The meaning of every command of spec/opcode_table.json: one direct call for each constructor. -/

namespace Sys2Proof.Machine

/-- The effect of a command on the module, by the rules that its meaning cites. -/
def exec (i : Instr) (s : State) : Host.Outcome State Fault Refusal :=
  match i with
  | .rdmaCmConnectionRequest conn port addr qp mtu => Sys2Proof.Machine.execRdmaCmConnectionRequest conn port addr qp mtu s
  | .tcpSyn conn port addr mss => Sys2Proof.Machine.execTcpSyn conn port addr mss s
  | .icreq conn hdgst ddgst => Sys2Proof.Machine.execIcreq conn hdgst ddgst s
  | .connect conn req => Sys2Proof.Machine.execConnect conn req s
  | .propertySet cntlid cid offset value => Sys2Proof.Machine.execPropertySet cntlid cid offset value s
  | .propertyGet cntlid cid offset => Sys2Proof.Machine.execPropertyGet cntlid cid offset s
  | .authenticationSend conn cid msg => Sys2Proof.Machine.execAuthenticationSend conn cid msg s
  | .authenticationReceive conn cid => Sys2Proof.Machine.execAuthenticationReceive conn cid s
  | .disconnect cntlid sqid cid => Sys2Proof.Machine.execDisconnect cntlid sqid cid s
  | .disconnectComplete cntlid sqid => Sys2Proof.Machine.execDisconnectComplete cntlid sqid s
  | .getLogPage cntlid cid lid => Sys2Proof.Machine.execGetLogPage cntlid cid lid s
  | .identify cntlid cid cns nsid => Sys2Proof.Machine.execIdentify cntlid cid cns nsid s
  | .abort cntlid acid sqid cid => Sys2Proof.Machine.execAbort cntlid acid sqid cid s
  | .setFeatures cntlid cid fid value save => Sys2Proof.Machine.execSetFeatures cntlid cid fid value save s
  | .getFeatures cntlid cid fid => Sys2Proof.Machine.execGetFeatures cntlid cid fid s
  | .asynchronousEventRequest cntlid cid => Sys2Proof.Machine.execAsynchronousEventRequest cntlid cid s
  | .keepAlive cntlid cid => Sys2Proof.Machine.execKeepAlive cntlid cid s
  | .nvmeMiSend cntlid cid miOpcode packet => Sys2Proof.Machine.execNvmeMiSend cntlid cid miOpcode packet s
  | .nvmeMiReceive cntlid cid miOpcode packet => Sys2Proof.Machine.execNvmeMiReceive cntlid cid miOpcode packet s
  | .formatNvm cntlid cid nsid lbaf ses protection => Sys2Proof.Machine.execFormatNvm cntlid cid nsid lbaf ses protection s
  | .sanitize cntlid cid action => Sys2Proof.Machine.execSanitize cntlid cid action s
  | .invalidAdminOpcode cntlid cid opcode => Sys2Proof.Machine.execInvalidAdminOpcode cntlid cid opcode s
  | .flush tag => Sys2Proof.Machine.execFlush tag s
  | .write tag => Sys2Proof.Machine.execWrite tag s
  | .read tag => Sys2Proof.Machine.execRead tag s
  | .compare tag => Sys2Proof.Machine.execCompare tag s
  | .writeZeroes tag => Sys2Proof.Machine.execWriteZeroes tag s
  | .datasetManagement tag => Sys2Proof.Machine.execDatasetManagement tag s
  | .invalidIoOpcode cntlid sqid => Sys2Proof.Machine.execInvalidIoOpcode cntlid sqid s
  | .capsuleIntake cntlid sqid capsule => Sys2Proof.Machine.execCapsuleIntake cntlid sqid capsule s
  | .admission vsid => Sys2Proof.Machine.execAdmission vsid s
  | .hostDataReceived tag ok sectors => Sys2Proof.Machine.execHostDataReceived tag ok sectors s
  | .commitPoint tag => Sys2Proof.Machine.execCommitPoint tag s
  | .responseHandoff tag => Sys2Proof.Machine.execResponseHandoff tag s
  | .responseAcknowledged tag => Sys2Proof.Machine.execResponseAcknowledged tag s
  | .squashComplete tag => Sys2Proof.Machine.execSquashComplete tag s
  | .keepAliveTimeout cntlid => Sys2Proof.Machine.execKeepAliveTimeout cntlid s
  | .connectionLoss conn => Sys2Proof.Machine.execConnectionLoss conn s
  | .controllerResetComplete cntlid => Sys2Proof.Machine.execControllerResetComplete cntlid s
  | .shutdownComplete cntlid => Sys2Proof.Machine.execShutdownComplete cntlid s
  | .tagqryWrite w => Sys2Proof.Machine.execTagqryWrite w s
  | .rangeLockGrant tag => Sys2Proof.Machine.execRangeLockGrant tag s
  | .joinCopyComplete => Sys2Proof.Machine.execJoinCopyComplete s
  | .powerFailTrip => Sys2Proof.Machine.execPowerFailTrip s
  | .flushEnd => Sys2Proof.Machine.execFlushEnd s
  | .formatPrepareDone rec => Sys2Proof.Machine.execFormatPrepareDone rec s
  | .eraseRegionDone rec => Sys2Proof.Machine.execEraseRegionDone rec s
  | .keyReplacementDone rec => Sys2Proof.Machine.execKeyReplacementDone rec s
  | .deallocDone rec => Sys2Proof.Machine.execDeallocDone rec s
  | .progressRecordAvailable => Sys2Proof.Machine.execProgressRecordAvailable s
  | .coalescingWindowExpiry group => Sys2Proof.Machine.execCoalescingWindowExpiry group s
  | .groupDataReady group => Sys2Proof.Machine.execGroupDataReady group s
  | .residueTimeout group tag => Sys2Proof.Machine.execResidueTimeout group tag s
  | .groupRegionRelease group => Sys2Proof.Machine.execGroupRegionRelease group s
  | .ringCreate m => Sys2Proof.Machine.execRingCreate m s
  | .ringDelete m => Sys2Proof.Machine.execRingDelete m s
  | .ringInitComplete ring => Sys2Proof.Machine.execRingInitComplete ring s
  | .stripeWriteStart ring stripe => Sys2Proof.Machine.execStripeWriteStart ring stripe s
  | .stripeWriteComplete ring stripe => Sys2Proof.Machine.execStripeWriteComplete ring stripe s
  | .drainMaxageExpiry ring stripe => Sys2Proof.Machine.execDrainMaxageExpiry ring stripe s
  | .bitmapSweep ring => Sys2Proof.Machine.execBitmapSweep ring s
  | .bitmapCheckpoint ring => Sys2Proof.Machine.execBitmapCheckpoint ring s
  | .checkpointWriteComplete ring => Sys2Proof.Machine.execCheckpointWriteComplete ring s
  | .suspectStripeDone ring stripe rows => Sys2Proof.Machine.execSuspectStripeDone ring stripe rows s
  | .verifyStripeDone ring rows => Sys2Proof.Machine.execVerifyStripeDone ring rows s
  | .ptqryWrite w => Sys2Proof.Machine.execPtqryWrite w s
  | .rejoinWindowExpiry ring slot => Sys2Proof.Machine.execRejoinWindowExpiry ring slot s
  | .driveIdentified bay info => Sys2Proof.Machine.execDriveIdentified bay info s
  | .rejoinResyncComplete ring done => Sys2Proof.Machine.execRejoinResyncComplete ring done s
  | .smartCriticalWarning bay bits => Sys2Proof.Machine.execSmartCriticalWarning bay bits s
  | .rebuildStripeDone ring stripe rows => Sys2Proof.Machine.execRebuildStripeDone ring stripe rows s
  | .copybackChunkDone ring slot done => Sys2Proof.Machine.execCopybackChunkDone ring slot done s
  | .rebuildRateTick hostTraffic => Sys2Proof.Machine.execRebuildRateTick hostTraffic s
  | .patrolStripeCheck ring rows => Sys2Proof.Machine.execPatrolStripeCheck ring rows s
  | .memberFail m => Sys2Proof.Machine.execMemberFail m s
  | .memberReplace m => Sys2Proof.Machine.execMemberReplace m s
  | .lostList m => Sys2Proof.Machine.execLostList m s
  | .barkerSend => Sys2Proof.Machine.execBarkerSend s
  | .barkerReceive port b store => Sys2Proof.Machine.execBarkerReceive port b store s
  | .barkerTimeout port => Sys2Proof.Machine.execBarkerTimeout port s
  | .pcsLinkDown port => Sys2Proof.Machine.execPcsLinkDown port s
  | .pcsLinkUp port => Sys2Proof.Machine.execPcsLinkUp port s
  | .peerwaitExpiry => Sys2Proof.Machine.execPeerwaitExpiry s
  | .claimInterval => Sys2Proof.Machine.execClaimInterval s
  | .claimWaitExpiry => Sys2Proof.Machine.execClaimWaitExpiry s
  | .claimReceive port uid fid nonce => Sys2Proof.Machine.execClaimReceive port uid fid nonce s
  | .defendReceive port uid fid claimUid nonce => Sys2Proof.Machine.execDefendReceive port uid fid claimUid nonce s
  | .fidRetry => Sys2Proof.Machine.execFidRetry s
  | .lsaReceive port lsa => Sys2Proof.Machine.execLsaReceive port lsa s
  | .lsaRefresh => Sys2Proof.Machine.execLsaRefresh s
  | .lsdbEntryExpiry fid => Sys2Proof.Machine.execLsdbEntryExpiry fid s
  | .formerFidExpiry => Sys2Proof.Machine.execFormerFidExpiry s
  | .frameForward port hdr => Sys2Proof.Machine.execFrameForward port hdr s
  | .badReltiFrame port f => Sys2Proof.Machine.execBadReltiFrame port f s
  | .statusSend => Sys2Proof.Machine.execStatusSend s
  | .statusReceive st => Sys2Proof.Machine.execStatusReceive st s
  | .electReceive ring prio fid epoch => Sys2Proof.Machine.execElectReceive ring prio fid epoch s
  | .electionTimeout ring => Sys2Proof.Machine.execElectionTimeout ring s
  | .ownerSend ring => Sys2Proof.Machine.execOwnerSend ring s
  | .ownerReceive ring fid epoch => Sys2Proof.Machine.execOwnerReceive ring fid epoch s
  | .ringHandover m => Sys2Proof.Machine.execRingHandover m s
  | .handoverQuiesced ring => Sys2Proof.Machine.execHandoverQuiesced ring s
  | .handoverTimeout ring => Sys2Proof.Machine.execHandoverTimeout ring s
  | .ownerClaim m => Sys2Proof.Machine.execOwnerClaim m s
  | .ownerRenew m => Sys2Proof.Machine.execOwnerRenew m s
  | .handover m => Sys2Proof.Machine.execHandover m s
  | .ownerRelease m => Sys2Proof.Machine.execOwnerRelease m s
  | .electionWindowClose => Sys2Proof.Machine.execElectionWindowClose s
  | .leaseExpiry => Sys2Proof.Machine.execLeaseExpiry s
  | .rtqryWrite w => Sys2Proof.Machine.execRtqryWrite w s
  | .mirrorReceive src mseq body => Sys2Proof.Machine.execMirrorReceive src mseq body s
  | .mirackSend => Sys2Proof.Machine.execMirackSend s
  | .mirackReceive second mseq room => Sys2Proof.Machine.execMirackReceive second mseq room s
  | .mirrorResendTimeout mseq => Sys2Proof.Machine.execMirrorResendTimeout mseq s
  | .cmdstateReceive mseq r => Sys2Proof.Machine.execCmdstateReceive mseq r s
  | .xportReceive mseq x => Sys2Proof.Machine.execXportReceive mseq x s
  | .fwdReceive mseq entries => Sys2Proof.Machine.execFwdReceive mseq entries s
  | .healthCheck coresOk crossbarOk => Sys2Proof.Machine.execHealthCheck coresOk crossbarOk s
  | .heartbeatLoss => Sys2Proof.Machine.execHeartbeatLoss s
  | .fenceDelayExpiry => Sys2Proof.Machine.execFenceDelayExpiry s
  | .fenceInAsserted => Sys2Proof.Machine.execFenceInAsserted s
  | .fenceRelease m => Sys2Proof.Machine.execFenceRelease m s
  | .peerRemoved => Sys2Proof.Machine.execPeerRemoved s
  | .fenceHoldExpiry => Sys2Proof.Machine.execFenceHoldExpiry s
  | .announcementRepeat identity => Sys2Proof.Machine.execAnnouncementRepeat identity s
  | .takeoverDataDrained => Sys2Proof.Machine.execTakeoverDataDrained s
  | .vsCreate m => Sys2Proof.Machine.execVsCreate m s
  | .vsDelete m => Sys2Proof.Machine.execVsDelete m s
  | .vsModify m => Sys2Proof.Machine.execVsModify m s
  | .vsHosts m => Sys2Proof.Machine.execVsHosts m s
  | .vsPortal m => Sys2Proof.Machine.execVsPortal m s
  | .nsCreate m => Sys2Proof.Machine.execNsCreate m s
  | .nsDelete m => Sys2Proof.Machine.execNsDelete m s
  | .nsDeleteComplete vsid nsid => Sys2Proof.Machine.execNsDeleteComplete vsid nsid s
  | .vsReset m => Sys2Proof.Machine.execVsReset m s
  | .vsResetDrained vsid => Sys2Proof.Machine.execVsResetDrained vsid s
  | .vsFreeze m => Sys2Proof.Machine.execVsFreeze m s
  | .freezeQuiesced vsid => Sys2Proof.Machine.execFreezeQuiesced vsid s
  | .quiesceTimeout vsid => Sys2Proof.Machine.execQuiesceTimeout vsid s
  | .maxfrzExpiry vsid => Sys2Proof.Machine.execMaxfrzExpiry vsid s
  | .vsThaw m => Sys2Proof.Machine.execVsThaw m s
  | .vsSave m => Sys2Proof.Machine.execVsSave m s
  | .vsRestore m => Sys2Proof.Machine.execVsRestore m s
  | .vsMigrate m => Sys2Proof.Machine.execVsMigrate m s
  | .vsQuery m => Sys2Proof.Machine.execVsQuery m s
  | .mgmtPropagation p => Sys2Proof.Machine.execMgmtPropagation p s
  | .migrateReceive src tvsid seq body => Sys2Proof.Machine.execMigrateReceive src tvsid seq body s
  | .migrationPhaseEnd vsid done => Sys2Proof.Machine.execMigrationPhaseEnd vsid done s
  | .vsqryWrite w => Sys2Proof.Machine.execVsqryWrite w s
  | .frameReceive port f => Sys2Proof.Machine.execFrameReceive port f s
  | .recirculationPass id authOk plain => Sys2Proof.Machine.execRecirculationPass id authOk plain s
  | .exceptionDrain => Sys2Proof.Machine.execExceptionDrain s
  | .bankSwap byCommand => Sys2Proof.Machine.execBankSwap byCommand s
  | .swapEffect => Sys2Proof.Machine.execSwapEffect s
  | .swapRefusal => Sys2Proof.Machine.execSwapRefusal s
  | .tableCommit => Sys2Proof.Machine.execTableCommit s
  | .tableRead => Sys2Proof.Machine.execTableRead s
  | .batchStart => Sys2Proof.Machine.execBatchStart s
  | .batchEnd => Sys2Proof.Machine.execBatchEnd s
  | .polcirWrite w => Sys2Proof.Machine.execPolcirWrite w s
  | .carouselMatch => Sys2Proof.Machine.execCarouselMatch s
  | .transferComplete input => Sys2Proof.Machine.execTransferComplete input s
  | .transmitSelect port => Sys2Proof.Machine.execTransmitSelect port s
  | .sample point bytes => Sys2Proof.Machine.execSample point bytes s
  | .samplingConfigWrite ratio w => Sys2Proof.Machine.execSamplingConfigWrite ratio w s
  | .pfcRepeat port cls => Sys2Proof.Machine.execPfcRepeat port cls s
  | .pfcFrameReceive port quanta => Sys2Proof.Machine.execPfcFrameReceive port quanta s
  | .pauseExpiry port cls => Sys2Proof.Machine.execPauseExpiry port cls s
  | .cnpReceive conn => Sys2Proof.Machine.execCnpReceive conn s
  | .rateRecovery host => Sys2Proof.Machine.execRateRecovery host s
  | .occqryWrite w => Sys2Proof.Machine.execOccqryWrite w s
  | .rekeyPieceLoaded slot blocks => Sys2Proof.Machine.execRekeyPieceLoaded slot blocks s
  | .rekeyRegionDone slot => Sys2Proof.Machine.execRekeyRegionDone slot s
  | .mkaFrameReceive port msg => Sys2Proof.Machine.execMkaFrameReceive port msg s
  | .mkaHello port => Sys2Proof.Machine.execMkaHello port s
  | .mkaLifeExpiry port member => Sys2Proof.Machine.execMkaLifeExpiry port member s
  | .clientHello conn identities suiteOk groupOk binderOk => Sys2Proof.Machine.execClientHello conn identities suiteOk groupOk binderOk s
  | .keyUpdateReceive conn => Sys2Proof.Machine.execKeyUpdateReceive conn s
  | .pairKeyAgreementComplete ok => Sys2Proof.Machine.execPairKeyAgreementComplete ok s
  | .keyInfo m => Sys2Proof.Machine.execKeyInfo m s
  | .keyChallenge m => Sys2Proof.Machine.execKeyChallenge m s
  | .keyLogin m => Sys2Proof.Machine.execKeyLogin m s
  | .keyLogout m => Sys2Proof.Machine.execKeyLogout m s
  | .keyGenerate m => Sys2Proof.Machine.execKeyGenerate m s
  | .keyImport m => Sys2Proof.Machine.execKeyImport m s
  | .keyExport m => Sys2Proof.Machine.execKeyExport m s
  | .keyDelete m => Sys2Proof.Machine.execKeyDelete m s
  | .keyRekey m => Sys2Proof.Machine.execKeyRekey m s
  | .keySelftest m failRow => Sys2Proof.Machine.execKeySelftest m failRow s
  | .keyZeroize m => Sys2Proof.Machine.execKeyZeroize m s
  | .keyRandom m => Sys2Proof.Machine.execKeyRandom m s
  | .sessionIdleExpiry => Sys2Proof.Machine.execSessionIdleExpiry s
  | .nonceExpiry => Sys2Proof.Machine.execNonceExpiry s
  | .loginLockoutExpiry officer => Sys2Proof.Machine.execLoginLockoutExpiry officer s
  | .vaultEnvironmentZeroize => Sys2Proof.Machine.execVaultEnvironmentZeroize s
  | .entropyHealthFailure => Sys2Proof.Machine.execEntropyHealthFailure s
  | .vaultSelftestComplete failRow => Sys2Proof.Machine.execVaultSelftestComplete failRow s
  | .doorbellSend w => Sys2Proof.Machine.execDoorbellSend w s
  | .mctpMessage packet => Sys2Proof.Machine.execMctpMessage packet s
  | .mctpControlMessage command => Sys2Proof.Machine.execMctpControlMessage command s
  | .mgmtFrameReceive fid kind packet => Sys2Proof.Machine.execMgmtFrameReceive fid kind packet s
  | .poll m packet => Sys2Proof.Machine.execPoll m packet s
  | .commandStart m => Sys2Proof.Machine.execCommandStart m s
  | .describe m => Sys2Proof.Machine.execDescribe m s
  | .mbFlush m => Sys2Proof.Machine.execMbFlush m s
  | .mbReset m => Sys2Proof.Machine.execMbReset m s
  | .regRead m => Sys2Proof.Machine.execRegRead m s
  | .regWrite m => Sys2Proof.Machine.execRegWrite m s
  | .regModify m => Sys2Proof.Machine.execRegModify m s
  | .pmuLoRead addr => Sys2Proof.Machine.execPmuLoRead addr s
  | .fabTopo m => Sys2Proof.Machine.execFabTopo m s
  | .fwDownload m => Sys2Proof.Machine.execFwDownload m s
  | .fwCommit m => Sys2Proof.Machine.execFwCommit m s
  | .fwCommitDone => Sys2Proof.Machine.execFwCommitDone s
  | .fwActivate m => Sys2Proof.Machine.execFwActivate m s
  | .activationComplete => Sys2Proof.Machine.execActivationComplete s
  | .activationTimeout => Sys2Proof.Machine.execActivationTimeout s
  | .fwStatus m => Sys2Proof.Machine.execFwStatus m s
  | .pldmGetSensorReading sensor => Sys2Proof.Machine.execPldmGetSensorReading sensor s
  | .pldmRequestUpdate => Sys2Proof.Machine.execPldmRequestUpdate s
  | .pldmComponentTransfer offset bytes => Sys2Proof.Machine.execPldmComponentTransfer offset bytes s
  | .pldmVerifyApply => Sys2Proof.Machine.execPldmVerifyApply s
  | .pldmActivateFirmware => Sys2Proof.Machine.execPldmActivateFirmware s
  | .bar0Read addr enables => Sys2Proof.Machine.execBar0Read addr enables s
  | .bar0Write addr words => Sys2Proof.Machine.execBar0Write addr words s
  | .sepPerstDeassert => Sys2Proof.Machine.execSepPerstDeassert s
  | .sepLinkDown => Sys2Proof.Machine.execSepLinkDown s
  | .configWrite offset w enables => Sys2Proof.Machine.execConfigWrite offset w enables s
  | .functionLevelReset => Sys2Proof.Machine.execFunctionLevelReset s
  | .flrComplete => Sys2Proof.Machine.execFlrComplete s
  | .hotReset => Sys2Proof.Machine.execHotReset s
  | .dmaCompletion tag addr status bytes => Sys2Proof.Machine.execDmaCompletion tag addr status bytes s
  | .completionTimeout tag => Sys2Proof.Machine.execCompletionTimeout tag s
  | .quarantineExpiry tag => Sys2Proof.Machine.execQuarantineExpiry tag s
  | .containmentRelease => Sys2Proof.Machine.execContainmentRelease s
  | .containmentReleaseEffect => Sys2Proof.Machine.execContainmentReleaseEffect s
  | .doeRequest obj => Sys2Proof.Machine.execDoeRequest obj s
  | .doeAbort => Sys2Proof.Machine.execDoeAbort s
  | .presenceAssert bay => Sys2Proof.Machine.execPresenceAssert bay s
  | .debounceComplete bay => Sys2Proof.Machine.execDebounceComplete bay s
  | .presenceLoss bay => Sys2Proof.Machine.execPresenceLoss bay s
  | .rampStart bay => Sys2Proof.Machine.execRampStart bay s
  | .powerGood bay => Sys2Proof.Machine.execPowerGood bay s
  | .pgtimeout bay => Sys2Proof.Machine.execPgtimeout bay s
  | .perstDelayExpiry bay => Sys2Proof.Machine.execPerstDelayExpiry bay s
  | .driveLinkL0 port speed width => Sys2Proof.Machine.execDriveLinkL0 port speed width s
  | .linkTrainingTimeout port => Sys2Proof.Machine.execLinkTrainingTimeout port s
  | .bayReady bay => Sys2Proof.Machine.execBayReady bay s
  | .overcurrent bay => Sys2Proof.Machine.execOvercurrent bay s
  | .fasttrip bay => Sys2Proof.Machine.execFasttrip bay s
  | .undervolt bay => Sys2Proof.Machine.execUndervolt bay s
  | .bayInputFault => Sys2Proof.Machine.execBayInputFault s
  | .bayInputRestored => Sys2Proof.Machine.execBayInputRestored s
  | .retryExpiry bay => Sys2Proof.Machine.execRetryExpiry bay s
  | .bholdARise => Sys2Proof.Machine.execBholdARise s
  | .holderRegain => Sys2Proof.Machine.execHolderRegain s
  | .powerCycleDelay bay => Sys2Proof.Machine.execPowerCycleDelay bay s
  | .dpxCompletionTimeout port tag => Sys2Proof.Machine.execDpxCompletionTimeout port tag s
  | .dpxQuarantineExpiry port tag => Sys2Proof.Machine.execDpxQuarantineExpiry port tag s
  | .memberCommandCompletion id result blocks => Sys2Proof.Machine.execMemberCommandCompletion id result blocks s
  | .memberCommandTimeout id => Sys2Proof.Machine.execMemberCommandTimeout id s
  | .memberAbortTimeout id => Sys2Proof.Machine.execMemberAbortTimeout id s
  | .hedgeExpiry id => Sys2Proof.Machine.execHedgeExpiry id s
  | .surpriseLinkDown port => Sys2Proof.Machine.execSurpriseLinkDown port s
  | .drivePortFatalError port => Sys2Proof.Machine.execDrivePortFatalError port s
  | .containmentHoldExpiry port => Sys2Proof.Machine.execContainmentHoldExpiry port s
  | .dpcrelWrite w => Sys2Proof.Machine.execDpcrelWrite w s
  | .bayPower m => Sys2Proof.Machine.execBayPower m s
  | .bayLed m => Sys2Proof.Machine.execBayLed m s
  | .bayClear m => Sys2Proof.Machine.execBayClear m s
  | .bayQuery m => Sys2Proof.Machine.execBayQuery m s
  | .powerUp recalled bist => Sys2Proof.Machine.execPowerUp recalled bist s
  | .efuseCurrentLimit => Sys2Proof.Machine.execEfuseCurrentLimit s
  | .efuseFastTrip => Sys2Proof.Machine.execEfuseFastTrip s
  | .efuseRetry => Sys2Proof.Machine.execEfuseRetry s
  | .efuseFaultClear => Sys2Proof.Machine.execEfuseFaultClear s
  | .vinCutoff => Sys2Proof.Machine.execVinCutoff s
  | .vinOvervoltage => Sys2Proof.Machine.execVinOvervoltage s
  | .railFault rail => Sys2Proof.Machine.execRailFault rail s
  | .aonFeedLoss => Sys2Proof.Machine.execAonFeedLoss s
  | .referenceLoss => Sys2Proof.Machine.execReferenceLoss s
  | .referenceRestored => Sys2Proof.Machine.execReferenceRestored s
  | .domainWake domain => Sys2Proof.Machine.execDomainWake domain s
  | .domainIdle domain => Sys2Proof.Machine.execDomainIdle domain s
  | .powerStateEvaluation window => Sys2Proof.Machine.execPowerStateEvaluation window s
  | .retentionCheck ok => Sys2Proof.Machine.execRetentionCheck ok s
  | .supervisorTrim => Sys2Proof.Machine.execSupervisorTrim s
  | .modRestart m => Sys2Proof.Machine.execModRestart m s
  | .restartDrainComplete => Sys2Proof.Machine.execRestartDrainComplete s
  | .pwrPolicy m => Sys2Proof.Machine.execPwrPolicy m s
  | .pwrQuery m => Sys2Proof.Machine.execPwrQuery m s
  | .thermalTrip => Sys2Proof.Machine.execThermalTrip s
  | .marginScan lane => Sys2Proof.Machine.execMarginScan lane s
  | .marginScanComplete lane r => Sys2Proof.Machine.execMarginScanComplete lane r s
  | .relearnWaitExpiry => Sys2Proof.Machine.execRelearnWaitExpiry s
  | .egressDrained => Sys2Proof.Machine.execEgressDrained s
  | .retrainCheck scans => Sys2Proof.Machine.execRetrainCheck scans s
  | .parkedRetry port => Sys2Proof.Machine.execParkedRetry port s
  | .routeMoveWait => Sys2Proof.Machine.execRouteMoveWait s
  | .retrainNoticeTimeout => Sys2Proof.Machine.execRetrainNoticeTimeout s
  | .drivePortRetrainEnd port ok => Sys2Proof.Machine.execDrivePortRetrainEnd port ok s
  | .hbmPass stack temp => Sys2Proof.Machine.execHbmPass stack temp s
  | .hbmSlice => Sys2Proof.Machine.execHbmSlice s
  | .eccBurst pc => Sys2Proof.Machine.execEccBurst pc s
  | .chopAverage channel microvolt => Sys2Proof.Machine.execChopAverage channel microvolt s
  | .sensorTrim differences => Sys2Proof.Machine.execSensorTrim differences s
  | .cntConfig m => Sys2Proof.Machine.execCntConfig m s
  | .cntRead m => Sys2Proof.Machine.execCntRead m s
  | .cntSnapshot m => Sys2Proof.Machine.execCntSnapshot m s
  | .boxOfficeSweep late => Sys2Proof.Machine.execBoxOfficeSweep late s
  | .testStart m => Sys2Proof.Machine.execTestStart m s
  | .testStop m => Sys2Proof.Machine.execTestStop m s
  | .testResult m => Sys2Proof.Machine.execTestResult m s
  | .liveTestEnd r => Sys2Proof.Machine.execLiveTestEnd r s
  | .tapInstruction ir => Sys2Proof.Machine.execTapInstruction ir s
  | .timeBaseSet => Sys2Proof.Machine.execTimeBaseSet s
  | .timeBaseLatch => Sys2Proof.Machine.execTimeBaseLatch s
  | .fenceInDeasserted => Sys2Proof.Machine.execFenceInDeasserted s
  | .bholdAFall => Sys2Proof.Machine.execBholdAFall s
  | .masterPresenceExpiry m => Sys2Proof.Machine.execMasterPresenceExpiry m s
  | .duplicateSuppressionExpiry uid nonce => Sys2Proof.Machine.execDuplicateSuppressionExpiry uid nonce s
  | .sepPerstAssert => Sys2Proof.Machine.execSepPerstAssert s
  | .sepLinkUp speed width => Sys2Proof.Machine.execSepLinkUp speed width s
  | .domainOn domain ok => Sys2Proof.Machine.execDomainOn domain ok s
  | .sampleQueueDrain => Sys2Proof.Machine.execSampleQueueDrain s
  | .hbmpcPiece errors => Sys2Proof.Machine.execHbmpcPiece errors s
  | .bayTestVoutCheck millivolt => Sys2Proof.Machine.execBayTestVoutCheck millivolt s

end Sys2Proof.Machine
end

