-- ==== Sys2Proof/Safety.lean ====
section
/-! DEFINITION. What a safe run is: no step stops the block, and the state keeps its form. `State.Inv` is that form:
the register file and the addressed buffers are canonical, bits of units that the part lacks read 0 (R6), every group of
like parts has its number of entries, and a master has at most one outstanding command in the mailbox (R416, R421). -/

namespace Sys2Proof.Machine

/-- The register file lists no bit of a unit that the part does not have (R6). -/
def absentClear (p : Part) (l : List (Nat × Word)) : Bool := l.all (fun e => e.2 &&& absentBits p e.1 = 0)

/-- The numbers of like parts: bays and their drive ports (R1), fabric ports (R220), external ports and crossbar ports
(R335), sample points (R348), masters (R245), counter sets (R548), MACsec ports (R377), current sensors (R541), HBM stacks
(R538), MSI-X vectors (R446) and exception buckets (R330). -/
structure Counts (s : State) : Prop where
  bays : s.bay.bays.length = 24
  drivePorts : s.bay.ports.length = 24
  fabPorts : s.rfx.ports.length = 4
  egress : s.xbr.ports.length = 8
  grant : s.xbr.grant.length = 14
  accept : s.xbr.accept.length = 14
  points : s.xbr.countdown.length = 16
  masters : s.mbx.held.length = 4
  sets : s.pmu.sets.length = 4
  macsec : s.kvt.macsec.length = 4
  sensors : s.lcu.offsets.length = 25
  hbmStacks : s.lcu.hbm.lastPass.length = 4
  vectors : s.sep.vectors.length = 2
  buckets : s.ppc.buckets.length = 3

/-- The form that every step keeps. -/
structure State.Inv (s : State) : Prop where
  regs : regsWf s.part s.slot s.regs = true
  absent : absentClear s.part s.regs = true
  window : cellsWf s.mbx.cmdWin = true
  stage : cellsWf s.mbx.stage = true
  counts : Counts s
  oneEach : (s.mbx.cmds.map (fun c => c.m)).Nodup

/-- What fuses and straps fix, and the clock, which only a tick moves: no command changes them. -/
structure State.SameModule (s t : State) : Prop where
  now : t.now = s.now
  part : t.part = s.part
  slot : t.slot = s.slot
  uid : t.uid = s.uid
  smbAddr : t.smbAddr = s.smbAddr
  strapsOk : t.strapsOk = s.strapsOk
  macs : t.macs = s.macs

/-! ## What a command may change -/

/-- The registers that the module itself moves: saturating counters (RC) and event flags (W1C), by R14. -/
def movedRegs : List Nat :=
  [Reg.hceAbtcnt, Reg.hceProtoerr, Reg.hceRlwait, Reg.rfuUnicast, Reg.rfuSolo, Reg.rfuResid, Reg.rfuOpened, Reg.rfuJoined,
   Reg.rfuNogrp,
   Reg.rgeRepaired, Reg.rgeTorn, Reg.rgePatmis, Reg.rgeLostcnt, Reg.rfxTkstat, Reg.rfxFidstat, Reg.rfxNoroute, Reg.rfxMirrtx,
   Reg.rfxHopexp, Reg.rfxBadhdr] ++
  [Reg.vsmCfgstat, Reg.mbxFwstat, Reg.mbxReject, Reg.mbxCrcerr, Reg.kvtStat, Reg.iclMsauth, Reg.iclTlsauth, Reg.iclRekeys,
   Reg.iclMsdrop, Reg.iclKeyupd, Reg.sepNarrow, Reg.sepDmafail, Reg.sepLateCpl, Reg.sepCto, Reg.sepEvtstat, Reg.dpxCto, Reg.dpxLateCpl,
   Reg.dpxIoretry, Reg.dpxHedged, Reg.dpxContain] ++
  [Reg.ppcTwctl, Reg.ppcBankstat, Reg.ppcTreeerr, Reg.ppcRclimit, Reg.ppcPduerr, Reg.ppcMalform, Reg.ppcIncompl, Reg.ppcIcrcerr,
   Reg.ppcExqfull, Reg.xbrMcwdraw, Reg.xbrSampled, Reg.xbrSampdrop, Reg.xbrResfull, Reg.essEcnmark, Reg.essLinkflush,
   Reg.essPfcovf, Reg.essDedrop, Reg.essCnptx, Reg.essCnprx] ++
  [Reg.lcuDefers, Reg.lcuHbmrt, Reg.lcuRetrains, Reg.lcuDpretrain, Reg.lcuBpcoor, Reg.pwrEvt, Reg.pmuBoxstat]

/-- A register that the module itself moves: one of `movedRegs`, an exception drop counter (R330), a port's PFC or FEC
counter (R359, R597), or a counter set's overflow flags (R555). -/
def IsMoved (a : Nat) : Prop :=
  a ∈ movedRegs ∨
    (∃ n < 3, a = Reg.ppcExdrop0 + 4 * n) ∨ (∃ n < 8, a = Reg.macPfcrx + 0x40 * n ∨ a = Reg.macFecunc + 0x40 * n) ∨
    ∃ n < 4, a = Reg.pmuOvf + 0x100 * n

/-- Which parts of the state may change: a unit of R17 by its name in `State`; `props` the changes under way to the peer,
`moved` the registers of `IsMoved`, `cfg` any register, `out` what leaves the block, `free` the count of free values. -/
structure Units where
  hce : Bool := false
  rfu : Bool := false
  rge : Bool := false
  snt : Bool := false
  rfx : Bool := false
  tk : Bool := false
  vsm : Bool := false
  kvt : Bool := false
  mbx : Bool := false
  bay : Bool := false
  props : Bool := false
  ppc : Bool := false
  xbr : Bool := false
  sep : Bool := false
  pwr : Bool := false
  lcu : Bool := false
  pmu : Bool := false
  tst : Bool := false
  mac : Bool := false
  moved : Bool := false
  cfg : Bool := false
  out : Bool := false
  free : Bool := false

/-- From `s` to `t` nothing changes outside the parts that `u` names. -/
structure Only (u : Units) (s t : State) : Prop where
  hce : u.hce = true ∨ t.hce = s.hce
  rfu : u.rfu = true ∨ t.rfu = s.rfu
  rge : u.rge = true ∨ t.rge = s.rge
  snt : u.snt = true ∨ t.snt = s.snt
  rfx : u.rfx = true ∨ t.rfx = s.rfx
  tk : u.tk = true ∨ t.tk = s.tk
  vsm : u.vsm = true ∨ t.vsm = s.vsm
  kvt : u.kvt = true ∨ t.kvt = s.kvt
  mbx : u.mbx = true ∨ t.mbx = s.mbx
  bay : u.bay = true ∨ t.bay = s.bay
  props : u.props = true ∨ t.props = s.props
  ppc : u.ppc = true ∨ t.ppc = s.ppc
  xbr : u.xbr = true ∨ t.xbr = s.xbr
  sep : u.sep = true ∨ t.sep = s.sep
  pwr : u.pwr = true ∨ t.pwr = s.pwr
  lcu : u.lcu = true ∨ t.lcu = s.lcu
  pmu : u.pmu = true ∨ t.pmu = s.pmu
  tst : u.tst = true ∨ t.tst = s.tst
  mac : u.mac = true ∨ t.mac = s.mac
  regs : u.cfg = true ∨ ∀ a, (u.moved = true → ¬ IsMoved a) → t.reg a = s.reg a
  out : u.out = true ∨ t.out = s.out
  free : u.free = true ∨ t.freeCtr = s.freeCtr

/-- The parts of the state that a command may change, whatever its operands and the state; each later statement says what it
changes in them. -/
def unitsOf : Instr → Units
  | .rdmaCmConnectionRequest _ _ _ _ _ | .tcpSyn _ _ _ _ | .connect _ _ | .keepAlive _ _ | .flush _
  | .shutdownComplete _ | .formatPrepareDone _ | .eraseRegionDone _ =>
    { hce := true, rfx := true, xbr := true, pmu := true, moved := true, out := true }
  | .icreq _ _ _ | .disconnectComplete _ _ | .capsuleIntake _ _ _ | .connectionLoss _ =>
    { hce := true, rfu := true, rfx := true, kvt := true, xbr := true, pmu := true, moved := true, out := true }
  | .propertySet _ _ _ _ | .propertyGet _ _ _ | .authenticationSend _ _ _ | .authenticationReceive _ _
  | .disconnect _ _ _ | .identify _ _ _ _ | .setFeatures _ _ _ _ _ | .getFeatures _ _ _
  | .asynchronousEventRequest _ _ | .nvmeMiSend _ _ _ _ | .nvmeMiReceive _ _ _ _ | .formatNvm _ _ _ _ _ _
  | .sanitize _ _ _ | .invalidAdminOpcode _ _ _ | .progressRecordAvailable =>
    { hce := true, rfu := true, rfx := true, kvt := true, mbx := true, xbr := true, pmu := true, moved := true,
      out := true, free := true }
  | .getLogPage _ _ _ =>
    { hce := true, rfx := true, xbr := true, pmu := true, moved := true, out := true, free := true }
  | .abort _ _ _ _ | .commitPoint _ | .responseHandoff _ | .responseAcknowledged _ | .squashComplete _
  | .keepAliveTimeout _ | .coalescingWindowExpiry _ | .groupDataReady _ =>
    { hce := true, rfu := true, rfx := true, xbr := true, pmu := true, moved := true, out := true }
  | .write _ =>
    { hce := true, out := true }
  | .read _ | .compare _ =>
    { hce := true, rfu := true, rge := true, rfx := true, bay := true, xbr := true, pmu := true, moved := true,
      out := true, free := true }
  | .writeZeroes _ | .datasetManagement _ =>
    { hce := true, rge := true, rfx := true, bay := true, xbr := true, pwr := true, pmu := true, moved := true,
      out := true, free := true }
  | .invalidIoOpcode _ _ | .admission _ =>
    { hce := true, rfu := true, rge := true, rfx := true, tk := true, vsm := true, bay := true, xbr := true,
      pwr := true, pmu := true, moved := true, cfg := true, out := true, free := true }
  | .hostDataReceived _ _ _ | .rangeLockGrant _ =>
    { hce := true, rfu := true, rge := true, rfx := true, bay := true, xbr := true, pwr := true, pmu := true,
      moved := true, out := true, free := true }
  | .controllerResetComplete _ | .rekeyRegionDone _ =>
    { hce := true, rfx := true, kvt := true, xbr := true, pmu := true, moved := true, out := true }
  | .tagqryWrite _ =>
    { hce := true, cfg := true }
  | .joinCopyComplete =>
    { hce := true, rfx := true }
  | .powerFailTrip =>
    { hce := true, rfu := true, rfx := true, bay := true, xbr := true, pwr := true, pmu := true, moved := true,
      out := true, free := true }
  | .flushEnd | .fenceInAsserted | .activationTimeout | .efuseCurrentLimit | .efuseFastTrip | .vinCutoff
  | .railFault _ | .modRestart _ | .restartDrainComplete =>
    { hce := true, rfu := true, rge := true, snt := true, rfx := true, tk := true, vsm := true, kvt := true,
      mbx := true, bay := true, props := true, ppc := true, xbr := true, sep := true, pwr := true, lcu := true,
      pmu := true, tst := true, mac := true, moved := true, cfg := true, out := true, free := true }
  | .keyReplacementDone _ | .keyUpdateReceive _ =>
    { hce := true, rfx := true, kvt := true, xbr := true, pmu := true, moved := true, out := true, free := true }
  | .deallocDone _ =>
    { hce := true, rge := true, rfx := true, vsm := true, xbr := true, pmu := true, moved := true, out := true }
  | .residueTimeout _ _ =>
    { rfu := true, xbr := true, moved := true }
  | .groupRegionRelease _ =>
    { rfu := true }
  | .ringCreate _ =>
    { hce := true, rge := true, rfx := true, mbx := true, bay := true, xbr := true, pmu := true, moved := true,
      out := true }
  | .ringDelete _ =>
    { hce := true, rge := true, snt := true, rfx := true, mbx := true, bay := true, props := true, xbr := true,
      pmu := true, moved := true, out := true }
  | .ringInitComplete _ | .rebuildRateTick _ =>
    { rge := true }
  | .stripeWriteStart _ _ | .drainMaxageExpiry _ _ =>
    { hce := true, rge := true, rfx := true, kvt := true, bay := true, xbr := true, pmu := true, moved := true,
      out := true, free := true }
  | .stripeWriteComplete _ _ | .verifyStripeDone _ _ | .rejoinWindowExpiry _ _ | .driveIdentified _ _
  | .rejoinResyncComplete _ _ | .smartCriticalWarning _ _ | .rebuildStripeDone _ _ _ | .copybackChunkDone _ _ _
  | .ownerReceive _ _ _ | .memberCommandCompletion _ _ _ | .memberCommandTimeout _ | .hedgeExpiry _ =>
    { hce := true, rfu := true, rge := true, rfx := true, kvt := true, bay := true, xbr := true, pwr := true,
      pmu := true, moved := true, out := true, free := true }
  | .bitmapSweep _ | .checkpointWriteComplete _ | .electReceive _ _ _ _ | .electionTimeout _ =>
    { rge := true, rfx := true, xbr := true, pmu := true, moved := true, out := true }
  | .bitmapCheckpoint _ | .patrolStripeCheck _ _ =>
    { rge := true, rfx := true, bay := true, xbr := true, pmu := true, moved := true, out := true }
  | .suspectStripeDone _ _ _ | .ownerSend _ =>
    { hce := true, rfu := true, rge := true, snt := true, rfx := true, kvt := true, bay := true, xbr := true,
      pwr := true, pmu := true, moved := true, out := true, free := true }
  | .ptqryWrite _ =>
    { rge := true, cfg := true }
  | .memberFail _ | .memberReplace _ =>
    { hce := true, rfu := true, rge := true, rfx := true, kvt := true, mbx := true, bay := true, xbr := true,
      pwr := true, pmu := true, moved := true, out := true, free := true }
  | .lostList _ | .ownerRenew _ | .vsQuery _ | .keyInfo _ | .keyExport _ | .describe _ | .mbFlush _ | .mbReset _
  | .fabTopo _ | .fwDownload _ | .fwCommit _ | .fwCommitDone | .fwActivate _ | .fwStatus _ | .cntRead _
  | .cntSnapshot _ | .testResult _ =>
    { mbx := true, moved := true, out := true }
  | .barkerSend | .claimReceive _ _ _ _ | .defendReceive _ _ _ _ _ | .fidRetry =>
    { rfx := true, xbr := true, out := true, free := true }
  | .barkerReceive _ _ _ | .keySelftest _ _ | .keyZeroize _ | .vaultEnvironmentZeroize | .entropyHealthFailure
  | .vaultSelftestComplete _ =>
    { hce := true, rfu := true, rge := true, rfx := true, tk := true, vsm := true, kvt := true, mbx := true,
      bay := true, props := true, xbr := true, sep := true, pwr := true, lcu := true, pmu := true, tst := true,
      moved := true, out := true }
  | .barkerTimeout _ | .heartbeatLoss | .mkaLifeExpiry _ _ | .routeMoveWait =>
    { hce := true, rge := true, rfx := true, tk := true, vsm := true, kvt := true, mbx := true, bay := true,
      props := true, xbr := true, sep := true, pwr := true, lcu := true, pmu := true, tst := true, moved := true,
      out := true }
  | .pcsLinkDown _ | .powerStateEvaluation _ =>
    { hce := true, rge := true, rfx := true, tk := true, vsm := true, kvt := true, mbx := true, bay := true,
      props := true, xbr := true, sep := true, pwr := true, lcu := true, pmu := true, tst := true, mac := true,
      moved := true, out := true }
  | .pcsLinkUp _ =>
    { hce := true, rfx := true, tk := true, pwr := true, mac := true, out := true }
  | .peerwaitExpiry =>
    { hce := true, rge := true, rfx := true, mbx := true, props := true, xbr := true, pmu := true, moved := true,
      out := true }
  | .claimInterval =>
    { rfx := true, xbr := true, out := true }
  | .claimWaitExpiry =>
    { hce := true, rge := true, rfx := true, tk := true, xbr := true, pmu := true, moved := true, out := true }
  | .lsaReceive _ _ =>
    { hce := true, rfx := true, tk := true, xbr := true, moved := true, out := true, free := true }
  | .lsaRefresh | .lsdbEntryExpiry _ =>
    { hce := true, rfx := true, tk := true, xbr := true, out := true }
  | .formerFidExpiry | .duplicateSuppressionExpiry _ _ =>
    { rfx := true }
  | .frameForward _ _ =>
    { xbr := true, pmu := true, moved := true, out := true }
  | .badReltiFrame _ _ | .vinOvervoltage | .aonFeedLoss =>
    { moved := true }
  | .statusSend | .pfcRepeat _ _ =>
    { xbr := true, out := true }
  | .statusReceive _ =>
    { hce := true, rge := true, rfx := true, vsm := true, kvt := true, mbx := true, xbr := true, lcu := true,
      pmu := true, moved := true, out := true }
  | .ringHandover _ | .handoverTimeout _ =>
    { rge := true, mbx := true, moved := true, out := true }
  | .handoverQuiesced _ =>
    { hce := true, rge := true, rfx := true, mbx := true, xbr := true, pmu := true, moved := true, out := true }
  | .ownerClaim _ | .handover _ | .ownerRelease _ | .electionWindowClose | .leaseExpiry =>
    { kvt := true, mbx := true, sep := true, moved := true, out := true }
  | .rtqryWrite _ =>
    { rfx := true, cfg := true }
  | .mirrorReceive _ _ _ | .mirackSend | .cmdstateReceive _ _ | .xportReceive _ _ | .fwdReceive _ _ =>
    { hce := true, rfu := true, rge := true, snt := true, rfx := true, vsm := true, kvt := true, mbx := true,
      bay := true, xbr := true, pwr := true, pmu := true, moved := true, out := true, free := true }
  | .mirackReceive _ _ _ =>
    { hce := true, rge := true, rfx := true, tk := true, vsm := true, kvt := true, mbx := true, bay := true,
      xbr := true, pmu := true, moved := true, out := true, free := true }
  | .mirrorResendTimeout _ =>
    { rfx := true, xbr := true, moved := true, out := true }
  | .healthCheck _ _ | .retentionCheck _ | .thermalTrip =>
    { hce := true, rfu := true, rfx := true, tk := true, bay := true, xbr := true, pwr := true, pmu := true,
      moved := true, out := true, free := true }
  | .fenceDelayExpiry | .peerRemoved | .announcementRepeat _ =>
    { tk := true, out := true }
  | .fenceRelease _ =>
    { tk := true, mbx := true, moved := true, out := true }
  | .fenceHoldExpiry =>
    { hce := true, rfu := true, rge := true, snt := true, rfx := true, tk := true, kvt := true, mbx := true,
      bay := true, xbr := true, pwr := true, pmu := true, moved := true, cfg := true, out := true, free := true }
  | .takeoverDataDrained =>
    { hce := true, tk := true }
  | .vsCreate _ | .vsDelete _ | .vsModify _ | .vsHosts _ | .vsPortal _ | .nsCreate _ =>
    { hce := true, rfu := true, rfx := true, vsm := true, kvt := true, mbx := true, props := true, xbr := true,
      pmu := true, moved := true, out := true }
  | .nsDelete _ =>
    { vsm := true, mbx := true, props := true, xbr := true, moved := true, out := true }
  | .nsDeleteComplete _ _ =>
    { hce := true, rge := true, rfx := true, vsm := true, mbx := true, xbr := true, pmu := true, moved := true,
      out := true }
  | .vsReset _ =>
    { hce := true, rfu := true, rfx := true, vsm := true, mbx := true, xbr := true, pmu := true, moved := true,
      out := true }
  | .vsResetDrained _ =>
    { hce := true, rfx := true, vsm := true, kvt := true, mbx := true, xbr := true, pmu := true, moved := true,
      out := true }
  | .vsFreeze _ | .vsSave _ =>
    { vsm := true, mbx := true, moved := true, out := true }
  | .freezeQuiesced _ =>
    { hce := true, vsm := true, mbx := true, moved := true, out := true }
  | .quiesceTimeout _ | .vsThaw _ =>
    { hce := true, vsm := true, mbx := true, xbr := true, moved := true, out := true }
  | .maxfrzExpiry _ =>
    { hce := true, vsm := true, xbr := true, moved := true, out := true }
  | .vsRestore _ =>
    { hce := true, rfx := true, vsm := true, kvt := true, mbx := true, xbr := true, pmu := true, moved := true,
      out := true, free := true }
  | .vsMigrate _ =>
    { vsm := true, mbx := true, xbr := true, moved := true, out := true }
  | .mgmtPropagation _ =>
    { hce := true, rfu := true, rge := true, snt := true, rfx := true, vsm := true, kvt := true, xbr := true,
      pmu := true, moved := true, out := true }
  | .migrateReceive _ _ _ _ =>
    { hce := true, rfx := true, tk := true, vsm := true, kvt := true, xbr := true, pwr := true, pmu := true,
      moved := true, out := true, free := true }
  | .migrationPhaseEnd _ _ =>
    { hce := true, vsm := true, xbr := true, pmu := true, moved := true, out := true, free := true }
  | .vsqryWrite _ =>
    { vsm := true, cfg := true }
  | .frameReceive _ _ =>
    { hce := true, rfu := true, rfx := true, kvt := true, ppc := true, xbr := true, pmu := true, moved := true,
      out := true }
  | .recirculationPass _ _ _ =>
    { hce := true, rfu := true, rfx := true, kvt := true, ppc := true, xbr := true, pmu := true, moved := true,
      out := true, free := true }
  | .exceptionDrain | .bankSwap _ | .polcirWrite _ =>
    { ppc := true }
  | .swapEffect | .regWrite _ | .bar0Write _ _ =>
    { hce := true, rge := true, rfx := true, tk := true, vsm := true, kvt := true, mbx := true, bay := true,
      props := true, ppc := true, xbr := true, sep := true, pwr := true, lcu := true, pmu := true, tst := true,
      mac := true, moved := true, cfg := true, out := true }
  | .swapRefusal =>
    { mbx := true, ppc := true, moved := true, out := true }
  | .tableCommit | .batchStart | .batchEnd =>
    { ppc := true, moved := true }
  | .tableRead =>
    { moved := true, cfg := true }
  | .carouselMatch | .pfcFrameReceive _ _ | .pauseExpiry _ _ =>
    { xbr := true, pmu := true, moved := true }
  | .transferComplete _ =>
    { xbr := true, moved := true, out := true, free := true }
  | .transmitSelect _ =>
    { hce := true, rge := true, rfx := true, tk := true, vsm := true, kvt := true, mbx := true, bay := true,
      props := true, xbr := true, sep := true, pwr := true, lcu := true, pmu := true, tst := true, moved := true,
      out := true, free := true }
  | .sample _ _ =>
    { xbr := true, moved := true, free := true }
  | .samplingConfigWrite _ _ | .occqryWrite _ =>
    { xbr := true, cfg := true }
  | .cnpReceive _ =>
    { xbr := true, moved := true }
  | .rateRecovery _ | .sampleQueueDrain =>
    { xbr := true }
  | .rekeyPieceLoaded _ _ =>
    { hce := true, rfx := true, kvt := true, xbr := true, pwr := true, pmu := true, moved := true, out := true,
      free := true }
  | .mkaFrameReceive _ _ =>
    { kvt := true, moved := true, out := true, free := true }
  | .mkaHello _ =>
    { kvt := true, out := true }
  | .clientHello _ _ _ _ _ =>
    { hce := true, rfu := true, rfx := true, kvt := true, xbr := true, pmu := true, moved := true, out := true,
      free := true }
  | .pairKeyAgreementComplete _ =>
    { rfx := true, kvt := true, xbr := true, pmu := true, moved := true, out := true }
  | .keyChallenge _ | .keyRandom _ =>
    { kvt := true, mbx := true, moved := true, out := true, free := true }
  | .keyLogin _ | .keyLogout _ =>
    { kvt := true, mbx := true, moved := true, out := true }
  | .keyGenerate _ | .keyRekey _ =>
    { rfx := true, kvt := true, mbx := true, props := true, xbr := true, pmu := true, moved := true, out := true,
      free := true }
  | .keyImport _ | .keyDelete _ =>
    { rfx := true, kvt := true, mbx := true, props := true, xbr := true, pmu := true, moved := true, out := true }
  | .sessionIdleExpiry | .nonceExpiry | .loginLockoutExpiry _ =>
    { kvt := true }
  | .doorbellSend _ | .mctpMessage _ | .poll _ _ =>
    { kvt := true, mbx := true, xbr := true, sep := true, pmu := true, moved := true, out := true }
  | .mctpControlMessage _ | .tapInstruction _ =>
    { out := true }
  | .mgmtFrameReceive _ _ _ =>
    { hce := true, rfu := true, rge := true, snt := true, rfx := true, vsm := true, kvt := true, mbx := true,
      props := true, xbr := true, sep := true, pmu := true, moved := true, out := true }
  | .commandStart _ | .sepLinkDown | .configWrite _ _ _ | .functionLevelReset | .hotReset | .dmaCompletion _ _ _ _
  | .completionTimeout _ | .sepPerstAssert =>
    { mbx := true, sep := true, moved := true, out := true }
  | .regRead _ =>
    { mbx := true, ppc := true, pmu := true, moved := true, cfg := true, out := true, free := true }
  | .regModify _ =>
    { hce := true, rge := true, rfx := true, tk := true, vsm := true, kvt := true, mbx := true, bay := true,
      props := true, ppc := true, xbr := true, sep := true, pwr := true, lcu := true, pmu := true, tst := true,
      mac := true, moved := true, cfg := true, out := true, free := true }
  | .pmuLoRead _ =>
    { pmu := true }
  | .activationComplete =>
    { hce := true, rfu := true, rfx := true, kvt := true, mbx := true, xbr := true, sep := true, pmu := true,
      moved := true, out := true, free := true }
  | .pldmGetSensorReading _ =>
    { out := true, free := true }
  | .pldmRequestUpdate | .pldmVerifyApply | .pldmActivateFirmware =>
    { mbx := true, out := true }
  | .pldmComponentTransfer _ _ | .masterPresenceExpiry _ =>
    { mbx := true }
  | .bar0Read _ _ =>
    { ppc := true, sep := true, pmu := true, moved := true, cfg := true, out := true, free := true }
  | .sepPerstDeassert | .containmentRelease | .doeAbort | .sepLinkUp _ _ =>
    { sep := true }
  | .flrComplete | .containmentReleaseEffect =>
    { sep := true, moved := true, out := true }
  | .quarantineExpiry _ | .doeRequest _ =>
    { sep := true, out := true }
  | .presenceAssert _ | .debounceComplete _ | .powerGood _ | .bayReady _ | .bayInputRestored | .retryExpiry _
  | .powerCycleDelay _ | .dpxQuarantineExpiry _ _ | .containmentHoldExpiry _ | .dpcrelWrite _ | .bholdAFall =>
    { bay := true }
  | .presenceLoss _ | .rampStart _ | .pgtimeout _ | .driveLinkL0 _ _ _ | .linkTrainingTimeout _ | .overcurrent _
  | .fasttrip _ | .undervolt _ | .bayInputFault | .dpxCompletionTimeout _ _ | .memberAbortTimeout _
  | .surpriseLinkDown _ | .drivePortFatalError _ | .drivePortRetrainEnd _ _ =>
    { hce := true, rfu := true, rge := true, rfx := true, kvt := true, bay := true, xbr := true, pwr := true,
      lcu := true, pmu := true, moved := true, out := true, free := true }
  | .perstDelayExpiry _ | .bholdARise | .holderRegain =>
    { bay := true, out := true }
  | .bayPower _ =>
    { hce := true, rfu := true, rge := true, rfx := true, kvt := true, mbx := true, bay := true, xbr := true,
      pwr := true, lcu := true, pmu := true, moved := true, out := true, free := true }
  | .bayLed _ | .bayClear _ =>
    { mbx := true, bay := true, moved := true, out := true }
  | .bayQuery _ | .pwrQuery _ =>
    { mbx := true, moved := true, out := true, free := true }
  | .powerUp _ _ =>
    { hce := true, rge := true, snt := true, rfx := true, tk := true, kvt := true, mbx := true, bay := true,
      xbr := true, pwr := true, pmu := true, tst := true, mac := true, moved := true, out := true }
  | .efuseRetry | .efuseFaultClear | .referenceRestored | .domainWake _ | .supervisorTrim =>
    { pwr := true }
  | .referenceLoss =>
    { pwr := true, moved := true }
  | .domainIdle _ =>
    { kvt := true, pwr := true }
  | .pwrPolicy _ =>
    { hce := true, rge := true, rfx := true, tk := true, vsm := true, kvt := true, mbx := true, bay := true,
      props := true, xbr := true, sep := true, pwr := true, lcu := true, pmu := true, tst := true, moved := true,
      cfg := true, out := true }
  | .marginScan _ | .relearnWaitExpiry | .parkedRetry _ | .hbmPass _ _ | .eccBurst _ | .sensorTrim _ =>
    { lcu := true }
  | .marginScanComplete _ _ =>
    { hce := true, rfu := true, rge := true, rfx := true, tk := true, kvt := true, bay := true, xbr := true,
      pwr := true, lcu := true, pmu := true, moved := true, out := true, free := true }
  | .egressDrained =>
    { lcu := true, tst := true, mac := true }
  | .retrainCheck _ =>
    { hce := true, rge := true, rfx := true, tk := true, vsm := true, kvt := true, mbx := true, xbr := true,
      pwr := true, lcu := true, pmu := true, mac := true, moved := true, out := true }
  | .retrainNoticeTimeout =>
    { hce := true, rfx := true, tk := true, kvt := true, bay := true, xbr := true, pwr := true, lcu := true,
      tst := true, moved := true, out := true }
  | .hbmSlice =>
    { pwr := true, lcu := true, moved := true }
  | .chopAverage _ _ =>
    { lcu := true, moved := true }
  | .cntConfig _ =>
    { mbx := true, pmu := true, moved := true, cfg := true, out := true }
  | .boxOfficeSweep _ =>
    { ppc := true, pmu := true, moved := true }
  | .testStart _ =>
    { hce := true, rfu := true, rge := true, rfx := true, tk := true, kvt := true, mbx := true, bay := true,
      xbr := true, pwr := true, lcu := true, pmu := true, tst := true, moved := true, out := true, free := true }
  | .testStop _ =>
    { hce := true, rge := true, snt := true, rfx := true, tk := true, kvt := true, mbx := true, bay := true,
      xbr := true, pwr := true, lcu := true, pmu := true, tst := true, moved := true, out := true }
  | .liveTestEnd _ =>
    { hce := true, rge := true, rfx := true, tk := true, vsm := true, kvt := true, mbx := true, bay := true,
      xbr := true, pwr := true, lcu := true, pmu := true, tst := true, mac := true, moved := true, out := true }
  | .timeBaseSet =>
    { mac := true }
  | .timeBaseLatch =>
    { cfg := true }
  | .fenceInDeasserted =>
    { tk := true, bay := true, pwr := true }
  | .domainOn _ _ =>
    { kvt := true, pwr := true, moved := true }
  | .hbmpcPiece _ =>
    { tst := true }
  | .bayTestVoutCheck _ =>
    { bay := true, tst := true }

/-- The command answers a next state, of which `P` holds. -/
def Gives (c : Instr) (s : State) (P : State → Prop) : Prop := ∃ t, exec c s = .next t ∧ P t

/-- `e` crossed the boundary outward on the way from `s` to `t`. -/
def State.Sent (s t : State) (e : Emission) : Prop := ∃ l, t.out = l ++ s.out ∧ e ∈ l

/-- SQHD of a controller's admin queue after one more capsule (R41). -/
def Ctrl.nextSqhd (x : Ctrl) : Nat := (x.adminSqhd + 1) % Nat.max x.adminSize 1

/-- The controller runs an admin capsule at once: no reset, nothing waits before it, a place in its queue, an admin
tag, no firmware activation (R42, R50, R51, R69, R433). -/
def State.TakesAdmin (s : State) (c : Nat) (x : Ctrl) : Prop :=
  s.findCtrl c = some x ∧ x.resetting = false ∧ x.adminWait = [] ∧ 1 < x.adminSize ∧ s.mbx.activating = none ∧ s.adminBusy x < 32

/-- The progress record of an index (R104). -/
def State.progressAt (s : State) (i : Nat) : Option Progress := s.hce.progress.find? (fun p => p.idx = i)

/-- The master's command has left the mailbox, which holds its status for the master (R416, R417). -/
def State.Ended (t : State) (m : Master) (st : Nat) : Prop :=
  t.cmdOf m = none ∧ (t.heldOf m).result.map (fun r => r.1) = some st

/-- A change that the peer applies too (R283): without a peer that can apply it the master's command ends with OK, else it
waits inside its operation. -/
def State.Propagated (s t : State) (m : Master) : Prop :=
  if s.rfx.peer.absent = true ∨ s.rfx.peer.mismatch = true then t.Ended m stOk
  else ∃ c, t.cmdOf m = some c ∧ c.running = true

/-- The master's command has ended with OK and the mailbox holds its result, which a DMAR command has sent out by DMA
instead (R411, R417). -/
def State.Yields (t : State) (m : Master) (c : MbCmd) (res : List Byte) : Prop :=
  t.Ended m stOk ∧ (t.heldOf m).result = some (stOk, if c.flags / 8 % 2 = 1 then [] else res)

/-- A result whose length the state fixes: INVALID_PARAM where the command has no room for it (R414). -/
def State.Answers (t : State) (m : Master) (c : MbCmd) (res : List Byte) : Prop :=
  if c.room < res.length then t.Ended m stInvalidParam else t.Yields m c res

/-- The master's command of opcode `op` is at the head and has started; its row may run (R420). -/
def State.Starts (s : State) (m : Master) (op : Nat) (c : MbCmd) : Prop := s.cmdOf m = some c ∧ c.ready op = true

/-- The block goes on from a state. -/
def State.Runs (s : State) : Prop := ∃ t, step s = .next t

/-- A run of the block that never stops, in states of the kept form. -/
def State.Safe (s : State) : Prop := s.Inv ∧ ∀ k t, Host.Core.run ⟨State, Fault, Refusal, step, State.reset⟩ k s = .next t → t.Runs

end Sys2Proof.Machine
end

