-- ==== Sys2Proof/Certificates/Slice0/Obligations.lean ====
section
/-! DEFINITION. The statements about the model, for the provers: what a step and each family of commands does. `Gives c s P` says
that `c` completes in `s` with a next state of which `P` holds. -/

set_option Elab.async false

open Sys2Proof Sys2Proof.Machine

/-- With a command at the front of the queue, a step is that command's `exec` on the state with the queue's rest. -/
def Obligations.StepRunsTheFrontCommand : Prop :=
  ∀ (s : State) (c : Instr) (rest : List Instr), s.pending = c :: rest → step s = exec c { s with pending := rest }

/-- On an empty queue a step moves the clock by 1 ns and changes no ring and nothing but counters and event flags of the monitor,
and what it tells the peer: the model's choice, logs 2, 79 and 91. -/
def Obligations.IdleStepIsATick : Prop :=
  ∀ s : State, s.pending = [] → ∃ t, step s = .next t ∧ t.now = s.now + 1 ∧ t.pending = [] ∧
    Only { rge := true, rfx := true, xbr := true, pmu := true, moved := true, out := true, free := true } s t ∧
    t.rge.rings = s.rge.rings ∧ t.part = s.part ∧ t.slot = s.slot ∧ t.uid = s.uid ∧ t.smbAddr = s.smbAddr ∧
    t.strapsOk = s.strapsOk ∧ t.macs = s.macs ∧
    (s.pmuIdle = true → s.rfx.out1.isOpen = false →
      Only { moved := true } s t ∧ ∀ a, (∀ v < 4, a ≠ Reg.pmuOvf + 0x100 * v) → t.reg a = s.reg a)

/-- The state right after reset has the form that every step keeps. -/
def Obligations.ResetIsInForm : Prop := State.reset.Inv

/-- Every step, of every command and of the idle block, keeps the form of the state. -/
def Obligations.EveryStepKeepsTheForm : Prop := ∀ s t : State, s.Inv → step s = .next t → t.Inv

/-- Frame of all commands: outside the parts that `unitsOf` names nothing changes, whatever the operands. -/
def Obligations.CommandsChangeOnlyTheirParts : Prop :=
  ∀ (c : Instr) (s t : State), exec c s = .next t →
    Only (unitsOf c) s t ∧ s.SameModule t ∧ t.pending = s.pending ∧ s.out <:+ t.out ∧ s.freeCtr ≤ t.freeCtr

/-- ID.UNITPRES of each part (R3). -/
def Obligations.UnitsPresentReadsThePart : Prop :=
  ∀ s : State, s.Inv → s.regWord Reg.idUnitpres =
    match s.part with | .kv9624a => 0x0044180F | .kv9624c => 0x0044180E | .kv9616b => 0x00221009

/-- REG_READ and REG_WRITE at an address that is not a multiple of 4 (R12). No MB_RESET waits behind the
command: it would end with it. -/
def Obligations.MisalignedRegisterAccessesAreRefused : Prop :=
  ∀ s m c, s.Inv → c.addr % 4 ≠ 0 → (∀ d ∈ s.mbx.cmds, d.opcode ≠ 0x0103) →
    (s.Starts m 0x0201 c → Gives (.regRead m) s fun t => t.Ended m 0x0005 ∧ Only { mbx := true } s t) ∧
    (s.Starts m 0x0202 c → Gives (.regWrite m) s fun t => t.Ended m 0x0005 ∧ Only { mbx := true } s t)

/-- Ring creation on a part without triple parity (R5). -/
def Obligations.TripleParityNeedsTheUnit : Prop :=
  ∀ s m c, s.Inv → s.Starts m 0x0301 c → Config.hasTriple s.part = false →
    (byteAt c.params 2 = 3 → Gives (.ringCreate m) s fun t => t.Ended m stAbsent ∧ t.rge = s.rge) ∧
    (byteAt c.params 2 = 1 ∨ byteAt c.params 2 = 2 →
      (∀ b ∈ (c.params.drop 16).take (Nat.min (byteAt c.params 4) 24), b.toNat < Config.bays s.part) →
      Gives (.ringCreate m) s fun t => ∃ st, t.Ended m st ∧ st ≠ stAbsent)

/-- A register reads the word last put into it, without the bits of absent units (R6), and the others read as before. -/
def Obligations.RegisterFileKeepsWhatIsWritten : Prop :=
  ∀ (s : State) (a b : Nat) (w : Word), s.Inv → (s.putReg a w).Inv ∧
    (s.putReg a w).reg b = if b = a then w &&& ~~~ absentBits s.part a else s.reg b

/-- Connection requests, ICReq, Connect and DH-HMAC-CHAP (R31, R33, R35, R38, R39, R43, R287, R382). -/
def Obligations.ConnectionsOpenAndAuthenticate : Prop :=
  -- RDMA_CM_CONNECTION_REQUEST and TCP_SYN (R31, R39, R287)
  (∀ s conn port addr qp mtu v, s.portalVs port addr = some v → s.findConn conn = none →
    Gives (.rdmaCmConnectionRequest conn port addr qp mtu) s fun t =>
      if qp ≠ .rc then s.Sent t (.cmReject conn 1) ∧ t.findConn conn = none
      else if s.cfgBit Reg.hceHcfg 1 = false ∨ v.flags % 2 = 0 then s.Sent t (.cmReject conn 0) ∧ t.findConn conn = none
      else s.Sent t (.cmAccept conn) ∧ ∃ k, t.findConn conn = some k ∧ k.port = port ∧ k.addr = addr ∧ k.transport = .rdma ∧
        k.vsid = v.vsid ∧ k.unit = mtu ∧ k.bound = none ∧ k.auth = .idle) ∧
  (∀ s conn port addr mss v, s.portalVs port addr = some v → s.findConn conn = none →
    Gives (.tcpSyn conn port addr mss) s fun t =>
      if s.cfgBit Reg.hceHcfg 2 = false ∨ v.flags / 2 % 2 = 0 then s.Sent t (.rst conn) ∧ t.findConn conn = none
      else s.Sent t (.synAck conn) ∧ ∃ k, t.findConn conn = some k ∧ k.port = port ∧ k.addr = addr ∧ k.transport = .tcp ∧
        k.vsid = v.vsid ∧ k.unit = mss ∧ k.icDone = false ∧ k.bound = none) ∧
  -- ICREQ (R33, R382)
  (∀ s conn hdgst ddgst k, s.findConn conn = some k → k.transport = .tcp → k.icDone = false →
    Gives (.icreq conn hdgst ddgst) s fun t =>
      if ((s.findVs k.vsid).map (fun v => v.flags)).getD 0 / 4 % 2 = 1 ∧ k.tls = false then s.Sent t (.rst conn)
      else s.Sent t (.icresp conn 131072 0 hdgst ddgst) ∧
        t.findConn conn = some { k with icDone := true, hdgst := hdgst, ddgst := ddgst }) ∧
  -- CONNECT (R38, R39, R43, R287)
  (∀ s conn req k, s.findConn conn = some k → k.bound = none → (k.transport = .tcp → k.icDone = true) →
    (∀ st, (if req.sqid = 0 then s.connectAdmin k req else s.connectIo k req) = some st →
      Gives (.connect conn req) s fun t =>
        s.Sent t (.cqe (if req.sqid = 0 then 0xFFFF else req.cntlid) req.sqid req.cid st (connAttr req st)
          (s.headOf (if req.sqid = 0 then 0xFFFF else req.cntlid) req.sqid)) ∧
        t.hce.conns = s.hce.conns ∧ t.hce.sqs = s.hce.sqs ∧ t.hce.tags = s.hce.tags ∧ t.hce.ctrls.length = s.hce.ctrls.length) ∧
    (req.sqid = 0 → s.connectAdmin k req = none →
      Gives (.connect conn req) s fun t => ∃ c ∈ t.hce.ctrls, c.conn = conn ∧ c.vsid = k.vsid ∧ c.hostNqn = req.hostNqn ∧
        c.adminSize = req.qsize ∧ c.adminSqhd = 1 % req.qsize ∧ c.kato = req.kato ∧ c.granted = 1 ∧ c.ccEn = false ∧ c.discovery = req.discovery ∧
        (t.findConn conn).map (fun y => y.bound) = some (some (c.cntlid, 0)) ∧
        s.Sent t (.cqe c.cntlid 0 req.cid cplSuccess c.cntlid (t.headOf c.cntlid 0))) ∧
    (req.sqid ≠ 0 → s.connectIo k req = none →
      Gives (.connect conn req) s fun t => ∃ q ∈ t.hce.sqs, q.cntlid = req.cntlid ∧ q.sqid = req.sqid ∧ q.size = req.qsize ∧
        q.conn = conn ∧ q.vsid = k.vsid ∧ q.sqhd = 1 % req.qsize ∧ q.entries = [] ∧ q.stopped = false ∧
        (t.findConn conn).map (fun y => y.bound) = some (some (req.cntlid, req.sqid)) ∧
        s.Sent t (.cqe req.cntlid req.sqid req.cid cplSuccess req.cntlid (1 % req.qsize)))) ∧
  -- AUTHENTICATION_SEND and AUTHENTICATION_RECEIVE (R35; the first offer is taken: the model's choice, log 38)
  (∀ s conn cid msg k, s.findConn conn = some k → (∀ c, k.adminOf = some c → ∃ x, s.TakesAdmin c x) →
    Gives (.authenticationSend conn cid msg) s fun t =>
      (t.findConn conn).map (fun y => y.auth) = some (match msg, k.auth with
        | .negotiate hs gs concat, _ => (match hs.find? chapHash, gs.find? chapGroup with
          | some h, some g => if concat then .failed false else .challenge h g
          | _, _ => .failed false)
        | .reply resp bi, .challenge h g =>
          if Config.chapGood h g resp then .success h (Config.chapAnswer h g resp) bi else .failed false
        | .reply _ _, _ => .failed false
        | .success2, .success _ _ true => .done
        | .success2, _ => .failed true
        | .failure2, _ => .failed true)) ∧
  (∀ s conn cid k, s.findConn conn = some k → (∀ c, k.adminOf = some c → ∃ x, s.TakesAdmin c x) →
    Gives (.authenticationReceive conn cid) s fun t =>
      (∃ bs, s.Sent t (match k.auth with
        | .challenge _ _ => .auth conn 1 0 bs
        | .success h a bi => .auth conn 2 0 (if bi then leBytes (chapLen h) a else [])
        | .failed second => .auth conn (if second then 4 else 3) 1 []
        | .idle => .auth conn 3 1 []
        | .done => .auth conn 2 0 [])) ∧
      (t.findConn conn).map (fun y => y.auth) = some (match k.auth with
        | .success _ _ false => .done
        | a => a)) ∧
  -- CONNECTION_LOSS (R42, R69)
  (∀ s conn k, s.findConn conn = some k → k.bound = none →
    Gives (.connectionLoss conn) s fun t => t.findConn conn = none ∧ t.hce.ctrls = s.hce.ctrls ∧ t.hce.tags = s.hce.tags) ∧
  (∀ s conn k c, s.findConn conn = some k → k.bound = some (c, 0) →
    (∀ y ∈ s.hce.conns, y.id ≠ conn → ∀ r, y.bound ≠ some (c, r)) →
    Gives (.connectionLoss conn) s fun t =>
      ∀ x ∈ t.hce.ctrls, x.cntlid = c → x.resetting = true ∧ x.resetEnds = true ∧ x.ccEn = false)

/-- Properties, Keep Alive, Disconnect, and the ends of controllers and queues (R38, R41, R43, R44, R69, R71, R72). -/
def Obligations.AssociationsLiveAndEnd : Prop :=
  -- PROPERTY_SET (R44, R69, R71)
  (∀ s c cid offset value x, s.TakesAdmin c x → offset ≠ 0x14 →
    Gives (.propertySet c cid offset value) s fun t =>
      s.Sent t (.cqe c 0 cid cplInvalidField 0 (x.nextSqhd))) ∧
  (∀ s c cid value x, s.TakesAdmin c x → x.ccEn = false → value % 2 = 1 → bitsOf value 15 14 = 0 →
    Gives (.propertySet c cid 0x14 value) s fun t =>
      t.findCtrl c = some { x with
        adminSqhd := x.nextSqhd, cc := value, ccEn := true, rdy := true, shn := 0, shst := 0 } ∧
      s.Sent t (.cqe c 0 cid cplSuccess 0 (x.nextSqhd))) ∧
  (∀ s c cid value x, s.TakesAdmin c x → x.ccEn = true → value % 2 = 0 → bitsOf value 15 14 = 0 →
    Gives (.propertySet c cid 0x14 value) s fun t =>
      (∃ y, t.findCtrl c = some y ∧ y.resetting = true ∧ y.resetEnds = x.resetEnds ∧ y.ccEn = false ∧ y.aers = [] ∧
        y.adminWait = []) ∧
      s.Sent t (.cqe c 0 cid cplSuccess 0 (x.nextSqhd))) ∧
  (∀ s c cid value x, s.TakesAdmin c x → x.ccEn = true → value % 2 = 1 → bitsOf value 15 14 = 1 → x.shn = 0 →
    Gives (.propertySet c cid 0x14 value) s fun t =>
      t.findCtrl c = some { x with
        adminSqhd := x.nextSqhd, cc := value, shn := 1, shst := 1 }) ∧
  -- PROPERTY_GET (R44)
  (∀ s c cid offset x, s.findCtrl c = some x → (x.resetting = true → x.resetEnds = false) → x.adminWait = [] →
    1 < x.adminSize → s.mbx.activating = none → s.adminBusy x < 32 →
    Gives (.propertyGet c cid offset) s fun t => ∃ st dw0,
      s.Sent t (.cqe c 0 cid st dw0 (x.nextSqhd)) ∧
      (offset = 0x00 → st = cplSuccess ∧ dw0 % 2 ^ 16 = 4095 ∧ dw0 / 2 ^ 16 % 2 = 1 ∧ dw0 / 2 ^ 37 % 2 = 1) ∧
      (offset = 0x08 → st = cplSuccess ∧ dw0 = Config.nvmeVersion % 2 ^ 32) ∧
      (offset = 0x14 → st = cplSuccess ∧ dw0 = x.cc / 2 * 2 + (if x.ccEn then 1 else 0)) ∧
      (offset = 0x1C → st = cplSuccess ∧ dw0 = (if x.rdy then 1 else 0) + 4 * x.shst) ∧
      (offset ≠ 0x00 → offset ≠ 0x08 → offset ≠ 0x14 → offset ≠ 0x1C → st = cplInvalidField)) ∧
  -- KEEP_ALIVE and KEEP_ALIVE_TIMEOUT (R38, R43, R300, R433)
  (∀ s c cid x, s.findCtrl c = some x → x.resetting = false →
    Gives (.keepAlive c cid) s fun t =>
      t.findCtrl c = some { x.passed with
        kaDeadline := if x.kato = 0 then none else some (s.now + ms (100 * ceilDiv x.kato 100)) } ∧
      s.Sent t (.cqe c 0 cid cplSuccess 0 x.passed.adminSqhd)) ∧
  (∀ s c x d, s.findCtrl c = some x → x.kaDeadline = some d → d ≤ s.now → (∀ v, s.findVs x.vsid = some v → v.st ≠ .frozen) →
    s.mbx.activating = none → x.resetting = false →
    Gives (.keepAliveTimeout c) s fun t => ∃ y, t.findCtrl c = some y ∧ y.resetting = true ∧ y.resetEnds = true ∧
      y.ccEn = false ∧ y.kaDeadline = none) ∧
  -- DISCONNECT and DISCONNECT_COMPLETE (R72)
  (∀ s c cid x, s.TakesAdmin c x →
    Gives (.disconnect c 0 cid) s fun t => ∃ y, t.findCtrl c = some y ∧ y.resetting = true ∧ y.resetEnds = true ∧
      y.resetDisc = some cid ∧ y.ccEn = false) ∧
  (∀ s c sqid cid x q, s.findCtrl c = some x → sqid ≠ 0 → s.findSq c sqid = some q → q.disc = none →
    Gives (.disconnect c sqid cid) s fun t => ∃ y, t.findSq c sqid = some y ∧ y.stopped = true ∧ y.disc = some cid ∧
      y.entries = [] ∧ y.sqhd = (q.sqhd + q.entries.length) % Nat.max q.size 1) ∧
  (∀ s c sqid cid q, s.findSq c sqid = some q → q.disc = some cid → sqid ≠ 0 →
    (∀ r ∈ s.hce.tags, r.cntlid = c → r.sqid = sqid → r.st = .responding) →
    Gives (.disconnectComplete c sqid) s fun t => s.Sent t (.cqe c sqid cid cplSuccess 0 q.sqhd) ∧ t.findSq c sqid = none) ∧
  -- CONTROLLER_RESET_COMPLETE and SHUTDOWN_COMPLETE (R69 to R71)
  (∀ s c x, s.findCtrl c = some x → x.resetting = true → (∀ r ∈ s.hce.tags, r.cntlid ≠ c) →
    Gives (.controllerResetComplete c) s fun t =>
      if x.resetEnds = true then t.findCtrl c = none
      else t.findCtrl c = some { x with rdy := false, resetting := false, resetDisc := none }) ∧
  (∀ s c x, s.findCtrl c = some x → x.shst = 1 → x.resetting = false →
    (∀ r ∈ s.hce.tags, r.cntlid = c → r.st = .responding) →
    Gives (.shutdownComplete c) s fun t => t.findCtrl c = some { x with shst := 2 })

/-- Identify, Get Log Page, features, Asynchronous Event Request, Abort and invalid admin opcodes (R40, R44 to R51, R64 to
R68). -/
def Obligations.AdminCommandsComplete : Prop :=
  -- IDENTIFY (R44, R49)
  (∀ s c cid cns nsid x, s.TakesAdmin c x →
    Gives (.identify c cid cns nsid) s fun t =>
      if cns = 0x01 ∨ cns = 0x02 ∨ cns = 0x06 ∨
          ((cns = 0x00 ∨ cns = 0x03 ∨ cns = 0x05 ∨ cns = 0x08) ∧ (s.findNs x.vsid nsid).isSome = true) then
        (∃ bs, s.Sent t (.adminData c cid bs)) ∧ s.Sent t (.cqe c 0 cid cplSuccess 0 x.nextSqhd)
      else if cns = 0x00 ∨ cns = 0x03 ∨ cns = 0x05 ∨ cns = 0x08 then s.Sent t (.cqe c 0 cid cplInvalidNs 0 x.nextSqhd)
      else s.Sent t (.cqe c 0 cid cplInvalidField 0 x.nextSqhd)) ∧
  -- SET_FEATURES (R40, R47)
  (∀ s c cid value x, s.TakesAdmin c x →
    Gives (.setFeatures c cid 0x07 value false) s fun t => ∃ g,
      g = Nat.max 1 (Nat.min (Nat.min (bitsOf value 15 0) (bitsOf value 31 16) + 1) (Nat.min (s.cfg Reg.hceHcfg 23 16)
        (((s.findVs x.vsid).map (fun v => v.qpairs)).getD 0 - (s.hce.sqs.filter (fun q => q.vsid = x.vsid)).length))) ∧
      t.findCtrl c = some { x with adminSqhd := x.nextSqhd, granted := g } ∧
      s.Sent t (.cqe c 0 cid cplSuccess ((g - 1) * 2 ^ 16 + (g - 1)) x.nextSqhd)) ∧
  (∀ s c cid fid value save x, s.TakesAdmin c x → featKnown fid = false →
    Gives (.setFeatures c cid fid value save) s fun t => s.Sent t (.cqe c 0 cid cplInvalidField 0 x.nextSqhd)) ∧
  (∀ s c cid fid value x, s.TakesAdmin c x → featKnown fid = true →
    Gives (.setFeatures c cid fid value true) s fun t => s.Sent t (.cqe c 0 cid cplNotSaveable 0 x.nextSqhd)) ∧
  (∀ s c cid fid value x, s.TakesAdmin c x → (fid = 0x01 ∨ fid = 0x04 ∨ fid = 0x0B ∨ fid = 0x81) →
    Gives (.setFeatures c cid fid value false) s fun t =>
      t.findCtrl c = some { x with
        adminSqhd := x.nextSqhd
        featArb := if fid = 0x01 then value else x.featArb, featTemp := if fid = 0x04 then value else x.featTemp
        featAer := if fid = 0x0B then value else x.featAer, featHostId := if fid = 0x81 then value else x.featHostId } ∧
      s.Sent t (.cqe c 0 cid cplSuccess 0 x.nextSqhd)) ∧
  -- GET_FEATURES (R47)
  (∀ s c cid fid x, s.TakesAdmin c x →
    Gives (.getFeatures c cid fid) s fun t =>
      s.Sent t (if featKnown fid = false then .cqe c 0 cid cplInvalidField 0 x.nextSqhd
        else .cqe c 0 cid cplSuccess (if fid = 0x01 then x.featArb else if fid = 0x04 then x.featTemp
          else if fid = 0x07 then (x.granted - 1) * 2 ^ 16 + (x.granted - 1) else if fid = 0x0B then x.featAer
          else if fid = 0x81 then x.featHostId else x.kato) x.nextSqhd)) ∧
  -- ASYNCHRONOUS_EVENT_REQUEST (R38, R50)
  (∀ s c cid x, s.TakesAdmin c x →
    Gives (.asynchronousEventRequest c cid) s fun t =>
      if 4 ≤ x.aers.length then s.Sent t (.cqe c 0 cid cplAerLimit 0 x.nextSqhd)
      else match x.events with
        | [] => t.findCtrl c = some { x with adminSqhd := x.nextSqhd, aers := x.aers ++ [cid] }
        | e :: l => t.findCtrl c = some { x with adminSqhd := x.nextSqhd, events := l } ∧
            s.Sent t (.cqe c 0 cid cplSuccess e x.nextSqhd)) ∧
  -- INVALID_ADMIN_OPCODE (R44)
  (∀ s c cid op x, s.TakesAdmin c x →
    Gives (.invalidAdminOpcode c cid op) s fun t => s.Sent t (.cqe c 0 cid cplInvalidOpcode 0 x.nextSqhd)) ∧
  -- GET_LOG_PAGE (R46)
  (∀ s c cid lid x, s.findCtrl c = some x → x.resetting = false →
    Gives (.getLogPage c cid lid) s fun t =>
      if lid = 0x01 ∨ lid = 0x02 ∨ lid = 0x03 ∨ lid = 0x04 ∨ lid = 0x05 ∨ lid = 0x0C ∨ lid = 0x81 ∨
          (lid = 0x70 ∧ x.discovery = true) then
        (∃ bs, s.Sent t (.adminData c cid bs)) ∧ s.Sent t (.cqe c 0 cid cplSuccess 0 x.passed.adminSqhd) ∧
        t.findCtrl c = some { x.passed with changed := if lid = 0x04 then [] else x.changed }
      else s.Sent t (.cqe c 0 cid cplInvalidLogPage 0 x.passed.adminSqhd)) ∧
  -- ABORT (R64, R66, R68)
  (∀ s c acid sqid cid x, s.findCtrl c = some x → x.resetting = false →
    (4 ≤ x.aborts.length →
      Gives (.abort c acid sqid cid) s fun t => s.Sent t (.cqe c 0 acid cplAbortLimit 0 x.passed.adminSqhd)) ∧
    (x.aborts.length < 4 → (sqid = 0 ∨ s.findSq c sqid = none) →
      Gives (.abort c acid sqid cid) s fun t => s.Sent t (.cqe c 0 acid cplSuccess 1 x.passed.adminSqhd)) ∧
    (∀ q r, x.aborts.length < 4 → sqid ≠ 0 → s.findSq c sqid = some q →
      s.hce.tags.find? (fun r => r.cntlid = c && r.sqid = sqid && r.cidMapped && r.cid = cid) = some r →
      r.open_ = true → r.intents = false → s.findTag r.tag = some r →
      Gives (.abort c acid sqid cid) s fun t =>
        t.findTag r.tag = some { r with st := .squashing, result := some cplAborted, post := true } ∧
        t.findCtrl c = some { x.passed with aborts := x.aborts ++ [(acid, r.tag)] }))

/-- NVMe-MI tunnels, Format NVM, Sanitize and the phases of an operation (R100 to R108, R405, R407). -/
def Obligations.FormatsSanitizesAndInBandPackets : Prop :=
  -- NVME_MI_SEND and NVME_MI_RECEIVE (R405, R407; the NVMe-MI status code is log 6)
  (∀ s c cid op p x, s.TakesAdmin c x →
    Gives (.nvmeMiSend c cid op p) s fun t =>
      if s.inbandOn x = false then s.Sent t (.cqe c 0 cid cplInvalidField 0 x.nextSqhd)
      else if op = 0xC0 then
        s.Sent t (.cqe c 0 cid cplSuccess 0 x.nextSqhd) ∧
        (s.mbxServes .inband = true → t.mbx = ((s.takeAdmin c cid 0x1D (op :: p.map (fun b => b.toNat))).receive .inband p).1.mbx)
      else s.Sent t (.cqe c 0 cid cplSuccess 3 x.nextSqhd) ∧ t.mbx = s.mbx) ∧
  (∀ s c cid op p x, s.TakesAdmin c x →
    Gives (.nvmeMiReceive c cid op p) s fun t =>
      if s.inbandOn x = false then s.Sent t (.cqe c 0 cid cplInvalidField 0 x.nextSqhd)
      else if op = 0xC1 then
        s.Sent t (.cqe c 0 cid cplSuccess 0 x.nextSqhd) ∧
        (s.mbxServes .inband = true → 
          s.Sent t (.adminData c cid ((s.takeAdmin c cid 0x1E (op :: p.map (fun b => b.toNat))).receive .inband p).2.bytes))
      else s.Sent t (.cqe c 0 cid cplSuccess 3 x.nextSqhd) ∧ t.mbx = s.mbx) ∧
  -- FORMAT_NVM (R100, R102 to R104)
  (∀ s c cid nsid lbaf ses prot x, s.TakesAdmin c x →
    Gives (.formatNvm c cid nsid lbaf ses prot) s fun t =>
      if 2 < ses then s.Sent t (.cqe c 0 cid cplInvalidField 0 x.nextSqhd)
      else if s.findNs x.vsid nsid = none then s.Sent t (.cqe c 0 cid cplInvalidNs 0 x.nextSqhd)
      else if 1 < lbaf ∨ prot = true ∨ (ses = 2 ∧ Config.hasCipher s.part = false) then
        s.Sent t (.cqe c 0 cid cplInvalidFormat 0 x.nextSqhd)
      else if s.sanitizeOn x.vsid = true then s.Sent t (.cqe c 0 cid cplSanitize 0 x.nextSqhd)
      else if s.formatOn x.vsid nsid = true then s.Sent t (.cqe c 0 cid cplFormat 0 x.nextSqhd)
      else match s.freeRecord with
        | some i => ∃ p, t.hce.progress = s.hce.progress ++ [p] ∧ p.idx = i ∧ p.op = ses + 1 ∧ p.phase = .prepare ∧
            p.vsid = x.vsid ∧ p.nsid = nsid ∧ p.lbaf = lbaf ∧ p.seq = 1 ∧ p.cmd = some (c, cid) ∧ p.nss = []
        | none => t.hce.progress = s.hce.progress ∧
            t.findCtrl c = some { x with adminWait := [some (.formatNvm c cid nsid lbaf ses prot)] }) ∧
  -- SANITIZE (R101, R103, R104)
  (∀ s c cid action x n rest, s.TakesAdmin c x → s.nsidsOf x.vsid = n :: rest →
    Gives (.sanitize c cid action) s fun t =>
      if action ≠ 2 ∧ action ≠ 4 then s.Sent t (.cqe c 0 cid cplInvalidField 0 x.nextSqhd)
      else if action = 4 ∧ Config.hasCipher s.part = false then s.Sent t (.cqe c 0 cid cplInvalidFormat 0 x.nextSqhd)
      else if s.sanitizeOn x.vsid = true then s.Sent t (.cqe c 0 cid cplSanitize 0 x.nextSqhd)
      else if s.formatIn x.vsid = true then t.hce.progress = s.hce.progress ∧
        t.findCtrl c = some { x with adminWait := [some (.sanitize c cid action)] }
      else match s.freeRecord with
        | some i => s.Sent t (.cqe c 0 cid cplSuccess 0 x.nextSqhd) ∧
            ∃ p, t.hce.progress = s.hce.progress ++ [p] ∧ p.idx = i ∧ p.op = (if action = 2 then 4 else 5) ∧
              p.phase = .prepare ∧ p.vsid = x.vsid ∧ p.nsid = n ∧ p.nss = rest ∧ p.cmd = none
        | none => t.hce.progress = s.hce.progress) ∧
  -- FORMAT_PREPARE_DONE (R102, R104)
  (∀ s rec p, s.progressAt rec = some p → p.phase = .prepare →
    (∀ n ∈ p.nsid :: p.nss, s.nsBusy p.vsid n = false ∧ s.nsInFlight p.vsid n = false) →
    Gives (.formatPrepareDone rec) s fun t => ∃ q, t.progressAt rec = some q ∧ q.nsid = p.nsid ∧ q.seq = p.seq + 1 ∧
      (p.erases = true → 0 < p.total → q.phase = .erase ∧ q.cursor = 0) ∧
      (p.erases = false → p.keys = false → q.phase = .dealloc)) ∧
  -- ERASE_REGION_DONE (R105)
  (∀ s rec p, s.progressAt rec = some p → p.phase = .erase →
    Gives (.eraseRegionDone rec) s fun t => t.progressAt rec = some (
      if p.cursor + 1 < p.total then { p with cursor := p.cursor + 1, regionsDone := p.regionsDone + 1, seq := p.seq + 1 }
      else { p with cursor := 0, regionsDone := p.regionsDone + 1, phase := .dealloc, seq := p.seq + 2 })) ∧
  -- KEY_REPLACEMENT_DONE (R100, R104)
  (∀ s rec p n k, s.progressAt rec = some p → p.phase = .key → s.findNs p.vsid p.nsid = some n → s.findKey n.keySlot = some k →
    k.gen < p.cursor →
    Gives (.keyReplacementDone rec) s fun t =>
      (t.findKey n.keySlot).map (fun y => (y.material, y.gen, y.count)) = some (s.freeNow, p.cursor, 0) ∧
      t.progressAt rec = some { p with phase := .dealloc, cursor := 0, seq := p.seq + 1 }) ∧
  -- DEALLOC_DONE (R102, R104, R105, R108)
  (∀ s rec p, s.progressAt rec = some p → p.phase = .dealloc → p.nss = [] →
    Gives (.deallocDone rec) s fun t => t.progressAt rec = none ∧
      (∀ e ∈ t.hce.wb, e.vsid = p.vsid → e.nsid = p.nsid → e.issued = true) ∧
      (∀ n, p.sanitizes = false → s.findNs p.vsid p.nsid = some n → t.findNs p.vsid p.nsid = some { n with lbaf := p.lbaf }) ∧
      (∀ c cid x, p.cmd = some (c, cid) → s.findCtrl c = some x → s.Sent t (.cqe c 0 cid cplSuccess 0 x.adminSqhd))) ∧
  -- PROGRESS_RECORD_AVAILABLE (R103, R104)
  (∀ s c cid nsid lbaf ses x n i, s.hce.ctrls = [x] → x.cntlid = c → x.adminWait = [some (.formatNvm c cid nsid lbaf ses false)] → s.adminBusy x < 32 →
    ses < 2 → lbaf ≤ 1 → s.findNs x.vsid nsid = some n → s.sanitizeOn x.vsid = false → s.formatOn x.vsid nsid = false →
    s.freeRecord = some i →
    Gives .progressRecordAvailable s fun t => (∃ p, t.hce.progress = s.hce.progress ++ [p] ∧ p.idx = i ∧ p.op = ses + 1 ∧
        p.phase = .prepare ∧ p.vsid = x.vsid ∧ p.nsid = nsid ∧ p.lbaf = lbaf ∧ p.cmd = some (c, cid)) ∧
      t.hce.ctrls = [{ x with adminWait := [], adminSqhd := x.nextSqhd }])

/-- Capsules, admission, and the first step of Flush, Write, Read and Compare (R42, R48, R52, R53, R57 to R61, R74, R83,
R204). -/
def Obligations.CapsulesAreAdmitted : Prop :=
  -- CAPSULE_INTAKE (R42, R58; log 33)
  (∀ s c sqid cap q k, s.findSq c sqid = some q → s.findConn q.conn = some k →
    Gives (.capsuleIntake c sqid cap) s fun t =>
      if q.disc.isSome = true then t.findSq c sqid = some { q with sqhd := (q.sqhd + 1) % Nat.max q.size 1 } ∧
        ∃ h, s.Sent t (.cqe c sqid cap.cid cplSqDeleted 0 h)
      else if q.size ≤ q.entries.length + 1 then
        s.Sent t (match k.transport with | .rdma => .cmDisconnect q.conn | .tcp => .rst q.conn)
      else t.findSq c sqid = some { q with entries := q.entries ++ [some (s.now, cap)] }) ∧
  -- ADMISSION (R52, R53, R57 to R61, R74, R83)
  (∀ (s : State) v i q, s.pickQueue v = some (i, q) → s.visitable q = true ∧ q ∈ s.hce.sqs ∧ q.vsid = v) ∧
  (∀ (s : State) v, s.visitsLeft v = true ↔ s.visits v < Nat.max 1 (((s.findVs v).map (fun x => x.tagshare)).getD 0)) ∧
  (∀ s v i q, s.pickQueue v = some (i, q) → s.visitsLeft v = false →
    (∃ x ∈ s.vsm.subs, s.visitsLeft x.vsid = true ∧ (s.pickQueue x.vsid).isSome = true) →
    exec (.admission v) s = .next s) ∧
  (∀ s v i q t0 c rest, s.pickQueue v = some (i, q) → s.findSq q.cntlid q.sqid = some q → q.entries = some (t0, c) :: rest →
    (s.visitsLeft v = true ∨ ∀ x ∈ s.vsm.subs, ¬(s.visitsLeft x.vsid = true ∧ (s.pickQueue x.vsid).isSome = true)) →
    ((∃ r ∈ s.hce.tags, r.cntlid = q.cntlid ∧ r.sqid = q.sqid ∧ r.cidMapped = true ∧ r.cid = c.cid) →
      Gives (.admission v) s fun t => (∃ h, s.Sent t (.cqe q.cntlid q.sqid c.cid cplCidConflict 0 h)) ∧
        t.hce.tags = s.hce.tags ∧
        (t.findSq q.cntlid q.sqid).map (fun y => y.entries) = some (rest.dropWhile (fun e => e.isNone))) ∧
    ((∀ r ∈ s.hce.tags, ¬(r.cntlid = q.cntlid ∧ r.sqid = q.sqid ∧ r.cidMapped = true ∧ r.cid = c.cid)) →
      (∀ st, s.ioCheck q.vsid (((s.findConn q.conn).map (fun k => k.transport)).getD .tcp) c = some st →
        s.hce.tags.length < 262144 → s.shareFree q.vsid = true →
        Gives (.admission v) s fun t => ∃ r, t.findTag s.freeTagNum = some r ∧ r.cid = c.cid ∧ r.st = .squashing ∧
          r.result = some st ∧ r.post = true ∧ r.seq = s.hce.seq + 1) ∧
      (∀ n, s.ioCheck q.vsid (((s.findConn q.conn).map (fun k => k.transport)).getD .tcp) c = none →
        s.findNs q.vsid c.nsid = some n →
        (s.admissible q.vsid c n = false →
          Gives (.admission v) s fun t => t.hce.tags = s.hce.tags ∧ t.findSq q.cntlid q.sqid = some q ∧
            t.hce.rr = s.hce.rr.filter (fun e => e.1 ≠ v) ++ [(v, i + 1)] ∧
            t.hce.wrr = if s.visitsLeft v = true then s.hce.wrr.filter (fun e => e.1 ≠ v) ++ [(v, s.visits v + 1)] else [(v, 1)]) ∧
        (s.admissible q.vsid c n = true → c.commitsAtOnce = true →
          Gives (.admission v) s fun t => ∃ r, t.findTag s.freeTagNum = some r ∧ r.cap = c ∧ r.cid = c.cid ∧
            r.st = .committed ∧ r.seq = s.hce.seq + 1) ∧
        (s.admissible q.vsid c n = true → c.commitsAtOnce = false → c.opcode ≠ 2 → c.opcode ≠ 5 → s.rfu.groups = [] →
          Gives (.admission v) s fun t =>
            (∃ r, t.findTag s.freeTagNum = some r ∧ r.cap = c ∧ r.cid = c.cid ∧ r.st = .admitted ∧ r.seq = s.hce.seq + 1) ∧
            ∀ p ∈ c.lockRanges n, ∃ e ∈ t.hce.rlt, e.tag = s.freeTagNum ∧ e.vsid = q.vsid ∧ e.nsid = c.nsid ∧
              e.first = p.1 ∧ e.last = p.1 + p.2 - 1)))) ∧
  -- INVALID_IO_OPCODE (R61)
  (∀ s cn sqid q t0 c rest, s.findSq cn sqid = some q → q.entries = some (t0, c) :: rest → s.visitable q = true →
    ioKnown c.opcode = false → s.hce.tags.length < 262144 → s.shareFree q.vsid = true →
    (∀ r ∈ s.hce.tags, ¬(r.cntlid = q.cntlid ∧ r.sqid = q.sqid ∧ r.cidMapped = true ∧ r.cid = c.cid)) →
    Gives (.invalidIoOpcode cn sqid) s fun t => ∃ r, t.findTag s.freeTagNum = some r ∧ r.cid = c.cid ∧ r.st = .squashing ∧
      r.result = some cplInvalidOpcode) ∧
  -- FLUSH, WRITE, READ and COMPARE (R48, R52, R53, R204)
  (∀ s k r, s.findTag k = some r → r.cap.opcode = 0 → r.st = .committed → r.result = none →
    Gives (.flush k) s fun t => ∃ m, t.findTag k = some { r with result := some cplSuccess, respMseq := m }) ∧
  (∀ s k r, s.findTag k = some r → r.cap.opcode = 1 → r.st = .admitted →
    Gives (.write k) s fun t => t.findTag k = some { r with st := .executing, fetching := true } ∧
      (s.transportOf r.cntlid r.sqid = .rdma → s.Sent t (.fetch r.cntlid r.sqid r.cid)) ∧
      (s.transportOf r.cntlid r.sqid = .tcp → ∀ n i, s.findNs r.vsid r.cap.nsid = some n → i < 16 →
        131072 * i < r.cap.bytes n →
        s.Sent t (.r2t r.cntlid r.sqid r.cid (131072 * i) (Nat.min (r.cap.bytes n - 131072 * i) 131072)))) ∧
  (∀ s k r n, s.findTag k = some r → r.cap.opcode = 2 → r.st = .admitted → s.locked k = true → r.group = none →
    r.intents = false → s.findNs r.vsid r.cap.nsid = some n →
    Gives (.read k) s fun t =>
      if (natsFrom (n.touch r.cap.slba r.cap.nlb).1 (n.touch r.cap.slba r.cap.nlb).2).any
          (fun b => s.lostTouched r.vsid r.cap.nsid b) = true then
        t.findTag k = some { r with st := .squashing, result := some cplUnrecRead, post := true }
      else t.findTag k = some { r with
        st := .executing
        blocks := (natsFrom (n.touch r.cap.slba r.cap.nlb).1 (n.touch r.cap.slba r.cap.nlb).2).map (s.nearBlock n) }) ∧
  (∀ s k r, s.findTag k = some r → r.cap.opcode = 5 → r.st = .admitted → s.locked k = false →
    Gives (.compare k) s fun t => t.findTag k = some { r with st := .executing, fetching := true } ∧
      (s.transportOf r.cntlid r.sqid = .rdma → s.Sent t (.fetch r.cntlid r.sqid r.cid)) ∧
      (s.transportOf r.cntlid r.sqid = .tcp → ∀ n i, s.findNs r.vsid r.cap.nsid = some n → i < 16 →
        131072 * i < r.cap.bytes n →
        s.Sent t (.r2t r.cntlid r.sqid r.cid (131072 * i) (Nat.min (r.cap.bytes n - 131072 * i) 131072)))) ∧
  -- TAGQRY_WRITE (R52, R54)
  (∀ s w, Gives (.tagqryWrite w) s fun t =>
    match s.findTag (fieldOf w 17 0) with
    | none => t.hce.tagInfo = 0 ∧ t.hce.tagSq = 0
    | some r => t.hce.tagInfo = (place r.st.code 29 ||| place r.vsid 20 |||
          place ((if r.st = .responding ∨ (r.st = .squashing ∧ r.post = false) then 0 else r.cid) % 65536) 0) ∧
        t.hce.tagSq = (place (r.cntlid % 65536) 16 ||| place (r.sqid % 256) 0))

/-- Data into the buffer, commit points, responses, squashing and lock grants (R45, R48, R52 to R55, R61, R66, R67, R78,
R80, R86). -/
def Obligations.CommandsCommitAndComplete : Prop :=
  -- WRITE_ZEROES and DATASET_MANAGEMENT (R45, R48, R52, R53)
  (∀ s k r n, s.findTag k = some r → r.st = .admitted → r.placed = false → s.findNs r.vsid r.cap.nsid = some n →
    (∀ g ∈ s.rge.gathers, g.owner ≠ .tag k) → (∀ w ∈ r.blockWrites n, w.secs.length = 8) →
    (r.cap.opcode = 8 →
      Gives (.writeZeroes k) s fun t =>
        if s.locked k = true then (t.findTag k).map (fun x => (x.st, x.placed)) = some (.executing, true) ∧
          (∀ w ∈ r.blockWrites n, ∃ e ∈ t.hce.wb, e.vsid = r.vsid ∧ e.nsid = r.cap.nsid ∧ e.blk = w.blk ∧ e.ver = r.seq)
        else t.findTag k = some { r with st := .executing }) ∧
    (r.cap.opcode = 9 → r.cap.deallocate = true →
      Gives (.datasetManagement k) s fun t =>
        if s.locked k = true then (t.findTag k).map (fun x => (x.st, x.placed)) = some (.executing, true) ∧
          (r.deallocRanges n ≠ [] → ∃ d ∈ t.hce.deallocs, d.tag = k ∧ d.ver = r.seq ∧ d.ranges = r.deallocRanges n)
        else t.findTag k = some { r with st := .executing })) ∧
  (∀ s k r, s.findTag k = some r → r.cap.opcode = 9 → r.cap.deallocate = false → r.st = .committed → r.result = none →
    Gives (.datasetManagement k) s fun t => ∃ m, t.findTag k = some { r with result := some cplSuccess, respMseq := m }) ∧
  -- HOST_DATA_RECEIVED (R61)
  (∀ s k r n ok xs, s.findTag k = some r → r.fetching = true → r.open_ = true → r.intents = false →
    s.findNs r.vsid r.cap.nsid = some n →
    ((ok = false ∨ xs.length ≠ (n.sectors r.cap.slba r.cap.nlb).2) →
      Gives (.hostDataReceived k ok xs) s fun t => t.findTag k = some { r with
        fetching := false, st := .squashing, result := some cplTransferError, post := true }) ∧
    (ok = true → xs.length = (n.sectors r.cap.slba r.cap.nlb).2 → (r.cap.opcode = 5 ∨ (r.cap.opcode = 1 ∧ s.locked k = false)) →
      Gives (.hostDataReceived k ok xs) s fun t => t.findTag k = some { r with
        fetching := false, dataIn := true, hostData := xs })) ∧
  -- COMMIT_POINT (R53, R78)
  (∀ s k r n, s.findTag k = some r → r.st = .executing → r.post = true → s.findNs r.vsid r.cap.nsid = some n →
    (r.cap.opcode ≠ 2 → r.cap.opcode ≠ 5 → s.writeCommits r = true →
      Gives (.commitPoint k) s fun t => ∃ m, t.findTag k = some { r with
        st := .committed, result := some cplSuccess, respMseq := m }) ∧
    (∀ m, r.group = none → r.gathered = true → r.readMseq = some m → s.peerHolds m = true →
      (r.cap.opcode = 2 →
        Gives (.commitPoint k) s fun t =>
          s.Sent t (.readData (s.transportOf r.cntlid r.sqid) r.cntlid r.sqid r.cid (readSectors n r.cap.slba r.cap.nlb r.blocks)) ∧
          ∃ m, t.findTag k = some { r with st := .committed, result := some cplSuccess, respMseq := m }) ∧
      (r.cap.opcode = 5 → r.dataIn = true →
        Gives (.commitPoint k) s fun t => ∃ m, t.findTag k = some { r with
          st := .committed, respMseq := m
          result := some (if readSectors n r.cap.slba r.cap.nlb r.blocks = r.hostData then cplSuccess else cplCompare) }))) ∧
  -- RESPONSE_HANDOFF, RESPONSE_ACKNOWLEDGED and SQUASH_COMPLETE (R52, R54, R55, R66, R67)
  (∀ s k r st m, s.findTag k = some r → (r.st = .committed ∨ r.st = .squashing) → r.post = true → s.engineBusy r = false →
    r.result = some st → r.respMseq = some m → s.peerHolds m = true →
    (Gives (.responseHandoff k) s fun t => ∃ h, s.Sent t (.cqe r.cntlid r.sqid r.cid st 0 h)) ∧
    (r.st = .squashing → Gives (.squashComplete k) s fun t => ∃ h, s.Sent t (.cqe r.cntlid r.sqid r.cid st 0 h))) ∧
  (∀ s k r, s.findTag k = some r → r.st = .responding → Gives (.responseAcknowledged k) s fun t => t.findTag k = none) ∧
  (∀ s k r, s.findTag k = some r → r.st = .squashing → s.engineBusy r = false → r.post = false →
    Gives (.squashComplete k) s fun t => t.findTag k = none) ∧
  -- RANGE_LOCK_GRANT (R86)
  (∀ s k r, s.findTag k = some r → r.st = .admitted → r.cap.opcode ≠ 2 → r.cap.opcode ≠ 5 → s.rfu.groups = [] →
    s.holdsLock k = true → s.lockFree k = true →
    Gives (.rangeLockGrant k) s fun t => t.holdsLock k = true ∧ t.locked k = true) ∧
  -- JOIN_COPY_COMPLETE (R80)
  (∀ s m, s.rfx.joinMseq = some m → s.rfx.out1.isOpen = true → m ≤ s.rfx.out1.acked →
    Gives .joinCopyComplete s fun t => t.rfx.joinMseq = none ∧ t.hce.wtJoinCopy = false)

/-- Read groups from window to release, and the creation and deletion of rings (R113, R114, R118, R119, R127, R128, R140 to
R143). -/
def Obligations.ReadGroupsAndRings : Prop :=
  -- Chapter 04 (R113, R114, R118, R119, R127, R128)
  (∀ s i g, s.findGroup i = some g → g.isOpen = true → g.dataReady = false → due g.windowEnd s.now = true →
    Gives (.coalescingWindowExpiry i) s fun t => t.findGroup i = some { g with isOpen := false, byLock := false }) ∧
  (∀ s i g, s.findGroup i = some g → g.isOpen = true → g.dataReady = false → g.complete = true → 2 ≤ g.reqs.length →
    Gives (.groupDataReady i) s fun t =>
      if ((s.findNs g.vsid g.nsid).map (fun n => s.rangeLost n g.slba g.nlb)).getD false = true then t.findGroup i = none
      else t.findGroup i = some { g with dataReady := true } ∧ ∀ q ∈ g.reqs, t.holdsLock q.tag = false) ∧
  (∀ s i k g q at_ n r, s.findGroup i = some g → g.reqs.find? (fun q => q.tag = k) = some q → g.releasedAt = some at_ →
    s.findNs g.vsid g.nsid = some n → s.findTag k = some r → q.unicast = false → q.moved = false → q.done = false → r.st = .committed → s.copiesOf k ≠ [] →
    at_ + us g.residue ≤ s.now →
    Gives (.residueTimeout i k) s fun t => ∃ g', t.findGroup i = some g' ∧ g'.reqs.length = g.reqs.length ∧
      ∀ y ∈ g'.reqs, y.tag = k → y.moved = true ∧ y.unicast = true) ∧
  (∀ s i g, s.findGroup i = some g → g.isOpen = false → g.releasedAt.isSome = true → s.regionBusy g = false →
    Gives (.groupRegionRelease i) s fun t => t.findGroup i = none) ∧
  -- RING_CREATE, RING_DELETE and RING_INIT_COMPLETE (R140 to R143, R283)
  (∀ s m c num k mm sp n seed bays, s.Starts m 0x0301 c → s.Inv → byteAt c.params 0 = num → byteAt c.params 1 = k →
    byteAt c.params 2 = mm → byteAt c.params 3 = sp → byteAt c.params 4 = n → leAt c.params 8 4 = seed →
    bays = ((c.params.drop 16).take (Nat.min n 24)).map (fun b => b.toNat) →
    (mm = 3 → Config.hasTriple s.part = true) → (∀ b ∈ bays, b < Config.bays s.part) →
    ((num ≤ 7 → 4 ≤ k → k ≤ 16 → 1 ≤ mm → mm ≤ 3 → sp ≤ 2 → 8 ≤ n → n ≤ 24 → leAt c.params 5 3 = 0 → seed ≠ 0 →
        k + mm ≤ n - sp → (∀ b ∈ bays, b ≤ 23) → bays.Nodup → s.findRing num = none →
        (∀ b ∈ bays, s.fitDrive b = true ∧
          s.roomOn b (if leAt c.params 12 4 = 0 then 0 else leAt c.params 12 4 * gib) = true) →
        k + mm ≤ s.ringChunks (leAt c.params 12 4) bays →
        Gives (.ringCreate m) s fun t => t.Ended m stOk ∧ ∃ r, t.findRing num = some r ∧ r.n = n ∧ r.k = k ∧ r.m = mm ∧
          r.s = sp ∧ r.seed = BitVec.ofNat 32 seed ∧ r.slots.map (fun x => x.bay) = bays.map some ∧ r.initRunning = true) ∧
      ((7 < num ∨ k < 4 ∨ 16 < k ∨ mm < 1 ∨ 3 < mm ∨ 2 < sp ∨ n < 8 ∨ 24 < n ∨ seed = 0 ∨ n - sp < k + mm ∨ ¬ bays.Nodup) →
        Gives (.ringCreate m) s fun t => t.Ended m stInvalidParam ∧ t.rge = s.rge))) ∧
  (∀ s m c r n, s.Starts m 0x0302 c → s.Inv → byteAt c.params 0 = n → n ≤ 7 → s.findRing n = some r → s.owns n = true →
    (∀ x ∈ s.vsm.nss, x.ring ≠ n) →
    Gives (.ringDelete m) s fun t => s.Propagated t m ∧ t.findRing n = none) ∧
  (∀ s n r, s.findRing n = some r → r.initRunning = true → r.owner = true → (∀ x ∈ r.slots, x.initLeft = false) →
    Gives (.ringInitComplete n) s fun t => t.findRing n = some { r with initRunning := false }) ∧
  -- PTQRY_WRITE (chapter 20, RGE.PTQRY)
  (∀ s w, Gives (.ptqryWrite w) s fun t => t.rge.ptData = BitVec.ofNat 32 (match s.findRing (fieldOf w 26 24) with
    | some r => if fieldOf w 20 16 < r.n then (makeRow r.seed (fieldOf w 11 0) r.n).getD (fieldOf w 20 16) 0x1F else 0x1F
    | none => 0x1F))

/-- Stripe writes, the dirty-region bitmap, checkpoints and resynchronisation (R159, R160, R162, R168 to R172, R174). -/
def Obligations.StripesAreWrittenAndRecorded : Prop :=
  -- STRIPE_WRITE_START, DRAIN_MAXAGE_EXPIRY and STRIPE_WRITE_COMPLETE (R159, R160, R162, R168)
  (∀ s n st r, s.findRing n = some r → s.stripeFree r st = true → s.cands r st ≠ [] →
    (Gives (.stripeWriteStart n st) s fun t =>
      if s.trigger r (s.cands r st) false = true then t.rge.jseq = s.rge.jseq + 1 ∧
        (s.rge.writes = [] → ∃ w ∈ t.rge.writes, w.ring = n ∧ w.stripe = st) else t = s) ∧
    (Gives (.drainMaxageExpiry n st) s fun t =>
      if s.trigger r (s.cands r st) true = true then t.rge.jseq = s.rge.jseq + 1 ∧
        (s.rge.writes = [] → ∃ w ∈ t.rge.writes, w.ring = n ∧ w.stripe = st) else t = s)) ∧
  (∀ s n st w, s.rge.writes.find? (fun w => w.ring = n && w.stripe = st) = some w → w.phase = .writing → w.outstanding = [] →
    Gives (.stripeWriteComplete n st) s fun t => ∃ u : State, t = u.startMends n st ∧
      (∀ x ∈ u.rge.writes, ¬(x.ring = n ∧ x.stripe = st)) ∧ ∀ x ∈ u.rge.intents, x.idx ≠ w.intentIdx) ∧
  -- BITMAP_SWEEP (R169 to R171)
  (∀ s n r, s.findRing n = some r → r.owner = true → due r.sweepAt s.now = true →
    Gives (.bitmapSweep n) s fun t => ∃ g, t.findRing n = some g ∧ g.sweepAt = some (s.now + sec (s.cfg Reg.rgeBmcfg 11 0)) ∧
      g.hdrSeq = r.hdrSeq + 1 ∧
      (∀ x, x ∈ g.bitmap ↔ x ∈ r.bitmap ∧ s.sweepable r x = false) ∧
      g.slots.map (fun m => m.missed) = r.slots.map (fun m => m.missed.filter (fun x =>
        !(hasNat r.bitmap x && s.sweepable r x)))) ∧
  -- BITMAP_CHECKPOINT and CHECKPOINT_WRITE_COMPLETE (R171, R172)
  (∀ s n r, s.findRing n = some r → r.owner = true → r.ckpt = none → r.ckSlots ≠ [] → due r.ckptAt s.now = true →
    (∀ x, s.pwr.restart = some x → x.clean = false) →
    Gives (.bitmapCheckpoint n) s fun t => t.findRing n = some { r with
      hdrSeq := r.hdrSeq + 1, ckRot := (r.ckRot + 1) % 3, ckptAt := some (s.now + sec (s.cfg Reg.rgeBmcfg 27 16))
      ckpt := some (r.ckSlots.getD (r.ckRot % r.ckSlots.length) 0, r.ckSeq + 1) }) ∧
  (∀ s n r j k, s.findRing n = some r → r.ckpt = some (j, k) →
    (∀ c ∈ s.bay.cmds, ¬(c.purpose = .checkpoint n ∧ c.op = .write)) →
    Gives (.checkpointWriteComplete n) s fun t => t.findRing n = some { r with ckSeq := k, ckSlot := j, ckpt := none }) ∧
  -- SUSPECT_STRIPE_DONE and VERIFY_STRIPE_DONE (R174)
  (∀ s n st rows r i rest, s.findRing n = some r → r.owner = true → r.suspects = i :: rest → i.stripe = st →
    (∀ b ∈ maskRows i.rowmask, ∃ e ∈ rows, e.1 = b) → s.stripeBusy n st = false → s.journalFull = false →
    Gives (.suspectStripeDone n st rows) s fun t => ∃ u : State, t = u.reask ∧ ∀ g, u.findRing n = some g → g.suspects = rest) ∧
  (∀ s n rows r st, s.findRing n = some r → r.owner = true → r.suspects = [] → r.verify = some st →
    (∀ b < 16, ∃ e ∈ rows, e.1 = b) → s.stripeBusy n st = false → s.journalFull = false → r.onlyVerify = true →
    s.mayWork = true →
    Gives (.verifyStripeDone n rows) s fun t => ∃ u : State, t = u.endWork.reask ∧ ∀ g, u.findRing n = some g →
      g.verify = if st + 1 < r.stripes then some (st + 1) else none)

/-- Members: identification, rejoin, rebuild, copyback, rate, patrol and the member commands (R180, R181, R189, R190,
R192, R193, R195, R207, R208, R210, R213). -/
def Obligations.MembersServeAndRebuild : Prop :=
  -- DRIVE_IDENTIFIED (R207)
  (∀ (s : State) bay info, bay < Config.bays s.part → bay < s.bay.bays.length →
    (∀ x ∈ s.rge.rings, ∀ c, bestCopy info.superblocks x = some c → x.owner = true ∨ c.gen ≤ x.gen) →
    (∀ k x, s.findRing k = some x → ∀ i < x.slots.length, (x.slotAt i).serial ≠ info.serial ∧ (x.slotAt i).bay ≠ some bay) →
    Gives (.driveIdentified bay info) s fun t => ∃ d, (t.bayOf bay).drive = some d ∧ d.serial = info.serial ∧
      (s.bay.holder = false → d = info)) ∧
  (∀ s bay info n j r, bay < Config.bays s.part → s.findRing n = some r → j < r.n → (r.slotAt j).st = .absent →
    (r.slotAt j).serial = info.serial →
    (∀ x ∈ s.rge.rings, ∀ c, bestCopy info.superblocks x = some c → x.owner = true ∨ c.gen ≤ x.gen) →
    (∀ k x, s.findRing k = some x → ∀ i < x.slots.length, ¬(k = n ∧ i = j) →
      (x.slotAt i).serial ≠ info.serial ∧ (x.slotAt i).bay ≠ some bay) →
    Gives (.driveIdentified bay info) s fun t => ∃ g, t.findRing n = some g ∧ (g.slotAt j).bay = some bay ∧
      (g.slotAt j).st = if r.owner = true then .stale else .absent) ∧
  -- REJOIN_WINDOW_EXPIRY and REJOIN_RESYNC_COMPLETE (R180, R208)
  (∀ s n j r, s.findRing n = some r → r.owner = true → (r.slotAt j).st = .absent → due (r.slotAt j).rejoin s.now = true →
    Gives (.rejoinWindowExpiry n j) s fun t => ∃ g, t.findRing n = some g ∧ (g.slotAt j).st = .failed ∧
      ∀ i, i ≠ j → (g.slotAt i).st = (r.slotAt i).st) ∧
  (∀ s n j rows r, s.findRing n = some r → r.owner = true → (r.slotAt j).st = .stale → r.suspects = [] → r.hunt = none →
    (r.initRunning && (r.slotAt j).initLeft) = false → r.nextRebuild = none →
    Gives (.rejoinResyncComplete n ⟨j, rows⟩) s fun t =>
      (r.syncStripes j = [] → ∃ g, t.findRing n = some g ∧ (g.slotAt j).st = .online ∧
        ∀ i, i ≠ j → (g.slotAt i).st = (r.slotAt i).st) ∧
      (∀ st l, r.syncStripes j = st :: l →
        s.mayRenew r st ((rows.filter (fun e => e.1 = st)).map (fun e => e.2)) = true →
        ∃ u : State, t = (u.endSync n j).reask ∧ ∀ c ∈ r.storedOn st j, ⟨n, st, c, j, s.rge.jseq + 1⟩ ∈ u.rge.tasks)) ∧
  -- SMART_CRITICAL_WARNING (R181)
  (∀ s b (bits : BitVec 8),
    (bits.getLsbD 2 = false → bits.getLsbD 3 = false → Gives (.smartCriticalWarning b bits) s fun t => t = s) ∧
    (bits.getLsbD 2 = true ∨ bits.getLsbD 3 = true → ∀ n j r, s.findRing n = some r → r.owner = true →
      (n, j) ∈ s.slotsOfBay b →
      (r.slotAt j).st = .online ∨ (r.slotAt j).st = .stale ∨ (r.slotAt j).st = .absent ∨ (r.slotAt j).st = .replacing →
      Gives (.smartCriticalWarning b bits) s fun t => ∃ g, t.findRing n = some g ∧ (g.slotAt j).st = .failed)) ∧
  -- REBUILD_STRIPE_DONE (R189, R190, R195)
  (∀ s n st rows r lvl, s.findRing n = some r → r.nextRebuild = some (lvl, st) → s.mayRenew r st rows = true →
    Gives (.rebuildStripeDone n st rows) s fun t => ∃ u : State, t = u.reask ∧
      (∃ g, u.findRing n = some g ∧ (lvl - 1 < g.cursors.length → g.cursors.getD (lvl - 1) 0 = st + 1)) ∧
      (∀ c ∈ r.workChunks st, ∀ j, r.targetOf st c = some j → ⟨n, st, c, j, s.rge.jseq + 1⟩ ∈ u.rge.tasks) ∧
      u.rge.work = s.rge.work + 65536 * ((r.workChunks st).filter (fun c => (r.targetOf st c).isSome)).length) ∧
  -- COPYBACK_CHUNK_DONE (R192, R193)
  (∀ s n j ch rows r st, s.findRing n = some r → (r.slotAt j).st = .replacing → r.nextRebuild = none →
    (∀ x ∈ r.slots, x.st ≠ .stale) → ch ∉ (r.slotAt j).filled →
    (natsFrom 0 r.turns).find? (fun t => !r.turnDone j t) = some (ch / Nat.max r.w 1 / 4096) →
    (natsFrom (ch / Nat.max r.w 1 * r.d) r.d).find? (fun st => r.homeOf st (ch % Nat.max r.w 1) = j) = some st →
    s.mayRenew r st rows = true →
    Gives (.copybackChunkDone n j ⟨ch, rows⟩) s fun t => ∃ u : State, t = u.reask ∧
      ⟨n, st, ch % Nat.max r.w 1, j, s.rge.jseq + 1⟩ ∈ u.rge.tasks ∧ u.rge.work = s.rge.work + 65536) ∧
  -- REBUILD_RATE_TICK (R195)
  (∀ s h, Gives (.rebuildRateTick h) s fun t => t.rge.traffic = h ∧
    ((∀ r ∈ s.rge.rings, r.hasWork = false) → t.rge.rate = 0 ∧ t.rge.fshare = 0) ∧
    t.rge.rate ≤ 100 * s.cfg Reg.rgeRbcfg 23 16 * t.rge.fshare / 256) ∧
  -- PATROL_STRIPE_CHECK (R210)
  (∀ s n rows r, s.findRing n = some r → r.owner = true → s.cfgBit Reg.rgePatcfg 0 = true → r.rebuilding = false →
    r.resyncing = false → (∀ b < 16, ∃ e ∈ rows, e.1 = b) → s.stripeBusy n r.patrol = false → s.journalFull = false →
    r.mustWait r.patrol = false →
    Gives (.patrolStripeCheck n rows) s fun t => ∃ g, t.findRing n = some g ∧
      g.patrol = if r.patrol + 1 < r.stripes then r.patrol + 1 else 0) ∧
  -- MEMBER_FAIL, MEMBER_REPLACE and LOST_LIST (R192, R213)
  (∀ s m c n j fl r, s.Starts m 0x0303 c → s.Inv → byteAt c.params 0 = n → byteAt c.params 1 = j →
    byteAt c.params 2 = fl → n ≤ 7 → j ≤ 23 → fl ≤ 1 → s.findRing n = some r →
    (r.owner = true → (r.slotAt j).st = .online ∨ (r.slotAt j).st = .stale ∨ (r.slotAt j).st = .absent →
      (fl = 0 → r.losesData j = false) →
      Gives (.memberFail m) s fun t => t.Ended m stOk ∧ ∃ g, t.findRing n = some g ∧ (g.slotAt j).st = .failed) ∧
    (r.owner = false → Gives (.memberFail m) s fun t => t.Ended m stNotOwner ∧ t.rge = s.rge) ∧
    (r.owner = true → fl = 0 → r.losesData j = true →
      Gives (.memberFail m) s fun t => t.Ended m stConflict ∧ t.rge = s.rge)) ∧
  (∀ s m c n j b r, s.Starts m 0x0304 c → s.Inv → byteAt c.params 0 = n → byteAt c.params 1 = j →
    byteAt c.params 2 = b → n ≤ 7 → j ≤ 23 → b ≤ 23 → b < Config.bays s.part → s.findRing n = some r → r.owner = true →
    (r.slotAt j).st = .failed → s.fitDrive b = true → (∀ x ∈ r.slots, x.bay = some b → x.st = .failed) →
    s.roomOn b (r.chunks * 65536) = true →
    Gives (.memberReplace m) s fun t => t.Ended m stOk ∧ ∃ g, t.findRing n = some g ∧ (g.slotAt j).st = .replacing ∧
      (g.slotAt j).bay = some b) ∧
  (∀ s m c n, s.Starts m 0x0305 c → s.Inv → byteAt c.params 0 = n →
    (7 < n → Gives (.lostList m) s fun t => t.Ended m stInvalidParam ∧ t.rge = s.rge) ∧
    (n ≤ 7 → Gives (.lostList m) s fun t => t.rge = s.rge ∧ ∃ all from_ : List LostExtent,
      (∀ e, e ∈ all ↔ e ∈ s.rge.lost ++ s.peerLost ∧ e.ring = n) ∧ (∀ e, e ∈ from_ ↔ e ∈ all ∧ leAt c.params 4 4 ≤ e.idx) ∧
      from_.Pairwise (fun x y => x.idx ≤ y.idx) ∧
      t.Answers m c (padTo 64 (leBytes 4 all.length ++
        leBytes 4 (((from_.drop 63).head?.map (fun e => e.idx)).getD 0xFFFFFFFF)) ++
        (from_.take 63).flatMap (fun e => e.line))))

/-- Links, FID claims, link-state entries and forwarded frames (R218, R220, R221, R223, R225 to R231, R234). -/
def Obligations.LinksAndFabricIdentifiers : Prop :=
  -- BARKER_SEND, BARKER_TIMEOUT (R220, R221)
  (∀ s : State, s.Inv → Gives .barkerSend s fun t => t.rfx.started = true ∧ ∀ p < 4, (t.fabPort p).bkSeq =
    if s.fabEnabled p then ((s.fabPort p).bkSeq + 1) % 2 ^ 32 else (s.fabPort p).bkSeq) ∧
  (∀ s p b, (s.fabPort p).lastBarker = some b →
    exec (.barkerTimeout p) s = .next (if b + ms 3 ≤ s.now then s.portDown p else s)) ∧
  -- PCS_LINK_DOWN, PCS_LINK_UP (R221, R596)
  (∀ (s : State) p, (p < 4 → Gives (.pcsLinkDown p) s fun t => ∀ q, q ∈ t.mac.hostUp ↔ q ∈ s.mac.hostUp ∧ q ≠ p) ∧
    (4 ≤ p → p < 8 → s.Inv → Gives (.pcsLinkDown p) s fun t => ∃ u : State, u = s.portDown (p - 4) ∧
      (t.fabPort (p - 4)).pcs = false ∧ (t.fabPort (p - 4)).nbrUid = 0 ∧ (t.fabPort (p - 4)).nbrFid = 0x7F)) ∧
  (∀ (s : State) p, s.retrainHolds p = false → s.macRuns p = true → s.portAwake p = true →
    (p < 4 → Gives (.pcsLinkUp p) s fun t => p ∈ t.mac.hostUp ∧ ∀ q ∈ s.mac.hostUp, q ∈ t.mac.hostUp) ∧
    (4 ≤ p → p < 8 → s.Inv → Gives (.pcsLinkUp p) s fun t => (t.fabPort (p - 4)).pcs = true ∧
      (t.fabPort (p - 4)).up = (s.fabPort (p - 4)).up)) ∧
  -- PEERWAIT_EXPIRY (R223)
  (∀ s : State, due s.rfx.peerWait s.now = true → exec .peerwaitExpiry s = .next s.peerAbsent) ∧
  -- CLAIM_INTERVAL, CLAIM_WAIT_EXPIRY, FID_RETRY (R225, R226)
  (∀ s : State, s.rfx.fidSt = .claiming → due s.rfx.claimTimer s.now = true → s.rfx.claims < 3 →
    Gives .claimInterval s fun t => t.rfx.claims = s.rfx.claims + 1 ∧
      (s.rfx.claims = 1 → t.rfx.claimTimer = some (s.now + ms 5)) ∧ (s.rfx.claims = 2 → t.rfx.claimTimer = none)) ∧
  (∀ s : State, s.rfx.fidSt = .claiming → due s.rfx.claimWait s.now = true →
    Gives .claimWaitExpiry s fun t => t.rfx.fidSt = .held ∧ t.rfx.fid = s.rfx.candidate ∧ t.rfx.identity = some s.rfx.candidate) ∧
  (∀ s : State, s.rfx.fidSt = .full → due s.rfx.retryTimer s.now = true → exec .fidRetry s = .next s.startClaim) ∧
  -- CLAIM_RECEIVE, DEFEND_RECEIVE, DUPLICATE_SUPPRESSION_EXPIRY (R226, R227, R229)
  (∀ (s : State) p uid fid n, uid ≠ s.uid → s.isDup uid n = false →
    (s.rfx.fidSt = .held → s.rfx.fid = fid → exec (.claimReceive p uid fid n) s =
      .next (((s.noteDup uid n).flood (some p) 2 (claimBytes uid fid n)).flood none 3 (defendBytes s.uid fid uid n))) ∧
    (s.rfx.fidSt = .claiming → s.rfx.candidate = fid → uid < s.uid →
      exec (.claimReceive p uid fid n) s = .next (s.noteDup uid n).claimFail) ∧
    (s.rfx.fidSt = .claiming → s.rfx.candidate = fid → s.uid < uid →
      exec (.claimReceive p uid fid n) s = .next (s.noteDup uid n)) ∧
    ∀ c, s.rfx.fidSt = .claiming → s.rfx.candidate = fid →
      exec (.defendReceive p uid fid c n) s = .next (s.noteDup uid n).claimFail) ∧
  (∀ (s : State) uid n, Gives (.duplicateSuppressionExpiry uid n) s fun t => ∀ d, d ∈ t.rfx.dups ↔ d ∈ s.rfx.dups ∧
    ¬(d.1 = uid ∧ d.2.1 = n ∧ d.2.2 ≤ s.now)) ∧
  -- LSA_RECEIVE, LSA_REFRESH, LSDB_ENTRY_EXPIRY, FORMER_FID_EXPIRY (R228, R230, R231)
  (∀ (s : State) p lsa, lsa.uid ≠ s.uid → (s.rfx.fidSt = .held → s.rfx.fid ≠ lsa.fid) → s.rfx.fidSt ≠ .claiming →
    (s.rfx.lsdb.find? (fun e => e.lsa.fid = lsa.fid) = none → s.rfx.lsdb.length < 127 →
      Gives (.lsaReceive p lsa) s fun t => ∃ e ∈ t.rfx.lsdb, e.lsa = lsa ∧ e.expires = s.now + ms 3500) ∧
    (∀ e, s.rfx.lsdb.find? (fun e => e.lsa.fid = lsa.fid) = some e → serialNewer lsa.seq e.lsa.seq = true →
      Gives (.lsaReceive p lsa) s fun t => ∃ e ∈ t.rfx.lsdb, e.lsa = lsa ∧ e.expires = s.now + ms 3500) ∧
    (∀ e, s.rfx.lsdb.find? (fun e => e.lsa.fid = lsa.fid) = some e → serialNewer lsa.seq e.lsa.seq = false →
      exec (.lsaReceive p lsa) s = .next s)) ∧
  (∀ s : State, s.rfx.fidSt = .held → Gives .lsaRefresh s fun t => t = s.sendLsa ∧ t.rfx.lsaSeq = s.rfx.lsaSeq + 1) ∧
  (∀ (s : State) fid e, e ∈ s.rfx.lsdb → e.lsa.fid = fid → e.expires ≤ s.now →
    Gives (.lsdbEntryExpiry fid) s fun t => ∀ x ∈ t.rfx.lsdb, x.lsa.fid ≠ fid) ∧
  (∀ s : State, due s.rfx.formerTimer s.now = true → Gives .formerFidExpiry s fun t => t.rfx.former = none) ∧
  -- FRAME_FORWARD, BAD_RELTI_FRAME and RFX.RTQRY (R218, R234)
  (∀ (s : State) p h, s.rfx.fidSt = .held → h.dst ≠ s.rfx.fid → s.rfx.former ≠ some h.dst →
    (h.hops ≤ 1 → exec (.frameForward p h) s = .next (s.bump Reg.rfxHopexp)) ∧
    (1 < h.hops → s.rfx.routes.find? (fun r => r.1 = h.dst) = none →
      exec (.frameForward p h) s = .next (s.bump Reg.rfxNoroute)) ∧
    (∀ r, 1 < h.hops → s.rfx.routes.find? (fun r => r.1 = h.dst) = some r → r.2.2 ≠ [] →
      Gives (.frameForward p h) s fun t => ∃ (f : XFrame) (q : Nat), t.xbr.frames = s.xbr.frames ++ [f] ∧ q ∈ r.2.2 ∧ f.input = 4 + p ∧
        f.owed = [plainCopy (4 + q) 0 512 (reltiClass h.typ) (34 + h.len)] ∧
        s.Sent t (.head q (s.reltiHead q { h with hops := h.hops - 1 })))) ∧
  (∀ s p f, exec (.badReltiFrame p f) s = .next s.badRelti) ∧
  (∀ (s : State) w, Gives (.rtqryWrite w) s fun t =>
    (∀ r, s.rfx.routes.find? (fun r => r.1 = fieldOf w 6 0) = some r →
      t.rfx.rtData = place 1 31 ||| place r.2.1 8 ||| maskOf r.2.2) ∧
    (s.rfx.routes.find? (fun r => r.1 = fieldOf w 6 0) = none → t.rfx.rtData = 0))

/-- STATUS, ring election and handover, and the control owner (R219, R236 to R249). -/
def Obligations.StatusElectionAndOwnership : Prop :=
  -- STATUS_SEND, STATUS_RECEIVE (R219)
  (∀ (s : State) p, s.peerPort = some p → Gives .statusSend s fun t => s.Sent t (.status p s.statusNow)) ∧
  (∀ s : State, s.peerPort = none → exec .statusSend s = .next s) ∧
  (∀ (s : State) st, st.retrainNotice = false → st.retrainAck = false → st.retrainClear = false →
    Gives (.statusReceive st) s fun t => t.rfx.peer = { s.rfx.peer with
      dirty := st.dirty, ceiling := st.ceiling, room := st.mirrorRoom, rebuildRings := st.rebuildRings,
      traffic := st.memberTraffic, hbEnabled := st.hbEnabled }) ∧
  -- ELECT_RECEIVE, ELECTION_TIMEOUT (R236 to R238)
  (∀ s n prio fid e r, s.findRing n = some r →
    (r.owner = true → exec (.electReceive n prio fid e) s = .next (s.ownerFrame n s.rfx.fid r.epoch)) ∧
    (r.owner = false → r.bidTimer.isSome = true → exec (.electReceive n prio fid e) s =
      .next ((s.updRing n (fun x => { x with peerBid := some (prio, fid, e) })).decide n)) ∧
    (r.owner = false → r.bidTimer = none → exec (.electReceive n prio fid e) s =
      .next ((s.updRing n (fun x => { x with peerBid := some (prio, fid, e) })).sendBid n)) ∧
    (due r.bidTimer s.now = true → r.peerBid = none → exec (.electionTimeout n) s = .next (s.decide n))) ∧
  -- OWNER_SEND, OWNER_RECEIVE (R238, R240)
  (∀ s n r m, s.findRing n = some r → r.ownMseq = some m →
    exec (.ownerSend n) s = .next (if s.peerHolds m then ((s.ownerFrame n s.rfx.fid r.epoch).masterRing n r.epoch).resumeOps [n] else s)) ∧
  (∀ s n fid e r, s.findRing n = some r →
    (e < r.epoch ∨ e = r.epoch ∧ r.owner = true → exec (.ownerReceive n fid e) s = .next s) ∧
    (r.epoch < e → fid = s.rfx.fid → exec (.ownerReceive n fid e) s = .next ((s.sendEpoch n e).masterRing n e)) ∧
    (r.epoch < e → fid ≠ s.rfx.fid → Gives (.ownerReceive n fid e) s fun t => ∃ g, t.findRing n = some g ∧
      g.owner = false ∧ g.epoch = e ∧ g.master = some fid)) ∧
  -- RING_HANDOVER, HANDOVER_QUIESCED, HANDOVER_TIMEOUT (R243)
  (∀ s m c n r, s.Starts m 0x0306 c → s.Inv → byteAt c.params 0 = n → n ≤ 7 → s.findRing n = some r →
    (r.owner = true → s.rfx.peer.joined = true → s.mirrorUp = true → r.initRunning = false →
      r.resyncing = false → r.handover = none → Gives (.ringHandover m) s fun t => (∃ d, t.cmdOf m = some d ∧ d.running = true) ∧
        t.findRing n = some { r with handover := some (m, s.now + ms 20), held := true }) ∧
    (r.owner = false → Gives (.ringHandover m) s fun t => t.Ended m stNotOwner ∧ t.rge = s.rge)) ∧
  (∀ s n r m d c, s.findRing n = some r → r.handover = some (m, d) → s.Inv → s.cmdOf m = some c →
    (r.owner = true → s.ringBusy n = false → Gives (.handoverQuiesced n) s fun t => t.Ended m stOk ∧ ∃ g, t.findRing n = some g ∧
      g.owner = false ∧ g.epoch = r.epoch + 1 ∧ g.master = some s.rfx.peer.fid ∧ g.handover = none ∧ g.held = false) ∧
    (s.ringBusy n = true → exec (.handoverQuiesced n) s = .next s) ∧
    (d ≤ s.now → Gives (.handoverTimeout n) s fun t => t.Ended m stBusy ∧
      t.findRing n = some { r with handover := none, held := false })) ∧
  -- OWNER_CLAIM, OWNER_RENEW, HANDOVER, OWNER_RELEASE (R245 to R249)
  (∀ s m c, s.Starts m 0x0B01 c → s.Inv →
    (s.mbx.window.isSome = true → Gives (.ownerClaim m) s fun t => m ∈ t.mbx.claims ∧ ∃ d, t.cmdOf m = some d ∧ d.running = true) ∧
    (s.mbx.window = none → s.mbx.owner = none → Gives (.ownerClaim m) s fun t => t.Ended m stOk ∧ t.mbx.owner = some m ∧
      t.mbx.lease = some (s.now + s.leaseNs)) ∧
    (s.mbx.window = none → s.mbx.owner = some m → Gives (.ownerClaim m) s fun t => t.Yields m c s.ownerResult) ∧
    (∀ o, s.mbx.window = none → s.mbx.owner = some o → o ≠ m → Gives (.ownerClaim m) s fun t => t.Ended m stNotOwner ∧
      t.mbx.owner = some o)) ∧
  (∀ s m c, s.Starts m 0x0B02 c → s.Inv →
    (c.fromOwner = true → Gives (.ownerRenew m) s fun t => t.Yields m c s.ownerResult) ∧
    (c.fromOwner = false → Gives (.ownerRenew m) s fun t => t.Ended m stNotOwner)) ∧
  (∀ s m c o, s.Starts m 0x0B03 c → s.Inv → byteAt c.params 0 = o →
    (c.fromOwner = true → o ≤ 3 → o ≠ m.num → s.present (masterOf o) = true →
      Gives (.handover m) s fun t => t.Ended m stOk ∧ t.mbx.owner = some (masterOf o)) ∧
    (c.fromOwner = false → Gives (.handover m) s fun t => t.Ended m stNotOwner ∧ t.mbx.owner = s.mbx.owner)) ∧
  (∀ s m c, s.Starts m 0x0B04 c → s.Inv →
    (c.fromOwner = true → Gives (.ownerRelease m) s fun t => t.Ended m stOk ∧ t.mbx.owner = none ∧
      t.mbx.window = some (s.now + ms 100)) ∧
    (c.fromOwner = false → Gives (.ownerRelease m) s fun t => t.Ended m stNotOwner ∧ t.mbx.owner = s.mbx.owner)) ∧
  -- ELECTION_WINDOW_CLOSE, LEASE_EXPIRY, MASTER_PRESENCE_EXPIRY (R245, R246)
  (∀ s : State, due s.mbx.window s.now = true →
    (∀ w, s.ranking.find? (fun m => s.mbx.claims.any (fun k => k = m)) = some w →
      Gives .electionWindowClose s fun t => t.mbx.owner = some w ∧ t.mbx.window = none ∧ t.mbx.claims = []) ∧
    (s.mbx.claims = [] → Gives .electionWindowClose s fun t => t.mbx.owner = s.mbx.owner ∧ t.mbx.window = none)) ∧
  (∀ s : State, due s.mbx.lease s.now = true → Gives .leaseExpiry s fun t => t.mbx.owner = none ∧
    t.mbx.window = some (s.now + ms 100) ∧ t.mbx.claims = []) ∧
  (∀ s m, s.Inv → due (s.heldOf m).present s.now = true →
    Gives (.masterPresenceExpiry m) s fun t => (t.heldOf m).present = none ∧ (t.heldOf m).result = (s.heldOf m).result)

/-- The peer's stream (R22, R75, R82, R254 to R262), death, fence and takeover (R265 to R278), and R433. -/
def Obligations.PeerStreamsFenceAndTakeover : Prop :=
  -- BARKER_RECEIVE (R220, R221): a new neighbor on a port that is not a midplane port, which does not hear this module yet
  (∀ (s : State) p b st, s.Inv → p < 4 → hasNat (Config.midplane s.part) p = false → b.heard ≠ s.uid →
    (s.fabPort p).up = false →
    (s.fabPort p).pcs = true → s.fabEnabled p = true → (s.fabPort p).nbrUid = 0 ∨ (s.fabPort p).nbrUid = b.uid →
    Gives (.barkerReceive p b st) s fun t => (t.fabPort p).nbrUid = b.uid ∧ (t.fabPort p).nbrFid = b.fid ∧
      (t.fabPort p).heard = b.uid ∧ (t.fabPort p).lastBarker = some s.now ∧ t.hce = s.hce) ∧
  (∀ (s : State) p b st, s.fabEnabled p = false ∨ (s.fabPort p).pcs = false → exec (.barkerReceive p b st) s = .next s) ∧
  -- MIRROR_RECEIVE, CMDSTATE_RECEIVE, XPORT_RECEIVE, FWD_RECEIVE (R22, R75, R82, R254, R257 to R262)
  (∀ (s : State) m, s.rfx.peer.joined = true → m ≠ 0 → m ≤ s.rfx.rxApplied →
    (∀ b, Gives (.mirrorReceive s.rfx.peer.fid m b) s fun t => t.hce = s.hce ∧ t.rfx.rxApplied = s.rfx.rxApplied) ∧
    (∀ r, Gives (.cmdstateReceive m r) s fun t => t.rfx.peerCmds = s.rfx.peerCmds) ∧
    (∀ x, Gives (.xportReceive m x) s fun t => t.rfx.peerXports = s.rfx.peerXports) ∧
    ∀ es, Gives (.fwdReceive m es) s fun t => t.hce = s.hce) ∧
  (∀ (s : State) m, s.rfx.peer.joined = true → m = s.rfx.rxApplied + 1 → s.rfx.rxHeld = [] → s.rfx.hold2 = [] →
    (∀ es, Gives (.mirrorReceive s.rfx.peer.fid m (.blocks es)) s fun t => t.hce = (s.applyBlocks es false false).hce ∧
      t.rfx.rxApplied = m) ∧
    (∀ f, Gives (.mirrorReceive s.rfx.peer.fid m (.free [f])) s fun t => t.hce = (s.applyFree f).hce ∧
      t.rfx.rxApplied = m) ∧
    (∀ r, Gives (.cmdstateReceive m r) s fun t => t.rfx.peerCmds = takeRecord s.rfx.peerCmds r ∧ t.rfx.rxApplied = m ∧
      t.hce = s.hce) ∧
    (∀ x, x.vsid ≠ 512 → Gives (.xportReceive m x) s fun t => t.rfx.rxApplied = m ∧
      t.rfx.peerXports = s.rfx.peerXports.filter (fun c => c.conn ≠ x.conn) ++ [x]) ∧
    (∀ es, (∀ e ∈ es, s.owns e.ring = true) → es ≠ [] → s.hce.effCeil ≠ 0 →
      (s.ownBlocks + es.length ≤ s.hce.effCeil * gibBlocks → Gives (.fwdReceive m es) s fun t =>
        t.rfx.rxApplied = m ∧ (s.rfx.rxUnacked < 63 → t.hce = (s.takeForward m es).hce)) ∧
      (s.hce.effCeil * gibBlocks < s.ownBlocks + es.length → Gives (.fwdReceive m es) s fun t =>
        t.hce = s.hce ∧ t.rfx.rxApplied = s.rfx.rxApplied ∧ t.rfx.rxHeld = [(m, .fwd es)]))) ∧
  (∀ (s : State) src m es, src ≠ s.rfx.peer.fid → m ≠ 1 → s.rfx.second.find? (fun e => e.1 = src) = some (src, m - 1) → m ≠ 0 →
    Gives (.mirrorReceive src m (.blocks es)) s fun t => (src, m) ∈ t.rfx.second ∧ ∃ room, s.Sent t (.mirack src m room)) ∧
  -- MIRACK_SEND, MIRACK_RECEIVE, MIRROR_RESEND_TIMEOUT (R75, R255, R256)
  (∀ (s : State), s.rfx.peer.joined = true → s.rfx.rxHeld = [] → s.rfx.rxUnacked ≠ 0 → s.rfx.hold2 = [] → ∀ p, s.peerPort = some p →
    Gives .mirackSend s fun t => s.Sent t (.mirack s.rfx.peer.fid s.rfx.rxApplied s.mirrorRoom) ∧ t.rfx.rxUnacked = 0) ∧
  (∀ (s : State) m room,
    (Gives (.mirackReceive true m room) s fun t => t.rfx.room2 = room ∧
      t.rfx.out2.acked = Nat.max s.rfx.out2.acked (Nat.min m (s.rfx.out2.next - 1)) ∧
      ∀ f, f ∈ t.rfx.out2.out ↔ f ∈ s.rfx.out2.out ∧ m < f.mseq) ∧
    (s.rfx.out1.isOpen = true → ∃ u : State, u.rfx.out1.acked = Nat.max s.rfx.out1.acked (Nat.min m (s.rfx.out1.next - 1)) ∧
      (∀ f, f ∈ u.rfx.out1.out ↔ f ∈ s.rfx.out1.out ∧ m < f.mseq) ∧
      (∀ k ∈ u.hce.conns, ∀ h, k.held = some h → h = 2 ^ 48 ∨ u.rfx.out1.acked < h) ∧
      exec (.mirackReceive false m room) s = .next (((u.advanceAll).switchKeys).flushCheck).ackImages)) ∧
  (∀ (s : State) m f, s.rfx.out1.out.find? (fun f => f.mseq = m) = some f →
    (f.sentAt + us 20 ≤ s.now → s.mirrorUp = true → Gives (.mirrorResendTimeout m) s fun t =>
      s.Sent t (.stream false m (s.nextMidplane f.port) f.body) ∧ t.rfx.out1.acked = s.rfx.out1.acked ∧
      ∀ g ∈ t.rfx.out1.out, g.mseq = m → g.sentAt = s.now ∧ g.port = s.nextMidplane f.port) ∧
    (s.now < f.sentAt + us 20 → exec (.mirrorResendTimeout m) s = .next s)) ∧
  -- HEARTBEAT_LOSS, FENCE_DELAY_EXPIRY (R265 to R267)
  (∀ s : State, (s.cfgBit Reg.rfxTkcfg 1 = true → exec .heartbeatLoss s = .next (s.declareDead 1)) ∧
    (s.cfgBit Reg.rfxTkcfg 1 = false → exec .heartbeatLoss s = .next s)) ∧
  (∀ s : State, s.tk.phase = .fencing → due s.tk.fenceDelay s.now = true → s.tk.fenceIn = false → s.tk.fenceOut = false →
    s.cfgBit Reg.rfxTkcfg 0 = true → Gives .fenceDelayExpiry s fun t => t.tk.fenceOut = true ∧ t.tk.phase = .hold ∧
      t.tk.fenceHold = some (s.now + ms 1) ∧ t.tk.fenceDelay = none ∧ s.Sent t (.pin .fenceOut false)) ∧
  -- FENCE_IN_ASSERTED, FENCE_IN_DEASSERTED (R268, R269, R620)
  (∀ s : State, s.tk.fenceIn = false →
    (s.pwr.up = false → Gives .fenceInAsserted s fun t => t.tk.fenceIn = true ∧ t.tk.fenced = true ∧ t.bay = s.bay) ∧
    (s.pwr.up = true → ∃ u : State, u.tk.fenceIn = true ∧ u.tk.fenced = true ∧ u.tk.hbOut = false ∧
      exec .fenceInAsserted s = .next (match s.pwr.restart with
        | some r => u.restartDown r
        | none => if s.pwr.tripped = true then u.powerDown false else u.fenceReset)) ∧
    (s.pwr.up = true → s.pwr.restart = none → s.pwr.tripped = false → Gives .fenceInAsserted s fun t =>
      t.tk.fenceIn = true ∧ t.tk.fenced = true ∧ t.pwr.up = false ∧ t.bay.cmds = [])) ∧
  (∀ s : State, s.tk.fenceIn = true → Gives .fenceInDeasserted s fun t => t.tk.fenceIn = false ∧ t.tk.fenced = false ∧
    t.pwr.mode ≠ .standby ∧ (∀ q ∈ t.bay.ports, ¬(q.contained = true ∧ q.cause = 5)) ∧
    ∀ b ∈ t.bay.bays, b.st ≠ .ready ∧ (b.st = .powered → b.perstAt = some (s.now + ms 100))) ∧
  -- FENCE_RELEASE, PEER_REMOVED (R269)
  (∀ s m c, s.Starts m 0x0401 c → s.Inv →
    (s.tk.fenceOut = true → Gives (.fenceRelease m) s fun t => t.Ended m stOk ∧ t.tk.fenceOut = false ∧
      s.Sent t (.pin .fenceOut true)) ∧
    (s.tk.fenceOut = false → Gives (.fenceRelease m) s fun t => t.Ended m stConflict ∧ t.tk = s.tk)) ∧
  (∀ s : State, s.tk.fenceOut = true → Gives .peerRemoved s fun t => t.tk.fenceOut = false ∧
    s.Sent t (.pin .fenceOut true)) ∧
  -- FENCE_HOLD_EXPIRY, ANNOUNCEMENT_REPEAT, TAKEOVER_DATA_DRAINED (R28, R270, R272, R278)
  (∀ s : State, s.tk.phase = .hold → due s.tk.fenceHold s.now = true → Gives .fenceHoldExpiry s fun t =>
    t.tk.phase = .draining ∧ t.rfx.peerCmds = [] ∧ t.rfx.peerXports = []) ∧
  (∀ (s : State) i, (∀ a ∈ s.tk.announces, a.id = i → 0 < a.left → a.nextAt ≤ s.now →
    Gives (.announcementRepeat i) s fun t => s.Sent t (.announce a.port a.addr) ∧
      (1 < a.left → { a with left := a.left - 1, nextAt := a.nextAt + ms 1 } ∈ t.tk.announces))) ∧
  (∀ s : State, s.tk.phase = .draining → (∀ e ∈ s.hce.wb, e.owner = 1 → e.mirror = false → e.dead = true) →
    (∀ d ∈ s.hce.deallocs, d.tag = noTag → d.mirror = true) →
    Gives .takeoverDataDrained s fun t => t.tk.phase = .idle ∧ t.hce.wtTakeover = false) ∧
  -- ACTIVATION_TIMEOUT (R419, R433)
  (∀ (s : State) m d, s.mbx.activating = some (m, d) →
    (d ≤ s.now → ∃ u : State, u.mbx.activating = none ∧ u.mbx.runSlot = s.mbx.prevSlot ∧ u.tk.hbOut = false ∧
      exec .activationTimeout s = .next ((u.powerDown true).raiseFlag Reg.mbxFwstat 5)) ∧
    (s.now < d → exec .activationTimeout s = .next s))

/-- Configuration of virtual subsystems and namespaces (R282 to R294). `t.Propagated t m` says that the command ends, or waits
for the peer (R283). -/
def Obligations.SubsystemsAndNamespaces : Prop :=
  -- VS_CREATE (R285, R286, R288)
  (∀ s m c p v g, s.Starts m 0x0501 c → s.Inv → p = c.params → v = leAt p 0 2 → g = grantsOf p →
    (511 < v → Gives (.vsCreate m) s fun t => t.Ended m stInvalidParam ∧ t.vsm = s.vsm) ∧
    (v ≤ 511 → byteAt p 2 ≤ 31 → byteAt p 3 ≤ 15 → g.inRange = true → (∀ b ∈ slice p 0x12 14, b = 0) →
      stripZeros (slice p 0x20 256) ≠ [] → (∀ y ∈ s.vsm.subs, y.subnqn ≠ stripZeros (slice p 0x20 256)) →
      (byteAt p 2 / 4 % 2 = 1 → Config.hasCipher s.part = true) →
      ((s.findVs v).isSome = true → Gives (.vsCreate m) s fun t => t.Ended m stConflict ∧ t.vsm = s.vsm) ∧
      (s.findVs v = none → s.overPool v g = true → Gives (.vsCreate m) s fun t => t.Ended m stLimit ∧ t.vsm = s.vsm) ∧
      (s.findVs v = none → s.overPool v g = false → Gives (.vsCreate m) s fun t => t.Propagated t m ∧
        t.vsm.gen = (s.vsm.gen + 1) % 2 ^ 64 ∧ ∃ x, t.findVs v = some x ∧ x.vsid = v ∧ x.flags = byteAt p 2 ∧
        x.tagshare = g.tags ∧ x.qpairs = g.qpairs ∧ x.cntls = g.cntls ∧ x.nsmax = g.nsmax ∧ x.hostmax = g.hostmax ∧
        x.subnqn = stripZeros (slice p 0x20 256) ∧ x.hosts = [] ∧ x.portals = [] ∧
        x.st = if byteAt p 2 / 16 % 2 = 1 then .target else .active))) ∧
  -- VS_DELETE (R288, R307)
  (∀ s m c x v, s.Starts m 0x0502 c → s.Inv → v = leAt c.params 0 2 → v ≤ 511 → s.findVs v = some x →
    (x.st = .active ∨ x.st = .moved → (∀ n ∈ s.vsm.nss, n.vsid ≠ v) → (x.st = .active → s.hasAssoc v = false) →
      Gives (.vsDelete m) s fun t => t.Propagated t m ∧ t.findVs v = none ∧ t.vsm.gen = (s.vsm.gen + 1) % 2 ^ 64) ∧
    (x.st = .active → s.hasAssoc v = true → Gives (.vsDelete m) s fun t => t.Ended m stConflict ∧ t.vsm = s.vsm)) ∧
  -- VS_MODIFY (R294)
  (∀ s m c x v g, s.Starts m 0x0503 c → s.Inv → v = leAt c.params 0 2 → g = grantsOf c.params → v ≤ 511 →
    g.inRange = true → s.findVs v = some x →
    (s.overPool v g = false → Gives (.vsModify m) s fun t => t.Propagated t m ∧ t.findVs v = some { x with
      tagshare := g.tags, qpairs := g.qpairs, cntls := g.cntls, nsmax := g.nsmax, hostmax := g.hostmax }) ∧
    (s.overPool v g = true → Gives (.vsModify m) s fun t => t.Ended m stLimit ∧ t.vsm = s.vsm)) ∧
  -- VS_HOSTS (R289)
  (∀ s m c x v h, s.Starts m 0x0504 c → s.Inv → v = leAt c.params 0 2 → v ≤ 511 → h = stripZeros (slice c.params 4 256) → h ≠ [] →
    s.findVs v = some x →
    (byteAt c.params 2 = 1 → h ∈ x.hosts → Gives (.vsHosts m) s fun t => t.Ended m stOk ∧ t.vsm = s.vsm) ∧
    (byteAt c.params 2 = 1 → h ∉ x.hosts → x.hosts.length < x.hostmax →
      sumNat (s.vsm.subs.map (fun x => x.hosts.length)) < 8192 →
      Gives (.vsHosts m) s fun t => t.Propagated t m ∧ t.findVs v = some { x with hosts := x.hosts ++ [h] }) ∧
    (byteAt c.params 2 = 2 → h ∈ x.hosts → Gives (.vsHosts m) s fun t => t.Propagated t m ∧
      t.findVs v = some { x with hosts := x.hosts.filter (fun y => y ≠ h) }) ∧
    (byteAt c.params 2 = 2 → h ∉ x.hosts → Gives (.vsHosts m) s fun t => t.Ended m stInvalidParam ∧ t.vsm = s.vsm)) ∧
  -- VS_PORTAL (R289)
  (∀ s m c x v ix port addr, s.Starts m 0x0505 c → s.Inv → v = leAt c.params 0 2 → v ≤ 511 → ix = byteAt c.params 2 → ix ≤ 7 →
    port = byteAt c.params 3 → addr = BitVec.ofNat 128 (beAt c.params 8 16) → s.findVs v = some x →
    (port < Config.hostPorts s.part → port ≤ 3 → byteAt c.params 4 = 4 → byteAt c.params 5 ≤ 32 →
      (∀ y ∈ s.vsm.subs, ∀ q ∈ y.portals, q.addr = addr → y.vsid = v ∧ q.index = ix) →
      Gives (.vsPortal m) s fun t => t.Propagated t m ∧ t.findVs v = some { x with
        portals := x.portals.filter (fun y => y.index ≠ ix) ++ [⟨ix, port, 4, byteAt c.params 5, addr⟩] }) ∧
    (port = 0xFF → (∃ q ∈ x.portals, q.index = ix) → Gives (.vsPortal m) s fun t => t.Propagated t m ∧
      t.findVs v = some { x with portals := x.portals.filter (fun y => y.index ≠ ix) })) ∧
  -- NS_CREATE (R291, R292)
  (∀ s m c x r v ring nsid n first, s.Starts m 0x0506 c → s.Inv → v = leAt c.params 0 2 → v ≤ 511 → ring = byteAt c.params 2 →
    ring ≤ 7 → nsid = leAt c.params 4 4 → 0 < nsid → nsid ≤ 65535 → n = leAt c.params 8 4 → 0 < n → byteAt c.params 3 ≤ 1 →
    leAt c.params 12 2 = 0xFFFF → s.findNs v nsid = none → s.findVs v = some x → x.st = .active →
    s.findRing ring = some r → r.owner = true → r.initRunning = false →
    (s.vsm.nss.filter (fun y => y.vsid = v)).length < x.nsmax → s.vsm.nss.length < 8192 →
    (s.fitRun r n = some first → Gives (.nsCreate m) s fun t => t.Propagated t m ∧
      t.findNs v nsid = some ⟨v, nsid, ring, first, n, byteAt c.params 3, 0xFFFF, false, none, false⟩) ∧
    (s.fitRun r n = none → Gives (.nsCreate m) s fun t => t.Ended m stLimit ∧ t.vsm = s.vsm)) ∧
  -- NS_DELETE, NS_DELETE_COMPLETE (R205, R293)
  (∀ s m c x n v nsid, s.Starts m 0x0507 c → s.Inv → v = leAt c.params 0 2 → v ≤ 511 → nsid = leAt c.params 4 4 →
    s.findNs v nsid = some n → s.findVs v = some x →
    (n.deleting = false → x.st = .active → s.formatOn v nsid = false → s.sanitizeOn v = false →
      Gives (.nsDelete m) s fun t => t.findNs v nsid = some { n with deleting := true, waiter := some m } ∧
        ∃ d, t.cmdOf m = some d ∧ d.running = true) ∧
    (n.deleting = true → Gives (.nsDelete m) s fun t => t.Ended m stInvalidParam ∧ t.vsm = s.vsm) ∧
    (n.deleting = false → s.sanitizeOn v = true → Gives (.nsDelete m) s fun t => t.Ended m stConflict ∧ t.vsm = s.vsm)) ∧
  (∀ s v nsid n, s.findNs v nsid = some n → n.deleting = true →
    (n.zeroing = false → s.nsBusy v nsid = false → (s.discardNs v nsid).nsInFlight v nsid = false → s.owns n.ring = true →
      ∃ u : State, u.findNs v nsid = some { n with zeroing := true } ∧
        exec (.nsDeleteComplete v nsid) s = .next (u.putZeroes (deleteTag v nsid) v nsid 0 n.blocks)) ∧
    (n.zeroing = true → s.nsBusy v nsid = false → s.zeroesDone (deleteTag v nsid) = true →
      Gives (.nsDeleteComplete v nsid) s fun t => t.findNs v nsid = none ∧ t.vsm.gen = (s.vsm.gen + 1) % 2 ^ 64 ∧
        t.vsm.subs = s.vsm.subs) ∧
    (s.nsBusy v nsid = true → exec (.nsDeleteComplete v nsid) s = .next s)) ∧
  -- VS_QUERY and VSM.VSQRY (R288, R290)
  (∀ s m c, s.Starts m 0x050E c → s.Inv →
    (leAt c.params 0 2 ≤ 511 → Gives (.vsQuery m) s fun t => t.Yields m c (s.vsQuery (leAt c.params 0 2)) ∧ t.vsm = s.vsm) ∧
    (511 < leAt c.params 0 2 → Gives (.vsQuery m) s fun t => t.Ended m stInvalidParam)) ∧
  (∀ (s : State) w, Gives (.vsqryWrite w) s fun t =>
    (∀ x, s.findVs (fieldOf w 8 0) = some x → t.vsm.vsShare = BitVec.ofNat 32 x.tagshare ∧
      t.vsm.vsInfo = place x.st.code 28 ||| place (s.hce.tags.filter (fun r => r.vsid = fieldOf w 8 0)).length 0) ∧
    (s.findVs (fieldOf w 8 0) = none → t.vsm.vsShare = 0))

/-- Reset, freeze, state images and migration of virtual subsystems (R297 to R307). -/
def Obligations.ResetFreezeAndMigration : Prop :=
  -- VS_RESET, VS_RESET_DRAINED (R297, R298)
  (∀ s m c x v, s.Starts m 0x0508 c → s.Inv → v = leAt c.params 0 2 → v ≤ 511 → s.findVs v = some x →
    (x.st = .active → s.tk.phase = .idle ∨ s.tk.phase = .draining → Gives (.vsReset m) s fun t =>
      (∃ y, t.findVs v = some y ∧ y.st = .resetting ∧ y.waiter = some m ∧ y.hosts = x.hosts) ∧
      ∃ d, t.cmdOf m = some d ∧ d.running = true) ∧
    (x.st = .target ∨ x.st = .moved → Gives (.vsReset m) s fun t => t.Ended m stConflict ∧ t.vsm = s.vsm) ∧
    (x.st = .resetting → Gives (.vsReset m) s fun t => t.Ended m stBusy ∧ t.vsm = s.vsm)) ∧
  (∀ s v x m c, s.findVs v = some x → x.st = .resetting → x.waiter = some m → s.cmdOf m = some c → s.Inv →
    ((∀ r ∈ s.hce.tags, r.vsid ≠ v) → Gives (.vsResetDrained v) s fun t => t.Ended m stOk ∧
      t.findVs v = some { x with st := .active, waiter := none } ∧ ∀ q ∈ t.hce.sqs, q.vsid ≠ v) ∧
    (∀ r ∈ s.hce.tags, r.vsid = v → exec (.vsResetDrained v) s = .next s)) ∧
  -- VS_FREEZE, FREEZE_QUIESCED, QUIESCE_TIMEOUT (R299)
  (∀ s m c x v, s.Starts m 0x0509 c → s.Inv → v = leAt c.params 0 2 → v ≤ 511 → s.findVs v = some x →
    (x.st = .active → Gives (.vsFreeze m) s fun t => (∃ d, t.cmdOf m = some d ∧ d.running = true) ∧
      t.findVs v = some { x with st := .freezing, quiesceEnd := some (s.now + ms (s.cfg Reg.vsmFrzcfg 6 0)), frzLen := s.cfg Reg.vsmFrzcfg 25 16, waiter := some m, byMigration := false }) ∧
    (x.st ≠ .active → Gives (.vsFreeze m) s fun t => t.Ended m stConflict ∧ t.vsm = s.vsm)) ∧
  (∀ s v x m c, s.findVs v = some x → x.st = .freezing → s.Inv →
    ((∀ r ∈ s.hce.tags, r.vsid ≠ v) → Gives (.freezeQuiesced v) s fun t =>
      t.findVs v = some { x with st := .frozen, quiesceEnd := none, frzEnd := some (s.now + ms x.frzLen), waiter := none } ∧
      (∀ k ∈ t.hce.ctrls, k.vsid = v → k.kaDeadline = none) ∧
      (x.waiter = some m → s.cmdOf m = some c → t.Ended m stOk)) ∧
    (x.waiter = some m → s.cmdOf m = some c → s.vsm.migs = [] → due x.quiesceEnd s.now = true →
      Gives (.quiesceTimeout v) s fun t => t.Ended m stBusy ∧ ∃ y, t.findVs v = some y ∧ y.st = .active ∧ y.waiter = none) ∧
    (due x.quiesceEnd s.now = false → exec (.quiesceTimeout v) s = .next s)) ∧
  -- MAXFRZ_EXPIRY, VS_THAW (R300)
  (∀ s v x, s.findVs v = some x → x.st = .frozen →
    (due x.frzEnd s.now = true → s.vsm.migs = [] → Gives (.maxfrzExpiry v) s fun t => ∃ u : State, t = u.raiseFlag Reg.vsmCfgstat 1 ∧
      t.findVs v = some { x with st := .active, quiesceEnd := none, frzEnd := none, image := [], byMigration := false, restored := false, ackDue := none }) ∧
    (due x.frzEnd s.now = false → exec (.maxfrzExpiry v) s = .next s)) ∧
  (∀ s m c x v, s.Starts m 0x050A c → s.Inv → v = leAt c.params 0 2 → v ≤ 511 → s.findVs v = some x →
    (x.st = .frozen → Gives (.vsThaw m) s fun t => t.Ended m stOk ∧ t.findVs v = some { x with
      st := .active, quiesceEnd := none, frzEnd := none, image := [], byMigration := false, restored := false, ackDue := none }) ∧
    (x.st ≠ .frozen → Gives (.vsThaw m) s fun t => t.Ended m stConflict ∧ t.vsm = s.vsm)) ∧
  -- VS_SAVE, VS_RESTORE (R301, R302)
  (∀ s m c x v, s.Starts m 0x050B c → s.Inv → v = leAt c.params 0 2 → v ≤ 511 → s.findVs v = some x →
    (x.st = .frozen → (s.imageOf x).length ≤ 64 * 2 ^ 20 → Gives (.vsSave m) s fun t => t.findVs v = some { x with image := s.imageOf x } ∧
      t.Yields m c (slice (s.imageOf x) (leAt c.params 4 4) (if c.dmar then c.dlen else 4096))) ∧
    (x.st ≠ .frozen → Gives (.vsSave m) s fun t => t.Ended m stConflict ∧ t.vsm = s.vsm)) ∧
  (∀ s m c x v img, s.Starts m 0x050C c → s.Inv → v = leAt c.params 0 2 → v ≤ 511 → s.findVs v = some x →
    img = padTo (leAt c.params 4 4) x.restore ++ c.params.drop 8 →
    (x.st = .target → img.length < 0x1C → Gives (.vsRestore m) s fun t => t.Ended m stOk ∧
      t.findVs v = some { x with restore := img }) ∧
    (x.st = .target → 0x1C ≤ img.length → leAt img 0x18 4 ≤ img.length → imageOk img = false →
      Gives (.vsRestore m) s fun t => t.Ended m stCrc ∧ t.findVs v = some { x with restore := [] }) ∧
    (x.st = .target → imageOk img = true → Gives (.vsRestore m) s fun t => t.Ended m stOk ∧
      ∃ y, t.findVs v = some y ∧ y.st = .frozen ∧ y.frzEnd = some (s.now + ms (s.cfg Reg.vsmFrzcfg 25 16)) ∧
        y.subnqn = stripZeros (slice (slice img 64 288) 0x20 256)) ∧
    (x.st ≠ .target → Gives (.vsRestore m) s fun t => t.Ended m stConflict ∧ t.vsm = s.vsm)) ∧
  -- VS_MIGRATE (R303)
  (∀ s m c x v, s.Starts m 0x050D c → s.Inv → v = leAt c.params 0 2 → v ≤ 511 → leAt c.params 2 2 ≤ 511 → s.findVs v = some x →
    ((∀ n ∈ s.vsm.nss, n.vsid = v → s.owns n.ring = true) → x.st = .active → x.portals ≠ [] → s.paired = true →
      Gives (.vsMigrate m) s fun t => t.Ended m stOk ∧ ∃ g, t.vsm.migs.find? (fun g => g.vsid = v) = some g ∧ g.phase = .copy ∧
        g.tvsid = leAt c.params 2 2 ∧ g.tfidA = byteAt c.params 4 ∧ g.tfidB = byteAt c.params 5 ∧ g.seq = 0 ∧ g.marked = []) ∧
    (∀ n ∈ s.vsm.nss, n.vsid = v → s.owns n.ring = false → Gives (.vsMigrate m) s fun t => t.Ended m stNotOwner ∧ t.vsm = s.vsm)) ∧
  -- MIGRATION_PHASE_END (R304, R306)
  (∀ s v g bs, s.vsm.migs.find? (fun g => g.vsid = v) = some g →
    (Gives (.migrationPhaseEnd v ⟨false, bs⟩) s fun t => t.vsm.migs.find? (fun g => g.vsid = v) = none ∧
      (s.routePort g.tfidA ≠ none → s.Sent t (.migrate g.tfidA g.tvsid (g.seq + 1) .abort))) ∧
    (g.phase = .catchUp → g.cutover ≤ 64 * g.marked.length → g.passes < g.maxPasses →
      Gives (.migrationPhaseEnd v ⟨true, bs⟩) s fun t => ∃ h, t.vsm.migs.find? (fun g => g.vsid = v) = some h ∧ h.phase = .catchUp ∧
        h.passes = g.passes + 1 ∧ h.marked = [] ∧ h.sending = g.marked) ∧
    ((g.phase = .copy ∧ g.lead = true) ∨ g.phase = .catchUp → 64 * g.marked.length < g.cutover ∨ g.maxPasses ≤ g.passes →
      ∀ x, s.findVs v = some x →
      Gives (.migrationPhaseEnd v ⟨true, bs⟩) s fun t => (∃ h, t.vsm.migs.find? (fun g => g.vsid = v) = some h ∧ h.phase = .cutover) ∧
        ∃ y, t.findVs v = some y ∧ y.st = .freezing ∧ y.byMigration = true) ∧
    (g.phase = .cutover → ∀ x, s.findVs v = some x → x.st = .frozen →
      Gives (.migrationPhaseEnd v ⟨true, bs⟩) s fun t => ∃ h, t.vsm.migs.find? (fun g => g.vsid = v) = some h ∧ h.phase = .restore ∧
        h.sending = [])) ∧
  -- MIGRATE_RECEIVE (R304 to R306)
  (∀ s src v seq x, s.findVs v = some x → x.st = .target →
    (∀ es, Gives (.migrateReceive src v seq (.blocks es)) s fun t => s.routePort src ≠ none → s.Sent t (.migrate src v seq (.ack seq))) ∧
    (∀ o bs, (padTo o x.restore ++ bs).length < 0x1C → Gives (.migrateReceive src v seq (.image o bs)) s fun t =>
      t.findVs v = some { x with restore := padTo o x.restore ++ bs })) ∧
  (∀ s src v seq n g x, s.vsm.migs.find? (fun g => g.tvsid = v && (g.tfidA = src || g.tfidB = src)) = some g →
    g.phase = .restore → s.findVs g.vsid = some x →
    (g.seq ≤ n → Gives (.migrateReceive src v seq (.ack n)) s fun t => (∃ y, t.findVs g.vsid = some y ∧ y.st = .moved) ∧
      (∀ h ∈ t.vsm.migs, h.vsid ≠ g.vsid) ∧ t.hce = s.hce) ∧
    (n < g.seq → exec (.migrateReceive src v seq (.ack n)) s = .next s))

/-- Frames, the exception queue, rule banks, policers and PFC at the ingress regions (R311 to R332, R359). -/
def Obligations.FramesRuleBanksAndPolicers : Prop :=
  -- FRAME_RECEIVE (R218, R311, R342, R359, R379, R597)
  (∀ (s : State) p f,
    (8 ≤ p ∨ s.cfgBit (Reg.macPcfg + 0x40 * p) 31 = false → exec (.frameReceive p f) s = .next s) ∧
    (p < 8 → s.cfgBit (Reg.macPcfg + 0x40 * p) 31 = true → f.fecOk = false →
      exec (.frameReceive p f) s = .next (s.bump (Reg.macFecunc + 0x40 * p))) ∧
    (p < 8 → s.cfgBit (Reg.macPcfg + 0x40 * p) 31 = true → f.fecOk = true → f.fcsOk = false →
      exec (.frameReceive p f) s = .next s) ∧
    (p < 8 → s.cfgBit (Reg.macPcfg + 0x40 * p) 31 = true → f.fecOk = true → f.fcsOk = true →
      (4 ≤ p → s.cfgBit (Reg.iclMscfg + 4 * (p - 4)) 31 = true →
        (f.macsec = none → beAt f.bytes 12 2 ≠ 0x888E → exec (.frameReceive p f) s = .next (s.bump Reg.iclMsdrop)) ∧
        (f.macsec = some false → exec (.frameReceive p f) s = .next (s.bump Reg.iclMsauth))) ∧
      (p < 4 ∨ s.cfgBit (Reg.iclMscfg + 4 * (p - 4)) 31 = false ∨ f.macsec = some true →
        (beAt f.bytes 12 2 = 0x8808 ∨ 4 ≤ p ∧ beAt f.bytes 12 2 = 0x888E → exec (.frameReceive p f) s = .next s) ∧
        (beAt f.bytes 12 2 ≠ 0x8808 → (4 ≤ p → beAt f.bytes 12 2 ≠ 0x888E) → ∃ u cls v,
          Only { pmu := true, moved := true } s u ∧ cls = ingressClass p (s.parse f.bytes).1 ∧
          v = (u.onePass ⟨p, 0, s.ppc.cur, s.ppc.epoch, 0, false, false, 0, 0, zeroBytes 16⟩ f.bytes cls (f.bytes.length + 4)
            false false f.icrcOk).pfcJudge p cls ∧
          (u.pfcOn p cls = false →
            (s.ingressUse p none + (f.bytes.length + 4) ≤ ingressSize p → exec (.frameReceive p f) s = .next v) ∧
            (ingressSize p < s.ingressUse p none + (f.bytes.length + 4) → exec (.frameReceive p f) s = .next u)) ∧
          (u.pfcOn p cls = true →
            (u.ingressUse p (some cls) + (f.bytes.length + 4) ≤ u.xoffAt p + u.hdrAt p →
              exec (.frameReceive p f) s = .next v) ∧
            (u.xoffAt p + u.hdrAt p < u.ingressUse p (some cls) + (f.bytes.length + 4) →
              exec (.frameReceive p f) s = .next (u.bump Reg.essPfcovf))))))) ∧
  -- RECIRCULATION_PASS (R321 to R323, R383)
  (∀ (s : State) id r ok pl, s.ppc.recircs.find? (fun r => r.id = id) = some r → ∃ u : State,
    u.ppc = { s.ppc with recircs := s.ppc.recircs.filter (fun x => x.id ≠ id) } ∧ u.hce = s.hce ∧ u.regs = s.regs ∧
    (r.tls = true → ok = false → exec (.recirculationPass id ok pl) s = .next (u.tlsBad (r.cookie % 2 ^ 32))) ∧
    (r.tls = false → exec (.recirculationPass id ok pl) s = .next (u.onePass
      ⟨r.port, r.pass, r.bank, r.epoch, r.cookie % 2 ^ 32, r.decap, r.tls, r.vni, r.tunnel, r.odip⟩ r.bytes r.icls r.len
      r.policed r.yellow r.icrcOk)) ∧
    (r.tls = true → ok = true → ∃ v : State, Only { pmu := true, moved := true, free := true } u v ∧
      exec (.recirculationPass id ok pl) s = .next ((v.tlsReceived (r.cookie % 2 ^ 32)).onePass
      ⟨r.port, r.pass, r.bank, r.epoch, r.cookie % 2 ^ 32, r.decap, r.tls, r.vni, r.tunnel, r.odip⟩
      (r.bytes.take (s.parse r.bytes).1.payload ++ pl) r.icls r.len r.policed r.yellow r.icrcOk))) ∧
  -- EXCEPTION_DRAIN (R329, R433)
  (∀ s : State, (s.mbx.activating = none → Gives .exceptionDrain s fun t => t.ppc = { s.ppc with exq := s.ppc.exq.drop 1 }) ∧
    (s.mbx.activating.isSome = true → exec .exceptionDrain s = .next s)) ∧
  -- BANK_SWAP, SWAP_EFFECT, SWAP_REFUSAL (R323 to R326)
  (∀ (s : State) b, (s.cfgBit Reg.ppcUpdcfg 8 ≠ b → exec (.bankSwap b) s = .next s) ∧
    (s.cfgBit Reg.ppcUpdcfg 8 = b → s.ppc.swap = none →
      (s.draining = false → Gives (.bankSwap b) s fun t => t.ppc.cur = 1 - s.ppc.cur ∧
        t.ppc.epoch = (s.ppc.epoch + 1) % 65536 ∧ t.ppc.tables = s.ppc.tables) ∧
      (s.draining = true → Gives (.bankSwap b) s fun t => t.ppc = { s.ppc with swap := some (s.now + ms 1, none) }))) ∧
  (∀ (s : State) d b, s.ppc.swap = some (d, b) →
    (s.draining = true → exec .swapEffect s = .next s) ∧
    (s.draining = false → b = none → Gives .swapEffect s fun t => t.ppc.cur = 1 - s.ppc.cur ∧ t.ppc.swap = none ∧
      t.ppc.epoch = (s.ppc.epoch + 1) % 65536) ∧
    (s.draining = true → d ≤ s.now → b = none → Gives .swapRefusal s fun t => t.ppc = { s.ppc with swap := none } ∧
      ∃ u : State, u.regs = s.regs ∧ t = u.raiseFlag Reg.ppcBankstat 9) ∧
    (s.draining = true → d ≤ s.now → ∀ m n c, b = some (m, n) → s.cmdOf m = some c → s.Inv →
      Gives .swapRefusal s fun t => t.Ended m stBusy ∧ t.ppc.swap = none ∧ t.ppc.cur = s.ppc.cur) ∧
    (s.now < d → exec .swapRefusal s = .next s)) ∧
  -- TABLE_COMMIT, TABLE_READ, BATCH_START, BATCH_END (R326 to R328)
  (∀ (s : State) w, w = s.reg Reg.ppcTwaddr →
    (s.commitRefused = true → exec .tableCommit s = .next (s.raiseFlag Reg.ppcTwctl 9)) ∧
    (∀ l, s.commitRefused = false → s.ppc.batch = some l →
      Gives .tableCommit s fun t => t.ppc = { s.ppc with batch := some (l ++ [(w, s.twEntry)]) }) ∧
    (s.commitRefused = false → s.ppc.batch = none → fieldOf w 30 29 < 2 → s.twEntry ≠ zeroBytes 32 →
      Gives .tableCommit s fun t =>
        ⟨fieldOf w 31 31, fieldOf w 30 29, fieldOf w 15 0, s.twEntry⟩ ∈ t.ppc.tables ∧
        ∀ x, x ∈ s.ppc.tables → ¬(x.bank = fieldOf w 31 31 ∧ x.table = fieldOf w 30 29 ∧ x.index = fieldOf w 15 0) →
          x ∈ t.ppc.tables) ∧
    (twBad w = true → exec .tableRead s = .next (s.raiseFlag Reg.ppcTwctl 9)) ∧
    (twBad w = false → s.Inv → Gives .tableRead s fun t => ∀ i < 8, t.reg (Reg.ppcTwdata + 4 * i) =
      BitVec.ofNat 32 (leAt (s.entry (fieldOf w 31 31) (fieldOf w 30 29) (fieldOf w 15 0)) (4 * i) 4) &&&
        ~~~ absentBits s.part (Reg.ppcTwdata + 4 * i))) ∧
  (∀ s : State, (s.ppc.batch = none → (Gives .batchStart s fun t => t.ppc = { s.ppc with batch := some [] }) ∧
      exec .batchEnd s = .next (s.raiseFlag Reg.ppcTwctl 9)) ∧
    (∀ l, s.ppc.batch = some l → exec .batchStart s = .next (s.raiseFlag Reg.ppcTwctl 9) ∧
      (l = [] → Gives .batchEnd s fun t => t.ppc = { s.ppc with batch := none }) ∧
      (∀ w e, l = [(w, e)] → fieldOf w 31 31 = s.ppc.cur → Gives .batchEnd s fun t => t.ppc.batch = none ∧
        ∃ u : State, u.ppc = { s.ppc with batch := none } ∧ t = u.putEntry w e))) ∧
  -- POLCIR_WRITE (R331, R332)
  (∀ (s : State) w p, p = s.policer (s.cfg Reg.essPolsel 9 0) → s.noPolicer = false →
    (fieldOf w 19 0 ≤ 800000 → Gives (.polcirWrite w) s fun t => t.policer p.index = { p with
      cir := fieldOf w 19 0, tc := p.cbs * 1024 * 8000, te := p.ebs * 1024 * 8000, at_ := s.now }) ∧
    (800000 < fieldOf w 19 0 → exec (.polcirWrite w) s = .next s)) ∧
  -- PFC_REPEAT (R359)
  (∀ (s : State) p c e, s.xbr.xoff.find? (fun e => e.1 = p && e.2.1 = c) = some e →
    (e.2.2 + us 20 ≤ s.now → s.pfcOn p c = true → s.xonAt p ≤ s.ingressUse p (some c) →
      Gives (.pfcRepeat p c) s fun t => s.Sent t (.pfc p c 0xFFFF) ∧ (p, c, s.now) ∈ t.xbr.xoff) ∧
    (e.2.2 + us 20 ≤ s.now → s.ingressUse p (some c) < s.xonAt p → Gives (.pfcRepeat p c) s fun t =>
      s.Sent t (.pfc p c 0) ∧ t.inXoff p c = false) ∧
    (s.now < e.2.2 + us 20 → exec (.pfcRepeat p c) s = .next s))

/-- Crossbar, egress, pauses, congestion notification and sampling (R338 to R362, R380). -/
def Obligations.CrossbarEgressAndSampling : Prop :=
  -- CAROUSEL_MATCH (R337 to R339)
  (∀ s : State, Gives .carouselMatch s fun t => t.xbr.frames.map (fun f => (f.id, f.input, f.len)) =
      s.xbr.frames.map (fun f => (f.id, f.input, f.len)) ∧
    ∀ f ∈ t.xbr.frames, ∃ g ∈ s.xbr.frames, g.id = f.id ∧ ∀ c ∈ g.owed, c ∈ f.owed ∨ c ∈ f.moving) ∧
  -- TRANSFER_COMPLETE (R343, R344)
  (∀ (s : State) i f, s.xbr.frames.find? (fun f => f.input = i && !f.moving.isEmpty) = some f →
    (f.owed = [] → Gives (.transferComplete i) s fun t => ∀ g ∈ t.xbr.frames, g.id ≠ f.id) ∧
    (f.owed ≠ [] → (s.xbr.frames.filter (fun x => x.input = i && x.residue)).length < 1024 →
      Gives (.transferComplete i) s fun t => ∃ g ∈ t.xbr.frames, g.id = f.id ∧ g.owed = f.owed ∧ g.moving = [] ∧
        g.residue = true)) ∧
  -- TRANSMIT_SELECT (R353, R354)
  (∀ (s : State) p, (s.choose p = none → exec (.transmitSelect p) s = .next s) ∧
    (∀ ct qt fid c l, s.choose p = some (ct, qt) → (s.egPort p).queueOf ct.cls qt.host = (fid, c) :: l →
      Gives (.transmitSelect p) s fun t => ∃ hdr, s.Sent t (.transmit p fid c hdr))) ∧
  -- PFC_FRAME_RECEIVE, PAUSE_EXPIRY (R360)
  (∀ (s : State) p c q, p < 8 → c < 8 → s.Inv → q ≠ 0 →
    Gives (.pfcFrameReceive p ((List.replicate c none) ++ [some q])) s fun t =>
      (c, s.now, s.now + ceilDiv (q * (if p < 4 then 64 else 128)) 100) ∈ (t.egPort p).paused) ∧
  (∀ (s : State) p qs, 8 ≤ p → exec (.pfcFrameReceive p qs) s = .next s) ∧
  (∀ (s : State) p c, p < 8 → s.Inv →
    (∀ x ∈ (s.egPort p).paused, x.1 = c → x.2.2 ≤ s.now →
      Gives (.pauseExpiry p c) s fun t => ∀ y ∈ (t.egPort p).paused, y.1 ≠ c) ∧
    ((∀ x ∈ (s.egPort p).paused, x.1 = c → s.now < x.2.2) → exec (.pauseExpiry p c) s = .next s)) ∧
  -- CNP_RECEIVE, RATE_RECOVERY (R362)
  (∀ (s : State) k h x, s.hostOf k = some h → x = s.shaper 0 h →
    (s.cfgBit Reg.essCnpcfg 31 = false → exec (.cnpReceive k) s = .next (s.bump Reg.essCnprx)) ∧
    (s.cfgBit Reg.essCnpcfg 31 = true → s.Inv → x.reactAt ≤ s.now → x.typ = 0 → x.index = h →
      Gives (.cnpReceive k) s fun t => (t.shaper 0 h).eff = Nat.max 16 (x.eff / 2) ∧
        (t.shaper 0 h).tokens = x.level s.now ∧ (t.shaper 0 h).reactAt = s.now + us (s.cfg Reg.essCnpcfg 7 0) ∧
        (t.shaper 0 h).rate = x.rate)) ∧
  (∀ (s : State) h x, x = s.shaper 0 h → due x.recovAt s.now = true → x.typ = 0 → x.index = h →
    Gives (.rateRecovery h) s fun t => (t.shaper 0 h).eff = Nat.min 1024 (x.eff + 64) ∧ (t.shaper 0 h).rate = x.rate ∧
      (x.eff + 64 < 1024 → (t.shaper 0 h).recovAt = some (s.now + us (s.cfg Reg.essCnpcfg 15 8))) ∧
      (1024 ≤ x.eff + 64 → (t.shaper 0 h).recovAt = none)) ∧
  -- SAMPLE, SAMPLING_CONFIG_WRITE, SAMPLE_QUEUE_DRAIN (R347 to R350)
  (∀ (s : State) p bs c, p < 16 → s.pointOn p = true → s.xbr.countdown.getD p none = some c → s.Inv →
    (1 < c → Gives (.sample p bs) s fun t => t.xbr.countdown.getD p none = some (c - 1) ∧ t.xbr.samples = s.xbr.samples) ∧
    (c ≤ 1 → s.xbr.samples.length < 1024 → Gives (.sample p bs) s fun t => t.xbr.countdown.getD p none = none ∧
      t.xbr.sampleSeq = (s.xbr.sampleSeq + 1) % 2 ^ 32 ∧ ∃ d, t.xbr.samples = s.xbr.samples ++ [(d, bs.take 256)]) ∧
    (c ≤ 1 → 1024 ≤ s.xbr.samples.length → Gives (.sample p bs) s fun t => t.xbr.samples = s.xbr.samples ∧
      ∃ u : State, u.regs = s.regs ∧ t = u.bump Reg.xbrSampdrop)) ∧
  (∀ (s : State) p bs, p < 16 → s.pointOn p = true → s.xbr.countdown.getD p none = none → s.Inv →
    Gives (.sample p bs) s fun t => ∀ c, t.xbr.countdown.getD p none = some c → c < 2 * (s.cfg Reg.xbrSampn 19 0 + 1) - 1) ∧
  (∀ (s : State) p bs, 16 ≤ p ∨ s.pointOn p = false → exec (.sample p bs) s = .next s) ∧
  (∀ (s : State) r w, Gives (.samplingConfigWrite r w) s fun t => t.xbr = { s.xbr with countdown := List.replicate 16 none } ∧
    t.regs = (s.putReg (if r then Reg.xbrSampn else Reg.xbrSampcfg)
      (w &&& regKept (if r then Reg.xbrSampn else Reg.xbrSampcfg))).regs) ∧
  (∀ s : State, Gives .sampleQueueDrain s fun t => t.xbr = { s.xbr with samples := s.xbr.samples.drop 1 }) ∧
  -- XBR.OCCQRY (R340)
  (∀ (s : State) w p cls n, p = fieldOf w 18 16 → cls = (if fieldOf w 3 3 = 1 then none else some (fieldOf w 2 0)) →
    n = (if fieldOf w 8 8 = 1 then s.egressUse p cls else s.ingressUse p cls) →
    Gives (.occqryWrite w) s fun t => ∃ b, t.xbr.occData = placeBit b 31 ||| place (satAt 0x1FFF (ceilDiv n 1024)) 0 ∧
      (fieldOf w 3 3 = 1 → b = false) ∧
      (fieldOf w 3 3 = 0 → fieldOf w 8 8 = 0 → b = s.inXoff p (fieldOf w 2 0)))

/-- The key vault (R373, R385 to R402). `s.freeNow` and `Config.freeByte` are free values; nothing is said of what they are. -/
def Obligations.VaultSessionsAndKeys : Prop :=
  -- VAULT_SELFTEST_COMPLETE, VAULT_ENVIRONMENT_ZEROIZE, ENTROPY_HEALTH_FAILURE (R392, R399 to R402)
  (∀ (s : State) row, Config.hasCipher s.part = true →
    (s.kvt.st = .selftest → row = 0 → Gives (.vaultSelftestComplete row) s fun t => t.kvt.slots = s.kvt.slots ∧
      t.kvt.st = if s.kvt.slots.any (fun k => k.typ = 4) then .operational else .uncommissioned) ∧
    (∃ u : State, u.kvt.st = .error ∧ u.kvt.failTest = row ∧ u.kvt.session = none ∧ u.kvt.nonce = none ∧
      u.kvt.paired = false ∧ u.kvt.slots = s.kvt.slots ∧
      (s.kvt.st = .selftest → row ≠ 0 → exec (.vaultSelftestComplete row) s = .next u.dropKeyed) ∧
      (row = 4 → exec .entropyHealthFailure s = .next u.dropKeyed) ∧
      (row = s.kvt.failTest → exec .vaultEnvironmentZeroize s = .next (u.dropKeyed.raiseFlag Reg.kvtStat 7)))) ∧
  -- SESSION_IDLE_EXPIRY, NONCE_EXPIRY, LOGIN_LOCKOUT_EXPIRY (R394)
  (∀ (s : State) m o d, s.kvt.session = some (m, o, d) →
    (d + ms (s.cfg Reg.kvtLockcfg 13 0) ≤ s.now → Gives .sessionIdleExpiry s fun t => t.kvt = { s.kvt with session := none }) ∧
    (s.now < d + ms (s.cfg Reg.kvtLockcfg 13 0) → exec .sessionIdleExpiry s = .next s)) ∧
  (∀ (s : State) o n d, s.kvt.nonce = some (o, n, d) →
    (d ≤ s.now → Gives .nonceExpiry s fun t => t.kvt = { s.kvt with nonce := none }) ∧
    (s.now < d → exec .nonceExpiry s = .next s)) ∧
  (∀ (s : State) o, (due (s.officer o).lockout s.now = true → (s.officer o).officer = o → Gives (.loginLockoutExpiry o) s fun t =>
      t.officer o = { s.officer o with lockout := none }) ∧
    (due (s.officer o).lockout s.now = false → exec (.loginLockoutExpiry o) s = .next s)) ∧
  -- KEY_CHALLENGE, KEY_LOGIN, KEY_LOGOUT (R394)
  (∀ s m c o, s.Starts m 0x0602 c → s.Inv → o = leAt c.params 0 2 → firstFail (s.keyChecks serving) = none →
    (s.slotIs o 4 = true → Gives (.keyChallenge m) s fun t => t.Yields m c (leBytes 32 s.freeNow) ∧
      t.kvt = { s.kvt with nonce := some (o, s.freeNow, s.now + sec 5) }) ∧
    (s.slotIs o 4 = false → Gives (.keyChallenge m) s fun t => t.Ended m stConflict ∧ t.kvt = s.kvt)) ∧
  (∀ s m c o, s.Starts m 0x0603 c → s.Inv → o = leAt c.params 0 2 → firstFail (s.keyChecks serving) = none →
    (s.kvt.session = none → (s.officer o).lockout = none →
      (s.loginGood m o (slice c.params 4 48) = true → Gives (.keyLogin m) s fun t => t.Ended m stOk ∧
        t.kvt = { s.kvt with nonce := none, session := some (m, o, s.now) }) ∧
      (s.loginGood m o (slice c.params 4 48) = false → Gives (.keyLogin m) s fun t => t.Ended m stAuthFailed ∧
        t.kvt.session = none ∧ t.kvt.nonce = none ∧
        (7 ≤ ((s.officer o).fails.filter (fun t => s.now < t + sec 60)).length →
          (t.officer o).lockout = some (s.now + sec 60)))) ∧
    (∀ m2 o2 d, s.kvt.session = some (m2, o2, d) → m2 ≠ m → Gives (.keyLogin m) s fun t => t.Ended m stBusy ∧ t.kvt = s.kvt) ∧
    (∀ d, s.kvt.session = none → (s.officer o).lockout = some d → s.now < d →
      Gives (.keyLogin m) s fun t => t.Ended m stLimit ∧ t.kvt = s.kvt)) ∧
  (∀ s m c, s.Starts m 0x0604 c → s.Inv → firstFail (s.keyChecks serving) = none →
    (s.inSession m = true → Gives (.keyLogout m) s fun t => t.Ended m stOk ∧ t.kvt = { s.kvt with session := none }) ∧
    (s.inSession m = false → Gives (.keyLogout m) s fun t => t.Ended m stConflict ∧ t.kvt = s.kvt)) ∧
  -- KEY_INFO, KEY_GENERATE, KEY_IMPORT (R385, R391, R397, R398)
  (∀ s m c n k, s.Starts m 0x0601 c → s.Inv → n = leAt c.params 0 2 → s.findKey n = some k →
    Config.hasCipher s.part = true →
    (s.kvt.st = .operational → n ≤ 0xFFF → Gives (.keyInfo m) s fun t => t.kvt = s.kvt ∧ t.Yields m c (leBytes 1 k.typ ++
      leBytes 1 (if k.oldMaterial.isSome then 2 else 1) ++ zeroBytes 2 ++ leBytes 4 k.gen ++ leBytes 8 k.count ++
      leBytes 4 k.cursor ++ leBytes 1 1 ++ zeroBytes 3)) ∧
    (s.kvt.st = .operational → 0xFFF < n → Gives (.keyInfo m) s fun t => t.Ended m stInvalidParam ∧ t.kvt = s.kvt) ∧
    (s.kvt.st = .selftest → Gives (.keyInfo m) s fun t => t.Ended m stConflict ∧ t.kvt = s.kvt)) ∧
  (∀ s m c n ty, s.Starts m 0x0605 c → s.Inv → n = leAt c.params 0 2 → ty = byteAt c.params 2 →
    firstFail (s.keyChecks serving) = none →
    (s.inSession m = true → s.findKey n = none → 16 ≤ n → n ≤ 0xFFF → ty = 1 ∨ ty = 5 → s.unpaired = false →
      Gives (.keyGenerate m) s fun t => t.Propagated t m ∧ ∃ k, t.findKey n = some k ∧ k.typ = ty ∧ k.gen = 1 ∧
        k.material = s.freeNow ∧ k.oldMaterial = none ∧ k.count = 0) ∧
    (s.inSession m = false → Gives (.keyGenerate m) s fun t => t.Ended m stConflict ∧ t.kvt = s.kvt)) ∧
  (∀ s m c n ty kek, s.Starts m 0x0606 c → s.Inv → n = leAt c.params 0 2 → ty = byteAt c.params 2 → kek = leAt c.params 4 2 →
    firstFail (s.keyChecks serving) = none → s.inSession m = true → ty = 5 → s.kekAllowed kek ty = true →
    (∀ w key, s.kekOf kek = some w → Config.unwrapKey w ty (slice c.params 8 80) = some key → leAt c.params 6 2 = 0 →
      s.findKey n = none → 16 ≤ n → n ≤ 0xFFF → s.unpaired = false →
      Gives (.keyImport m) s fun t => t.Propagated t m ∧ ∃ k, t.findKey n = some k ∧ k.typ = ty ∧ k.material = key) ∧
    ((s.kekOf kek).bind (fun w => Config.unwrapKey w ty (slice c.params 8 80)) = none → s.kvt.unwrapFails < 15 →
      Gives (.keyImport m) s fun t => t.Ended m stAuthFailed ∧
        t.kvt = { s.kvt with unwrapFails := s.kvt.unwrapFails + 1 })) ∧
  -- KEY_EXPORT, KEY_DELETE, KEY_REKEY (R373, R389, R390, R398)
  (∀ s m c n kek k w, s.Starts m 0x0607 c → s.Inv → n = leAt c.params 0 2 → kek = leAt c.params 2 2 →
    firstFail (s.keyChecks serving) = none → s.inSession m = true → 16 ≤ n → s.findKey n = some k → s.findKey kek = some w →
    (k.typ ≠ 4 → w.typ = 5 → Gives (.keyExport m) s fun t => t.kvt = s.kvt ∧
      t.Yields m c (padTo 80 (Config.wrapKey w.material k.typ k.gen k.material))) ∧
    (k.typ = 4 ∨ w.typ ≠ 5 → Gives (.keyExport m) s fun t => t.Ended m stConflict ∧ t.kvt = s.kvt)) ∧
  (∀ s m c n, s.Starts m 0x0608 c → s.Inv → n = leAt c.params 0 2 → firstFail (s.keyChecks serving) = none →
    s.inSession m = true → s.unpaired = false → 16 ≤ n →
    ((∀ x ∈ s.vsm.nss, x.keySlot ≠ n) → s.rekeying n = false → Gives (.keyDelete m) s fun t => t.Propagated t m ∧
      t.findKey n = none ∧ t.kvt.storeGen = s.kvt.storeGen + 1) ∧
    (∀ x ∈ s.vsm.nss, x.keySlot = n → Gives (.keyDelete m) s fun t => t.Ended m stConflict ∧ t.kvt = s.kvt)) ∧
  (∀ s m c n k x, s.Starts m 0x0609 c → s.Inv → n = leAt c.params 0 2 → firstFail (s.keyChecks serving) = none →
    s.inSession m = true → s.unpaired = false → s.findKey n = some k → k.typ = 1 → s.servedNs n = some x → s.owns x.ring = true →
    (k.oldMaterial = none → Gives (.keyRekey m) s fun t => t.Propagated t m ∧ ∃ y, t.findKey n = some y ∧
      y.material = s.freeNow ∧ y.oldMaterial = some k.material ∧ y.gen = k.gen + 1 ∧ y.cursor = 0 ∧ y.count = 0) ∧
    (k.oldMaterial.isSome = true → Gives (.keyRekey m) s fun t => t.Ended m stConflict ∧ t.kvt = s.kvt)) ∧
  -- KEY_SELFTEST, KEY_ZEROIZE, KEY_RANDOM (R399 to R401)
  (∀ s m c row, s.Starts m 0x060A c → s.Inv → firstFail (s.keyChecks serving) = none →
    (row = 0 → Gives (.keySelftest m row) s fun t => t.Yields m c (leBytes 4 0) ∧ t.kvt = { s.kvt with drbgCount := 0 }) ∧
    (row ≠ 0 → ∃ u : State, u.kvt.st = .error ∧ u.kvt.failTest = row ∧ u.kvt.session = none ∧ u.kvt.paired = false ∧
      exec (.keySelftest m row) s = .next (u.dropKeyed.finish m stOk (leBytes 4 row)))) ∧
  (∀ s m c, s.Starts m 0x060B c → s.Inv → Config.hasCipher s.part = true → s.kvt.st ≠ .selftest →
    (byteAt c.params 0 = 1 → ∃ u : State, u.kvt.st = .error ∧ u.kvt.session = none ∧ u.kvt.slots = s.kvt.slots ∧
      exec (.keyZeroize m) s = .next ((u.dropKeyed.raiseFlag Reg.kvtStat 7).finish m stOk [])) ∧
    (byteAt c.params 0 = 2 → s.inSession m = true → Gives (.keyZeroize m) s fun t => t.kvt.slots = [] ∧ t.kvt.rekeys = [] ∧
      t.kvt.officers = []) ∧
    (byteAt c.params 0 = 2 → s.inSession m = false → Gives (.keyZeroize m) s fun t => t.Ended m stConflict ∧ t.kvt = s.kvt)) ∧
  (∀ s m c n, s.Starts m 0x060C c → s.Inv → n = leAt c.params 0 2 → firstFail (s.keyChecks serving) = none →
    (0 < n → n ≤ 4096 → Gives (.keyRandom m) s fun t => t.Yields m c ((natsFrom s.freeCtr n).map Config.freeByte) ∧
      t.freeCtr = s.freeCtr + n ∧ t.kvt.drbgCount = (s.kvt.drbgCount + 1) % 2 ^ 20) ∧
    (n = 0 ∨ 4096 < n → Gives (.keyRandom m) s fun t => t.Ended m stInvalidParam ∧ t.kvt = s.kvt))

/-- Pair key, rekey, MKA and TLS (R261, R263, R374, R378 to R384, R388). Drawn keys are free values. -/
def Obligations.RekeyMacsecAndTls : Prop :=
  -- PAIR_KEY_AGREEMENT_COMPLETE (R263, R388)
  (∀ s : State, Config.hasCipher s.part = true → s.paired = true → s.kvt.st = .operational →
    (Gives (.pairKeyAgreementComplete true) s fun t => t.kvt = { s.kvt with paired := true }) ∧
    (Gives (.pairKeyAgreementComplete false) s fun t => t.kvt = { s.kvt with paired := false } ∧
      ∃ u : State, u.regs = s.regs ∧ t = u.raiseFlag Reg.kvtStat 6)) ∧
  -- REKEY_PIECE_LOADED, REKEY_REGION_DONE (R374)
  (∀ s n bs r x k, s.kvt.rekeys.find? (fun r => r.slot = n) = some r → s.servedNs n = some x → s.findKey n = some k →
    (s.pieceFree x k r = true → Gives (.rekeyPieceLoaded n bs) s fun t =>
      t.kvt.rekeys.find? (fun r => r.slot = n) = some { r with loading := true, loaded := r.loaded + 1 }) ∧
    (s.pieceFree x k r = true → ∀ b d, bs = [(b, d)] → r.region * 16384 + r.loaded * 512 ≤ b → b < r.region * 16384 + r.loaded * 512 + 512 →
      (s.newest x.vsid x.nsid b).isNone = true → s.isLost x.vsid x.nsid b = false →
      ∃ (u : State) (e : WbEntry), u.hce.wb = s.hce.wb ++ [e] ∧ e.vsid = x.vsid ∧ e.nsid = x.nsid ∧ e.blk = b ∧
        e.ver = s.hce.seq + 1 ∧ e.data = s.unseal x b true d ∧ u.hce.seq = s.hce.seq + 1 ∧
        ∃ ms, exec (.rekeyPieceLoaded n bs) s = .next ((u.mirSendAll (carryFrames true ms)).commitVersion (s.hce.seq + 1))) ∧
    (s.pieceFree x k r = false → exec (.rekeyPieceLoaded n bs) s = .next s)) ∧
  (∀ s n r x, s.kvt.rekeys.find? (fun r => r.slot = n) = some r → s.servedNs n = some x →
    (∀ m, r.curMseq = some m → s.peerHolds m = true → r.region + 1 < x.regions → Gives (.rekeyRegionDone n) s fun t =>
      t.kvt.rekeys.find? (fun r => r.slot = n) = some { r with region := r.region + 1, loading := false, loaded := 0, curMseq := none }) ∧
    (∀ m, r.curMseq = some m → s.peerHolds m = true → x.regions ≤ r.region + 1 → Gives (.rekeyRegionDone n) s fun t =>
      t.kvt.rekeys.find? (fun r => r.slot = n) = none ∧ ∀ k, s.findKey n = some k → ∃ y, t.findKey n = some y ∧
        y.oldMaterial = none ∧ y.material = k.material) ∧
    (∀ m, r.curMseq = some m → s.peerHolds m = false → exec (.rekeyRegionDone n) s = .next s) ∧
    (r.curMseq = none → 32 ≤ r.loaded → s.owns x.ring = true → ∀ k, s.findKey n = some k → Gives (.rekeyRegionDone n) s fun t =>
      ∃ y, t.findKey n = some y ∧ y.cursor = r.region + 1)) ∧
  -- MKA_FRAME_RECEIVE, MKA_HELLO, MKA_LIFE_EXPIRY (R378 to R380)
  (∀ s p msg, s.Inv → s.mkaOn p = true → p < 4 →
    (msg.icvOk = false → exec (.mkaFrameReceive p msg) s = .next (s.bump Reg.iclMsauth)) ∧
    (msg.icvOk = true → Gives (.mkaFrameReceive p msg) s fun t =>
      (msg.member, msg.priority, s.now + sec 6) ∈ (t.msPort p).members) ∧
    (∀ k x, msg.icvOk = true → msg.sak = some k → x = s.msPort p → x.txSak ≠ some k →
      s.keyServer p { x with members := x.members.filter (fun y => y.1 ≠ msg.member) ++ [(msg.member, msg.priority, s.now + sec 6)] } = false →
      Gives (.mkaFrameReceive p msg) s fun t => (t.msPort p).txSak = some k ∧ (t.msPort p).rxSak = some k ∧
        (t.msPort p).newSak = none ∧ (t.msPort p).txPn = 1) ∧
    ((s.msPort p).helloAt = none → Gives (.mkaHello p) s fun t => (t.msPort p).helloAt = some (s.now + sec 2) ∧
      t.out ≠ s.out)) ∧
  (∀ s p msg, s.mkaOn p = false → exec (.mkaFrameReceive p msg) s = .next s ∧ exec (.mkaHello p) s = .next s) ∧
  (∀ s p m pr d, s.Inv → p < 4 → (m, pr, d) ∈ (s.msPort p).members → d ≤ s.now →
    (∀ y ∈ (s.msPort p).members, y.1 ≠ m → Gives (.mkaLifeExpiry p m) s fun t =>
      (t.msPort p).members = (s.msPort p).members.filter (fun y => y.1 ≠ m) ∧ (t.msPort p).txSak = (s.msPort p).txSak) ∧
    ((∀ y ∈ (s.msPort p).members, y.1 = m) → ∃ u : State, (u.msPort p).members = [] ∧ (u.msPort p).txSak = none ∧
      (u.msPort p).rxSak = none ∧ exec (.mkaLifeExpiry p m) s =
        .next (if s.cfgBit (Reg.iclMscfg + 4 * p) 31 = true then u.portDown p else u))) ∧
  -- CLIENT_HELLO, KEY_UPDATE_RECEIVE (R381 to R384)
  (∀ s n ids suite grp binder k, s.findConn n = some k → k.transport = .tcp → k.icDone = false → k.tls = false →
    Config.hasCipher s.part = true → s.kvt.st = .operational → s.mbx.activating = none →
    (s.pskOf ids = none → exec (.clientHello n ids suite grp binder) s = .next (s.tlsAlert n 115)) ∧
    (∀ p, s.pskOf ids = some p →
      (suite = false → exec (.clientHello n ids suite grp binder) s = .next (s.tlsAlert n 40)) ∧
      (suite = true → grp = false → exec (.clientHello n ids suite grp binder) s = .next (s.emit (.tls n 6))) ∧
      (suite = true → grp = true → binder = false → exec (.clientHello n ids suite grp binder) s = .next (s.tlsAlert n 51)) ∧
      (suite = true → grp = true → binder = true → Gives (.clientHello n ids suite grp binder) s fun t =>
        t.kvt.tls = s.kvt.tls ++ [⟨n, p, s.freeNow, s.tookFree.freeNow, 0, 0, none⟩] ∧ s.Sent t (.tls n 2) ∧
        t.findConn n = some { k with tls := true }))) ∧
  (∀ s n x, s.kvt.tls.find? (fun t => t.conn = n) = some x → Gives (.keyUpdateReceive n) s fun t =>
    t.kvt.tls.find? (fun t => t.conn = n) = some { x with rxKey := s.freeNow, rxCount := 0 }) ∧
  (∀ s n, (∀ x ∈ s.kvt.tls, x.conn ≠ n) → exec (.keyUpdateReceive n) s = .next s)

/-- The mailbox (R405 to R427). `packetForm` is the check of a packet's form (log 34), `startCheck` the order of R625 (log 35),
and the answer of MCTP_CONTROL_MESSAGE is the model's (log 7). -/
def Obligations.MailboxPackets : Prop :=
  -- MCTP_MESSAGE (R405, R406, R415, R417, R418)
  (∀ s p, (4160 < p.length ∨ s.mbxServes .bmc = false → exec (.mctpMessage p) s = .next s) ∧
    (p.length ≤ 4160 → s.mbxServes .bmc = true → s.Inv →
      (leAt p 12 2 ≤ 4096 → p.length < 64 + leAt p 12 2 ∨ leAt p 60 4 ≠ (crc32c (p.take 60 ++ slice p 64 (leAt p 12 2))).toNat →
        Gives (.mctpMessage p) s fun t => s.Sent t (.reply .bmc (leAt p 8 4) stCrc 1 []) ∧ t.mbx = s.mbx) ∧
      (packetForm .bmc p = none → byteAt p 3 % 2 = 0 → byteAt p 3 / 2 % 2 = 1 ∨ (s.heldOf .bmc).seq = none →
        (∀ c, s.cmdOf .bmc = some c → Gives (.mctpMessage p) s fun t =>
          s.Sent t (.reply .bmc (leAt p 8 4) stBusy 1 []) ∧ t.mbx = s.mbx) ∧
        (s.cmdOf .bmc = none → Gives (.mctpMessage p) s fun t => s.Sent t (.reply .bmc (leAt p 8 4) stPending 0 []) ∧
          (t.heldOf .bmc).seq = some (leAt p 8 4) ∧ (t.heldOf .bmc).result = none ∧
          ∃ c, t.cmdOf .bmc = some c ∧ c.opcode = leAt p 0 2 ∧ c.rev = byteAt p 2 ∧ c.params = slice p 64 (leAt p 12 2) ∧
            c.started = false ∧ c.fromOwner = s.isOwner .bmc)) ∧
      (packetForm .bmc p = none → byteAt p 3 % 4 = 0 → (s.heldOf .bmc).seq = some (leAt p 8 4) → (s.heldOf .bmc).opcode = leAt p 0 2 →
        ∀ st r, (s.heldOf .bmc).result = some (st, r) → Gives (.mctpMessage p) s fun t => t.mbx.cmds = s.mbx.cmds ∧
          s.Sent t (.reply .bmc (leAt p 8 4) st (if (s.heldOf .bmc).dmaErr then 2 else 0) r)))) ∧
  -- MCTP_CONTROL_MESSAGE (R406)
  (∀ s n, exec (.mctpControlMessage n) s = .next (s.emit (.reply .bmc n stOk 0 []))) ∧
  -- POLL (R418)
  (∀ s m p, (byteAt p 3 % 2 = 0 → exec (.poll m p) s = .next s) ∧
    (byteAt p 3 % 2 = 1 → s.mbxServes m = true → packetForm m p = none → leAt p 12 2 = 0 → (s.heldOf m).seq = some (leAt p 8 4) →
      Gives (.poll m p) s fun t => t.mbx.cmds = s.mbx.cmds ∧ t.mbx.held = s.mbx.held ∧
        s.Sent t (.reply m (leAt p 8 4) (match (s.heldOf m).result with | none => stPending | some x => x.1)
          (match (s.heldOf m).result with | none => 0 | some _ => if (s.heldOf m).dmaErr then 2 else 0)
          (match (s.heldOf m).result with | none => [] | some x => x.2)))) ∧
  -- DOORBELL_SEND (R405, R436)
  (∀ s w, (s.sepRoute = false ∨ fieldOf w 0 0 = 0 ∨ s.mbxServes .service = false → exec (.doorbellSend w) s = .next s) ∧
    (s.sepRoute = true → fieldOf w 0 0 = 1 → s.mbxServes .service = true → Gives (.doorbellSend w) s fun t =>
      ∃ (u : State) (r : Reply), s.receive .service (s.windowPacket.take (64 + leAt s.windowPacket 12 2)) = (u, r) ∧
        t.mbx.replyWin = r.bytes ∧ t.mbx.replyStatus = r.status ∧ t.mbx.cmds = u.mbx.cmds ∧ t.mbx.held = u.mbx.held ∧
        u.Sent t (.reply r.m r.seq r.status ((if r.reject then 1 else 0) + (if r.dmaErr then 2 else 0)) r.result))) ∧
  -- COMMAND_START (R411, R421, R425, R625)
  (∀ s m, s.cmdOf m = none → exec (.commandStart m) s = .next s) ∧
  (∀ s m c, s.cmdOf m = some c → c.started = true ∨ s.mayStart c = false → exec (.commandStart m) s = .next s) ∧
  (∀ s m c, s.Inv → s.cmdOf m = some c → c.started = false → s.mayStart c = true →
    ((opRow c.opcode).isNone = true ∨ c.rev ≠ 1 → Gives (.commandStart m) s fun t => t.Ended m stInvalidOpcode) ∧
    ((opRow c.opcode).isNone = false → c.rev = 1 → s.restricted c.opcode = true → Gives (.commandStart m) s fun t => t.Ended m stConflict) ∧
    ((opRow c.opcode).isNone = false → c.rev = 1 → s.restricted c.opcode = false →
      (c.fromOwner = false → opChanges c.opcode = true → s.bmcOnly c = false → Gives (.commandStart m) s fun t => t.Ended m stNotOwner) ∧
      (c.fromOwner = true ∨ opChanges c.opcode = false ∨ s.bmcOnly c = true →
        (c.lenOk = false ∨ c.resultOk = false → Gives (.commandStart m) s fun t => t.Ended m stInvalidParam) ∧
        (c.lenOk = true → c.resultOk = true → c.dmap = false → Gives (.commandStart m) s fun t =>
          t.cmdOf m = some { c with started := true, fetching := false }) ∧
        (c.lenOk = true → c.resultOk = true → c.dmap = true → ∃ u : State, u.cmdOf m = some { c with started := true, fetching := true } ∧
          exec (.commandStart m) s = .next (u.startFetch c.daddr c.dlen c.noDma))))) ∧
  -- DESCRIBE, FAB_TOPO (R426, R427)
  (∀ s m c, s.Inv → s.Starts m 0x0101 c → s.tk.fenced = false → Gives (.describe m) s fun t => t.Yields m c
    (leBytes 4 (Config.unitPres s.part).toNat ++ leBytes 4 s.routes ++ zeroBytes 24 ++ leBytes 8 s.fwVersion ++
      leBytes 1 s.mbx.runSlot ++ leBytes 1 (if s.slot = .a then 0 else 1) ++ leBytes 2 opRows.length ++ zeroBytes 20 ++
      opRows.flatMap (fun r => leBytes 2 r.op ++ [1] ++ leBytes 1 ((if r.anyone then 1 else 0) + (if opBarrier r.op then 2 else 0))))) ∧
  (∀ s m c, s.Inv → s.Starts m 0x0402 c → Gives (.fabTopo m) s fun t => ∃ l : List Lsa,
    t.Answers m c (leBytes 1 l.length ++ zeroBytes 3 ++ l.flatMap Lsa.bytes) ∧
    (∀ a, a ∈ l ↔ byteAt c.params 0 ≤ a.fid ∧ ∃ e ∈ s.rfx.lsdb, e.lsa = a) ∧ l.Pairwise (fun a b => a.fid ≤ b.fid)) ∧
  -- MB_FLUSH (R423)
  (∀ s m c, s.Inv → s.Starts m 0x0102 c → (∀ d ∈ s.mbx.cmds, d.opcode = 0x0102 → d.m = m) →
    (s.peerHolds s.lastMseq = true → Gives (.mbFlush m) s fun t => t.Ended m stOk) ∧
    (s.peerHolds s.lastMseq = false → Gives (.mbFlush m) s fun t =>
      t.cmdOf m = some { c with running := true } ∧ t.mbx.flushMseq = s.lastMseq)) ∧
  -- MB_RESET (R422)
  (∀ s m c, s.Inv → s.Starts m 0x0103 c →
    (∀ k d, s.cmdOf k = some d → d.started = false → Gives (.mbReset m) s fun t => t.Ended k stAborted) ∧
    (Gives (.mbReset m) s fun t => ∀ k, k ≠ m → (t.heldOf k).seq = none) ∧
    ((∀ d ∈ earlier m s.mbx.cmds, d.started = false) → Gives (.mbReset m) s fun t => t.Ended m stOk) ∧
    (∀ d ∈ earlier m s.mbx.cmds, d.started = true → Gives (.mbReset m) s fun t => t.cmdOf m = some { c with running := true }))

/-- Supplies, flush, power-up and restart (R96 to R99, R165, R173, R493 to R504, R512, R523, R582, R620). -/
def Obligations.SuppliesFlushAndRestart : Prop :=
  -- POWER_FAIL_TRIP, FLUSH_END (R96, R98, R165)
  (∀ s : State, (s.pwr.up = true → s.hce.flushing = false → Gives .powerFailTrip s fun t => t.pwr.vinOk = false ∧
      t.hce.flushing = true ∧ t.hce.halted = true ∧ t.hce.flushMark = false) ∧
    (s.pwr.up = false → Gives .powerFailTrip s fun t => t.pwr = { s.pwr with vinOk := false } ∧ t.hce = s.hce ∧
      t.regs = (s.raiseFlag Reg.pwrEvt 0).regs)) ∧
  (∀ s : State, (s.hce.flushing = true → s.pwr.up = true → s.rge.writes = [] → (∀ c ∈ s.bay.cmds, c.flushes = false) →
      Gives .flushEnd s fun t => t.pwr.up = false ∧ t.hce.flushMark = true ∧ t.hce.flushing = false ∧
        t.hce.flushArea = s.hce.flushArea ∧ t.hce.notWhole = s.hce.notWhole ∧ t.tk.hbOut = false ∧
        t.pwr.efOn = (!s.pwr.tripped && !s.pwr.railOff)) ∧
    (s.rge.writes ≠ [] → exec .flushEnd s = .next s) ∧
    (∀ c ∈ s.bay.cmds, c.flushes = true → exec .flushEnd s = .next s)) ∧
  -- EFUSE_CURRENT_LIMIT, EFUSE_FAST_TRIP, EFUSE_RETRY, EFUSE_FAULT_CLEAR (R495, R496)
  (∀ (s : State) (c : Instr) n, (c = .efuseCurrentLimit ∧ n = 1) ∨ (c = .efuseFastTrip ∧ n = 2) →
    (s.pwr.efOn = true → Gives c s fun t => t.pwr.up = false ∧ t.pwr.efOn = false ∧ t.pwr.efFault = n ∧
      t.pwr.efRetry = s.pwr.efRetry ∧ t.pwr.efRetryAt = (if s.pwr.efRetry = 0 then none else some (s.now + sec 1)) ∧
      (s.pwr.up = true → t.hce.wb = [] ∧ t.hce.flushMark = s.hce.flushMark)) ∧
    (s.pwr.efOn = false → exec c s = .next s)) ∧
  (∀ s : State, (due s.pwr.efRetryAt s.now = true → Gives .efuseRetry s fun t =>
      t.pwr = { s.pwr with efRetry := s.pwr.efRetry - 1, efRetryAt := none, efFault := 0, efOn := true }) ∧
    (due s.pwr.efRetryAt s.now = false → exec .efuseRetry s = .next s) ∧
    Gives .efuseFaultClear s fun t => t.pwr = { s.pwr with efFault := 0, efRetry := 3, efRetryAt := none }) ∧
  -- VIN_CUTOFF, RAIL_FAULT (R498, R503, R504)
  (∀ s : State, Gives .vinCutoff s fun t => t.pwr.up = false ∧ t.pwr.efOn = false ∧ t.pwr.vinOk = false ∧
    t.pwr.railOff = false ∧ t.pwr.tripped = false ∧ (s.tk.fenceIn = false → s.pwr.mode = .standby → t.pwr.mode = .active)) ∧
  (∀ (s : State) r, (s.pwr.up = true → Gives (.railFault r) s fun t => t.pwr.up = false ∧ t.pwr.efOn = false ∧
      t.pwr.railOff = true ∧ t.hce.wb = []) ∧
    (s.pwr.up = false → exec (.railFault r) s = .next s)) ∧
  -- VIN_OVERVOLTAGE, AON_FEED_LOSS, REFERENCE_LOSS, REFERENCE_RESTORED (R493, R499, R512)
  (∀ s : State, exec .vinOvervoltage s = .next (s.raiseFlag Reg.pwrEvt 5) ∧
    exec .aonFeedLoss s = .next (s.raiseFlag Reg.pwrEvt 4) ∧
    (Gives .referenceLoss s fun t => t.pwr = { s.pwr with refBackup := true } ∧ t.regs = (s.raiseFlag Reg.pwrEvt 3).regs) ∧
    Gives .referenceRestored s fun t => t.pwr = { s.pwr with refBackup := false } ∧ t.regs = s.regs) ∧
  -- POWER_UP (R494, R502, R582, R595, R607)
  (∀ (s : State) l b,
    (s.strapsOk = false → Gives (.powerUp l b) s fun t => t.pwr = { s.pwr with vsbOk := true, vinOk := true }) ∧
    (s.strapsOk = true → s.mayPower = false → exec (.powerUp l b) s = .next s) ∧
    (s.mayPower = true → ∃ u : State, u.pwr = { s.pwr with
        up := true, efOn := true, vinOk := true, vsbOk := true, mode := .active, restart := none,
        railsUp := [.bpc, .pll, .sds, .vdd, .sram, .hbm, .io18, .io33], domOn := allDomains s.part, domRet := [], waking := [] } ∧
      u.mac.tod = 0 ∧ u.hce = s.hce ∧ u.rge = s.rge ∧ u.regs = s.regs ∧
      exec (.powerUp l b) s = .next (match s.pwr.restart.bind (fun r => r.test) with
        | some (t, hold) => u.testBoot t hold b l
        | none => u.boot l))) ∧
  -- THERMAL_TRIP (R620)
  (∀ s : State, (s.pwr.up = false → exec .thermalTrip s = .next s) ∧
    (s.pwr.up = true → s.hce.flushing = true → Gives .thermalTrip s fun t => t.pwr = { s.pwr with tripped := true } ∧
      t.hce = s.hce ∧ t.tk = s.tk) ∧
    (s.pwr.up = true → s.hce.flushing = false → s.paired = true → Gives .thermalTrip s fun t =>
      t.pwr = { s.pwr with tripped := true } ∧ t.tk.hbOut = false ∧ t.hce = s.hce) ∧
    (s.pwr.up = true → s.hce.flushing = false → s.paired = false → Gives .thermalTrip s fun t =>
      t.pwr.tripped = true ∧ t.hce.flushing = true ∧ t.hce.halted = true)) ∧
  -- MOD_RESTART (R495, R504, R523, R620)
  (∀ s m c, s.Starts m 0x0807 c → s.Inv →
    (byteAt c.params 0 ≠ 1 → byteAt c.params 0 ≠ 2 → Gives (.modRestart m) s fun t => t.Ended m stInvalidParam ∧
      t.pwr = s.pwr ∧ t.hce = s.hce) ∧
    (byteAt c.params 0 = 1 ∨ byteAt c.params 0 = 2 → s.coresOff = false → s.tst.boot = false → s.pwr.tripped = false →
      (s.masters = true → Gives (.modRestart m) s fun t => t.Ended m stConflict ∧ t.pwr = s.pwr ∧ t.hce = s.hce) ∧
      (s.masters = false → Gives (.modRestart m) s fun t => t.Ended m stOk ∧ t.hce = { s.hce with halted := true } ∧
        t.pwr = { s.pwr with restart := some ⟨byteAt c.params 0, none, true, false⟩ })) ∧
    (s.coresOff = true → s.tst.boot = false →
      (byteAt c.params 0 = 2 → Gives (.modRestart m) s fun t => t.Ended m stOk ∧ t.pwr = { s.pwr with mode := .standby }) ∧
      (byteAt c.params 0 = 1 → s.pwr.tripped = false → Gives (.modRestart m) s fun t => t.Ended m stOk ∧
        t.pwr = { s.pwr with efFault := 0, efRetry := 3, efRetryAt := none, railOff := false, mode := .active }))) ∧
  -- RESTART_DRAIN_COMPLETE (R173, R523)
  (∀ (s : State) r, s.pwr.restart = some r →
    (s.ownBlocks ≠ 0 → exec .restartDrainComplete s = .next s) ∧
    (r.draining = true → s.ownBlocks = 0 → s.pwr.up = true →
      (s.paired = true → Gives .restartDrainComplete s fun t => t.tk.hbOut = false ∧
        t.pwr = { s.pwr with restart := some { r with draining := false } }) ∧
      (s.paired = false → s.checkpointing = true → exec .restartDrainComplete s = .next s) ∧
      (s.paired = false → s.checkpointing = false → r.clean = false → ∃ u : State,
        u.pwr = { s.pwr with restart := some { r with clean := true } } ∧ u.rge = s.rge ∧
        (u.cleanCheckpoints.checkpointing = true → exec .restartDrainComplete s = .next u.cleanCheckpoints)) ∧
      (s.paired = false → s.checkpointing = false → r.clean = true → Gives .restartDrainComplete s fun t =>
        t.hce.conns = [] ∧ t.pwr.up = false ∧ t.tk.hbOut = false ∧
        t.pwr.mode = (if r.mode = 2 then .standby else .active) ∧
        t.pwr.restart = (if r.mode = 2 then none else some { r with draining := false }))))

/-- Power domains and states, health check, policy (R265, R506 to R518, R524, R525). -/
def Obligations.PowerDomainsStatesAndHealth : Prop :=
  -- DOMAIN_WAKE, DOMAIN_ON, DOMAIN_IDLE (R399, R506 to R508, R515, R522, R538)
  (∀ (s : State) d, (s.pwr.up = false → exec (.domainWake d) s = .next s) ∧
    (s.pwr.up = true → domPresent s.part d = true → hasNat s.pwr.domOn d = false → (∀ w ∈ s.pwr.waking, w.1 ≠ d) →
      Gives (.domainWake d) s fun t => t.pwr = { s.pwr with
        waking := s.pwr.waking ++ [(d, s.now + wakeNs (hasNat s.pwr.domRet d) d)] }) ∧
    (hasNat s.pwr.domOn d = true → exec (.domainWake d) s = .next s)) ∧
  (∀ (s : State) d ok, ((∀ w ∈ s.pwr.waking, w.1 ≠ d) → exec (.domainOn d ok) s = .next s) ∧
    (∀ w ∈ s.pwr.waking, w.1 = d →
      (Gives (.domainOn d ok) s fun t => t.pwr.domOn = addNat s.pwr.domOn d ∧ t.pwr.domRet = dropNat s.pwr.domRet d ∧
        t.pwr.waking = s.pwr.waking.filter (fun w => w.1 ≠ d) ∧ t.pwr.mode = s.pwr.mode) ∧
      (59 ≤ d → d < 75 → hasNat s.kvt.lanesFailed (d - 59) = false → Gives (.domainOn d ok) s fun t =>
        t.kvt = if ok = true then { s.kvt with lanesOn := addNat s.kvt.lanesOn (d - 59) }
          else { s.kvt with lanesFailed := addNat s.kvt.lanesFailed (d - 59) }) ∧
      (∀ k, 76 + 2 * k ≤ d → d ≤ 77 + 2 * k → k < 4 → hasNat (addNat s.pwr.domOn d) (76 + 2 * k) = true →
        hasNat (addNat s.pwr.domOn d) (77 + 2 * k) = true → Gives (.domainOn d ok) s fun t =>
        t.pwr.shed = dropNat s.pwr.shed k))) ∧
  (∀ (s : State) d, (s.pwr.mode = .active → exec (.domainIdle d) s = .next s) ∧
    (domAlways d = true ∨ s.domNeeded d = true ∨ hasNat s.pwr.domOn d = false → exec (.domainIdle d) s = .next s) ∧
    (s.pwr.mode = .lull ∨ s.pwr.mode = .doze → hasNat s.pwr.domOn d = true → domAlways d = false → s.domNeeded d = false →
      (domRetains d = true → Gives (.domainIdle d) s fun t =>
        t.pwr = { s.pwr with domOn := dropNat s.pwr.domOn d, domRet := addNat s.pwr.domRet d }) ∧
      (59 ≤ d → d < 75 → Gives (.domainIdle d) s fun t => d ∉ t.pwr.domOn ∧ d ∉ t.pwr.domRet ∧
        t.kvt = { s.kvt with lanesOn := dropNat s.kvt.lanesOn (d - 59) }) ∧
      ((84 ≤ d ∧ d < 96) ∨ d = 111 → Gives (.domainIdle d) s fun t => d ∉ t.pwr.domOn ∧ d ∉ t.pwr.domRet ∧ t.kvt = s.kvt) ∧
      (∀ k, k < 4 → d = 76 + 2 * k ∨ d = 77 + 2 * k →
        exec (.domainIdle d) s = .next (if s.deepest ≤ k then s.shedStack k else s)))) ∧
  -- POWER_STATE_EVALUATION (R515 to R518)
  (∀ (s : State) w, s.pwr.up = true → s.mbx.activating = none →
    (s.activeHold = true → s.pwr.mode = .lull ∨ s.pwr.mode = .doze → Gives (.powerStateEvaluation w) s fun t =>
      t.pwr.mode = .active ∧ t.pwr.lullRun = 0 ∧ t.pwr.dozeRun = 0) ∧
    (s.activeHold = false → s.pwr.mode = .active → w.isMs = false →
      (s.policy 0 = 0 ∨ s.policy 2 * 100 ≤ s.loadOf w → Gives (.powerStateEvaluation w) s fun t => t.pwr =
        { s.pwr with util := w.hostUtil, lullRun := 0 }) ∧
      (1 ≤ s.policy 0 → s.loadOf w < s.policy 2 * 100 →
        (s.pwr.lullRun + 1 < s.policy 5 * 100 → Gives (.powerStateEvaluation w) s fun t => t.pwr =
          { s.pwr with util := w.hostUtil, lullRun := s.pwr.lullRun + 1 }) ∧
        (s.policy 5 * 100 ≤ s.pwr.lullRun + 1 → Gives (.powerStateEvaluation w) s fun t => t.pwr.mode = .lull ∧
          t.pwr.lullRun = 0 ∧ t.pwr.dozeRun = 0))) ∧
    (s.activeHold = false → s.pwr.mode = .lull →
      (w.isMs = true → s.policy 4 * 100 < s.loadOf w → Gives (.powerStateEvaluation w) s fun t => t.pwr.mode = .active) ∧
      (w.isMs = true → s.loadOf w ≤ s.policy 4 * 100 → exec (.powerStateEvaluation w) s = .next s) ∧
      (w.isMs = false → s.policy 0 = 2 → s.dozeBlock = false → s.loadOf w < s.policy 3 * 100 →
        (s.pwr.dozeRun + 1 < s.policy 6 * 100 → Gives (.powerStateEvaluation w) s fun t => t.pwr =
          { s.pwr with util := w.hostUtil, dozeRun := s.pwr.dozeRun + 1 }) ∧
        (s.policy 6 * 100 ≤ s.pwr.dozeRun + 1 → Gives (.powerStateEvaluation w) s fun t => t.pwr.mode = .doze ∧
          t.pwr.dozeRun = 0)) ∧
      (w.isMs = false → s.dozeBlock = true ∨ s.policy 3 * 100 ≤ s.loadOf w → Gives (.powerStateEvaluation w) s fun t =>
        t.pwr = { s.pwr with util := w.hostUtil, dozeRun := 0 })) ∧
    (s.activeHold = false → s.pwr.mode = .doze →
      (w.isMs = true → s.policy 4 * 100 < s.loadOf w → Gives (.powerStateEvaluation w) s fun t => t.pwr.mode = .active) ∧
      (w.isMs = false → s.dozeBlock = true → Gives (.powerStateEvaluation w) s fun t => t.pwr.mode = .lull) ∧
      (w.isMs = false → s.dozeBlock = false → Gives (.powerStateEvaluation w) s fun t =>
        t.pwr = { s.pwr with util := w.hostUtil }))) ∧
  (∀ (s : State) w, s.pwr.up = false → exec (.powerStateEvaluation w) s = .next s) ∧
  -- HEALTH_CHECK, RETENTION_CHECK, SUPERVISOR_TRIM (R265, R400, R511, R514, R624)
  (∀ (s : State) a b, s.pwr.up = true → s.tk.fenced = false → s.tst.boot = false →
    (a = true → b = true → s.kvt.st ≠ .error → s.tk.hbOut = false → s.pwr.tripped = false → s.pwr.restart = none →
      s.hce.flushing = false → Gives (.healthCheck a b) s fun t => t.tk = { s.tk with hbOut := true } ∧ t.hce = s.hce ∧
        s.Sent t (.pin .hbOut true)) ∧
    (a = true → b = true → s.kvt.st ≠ .error → s.tk.hbOut = true → exec (.healthCheck a b) s = .next s) ∧
    (b = false ∨ s.kvt.st = .error ∨ (a = false ∧ s.mbx.activating = none) → s.tk.hbOut = true →
      (s.paired = true → Gives (.healthCheck a b) s fun t => t.tk = { s.tk with hbOut := false } ∧ t.hce = s.hce ∧
        s.Sent t (.pin .hbOut false)) ∧
      (s.paired = false → s.hce.flushing = false → Gives (.healthCheck a b) s fun t => t.hce.flushing = true ∧
        t.hce.halted = true ∧ (s.tk.healthBad = true → t.pwr.railOff = true) ∧
        (s.tk.healthBad = false → t.tk.healthBad = true)))) ∧
  (∀ (s : State) a b, s.pwr.up = false ∨ s.tk.fenced = true → exec (.healthCheck a b) s = .next s) ∧
  (∀ (s : State) i, (natsFrom 1 5).find? (fun i => hasNat s.pwr.domRet (checkedCore (s.pwr.coreRot + i))) = some i →
    (Gives (.retentionCheck true) s fun t => t.pwr = { s.pwr with coreRot := (s.pwr.coreRot + i) % 5 } ∧ t.tk = s.tk) ∧
    (s.tk.hbOut = true → s.paired = true → Gives (.retentionCheck false) s fun t => t.tk.hbOut = false ∧
      t.pwr = { s.pwr with coreRot := (s.pwr.coreRot + i) % 5 })) ∧
  (∀ s : State, Gives .supervisorTrim s fun t => t.pwr = { s.pwr with oscTrims := s.pwr.oscTrims + 1 }) ∧
  -- PWR_POLICY, PWR_QUERY (R518, R524, R525)
  (∀ s m c, s.Starts m 0x0805 c → s.Inv →
    (∀ st, policyCheck s.part ((natsFrom 0 8).map (byteAt c.params)) = some st → Gives (.pwrPolicy m) s fun t =>
      t.Ended m st ∧ t.pwr = s.pwr ∧ t.reg Reg.pwrPolicy0 = s.reg Reg.pwrPolicy0 ∧
      t.reg Reg.pwrPolicy1 = s.reg Reg.pwrPolicy1) ∧
    (policyCheck s.part ((natsFrom 0 8).map (byteAt c.params)) = none → ∃ u : State,
      u.regs = ((s.putReg Reg.pwrPolicy0 (BitVec.ofNat 32 (leAt c.params 0 4))).putReg Reg.pwrPolicy1
        (BitVec.ofNat 32 (leAt c.params 4 4))).regs ∧ u.pwr = s.pwr ∧
      exec (.pwrPolicy m) s = .next (u.applyPolicy.finish m stOk []))) ∧
  (∀ s m c, s.Starts m 0x0806 c → s.Inv → Gives (.pwrQuery m) s fun t => t.Ended m stOk ∧ t.pwr = s.pwr ∧
    ∃ r, t.Yields m c (leBytes 1 s.pwr.mode.rank ++ leBytes 1 s.blockBits ++ zeroBytes 2 ++ r ++
      leBytes 14 (sumNat (s.pwr.domOn.map (fun d => 2 ^ d))) ++ zeroBytes 2) ∧ r.length = 12)

/-- Propagation, firmware and PLDM (R283, R389, R406, R408, R430 to R435, R621). PLDM codes are of log 7, readings of log 4. -/
def Obligations.FirmwareAndPldm : Prop :=
  -- MGMT_PROPAGATION, MGMT_FRAME_RECEIVE (R143, R283, R293, R389, R405, R408)
  (∀ s p, (s.paired = false → exec (.mgmtPropagation p) s = .next s) ∧
    (s.paired = true →
      (∀ st, s.planPeer p.opcode p.params = .error st → Gives (.mgmtPropagation p) s fun t =>
        s.Sent t (.reply .peer 0 st 0 []) ∧ t.vsm = s.vsm ∧ t.kvt = s.kvt ∧ t.rge = s.rge) ∧
      (∀ u r, s.planPeer p.opcode p.params = .ok (u, r) →
        (p.opcode = 0x0507 → exec (.mgmtPropagation p) s = .next u) ∧
        (p.opcode ≠ 0x0507 → Gives (.mgmtPropagation p) s fun t => u.Sent t (.reply .peer 0 stOk 0 []) ∧ t.vsm = u.vsm ∧
          t.kvt = u.kvt ∧ t.rge = u.rge)))) ∧
  (∀ s fid k p, (k = 1 → s.paired = false ∨ fid ≠ s.rfx.peer.fid →
      exec (.mgmtFrameReceive fid k p) s = .next (s.bump Reg.mbxReject)) ∧
    (k = 1 → s.paired = true → fid = s.rfx.peer.fid → exec (.mgmtFrameReceive fid k p) s = .next (s.route .peer p)) ∧
    (k ≠ 1 → s.paired = false ∨ fid ≠ s.rfx.peer.fid ∨ 3 < k ∨ k = 0 → exec (.mgmtFrameReceive fid k p) s = .next s) ∧
    (s.paired = true → fid = s.rfx.peer.fid → k = 3 → exec (.mgmtFrameReceive fid k p) s =
      exec (.mgmtPropagation ⟨leAt p 0 2, slice p 64 (leAt p 12 2)⟩) s) ∧
    (s.paired = true → fid = s.rfx.peer.fid → k = 2 →
      (∀ r c, s.Inv → s.props.find? (fun r => r.opcode = leAt p 2 2) = some r → s.cmdOf r.m = some c →
        (leAt p 0 2 = stOk → r.opcode ≠ 0x0507 → Gives (.mgmtFrameReceive fid k p) s fun t => t.Ended r.m stOk ∧
          t.props = s.props.erase r ∧ t.vsm = s.vsm) ∧
        (leAt p 0 2 ≠ stOk → r.opcode / 256 = 5 → Gives (.mgmtFrameReceive fid k p) s fun t => t.Ended r.m (leAt p 0 2) ∧
          t.props = s.props.erase r ∧ t.vsm.subs = s.vsm.subs.filter (fun x => x.vsid ≠ r.vsid) ++ r.subs ∧
          t.vsm.nss = s.vsm.nss.filter (fun n => n.vsid ≠ r.vsid) ++ r.nss)) ∧
      ((∀ r ∈ s.props, r.opcode ≠ leAt p 2 2) → exec (.mgmtFrameReceive fid k p) s = .next s))) ∧
  -- FW_DOWNLOAD, FW_COMMIT, FW_COMMIT_DONE (R431, R432)
  (∀ s m c o bs, s.Starts m 0x0701 c → s.Inv → o = leAt c.params 0 4 → bs = c.params.drop 4 →
    (o + bs.length ≤ stageSize → Gives (.fwDownload m) s fun t => t.Ended m stOk ∧
      t.mbx.stage = cellWrites s.mbx.stage o bs ∧ t.mbx.stagedTop = Nat.max s.mbx.stagedTop (o + bs.length)) ∧
    (stageSize < o + bs.length → Gives (.fwDownload m) s fun t => t.Ended m stInvalidParam ∧ t.mbx.stage = s.mbx.stage)) ∧
  (∀ s m c k, s.Starts m 0x0702 c → s.Inv → k = byteAt c.params 0 → k ≤ 1 → byteAt c.params 1 ≤ 1 →
    (s.mbx.commitSlot ≠ none → Gives (.fwCommit m) s fun t => t.Ended m stBusy ∧ t.mbx.commitSlot = s.mbx.commitSlot) ∧
    (s.mbx.commitSlot = none →
      (∀ st, firstFail (s.commitChecks k) = some st → Gives (.fwCommit m) s fun t => t.Ended m st ∧ t.fwSlot 0 = s.fwSlot 0 ∧
        t.fwSlot 1 = s.fwSlot 1) ∧
      (firstFail (s.commitChecks k) = none → Gives (.fwCommit m) s fun t => t.cmdOf m = some { c with running := true } ∧
        t.mbx.commitSlot = some (k, decide (byteAt c.params 1 = 1)) ∧ t.fwSlot k = ⟨false, 0, 0⟩ ∧
        t.fwSlot (1 - k) = s.fwSlot (1 - k)))) ∧
  (∀ s k b, s.mbx.commitSlot = some (k, b) → k ≤ 1 →
    (Gives .fwCommitDone s fun t => t.fwSlot k = ⟨true, s.staged 8 8, s.staged 0x10 4⟩ ∧ t.mbx.commitSlot = none ∧
      t.mbx.stage = [] ∧ t.mbx.minSvn = (if b = true then Nat.max s.mbx.minSvn (s.staged 0x10 4) else s.mbx.minSvn)) ∧
    (∀ c, s.Inv → s.mbx.cmds.find? (fun c => c.opcode = 0x0702 && c.running) = some c → Gives .fwCommitDone s fun t =>
      t.Ended c.m stOk)) ∧
  (∀ s, s.mbx.commitSlot = none → exec .fwCommitDone s = .next s) ∧
  -- FW_ACTIVATE, ACTIVATION_COMPLETE, FW_STATUS (R433, R434)
  (∀ s m c k, s.Starts m 0x0703 c → s.Inv → k = byteAt c.params 0 →
    (∀ st, firstFail (s.activateChecks k) = some st → Gives (.fwActivate m) s fun t => t.Ended m st ∧
      t.mbx.activating = s.mbx.activating) ∧
    (firstFail (s.activateChecks k) = none → Gives (.fwActivate m) s fun t => t.cmdOf m = some { c with running := true } ∧
      t.mbx.activating = some (k, s.now + ms 500) ∧ t.mbx.prevSlot = s.mbx.runSlot ∧ t.mbx.runSlot = s.mbx.runSlot)) ∧
  (∀ s k d, s.mbx.activating = some (k, d) → ∃ u : State, u.mbx.activating = none ∧ u.mbx.runSlot = k ∧ u.mbx.bootSlot = k ∧
    (∀ c, s.Inv → s.mbx.cmds.find? (fun c => c.opcode = 0x0703 && c.running) = some c → u.Ended c.m stOk) ∧
    exec .activationComplete s = .next u.adminAll) ∧
  (∀ s m c, s.Starts m 0x0704 c → s.Inv → Gives (.fwStatus m) s fun t => t.mbx.stage = s.mbx.stage ∧ t.Yields m c
    ((if s.mbx.slot0.valid = true then leBytes 8 s.mbx.slot0.version ++ leBytes 4 s.mbx.slot0.svn else zeroBytes 12) ++
     (if s.mbx.slot1.valid = true then leBytes 8 s.mbx.slot1.version ++ leBytes 4 s.mbx.slot1.svn else zeroBytes 12) ++
      leBytes 4 s.mbx.stagedTop ++ leBytes 4 s.fwstat.toNat)) ∧
  -- PLDM_REQUEST_UPDATE, PLDM_COMPONENT_TRANSFER, PLDM_VERIFY_APPLY, PLDM_ACTIVATE_FIRMWARE (R435)
  (∀ s, (s.isOwner .bmc = true → Gives .pldmRequestUpdate s fun t => t.mbx = { s.mbx with pldm := 1 } ∧
      s.Sent t (.reply .bmc 0x10 0 0 [])) ∧
    (s.isOwner .bmc = false → exec .pldmRequestUpdate s = .next (s.emit (.reply .bmc 0x10 4 0 [])))) ∧
  (∀ s o bs, (s.mbx.pldm = 1 → o + bs.length ≤ stageSize → Gives (.pldmComponentTransfer o bs) s fun t =>
      t.mbx = { s.mbx with stage := cellWrites s.mbx.stage o bs, stagedTop := Nat.max s.mbx.stagedTop (o + bs.length) }) ∧
    (s.mbx.pldm ≠ 1 ∨ stageSize < o + bs.length → exec (.pldmComponentTransfer o bs) s = .next s)) ∧
  (∀ s k, k = 1 - s.mbx.runSlot →
    (s.mbx.pldm ≠ 1 ∨ s.mbx.commitSlot ≠ none → exec .pldmVerifyApply s = .next s) ∧
    (s.mbx.pldm = 1 → s.mbx.commitSlot = none →
      (∀ st, firstFail (s.commitChecks k) = some st → exec .pldmVerifyApply s = .next (s.emit (.reply .bmc 0x17 st 0 []))) ∧
      (firstFail (s.commitChecks k) = none → Gives .pldmVerifyApply s fun t => t.mbx.commitSlot = some (k, false) ∧
        t.mbx.pldm = 2 ∧ t.fwSlot k = ⟨false, 0, 0⟩ ∧ s.Sent t (.reply .bmc 0x17 0 0 [])))) ∧
  (∀ s k, k = 1 - s.mbx.runSlot →
    (s.mbx.pldm ≠ 3 ∨ s.mbx.cmds ≠ [] ∨ s.mbx.activating ≠ none → exec .pldmActivateFirmware s = .next s) ∧
    (s.mbx.pldm = 3 → s.mbx.cmds = [] → s.mbx.activating = none →
      (∀ st, firstFail (s.activateChecks k) = some st →
        exec .pldmActivateFirmware s = .next (s.emit (.reply .bmc 0x1A st 0 []))) ∧
      (firstFail (s.activateChecks k) = none → Gives .pldmActivateFirmware s fun t =>
        t.mbx = { s.mbx with activating := some (k, s.now + ms 500), prevSlot := s.mbx.runSlot } ∧
        s.Sent t (.reply .bmc 0x1A 0 0 [])))) ∧
  -- PLDM_GET_SENSOR_READING (R621)
  (∀ s n, (n = 0 ∨ 5 < n → exec (.pldmGetSensorReading n) s = .next (s.emit (.reply .bmc 0x11 0x80 0 []))) ∧
    (n = 4 ∨ n = 5 → s.pwr.mode = .standby → exec (.pldmGetSensorReading n) s =
      .next (s.emit (.reply .bmc 0x11 0 0 ([2, 2, 0, 0, 0, 0] ++ zeroBytes 2)))) ∧
    (0 < n → n < 4 → ∃ b, Gives (.pldmGetSensorReading n) s fun t => t.mbx = s.mbx ∧ s.Sent t (.reply .bmc 0x11 0 0
      ([BitVec.ofNat 8 (sensorSize n), 0, 0, BitVec.ofNat 8 (presentState (s.measured n) (s.limits n)), b,
        BitVec.ofNat 8 (presentState (s.measured n) (s.limits n))] ++
        leBytes (sensorSize n) (s.measured n % Int.ofNat (2 ^ (8 * sensorSize n))).toNat))))

/-- REG_MODIFY, BAR0 and BAR2, and the performance counters (R429, R436, R443 to R445, R455, R557 to R565). -/
def Obligations.RegisterWindowsAndCounters : Prop :=
  -- REG_MODIFY (R12, R396, R429)
  (∀ s m c a w, s.Starts m 0x0203 c → s.Inv → a = leAt c.params 0 4 →
    w = ((s.regWord a &&& ~~~ BitVec.ofNat 32 (leAt c.params 4 4)) |||
      (BitVec.ofNat 32 (leAt c.params 8 4) &&& BitVec.ofNat 32 (leAt c.params 4 4))) &&&
      (BitVec.ofNat 32 (leAt c.params 4 4) ||| ~~~ w1cBits a) →
    (badRange a 1 = true → Gives (.regModify m) s fun t => t.Ended m stInvalidParam ∧ t.regs = (s.finish m stInvalidParam []).regs) ∧
    (badRange a 1 = false → s.writeRefused m a w = true → Gives (.regModify m) s fun t => t.Ended m stConflict) ∧
    (badRange a 1 = false → s.writeRefused m a w = false →
      exec (.regModify m) s = .next (((s.regRead m a).2.regWrite m a w).finish m stOk (leBytes 4 (s.regWord a).toNat)))) ∧
  -- BAR0_READ (R436, R440, R443, R444, R455)
  (∀ s a (es : List (BitVec 4)), (s.sep.linkUp = false → exec (.bar0Read a es) s = .next s) ∧
    (s.sep.linkUp = true → s.barServes = false ∨ s.barHit a = none → Gives (.bar0Read a es) s fun t => s.Sent t (.sepCpl 1 [])) ∧
    (∀ b o, s.sep.linkUp = true → s.barServes = true → s.barHit a = some (b, o) →
      (barSize o es.length = false → Gives (.bar0Read a es) s fun t => s.Sent t (.sepCpl 4 [])) ∧
      (barSize o es.length = true → b = true → exec (.bar0Read a es) s = .next (s.emit (.sepCpl 0
        ((es.zip (natsFrom 0 es.length)).flatMap (fun e => enabledBytes (s.bar2Word (o + 4 * e.2)) e.1))))) ∧
      (barSize o es.length = true → b = false → es = [0xF] → o < 0x160000 → s.readRefused .service o = false →
        (inCmdWin o = false → inReplyWin o = false → Gives (.bar0Read a es) s fun t =>
          s.Sent t (.sepCpl 0 (leBytes 4 (s.regWord o).toNat))) ∧
        (inReplyWin o = true → Gives (.bar0Read a es) s fun t => t.mbx = s.mbx ∧
          s.Sent t (.sepCpl 0 (leBytes 4 (leAt s.mbx.replyWin (o - 0x104000) 4 % 2 ^ 32))))))) ∧
  -- BAR0_WRITE (R425, R436, R443 to R445)
  (∀ s a (ws : List (Word × BitVec 4)), (s.sep.linkUp = false ∨ s.sep.cause ≠ 0 → exec (.bar0Write a ws) s = .next s) ∧
    (∀ o w en, s.sep.linkUp = true → s.sep.cause = 0 → s.barServes = true → s.barHit a = some (false, o) → ws = [(w, en)] →
      o % 4 = 0 → o < 0x160000 → s.servesBlock o = true →
      (inCmdWin o = true → en = 0xF → Gives (.bar0Write a ws) s fun t =>
        t.mbx = { s.mbx with cmdWin := cellWrites s.mbx.cmdWin (o - 0x102000) (leBytes 4 w.toNat) }) ∧
      (inCmdWin o = false → en ≠ 0xF → exec (.bar0Write a ws) s = .next (s.bump Reg.sepNarrow)) ∧
      (inCmdWin o = false → en = 0xF → o ≠ Reg.mbxDoorbell →
        (s.isOwner .service = false → exec (.bar0Write a ws) s = .next (s.bump Reg.mbxReject)) ∧
        (s.isOwner .service = true → s.writeRefused .service o w = false →
          exec (.bar0Write a ws) s = .next (s.regWrite .service o w)) ∧
        (s.isOwner .service = true → s.writeRefused .service o w = true → exec (.bar0Write a ws) s = .next s)))) ∧
  -- PMU_LO_READ (R557)
  (∀ s a, (pmuBank a = none → exec (.pmuLoRead a) s = .next s) ∧
    (∀ v o, s.Inv → pmuBank a = some (v, o) → Gives (.pmuLoRead a) s fun t =>
      t.pmuSet v = { s.pmuSet v with hold := if pmuIsLo o = true then some (o, (s.pmuLive v (o + 4)).getD 0) else none })) ∧
  -- CNT_CONFIG (R552, R556, R562, R563)
  (∀ s m c v op n w, s.Starts m 0x0901 c → s.Inv → v = byteAt c.params 0 → op = byteAt c.params 1 → n = byteAt c.params 2 →
    w = BitVec.ofNat 32 (leAt c.params 4 4) →
    (v ≠ m.num → c.fromOwner = false → Gives (.cntConfig m) s fun t => t.Ended m stNotOwner ∧ t.pmu = s.pmu) ∧
    (v = m.num ∨ c.fromOwner = true →
      (3 < v ∨ op = 0 ∨ 3 < op → Gives (.cntConfig m) s fun t => t.Ended m stInvalidParam ∧ t.pmu = s.pmu) ∧
      (v ≤ 3 → op = 1 → 7 < n ∨ hasNat pmuEvents (fieldOf w 7 0) = false → Gives (.cntConfig m) s fun t =>
        t.Ended m stInvalidParam ∧ t.pmu = s.pmu) ∧
      (v ≤ 3 → op = 1 → n ≤ 7 → hasNat pmuEvents (fieldOf w 7 0) = true → Gives (.cntConfig m) s fun t => t.Ended m stOk ∧
        t.reg (pmuReg Reg.pmuCtl v n) = w &&& regKept (pmuReg Reg.pmuCtl v n) &&& ~~~ absentBits s.part (pmuReg Reg.pmuCtl v n) ∧
        t.reg (pmuReg Reg.pmuAbase v n) = BitVec.ofNat 32 (leAt c.params 8 4) &&& ~~~ absentBits s.part (pmuReg Reg.pmuAbase v n) ∧
        t.reg (pmuReg Reg.pmuAmask v n) = BitVec.ofNat 32 (leAt c.params 12 4) &&& ~~~ absentBits s.part (pmuReg Reg.pmuAmask v n)) ∧
      (v ≤ 3 → op = 2 → Gives (.cntConfig m) s fun t => t.Ended m stOk ∧
        ∀ i < 8, (t.pmuSet v).cnt.getD i 0 = if w.toNat / 2 ^ i % 2 = 1 then 0 else (s.pmuSet v).cnt.getD i 0) ∧
      (v ≤ 3 → op = 3 → exec (.cntConfig m) s = .next ((s.pmuSetMode v w).finish m stOk [])))) ∧
  -- CNT_READ, CNT_SNAPSHOT (R557, R558, R560, R564, R565)
  (∀ s m c v a n, s.Starts m 0x0902 c → s.Inv → v = byteAt c.params 0 → a = leAt c.params 4 4 → n = leAt c.params 8 4 →
    (byteAt c.params 1 = 0 ∨ 3 < byteAt c.params 1 ∨ (byteAt c.params 1 = 1 ∧ 3 < v) → Gives (.cntRead m) s fun t =>
      t.Ended m stInvalidParam) ∧
    (byteAt c.params 1 = 1 → v ≤ 3 → Gives (.cntRead m) s fun t => t.pmu = s.pmu ∧ t.Yields m c
      (leBytes 4 (s.reg (Reg.pmuCfg + 0x100 * v)).toNat ++ leBytes 4 (s.reg (Reg.pmuOvf + 0x100 * v)).toNat ++
        leBytes 8 (s.cycles v) ++ leBytes 8 (s.cycles v) ++
        (natsFrom 0 8).flatMap (fun i => leBytes 8 ((s.pmuSet v).cnt.getD i 0) ++ leBytes 8 (s.cycles v)))) ∧
    (byteAt c.params 1 = 2 → 0 < n → a + n ≤ 512 → n ≤ 64 ∨ c.flags / 8 % 2 = 1 → Gives (.cntRead m) s fun t =>
      t.Yields m c ((natsFrom a n).flatMap (fun i => (s.vsRecord i).bytes))) ∧
    (byteAt c.params 1 = 3 → 0 < n → a + n ≤ 32768 → n ≤ 255 ∨ c.flags / 8 % 2 = 1 → Gives (.cntRead m) s fun t =>
      t.Yields m c (leBytes 8 s.pmu.rulesStamp ++ zeroBytes 8 ++
        (natsFrom a n).flatMap (fun i => leBytes 8 (s.ruleTotals i).1 ++ leBytes 8 (s.ruleTotals i).2)))) ∧
  (∀ s m c v, s.Starts m 0x0903 c → s.Inv → v = byteAt c.params 0 →
    (v ≤ 3 → Gives (.cntSnapshot m) s fun t => t.pmu = s.pmu ∧ t.Yields m c
      (leBytes 4 (s.reg (Reg.pmuCfg + 0x100 * v)).toNat ++ leBytes 4 (s.reg (Reg.pmuOvf + 0x100 * v)).toNat ++
        leBytes 8 (s.cycles v) ++ (natsFrom 0 8).flatMap (fun i => leBytes 8 ((s.pmuSet v).cnt.getD i 0)))) ∧
    (3 < v → Gives (.cntSnapshot m) s fun t => t.Ended m stInvalidParam ∧ t.pmu = s.pmu)) ∧
  -- BOX_OFFICE_SWEEP (R559)
  (∀ s b, (Gives (.boxOfficeSweep b) s fun t => t.pmu.narrow = [] ∧ t.ppc = { s.ppc with ruleCnt := [] } ∧
      t.pmu.rulesStamp = s.cycles 0 ∧ t.pmu.sweeps = (s.pmu.sweeps + 1) % 2 ^ 31 ∧ t.pmu.sets = s.pmu.sets) ∧
    (∀ n r, s.pmu.narrow = [n] → s.pmu.recs.find? (fun r => r.vsid = n.vsid) = some r → Gives (.boxOfficeSweep b) s fun t =>
      t.pmu.recs.find? (fun r => r.vsid = n.vsid) = some { r with
        stamp := s.cycles 0, rdCmd := r.rdCmd + n.rdCmd, wrCmd := r.wrCmd + n.wrCmd, rdBytes := r.rdBytes + n.rdBytes,
        wrBytes := r.wrBytes + n.wrBytes, rdLat := r.rdLat + n.rdLat, wrLat := r.wrLat + n.wrLat,
        oth := (r.oth + n.oth) % 2 ^ 32, err := (r.err + n.err) % 2 ^ 32 }))

/-- The service endpoint (R437, R438, R440 to R442, R446 to R459). -/
def Obligations.EndpointLinkDmaAndContainment : Prop :=
  -- PERST#, link, hot reset, function reset (R437, R438, R451, R453, R454)
  (∀ (s : State), Gives .sepPerstAssert s fun t => t.sep = { s.sep with
    flr := true, fetch := none, perst := true, linkUp := false, speed := 0, width := 0, reads := [] }) ∧
  (∀ (s : State), exec .sepPerstDeassert s = .next { s with sep := { s.sep with perst := false } }) ∧
  (∀ (s : State) v w, (s.sep.perst = true ∨ s.cfgBit Reg.sepCfg 0 = false → exec (.sepLinkUp v w) s = .next s) ∧
    (s.sep.perst = false → s.cfgBit Reg.sepCfg 0 = true →
      exec (.sepLinkUp v w) s = .next { s with sep := { s.sep with linkUp := true, speed := v, width := w } })) ∧
  (∀ (s : State), Gives .sepLinkDown s fun t => t.sep = { s.sep with
    fetch := none, linkUp := false, speed := 0, width := 0, reads := [] }) ∧
  (∀ (s : State), Gives .hotReset s fun t => t.sep = { s.sep with
    flr := true, fetch := none, linkUp := false, speed := 0, width := 0, reads := [] }) ∧
  (∀ (s : State), Gives .functionLevelReset s fun t => t.sep = { s.sep with flr := true, fetch := none }) ∧
  (∀ (s : State) c e, s.Inv → s.cmdOf .service = some c →
    (e = .sepPerstAssert ∨ e = .sepLinkDown ∨ e = .hotReset ∨ e = .functionLevelReset → Gives e s fun t =>
      if s.sep.fetch.isSome = true then t.Ended .service stInvalidParam else t.mbx = s.mbx)) ∧
  -- FLR_COMPLETE (R453, R457)
  (∀ (s : State), (s.sep.flr = false ∨ s.npOut ≠ 0 → exec .flrComplete s = .next s) ∧
    (s.sep.flr = true → s.npOut = 0 →
      (s.sep.cause = 0 → exec .flrComplete s = .next { s with sep := { s.sep.resetCfg with flr := false } }) ∧
      (s.sep.cause ≠ 0 → Gives .flrComplete s fun t => t.mbx = s.mbx ∧
        t.sep = { s.sep.resetCfg with flr := false, cause := 0, relPend := none }))) ∧
  -- CONFIG_WRITE (R440 to R442, R451 to R453, R457)
  (∀ (s : State) o w en, (s.sep.flr = true ∨ s.sep.linkUp = false → exec (.configWrite o w en) s = .next s)) ∧
  (∀ (s : State) w en (m : Word → Word), s.sep.flr = false → s.sep.linkUp = true → (∀ old, m old = mergeBytes old w en) →
    (Gives (.configWrite 0x04 w en) s fun t => t.sep.mse = (m s.sep.command).getLsbD 1 ∧ t.sep.bme = (m s.sep.command).getLsbD 2 ∧
      t.sep.parity = (m s.sep.command).getLsbD 6 ∧ t.sep.serr = (m s.sep.command).getLsbD 8 ∧
      (s.sep.bme = true → (m s.sep.command).getLsbD 2 = false → t.sep.fetch = none)) ∧
    (exec (.configWrite 0x10 w en) s = .next { s with sep := { s.sep with
      bar0 := s.sep.bar0 / 2 ^ 32 * 2 ^ 32 + (m (BitVec.ofNat 32 s.sep.bar0)).toNat / 2 ^ 21 * 2 ^ 21 } }) ∧
    (exec (.configWrite 0x14 w en) s = .next { s with sep := { s.sep with
      bar0 := (m (BitVec.ofNat 32 (s.sep.bar0 / 2 ^ 32))).toNat * 2 ^ 32 + s.sep.bar0 % 2 ^ 32 } }) ∧
    (exec (.configWrite 0x18 w en) s = .next { s with sep := { s.sep with
      bar2 := s.sep.bar2 / 2 ^ 32 * 2 ^ 32 + (m (BitVec.ofNat 32 s.sep.bar2)).toNat / 2 ^ 13 * 2 ^ 13 } }) ∧
    (exec (.configWrite 0x1C w en) s = .next { s with sep := { s.sep with
      bar2 := (m (BitVec.ofNat 32 (s.sep.bar2 / 2 ^ 32))).toNat * 2 ^ 32 + s.sep.bar2 % 2 ^ 32 } }) ∧
    (fieldOf (m (if s.sep.d3hot then 3 else 0)) 1 0 = 3 →
      exec (.configWrite 0x44 w en) s = .next { s with sep := { s.sep with d3hot := true } }) ∧
    (fieldOf (m (if s.sep.d3hot then 3 else 0)) 1 0 = 0 → Gives (.configWrite 0x44 w en) s fun t => t.sep.d3hot = false) ∧
    (Gives (.configWrite 0x58 w en) s fun t => t.sep = { s.sep with
      devCtl := m s.sep.devCtl &&& 0x00007FFF, flr := (m s.sep.devCtl).getLsbD 15,
      fetch := if (m s.sep.devCtl).getLsbD 15 = true then none else s.sep.fetch }) ∧
    (exec (.configWrite 0x78 w en) s = .next { s with sep := { s.sep with tag10 := (m (placeBit s.sep.tag10 12)).getLsbD 12 } }) ∧
    (Gives (.configWrite 0xB0 w en) s fun t =>
      t.sep.msixEn = (m (placeBit s.sep.msixEn 31 ||| placeBit s.sep.msixMask 30)).getLsbD 31 ∧
      t.sep.msixMask = (m (placeBit s.sep.msixEn 31 ||| placeBit s.sep.msixMask 30)).getLsbD 30) ∧
    (exec (.configWrite 0x104 w en) s = .next { s with sep := { s.sep with uncStat := s.sep.uncStat &&& ~~~ m 0 } }) ∧
    (exec (.configWrite 0x108 w en) s = .next { s with sep := { s.sep with uncMask := m s.sep.uncMask } }) ∧
    (exec (.configWrite 0x10C w en) s = .next { s with sep := { s.sep with uncSev := m s.sep.uncSev } }) ∧
    (exec (.configWrite 0x110 w en) s = .next { s with sep := { s.sep with corStat := s.sep.corStat &&& ~~~ m 0 } }) ∧
    (exec (.configWrite 0x114 w en) s = .next { s with sep := { s.sep with corMask := m s.sep.corMask } }) ∧
    (exec (.configWrite 0x228 w en) s = .next (if (m 0).getLsbD 31 = true ∧ s.sep.cause ≠ 0
      then { s with sep := { s.sep with relPend := some (s.now + ms 50) } } else s)) ∧
    (∀ o, o ∉ [0x04, 0x10, 0x14, 0x18, 0x1C, 0x44, 0x58, 0x78, 0xB0, 0x104, 0x108, 0x10C, 0x110, 0x114, 0x228] →
      exec (.configWrite o w en) s = .next s)) ∧
  -- DMA_COMPLETION (R447, R450, R451, R455, R456)
  (∀ (s : State) g a st (bs : List Byte), (∀ r ∈ s.sep.reads, r.tag ≠ g) → Gives (.dmaCompletion g a st bs) s fun t =>
    t.mbx = s.mbx ∧ t.sep = { s.sep with uncStat := s.sep.uncStat ||| place 1 16, corStat := s.sep.corStat ||| place 1 13 }) ∧
  (∀ (s : State) g a st (bs : List Byte) r, s.sep.reads.find? (fun r => r.tag = g) = some r → r.quarantined = true →
    s.sep.fetch = none → Gives (.dmaCompletion g a st bs) s fun t => t.mbx = s.mbx ∧
      t.sep = { s.sep with
        reads := s.sep.reads.filter (fun r => r.tag ≠ g), uncStat := s.sep.uncStat ||| place 1 16
        corStat := s.sep.corStat ||| place 1 13 } ∧
      (s.Inv → (t.reg Reg.sepLateCpl).toNat = satAt 0xFFFFFFFF ((s.reg Reg.sepLateCpl).toNat + 1))) ∧
  (∀ (s : State) g a st (bs : List Byte) r c, s.Inv → s.sep.reads.find? (fun r => r.tag = g) = some r → r.quarantined = false →
    s.cmdOf .service = some c →
    (∀ f, st = .success → s.sep.fetch = some f → f.left = 0 → s.dmaAlive = true →
      (bs.length < r.left → exec (.dmaCompletion g a st bs) s = .next { s with sep := { s.sep with
        reads := updWhere (fun y => y.tag = g) (fun y => { y with left := r.left - bs.length }) s.sep.reads,
        fetch := some { f with got := f.got ++ [(a, bs)] } } }) ∧
      (r.left ≤ bs.length → (∀ x ∈ s.sep.reads, x.tag = g ∨ x.quarantined = true) → Gives (.dmaCompletion g a st bs) s fun t =>
        t.sep = { s.sep with fetch := none, reads := s.sep.reads.filter (fun r => r.tag ≠ g) } ∧
        t.cmdOf .service = some { c with
          params := c.params ++ fetchBytes (f.got.length + 1) c.daddr (f.got ++ [(a, bs)]), fetching := false })) ∧
    (st ≠ .success → Gives (.dmaCompletion g a st bs) s fun t => t.sep.fetch = none ∧
      t.sep.reads = s.sep.reads.filter (fun r => r.tag ≠ g) ∧
      (s.sep.fetch.isSome = true → t.Ended .service stInvalidParam) ∧ (s.sep.fetch = none → t.mbx = s.mbx) ∧
      (st = .poisoned → t.sep.uncStat = s.sep.uncStat ||| place 1 12 ∧ t.sep.cause =
        if s.sep.cause ≠ 0 then s.sep.cause else if fieldOf s.sep.uncSev 12 12 = 1 then 1
        else if s.cfgBit Reg.sepCfg 1 = true then 2 else 0) ∧
      (st = .malformed → t.sep.uncStat = s.sep.uncStat ||| place 1 18 ∧ t.sep.cause =
        if s.sep.cause ≠ 0 then s.sep.cause else if fieldOf s.sep.uncSev 18 18 = 1 then 1 else 0) ∧
      (st = .unsupported ∨ st = .abort ∨ st = .retry → t.sep.uncStat = s.sep.uncStat ∧ t.sep.cause = s.sep.cause))) ∧
  -- COMPLETION_TIMEOUT, QUARANTINE_EXPIRY (R449, R450)
  (∀ (s : State) g r, s.sep.reads.find? (fun r => r.tag = g && !r.quarantined) = some r →
    (s.now < r.issuedAt + us 47500 → exec (.completionTimeout g) s = .next s) ∧
    (r.issuedAt + us 47500 ≤ s.now → Gives (.completionTimeout g) s fun t => t.sep.fetch = none ∧
      t.sep.reads = updWhere (fun y => y.tag = g) (fun y => { y with quarantined := true }) s.sep.reads ∧
      t.sep.uncStat = s.sep.uncStat ||| place 1 14 ∧
      (s.Inv → s.sep.fetch = none → t.mbx = s.mbx ∧
        (t.reg Reg.sepCto).toNat = satAt 0xFFFFFFFF ((s.reg Reg.sepCto).toNat + 1)))) ∧
  (∀ (s : State) g, s.sep.reads.find? (fun r => r.tag = g && !r.quarantined) = none →
    exec (.completionTimeout g) s = .next s) ∧
  (∀ (s : State) g, s.sep.fetch = none → exec (.quarantineExpiry g) s = .next
    (if s.sep.reads.any (fun r => r.tag = g && r.quarantined && r.issuedAt + ms 100 ≤ s.now) = true
      then { s with sep := { s.sep with reads := s.sep.reads.filter (fun r => r.tag ≠ g) } } else s)) ∧
  -- CONTAINMENT_RELEASE, CONTAINMENT_RELEASE_EFFECT (R446, R457)
  (∀ (s : State), exec .containmentRelease s = .next (if s.sep.cause = 0 then s
    else { s with sep := { s.sep with relPend := some (s.now + ms 50) } })) ∧
  (∀ (s : State), (s.sep.relPend = none ∨ (s.npOut ≠ 0 ∧ due s.sep.relPend s.now = false) →
      exec .containmentReleaseEffect s = .next s) ∧
    (s.Inv → s.sep.relPend.isSome = true → s.npOut = 0 ∨ due s.sep.relPend s.now = true → s.sep.cause ≠ 0 →
      Gives .containmentReleaseEffect s fun t => t.sep.cause = 0 ∧ t.sep.relPend = none ∧
        (t.reg Reg.sepEvtstat).getLsbD 3 = true)) ∧
  -- DOE_REQUEST, DOE_ABORT (R458, R459)
  (∀ (s : State) i, (Config.hasCipher s.part = true → i ≤ 1 → Gives (.doeRequest (.discovery i)) s fun t =>
      s.Sent t (.doe ([1, 0, 0, 0, 3, 0, 0, 0, 1, 0] ++ leBytes 1 i ++ leBytes 1 (1 - i)))) ∧
    (Config.hasCipher s.part = false → i = 0 → Gives (.doeRequest (.discovery i)) s fun t =>
      s.Sent t (.doe [1, 0, 0, 0, 3, 0, 0, 0, 1, 0, 0, 0])) ∧
    (1 < i ∨ (Config.hasCipher s.part = false ∧ i ≠ 0) → Gives (.doeRequest (.discovery i)) s fun t =>
      s.Sent t (.doe [1, 0, 0, 0, 3, 0, 0, 0, 0xFF, 0xFF, 0, 0]))) ∧
  (∀ (s : State) r, (Config.hasCipher s.part = false → exec (.doeRequest (.spdm r)) s = .next s) ∧
    (Config.hasCipher s.part = true → Gives (.doeRequest (.spdm r)) s fun t => t.sep.doe = some (doeObject 1 (s.spdm r)) ∧
      s.Sent t (.doe (doeObject 1 (s.spdm r))))) ∧
  (∀ (s : State), exec (.doeRequest .other) s = .next s ∧
    exec .doeAbort s = .next { s with sep := { s.sep with doe := none } })

/-- Drive ports and member commands (R181, R183, R186, R462 to R470). -/
def Obligations.DrivePortsAndMemberCommands : Prop :=
  -- containment and its end (R468 to R470)
  (∀ (s : State) p k, s.Inv → p < 24 →
    ((s.portOf p).contained = true → s.contain p k = s) ∧
    (∀ hist, (s.portOf p).contained = false → hist = (s.now :: (s.portOf p).history).filter (fun t => s.now < t + sec 60) →
      ∃ u : State, u.rge = s.rge ∧ u.bay.cmds = s.bay.cmds ∧ u.lcu = s.lcu ∧
        s.contain p k = ((u.dropDpRun p).failPort p).driveLost p ∧
        (u.reg Reg.dpxContain).toNat = satAt 0xFFFFFFFF ((s.reg Reg.dpxContain).toNat + 1) ∧
        u.portOf p = { s.portOf p with
          contained := true, cause := k, train := .down, speed := 0, width := 0, trainEnd := none, reads := [], history := hist
          stuck := (s.portOf p).stuck || s.cfg Reg.dpxDpccfg 19 16 < hist.length
          holdEnd := if (k = 1 ∨ k = 3 ∨ k = 4) ∧ hist.length ≤ s.cfg Reg.dpxDpccfg 19 16
            then some (s.now + ms (s.cfg Reg.dpxDpccfg 9 0)) else none })) ∧
  (∀ (s : State) p, s.Inv → p < 24 →
    (s.release p).portOf p = if ((s.bayOf p).st = .powered ∨ (s.bayOf p).st = .ready) ∧ (s.portOf p).perst = false
      then { s.portOf p with
        contained := false, stuck := false, holdEnd := none, train := .training, attempts := 1
        trainEnd := some (s.now + ms 250), speed := 0, width := 0 }
      else { s.portOf p with contained := false, stuck := false, holdEnd := none }) ∧
  (∀ (s : State) p, ((s.portOf p).train = .l0 ∧ (s.bayOf p).seated = true → exec (.surpriseLinkDown p) s = .next (s.contain p 1)) ∧
    ((s.portOf p).train ≠ .l0 ∨ (s.bayOf p).seated = false → exec (.surpriseLinkDown p) s = .next s) ∧
    (p < Config.bays s.part → (s.portOf p).train ≠ .down → exec (.drivePortFatalError p) s = .next (s.contain p 3)) ∧
    (Config.bays s.part ≤ p ∨ (s.portOf p).train = .down → exec (.drivePortFatalError p) s = .next s) ∧
    ((s.portOf p).contained = true → (s.portOf p).stuck = false → due (s.portOf p).holdEnd s.now = true →
      exec (.containmentHoldExpiry p) s = .next (s.release p)) ∧
    ((s.portOf p).contained = false ∨ (s.portOf p).stuck = true ∨ due (s.portOf p).holdEnd s.now = false →
      exec (.containmentHoldExpiry p) s = .next s)) ∧
  (∀ (s : State) w, s.Inv → Gives (.dpcrelWrite w) s fun t => t.bay.cmds = s.bay.cmds ∧ t.rge = s.rge ∧
    ∀ i < 24, t.portOf i = if w.getLsbD i = true ∧ (s.portOf i).stuck = true then (s.release i).portOf i else s.portOf i) ∧
  -- DRIVE_LINK_L0, LINK_TRAINING_TIMEOUT (R462, R537)
  (∀ (s : State) p v n,
    ((s.portOf p).train ≠ .training ∨ (s.portOf p).contained = true ∨ (s.portOf p).perst = true ∨ s.tk.fenced = true →
      exec (.driveLinkL0 p v n) s = .next s) ∧
    (s.Inv → p < 24 → (s.portOf p).train = .training → (s.portOf p).contained = false → (s.portOf p).perst = false →
      s.tk.fenced = false →
      (s.lcu.dpRun ≠ some p → Gives (.driveLinkL0 p v n) s fun t => t.rge = s.rge ∧ t.portOf p = { s.portOf p with
        train := .l0, speed := Nat.min v (s.cfg Reg.dpxCfg 18 16), width := Nat.min n 2, trainEnd := none
        reads := [⟨0, s.now, false, false⟩] }) ∧
      (s.lcu.dpRun = some p → Gives (.driveLinkL0 p v n) s fun t => t.lcu = { s.lcu with dpRun := none }))) ∧
  (∀ (s : State) p, ((s.portOf p).train ≠ .training ∨ due (s.portOf p).trainEnd s.now = false →
      exec (.linkTrainingTimeout p) s = .next s) ∧
    (s.Inv → p < 24 → (s.portOf p).train = .training → due (s.portOf p).trainEnd s.now = true →
      ((s.portOf p).attempts < 3 → Gives (.linkTrainingTimeout p) s fun t =>
        t.portOf p = { s.portOf p with attempts := (s.portOf p).attempts + 1, trainEnd := some (s.now + ms 251) } ∧
        s.Sent t (.pin (.perst p) false) ∧ s.Sent t (.pin (.perst p) true)) ∧
      (3 ≤ (s.portOf p).attempts → ∃ u : State, u.portOf p = { s.portOf p with train := .failed, trainEnd := none } ∧
        u.rge = s.rge ∧ u.lcu = s.lcu ∧
        exec (.linkTrainingTimeout p) s = .next (if s.lcu.dpRun = some p then (u.dropDpRun p).driveLost p else u)))) ∧
  -- DPX_COMPLETION_TIMEOUT, DPX_QUARANTINE_EXPIRY (R464, R465)
  (∀ (s : State) p g r, (s.portOf p).reads.find? (fun r => r.tag = g && !r.quarantined) = some r →
    (s.now < r.issuedAt + ms (s.cfg Reg.dpxCfg 15 8) → exec (.dpxCompletionTimeout p g) s = .next s) ∧
    (r.issuedAt + ms (s.cfg Reg.dpxCfg 15 8) ≤ s.now →
      (r.second = true → exec (.dpxCompletionTimeout p g) s = .next ((s.bump Reg.dpxCto).contain p 4)) ∧
      (s.Inv → p < 24 → r.second = false → Gives (.dpxCompletionTimeout p g) s fun t =>
        (t.reg Reg.dpxCto).toNat = satAt 0xFFFFFFFF ((s.reg Reg.dpxCto).toNat + 1) ∧
        t.portOf p = { s.portOf p with
          reads := updWhere (fun x => x.tag = g) (fun x => { x with quarantined := true }) (s.portOf p).reads ++
            [⟨(s.portOf p).freeTag, s.now, true, false⟩] }))) ∧
  (∀ (s : State) p g, ((s.portOf p).reads.find? (fun r => r.tag = g && !r.quarantined) = none →
      exec (.dpxCompletionTimeout p g) s = .next s) ∧
    (s.Inv → p < 24 → Gives (.dpxQuarantineExpiry p g) s fun t => t.portOf p = { s.portOf p with
      reads := (s.portOf p).reads.filter (fun r =>
        !(r.tag = g && r.quarantined && r.issuedAt + ms (2 * s.cfg Reg.dpxCfg 15 8) ≤ s.now)) })) ∧
  -- MEMBER_COMMAND_COMPLETION (R181, R183, R186, R465, R466)
  (∀ (s : State) i res bs, s.findCmd i = none →
    ((∀ p < 24, ∀ r ∈ (s.portOf p).reads, r.tag = i → r.quarantined = false) →
      exec (.memberCommandCompletion i res bs) s = .next s) ∧
    (∀ p r, s.Inv → p < 24 → r ∈ (s.portOf p).reads → r.tag = i → r.quarantined = true →
      Gives (.memberCommandCompletion i res bs) s fun t => t.rge = s.rge ∧
        (t.reg Reg.dpxLateCpl).toNat = satAt 0xFFFFFFFF ((s.reg Reg.dpxLateCpl).toNat + 1))) ∧
  (∀ (s : State) i bs c, s.findCmd i = some c →
    (c.purpose = .upkeep → exec (.memberCommandCompletion i .success bs) s = .next (s.dropCmd i)) ∧
    (∀ ring st pos seq, c.purpose = .stripe ring st pos seq →
      exec (.memberCommandCompletion i .success bs) s = .next ((s.dropCmd i).stripeCmdDone c ring st false)) ∧
    (∀ ring st row pos seq, c.purpose = .repair ring st row pos seq →
      exec (.memberCommandCompletion i .success bs) s = .next ((s.dropCmd i).repairDone ring st seq)) ∧
    (∀ g ring st pos row, c.purpose = .gather g ring st pos → c.rows = [row] →
      exec (.memberCommandCompletion i .success bs) s = .next ((s.dropCmd i).gatherBlock g st row pos (some (bs.getD 0 badBlock))) ∧
      (c.op = .read → ∀ d, exec (.memberCommandCompletion i (.error d) bs) s =
        .next ((s.dropCmd i).gatherBlock g st row pos (some badBlock)))) ∧
    (∀ d, c.op ≠ .read →
      (s.takesWrites c = false → exec (.memberCommandCompletion i (.error d) bs) s = .next ((s.dropCmd i).cmdPortFailed c)) ∧
      (s.takesWrites c = true → d = false → c.tries < 3 → Gives (.memberCommandCompletion i (.error d) bs) s fun t =>
        ∃ n : MemberCmd, n = { c with
            id := s.bay.nextCmd, tries := c.tries + 1, issuedAt := s.now
            deadline := some (s.now + ms (10 * s.cfg Reg.dpxIocfg 31 16)), abortEnd := none } ∧
          t.bay.cmds = s.bay.cmds.filter (fun c => c.id ≠ i) ++ [n] ∧ s.Sent t (.member n) ∧
          (s.Inv → (t.reg Reg.dpxIoretry).toNat = satAt 0xFFFFFFFF ((s.reg Reg.dpxIoretry).toNat + 1))) ∧
      (s.takesWrites c = true → d = true ∨ 3 ≤ c.tries →
        (c.purpose = .upkeep → exec (.memberCommandCompletion i (.error d) bs) s = .next ((s.dropCmd i).driveFailed c.bay)) ∧
        (∀ ring st pos seq, c.purpose = .stripe ring st pos seq → exec (.memberCommandCompletion i (.error d) bs) s =
          .next (((s.dropCmd i).stripeCmdDone c ring st true).memberFailed ring c.slot))))) ∧
  -- MEMBER_COMMAND_TIMEOUT, MEMBER_ABORT_TIMEOUT, HEDGE_EXPIRY (R466, R467)
  (∀ (s : State) i, s.findCmd i = none → exec (.memberCommandTimeout i) s = .next s ∧
    exec (.memberAbortTimeout i) s = .next s ∧ exec (.hedgeExpiry i) s = .next s) ∧
  (∀ (s : State) i c, s.findCmd i = some c →
    (due c.deadline s.now = false → exec (.memberCommandTimeout i) s = .next s) ∧
    (due c.deadline s.now = true → ∃ u : State, s.Sent u (.memberAbort i) ∧ u.rge = s.rge ∧
      u.bay.cmds = updWhere (fun x => x.id = i) (fun _ => { c with
        deadline := none, abortEnd := some (s.now + sec 1), purpose := .upkeep }) s.bay.cmds ∧
      exec (.memberCommandTimeout i) s = .next (if c.op = .read then u.readFailed c else u.writeFailed c false)) ∧
    (due c.abortEnd s.now = false → exec (.memberAbortTimeout i) s = .next s) ∧
    (due c.abortEnd s.now = true → exec (.memberAbortTimeout i) s = .next ((s.dropCmd i).contain c.bay 4)) ∧
    (∀ g ring st pos r, c.purpose = .gather g ring st pos → s.findRing ring = some r →
      (s.cfg Reg.dpxIocfg 7 0 = 0 ∨ c.hedged = true ∨ s.now < c.issuedAt + ms (s.cfg Reg.dpxIocfg 7 0) ∨ r.m ≤ r.levelOf st →
        exec (.hedgeExpiry i) s = .next s) ∧
      (0 < s.cfg Reg.dpxIocfg 7 0 → c.hedged = false → c.issuedAt + ms (s.cfg Reg.dpxIocfg 7 0) ≤ s.now → r.levelOf st < r.m →
        ∃ u : State, u.rge = s.rge ∧
          u.bay.cmds = updWhere (fun x => x.id = i) (fun x => { x with hedged := true }) s.bay.cmds ∧
          (s.Inv → (u.reg Reg.dpxHedged).toNat = satAt 0xFFFFFFFF ((s.reg Reg.dpxHedged).toNat + 1)) ∧
          exec (.hedgeExpiry i) s = .next (c.rows.foldl (fun t row => t.gatherBlock g st row pos none) u))) ∧
    (c.purpose = .upkeep → exec (.hedgeExpiry i) s = .next s))

/-- Bays and bay commands (R470 to R472, R474 to R488). -/
def Obligations.BaysAndBayCommands : Prop :=
  -- PRESENCE_ASSERT, DEBOUNCE_COMPLETE, PRESENCE_LOSS (R470, R474, R477, R484)
  (∀ (s : State) b, (Config.bays s.part ≤ b → exec (.presenceAssert b) s = .next s) ∧
    (s.Inv → b < Config.bays s.part → Gives (.presenceAssert b) s fun t => t.rge = s.rge ∧ t.bayOf b =
      if (s.bayOf b).st = .empty then { s.bayOf b with seated := true, st := .debounce, debounceEnd := some (s.now + ms 250) }
      else { s.bayOf b with seated := true })) ∧
  (∀ (s : State) b,
    ((s.bayOf b).st ≠ .debounce ∨ (s.bayOf b).seated = false ∨ due (s.bayOf b).debounceEnd s.now = false →
      exec (.debounceComplete b) s = .next s) ∧
    (s.Inv → b < 24 → (s.bayOf b).st = .debounce → (s.bayOf b).seated = true → due (s.bayOf b).debounceEnd s.now = true →
      Gives (.debounceComplete b) s fun t => t.bayOf b = { s.bayOf b with
          present := true, st := if s.bay.inputFault = true ∧ s.bay.holder = true then .inhibit else .wait, debounceEnd := none
          fault := 0, retryLeft := s.retryN b, inserts := satAt 0xFFFF ((s.bayOf b).inserts + 1), forced := false } ∧
        t.portOf b = { s.portOf b with contained := false, stuck := false, holdEnd := none, history := [] })) ∧
  (∀ (s : State) b, s.Inv → b < 24 →
    ((s.bayOf b).st = .empty → Gives (.presenceLoss b) s fun t => t.bayOf b = { s.bayOf b with seated := false } ∧ t.rge = s.rge) ∧
    ((s.bayOf b).st = .debounce → (s.bayOf b).present = false → Gives (.presenceLoss b) s fun t =>
      t.bayOf b = { s.bayOf b with seated := false, st := .empty, debounceEnd := none } ∧ t.rge = s.rge) ∧
    ((s.bayOf b).st ≠ .empty → (s.bayOf b).st ≠ .debounce ∨ (s.bayOf b).present = true → Gives (.presenceLoss b) s fun t =>
      (t.bayOf b).st = .empty ∧ (t.bayOf b).seated = false ∧ (t.bayOf b).present = false ∧ (t.bayOf b).drive = none ∧
      (t.bayOf b).pg = false ∧ (t.bayOf b).debounceEnd = none ∧ (t.bayOf b).forced = false)) ∧
  -- RAMP_START, POWER_GOOD, PERST_DELAY_EXPIRY, BAY_READY (R462, R474, R476, R478, R483)
  (∀ (s : State) b,
    (s.bay.holder = false ∨ (s.bayOf b).st ≠ .wait ∨ s.bay.inputFault = true ∨ s.cfg Reg.bayCfg 23 20 ≤ s.ramping ∨
      (∃ i < b, (s.bayOf i).st = .wait) → exec (.rampStart b) s = .next s) ∧
    (s.Inv → b < 24 → s.bay.holder = true → (s.bayOf b).st = .wait → s.bay.inputFault = false →
      s.ramping < s.cfg Reg.bayCfg 23 20 → (∀ i < b, (s.bayOf i).st ≠ .wait) →
      (s.cfgBit (Reg.bayBcfg + 0x10 * b) 10 = false → (s.bayOf b).forced = false → Gives (.rampStart b) s fun t =>
        (t.bayOf b).st = .off ∧ (t.bayOf b).pg = false) ∧
      (s.cfgBit (Reg.bayBcfg + 0x10 * b) 10 = true ∨ (s.bayOf b).forced = true → Gives (.rampStart b) s fun t =>
        t.bayOf b = { s.bayOf b with
          gate := true, pwrdis := false, st := .ramping
          rampEnd := some (s.now + ms (s.cfg (Reg.bayBcfg + 0x10 * b) 7 0 + 40)) } ∧
        s.Sent t (.pin (.pwrdis b) false) ∧ s.Sent t (.pin (.gate b) true)))) ∧
  (∀ (s : State) b, ((s.bayOf b).st ≠ .ramping → s.bay.holder = true ∨ (s.bayOf b).present = false ∨ (s.bayOf b).st ≠ .wait →
      exec (.powerGood b) s = .next s) ∧
    (s.Inv → b < 24 → (s.bayOf b).st = .ramping ∨ (s.bay.holder = false ∧ (s.bayOf b).present = true ∧ (s.bayOf b).st = .wait) →
      Gives (.powerGood b) s fun t => t.rge = s.rge ∧
        t.bayOf b = { s.bayOf b with st := .powered, pg := true, rampEnd := none, perstAt := some (s.now + ms 100) })) ∧
  (∀ (s : State) b,
    (((s.bayOf b).st ≠ .powered ∧ (s.bayOf b).st ≠ .ready) ∨ due (s.bayOf b).perstAt s.now = false ∨ s.tk.fenced = true →
      exec (.perstDelayExpiry b) s = .next s) ∧
    (s.Inv → b < 24 → (s.bayOf b).st = .powered ∨ (s.bayOf b).st = .ready → due (s.bayOf b).perstAt s.now = true →
      s.tk.fenced = false → Gives (.perstDelayExpiry b) s fun t => s.Sent t (.pin (.perst b) true) ∧
        t.bayOf b = { s.bayOf b with perstAt := none } ∧ t.portOf b = if (s.portOf b).contained = true
          then { s.portOf b with perst := false }
          else { s.portOf b with
            perst := false, train := .training, attempts := 1, trainEnd := some (s.now + ms 250), speed := 0, width := 0 })) ∧
  (∀ (s : State) b, ((s.bayOf b).st ≠ .powered ∨ (s.bayOf b).drive = none ∨ (s.portOf b).train ≠ .l0 →
      exec (.bayReady b) s = .next s) ∧
    (s.Inv → b < 24 → (s.bayOf b).st = .powered → (s.bayOf b).drive.isSome = true → (s.portOf b).train = .l0 →
      Gives (.bayReady b) s fun t => t.bayOf b = { s.bayOf b with st := .ready, retryLeft := s.retryN b } ∧
        t.portOf b = { s.portOf b with reads := (s.portOf b).reads.filter (fun r => r.quarantined) })) ∧
  -- PGTIMEOUT, OVERCURRENT, FASTTRIP, UNDERVOLT, RETRY_EXPIRY (R478 to R483)
  (∀ (s : State) b, ((s.bayOf b).st ≠ .ramping ∨ due (s.bayOf b).rampEnd s.now = false → exec (.pgtimeout b) s = .next s) ∧
    ((s.bayOf b).live = false → exec (.overcurrent b) s = .next s ∧ exec (.fasttrip b) s = .next s ∧
      exec (.undervolt b) s = .next s) ∧ ((s.bayOf b).st = .ramping → exec (.undervolt b) s = .next s)) ∧
  (∀ (s : State) b (e : Instr) k retry, s.Inv → b < 24 →
    (e = .pgtimeout b ∧ k = 3 ∧ (s.bayOf b).st = .ramping ∧ due (s.bayOf b).rampEnd s.now = true) ∨
      (e = .overcurrent b ∧ k = 1 ∧ (s.bayOf b).live = true) ∨ (e = .fasttrip b ∧ k = 2 ∧ (s.bayOf b).live = true) ∨
      (e = .undervolt b ∧ k = 4 ∧ ((s.bayOf b).st = .powered ∨ (s.bayOf b).st = .ready)) →
    retry = (s.cfgBit (Reg.bayBcfg + 0x10 * b) 11 && (s.bayOf b).retryLeft != 0) →
    (s.bay.holder = false → Gives e s fun t => (t.bayOf b).st = .wait ∧ (t.bayOf b).pg = false) ∧
    (s.bay.holder = true → Gives e s fun t => (t.bayOf b).fault = k ∧ (t.bayOf b).pg = false ∧ (t.bayOf b).rampEnd = none ∧
      (t.bayOf b).st = (if retry = true then .retryWait else .fault) ∧
      (t.bayOf b).retryAt = (if retry = true then some (s.now + sec 1) else none) ∧
      ((s.portOf b).train ≠ .l0 → s.bay.cmds = [] → (t.bayOf b).faults = satAt 0xFFFF ((s.bayOf b).faults + 1)) ∧
      s.Sent t (.pin (.pwrdis b) true) ∧ s.Sent t (.pin (.gate b) false))) ∧
  (∀ (s : State) b, ((s.bayOf b).st ≠ .retryWait ∨ due (s.bayOf b).retryAt s.now = false → exec (.retryExpiry b) s = .next s) ∧
    (s.Inv → b < 24 → (s.bayOf b).st = .retryWait → due (s.bayOf b).retryAt s.now = true → Gives (.retryExpiry b) s fun t =>
      t.bayOf b = { s.bayOf b with
        st := if s.bay.inputFault = true then .inhibit else .wait, retryAt := none
        retryLeft := (s.bayOf b).retryLeft - 1 })) ∧
  -- BAY_INPUT_FAULT, BAY_INPUT_RESTORED (R481)
  (∀ (s : State), (s.bay.holder = false → exec .bayInputFault s = .next { s with bay := { s.bay with inputFault := true } }) ∧
    (s.Inv → s.bay.holder = true → Gives .bayInputFault s fun t => t.bay.inputFault = true ∧
      ∀ b < Config.bays s.part, (t.bayOf b).st =
        if (s.bayOf b).st = .empty ∨ (s.bayOf b).st = .off ∨ (s.bayOf b).st = .fault then (s.bayOf b).st else .inhibit) ∧
    exec .bayInputRestored s = .next { s with bay := { s.bay with
      inputFault := false, bays := updWhere (fun b => b.st = .inhibit) (fun b => { b with st := .wait }) s.bay.bays } }) ∧
  -- the holder (R471, R472)
  (∀ (s : State) (e : Instr), s.Inv → (e = .bholdARise ∧ s.slot = .b) ∨ (e = .holderRegain ∧ s.slot = .a) → s.bay.holder = false →
    s.tk.fenced = false → Gives e s fun t => t.bay.holder = true ∧ t.bay.bholdHigh = (s.slot == .b) ∧
      ∀ b < Config.bays s.part, ∀ x, x = { s.bayOf b with
          fault := 0, retryLeft := s.retryN b, led := 4, retryAt := none, cycleAt := none, forced := false } →
        t.bayOf b = if x.st = .powered ∨ x.st = .ready then { x with gate := true, pwrdis := false }
          else if x.seated = true then { x with
            st := .debounce, present := false, pg := false, debounceEnd := some (s.now + ms 250) }
          else x) ∧
  (∀ (s : State), (s.slot = .a ∨ s.bay.holder = true ∨ s.tk.fenced = true →
      exec .bholdARise s = .next { s with bay := { s.bay with bholdHigh := true } }) ∧
    (s.slot = .b ∨ s.bay.holder = true ∨ s.tk.fenced = true → exec .holderRegain s = .next s) ∧
    (s.slot = .a → s.bay.holder = false → s.tk.fenced = false → Gives .holderRegain s fun t => s.Sent t (.pin .bholdA false)) ∧
    exec .bholdAFall s = .next { s with bay :=
      if s.slot = .b then { s.bay with
        bholdHigh := false, holder := false, bays := s.bay.bays.map (fun b => { b with gate := false, pwrdis := false }) }
      else { s.bay with bholdHigh := false } }) ∧
  -- BAY_POWER, POWER_CYCLE_DELAY (R486)
  (∀ s m c b op, s.Starts m 0x0801 c → s.Inv → b = byteAt c.params 0 → op = byteAt c.params 1 →
    (23 < b ∨ (b < Config.bays s.part ∧ s.bay.holder = true ∧ 2 < op) → Gives (.bayPower m) s fun t =>
      t.Ended m stInvalidParam ∧ t.bay = s.bay) ∧
    (b ≤ 23 → Config.bays s.part ≤ b → Gives (.bayPower m) s fun t => t.Ended m stAbsent ∧ t.bay = s.bay) ∧
    (b < Config.bays s.part → s.bay.holder = false → Gives (.bayPower m) s fun t => t.Ended m stNotOwner ∧ t.bay = s.bay) ∧
    (b < Config.bays s.part → s.bay.holder = true → op ≤ 2 →
      (op ≠ 1 → s.inUse b = true → Gives (.bayPower m) s fun t => t.Ended m stConflict ∧ t.bay = s.bay) ∧
      (op = 1 → (s.bayOf b).st = .empty ∨ (s.bayOf b).st = .fault → Gives (.bayPower m) s fun t =>
        t.Ended m stConflict ∧ t.bay = s.bay) ∧
      (op = 1 → (s.bayOf b).st = .off → Gives (.bayPower m) s fun t => t.Ended m stOk ∧ t.bayOf b = { s.bayOf b with
        st := if s.bay.inputFault = true then .inhibit else .wait, forced := true, cycleAt := none }) ∧
      (op = 1 → (s.bayOf b).st ∉ [.off, .empty, .fault] → Gives (.bayPower m) s fun t => t.Ended m stOk ∧ t.bay = s.bay) ∧
      (op ≠ 1 → s.inUse b = false → (s.bayOf b).st = .empty ∨ (s.bayOf b).st = .fault → Gives (.bayPower m) s fun t =>
        t.Ended m stOk ∧ t.bay = s.bay) ∧
      (op ≠ 1 → s.inUse b = false → (s.bayOf b).st ≠ .empty → (s.bayOf b).st ≠ .fault → Gives (.bayPower m) s fun t =>
        t.Ended m stOk ∧ (t.bayOf b).st = .off ∧ (t.bayOf b).pg = false ∧ (t.bayOf b).forced = false ∧
        (t.bayOf b).present = true ∧ (t.bayOf b).cycleAt = (if op = 2 then some (s.now + sec 1) else none)))) ∧
  (∀ (s : State) b, ((s.bayOf b).st ≠ .off ∨ due (s.bayOf b).cycleAt s.now = false → exec (.powerCycleDelay b) s = .next s) ∧
    (s.Inv → b < 24 → (s.bayOf b).st = .off → due (s.bayOf b).cycleAt s.now = true → Gives (.powerCycleDelay b) s fun t =>
      t.bayOf b = { s.bayOf b with
        st := if s.bay.inputFault = true then .inhibit else .wait, forced := true, cycleAt := none })) ∧
  -- BAY_LED, BAY_CLEAR, BAY_QUERY (R470, R484, R486 to R488)
  (∀ s m c b p, s.Starts m 0x0802 c → s.Inv → b = byteAt c.params 0 → p = byteAt c.params 1 →
    (23 < b ∨ (b < Config.bays s.part ∧ s.bay.holder = true ∧ 4 < p) → Gives (.bayLed m) s fun t =>
      t.Ended m stInvalidParam ∧ t.bay = s.bay) ∧
    (b ≤ 23 → Config.bays s.part ≤ b → Gives (.bayLed m) s fun t => t.Ended m stAbsent ∧ t.bay = s.bay) ∧
    (b < Config.bays s.part → s.bay.holder = false → Gives (.bayLed m) s fun t => t.Ended m stNotOwner ∧ t.bay = s.bay) ∧
    (b < Config.bays s.part → s.bay.holder = true → p ≤ 4 → Gives (.bayLed m) s fun t => t.Ended m stOk ∧
      t.bayOf b = { s.bayOf b with led := p } ∧ s.Sent t (.pin (.led b) (p != 0)))) ∧
  (∀ s m c b latched, s.Starts m 0x0803 c → s.Inv → b = byteAt c.params 0 → latched = ((s.bayOf b).st == .fault ||
      (s.bayOf b).st == .retryWait || ((s.bayOf b).st == .empty && (s.bayOf b).fault != 0)) →
    (23 < b → Gives (.bayClear m) s fun t => t.Ended m stInvalidParam ∧ t.bay = s.bay) ∧
    (b ≤ 23 → Config.bays s.part ≤ b → Gives (.bayClear m) s fun t => t.Ended m stAbsent ∧ t.bay = s.bay) ∧
    (b < Config.bays s.part → s.bay.holder = false → Gives (.bayClear m) s fun t => t.Ended m stNotOwner ∧ t.bay = s.bay) ∧
    (b < Config.bays s.part → s.bay.holder = true → (latched = false → (s.portOf b).stuck = false → Gives (.bayClear m) s fun t =>
        t.Ended m stConflict ∧ t.bay = s.bay) ∧
      (latched = true ∨ (s.portOf b).stuck = true → Gives (.bayClear m) s fun t => t.Ended m stOk ∧ (t.portOf b).stuck = false ∧
        t.bayOf b = if latched = true then { s.bayOf b with
          fault := 0, retryLeft := s.retryN b, retryAt := none
          st := if (s.bayOf b).st = .empty then .empty else if s.bay.inputFault = true then .inhibit else .wait }
        else s.bayOf b))) ∧
  (∀ s m c b, s.Starts m 0x0804 c → s.Inv → b = byteAt c.params 0 →
    (23 < b → Gives (.bayQuery m) s fun t => t.Ended m stInvalidParam) ∧
    (b ≤ 23 → Config.bays s.part ≤ b → Gives (.bayQuery m) s fun t => t.Ended m stAbsent) ∧
    (∀ x p, b < Config.bays s.part → x = s.bayOf b → p = s.portOf b → Gives (.bayQuery m) s fun t => t.bay = s.bay ∧
      ∃ v i, v < 65536 ∧ i < 65536 ∧ t.Yields m c (leBytes 1 x.st.code ++
        leBytes 1 (if s.bay.holder = true then x.fault else 0) ++ leBytes 1 x.retryLeft ++
        leBytes 1 ((if x.present then 1 else 0) + (if s.bay.holder then 2 else 0) + (if x.pg then 4 else 0) +
          (if x.pwrdis then 8 else 0) + (if p.contained then 16 else 0)) ++
        leBytes 2 v ++ leBytes 2 i ++ leBytes 1 p.speed ++ leBytes 1 p.width ++ leBytes 1 x.pattern ++ zeroBytes 1 ++
        leBytes 2 x.inserts ++ leBytes 2 x.faults)))

/-- Live calibration (R528 to R545). -/
def Obligations.LiveCalibration : Prop :=
  -- MARGIN_SCAN, MARGIN_SCAN_COMPLETE (R528 to R532)
  (∀ (s : State) l, (lanePort l = none → exec (.marginScan l) s = .next s) ∧
    (∀ p, lanePort l = some p →
      (s.pwr.up = false ∨ s.cfgBit Reg.lcuSdcfg 31 = false ∨ portPresent s.part p = false ∨ s.linkUp p = false ∨
        (∃ k ∈ portLanes p, (s.laneOf k).scanning = true) ∨ s.scanDue l = false → exec (.marginScan l) s = .next s) ∧
      (s.pwr.up = true → s.cfgBit Reg.lcuSdcfg 31 = true → portPresent s.part p = true → s.linkUp p = true →
        (∀ k ∈ portLanes p, (s.laneOf k).scanning = false) → s.scanDue l = true → Gives (.marginScan l) s fun t =>
        t.laneOf l = { s.laneOf l with scanning := true, started := some s.now } ∧ (∀ k, k ≠ l → t.laneOf k = s.laneOf k)))) ∧
  (∀ (s : State) l r p low, lanePort l = some p → low = (s.lowScan p r || (decide (p < 8) && s.cfg Reg.lcuFeclim 23 0 < r.fecHigh)) →
    (s.noteScan l p r).laneOf l = { s.laneOf l with
      lane := l, eyeH := satAt 255 r.height, eyeW := satAt 255 r.width
      below := if low = true then satAt 15 ((s.laneOf l).below + 1) else 0, warn := s.warnScan p r, scanning := false }) ∧
  (∀ (s : State) l r, (lanePort l = none ∨ (s.laneOf l).scanning = false → exec (.marginScanComplete l r) s = .next s) ∧
    (∀ p, lanePort l = some p → (s.laneOf l).scanning = true →
      (s.linkUp p = false → Gives (.marginScanComplete l r) s fun t => t.laneOf l = { s.laneOf l with scanning := false } ∧
        t.lcu.retrains = s.lcu.retrains) ∧
      (∀ u, s.linkUp p = true → u = s.noteScan l p r → (Gives (.marginScanComplete l r) s fun t => t.lcu.lanes = u.lcu.lanes) ∧
        (s.cfgBit Reg.lcuSdcfg 30 = false ∨ (∀ k ∈ portLanes p, (u.laneOf k).below < s.cfg Reg.lcuSdcfg 11 8) →
          Gives (.marginScanComplete l r) s fun t => t.lcu.retrains = s.lcu.retrains ∧ t.lcu.defer = dropNat s.lcu.defer p) ∧
        (∀ k, s.cfgBit Reg.lcuSdcfg 30 = true → k ∈ portLanes p → s.cfg Reg.lcuSdcfg 11 8 ≤ (u.laneOf k).below →
          s.testedPort ≠ some p → s.rtBusy p = false →
          (s.rtOk p = false → p < 8 → hasNat s.lcu.defer p = false → Gives (.marginScanComplete l r) s fun t =>
            t.lcu = { u.lcu with defer := s.lcu.defer ++ [p] } ∧
            (s.Inv → (t.reg Reg.lcuDefers).toNat = satAt 0xFFFFFFFF ((s.reg Reg.lcuDefers).toNat + 1))) ∧
          (∀ q, s.rtOk p = true → p < 4 → s.rtTarget p = some q → Gives (.marginScanComplete l r) s fun t =>
            t.lcu = { u.lcu with
              defer := dropNat s.lcu.defer p, retrains := s.lcu.retrains ++ [⟨p, q, .relearn, some (s.now + ms 5), false⟩] } ∧
            ∀ i ∈ s.identsOn p, t.identPort i = q) ∧
          (s.rtOk p = true → 4 ≤ p → p < 8 → hasNat (Config.midplane s.part) (p - 4) = false →
            Gives (.marginScanComplete l r) s fun t => t.lcu = { u.lcu with
              defer := dropNat s.lcu.defer p, retrains := s.lcu.retrains ++ [⟨p, p, .routeMove, some (s.now + ms 1), false⟩] }))))) ∧
  -- the phases of a retrain (R532, R535, R536)
  (∀ (s : State), (s.lcu.retrains.find? (fun r => r.phase = .relearn && due r.deadline s.now) = none →
      exec .relearnWaitExpiry s = .next s) ∧
    (∀ r, s.lcu.retrains.find? (fun r => r.phase = .relearn && due r.deadline s.now) = some r →
      exec .relearnWaitExpiry s = .next { s with lcu := { s.lcu with
        retrains := updWhere (fun x => x.port = r.port) (fun x => { x with phase := .draining, deadline := none }) s.lcu.retrains } })) ∧
  (∀ (s : State), (s.lcu.retrains.find? (fun r => r.phase = .draining && (s.egPort r.port).queue.isEmpty) = none →
      exec .egressDrained s = .next s) ∧
    (∀ r, s.lcu.retrains.find? (fun r => r.phase = .draining && (s.egPort r.port).queue.isEmpty) = some r →
      Gives .egressDrained s fun t => t.mac = { s.mac with hostUp := dropNat s.mac.hostUp r.port } ∧
        t.lcu = { s.lcu with retrains := updWhere (fun x => x.port = r.port) (fun x => { x with phase := .training }) s.lcu.retrains } ∧
        (r.forTest = true → t.tst.live = s.tst.live.map (fun l => { l with moving := false })) ∧
        (r.forTest = false → t.tst = s.tst))) ∧
  (∀ (s : State), (s.lcu.retrains.find? (fun r => r.phase = .routeMove && due r.deadline s.now) = none →
      exec .routeMoveWait s = .next s) ∧
    (∀ r, s.Inv → s.lcu.retrains.find? (fun r => r.phase = .routeMove && due r.deadline s.now) = some r → 4 ≤ r.port → r.port < 8 →
      (Gives .routeMoveWait s fun t => (t.fabPort (r.port - 4)).pcs = false) ∧
      ((s.fabPort (r.port - 4)).up = false → Gives .routeMoveWait s fun t => t.lcu = { s.lcu with
        retrains := updWhere (fun x => x.port = r.port) (fun x => { x with phase := .training, deadline := none }) s.lcu.retrains }))) ∧
  (∀ (s : State), (s.lcu.retrains.find? (fun r => r.phase = .notice && due r.deadline s.now) = none →
      exec .retrainNoticeTimeout s = .next s) ∧
    (∀ r, s.lcu.retrains.find? (fun r => r.phase = .notice && due r.deadline s.now) = some r → r.port < 8 →
      (r.forTest = false → Gives .retrainNoticeTimeout s fun t => t.lcu = { s.lcu with
        retrains := s.lcu.retrains.filter (fun x => x.port ≠ r.port)
        defer := if hasNat s.lcu.defer r.port = true then s.lcu.defer else s.lcu.defer ++ [r.port] }) ∧
      (r.forTest = true → Gives .retrainNoticeTimeout s fun t => t.tst.live = none ∧ (∀ x ∈ t.lcu.retrains, x.port ≠ r.port)))) ∧
  -- RETRAIN_CHECK, PARKED_RETRY, DRIVE_PORT_RETRAIN_END (R532, R533, R537)
  (∀ (s : State) (l : List ScanResult) f, f = (fun r : Retrain =>
      decide (r.phase = .training) && !r.forTest && decide ((portLanes r.port).length = l.length)) →
    (s.lcu.retrains.find? f = none → exec (.retrainCheck l) s = .next s) ∧
    (∀ r, s.lcu.retrains.find? f = some r →
      ((∃ x ∈ l, s.lowScan r.port x = true) → Gives (.retrainCheck l) s fun t => t.mac = s.mac ∧
        t.lcu.retrains = s.lcu.retrains.filter (fun x => x.port ≠ r.port) ∧
        t.lcu.parked = s.lcu.parked.filter (fun x => x.1 ≠ r.port) ++ [(r.port, s.now + sec 600)]) ∧
      ((∀ x ∈ l, s.lowScan r.port x = false) → (Gives (.retrainCheck l) s fun t =>
          t.lcu.retrains = s.lcu.retrains.filter (fun x => x.port ≠ r.port) ∧
          t.lcu.parked = s.lcu.parked.filter (fun x => x.1 ≠ r.port)) ∧
        (r.port < 4 → Gives (.retrainCheck l) s fun t => t.mac = { s.mac with hostUp := addNat s.mac.hostUp r.port } ∧
          (s.Inv → (t.reg Reg.lcuRetrains).toNat = satAt 0xFFFFFFFF ((s.reg Reg.lcuRetrains).toNat + 1)) ∧
          t.identPort r.port = r.port) ∧
        (s.Inv → 4 ≤ r.port → r.port < 8 → s.lcu.exempt = false → Gives (.retrainCheck l) s fun t =>
          t.fabPort (r.port - 4) = { s.fabPort (r.port - 4) with pcs := true })))) ∧
  (∀ (s : State) p, exec (.parkedRetry p) s = .next
    (if s.lcu.parked.any (fun e => e.1 = p && e.2 ≤ s.now) = true ∧ (∀ r ∈ s.lcu.retrains, ¬ (r.port < 4 ↔ p < 4))
      then { s with lcu := { s.lcu with
        parked := updWhere (fun e => e.1 = p) (fun e => (e.1, s.now + sec 600)) s.lcu.parked
        retrains := s.lcu.retrains ++ [⟨p, s.identPort p, .training, none, false⟩] } }
      else s)) ∧
  (∀ (s : State) p b, (s.lcu.dpRun ≠ some p ∨ s.testedPort = some (8 + p) → exec (.drivePortRetrainEnd p b) s = .next s) ∧
    (s.Inv → p < 24 → s.lcu.dpRun = some p → s.testedPort ≠ some (8 + p) →
      (b = true → Gives (.drivePortRetrainEnd p b) s fun t => t.lcu = { s.lcu with dpRun := none }) ∧
      (b = false → Gives (.drivePortRetrainEnd p b) s fun t => t.lcu = s.lcu ∧ t.portOf p = { s.portOf p with
          train := .training, attempts := 1, trainEnd := some (s.now + ms 250), speed := 0, width := 0 } ∧
        (t.reg Reg.lcuDpretrain).toNat = satAt 0xFFFFFFFF ((s.reg Reg.lcuDpretrain).toNat + 1)))) ∧
  -- HBM_PASS, HBM_SLICE, ECC_BURST (R538 to R540)
  (∀ (s : State) k c, (s.pwr.up = false ∨ 4 ≤ k ∨ s.cfgBit Reg.lcuHbmcfg 31 = false ∨ hasNat s.pwr.shed k = true →
      exec (.hbmPass k c) s = .next s) ∧
    (∀ t c0, s.lcu.hbm.lastPass.getD k none = some (t, c0) → s.now < t + sec (s.cfg Reg.lcuHbmcfg 11 0) →
      (c - c0).natAbs < s.cfg Reg.lcuHbmcfg 20 16 → exec (.hbmPass k c) s = .next s) ∧
    (s.pwr.up = true → k < 4 → s.cfgBit Reg.lcuHbmcfg 31 = true → hasNat s.pwr.shed k = false →
      (∀ t c0, s.lcu.hbm.lastPass.getD k none = some (t, c0) →
        t + sec (s.cfg Reg.lcuHbmcfg 11 0) ≤ s.now ∨ s.cfg Reg.lcuHbmcfg 20 16 ≤ (c - c0).natAbs) →
      (s.lcu.hbm.pass = none → s.lcu.hbm.waiting = [] → Gives (.hbmPass k c) s fun t => t.lcu.hbm = { s.lcu.hbm with
        pass := some (k, 0), lastPass := setAt s.lcu.hbm.lastPass k (some (s.now, c)) }) ∧
      (s.lcu.hbm.pass ≠ none → Gives (.hbmPass k c) s fun t => t.lcu.hbm = { s.lcu.hbm with
        waiting := s.lcu.hbm.waiting.filter (fun w => w.1 ≠ k) ++ [(k, c)] }))) ∧
  (∀ (s : State), (∀ u us, s.lcu.hbm.pc = none → s.lcu.hbm.urgent = u :: us → Gives .hbmSlice s fun t =>
      t.lcu.hbm.pc = some (u, 1) ∧ t.lcu.hbm.urgent = s.lcu.hbm.urgent) ∧
    (∀ k ch, s.lcu.hbm.pc = none → s.lcu.hbm.urgent = [] → s.lcu.hbm.pass = some (k, ch) →
      (hasNat s.pwr.shed k = false → Gives .hbmSlice s fun t => t.lcu.hbm.pc = some (32 * k + ch, 1) ∧
        (ch < 31 → t.lcu.hbm.pass = some (k, ch + 1))) ∧
      (hasNat s.pwr.shed k = true → Gives .hbmSlice s fun t => t.lcu.hbm.pc = none ∧
        (s.lcu.hbm.waiting = [] → t.lcu.hbm.pass = none))) ∧
    (∀ c n, s.lcu.hbm.pc = some (c, n) →
      (n + 1 < 40 → exec .hbmSlice s = .next { s with lcu := { s.lcu with hbm := { s.lcu.hbm with pc := some (c, n + 1) } } }) ∧
      (40 ≤ n + 1 → Gives .hbmSlice s fun t =>
        t.lcu.hbm = { s.lcu.hbm with pc := none, last := c, urgent := dropNat s.lcu.hbm.urgent c } ∧
        (s.Inv → (t.reg Reg.lcuHbmrt).toNat = satAt 0xFFFFFFFF ((s.reg Reg.lcuHbmrt).toNat + 1))))) ∧
  (∀ (s : State) c, exec (.eccBurst c) s = .next
    (if s.pwr.up = true ∧ c < 128 ∧ hasNat s.pwr.shed (c / 32) = false
      then { s with lcu := { s.lcu with hbm := { s.lcu.hbm with urgent := addNat s.lcu.hbm.urgent c } } } else s)) ∧
  -- CHOP_AVERAGE, SENSOR_TRIM (R541 to R545)
  (∀ (s : State) c v e, e = clampTo 1500 v →
    (.bpc ∉ s.pwr.railsUp ∨ 24 < c ∨ (c < 24 ∧ Config.bays s.part ≤ c) → exec (.chopAverage c v) s = .next s) ∧
    (s.Inv → .bpc ∈ s.pwr.railsUp → c = 24 ∨ c < Config.bays s.part → Gives (.chopAverage c v) s fun t =>
      (∀ i, i ≠ c → t.lcu.offsets.getD i none = s.lcu.offsets.getD i none) ∧
      (s.lcu.offsets.getD c none = none → t.lcu.offsets.getD c none = some e) ∧
      (∀ o, s.lcu.offsets.getD c none = some o → t.lcu.offsets.getD c none = some (o + clampTo 10 (e - o))) ∧
      (e = v → t.regs = s.regs) ∧ (e ≠ v → (t.reg Reg.lcuBpcoor).getLsbD (if c = 24 then 31 else c) = true))) ∧
  (∀ (s : State) (ds : List Int), (s.pwr.up = false → exec (.sensorTrim ds) s = .next s) ∧
    (s.pwr.up = true → Gives (.sensorTrim ds) s fun t =>
      (∀ i < 32, ∀ d, ds[i]? = some d → t.lcu.trims.getD i 0 = s.lcu.trims.getD i 0 - clampTo 2 d ∧
        hasNat t.lcu.faulty i = if hasNat s.lcu.faulty i = true then decide (16 < d.natAbs) else decide (64 < d.natAbs)) ∧
      (∀ i < 32, ds[i]? = none → t.lcu.trims.getD i 0 = s.lcu.trims.getD i 0 ∧ hasNat t.lcu.faulty i = hasNat s.lcu.faulty i)))

/-- Tests, boundary scan and the time base (R567 to R584, R595). -/
def Obligations.LiveTestsBoundaryScanAndTimeBase : Prop :=
  -- TEST_START (R567, R568, R570, R573 to R578, R581)
  (∀ s m c t u fl p, s.Starts m 0x0A01 c → s.Inv → t = byteAt c.params 0 → u = byteAt c.params 1 → fl = byteAt c.params 2 →
    p = leAt c.params 4 4 →
    (testAbsent s.part t u = true → Gives (.testStart m) s fun x => x.Ended m stAbsent ∧ x.tst = s.tst) ∧
    (testAbsent s.part t u = false →
      (testKnown t = false ∨ testUnits t < u ∨ 10000 < p ∨ (0 < p ∧ p < 10) ∨ 1 < fl ∨ byteAt c.params 3 ≠ 0 →
        Gives (.testStart m) s fun x => x.Ended m stInvalidParam ∧ x.tst = s.tst) ∧
      (testKnown t = true → u ≤ testUnits t → p = 0 ∨ 10 ≤ p → p ≤ 10000 → fl ≤ 1 → byteAt c.params 3 = 0 →
        (s.tst.live ≠ none → Gives (.testStart m) s fun x => x.Ended m stBusy ∧ x.tst = s.tst) ∧
        (s.tst.live = none → t = 4 → s.bay.holder = false → Gives (.testStart m) s fun x => x.Ended m stNotOwner ∧ x.tst = s.tst) ∧
        (s.tst.live = none → t ≠ 4 ∨ s.bay.holder = true →
          (s.testConflict t u = true → Gives (.testStart m) s fun x => x.Ended m stConflict ∧ x.tst = s.tst) ∧
          (s.testConflict t u = false → testOffline t = true → Gives (.testStart m) s fun x => x.Ended m stOk ∧
            x.hce.halted = true ∧ x.pwr.restart = some ⟨1, some (t, fl % 2 == 1), true, false⟩ ∧ x.tst = s.tst) ∧
          (s.testConflict t u = false → testOffline t = false → Gives (.testStart m) s fun x => x.Ended m stOk ∧
            x.tst.live = some ⟨t, u, if p = 0 then 1000 else p, s.now, t == 1 || t == 2 || t == 4⟩ ∧
            x.testRec t = ⟨t, u, 1, 0, 0, 0, 0⟩ ∧
            (t = 1 → ∃ q, ⟨u, q, .relearn, some (s.now + ms 5), true⟩ ∈ x.lcu.retrains) ∧
            (t = 2 → ∃ r ∈ x.lcu.retrains, r.port = 4 + u ∧ r.forTest = true) ∧
            (t = 3 → x.lcu.dpRun = some u) ∧
            (t = 4 → (x.bayOf u).st = if (s.bayOf u).st = .empty then .empty else .off) ∧
            (t = 5 → u ∉ x.kvt.lanesOn)))))) ∧
  -- TEST_STOP, TEST_RESULT (R571, R572, R582)
  (∀ s m c, s.Starts m 0x0A02 c → s.Inv →
    (s.tst.boot = false → Gives (.testStop m) s fun x => x.Ended m stOk ∧ x.tst.live = none ∧ x.tst.boot = false ∧
      ∀ l, s.tst.live = some l → x.testRec l.test =
        ⟨l.test, l.unit, 4, 0, if l.test = 7 then s.tst.errors else 0, 0, (s.now - l.start) / 1000⟩) ∧
    (s.tst.boot = true → Gives (.testStop m) s fun x => x.tst.boot = false ∧ x.tst.hold = false ∧ x.tk.hbOut = true ∧
      x.snt.ready = true)) ∧
  (∀ s m c t, s.Starts m 0x0A03 c → s.Inv → t = byteAt c.params 0 →
    (testKnown t = false ∨ (slice c.params 1 3).any (fun b => b ≠ 0) = true → Gives (.testResult m) s fun x =>
      x.Ended m stInvalidParam) ∧
    (testKnown t = true → (slice c.params 1 3).any (fun b => b ≠ 0) = false → Gives (.testResult m) s fun x =>
      x.Yields m c (s.testRec t).bytes ∧ x.tst = s.tst)) ∧
  -- LIVE_TEST_END (R568, R573 to R580)
  (∀ (s : State) o, (s.tst.live = none → exec (.liveTestEnd o) s = .next s) ∧
    (∀ l good, s.tst.live = some l → good = (o.errors == 0 && o.checkOk) →
      (l.moving = true ∨ l.test = 7 ∨ (l.test ≤ 3 ∧ s.now < l.start + ms l.param) → exec (.liveTestEnd o) s = .next s) ∧
      (l.moving = false →
        (l.test = 1 ∨ l.test = 2 ∨ l.test = 5 ∨ l.test = 6 → l.start + ms l.param ≤ s.now → Gives (.liveTestEnd o) s fun x =>
          x.tst.live = none ∧ x.testRec l.test =
            ⟨l.test, l.unit, if good = true then 2 else 3, 0, o.errors, o.whereWord, (s.now - l.start) / 1000⟩) ∧
        (∀ r p, l.test = 1 ∨ l.test = 2 → l.start + ms l.param ≤ s.now → p = (if l.test = 1 then l.unit else 4 + l.unit) →
          s.lcu.retrains.find? (fun x => x.port = p && x.forTest) = some r → Gives (.liveTestEnd o) s fun x =>
            x.lcu.retrains = s.lcu.retrains.filter (fun y => y.port ≠ p) ∧
            x.lcu.parked = s.lcu.parked.filter (fun y => y.1 ≠ p) ++ (if good = true then [] else [(p, s.now + sec 600)]) ∧
            (p < 4 → good = true → x.mac.hostUp = addNat s.mac.hostUp p)) ∧
        (l.test = 3 → l.start + ms l.param ≤ s.now → s.Inv → l.unit < 24 → Gives (.liveTestEnd o) s fun x => x.tst.live = none ∧
          x.testRec 3 = ⟨3, l.unit, if o.errors = 0 then 2 else 3, 0, o.errors, o.whereWord, (s.now - l.start) / 1000⟩ ∧
          x.portOf l.unit = { s.portOf l.unit with
            train := .training, attempts := 1, trainEnd := some (s.now + ms 250), speed := 0, width := 0 }) ∧
        (∀ b k, l.test = 4 → b = s.bayOf l.unit →
          k = (if b.fault ≠ 0 then b.fault else if s.cfgBit Reg.lcuBpcoor l.unit = true then 8 else 0) →
          (b.st ∈ [.wait, .ramping, .retryWait, .debounce] → exec (.liveTestEnd o) s = .next s) ∧
          (b.st ∉ [.wait, .ramping, .retryWait, .debounce] → Gives (.liveTestEnd o) s fun x => x.tst.live = none ∧
            x.testRec 4 = ⟨4, l.unit, if k = 0 then 2 else 3, k, o.errors, o.whereWord, (s.now - l.start) / 1000⟩)) ∧
        (l.test = 5 → Gives (.liveTestEnd o) s fun x => x.kvt = if good = true
          then { s.kvt with lanesOn := addNat s.kvt.lanesOn l.unit } else { s.kvt with lanesFailed := addNat s.kvt.lanesFailed l.unit }) ∧
        (l.test = 6 → Gives (.liveTestEnd o) s fun x => x.tst.plane = if good = true then s.tst.plane else addNat s.tst.plane l.unit) ∧
        (l.test = 8 ∨ l.test = 9 → Gives (.liveTestEnd o) s fun x => x.tst.live = none ∧ x.testRec l.test =
          ⟨l.test, l.unit, if o.errors = 0 then 2 else 3, 0, o.errors, o.whereWord, (s.now - l.start) / 1000⟩)))) ∧
  -- HBMPC_PIECE, BAY_TEST_VOUT_CHECK (R575, R578)
  (∀ (s : State) e l n k f, s.tst.live = some l → n = s.tst.pieces + 1 → k = satAt 0xFFFFFFFF (s.tst.errors + e) →
    f = (if s.tst.errors = 0 ∧ e ≠ 0 then 4096 * s.tst.pieces else s.tst.firstBad) →
    (l.test ≠ 7 → exec (.hbmpcPiece e) s = .next s) ∧
    (l.test = 7 → n < 294912 → exec (.hbmpcPiece e) s = .next { s with tst := { s.tst with
      pieces := n, errors := k, firstBad := f } }) ∧
    (l.test = 7 → 294912 ≤ n → Gives (.hbmpcPiece e) s fun x => x.tst.live = none ∧ x.tst.pieces = 0 ∧ x.tst.errors = 0 ∧
      x.testRec 7 = ⟨7, l.unit, if k = 0 then 2 else 3, 0, k, f, (s.now - l.start) / 1000⟩)) ∧
  (∀ (s : State) v l b, s.tst.live = some l → b = s.bayOf l.unit →
    (l.test ≠ 4 ∨ l.moving = false ∨ s.now < l.start + ms 50 → exec (.bayTestVoutCheck v) s = .next s) ∧
    (l.test = 4 → l.moving = true → l.start + ms 50 ≤ s.now → s.Inv → l.unit < 24 →
      (1000 ≤ v → Gives (.bayTestVoutCheck v) s fun x => x.tst.live = none ∧
        x.testRec 4 = ⟨4, l.unit, 3, 9, 0, 0, (s.now - l.start) / 1000⟩) ∧
      (v < 1000 → b.st = .empty → Gives (.bayTestVoutCheck v) s fun x => x.tst.live = none ∧
        x.testRec 4 = ⟨4, l.unit, 2, 0, 0, 0, (s.now - l.start) / 1000⟩) ∧
      (v < 1000 → b.st ≠ .empty → Gives (.bayTestVoutCheck v) s fun x => x.tst = { s.tst with live := some { l with moving := false } }) ∧
      (1000 ≤ v ∨ b.st ≠ .empty → Gives (.bayTestVoutCheck v) s fun x => x.bayOf l.unit = if b.st = .off
        then { b with st := if s.bay.inputFault = true then .inhibit else .wait } else b))) ∧
  (∀ (s : State) n, s.tst.live = none → exec (.hbmpcPiece n) s = .next s ∧ exec (.bayTestVoutCheck n) s = .next s) ∧
  -- TAP_INSTRUCTION (R583, R584)
  (∀ (s : State) i, (.io18 ∉ s.pwr.railsUp → exec (.tapInstruction i) s = .next s) ∧
    (.io18 ∈ s.pwr.railsUp →
      (i = .idcode → exec (.tapInstruction i) s = .next (s.emit (.tdo 1 (if s.part = .kv9616b then 0x1961674B else 0x1962474B)))) ∧
      (i = .samplePreload → exec (.tapInstruction i) s = .next (s.emit (.tdo 2 0))) ∧
      (i ≠ .idcode → i ≠ .samplePreload → exec (.tapInstruction i) s = .next (s.emit (.tdo (if s.tst.boot = true then i.code else 0) 0))))) ∧
  -- TIME_BASE_SET, TIME_BASE_LATCH (R595)
  (∀ (s : State), exec .timeBaseSet s = .next { s with mac := { s.mac with
      tod := 1000000000 * (s.reg Reg.macTodsec).toNat + (s.reg Reg.macTodns).toNat, at_ := s.now } } ∧
    (s.Inv → Gives .timeBaseLatch s fun t => t.mac = s.mac ∧
      t.reg Reg.macTodsec = BitVec.ofNat 32 (s.timeNow / 1000000000) ∧
      t.reg Reg.macTodns = BitVec.ofNat 32 (s.timeNow % 1000000000)))
end

