-- ==== Sys2Proof/Laws/Canonical.lean ====
section
/-! SUPPORT. The register file and the addressed buffers: what a read gives after a write, and that every write keeps the
canonical form. -/

set_option Elab.async false

namespace Sys2Proof.Machine

theorem regsWf_iff (p : Part) (sl : Side) (l : List (Nat × Word)) :
    regsWf p sl l = true ↔ l.Pairwise (fun e f => e.1 < f.1) ∧ ∀ e ∈ l, e.2 ≠ regReset p sl e.1 := by
  induction l with
  | nil => simp [regsWf]
  | cons e l ih =>
    cases l with
    | nil => simp [regsWf]
    | cons f l =>
      simp only [regsWf, Bool.and_eq_true, decide_eq_true_eq, ih, List.pairwise_cons, List.mem_cons, forall_eq_or_imp]
      constructor
      · rintro ⟨⟨h1, h2⟩, ⟨h3, h4⟩, h5, h6⟩
        exact ⟨⟨⟨h1, fun a ha => Nat.lt_trans h1 (h3 a ha)⟩, h3, h4⟩, h2, h5, h6⟩
      · rintro ⟨⟨⟨h1, -⟩, h3, h4⟩, h2, h5, h6⟩
        exact ⟨⟨h1, h2⟩, ⟨h3, h4⟩, h5, h6⟩

theorem mem_regInsert {a : Nat} {w : Word} {l : List (Nat × Word)} {e : Nat × Word} (h : e ∈ regInsert a w l) :
    e = (a, w) ∨ e ∈ l := by
  induction l with
  | nil => simpa [regInsert] using h
  | cons f l ih =>
    simp only [regInsert] at h
    split at h
    · simpa using h
    · split at h
      · rcases List.mem_cons.mp h with h | h
        · exact .inl h
        · exact .inr (List.mem_cons_of_mem _ h)
      · rcases List.mem_cons.mp h with h | h
        · exact .inr (h ▸ List.mem_cons_self)
        · exact (ih h).imp id (List.mem_cons_of_mem _)

theorem regInsert_sorted {a : Nat} {w : Word} {l : List (Nat × Word)} (h : l.Pairwise (fun e f => e.1 < f.1)) :
    (regInsert a w l).Pairwise (fun e f => e.1 < f.1) := by
  induction l with
  | nil => simp [regInsert]
  | cons f l ih =>
    obtain ⟨hf, hl⟩ := List.pairwise_cons.mp h
    simp only [regInsert]
    split
    · next hlt =>
      refine List.pairwise_cons.mpr ⟨fun e he => ?_, h⟩
      rcases List.mem_cons.mp he with rfl | he
      · exact hlt
      · exact Nat.lt_trans hlt (hf e he)
    · split
      · next heq => exact List.pairwise_cons.mpr ⟨fun e he => heq ▸ hf e he, hl⟩
      · next h1 h2 =>
        refine List.pairwise_cons.mpr ⟨fun e he => ?_, ih hl⟩
        rcases mem_regInsert he with rfl | he
        · show f.1 < a
          omega
        · exact hf e he

/-- Writing a register keeps the canonical form of the file. -/
theorem regPut_wf {p : Part} {sl : Side} {l : List (Nat × Word)} {a : Nat} {w : Word} (h : regsWf p sl l = true) :
    regsWf p sl (regPut p sl l a w) = true := by
  rw [regsWf_iff] at h ⊢
  obtain ⟨hs, hr⟩ := h
  unfold regPut
  split
  · exact ⟨hs.filter _, fun e he => hr e (List.mem_filter.mp he).1⟩
  · next hw =>
    refine ⟨regInsert_sorted hs, fun e he => ?_⟩
    rcases mem_regInsert he with rfl | he
    · exact hw
    · exact hr e he

/-- A file without some of its entries is canonical. -/
theorem regsWf_filter {p : Part} {sl : Side} {l : List (Nat × Word)} {q : Nat × Word → Bool} (h : regsWf p sl l = true) :
    regsWf p sl (l.filter q) = true := by
  rw [regsWf_iff] at h ⊢
  exact ⟨h.1.filter _, fun e he => h.2 e (List.mem_filter.mp he).1⟩

theorem find_regInsert (a b : Nat) (w : Word) (l : List (Nat × Word)) (h : l.Pairwise (fun e f => e.1 < f.1)) :
    (regInsert a w l).find? (fun e => e.1 = b) = if b = a then some (a, w) else l.find? (fun e => e.1 = b) := by
  induction l with
  | nil =>
    by_cases hb : b = a
    · simp [regInsert, hb]
    · have hb' : ¬ a = b := fun h => hb h.symm
      simp [regInsert, hb, hb']
  | cons f l ih =>
    obtain ⟨hf, hl⟩ := List.pairwise_cons.mp h
    simp only [regInsert]
    by_cases hb : b = a
    · subst hb
      split
      · simp
      · split
        · simp
        · next h1 h2 =>
          have h3 : ¬ f.1 = b := fun h => h2 h.symm
          simp [h3, ih hl]
    · have hb' : ¬ a = b := fun h => hb h.symm
      split
      · simp [List.find?_cons, hb']
      · split
        · next h1 h2 => simp [hb', ← h2]
        · simp [List.find?_cons, hb, ih hl]

theorem find_regErase (a b : Nat) (l : List (Nat × Word)) :
    (regErase a l).find? (fun e => e.1 = b) = if b = a then none else l.find? (fun e => e.1 = b) := by
  unfold regErase
  rw [List.find?_filter]
  by_cases hb : b = a
  · subst hb
    simp
  · rw [if_neg hb]
    congr 1
    funext e
    by_cases he : e.1 = b
    · simp [he, hb]
    · simp [he]

/-- A read after a write of the same register gives what was written, and of another register what was there. -/
theorem regGet_regPut {p : Part} {sl : Side} {l : List (Nat × Word)} {a b : Nat} {w : Word} (h : regsWf p sl l = true) :
    regGet p sl (regPut p sl l a w) b = if b = a then w else regGet p sl l b := by
  have hs := ((regsWf_iff p sl l).mp h).1
  unfold regGet regPut
  by_cases hw : w = regReset p sl a
  · rw [if_pos hw]
    rw [find_regErase]
    by_cases hb : b = a
    · subst hb
      simp [hw]
    · simp [hb]
  · rw [if_neg hw, find_regInsert _ _ _ _ hs]
    by_cases hb : b = a
    · simp [hb]
    · simp [hb]

theorem find_regInsert_ne {a b : Nat} (w : Word) (hb : b ≠ a) (l : List (Nat × Word)) :
    (regInsert a w l).find? (fun e => e.1 = b) = l.find? (fun e => e.1 = b) := by
  have hb' : ¬ a = b := fun h => hb h.symm
  induction l with
  | nil => simp [regInsert, hb']
  | cons f l ih =>
    simp only [regInsert]
    split
    · simp [List.find?_cons, hb']
    · split
      · next h1 h2 => simp [hb', ← h2]
      · simp [List.find?_cons, ih]

/-- Writing a register leaves every other register as it was, in any list. -/
theorem regGet_regPut_ne {p : Part} {sl : Side} {l : List (Nat × Word)} {a b : Nat} {w : Word} (hb : b ≠ a) :
    regGet p sl (regPut p sl l a w) b = regGet p sl l b := by
  unfold regGet regPut
  by_cases hw : w = regReset p sl a
  · rw [if_pos hw, find_regErase, if_neg hb]
  · rw [if_neg hw, find_regInsert_ne w hb]

/-- Bits of units that the part lacks stay 0 (R6). -/
theorem regPut_absent {p : Part} {sl : Side} {l : List (Nat × Word)} {a : Nat} {w : Word} (h : absentClear p l = true)
    (hw : w &&& absentBits p a = 0) : absentClear p (regPut p sl l a w) = true := by
  simp only [absentClear, List.all_eq_true, decide_eq_true_eq] at h ⊢
  intro e he
  unfold regPut at he
  split at he
  · exact h e (List.mem_filter.mp he).1
  · rcases mem_regInsert he with rfl | he
    · exact hw
    · exact h e he

theorem absentClear_filter {p : Part} {l : List (Nat × Word)} {q : Nat × Word → Bool} (h : absentClear p l = true) :
    absentClear p (l.filter q) = true := by
  simp only [absentClear, List.all_eq_true, decide_eq_true_eq] at h ⊢
  exact fun e he => h e (List.mem_filter.mp he).1

/-! ## Addressed buffers -/

theorem cellsWf_iff (l : List Host.Cell) :
    cellsWf l = true ↔ l.Pairwise (fun e f => e.1 < f.1) ∧ ∀ e ∈ l, e.2 ≠ 0 := by
  induction l with
  | nil => simp [cellsWf]
  | cons e l ih =>
    cases l with
    | nil => simp [cellsWf]
    | cons f l =>
      simp only [cellsWf, Bool.and_eq_true, decide_eq_true_eq, ih, List.pairwise_cons, List.mem_cons, forall_eq_or_imp]
      constructor
      · rintro ⟨⟨h1, h2⟩, ⟨h3, h4⟩, h5, h6⟩
        exact ⟨⟨⟨h1, fun a ha => Nat.lt_trans h1 (h3 a ha)⟩, h3, h4⟩, h2, h5, h6⟩
      · rintro ⟨⟨⟨h1, -⟩, h3, h4⟩, h2, h5, h6⟩
        exact ⟨⟨h1, h2⟩, ⟨h3, h4⟩, h5, h6⟩

theorem mem_cellInsert {a : Nat} {b : Byte} {l : List Host.Cell} {e : Host.Cell} (h : e ∈ cellInsert a b l) :
    e = (a, b) ∨ e ∈ l := by
  induction l with
  | nil => simpa [cellInsert] using h
  | cons f l ih =>
    simp only [cellInsert] at h
    split at h
    · simpa using h
    · split at h
      · rcases List.mem_cons.mp h with h | h
        · exact .inl h
        · exact .inr (List.mem_cons_of_mem _ h)
      · rcases List.mem_cons.mp h with h | h
        · exact .inr (h ▸ List.mem_cons_self)
        · exact (ih h).imp id (List.mem_cons_of_mem _)

theorem cellInsert_sorted {a : Nat} {b : Byte} {l : List Host.Cell} (h : l.Pairwise (fun e f => e.1 < f.1)) :
    (cellInsert a b l).Pairwise (fun e f => e.1 < f.1) := by
  induction l with
  | nil => simp [cellInsert]
  | cons f l ih =>
    obtain ⟨hf, hl⟩ := List.pairwise_cons.mp h
    simp only [cellInsert]
    split
    · next hlt =>
      refine List.pairwise_cons.mpr ⟨fun e he => ?_, h⟩
      rcases List.mem_cons.mp he with rfl | he
      · exact hlt
      · exact Nat.lt_trans hlt (hf e he)
    · split
      · next heq => exact List.pairwise_cons.mpr ⟨fun e he => heq ▸ hf e he, hl⟩
      · next h1 h2 =>
        refine List.pairwise_cons.mpr ⟨fun e he => ?_, ih hl⟩
        rcases mem_cellInsert he with rfl | he
        · show f.1 < a
          omega
        · exact hf e he

/-- Writing a byte keeps the canonical form of a buffer. -/
theorem cellWrite_wf {l : List Host.Cell} {a : Nat} {b : Byte} (h : cellsWf l = true) : cellsWf (cellWrite l a b) = true := by
  rw [cellsWf_iff] at h ⊢
  obtain ⟨hs, hr⟩ := h
  unfold cellWrite
  split
  · exact ⟨hs.filter _, fun e he => hr e (List.mem_filter.mp he).1⟩
  · next hw =>
    refine ⟨cellInsert_sorted hs, fun e he => ?_⟩
    rcases mem_cellInsert he with rfl | he
    · exact hw
    · exact hr e he

/-- Writing a byte string keeps the canonical form of a buffer. -/
theorem cellWrites_wf {bs : List Byte} : ∀ {l : List Host.Cell} {a : Nat}, cellsWf l = true → cellsWf (cellWrites l a bs) = true := by
  induction bs with
  | nil => exact fun h => h
  | cons b bs ih => exact fun h => ih (cellWrite_wf h)

theorem find_cellInsert (a c : Nat) (b : Byte) (l : List Host.Cell) (h : l.Pairwise (fun e f => e.1 < f.1)) :
    (cellInsert a b l).find? (fun e => e.1 = c) = if c = a then some (a, b) else l.find? (fun e => e.1 = c) := by
  induction l with
  | nil =>
    by_cases hc : c = a
    · simp [cellInsert, hc]
    · have hc' : ¬ a = c := fun h => hc h.symm
      simp [cellInsert, hc, hc']
  | cons f l ih =>
    obtain ⟨hf, hl⟩ := List.pairwise_cons.mp h
    simp only [cellInsert]
    by_cases hc : c = a
    · subst hc
      split
      · simp
      · split
        · simp
        · next h1 h2 =>
          have h3 : ¬ f.1 = c := fun h => h2 h.symm
          simp [h3, ih hl]
    · have hc' : ¬ a = c := fun h => hc h.symm
      split
      · simp [List.find?_cons, hc']
      · split
        · next h1 h2 => simp [hc', ← h2]
        · simp [List.find?_cons, hc, ih hl]

/-- A read after a byte written gives that byte at its address, and elsewhere what was there. -/
theorem cellRead_cellWrite {l : List Host.Cell} {a c : Nat} {b : Byte} (h : cellsWf l = true) :
    cellRead (cellWrite l a b) c = if c = a then b else cellRead l c := by
  have hs := ((cellsWf_iff l).mp h).1
  unfold cellRead cellWrite
  by_cases hb : b = 0
  · rw [if_pos hb, List.find?_filter]
    by_cases hc : c = a
    · subst hc
      have hn : l.find? (fun _ => false) = none := by simp [List.find?_eq_none]
      simp [hb, hn]
    · rw [if_neg hc]
      congr 2
      funext e
      by_cases he : e.1 = c
      · simp [he, hc]
      · simp [he]
  · rw [if_neg hb, find_cellInsert _ _ _ _ hs]
    by_cases hc : c = a
    · simp [hc]
    · simp [hc]

/-! ## Lists of like parts -/

@[simp] theorem length_setAt {α : Type} (l : List α) (n : Nat) (x : α) : (setAt l n x).length = l.length := by
  induction l generalizing n with
  | nil => rfl
  | cons y l ih => cases n with
    | zero => rfl
    | succ n => simp [setAt, ih]

@[simp] theorem length_updWhere {α : Type} (p : α → Bool) (f : α → α) (l : List α) : (updWhere p f l).length = l.length := by
  simp [updWhere]

theorem getD_setAt {α : Type} (l : List α) (n k : Nat) (x d : α) (h : n < l.length) :
    (setAt l n x).getD k d = if k = n then x else l.getD k d := by
  induction l generalizing n k with
  | nil => simp at h
  | cons y l ih =>
    cases n with
    | zero => cases k <;> simp [setAt]
    | succ n =>
      cases k with
      | zero => simp [setAt]
      | succ k => simpa [setAt] using ih n k (by simpa using h)

theorem setAt_of_le {α : Type} (l : List α) (n : Nat) (x : α) (h : l.length ≤ n) : setAt l n x = l := by
  induction l generalizing n with
  | nil => rfl
  | cons y l ih =>
    cases n with
    | zero => simp at h
    | succ n => simp [setAt, ih n (by simpa using h)]

end Sys2Proof.Machine
end

