-- ==== Sys2Proof/Laws/Dispatch.lean ====
section
/-! SUPPORT. The arms of `exec`, one equation for each command. -/

set_option Elab.async false

namespace Sys2Proof.Machine

theorem exec_rdmaCmConnectionRequest (conn port : Nat) (addr : BitVec 128) (qp : QpType) (mtu : Nat) (s : State) :
    exec (.rdmaCmConnectionRequest conn port addr qp mtu) s = execRdmaCmConnectionRequest conn port addr qp mtu s := rfl
theorem exec_tcpSyn (conn port : Nat) (addr : BitVec 128) (mss : Nat) (s : State) :
    exec (.tcpSyn conn port addr mss) s = execTcpSyn conn port addr mss s := rfl
theorem exec_icreq (conn : Nat) (hdgst ddgst : Bool) (s : State) :
    exec (.icreq conn hdgst ddgst) s = execIcreq conn hdgst ddgst s := rfl
theorem exec_connect (conn : Nat) (req : ConnectReq) (s : State) : exec (.connect conn req) s = execConnect conn req s := rfl
theorem exec_propertySet (cntlid cid offset value : Nat) (s : State) :
    exec (.propertySet cntlid cid offset value) s = execPropertySet cntlid cid offset value s := rfl
theorem exec_propertyGet (cntlid cid offset : Nat) (s : State) :
    exec (.propertyGet cntlid cid offset) s = execPropertyGet cntlid cid offset s := rfl
theorem exec_authenticationSend (conn cid : Nat) (msg : AuthMsg) (s : State) :
    exec (.authenticationSend conn cid msg) s = execAuthenticationSend conn cid msg s := rfl
theorem exec_authenticationReceive (conn cid : Nat) (s : State) :
    exec (.authenticationReceive conn cid) s = execAuthenticationReceive conn cid s := rfl
theorem exec_disconnect (cntlid sqid cid : Nat) (s : State) :
    exec (.disconnect cntlid sqid cid) s = execDisconnect cntlid sqid cid s := rfl
theorem exec_disconnectComplete (cntlid sqid : Nat) (s : State) :
    exec (.disconnectComplete cntlid sqid) s = execDisconnectComplete cntlid sqid s := rfl
theorem exec_getLogPage (cntlid cid lid : Nat) (s : State) :
    exec (.getLogPage cntlid cid lid) s = execGetLogPage cntlid cid lid s := rfl
theorem exec_identify (cntlid cid cns nsid : Nat) (s : State) :
    exec (.identify cntlid cid cns nsid) s = execIdentify cntlid cid cns nsid s := rfl
theorem exec_abort (cntlid acid sqid cid : Nat) (s : State) :
    exec (.abort cntlid acid sqid cid) s = execAbort cntlid acid sqid cid s := rfl
theorem exec_setFeatures (cntlid cid fid value : Nat) (save : Bool) (s : State) :
    exec (.setFeatures cntlid cid fid value save) s = execSetFeatures cntlid cid fid value save s := rfl
theorem exec_getFeatures (cntlid cid fid : Nat) (s : State) :
    exec (.getFeatures cntlid cid fid) s = execGetFeatures cntlid cid fid s := rfl
theorem exec_asynchronousEventRequest (cntlid cid : Nat) (s : State) :
    exec (.asynchronousEventRequest cntlid cid) s = execAsynchronousEventRequest cntlid cid s := rfl
theorem exec_keepAlive (cntlid cid : Nat) (s : State) : exec (.keepAlive cntlid cid) s = execKeepAlive cntlid cid s := rfl
theorem exec_nvmeMiSend (cntlid cid miOpcode : Nat) (packet : List Byte) (s : State) :
    exec (.nvmeMiSend cntlid cid miOpcode packet) s = execNvmeMiSend cntlid cid miOpcode packet s := rfl
theorem exec_nvmeMiReceive (cntlid cid miOpcode : Nat) (packet : List Byte) (s : State) :
    exec (.nvmeMiReceive cntlid cid miOpcode packet) s = execNvmeMiReceive cntlid cid miOpcode packet s := rfl
theorem exec_formatNvm (cntlid cid nsid lbaf ses : Nat) (protection : Bool) (s : State) :
    exec (.formatNvm cntlid cid nsid lbaf ses protection) s = execFormatNvm cntlid cid nsid lbaf ses protection s := rfl
theorem exec_sanitize (cntlid cid action : Nat) (s : State) :
    exec (.sanitize cntlid cid action) s = execSanitize cntlid cid action s := rfl
theorem exec_invalidAdminOpcode (cntlid cid opcode : Nat) (s : State) :
    exec (.invalidAdminOpcode cntlid cid opcode) s = execInvalidAdminOpcode cntlid cid opcode s := rfl
theorem exec_flush (tag : Nat) (s : State) : exec (.flush tag) s = execFlush tag s := rfl
theorem exec_write (tag : Nat) (s : State) : exec (.write tag) s = execWrite tag s := rfl
theorem exec_read (tag : Nat) (s : State) : exec (.read tag) s = execRead tag s := rfl
theorem exec_compare (tag : Nat) (s : State) : exec (.compare tag) s = execCompare tag s := rfl
theorem exec_writeZeroes (tag : Nat) (s : State) : exec (.writeZeroes tag) s = execWriteZeroes tag s := rfl
theorem exec_datasetManagement (tag : Nat) (s : State) : exec (.datasetManagement tag) s = execDatasetManagement tag s := rfl
theorem exec_invalidIoOpcode (cntlid sqid : Nat) (s : State) :
    exec (.invalidIoOpcode cntlid sqid) s = execInvalidIoOpcode cntlid sqid s := rfl
theorem exec_capsuleIntake (cntlid sqid : Nat) (capsule : Capsule) (s : State) :
    exec (.capsuleIntake cntlid sqid capsule) s = execCapsuleIntake cntlid sqid capsule s := rfl
theorem exec_admission (vsid : Nat) (s : State) : exec (.admission vsid) s = execAdmission vsid s := rfl
theorem exec_hostDataReceived (tag : Nat) (ok : Bool) (sectors : List Sector) (s : State) :
    exec (.hostDataReceived tag ok sectors) s = execHostDataReceived tag ok sectors s := rfl
theorem exec_commitPoint (tag : Nat) (s : State) : exec (.commitPoint tag) s = execCommitPoint tag s := rfl
theorem exec_responseHandoff (tag : Nat) (s : State) : exec (.responseHandoff tag) s = execResponseHandoff tag s := rfl
theorem exec_responseAcknowledged (tag : Nat) (s : State) :
    exec (.responseAcknowledged tag) s = execResponseAcknowledged tag s := rfl
theorem exec_squashComplete (tag : Nat) (s : State) : exec (.squashComplete tag) s = execSquashComplete tag s := rfl
theorem exec_keepAliveTimeout (cntlid : Nat) (s : State) :
    exec (.keepAliveTimeout cntlid) s = execKeepAliveTimeout cntlid s := rfl
theorem exec_connectionLoss (conn : Nat) (s : State) : exec (.connectionLoss conn) s = execConnectionLoss conn s := rfl
theorem exec_controllerResetComplete (cntlid : Nat) (s : State) :
    exec (.controllerResetComplete cntlid) s = execControllerResetComplete cntlid s := rfl
theorem exec_shutdownComplete (cntlid : Nat) (s : State) :
    exec (.shutdownComplete cntlid) s = execShutdownComplete cntlid s := rfl
theorem exec_tagqryWrite (w : Word) (s : State) : exec (.tagqryWrite w) s = execTagqryWrite w s := rfl
theorem exec_rangeLockGrant (tag : Nat) (s : State) : exec (.rangeLockGrant tag) s = execRangeLockGrant tag s := rfl
theorem exec_joinCopyComplete (s : State) : exec (.joinCopyComplete) s = execJoinCopyComplete s := rfl
theorem exec_powerFailTrip (s : State) : exec (.powerFailTrip) s = execPowerFailTrip s := rfl
theorem exec_flushEnd (s : State) : exec (.flushEnd) s = execFlushEnd s := rfl
theorem exec_formatPrepareDone (rec : Nat) (s : State) : exec (.formatPrepareDone rec) s = execFormatPrepareDone rec s := rfl
theorem exec_eraseRegionDone (rec : Nat) (s : State) : exec (.eraseRegionDone rec) s = execEraseRegionDone rec s := rfl
theorem exec_keyReplacementDone (rec : Nat) (s : State) : exec (.keyReplacementDone rec) s = execKeyReplacementDone rec s := rfl
theorem exec_deallocDone (rec : Nat) (s : State) : exec (.deallocDone rec) s = execDeallocDone rec s := rfl
theorem exec_progressRecordAvailable (s : State) : exec (.progressRecordAvailable) s = execProgressRecordAvailable s := rfl
theorem exec_coalescingWindowExpiry (group : Nat) (s : State) :
    exec (.coalescingWindowExpiry group) s = execCoalescingWindowExpiry group s := rfl
theorem exec_groupDataReady (group : Nat) (s : State) : exec (.groupDataReady group) s = execGroupDataReady group s := rfl
theorem exec_residueTimeout (group tag : Nat) (s : State) :
    exec (.residueTimeout group tag) s = execResidueTimeout group tag s := rfl
theorem exec_groupRegionRelease (group : Nat) (s : State) :
    exec (.groupRegionRelease group) s = execGroupRegionRelease group s := rfl
theorem exec_ringCreate (m : Master) (s : State) : exec (.ringCreate m) s = execRingCreate m s := rfl
theorem exec_ringDelete (m : Master) (s : State) : exec (.ringDelete m) s = execRingDelete m s := rfl
theorem exec_ringInitComplete (ring : Nat) (s : State) : exec (.ringInitComplete ring) s = execRingInitComplete ring s := rfl
theorem exec_stripeWriteStart (ring stripe : Nat) (s : State) :
    exec (.stripeWriteStart ring stripe) s = execStripeWriteStart ring stripe s := rfl
theorem exec_stripeWriteComplete (ring stripe : Nat) (s : State) :
    exec (.stripeWriteComplete ring stripe) s = execStripeWriteComplete ring stripe s := rfl
theorem exec_drainMaxageExpiry (ring stripe : Nat) (s : State) :
    exec (.drainMaxageExpiry ring stripe) s = execDrainMaxageExpiry ring stripe s := rfl
theorem exec_bitmapSweep (ring : Nat) (s : State) : exec (.bitmapSweep ring) s = execBitmapSweep ring s := rfl
theorem exec_bitmapCheckpoint (ring : Nat) (s : State) : exec (.bitmapCheckpoint ring) s = execBitmapCheckpoint ring s := rfl
theorem exec_checkpointWriteComplete (ring : Nat) (s : State) :
    exec (.checkpointWriteComplete ring) s = execCheckpointWriteComplete ring s := rfl
theorem exec_suspectStripeDone (ring stripe : Nat) (rows : List (Nat × RowData)) (s : State) :
    exec (.suspectStripeDone ring stripe rows) s = execSuspectStripeDone ring stripe rows s := rfl
theorem exec_verifyStripeDone (ring : Nat) (rows : List (Nat × RowData)) (s : State) :
    exec (.verifyStripeDone ring rows) s = execVerifyStripeDone ring rows s := rfl
theorem exec_ptqryWrite (w : Word) (s : State) : exec (.ptqryWrite w) s = execPtqryWrite w s := rfl
theorem exec_rejoinWindowExpiry (ring slot : Nat) (s : State) :
    exec (.rejoinWindowExpiry ring slot) s = execRejoinWindowExpiry ring slot s := rfl
theorem exec_driveIdentified (bay : Nat) (info : DriveInfo) (s : State) :
    exec (.driveIdentified bay info) s = execDriveIdentified bay info s := rfl
theorem exec_rejoinResyncComplete (ring : Nat) (done : SlotReads) (s : State) :
    exec (.rejoinResyncComplete ring done) s = execRejoinResyncComplete ring done s := rfl
theorem exec_smartCriticalWarning (bay : Nat) (bits : BitVec 8) (s : State) :
    exec (.smartCriticalWarning bay bits) s = execSmartCriticalWarning bay bits s := rfl
theorem exec_rebuildStripeDone (ring stripe : Nat) (rows : List (Nat × RowData)) (s : State) :
    exec (.rebuildStripeDone ring stripe rows) s = execRebuildStripeDone ring stripe rows s := rfl
theorem exec_copybackChunkDone (ring slot : Nat) (done : ChunkReads) (s : State) :
    exec (.copybackChunkDone ring slot done) s = execCopybackChunkDone ring slot done s := rfl
theorem exec_rebuildRateTick (hostTraffic : Nat) (s : State) :
    exec (.rebuildRateTick hostTraffic) s = execRebuildRateTick hostTraffic s := rfl
theorem exec_patrolStripeCheck (ring : Nat) (rows : List (Nat × RowData)) (s : State) :
    exec (.patrolStripeCheck ring rows) s = execPatrolStripeCheck ring rows s := rfl
theorem exec_memberFail (m : Master) (s : State) : exec (.memberFail m) s = execMemberFail m s := rfl
theorem exec_memberReplace (m : Master) (s : State) : exec (.memberReplace m) s = execMemberReplace m s := rfl
theorem exec_lostList (m : Master) (s : State) : exec (.lostList m) s = execLostList m s := rfl
theorem exec_barkerSend (s : State) : exec (.barkerSend) s = execBarkerSend s := rfl
theorem exec_barkerReceive (port : Nat) (b : Barker) (store : Option PeerStore) (s : State) :
    exec (.barkerReceive port b store) s = execBarkerReceive port b store s := rfl
theorem exec_barkerTimeout (port : Nat) (s : State) : exec (.barkerTimeout port) s = execBarkerTimeout port s := rfl
theorem exec_pcsLinkDown (port : Nat) (s : State) : exec (.pcsLinkDown port) s = execPcsLinkDown port s := rfl
theorem exec_pcsLinkUp (port : Nat) (s : State) : exec (.pcsLinkUp port) s = execPcsLinkUp port s := rfl
theorem exec_peerwaitExpiry (s : State) : exec (.peerwaitExpiry) s = execPeerwaitExpiry s := rfl
theorem exec_claimInterval (s : State) : exec (.claimInterval) s = execClaimInterval s := rfl
theorem exec_claimWaitExpiry (s : State) : exec (.claimWaitExpiry) s = execClaimWaitExpiry s := rfl
theorem exec_claimReceive (port uid fid nonce : Nat) (s : State) :
    exec (.claimReceive port uid fid nonce) s = execClaimReceive port uid fid nonce s := rfl
theorem exec_defendReceive (port uid fid claimUid nonce : Nat) (s : State) :
    exec (.defendReceive port uid fid claimUid nonce) s = execDefendReceive port uid fid claimUid nonce s := rfl
theorem exec_fidRetry (s : State) : exec (.fidRetry) s = execFidRetry s := rfl
theorem exec_lsaReceive (port : Nat) (lsa : Lsa) (s : State) : exec (.lsaReceive port lsa) s = execLsaReceive port lsa s := rfl
theorem exec_lsaRefresh (s : State) : exec (.lsaRefresh) s = execLsaRefresh s := rfl
theorem exec_lsdbEntryExpiry (fid : Nat) (s : State) : exec (.lsdbEntryExpiry fid) s = execLsdbEntryExpiry fid s := rfl
theorem exec_formerFidExpiry (s : State) : exec (.formerFidExpiry) s = execFormerFidExpiry s := rfl
theorem exec_frameForward (port : Nat) (hdr : ReltiHdr) (s : State) :
    exec (.frameForward port hdr) s = execFrameForward port hdr s := rfl
theorem exec_badReltiFrame (port : Nat) (f : FrameIn) (s : State) :
    exec (.badReltiFrame port f) s = execBadReltiFrame port f s := rfl
theorem exec_statusSend (s : State) : exec (.statusSend) s = execStatusSend s := rfl
theorem exec_statusReceive (st : PeerStatus) (s : State) : exec (.statusReceive st) s = execStatusReceive st s := rfl
theorem exec_electReceive (ring prio fid epoch : Nat) (s : State) :
    exec (.electReceive ring prio fid epoch) s = execElectReceive ring prio fid epoch s := rfl
theorem exec_electionTimeout (ring : Nat) (s : State) : exec (.electionTimeout ring) s = execElectionTimeout ring s := rfl
theorem exec_ownerSend (ring : Nat) (s : State) : exec (.ownerSend ring) s = execOwnerSend ring s := rfl
theorem exec_ownerReceive (ring fid epoch : Nat) (s : State) :
    exec (.ownerReceive ring fid epoch) s = execOwnerReceive ring fid epoch s := rfl
theorem exec_ringHandover (m : Master) (s : State) : exec (.ringHandover m) s = execRingHandover m s := rfl
theorem exec_handoverQuiesced (ring : Nat) (s : State) : exec (.handoverQuiesced ring) s = execHandoverQuiesced ring s := rfl
theorem exec_handoverTimeout (ring : Nat) (s : State) : exec (.handoverTimeout ring) s = execHandoverTimeout ring s := rfl
theorem exec_ownerClaim (m : Master) (s : State) : exec (.ownerClaim m) s = execOwnerClaim m s := rfl
theorem exec_ownerRenew (m : Master) (s : State) : exec (.ownerRenew m) s = execOwnerRenew m s := rfl
theorem exec_handover (m : Master) (s : State) : exec (.handover m) s = execHandover m s := rfl
theorem exec_ownerRelease (m : Master) (s : State) : exec (.ownerRelease m) s = execOwnerRelease m s := rfl
theorem exec_electionWindowClose (s : State) : exec (.electionWindowClose) s = execElectionWindowClose s := rfl
theorem exec_leaseExpiry (s : State) : exec (.leaseExpiry) s = execLeaseExpiry s := rfl
theorem exec_rtqryWrite (w : Word) (s : State) : exec (.rtqryWrite w) s = execRtqryWrite w s := rfl
theorem exec_mirrorReceive (src mseq : Nat) (body : MirBody) (s : State) :
    exec (.mirrorReceive src mseq body) s = execMirrorReceive src mseq body s := rfl
theorem exec_mirackSend (s : State) : exec (.mirackSend) s = execMirackSend s := rfl
theorem exec_mirackReceive (second : Bool) (mseq room : Nat) (s : State) :
    exec (.mirackReceive second mseq room) s = execMirackReceive second mseq room s := rfl
theorem exec_mirrorResendTimeout (mseq : Nat) (s : State) :
    exec (.mirrorResendTimeout mseq) s = execMirrorResendTimeout mseq s := rfl
theorem exec_cmdstateReceive (mseq : Nat) (r : CmdRecord) (s : State) :
    exec (.cmdstateReceive mseq r) s = execCmdstateReceive mseq r s := rfl
theorem exec_xportReceive (mseq : Nat) (x : XportRecord) (s : State) :
    exec (.xportReceive mseq x) s = execXportReceive mseq x s := rfl
theorem exec_fwdReceive (mseq : Nat) (entries : List MirBlock) (s : State) :
    exec (.fwdReceive mseq entries) s = execFwdReceive mseq entries s := rfl
theorem exec_healthCheck (coresOk crossbarOk : Bool) (s : State) :
    exec (.healthCheck coresOk crossbarOk) s = execHealthCheck coresOk crossbarOk s := rfl
theorem exec_heartbeatLoss (s : State) : exec (.heartbeatLoss) s = execHeartbeatLoss s := rfl
theorem exec_fenceDelayExpiry (s : State) : exec (.fenceDelayExpiry) s = execFenceDelayExpiry s := rfl
theorem exec_fenceInAsserted (s : State) : exec (.fenceInAsserted) s = execFenceInAsserted s := rfl
theorem exec_fenceRelease (m : Master) (s : State) : exec (.fenceRelease m) s = execFenceRelease m s := rfl
theorem exec_peerRemoved (s : State) : exec (.peerRemoved) s = execPeerRemoved s := rfl
theorem exec_fenceHoldExpiry (s : State) : exec (.fenceHoldExpiry) s = execFenceHoldExpiry s := rfl
theorem exec_announcementRepeat (identity : Nat) (s : State) :
    exec (.announcementRepeat identity) s = execAnnouncementRepeat identity s := rfl
theorem exec_takeoverDataDrained (s : State) : exec (.takeoverDataDrained) s = execTakeoverDataDrained s := rfl
theorem exec_vsCreate (m : Master) (s : State) : exec (.vsCreate m) s = execVsCreate m s := rfl
theorem exec_vsDelete (m : Master) (s : State) : exec (.vsDelete m) s = execVsDelete m s := rfl
theorem exec_vsModify (m : Master) (s : State) : exec (.vsModify m) s = execVsModify m s := rfl
theorem exec_vsHosts (m : Master) (s : State) : exec (.vsHosts m) s = execVsHosts m s := rfl
theorem exec_vsPortal (m : Master) (s : State) : exec (.vsPortal m) s = execVsPortal m s := rfl
theorem exec_nsCreate (m : Master) (s : State) : exec (.nsCreate m) s = execNsCreate m s := rfl
theorem exec_nsDelete (m : Master) (s : State) : exec (.nsDelete m) s = execNsDelete m s := rfl
theorem exec_nsDeleteComplete (vsid nsid : Nat) (s : State) :
    exec (.nsDeleteComplete vsid nsid) s = execNsDeleteComplete vsid nsid s := rfl
theorem exec_vsReset (m : Master) (s : State) : exec (.vsReset m) s = execVsReset m s := rfl
theorem exec_vsResetDrained (vsid : Nat) (s : State) : exec (.vsResetDrained vsid) s = execVsResetDrained vsid s := rfl
theorem exec_vsFreeze (m : Master) (s : State) : exec (.vsFreeze m) s = execVsFreeze m s := rfl
theorem exec_freezeQuiesced (vsid : Nat) (s : State) : exec (.freezeQuiesced vsid) s = execFreezeQuiesced vsid s := rfl
theorem exec_quiesceTimeout (vsid : Nat) (s : State) : exec (.quiesceTimeout vsid) s = execQuiesceTimeout vsid s := rfl
theorem exec_maxfrzExpiry (vsid : Nat) (s : State) : exec (.maxfrzExpiry vsid) s = execMaxfrzExpiry vsid s := rfl
theorem exec_vsThaw (m : Master) (s : State) : exec (.vsThaw m) s = execVsThaw m s := rfl
theorem exec_vsSave (m : Master) (s : State) : exec (.vsSave m) s = execVsSave m s := rfl
theorem exec_vsRestore (m : Master) (s : State) : exec (.vsRestore m) s = execVsRestore m s := rfl
theorem exec_vsMigrate (m : Master) (s : State) : exec (.vsMigrate m) s = execVsMigrate m s := rfl
theorem exec_vsQuery (m : Master) (s : State) : exec (.vsQuery m) s = execVsQuery m s := rfl
theorem exec_mgmtPropagation (p : Propagation) (s : State) : exec (.mgmtPropagation p) s = execMgmtPropagation p s := rfl
theorem exec_migrateReceive (src tvsid seq : Nat) (body : MigrateBody) (s : State) :
    exec (.migrateReceive src tvsid seq body) s = execMigrateReceive src tvsid seq body s := rfl
theorem exec_migrationPhaseEnd (vsid : Nat) (done : PhaseReads) (s : State) :
    exec (.migrationPhaseEnd vsid done) s = execMigrationPhaseEnd vsid done s := rfl
theorem exec_vsqryWrite (w : Word) (s : State) : exec (.vsqryWrite w) s = execVsqryWrite w s := rfl
theorem exec_frameReceive (port : Nat) (f : FrameIn) (s : State) :
    exec (.frameReceive port f) s = execFrameReceive port f s := rfl
theorem exec_recirculationPass (id : Nat) (authOk : Bool) (plain : List Byte) (s : State) :
    exec (.recirculationPass id authOk plain) s = execRecirculationPass id authOk plain s := rfl
theorem exec_exceptionDrain (s : State) : exec (.exceptionDrain) s = execExceptionDrain s := rfl
theorem exec_bankSwap (byCommand : Bool) (s : State) : exec (.bankSwap byCommand) s = execBankSwap byCommand s := rfl
theorem exec_swapEffect (s : State) : exec (.swapEffect) s = execSwapEffect s := rfl
theorem exec_swapRefusal (s : State) : exec (.swapRefusal) s = execSwapRefusal s := rfl
theorem exec_tableCommit (s : State) : exec (.tableCommit) s = execTableCommit s := rfl
theorem exec_tableRead (s : State) : exec (.tableRead) s = execTableRead s := rfl
theorem exec_batchStart (s : State) : exec (.batchStart) s = execBatchStart s := rfl
theorem exec_batchEnd (s : State) : exec (.batchEnd) s = execBatchEnd s := rfl
theorem exec_polcirWrite (w : Word) (s : State) : exec (.polcirWrite w) s = execPolcirWrite w s := rfl
theorem exec_carouselMatch (s : State) : exec (.carouselMatch) s = execCarouselMatch s := rfl
theorem exec_transferComplete (input : Nat) (s : State) : exec (.transferComplete input) s = execTransferComplete input s := rfl
theorem exec_transmitSelect (port : Nat) (s : State) : exec (.transmitSelect port) s = execTransmitSelect port s := rfl
theorem exec_sample (point : Nat) (bytes : List Byte) (s : State) :
    exec (.sample point bytes) s = execSample point bytes s := rfl
theorem exec_samplingConfigWrite (ratio : Bool) (w : Word) (s : State) :
    exec (.samplingConfigWrite ratio w) s = execSamplingConfigWrite ratio w s := rfl
theorem exec_pfcRepeat (port cls : Nat) (s : State) : exec (.pfcRepeat port cls) s = execPfcRepeat port cls s := rfl
theorem exec_pfcFrameReceive (port : Nat) (quanta : List (Option Nat)) (s : State) :
    exec (.pfcFrameReceive port quanta) s = execPfcFrameReceive port quanta s := rfl
theorem exec_pauseExpiry (port cls : Nat) (s : State) : exec (.pauseExpiry port cls) s = execPauseExpiry port cls s := rfl
theorem exec_cnpReceive (conn : Nat) (s : State) : exec (.cnpReceive conn) s = execCnpReceive conn s := rfl
theorem exec_rateRecovery (host : Nat) (s : State) : exec (.rateRecovery host) s = execRateRecovery host s := rfl
theorem exec_occqryWrite (w : Word) (s : State) : exec (.occqryWrite w) s = execOccqryWrite w s := rfl
theorem exec_rekeyPieceLoaded (slot : Nat) (blocks : List (Nat × Block)) (s : State) :
    exec (.rekeyPieceLoaded slot blocks) s = execRekeyPieceLoaded slot blocks s := rfl
theorem exec_rekeyRegionDone (slot : Nat) (s : State) : exec (.rekeyRegionDone slot) s = execRekeyRegionDone slot s := rfl
theorem exec_mkaFrameReceive (port : Nat) (msg : MkaMsg) (s : State) :
    exec (.mkaFrameReceive port msg) s = execMkaFrameReceive port msg s := rfl
theorem exec_mkaHello (port : Nat) (s : State) : exec (.mkaHello port) s = execMkaHello port s := rfl
theorem exec_mkaLifeExpiry (port member : Nat) (s : State) :
    exec (.mkaLifeExpiry port member) s = execMkaLifeExpiry port member s := rfl
theorem exec_clientHello (conn : Nat) (identities : List (List Byte)) (suiteOk groupOk binderOk : Bool) (s : State) :
    exec (.clientHello conn identities suiteOk groupOk binderOk) s = execClientHello conn identities suiteOk groupOk binderOk s := rfl
theorem exec_keyUpdateReceive (conn : Nat) (s : State) : exec (.keyUpdateReceive conn) s = execKeyUpdateReceive conn s := rfl
theorem exec_pairKeyAgreementComplete (ok : Bool) (s : State) :
    exec (.pairKeyAgreementComplete ok) s = execPairKeyAgreementComplete ok s := rfl
theorem exec_keyInfo (m : Master) (s : State) : exec (.keyInfo m) s = execKeyInfo m s := rfl
theorem exec_keyChallenge (m : Master) (s : State) : exec (.keyChallenge m) s = execKeyChallenge m s := rfl
theorem exec_keyLogin (m : Master) (s : State) : exec (.keyLogin m) s = execKeyLogin m s := rfl
theorem exec_keyLogout (m : Master) (s : State) : exec (.keyLogout m) s = execKeyLogout m s := rfl
theorem exec_keyGenerate (m : Master) (s : State) : exec (.keyGenerate m) s = execKeyGenerate m s := rfl
theorem exec_keyImport (m : Master) (s : State) : exec (.keyImport m) s = execKeyImport m s := rfl
theorem exec_keyExport (m : Master) (s : State) : exec (.keyExport m) s = execKeyExport m s := rfl
theorem exec_keyDelete (m : Master) (s : State) : exec (.keyDelete m) s = execKeyDelete m s := rfl
theorem exec_keyRekey (m : Master) (s : State) : exec (.keyRekey m) s = execKeyRekey m s := rfl
theorem exec_keySelftest (m : Master) (failRow : Nat) (s : State) :
    exec (.keySelftest m failRow) s = execKeySelftest m failRow s := rfl
theorem exec_keyZeroize (m : Master) (s : State) : exec (.keyZeroize m) s = execKeyZeroize m s := rfl
theorem exec_keyRandom (m : Master) (s : State) : exec (.keyRandom m) s = execKeyRandom m s := rfl
theorem exec_sessionIdleExpiry (s : State) : exec (.sessionIdleExpiry) s = execSessionIdleExpiry s := rfl
theorem exec_nonceExpiry (s : State) : exec (.nonceExpiry) s = execNonceExpiry s := rfl
theorem exec_loginLockoutExpiry (officer : Nat) (s : State) :
    exec (.loginLockoutExpiry officer) s = execLoginLockoutExpiry officer s := rfl
theorem exec_vaultEnvironmentZeroize (s : State) : exec (.vaultEnvironmentZeroize) s = execVaultEnvironmentZeroize s := rfl
theorem exec_entropyHealthFailure (s : State) : exec (.entropyHealthFailure) s = execEntropyHealthFailure s := rfl
theorem exec_vaultSelftestComplete (failRow : Nat) (s : State) :
    exec (.vaultSelftestComplete failRow) s = execVaultSelftestComplete failRow s := rfl
theorem exec_doorbellSend (w : Word) (s : State) : exec (.doorbellSend w) s = execDoorbellSend w s := rfl
theorem exec_mctpMessage (packet : List Byte) (s : State) : exec (.mctpMessage packet) s = execMctpMessage packet s := rfl
theorem exec_mctpControlMessage (command : Nat) (s : State) :
    exec (.mctpControlMessage command) s = execMctpControlMessage command s := rfl
theorem exec_mgmtFrameReceive (fid kind : Nat) (packet : List Byte) (s : State) :
    exec (.mgmtFrameReceive fid kind packet) s = execMgmtFrameReceive fid kind packet s := rfl
theorem exec_poll (m : Master) (packet : List Byte) (s : State) : exec (.poll m packet) s = execPoll m packet s := rfl
theorem exec_commandStart (m : Master) (s : State) : exec (.commandStart m) s = execCommandStart m s := rfl
theorem exec_describe (m : Master) (s : State) : exec (.describe m) s = execDescribe m s := rfl
theorem exec_mbFlush (m : Master) (s : State) : exec (.mbFlush m) s = execMbFlush m s := rfl
theorem exec_mbReset (m : Master) (s : State) : exec (.mbReset m) s = execMbReset m s := rfl
theorem exec_regRead (m : Master) (s : State) : exec (.regRead m) s = execRegRead m s := rfl
theorem exec_regWrite (m : Master) (s : State) : exec (.regWrite m) s = execRegWrite m s := rfl
theorem exec_regModify (m : Master) (s : State) : exec (.regModify m) s = execRegModify m s := rfl
theorem exec_pmuLoRead (addr : Nat) (s : State) : exec (.pmuLoRead addr) s = execPmuLoRead addr s := rfl
theorem exec_fabTopo (m : Master) (s : State) : exec (.fabTopo m) s = execFabTopo m s := rfl
theorem exec_fwDownload (m : Master) (s : State) : exec (.fwDownload m) s = execFwDownload m s := rfl
theorem exec_fwCommit (m : Master) (s : State) : exec (.fwCommit m) s = execFwCommit m s := rfl
theorem exec_fwCommitDone (s : State) : exec (.fwCommitDone) s = execFwCommitDone s := rfl
theorem exec_fwActivate (m : Master) (s : State) : exec (.fwActivate m) s = execFwActivate m s := rfl
theorem exec_activationComplete (s : State) : exec (.activationComplete) s = execActivationComplete s := rfl
theorem exec_activationTimeout (s : State) : exec (.activationTimeout) s = execActivationTimeout s := rfl
theorem exec_fwStatus (m : Master) (s : State) : exec (.fwStatus m) s = execFwStatus m s := rfl
theorem exec_pldmGetSensorReading (sensor : Nat) (s : State) :
    exec (.pldmGetSensorReading sensor) s = execPldmGetSensorReading sensor s := rfl
theorem exec_pldmRequestUpdate (s : State) : exec (.pldmRequestUpdate) s = execPldmRequestUpdate s := rfl
theorem exec_pldmComponentTransfer (offset : Nat) (bytes : List Byte) (s : State) :
    exec (.pldmComponentTransfer offset bytes) s = execPldmComponentTransfer offset bytes s := rfl
theorem exec_pldmVerifyApply (s : State) : exec (.pldmVerifyApply) s = execPldmVerifyApply s := rfl
theorem exec_pldmActivateFirmware (s : State) : exec (.pldmActivateFirmware) s = execPldmActivateFirmware s := rfl
theorem exec_bar0Read (addr : Nat) (enables : List (BitVec 4)) (s : State) :
    exec (.bar0Read addr enables) s = execBar0Read addr enables s := rfl
theorem exec_bar0Write (addr : Nat) (words : List (Word × BitVec 4)) (s : State) :
    exec (.bar0Write addr words) s = execBar0Write addr words s := rfl
theorem exec_sepPerstDeassert (s : State) : exec (.sepPerstDeassert) s = execSepPerstDeassert s := rfl
theorem exec_sepLinkDown (s : State) : exec (.sepLinkDown) s = execSepLinkDown s := rfl
theorem exec_configWrite (offset : Nat) (w : Word) (enables : BitVec 4) (s : State) :
    exec (.configWrite offset w enables) s = execConfigWrite offset w enables s := rfl
theorem exec_functionLevelReset (s : State) : exec (.functionLevelReset) s = execFunctionLevelReset s := rfl
theorem exec_flrComplete (s : State) : exec (.flrComplete) s = execFlrComplete s := rfl
theorem exec_hotReset (s : State) : exec (.hotReset) s = execHotReset s := rfl
theorem exec_dmaCompletion (tag addr : Nat) (status : DmaCpl) (bytes : List Byte) (s : State) :
    exec (.dmaCompletion tag addr status bytes) s = execDmaCompletion tag addr status bytes s := rfl
theorem exec_completionTimeout (tag : Nat) (s : State) : exec (.completionTimeout tag) s = execCompletionTimeout tag s := rfl
theorem exec_quarantineExpiry (tag : Nat) (s : State) : exec (.quarantineExpiry tag) s = execQuarantineExpiry tag s := rfl
theorem exec_containmentRelease (s : State) : exec (.containmentRelease) s = execContainmentRelease s := rfl
theorem exec_containmentReleaseEffect (s : State) : exec (.containmentReleaseEffect) s = execContainmentReleaseEffect s := rfl
theorem exec_doeRequest (obj : DoeObject) (s : State) : exec (.doeRequest obj) s = execDoeRequest obj s := rfl
theorem exec_doeAbort (s : State) : exec (.doeAbort) s = execDoeAbort s := rfl
theorem exec_presenceAssert (bay : Nat) (s : State) : exec (.presenceAssert bay) s = execPresenceAssert bay s := rfl
theorem exec_debounceComplete (bay : Nat) (s : State) : exec (.debounceComplete bay) s = execDebounceComplete bay s := rfl
theorem exec_presenceLoss (bay : Nat) (s : State) : exec (.presenceLoss bay) s = execPresenceLoss bay s := rfl
theorem exec_rampStart (bay : Nat) (s : State) : exec (.rampStart bay) s = execRampStart bay s := rfl
theorem exec_powerGood (bay : Nat) (s : State) : exec (.powerGood bay) s = execPowerGood bay s := rfl
theorem exec_pgtimeout (bay : Nat) (s : State) : exec (.pgtimeout bay) s = execPgtimeout bay s := rfl
theorem exec_perstDelayExpiry (bay : Nat) (s : State) : exec (.perstDelayExpiry bay) s = execPerstDelayExpiry bay s := rfl
theorem exec_driveLinkL0 (port speed width : Nat) (s : State) :
    exec (.driveLinkL0 port speed width) s = execDriveLinkL0 port speed width s := rfl
theorem exec_linkTrainingTimeout (port : Nat) (s : State) :
    exec (.linkTrainingTimeout port) s = execLinkTrainingTimeout port s := rfl
theorem exec_bayReady (bay : Nat) (s : State) : exec (.bayReady bay) s = execBayReady bay s := rfl
theorem exec_overcurrent (bay : Nat) (s : State) : exec (.overcurrent bay) s = execOvercurrent bay s := rfl
theorem exec_fasttrip (bay : Nat) (s : State) : exec (.fasttrip bay) s = execFasttrip bay s := rfl
theorem exec_undervolt (bay : Nat) (s : State) : exec (.undervolt bay) s = execUndervolt bay s := rfl
theorem exec_bayInputFault (s : State) : exec (.bayInputFault) s = execBayInputFault s := rfl
theorem exec_bayInputRestored (s : State) : exec (.bayInputRestored) s = execBayInputRestored s := rfl
theorem exec_retryExpiry (bay : Nat) (s : State) : exec (.retryExpiry bay) s = execRetryExpiry bay s := rfl
theorem exec_bholdARise (s : State) : exec (.bholdARise) s = execBholdARise s := rfl
theorem exec_holderRegain (s : State) : exec (.holderRegain) s = execHolderRegain s := rfl
theorem exec_powerCycleDelay (bay : Nat) (s : State) : exec (.powerCycleDelay bay) s = execPowerCycleDelay bay s := rfl
theorem exec_dpxCompletionTimeout (port tag : Nat) (s : State) :
    exec (.dpxCompletionTimeout port tag) s = execDpxCompletionTimeout port tag s := rfl
theorem exec_dpxQuarantineExpiry (port tag : Nat) (s : State) :
    exec (.dpxQuarantineExpiry port tag) s = execDpxQuarantineExpiry port tag s := rfl
theorem exec_memberCommandCompletion (id : Nat) (result : MemberResult) (blocks : List MemberBlock) (s : State) :
    exec (.memberCommandCompletion id result blocks) s = execMemberCommandCompletion id result blocks s := rfl
theorem exec_memberCommandTimeout (id : Nat) (s : State) :
    exec (.memberCommandTimeout id) s = execMemberCommandTimeout id s := rfl
theorem exec_memberAbortTimeout (id : Nat) (s : State) : exec (.memberAbortTimeout id) s = execMemberAbortTimeout id s := rfl
theorem exec_hedgeExpiry (id : Nat) (s : State) : exec (.hedgeExpiry id) s = execHedgeExpiry id s := rfl
theorem exec_surpriseLinkDown (port : Nat) (s : State) : exec (.surpriseLinkDown port) s = execSurpriseLinkDown port s := rfl
theorem exec_drivePortFatalError (port : Nat) (s : State) :
    exec (.drivePortFatalError port) s = execDrivePortFatalError port s := rfl
theorem exec_containmentHoldExpiry (port : Nat) (s : State) :
    exec (.containmentHoldExpiry port) s = execContainmentHoldExpiry port s := rfl
theorem exec_dpcrelWrite (w : Word) (s : State) : exec (.dpcrelWrite w) s = execDpcrelWrite w s := rfl
theorem exec_bayPower (m : Master) (s : State) : exec (.bayPower m) s = execBayPower m s := rfl
theorem exec_bayLed (m : Master) (s : State) : exec (.bayLed m) s = execBayLed m s := rfl
theorem exec_bayClear (m : Master) (s : State) : exec (.bayClear m) s = execBayClear m s := rfl
theorem exec_bayQuery (m : Master) (s : State) : exec (.bayQuery m) s = execBayQuery m s := rfl
theorem exec_powerUp (recalled : List MirBlock) (bist : List TestOutcome) (s : State) :
    exec (.powerUp recalled bist) s = execPowerUp recalled bist s := rfl
theorem exec_efuseCurrentLimit (s : State) : exec (.efuseCurrentLimit) s = execEfuseCurrentLimit s := rfl
theorem exec_efuseFastTrip (s : State) : exec (.efuseFastTrip) s = execEfuseFastTrip s := rfl
theorem exec_efuseRetry (s : State) : exec (.efuseRetry) s = execEfuseRetry s := rfl
theorem exec_efuseFaultClear (s : State) : exec (.efuseFaultClear) s = execEfuseFaultClear s := rfl
theorem exec_vinCutoff (s : State) : exec (.vinCutoff) s = execVinCutoff s := rfl
theorem exec_vinOvervoltage (s : State) : exec (.vinOvervoltage) s = execVinOvervoltage s := rfl
theorem exec_railFault (rail : Rail) (s : State) : exec (.railFault rail) s = execRailFault rail s := rfl
theorem exec_aonFeedLoss (s : State) : exec (.aonFeedLoss) s = execAonFeedLoss s := rfl
theorem exec_referenceLoss (s : State) : exec (.referenceLoss) s = execReferenceLoss s := rfl
theorem exec_referenceRestored (s : State) : exec (.referenceRestored) s = execReferenceRestored s := rfl
theorem exec_domainWake (domain : Nat) (s : State) : exec (.domainWake domain) s = execDomainWake domain s := rfl
theorem exec_domainIdle (domain : Nat) (s : State) : exec (.domainIdle domain) s = execDomainIdle domain s := rfl
theorem exec_powerStateEvaluation (window : LoadWindow) (s : State) :
    exec (.powerStateEvaluation window) s = execPowerStateEvaluation window s := rfl
theorem exec_retentionCheck (ok : Bool) (s : State) : exec (.retentionCheck ok) s = execRetentionCheck ok s := rfl
theorem exec_supervisorTrim (s : State) : exec (.supervisorTrim) s = execSupervisorTrim s := rfl
theorem exec_modRestart (m : Master) (s : State) : exec (.modRestart m) s = execModRestart m s := rfl
theorem exec_restartDrainComplete (s : State) : exec (.restartDrainComplete) s = execRestartDrainComplete s := rfl
theorem exec_pwrPolicy (m : Master) (s : State) : exec (.pwrPolicy m) s = execPwrPolicy m s := rfl
theorem exec_pwrQuery (m : Master) (s : State) : exec (.pwrQuery m) s = execPwrQuery m s := rfl
theorem exec_thermalTrip (s : State) : exec (.thermalTrip) s = execThermalTrip s := rfl
theorem exec_marginScan (lane : Nat) (s : State) : exec (.marginScan lane) s = execMarginScan lane s := rfl
theorem exec_marginScanComplete (lane : Nat) (r : ScanResult) (s : State) :
    exec (.marginScanComplete lane r) s = execMarginScanComplete lane r s := rfl
theorem exec_relearnWaitExpiry (s : State) : exec (.relearnWaitExpiry) s = execRelearnWaitExpiry s := rfl
theorem exec_egressDrained (s : State) : exec (.egressDrained) s = execEgressDrained s := rfl
theorem exec_retrainCheck (scans : List ScanResult) (s : State) : exec (.retrainCheck scans) s = execRetrainCheck scans s := rfl
theorem exec_parkedRetry (port : Nat) (s : State) : exec (.parkedRetry port) s = execParkedRetry port s := rfl
theorem exec_routeMoveWait (s : State) : exec (.routeMoveWait) s = execRouteMoveWait s := rfl
theorem exec_retrainNoticeTimeout (s : State) : exec (.retrainNoticeTimeout) s = execRetrainNoticeTimeout s := rfl
theorem exec_drivePortRetrainEnd (port : Nat) (ok : Bool) (s : State) :
    exec (.drivePortRetrainEnd port ok) s = execDrivePortRetrainEnd port ok s := rfl
theorem exec_hbmPass (stack : Nat) (temp : Int) (s : State) : exec (.hbmPass stack temp) s = execHbmPass stack temp s := rfl
theorem exec_hbmSlice (s : State) : exec (.hbmSlice) s = execHbmSlice s := rfl
theorem exec_eccBurst (pc : Nat) (s : State) : exec (.eccBurst pc) s = execEccBurst pc s := rfl
theorem exec_chopAverage (channel : Nat) (microvolt : Int) (s : State) :
    exec (.chopAverage channel microvolt) s = execChopAverage channel microvolt s := rfl
theorem exec_sensorTrim (differences : List Int) (s : State) :
    exec (.sensorTrim differences) s = execSensorTrim differences s := rfl
theorem exec_cntConfig (m : Master) (s : State) : exec (.cntConfig m) s = execCntConfig m s := rfl
theorem exec_cntRead (m : Master) (s : State) : exec (.cntRead m) s = execCntRead m s := rfl
theorem exec_cntSnapshot (m : Master) (s : State) : exec (.cntSnapshot m) s = execCntSnapshot m s := rfl
theorem exec_boxOfficeSweep (late : Bool) (s : State) : exec (.boxOfficeSweep late) s = execBoxOfficeSweep late s := rfl
theorem exec_testStart (m : Master) (s : State) : exec (.testStart m) s = execTestStart m s := rfl
theorem exec_testStop (m : Master) (s : State) : exec (.testStop m) s = execTestStop m s := rfl
theorem exec_testResult (m : Master) (s : State) : exec (.testResult m) s = execTestResult m s := rfl
theorem exec_liveTestEnd (r : TestOutcome) (s : State) : exec (.liveTestEnd r) s = execLiveTestEnd r s := rfl
theorem exec_tapInstruction (ir : TapInstr) (s : State) : exec (.tapInstruction ir) s = execTapInstruction ir s := rfl
theorem exec_timeBaseSet (s : State) : exec (.timeBaseSet) s = execTimeBaseSet s := rfl
theorem exec_timeBaseLatch (s : State) : exec (.timeBaseLatch) s = execTimeBaseLatch s := rfl
theorem exec_fenceInDeasserted (s : State) : exec (.fenceInDeasserted) s = execFenceInDeasserted s := rfl
theorem exec_bholdAFall (s : State) : exec (.bholdAFall) s = execBholdAFall s := rfl
theorem exec_masterPresenceExpiry (m : Master) (s : State) :
    exec (.masterPresenceExpiry m) s = execMasterPresenceExpiry m s := rfl
theorem exec_duplicateSuppressionExpiry (uid nonce : Nat) (s : State) :
    exec (.duplicateSuppressionExpiry uid nonce) s = execDuplicateSuppressionExpiry uid nonce s := rfl
theorem exec_sepPerstAssert (s : State) : exec (.sepPerstAssert) s = execSepPerstAssert s := rfl
theorem exec_sepLinkUp (speed width : Nat) (s : State) : exec (.sepLinkUp speed width) s = execSepLinkUp speed width s := rfl
theorem exec_domainOn (domain : Nat) (ok : Bool) (s : State) : exec (.domainOn domain ok) s = execDomainOn domain ok s := rfl
theorem exec_sampleQueueDrain (s : State) : exec (.sampleQueueDrain) s = execSampleQueueDrain s := rfl
theorem exec_hbmpcPiece (errors : Nat) (s : State) : exec (.hbmpcPiece errors) s = execHbmpcPiece errors s := rfl
theorem exec_bayTestVoutCheck (millivolt : Nat) (s : State) :
    exec (.bayTestVoutCheck millivolt) s = execBayTestVoutCheck millivolt s := rfl

end Sys2Proof.Machine
end

