-- ==== Sys2Proof/Laws/Kept.lean ====
section
/-! SUPPORT. `Kept u s t`: what every change of the state by a command respects, and that it changes nothing outside the parts that `u`
names. The lemmas of Laws/Kept*.lean say it once for every operation: applied to a state that keeps what `z` fixed, it gives one
that keeps it too. Their hypotheses on `u` name the parts that the operation may change. -/

set_option Elab.async false

namespace Sys2Proof.Machine

/-- `t` comes from `s` by a command's effect: the same module at the same time with the same commands waiting, whatever left it
still on record, the form of `Safety` kept, and nothing changed outside the parts that `u` names. -/
structure Kept (u : Units) (s t : State) : Prop where
  same : s.SameModule t
  pending : t.pending = s.pending
  out : s.out <:+ t.out
  free : s.freeCtr ≤ t.freeCtr
  inv : s.Inv → t.Inv
  only : Only u s t

/-- The exception queue has three buckets (R330). -/
theorem exBucket_lt (cause : Nat) : exBucket cause < 3 := by
  unfold exBucket
  split_ifs <;> decide

/-- A register of `IsMoved`. -/
structure Moved (a : Nat) : Prop where
  is : IsMoved a := by
    first
    | exact .inl (by decide)
    | exact .inr (.inl ⟨_, exBucket_lt _, rfl⟩)
    | exact .inr (.inr (.inl ⟨_, by omega, .inl rfl⟩))
    | exact .inr (.inr (.inl ⟨_, by omega, .inr rfl⟩))
    | exact .inr (.inr (.inr ⟨_, by omega, rfl⟩))
    | exact .inr (.inr (.inr ⟨_, by simp_all; omega, rfl⟩))
    | (split <;> exact .inl (by decide))

theorem Only.refl (u : Units) (s : State) : Only u s s := by
  constructor <;> first | exact .inr rfl | exact .inr fun _ _ => rfl

theorem Only.trans {u : Units} {s t v : State} (h : Only u s t) (k : Only u t v) : Only u s v where
  hce := k.hce.elim .inl fun e => h.hce.imp_right e.trans
  rfu := k.rfu.elim .inl fun e => h.rfu.imp_right e.trans
  rge := k.rge.elim .inl fun e => h.rge.imp_right e.trans
  snt := k.snt.elim .inl fun e => h.snt.imp_right e.trans
  rfx := k.rfx.elim .inl fun e => h.rfx.imp_right e.trans
  tk := k.tk.elim .inl fun e => h.tk.imp_right e.trans
  vsm := k.vsm.elim .inl fun e => h.vsm.imp_right e.trans
  kvt := k.kvt.elim .inl fun e => h.kvt.imp_right e.trans
  mbx := k.mbx.elim .inl fun e => h.mbx.imp_right e.trans
  bay := k.bay.elim .inl fun e => h.bay.imp_right e.trans
  props := k.props.elim .inl fun e => h.props.imp_right e.trans
  ppc := k.ppc.elim .inl fun e => h.ppc.imp_right e.trans
  xbr := k.xbr.elim .inl fun e => h.xbr.imp_right e.trans
  sep := k.sep.elim .inl fun e => h.sep.imp_right e.trans
  pwr := k.pwr.elim .inl fun e => h.pwr.imp_right e.trans
  lcu := k.lcu.elim .inl fun e => h.lcu.imp_right e.trans
  pmu := k.pmu.elim .inl fun e => h.pmu.imp_right e.trans
  tst := k.tst.elim .inl fun e => h.tst.imp_right e.trans
  mac := k.mac.elim .inl fun e => h.mac.imp_right e.trans
  regs := k.regs.elim .inl fun e => h.regs.imp_right fun d a hm => (e a hm).trans (d a hm)
  out := k.out.elim .inl fun e => h.out.imp_right e.trans
  free := k.free.elim .inl fun e => h.free.imp_right e.trans

/-- Records of the mailbox's commands change, but not whose they are. -/
theorem map_master_updWhere (p : MbCmd → Bool) (f : MbCmd → MbCmd) (l : List MbCmd) (hf : ∀ c, (f c).m = c.m) :
    (updWhere p f l).map (fun c => c.m) = l.map (fun c => c.m) := by
  simp only [updWhere, List.map_map]
  refine List.map_congr_left fun c _ => ?_
  simp only [Function.comp_apply]
  split
  · exact hf c
  · rfl

/-- `v` has everything that `Kept` looks at as `t` has it, and differs only in the parts that `u` names. -/
structure Like (u : Units) (t v : State) : Prop where
  now : v.now = t.now := by rfl
  part : v.part = t.part := by rfl
  slot : v.slot = t.slot := by rfl
  uid : v.uid = t.uid := by rfl
  smbAddr : v.smbAddr = t.smbAddr := by rfl
  strapsOk : v.strapsOk = t.strapsOk := by rfl
  macs : v.macs = t.macs := by rfl
  pending : v.pending = t.pending := by rfl
  out : v.out = t.out := by rfl
  free : v.freeCtr = t.freeCtr := by rfl
  regs : v.regs = t.regs := by rfl
  window : cellsWf t.mbx.cmdWin = true → cellsWf v.mbx.cmdWin = true := by first | exact fun h => h | exact fun _ => rfl | exact fun h => cellWrites_wf h
  stage : cellsWf t.mbx.stage = true → cellsWf v.mbx.stage = true := by first | exact fun h => h | exact fun _ => rfl | exact fun h => cellWrites_wf h
  cmds : (t.mbx.cmds.map (fun c => c.m)).Nodup → (v.mbx.cmds.map (fun c => c.m)).Nodup := by
    first
    | exact fun h => h
    | exact fun _ => List.nodup_nil
    | exact fun h => Eq.mpr (congrArg List.Nodup (map_master_updWhere _ _ _ fun _ => rfl)) h
  bays : t.bay.bays.length = 24 → v.bay.bays.length = 24 := by
    first
    | exact fun h => h
    | exact fun _ => rfl
    | exact fun h => (length_setAt _ _ _).trans h
    | (intro h; simpa +zetaDelta only [length_setAt, length_updWhere, List.length_map] using h)
  drivePorts : t.bay.ports.length = 24 → v.bay.ports.length = 24 := by
    first
    | exact fun h => h
    | exact fun _ => rfl
    | exact fun h => (length_setAt _ _ _).trans h
    | (intro h; simpa +zetaDelta only [length_setAt, length_updWhere, List.length_map] using h)
  fabPorts : t.rfx.ports.length = 4 → v.rfx.ports.length = 4 := by
    first
    | exact fun h => h
    | exact fun _ => rfl
    | exact fun h => (length_setAt _ _ _).trans h
    | (intro h; simpa +zetaDelta only [length_setAt, length_updWhere, List.length_map] using h)
  egress : t.xbr.ports.length = 8 → v.xbr.ports.length = 8 := by
    first
    | exact fun h => h
    | exact fun _ => rfl
    | exact fun h => (length_setAt _ _ _).trans h
    | (intro h; simpa +zetaDelta only [length_setAt, length_updWhere, List.length_map] using h)
  grant : t.xbr.grant.length = 14 → v.xbr.grant.length = 14 := by
    first
    | exact fun h => h
    | exact fun _ => rfl
    | exact fun h => (length_setAt _ _ _).trans h
    | (intro h; simpa +zetaDelta only [length_setAt, length_updWhere, List.length_map] using h)
  accept : t.xbr.accept.length = 14 → v.xbr.accept.length = 14 := by
    first
    | exact fun h => h
    | exact fun _ => rfl
    | exact fun h => (length_setAt _ _ _).trans h
    | (intro h; simpa +zetaDelta only [length_setAt, length_updWhere, List.length_map] using h)
  points : t.xbr.countdown.length = 16 → v.xbr.countdown.length = 16 := by
    first
    | exact fun h => h
    | exact fun _ => rfl
    | exact fun h => (length_setAt _ _ _).trans h
    | (intro h; simpa +zetaDelta only [length_setAt, length_updWhere, List.length_map] using h)
  masters : t.mbx.held.length = 4 → v.mbx.held.length = 4 := by
    first
    | exact fun h => h
    | exact fun _ => rfl
    | exact fun h => (length_setAt _ _ _).trans h
    | (intro h; simpa +zetaDelta only [length_setAt, length_updWhere, List.length_map] using h)
  sets : t.pmu.sets.length = 4 → v.pmu.sets.length = 4 := by
    first
    | exact fun h => h
    | exact fun _ => rfl
    | exact fun h => (length_setAt _ _ _).trans h
    | (intro h; simpa +zetaDelta only [length_setAt, length_updWhere, List.length_map] using h)
  macsec : t.kvt.macsec.length = 4 → v.kvt.macsec.length = 4 := by
    first
    | exact fun h => h
    | exact fun _ => rfl
    | exact fun h => (length_setAt _ _ _).trans h
    | (intro h; simpa +zetaDelta only [length_setAt, length_updWhere, List.length_map] using h)
  sensors : t.lcu.offsets.length = 25 → v.lcu.offsets.length = 25 := by
    first
    | exact fun h => h
    | exact fun _ => rfl
    | exact fun h => (length_setAt _ _ _).trans h
    | (intro h; simpa +zetaDelta only [length_setAt, length_updWhere, List.length_map] using h)
  hbmStacks : t.lcu.hbm.lastPass.length = 4 → v.lcu.hbm.lastPass.length = 4 := by
    first
    | exact fun h => h
    | exact fun _ => rfl
    | exact fun h => (length_setAt _ _ _).trans h
    | (intro h; simpa +zetaDelta only [length_setAt, length_updWhere, List.length_map] using h)
  vectors : t.sep.vectors.length = 2 → v.sep.vectors.length = 2 := by
    first
    | exact fun h => h
    | exact fun _ => rfl
    | exact fun h => (length_setAt _ _ _).trans h
    | (intro h; simpa +zetaDelta only [length_setAt, length_updWhere, List.length_map] using h)
  buckets : t.ppc.buckets.length = 3 → v.ppc.buckets.length = 3 := by
    first
    | exact fun h => h
    | exact fun _ => rfl
    | exact fun h => (length_setAt _ _ _).trans h
    | (intro h; simpa +zetaDelta only [length_setAt, length_updWhere, List.length_map] using h)
  hceU : u.hce = true ∨ v.hce = t.hce := by first | exact .inr rfl | exact .inl (by assumption)
  rfuU : u.rfu = true ∨ v.rfu = t.rfu := by first | exact .inr rfl | exact .inl (by assumption)
  rgeU : u.rge = true ∨ v.rge = t.rge := by first | exact .inr rfl | exact .inl (by assumption)
  sntU : u.snt = true ∨ v.snt = t.snt := by first | exact .inr rfl | exact .inl (by assumption)
  rfxU : u.rfx = true ∨ v.rfx = t.rfx := by first | exact .inr rfl | exact .inl (by assumption)
  tkU : u.tk = true ∨ v.tk = t.tk := by first | exact .inr rfl | exact .inl (by assumption)
  vsmU : u.vsm = true ∨ v.vsm = t.vsm := by first | exact .inr rfl | exact .inl (by assumption)
  kvtU : u.kvt = true ∨ v.kvt = t.kvt := by first | exact .inr rfl | exact .inl (by assumption)
  mbxU : u.mbx = true ∨ v.mbx = t.mbx := by first | exact .inr rfl | exact .inl (by assumption)
  bayU : u.bay = true ∨ v.bay = t.bay := by first | exact .inr rfl | exact .inl (by assumption)
  propsU : u.props = true ∨ v.props = t.props := by first | exact .inr rfl | exact .inl (by assumption)
  ppcU : u.ppc = true ∨ v.ppc = t.ppc := by first | exact .inr rfl | exact .inl (by assumption)
  xbrU : u.xbr = true ∨ v.xbr = t.xbr := by first | exact .inr rfl | exact .inl (by assumption)
  sepU : u.sep = true ∨ v.sep = t.sep := by first | exact .inr rfl | exact .inl (by assumption)
  pwrU : u.pwr = true ∨ v.pwr = t.pwr := by first | exact .inr rfl | exact .inl (by assumption)
  lcuU : u.lcu = true ∨ v.lcu = t.lcu := by first | exact .inr rfl | exact .inl (by assumption)
  pmuU : u.pmu = true ∨ v.pmu = t.pmu := by first | exact .inr rfl | exact .inl (by assumption)
  tstU : u.tst = true ∨ v.tst = t.tst := by first | exact .inr rfl | exact .inl (by assumption)
  macU : u.mac = true ∨ v.mac = t.mac := by first | exact .inr rfl | exact .inl (by assumption)

namespace Kept

variable {u : Units}

theorem refl (s : State) : Kept u s s :=
  ⟨⟨rfl, rfl, rfl, rfl, rfl, rfl, rfl⟩, rfl, List.suffix_rfl, Nat.le_refl _, fun h => h, Only.refl u s⟩

theorem trans {s t v : State} (h : Kept u s t) (k : Kept u t v) : Kept u s v where
  same := ⟨k.same.now.trans h.same.now, k.same.part.trans h.same.part, k.same.slot.trans h.same.slot,
    k.same.uid.trans h.same.uid, k.same.smbAddr.trans h.same.smbAddr, k.same.strapsOk.trans h.same.strapsOk, k.same.macs.trans h.same.macs⟩
  pending := k.pending.trans h.pending
  out := h.out.trans k.out
  free := Nat.le_trans h.free k.free
  inv := fun i => k.inv (h.inv i)
  only := h.only.trans k.only

/-- A change of what `Kept` does not look at. -/
theorem like {z t v : State} (h : Kept u z t) (e : Like u t v) : Kept u z v where
  same := ⟨e.now.trans h.same.now, e.part.trans h.same.part, e.slot.trans h.same.slot, e.uid.trans h.same.uid,
    e.smbAddr.trans h.same.smbAddr, e.strapsOk.trans h.same.strapsOk, e.macs.trans h.same.macs⟩
  pending := e.pending.trans h.pending
  out := e.out ▸ h.out
  free := e.free ▸ h.free
  inv := fun i =>
    have j := h.inv i
    { regs := by rw [e.part, e.slot, e.regs]; exact j.regs
      absent := by rw [e.part, e.regs]; exact j.absent
      window := e.window j.window
      stage := e.stage j.stage
      counts := ⟨e.bays j.counts.bays, e.drivePorts j.counts.drivePorts, e.fabPorts j.counts.fabPorts, e.egress j.counts.egress, e.grant j.counts.grant, e.accept j.counts.accept, e.points j.counts.points, e.masters j.counts.masters, e.sets j.counts.sets, e.macsec j.counts.macsec, e.sensors j.counts.sensors, e.hbmStacks j.counts.hbmStacks, e.vectors j.counts.vectors, e.buckets j.counts.buckets⟩
      oneEach := e.cmds j.oneEach }
  only := h.only.trans
    { hce := e.hceU, rfu := e.rfuU, rge := e.rgeU, snt := e.sntU, rfx := e.rfxU, tk := e.tkU, vsm := e.vsmU, kvt := e.kvtU, mbx := e.mbxU, bay := e.bayU, props := e.propsU, ppc := e.ppcU, xbr := e.xbrU, sep := e.sepU, pwr := e.pwrU, lcu := e.lcuU, pmu := e.pmuU, tst := e.tstU, mac := e.macU
      regs := .inr fun a _ => show regGet _ _ _ a = regGet _ _ _ a by rw [e.part, e.slot, e.regs]
      out := .inr e.out, free := .inr e.free }

/-- A record update that leaves what `Kept` looks at as it was. -/
theorem update {z t : State} {hce : _} {rfu : _} {rge : _} {snt : _} {rfx : _} {tk : _} {vsm : _} {kvt : _} {mbx : _} {bay : _} {props : _} {ppc : _} {xbr : _} {sep : _} {pwr : _} {lcu : _} {pmu : _} {tst : _} {mac : _} (h : Kept u z t)
    (e : Like u t ⟨t.now, t.part, t.slot, t.uid, t.smbAddr, t.strapsOk, t.macs, t.regs, hce, rfu, rge, snt, rfx, tk, vsm, kvt, mbx, bay, props, ppc, xbr, sep, pwr, lcu, pmu, tst, mac, t.out, t.freeCtr, t.pending⟩) :
    Kept u z ⟨t.now, t.part, t.slot, t.uid, t.smbAddr, t.strapsOk, t.macs, t.regs, hce, rfu, rge, snt, rfx, tk, vsm, kvt, mbx, bay, props, ppc, xbr, sep, pwr, lcu, pmu, tst, mac, t.out, t.freeCtr, t.pending⟩ :=
  h.like e

/-- A step of a proof about `let`: the intermediate state first, then the rest from it. -/
theorem cut {z y : State} (x : State) (h : Kept u z x) (k : Kept u z x → Kept u z y) : Kept u z y := k h

/-- The state of a pair that an operation answers. -/
theorem ofPair {α : Type} {z a : State} {p : State × α} {b : α} (e : p = (a, b)) (h : Kept u z p.1) : Kept u z a := by
  cases e
  exact h

theorem ofPair' {α : Type} {z a : State} {p : α × State} {b : α} (e : p = (b, a)) (h : Kept u z p.2) : Kept u z a := by
  cases e
  exact h

theorem ite {z a b : State} {p : Prop} [Decidable p] (h : Kept u z a) (k : Kept u z b) : Kept u z (if p then a else b) := by
  split
  · exact h
  · exact k

theorem foldl {α : Type} {z : State} {f : State → α → State} (hf : ∀ t a, Kept u z t → Kept u z (f t a)) (l : List α) :
    ∀ {s : State}, Kept u z s → Kept u z (l.foldl f s) := by
  induction l with
  | nil => exact fun h => h
  | cons a l ih => exact fun h => ih (hf _ a h)

/-- A register written. -/
theorem putReg {z s : State} (a : Nat) (w : Word) (h : Kept u z s) (hu : u.cfg = true := by assumption) : Kept u z (s.putReg a w) where
  same := ⟨h.same.now, h.same.part, h.same.slot, h.same.uid, h.same.smbAddr, h.same.strapsOk, h.same.macs⟩
  pending := h.pending
  out := h.out
  free := h.free
  inv := fun i =>
    have j := h.inv i
    { regs := regPut_wf j.regs
      absent := regPut_absent j.absent (by
        show w &&& ~~~ absentBits s.part a &&& absentBits s.part a = 0
        rw [BitVec.and_assoc, BitVec.and_comm (~~~ _), BitVec.and_not_self]; exact BitVec.and_zero)
      window := j.window, stage := j.stage
      counts := ⟨j.counts.bays, j.counts.drivePorts, j.counts.fabPorts, j.counts.egress, j.counts.grant, j.counts.accept,
        j.counts.points, j.counts.masters, j.counts.sets, j.counts.macsec, j.counts.sensors, j.counts.hbmStacks,
        j.counts.vectors, j.counts.buckets⟩
      oneEach := j.oneEach }
  only := h.only.trans
    { hce := .inr rfl, rfu := .inr rfl, rge := .inr rfl, snt := .inr rfl, rfx := .inr rfl, tk := .inr rfl, vsm := .inr rfl, kvt := .inr rfl, mbx := .inr rfl, bay := .inr rfl, props := .inr rfl, ppc := .inr rfl, xbr := .inr rfl, sep := .inr rfl, pwr := .inr rfl, lcu := .inr rfl, pmu := .inr rfl, tst := .inr rfl, mac := .inr rfl,
      regs := .inl hu, out := .inr rfl, free := .inr rfl }

/-- A register of `IsMoved` written. -/
theorem putMoved {z s : State} (a : Nat) (w : Word) (hm : Moved a) (h : Kept u z s) (hu : u.moved = true := by assumption) :
    Kept u z (s.putReg a w) :=
  have k := @putReg { u with cfg := true } s s a w (refl s) rfl
  { same := ⟨h.same.now, h.same.part, h.same.slot, h.same.uid, h.same.smbAddr, h.same.strapsOk, h.same.macs⟩, pending := k.pending.trans h.pending, out := h.out.trans k.out
    free := Nat.le_trans h.free k.free, inv := fun i => k.inv (h.inv i)
    only := h.only.trans
      { hce := .inr rfl, rfu := .inr rfl, rge := .inr rfl, snt := .inr rfl, rfx := .inr rfl, tk := .inr rfl, vsm := .inr rfl, kvt := .inr rfl, mbx := .inr rfl, bay := .inr rfl, props := .inr rfl, ppc := .inr rfl, xbr := .inr rfl, sep := .inr rfl, pwr := .inr rfl, lcu := .inr rfl, pmu := .inr rfl, tst := .inr rfl, mac := .inr rfl, out := .inr rfl, free := .inr rfl
        regs := .inr fun _ hb => regGet_regPut_ne fun e => hb hu (e ▸ hm.is) } }

/-- Something more on the record of what left the block. -/
theorem out_cons {z s : State} (l : List Emission) (h : Kept u z s) (hu : u.out = true := by assumption) : Kept u z { s with out := l ++ s.out } where
  same := ⟨h.same.now, h.same.part, h.same.slot, h.same.uid, h.same.smbAddr, h.same.strapsOk, h.same.macs⟩
  pending := h.pending
  out := h.out.trans (List.suffix_append l s.out)
  free := h.free
  inv := fun i =>
    have j := h.inv i
    { regs := j.regs, absent := j.absent, window := j.window, stage := j.stage
      counts := ⟨j.counts.bays, j.counts.drivePorts, j.counts.fabPorts, j.counts.egress, j.counts.grant, j.counts.accept,
        j.counts.points, j.counts.masters, j.counts.sets, j.counts.macsec, j.counts.sensors, j.counts.hbmStacks,
        j.counts.vectors, j.counts.buckets⟩
      oneEach := j.oneEach }
  only := h.only.trans
    { hce := .inr rfl, rfu := .inr rfl, rge := .inr rfl, snt := .inr rfl, rfx := .inr rfl, tk := .inr rfl, vsm := .inr rfl, kvt := .inr rfl, mbx := .inr rfl, bay := .inr rfl, props := .inr rfl, ppc := .inr rfl, xbr := .inr rfl, sep := .inr rfl, pwr := .inr rfl, lcu := .inr rfl, pmu := .inr rfl, tst := .inr rfl, mac := .inr rfl,
      regs := .inr fun _ _ => rfl, out := .inl hu, free := .inr rfl }

theorem emit {z s : State} (e : Emission) (h : Kept u z s) (hu : u.out = true := by assumption) : Kept u z (s.emit e) := out_cons [e] h

theorem emitAll {z s : State} (es : List Emission) (h : Kept u z s) (hu : u.out = true := by assumption) : Kept u z (s.emitAll es) := out_cons es.reverse h

/-- Free values taken. -/
theorem freeBy {z s : State} (n : Nat) (h : Kept u z s) (hu : u.free = true := by assumption) : Kept u z { s with freeCtr := s.freeCtr + n } where
  same := ⟨h.same.now, h.same.part, h.same.slot, h.same.uid, h.same.smbAddr, h.same.strapsOk, h.same.macs⟩
  pending := h.pending
  out := h.out
  free := Nat.le_trans h.free (Nat.le_add_right _ _)
  inv := fun i =>
    have j := h.inv i
    { regs := j.regs, absent := j.absent, window := j.window, stage := j.stage
      counts := ⟨j.counts.bays, j.counts.drivePorts, j.counts.fabPorts, j.counts.egress, j.counts.grant, j.counts.accept,
        j.counts.points, j.counts.masters, j.counts.sets, j.counts.macsec, j.counts.sensors, j.counts.hbmStacks,
        j.counts.vectors, j.counts.buckets⟩
      oneEach := j.oneEach }
  only := h.only.trans
    { hce := .inr rfl, rfu := .inr rfl, rge := .inr rfl, snt := .inr rfl, rfx := .inr rfl, tk := .inr rfl, vsm := .inr rfl, kvt := .inr rfl, mbx := .inr rfl, bay := .inr rfl, props := .inr rfl, ppc := .inr rfl, xbr := .inr rfl, sep := .inr rfl, pwr := .inr rfl, lcu := .inr rfl, pmu := .inr rfl, tst := .inr rfl, mac := .inr rfl,
      regs := .inr fun _ _ => rfl, out := .inr rfl, free := .inl hu }

theorem tookFree {z s : State} (h : Kept u z s) (hu : u.free = true := by assumption) : Kept u z s.tookFree := freeBy 1 h

/-- Commands leave the mailbox's queue. -/
theorem dropCmds {z s : State} (q : MbCmd → Bool) (h : Kept u z s) (hu : u.mbx = true := by assumption) :
    Kept u z { s with mbx := { s.mbx with cmds := s.mbx.cmds.filter q } } where
  same := ⟨h.same.now, h.same.part, h.same.slot, h.same.uid, h.same.smbAddr, h.same.strapsOk, h.same.macs⟩
  pending := h.pending
  out := h.out
  free := h.free
  inv := fun i =>
    have j := h.inv i
    { regs := j.regs, absent := j.absent, window := j.window, stage := j.stage
      counts := ⟨j.counts.bays, j.counts.drivePorts, j.counts.fabPorts, j.counts.egress, j.counts.grant, j.counts.accept,
        j.counts.points, j.counts.masters, j.counts.sets, j.counts.macsec, j.counts.sensors, j.counts.hbmStacks,
        j.counts.vectors, j.counts.buckets⟩
      oneEach := List.Nodup.sublist (List.Sublist.map _ (List.filter_sublist)) j.oneEach }
  only := h.only.trans
    { hce := .inr rfl, rfu := .inr rfl, rge := .inr rfl, snt := .inr rfl, rfx := .inr rfl, tk := .inr rfl, vsm := .inr rfl, kvt := .inr rfl, mbx := .inl hu, bay := .inr rfl, props := .inr rfl, ppc := .inr rfl, xbr := .inr rfl, sep := .inr rfl, pwr := .inr rfl, lcu := .inr rfl, pmu := .inr rfl, tst := .inr rfl, mac := .inr rfl,
      regs := .inr fun _ _ => rfl, out := .inr rfl, free := .inr rfl }

/-- A command enters the mailbox's queue for a master that has none in it. -/
theorem addCmd {z s : State} (c : MbCmd) (hc : s.cmdOf c.m = none) (h : Kept u z s) (hu : u.mbx = true := by assumption) :
    Kept u z { s with mbx := { s.mbx with cmds := s.mbx.cmds ++ [c] } } where
  same := ⟨h.same.now, h.same.part, h.same.slot, h.same.uid, h.same.smbAddr, h.same.strapsOk, h.same.macs⟩
  pending := h.pending
  out := h.out
  free := h.free
  inv := fun i =>
    have j := h.inv i
    { regs := j.regs, absent := j.absent, window := j.window, stage := j.stage
      counts := ⟨j.counts.bays, j.counts.drivePorts, j.counts.fabPorts, j.counts.egress, j.counts.grant, j.counts.accept,
        j.counts.points, j.counts.masters, j.counts.sets, j.counts.macsec, j.counts.sensors, j.counts.hbmStacks,
        j.counts.vectors, j.counts.buckets⟩
      oneEach := by
        show ((s.mbx.cmds ++ [c]).map (fun d => d.m)).Nodup
        rw [List.map_append, List.map_cons, List.map_nil]
        refine List.nodup_append.mpr ⟨j.oneEach, List.nodup_singleton _, ?_⟩
        intro a ha b hb hab
        obtain rfl := List.mem_singleton.mp hb
        obtain ⟨d, hd, rfl⟩ := List.mem_map.mp ha
        have := List.find?_eq_none.mp hc d hd
        simp [hab] at this }
  only := h.only.trans
    { hce := .inr rfl, rfu := .inr rfl, rge := .inr rfl, snt := .inr rfl, rfx := .inr rfl, tk := .inr rfl, vsm := .inr rfl, kvt := .inr rfl, mbx := .inl hu, bay := .inr rfl, props := .inr rfl, ppc := .inr rfl, xbr := .inr rfl, sep := .inr rfl, pwr := .inr rfl, lcu := .inr rfl, pmu := .inr rfl, tst := .inr rfl, mac := .inr rfl,
      regs := .inr fun _ _ => rfl, out := .inr rfl, free := .inr rfl }

/-- The command window or the staging area written. -/
theorem buffers {z s : State} (w st : List Host.Cell) (hw : s.Inv → cellsWf w = true) (hst : s.Inv → cellsWf st = true)
    (h : Kept u z s) (hu : u.mbx = true := by assumption) : Kept u z { s with mbx := { s.mbx with cmdWin := w, stage := st } } where
  same := ⟨h.same.now, h.same.part, h.same.slot, h.same.uid, h.same.smbAddr, h.same.strapsOk, h.same.macs⟩
  pending := h.pending
  out := h.out
  free := h.free
  inv := fun i =>
    have j := h.inv i
    { regs := j.regs, absent := j.absent, window := hw j, stage := hst j
      counts := ⟨j.counts.bays, j.counts.drivePorts, j.counts.fabPorts, j.counts.egress, j.counts.grant, j.counts.accept,
        j.counts.points, j.counts.masters, j.counts.sets, j.counts.macsec, j.counts.sensors, j.counts.hbmStacks,
        j.counts.vectors, j.counts.buckets⟩
      oneEach := j.oneEach }
  only := h.only.trans
    { hce := .inr rfl, rfu := .inr rfl, rge := .inr rfl, snt := .inr rfl, rfx := .inr rfl, tk := .inr rfl, vsm := .inr rfl, kvt := .inr rfl, mbx := .inl hu, bay := .inr rfl, props := .inr rfl, ppc := .inr rfl, xbr := .inr rfl, sep := .inr rfl, pwr := .inr rfl, lcu := .inr rfl, pmu := .inr rfl, tst := .inr rfl, mac := .inr rfl,
      regs := .inr fun _ _ => rfl, out := .inr rfl, free := .inr rfl }

end Kept

/-- The state that an operation may answer keeps what `z` fixed. -/
structure KeptOpt (u : Units) (z : State) (o : Option State) : Prop where
  keeps : ∀ t, o = some t → Kept u z t

theorem KeptOpt.some {u : Units} {z t : State} (h : Kept u z t) : KeptOpt u z (some t) :=
  ⟨fun _ e => by
    cases e
    exact h⟩

theorem KeptOpt.cut {u : Units} {z : State} {o : Option State} (x : State) (h : Kept u z x) (k : Kept u z x → KeptOpt u z o) : KeptOpt u z o := k h

theorem KeptOpt.none {u : Units} {z : State} : KeptOpt u z none := ⟨fun _ e => by cases e⟩

/-- The state answered. -/
theorem Kept.ofSome {u : Units} {z t : State} {o : Option State} (e : o = Option.some t) (h : KeptOpt u z o) : Kept u z t := h.keeps t e

/-- Every state that an outcome answers keeps what `z` fixed. -/
structure KeptBy (u : Units) (z : State) (o : Host.Outcome State Fault Refusal) : Prop where
  keeps : ∀ t, o = .next t → Kept u z t

theorem KeptBy.cut {u : Units} {z : State} {o : Host.Outcome State Fault Refusal} (x : State) (h : Kept u z x) (k : Kept u z x → KeptBy u z o) :
    KeptBy u z o := k h

theorem KeptBy.ite {u : Units} {z : State} {a b : Host.Outcome State Fault Refusal} {p : Prop} [Decidable p] (h : KeptBy u z a) (k : KeptBy u z b) :
    KeptBy u z (if p then a else b) := by
  split
  · exact h
  · exact k

theorem KeptBy.next {u : Units} {z t : State} (h : Kept u z t) : KeptBy u z (.next t) :=
  ⟨fun _ e => by
    cases e
    exact h⟩

end Sys2Proof.Machine
end

