-- ==== Sys2Proof/Laws/KeptOps.lean ====
section
/-! SUPPORT. `Kept` for the operations of Machine/Ops.lean. -/

set_option Elab.async false

namespace Sys2Proof.Machine

theorem Kept.bumpBy {uu : Units} {zz s : State} (a : Nat) (n : Nat) (hk : Kept uu zz s) (hm : Moved a := by exact {})
    (hMoved : uu.moved = true := by assumption) : Kept uu zz (State.bumpBy s a n) := by
  unfold State.bumpBy
  repeat' first
    | with_reducible assumption
    | exact {}
    | intro _
    | with_reducible apply Kept.putMoved

theorem Kept.bump {uu : Units} {zz s : State} (a : Nat) (hk : Kept uu zz s) (hm : Moved a := by exact {})
    (hMoved : uu.moved = true := by assumption) : Kept uu zz (State.bump s a) := by
  unfold State.bump
  repeat' first
    | with_reducible assumption
    | exact {}
    | intro _
    | with_reducible apply Kept.bumpBy

theorem Kept.raiseFlag {uu : Units} {zz s : State} (a : Nat) (i : Nat) (hk : Kept uu zz s) (hm : Moved a := by exact {})
    (hMoved : uu.moved = true := by assumption) : Kept uu zz (State.raiseFlag s a i) := by
  unfold State.raiseFlag
  repeat' first
    | with_reducible assumption
    | exact {}
    | intro _
    | with_reducible apply Kept.putMoved

theorem Kept.bumpHalf {uu : Units} {zz s : State} (a : Nat) (lo : Nat) (hk : Kept uu zz s) (hm : Moved a := by exact {})
    (hMoved : uu.moved = true := by assumption) : Kept uu zz (State.bumpHalf s a lo) := by
  unfold State.bumpHalf
  repeat' first
    | with_reducible assumption
    | exact {}
    | intro _
    | extract_lets +onlyGivenNames _
    | with_reducible apply Kept.putMoved

theorem Kept.pmuWrapped {uu : Units} {zz s : State} (v : Nat) (n : Nat) (w : Nat) (c : Nat) (hk : Kept uu zz s)
    (hPmu : uu.pmu = true := by assumption) (hMoved : uu.moved = true := by assumption) : Kept uu zz
    (State.pmuWrapped s v n w c) := by
  unfold State.pmuWrapped
  split
  · assumption
  repeat' first
    | with_reducible assumption
    | exact {}
    | intro _
    | (extract_lets +onlyGivenNames x; first | refine Kept.cut x ?_ ?_ <;> [subst x; (clear_value x; intro _)] | skip)
    | with_reducible apply Kept.raiseFlag
    | split
    | (with_reducible apply Kept.update) <;> [assumption; exact {}]

theorem Kept.pmuAdd {uu : Units} {zz s : State} (v : Nat) (n : Nat) (inc : Nat) (hk : Kept uu zz s)
    (hPmu : uu.pmu = true := by assumption) (hMoved : uu.moved = true := by assumption) : Kept uu zz
    (State.pmuAdd s v n inc) := by
  unfold State.pmuAdd
  repeat' first
    | with_reducible assumption
    | exact {}
    | intro _
    | (extract_lets +onlyGivenNames x; first | refine Kept.cut x ?_ ?_ <;> [subst x; (clear_value x; intro _)] | skip)
    | with_reducible apply Kept.pmuWrapped
    | split
    | (with_reducible apply Kept.update) <;> [assumption; exact {}]

theorem Kept.count {uu : Units} {zz s : State} (ev : Nat) (addr : Option Nat) (cls : Option Nat) (priv : Nat) (mst : Nat)
    (inc : Nat) (hk : Kept uu zz s) (hPmu : uu.pmu = true := by assumption) (hMoved : uu.moved = true := by assumption)
    : Kept uu zz (State.count s ev addr cls priv mst inc) := by
  unfold State.count
  repeat' first
    | with_reducible assumption
    | exact {}
    | intro _
    | extract_lets +onlyGivenNames _
    | with_reducible apply Kept.pmuAdd
    | with_reducible refine Kept.foldl ?_ _ ?_
    | split

theorem Kept.hostEvent {uu : Units} {zz s : State} (ev : Nat) (addr : Nat) (cls : Option Nat) (inc : Nat) (hk
    : Kept uu zz s) (hPmu : uu.pmu = true := by assumption) (hMoved : uu.moved = true := by assumption) : Kept uu zz
    (State.hostEvent s ev addr cls inc) := by
  unfold State.hostEvent
  repeat' first
    | with_reducible assumption
    | exact {}
    | intro _
    | with_reducible apply Kept.count

theorem Kept.laneWork {uu : Units} {zz s : State} (blocks : Nat) (priv : Nat) (hk : Kept uu zz s)
    (hPmu : uu.pmu = true := by assumption) (hMoved : uu.moved = true := by assumption)
    (hFree : uu.free = true := by assumption) : Kept uu zz (State.laneWork s blocks priv) := by
  unfold State.laneWork
  repeat' first
    | with_reducible assumption
    | exact {}
    | intro _
    | extract_lets +onlyGivenNames _
    | with_reducible apply Kept.count
    | with_reducible apply Kept.tookFree
    | split

theorem Kept.hbmTraffic {uu : Units} {zz s : State} (hk : Kept uu zz s) (hPmu : uu.pmu = true := by assumption)
    (hMoved : uu.moved = true := by assumption) (hFree : uu.free = true := by assumption) : Kept uu zz
    (State.hbmTraffic s) := by
  unfold State.hbmTraffic
  repeat' first
    | with_reducible assumption
    | exact {}
    | intro _
    | (extract_lets +onlyGivenNames x; first | refine Kept.cut x ?_ ?_ <;> [subst x; (clear_value x; intro _)] | skip)
    | with_reducible apply Kept.count
    | with_reducible apply Kept.freeBy
    | split

theorem Kept.vsCount {uu : Units} {zz s : State} (v : Nat) (f : VsRec → VsRec) (hk : Kept uu zz s)
    (hPmu : uu.pmu = true := by assumption) : Kept uu zz (State.vsCount s v f) := by
  unfold State.vsCount
  repeat' first
    | with_reducible assumption
    | exact {}
    | intro _
    | extract_lets +onlyGivenNames _
    | split
    | (with_reducible apply Kept.update) <;> [assumption; exact {}]

theorem Kept.xbar {uu : Units} {zz s : State} (input : Nat) (icls : Nat) (control : Bool) (copies : List Copy) (len : Nat)
    (hk : Kept uu zz s) (hXbr : uu.xbr = true := by assumption) : Kept uu zz
    (State.xbar s input icls control copies len) := by
  unfold State.xbar
  repeat' first
    | with_reducible assumption
    | exact {}
    | intro _
    | extract_lets +onlyGivenNames _
    | split
    | (with_reducible apply Kept.update) <;> [assumption; exact {}]

theorem Kept.setFabPort {uu : Units} {zz s : State} (p : Nat) (f : FabPort → FabPort) (hk : Kept uu zz s)
    (hRfx : uu.rfx = true := by assumption) : Kept uu zz (State.setFabPort s p f) := by
  unfold State.setFabPort
  repeat' first
    | with_reducible assumption
    | exact {}
    | intro _
    | extract_lets +onlyGivenNames _
    | split
    | (with_reducible apply Kept.update) <;> [assumption; exact {}]

theorem Kept.xbarRelti {uu : Units} {zz s : State} (port : Nat) (dst : Nat) (typ : Nat) (n : Nat) (hk : Kept uu zz s)
    (hXbr : uu.xbr = true := by assumption) (hOut : uu.out = true := by assumption) : Kept uu zz
    (State.xbarRelti s port dst typ n) := by
  unfold State.xbarRelti
  repeat' first
    | with_reducible assumption
    | exact {}
    | intro _
    | extract_lets +onlyGivenNames _
    | with_reducible apply Kept.emit
    | with_reducible apply Kept.xbar

theorem Kept.setHeld {uu : Units} {zz s : State} (m : Master) (f : Held → Held) (hk : Kept uu zz s)
    (hMbx : uu.mbx = true := by assumption) : Kept uu zz (State.setHeld s m f) := by
  unfold State.setHeld
  repeat' first
    | with_reducible assumption
    | exact {}
    | intro _
    | extract_lets +onlyGivenNames _
    | split
    | (with_reducible apply Kept.update) <;> [assumption; exact {}]

theorem Kept.dmaResult {uu : Units} {zz s : State} (a : Nat) (bs : List Byte) (hk : Kept uu zz s)
    (hOut : uu.out = true := by assumption) : Kept uu zz (State.dmaResult s a bs) := by
  unfold State.dmaResult
  repeat' first
    | with_reducible assumption
    | exact {}
    | intro _
    | extract_lets +onlyGivenNames _
    | with_reducible apply Kept.emit
    | with_reducible refine Kept.foldl ?_ _ ?_

theorem Kept.sendMsi {uu : Units} {zz s : State} (v : Nat) (hk : Kept uu zz s) (hSep : uu.sep = true := by assumption)
    (hOut : uu.out = true := by assumption) : Kept uu zz (State.sendMsi s v) := by
  unfold State.sendMsi
  repeat' first
    | with_reducible assumption
    | exact {}
    | intro _
    | extract_lets +onlyGivenNames _
    | with_reducible apply Kept.emit
    | split
    | (with_reducible apply Kept.update) <;> [assumption; exact {}]

theorem Kept.sepEvent {uu : Units} {zz s : State} (bit : Nat) (hk : Kept uu zz s) (hSep : uu.sep = true := by assumption)
    (hMoved : uu.moved = true := by assumption) (hOut : uu.out = true := by assumption) : Kept uu zz
    (State.sepEvent s bit) := by
  unfold State.sepEvent
  repeat' first
    | with_reducible assumption
    | exact {}
    | intro _
    | (extract_lets +onlyGivenNames x; refine Kept.cut x ?_ ?_ <;> [subst x; (clear_value x; intro _)])
    | with_reducible apply Kept.raiseFlag
    | with_reducible apply Kept.sendMsi
    | split

theorem Kept.finishOne {uu : Units} {zz s : State} (m : Master) (st : Nat) (res : List Byte) (hk : Kept uu zz s)
    (hMbx : uu.mbx = true := by assumption) (hMoved : uu.moved = true := by assumption)
    (hOut : uu.out = true := by assumption) : Kept uu zz (State.finishOne s m st res) := by
  unfold State.finishOne
  repeat' first
    | with_reducible assumption
    | exact {}
    | intro _
    | (extract_lets +onlyGivenNames x; first | refine Kept.cut x ?_ ?_ <;> [subst x; (clear_value x; intro _)] | skip)
    | with_reducible apply Kept.setHeld
    | with_reducible apply Kept.bump
    | with_reducible apply Kept.dmaResult
    | with_reducible apply Kept.dropCmds
    | split

theorem Kept.finish {uu : Units} {zz s : State} (m : Master) (st : Nat) (res : List Byte) (hk : Kept uu zz s)
    (hMbx : uu.mbx = true := by assumption) (hMoved : uu.moved = true := by assumption)
    (hOut : uu.out = true := by assumption) : Kept uu zz (State.finish s m st res) := by
  unfold State.finish
  repeat' first
    | with_reducible assumption
    | exact {}
    | intro _
    | (extract_lets +onlyGivenNames x; refine Kept.cut x ?_ ?_ <;> [subst x; (clear_value x; intro _)])
    | with_reducible apply Kept.finishOne
    | split

theorem Kept.answer {uu : Units} {zz s : State} (c : MbCmd) (res : List Byte) (hk : Kept uu zz s)
    (hMbx : uu.mbx = true := by assumption) (hMoved : uu.moved = true := by assumption)
    (hOut : uu.out = true := by assumption) : Kept uu zz (State.answer s c res) := by
  unfold State.answer
  repeat' first
    | with_reducible assumption
    | exact {}
    | intro _
    | with_reducible apply Kept.finish
    | split

theorem Kept.keepRunning {uu : Units} {zz s : State} (m : Master) (hk : Kept uu zz s)
    (hMbx : uu.mbx = true := by assumption) : Kept uu zz (State.keepRunning s m) := by
  unfold State.keepRunning
  repeat' first
    | with_reducible assumption
    | exact {}
    | intro _
    | extract_lets +onlyGivenNames _
    | split
    | (with_reducible apply Kept.update) <;> [assumption; exact {}]

theorem Kept.runCmd {uu : Units} {zz s : State} (m : Master) (op : Nat) (f : MbCmd → State → State) (hf
    : ∀ x0 t, Kept uu zz t → Kept uu zz (f x0 t)) (hk : Kept uu zz s) : Kept uu zz (State.runCmd s m op f) := by
  unfold State.runCmd
  repeat' first
    | with_reducible assumption
    | exact {}
    | intro _
    | with_reducible apply hf
    | split

theorem Kept.checked {uu : Units} {zz s : State} (m : Master) (checks : List (Bool × Nat)) (f : State → State) (hf
    : ∀ t, Kept uu zz t → Kept uu zz (f t)) (hk : Kept uu zz s) (hMbx : uu.mbx = true := by assumption)
    (hMoved : uu.moved = true := by assumption) (hOut : uu.out = true := by assumption) : Kept uu zz
    (State.checked s m checks f) := by
  unfold State.checked
  repeat' first
    | with_reducible assumption
    | exact {}
    | intro _
    | with_reducible apply Kept.finish
    | with_reducible apply hf
    | split

theorem Kept.mgmtPeer {uu : Units} {zz s : State} (n : Nat) (hk : Kept uu zz s) (hXbr : uu.xbr = true := by assumption)
    (hOut : uu.out = true := by assumption) : Kept uu zz (State.mgmtPeer s n) := by
  unfold State.mgmtPeer
  repeat' first
    | with_reducible assumption
    | exact {}
    | intro _
    | with_reducible apply Kept.xbarRelti
    | split

theorem Kept.sendProp {uu : Units} {zz s : State} (opcode : Nat) (params : List Byte) (hk : Kept uu zz s)
    (hXbr : uu.xbr = true := by assumption) (hOut : uu.out = true := by assumption) : Kept uu zz
    (State.sendProp s opcode params) := by
  unfold State.sendProp
  repeat' first
    | with_reducible assumption
    | exact {}
    | intro _
    | extract_lets +onlyGivenNames _
    | with_reducible apply Kept.emit
    | with_reducible apply Kept.propagate
    | with_reducible apply Kept.mgmtPeer

theorem Kept.propagate {uu : Units} {zz s : State} (m : Master) (r : PropRec) (hk : Kept uu zz s)
    (hMbx : uu.mbx = true := by assumption) (hProps : uu.props = true := by assumption)
    (hXbr : uu.xbr = true := by assumption) (hMoved : uu.moved = true := by assumption)
    (hOut : uu.out = true := by assumption) : Kept uu zz (State.propagate s m r) := by
  unfold State.propagate
  repeat' first
    | with_reducible assumption
    | exact {}
    | intro _
    | (extract_lets +onlyGivenNames x; refine Kept.cut x ?_ ?_ <;> [subst x; (clear_value x; intro _)])
    | with_reducible apply Kept.finish
    | with_reducible apply Kept.keepRunning
    | with_reducible apply Kept.sendProp
    | split
    | (with_reducible apply Kept.update) <;> [assumption; exact {}]

theorem Kept.replyPeer {uu : Units} {zz s : State} (st : Nat) (hk : Kept uu zz s) (hXbr : uu.xbr = true := by assumption)
    (hOut : uu.out = true := by assumption) : Kept uu zz (State.replyPeer s st) := by
  unfold State.replyPeer
  repeat' first
    | with_reducible assumption
    | exact {}
    | intro _
    | extract_lets +onlyGivenNames _
    | with_reducible apply Kept.emit
    | with_reducible apply Kept.mgmtPeer

theorem Kept.sendMigrate {uu : Units} {zz s : State} (dst : Nat) (tvsid : Nat) (seq : Nat) (body : MigrateBody) (hk
    : Kept uu zz s) (hXbr : uu.xbr = true := by assumption) (hMoved : uu.moved = true := by assumption)
    (hOut : uu.out = true := by assumption) : Kept uu zz (State.sendMigrate s dst tvsid seq body) := by
  unfold State.sendMigrate
  repeat' first
    | with_reducible assumption
    | exact {}
    | intro _
    | extract_lets +onlyGivenNames _
    | with_reducible apply Kept.emit
    | with_reducible apply Kept.xbarRelti
    | with_reducible apply Kept.bump
    | split

theorem Kept.mirSend {uu : Units} {zz s : State} (b : StreamBody) (hk : Kept uu zz s)
    (hRfx : uu.rfx = true := by assumption) (hXbr : uu.xbr = true := by assumption) (hPmu : uu.pmu = true := by assumption)
    (hMoved : uu.moved = true := by assumption) (hOut : uu.out = true := by assumption) : Kept uu zz
    (State.mirSend s b) := by
  unfold State.mirSend
  repeat' first
    | with_reducible assumption
    | exact {}
    | intro _
    | (extract_lets +onlyGivenNames x; first | refine Kept.cut x ?_ ?_ <;> [subst x; (clear_value x; intro _)] | skip)
    | with_reducible apply Kept.emit
    | with_reducible apply Kept.xbarRelti
    | with_reducible apply Kept.hostEvent
    | split
    | (with_reducible apply Kept.update) <;> [assumption; exact {}]

theorem Kept.mirSendAll {uu : Units} {zz s : State} (bs : List StreamBody) (hk : Kept uu zz s)
    (hRfx : uu.rfx = true := by assumption) (hXbr : uu.xbr = true := by assumption) (hPmu : uu.pmu = true := by assumption)
    (hMoved : uu.moved = true := by assumption) (hOut : uu.out = true := by assumption) : Kept uu zz
    (State.mirSendAll s bs) := by
  unfold State.mirSendAll
  repeat' first
    | with_reducible assumption
    | exact {}
    | intro _
    | extract_lets +onlyGivenNames _
    | with_reducible apply Kept.mirSend
    | with_reducible refine Kept.foldl ?_ _ ?_

theorem Kept.mirSend2 {uu : Units} {zz s : State} (b : StreamBody) (hk : Kept uu zz s)
    (hRfx : uu.rfx = true := by assumption) (hXbr : uu.xbr = true := by assumption) (hOut : uu.out = true := by assumption)
    : Kept uu zz (State.mirSend2 s b) := by
  unfold State.mirSend2
  repeat' first
    | with_reducible assumption
    | exact {}
    | intro _
    | extract_lets +onlyGivenNames _
    | with_reducible apply Kept.emit
    | with_reducible apply Kept.xbarRelti
    | split
    | (with_reducible apply Kept.update) <;> [assumption; exact {}]

theorem Kept.sendLine {uu : Units} {zz s : State} (area : Nat) (index : Nat) (line : List Byte) (hk : Kept uu zz s)
    (hRfx : uu.rfx = true := by assumption) (hXbr : uu.xbr = true := by assumption) (hPmu : uu.pmu = true := by assumption)
    (hMoved : uu.moved = true := by assumption) (hOut : uu.out = true := by assumption) : Kept uu zz
    (State.sendLine s area index line) := by
  unfold State.sendLine
  repeat' first
    | with_reducible assumption
    | exact {}
    | intro _
    | with_reducible apply Kept.mirSend

theorem Kept.relti {uu : Units} {zz s : State} (port : Nat) (typ : Nat) (dst : Nat) (payload : List Byte) (hk
    : Kept uu zz s) (hXbr : uu.xbr = true := by assumption) (hOut : uu.out = true := by assumption) : Kept uu zz
    (State.relti s port typ dst payload) := by
  unfold State.relti
  repeat' first
    | with_reducible assumption
    | exact {}
    | intro _
    | extract_lets +onlyGivenNames _
    | with_reducible apply Kept.emit
    | with_reducible apply Kept.xbarRelti

theorem Kept.toPeer {uu : Units} {zz s : State} (typ : Nat) (payload : List Byte) (hk : Kept uu zz s)
    (hXbr : uu.xbr = true := by assumption) (hOut : uu.out = true := by assumption) : Kept uu zz
    (State.toPeer s typ payload) := by
  unfold State.toPeer
  repeat' first
    | with_reducible assumption
    | exact {}
    | intro _
    | with_reducible apply Kept.relti
    | split

theorem Kept.updMac {uu : Units} {zz s : State} (f : MacSt → MacSt) (hk : Kept uu zz s)
    (hMac : uu.mac = true := by assumption) : Kept uu zz (State.updMac s f) := by
  unfold State.updMac
  repeat' first
    | with_reducible assumption
    | exact {}
    | intro _
    | split
    | (with_reducible apply Kept.update) <;> [assumption; exact {}]

theorem Kept.timeSet {uu : Units} {zz s : State} (hk : Kept uu zz s) (hMac : uu.mac = true := by assumption) : Kept uu zz
    (State.timeSet s) := by
  unfold State.timeSet
  repeat' first
    | with_reducible assumption
    | exact {}
    | intro _
    | extract_lets +onlyGivenNames _
    | with_reducible apply Kept.updMac

theorem Kept.timeLatch {uu : Units} {zz s : State} (hk : Kept uu zz s) (hCfg : uu.cfg = true := by assumption) : Kept uu zz
    (State.timeLatch s) := by
  unfold State.timeLatch
  repeat' first
    | with_reducible assumption
    | exact {}
    | intro _
    | extract_lets +onlyGivenNames _
    | with_reducible apply Kept.putReg

theorem Kept.timeRate {uu : Units} {zz s : State} (w : Word) (hk : Kept uu zz s) (hMac : uu.mac = true := by assumption)
    (hCfg : uu.cfg = true := by assumption) : Kept uu zz (State.timeRate s w) := by
  unfold State.timeRate
  repeat' first
    | with_reducible assumption
    | exact {}
    | intro _
    | extract_lets +onlyGivenNames _
    | with_reducible apply Kept.updMac
    | with_reducible apply Kept.putReg

theorem Kept.updTag {uu : Units} {zz s : State} (t : Nat) (f : TagRec → TagRec) (hk : Kept uu zz s)
    (hHce : uu.hce = true := by assumption) : Kept uu zz (State.updTag s t f) := by
  unfold State.updTag
  repeat' first
    | with_reducible assumption
    | exact {}
    | intro _
    | extract_lets +onlyGivenNames _
    | split
    | (with_reducible apply Kept.update) <;> [assumption; exact {}]

theorem Kept.updCtrl {uu : Units} {zz s : State} (c : Nat) (f : Ctrl → Ctrl) (hk : Kept uu zz s)
    (hHce : uu.hce = true := by assumption) : Kept uu zz (State.updCtrl s c f) := by
  unfold State.updCtrl
  repeat' first
    | with_reducible assumption
    | exact {}
    | intro _
    | extract_lets +onlyGivenNames _
    | split
    | (with_reducible apply Kept.update) <;> [assumption; exact {}]

theorem Kept.updSq {uu : Units} {zz s : State} (c : Nat) (q : Nat) (f : SubQ → SubQ) (hk : Kept uu zz s)
    (hHce : uu.hce = true := by assumption) : Kept uu zz (State.updSq s c q f) := by
  unfold State.updSq
  repeat' first
    | with_reducible assumption
    | exact {}
    | intro _
    | extract_lets +onlyGivenNames _
    | split
    | (with_reducible apply Kept.update) <;> [assumption; exact {}]

theorem Kept.updConn {uu : Units} {zz s : State} (c : Nat) (f : HConn → HConn) (hk : Kept uu zz s)
    (hHce : uu.hce = true := by assumption) : Kept uu zz (State.updConn s c f) := by
  unfold State.updConn
  repeat' first
    | with_reducible assumption
    | exact {}
    | intro _
    | extract_lets +onlyGivenNames _
    | split
    | (with_reducible apply Kept.update) <;> [assumption; exact {}]

theorem Kept.updVs {uu : Units} {zz s : State} (v : Nat) (f : Vs → Vs) (hk : Kept uu zz s)
    (hVsm : uu.vsm = true := by assumption) : Kept uu zz (State.updVs s v f) := by
  unfold State.updVs
  repeat' first
    | with_reducible assumption
    | exact {}
    | intro _
    | extract_lets +onlyGivenNames _
    | split
    | (with_reducible apply Kept.update) <;> [assumption; exact {}]

theorem Kept.updNs {uu : Units} {zz s : State} (v : Nat) (n : Nat) (f : Ns → Ns) (hk : Kept uu zz s)
    (hVsm : uu.vsm = true := by assumption) : Kept uu zz (State.updNs s v n f) := by
  unfold State.updNs
  repeat' first
    | with_reducible assumption
    | exact {}
    | intro _
    | extract_lets +onlyGivenNames _
    | split
    | (with_reducible apply Kept.update) <;> [assumption; exact {}]

theorem Kept.updRing {uu : Units} {zz s : State} (r : Nat) (f : Ring → Ring) (hk : Kept uu zz s)
    (hRge : uu.rge = true := by assumption) : Kept uu zz (State.updRing s r f) := by
  unfold State.updRing
  repeat' first
    | with_reducible assumption
    | exact {}
    | intro _
    | extract_lets +onlyGivenNames _
    | split
    | (with_reducible apply Kept.update) <;> [assumption; exact {}]

theorem Kept.updGroup {uu : Units} {zz s : State} (g : Nat) (f : Group → Group) (hk : Kept uu zz s)
    (hRfu : uu.rfu = true := by assumption) : Kept uu zz (State.updGroup s g f) := by
  unfold State.updGroup
  repeat' first
    | with_reducible assumption
    | exact {}
    | intro _
    | extract_lets +onlyGivenNames _
    | split
    | (with_reducible apply Kept.update) <;> [assumption; exact {}]

theorem Kept.setBay {uu : Units} {zz s : State} (b : Nat) (f : Bay → Bay) (hk : Kept uu zz s)
    (hBay : uu.bay = true := by assumption) : Kept uu zz (State.setBay s b f) := by
  unfold State.setBay
  repeat' first
    | with_reducible assumption
    | exact {}
    | intro _
    | extract_lets +onlyGivenNames _
    | split
    | (with_reducible apply Kept.update) <;> [assumption; exact {}]

theorem Kept.setPort {uu : Units} {zz s : State} (p : Nat) (f : DrivePort → DrivePort) (hk : Kept uu zz s)
    (hBay : uu.bay = true := by assumption) : Kept uu zz (State.setPort s p f) := by
  unfold State.setPort
  repeat' first
    | with_reducible assumption
    | exact {}
    | intro _
    | extract_lets +onlyGivenNames _
    | split
    | (with_reducible apply Kept.update) <;> [assumption; exact {}]

theorem Kept.updKey {uu : Units} {zz s : State} (k : Nat) (f : KeySlot → KeySlot) (hk : Kept uu zz s)
    (hKvt : uu.kvt = true := by assumption) : Kept uu zz (State.updKey s k f) := by
  unfold State.updKey
  repeat' first
    | with_reducible assumption
    | exact {}
    | intro _
    | extract_lets +onlyGivenNames _
    | split
    | (with_reducible apply Kept.update) <;> [assumption; exact {}]

end Sys2Proof.Machine
end

