-- ==== Sys2Proof/Laws/KeptBuffer.lean ====
section
/-! SUPPORT. `Kept` for the operations of Machine/Buffer.lean. -/

set_option Elab.async false

namespace Sys2Proof.Machine

theorem Kept.applyWt {uu : Units} {zz s : State} (hk : Kept uu zz s) (hHce : uu.hce = true := by assumption) : Kept uu zz
    (State.applyWt s) := by
  unfold State.applyWt
  repeat' first
    | with_reducible assumption
    | exact {}
    | intro _
    | extract_lets +onlyGivenNames _
    | split
    | (with_reducible apply Kept.update) <;> [assumption; exact {}]

theorem Kept.recomputeCeil {uu : Units} {zz s : State} (hk : Kept uu zz s) (hHce : uu.hce = true := by assumption)
    : Kept uu zz (State.recomputeCeil s) := by
  unfold State.recomputeCeil
  repeat' first
    | with_reducible assumption
    | exact {}
    | intro _
    | extract_lets +onlyGivenNames _
    | with_reducible apply Kept.applyWt
    | split
    | (with_reducible apply Kept.update) <;> [assumption; exact {}]

theorem Kept.freeEntries {uu : Units} {zz s : State} (p : WbEntry → Bool) (hk : Kept uu zz s)
    (hHce : uu.hce = true := by assumption) : Kept uu zz (State.freeEntries s p) := by
  unfold State.freeEntries
  repeat' first
    | with_reducible assumption
    | exact {}
    | intro _
    | extract_lets +onlyGivenNames _
    | split
    | (with_reducible apply Kept.update) <;> [assumption; exact {}]

theorem Kept.sweepDead {uu : Units} {zz s : State} (hk : Kept uu zz s) (hHce : uu.hce = true := by assumption) : Kept uu zz
    (State.sweepDead s) := by
  unfold State.sweepDead
  repeat' first
    | with_reducible assumption
    | exact {}
    | intro _
    | extract_lets +onlyGivenNames _
    | split
    | (with_reducible apply Kept.update) <;> [assumption; exact {}]

theorem Kept.freeNotice {uu : Units} {zz s : State} (v : Nat) (n : Nat) (b : Nat) (ver : Nat) (ring : Nat) (hk
    : Kept uu zz s) (hRfx : uu.rfx = true := by assumption) (hXbr : uu.xbr = true := by assumption)
    (hPmu : uu.pmu = true := by assumption) (hMoved : uu.moved = true := by assumption)
    (hOut : uu.out = true := by assumption) : Kept uu zz (State.freeNotice s v n b ver ring) := by
  unfold State.freeNotice
  repeat' first
    | with_reducible assumption
    | exact {}
    | intro _
    | extract_lets +onlyGivenNames _
    | with_reducible apply Kept.mirSend
    | with_reducible apply Kept.mirSend2

theorem Kept.supersede {uu : Units} {zz s : State} (v : Nat) (n : Nat) (b : Nat) (cnt : Nat) (ver : Nat) (hk : Kept uu zz s)
    (hHce : uu.hce = true := by assumption) (hRfx : uu.rfx = true := by assumption) (hXbr : uu.xbr = true := by assumption)
    (hPmu : uu.pmu = true := by assumption) (hMoved : uu.moved = true := by assumption)
    (hOut : uu.out = true := by assumption) : Kept uu zz (State.supersede s v n b cnt ver) := by
  unfold State.supersede
  repeat' first
    | with_reducible assumption
    | exact {}
    | intro _
    | extract_lets +onlyGivenNames _
    | with_reducible apply Kept.freeNotice
    | with_reducible apply Kept.freeEntries
    | with_reducible refine Kept.foldl ?_ _ ?_

theorem Kept.commitForwarded {uu : Units} {zz s : State} (vers : List Nat) (hk : Kept uu zz s)
    (hHce : uu.hce = true := by assumption) (hRfx : uu.rfx = true := by assumption) (hXbr : uu.xbr = true := by assumption)
    (hPmu : uu.pmu = true := by assumption) (hMoved : uu.moved = true := by assumption)
    (hOut : uu.out = true := by assumption) : Kept uu zz (State.commitForwarded s vers) := by
  unfold State.commitForwarded
  repeat' first
    | with_reducible assumption
    | exact {}
    | intro _
    | extract_lets +onlyGivenNames _
    | with_reducible apply Kept.supersede
    | with_reducible refine Kept.foldl ?_ _ ?_
    | split
    | (with_reducible apply Kept.update) <;> [assumption; exact {}]

theorem Kept.commitVersion {uu : Units} {zz s : State} (ver : Nat) (hk : Kept uu zz s)
    (hHce : uu.hce = true := by assumption) (hRfx : uu.rfx = true := by assumption) (hXbr : uu.xbr = true := by assumption)
    (hPmu : uu.pmu = true := by assumption) (hMoved : uu.moved = true := by assumption)
    (hOut : uu.out = true := by assumption) : Kept uu zz (State.commitVersion s ver) := by
  unfold State.commitVersion
  repeat' first
    | with_reducible assumption
    | exact {}
    | intro _
    | (extract_lets +onlyGivenNames x; first | refine Kept.cut x ?_ ?_ <;> [subst x; (clear_value x; intro _)] | skip)
    | with_reducible apply Kept.supersede
    | with_reducible refine Kept.foldl ?_ _ ?_
    | split
    | (with_reducible apply Kept.update) <;> [assumption; exact {}]

theorem Kept.reMirror {uu : Units} {zz s : State} (v : Nat) (n : Nat) (b : Nat) (cnt : Nat) (hk : Kept uu zz s)
    (hRfx : uu.rfx = true := by assumption) (hXbr : uu.xbr = true := by assumption) (hPmu : uu.pmu = true := by assumption)
    (hMoved : uu.moved = true := by assumption) (hOut : uu.out = true := by assumption) : Kept uu zz
    (State.reMirror s v n b cnt) := by
  unfold State.reMirror
  repeat' first
    | with_reducible assumption
    | exact {}
    | intro _
    | extract_lets +onlyGivenNames _
    | with_reducible apply Kept.mirSend
    | with_reducible apply Kept.mirSend2
    | with_reducible refine Kept.foldl ?_ _ ?_

theorem Kept.dropNotice {uu : Units} {zz s : State} (mirror : Bool) (v : Nat) (n : Nat) (b : Nat) (cnt : Nat) (ver : Nat)
    (ring : Nat) (hk : Kept uu zz s) (hRfx : uu.rfx = true := by assumption) (hXbr : uu.xbr = true := by assumption)
    (hPmu : uu.pmu = true := by assumption) (hMoved : uu.moved = true := by assumption)
    (hOut : uu.out = true := by assumption) : Kept uu zz (State.dropNotice s mirror v n b cnt ver ring) := by
  unfold State.dropNotice
  repeat' first
    | with_reducible assumption
    | exact {}
    | intro _
    | extract_lets +onlyGivenNames _
    | with_reducible apply Kept.mirSend
    | with_reducible apply Kept.mirSend2
    | with_reducible apply Kept.reMirror
    | split

theorem Kept.dropVersion {uu : Units} {zz s : State} (ver : Nat) (hk : Kept uu zz s) (hHce : uu.hce = true := by assumption)
    (hRfx : uu.rfx = true := by assumption) (hXbr : uu.xbr = true := by assumption) (hPmu : uu.pmu = true := by assumption)
    (hMoved : uu.moved = true := by assumption) (hOut : uu.out = true := by assumption) : Kept uu zz
    (State.dropVersion s ver) := by
  unfold State.dropVersion
  repeat' first
    | with_reducible assumption
    | exact {}
    | intro _
    | (extract_lets +onlyGivenNames x; first | refine Kept.cut x ?_ ?_ <;> [subst x; (clear_value x; intro _)] | skip)
    | with_reducible apply Kept.dropNotice
    | with_reducible refine Kept.foldl ?_ _ ?_
    | split
    | (with_reducible apply Kept.update) <;> [assumption; exact {}]

theorem Kept.putLost {uu : Units} {zz s : State} (e : LostExtent) (hk : Kept uu zz s)
    (hRge : uu.rge = true := by assumption) (hRfx : uu.rfx = true := by assumption) (hXbr : uu.xbr = true := by assumption)
    (hPmu : uu.pmu = true := by assumption) (hMoved : uu.moved = true := by assumption)
    (hOut : uu.out = true := by assumption) : Kept uu zz (State.putLost s e) := by
  unfold State.putLost
  repeat' first
    | with_reducible assumption
    | exact {}
    | intro _
    | extract_lets +onlyGivenNames _
    | with_reducible apply Kept.sendLine
    | split
    | (with_reducible apply Kept.update) <;> [assumption; exact {}]

theorem Kept.dropLost {uu : Units} {zz s : State} (idx : Nat) (hk : Kept uu zz s) (hRge : uu.rge = true := by assumption)
    (hRfx : uu.rfx = true := by assumption) (hXbr : uu.xbr = true := by assumption) (hPmu : uu.pmu = true := by assumption)
    (hMoved : uu.moved = true := by assumption) (hOut : uu.out = true := by assumption) : Kept uu zz
    (State.dropLost s idx) := by
  unfold State.dropLost
  repeat' first
    | with_reducible assumption
    | exact {}
    | intro _
    | extract_lets +onlyGivenNames _
    | with_reducible apply Kept.sendLine
    | split
    | (with_reducible apply Kept.update) <;> [assumption; exact {}]

theorem Kept.mergeLost {uu : Units} {zz s : State} (hk : Kept uu zz s) (hRge : uu.rge = true := by assumption)
    (hRfx : uu.rfx = true := by assumption) (hXbr : uu.xbr = true := by assumption) (hPmu : uu.pmu = true := by assumption)
    (hMoved : uu.moved = true := by assumption) (hOut : uu.out = true := by assumption) : Kept uu zz
    (State.mergeLost s) := by
  unfold State.mergeLost
  repeat' first
    | with_reducible assumption
    | exact {}
    | intro _
    | extract_lets +onlyGivenNames _
    | with_reducible apply Kept.dropLost
    | with_reducible apply Kept.putLost
    | with_reducible apply Kept.raiseFlag
    | split

theorem Kept.addLost {uu : Units} {zz s : State} (e : LostExtent) (hk : Kept uu zz s)
    (hRge : uu.rge = true := by assumption) (hRfx : uu.rfx = true := by assumption) (hXbr : uu.xbr = true := by assumption)
    (hPmu : uu.pmu = true := by assumption) (hMoved : uu.moved = true := by assumption)
    (hOut : uu.out = true := by assumption) : Kept uu zz (State.addLost s e) := by
  unfold State.addLost
  repeat' first
    | with_reducible assumption
    | exact {}
    | intro _
    | (extract_lets +onlyGivenNames x; first | refine Kept.cut x ?_ ?_ <;> [subst x; (clear_value x; intro _)] | skip)
    | with_reducible apply Kept.putLost
    | with_reducible apply Kept.raiseFlag
    | with_reducible apply Kept.mergeLost
    | split

theorem Kept.recordLost {uu : Units} {zz s : State} (ring : Nat) (rba : Nat) (cause : Nat) (hk : Kept uu zz s)
    (hRge : uu.rge = true := by assumption) (hRfx : uu.rfx = true := by assumption) (hXbr : uu.xbr = true := by assumption)
    (hPmu : uu.pmu = true := by assumption) (hMoved : uu.moved = true := by assumption)
    (hOut : uu.out = true := by assumption) : Kept uu zz (State.recordLost s ring rba cause) := by
  unfold State.recordLost
  repeat' first
    | with_reducible assumption
    | exact {}
    | intro _
    | extract_lets +onlyGivenNames _
    | with_reducible apply Kept.putLost
    | with_reducible apply Kept.addLost
    | split

theorem Kept.clearLost {uu : Units} {zz s : State} (v : Nat) (n : Nat) (b : Nat) (hk : Kept uu zz s)
    (hRge : uu.rge = true := by assumption) (hRfx : uu.rfx = true := by assumption) (hXbr : uu.xbr = true := by assumption)
    (hPmu : uu.pmu = true := by assumption) (hMoved : uu.moved = true := by assumption)
    (hOut : uu.out = true := by assumption) : Kept uu zz (State.clearLost s v n b) := by
  unfold State.clearLost
  repeat' first
    | with_reducible assumption
    | exact {}
    | intro _
    | (extract_lets +onlyGivenNames x; first | refine Kept.cut x ?_ ?_ <;> [subst x; (clear_value x; intro _)] | skip)
    | with_reducible apply Kept.dropLost
    | with_reducible apply Kept.putLost
    | split

theorem Kept.issueWith {uu : Units} {zz s : State} (bay : Nat) (ring : Nat) (slot : Nat) (op : MOp) (lba : Nat)
    (rows : List Nat) (data : List Block) (metas : List (BitVec 128)) (fua : Bool) (purpose : MPurpose) (hk : Kept uu zz s)
    (hBay : uu.bay = true := by assumption) (hPmu : uu.pmu = true := by assumption)
    (hMoved : uu.moved = true := by assumption) (hOut : uu.out = true := by assumption) : Kept uu zz
    (State.issueWith s bay ring slot op lba rows data metas fua purpose) := by
  unfold State.issueWith
  repeat' first
    | with_reducible assumption
    | exact {}
    | intro _
    | (extract_lets +onlyGivenNames x; first | refine Kept.cut x ?_ ?_ <;> [subst x; (clear_value x; intro _)] | skip)
    | with_reducible apply Kept.emit
    | with_reducible apply Kept.count
    | split
    | (with_reducible apply Kept.update) <;> [assumption; exact {}]

theorem Kept.issueMember {uu : Units} {zz s : State} (bay : Nat) (ring : Nat) (slot : Nat) (op : MOp) (lba : Nat)
    (rows : List Nat) (data : List Block) (fua : Bool) (purpose : MPurpose) (hk : Kept uu zz s)
    (hBay : uu.bay = true := by assumption) (hPmu : uu.pmu = true := by assumption)
    (hMoved : uu.moved = true := by assumption) (hOut : uu.out = true := by assumption) : Kept uu zz
    (State.issueMember s bay ring slot op lba rows data fua purpose) := by
  unfold State.issueMember
  repeat' first
    | with_reducible assumption
    | exact {}
    | intro _
    | with_reducible apply Kept.issueWith

theorem Kept.toSlot {uu : Units} {zz s : State} (r : Ring) (slot : Nat) (op : MOp) (lba : Nat) (rows : List Nat)
    (data : List Block) (fua : Bool) (purpose : MPurpose) (hk : Kept uu zz s) (hBay : uu.bay = true := by assumption)
    (hPmu : uu.pmu = true := by assumption) (hMoved : uu.moved = true := by assumption)
    (hOut : uu.out = true := by assumption) : Kept uu zz (State.toSlot s r slot op lba rows data fua purpose) := by
  unfold State.toSlot
  repeat' first
    | with_reducible assumption
    | exact {}
    | intro _
    | with_reducible apply Kept.issueMember
    | split

theorem Kept.askRow {uu : Units} {zz s : State} (gid : Nat) (n : RowNeed) (hk : Kept uu zz s)
    (hBay : uu.bay = true := by assumption) (hPmu : uu.pmu = true := by assumption)
    (hMoved : uu.moved = true := by assumption) (hOut : uu.out = true := by assumption) : Kept uu zz
    (State.askRow s gid n).1 := by
  unfold State.askRow
  repeat' first
    | with_reducible assumption
    | exact {}
    | intro _
    | (extract_lets +onlyGivenNames x; first | refine Kept.cut x ?_ ?_ <;> [subst x; (clear_value x; intro _)] | skip)
    | with_reducible apply Kept.toSlot
    | with_reducible refine Kept.foldl ?_ _ ?_
    | split

theorem Kept.askRows {uu : Units} {zz : State} (gid : Nat) (l : List RowNeed) (hBay : uu.bay = true := by assumption)
    (hPmu : uu.pmu = true := by assumption) (hMoved : uu.moved = true := by assumption)
    (hOut : uu.out = true := by assumption) : ∀ {s : State}, Kept uu zz s → Kept uu zz (State.askRows s gid l).1 := by
  induction l with
  | nil => exact fun h => h
  | cons n l ih => exact fun h => ih (Kept.askRow gid n h)

theorem Kept.startGather {uu : Units} {zz s : State} (owner : GatherFor) (rows : List RowNeed) (hk : Kept uu zz s)
    (hRge : uu.rge = true := by assumption) (hBay : uu.bay = true := by assumption) (hPmu : uu.pmu = true := by assumption)
    (hMoved : uu.moved = true := by assumption) (hOut : uu.out = true := by assumption) : Kept uu zz
    (State.startGather s owner rows) := by
  unfold State.startGather
  repeat' first
    | with_reducible assumption
    | exact {}
    | intro _
    | (extract_lets +onlyGivenNames x; first | refine Kept.cut x ?_ ?_ <;> [subst x; (clear_value x; intro _)] | skip)
    | with_reducible apply Kept.askRows
    | split
    | (with_reducible apply Kept.update) <;> [assumption; exact {}]
    | refine Kept.ofPair (by assumption) ?_
    | refine Kept.ofPair' (by assumption) ?_
    | (with_reducible apply Kept.update) <;> [refine Kept.ofPair (by assumption) ?_; exact {}]

theorem Kept.updPwr {uu : Units} {zz s : State} (f : PwrSt → PwrSt) (hk : Kept uu zz s)
    (hPwr : uu.pwr = true := by assumption) : Kept uu zz (State.updPwr s f) := by
  unfold State.updPwr
  repeat' first
    | with_reducible assumption
    | exact {}
    | intro _
    | split
    | (with_reducible apply Kept.update) <;> [assumption; exact {}]

theorem Kept.wakeDom {uu : Units} {zz s : State} (d : Nat) (hk : Kept uu zz s) (hPwr : uu.pwr = true := by assumption)
    : Kept uu zz (State.wakeDom s d) := by
  unfold State.wakeDom
  repeat' first
    | with_reducible assumption
    | exact {}
    | intro _
    | with_reducible apply Kept.updPwr
    | split

theorem Kept.wakeAll {uu : Units} {zz s : State} (ds : List Nat) (hk : Kept uu zz s) (hPwr : uu.pwr = true := by assumption)
    : Kept uu zz (State.wakeAll s ds) := by
  unfold State.wakeAll
  repeat' first
    | with_reducible assumption
    | exact {}
    | intro _
    | extract_lets +onlyGivenNames _
    | with_reducible apply Kept.wakeDom
    | with_reducible refine Kept.foldl ?_ _ ?_

theorem Kept.wakeStacks {uu : Units} {zz s : State} (hk : Kept uu zz s) (hPwr : uu.pwr = true := by assumption) : Kept uu zz
    (State.wakeStacks s) := by
  unfold State.wakeStacks
  repeat' first
    | with_reducible assumption
    | exact {}
    | intro _
    | with_reducible apply Kept.wakeAll

theorem Kept.cacheInsert {uu : Units} {zz s : State} (v : Nat) (n : Nat) (b : Nat) (written : Bool) (ct : Block) (hk
    : Kept uu zz s) (hHce : uu.hce = true := by assumption) : Kept uu zz (State.cacheInsert s v n b written ct) := by
  unfold State.cacheInsert
  repeat' first
    | with_reducible assumption
    | exact {}
    | intro _
    | extract_lets +onlyGivenNames _
    | split
    | (with_reducible apply Kept.update) <;> [assumption; exact {}]

theorem Kept.cacheDrop {uu : Units} {zz s : State} (p : Nat × Nat × Nat × Bool × Block → Bool) (hk : Kept uu zz s)
    (hHce : uu.hce = true := by assumption) : Kept uu zz (State.cacheDrop s p) := by
  unfold State.cacheDrop
  repeat' first
    | with_reducible assumption
    | exact {}
    | intro _
    | extract_lets +onlyGivenNames _
    | split
    | (with_reducible apply Kept.update) <;> [assumption; exact {}]

end Sys2Proof.Machine
end

