-- ==== Sys2Proof/Laws/KeptPipeline.lean ====
section
/-! SUPPORT. `Kept` for the operations of Machine/Pipeline.lean. -/

set_option Elab.async false

namespace Sys2Proof.Machine

theorem Kept.sendRec {uu : Units} {zz s : State} (r : TagRec) (k : CmdKind) (cqe : Option CplStatus) (hk : Kept uu zz s)
    (hRfx : uu.rfx = true := by assumption) (hXbr : uu.xbr = true := by assumption) (hPmu : uu.pmu = true := by assumption)
    (hMoved : uu.moved = true := by assumption) (hOut : uu.out = true := by assumption) : Kept uu zz
    (State.sendRec s r k cqe) := by
  unfold State.sendRec
  repeat' first
    | with_reducible assumption
    | exact {}
    | intro _
    | with_reducible apply Kept.mirSend

theorem Kept.logError {uu : Units} {zz s : State} (c : Nat) (q : Nat) (cid : Nat) (st : CplStatus) (lba : Nat) (hk
    : Kept uu zz s) (hHce : uu.hce = true := by assumption) : Kept uu zz (State.logError s c q cid st lba) := by
  unfold State.logError
  repeat' first
    | with_reducible assumption
    | exact {}
    | intro _
    | with_reducible apply Kept.updCtrl
    | with_reducible apply Kept.count
    | split

theorem Kept.dataFrames {uu : Units} {zz s : State} (r : TagRec) (inp : Nat) (base : Nat) (n : Nat) (hk : Kept uu zz s)
    (hXbr : uu.xbr = true := by assumption) : Kept uu zz (State.dataFrames s r inp base n) := by
  unfold State.dataFrames
  repeat' first
    | with_reducible assumption
    | exact {}
    | intro _
    | extract_lets +onlyGivenNames _
    | with_reducible apply Kept.xbar
    | with_reducible refine Kept.foldl ?_ _ ?_

theorem Kept.hostFrames {uu : Units} {zz s : State} (id : Nat) (inp : Nat) (n : Nat) (tag : Option Nat) (hk : Kept uu zz s)
    (hXbr : uu.xbr = true := by assumption) : Kept uu zz (State.hostFrames s id inp n tag) := by
  unfold State.hostFrames
  repeat' first
    | with_reducible assumption
    | exact {}
    | intro _
    | extract_lets +onlyGivenNames _
    | with_reducible apply Kept.xbar
    | with_reducible refine Kept.foldl ?_ _ ?_

theorem Kept.dropCopies {uu : Units} {zz s : State} (tag : Nat) (hk : Kept uu zz s) (hXbr : uu.xbr = true := by assumption)
    : Kept uu zz (State.dropCopies s tag) := by
  unfold State.dropCopies
  repeat' first
    | with_reducible assumption
    | exact {}
    | intro _
    | extract_lets +onlyGivenNames _
    | split
    | (with_reducible apply Kept.update) <;> [assumption; exact {}]

theorem Kept.sendXport {uu : Units} {zz s : State} (id : Nat) (hk : Kept uu zz s) (hRfx : uu.rfx = true := by assumption)
    (hXbr : uu.xbr = true := by assumption) (hPmu : uu.pmu = true := by assumption)
    (hMoved : uu.moved = true := by assumption) (hOut : uu.out = true := by assumption) : Kept uu zz
    (State.sendXport s id) := by
  unfold State.sendXport
  repeat' first
    | with_reducible assumption
    | exact {}
    | intro _
    | with_reducible apply Kept.mirSend
    | split

theorem Kept.countCpl {uu : Units} {zz s : State} (vsid : Nat) (op : Nat) (st : CplStatus) (t : Nat) (hk : Kept uu zz s)
    (hPmu : uu.pmu = true := by assumption) (hMoved : uu.moved = true := by assumption) : Kept uu zz
    (State.countCpl s vsid op st t) := by
  unfold State.countCpl
  repeat' first
    | with_reducible assumption
    | exact {}
    | intro _
    | (extract_lets +onlyGivenNames x; refine Kept.cut x ?_ ?_ <;> [subst x; (clear_value x; intro _)])
    | with_reducible apply Kept.hostEvent
    | with_reducible apply Kept.vsCount
    | split

theorem Kept.giveRead {uu : Units} {zz s : State} (r : TagRec) (secs : List Sector) (hk : Kept uu zz s)
    (hPmu : uu.pmu = true := by assumption) (hMoved : uu.moved = true := by assumption)
    (hOut : uu.out = true := by assumption) : Kept uu zz (State.giveRead s r secs) := by
  unfold State.giveRead
  repeat' first
    | with_reducible assumption
    | exact {}
    | intro _
    | extract_lets +onlyGivenNames _
    | with_reducible apply Kept.emit
    | with_reducible apply Kept.hostEvent
    | with_reducible apply Kept.vsCount

theorem Kept.sendRead {uu : Units} {zz s : State} (r : TagRec) (inp : Nat) (secs : List Sector) (hk : Kept uu zz s)
    (hXbr : uu.xbr = true := by assumption) (hPmu : uu.pmu = true := by assumption)
    (hMoved : uu.moved = true := by assumption) (hOut : uu.out = true := by assumption) : Kept uu zz
    (State.sendRead s r inp secs) := by
  unfold State.sendRead
  repeat' first
    | with_reducible assumption
    | exact {}
    | intro _
    | extract_lets +onlyGivenNames _
    | with_reducible apply Kept.giveRead
    | with_reducible apply Kept.dataFrames

theorem Kept.postCqe {uu : Units} {zz s : State} (c : Nat) (q : Nat) (cid : Nat) (st : CplStatus) (dw0 : Nat) (lba : Nat)
    (hk : Kept uu zz s) (hHce : uu.hce = true := by assumption) (hXbr : uu.xbr = true := by assumption)
    (hOut : uu.out = true := by assumption) : Kept uu zz (State.postCqe s c q cid st dw0 lba) := by
  unfold State.postCqe
  repeat' first
    | with_reducible assumption
    | exact {}
    | intro _
    | extract_lets +onlyGivenNames _
    | with_reducible apply Kept.logError
    | with_reducible apply Kept.emit
    | with_reducible apply Kept.hostFrames

theorem Kept.adminCqe {uu : Units} {zz s : State} (c : Nat) (cid : Nat) (st : CplStatus) (dw0 : Nat) (hk : Kept uu zz s)
    (hHce : uu.hce = true := by assumption) (hXbr : uu.xbr = true := by assumption) (hOut : uu.out = true := by assumption)
    : Kept uu zz (State.adminCqe s c cid st dw0) := by
  unfold State.adminCqe
  repeat' first
    | with_reducible assumption
    | exact {}
    | intro _
    | with_reducible apply Kept.postCqe

theorem Kept.adminDone {uu : Units} {zz s : State} (c : Nat) (cid : Nat) (st : CplStatus) (dw0 : Nat) (hk : Kept uu zz s)
    (hHce : uu.hce = true := by assumption) (hRfx : uu.rfx = true := by assumption) (hXbr : uu.xbr = true := by assumption)
    (hPmu : uu.pmu = true := by assumption) (hMoved : uu.moved = true := by assumption)
    (hOut : uu.out = true := by assumption) : Kept uu zz (State.adminDone s c cid st dw0) := by
  unfold State.adminDone
  repeat' first
    | with_reducible assumption
    | exact {}
    | intro _
    | extract_lets +onlyGivenNames _
    | with_reducible apply Kept.mirSend
    | with_reducible apply Kept.adminCqe
    | split

theorem Kept.releaseLocks {uu : Units} {zz s : State} (t : Nat) (hk : Kept uu zz s) (hHce : uu.hce = true := by assumption)
    : Kept uu zz (State.releaseLocks s t) := by
  unfold State.releaseLocks
  repeat' first
    | with_reducible assumption
    | exact {}
    | intro _
    | extract_lets +onlyGivenNames _
    | split
    | (with_reducible apply Kept.update) <;> [assumption; exact {}]

theorem Kept.respond {uu : Units} {zz s : State} (t : Nat) (st : CplStatus) (hk : Kept uu zz s)
    (hHce : uu.hce = true := by assumption) (hRfx : uu.rfx = true := by assumption) (hXbr : uu.xbr = true := by assumption)
    (hPmu : uu.pmu = true := by assumption) (hMoved : uu.moved = true := by assumption)
    (hOut : uu.out = true := by assumption) : Kept uu zz (State.respond s t st) := by
  unfold State.respond
  repeat' first
    | with_reducible assumption
    | exact {}
    | intro _
    | (extract_lets +onlyGivenNames x; refine Kept.cut x ?_ ?_ <;> [subst x; (clear_value x; intro _)])
    | with_reducible apply Kept.updTag
    | with_reducible apply Kept.sendRec
    | split

theorem Kept.leaveGroup {uu : Units} {zz s : State} (t : Nat) (hk : Kept uu zz s) (hRfu : uu.rfu = true := by assumption)
    : Kept uu zz (State.leaveGroup s t) := by
  unfold State.leaveGroup
  repeat' first
    | with_reducible assumption
    | exact {}
    | intro _
    | extract_lets +onlyGivenNames _
    | split
    | (with_reducible apply Kept.update) <;> [assumption; exact {}]

theorem Kept.freeTag {uu : Units} {zz s : State} (t : Nat) (hk : Kept uu zz s) (hHce : uu.hce = true := by assumption)
    (hRfu : uu.rfu = true := by assumption) (hRfx : uu.rfx = true := by assumption) (hXbr : uu.xbr = true := by assumption)
    (hPmu : uu.pmu = true := by assumption) (hMoved : uu.moved = true := by assumption)
    (hOut : uu.out = true := by assumption) : Kept uu zz (State.freeTag s t) := by
  unfold State.freeTag
  repeat' first
    | with_reducible assumption
    | exact {}
    | intro _
    | (extract_lets +onlyGivenNames x; first | refine Kept.cut x ?_ ?_ <;> [subst x; (clear_value x; intro _)] | skip)
    | with_reducible apply Kept.sendRec
    | with_reducible apply Kept.leaveGroup
    | with_reducible apply Kept.sweepDead
    | split
    | (with_reducible apply Kept.update) <;> [assumption; exact {}]

theorem Kept.groupDone {uu : Units} {zz s : State} (t : Nat) (hk : Kept uu zz s) (hRfu : uu.rfu = true := by assumption)
    : Kept uu zz (State.groupDone s t) := by
  unfold State.groupDone
  repeat' first
    | with_reducible assumption
    | exact {}
    | intro _
    | extract_lets +onlyGivenNames _
    | split
    | (with_reducible apply Kept.update) <;> [assumption; exact {}]

theorem Kept.finishAborts {uu : Units} {zz s : State} (c : Nat) (t : Nat) (hk : Kept uu zz s)
    (hHce : uu.hce = true := by assumption) (hRfx : uu.rfx = true := by assumption) (hXbr : uu.xbr = true := by assumption)
    (hPmu : uu.pmu = true := by assumption) (hMoved : uu.moved = true := by assumption)
    (hOut : uu.out = true := by assumption) : Kept uu zz (State.finishAborts s c t) := by
  unfold State.finishAborts
  repeat' first
    | with_reducible assumption
    | exact {}
    | intro _
    | (extract_lets +onlyGivenNames x; first | refine Kept.cut x ?_ ?_ <;> [subst x; (clear_value x; intro _)] | skip)
    | with_reducible apply Kept.updCtrl
    | with_reducible apply Kept.adminDone
    | with_reducible apply Kept.bumpHalf
    | with_reducible refine Kept.foldl ?_ _ ?_
    | split

theorem Kept.sendInvalidate {uu : Units} {zz s : State} (r : TagRec) (hk : Kept uu zz s)
    (hOut : uu.out = true := by assumption) : Kept uu zz (State.sendInvalidate s r) := by
  unfold State.sendInvalidate
  repeat' first
    | with_reducible assumption
    | exact {}
    | intro _
    | with_reducible apply Kept.emit
    | split

theorem Kept.handOff {uu : Units} {zz s : State} (r : TagRec) (st : CplStatus) (hk : Kept uu zz s)
    (hHce : uu.hce = true := by assumption) (hRfu : uu.rfu = true := by assumption) (hRfx : uu.rfx = true := by assumption)
    (hXbr : uu.xbr = true := by assumption) (hPmu : uu.pmu = true := by assumption)
    (hMoved : uu.moved = true := by assumption) (hOut : uu.out = true := by assumption) : Kept uu zz
    (State.handOff s r st) := by
  unfold State.handOff
  repeat' first
    | with_reducible assumption
    | exact {}
    | intro _
    | (extract_lets +onlyGivenNames x; first | refine Kept.cut x ?_ ?_ <;> [subst x; (clear_value x; intro _)] | skip)
    | with_reducible apply Kept.updTag
    | with_reducible apply Kept.postCqe
    | with_reducible apply Kept.sendInvalidate
    | with_reducible apply Kept.countCpl
    | with_reducible apply Kept.groupDone
    | with_reducible apply Kept.finishAborts

theorem Kept.squash {uu : Units} {zz s : State} (t : Nat) (st : CplStatus) (post : Bool) (hk : Kept uu zz s)
    (hHce : uu.hce = true := by assumption) (hRfu : uu.rfu = true := by assumption) (hRfx : uu.rfx = true := by assumption)
    (hXbr : uu.xbr = true := by assumption) (hPmu : uu.pmu = true := by assumption)
    (hMoved : uu.moved = true := by assumption) (hOut : uu.out = true := by assumption) : Kept uu zz
    (State.squash s t st post) := by
  unfold State.squash
  repeat' first
    | with_reducible assumption
    | exact {}
    | intro _
    | (extract_lets +onlyGivenNames x; first | refine Kept.cut x ?_ ?_ <;> [subst x; (clear_value x; intro _)] | skip)
    | with_reducible apply Kept.releaseLocks
    | with_reducible apply Kept.dropVersion
    | with_reducible apply Kept.leaveGroup
    | with_reducible apply Kept.updTag
    | split

theorem Kept.failTag {uu : Units} {zz s : State} (t : Nat) (st : CplStatus) (hk : Kept uu zz s)
    (hHce : uu.hce = true := by assumption) (hRfu : uu.rfu = true := by assumption) (hRfx : uu.rfx = true := by assumption)
    (hXbr : uu.xbr = true := by assumption) (hPmu : uu.pmu = true := by assumption)
    (hMoved : uu.moved = true := by assumption) (hOut : uu.out = true := by assumption) : Kept uu zz
    (State.failTag s t st) := by
  unfold State.failTag
  repeat' first
    | with_reducible assumption
    | exact {}
    | intro _
    | with_reducible apply Kept.squash

theorem Kept.countSources {uu : Units} {zz s : State} (n : Ns) (hits : Nat) (miss : Nat) (hk : Kept uu zz s)
    (hPmu : uu.pmu = true := by assumption) (hMoved : uu.moved = true := by assumption)
    (hFree : uu.free = true := by assumption) : Kept uu zz (State.countSources s n hits miss) := by
  unfold State.countSources
  repeat' first
    | with_reducible assumption
    | exact {}
    | intro _
    | extract_lets +onlyGivenNames _
    | with_reducible apply Kept.hostEvent
    | with_reducible apply Kept.laneWork

theorem Kept.gatherRead {uu : Units} {zz s : State} (r : TagRec) (n : Ns) (hk : Kept uu zz s)
    (hHce : uu.hce = true := by assumption) (hRge : uu.rge = true := by assumption) (hBay : uu.bay = true := by assumption)
    (hPmu : uu.pmu = true := by assumption) (hMoved : uu.moved = true := by assumption)
    (hOut : uu.out = true := by assumption) (hFree : uu.free = true := by assumption) : Kept uu zz
    (State.gatherRead s r n) := by
  unfold State.gatherRead
  repeat' first
    | with_reducible assumption
    | exact {}
    | intro _
    | (extract_lets +onlyGivenNames x; first | refine Kept.cut x ?_ ?_ <;> [subst x; (clear_value x; intro _)] | skip)
    | with_reducible apply Kept.countSources
    | with_reducible apply Kept.updTag
    | with_reducible apply Kept.releaseLocks
    | with_reducible apply Kept.startGather
    | split

theorem Kept.releaseTo {uu : Units} {zz s : State} (n : Ns) (g : Group) (q : Requester) (hk : Kept uu zz s)
    (hHce : uu.hce = true := by assumption) (hRfx : uu.rfx = true := by assumption) (hXbr : uu.xbr = true := by assumption)
    (hPmu : uu.pmu = true := by assumption) (hMoved : uu.moved = true := by assumption)
    (hOut : uu.out = true := by assumption) : Kept uu zz (State.releaseTo s n g q) := by
  unfold State.releaseTo
  repeat' first
    | with_reducible assumption
    | exact {}
    | intro _
    | (extract_lets +onlyGivenNames x; first | refine Kept.cut x ?_ ?_ <;> [subst x; (clear_value x; intro _)] | skip)
    | with_reducible apply Kept.updTag
    | with_reducible apply Kept.sendRead
    | with_reducible apply Kept.giveRead
    | with_reducible apply Kept.respond
    | split

theorem Kept.classFrames {uu : Units} {zz s : State} (n : Ns) (g : Group) (reqs : List Requester) (c : RfuClass) (hk
    : Kept uu zz s) (hXbr : uu.xbr = true := by assumption) : Kept uu zz (State.classFrames s n g reqs c) := by
  unfold State.classFrames
  repeat' first
    | with_reducible assumption
    | exact {}
    | intro _
    | extract_lets +onlyGivenNames _
    | with_reducible apply Kept.xbar
    | with_reducible refine Kept.foldl ?_ _ ?_

theorem Kept.groupRecords {uu : Units} {zz s : State} (g : Group) (hk : Kept uu zz s)
    (hHce : uu.hce = true := by assumption) (hRfx : uu.rfx = true := by assumption) (hXbr : uu.xbr = true := by assumption)
    (hPmu : uu.pmu = true := by assumption) (hMoved : uu.moved = true := by assumption)
    (hOut : uu.out = true := by assumption) : Kept uu zz (State.groupRecords s g) := by
  unfold State.groupRecords
  repeat' first
    | with_reducible assumption
    | exact {}
    | intro _
    | (extract_lets +onlyGivenNames x; first | refine Kept.cut x ?_ ?_ <;> [subst x; (clear_value x; intro _)] | skip)
    | with_reducible apply Kept.sendRec
    | with_reducible apply Kept.updTag
    | with_reducible refine Kept.foldl ?_ _ ?_
    | split

theorem Kept.deliver {uu : Units} {zz s : State} (gid : Nat) (hk : Kept uu zz s) (hHce : uu.hce = true := by assumption)
    (hRfu : uu.rfu = true := by assumption) (hRfx : uu.rfx = true := by assumption) (hXbr : uu.xbr = true := by assumption)
    (hPmu : uu.pmu = true := by assumption) (hMoved : uu.moved = true := by assumption)
    (hOut : uu.out = true := by assumption) : Kept uu zz (State.deliver s gid) := by
  unfold State.deliver
  repeat' first
    | with_reducible assumption
    | exact {}
    | intro _
    | (extract_lets +onlyGivenNames x; first | refine Kept.cut x ?_ ?_ <;> [subst x; (clear_value x; intro _)] | skip)
    | with_reducible apply Kept.groupRecords
    | with_reducible apply Kept.updGroup
    | with_reducible apply Kept.bumpBy
    | with_reducible apply Kept.classFrames
    | with_reducible apply Kept.releaseTo
    | with_reducible refine Kept.foldl ?_ _ ?_
    | split

theorem Kept.closeGroup {uu : Units} {zz s : State} (gid : Nat) (byLock : Bool) (hk : Kept uu zz s)
    (hHce : uu.hce = true := by assumption) (hRfu : uu.rfu = true := by assumption) (hRfx : uu.rfx = true := by assumption)
    (hXbr : uu.xbr = true := by assumption) (hPmu : uu.pmu = true := by assumption)
    (hMoved : uu.moved = true := by assumption) (hOut : uu.out = true := by assumption) : Kept uu zz
    (State.closeGroup s gid byLock) := by
  unfold State.closeGroup
  repeat' first
    | with_reducible assumption
    | exact {}
    | intro _
    | extract_lets +onlyGivenNames _
    | with_reducible apply Kept.updGroup
    | with_reducible apply Kept.deliver

theorem Kept.soloClose {uu : Units} {zz s : State} (gid : Nat) (hk : Kept uu zz s) (hHce : uu.hce = true := by assumption)
    (hRfu : uu.rfu = true := by assumption) (hRfx : uu.rfx = true := by assumption) (hXbr : uu.xbr = true := by assumption)
    (hPmu : uu.pmu = true := by assumption) (hMoved : uu.moved = true := by assumption)
    (hOut : uu.out = true := by assumption) : Kept uu zz (State.soloClose s gid) := by
  unfold State.soloClose
  repeat' first
    | with_reducible assumption
    | exact {}
    | intro _
    | extract_lets +onlyGivenNames _
    | with_reducible apply Kept.bump
    | with_reducible apply Kept.closeGroup
    | split

theorem Kept.failGroup {uu : Units} {zz s : State} (gid : Nat) (hk : Kept uu zz s) (hHce : uu.hce = true := by assumption)
    (hRfu : uu.rfu = true := by assumption) (hRfx : uu.rfx = true := by assumption) (hXbr : uu.xbr = true := by assumption)
    (hPmu : uu.pmu = true := by assumption) (hMoved : uu.moved = true := by assumption)
    (hOut : uu.out = true := by assumption) : Kept uu zz (State.failGroup s gid) := by
  unfold State.failGroup
  repeat' first
    | with_reducible assumption
    | exact {}
    | intro _
    | (extract_lets +onlyGivenNames x; first | refine Kept.cut x ?_ ?_ <;> [subst x; (clear_value x; intro _)] | skip)
    | with_reducible apply Kept.failTag
    | with_reducible refine Kept.foldl ?_ _ ?_
    | split
    | (with_reducible apply Kept.update) <;> [assumption; exact {}]

theorem Kept.groupReady {uu : Units} {zz s : State} (gid : Nat) (hk : Kept uu zz s) (hHce : uu.hce = true := by assumption)
    (hRfu : uu.rfu = true := by assumption) (hRfx : uu.rfx = true := by assumption) (hXbr : uu.xbr = true := by assumption)
    (hPmu : uu.pmu = true := by assumption) (hMoved : uu.moved = true := by assumption)
    (hOut : uu.out = true := by assumption) : Kept uu zz (State.groupReady s gid) := by
  unfold State.groupReady
  repeat' first
    | with_reducible assumption
    | exact {}
    | intro _
    | (extract_lets +onlyGivenNames x; first | refine Kept.cut x ?_ ?_ <;> [subst x; (clear_value x; intro _)] | skip)
    | with_reducible apply Kept.failGroup
    | with_reducible apply Kept.updGroup
    | with_reducible apply Kept.cacheInsert
    | with_reducible apply Kept.releaseLocks
    | with_reducible apply Kept.soloClose
    | with_reducible apply Kept.deliver
    | with_reducible refine Kept.foldl ?_ _ ?_
    | split

theorem Kept.groupRead {uu : Units} {zz s : State} (gid : Nat) (n : Ns) (b0 : Nat) (cnt : Nat) (hk : Kept uu zz s)
    (hRfu : uu.rfu = true := by assumption) (hRge : uu.rge = true := by assumption) (hBay : uu.bay = true := by assumption)
    (hPmu : uu.pmu = true := by assumption) (hMoved : uu.moved = true := by assumption)
    (hOut : uu.out = true := by assumption) (hFree : uu.free = true := by assumption) : Kept uu zz
    (State.groupRead s gid n b0 cnt) := by
  unfold State.groupRead
  repeat' first
    | with_reducible assumption
    | exact {}
    | intro _
    | (extract_lets +onlyGivenNames x; first | refine Kept.cut x ?_ ?_ <;> [subst x; (clear_value x; intro _)] | skip)
    | with_reducible apply Kept.countSources
    | with_reducible apply Kept.updGroup
    | with_reducible apply Kept.startGather
    | split

theorem Kept.joinGroup {uu : Units} {zz s : State} (g : Group) (t : Nat) (hk : Kept uu zz s)
    (hHce : uu.hce = true := by assumption) (hRfu : uu.rfu = true := by assumption) (hRfx : uu.rfx = true := by assumption)
    (hXbr : uu.xbr = true := by assumption) (hPmu : uu.pmu = true := by assumption)
    (hMoved : uu.moved = true := by assumption) (hOut : uu.out = true := by assumption) : Kept uu zz
    (State.joinGroup s g t) := by
  unfold State.joinGroup
  repeat' first
    | with_reducible assumption
    | exact {}
    | intro _
    | (extract_lets +onlyGivenNames x; first | refine Kept.cut x ?_ ?_ <;> [subst x; (clear_value x; intro _)] | skip)
    | with_reducible apply Kept.updTag
    | with_reducible apply Kept.updGroup
    | with_reducible apply Kept.bump
    | with_reducible apply Kept.releaseLocks
    | with_reducible apply Kept.hostEvent
    | with_reducible apply Kept.closeGroup
    | with_reducible apply Kept.soloClose
    | split

theorem Kept.openGroup {uu : Units} {zz s : State} (r : TagRec) (n : Ns) (hk : Kept uu zz s)
    (hHce : uu.hce = true := by assumption) (hRfu : uu.rfu = true := by assumption) (hRge : uu.rge = true := by assumption)
    (hBay : uu.bay = true := by assumption) (hPmu : uu.pmu = true := by assumption)
    (hMoved : uu.moved = true := by assumption) (hOut : uu.out = true := by assumption)
    (hFree : uu.free = true := by assumption) : Kept uu zz (State.openGroup s r n) := by
  unfold State.openGroup
  repeat' first
    | with_reducible assumption
    | exact {}
    | intro _
    | (extract_lets +onlyGivenNames x; first | refine Kept.cut x ?_ ?_ <;> [subst x; (clear_value x; intro _)] | skip)
    | with_reducible apply Kept.updTag
    | with_reducible apply Kept.bump
    | with_reducible apply Kept.groupRead
    | split
    | (with_reducible apply Kept.update) <;> [assumption; exact {}]

theorem Kept.offer {uu : Units} {zz s : State} (t : Nat) (hk : Kept uu zz s) (hHce : uu.hce = true := by assumption)
    (hRfu : uu.rfu = true := by assumption) (hRge : uu.rge = true := by assumption) (hRfx : uu.rfx = true := by assumption)
    (hBay : uu.bay = true := by assumption) (hXbr : uu.xbr = true := by assumption) (hPmu : uu.pmu = true := by assumption)
    (hMoved : uu.moved = true := by assumption) (hOut : uu.out = true := by assumption)
    (hFree : uu.free = true := by assumption) : Kept uu zz (State.offer s t) := by
  unfold State.offer
  repeat' first
    | with_reducible assumption
    | exact {}
    | intro _
    | extract_lets +onlyGivenNames _
    | with_reducible apply Kept.failTag
    | with_reducible apply Kept.joinGroup
    | with_reducible apply Kept.bump
    | with_reducible apply Kept.gatherRead
    | with_reducible apply Kept.openGroup
    | split

theorem Kept.placeWrite {uu : Units} {zz s : State} (t : Nat) (hk : Kept uu zz s) (hHce : uu.hce = true := by assumption)
    (hRge : uu.rge = true := by assumption) (hRfx : uu.rfx = true := by assumption) (hBay : uu.bay = true := by assumption)
    (hXbr : uu.xbr = true := by assumption) (hPwr : uu.pwr = true := by assumption) (hPmu : uu.pmu = true := by assumption)
    (hMoved : uu.moved = true := by assumption) (hOut : uu.out = true := by assumption)
    (hFree : uu.free = true := by assumption) : Kept uu zz (State.placeWrite s t) := by
  unfold State.placeWrite
  repeat' first
    | with_reducible assumption
    | exact {}
    | intro _
    | (extract_lets +onlyGivenNames x; first | refine Kept.cut x ?_ ?_ <;> [subst x; (clear_value x; intro _)] | skip)
    | with_reducible apply Kept.countSources
    | with_reducible apply Kept.startGather
    | with_reducible apply Kept.wakeStacks
    | with_reducible apply Kept.mirSendAll
    | with_reducible apply Kept.mirSend2
    | with_reducible apply Kept.hostEvent
    | with_reducible apply Kept.vsCount
    | with_reducible apply Kept.updTag
    | with_reducible refine Kept.foldl ?_ _ ?_
    | split
    | (with_reducible apply Kept.update) <;> [assumption; exact {}]

theorem Kept.lockGranted {uu : Units} {zz s : State} (t : Nat) (hk : Kept uu zz s) (hHce : uu.hce = true := by assumption)
    (hRfu : uu.rfu = true := by assumption) (hRge : uu.rge = true := by assumption) (hRfx : uu.rfx = true := by assumption)
    (hBay : uu.bay = true := by assumption) (hXbr : uu.xbr = true := by assumption) (hPwr : uu.pwr = true := by assumption)
    (hPmu : uu.pmu = true := by assumption) (hMoved : uu.moved = true := by assumption)
    (hOut : uu.out = true := by assumption) (hFree : uu.free = true := by assumption) : Kept uu zz
    (State.lockGranted s t) := by
  unfold State.lockGranted
  repeat' first
    | with_reducible assumption
    | exact {}
    | intro _
    | (extract_lets +onlyGivenNames x; first | refine Kept.cut x ?_ ?_ <;> [subst x; (clear_value x; intro _)] | skip)
    | with_reducible apply Kept.closeGroup
    | with_reducible apply Kept.updTag
    | with_reducible apply Kept.offer
    | with_reducible apply Kept.placeWrite
    | with_reducible refine Kept.foldl ?_ _ ?_
    | split

theorem Kept.tryLock {uu : Units} {zz s : State} (t : Nat) (hk : Kept uu zz s) (hHce : uu.hce = true := by assumption)
    (hRfu : uu.rfu = true := by assumption) (hRge : uu.rge = true := by assumption) (hRfx : uu.rfx = true := by assumption)
    (hBay : uu.bay = true := by assumption) (hXbr : uu.xbr = true := by assumption) (hPwr : uu.pwr = true := by assumption)
    (hPmu : uu.pmu = true := by assumption) (hMoved : uu.moved = true := by assumption)
    (hOut : uu.out = true := by assumption) (hFree : uu.free = true := by assumption) : Kept uu zz (State.tryLock s t) := by
  unfold State.tryLock
  repeat' first
    | with_reducible assumption
    | exact {}
    | intro _
    | (extract_lets +onlyGivenNames x; first | refine Kept.cut x ?_ ?_ <;> [subst x; (clear_value x; intro _)] | skip)
    | with_reducible apply Kept.lockGranted
    | split
    | (with_reducible apply Kept.update) <;> [assumption; exact {}]

theorem Kept.commitRead {uu : Units} {zz s : State} (r : TagRec) (n : Ns) (hk : Kept uu zz s)
    (hHce : uu.hce = true := by assumption) (hRfx : uu.rfx = true := by assumption) (hXbr : uu.xbr = true := by assumption)
    (hPmu : uu.pmu = true := by assumption) (hMoved : uu.moved = true := by assumption)
    (hOut : uu.out = true := by assumption) : Kept uu zz (State.commitRead s r n) := by
  unfold State.commitRead
  repeat' first
    | with_reducible assumption
    | exact {}
    | intro _
    | (extract_lets +onlyGivenNames x; first | refine Kept.cut x ?_ ?_ <;> [subst x; (clear_value x; intro _)] | skip)
    | with_reducible apply Kept.sendRec
    | with_reducible apply Kept.updTag
    | with_reducible apply Kept.sendRead
    | with_reducible apply Kept.respond
    | split

theorem Kept.commitWrite {uu : Units} {zz s : State} (r : TagRec) (hk : Kept uu zz s)
    (hHce : uu.hce = true := by assumption) (hRfx : uu.rfx = true := by assumption) (hXbr : uu.xbr = true := by assumption)
    (hPmu : uu.pmu = true := by assumption) (hMoved : uu.moved = true := by assumption)
    (hOut : uu.out = true := by assumption) : Kept uu zz (State.commitWrite s r) := by
  unfold State.commitWrite
  repeat' first
    | with_reducible assumption
    | exact {}
    | intro _
    | (extract_lets +onlyGivenNames x; first | refine Kept.cut x ?_ ?_ <;> [subst x; (clear_value x; intro _)] | skip)
    | with_reducible apply Kept.commitVersion
    | with_reducible apply Kept.releaseLocks
    | with_reducible apply Kept.updTag
    | with_reducible apply Kept.respond

theorem Kept.settle {uu : Units} {zz s : State} (t : Nat) (hk : Kept uu zz s) (hHce : uu.hce = true := by assumption)
    (hRfu : uu.rfu = true := by assumption) (hRfx : uu.rfx = true := by assumption) (hXbr : uu.xbr = true := by assumption)
    (hPmu : uu.pmu = true := by assumption) (hMoved : uu.moved = true := by assumption)
    (hOut : uu.out = true := by assumption) : Kept uu zz (State.settle s t) := by
  unfold State.settle
  repeat' first
    | with_reducible assumption
    | exact {}
    | intro _
    | with_reducible apply Kept.freeTag
    | split

theorem Kept.rereadDone {uu : Units} {zz s : State} (r : TagRec) (n : Ns) (lost : Bool) (hk : Kept uu zz s)
    (hHce : uu.hce = true := by assumption) (hRfu : uu.rfu = true := by assumption) (hRfx : uu.rfx = true := by assumption)
    (hXbr : uu.xbr = true := by assumption) (hPmu : uu.pmu = true := by assumption)
    (hMoved : uu.moved = true := by assumption) (hOut : uu.out = true := by assumption) : Kept uu zz
    (State.rereadDone s r n lost) := by
  unfold State.rereadDone
  repeat' first
    | with_reducible assumption
    | exact {}
    | intro _
    | (extract_lets +onlyGivenNames x; first | refine Kept.cut x ?_ ?_ <;> [subst x; (clear_value x; intro _)] | skip)
    | with_reducible apply Kept.respond
    | with_reducible apply Kept.sendRead
    | with_reducible apply Kept.settle
    | split

theorem Kept.windTag {uu : Units} {zz s : State} (t : Nat) (hk : Kept uu zz s) (hHce : uu.hce = true := by assumption)
    (hRfu : uu.rfu = true := by assumption) (hRfx : uu.rfx = true := by assumption) (hXbr : uu.xbr = true := by assumption)
    (hPmu : uu.pmu = true := by assumption) (hMoved : uu.moved = true := by assumption)
    (hOut : uu.out = true := by assumption) : Kept uu zz (State.windTag s t) := by
  unfold State.windTag
  repeat' first
    | with_reducible assumption
    | exact {}
    | intro _
    | (extract_lets +onlyGivenNames x; first | refine Kept.cut x ?_ ?_ <;> [subst x; (clear_value x; intro _)] | skip)
    | with_reducible apply Kept.freeTag
    | with_reducible apply Kept.dropCopies
    | with_reducible apply Kept.updTag
    | with_reducible apply Kept.squash
    | with_reducible apply Kept.settle
    | split

theorem Kept.endQueue {uu : Units} {zz s : State} (c : Nat) (q : Nat) (hk : Kept uu zz s)
    (hHce : uu.hce = true := by assumption) (hRfu : uu.rfu = true := by assumption) (hRfx : uu.rfx = true := by assumption)
    (hXbr : uu.xbr = true := by assumption) (hPmu : uu.pmu = true := by assumption)
    (hMoved : uu.moved = true := by assumption) (hOut : uu.out = true := by assumption) : Kept uu zz
    (State.endQueue s c q) := by
  unfold State.endQueue
  repeat' first
    | with_reducible assumption
    | exact {}
    | intro _
    | (extract_lets +onlyGivenNames x; first | refine Kept.cut x ?_ ?_ <;> [subst x; (clear_value x; intro _)] | skip)
    | with_reducible apply Kept.windTag
    | with_reducible refine Kept.foldl ?_ _ ?_
    | split
    | (with_reducible apply Kept.update) <;> [assumption; exact {}]

theorem Kept.dropConn {uu : Units} {zz s : State} (c : Nat) (hk : Kept uu zz s) (hHce : uu.hce = true := by assumption)
    (hRfx : uu.rfx = true := by assumption) (hKvt : uu.kvt = true := by assumption) (hXbr : uu.xbr = true := by assumption)
    (hPmu : uu.pmu = true := by assumption) (hMoved : uu.moved = true := by assumption)
    (hOut : uu.out = true := by assumption) : Kept uu zz (State.dropConn s c) := by
  unfold State.dropConn
  repeat' first
    | with_reducible assumption
    | exact {}
    | intro _
    | (extract_lets +onlyGivenNames x; first | refine Kept.cut x ?_ ?_ <;> [subst x; (clear_value x; intro _)] | skip)
    | with_reducible apply Kept.mirSend
    | split
    | (with_reducible apply Kept.update) <;> [assumption; exact {}]

theorem Kept.closeConn {uu : Units} {zz s : State} (c : Nat) (hk : Kept uu zz s) (hHce : uu.hce = true := by assumption)
    (hRfx : uu.rfx = true := by assumption) (hKvt : uu.kvt = true := by assumption) (hXbr : uu.xbr = true := by assumption)
    (hPmu : uu.pmu = true := by assumption) (hMoved : uu.moved = true := by assumption)
    (hOut : uu.out = true := by assumption) : Kept uu zz (State.closeConn s c) := by
  unfold State.closeConn
  repeat' first
    | with_reducible assumption
    | exact {}
    | intro _
    | extract_lets +onlyGivenNames _
    | with_reducible apply Kept.emit
    | with_reducible apply Kept.dropConn
    | split

theorem Kept.forgetFormats {uu : Units} {zz s : State} (c : Nat) (hk : Kept uu zz s) (hHce : uu.hce = true := by assumption)
    : Kept uu zz (State.forgetFormats s c) := by
  unfold State.forgetFormats
  repeat' first
    | with_reducible assumption
    | exact {}
    | intro _
    | extract_lets +onlyGivenNames _
    | split
    | (with_reducible apply Kept.update) <;> [assumption; exact {}]

theorem Kept.beginReset {uu : Units} {zz s : State} (c : Nat) (disc : Option Nat) (ends : Bool) (hk : Kept uu zz s)
    (hHce : uu.hce = true := by assumption) (hRfu : uu.rfu = true := by assumption) (hRfx : uu.rfx = true := by assumption)
    (hXbr : uu.xbr = true := by assumption) (hPmu : uu.pmu = true := by assumption)
    (hMoved : uu.moved = true := by assumption) (hOut : uu.out = true := by assumption) : Kept uu zz
    (State.beginReset s c disc ends) := by
  unfold State.beginReset
  repeat' first
    | with_reducible assumption
    | exact {}
    | intro _
    | (extract_lets +onlyGivenNames x; first | refine Kept.cut x ?_ ?_ <;> [subst x; (clear_value x; intro _)] | skip)
    | with_reducible apply Kept.endQueue
    | with_reducible apply Kept.windTag
    | with_reducible apply Kept.forgetFormats
    | with_reducible apply Kept.updCtrl
    | with_reducible refine Kept.foldl ?_ _ ?_
    | split

theorem Kept.loseConn {uu : Units} {zz s : State} (id : Nat) (hk : Kept uu zz s) (hHce : uu.hce = true := by assumption)
    (hRfu : uu.rfu = true := by assumption) (hRfx : uu.rfx = true := by assumption) (hKvt : uu.kvt = true := by assumption)
    (hXbr : uu.xbr = true := by assumption) (hPmu : uu.pmu = true := by assumption)
    (hMoved : uu.moved = true := by assumption) (hOut : uu.out = true := by assumption) : Kept uu zz
    (State.loseConn s id) := by
  unfold State.loseConn
  repeat' first
    | with_reducible assumption
    | exact {}
    | intro _
    | (extract_lets +onlyGivenNames x; refine Kept.cut x ?_ ?_ <;> [subst x; (clear_value x; intro _)])
    | with_reducible apply Kept.dropConn
    | with_reducible apply Kept.endQueue
    | with_reducible apply Kept.beginReset
    | split

end Sys2Proof.Machine
end

