-- ==== Sys2Proof/Laws/KeptIngress.lean ====
section
/-! SUPPORT. `Kept` for the operations of Machine/Ingress.lean. -/

set_option Elab.async false

namespace Sys2Proof.Machine

theorem Kept.setExLevel {uu : Units} {zz s : State} (n : Nat) (l : Int) (hk : Kept uu zz s)
    (hPpc : uu.ppc = true := by assumption) : Kept uu zz (State.setExLevel s n l) := by
  unfold State.setExLevel
  repeat' first
    | with_reducible assumption
    | exact {}
    | intro _
    | extract_lets +onlyGivenNames _
    | split
    | (with_reducible apply Kept.update) <;> [assumption; exact {}]

theorem Kept.offerEx {uu : Units} {zz s : State} (cause : Nat) (i : PassInfo) (p : Parsed) (bs : List Byte) (rule : Nat)
    (mcode : Nat) (cookie : Nat) (hk : Kept uu zz s) (hPpc : uu.ppc = true := by assumption)
    (hMoved : uu.moved = true := by assumption) : Kept uu zz (State.offerEx s cause i p bs rule mcode cookie) := by
  unfold State.offerEx
  repeat' first
    | with_reducible assumption
    | exact {}
    | intro _
    | (extract_lets +onlyGivenNames x; first | refine Kept.cut x ?_ ?_ <;> [subst x; (clear_value x; intro _)] | skip)
    | with_reducible apply Kept.setExLevel
    | with_reducible apply Kept.bump
    | split
    | (with_reducible apply Kept.update) <;> [assumption; exact {}]

theorem Kept.setPolicer {uu : Units} {zz s : State} (p : Policer) (hk : Kept uu zz s)
    (hPpc : uu.ppc = true := by assumption) : Kept uu zz (State.setPolicer s p) := by
  unfold State.setPolicer
  repeat' first
    | with_reducible assumption
    | exact {}
    | intro _
    | extract_lets +onlyGivenNames _
    | split
    | (with_reducible apply Kept.update) <;> [assumption; exact {}]

theorem Kept.pfcXon {uu : Units} {zz s : State} (port : Nat) (cls : Nat) (hk : Kept uu zz s)
    (hXbr : uu.xbr = true := by assumption) (hOut : uu.out = true := by assumption) : Kept uu zz
    (State.pfcXon s port cls) := by
  unfold State.pfcXon
  repeat' first
    | with_reducible assumption
    | exact {}
    | intro _
    | extract_lets +onlyGivenNames _
    | with_reducible apply Kept.emit
    | split
    | (with_reducible apply Kept.update) <;> [assumption; exact {}]

theorem Kept.pfcJudge {uu : Units} {zz s : State} (port : Nat) (cls : Nat) (hk : Kept uu zz s)
    (hXbr : uu.xbr = true := by assumption) (hOut : uu.out = true := by assumption) : Kept uu zz
    (State.pfcJudge s port cls) := by
  unfold State.pfcJudge
  repeat' first
    | with_reducible assumption
    | exact {}
    | intro _
    | extract_lets +onlyGivenNames _
    | with_reducible apply Kept.pfcXon
    | with_reducible apply Kept.emit
    | split
    | (with_reducible apply Kept.update) <;> [assumption; exact {}]

theorem Kept.cnpSend {uu : Units} {zz s : State} (k : HConn) (hk : Kept uu zz s) (hXbr : uu.xbr = true := by assumption)
    (hMoved : uu.moved = true := by assumption) (hOut : uu.out = true := by assumption) : Kept uu zz
    (State.cnpSend s k) := by
  unfold State.cnpSend
  repeat' first
    | with_reducible assumption
    | exact {}
    | intro _
    | (extract_lets +onlyGivenNames x; first | refine Kept.cut x ?_ ?_ <;> [subst x; (clear_value x; intro _)] | skip)
    | with_reducible apply Kept.emit
    | with_reducible apply Kept.hostFrames
    | with_reducible apply Kept.bump
    | split
    | (with_reducible apply Kept.update) <;> [assumption; exact {}]

theorem Kept.toHce {uu : Units} {zz s : State} (i : PassInfo) (bs : List Byte) (p : Parsed) (r : Rule) (icls : Nat)
    (len : Nat) (hk : Kept uu zz s) (hHce : uu.hce = true := by assumption) (hRfu : uu.rfu = true := by assumption)
    (hRfx : uu.rfx = true := by assumption) (hKvt : uu.kvt = true := by assumption) (hXbr : uu.xbr = true := by assumption)
    (hPmu : uu.pmu = true := by assumption) (hMoved : uu.moved = true := by assumption)
    (hOut : uu.out = true := by assumption) : Kept uu zz (State.toHce s i bs p r icls len) := by
  unfold State.toHce
  repeat' first
    | with_reducible assumption
    | exact {}
    | intro _
    | (extract_lets +onlyGivenNames x; first | refine Kept.cut x ?_ ?_ <;> [subst x; (clear_value x; intro _)] | skip)
    | with_reducible apply Kept.xbar
    | with_reducible apply Kept.updConn
    | with_reducible apply Kept.cnpSend
    | with_reducible apply Kept.bump
    | with_reducible apply Kept.emit
    | with_reducible apply Kept.loseConn
    | split

theorem Kept.badRelti {uu : Units} {zz s : State} (hk : Kept uu zz s) (hMoved : uu.moved = true := by assumption)
    : Kept uu zz (State.badRelti s) := by
  unfold State.badRelti
  repeat' first
    | with_reducible assumption
    | exact {}
    | intro _
    | with_reducible apply Kept.bump

theorem Kept.recirculate {uu : Units} {zz s : State} (i : PassInfo) (bs : List Byte) (p : Parsed) (r : Rule) (icls : Nat)
    (len : Nat) (policed : Bool) (yellow : Bool) (icrcOk : Bool) (hk : Kept uu zz s) (hPpc : uu.ppc = true := by assumption)
    (hXbr : uu.xbr = true := by assumption) (hMoved : uu.moved = true := by assumption) : Kept uu zz
    (State.recirculate s i bs p r icls len policed yellow icrcOk) := by
  unfold State.recirculate
  repeat' first
    | with_reducible assumption
    | exact {}
    | intro _
    | (extract_lets +onlyGivenNames x; first | refine Kept.cut x ?_ ?_ <;> [subst x; (clear_value x; intro _)] | skip)
    | with_reducible apply Kept.bump
    | with_reducible apply Kept.offerEx
    | with_reducible apply Kept.xbar
    | split
    | (with_reducible apply Kept.update) <;> [assumption; exact {}]

theorem Kept.countRule {uu : Units} {zz s : State} (r : Rule) (len : Nat) (hk : Kept uu zz s)
    (hPpc : uu.ppc = true := by assumption) : Kept uu zz (State.countRule s r len) := by
  unfold State.countRule
  repeat' first
    | with_reducible assumption
    | exact {}
    | intro _
    | extract_lets +onlyGivenNames _
    | with_reducible apply Kept.count
    | split
    | (with_reducible apply Kept.update) <;> [assumption; exact {}]

theorem Kept.applyRule {uu : Units} {zz s : State} (i : PassInfo) (bs : List Byte) (p : Parsed) (r : Rule) (icls : Nat)
    (len : Nat) (policed : Bool) (yellow : Bool) (icrcOk : Bool) (hk : Kept uu zz s) (hHce : uu.hce = true := by assumption)
    (hRfu : uu.rfu = true := by assumption) (hRfx : uu.rfx = true := by assumption) (hKvt : uu.kvt = true := by assumption)
    (hPpc : uu.ppc = true := by assumption) (hXbr : uu.xbr = true := by assumption) (hPmu : uu.pmu = true := by assumption)
    (hMoved : uu.moved = true := by assumption) (hOut : uu.out = true := by assumption) : Kept uu zz
    (State.applyRule s i bs p r icls len policed yellow icrcOk) := by
  unfold State.applyRule
  repeat' first
    | with_reducible assumption
    | exact {}
    | intro _
    | (extract_lets +onlyGivenNames x; first | refine Kept.cut x ?_ ?_ <;> [subst x; (clear_value x; intro _)] | skip)
    | with_reducible apply Kept.countRule
    | with_reducible apply Kept.setPolicer
    | with_reducible apply Kept.bump
    | with_reducible apply Kept.toHce
    | with_reducible apply Kept.badRelti
    | with_reducible apply Kept.offerEx
    | with_reducible apply Kept.recirculate
    | split
    | (with_reducible apply Kept.update) <;> [assumption; exact {}]
    | refine Kept.ofPair (by assumption) ?_
    | refine Kept.ofPair' (by assumption) ?_

theorem Kept.onePass {uu : Units} {zz s : State} (i : PassInfo) (bs : List Byte) (icls : Nat) (len : Nat) (policed : Bool)
    (yellow : Bool) (icrcOk : Bool) (hk : Kept uu zz s) (hHce : uu.hce = true := by assumption)
    (hRfu : uu.rfu = true := by assumption) (hRfx : uu.rfx = true := by assumption) (hKvt : uu.kvt = true := by assumption)
    (hPpc : uu.ppc = true := by assumption) (hXbr : uu.xbr = true := by assumption) (hPmu : uu.pmu = true := by assumption)
    (hMoved : uu.moved = true := by assumption) (hOut : uu.out = true := by assumption) : Kept uu zz
    (State.onePass s i bs icls len policed yellow icrcOk) := by
  unfold State.onePass
  repeat' first
    | with_reducible assumption
    | exact {}
    | intro _
    | extract_lets +onlyGivenNames _
    | with_reducible apply Kept.bump
    | with_reducible apply Kept.offerEx
    | with_reducible apply Kept.badRelti
    | with_reducible apply Kept.applyRule
    | split

theorem Kept.tlsBad {uu : Units} {zz s : State} (conn : Nat) (hk : Kept uu zz s) (hHce : uu.hce = true := by assumption)
    (hRfu : uu.rfu = true := by assumption) (hRfx : uu.rfx = true := by assumption) (hKvt : uu.kvt = true := by assumption)
    (hXbr : uu.xbr = true := by assumption) (hPmu : uu.pmu = true := by assumption)
    (hMoved : uu.moved = true := by assumption) (hOut : uu.out = true := by assumption) : Kept uu zz
    (State.tlsBad s conn) := by
  unfold State.tlsBad
  repeat' first
    | with_reducible assumption
    | exact {}
    | intro _
    | extract_lets +onlyGivenNames _
    | with_reducible apply Kept.bump
    | with_reducible apply Kept.emit
    | with_reducible apply Kept.loseConn

theorem Kept.tlsReceived {uu : Units} {zz s : State} (conn : Nat) (hk : Kept uu zz s)
    (hHce : uu.hce = true := by assumption) (hRfu : uu.rfu = true := by assumption) (hRfx : uu.rfx = true := by assumption)
    (hKvt : uu.kvt = true := by assumption) (hXbr : uu.xbr = true := by assumption) (hPmu : uu.pmu = true := by assumption)
    (hMoved : uu.moved = true := by assumption) (hOut : uu.out = true := by assumption) : Kept uu zz
    (State.tlsReceived s conn) := by
  unfold State.tlsReceived
  repeat' first
    | with_reducible assumption
    | exact {}
    | intro _
    | extract_lets +onlyGivenNames _
    | with_reducible apply Kept.emit
    | with_reducible apply Kept.loseConn
    | split
    | (with_reducible apply Kept.update) <;> [assumption; exact {}]

theorem Kept.swapNow {uu : Units} {zz s : State} (hk : Kept uu zz s) (hPpc : uu.ppc = true := by assumption) : Kept uu zz
    (State.swapNow s) := by
  unfold State.swapNow
  repeat' first
    | with_reducible assumption
    | exact {}
    | intro _
    | extract_lets +onlyGivenNames _
    | split
    | (with_reducible apply Kept.update) <;> [assumption; exact {}]

theorem Kept.requestSwap {uu : Units} {zz s : State} (by_ : Option (Master × Nat)) (hk : Kept uu zz s)
    (hPpc : uu.ppc = true := by assumption) : Kept uu zz (State.requestSwap s by_) := by
  unfold State.requestSwap
  repeat' first
    | with_reducible assumption
    | exact {}
    | intro _
    | extract_lets +onlyGivenNames _
    | with_reducible apply Kept.swapNow
    | split
    | (with_reducible apply Kept.update) <;> [assumption; exact {}]

theorem Kept.putEntry {uu : Units} {zz s : State} (w : Word) (e : List Byte) (hk : Kept uu zz s)
    (hPpc : uu.ppc = true := by assumption) : Kept uu zz (State.putEntry s w e) := by
  unfold State.putEntry
  repeat' first
    | with_reducible assumption
    | exact {}
    | intro _
    | extract_lets +onlyGivenNames _
    | split
    | (with_reducible apply Kept.update) <;> [assumption; exact {}]

theorem Kept.tableCommit {uu : Units} {zz s : State} (hk : Kept uu zz s) (hPpc : uu.ppc = true := by assumption)
    (hMoved : uu.moved = true := by assumption) : Kept uu zz (State.tableCommit s) := by
  unfold State.tableCommit
  repeat' first
    | with_reducible assumption
    | exact {}
    | intro _
    | extract_lets +onlyGivenNames _
    | with_reducible apply Kept.raiseFlag
    | with_reducible apply Kept.putEntry
    | split
    | (with_reducible apply Kept.update) <;> [assumption; exact {}]

theorem Kept.tableRead {uu : Units} {zz s : State} (hk : Kept uu zz s) (hMoved : uu.moved = true := by assumption)
    (hCfg : uu.cfg = true := by assumption) : Kept uu zz (State.tableRead s) := by
  unfold State.tableRead
  repeat' first
    | with_reducible assumption
    | exact {}
    | intro _
    | extract_lets +onlyGivenNames _
    | with_reducible apply Kept.raiseFlag
    | with_reducible apply Kept.putReg
    | with_reducible refine Kept.foldl ?_ _ ?_
    | split

theorem Kept.batchStart {uu : Units} {zz s : State} (hk : Kept uu zz s) (hPpc : uu.ppc = true := by assumption)
    (hMoved : uu.moved = true := by assumption) : Kept uu zz (State.batchStart s) := by
  unfold State.batchStart
  repeat' first
    | with_reducible assumption
    | exact {}
    | intro _
    | extract_lets +onlyGivenNames _
    | with_reducible apply Kept.raiseFlag
    | split
    | (with_reducible apply Kept.update) <;> [assumption; exact {}]

theorem Kept.batchEnd {uu : Units} {zz s : State} (hk : Kept uu zz s) (hPpc : uu.ppc = true := by assumption)
    (hMoved : uu.moved = true := by assumption) : Kept uu zz (State.batchEnd s) := by
  unfold State.batchEnd
  repeat' first
    | with_reducible assumption
    | exact {}
    | intro _
    | (extract_lets +onlyGivenNames x; first | refine Kept.cut x ?_ ?_ <;> [subst x; (clear_value x; intro _)] | skip)
    | with_reducible apply Kept.raiseFlag
    | with_reducible apply Kept.putEntry
    | with_reducible refine Kept.foldl ?_ _ ?_
    | split
    | (with_reducible apply Kept.update) <;> [assumption; exact {}]

theorem Kept.polcirWrite {uu : Units} {zz s : State} (w : Word) (hk : Kept uu zz s) (hPpc : uu.ppc = true := by assumption)
    : Kept uu zz (State.polcirWrite s w) := by
  unfold State.polcirWrite
  repeat' first
    | with_reducible assumption
    | exact {}
    | intro _
    | extract_lets +onlyGivenNames _
    | with_reducible apply Kept.setPolicer
    | split

theorem Kept.polbktWrite {uu : Units} {zz s : State} (w : Word) (hk : Kept uu zz s) (hPpc : uu.ppc = true := by assumption)
    : Kept uu zz (State.polbktWrite s w) := by
  unfold State.polbktWrite
  repeat' first
    | with_reducible assumption
    | exact {}
    | intro _
    | extract_lets +onlyGivenNames _
    | with_reducible apply Kept.setPolicer
    | split

/-! ## The commands -/

theorem KeptBy.pfcRepeat {uu : Units} {zz s : State} (port : Nat) (cls : Nat) (hk : Kept uu zz s)
    (hXbr : uu.xbr = true := by assumption) (hOut : uu.out = true := by assumption) :
    KeptBy uu zz (execPfcRepeat port cls s) := by
  unfold execPfcRepeat
  repeat' first
    | with_reducible assumption
    | exact {}
    | intro _
    | extract_lets +onlyGivenNames _
    | with_reducible refine KeptBy.next ?_
    | with_reducible apply Kept.pfcXon
    | with_reducible apply Kept.emit
    | split
    | (with_reducible apply Kept.update) <;> [assumption; exact {}]

theorem KeptBy.frameReceive {uu : Units} {zz s : State} (port : Nat) (f : FrameIn) (hk : Kept uu zz s)
    (hHce : uu.hce = true := by assumption) (hRfu : uu.rfu = true := by assumption) (hRfx : uu.rfx = true := by assumption)
    (hKvt : uu.kvt = true := by assumption) (hPpc : uu.ppc = true := by assumption) (hXbr : uu.xbr = true := by assumption)
    (hPmu : uu.pmu = true := by assumption) (hMoved : uu.moved = true := by assumption)
    (hOut : uu.out = true := by assumption) :
    KeptBy uu zz (execFrameReceive port f s) := by
  unfold execFrameReceive
  repeat' first
    | with_reducible assumption
    | exact {}
    | intro _
    | (extract_lets +onlyGivenNames x; first | refine Kept.cut x ?_ ?_ <;> [subst x; (clear_value x; intro _)] | refine KeptBy.cut x ?_ ?_ <;> [subst x; (clear_value x; intro _)] | skip)
    | with_reducible refine KeptBy.next ?_
    | with_reducible apply Kept.bump
    | with_reducible apply Kept.hostEvent
    | with_reducible apply Kept.onePass
    | with_reducible apply Kept.pfcJudge
    | split

theorem KeptBy.recirculationPass {uu : Units} {zz s : State} (id : Nat) (authOk : Bool) (plain : List Byte) (hk
    : Kept uu zz s) (hHce : uu.hce = true := by assumption) (hRfu : uu.rfu = true := by assumption)
    (hRfx : uu.rfx = true := by assumption) (hKvt : uu.kvt = true := by assumption) (hPpc : uu.ppc = true := by assumption)
    (hXbr : uu.xbr = true := by assumption) (hPmu : uu.pmu = true := by assumption)
    (hMoved : uu.moved = true := by assumption) (hOut : uu.out = true := by assumption)
    (hFree : uu.free = true := by assumption) :
    KeptBy uu zz (execRecirculationPass id authOk plain s) := by
  unfold execRecirculationPass
  repeat' first
    | with_reducible assumption
    | exact {}
    | intro _
    | (extract_lets +onlyGivenNames x; first | refine Kept.cut x ?_ ?_ <;> [subst x; (clear_value x; intro _)] | refine KeptBy.cut x ?_ ?_ <;> [subst x; (clear_value x; intro _)] | skip)
    | with_reducible refine KeptBy.next ?_
    | with_reducible apply Kept.tlsBad
    | with_reducible apply Kept.laneWork
    | with_reducible apply Kept.tlsReceived
    | with_reducible apply Kept.onePass
    | split
    | (with_reducible apply Kept.update) <;> [assumption; exact {}]

theorem KeptBy.exceptionDrain {uu : Units} {zz s : State} (hk : Kept uu zz s) (hPpc : uu.ppc = true := by assumption) :
    KeptBy uu zz (execExceptionDrain s) := by
  unfold execExceptionDrain
  repeat' first
    | with_reducible assumption
    | exact {}
    | intro _
    | extract_lets +onlyGivenNames _
    | with_reducible refine KeptBy.next ?_
    | split
    | (with_reducible apply Kept.update) <;> [assumption; exact {}]

theorem KeptBy.bankSwap {uu : Units} {zz s : State} (byCommand : Bool) (hk : Kept uu zz s)
    (hPpc : uu.ppc = true := by assumption) :
    KeptBy uu zz (execBankSwap byCommand s) := by
  unfold execBankSwap
  repeat' first
    | with_reducible assumption
    | exact {}
    | intro _
    | extract_lets +onlyGivenNames _
    | with_reducible refine KeptBy.next ?_
    | with_reducible apply Kept.requestSwap
    | split

theorem KeptBy.tableCommit {uu : Units} {zz s : State} (hk : Kept uu zz s) (hPpc : uu.ppc = true := by assumption)
    (hMoved : uu.moved = true := by assumption) :
    KeptBy uu zz (execTableCommit s) := by
  unfold execTableCommit
  repeat' first
    | with_reducible assumption
    | exact {}
    | intro _
    | extract_lets +onlyGivenNames _
    | with_reducible refine KeptBy.next ?_
    | with_reducible apply Kept.tableCommit

theorem KeptBy.tableRead {uu : Units} {zz s : State} (hk : Kept uu zz s) (hMoved : uu.moved = true := by assumption)
    (hCfg : uu.cfg = true := by assumption) :
    KeptBy uu zz (execTableRead s) := by
  unfold execTableRead
  repeat' first
    | with_reducible assumption
    | exact {}
    | intro _
    | extract_lets +onlyGivenNames _
    | with_reducible refine KeptBy.next ?_
    | with_reducible apply Kept.tableRead

theorem KeptBy.batchStart {uu : Units} {zz s : State} (hk : Kept uu zz s) (hPpc : uu.ppc = true := by assumption)
    (hMoved : uu.moved = true := by assumption) :
    KeptBy uu zz (execBatchStart s) := by
  unfold execBatchStart
  repeat' first
    | with_reducible assumption
    | exact {}
    | intro _
    | extract_lets +onlyGivenNames _
    | with_reducible refine KeptBy.next ?_
    | with_reducible apply Kept.batchStart

theorem KeptBy.batchEnd {uu : Units} {zz s : State} (hk : Kept uu zz s) (hPpc : uu.ppc = true := by assumption)
    (hMoved : uu.moved = true := by assumption) :
    KeptBy uu zz (execBatchEnd s) := by
  unfold execBatchEnd
  repeat' first
    | with_reducible assumption
    | exact {}
    | intro _
    | extract_lets +onlyGivenNames _
    | with_reducible refine KeptBy.next ?_
    | with_reducible apply Kept.batchEnd

theorem KeptBy.polcirWrite {uu : Units} {zz s : State} (w : Word) (hk : Kept uu zz s)
    (hPpc : uu.ppc = true := by assumption) :
    KeptBy uu zz (execPolcirWrite w s) := by
  unfold execPolcirWrite
  repeat' first
    | with_reducible assumption
    | exact {}
    | intro _
    | extract_lets +onlyGivenNames _
    | with_reducible refine KeptBy.next ?_
    | with_reducible apply Kept.polcirWrite

end Sys2Proof.Machine
end

