-- ==== Sys2Proof/Laws/KeptCrossbar.lean ====
section
/-! SUPPORT. `Kept` for the operations of Machine/Crossbar.lean. -/

set_option Elab.async false

namespace Sys2Proof.Machine

theorem Kept.setShaper {uu : Units} {zz s : State} (x : Shaper) (hk : Kept uu zz s) (hXbr : uu.xbr = true := by assumption)
    : Kept uu zz (State.setShaper s x) := by
  unfold State.setShaper
  repeat' first
    | with_reducible assumption
    | exact {}
    | intro _
    | extract_lets +onlyGivenNames _
    | split
    | (with_reducible apply Kept.update) <;> [assumption; exact {}]

theorem Kept.chargeShaper {uu : Units} {zz s : State} (typ : Nat) (index : Nat) (l : Nat) (hk : Kept uu zz s)
    (hXbr : uu.xbr = true := by assumption) : Kept uu zz (State.chargeShaper s typ index l) := by
  unfold State.chargeShaper
  repeat' first
    | with_reducible assumption
    | exact {}
    | intro _
    | extract_lets +onlyGivenNames _
    | with_reducible apply Kept.setShaper
    | split

theorem Kept.setEgPort {uu : Units} {zz s : State} (p : Nat) (e : EgPort) (hk : Kept uu zz s)
    (hXbr : uu.xbr = true := by assumption) : Kept uu zz (State.setEgPort s p e) := by
  unfold State.setEgPort
  repeat' first
    | with_reducible assumption
    | exact {}
    | intro _
    | extract_lets +onlyGivenNames _
    | split
    | (with_reducible apply Kept.update) <;> [assumption; exact {}]

theorem Kept.passHeads {uu : Units} {zz s : State} (i : Nat) (hk : Kept uu zz s) (hXbr : uu.xbr = true := by assumption)
    (hMoved : uu.moved = true := by assumption) : Kept uu zz (State.passHeads s i) := by
  unfold State.passHeads
  repeat' first
    | with_reducible assumption
    | exact {}
    | intro _
    | (extract_lets +onlyGivenNames x; first | refine Kept.cut x ?_ ?_ <;> [subst x; (clear_value x; intro _)] | skip)
    | with_reducible apply Kept.bump
    | split
    | (with_reducible apply Kept.update) <;> [assumption; exact {}]

theorem Kept.movePtrs {uu : Units} {zz s : State} (acc : List (Nat × Nat × Nat)) (hk : Kept uu zz s)
    (hXbr : uu.xbr = true := by assumption) : Kept uu zz (State.movePtrs s acc) := by
  unfold State.movePtrs
  repeat' first
    | with_reducible assumption
    | exact {}
    | intro _
    | (extract_lets +onlyGivenNames x; first | refine Kept.cut x ?_ ?_ <;> [subst x; (clear_value x; intro _)] | skip)
    | with_reducible apply Kept.accept
    | with_reducible refine Kept.foldl ?_ _ ?_
    | split
    | (with_reducible apply Kept.update) <;> [assumption; exact {}]

theorem Kept.enqueue {uu : Units} {zz s : State} (p : Nat) (fid : Nat) (c : Copy) (hk : Kept uu zz s)
    (hXbr : uu.xbr = true := by assumption) : Kept uu zz (State.enqueue s p fid c) := by
  unfold State.enqueue
  repeat' first
    | with_reducible assumption
    | exact {}
    | intro _
    | extract_lets +onlyGivenNames _
    | with_reducible apply Kept.setEgPort

theorem Kept.ecnMark {uu : Units} {zz s : State} (c : Copy) (hk : Kept uu zz s) (hMoved : uu.moved = true := by assumption)
    (hFree : uu.free = true := by assumption) : Kept uu zz (State.ecnMark s c) := by
  unfold State.ecnMark
  repeat' first
    | with_reducible assumption
    | exact {}
    | intro _
    | (extract_lets +onlyGivenNames x; first | refine Kept.cut x ?_ ?_ <;> [subst x; (clear_value x; intro _)] | skip)
    | with_reducible apply Kept.bump
    | with_reducible apply Kept.tookFree
    | split

theorem Kept.flushEgress {uu : Units} {zz s : State} (p : Nat) (hk : Kept uu zz s) (hXbr : uu.xbr = true := by assumption)
    (hMoved : uu.moved = true := by assumption) : Kept uu zz (State.flushEgress s p) := by
  unfold State.flushEgress
  repeat' first
    | with_reducible assumption
    | exact {}
    | intro _
    | extract_lets +onlyGivenNames _
    | with_reducible apply Kept.setEgPort
    | with_reducible apply Kept.bumpBy

theorem Kept.switchKeys {uu : Units} {zz s : State} (hk : Kept uu zz s) (hKvt : uu.kvt = true := by assumption) : Kept uu zz
    (State.switchKeys s) := by
  unfold State.switchKeys
  repeat' first
    | with_reducible assumption
    | exact {}
    | intro _
    | extract_lets +onlyGivenNames _
    | split
    | (with_reducible apply Kept.update) <;> [assumption; exact {}]

theorem Kept.tlsSent {uu : Units} {zz s : State} (conn : Nat) (hk : Kept uu zz s) (hRfx : uu.rfx = true := by assumption)
    (hKvt : uu.kvt = true := by assumption) (hXbr : uu.xbr = true := by assumption) (hPmu : uu.pmu = true := by assumption)
    (hMoved : uu.moved = true := by assumption) (hOut : uu.out = true := by assumption)
    (hFree : uu.free = true := by assumption) : Kept uu zz (State.tlsSent s conn) := by
  unfold State.tlsSent
  repeat' first
    | with_reducible assumption
    | exact {}
    | intro _
    | (extract_lets +onlyGivenNames x; first | refine Kept.cut x ?_ ?_ <;> [subst x; (clear_value x; intro _)] | skip)
    | with_reducible apply Kept.emit
    | with_reducible apply Kept.bump
    | with_reducible apply Kept.sendXport
    | with_reducible apply Kept.tookFree
    | with_reducible apply Kept.switchKeys
    | split
    | (with_reducible apply Kept.update) <;> [assumption; exact {}]
    | refine Kept.ofPair (by assumption) ?_
    | refine Kept.ofPair' (by assumption) ?_
    | (with_reducible apply Kept.update) <;> [refine Kept.ofPair (by assumption) ?_; exact {}]
    | fail_if_no_progress ((with_reducible apply Kept.update) <;> [skip; exact {}])

theorem Kept.endPause {uu : Units} {zz s : State} (port : Nat) (cls : Nat) (hk : Kept uu zz s)
    (hXbr : uu.xbr = true := by assumption) (hPmu : uu.pmu = true := by assumption)
    (hMoved : uu.moved = true := by assumption) : Kept uu zz (State.endPause s port cls) := by
  unfold State.endPause
  repeat' first
    | with_reducible assumption
    | exact {}
    | intro _
    | (extract_lets +onlyGivenNames x; first | refine Kept.cut x ?_ ?_ <;> [subst x; (clear_value x; intro _)] | skip)
    | with_reducible apply Kept.setEgPort
    | with_reducible apply Kept.hostEvent
    | split

theorem Kept.takeSample {uu : Units} {zz s : State} (pt : Nat) (bytes : List Byte) (hk : Kept uu zz s)
    (hXbr : uu.xbr = true := by assumption) (hMoved : uu.moved = true := by assumption) : Kept uu zz
    (State.takeSample s pt bytes) := by
  unfold State.takeSample
  repeat' first
    | with_reducible assumption
    | exact {}
    | intro _
    | (extract_lets +onlyGivenNames x; first | refine Kept.cut x ?_ ?_ <;> [subst x; (clear_value x; intro _)] | skip)
    | with_reducible apply Kept.bump
    | split
    | (with_reducible apply Kept.update) <;> [assumption; exact {}]

theorem Kept.samplingWrite {uu : Units} {zz s : State} (ratio : Bool) (w : Word) (hk : Kept uu zz s)
    (hXbr : uu.xbr = true := by assumption) (hCfg : uu.cfg = true := by assumption) : Kept uu zz
    (State.samplingWrite s ratio w) := by
  unfold State.samplingWrite
  repeat' first
    | with_reducible assumption
    | exact {}
    | intro _
    | (extract_lets +onlyGivenNames x; first | refine Kept.cut x ?_ ?_ <;> [subst x; (clear_value x; intro _)] | skip)
    | with_reducible apply Kept.putReg
    | split
    | (with_reducible apply Kept.update) <;> [assumption; exact {}]

theorem Kept.occWrite {uu : Units} {zz s : State} (w : Word) (hk : Kept uu zz s) (hXbr : uu.xbr = true := by assumption)
    (hCfg : uu.cfg = true := by assumption) : Kept uu zz (State.occWrite s w) := by
  unfold State.occWrite
  repeat' first
    | with_reducible assumption
    | exact {}
    | intro _
    | (extract_lets +onlyGivenNames x; first | refine Kept.cut x ?_ ?_ <;> [subst x; (clear_value x; intro _)] | skip)
    | with_reducible apply Kept.putReg
    | split
    | (with_reducible apply Kept.update) <;> [assumption; exact {}]

/-! ## The commands -/

theorem KeptBy.carouselMatch {uu : Units} {zz s0 : State} (hk : Kept uu zz s0) (hXbr : uu.xbr = true := by assumption)
    (hPmu : uu.pmu = true := by assumption) (hMoved : uu.moved = true := by assumption) : KeptBy uu zz
    (execCarouselMatch s0) := by
  have h1 : Kept uu zz ((natsFrom 0 14).foldl State.passHeads s0) := Kept.foldl (fun t i ht => Kept.passHeads i ht) _ hk
  have h2 : ∀ fs (t : State), Kept uu zz t → Kept uu zz { t with xbr := { t.xbr with frames := fs } } := fun _ _ ht => ht.like {}
  unfold execCarouselMatch
  exact KeptBy.next (Kept.foldl (fun t i ht => Kept.hostEvent _ _ _ _ ht) _ (h2 _ _ (Kept.movePtrs _ h1)))

theorem KeptBy.transferComplete {uu : Units} {zz s : State} (input : Nat) (hk : Kept uu zz s)
    (hXbr : uu.xbr = true := by assumption) (hMoved : uu.moved = true := by assumption)
    (hOut : uu.out = true := by assumption) (hFree : uu.free = true := by assumption) :
    KeptBy uu zz (execTransferComplete input s) := by
  unfold execTransferComplete
  repeat' first
    | with_reducible assumption
    | exact {}
    | intro _
    | (extract_lets +onlyGivenNames x; first | refine Kept.cut x ?_ ?_ <;> [subst x; (clear_value x; intro _)] | refine KeptBy.cut x ?_ ?_ <;> [subst x; (clear_value x; intro _)] | skip)
    | with_reducible refine KeptBy.next ?_
    | with_reducible apply Kept.ecnMark
    | with_reducible apply Kept.enqueue
    | with_reducible apply Kept.bump
    | with_reducible apply Kept.pfcJudge
    | with_reducible refine Kept.foldl ?_ _ ?_
    | split
    | (with_reducible apply Kept.update) <;> [assumption; exact {}]

theorem KeptBy.pfcFrameReceive {uu : Units} {zz s : State} (port : Nat) (quanta : List (Option Nat)) (hk : Kept uu zz s)
    (hXbr : uu.xbr = true := by assumption) (hPmu : uu.pmu = true := by assumption)
    (hMoved : uu.moved = true := by assumption) :
    KeptBy uu zz (execPfcFrameReceive port quanta s) := by
  unfold execPfcFrameReceive
  split
  · exact KeptBy.next hk
  repeat' first
    | with_reducible assumption
    | exact {}
    | intro _
    | (extract_lets +onlyGivenNames x; first | refine Kept.cut x ?_ ?_ <;> [subst x; (clear_value x; intro _)] | refine KeptBy.cut x ?_ ?_ <;> [subst x; (clear_value x; intro _)] | skip)
    | with_reducible refine KeptBy.next ?_
    | with_reducible apply Kept.bump
    | with_reducible apply Kept.endPause
    | with_reducible apply Kept.setEgPort
    | with_reducible refine Kept.foldl ?_ _ ?_
    | split

theorem KeptBy.pauseExpiry {uu : Units} {zz s : State} (port : Nat) (cls : Nat) (hk : Kept uu zz s)
    (hXbr : uu.xbr = true := by assumption) (hPmu : uu.pmu = true := by assumption)
    (hMoved : uu.moved = true := by assumption) :
    KeptBy uu zz (execPauseExpiry port cls s) := by
  unfold execPauseExpiry
  repeat' first
    | with_reducible assumption
    | exact {}
    | intro _
    | extract_lets +onlyGivenNames _
    | with_reducible refine KeptBy.next ?_
    | with_reducible apply Kept.endPause
    | split

theorem KeptBy.cnpReceive {uu : Units} {zz s : State} (conn : Nat) (hk : Kept uu zz s)
    (hXbr : uu.xbr = true := by assumption) (hMoved : uu.moved = true := by assumption) :
    KeptBy uu zz (execCnpReceive conn s) := by
  unfold execCnpReceive
  repeat' first
    | with_reducible assumption
    | exact {}
    | intro _
    | extract_lets +onlyGivenNames _
    | with_reducible refine KeptBy.next ?_
    | with_reducible apply Kept.bump
    | with_reducible apply Kept.setShaper
    | split

theorem KeptBy.rateRecovery {uu : Units} {zz s : State} (host : Nat) (hk : Kept uu zz s)
    (hXbr : uu.xbr = true := by assumption) :
    KeptBy uu zz (execRateRecovery host s) := by
  unfold execRateRecovery
  repeat' first
    | with_reducible assumption
    | exact {}
    | intro _
    | extract_lets +onlyGivenNames _
    | with_reducible refine KeptBy.next ?_
    | with_reducible apply Kept.setShaper
    | split

theorem KeptBy.sample {uu : Units} {zz s : State} (point : Nat) (bytes : List Byte) (hk : Kept uu zz s)
    (hXbr : uu.xbr = true := by assumption) (hMoved : uu.moved = true := by assumption)
    (hFree : uu.free = true := by assumption) :
    KeptBy uu zz (execSample point bytes s) := by
  unfold execSample
  repeat' first
    | with_reducible assumption
    | exact {}
    | intro _
    | extract_lets +onlyGivenNames _
    | with_reducible refine KeptBy.next ?_
    | with_reducible apply Kept.tookFree
    | with_reducible apply Kept.takeSample
    | split
    | (with_reducible apply Kept.update) <;> [assumption; exact {}]
    | refine Kept.ofPair (by assumption) ?_
    | refine Kept.ofPair' (by assumption) ?_
    | (with_reducible apply Kept.update) <;> [refine Kept.ofPair (by assumption) ?_; exact {}]
    | fail_if_no_progress ((with_reducible apply Kept.update) <;> [skip; exact {}])

theorem KeptBy.samplingConfigWrite {uu : Units} {zz s : State} (ratio : Bool) (w : Word) (hk : Kept uu zz s)
    (hXbr : uu.xbr = true := by assumption) (hCfg : uu.cfg = true := by assumption) :
    KeptBy uu zz (execSamplingConfigWrite ratio w s) := by
  unfold execSamplingConfigWrite
  repeat' first
    | with_reducible assumption
    | exact {}
    | intro _
    | extract_lets +onlyGivenNames _
    | with_reducible refine KeptBy.next ?_
    | with_reducible apply Kept.samplingWrite

theorem KeptBy.sampleQueueDrain {uu : Units} {zz s : State} (hk : Kept uu zz s) (hXbr : uu.xbr = true := by assumption) :
    KeptBy uu zz (execSampleQueueDrain s) := by
  unfold execSampleQueueDrain
  repeat' first
    | with_reducible assumption
    | exact {}
    | intro _
    | extract_lets +onlyGivenNames _
    | with_reducible refine KeptBy.next ?_
    | split
    | (with_reducible apply Kept.update) <;> [assumption; exact {}]

theorem KeptBy.occqryWrite {uu : Units} {zz s : State} (w : Word) (hk : Kept uu zz s)
    (hXbr : uu.xbr = true := by assumption) (hCfg : uu.cfg = true := by assumption) :
    KeptBy uu zz (execOccqryWrite w s) := by
  unfold execOccqryWrite
  repeat' first
    | with_reducible assumption
    | exact {}
    | intro _
    | extract_lets +onlyGivenNames _
    | with_reducible refine KeptBy.next ?_
    | with_reducible apply Kept.occWrite

end Sys2Proof.Machine
end

