-- ==== Sys2Proof/Laws/KeptPerf.lean ====
section
/-! SUPPORT. `Kept` for the operations of Machine/Perf.lean. -/

set_option Elab.async false

namespace Sys2Proof.Machine

theorem Kept.setPmuSet {uu : Units} {zz s : State} (v : Nat) (f : PmuSet → PmuSet) (hk : Kept uu zz s)
    (hPmu : uu.pmu = true := by assumption) : Kept uu zz (State.setPmuSet s v f) := by
  unfold State.setPmuSet
  repeat' first
    | with_reducible assumption
    | exact {}
    | intro _
    | extract_lets +onlyGivenNames _
    | split
    | (with_reducible apply Kept.update) <;> [assumption; exact {}]

theorem Kept.pmuTouch {uu : Units} {zz s : State} (a : Nat) (hk : Kept uu zz s) (hPmu : uu.pmu = true := by assumption)
    : Kept uu zz (State.pmuTouch s a) := by
  unfold State.pmuTouch
  repeat' first
    | with_reducible assumption
    | exact {}
    | intro _
    | with_reducible apply Kept.setPmuSet
    | split

theorem Kept.pmuClear {uu : Units} {zz s : State} (v : Nat) (mask : Nat) (hk : Kept uu zz s)
    (hPmu : uu.pmu = true := by assumption) (hCfg : uu.cfg = true := by assumption) : Kept uu zz
    (State.pmuClear s v mask) := by
  unfold State.pmuClear
  repeat' first
    | with_reducible assumption
    | exact {}
    | intro _
    | (extract_lets +onlyGivenNames x; refine Kept.cut x ?_ ?_ <;> [subst x; (clear_value x; intro _)])
    | with_reducible apply Kept.setPmuSet
    | with_reducible apply Kept.putReg
    | split

theorem Kept.pmuSetMode {uu : Units} {zz s : State} (v : Nat) (w : Word) (hk : Kept uu zz s)
    (hPmu : uu.pmu = true := by assumption) (hCfg : uu.cfg = true := by assumption) : Kept uu zz
    (State.pmuSetMode s v w) := by
  unfold State.pmuSetMode
  repeat' first
    | with_reducible assumption
    | exact {}
    | intro _
    | (extract_lets +onlyGivenNames x; first | refine Kept.cut x ?_ ?_ <;> [subst x; (clear_value x; intro _)] | skip)
    | with_reducible apply Kept.putReg
    | with_reducible apply Kept.pmuClear
    | split

theorem Kept.pmuProgram {uu : Units} {zz s : State} (v : Nat) (n : Nat) (w : Word) (hk : Kept uu zz s)
    (hCfg : uu.cfg = true := by assumption) : Kept uu zz (State.pmuProgram s v n w) := by
  unfold State.pmuProgram
  repeat' first
    | with_reducible assumption
    | exact {}
    | intro _
    | extract_lets +onlyGivenNames _
    | with_reducible apply Kept.putReg
    | split

theorem Kept.pmuWrite {uu : Units} {zz s : State} (v : Nat) (o : Nat) (w : Word) (hk : Kept uu zz s)
    (hPmu : uu.pmu = true := by assumption) (hCfg : uu.cfg = true := by assumption) : Kept uu zz
    (State.pmuWrite s v o w) := by
  unfold State.pmuWrite
  repeat' first
    | with_reducible assumption
    | exact {}
    | intro _
    | extract_lets +onlyGivenNames _
    | with_reducible apply Kept.pmuSetMode
    | with_reducible apply Kept.pmuProgram
    | with_reducible apply Kept.setPmuSet
    | split

theorem Kept.zeroVsRec {uu : Units} {zz s : State} (v : Nat) (hk : Kept uu zz s) (hPmu : uu.pmu = true := by assumption)
    : Kept uu zz (State.zeroVsRec s v) := by
  unfold State.zeroVsRec
  repeat' first
    | with_reducible assumption
    | exact {}
    | intro _
    | extract_lets +onlyGivenNames _
    | split
    | (with_reducible apply Kept.update) <;> [assumption; exact {}]

/-! ## The commands -/

theorem KeptBy.pmuLoRead {uu : Units} {zz s : State} (addr : Nat) (hk : Kept uu zz s)
    (hPmu : uu.pmu = true := by assumption) :
    KeptBy uu zz (execPmuLoRead addr s) := by
  unfold execPmuLoRead
  repeat' first
    | with_reducible assumption
    | exact {}
    | intro _
    | extract_lets +onlyGivenNames _
    | with_reducible refine KeptBy.next ?_
    | with_reducible apply Kept.pmuTouch

theorem KeptBy.cntConfig {uu : Units} {zz s : State} (m : Master) (hk : Kept uu zz s)
    (hMbx : uu.mbx = true := by assumption) (hPmu : uu.pmu = true := by assumption)
    (hMoved : uu.moved = true := by assumption) (hCfg : uu.cfg = true := by assumption)
    (hOut : uu.out = true := by assumption) :
    KeptBy uu zz (execCntConfig m s) := by
  unfold execCntConfig
  repeat' first
    | with_reducible assumption
    | exact {}
    | intro _
    | (extract_lets +onlyGivenNames x; first | refine Kept.cut x ?_ ?_ <;> [subst x; (clear_value x; intro _)] | refine KeptBy.cut x ?_ ?_ <;> [subst x; (clear_value x; intro _)] | skip)
    | with_reducible refine KeptBy.next ?_
    | with_reducible apply Kept.runCmd
    | with_reducible apply Kept.checked
    | with_reducible apply Kept.pmuProgram
    | with_reducible apply Kept.putReg
    | with_reducible apply Kept.pmuClear
    | with_reducible apply Kept.pmuSetMode
    | with_reducible apply Kept.finish
    | split

theorem KeptBy.cntRead {uu : Units} {zz s : State} (m : Master) (hk : Kept uu zz s) (hMbx : uu.mbx = true := by assumption)
    (hMoved : uu.moved = true := by assumption) (hOut : uu.out = true := by assumption) :
    KeptBy uu zz (execCntRead m s) := by
  unfold execCntRead
  repeat' first
    | with_reducible assumption
    | exact {}
    | intro _
    | extract_lets +onlyGivenNames _
    | with_reducible refine KeptBy.next ?_
    | with_reducible apply Kept.runCmd
    | with_reducible apply Kept.checked
    | with_reducible apply Kept.finish

theorem KeptBy.cntSnapshot {uu : Units} {zz s : State} (m : Master) (hk : Kept uu zz s)
    (hMbx : uu.mbx = true := by assumption) (hMoved : uu.moved = true := by assumption)
    (hOut : uu.out = true := by assumption) :
    KeptBy uu zz (execCntSnapshot m s) := by
  unfold execCntSnapshot
  repeat' first
    | with_reducible assumption
    | exact {}
    | intro _
    | extract_lets +onlyGivenNames _
    | with_reducible refine KeptBy.next ?_
    | with_reducible apply Kept.runCmd
    | with_reducible apply Kept.checked
    | with_reducible apply Kept.finish

theorem KeptBy.boxOfficeSweep {uu : Units} {zz s : State} (late : Bool) (hk : Kept uu zz s)
    (hPpc : uu.ppc = true := by assumption) (hPmu : uu.pmu = true := by assumption)
    (hMoved : uu.moved = true := by assumption) :
    KeptBy uu zz (execBoxOfficeSweep late s) := by
  unfold execBoxOfficeSweep
  repeat' first
    | with_reducible assumption
    | exact {}
    | intro _
    | (extract_lets +onlyGivenNames x; first | refine Kept.cut x ?_ ?_ <;> [subst x; (clear_value x; intro _)] | refine KeptBy.cut x ?_ ?_ <;> [subst x; (clear_value x; intro _)] | skip)
    | with_reducible refine KeptBy.next ?_
    | with_reducible apply Kept.raiseFlag
    | with_reducible refine Kept.foldl ?_ _ ?_
    | split
    | (with_reducible apply Kept.update) <;> [assumption; exact {}]

end Sys2Proof.Machine
end

