-- ==== Sys2Proof/Laws/KeptEndpoint.lean ====
section
/-! SUPPORT. `Kept` for the operations of Machine/Endpoint.lean. -/

set_option Elab.async false

namespace Sys2Proof.Machine

theorem Kept.updSep {uu : Units} {zz s : State} (f : SepSt → SepSt) (hf : ∀ t : State, Like uu t { t with sep := f t.sep })
    (hk : Kept uu zz s) (hSep : uu.sep = true := by assumption) : Kept uu zz (State.updSep s f) := hk.like (hf _)

theorem Kept.sepContain {uu : Units} {zz s : State} (cause : Nat) (hk : Kept uu zz s)
    (hSep : uu.sep = true := by assumption) : Kept uu zz (State.sepContain s cause) := by
  unfold State.sepContain
  repeat' first
    | with_reducible assumption
    | exact {}
    | intro _
    | with_reducible apply Kept.updSep
    | fail_if_no_progress (dsimp only [State.updSep])
    | split
    | (with_reducible apply Kept.update) <;> [assumption; exact {}]

theorem Kept.aerUnc {uu : Units} {zz s : State} (bit : Nat) (hk : Kept uu zz s) (hSep : uu.sep = true := by assumption)
    (hOut : uu.out = true := by assumption) : Kept uu zz (State.aerUnc s bit) := by
  unfold State.aerUnc
  repeat' first
    | with_reducible assumption
    | exact {}
    | intro _
    | (extract_lets +onlyGivenNames x; refine Kept.cut x ?_ ?_ <;> [subst x; (clear_value x; intro _)])
    | with_reducible apply Kept.updSep
    | with_reducible apply Kept.emit
    | with_reducible apply Kept.sepContain
    | fail_if_no_progress (dsimp only [State.updSep])
    | split

theorem Kept.aerAdvisory {uu : Units} {zz s : State} (bit : Nat) (hk : Kept uu zz s) (hSep : uu.sep = true := by assumption)
    (hOut : uu.out = true := by assumption) : Kept uu zz (State.aerAdvisory s bit) := by
  unfold State.aerAdvisory
  repeat' first
    | with_reducible assumption
    | exact {}
    | intro _
    | (extract_lets +onlyGivenNames x; refine Kept.cut x ?_ ?_ <;> [subst x; (clear_value x; intro _)])
    | with_reducible apply Kept.updSep
    | with_reducible apply Kept.emit
    | fail_if_no_progress (dsimp only [State.updSep])
    | split

theorem Kept.fetchFail {uu : Units} {zz s : State} (hk : Kept uu zz s) (hMbx : uu.mbx = true := by assumption)
    (hSep : uu.sep = true := by assumption) (hMoved : uu.moved = true := by assumption)
    (hOut : uu.out = true := by assumption) : Kept uu zz (State.fetchFail s) := by
  unfold State.fetchFail
  repeat' first
    | with_reducible assumption
    | exact {}
    | intro _
    | extract_lets +onlyGivenNames _
    | with_reducible apply Kept.updSep
    | with_reducible apply Kept.bump
    | with_reducible apply Kept.finish
    | split

theorem Kept.pumpFetch {uu : Units} {zz : State} (n : Nat) (hSep : uu.sep = true := by assumption)
    (hOut : uu.out = true := by assumption) : ∀ {s : State}, Kept uu zz s → Kept uu zz (State.pumpFetch n s) := by
  induction n with
  | zero => exact fun h => h
  | succ n ih =>
    intro s hk
    unfold State.pumpFetch
    repeat' first
      | with_reducible assumption
      | exact {}
      | intro _
      | (extract_lets +onlyGivenNames x; first | refine Kept.cut x ?_ ?_ <;> [subst x; (clear_value x; intro _)] | skip)
      | with_reducible apply ih
      | with_reducible apply Kept.emit
      | with_reducible apply Kept.updSep
      | split
      | (with_reducible apply Kept.update) <;> [assumption; exact {}]
      | refine Kept.ofPair (by assumption) ?_
      | refine Kept.ofPair' (by assumption) ?_
      | (with_reducible apply Kept.update) <;> [refine Kept.ofPair (by assumption) ?_; exact {}]
      | fail_if_no_progress ((with_reducible apply Kept.update) <;> [skip; exact {}])
      | dsimp +zetaDelta only
      | rfl
      | exact ⟨rfl, rfl⟩
      | simp only [length_setAt, length_updWhere]

theorem Kept.startFetch {uu : Units} {zz s : State} (addr : Nat) (len : Nat) (noDma : Bool) (hk : Kept uu zz s)
    (hMbx : uu.mbx = true := by assumption) (hSep : uu.sep = true := by assumption)
    (hMoved : uu.moved = true := by assumption) (hOut : uu.out = true := by assumption) : Kept uu zz
    (State.startFetch s addr len noDma) := by
  unfold State.startFetch
  repeat' first
    | with_reducible assumption
    | exact {}
    | intro _
    | (extract_lets +onlyGivenNames x; refine Kept.cut x ?_ ?_ <;> [subst x; (clear_value x; intro _)])
    | with_reducible apply Kept.updSep
    | with_reducible apply Kept.pumpFetch
    | with_reducible apply Kept.fetchFail
    | fail_if_no_progress (dsimp only [State.updSep])
    | split

theorem Kept.fetchDone {uu : Units} {zz s : State} (hk : Kept uu zz s) (hMbx : uu.mbx = true := by assumption)
    (hSep : uu.sep = true := by assumption) : Kept uu zz (State.fetchDone s) := by
  unfold State.fetchDone
  repeat' first
    | with_reducible assumption
    | exact {}
    | intro _
    | extract_lets +onlyGivenNames _
    | split
    | (with_reducible apply Kept.update) <;> [assumption; exact {}]

theorem Kept.dropRead {uu : Units} {zz s : State} (tag : Nat) (hk : Kept uu zz s) (hSep : uu.sep = true := by assumption)
    : Kept uu zz (State.dropRead s tag) := by
  unfold State.dropRead
  repeat' first
    | with_reducible assumption
    | exact {}
    | intro _
    | with_reducible apply Kept.updSep

theorem Kept.flrBegin {uu : Units} {zz s : State} (hk : Kept uu zz s) (hMbx : uu.mbx = true := by assumption)
    (hSep : uu.sep = true := by assumption) (hMoved : uu.moved = true := by assumption)
    (hOut : uu.out = true := by assumption) : Kept uu zz (State.flrBegin s) := by
  unfold State.flrBegin
  repeat' first
    | with_reducible assumption
    | exact {}
    | intro _
    | extract_lets +onlyGivenNames _
    | with_reducible apply Kept.updSep
    | with_reducible apply Kept.fetchFail

theorem Kept.msiFlush {uu : Units} {zz s : State} (hk : Kept uu zz s) (hSep : uu.sep = true := by assumption)
    (hOut : uu.out = true := by assumption) : Kept uu zz (State.msiFlush s) := by
  unfold State.msiFlush
  repeat' first
    | with_reducible assumption
    | exact {}
    | intro _
    | extract_lets +onlyGivenNames _
    | with_reducible apply Kept.sendMsi
    | with_reducible apply Kept.updSep
    | fail_if_no_progress (dsimp only [State.updSep])
    | with_reducible refine Kept.foldl ?_ _ ?_
    | split
    | (with_reducible apply Kept.update) <;> [assumption; exact {}]

theorem Kept.sepRelease {uu : Units} {zz s : State} (hk : Kept uu zz s) (hSep : uu.sep = true := by assumption)
    (hMoved : uu.moved = true := by assumption) (hOut : uu.out = true := by assumption) : Kept uu zz
    (State.sepRelease s) := by
  unfold State.sepRelease
  repeat' first
    | with_reducible assumption
    | exact {}
    | intro _
    | extract_lets +onlyGivenNames _
    | with_reducible apply Kept.updSep
    | with_reducible apply Kept.sepEvent
    | with_reducible apply Kept.msiFlush
    | fail_if_no_progress (dsimp only [State.updSep])
    | split
    | (with_reducible apply Kept.update) <;> [assumption; exact {}]

theorem Kept.sepDown {uu : Units} {zz s : State} (hk : Kept uu zz s) (hMbx : uu.mbx = true := by assumption)
    (hSep : uu.sep = true := by assumption) (hMoved : uu.moved = true := by assumption)
    (hOut : uu.out = true := by assumption) : Kept uu zz (State.sepDown s) := by
  unfold State.sepDown
  repeat' first
    | with_reducible assumption
    | exact {}
    | intro _
    | extract_lets +onlyGivenNames _
    | with_reducible apply Kept.fetchFail
    | with_reducible apply Kept.updSep

theorem Kept.relAsk {uu : Units} {zz s : State} (hk : Kept uu zz s) (hSep : uu.sep = true := by assumption) : Kept uu zz
    (State.relAsk s) := by
  unfold State.relAsk
  repeat' first
    | with_reducible assumption
    | exact {}
    | intro _
    | with_reducible apply Kept.updSep
    | fail_if_no_progress (dsimp only [State.updSep])
    | split
    | (with_reducible apply Kept.update) <;> [assumption; exact {}]

theorem Kept.setBme {uu : Units} {zz s : State} (b : Bool) (hk : Kept uu zz s) (hMbx : uu.mbx = true := by assumption)
    (hSep : uu.sep = true := by assumption) (hMoved : uu.moved = true := by assumption)
    (hOut : uu.out = true := by assumption) : Kept uu zz (State.setBme s b) := by
  unfold State.setBme
  repeat' first
    | with_reducible assumption
    | exact {}
    | intro _
    | extract_lets +onlyGivenNames _
    | with_reducible apply Kept.updSep
    | with_reducible apply Kept.fetchFail
    | with_reducible apply Kept.msiFlush
    | fail_if_no_progress (dsimp only [State.updSep])
    | split
    | (with_reducible apply Kept.update) <;> [assumption; exact {}]

theorem Kept.doeReply {uu : Units} {zz s : State} (o : List Byte) (hk : Kept uu zz s)
    (hSep : uu.sep = true := by assumption) (hOut : uu.out = true := by assumption) : Kept uu zz (State.doeReply s o) := by
  unfold State.doeReply
  repeat' first
    | with_reducible assumption
    | exact {}
    | intro _
    | extract_lets +onlyGivenNames _
    | with_reducible apply Kept.updSep
    | with_reducible apply Kept.emit

/-! ## The commands -/

theorem KeptBy.dmaCompletion {uu : Units} {zz s : State} (tag : Nat) (addr : Nat) (status : DmaCpl) (bytes : List Byte) (hk
    : Kept uu zz s) (hMbx : uu.mbx = true := by assumption) (hSep : uu.sep = true := by assumption)
    (hMoved : uu.moved = true := by assumption) (hOut : uu.out = true := by assumption) :
    KeptBy uu zz (execDmaCompletion tag addr status bytes s) := by
  unfold execDmaCompletion
  repeat' first
    | with_reducible assumption
    | exact {}
    | intro _
    | (extract_lets +onlyGivenNames x; first | refine Kept.cut x ?_ ?_ <;> [subst x; (clear_value x; intro _)] | refine KeptBy.cut x ?_ ?_ <;> [subst x; (clear_value x; intro _)] | skip)
    | with_reducible refine KeptBy.next ?_
    | with_reducible apply Kept.aerAdvisory
    | with_reducible apply Kept.pumpFetch
    | with_reducible apply Kept.dropRead
    | with_reducible apply Kept.bump
    | with_reducible apply Kept.updSep
    | with_reducible apply Kept.fetchDone
    | with_reducible apply Kept.fetchFail
    | with_reducible apply Kept.aerUnc
    | with_reducible apply Kept.sepContain
    | fail_if_no_progress (dsimp only [State.updSep])
    | split
    | (with_reducible apply Kept.update) <;> [assumption; exact {}]
    | refine Kept.ofPair (by assumption) ?_
    | refine Kept.ofPair' (by assumption) ?_
    | (with_reducible apply Kept.update) <;> [refine Kept.ofPair (by assumption) ?_; exact {}]
    | fail_if_no_progress ((with_reducible apply Kept.update) <;> [skip; exact {}])

theorem KeptBy.completionTimeout {uu : Units} {zz s : State} (tag : Nat) (hk : Kept uu zz s)
    (hMbx : uu.mbx = true := by assumption) (hSep : uu.sep = true := by assumption)
    (hMoved : uu.moved = true := by assumption) (hOut : uu.out = true := by assumption) :
    KeptBy uu zz (execCompletionTimeout tag s) := by
  unfold execCompletionTimeout
  repeat' first
    | with_reducible assumption
    | exact {}
    | intro _
    | (extract_lets +onlyGivenNames x; first | refine Kept.cut x ?_ ?_ <;> [subst x; (clear_value x; intro _)] | refine KeptBy.cut x ?_ ?_ <;> [subst x; (clear_value x; intro _)] | skip)
    | with_reducible refine KeptBy.next ?_
    | with_reducible apply Kept.updSep
    | with_reducible apply Kept.bump
    | with_reducible apply Kept.fetchFail
    | with_reducible apply Kept.aerUnc
    | fail_if_no_progress (dsimp only [State.updSep])
    | split

theorem KeptBy.quarantineExpiry {uu : Units} {zz s : State} (tag : Nat) (hk : Kept uu zz s)
    (hSep : uu.sep = true := by assumption) (hOut : uu.out = true := by assumption) :
    KeptBy uu zz (execQuarantineExpiry tag s) := by
  unfold execQuarantineExpiry
  repeat' first
    | with_reducible assumption
    | exact {}
    | intro _
    | extract_lets +onlyGivenNames _
    | with_reducible refine KeptBy.next ?_
    | with_reducible apply Kept.pumpFetch
    | with_reducible apply Kept.dropRead
    | split

theorem KeptBy.functionLevelReset {uu : Units} {zz s : State} (hk : Kept uu zz s) (hMbx : uu.mbx = true := by assumption)
    (hSep : uu.sep = true := by assumption) (hMoved : uu.moved = true := by assumption)
    (hOut : uu.out = true := by assumption) :
    KeptBy uu zz (execFunctionLevelReset s) := by
  unfold execFunctionLevelReset
  repeat' first
    | with_reducible assumption
    | exact {}
    | intro _
    | extract_lets +onlyGivenNames _
    | with_reducible refine KeptBy.next ?_
    | with_reducible apply Kept.flrBegin

theorem KeptBy.flrComplete {uu : Units} {zz s : State} (hk : Kept uu zz s) (hSep : uu.sep = true := by assumption)
    (hMoved : uu.moved = true := by assumption) (hOut : uu.out = true := by assumption) :
    KeptBy uu zz (execFlrComplete s) := by
  unfold execFlrComplete
  repeat' first
    | with_reducible assumption
    | exact {}
    | intro _
    | extract_lets +onlyGivenNames _
    | with_reducible refine KeptBy.next ?_
    | with_reducible apply Kept.updSep
    | with_reducible apply Kept.sepRelease
    | fail_if_no_progress (dsimp only [State.updSep])
    | split
    | (with_reducible apply Kept.update) <;> [assumption; exact {}]

theorem KeptBy.hotReset {uu : Units} {zz s : State} (hk : Kept uu zz s) (hMbx : uu.mbx = true := by assumption)
    (hSep : uu.sep = true := by assumption) (hMoved : uu.moved = true := by assumption)
    (hOut : uu.out = true := by assumption) :
    KeptBy uu zz (execHotReset s) := by
  unfold execHotReset
  repeat' first
    | with_reducible assumption
    | exact {}
    | intro _
    | extract_lets +onlyGivenNames _
    | with_reducible refine KeptBy.next ?_
    | with_reducible apply Kept.flrBegin
    | with_reducible apply Kept.updSep

theorem KeptBy.sepPerstAssert {uu : Units} {zz s : State} (hk : Kept uu zz s) (hMbx : uu.mbx = true := by assumption)
    (hSep : uu.sep = true := by assumption) (hMoved : uu.moved = true := by assumption)
    (hOut : uu.out = true := by assumption) :
    KeptBy uu zz (execSepPerstAssert s) := by
  unfold execSepPerstAssert
  repeat' first
    | with_reducible assumption
    | exact {}
    | intro _
    | extract_lets +onlyGivenNames _
    | with_reducible refine KeptBy.next ?_
    | with_reducible apply Kept.flrBegin
    | with_reducible apply Kept.updSep

theorem KeptBy.sepPerstDeassert {uu : Units} {zz s : State} (hk : Kept uu zz s) (hSep : uu.sep = true := by assumption) :
    KeptBy uu zz (execSepPerstDeassert s) := by
  unfold execSepPerstDeassert
  repeat' first
    | with_reducible assumption
    | exact {}
    | intro _
    | extract_lets +onlyGivenNames _
    | with_reducible refine KeptBy.next ?_
    | with_reducible apply Kept.updSep

theorem KeptBy.sepLinkUp {uu : Units} {zz s : State} (speed : Nat) (width : Nat) (hk : Kept uu zz s)
    (hSep : uu.sep = true := by assumption) :
    KeptBy uu zz (execSepLinkUp speed width s) := by
  unfold execSepLinkUp
  repeat' first
    | with_reducible assumption
    | exact {}
    | intro _
    | extract_lets +onlyGivenNames _
    | with_reducible refine KeptBy.next ?_
    | with_reducible apply Kept.updSep
    | fail_if_no_progress (dsimp only [State.updSep])
    | split
    | (with_reducible apply Kept.update) <;> [assumption; exact {}]

theorem KeptBy.sepLinkDown {uu : Units} {zz s : State} (hk : Kept uu zz s) (hMbx : uu.mbx = true := by assumption)
    (hSep : uu.sep = true := by assumption) (hMoved : uu.moved = true := by assumption)
    (hOut : uu.out = true := by assumption) :
    KeptBy uu zz (execSepLinkDown s) := by
  unfold execSepLinkDown
  repeat' first
    | with_reducible assumption
    | exact {}
    | intro _
    | extract_lets +onlyGivenNames _
    | with_reducible refine KeptBy.next ?_
    | with_reducible apply Kept.sepDown

theorem KeptBy.containmentRelease {uu : Units} {zz s : State} (hk : Kept uu zz s) (hSep : uu.sep = true := by assumption) :
    KeptBy uu zz (execContainmentRelease s) := by
  unfold execContainmentRelease
  repeat' first
    | with_reducible assumption
    | exact {}
    | intro _
    | extract_lets +onlyGivenNames _
    | with_reducible refine KeptBy.next ?_
    | with_reducible apply Kept.relAsk

theorem KeptBy.containmentReleaseEffect {uu : Units} {zz s : State} (hk : Kept uu zz s)
    (hSep : uu.sep = true := by assumption) (hMoved : uu.moved = true := by assumption)
    (hOut : uu.out = true := by assumption) :
    KeptBy uu zz (execContainmentReleaseEffect s) := by
  unfold execContainmentReleaseEffect
  repeat' first
    | with_reducible assumption
    | exact {}
    | intro _
    | extract_lets +onlyGivenNames _
    | with_reducible refine KeptBy.next ?_
    | with_reducible apply Kept.sepRelease
    | split

theorem KeptBy.configWrite {uu : Units} {zz s : State} (offset : Nat) (w : Word) (enables : BitVec 4) (hk : Kept uu zz s)
    (hMbx : uu.mbx = true := by assumption) (hSep : uu.sep = true := by assumption)
    (hMoved : uu.moved = true := by assumption) (hOut : uu.out = true := by assumption) :
    KeptBy uu zz (execConfigWrite offset w enables s) := by
  have k0 : ∀ v, Kept uu zz (s.updSep (fun y => { y with bar0 := v })) := fun v => Kept.updSep _ (fun _ => {}) hk
  have k2 : ∀ v, Kept uu zz (s.updSep (fun y => { y with bar2 := v })) := fun v => Kept.updSep _ (fun _ => {}) hk
  unfold execConfigWrite
  dsimp only
  repeat' first
    | with_reducible assumption
    | exact {}
    | intro _
    | extract_lets +onlyGivenNames _
    | with_reducible refine KeptBy.next ?_
    | with_reducible exact k0 _
    | with_reducible exact k2 _
    | with_reducible apply Kept.setBme
    | with_reducible apply Kept.pumpFetch
    | with_reducible apply Kept.msiFlush
    | with_reducible apply Kept.fetchFail
    | with_reducible apply Kept.flrBegin
    | with_reducible apply Kept.relAsk
    | with_reducible apply Kept.updSep
    | with_reducible apply KeptBy.ite

theorem KeptBy.doeRequest {uu : Units} {zz s : State} (obj : DoeObject) (hk : Kept uu zz s)
    (hSep : uu.sep = true := by assumption) (hOut : uu.out = true := by assumption) :
    KeptBy uu zz (execDoeRequest obj s) := by
  unfold execDoeRequest
  repeat' first
    | with_reducible assumption
    | exact {}
    | intro _
    | extract_lets +onlyGivenNames _
    | with_reducible refine KeptBy.next ?_
    | with_reducible apply Kept.doeReply
    | split

theorem KeptBy.doeAbort {uu : Units} {zz s : State} (hk : Kept uu zz s) (hSep : uu.sep = true := by assumption) :
    KeptBy uu zz (execDoeAbort s) := by
  unfold execDoeAbort
  repeat' first
    | with_reducible assumption
    | exact {}
    | intro _
    | extract_lets +onlyGivenNames _
    | with_reducible refine KeptBy.next ?_
    | with_reducible apply Kept.updSep

end Sys2Proof.Machine
end

