-- ==== Sys2Proof/Laws/KeptShared.lean ====
section
/-! SUPPORT. `Kept` for the operations of Machine/Shared.lean. -/

set_option Elab.async false

namespace Sys2Proof.Machine

theorem Kept.updRfx {uu : Units} {zz s : State} (f : RfxSt → RfxSt) (hf : ∀ t : State, Like uu t { t with rfx := f t.rfx })
    (hk : Kept uu zz s) (hRfx : uu.rfx = true := by assumption) : Kept uu zz (State.updRfx s f) := hk.like (hf _)

theorem Kept.updTk {uu : Units} {zz s : State} (f : TkSt → TkSt) (hk : Kept uu zz s) (hTk : uu.tk = true := by assumption)
    : Kept uu zz (State.updTk s f) := by
  unfold State.updTk
  repeat' first
    | with_reducible assumption
    | exact {}
    | intro _
    | split
    | (with_reducible apply Kept.update) <;> [assumption; exact {}]

theorem Kept.updKvt {uu : Units} {zz s : State} (f : KvtSt → KvtSt) (hf : ∀ t : State, Like uu t { t with kvt := f t.kvt })
    (hk : Kept uu zz s) (hKvt : uu.kvt = true := by assumption) : Kept uu zz (State.updKvt s f) := hk.like (hf _)

theorem Kept.endSession {uu : Units} {zz s : State} (hk : Kept uu zz s) (hKvt : uu.kvt = true := by assumption) : Kept uu zz
    (State.endSession s) := by
  unfold State.endSession
  repeat' first
    | with_reducible assumption
    | exact {}
    | intro _
    | with_reducible apply Kept.updKvt

theorem Kept.updHce {uu : Units} {zz s : State} (f : HceSt → HceSt) (hk : Kept uu zz s)
    (hHce : uu.hce = true := by assumption) : Kept uu zz (State.updHce s f) := by
  unfold State.updHce
  repeat' first
    | with_reducible assumption
    | exact {}
    | intro _
    | split
    | (with_reducible apply Kept.update) <;> [assumption; exact {}]

theorem Kept.updRge {uu : Units} {zz s : State} (f : RgeSt → RgeSt) (hk : Kept uu zz s)
    (hRge : uu.rge = true := by assumption) : Kept uu zz (State.updRge s f) := by
  unfold State.updRge
  repeat' first
    | with_reducible assumption
    | exact {}
    | intro _
    | split
    | (with_reducible apply Kept.update) <;> [assumption; exact {}]

theorem Kept.openIntent {uu : Units} {zz s : State} (ring : Nat) (kind : Nat) (flags : Nat) (stripe : Nat) (rowmask : Nat)
    (posmask : Nat) (version : Nat) (hk : Kept uu zz s) (hRge : uu.rge = true := by assumption)
    (hRfx : uu.rfx = true := by assumption) (hXbr : uu.xbr = true := by assumption) (hPmu : uu.pmu = true := by assumption)
    (hMoved : uu.moved = true := by assumption) (hOut : uu.out = true := by assumption) : Kept uu zz
    (State.openIntent s ring kind flags stripe rowmask posmask version).1 := by
  unfold State.openIntent
  repeat' first
    | with_reducible assumption
    | exact {}
    | intro _
    | (extract_lets +onlyGivenNames x; first | refine Kept.cut x ?_ ?_ <;> [subst x; (clear_value x; intro _)] | skip)
    | with_reducible apply Kept.updRge
    | with_reducible apply Kept.sendLine

theorem Kept.freeIntent {uu : Units} {zz s : State} (idx : Nat) (hk : Kept uu zz s) (hRge : uu.rge = true := by assumption)
    (hRfx : uu.rfx = true := by assumption) (hXbr : uu.xbr = true := by assumption) (hPmu : uu.pmu = true := by assumption)
    (hMoved : uu.moved = true := by assumption) (hOut : uu.out = true := by assumption) : Kept uu zz
    (State.freeIntent s idx) := by
  unfold State.freeIntent
  repeat' first
    | with_reducible assumption
    | exact {}
    | intro _
    | extract_lets +onlyGivenNames _
    | with_reducible apply Kept.updRge
    | with_reducible apply Kept.sendLine

theorem Kept.sendHeader {uu : Units} {zz s : State} (ring : Nat) (hk : Kept uu zz s) (hRfx : uu.rfx = true := by assumption)
    (hXbr : uu.xbr = true := by assumption) (hPmu : uu.pmu = true := by assumption)
    (hMoved : uu.moved = true := by assumption) (hOut : uu.out = true := by assumption) : Kept uu zz
    (State.sendHeader s ring) := by
  unfold State.sendHeader
  repeat' first
    | with_reducible assumption
    | exact {}
    | intro _
    | with_reducible apply Kept.sendLine
    | split

theorem Kept.setRegion {uu : Units} {zz s : State} (ring : Nat) (region : Nat) (hk : Kept uu zz s)
    (hRge : uu.rge = true := by assumption) (hRfx : uu.rfx = true := by assumption) (hXbr : uu.xbr = true := by assumption)
    (hPmu : uu.pmu = true := by assumption) (hMoved : uu.moved = true := by assumption)
    (hOut : uu.out = true := by assumption) : Kept uu zz (State.setRegion s ring region) := by
  unfold State.setRegion
  repeat' first
    | with_reducible assumption
    | exact {}
    | intro _
    | (extract_lets +onlyGivenNames x; refine Kept.cut x ?_ ?_ <;> [subst x; (clear_value x; intro _)])
    | with_reducible apply Kept.updRing
    | with_reducible apply Kept.sendLine
    | split

theorem Kept.markStripe {uu : Units} {zz s : State} (r : Ring) (stripe : Nat) (hk : Kept uu zz s)
    (hRge : uu.rge = true := by assumption) (hRfx : uu.rfx = true := by assumption) (hXbr : uu.xbr = true := by assumption)
    (hPmu : uu.pmu = true := by assumption) (hMoved : uu.moved = true := by assumption)
    (hOut : uu.out = true := by assumption) : Kept uu zz (State.markStripe s r stripe) := by
  unfold State.markStripe
  repeat' first
    | with_reducible assumption
    | exact {}
    | intro _
    | extract_lets +onlyGivenNames _
    | with_reducible apply Kept.setRegion

theorem Kept.announceIdent {uu : Units} {zz s : State} (i : Nat) (port : Nat) (hk : Kept uu zz s)
    (hTk : uu.tk = true := by assumption) (hOut : uu.out = true := by assumption) : Kept uu zz
    (State.announceIdent s i port) := by
  unfold State.announceIdent
  repeat' first
    | with_reducible assumption
    | exact {}
    | intro _
    | (extract_lets +onlyGivenNames x; first | refine Kept.cut x ?_ ?_ <;> [subst x; (clear_value x; intro _)] | skip)
    | with_reducible apply Kept.emit
    | with_reducible apply Kept.updTk
    | with_reducible refine Kept.foldl ?_ _ ?_

theorem Kept.moveIdent {uu : Units} {zz s : State} (i : Nat) (port : Nat) (hk : Kept uu zz s)
    (hHce : uu.hce = true := by assumption) (hTk : uu.tk = true := by assumption) (hPwr : uu.pwr = true := by assumption)
    (hOut : uu.out = true := by assumption) : Kept uu zz (State.moveIdent s i port) := by
  unfold State.moveIdent
  repeat' first
    | with_reducible assumption
    | exact {}
    | intro _
    | (extract_lets +onlyGivenNames x; first | refine Kept.cut x ?_ ?_ <;> [subst x; (clear_value x; intro _)] | skip)
    | with_reducible apply Kept.updTk
    | with_reducible apply Kept.updHce
    | with_reducible apply Kept.announceIdent
    | split
    | (with_reducible apply Kept.update) <;> [assumption; exact {}]

theorem Kept.flood {uu : Units} {zz s : State} (except_ : Option Nat) (typ : Nat) (payload : List Byte) (hk : Kept uu zz s)
    (hXbr : uu.xbr = true := by assumption) (hOut : uu.out = true := by assumption) : Kept uu zz
    (State.flood s except_ typ payload) := by
  unfold State.flood
  repeat' first
    | with_reducible assumption
    | exact {}
    | intro _
    | extract_lets +onlyGivenNames _
    | with_reducible apply Kept.relti
    | with_reducible refine Kept.foldl ?_ _ ?_

theorem Kept.resend2 {uu : Units} {zz s : State} (hk : Kept uu zz s) (hRfx : uu.rfx = true := by assumption)
    (hXbr : uu.xbr = true := by assumption) (hOut : uu.out = true := by assumption) : Kept uu zz (State.resend2 s) := by
  unfold State.resend2
  repeat' first
    | with_reducible assumption
    | exact {}
    | intro _
    | extract_lets +onlyGivenNames _
    | with_reducible apply Kept.emit
    | with_reducible apply Kept.xbarRelti
    | with_reducible apply Kept.updRfx
    | with_reducible refine Kept.foldl ?_ _ ?_
    | split

theorem Kept.reroute {uu : Units} {zz s : State} (hk : Kept uu zz s) (hHce : uu.hce = true := by assumption)
    (hRfx : uu.rfx = true := by assumption) (hTk : uu.tk = true := by assumption) (hXbr : uu.xbr = true := by assumption)
    (hOut : uu.out = true := by assumption) : Kept uu zz (State.reroute s) := by
  unfold State.reroute
  repeat' first
    | with_reducible assumption
    | exact {}
    | intro _
    | (extract_lets +onlyGivenNames x; first | refine Kept.cut x ?_ ?_ <;> [subst x; (clear_value x; intro _)] | skip)
    | with_reducible apply Kept.updRfx
    | with_reducible apply Kept.updTk
    | with_reducible apply Kept.resend2
    | with_reducible apply Kept.updHce
    | fail_if_no_progress (dsimp only [State.updRfx])
    | split

theorem Kept.sendLsa {uu : Units} {zz s : State} (hk : Kept uu zz s) (hHce : uu.hce = true := by assumption)
    (hRfx : uu.rfx = true := by assumption) (hTk : uu.tk = true := by assumption) (hXbr : uu.xbr = true := by assumption)
    (hOut : uu.out = true := by assumption) : Kept uu zz (State.sendLsa s) := by
  unfold State.sendLsa
  repeat' first
    | with_reducible assumption
    | exact {}
    | intro _
    | (extract_lets +onlyGivenNames x; first | refine Kept.cut x ?_ ?_ <;> [subst x; (clear_value x; intro _)] | skip)
    | with_reducible apply Kept.reroute
    | with_reducible apply Kept.updRfx
    | with_reducible apply Kept.flood
    | fail_if_no_progress (dsimp only [State.updRfx])
    | split

theorem Kept.ringRegion {uu : Units} {zz s : State} (ring : Nat) (mirror : Bool) (hk : Kept uu zz s)
    (hHce : uu.hce = true := by assumption) : Kept uu zz (State.ringRegion s ring mirror) := by
  unfold State.ringRegion
  repeat' first
    | with_reducible assumption
    | exact {}
    | intro _
    | with_reducible apply Kept.updHce

theorem Kept.readSlot {uu : Units} {zz s : State} (r : Ring) (j : Nat) (hk : Kept uu zz s)
    (hBay : uu.bay = true := by assumption) (hPmu : uu.pmu = true := by assumption)
    (hMoved : uu.moved = true := by assumption) (hOut : uu.out = true := by assumption) : Kept uu zz
    (State.readSlot s r j) := by
  unfold State.readSlot
  repeat' first
    | with_reducible assumption
    | exact {}
    | intro _
    | extract_lets +onlyGivenNames _
    | with_reducible apply Kept.toSlot

theorem Kept.readCheckpoint {uu : Units} {zz s : State} (r : Ring) (hk : Kept uu zz s)
    (hBay : uu.bay = true := by assumption) (hPmu : uu.pmu = true := by assumption)
    (hMoved : uu.moved = true := by assumption) (hOut : uu.out = true := by assumption) : Kept uu zz
    (State.readCheckpoint s r) := by
  unfold State.readCheckpoint
  repeat' first
    | with_reducible assumption
    | exact {}
    | intro _
    | with_reducible apply Kept.readSlot
    | split

theorem Kept.endHunt {uu : Units} {zz s : State} (ring : Nat) (hk : Kept uu zz s) (hRge : uu.rge = true := by assumption)
    (hRfx : uu.rfx = true := by assumption) (hXbr : uu.xbr = true := by assumption) (hPmu : uu.pmu = true := by assumption)
    (hMoved : uu.moved = true := by assumption) (hOut : uu.out = true := by assumption) : Kept uu zz
    (State.endHunt s ring) := by
  unfold State.endHunt
  repeat' first
    | with_reducible assumption
    | exact {}
    | intro _
    | extract_lets +onlyGivenNames _
    | with_reducible apply Kept.updRing
    | with_reducible apply Kept.sendHeader
    | with_reducible refine Kept.foldl ?_ _ ?_
    | split

theorem Kept.startResync {uu : Units} {zz s : State} (ring : Nat) (hk : Kept uu zz s)
    (hRge : uu.rge = true := by assumption) (hRfx : uu.rfx = true := by assumption) (hBay : uu.bay = true := by assumption)
    (hXbr : uu.xbr = true := by assumption) (hPmu : uu.pmu = true := by assumption)
    (hMoved : uu.moved = true := by assumption) (hOut : uu.out = true := by assumption) : Kept uu zz
    (State.startResync s ring) := by
  unfold State.startResync
  repeat' first
    | with_reducible assumption
    | exact {}
    | intro _
    | (extract_lets +onlyGivenNames x; first | refine Kept.cut x ?_ ?_ <;> [subst x; (clear_value x; intro _)] | skip)
    | with_reducible apply Kept.updRing
    | with_reducible apply Kept.sendHeader
    | with_reducible apply Kept.readSlot
    | with_reducible apply Kept.endHunt
    | with_reducible apply Kept.readCheckpoint
    | with_reducible refine Kept.foldl ?_ _ ?_
    | split

theorem Kept.issueInit {uu : Units} {zz s : State} (ring : Nat) (hk : Kept uu zz s) (hBay : uu.bay = true := by assumption)
    (hPmu : uu.pmu = true := by assumption) (hMoved : uu.moved = true := by assumption)
    (hOut : uu.out = true := by assumption) : Kept uu zz (State.issueInit s ring) := by
  unfold State.issueInit
  repeat' first
    | with_reducible assumption
    | exact {}
    | intro _
    | extract_lets +onlyGivenNames _
    | with_reducible apply Kept.toSlot
    | with_reducible refine Kept.foldl ?_ _ ?_
    | split

theorem Kept.resumeKeys {uu : Units} {zz s : State} (ring : Nat) (hk : Kept uu zz s) (hKvt : uu.kvt = true := by assumption)
    : Kept uu zz (State.resumeKeys s ring) := by
  unfold State.resumeKeys
  repeat' first
    | with_reducible assumption
    | exact {}
    | intro _
    | extract_lets +onlyGivenNames _
    | with_reducible apply Kept.updKvt

theorem Kept.adoptService {uu : Units} {zz s : State} (ring : Nat) (hk : Kept uu zz s)
    (hRge : uu.rge = true := by assumption) : Kept uu zz (State.adoptService s ring) := by
  unfold State.adoptService
  repeat' first
    | with_reducible assumption
    | exact {}
    | intro _
    | extract_lets +onlyGivenNames _
    | with_reducible apply Kept.updRing
    | split

theorem Kept.adoptLost {uu : Units} {zz s : State} (ring : Nat) (hk : Kept uu zz s) (hRge : uu.rge = true := by assumption)
    (hRfx : uu.rfx = true := by assumption) (hXbr : uu.xbr = true := by assumption) (hPmu : uu.pmu = true := by assumption)
    (hMoved : uu.moved = true := by assumption) (hOut : uu.out = true := by assumption) : Kept uu zz
    (State.adoptLost s ring) := by
  unfold State.adoptLost
  repeat' first
    | with_reducible assumption
    | exact {}
    | intro _
    | extract_lets +onlyGivenNames _
    | with_reducible apply Kept.addLost
    | with_reducible refine Kept.foldl ?_ _ ?_
    | split

theorem Kept.becomeMaster {uu : Units} {zz s : State} (ring : Nat) (epoch : Nat) (hk : Kept uu zz s)
    (hHce : uu.hce = true := by assumption) (hRge : uu.rge = true := by assumption) (hRfx : uu.rfx = true := by assumption)
    (hKvt : uu.kvt = true := by assumption) (hBay : uu.bay = true := by assumption) (hXbr : uu.xbr = true := by assumption)
    (hPmu : uu.pmu = true := by assumption) (hMoved : uu.moved = true := by assumption)
    (hOut : uu.out = true := by assumption) : Kept uu zz (State.becomeMaster s ring epoch) := by
  unfold State.becomeMaster
  repeat' first
    | with_reducible assumption
    | exact {}
    | intro _
    | (extract_lets +onlyGivenNames x; first | refine Kept.cut x ?_ ?_ <;> [subst x; (clear_value x; intro _)] | skip)
    | with_reducible apply Kept.adoptLost
    | with_reducible apply Kept.adoptService
    | with_reducible apply Kept.updRing
    | with_reducible apply Kept.ringRegion
    | with_reducible apply Kept.resumeKeys
    | with_reducible apply Kept.startResync
    | with_reducible apply Kept.recomputeCeil
    | with_reducible apply Kept.issueInit
    | split

theorem Kept.sendEpoch {uu : Units} {zz s : State} (ring : Nat) (epoch : Nat) (hk : Kept uu zz s)
    (hRfx : uu.rfx = true := by assumption) (hXbr : uu.xbr = true := by assumption) (hPmu : uu.pmu = true := by assumption)
    (hMoved : uu.moved = true := by assumption) (hOut : uu.out = true := by assumption) : Kept uu zz
    (State.sendEpoch s ring epoch) := by
  unfold State.sendEpoch
  repeat' first
    | with_reducible assumption
    | exact {}
    | intro _
    | with_reducible apply Kept.sendLine

theorem Kept.decide {uu : Units} {zz s : State} (ring : Nat) (hk : Kept uu zz s) (hRge : uu.rge = true := by assumption)
    (hRfx : uu.rfx = true := by assumption) (hXbr : uu.xbr = true := by assumption) (hPmu : uu.pmu = true := by assumption)
    (hMoved : uu.moved = true := by assumption) (hOut : uu.out = true := by assumption) : Kept uu zz
    (State.decide s ring) := by
  unfold State.decide
  repeat' first
    | with_reducible assumption
    | exact {}
    | intro _
    | (extract_lets +onlyGivenNames x; first | refine Kept.cut x ?_ ?_ <;> [subst x; (clear_value x; intro _)] | skip)
    | with_reducible apply Kept.updRing
    | with_reducible apply Kept.sendEpoch
    | split

theorem Kept.sendBid {uu : Units} {zz s : State} (ring : Nat) (hk : Kept uu zz s) (hRge : uu.rge = true := by assumption)
    (hRfx : uu.rfx = true := by assumption) (hXbr : uu.xbr = true := by assumption) (hPmu : uu.pmu = true := by assumption)
    (hMoved : uu.moved = true := by assumption) (hOut : uu.out = true := by assumption) : Kept uu zz
    (State.sendBid s ring) := by
  unfold State.sendBid
  repeat' first
    | with_reducible assumption
    | exact {}
    | intro _
    | (extract_lets +onlyGivenNames x; refine Kept.cut x ?_ ?_ <;> [subst x; (clear_value x; intro _)])
    | with_reducible apply Kept.decide
    | with_reducible apply Kept.updRing
    | with_reducible apply Kept.toPeer
    | split

theorem Kept.sendBids {uu : Units} {zz s : State} (hk : Kept uu zz s) (hRge : uu.rge = true := by assumption)
    (hRfx : uu.rfx = true := by assumption) (hXbr : uu.xbr = true := by assumption) (hPmu : uu.pmu = true := by assumption)
    (hMoved : uu.moved = true := by assumption) (hOut : uu.out = true := by assumption) : Kept uu zz
    (State.sendBids s) := by
  unfold State.sendBids
  repeat' first
    | with_reducible assumption
    | exact {}
    | intro _
    | extract_lets +onlyGivenNames _
    | with_reducible apply Kept.sendBid
    | with_reducible refine Kept.foldl ?_ _ ?_

theorem Kept.ringOnline {uu : Units} {zz s : State} (ring : Nat) (hk : Kept uu zz s) (hRge : uu.rge = true := by assumption)
    (hRfx : uu.rfx = true := by assumption) (hXbr : uu.xbr = true := by assumption) (hPmu : uu.pmu = true := by assumption)
    (hMoved : uu.moved = true := by assumption) (hOut : uu.out = true := by assumption) : Kept uu zz
    (State.ringOnline s ring) := by
  unfold State.ringOnline
  repeat' first
    | with_reducible assumption
    | exact {}
    | intro _
    | extract_lets +onlyGivenNames _
    | with_reducible apply Kept.updRing
    | with_reducible apply Kept.sendBid
    | split

theorem Kept.closeStream {uu : Units} {zz s : State} (hk : Kept uu zz s) (hHce : uu.hce = true := by assumption)
    (hRfx : uu.rfx = true := by assumption) : Kept uu zz (State.closeStream s) := by
  unfold State.closeStream
  repeat' first
    | with_reducible assumption
    | exact {}
    | intro _
    | (extract_lets +onlyGivenNames x; first | refine Kept.cut x ?_ ?_ <;> [subst x; (clear_value x; intro _)] | skip)
    | with_reducible apply Kept.updRfx
    | with_reducible apply Kept.updHce
    | with_reducible apply Kept.cacheDrop

theorem Kept.mirrorDown {uu : Units} {zz s : State} (hk : Kept uu zz s) (hHce : uu.hce = true := by assumption)
    (hRfx : uu.rfx = true := by assumption) : Kept uu zz (State.mirrorDown s) := by
  unfold State.mirrorDown
  repeat' first
    | with_reducible assumption
    | exact {}
    | intro _
    | (extract_lets +onlyGivenNames x; first | refine Kept.cut x ?_ ?_ <;> [subst x; (clear_value x; intro _)] | skip)
    | with_reducible apply Kept.updHce
    | with_reducible apply Kept.closeStream
    | with_reducible apply Kept.applyWt

theorem Kept.propDone {uu : Units} {zz s : State} (p : PropRec) (hk : Kept uu zz s) (hMbx : uu.mbx = true := by assumption)
    (hMoved : uu.moved = true := by assumption) (hOut : uu.out = true := by assumption) : Kept uu zz
    (State.propDone s p) := by
  unfold State.propDone
  repeat' first
    | with_reducible assumption
    | exact {}
    | intro _
    | with_reducible apply Kept.finish
    | split

theorem Kept.flushProps {uu : Units} {zz s : State} (hk : Kept uu zz s) (hMbx : uu.mbx = true := by assumption)
    (hProps : uu.props = true := by assumption) (hMoved : uu.moved = true := by assumption)
    (hOut : uu.out = true := by assumption) : Kept uu zz (State.flushProps s) := by
  unfold State.flushProps
  repeat' first
    | with_reducible assumption
    | exact {}
    | intro _
    | extract_lets +onlyGivenNames _
    | with_reducible apply Kept.propDone
    | with_reducible refine Kept.foldl ?_ _ ?_
    | split
    | (with_reducible apply Kept.update) <;> [assumption; exact {}]

theorem Kept.failHandovers {uu : Units} {zz s : State} (hk : Kept uu zz s) (hRge : uu.rge = true := by assumption)
    (hMbx : uu.mbx = true := by assumption) (hMoved : uu.moved = true := by assumption)
    (hOut : uu.out = true := by assumption) : Kept uu zz (State.failHandovers s) := by
  unfold State.failHandovers
  repeat' first
    | with_reducible assumption
    | exact {}
    | intro _
    | extract_lets +onlyGivenNames _
    | with_reducible apply Kept.updRing
    | with_reducible apply Kept.finish
    | with_reducible refine Kept.foldl ?_ _ ?_
    | split

theorem Kept.decideAll {uu : Units} {zz s : State} (hk : Kept uu zz s) (hRge : uu.rge = true := by assumption)
    (hRfx : uu.rfx = true := by assumption) (hXbr : uu.xbr = true := by assumption) (hPmu : uu.pmu = true := by assumption)
    (hMoved : uu.moved = true := by assumption) (hOut : uu.out = true := by assumption) : Kept uu zz
    (State.decideAll s) := by
  unfold State.decideAll
  repeat' first
    | with_reducible assumption
    | exact {}
    | intro _
    | extract_lets +onlyGivenNames _
    | with_reducible apply Kept.decide
    | with_reducible refine Kept.foldl ?_ _ ?_

theorem Kept.peerAbsent {uu : Units} {zz s : State} (hk : Kept uu zz s) (hHce : uu.hce = true := by assumption)
    (hRge : uu.rge = true := by assumption) (hRfx : uu.rfx = true := by assumption) (hMbx : uu.mbx = true := by assumption)
    (hProps : uu.props = true := by assumption) (hXbr : uu.xbr = true := by assumption)
    (hPmu : uu.pmu = true := by assumption) (hMoved : uu.moved = true := by assumption)
    (hOut : uu.out = true := by assumption) : Kept uu zz (State.peerAbsent s) := by
  unfold State.peerAbsent
  repeat' first
    | with_reducible assumption
    | exact {}
    | intro _
    | (extract_lets +onlyGivenNames x; first | refine Kept.cut x ?_ ?_ <;> [subst x; (clear_value x; intro _)] | skip)
    | with_reducible apply Kept.updRfx
    | with_reducible apply Kept.updHce
    | with_reducible apply Kept.applyWt
    | with_reducible apply Kept.decideAll
    | with_reducible apply Kept.flushProps

theorem Kept.assertFence {uu : Units} {zz s : State} (hk : Kept uu zz s) (hTk : uu.tk = true := by assumption)
    (hOut : uu.out = true := by assumption) : Kept uu zz (State.assertFence s) := by
  unfold State.assertFence
  repeat' first
    | with_reducible assumption
    | exact {}
    | intro _
    | (extract_lets +onlyGivenNames x; first | refine Kept.cut x ?_ ?_ <;> [subst x; (clear_value x; intro _)] | skip)
    | with_reducible apply Kept.updTk
    | with_reducible apply Kept.emit
    | with_reducible apply Kept.announceIdent
    | with_reducible refine Kept.foldl ?_ _ ?_
    | split

theorem Kept.resumeAt {uu : Units} {zz s : State} (k : HConn) (hk : Kept uu zz s) (hHce : uu.hce = true := by assumption)
    (hXbr : uu.xbr = true := by assumption) (hOut : uu.out = true := by assumption) : Kept uu zz (State.resumeAt s k) := by
  unfold State.resumeAt
  repeat' first
    | with_reducible assumption
    | exact {}
    | intro _
    | (extract_lets +onlyGivenNames x; first | refine Kept.cut x ?_ ?_ <;> [subst x; (clear_value x; intro _)] | skip)
    | with_reducible apply Kept.emit
    | with_reducible apply Kept.hostFrames
    | with_reducible apply Kept.updConn
    | split

theorem Kept.markMig {uu : Units} {zz s : State} (v : Nat) (hit : List (Nat × Nat)) (hk : Kept uu zz s)
    (hVsm : uu.vsm = true := by assumption) : Kept uu zz (State.markMig s v hit) := by
  unfold State.markMig
  repeat' first
    | with_reducible assumption
    | exact {}
    | intro _
    | extract_lets +onlyGivenNames _
    | with_reducible refine Kept.foldl ?_ _ ?_
    | split
    | (with_reducible apply Kept.update) <;> [assumption; exact {}]

theorem Kept.thaw {uu : Units} {zz s : State} (v : Nat) (hk : Kept uu zz s) (hHce : uu.hce = true := by assumption)
    (hVsm : uu.vsm = true := by assumption) (hXbr : uu.xbr = true := by assumption) (hOut : uu.out = true := by assumption)
    : Kept uu zz (State.thaw s v) := by
  unfold State.thaw
  repeat' first
    | with_reducible assumption
    | exact {}
    | intro _
    | (extract_lets +onlyGivenNames x; first | refine Kept.cut x ?_ ?_ <;> [subst x; (clear_value x; intro _)] | skip)
    | with_reducible apply Kept.updVs
    | with_reducible apply Kept.updHce
    | with_reducible apply Kept.resumeAt
    | with_reducible refine Kept.foldl ?_ _ ?_
    | split

theorem Kept.endMigration {uu : Units} {zz s : State} (v : Nat) (tell : Bool) (hk : Kept uu zz s)
    (hHce : uu.hce = true := by assumption) (hVsm : uu.vsm = true := by assumption) (hXbr : uu.xbr = true := by assumption)
    (hMoved : uu.moved = true := by assumption) (hOut : uu.out = true := by assumption) : Kept uu zz
    (State.endMigration s v tell) := by
  unfold State.endMigration
  repeat' first
    | with_reducible assumption
    | exact {}
    | intro _
    | (extract_lets +onlyGivenNames x; first | refine Kept.cut x ?_ ?_ <;> [subst x; (clear_value x; intro _)] | skip)
    | with_reducible apply Kept.sendMigrate
    | with_reducible apply Kept.sendProp
    | with_reducible apply Kept.thaw
    | split
    | (with_reducible apply Kept.update) <;> [assumption; exact {}]

theorem Kept.abortMigration {uu : Units} {zz s : State} (v : Nat) (hk : Kept uu zz s)
    (hHce : uu.hce = true := by assumption) (hVsm : uu.vsm = true := by assumption) (hXbr : uu.xbr = true := by assumption)
    (hMoved : uu.moved = true := by assumption) (hOut : uu.out = true := by assumption) : Kept uu zz
    (State.abortMigration s v) := by
  unfold State.abortMigration
  repeat' first
    | with_reducible assumption
    | exact {}
    | intro _
    | with_reducible apply Kept.endMigration

theorem Kept.wakeActive {uu : Units} {zz s : State} (hk : Kept uu zz s) (hPwr : uu.pwr = true := by assumption) : Kept uu zz
    (State.wakeActive s) := by
  unfold State.wakeActive
  repeat' first
    | with_reducible assumption
    | exact {}
    | intro _
    | extract_lets +onlyGivenNames _
    | with_reducible apply Kept.wakeAll
    | with_reducible apply Kept.updPwr
    | split

theorem Kept.putResult {uu : Units} {zz s : State} (r : TestRec) (hk : Kept uu zz s) (hTst : uu.tst = true := by assumption)
    : Kept uu zz (State.putResult s r) := by
  unfold State.putResult
  repeat' first
    | with_reducible assumption
    | exact {}
    | intro _
    | extract_lets +onlyGivenNames _
    | split
    | (with_reducible apply Kept.update) <;> [assumption; exact {}]

theorem Kept.train {uu : Units} {zz s : State} (port : Nat) (hk : Kept uu zz s) (hBay : uu.bay = true := by assumption)
    : Kept uu zz (State.train s port) := by
  unfold State.train
  repeat' first
    | with_reducible assumption
    | exact {}
    | intro _
    | with_reducible apply Kept.setPort

theorem Kept.cancelRetrain {uu : Units} {zz s : State} (r : Retrain) (hk : Kept uu zz s)
    (hHce : uu.hce = true := by assumption) (hRfx : uu.rfx = true := by assumption) (hTk : uu.tk = true := by assumption)
    (hXbr : uu.xbr = true := by assumption) (hPwr : uu.pwr = true := by assumption) (hLcu : uu.lcu = true := by assumption)
    (hOut : uu.out = true := by assumption) : Kept uu zz (State.cancelRetrain s r) := by
  unfold State.cancelRetrain
  repeat' first
    | with_reducible assumption
    | exact {}
    | intro _
    | (extract_lets +onlyGivenNames x; first | refine Kept.cut x ?_ ?_ <;> [subst x; (clear_value x; intro _)] | skip)
    | with_reducible apply Kept.moveIdent
    | with_reducible apply Kept.sendLsa
    | with_reducible refine Kept.foldl ?_ _ ?_
    | split
    | (with_reducible apply Kept.update) <;> [assumption; exact {}]

theorem Kept.cancelRetrains {uu : Units} {zz s : State} (hk : Kept uu zz s) (hHce : uu.hce = true := by assumption)
    (hRfx : uu.rfx = true := by assumption) (hTk : uu.tk = true := by assumption) (hXbr : uu.xbr = true := by assumption)
    (hPwr : uu.pwr = true := by assumption) (hLcu : uu.lcu = true := by assumption) (hOut : uu.out = true := by assumption)
    : Kept uu zz (State.cancelRetrains s) := by
  unfold State.cancelRetrains
  repeat' first
    | with_reducible assumption
    | exact {}
    | intro _
    | extract_lets +onlyGivenNames _
    | with_reducible apply Kept.cancelRetrain
    | with_reducible refine Kept.foldl ?_ _ ?_

theorem Kept.stopLive {uu : Units} {zz s : State} (status : Nat) (hk : Kept uu zz s) (hHce : uu.hce = true := by assumption)
    (hRfx : uu.rfx = true := by assumption) (hTk : uu.tk = true := by assumption) (hKvt : uu.kvt = true := by assumption)
    (hBay : uu.bay = true := by assumption) (hXbr : uu.xbr = true := by assumption) (hPwr : uu.pwr = true := by assumption)
    (hLcu : uu.lcu = true := by assumption) (hTst : uu.tst = true := by assumption) (hOut : uu.out = true := by assumption)
    : Kept uu zz (State.stopLive s status) := by
  unfold State.stopLive
  repeat' first
    | with_reducible assumption
    | exact {}
    | intro _
    | extract_lets +onlyGivenNames _
    | with_reducible apply Kept.putResult
    | with_reducible apply Kept.cancelRetrain
    | with_reducible apply Kept.train
    | with_reducible apply Kept.setBay
    | with_reducible apply Kept.updKvt
    | fail_if_no_progress (dsimp only [State.updKvt])
    | split
    | (with_reducible apply Kept.update) <;> [assumption; exact {}]
    | refine Kept.ofPair (by assumption) ?_
    | refine Kept.ofPair' (by assumption) ?_
    | (with_reducible apply Kept.update) <;> [refine Kept.ofPair (by assumption) ?_; exact {}]
    | fail_if_no_progress ((with_reducible apply Kept.update) <;> [skip; exact {}])

theorem Kept.declareDead {uu : Units} {zz s : State} (cause : Nat) (hk : Kept uu zz s)
    (hHce : uu.hce = true := by assumption) (hRge : uu.rge = true := by assumption) (hRfx : uu.rfx = true := by assumption)
    (hTk : uu.tk = true := by assumption) (hVsm : uu.vsm = true := by assumption) (hKvt : uu.kvt = true := by assumption)
    (hMbx : uu.mbx = true := by assumption) (hBay : uu.bay = true := by assumption)
    (hProps : uu.props = true := by assumption) (hXbr : uu.xbr = true := by assumption)
    (hSep : uu.sep = true := by assumption) (hPwr : uu.pwr = true := by assumption) (hLcu : uu.lcu = true := by assumption)
    (hPmu : uu.pmu = true := by assumption) (hTst : uu.tst = true := by assumption)
    (hMoved : uu.moved = true := by assumption) (hOut : uu.out = true := by assumption) : Kept uu zz
    (State.declareDead s cause) := by
  unfold State.declareDead
  repeat' first
    | with_reducible assumption
    | exact {}
    | intro _
    | (extract_lets +onlyGivenNames x; first | refine Kept.cut x ?_ ?_ <;> [subst x; (clear_value x; intro _)] | skip)
    | with_reducible apply Kept.updRfx
    | with_reducible apply Kept.updHce
    | with_reducible apply Kept.idle
    | with_reducible apply Kept.updTk
    | with_reducible apply Kept.closeStream
    | with_reducible apply Kept.applyWt
    | with_reducible apply Kept.failHandovers
    | with_reducible apply Kept.flushProps
    | with_reducible apply Kept.decideAll
    | with_reducible apply Kept.abortMigration
    | with_reducible apply Kept.sepEvent
    | with_reducible apply Kept.stopLive
    | with_reducible apply Kept.cancelRetrains
    | with_reducible apply Kept.wakeActive
    | with_reducible apply Kept.assertFence
    | fail_if_no_progress (dsimp only [State.updRfx])
    | with_reducible refine Kept.foldl ?_ _ ?_
    | split

theorem Kept.clearMseqs {uu : Units} {zz s : State} (hk : Kept uu zz s) (hHce : uu.hce = true := by assumption)
    (hRge : uu.rge = true := by assumption) (hVsm : uu.vsm = true := by assumption) (hKvt : uu.kvt = true := by assumption)
    (hMbx : uu.mbx = true := by assumption) : Kept uu zz (State.clearMseqs s) := by
  unfold State.clearMseqs
  repeat' first
    | with_reducible assumption
    | exact {}
    | intro _
    | (extract_lets +onlyGivenNames x; first | refine Kept.cut x ?_ ?_ <;> [subst x; (clear_value x; intro _)] | skip)
    | with_reducible apply Kept.updHce
    | with_reducible apply Kept.updRge
    | with_reducible apply Kept.updKvt
    | fail_if_no_progress (dsimp only [State.updKvt])
    | split
    | (with_reducible apply Kept.update) <;> [assumption; exact {}]

theorem Kept.joinRecords {uu : Units} {zz s : State} (hk : Kept uu zz s) (hRfx : uu.rfx = true := by assumption)
    (hXbr : uu.xbr = true := by assumption) (hPmu : uu.pmu = true := by assumption)
    (hMoved : uu.moved = true := by assumption) (hOut : uu.out = true := by assumption) : Kept uu zz
    (State.joinRecords s) := by
  unfold State.joinRecords
  repeat' first
    | with_reducible assumption
    | exact {}
    | intro _
    | (extract_lets +onlyGivenNames x; first | refine Kept.cut x ?_ ?_ <;> [subst x; (clear_value x; intro _)] | skip)
    | with_reducible apply Kept.sendLine
    | with_reducible apply Kept.sendEpoch
    | with_reducible refine Kept.foldl ?_ _ ?_

theorem Kept.joinPeer {uu : Units} {zz s : State} (hk : Kept uu zz s) (hHce : uu.hce = true := by assumption)
    (hRge : uu.rge = true := by assumption) (hRfx : uu.rfx = true := by assumption) (hVsm : uu.vsm = true := by assumption)
    (hKvt : uu.kvt = true := by assumption) (hMbx : uu.mbx = true := by assumption) (hXbr : uu.xbr = true := by assumption)
    (hPmu : uu.pmu = true := by assumption) (hMoved : uu.moved = true := by assumption)
    (hOut : uu.out = true := by assumption) : Kept uu zz (State.joinPeer s) := by
  unfold State.joinPeer
  repeat' first
    | with_reducible assumption
    | exact {}
    | intro _
    | (extract_lets +onlyGivenNames x; first | refine Kept.cut x ?_ ?_ <;> [subst x; (clear_value x; intro _)] | skip)
    | with_reducible apply Kept.clearMseqs
    | with_reducible apply Kept.updRfx
    | with_reducible apply Kept.updKvt
    | with_reducible apply Kept.updHce
    | with_reducible apply Kept.mirSendAll
    | with_reducible apply Kept.sendLine
    | with_reducible apply Kept.sendHeader
    | with_reducible apply Kept.sendXport
    | with_reducible apply Kept.joinRecords
    | with_reducible apply Kept.sendProp
    | with_reducible apply Kept.updRge
    | with_reducible apply Kept.applyWt
    | with_reducible apply Kept.sendBids
    | with_reducible refine Kept.foldl ?_ _ ?_

theorem Kept.shareRings {uu : Units} {zz s : State} (hk : Kept uu zz s) (hRge : uu.rge = true := by assumption)
    (hRfx : uu.rfx = true := by assumption) (hXbr : uu.xbr = true := by assumption) (hPmu : uu.pmu = true := by assumption)
    (hMoved : uu.moved = true := by assumption) (hOut : uu.out = true := by assumption) : Kept uu zz
    (State.shareRings s) := by
  unfold State.shareRings
  repeat' first
    | with_reducible assumption
    | exact {}
    | intro _
    | extract_lets +onlyGivenNames _
    | with_reducible apply Kept.updRge
    | with_reducible apply Kept.mirSend
    | with_reducible refine Kept.foldl ?_ _ ?_
    | split

end Sys2Proof.Machine
end

