-- ==== Sys2Proof/Laws/KeptStripes.lean ====
section
/-! SUPPORT. `Kept` for the operations of Machine/Stripes.lean. -/

set_option Elab.async false

namespace Sys2Proof.Machine

theorem Kept.sendService {uu : Units} {zz s : State} (ring : Nat) (turn : Nat) (hk : Kept uu zz s)
    (hRge : uu.rge = true := by assumption) (hRfx : uu.rfx = true := by assumption) (hXbr : uu.xbr = true := by assumption)
    (hPmu : uu.pmu = true := by assumption) (hMoved : uu.moved = true := by assumption)
    (hOut : uu.out = true := by assumption) : Kept uu zz (State.sendService s ring turn) := by
  unfold State.sendService
  repeat' first
    | with_reducible assumption
    | exact {}
    | intro _
    | extract_lets +onlyGivenNames _
    | with_reducible apply Kept.sendLine
    | with_reducible apply Kept.updRing
    | with_reducible refine Kept.foldl ?_ _ ?_
    | split

theorem Kept.sendServiceAll {uu : Units} {zz s : State} (ring : Nat) (hk : Kept uu zz s)
    (hRge : uu.rge = true := by assumption) (hRfx : uu.rfx = true := by assumption) (hXbr : uu.xbr = true := by assumption)
    (hPmu : uu.pmu = true := by assumption) (hMoved : uu.moved = true := by assumption)
    (hOut : uu.out = true := by assumption) : Kept uu zz (State.sendServiceAll s ring) := by
  unfold State.sendServiceAll
  repeat' first
    | with_reducible assumption
    | exact {}
    | intro _
    | extract_lets +onlyGivenNames _
    | with_reducible apply Kept.sendLine
    | with_reducible apply Kept.updRing
    | with_reducible refine Kept.foldl ?_ _ ?_
    | split

theorem Kept.writeSuperblocks {uu : Units} {zz s : State} (ring : Nat) (hk : Kept uu zz s)
    (hRge : uu.rge = true := by assumption) (hBay : uu.bay = true := by assumption) (hPmu : uu.pmu = true := by assumption)
    (hMoved : uu.moved = true := by assumption) (hOut : uu.out = true := by assumption) : Kept uu zz
    (State.writeSuperblocks s ring) := by
  unfold State.writeSuperblocks
  repeat' first
    | with_reducible assumption
    | exact {}
    | intro _
    | (extract_lets +onlyGivenNames x; first | refine Kept.cut x ?_ ?_ <;> [subst x; (clear_value x; intro _)] | skip)
    | with_reducible apply Kept.toSlot
    | with_reducible apply Kept.setBay
    | with_reducible apply Kept.updRing
    | with_reducible refine Kept.foldl ?_ _ ?_
    | split

theorem Kept.putBlock {uu : Units} {zz s : State} (r : Ring) (j : Nat) (stripe : Nat) (c : Nat) (row : Nat) (seq : Nat)
    (b : Block) (hk : Kept uu zz s) (hBay : uu.bay = true := by assumption) (hPmu : uu.pmu = true := by assumption)
    (hMoved : uu.moved = true := by assumption) (hOut : uu.out = true := by assumption) : Kept uu zz
    (State.putBlock s r j stripe c row seq b) := by
  unfold State.putBlock
  repeat' first
    | with_reducible assumption
    | exact {}
    | intro _
    | with_reducible apply Kept.toSlot

theorem Kept.markMissed {uu : Units} {zz s : State} (r : Ring) (stripe : Nat) (c : Nat) (hk : Kept uu zz s)
    (hRge : uu.rge = true := by assumption) : Kept uu zz (State.markMissed s r stripe c) := by
  unfold State.markMissed
  repeat' first
    | with_reducible assumption
    | exact {}
    | intro _
    | extract_lets +onlyGivenNames _
    | with_reducible apply Kept.updRing
    | with_reducible apply Kept.setSlot
    | with_reducible refine Kept.foldl ?_ _ ?_

theorem Kept.putMember {uu : Units} {zz s : State} (r : Ring) (stripe : Nat) (c : Nat) (row : Nat) (seq : Nat) (b : Block)
    (hk : Kept uu zz s) (hRge : uu.rge = true := by assumption) (hBay : uu.bay = true := by assumption)
    (hPmu : uu.pmu = true := by assumption) (hMoved : uu.moved = true := by assumption)
    (hOut : uu.out = true := by assumption) : Kept uu zz (State.putMember s r stripe c row seq b) := by
  unfold State.putMember
  repeat' first
    | with_reducible assumption
    | exact {}
    | intro _
    | extract_lets +onlyGivenNames _
    | with_reducible apply Kept.putBlock
    | with_reducible apply Kept.markMissed
    | with_reducible refine Kept.foldl ?_ _ ?_

theorem Kept.endTask {uu : Units} {zz s : State} (ring : Nat) (seq : Nat) (hk : Kept uu zz s)
    (hRge : uu.rge = true := by assumption) (hRfx : uu.rfx = true := by assumption) (hXbr : uu.xbr = true := by assumption)
    (hPmu : uu.pmu = true := by assumption) (hMoved : uu.moved = true := by assumption)
    (hOut : uu.out = true := by assumption) : Kept uu zz (State.endTask s ring seq) := by
  unfold State.endTask
  repeat' first
    | with_reducible assumption
    | exact {}
    | intro _
    | with_reducible apply Kept.freeIntent
    | split

theorem Kept.underRecord {uu : Units} {zz s : State} (r : Ring) (kind : Nat) (stripe : Nat) (f : Nat → State → State) (hf
    : ∀ x0 t, Kept uu zz t → Kept uu zz (f x0 t)) (hk : Kept uu zz s) (hRge : uu.rge = true := by assumption)
    (hRfx : uu.rfx = true := by assumption) (hXbr : uu.xbr = true := by assumption) (hPmu : uu.pmu = true := by assumption)
    (hMoved : uu.moved = true := by assumption) (hOut : uu.out = true := by assumption) : Kept uu zz
    (State.underRecord s r kind stripe f) := by
  unfold State.underRecord
  repeat' first
    | with_reducible assumption
    | exact {}
    | intro _
    | (extract_lets +onlyGivenNames x; first | refine Kept.cut x ?_ ?_ <;> [subst x; (clear_value x; intro _)] | skip)
    | with_reducible apply Kept.openIntent
    | with_reducible apply Kept.markStripe
    | with_reducible apply Kept.endTask
    | with_reducible apply hf
    | split

theorem Kept.putRow {uu : Units} {zz s : State} (r : Ring) (stripe : Nat) (row : Nat) (seq : Nat) (data : List Block)
    (poss : List Nat) (hk : Kept uu zz s) (hRge : uu.rge = true := by assumption) (hBay : uu.bay = true := by assumption)
    (hPmu : uu.pmu = true := by assumption) (hMoved : uu.moved = true := by assumption)
    (hOut : uu.out = true := by assumption) : Kept uu zz (State.putRow s r stripe row seq data poss) := by
  unfold State.putRow
  repeat' first
    | with_reducible assumption
    | exact {}
    | intro _
    | extract_lets +onlyGivenNames _
    | with_reducible apply Kept.putMember
    | with_reducible refine Kept.foldl ?_ _ ?_

theorem Kept.recordRow {uu : Units} {zz s : State} (r : Ring) (stripe : Nat) (row : Nat) (lost : List Nat) (cause : Nat) (hk
    : Kept uu zz s) (hRge : uu.rge = true := by assumption) (hRfx : uu.rfx = true := by assumption)
    (hXbr : uu.xbr = true := by assumption) (hPmu : uu.pmu = true := by assumption)
    (hMoved : uu.moved = true := by assumption) (hOut : uu.out = true := by assumption) : Kept uu zz
    (State.recordRow s r stripe row lost cause) := by
  unfold State.recordRow
  repeat' first
    | with_reducible assumption
    | exact {}
    | intro _
    | extract_lets +onlyGivenNames _
    | with_reducible apply Kept.recordLost
    | with_reducible refine Kept.foldl ?_ _ ?_

theorem Kept.repairPut {uu : Units} {zz s : State} (r : Ring) (stripe : Nat) (row : Nat) (seq : Nat) (data : List Block)
    (bad : List Nat) (hk : Kept uu zz s) (hRge : uu.rge = true := by assumption) (hBay : uu.bay = true := by assumption)
    (hPmu : uu.pmu = true := by assumption) (hMoved : uu.moved = true := by assumption)
    (hOut : uu.out = true := by assumption) : Kept uu zz (State.repairPut s r stripe row seq data bad) := by
  unfold State.repairPut
  repeat' first
    | with_reducible assumption
    | exact {}
    | intro _
    | extract_lets +onlyGivenNames _
    | with_reducible apply Kept.putRow
    | with_reducible apply Kept.bumpBy

theorem Kept.settleRow {uu : Units} {zz s : State} (r : Ring) (stripe : Nat) (seq : Nat) (force : Bool) (e : Nat × RowData)
    (hk : Kept uu zz s) (hRge : uu.rge = true := by assumption) (hRfx : uu.rfx = true := by assumption)
    (hBay : uu.bay = true := by assumption) (hXbr : uu.xbr = true := by assumption) (hPmu : uu.pmu = true := by assumption)
    (hMoved : uu.moved = true := by assumption) (hOut : uu.out = true := by assumption) : Kept uu zz
    (State.settleRow s r stripe seq force e) := by
  unfold State.settleRow
  repeat' first
    | with_reducible assumption
    | exact {}
    | intro _
    | extract_lets +onlyGivenNames _
    | with_reducible apply Kept.recordRow
    | with_reducible apply Kept.putRow
    | with_reducible apply Kept.repairPut

theorem Kept.markIssued {uu : Units} {zz s : State} (cs : List Cand) (v : Bool) (hk : Kept uu zz s)
    (hHce : uu.hce = true := by assumption) : Kept uu zz (State.markIssued s cs v) := by
  unfold State.markIssued
  repeat' first
    | with_reducible assumption
    | exact {}
    | intro _
    | extract_lets +onlyGivenNames _
    | with_reducible apply Kept.updHce

theorem Kept.markIntents {uu : Units} {zz s : State} (hk : Kept uu zz s) (hHce : uu.hce = true := by assumption)
    : Kept uu zz (State.markIntents s) := by
  unfold State.markIntents
  repeat' first
    | with_reducible assumption
    | exact {}
    | intro _
    | extract_lets +onlyGivenNames _
    | with_reducible apply Kept.updHce

theorem Kept.openStripe {uu : Units} {zz s : State} (r : Ring) (stripe : Nat) (cs : List Cand) (hk : Kept uu zz s)
    (hHce : uu.hce = true := by assumption) (hRge : uu.rge = true := by assumption) (hRfx : uu.rfx = true := by assumption)
    (hBay : uu.bay = true := by assumption) (hXbr : uu.xbr = true := by assumption) (hPmu : uu.pmu = true := by assumption)
    (hMoved : uu.moved = true := by assumption) (hOut : uu.out = true := by assumption) : Kept uu zz
    (State.openStripe s r stripe cs) := by
  unfold State.openStripe
  repeat' first
    | with_reducible assumption
    | exact {}
    | intro _
    | (extract_lets +onlyGivenNames x; first | refine Kept.cut x ?_ ?_ <;> [subst x; (clear_value x; intro _)] | skip)
    | with_reducible apply Kept.openIntent
    | with_reducible apply Kept.markIssued
    | with_reducible apply Kept.updRge
    | with_reducible apply Kept.markIntents
    | with_reducible apply Kept.count
    | with_reducible apply Kept.startGather
    | with_reducible refine Kept.foldl ?_ _ ?_
    | split
    | (with_reducible apply Kept.update) <;> [assumption; exact {}]
    | refine Kept.ofPair (by assumption) ?_

theorem Kept.abandonStripe {uu : Units} {zz s : State} (w : StripeWrite) (hk : Kept uu zz s)
    (hHce : uu.hce = true := by assumption) (hRge : uu.rge = true := by assumption) (hRfx : uu.rfx = true := by assumption)
    (hXbr : uu.xbr = true := by assumption) (hPmu : uu.pmu = true := by assumption)
    (hMoved : uu.moved = true := by assumption) (hOut : uu.out = true := by assumption) : Kept uu zz
    (State.abandonStripe s w) := by
  unfold State.abandonStripe
  repeat' first
    | with_reducible assumption
    | exact {}
    | intro _
    | (extract_lets +onlyGivenNames x; first | refine Kept.cut x ?_ ?_ <;> [subst x; (clear_value x; intro _)] | skip)
    | with_reducible apply Kept.updHce
    | with_reducible apply Kept.updRge
    | with_reducible apply Kept.freeIntent

theorem Kept.putKey {uu : Units} {zz s : State} (slot : Nat) (f : KeySlot → KeySlot) (hk : Kept uu zz s)
    (hRfx : uu.rfx = true := by assumption) (hKvt : uu.kvt = true := by assumption) (hXbr : uu.xbr = true := by assumption)
    (hPmu : uu.pmu = true := by assumption) (hMoved : uu.moved = true := by assumption)
    (hOut : uu.out = true := by assumption) : Kept uu zz (State.putKey s slot f) := by
  unfold State.putKey
  repeat' first
    | with_reducible assumption
    | exact {}
    | intro _
    | (extract_lets +onlyGivenNames x; refine Kept.cut x ?_ ?_ <;> [subst x; (clear_value x; intro _)])
    | with_reducible apply Kept.updKey
    | with_reducible apply Kept.sendLine
    | split

theorem Kept.startRekey {uu : Units} {zz s : State} (slot : Nat) (hk : Kept uu zz s) (hRfx : uu.rfx = true := by assumption)
    (hKvt : uu.kvt = true := by assumption) (hXbr : uu.xbr = true := by assumption) (hPmu : uu.pmu = true := by assumption)
    (hMoved : uu.moved = true := by assumption) (hOut : uu.out = true := by assumption)
    (hFree : uu.free = true := by assumption) : Kept uu zz (State.startRekey s slot) := by
  unfold State.startRekey
  repeat' first
    | with_reducible assumption
    | exact {}
    | intro _
    | (extract_lets +onlyGivenNames x; first | refine Kept.cut x ?_ ?_ <;> [subst x; (clear_value x; intro _)] | skip)
    | with_reducible apply Kept.tookFree
    | with_reducible apply Kept.putKey
    | with_reducible apply Kept.count
    | split
    | (with_reducible apply Kept.update) <;> [assumption; exact {}]

theorem Kept.autoRekey {uu : Units} {zz s : State} (slot : Nat) (hk : Kept uu zz s) (hRfx : uu.rfx = true := by assumption)
    (hKvt : uu.kvt = true := by assumption) (hXbr : uu.xbr = true := by assumption) (hPmu : uu.pmu = true := by assumption)
    (hMoved : uu.moved = true := by assumption) (hOut : uu.out = true := by assumption)
    (hFree : uu.free = true := by assumption) : Kept uu zz (State.autoRekey s slot) := by
  unfold State.autoRekey
  repeat' first
    | with_reducible assumption
    | exact {}
    | intro _
    | extract_lets +onlyGivenNames _
    | with_reducible apply Kept.count
    | with_reducible apply Kept.startRekey
    | with_reducible apply Kept.sendProp
    | split

theorem Kept.reserve {uu : Units} {zz s : State} (w : StripeWrite) (hk : Kept uu zz s)
    (hRfx : uu.rfx = true := by assumption) (hKvt : uu.kvt = true := by assumption) (hXbr : uu.xbr = true := by assumption)
    (hPmu : uu.pmu = true := by assumption) (hMoved : uu.moved = true := by assumption)
    (hOut : uu.out = true := by assumption) : Kept uu zz (State.reserve s w) := by
  unfold State.reserve
  repeat' first
    | with_reducible assumption
    | exact {}
    | intro _
    | (extract_lets +onlyGivenNames x; refine Kept.cut x ?_ ?_ <;> [subst x; (clear_value x; intro _)])
    | with_reducible apply Kept.count
    | with_reducible apply Kept.putKey
    | with_reducible apply Kept.updKey
    | with_reducible refine Kept.foldl ?_ _ ?_
    | split

theorem Kept.issueStripe {uu : Units} {zz s : State} (r : Ring) (w : StripeWrite) (hk : Kept uu zz s)
    (hHce : uu.hce = true := by assumption) (hRge : uu.rge = true := by assumption) (hRfx : uu.rfx = true := by assumption)
    (hKvt : uu.kvt = true := by assumption) (hBay : uu.bay = true := by assumption) (hXbr : uu.xbr = true := by assumption)
    (hPmu : uu.pmu = true := by assumption) (hMoved : uu.moved = true := by assumption)
    (hOut : uu.out = true := by assumption) (hFree : uu.free = true := by assumption) : Kept uu zz
    (State.issueStripe s r w) := by
  unfold State.issueStripe
  repeat' first
    | with_reducible assumption
    | exact {}
    | intro _
    | (extract_lets +onlyGivenNames x; first | refine Kept.cut x ?_ ?_ <;> [subst x; (clear_value x; intro _)] | skip)
    | with_reducible apply Kept.markStripe
    | with_reducible apply Kept.toSlot
    | with_reducible apply Kept.markMissed
    | with_reducible apply Kept.updKey
    | with_reducible apply Kept.count
    | with_reducible apply Kept.autoRekey
    | with_reducible apply Kept.laneWork
    | with_reducible apply Kept.updRge
    | with_reducible apply Kept.cacheDrop
    | with_reducible apply Kept.supersede
    | with_reducible refine Kept.foldl ?_ _ ?_
    | split
    | (with_reducible apply Kept.update) <;> [assumption; exact {}]
    | refine Kept.ofPair (by assumption) ?_
    | refine Kept.ofPair' (by assumption) ?_
    | (with_reducible apply Kept.update) <;> [refine Kept.ofPair (by assumption) ?_; exact {}]
    | fail_if_no_progress ((with_reducible apply Kept.update) <;> [skip; exact {}])
    | dsimp +zetaDelta only

theorem Kept.advanceStripe {uu : Units} {zz s : State} (ring : Nat) (stripe : Nat) (hk : Kept uu zz s)
    (hHce : uu.hce = true := by assumption) (hRge : uu.rge = true := by assumption) (hRfx : uu.rfx = true := by assumption)
    (hKvt : uu.kvt = true := by assumption) (hBay : uu.bay = true := by assumption) (hXbr : uu.xbr = true := by assumption)
    (hPmu : uu.pmu = true := by assumption) (hMoved : uu.moved = true := by assumption)
    (hOut : uu.out = true := by assumption) (hFree : uu.free = true := by assumption) : Kept uu zz
    (State.advanceStripe s ring stripe) := by
  unfold State.advanceStripe
  repeat' first
    | with_reducible assumption
    | exact {}
    | intro _
    | (extract_lets +onlyGivenNames x; first | refine Kept.cut x ?_ ?_ <;> [subst x; (clear_value x; intro _)] | skip)
    | with_reducible apply Kept.abandonStripe
    | with_reducible apply Kept.updRge
    | with_reducible apply Kept.reserve
    | with_reducible apply Kept.issueStripe
    | split

theorem Kept.advanceAll {uu : Units} {zz s : State} (hk : Kept uu zz s) (hHce : uu.hce = true := by assumption)
    (hRge : uu.rge = true := by assumption) (hRfx : uu.rfx = true := by assumption) (hKvt : uu.kvt = true := by assumption)
    (hBay : uu.bay = true := by assumption) (hXbr : uu.xbr = true := by assumption) (hPmu : uu.pmu = true := by assumption)
    (hMoved : uu.moved = true := by assumption) (hOut : uu.out = true := by assumption)
    (hFree : uu.free = true := by assumption) : Kept uu zz (State.advanceAll s) := by
  unfold State.advanceAll
  repeat' first
    | with_reducible assumption
    | exact {}
    | intro _
    | extract_lets +onlyGivenNames _
    | with_reducible apply Kept.advanceStripe
    | with_reducible refine Kept.foldl ?_ _ ?_

theorem Kept.tryStripe {uu : Units} {zz s : State} (ring : Nat) (stripe : Nat) (aged : Bool) (hk : Kept uu zz s)
    (hHce : uu.hce = true := by assumption) (hRge : uu.rge = true := by assumption) (hRfx : uu.rfx = true := by assumption)
    (hKvt : uu.kvt = true := by assumption) (hBay : uu.bay = true := by assumption) (hXbr : uu.xbr = true := by assumption)
    (hPmu : uu.pmu = true := by assumption) (hMoved : uu.moved = true := by assumption)
    (hOut : uu.out = true := by assumption) (hFree : uu.free = true := by assumption) : Kept uu zz
    (State.tryStripe s ring stripe aged) := by
  unfold State.tryStripe
  repeat' first
    | with_reducible assumption
    | exact {}
    | intro _
    | extract_lets +onlyGivenNames _
    | with_reducible apply Kept.openStripe
    | with_reducible apply Kept.advanceAll
    | split

theorem Kept.deallocDoneAt {uu : Units} {zz s : State} (v : Nat) (n : Nat) (b : Nat) (ver : Nat) (hk : Kept uu zz s)
    (hHce : uu.hce = true := by assumption) : Kept uu zz (State.deallocDoneAt s v n b ver) := by
  unfold State.deallocDoneAt
  repeat' first
    | with_reducible assumption
    | exact {}
    | intro _
    | with_reducible apply Kept.updHce

theorem Kept.endStripe {uu : Units} {zz s : State} (w : StripeWrite) (hk : Kept uu zz s)
    (hHce : uu.hce = true := by assumption) (hRge : uu.rge = true := by assumption) (hRfx : uu.rfx = true := by assumption)
    (hXbr : uu.xbr = true := by assumption) (hPmu : uu.pmu = true := by assumption)
    (hMoved : uu.moved = true := by assumption) (hOut : uu.out = true := by assumption) : Kept uu zz
    (State.endStripe s w) := by
  unfold State.endStripe
  repeat' first
    | with_reducible assumption
    | exact {}
    | intro _
    | (extract_lets +onlyGivenNames x; first | refine Kept.cut x ?_ ?_ <;> [subst x; (clear_value x; intro _)] | skip)
    | with_reducible apply Kept.updRge
    | with_reducible apply Kept.freeIntent
    | with_reducible apply Kept.clearLost
    | with_reducible apply Kept.freeEntries
    | with_reducible apply Kept.freeNotice
    | with_reducible apply Kept.deallocDoneAt
    | with_reducible refine Kept.foldl ?_ _ ?_
    | split

theorem Kept.deferMend {uu : Units} {zz s : State} (n : RowNeed) (cs : List Nat) (hk : Kept uu zz s)
    (hRge : uu.rge = true := by assumption) : Kept uu zz (State.deferMend s n cs) := by
  unfold State.deferMend
  repeat' first
    | with_reducible assumption
    | exact {}
    | intro _
    | with_reducible apply Kept.updRge

theorem Kept.repairRow {uu : Units} {zz s : State} (r : Ring) (n : RowNeed) (hk : Kept uu zz s)
    (hRge : uu.rge = true := by assumption) (hRfx : uu.rfx = true := by assumption) (hBay : uu.bay = true := by assumption)
    (hXbr : uu.xbr = true := by assumption) (hPmu : uu.pmu = true := by assumption)
    (hMoved : uu.moved = true := by assumption) (hOut : uu.out = true := by assumption) : Kept uu zz
    (State.repairRow s r n) := by
  unfold State.repairRow
  repeat' first
    | with_reducible assumption
    | exact {}
    | intro _
    | extract_lets +onlyGivenNames _
    | with_reducible apply Kept.deferMend
    | with_reducible apply Kept.underRecord
    | with_reducible apply Kept.putBlock
    | with_reducible apply Kept.bumpBy
    | with_reducible apply Kept.putRow
    | with_reducible refine Kept.foldl ?_ _ ?_
    | split

theorem Kept.gatherFaults {uu : Units} {zz s : State} (g : Gather) (hk : Kept uu zz s)
    (hRge : uu.rge = true := by assumption) (hRfx : uu.rfx = true := by assumption) (hBay : uu.bay = true := by assumption)
    (hXbr : uu.xbr = true := by assumption) (hPmu : uu.pmu = true := by assumption)
    (hMoved : uu.moved = true := by assumption) (hOut : uu.out = true := by assumption) : Kept uu zz
    (State.gatherFaults s g) := by
  unfold State.gatherFaults
  repeat' first
    | with_reducible assumption
    | exact {}
    | intro _
    | extract_lets +onlyGivenNames _
    | with_reducible apply Kept.recordRow
    | with_reducible apply Kept.repairRow
    | with_reducible refine Kept.foldl ?_ _ ?_
    | split

theorem Kept.handGather {uu : Units} {zz s : State} (g : Gather) (hk : Kept uu zz s) (hHce : uu.hce = true := by assumption)
    (hRfu : uu.rfu = true := by assumption) (hRge : uu.rge = true := by assumption) (hRfx : uu.rfx = true := by assumption)
    (hKvt : uu.kvt = true := by assumption) (hBay : uu.bay = true := by assumption) (hXbr : uu.xbr = true := by assumption)
    (hPwr : uu.pwr = true := by assumption) (hPmu : uu.pmu = true := by assumption)
    (hMoved : uu.moved = true := by assumption) (hOut : uu.out = true := by assumption)
    (hFree : uu.free = true := by assumption) : Kept uu zz (State.handGather s g) := by
  unfold State.handGather
  repeat' first
    | with_reducible assumption
    | exact {}
    | intro _
    | (extract_lets +onlyGivenNames x; first | refine Kept.cut x ?_ ?_ <;> [subst x; (clear_value x; intro _)] | skip)
    | with_reducible apply Kept.gatherFaults
    | with_reducible apply Kept.updRge
    | with_reducible apply Kept.advanceStripe
    | with_reducible apply Kept.rereadDone
    | with_reducible apply Kept.failTag
    | with_reducible apply Kept.updTag
    | with_reducible apply Kept.releaseLocks
    | with_reducible apply Kept.cacheInsert
    | with_reducible apply Kept.placeWrite
    | with_reducible apply Kept.failGroup
    | with_reducible apply Kept.updGroup
    | with_reducible apply Kept.groupReady
    | with_reducible refine Kept.foldl ?_ _ ?_
    | split
    | (with_reducible apply Kept.update) <;> [assumption; exact {}]
    | refine Kept.ofPair (by assumption) ?_
    | refine Kept.ofPair' (by assumption) ?_
    | (with_reducible apply Kept.update) <;> [refine Kept.ofPair (by assumption) ?_; exact {}]
    | fail_if_no_progress ((with_reducible apply Kept.update) <;> [skip; exact {}])
    | dsimp +zetaDelta only

theorem Kept.gatherStep {uu : Units} {zz s : State} (gid : Nat) (hk : Kept uu zz s) (hHce : uu.hce = true := by assumption)
    (hRfu : uu.rfu = true := by assumption) (hRge : uu.rge = true := by assumption) (hRfx : uu.rfx = true := by assumption)
    (hKvt : uu.kvt = true := by assumption) (hBay : uu.bay = true := by assumption) (hXbr : uu.xbr = true := by assumption)
    (hPwr : uu.pwr = true := by assumption) (hPmu : uu.pmu = true := by assumption)
    (hMoved : uu.moved = true := by assumption) (hOut : uu.out = true := by assumption)
    (hFree : uu.free = true := by assumption) : Kept uu zz (State.gatherStep s gid) := by
  unfold State.gatherStep
  repeat' first
    | with_reducible assumption
    | exact {}
    | intro _
    | extract_lets +onlyGivenNames _
    | with_reducible apply Kept.handGather
    | with_reducible apply Kept.askRows
    | with_reducible apply Kept.updRge
    | split

theorem Kept.reask {uu : Units} {zz s : State} (hk : Kept uu zz s) (hHce : uu.hce = true := by assumption)
    (hRfu : uu.rfu = true := by assumption) (hRge : uu.rge = true := by assumption) (hRfx : uu.rfx = true := by assumption)
    (hKvt : uu.kvt = true := by assumption) (hBay : uu.bay = true := by assumption) (hXbr : uu.xbr = true := by assumption)
    (hPwr : uu.pwr = true := by assumption) (hPmu : uu.pmu = true := by assumption)
    (hMoved : uu.moved = true := by assumption) (hOut : uu.out = true := by assumption)
    (hFree : uu.free = true := by assumption) : Kept uu zz (State.reask s) := by
  unfold State.reask
  repeat' first
    | with_reducible assumption
    | exact {}
    | intro _
    | extract_lets +onlyGivenNames _
    | with_reducible apply Kept.gatherStep
    | with_reducible apply Kept.advanceAll
    | with_reducible refine Kept.foldl ?_ _ ?_

theorem Kept.gatherBlock {uu : Units} {zz s : State} (gid : Nat) (stripe : Nat) (row : Nat) (pos : Nat)
    (b : Option MemberBlock) (hk : Kept uu zz s) (hHce : uu.hce = true := by assumption)
    (hRfu : uu.rfu = true := by assumption) (hRge : uu.rge = true := by assumption) (hRfx : uu.rfx = true := by assumption)
    (hKvt : uu.kvt = true := by assumption) (hBay : uu.bay = true := by assumption) (hXbr : uu.xbr = true := by assumption)
    (hPwr : uu.pwr = true := by assumption) (hPmu : uu.pmu = true := by assumption)
    (hMoved : uu.moved = true := by assumption) (hOut : uu.out = true := by assumption)
    (hFree : uu.free = true := by assumption) : Kept uu zz (State.gatherBlock s gid stripe row pos b) := by
  unfold State.gatherBlock
  repeat' first
    | with_reducible assumption
    | exact {}
    | intro _
    | (extract_lets +onlyGivenNames x; first | refine Kept.cut x ?_ ?_ <;> [subst x; (clear_value x; intro _)] | skip)
    | with_reducible apply Kept.updRge
    | with_reducible apply Kept.gatherStep

theorem Kept.startMends {uu : Units} {zz s : State} (ring : Nat) (stripe : Nat) (hk : Kept uu zz s)
    (hHce : uu.hce = true := by assumption) (hRfu : uu.rfu = true := by assumption) (hRge : uu.rge = true := by assumption)
    (hRfx : uu.rfx = true := by assumption) (hKvt : uu.kvt = true := by assumption) (hBay : uu.bay = true := by assumption)
    (hXbr : uu.xbr = true := by assumption) (hPwr : uu.pwr = true := by assumption) (hPmu : uu.pmu = true := by assumption)
    (hMoved : uu.moved = true := by assumption) (hOut : uu.out = true := by assumption)
    (hFree : uu.free = true := by assumption) : Kept uu zz (State.startMends s ring stripe) := by
  unfold State.startMends
  repeat' first
    | with_reducible assumption
    | exact {}
    | intro _
    | (extract_lets +onlyGivenNames x; first | refine Kept.cut x ?_ ?_ <;> [subst x; (clear_value x; intro _)] | skip)
    | with_reducible apply Kept.updRge
    | with_reducible apply Kept.startGather
    | with_reducible apply Kept.gatherStep
    | with_reducible refine Kept.foldl ?_ _ ?_
    | split

theorem Kept.endWork {uu : Units} {zz s : State} (hk : Kept uu zz s) (hRge : uu.rge = true := by assumption) : Kept uu zz
    (State.endWork s) := by
  unfold State.endWork
  repeat' first
    | with_reducible assumption
    | exact {}
    | intro _
    | with_reducible apply Kept.updRge
    | split

theorem Kept.membersChanged {uu : Units} {zz s : State} (ring : Nat) (displacedChanged : Bool) (hk : Kept uu zz s)
    (hHce : uu.hce = true := by assumption) (hRfu : uu.rfu = true := by assumption) (hRge : uu.rge = true := by assumption)
    (hRfx : uu.rfx = true := by assumption) (hKvt : uu.kvt = true := by assumption) (hBay : uu.bay = true := by assumption)
    (hXbr : uu.xbr = true := by assumption) (hPwr : uu.pwr = true := by assumption) (hPmu : uu.pmu = true := by assumption)
    (hMoved : uu.moved = true := by assumption) (hOut : uu.out = true := by assumption)
    (hFree : uu.free = true := by assumption) : Kept uu zz (State.membersChanged s ring displacedChanged) := by
  unfold State.membersChanged
  repeat' first
    | with_reducible assumption
    | exact {}
    | intro _
    | (extract_lets +onlyGivenNames x; first | refine Kept.cut x ?_ ?_ <;> [subst x; (clear_value x; intro _)] | skip)
    | with_reducible apply Kept.updRing
    | with_reducible apply Kept.writeSuperblocks
    | with_reducible apply Kept.sendServiceAll
    | with_reducible apply Kept.recomputeCeil
    | with_reducible apply Kept.endWork
    | with_reducible apply Kept.reask
    | split

theorem Kept.dropCmd {uu : Units} {zz s : State} (id : Nat) (hk : Kept uu zz s) (hBay : uu.bay = true := by assumption)
    : Kept uu zz (State.dropCmd s id) := by
  unfold State.dropCmd
  repeat' first
    | with_reducible assumption
    | exact {}
    | intro _
    | extract_lets +onlyGivenNames _
    | split
    | (with_reducible apply Kept.update) <;> [assumption; exact {}]

theorem Kept.stripeCmdDone {uu : Units} {zz s : State} (c : MemberCmd) (ring : Nat) (stripe : Nat) (missed : Bool) (hk
    : Kept uu zz s) (hRge : uu.rge = true := by assumption) : Kept uu zz (State.stripeCmdDone s c ring stripe missed) := by
  unfold State.stripeCmdDone
  repeat' first
    | with_reducible assumption
    | exact {}
    | intro _
    | (extract_lets +onlyGivenNames x; refine Kept.cut x ?_ ?_ <;> [subst x; (clear_value x; intro _)])
    | with_reducible apply Kept.updRge
    | with_reducible apply Kept.updRing
    | with_reducible apply Kept.setSlot
    | split

theorem Kept.repairGone {uu : Units} {zz s : State} (c : MemberCmd) (ring : Nat) (stripe : Nat) (seq : Nat) (hk
    : Kept uu zz s) (hRge : uu.rge = true := by assumption) (hRfx : uu.rfx = true := by assumption)
    (hXbr : uu.xbr = true := by assumption) (hPmu : uu.pmu = true := by assumption)
    (hMoved : uu.moved = true := by assumption) (hOut : uu.out = true := by assumption) : Kept uu zz
    (State.repairGone s c ring stripe seq) := by
  unfold State.repairGone
  repeat' first
    | with_reducible assumption
    | exact {}
    | intro _
    | (extract_lets +onlyGivenNames x; first | refine Kept.cut x ?_ ?_ <;> [subst x; (clear_value x; intro _)] | skip)
    | with_reducible apply Kept.updRge
    | with_reducible apply Kept.updRing
    | with_reducible apply Kept.setSlot
    | with_reducible apply Kept.endTask

theorem Kept.checkpointGone {uu : Units} {zz s : State} (ring : Nat) (hk : Kept uu zz s)
    (hRge : uu.rge = true := by assumption) : Kept uu zz (State.checkpointGone s ring) := by
  unfold State.checkpointGone
  repeat' first
    | with_reducible assumption
    | exact {}
    | intro _
    | with_reducible apply Kept.updRing

theorem Kept.releaseCmd {uu : Units} {zz s : State} (c : MemberCmd) (hk : Kept uu zz s)
    (hRge : uu.rge = true := by assumption) (hRfx : uu.rfx = true := by assumption) (hBay : uu.bay = true := by assumption)
    (hXbr : uu.xbr = true := by assumption) (hPmu : uu.pmu = true := by assumption)
    (hMoved : uu.moved = true := by assumption) (hOut : uu.out = true := by assumption) : Kept uu zz
    (State.releaseCmd s c) := by
  unfold State.releaseCmd
  repeat' first
    | with_reducible assumption
    | exact {}
    | intro _
    | (extract_lets +onlyGivenNames x; refine Kept.cut x ?_ ?_ <;> [subst x; (clear_value x; intro _)])
    | with_reducible apply Kept.dropCmd
    | with_reducible apply Kept.stripeCmdDone
    | with_reducible apply Kept.repairGone
    | with_reducible apply Kept.checkpointGone
    | with_reducible apply Kept.endHunt
    | split

theorem Kept.releaseSlot {uu : Units} {zz s : State} (ring : Nat) (j : Nat) (hk : Kept uu zz s)
    (hRge : uu.rge = true := by assumption) (hRfx : uu.rfx = true := by assumption) (hBay : uu.bay = true := by assumption)
    (hXbr : uu.xbr = true := by assumption) (hPmu : uu.pmu = true := by assumption)
    (hMoved : uu.moved = true := by assumption) (hOut : uu.out = true := by assumption) : Kept uu zz
    (State.releaseSlot s ring j) := by
  unfold State.releaseSlot
  repeat' first
    | with_reducible assumption
    | exact {}
    | intro _
    | extract_lets +onlyGivenNames _
    | with_reducible apply Kept.releaseCmd
    | with_reducible refine Kept.foldl ?_ _ ?_

theorem Kept.memberFailed {uu : Units} {zz s : State} (ring : Nat) (j : Nat) (hk : Kept uu zz s)
    (hHce : uu.hce = true := by assumption) (hRfu : uu.rfu = true := by assumption) (hRge : uu.rge = true := by assumption)
    (hRfx : uu.rfx = true := by assumption) (hKvt : uu.kvt = true := by assumption) (hBay : uu.bay = true := by assumption)
    (hXbr : uu.xbr = true := by assumption) (hPwr : uu.pwr = true := by assumption) (hPmu : uu.pmu = true := by assumption)
    (hMoved : uu.moved = true := by assumption) (hOut : uu.out = true := by assumption)
    (hFree : uu.free = true := by assumption) : Kept uu zz (State.memberFailed s ring j) := by
  unfold State.memberFailed
  repeat' first
    | with_reducible assumption
    | exact {}
    | intro _
    | (extract_lets +onlyGivenNames x; first | refine Kept.cut x ?_ ?_ <;> [subst x; (clear_value x; intro _)] | skip)
    | with_reducible apply Kept.releaseSlot
    | with_reducible apply Kept.setSlot
    | with_reducible apply Kept.updRing
    | with_reducible apply Kept.membersChanged
    | split

theorem Kept.memberLeaves {uu : Units} {zz s : State} (ring : Nat) (j : Nat) (hk : Kept uu zz s)
    (hHce : uu.hce = true := by assumption) (hRfu : uu.rfu = true := by assumption) (hRge : uu.rge = true := by assumption)
    (hRfx : uu.rfx = true := by assumption) (hKvt : uu.kvt = true := by assumption) (hBay : uu.bay = true := by assumption)
    (hXbr : uu.xbr = true := by assumption) (hPwr : uu.pwr = true := by assumption) (hPmu : uu.pmu = true := by assumption)
    (hMoved : uu.moved = true := by assumption) (hOut : uu.out = true := by assumption)
    (hFree : uu.free = true := by assumption) : Kept uu zz (State.memberLeaves s ring j) := by
  unfold State.memberLeaves
  repeat' first
    | with_reducible assumption
    | exact {}
    | intro _
    | extract_lets +onlyGivenNames _
    | with_reducible apply Kept.updRing
    | with_reducible apply Kept.setSlot
    | with_reducible apply Kept.membersChanged
    | with_reducible apply Kept.memberFailed
    | split

theorem Kept.driveLost {uu : Units} {zz s : State} (bay : Nat) (hk : Kept uu zz s) (hHce : uu.hce = true := by assumption)
    (hRfu : uu.rfu = true := by assumption) (hRge : uu.rge = true := by assumption) (hRfx : uu.rfx = true := by assumption)
    (hKvt : uu.kvt = true := by assumption) (hBay : uu.bay = true := by assumption) (hXbr : uu.xbr = true := by assumption)
    (hPwr : uu.pwr = true := by assumption) (hPmu : uu.pmu = true := by assumption)
    (hMoved : uu.moved = true := by assumption) (hOut : uu.out = true := by assumption)
    (hFree : uu.free = true := by assumption) : Kept uu zz (State.driveLost s bay) := by
  unfold State.driveLost
  repeat' first
    | with_reducible assumption
    | exact {}
    | intro _
    | extract_lets +onlyGivenNames _
    | with_reducible apply Kept.memberLeaves
    | with_reducible apply Kept.updRing
    | with_reducible apply Kept.setSlot
    | with_reducible apply Kept.reask
    | with_reducible refine Kept.foldl ?_ _ ?_
    | split

theorem Kept.driveFailed {uu : Units} {zz s : State} (bay : Nat) (hk : Kept uu zz s) (hHce : uu.hce = true := by assumption)
    (hRfu : uu.rfu = true := by assumption) (hRge : uu.rge = true := by assumption) (hRfx : uu.rfx = true := by assumption)
    (hKvt : uu.kvt = true := by assumption) (hBay : uu.bay = true := by assumption) (hXbr : uu.xbr = true := by assumption)
    (hPwr : uu.pwr = true := by assumption) (hPmu : uu.pmu = true := by assumption)
    (hMoved : uu.moved = true := by assumption) (hOut : uu.out = true := by assumption)
    (hFree : uu.free = true := by assumption) : Kept uu zz (State.driveFailed s bay) := by
  unfold State.driveFailed
  repeat' first
    | with_reducible assumption
    | exact {}
    | intro _
    | extract_lets +onlyGivenNames _
    | with_reducible apply Kept.memberFailed
    | with_reducible refine Kept.foldl ?_ _ ?_
    | split

theorem Kept.beginDpRun {uu : Units} {zz s : State} (port : Nat) (hk : Kept uu zz s) (hHce : uu.hce = true := by assumption)
    (hRfu : uu.rfu = true := by assumption) (hRge : uu.rge = true := by assumption) (hRfx : uu.rfx = true := by assumption)
    (hKvt : uu.kvt = true := by assumption) (hBay : uu.bay = true := by assumption) (hXbr : uu.xbr = true := by assumption)
    (hPwr : uu.pwr = true := by assumption) (hLcu : uu.lcu = true := by assumption) (hPmu : uu.pmu = true := by assumption)
    (hMoved : uu.moved = true := by assumption) (hOut : uu.out = true := by assumption)
    (hFree : uu.free = true := by assumption) : Kept uu zz (State.beginDpRun s port) := by
  unfold State.beginDpRun
  repeat' first
    | with_reducible assumption
    | exact {}
    | intro _
    | extract_lets +onlyGivenNames _
    | with_reducible apply Kept.updRing
    | with_reducible apply Kept.setSlot
    | with_reducible apply Kept.reask
    | with_reducible refine Kept.foldl ?_ _ ?_
    | split
    | (with_reducible apply Kept.update) <;> [assumption; exact {}]

theorem Kept.masterRing {uu : Units} {zz s : State} (ring : Nat) (epoch : Nat) (hk : Kept uu zz s)
    (hHce : uu.hce = true := by assumption) (hRfu : uu.rfu = true := by assumption) (hRge : uu.rge = true := by assumption)
    (hRfx : uu.rfx = true := by assumption) (hKvt : uu.kvt = true := by assumption) (hBay : uu.bay = true := by assumption)
    (hXbr : uu.xbr = true := by assumption) (hPwr : uu.pwr = true := by assumption) (hPmu : uu.pmu = true := by assumption)
    (hMoved : uu.moved = true := by assumption) (hOut : uu.out = true := by assumption)
    (hFree : uu.free = true := by assumption) : Kept uu zz (State.masterRing s ring epoch) := by
  unfold State.masterRing
  repeat' first
    | with_reducible assumption
    | exact {}
    | intro _
    | extract_lets +onlyGivenNames _
    | with_reducible apply Kept.becomeMaster
    | with_reducible apply Kept.reask

theorem Kept.endDpRun {uu : Units} {zz s : State} (port : Nat) (hk : Kept uu zz s) (hHce : uu.hce = true := by assumption)
    (hRfu : uu.rfu = true := by assumption) (hRge : uu.rge = true := by assumption) (hRfx : uu.rfx = true := by assumption)
    (hKvt : uu.kvt = true := by assumption) (hBay : uu.bay = true := by assumption) (hXbr : uu.xbr = true := by assumption)
    (hPwr : uu.pwr = true := by assumption) (hLcu : uu.lcu = true := by assumption) (hPmu : uu.pmu = true := by assumption)
    (hMoved : uu.moved = true := by assumption) (hOut : uu.out = true := by assumption)
    (hFree : uu.free = true := by assumption) : Kept uu zz (State.endDpRun s port) := by
  unfold State.endDpRun
  repeat' first
    | with_reducible assumption
    | exact {}
    | intro _
    | (extract_lets +onlyGivenNames x; first | refine Kept.cut x ?_ ?_ <;> [subst x; (clear_value x; intro _)] | skip)
    | with_reducible apply Kept.updRing
    | with_reducible apply Kept.setSlot
    | with_reducible apply Kept.reask
    | with_reducible apply Kept.advanceAll
    | with_reducible refine Kept.foldl ?_ _ ?_
    | split
    | (with_reducible apply Kept.update) <;> [assumption; exact {}]

end Sys2Proof.Machine
end

