-- ==== Sys2Proof/Laws/KeptFormats.lean ====
section
/-! SUPPORT. `Kept` for the operations of Machine/Formats.lean. -/

set_option Elab.async false

namespace Sys2Proof.Machine

theorem Kept.putProgress {uu : Units} {zz s : State} (idx : Nat) (f : Progress → Progress) (hk : Kept uu zz s)
    (hHce : uu.hce = true := by assumption) (hRfx : uu.rfx = true := by assumption) (hXbr : uu.xbr = true := by assumption)
    (hPmu : uu.pmu = true := by assumption) (hMoved : uu.moved = true := by assumption)
    (hOut : uu.out = true := by assumption) : Kept uu zz (State.putProgress s idx f) := by
  unfold State.putProgress
  repeat' first
    | with_reducible assumption
    | exact {}
    | intro _
    | (extract_lets +onlyGivenNames x; first | refine Kept.cut x ?_ ?_ <;> [subst x; (clear_value x; intro _)] | skip)
    | with_reducible apply Kept.updHce
    | with_reducible apply Kept.sendLine
    | split

theorem Kept.freeProgress {uu : Units} {zz s : State} (idx : Nat) (hk : Kept uu zz s)
    (hHce : uu.hce = true := by assumption) (hRfx : uu.rfx = true := by assumption) (hXbr : uu.xbr = true := by assumption)
    (hPmu : uu.pmu = true := by assumption) (hMoved : uu.moved = true := by assumption)
    (hOut : uu.out = true := by assumption) : Kept uu zz (State.freeProgress s idx) := by
  unfold State.freeProgress
  repeat' first
    | with_reducible assumption
    | exact {}
    | intro _
    | extract_lets +onlyGivenNames _
    | with_reducible apply Kept.updHce
    | with_reducible apply Kept.sendLine

theorem Kept.startOp {uu : Units} {zz s : State} (idx : Nat) (op : Nat) (v : Nat) (n : Nat) (lbaf : Nat) (rest : List Nat)
    (cmd : Option (Nat × Nat)) (hk : Kept uu zz s) (hHce : uu.hce = true := by assumption)
    (hRfx : uu.rfx = true := by assumption) (hXbr : uu.xbr = true := by assumption) (hPmu : uu.pmu = true := by assumption)
    (hMoved : uu.moved = true := by assumption) (hOut : uu.out = true := by assumption) : Kept uu zz
    (State.startOp s idx op v n lbaf rest cmd) := by
  unfold State.startOp
  repeat' first
    | with_reducible assumption
    | exact {}
    | intro _
    | extract_lets +onlyGivenNames _
    | with_reducible apply Kept.updHce
    | with_reducible apply Kept.sendLine

theorem Kept.raiseEvent {uu : Units} {zz s : State} (c : Nat) (bit : Nat) (code : Nat) (hk : Kept uu zz s)
    (hHce : uu.hce = true := by assumption) (hRfx : uu.rfx = true := by assumption) (hXbr : uu.xbr = true := by assumption)
    (hPmu : uu.pmu = true := by assumption) (hMoved : uu.moved = true := by assumption)
    (hOut : uu.out = true := by assumption) : Kept uu zz (State.raiseEvent s c bit code) := by
  unfold State.raiseEvent
  repeat' first
    | with_reducible assumption
    | exact {}
    | intro _
    | extract_lets +onlyGivenNames _
    | with_reducible apply Kept.updCtrl
    | with_reducible apply Kept.adminDone
    | split

theorem Kept.notice {uu : Units} {zz s : State} (v : Nat) (n : Nat) (ana : Bool) (hk : Kept uu zz s)
    (hHce : uu.hce = true := by assumption) (hRfx : uu.rfx = true := by assumption) (hXbr : uu.xbr = true := by assumption)
    (hPmu : uu.pmu = true := by assumption) (hMoved : uu.moved = true := by assumption)
    (hOut : uu.out = true := by assumption) : Kept uu zz (State.notice s v n ana) := by
  unfold State.notice
  repeat' first
    | with_reducible assumption
    | exact {}
    | intro _
    | (extract_lets +onlyGivenNames x; first | refine Kept.cut x ?_ ?_ <;> [subst x; (clear_value x; intro _)] | skip)
    | with_reducible apply Kept.updCtrl
    | with_reducible apply Kept.raiseEvent
    | with_reducible refine Kept.foldl ?_ _ ?_
    | split

theorem Kept.discardNs {uu : Units} {zz s : State} (v : Nat) (n : Nat) (hk : Kept uu zz s)
    (hHce : uu.hce = true := by assumption) (hRfx : uu.rfx = true := by assumption) (hXbr : uu.xbr = true := by assumption)
    (hPmu : uu.pmu = true := by assumption) (hMoved : uu.moved = true := by assumption)
    (hOut : uu.out = true := by assumption) : Kept uu zz (State.discardNs s v n) := by
  unfold State.discardNs
  repeat' first
    | with_reducible assumption
    | exact {}
    | intro _
    | (extract_lets +onlyGivenNames x; first | refine Kept.cut x ?_ ?_ <;> [subst x; (clear_value x; intro _)] | skip)
    | with_reducible apply Kept.updHce
    | with_reducible apply Kept.cacheDrop
    | with_reducible apply Kept.mirSend
    | with_reducible apply Kept.mirSend2
    | split

theorem Kept.clearNsLost {uu : Units} {zz s : State} (v : Nat) (n : Nat) (hk : Kept uu zz s)
    (hRge : uu.rge = true := by assumption) (hRfx : uu.rfx = true := by assumption) (hXbr : uu.xbr = true := by assumption)
    (hPmu : uu.pmu = true := by assumption) (hMoved : uu.moved = true := by assumption)
    (hOut : uu.out = true := by assumption) : Kept uu zz (State.clearNsLost s v n) := by
  unfold State.clearNsLost
  repeat' first
    | with_reducible assumption
    | exact {}
    | intro _
    | extract_lets +onlyGivenNames _
    | with_reducible apply Kept.dropLost
    | with_reducible refine Kept.foldl ?_ _ ?_

theorem Kept.putZeroes {uu : Units} {zz s : State} (tag : Nat) (v : Nat) (n : Nat) (first : Nat) (cnt : Nat) (hk
    : Kept uu zz s) (hHce : uu.hce = true := by assumption) (hRfx : uu.rfx = true := by assumption)
    (hXbr : uu.xbr = true := by assumption) (hPmu : uu.pmu = true := by assumption)
    (hMoved : uu.moved = true := by assumption) (hOut : uu.out = true := by assumption) : Kept uu zz
    (State.putZeroes s tag v n first cnt) := by
  unfold State.putZeroes
  repeat' first
    | with_reducible assumption
    | exact {}
    | intro _
    | (extract_lets +onlyGivenNames x; first | refine Kept.cut x ?_ ?_ <;> [subst x; (clear_value x; intro _)] | skip)
    | with_reducible apply Kept.updHce
    | with_reducible apply Kept.mirSendAll
    | with_reducible apply Kept.mirSend2
    | with_reducible refine Kept.foldl ?_ _ ?_
    | split

theorem Kept.runPhase {uu : Units} {zz s : State} (idx : Nat) (hk : Kept uu zz s) (hHce : uu.hce = true := by assumption)
    (hRfx : uu.rfx = true := by assumption) (hXbr : uu.xbr = true := by assumption) (hPmu : uu.pmu = true := by assumption)
    (hMoved : uu.moved = true := by assumption) (hOut : uu.out = true := by assumption) : Kept uu zz
    (State.runPhase s idx) := by
  unfold State.runPhase
  repeat' first
    | with_reducible assumption
    | exact {}
    | intro _
    | with_reducible apply Kept.putZeroes
    | split

theorem Kept.enterNs {uu : Units} {zz s : State} (idx : Nat) (hk : Kept uu zz s) (hHce : uu.hce = true := by assumption)
    (hRfx : uu.rfx = true := by assumption) (hXbr : uu.xbr = true := by assumption) (hPmu : uu.pmu = true := by assumption)
    (hMoved : uu.moved = true := by assumption) (hOut : uu.out = true := by assumption) : Kept uu zz
    (State.enterNs s idx) := by
  unfold State.enterNs
  repeat' first
    | with_reducible assumption
    | exact {}
    | intro _
    | (extract_lets +onlyGivenNames x; first | refine Kept.cut x ?_ ?_ <;> [subst x; (clear_value x; intro _)] | skip)
    | with_reducible apply Kept.putProgress
    | with_reducible apply Kept.runPhase
    | split

theorem Kept.replaceKey {uu : Units} {zz s : State} (slot : Nat) (gen : Nat) (hk : Kept uu zz s)
    (hRfx : uu.rfx = true := by assumption) (hKvt : uu.kvt = true := by assumption) (hXbr : uu.xbr = true := by assumption)
    (hPmu : uu.pmu = true := by assumption) (hMoved : uu.moved = true := by assumption)
    (hOut : uu.out = true := by assumption) (hFree : uu.free = true := by assumption) : Kept uu zz
    (State.replaceKey s slot gen) := by
  unfold State.replaceKey
  repeat' first
    | with_reducible assumption
    | exact {}
    | intro _
    | extract_lets +onlyGivenNames _
    | with_reducible apply Kept.putKey
    | with_reducible apply Kept.tookFree
    | with_reducible apply Kept.updKvt

theorem Kept.endOp {uu : Units} {zz s : State} (p : Progress) (hk : Kept uu zz s) (hHce : uu.hce = true := by assumption)
    (hRfx : uu.rfx = true := by assumption) (hVsm : uu.vsm = true := by assumption) (hXbr : uu.xbr = true := by assumption)
    (hPmu : uu.pmu = true := by assumption) (hMoved : uu.moved = true := by assumption)
    (hOut : uu.out = true := by assumption) : Kept uu zz (State.endOp s p) := by
  unfold State.endOp
  repeat' first
    | with_reducible assumption
    | exact {}
    | intro _
    | (extract_lets +onlyGivenNames x; refine Kept.cut x ?_ ?_ <;> [subst x; (clear_value x; intro _)])
    | with_reducible apply Kept.putProgress
    | with_reducible apply Kept.updHce
    | with_reducible apply Kept.updNs
    | with_reducible apply Kept.adminDone
    | with_reducible apply Kept.notice
    | with_reducible apply Kept.freeProgress
    | split

theorem Kept.resumeOp {uu : Units} {zz s : State} (p : Progress) (hk : Kept uu zz s) (hHce : uu.hce = true := by assumption)
    (hRfx : uu.rfx = true := by assumption) (hXbr : uu.xbr = true := by assumption) (hPmu : uu.pmu = true := by assumption)
    (hMoved : uu.moved = true := by assumption) (hOut : uu.out = true := by assumption) : Kept uu zz
    (State.resumeOp s p) := by
  unfold State.resumeOp
  repeat' first
    | with_reducible assumption
    | exact {}
    | intro _
    | extract_lets +onlyGivenNames _
    | with_reducible apply Kept.freeProgress
    | with_reducible apply Kept.putProgress
    | with_reducible apply Kept.runPhase
    | split

theorem Kept.resumeOps {uu : Units} {zz s : State} (rings : List Nat) (hk : Kept uu zz s)
    (hHce : uu.hce = true := by assumption) (hSnt : uu.snt = true := by assumption) (hRfx : uu.rfx = true := by assumption)
    (hXbr : uu.xbr = true := by assumption) (hPmu : uu.pmu = true := by assumption)
    (hMoved : uu.moved = true := by assumption) (hOut : uu.out = true := by assumption) : Kept uu zz
    (State.resumeOps s rings) := by
  unfold State.resumeOps
  repeat' first
    | with_reducible assumption
    | exact {}
    | intro _
    | (extract_lets +onlyGivenNames x; first | refine Kept.cut x ?_ ?_ <;> [subst x; (clear_value x; intro _)] | skip)
    | with_reducible apply Kept.updHce
    | with_reducible apply Kept.resumeOp
    | with_reducible refine Kept.foldl ?_ _ ?_
    | split
    | (with_reducible apply Kept.update) <;> [assumption; exact {}]

theorem Kept.leaveOps {uu : Units} {zz s : State} (ring : Nat) (hk : Kept uu zz s) (hHce : uu.hce = true := by assumption)
    : Kept uu zz (State.leaveOps s ring) := by
  unfold State.leaveOps
  repeat' first
    | with_reducible assumption
    | exact {}
    | intro _
    | with_reducible apply Kept.updHce

theorem Kept.peerProgress {uu : Units} {zz s : State} (idx : Nat) (l : List Byte) (hk : Kept uu zz s)
    (hHce : uu.hce = true := by assumption) (hRfx : uu.rfx = true := by assumption) (hVsm : uu.vsm = true := by assumption)
    (hXbr : uu.xbr = true := by assumption) (hPmu : uu.pmu = true := by assumption)
    (hMoved : uu.moved = true := by assumption) (hOut : uu.out = true := by assumption) : Kept uu zz
    (State.peerProgress s idx l) := by
  unfold State.peerProgress
  repeat' first
    | with_reducible assumption
    | exact {}
    | intro _
    | extract_lets +onlyGivenNames _
    | with_reducible apply Kept.updHce
    | with_reducible apply Kept.updNs
    | with_reducible apply Kept.notice
    | with_reducible apply Kept.discardNs
    | with_reducible refine Kept.foldl ?_ _ ?_
    | split

/-! ## The commands -/

theorem KeptBy.formatPrepareDone {uu : Units} {zz s : State} (rec : Nat) (hk : Kept uu zz s)
    (hHce : uu.hce = true := by assumption) (hRfx : uu.rfx = true := by assumption) (hXbr : uu.xbr = true := by assumption)
    (hPmu : uu.pmu = true := by assumption) (hMoved : uu.moved = true := by assumption)
    (hOut : uu.out = true := by assumption) :
    KeptBy uu zz (execFormatPrepareDone rec s) := by
  unfold execFormatPrepareDone
  repeat' first
    | with_reducible assumption
    | exact {}
    | intro _
    | extract_lets +onlyGivenNames _
    | with_reducible refine KeptBy.next ?_
    | with_reducible apply Kept.discardNs
    | with_reducible apply Kept.enterNs
    | with_reducible refine Kept.foldl ?_ _ ?_
    | split

theorem KeptBy.eraseRegionDone {uu : Units} {zz s : State} (rec : Nat) (hk : Kept uu zz s)
    (hHce : uu.hce = true := by assumption) (hRfx : uu.rfx = true := by assumption) (hXbr : uu.xbr = true := by assumption)
    (hPmu : uu.pmu = true := by assumption) (hMoved : uu.moved = true := by assumption)
    (hOut : uu.out = true := by assumption) :
    KeptBy uu zz (execEraseRegionDone rec s) := by
  unfold execEraseRegionDone
  repeat' first
    | with_reducible assumption
    | exact {}
    | intro _
    | (extract_lets +onlyGivenNames x; first | refine Kept.cut x ?_ ?_ <;> [subst x; (clear_value x; intro _)] | refine KeptBy.cut x ?_ ?_ <;> [subst x; (clear_value x; intro _)] | skip)
    | with_reducible refine KeptBy.next ?_
    | with_reducible apply Kept.putProgress
    | with_reducible apply Kept.runPhase
    | split

theorem KeptBy.keyReplacementDone {uu : Units} {zz s : State} (rec : Nat) (hk : Kept uu zz s)
    (hHce : uu.hce = true := by assumption) (hRfx : uu.rfx = true := by assumption) (hKvt : uu.kvt = true := by assumption)
    (hXbr : uu.xbr = true := by assumption) (hPmu : uu.pmu = true := by assumption)
    (hMoved : uu.moved = true := by assumption) (hOut : uu.out = true := by assumption)
    (hFree : uu.free = true := by assumption) :
    KeptBy uu zz (execKeyReplacementDone rec s) := by
  unfold execKeyReplacementDone
  repeat' first
    | with_reducible assumption
    | exact {}
    | intro _
    | (extract_lets +onlyGivenNames x; first | refine Kept.cut x ?_ ?_ <;> [subst x; (clear_value x; intro _)] | refine KeptBy.cut x ?_ ?_ <;> [subst x; (clear_value x; intro _)] | skip)
    | with_reducible refine KeptBy.next ?_
    | with_reducible apply Kept.replaceKey
    | with_reducible apply Kept.putProgress
    | with_reducible apply Kept.runPhase
    | split

theorem KeptBy.deallocDone {uu : Units} {zz s : State} (rec : Nat) (hk : Kept uu zz s)
    (hHce : uu.hce = true := by assumption) (hRge : uu.rge = true := by assumption) (hRfx : uu.rfx = true := by assumption)
    (hVsm : uu.vsm = true := by assumption) (hXbr : uu.xbr = true := by assumption) (hPmu : uu.pmu = true := by assumption)
    (hMoved : uu.moved = true := by assumption) (hOut : uu.out = true := by assumption) :
    KeptBy uu zz (execDeallocDone rec s) := by
  unfold execDeallocDone
  repeat' first
    | with_reducible assumption
    | exact {}
    | intro _
    | (extract_lets +onlyGivenNames x; first | refine Kept.cut x ?_ ?_ <;> [subst x; (clear_value x; intro _)] | refine KeptBy.cut x ?_ ?_ <;> [subst x; (clear_value x; intro _)] | skip)
    | with_reducible refine KeptBy.next ?_
    | with_reducible apply Kept.clearNsLost
    | with_reducible apply Kept.endOp
    | with_reducible apply Kept.putProgress
    | with_reducible apply Kept.enterNs
    | split

end Sys2Proof.Machine
end

