-- ==== Sys2Proof/Laws/KeptRelti.lean ====
section
/-! SUPPORT. `Kept` for the operations of Machine/Relti.lean. -/

set_option Elab.async false

namespace Sys2Proof.Machine

theorem Kept.portDown {uu : Units} {zz s : State} (p : Nat) (hk : Kept uu zz s) (hHce : uu.hce = true := by assumption)
    (hRge : uu.rge = true := by assumption) (hRfx : uu.rfx = true := by assumption) (hTk : uu.tk = true := by assumption)
    (hVsm : uu.vsm = true := by assumption) (hKvt : uu.kvt = true := by assumption) (hMbx : uu.mbx = true := by assumption)
    (hBay : uu.bay = true := by assumption) (hProps : uu.props = true := by assumption)
    (hXbr : uu.xbr = true := by assumption) (hSep : uu.sep = true := by assumption) (hPwr : uu.pwr = true := by assumption)
    (hLcu : uu.lcu = true := by assumption) (hPmu : uu.pmu = true := by assumption) (hTst : uu.tst = true := by assumption)
    (hMoved : uu.moved = true := by assumption) (hOut : uu.out = true := by assumption) : Kept uu zz
    (State.portDown s p) := by
  unfold State.portDown
  repeat' first
    | with_reducible assumption
    | exact {}
    | intro _
    | (extract_lets +onlyGivenNames x; first | refine Kept.cut x ?_ ?_ <;> [subst x; (clear_value x; intro _)] | skip)
    | with_reducible apply Kept.setFabPort
    | with_reducible apply Kept.flushEgress
    | with_reducible apply Kept.sendLsa
    | with_reducible apply Kept.mirrorDown
    | with_reducible apply Kept.declareDead
    | split

theorem Kept.portUp {uu : Units} {zz s : State} (p : Nat) (hk : Kept uu zz s) (hHce : uu.hce = true := by assumption)
    (hRfx : uu.rfx = true := by assumption) (hTk : uu.tk = true := by assumption) (hXbr : uu.xbr = true := by assumption)
    (hOut : uu.out = true := by assumption) : Kept uu zz (State.portUp s p) := by
  unfold State.portUp
  repeat' first
    | with_reducible assumption
    | exact {}
    | intro _
    | extract_lets +onlyGivenNames _
    | with_reducible apply Kept.setFabPort
    | with_reducible apply Kept.sendLsa
    | split

theorem Kept.beginClaim {uu : Units} {zz s : State} (cand : Nat) (hk : Kept uu zz s) (hRfx : uu.rfx = true := by assumption)
    (hXbr : uu.xbr = true := by assumption) (hOut : uu.out = true := by assumption)
    (hFree : uu.free = true := by assumption) : Kept uu zz (State.beginClaim s cand) := by
  unfold State.beginClaim
  repeat' first
    | with_reducible assumption
    | exact {}
    | intro _
    | (extract_lets +onlyGivenNames x; first | refine Kept.cut x ?_ ?_ <;> [subst x; (clear_value x; intro _)] | skip)
    | with_reducible apply Kept.tookFree
    | with_reducible apply Kept.updRfx
    | with_reducible apply Kept.flood

theorem Kept.claimFail {uu : Units} {zz s : State} (hk : Kept uu zz s) (hRfx : uu.rfx = true := by assumption)
    (hXbr : uu.xbr = true := by assumption) (hOut : uu.out = true := by assumption)
    (hFree : uu.free = true := by assumption) : Kept uu zz (State.claimFail s) := by
  unfold State.claimFail
  repeat' first
    | with_reducible assumption
    | exact {}
    | intro _
    | (extract_lets +onlyGivenNames x; first | refine Kept.cut x ?_ ?_ <;> [subst x; (clear_value x; intro _)] | skip)
    | with_reducible apply Kept.updRfx
    | with_reducible apply Kept.beginClaim
    | split
    | (with_reducible apply Kept.update) <;> [assumption; exact {}]
    | refine Kept.ofPair (by assumption) ?_
    | refine Kept.ofPair' (by assumption) ?_
    | (with_reducible apply Kept.update) <;> [refine Kept.ofPair (by assumption) ?_; exact {}]
    | fail_if_no_progress ((with_reducible apply Kept.update) <;> [skip; exact {}])
    | dsimp +zetaDelta only

theorem Kept.startClaim {uu : Units} {zz s : State} (hk : Kept uu zz s) (hRfx : uu.rfx = true := by assumption)
    (hXbr : uu.xbr = true := by assumption) (hOut : uu.out = true := by assumption)
    (hFree : uu.free = true := by assumption) : Kept uu zz (State.startClaim s) := by
  unfold State.startClaim
  repeat' first
    | with_reducible assumption
    | exact {}
    | intro _
    | (extract_lets +onlyGivenNames x; first | refine Kept.cut x ?_ ?_ <;> [subst x; (clear_value x; intro _)] | skip)
    | with_reducible apply Kept.beginClaim
    | with_reducible apply Kept.claimFail
    | split

theorem Kept.meetPeer {uu : Units} {zz s : State} (b : Barker) (pre : State → State) (hpre : ∀ t, Kept uu zz t → Kept uu zz
    (pre t)) (hk : Kept uu zz s) (hHce : uu.hce = true := by assumption) (hRge : uu.rge = true := by assumption)
    (hRfx : uu.rfx = true := by assumption) (hVsm : uu.vsm = true := by assumption) (hKvt : uu.kvt = true := by assumption)
    (hMbx : uu.mbx = true := by assumption) (hXbr : uu.xbr = true := by assumption) (hPmu : uu.pmu = true := by assumption)
    (hMoved : uu.moved = true := by assumption) (hOut : uu.out = true := by assumption) : Kept uu zz
    (State.meetPeer s b pre) := by
  unfold State.meetPeer
  repeat' first
    | with_reducible assumption
    | exact {}
    | intro _
    | (extract_lets +onlyGivenNames x; first | refine Kept.cut x ?_ ?_ <;> [subst x; (clear_value x; intro _)] | skip)
    | with_reducible apply Kept.updRfx
    | with_reducible apply Kept.updHce
    | with_reducible apply Kept.applyWt
    | with_reducible apply Kept.sendBids
    | with_reducible apply Kept.joinPeer
    | with_reducible apply hpre
    | fail_if_no_progress (dsimp only [State.updRfx])
    | split

theorem Kept.takeBarker {uu : Units} {zz s : State} (port : Nat) (b : Barker) (pre : State → State) (hpre
    : ∀ t, Kept uu zz t → Kept uu zz (pre t)) (hk : Kept uu zz s) (hHce : uu.hce = true := by assumption)
    (hRge : uu.rge = true := by assumption) (hRfx : uu.rfx = true := by assumption) (hTk : uu.tk = true := by assumption)
    (hVsm : uu.vsm = true := by assumption) (hKvt : uu.kvt = true := by assumption) (hMbx : uu.mbx = true := by assumption)
    (hBay : uu.bay = true := by assumption) (hProps : uu.props = true := by assumption)
    (hXbr : uu.xbr = true := by assumption) (hSep : uu.sep = true := by assumption) (hPwr : uu.pwr = true := by assumption)
    (hLcu : uu.lcu = true := by assumption) (hPmu : uu.pmu = true := by assumption) (hTst : uu.tst = true := by assumption)
    (hMoved : uu.moved = true := by assumption) (hOut : uu.out = true := by assumption) : Kept uu zz
    (State.takeBarker s port b pre) := by
  unfold State.takeBarker
  repeat' first
    | with_reducible assumption
    | exact {}
    | intro _
    | (extract_lets +onlyGivenNames x; first | refine Kept.cut x ?_ ?_ <;> [subst x; (clear_value x; intro _)] | skip)
    | with_reducible apply Kept.portDown
    | with_reducible apply Kept.setFabPort
    | with_reducible apply Kept.portUp
    | with_reducible apply Kept.sendLsa
    | with_reducible apply Kept.meetPeer
    | with_reducible apply hpre
    | split

theorem Kept.pcsDown {uu : Units} {zz s : State} (port : Nat) (hk : Kept uu zz s) (hHce : uu.hce = true := by assumption)
    (hRge : uu.rge = true := by assumption) (hRfx : uu.rfx = true := by assumption) (hTk : uu.tk = true := by assumption)
    (hVsm : uu.vsm = true := by assumption) (hKvt : uu.kvt = true := by assumption) (hMbx : uu.mbx = true := by assumption)
    (hBay : uu.bay = true := by assumption) (hProps : uu.props = true := by assumption)
    (hXbr : uu.xbr = true := by assumption) (hSep : uu.sep = true := by assumption) (hPwr : uu.pwr = true := by assumption)
    (hLcu : uu.lcu = true := by assumption) (hPmu : uu.pmu = true := by assumption) (hTst : uu.tst = true := by assumption)
    (hMac : uu.mac = true := by assumption) (hMoved : uu.moved = true := by assumption)
    (hOut : uu.out = true := by assumption) : Kept uu zz (State.pcsDown s port) := by
  unfold State.pcsDown
  repeat' first
    | with_reducible assumption
    | exact {}
    | intro _
    | extract_lets +onlyGivenNames _
    | with_reducible apply Kept.flushEgress
    | with_reducible apply Kept.portDown
    | with_reducible apply Kept.setFabPort
    | split
    | (with_reducible apply Kept.update) <;> [assumption; exact {}]

theorem Kept.ownerFrame {uu : Units} {zz s : State} (ring : Nat) (fid : Nat) (epoch : Nat) (hk : Kept uu zz s)
    (hXbr : uu.xbr = true := by assumption) (hOut : uu.out = true := by assumption) : Kept uu zz
    (State.ownerFrame s ring fid epoch) := by
  unfold State.ownerFrame
  repeat' first
    | with_reducible assumption
    | exact {}
    | intro _
    | with_reducible apply Kept.toPeer

theorem Kept.noteDup {uu : Units} {zz s : State} (uid : Nat) (nonce : Nat) (hk : Kept uu zz s)
    (hRfx : uu.rfx = true := by assumption) : Kept uu zz (State.noteDup s uid nonce) := by
  unfold State.noteDup
  repeat' first
    | with_reducible assumption
    | exact {}
    | intro _
    | with_reducible apply Kept.updRfx

theorem Kept.giveUpFid {uu : Units} {zz s : State} (hk : Kept uu zz s) (hRfx : uu.rfx = true := by assumption)
    (hXbr : uu.xbr = true := by assumption) (hMoved : uu.moved = true := by assumption)
    (hOut : uu.out = true := by assumption) (hFree : uu.free = true := by assumption) : Kept uu zz (State.giveUpFid s) := by
  unfold State.giveUpFid
  repeat' first
    | with_reducible assumption
    | exact {}
    | intro _
    | (extract_lets +onlyGivenNames x; first | refine Kept.cut x ?_ ?_ <;> [subst x; (clear_value x; intro _)] | skip)
    | with_reducible apply Kept.raiseFlag
    | with_reducible apply Kept.updRfx
    | with_reducible apply Kept.claimFail

theorem Kept.rtqryWrite {uu : Units} {zz s : State} (w : Word) (hk : Kept uu zz s) (hRfx : uu.rfx = true := by assumption)
    (hCfg : uu.cfg = true := by assumption) : Kept uu zz (State.rtqryWrite s w) := by
  unfold State.rtqryWrite
  repeat' first
    | with_reducible assumption
    | exact {}
    | intro _
    | extract_lets +onlyGivenNames _
    | with_reducible apply Kept.putReg
    | with_reducible apply Kept.updRfx

theorem Kept.sendStatus {uu : Units} {zz s : State} (hk : Kept uu zz s) (hXbr : uu.xbr = true := by assumption)
    (hOut : uu.out = true := by assumption) : Kept uu zz (State.sendStatus s) := by
  unfold State.sendStatus
  repeat' first
    | with_reducible assumption
    | exact {}
    | intro _
    | extract_lets +onlyGivenNames _
    | with_reducible apply Kept.emit
    | with_reducible apply Kept.xbarRelti
    | split

theorem Kept.f0Train {uu : Units} {zz s : State} (hk : Kept uu zz s) (hHce : uu.hce = true := by assumption)
    (hRfx : uu.rfx = true := by assumption) (hLcu : uu.lcu = true := by assumption) : Kept uu zz (State.f0Train s) := by
  unfold State.f0Train
  repeat' first
    | with_reducible assumption
    | exact {}
    | intro _
    | (extract_lets +onlyGivenNames x; first | refine Kept.cut x ?_ ?_ <;> [subst x; (clear_value x; intro _)] | skip)
    | with_reducible apply Kept.mirrorDown
    | with_reducible apply Kept.setFabPort
    | split
    | (with_reducible apply Kept.update) <;> [assumption; exact {}]

theorem Kept.updMbx {uu : Units} {zz s : State} (f : MbxSt → MbxSt) (hf : ∀ t : State, Like uu t { t with mbx := f t.mbx })
    (hk : Kept uu zz s) (hMbx : uu.mbx = true := by assumption) : Kept uu zz (State.updMbx s f) := hk.like (hf _)

theorem Kept.setOwner {uu : Units} {zz s : State} (m : Option Master) (hk : Kept uu zz s)
    (hKvt : uu.kvt = true := by assumption) (hMbx : uu.mbx = true := by assumption) (hSep : uu.sep = true := by assumption)
    (hMoved : uu.moved = true := by assumption) (hOut : uu.out = true := by assumption) : Kept uu zz
    (State.setOwner s m) := by
  unfold State.setOwner
  repeat' first
    | with_reducible assumption
    | exact {}
    | intro _
    | (extract_lets +onlyGivenNames x; refine Kept.cut x ?_ ?_ <;> [subst x; (clear_value x; intro _)])
    | with_reducible apply Kept.endSession
    | with_reducible apply Kept.updMbx
    | with_reducible apply Kept.sepEvent
    | fail_if_no_progress (dsimp only [State.updMbx])
    | split

theorem Kept.openWindow {uu : Units} {zz s : State} (hk : Kept uu zz s) (hMbx : uu.mbx = true := by assumption) : Kept uu zz
    (State.openWindow s) := by
  unfold State.openWindow
  repeat' first
    | with_reducible assumption
    | exact {}
    | intro _
    | with_reducible apply Kept.updMbx

/-! ## The commands -/

theorem KeptBy.barkerSend {uu : Units} {zz s : State} (hk : Kept uu zz s) (hRfx : uu.rfx = true := by assumption)
    (hXbr : uu.xbr = true := by assumption) (hOut : uu.out = true := by assumption)
    (hFree : uu.free = true := by assumption) :
    KeptBy uu zz (execBarkerSend s) := by
  unfold execBarkerSend
  repeat' first
    | with_reducible assumption
    | exact {}
    | intro _
    | (extract_lets +onlyGivenNames x; first | refine Kept.cut x ?_ ?_ <;> [subst x; (clear_value x; intro _)] | refine KeptBy.cut x ?_ ?_ <;> [subst x; (clear_value x; intro _)] | skip)
    | with_reducible refine KeptBy.next ?_
    | with_reducible apply Kept.setFabPort
    | with_reducible apply Kept.relti
    | with_reducible apply Kept.updRfx
    | with_reducible apply Kept.startClaim
    | fail_if_no_progress (dsimp only [State.updRfx])
    | with_reducible refine Kept.foldl ?_ _ ?_
    | split
    | (with_reducible apply Kept.update) <;> [assumption; exact {}]

theorem KeptBy.barkerTimeout {uu : Units} {zz s : State} (port : Nat) (hk : Kept uu zz s)
    (hHce : uu.hce = true := by assumption) (hRge : uu.rge = true := by assumption) (hRfx : uu.rfx = true := by assumption)
    (hTk : uu.tk = true := by assumption) (hVsm : uu.vsm = true := by assumption) (hKvt : uu.kvt = true := by assumption)
    (hMbx : uu.mbx = true := by assumption) (hBay : uu.bay = true := by assumption)
    (hProps : uu.props = true := by assumption) (hXbr : uu.xbr = true := by assumption)
    (hSep : uu.sep = true := by assumption) (hPwr : uu.pwr = true := by assumption) (hLcu : uu.lcu = true := by assumption)
    (hPmu : uu.pmu = true := by assumption) (hTst : uu.tst = true := by assumption)
    (hMoved : uu.moved = true := by assumption) (hOut : uu.out = true := by assumption) :
    KeptBy uu zz (execBarkerTimeout port s) := by
  unfold execBarkerTimeout
  repeat' first
    | with_reducible assumption
    | exact {}
    | intro _
    | extract_lets +onlyGivenNames _
    | with_reducible refine KeptBy.next ?_
    | with_reducible apply Kept.portDown
    | split

theorem KeptBy.pcsLinkDown {uu : Units} {zz s : State} (port : Nat) (hk : Kept uu zz s)
    (hHce : uu.hce = true := by assumption) (hRge : uu.rge = true := by assumption) (hRfx : uu.rfx = true := by assumption)
    (hTk : uu.tk = true := by assumption) (hVsm : uu.vsm = true := by assumption) (hKvt : uu.kvt = true := by assumption)
    (hMbx : uu.mbx = true := by assumption) (hBay : uu.bay = true := by assumption)
    (hProps : uu.props = true := by assumption) (hXbr : uu.xbr = true := by assumption)
    (hSep : uu.sep = true := by assumption) (hPwr : uu.pwr = true := by assumption) (hLcu : uu.lcu = true := by assumption)
    (hPmu : uu.pmu = true := by assumption) (hTst : uu.tst = true := by assumption) (hMac : uu.mac = true := by assumption)
    (hMoved : uu.moved = true := by assumption) (hOut : uu.out = true := by assumption) :
    KeptBy uu zz (execPcsLinkDown port s) := by
  unfold execPcsLinkDown
  repeat' first
    | with_reducible assumption
    | exact {}
    | intro _
    | extract_lets +onlyGivenNames _
    | with_reducible refine KeptBy.next ?_
    | with_reducible apply Kept.pcsDown

theorem KeptBy.pcsLinkUp {uu : Units} {zz s : State} (port : Nat) (hk : Kept uu zz s)
    (hHce : uu.hce = true := by assumption) (hRfx : uu.rfx = true := by assumption) (hTk : uu.tk = true := by assumption)
    (hPwr : uu.pwr = true := by assumption) (hMac : uu.mac = true := by assumption)
    (hOut : uu.out = true := by assumption) :
    KeptBy uu zz (execPcsLinkUp port s) := by
  unfold execPcsLinkUp
  repeat' first
    | with_reducible assumption
    | exact {}
    | intro _
    | (extract_lets +onlyGivenNames x; first | refine Kept.cut x ?_ ?_ <;> [subst x; (clear_value x; intro _)] | refine KeptBy.cut x ?_ ?_ <;> [subst x; (clear_value x; intro _)] | skip)
    | with_reducible refine KeptBy.next ?_
    | with_reducible apply Kept.moveIdent
    | with_reducible apply Kept.setFabPort
    | split
    | (with_reducible apply Kept.update) <;> [assumption; exact {}]

theorem KeptBy.peerwaitExpiry {uu : Units} {zz s : State} (hk : Kept uu zz s) (hHce : uu.hce = true := by assumption)
    (hRge : uu.rge = true := by assumption) (hRfx : uu.rfx = true := by assumption) (hMbx : uu.mbx = true := by assumption)
    (hProps : uu.props = true := by assumption) (hXbr : uu.xbr = true := by assumption)
    (hPmu : uu.pmu = true := by assumption) (hMoved : uu.moved = true := by assumption)
    (hOut : uu.out = true := by assumption) :
    KeptBy uu zz (execPeerwaitExpiry s) := by
  unfold execPeerwaitExpiry
  repeat' first
    | with_reducible assumption
    | exact {}
    | intro _
    | extract_lets +onlyGivenNames _
    | with_reducible refine KeptBy.next ?_
    | with_reducible apply Kept.peerAbsent
    | split

theorem KeptBy.claimInterval {uu : Units} {zz s : State} (hk : Kept uu zz s) (hRfx : uu.rfx = true := by assumption)
    (hXbr : uu.xbr = true := by assumption) (hOut : uu.out = true := by assumption) :
    KeptBy uu zz (execClaimInterval s) := by
  unfold execClaimInterval
  repeat' first
    | with_reducible assumption
    | exact {}
    | intro _
    | (extract_lets +onlyGivenNames x; first | refine Kept.cut x ?_ ?_ <;> [subst x; (clear_value x; intro _)] | refine KeptBy.cut x ?_ ?_ <;> [subst x; (clear_value x; intro _)] | skip)
    | with_reducible refine KeptBy.next ?_
    | with_reducible apply Kept.updRfx
    | with_reducible apply Kept.flood
    | fail_if_no_progress (dsimp only [State.updRfx])
    | split

theorem KeptBy.claimWaitExpiry {uu : Units} {zz s : State} (hk : Kept uu zz s) (hHce : uu.hce = true := by assumption)
    (hRge : uu.rge = true := by assumption) (hRfx : uu.rfx = true := by assumption) (hTk : uu.tk = true := by assumption)
    (hXbr : uu.xbr = true := by assumption) (hPmu : uu.pmu = true := by assumption)
    (hMoved : uu.moved = true := by assumption) (hOut : uu.out = true := by assumption) :
    KeptBy uu zz (execClaimWaitExpiry s) := by
  unfold execClaimWaitExpiry
  repeat' first
    | with_reducible assumption
    | exact {}
    | intro _
    | (extract_lets +onlyGivenNames x; first | refine Kept.cut x ?_ ?_ <;> [subst x; (clear_value x; intro _)] | refine KeptBy.cut x ?_ ?_ <;> [subst x; (clear_value x; intro _)] | skip)
    | with_reducible refine KeptBy.next ?_
    | with_reducible apply Kept.updRfx
    | with_reducible apply Kept.sendLine
    | with_reducible apply Kept.sendLsa
    | with_reducible apply Kept.sendBids
    | with_reducible apply Kept.updRing
    | with_reducible apply Kept.ownerFrame
    | fail_if_no_progress (dsimp only [State.updRfx])
    | with_reducible refine Kept.foldl ?_ _ ?_
    | split

theorem KeptBy.claimReceive {uu : Units} {zz s : State} (port : Nat) (uid : Nat) (fid : Nat) (nonce : Nat) (hk
    : Kept uu zz s) (hRfx : uu.rfx = true := by assumption) (hXbr : uu.xbr = true := by assumption)
    (hOut : uu.out = true := by assumption) (hFree : uu.free = true := by assumption) :
    KeptBy uu zz (execClaimReceive port uid fid nonce s) := by
  unfold execClaimReceive
  repeat' first
    | with_reducible assumption
    | exact {}
    | intro _
    | (extract_lets +onlyGivenNames x; first | refine Kept.cut x ?_ ?_ <;> [subst x; (clear_value x; intro _)] | refine KeptBy.cut x ?_ ?_ <;> [subst x; (clear_value x; intro _)] | skip)
    | with_reducible refine KeptBy.next ?_
    | with_reducible apply Kept.noteDup
    | with_reducible apply Kept.flood
    | with_reducible apply Kept.claimFail
    | split

theorem KeptBy.defendReceive {uu : Units} {zz s : State} (port : Nat) (uid : Nat) (fid : Nat) (claimUid : Nat) (nonce : Nat)
    (hk : Kept uu zz s) (hRfx : uu.rfx = true := by assumption) (hXbr : uu.xbr = true := by assumption)
    (hOut : uu.out = true := by assumption) (hFree : uu.free = true := by assumption) :
    KeptBy uu zz (execDefendReceive port uid fid claimUid nonce s) := by
  unfold execDefendReceive
  repeat' first
    | with_reducible assumption
    | exact {}
    | intro _
    | (extract_lets +onlyGivenNames x; first | refine Kept.cut x ?_ ?_ <;> [subst x; (clear_value x; intro _)] | refine KeptBy.cut x ?_ ?_ <;> [subst x; (clear_value x; intro _)] | skip)
    | with_reducible refine KeptBy.next ?_
    | with_reducible apply Kept.noteDup
    | with_reducible apply Kept.flood
    | with_reducible apply Kept.claimFail
    | split

theorem KeptBy.duplicateSuppressionExpiry {uu : Units} {zz s : State} (uid : Nat) (nonce : Nat) (hk : Kept uu zz s)
    (hRfx : uu.rfx = true := by assumption) :
    KeptBy uu zz (execDuplicateSuppressionExpiry uid nonce s) := by
  unfold execDuplicateSuppressionExpiry
  repeat' first
    | with_reducible assumption
    | exact {}
    | intro _
    | extract_lets +onlyGivenNames _
    | with_reducible refine KeptBy.next ?_
    | with_reducible apply Kept.updRfx

theorem KeptBy.fidRetry {uu : Units} {zz s : State} (hk : Kept uu zz s) (hRfx : uu.rfx = true := by assumption)
    (hXbr : uu.xbr = true := by assumption) (hOut : uu.out = true := by assumption)
    (hFree : uu.free = true := by assumption) :
    KeptBy uu zz (execFidRetry s) := by
  unfold execFidRetry
  repeat' first
    | with_reducible assumption
    | exact {}
    | intro _
    | extract_lets +onlyGivenNames _
    | with_reducible refine KeptBy.next ?_
    | with_reducible apply Kept.startClaim
    | split

theorem KeptBy.lsaReceive {uu : Units} {zz s : State} (port : Nat) (lsa : Lsa) (hk : Kept uu zz s)
    (hHce : uu.hce = true := by assumption) (hRfx : uu.rfx = true := by assumption) (hTk : uu.tk = true := by assumption)
    (hXbr : uu.xbr = true := by assumption) (hMoved : uu.moved = true := by assumption)
    (hOut : uu.out = true := by assumption) (hFree : uu.free = true := by assumption) :
    KeptBy uu zz (execLsaReceive port lsa s) := by
  unfold execLsaReceive
  repeat' first
    | with_reducible assumption
    | exact {}
    | intro _
    | (extract_lets +onlyGivenNames x; first | refine Kept.cut x ?_ ?_ <;> [subst x; (clear_value x; intro _)] | refine KeptBy.cut x ?_ ?_ <;> [subst x; (clear_value x; intro _)] | skip)
    | with_reducible refine KeptBy.next ?_
    | with_reducible apply Kept.giveUpFid
    | with_reducible apply Kept.updRfx
    | with_reducible apply Kept.flood
    | with_reducible apply Kept.reroute
    | with_reducible apply Kept.claimFail
    | fail_if_no_progress (dsimp only [State.updRfx])
    | split

theorem KeptBy.lsaRefresh {uu : Units} {zz s : State} (hk : Kept uu zz s) (hHce : uu.hce = true := by assumption)
    (hRfx : uu.rfx = true := by assumption) (hTk : uu.tk = true := by assumption) (hXbr : uu.xbr = true := by assumption)
    (hOut : uu.out = true := by assumption) :
    KeptBy uu zz (execLsaRefresh s) := by
  unfold execLsaRefresh
  repeat' first
    | with_reducible assumption
    | exact {}
    | intro _
    | extract_lets +onlyGivenNames _
    | with_reducible refine KeptBy.next ?_
    | with_reducible apply Kept.sendLsa
    | split

theorem KeptBy.lsdbEntryExpiry {uu : Units} {zz s : State} (fid : Nat) (hk : Kept uu zz s)
    (hHce : uu.hce = true := by assumption) (hRfx : uu.rfx = true := by assumption) (hTk : uu.tk = true := by assumption)
    (hXbr : uu.xbr = true := by assumption) (hOut : uu.out = true := by assumption) :
    KeptBy uu zz (execLsdbEntryExpiry fid s) := by
  unfold execLsdbEntryExpiry
  repeat' first
    | with_reducible assumption
    | exact {}
    | intro _
    | extract_lets +onlyGivenNames _
    | with_reducible refine KeptBy.next ?_
    | with_reducible apply Kept.updRfx
    | with_reducible apply Kept.reroute
    | fail_if_no_progress (dsimp only [State.updRfx])
    | split
    | (with_reducible apply Kept.update) <;> [assumption; exact {}]

theorem KeptBy.formerFidExpiry {uu : Units} {zz s : State} (hk : Kept uu zz s) (hRfx : uu.rfx = true := by assumption) :
    KeptBy uu zz (execFormerFidExpiry s) := by
  unfold execFormerFidExpiry
  repeat' first
    | with_reducible assumption
    | exact {}
    | intro _
    | extract_lets +onlyGivenNames _
    | with_reducible refine KeptBy.next ?_
    | with_reducible apply Kept.updRfx
    | fail_if_no_progress (dsimp only [State.updRfx])
    | split
    | (with_reducible apply Kept.update) <;> [assumption; exact {}]

theorem KeptBy.frameForward {uu : Units} {zz s : State} (port : Nat) (hdr : ReltiHdr) (hk : Kept uu zz s)
    (hXbr : uu.xbr = true := by assumption) (hPmu : uu.pmu = true := by assumption)
    (hMoved : uu.moved = true := by assumption) (hOut : uu.out = true := by assumption) :
    KeptBy uu zz (execFrameForward port hdr s) := by
  unfold execFrameForward
  repeat' first
    | with_reducible assumption
    | exact {}
    | intro _
    | (extract_lets +onlyGivenNames x; first | refine Kept.cut x ?_ ?_ <;> [subst x; (clear_value x; intro _)] | refine KeptBy.cut x ?_ ?_ <;> [subst x; (clear_value x; intro _)] | skip)
    | with_reducible refine KeptBy.next ?_
    | with_reducible apply Kept.bump
    | with_reducible apply Kept.emit
    | with_reducible apply Kept.xbar
    | with_reducible apply Kept.count
    | split

theorem KeptBy.badReltiFrame {uu : Units} {zz s : State} (port : Nat) (f : FrameIn) (hk : Kept uu zz s)
    (hMoved : uu.moved = true := by assumption) :
    KeptBy uu zz (execBadReltiFrame port f s) := by
  unfold execBadReltiFrame
  repeat' first
    | with_reducible assumption
    | exact {}
    | intro _
    | extract_lets +onlyGivenNames _
    | with_reducible refine KeptBy.next ?_
    | with_reducible apply Kept.badRelti

theorem KeptBy.rtqryWrite {uu : Units} {zz s : State} (w : Word) (hk : Kept uu zz s) (hRfx : uu.rfx = true := by assumption)
    (hCfg : uu.cfg = true := by assumption) :
    KeptBy uu zz (execRtqryWrite w s) := by
  unfold execRtqryWrite
  repeat' first
    | with_reducible assumption
    | exact {}
    | intro _
    | extract_lets +onlyGivenNames _
    | with_reducible refine KeptBy.next ?_
    | with_reducible apply Kept.rtqryWrite

theorem KeptBy.statusSend {uu : Units} {zz s : State} (hk : Kept uu zz s) (hXbr : uu.xbr = true := by assumption)
    (hOut : uu.out = true := by assumption) :
    KeptBy uu zz (execStatusSend s) := by
  unfold execStatusSend
  repeat' first
    | with_reducible assumption
    | exact {}
    | intro _
    | extract_lets +onlyGivenNames _
    | with_reducible refine KeptBy.next ?_
    | with_reducible apply Kept.sendStatus

theorem KeptBy.statusReceive {uu : Units} {zz s : State} (st : PeerStatus) (hk : Kept uu zz s)
    (hHce : uu.hce = true := by assumption) (hRge : uu.rge = true := by assumption) (hRfx : uu.rfx = true := by assumption)
    (hVsm : uu.vsm = true := by assumption) (hKvt : uu.kvt = true := by assumption) (hMbx : uu.mbx = true := by assumption)
    (hXbr : uu.xbr = true := by assumption) (hLcu : uu.lcu = true := by assumption) (hPmu : uu.pmu = true := by assumption)
    (hMoved : uu.moved = true := by assumption) (hOut : uu.out = true := by assumption) : KeptBy uu zz
    (execStatusReceive st s) := by
  have h1 := fun f : RfxSt → PeerSt => Kept.updRfx (s := s) (fun x => { x with peer := f x }) (fun _ => {}) hk
  have h2 : ∀ t : State, Kept uu zz t → Kept uu zz (if st.retrainNotice && !t.lcu.exempt && t.f0Ok then
      ({ t with lcu := { t.lcu with exempt := true, peerNotice := true } }).mirrorDown else t) := by
    intro t ht
    split
    · exact Kept.mirrorDown (ht.like {})
    · exact ht
  have h3 : ∀ t : State, Kept uu zz t →
      Kept uu zz (if st.retrainAck && t.lcu.retrains.any (fun r => r.port = 4 && r.phase = .notice) then t.f0Train else t) := by
    intro t ht
    split
    · exact Kept.f0Train ht
    · exact ht
  have h4 : ∀ t : State, Kept uu zz t → Kept uu zz (if st.retrainClear && t.lcu.peerNotice && t.mirrorUp then
      ({ t with lcu := { t.lcu with exempt := false, peerNotice := false } }).joinPeer else t) := by
    intro t ht
    split
    · exact Kept.joinPeer (ht.like {})
    · exact ht
  unfold execStatusReceive
  exact KeptBy.next (h4 _ (h3 _ (h2 _ (h1 _))))

theorem KeptBy.electReceive {uu : Units} {zz s : State} (ring : Nat) (prio : Nat) (fid : Nat) (epoch : Nat) (hk
    : Kept uu zz s) (hRge : uu.rge = true := by assumption) (hRfx : uu.rfx = true := by assumption)
    (hXbr : uu.xbr = true := by assumption) (hPmu : uu.pmu = true := by assumption)
    (hMoved : uu.moved = true := by assumption) (hOut : uu.out = true := by assumption) :
    KeptBy uu zz (execElectReceive ring prio fid epoch s) := by
  unfold execElectReceive
  repeat' first
    | with_reducible assumption
    | exact {}
    | intro _
    | (extract_lets +onlyGivenNames x; first | refine Kept.cut x ?_ ?_ <;> [subst x; (clear_value x; intro _)] | refine KeptBy.cut x ?_ ?_ <;> [subst x; (clear_value x; intro _)] | skip)
    | with_reducible refine KeptBy.next ?_
    | with_reducible apply Kept.ownerFrame
    | with_reducible apply Kept.updRing
    | with_reducible apply Kept.decide
    | with_reducible apply Kept.sendBid
    | split

theorem KeptBy.electionTimeout {uu : Units} {zz s : State} (ring : Nat) (hk : Kept uu zz s)
    (hRge : uu.rge = true := by assumption) (hRfx : uu.rfx = true := by assumption) (hXbr : uu.xbr = true := by assumption)
    (hPmu : uu.pmu = true := by assumption) (hMoved : uu.moved = true := by assumption)
    (hOut : uu.out = true := by assumption) :
    KeptBy uu zz (execElectionTimeout ring s) := by
  unfold execElectionTimeout
  repeat' first
    | with_reducible assumption
    | exact {}
    | intro _
    | extract_lets +onlyGivenNames _
    | with_reducible refine KeptBy.next ?_
    | with_reducible apply Kept.decide
    | split

theorem KeptBy.ownerSend {uu : Units} {zz s : State} (ring : Nat) (hk : Kept uu zz s)
    (hHce : uu.hce = true := by assumption) (hRfu : uu.rfu = true := by assumption) (hRge : uu.rge = true := by assumption)
    (hSnt : uu.snt = true := by assumption) (hRfx : uu.rfx = true := by assumption) (hKvt : uu.kvt = true := by assumption)
    (hBay : uu.bay = true := by assumption) (hXbr : uu.xbr = true := by assumption) (hPwr : uu.pwr = true := by assumption)
    (hPmu : uu.pmu = true := by assumption) (hMoved : uu.moved = true := by assumption)
    (hOut : uu.out = true := by assumption) (hFree : uu.free = true := by assumption) :
    KeptBy uu zz (execOwnerSend ring s) := by
  unfold execOwnerSend
  repeat' first
    | with_reducible assumption
    | exact {}
    | intro _
    | extract_lets +onlyGivenNames _
    | with_reducible refine KeptBy.next ?_
    | with_reducible apply Kept.ownerFrame
    | with_reducible apply Kept.masterRing
    | with_reducible apply Kept.resumeOps
    | split

theorem KeptBy.ownerReceive {uu : Units} {zz s : State} (ring : Nat) (fid : Nat) (epoch : Nat) (hk : Kept uu zz s)
    (hHce : uu.hce = true := by assumption) (hRfu : uu.rfu = true := by assumption) (hRge : uu.rge = true := by assumption)
    (hRfx : uu.rfx = true := by assumption) (hKvt : uu.kvt = true := by assumption) (hBay : uu.bay = true := by assumption)
    (hXbr : uu.xbr = true := by assumption) (hPwr : uu.pwr = true := by assumption) (hPmu : uu.pmu = true := by assumption)
    (hMoved : uu.moved = true := by assumption) (hOut : uu.out = true := by assumption)
    (hFree : uu.free = true := by assumption) :
    KeptBy uu zz (execOwnerReceive ring fid epoch s) := by
  unfold execOwnerReceive
  repeat' first
    | with_reducible assumption
    | exact {}
    | intro _
    | (extract_lets +onlyGivenNames x; first | refine Kept.cut x ?_ ?_ <;> [subst x; (clear_value x; intro _)] | refine KeptBy.cut x ?_ ?_ <;> [subst x; (clear_value x; intro _)] | skip)
    | with_reducible refine KeptBy.next ?_
    | with_reducible apply Kept.sendEpoch
    | with_reducible apply Kept.masterRing
    | with_reducible apply Kept.updRing
    | with_reducible apply Kept.ringRegion
    | with_reducible apply Kept.leaveOps
    | split

theorem KeptBy.ringHandover {uu : Units} {zz s : State} (m : Master) (hk : Kept uu zz s)
    (hRge : uu.rge = true := by assumption) (hMbx : uu.mbx = true := by assumption)
    (hMoved : uu.moved = true := by assumption) (hOut : uu.out = true := by assumption) :
    KeptBy uu zz (execRingHandover m s) := by
  unfold execRingHandover
  repeat' first
    | with_reducible assumption
    | exact {}
    | intro _
    | extract_lets +onlyGivenNames _
    | with_reducible refine KeptBy.next ?_
    | with_reducible apply Kept.runCmd
    | with_reducible apply Kept.checked
    | with_reducible apply Kept.updRing
    | with_reducible apply Kept.keepRunning

theorem KeptBy.handoverQuiesced {uu : Units} {zz s : State} (ring : Nat) (hk : Kept uu zz s)
    (hHce : uu.hce = true := by assumption) (hRge : uu.rge = true := by assumption) (hRfx : uu.rfx = true := by assumption)
    (hMbx : uu.mbx = true := by assumption) (hXbr : uu.xbr = true := by assumption) (hPmu : uu.pmu = true := by assumption)
    (hMoved : uu.moved = true := by assumption) (hOut : uu.out = true := by assumption) :
    KeptBy uu zz (execHandoverQuiesced ring s) := by
  unfold execHandoverQuiesced
  repeat' first
    | with_reducible assumption
    | exact {}
    | intro _
    | (extract_lets +onlyGivenNames x; first | refine Kept.cut x ?_ ?_ <;> [subst x; (clear_value x; intro _)] | refine KeptBy.cut x ?_ ?_ <;> [subst x; (clear_value x; intro _)] | skip)
    | with_reducible refine KeptBy.next ?_
    | with_reducible apply Kept.sendEpoch
    | with_reducible apply Kept.sendHeader
    | with_reducible apply Kept.ownerFrame
    | with_reducible apply Kept.updRing
    | with_reducible apply Kept.ringRegion
    | with_reducible apply Kept.finish
    | split

theorem KeptBy.handoverTimeout {uu : Units} {zz s : State} (ring : Nat) (hk : Kept uu zz s)
    (hRge : uu.rge = true := by assumption) (hMbx : uu.mbx = true := by assumption)
    (hMoved : uu.moved = true := by assumption) (hOut : uu.out = true := by assumption) :
    KeptBy uu zz (execHandoverTimeout ring s) := by
  unfold execHandoverTimeout
  repeat' first
    | with_reducible assumption
    | exact {}
    | intro _
    | extract_lets +onlyGivenNames _
    | with_reducible refine KeptBy.next ?_
    | with_reducible apply Kept.updRing
    | with_reducible apply Kept.finish
    | split

theorem KeptBy.ownerClaim {uu : Units} {zz s : State} (m : Master) (hk : Kept uu zz s)
    (hKvt : uu.kvt = true := by assumption) (hMbx : uu.mbx = true := by assumption) (hSep : uu.sep = true := by assumption)
    (hMoved : uu.moved = true := by assumption) (hOut : uu.out = true := by assumption) :
    KeptBy uu zz (execOwnerClaim m s) := by
  unfold execOwnerClaim
  repeat' first
    | with_reducible assumption
    | exact {}
    | intro _
    | (extract_lets +onlyGivenNames x; first | refine Kept.cut x ?_ ?_ <;> [subst x; (clear_value x; intro _)] | refine KeptBy.cut x ?_ ?_ <;> [subst x; (clear_value x; intro _)] | skip)
    | with_reducible refine KeptBy.next ?_
    | with_reducible apply Kept.runCmd
    | with_reducible apply Kept.updMbx
    | with_reducible apply Kept.keepRunning
    | with_reducible apply Kept.finish
    | with_reducible apply Kept.setOwner
    | fail_if_no_progress (dsimp only [State.updMbx])
    | split
    | (with_reducible apply Kept.update) <;> [assumption; exact {}]

theorem KeptBy.ownerRenew {uu : Units} {zz s : State} (m : Master) (hk : Kept uu zz s)
    (hMbx : uu.mbx = true := by assumption) (hMoved : uu.moved = true := by assumption)
    (hOut : uu.out = true := by assumption) :
    KeptBy uu zz (execOwnerRenew m s) := by
  unfold execOwnerRenew
  repeat' first
    | with_reducible assumption
    | exact {}
    | intro _
    | extract_lets +onlyGivenNames _
    | with_reducible refine KeptBy.next ?_
    | with_reducible apply Kept.runCmd
    | with_reducible apply Kept.checked
    | with_reducible apply Kept.finish

theorem KeptBy.handover {uu : Units} {zz s : State} (m : Master) (hk : Kept uu zz s) (hKvt : uu.kvt = true := by assumption)
    (hMbx : uu.mbx = true := by assumption) (hSep : uu.sep = true := by assumption)
    (hMoved : uu.moved = true := by assumption) (hOut : uu.out = true := by assumption) :
    KeptBy uu zz (execHandover m s) := by
  unfold execHandover
  repeat' first
    | with_reducible assumption
    | exact {}
    | intro _
    | extract_lets +onlyGivenNames _
    | with_reducible refine KeptBy.next ?_
    | with_reducible apply Kept.runCmd
    | with_reducible apply Kept.checked
    | with_reducible apply Kept.setOwner
    | with_reducible apply Kept.finish

theorem KeptBy.ownerRelease {uu : Units} {zz s : State} (m : Master) (hk : Kept uu zz s)
    (hKvt : uu.kvt = true := by assumption) (hMbx : uu.mbx = true := by assumption) (hSep : uu.sep = true := by assumption)
    (hMoved : uu.moved = true := by assumption) (hOut : uu.out = true := by assumption) :
    KeptBy uu zz (execOwnerRelease m s) := by
  unfold execOwnerRelease
  repeat' first
    | with_reducible assumption
    | exact {}
    | intro _
    | extract_lets +onlyGivenNames _
    | with_reducible refine KeptBy.next ?_
    | with_reducible apply Kept.runCmd
    | with_reducible apply Kept.checked
    | with_reducible apply Kept.setOwner
    | with_reducible apply Kept.openWindow
    | with_reducible apply Kept.finish

theorem KeptBy.electionWindowClose {uu : Units} {zz s : State} (hk : Kept uu zz s) (hKvt : uu.kvt = true := by assumption)
    (hMbx : uu.mbx = true := by assumption) (hSep : uu.sep = true := by assumption)
    (hMoved : uu.moved = true := by assumption) (hOut : uu.out = true := by assumption) :
    KeptBy uu zz (execElectionWindowClose s) := by
  unfold execElectionWindowClose
  repeat' first
    | with_reducible assumption
    | exact {}
    | intro _
    | (extract_lets +onlyGivenNames x; first | refine Kept.cut x ?_ ?_ <;> [subst x; (clear_value x; intro _)] | refine KeptBy.cut x ?_ ?_ <;> [subst x; (clear_value x; intro _)] | skip)
    | with_reducible refine KeptBy.next ?_
    | with_reducible apply Kept.updMbx
    | with_reducible apply Kept.setOwner
    | with_reducible apply Kept.finish
    | fail_if_no_progress (dsimp only [State.updMbx])
    | with_reducible refine Kept.foldl ?_ _ ?_
    | split

theorem KeptBy.leaseExpiry {uu : Units} {zz s : State} (hk : Kept uu zz s) (hKvt : uu.kvt = true := by assumption)
    (hMbx : uu.mbx = true := by assumption) (hSep : uu.sep = true := by assumption)
    (hMoved : uu.moved = true := by assumption) (hOut : uu.out = true := by assumption) :
    KeptBy uu zz (execLeaseExpiry s) := by
  unfold execLeaseExpiry
  repeat' first
    | with_reducible assumption
    | exact {}
    | intro _
    | extract_lets +onlyGivenNames _
    | with_reducible refine KeptBy.next ?_
    | with_reducible apply Kept.setOwner
    | with_reducible apply Kept.openWindow
    | split

theorem KeptBy.masterPresenceExpiry {uu : Units} {zz s : State} (m : Master) (hk : Kept uu zz s)
    (hMbx : uu.mbx = true := by assumption) :
    KeptBy uu zz (execMasterPresenceExpiry m s) := by
  unfold execMasterPresenceExpiry
  repeat' first
    | with_reducible assumption
    | exact {}
    | intro _
    | extract_lets +onlyGivenNames _
    | with_reducible refine KeptBy.next ?_
    | with_reducible apply Kept.setHeld
    | split

end Sys2Proof.Machine
end

