-- ==== Sys2Proof/Laws/KeptTransmit.lean ====
section
/-! SUPPORT. `Kept` for the operations of Machine/Transmit.lean. -/

set_option Elab.async false

namespace Sys2Proof.Machine

theorem Kept.macsecSent {uu : Units} {zz s : State} (p : Nat) (hk : Kept uu zz s) (hHce : uu.hce = true := by assumption)
    (hRge : uu.rge = true := by assumption) (hRfx : uu.rfx = true := by assumption) (hTk : uu.tk = true := by assumption)
    (hVsm : uu.vsm = true := by assumption) (hKvt : uu.kvt = true := by assumption) (hMbx : uu.mbx = true := by assumption)
    (hBay : uu.bay = true := by assumption) (hProps : uu.props = true := by assumption)
    (hXbr : uu.xbr = true := by assumption) (hSep : uu.sep = true := by assumption) (hPwr : uu.pwr = true := by assumption)
    (hLcu : uu.lcu = true := by assumption) (hPmu : uu.pmu = true := by assumption) (hTst : uu.tst = true := by assumption)
    (hMoved : uu.moved = true := by assumption) (hOut : uu.out = true := by assumption)
    (hFree : uu.free = true := by assumption) : Kept uu zz (State.macsecSent s p) := by
  unfold State.macsecSent
  repeat' first
    | with_reducible assumption
    | exact {}
    | intro _
    | extract_lets +onlyGivenNames _
    | with_reducible apply Kept.tookFree
    | with_reducible apply Kept.portDown
    | split
    | (with_reducible apply Kept.update) <;> [assumption; exact {}]
    | refine Kept.ofPair (by assumption) ?_
    | refine Kept.ofPair' (by assumption) ?_
    | (with_reducible apply Kept.update) <;> [refine Kept.ofPair (by assumption) ?_; exact {}]
    | fail_if_no_progress ((with_reducible apply Kept.update) <;> [skip; exact {}])

/-! ## The commands -/

theorem KeptBy.transmitSelect {uu : Units} {zz s : State} (port : Nat) (hk : Kept uu zz s)
    (hHce : uu.hce = true := by assumption) (hRge : uu.rge = true := by assumption) (hRfx : uu.rfx = true := by assumption)
    (hTk : uu.tk = true := by assumption) (hVsm : uu.vsm = true := by assumption) (hKvt : uu.kvt = true := by assumption)
    (hMbx : uu.mbx = true := by assumption) (hBay : uu.bay = true := by assumption)
    (hProps : uu.props = true := by assumption) (hXbr : uu.xbr = true := by assumption)
    (hSep : uu.sep = true := by assumption) (hPwr : uu.pwr = true := by assumption) (hLcu : uu.lcu = true := by assumption)
    (hPmu : uu.pmu = true := by assumption) (hTst : uu.tst = true := by assumption)
    (hMoved : uu.moved = true := by assumption) (hOut : uu.out = true := by assumption)
    (hFree : uu.free = true := by assumption) :
    KeptBy uu zz (execTransmitSelect port s) := by
  unfold execTransmitSelect
  repeat' first
    | with_reducible assumption
    | exact {}
    | intro _
    | (extract_lets +onlyGivenNames x; first | refine Kept.cut x ?_ ?_ <;> [subst x; (clear_value x; intro _)] | refine KeptBy.cut x ?_ ?_ <;> [subst x; (clear_value x; intro _)] | skip)
    | with_reducible refine KeptBy.next ?_
    | with_reducible apply Kept.chargeShaper
    | with_reducible apply Kept.setEgPort
    | with_reducible apply Kept.hostEvent
    | with_reducible apply Kept.laneWork
    | with_reducible apply Kept.tlsSent
    | with_reducible apply Kept.updConn
    | with_reducible apply Kept.macsecSent
    | with_reducible apply Kept.emit
    | with_reducible refine Kept.foldl ?_ _ ?_
    | split

end Sys2Proof.Machine
end

