-- ==== Sys2Proof/Laws/KeptRings.lean ====
section
/-! SUPPORT. `Kept` for the operations of Machine/Rings.lean. -/

set_option Elab.async false

namespace Sys2Proof.Machine

theorem Kept.makeNamespaces {uu : Units} {zz s : State} (r : Ring) (j : Nat) (bay : Nat) (hk : Kept uu zz s)
    (hBay : uu.bay = true := by assumption) (hPmu : uu.pmu = true := by assumption)
    (hMoved : uu.moved = true := by assumption) (hOut : uu.out = true := by assumption) : Kept uu zz
    (State.makeNamespaces s r j bay) := by
  unfold State.makeNamespaces
  repeat' first
    | with_reducible assumption
    | exact {}
    | intro _
    | (extract_lets +onlyGivenNames x; first | refine Kept.cut x ?_ ?_ <;> [subst x; (clear_value x; intro _)] | skip)
    | with_reducible apply Kept.issueMember
    | split

theorem Kept.removeRing {uu : Units} {zz s : State} (ring : Nat) (hk : Kept uu zz s) (hHce : uu.hce = true := by assumption)
    (hRge : uu.rge = true := by assumption) (hSnt : uu.snt = true := by assumption) : Kept uu zz
    (State.removeRing s ring) := by
  unfold State.removeRing
  repeat' first
    | with_reducible assumption
    | exact {}
    | intro _
    | (extract_lets +onlyGivenNames x; first | refine Kept.cut x ?_ ?_ <;> [subst x; (clear_value x; intro _)] | skip)
    | with_reducible apply Kept.updRge
    | with_reducible apply Kept.recomputeCeil
    | split
    | (with_reducible apply Kept.update) <;> [assumption; exact {}]

theorem Kept.writeCheckpoint {uu : Units} {zz s : State} (r : Ring) (j : Nat) (seq : Nat) (clean : Bool) (hk : Kept uu zz s)
    (hBay : uu.bay = true := by assumption) (hPmu : uu.pmu = true := by assumption)
    (hMoved : uu.moved = true := by assumption) (hOut : uu.out = true := by assumption) : Kept uu zz
    (State.writeCheckpoint s r j seq clean) := by
  unfold State.writeCheckpoint
  repeat' first
    | with_reducible assumption
    | exact {}
    | intro _
    | extract_lets +onlyGivenNames _
    | with_reducible apply Kept.toSlot

theorem Kept.cleanCheckpoint {uu : Units} {zz s : State} (r : Ring) (hk : Kept uu zz s)
    (hRge : uu.rge = true := by assumption) (hRfx : uu.rfx = true := by assumption) (hBay : uu.bay = true := by assumption)
    (hXbr : uu.xbr = true := by assumption) (hPmu : uu.pmu = true := by assumption)
    (hMoved : uu.moved = true := by assumption) (hOut : uu.out = true := by assumption) : Kept uu zz
    (State.cleanCheckpoint s r) := by
  unfold State.cleanCheckpoint
  repeat' first
    | with_reducible assumption
    | exact {}
    | intro _
    | (extract_lets +onlyGivenNames x; first | refine Kept.cut x ?_ ?_ <;> [subst x; (clear_value x; intro _)] | skip)
    | with_reducible apply Kept.updRing
    | with_reducible apply Kept.sendHeader
    | with_reducible apply Kept.writeCheckpoint
    | with_reducible refine Kept.foldl ?_ _ ?_
    | split

theorem Kept.cleanCheckpoints {uu : Units} {zz s : State} (hk : Kept uu zz s) (hRge : uu.rge = true := by assumption)
    (hRfx : uu.rfx = true := by assumption) (hBay : uu.bay = true := by assumption) (hXbr : uu.xbr = true := by assumption)
    (hPmu : uu.pmu = true := by assumption) (hMoved : uu.moved = true := by assumption)
    (hOut : uu.out = true := by assumption) : Kept uu zz (State.cleanCheckpoints s) := by
  unfold State.cleanCheckpoints
  repeat' first
    | with_reducible assumption
    | exact {}
    | intro _
    | extract_lets +onlyGivenNames _
    | with_reducible apply Kept.cleanCheckpoint
    | with_reducible refine Kept.foldl ?_ _ ?_

theorem Kept.redoRow {uu : Units} {zz s : State} (r : Ring) (stripe : Nat) (seq : Nat) (d : RowData) (row : Nat) (hk
    : Kept uu zz s) (hHce : uu.hce = true := by assumption) (hRge : uu.rge = true := by assumption)
    (hRfx : uu.rfx = true := by assumption) (hBay : uu.bay = true := by assumption) (hXbr : uu.xbr = true := by assumption)
    (hPmu : uu.pmu = true := by assumption) (hMoved : uu.moved = true := by assumption)
    (hOut : uu.out = true := by assumption) : Kept uu zz (State.redoRow s r stripe seq d row) := by
  unfold State.redoRow
  repeat' first
    | with_reducible assumption
    | exact {}
    | intro _
    | extract_lets +onlyGivenNames _
    | with_reducible apply Kept.recordRow
    | with_reducible apply Kept.bumpBy
    | with_reducible apply Kept.toSlot
    | with_reducible apply Kept.markMissed
    | with_reducible apply Kept.cacheDrop
    | with_reducible refine Kept.foldl ?_ _ ?_

theorem Kept.redoStripe {uu : Units} {zz s : State} (r : Ring) (stripe : Nat) (x : Nat) (seq : Nat) (rows : List
    (Nat × RowData)) (rs : List Nat) (hk : Kept uu zz s) (hHce : uu.hce = true := by assumption)
    (hRge : uu.rge = true := by assumption) (hRfx : uu.rfx = true := by assumption) (hBay : uu.bay = true := by assumption)
    (hXbr : uu.xbr = true := by assumption) (hPmu : uu.pmu = true := by assumption)
    (hMoved : uu.moved = true := by assumption) (hOut : uu.out = true := by assumption) : Kept uu zz
    (State.redoStripe s r stripe x seq rows rs) := by
  unfold State.redoStripe
  repeat' first
    | with_reducible assumption
    | exact {}
    | intro _
    | (extract_lets +onlyGivenNames x; first | refine Kept.cut x ?_ ?_ <;> [subst x; (clear_value x; intro _)] | skip)
    | with_reducible apply Kept.redoRow
    | with_reducible apply Kept.updRge
    | with_reducible apply Kept.updHce
    | with_reducible refine Kept.foldl ?_ _ ?_

theorem Kept.worked {uu : Units} {zz s : State} (n : Nat) (hk : Kept uu zz s) (hRge : uu.rge = true := by assumption)
    : Kept uu zz (State.worked s n) := by
  unfold State.worked
  repeat' first
    | with_reducible assumption
    | exact {}
    | intro _
    | with_reducible apply Kept.updRge

theorem Kept.ptqryWrite {uu : Units} {zz s : State} (w : Word) (hk : Kept uu zz s) (hRge : uu.rge = true := by assumption)
    (hCfg : uu.cfg = true := by assumption) : Kept uu zz (State.ptqryWrite s w) := by
  unfold State.ptqryWrite
  repeat' first
    | with_reducible assumption
    | exact {}
    | intro _
    | extract_lets +onlyGivenNames _
    | with_reducible apply Kept.putReg
    | with_reducible apply Kept.updRge

/-! ## The commands -/

theorem KeptBy.ringCreate {uu : Units} {zz s : State} (m : Master) (hk : Kept uu zz s)
    (hHce : uu.hce = true := by assumption) (hRge : uu.rge = true := by assumption) (hRfx : uu.rfx = true := by assumption)
    (hMbx : uu.mbx = true := by assumption) (hBay : uu.bay = true := by assumption) (hXbr : uu.xbr = true := by assumption)
    (hPmu : uu.pmu = true := by assumption) (hMoved : uu.moved = true := by assumption)
    (hOut : uu.out = true := by assumption) :
    KeptBy uu zz (execRingCreate m s) := by
  unfold execRingCreate
  repeat' first
    | with_reducible assumption
    | exact {}
    | intro _
    | (extract_lets +onlyGivenNames x; first | refine Kept.cut x ?_ ?_ <;> [subst x; (clear_value x; intro _)] | refine KeptBy.cut x ?_ ?_ <;> [subst x; (clear_value x; intro _)] | skip)
    | with_reducible refine KeptBy.next ?_
    | with_reducible apply Kept.runCmd
    | with_reducible apply Kept.checked
    | with_reducible apply Kept.updRge
    | with_reducible apply Kept.makeNamespaces
    | with_reducible apply Kept.writeSuperblocks
    | with_reducible apply Kept.recomputeCeil
    | with_reducible apply Kept.finish
    | with_reducible apply Kept.ringOnline
    | with_reducible refine Kept.foldl ?_ _ ?_

theorem KeptBy.ringDelete {uu : Units} {zz s : State} (m : Master) (hk : Kept uu zz s)
    (hHce : uu.hce = true := by assumption) (hRge : uu.rge = true := by assumption) (hSnt : uu.snt = true := by assumption)
    (hRfx : uu.rfx = true := by assumption) (hMbx : uu.mbx = true := by assumption) (hBay : uu.bay = true := by assumption)
    (hProps : uu.props = true := by assumption) (hXbr : uu.xbr = true := by assumption)
    (hPmu : uu.pmu = true := by assumption) (hMoved : uu.moved = true := by assumption)
    (hOut : uu.out = true := by assumption) :
    KeptBy uu zz (execRingDelete m s) := by
  unfold execRingDelete
  repeat' first
    | with_reducible assumption
    | exact {}
    | intro _
    | (extract_lets +onlyGivenNames x; first | refine Kept.cut x ?_ ?_ <;> [subst x; (clear_value x; intro _)] | refine KeptBy.cut x ?_ ?_ <;> [subst x; (clear_value x; intro _)] | skip)
    | with_reducible refine KeptBy.next ?_
    | with_reducible apply Kept.runCmd
    | with_reducible apply Kept.checked
    | with_reducible apply Kept.toSlot
    | with_reducible apply Kept.setBay
    | with_reducible apply Kept.sendLine
    | with_reducible apply Kept.removeRing
    | with_reducible apply Kept.propagate
    | with_reducible refine Kept.foldl ?_ _ ?_
    | split

theorem KeptBy.ringInitComplete {uu : Units} {zz s : State} (ring : Nat) (hk : Kept uu zz s)
    (hRge : uu.rge = true := by assumption) :
    KeptBy uu zz (execRingInitComplete ring s) := by
  unfold execRingInitComplete
  repeat' first
    | with_reducible assumption
    | exact {}
    | intro _
    | extract_lets +onlyGivenNames _
    | with_reducible refine KeptBy.next ?_
    | with_reducible apply Kept.updRing
    | split

theorem KeptBy.stripeWriteStart {uu : Units} {zz s : State} (ring : Nat) (stripe : Nat) (hk : Kept uu zz s)
    (hHce : uu.hce = true := by assumption) (hRge : uu.rge = true := by assumption) (hRfx : uu.rfx = true := by assumption)
    (hKvt : uu.kvt = true := by assumption) (hBay : uu.bay = true := by assumption) (hXbr : uu.xbr = true := by assumption)
    (hPmu : uu.pmu = true := by assumption) (hMoved : uu.moved = true := by assumption)
    (hOut : uu.out = true := by assumption) (hFree : uu.free = true := by assumption) :
    KeptBy uu zz (execStripeWriteStart ring stripe s) := by
  unfold execStripeWriteStart
  repeat' first
    | with_reducible assumption
    | exact {}
    | intro _
    | extract_lets +onlyGivenNames _
    | with_reducible refine KeptBy.next ?_
    | with_reducible apply Kept.tryStripe

theorem KeptBy.drainMaxageExpiry {uu : Units} {zz s : State} (ring : Nat) (stripe : Nat) (hk : Kept uu zz s)
    (hHce : uu.hce = true := by assumption) (hRge : uu.rge = true := by assumption) (hRfx : uu.rfx = true := by assumption)
    (hKvt : uu.kvt = true := by assumption) (hBay : uu.bay = true := by assumption) (hXbr : uu.xbr = true := by assumption)
    (hPmu : uu.pmu = true := by assumption) (hMoved : uu.moved = true := by assumption)
    (hOut : uu.out = true := by assumption) (hFree : uu.free = true := by assumption) :
    KeptBy uu zz (execDrainMaxageExpiry ring stripe s) := by
  unfold execDrainMaxageExpiry
  repeat' first
    | with_reducible assumption
    | exact {}
    | intro _
    | extract_lets +onlyGivenNames _
    | with_reducible refine KeptBy.next ?_
    | with_reducible apply Kept.tryStripe

theorem KeptBy.stripeWriteComplete {uu : Units} {zz s : State} (ring : Nat) (stripe : Nat) (hk : Kept uu zz s)
    (hHce : uu.hce = true := by assumption) (hRfu : uu.rfu = true := by assumption) (hRge : uu.rge = true := by assumption)
    (hRfx : uu.rfx = true := by assumption) (hKvt : uu.kvt = true := by assumption) (hBay : uu.bay = true := by assumption)
    (hXbr : uu.xbr = true := by assumption) (hPwr : uu.pwr = true := by assumption) (hPmu : uu.pmu = true := by assumption)
    (hMoved : uu.moved = true := by assumption) (hOut : uu.out = true := by assumption)
    (hFree : uu.free = true := by assumption) :
    KeptBy uu zz (execStripeWriteComplete ring stripe s) := by
  unfold execStripeWriteComplete
  repeat' first
    | with_reducible assumption
    | exact {}
    | intro _
    | extract_lets +onlyGivenNames _
    | with_reducible refine KeptBy.next ?_
    | with_reducible apply Kept.endStripe
    | with_reducible apply Kept.startMends
    | split

theorem KeptBy.bitmapSweep {uu : Units} {zz s : State} (ring : Nat) (hk : Kept uu zz s)
    (hRge : uu.rge = true := by assumption) (hRfx : uu.rfx = true := by assumption) (hXbr : uu.xbr = true := by assumption)
    (hPmu : uu.pmu = true := by assumption) (hMoved : uu.moved = true := by assumption)
    (hOut : uu.out = true := by assumption) :
    KeptBy uu zz (execBitmapSweep ring s) := by
  unfold execBitmapSweep
  repeat' first
    | with_reducible assumption
    | exact {}
    | intro _
    | extract_lets +onlyGivenNames _
    | with_reducible refine KeptBy.next ?_
    | with_reducible apply Kept.updRing
    | with_reducible apply Kept.sendLine
    | with_reducible apply Kept.sendHeader
    | with_reducible refine Kept.foldl ?_ _ ?_
    | split

theorem KeptBy.bitmapCheckpoint {uu : Units} {zz s : State} (ring : Nat) (hk : Kept uu zz s)
    (hRge : uu.rge = true := by assumption) (hRfx : uu.rfx = true := by assumption) (hBay : uu.bay = true := by assumption)
    (hXbr : uu.xbr = true := by assumption) (hPmu : uu.pmu = true := by assumption)
    (hMoved : uu.moved = true := by assumption) (hOut : uu.out = true := by assumption) :
    KeptBy uu zz (execBitmapCheckpoint ring s) := by
  unfold execBitmapCheckpoint
  repeat' first
    | with_reducible assumption
    | exact {}
    | intro _
    | (extract_lets +onlyGivenNames x; first | refine Kept.cut x ?_ ?_ <;> [subst x; (clear_value x; intro _)] | refine KeptBy.cut x ?_ ?_ <;> [subst x; (clear_value x; intro _)] | skip)
    | with_reducible refine KeptBy.next ?_
    | with_reducible apply Kept.updRing
    | with_reducible apply Kept.sendHeader
    | with_reducible apply Kept.writeCheckpoint
    | split

theorem KeptBy.checkpointWriteComplete {uu : Units} {zz s : State} (ring : Nat) (hk : Kept uu zz s)
    (hRge : uu.rge = true := by assumption) (hRfx : uu.rfx = true := by assumption) (hXbr : uu.xbr = true := by assumption)
    (hPmu : uu.pmu = true := by assumption) (hMoved : uu.moved = true := by assumption)
    (hOut : uu.out = true := by assumption) :
    KeptBy uu zz (execCheckpointWriteComplete ring s) := by
  unfold execCheckpointWriteComplete
  repeat' first
    | with_reducible assumption
    | exact {}
    | intro _
    | extract_lets +onlyGivenNames _
    | with_reducible refine KeptBy.next ?_
    | with_reducible apply Kept.updRing
    | with_reducible apply Kept.sendHeader
    | split

theorem KeptBy.suspectStripeDone {uu : Units} {zz s : State} (ring : Nat) (stripe : Nat) (rows : List (Nat × RowData)) (hk
    : Kept uu zz s) (hHce : uu.hce = true := by assumption) (hRfu : uu.rfu = true := by assumption)
    (hRge : uu.rge = true := by assumption) (hSnt : uu.snt = true := by assumption) (hRfx : uu.rfx = true := by assumption)
    (hKvt : uu.kvt = true := by assumption) (hBay : uu.bay = true := by assumption) (hXbr : uu.xbr = true := by assumption)
    (hPwr : uu.pwr = true := by assumption) (hPmu : uu.pmu = true := by assumption)
    (hMoved : uu.moved = true := by assumption) (hOut : uu.out = true := by assumption)
    (hFree : uu.free = true := by assumption) :
    KeptBy uu zz (execSuspectStripeDone ring stripe rows s) := by
  unfold execSuspectStripeDone
  repeat' first
    | with_reducible assumption
    | exact {}
    | intro _
    | extract_lets +onlyGivenNames _
    | with_reducible refine KeptBy.next ?_
    | with_reducible apply Kept.openIntent
    | with_reducible apply Kept.markStripe
    | with_reducible apply Kept.redoStripe
    | with_reducible apply Kept.settleRow
    | with_reducible apply Kept.endTask
    | with_reducible apply Kept.bump
    | with_reducible apply Kept.updRing
    | with_reducible apply Kept.freeIntent
    | with_reducible apply Kept.reask
    | with_reducible refine Kept.foldl ?_ _ ?_
    | split
    | (with_reducible apply Kept.update) <;> [assumption; exact {}]
    | refine Kept.ofPair (by assumption) ?_
    | refine Kept.ofPair' (by assumption) ?_
    | (with_reducible apply Kept.update) <;> [refine Kept.ofPair (by assumption) ?_; exact {}]
    | fail_if_no_progress ((with_reducible apply Kept.update) <;> [skip; exact {}])

theorem KeptBy.verifyStripeDone {uu : Units} {zz s : State} (ring : Nat) (rows : List (Nat × RowData)) (hk : Kept uu zz s)
    (hHce : uu.hce = true := by assumption) (hRfu : uu.rfu = true := by assumption) (hRge : uu.rge = true := by assumption)
    (hRfx : uu.rfx = true := by assumption) (hKvt : uu.kvt = true := by assumption) (hBay : uu.bay = true := by assumption)
    (hXbr : uu.xbr = true := by assumption) (hPwr : uu.pwr = true := by assumption) (hPmu : uu.pmu = true := by assumption)
    (hMoved : uu.moved = true := by assumption) (hOut : uu.out = true := by assumption)
    (hFree : uu.free = true := by assumption) :
    KeptBy uu zz (execVerifyStripeDone ring rows s) := by
  unfold execVerifyStripeDone
  repeat' first
    | with_reducible assumption
    | exact {}
    | intro _
    | (extract_lets +onlyGivenNames x; first | refine Kept.cut x ?_ ?_ <;> [subst x; (clear_value x; intro _)] | refine KeptBy.cut x ?_ ?_ <;> [subst x; (clear_value x; intro _)] | skip)
    | with_reducible refine KeptBy.next ?_
    | with_reducible apply Kept.underRecord
    | with_reducible apply Kept.settleRow
    | with_reducible apply Kept.worked
    | with_reducible apply Kept.updRing
    | with_reducible apply Kept.endWork
    | with_reducible apply Kept.reask
    | with_reducible refine Kept.foldl ?_ _ ?_
    | split

theorem KeptBy.ptqryWrite {uu : Units} {zz s : State} (w : Word) (hk : Kept uu zz s) (hRge : uu.rge = true := by assumption)
    (hCfg : uu.cfg = true := by assumption) :
    KeptBy uu zz (execPtqryWrite w s) := by
  unfold execPtqryWrite
  repeat' first
    | with_reducible assumption
    | exact {}
    | intro _
    | extract_lets +onlyGivenNames _
    | with_reducible refine KeptBy.next ?_
    | with_reducible apply Kept.ptqryWrite

end Sys2Proof.Machine
end

