-- ==== Sys2Proof/Laws/KeptMembers.lean ====
section
/-! SUPPORT. `Kept` for the operations of Machine/Members.lean. -/

set_option Elab.async false

namespace Sys2Proof.Machine

theorem Kept.acceptReplacement {uu : Units} {zz s : State} (ring : Nat) (j : Nat) (bay : Nat) (hk : Kept uu zz s)
    (hHce : uu.hce = true := by assumption) (hRfu : uu.rfu = true := by assumption) (hRge : uu.rge = true := by assumption)
    (hRfx : uu.rfx = true := by assumption) (hKvt : uu.kvt = true := by assumption) (hBay : uu.bay = true := by assumption)
    (hXbr : uu.xbr = true := by assumption) (hPwr : uu.pwr = true := by assumption) (hPmu : uu.pmu = true := by assumption)
    (hMoved : uu.moved = true := by assumption) (hOut : uu.out = true := by assumption)
    (hFree : uu.free = true := by assumption) : Kept uu zz (State.acceptReplacement s ring j bay) := by
  unfold State.acceptReplacement
  repeat' first
    | with_reducible assumption
    | exact {}
    | intro _
    | (extract_lets +onlyGivenNames x; first | refine Kept.cut x ?_ ?_ <;> [subst x; (clear_value x; intro _)] | skip)
    | with_reducible apply Kept.makeNamespaces
    | with_reducible apply Kept.updRing
    | with_reducible apply Kept.setSlot
    | with_reducible apply Kept.membersChanged
    | split

theorem Kept.autoReplace {uu : Units} {zz s : State} (ring : Nat) (j : Nat) (bay : Nat) (hk : Kept uu zz s)
    (hHce : uu.hce = true := by assumption) (hRfu : uu.rfu = true := by assumption) (hRge : uu.rge = true := by assumption)
    (hRfx : uu.rfx = true := by assumption) (hKvt : uu.kvt = true := by assumption) (hBay : uu.bay = true := by assumption)
    (hXbr : uu.xbr = true := by assumption) (hPwr : uu.pwr = true := by assumption) (hPmu : uu.pmu = true := by assumption)
    (hMoved : uu.moved = true := by assumption) (hOut : uu.out = true := by assumption)
    (hFree : uu.free = true := by assumption) : Kept uu zz (State.autoReplace s ring j bay) := by
  unfold State.autoReplace
  repeat' first
    | with_reducible assumption
    | exact {}
    | intro _
    | with_reducible apply Kept.acceptReplacement
    | split

theorem Kept.matchOwn {uu : Units} {zz s : State} (r : Ring) (bay : Nat) (j : Nat) (hk : Kept uu zz s)
    (hHce : uu.hce = true := by assumption) (hRfu : uu.rfu = true := by assumption) (hRge : uu.rge = true := by assumption)
    (hRfx : uu.rfx = true := by assumption) (hKvt : uu.kvt = true := by assumption) (hBay : uu.bay = true := by assumption)
    (hXbr : uu.xbr = true := by assumption) (hPwr : uu.pwr = true := by assumption) (hPmu : uu.pmu = true := by assumption)
    (hMoved : uu.moved = true := by assumption) (hOut : uu.out = true := by assumption)
    (hFree : uu.free = true := by assumption) : Kept uu zz (State.matchOwn s r bay j) := by
  unfold State.matchOwn
  repeat' first
    | with_reducible assumption
    | exact {}
    | intro _
    | (extract_lets +onlyGivenNames x; first | refine Kept.cut x ?_ ?_ <;> [subst x; (clear_value x; intro _)] | skip)
    | with_reducible apply Kept.updRing
    | with_reducible apply Kept.setSlot
    | with_reducible apply Kept.toSlot
    | with_reducible apply Kept.membersChanged
    | with_reducible apply Kept.reask
    | with_reducible apply Kept.setBay
    | with_reducible apply Kept.autoReplace
    | split

theorem Kept.matchSlot {uu : Units} {zz s : State} (bay : Nat) (d : DriveInfo) (ring : Nat) (j : Nat) (hk : Kept uu zz s)
    (hHce : uu.hce = true := by assumption) (hRfu : uu.rfu = true := by assumption) (hRge : uu.rge = true := by assumption)
    (hRfx : uu.rfx = true := by assumption) (hKvt : uu.kvt = true := by assumption) (hBay : uu.bay = true := by assumption)
    (hXbr : uu.xbr = true := by assumption) (hPwr : uu.pwr = true := by assumption) (hPmu : uu.pmu = true := by assumption)
    (hMoved : uu.moved = true := by assumption) (hOut : uu.out = true := by assumption)
    (hFree : uu.free = true := by assumption) : Kept uu zz (State.matchSlot s bay d ring j) := by
  unfold State.matchSlot
  repeat' first
    | with_reducible assumption
    | exact {}
    | intro _
    | extract_lets +onlyGivenNames _
    | with_reducible apply Kept.updRing
    | with_reducible apply Kept.setSlot
    | with_reducible apply Kept.reask
    | with_reducible apply Kept.matchOwn
    | with_reducible apply Kept.memberFailed
    | with_reducible apply Kept.autoReplace
    | split

theorem Kept.cleanDrive {uu : Units} {zz s : State} (bay : Nat) (d : DriveInfo) (hk : Kept uu zz s)
    (hBay : uu.bay = true := by assumption) (hPmu : uu.pmu = true := by assumption)
    (hMoved : uu.moved = true := by assumption) (hOut : uu.out = true := by assumption) : Kept uu zz
    (State.cleanDrive s bay d) := by
  unfold State.cleanDrive
  repeat' first
    | with_reducible assumption
    | exact {}
    | intro _
    | (extract_lets +onlyGivenNames x; first | refine Kept.cut x ?_ ?_ <;> [subst x; (clear_value x; intro _)] | skip)
    | with_reducible apply Kept.issueMember
    | with_reducible apply Kept.setBay
    | with_reducible refine Kept.foldl ?_ _ ?_
    | split

theorem Kept.useSuperblocks {uu : Units} {zz s : State} (d : DriveInfo) (hk : Kept uu zz s)
    (hRge : uu.rge = true := by assumption) : Kept uu zz (State.useSuperblocks s d) := by
  unfold State.useSuperblocks
  repeat' first
    | with_reducible assumption
    | exact {}
    | intro _
    | with_reducible apply Kept.updRge

theorem Kept.renewRow {uu : Units} {zz s : State} (r : Ring) (stripe : Nat) (seq : Nat) (put : List (Nat × Nat))
    (d : RowData) (row : Nat) (hk : Kept uu zz s) (hRge : uu.rge = true := by assumption)
    (hRfx : uu.rfx = true := by assumption) (hBay : uu.bay = true := by assumption) (hXbr : uu.xbr = true := by assumption)
    (hPmu : uu.pmu = true := by assumption) (hMoved : uu.moved = true := by assumption)
    (hOut : uu.out = true := by assumption) : Kept uu zz (State.renewRow s r stripe seq put d row) := by
  unfold State.renewRow
  repeat' first
    | with_reducible assumption
    | exact {}
    | intro _
    | (extract_lets +onlyGivenNames x; first | refine Kept.cut x ?_ ?_ <;> [subst x; (clear_value x; intro _)] | skip)
    | with_reducible apply Kept.recordRow
    | with_reducible apply Kept.repairPut
    | with_reducible apply Kept.putBlock
    | with_reducible apply Kept.markMissed
    | with_reducible refine Kept.foldl ?_ _ ?_
    | split

theorem Kept.renewStripe {uu : Units} {zz s : State} (r : Ring) (stripe : Nat) (put : List (Nat × Nat)) (rows : List
    (Nat × RowData)) (hk : Kept uu zz s) (hRge : uu.rge = true := by assumption) (hRfx : uu.rfx = true := by assumption)
    (hBay : uu.bay = true := by assumption) (hXbr : uu.xbr = true := by assumption) (hPmu : uu.pmu = true := by assumption)
    (hMoved : uu.moved = true := by assumption) (hOut : uu.out = true := by assumption) : Kept uu zz
    (State.renewStripe s r stripe put rows) := by
  unfold State.renewStripe
  repeat' first
    | with_reducible assumption
    | exact {}
    | intro _
    | (extract_lets +onlyGivenNames x; first | refine Kept.cut x ?_ ?_ <;> [subst x; (clear_value x; intro _)] | skip)
    | with_reducible apply Kept.underRecord
    | with_reducible apply Kept.updRge
    | with_reducible apply Kept.renewRow
    | with_reducible apply Kept.worked
    | with_reducible refine Kept.foldl ?_ _ ?_

theorem Kept.endSync {uu : Units} {zz s : State} (ring : Nat) (j : Nat) (hk : Kept uu zz s)
    (hHce : uu.hce = true := by assumption) (hRfu : uu.rfu = true := by assumption) (hRge : uu.rge = true := by assumption)
    (hRfx : uu.rfx = true := by assumption) (hKvt : uu.kvt = true := by assumption) (hBay : uu.bay = true := by assumption)
    (hXbr : uu.xbr = true := by assumption) (hPwr : uu.pwr = true := by assumption) (hPmu : uu.pmu = true := by assumption)
    (hMoved : uu.moved = true := by assumption) (hOut : uu.out = true := by assumption)
    (hFree : uu.free = true := by assumption) : Kept uu zz (State.endSync s ring j) := by
  unfold State.endSync
  repeat' first
    | with_reducible assumption
    | exact {}
    | intro _
    | extract_lets +onlyGivenNames _
    | with_reducible apply Kept.updRing
    | with_reducible apply Kept.setSlot
    | with_reducible apply Kept.membersChanged
    | split

theorem Kept.syncRun {uu : Units} {zz : State} (ring j : Nat) (rows : List (Nat × Nat × RowData)) (l : List Nat)
    (hRge : uu.rge = true := by assumption) (hRfx : uu.rfx = true := by assumption) (hBay : uu.bay = true := by assumption)
    (hXbr : uu.xbr = true := by assumption) (hPmu : uu.pmu = true := by assumption)
    (hMoved : uu.moved = true := by assumption) (hOut : uu.out = true := by assumption) :
    ∀ {s : State}, Kept uu zz s → Kept uu zz (State.syncRun s ring j rows l) := by
  induction l with
  | nil => exact fun h => h
  | cons st l ih =>
    intro s hk
    unfold State.syncRun
    dsimp only
    split
    · exact hk
    · split
      · exact hk
      · exact ih (Kept.renewStripe _ _ _ _ hk)

theorem Kept.endCopyback {uu : Units} {zz s : State} (ring : Nat) (j : Nat) (hk : Kept uu zz s)
    (hHce : uu.hce = true := by assumption) (hRfu : uu.rfu = true := by assumption) (hRge : uu.rge = true := by assumption)
    (hRfx : uu.rfx = true := by assumption) (hKvt : uu.kvt = true := by assumption) (hBay : uu.bay = true := by assumption)
    (hXbr : uu.xbr = true := by assumption) (hPwr : uu.pwr = true := by assumption) (hPmu : uu.pmu = true := by assumption)
    (hMoved : uu.moved = true := by assumption) (hOut : uu.out = true := by assumption)
    (hFree : uu.free = true := by assumption) : Kept uu zz (State.endCopyback s ring j) := by
  unfold State.endCopyback
  repeat' first
    | with_reducible assumption
    | exact {}
    | intro _
    | extract_lets +onlyGivenNames _
    | with_reducible apply Kept.setSlot
    | with_reducible apply Kept.updRing
    | with_reducible apply Kept.membersChanged
    | split

theorem Kept.tasksDone {uu : Units} {zz s : State} (ring : Nat) (seq : Nat) (hk : Kept uu zz s)
    (hHce : uu.hce = true := by assumption) (hRfu : uu.rfu = true := by assumption) (hRge : uu.rge = true := by assumption)
    (hRfx : uu.rfx = true := by assumption) (hKvt : uu.kvt = true := by assumption) (hBay : uu.bay = true := by assumption)
    (hXbr : uu.xbr = true := by assumption) (hPwr : uu.pwr = true := by assumption) (hPmu : uu.pmu = true := by assumption)
    (hMoved : uu.moved = true := by assumption) (hOut : uu.out = true := by assumption)
    (hFree : uu.free = true := by assumption) : Kept uu zz (State.tasksDone s ring seq) := by
  unfold State.tasksDone
  repeat' first
    | with_reducible assumption
    | exact {}
    | intro _
    | (extract_lets +onlyGivenNames x; first | refine Kept.cut x ?_ ?_ <;> [subst x; (clear_value x; intro _)] | skip)
    | with_reducible apply Kept.updRge
    | with_reducible apply Kept.updRing
    | with_reducible apply Kept.sendService
    | with_reducible apply Kept.endCopyback
    | with_reducible apply Kept.endSync
    | with_reducible apply Kept.endWork
    | with_reducible apply Kept.reask
    | with_reducible refine Kept.foldl ?_ _ ?_
    | split

theorem Kept.patrolRow {uu : Units} {zz s : State} (r : Ring) (stripe : Nat) (seq : Nat) (d0 : RowData) (row : Nat) (hk
    : Kept uu zz s) (hRge : uu.rge = true := by assumption) (hRfx : uu.rfx = true := by assumption)
    (hBay : uu.bay = true := by assumption) (hXbr : uu.xbr = true := by assumption) (hPmu : uu.pmu = true := by assumption)
    (hMoved : uu.moved = true := by assumption) (hOut : uu.out = true := by assumption) : Kept uu zz
    (State.patrolRow s r stripe seq d0 row) := by
  unfold State.patrolRow
  repeat' first
    | with_reducible assumption
    | exact {}
    | intro _
    | (extract_lets +onlyGivenNames x; first | refine Kept.cut x ?_ ?_ <;> [subst x; (clear_value x; intro _)] | skip)
    | with_reducible apply Kept.recordRow
    | with_reducible apply Kept.putRow
    | with_reducible apply Kept.repairPut
    | with_reducible apply Kept.bump
    | split

/-! ## The commands -/

theorem KeptBy.driveIdentified {uu : Units} {zz s : State} (bay : Nat) (info : DriveInfo) (hk : Kept uu zz s)
    (hHce : uu.hce = true := by assumption) (hRfu : uu.rfu = true := by assumption) (hRge : uu.rge = true := by assumption)
    (hRfx : uu.rfx = true := by assumption) (hKvt : uu.kvt = true := by assumption) (hBay : uu.bay = true := by assumption)
    (hXbr : uu.xbr = true := by assumption) (hPwr : uu.pwr = true := by assumption) (hPmu : uu.pmu = true := by assumption)
    (hMoved : uu.moved = true := by assumption) (hOut : uu.out = true := by assumption)
    (hFree : uu.free = true := by assumption) :
    KeptBy uu zz (execDriveIdentified bay info s) := by
  unfold execDriveIdentified
  repeat' first
    | with_reducible assumption
    | exact {}
    | intro _
    | extract_lets +onlyGivenNames _
    | with_reducible refine KeptBy.next ?_
    | with_reducible apply Kept.setBay
    | with_reducible apply Kept.cleanDrive
    | with_reducible apply Kept.useSuperblocks
    | with_reducible apply Kept.matchSlot
    | with_reducible refine Kept.foldl ?_ _ ?_
    | split

theorem KeptBy.rejoinWindowExpiry {uu : Units} {zz s : State} (ring : Nat) (slot : Nat) (hk : Kept uu zz s)
    (hHce : uu.hce = true := by assumption) (hRfu : uu.rfu = true := by assumption) (hRge : uu.rge = true := by assumption)
    (hRfx : uu.rfx = true := by assumption) (hKvt : uu.kvt = true := by assumption) (hBay : uu.bay = true := by assumption)
    (hXbr : uu.xbr = true := by assumption) (hPwr : uu.pwr = true := by assumption) (hPmu : uu.pmu = true := by assumption)
    (hMoved : uu.moved = true := by assumption) (hOut : uu.out = true := by assumption)
    (hFree : uu.free = true := by assumption) :
    KeptBy uu zz (execRejoinWindowExpiry ring slot s) := by
  unfold execRejoinWindowExpiry
  repeat' first
    | with_reducible assumption
    | exact {}
    | intro _
    | extract_lets +onlyGivenNames _
    | with_reducible refine KeptBy.next ?_
    | with_reducible apply Kept.memberFailed
    | split

theorem KeptBy.smartCriticalWarning {uu : Units} {zz s : State} (bay : Nat) (bits : BitVec 8) (hk : Kept uu zz s)
    (hHce : uu.hce = true := by assumption) (hRfu : uu.rfu = true := by assumption) (hRge : uu.rge = true := by assumption)
    (hRfx : uu.rfx = true := by assumption) (hKvt : uu.kvt = true := by assumption) (hBay : uu.bay = true := by assumption)
    (hXbr : uu.xbr = true := by assumption) (hPwr : uu.pwr = true := by assumption) (hPmu : uu.pmu = true := by assumption)
    (hMoved : uu.moved = true := by assumption) (hOut : uu.out = true := by assumption)
    (hFree : uu.free = true := by assumption) :
    KeptBy uu zz (execSmartCriticalWarning bay bits s) := by
  unfold execSmartCriticalWarning
  repeat' first
    | with_reducible assumption
    | exact {}
    | intro _
    | extract_lets +onlyGivenNames _
    | with_reducible refine KeptBy.next ?_
    | with_reducible apply Kept.driveFailed
    | split

theorem KeptBy.rebuildStripeDone {uu : Units} {zz s : State} (ring : Nat) (stripe : Nat) (rows : List (Nat × RowData)) (hk
    : Kept uu zz s) (hHce : uu.hce = true := by assumption) (hRfu : uu.rfu = true := by assumption)
    (hRge : uu.rge = true := by assumption) (hRfx : uu.rfx = true := by assumption) (hKvt : uu.kvt = true := by assumption)
    (hBay : uu.bay = true := by assumption) (hXbr : uu.xbr = true := by assumption) (hPwr : uu.pwr = true := by assumption)
    (hPmu : uu.pmu = true := by assumption) (hMoved : uu.moved = true := by assumption)
    (hOut : uu.out = true := by assumption) (hFree : uu.free = true := by assumption) :
    KeptBy uu zz (execRebuildStripeDone ring stripe rows s) := by
  unfold execRebuildStripeDone
  repeat' first
    | with_reducible assumption
    | exact {}
    | intro _
    | extract_lets +onlyGivenNames _
    | with_reducible refine KeptBy.next ?_
    | with_reducible apply Kept.renewStripe
    | with_reducible apply Kept.updRing
    | with_reducible apply Kept.reask
    | split

theorem KeptBy.rejoinResyncComplete {uu : Units} {zz s : State} (ring : Nat) (done : SlotReads) (hk : Kept uu zz s) (hHce : uu.hce = true := by assumption)
    (hRfu : uu.rfu = true := by assumption) (hRge : uu.rge = true := by assumption) (hRfx : uu.rfx = true := by assumption)
    (hKvt : uu.kvt = true := by assumption) (hBay : uu.bay = true := by assumption) (hXbr : uu.xbr = true := by assumption)
    (hPwr : uu.pwr = true := by assumption) (hPmu : uu.pmu = true := by assumption)
    (hMoved : uu.moved = true := by assumption) (hOut : uu.out = true := by assumption)
    (hFree : uu.free = true := by assumption) :
    KeptBy uu zz (execRejoinResyncComplete ring done s) := by
  unfold execRejoinResyncComplete
  repeat' first
    | with_reducible assumption
    | exact {}
    | intro _
    | extract_lets +onlyGivenNames _
    | with_reducible refine KeptBy.next ?_
    | with_reducible apply Kept.syncRun
    | with_reducible apply Kept.endSync
    | with_reducible apply Kept.reask
    | split

theorem KeptBy.copybackChunkDone {uu : Units} {zz s : State} (ring : Nat) (slot : Nat) (done : ChunkReads)
    (hk : Kept uu zz s) (hHce : uu.hce = true := by assumption) (hRfu : uu.rfu = true := by assumption)
    (hRge : uu.rge = true := by assumption) (hRfx : uu.rfx = true := by assumption) (hKvt : uu.kvt = true := by assumption)
    (hBay : uu.bay = true := by assumption) (hXbr : uu.xbr = true := by assumption) (hPwr : uu.pwr = true := by assumption)
    (hPmu : uu.pmu = true := by assumption) (hMoved : uu.moved = true := by assumption)
    (hOut : uu.out = true := by assumption) (hFree : uu.free = true := by assumption) :
    KeptBy uu zz (execCopybackChunkDone ring slot done s) := by
  unfold execCopybackChunkDone
  repeat' first
    | with_reducible assumption
    | exact {}
    | intro _
    | extract_lets +onlyGivenNames _
    | with_reducible refine KeptBy.next ?_
    | with_reducible apply Kept.renewStripe
    | with_reducible apply Kept.reask
    | split

theorem KeptBy.rebuildRateTick {uu : Units} {zz s : State} (hostTraffic : Nat) (hk : Kept uu zz s)
    (hRge : uu.rge = true := by assumption) :
    KeptBy uu zz (execRebuildRateTick hostTraffic s) := by
  unfold execRebuildRateTick
  repeat' first
    | with_reducible assumption
    | exact {}
    | intro _
    | extract_lets +onlyGivenNames _
    | with_reducible refine KeptBy.next ?_
    | with_reducible apply Kept.updRge
    | with_reducible refine Kept.foldl ?_ _ ?_
    | split

theorem KeptBy.patrolStripeCheck {uu : Units} {zz s : State} (ring : Nat) (rows : List (Nat × RowData)) (hk : Kept uu zz s)
    (hRge : uu.rge = true := by assumption) (hRfx : uu.rfx = true := by assumption) (hBay : uu.bay = true := by assumption)
    (hXbr : uu.xbr = true := by assumption) (hPmu : uu.pmu = true := by assumption)
    (hMoved : uu.moved = true := by assumption) (hOut : uu.out = true := by assumption) :
    KeptBy uu zz (execPatrolStripeCheck ring rows s) := by
  unfold execPatrolStripeCheck
  repeat' first
    | with_reducible assumption
    | exact {}
    | intro _
    | (extract_lets +onlyGivenNames x; first | refine Kept.cut x ?_ ?_ <;> [subst x; (clear_value x; intro _)] | refine KeptBy.cut x ?_ ?_ <;> [subst x; (clear_value x; intro _)] | skip)
    | with_reducible refine KeptBy.next ?_
    | with_reducible apply Kept.underRecord
    | with_reducible apply Kept.patrolRow
    | with_reducible apply Kept.updRing
    | with_reducible apply Kept.sendService
    | with_reducible refine Kept.foldl ?_ _ ?_
    | split

theorem KeptBy.memberFail {uu : Units} {zz s : State} (m : Master) (hk : Kept uu zz s)
    (hHce : uu.hce = true := by assumption) (hRfu : uu.rfu = true := by assumption) (hRge : uu.rge = true := by assumption)
    (hRfx : uu.rfx = true := by assumption) (hKvt : uu.kvt = true := by assumption) (hMbx : uu.mbx = true := by assumption)
    (hBay : uu.bay = true := by assumption) (hXbr : uu.xbr = true := by assumption) (hPwr : uu.pwr = true := by assumption)
    (hPmu : uu.pmu = true := by assumption) (hMoved : uu.moved = true := by assumption)
    (hOut : uu.out = true := by assumption) (hFree : uu.free = true := by assumption) :
    KeptBy uu zz (execMemberFail m s) := by
  unfold execMemberFail
  repeat' first
    | with_reducible assumption
    | exact {}
    | intro _
    | extract_lets +onlyGivenNames _
    | with_reducible refine KeptBy.next ?_
    | with_reducible apply Kept.runCmd
    | with_reducible apply Kept.checked
    | with_reducible apply Kept.memberFailed
    | with_reducible apply Kept.finish

theorem KeptBy.memberReplace {uu : Units} {zz s : State} (m : Master) (hk : Kept uu zz s)
    (hHce : uu.hce = true := by assumption) (hRfu : uu.rfu = true := by assumption) (hRge : uu.rge = true := by assumption)
    (hRfx : uu.rfx = true := by assumption) (hKvt : uu.kvt = true := by assumption) (hMbx : uu.mbx = true := by assumption)
    (hBay : uu.bay = true := by assumption) (hXbr : uu.xbr = true := by assumption) (hPwr : uu.pwr = true := by assumption)
    (hPmu : uu.pmu = true := by assumption) (hMoved : uu.moved = true := by assumption)
    (hOut : uu.out = true := by assumption) (hFree : uu.free = true := by assumption) :
    KeptBy uu zz (execMemberReplace m s) := by
  unfold execMemberReplace
  repeat' first
    | with_reducible assumption
    | exact {}
    | intro _
    | extract_lets +onlyGivenNames _
    | with_reducible refine KeptBy.next ?_
    | with_reducible apply Kept.runCmd
    | with_reducible apply Kept.checked
    | with_reducible apply Kept.acceptReplacement
    | with_reducible apply Kept.finish

theorem KeptBy.lostList {uu : Units} {zz s : State} (m : Master) (hk : Kept uu zz s) (hMbx : uu.mbx = true := by assumption)
    (hMoved : uu.moved = true := by assumption) (hOut : uu.out = true := by assumption) :
    KeptBy uu zz (execLostList m s) := by
  unfold execLostList
  repeat' first
    | with_reducible assumption
    | exact {}
    | intro _
    | extract_lets +onlyGivenNames _
    | with_reducible refine KeptBy.next ?_
    | with_reducible apply Kept.runCmd
    | with_reducible apply Kept.checked
    | with_reducible apply Kept.answer

end Sys2Proof.Machine
end

