-- ==== Sys2Proof/Laws/KeptDrives.lean ====
section
/-! SUPPORT. `Kept` for the operations of Machine/Drives.lean. -/

set_option Elab.async false

namespace Sys2Proof.Machine

theorem Kept.repairDone {uu : Units} {zz s : State} (ring : Nat) (stripe : Nat) (seq : Nat) (hk : Kept uu zz s)
    (hHce : uu.hce = true := by assumption) (hRfu : uu.rfu = true := by assumption) (hRge : uu.rge = true := by assumption)
    (hRfx : uu.rfx = true := by assumption) (hKvt : uu.kvt = true := by assumption) (hBay : uu.bay = true := by assumption)
    (hXbr : uu.xbr = true := by assumption) (hPwr : uu.pwr = true := by assumption) (hPmu : uu.pmu = true := by assumption)
    (hMoved : uu.moved = true := by assumption) (hOut : uu.out = true := by assumption)
    (hFree : uu.free = true := by assumption) : Kept uu zz (State.repairDone s ring stripe seq) := by
  unfold State.repairDone
  repeat' first
    | with_reducible assumption
    | exact {}
    | intro _
    | extract_lets +onlyGivenNames _
    | with_reducible apply Kept.tasksDone
    | with_reducible apply Kept.endTask
    | with_reducible apply Kept.startMends

theorem Kept.flushChunkLost {uu : Units} {zz s : State} (group : Nat) (pos : Nat) (hk : Kept uu zz s)
    (hHce : uu.hce = true := by assumption) : Kept uu zz (State.flushChunkLost s group pos) := by
  unfold State.flushChunkLost
  repeat' first
    | with_reducible assumption
    | exact {}
    | intro _
    | extract_lets +onlyGivenNames _
    | with_reducible apply Kept.updHce

theorem Kept.cmdPortFailed {uu : Units} {zz s : State} (c : MemberCmd) (hk : Kept uu zz s)
    (hHce : uu.hce = true := by assumption) (hRfu : uu.rfu = true := by assumption) (hRge : uu.rge = true := by assumption)
    (hRfx : uu.rfx = true := by assumption) (hKvt : uu.kvt = true := by assumption) (hBay : uu.bay = true := by assumption)
    (hXbr : uu.xbr = true := by assumption) (hPwr : uu.pwr = true := by assumption) (hPmu : uu.pmu = true := by assumption)
    (hMoved : uu.moved = true := by assumption) (hOut : uu.out = true := by assumption)
    (hFree : uu.free = true := by assumption) : Kept uu zz (State.cmdPortFailed s c) := by
  unfold State.cmdPortFailed
  repeat' first
    | with_reducible assumption
    | exact {}
    | intro _
    | (extract_lets +onlyGivenNames x; first | refine Kept.cut x ?_ ?_ <;> [subst x; (clear_value x; intro _)] | skip)
    | with_reducible apply Kept.dropCmd
    | with_reducible apply Kept.gatherBlock
    | with_reducible apply Kept.stripeCmdDone
    | with_reducible apply Kept.repairGone
    | with_reducible apply Kept.checkpointGone
    | with_reducible apply Kept.endHunt
    | with_reducible apply Kept.flushChunkLost
    | with_reducible refine Kept.foldl ?_ _ ?_
    | split

theorem Kept.failPort {uu : Units} {zz s : State} (port : Nat) (hk : Kept uu zz s) (hHce : uu.hce = true := by assumption)
    (hRfu : uu.rfu = true := by assumption) (hRge : uu.rge = true := by assumption) (hRfx : uu.rfx = true := by assumption)
    (hKvt : uu.kvt = true := by assumption) (hBay : uu.bay = true := by assumption) (hXbr : uu.xbr = true := by assumption)
    (hPwr : uu.pwr = true := by assumption) (hPmu : uu.pmu = true := by assumption)
    (hMoved : uu.moved = true := by assumption) (hOut : uu.out = true := by assumption)
    (hFree : uu.free = true := by assumption) : Kept uu zz (State.failPort s port) := by
  unfold State.failPort
  repeat' first
    | with_reducible assumption
    | exact {}
    | intro _
    | extract_lets +onlyGivenNames _
    | with_reducible apply Kept.cmdPortFailed
    | with_reducible refine Kept.foldl ?_ _ ?_

theorem Kept.dropDpRun {uu : Units} {zz s : State} (port : Nat) (hk : Kept uu zz s) (hLcu : uu.lcu = true := by assumption)
    : Kept uu zz (State.dropDpRun s port) := by
  unfold State.dropDpRun
  repeat' first
    | with_reducible assumption
    | exact {}
    | intro _
    | extract_lets +onlyGivenNames _
    | split
    | (with_reducible apply Kept.update) <;> [assumption; exact {}]

theorem Kept.linkOff {uu : Units} {zz s : State} (port : Nat) (presence : Bool) (hk : Kept uu zz s)
    (hHce : uu.hce = true := by assumption) (hRfu : uu.rfu = true := by assumption) (hRge : uu.rge = true := by assumption)
    (hRfx : uu.rfx = true := by assumption) (hKvt : uu.kvt = true := by assumption) (hBay : uu.bay = true := by assumption)
    (hXbr : uu.xbr = true := by assumption) (hPwr : uu.pwr = true := by assumption) (hLcu : uu.lcu = true := by assumption)
    (hPmu : uu.pmu = true := by assumption) (hMoved : uu.moved = true := by assumption)
    (hOut : uu.out = true := by assumption) (hFree : uu.free = true := by assumption) : Kept uu zz
    (State.linkOff s port presence) := by
  unfold State.linkOff
  repeat' first
    | with_reducible assumption
    | exact {}
    | intro _
    | (extract_lets +onlyGivenNames x; first | refine Kept.cut x ?_ ?_ <;> [subst x; (clear_value x; intro _)] | skip)
    | with_reducible apply Kept.train
    | with_reducible apply Kept.setPort
    | with_reducible apply Kept.emit
    | with_reducible apply Kept.dropDpRun
    | with_reducible apply Kept.failPort
    | with_reducible apply Kept.driveLost
    | split

theorem Kept.contain {uu : Units} {zz s : State} (port : Nat) (cause : Nat) (hk : Kept uu zz s)
    (hHce : uu.hce = true := by assumption) (hRfu : uu.rfu = true := by assumption) (hRge : uu.rge = true := by assumption)
    (hRfx : uu.rfx = true := by assumption) (hKvt : uu.kvt = true := by assumption) (hBay : uu.bay = true := by assumption)
    (hXbr : uu.xbr = true := by assumption) (hPwr : uu.pwr = true := by assumption) (hLcu : uu.lcu = true := by assumption)
    (hPmu : uu.pmu = true := by assumption) (hMoved : uu.moved = true := by assumption)
    (hOut : uu.out = true := by assumption) (hFree : uu.free = true := by assumption) : Kept uu zz
    (State.contain s port cause) := by
  unfold State.contain
  repeat' first
    | with_reducible assumption
    | exact {}
    | intro _
    | (extract_lets +onlyGivenNames x; first | refine Kept.cut x ?_ ?_ <;> [subst x; (clear_value x; intro _)] | skip)
    | with_reducible apply Kept.setPort
    | with_reducible apply Kept.bump
    | with_reducible apply Kept.dropDpRun
    | with_reducible apply Kept.failPort
    | with_reducible apply Kept.driveLost
    | split

theorem Kept.release {uu : Units} {zz s : State} (port : Nat) (hk : Kept uu zz s) (hBay : uu.bay = true := by assumption)
    : Kept uu zz (State.release s port) := by
  unfold State.release
  repeat' first
    | with_reducible assumption
    | exact {}
    | intro _
    | (extract_lets +onlyGivenNames x; first | refine Kept.cut x ?_ ?_ <;> [subst x; (clear_value x; intro _)] | skip)
    | with_reducible apply Kept.setPort
    | with_reducible apply Kept.train
    | split

theorem Kept.dpcrelWrite {uu : Units} {zz s : State} (w : Word) (hk : Kept uu zz s) (hBay : uu.bay = true := by assumption)
    : Kept uu zz (State.dpcrelWrite s w) := by
  unfold State.dpcrelWrite
  repeat' first
    | with_reducible assumption
    | exact {}
    | intro _
    | extract_lets +onlyGivenNames _
    | with_reducible apply Kept.release
    | with_reducible refine Kept.foldl ?_ _ ?_
    | split

theorem Kept.writeFailed {uu : Units} {zz s : State} (c : MemberCmd) (dnr : Bool) (hk : Kept uu zz s)
    (hHce : uu.hce = true := by assumption) (hRfu : uu.rfu = true := by assumption) (hRge : uu.rge = true := by assumption)
    (hRfx : uu.rfx = true := by assumption) (hKvt : uu.kvt = true := by assumption) (hBay : uu.bay = true := by assumption)
    (hXbr : uu.xbr = true := by assumption) (hPwr : uu.pwr = true := by assumption) (hPmu : uu.pmu = true := by assumption)
    (hMoved : uu.moved = true := by assumption) (hOut : uu.out = true := by assumption)
    (hFree : uu.free = true := by assumption) : Kept uu zz (State.writeFailed s c dnr) := by
  unfold State.writeFailed
  repeat' first
    | with_reducible assumption
    | exact {}
    | intro _
    | (extract_lets +onlyGivenNames x; first | refine Kept.cut x ?_ ?_ <;> [subst x; (clear_value x; intro _)] | skip)
    | with_reducible apply Kept.cmdPortFailed
    | with_reducible apply Kept.updRge
    | with_reducible apply Kept.emit
    | with_reducible apply Kept.bump
    | with_reducible apply Kept.stripeCmdDone
    | with_reducible apply Kept.memberFailed
    | with_reducible apply Kept.repairGone
    | with_reducible apply Kept.checkpointGone
    | with_reducible apply Kept.driveFailed
    | with_reducible apply Kept.flushChunkLost
    | split
    | (with_reducible apply Kept.update) <;> [assumption; exact {}]

theorem Kept.readFailed {uu : Units} {zz s : State} (c : MemberCmd) (hk : Kept uu zz s)
    (hHce : uu.hce = true := by assumption) (hRfu : uu.rfu = true := by assumption) (hRge : uu.rge = true := by assumption)
    (hRfx : uu.rfx = true := by assumption) (hKvt : uu.kvt = true := by assumption) (hBay : uu.bay = true := by assumption)
    (hXbr : uu.xbr = true := by assumption) (hPwr : uu.pwr = true := by assumption) (hPmu : uu.pmu = true := by assumption)
    (hMoved : uu.moved = true := by assumption) (hOut : uu.out = true := by assumption)
    (hFree : uu.free = true := by assumption) : Kept uu zz (State.readFailed s c) := by
  unfold State.readFailed
  repeat' first
    | with_reducible assumption
    | exact {}
    | intro _
    | extract_lets +onlyGivenNames _
    | with_reducible apply Kept.gatherBlock
    | with_reducible apply Kept.endHunt
    | with_reducible refine Kept.foldl ?_ _ ?_
    | split

theorem Kept.takeCheckpoint {uu : Units} {zz s : State} (ring : Nat) (bs : List MemberBlock) (hk : Kept uu zz s)
    (hRge : uu.rge = true := by assumption) : Kept uu zz (State.takeCheckpoint s ring bs) := by
  unfold State.takeCheckpoint
  repeat' first
    | with_reducible assumption
    | exact {}
    | intro _
    | extract_lets +onlyGivenNames _
    | with_reducible apply Kept.updRing
    | with_reducible refine Kept.foldl ?_ _ ?_
    | split

theorem Kept.cmdSucceeded {uu : Units} {zz s : State} (c : MemberCmd) (blocks : List MemberBlock) (hk : Kept uu zz s)
    (hHce : uu.hce = true := by assumption) (hRfu : uu.rfu = true := by assumption) (hRge : uu.rge = true := by assumption)
    (hRfx : uu.rfx = true := by assumption) (hKvt : uu.kvt = true := by assumption) (hBay : uu.bay = true := by assumption)
    (hXbr : uu.xbr = true := by assumption) (hPwr : uu.pwr = true := by assumption) (hPmu : uu.pmu = true := by assumption)
    (hMoved : uu.moved = true := by assumption) (hOut : uu.out = true := by assumption)
    (hFree : uu.free = true := by assumption) : Kept uu zz (State.cmdSucceeded s c blocks) := by
  unfold State.cmdSucceeded
  repeat' first
    | with_reducible assumption
    | exact {}
    | intro _
    | (extract_lets +onlyGivenNames x; first | refine Kept.cut x ?_ ?_ <;> [subst x; (clear_value x; intro _)] | skip)
    | with_reducible apply Kept.gatherBlock
    | with_reducible apply Kept.stripeCmdDone
    | with_reducible apply Kept.repairDone
    | with_reducible apply Kept.updRing
    | with_reducible apply Kept.setSlot
    | with_reducible apply Kept.reask
    | with_reducible apply Kept.takeCheckpoint
    | with_reducible apply Kept.endHunt
    | with_reducible refine Kept.foldl ?_ _ ?_
    | split

theorem Kept.gateTo {uu : Units} {zz s : State} (b : Nat) (on : Bool) (hk : Kept uu zz s)
    (hBay : uu.bay = true := by assumption) (hOut : uu.out = true := by assumption) : Kept uu zz (State.gateTo s b on) := by
  unfold State.gateTo
  repeat' first
    | with_reducible assumption
    | exact {}
    | intro _
    | (extract_lets +onlyGivenNames x; refine Kept.cut x ?_ ?_ <;> [subst x; (clear_value x; intro _)])
    | with_reducible apply Kept.setBay
    | with_reducible apply Kept.emitAll
    | split

theorem Kept.powerOff {uu : Units} {zz s : State} (b : Nat) (st : BaySt) (hk : Kept uu zz s)
    (hHce : uu.hce = true := by assumption) (hRfu : uu.rfu = true := by assumption) (hRge : uu.rge = true := by assumption)
    (hRfx : uu.rfx = true := by assumption) (hKvt : uu.kvt = true := by assumption) (hBay : uu.bay = true := by assumption)
    (hXbr : uu.xbr = true := by assumption) (hPwr : uu.pwr = true := by assumption) (hLcu : uu.lcu = true := by assumption)
    (hPmu : uu.pmu = true := by assumption) (hMoved : uu.moved = true := by assumption)
    (hOut : uu.out = true := by assumption) (hFree : uu.free = true := by assumption) : Kept uu zz
    (State.powerOff s b st) := by
  unfold State.powerOff
  repeat' first
    | with_reducible assumption
    | exact {}
    | intro _
    | (extract_lets +onlyGivenNames x; first | refine Kept.cut x ?_ ?_ <;> [subst x; (clear_value x; intro _)] | skip)
    | with_reducible apply Kept.gateTo
    | with_reducible apply Kept.linkOff
    | with_reducible apply Kept.setBay

theorem Kept.bayFault {uu : Units} {zz s : State} (b : Nat) (code : Nat) (hk : Kept uu zz s)
    (hHce : uu.hce = true := by assumption) (hRfu : uu.rfu = true := by assumption) (hRge : uu.rge = true := by assumption)
    (hRfx : uu.rfx = true := by assumption) (hKvt : uu.kvt = true := by assumption) (hBay : uu.bay = true := by assumption)
    (hXbr : uu.xbr = true := by assumption) (hPwr : uu.pwr = true := by assumption) (hLcu : uu.lcu = true := by assumption)
    (hPmu : uu.pmu = true := by assumption) (hMoved : uu.moved = true := by assumption)
    (hOut : uu.out = true := by assumption) (hFree : uu.free = true := by assumption) : Kept uu zz
    (State.bayFault s b code) := by
  unfold State.bayFault
  repeat' first
    | with_reducible assumption
    | exact {}
    | intro _
    | extract_lets +onlyGivenNames _
    | with_reducible apply Kept.powerOff
    | with_reducible apply Kept.setBay
    | split

theorem Kept.takeBays {uu : Units} {zz s : State} (hk : Kept uu zz s) (hBay : uu.bay = true := by assumption)
    (hOut : uu.out = true := by assumption) : Kept uu zz (State.takeBays s) := by
  unfold State.takeBays
  repeat' first
    | with_reducible assumption
    | exact {}
    | intro _
    | (extract_lets +onlyGivenNames x; first | refine Kept.cut x ?_ ?_ <;> [subst x; (clear_value x; intro _)] | skip)
    | with_reducible apply Kept.setBay
    | with_reducible apply Kept.gateTo
    | with_reducible refine Kept.foldl ?_ _ ?_
    | split
    | (with_reducible apply Kept.update) <;> [assumption; exact {}]

theorem Kept.dropBays {uu : Units} {zz s : State} (hk : Kept uu zz s) (hBay : uu.bay = true := by assumption) : Kept uu zz
    (State.dropBays s) := by
  unfold State.dropBays
  repeat' first
    | with_reducible assumption
    | exact {}
    | intro _
    | extract_lets +onlyGivenNames _
    | split
    | (with_reducible apply Kept.update) <;> [assumption; exact {}]

/-! ## The commands -/

theorem KeptBy.driveLinkL0 {uu : Units} {zz s : State} (port : Nat) (speed : Nat) (width : Nat) (hk : Kept uu zz s)
    (hHce : uu.hce = true := by assumption) (hRfu : uu.rfu = true := by assumption) (hRge : uu.rge = true := by assumption)
    (hRfx : uu.rfx = true := by assumption) (hKvt : uu.kvt = true := by assumption) (hBay : uu.bay = true := by assumption)
    (hXbr : uu.xbr = true := by assumption) (hPwr : uu.pwr = true := by assumption) (hLcu : uu.lcu = true := by assumption)
    (hPmu : uu.pmu = true := by assumption) (hMoved : uu.moved = true := by assumption)
    (hOut : uu.out = true := by assumption) (hFree : uu.free = true := by assumption) :
    KeptBy uu zz (execDriveLinkL0 port speed width s) := by
  unfold execDriveLinkL0
  repeat' first
    | with_reducible assumption
    | exact {}
    | intro _
    | extract_lets +onlyGivenNames _
    | with_reducible refine KeptBy.next ?_
    | with_reducible apply Kept.train
    | with_reducible apply Kept.setPort
    | with_reducible apply Kept.endDpRun
    | split

theorem KeptBy.linkTrainingTimeout {uu : Units} {zz s : State} (port : Nat) (hk : Kept uu zz s)
    (hHce : uu.hce = true := by assumption) (hRfu : uu.rfu = true := by assumption) (hRge : uu.rge = true := by assumption)
    (hRfx : uu.rfx = true := by assumption) (hKvt : uu.kvt = true := by assumption) (hBay : uu.bay = true := by assumption)
    (hXbr : uu.xbr = true := by assumption) (hPwr : uu.pwr = true := by assumption) (hLcu : uu.lcu = true := by assumption)
    (hPmu : uu.pmu = true := by assumption) (hMoved : uu.moved = true := by assumption)
    (hOut : uu.out = true := by assumption) (hFree : uu.free = true := by assumption) :
    KeptBy uu zz (execLinkTrainingTimeout port s) := by
  unfold execLinkTrainingTimeout
  repeat' first
    | with_reducible assumption
    | exact {}
    | intro _
    | (extract_lets +onlyGivenNames x; first | refine Kept.cut x ?_ ?_ <;> [subst x; (clear_value x; intro _)] | refine KeptBy.cut x ?_ ?_ <;> [subst x; (clear_value x; intro _)] | skip)
    | with_reducible refine KeptBy.next ?_
    | with_reducible apply Kept.train
    | with_reducible apply Kept.setPort
    | with_reducible apply Kept.emitAll
    | with_reducible apply Kept.dropDpRun
    | with_reducible apply Kept.driveLost
    | split

theorem KeptBy.dpxCompletionTimeout {uu : Units} {zz s : State} (port : Nat) (tag : Nat) (hk : Kept uu zz s)
    (hHce : uu.hce = true := by assumption) (hRfu : uu.rfu = true := by assumption) (hRge : uu.rge = true := by assumption)
    (hRfx : uu.rfx = true := by assumption) (hKvt : uu.kvt = true := by assumption) (hBay : uu.bay = true := by assumption)
    (hXbr : uu.xbr = true := by assumption) (hPwr : uu.pwr = true := by assumption) (hLcu : uu.lcu = true := by assumption)
    (hPmu : uu.pmu = true := by assumption) (hMoved : uu.moved = true := by assumption)
    (hOut : uu.out = true := by assumption) (hFree : uu.free = true := by assumption) :
    KeptBy uu zz (execDpxCompletionTimeout port tag s) := by
  unfold execDpxCompletionTimeout
  repeat' first
    | with_reducible assumption
    | exact {}
    | intro _
    | extract_lets +onlyGivenNames _
    | with_reducible refine KeptBy.next ?_
    | with_reducible apply Kept.bump
    | with_reducible apply Kept.contain
    | with_reducible apply Kept.setPort
    | with_reducible apply Kept.freeTag
    | split

theorem KeptBy.dpxQuarantineExpiry {uu : Units} {zz s : State} (port : Nat) (tag : Nat) (hk : Kept uu zz s)
    (hBay : uu.bay = true := by assumption) :
    KeptBy uu zz (execDpxQuarantineExpiry port tag s) := by
  unfold execDpxQuarantineExpiry
  repeat' first
    | with_reducible assumption
    | exact {}
    | intro _
    | extract_lets +onlyGivenNames _
    | with_reducible refine KeptBy.next ?_
    | with_reducible apply Kept.setPort

theorem KeptBy.surpriseLinkDown {uu : Units} {zz s : State} (port : Nat) (hk : Kept uu zz s)
    (hHce : uu.hce = true := by assumption) (hRfu : uu.rfu = true := by assumption) (hRge : uu.rge = true := by assumption)
    (hRfx : uu.rfx = true := by assumption) (hKvt : uu.kvt = true := by assumption) (hBay : uu.bay = true := by assumption)
    (hXbr : uu.xbr = true := by assumption) (hPwr : uu.pwr = true := by assumption) (hLcu : uu.lcu = true := by assumption)
    (hPmu : uu.pmu = true := by assumption) (hMoved : uu.moved = true := by assumption)
    (hOut : uu.out = true := by assumption) (hFree : uu.free = true := by assumption) :
    KeptBy uu zz (execSurpriseLinkDown port s) := by
  unfold execSurpriseLinkDown
  repeat' first
    | with_reducible assumption
    | exact {}
    | intro _
    | extract_lets +onlyGivenNames _
    | with_reducible refine KeptBy.next ?_
    | with_reducible apply Kept.train
    | with_reducible apply Kept.contain
    | split

theorem KeptBy.drivePortFatalError {uu : Units} {zz s : State} (port : Nat) (hk : Kept uu zz s)
    (hHce : uu.hce = true := by assumption) (hRfu : uu.rfu = true := by assumption) (hRge : uu.rge = true := by assumption)
    (hRfx : uu.rfx = true := by assumption) (hKvt : uu.kvt = true := by assumption) (hBay : uu.bay = true := by assumption)
    (hXbr : uu.xbr = true := by assumption) (hPwr : uu.pwr = true := by assumption) (hLcu : uu.lcu = true := by assumption)
    (hPmu : uu.pmu = true := by assumption) (hMoved : uu.moved = true := by assumption)
    (hOut : uu.out = true := by assumption) (hFree : uu.free = true := by assumption) :
    KeptBy uu zz (execDrivePortFatalError port s) := by
  unfold execDrivePortFatalError
  repeat' first
    | with_reducible assumption
    | exact {}
    | intro _
    | extract_lets +onlyGivenNames _
    | with_reducible refine KeptBy.next ?_
    | with_reducible apply Kept.train
    | with_reducible apply Kept.contain
    | split

theorem KeptBy.containmentHoldExpiry {uu : Units} {zz s : State} (port : Nat) (hk : Kept uu zz s)
    (hBay : uu.bay = true := by assumption) :
    KeptBy uu zz (execContainmentHoldExpiry port s) := by
  unfold execContainmentHoldExpiry
  repeat' first
    | with_reducible assumption
    | exact {}
    | intro _
    | extract_lets +onlyGivenNames _
    | with_reducible refine KeptBy.next ?_
    | with_reducible apply Kept.release
    | split

theorem KeptBy.dpcrelWrite {uu : Units} {zz s : State} (w : Word) (hk : Kept uu zz s)
    (hBay : uu.bay = true := by assumption) :
    KeptBy uu zz (execDpcrelWrite w s) := by
  unfold execDpcrelWrite
  repeat' first
    | with_reducible assumption
    | exact {}
    | intro _
    | extract_lets +onlyGivenNames _
    | with_reducible refine KeptBy.next ?_
    | with_reducible apply Kept.dpcrelWrite

theorem KeptBy.memberCommandCompletion {uu : Units} {zz s : State} (id : Nat) (result : MemberResult)
    (blocks : List MemberBlock) (hk : Kept uu zz s) (hHce : uu.hce = true := by assumption)
    (hRfu : uu.rfu = true := by assumption) (hRge : uu.rge = true := by assumption) (hRfx : uu.rfx = true := by assumption)
    (hKvt : uu.kvt = true := by assumption) (hBay : uu.bay = true := by assumption) (hXbr : uu.xbr = true := by assumption)
    (hPwr : uu.pwr = true := by assumption) (hPmu : uu.pmu = true := by assumption)
    (hMoved : uu.moved = true := by assumption) (hOut : uu.out = true := by assumption)
    (hFree : uu.free = true := by assumption) :
    KeptBy uu zz (execMemberCommandCompletion id result blocks s) := by
  unfold execMemberCommandCompletion
  repeat' first
    | with_reducible assumption
    | exact {}
    | intro _
    | (extract_lets +onlyGivenNames x; first | refine Kept.cut x ?_ ?_ <;> [subst x; (clear_value x; intro _)] | refine KeptBy.cut x ?_ ?_ <;> [subst x; (clear_value x; intro _)] | skip)
    | with_reducible refine KeptBy.next ?_
    | with_reducible apply Kept.setPort
    | with_reducible apply Kept.bump
    | with_reducible apply Kept.dropCmd
    | with_reducible apply Kept.cmdSucceeded
    | with_reducible apply Kept.readFailed
    | with_reducible apply Kept.writeFailed
    | split

theorem KeptBy.memberCommandTimeout {uu : Units} {zz s : State} (id : Nat) (hk : Kept uu zz s)
    (hHce : uu.hce = true := by assumption) (hRfu : uu.rfu = true := by assumption) (hRge : uu.rge = true := by assumption)
    (hRfx : uu.rfx = true := by assumption) (hKvt : uu.kvt = true := by assumption) (hBay : uu.bay = true := by assumption)
    (hXbr : uu.xbr = true := by assumption) (hPwr : uu.pwr = true := by assumption) (hPmu : uu.pmu = true := by assumption)
    (hMoved : uu.moved = true := by assumption) (hOut : uu.out = true := by assumption)
    (hFree : uu.free = true := by assumption) :
    KeptBy uu zz (execMemberCommandTimeout id s) := by
  unfold execMemberCommandTimeout
  repeat' first
    | with_reducible assumption
    | exact {}
    | intro _
    | (extract_lets +onlyGivenNames x; first | refine Kept.cut x ?_ ?_ <;> [subst x; (clear_value x; intro _)] | refine KeptBy.cut x ?_ ?_ <;> [subst x; (clear_value x; intro _)] | skip)
    | with_reducible refine KeptBy.next ?_
    | with_reducible apply Kept.emit
    | with_reducible apply Kept.readFailed
    | with_reducible apply Kept.writeFailed
    | split
    | (with_reducible apply Kept.update) <;> [assumption; exact {}]

theorem KeptBy.memberAbortTimeout {uu : Units} {zz s : State} (id : Nat) (hk : Kept uu zz s)
    (hHce : uu.hce = true := by assumption) (hRfu : uu.rfu = true := by assumption) (hRge : uu.rge = true := by assumption)
    (hRfx : uu.rfx = true := by assumption) (hKvt : uu.kvt = true := by assumption) (hBay : uu.bay = true := by assumption)
    (hXbr : uu.xbr = true := by assumption) (hPwr : uu.pwr = true := by assumption) (hLcu : uu.lcu = true := by assumption)
    (hPmu : uu.pmu = true := by assumption) (hMoved : uu.moved = true := by assumption)
    (hOut : uu.out = true := by assumption) (hFree : uu.free = true := by assumption) :
    KeptBy uu zz (execMemberAbortTimeout id s) := by
  unfold execMemberAbortTimeout
  repeat' first
    | with_reducible assumption
    | exact {}
    | intro _
    | extract_lets +onlyGivenNames _
    | with_reducible refine KeptBy.next ?_
    | with_reducible apply Kept.dropCmd
    | with_reducible apply Kept.contain
    | split

theorem KeptBy.hedgeExpiry {uu : Units} {zz s : State} (id : Nat) (hk : Kept uu zz s)
    (hHce : uu.hce = true := by assumption) (hRfu : uu.rfu = true := by assumption) (hRge : uu.rge = true := by assumption)
    (hRfx : uu.rfx = true := by assumption) (hKvt : uu.kvt = true := by assumption) (hBay : uu.bay = true := by assumption)
    (hXbr : uu.xbr = true := by assumption) (hPwr : uu.pwr = true := by assumption) (hPmu : uu.pmu = true := by assumption)
    (hMoved : uu.moved = true := by assumption) (hOut : uu.out = true := by assumption)
    (hFree : uu.free = true := by assumption) :
    KeptBy uu zz (execHedgeExpiry id s) := by
  unfold execHedgeExpiry
  repeat' first
    | with_reducible assumption
    | exact {}
    | intro _
    | (extract_lets +onlyGivenNames x; first | refine Kept.cut x ?_ ?_ <;> [subst x; (clear_value x; intro _)] | refine KeptBy.cut x ?_ ?_ <;> [subst x; (clear_value x; intro _)] | skip)
    | with_reducible refine KeptBy.next ?_
    | with_reducible apply Kept.gatherBlock
    | with_reducible apply Kept.bump
    | with_reducible refine Kept.foldl ?_ _ ?_
    | split
    | (with_reducible apply Kept.update) <;> [assumption; exact {}]

theorem KeptBy.presenceAssert {uu : Units} {zz s : State} (bay : Nat) (hk : Kept uu zz s)
    (hBay : uu.bay = true := by assumption) :
    KeptBy uu zz (execPresenceAssert bay s) := by
  unfold execPresenceAssert
  repeat' first
    | with_reducible assumption
    | exact {}
    | intro _
    | extract_lets +onlyGivenNames _
    | with_reducible refine KeptBy.next ?_
    | with_reducible apply Kept.setBay
    | split

theorem KeptBy.debounceComplete {uu : Units} {zz s : State} (bay : Nat) (hk : Kept uu zz s)
    (hBay : uu.bay = true := by assumption) :
    KeptBy uu zz (execDebounceComplete bay s) := by
  unfold execDebounceComplete
  repeat' first
    | with_reducible assumption
    | exact {}
    | intro _
    | (extract_lets +onlyGivenNames x; first | refine Kept.cut x ?_ ?_ <;> [subst x; (clear_value x; intro _)] | refine KeptBy.cut x ?_ ?_ <;> [subst x; (clear_value x; intro _)] | skip)
    | with_reducible refine KeptBy.next ?_
    | with_reducible apply Kept.setBay
    | with_reducible apply Kept.setPort
    | split

theorem KeptBy.presenceLoss {uu : Units} {zz s : State} (bay : Nat) (hk : Kept uu zz s)
    (hHce : uu.hce = true := by assumption) (hRfu : uu.rfu = true := by assumption) (hRge : uu.rge = true := by assumption)
    (hRfx : uu.rfx = true := by assumption) (hKvt : uu.kvt = true := by assumption) (hBay : uu.bay = true := by assumption)
    (hXbr : uu.xbr = true := by assumption) (hPwr : uu.pwr = true := by assumption) (hLcu : uu.lcu = true := by assumption)
    (hPmu : uu.pmu = true := by assumption) (hMoved : uu.moved = true := by assumption)
    (hOut : uu.out = true := by assumption) (hFree : uu.free = true := by assumption) :
    KeptBy uu zz (execPresenceLoss bay s) := by
  unfold execPresenceLoss
  repeat' first
    | with_reducible assumption
    | exact {}
    | intro _
    | (extract_lets +onlyGivenNames x; first | refine Kept.cut x ?_ ?_ <;> [subst x; (clear_value x; intro _)] | refine KeptBy.cut x ?_ ?_ <;> [subst x; (clear_value x; intro _)] | skip)
    | with_reducible refine KeptBy.next ?_
    | with_reducible apply Kept.setBay
    | with_reducible apply Kept.contain
    | with_reducible apply Kept.setPort
    | with_reducible apply Kept.powerOff
    | split

theorem KeptBy.rampStart {uu : Units} {zz s : State} (bay : Nat) (hk : Kept uu zz s) (hHce : uu.hce = true := by assumption)
    (hRfu : uu.rfu = true := by assumption) (hRge : uu.rge = true := by assumption) (hRfx : uu.rfx = true := by assumption)
    (hKvt : uu.kvt = true := by assumption) (hBay : uu.bay = true := by assumption) (hXbr : uu.xbr = true := by assumption)
    (hPwr : uu.pwr = true := by assumption) (hLcu : uu.lcu = true := by assumption) (hPmu : uu.pmu = true := by assumption)
    (hMoved : uu.moved = true := by assumption) (hOut : uu.out = true := by assumption)
    (hFree : uu.free = true := by assumption) :
    KeptBy uu zz (execRampStart bay s) := by
  unfold execRampStart
  repeat' first
    | with_reducible assumption
    | exact {}
    | intro _
    | extract_lets +onlyGivenNames _
    | with_reducible refine KeptBy.next ?_
    | with_reducible apply Kept.powerOff
    | with_reducible apply Kept.gateTo
    | with_reducible apply Kept.setBay
    | split

theorem KeptBy.powerGood {uu : Units} {zz s : State} (bay : Nat) (hk : Kept uu zz s)
    (hBay : uu.bay = true := by assumption) :
    KeptBy uu zz (execPowerGood bay s) := by
  unfold execPowerGood
  repeat' first
    | with_reducible assumption
    | exact {}
    | intro _
    | extract_lets +onlyGivenNames _
    | with_reducible refine KeptBy.next ?_
    | with_reducible apply Kept.setBay
    | split

theorem KeptBy.pgtimeout {uu : Units} {zz s : State} (bay : Nat) (hk : Kept uu zz s) (hHce : uu.hce = true := by assumption)
    (hRfu : uu.rfu = true := by assumption) (hRge : uu.rge = true := by assumption) (hRfx : uu.rfx = true := by assumption)
    (hKvt : uu.kvt = true := by assumption) (hBay : uu.bay = true := by assumption) (hXbr : uu.xbr = true := by assumption)
    (hPwr : uu.pwr = true := by assumption) (hLcu : uu.lcu = true := by assumption) (hPmu : uu.pmu = true := by assumption)
    (hMoved : uu.moved = true := by assumption) (hOut : uu.out = true := by assumption)
    (hFree : uu.free = true := by assumption) :
    KeptBy uu zz (execPgtimeout bay s) := by
  unfold execPgtimeout
  repeat' first
    | with_reducible assumption
    | exact {}
    | intro _
    | extract_lets +onlyGivenNames _
    | with_reducible refine KeptBy.next ?_
    | with_reducible apply Kept.bayFault
    | split

theorem KeptBy.overcurrent {uu : Units} {zz s : State} (bay : Nat) (hk : Kept uu zz s)
    (hHce : uu.hce = true := by assumption) (hRfu : uu.rfu = true := by assumption) (hRge : uu.rge = true := by assumption)
    (hRfx : uu.rfx = true := by assumption) (hKvt : uu.kvt = true := by assumption) (hBay : uu.bay = true := by assumption)
    (hXbr : uu.xbr = true := by assumption) (hPwr : uu.pwr = true := by assumption) (hLcu : uu.lcu = true := by assumption)
    (hPmu : uu.pmu = true := by assumption) (hMoved : uu.moved = true := by assumption)
    (hOut : uu.out = true := by assumption) (hFree : uu.free = true := by assumption) :
    KeptBy uu zz (execOvercurrent bay s) := by
  unfold execOvercurrent
  repeat' first
    | with_reducible assumption
    | exact {}
    | intro _
    | extract_lets +onlyGivenNames _
    | with_reducible refine KeptBy.next ?_
    | with_reducible apply Kept.bayFault
    | split

theorem KeptBy.fasttrip {uu : Units} {zz s : State} (bay : Nat) (hk : Kept uu zz s) (hHce : uu.hce = true := by assumption)
    (hRfu : uu.rfu = true := by assumption) (hRge : uu.rge = true := by assumption) (hRfx : uu.rfx = true := by assumption)
    (hKvt : uu.kvt = true := by assumption) (hBay : uu.bay = true := by assumption) (hXbr : uu.xbr = true := by assumption)
    (hPwr : uu.pwr = true := by assumption) (hLcu : uu.lcu = true := by assumption) (hPmu : uu.pmu = true := by assumption)
    (hMoved : uu.moved = true := by assumption) (hOut : uu.out = true := by assumption)
    (hFree : uu.free = true := by assumption) :
    KeptBy uu zz (execFasttrip bay s) := by
  unfold execFasttrip
  repeat' first
    | with_reducible assumption
    | exact {}
    | intro _
    | extract_lets +onlyGivenNames _
    | with_reducible refine KeptBy.next ?_
    | with_reducible apply Kept.bayFault
    | split

theorem KeptBy.undervolt {uu : Units} {zz s : State} (bay : Nat) (hk : Kept uu zz s) (hHce : uu.hce = true := by assumption)
    (hRfu : uu.rfu = true := by assumption) (hRge : uu.rge = true := by assumption) (hRfx : uu.rfx = true := by assumption)
    (hKvt : uu.kvt = true := by assumption) (hBay : uu.bay = true := by assumption) (hXbr : uu.xbr = true := by assumption)
    (hPwr : uu.pwr = true := by assumption) (hLcu : uu.lcu = true := by assumption) (hPmu : uu.pmu = true := by assumption)
    (hMoved : uu.moved = true := by assumption) (hOut : uu.out = true := by assumption)
    (hFree : uu.free = true := by assumption) :
    KeptBy uu zz (execUndervolt bay s) := by
  unfold execUndervolt
  repeat' first
    | with_reducible assumption
    | exact {}
    | intro _
    | extract_lets +onlyGivenNames _
    | with_reducible refine KeptBy.next ?_
    | with_reducible apply Kept.bayFault
    | split

theorem KeptBy.perstDelayExpiry {uu : Units} {zz s : State} (bay : Nat) (hk : Kept uu zz s)
    (hBay : uu.bay = true := by assumption) (hOut : uu.out = true := by assumption) :
    KeptBy uu zz (execPerstDelayExpiry bay s) := by
  unfold execPerstDelayExpiry
  repeat' first
    | with_reducible assumption
    | exact {}
    | intro _
    | (extract_lets +onlyGivenNames x; first | refine Kept.cut x ?_ ?_ <;> [subst x; (clear_value x; intro _)] | refine KeptBy.cut x ?_ ?_ <;> [subst x; (clear_value x; intro _)] | skip)
    | with_reducible refine KeptBy.next ?_
    | with_reducible apply Kept.setBay
    | with_reducible apply Kept.setPort
    | with_reducible apply Kept.emit
    | with_reducible apply Kept.train
    | split

theorem KeptBy.bayReady {uu : Units} {zz s : State} (bay : Nat) (hk : Kept uu zz s)
    (hBay : uu.bay = true := by assumption) :
    KeptBy uu zz (execBayReady bay s) := by
  unfold execBayReady
  repeat' first
    | with_reducible assumption
    | exact {}
    | intro _
    | extract_lets +onlyGivenNames _
    | with_reducible refine KeptBy.next ?_
    | with_reducible apply Kept.train
    | with_reducible apply Kept.setBay
    | with_reducible apply Kept.setPort
    | split

theorem KeptBy.retryExpiry {uu : Units} {zz s : State} (bay : Nat) (hk : Kept uu zz s)
    (hBay : uu.bay = true := by assumption) :
    KeptBy uu zz (execRetryExpiry bay s) := by
  unfold execRetryExpiry
  repeat' first
    | with_reducible assumption
    | exact {}
    | intro _
    | extract_lets +onlyGivenNames _
    | with_reducible refine KeptBy.next ?_
    | with_reducible apply Kept.setBay
    | split

theorem KeptBy.bayInputFault {uu : Units} {zz s : State} (hk : Kept uu zz s) (hHce : uu.hce = true := by assumption)
    (hRfu : uu.rfu = true := by assumption) (hRge : uu.rge = true := by assumption) (hRfx : uu.rfx = true := by assumption)
    (hKvt : uu.kvt = true := by assumption) (hBay : uu.bay = true := by assumption) (hXbr : uu.xbr = true := by assumption)
    (hPwr : uu.pwr = true := by assumption) (hLcu : uu.lcu = true := by assumption) (hPmu : uu.pmu = true := by assumption)
    (hMoved : uu.moved = true := by assumption) (hOut : uu.out = true := by assumption)
    (hFree : uu.free = true := by assumption) :
    KeptBy uu zz (execBayInputFault s) := by
  unfold execBayInputFault
  repeat' first
    | with_reducible assumption
    | exact {}
    | intro _
    | (extract_lets +onlyGivenNames x; first | refine Kept.cut x ?_ ?_ <;> [subst x; (clear_value x; intro _)] | refine KeptBy.cut x ?_ ?_ <;> [subst x; (clear_value x; intro _)] | skip)
    | with_reducible refine KeptBy.next ?_
    | with_reducible apply Kept.powerOff
    | with_reducible apply Kept.setBay
    | with_reducible refine Kept.foldl ?_ _ ?_
    | split
    | (with_reducible apply Kept.update) <;> [assumption; exact {}]

theorem KeptBy.bayInputRestored {uu : Units} {zz s : State} (hk : Kept uu zz s) (hBay : uu.bay = true := by assumption) :
    KeptBy uu zz (execBayInputRestored s) := by
  unfold execBayInputRestored
  repeat' first
    | with_reducible assumption
    | exact {}
    | intro _
    | extract_lets +onlyGivenNames _
    | with_reducible refine KeptBy.next ?_
    | split
    | (with_reducible apply Kept.update) <;> [assumption; exact {}]

theorem KeptBy.bholdARise {uu : Units} {zz s : State} (hk : Kept uu zz s) (hBay : uu.bay = true := by assumption)
    (hOut : uu.out = true := by assumption) :
    KeptBy uu zz (execBholdARise s) := by
  unfold execBholdARise
  repeat' first
    | with_reducible assumption
    | exact {}
    | intro _
    | (extract_lets +onlyGivenNames x; first | refine Kept.cut x ?_ ?_ <;> [subst x; (clear_value x; intro _)] | refine KeptBy.cut x ?_ ?_ <;> [subst x; (clear_value x; intro _)] | skip)
    | with_reducible refine KeptBy.next ?_
    | with_reducible apply Kept.takeBays
    | split
    | (with_reducible apply Kept.update) <;> [assumption; exact {}]

theorem KeptBy.bholdAFall {uu : Units} {zz s : State} (hk : Kept uu zz s) (hBay : uu.bay = true := by assumption) :
    KeptBy uu zz (execBholdAFall s) := by
  unfold execBholdAFall
  repeat' first
    | with_reducible assumption
    | exact {}
    | intro _
    | (extract_lets +onlyGivenNames x; first | refine Kept.cut x ?_ ?_ <;> [subst x; (clear_value x; intro _)] | refine KeptBy.cut x ?_ ?_ <;> [subst x; (clear_value x; intro _)] | skip)
    | with_reducible refine KeptBy.next ?_
    | with_reducible apply Kept.dropBays
    | split
    | (with_reducible apply Kept.update) <;> [assumption; exact {}]

theorem KeptBy.holderRegain {uu : Units} {zz s : State} (hk : Kept uu zz s) (hBay : uu.bay = true := by assumption)
    (hOut : uu.out = true := by assumption) :
    KeptBy uu zz (execHolderRegain s) := by
  unfold execHolderRegain
  repeat' first
    | with_reducible assumption
    | exact {}
    | intro _
    | extract_lets +onlyGivenNames _
    | with_reducible refine KeptBy.next ?_
    | with_reducible apply Kept.emit
    | with_reducible apply Kept.takeBays
    | split
    | (with_reducible apply Kept.update) <;> [assumption; exact {}]

theorem KeptBy.bayPower {uu : Units} {zz s : State} (m : Master) (hk : Kept uu zz s) (hHce : uu.hce = true := by assumption)
    (hRfu : uu.rfu = true := by assumption) (hRge : uu.rge = true := by assumption) (hRfx : uu.rfx = true := by assumption)
    (hKvt : uu.kvt = true := by assumption) (hMbx : uu.mbx = true := by assumption) (hBay : uu.bay = true := by assumption)
    (hXbr : uu.xbr = true := by assumption) (hPwr : uu.pwr = true := by assumption) (hLcu : uu.lcu = true := by assumption)
    (hPmu : uu.pmu = true := by assumption) (hMoved : uu.moved = true := by assumption)
    (hOut : uu.out = true := by assumption) (hFree : uu.free = true := by assumption) :
    KeptBy uu zz (execBayPower m s) := by
  unfold execBayPower
  repeat' first
    | with_reducible assumption
    | exact {}
    | intro _
    | (extract_lets +onlyGivenNames x; first | refine Kept.cut x ?_ ?_ <;> [subst x; (clear_value x; intro _)] | refine KeptBy.cut x ?_ ?_ <;> [subst x; (clear_value x; intro _)] | skip)
    | with_reducible refine KeptBy.next ?_
    | with_reducible apply Kept.runCmd
    | with_reducible apply Kept.checked
    | with_reducible apply Kept.setBay
    | with_reducible apply Kept.powerOff
    | with_reducible apply Kept.finish
    | split

theorem KeptBy.powerCycleDelay {uu : Units} {zz s : State} (bay : Nat) (hk : Kept uu zz s)
    (hBay : uu.bay = true := by assumption) :
    KeptBy uu zz (execPowerCycleDelay bay s) := by
  unfold execPowerCycleDelay
  repeat' first
    | with_reducible assumption
    | exact {}
    | intro _
    | extract_lets +onlyGivenNames _
    | with_reducible refine KeptBy.next ?_
    | with_reducible apply Kept.setBay
    | split

theorem KeptBy.bayLed {uu : Units} {zz s : State} (m : Master) (hk : Kept uu zz s) (hMbx : uu.mbx = true := by assumption)
    (hBay : uu.bay = true := by assumption) (hMoved : uu.moved = true := by assumption)
    (hOut : uu.out = true := by assumption) :
    KeptBy uu zz (execBayLed m s) := by
  unfold execBayLed
  repeat' first
    | with_reducible assumption
    | exact {}
    | intro _
    | extract_lets +onlyGivenNames _
    | with_reducible refine KeptBy.next ?_
    | with_reducible apply Kept.runCmd
    | with_reducible apply Kept.checked
    | with_reducible apply Kept.setBay
    | with_reducible apply Kept.emit
    | with_reducible apply Kept.finish

theorem KeptBy.bayClear {uu : Units} {zz s : State} (m : Master) (hk : Kept uu zz s) (hMbx : uu.mbx = true := by assumption)
    (hBay : uu.bay = true := by assumption) (hMoved : uu.moved = true := by assumption)
    (hOut : uu.out = true := by assumption) :
    KeptBy uu zz (execBayClear m s) := by
  unfold execBayClear
  repeat' first
    | with_reducible assumption
    | exact {}
    | intro _
    | (extract_lets +onlyGivenNames x; first | refine Kept.cut x ?_ ?_ <;> [subst x; (clear_value x; intro _)] | refine KeptBy.cut x ?_ ?_ <;> [subst x; (clear_value x; intro _)] | skip)
    | with_reducible refine KeptBy.next ?_
    | with_reducible apply Kept.runCmd
    | with_reducible apply Kept.checked
    | with_reducible apply Kept.setBay
    | with_reducible apply Kept.release
    | with_reducible apply Kept.finish
    | split

theorem KeptBy.bayQuery {uu : Units} {zz s : State} (m : Master) (hk : Kept uu zz s) (hMbx : uu.mbx = true := by assumption)
    (hMoved : uu.moved = true := by assumption) (hOut : uu.out = true := by assumption)
    (hFree : uu.free = true := by assumption) :
    KeptBy uu zz (execBayQuery m s) := by
  unfold execBayQuery
  repeat' first
    | with_reducible assumption
    | exact {}
    | intro _
    | extract_lets +onlyGivenNames _
    | with_reducible refine KeptBy.next ?_
    | with_reducible apply Kept.runCmd
    | with_reducible apply Kept.checked
    | with_reducible apply Kept.tookFree
    | with_reducible apply Kept.finish

end Sys2Proof.Machine
end

