-- ==== Sys2Proof/Laws/KeptPackets.lean ====
section
/-! SUPPORT. `Kept` for the operations of Machine/Packets.lean. -/

set_option Elab.async false

namespace Sys2Proof.Machine

theorem Kept.renew {uu : Units} {zz s : State} (m : Master) (post : Bool) (hk : Kept uu zz s)
    (hMbx : uu.mbx = true := by assumption) : Kept uu zz (State.renew s m post) := by
  unfold State.renew
  repeat' first
    | with_reducible assumption
    | exact {}
    | intro _
    | (extract_lets +onlyGivenNames x; refine Kept.cut x ?_ ?_ <;> [subst x; (clear_value x; intro _)])
    | with_reducible apply Kept.updMbx
    | with_reducible apply Kept.setHeld
    | fail_if_no_progress (dsimp only [State.updMbx])
    | split
    | (with_reducible apply Kept.update) <;> [assumption; exact {}]

theorem Kept.reject {uu : Units} {zz s : State} (m : Master) (p : List Byte) (st : Nat) (hk : Kept uu zz s)
    (hMoved : uu.moved = true := by assumption) : Kept uu zz (State.reject s m p st).1 := by
  unfold State.reject
  repeat' first
    | with_reducible assumption
    | exact {}
    | intro _
    | with_reducible apply Kept.bump

theorem Kept.accept {uu : Units} {zz s : State} (m : Master) (p : List Byte) (hc : s.cmdOf m = none) (hk : Kept uu zz s)
    (hKvt : uu.kvt = true := by assumption) (hMbx : uu.mbx = true := by assumption) (hPmu : uu.pmu = true := by assumption)
    (hMoved : uu.moved = true := by assumption) :
    Kept uu zz (State.accept s m p).1 := by
  show Kept uu zz (State.count (State.renew (State.setHeld (State.updMbx (State.updKvt s _) _) m _) m true) 0x38 _ none 2 _ 1)
  exact Kept.count _ _ _ _ _ _ (Kept.renew _ _ (Kept.setHeld _ _ (Kept.addCmd _ hc (Kept.updKvt _ (fun _ => {}) hk))))

theorem Kept.receive {uu : Units} {zz s : State} (m : Master) (p : List Byte) (hk : Kept uu zz s)
    (hKvt : uu.kvt = true := by assumption) (hMbx : uu.mbx = true := by assumption) (hPmu : uu.pmu = true := by assumption)
    (hMoved : uu.moved = true := by assumption) : Kept uu zz (State.receive s m p).1 := by
  unfold State.receive
  dsimp only
  repeat' split
  all_goals try dsimp only
  all_goals first
    | exact Kept.reject _ _ _ hk
    | exact Kept.renew _ _ hk
    | exact Kept.accept m p (Option.not_isSome_iff_eq_none.mp (by assumption)) hk

theorem Kept.sendReply {uu : Units} {zz s : State} (r : Reply) (hk : Kept uu zz s) (hXbr : uu.xbr = true := by assumption)
    (hOut : uu.out = true := by assumption) : Kept uu zz (State.sendReply s r) := by
  unfold State.sendReply
  repeat' first
    | with_reducible assumption
    | exact {}
    | intro _
    | (extract_lets +onlyGivenNames x; refine Kept.cut x ?_ ?_ <;> [subst x; (clear_value x; intro _)])
    | with_reducible apply Kept.emit
    | with_reducible apply Kept.reject
    | with_reducible apply Kept.mgmtPeer
    | split

theorem Kept.serviceReply {uu : Units} {zz s : State} (r : Reply) (hk : Kept uu zz s)
    (hMbx : uu.mbx = true := by assumption) (hXbr : uu.xbr = true := by assumption) (hSep : uu.sep = true := by assumption)
    (hOut : uu.out = true := by assumption) : Kept uu zz (State.serviceReply s r) := by
  unfold State.serviceReply
  repeat' first
    | with_reducible assumption
    | exact {}
    | intro _
    | (extract_lets +onlyGivenNames x; refine Kept.cut x ?_ ?_ <;> [subst x; (clear_value x; intro _)])
    | with_reducible apply Kept.updMbx
    | with_reducible apply Kept.reject
    | with_reducible apply Kept.sendReply
    | with_reducible apply Kept.sendMsi
    | fail_if_no_progress (dsimp only [State.updMbx])
    | split

theorem Kept.route {uu : Units} {zz s : State} (m : Master) (p : List Byte) (hk : Kept uu zz s)
    (hKvt : uu.kvt = true := by assumption) (hMbx : uu.mbx = true := by assumption) (hXbr : uu.xbr = true := by assumption)
    (hSep : uu.sep = true := by assumption) (hPmu : uu.pmu = true := by assumption)
    (hMoved : uu.moved = true := by assumption) (hOut : uu.out = true := by assumption) : Kept uu zz
    (State.route s m p) := by
  unfold State.route
  repeat' first
    | with_reducible assumption
    | exact {}
    | intro _
    | extract_lets +onlyGivenNames _
    | with_reducible apply Kept.receive
    | with_reducible apply Kept.serviceReply
    | with_reducible apply Kept.sendReply
    | split
    | (with_reducible apply Kept.update) <;> [assumption; exact {}]
    | refine Kept.ofPair (by assumption) ?_

theorem Kept.doorbell {uu : Units} {zz s : State} (w : Word) (hk : Kept uu zz s) (hKvt : uu.kvt = true := by assumption)
    (hMbx : uu.mbx = true := by assumption) (hXbr : uu.xbr = true := by assumption) (hSep : uu.sep = true := by assumption)
    (hPmu : uu.pmu = true := by assumption) (hMoved : uu.moved = true := by assumption)
    (hOut : uu.out = true := by assumption) : Kept uu zz (State.doorbell s w) := by
  unfold State.doorbell
  repeat' first
    | with_reducible assumption
    | exact {}
    | intro _
    | extract_lets +onlyGivenNames _
    | with_reducible apply Kept.route
    | split

theorem Kept.flushCheck {uu : Units} {zz s : State} (hk : Kept uu zz s) (hMbx : uu.mbx = true := by assumption)
    (hMoved : uu.moved = true := by assumption) (hOut : uu.out = true := by assumption) : Kept uu zz
    (State.flushCheck s) := by
  unfold State.flushCheck
  repeat' first
    | with_reducible assumption
    | exact {}
    | intro _
    | with_reducible apply Kept.finish
    | split

/-! ## The commands -/

theorem KeptBy.doorbellSend {uu : Units} {zz s : State} (w : Word) (hk : Kept uu zz s)
    (hKvt : uu.kvt = true := by assumption) (hMbx : uu.mbx = true := by assumption) (hXbr : uu.xbr = true := by assumption)
    (hSep : uu.sep = true := by assumption) (hPmu : uu.pmu = true := by assumption)
    (hMoved : uu.moved = true := by assumption) (hOut : uu.out = true := by assumption) :
    KeptBy uu zz (execDoorbellSend w s) := by
  unfold execDoorbellSend
  repeat' first
    | with_reducible assumption
    | exact {}
    | intro _
    | extract_lets +onlyGivenNames _
    | with_reducible refine KeptBy.next ?_
    | with_reducible apply Kept.doorbell
    | split

theorem KeptBy.mctpMessage {uu : Units} {zz s : State} (packet : List Byte) (hk : Kept uu zz s)
    (hKvt : uu.kvt = true := by assumption) (hMbx : uu.mbx = true := by assumption) (hXbr : uu.xbr = true := by assumption)
    (hSep : uu.sep = true := by assumption) (hPmu : uu.pmu = true := by assumption)
    (hMoved : uu.moved = true := by assumption) (hOut : uu.out = true := by assumption) :
    KeptBy uu zz (execMctpMessage packet s) := by
  unfold execMctpMessage
  repeat' first
    | with_reducible assumption
    | exact {}
    | intro _
    | extract_lets +onlyGivenNames _
    | with_reducible refine KeptBy.next ?_
    | with_reducible apply Kept.route
    | split

theorem KeptBy.mctpControlMessage {uu : Units} {zz s : State} (command : Nat) (hk : Kept uu zz s)
    (hOut : uu.out = true := by assumption) :
    KeptBy uu zz (execMctpControlMessage command s) := by
  unfold execMctpControlMessage
  repeat' first
    | with_reducible assumption
    | exact {}
    | intro _
    | extract_lets +onlyGivenNames _
    | with_reducible refine KeptBy.next ?_
    | with_reducible apply Kept.emit

theorem KeptBy.poll {uu : Units} {zz s : State} (m : Master) (packet : List Byte) (hk : Kept uu zz s)
    (hKvt : uu.kvt = true := by assumption) (hMbx : uu.mbx = true := by assumption) (hXbr : uu.xbr = true := by assumption)
    (hSep : uu.sep = true := by assumption) (hPmu : uu.pmu = true := by assumption)
    (hMoved : uu.moved = true := by assumption) (hOut : uu.out = true := by assumption) :
    KeptBy uu zz (execPoll m packet s) := by
  unfold execPoll
  repeat' first
    | with_reducible assumption
    | exact {}
    | intro _
    | extract_lets +onlyGivenNames _
    | with_reducible refine KeptBy.next ?_
    | with_reducible apply Kept.route
    | split

theorem KeptBy.commandStart {uu : Units} {zz s : State} (m : Master) (hk : Kept uu zz s)
    (hMbx : uu.mbx = true := by assumption) (hSep : uu.sep = true := by assumption)
    (hMoved : uu.moved = true := by assumption) (hOut : uu.out = true := by assumption) :
    KeptBy uu zz (execCommandStart m s) := by
  unfold execCommandStart
  repeat' first
    | with_reducible assumption
    | exact {}
    | intro _
    | extract_lets +onlyGivenNames _
    | with_reducible refine KeptBy.next ?_
    | with_reducible apply Kept.finish
    | with_reducible apply Kept.updMbx
    | with_reducible apply Kept.startFetch
    | fail_if_no_progress (dsimp only [State.updMbx])
    | split
    | (with_reducible apply Kept.update) <;> [assumption; exact {}]

theorem KeptBy.describe {uu : Units} {zz s : State} (m : Master) (hk : Kept uu zz s) (hMbx : uu.mbx = true := by assumption)
    (hMoved : uu.moved = true := by assumption) (hOut : uu.out = true := by assumption) :
    KeptBy uu zz (execDescribe m s) := by
  unfold execDescribe
  repeat' first
    | with_reducible assumption
    | exact {}
    | intro _
    | extract_lets +onlyGivenNames _
    | with_reducible refine KeptBy.next ?_
    | with_reducible apply Kept.runCmd
    | with_reducible apply Kept.finish

theorem KeptBy.mbFlush {uu : Units} {zz s : State} (m : Master) (hk : Kept uu zz s) (hMbx : uu.mbx = true := by assumption)
    (hMoved : uu.moved = true := by assumption) (hOut : uu.out = true := by assumption) :
    KeptBy uu zz (execMbFlush m s) := by
  unfold execMbFlush
  repeat' first
    | with_reducible assumption
    | exact {}
    | intro _
    | extract_lets +onlyGivenNames _
    | with_reducible refine KeptBy.next ?_
    | with_reducible apply Kept.runCmd
    | with_reducible apply Kept.updMbx
    | with_reducible apply Kept.keepRunning
    | with_reducible apply Kept.flushCheck

theorem KeptBy.mbReset {uu : Units} {zz s : State} (m : Master) (hk : Kept uu zz s) (hMbx : uu.mbx = true := by assumption)
    (hMoved : uu.moved = true := by assumption) (hOut : uu.out = true := by assumption) :
    KeptBy uu zz (execMbReset m s) := by
  unfold execMbReset
  repeat' first
    | with_reducible assumption
    | exact {}
    | intro _
    | (extract_lets +onlyGivenNames x; first | refine Kept.cut x ?_ ?_ <;> [subst x; (clear_value x; intro _)] | refine KeptBy.cut x ?_ ?_ <;> [subst x; (clear_value x; intro _)] | skip)
    | with_reducible refine KeptBy.next ?_
    | with_reducible apply Kept.runCmd
    | with_reducible apply Kept.finishOne
    | with_reducible apply Kept.setHeld
    | with_reducible apply Kept.finish
    | with_reducible apply Kept.keepRunning
    | with_reducible refine Kept.foldl ?_ _ ?_
    | split

theorem KeptBy.fabTopo {uu : Units} {zz s : State} (m : Master) (hk : Kept uu zz s) (hMbx : uu.mbx = true := by assumption)
    (hMoved : uu.moved = true := by assumption) (hOut : uu.out = true := by assumption) :
    KeptBy uu zz (execFabTopo m s) := by
  unfold execFabTopo
  repeat' first
    | with_reducible assumption
    | exact {}
    | intro _
    | extract_lets +onlyGivenNames _
    | with_reducible refine KeptBy.next ?_
    | with_reducible apply Kept.runCmd
    | with_reducible apply Kept.answer

end Sys2Proof.Machine
end

