-- ==== Sys2Proof/Laws/KeptHosts.lean ====
section
/-! SUPPORT. `Kept` for the operations of Machine/Hosts.lean. -/

set_option Elab.async false

namespace Sys2Proof.Machine

theorem Kept.addConn {uu : Units} {zz s : State} (k : HConn) (hk : Kept uu zz s) (hHce : uu.hce = true := by assumption)
    (hRfx : uu.rfx = true := by assumption) (hXbr : uu.xbr = true := by assumption) (hPmu : uu.pmu = true := by assumption)
    (hMoved : uu.moved = true := by assumption) (hOut : uu.out = true := by assumption) : Kept uu zz
    (State.addConn s k) := by
  unfold State.addConn
  repeat' first
    | with_reducible assumption
    | exact {}
    | intro _
    | extract_lets +onlyGivenNames _
    | with_reducible apply Kept.updHce
    | with_reducible apply Kept.sendXport

theorem Kept.connCqe {uu : Units} {zz s : State} (conn : Nat) (cid : Nat) (q : Nat) (c : Nat) (st : CplStatus) (dw0 : Nat)
    (hk : Kept uu zz s) (hHce : uu.hce = true := by assumption) (hXbr : uu.xbr = true := by assumption)
    (hOut : uu.out = true := by assumption) : Kept uu zz (State.connCqe s conn cid q c st dw0) := by
  unfold State.connCqe
  repeat' first
    | with_reducible assumption
    | exact {}
    | intro _
    | extract_lets +onlyGivenNames _
    | with_reducible apply Kept.logError
    | with_reducible apply Kept.emit
    | with_reducible apply Kept.hostFrames

theorem Kept.openAssoc {uu : Units} {zz s : State} (conn : Nat) (k : HConn) (r : ConnectReq) (hk : Kept uu zz s)
    (hHce : uu.hce = true := by assumption) (hRfx : uu.rfx = true := by assumption) (hXbr : uu.xbr = true := by assumption)
    (hPmu : uu.pmu = true := by assumption) (hMoved : uu.moved = true := by assumption)
    (hOut : uu.out = true := by assumption) : Kept uu zz (State.openAssoc s conn k r) := by
  unfold State.openAssoc
  repeat' first
    | with_reducible assumption
    | exact {}
    | intro _
    | (extract_lets +onlyGivenNames x; first | refine Kept.cut x ?_ ?_ <;> [subst x; (clear_value x; intro _)] | skip)
    | with_reducible apply Kept.updHce
    | with_reducible apply Kept.updConn
    | with_reducible apply Kept.sendXport
    | with_reducible apply Kept.connCqe

theorem Kept.openQueue {uu : Units} {zz s : State} (conn : Nat) (k : HConn) (r : ConnectReq) (hk : Kept uu zz s)
    (hHce : uu.hce = true := by assumption) (hRfx : uu.rfx = true := by assumption) (hXbr : uu.xbr = true := by assumption)
    (hPmu : uu.pmu = true := by assumption) (hMoved : uu.moved = true := by assumption)
    (hOut : uu.out = true := by assumption) : Kept uu zz (State.openQueue s conn k r) := by
  unfold State.openQueue
  repeat' first
    | with_reducible assumption
    | exact {}
    | intro _
    | (extract_lets +onlyGivenNames x; first | refine Kept.cut x ?_ ?_ <;> [subst x; (clear_value x; intro _)] | skip)
    | with_reducible apply Kept.updHce
    | with_reducible apply Kept.updConn
    | with_reducible apply Kept.sendXport
    | with_reducible apply Kept.connCqe

theorem Kept.endAssoc {uu : Units} {zz s : State} (c : Nat) (hk : Kept uu zz s) (hHce : uu.hce = true := by assumption)
    (hRfx : uu.rfx = true := by assumption) (hKvt : uu.kvt = true := by assumption) (hXbr : uu.xbr = true := by assumption)
    (hPmu : uu.pmu = true := by assumption) (hMoved : uu.moved = true := by assumption)
    (hOut : uu.out = true := by assumption) : Kept uu zz (State.endAssoc s c) := by
  unfold State.endAssoc
  repeat' first
    | with_reducible assumption
    | exact {}
    | intro _
    | (extract_lets +onlyGivenNames x; first | refine Kept.cut x ?_ ?_ <;> [subst x; (clear_value x; intro _)] | skip)
    | with_reducible apply Kept.closeConn
    | with_reducible apply Kept.updHce
    | with_reducible refine Kept.foldl ?_ _ ?_
    | split

theorem Kept.intakeAdmin {uu : Units} {zz s : State} (c : Nat) (cid : Nat) (op : Nat) (args : List Nat) (hk : Kept uu zz s)
    (hRfx : uu.rfx = true := by assumption) (hXbr : uu.xbr = true := by assumption) (hPmu : uu.pmu = true := by assumption)
    (hMoved : uu.moved = true := by assumption) (hOut : uu.out = true := by assumption) : Kept uu zz
    (State.intakeAdmin s c cid op args) := by
  unfold State.intakeAdmin
  repeat' first
    | with_reducible assumption
    | exact {}
    | intro _
    | with_reducible apply Kept.mirSend
    | split

theorem Kept.passAdmin {uu : Units} {zz s : State} (c : Nat) (hk : Kept uu zz s) (hHce : uu.hce = true := by assumption)
    : Kept uu zz (State.passAdmin s c) := by
  unfold State.passAdmin
  repeat' first
    | with_reducible assumption
    | exact {}
    | intro _
    | with_reducible apply Kept.updCtrl

theorem Kept.takeAdmin {uu : Units} {zz s : State} (c : Nat) (cid : Nat) (op : Nat) (args : List Nat) (hk : Kept uu zz s)
    (hHce : uu.hce = true := by assumption) (hRfx : uu.rfx = true := by assumption) (hXbr : uu.xbr = true := by assumption)
    (hPmu : uu.pmu = true := by assumption) (hMoved : uu.moved = true := by assumption)
    (hOut : uu.out = true := by assumption) : Kept uu zz (State.takeAdmin s c cid op args) := by
  unfold State.takeAdmin
  repeat' first
    | with_reducible assumption
    | exact {}
    | intro _
    | extract_lets +onlyGivenNames _
    | with_reducible apply Kept.intakeAdmin
    | with_reducible apply Kept.passAdmin

theorem Kept.writeCc {uu : Units} {zz s : State} (c : Nat) (v : Nat) (hk : Kept uu zz s)
    (hHce : uu.hce = true := by assumption) (hRfu : uu.rfu = true := by assumption) (hRfx : uu.rfx = true := by assumption)
    (hXbr : uu.xbr = true := by assumption) (hPmu : uu.pmu = true := by assumption)
    (hMoved : uu.moved = true := by assumption) (hOut : uu.out = true := by assumption) : Kept uu zz
    (State.writeCc s c v) := by
  unfold State.writeCc
  repeat' first
    | with_reducible assumption
    | exact {}
    | intro _
    | (extract_lets +onlyGivenNames x; first | refine Kept.cut x ?_ ?_ <;> [subst x; (clear_value x; intro _)] | skip)
    | with_reducible apply Kept.updCtrl
    | with_reducible apply Kept.beginReset
    | with_reducible apply Kept.sendXport
    | split

theorem Kept.doPropertySet {uu : Units} {zz s : State} (c : Nat) (cid : Nat) (offset : Nat) (value : Nat) (hk
    : Kept uu zz s) (hHce : uu.hce = true := by assumption) (hRfu : uu.rfu = true := by assumption)
    (hRfx : uu.rfx = true := by assumption) (hXbr : uu.xbr = true := by assumption) (hPmu : uu.pmu = true := by assumption)
    (hMoved : uu.moved = true := by assumption) (hOut : uu.out = true := by assumption) : Kept uu zz
    (State.doPropertySet s c cid offset value) := by
  unfold State.doPropertySet
  repeat' first
    | with_reducible assumption
    | exact {}
    | intro _
    | extract_lets +onlyGivenNames _
    | with_reducible apply Kept.writeCc
    | with_reducible apply Kept.adminDone
    | split

theorem Kept.doPropertyGet {uu : Units} {zz s : State} (c : Nat) (cid : Nat) (offset : Nat) (hk : Kept uu zz s)
    (hHce : uu.hce = true := by assumption) (hRfx : uu.rfx = true := by assumption) (hXbr : uu.xbr = true := by assumption)
    (hPmu : uu.pmu = true := by assumption) (hMoved : uu.moved = true := by assumption)
    (hOut : uu.out = true := by assumption) (hFree : uu.free = true := by assumption) : Kept uu zz
    (State.doPropertyGet s c cid offset) := by
  unfold State.doPropertyGet
  repeat' first
    | with_reducible assumption
    | exact {}
    | intro _
    | extract_lets +onlyGivenNames _
    | with_reducible apply Kept.tookFree
    | with_reducible apply Kept.adminDone
    | split

theorem Kept.authCqe {uu : Units} {zz s : State} (conn : Nat) (cid : Nat) (hk : Kept uu zz s)
    (hHce : uu.hce = true := by assumption) (hRfx : uu.rfx = true := by assumption) (hXbr : uu.xbr = true := by assumption)
    (hPmu : uu.pmu = true := by assumption) (hMoved : uu.moved = true := by assumption)
    (hOut : uu.out = true := by assumption) : Kept uu zz (State.authCqe s conn cid) := by
  unfold State.authCqe
  repeat' first
    | with_reducible assumption
    | exact {}
    | intro _
    | extract_lets +onlyGivenNames _
    | with_reducible apply Kept.connCqe
    | with_reducible apply Kept.adminDone
    | with_reducible apply Kept.updSq
    | split

theorem Kept.authSend {uu : Units} {zz s : State} (conn : Nat) (cid : Nat) (msg : AuthMsg) (hk : Kept uu zz s)
    (hHce : uu.hce = true := by assumption) (hRfx : uu.rfx = true := by assumption) (hXbr : uu.xbr = true := by assumption)
    (hPmu : uu.pmu = true := by assumption) (hMoved : uu.moved = true := by assumption)
    (hOut : uu.out = true := by assumption) : Kept uu zz (State.authSend s conn cid msg) := by
  unfold State.authSend
  repeat' first
    | with_reducible assumption
    | exact {}
    | intro _
    | extract_lets +onlyGivenNames _
    | with_reducible apply Kept.updConn
    | with_reducible apply Kept.authCqe

theorem Kept.authReceive {uu : Units} {zz s : State} (conn : Nat) (cid : Nat) (hk : Kept uu zz s)
    (hHce : uu.hce = true := by assumption) (hRfx : uu.rfx = true := by assumption) (hXbr : uu.xbr = true := by assumption)
    (hPmu : uu.pmu = true := by assumption) (hMoved : uu.moved = true := by assumption)
    (hOut : uu.out = true := by assumption) (hFree : uu.free = true := by assumption) : Kept uu zz
    (State.authReceive s conn cid) := by
  unfold State.authReceive
  repeat' first
    | with_reducible assumption
    | exact {}
    | intro _
    | extract_lets +onlyGivenNames _
    | with_reducible apply Kept.emit
    | with_reducible apply Kept.authCqe
    | with_reducible apply Kept.tookFree
    | with_reducible apply Kept.updConn
    | with_reducible apply Kept.idle
    | split

theorem Kept.adminData {uu : Units} {zz s : State} (c : Nat) (cid : Nat) (bs : List Byte) (hk : Kept uu zz s)
    (hHce : uu.hce = true := by assumption) (hRfx : uu.rfx = true := by assumption) (hXbr : uu.xbr = true := by assumption)
    (hPmu : uu.pmu = true := by assumption) (hMoved : uu.moved = true := by assumption)
    (hOut : uu.out = true := by assumption) : Kept uu zz (State.adminData s c cid bs) := by
  unfold State.adminData
  repeat' first
    | with_reducible assumption
    | exact {}
    | intro _
    | extract_lets +onlyGivenNames _
    | with_reducible apply Kept.emit
    | with_reducible apply Kept.hostFrames
    | with_reducible apply Kept.adminDone

theorem Kept.doIdentify {uu : Units} {zz s : State} (c : Nat) (cid : Nat) (cns : Nat) (nsid : Nat) (hk : Kept uu zz s)
    (hHce : uu.hce = true := by assumption) (hRfx : uu.rfx = true := by assumption) (hXbr : uu.xbr = true := by assumption)
    (hPmu : uu.pmu = true := by assumption) (hMoved : uu.moved = true := by assumption)
    (hOut : uu.out = true := by assumption) : Kept uu zz (State.doIdentify s c cid cns nsid) := by
  unfold State.doIdentify
  repeat' first
    | with_reducible assumption
    | exact {}
    | intro _
    | with_reducible apply Kept.adminData
    | with_reducible apply Kept.adminDone
    | split

theorem Kept.doLog {uu : Units} {zz s : State} (c : Nat) (cid : Nat) (lid : Nat) (hk : Kept uu zz s)
    (hHce : uu.hce = true := by assumption) (hRfx : uu.rfx = true := by assumption) (hXbr : uu.xbr = true := by assumption)
    (hPmu : uu.pmu = true := by assumption) (hMoved : uu.moved = true := by assumption)
    (hOut : uu.out = true := by assumption) (hFree : uu.free = true := by assumption) : Kept uu zz
    (State.doLog s c cid lid) := by
  unfold State.doLog
  repeat' first
    | with_reducible assumption
    | exact {}
    | intro _
    | extract_lets +onlyGivenNames _
    | with_reducible apply Kept.adminData
    | with_reducible apply Kept.tookFree
    | with_reducible apply Kept.updCtrl
    | with_reducible apply Kept.adminDone
    | split

theorem Kept.notAborted {uu : Units} {zz s : State} (c : Nat) (acid : Nat) (hk : Kept uu zz s)
    (hHce : uu.hce = true := by assumption) (hRfx : uu.rfx = true := by assumption) (hXbr : uu.xbr = true := by assumption)
    (hPmu : uu.pmu = true := by assumption) (hMoved : uu.moved = true := by assumption)
    (hOut : uu.out = true := by assumption) : Kept uu zz (State.notAborted s c acid) := by
  unfold State.notAborted
  repeat' first
    | with_reducible assumption
    | exact {}
    | intro _
    | extract_lets +onlyGivenNames _
    | with_reducible apply Kept.adminDone
    | with_reducible apply Kept.bumpHalf

theorem Kept.dropIntake {uu : Units} {zz s : State} (q : SubQ) (cid : Nat) (hk : Kept uu zz s)
    (hRfx : uu.rfx = true := by assumption) (hXbr : uu.xbr = true := by assumption) (hPmu : uu.pmu = true := by assumption)
    (hMoved : uu.moved = true := by assumption) (hOut : uu.out = true := by assumption) : Kept uu zz
    (State.dropIntake s q cid) := by
  unfold State.dropIntake
  repeat' first
    | with_reducible assumption
    | exact {}
    | intro _
    | with_reducible apply Kept.mirSend

theorem Kept.doAbort {uu : Units} {zz s : State} (c : Nat) (acid : Nat) (sqid : Nat) (cid : Nat) (hk : Kept uu zz s)
    (hHce : uu.hce = true := by assumption) (hRfu : uu.rfu = true := by assumption) (hRfx : uu.rfx = true := by assumption)
    (hXbr : uu.xbr = true := by assumption) (hPmu : uu.pmu = true := by assumption)
    (hMoved : uu.moved = true := by assumption) (hOut : uu.out = true := by assumption) : Kept uu zz
    (State.doAbort s c acid sqid cid) := by
  unfold State.doAbort
  repeat' first
    | with_reducible assumption
    | exact {}
    | intro _
    | (extract_lets +onlyGivenNames x; first | refine Kept.cut x ?_ ?_ <;> [subst x; (clear_value x; intro _)] | skip)
    | with_reducible apply Kept.adminDone
    | with_reducible apply Kept.notAborted
    | with_reducible apply Kept.squash
    | with_reducible apply Kept.updCtrl
    | with_reducible apply Kept.updSq
    | with_reducible apply Kept.dropIntake
    | with_reducible apply Kept.postCqe
    | with_reducible apply Kept.bumpHalf
    | split

theorem Kept.doSetFeature {uu : Units} {zz s : State} (c : Nat) (cid : Nat) (fid : Nat) (value : Nat) (save : Bool) (hk
    : Kept uu zz s) (hHce : uu.hce = true := by assumption) (hRfx : uu.rfx = true := by assumption)
    (hXbr : uu.xbr = true := by assumption) (hPmu : uu.pmu = true := by assumption)
    (hMoved : uu.moved = true := by assumption) (hOut : uu.out = true := by assumption) : Kept uu zz
    (State.doSetFeature s c cid fid value save) := by
  unfold State.doSetFeature
  repeat' first
    | with_reducible assumption
    | exact {}
    | intro _
    | (extract_lets +onlyGivenNames x; first | refine Kept.cut x ?_ ?_ <;> [subst x; (clear_value x; intro _)] | skip)
    | with_reducible apply Kept.adminDone
    | with_reducible apply Kept.updCtrl
    | with_reducible apply Kept.sendXport
    | split

theorem Kept.doGetFeature {uu : Units} {zz s : State} (c : Nat) (cid : Nat) (fid : Nat) (hk : Kept uu zz s)
    (hHce : uu.hce = true := by assumption) (hRfx : uu.rfx = true := by assumption) (hXbr : uu.xbr = true := by assumption)
    (hPmu : uu.pmu = true := by assumption) (hMoved : uu.moved = true := by assumption)
    (hOut : uu.out = true := by assumption) : Kept uu zz (State.doGetFeature s c cid fid) := by
  unfold State.doGetFeature
  repeat' first
    | with_reducible assumption
    | exact {}
    | intro _
    | with_reducible apply Kept.adminDone
    | split

theorem Kept.doAer {uu : Units} {zz s : State} (c : Nat) (cid : Nat) (hk : Kept uu zz s)
    (hHce : uu.hce = true := by assumption) (hRfx : uu.rfx = true := by assumption) (hXbr : uu.xbr = true := by assumption)
    (hPmu : uu.pmu = true := by assumption) (hMoved : uu.moved = true := by assumption)
    (hOut : uu.out = true := by assumption) : Kept uu zz (State.doAer s c cid) := by
  unfold State.doAer
  repeat' first
    | with_reducible assumption
    | exact {}
    | intro _
    | extract_lets +onlyGivenNames _
    | with_reducible apply Kept.adminDone
    | with_reducible apply Kept.updCtrl
    | split

theorem Kept.doMi {uu : Units} {zz s : State} (c : Nat) (cid : Nat) (op : Nat) (packet : List Byte) (receive : Bool) (hk
    : Kept uu zz s) (hHce : uu.hce = true := by assumption) (hRfx : uu.rfx = true := by assumption)
    (hKvt : uu.kvt = true := by assumption) (hMbx : uu.mbx = true := by assumption) (hXbr : uu.xbr = true := by assumption)
    (hPmu : uu.pmu = true := by assumption) (hMoved : uu.moved = true := by assumption)
    (hOut : uu.out = true := by assumption) : Kept uu zz (State.doMi s c cid op packet receive) := by
  unfold State.doMi
  repeat' first
    | with_reducible assumption
    | exact {}
    | intro _
    | extract_lets +onlyGivenNames _
    | with_reducible apply Kept.adminDone
    | with_reducible apply Kept.receive
    | with_reducible apply Kept.sendReply
    | with_reducible apply Kept.adminData
    | split

theorem Kept.doFormat {uu : Units} {zz s : State} (c : Nat) (cid : Nat) (nsid : Nat) (lbaf : Nat) (ses : Nat) (prot : Bool)
    (hk : Kept uu zz s) (hHce : uu.hce = true := by assumption) (hRfx : uu.rfx = true := by assumption)
    (hXbr : uu.xbr = true := by assumption) (hPmu : uu.pmu = true := by assumption)
    (hMoved : uu.moved = true := by assumption) (hOut : uu.out = true := by assumption) : KeptOpt uu zz
    (State.doFormat s c cid nsid lbaf ses prot) := by
  unfold State.doFormat
  repeat' first
    | with_reducible assumption
    | exact {}
    | intro _
    | extract_lets +onlyGivenNames _
    | with_reducible apply Kept.adminDone
    | with_reducible apply Kept.startOp
    | with_reducible refine KeptOpt.some ?_
    | with_reducible exact KeptOpt.none
    | split

theorem Kept.doSanitize {uu : Units} {zz s : State} (c : Nat) (cid : Nat) (action : Nat) (hk : Kept uu zz s)
    (hHce : uu.hce = true := by assumption) (hRfx : uu.rfx = true := by assumption) (hXbr : uu.xbr = true := by assumption)
    (hPmu : uu.pmu = true := by assumption) (hMoved : uu.moved = true := by assumption)
    (hOut : uu.out = true := by assumption) : KeptOpt uu zz (State.doSanitize s c cid action) := by
  unfold State.doSanitize
  repeat' first
    | with_reducible assumption
    | exact {}
    | intro _
    | extract_lets +onlyGivenNames _
    | with_reducible apply Kept.adminDone
    | with_reducible apply Kept.startOp
    | with_reducible refine KeptOpt.some ?_
    | with_reducible exact KeptOpt.none
    | split

theorem Kept.adminRun {uu : Units} {zz s : State} (i : Instr) (hk : Kept uu zz s) (hHce : uu.hce = true := by assumption)
    (hRfu : uu.rfu = true := by assumption) (hRfx : uu.rfx = true := by assumption) (hKvt : uu.kvt = true := by assumption)
    (hMbx : uu.mbx = true := by assumption) (hXbr : uu.xbr = true := by assumption) (hPmu : uu.pmu = true := by assumption)
    (hMoved : uu.moved = true := by assumption) (hOut : uu.out = true := by assumption)
    (hFree : uu.free = true := by assumption) : KeptOpt uu zz (State.adminRun s i) := by
  cases i with
  | getLogPage c cid lid => exact KeptOpt.some (Kept.doLog _ _ _ hk)
  | identify c cid cns nsid => exact KeptOpt.some (Kept.doIdentify _ _ _ _ hk)
  | setFeatures c cid fid v save => exact KeptOpt.some (Kept.doSetFeature _ _ _ _ _ hk)
  | getFeatures c cid fid => exact KeptOpt.some (Kept.doGetFeature _ _ _ hk)
  | asynchronousEventRequest c cid => exact KeptOpt.some (Kept.doAer _ _ hk)
  | nvmeMiSend c cid op p => exact KeptOpt.some (Kept.doMi _ _ _ _ _ hk)
  | nvmeMiReceive c cid op p => exact KeptOpt.some (Kept.doMi _ _ _ _ _ hk)
  | formatNvm c cid nsid lbaf ses prot => exact Kept.doFormat _ _ _ _ _ _ hk
  | sanitize c cid a => exact Kept.doSanitize _ _ _ hk
  | invalidAdminOpcode c cid op => exact KeptOpt.some (Kept.adminDone _ _ _ _ hk)
  | propertySet c cid o v => exact KeptOpt.some (Kept.doPropertySet _ _ _ _ hk)
  | propertyGet c cid o => exact KeptOpt.some (Kept.doPropertyGet _ _ _ hk)
  | authenticationSend k cid msg => exact KeptOpt.some (Kept.authSend _ _ _ hk)
  | authenticationReceive k cid => exact KeptOpt.some (Kept.authReceive _ _ hk)
  | disconnect c q cid => exact KeptOpt.some (Kept.beginReset _ _ _ hk)
  | _ => exact KeptOpt.some hk

theorem Kept.closeLost {uu : Units} {zz s : State} (id : Nat) (hk : Kept uu zz s) (hHce : uu.hce = true := by assumption)
    (hRfu : uu.rfu = true := by assumption) (hRfx : uu.rfx = true := by assumption) (hKvt : uu.kvt = true := by assumption)
    (hXbr : uu.xbr = true := by assumption) (hPmu : uu.pmu = true := by assumption)
    (hMoved : uu.moved = true := by assumption) (hOut : uu.out = true := by assumption) : Kept uu zz
    (State.closeLost s id) := by
  unfold State.closeLost
  repeat' first
    | with_reducible assumption
    | exact {}
    | intro _
    | extract_lets +onlyGivenNames _
    | with_reducible apply Kept.emit
    | with_reducible apply Kept.loseConn
    | split

theorem Kept.adminSubmit {uu : Units} {zz s : State} (c cid op : Nat) (i : Instr) (hk : Kept uu zz s)
    (hHce : uu.hce = true := by assumption) (hRfu : uu.rfu = true := by assumption) (hRfx : uu.rfx = true := by assumption)
    (hKvt : uu.kvt = true := by assumption) (hMbx : uu.mbx = true := by assumption) (hXbr : uu.xbr = true := by assumption)
    (hPmu : uu.pmu = true := by assumption) (hMoved : uu.moved = true := by assumption)
    (hOut : uu.out = true := by assumption) (hFree : uu.free = true := by assumption) :
    Kept uu zz (State.adminSubmit s c cid op i) := by
  have h1 := Kept.intakeAdmin c cid op (adminArgs i) hk
  have h2 : ∀ f, Kept uu zz ((s.intakeAdmin c cid op (adminArgs i)).updCtrl c f) := fun f => Kept.updCtrl _ _ h1
  unfold State.adminSubmit
  split
  · exact hk
  · split
    · exact hk
    · split
      · exact Kept.closeLost _ (Kept.bump _ hk)
      · dsimp only
        split
        · exact h2 _
        · split
          · next t e => exact Kept.ofSome e (Kept.adminRun i (Kept.passAdmin _ h1))
          · exact h2 _

theorem Kept.adminPump {uu : Units} {zz : State} (c n : Nat) (hHce : uu.hce = true := by assumption)
    (hRfu : uu.rfu = true := by assumption) (hRfx : uu.rfx = true := by assumption) (hKvt : uu.kvt = true := by assumption)
    (hMbx : uu.mbx = true := by assumption) (hXbr : uu.xbr = true := by assumption) (hPmu : uu.pmu = true := by assumption)
    (hMoved : uu.moved = true := by assumption) (hOut : uu.out = true := by assumption)
    (hFree : uu.free = true := by assumption) : ∀ {s : State}, Kept uu zz s → Kept uu zz (State.adminPump c n s) := by
  induction n with
  | zero => exact fun h => h
  | succ n ih =>
    intro s hk
    unfold State.adminPump
    split
    · exact hk
    · split
      · split
        · exact hk
        · split
          · next t e => exact ih (Kept.ofSome e (Kept.adminRun _ (Kept.updCtrl _ _ hk)))
          · exact hk
      · exact hk

theorem Kept.adminAll {uu : Units} {zz s : State} (hk : Kept uu zz s) (hHce : uu.hce = true := by assumption)
    (hRfu : uu.rfu = true := by assumption) (hRfx : uu.rfx = true := by assumption) (hKvt : uu.kvt = true := by assumption)
    (hMbx : uu.mbx = true := by assumption) (hXbr : uu.xbr = true := by assumption) (hPmu : uu.pmu = true := by assumption)
    (hMoved : uu.moved = true := by assumption) (hOut : uu.out = true := by assumption)
    (hFree : uu.free = true := by assumption) : Kept uu zz (State.adminAll s) := by
  unfold State.adminAll
  repeat' first
    | with_reducible assumption
    | exact {}
    | intro _
    | extract_lets +onlyGivenNames _
    | with_reducible apply Kept.adminPump
    | with_reducible refine Kept.foldl ?_ _ ?_

theorem Kept.adminBeside {uu : Units} {zz s : State} (c : Nat) (cid : Nat) (op : Nat) (args : List Nat) (f : State → State)
    (hf : ∀ t, Kept uu zz t → Kept uu zz (f t)) (hk : Kept uu zz s) (hHce : uu.hce = true := by assumption)
    (hRfx : uu.rfx = true := by assumption) (hXbr : uu.xbr = true := by assumption) (hPmu : uu.pmu = true := by assumption)
    (hMoved : uu.moved = true := by assumption) (hOut : uu.out = true := by assumption) : Kept uu zz
    (State.adminBeside s c cid op args f) := by
  unfold State.adminBeside
  repeat' first
    | with_reducible assumption
    | exact {}
    | intro _
    | extract_lets +onlyGivenNames _
    | with_reducible apply Kept.takeAdmin
    | with_reducible apply hf
    | split

theorem Kept.flushQueue {uu : Units} {zz s : State} (q : SubQ) (hk : Kept uu zz s) (hHce : uu.hce = true := by assumption)
    (hRfx : uu.rfx = true := by assumption) (hXbr : uu.xbr = true := by assumption) (hPmu : uu.pmu = true := by assumption)
    (hMoved : uu.moved = true := by assumption) (hOut : uu.out = true := by assumption) : Kept uu zz
    (State.flushQueue s q) := by
  unfold State.flushQueue
  repeat' first
    | with_reducible assumption
    | exact {}
    | intro _
    | (extract_lets +onlyGivenNames x; first | refine Kept.cut x ?_ ?_ <;> [subst x; (clear_value x; intro _)] | skip)
    | with_reducible apply Kept.updSq
    | with_reducible apply Kept.dropIntake
    | with_reducible apply Kept.postCqe
    | with_reducible refine Kept.foldl ?_ _ ?_

/-! ## The commands -/

theorem KeptBy.rdmaCmConnectionRequest {uu : Units} {zz s : State} (conn : Nat) (port : Nat) (addr : BitVec 128)
    (qp : QpType) (mtu : Nat) (hk : Kept uu zz s) (hHce : uu.hce = true := by assumption)
    (hRfx : uu.rfx = true := by assumption) (hXbr : uu.xbr = true := by assumption) (hPmu : uu.pmu = true := by assumption)
    (hMoved : uu.moved = true := by assumption) (hOut : uu.out = true := by assumption) :
    KeptBy uu zz (execRdmaCmConnectionRequest conn port addr qp mtu s) := by
  unfold execRdmaCmConnectionRequest
  repeat' first
    | with_reducible assumption
    | exact {}
    | intro _
    | extract_lets +onlyGivenNames _
    | with_reducible refine KeptBy.next ?_
    | with_reducible apply Kept.emit
    | with_reducible apply Kept.addConn
    | split

theorem KeptBy.tcpSyn {uu : Units} {zz s : State} (conn : Nat) (port : Nat) (addr : BitVec 128) (mss : Nat) (hk
    : Kept uu zz s) (hHce : uu.hce = true := by assumption) (hRfx : uu.rfx = true := by assumption)
    (hXbr : uu.xbr = true := by assumption) (hPmu : uu.pmu = true := by assumption)
    (hMoved : uu.moved = true := by assumption) (hOut : uu.out = true := by assumption) :
    KeptBy uu zz (execTcpSyn conn port addr mss s) := by
  unfold execTcpSyn
  repeat' first
    | with_reducible assumption
    | exact {}
    | intro _
    | extract_lets +onlyGivenNames _
    | with_reducible refine KeptBy.next ?_
    | with_reducible apply Kept.emit
    | with_reducible apply Kept.addConn
    | split

theorem KeptBy.icreq {uu : Units} {zz s : State} (conn : Nat) (hdgst : Bool) (ddgst : Bool) (hk : Kept uu zz s)
    (hHce : uu.hce = true := by assumption) (hRfu : uu.rfu = true := by assumption) (hRfx : uu.rfx = true := by assumption)
    (hKvt : uu.kvt = true := by assumption) (hXbr : uu.xbr = true := by assumption) (hPmu : uu.pmu = true := by assumption)
    (hMoved : uu.moved = true := by assumption) (hOut : uu.out = true := by assumption) :
    KeptBy uu zz (execIcreq conn hdgst ddgst s) := by
  unfold execIcreq
  repeat' first
    | with_reducible assumption
    | exact {}
    | intro _
    | (extract_lets +onlyGivenNames x; first | refine Kept.cut x ?_ ?_ <;> [subst x; (clear_value x; intro _)] | refine KeptBy.cut x ?_ ?_ <;> [subst x; (clear_value x; intro _)] | skip)
    | with_reducible refine KeptBy.next ?_
    | with_reducible apply Kept.emit
    | with_reducible apply Kept.loseConn
    | with_reducible apply Kept.updConn
    | with_reducible apply Kept.sendXport
    | split

theorem KeptBy.connect {uu : Units} {zz s : State} (conn : Nat) (req : ConnectReq) (hk : Kept uu zz s)
    (hHce : uu.hce = true := by assumption) (hRfx : uu.rfx = true := by assumption) (hXbr : uu.xbr = true := by assumption)
    (hPmu : uu.pmu = true := by assumption) (hMoved : uu.moved = true := by assumption)
    (hOut : uu.out = true := by assumption) :
    KeptBy uu zz (execConnect conn req s) := by
  unfold execConnect
  repeat' first
    | with_reducible assumption
    | exact {}
    | intro _
    | extract_lets +onlyGivenNames _
    | with_reducible refine KeptBy.next ?_
    | with_reducible apply Kept.connCqe
    | with_reducible apply Kept.openAssoc
    | with_reducible apply Kept.openQueue
    | split
    | (with_reducible apply Kept.update) <;> [assumption; exact {}]
    | refine Kept.ofPair (by assumption) ?_
    | refine Kept.ofPair' (by assumption) ?_
    | (with_reducible apply Kept.update) <;> [refine Kept.ofPair (by assumption) ?_; exact {}]
    | fail_if_no_progress ((with_reducible apply Kept.update) <;> [skip; exact {}])
    | dsimp +zetaDelta only

theorem KeptBy.controllerResetComplete {uu : Units} {zz s : State} (cntlid : Nat) (hk : Kept uu zz s)
    (hHce : uu.hce = true := by assumption) (hRfx : uu.rfx = true := by assumption) (hKvt : uu.kvt = true := by assumption)
    (hXbr : uu.xbr = true := by assumption) (hPmu : uu.pmu = true := by assumption)
    (hMoved : uu.moved = true := by assumption) (hOut : uu.out = true := by assumption) :
    KeptBy uu zz (execControllerResetComplete cntlid s) := by
  unfold execControllerResetComplete
  repeat' first
    | with_reducible assumption
    | exact {}
    | intro _
    | extract_lets +onlyGivenNames _
    | with_reducible refine KeptBy.next ?_
    | with_reducible apply Kept.updCtrl
    | with_reducible apply Kept.adminCqe
    | with_reducible apply Kept.endAssoc
    | with_reducible apply Kept.closeConn
    | with_reducible apply Kept.sendXport
    | with_reducible refine Kept.foldl ?_ _ ?_
    | split
    | (with_reducible apply Kept.update) <;> [assumption; exact {}]
    | refine Kept.ofPair (by assumption) ?_
    | refine Kept.ofPair' (by assumption) ?_
    | (with_reducible apply Kept.update) <;> [refine Kept.ofPair (by assumption) ?_; exact {}]
    | fail_if_no_progress ((with_reducible apply Kept.update) <;> [skip; exact {}])
    | dsimp +zetaDelta only

theorem KeptBy.shutdownComplete {uu : Units} {zz s : State} (cntlid : Nat) (hk : Kept uu zz s)
    (hHce : uu.hce = true := by assumption) (hRfx : uu.rfx = true := by assumption) (hXbr : uu.xbr = true := by assumption)
    (hPmu : uu.pmu = true := by assumption) (hMoved : uu.moved = true := by assumption)
    (hOut : uu.out = true := by assumption) :
    KeptBy uu zz (execShutdownComplete cntlid s) := by
  unfold execShutdownComplete
  repeat' first
    | with_reducible assumption
    | exact {}
    | intro _
    | extract_lets +onlyGivenNames _
    | with_reducible refine KeptBy.next ?_
    | with_reducible apply Kept.updCtrl
    | with_reducible apply Kept.sendXport
    | split

theorem KeptBy.keepAliveTimeout {uu : Units} {zz s : State} (cntlid : Nat) (hk : Kept uu zz s)
    (hHce : uu.hce = true := by assumption) (hRfu : uu.rfu = true := by assumption) (hRfx : uu.rfx = true := by assumption)
    (hXbr : uu.xbr = true := by assumption) (hPmu : uu.pmu = true := by assumption)
    (hMoved : uu.moved = true := by assumption) (hOut : uu.out = true := by assumption) :
    KeptBy uu zz (execKeepAliveTimeout cntlid s) := by
  unfold execKeepAliveTimeout
  repeat' first
    | with_reducible assumption
    | exact {}
    | intro _
    | extract_lets +onlyGivenNames _
    | with_reducible refine KeptBy.next ?_
    | with_reducible apply Kept.beginReset
    | split

theorem KeptBy.connectionLoss {uu : Units} {zz s : State} (conn : Nat) (hk : Kept uu zz s)
    (hHce : uu.hce = true := by assumption) (hRfu : uu.rfu = true := by assumption) (hRfx : uu.rfx = true := by assumption)
    (hKvt : uu.kvt = true := by assumption) (hXbr : uu.xbr = true := by assumption) (hPmu : uu.pmu = true := by assumption)
    (hMoved : uu.moved = true := by assumption) (hOut : uu.out = true := by assumption) :
    KeptBy uu zz (execConnectionLoss conn s) := by
  unfold execConnectionLoss
  repeat' first
    | with_reducible assumption
    | exact {}
    | intro _
    | extract_lets +onlyGivenNames _
    | with_reducible refine KeptBy.next ?_
    | with_reducible apply Kept.loseConn

theorem KeptBy.getLogPage {uu : Units} {zz s : State} (cntlid : Nat) (cid : Nat) (lid : Nat) (hk : Kept uu zz s)
    (hHce : uu.hce = true := by assumption) (hRfx : uu.rfx = true := by assumption) (hXbr : uu.xbr = true := by assumption)
    (hPmu : uu.pmu = true := by assumption) (hMoved : uu.moved = true := by assumption)
    (hOut : uu.out = true := by assumption) (hFree : uu.free = true := by assumption) :
    KeptBy uu zz (execGetLogPage cntlid cid lid s) := by
  unfold execGetLogPage
  repeat' first
    | with_reducible assumption
    | exact {}
    | intro _
    | extract_lets +onlyGivenNames _
    | with_reducible refine KeptBy.next ?_
    | with_reducible apply Kept.adminBeside
    | with_reducible apply Kept.doLog

theorem KeptBy.identify {uu : Units} {zz s : State} (cntlid : Nat) (cid : Nat) (cns : Nat) (nsid : Nat) (hk : Kept uu zz s)
    (hHce : uu.hce = true := by assumption) (hRfu : uu.rfu = true := by assumption) (hRfx : uu.rfx = true := by assumption)
    (hKvt : uu.kvt = true := by assumption) (hMbx : uu.mbx = true := by assumption) (hXbr : uu.xbr = true := by assumption)
    (hPmu : uu.pmu = true := by assumption) (hMoved : uu.moved = true := by assumption)
    (hOut : uu.out = true := by assumption) (hFree : uu.free = true := by assumption) :
    KeptBy uu zz (execIdentify cntlid cid cns nsid s) := by
  unfold execIdentify
  repeat' first
    | with_reducible assumption
    | exact {}
    | intro _
    | extract_lets +onlyGivenNames _
    | with_reducible refine KeptBy.next ?_
    | with_reducible apply Kept.adminSubmit

theorem KeptBy.abort {uu : Units} {zz s : State} (cntlid : Nat) (acid : Nat) (sqid : Nat) (cid : Nat) (hk : Kept uu zz s)
    (hHce : uu.hce = true := by assumption) (hRfu : uu.rfu = true := by assumption) (hRfx : uu.rfx = true := by assumption)
    (hXbr : uu.xbr = true := by assumption) (hPmu : uu.pmu = true := by assumption)
    (hMoved : uu.moved = true := by assumption) (hOut : uu.out = true := by assumption) :
    KeptBy uu zz (execAbort cntlid acid sqid cid s) := by
  unfold execAbort
  repeat' first
    | with_reducible assumption
    | exact {}
    | intro _
    | extract_lets +onlyGivenNames _
    | with_reducible refine KeptBy.next ?_
    | with_reducible apply Kept.adminBeside
    | with_reducible apply Kept.doAbort

theorem KeptBy.setFeatures {uu : Units} {zz s : State} (cntlid : Nat) (cid : Nat) (fid : Nat) (value : Nat) (save : Bool)
    (hk : Kept uu zz s) (hHce : uu.hce = true := by assumption) (hRfu : uu.rfu = true := by assumption)
    (hRfx : uu.rfx = true := by assumption) (hKvt : uu.kvt = true := by assumption) (hMbx : uu.mbx = true := by assumption)
    (hXbr : uu.xbr = true := by assumption) (hPmu : uu.pmu = true := by assumption)
    (hMoved : uu.moved = true := by assumption) (hOut : uu.out = true := by assumption)
    (hFree : uu.free = true := by assumption) :
    KeptBy uu zz (execSetFeatures cntlid cid fid value save s) := by
  unfold execSetFeatures
  repeat' first
    | with_reducible assumption
    | exact {}
    | intro _
    | extract_lets +onlyGivenNames _
    | with_reducible refine KeptBy.next ?_
    | with_reducible apply Kept.adminSubmit

theorem KeptBy.getFeatures {uu : Units} {zz s : State} (cntlid : Nat) (cid : Nat) (fid : Nat) (hk : Kept uu zz s)
    (hHce : uu.hce = true := by assumption) (hRfu : uu.rfu = true := by assumption) (hRfx : uu.rfx = true := by assumption)
    (hKvt : uu.kvt = true := by assumption) (hMbx : uu.mbx = true := by assumption) (hXbr : uu.xbr = true := by assumption)
    (hPmu : uu.pmu = true := by assumption) (hMoved : uu.moved = true := by assumption)
    (hOut : uu.out = true := by assumption) (hFree : uu.free = true := by assumption) :
    KeptBy uu zz (execGetFeatures cntlid cid fid s) := by
  unfold execGetFeatures
  repeat' first
    | with_reducible assumption
    | exact {}
    | intro _
    | extract_lets +onlyGivenNames _
    | with_reducible refine KeptBy.next ?_
    | with_reducible apply Kept.adminSubmit

theorem KeptBy.asynchronousEventRequest {uu : Units} {zz s : State} (cntlid : Nat) (cid : Nat) (hk : Kept uu zz s)
    (hHce : uu.hce = true := by assumption) (hRfu : uu.rfu = true := by assumption) (hRfx : uu.rfx = true := by assumption)
    (hKvt : uu.kvt = true := by assumption) (hMbx : uu.mbx = true := by assumption) (hXbr : uu.xbr = true := by assumption)
    (hPmu : uu.pmu = true := by assumption) (hMoved : uu.moved = true := by assumption)
    (hOut : uu.out = true := by assumption) (hFree : uu.free = true := by assumption) :
    KeptBy uu zz (execAsynchronousEventRequest cntlid cid s) := by
  unfold execAsynchronousEventRequest
  repeat' first
    | with_reducible assumption
    | exact {}
    | intro _
    | extract_lets +onlyGivenNames _
    | with_reducible refine KeptBy.next ?_
    | with_reducible apply Kept.adminSubmit

theorem KeptBy.keepAlive {uu : Units} {zz s : State} (cntlid : Nat) (cid : Nat) (hk : Kept uu zz s)
    (hHce : uu.hce = true := by assumption) (hRfx : uu.rfx = true := by assumption) (hXbr : uu.xbr = true := by assumption)
    (hPmu : uu.pmu = true := by assumption) (hMoved : uu.moved = true := by assumption)
    (hOut : uu.out = true := by assumption) :
    KeptBy uu zz (execKeepAlive cntlid cid s) := by
  unfold execKeepAlive
  repeat' first
    | with_reducible assumption
    | exact {}
    | intro _
    | extract_lets +onlyGivenNames _
    | with_reducible refine KeptBy.next ?_
    | with_reducible apply Kept.adminBeside
    | with_reducible apply Kept.updCtrl
    | with_reducible apply Kept.adminDone

theorem KeptBy.nvmeMiSend {uu : Units} {zz s : State} (cntlid : Nat) (cid : Nat) (miOpcode : Nat) (packet : List Byte) (hk
    : Kept uu zz s) (hHce : uu.hce = true := by assumption) (hRfu : uu.rfu = true := by assumption)
    (hRfx : uu.rfx = true := by assumption) (hKvt : uu.kvt = true := by assumption) (hMbx : uu.mbx = true := by assumption)
    (hXbr : uu.xbr = true := by assumption) (hPmu : uu.pmu = true := by assumption)
    (hMoved : uu.moved = true := by assumption) (hOut : uu.out = true := by assumption)
    (hFree : uu.free = true := by assumption) :
    KeptBy uu zz (execNvmeMiSend cntlid cid miOpcode packet s) := by
  unfold execNvmeMiSend
  repeat' first
    | with_reducible assumption
    | exact {}
    | intro _
    | extract_lets +onlyGivenNames _
    | with_reducible refine KeptBy.next ?_
    | with_reducible apply Kept.adminSubmit

theorem KeptBy.nvmeMiReceive {uu : Units} {zz s : State} (cntlid : Nat) (cid : Nat) (miOpcode : Nat) (packet : List Byte)
    (hk : Kept uu zz s) (hHce : uu.hce = true := by assumption) (hRfu : uu.rfu = true := by assumption)
    (hRfx : uu.rfx = true := by assumption) (hKvt : uu.kvt = true := by assumption) (hMbx : uu.mbx = true := by assumption)
    (hXbr : uu.xbr = true := by assumption) (hPmu : uu.pmu = true := by assumption)
    (hMoved : uu.moved = true := by assumption) (hOut : uu.out = true := by assumption)
    (hFree : uu.free = true := by assumption) :
    KeptBy uu zz (execNvmeMiReceive cntlid cid miOpcode packet s) := by
  unfold execNvmeMiReceive
  repeat' first
    | with_reducible assumption
    | exact {}
    | intro _
    | extract_lets +onlyGivenNames _
    | with_reducible refine KeptBy.next ?_
    | with_reducible apply Kept.adminSubmit

theorem KeptBy.formatNvm {uu : Units} {zz s : State} (cntlid : Nat) (cid : Nat) (nsid : Nat) (lbaf : Nat) (ses : Nat)
    (protection : Bool) (hk : Kept uu zz s) (hHce : uu.hce = true := by assumption) (hRfu : uu.rfu = true := by assumption)
    (hRfx : uu.rfx = true := by assumption) (hKvt : uu.kvt = true := by assumption) (hMbx : uu.mbx = true := by assumption)
    (hXbr : uu.xbr = true := by assumption) (hPmu : uu.pmu = true := by assumption)
    (hMoved : uu.moved = true := by assumption) (hOut : uu.out = true := by assumption)
    (hFree : uu.free = true := by assumption) :
    KeptBy uu zz (execFormatNvm cntlid cid nsid lbaf ses protection s) := by
  unfold execFormatNvm
  repeat' first
    | with_reducible assumption
    | exact {}
    | intro _
    | extract_lets +onlyGivenNames _
    | with_reducible refine KeptBy.next ?_
    | with_reducible apply Kept.adminSubmit

theorem KeptBy.sanitize {uu : Units} {zz s : State} (cntlid : Nat) (cid : Nat) (action : Nat) (hk : Kept uu zz s)
    (hHce : uu.hce = true := by assumption) (hRfu : uu.rfu = true := by assumption) (hRfx : uu.rfx = true := by assumption)
    (hKvt : uu.kvt = true := by assumption) (hMbx : uu.mbx = true := by assumption) (hXbr : uu.xbr = true := by assumption)
    (hPmu : uu.pmu = true := by assumption) (hMoved : uu.moved = true := by assumption)
    (hOut : uu.out = true := by assumption) (hFree : uu.free = true := by assumption) :
    KeptBy uu zz (execSanitize cntlid cid action s) := by
  unfold execSanitize
  repeat' first
    | with_reducible assumption
    | exact {}
    | intro _
    | extract_lets +onlyGivenNames _
    | with_reducible refine KeptBy.next ?_
    | with_reducible apply Kept.adminSubmit

theorem KeptBy.propertySet {uu : Units} {zz s : State} (cntlid : Nat) (cid : Nat) (offset : Nat) (value : Nat) (hk
    : Kept uu zz s) (hHce : uu.hce = true := by assumption) (hRfu : uu.rfu = true := by assumption)
    (hRfx : uu.rfx = true := by assumption) (hKvt : uu.kvt = true := by assumption) (hMbx : uu.mbx = true := by assumption)
    (hXbr : uu.xbr = true := by assumption) (hPmu : uu.pmu = true := by assumption)
    (hMoved : uu.moved = true := by assumption) (hOut : uu.out = true := by assumption)
    (hFree : uu.free = true := by assumption) :
    KeptBy uu zz (execPropertySet cntlid cid offset value s) := by
  unfold execPropertySet
  repeat' first
    | with_reducible assumption
    | exact {}
    | intro _
    | extract_lets +onlyGivenNames _
    | with_reducible refine KeptBy.next ?_
    | with_reducible apply Kept.adminSubmit

theorem KeptBy.propertyGet {uu : Units} {zz s : State} (cntlid : Nat) (cid : Nat) (offset : Nat) (hk : Kept uu zz s)
    (hHce : uu.hce = true := by assumption) (hRfu : uu.rfu = true := by assumption) (hRfx : uu.rfx = true := by assumption)
    (hKvt : uu.kvt = true := by assumption) (hMbx : uu.mbx = true := by assumption) (hXbr : uu.xbr = true := by assumption)
    (hPmu : uu.pmu = true := by assumption) (hMoved : uu.moved = true := by assumption)
    (hOut : uu.out = true := by assumption) (hFree : uu.free = true := by assumption) :
    KeptBy uu zz (execPropertyGet cntlid cid offset s) := by
  unfold execPropertyGet
  repeat' first
    | with_reducible assumption
    | exact {}
    | intro _
    | extract_lets +onlyGivenNames _
    | with_reducible refine KeptBy.next ?_
    | with_reducible apply Kept.adminSubmit

theorem KeptBy.authenticationSend {uu : Units} {zz s : State} (conn : Nat) (cid : Nat) (msg : AuthMsg) (hk : Kept uu zz s)
    (hHce : uu.hce = true := by assumption) (hRfu : uu.rfu = true := by assumption) (hRfx : uu.rfx = true := by assumption)
    (hKvt : uu.kvt = true := by assumption) (hMbx : uu.mbx = true := by assumption) (hXbr : uu.xbr = true := by assumption)
    (hPmu : uu.pmu = true := by assumption) (hMoved : uu.moved = true := by assumption)
    (hOut : uu.out = true := by assumption) (hFree : uu.free = true := by assumption) :
    KeptBy uu zz (execAuthenticationSend conn cid msg s) := by
  unfold execAuthenticationSend
  repeat' first
    | with_reducible assumption
    | exact {}
    | intro _
    | extract_lets +onlyGivenNames _
    | with_reducible refine KeptBy.next ?_
    | with_reducible apply Kept.adminSubmit
    | with_reducible apply Kept.authSend
    | split

theorem KeptBy.authenticationReceive {uu : Units} {zz s : State} (conn : Nat) (cid : Nat) (hk : Kept uu zz s)
    (hHce : uu.hce = true := by assumption) (hRfu : uu.rfu = true := by assumption) (hRfx : uu.rfx = true := by assumption)
    (hKvt : uu.kvt = true := by assumption) (hMbx : uu.mbx = true := by assumption) (hXbr : uu.xbr = true := by assumption)
    (hPmu : uu.pmu = true := by assumption) (hMoved : uu.moved = true := by assumption)
    (hOut : uu.out = true := by assumption) (hFree : uu.free = true := by assumption) :
    KeptBy uu zz (execAuthenticationReceive conn cid s) := by
  unfold execAuthenticationReceive
  repeat' first
    | with_reducible assumption
    | exact {}
    | intro _
    | extract_lets +onlyGivenNames _
    | with_reducible refine KeptBy.next ?_
    | with_reducible apply Kept.adminSubmit
    | with_reducible apply Kept.authReceive
    | split

theorem KeptBy.invalidAdminOpcode {uu : Units} {zz s : State} (cntlid : Nat) (cid : Nat) (opcode : Nat) (hk : Kept uu zz s)
    (hHce : uu.hce = true := by assumption) (hRfu : uu.rfu = true := by assumption) (hRfx : uu.rfx = true := by assumption)
    (hKvt : uu.kvt = true := by assumption) (hMbx : uu.mbx = true := by assumption) (hXbr : uu.xbr = true := by assumption)
    (hPmu : uu.pmu = true := by assumption) (hMoved : uu.moved = true := by assumption)
    (hOut : uu.out = true := by assumption) (hFree : uu.free = true := by assumption) :
    KeptBy uu zz (execInvalidAdminOpcode cntlid cid opcode s) := by
  unfold execInvalidAdminOpcode
  repeat' first
    | with_reducible assumption
    | exact {}
    | intro _
    | extract_lets +onlyGivenNames _
    | with_reducible refine KeptBy.next ?_
    | with_reducible apply Kept.adminSubmit

theorem KeptBy.progressRecordAvailable {uu : Units} {zz s : State} (hk : Kept uu zz s)
    (hHce : uu.hce = true := by assumption) (hRfu : uu.rfu = true := by assumption) (hRfx : uu.rfx = true := by assumption)
    (hKvt : uu.kvt = true := by assumption) (hMbx : uu.mbx = true := by assumption) (hXbr : uu.xbr = true := by assumption)
    (hPmu : uu.pmu = true := by assumption) (hMoved : uu.moved = true := by assumption)
    (hOut : uu.out = true := by assumption) (hFree : uu.free = true := by assumption) :
    KeptBy uu zz (execProgressRecordAvailable s) := by
  unfold execProgressRecordAvailable
  repeat' first
    | with_reducible assumption
    | exact {}
    | intro _
    | extract_lets +onlyGivenNames _
    | with_reducible refine KeptBy.next ?_
    | with_reducible apply Kept.adminAll

theorem KeptBy.disconnect {uu : Units} {zz s : State} (cntlid : Nat) (sqid : Nat) (cid : Nat) (hk : Kept uu zz s)
    (hHce : uu.hce = true := by assumption) (hRfu : uu.rfu = true := by assumption) (hRfx : uu.rfx = true := by assumption)
    (hKvt : uu.kvt = true := by assumption) (hMbx : uu.mbx = true := by assumption) (hXbr : uu.xbr = true := by assumption)
    (hPmu : uu.pmu = true := by assumption) (hMoved : uu.moved = true := by assumption)
    (hOut : uu.out = true := by assumption) (hFree : uu.free = true := by assumption) :
    KeptBy uu zz (execDisconnect cntlid sqid cid s) := by
  unfold execDisconnect
  repeat' first
    | with_reducible assumption
    | exact {}
    | intro _
    | (extract_lets +onlyGivenNames x; first | refine Kept.cut x ?_ ?_ <;> [subst x; (clear_value x; intro _)] | refine KeptBy.cut x ?_ ?_ <;> [subst x; (clear_value x; intro _)] | skip)
    | with_reducible refine KeptBy.next ?_
    | with_reducible apply Kept.adminSubmit
    | with_reducible apply Kept.flushQueue
    | with_reducible apply Kept.updSq
    | with_reducible apply Kept.squash
    | with_reducible refine Kept.foldl ?_ _ ?_
    | split

theorem KeptBy.disconnectComplete {uu : Units} {zz s : State} (cntlid : Nat) (sqid : Nat) (hk : Kept uu zz s)
    (hHce : uu.hce = true := by assumption) (hRfu : uu.rfu = true := by assumption) (hRfx : uu.rfx = true := by assumption)
    (hKvt : uu.kvt = true := by assumption) (hXbr : uu.xbr = true := by assumption) (hPmu : uu.pmu = true := by assumption)
    (hMoved : uu.moved = true := by assumption) (hOut : uu.out = true := by assumption) :
    KeptBy uu zz (execDisconnectComplete cntlid sqid s) := by
  unfold execDisconnectComplete
  repeat' first
    | with_reducible assumption
    | exact {}
    | intro _
    | extract_lets +onlyGivenNames _
    | with_reducible refine KeptBy.next ?_
    | with_reducible apply Kept.postCqe
    | with_reducible apply Kept.endQueue
    | with_reducible apply Kept.dropConn
    | split

end Sys2Proof.Machine
end

