-- ==== Sys2Proof/Laws/KeptQueues.lean ====
section
/-! SUPPORT. `Kept` for the operations of Machine/Queues.lean. -/

set_option Elab.async false

namespace Sys2Proof.Machine

theorem Kept.leaveHead {uu : Units} {zz s : State} (q : SubQ) (hk : Kept uu zz s) (hHce : uu.hce = true := by assumption)
    : Kept uu zz (State.leaveHead s q) := by
  unfold State.leaveHead
  repeat' first
    | with_reducible assumption
    | exact {}
    | intro _
    | with_reducible apply Kept.updSq

theorem Kept.grantTag {uu : Units} {zz s : State} (r : TagRec) (hk : Kept uu zz s) (hHce : uu.hce = true := by assumption)
    (hRfx : uu.rfx = true := by assumption) (hTk : uu.tk = true := by assumption) (hXbr : uu.xbr = true := by assumption)
    (hPmu : uu.pmu = true := by assumption) (hMoved : uu.moved = true := by assumption)
    (hCfg : uu.cfg = true := by assumption) (hOut : uu.out = true := by assumption) : Kept uu zz (State.grantTag s r) := by
  unfold State.grantTag
  repeat' first
    | with_reducible assumption
    | exact {}
    | intro _
    | (extract_lets +onlyGivenNames x; first | refine Kept.cut x ?_ ?_ <;> [subst x; (clear_value x; intro _)] | skip)
    | with_reducible apply Kept.updHce
    | with_reducible apply Kept.updTk
    | with_reducible apply Kept.sendRec
    | with_reducible apply Kept.updTag
    | with_reducible apply Kept.putReg
    | with_reducible apply Kept.hostEvent
    | split

theorem Kept.markRegions {uu : Units} {zz s : State} (r : TagRec) (n : Ns) (hk : Kept uu zz s)
    (hVsm : uu.vsm = true := by assumption) : Kept uu zz (State.markRegions s r n) := by
  unfold State.markRegions
  repeat' first
    | with_reducible assumption
    | exact {}
    | intro _
    | with_reducible apply Kept.markMig
    | split

theorem Kept.takeLocks {uu : Units} {zz s : State} (r : TagRec) (n : Ns) (hk : Kept uu zz s)
    (hHce : uu.hce = true := by assumption) (hRfu : uu.rfu = true := by assumption) (hRge : uu.rge = true := by assumption)
    (hRfx : uu.rfx = true := by assumption) (hBay : uu.bay = true := by assumption) (hXbr : uu.xbr = true := by assumption)
    (hPwr : uu.pwr = true := by assumption) (hPmu : uu.pmu = true := by assumption)
    (hMoved : uu.moved = true := by assumption) (hOut : uu.out = true := by assumption)
    (hFree : uu.free = true := by assumption) : Kept uu zz (State.takeLocks s r n) := by
  unfold State.takeLocks
  repeat' first
    | with_reducible assumption
    | exact {}
    | intro _
    | (extract_lets +onlyGivenNames x; first | refine Kept.cut x ?_ ?_ <;> [subst x; (clear_value x; intro _)] | skip)
    | with_reducible apply Kept.updHce
    | with_reducible apply Kept.tryLock
    | with_reducible apply Kept.bumpBy
    | with_reducible apply Kept.hostEvent

theorem Kept.visit {uu : Units} {zz s : State} (q : SubQ) (hk : Kept uu zz s) (hHce : uu.hce = true := by assumption)
    (hRfu : uu.rfu = true := by assumption) (hRge : uu.rge = true := by assumption) (hRfx : uu.rfx = true := by assumption)
    (hTk : uu.tk = true := by assumption) (hVsm : uu.vsm = true := by assumption) (hBay : uu.bay = true := by assumption)
    (hXbr : uu.xbr = true := by assumption) (hPwr : uu.pwr = true := by assumption) (hPmu : uu.pmu = true := by assumption)
    (hMoved : uu.moved = true := by assumption) (hCfg : uu.cfg = true := by assumption)
    (hOut : uu.out = true := by assumption) (hFree : uu.free = true := by assumption) : Kept uu zz (State.visit s q) := by
  unfold State.visit
  repeat' first
    | with_reducible assumption
    | exact {}
    | intro _
    | (extract_lets +onlyGivenNames x; first | refine Kept.cut x ?_ ?_ <;> [subst x; (clear_value x; intro _)] | skip)
    | with_reducible apply Kept.leaveHead
    | with_reducible apply Kept.dropIntake
    | with_reducible apply Kept.postCqe
    | with_reducible apply Kept.countCpl
    | with_reducible apply Kept.grantTag
    | with_reducible apply Kept.failTag
    | with_reducible apply Kept.hostEvent
    | with_reducible apply Kept.updTag
    | with_reducible apply Kept.markRegions
    | with_reducible apply Kept.takeLocks
    | split

theorem Kept.turnOf {uu : Units} {zz s : State} (v : Nat) (hk : Kept uu zz s) (hHce : uu.hce = true := by assumption)
    : KeptOpt uu zz (State.turnOf s v) := by
  unfold State.turnOf
  repeat' first
    | with_reducible assumption
    | exact {}
    | intro _
    | extract_lets +onlyGivenNames _
    | with_reducible apply Kept.updHce
    | with_reducible refine KeptOpt.some ?_
    | with_reducible exact KeptOpt.none
    | split

theorem Kept.sendR2ts {uu : Units} {zz : State} (r : TagRec) (fuel : Nat) (hOut : uu.out = true := by assumption) :
    ∀ (o n : Nat) {s : State}, Kept uu zz s → Kept uu zz (State.sendR2ts s r fuel o n) := by
  induction fuel with
  | zero => exact fun _ _ _ h => h
  | succ fuel ih =>
    intro o n s hk
    unfold State.sendR2ts
    split
    · exact hk
    · exact ih _ _ (Kept.emit _ hk)

theorem Kept.startFetchData {uu : Units} {zz s : State} (r : TagRec) (hk : Kept uu zz s)
    (hHce : uu.hce = true := by assumption) (hOut : uu.out = true := by assumption) : Kept uu zz
    (State.startFetchData s r) := by
  unfold State.startFetchData
  repeat' first
    | with_reducible assumption
    | exact {}
    | intro _
    | (extract_lets +onlyGivenNames x; refine Kept.cut x ?_ ?_ <;> [subst x; (clear_value x; intro _)])
    | with_reducible apply Kept.updTag
    | with_reducible apply Kept.emit
    | with_reducible apply Kept.sendR2ts
    | split

theorem Kept.onTag {uu : Units} {zz s : State} (tag : Nat) (op : Nat) (st : TagSt) (f : TagRec → State) (hf
    : ∀ x0, Kept uu zz (f x0)) (hk : Kept uu zz s) : Kept uu zz (State.onTag s tag op st f) := by
  unfold State.onTag
  repeat' first
    | with_reducible assumption
    | exact {}
    | intro _
    | with_reducible apply hf
    | split

theorem Kept.gatherOrFail {uu : Units} {zz s : State} (r : TagRec) (hk : Kept uu zz s)
    (hHce : uu.hce = true := by assumption) (hRfu : uu.rfu = true := by assumption) (hRge : uu.rge = true := by assumption)
    (hRfx : uu.rfx = true := by assumption) (hBay : uu.bay = true := by assumption) (hXbr : uu.xbr = true := by assumption)
    (hPmu : uu.pmu = true := by assumption) (hMoved : uu.moved = true := by assumption)
    (hOut : uu.out = true := by assumption) (hFree : uu.free = true := by assumption) : Kept uu zz
    (State.gatherOrFail s r) := by
  unfold State.gatherOrFail
  repeat' first
    | with_reducible assumption
    | exact {}
    | intro _
    | with_reducible apply Kept.failTag
    | with_reducible apply Kept.gatherRead
    | split

theorem Kept.startChange {uu : Units} {zz s : State} (tag : Nat) (op : Nat) (hk : Kept uu zz s)
    (hHce : uu.hce = true := by assumption) (hRge : uu.rge = true := by assumption) (hRfx : uu.rfx = true := by assumption)
    (hBay : uu.bay = true := by assumption) (hXbr : uu.xbr = true := by assumption) (hPwr : uu.pwr = true := by assumption)
    (hPmu : uu.pmu = true := by assumption) (hMoved : uu.moved = true := by assumption)
    (hOut : uu.out = true := by assumption) (hFree : uu.free = true := by assumption) : Kept uu zz
    (State.startChange s tag op) := by
  unfold State.startChange
  repeat' first
    | with_reducible assumption
    | exact {}
    | intro _
    | extract_lets +onlyGivenNames _
    | with_reducible apply Kept.onTag
    | with_reducible apply Kept.updTag
    | with_reducible apply Kept.placeWrite

theorem Kept.tryHandOff {uu : Units} {zz s : State} (tag : Nat) (hk : Kept uu zz s) (hHce : uu.hce = true := by assumption)
    (hRfu : uu.rfu = true := by assumption) (hRfx : uu.rfx = true := by assumption) (hXbr : uu.xbr = true := by assumption)
    (hPmu : uu.pmu = true := by assumption) (hMoved : uu.moved = true := by assumption)
    (hOut : uu.out = true := by assumption) : Kept uu zz (State.tryHandOff s tag) := by
  unfold State.tryHandOff
  repeat' first
    | with_reducible assumption
    | exact {}
    | intro _
    | with_reducible apply Kept.handOff
    | split

theorem Kept.tagqryWrite {uu : Units} {zz s : State} (w : Word) (hk : Kept uu zz s) (hHce : uu.hce = true := by assumption)
    (hCfg : uu.cfg = true := by assumption) : Kept uu zz (State.tagqryWrite s w) := by
  unfold State.tagqryWrite
  repeat' first
    | with_reducible assumption
    | exact {}
    | intro _
    | extract_lets +onlyGivenNames _
    | with_reducible apply Kept.putReg
    | with_reducible apply Kept.updHce

/-! ## The commands -/

theorem KeptBy.capsuleIntake {uu : Units} {zz s : State} (cntlid : Nat) (sqid : Nat) (capsule : Capsule) (hk : Kept uu zz s)
    (hHce : uu.hce = true := by assumption) (hRfu : uu.rfu = true := by assumption) (hRfx : uu.rfx = true := by assumption)
    (hKvt : uu.kvt = true := by assumption) (hXbr : uu.xbr = true := by assumption) (hPmu : uu.pmu = true := by assumption)
    (hMoved : uu.moved = true := by assumption) (hOut : uu.out = true := by assumption) :
    KeptBy uu zz (execCapsuleIntake cntlid sqid capsule s) := by
  unfold execCapsuleIntake
  repeat' first
    | with_reducible assumption
    | exact {}
    | intro _
    | extract_lets +onlyGivenNames _
    | with_reducible refine KeptBy.next ?_
    | with_reducible apply Kept.updSq
    | with_reducible apply Kept.postCqe
    | with_reducible apply Kept.bump
    | with_reducible apply Kept.closeLost
    | with_reducible apply Kept.mirSend
    | with_reducible apply Kept.updConn
    | split

theorem KeptBy.admission {uu : Units} {zz s : State} (vsid : Nat) (hk : Kept uu zz s)
    (hHce : uu.hce = true := by assumption) (hRfu : uu.rfu = true := by assumption) (hRge : uu.rge = true := by assumption)
    (hRfx : uu.rfx = true := by assumption) (hTk : uu.tk = true := by assumption) (hVsm : uu.vsm = true := by assumption)
    (hBay : uu.bay = true := by assumption) (hXbr : uu.xbr = true := by assumption) (hPwr : uu.pwr = true := by assumption)
    (hPmu : uu.pmu = true := by assumption) (hMoved : uu.moved = true := by assumption)
    (hCfg : uu.cfg = true := by assumption) (hOut : uu.out = true := by assumption)
    (hFree : uu.free = true := by assumption) :
    KeptBy uu zz (execAdmission vsid s) := by
  unfold execAdmission
  repeat' first
    | with_reducible assumption
    | exact {}
    | intro _
    | extract_lets +onlyGivenNames _
    | with_reducible refine KeptBy.next ?_
    | with_reducible apply Kept.turnOf
    | with_reducible apply Kept.updHce
    | with_reducible apply Kept.visit
    | refine Kept.ofSome (by assumption) ?_
    | split

theorem KeptBy.invalidIoOpcode {uu : Units} {zz s : State} (cntlid : Nat) (sqid : Nat) (hk : Kept uu zz s)
    (hHce : uu.hce = true := by assumption) (hRfu : uu.rfu = true := by assumption) (hRge : uu.rge = true := by assumption)
    (hRfx : uu.rfx = true := by assumption) (hTk : uu.tk = true := by assumption) (hVsm : uu.vsm = true := by assumption)
    (hBay : uu.bay = true := by assumption) (hXbr : uu.xbr = true := by assumption) (hPwr : uu.pwr = true := by assumption)
    (hPmu : uu.pmu = true := by assumption) (hMoved : uu.moved = true := by assumption)
    (hCfg : uu.cfg = true := by assumption) (hOut : uu.out = true := by assumption)
    (hFree : uu.free = true := by assumption) :
    KeptBy uu zz (execInvalidIoOpcode cntlid sqid s) := by
  unfold execInvalidIoOpcode
  repeat' first
    | with_reducible assumption
    | exact {}
    | intro _
    | extract_lets +onlyGivenNames _
    | with_reducible refine KeptBy.next ?_
    | with_reducible apply Kept.visit
    | split

theorem KeptBy.flush {uu : Units} {zz s : State} (tag : Nat) (hk : Kept uu zz s) (hHce : uu.hce = true := by assumption)
    (hRfx : uu.rfx = true := by assumption) (hXbr : uu.xbr = true := by assumption) (hPmu : uu.pmu = true := by assumption)
    (hMoved : uu.moved = true := by assumption) (hOut : uu.out = true := by assumption) :
    KeptBy uu zz (execFlush tag s) := by
  unfold execFlush
  repeat' first
    | with_reducible assumption
    | exact {}
    | intro _
    | extract_lets +onlyGivenNames _
    | with_reducible refine KeptBy.next ?_
    | with_reducible apply Kept.onTag
    | with_reducible apply Kept.respond
    | split

theorem KeptBy.write {uu : Units} {zz s : State} (tag : Nat) (hk : Kept uu zz s) (hHce : uu.hce = true := by assumption)
    (hOut : uu.out = true := by assumption) :
    KeptBy uu zz (execWrite tag s) := by
  unfold execWrite
  repeat' first
    | with_reducible assumption
    | exact {}
    | intro _
    | extract_lets +onlyGivenNames _
    | with_reducible refine KeptBy.next ?_
    | with_reducible apply Kept.onTag
    | with_reducible apply Kept.startFetchData

theorem KeptBy.read {uu : Units} {zz s : State} (tag : Nat) (hk : Kept uu zz s) (hHce : uu.hce = true := by assumption)
    (hRfu : uu.rfu = true := by assumption) (hRge : uu.rge = true := by assumption) (hRfx : uu.rfx = true := by assumption)
    (hBay : uu.bay = true := by assumption) (hXbr : uu.xbr = true := by assumption) (hPmu : uu.pmu = true := by assumption)
    (hMoved : uu.moved = true := by assumption) (hOut : uu.out = true := by assumption)
    (hFree : uu.free = true := by assumption) :
    KeptBy uu zz (execRead tag s) := by
  unfold execRead
  repeat' first
    | with_reducible assumption
    | exact {}
    | intro _
    | extract_lets +onlyGivenNames _
    | with_reducible refine KeptBy.next ?_
    | with_reducible apply Kept.onTag
    | with_reducible apply Kept.gatherOrFail
    | split

theorem KeptBy.compare {uu : Units} {zz s : State} (tag : Nat) (hk : Kept uu zz s) (hHce : uu.hce = true := by assumption)
    (hRfu : uu.rfu = true := by assumption) (hRge : uu.rge = true := by assumption) (hRfx : uu.rfx = true := by assumption)
    (hBay : uu.bay = true := by assumption) (hXbr : uu.xbr = true := by assumption) (hPmu : uu.pmu = true := by assumption)
    (hMoved : uu.moved = true := by assumption) (hOut : uu.out = true := by assumption)
    (hFree : uu.free = true := by assumption) :
    KeptBy uu zz (execCompare tag s) := by
  unfold execCompare
  repeat' first
    | with_reducible assumption
    | exact {}
    | intro _
    | (extract_lets +onlyGivenNames x; first | refine Kept.cut x ?_ ?_ <;> [subst x; (clear_value x; intro _)] | refine KeptBy.cut x ?_ ?_ <;> [subst x; (clear_value x; intro _)] | skip)
    | with_reducible refine KeptBy.next ?_
    | with_reducible apply Kept.startFetchData
    | with_reducible apply Kept.gatherOrFail
    | split

theorem KeptBy.writeZeroes {uu : Units} {zz s : State} (tag : Nat) (hk : Kept uu zz s)
    (hHce : uu.hce = true := by assumption) (hRge : uu.rge = true := by assumption) (hRfx : uu.rfx = true := by assumption)
    (hBay : uu.bay = true := by assumption) (hXbr : uu.xbr = true := by assumption) (hPwr : uu.pwr = true := by assumption)
    (hPmu : uu.pmu = true := by assumption) (hMoved : uu.moved = true := by assumption)
    (hOut : uu.out = true := by assumption) (hFree : uu.free = true := by assumption) :
    KeptBy uu zz (execWriteZeroes tag s) := by
  unfold execWriteZeroes
  repeat' first
    | with_reducible assumption
    | exact {}
    | intro _
    | extract_lets +onlyGivenNames _
    | with_reducible refine KeptBy.next ?_
    | with_reducible apply Kept.startChange

theorem KeptBy.datasetManagement {uu : Units} {zz s : State} (tag : Nat) (hk : Kept uu zz s)
    (hHce : uu.hce = true := by assumption) (hRge : uu.rge = true := by assumption) (hRfx : uu.rfx = true := by assumption)
    (hBay : uu.bay = true := by assumption) (hXbr : uu.xbr = true := by assumption) (hPwr : uu.pwr = true := by assumption)
    (hPmu : uu.pmu = true := by assumption) (hMoved : uu.moved = true := by assumption)
    (hOut : uu.out = true := by assumption) (hFree : uu.free = true := by assumption) :
    KeptBy uu zz (execDatasetManagement tag s) := by
  unfold execDatasetManagement
  repeat' first
    | with_reducible assumption
    | exact {}
    | intro _
    | extract_lets +onlyGivenNames _
    | with_reducible refine KeptBy.next ?_
    | with_reducible apply Kept.startChange
    | with_reducible apply Kept.respond
    | split

theorem KeptBy.hostDataReceived {uu : Units} {zz s : State} (tag : Nat) (ok : Bool) (sectors : List Sector) (hk
    : Kept uu zz s) (hHce : uu.hce = true := by assumption) (hRfu : uu.rfu = true := by assumption)
    (hRge : uu.rge = true := by assumption) (hRfx : uu.rfx = true := by assumption) (hBay : uu.bay = true := by assumption)
    (hXbr : uu.xbr = true := by assumption) (hPwr : uu.pwr = true := by assumption) (hPmu : uu.pmu = true := by assumption)
    (hMoved : uu.moved = true := by assumption) (hOut : uu.out = true := by assumption)
    (hFree : uu.free = true := by assumption) :
    KeptBy uu zz (execHostDataReceived tag ok sectors s) := by
  unfold execHostDataReceived
  repeat' first
    | with_reducible assumption
    | exact {}
    | intro _
    | extract_lets +onlyGivenNames _
    | with_reducible refine KeptBy.next ?_
    | with_reducible apply Kept.updTag
    | with_reducible apply Kept.failTag
    | with_reducible apply Kept.placeWrite
    | split

theorem KeptBy.commitPoint {uu : Units} {zz s : State} (tag : Nat) (hk : Kept uu zz s)
    (hHce : uu.hce = true := by assumption) (hRfu : uu.rfu = true := by assumption) (hRfx : uu.rfx = true := by assumption)
    (hXbr : uu.xbr = true := by assumption) (hPmu : uu.pmu = true := by assumption)
    (hMoved : uu.moved = true := by assumption) (hOut : uu.out = true := by assumption) :
    KeptBy uu zz (execCommitPoint tag s) := by
  unfold execCommitPoint
  repeat' first
    | with_reducible assumption
    | exact {}
    | intro _
    | extract_lets +onlyGivenNames _
    | with_reducible refine KeptBy.next ?_
    | with_reducible apply Kept.deliver
    | with_reducible apply Kept.commitRead
    | with_reducible apply Kept.settle
    | with_reducible apply Kept.commitWrite
    | split

theorem KeptBy.responseHandoff {uu : Units} {zz s : State} (tag : Nat) (hk : Kept uu zz s)
    (hHce : uu.hce = true := by assumption) (hRfu : uu.rfu = true := by assumption) (hRfx : uu.rfx = true := by assumption)
    (hXbr : uu.xbr = true := by assumption) (hPmu : uu.pmu = true := by assumption)
    (hMoved : uu.moved = true := by assumption) (hOut : uu.out = true := by assumption) :
    KeptBy uu zz (execResponseHandoff tag s) := by
  unfold execResponseHandoff
  repeat' first
    | with_reducible assumption
    | exact {}
    | intro _
    | extract_lets +onlyGivenNames _
    | with_reducible refine KeptBy.next ?_
    | with_reducible apply Kept.tryHandOff

theorem KeptBy.responseAcknowledged {uu : Units} {zz s : State} (tag : Nat) (hk : Kept uu zz s)
    (hHce : uu.hce = true := by assumption) (hRfu : uu.rfu = true := by assumption) (hRfx : uu.rfx = true := by assumption)
    (hXbr : uu.xbr = true := by assumption) (hPmu : uu.pmu = true := by assumption)
    (hMoved : uu.moved = true := by assumption) (hOut : uu.out = true := by assumption) :
    KeptBy uu zz (execResponseAcknowledged tag s) := by
  unfold execResponseAcknowledged
  repeat' first
    | with_reducible assumption
    | exact {}
    | intro _
    | extract_lets +onlyGivenNames _
    | with_reducible refine KeptBy.next ?_
    | with_reducible apply Kept.freeTag
    | split

theorem KeptBy.squashComplete {uu : Units} {zz s : State} (tag : Nat) (hk : Kept uu zz s)
    (hHce : uu.hce = true := by assumption) (hRfu : uu.rfu = true := by assumption) (hRfx : uu.rfx = true := by assumption)
    (hXbr : uu.xbr = true := by assumption) (hPmu : uu.pmu = true := by assumption)
    (hMoved : uu.moved = true := by assumption) (hOut : uu.out = true := by assumption) :
    KeptBy uu zz (execSquashComplete tag s) := by
  unfold execSquashComplete
  repeat' first
    | with_reducible assumption
    | exact {}
    | intro _
    | extract_lets +onlyGivenNames _
    | with_reducible refine KeptBy.next ?_
    | with_reducible apply Kept.freeTag
    | with_reducible apply Kept.finishAborts
    | with_reducible apply Kept.tryHandOff
    | with_reducible apply Kept.respond
    | split

theorem KeptBy.rangeLockGrant {uu : Units} {zz s : State} (tag : Nat) (hk : Kept uu zz s)
    (hHce : uu.hce = true := by assumption) (hRfu : uu.rfu = true := by assumption) (hRge : uu.rge = true := by assumption)
    (hRfx : uu.rfx = true := by assumption) (hBay : uu.bay = true := by assumption) (hXbr : uu.xbr = true := by assumption)
    (hPwr : uu.pwr = true := by assumption) (hPmu : uu.pmu = true := by assumption)
    (hMoved : uu.moved = true := by assumption) (hOut : uu.out = true := by assumption)
    (hFree : uu.free = true := by assumption) :
    KeptBy uu zz (execRangeLockGrant tag s) := by
  unfold execRangeLockGrant
  repeat' first
    | with_reducible assumption
    | exact {}
    | intro _
    | extract_lets +onlyGivenNames _
    | with_reducible refine KeptBy.next ?_
    | with_reducible apply Kept.tryLock

theorem KeptBy.tagqryWrite {uu : Units} {zz s : State} (w : Word) (hk : Kept uu zz s)
    (hHce : uu.hce = true := by assumption) (hCfg : uu.cfg = true := by assumption) :
    KeptBy uu zz (execTagqryWrite w s) := by
  unfold execTagqryWrite
  repeat' first
    | with_reducible assumption
    | exact {}
    | intro _
    | extract_lets +onlyGivenNames _
    | with_reducible refine KeptBy.next ?_
    | with_reducible apply Kept.tagqryWrite

end Sys2Proof.Machine
end

