-- ==== Sys2Proof/Laws/KeptSubsystems.lean ====
section
/-! SUPPORT. `Kept` for the operations of Machine/Subsystems.lean. -/

set_option Elab.async false

namespace Sys2Proof.Machine

/-- The state that a configuration command may answer keeps what `z` fixed. -/
structure KeptPlan (uu : Units) (z : State) (p : Plan) : Prop where
  keeps : ∀ t res, p = .ok (t, res) → Kept uu z t

theorem KeptPlan.planned {uu : Units} {z : State} (checks : List (Bool × Nat)) {e : State × List Byte} (h : Kept uu z e.1) :
    KeptPlan uu z (planned checks e) :=
  ⟨fun t res hp => by
    unfold Machine.planned at hp
    split at hp
    · cases hp
    · cases hp
      exact h⟩

theorem KeptPlan.ok {uu : Units} {z : State} {e : State × List Byte} (h : Kept uu z e.1) : KeptPlan uu z (.ok e) :=
  ⟨fun t res hp => by
    cases hp
    exact h⟩

theorem KeptPlan.error {uu : Units} {z : State} {st : Nat} : KeptPlan uu z (.error st) := ⟨fun _ _ hp => by cases hp⟩

theorem KeptPlan.map {uu : Units} {z : State} {p : Plan} {f : State × List Byte → State × List Byte} (hf : ∀ e, Kept uu z e.1 → Kept uu z (f e).1)
    (h : KeptPlan uu z p) : KeptPlan uu z (p.map f) := by
  cases p with
  | error st => exact KeptPlan.error
  | ok e => exact KeptPlan.ok (hf e (h.keeps e.1 e.2 rfl))

theorem KeptPlan.cut {uu : Units} {z : State} {p : Plan} (x : State) (h : Kept uu z x) (k : Kept uu z x → KeptPlan uu z p) : KeptPlan uu z p := k h

theorem Kept.ofPlan {uu : Units} {z t : State} {p : Plan} {res : List Byte} (e : p = .ok (t, res)) (h : KeptPlan uu z p) : Kept uu z t :=
  h.keeps t res e

theorem Kept.updVsm {uu : Units} {zz s : State} (f : VsmSt → VsmSt) (hk : Kept uu zz s)
    (hVsm : uu.vsm = true := by assumption) : Kept uu zz (State.updVsm s f) := by
  unfold State.updVsm
  repeat' first
    | with_reducible assumption
    | exact {}
    | intro _
    | split
    | (with_reducible apply Kept.update) <;> [assumption; exact {}]

theorem Kept.planVsCreate {uu : Units} {zz s : State} (p : List Byte) (hk : Kept uu zz s)
    (hVsm : uu.vsm = true := by assumption) (hPmu : uu.pmu = true := by assumption) : KeptPlan uu zz
    (State.planVsCreate s p) := by
  unfold State.planVsCreate
  repeat' first
    | with_reducible assumption
    | exact {}
    | intro _
    | extract_lets +onlyGivenNames _
    | with_reducible apply Kept.planned
    | with_reducible apply Kept.updVsm
    | with_reducible apply Kept.zeroVsRec
    | refine Kept.ofPlan (by assumption) ?_
    | with_reducible refine KeptPlan.planned _ ?_

theorem Kept.forgetHosts {uu : Units} {zz s : State} (v : Nat) (hk : Kept uu zz s) (hHce : uu.hce = true := by assumption)
    (hRfu : uu.rfu = true := by assumption) (hRfx : uu.rfx = true := by assumption) (hKvt : uu.kvt = true := by assumption)
    (hXbr : uu.xbr = true := by assumption) (hPmu : uu.pmu = true := by assumption)
    (hMoved : uu.moved = true := by assumption) (hOut : uu.out = true := by assumption) : Kept uu zz
    (State.forgetHosts s v) := by
  unfold State.forgetHosts
  repeat' first
    | with_reducible assumption
    | exact {}
    | intro _
    | (extract_lets +onlyGivenNames x; first | refine Kept.cut x ?_ ?_ <;> [subst x; (clear_value x; intro _)] | skip)
    | with_reducible apply Kept.windTag
    | with_reducible apply Kept.dropConn
    | with_reducible apply Kept.updHce
    | with_reducible refine Kept.foldl ?_ _ ?_

theorem Kept.planVsDelete {uu : Units} {zz s : State} (p : List Byte) (hk : Kept uu zz s)
    (hHce : uu.hce = true := by assumption) (hRfu : uu.rfu = true := by assumption) (hRfx : uu.rfx = true := by assumption)
    (hVsm : uu.vsm = true := by assumption) (hKvt : uu.kvt = true := by assumption) (hXbr : uu.xbr = true := by assumption)
    (hPmu : uu.pmu = true := by assumption) (hMoved : uu.moved = true := by assumption)
    (hOut : uu.out = true := by assumption) : KeptPlan uu zz (State.planVsDelete s p) := by
  unfold State.planVsDelete
  repeat' first
    | with_reducible assumption
    | exact {}
    | intro _
    | extract_lets +onlyGivenNames _
    | with_reducible apply Kept.planned
    | with_reducible apply Kept.forgetHosts
    | with_reducible apply Kept.updVsm
    | with_reducible apply Kept.zeroVsRec
    | refine Kept.ofPlan (by assumption) ?_
    | with_reducible refine KeptPlan.planned _ ?_

theorem Kept.planVsModify {uu : Units} {zz s : State} (p : List Byte) (hk : Kept uu zz s)
    (hVsm : uu.vsm = true := by assumption) : KeptPlan uu zz (State.planVsModify s p) := by
  unfold State.planVsModify
  repeat' first
    | with_reducible assumption
    | exact {}
    | intro _
    | extract_lets +onlyGivenNames _
    | with_reducible apply Kept.planned
    | with_reducible apply Kept.updVs
    | refine Kept.ofPlan (by assumption) ?_
    | with_reducible refine KeptPlan.planned _ ?_

theorem Kept.endHost {uu : Units} {zz s : State} (v : Nat) (h : Nqn) (hk : Kept uu zz s)
    (hHce : uu.hce = true := by assumption) (hRfu : uu.rfu = true := by assumption) (hRfx : uu.rfx = true := by assumption)
    (hXbr : uu.xbr = true := by assumption) (hPmu : uu.pmu = true := by assumption)
    (hMoved : uu.moved = true := by assumption) (hOut : uu.out = true := by assumption) : Kept uu zz
    (State.endHost s v h) := by
  unfold State.endHost
  repeat' first
    | with_reducible assumption
    | exact {}
    | intro _
    | extract_lets +onlyGivenNames _
    | with_reducible apply Kept.beginReset
    | with_reducible refine Kept.foldl ?_ _ ?_

theorem Kept.planVsHosts {uu : Units} {zz s : State} (p : List Byte) (hk : Kept uu zz s)
    (hHce : uu.hce = true := by assumption) (hRfu : uu.rfu = true := by assumption) (hRfx : uu.rfx = true := by assumption)
    (hVsm : uu.vsm = true := by assumption) (hXbr : uu.xbr = true := by assumption) (hPmu : uu.pmu = true := by assumption)
    (hMoved : uu.moved = true := by assumption) (hOut : uu.out = true := by assumption) : KeptPlan uu zz
    (State.planVsHosts s p) := by
  unfold State.planVsHosts
  repeat' first
    | with_reducible assumption
    | exact {}
    | intro _
    | extract_lets +onlyGivenNames _
    | with_reducible apply Kept.planned
    | with_reducible apply Kept.updVs
    | with_reducible apply Kept.endHost
    | refine Kept.ofPlan (by assumption) ?_
    | with_reducible refine KeptPlan.planned _ ?_
    | split

theorem Kept.dropPortal {uu : Units} {zz s : State} (v : Nat) (index : Nat) (keep : Option (BitVec 128)) (hk : Kept uu zz s)
    (hHce : uu.hce = true := by assumption) (hRfu : uu.rfu = true := by assumption) (hRfx : uu.rfx = true := by assumption)
    (hVsm : uu.vsm = true := by assumption) (hKvt : uu.kvt = true := by assumption) (hXbr : uu.xbr = true := by assumption)
    (hPmu : uu.pmu = true := by assumption) (hMoved : uu.moved = true := by assumption)
    (hOut : uu.out = true := by assumption) : Kept uu zz (State.dropPortal s v index keep) := by
  unfold State.dropPortal
  repeat' first
    | with_reducible assumption
    | exact {}
    | intro _
    | (extract_lets +onlyGivenNames x; first | refine Kept.cut x ?_ ?_ <;> [subst x; (clear_value x; intro _)] | skip)
    | with_reducible apply Kept.updVs
    | with_reducible apply Kept.closeLost
    | with_reducible refine Kept.foldl ?_ _ ?_
    | split

theorem Kept.planVsPortal {uu : Units} {zz s : State} (p : List Byte) (hk : Kept uu zz s)
    (hHce : uu.hce = true := by assumption) (hRfu : uu.rfu = true := by assumption) (hRfx : uu.rfx = true := by assumption)
    (hVsm : uu.vsm = true := by assumption) (hKvt : uu.kvt = true := by assumption) (hXbr : uu.xbr = true := by assumption)
    (hPmu : uu.pmu = true := by assumption) (hMoved : uu.moved = true := by assumption)
    (hOut : uu.out = true := by assumption) : KeptPlan uu zz (State.planVsPortal s p) := by
  unfold State.planVsPortal
  repeat' first
    | with_reducible assumption
    | exact {}
    | intro _
    | extract_lets +onlyGivenNames _
    | with_reducible apply Kept.planned
    | with_reducible apply Kept.dropPortal
    | with_reducible apply Kept.updVs
    | refine Kept.ofPlan (by assumption) ?_
    | with_reducible refine KeptPlan.planned _ ?_
    | split

theorem Kept.planNsCreate {uu : Units} {zz s : State} (p : List Byte) (peer : Bool) (hk : Kept uu zz s)
    (hHce : uu.hce = true := by assumption) (hRfx : uu.rfx = true := by assumption) (hVsm : uu.vsm = true := by assumption)
    (hXbr : uu.xbr = true := by assumption) (hPmu : uu.pmu = true := by assumption)
    (hMoved : uu.moved = true := by assumption) (hOut : uu.out = true := by assumption) : KeptPlan uu zz
    (State.planNsCreate s p peer) := by
  unfold State.planNsCreate
  repeat' first
    | with_reducible assumption
    | exact {}
    | intro _
    | extract_lets +onlyGivenNames _
    | with_reducible apply Kept.planned
    | with_reducible apply Kept.updVsm
    | with_reducible apply Kept.notice
    | refine Kept.ofPlan (by assumption) ?_
    | with_reducible refine KeptPlan.planned _ ?_

theorem Kept.planNsDelete {uu : Units} {zz s : State} (p : List Byte) (hk : Kept uu zz s)
    (hVsm : uu.vsm = true := by assumption) : KeptPlan uu zz (State.planNsDelete s p) := by
  unfold State.planNsDelete
  repeat' first
    | with_reducible assumption
    | exact {}
    | intro _
    | extract_lets +onlyGivenNames _
    | with_reducible apply Kept.planned
    | with_reducible apply Kept.updNs
    | refine Kept.ofPlan (by assumption) ?_
    | with_reducible refine KeptPlan.planned _ ?_

theorem Kept.plan {uu : Units} {zz s : State} (op : Nat) (p : List Byte) (peer : Bool) (hk : Kept uu zz s)
    (hHce : uu.hce = true := by assumption) (hRfu : uu.rfu = true := by assumption) (hRfx : uu.rfx = true := by assumption)
    (hVsm : uu.vsm = true := by assumption) (hKvt : uu.kvt = true := by assumption) (hXbr : uu.xbr = true := by assumption)
    (hPmu : uu.pmu = true := by assumption) (hMoved : uu.moved = true := by assumption)
    (hOut : uu.out = true := by assumption) : KeptPlan uu zz (State.plan s op p peer) := by
  unfold State.plan
  repeat' first
    | with_reducible assumption
    | exact {}
    | intro _
    | with_reducible apply Kept.planVsCreate
    | with_reducible apply Kept.planVsDelete
    | with_reducible apply Kept.planVsModify
    | with_reducible apply Kept.planVsHosts
    | with_reducible apply Kept.planVsPortal
    | with_reducible apply Kept.planNsCreate
    | with_reducible apply Kept.planNsDelete
    | refine Kept.ofPlan (by assumption) ?_
    | with_reducible refine KeptPlan.planned _ ?_
    | split

theorem Kept.storeChanged {uu : Units} {zz s : State} (hk : Kept uu zz s) (hVsm : uu.vsm = true := by assumption)
    : Kept uu zz (State.storeChanged s) := by
  unfold State.storeChanged
  repeat' first
    | with_reducible assumption
    | exact {}
    | intro _
    | with_reducible apply Kept.updVsm

theorem Kept.sendConfig {uu : Units} {zz s : State} (m : Master) (old : State) (op : Nat) (p : List Byte) (res : List Byte)
    (hk : Kept uu zz s) (hVsm : uu.vsm = true := by assumption) (hMbx : uu.mbx = true := by assumption)
    (hProps : uu.props = true := by assumption) (hXbr : uu.xbr = true := by assumption)
    (hMoved : uu.moved = true := by assumption) (hOut : uu.out = true := by assumption) : Kept uu zz
    (State.sendConfig s m old op p res) := by
  unfold State.sendConfig
  repeat' first
    | with_reducible assumption
    | exact {}
    | intro _
    | extract_lets +onlyGivenNames _
    | with_reducible apply Kept.storeChanged
    | with_reducible apply Kept.propagate

theorem Kept.askPeer {uu : Units} {zz s : State} (m : Master) (old : State) (op : Nat) (p : List Byte) (res : List Byte) (hk
    : Kept uu zz s) (hProps : uu.props = true := by assumption) (hXbr : uu.xbr = true := by assumption)
    (hOut : uu.out = true := by assumption) : Kept uu zz (State.askPeer s m old op p res) := by
  unfold State.askPeer
  repeat' first
    | with_reducible assumption
    | exact {}
    | intro _
    | (extract_lets +onlyGivenNames x; refine Kept.cut x ?_ ?_ <;> [subst x; (clear_value x; intro _)])
    | with_reducible apply Kept.sendProp
    | split
    | (with_reducible apply Kept.update) <;> [assumption; exact {}]

theorem Kept.configure {uu : Units} {zz s : State} (m : Master) (op : Nat) (hk : Kept uu zz s)
    (hHce : uu.hce = true := by assumption) (hRfu : uu.rfu = true := by assumption) (hRfx : uu.rfx = true := by assumption)
    (hVsm : uu.vsm = true := by assumption) (hKvt : uu.kvt = true := by assumption) (hMbx : uu.mbx = true := by assumption)
    (hProps : uu.props = true := by assumption) (hXbr : uu.xbr = true := by assumption)
    (hPmu : uu.pmu = true := by assumption) (hMoved : uu.moved = true := by assumption)
    (hOut : uu.out = true := by assumption) : Kept uu zz (State.configure s m op) := by
  unfold State.configure
  repeat' first
    | with_reducible assumption
    | exact {}
    | intro _
    | extract_lets +onlyGivenNames _
    | with_reducible apply Kept.runCmd
    | with_reducible apply Kept.plan
    | with_reducible apply Kept.finish
    | with_reducible apply Kept.sendConfig
    | refine Kept.ofPlan (by assumption) ?_
    | split

theorem Kept.endFreeze {uu : Units} {zz s : State} (v : Nat) (hk : Kept uu zz s) (hHce : uu.hce = true := by assumption)
    (hVsm : uu.vsm = true := by assumption) (hMbx : uu.mbx = true := by assumption) (hXbr : uu.xbr = true := by assumption)
    (hMoved : uu.moved = true := by assumption) (hOut : uu.out = true := by assumption) : Kept uu zz
    (State.endFreeze s v) := by
  unfold State.endFreeze
  repeat' first
    | with_reducible assumption
    | exact {}
    | intro _
    | (extract_lets +onlyGivenNames x; first | refine Kept.cut x ?_ ?_ <;> [subst x; (clear_value x; intro _)] | skip)
    | with_reducible apply Kept.finish
    | with_reducible apply Kept.updVs
    | with_reducible apply Kept.thaw
    | split

theorem Kept.startFreeze {uu : Units} {zz s : State} (v : Nat) (waiter : Option Master) (byMig : Bool) (hk : Kept uu zz s)
    (hVsm : uu.vsm = true := by assumption) : Kept uu zz (State.startFreeze s v waiter byMig) := by
  unfold State.startFreeze
  repeat' first
    | with_reducible assumption
    | exact {}
    | intro _
    | with_reducible apply Kept.updVs

theorem Kept.vsqryWrite {uu : Units} {zz s : State} (w : Word) (hk : Kept uu zz s) (hVsm : uu.vsm = true := by assumption)
    (hCfg : uu.cfg = true := by assumption) : Kept uu zz (State.vsqryWrite s w) := by
  unfold State.vsqryWrite
  repeat' first
    | with_reducible assumption
    | exact {}
    | intro _
    | (extract_lets +onlyGivenNames x; first | refine Kept.cut x ?_ ?_ <;> [subst x; (clear_value x; intro _)] | skip)
    | with_reducible apply Kept.putReg
    | with_reducible apply Kept.updVsm

/-! ## The commands -/

theorem KeptBy.vsCreate {uu : Units} {zz s : State} (m : Master) (hk : Kept uu zz s) (hHce : uu.hce = true := by assumption)
    (hRfu : uu.rfu = true := by assumption) (hRfx : uu.rfx = true := by assumption) (hVsm : uu.vsm = true := by assumption)
    (hKvt : uu.kvt = true := by assumption) (hMbx : uu.mbx = true := by assumption)
    (hProps : uu.props = true := by assumption) (hXbr : uu.xbr = true := by assumption)
    (hPmu : uu.pmu = true := by assumption) (hMoved : uu.moved = true := by assumption)
    (hOut : uu.out = true := by assumption) :
    KeptBy uu zz (execVsCreate m s) := by
  unfold execVsCreate
  repeat' first
    | with_reducible assumption
    | exact {}
    | intro _
    | extract_lets +onlyGivenNames _
    | with_reducible refine KeptBy.next ?_
    | with_reducible apply Kept.configure

theorem KeptBy.vsDelete {uu : Units} {zz s : State} (m : Master) (hk : Kept uu zz s) (hHce : uu.hce = true := by assumption)
    (hRfu : uu.rfu = true := by assumption) (hRfx : uu.rfx = true := by assumption) (hVsm : uu.vsm = true := by assumption)
    (hKvt : uu.kvt = true := by assumption) (hMbx : uu.mbx = true := by assumption)
    (hProps : uu.props = true := by assumption) (hXbr : uu.xbr = true := by assumption)
    (hPmu : uu.pmu = true := by assumption) (hMoved : uu.moved = true := by assumption)
    (hOut : uu.out = true := by assumption) :
    KeptBy uu zz (execVsDelete m s) := by
  unfold execVsDelete
  repeat' first
    | with_reducible assumption
    | exact {}
    | intro _
    | extract_lets +onlyGivenNames _
    | with_reducible refine KeptBy.next ?_
    | with_reducible apply Kept.configure

theorem KeptBy.vsModify {uu : Units} {zz s : State} (m : Master) (hk : Kept uu zz s) (hHce : uu.hce = true := by assumption)
    (hRfu : uu.rfu = true := by assumption) (hRfx : uu.rfx = true := by assumption) (hVsm : uu.vsm = true := by assumption)
    (hKvt : uu.kvt = true := by assumption) (hMbx : uu.mbx = true := by assumption)
    (hProps : uu.props = true := by assumption) (hXbr : uu.xbr = true := by assumption)
    (hPmu : uu.pmu = true := by assumption) (hMoved : uu.moved = true := by assumption)
    (hOut : uu.out = true := by assumption) :
    KeptBy uu zz (execVsModify m s) := by
  unfold execVsModify
  repeat' first
    | with_reducible assumption
    | exact {}
    | intro _
    | extract_lets +onlyGivenNames _
    | with_reducible refine KeptBy.next ?_
    | with_reducible apply Kept.configure

theorem KeptBy.vsHosts {uu : Units} {zz s : State} (m : Master) (hk : Kept uu zz s) (hHce : uu.hce = true := by assumption)
    (hRfu : uu.rfu = true := by assumption) (hRfx : uu.rfx = true := by assumption) (hVsm : uu.vsm = true := by assumption)
    (hKvt : uu.kvt = true := by assumption) (hMbx : uu.mbx = true := by assumption)
    (hProps : uu.props = true := by assumption) (hXbr : uu.xbr = true := by assumption)
    (hPmu : uu.pmu = true := by assumption) (hMoved : uu.moved = true := by assumption)
    (hOut : uu.out = true := by assumption) :
    KeptBy uu zz (execVsHosts m s) := by
  unfold execVsHosts
  repeat' first
    | with_reducible assumption
    | exact {}
    | intro _
    | extract_lets +onlyGivenNames _
    | with_reducible refine KeptBy.next ?_
    | with_reducible apply Kept.runCmd
    | with_reducible apply Kept.finish
    | with_reducible apply Kept.configure
    | split

theorem KeptBy.vsPortal {uu : Units} {zz s : State} (m : Master) (hk : Kept uu zz s) (hHce : uu.hce = true := by assumption)
    (hRfu : uu.rfu = true := by assumption) (hRfx : uu.rfx = true := by assumption) (hVsm : uu.vsm = true := by assumption)
    (hKvt : uu.kvt = true := by assumption) (hMbx : uu.mbx = true := by assumption)
    (hProps : uu.props = true := by assumption) (hXbr : uu.xbr = true := by assumption)
    (hPmu : uu.pmu = true := by assumption) (hMoved : uu.moved = true := by assumption)
    (hOut : uu.out = true := by assumption) :
    KeptBy uu zz (execVsPortal m s) := by
  unfold execVsPortal
  repeat' first
    | with_reducible assumption
    | exact {}
    | intro _
    | extract_lets +onlyGivenNames _
    | with_reducible refine KeptBy.next ?_
    | with_reducible apply Kept.configure

theorem KeptBy.nsCreate {uu : Units} {zz s : State} (m : Master) (hk : Kept uu zz s) (hHce : uu.hce = true := by assumption)
    (hRfu : uu.rfu = true := by assumption) (hRfx : uu.rfx = true := by assumption) (hVsm : uu.vsm = true := by assumption)
    (hKvt : uu.kvt = true := by assumption) (hMbx : uu.mbx = true := by assumption)
    (hProps : uu.props = true := by assumption) (hXbr : uu.xbr = true := by assumption)
    (hPmu : uu.pmu = true := by assumption) (hMoved : uu.moved = true := by assumption)
    (hOut : uu.out = true := by assumption) :
    KeptBy uu zz (execNsCreate m s) := by
  unfold execNsCreate
  repeat' first
    | with_reducible assumption
    | exact {}
    | intro _
    | extract_lets +onlyGivenNames _
    | with_reducible refine KeptBy.next ?_
    | with_reducible apply Kept.configure

theorem KeptBy.nsDelete {uu : Units} {zz s : State} (m : Master) (hk : Kept uu zz s) (hVsm : uu.vsm = true := by assumption)
    (hMbx : uu.mbx = true := by assumption) (hProps : uu.props = true := by assumption)
    (hXbr : uu.xbr = true := by assumption) (hMoved : uu.moved = true := by assumption)
    (hOut : uu.out = true := by assumption) :
    KeptBy uu zz (execNsDelete m s) := by
  unfold execNsDelete
  repeat' first
    | with_reducible assumption
    | exact {}
    | intro _
    | extract_lets +onlyGivenNames _
    | with_reducible refine KeptBy.next ?_
    | with_reducible apply Kept.runCmd
    | with_reducible apply Kept.planNsDelete
    | with_reducible apply Kept.finish
    | with_reducible apply Kept.updNs
    | with_reducible apply Kept.keepRunning
    | with_reducible apply Kept.askPeer
    | refine Kept.ofPlan (by assumption) ?_
    | split

theorem KeptBy.nsDeleteComplete {uu : Units} {zz s : State} (vsid : Nat) (nsid : Nat) (hk : Kept uu zz s)
    (hHce : uu.hce = true := by assumption) (hRge : uu.rge = true := by assumption) (hRfx : uu.rfx = true := by assumption)
    (hVsm : uu.vsm = true := by assumption) (hMbx : uu.mbx = true := by assumption) (hXbr : uu.xbr = true := by assumption)
    (hPmu : uu.pmu = true := by assumption) (hMoved : uu.moved = true := by assumption)
    (hOut : uu.out = true := by assumption) :
    KeptBy uu zz (execNsDeleteComplete vsid nsid s) := by
  unfold execNsDeleteComplete
  repeat' first
    | with_reducible assumption
    | exact {}
    | intro _
    | (extract_lets +onlyGivenNames x; first | refine Kept.cut x ?_ ?_ <;> [subst x; (clear_value x; intro _)] | refine KeptBy.cut x ?_ ?_ <;> [subst x; (clear_value x; intro _)] | skip)
    | with_reducible refine KeptBy.next ?_
    | with_reducible apply Kept.discardNs
    | with_reducible apply Kept.updNs
    | with_reducible apply Kept.putZeroes
    | with_reducible apply Kept.clearNsLost
    | with_reducible apply Kept.updVsm
    | with_reducible apply Kept.notice
    | with_reducible apply Kept.storeChanged
    | with_reducible apply Kept.replyPeer
    | with_reducible apply Kept.finish
    | split

theorem KeptBy.vsReset {uu : Units} {zz s : State} (m : Master) (hk : Kept uu zz s) (hHce : uu.hce = true := by assumption)
    (hRfu : uu.rfu = true := by assumption) (hRfx : uu.rfx = true := by assumption) (hVsm : uu.vsm = true := by assumption)
    (hMbx : uu.mbx = true := by assumption) (hXbr : uu.xbr = true := by assumption) (hPmu : uu.pmu = true := by assumption)
    (hMoved : uu.moved = true := by assumption) (hOut : uu.out = true := by assumption) :
    KeptBy uu zz (execVsReset m s) := by
  unfold execVsReset
  repeat' first
    | with_reducible assumption
    | exact {}
    | intro _
    | (extract_lets +onlyGivenNames x; first | refine Kept.cut x ?_ ?_ <;> [subst x; (clear_value x; intro _)] | refine KeptBy.cut x ?_ ?_ <;> [subst x; (clear_value x; intro _)] | skip)
    | with_reducible refine KeptBy.next ?_
    | with_reducible apply Kept.runCmd
    | with_reducible apply Kept.checked
    | with_reducible apply Kept.abortMigration
    | with_reducible apply Kept.endFreeze
    | with_reducible apply Kept.updVs
    | with_reducible apply Kept.windTag
    | with_reducible apply Kept.keepRunning
    | with_reducible refine Kept.foldl ?_ _ ?_
    | split

theorem KeptBy.vsResetDrained {uu : Units} {zz s : State} (vsid : Nat) (hk : Kept uu zz s)
    (hHce : uu.hce = true := by assumption) (hRfx : uu.rfx = true := by assumption) (hVsm : uu.vsm = true := by assumption)
    (hKvt : uu.kvt = true := by assumption) (hMbx : uu.mbx = true := by assumption) (hXbr : uu.xbr = true := by assumption)
    (hPmu : uu.pmu = true := by assumption) (hMoved : uu.moved = true := by assumption)
    (hOut : uu.out = true := by assumption) :
    KeptBy uu zz (execVsResetDrained vsid s) := by
  unfold execVsResetDrained
  repeat' first
    | with_reducible assumption
    | exact {}
    | intro _
    | (extract_lets +onlyGivenNames x; first | refine Kept.cut x ?_ ?_ <;> [subst x; (clear_value x; intro _)] | refine KeptBy.cut x ?_ ?_ <;> [subst x; (clear_value x; intro _)] | skip)
    | with_reducible refine KeptBy.next ?_
    | with_reducible apply Kept.endAssoc
    | with_reducible apply Kept.closeConn
    | with_reducible apply Kept.updHce
    | with_reducible apply Kept.updVs
    | with_reducible apply Kept.finish
    | with_reducible refine Kept.foldl ?_ _ ?_
    | split

theorem KeptBy.vsFreeze {uu : Units} {zz s : State} (m : Master) (hk : Kept uu zz s) (hVsm : uu.vsm = true := by assumption)
    (hMbx : uu.mbx = true := by assumption) (hMoved : uu.moved = true := by assumption)
    (hOut : uu.out = true := by assumption) :
    KeptBy uu zz (execVsFreeze m s) := by
  unfold execVsFreeze
  repeat' first
    | with_reducible assumption
    | exact {}
    | intro _
    | extract_lets +onlyGivenNames _
    | with_reducible refine KeptBy.next ?_
    | with_reducible apply Kept.runCmd
    | with_reducible apply Kept.checked
    | with_reducible apply Kept.startFreeze
    | with_reducible apply Kept.keepRunning

theorem KeptBy.freezeQuiesced {uu : Units} {zz s : State} (vsid : Nat) (hk : Kept uu zz s)
    (hHce : uu.hce = true := by assumption) (hVsm : uu.vsm = true := by assumption) (hMbx : uu.mbx = true := by assumption)
    (hMoved : uu.moved = true := by assumption) (hOut : uu.out = true := by assumption) :
    KeptBy uu zz (execFreezeQuiesced vsid s) := by
  unfold execFreezeQuiesced
  repeat' first
    | with_reducible assumption
    | exact {}
    | intro _
    | (extract_lets +onlyGivenNames x; first | refine Kept.cut x ?_ ?_ <;> [subst x; (clear_value x; intro _)] | refine KeptBy.cut x ?_ ?_ <;> [subst x; (clear_value x; intro _)] | skip)
    | with_reducible refine KeptBy.next ?_
    | with_reducible apply Kept.updVs
    | with_reducible apply Kept.updHce
    | with_reducible apply Kept.finish
    | split

theorem KeptBy.quiesceTimeout {uu : Units} {zz s : State} (vsid : Nat) (hk : Kept uu zz s)
    (hHce : uu.hce = true := by assumption) (hVsm : uu.vsm = true := by assumption) (hMbx : uu.mbx = true := by assumption)
    (hXbr : uu.xbr = true := by assumption) (hMoved : uu.moved = true := by assumption)
    (hOut : uu.out = true := by assumption) :
    KeptBy uu zz (execQuiesceTimeout vsid s) := by
  unfold execQuiesceTimeout
  repeat' first
    | with_reducible assumption
    | exact {}
    | intro _
    | extract_lets +onlyGivenNames _
    | with_reducible refine KeptBy.next ?_
    | with_reducible apply Kept.abortMigration
    | with_reducible apply Kept.endFreeze
    | split

theorem KeptBy.maxfrzExpiry {uu : Units} {zz s : State} (vsid : Nat) (hk : Kept uu zz s)
    (hHce : uu.hce = true := by assumption) (hVsm : uu.vsm = true := by assumption) (hXbr : uu.xbr = true := by assumption)
    (hMoved : uu.moved = true := by assumption) (hOut : uu.out = true := by assumption) :
    KeptBy uu zz (execMaxfrzExpiry vsid s) := by
  unfold execMaxfrzExpiry
  repeat' first
    | with_reducible assumption
    | exact {}
    | intro _
    | extract_lets +onlyGivenNames _
    | with_reducible refine KeptBy.next ?_
    | with_reducible apply Kept.abortMigration
    | with_reducible apply Kept.thaw
    | with_reducible apply Kept.raiseFlag
    | split

theorem KeptBy.vsThaw {uu : Units} {zz s : State} (m : Master) (hk : Kept uu zz s) (hHce : uu.hce = true := by assumption)
    (hVsm : uu.vsm = true := by assumption) (hMbx : uu.mbx = true := by assumption) (hXbr : uu.xbr = true := by assumption)
    (hMoved : uu.moved = true := by assumption) (hOut : uu.out = true := by assumption) :
    KeptBy uu zz (execVsThaw m s) := by
  unfold execVsThaw
  repeat' first
    | with_reducible assumption
    | exact {}
    | intro _
    | extract_lets +onlyGivenNames _
    | with_reducible refine KeptBy.next ?_
    | with_reducible apply Kept.runCmd
    | with_reducible apply Kept.checked
    | with_reducible apply Kept.thaw
    | with_reducible apply Kept.finish

theorem KeptBy.vsQuery {uu : Units} {zz s : State} (m : Master) (hk : Kept uu zz s) (hMbx : uu.mbx = true := by assumption)
    (hMoved : uu.moved = true := by assumption) (hOut : uu.out = true := by assumption) :
    KeptBy uu zz (execVsQuery m s) := by
  unfold execVsQuery
  repeat' first
    | with_reducible assumption
    | exact {}
    | intro _
    | extract_lets +onlyGivenNames _
    | with_reducible refine KeptBy.next ?_
    | with_reducible apply Kept.runCmd
    | with_reducible apply Kept.checked
    | with_reducible apply Kept.finish

theorem KeptBy.vsqryWrite {uu : Units} {zz s : State} (w : Word) (hk : Kept uu zz s) (hVsm : uu.vsm = true := by assumption)
    (hCfg : uu.cfg = true := by assumption) :
    KeptBy uu zz (execVsqryWrite w s) := by
  unfold execVsqryWrite
  repeat' first
    | with_reducible assumption
    | exact {}
    | intro _
    | extract_lets +onlyGivenNames _
    | with_reducible refine KeptBy.next ?_
    | with_reducible apply Kept.vsqryWrite

end Sys2Proof.Machine
end

