-- ==== Sys2Proof/Laws/KeptMigration.lean ====
section
/-! SUPPORT. `Kept` for the operations of Machine/Migration.lean. -/

set_option Elab.async false

namespace Sys2Proof.Machine

theorem Kept.addHost {uu : Units} {zz s : State} (h : Nqn) (hk : Kept uu zz s) (hHce : uu.hce = true := by assumption)
    : Kept uu zz (State.addHost s h) := by
  unfold State.addHost
  repeat' first
    | with_reducible assumption
    | exact {}
    | intro _
    | with_reducible apply Kept.updHce
    | split

theorem Kept.applyImage {uu : Units} {zz s : State} (v : Nat) (img : List Byte) (hk : Kept uu zz s)
    (hHce : uu.hce = true := by assumption) (hRfx : uu.rfx = true := by assumption) (hVsm : uu.vsm = true := by assumption)
    (hKvt : uu.kvt = true := by assumption) (hXbr : uu.xbr = true := by assumption) (hPmu : uu.pmu = true := by assumption)
    (hMoved : uu.moved = true := by assumption) (hOut : uu.out = true := by assumption)
    (hFree : uu.free = true := by assumption) : Kept uu zz (State.applyImage s v img) := by
  unfold State.applyImage
  repeat' first
    | with_reducible assumption
    | exact {}
    | intro _
    | (extract_lets +onlyGivenNames x; first | refine Kept.cut x ?_ ?_ <;> [subst x; (clear_value x; intro _)] | skip)
    | with_reducible apply Kept.updVs
    | with_reducible apply Kept.updHce
    | with_reducible apply Kept.updKvt
    | with_reducible apply Kept.addHost
    | with_reducible apply Kept.sendXport
    | with_reducible apply Kept.freeBy
    | with_reducible refine Kept.foldl ?_ _ ?_

theorem Kept.takePiece {uu : Units} {zz s : State} (v : Nat) (offset : Nat) (bs : List Byte) (hk : Kept uu zz s)
    (hVsm : uu.vsm = true := by assumption) : Kept uu zz (State.takePiece s v offset bs).1 := by
  unfold State.takePiece
  repeat' first
    | with_reducible assumption
    | exact {}
    | intro _
    | extract_lets +onlyGivenNames _
    | with_reducible apply Kept.restore
    | with_reducible apply Kept.updVs
    | split

theorem Kept.updMig {uu : Units} {zz s : State} (v : Nat) (f : Migration → Migration) (hk : Kept uu zz s)
    (hVsm : uu.vsm = true := by assumption) : Kept uu zz (State.updMig s v f) := by
  unfold State.updMig
  repeat' first
    | with_reducible assumption
    | exact {}
    | intro _
    | with_reducible apply Kept.updVsm

theorem Kept.startCutover {uu : Units} {zz s : State} (g : Migration) (hk : Kept uu zz s)
    (hVsm : uu.vsm = true := by assumption) : Kept uu zz (State.startCutover s g) := by
  unfold State.startCutover
  repeat' first
    | with_reducible assumption
    | exact {}
    | intro _
    | extract_lets +onlyGivenNames _
    | with_reducible apply Kept.updMig
    | with_reducible apply Kept.startFreeze

theorem Kept.nextPass {uu : Units} {zz s : State} (g : Migration) (hk : Kept uu zz s)
    (hVsm : uu.vsm = true := by assumption) (hXbr : uu.xbr = true := by assumption) (hOut : uu.out = true := by assumption)
    : Kept uu zz (State.nextPass s g) := by
  unfold State.nextPass
  repeat' first
    | with_reducible assumption
    | exact {}
    | intro _
    | (extract_lets +onlyGivenNames x; refine Kept.cut x ?_ ?_ <;> [subst x; (clear_value x; intro _)])
    | with_reducible apply Kept.startCutover
    | with_reducible apply Kept.sendProp
    | with_reducible apply Kept.updMig
    | split

theorem Kept.sendPhase {uu : Units} {zz s : State} (g : Migration) (bs : List (Nat × Nat × Block)) (hk : Kept uu zz s)
    (hVsm : uu.vsm = true := by assumption) (hXbr : uu.xbr = true := by assumption) (hPmu : uu.pmu = true := by assumption)
    (hMoved : uu.moved = true := by assumption) (hOut : uu.out = true := by assumption)
    (hFree : uu.free = true := by assumption) : Kept uu zz (State.sendPhase s g bs) := by
  unfold State.sendPhase
  repeat' first
    | with_reducible assumption
    | exact {}
    | intro _
    | extract_lets +onlyGivenNames _
    | with_reducible apply Kept.sendMigrate
    | with_reducible apply Kept.laneWork
    | with_reducible apply Kept.updMig
    | with_reducible refine Kept.foldl ?_ _ ?_

theorem Kept.sendImage {uu : Units} {zz s : State} (g : Migration) (v : Vs) (hk : Kept uu zz s)
    (hVsm : uu.vsm = true := by assumption) (hXbr : uu.xbr = true := by assumption)
    (hMoved : uu.moved = true := by assumption) (hOut : uu.out = true := by assumption) : Kept uu zz
    (State.sendImage s g v) := by
  unfold State.sendImage
  repeat' first
    | with_reducible assumption
    | exact {}
    | intro _
    | extract_lets +onlyGivenNames _
    | with_reducible apply Kept.sendMigrate
    | with_reducible apply Kept.updMig
    | with_reducible apply Kept.restore
    | with_reducible refine Kept.foldl ?_ _ ?_

theorem Kept.joinMigration {uu : Units} {zz s : State} (p : List Byte) (hk : Kept uu zz s)
    (hHce : uu.hce = true := by assumption) (hVsm : uu.vsm = true := by assumption) (hXbr : uu.xbr = true := by assumption)
    (hMoved : uu.moved = true := by assumption) (hOut : uu.out = true := by assumption) : Kept uu zz
    (State.joinMigration s p) := by
  unfold State.joinMigration
  repeat' first
    | with_reducible assumption
    | exact {}
    | intro _
    | (extract_lets +onlyGivenNames x; first | refine Kept.cut x ?_ ?_ <;> [subst x; (clear_value x; intro _)] | skip)
    | with_reducible apply Kept.updVsm
    | with_reducible apply Kept.startCutover
    | with_reducible apply Kept.abortMigration
    | split

theorem Kept.takeBlocks {uu : Units} {zz s : State} (v : Nat) (es : List MirBlock) (hk : Kept uu zz s)
    (hHce : uu.hce = true := by assumption) (hRfx : uu.rfx = true := by assumption) (hXbr : uu.xbr = true := by assumption)
    (hPwr : uu.pwr = true := by assumption) (hPmu : uu.pmu = true := by assumption)
    (hMoved : uu.moved = true := by assumption) (hOut : uu.out = true := by assumption) : Kept uu zz
    (State.takeBlocks s v es) := by
  unfold State.takeBlocks
  repeat' first
    | with_reducible assumption
    | exact {}
    | intro _
    | (extract_lets +onlyGivenNames x; first | refine Kept.cut x ?_ ?_ <;> [subst x; (clear_value x; intro _)] | skip)
    | with_reducible apply Kept.updHce
    | with_reducible apply Kept.wakeStacks
    | with_reducible apply Kept.mirSendAll
    | with_reducible apply Kept.commitVersion
    | split

theorem Kept.ackImage {uu : Units} {zz s : State} (v : Nat) (hk : Kept uu zz s) (hHce : uu.hce = true := by assumption)
    (hTk : uu.tk = true := by assumption) (hVsm : uu.vsm = true := by assumption) (hXbr : uu.xbr = true := by assumption)
    (hMoved : uu.moved = true := by assumption) (hOut : uu.out = true := by assumption) : Kept uu zz
    (State.ackImage s v) := by
  unfold State.ackImage
  repeat' first
    | with_reducible assumption
    | exact {}
    | intro _
    | (extract_lets +onlyGivenNames x; first | refine Kept.cut x ?_ ?_ <;> [subst x; (clear_value x; intro _)] | skip)
    | with_reducible apply Kept.sendMigrate
    | with_reducible apply Kept.emit
    | with_reducible apply Kept.updTk
    | with_reducible apply Kept.thaw
    | with_reducible refine Kept.foldl ?_ _ ?_
    | split

theorem Kept.ackImages {uu : Units} {zz s : State} (hk : Kept uu zz s) (hHce : uu.hce = true := by assumption)
    (hTk : uu.tk = true := by assumption) (hVsm : uu.vsm = true := by assumption) (hXbr : uu.xbr = true := by assumption)
    (hMoved : uu.moved = true := by assumption) (hOut : uu.out = true := by assumption) : Kept uu zz
    (State.ackImages s) := by
  unfold State.ackImages
  repeat' first
    | with_reducible assumption
    | exact {}
    | intro _
    | extract_lets +onlyGivenNames _
    | with_reducible apply Kept.ackImage
    | with_reducible refine Kept.foldl ?_ _ ?_

/-! ## The commands -/

theorem KeptBy.vsSave {uu : Units} {zz s : State} (m : Master) (hk : Kept uu zz s) (hVsm : uu.vsm = true := by assumption)
    (hMbx : uu.mbx = true := by assumption) (hMoved : uu.moved = true := by assumption)
    (hOut : uu.out = true := by assumption) :
    KeptBy uu zz (execVsSave m s) := by
  unfold execVsSave
  repeat' first
    | with_reducible assumption
    | exact {}
    | intro _
    | extract_lets +onlyGivenNames _
    | with_reducible refine KeptBy.next ?_
    | with_reducible apply Kept.runCmd
    | with_reducible apply Kept.checked
    | with_reducible apply Kept.updVs
    | with_reducible apply Kept.finish

theorem KeptBy.vsRestore {uu : Units} {zz s : State} (m : Master) (hk : Kept uu zz s)
    (hHce : uu.hce = true := by assumption) (hRfx : uu.rfx = true := by assumption) (hVsm : uu.vsm = true := by assumption)
    (hKvt : uu.kvt = true := by assumption) (hMbx : uu.mbx = true := by assumption) (hXbr : uu.xbr = true := by assumption)
    (hPmu : uu.pmu = true := by assumption) (hMoved : uu.moved = true := by assumption)
    (hOut : uu.out = true := by assumption) (hFree : uu.free = true := by assumption) :
    KeptBy uu zz (execVsRestore m s) := by
  unfold execVsRestore
  repeat' first
    | with_reducible assumption
    | exact {}
    | intro _
    | extract_lets +onlyGivenNames _
    | with_reducible refine KeptBy.next ?_
    | with_reducible apply Kept.runCmd
    | with_reducible apply Kept.checked
    | with_reducible apply Kept.takePiece
    | with_reducible apply Kept.finish
    | with_reducible apply Kept.applyImage
    | split
    | (with_reducible apply Kept.update) <;> [assumption; exact {}]
    | refine Kept.ofPair (by assumption) ?_

theorem KeptBy.vsMigrate {uu : Units} {zz s : State} (m : Master) (hk : Kept uu zz s)
    (hVsm : uu.vsm = true := by assumption) (hMbx : uu.mbx = true := by assumption) (hXbr : uu.xbr = true := by assumption)
    (hMoved : uu.moved = true := by assumption) (hOut : uu.out = true := by assumption) :
    KeptBy uu zz (execVsMigrate m s) := by
  unfold execVsMigrate
  repeat' first
    | with_reducible assumption
    | exact {}
    | intro _
    | extract_lets +onlyGivenNames _
    | with_reducible refine KeptBy.next ?_
    | with_reducible apply Kept.runCmd
    | with_reducible apply Kept.checked
    | with_reducible apply Kept.updVsm
    | with_reducible apply Kept.sendProp
    | with_reducible apply Kept.finish

theorem KeptBy.migrationPhaseEnd {uu : Units} {zz s : State} (vsid : Nat) (done : PhaseReads)
    (hk : Kept uu zz s) (hHce : uu.hce = true := by assumption) (hVsm : uu.vsm = true := by assumption)
    (hXbr : uu.xbr = true := by assumption) (hPmu : uu.pmu = true := by assumption)
    (hMoved : uu.moved = true := by assumption) (hOut : uu.out = true := by assumption)
    (hFree : uu.free = true := by assumption) :
    KeptBy uu zz (execMigrationPhaseEnd vsid done s) := by
  unfold execMigrationPhaseEnd
  repeat' first
    | with_reducible assumption
    | exact {}
    | intro _
    | extract_lets +onlyGivenNames _
    | with_reducible refine KeptBy.next ?_
    | with_reducible apply Kept.abortMigration
    | with_reducible apply Kept.sendPhase
    | with_reducible apply Kept.nextPass
    | with_reducible apply Kept.sendImage
    | with_reducible apply Kept.restore
    | split
    | (with_reducible apply Kept.update) <;> [assumption; exact {}]
    | refine Kept.ofPair (by assumption) ?_
    | refine Kept.ofPair' (by assumption) ?_
    | (with_reducible apply Kept.update) <;> [refine Kept.ofPair (by assumption) ?_; exact {}]
    | fail_if_no_progress ((with_reducible apply Kept.update) <;> [skip; exact {}])
    | dsimp +zetaDelta only

theorem KeptBy.migrateReceive {uu : Units} {zz s : State} (src : Nat) (tvsid : Nat) (seq : Nat) (body : MigrateBody) (hk
    : Kept uu zz s) (hHce : uu.hce = true := by assumption) (hRfx : uu.rfx = true := by assumption)
    (hTk : uu.tk = true := by assumption) (hVsm : uu.vsm = true := by assumption) (hKvt : uu.kvt = true := by assumption)
    (hXbr : uu.xbr = true := by assumption) (hPwr : uu.pwr = true := by assumption) (hPmu : uu.pmu = true := by assumption)
    (hMoved : uu.moved = true := by assumption) (hOut : uu.out = true := by assumption)
    (hFree : uu.free = true := by assumption) :
    KeptBy uu zz (execMigrateReceive src tvsid seq body s) := by
  unfold execMigrateReceive
  repeat' first
    | with_reducible assumption
    | exact {}
    | intro _
    | (extract_lets +onlyGivenNames x; first | refine Kept.cut x ?_ ?_ <;> [subst x; (clear_value x; intro _)] | refine KeptBy.cut x ?_ ?_ <;> [subst x; (clear_value x; intro _)] | skip)
    | with_reducible refine KeptBy.next ?_
    | with_reducible apply Kept.takeBlocks
    | with_reducible apply Kept.sendMigrate
    | with_reducible apply Kept.takePiece
    | with_reducible apply Kept.applyImage
    | with_reducible apply Kept.updVs
    | with_reducible apply Kept.ackImage
    | with_reducible apply Kept.restore
    | with_reducible apply Kept.updVsm
    | with_reducible apply Kept.abortMigration
    | split
    | (with_reducible apply Kept.update) <;> [assumption; exact {}]
    | refine Kept.ofPair (by assumption) ?_

end Sys2Proof.Machine
end

