-- ==== Sys2Proof/Laws/KeptVault.lean ====
section
/-! SUPPORT. `Kept` for the operations of Machine/Vault.lean. -/

set_option Elab.async false

namespace Sys2Proof.Machine

theorem Kept.vaultSettle {uu : Units} {zz s : State} (hk : Kept uu zz s) (hKvt : uu.kvt = true := by assumption)
    : Kept uu zz (State.vaultSettle s) := by
  unfold State.vaultSettle
  repeat' first
    | with_reducible assumption
    | exact {}
    | intro _
    | extract_lets +onlyGivenNames _
    | with_reducible apply Kept.updKvt
    | with_reducible apply Kept.endSession
    | fail_if_no_progress (dsimp only [State.updKvt])
    | split
    | (with_reducible apply Kept.update) <;> [assumption; exact {}]

theorem Kept.dropKeyed {uu : Units} {zz s : State} (hk : Kept uu zz s) (hHce : uu.hce = true := by assumption)
    (hRfu : uu.rfu = true := by assumption) (hRge : uu.rge = true := by assumption) (hRfx : uu.rfx = true := by assumption)
    (hTk : uu.tk = true := by assumption) (hVsm : uu.vsm = true := by assumption) (hKvt : uu.kvt = true := by assumption)
    (hMbx : uu.mbx = true := by assumption) (hBay : uu.bay = true := by assumption)
    (hProps : uu.props = true := by assumption) (hXbr : uu.xbr = true := by assumption)
    (hSep : uu.sep = true := by assumption) (hPwr : uu.pwr = true := by assumption) (hLcu : uu.lcu = true := by assumption)
    (hPmu : uu.pmu = true := by assumption) (hTst : uu.tst = true := by assumption)
    (hMoved : uu.moved = true := by assumption) (hOut : uu.out = true := by assumption) : Kept uu zz
    (State.dropKeyed s) := by
  unfold State.dropKeyed
  repeat' first
    | with_reducible assumption
    | exact {}
    | intro _
    | (extract_lets +onlyGivenNames x; first | refine Kept.cut x ?_ ?_ <;> [subst x; (clear_value x; intro _)] | skip)
    | with_reducible apply Kept.closeLost
    | with_reducible apply Kept.updKvt
    | with_reducible apply Kept.portDown
    | fail_if_no_progress (dsimp only [State.updKvt])
    | with_reducible refine Kept.foldl ?_ _ ?_
    | split

theorem Kept.vaultError {uu : Units} {zz s : State} (row : Nat) (hk : Kept uu zz s) (hHce : uu.hce = true := by assumption)
    (hRfu : uu.rfu = true := by assumption) (hRge : uu.rge = true := by assumption) (hRfx : uu.rfx = true := by assumption)
    (hTk : uu.tk = true := by assumption) (hVsm : uu.vsm = true := by assumption) (hKvt : uu.kvt = true := by assumption)
    (hMbx : uu.mbx = true := by assumption) (hBay : uu.bay = true := by assumption)
    (hProps : uu.props = true := by assumption) (hXbr : uu.xbr = true := by assumption)
    (hSep : uu.sep = true := by assumption) (hPwr : uu.pwr = true := by assumption) (hLcu : uu.lcu = true := by assumption)
    (hPmu : uu.pmu = true := by assumption) (hTst : uu.tst = true := by assumption)
    (hMoved : uu.moved = true := by assumption) (hOut : uu.out = true := by assumption) : Kept uu zz
    (State.vaultError s row) := by
  unfold State.vaultError
  repeat' first
    | with_reducible assumption
    | exact {}
    | intro _
    | (extract_lets +onlyGivenNames x; refine Kept.cut x ?_ ?_ <;> [subst x; (clear_value x; intro _)])
    | with_reducible apply Kept.updKvt
    | with_reducible apply Kept.dropKeyed

theorem Kept.zeroise {uu : Units} {zz s : State} (hk : Kept uu zz s) (hHce : uu.hce = true := by assumption)
    (hRfu : uu.rfu = true := by assumption) (hRge : uu.rge = true := by assumption) (hRfx : uu.rfx = true := by assumption)
    (hTk : uu.tk = true := by assumption) (hVsm : uu.vsm = true := by assumption) (hKvt : uu.kvt = true := by assumption)
    (hMbx : uu.mbx = true := by assumption) (hBay : uu.bay = true := by assumption)
    (hProps : uu.props = true := by assumption) (hXbr : uu.xbr = true := by assumption)
    (hSep : uu.sep = true := by assumption) (hPwr : uu.pwr = true := by assumption) (hLcu : uu.lcu = true := by assumption)
    (hPmu : uu.pmu = true := by assumption) (hTst : uu.tst = true := by assumption)
    (hMoved : uu.moved = true := by assumption) (hOut : uu.out = true := by assumption) : Kept uu zz (State.zeroise s) := by
  unfold State.zeroise
  repeat' first
    | with_reducible assumption
    | exact {}
    | intro _
    | extract_lets +onlyGivenNames _
    | with_reducible apply Kept.vaultError
    | with_reducible apply Kept.raiseFlag

theorem Kept.zeroiseAll {uu : Units} {zz s : State} (hk : Kept uu zz s) (hHce : uu.hce = true := by assumption)
    (hRfu : uu.rfu = true := by assumption) (hRge : uu.rge = true := by assumption) (hRfx : uu.rfx = true := by assumption)
    (hTk : uu.tk = true := by assumption) (hVsm : uu.vsm = true := by assumption) (hKvt : uu.kvt = true := by assumption)
    (hMbx : uu.mbx = true := by assumption) (hBay : uu.bay = true := by assumption)
    (hProps : uu.props = true := by assumption) (hXbr : uu.xbr = true := by assumption)
    (hSep : uu.sep = true := by assumption) (hPwr : uu.pwr = true := by assumption) (hLcu : uu.lcu = true := by assumption)
    (hPmu : uu.pmu = true := by assumption) (hTst : uu.tst = true := by assumption)
    (hMoved : uu.moved = true := by assumption) (hOut : uu.out = true := by assumption) : Kept uu zz
    (State.zeroiseAll s) := by
  unfold State.zeroiseAll
  repeat' first
    | with_reducible assumption
    | exact {}
    | intro _
    | (extract_lets +onlyGivenNames x; first | refine Kept.cut x ?_ ?_ <;> [subst x; (clear_value x; intro _)] | skip)
    | with_reducible apply Kept.zeroise
    | with_reducible apply Kept.sendLine
    | with_reducible apply Kept.updKvt
    | with_reducible refine Kept.foldl ?_ _ ?_

theorem Kept.setOfficer {uu : Units} {zz s : State} (x : OfficerSt) (hk : Kept uu zz s)
    (hKvt : uu.kvt = true := by assumption) : Kept uu zz (State.setOfficer s x) := by
  unfold State.setOfficer
  repeat' first
    | with_reducible assumption
    | exact {}
    | intro _
    | with_reducible apply Kept.updKvt

theorem Kept.loginFailed {uu : Units} {zz s : State} (o : Nat) (hk : Kept uu zz s) (hKvt : uu.kvt = true := by assumption)
    : Kept uu zz (State.loginFailed s o) := by
  unfold State.loginFailed
  repeat' first
    | with_reducible assumption
    | exact {}
    | intro _
    | extract_lets +onlyGivenNames _
    | with_reducible apply Kept.setOfficer

theorem Kept.fillSlot {uu : Units} {zz s : State} (slot : Nat) (typ : Nat) (gen : Nat) (material : Nat) (ident : List Byte)
    (hk : Kept uu zz s) (hRfx : uu.rfx = true := by assumption) (hKvt : uu.kvt = true := by assumption)
    (hXbr : uu.xbr = true := by assumption) (hPmu : uu.pmu = true := by assumption)
    (hMoved : uu.moved = true := by assumption) (hOut : uu.out = true := by assumption) : Kept uu zz
    (State.fillSlot s slot typ gen material ident) := by
  unfold State.fillSlot
  repeat' first
    | with_reducible assumption
    | exact {}
    | intro _
    | (extract_lets +onlyGivenNames x; first | refine Kept.cut x ?_ ?_ <;> [subst x; (clear_value x; intro _)] | skip)
    | with_reducible apply Kept.updKvt
    | with_reducible apply Kept.sendLine
    | with_reducible apply Kept.vaultSettle

theorem Kept.emptySlot {uu : Units} {zz s : State} (slot : Nat) (hk : Kept uu zz s) (hRfx : uu.rfx = true := by assumption)
    (hKvt : uu.kvt = true := by assumption) (hXbr : uu.xbr = true := by assumption) (hPmu : uu.pmu = true := by assumption)
    (hMoved : uu.moved = true := by assumption) (hOut : uu.out = true := by assumption) : Kept uu zz
    (State.emptySlot s slot) := by
  unfold State.emptySlot
  repeat' first
    | with_reducible assumption
    | exact {}
    | intro _
    | (extract_lets +onlyGivenNames x; first | refine Kept.cut x ?_ ?_ <;> [subst x; (clear_value x; intro _)] | skip)
    | with_reducible apply Kept.updKvt
    | with_reducible apply Kept.sendLine
    | with_reducible apply Kept.vaultSettle

theorem Kept.sendKey {uu : Units} {zz s : State} (m : Master) (old : State) (op : Nat) (slot : Nat) (hk : Kept uu zz s)
    (hMbx : uu.mbx = true := by assumption) (hProps : uu.props = true := by assumption)
    (hXbr : uu.xbr = true := by assumption) (hMoved : uu.moved = true := by assumption)
    (hOut : uu.out = true := by assumption) : Kept uu zz (State.sendKey s m old op slot) := by
  unfold State.sendKey
  repeat' first
    | with_reducible assumption
    | exact {}
    | intro _
    | with_reducible apply Kept.propagate

theorem Kept.unwrapFailed {uu : Units} {zz s : State} (hk : Kept uu zz s) (hKvt : uu.kvt = true := by assumption)
    : Kept uu zz (State.unwrapFailed s) := by
  unfold State.unwrapFailed
  repeat' first
    | with_reducible assumption
    | exact {}
    | intro _
    | (extract_lets +onlyGivenNames x; first | refine Kept.cut x ?_ ?_ <;> [subst x; (clear_value x; intro _)] | skip)
    | with_reducible apply Kept.updKvt
    | with_reducible apply Kept.endSession
    | fail_if_no_progress (dsimp only [State.updKvt])
    | split

theorem Kept.planKey {uu : Units} {zz s : State} (op : Nat) (p : List Byte) (hk : Kept uu zz s)
    (hRfx : uu.rfx = true := by assumption) (hKvt : uu.kvt = true := by assumption) (hXbr : uu.xbr = true := by assumption)
    (hPmu : uu.pmu = true := by assumption) (hMoved : uu.moved = true := by assumption)
    (hOut : uu.out = true := by assumption) : KeptPlan uu zz (State.planKey s op p) := by
  unfold State.planKey
  repeat' first
    | with_reducible assumption
    | exact {}
    | intro _
    | extract_lets +onlyGivenNames _
    | with_reducible apply Kept.planned
    | with_reducible apply Kept.emptySlot
    | with_reducible apply Kept.updKey
    | with_reducible apply Kept.count
    | with_reducible apply Kept.fillSlot
    | refine Kept.ofPlan (by assumption) ?_
    | with_reducible refine KeptPlan.planned _ ?_
    | split
    | (with_reducible apply Kept.update) <;> [assumption; exact {}]

theorem Kept.updRekey {uu : Units} {zz s : State} (slot : Nat) (f : Rekey → Rekey) (hk : Kept uu zz s)
    (hKvt : uu.kvt = true := by assumption) : Kept uu zz (State.updRekey s slot f) := by
  unfold State.updRekey
  repeat' first
    | with_reducible assumption
    | exact {}
    | intro _
    | with_reducible apply Kept.updKvt

theorem Kept.rekeyStep {uu : Units} {zz s : State} (n : Ns) (r : Rekey) (hk : Kept uu zz s)
    (hHce : uu.hce = true := by assumption) (hRfx : uu.rfx = true := by assumption) (hKvt : uu.kvt = true := by assumption)
    (hXbr : uu.xbr = true := by assumption) (hPmu : uu.pmu = true := by assumption)
    (hMoved : uu.moved = true := by assumption) (hOut : uu.out = true := by assumption) : Kept uu zz
    (State.rekeyStep s n r) := by
  unfold State.rekeyStep
  repeat' first
    | with_reducible assumption
    | exact {}
    | intro _
    | (extract_lets +onlyGivenNames x; first | refine Kept.cut x ?_ ?_ <;> [subst x; (clear_value x; intro _)] | skip)
    | with_reducible apply Kept.cacheDrop
    | with_reducible apply Kept.updRekey
    | with_reducible apply Kept.putKey
    | with_reducible apply Kept.updKvt
    | with_reducible apply Kept.bump
    | fail_if_no_progress (dsimp only [State.updKvt])
    | split
    | (with_reducible apply Kept.update) <;> [assumption; exact {}]

theorem Kept.setMsPort {uu : Units} {zz s : State} (p : Nat) (x : MacsecPort) (hk : Kept uu zz s)
    (hKvt : uu.kvt = true := by assumption) : Kept uu zz (State.setMsPort s p x) := by
  unfold State.setMsPort
  repeat' first
    | with_reducible assumption
    | exact {}
    | intro _
    | with_reducible apply Kept.updKvt

theorem Kept.mkaSend {uu : Units} {zz s : State} (p : Nat) (hk : Kept uu zz s) (hKvt : uu.kvt = true := by assumption)
    (hOut : uu.out = true := by assumption) : Kept uu zz (State.mkaSend s p) := by
  unfold State.mkaSend
  repeat' first
    | with_reducible assumption
    | exact {}
    | intro _
    | extract_lets +onlyGivenNames _
    | with_reducible apply Kept.setMsPort
    | with_reducible apply Kept.emit

theorem Kept.tlsAlert {uu : Units} {zz s : State} (conn : Nat) (code : Nat) (hk : Kept uu zz s)
    (hHce : uu.hce = true := by assumption) (hRfu : uu.rfu = true := by assumption) (hRfx : uu.rfx = true := by assumption)
    (hKvt : uu.kvt = true := by assumption) (hXbr : uu.xbr = true := by assumption) (hPmu : uu.pmu = true := by assumption)
    (hMoved : uu.moved = true := by assumption) (hOut : uu.out = true := by assumption) : Kept uu zz
    (State.tlsAlert s conn code) := by
  unfold State.tlsAlert
  repeat' first
    | with_reducible assumption
    | exact {}
    | intro _
    | extract_lets +onlyGivenNames _
    | with_reducible apply Kept.emit
    | with_reducible apply Kept.loseConn

/-! ## The commands -/

theorem KeptBy.vaultSelftestComplete {uu : Units} {zz s : State} (failRow : Nat) (hk : Kept uu zz s)
    (hHce : uu.hce = true := by assumption) (hRfu : uu.rfu = true := by assumption) (hRge : uu.rge = true := by assumption)
    (hRfx : uu.rfx = true := by assumption) (hTk : uu.tk = true := by assumption) (hVsm : uu.vsm = true := by assumption)
    (hKvt : uu.kvt = true := by assumption) (hMbx : uu.mbx = true := by assumption) (hBay : uu.bay = true := by assumption)
    (hProps : uu.props = true := by assumption) (hXbr : uu.xbr = true := by assumption)
    (hSep : uu.sep = true := by assumption) (hPwr : uu.pwr = true := by assumption) (hLcu : uu.lcu = true := by assumption)
    (hPmu : uu.pmu = true := by assumption) (hTst : uu.tst = true := by assumption)
    (hMoved : uu.moved = true := by assumption) (hOut : uu.out = true := by assumption) :
    KeptBy uu zz (execVaultSelftestComplete failRow s) := by
  unfold execVaultSelftestComplete
  repeat' first
    | with_reducible assumption
    | exact {}
    | intro _
    | extract_lets +onlyGivenNames _
    | with_reducible refine KeptBy.next ?_
    | with_reducible apply Kept.vaultError
    | with_reducible apply Kept.updKvt
    | with_reducible apply Kept.vaultSettle
    | fail_if_no_progress (dsimp only [State.updKvt])
    | split
    | (with_reducible apply Kept.update) <;> [assumption; exact {}]

theorem KeptBy.vaultEnvironmentZeroize {uu : Units} {zz s : State} (hk : Kept uu zz s)
    (hHce : uu.hce = true := by assumption) (hRfu : uu.rfu = true := by assumption) (hRge : uu.rge = true := by assumption)
    (hRfx : uu.rfx = true := by assumption) (hTk : uu.tk = true := by assumption) (hVsm : uu.vsm = true := by assumption)
    (hKvt : uu.kvt = true := by assumption) (hMbx : uu.mbx = true := by assumption) (hBay : uu.bay = true := by assumption)
    (hProps : uu.props = true := by assumption) (hXbr : uu.xbr = true := by assumption)
    (hSep : uu.sep = true := by assumption) (hPwr : uu.pwr = true := by assumption) (hLcu : uu.lcu = true := by assumption)
    (hPmu : uu.pmu = true := by assumption) (hTst : uu.tst = true := by assumption)
    (hMoved : uu.moved = true := by assumption) (hOut : uu.out = true := by assumption) :
    KeptBy uu zz (execVaultEnvironmentZeroize s) := by
  unfold execVaultEnvironmentZeroize
  repeat' first
    | with_reducible assumption
    | exact {}
    | intro _
    | extract_lets +onlyGivenNames _
    | with_reducible refine KeptBy.next ?_
    | with_reducible apply Kept.zeroise
    | split

theorem KeptBy.entropyHealthFailure {uu : Units} {zz s : State} (hk : Kept uu zz s) (hHce : uu.hce = true := by assumption)
    (hRfu : uu.rfu = true := by assumption) (hRge : uu.rge = true := by assumption) (hRfx : uu.rfx = true := by assumption)
    (hTk : uu.tk = true := by assumption) (hVsm : uu.vsm = true := by assumption) (hKvt : uu.kvt = true := by assumption)
    (hMbx : uu.mbx = true := by assumption) (hBay : uu.bay = true := by assumption)
    (hProps : uu.props = true := by assumption) (hXbr : uu.xbr = true := by assumption)
    (hSep : uu.sep = true := by assumption) (hPwr : uu.pwr = true := by assumption) (hLcu : uu.lcu = true := by assumption)
    (hPmu : uu.pmu = true := by assumption) (hTst : uu.tst = true := by assumption)
    (hMoved : uu.moved = true := by assumption) (hOut : uu.out = true := by assumption) :
    KeptBy uu zz (execEntropyHealthFailure s) := by
  unfold execEntropyHealthFailure
  repeat' first
    | with_reducible assumption
    | exact {}
    | intro _
    | extract_lets +onlyGivenNames _
    | with_reducible refine KeptBy.next ?_
    | with_reducible apply Kept.vaultError
    | split

theorem KeptBy.sessionIdleExpiry {uu : Units} {zz s : State} (hk : Kept uu zz s) (hKvt : uu.kvt = true := by assumption) :
    KeptBy uu zz (execSessionIdleExpiry s) := by
  unfold execSessionIdleExpiry
  repeat' first
    | with_reducible assumption
    | exact {}
    | intro _
    | extract_lets +onlyGivenNames _
    | with_reducible refine KeptBy.next ?_
    | with_reducible apply Kept.endSession
    | split

theorem KeptBy.nonceExpiry {uu : Units} {zz s : State} (hk : Kept uu zz s) (hKvt : uu.kvt = true := by assumption) :
    KeptBy uu zz (execNonceExpiry s) := by
  unfold execNonceExpiry
  repeat' first
    | with_reducible assumption
    | exact {}
    | intro _
    | extract_lets +onlyGivenNames _
    | with_reducible refine KeptBy.next ?_
    | with_reducible apply Kept.updKvt
    | fail_if_no_progress (dsimp only [State.updKvt])
    | split
    | (with_reducible apply Kept.update) <;> [assumption; exact {}]

theorem KeptBy.loginLockoutExpiry {uu : Units} {zz s : State} (officer : Nat) (hk : Kept uu zz s)
    (hKvt : uu.kvt = true := by assumption) :
    KeptBy uu zz (execLoginLockoutExpiry officer s) := by
  unfold execLoginLockoutExpiry
  repeat' first
    | with_reducible assumption
    | exact {}
    | intro _
    | extract_lets +onlyGivenNames _
    | with_reducible refine KeptBy.next ?_
    | with_reducible apply Kept.setOfficer
    | split

theorem KeptBy.keyChallenge {uu : Units} {zz s : State} (m : Master) (hk : Kept uu zz s)
    (hKvt : uu.kvt = true := by assumption) (hMbx : uu.mbx = true := by assumption)
    (hMoved : uu.moved = true := by assumption) (hOut : uu.out = true := by assumption)
    (hFree : uu.free = true := by assumption) :
    KeptBy uu zz (execKeyChallenge m s) := by
  unfold execKeyChallenge
  repeat' first
    | with_reducible assumption
    | exact {}
    | intro _
    | extract_lets +onlyGivenNames _
    | with_reducible refine KeptBy.next ?_
    | with_reducible apply Kept.runCmd
    | with_reducible apply Kept.checked
    | with_reducible apply Kept.tookFree
    | with_reducible apply Kept.updKvt
    | with_reducible apply Kept.finish

theorem KeptBy.keyLogin {uu : Units} {zz s : State} (m : Master) (hk : Kept uu zz s) (hKvt : uu.kvt = true := by assumption)
    (hMbx : uu.mbx = true := by assumption) (hMoved : uu.moved = true := by assumption)
    (hOut : uu.out = true := by assumption) :
    KeptBy uu zz (execKeyLogin m s) := by
  unfold execKeyLogin
  repeat' first
    | with_reducible assumption
    | exact {}
    | intro _
    | (extract_lets +onlyGivenNames x; first | refine Kept.cut x ?_ ?_ <;> [subst x; (clear_value x; intro _)] | refine KeptBy.cut x ?_ ?_ <;> [subst x; (clear_value x; intro _)] | skip)
    | with_reducible refine KeptBy.next ?_
    | with_reducible apply Kept.runCmd
    | with_reducible apply Kept.checked
    | with_reducible apply Kept.updKvt
    | with_reducible apply Kept.finish
    | with_reducible apply Kept.loginFailed
    | fail_if_no_progress (dsimp only [State.updKvt])
    | split
    | (with_reducible apply Kept.update) <;> [assumption; exact {}]

theorem KeptBy.keyLogout {uu : Units} {zz s : State} (m : Master) (hk : Kept uu zz s)
    (hKvt : uu.kvt = true := by assumption) (hMbx : uu.mbx = true := by assumption)
    (hMoved : uu.moved = true := by assumption) (hOut : uu.out = true := by assumption) :
    KeptBy uu zz (execKeyLogout m s) := by
  unfold execKeyLogout
  repeat' first
    | with_reducible assumption
    | exact {}
    | intro _
    | extract_lets +onlyGivenNames _
    | with_reducible refine KeptBy.next ?_
    | with_reducible apply Kept.runCmd
    | with_reducible apply Kept.checked
    | with_reducible apply Kept.endSession
    | with_reducible apply Kept.finish

theorem KeptBy.keyInfo {uu : Units} {zz s : State} (m : Master) (hk : Kept uu zz s) (hMbx : uu.mbx = true := by assumption)
    (hMoved : uu.moved = true := by assumption) (hOut : uu.out = true := by assumption) :
    KeptBy uu zz (execKeyInfo m s) := by
  unfold execKeyInfo
  repeat' first
    | with_reducible assumption
    | exact {}
    | intro _
    | extract_lets +onlyGivenNames _
    | with_reducible refine KeptBy.next ?_
    | with_reducible apply Kept.runCmd
    | with_reducible apply Kept.count
    | with_reducible apply Kept.checked
    | with_reducible apply Kept.finish

theorem KeptBy.keyGenerate {uu : Units} {zz s : State} (m : Master) (hk : Kept uu zz s)
    (hRfx : uu.rfx = true := by assumption) (hKvt : uu.kvt = true := by assumption) (hMbx : uu.mbx = true := by assumption)
    (hProps : uu.props = true := by assumption) (hXbr : uu.xbr = true := by assumption)
    (hPmu : uu.pmu = true := by assumption) (hMoved : uu.moved = true := by assumption)
    (hOut : uu.out = true := by assumption) (hFree : uu.free = true := by assumption) :
    KeptBy uu zz (execKeyGenerate m s) := by
  unfold execKeyGenerate
  repeat' first
    | with_reducible assumption
    | exact {}
    | intro _
    | extract_lets +onlyGivenNames _
    | with_reducible refine KeptBy.next ?_
    | with_reducible apply Kept.runCmd
    | with_reducible apply Kept.checked
    | with_reducible apply Kept.tookFree
    | with_reducible apply Kept.fillSlot
    | with_reducible apply Kept.sendKey

theorem KeptBy.keyImport {uu : Units} {zz s : State} (m : Master) (hk : Kept uu zz s)
    (hRfx : uu.rfx = true := by assumption) (hKvt : uu.kvt = true := by assumption) (hMbx : uu.mbx = true := by assumption)
    (hProps : uu.props = true := by assumption) (hXbr : uu.xbr = true := by assumption)
    (hPmu : uu.pmu = true := by assumption) (hMoved : uu.moved = true := by assumption)
    (hOut : uu.out = true := by assumption) :
    KeptBy uu zz (execKeyImport m s) := by
  unfold execKeyImport
  repeat' first
    | with_reducible assumption
    | exact {}
    | intro _
    | (extract_lets +onlyGivenNames x; first | refine Kept.cut x ?_ ?_ <;> [subst x; (clear_value x; intro _)] | refine KeptBy.cut x ?_ ?_ <;> [subst x; (clear_value x; intro _)] | skip)
    | with_reducible refine KeptBy.next ?_
    | with_reducible apply Kept.runCmd
    | with_reducible apply Kept.finish
    | with_reducible apply Kept.unwrapFailed
    | with_reducible apply Kept.updKvt
    | with_reducible apply Kept.checked
    | with_reducible apply Kept.fillSlot
    | with_reducible apply Kept.sendKey
    | fail_if_no_progress (dsimp only [State.updKvt])
    | split

theorem KeptBy.keyExport {uu : Units} {zz s : State} (m : Master) (hk : Kept uu zz s)
    (hMbx : uu.mbx = true := by assumption) (hMoved : uu.moved = true := by assumption)
    (hOut : uu.out = true := by assumption) :
    KeptBy uu zz (execKeyExport m s) := by
  unfold execKeyExport
  repeat' first
    | with_reducible assumption
    | exact {}
    | intro _
    | extract_lets +onlyGivenNames _
    | with_reducible refine KeptBy.next ?_
    | with_reducible apply Kept.runCmd
    | with_reducible apply Kept.checked
    | with_reducible apply Kept.finish
    | split

theorem KeptBy.keyDelete {uu : Units} {zz s : State} (m : Master) (hk : Kept uu zz s)
    (hRfx : uu.rfx = true := by assumption) (hKvt : uu.kvt = true := by assumption) (hMbx : uu.mbx = true := by assumption)
    (hProps : uu.props = true := by assumption) (hXbr : uu.xbr = true := by assumption)
    (hPmu : uu.pmu = true := by assumption) (hMoved : uu.moved = true := by assumption)
    (hOut : uu.out = true := by assumption) :
    KeptBy uu zz (execKeyDelete m s) := by
  unfold execKeyDelete
  repeat' first
    | with_reducible assumption
    | exact {}
    | intro _
    | extract_lets +onlyGivenNames _
    | with_reducible refine KeptBy.next ?_
    | with_reducible apply Kept.runCmd
    | with_reducible apply Kept.checked
    | with_reducible apply Kept.emptySlot
    | with_reducible apply Kept.sendKey

theorem KeptBy.keyRekey {uu : Units} {zz s : State} (m : Master) (hk : Kept uu zz s) (hRfx : uu.rfx = true := by assumption)
    (hKvt : uu.kvt = true := by assumption) (hMbx : uu.mbx = true := by assumption)
    (hProps : uu.props = true := by assumption) (hXbr : uu.xbr = true := by assumption)
    (hPmu : uu.pmu = true := by assumption) (hMoved : uu.moved = true := by assumption)
    (hOut : uu.out = true := by assumption) (hFree : uu.free = true := by assumption) :
    KeptBy uu zz (execKeyRekey m s) := by
  unfold execKeyRekey
  repeat' first
    | with_reducible assumption
    | exact {}
    | intro _
    | extract_lets +onlyGivenNames _
    | with_reducible refine KeptBy.next ?_
    | with_reducible apply Kept.runCmd
    | with_reducible apply Kept.checked
    | with_reducible apply Kept.startRekey
    | with_reducible apply Kept.sendKey

theorem KeptBy.keySelftest {uu : Units} {zz s : State} (m : Master) (failRow : Nat) (hk : Kept uu zz s)
    (hHce : uu.hce = true := by assumption) (hRfu : uu.rfu = true := by assumption) (hRge : uu.rge = true := by assumption)
    (hRfx : uu.rfx = true := by assumption) (hTk : uu.tk = true := by assumption) (hVsm : uu.vsm = true := by assumption)
    (hKvt : uu.kvt = true := by assumption) (hMbx : uu.mbx = true := by assumption) (hBay : uu.bay = true := by assumption)
    (hProps : uu.props = true := by assumption) (hXbr : uu.xbr = true := by assumption)
    (hSep : uu.sep = true := by assumption) (hPwr : uu.pwr = true := by assumption) (hLcu : uu.lcu = true := by assumption)
    (hPmu : uu.pmu = true := by assumption) (hTst : uu.tst = true := by assumption)
    (hMoved : uu.moved = true := by assumption) (hOut : uu.out = true := by assumption) :
    KeptBy uu zz (execKeySelftest m failRow s) := by
  unfold execKeySelftest
  repeat' first
    | with_reducible assumption
    | exact {}
    | intro _
    | (extract_lets +onlyGivenNames x; first | refine Kept.cut x ?_ ?_ <;> [subst x; (clear_value x; intro _)] | refine KeptBy.cut x ?_ ?_ <;> [subst x; (clear_value x; intro _)] | skip)
    | with_reducible refine KeptBy.next ?_
    | with_reducible apply Kept.runCmd
    | with_reducible apply Kept.checked
    | with_reducible apply Kept.updKvt
    | with_reducible apply Kept.vaultError
    | with_reducible apply Kept.finish
    | fail_if_no_progress (dsimp only [State.updKvt])
    | split

theorem KeptBy.keyZeroize {uu : Units} {zz s : State} (m : Master) (hk : Kept uu zz s)
    (hHce : uu.hce = true := by assumption) (hRfu : uu.rfu = true := by assumption) (hRge : uu.rge = true := by assumption)
    (hRfx : uu.rfx = true := by assumption) (hTk : uu.tk = true := by assumption) (hVsm : uu.vsm = true := by assumption)
    (hKvt : uu.kvt = true := by assumption) (hMbx : uu.mbx = true := by assumption) (hBay : uu.bay = true := by assumption)
    (hProps : uu.props = true := by assumption) (hXbr : uu.xbr = true := by assumption)
    (hSep : uu.sep = true := by assumption) (hPwr : uu.pwr = true := by assumption) (hLcu : uu.lcu = true := by assumption)
    (hPmu : uu.pmu = true := by assumption) (hTst : uu.tst = true := by assumption)
    (hMoved : uu.moved = true := by assumption) (hOut : uu.out = true := by assumption) :
    KeptBy uu zz (execKeyZeroize m s) := by
  unfold execKeyZeroize
  repeat' first
    | with_reducible assumption
    | exact {}
    | intro _
    | extract_lets +onlyGivenNames _
    | with_reducible refine KeptBy.next ?_
    | with_reducible apply Kept.runCmd
    | with_reducible apply Kept.checked
    | with_reducible apply Kept.zeroise
    | with_reducible apply Kept.zeroiseAll
    | with_reducible apply Kept.finish
    | split

theorem KeptBy.keyRandom {uu : Units} {zz s : State} (m : Master) (hk : Kept uu zz s)
    (hKvt : uu.kvt = true := by assumption) (hMbx : uu.mbx = true := by assumption)
    (hMoved : uu.moved = true := by assumption) (hOut : uu.out = true := by assumption)
    (hFree : uu.free = true := by assumption) :
    KeptBy uu zz (execKeyRandom m s) := by
  unfold execKeyRandom
  repeat' first
    | with_reducible assumption
    | exact {}
    | intro _
    | extract_lets +onlyGivenNames _
    | with_reducible refine KeptBy.next ?_
    | with_reducible apply Kept.runCmd
    | with_reducible apply Kept.checked
    | with_reducible apply Kept.updKvt
    | with_reducible apply Kept.finish
    | with_reducible apply Kept.freeBy

theorem KeptBy.pairKeyAgreementComplete {uu : Units} {zz s : State} (ok : Bool) (hk : Kept uu zz s)
    (hRfx : uu.rfx = true := by assumption) (hKvt : uu.kvt = true := by assumption) (hXbr : uu.xbr = true := by assumption)
    (hPmu : uu.pmu = true := by assumption) (hMoved : uu.moved = true := by assumption)
    (hOut : uu.out = true := by assumption) :
    KeptBy uu zz (execPairKeyAgreementComplete ok s) := by
  unfold execPairKeyAgreementComplete
  repeat' first
    | with_reducible assumption
    | exact {}
    | intro _
    | extract_lets +onlyGivenNames _
    | with_reducible refine KeptBy.next ?_
    | with_reducible apply Kept.sendXport
    | with_reducible apply Kept.updKvt
    | with_reducible apply Kept.raiseFlag
    | fail_if_no_progress (dsimp only [State.updKvt])
    | with_reducible refine Kept.foldl ?_ _ ?_
    | split
    | (with_reducible apply Kept.update) <;> [assumption; exact {}]

theorem KeptBy.rekeyPieceLoaded {uu : Units} {zz s : State} (slot : Nat) (blocks : List (Nat × Block)) (hk : Kept uu zz s)
    (hHce : uu.hce = true := by assumption) (hRfx : uu.rfx = true := by assumption) (hKvt : uu.kvt = true := by assumption)
    (hXbr : uu.xbr = true := by assumption) (hPwr : uu.pwr = true := by assumption) (hPmu : uu.pmu = true := by assumption)
    (hMoved : uu.moved = true := by assumption) (hOut : uu.out = true := by assumption)
    (hFree : uu.free = true := by assumption) :
    KeptBy uu zz (execRekeyPieceLoaded slot blocks s) := by
  unfold execRekeyPieceLoaded
  repeat' first
    | with_reducible assumption
    | exact {}
    | intro _
    | (extract_lets +onlyGivenNames x; first | refine Kept.cut x ?_ ?_ <;> [subst x; (clear_value x; intro _)] | refine KeptBy.cut x ?_ ?_ <;> [subst x; (clear_value x; intro _)] | skip)
    | with_reducible refine KeptBy.next ?_
    | with_reducible apply Kept.updRekey
    | with_reducible apply Kept.updHce
    | with_reducible apply Kept.wakeStacks
    | with_reducible apply Kept.laneWork
    | with_reducible apply Kept.mirSendAll
    | with_reducible apply Kept.commitVersion
    | split

theorem KeptBy.rekeyRegionDone {uu : Units} {zz s : State} (slot : Nat) (hk : Kept uu zz s)
    (hHce : uu.hce = true := by assumption) (hRfx : uu.rfx = true := by assumption) (hKvt : uu.kvt = true := by assumption)
    (hXbr : uu.xbr = true := by assumption) (hPmu : uu.pmu = true := by assumption)
    (hMoved : uu.moved = true := by assumption) (hOut : uu.out = true := by assumption) :
    KeptBy uu zz (execRekeyRegionDone slot s) := by
  unfold execRekeyRegionDone
  repeat' first
    | with_reducible assumption
    | exact {}
    | intro _
    | (extract_lets +onlyGivenNames x; first | refine Kept.cut x ?_ ?_ <;> [subst x; (clear_value x; intro _)] | refine KeptBy.cut x ?_ ?_ <;> [subst x; (clear_value x; intro _)] | skip)
    | with_reducible refine KeptBy.next ?_
    | with_reducible apply Kept.rekeyStep
    | with_reducible apply Kept.putKey
    | with_reducible apply Kept.updRekey
    | split

theorem KeptBy.mkaFrameReceive {uu : Units} {zz s : State} (port : Nat) (msg : MkaMsg) (hk : Kept uu zz s)
    (hKvt : uu.kvt = true := by assumption) (hMoved : uu.moved = true := by assumption)
    (hOut : uu.out = true := by assumption) (hFree : uu.free = true := by assumption) :
    KeptBy uu zz (execMkaFrameReceive port msg s) := by
  unfold execMkaFrameReceive
  repeat' first
    | with_reducible assumption
    | exact {}
    | intro _
    | extract_lets +onlyGivenNames _
    | with_reducible refine KeptBy.next ?_
    | with_reducible apply Kept.bump
    | with_reducible apply Kept.tookFree
    | with_reducible apply Kept.setMsPort
    | with_reducible apply Kept.mkaSend
    | split

theorem KeptBy.mkaHello {uu : Units} {zz s : State} (port : Nat) (hk : Kept uu zz s) (hKvt : uu.kvt = true := by assumption)
    (hOut : uu.out = true := by assumption) :
    KeptBy uu zz (execMkaHello port s) := by
  unfold execMkaHello
  repeat' first
    | with_reducible assumption
    | exact {}
    | intro _
    | extract_lets +onlyGivenNames _
    | with_reducible refine KeptBy.next ?_
    | with_reducible apply Kept.mkaSend
    | split

theorem KeptBy.mkaLifeExpiry {uu : Units} {zz s : State} (port : Nat) (member : Nat) (hk : Kept uu zz s)
    (hHce : uu.hce = true := by assumption) (hRge : uu.rge = true := by assumption) (hRfx : uu.rfx = true := by assumption)
    (hTk : uu.tk = true := by assumption) (hVsm : uu.vsm = true := by assumption) (hKvt : uu.kvt = true := by assumption)
    (hMbx : uu.mbx = true := by assumption) (hBay : uu.bay = true := by assumption)
    (hProps : uu.props = true := by assumption) (hXbr : uu.xbr = true := by assumption)
    (hSep : uu.sep = true := by assumption) (hPwr : uu.pwr = true := by assumption) (hLcu : uu.lcu = true := by assumption)
    (hPmu : uu.pmu = true := by assumption) (hTst : uu.tst = true := by assumption)
    (hMoved : uu.moved = true := by assumption) (hOut : uu.out = true := by assumption) :
    KeptBy uu zz (execMkaLifeExpiry port member s) := by
  unfold execMkaLifeExpiry
  repeat' first
    | with_reducible assumption
    | exact {}
    | intro _
    | (extract_lets +onlyGivenNames x; first | refine Kept.cut x ?_ ?_ <;> [subst x; (clear_value x; intro _)] | refine KeptBy.cut x ?_ ?_ <;> [subst x; (clear_value x; intro _)] | skip)
    | with_reducible refine KeptBy.next ?_
    | with_reducible apply Kept.setMsPort
    | with_reducible apply Kept.portDown
    | split

theorem KeptBy.clientHello {uu : Units} {zz s : State} (conn : Nat) (identities : List (List Byte)) (suiteOk : Bool)
    (groupOk : Bool) (binderOk : Bool) (hk : Kept uu zz s) (hHce : uu.hce = true := by assumption)
    (hRfu : uu.rfu = true := by assumption) (hRfx : uu.rfx = true := by assumption) (hKvt : uu.kvt = true := by assumption)
    (hXbr : uu.xbr = true := by assumption) (hPmu : uu.pmu = true := by assumption)
    (hMoved : uu.moved = true := by assumption) (hOut : uu.out = true := by assumption)
    (hFree : uu.free = true := by assumption) :
    KeptBy uu zz (execClientHello conn identities suiteOk groupOk binderOk s) := by
  unfold execClientHello
  repeat' first
    | with_reducible assumption
    | exact {}
    | intro _
    | (extract_lets +onlyGivenNames x; first | refine Kept.cut x ?_ ?_ <;> [subst x; (clear_value x; intro _)] | refine KeptBy.cut x ?_ ?_ <;> [subst x; (clear_value x; intro _)] | skip)
    | with_reducible refine KeptBy.next ?_
    | with_reducible apply Kept.tlsAlert
    | with_reducible apply Kept.emit
    | with_reducible apply Kept.tookFree
    | with_reducible apply Kept.updConn
    | with_reducible apply Kept.updKvt
    | with_reducible apply Kept.sendXport
    | fail_if_no_progress (dsimp only [State.updKvt])
    | split
    | (with_reducible apply Kept.update) <;> [assumption; exact {}]

theorem KeptBy.keyUpdateReceive {uu : Units} {zz s : State} (conn : Nat) (hk : Kept uu zz s)
    (hHce : uu.hce = true := by assumption) (hRfx : uu.rfx = true := by assumption) (hKvt : uu.kvt = true := by assumption)
    (hXbr : uu.xbr = true := by assumption) (hPmu : uu.pmu = true := by assumption)
    (hMoved : uu.moved = true := by assumption) (hOut : uu.out = true := by assumption)
    (hFree : uu.free = true := by assumption) :
    KeptBy uu zz (execKeyUpdateReceive conn s) := by
  unfold execKeyUpdateReceive
  repeat' first
    | with_reducible assumption
    | exact {}
    | intro _
    | (extract_lets +onlyGivenNames x; first | refine Kept.cut x ?_ ?_ <;> [subst x; (clear_value x; intro _)] | refine KeptBy.cut x ?_ ?_ <;> [subst x; (clear_value x; intro _)] | skip)
    | with_reducible refine KeptBy.next ?_
    | with_reducible apply Kept.tookFree
    | with_reducible apply Kept.updKvt
    | with_reducible apply Kept.sendXport
    | with_reducible apply Kept.updConn
    | fail_if_no_progress (dsimp only [State.updKvt])
    | split

end Sys2Proof.Machine
end

