-- ==== Sys2Proof/Laws/KeptFirmware.lean ====
section
/-! SUPPORT. `Kept` for the operations of Machine/Firmware.lean. -/

set_option Elab.async false

namespace Sys2Proof.Machine

theorem Kept.planPeer {uu : Units} {zz s : State} (op : Nat) (p : List Byte) (hk : Kept uu zz s)
    (hHce : uu.hce = true := by assumption) (hRfu : uu.rfu = true := by assumption) (hRge : uu.rge = true := by assumption)
    (hSnt : uu.snt = true := by assumption) (hRfx : uu.rfx = true := by assumption) (hVsm : uu.vsm = true := by assumption)
    (hKvt : uu.kvt = true := by assumption) (hXbr : uu.xbr = true := by assumption) (hPmu : uu.pmu = true := by assumption)
    (hMoved : uu.moved = true := by assumption) (hOut : uu.out = true := by assumption) : KeptPlan uu zz
    (State.planPeer s op p) := by
  unfold State.planPeer
  split
  · exact KeptPlan.map (fun e he => Kept.storeChanged he) (Kept.plan op p true hk)
  · split
    · exact KeptPlan.ok (Kept.removeRing _ hk)
    · split
      · exact KeptPlan.ok (Kept.joinMigration _ hk)
      split
      · exact KeptPlan.ok (Kept.endMigration _ _ hk)
      split
      · exact Kept.planKey op p hk
      · exact KeptPlan.error

theorem Kept.answerPeer {uu : Units} {zz s : State} (st : Nat) (hk : Kept uu zz s) (hXbr : uu.xbr = true := by assumption)
    (hOut : uu.out = true := by assumption) : Kept uu zz (State.answerPeer s st) := by
  unfold State.answerPeer
  repeat' first
    | with_reducible assumption
    | exact {}
    | intro _
    | with_reducible apply Kept.replyPeer

theorem Kept.takePropagation {uu : Units} {zz s : State} (op : Nat) (p : List Byte) (hk : Kept uu zz s)
    (hHce : uu.hce = true := by assumption) (hRfu : uu.rfu = true := by assumption) (hRge : uu.rge = true := by assumption)
    (hSnt : uu.snt = true := by assumption) (hRfx : uu.rfx = true := by assumption) (hVsm : uu.vsm = true := by assumption)
    (hKvt : uu.kvt = true := by assumption) (hXbr : uu.xbr = true := by assumption) (hPmu : uu.pmu = true := by assumption)
    (hMoved : uu.moved = true := by assumption) (hOut : uu.out = true := by assumption) : Kept uu zz
    (State.takePropagation s op p) := by
  unfold State.takePropagation
  repeat' first
    | with_reducible assumption
    | exact {}
    | intro _
    | extract_lets +onlyGivenNames _
    | with_reducible apply Kept.planPeer
    | with_reducible apply Kept.answerPeer
    | refine Kept.ofPlan (by assumption) ?_
    | split

theorem Kept.undo {uu : Units} {zz s : State} (p : PropRec) (hk : Kept uu zz s) (hVsm : uu.vsm = true := by assumption)
    (hKvt : uu.kvt = true := by assumption) : Kept uu zz (State.undo s p) := by
  unfold State.undo
  repeat' first
    | with_reducible assumption
    | exact {}
    | intro _
    | extract_lets +onlyGivenNames _
    | with_reducible apply Kept.updVsm
    | with_reducible apply Kept.updKvt
    | with_reducible apply Kept.vaultSettle
    | fail_if_no_progress (dsimp only [State.updKvt])
    | split
    | (with_reducible apply Kept.update) <;> [assumption; exact {}]

theorem Kept.takeReply {uu : Units} {zz s : State} (op : Nat) (st : Nat) (hk : Kept uu zz s)
    (hVsm : uu.vsm = true := by assumption) (hKvt : uu.kvt = true := by assumption) (hMbx : uu.mbx = true := by assumption)
    (hProps : uu.props = true := by assumption) (hMoved : uu.moved = true := by assumption)
    (hOut : uu.out = true := by assumption) : Kept uu zz (State.takeReply s op st) := by
  unfold State.takeReply
  repeat' first
    | with_reducible assumption
    | exact {}
    | intro _
    | (extract_lets +onlyGivenNames x; first | refine Kept.cut x ?_ ?_ <;> [subst x; (clear_value x; intro _)] | skip)
    | with_reducible apply Kept.propDone
    | with_reducible apply Kept.undo
    | with_reducible apply Kept.finish
    | split
    | (with_reducible apply Kept.update) <;> [assumption; exact {}]

theorem Kept.stageBytes {uu : Units} {zz s : State} (o : Nat) (bs : List Byte) (hk : Kept uu zz s)
    (hMbx : uu.mbx = true := by assumption) : Kept uu zz (State.stageBytes s o bs) := by
  unfold State.stageBytes
  repeat' first
    | with_reducible assumption
    | exact {}
    | intro _
    | with_reducible apply Kept.updMbx

theorem Kept.setSlot {uu : Units} {zz s : State} (slot : Nat) (x : FwSlot) (hk : Kept uu zz s)
    (hMbx : uu.mbx = true := by assumption) : Kept uu zz (State.setSlot s slot x) := by
  unfold State.setSlot
  repeat' first
    | with_reducible assumption
    | exact {}
    | intro _
    | extract_lets +onlyGivenNames _
    | with_reducible apply Kept.updMbx
    | fail_if_no_progress (dsimp only [State.updMbx])
    | split

theorem Kept.beginCommit {uu : Units} {zz s : State} (slot : Nat) (raise_ : Bool) (hk : Kept uu zz s)
    (hMbx : uu.mbx = true := by assumption) : Kept uu zz (State.beginCommit s slot raise_) := by
  unfold State.beginCommit
  repeat' first
    | with_reducible assumption
    | exact {}
    | intro _
    | extract_lets +onlyGivenNames _
    | with_reducible apply Kept.setSlot
    | with_reducible apply Kept.updMbx

theorem Kept.finishOp {uu : Units} {zz s : State} (op : Nat) (st : Nat) (hk : Kept uu zz s)
    (hMbx : uu.mbx = true := by assumption) (hMoved : uu.moved = true := by assumption)
    (hOut : uu.out = true := by assumption) : Kept uu zz (State.finishOp s op st) := by
  unfold State.finishOp
  repeat' first
    | with_reducible assumption
    | exact {}
    | intro _
    | with_reducible apply Kept.finish
    | split

theorem Kept.beginActivate {uu : Units} {zz s : State} (slot : Nat) (hk : Kept uu zz s)
    (hMbx : uu.mbx = true := by assumption) : Kept uu zz (State.beginActivate s slot) := by
  unfold State.beginActivate
  repeat' first
    | with_reducible assumption
    | exact {}
    | intro _
    | with_reducible apply Kept.updMbx

theorem Kept.pldmReply {uu : Units} {zz s : State} (cmd : Nat) (code : Nat) (bs : List Byte) (hk : Kept uu zz s)
    (hOut : uu.out = true := by assumption) : Kept uu zz (State.pldmReply s cmd code bs) := by
  unfold State.pldmReply
  repeat' first
    | with_reducible assumption
    | exact {}
    | intro _
    | with_reducible apply Kept.emit

/-! ## The commands -/

theorem KeptBy.mgmtPropagation {uu : Units} {zz s : State} (p : Propagation) (hk : Kept uu zz s)
    (hHce : uu.hce = true := by assumption) (hRfu : uu.rfu = true := by assumption) (hRge : uu.rge = true := by assumption)
    (hSnt : uu.snt = true := by assumption) (hRfx : uu.rfx = true := by assumption) (hVsm : uu.vsm = true := by assumption)
    (hKvt : uu.kvt = true := by assumption) (hXbr : uu.xbr = true := by assumption) (hPmu : uu.pmu = true := by assumption)
    (hMoved : uu.moved = true := by assumption) (hOut : uu.out = true := by assumption) :
    KeptBy uu zz (execMgmtPropagation p s) := by
  unfold execMgmtPropagation
  repeat' first
    | with_reducible assumption
    | exact {}
    | intro _
    | extract_lets +onlyGivenNames _
    | with_reducible refine KeptBy.next ?_
    | with_reducible apply Kept.takePropagation
    | split

theorem KeptBy.mgmtFrameReceive {uu : Units} {zz s : State} (fid : Nat) (kind : Nat) (packet : List Byte) (hk
    : Kept uu zz s) (hHce : uu.hce = true := by assumption) (hRfu : uu.rfu = true := by assumption)
    (hRge : uu.rge = true := by assumption) (hSnt : uu.snt = true := by assumption) (hRfx : uu.rfx = true := by assumption)
    (hVsm : uu.vsm = true := by assumption) (hKvt : uu.kvt = true := by assumption) (hMbx : uu.mbx = true := by assumption)
    (hProps : uu.props = true := by assumption) (hXbr : uu.xbr = true := by assumption)
    (hSep : uu.sep = true := by assumption) (hPmu : uu.pmu = true := by assumption)
    (hMoved : uu.moved = true := by assumption) (hOut : uu.out = true := by assumption) :
    KeptBy uu zz (execMgmtFrameReceive fid kind packet s) := by
  unfold execMgmtFrameReceive
  repeat' first
    | with_reducible assumption
    | exact {}
    | intro _
    | extract_lets +onlyGivenNames _
    | with_reducible refine KeptBy.next ?_
    | with_reducible apply Kept.route
    | with_reducible apply Kept.bump
    | with_reducible apply Kept.takeReply
    | with_reducible apply Kept.takePropagation
    | split

theorem KeptBy.fwDownload {uu : Units} {zz s : State} (m : Master) (hk : Kept uu zz s)
    (hMbx : uu.mbx = true := by assumption) (hMoved : uu.moved = true := by assumption)
    (hOut : uu.out = true := by assumption) :
    KeptBy uu zz (execFwDownload m s) := by
  unfold execFwDownload
  repeat' first
    | with_reducible assumption
    | exact {}
    | intro _
    | extract_lets +onlyGivenNames _
    | with_reducible refine KeptBy.next ?_
    | with_reducible apply Kept.runCmd
    | with_reducible apply Kept.checked
    | with_reducible apply Kept.stageBytes
    | with_reducible apply Kept.finish

theorem KeptBy.fwCommit {uu : Units} {zz s : State} (m : Master) (hk : Kept uu zz s) (hMbx : uu.mbx = true := by assumption)
    (hMoved : uu.moved = true := by assumption) (hOut : uu.out = true := by assumption) :
    KeptBy uu zz (execFwCommit m s) := by
  unfold execFwCommit
  repeat' first
    | with_reducible assumption
    | exact {}
    | intro _
    | extract_lets +onlyGivenNames _
    | with_reducible refine KeptBy.next ?_
    | with_reducible apply Kept.runCmd
    | with_reducible apply Kept.checked
    | with_reducible apply Kept.beginCommit
    | with_reducible apply Kept.keepRunning

theorem KeptBy.fwCommitDone {uu : Units} {zz s : State} (hk : Kept uu zz s) (hMbx : uu.mbx = true := by assumption)
    (hMoved : uu.moved = true := by assumption) (hOut : uu.out = true := by assumption) :
    KeptBy uu zz (execFwCommitDone s) := by
  unfold execFwCommitDone
  repeat' first
    | with_reducible assumption
    | exact {}
    | intro _
    | extract_lets +onlyGivenNames _
    | with_reducible refine KeptBy.next ?_
    | with_reducible apply Kept.setSlot
    | with_reducible apply Kept.updMbx
    | with_reducible apply Kept.finishOp
    | fail_if_no_progress (dsimp only [State.updMbx])
    | split
    | (with_reducible apply Kept.update) <;> [assumption; exact {}]
    | refine Kept.ofPair (by assumption) ?_
    | refine Kept.ofPair' (by assumption) ?_
    | (with_reducible apply Kept.update) <;> [refine Kept.ofPair (by assumption) ?_; exact {}]
    | fail_if_no_progress ((with_reducible apply Kept.update) <;> [skip; exact {}])

theorem KeptBy.fwActivate {uu : Units} {zz s : State} (m : Master) (hk : Kept uu zz s)
    (hMbx : uu.mbx = true := by assumption) (hMoved : uu.moved = true := by assumption)
    (hOut : uu.out = true := by assumption) :
    KeptBy uu zz (execFwActivate m s) := by
  unfold execFwActivate
  repeat' first
    | with_reducible assumption
    | exact {}
    | intro _
    | extract_lets +onlyGivenNames _
    | with_reducible refine KeptBy.next ?_
    | with_reducible apply Kept.runCmd
    | with_reducible apply Kept.checked
    | with_reducible apply Kept.beginActivate
    | with_reducible apply Kept.keepRunning

theorem KeptBy.activationComplete {uu : Units} {zz s : State} (hk : Kept uu zz s) (hHce : uu.hce = true := by assumption)
    (hRfu : uu.rfu = true := by assumption) (hRfx : uu.rfx = true := by assumption) (hKvt : uu.kvt = true := by assumption)
    (hMbx : uu.mbx = true := by assumption) (hXbr : uu.xbr = true := by assumption) (hSep : uu.sep = true := by assumption)
    (hPmu : uu.pmu = true := by assumption) (hMoved : uu.moved = true := by assumption)
    (hOut : uu.out = true := by assumption) (hFree : uu.free = true := by assumption) :
    KeptBy uu zz (execActivationComplete s) := by
  unfold execActivationComplete
  repeat' first
    | with_reducible assumption
    | exact {}
    | intro _
    | extract_lets +onlyGivenNames _
    | with_reducible refine KeptBy.next ?_
    | with_reducible apply Kept.updMbx
    | with_reducible apply Kept.sepEvent
    | with_reducible apply Kept.finishOp
    | with_reducible apply Kept.adminAll
    | fail_if_no_progress (dsimp only [State.updMbx])
    | split
    | (with_reducible apply Kept.update) <;> [assumption; exact {}]

theorem KeptBy.fwStatus {uu : Units} {zz s : State} (m : Master) (hk : Kept uu zz s) (hMbx : uu.mbx = true := by assumption)
    (hMoved : uu.moved = true := by assumption) (hOut : uu.out = true := by assumption) :
    KeptBy uu zz (execFwStatus m s) := by
  unfold execFwStatus
  repeat' first
    | with_reducible assumption
    | exact {}
    | intro _
    | extract_lets +onlyGivenNames _
    | with_reducible refine KeptBy.next ?_
    | with_reducible apply Kept.runCmd
    | with_reducible apply Kept.finish

theorem KeptBy.pldmRequestUpdate {uu : Units} {zz s : State} (hk : Kept uu zz s) (hMbx : uu.mbx = true := by assumption)
    (hOut : uu.out = true := by assumption) :
    KeptBy uu zz (execPldmRequestUpdate s) := by
  unfold execPldmRequestUpdate
  repeat' first
    | with_reducible assumption
    | exact {}
    | intro _
    | extract_lets +onlyGivenNames _
    | with_reducible refine KeptBy.next ?_
    | with_reducible apply Kept.updMbx
    | with_reducible apply Kept.pldmReply
    | fail_if_no_progress (dsimp only [State.updMbx])
    | split
    | (with_reducible apply Kept.update) <;> [assumption; exact {}]

theorem KeptBy.pldmComponentTransfer {uu : Units} {zz s : State} (offset : Nat) (bytes : List Byte) (hk : Kept uu zz s)
    (hMbx : uu.mbx = true := by assumption) :
    KeptBy uu zz (execPldmComponentTransfer offset bytes s) := by
  unfold execPldmComponentTransfer
  repeat' first
    | with_reducible assumption
    | exact {}
    | intro _
    | extract_lets +onlyGivenNames _
    | with_reducible refine KeptBy.next ?_
    | with_reducible apply Kept.stageBytes
    | split

theorem KeptBy.pldmVerifyApply {uu : Units} {zz s : State} (hk : Kept uu zz s) (hMbx : uu.mbx = true := by assumption)
    (hOut : uu.out = true := by assumption) :
    KeptBy uu zz (execPldmVerifyApply s) := by
  unfold execPldmVerifyApply
  repeat' first
    | with_reducible assumption
    | exact {}
    | intro _
    | extract_lets +onlyGivenNames _
    | with_reducible refine KeptBy.next ?_
    | with_reducible apply Kept.pldmReply
    | with_reducible apply Kept.beginCommit
    | with_reducible apply Kept.updMbx
    | fail_if_no_progress (dsimp only [State.updMbx])
    | split
    | (with_reducible apply Kept.update) <;> [assumption; exact {}]
    | refine Kept.ofPair (by assumption) ?_
    | refine Kept.ofPair' (by assumption) ?_
    | (with_reducible apply Kept.update) <;> [refine Kept.ofPair (by assumption) ?_; exact {}]
    | fail_if_no_progress ((with_reducible apply Kept.update) <;> [skip; exact {}])

theorem KeptBy.pldmActivateFirmware {uu : Units} {zz s : State} (hk : Kept uu zz s) (hMbx : uu.mbx = true := by assumption)
    (hOut : uu.out = true := by assumption) :
    KeptBy uu zz (execPldmActivateFirmware s) := by
  unfold execPldmActivateFirmware
  repeat' first
    | with_reducible assumption
    | exact {}
    | intro _
    | extract_lets +onlyGivenNames _
    | with_reducible refine KeptBy.next ?_
    | with_reducible apply Kept.pldmReply
    | with_reducible apply Kept.beginActivate
    | split

theorem KeptBy.pldmGetSensorReading {uu : Units} {zz s : State} (sensor : Nat) (hk : Kept uu zz s)
    (hOut : uu.out = true := by assumption) (hFree : uu.free = true := by assumption) :
    KeptBy uu zz (execPldmGetSensorReading sensor s) := by
  unfold execPldmGetSensorReading
  repeat' first
    | with_reducible assumption
    | exact {}
    | intro _
    | extract_lets +onlyGivenNames _
    | with_reducible refine KeptBy.next ?_
    | with_reducible apply Kept.pldmReply
    | with_reducible apply Kept.tookFree
    | split

end Sys2Proof.Machine
end

