-- ==== Sys2Proof/Laws/KeptPower.lean ====
section
/-! SUPPORT. `Kept` for the operations of Machine/Power.lean. -/

set_option Elab.async false

namespace Sys2Proof.Machine

theorem Kept.domsOff {uu : Units} {zz s : State} (ds : List Nat) (hk : Kept uu zz s) (hPwr : uu.pwr = true := by assumption)
    : Kept uu zz (State.domsOff s ds) := by
  unfold State.domsOff
  repeat' first
    | with_reducible assumption
    | exact {}
    | intro _
    | with_reducible apply Kept.updPwr

theorem Kept.shedStack {uu : Units} {zz s : State} (k : Nat) (hk : Kept uu zz s) (hPwr : uu.pwr = true := by assumption)
    : Kept uu zz (State.shedStack s k) := by
  unfold State.shedStack
  repeat' first
    | with_reducible assumption
    | exact {}
    | intro _
    | extract_lets +onlyGivenNames _
    | with_reducible apply Kept.domsOff
    | with_reducible apply Kept.updPwr
    | split

theorem Kept.shedStacks {uu : Units} {zz s : State} (k : Nat) (hk : Kept uu zz s) (hPwr : uu.pwr = true := by assumption)
    : Kept uu zz (State.shedStacks s k) := by
  unfold State.shedStacks
  repeat' first
    | with_reducible assumption
    | exact {}
    | intro _
    | extract_lets +onlyGivenNames _
    | with_reducible apply Kept.shedStack
    | with_reducible refine Kept.foldl ?_ _ ?_

theorem Kept.shedFab {uu : Units} {zz s : State} (p : Nat) (hk : Kept uu zz s) (hHce : uu.hce = true := by assumption)
    (hRge : uu.rge = true := by assumption) (hRfx : uu.rfx = true := by assumption) (hTk : uu.tk = true := by assumption)
    (hVsm : uu.vsm = true := by assumption) (hKvt : uu.kvt = true := by assumption) (hMbx : uu.mbx = true := by assumption)
    (hBay : uu.bay = true := by assumption) (hProps : uu.props = true := by assumption)
    (hXbr : uu.xbr = true := by assumption) (hSep : uu.sep = true := by assumption) (hPwr : uu.pwr = true := by assumption)
    (hLcu : uu.lcu = true := by assumption) (hPmu : uu.pmu = true := by assumption) (hTst : uu.tst = true := by assumption)
    (hMoved : uu.moved = true := by assumption) (hOut : uu.out = true := by assumption) : Kept uu zz
    (State.shedFab s p) := by
  unfold State.shedFab
  repeat' first
    | with_reducible assumption
    | exact {}
    | intro _
    | extract_lets +onlyGivenNames _
    | with_reducible apply Kept.portDown
    | with_reducible apply Kept.setFabPort
    | with_reducible apply Kept.domsOff

theorem Kept.enterLull {uu : Units} {zz s : State} (hk : Kept uu zz s) (hHce : uu.hce = true := by assumption)
    (hRge : uu.rge = true := by assumption) (hRfx : uu.rfx = true := by assumption) (hTk : uu.tk = true := by assumption)
    (hVsm : uu.vsm = true := by assumption) (hKvt : uu.kvt = true := by assumption) (hMbx : uu.mbx = true := by assumption)
    (hBay : uu.bay = true := by assumption) (hProps : uu.props = true := by assumption)
    (hXbr : uu.xbr = true := by assumption) (hSep : uu.sep = true := by assumption) (hPwr : uu.pwr = true := by assumption)
    (hLcu : uu.lcu = true := by assumption) (hPmu : uu.pmu = true := by assumption) (hTst : uu.tst = true := by assumption)
    (hMoved : uu.moved = true := by assumption) (hOut : uu.out = true := by assumption) : Kept uu zz
    (State.enterLull s) := by
  unfold State.enterLull
  repeat' first
    | with_reducible assumption
    | exact {}
    | intro _
    | (extract_lets +onlyGivenNames x; first | refine Kept.cut x ?_ ?_ <;> [subst x; (clear_value x; intro _)] | skip)
    | with_reducible apply Kept.shedFab
    | with_reducible apply Kept.shedStacks
    | with_reducible apply Kept.updPwr
    | with_reducible refine Kept.foldl ?_ _ ?_

theorem Kept.enterDoze {uu : Units} {zz s : State} (hk : Kept uu zz s) (hHce : uu.hce = true := by assumption)
    (hTk : uu.tk = true := by assumption) (hXbr : uu.xbr = true := by assumption) (hPwr : uu.pwr = true := by assumption)
    (hMac : uu.mac = true := by assumption) (hMoved : uu.moved = true := by assumption)
    (hOut : uu.out = true := by assumption) : Kept uu zz (State.enterDoze s) := by
  unfold State.enterDoze
  repeat' first
    | with_reducible assumption
    | exact {}
    | intro _
    | (extract_lets +onlyGivenNames x; first | refine Kept.cut x ?_ ?_ <;> [subst x; (clear_value x; intro _)] | skip)
    | with_reducible apply Kept.moveIdent
    | with_reducible apply Kept.flushEgress
    | with_reducible apply Kept.domsOff
    | with_reducible apply Kept.shedStacks
    | with_reducible apply Kept.updPwr
    | with_reducible refine Kept.foldl ?_ _ ?_
    | split
    | (with_reducible apply Kept.update) <;> [assumption; exact {}]

theorem Kept.leaveDoze {uu : Units} {zz s : State} (hk : Kept uu zz s) (hPwr : uu.pwr = true := by assumption) : Kept uu zz
    (State.leaveDoze s) := by
  unfold State.leaveDoze
  repeat' first
    | with_reducible assumption
    | exact {}
    | intro _
    | extract_lets +onlyGivenNames _
    | with_reducible apply Kept.wakeAll
    | with_reducible apply Kept.updPwr

theorem Kept.applyShed {uu : Units} {zz s : State} (hk : Kept uu zz s) (hHce : uu.hce = true := by assumption)
    (hRge : uu.rge = true := by assumption) (hRfx : uu.rfx = true := by assumption) (hTk : uu.tk = true := by assumption)
    (hVsm : uu.vsm = true := by assumption) (hKvt : uu.kvt = true := by assumption) (hMbx : uu.mbx = true := by assumption)
    (hBay : uu.bay = true := by assumption) (hProps : uu.props = true := by assumption)
    (hXbr : uu.xbr = true := by assumption) (hSep : uu.sep = true := by assumption) (hPwr : uu.pwr = true := by assumption)
    (hLcu : uu.lcu = true := by assumption) (hPmu : uu.pmu = true := by assumption) (hTst : uu.tst = true := by assumption)
    (hMoved : uu.moved = true := by assumption) (hOut : uu.out = true := by assumption) : Kept uu zz
    (State.applyShed s) := by
  unfold State.applyShed
  repeat' first
    | with_reducible assumption
    | exact {}
    | intro _
    | extract_lets +onlyGivenNames _
    | with_reducible apply Kept.wakeAll
    | with_reducible apply Kept.shedFab
    | with_reducible refine Kept.foldl ?_ _ ?_
    | split

theorem Kept.holdWake {uu : Units} {zz s : State} (hk : Kept uu zz s) (hPwr : uu.pwr = true := by assumption) : Kept uu zz
    (State.holdWake s) := by
  unfold State.holdWake
  repeat' first
    | with_reducible assumption
    | exact {}
    | intro _
    | with_reducible apply Kept.wakeActive
    | split

theorem Kept.applyPolicy {uu : Units} {zz s : State} (hk : Kept uu zz s) (hHce : uu.hce = true := by assumption)
    (hRge : uu.rge = true := by assumption) (hRfx : uu.rfx = true := by assumption) (hTk : uu.tk = true := by assumption)
    (hVsm : uu.vsm = true := by assumption) (hKvt : uu.kvt = true := by assumption) (hMbx : uu.mbx = true := by assumption)
    (hBay : uu.bay = true := by assumption) (hProps : uu.props = true := by assumption)
    (hXbr : uu.xbr = true := by assumption) (hSep : uu.sep = true := by assumption) (hPwr : uu.pwr = true := by assumption)
    (hLcu : uu.lcu = true := by assumption) (hPmu : uu.pmu = true := by assumption) (hTst : uu.tst = true := by assumption)
    (hMoved : uu.moved = true := by assumption) (hOut : uu.out = true := by assumption) : Kept uu zz
    (State.applyPolicy s) := by
  unfold State.applyPolicy
  repeat' first
    | with_reducible assumption
    | exact {}
    | intro _
    | extract_lets +onlyGivenNames _
    | with_reducible apply Kept.holdWake
    | with_reducible apply Kept.applyShed

theorem Kept.writeChunk {uu : Units} {zz s : State} (i : Nat) (pos : Nat) (c : FlushChunk) (hk : Kept uu zz s)
    (hBay : uu.bay = true := by assumption) (hPmu : uu.pmu = true := by assumption)
    (hMoved : uu.moved = true := by assumption) (hOut : uu.out = true := by assumption) : Kept uu zz
    (State.writeChunk s i pos c) := by
  unfold State.writeChunk
  repeat' first
    | with_reducible assumption
    | exact {}
    | intro _
    | with_reducible apply Kept.issueWith

theorem Kept.writeGroups {uu : Units} {zz s : State} (gs : List FlushGroup) (hk : Kept uu zz s)
    (hBay : uu.bay = true := by assumption) (hPmu : uu.pmu = true := by assumption)
    (hMoved : uu.moved = true := by assumption) (hOut : uu.out = true := by assumption) : Kept uu zz
    (State.writeGroups s gs) := by
  unfold State.writeGroups
  repeat' first
    | with_reducible assumption
    | exact {}
    | intro _
    | extract_lets +onlyGivenNames _
    | with_reducible apply Kept.writeChunk
    | with_reducible refine Kept.foldl ?_ _ ?_

theorem Kept.startFlush {uu : Units} {zz s : State} (hk : Kept uu zz s) (hHce : uu.hce = true := by assumption)
    (hRfu : uu.rfu = true := by assumption) (hRfx : uu.rfx = true := by assumption) (hBay : uu.bay = true := by assumption)
    (hXbr : uu.xbr = true := by assumption) (hPmu : uu.pmu = true := by assumption)
    (hMoved : uu.moved = true := by assumption) (hOut : uu.out = true := by assumption)
    (hFree : uu.free = true := by assumption) : Kept uu zz (State.startFlush s) := by
  unfold State.startFlush
  repeat' first
    | with_reducible assumption
    | exact {}
    | intro _
    | (extract_lets +onlyGivenNames x; first | refine Kept.cut x ?_ ?_ <;> [subst x; (clear_value x; intro _)] | skip)
    | with_reducible apply Kept.windTag
    | with_reducible apply Kept.updHce
    | with_reducible apply Kept.writeGroups
    | with_reducible apply Kept.laneWork
    | with_reducible refine Kept.foldl ?_ _ ?_
    | split

theorem Kept.restore {uu : Units} {zz s : State} (recalled : List MirBlock) (hk : Kept uu zz s)
    (hHce : uu.hce = true := by assumption) (hRge : uu.rge = true := by assumption) (hTk : uu.tk = true := by assumption)
    (hMoved : uu.moved = true := by assumption) : Kept uu zz (State.restore s recalled) := by
  unfold State.restore
  repeat' first
    | with_reducible assumption
    | exact {}
    | intro _
    | (extract_lets +onlyGivenNames x; first | refine Kept.cut x ?_ ?_ <;> [subst x; (clear_value x; intro _)] | skip)
    | with_reducible apply Kept.updRing
    | with_reducible apply Kept.updHce
    | with_reducible apply Kept.raiseFlag
    | with_reducible apply Kept.updTk
    | with_reducible refine Kept.foldl ?_ _ ?_
    | split

theorem Kept.rebooted {uu : Units} {zz s : State} (hk : Kept uu zz s) (hHce : uu.hce = true := by assumption)
    (hRfu : uu.rfu = true := by assumption) (hRge : uu.rge = true := by assumption) (hSnt : uu.snt = true := by assumption)
    (hRfx : uu.rfx = true := by assumption) (hTk : uu.tk = true := by assumption) (hVsm : uu.vsm = true := by assumption)
    (hKvt : uu.kvt = true := by assumption) (hMbx : uu.mbx = true := by assumption) (hBay : uu.bay = true := by assumption)
    (hProps : uu.props = true := by assumption) (hPpc : uu.ppc = true := by assumption)
    (hXbr : uu.xbr = true := by assumption) (hSep : uu.sep = true := by assumption) (hPwr : uu.pwr = true := by assumption)
    (hLcu : uu.lcu = true := by assumption) (hPmu : uu.pmu = true := by assumption) (hTst : uu.tst = true := by assumption)
    (hMac : uu.mac = true := by assumption) (hMoved : uu.moved = true := by assumption)
    (hCfg : uu.cfg = true := by assumption) : Kept uu zz (State.rebooted s) := by
  have key : ∀ (b : Bool) (t : State), Kept uu zz t → Kept uu zz (if b then t.raiseFlag Reg.rfxTkstat 10 else t) := by
    intro b t ht
    split
    · exact Kept.raiseFlag _ _ ht
    · exact ht
  refine key _ _ ?_
  exact
    { same := ⟨hk.same.now, hk.same.part, hk.same.slot, hk.same.uid, hk.same.smbAddr, hk.same.strapsOk, hk.same.macs⟩
      pending := hk.pending, out := hk.out, free := hk.free
      inv := fun i =>
        have j := hk.inv i
        { regs := regsWf_filter j.regs, absent := absentClear_filter j.absent, window := rfl, stage := rfl
          counts := ⟨(List.length_map _).trans j.counts.bays, rfl, rfl, rfl, rfl, rfl, rfl, rfl, rfl, rfl, rfl, rfl, rfl, rfl⟩
          oneEach := List.nodup_nil }
      only := hk.only.trans ⟨.inl hHce, .inl hRfu, .inl hRge, .inl hSnt, .inl hRfx, .inl hTk, .inl hVsm, .inl hKvt, .inl hMbx, .inl hBay, .inl hProps, .inl hPpc, .inl hXbr, .inl hSep, .inl hPwr, .inl hLcu, .inl hPmu, .inl hTst, .inl hMac, .inl hCfg, .inr rfl, .inr rfl⟩ }

theorem Kept.hbStop {uu : Units} {zz s : State} (hk : Kept uu zz s) (hTk : uu.tk = true := by assumption)
    (hOut : uu.out = true := by assumption) : Kept uu zz (State.hbStop s) := by
  unfold State.hbStop
  repeat' first
    | with_reducible assumption
    | exact {}
    | intro _
    | extract_lets +onlyGivenNames _
    | with_reducible apply Kept.updTk
    | with_reducible apply Kept.emit
    | split

theorem Kept.cutFlush {uu : Units} {zz s : State} (hk : Kept uu zz s) (hHce : uu.hce = true := by assumption)
    (hFree : uu.free = true := by assumption) : Kept uu zz (State.cutFlush s) := by
  unfold State.cutFlush
  repeat' first
    | with_reducible assumption
    | exact {}
    | intro _
    | extract_lets +onlyGivenNames _
    | with_reducible apply Kept.tookFree
    | with_reducible apply Kept.updHce
    | split

theorem Kept.powerDown {uu : Units} {zz s : State} (efuse : Bool) (hk : Kept uu zz s)
    (hHce : uu.hce = true := by assumption) (hRfu : uu.rfu = true := by assumption) (hRge : uu.rge = true := by assumption)
    (hSnt : uu.snt = true := by assumption) (hRfx : uu.rfx = true := by assumption) (hTk : uu.tk = true := by assumption)
    (hVsm : uu.vsm = true := by assumption) (hKvt : uu.kvt = true := by assumption) (hMbx : uu.mbx = true := by assumption)
    (hBay : uu.bay = true := by assumption) (hProps : uu.props = true := by assumption)
    (hPpc : uu.ppc = true := by assumption) (hXbr : uu.xbr = true := by assumption) (hSep : uu.sep = true := by assumption)
    (hPwr : uu.pwr = true := by assumption) (hLcu : uu.lcu = true := by assumption) (hPmu : uu.pmu = true := by assumption)
    (hTst : uu.tst = true := by assumption) (hMac : uu.mac = true := by assumption)
    (hMoved : uu.moved = true := by assumption) (hCfg : uu.cfg = true := by assumption)
    (hOut : uu.out = true := by assumption) (hFree : uu.free = true := by assumption) : Kept uu zz
    (State.powerDown s efuse) := by
  unfold State.powerDown
  repeat' first
    | with_reducible assumption
    | exact {}
    | intro _
    | (extract_lets +onlyGivenNames x; first | refine Kept.cut x ?_ ?_ <;> [subst x; (clear_value x; intro _)] | skip)
    | with_reducible apply Kept.updPwr
    | with_reducible apply Kept.hbStop
    | with_reducible apply Kept.cutFlush
    | with_reducible apply Kept.dropBays
    | with_reducible apply Kept.emit
    | with_reducible apply Kept.rebooted
    | split

theorem Kept.healthFail {uu : Units} {zz s : State} (hk : Kept uu zz s) (hHce : uu.hce = true := by assumption)
    (hRfu : uu.rfu = true := by assumption) (hRfx : uu.rfx = true := by assumption) (hTk : uu.tk = true := by assumption)
    (hBay : uu.bay = true := by assumption) (hXbr : uu.xbr = true := by assumption) (hPwr : uu.pwr = true := by assumption)
    (hPmu : uu.pmu = true := by assumption) (hMoved : uu.moved = true := by assumption)
    (hOut : uu.out = true := by assumption) (hFree : uu.free = true := by assumption) : Kept uu zz
    (State.healthFail s) := by
  unfold State.healthFail
  repeat' first
    | with_reducible assumption
    | exact {}
    | intro _
    | (extract_lets +onlyGivenNames x; first | refine Kept.cut x ?_ ?_ <;> [subst x; (clear_value x; intro _)] | skip)
    | with_reducible apply Kept.hbStop
    | with_reducible apply Kept.startFlush
    | with_reducible apply Kept.updPwr
    | with_reducible apply Kept.updTk
    | split

theorem Kept.bootFirmware {uu : Units} {zz s : State} (hk : Kept uu zz s) (hMbx : uu.mbx = true := by assumption)
    (hMoved : uu.moved = true := by assumption) : Kept uu zz (State.bootFirmware s) := by
  unfold State.bootFirmware
  repeat' first
    | with_reducible assumption
    | exact {}
    | intro _
    | extract_lets +onlyGivenNames _
    | with_reducible apply Kept.updMbx
    | with_reducible apply Kept.raiseFlag
    | fail_if_no_progress (dsimp only [State.updMbx])
    | split
    | (with_reducible apply Kept.update) <;> [assumption; exact {}]

theorem Kept.boot {uu : Units} {zz s : State} (recalled : List MirBlock) (hk : Kept uu zz s)
    (hHce : uu.hce = true := by assumption) (hRge : uu.rge = true := by assumption) (hSnt : uu.snt = true := by assumption)
    (hRfx : uu.rfx = true := by assumption) (hTk : uu.tk = true := by assumption) (hMbx : uu.mbx = true := by assumption)
    (hBay : uu.bay = true := by assumption) (hXbr : uu.xbr = true := by assumption) (hPmu : uu.pmu = true := by assumption)
    (hTst : uu.tst = true := by assumption) (hMoved : uu.moved = true := by assumption)
    (hOut : uu.out = true := by assumption) : Kept uu zz (State.boot s recalled) := by
  unfold State.boot
  repeat' first
    | with_reducible assumption
    | exact {}
    | intro _
    | (extract_lets +onlyGivenNames x; first | refine Kept.cut x ?_ ?_ <;> [subst x; (clear_value x; intro _)] | skip)
    | with_reducible apply Kept.updTk
    | with_reducible apply Kept.emit
    | with_reducible apply Kept.takeBays
    | with_reducible apply Kept.bootFirmware
    | with_reducible apply Kept.updMbx
    | with_reducible apply Kept.restore
    | with_reducible apply Kept.ringOnline
    | with_reducible apply Kept.recomputeCeil
    | fail_if_no_progress (dsimp only [State.updMbx])
    | with_reducible refine Kept.foldl ?_ _ ?_
    | split
    | (with_reducible apply Kept.update) <;> [assumption; exact {}]

theorem Kept.testBoot {uu : Units} {zz s : State} (t : Nat) (hold : Bool) (bist : List TestOutcome)
    (recalled : List MirBlock) (hk : Kept uu zz s) (hHce : uu.hce = true := by assumption)
    (hRge : uu.rge = true := by assumption) (hSnt : uu.snt = true := by assumption) (hRfx : uu.rfx = true := by assumption)
    (hTk : uu.tk = true := by assumption) (hMbx : uu.mbx = true := by assumption) (hBay : uu.bay = true := by assumption)
    (hXbr : uu.xbr = true := by assumption) (hPmu : uu.pmu = true := by assumption) (hTst : uu.tst = true := by assumption)
    (hMoved : uu.moved = true := by assumption) (hOut : uu.out = true := by assumption) : Kept uu zz
    (State.testBoot s t hold bist recalled) := by
  unfold State.testBoot
  repeat' first
    | with_reducible assumption
    | exact {}
    | intro _
    | (extract_lets +onlyGivenNames x; first | refine Kept.cut x ?_ ?_ <;> [subst x; (clear_value x; intro _)] | skip)
    | with_reducible apply Kept.putResult
    | with_reducible apply Kept.boot
    | with_reducible refine Kept.foldl ?_ _ ?_
    | split
    | (with_reducible apply Kept.update) <;> [assumption; exact {}]

theorem Kept.startCycles {uu : Units} {zz s : State} (hk : Kept uu zz s) (hPmu : uu.pmu = true := by assumption)
    : Kept uu zz (State.startCycles s) := by
  unfold State.startCycles
  repeat' first
    | with_reducible assumption
    | exact {}
    | intro _
    | extract_lets +onlyGivenNames _
    | split
    | (with_reducible apply Kept.update) <;> [assumption; exact {}]

theorem Kept.efuseTrip {uu : Units} {zz s : State} (code : Nat) (hk : Kept uu zz s) (hHce : uu.hce = true := by assumption)
    (hRfu : uu.rfu = true := by assumption) (hRge : uu.rge = true := by assumption) (hSnt : uu.snt = true := by assumption)
    (hRfx : uu.rfx = true := by assumption) (hTk : uu.tk = true := by assumption) (hVsm : uu.vsm = true := by assumption)
    (hKvt : uu.kvt = true := by assumption) (hMbx : uu.mbx = true := by assumption) (hBay : uu.bay = true := by assumption)
    (hProps : uu.props = true := by assumption) (hPpc : uu.ppc = true := by assumption)
    (hXbr : uu.xbr = true := by assumption) (hSep : uu.sep = true := by assumption) (hPwr : uu.pwr = true := by assumption)
    (hLcu : uu.lcu = true := by assumption) (hPmu : uu.pmu = true := by assumption) (hTst : uu.tst = true := by assumption)
    (hMac : uu.mac = true := by assumption) (hMoved : uu.moved = true := by assumption)
    (hCfg : uu.cfg = true := by assumption) (hOut : uu.out = true := by assumption)
    (hFree : uu.free = true := by assumption) : Kept uu zz (State.efuseTrip s code) := by
  unfold State.efuseTrip
  repeat' first
    | with_reducible assumption
    | exact {}
    | intro _
    | extract_lets +onlyGivenNames _
    | with_reducible apply Kept.raiseFlag
    | with_reducible apply Kept.powerDown
    | with_reducible apply Kept.updPwr
    | split

theorem Kept.clearOff {uu : Units} {zz s : State} (hk : Kept uu zz s) (hPwr : uu.pwr = true := by assumption) : Kept uu zz
    (State.clearOff s) := by
  unfold State.clearOff
  repeat' first
    | with_reducible assumption
    | exact {}
    | intro _
    | with_reducible apply Kept.updPwr

theorem Kept.beginRestart {uu : Units} {zz s : State} (mode : Nat) (test : Option (Nat × Bool)) (hk : Kept uu zz s)
    (hHce : uu.hce = true := by assumption) (hPwr : uu.pwr = true := by assumption) : Kept uu zz
    (State.beginRestart s mode test) := by
  unfold State.beginRestart
  repeat' first
    | with_reducible assumption
    | exact {}
    | intro _
    | extract_lets +onlyGivenNames _
    | with_reducible apply Kept.updHce
    | with_reducible apply Kept.updPwr

theorem Kept.restartDown {uu : Units} {zz s : State} (r : Restart) (hk : Kept uu zz s)
    (hHce : uu.hce = true := by assumption) (hRfu : uu.rfu = true := by assumption) (hRge : uu.rge = true := by assumption)
    (hSnt : uu.snt = true := by assumption) (hRfx : uu.rfx = true := by assumption) (hTk : uu.tk = true := by assumption)
    (hVsm : uu.vsm = true := by assumption) (hKvt : uu.kvt = true := by assumption) (hMbx : uu.mbx = true := by assumption)
    (hBay : uu.bay = true := by assumption) (hProps : uu.props = true := by assumption)
    (hPpc : uu.ppc = true := by assumption) (hXbr : uu.xbr = true := by assumption) (hSep : uu.sep = true := by assumption)
    (hPwr : uu.pwr = true := by assumption) (hLcu : uu.lcu = true := by assumption) (hPmu : uu.pmu = true := by assumption)
    (hTst : uu.tst = true := by assumption) (hMac : uu.mac = true := by assumption)
    (hMoved : uu.moved = true := by assumption) (hCfg : uu.cfg = true := by assumption)
    (hOut : uu.out = true := by assumption) (hFree : uu.free = true := by assumption) : Kept uu zz
    (State.restartDown s r) := by
  unfold State.restartDown
  repeat' first
    | with_reducible assumption
    | exact {}
    | intro _
    | extract_lets +onlyGivenNames _
    | with_reducible apply Kept.powerDown
    | with_reducible apply Kept.updPwr

/-! ## The commands -/

theorem KeptBy.domainWake {uu : Units} {zz s : State} (domain : Nat) (hk : Kept uu zz s)
    (hPwr : uu.pwr = true := by assumption) :
    KeptBy uu zz (execDomainWake domain s) := by
  unfold execDomainWake
  repeat' first
    | with_reducible assumption
    | exact {}
    | intro _
    | extract_lets +onlyGivenNames _
    | with_reducible refine KeptBy.next ?_
    | with_reducible apply Kept.wakeDom
    | split

theorem KeptBy.domainOn {uu : Units} {zz s : State} (domain : Nat) (ok : Bool) (hk : Kept uu zz s)
    (hKvt : uu.kvt = true := by assumption) (hPwr : uu.pwr = true := by assumption)
    (hMoved : uu.moved = true := by assumption) :
    KeptBy uu zz (execDomainOn domain ok s) := by
  unfold execDomainOn
  repeat' first
    | with_reducible assumption
    | exact {}
    | intro _
    | extract_lets +onlyGivenNames _
    | with_reducible refine KeptBy.next ?_
    | with_reducible apply Kept.updPwr
    | with_reducible apply Kept.updKvt
    | with_reducible apply Kept.bumpBy
    | fail_if_no_progress (dsimp only [State.updKvt])
    | split
    | (with_reducible apply Kept.update) <;> [assumption; exact {}]
    | refine Kept.ofPair (by assumption) ?_
    | refine Kept.ofPair' (by assumption) ?_
    | (with_reducible apply Kept.update) <;> [refine Kept.ofPair (by assumption) ?_; exact {}]
    | fail_if_no_progress ((with_reducible apply Kept.update) <;> [skip; exact {}])

theorem KeptBy.domainIdle {uu : Units} {zz s : State} (domain : Nat) (hk : Kept uu zz s)
    (hKvt : uu.kvt = true := by assumption) (hPwr : uu.pwr = true := by assumption) :
    KeptBy uu zz (execDomainIdle domain s) := by
  unfold execDomainIdle
  repeat' first
    | with_reducible assumption
    | exact {}
    | intro _
    | extract_lets +onlyGivenNames _
    | with_reducible refine KeptBy.next ?_
    | with_reducible apply Kept.updPwr
    | with_reducible apply Kept.domsOff
    | with_reducible apply Kept.updKvt
    | with_reducible apply Kept.shedStack
    | fail_if_no_progress (dsimp only [State.updKvt])
    | split
    | (with_reducible apply Kept.update) <;> [assumption; exact {}]
    | refine Kept.ofPair (by assumption) ?_
    | refine Kept.ofPair' (by assumption) ?_
    | (with_reducible apply Kept.update) <;> [refine Kept.ofPair (by assumption) ?_; exact {}]
    | fail_if_no_progress ((with_reducible apply Kept.update) <;> [skip; exact {}])

theorem KeptBy.powerStateEvaluation {uu : Units} {zz s : State} (window : LoadWindow) (hk : Kept uu zz s)
    (hHce : uu.hce = true := by assumption) (hRge : uu.rge = true := by assumption) (hRfx : uu.rfx = true := by assumption)
    (hTk : uu.tk = true := by assumption) (hVsm : uu.vsm = true := by assumption) (hKvt : uu.kvt = true := by assumption)
    (hMbx : uu.mbx = true := by assumption) (hBay : uu.bay = true := by assumption)
    (hProps : uu.props = true := by assumption) (hXbr : uu.xbr = true := by assumption)
    (hSep : uu.sep = true := by assumption) (hPwr : uu.pwr = true := by assumption) (hLcu : uu.lcu = true := by assumption)
    (hPmu : uu.pmu = true := by assumption) (hTst : uu.tst = true := by assumption) (hMac : uu.mac = true := by assumption)
    (hMoved : uu.moved = true := by assumption) (hOut : uu.out = true := by assumption) :
    KeptBy uu zz (execPowerStateEvaluation window s) := by
  unfold execPowerStateEvaluation
  repeat' first
    | with_reducible assumption
    | exact {}
    | intro _
    | (extract_lets +onlyGivenNames x; first | refine Kept.cut x ?_ ?_ <;> [subst x; (clear_value x; intro _)] | refine KeptBy.cut x ?_ ?_ <;> [subst x; (clear_value x; intro _)] | skip)
    | with_reducible refine KeptBy.next ?_
    | with_reducible apply Kept.updPwr
    | with_reducible apply Kept.wakeActive
    | with_reducible apply Kept.enterLull
    | with_reducible apply Kept.enterDoze
    | with_reducible apply Kept.leaveDoze
    | split

theorem KeptBy.flushEnd {uu : Units} {zz s : State} (hk : Kept uu zz s) (hHce : uu.hce = true := by assumption)
    (hRfu : uu.rfu = true := by assumption) (hRge : uu.rge = true := by assumption) (hSnt : uu.snt = true := by assumption)
    (hRfx : uu.rfx = true := by assumption) (hTk : uu.tk = true := by assumption) (hVsm : uu.vsm = true := by assumption)
    (hKvt : uu.kvt = true := by assumption) (hMbx : uu.mbx = true := by assumption) (hBay : uu.bay = true := by assumption)
    (hProps : uu.props = true := by assumption) (hPpc : uu.ppc = true := by assumption)
    (hXbr : uu.xbr = true := by assumption) (hSep : uu.sep = true := by assumption) (hPwr : uu.pwr = true := by assumption)
    (hLcu : uu.lcu = true := by assumption) (hPmu : uu.pmu = true := by assumption) (hTst : uu.tst = true := by assumption)
    (hMac : uu.mac = true := by assumption) (hMoved : uu.moved = true := by assumption)
    (hCfg : uu.cfg = true := by assumption) (hOut : uu.out = true := by assumption)
    (hFree : uu.free = true := by assumption) :
    KeptBy uu zz (execFlushEnd s) := by
  unfold execFlushEnd
  repeat' first
    | with_reducible assumption
    | exact {}
    | intro _
    | extract_lets +onlyGivenNames _
    | with_reducible refine KeptBy.next ?_
    | with_reducible apply Kept.updHce
    | with_reducible apply Kept.powerDown
    | split

theorem KeptBy.powerFailTrip {uu : Units} {zz s : State} (hk : Kept uu zz s) (hHce : uu.hce = true := by assumption)
    (hRfu : uu.rfu = true := by assumption) (hRfx : uu.rfx = true := by assumption) (hBay : uu.bay = true := by assumption)
    (hXbr : uu.xbr = true := by assumption) (hPwr : uu.pwr = true := by assumption) (hPmu : uu.pmu = true := by assumption)
    (hMoved : uu.moved = true := by assumption) (hOut : uu.out = true := by assumption)
    (hFree : uu.free = true := by assumption) :
    KeptBy uu zz (execPowerFailTrip s) := by
  unfold execPowerFailTrip
  repeat' first
    | with_reducible assumption
    | exact {}
    | intro _
    | (extract_lets +onlyGivenNames x; first | refine Kept.cut x ?_ ?_ <;> [subst x; (clear_value x; intro _)] | refine KeptBy.cut x ?_ ?_ <;> [subst x; (clear_value x; intro _)] | skip)
    | with_reducible refine KeptBy.next ?_
    | with_reducible apply Kept.raiseFlag
    | with_reducible apply Kept.updPwr
    | with_reducible apply Kept.wakeAll
    | with_reducible apply Kept.startFlush
    | split

theorem KeptBy.healthCheck {uu : Units} {zz s : State} (coresOk : Bool) (crossbarOk : Bool) (hk : Kept uu zz s)
    (hHce : uu.hce = true := by assumption) (hRfu : uu.rfu = true := by assumption) (hRfx : uu.rfx = true := by assumption)
    (hTk : uu.tk = true := by assumption) (hBay : uu.bay = true := by assumption) (hXbr : uu.xbr = true := by assumption)
    (hPwr : uu.pwr = true := by assumption) (hPmu : uu.pmu = true := by assumption)
    (hMoved : uu.moved = true := by assumption) (hOut : uu.out = true := by assumption)
    (hFree : uu.free = true := by assumption) :
    KeptBy uu zz (execHealthCheck coresOk crossbarOk s) := by
  unfold execHealthCheck
  repeat' first
    | with_reducible assumption
    | exact {}
    | intro _
    | extract_lets +onlyGivenNames _
    | with_reducible refine KeptBy.next ?_
    | with_reducible apply Kept.boot
    | with_reducible apply Kept.updTk
    | with_reducible apply Kept.emit
    | with_reducible apply Kept.healthFail
    | split

theorem KeptBy.retentionCheck {uu : Units} {zz s : State} (ok : Bool) (hk : Kept uu zz s)
    (hHce : uu.hce = true := by assumption) (hRfu : uu.rfu = true := by assumption) (hRfx : uu.rfx = true := by assumption)
    (hTk : uu.tk = true := by assumption) (hBay : uu.bay = true := by assumption) (hXbr : uu.xbr = true := by assumption)
    (hPwr : uu.pwr = true := by assumption) (hPmu : uu.pmu = true := by assumption)
    (hMoved : uu.moved = true := by assumption) (hOut : uu.out = true := by assumption)
    (hFree : uu.free = true := by assumption) :
    KeptBy uu zz (execRetentionCheck ok s) := by
  unfold execRetentionCheck
  repeat' first
    | with_reducible assumption
    | exact {}
    | intro _
    | extract_lets +onlyGivenNames _
    | with_reducible refine KeptBy.next ?_
    | with_reducible apply Kept.updPwr
    | with_reducible apply Kept.healthFail
    | split
    | (with_reducible apply Kept.update) <;> [assumption; exact {}]
    | refine Kept.ofPair (by assumption) ?_
    | refine Kept.ofPair' (by assumption) ?_
    | (with_reducible apply Kept.update) <;> [refine Kept.ofPair (by assumption) ?_; exact {}]
    | fail_if_no_progress ((with_reducible apply Kept.update) <;> [skip; exact {}])
    | dsimp +zetaDelta only

theorem KeptBy.powerUp {uu : Units} {zz s : State} (recalled : List MirBlock) (bist : List TestOutcome) (hk : Kept uu zz s)
    (hHce : uu.hce = true := by assumption) (hRge : uu.rge = true := by assumption) (hSnt : uu.snt = true := by assumption)
    (hRfx : uu.rfx = true := by assumption) (hTk : uu.tk = true := by assumption) (hKvt : uu.kvt = true := by assumption)
    (hMbx : uu.mbx = true := by assumption) (hBay : uu.bay = true := by assumption) (hXbr : uu.xbr = true := by assumption)
    (hPwr : uu.pwr = true := by assumption) (hPmu : uu.pmu = true := by assumption) (hTst : uu.tst = true := by assumption)
    (hMac : uu.mac = true := by assumption) (hMoved : uu.moved = true := by assumption)
    (hOut : uu.out = true := by assumption) :
    KeptBy uu zz (execPowerUp recalled bist s) := by
  unfold execPowerUp
  repeat' first
    | with_reducible assumption
    | exact {}
    | intro _
    | (extract_lets +onlyGivenNames x; first | refine Kept.cut x ?_ ?_ <;> [subst x; (clear_value x; intro _)] | refine KeptBy.cut x ?_ ?_ <;> [subst x; (clear_value x; intro _)] | skip)
    | with_reducible refine KeptBy.next ?_
    | with_reducible apply Kept.updPwr
    | with_reducible apply Kept.startCycles
    | with_reducible apply Kept.updMac
    | with_reducible apply Kept.updKvt
    | with_reducible apply Kept.testBoot
    | with_reducible apply Kept.boot
    | fail_if_no_progress (dsimp only [State.updKvt])
    | split
    | (with_reducible apply Kept.update) <;> [assumption; exact {}]

theorem KeptBy.efuseCurrentLimit {uu : Units} {zz s : State} (hk : Kept uu zz s) (hHce : uu.hce = true := by assumption)
    (hRfu : uu.rfu = true := by assumption) (hRge : uu.rge = true := by assumption) (hSnt : uu.snt = true := by assumption)
    (hRfx : uu.rfx = true := by assumption) (hTk : uu.tk = true := by assumption) (hVsm : uu.vsm = true := by assumption)
    (hKvt : uu.kvt = true := by assumption) (hMbx : uu.mbx = true := by assumption) (hBay : uu.bay = true := by assumption)
    (hProps : uu.props = true := by assumption) (hPpc : uu.ppc = true := by assumption)
    (hXbr : uu.xbr = true := by assumption) (hSep : uu.sep = true := by assumption) (hPwr : uu.pwr = true := by assumption)
    (hLcu : uu.lcu = true := by assumption) (hPmu : uu.pmu = true := by assumption) (hTst : uu.tst = true := by assumption)
    (hMac : uu.mac = true := by assumption) (hMoved : uu.moved = true := by assumption)
    (hCfg : uu.cfg = true := by assumption) (hOut : uu.out = true := by assumption)
    (hFree : uu.free = true := by assumption) :
    KeptBy uu zz (execEfuseCurrentLimit s) := by
  unfold execEfuseCurrentLimit
  repeat' first
    | with_reducible assumption
    | exact {}
    | intro _
    | extract_lets +onlyGivenNames _
    | with_reducible refine KeptBy.next ?_
    | with_reducible apply Kept.efuseTrip

theorem KeptBy.efuseFastTrip {uu : Units} {zz s : State} (hk : Kept uu zz s) (hHce : uu.hce = true := by assumption)
    (hRfu : uu.rfu = true := by assumption) (hRge : uu.rge = true := by assumption) (hSnt : uu.snt = true := by assumption)
    (hRfx : uu.rfx = true := by assumption) (hTk : uu.tk = true := by assumption) (hVsm : uu.vsm = true := by assumption)
    (hKvt : uu.kvt = true := by assumption) (hMbx : uu.mbx = true := by assumption) (hBay : uu.bay = true := by assumption)
    (hProps : uu.props = true := by assumption) (hPpc : uu.ppc = true := by assumption)
    (hXbr : uu.xbr = true := by assumption) (hSep : uu.sep = true := by assumption) (hPwr : uu.pwr = true := by assumption)
    (hLcu : uu.lcu = true := by assumption) (hPmu : uu.pmu = true := by assumption) (hTst : uu.tst = true := by assumption)
    (hMac : uu.mac = true := by assumption) (hMoved : uu.moved = true := by assumption)
    (hCfg : uu.cfg = true := by assumption) (hOut : uu.out = true := by assumption)
    (hFree : uu.free = true := by assumption) :
    KeptBy uu zz (execEfuseFastTrip s) := by
  unfold execEfuseFastTrip
  repeat' first
    | with_reducible assumption
    | exact {}
    | intro _
    | extract_lets +onlyGivenNames _
    | with_reducible refine KeptBy.next ?_
    | with_reducible apply Kept.efuseTrip

theorem KeptBy.efuseRetry {uu : Units} {zz s : State} (hk : Kept uu zz s) (hPwr : uu.pwr = true := by assumption) :
    KeptBy uu zz (execEfuseRetry s) := by
  unfold execEfuseRetry
  repeat' first
    | with_reducible assumption
    | exact {}
    | intro _
    | extract_lets +onlyGivenNames _
    | with_reducible refine KeptBy.next ?_
    | with_reducible apply Kept.updPwr
    | split

theorem KeptBy.efuseFaultClear {uu : Units} {zz s : State} (hk : Kept uu zz s) (hPwr : uu.pwr = true := by assumption) :
    KeptBy uu zz (execEfuseFaultClear s) := by
  unfold execEfuseFaultClear
  repeat' first
    | with_reducible assumption
    | exact {}
    | intro _
    | extract_lets +onlyGivenNames _
    | with_reducible refine KeptBy.next ?_
    | with_reducible apply Kept.updPwr

theorem KeptBy.vinCutoff {uu : Units} {zz s : State} (hk : Kept uu zz s) (hHce : uu.hce = true := by assumption)
    (hRfu : uu.rfu = true := by assumption) (hRge : uu.rge = true := by assumption) (hSnt : uu.snt = true := by assumption)
    (hRfx : uu.rfx = true := by assumption) (hTk : uu.tk = true := by assumption) (hVsm : uu.vsm = true := by assumption)
    (hKvt : uu.kvt = true := by assumption) (hMbx : uu.mbx = true := by assumption) (hBay : uu.bay = true := by assumption)
    (hProps : uu.props = true := by assumption) (hPpc : uu.ppc = true := by assumption)
    (hXbr : uu.xbr = true := by assumption) (hSep : uu.sep = true := by assumption) (hPwr : uu.pwr = true := by assumption)
    (hLcu : uu.lcu = true := by assumption) (hPmu : uu.pmu = true := by assumption) (hTst : uu.tst = true := by assumption)
    (hMac : uu.mac = true := by assumption) (hMoved : uu.moved = true := by assumption)
    (hCfg : uu.cfg = true := by assumption) (hOut : uu.out = true := by assumption)
    (hFree : uu.free = true := by assumption) :
    KeptBy uu zz (execVinCutoff s) := by
  unfold execVinCutoff
  repeat' first
    | with_reducible assumption
    | exact {}
    | intro _
    | (extract_lets +onlyGivenNames x; first | refine Kept.cut x ?_ ?_ <;> [subst x; (clear_value x; intro _)] | refine KeptBy.cut x ?_ ?_ <;> [subst x; (clear_value x; intro _)] | skip)
    | with_reducible refine KeptBy.next ?_
    | with_reducible apply Kept.powerDown
    | with_reducible apply Kept.updPwr
    | split

theorem KeptBy.vinOvervoltage {uu : Units} {zz s : State} (hk : Kept uu zz s) (hMoved : uu.moved = true := by assumption) :
    KeptBy uu zz (execVinOvervoltage s) := by
  unfold execVinOvervoltage
  repeat' first
    | with_reducible assumption
    | exact {}
    | intro _
    | extract_lets +onlyGivenNames _
    | with_reducible refine KeptBy.next ?_
    | with_reducible apply Kept.raiseFlag

theorem KeptBy.railFault {uu : Units} {zz s : State} (rail : Rail) (hk : Kept uu zz s)
    (hHce : uu.hce = true := by assumption) (hRfu : uu.rfu = true := by assumption) (hRge : uu.rge = true := by assumption)
    (hSnt : uu.snt = true := by assumption) (hRfx : uu.rfx = true := by assumption) (hTk : uu.tk = true := by assumption)
    (hVsm : uu.vsm = true := by assumption) (hKvt : uu.kvt = true := by assumption) (hMbx : uu.mbx = true := by assumption)
    (hBay : uu.bay = true := by assumption) (hProps : uu.props = true := by assumption)
    (hPpc : uu.ppc = true := by assumption) (hXbr : uu.xbr = true := by assumption) (hSep : uu.sep = true := by assumption)
    (hPwr : uu.pwr = true := by assumption) (hLcu : uu.lcu = true := by assumption) (hPmu : uu.pmu = true := by assumption)
    (hTst : uu.tst = true := by assumption) (hMac : uu.mac = true := by assumption)
    (hMoved : uu.moved = true := by assumption) (hCfg : uu.cfg = true := by assumption)
    (hOut : uu.out = true := by assumption) (hFree : uu.free = true := by assumption) :
    KeptBy uu zz (execRailFault rail s) := by
  unfold execRailFault
  repeat' first
    | with_reducible assumption
    | exact {}
    | intro _
    | (extract_lets +onlyGivenNames x; first | refine Kept.cut x ?_ ?_ <;> [subst x; (clear_value x; intro _)] | refine KeptBy.cut x ?_ ?_ <;> [subst x; (clear_value x; intro _)] | skip)
    | with_reducible refine KeptBy.next ?_
    | with_reducible apply Kept.zeroise
    | with_reducible apply Kept.raiseFlag
    | with_reducible apply Kept.powerDown
    | with_reducible apply Kept.updPwr
    | split

theorem KeptBy.aonFeedLoss {uu : Units} {zz s : State} (hk : Kept uu zz s) (hMoved : uu.moved = true := by assumption) :
    KeptBy uu zz (execAonFeedLoss s) := by
  unfold execAonFeedLoss
  repeat' first
    | with_reducible assumption
    | exact {}
    | intro _
    | extract_lets +onlyGivenNames _
    | with_reducible refine KeptBy.next ?_
    | with_reducible apply Kept.raiseFlag

theorem KeptBy.referenceLoss {uu : Units} {zz s : State} (hk : Kept uu zz s) (hPwr : uu.pwr = true := by assumption)
    (hMoved : uu.moved = true := by assumption) :
    KeptBy uu zz (execReferenceLoss s) := by
  unfold execReferenceLoss
  repeat' first
    | with_reducible assumption
    | exact {}
    | intro _
    | extract_lets +onlyGivenNames _
    | with_reducible refine KeptBy.next ?_
    | with_reducible apply Kept.raiseFlag
    | with_reducible apply Kept.updPwr

theorem KeptBy.referenceRestored {uu : Units} {zz s : State} (hk : Kept uu zz s) (hPwr : uu.pwr = true := by assumption) :
    KeptBy uu zz (execReferenceRestored s) := by
  unfold execReferenceRestored
  repeat' first
    | with_reducible assumption
    | exact {}
    | intro _
    | extract_lets +onlyGivenNames _
    | with_reducible refine KeptBy.next ?_
    | with_reducible apply Kept.updPwr

theorem KeptBy.supervisorTrim {uu : Units} {zz s : State} (hk : Kept uu zz s) (hPwr : uu.pwr = true := by assumption) :
    KeptBy uu zz (execSupervisorTrim s) := by
  unfold execSupervisorTrim
  repeat' first
    | with_reducible assumption
    | exact {}
    | intro _
    | extract_lets +onlyGivenNames _
    | with_reducible refine KeptBy.next ?_
    | with_reducible apply Kept.updPwr

theorem KeptBy.modRestart {uu : Units} {zz s : State} (m : Master) (hk : Kept uu zz s)
    (hHce : uu.hce = true := by assumption) (hRfu : uu.rfu = true := by assumption) (hRge : uu.rge = true := by assumption)
    (hSnt : uu.snt = true := by assumption) (hRfx : uu.rfx = true := by assumption) (hTk : uu.tk = true := by assumption)
    (hVsm : uu.vsm = true := by assumption) (hKvt : uu.kvt = true := by assumption) (hMbx : uu.mbx = true := by assumption)
    (hBay : uu.bay = true := by assumption) (hProps : uu.props = true := by assumption)
    (hPpc : uu.ppc = true := by assumption) (hXbr : uu.xbr = true := by assumption) (hSep : uu.sep = true := by assumption)
    (hPwr : uu.pwr = true := by assumption) (hLcu : uu.lcu = true := by assumption) (hPmu : uu.pmu = true := by assumption)
    (hTst : uu.tst = true := by assumption) (hMac : uu.mac = true := by assumption)
    (hMoved : uu.moved = true := by assumption) (hCfg : uu.cfg = true := by assumption)
    (hOut : uu.out = true := by assumption) (hFree : uu.free = true := by assumption) :
    KeptBy uu zz (execModRestart m s) := by
  unfold execModRestart
  repeat' first
    | with_reducible assumption
    | exact {}
    | intro _
    | (extract_lets +onlyGivenNames x; first | refine Kept.cut x ?_ ?_ <;> [subst x; (clear_value x; intro _)] | refine KeptBy.cut x ?_ ?_ <;> [subst x; (clear_value x; intro _)] | skip)
    | with_reducible refine KeptBy.next ?_
    | with_reducible apply Kept.runCmd
    | with_reducible apply Kept.boot
    | with_reducible apply Kept.tookFree
    | with_reducible apply Kept.checked
    | with_reducible apply Kept.finish
    | with_reducible apply Kept.beginRestart
    | with_reducible apply Kept.powerDown
    | with_reducible apply Kept.updPwr
    | with_reducible apply Kept.clearOff
    | split

theorem KeptBy.restartDrainComplete {uu : Units} {zz s : State} (hk : Kept uu zz s) (hHce : uu.hce = true := by assumption)
    (hRfu : uu.rfu = true := by assumption) (hRge : uu.rge = true := by assumption) (hSnt : uu.snt = true := by assumption)
    (hRfx : uu.rfx = true := by assumption) (hTk : uu.tk = true := by assumption) (hVsm : uu.vsm = true := by assumption)
    (hKvt : uu.kvt = true := by assumption) (hMbx : uu.mbx = true := by assumption) (hBay : uu.bay = true := by assumption)
    (hProps : uu.props = true := by assumption) (hPpc : uu.ppc = true := by assumption)
    (hXbr : uu.xbr = true := by assumption) (hSep : uu.sep = true := by assumption) (hPwr : uu.pwr = true := by assumption)
    (hLcu : uu.lcu = true := by assumption) (hPmu : uu.pmu = true := by assumption) (hTst : uu.tst = true := by assumption)
    (hMac : uu.mac = true := by assumption) (hMoved : uu.moved = true := by assumption)
    (hCfg : uu.cfg = true := by assumption) (hOut : uu.out = true := by assumption)
    (hFree : uu.free = true := by assumption) :
    KeptBy uu zz (execRestartDrainComplete s) := by
  unfold execRestartDrainComplete
  repeat' first
    | with_reducible assumption
    | exact {}
    | intro _
    | (extract_lets +onlyGivenNames x; first | refine Kept.cut x ?_ ?_ <;> [subst x; (clear_value x; intro _)] | refine KeptBy.cut x ?_ ?_ <;> [subst x; (clear_value x; intro _)] | skip)
    | with_reducible refine KeptBy.next ?_
    | with_reducible apply Kept.updPwr
    | with_reducible apply Kept.hbStop
    | with_reducible apply Kept.cleanCheckpoints
    | with_reducible apply Kept.closeConn
    | with_reducible apply Kept.restartDown
    | with_reducible refine Kept.foldl ?_ _ ?_
    | split

theorem KeptBy.thermalTrip {uu : Units} {zz s : State} (hk : Kept uu zz s) (hHce : uu.hce = true := by assumption)
    (hRfu : uu.rfu = true := by assumption) (hRfx : uu.rfx = true := by assumption) (hTk : uu.tk = true := by assumption)
    (hBay : uu.bay = true := by assumption) (hXbr : uu.xbr = true := by assumption) (hPwr : uu.pwr = true := by assumption)
    (hPmu : uu.pmu = true := by assumption) (hMoved : uu.moved = true := by assumption)
    (hOut : uu.out = true := by assumption) (hFree : uu.free = true := by assumption) :
    KeptBy uu zz (execThermalTrip s) := by
  unfold execThermalTrip
  repeat' first
    | with_reducible assumption
    | exact {}
    | intro _
    | (extract_lets +onlyGivenNames x; first | refine Kept.cut x ?_ ?_ <;> [subst x; (clear_value x; intro _)] | refine KeptBy.cut x ?_ ?_ <;> [subst x; (clear_value x; intro _)] | skip)
    | with_reducible refine KeptBy.next ?_
    | with_reducible apply Kept.updPwr
    | with_reducible apply Kept.hbStop
    | with_reducible apply Kept.startFlush
    | split

theorem KeptBy.pwrPolicy {uu : Units} {zz s : State} (m : Master) (hk : Kept uu zz s)
    (hHce : uu.hce = true := by assumption) (hRge : uu.rge = true := by assumption) (hRfx : uu.rfx = true := by assumption)
    (hTk : uu.tk = true := by assumption) (hVsm : uu.vsm = true := by assumption) (hKvt : uu.kvt = true := by assumption)
    (hMbx : uu.mbx = true := by assumption) (hBay : uu.bay = true := by assumption)
    (hProps : uu.props = true := by assumption) (hXbr : uu.xbr = true := by assumption)
    (hSep : uu.sep = true := by assumption) (hPwr : uu.pwr = true := by assumption) (hLcu : uu.lcu = true := by assumption)
    (hPmu : uu.pmu = true := by assumption) (hTst : uu.tst = true := by assumption)
    (hMoved : uu.moved = true := by assumption) (hCfg : uu.cfg = true := by assumption)
    (hOut : uu.out = true := by assumption) :
    KeptBy uu zz (execPwrPolicy m s) := by
  unfold execPwrPolicy
  repeat' first
    | with_reducible assumption
    | exact {}
    | intro _
    | extract_lets +onlyGivenNames _
    | with_reducible refine KeptBy.next ?_
    | with_reducible apply Kept.runCmd
    | with_reducible apply Kept.finish
    | with_reducible apply Kept.putReg
    | with_reducible apply Kept.applyPolicy
    | split

theorem KeptBy.pwrQuery {uu : Units} {zz s : State} (m : Master) (hk : Kept uu zz s) (hMbx : uu.mbx = true := by assumption)
    (hMoved : uu.moved = true := by assumption) (hOut : uu.out = true := by assumption)
    (hFree : uu.free = true := by assumption) :
    KeptBy uu zz (execPwrQuery m s) := by
  unfold execPwrQuery
  repeat' first
    | with_reducible assumption
    | exact {}
    | intro _
    | extract_lets +onlyGivenNames _
    | with_reducible refine KeptBy.next ?_
    | with_reducible apply Kept.runCmd
    | with_reducible apply Kept.finish
    | with_reducible apply Kept.freeBy

end Sys2Proof.Machine
end

