-- ==== Sys2Proof/Laws/KeptTakeover.lean ====
section
/-! SUPPORT. `Kept` for the operations of Machine/Takeover.lean. -/

set_option Elab.async false

namespace Sys2Proof.Machine

theorem Kept.takeConfig {uu : Units} {zz s : State} (st : PeerStore) (hk : Kept uu zz s)
    (hHce : uu.hce = true := by assumption) (hRfu : uu.rfu = true := by assumption) (hRfx : uu.rfx = true := by assumption)
    (hVsm : uu.vsm = true := by assumption) (hKvt : uu.kvt = true := by assumption) (hXbr : uu.xbr = true := by assumption)
    (hPmu : uu.pmu = true := by assumption) (hMoved : uu.moved = true := by assumption)
    (hOut : uu.out = true := by assumption) : Kept uu zz (State.takeConfig s st) := by
  unfold State.takeConfig
  repeat' first
    | with_reducible assumption
    | exact {}
    | intro _
    | (extract_lets +onlyGivenNames x; first | refine Kept.cut x ?_ ?_ <;> [subst x; (clear_value x; intro _)] | skip)
    | with_reducible apply Kept.forgetHosts
    | with_reducible apply Kept.updVsm
    | with_reducible refine Kept.foldl ?_ _ ?_

theorem Kept.takeStoredKey {uu : Units} {zz s : State} (p : Propagation) (hk : Kept uu zz s)
    (hRfx : uu.rfx = true := by assumption) (hKvt : uu.kvt = true := by assumption) (hXbr : uu.xbr = true := by assumption)
    (hPmu : uu.pmu = true := by assumption) (hMoved : uu.moved = true := by assumption)
    (hOut : uu.out = true := by assumption) : Kept uu zz (State.takeStoredKey s p) := by
  unfold State.takeStoredKey
  repeat' first
    | with_reducible assumption
    | exact {}
    | intro _
    | extract_lets +onlyGivenNames _
    | with_reducible apply Kept.updKvt
    | with_reducible apply Kept.fillSlot
    | fail_if_no_progress (dsimp only [State.updKvt])
    | split
    | (with_reducible apply Kept.update) <;> [assumption; exact {}]

theorem Kept.takeKeys {uu : Units} {zz s : State} (st : PeerStore) (hk : Kept uu zz s)
    (hRfx : uu.rfx = true := by assumption) (hKvt : uu.kvt = true := by assumption) (hXbr : uu.xbr = true := by assumption)
    (hPmu : uu.pmu = true := by assumption) (hMoved : uu.moved = true := by assumption)
    (hOut : uu.out = true := by assumption) : Kept uu zz (State.takeKeys s st) := by
  unfold State.takeKeys
  repeat' first
    | with_reducible assumption
    | exact {}
    | intro _
    | (extract_lets +onlyGivenNames x; first | refine Kept.cut x ?_ ?_ <;> [subst x; (clear_value x; intro _)] | skip)
    | with_reducible apply Kept.updKvt
    | with_reducible apply Kept.takeStoredKey
    | with_reducible apply Kept.vaultSettle
    | with_reducible refine Kept.foldl ?_ _ ?_

theorem Kept.reconcile {uu : Units} {zz s : State} (store : Option PeerStore) (hk : Kept uu zz s)
    (hHce : uu.hce = true := by assumption) (hRfu : uu.rfu = true := by assumption) (hRfx : uu.rfx = true := by assumption)
    (hVsm : uu.vsm = true := by assumption) (hKvt : uu.kvt = true := by assumption) (hXbr : uu.xbr = true := by assumption)
    (hPmu : uu.pmu = true := by assumption) (hMoved : uu.moved = true := by assumption)
    (hOut : uu.out = true := by assumption) : Kept uu zz (State.reconcile s store) := by
  unfold State.reconcile
  repeat' first
    | with_reducible assumption
    | exact {}
    | intro _
    | (extract_lets +onlyGivenNames x; first | refine Kept.cut x ?_ ?_ <;> [subst x; (clear_value x; intro _)] | skip)
    | with_reducible apply Kept.emit
    | with_reducible apply Kept.takeConfig
    | with_reducible apply Kept.raiseFlag
    | with_reducible apply Kept.takeKeys
    | split

theorem Kept.applyBlocks {uu : Units} {zz s : State} (es : List MirBlock) (join : Bool) (held : Bool) (hk : Kept uu zz s)
    (hHce : uu.hce = true := by assumption) (hPwr : uu.pwr = true := by assumption) : Kept uu zz
    (State.applyBlocks s es join held) := by
  unfold State.applyBlocks
  repeat' first
    | with_reducible assumption
    | exact {}
    | intro _
    | extract_lets +onlyGivenNames _
    | with_reducible apply Kept.updHce
    | with_reducible apply Kept.wakeStacks
    | with_reducible apply Kept.cacheDrop

theorem Kept.dropForwarded {uu : Units} {zz s : State} (f : MirFree) (hk : Kept uu zz s)
    (hRfx : uu.rfx = true := by assumption) (hXbr : uu.xbr = true := by assumption) (hPmu : uu.pmu = true := by assumption)
    (hMoved : uu.moved = true := by assumption) (hOut : uu.out = true := by assumption) : Kept uu zz
    (State.dropForwarded s f) := by
  unfold State.dropForwarded
  repeat' first
    | with_reducible assumption
    | exact {}
    | intro _
    | extract_lets +onlyGivenNames _
    | with_reducible apply Kept.mirSend2
    | with_reducible apply Kept.reMirror

theorem Kept.applyFree {uu : Units} {zz s : State} (f : MirFree) (hk : Kept uu zz s) (hHce : uu.hce = true := by assumption)
    (hRfx : uu.rfx = true := by assumption) (hXbr : uu.xbr = true := by assumption) (hPmu : uu.pmu = true := by assumption)
    (hMoved : uu.moved = true := by assumption) (hOut : uu.out = true := by assumption) : Kept uu zz
    (State.applyFree s f) := by
  unfold State.applyFree
  repeat' first
    | with_reducible assumption
    | exact {}
    | intro _
    | (extract_lets +onlyGivenNames x; first | refine Kept.cut x ?_ ?_ <;> [subst x; (clear_value x; intro _)] | skip)
    | with_reducible apply Kept.freeEntries
    | with_reducible apply Kept.cacheDrop
    | with_reducible apply Kept.dropForwarded
    | with_reducible apply Kept.updHce
    | split

theorem Kept.applyLine {uu : Units} {zz s : State} (e : Nat × Nat × List Byte) (hk : Kept uu zz s)
    (hHce : uu.hce = true := by assumption) (hRfu : uu.rfu = true := by assumption) (hRge : uu.rge = true := by assumption)
    (hSnt : uu.snt = true := by assumption) (hRfx : uu.rfx = true := by assumption) (hVsm : uu.vsm = true := by assumption)
    (hKvt : uu.kvt = true := by assumption) (hMbx : uu.mbx = true := by assumption) (hXbr : uu.xbr = true := by assumption)
    (hPmu : uu.pmu = true := by assumption) (hMoved : uu.moved = true := by assumption)
    (hOut : uu.out = true := by assumption) (hFree : uu.free = true := by assumption) : Kept uu zz
    (State.applyLine s e) := by
  unfold State.applyLine
  repeat' first
    | with_reducible assumption
    | exact {}
    | intro _
    | (extract_lets +onlyGivenNames x; first | refine Kept.cut x ?_ ?_ <;> [subst x; (clear_value x; intro _)] | skip)
    | with_reducible apply Kept.peerProgress
    | with_reducible apply Kept.updKey
    | with_reducible apply Kept.updRing
    | with_reducible apply Kept.dropLost
    | with_reducible apply Kept.adminAll
    | with_reducible refine Kept.foldl ?_ _ ?_
    | split
    | (with_reducible apply Kept.update) <;> [assumption; exact {}]

theorem Kept.applyRing {uu : Units} {zz s : State} (v : RingShare) (hk : Kept uu zz s)
    (hHce : uu.hce = true := by assumption) (hRfu : uu.rfu = true := by assumption) (hRge : uu.rge = true := by assumption)
    (hRfx : uu.rfx = true := by assumption) (hKvt : uu.kvt = true := by assumption) (hBay : uu.bay = true := by assumption)
    (hXbr : uu.xbr = true := by assumption) (hPwr : uu.pwr = true := by assumption) (hPmu : uu.pmu = true := by assumption)
    (hMoved : uu.moved = true := by assumption) (hOut : uu.out = true := by assumption)
    (hFree : uu.free = true := by assumption) : Kept uu zz (State.applyRing s v) := by
  unfold State.applyRing
  repeat' first
    | with_reducible assumption
    | exact {}
    | intro _
    | extract_lets +onlyGivenNames _
    | with_reducible apply Kept.updRge
    | with_reducible apply Kept.recomputeCeil
    | with_reducible apply Kept.ringOnline
    | with_reducible apply Kept.updRing
    | with_reducible apply Kept.reask
    | split

theorem Kept.applyRecord {uu : Units} {zz s : State} (r : CmdRecord) (hk : Kept uu zz s)
    (hRfx : uu.rfx = true := by assumption) : Kept uu zz (State.applyRecord s r) := by
  unfold State.applyRecord
  repeat' first
    | with_reducible assumption
    | exact {}
    | intro _
    | extract_lets +onlyGivenNames _
    | with_reducible apply Kept.updRfx

theorem Kept.applyXport {uu : Units} {zz s : State} (r : XportRecord) (hk : Kept uu zz s)
    (hRfx : uu.rfx = true := by assumption) : Kept uu zz (State.applyXport s r) := by
  unfold State.applyXport
  repeat' first
    | with_reducible assumption
    | exact {}
    | intro _
    | with_reducible apply Kept.updRfx

theorem Kept.markForward {uu : Units} {zz s : State} (es : List MirBlock) (hk : Kept uu zz s)
    (hVsm : uu.vsm = true := by assumption) : Kept uu zz (State.markForward s es) := by
  unfold State.markForward
  repeat' first
    | with_reducible assumption
    | exact {}
    | intro _
    | extract_lets +onlyGivenNames _
    | with_reducible apply Kept.markMig
    | with_reducible refine Kept.foldl ?_ _ ?_

theorem Kept.takeForward {uu : Units} {zz s0 : State} (mseq : Nat) (es : List MirBlock) (hk : Kept uu zz s0)
    (hHce : uu.hce = true := by assumption) (hRfx : uu.rfx = true := by assumption) (hVsm : uu.vsm = true := by assumption)
    (hXbr : uu.xbr = true := by assumption) (hPwr : uu.pwr = true := by assumption) (hPmu : uu.pmu = true := by assumption)
    (hMoved : uu.moved = true := by assumption) (hOut : uu.out = true := by assumption) : Kept uu zz
    (State.takeForward s0 mseq es) := by
  unfold State.takeForward
  repeat' first
    | with_reducible assumption
    | exact {}
    | intro _
    | (extract_lets +onlyGivenNames x; first | refine Kept.cut x ?_ ?_ <;> [subst x; (clear_value x; intro _)] | skip)
    | with_reducible apply Kept.markForward
    | with_reducible apply Kept.applyBlocks
    | with_reducible apply Kept.mirSend2
    | with_reducible apply Kept.updRfx
    | with_reducible apply Kept.commitForwarded
    | fail_if_no_progress (dsimp only [State.updRfx])
    | split
    | (with_reducible apply Kept.update) <;> [assumption; exact {}]

theorem Kept.rxApply {uu : Units} {zz s : State} (mseq : Nat) (b : StreamBody) (hk : Kept uu zz s)
    (hHce : uu.hce = true := by assumption) (hRfu : uu.rfu = true := by assumption) (hRge : uu.rge = true := by assumption)
    (hSnt : uu.snt = true := by assumption) (hRfx : uu.rfx = true := by assumption) (hVsm : uu.vsm = true := by assumption)
    (hKvt : uu.kvt = true := by assumption) (hMbx : uu.mbx = true := by assumption) (hBay : uu.bay = true := by assumption)
    (hXbr : uu.xbr = true := by assumption) (hPwr : uu.pwr = true := by assumption) (hPmu : uu.pmu = true := by assumption)
    (hMoved : uu.moved = true := by assumption) (hOut : uu.out = true := by assumption)
    (hFree : uu.free = true := by assumption) : KeptOpt uu zz (State.rxApply s mseq b) := by
  unfold State.rxApply
  repeat' first
    | with_reducible assumption
    | exact {}
    | intro _
    | extract_lets +onlyGivenNames _
    | with_reducible apply Kept.applyBlocks
    | with_reducible apply Kept.applyFree
    | with_reducible apply Kept.applyLine
    | with_reducible apply Kept.applyRing
    | with_reducible apply Kept.takeForward
    | with_reducible apply Kept.applyRecord
    | with_reducible apply Kept.applyXport
    | with_reducible refine KeptOpt.some ?_
    | with_reducible exact KeptOpt.none
    | with_reducible refine Kept.foldl ?_ _ ?_
    | split

theorem Kept.rxDrain {uu : Units} {zz : State} (n : Nat) (hHce : uu.hce = true := by assumption)
    (hRfu : uu.rfu = true := by assumption) (hRge : uu.rge = true := by assumption) (hSnt : uu.snt = true := by assumption)
    (hRfx : uu.rfx = true := by assumption) (hVsm : uu.vsm = true := by assumption) (hKvt : uu.kvt = true := by assumption)
    (hMbx : uu.mbx = true := by assumption) (hBay : uu.bay = true := by assumption) (hXbr : uu.xbr = true := by assumption)
    (hPwr : uu.pwr = true := by assumption) (hPmu : uu.pmu = true := by assumption)
    (hMoved : uu.moved = true := by assumption) (hOut : uu.out = true := by assumption)
    (hFree : uu.free = true := by assumption) : ∀ {s : State}, Kept uu zz s → Kept uu zz (State.rxDrain n s) := by
  induction n with
  | zero => exact fun h => h
  | succ n ih =>
    intro s hk
    unfold State.rxDrain
    repeat' first
      | with_reducible assumption
      | exact {}
      | intro _
      | extract_lets +onlyGivenNames _
      | with_reducible apply ih
      | with_reducible apply Kept.updRfx
      | refine Kept.ofSome (by assumption) ?_
      | with_reducible apply Kept.rxApply
      | split
      | (with_reducible apply Kept.update) <;> [assumption; exact {}]
      | refine Kept.ofPair (by assumption) ?_
      | refine Kept.ofPair' (by assumption) ?_
      | (with_reducible apply Kept.update) <;> [refine Kept.ofPair (by assumption) ?_; exact {}]
      | fail_if_no_progress ((with_reducible apply Kept.update) <;> [skip; exact {}])
      | dsimp +zetaDelta only
      | rfl
      | exact ⟨rfl, rfl⟩
      | simp only [length_setAt, length_updWhere]

theorem Kept.rxDrainAll {uu : Units} {zz s : State} (hk : Kept uu zz s) (hHce : uu.hce = true := by assumption)
    (hRfu : uu.rfu = true := by assumption) (hRge : uu.rge = true := by assumption) (hSnt : uu.snt = true := by assumption)
    (hRfx : uu.rfx = true := by assumption) (hVsm : uu.vsm = true := by assumption) (hKvt : uu.kvt = true := by assumption)
    (hMbx : uu.mbx = true := by assumption) (hBay : uu.bay = true := by assumption) (hXbr : uu.xbr = true := by assumption)
    (hPwr : uu.pwr = true := by assumption) (hPmu : uu.pmu = true := by assumption)
    (hMoved : uu.moved = true := by assumption) (hOut : uu.out = true := by assumption)
    (hFree : uu.free = true := by assumption) : Kept uu zz (State.rxDrainAll s) := by
  unfold State.rxDrainAll
  repeat' first
    | with_reducible assumption
    | exact {}
    | intro _
    | with_reducible apply Kept.rxDrain

theorem Kept.settleForwards {uu : Units} {zz s : State} (hk : Kept uu zz s) (hHce : uu.hce = true := by assumption)
    (hRfx : uu.rfx = true := by assumption) (hXbr : uu.xbr = true := by assumption) (hPmu : uu.pmu = true := by assumption)
    (hMoved : uu.moved = true := by assumption) (hOut : uu.out = true := by assumption) : Kept uu zz
    (State.settleForwards s) := by
  unfold State.settleForwards
  repeat' first
    | with_reducible assumption
    | exact {}
    | intro _
    | extract_lets +onlyGivenNames _
    | with_reducible apply Kept.updRfx
    | with_reducible apply Kept.commitForwarded

theorem Kept.sendMirack {uu : Units} {zz s : State} (hk : Kept uu zz s) (hHce : uu.hce = true := by assumption)
    (hRfx : uu.rfx = true := by assumption) (hXbr : uu.xbr = true := by assumption) (hPmu : uu.pmu = true := by assumption)
    (hMoved : uu.moved = true := by assumption) (hOut : uu.out = true := by assumption) : Kept uu zz
    (State.sendMirack s) := by
  unfold State.sendMirack
  repeat' first
    | with_reducible assumption
    | exact {}
    | intro _
    | (extract_lets +onlyGivenNames x; first | refine Kept.cut x ?_ ?_ <;> [subst x; (clear_value x; intro _)] | skip)
    | with_reducible apply Kept.settleForwards
    | with_reducible apply Kept.emit
    | with_reducible apply Kept.xbarRelti
    | with_reducible apply Kept.updRfx
    | split

theorem Kept.rxFrame {uu : Units} {zz s : State} (mseq : Nat) (b : StreamBody) (hk : Kept uu zz s)
    (hHce : uu.hce = true := by assumption) (hRfu : uu.rfu = true := by assumption) (hRge : uu.rge = true := by assumption)
    (hSnt : uu.snt = true := by assumption) (hRfx : uu.rfx = true := by assumption) (hVsm : uu.vsm = true := by assumption)
    (hKvt : uu.kvt = true := by assumption) (hMbx : uu.mbx = true := by assumption) (hBay : uu.bay = true := by assumption)
    (hXbr : uu.xbr = true := by assumption) (hPwr : uu.pwr = true := by assumption) (hPmu : uu.pmu = true := by assumption)
    (hMoved : uu.moved = true := by assumption) (hOut : uu.out = true := by assumption)
    (hFree : uu.free = true := by assumption) : Kept uu zz (State.rxFrame s mseq b) := by
  unfold State.rxFrame
  repeat' first
    | with_reducible assumption
    | exact {}
    | intro _
    | (extract_lets +onlyGivenNames x; first | refine Kept.cut x ?_ ?_ <;> [subst x; (clear_value x; intro _)] | skip)
    | with_reducible apply Kept.updRfx
    | with_reducible apply Kept.rxDrainAll
    | with_reducible apply Kept.sendMirack
    | fail_if_no_progress (dsimp only [State.updRfx])
    | split
    | (with_reducible apply Kept.update) <;> [assumption; exact {}]

theorem Kept.secondFrame {uu : Units} {zz s : State} (src : Nat) (mseq : Nat) (b : MirBody) (hk : Kept uu zz s)
    (hHce : uu.hce = true := by assumption) (hRfx : uu.rfx = true := by assumption) (hXbr : uu.xbr = true := by assumption)
    (hPwr : uu.pwr = true := by assumption) (hOut : uu.out = true := by assumption) : Kept uu zz
    (State.secondFrame s src mseq b) := by
  unfold State.secondFrame
  repeat' first
    | with_reducible assumption
    | exact {}
    | intro _
    | (extract_lets +onlyGivenNames x; first | refine Kept.cut x ?_ ?_ <;> [subst x; (clear_value x; intro _)] | skip)
    | with_reducible apply Kept.emit
    | with_reducible apply Kept.xbarRelti
    | with_reducible apply Kept.updHce
    | with_reducible apply Kept.wakeStacks
    | with_reducible apply Kept.updRfx
    | fail_if_no_progress (dsimp only [State.updRfx])
    | split
    | (with_reducible apply Kept.update) <;> [assumption; exact {}]
    | refine Kept.ofPair (by assumption) ?_
    | refine Kept.ofPair' (by assumption) ?_
    | (with_reducible apply Kept.update) <;> [refine Kept.ofPair (by assumption) ?_; exact {}]
    | fail_if_no_progress ((with_reducible apply Kept.update) <;> [skip; exact {}])
    | dsimp +zetaDelta only

theorem Kept.fenceReset {uu : Units} {zz s : State} (hk : Kept uu zz s) (hHce : uu.hce = true := by assumption)
    (hRfu : uu.rfu = true := by assumption) (hRge : uu.rge = true := by assumption) (hSnt : uu.snt = true := by assumption)
    (hRfx : uu.rfx = true := by assumption) (hTk : uu.tk = true := by assumption) (hVsm : uu.vsm = true := by assumption)
    (hKvt : uu.kvt = true := by assumption) (hMbx : uu.mbx = true := by assumption) (hBay : uu.bay = true := by assumption)
    (hProps : uu.props = true := by assumption) (hPpc : uu.ppc = true := by assumption)
    (hXbr : uu.xbr = true := by assumption) (hSep : uu.sep = true := by assumption) (hPwr : uu.pwr = true := by assumption)
    (hLcu : uu.lcu = true := by assumption) (hPmu : uu.pmu = true := by assumption) (hTst : uu.tst = true := by assumption)
    (hMac : uu.mac = true := by assumption) (hMoved : uu.moved = true := by assumption)
    (hCfg : uu.cfg = true := by assumption) : Kept uu zz (State.fenceReset s) := by
  have ht := Kept.rebooted hk
  exact
    { same := ⟨ht.same.now, ht.same.part, ht.same.slot, ht.same.uid, ht.same.smbAddr, ht.same.strapsOk, ht.same.macs⟩
      pending := ht.pending, out := ht.out, free := ht.free
      inv := fun i =>
        have j := ht.inv i
        have k := (hk.inv i).counts
        { regs := j.regs, absent := j.absent, window := j.window, stage := j.stage
          counts := ⟨k.bays, k.drivePorts, j.counts.fabPorts, j.counts.egress, j.counts.grant, j.counts.accept, j.counts.points,
            j.counts.masters, j.counts.sets, j.counts.macsec, j.counts.sensors, j.counts.hbmStacks, j.counts.vectors,
            j.counts.buckets⟩
          oneEach := j.oneEach }
      only := ht.only.trans ⟨.inl hHce, .inl hRfu, .inl hRge, .inl hSnt, .inl hRfx, .inl hTk, .inl hVsm, .inl hKvt, .inl hMbx, .inl hBay, .inl hProps, .inl hPpc, .inl hXbr, .inl hSep, .inl hPwr, .inl hLcu, .inl hPmu, .inl hTst, .inl hMac, .inl hCfg, .inr rfl, .inr rfl⟩ }

theorem Kept.releaseFence {uu : Units} {zz s : State} (hk : Kept uu zz s) (hTk : uu.tk = true := by assumption)
    (hOut : uu.out = true := by assumption) : Kept uu zz (State.releaseFence s) := by
  unfold State.releaseFence
  repeat' first
    | with_reducible assumption
    | exact {}
    | intro _
    | extract_lets +onlyGivenNames _
    | with_reducible apply Kept.updTk
    | with_reducible apply Kept.emit
    | split

theorem Kept.takeRing {uu : Units} {zz s : State} (ring : Nat) (hk : Kept uu zz s) (hHce : uu.hce = true := by assumption)
    (hRfu : uu.rfu = true := by assumption) (hRge : uu.rge = true := by assumption) (hRfx : uu.rfx = true := by assumption)
    (hKvt : uu.kvt = true := by assumption) (hBay : uu.bay = true := by assumption) (hXbr : uu.xbr = true := by assumption)
    (hPwr : uu.pwr = true := by assumption) (hPmu : uu.pmu = true := by assumption)
    (hMoved : uu.moved = true := by assumption) (hOut : uu.out = true := by assumption)
    (hFree : uu.free = true := by assumption) : Kept uu zz (State.takeRing s ring) := by
  unfold State.takeRing
  repeat' first
    | with_reducible assumption
    | exact {}
    | intro _
    | extract_lets +onlyGivenNames _
    | with_reducible apply Kept.sendEpoch
    | with_reducible apply Kept.masterRing
    | split

theorem Kept.resumeConn {uu : Units} {zz s : State} (x : XportRecord) (hk : Kept uu zz s)
    (hHce : uu.hce = true := by assumption) (hKvt : uu.kvt = true := by assumption) (hXbr : uu.xbr = true := by assumption)
    (hOut : uu.out = true := by assumption) : Kept uu zz (State.resumeConn s x) := by
  unfold State.resumeConn
  repeat' first
    | with_reducible assumption
    | exact {}
    | intro _
    | (extract_lets +onlyGivenNames x; first | refine Kept.cut x ?_ ?_ <;> [subst x; (clear_value x; intro _)] | skip)
    | with_reducible apply Kept.idle
    | with_reducible apply Kept.updHce
    | with_reducible apply Kept.addHost
    | with_reducible apply Kept.updKvt
    | with_reducible apply Kept.resumeAt
    | fail_if_no_progress (dsimp only [State.updKvt])
    | split
    | (with_reducible apply Kept.update) <;> [assumption; exact {}]

theorem Kept.reread {uu : Units} {zz s : State} (r : TagRec) (hk : Kept uu zz s) (hHce : uu.hce = true := by assumption)
    (hRfu : uu.rfu = true := by assumption) (hRge : uu.rge = true := by assumption) (hRfx : uu.rfx = true := by assumption)
    (hBay : uu.bay = true := by assumption) (hXbr : uu.xbr = true := by assumption) (hPmu : uu.pmu = true := by assumption)
    (hMoved : uu.moved = true := by assumption) (hOut : uu.out = true := by assumption)
    (hFree : uu.free = true := by assumption) : Kept uu zz (State.reread s r) := by
  unfold State.reread
  repeat' first
    | with_reducible assumption
    | exact {}
    | intro _
    | (extract_lets +onlyGivenNames x; first | refine Kept.cut x ?_ ?_ <;> [subst x; (clear_value x; intro _)] | skip)
    | with_reducible apply Kept.countSources
    | with_reducible apply Kept.updTag
    | with_reducible apply Kept.rereadDone
    | with_reducible apply Kept.startGather
    | split

theorem Kept.reenterIo {uu : Units} {zz s : State} (r : CmdRecord) (c : Capsule) (q : SubQ) (hk : Kept uu zz s)
    (hHce : uu.hce = true := by assumption) (hRfu : uu.rfu = true := by assumption) (hRge : uu.rge = true := by assumption)
    (hRfx : uu.rfx = true := by assumption) (hTk : uu.tk = true := by assumption) (hBay : uu.bay = true := by assumption)
    (hXbr : uu.xbr = true := by assumption) (hPwr : uu.pwr = true := by assumption) (hPmu : uu.pmu = true := by assumption)
    (hMoved : uu.moved = true := by assumption) (hCfg : uu.cfg = true := by assumption)
    (hOut : uu.out = true := by assumption) (hFree : uu.free = true := by assumption) : Kept uu zz
    (State.reenterIo s r c q) := by
  unfold State.reenterIo
  repeat' first
    | with_reducible assumption
    | exact {}
    | intro _
    | (extract_lets +onlyGivenNames x; first | refine Kept.cut x ?_ ?_ <;> [subst x; (clear_value x; intro _)] | skip)
    | with_reducible apply Kept.updSq
    | with_reducible apply Kept.grantTag
    | with_reducible apply Kept.updTag
    | with_reducible apply Kept.handOff
    | with_reducible apply Kept.reread
    | with_reducible apply Kept.takeLocks
    | with_reducible apply Kept.failTag
    | split

theorem Kept.reenterAdmin {uu : Units} {zz s : State} (r : CmdRecord) (hk : Kept uu zz s)
    (hHce : uu.hce = true := by assumption) (hRfu : uu.rfu = true := by assumption) (hRfx : uu.rfx = true := by assumption)
    (hXbr : uu.xbr = true := by assumption) (hPmu : uu.pmu = true := by assumption)
    (hMoved : uu.moved = true := by assumption) (hOut : uu.out = true := by assumption)
    (hFree : uu.free = true := by assumption) : Kept uu zz (State.reenterAdmin s r) := by
  unfold State.reenterAdmin
  repeat' first
    | with_reducible assumption
    | exact {}
    | intro _
    | extract_lets +onlyGivenNames _
    | with_reducible apply Kept.adminCqe
    | with_reducible apply Kept.updCtrl
    | with_reducible apply Kept.beginReset
    | with_reducible apply Kept.doAbort
    | with_reducible apply Kept.adminDone
    | with_reducible apply Kept.doLog
    | with_reducible apply Kept.updHce
    | split

theorem Kept.reenter {uu : Units} {zz s : State} (r : CmdRecord) (hk : Kept uu zz s) (hHce : uu.hce = true := by assumption)
    (hRfu : uu.rfu = true := by assumption) (hRge : uu.rge = true := by assumption) (hRfx : uu.rfx = true := by assumption)
    (hTk : uu.tk = true := by assumption) (hBay : uu.bay = true := by assumption) (hXbr : uu.xbr = true := by assumption)
    (hPwr : uu.pwr = true := by assumption) (hPmu : uu.pmu = true := by assumption)
    (hMoved : uu.moved = true := by assumption) (hCfg : uu.cfg = true := by assumption)
    (hOut : uu.out = true := by assumption) (hFree : uu.free = true := by assumption) : Kept uu zz (State.reenter s r) := by
  unfold State.reenter
  repeat' first
    | with_reducible assumption
    | exact {}
    | intro _
    | with_reducible apply Kept.reenterAdmin
    | with_reducible apply Kept.reenterIo
    | split

/-! ## The commands -/

theorem KeptBy.barkerReceive {uu : Units} {zz s : State} (port : Nat) (b : Barker) (store : Option PeerStore) (hk
    : Kept uu zz s) (hHce : uu.hce = true := by assumption) (hRfu : uu.rfu = true := by assumption)
    (hRge : uu.rge = true := by assumption) (hRfx : uu.rfx = true := by assumption) (hTk : uu.tk = true := by assumption)
    (hVsm : uu.vsm = true := by assumption) (hKvt : uu.kvt = true := by assumption) (hMbx : uu.mbx = true := by assumption)
    (hBay : uu.bay = true := by assumption) (hProps : uu.props = true := by assumption)
    (hXbr : uu.xbr = true := by assumption) (hSep : uu.sep = true := by assumption) (hPwr : uu.pwr = true := by assumption)
    (hLcu : uu.lcu = true := by assumption) (hPmu : uu.pmu = true := by assumption) (hTst : uu.tst = true := by assumption)
    (hMoved : uu.moved = true := by assumption) (hOut : uu.out = true := by assumption) :
    KeptBy uu zz (execBarkerReceive port b store s) := by
  unfold execBarkerReceive
  repeat' first
    | with_reducible assumption
    | exact {}
    | intro _
    | extract_lets +onlyGivenNames _
    | with_reducible refine KeptBy.next ?_
    | with_reducible apply Kept.takeBarker
    | with_reducible apply Kept.reconcile

theorem KeptBy.mirrorReceive {uu : Units} {zz s : State} (src : Nat) (mseq : Nat) (body : MirBody) (hk : Kept uu zz s)
    (hHce : uu.hce = true := by assumption) (hRfu : uu.rfu = true := by assumption) (hRge : uu.rge = true := by assumption)
    (hSnt : uu.snt = true := by assumption) (hRfx : uu.rfx = true := by assumption) (hVsm : uu.vsm = true := by assumption)
    (hKvt : uu.kvt = true := by assumption) (hMbx : uu.mbx = true := by assumption) (hBay : uu.bay = true := by assumption)
    (hXbr : uu.xbr = true := by assumption) (hPwr : uu.pwr = true := by assumption) (hPmu : uu.pmu = true := by assumption)
    (hMoved : uu.moved = true := by assumption) (hOut : uu.out = true := by assumption)
    (hFree : uu.free = true := by assumption) :
    KeptBy uu zz (execMirrorReceive src mseq body s) := by
  unfold execMirrorReceive
  repeat' first
    | with_reducible assumption
    | exact {}
    | intro _
    | extract_lets +onlyGivenNames _
    | with_reducible refine KeptBy.next ?_
    | with_reducible apply Kept.rxFrame
    | with_reducible apply Kept.secondFrame
    | split

theorem KeptBy.cmdstateReceive {uu : Units} {zz s : State} (mseq : Nat) (r : CmdRecord) (hk : Kept uu zz s)
    (hHce : uu.hce = true := by assumption) (hRfu : uu.rfu = true := by assumption) (hRge : uu.rge = true := by assumption)
    (hSnt : uu.snt = true := by assumption) (hRfx : uu.rfx = true := by assumption) (hVsm : uu.vsm = true := by assumption)
    (hKvt : uu.kvt = true := by assumption) (hMbx : uu.mbx = true := by assumption) (hBay : uu.bay = true := by assumption)
    (hXbr : uu.xbr = true := by assumption) (hPwr : uu.pwr = true := by assumption) (hPmu : uu.pmu = true := by assumption)
    (hMoved : uu.moved = true := by assumption) (hOut : uu.out = true := by assumption)
    (hFree : uu.free = true := by assumption) :
    KeptBy uu zz (execCmdstateReceive mseq r s) := by
  unfold execCmdstateReceive
  repeat' first
    | with_reducible assumption
    | exact {}
    | intro _
    | extract_lets +onlyGivenNames _
    | with_reducible refine KeptBy.next ?_
    | with_reducible apply Kept.rxFrame

theorem KeptBy.xportReceive {uu : Units} {zz s : State} (mseq : Nat) (x : XportRecord) (hk : Kept uu zz s)
    (hHce : uu.hce = true := by assumption) (hRfu : uu.rfu = true := by assumption) (hRge : uu.rge = true := by assumption)
    (hSnt : uu.snt = true := by assumption) (hRfx : uu.rfx = true := by assumption) (hVsm : uu.vsm = true := by assumption)
    (hKvt : uu.kvt = true := by assumption) (hMbx : uu.mbx = true := by assumption) (hBay : uu.bay = true := by assumption)
    (hXbr : uu.xbr = true := by assumption) (hPwr : uu.pwr = true := by assumption) (hPmu : uu.pmu = true := by assumption)
    (hMoved : uu.moved = true := by assumption) (hOut : uu.out = true := by assumption)
    (hFree : uu.free = true := by assumption) :
    KeptBy uu zz (execXportReceive mseq x s) := by
  unfold execXportReceive
  repeat' first
    | with_reducible assumption
    | exact {}
    | intro _
    | extract_lets +onlyGivenNames _
    | with_reducible refine KeptBy.next ?_
    | with_reducible apply Kept.rxFrame

theorem KeptBy.fwdReceive {uu : Units} {zz s : State} (mseq : Nat) (entries : List MirBlock) (hk : Kept uu zz s)
    (hHce : uu.hce = true := by assumption) (hRfu : uu.rfu = true := by assumption) (hRge : uu.rge = true := by assumption)
    (hSnt : uu.snt = true := by assumption) (hRfx : uu.rfx = true := by assumption) (hVsm : uu.vsm = true := by assumption)
    (hKvt : uu.kvt = true := by assumption) (hMbx : uu.mbx = true := by assumption) (hBay : uu.bay = true := by assumption)
    (hXbr : uu.xbr = true := by assumption) (hPwr : uu.pwr = true := by assumption) (hPmu : uu.pmu = true := by assumption)
    (hMoved : uu.moved = true := by assumption) (hOut : uu.out = true := by assumption)
    (hFree : uu.free = true := by assumption) :
    KeptBy uu zz (execFwdReceive mseq entries s) := by
  unfold execFwdReceive
  repeat' first
    | with_reducible assumption
    | exact {}
    | intro _
    | extract_lets +onlyGivenNames _
    | with_reducible refine KeptBy.next ?_
    | with_reducible apply Kept.rxFrame

theorem KeptBy.mirackSend {uu : Units} {zz s : State} (hk : Kept uu zz s) (hHce : uu.hce = true := by assumption)
    (hRfu : uu.rfu = true := by assumption) (hRge : uu.rge = true := by assumption) (hSnt : uu.snt = true := by assumption)
    (hRfx : uu.rfx = true := by assumption) (hVsm : uu.vsm = true := by assumption) (hKvt : uu.kvt = true := by assumption)
    (hMbx : uu.mbx = true := by assumption) (hBay : uu.bay = true := by assumption) (hXbr : uu.xbr = true := by assumption)
    (hPwr : uu.pwr = true := by assumption) (hPmu : uu.pmu = true := by assumption)
    (hMoved : uu.moved = true := by assumption) (hOut : uu.out = true := by assumption)
    (hFree : uu.free = true := by assumption) :
    KeptBy uu zz (execMirackSend s) := by
  unfold execMirackSend
  repeat' first
    | with_reducible assumption
    | exact {}
    | intro _
    | (extract_lets +onlyGivenNames x; first | refine Kept.cut x ?_ ?_ <;> [subst x; (clear_value x; intro _)] | refine KeptBy.cut x ?_ ?_ <;> [subst x; (clear_value x; intro _)] | skip)
    | with_reducible refine KeptBy.next ?_
    | with_reducible apply Kept.rxDrainAll
    | with_reducible apply Kept.sendMirack
    | split

theorem KeptBy.mirackReceive {uu : Units} {zz s : State} (second : Bool) (mseq : Nat) (room : Nat) (hk : Kept uu zz s)
    (hHce : uu.hce = true := by assumption) (hRge : uu.rge = true := by assumption) (hRfx : uu.rfx = true := by assumption)
    (hTk : uu.tk = true := by assumption) (hVsm : uu.vsm = true := by assumption) (hKvt : uu.kvt = true := by assumption)
    (hMbx : uu.mbx = true := by assumption) (hBay : uu.bay = true := by assumption) (hXbr : uu.xbr = true := by assumption)
    (hPmu : uu.pmu = true := by assumption) (hMoved : uu.moved = true := by assumption)
    (hOut : uu.out = true := by assumption) (hFree : uu.free = true := by assumption) :
    KeptBy uu zz (execMirackReceive second mseq room s) := by
  unfold execMirackReceive
  repeat' first
    | with_reducible assumption
    | exact {}
    | intro _
    | (extract_lets +onlyGivenNames x; first | refine Kept.cut x ?_ ?_ <;> [subst x; (clear_value x; intro _)] | refine KeptBy.cut x ?_ ?_ <;> [subst x; (clear_value x; intro _)] | skip)
    | with_reducible refine KeptBy.next ?_
    | with_reducible apply Kept.updRfx
    | with_reducible apply Kept.sendMirack
    | with_reducible apply Kept.updHce
    | with_reducible apply Kept.advanceAll
    | with_reducible apply Kept.switchKeys
    | with_reducible apply Kept.flushCheck
    | with_reducible apply Kept.ackImages
    | fail_if_no_progress (dsimp only [State.updRfx])
    | split

theorem KeptBy.mirrorResendTimeout {uu : Units} {zz s : State} (mseq : Nat) (hk : Kept uu zz s)
    (hRfx : uu.rfx = true := by assumption) (hXbr : uu.xbr = true := by assumption)
    (hMoved : uu.moved = true := by assumption) (hOut : uu.out = true := by assumption) :
    KeptBy uu zz (execMirrorResendTimeout mseq s) := by
  unfold execMirrorResendTimeout
  repeat' first
    | with_reducible assumption
    | exact {}
    | intro _
    | extract_lets +onlyGivenNames _
    | with_reducible refine KeptBy.next ?_
    | with_reducible apply Kept.updRfx
    | with_reducible apply Kept.emit
    | with_reducible apply Kept.xbarRelti
    | with_reducible apply Kept.bump
    | fail_if_no_progress (dsimp only [State.updRfx])
    | split
    | (with_reducible apply Kept.update) <;> [assumption; exact {}]

theorem KeptBy.joinCopyComplete {uu : Units} {zz s : State} (hk : Kept uu zz s) (hHce : uu.hce = true := by assumption)
    (hRfx : uu.rfx = true := by assumption) :
    KeptBy uu zz (execJoinCopyComplete s) := by
  unfold execJoinCopyComplete
  repeat' first
    | with_reducible assumption
    | exact {}
    | intro _
    | extract_lets +onlyGivenNames _
    | with_reducible refine KeptBy.next ?_
    | with_reducible apply Kept.updRfx
    | with_reducible apply Kept.updHce
    | fail_if_no_progress (dsimp only [State.updRfx])
    | split
    | (with_reducible apply Kept.update) <;> [assumption; exact {}]

theorem KeptBy.heartbeatLoss {uu : Units} {zz s : State} (hk : Kept uu zz s) (hHce : uu.hce = true := by assumption)
    (hRge : uu.rge = true := by assumption) (hRfx : uu.rfx = true := by assumption) (hTk : uu.tk = true := by assumption)
    (hVsm : uu.vsm = true := by assumption) (hKvt : uu.kvt = true := by assumption) (hMbx : uu.mbx = true := by assumption)
    (hBay : uu.bay = true := by assumption) (hProps : uu.props = true := by assumption)
    (hXbr : uu.xbr = true := by assumption) (hSep : uu.sep = true := by assumption) (hPwr : uu.pwr = true := by assumption)
    (hLcu : uu.lcu = true := by assumption) (hPmu : uu.pmu = true := by assumption) (hTst : uu.tst = true := by assumption)
    (hMoved : uu.moved = true := by assumption) (hOut : uu.out = true := by assumption) :
    KeptBy uu zz (execHeartbeatLoss s) := by
  unfold execHeartbeatLoss
  repeat' first
    | with_reducible assumption
    | exact {}
    | intro _
    | extract_lets +onlyGivenNames _
    | with_reducible refine KeptBy.next ?_
    | with_reducible apply Kept.declareDead
    | split

theorem KeptBy.fenceDelayExpiry {uu : Units} {zz s : State} (hk : Kept uu zz s) (hTk : uu.tk = true := by assumption)
    (hOut : uu.out = true := by assumption) :
    KeptBy uu zz (execFenceDelayExpiry s) := by
  unfold execFenceDelayExpiry
  repeat' first
    | with_reducible assumption
    | exact {}
    | intro _
    | extract_lets +onlyGivenNames _
    | with_reducible refine KeptBy.next ?_
    | with_reducible apply Kept.updTk
    | with_reducible apply Kept.assertFence
    | split

theorem KeptBy.fenceInAsserted {uu : Units} {zz s : State} (hk : Kept uu zz s) (hHce : uu.hce = true := by assumption)
    (hRfu : uu.rfu = true := by assumption) (hRge : uu.rge = true := by assumption) (hSnt : uu.snt = true := by assumption)
    (hRfx : uu.rfx = true := by assumption) (hTk : uu.tk = true := by assumption) (hVsm : uu.vsm = true := by assumption)
    (hKvt : uu.kvt = true := by assumption) (hMbx : uu.mbx = true := by assumption) (hBay : uu.bay = true := by assumption)
    (hProps : uu.props = true := by assumption) (hPpc : uu.ppc = true := by assumption)
    (hXbr : uu.xbr = true := by assumption) (hSep : uu.sep = true := by assumption) (hPwr : uu.pwr = true := by assumption)
    (hLcu : uu.lcu = true := by assumption) (hPmu : uu.pmu = true := by assumption) (hTst : uu.tst = true := by assumption)
    (hMac : uu.mac = true := by assumption) (hMoved : uu.moved = true := by assumption)
    (hCfg : uu.cfg = true := by assumption) (hOut : uu.out = true := by assumption)
    (hFree : uu.free = true := by assumption) : KeptBy uu zz (execFenceInAsserted s) := by
  have hb : ∀ t, Kept uu zz t → Kept uu zz (if s.slot = .a && t.bay.holder then
      ({ t.dropBays with bay := { t.dropBays.bay with bholdHigh := true } }).emit (.pin .bholdA true) else t.dropBays) := by
    intro t ht
    split
    · exact Kept.emit _ ((Kept.dropBays ht).like {})
    · exact Kept.dropBays ht
  unfold execFenceInAsserted
  split
  · exact KeptBy.next hk
  · split
    · exact KeptBy.next (Kept.updTk _ hk)
    · have h2 := Kept.foldl (z := zz) (f := fun (t : State) p =>
          (t.setPort p (fun q => { q with
            contained := true, cause := 5, holdEnd := none, perst := true, train := .down, trainEnd := none, reads := [],
            speed := 0, width := 0 })).emit (.pin (.perst p) false))
        (fun t p ht => Kept.emit _ (Kept.setPort _ _ ht)) (natsFrom 0 (Config.bays s.part)) (Kept.stopLive 5 hk)
      have h4 := fun f => Kept.updTk f (Kept.hbStop (hb _ h2))
      dsimp only
      split
      · exact KeptBy.next (Kept.restartDown _ (h4 _))
      · split
        · exact KeptBy.next (Kept.powerDown _ (h4 _))
        · exact KeptBy.next (Kept.fenceReset (h4 _))

theorem KeptBy.fenceInDeasserted {uu : Units} {zz s : State} (hk : Kept uu zz s) (hTk : uu.tk = true := by assumption)
    (hBay : uu.bay = true := by assumption) (hPwr : uu.pwr = true := by assumption) :
    KeptBy uu zz (execFenceInDeasserted s) := by
  unfold execFenceInDeasserted
  repeat' first
    | with_reducible assumption
    | exact {}
    | intro _
    | extract_lets +onlyGivenNames _
    | with_reducible refine KeptBy.next ?_
    | with_reducible apply Kept.updTk
    | with_reducible apply Kept.updPwr
    | split
    | (with_reducible apply Kept.update) <;> [assumption; exact {}]
    | refine Kept.ofPair (by assumption) ?_
    | refine Kept.ofPair' (by assumption) ?_
    | (with_reducible apply Kept.update) <;> [refine Kept.ofPair (by assumption) ?_; exact {}]
    | fail_if_no_progress ((with_reducible apply Kept.update) <;> [skip; exact {}])
    | dsimp +zetaDelta only

theorem KeptBy.fenceRelease {uu : Units} {zz s : State} (m : Master) (hk : Kept uu zz s)
    (hTk : uu.tk = true := by assumption) (hMbx : uu.mbx = true := by assumption)
    (hMoved : uu.moved = true := by assumption) (hOut : uu.out = true := by assumption) :
    KeptBy uu zz (execFenceRelease m s) := by
  unfold execFenceRelease
  repeat' first
    | with_reducible assumption
    | exact {}
    | intro _
    | extract_lets +onlyGivenNames _
    | with_reducible refine KeptBy.next ?_
    | with_reducible apply Kept.runCmd
    | with_reducible apply Kept.checked
    | with_reducible apply Kept.releaseFence
    | with_reducible apply Kept.finish

theorem KeptBy.peerRemoved {uu : Units} {zz s : State} (hk : Kept uu zz s) (hTk : uu.tk = true := by assumption)
    (hOut : uu.out = true := by assumption) :
    KeptBy uu zz (execPeerRemoved s) := by
  unfold execPeerRemoved
  repeat' first
    | with_reducible assumption
    | exact {}
    | intro _
    | extract_lets +onlyGivenNames _
    | with_reducible refine KeptBy.next ?_
    | with_reducible apply Kept.releaseFence

theorem KeptBy.fenceHoldExpiry {uu : Units} {zz s : State} (hk : Kept uu zz s) (hHce : uu.hce = true := by assumption)
    (hRfu : uu.rfu = true := by assumption) (hRge : uu.rge = true := by assumption) (hSnt : uu.snt = true := by assumption)
    (hRfx : uu.rfx = true := by assumption) (hTk : uu.tk = true := by assumption) (hKvt : uu.kvt = true := by assumption)
    (hMbx : uu.mbx = true := by assumption) (hBay : uu.bay = true := by assumption) (hXbr : uu.xbr = true := by assumption)
    (hPwr : uu.pwr = true := by assumption) (hPmu : uu.pmu = true := by assumption)
    (hMoved : uu.moved = true := by assumption) (hCfg : uu.cfg = true := by assumption)
    (hOut : uu.out = true := by assumption) (hFree : uu.free = true := by assumption) :
    KeptBy uu zz (execFenceHoldExpiry s) := by
  unfold execFenceHoldExpiry
  repeat' first
    | with_reducible assumption
    | exact {}
    | intro _
    | (extract_lets +onlyGivenNames x; first | refine Kept.cut x ?_ ?_ <;> [subst x; (clear_value x; intro _)] | refine KeptBy.cut x ?_ ?_ <;> [subst x; (clear_value x; intro _)] | skip)
    | with_reducible refine KeptBy.next ?_
    | with_reducible apply Kept.updTk
    | with_reducible apply Kept.takeRing
    | with_reducible apply Kept.resumeOps
    | with_reducible apply Kept.resumeConn
    | with_reducible apply Kept.reenter
    | with_reducible apply Kept.adminAll
    | with_reducible apply Kept.updRfx
    | with_reducible apply Kept.count
    | fail_if_no_progress (dsimp only [State.updRfx])
    | with_reducible refine Kept.foldl ?_ _ ?_
    | split

theorem KeptBy.announcementRepeat {uu : Units} {zz s : State} (identity : Nat) (hk : Kept uu zz s)
    (hTk : uu.tk = true := by assumption) (hOut : uu.out = true := by assumption) :
    KeptBy uu zz (execAnnouncementRepeat identity s) := by
  unfold execAnnouncementRepeat
  repeat' first
    | with_reducible assumption
    | exact {}
    | intro _
    | (extract_lets +onlyGivenNames x; first | refine Kept.cut x ?_ ?_ <;> [subst x; (clear_value x; intro _)] | refine KeptBy.cut x ?_ ?_ <;> [subst x; (clear_value x; intro _)] | skip)
    | with_reducible refine KeptBy.next ?_
    | with_reducible apply Kept.emit
    | with_reducible apply Kept.updTk
    | with_reducible refine Kept.foldl ?_ _ ?_

theorem KeptBy.takeoverDataDrained {uu : Units} {zz s : State} (hk : Kept uu zz s) (hHce : uu.hce = true := by assumption)
    (hTk : uu.tk = true := by assumption) :
    KeptBy uu zz (execTakeoverDataDrained s) := by
  unfold execTakeoverDataDrained
  repeat' first
    | with_reducible assumption
    | exact {}
    | intro _
    | extract_lets +onlyGivenNames _
    | with_reducible refine KeptBy.next ?_
    | with_reducible apply Kept.updTk
    | with_reducible apply Kept.idle
    | with_reducible apply Kept.updHce
    | split

theorem KeptBy.activationTimeout {uu : Units} {zz s : State} (hk : Kept uu zz s) (hHce : uu.hce = true := by assumption)
    (hRfu : uu.rfu = true := by assumption) (hRge : uu.rge = true := by assumption) (hSnt : uu.snt = true := by assumption)
    (hRfx : uu.rfx = true := by assumption) (hTk : uu.tk = true := by assumption) (hVsm : uu.vsm = true := by assumption)
    (hKvt : uu.kvt = true := by assumption) (hMbx : uu.mbx = true := by assumption) (hBay : uu.bay = true := by assumption)
    (hProps : uu.props = true := by assumption) (hPpc : uu.ppc = true := by assumption)
    (hXbr : uu.xbr = true := by assumption) (hSep : uu.sep = true := by assumption) (hPwr : uu.pwr = true := by assumption)
    (hLcu : uu.lcu = true := by assumption) (hPmu : uu.pmu = true := by assumption) (hTst : uu.tst = true := by assumption)
    (hMac : uu.mac = true := by assumption) (hMoved : uu.moved = true := by assumption)
    (hCfg : uu.cfg = true := by assumption) (hOut : uu.out = true := by assumption)
    (hFree : uu.free = true := by assumption) :
    KeptBy uu zz (execActivationTimeout s) := by
  unfold execActivationTimeout
  repeat' first
    | with_reducible assumption
    | exact {}
    | intro _
    | (extract_lets +onlyGivenNames x; first | refine Kept.cut x ?_ ?_ <;> [subst x; (clear_value x; intro _)] | refine KeptBy.cut x ?_ ?_ <;> [subst x; (clear_value x; intro _)] | skip)
    | with_reducible refine KeptBy.next ?_
    | with_reducible apply Kept.updMbx
    | with_reducible apply Kept.hbStop
    | with_reducible apply Kept.powerDown
    | with_reducible apply Kept.raiseFlag
    | fail_if_no_progress (dsimp only [State.updMbx])
    | split

end Sys2Proof.Machine
end

