-- ==== Sys2Proof/Laws/KeptCalibration.lean ====
section
/-! SUPPORT. `Kept` for the operations of Machine/Calibration.lean. -/

set_option Elab.async false

namespace Sys2Proof.Machine

theorem Kept.updLcu {uu : Units} {zz s : State} (f : LcuSt → LcuSt) (hf : ∀ t : State, Like uu t { t with lcu := f t.lcu })
    (hk : Kept uu zz s) (hLcu : uu.lcu = true := by assumption) : Kept uu zz (State.updLcu s f) := hk.like (hf _)

theorem Kept.putLane {uu : Units} {zz s : State} (x : LaneSt) (hk : Kept uu zz s) (hLcu : uu.lcu = true := by assumption)
    : Kept uu zz (State.putLane s x) := by
  unfold State.putLane
  repeat' first
    | with_reducible assumption
    | exact {}
    | intro _
    | with_reducible apply Kept.updLcu

theorem Kept.noteScan {uu : Units} {zz s : State} (lane : Nat) (port : Nat) (r : ScanResult) (hk : Kept uu zz s)
    (hLcu : uu.lcu = true := by assumption) : Kept uu zz (State.noteScan s lane port r) := by
  unfold State.noteScan
  repeat' first
    | with_reducible assumption
    | exact {}
    | intro _
    | extract_lets +onlyGivenNames _
    | with_reducible apply Kept.putLane

theorem Kept.beginRetrain {uu : Units} {zz s : State} (port : Nat) (forTest : Bool) (hk : Kept uu zz s)
    (hHce : uu.hce = true := by assumption) (hRfu : uu.rfu = true := by assumption) (hRge : uu.rge = true := by assumption)
    (hRfx : uu.rfx = true := by assumption) (hTk : uu.tk = true := by assumption) (hKvt : uu.kvt = true := by assumption)
    (hBay : uu.bay = true := by assumption) (hXbr : uu.xbr = true := by assumption) (hPwr : uu.pwr = true := by assumption)
    (hLcu : uu.lcu = true := by assumption) (hPmu : uu.pmu = true := by assumption)
    (hMoved : uu.moved = true := by assumption) (hOut : uu.out = true := by assumption)
    (hFree : uu.free = true := by assumption) : Kept uu zz (State.beginRetrain s port forTest) := by
  unfold State.beginRetrain
  repeat' first
    | with_reducible assumption
    | exact {}
    | intro _
    | (extract_lets +onlyGivenNames x; first | refine Kept.cut x ?_ ?_ <;> [subst x; (clear_value x; intro _)] | skip)
    | with_reducible apply Kept.updLcu
    | with_reducible apply Kept.moveIdent
    | with_reducible apply Kept.notice
    | with_reducible apply Kept.sendStatus
    | with_reducible apply Kept.sendLsa
    | with_reducible apply Kept.beginDpRun
    | fail_if_no_progress (dsimp only [State.updLcu])
    | with_reducible refine Kept.foldl ?_ _ ?_
    | split

theorem Kept.deferRetrain {uu : Units} {zz s : State} (port : Nat) (hk : Kept uu zz s)
    (hLcu : uu.lcu = true := by assumption) (hMoved : uu.moved = true := by assumption) : Kept uu zz
    (State.deferRetrain s port) := by
  unfold State.deferRetrain
  repeat' first
    | with_reducible assumption
    | exact {}
    | intro _
    | extract_lets +onlyGivenNames _
    | with_reducible apply Kept.updLcu
    | with_reducible apply Kept.bump
    | fail_if_no_progress (dsimp only [State.updLcu])
    | split
    | (with_reducible apply Kept.update) <;> [assumption; exact {}]

theorem Kept.judgePort {uu : Units} {zz s : State} (port : Nat) (hk : Kept uu zz s) (hHce : uu.hce = true := by assumption)
    (hRfu : uu.rfu = true := by assumption) (hRge : uu.rge = true := by assumption) (hRfx : uu.rfx = true := by assumption)
    (hTk : uu.tk = true := by assumption) (hKvt : uu.kvt = true := by assumption) (hBay : uu.bay = true := by assumption)
    (hXbr : uu.xbr = true := by assumption) (hPwr : uu.pwr = true := by assumption) (hLcu : uu.lcu = true := by assumption)
    (hPmu : uu.pmu = true := by assumption) (hMoved : uu.moved = true := by assumption)
    (hOut : uu.out = true := by assumption) (hFree : uu.free = true := by assumption) : Kept uu zz
    (State.judgePort s port) := by
  unfold State.judgePort
  repeat' first
    | with_reducible assumption
    | exact {}
    | intro _
    | extract_lets +onlyGivenNames _
    | with_reducible apply Kept.updLcu
    | with_reducible apply Kept.deferRetrain
    | with_reducible apply Kept.beginRetrain
    | fail_if_no_progress (dsimp only [State.updLcu])
    | split
    | (with_reducible apply Kept.update) <;> [assumption; exact {}]

theorem Kept.updRetrain {uu : Units} {zz s : State} (port : Nat) (f : Retrain → Retrain) (hk : Kept uu zz s)
    (hLcu : uu.lcu = true := by assumption) : Kept uu zz (State.updRetrain s port f) := by
  unfold State.updRetrain
  repeat' first
    | with_reducible assumption
    | exact {}
    | intro _
    | with_reducible apply Kept.updLcu

theorem Kept.testRuns {uu : Units} {zz s : State} (r : Retrain) (hk : Kept uu zz s) (hTst : uu.tst = true := by assumption)
    : Kept uu zz (State.testRuns s r) := by
  unfold State.testRuns
  repeat' first
    | with_reducible assumption
    | exact {}
    | intro _
    | extract_lets +onlyGivenNames _
    | split
    | (with_reducible apply Kept.update) <;> [assumption; exact {}]

theorem Kept.abortIfTest {uu : Units} {zz s : State} (r : Retrain) (hk : Kept uu zz s)
    (hHce : uu.hce = true := by assumption) (hRfx : uu.rfx = true := by assumption) (hTk : uu.tk = true := by assumption)
    (hKvt : uu.kvt = true := by assumption) (hBay : uu.bay = true := by assumption) (hXbr : uu.xbr = true := by assumption)
    (hPwr : uu.pwr = true := by assumption) (hLcu : uu.lcu = true := by assumption) (hTst : uu.tst = true := by assumption)
    (hOut : uu.out = true := by assumption) : Kept uu zz (State.abortIfTest s r) := by
  unfold State.abortIfTest
  repeat' first
    | with_reducible assumption
    | exact {}
    | intro _
    | with_reducible apply Kept.stopLive
    | split

theorem Kept.endRetrain {uu : Units} {zz s : State} (r : Retrain) (ok : Bool) (hk : Kept uu zz s)
    (hHce : uu.hce = true := by assumption) (hRge : uu.rge = true := by assumption) (hRfx : uu.rfx = true := by assumption)
    (hTk : uu.tk = true := by assumption) (hVsm : uu.vsm = true := by assumption) (hKvt : uu.kvt = true := by assumption)
    (hMbx : uu.mbx = true := by assumption) (hXbr : uu.xbr = true := by assumption) (hPwr : uu.pwr = true := by assumption)
    (hLcu : uu.lcu = true := by assumption) (hPmu : uu.pmu = true := by assumption) (hMac : uu.mac = true := by assumption)
    (hMoved : uu.moved = true := by assumption) (hOut : uu.out = true := by assumption) : Kept uu zz
    (State.endRetrain s r ok) := by
  unfold State.endRetrain
  repeat' first
    | with_reducible assumption
    | exact {}
    | intro _
    | (extract_lets +onlyGivenNames x; first | refine Kept.cut x ?_ ?_ <;> [subst x; (clear_value x; intro _)] | skip)
    | with_reducible apply Kept.updLcu
    | with_reducible apply Kept.bump
    | with_reducible apply Kept.moveIdent
    | with_reducible apply Kept.setFabPort
    | with_reducible apply Kept.portUp
    | with_reducible apply Kept.joinPeer
    | fail_if_no_progress (dsimp only [State.updLcu])
    | with_reducible refine Kept.foldl ?_ _ ?_
    | split
    | (with_reducible apply Kept.update) <;> [assumption; exact {}]

theorem Kept.noteScans {uu : Units} {zz s : State} (port : Nat) (scans : List ScanResult) (hk : Kept uu zz s)
    (hLcu : uu.lcu = true := by assumption) : Kept uu zz (State.noteScans s port scans) := by
  unfold State.noteScans
  repeat' first
    | with_reducible assumption
    | exact {}
    | intro _
    | extract_lets +onlyGivenNames _
    | with_reducible apply Kept.noteScan
    | with_reducible refine Kept.foldl ?_ _ ?_

theorem Kept.lnqryWrite {uu : Units} {zz s : State} (w : Word) (hk : Kept uu zz s) (hLcu : uu.lcu = true := by assumption)
    (hCfg : uu.cfg = true := by assumption) : Kept uu zz (State.lnqryWrite s w) := by
  have key : ∀ v : Word, Kept uu zz ((s.putReg Reg.lcuLnqry (w &&& regKept Reg.lcuLnqry)).updLcu (fun l => { l with lnData := v })) :=
    fun v => Kept.updLcu _ (fun _ => {}) (Kept.putReg _ _ hk)
  unfold State.lnqryWrite
  dsimp only
  split
  · exact hk
  · exact key _

/-! ## The commands -/

theorem KeptBy.marginScan {uu : Units} {zz s : State} (lane : Nat) (hk : Kept uu zz s)
    (hLcu : uu.lcu = true := by assumption) :
    KeptBy uu zz (execMarginScan lane s) := by
  unfold execMarginScan
  repeat' first
    | with_reducible assumption
    | exact {}
    | intro _
    | extract_lets +onlyGivenNames _
    | with_reducible refine KeptBy.next ?_
    | with_reducible apply Kept.putLane
    | split

theorem KeptBy.marginScanComplete {uu : Units} {zz s : State} (lane : Nat) (r : ScanResult) (hk : Kept uu zz s)
    (hHce : uu.hce = true := by assumption) (hRfu : uu.rfu = true := by assumption) (hRge : uu.rge = true := by assumption)
    (hRfx : uu.rfx = true := by assumption) (hTk : uu.tk = true := by assumption) (hKvt : uu.kvt = true := by assumption)
    (hBay : uu.bay = true := by assumption) (hXbr : uu.xbr = true := by assumption) (hPwr : uu.pwr = true := by assumption)
    (hLcu : uu.lcu = true := by assumption) (hPmu : uu.pmu = true := by assumption)
    (hMoved : uu.moved = true := by assumption) (hOut : uu.out = true := by assumption)
    (hFree : uu.free = true := by assumption) :
    KeptBy uu zz (execMarginScanComplete lane r s) := by
  unfold execMarginScanComplete
  repeat' first
    | with_reducible assumption
    | exact {}
    | intro _
    | extract_lets +onlyGivenNames _
    | with_reducible refine KeptBy.next ?_
    | with_reducible apply Kept.putLane
    | with_reducible apply Kept.noteScan
    | with_reducible apply Kept.judgePort
    | split

theorem KeptBy.relearnWaitExpiry {uu : Units} {zz s : State} (hk : Kept uu zz s) (hLcu : uu.lcu = true := by assumption) :
    KeptBy uu zz (execRelearnWaitExpiry s) := by
  unfold execRelearnWaitExpiry
  repeat' first
    | with_reducible assumption
    | exact {}
    | intro _
    | extract_lets +onlyGivenNames _
    | with_reducible refine KeptBy.next ?_
    | with_reducible apply Kept.updRetrain
    | split

theorem KeptBy.egressDrained {uu : Units} {zz s : State} (hk : Kept uu zz s) (hLcu : uu.lcu = true := by assumption)
    (hTst : uu.tst = true := by assumption) (hMac : uu.mac = true := by assumption) :
    KeptBy uu zz (execEgressDrained s) := by
  unfold execEgressDrained
  repeat' first
    | with_reducible assumption
    | exact {}
    | intro _
    | (extract_lets +onlyGivenNames x; first | refine Kept.cut x ?_ ?_ <;> [subst x; (clear_value x; intro _)] | refine KeptBy.cut x ?_ ?_ <;> [subst x; (clear_value x; intro _)] | skip)
    | with_reducible refine KeptBy.next ?_
    | with_reducible apply Kept.updRetrain
    | with_reducible apply Kept.testRuns
    | split
    | (with_reducible apply Kept.update) <;> [assumption; exact {}]

theorem KeptBy.routeMoveWait {uu : Units} {zz s : State} (hk : Kept uu zz s) (hHce : uu.hce = true := by assumption)
    (hRge : uu.rge = true := by assumption) (hRfx : uu.rfx = true := by assumption) (hTk : uu.tk = true := by assumption)
    (hVsm : uu.vsm = true := by assumption) (hKvt : uu.kvt = true := by assumption) (hMbx : uu.mbx = true := by assumption)
    (hBay : uu.bay = true := by assumption) (hProps : uu.props = true := by assumption)
    (hXbr : uu.xbr = true := by assumption) (hSep : uu.sep = true := by assumption) (hPwr : uu.pwr = true := by assumption)
    (hLcu : uu.lcu = true := by assumption) (hPmu : uu.pmu = true := by assumption) (hTst : uu.tst = true := by assumption)
    (hMoved : uu.moved = true := by assumption) (hOut : uu.out = true := by assumption) :
    KeptBy uu zz (execRouteMoveWait s) := by
  unfold execRouteMoveWait
  repeat' first
    | with_reducible assumption
    | exact {}
    | intro _
    | (extract_lets +onlyGivenNames x; first | refine Kept.cut x ?_ ?_ <;> [subst x; (clear_value x; intro _)] | refine KeptBy.cut x ?_ ?_ <;> [subst x; (clear_value x; intro _)] | skip)
    | with_reducible refine KeptBy.next ?_
    | with_reducible apply Kept.updRetrain
    | with_reducible apply Kept.portDown
    | with_reducible apply Kept.setFabPort
    | with_reducible apply Kept.testRuns
    | split

theorem KeptBy.retrainNoticeTimeout {uu : Units} {zz s : State} (hk : Kept uu zz s) (hHce : uu.hce = true := by assumption)
    (hRfx : uu.rfx = true := by assumption) (hTk : uu.tk = true := by assumption) (hKvt : uu.kvt = true := by assumption)
    (hBay : uu.bay = true := by assumption) (hXbr : uu.xbr = true := by assumption) (hPwr : uu.pwr = true := by assumption)
    (hLcu : uu.lcu = true := by assumption) (hTst : uu.tst = true := by assumption)
    (hMoved : uu.moved = true := by assumption) (hOut : uu.out = true := by assumption) :
    KeptBy uu zz (execRetrainNoticeTimeout s) := by
  unfold execRetrainNoticeTimeout
  repeat' first
    | with_reducible assumption
    | exact {}
    | intro _
    | extract_lets +onlyGivenNames _
    | with_reducible refine KeptBy.next ?_
    | with_reducible apply Kept.notice
    | with_reducible apply Kept.abortIfTest
    | with_reducible apply Kept.updLcu
    | with_reducible apply Kept.deferRetrain
    | fail_if_no_progress (dsimp only [State.updLcu])
    | split
    | (with_reducible apply Kept.update) <;> [assumption; exact {}]
    | refine Kept.ofPair (by assumption) ?_
    | refine Kept.ofPair' (by assumption) ?_
    | (with_reducible apply Kept.update) <;> [refine Kept.ofPair (by assumption) ?_; exact {}]
    | fail_if_no_progress ((with_reducible apply Kept.update) <;> [skip; exact {}])

theorem KeptBy.retrainCheck {uu : Units} {zz s : State} (scans : List ScanResult) (hk : Kept uu zz s)
    (hHce : uu.hce = true := by assumption) (hRge : uu.rge = true := by assumption) (hRfx : uu.rfx = true := by assumption)
    (hTk : uu.tk = true := by assumption) (hVsm : uu.vsm = true := by assumption) (hKvt : uu.kvt = true := by assumption)
    (hMbx : uu.mbx = true := by assumption) (hXbr : uu.xbr = true := by assumption) (hPwr : uu.pwr = true := by assumption)
    (hLcu : uu.lcu = true := by assumption) (hPmu : uu.pmu = true := by assumption) (hMac : uu.mac = true := by assumption)
    (hMoved : uu.moved = true := by assumption) (hOut : uu.out = true := by assumption) :
    KeptBy uu zz (execRetrainCheck scans s) := by
  unfold execRetrainCheck
  repeat' first
    | with_reducible assumption
    | exact {}
    | intro _
    | extract_lets +onlyGivenNames _
    | with_reducible refine KeptBy.next ?_
    | with_reducible apply Kept.noteScans
    | with_reducible apply Kept.endRetrain
    | split

theorem KeptBy.parkedRetry {uu : Units} {zz s : State} (port : Nat) (hk : Kept uu zz s)
    (hLcu : uu.lcu = true := by assumption) :
    KeptBy uu zz (execParkedRetry port s) := by
  unfold execParkedRetry
  repeat' first
    | with_reducible assumption
    | exact {}
    | intro _
    | extract_lets +onlyGivenNames _
    | with_reducible refine KeptBy.next ?_
    | with_reducible apply Kept.updLcu
    | fail_if_no_progress (dsimp only [State.updLcu])
    | split
    | (with_reducible apply Kept.update) <;> [assumption; exact {}]

theorem KeptBy.drivePortRetrainEnd {uu : Units} {zz s : State} (port : Nat) (ok : Bool) (hk : Kept uu zz s)
    (hHce : uu.hce = true := by assumption) (hRfu : uu.rfu = true := by assumption) (hRge : uu.rge = true := by assumption)
    (hRfx : uu.rfx = true := by assumption) (hKvt : uu.kvt = true := by assumption) (hBay : uu.bay = true := by assumption)
    (hXbr : uu.xbr = true := by assumption) (hPwr : uu.pwr = true := by assumption) (hLcu : uu.lcu = true := by assumption)
    (hPmu : uu.pmu = true := by assumption) (hMoved : uu.moved = true := by assumption)
    (hOut : uu.out = true := by assumption) (hFree : uu.free = true := by assumption) :
    KeptBy uu zz (execDrivePortRetrainEnd port ok s) := by
  unfold execDrivePortRetrainEnd
  repeat' first
    | with_reducible assumption
    | exact {}
    | intro _
    | (extract_lets +onlyGivenNames x; first | refine Kept.cut x ?_ ?_ <;> [subst x; (clear_value x; intro _)] | refine KeptBy.cut x ?_ ?_ <;> [subst x; (clear_value x; intro _)] | skip)
    | with_reducible refine KeptBy.next ?_
    | with_reducible apply Kept.bump
    | with_reducible apply Kept.endDpRun
    | with_reducible apply Kept.train
    | split

theorem HbmCal.turn_lastPass_length (h : HbmCal) (now : Nat) : (h.turn now).lastPass.length = h.lastPass.length := by
  unfold HbmCal.turn
  split
  · exact length_setAt _ _ _
  · rfl

theorem Kept.hbmTurn {uu : Units} {zz s : State} (f : LcuSt → HbmCal) (now : Nat) (e : ∀ l, (f l).lastPass = l.hbm.lastPass)
    (hk : Kept uu zz s) (hLcu : uu.lcu = true := by assumption) :
    Kept uu zz (s.updLcu (fun l => { l with hbm := (f l).turn now })) :=
  hk.like { hbmStacks := fun h => (HbmCal.turn_lastPass_length _ _).trans ((congrArg List.length (e _)).trans h) }

theorem KeptBy.hbmPass {uu : Units} {zz s : State} (stack : Nat) (temp : Int) (hk : Kept uu zz s)
    (hLcu : uu.lcu = true := by assumption) : KeptBy uu zz (execHbmPass stack temp s) := by
  have k := Kept.hbmTurn (fun l => { l.hbm with waiting := l.hbm.waiting.filter (fun w => w.1 ≠ stack) ++ [(stack, temp)] }) s.now
    (fun _ => rfl) hk
  unfold execHbmPass
  dsimp only
  split <;> split <;> first | exact KeptBy.next k | exact KeptBy.next hk

theorem KeptBy.hbmSlice {uu : Units} {zz s : State} (hk : Kept uu zz s) (hPwr : uu.pwr = true := by assumption)
    (hLcu : uu.lcu = true := by assumption) (hMoved : uu.moved = true := by assumption) : KeptBy uu zz
    (execHbmSlice s) := by
  unfold execHbmSlice
  split
  · exact KeptBy.next (Kept.hbmTurn (fun l => { l.hbm with pc := _, pass := _ }) s.now (fun _ => rfl) hk)
  · split
    · exact KeptBy.next (Kept.updLcu _ (fun _ => {}) hk)
    · refine KeptBy.next ?_
      have h1 := fun f hf => Kept.bump Reg.lcuHbmrt (Kept.updLcu (s := s) f hf hk)
      dsimp only
      split
      · exact Kept.shedStacks _ (h1 _ (fun _ => {}))
      · split
        · exact Kept.shedStacks _ (h1 _ (fun _ => {}))
        · exact h1 _ (fun _ => {})

theorem KeptBy.eccBurst {uu : Units} {zz s : State} (pc : Nat) (hk : Kept uu zz s) (hLcu : uu.lcu = true := by assumption) :
    KeptBy uu zz (execEccBurst pc s) := by
  unfold execEccBurst
  repeat' first
    | with_reducible assumption
    | exact {}
    | intro _
    | extract_lets +onlyGivenNames _
    | with_reducible refine KeptBy.next ?_
    | with_reducible apply Kept.updLcu
    | fail_if_no_progress (dsimp only [State.updLcu])
    | split
    | (with_reducible apply Kept.update) <;> [assumption; exact {}]

theorem KeptBy.chopAverage {uu : Units} {zz s : State} (channel : Nat) (microvolt : Int) (hk : Kept uu zz s)
    (hLcu : uu.lcu = true := by assumption) (hMoved : uu.moved = true := by assumption) :
    KeptBy uu zz (execChopAverage channel microvolt s) := by
  unfold execChopAverage
  repeat' first
    | with_reducible assumption
    | exact {}
    | intro _
    | (extract_lets +onlyGivenNames x; first | refine Kept.cut x ?_ ?_ <;> [subst x; (clear_value x; intro _)] | refine KeptBy.cut x ?_ ?_ <;> [subst x; (clear_value x; intro _)] | skip)
    | with_reducible refine KeptBy.next ?_
    | with_reducible apply Kept.updLcu
    | with_reducible apply Kept.raiseFlag
    | fail_if_no_progress (dsimp only [State.updLcu])
    | split

theorem KeptBy.sensorTrim {uu : Units} {zz s : State} (differences : List Int) (hk : Kept uu zz s)
    (hLcu : uu.lcu = true := by assumption) :
    KeptBy uu zz (execSensorTrim differences s) := by
  unfold execSensorTrim
  repeat' first
    | with_reducible assumption
    | exact {}
    | intro _
    | extract_lets +onlyGivenNames _
    | with_reducible refine KeptBy.next ?_
    | with_reducible apply Kept.updLcu
    | fail_if_no_progress (dsimp only [State.updLcu])
    | split
    | (with_reducible apply Kept.update) <;> [assumption; exact {}]

end Sys2Proof.Machine
end

