-- ==== Sys2Proof/Laws/KeptTest.lean ====
section
/-! SUPPORT. `Kept` for the operations of Machine/Test.lean. -/

set_option Elab.async false

namespace Sys2Proof.Machine

theorem Kept.updTst {uu : Units} {zz s : State} (f : TstSt → TstSt) (hk : Kept uu zz s)
    (hTst : uu.tst = true := by assumption) : Kept uu zz (State.updTst s f) := by
  unfold State.updTst
  repeat' first
    | with_reducible assumption
    | exact {}
    | intro _
    | split
    | (with_reducible apply Kept.update) <;> [assumption; exact {}]

theorem Kept.startLive {uu : Units} {zz s : State} (t : Nat) (u : Nat) (param : Nat) (hk : Kept uu zz s)
    (hHce : uu.hce = true := by assumption) (hRfu : uu.rfu = true := by assumption) (hRge : uu.rge = true := by assumption)
    (hRfx : uu.rfx = true := by assumption) (hTk : uu.tk = true := by assumption) (hKvt : uu.kvt = true := by assumption)
    (hBay : uu.bay = true := by assumption) (hXbr : uu.xbr = true := by assumption) (hPwr : uu.pwr = true := by assumption)
    (hLcu : uu.lcu = true := by assumption) (hPmu : uu.pmu = true := by assumption) (hTst : uu.tst = true := by assumption)
    (hMoved : uu.moved = true := by assumption) (hOut : uu.out = true := by assumption)
    (hFree : uu.free = true := by assumption) : Kept uu zz (State.startLive s t u param) := by
  unfold State.startLive
  repeat' first
    | with_reducible assumption
    | exact {}
    | intro _
    | (extract_lets +onlyGivenNames x; first | refine Kept.cut x ?_ ?_ <;> [subst x; (clear_value x; intro _)] | skip)
    | with_reducible apply Kept.updTst
    | with_reducible apply Kept.putResult
    | with_reducible apply Kept.applyWt
    | with_reducible apply Kept.holdWake
    | with_reducible apply Kept.beginRetrain
    | with_reducible apply Kept.beginDpRun
    | with_reducible apply Kept.powerOff
    | with_reducible apply Kept.setBay
    | with_reducible apply Kept.updKvt
    | fail_if_no_progress (dsimp only [State.updKvt])
    | split
    | (with_reducible apply Kept.update) <;> [assumption; exact {}]

theorem Kept.closeLive {uu : Units} {zz s : State} (l : LiveTest) (pass : Bool) (code : Nat) (errors : Nat) (where_ : Nat)
    (hk : Kept uu zz s) (hTst : uu.tst = true := by assumption) : Kept uu zz
    (State.closeLive s l pass code errors where_) := by
  unfold State.closeLive
  repeat' first
    | with_reducible assumption
    | exact {}
    | intro _
    | extract_lets +onlyGivenNames _
    | with_reducible apply Kept.updTst
    | with_reducible apply Kept.putResult

/-! ## The commands -/

theorem KeptBy.testStart {uu : Units} {zz s : State} (m : Master) (hk : Kept uu zz s)
    (hHce : uu.hce = true := by assumption) (hRfu : uu.rfu = true := by assumption) (hRge : uu.rge = true := by assumption)
    (hRfx : uu.rfx = true := by assumption) (hTk : uu.tk = true := by assumption) (hKvt : uu.kvt = true := by assumption)
    (hMbx : uu.mbx = true := by assumption) (hBay : uu.bay = true := by assumption) (hXbr : uu.xbr = true := by assumption)
    (hPwr : uu.pwr = true := by assumption) (hLcu : uu.lcu = true := by assumption) (hPmu : uu.pmu = true := by assumption)
    (hTst : uu.tst = true := by assumption) (hMoved : uu.moved = true := by assumption)
    (hOut : uu.out = true := by assumption) (hFree : uu.free = true := by assumption) :
    KeptBy uu zz (execTestStart m s) := by
  unfold execTestStart
  repeat' first
    | with_reducible assumption
    | exact {}
    | intro _
    | (extract_lets +onlyGivenNames x; first | refine Kept.cut x ?_ ?_ <;> [subst x; (clear_value x; intro _)] | refine KeptBy.cut x ?_ ?_ <;> [subst x; (clear_value x; intro _)] | skip)
    | with_reducible refine KeptBy.next ?_
    | with_reducible apply Kept.runCmd
    | with_reducible apply Kept.checked
    | with_reducible apply Kept.finish
    | with_reducible apply Kept.beginRestart
    | with_reducible apply Kept.startLive
    | split

theorem KeptBy.testStop {uu : Units} {zz s : State} (m : Master) (hk : Kept uu zz s) (hHce : uu.hce = true := by assumption)
    (hRge : uu.rge = true := by assumption) (hSnt : uu.snt = true := by assumption) (hRfx : uu.rfx = true := by assumption)
    (hTk : uu.tk = true := by assumption) (hKvt : uu.kvt = true := by assumption) (hMbx : uu.mbx = true := by assumption)
    (hBay : uu.bay = true := by assumption) (hXbr : uu.xbr = true := by assumption) (hPwr : uu.pwr = true := by assumption)
    (hLcu : uu.lcu = true := by assumption) (hPmu : uu.pmu = true := by assumption) (hTst : uu.tst = true := by assumption)
    (hMoved : uu.moved = true := by assumption) (hOut : uu.out = true := by assumption) :
    KeptBy uu zz (execTestStop m s) := by
  unfold execTestStop
  repeat' first
    | with_reducible assumption
    | exact {}
    | intro _
    | (extract_lets +onlyGivenNames x; first | refine Kept.cut x ?_ ?_ <;> [subst x; (clear_value x; intro _)] | refine KeptBy.cut x ?_ ?_ <;> [subst x; (clear_value x; intro _)] | skip)
    | with_reducible refine KeptBy.next ?_
    | with_reducible apply Kept.runCmd
    | with_reducible apply Kept.finish
    | with_reducible apply Kept.boot
    | with_reducible apply Kept.stopLive
    | split

theorem KeptBy.testResult {uu : Units} {zz s : State} (m : Master) (hk : Kept uu zz s)
    (hMbx : uu.mbx = true := by assumption) (hMoved : uu.moved = true := by assumption)
    (hOut : uu.out = true := by assumption) :
    KeptBy uu zz (execTestResult m s) := by
  unfold execTestResult
  repeat' first
    | with_reducible assumption
    | exact {}
    | intro _
    | extract_lets +onlyGivenNames _
    | with_reducible refine KeptBy.next ?_
    | with_reducible apply Kept.runCmd
    | with_reducible apply Kept.checked
    | with_reducible apply Kept.finish

theorem KeptBy.liveTestEnd {uu : Units} {zz s : State} (r : TestOutcome) (hk : Kept uu zz s)
    (hHce : uu.hce = true := by assumption) (hRge : uu.rge = true := by assumption) (hRfx : uu.rfx = true := by assumption)
    (hTk : uu.tk = true := by assumption) (hVsm : uu.vsm = true := by assumption) (hKvt : uu.kvt = true := by assumption)
    (hMbx : uu.mbx = true := by assumption) (hBay : uu.bay = true := by assumption) (hXbr : uu.xbr = true := by assumption)
    (hPwr : uu.pwr = true := by assumption) (hLcu : uu.lcu = true := by assumption) (hPmu : uu.pmu = true := by assumption)
    (hTst : uu.tst = true := by assumption) (hMac : uu.mac = true := by assumption)
    (hMoved : uu.moved = true := by assumption) (hOut : uu.out = true := by assumption) :
    KeptBy uu zz (execLiveTestEnd r s) := by
  unfold execLiveTestEnd
  repeat' first
    | with_reducible assumption
    | exact {}
    | intro _
    | extract_lets +onlyGivenNames _
    | with_reducible refine KeptBy.next ?_
    | with_reducible apply Kept.closeLive
    | with_reducible apply Kept.endRetrain
    | with_reducible apply Kept.train
    | with_reducible apply Kept.updKvt
    | with_reducible apply Kept.updTst
    | fail_if_no_progress (dsimp only [State.updKvt])
    | split
    | (with_reducible apply Kept.update) <;> [assumption; exact {}]
    | refine Kept.ofPair (by assumption) ?_
    | refine Kept.ofPair' (by assumption) ?_
    | (with_reducible apply Kept.update) <;> [refine Kept.ofPair (by assumption) ?_; exact {}]
    | fail_if_no_progress ((with_reducible apply Kept.update) <;> [skip; exact {}])

theorem KeptBy.hbmpcPiece {uu : Units} {zz s : State} (errors : Nat) (hk : Kept uu zz s)
    (hTst : uu.tst = true := by assumption) :
    KeptBy uu zz (execHbmpcPiece errors s) := by
  unfold execHbmpcPiece
  repeat' first
    | with_reducible assumption
    | exact {}
    | intro _
    | extract_lets +onlyGivenNames _
    | with_reducible refine KeptBy.next ?_
    | with_reducible apply Kept.updTst
    | with_reducible apply Kept.closeLive
    | split

theorem KeptBy.bayTestVoutCheck {uu : Units} {zz s : State} (millivolt : Nat) (hk : Kept uu zz s)
    (hBay : uu.bay = true := by assumption) (hTst : uu.tst = true := by assumption) :
    KeptBy uu zz (execBayTestVoutCheck millivolt s) := by
  unfold execBayTestVoutCheck
  repeat' first
    | with_reducible assumption
    | exact {}
    | intro _
    | extract_lets +onlyGivenNames _
    | with_reducible refine KeptBy.next ?_
    | with_reducible apply Kept.setBay
    | with_reducible apply Kept.closeLive
    | with_reducible apply Kept.updTst
    | split
    | (with_reducible apply Kept.update) <;> [assumption; exact {}]
    | refine Kept.ofPair (by assumption) ?_
    | refine Kept.ofPair' (by assumption) ?_
    | (with_reducible apply Kept.update) <;> [refine Kept.ofPair (by assumption) ?_; exact {}]
    | fail_if_no_progress ((with_reducible apply Kept.update) <;> [skip; exact {}])
    | dsimp +zetaDelta only

theorem KeptBy.tapInstruction {uu : Units} {zz s : State} (i : TapInstr) (hk : Kept uu zz s)
    (hOut : uu.out = true := by assumption) :
    KeptBy uu zz (execTapInstruction i s) := by
  unfold execTapInstruction
  repeat' first
    | with_reducible assumption
    | exact {}
    | intro _
    | extract_lets +onlyGivenNames _
    | with_reducible refine KeptBy.next ?_
    | with_reducible apply Kept.emit
    | split

theorem KeptBy.timeBaseSet {uu : Units} {zz s : State} (hk : Kept uu zz s) (hMac : uu.mac = true := by assumption) :
    KeptBy uu zz (execTimeBaseSet s) := by
  unfold execTimeBaseSet
  repeat' first
    | with_reducible assumption
    | exact {}
    | intro _
    | extract_lets +onlyGivenNames _
    | with_reducible refine KeptBy.next ?_
    | with_reducible apply Kept.timeSet

theorem KeptBy.timeBaseLatch {uu : Units} {zz s : State} (hk : Kept uu zz s) (hCfg : uu.cfg = true := by assumption) :
    KeptBy uu zz (execTimeBaseLatch s) := by
  unfold execTimeBaseLatch
  repeat' first
    | with_reducible assumption
    | exact {}
    | intro _
    | extract_lets +onlyGivenNames _
    | with_reducible refine KeptBy.next ?_
    | with_reducible apply Kept.timeLatch

end Sys2Proof.Machine
end

