-- ==== Sys2Proof/Laws/KeptRegisters.lean ====
section
/-! SUPPORT. `Kept` for the operations of Machine/Registers.lean. -/

set_option Elab.async false

namespace Sys2Proof.Machine

theorem Kept.regEvent {uu : Units} {zz s : State} (m : Master) (a : Nat) (cls : Nat) (hk : Kept uu zz s)
    (hPmu : uu.pmu = true := by assumption) (hMoved : uu.moved = true := by assumption) : Kept uu zz
    (State.regEvent s m a cls) := by
  unfold State.regEvent
  repeat' first
    | with_reducible assumption
    | exact {}
    | intro _
    | with_reducible apply Kept.count

theorem Kept.clearRc {uu : Units} {zz s : State} (a : Nat) (hk : Kept uu zz s) (hPpc : uu.ppc = true := by assumption)
    (hCfg : uu.cfg = true := by assumption) : Kept uu zz (State.clearRc s a) := by
  unfold State.clearRc
  repeat' first
    | with_reducible assumption
    | exact {}
    | intro _
    | extract_lets +onlyGivenNames _
    | with_reducible apply Kept.setPolicer
    | with_reducible apply Kept.putReg
    | split

theorem Kept.afterRead {uu : Units} {zz s : State} (a : Nat) (hk : Kept uu zz s) (hPpc : uu.ppc = true := by assumption)
    (hPmu : uu.pmu = true := by assumption) (hCfg : uu.cfg = true := by assumption)
    (hFree : uu.free = true := by assumption) : Kept uu zz (State.afterRead s a) := by
  unfold State.afterRead
  repeat' first
    | with_reducible assumption
    | exact {}
    | intro _
    | (extract_lets +onlyGivenNames x; first | refine Kept.cut x ?_ ?_ <;> [subst x; (clear_value x; intro _)] | skip)
    | with_reducible apply Kept.clearRc
    | with_reducible apply Kept.pmuTouch
    | with_reducible apply Kept.freeBy
    | split

theorem Kept.regRead {uu : Units} {zz s : State} (m : Master) (a : Nat) (hk : Kept uu zz s)
    (hPpc : uu.ppc = true := by assumption) (hPmu : uu.pmu = true := by assumption)
    (hMoved : uu.moved = true := by assumption) (hCfg : uu.cfg = true := by assumption)
    (hFree : uu.free = true := by assumption) : Kept uu zz (State.regRead s m a).2 := by
  unfold State.regRead
  repeat' first
    | with_reducible assumption
    | exact {}
    | intro _
    | extract_lets +onlyGivenNames _
    | with_reducible apply Kept.afterRead
    | with_reducible apply Kept.regEvent

theorem Kept.plainWrite {uu : Units} {zz s : State} (a : Nat) (w : Word) (hk : Kept uu zz s)
    (hCfg : uu.cfg = true := by assumption) : Kept uu zz (State.plainWrite s a w) := by
  unfold State.plainWrite
  repeat' first
    | with_reducible assumption
    | exact {}
    | intro _
    | with_reducible apply Kept.putReg
    | split

theorem Kept.rstatWrite {uu : Units} {zz s : State} (ring : Nat) (w : Word) (hk : Kept uu zz s)
    (hRge : uu.rge = true := by assumption) (hRfx : uu.rfx = true := by assumption) (hXbr : uu.xbr = true := by assumption)
    (hPmu : uu.pmu = true := by assumption) (hMoved : uu.moved = true := by assumption)
    (hOut : uu.out = true := by assumption) : Kept uu zz (State.rstatWrite s ring w) := by
  unfold State.rstatWrite
  repeat' first
    | with_reducible assumption
    | exact {}
    | intro _
    | (extract_lets +onlyGivenNames x; first | refine Kept.cut x ?_ ?_ <;> [subst x; (clear_value x; intro _)] | skip)
    | with_reducible apply Kept.updRing
    | with_reducible apply Kept.sendHeader
    | split

theorem Kept.shaperWrite {uu : Units} {zz s : State} (f : Shaper → Shaper) (hk : Kept uu zz s)
    (hXbr : uu.xbr = true := by assumption) : Kept uu zz (State.shaperWrite s f) := by
  unfold State.shaperWrite
  repeat' first
    | with_reducible assumption
    | exact {}
    | intro _
    | extract_lets +onlyGivenNames _
    | with_reducible apply Kept.setShaper
    | split

theorem Kept.shaperRegWrite {uu : Units} {zz s : State} (a : Nat) (w : Word) (hk : Kept uu zz s)
    (hXbr : uu.xbr = true := by assumption) : Kept uu zz (State.shaperRegWrite s a w) := by
  unfold State.shaperRegWrite
  repeat' first
    | with_reducible assumption
    | exact {}
    | intro _
    | extract_lets +onlyGivenNames _
    | with_reducible apply Kept.shaperWrite
    | split

theorem Kept.pfcWrite {uu : Units} {zz s : State} (a : Nat) (port : Nat) (w : Word) (hk : Kept uu zz s)
    (hXbr : uu.xbr = true := by assumption) (hCfg : uu.cfg = true := by assumption) (hOut : uu.out = true := by assumption)
    : Kept uu zz (State.pfcWrite s a port w) := by
  unfold State.pfcWrite
  repeat' first
    | with_reducible assumption
    | exact {}
    | intro _
    | extract_lets +onlyGivenNames _
    | with_reducible apply Kept.pfcJudge
    | with_reducible apply Kept.plainWrite
    | with_reducible refine Kept.foldl ?_ _ ?_

theorem Kept.exrateWrite {uu : Units} {zz s : State} (a : Nat) (w : Word) (hk : Kept uu zz s)
    (hPpc : uu.ppc = true := by assumption) (hCfg : uu.cfg = true := by assumption) : Kept uu zz
    (State.exrateWrite s a w) := by
  unfold State.exrateWrite
  repeat' first
    | with_reducible assumption
    | exact {}
    | intro _
    | extract_lets +onlyGivenNames _
    | with_reducible apply Kept.plainWrite
    | with_reducible apply Kept.setExLevel

theorem Kept.twctlWrite {uu : Units} {zz s : State} (w : Word) (hk : Kept uu zz s) (hPpc : uu.ppc = true := by assumption)
    (hMoved : uu.moved = true := by assumption) (hCfg : uu.cfg = true := by assumption) : Kept uu zz
    (State.twctlWrite s w) := by
  unfold State.twctlWrite
  repeat' first
    | with_reducible assumption
    | exact {}
    | intro _
    | (extract_lets +onlyGivenNames x; refine Kept.cut x ?_ ?_ <;> [subst x; (clear_value x; intro _)])
    | with_reducible apply Kept.plainWrite
    | with_reducible apply Kept.tableCommit
    | with_reducible apply Kept.tableRead
    | with_reducible apply Kept.batchStart
    | with_reducible apply Kept.batchEnd
    | split

theorem Kept.updcfgWrite {uu : Units} {zz s : State} (w : Word) (hk : Kept uu zz s) (hPpc : uu.ppc = true := by assumption)
    (hCfg : uu.cfg = true := by assumption) : Kept uu zz (State.updcfgWrite s w) := by
  unfold State.updcfgWrite
  repeat' first
    | with_reducible assumption
    | exact {}
    | intro _
    | (extract_lets +onlyGivenNames x; first | refine Kept.cut x ?_ ?_ <;> [subst x; (clear_value x; intro _)] | skip)
    | with_reducible apply Kept.plainWrite
    | split
    | (with_reducible apply Kept.update) <;> [assumption; exact {}]

theorem Kept.pcfgWrite {uu : Units} {zz s : State} (a : Nat) (w : Word) (hk : Kept uu zz s)
    (hHce : uu.hce = true := by assumption) (hRge : uu.rge = true := by assumption) (hRfx : uu.rfx = true := by assumption)
    (hTk : uu.tk = true := by assumption) (hVsm : uu.vsm = true := by assumption) (hKvt : uu.kvt = true := by assumption)
    (hMbx : uu.mbx = true := by assumption) (hBay : uu.bay = true := by assumption)
    (hProps : uu.props = true := by assumption) (hXbr : uu.xbr = true := by assumption)
    (hSep : uu.sep = true := by assumption) (hPwr : uu.pwr = true := by assumption) (hLcu : uu.lcu = true := by assumption)
    (hPmu : uu.pmu = true := by assumption) (hTst : uu.tst = true := by assumption) (hMac : uu.mac = true := by assumption)
    (hMoved : uu.moved = true := by assumption) (hCfg : uu.cfg = true := by assumption)
    (hOut : uu.out = true := by assumption) : Kept uu zz (State.pcfgWrite s a w) := by
  unfold State.pcfgWrite
  repeat' first
    | with_reducible assumption
    | exact {}
    | intro _
    | (extract_lets +onlyGivenNames x; refine Kept.cut x ?_ ?_ <;> [subst x; (clear_value x; intro _)])
    | with_reducible apply Kept.plainWrite
    | with_reducible apply Kept.pcsDown
    | split

theorem Kept.rfxCfgWrite {uu : Units} {zz s : State} (w : Word) (hk : Kept uu zz s) (hHce : uu.hce = true := by assumption)
    (hRge : uu.rge = true := by assumption) (hRfx : uu.rfx = true := by assumption) (hTk : uu.tk = true := by assumption)
    (hVsm : uu.vsm = true := by assumption) (hKvt : uu.kvt = true := by assumption) (hMbx : uu.mbx = true := by assumption)
    (hBay : uu.bay = true := by assumption) (hProps : uu.props = true := by assumption)
    (hXbr : uu.xbr = true := by assumption) (hSep : uu.sep = true := by assumption) (hPwr : uu.pwr = true := by assumption)
    (hLcu : uu.lcu = true := by assumption) (hPmu : uu.pmu = true := by assumption) (hTst : uu.tst = true := by assumption)
    (hMac : uu.mac = true := by assumption) (hMoved : uu.moved = true := by assumption)
    (hCfg : uu.cfg = true := by assumption) (hOut : uu.out = true := by assumption) : Kept uu zz
    (State.rfxCfgWrite s w) := by
  unfold State.rfxCfgWrite
  repeat' first
    | with_reducible assumption
    | exact {}
    | intro _
    | (extract_lets +onlyGivenNames x; first | refine Kept.cut x ?_ ?_ <;> [subst x; (clear_value x; intro _)] | skip)
    | with_reducible apply Kept.plainWrite
    | with_reducible apply Kept.pcsDown
    | with_reducible refine Kept.foldl ?_ _ ?_
    | split

theorem Kept.mscfgWrite {uu : Units} {zz s : State} (a : Nat) (w : Word) (hk : Kept uu zz s)
    (hHce : uu.hce = true := by assumption) (hRge : uu.rge = true := by assumption) (hRfx : uu.rfx = true := by assumption)
    (hTk : uu.tk = true := by assumption) (hVsm : uu.vsm = true := by assumption) (hKvt : uu.kvt = true := by assumption)
    (hMbx : uu.mbx = true := by assumption) (hBay : uu.bay = true := by assumption)
    (hProps : uu.props = true := by assumption) (hXbr : uu.xbr = true := by assumption)
    (hSep : uu.sep = true := by assumption) (hPwr : uu.pwr = true := by assumption) (hLcu : uu.lcu = true := by assumption)
    (hPmu : uu.pmu = true := by assumption) (hTst : uu.tst = true := by assumption)
    (hMoved : uu.moved = true := by assumption) (hCfg : uu.cfg = true := by assumption)
    (hOut : uu.out = true := by assumption) : Kept uu zz (State.mscfgWrite s a w) := by
  unfold State.mscfgWrite
  repeat' first
    | with_reducible assumption
    | exact {}
    | intro _
    | (extract_lets +onlyGivenNames x; first | refine Kept.cut x ?_ ?_ <;> [subst x; (clear_value x; intro _)] | skip)
    | with_reducible apply Kept.plainWrite
    | with_reducible apply Kept.setMsPort
    | with_reducible apply Kept.portDown
    | split

theorem Kept.bufferWrite {uu : Units} {zz s : State} (a : Nat) (w : Word) (hk : Kept uu zz s)
    (hHce : uu.hce = true := by assumption) (hRfx : uu.rfx = true := by assumption) (hTk : uu.tk = true := by assumption)
    (hXbr : uu.xbr = true := by assumption) (hCfg : uu.cfg = true := by assumption) (hOut : uu.out = true := by assumption)
    : Kept uu zz (State.bufferWrite s a w) := by
  unfold State.bufferWrite
  repeat' first
    | with_reducible assumption
    | exact {}
    | intro _
    | extract_lets +onlyGivenNames _
    | with_reducible apply Kept.plainWrite
    | with_reducible apply Kept.recomputeCeil
    | with_reducible apply Kept.reroute

theorem Kept.tkcfgWrite {uu : Units} {zz s : State} (w : Word) (hk : Kept uu zz s) (hHce : uu.hce = true := by assumption)
    (hRfx : uu.rfx = true := by assumption) (hTk : uu.tk = true := by assumption) (hXbr : uu.xbr = true := by assumption)
    (hCfg : uu.cfg = true := by assumption) (hOut : uu.out = true := by assumption) : Kept uu zz
    (State.tkcfgWrite s w) := by
  unfold State.tkcfgWrite
  repeat' first
    | with_reducible assumption
    | exact {}
    | intro _
    | (extract_lets +onlyGivenNames x; first | refine Kept.cut x ?_ ?_ <;> [subst x; (clear_value x; intro _)] | skip)
    | with_reducible apply Kept.plainWrite
    | with_reducible apply Kept.reroute
    | with_reducible apply Kept.assertFence
    | split

theorem Kept.sepCfgWrite {uu : Units} {zz s : State} (w : Word) (hk : Kept uu zz s) (hMbx : uu.mbx = true := by assumption)
    (hSep : uu.sep = true := by assumption) (hMoved : uu.moved = true := by assumption)
    (hCfg : uu.cfg = true := by assumption) (hOut : uu.out = true := by assumption) : Kept uu zz
    (State.sepCfgWrite s w) := by
  unfold State.sepCfgWrite
  repeat' first
    | with_reducible assumption
    | exact {}
    | intro _
    | (extract_lets +onlyGivenNames x; refine Kept.cut x ?_ ?_ <;> [subst x; (clear_value x; intro _)])
    | with_reducible apply Kept.plainWrite
    | with_reducible apply Kept.sepDown
    | split

theorem Kept.tsctlWrite {uu : Units} {zz s : State} (w : Word) (hk : Kept uu zz s) (hMac : uu.mac = true := by assumption)
    (hCfg : uu.cfg = true := by assumption) : Kept uu zz (State.tsctlWrite s w) := by
  unfold State.tsctlWrite
  repeat' first
    | with_reducible assumption
    | exact {}
    | intro _
    | with_reducible apply Kept.timeSet
    | with_reducible apply Kept.timeLatch
    | split

theorem Kept.pmuRegWrite {uu : Units} {zz s : State} (a : Nat) (v : Nat) (o : Nat) (w : Word) (hk : Kept uu zz s)
    (hPmu : uu.pmu = true := by assumption) (hCfg : uu.cfg = true := by assumption) : Kept uu zz
    (State.pmuRegWrite s a v o w) := by
  unfold State.pmuRegWrite
  repeat' first
    | with_reducible assumption
    | exact {}
    | intro _
    | with_reducible apply Kept.pmuWrite
    | with_reducible apply Kept.plainWrite
    | split

theorem Kept.lowWrite {uu : Units} {zz s : State} (a : Nat) (w : Word) (hk : Kept uu zz s)
    (hHce : uu.hce = true := by assumption) (hRge : uu.rge = true := by assumption) (hRfx : uu.rfx = true := by assumption)
    (hTk : uu.tk = true := by assumption) (hVsm : uu.vsm = true := by assumption) (hKvt : uu.kvt = true := by assumption)
    (hMbx : uu.mbx = true := by assumption) (hBay : uu.bay = true := by assumption)
    (hProps : uu.props = true := by assumption) (hPpc : uu.ppc = true := by assumption)
    (hXbr : uu.xbr = true := by assumption) (hSep : uu.sep = true := by assumption) (hPwr : uu.pwr = true := by assumption)
    (hLcu : uu.lcu = true := by assumption) (hPmu : uu.pmu = true := by assumption) (hTst : uu.tst = true := by assumption)
    (hMac : uu.mac = true := by assumption) (hMoved : uu.moved = true := by assumption)
    (hCfg : uu.cfg = true := by assumption) (hOut : uu.out = true := by assumption) : Kept uu zz
    (State.lowWrite s a w) := by
  unfold State.lowWrite
  repeat' first
    | with_reducible assumption
    | exact {}
    | intro _
    | extract_lets +onlyGivenNames _
    | with_reducible apply Kept.plainWrite
    | with_reducible apply Kept.applyPolicy
    | with_reducible apply Kept.dpcrelWrite
    | with_reducible apply Kept.tsctlWrite
    | with_reducible apply Kept.timeRate
    | with_reducible apply Kept.pcfgWrite
    | with_reducible apply Kept.requestSwap
    | with_reducible apply Kept.twctlWrite
    | with_reducible apply Kept.updcfgWrite
    | with_reducible apply Kept.exrateWrite
    | with_reducible apply Kept.samplingWrite
    | with_reducible apply Kept.occWrite
    | with_reducible apply Kept.pfcWrite
    | with_reducible apply Kept.shaperRegWrite
    | with_reducible apply Kept.polcirWrite
    | with_reducible apply Kept.polbktWrite
    | with_reducible apply Kept.ite

theorem Kept.highWrite {uu : Units} {zz s : State} (a : Nat) (w : Word) (hk : Kept uu zz s)
    (hHce : uu.hce = true := by assumption) (hRge : uu.rge = true := by assumption) (hRfx : uu.rfx = true := by assumption)
    (hTk : uu.tk = true := by assumption) (hVsm : uu.vsm = true := by assumption) (hKvt : uu.kvt = true := by assumption)
    (hMbx : uu.mbx = true := by assumption) (hBay : uu.bay = true := by assumption)
    (hProps : uu.props = true := by assumption) (hXbr : uu.xbr = true := by assumption)
    (hSep : uu.sep = true := by assumption) (hPwr : uu.pwr = true := by assumption) (hLcu : uu.lcu = true := by assumption)
    (hPmu : uu.pmu = true := by assumption) (hTst : uu.tst = true := by assumption) (hMac : uu.mac = true := by assumption)
    (hMoved : uu.moved = true := by assumption) (hCfg : uu.cfg = true := by assumption)
    (hOut : uu.out = true := by assumption) : Kept uu zz (State.highWrite s a w) := by
  unfold State.highWrite
  repeat' first
    | with_reducible assumption
    | exact {}
    | intro _
    | extract_lets +onlyGivenNames _
    | with_reducible apply Kept.tagqryWrite
    | with_reducible apply Kept.bufferWrite
    | with_reducible apply Kept.ptqryWrite
    | with_reducible apply Kept.rstatWrite
    | with_reducible apply Kept.rfxCfgWrite
    | with_reducible apply Kept.rtqryWrite
    | with_reducible apply Kept.tkcfgWrite
    | with_reducible apply Kept.vsqryWrite
    | with_reducible apply Kept.mscfgWrite
    | with_reducible apply Kept.sepCfgWrite
    | with_reducible apply Kept.lnqryWrite
    | with_reducible apply Kept.pmuRegWrite
    | with_reducible apply Kept.plainWrite
    | with_reducible apply Kept.ite
    | split

theorem Kept.applyWrite {uu : Units} {zz s : State} (a : Nat) (w : Word) (hk : Kept uu zz s)
    (hHce : uu.hce = true := by assumption) (hRge : uu.rge = true := by assumption) (hRfx : uu.rfx = true := by assumption)
    (hTk : uu.tk = true := by assumption) (hVsm : uu.vsm = true := by assumption) (hKvt : uu.kvt = true := by assumption)
    (hMbx : uu.mbx = true := by assumption) (hBay : uu.bay = true := by assumption)
    (hProps : uu.props = true := by assumption) (hPpc : uu.ppc = true := by assumption)
    (hXbr : uu.xbr = true := by assumption) (hSep : uu.sep = true := by assumption) (hPwr : uu.pwr = true := by assumption)
    (hLcu : uu.lcu = true := by assumption) (hPmu : uu.pmu = true := by assumption) (hTst : uu.tst = true := by assumption)
    (hMac : uu.mac = true := by assumption) (hMoved : uu.moved = true := by assumption)
    (hCfg : uu.cfg = true := by assumption) (hOut : uu.out = true := by assumption) : Kept uu zz
    (State.applyWrite s a w) := by
  unfold State.applyWrite
  repeat' first
    | with_reducible assumption
    | exact {}
    | intro _
    | with_reducible apply Kept.lowWrite
    | with_reducible apply Kept.highWrite
    | split

theorem Kept.regWrite {uu : Units} {zz s : State} (m : Master) (a : Nat) (w : Word) (hk : Kept uu zz s)
    (hHce : uu.hce = true := by assumption) (hRge : uu.rge = true := by assumption) (hRfx : uu.rfx = true := by assumption)
    (hTk : uu.tk = true := by assumption) (hVsm : uu.vsm = true := by assumption) (hKvt : uu.kvt = true := by assumption)
    (hMbx : uu.mbx = true := by assumption) (hBay : uu.bay = true := by assumption)
    (hProps : uu.props = true := by assumption) (hPpc : uu.ppc = true := by assumption)
    (hXbr : uu.xbr = true := by assumption) (hSep : uu.sep = true := by assumption) (hPwr : uu.pwr = true := by assumption)
    (hLcu : uu.lcu = true := by assumption) (hPmu : uu.pmu = true := by assumption) (hTst : uu.tst = true := by assumption)
    (hMac : uu.mac = true := by assumption) (hMoved : uu.moved = true := by assumption)
    (hCfg : uu.cfg = true := by assumption) (hOut : uu.out = true := by assumption) : Kept uu zz
    (State.regWrite s m a w) := by
  unfold State.regWrite
  repeat' first
    | with_reducible assumption
    | exact {}
    | intro _
    | extract_lets +onlyGivenNames _
    | with_reducible apply Kept.applyWrite
    | with_reducible apply Kept.regEvent

theorem Kept.readWords {uu : Units} {zz : State} (m : Master) (n : Nat) (hMbx : uu.mbx = true := by assumption)
    (hPpc : uu.ppc = true := by assumption) (hPmu : uu.pmu = true := by assumption)
    (hMoved : uu.moved = true := by assumption) (hCfg : uu.cfg = true := by assumption)
    (hOut : uu.out = true := by assumption) (hFree : uu.free = true := by assumption) :
    ∀ (a : Nat) (acc : List Byte) {s : State}, Kept uu zz s → Kept uu zz (State.readWords m n a acc s) := by
  induction n with
  | zero => exact fun _ _ _ h => Kept.finish _ _ _ h
  | succ n ih =>
    intro a acc s hk
    unfold State.readWords
    split
    · exact Kept.finish _ _ _ hk
    · exact ih _ _ (Kept.regRead _ _ hk)

theorem Kept.writeWords {uu : Units} {zz : State} (m : Master) (ws : List Word) (hHce : uu.hce = true := by assumption)
    (hRge : uu.rge = true := by assumption) (hRfx : uu.rfx = true := by assumption) (hTk : uu.tk = true := by assumption)
    (hVsm : uu.vsm = true := by assumption) (hKvt : uu.kvt = true := by assumption) (hMbx : uu.mbx = true := by assumption)
    (hBay : uu.bay = true := by assumption) (hProps : uu.props = true := by assumption)
    (hPpc : uu.ppc = true := by assumption) (hXbr : uu.xbr = true := by assumption) (hSep : uu.sep = true := by assumption)
    (hPwr : uu.pwr = true := by assumption) (hLcu : uu.lcu = true := by assumption) (hPmu : uu.pmu = true := by assumption)
    (hTst : uu.tst = true := by assumption) (hMac : uu.mac = true := by assumption)
    (hMoved : uu.moved = true := by assumption) (hCfg : uu.cfg = true := by assumption)
    (hOut : uu.out = true := by assumption) :
    ∀ (a n : Nat) {s : State}, Kept uu zz s → Kept uu zz (State.writeWords m ws a n s) := by
  induction ws with
  | nil => exact fun _ _ _ h => Kept.finish _ _ _ h
  | cons w ws ih =>
    intro a n s hk
    unfold State.writeWords
    split
    · exact Kept.finish _ _ _ hk
    · split
      · exact Kept.keepRunning _ (Kept.regEvent _ _ _ (Kept.requestSwap _ hk))
      · dsimp only
        split
        · exact Kept.finish _ _ _ (Kept.regWrite _ _ _ hk)
        · exact ih _ _ (Kept.regWrite _ _ _ hk)

theorem Kept.resumeWrite {uu : Units} {zz s : State} (by_ : Option (Master × Nat)) (hk : Kept uu zz s)
    (hHce : uu.hce = true := by assumption) (hRge : uu.rge = true := by assumption) (hRfx : uu.rfx = true := by assumption)
    (hTk : uu.tk = true := by assumption) (hVsm : uu.vsm = true := by assumption) (hKvt : uu.kvt = true := by assumption)
    (hMbx : uu.mbx = true := by assumption) (hBay : uu.bay = true := by assumption)
    (hProps : uu.props = true := by assumption) (hPpc : uu.ppc = true := by assumption)
    (hXbr : uu.xbr = true := by assumption) (hSep : uu.sep = true := by assumption) (hPwr : uu.pwr = true := by assumption)
    (hLcu : uu.lcu = true := by assumption) (hPmu : uu.pmu = true := by assumption) (hTst : uu.tst = true := by assumption)
    (hMac : uu.mac = true := by assumption) (hMoved : uu.moved = true := by assumption)
    (hCfg : uu.cfg = true := by assumption) (hOut : uu.out = true := by assumption) : Kept uu zz
    (State.resumeWrite s by_) := by
  unfold State.resumeWrite
  repeat' first
    | with_reducible assumption
    | exact {}
    | intro _
    | with_reducible apply Kept.writeWords
    | split

theorem Kept.aerRole {uu : Units} {zz s : State} (bit : Nat) (hk : Kept uu zz s) (hSep : uu.sep = true := by assumption)
    (hOut : uu.out = true := by assumption) : Kept uu zz (State.aerRole s bit) := by
  unfold State.aerRole
  repeat' first
    | with_reducible assumption
    | exact {}
    | intro _
    | with_reducible apply Kept.aerUnc
    | with_reducible apply Kept.aerAdvisory
    | split

theorem Kept.bar0Word {uu : Units} {zz s : State} (a : Nat) (hk : Kept uu zz s) (hPpc : uu.ppc = true := by assumption)
    (hPmu : uu.pmu = true := by assumption) (hMoved : uu.moved = true := by assumption)
    (hCfg : uu.cfg = true := by assumption) (hFree : uu.free = true := by assumption) : Kept uu zz
    (State.bar0Word s a).2 := by
  unfold State.bar0Word
  repeat' first
    | with_reducible assumption
    | exact {}
    | intro _
    | with_reducible apply Kept.regEvent
    | with_reducible apply Kept.regRead
    | split

theorem Kept.bar0Reads {uu : Units} {zz : State} (es : List (BitVec 4)) (hPpc : uu.ppc = true := by assumption)
    (hPmu : uu.pmu = true := by assumption) (hMoved : uu.moved = true := by assumption)
    (hCfg : uu.cfg = true := by assumption) (hFree : uu.free = true := by assumption) :
    ∀ (a : Nat) (acc : List Byte) {s : State}, Kept uu zz s → Kept uu zz (State.bar0Reads es a acc s).2 := by
  induction es with
  | nil => exact fun _ _ _ h => h
  | cons e es ih => exact fun _ _ _ h => ih _ _ (Kept.bar0Word _ h)

theorem Kept.cmdWinWrite {uu : Units} {zz s : State} (a : Nat) (w : Word) (en : BitVec 4) (hk : Kept uu zz s)
    (hMbx : uu.mbx = true := by assumption) (hPmu : uu.pmu = true := by assumption)
    (hMoved : uu.moved = true := by assumption) :
    Kept uu zz (State.cmdWinWrite s a w en) := by
  have hw : ∀ (l : List Nat) (c : List Host.Cell), cellsWf c = true → cellsWf (l.foldl (fun c i =>
      if en.getLsbD i then cellWrite c (a - 0x102000 + i) ((leBytes 4 w.toNat).getD i 0) else c) c) = true := by
    intro l
    induction l with
    | nil => exact fun _ h => h
    | cons i l ih =>
      intro c h
      refine ih _ ?_
      dsimp only
      split
      · exact cellWrite_wf h
      · exact h
  exact Kept.regEvent _ _ _ (hk.like { window := fun h => hw _ _ h })

theorem Kept.bar0Put {uu : Units} {zz s : State} (a : Nat) (w : Word) (en : BitVec 4) (hk : Kept uu zz s)
    (hHce : uu.hce = true := by assumption) (hRge : uu.rge = true := by assumption) (hRfx : uu.rfx = true := by assumption)
    (hTk : uu.tk = true := by assumption) (hVsm : uu.vsm = true := by assumption) (hKvt : uu.kvt = true := by assumption)
    (hMbx : uu.mbx = true := by assumption) (hBay : uu.bay = true := by assumption)
    (hProps : uu.props = true := by assumption) (hPpc : uu.ppc = true := by assumption)
    (hXbr : uu.xbr = true := by assumption) (hSep : uu.sep = true := by assumption) (hPwr : uu.pwr = true := by assumption)
    (hLcu : uu.lcu = true := by assumption) (hPmu : uu.pmu = true := by assumption) (hTst : uu.tst = true := by assumption)
    (hMac : uu.mac = true := by assumption) (hMoved : uu.moved = true := by assumption)
    (hCfg : uu.cfg = true := by assumption) (hOut : uu.out = true := by assumption) : Kept uu zz
    (State.bar0Put s a w en) := by
  unfold State.bar0Put
  repeat' first
    | with_reducible assumption
    | exact {}
    | intro _
    | extract_lets +onlyGivenNames _
    | with_reducible apply Kept.bump
    | with_reducible apply Kept.cmdWinWrite
    | with_reducible apply Kept.regEvent
    | with_reducible apply Kept.doorbell
    | with_reducible apply Kept.regWrite
    | split

theorem Kept.bar0Puts {uu : Units} {zz : State} (l : List (Word × BitVec 4)) (hHce : uu.hce = true := by assumption)
    (hRge : uu.rge = true := by assumption) (hRfx : uu.rfx = true := by assumption) (hTk : uu.tk = true := by assumption)
    (hVsm : uu.vsm = true := by assumption) (hKvt : uu.kvt = true := by assumption) (hMbx : uu.mbx = true := by assumption)
    (hBay : uu.bay = true := by assumption) (hProps : uu.props = true := by assumption)
    (hPpc : uu.ppc = true := by assumption) (hXbr : uu.xbr = true := by assumption) (hSep : uu.sep = true := by assumption)
    (hPwr : uu.pwr = true := by assumption) (hLcu : uu.lcu = true := by assumption) (hPmu : uu.pmu = true := by assumption)
    (hTst : uu.tst = true := by assumption) (hMac : uu.mac = true := by assumption)
    (hMoved : uu.moved = true := by assumption) (hCfg : uu.cfg = true := by assumption)
    (hOut : uu.out = true := by assumption) :
    ∀ (a : Nat) {s : State}, Kept uu zz s → Kept uu zz (State.bar0Puts l a s) := by
  induction l with
  | nil => exact fun _ _ h => h
  | cons e l ih => exact fun _ _ h => ih _ (Kept.bar0Put _ _ _ h)

theorem Kept.bar2Put {uu : Units} {zz s : State} (a : Nat) (w : Word) (en : BitVec 4) (hk : Kept uu zz s)
    (hSep : uu.sep = true := by assumption) (hOut : uu.out = true := by assumption) : Kept uu zz
    (State.bar2Put s a w en) := by
  unfold State.bar2Put
  repeat' first
    | with_reducible assumption
    | exact {}
    | intro _
    | extract_lets +onlyGivenNames _
    | with_reducible apply Kept.updSep
    | with_reducible apply Kept.msiFlush
    | fail_if_no_progress (dsimp only [State.updSep])
    | split
    | (with_reducible apply Kept.update) <;> [assumption; exact {}]

theorem Kept.bar2Puts {uu : Units} {zz : State} (l : List (Word × BitVec 4)) (hSep : uu.sep = true := by assumption)
    (hOut : uu.out = true := by assumption) :
    ∀ (a : Nat) {s : State}, Kept uu zz s → Kept uu zz (State.bar2Puts l a s) := by
  induction l with
  | nil => exact fun _ _ h => h
  | cons e l ih => exact fun _ _ h => ih _ (Kept.bar2Put _ _ _ h)

/-! ## The commands -/

theorem KeptBy.regRead {uu : Units} {zz s : State} (m : Master) (hk : Kept uu zz s) (hMbx : uu.mbx = true := by assumption)
    (hPpc : uu.ppc = true := by assumption) (hPmu : uu.pmu = true := by assumption)
    (hMoved : uu.moved = true := by assumption) (hCfg : uu.cfg = true := by assumption)
    (hOut : uu.out = true := by assumption) (hFree : uu.free = true := by assumption) :
    KeptBy uu zz (execRegRead m s) := by
  unfold execRegRead
  repeat' first
    | with_reducible assumption
    | exact {}
    | intro _
    | extract_lets +onlyGivenNames _
    | with_reducible refine KeptBy.next ?_
    | with_reducible apply Kept.runCmd
    | with_reducible apply Kept.checked
    | with_reducible apply Kept.readWords

theorem KeptBy.regWrite {uu : Units} {zz s : State} (m : Master) (hk : Kept uu zz s) (hHce : uu.hce = true := by assumption)
    (hRge : uu.rge = true := by assumption) (hRfx : uu.rfx = true := by assumption) (hTk : uu.tk = true := by assumption)
    (hVsm : uu.vsm = true := by assumption) (hKvt : uu.kvt = true := by assumption) (hMbx : uu.mbx = true := by assumption)
    (hBay : uu.bay = true := by assumption) (hProps : uu.props = true := by assumption)
    (hPpc : uu.ppc = true := by assumption) (hXbr : uu.xbr = true := by assumption) (hSep : uu.sep = true := by assumption)
    (hPwr : uu.pwr = true := by assumption) (hLcu : uu.lcu = true := by assumption) (hPmu : uu.pmu = true := by assumption)
    (hTst : uu.tst = true := by assumption) (hMac : uu.mac = true := by assumption)
    (hMoved : uu.moved = true := by assumption) (hCfg : uu.cfg = true := by assumption)
    (hOut : uu.out = true := by assumption) :
    KeptBy uu zz (execRegWrite m s) := by
  unfold execRegWrite
  repeat' first
    | with_reducible assumption
    | exact {}
    | intro _
    | extract_lets +onlyGivenNames _
    | with_reducible refine KeptBy.next ?_
    | with_reducible apply Kept.runCmd
    | with_reducible apply Kept.checked
    | with_reducible apply Kept.writeWords

theorem KeptBy.regModify {uu : Units} {zz s : State} (m : Master) (hk : Kept uu zz s)
    (hHce : uu.hce = true := by assumption) (hRge : uu.rge = true := by assumption) (hRfx : uu.rfx = true := by assumption)
    (hTk : uu.tk = true := by assumption) (hVsm : uu.vsm = true := by assumption) (hKvt : uu.kvt = true := by assumption)
    (hMbx : uu.mbx = true := by assumption) (hBay : uu.bay = true := by assumption)
    (hProps : uu.props = true := by assumption) (hPpc : uu.ppc = true := by assumption)
    (hXbr : uu.xbr = true := by assumption) (hSep : uu.sep = true := by assumption) (hPwr : uu.pwr = true := by assumption)
    (hLcu : uu.lcu = true := by assumption) (hPmu : uu.pmu = true := by assumption) (hTst : uu.tst = true := by assumption)
    (hMac : uu.mac = true := by assumption) (hMoved : uu.moved = true := by assumption)
    (hCfg : uu.cfg = true := by assumption) (hOut : uu.out = true := by assumption)
    (hFree : uu.free = true := by assumption) :
    KeptBy uu zz (execRegModify m s) := by
  unfold execRegModify
  repeat' first
    | with_reducible assumption
    | exact {}
    | intro _
    | extract_lets +onlyGivenNames _
    | with_reducible refine KeptBy.next ?_
    | with_reducible apply Kept.runCmd
    | with_reducible apply Kept.checked
    | with_reducible apply Kept.regRead
    | with_reducible apply Kept.regWrite
    | with_reducible apply Kept.finish

theorem KeptBy.swapEffect {uu : Units} {zz s : State} (hk : Kept uu zz s) (hHce : uu.hce = true := by assumption)
    (hRge : uu.rge = true := by assumption) (hRfx : uu.rfx = true := by assumption) (hTk : uu.tk = true := by assumption)
    (hVsm : uu.vsm = true := by assumption) (hKvt : uu.kvt = true := by assumption) (hMbx : uu.mbx = true := by assumption)
    (hBay : uu.bay = true := by assumption) (hProps : uu.props = true := by assumption)
    (hPpc : uu.ppc = true := by assumption) (hXbr : uu.xbr = true := by assumption) (hSep : uu.sep = true := by assumption)
    (hPwr : uu.pwr = true := by assumption) (hLcu : uu.lcu = true := by assumption) (hPmu : uu.pmu = true := by assumption)
    (hTst : uu.tst = true := by assumption) (hMac : uu.mac = true := by assumption)
    (hMoved : uu.moved = true := by assumption) (hCfg : uu.cfg = true := by assumption)
    (hOut : uu.out = true := by assumption) :
    KeptBy uu zz (execSwapEffect s) := by
  unfold execSwapEffect
  repeat' first
    | with_reducible assumption
    | exact {}
    | intro _
    | extract_lets +onlyGivenNames _
    | with_reducible refine KeptBy.next ?_
    | with_reducible apply Kept.swapNow
    | with_reducible apply Kept.resumeWrite
    | split

theorem KeptBy.swapRefusal {uu : Units} {zz s : State} (hk : Kept uu zz s) (hMbx : uu.mbx = true := by assumption)
    (hPpc : uu.ppc = true := by assumption) (hMoved : uu.moved = true := by assumption)
    (hOut : uu.out = true := by assumption) :
    KeptBy uu zz (execSwapRefusal s) := by
  unfold execSwapRefusal
  repeat' first
    | with_reducible assumption
    | exact {}
    | intro _
    | (extract_lets +onlyGivenNames x; first | refine Kept.cut x ?_ ?_ <;> [subst x; (clear_value x; intro _)] | refine KeptBy.cut x ?_ ?_ <;> [subst x; (clear_value x; intro _)] | skip)
    | with_reducible refine KeptBy.next ?_
    | with_reducible apply Kept.finish
    | with_reducible apply Kept.raiseFlag
    | split
    | (with_reducible apply Kept.update) <;> [assumption; exact {}]

theorem KeptBy.bar0Read {uu : Units} {zz s : State} (addr : Nat) (enables : List (BitVec 4)) (hk : Kept uu zz s)
    (hPpc : uu.ppc = true := by assumption) (hSep : uu.sep = true := by assumption) (hPmu : uu.pmu = true := by assumption)
    (hMoved : uu.moved = true := by assumption) (hCfg : uu.cfg = true := by assumption)
    (hOut : uu.out = true := by assumption) (hFree : uu.free = true := by assumption) :
    KeptBy uu zz (execBar0Read addr enables s) := by
  unfold execBar0Read
  repeat' first
    | with_reducible assumption
    | exact {}
    | intro _
    | extract_lets +onlyGivenNames _
    | with_reducible refine KeptBy.next ?_
    | with_reducible apply Kept.aerRole
    | with_reducible apply Kept.emit
    | with_reducible apply Kept.bar0Reads
    | split

theorem KeptBy.bar0Write {uu : Units} {zz s : State} (addr : Nat) (words : List (Word × BitVec 4)) (hk : Kept uu zz s)
    (hHce : uu.hce = true := by assumption) (hRge : uu.rge = true := by assumption) (hRfx : uu.rfx = true := by assumption)
    (hTk : uu.tk = true := by assumption) (hVsm : uu.vsm = true := by assumption) (hKvt : uu.kvt = true := by assumption)
    (hMbx : uu.mbx = true := by assumption) (hBay : uu.bay = true := by assumption)
    (hProps : uu.props = true := by assumption) (hPpc : uu.ppc = true := by assumption)
    (hXbr : uu.xbr = true := by assumption) (hSep : uu.sep = true := by assumption) (hPwr : uu.pwr = true := by assumption)
    (hLcu : uu.lcu = true := by assumption) (hPmu : uu.pmu = true := by assumption) (hTst : uu.tst = true := by assumption)
    (hMac : uu.mac = true := by assumption) (hMoved : uu.moved = true := by assumption)
    (hCfg : uu.cfg = true := by assumption) (hOut : uu.out = true := by assumption) :
    KeptBy uu zz (execBar0Write addr words s) := by
  unfold execBar0Write
  repeat' first
    | with_reducible assumption
    | exact {}
    | intro _
    | extract_lets +onlyGivenNames _
    | with_reducible refine KeptBy.next ?_
    | with_reducible apply Kept.aerRole
    | with_reducible apply Kept.bar2Puts
    | with_reducible apply Kept.bar0Puts
    | split

end Sys2Proof.Machine
end

