-- ==== Sys2Proof/Laws/State.lean ====
section
/-! SUPPORT. What each named update of the state leaves as it was, field by field, and what it writes. -/

set_option Elab.async false

namespace Sys2Proof.Machine

@[simp] theorem State.emit_now (s : State) (e : Emission) : (s.emit e).now = s.now := rfl
@[simp] theorem State.emit_part (s : State) (e : Emission) : (s.emit e).part = s.part := rfl
@[simp] theorem State.emit_slot (s : State) (e : Emission) : (s.emit e).slot = s.slot := rfl
@[simp] theorem State.emit_uid (s : State) (e : Emission) : (s.emit e).uid = s.uid := rfl
@[simp] theorem State.emit_smbAddr (s : State) (e : Emission) : (s.emit e).smbAddr = s.smbAddr := rfl
@[simp] theorem State.emit_strapsOk (s : State) (e : Emission) : (s.emit e).strapsOk = s.strapsOk := rfl
@[simp] theorem State.emit_macs (s : State) (e : Emission) : (s.emit e).macs = s.macs := rfl
@[simp] theorem State.emit_regs (s : State) (e : Emission) : (s.emit e).regs = s.regs := rfl
@[simp] theorem State.emit_hce (s : State) (e : Emission) : (s.emit e).hce = s.hce := rfl
@[simp] theorem State.emit_rfu (s : State) (e : Emission) : (s.emit e).rfu = s.rfu := rfl
@[simp] theorem State.emit_rge (s : State) (e : Emission) : (s.emit e).rge = s.rge := rfl
@[simp] theorem State.emit_snt (s : State) (e : Emission) : (s.emit e).snt = s.snt := rfl
@[simp] theorem State.emit_rfx (s : State) (e : Emission) : (s.emit e).rfx = s.rfx := rfl
@[simp] theorem State.emit_tk (s : State) (e : Emission) : (s.emit e).tk = s.tk := rfl
@[simp] theorem State.emit_vsm (s : State) (e : Emission) : (s.emit e).vsm = s.vsm := rfl
@[simp] theorem State.emit_kvt (s : State) (e : Emission) : (s.emit e).kvt = s.kvt := rfl
@[simp] theorem State.emit_mbx (s : State) (e : Emission) : (s.emit e).mbx = s.mbx := rfl
@[simp] theorem State.emit_bay (s : State) (e : Emission) : (s.emit e).bay = s.bay := rfl
@[simp] theorem State.emit_props (s : State) (e : Emission) : (s.emit e).props = s.props := rfl
@[simp] theorem State.emit_ppc (s : State) (e : Emission) : (s.emit e).ppc = s.ppc := rfl
@[simp] theorem State.emit_xbr (s : State) (e : Emission) : (s.emit e).xbr = s.xbr := rfl
@[simp] theorem State.emit_sep (s : State) (e : Emission) : (s.emit e).sep = s.sep := rfl
@[simp] theorem State.emit_pwr (s : State) (e : Emission) : (s.emit e).pwr = s.pwr := rfl
@[simp] theorem State.emit_lcu (s : State) (e : Emission) : (s.emit e).lcu = s.lcu := rfl
@[simp] theorem State.emit_pmu (s : State) (e : Emission) : (s.emit e).pmu = s.pmu := rfl
@[simp] theorem State.emit_tst (s : State) (e : Emission) : (s.emit e).tst = s.tst := rfl
@[simp] theorem State.emit_mac (s : State) (e : Emission) : (s.emit e).mac = s.mac := rfl
@[simp] theorem State.emit_freeCtr (s : State) (e : Emission) : (s.emit e).freeCtr = s.freeCtr := rfl
@[simp] theorem State.emit_pending (s : State) (e : Emission) : (s.emit e).pending = s.pending := rfl
@[simp] theorem State.emit_out (s : State) (e : Emission) : (s.emit e).out = e :: s.out := rfl
@[simp] theorem State.emit_reg (s : State) (e : Emission) (a : Nat) : (s.emit e).reg a = s.reg a := rfl
@[simp] theorem State.emit_cfg (s : State) (e : Emission) (a hi lo : Nat) : (s.emit e).cfg a hi lo = s.cfg a hi lo := rfl
@[simp] theorem State.emit_cfgBit (s : State) (e : Emission) (a i : Nat) : (s.emit e).cfgBit a i = s.cfgBit a i := rfl

@[simp] theorem State.emitAll_now (s : State) (es : List Emission) : (s.emitAll es).now = s.now := rfl
@[simp] theorem State.emitAll_part (s : State) (es : List Emission) : (s.emitAll es).part = s.part := rfl
@[simp] theorem State.emitAll_slot (s : State) (es : List Emission) : (s.emitAll es).slot = s.slot := rfl
@[simp] theorem State.emitAll_uid (s : State) (es : List Emission) : (s.emitAll es).uid = s.uid := rfl
@[simp] theorem State.emitAll_smbAddr (s : State) (es : List Emission) : (s.emitAll es).smbAddr = s.smbAddr := rfl
@[simp] theorem State.emitAll_strapsOk (s : State) (es : List Emission) : (s.emitAll es).strapsOk = s.strapsOk := rfl
@[simp] theorem State.emitAll_macs (s : State) (es : List Emission) : (s.emitAll es).macs = s.macs := rfl
@[simp] theorem State.emitAll_regs (s : State) (es : List Emission) : (s.emitAll es).regs = s.regs := rfl
@[simp] theorem State.emitAll_hce (s : State) (es : List Emission) : (s.emitAll es).hce = s.hce := rfl
@[simp] theorem State.emitAll_rfu (s : State) (es : List Emission) : (s.emitAll es).rfu = s.rfu := rfl
@[simp] theorem State.emitAll_rge (s : State) (es : List Emission) : (s.emitAll es).rge = s.rge := rfl
@[simp] theorem State.emitAll_snt (s : State) (es : List Emission) : (s.emitAll es).snt = s.snt := rfl
@[simp] theorem State.emitAll_rfx (s : State) (es : List Emission) : (s.emitAll es).rfx = s.rfx := rfl
@[simp] theorem State.emitAll_tk (s : State) (es : List Emission) : (s.emitAll es).tk = s.tk := rfl
@[simp] theorem State.emitAll_vsm (s : State) (es : List Emission) : (s.emitAll es).vsm = s.vsm := rfl
@[simp] theorem State.emitAll_kvt (s : State) (es : List Emission) : (s.emitAll es).kvt = s.kvt := rfl
@[simp] theorem State.emitAll_mbx (s : State) (es : List Emission) : (s.emitAll es).mbx = s.mbx := rfl
@[simp] theorem State.emitAll_bay (s : State) (es : List Emission) : (s.emitAll es).bay = s.bay := rfl
@[simp] theorem State.emitAll_props (s : State) (es : List Emission) : (s.emitAll es).props = s.props := rfl
@[simp] theorem State.emitAll_ppc (s : State) (es : List Emission) : (s.emitAll es).ppc = s.ppc := rfl
@[simp] theorem State.emitAll_xbr (s : State) (es : List Emission) : (s.emitAll es).xbr = s.xbr := rfl
@[simp] theorem State.emitAll_sep (s : State) (es : List Emission) : (s.emitAll es).sep = s.sep := rfl
@[simp] theorem State.emitAll_pwr (s : State) (es : List Emission) : (s.emitAll es).pwr = s.pwr := rfl
@[simp] theorem State.emitAll_lcu (s : State) (es : List Emission) : (s.emitAll es).lcu = s.lcu := rfl
@[simp] theorem State.emitAll_pmu (s : State) (es : List Emission) : (s.emitAll es).pmu = s.pmu := rfl
@[simp] theorem State.emitAll_tst (s : State) (es : List Emission) : (s.emitAll es).tst = s.tst := rfl
@[simp] theorem State.emitAll_mac (s : State) (es : List Emission) : (s.emitAll es).mac = s.mac := rfl
@[simp] theorem State.emitAll_freeCtr (s : State) (es : List Emission) : (s.emitAll es).freeCtr = s.freeCtr := rfl
@[simp] theorem State.emitAll_pending (s : State) (es : List Emission) : (s.emitAll es).pending = s.pending := rfl
@[simp] theorem State.emitAll_out (s : State) (es : List Emission) : (s.emitAll es).out = es.reverse ++ s.out := rfl
@[simp] theorem State.emitAll_reg (s : State) (es : List Emission) (a : Nat) : (s.emitAll es).reg a = s.reg a := rfl
@[simp] theorem State.emitAll_cfg (s : State) (es : List Emission) (a hi lo : Nat) : (s.emitAll es).cfg a hi lo = s.cfg a hi lo := rfl
@[simp] theorem State.emitAll_cfgBit (s : State) (es : List Emission) (a i : Nat) : (s.emitAll es).cfgBit a i = s.cfgBit a i := rfl

@[simp] theorem State.tookFree_now (s : State) : (s.tookFree).now = s.now := rfl
@[simp] theorem State.tookFree_part (s : State) : (s.tookFree).part = s.part := rfl
@[simp] theorem State.tookFree_slot (s : State) : (s.tookFree).slot = s.slot := rfl
@[simp] theorem State.tookFree_uid (s : State) : (s.tookFree).uid = s.uid := rfl
@[simp] theorem State.tookFree_smbAddr (s : State) : (s.tookFree).smbAddr = s.smbAddr := rfl
@[simp] theorem State.tookFree_strapsOk (s : State) : (s.tookFree).strapsOk = s.strapsOk := rfl
@[simp] theorem State.tookFree_macs (s : State) : (s.tookFree).macs = s.macs := rfl
@[simp] theorem State.tookFree_regs (s : State) : (s.tookFree).regs = s.regs := rfl
@[simp] theorem State.tookFree_hce (s : State) : (s.tookFree).hce = s.hce := rfl
@[simp] theorem State.tookFree_rfu (s : State) : (s.tookFree).rfu = s.rfu := rfl
@[simp] theorem State.tookFree_rge (s : State) : (s.tookFree).rge = s.rge := rfl
@[simp] theorem State.tookFree_snt (s : State) : (s.tookFree).snt = s.snt := rfl
@[simp] theorem State.tookFree_rfx (s : State) : (s.tookFree).rfx = s.rfx := rfl
@[simp] theorem State.tookFree_tk (s : State) : (s.tookFree).tk = s.tk := rfl
@[simp] theorem State.tookFree_vsm (s : State) : (s.tookFree).vsm = s.vsm := rfl
@[simp] theorem State.tookFree_kvt (s : State) : (s.tookFree).kvt = s.kvt := rfl
@[simp] theorem State.tookFree_mbx (s : State) : (s.tookFree).mbx = s.mbx := rfl
@[simp] theorem State.tookFree_bay (s : State) : (s.tookFree).bay = s.bay := rfl
@[simp] theorem State.tookFree_props (s : State) : (s.tookFree).props = s.props := rfl
@[simp] theorem State.tookFree_ppc (s : State) : (s.tookFree).ppc = s.ppc := rfl
@[simp] theorem State.tookFree_xbr (s : State) : (s.tookFree).xbr = s.xbr := rfl
@[simp] theorem State.tookFree_sep (s : State) : (s.tookFree).sep = s.sep := rfl
@[simp] theorem State.tookFree_pwr (s : State) : (s.tookFree).pwr = s.pwr := rfl
@[simp] theorem State.tookFree_lcu (s : State) : (s.tookFree).lcu = s.lcu := rfl
@[simp] theorem State.tookFree_pmu (s : State) : (s.tookFree).pmu = s.pmu := rfl
@[simp] theorem State.tookFree_tst (s : State) : (s.tookFree).tst = s.tst := rfl
@[simp] theorem State.tookFree_mac (s : State) : (s.tookFree).mac = s.mac := rfl
@[simp] theorem State.tookFree_out (s : State) : (s.tookFree).out = s.out := rfl
@[simp] theorem State.tookFree_pending (s : State) : (s.tookFree).pending = s.pending := rfl
@[simp] theorem State.tookFree_freeCtr (s : State) : (s.tookFree).freeCtr = s.freeCtr + 1 := rfl
@[simp] theorem State.tookFree_reg (s : State) (a : Nat) : (s.tookFree).reg a = s.reg a := rfl
@[simp] theorem State.tookFree_cfg (s : State) (a hi lo : Nat) : (s.tookFree).cfg a hi lo = s.cfg a hi lo := rfl
@[simp] theorem State.tookFree_cfgBit (s : State) (a i : Nat) : (s.tookFree).cfgBit a i = s.cfgBit a i := rfl

@[simp] theorem State.putReg_now (s : State) (a : Nat) (w : Word) : (s.putReg a w).now = s.now := rfl
@[simp] theorem State.putReg_part (s : State) (a : Nat) (w : Word) : (s.putReg a w).part = s.part := rfl
@[simp] theorem State.putReg_slot (s : State) (a : Nat) (w : Word) : (s.putReg a w).slot = s.slot := rfl
@[simp] theorem State.putReg_uid (s : State) (a : Nat) (w : Word) : (s.putReg a w).uid = s.uid := rfl
@[simp] theorem State.putReg_smbAddr (s : State) (a : Nat) (w : Word) : (s.putReg a w).smbAddr = s.smbAddr := rfl
@[simp] theorem State.putReg_strapsOk (s : State) (a : Nat) (w : Word) : (s.putReg a w).strapsOk = s.strapsOk := rfl
@[simp] theorem State.putReg_macs (s : State) (a : Nat) (w : Word) : (s.putReg a w).macs = s.macs := rfl
@[simp] theorem State.putReg_hce (s : State) (a : Nat) (w : Word) : (s.putReg a w).hce = s.hce := rfl
@[simp] theorem State.putReg_rfu (s : State) (a : Nat) (w : Word) : (s.putReg a w).rfu = s.rfu := rfl
@[simp] theorem State.putReg_rge (s : State) (a : Nat) (w : Word) : (s.putReg a w).rge = s.rge := rfl
@[simp] theorem State.putReg_snt (s : State) (a : Nat) (w : Word) : (s.putReg a w).snt = s.snt := rfl
@[simp] theorem State.putReg_rfx (s : State) (a : Nat) (w : Word) : (s.putReg a w).rfx = s.rfx := rfl
@[simp] theorem State.putReg_tk (s : State) (a : Nat) (w : Word) : (s.putReg a w).tk = s.tk := rfl
@[simp] theorem State.putReg_vsm (s : State) (a : Nat) (w : Word) : (s.putReg a w).vsm = s.vsm := rfl
@[simp] theorem State.putReg_kvt (s : State) (a : Nat) (w : Word) : (s.putReg a w).kvt = s.kvt := rfl
@[simp] theorem State.putReg_mbx (s : State) (a : Nat) (w : Word) : (s.putReg a w).mbx = s.mbx := rfl
@[simp] theorem State.putReg_bay (s : State) (a : Nat) (w : Word) : (s.putReg a w).bay = s.bay := rfl
@[simp] theorem State.putReg_props (s : State) (a : Nat) (w : Word) : (s.putReg a w).props = s.props := rfl
@[simp] theorem State.putReg_ppc (s : State) (a : Nat) (w : Word) : (s.putReg a w).ppc = s.ppc := rfl
@[simp] theorem State.putReg_xbr (s : State) (a : Nat) (w : Word) : (s.putReg a w).xbr = s.xbr := rfl
@[simp] theorem State.putReg_sep (s : State) (a : Nat) (w : Word) : (s.putReg a w).sep = s.sep := rfl
@[simp] theorem State.putReg_pwr (s : State) (a : Nat) (w : Word) : (s.putReg a w).pwr = s.pwr := rfl
@[simp] theorem State.putReg_lcu (s : State) (a : Nat) (w : Word) : (s.putReg a w).lcu = s.lcu := rfl
@[simp] theorem State.putReg_pmu (s : State) (a : Nat) (w : Word) : (s.putReg a w).pmu = s.pmu := rfl
@[simp] theorem State.putReg_tst (s : State) (a : Nat) (w : Word) : (s.putReg a w).tst = s.tst := rfl
@[simp] theorem State.putReg_mac (s : State) (a : Nat) (w : Word) : (s.putReg a w).mac = s.mac := rfl
@[simp] theorem State.putReg_out (s : State) (a : Nat) (w : Word) : (s.putReg a w).out = s.out := rfl
@[simp] theorem State.putReg_freeCtr (s : State) (a : Nat) (w : Word) : (s.putReg a w).freeCtr = s.freeCtr := rfl
@[simp] theorem State.putReg_pending (s : State) (a : Nat) (w : Word) : (s.putReg a w).pending = s.pending := rfl

@[simp] theorem State.updHce_now (s : State) (f : HceSt → HceSt) : (s.updHce f).now = s.now := rfl
@[simp] theorem State.updHce_part (s : State) (f : HceSt → HceSt) : (s.updHce f).part = s.part := rfl
@[simp] theorem State.updHce_slot (s : State) (f : HceSt → HceSt) : (s.updHce f).slot = s.slot := rfl
@[simp] theorem State.updHce_uid (s : State) (f : HceSt → HceSt) : (s.updHce f).uid = s.uid := rfl
@[simp] theorem State.updHce_smbAddr (s : State) (f : HceSt → HceSt) : (s.updHce f).smbAddr = s.smbAddr := rfl
@[simp] theorem State.updHce_strapsOk (s : State) (f : HceSt → HceSt) : (s.updHce f).strapsOk = s.strapsOk := rfl
@[simp] theorem State.updHce_macs (s : State) (f : HceSt → HceSt) : (s.updHce f).macs = s.macs := rfl
@[simp] theorem State.updHce_regs (s : State) (f : HceSt → HceSt) : (s.updHce f).regs = s.regs := rfl
@[simp] theorem State.updHce_rfu (s : State) (f : HceSt → HceSt) : (s.updHce f).rfu = s.rfu := rfl
@[simp] theorem State.updHce_rge (s : State) (f : HceSt → HceSt) : (s.updHce f).rge = s.rge := rfl
@[simp] theorem State.updHce_snt (s : State) (f : HceSt → HceSt) : (s.updHce f).snt = s.snt := rfl
@[simp] theorem State.updHce_rfx (s : State) (f : HceSt → HceSt) : (s.updHce f).rfx = s.rfx := rfl
@[simp] theorem State.updHce_tk (s : State) (f : HceSt → HceSt) : (s.updHce f).tk = s.tk := rfl
@[simp] theorem State.updHce_vsm (s : State) (f : HceSt → HceSt) : (s.updHce f).vsm = s.vsm := rfl
@[simp] theorem State.updHce_kvt (s : State) (f : HceSt → HceSt) : (s.updHce f).kvt = s.kvt := rfl
@[simp] theorem State.updHce_mbx (s : State) (f : HceSt → HceSt) : (s.updHce f).mbx = s.mbx := rfl
@[simp] theorem State.updHce_bay (s : State) (f : HceSt → HceSt) : (s.updHce f).bay = s.bay := rfl
@[simp] theorem State.updHce_props (s : State) (f : HceSt → HceSt) : (s.updHce f).props = s.props := rfl
@[simp] theorem State.updHce_ppc (s : State) (f : HceSt → HceSt) : (s.updHce f).ppc = s.ppc := rfl
@[simp] theorem State.updHce_xbr (s : State) (f : HceSt → HceSt) : (s.updHce f).xbr = s.xbr := rfl
@[simp] theorem State.updHce_sep (s : State) (f : HceSt → HceSt) : (s.updHce f).sep = s.sep := rfl
@[simp] theorem State.updHce_pwr (s : State) (f : HceSt → HceSt) : (s.updHce f).pwr = s.pwr := rfl
@[simp] theorem State.updHce_lcu (s : State) (f : HceSt → HceSt) : (s.updHce f).lcu = s.lcu := rfl
@[simp] theorem State.updHce_pmu (s : State) (f : HceSt → HceSt) : (s.updHce f).pmu = s.pmu := rfl
@[simp] theorem State.updHce_tst (s : State) (f : HceSt → HceSt) : (s.updHce f).tst = s.tst := rfl
@[simp] theorem State.updHce_mac (s : State) (f : HceSt → HceSt) : (s.updHce f).mac = s.mac := rfl
@[simp] theorem State.updHce_out (s : State) (f : HceSt → HceSt) : (s.updHce f).out = s.out := rfl
@[simp] theorem State.updHce_freeCtr (s : State) (f : HceSt → HceSt) : (s.updHce f).freeCtr = s.freeCtr := rfl
@[simp] theorem State.updHce_pending (s : State) (f : HceSt → HceSt) : (s.updHce f).pending = s.pending := rfl
@[simp] theorem State.updHce_hce (s : State) (f : HceSt → HceSt) : (s.updHce f).hce = f s.hce := rfl
@[simp] theorem State.updHce_reg (s : State) (f : HceSt → HceSt) (a : Nat) : (s.updHce f).reg a = s.reg a := rfl
@[simp] theorem State.updHce_cfg (s : State) (f : HceSt → HceSt) (a hi lo : Nat) : (s.updHce f).cfg a hi lo = s.cfg a hi lo := rfl
@[simp] theorem State.updHce_cfgBit (s : State) (f : HceSt → HceSt) (a i : Nat) : (s.updHce f).cfgBit a i = s.cfgBit a i := rfl

@[simp] theorem State.updRge_now (s : State) (f : RgeSt → RgeSt) : (s.updRge f).now = s.now := rfl
@[simp] theorem State.updRge_part (s : State) (f : RgeSt → RgeSt) : (s.updRge f).part = s.part := rfl
@[simp] theorem State.updRge_slot (s : State) (f : RgeSt → RgeSt) : (s.updRge f).slot = s.slot := rfl
@[simp] theorem State.updRge_uid (s : State) (f : RgeSt → RgeSt) : (s.updRge f).uid = s.uid := rfl
@[simp] theorem State.updRge_smbAddr (s : State) (f : RgeSt → RgeSt) : (s.updRge f).smbAddr = s.smbAddr := rfl
@[simp] theorem State.updRge_strapsOk (s : State) (f : RgeSt → RgeSt) : (s.updRge f).strapsOk = s.strapsOk := rfl
@[simp] theorem State.updRge_macs (s : State) (f : RgeSt → RgeSt) : (s.updRge f).macs = s.macs := rfl
@[simp] theorem State.updRge_regs (s : State) (f : RgeSt → RgeSt) : (s.updRge f).regs = s.regs := rfl
@[simp] theorem State.updRge_hce (s : State) (f : RgeSt → RgeSt) : (s.updRge f).hce = s.hce := rfl
@[simp] theorem State.updRge_rfu (s : State) (f : RgeSt → RgeSt) : (s.updRge f).rfu = s.rfu := rfl
@[simp] theorem State.updRge_snt (s : State) (f : RgeSt → RgeSt) : (s.updRge f).snt = s.snt := rfl
@[simp] theorem State.updRge_rfx (s : State) (f : RgeSt → RgeSt) : (s.updRge f).rfx = s.rfx := rfl
@[simp] theorem State.updRge_tk (s : State) (f : RgeSt → RgeSt) : (s.updRge f).tk = s.tk := rfl
@[simp] theorem State.updRge_vsm (s : State) (f : RgeSt → RgeSt) : (s.updRge f).vsm = s.vsm := rfl
@[simp] theorem State.updRge_kvt (s : State) (f : RgeSt → RgeSt) : (s.updRge f).kvt = s.kvt := rfl
@[simp] theorem State.updRge_mbx (s : State) (f : RgeSt → RgeSt) : (s.updRge f).mbx = s.mbx := rfl
@[simp] theorem State.updRge_bay (s : State) (f : RgeSt → RgeSt) : (s.updRge f).bay = s.bay := rfl
@[simp] theorem State.updRge_props (s : State) (f : RgeSt → RgeSt) : (s.updRge f).props = s.props := rfl
@[simp] theorem State.updRge_ppc (s : State) (f : RgeSt → RgeSt) : (s.updRge f).ppc = s.ppc := rfl
@[simp] theorem State.updRge_xbr (s : State) (f : RgeSt → RgeSt) : (s.updRge f).xbr = s.xbr := rfl
@[simp] theorem State.updRge_sep (s : State) (f : RgeSt → RgeSt) : (s.updRge f).sep = s.sep := rfl
@[simp] theorem State.updRge_pwr (s : State) (f : RgeSt → RgeSt) : (s.updRge f).pwr = s.pwr := rfl
@[simp] theorem State.updRge_lcu (s : State) (f : RgeSt → RgeSt) : (s.updRge f).lcu = s.lcu := rfl
@[simp] theorem State.updRge_pmu (s : State) (f : RgeSt → RgeSt) : (s.updRge f).pmu = s.pmu := rfl
@[simp] theorem State.updRge_tst (s : State) (f : RgeSt → RgeSt) : (s.updRge f).tst = s.tst := rfl
@[simp] theorem State.updRge_mac (s : State) (f : RgeSt → RgeSt) : (s.updRge f).mac = s.mac := rfl
@[simp] theorem State.updRge_out (s : State) (f : RgeSt → RgeSt) : (s.updRge f).out = s.out := rfl
@[simp] theorem State.updRge_freeCtr (s : State) (f : RgeSt → RgeSt) : (s.updRge f).freeCtr = s.freeCtr := rfl
@[simp] theorem State.updRge_pending (s : State) (f : RgeSt → RgeSt) : (s.updRge f).pending = s.pending := rfl
@[simp] theorem State.updRge_rge (s : State) (f : RgeSt → RgeSt) : (s.updRge f).rge = f s.rge := rfl
@[simp] theorem State.updRge_reg (s : State) (f : RgeSt → RgeSt) (a : Nat) : (s.updRge f).reg a = s.reg a := rfl
@[simp] theorem State.updRge_cfg (s : State) (f : RgeSt → RgeSt) (a hi lo : Nat) : (s.updRge f).cfg a hi lo = s.cfg a hi lo := rfl
@[simp] theorem State.updRge_cfgBit (s : State) (f : RgeSt → RgeSt) (a i : Nat) : (s.updRge f).cfgBit a i = s.cfgBit a i := rfl

@[simp] theorem State.updRfx_now (s : State) (f : RfxSt → RfxSt) : (s.updRfx f).now = s.now := rfl
@[simp] theorem State.updRfx_part (s : State) (f : RfxSt → RfxSt) : (s.updRfx f).part = s.part := rfl
@[simp] theorem State.updRfx_slot (s : State) (f : RfxSt → RfxSt) : (s.updRfx f).slot = s.slot := rfl
@[simp] theorem State.updRfx_uid (s : State) (f : RfxSt → RfxSt) : (s.updRfx f).uid = s.uid := rfl
@[simp] theorem State.updRfx_smbAddr (s : State) (f : RfxSt → RfxSt) : (s.updRfx f).smbAddr = s.smbAddr := rfl
@[simp] theorem State.updRfx_strapsOk (s : State) (f : RfxSt → RfxSt) : (s.updRfx f).strapsOk = s.strapsOk := rfl
@[simp] theorem State.updRfx_macs (s : State) (f : RfxSt → RfxSt) : (s.updRfx f).macs = s.macs := rfl
@[simp] theorem State.updRfx_regs (s : State) (f : RfxSt → RfxSt) : (s.updRfx f).regs = s.regs := rfl
@[simp] theorem State.updRfx_hce (s : State) (f : RfxSt → RfxSt) : (s.updRfx f).hce = s.hce := rfl
@[simp] theorem State.updRfx_rfu (s : State) (f : RfxSt → RfxSt) : (s.updRfx f).rfu = s.rfu := rfl
@[simp] theorem State.updRfx_rge (s : State) (f : RfxSt → RfxSt) : (s.updRfx f).rge = s.rge := rfl
@[simp] theorem State.updRfx_snt (s : State) (f : RfxSt → RfxSt) : (s.updRfx f).snt = s.snt := rfl
@[simp] theorem State.updRfx_tk (s : State) (f : RfxSt → RfxSt) : (s.updRfx f).tk = s.tk := rfl
@[simp] theorem State.updRfx_vsm (s : State) (f : RfxSt → RfxSt) : (s.updRfx f).vsm = s.vsm := rfl
@[simp] theorem State.updRfx_kvt (s : State) (f : RfxSt → RfxSt) : (s.updRfx f).kvt = s.kvt := rfl
@[simp] theorem State.updRfx_mbx (s : State) (f : RfxSt → RfxSt) : (s.updRfx f).mbx = s.mbx := rfl
@[simp] theorem State.updRfx_bay (s : State) (f : RfxSt → RfxSt) : (s.updRfx f).bay = s.bay := rfl
@[simp] theorem State.updRfx_props (s : State) (f : RfxSt → RfxSt) : (s.updRfx f).props = s.props := rfl
@[simp] theorem State.updRfx_ppc (s : State) (f : RfxSt → RfxSt) : (s.updRfx f).ppc = s.ppc := rfl
@[simp] theorem State.updRfx_xbr (s : State) (f : RfxSt → RfxSt) : (s.updRfx f).xbr = s.xbr := rfl
@[simp] theorem State.updRfx_sep (s : State) (f : RfxSt → RfxSt) : (s.updRfx f).sep = s.sep := rfl
@[simp] theorem State.updRfx_pwr (s : State) (f : RfxSt → RfxSt) : (s.updRfx f).pwr = s.pwr := rfl
@[simp] theorem State.updRfx_lcu (s : State) (f : RfxSt → RfxSt) : (s.updRfx f).lcu = s.lcu := rfl
@[simp] theorem State.updRfx_pmu (s : State) (f : RfxSt → RfxSt) : (s.updRfx f).pmu = s.pmu := rfl
@[simp] theorem State.updRfx_tst (s : State) (f : RfxSt → RfxSt) : (s.updRfx f).tst = s.tst := rfl
@[simp] theorem State.updRfx_mac (s : State) (f : RfxSt → RfxSt) : (s.updRfx f).mac = s.mac := rfl
@[simp] theorem State.updRfx_out (s : State) (f : RfxSt → RfxSt) : (s.updRfx f).out = s.out := rfl
@[simp] theorem State.updRfx_freeCtr (s : State) (f : RfxSt → RfxSt) : (s.updRfx f).freeCtr = s.freeCtr := rfl
@[simp] theorem State.updRfx_pending (s : State) (f : RfxSt → RfxSt) : (s.updRfx f).pending = s.pending := rfl
@[simp] theorem State.updRfx_rfx (s : State) (f : RfxSt → RfxSt) : (s.updRfx f).rfx = f s.rfx := rfl
@[simp] theorem State.updRfx_reg (s : State) (f : RfxSt → RfxSt) (a : Nat) : (s.updRfx f).reg a = s.reg a := rfl
@[simp] theorem State.updRfx_cfg (s : State) (f : RfxSt → RfxSt) (a hi lo : Nat) : (s.updRfx f).cfg a hi lo = s.cfg a hi lo := rfl
@[simp] theorem State.updRfx_cfgBit (s : State) (f : RfxSt → RfxSt) (a i : Nat) : (s.updRfx f).cfgBit a i = s.cfgBit a i := rfl

@[simp] theorem State.updTk_now (s : State) (f : TkSt → TkSt) : (s.updTk f).now = s.now := rfl
@[simp] theorem State.updTk_part (s : State) (f : TkSt → TkSt) : (s.updTk f).part = s.part := rfl
@[simp] theorem State.updTk_slot (s : State) (f : TkSt → TkSt) : (s.updTk f).slot = s.slot := rfl
@[simp] theorem State.updTk_uid (s : State) (f : TkSt → TkSt) : (s.updTk f).uid = s.uid := rfl
@[simp] theorem State.updTk_smbAddr (s : State) (f : TkSt → TkSt) : (s.updTk f).smbAddr = s.smbAddr := rfl
@[simp] theorem State.updTk_strapsOk (s : State) (f : TkSt → TkSt) : (s.updTk f).strapsOk = s.strapsOk := rfl
@[simp] theorem State.updTk_macs (s : State) (f : TkSt → TkSt) : (s.updTk f).macs = s.macs := rfl
@[simp] theorem State.updTk_regs (s : State) (f : TkSt → TkSt) : (s.updTk f).regs = s.regs := rfl
@[simp] theorem State.updTk_hce (s : State) (f : TkSt → TkSt) : (s.updTk f).hce = s.hce := rfl
@[simp] theorem State.updTk_rfu (s : State) (f : TkSt → TkSt) : (s.updTk f).rfu = s.rfu := rfl
@[simp] theorem State.updTk_rge (s : State) (f : TkSt → TkSt) : (s.updTk f).rge = s.rge := rfl
@[simp] theorem State.updTk_snt (s : State) (f : TkSt → TkSt) : (s.updTk f).snt = s.snt := rfl
@[simp] theorem State.updTk_rfx (s : State) (f : TkSt → TkSt) : (s.updTk f).rfx = s.rfx := rfl
@[simp] theorem State.updTk_vsm (s : State) (f : TkSt → TkSt) : (s.updTk f).vsm = s.vsm := rfl
@[simp] theorem State.updTk_kvt (s : State) (f : TkSt → TkSt) : (s.updTk f).kvt = s.kvt := rfl
@[simp] theorem State.updTk_mbx (s : State) (f : TkSt → TkSt) : (s.updTk f).mbx = s.mbx := rfl
@[simp] theorem State.updTk_bay (s : State) (f : TkSt → TkSt) : (s.updTk f).bay = s.bay := rfl
@[simp] theorem State.updTk_props (s : State) (f : TkSt → TkSt) : (s.updTk f).props = s.props := rfl
@[simp] theorem State.updTk_ppc (s : State) (f : TkSt → TkSt) : (s.updTk f).ppc = s.ppc := rfl
@[simp] theorem State.updTk_xbr (s : State) (f : TkSt → TkSt) : (s.updTk f).xbr = s.xbr := rfl
@[simp] theorem State.updTk_sep (s : State) (f : TkSt → TkSt) : (s.updTk f).sep = s.sep := rfl
@[simp] theorem State.updTk_pwr (s : State) (f : TkSt → TkSt) : (s.updTk f).pwr = s.pwr := rfl
@[simp] theorem State.updTk_lcu (s : State) (f : TkSt → TkSt) : (s.updTk f).lcu = s.lcu := rfl
@[simp] theorem State.updTk_pmu (s : State) (f : TkSt → TkSt) : (s.updTk f).pmu = s.pmu := rfl
@[simp] theorem State.updTk_tst (s : State) (f : TkSt → TkSt) : (s.updTk f).tst = s.tst := rfl
@[simp] theorem State.updTk_mac (s : State) (f : TkSt → TkSt) : (s.updTk f).mac = s.mac := rfl
@[simp] theorem State.updTk_out (s : State) (f : TkSt → TkSt) : (s.updTk f).out = s.out := rfl
@[simp] theorem State.updTk_freeCtr (s : State) (f : TkSt → TkSt) : (s.updTk f).freeCtr = s.freeCtr := rfl
@[simp] theorem State.updTk_pending (s : State) (f : TkSt → TkSt) : (s.updTk f).pending = s.pending := rfl
@[simp] theorem State.updTk_tk (s : State) (f : TkSt → TkSt) : (s.updTk f).tk = f s.tk := rfl
@[simp] theorem State.updTk_reg (s : State) (f : TkSt → TkSt) (a : Nat) : (s.updTk f).reg a = s.reg a := rfl
@[simp] theorem State.updTk_cfg (s : State) (f : TkSt → TkSt) (a hi lo : Nat) : (s.updTk f).cfg a hi lo = s.cfg a hi lo := rfl
@[simp] theorem State.updTk_cfgBit (s : State) (f : TkSt → TkSt) (a i : Nat) : (s.updTk f).cfgBit a i = s.cfgBit a i := rfl

@[simp] theorem State.updKvt_now (s : State) (f : KvtSt → KvtSt) : (s.updKvt f).now = s.now := rfl
@[simp] theorem State.updKvt_part (s : State) (f : KvtSt → KvtSt) : (s.updKvt f).part = s.part := rfl
@[simp] theorem State.updKvt_slot (s : State) (f : KvtSt → KvtSt) : (s.updKvt f).slot = s.slot := rfl
@[simp] theorem State.updKvt_uid (s : State) (f : KvtSt → KvtSt) : (s.updKvt f).uid = s.uid := rfl
@[simp] theorem State.updKvt_smbAddr (s : State) (f : KvtSt → KvtSt) : (s.updKvt f).smbAddr = s.smbAddr := rfl
@[simp] theorem State.updKvt_strapsOk (s : State) (f : KvtSt → KvtSt) : (s.updKvt f).strapsOk = s.strapsOk := rfl
@[simp] theorem State.updKvt_macs (s : State) (f : KvtSt → KvtSt) : (s.updKvt f).macs = s.macs := rfl
@[simp] theorem State.updKvt_regs (s : State) (f : KvtSt → KvtSt) : (s.updKvt f).regs = s.regs := rfl
@[simp] theorem State.updKvt_hce (s : State) (f : KvtSt → KvtSt) : (s.updKvt f).hce = s.hce := rfl
@[simp] theorem State.updKvt_rfu (s : State) (f : KvtSt → KvtSt) : (s.updKvt f).rfu = s.rfu := rfl
@[simp] theorem State.updKvt_rge (s : State) (f : KvtSt → KvtSt) : (s.updKvt f).rge = s.rge := rfl
@[simp] theorem State.updKvt_snt (s : State) (f : KvtSt → KvtSt) : (s.updKvt f).snt = s.snt := rfl
@[simp] theorem State.updKvt_rfx (s : State) (f : KvtSt → KvtSt) : (s.updKvt f).rfx = s.rfx := rfl
@[simp] theorem State.updKvt_tk (s : State) (f : KvtSt → KvtSt) : (s.updKvt f).tk = s.tk := rfl
@[simp] theorem State.updKvt_vsm (s : State) (f : KvtSt → KvtSt) : (s.updKvt f).vsm = s.vsm := rfl
@[simp] theorem State.updKvt_mbx (s : State) (f : KvtSt → KvtSt) : (s.updKvt f).mbx = s.mbx := rfl
@[simp] theorem State.updKvt_bay (s : State) (f : KvtSt → KvtSt) : (s.updKvt f).bay = s.bay := rfl
@[simp] theorem State.updKvt_props (s : State) (f : KvtSt → KvtSt) : (s.updKvt f).props = s.props := rfl
@[simp] theorem State.updKvt_ppc (s : State) (f : KvtSt → KvtSt) : (s.updKvt f).ppc = s.ppc := rfl
@[simp] theorem State.updKvt_xbr (s : State) (f : KvtSt → KvtSt) : (s.updKvt f).xbr = s.xbr := rfl
@[simp] theorem State.updKvt_sep (s : State) (f : KvtSt → KvtSt) : (s.updKvt f).sep = s.sep := rfl
@[simp] theorem State.updKvt_pwr (s : State) (f : KvtSt → KvtSt) : (s.updKvt f).pwr = s.pwr := rfl
@[simp] theorem State.updKvt_lcu (s : State) (f : KvtSt → KvtSt) : (s.updKvt f).lcu = s.lcu := rfl
@[simp] theorem State.updKvt_pmu (s : State) (f : KvtSt → KvtSt) : (s.updKvt f).pmu = s.pmu := rfl
@[simp] theorem State.updKvt_tst (s : State) (f : KvtSt → KvtSt) : (s.updKvt f).tst = s.tst := rfl
@[simp] theorem State.updKvt_mac (s : State) (f : KvtSt → KvtSt) : (s.updKvt f).mac = s.mac := rfl
@[simp] theorem State.updKvt_out (s : State) (f : KvtSt → KvtSt) : (s.updKvt f).out = s.out := rfl
@[simp] theorem State.updKvt_freeCtr (s : State) (f : KvtSt → KvtSt) : (s.updKvt f).freeCtr = s.freeCtr := rfl
@[simp] theorem State.updKvt_pending (s : State) (f : KvtSt → KvtSt) : (s.updKvt f).pending = s.pending := rfl
@[simp] theorem State.updKvt_kvt (s : State) (f : KvtSt → KvtSt) : (s.updKvt f).kvt = f s.kvt := rfl
@[simp] theorem State.updKvt_reg (s : State) (f : KvtSt → KvtSt) (a : Nat) : (s.updKvt f).reg a = s.reg a := rfl
@[simp] theorem State.updKvt_cfg (s : State) (f : KvtSt → KvtSt) (a hi lo : Nat) : (s.updKvt f).cfg a hi lo = s.cfg a hi lo := rfl
@[simp] theorem State.updKvt_cfgBit (s : State) (f : KvtSt → KvtSt) (a i : Nat) : (s.updKvt f).cfgBit a i = s.cfgBit a i := rfl

@[simp] theorem State.updVsm_now (s : State) (f : VsmSt → VsmSt) : (s.updVsm f).now = s.now := rfl
@[simp] theorem State.updVsm_part (s : State) (f : VsmSt → VsmSt) : (s.updVsm f).part = s.part := rfl
@[simp] theorem State.updVsm_slot (s : State) (f : VsmSt → VsmSt) : (s.updVsm f).slot = s.slot := rfl
@[simp] theorem State.updVsm_uid (s : State) (f : VsmSt → VsmSt) : (s.updVsm f).uid = s.uid := rfl
@[simp] theorem State.updVsm_smbAddr (s : State) (f : VsmSt → VsmSt) : (s.updVsm f).smbAddr = s.smbAddr := rfl
@[simp] theorem State.updVsm_strapsOk (s : State) (f : VsmSt → VsmSt) : (s.updVsm f).strapsOk = s.strapsOk := rfl
@[simp] theorem State.updVsm_macs (s : State) (f : VsmSt → VsmSt) : (s.updVsm f).macs = s.macs := rfl
@[simp] theorem State.updVsm_regs (s : State) (f : VsmSt → VsmSt) : (s.updVsm f).regs = s.regs := rfl
@[simp] theorem State.updVsm_hce (s : State) (f : VsmSt → VsmSt) : (s.updVsm f).hce = s.hce := rfl
@[simp] theorem State.updVsm_rfu (s : State) (f : VsmSt → VsmSt) : (s.updVsm f).rfu = s.rfu := rfl
@[simp] theorem State.updVsm_rge (s : State) (f : VsmSt → VsmSt) : (s.updVsm f).rge = s.rge := rfl
@[simp] theorem State.updVsm_snt (s : State) (f : VsmSt → VsmSt) : (s.updVsm f).snt = s.snt := rfl
@[simp] theorem State.updVsm_rfx (s : State) (f : VsmSt → VsmSt) : (s.updVsm f).rfx = s.rfx := rfl
@[simp] theorem State.updVsm_tk (s : State) (f : VsmSt → VsmSt) : (s.updVsm f).tk = s.tk := rfl
@[simp] theorem State.updVsm_kvt (s : State) (f : VsmSt → VsmSt) : (s.updVsm f).kvt = s.kvt := rfl
@[simp] theorem State.updVsm_mbx (s : State) (f : VsmSt → VsmSt) : (s.updVsm f).mbx = s.mbx := rfl
@[simp] theorem State.updVsm_bay (s : State) (f : VsmSt → VsmSt) : (s.updVsm f).bay = s.bay := rfl
@[simp] theorem State.updVsm_props (s : State) (f : VsmSt → VsmSt) : (s.updVsm f).props = s.props := rfl
@[simp] theorem State.updVsm_ppc (s : State) (f : VsmSt → VsmSt) : (s.updVsm f).ppc = s.ppc := rfl
@[simp] theorem State.updVsm_xbr (s : State) (f : VsmSt → VsmSt) : (s.updVsm f).xbr = s.xbr := rfl
@[simp] theorem State.updVsm_sep (s : State) (f : VsmSt → VsmSt) : (s.updVsm f).sep = s.sep := rfl
@[simp] theorem State.updVsm_pwr (s : State) (f : VsmSt → VsmSt) : (s.updVsm f).pwr = s.pwr := rfl
@[simp] theorem State.updVsm_lcu (s : State) (f : VsmSt → VsmSt) : (s.updVsm f).lcu = s.lcu := rfl
@[simp] theorem State.updVsm_pmu (s : State) (f : VsmSt → VsmSt) : (s.updVsm f).pmu = s.pmu := rfl
@[simp] theorem State.updVsm_tst (s : State) (f : VsmSt → VsmSt) : (s.updVsm f).tst = s.tst := rfl
@[simp] theorem State.updVsm_mac (s : State) (f : VsmSt → VsmSt) : (s.updVsm f).mac = s.mac := rfl
@[simp] theorem State.updVsm_out (s : State) (f : VsmSt → VsmSt) : (s.updVsm f).out = s.out := rfl
@[simp] theorem State.updVsm_freeCtr (s : State) (f : VsmSt → VsmSt) : (s.updVsm f).freeCtr = s.freeCtr := rfl
@[simp] theorem State.updVsm_pending (s : State) (f : VsmSt → VsmSt) : (s.updVsm f).pending = s.pending := rfl
@[simp] theorem State.updVsm_vsm (s : State) (f : VsmSt → VsmSt) : (s.updVsm f).vsm = f s.vsm := rfl
@[simp] theorem State.updVsm_reg (s : State) (f : VsmSt → VsmSt) (a : Nat) : (s.updVsm f).reg a = s.reg a := rfl
@[simp] theorem State.updVsm_cfg (s : State) (f : VsmSt → VsmSt) (a hi lo : Nat) : (s.updVsm f).cfg a hi lo = s.cfg a hi lo := rfl
@[simp] theorem State.updVsm_cfgBit (s : State) (f : VsmSt → VsmSt) (a i : Nat) : (s.updVsm f).cfgBit a i = s.cfgBit a i := rfl

@[simp] theorem State.updMbx_now (s : State) (f : MbxSt → MbxSt) : (s.updMbx f).now = s.now := rfl
@[simp] theorem State.updMbx_part (s : State) (f : MbxSt → MbxSt) : (s.updMbx f).part = s.part := rfl
@[simp] theorem State.updMbx_slot (s : State) (f : MbxSt → MbxSt) : (s.updMbx f).slot = s.slot := rfl
@[simp] theorem State.updMbx_uid (s : State) (f : MbxSt → MbxSt) : (s.updMbx f).uid = s.uid := rfl
@[simp] theorem State.updMbx_smbAddr (s : State) (f : MbxSt → MbxSt) : (s.updMbx f).smbAddr = s.smbAddr := rfl
@[simp] theorem State.updMbx_strapsOk (s : State) (f : MbxSt → MbxSt) : (s.updMbx f).strapsOk = s.strapsOk := rfl
@[simp] theorem State.updMbx_macs (s : State) (f : MbxSt → MbxSt) : (s.updMbx f).macs = s.macs := rfl
@[simp] theorem State.updMbx_regs (s : State) (f : MbxSt → MbxSt) : (s.updMbx f).regs = s.regs := rfl
@[simp] theorem State.updMbx_hce (s : State) (f : MbxSt → MbxSt) : (s.updMbx f).hce = s.hce := rfl
@[simp] theorem State.updMbx_rfu (s : State) (f : MbxSt → MbxSt) : (s.updMbx f).rfu = s.rfu := rfl
@[simp] theorem State.updMbx_rge (s : State) (f : MbxSt → MbxSt) : (s.updMbx f).rge = s.rge := rfl
@[simp] theorem State.updMbx_snt (s : State) (f : MbxSt → MbxSt) : (s.updMbx f).snt = s.snt := rfl
@[simp] theorem State.updMbx_rfx (s : State) (f : MbxSt → MbxSt) : (s.updMbx f).rfx = s.rfx := rfl
@[simp] theorem State.updMbx_tk (s : State) (f : MbxSt → MbxSt) : (s.updMbx f).tk = s.tk := rfl
@[simp] theorem State.updMbx_vsm (s : State) (f : MbxSt → MbxSt) : (s.updMbx f).vsm = s.vsm := rfl
@[simp] theorem State.updMbx_kvt (s : State) (f : MbxSt → MbxSt) : (s.updMbx f).kvt = s.kvt := rfl
@[simp] theorem State.updMbx_bay (s : State) (f : MbxSt → MbxSt) : (s.updMbx f).bay = s.bay := rfl
@[simp] theorem State.updMbx_props (s : State) (f : MbxSt → MbxSt) : (s.updMbx f).props = s.props := rfl
@[simp] theorem State.updMbx_ppc (s : State) (f : MbxSt → MbxSt) : (s.updMbx f).ppc = s.ppc := rfl
@[simp] theorem State.updMbx_xbr (s : State) (f : MbxSt → MbxSt) : (s.updMbx f).xbr = s.xbr := rfl
@[simp] theorem State.updMbx_sep (s : State) (f : MbxSt → MbxSt) : (s.updMbx f).sep = s.sep := rfl
@[simp] theorem State.updMbx_pwr (s : State) (f : MbxSt → MbxSt) : (s.updMbx f).pwr = s.pwr := rfl
@[simp] theorem State.updMbx_lcu (s : State) (f : MbxSt → MbxSt) : (s.updMbx f).lcu = s.lcu := rfl
@[simp] theorem State.updMbx_pmu (s : State) (f : MbxSt → MbxSt) : (s.updMbx f).pmu = s.pmu := rfl
@[simp] theorem State.updMbx_tst (s : State) (f : MbxSt → MbxSt) : (s.updMbx f).tst = s.tst := rfl
@[simp] theorem State.updMbx_mac (s : State) (f : MbxSt → MbxSt) : (s.updMbx f).mac = s.mac := rfl
@[simp] theorem State.updMbx_out (s : State) (f : MbxSt → MbxSt) : (s.updMbx f).out = s.out := rfl
@[simp] theorem State.updMbx_freeCtr (s : State) (f : MbxSt → MbxSt) : (s.updMbx f).freeCtr = s.freeCtr := rfl
@[simp] theorem State.updMbx_pending (s : State) (f : MbxSt → MbxSt) : (s.updMbx f).pending = s.pending := rfl
@[simp] theorem State.updMbx_mbx (s : State) (f : MbxSt → MbxSt) : (s.updMbx f).mbx = f s.mbx := rfl
@[simp] theorem State.updMbx_reg (s : State) (f : MbxSt → MbxSt) (a : Nat) : (s.updMbx f).reg a = s.reg a := rfl
@[simp] theorem State.updMbx_cfg (s : State) (f : MbxSt → MbxSt) (a hi lo : Nat) : (s.updMbx f).cfg a hi lo = s.cfg a hi lo := rfl
@[simp] theorem State.updMbx_cfgBit (s : State) (f : MbxSt → MbxSt) (a i : Nat) : (s.updMbx f).cfgBit a i = s.cfgBit a i := rfl

@[simp] theorem State.updLcu_now (s : State) (f : LcuSt → LcuSt) : (s.updLcu f).now = s.now := rfl
@[simp] theorem State.updLcu_part (s : State) (f : LcuSt → LcuSt) : (s.updLcu f).part = s.part := rfl
@[simp] theorem State.updLcu_slot (s : State) (f : LcuSt → LcuSt) : (s.updLcu f).slot = s.slot := rfl
@[simp] theorem State.updLcu_uid (s : State) (f : LcuSt → LcuSt) : (s.updLcu f).uid = s.uid := rfl
@[simp] theorem State.updLcu_smbAddr (s : State) (f : LcuSt → LcuSt) : (s.updLcu f).smbAddr = s.smbAddr := rfl
@[simp] theorem State.updLcu_strapsOk (s : State) (f : LcuSt → LcuSt) : (s.updLcu f).strapsOk = s.strapsOk := rfl
@[simp] theorem State.updLcu_macs (s : State) (f : LcuSt → LcuSt) : (s.updLcu f).macs = s.macs := rfl
@[simp] theorem State.updLcu_regs (s : State) (f : LcuSt → LcuSt) : (s.updLcu f).regs = s.regs := rfl
@[simp] theorem State.updLcu_hce (s : State) (f : LcuSt → LcuSt) : (s.updLcu f).hce = s.hce := rfl
@[simp] theorem State.updLcu_rfu (s : State) (f : LcuSt → LcuSt) : (s.updLcu f).rfu = s.rfu := rfl
@[simp] theorem State.updLcu_rge (s : State) (f : LcuSt → LcuSt) : (s.updLcu f).rge = s.rge := rfl
@[simp] theorem State.updLcu_snt (s : State) (f : LcuSt → LcuSt) : (s.updLcu f).snt = s.snt := rfl
@[simp] theorem State.updLcu_rfx (s : State) (f : LcuSt → LcuSt) : (s.updLcu f).rfx = s.rfx := rfl
@[simp] theorem State.updLcu_tk (s : State) (f : LcuSt → LcuSt) : (s.updLcu f).tk = s.tk := rfl
@[simp] theorem State.updLcu_vsm (s : State) (f : LcuSt → LcuSt) : (s.updLcu f).vsm = s.vsm := rfl
@[simp] theorem State.updLcu_kvt (s : State) (f : LcuSt → LcuSt) : (s.updLcu f).kvt = s.kvt := rfl
@[simp] theorem State.updLcu_mbx (s : State) (f : LcuSt → LcuSt) : (s.updLcu f).mbx = s.mbx := rfl
@[simp] theorem State.updLcu_bay (s : State) (f : LcuSt → LcuSt) : (s.updLcu f).bay = s.bay := rfl
@[simp] theorem State.updLcu_props (s : State) (f : LcuSt → LcuSt) : (s.updLcu f).props = s.props := rfl
@[simp] theorem State.updLcu_ppc (s : State) (f : LcuSt → LcuSt) : (s.updLcu f).ppc = s.ppc := rfl
@[simp] theorem State.updLcu_xbr (s : State) (f : LcuSt → LcuSt) : (s.updLcu f).xbr = s.xbr := rfl
@[simp] theorem State.updLcu_sep (s : State) (f : LcuSt → LcuSt) : (s.updLcu f).sep = s.sep := rfl
@[simp] theorem State.updLcu_pwr (s : State) (f : LcuSt → LcuSt) : (s.updLcu f).pwr = s.pwr := rfl
@[simp] theorem State.updLcu_pmu (s : State) (f : LcuSt → LcuSt) : (s.updLcu f).pmu = s.pmu := rfl
@[simp] theorem State.updLcu_tst (s : State) (f : LcuSt → LcuSt) : (s.updLcu f).tst = s.tst := rfl
@[simp] theorem State.updLcu_mac (s : State) (f : LcuSt → LcuSt) : (s.updLcu f).mac = s.mac := rfl
@[simp] theorem State.updLcu_out (s : State) (f : LcuSt → LcuSt) : (s.updLcu f).out = s.out := rfl
@[simp] theorem State.updLcu_freeCtr (s : State) (f : LcuSt → LcuSt) : (s.updLcu f).freeCtr = s.freeCtr := rfl
@[simp] theorem State.updLcu_pending (s : State) (f : LcuSt → LcuSt) : (s.updLcu f).pending = s.pending := rfl
@[simp] theorem State.updLcu_lcu (s : State) (f : LcuSt → LcuSt) : (s.updLcu f).lcu = f s.lcu := rfl
@[simp] theorem State.updLcu_reg (s : State) (f : LcuSt → LcuSt) (a : Nat) : (s.updLcu f).reg a = s.reg a := rfl
@[simp] theorem State.updLcu_cfg (s : State) (f : LcuSt → LcuSt) (a hi lo : Nat) : (s.updLcu f).cfg a hi lo = s.cfg a hi lo := rfl
@[simp] theorem State.updLcu_cfgBit (s : State) (f : LcuSt → LcuSt) (a i : Nat) : (s.updLcu f).cfgBit a i = s.cfgBit a i := rfl

@[simp] theorem State.updPwr_now (s : State) (f : PwrSt → PwrSt) : (s.updPwr f).now = s.now := rfl
@[simp] theorem State.updPwr_part (s : State) (f : PwrSt → PwrSt) : (s.updPwr f).part = s.part := rfl
@[simp] theorem State.updPwr_slot (s : State) (f : PwrSt → PwrSt) : (s.updPwr f).slot = s.slot := rfl
@[simp] theorem State.updPwr_uid (s : State) (f : PwrSt → PwrSt) : (s.updPwr f).uid = s.uid := rfl
@[simp] theorem State.updPwr_smbAddr (s : State) (f : PwrSt → PwrSt) : (s.updPwr f).smbAddr = s.smbAddr := rfl
@[simp] theorem State.updPwr_strapsOk (s : State) (f : PwrSt → PwrSt) : (s.updPwr f).strapsOk = s.strapsOk := rfl
@[simp] theorem State.updPwr_macs (s : State) (f : PwrSt → PwrSt) : (s.updPwr f).macs = s.macs := rfl
@[simp] theorem State.updPwr_regs (s : State) (f : PwrSt → PwrSt) : (s.updPwr f).regs = s.regs := rfl
@[simp] theorem State.updPwr_hce (s : State) (f : PwrSt → PwrSt) : (s.updPwr f).hce = s.hce := rfl
@[simp] theorem State.updPwr_rfu (s : State) (f : PwrSt → PwrSt) : (s.updPwr f).rfu = s.rfu := rfl
@[simp] theorem State.updPwr_rge (s : State) (f : PwrSt → PwrSt) : (s.updPwr f).rge = s.rge := rfl
@[simp] theorem State.updPwr_snt (s : State) (f : PwrSt → PwrSt) : (s.updPwr f).snt = s.snt := rfl
@[simp] theorem State.updPwr_rfx (s : State) (f : PwrSt → PwrSt) : (s.updPwr f).rfx = s.rfx := rfl
@[simp] theorem State.updPwr_tk (s : State) (f : PwrSt → PwrSt) : (s.updPwr f).tk = s.tk := rfl
@[simp] theorem State.updPwr_vsm (s : State) (f : PwrSt → PwrSt) : (s.updPwr f).vsm = s.vsm := rfl
@[simp] theorem State.updPwr_kvt (s : State) (f : PwrSt → PwrSt) : (s.updPwr f).kvt = s.kvt := rfl
@[simp] theorem State.updPwr_mbx (s : State) (f : PwrSt → PwrSt) : (s.updPwr f).mbx = s.mbx := rfl
@[simp] theorem State.updPwr_bay (s : State) (f : PwrSt → PwrSt) : (s.updPwr f).bay = s.bay := rfl
@[simp] theorem State.updPwr_props (s : State) (f : PwrSt → PwrSt) : (s.updPwr f).props = s.props := rfl
@[simp] theorem State.updPwr_ppc (s : State) (f : PwrSt → PwrSt) : (s.updPwr f).ppc = s.ppc := rfl
@[simp] theorem State.updPwr_xbr (s : State) (f : PwrSt → PwrSt) : (s.updPwr f).xbr = s.xbr := rfl
@[simp] theorem State.updPwr_sep (s : State) (f : PwrSt → PwrSt) : (s.updPwr f).sep = s.sep := rfl
@[simp] theorem State.updPwr_lcu (s : State) (f : PwrSt → PwrSt) : (s.updPwr f).lcu = s.lcu := rfl
@[simp] theorem State.updPwr_pmu (s : State) (f : PwrSt → PwrSt) : (s.updPwr f).pmu = s.pmu := rfl
@[simp] theorem State.updPwr_tst (s : State) (f : PwrSt → PwrSt) : (s.updPwr f).tst = s.tst := rfl
@[simp] theorem State.updPwr_mac (s : State) (f : PwrSt → PwrSt) : (s.updPwr f).mac = s.mac := rfl
@[simp] theorem State.updPwr_out (s : State) (f : PwrSt → PwrSt) : (s.updPwr f).out = s.out := rfl
@[simp] theorem State.updPwr_freeCtr (s : State) (f : PwrSt → PwrSt) : (s.updPwr f).freeCtr = s.freeCtr := rfl
@[simp] theorem State.updPwr_pending (s : State) (f : PwrSt → PwrSt) : (s.updPwr f).pending = s.pending := rfl
@[simp] theorem State.updPwr_pwr (s : State) (f : PwrSt → PwrSt) : (s.updPwr f).pwr = f s.pwr := rfl
@[simp] theorem State.updPwr_reg (s : State) (f : PwrSt → PwrSt) (a : Nat) : (s.updPwr f).reg a = s.reg a := rfl
@[simp] theorem State.updPwr_cfg (s : State) (f : PwrSt → PwrSt) (a hi lo : Nat) : (s.updPwr f).cfg a hi lo = s.cfg a hi lo := rfl
@[simp] theorem State.updPwr_cfgBit (s : State) (f : PwrSt → PwrSt) (a i : Nat) : (s.updPwr f).cfgBit a i = s.cfgBit a i := rfl

@[simp] theorem State.updTst_now (s : State) (f : TstSt → TstSt) : (s.updTst f).now = s.now := rfl
@[simp] theorem State.updTst_part (s : State) (f : TstSt → TstSt) : (s.updTst f).part = s.part := rfl
@[simp] theorem State.updTst_slot (s : State) (f : TstSt → TstSt) : (s.updTst f).slot = s.slot := rfl
@[simp] theorem State.updTst_uid (s : State) (f : TstSt → TstSt) : (s.updTst f).uid = s.uid := rfl
@[simp] theorem State.updTst_smbAddr (s : State) (f : TstSt → TstSt) : (s.updTst f).smbAddr = s.smbAddr := rfl
@[simp] theorem State.updTst_strapsOk (s : State) (f : TstSt → TstSt) : (s.updTst f).strapsOk = s.strapsOk := rfl
@[simp] theorem State.updTst_macs (s : State) (f : TstSt → TstSt) : (s.updTst f).macs = s.macs := rfl
@[simp] theorem State.updTst_regs (s : State) (f : TstSt → TstSt) : (s.updTst f).regs = s.regs := rfl
@[simp] theorem State.updTst_hce (s : State) (f : TstSt → TstSt) : (s.updTst f).hce = s.hce := rfl
@[simp] theorem State.updTst_rfu (s : State) (f : TstSt → TstSt) : (s.updTst f).rfu = s.rfu := rfl
@[simp] theorem State.updTst_rge (s : State) (f : TstSt → TstSt) : (s.updTst f).rge = s.rge := rfl
@[simp] theorem State.updTst_snt (s : State) (f : TstSt → TstSt) : (s.updTst f).snt = s.snt := rfl
@[simp] theorem State.updTst_rfx (s : State) (f : TstSt → TstSt) : (s.updTst f).rfx = s.rfx := rfl
@[simp] theorem State.updTst_tk (s : State) (f : TstSt → TstSt) : (s.updTst f).tk = s.tk := rfl
@[simp] theorem State.updTst_vsm (s : State) (f : TstSt → TstSt) : (s.updTst f).vsm = s.vsm := rfl
@[simp] theorem State.updTst_kvt (s : State) (f : TstSt → TstSt) : (s.updTst f).kvt = s.kvt := rfl
@[simp] theorem State.updTst_mbx (s : State) (f : TstSt → TstSt) : (s.updTst f).mbx = s.mbx := rfl
@[simp] theorem State.updTst_bay (s : State) (f : TstSt → TstSt) : (s.updTst f).bay = s.bay := rfl
@[simp] theorem State.updTst_props (s : State) (f : TstSt → TstSt) : (s.updTst f).props = s.props := rfl
@[simp] theorem State.updTst_ppc (s : State) (f : TstSt → TstSt) : (s.updTst f).ppc = s.ppc := rfl
@[simp] theorem State.updTst_xbr (s : State) (f : TstSt → TstSt) : (s.updTst f).xbr = s.xbr := rfl
@[simp] theorem State.updTst_sep (s : State) (f : TstSt → TstSt) : (s.updTst f).sep = s.sep := rfl
@[simp] theorem State.updTst_pwr (s : State) (f : TstSt → TstSt) : (s.updTst f).pwr = s.pwr := rfl
@[simp] theorem State.updTst_lcu (s : State) (f : TstSt → TstSt) : (s.updTst f).lcu = s.lcu := rfl
@[simp] theorem State.updTst_pmu (s : State) (f : TstSt → TstSt) : (s.updTst f).pmu = s.pmu := rfl
@[simp] theorem State.updTst_mac (s : State) (f : TstSt → TstSt) : (s.updTst f).mac = s.mac := rfl
@[simp] theorem State.updTst_out (s : State) (f : TstSt → TstSt) : (s.updTst f).out = s.out := rfl
@[simp] theorem State.updTst_freeCtr (s : State) (f : TstSt → TstSt) : (s.updTst f).freeCtr = s.freeCtr := rfl
@[simp] theorem State.updTst_pending (s : State) (f : TstSt → TstSt) : (s.updTst f).pending = s.pending := rfl
@[simp] theorem State.updTst_tst (s : State) (f : TstSt → TstSt) : (s.updTst f).tst = f s.tst := rfl
@[simp] theorem State.updTst_reg (s : State) (f : TstSt → TstSt) (a : Nat) : (s.updTst f).reg a = s.reg a := rfl
@[simp] theorem State.updTst_cfg (s : State) (f : TstSt → TstSt) (a hi lo : Nat) : (s.updTst f).cfg a hi lo = s.cfg a hi lo := rfl
@[simp] theorem State.updTst_cfgBit (s : State) (f : TstSt → TstSt) (a i : Nat) : (s.updTst f).cfgBit a i = s.cfgBit a i := rfl

@[simp] theorem State.updSep_now (s : State) (f : SepSt → SepSt) : (s.updSep f).now = s.now := rfl
@[simp] theorem State.updSep_part (s : State) (f : SepSt → SepSt) : (s.updSep f).part = s.part := rfl
@[simp] theorem State.updSep_slot (s : State) (f : SepSt → SepSt) : (s.updSep f).slot = s.slot := rfl
@[simp] theorem State.updSep_uid (s : State) (f : SepSt → SepSt) : (s.updSep f).uid = s.uid := rfl
@[simp] theorem State.updSep_smbAddr (s : State) (f : SepSt → SepSt) : (s.updSep f).smbAddr = s.smbAddr := rfl
@[simp] theorem State.updSep_strapsOk (s : State) (f : SepSt → SepSt) : (s.updSep f).strapsOk = s.strapsOk := rfl
@[simp] theorem State.updSep_macs (s : State) (f : SepSt → SepSt) : (s.updSep f).macs = s.macs := rfl
@[simp] theorem State.updSep_regs (s : State) (f : SepSt → SepSt) : (s.updSep f).regs = s.regs := rfl
@[simp] theorem State.updSep_hce (s : State) (f : SepSt → SepSt) : (s.updSep f).hce = s.hce := rfl
@[simp] theorem State.updSep_rfu (s : State) (f : SepSt → SepSt) : (s.updSep f).rfu = s.rfu := rfl
@[simp] theorem State.updSep_rge (s : State) (f : SepSt → SepSt) : (s.updSep f).rge = s.rge := rfl
@[simp] theorem State.updSep_snt (s : State) (f : SepSt → SepSt) : (s.updSep f).snt = s.snt := rfl
@[simp] theorem State.updSep_rfx (s : State) (f : SepSt → SepSt) : (s.updSep f).rfx = s.rfx := rfl
@[simp] theorem State.updSep_tk (s : State) (f : SepSt → SepSt) : (s.updSep f).tk = s.tk := rfl
@[simp] theorem State.updSep_vsm (s : State) (f : SepSt → SepSt) : (s.updSep f).vsm = s.vsm := rfl
@[simp] theorem State.updSep_kvt (s : State) (f : SepSt → SepSt) : (s.updSep f).kvt = s.kvt := rfl
@[simp] theorem State.updSep_mbx (s : State) (f : SepSt → SepSt) : (s.updSep f).mbx = s.mbx := rfl
@[simp] theorem State.updSep_bay (s : State) (f : SepSt → SepSt) : (s.updSep f).bay = s.bay := rfl
@[simp] theorem State.updSep_props (s : State) (f : SepSt → SepSt) : (s.updSep f).props = s.props := rfl
@[simp] theorem State.updSep_ppc (s : State) (f : SepSt → SepSt) : (s.updSep f).ppc = s.ppc := rfl
@[simp] theorem State.updSep_xbr (s : State) (f : SepSt → SepSt) : (s.updSep f).xbr = s.xbr := rfl
@[simp] theorem State.updSep_pwr (s : State) (f : SepSt → SepSt) : (s.updSep f).pwr = s.pwr := rfl
@[simp] theorem State.updSep_lcu (s : State) (f : SepSt → SepSt) : (s.updSep f).lcu = s.lcu := rfl
@[simp] theorem State.updSep_pmu (s : State) (f : SepSt → SepSt) : (s.updSep f).pmu = s.pmu := rfl
@[simp] theorem State.updSep_tst (s : State) (f : SepSt → SepSt) : (s.updSep f).tst = s.tst := rfl
@[simp] theorem State.updSep_mac (s : State) (f : SepSt → SepSt) : (s.updSep f).mac = s.mac := rfl
@[simp] theorem State.updSep_out (s : State) (f : SepSt → SepSt) : (s.updSep f).out = s.out := rfl
@[simp] theorem State.updSep_freeCtr (s : State) (f : SepSt → SepSt) : (s.updSep f).freeCtr = s.freeCtr := rfl
@[simp] theorem State.updSep_pending (s : State) (f : SepSt → SepSt) : (s.updSep f).pending = s.pending := rfl
@[simp] theorem State.updSep_sep (s : State) (f : SepSt → SepSt) : (s.updSep f).sep = f s.sep := rfl
@[simp] theorem State.updSep_reg (s : State) (f : SepSt → SepSt) (a : Nat) : (s.updSep f).reg a = s.reg a := rfl
@[simp] theorem State.updSep_cfg (s : State) (f : SepSt → SepSt) (a hi lo : Nat) : (s.updSep f).cfg a hi lo = s.cfg a hi lo := rfl
@[simp] theorem State.updSep_cfgBit (s : State) (f : SepSt → SepSt) (a i : Nat) : (s.updSep f).cfgBit a i = s.cfgBit a i := rfl

@[simp] theorem State.updMac_now (s : State) (f : MacSt → MacSt) : (s.updMac f).now = s.now := rfl
@[simp] theorem State.updMac_part (s : State) (f : MacSt → MacSt) : (s.updMac f).part = s.part := rfl
@[simp] theorem State.updMac_slot (s : State) (f : MacSt → MacSt) : (s.updMac f).slot = s.slot := rfl
@[simp] theorem State.updMac_uid (s : State) (f : MacSt → MacSt) : (s.updMac f).uid = s.uid := rfl
@[simp] theorem State.updMac_smbAddr (s : State) (f : MacSt → MacSt) : (s.updMac f).smbAddr = s.smbAddr := rfl
@[simp] theorem State.updMac_strapsOk (s : State) (f : MacSt → MacSt) : (s.updMac f).strapsOk = s.strapsOk := rfl
@[simp] theorem State.updMac_macs (s : State) (f : MacSt → MacSt) : (s.updMac f).macs = s.macs := rfl
@[simp] theorem State.updMac_regs (s : State) (f : MacSt → MacSt) : (s.updMac f).regs = s.regs := rfl
@[simp] theorem State.updMac_hce (s : State) (f : MacSt → MacSt) : (s.updMac f).hce = s.hce := rfl
@[simp] theorem State.updMac_rfu (s : State) (f : MacSt → MacSt) : (s.updMac f).rfu = s.rfu := rfl
@[simp] theorem State.updMac_rge (s : State) (f : MacSt → MacSt) : (s.updMac f).rge = s.rge := rfl
@[simp] theorem State.updMac_snt (s : State) (f : MacSt → MacSt) : (s.updMac f).snt = s.snt := rfl
@[simp] theorem State.updMac_rfx (s : State) (f : MacSt → MacSt) : (s.updMac f).rfx = s.rfx := rfl
@[simp] theorem State.updMac_tk (s : State) (f : MacSt → MacSt) : (s.updMac f).tk = s.tk := rfl
@[simp] theorem State.updMac_vsm (s : State) (f : MacSt → MacSt) : (s.updMac f).vsm = s.vsm := rfl
@[simp] theorem State.updMac_kvt (s : State) (f : MacSt → MacSt) : (s.updMac f).kvt = s.kvt := rfl
@[simp] theorem State.updMac_mbx (s : State) (f : MacSt → MacSt) : (s.updMac f).mbx = s.mbx := rfl
@[simp] theorem State.updMac_bay (s : State) (f : MacSt → MacSt) : (s.updMac f).bay = s.bay := rfl
@[simp] theorem State.updMac_props (s : State) (f : MacSt → MacSt) : (s.updMac f).props = s.props := rfl
@[simp] theorem State.updMac_ppc (s : State) (f : MacSt → MacSt) : (s.updMac f).ppc = s.ppc := rfl
@[simp] theorem State.updMac_xbr (s : State) (f : MacSt → MacSt) : (s.updMac f).xbr = s.xbr := rfl
@[simp] theorem State.updMac_sep (s : State) (f : MacSt → MacSt) : (s.updMac f).sep = s.sep := rfl
@[simp] theorem State.updMac_pwr (s : State) (f : MacSt → MacSt) : (s.updMac f).pwr = s.pwr := rfl
@[simp] theorem State.updMac_lcu (s : State) (f : MacSt → MacSt) : (s.updMac f).lcu = s.lcu := rfl
@[simp] theorem State.updMac_pmu (s : State) (f : MacSt → MacSt) : (s.updMac f).pmu = s.pmu := rfl
@[simp] theorem State.updMac_tst (s : State) (f : MacSt → MacSt) : (s.updMac f).tst = s.tst := rfl
@[simp] theorem State.updMac_out (s : State) (f : MacSt → MacSt) : (s.updMac f).out = s.out := rfl
@[simp] theorem State.updMac_freeCtr (s : State) (f : MacSt → MacSt) : (s.updMac f).freeCtr = s.freeCtr := rfl
@[simp] theorem State.updMac_pending (s : State) (f : MacSt → MacSt) : (s.updMac f).pending = s.pending := rfl
@[simp] theorem State.updMac_mac (s : State) (f : MacSt → MacSt) : (s.updMac f).mac = f s.mac := rfl
@[simp] theorem State.updMac_reg (s : State) (f : MacSt → MacSt) (a : Nat) : (s.updMac f).reg a = s.reg a := rfl
@[simp] theorem State.updMac_cfg (s : State) (f : MacSt → MacSt) (a hi lo : Nat) : (s.updMac f).cfg a hi lo = s.cfg a hi lo := rfl
@[simp] theorem State.updMac_cfgBit (s : State) (f : MacSt → MacSt) (a i : Nat) : (s.updMac f).cfgBit a i = s.cfgBit a i := rfl

@[simp] theorem State.updTag_now (s : State) (t : Nat) (f : TagRec → TagRec) : (s.updTag t f).now = s.now := rfl
@[simp] theorem State.updTag_part (s : State) (t : Nat) (f : TagRec → TagRec) : (s.updTag t f).part = s.part := rfl
@[simp] theorem State.updTag_slot (s : State) (t : Nat) (f : TagRec → TagRec) : (s.updTag t f).slot = s.slot := rfl
@[simp] theorem State.updTag_uid (s : State) (t : Nat) (f : TagRec → TagRec) : (s.updTag t f).uid = s.uid := rfl
@[simp] theorem State.updTag_smbAddr (s : State) (t : Nat) (f : TagRec → TagRec) : (s.updTag t f).smbAddr = s.smbAddr := rfl
@[simp] theorem State.updTag_strapsOk (s : State) (t : Nat) (f : TagRec → TagRec) : (s.updTag t f).strapsOk = s.strapsOk := rfl
@[simp] theorem State.updTag_macs (s : State) (t : Nat) (f : TagRec → TagRec) : (s.updTag t f).macs = s.macs := rfl
@[simp] theorem State.updTag_regs (s : State) (t : Nat) (f : TagRec → TagRec) : (s.updTag t f).regs = s.regs := rfl
@[simp] theorem State.updTag_rfu (s : State) (t : Nat) (f : TagRec → TagRec) : (s.updTag t f).rfu = s.rfu := rfl
@[simp] theorem State.updTag_rge (s : State) (t : Nat) (f : TagRec → TagRec) : (s.updTag t f).rge = s.rge := rfl
@[simp] theorem State.updTag_snt (s : State) (t : Nat) (f : TagRec → TagRec) : (s.updTag t f).snt = s.snt := rfl
@[simp] theorem State.updTag_rfx (s : State) (t : Nat) (f : TagRec → TagRec) : (s.updTag t f).rfx = s.rfx := rfl
@[simp] theorem State.updTag_tk (s : State) (t : Nat) (f : TagRec → TagRec) : (s.updTag t f).tk = s.tk := rfl
@[simp] theorem State.updTag_vsm (s : State) (t : Nat) (f : TagRec → TagRec) : (s.updTag t f).vsm = s.vsm := rfl
@[simp] theorem State.updTag_kvt (s : State) (t : Nat) (f : TagRec → TagRec) : (s.updTag t f).kvt = s.kvt := rfl
@[simp] theorem State.updTag_mbx (s : State) (t : Nat) (f : TagRec → TagRec) : (s.updTag t f).mbx = s.mbx := rfl
@[simp] theorem State.updTag_bay (s : State) (t : Nat) (f : TagRec → TagRec) : (s.updTag t f).bay = s.bay := rfl
@[simp] theorem State.updTag_props (s : State) (t : Nat) (f : TagRec → TagRec) : (s.updTag t f).props = s.props := rfl
@[simp] theorem State.updTag_ppc (s : State) (t : Nat) (f : TagRec → TagRec) : (s.updTag t f).ppc = s.ppc := rfl
@[simp] theorem State.updTag_xbr (s : State) (t : Nat) (f : TagRec → TagRec) : (s.updTag t f).xbr = s.xbr := rfl
@[simp] theorem State.updTag_sep (s : State) (t : Nat) (f : TagRec → TagRec) : (s.updTag t f).sep = s.sep := rfl
@[simp] theorem State.updTag_pwr (s : State) (t : Nat) (f : TagRec → TagRec) : (s.updTag t f).pwr = s.pwr := rfl
@[simp] theorem State.updTag_lcu (s : State) (t : Nat) (f : TagRec → TagRec) : (s.updTag t f).lcu = s.lcu := rfl
@[simp] theorem State.updTag_pmu (s : State) (t : Nat) (f : TagRec → TagRec) : (s.updTag t f).pmu = s.pmu := rfl
@[simp] theorem State.updTag_tst (s : State) (t : Nat) (f : TagRec → TagRec) : (s.updTag t f).tst = s.tst := rfl
@[simp] theorem State.updTag_mac (s : State) (t : Nat) (f : TagRec → TagRec) : (s.updTag t f).mac = s.mac := rfl
@[simp] theorem State.updTag_out (s : State) (t : Nat) (f : TagRec → TagRec) : (s.updTag t f).out = s.out := rfl
@[simp] theorem State.updTag_freeCtr (s : State) (t : Nat) (f : TagRec → TagRec) : (s.updTag t f).freeCtr = s.freeCtr := rfl
@[simp] theorem State.updTag_pending (s : State) (t : Nat) (f : TagRec → TagRec) : (s.updTag t f).pending = s.pending := rfl
@[simp] theorem State.updTag_hce (s : State) (t : Nat) (f : TagRec → TagRec) : (s.updTag t f).hce = { s.hce with tags := updWhere (fun r => r.tag = t) f s.hce.tags } := rfl
@[simp] theorem State.updTag_reg (s : State) (t : Nat) (f : TagRec → TagRec) (a : Nat) : (s.updTag t f).reg a = s.reg a := rfl
@[simp] theorem State.updTag_cfg (s : State) (t : Nat) (f : TagRec → TagRec) (a hi lo : Nat) : (s.updTag t f).cfg a hi lo = s.cfg a hi lo := rfl
@[simp] theorem State.updTag_cfgBit (s : State) (t : Nat) (f : TagRec → TagRec) (a i : Nat) : (s.updTag t f).cfgBit a i = s.cfgBit a i := rfl

@[simp] theorem State.updCtrl_now (s : State) (c : Nat) (f : Ctrl → Ctrl) : (s.updCtrl c f).now = s.now := rfl
@[simp] theorem State.updCtrl_part (s : State) (c : Nat) (f : Ctrl → Ctrl) : (s.updCtrl c f).part = s.part := rfl
@[simp] theorem State.updCtrl_slot (s : State) (c : Nat) (f : Ctrl → Ctrl) : (s.updCtrl c f).slot = s.slot := rfl
@[simp] theorem State.updCtrl_uid (s : State) (c : Nat) (f : Ctrl → Ctrl) : (s.updCtrl c f).uid = s.uid := rfl
@[simp] theorem State.updCtrl_smbAddr (s : State) (c : Nat) (f : Ctrl → Ctrl) : (s.updCtrl c f).smbAddr = s.smbAddr := rfl
@[simp] theorem State.updCtrl_strapsOk (s : State) (c : Nat) (f : Ctrl → Ctrl) : (s.updCtrl c f).strapsOk = s.strapsOk := rfl
@[simp] theorem State.updCtrl_macs (s : State) (c : Nat) (f : Ctrl → Ctrl) : (s.updCtrl c f).macs = s.macs := rfl
@[simp] theorem State.updCtrl_regs (s : State) (c : Nat) (f : Ctrl → Ctrl) : (s.updCtrl c f).regs = s.regs := rfl
@[simp] theorem State.updCtrl_rfu (s : State) (c : Nat) (f : Ctrl → Ctrl) : (s.updCtrl c f).rfu = s.rfu := rfl
@[simp] theorem State.updCtrl_rge (s : State) (c : Nat) (f : Ctrl → Ctrl) : (s.updCtrl c f).rge = s.rge := rfl
@[simp] theorem State.updCtrl_snt (s : State) (c : Nat) (f : Ctrl → Ctrl) : (s.updCtrl c f).snt = s.snt := rfl
@[simp] theorem State.updCtrl_rfx (s : State) (c : Nat) (f : Ctrl → Ctrl) : (s.updCtrl c f).rfx = s.rfx := rfl
@[simp] theorem State.updCtrl_tk (s : State) (c : Nat) (f : Ctrl → Ctrl) : (s.updCtrl c f).tk = s.tk := rfl
@[simp] theorem State.updCtrl_vsm (s : State) (c : Nat) (f : Ctrl → Ctrl) : (s.updCtrl c f).vsm = s.vsm := rfl
@[simp] theorem State.updCtrl_kvt (s : State) (c : Nat) (f : Ctrl → Ctrl) : (s.updCtrl c f).kvt = s.kvt := rfl
@[simp] theorem State.updCtrl_mbx (s : State) (c : Nat) (f : Ctrl → Ctrl) : (s.updCtrl c f).mbx = s.mbx := rfl
@[simp] theorem State.updCtrl_bay (s : State) (c : Nat) (f : Ctrl → Ctrl) : (s.updCtrl c f).bay = s.bay := rfl
@[simp] theorem State.updCtrl_props (s : State) (c : Nat) (f : Ctrl → Ctrl) : (s.updCtrl c f).props = s.props := rfl
@[simp] theorem State.updCtrl_ppc (s : State) (c : Nat) (f : Ctrl → Ctrl) : (s.updCtrl c f).ppc = s.ppc := rfl
@[simp] theorem State.updCtrl_xbr (s : State) (c : Nat) (f : Ctrl → Ctrl) : (s.updCtrl c f).xbr = s.xbr := rfl
@[simp] theorem State.updCtrl_sep (s : State) (c : Nat) (f : Ctrl → Ctrl) : (s.updCtrl c f).sep = s.sep := rfl
@[simp] theorem State.updCtrl_pwr (s : State) (c : Nat) (f : Ctrl → Ctrl) : (s.updCtrl c f).pwr = s.pwr := rfl
@[simp] theorem State.updCtrl_lcu (s : State) (c : Nat) (f : Ctrl → Ctrl) : (s.updCtrl c f).lcu = s.lcu := rfl
@[simp] theorem State.updCtrl_pmu (s : State) (c : Nat) (f : Ctrl → Ctrl) : (s.updCtrl c f).pmu = s.pmu := rfl
@[simp] theorem State.updCtrl_tst (s : State) (c : Nat) (f : Ctrl → Ctrl) : (s.updCtrl c f).tst = s.tst := rfl
@[simp] theorem State.updCtrl_mac (s : State) (c : Nat) (f : Ctrl → Ctrl) : (s.updCtrl c f).mac = s.mac := rfl
@[simp] theorem State.updCtrl_out (s : State) (c : Nat) (f : Ctrl → Ctrl) : (s.updCtrl c f).out = s.out := rfl
@[simp] theorem State.updCtrl_freeCtr (s : State) (c : Nat) (f : Ctrl → Ctrl) : (s.updCtrl c f).freeCtr = s.freeCtr := rfl
@[simp] theorem State.updCtrl_pending (s : State) (c : Nat) (f : Ctrl → Ctrl) : (s.updCtrl c f).pending = s.pending := rfl
@[simp] theorem State.updCtrl_hce (s : State) (c : Nat) (f : Ctrl → Ctrl) : (s.updCtrl c f).hce = { s.hce with ctrls := updWhere (fun r => r.cntlid = c) f s.hce.ctrls } := rfl
@[simp] theorem State.updCtrl_reg (s : State) (c : Nat) (f : Ctrl → Ctrl) (a : Nat) : (s.updCtrl c f).reg a = s.reg a := rfl
@[simp] theorem State.updCtrl_cfg (s : State) (c : Nat) (f : Ctrl → Ctrl) (a hi lo : Nat) : (s.updCtrl c f).cfg a hi lo = s.cfg a hi lo := rfl
@[simp] theorem State.updCtrl_cfgBit (s : State) (c : Nat) (f : Ctrl → Ctrl) (a i : Nat) : (s.updCtrl c f).cfgBit a i = s.cfgBit a i := rfl

@[simp] theorem State.updSq_now (s : State) (c : Nat) (q : Nat) (f : SubQ → SubQ) : (s.updSq c q f).now = s.now := rfl
@[simp] theorem State.updSq_part (s : State) (c : Nat) (q : Nat) (f : SubQ → SubQ) : (s.updSq c q f).part = s.part := rfl
@[simp] theorem State.updSq_slot (s : State) (c : Nat) (q : Nat) (f : SubQ → SubQ) : (s.updSq c q f).slot = s.slot := rfl
@[simp] theorem State.updSq_uid (s : State) (c : Nat) (q : Nat) (f : SubQ → SubQ) : (s.updSq c q f).uid = s.uid := rfl
@[simp] theorem State.updSq_smbAddr (s : State) (c : Nat) (q : Nat) (f : SubQ → SubQ) : (s.updSq c q f).smbAddr = s.smbAddr := rfl
@[simp] theorem State.updSq_strapsOk (s : State) (c : Nat) (q : Nat) (f : SubQ → SubQ) : (s.updSq c q f).strapsOk = s.strapsOk := rfl
@[simp] theorem State.updSq_macs (s : State) (c : Nat) (q : Nat) (f : SubQ → SubQ) : (s.updSq c q f).macs = s.macs := rfl
@[simp] theorem State.updSq_regs (s : State) (c : Nat) (q : Nat) (f : SubQ → SubQ) : (s.updSq c q f).regs = s.regs := rfl
@[simp] theorem State.updSq_rfu (s : State) (c : Nat) (q : Nat) (f : SubQ → SubQ) : (s.updSq c q f).rfu = s.rfu := rfl
@[simp] theorem State.updSq_rge (s : State) (c : Nat) (q : Nat) (f : SubQ → SubQ) : (s.updSq c q f).rge = s.rge := rfl
@[simp] theorem State.updSq_snt (s : State) (c : Nat) (q : Nat) (f : SubQ → SubQ) : (s.updSq c q f).snt = s.snt := rfl
@[simp] theorem State.updSq_rfx (s : State) (c : Nat) (q : Nat) (f : SubQ → SubQ) : (s.updSq c q f).rfx = s.rfx := rfl
@[simp] theorem State.updSq_tk (s : State) (c : Nat) (q : Nat) (f : SubQ → SubQ) : (s.updSq c q f).tk = s.tk := rfl
@[simp] theorem State.updSq_vsm (s : State) (c : Nat) (q : Nat) (f : SubQ → SubQ) : (s.updSq c q f).vsm = s.vsm := rfl
@[simp] theorem State.updSq_kvt (s : State) (c : Nat) (q : Nat) (f : SubQ → SubQ) : (s.updSq c q f).kvt = s.kvt := rfl
@[simp] theorem State.updSq_mbx (s : State) (c : Nat) (q : Nat) (f : SubQ → SubQ) : (s.updSq c q f).mbx = s.mbx := rfl
@[simp] theorem State.updSq_bay (s : State) (c : Nat) (q : Nat) (f : SubQ → SubQ) : (s.updSq c q f).bay = s.bay := rfl
@[simp] theorem State.updSq_props (s : State) (c : Nat) (q : Nat) (f : SubQ → SubQ) : (s.updSq c q f).props = s.props := rfl
@[simp] theorem State.updSq_ppc (s : State) (c : Nat) (q : Nat) (f : SubQ → SubQ) : (s.updSq c q f).ppc = s.ppc := rfl
@[simp] theorem State.updSq_xbr (s : State) (c : Nat) (q : Nat) (f : SubQ → SubQ) : (s.updSq c q f).xbr = s.xbr := rfl
@[simp] theorem State.updSq_sep (s : State) (c : Nat) (q : Nat) (f : SubQ → SubQ) : (s.updSq c q f).sep = s.sep := rfl
@[simp] theorem State.updSq_pwr (s : State) (c : Nat) (q : Nat) (f : SubQ → SubQ) : (s.updSq c q f).pwr = s.pwr := rfl
@[simp] theorem State.updSq_lcu (s : State) (c : Nat) (q : Nat) (f : SubQ → SubQ) : (s.updSq c q f).lcu = s.lcu := rfl
@[simp] theorem State.updSq_pmu (s : State) (c : Nat) (q : Nat) (f : SubQ → SubQ) : (s.updSq c q f).pmu = s.pmu := rfl
@[simp] theorem State.updSq_tst (s : State) (c : Nat) (q : Nat) (f : SubQ → SubQ) : (s.updSq c q f).tst = s.tst := rfl
@[simp] theorem State.updSq_mac (s : State) (c : Nat) (q : Nat) (f : SubQ → SubQ) : (s.updSq c q f).mac = s.mac := rfl
@[simp] theorem State.updSq_out (s : State) (c : Nat) (q : Nat) (f : SubQ → SubQ) : (s.updSq c q f).out = s.out := rfl
@[simp] theorem State.updSq_freeCtr (s : State) (c : Nat) (q : Nat) (f : SubQ → SubQ) : (s.updSq c q f).freeCtr = s.freeCtr := rfl
@[simp] theorem State.updSq_pending (s : State) (c : Nat) (q : Nat) (f : SubQ → SubQ) : (s.updSq c q f).pending = s.pending := rfl
@[simp] theorem State.updSq_hce (s : State) (c : Nat) (q : Nat) (f : SubQ → SubQ) : (s.updSq c q f).hce = { s.hce with sqs := updWhere (fun r => r.cntlid = c && r.sqid = q) f s.hce.sqs } := rfl
@[simp] theorem State.updSq_reg (s : State) (c : Nat) (q : Nat) (f : SubQ → SubQ) (a : Nat) : (s.updSq c q f).reg a = s.reg a := rfl
@[simp] theorem State.updSq_cfg (s : State) (c : Nat) (q : Nat) (f : SubQ → SubQ) (a hi lo : Nat) : (s.updSq c q f).cfg a hi lo = s.cfg a hi lo := rfl
@[simp] theorem State.updSq_cfgBit (s : State) (c : Nat) (q : Nat) (f : SubQ → SubQ) (a i : Nat) : (s.updSq c q f).cfgBit a i = s.cfgBit a i := rfl

@[simp] theorem State.updConn_now (s : State) (c : Nat) (f : HConn → HConn) : (s.updConn c f).now = s.now := rfl
@[simp] theorem State.updConn_part (s : State) (c : Nat) (f : HConn → HConn) : (s.updConn c f).part = s.part := rfl
@[simp] theorem State.updConn_slot (s : State) (c : Nat) (f : HConn → HConn) : (s.updConn c f).slot = s.slot := rfl
@[simp] theorem State.updConn_uid (s : State) (c : Nat) (f : HConn → HConn) : (s.updConn c f).uid = s.uid := rfl
@[simp] theorem State.updConn_smbAddr (s : State) (c : Nat) (f : HConn → HConn) : (s.updConn c f).smbAddr = s.smbAddr := rfl
@[simp] theorem State.updConn_strapsOk (s : State) (c : Nat) (f : HConn → HConn) : (s.updConn c f).strapsOk = s.strapsOk := rfl
@[simp] theorem State.updConn_macs (s : State) (c : Nat) (f : HConn → HConn) : (s.updConn c f).macs = s.macs := rfl
@[simp] theorem State.updConn_regs (s : State) (c : Nat) (f : HConn → HConn) : (s.updConn c f).regs = s.regs := rfl
@[simp] theorem State.updConn_rfu (s : State) (c : Nat) (f : HConn → HConn) : (s.updConn c f).rfu = s.rfu := rfl
@[simp] theorem State.updConn_rge (s : State) (c : Nat) (f : HConn → HConn) : (s.updConn c f).rge = s.rge := rfl
@[simp] theorem State.updConn_snt (s : State) (c : Nat) (f : HConn → HConn) : (s.updConn c f).snt = s.snt := rfl
@[simp] theorem State.updConn_rfx (s : State) (c : Nat) (f : HConn → HConn) : (s.updConn c f).rfx = s.rfx := rfl
@[simp] theorem State.updConn_tk (s : State) (c : Nat) (f : HConn → HConn) : (s.updConn c f).tk = s.tk := rfl
@[simp] theorem State.updConn_vsm (s : State) (c : Nat) (f : HConn → HConn) : (s.updConn c f).vsm = s.vsm := rfl
@[simp] theorem State.updConn_kvt (s : State) (c : Nat) (f : HConn → HConn) : (s.updConn c f).kvt = s.kvt := rfl
@[simp] theorem State.updConn_mbx (s : State) (c : Nat) (f : HConn → HConn) : (s.updConn c f).mbx = s.mbx := rfl
@[simp] theorem State.updConn_bay (s : State) (c : Nat) (f : HConn → HConn) : (s.updConn c f).bay = s.bay := rfl
@[simp] theorem State.updConn_props (s : State) (c : Nat) (f : HConn → HConn) : (s.updConn c f).props = s.props := rfl
@[simp] theorem State.updConn_ppc (s : State) (c : Nat) (f : HConn → HConn) : (s.updConn c f).ppc = s.ppc := rfl
@[simp] theorem State.updConn_xbr (s : State) (c : Nat) (f : HConn → HConn) : (s.updConn c f).xbr = s.xbr := rfl
@[simp] theorem State.updConn_sep (s : State) (c : Nat) (f : HConn → HConn) : (s.updConn c f).sep = s.sep := rfl
@[simp] theorem State.updConn_pwr (s : State) (c : Nat) (f : HConn → HConn) : (s.updConn c f).pwr = s.pwr := rfl
@[simp] theorem State.updConn_lcu (s : State) (c : Nat) (f : HConn → HConn) : (s.updConn c f).lcu = s.lcu := rfl
@[simp] theorem State.updConn_pmu (s : State) (c : Nat) (f : HConn → HConn) : (s.updConn c f).pmu = s.pmu := rfl
@[simp] theorem State.updConn_tst (s : State) (c : Nat) (f : HConn → HConn) : (s.updConn c f).tst = s.tst := rfl
@[simp] theorem State.updConn_mac (s : State) (c : Nat) (f : HConn → HConn) : (s.updConn c f).mac = s.mac := rfl
@[simp] theorem State.updConn_out (s : State) (c : Nat) (f : HConn → HConn) : (s.updConn c f).out = s.out := rfl
@[simp] theorem State.updConn_freeCtr (s : State) (c : Nat) (f : HConn → HConn) : (s.updConn c f).freeCtr = s.freeCtr := rfl
@[simp] theorem State.updConn_pending (s : State) (c : Nat) (f : HConn → HConn) : (s.updConn c f).pending = s.pending := rfl
@[simp] theorem State.updConn_hce (s : State) (c : Nat) (f : HConn → HConn) : (s.updConn c f).hce = { s.hce with conns := updWhere (fun r => r.id = c) f s.hce.conns } := rfl
@[simp] theorem State.updConn_reg (s : State) (c : Nat) (f : HConn → HConn) (a : Nat) : (s.updConn c f).reg a = s.reg a := rfl
@[simp] theorem State.updConn_cfg (s : State) (c : Nat) (f : HConn → HConn) (a hi lo : Nat) : (s.updConn c f).cfg a hi lo = s.cfg a hi lo := rfl
@[simp] theorem State.updConn_cfgBit (s : State) (c : Nat) (f : HConn → HConn) (a i : Nat) : (s.updConn c f).cfgBit a i = s.cfgBit a i := rfl

@[simp] theorem State.updVs_now (s : State) (v : Nat) (f : Vs → Vs) : (s.updVs v f).now = s.now := rfl
@[simp] theorem State.updVs_part (s : State) (v : Nat) (f : Vs → Vs) : (s.updVs v f).part = s.part := rfl
@[simp] theorem State.updVs_slot (s : State) (v : Nat) (f : Vs → Vs) : (s.updVs v f).slot = s.slot := rfl
@[simp] theorem State.updVs_uid (s : State) (v : Nat) (f : Vs → Vs) : (s.updVs v f).uid = s.uid := rfl
@[simp] theorem State.updVs_smbAddr (s : State) (v : Nat) (f : Vs → Vs) : (s.updVs v f).smbAddr = s.smbAddr := rfl
@[simp] theorem State.updVs_strapsOk (s : State) (v : Nat) (f : Vs → Vs) : (s.updVs v f).strapsOk = s.strapsOk := rfl
@[simp] theorem State.updVs_macs (s : State) (v : Nat) (f : Vs → Vs) : (s.updVs v f).macs = s.macs := rfl
@[simp] theorem State.updVs_regs (s : State) (v : Nat) (f : Vs → Vs) : (s.updVs v f).regs = s.regs := rfl
@[simp] theorem State.updVs_hce (s : State) (v : Nat) (f : Vs → Vs) : (s.updVs v f).hce = s.hce := rfl
@[simp] theorem State.updVs_rfu (s : State) (v : Nat) (f : Vs → Vs) : (s.updVs v f).rfu = s.rfu := rfl
@[simp] theorem State.updVs_rge (s : State) (v : Nat) (f : Vs → Vs) : (s.updVs v f).rge = s.rge := rfl
@[simp] theorem State.updVs_snt (s : State) (v : Nat) (f : Vs → Vs) : (s.updVs v f).snt = s.snt := rfl
@[simp] theorem State.updVs_rfx (s : State) (v : Nat) (f : Vs → Vs) : (s.updVs v f).rfx = s.rfx := rfl
@[simp] theorem State.updVs_tk (s : State) (v : Nat) (f : Vs → Vs) : (s.updVs v f).tk = s.tk := rfl
@[simp] theorem State.updVs_kvt (s : State) (v : Nat) (f : Vs → Vs) : (s.updVs v f).kvt = s.kvt := rfl
@[simp] theorem State.updVs_mbx (s : State) (v : Nat) (f : Vs → Vs) : (s.updVs v f).mbx = s.mbx := rfl
@[simp] theorem State.updVs_bay (s : State) (v : Nat) (f : Vs → Vs) : (s.updVs v f).bay = s.bay := rfl
@[simp] theorem State.updVs_props (s : State) (v : Nat) (f : Vs → Vs) : (s.updVs v f).props = s.props := rfl
@[simp] theorem State.updVs_ppc (s : State) (v : Nat) (f : Vs → Vs) : (s.updVs v f).ppc = s.ppc := rfl
@[simp] theorem State.updVs_xbr (s : State) (v : Nat) (f : Vs → Vs) : (s.updVs v f).xbr = s.xbr := rfl
@[simp] theorem State.updVs_sep (s : State) (v : Nat) (f : Vs → Vs) : (s.updVs v f).sep = s.sep := rfl
@[simp] theorem State.updVs_pwr (s : State) (v : Nat) (f : Vs → Vs) : (s.updVs v f).pwr = s.pwr := rfl
@[simp] theorem State.updVs_lcu (s : State) (v : Nat) (f : Vs → Vs) : (s.updVs v f).lcu = s.lcu := rfl
@[simp] theorem State.updVs_pmu (s : State) (v : Nat) (f : Vs → Vs) : (s.updVs v f).pmu = s.pmu := rfl
@[simp] theorem State.updVs_tst (s : State) (v : Nat) (f : Vs → Vs) : (s.updVs v f).tst = s.tst := rfl
@[simp] theorem State.updVs_mac (s : State) (v : Nat) (f : Vs → Vs) : (s.updVs v f).mac = s.mac := rfl
@[simp] theorem State.updVs_out (s : State) (v : Nat) (f : Vs → Vs) : (s.updVs v f).out = s.out := rfl
@[simp] theorem State.updVs_freeCtr (s : State) (v : Nat) (f : Vs → Vs) : (s.updVs v f).freeCtr = s.freeCtr := rfl
@[simp] theorem State.updVs_pending (s : State) (v : Nat) (f : Vs → Vs) : (s.updVs v f).pending = s.pending := rfl
@[simp] theorem State.updVs_vsm (s : State) (v : Nat) (f : Vs → Vs) : (s.updVs v f).vsm = { s.vsm with subs := updWhere (fun r => r.vsid = v) f s.vsm.subs } := rfl
@[simp] theorem State.updVs_reg (s : State) (v : Nat) (f : Vs → Vs) (a : Nat) : (s.updVs v f).reg a = s.reg a := rfl
@[simp] theorem State.updVs_cfg (s : State) (v : Nat) (f : Vs → Vs) (a hi lo : Nat) : (s.updVs v f).cfg a hi lo = s.cfg a hi lo := rfl
@[simp] theorem State.updVs_cfgBit (s : State) (v : Nat) (f : Vs → Vs) (a i : Nat) : (s.updVs v f).cfgBit a i = s.cfgBit a i := rfl

@[simp] theorem State.updNs_now (s : State) (v : Nat) (n : Nat) (f : Ns → Ns) : (s.updNs v n f).now = s.now := rfl
@[simp] theorem State.updNs_part (s : State) (v : Nat) (n : Nat) (f : Ns → Ns) : (s.updNs v n f).part = s.part := rfl
@[simp] theorem State.updNs_slot (s : State) (v : Nat) (n : Nat) (f : Ns → Ns) : (s.updNs v n f).slot = s.slot := rfl
@[simp] theorem State.updNs_uid (s : State) (v : Nat) (n : Nat) (f : Ns → Ns) : (s.updNs v n f).uid = s.uid := rfl
@[simp] theorem State.updNs_smbAddr (s : State) (v : Nat) (n : Nat) (f : Ns → Ns) : (s.updNs v n f).smbAddr = s.smbAddr := rfl
@[simp] theorem State.updNs_strapsOk (s : State) (v : Nat) (n : Nat) (f : Ns → Ns) : (s.updNs v n f).strapsOk = s.strapsOk := rfl
@[simp] theorem State.updNs_macs (s : State) (v : Nat) (n : Nat) (f : Ns → Ns) : (s.updNs v n f).macs = s.macs := rfl
@[simp] theorem State.updNs_regs (s : State) (v : Nat) (n : Nat) (f : Ns → Ns) : (s.updNs v n f).regs = s.regs := rfl
@[simp] theorem State.updNs_hce (s : State) (v : Nat) (n : Nat) (f : Ns → Ns) : (s.updNs v n f).hce = s.hce := rfl
@[simp] theorem State.updNs_rfu (s : State) (v : Nat) (n : Nat) (f : Ns → Ns) : (s.updNs v n f).rfu = s.rfu := rfl
@[simp] theorem State.updNs_rge (s : State) (v : Nat) (n : Nat) (f : Ns → Ns) : (s.updNs v n f).rge = s.rge := rfl
@[simp] theorem State.updNs_snt (s : State) (v : Nat) (n : Nat) (f : Ns → Ns) : (s.updNs v n f).snt = s.snt := rfl
@[simp] theorem State.updNs_rfx (s : State) (v : Nat) (n : Nat) (f : Ns → Ns) : (s.updNs v n f).rfx = s.rfx := rfl
@[simp] theorem State.updNs_tk (s : State) (v : Nat) (n : Nat) (f : Ns → Ns) : (s.updNs v n f).tk = s.tk := rfl
@[simp] theorem State.updNs_kvt (s : State) (v : Nat) (n : Nat) (f : Ns → Ns) : (s.updNs v n f).kvt = s.kvt := rfl
@[simp] theorem State.updNs_mbx (s : State) (v : Nat) (n : Nat) (f : Ns → Ns) : (s.updNs v n f).mbx = s.mbx := rfl
@[simp] theorem State.updNs_bay (s : State) (v : Nat) (n : Nat) (f : Ns → Ns) : (s.updNs v n f).bay = s.bay := rfl
@[simp] theorem State.updNs_props (s : State) (v : Nat) (n : Nat) (f : Ns → Ns) : (s.updNs v n f).props = s.props := rfl
@[simp] theorem State.updNs_ppc (s : State) (v : Nat) (n : Nat) (f : Ns → Ns) : (s.updNs v n f).ppc = s.ppc := rfl
@[simp] theorem State.updNs_xbr (s : State) (v : Nat) (n : Nat) (f : Ns → Ns) : (s.updNs v n f).xbr = s.xbr := rfl
@[simp] theorem State.updNs_sep (s : State) (v : Nat) (n : Nat) (f : Ns → Ns) : (s.updNs v n f).sep = s.sep := rfl
@[simp] theorem State.updNs_pwr (s : State) (v : Nat) (n : Nat) (f : Ns → Ns) : (s.updNs v n f).pwr = s.pwr := rfl
@[simp] theorem State.updNs_lcu (s : State) (v : Nat) (n : Nat) (f : Ns → Ns) : (s.updNs v n f).lcu = s.lcu := rfl
@[simp] theorem State.updNs_pmu (s : State) (v : Nat) (n : Nat) (f : Ns → Ns) : (s.updNs v n f).pmu = s.pmu := rfl
@[simp] theorem State.updNs_tst (s : State) (v : Nat) (n : Nat) (f : Ns → Ns) : (s.updNs v n f).tst = s.tst := rfl
@[simp] theorem State.updNs_mac (s : State) (v : Nat) (n : Nat) (f : Ns → Ns) : (s.updNs v n f).mac = s.mac := rfl
@[simp] theorem State.updNs_out (s : State) (v : Nat) (n : Nat) (f : Ns → Ns) : (s.updNs v n f).out = s.out := rfl
@[simp] theorem State.updNs_freeCtr (s : State) (v : Nat) (n : Nat) (f : Ns → Ns) : (s.updNs v n f).freeCtr = s.freeCtr := rfl
@[simp] theorem State.updNs_pending (s : State) (v : Nat) (n : Nat) (f : Ns → Ns) : (s.updNs v n f).pending = s.pending := rfl
@[simp] theorem State.updNs_vsm (s : State) (v : Nat) (n : Nat) (f : Ns → Ns) : (s.updNs v n f).vsm = { s.vsm with nss := updWhere (fun r => r.vsid = v && r.nsid = n) f s.vsm.nss } := rfl
@[simp] theorem State.updNs_reg (s : State) (v : Nat) (n : Nat) (f : Ns → Ns) (a : Nat) : (s.updNs v n f).reg a = s.reg a := rfl
@[simp] theorem State.updNs_cfg (s : State) (v : Nat) (n : Nat) (f : Ns → Ns) (a hi lo : Nat) : (s.updNs v n f).cfg a hi lo = s.cfg a hi lo := rfl
@[simp] theorem State.updNs_cfgBit (s : State) (v : Nat) (n : Nat) (f : Ns → Ns) (a i : Nat) : (s.updNs v n f).cfgBit a i = s.cfgBit a i := rfl

@[simp] theorem State.updRing_now (s : State) (r : Nat) (f : Ring → Ring) : (s.updRing r f).now = s.now := rfl
@[simp] theorem State.updRing_part (s : State) (r : Nat) (f : Ring → Ring) : (s.updRing r f).part = s.part := rfl
@[simp] theorem State.updRing_slot (s : State) (r : Nat) (f : Ring → Ring) : (s.updRing r f).slot = s.slot := rfl
@[simp] theorem State.updRing_uid (s : State) (r : Nat) (f : Ring → Ring) : (s.updRing r f).uid = s.uid := rfl
@[simp] theorem State.updRing_smbAddr (s : State) (r : Nat) (f : Ring → Ring) : (s.updRing r f).smbAddr = s.smbAddr := rfl
@[simp] theorem State.updRing_strapsOk (s : State) (r : Nat) (f : Ring → Ring) : (s.updRing r f).strapsOk = s.strapsOk := rfl
@[simp] theorem State.updRing_macs (s : State) (r : Nat) (f : Ring → Ring) : (s.updRing r f).macs = s.macs := rfl
@[simp] theorem State.updRing_regs (s : State) (r : Nat) (f : Ring → Ring) : (s.updRing r f).regs = s.regs := rfl
@[simp] theorem State.updRing_hce (s : State) (r : Nat) (f : Ring → Ring) : (s.updRing r f).hce = s.hce := rfl
@[simp] theorem State.updRing_rfu (s : State) (r : Nat) (f : Ring → Ring) : (s.updRing r f).rfu = s.rfu := rfl
@[simp] theorem State.updRing_snt (s : State) (r : Nat) (f : Ring → Ring) : (s.updRing r f).snt = s.snt := rfl
@[simp] theorem State.updRing_rfx (s : State) (r : Nat) (f : Ring → Ring) : (s.updRing r f).rfx = s.rfx := rfl
@[simp] theorem State.updRing_tk (s : State) (r : Nat) (f : Ring → Ring) : (s.updRing r f).tk = s.tk := rfl
@[simp] theorem State.updRing_vsm (s : State) (r : Nat) (f : Ring → Ring) : (s.updRing r f).vsm = s.vsm := rfl
@[simp] theorem State.updRing_kvt (s : State) (r : Nat) (f : Ring → Ring) : (s.updRing r f).kvt = s.kvt := rfl
@[simp] theorem State.updRing_mbx (s : State) (r : Nat) (f : Ring → Ring) : (s.updRing r f).mbx = s.mbx := rfl
@[simp] theorem State.updRing_bay (s : State) (r : Nat) (f : Ring → Ring) : (s.updRing r f).bay = s.bay := rfl
@[simp] theorem State.updRing_props (s : State) (r : Nat) (f : Ring → Ring) : (s.updRing r f).props = s.props := rfl
@[simp] theorem State.updRing_ppc (s : State) (r : Nat) (f : Ring → Ring) : (s.updRing r f).ppc = s.ppc := rfl
@[simp] theorem State.updRing_xbr (s : State) (r : Nat) (f : Ring → Ring) : (s.updRing r f).xbr = s.xbr := rfl
@[simp] theorem State.updRing_sep (s : State) (r : Nat) (f : Ring → Ring) : (s.updRing r f).sep = s.sep := rfl
@[simp] theorem State.updRing_pwr (s : State) (r : Nat) (f : Ring → Ring) : (s.updRing r f).pwr = s.pwr := rfl
@[simp] theorem State.updRing_lcu (s : State) (r : Nat) (f : Ring → Ring) : (s.updRing r f).lcu = s.lcu := rfl
@[simp] theorem State.updRing_pmu (s : State) (r : Nat) (f : Ring → Ring) : (s.updRing r f).pmu = s.pmu := rfl
@[simp] theorem State.updRing_tst (s : State) (r : Nat) (f : Ring → Ring) : (s.updRing r f).tst = s.tst := rfl
@[simp] theorem State.updRing_mac (s : State) (r : Nat) (f : Ring → Ring) : (s.updRing r f).mac = s.mac := rfl
@[simp] theorem State.updRing_out (s : State) (r : Nat) (f : Ring → Ring) : (s.updRing r f).out = s.out := rfl
@[simp] theorem State.updRing_freeCtr (s : State) (r : Nat) (f : Ring → Ring) : (s.updRing r f).freeCtr = s.freeCtr := rfl
@[simp] theorem State.updRing_pending (s : State) (r : Nat) (f : Ring → Ring) : (s.updRing r f).pending = s.pending := rfl
@[simp] theorem State.updRing_rge (s : State) (r : Nat) (f : Ring → Ring) : (s.updRing r f).rge = { s.rge with rings := updWhere (fun x => x.num = r) f s.rge.rings } := rfl
@[simp] theorem State.updRing_reg (s : State) (r : Nat) (f : Ring → Ring) (a : Nat) : (s.updRing r f).reg a = s.reg a := rfl
@[simp] theorem State.updRing_cfg (s : State) (r : Nat) (f : Ring → Ring) (a hi lo : Nat) : (s.updRing r f).cfg a hi lo = s.cfg a hi lo := rfl
@[simp] theorem State.updRing_cfgBit (s : State) (r : Nat) (f : Ring → Ring) (a i : Nat) : (s.updRing r f).cfgBit a i = s.cfgBit a i := rfl

@[simp] theorem State.updGroup_now (s : State) (g : Nat) (f : Group → Group) : (s.updGroup g f).now = s.now := rfl
@[simp] theorem State.updGroup_part (s : State) (g : Nat) (f : Group → Group) : (s.updGroup g f).part = s.part := rfl
@[simp] theorem State.updGroup_slot (s : State) (g : Nat) (f : Group → Group) : (s.updGroup g f).slot = s.slot := rfl
@[simp] theorem State.updGroup_uid (s : State) (g : Nat) (f : Group → Group) : (s.updGroup g f).uid = s.uid := rfl
@[simp] theorem State.updGroup_smbAddr (s : State) (g : Nat) (f : Group → Group) : (s.updGroup g f).smbAddr = s.smbAddr := rfl
@[simp] theorem State.updGroup_strapsOk (s : State) (g : Nat) (f : Group → Group) : (s.updGroup g f).strapsOk = s.strapsOk := rfl
@[simp] theorem State.updGroup_macs (s : State) (g : Nat) (f : Group → Group) : (s.updGroup g f).macs = s.macs := rfl
@[simp] theorem State.updGroup_regs (s : State) (g : Nat) (f : Group → Group) : (s.updGroup g f).regs = s.regs := rfl
@[simp] theorem State.updGroup_hce (s : State) (g : Nat) (f : Group → Group) : (s.updGroup g f).hce = s.hce := rfl
@[simp] theorem State.updGroup_rge (s : State) (g : Nat) (f : Group → Group) : (s.updGroup g f).rge = s.rge := rfl
@[simp] theorem State.updGroup_snt (s : State) (g : Nat) (f : Group → Group) : (s.updGroup g f).snt = s.snt := rfl
@[simp] theorem State.updGroup_rfx (s : State) (g : Nat) (f : Group → Group) : (s.updGroup g f).rfx = s.rfx := rfl
@[simp] theorem State.updGroup_tk (s : State) (g : Nat) (f : Group → Group) : (s.updGroup g f).tk = s.tk := rfl
@[simp] theorem State.updGroup_vsm (s : State) (g : Nat) (f : Group → Group) : (s.updGroup g f).vsm = s.vsm := rfl
@[simp] theorem State.updGroup_kvt (s : State) (g : Nat) (f : Group → Group) : (s.updGroup g f).kvt = s.kvt := rfl
@[simp] theorem State.updGroup_mbx (s : State) (g : Nat) (f : Group → Group) : (s.updGroup g f).mbx = s.mbx := rfl
@[simp] theorem State.updGroup_bay (s : State) (g : Nat) (f : Group → Group) : (s.updGroup g f).bay = s.bay := rfl
@[simp] theorem State.updGroup_props (s : State) (g : Nat) (f : Group → Group) : (s.updGroup g f).props = s.props := rfl
@[simp] theorem State.updGroup_ppc (s : State) (g : Nat) (f : Group → Group) : (s.updGroup g f).ppc = s.ppc := rfl
@[simp] theorem State.updGroup_xbr (s : State) (g : Nat) (f : Group → Group) : (s.updGroup g f).xbr = s.xbr := rfl
@[simp] theorem State.updGroup_sep (s : State) (g : Nat) (f : Group → Group) : (s.updGroup g f).sep = s.sep := rfl
@[simp] theorem State.updGroup_pwr (s : State) (g : Nat) (f : Group → Group) : (s.updGroup g f).pwr = s.pwr := rfl
@[simp] theorem State.updGroup_lcu (s : State) (g : Nat) (f : Group → Group) : (s.updGroup g f).lcu = s.lcu := rfl
@[simp] theorem State.updGroup_pmu (s : State) (g : Nat) (f : Group → Group) : (s.updGroup g f).pmu = s.pmu := rfl
@[simp] theorem State.updGroup_tst (s : State) (g : Nat) (f : Group → Group) : (s.updGroup g f).tst = s.tst := rfl
@[simp] theorem State.updGroup_mac (s : State) (g : Nat) (f : Group → Group) : (s.updGroup g f).mac = s.mac := rfl
@[simp] theorem State.updGroup_out (s : State) (g : Nat) (f : Group → Group) : (s.updGroup g f).out = s.out := rfl
@[simp] theorem State.updGroup_freeCtr (s : State) (g : Nat) (f : Group → Group) : (s.updGroup g f).freeCtr = s.freeCtr := rfl
@[simp] theorem State.updGroup_pending (s : State) (g : Nat) (f : Group → Group) : (s.updGroup g f).pending = s.pending := rfl
@[simp] theorem State.updGroup_rfu (s : State) (g : Nat) (f : Group → Group) : (s.updGroup g f).rfu = { s.rfu with groups := updWhere (fun x => x.id = g) f s.rfu.groups } := rfl
@[simp] theorem State.updGroup_reg (s : State) (g : Nat) (f : Group → Group) (a : Nat) : (s.updGroup g f).reg a = s.reg a := rfl
@[simp] theorem State.updGroup_cfg (s : State) (g : Nat) (f : Group → Group) (a hi lo : Nat) : (s.updGroup g f).cfg a hi lo = s.cfg a hi lo := rfl
@[simp] theorem State.updGroup_cfgBit (s : State) (g : Nat) (f : Group → Group) (a i : Nat) : (s.updGroup g f).cfgBit a i = s.cfgBit a i := rfl

@[simp] theorem State.updKey_now (s : State) (k : Nat) (f : KeySlot → KeySlot) : (s.updKey k f).now = s.now := rfl
@[simp] theorem State.updKey_part (s : State) (k : Nat) (f : KeySlot → KeySlot) : (s.updKey k f).part = s.part := rfl
@[simp] theorem State.updKey_slot (s : State) (k : Nat) (f : KeySlot → KeySlot) : (s.updKey k f).slot = s.slot := rfl
@[simp] theorem State.updKey_uid (s : State) (k : Nat) (f : KeySlot → KeySlot) : (s.updKey k f).uid = s.uid := rfl
@[simp] theorem State.updKey_smbAddr (s : State) (k : Nat) (f : KeySlot → KeySlot) : (s.updKey k f).smbAddr = s.smbAddr := rfl
@[simp] theorem State.updKey_strapsOk (s : State) (k : Nat) (f : KeySlot → KeySlot) : (s.updKey k f).strapsOk = s.strapsOk := rfl
@[simp] theorem State.updKey_macs (s : State) (k : Nat) (f : KeySlot → KeySlot) : (s.updKey k f).macs = s.macs := rfl
@[simp] theorem State.updKey_regs (s : State) (k : Nat) (f : KeySlot → KeySlot) : (s.updKey k f).regs = s.regs := rfl
@[simp] theorem State.updKey_hce (s : State) (k : Nat) (f : KeySlot → KeySlot) : (s.updKey k f).hce = s.hce := rfl
@[simp] theorem State.updKey_rfu (s : State) (k : Nat) (f : KeySlot → KeySlot) : (s.updKey k f).rfu = s.rfu := rfl
@[simp] theorem State.updKey_rge (s : State) (k : Nat) (f : KeySlot → KeySlot) : (s.updKey k f).rge = s.rge := rfl
@[simp] theorem State.updKey_snt (s : State) (k : Nat) (f : KeySlot → KeySlot) : (s.updKey k f).snt = s.snt := rfl
@[simp] theorem State.updKey_rfx (s : State) (k : Nat) (f : KeySlot → KeySlot) : (s.updKey k f).rfx = s.rfx := rfl
@[simp] theorem State.updKey_tk (s : State) (k : Nat) (f : KeySlot → KeySlot) : (s.updKey k f).tk = s.tk := rfl
@[simp] theorem State.updKey_vsm (s : State) (k : Nat) (f : KeySlot → KeySlot) : (s.updKey k f).vsm = s.vsm := rfl
@[simp] theorem State.updKey_mbx (s : State) (k : Nat) (f : KeySlot → KeySlot) : (s.updKey k f).mbx = s.mbx := rfl
@[simp] theorem State.updKey_bay (s : State) (k : Nat) (f : KeySlot → KeySlot) : (s.updKey k f).bay = s.bay := rfl
@[simp] theorem State.updKey_props (s : State) (k : Nat) (f : KeySlot → KeySlot) : (s.updKey k f).props = s.props := rfl
@[simp] theorem State.updKey_ppc (s : State) (k : Nat) (f : KeySlot → KeySlot) : (s.updKey k f).ppc = s.ppc := rfl
@[simp] theorem State.updKey_xbr (s : State) (k : Nat) (f : KeySlot → KeySlot) : (s.updKey k f).xbr = s.xbr := rfl
@[simp] theorem State.updKey_sep (s : State) (k : Nat) (f : KeySlot → KeySlot) : (s.updKey k f).sep = s.sep := rfl
@[simp] theorem State.updKey_pwr (s : State) (k : Nat) (f : KeySlot → KeySlot) : (s.updKey k f).pwr = s.pwr := rfl
@[simp] theorem State.updKey_lcu (s : State) (k : Nat) (f : KeySlot → KeySlot) : (s.updKey k f).lcu = s.lcu := rfl
@[simp] theorem State.updKey_pmu (s : State) (k : Nat) (f : KeySlot → KeySlot) : (s.updKey k f).pmu = s.pmu := rfl
@[simp] theorem State.updKey_tst (s : State) (k : Nat) (f : KeySlot → KeySlot) : (s.updKey k f).tst = s.tst := rfl
@[simp] theorem State.updKey_mac (s : State) (k : Nat) (f : KeySlot → KeySlot) : (s.updKey k f).mac = s.mac := rfl
@[simp] theorem State.updKey_out (s : State) (k : Nat) (f : KeySlot → KeySlot) : (s.updKey k f).out = s.out := rfl
@[simp] theorem State.updKey_freeCtr (s : State) (k : Nat) (f : KeySlot → KeySlot) : (s.updKey k f).freeCtr = s.freeCtr := rfl
@[simp] theorem State.updKey_pending (s : State) (k : Nat) (f : KeySlot → KeySlot) : (s.updKey k f).pending = s.pending := rfl
@[simp] theorem State.updKey_kvt (s : State) (k : Nat) (f : KeySlot → KeySlot) : (s.updKey k f).kvt = { s.kvt with slots := updWhere (fun r => r.slot = k) f s.kvt.slots } := rfl
@[simp] theorem State.updKey_reg (s : State) (k : Nat) (f : KeySlot → KeySlot) (a : Nat) : (s.updKey k f).reg a = s.reg a := rfl
@[simp] theorem State.updKey_cfg (s : State) (k : Nat) (f : KeySlot → KeySlot) (a hi lo : Nat) : (s.updKey k f).cfg a hi lo = s.cfg a hi lo := rfl
@[simp] theorem State.updKey_cfgBit (s : State) (k : Nat) (f : KeySlot → KeySlot) (a i : Nat) : (s.updKey k f).cfgBit a i = s.cfgBit a i := rfl

@[simp] theorem State.setBay_now (s : State) (b : Nat) (f : Bay → Bay) : (s.setBay b f).now = s.now := rfl
@[simp] theorem State.setBay_part (s : State) (b : Nat) (f : Bay → Bay) : (s.setBay b f).part = s.part := rfl
@[simp] theorem State.setBay_slot (s : State) (b : Nat) (f : Bay → Bay) : (s.setBay b f).slot = s.slot := rfl
@[simp] theorem State.setBay_uid (s : State) (b : Nat) (f : Bay → Bay) : (s.setBay b f).uid = s.uid := rfl
@[simp] theorem State.setBay_smbAddr (s : State) (b : Nat) (f : Bay → Bay) : (s.setBay b f).smbAddr = s.smbAddr := rfl
@[simp] theorem State.setBay_strapsOk (s : State) (b : Nat) (f : Bay → Bay) : (s.setBay b f).strapsOk = s.strapsOk := rfl
@[simp] theorem State.setBay_macs (s : State) (b : Nat) (f : Bay → Bay) : (s.setBay b f).macs = s.macs := rfl
@[simp] theorem State.setBay_regs (s : State) (b : Nat) (f : Bay → Bay) : (s.setBay b f).regs = s.regs := rfl
@[simp] theorem State.setBay_hce (s : State) (b : Nat) (f : Bay → Bay) : (s.setBay b f).hce = s.hce := rfl
@[simp] theorem State.setBay_rfu (s : State) (b : Nat) (f : Bay → Bay) : (s.setBay b f).rfu = s.rfu := rfl
@[simp] theorem State.setBay_rge (s : State) (b : Nat) (f : Bay → Bay) : (s.setBay b f).rge = s.rge := rfl
@[simp] theorem State.setBay_snt (s : State) (b : Nat) (f : Bay → Bay) : (s.setBay b f).snt = s.snt := rfl
@[simp] theorem State.setBay_rfx (s : State) (b : Nat) (f : Bay → Bay) : (s.setBay b f).rfx = s.rfx := rfl
@[simp] theorem State.setBay_tk (s : State) (b : Nat) (f : Bay → Bay) : (s.setBay b f).tk = s.tk := rfl
@[simp] theorem State.setBay_vsm (s : State) (b : Nat) (f : Bay → Bay) : (s.setBay b f).vsm = s.vsm := rfl
@[simp] theorem State.setBay_kvt (s : State) (b : Nat) (f : Bay → Bay) : (s.setBay b f).kvt = s.kvt := rfl
@[simp] theorem State.setBay_mbx (s : State) (b : Nat) (f : Bay → Bay) : (s.setBay b f).mbx = s.mbx := rfl
@[simp] theorem State.setBay_props (s : State) (b : Nat) (f : Bay → Bay) : (s.setBay b f).props = s.props := rfl
@[simp] theorem State.setBay_ppc (s : State) (b : Nat) (f : Bay → Bay) : (s.setBay b f).ppc = s.ppc := rfl
@[simp] theorem State.setBay_xbr (s : State) (b : Nat) (f : Bay → Bay) : (s.setBay b f).xbr = s.xbr := rfl
@[simp] theorem State.setBay_sep (s : State) (b : Nat) (f : Bay → Bay) : (s.setBay b f).sep = s.sep := rfl
@[simp] theorem State.setBay_pwr (s : State) (b : Nat) (f : Bay → Bay) : (s.setBay b f).pwr = s.pwr := rfl
@[simp] theorem State.setBay_lcu (s : State) (b : Nat) (f : Bay → Bay) : (s.setBay b f).lcu = s.lcu := rfl
@[simp] theorem State.setBay_pmu (s : State) (b : Nat) (f : Bay → Bay) : (s.setBay b f).pmu = s.pmu := rfl
@[simp] theorem State.setBay_tst (s : State) (b : Nat) (f : Bay → Bay) : (s.setBay b f).tst = s.tst := rfl
@[simp] theorem State.setBay_mac (s : State) (b : Nat) (f : Bay → Bay) : (s.setBay b f).mac = s.mac := rfl
@[simp] theorem State.setBay_out (s : State) (b : Nat) (f : Bay → Bay) : (s.setBay b f).out = s.out := rfl
@[simp] theorem State.setBay_freeCtr (s : State) (b : Nat) (f : Bay → Bay) : (s.setBay b f).freeCtr = s.freeCtr := rfl
@[simp] theorem State.setBay_pending (s : State) (b : Nat) (f : Bay → Bay) : (s.setBay b f).pending = s.pending := rfl
@[simp] theorem State.setBay_bay (s : State) (b : Nat) (f : Bay → Bay) : (s.setBay b f).bay = { s.bay with bays := setAt s.bay.bays b (f (s.bayOf b)) } := rfl
@[simp] theorem State.setBay_reg (s : State) (b : Nat) (f : Bay → Bay) (a : Nat) : (s.setBay b f).reg a = s.reg a := rfl
@[simp] theorem State.setBay_cfg (s : State) (b : Nat) (f : Bay → Bay) (a hi lo : Nat) : (s.setBay b f).cfg a hi lo = s.cfg a hi lo := rfl
@[simp] theorem State.setBay_cfgBit (s : State) (b : Nat) (f : Bay → Bay) (a i : Nat) : (s.setBay b f).cfgBit a i = s.cfgBit a i := rfl

@[simp] theorem State.setPort_now (s : State) (p : Nat) (f : DrivePort → DrivePort) : (s.setPort p f).now = s.now := rfl
@[simp] theorem State.setPort_part (s : State) (p : Nat) (f : DrivePort → DrivePort) : (s.setPort p f).part = s.part := rfl
@[simp] theorem State.setPort_slot (s : State) (p : Nat) (f : DrivePort → DrivePort) : (s.setPort p f).slot = s.slot := rfl
@[simp] theorem State.setPort_uid (s : State) (p : Nat) (f : DrivePort → DrivePort) : (s.setPort p f).uid = s.uid := rfl
@[simp] theorem State.setPort_smbAddr (s : State) (p : Nat) (f : DrivePort → DrivePort) : (s.setPort p f).smbAddr = s.smbAddr := rfl
@[simp] theorem State.setPort_strapsOk (s : State) (p : Nat) (f : DrivePort → DrivePort) : (s.setPort p f).strapsOk = s.strapsOk := rfl
@[simp] theorem State.setPort_macs (s : State) (p : Nat) (f : DrivePort → DrivePort) : (s.setPort p f).macs = s.macs := rfl
@[simp] theorem State.setPort_regs (s : State) (p : Nat) (f : DrivePort → DrivePort) : (s.setPort p f).regs = s.regs := rfl
@[simp] theorem State.setPort_hce (s : State) (p : Nat) (f : DrivePort → DrivePort) : (s.setPort p f).hce = s.hce := rfl
@[simp] theorem State.setPort_rfu (s : State) (p : Nat) (f : DrivePort → DrivePort) : (s.setPort p f).rfu = s.rfu := rfl
@[simp] theorem State.setPort_rge (s : State) (p : Nat) (f : DrivePort → DrivePort) : (s.setPort p f).rge = s.rge := rfl
@[simp] theorem State.setPort_snt (s : State) (p : Nat) (f : DrivePort → DrivePort) : (s.setPort p f).snt = s.snt := rfl
@[simp] theorem State.setPort_rfx (s : State) (p : Nat) (f : DrivePort → DrivePort) : (s.setPort p f).rfx = s.rfx := rfl
@[simp] theorem State.setPort_tk (s : State) (p : Nat) (f : DrivePort → DrivePort) : (s.setPort p f).tk = s.tk := rfl
@[simp] theorem State.setPort_vsm (s : State) (p : Nat) (f : DrivePort → DrivePort) : (s.setPort p f).vsm = s.vsm := rfl
@[simp] theorem State.setPort_kvt (s : State) (p : Nat) (f : DrivePort → DrivePort) : (s.setPort p f).kvt = s.kvt := rfl
@[simp] theorem State.setPort_mbx (s : State) (p : Nat) (f : DrivePort → DrivePort) : (s.setPort p f).mbx = s.mbx := rfl
@[simp] theorem State.setPort_props (s : State) (p : Nat) (f : DrivePort → DrivePort) : (s.setPort p f).props = s.props := rfl
@[simp] theorem State.setPort_ppc (s : State) (p : Nat) (f : DrivePort → DrivePort) : (s.setPort p f).ppc = s.ppc := rfl
@[simp] theorem State.setPort_xbr (s : State) (p : Nat) (f : DrivePort → DrivePort) : (s.setPort p f).xbr = s.xbr := rfl
@[simp] theorem State.setPort_sep (s : State) (p : Nat) (f : DrivePort → DrivePort) : (s.setPort p f).sep = s.sep := rfl
@[simp] theorem State.setPort_pwr (s : State) (p : Nat) (f : DrivePort → DrivePort) : (s.setPort p f).pwr = s.pwr := rfl
@[simp] theorem State.setPort_lcu (s : State) (p : Nat) (f : DrivePort → DrivePort) : (s.setPort p f).lcu = s.lcu := rfl
@[simp] theorem State.setPort_pmu (s : State) (p : Nat) (f : DrivePort → DrivePort) : (s.setPort p f).pmu = s.pmu := rfl
@[simp] theorem State.setPort_tst (s : State) (p : Nat) (f : DrivePort → DrivePort) : (s.setPort p f).tst = s.tst := rfl
@[simp] theorem State.setPort_mac (s : State) (p : Nat) (f : DrivePort → DrivePort) : (s.setPort p f).mac = s.mac := rfl
@[simp] theorem State.setPort_out (s : State) (p : Nat) (f : DrivePort → DrivePort) : (s.setPort p f).out = s.out := rfl
@[simp] theorem State.setPort_freeCtr (s : State) (p : Nat) (f : DrivePort → DrivePort) : (s.setPort p f).freeCtr = s.freeCtr := rfl
@[simp] theorem State.setPort_pending (s : State) (p : Nat) (f : DrivePort → DrivePort) : (s.setPort p f).pending = s.pending := rfl
@[simp] theorem State.setPort_bay (s : State) (p : Nat) (f : DrivePort → DrivePort) : (s.setPort p f).bay = { s.bay with ports := setAt s.bay.ports p (f (s.portOf p)) } := rfl
@[simp] theorem State.setPort_reg (s : State) (p : Nat) (f : DrivePort → DrivePort) (a : Nat) : (s.setPort p f).reg a = s.reg a := rfl
@[simp] theorem State.setPort_cfg (s : State) (p : Nat) (f : DrivePort → DrivePort) (a hi lo : Nat) : (s.setPort p f).cfg a hi lo = s.cfg a hi lo := rfl
@[simp] theorem State.setPort_cfgBit (s : State) (p : Nat) (f : DrivePort → DrivePort) (a i : Nat) : (s.setPort p f).cfgBit a i = s.cfgBit a i := rfl

@[simp] theorem State.setFabPort_now (s : State) (p : Nat) (f : FabPort → FabPort) : (s.setFabPort p f).now = s.now := rfl
@[simp] theorem State.setFabPort_part (s : State) (p : Nat) (f : FabPort → FabPort) : (s.setFabPort p f).part = s.part := rfl
@[simp] theorem State.setFabPort_slot (s : State) (p : Nat) (f : FabPort → FabPort) : (s.setFabPort p f).slot = s.slot := rfl
@[simp] theorem State.setFabPort_uid (s : State) (p : Nat) (f : FabPort → FabPort) : (s.setFabPort p f).uid = s.uid := rfl
@[simp] theorem State.setFabPort_smbAddr (s : State) (p : Nat) (f : FabPort → FabPort) : (s.setFabPort p f).smbAddr = s.smbAddr := rfl
@[simp] theorem State.setFabPort_strapsOk (s : State) (p : Nat) (f : FabPort → FabPort) : (s.setFabPort p f).strapsOk = s.strapsOk := rfl
@[simp] theorem State.setFabPort_macs (s : State) (p : Nat) (f : FabPort → FabPort) : (s.setFabPort p f).macs = s.macs := rfl
@[simp] theorem State.setFabPort_regs (s : State) (p : Nat) (f : FabPort → FabPort) : (s.setFabPort p f).regs = s.regs := rfl
@[simp] theorem State.setFabPort_hce (s : State) (p : Nat) (f : FabPort → FabPort) : (s.setFabPort p f).hce = s.hce := rfl
@[simp] theorem State.setFabPort_rfu (s : State) (p : Nat) (f : FabPort → FabPort) : (s.setFabPort p f).rfu = s.rfu := rfl
@[simp] theorem State.setFabPort_rge (s : State) (p : Nat) (f : FabPort → FabPort) : (s.setFabPort p f).rge = s.rge := rfl
@[simp] theorem State.setFabPort_snt (s : State) (p : Nat) (f : FabPort → FabPort) : (s.setFabPort p f).snt = s.snt := rfl
@[simp] theorem State.setFabPort_tk (s : State) (p : Nat) (f : FabPort → FabPort) : (s.setFabPort p f).tk = s.tk := rfl
@[simp] theorem State.setFabPort_vsm (s : State) (p : Nat) (f : FabPort → FabPort) : (s.setFabPort p f).vsm = s.vsm := rfl
@[simp] theorem State.setFabPort_kvt (s : State) (p : Nat) (f : FabPort → FabPort) : (s.setFabPort p f).kvt = s.kvt := rfl
@[simp] theorem State.setFabPort_mbx (s : State) (p : Nat) (f : FabPort → FabPort) : (s.setFabPort p f).mbx = s.mbx := rfl
@[simp] theorem State.setFabPort_bay (s : State) (p : Nat) (f : FabPort → FabPort) : (s.setFabPort p f).bay = s.bay := rfl
@[simp] theorem State.setFabPort_props (s : State) (p : Nat) (f : FabPort → FabPort) : (s.setFabPort p f).props = s.props := rfl
@[simp] theorem State.setFabPort_ppc (s : State) (p : Nat) (f : FabPort → FabPort) : (s.setFabPort p f).ppc = s.ppc := rfl
@[simp] theorem State.setFabPort_xbr (s : State) (p : Nat) (f : FabPort → FabPort) : (s.setFabPort p f).xbr = s.xbr := rfl
@[simp] theorem State.setFabPort_sep (s : State) (p : Nat) (f : FabPort → FabPort) : (s.setFabPort p f).sep = s.sep := rfl
@[simp] theorem State.setFabPort_pwr (s : State) (p : Nat) (f : FabPort → FabPort) : (s.setFabPort p f).pwr = s.pwr := rfl
@[simp] theorem State.setFabPort_lcu (s : State) (p : Nat) (f : FabPort → FabPort) : (s.setFabPort p f).lcu = s.lcu := rfl
@[simp] theorem State.setFabPort_pmu (s : State) (p : Nat) (f : FabPort → FabPort) : (s.setFabPort p f).pmu = s.pmu := rfl
@[simp] theorem State.setFabPort_tst (s : State) (p : Nat) (f : FabPort → FabPort) : (s.setFabPort p f).tst = s.tst := rfl
@[simp] theorem State.setFabPort_mac (s : State) (p : Nat) (f : FabPort → FabPort) : (s.setFabPort p f).mac = s.mac := rfl
@[simp] theorem State.setFabPort_out (s : State) (p : Nat) (f : FabPort → FabPort) : (s.setFabPort p f).out = s.out := rfl
@[simp] theorem State.setFabPort_freeCtr (s : State) (p : Nat) (f : FabPort → FabPort) : (s.setFabPort p f).freeCtr = s.freeCtr := rfl
@[simp] theorem State.setFabPort_pending (s : State) (p : Nat) (f : FabPort → FabPort) : (s.setFabPort p f).pending = s.pending := rfl
@[simp] theorem State.setFabPort_rfx (s : State) (p : Nat) (f : FabPort → FabPort) : (s.setFabPort p f).rfx = { s.rfx with ports := setAt s.rfx.ports p (f (s.fabPort p)) } := rfl
@[simp] theorem State.setFabPort_reg (s : State) (p : Nat) (f : FabPort → FabPort) (a : Nat) : (s.setFabPort p f).reg a = s.reg a := rfl
@[simp] theorem State.setFabPort_cfg (s : State) (p : Nat) (f : FabPort → FabPort) (a hi lo : Nat) : (s.setFabPort p f).cfg a hi lo = s.cfg a hi lo := rfl
@[simp] theorem State.setFabPort_cfgBit (s : State) (p : Nat) (f : FabPort → FabPort) (a i : Nat) : (s.setFabPort p f).cfgBit a i = s.cfgBit a i := rfl

@[simp] theorem State.setHeld_now (s : State) (m : Master) (f : Held → Held) : (s.setHeld m f).now = s.now := rfl
@[simp] theorem State.setHeld_part (s : State) (m : Master) (f : Held → Held) : (s.setHeld m f).part = s.part := rfl
@[simp] theorem State.setHeld_slot (s : State) (m : Master) (f : Held → Held) : (s.setHeld m f).slot = s.slot := rfl
@[simp] theorem State.setHeld_uid (s : State) (m : Master) (f : Held → Held) : (s.setHeld m f).uid = s.uid := rfl
@[simp] theorem State.setHeld_smbAddr (s : State) (m : Master) (f : Held → Held) : (s.setHeld m f).smbAddr = s.smbAddr := rfl
@[simp] theorem State.setHeld_strapsOk (s : State) (m : Master) (f : Held → Held) : (s.setHeld m f).strapsOk = s.strapsOk := rfl
@[simp] theorem State.setHeld_macs (s : State) (m : Master) (f : Held → Held) : (s.setHeld m f).macs = s.macs := rfl
@[simp] theorem State.setHeld_regs (s : State) (m : Master) (f : Held → Held) : (s.setHeld m f).regs = s.regs := rfl
@[simp] theorem State.setHeld_hce (s : State) (m : Master) (f : Held → Held) : (s.setHeld m f).hce = s.hce := rfl
@[simp] theorem State.setHeld_rfu (s : State) (m : Master) (f : Held → Held) : (s.setHeld m f).rfu = s.rfu := rfl
@[simp] theorem State.setHeld_rge (s : State) (m : Master) (f : Held → Held) : (s.setHeld m f).rge = s.rge := rfl
@[simp] theorem State.setHeld_snt (s : State) (m : Master) (f : Held → Held) : (s.setHeld m f).snt = s.snt := rfl
@[simp] theorem State.setHeld_rfx (s : State) (m : Master) (f : Held → Held) : (s.setHeld m f).rfx = s.rfx := rfl
@[simp] theorem State.setHeld_tk (s : State) (m : Master) (f : Held → Held) : (s.setHeld m f).tk = s.tk := rfl
@[simp] theorem State.setHeld_vsm (s : State) (m : Master) (f : Held → Held) : (s.setHeld m f).vsm = s.vsm := rfl
@[simp] theorem State.setHeld_kvt (s : State) (m : Master) (f : Held → Held) : (s.setHeld m f).kvt = s.kvt := rfl
@[simp] theorem State.setHeld_bay (s : State) (m : Master) (f : Held → Held) : (s.setHeld m f).bay = s.bay := rfl
@[simp] theorem State.setHeld_props (s : State) (m : Master) (f : Held → Held) : (s.setHeld m f).props = s.props := rfl
@[simp] theorem State.setHeld_ppc (s : State) (m : Master) (f : Held → Held) : (s.setHeld m f).ppc = s.ppc := rfl
@[simp] theorem State.setHeld_xbr (s : State) (m : Master) (f : Held → Held) : (s.setHeld m f).xbr = s.xbr := rfl
@[simp] theorem State.setHeld_sep (s : State) (m : Master) (f : Held → Held) : (s.setHeld m f).sep = s.sep := rfl
@[simp] theorem State.setHeld_pwr (s : State) (m : Master) (f : Held → Held) : (s.setHeld m f).pwr = s.pwr := rfl
@[simp] theorem State.setHeld_lcu (s : State) (m : Master) (f : Held → Held) : (s.setHeld m f).lcu = s.lcu := rfl
@[simp] theorem State.setHeld_pmu (s : State) (m : Master) (f : Held → Held) : (s.setHeld m f).pmu = s.pmu := rfl
@[simp] theorem State.setHeld_tst (s : State) (m : Master) (f : Held → Held) : (s.setHeld m f).tst = s.tst := rfl
@[simp] theorem State.setHeld_mac (s : State) (m : Master) (f : Held → Held) : (s.setHeld m f).mac = s.mac := rfl
@[simp] theorem State.setHeld_out (s : State) (m : Master) (f : Held → Held) : (s.setHeld m f).out = s.out := rfl
@[simp] theorem State.setHeld_freeCtr (s : State) (m : Master) (f : Held → Held) : (s.setHeld m f).freeCtr = s.freeCtr := rfl
@[simp] theorem State.setHeld_pending (s : State) (m : Master) (f : Held → Held) : (s.setHeld m f).pending = s.pending := rfl
@[simp] theorem State.setHeld_mbx (s : State) (m : Master) (f : Held → Held) : (s.setHeld m f).mbx = { s.mbx with held := setAt s.mbx.held m.num (f (s.heldOf m)) } := rfl
@[simp] theorem State.setHeld_reg (s : State) (m : Master) (f : Held → Held) (a : Nat) : (s.setHeld m f).reg a = s.reg a := rfl
@[simp] theorem State.setHeld_cfg (s : State) (m : Master) (f : Held → Held) (a hi lo : Nat) : (s.setHeld m f).cfg a hi lo = s.cfg a hi lo := rfl
@[simp] theorem State.setHeld_cfgBit (s : State) (m : Master) (f : Held → Held) (a i : Nat) : (s.setHeld m f).cfgBit a i = s.cfgBit a i := rfl

@[simp] theorem State.keepRunning_now (s : State) (m : Master) : (s.keepRunning m).now = s.now := rfl
@[simp] theorem State.keepRunning_part (s : State) (m : Master) : (s.keepRunning m).part = s.part := rfl
@[simp] theorem State.keepRunning_slot (s : State) (m : Master) : (s.keepRunning m).slot = s.slot := rfl
@[simp] theorem State.keepRunning_uid (s : State) (m : Master) : (s.keepRunning m).uid = s.uid := rfl
@[simp] theorem State.keepRunning_smbAddr (s : State) (m : Master) : (s.keepRunning m).smbAddr = s.smbAddr := rfl
@[simp] theorem State.keepRunning_strapsOk (s : State) (m : Master) : (s.keepRunning m).strapsOk = s.strapsOk := rfl
@[simp] theorem State.keepRunning_macs (s : State) (m : Master) : (s.keepRunning m).macs = s.macs := rfl
@[simp] theorem State.keepRunning_regs (s : State) (m : Master) : (s.keepRunning m).regs = s.regs := rfl
@[simp] theorem State.keepRunning_hce (s : State) (m : Master) : (s.keepRunning m).hce = s.hce := rfl
@[simp] theorem State.keepRunning_rfu (s : State) (m : Master) : (s.keepRunning m).rfu = s.rfu := rfl
@[simp] theorem State.keepRunning_rge (s : State) (m : Master) : (s.keepRunning m).rge = s.rge := rfl
@[simp] theorem State.keepRunning_snt (s : State) (m : Master) : (s.keepRunning m).snt = s.snt := rfl
@[simp] theorem State.keepRunning_rfx (s : State) (m : Master) : (s.keepRunning m).rfx = s.rfx := rfl
@[simp] theorem State.keepRunning_tk (s : State) (m : Master) : (s.keepRunning m).tk = s.tk := rfl
@[simp] theorem State.keepRunning_vsm (s : State) (m : Master) : (s.keepRunning m).vsm = s.vsm := rfl
@[simp] theorem State.keepRunning_kvt (s : State) (m : Master) : (s.keepRunning m).kvt = s.kvt := rfl
@[simp] theorem State.keepRunning_bay (s : State) (m : Master) : (s.keepRunning m).bay = s.bay := rfl
@[simp] theorem State.keepRunning_props (s : State) (m : Master) : (s.keepRunning m).props = s.props := rfl
@[simp] theorem State.keepRunning_ppc (s : State) (m : Master) : (s.keepRunning m).ppc = s.ppc := rfl
@[simp] theorem State.keepRunning_xbr (s : State) (m : Master) : (s.keepRunning m).xbr = s.xbr := rfl
@[simp] theorem State.keepRunning_sep (s : State) (m : Master) : (s.keepRunning m).sep = s.sep := rfl
@[simp] theorem State.keepRunning_pwr (s : State) (m : Master) : (s.keepRunning m).pwr = s.pwr := rfl
@[simp] theorem State.keepRunning_lcu (s : State) (m : Master) : (s.keepRunning m).lcu = s.lcu := rfl
@[simp] theorem State.keepRunning_pmu (s : State) (m : Master) : (s.keepRunning m).pmu = s.pmu := rfl
@[simp] theorem State.keepRunning_tst (s : State) (m : Master) : (s.keepRunning m).tst = s.tst := rfl
@[simp] theorem State.keepRunning_mac (s : State) (m : Master) : (s.keepRunning m).mac = s.mac := rfl
@[simp] theorem State.keepRunning_out (s : State) (m : Master) : (s.keepRunning m).out = s.out := rfl
@[simp] theorem State.keepRunning_freeCtr (s : State) (m : Master) : (s.keepRunning m).freeCtr = s.freeCtr := rfl
@[simp] theorem State.keepRunning_pending (s : State) (m : Master) : (s.keepRunning m).pending = s.pending := rfl
@[simp] theorem State.keepRunning_reg (s : State) (m : Master) (a : Nat) : (s.keepRunning m).reg a = s.reg a := rfl
@[simp] theorem State.keepRunning_cfg (s : State) (m : Master) (a hi lo : Nat) : (s.keepRunning m).cfg a hi lo = s.cfg a hi lo := rfl
@[simp] theorem State.keepRunning_cfgBit (s : State) (m : Master) (a i : Nat) : (s.keepRunning m).cfgBit a i = s.cfgBit a i := rfl

end Sys2Proof.Machine
end

