-- ==== Sys2Proof/Laws/Frames.lean ====
section
/-! SUPPORT. What each operation that the families share leaves as it was: the frames of `Kept`, field by field. -/

set_option Elab.async false

namespace Sys2Proof.Machine

@[simp] theorem State.bumpBy_hce (s : State) (a : Nat) (n : Nat) : (s.bumpBy a n).hce = s.hce := rfl
@[simp] theorem State.bumpBy_rfu (s : State) (a : Nat) (n : Nat) : (s.bumpBy a n).rfu = s.rfu := rfl
@[simp] theorem State.bumpBy_rge (s : State) (a : Nat) (n : Nat) : (s.bumpBy a n).rge = s.rge := rfl
@[simp] theorem State.bumpBy_snt (s : State) (a : Nat) (n : Nat) : (s.bumpBy a n).snt = s.snt := rfl
@[simp] theorem State.bumpBy_rfx (s : State) (a : Nat) (n : Nat) : (s.bumpBy a n).rfx = s.rfx := rfl
@[simp] theorem State.bumpBy_tk (s : State) (a : Nat) (n : Nat) : (s.bumpBy a n).tk = s.tk := rfl
@[simp] theorem State.bumpBy_vsm (s : State) (a : Nat) (n : Nat) : (s.bumpBy a n).vsm = s.vsm := rfl
@[simp] theorem State.bumpBy_kvt (s : State) (a : Nat) (n : Nat) : (s.bumpBy a n).kvt = s.kvt := rfl
@[simp] theorem State.bumpBy_mbx (s : State) (a : Nat) (n : Nat) : (s.bumpBy a n).mbx = s.mbx := rfl
@[simp] theorem State.bumpBy_bay (s : State) (a : Nat) (n : Nat) : (s.bumpBy a n).bay = s.bay := rfl
@[simp] theorem State.bumpBy_props (s : State) (a : Nat) (n : Nat) : (s.bumpBy a n).props = s.props := rfl
@[simp] theorem State.bumpBy_ppc (s : State) (a : Nat) (n : Nat) : (s.bumpBy a n).ppc = s.ppc := rfl
@[simp] theorem State.bumpBy_xbr (s : State) (a : Nat) (n : Nat) : (s.bumpBy a n).xbr = s.xbr := rfl
@[simp] theorem State.bumpBy_sep (s : State) (a : Nat) (n : Nat) : (s.bumpBy a n).sep = s.sep := rfl
@[simp] theorem State.bumpBy_pwr (s : State) (a : Nat) (n : Nat) : (s.bumpBy a n).pwr = s.pwr := rfl
@[simp] theorem State.bumpBy_lcu (s : State) (a : Nat) (n : Nat) : (s.bumpBy a n).lcu = s.lcu := rfl
@[simp] theorem State.bumpBy_pmu (s : State) (a : Nat) (n : Nat) : (s.bumpBy a n).pmu = s.pmu := rfl
@[simp] theorem State.bumpBy_tst (s : State) (a : Nat) (n : Nat) : (s.bumpBy a n).tst = s.tst := rfl
@[simp] theorem State.bumpBy_mac (s : State) (a : Nat) (n : Nat) : (s.bumpBy a n).mac = s.mac := rfl
@[simp] theorem State.bumpBy_now (s : State) (a : Nat) (n : Nat) : (s.bumpBy a n).now = s.now := rfl
@[simp] theorem State.bumpBy_part (s : State) (a : Nat) (n : Nat) : (s.bumpBy a n).part = s.part := rfl
@[simp] theorem State.bumpBy_slot (s : State) (a : Nat) (n : Nat) : (s.bumpBy a n).slot = s.slot := rfl
@[simp] theorem State.bumpBy_uid (s : State) (a : Nat) (n : Nat) : (s.bumpBy a n).uid = s.uid := rfl
@[simp] theorem State.bumpBy_pending (s : State) (a : Nat) (n : Nat) : (s.bumpBy a n).pending = s.pending := rfl
@[simp] theorem State.bumpBy_out (s : State) (a : Nat) (n : Nat) : (s.bumpBy a n).out = s.out := rfl
@[simp] theorem State.bumpBy_freeCtr (s : State) (a : Nat) (n : Nat) : (s.bumpBy a n).freeCtr = s.freeCtr := rfl

@[simp] theorem State.bump_hce (s : State) (a : Nat) : (s.bump a).hce = s.hce := rfl
@[simp] theorem State.bump_rfu (s : State) (a : Nat) : (s.bump a).rfu = s.rfu := rfl
@[simp] theorem State.bump_rge (s : State) (a : Nat) : (s.bump a).rge = s.rge := rfl
@[simp] theorem State.bump_snt (s : State) (a : Nat) : (s.bump a).snt = s.snt := rfl
@[simp] theorem State.bump_rfx (s : State) (a : Nat) : (s.bump a).rfx = s.rfx := rfl
@[simp] theorem State.bump_tk (s : State) (a : Nat) : (s.bump a).tk = s.tk := rfl
@[simp] theorem State.bump_vsm (s : State) (a : Nat) : (s.bump a).vsm = s.vsm := rfl
@[simp] theorem State.bump_kvt (s : State) (a : Nat) : (s.bump a).kvt = s.kvt := rfl
@[simp] theorem State.bump_mbx (s : State) (a : Nat) : (s.bump a).mbx = s.mbx := rfl
@[simp] theorem State.bump_bay (s : State) (a : Nat) : (s.bump a).bay = s.bay := rfl
@[simp] theorem State.bump_props (s : State) (a : Nat) : (s.bump a).props = s.props := rfl
@[simp] theorem State.bump_ppc (s : State) (a : Nat) : (s.bump a).ppc = s.ppc := rfl
@[simp] theorem State.bump_xbr (s : State) (a : Nat) : (s.bump a).xbr = s.xbr := rfl
@[simp] theorem State.bump_sep (s : State) (a : Nat) : (s.bump a).sep = s.sep := rfl
@[simp] theorem State.bump_pwr (s : State) (a : Nat) : (s.bump a).pwr = s.pwr := rfl
@[simp] theorem State.bump_lcu (s : State) (a : Nat) : (s.bump a).lcu = s.lcu := rfl
@[simp] theorem State.bump_pmu (s : State) (a : Nat) : (s.bump a).pmu = s.pmu := rfl
@[simp] theorem State.bump_tst (s : State) (a : Nat) : (s.bump a).tst = s.tst := rfl
@[simp] theorem State.bump_mac (s : State) (a : Nat) : (s.bump a).mac = s.mac := rfl
@[simp] theorem State.bump_now (s : State) (a : Nat) : (s.bump a).now = s.now := rfl
@[simp] theorem State.bump_part (s : State) (a : Nat) : (s.bump a).part = s.part := rfl
@[simp] theorem State.bump_slot (s : State) (a : Nat) : (s.bump a).slot = s.slot := rfl
@[simp] theorem State.bump_uid (s : State) (a : Nat) : (s.bump a).uid = s.uid := rfl
@[simp] theorem State.bump_pending (s : State) (a : Nat) : (s.bump a).pending = s.pending := rfl
@[simp] theorem State.bump_out (s : State) (a : Nat) : (s.bump a).out = s.out := rfl
@[simp] theorem State.bump_freeCtr (s : State) (a : Nat) : (s.bump a).freeCtr = s.freeCtr := rfl

@[simp] theorem State.raiseFlag_hce (s : State) (a : Nat) (i : Nat) : (s.raiseFlag a i).hce = s.hce := rfl
@[simp] theorem State.raiseFlag_rfu (s : State) (a : Nat) (i : Nat) : (s.raiseFlag a i).rfu = s.rfu := rfl
@[simp] theorem State.raiseFlag_rge (s : State) (a : Nat) (i : Nat) : (s.raiseFlag a i).rge = s.rge := rfl
@[simp] theorem State.raiseFlag_snt (s : State) (a : Nat) (i : Nat) : (s.raiseFlag a i).snt = s.snt := rfl
@[simp] theorem State.raiseFlag_rfx (s : State) (a : Nat) (i : Nat) : (s.raiseFlag a i).rfx = s.rfx := rfl
@[simp] theorem State.raiseFlag_tk (s : State) (a : Nat) (i : Nat) : (s.raiseFlag a i).tk = s.tk := rfl
@[simp] theorem State.raiseFlag_vsm (s : State) (a : Nat) (i : Nat) : (s.raiseFlag a i).vsm = s.vsm := rfl
@[simp] theorem State.raiseFlag_kvt (s : State) (a : Nat) (i : Nat) : (s.raiseFlag a i).kvt = s.kvt := rfl
@[simp] theorem State.raiseFlag_mbx (s : State) (a : Nat) (i : Nat) : (s.raiseFlag a i).mbx = s.mbx := rfl
@[simp] theorem State.raiseFlag_bay (s : State) (a : Nat) (i : Nat) : (s.raiseFlag a i).bay = s.bay := rfl
@[simp] theorem State.raiseFlag_props (s : State) (a : Nat) (i : Nat) : (s.raiseFlag a i).props = s.props := rfl
@[simp] theorem State.raiseFlag_ppc (s : State) (a : Nat) (i : Nat) : (s.raiseFlag a i).ppc = s.ppc := rfl
@[simp] theorem State.raiseFlag_xbr (s : State) (a : Nat) (i : Nat) : (s.raiseFlag a i).xbr = s.xbr := rfl
@[simp] theorem State.raiseFlag_sep (s : State) (a : Nat) (i : Nat) : (s.raiseFlag a i).sep = s.sep := rfl
@[simp] theorem State.raiseFlag_pwr (s : State) (a : Nat) (i : Nat) : (s.raiseFlag a i).pwr = s.pwr := rfl
@[simp] theorem State.raiseFlag_lcu (s : State) (a : Nat) (i : Nat) : (s.raiseFlag a i).lcu = s.lcu := rfl
@[simp] theorem State.raiseFlag_pmu (s : State) (a : Nat) (i : Nat) : (s.raiseFlag a i).pmu = s.pmu := rfl
@[simp] theorem State.raiseFlag_tst (s : State) (a : Nat) (i : Nat) : (s.raiseFlag a i).tst = s.tst := rfl
@[simp] theorem State.raiseFlag_mac (s : State) (a : Nat) (i : Nat) : (s.raiseFlag a i).mac = s.mac := rfl
@[simp] theorem State.raiseFlag_now (s : State) (a : Nat) (i : Nat) : (s.raiseFlag a i).now = s.now := rfl
@[simp] theorem State.raiseFlag_part (s : State) (a : Nat) (i : Nat) : (s.raiseFlag a i).part = s.part := rfl
@[simp] theorem State.raiseFlag_slot (s : State) (a : Nat) (i : Nat) : (s.raiseFlag a i).slot = s.slot := rfl
@[simp] theorem State.raiseFlag_uid (s : State) (a : Nat) (i : Nat) : (s.raiseFlag a i).uid = s.uid := rfl
@[simp] theorem State.raiseFlag_pending (s : State) (a : Nat) (i : Nat) : (s.raiseFlag a i).pending = s.pending := rfl
@[simp] theorem State.raiseFlag_out (s : State) (a : Nat) (i : Nat) : (s.raiseFlag a i).out = s.out := rfl
@[simp] theorem State.raiseFlag_freeCtr (s : State) (a : Nat) (i : Nat) : (s.raiseFlag a i).freeCtr = s.freeCtr := rfl

@[simp] theorem State.bumpHalf_hce (s : State) (a : Nat) (lo : Nat) : (s.bumpHalf a lo).hce = s.hce := rfl
@[simp] theorem State.bumpHalf_rfu (s : State) (a : Nat) (lo : Nat) : (s.bumpHalf a lo).rfu = s.rfu := rfl
@[simp] theorem State.bumpHalf_rge (s : State) (a : Nat) (lo : Nat) : (s.bumpHalf a lo).rge = s.rge := rfl
@[simp] theorem State.bumpHalf_snt (s : State) (a : Nat) (lo : Nat) : (s.bumpHalf a lo).snt = s.snt := rfl
@[simp] theorem State.bumpHalf_rfx (s : State) (a : Nat) (lo : Nat) : (s.bumpHalf a lo).rfx = s.rfx := rfl
@[simp] theorem State.bumpHalf_tk (s : State) (a : Nat) (lo : Nat) : (s.bumpHalf a lo).tk = s.tk := rfl
@[simp] theorem State.bumpHalf_vsm (s : State) (a : Nat) (lo : Nat) : (s.bumpHalf a lo).vsm = s.vsm := rfl
@[simp] theorem State.bumpHalf_kvt (s : State) (a : Nat) (lo : Nat) : (s.bumpHalf a lo).kvt = s.kvt := rfl
@[simp] theorem State.bumpHalf_mbx (s : State) (a : Nat) (lo : Nat) : (s.bumpHalf a lo).mbx = s.mbx := rfl
@[simp] theorem State.bumpHalf_bay (s : State) (a : Nat) (lo : Nat) : (s.bumpHalf a lo).bay = s.bay := rfl
@[simp] theorem State.bumpHalf_props (s : State) (a : Nat) (lo : Nat) : (s.bumpHalf a lo).props = s.props := rfl
@[simp] theorem State.bumpHalf_ppc (s : State) (a : Nat) (lo : Nat) : (s.bumpHalf a lo).ppc = s.ppc := rfl
@[simp] theorem State.bumpHalf_xbr (s : State) (a : Nat) (lo : Nat) : (s.bumpHalf a lo).xbr = s.xbr := rfl
@[simp] theorem State.bumpHalf_sep (s : State) (a : Nat) (lo : Nat) : (s.bumpHalf a lo).sep = s.sep := rfl
@[simp] theorem State.bumpHalf_pwr (s : State) (a : Nat) (lo : Nat) : (s.bumpHalf a lo).pwr = s.pwr := rfl
@[simp] theorem State.bumpHalf_lcu (s : State) (a : Nat) (lo : Nat) : (s.bumpHalf a lo).lcu = s.lcu := rfl
@[simp] theorem State.bumpHalf_pmu (s : State) (a : Nat) (lo : Nat) : (s.bumpHalf a lo).pmu = s.pmu := rfl
@[simp] theorem State.bumpHalf_tst (s : State) (a : Nat) (lo : Nat) : (s.bumpHalf a lo).tst = s.tst := rfl
@[simp] theorem State.bumpHalf_mac (s : State) (a : Nat) (lo : Nat) : (s.bumpHalf a lo).mac = s.mac := rfl
@[simp] theorem State.bumpHalf_now (s : State) (a : Nat) (lo : Nat) : (s.bumpHalf a lo).now = s.now := rfl
@[simp] theorem State.bumpHalf_part (s : State) (a : Nat) (lo : Nat) : (s.bumpHalf a lo).part = s.part := rfl
@[simp] theorem State.bumpHalf_slot (s : State) (a : Nat) (lo : Nat) : (s.bumpHalf a lo).slot = s.slot := rfl
@[simp] theorem State.bumpHalf_uid (s : State) (a : Nat) (lo : Nat) : (s.bumpHalf a lo).uid = s.uid := rfl
@[simp] theorem State.bumpHalf_pending (s : State) (a : Nat) (lo : Nat) : (s.bumpHalf a lo).pending = s.pending := rfl
@[simp] theorem State.bumpHalf_out (s : State) (a : Nat) (lo : Nat) : (s.bumpHalf a lo).out = s.out := rfl
@[simp] theorem State.bumpHalf_freeCtr (s : State) (a : Nat) (lo : Nat) : (s.bumpHalf a lo).freeCtr = s.freeCtr := rfl

theorem State.count_kept (s : State) (ev : Nat) (addr : Option Nat) (cls : Option Nat) (priv : Nat) (mst : Nat) (inc : Nat) : Kept { pmu := true, moved := true } s (s.count ev addr cls priv mst inc) :=
  Kept.count _ _ _ _ _ _ (Kept.refl s) (hPmu := rfl) (hMoved := rfl)
@[simp] theorem State.count_hce (s : State) (ev : Nat) (addr : Option Nat) (cls : Option Nat) (priv : Nat) (mst : Nat) (inc : Nat) : (s.count ev addr cls priv mst inc).hce = s.hce := (s.count_kept ev addr cls priv mst inc).only.hce.resolve_left Bool.false_ne_true
@[simp] theorem State.count_rfu (s : State) (ev : Nat) (addr : Option Nat) (cls : Option Nat) (priv : Nat) (mst : Nat) (inc : Nat) : (s.count ev addr cls priv mst inc).rfu = s.rfu := (s.count_kept ev addr cls priv mst inc).only.rfu.resolve_left Bool.false_ne_true
@[simp] theorem State.count_rge (s : State) (ev : Nat) (addr : Option Nat) (cls : Option Nat) (priv : Nat) (mst : Nat) (inc : Nat) : (s.count ev addr cls priv mst inc).rge = s.rge := (s.count_kept ev addr cls priv mst inc).only.rge.resolve_left Bool.false_ne_true
@[simp] theorem State.count_snt (s : State) (ev : Nat) (addr : Option Nat) (cls : Option Nat) (priv : Nat) (mst : Nat) (inc : Nat) : (s.count ev addr cls priv mst inc).snt = s.snt := (s.count_kept ev addr cls priv mst inc).only.snt.resolve_left Bool.false_ne_true
@[simp] theorem State.count_rfx (s : State) (ev : Nat) (addr : Option Nat) (cls : Option Nat) (priv : Nat) (mst : Nat) (inc : Nat) : (s.count ev addr cls priv mst inc).rfx = s.rfx := (s.count_kept ev addr cls priv mst inc).only.rfx.resolve_left Bool.false_ne_true
@[simp] theorem State.count_tk (s : State) (ev : Nat) (addr : Option Nat) (cls : Option Nat) (priv : Nat) (mst : Nat) (inc : Nat) : (s.count ev addr cls priv mst inc).tk = s.tk := (s.count_kept ev addr cls priv mst inc).only.tk.resolve_left Bool.false_ne_true
@[simp] theorem State.count_vsm (s : State) (ev : Nat) (addr : Option Nat) (cls : Option Nat) (priv : Nat) (mst : Nat) (inc : Nat) : (s.count ev addr cls priv mst inc).vsm = s.vsm := (s.count_kept ev addr cls priv mst inc).only.vsm.resolve_left Bool.false_ne_true
@[simp] theorem State.count_kvt (s : State) (ev : Nat) (addr : Option Nat) (cls : Option Nat) (priv : Nat) (mst : Nat) (inc : Nat) : (s.count ev addr cls priv mst inc).kvt = s.kvt := (s.count_kept ev addr cls priv mst inc).only.kvt.resolve_left Bool.false_ne_true
@[simp] theorem State.count_mbx (s : State) (ev : Nat) (addr : Option Nat) (cls : Option Nat) (priv : Nat) (mst : Nat) (inc : Nat) : (s.count ev addr cls priv mst inc).mbx = s.mbx := (s.count_kept ev addr cls priv mst inc).only.mbx.resolve_left Bool.false_ne_true
@[simp] theorem State.count_bay (s : State) (ev : Nat) (addr : Option Nat) (cls : Option Nat) (priv : Nat) (mst : Nat) (inc : Nat) : (s.count ev addr cls priv mst inc).bay = s.bay := (s.count_kept ev addr cls priv mst inc).only.bay.resolve_left Bool.false_ne_true
@[simp] theorem State.count_props (s : State) (ev : Nat) (addr : Option Nat) (cls : Option Nat) (priv : Nat) (mst : Nat) (inc : Nat) : (s.count ev addr cls priv mst inc).props = s.props := (s.count_kept ev addr cls priv mst inc).only.props.resolve_left Bool.false_ne_true
@[simp] theorem State.count_ppc (s : State) (ev : Nat) (addr : Option Nat) (cls : Option Nat) (priv : Nat) (mst : Nat) (inc : Nat) : (s.count ev addr cls priv mst inc).ppc = s.ppc := (s.count_kept ev addr cls priv mst inc).only.ppc.resolve_left Bool.false_ne_true
@[simp] theorem State.count_xbr (s : State) (ev : Nat) (addr : Option Nat) (cls : Option Nat) (priv : Nat) (mst : Nat) (inc : Nat) : (s.count ev addr cls priv mst inc).xbr = s.xbr := (s.count_kept ev addr cls priv mst inc).only.xbr.resolve_left Bool.false_ne_true
@[simp] theorem State.count_sep (s : State) (ev : Nat) (addr : Option Nat) (cls : Option Nat) (priv : Nat) (mst : Nat) (inc : Nat) : (s.count ev addr cls priv mst inc).sep = s.sep := (s.count_kept ev addr cls priv mst inc).only.sep.resolve_left Bool.false_ne_true
@[simp] theorem State.count_pwr (s : State) (ev : Nat) (addr : Option Nat) (cls : Option Nat) (priv : Nat) (mst : Nat) (inc : Nat) : (s.count ev addr cls priv mst inc).pwr = s.pwr := (s.count_kept ev addr cls priv mst inc).only.pwr.resolve_left Bool.false_ne_true
@[simp] theorem State.count_lcu (s : State) (ev : Nat) (addr : Option Nat) (cls : Option Nat) (priv : Nat) (mst : Nat) (inc : Nat) : (s.count ev addr cls priv mst inc).lcu = s.lcu := (s.count_kept ev addr cls priv mst inc).only.lcu.resolve_left Bool.false_ne_true
@[simp] theorem State.count_tst (s : State) (ev : Nat) (addr : Option Nat) (cls : Option Nat) (priv : Nat) (mst : Nat) (inc : Nat) : (s.count ev addr cls priv mst inc).tst = s.tst := (s.count_kept ev addr cls priv mst inc).only.tst.resolve_left Bool.false_ne_true
@[simp] theorem State.count_mac (s : State) (ev : Nat) (addr : Option Nat) (cls : Option Nat) (priv : Nat) (mst : Nat) (inc : Nat) : (s.count ev addr cls priv mst inc).mac = s.mac := (s.count_kept ev addr cls priv mst inc).only.mac.resolve_left Bool.false_ne_true
@[simp] theorem State.count_now (s : State) (ev : Nat) (addr : Option Nat) (cls : Option Nat) (priv : Nat) (mst : Nat) (inc : Nat) : (s.count ev addr cls priv mst inc).now = s.now := (s.count_kept ev addr cls priv mst inc).same.now
@[simp] theorem State.count_part (s : State) (ev : Nat) (addr : Option Nat) (cls : Option Nat) (priv : Nat) (mst : Nat) (inc : Nat) : (s.count ev addr cls priv mst inc).part = s.part := (s.count_kept ev addr cls priv mst inc).same.part
@[simp] theorem State.count_slot (s : State) (ev : Nat) (addr : Option Nat) (cls : Option Nat) (priv : Nat) (mst : Nat) (inc : Nat) : (s.count ev addr cls priv mst inc).slot = s.slot := (s.count_kept ev addr cls priv mst inc).same.slot
@[simp] theorem State.count_uid (s : State) (ev : Nat) (addr : Option Nat) (cls : Option Nat) (priv : Nat) (mst : Nat) (inc : Nat) : (s.count ev addr cls priv mst inc).uid = s.uid := (s.count_kept ev addr cls priv mst inc).same.uid
@[simp] theorem State.count_pending (s : State) (ev : Nat) (addr : Option Nat) (cls : Option Nat) (priv : Nat) (mst : Nat) (inc : Nat) : (s.count ev addr cls priv mst inc).pending = s.pending := (s.count_kept ev addr cls priv mst inc).pending
@[simp] theorem State.count_out (s : State) (ev : Nat) (addr : Option Nat) (cls : Option Nat) (priv : Nat) (mst : Nat) (inc : Nat) : (s.count ev addr cls priv mst inc).out = s.out := (s.count_kept ev addr cls priv mst inc).only.out.resolve_left Bool.false_ne_true
@[simp] theorem State.count_freeCtr (s : State) (ev : Nat) (addr : Option Nat) (cls : Option Nat) (priv : Nat) (mst : Nat) (inc : Nat) : (s.count ev addr cls priv mst inc).freeCtr = s.freeCtr := (s.count_kept ev addr cls priv mst inc).only.free.resolve_left Bool.false_ne_true

theorem State.hostEvent_kept (s : State) (ev : Nat) (addr : Nat) (cls : Option Nat) (inc : Nat) : Kept { pmu := true, moved := true } s (s.hostEvent ev addr cls inc) :=
  Kept.hostEvent _ _ _ _ (Kept.refl s) (hPmu := rfl) (hMoved := rfl)
@[simp] theorem State.hostEvent_hce (s : State) (ev : Nat) (addr : Nat) (cls : Option Nat) (inc : Nat) : (s.hostEvent ev addr cls inc).hce = s.hce := (s.hostEvent_kept ev addr cls inc).only.hce.resolve_left Bool.false_ne_true
@[simp] theorem State.hostEvent_rfu (s : State) (ev : Nat) (addr : Nat) (cls : Option Nat) (inc : Nat) : (s.hostEvent ev addr cls inc).rfu = s.rfu := (s.hostEvent_kept ev addr cls inc).only.rfu.resolve_left Bool.false_ne_true
@[simp] theorem State.hostEvent_rge (s : State) (ev : Nat) (addr : Nat) (cls : Option Nat) (inc : Nat) : (s.hostEvent ev addr cls inc).rge = s.rge := (s.hostEvent_kept ev addr cls inc).only.rge.resolve_left Bool.false_ne_true
@[simp] theorem State.hostEvent_snt (s : State) (ev : Nat) (addr : Nat) (cls : Option Nat) (inc : Nat) : (s.hostEvent ev addr cls inc).snt = s.snt := (s.hostEvent_kept ev addr cls inc).only.snt.resolve_left Bool.false_ne_true
@[simp] theorem State.hostEvent_rfx (s : State) (ev : Nat) (addr : Nat) (cls : Option Nat) (inc : Nat) : (s.hostEvent ev addr cls inc).rfx = s.rfx := (s.hostEvent_kept ev addr cls inc).only.rfx.resolve_left Bool.false_ne_true
@[simp] theorem State.hostEvent_tk (s : State) (ev : Nat) (addr : Nat) (cls : Option Nat) (inc : Nat) : (s.hostEvent ev addr cls inc).tk = s.tk := (s.hostEvent_kept ev addr cls inc).only.tk.resolve_left Bool.false_ne_true
@[simp] theorem State.hostEvent_vsm (s : State) (ev : Nat) (addr : Nat) (cls : Option Nat) (inc : Nat) : (s.hostEvent ev addr cls inc).vsm = s.vsm := (s.hostEvent_kept ev addr cls inc).only.vsm.resolve_left Bool.false_ne_true
@[simp] theorem State.hostEvent_kvt (s : State) (ev : Nat) (addr : Nat) (cls : Option Nat) (inc : Nat) : (s.hostEvent ev addr cls inc).kvt = s.kvt := (s.hostEvent_kept ev addr cls inc).only.kvt.resolve_left Bool.false_ne_true
@[simp] theorem State.hostEvent_mbx (s : State) (ev : Nat) (addr : Nat) (cls : Option Nat) (inc : Nat) : (s.hostEvent ev addr cls inc).mbx = s.mbx := (s.hostEvent_kept ev addr cls inc).only.mbx.resolve_left Bool.false_ne_true
@[simp] theorem State.hostEvent_bay (s : State) (ev : Nat) (addr : Nat) (cls : Option Nat) (inc : Nat) : (s.hostEvent ev addr cls inc).bay = s.bay := (s.hostEvent_kept ev addr cls inc).only.bay.resolve_left Bool.false_ne_true
@[simp] theorem State.hostEvent_props (s : State) (ev : Nat) (addr : Nat) (cls : Option Nat) (inc : Nat) : (s.hostEvent ev addr cls inc).props = s.props := (s.hostEvent_kept ev addr cls inc).only.props.resolve_left Bool.false_ne_true
@[simp] theorem State.hostEvent_ppc (s : State) (ev : Nat) (addr : Nat) (cls : Option Nat) (inc : Nat) : (s.hostEvent ev addr cls inc).ppc = s.ppc := (s.hostEvent_kept ev addr cls inc).only.ppc.resolve_left Bool.false_ne_true
@[simp] theorem State.hostEvent_xbr (s : State) (ev : Nat) (addr : Nat) (cls : Option Nat) (inc : Nat) : (s.hostEvent ev addr cls inc).xbr = s.xbr := (s.hostEvent_kept ev addr cls inc).only.xbr.resolve_left Bool.false_ne_true
@[simp] theorem State.hostEvent_sep (s : State) (ev : Nat) (addr : Nat) (cls : Option Nat) (inc : Nat) : (s.hostEvent ev addr cls inc).sep = s.sep := (s.hostEvent_kept ev addr cls inc).only.sep.resolve_left Bool.false_ne_true
@[simp] theorem State.hostEvent_pwr (s : State) (ev : Nat) (addr : Nat) (cls : Option Nat) (inc : Nat) : (s.hostEvent ev addr cls inc).pwr = s.pwr := (s.hostEvent_kept ev addr cls inc).only.pwr.resolve_left Bool.false_ne_true
@[simp] theorem State.hostEvent_lcu (s : State) (ev : Nat) (addr : Nat) (cls : Option Nat) (inc : Nat) : (s.hostEvent ev addr cls inc).lcu = s.lcu := (s.hostEvent_kept ev addr cls inc).only.lcu.resolve_left Bool.false_ne_true
@[simp] theorem State.hostEvent_tst (s : State) (ev : Nat) (addr : Nat) (cls : Option Nat) (inc : Nat) : (s.hostEvent ev addr cls inc).tst = s.tst := (s.hostEvent_kept ev addr cls inc).only.tst.resolve_left Bool.false_ne_true
@[simp] theorem State.hostEvent_mac (s : State) (ev : Nat) (addr : Nat) (cls : Option Nat) (inc : Nat) : (s.hostEvent ev addr cls inc).mac = s.mac := (s.hostEvent_kept ev addr cls inc).only.mac.resolve_left Bool.false_ne_true
@[simp] theorem State.hostEvent_now (s : State) (ev : Nat) (addr : Nat) (cls : Option Nat) (inc : Nat) : (s.hostEvent ev addr cls inc).now = s.now := (s.hostEvent_kept ev addr cls inc).same.now
@[simp] theorem State.hostEvent_part (s : State) (ev : Nat) (addr : Nat) (cls : Option Nat) (inc : Nat) : (s.hostEvent ev addr cls inc).part = s.part := (s.hostEvent_kept ev addr cls inc).same.part
@[simp] theorem State.hostEvent_slot (s : State) (ev : Nat) (addr : Nat) (cls : Option Nat) (inc : Nat) : (s.hostEvent ev addr cls inc).slot = s.slot := (s.hostEvent_kept ev addr cls inc).same.slot
@[simp] theorem State.hostEvent_uid (s : State) (ev : Nat) (addr : Nat) (cls : Option Nat) (inc : Nat) : (s.hostEvent ev addr cls inc).uid = s.uid := (s.hostEvent_kept ev addr cls inc).same.uid
@[simp] theorem State.hostEvent_pending (s : State) (ev : Nat) (addr : Nat) (cls : Option Nat) (inc : Nat) : (s.hostEvent ev addr cls inc).pending = s.pending := (s.hostEvent_kept ev addr cls inc).pending
@[simp] theorem State.hostEvent_out (s : State) (ev : Nat) (addr : Nat) (cls : Option Nat) (inc : Nat) : (s.hostEvent ev addr cls inc).out = s.out := (s.hostEvent_kept ev addr cls inc).only.out.resolve_left Bool.false_ne_true
@[simp] theorem State.hostEvent_freeCtr (s : State) (ev : Nat) (addr : Nat) (cls : Option Nat) (inc : Nat) : (s.hostEvent ev addr cls inc).freeCtr = s.freeCtr := (s.hostEvent_kept ev addr cls inc).only.free.resolve_left Bool.false_ne_true

theorem State.vsCount_kept (s : State) (v : Nat) (f : VsRec → VsRec) : Kept { pmu := true } s (s.vsCount v f) :=
  Kept.vsCount _ _ (Kept.refl s) (hPmu := rfl)
@[simp] theorem State.vsCount_hce (s : State) (v : Nat) (f : VsRec → VsRec) : (s.vsCount v f).hce = s.hce := (s.vsCount_kept v f).only.hce.resolve_left Bool.false_ne_true
@[simp] theorem State.vsCount_rfu (s : State) (v : Nat) (f : VsRec → VsRec) : (s.vsCount v f).rfu = s.rfu := (s.vsCount_kept v f).only.rfu.resolve_left Bool.false_ne_true
@[simp] theorem State.vsCount_rge (s : State) (v : Nat) (f : VsRec → VsRec) : (s.vsCount v f).rge = s.rge := (s.vsCount_kept v f).only.rge.resolve_left Bool.false_ne_true
@[simp] theorem State.vsCount_snt (s : State) (v : Nat) (f : VsRec → VsRec) : (s.vsCount v f).snt = s.snt := (s.vsCount_kept v f).only.snt.resolve_left Bool.false_ne_true
@[simp] theorem State.vsCount_rfx (s : State) (v : Nat) (f : VsRec → VsRec) : (s.vsCount v f).rfx = s.rfx := (s.vsCount_kept v f).only.rfx.resolve_left Bool.false_ne_true
@[simp] theorem State.vsCount_tk (s : State) (v : Nat) (f : VsRec → VsRec) : (s.vsCount v f).tk = s.tk := (s.vsCount_kept v f).only.tk.resolve_left Bool.false_ne_true
@[simp] theorem State.vsCount_vsm (s : State) (v : Nat) (f : VsRec → VsRec) : (s.vsCount v f).vsm = s.vsm := (s.vsCount_kept v f).only.vsm.resolve_left Bool.false_ne_true
@[simp] theorem State.vsCount_kvt (s : State) (v : Nat) (f : VsRec → VsRec) : (s.vsCount v f).kvt = s.kvt := (s.vsCount_kept v f).only.kvt.resolve_left Bool.false_ne_true
@[simp] theorem State.vsCount_mbx (s : State) (v : Nat) (f : VsRec → VsRec) : (s.vsCount v f).mbx = s.mbx := (s.vsCount_kept v f).only.mbx.resolve_left Bool.false_ne_true
@[simp] theorem State.vsCount_bay (s : State) (v : Nat) (f : VsRec → VsRec) : (s.vsCount v f).bay = s.bay := (s.vsCount_kept v f).only.bay.resolve_left Bool.false_ne_true
@[simp] theorem State.vsCount_props (s : State) (v : Nat) (f : VsRec → VsRec) : (s.vsCount v f).props = s.props := (s.vsCount_kept v f).only.props.resolve_left Bool.false_ne_true
@[simp] theorem State.vsCount_ppc (s : State) (v : Nat) (f : VsRec → VsRec) : (s.vsCount v f).ppc = s.ppc := (s.vsCount_kept v f).only.ppc.resolve_left Bool.false_ne_true
@[simp] theorem State.vsCount_xbr (s : State) (v : Nat) (f : VsRec → VsRec) : (s.vsCount v f).xbr = s.xbr := (s.vsCount_kept v f).only.xbr.resolve_left Bool.false_ne_true
@[simp] theorem State.vsCount_sep (s : State) (v : Nat) (f : VsRec → VsRec) : (s.vsCount v f).sep = s.sep := (s.vsCount_kept v f).only.sep.resolve_left Bool.false_ne_true
@[simp] theorem State.vsCount_pwr (s : State) (v : Nat) (f : VsRec → VsRec) : (s.vsCount v f).pwr = s.pwr := (s.vsCount_kept v f).only.pwr.resolve_left Bool.false_ne_true
@[simp] theorem State.vsCount_lcu (s : State) (v : Nat) (f : VsRec → VsRec) : (s.vsCount v f).lcu = s.lcu := (s.vsCount_kept v f).only.lcu.resolve_left Bool.false_ne_true
@[simp] theorem State.vsCount_tst (s : State) (v : Nat) (f : VsRec → VsRec) : (s.vsCount v f).tst = s.tst := (s.vsCount_kept v f).only.tst.resolve_left Bool.false_ne_true
@[simp] theorem State.vsCount_mac (s : State) (v : Nat) (f : VsRec → VsRec) : (s.vsCount v f).mac = s.mac := (s.vsCount_kept v f).only.mac.resolve_left Bool.false_ne_true
@[simp] theorem State.vsCount_now (s : State) (v : Nat) (f : VsRec → VsRec) : (s.vsCount v f).now = s.now := (s.vsCount_kept v f).same.now
@[simp] theorem State.vsCount_part (s : State) (v : Nat) (f : VsRec → VsRec) : (s.vsCount v f).part = s.part := (s.vsCount_kept v f).same.part
@[simp] theorem State.vsCount_slot (s : State) (v : Nat) (f : VsRec → VsRec) : (s.vsCount v f).slot = s.slot := (s.vsCount_kept v f).same.slot
@[simp] theorem State.vsCount_uid (s : State) (v : Nat) (f : VsRec → VsRec) : (s.vsCount v f).uid = s.uid := (s.vsCount_kept v f).same.uid
@[simp] theorem State.vsCount_pending (s : State) (v : Nat) (f : VsRec → VsRec) : (s.vsCount v f).pending = s.pending := (s.vsCount_kept v f).pending
@[simp] theorem State.vsCount_out (s : State) (v : Nat) (f : VsRec → VsRec) : (s.vsCount v f).out = s.out := (s.vsCount_kept v f).only.out.resolve_left Bool.false_ne_true
@[simp] theorem State.vsCount_freeCtr (s : State) (v : Nat) (f : VsRec → VsRec) : (s.vsCount v f).freeCtr = s.freeCtr := (s.vsCount_kept v f).only.free.resolve_left Bool.false_ne_true
@[simp] theorem State.vsCount_reg (s : State) (v : Nat) (f : VsRec → VsRec) (k : Nat) : (s.vsCount v f).reg k = s.reg k := ((s.vsCount_kept v f).only.regs).resolve_left Bool.false_ne_true k (fun h => absurd h Bool.false_ne_true)

theorem State.xbar_kept (s : State) (input : Nat) (icls : Nat) (control : Bool) (copies : List Copy) (len : Nat) : Kept { xbr := true } s (s.xbar input icls control copies len) :=
  Kept.xbar _ _ _ _ _ (Kept.refl s) (hXbr := rfl)
@[simp] theorem State.xbar_hce (s : State) (input : Nat) (icls : Nat) (control : Bool) (copies : List Copy) (len : Nat) : (s.xbar input icls control copies len).hce = s.hce := (s.xbar_kept input icls control copies len).only.hce.resolve_left Bool.false_ne_true
@[simp] theorem State.xbar_rfu (s : State) (input : Nat) (icls : Nat) (control : Bool) (copies : List Copy) (len : Nat) : (s.xbar input icls control copies len).rfu = s.rfu := (s.xbar_kept input icls control copies len).only.rfu.resolve_left Bool.false_ne_true
@[simp] theorem State.xbar_rge (s : State) (input : Nat) (icls : Nat) (control : Bool) (copies : List Copy) (len : Nat) : (s.xbar input icls control copies len).rge = s.rge := (s.xbar_kept input icls control copies len).only.rge.resolve_left Bool.false_ne_true
@[simp] theorem State.xbar_snt (s : State) (input : Nat) (icls : Nat) (control : Bool) (copies : List Copy) (len : Nat) : (s.xbar input icls control copies len).snt = s.snt := (s.xbar_kept input icls control copies len).only.snt.resolve_left Bool.false_ne_true
@[simp] theorem State.xbar_rfx (s : State) (input : Nat) (icls : Nat) (control : Bool) (copies : List Copy) (len : Nat) : (s.xbar input icls control copies len).rfx = s.rfx := (s.xbar_kept input icls control copies len).only.rfx.resolve_left Bool.false_ne_true
@[simp] theorem State.xbar_tk (s : State) (input : Nat) (icls : Nat) (control : Bool) (copies : List Copy) (len : Nat) : (s.xbar input icls control copies len).tk = s.tk := (s.xbar_kept input icls control copies len).only.tk.resolve_left Bool.false_ne_true
@[simp] theorem State.xbar_vsm (s : State) (input : Nat) (icls : Nat) (control : Bool) (copies : List Copy) (len : Nat) : (s.xbar input icls control copies len).vsm = s.vsm := (s.xbar_kept input icls control copies len).only.vsm.resolve_left Bool.false_ne_true
@[simp] theorem State.xbar_kvt (s : State) (input : Nat) (icls : Nat) (control : Bool) (copies : List Copy) (len : Nat) : (s.xbar input icls control copies len).kvt = s.kvt := (s.xbar_kept input icls control copies len).only.kvt.resolve_left Bool.false_ne_true
@[simp] theorem State.xbar_mbx (s : State) (input : Nat) (icls : Nat) (control : Bool) (copies : List Copy) (len : Nat) : (s.xbar input icls control copies len).mbx = s.mbx := (s.xbar_kept input icls control copies len).only.mbx.resolve_left Bool.false_ne_true
@[simp] theorem State.xbar_bay (s : State) (input : Nat) (icls : Nat) (control : Bool) (copies : List Copy) (len : Nat) : (s.xbar input icls control copies len).bay = s.bay := (s.xbar_kept input icls control copies len).only.bay.resolve_left Bool.false_ne_true
@[simp] theorem State.xbar_props (s : State) (input : Nat) (icls : Nat) (control : Bool) (copies : List Copy) (len : Nat) : (s.xbar input icls control copies len).props = s.props := (s.xbar_kept input icls control copies len).only.props.resolve_left Bool.false_ne_true
@[simp] theorem State.xbar_ppc (s : State) (input : Nat) (icls : Nat) (control : Bool) (copies : List Copy) (len : Nat) : (s.xbar input icls control copies len).ppc = s.ppc := (s.xbar_kept input icls control copies len).only.ppc.resolve_left Bool.false_ne_true
@[simp] theorem State.xbar_sep (s : State) (input : Nat) (icls : Nat) (control : Bool) (copies : List Copy) (len : Nat) : (s.xbar input icls control copies len).sep = s.sep := (s.xbar_kept input icls control copies len).only.sep.resolve_left Bool.false_ne_true
@[simp] theorem State.xbar_pwr (s : State) (input : Nat) (icls : Nat) (control : Bool) (copies : List Copy) (len : Nat) : (s.xbar input icls control copies len).pwr = s.pwr := (s.xbar_kept input icls control copies len).only.pwr.resolve_left Bool.false_ne_true
@[simp] theorem State.xbar_lcu (s : State) (input : Nat) (icls : Nat) (control : Bool) (copies : List Copy) (len : Nat) : (s.xbar input icls control copies len).lcu = s.lcu := (s.xbar_kept input icls control copies len).only.lcu.resolve_left Bool.false_ne_true
@[simp] theorem State.xbar_pmu (s : State) (input : Nat) (icls : Nat) (control : Bool) (copies : List Copy) (len : Nat) : (s.xbar input icls control copies len).pmu = s.pmu := (s.xbar_kept input icls control copies len).only.pmu.resolve_left Bool.false_ne_true
@[simp] theorem State.xbar_tst (s : State) (input : Nat) (icls : Nat) (control : Bool) (copies : List Copy) (len : Nat) : (s.xbar input icls control copies len).tst = s.tst := (s.xbar_kept input icls control copies len).only.tst.resolve_left Bool.false_ne_true
@[simp] theorem State.xbar_mac (s : State) (input : Nat) (icls : Nat) (control : Bool) (copies : List Copy) (len : Nat) : (s.xbar input icls control copies len).mac = s.mac := (s.xbar_kept input icls control copies len).only.mac.resolve_left Bool.false_ne_true
@[simp] theorem State.xbar_now (s : State) (input : Nat) (icls : Nat) (control : Bool) (copies : List Copy) (len : Nat) : (s.xbar input icls control copies len).now = s.now := (s.xbar_kept input icls control copies len).same.now
@[simp] theorem State.xbar_part (s : State) (input : Nat) (icls : Nat) (control : Bool) (copies : List Copy) (len : Nat) : (s.xbar input icls control copies len).part = s.part := (s.xbar_kept input icls control copies len).same.part
@[simp] theorem State.xbar_slot (s : State) (input : Nat) (icls : Nat) (control : Bool) (copies : List Copy) (len : Nat) : (s.xbar input icls control copies len).slot = s.slot := (s.xbar_kept input icls control copies len).same.slot
@[simp] theorem State.xbar_uid (s : State) (input : Nat) (icls : Nat) (control : Bool) (copies : List Copy) (len : Nat) : (s.xbar input icls control copies len).uid = s.uid := (s.xbar_kept input icls control copies len).same.uid
@[simp] theorem State.xbar_pending (s : State) (input : Nat) (icls : Nat) (control : Bool) (copies : List Copy) (len : Nat) : (s.xbar input icls control copies len).pending = s.pending := (s.xbar_kept input icls control copies len).pending
@[simp] theorem State.xbar_out (s : State) (input : Nat) (icls : Nat) (control : Bool) (copies : List Copy) (len : Nat) : (s.xbar input icls control copies len).out = s.out := (s.xbar_kept input icls control copies len).only.out.resolve_left Bool.false_ne_true
@[simp] theorem State.xbar_freeCtr (s : State) (input : Nat) (icls : Nat) (control : Bool) (copies : List Copy) (len : Nat) : (s.xbar input icls control copies len).freeCtr = s.freeCtr := (s.xbar_kept input icls control copies len).only.free.resolve_left Bool.false_ne_true
@[simp] theorem State.xbar_reg (s : State) (input : Nat) (icls : Nat) (control : Bool) (copies : List Copy) (len : Nat) (k : Nat) : (s.xbar input icls control copies len).reg k = s.reg k := ((s.xbar_kept input icls control copies len).only.regs).resolve_left Bool.false_ne_true k (fun h => absurd h Bool.false_ne_true)

theorem State.xbarRelti_kept (s : State) (port : Nat) (dst : Nat) (typ : Nat) (n : Nat) : Kept { out := true, xbr := true } s (s.xbarRelti port dst typ n) :=
  Kept.xbarRelti _ _ _ _ (Kept.refl s) (hOut := rfl) (hXbr := rfl)
@[simp] theorem State.xbarRelti_hce (s : State) (port : Nat) (dst : Nat) (typ : Nat) (n : Nat) : (s.xbarRelti port dst typ n).hce = s.hce := (s.xbarRelti_kept port dst typ n).only.hce.resolve_left Bool.false_ne_true
@[simp] theorem State.xbarRelti_rfu (s : State) (port : Nat) (dst : Nat) (typ : Nat) (n : Nat) : (s.xbarRelti port dst typ n).rfu = s.rfu := (s.xbarRelti_kept port dst typ n).only.rfu.resolve_left Bool.false_ne_true
@[simp] theorem State.xbarRelti_rge (s : State) (port : Nat) (dst : Nat) (typ : Nat) (n : Nat) : (s.xbarRelti port dst typ n).rge = s.rge := (s.xbarRelti_kept port dst typ n).only.rge.resolve_left Bool.false_ne_true
@[simp] theorem State.xbarRelti_snt (s : State) (port : Nat) (dst : Nat) (typ : Nat) (n : Nat) : (s.xbarRelti port dst typ n).snt = s.snt := (s.xbarRelti_kept port dst typ n).only.snt.resolve_left Bool.false_ne_true
@[simp] theorem State.xbarRelti_rfx (s : State) (port : Nat) (dst : Nat) (typ : Nat) (n : Nat) : (s.xbarRelti port dst typ n).rfx = s.rfx := (s.xbarRelti_kept port dst typ n).only.rfx.resolve_left Bool.false_ne_true
@[simp] theorem State.xbarRelti_tk (s : State) (port : Nat) (dst : Nat) (typ : Nat) (n : Nat) : (s.xbarRelti port dst typ n).tk = s.tk := (s.xbarRelti_kept port dst typ n).only.tk.resolve_left Bool.false_ne_true
@[simp] theorem State.xbarRelti_vsm (s : State) (port : Nat) (dst : Nat) (typ : Nat) (n : Nat) : (s.xbarRelti port dst typ n).vsm = s.vsm := (s.xbarRelti_kept port dst typ n).only.vsm.resolve_left Bool.false_ne_true
@[simp] theorem State.xbarRelti_kvt (s : State) (port : Nat) (dst : Nat) (typ : Nat) (n : Nat) : (s.xbarRelti port dst typ n).kvt = s.kvt := (s.xbarRelti_kept port dst typ n).only.kvt.resolve_left Bool.false_ne_true
@[simp] theorem State.xbarRelti_mbx (s : State) (port : Nat) (dst : Nat) (typ : Nat) (n : Nat) : (s.xbarRelti port dst typ n).mbx = s.mbx := (s.xbarRelti_kept port dst typ n).only.mbx.resolve_left Bool.false_ne_true
@[simp] theorem State.xbarRelti_bay (s : State) (port : Nat) (dst : Nat) (typ : Nat) (n : Nat) : (s.xbarRelti port dst typ n).bay = s.bay := (s.xbarRelti_kept port dst typ n).only.bay.resolve_left Bool.false_ne_true
@[simp] theorem State.xbarRelti_props (s : State) (port : Nat) (dst : Nat) (typ : Nat) (n : Nat) : (s.xbarRelti port dst typ n).props = s.props := (s.xbarRelti_kept port dst typ n).only.props.resolve_left Bool.false_ne_true
@[simp] theorem State.xbarRelti_ppc (s : State) (port : Nat) (dst : Nat) (typ : Nat) (n : Nat) : (s.xbarRelti port dst typ n).ppc = s.ppc := (s.xbarRelti_kept port dst typ n).only.ppc.resolve_left Bool.false_ne_true
@[simp] theorem State.xbarRelti_sep (s : State) (port : Nat) (dst : Nat) (typ : Nat) (n : Nat) : (s.xbarRelti port dst typ n).sep = s.sep := (s.xbarRelti_kept port dst typ n).only.sep.resolve_left Bool.false_ne_true
@[simp] theorem State.xbarRelti_pwr (s : State) (port : Nat) (dst : Nat) (typ : Nat) (n : Nat) : (s.xbarRelti port dst typ n).pwr = s.pwr := (s.xbarRelti_kept port dst typ n).only.pwr.resolve_left Bool.false_ne_true
@[simp] theorem State.xbarRelti_lcu (s : State) (port : Nat) (dst : Nat) (typ : Nat) (n : Nat) : (s.xbarRelti port dst typ n).lcu = s.lcu := (s.xbarRelti_kept port dst typ n).only.lcu.resolve_left Bool.false_ne_true
@[simp] theorem State.xbarRelti_pmu (s : State) (port : Nat) (dst : Nat) (typ : Nat) (n : Nat) : (s.xbarRelti port dst typ n).pmu = s.pmu := (s.xbarRelti_kept port dst typ n).only.pmu.resolve_left Bool.false_ne_true
@[simp] theorem State.xbarRelti_tst (s : State) (port : Nat) (dst : Nat) (typ : Nat) (n : Nat) : (s.xbarRelti port dst typ n).tst = s.tst := (s.xbarRelti_kept port dst typ n).only.tst.resolve_left Bool.false_ne_true
@[simp] theorem State.xbarRelti_mac (s : State) (port : Nat) (dst : Nat) (typ : Nat) (n : Nat) : (s.xbarRelti port dst typ n).mac = s.mac := (s.xbarRelti_kept port dst typ n).only.mac.resolve_left Bool.false_ne_true
@[simp] theorem State.xbarRelti_now (s : State) (port : Nat) (dst : Nat) (typ : Nat) (n : Nat) : (s.xbarRelti port dst typ n).now = s.now := (s.xbarRelti_kept port dst typ n).same.now
@[simp] theorem State.xbarRelti_part (s : State) (port : Nat) (dst : Nat) (typ : Nat) (n : Nat) : (s.xbarRelti port dst typ n).part = s.part := (s.xbarRelti_kept port dst typ n).same.part
@[simp] theorem State.xbarRelti_slot (s : State) (port : Nat) (dst : Nat) (typ : Nat) (n : Nat) : (s.xbarRelti port dst typ n).slot = s.slot := (s.xbarRelti_kept port dst typ n).same.slot
@[simp] theorem State.xbarRelti_uid (s : State) (port : Nat) (dst : Nat) (typ : Nat) (n : Nat) : (s.xbarRelti port dst typ n).uid = s.uid := (s.xbarRelti_kept port dst typ n).same.uid
@[simp] theorem State.xbarRelti_pending (s : State) (port : Nat) (dst : Nat) (typ : Nat) (n : Nat) : (s.xbarRelti port dst typ n).pending = s.pending := (s.xbarRelti_kept port dst typ n).pending
@[simp] theorem State.xbarRelti_freeCtr (s : State) (port : Nat) (dst : Nat) (typ : Nat) (n : Nat) : (s.xbarRelti port dst typ n).freeCtr = s.freeCtr := (s.xbarRelti_kept port dst typ n).only.free.resolve_left Bool.false_ne_true
@[simp] theorem State.xbarRelti_reg (s : State) (port : Nat) (dst : Nat) (typ : Nat) (n : Nat) (k : Nat) : (s.xbarRelti port dst typ n).reg k = s.reg k := ((s.xbarRelti_kept port dst typ n).only.regs).resolve_left Bool.false_ne_true k (fun h => absurd h Bool.false_ne_true)

theorem State.sendMsi_kept (s : State) (v : Nat) : Kept { sep := true, out := true } s (s.sendMsi v) :=
  Kept.sendMsi _ (Kept.refl s) (hSep := rfl) (hOut := rfl)
@[simp] theorem State.sendMsi_hce (s : State) (v : Nat) : (s.sendMsi v).hce = s.hce := (s.sendMsi_kept v).only.hce.resolve_left Bool.false_ne_true
@[simp] theorem State.sendMsi_rfu (s : State) (v : Nat) : (s.sendMsi v).rfu = s.rfu := (s.sendMsi_kept v).only.rfu.resolve_left Bool.false_ne_true
@[simp] theorem State.sendMsi_rge (s : State) (v : Nat) : (s.sendMsi v).rge = s.rge := (s.sendMsi_kept v).only.rge.resolve_left Bool.false_ne_true
@[simp] theorem State.sendMsi_snt (s : State) (v : Nat) : (s.sendMsi v).snt = s.snt := (s.sendMsi_kept v).only.snt.resolve_left Bool.false_ne_true
@[simp] theorem State.sendMsi_rfx (s : State) (v : Nat) : (s.sendMsi v).rfx = s.rfx := (s.sendMsi_kept v).only.rfx.resolve_left Bool.false_ne_true
@[simp] theorem State.sendMsi_tk (s : State) (v : Nat) : (s.sendMsi v).tk = s.tk := (s.sendMsi_kept v).only.tk.resolve_left Bool.false_ne_true
@[simp] theorem State.sendMsi_vsm (s : State) (v : Nat) : (s.sendMsi v).vsm = s.vsm := (s.sendMsi_kept v).only.vsm.resolve_left Bool.false_ne_true
@[simp] theorem State.sendMsi_kvt (s : State) (v : Nat) : (s.sendMsi v).kvt = s.kvt := (s.sendMsi_kept v).only.kvt.resolve_left Bool.false_ne_true
@[simp] theorem State.sendMsi_mbx (s : State) (v : Nat) : (s.sendMsi v).mbx = s.mbx := (s.sendMsi_kept v).only.mbx.resolve_left Bool.false_ne_true
@[simp] theorem State.sendMsi_bay (s : State) (v : Nat) : (s.sendMsi v).bay = s.bay := (s.sendMsi_kept v).only.bay.resolve_left Bool.false_ne_true
@[simp] theorem State.sendMsi_props (s : State) (v : Nat) : (s.sendMsi v).props = s.props := (s.sendMsi_kept v).only.props.resolve_left Bool.false_ne_true
@[simp] theorem State.sendMsi_ppc (s : State) (v : Nat) : (s.sendMsi v).ppc = s.ppc := (s.sendMsi_kept v).only.ppc.resolve_left Bool.false_ne_true
@[simp] theorem State.sendMsi_xbr (s : State) (v : Nat) : (s.sendMsi v).xbr = s.xbr := (s.sendMsi_kept v).only.xbr.resolve_left Bool.false_ne_true
@[simp] theorem State.sendMsi_pwr (s : State) (v : Nat) : (s.sendMsi v).pwr = s.pwr := (s.sendMsi_kept v).only.pwr.resolve_left Bool.false_ne_true
@[simp] theorem State.sendMsi_lcu (s : State) (v : Nat) : (s.sendMsi v).lcu = s.lcu := (s.sendMsi_kept v).only.lcu.resolve_left Bool.false_ne_true
@[simp] theorem State.sendMsi_pmu (s : State) (v : Nat) : (s.sendMsi v).pmu = s.pmu := (s.sendMsi_kept v).only.pmu.resolve_left Bool.false_ne_true
@[simp] theorem State.sendMsi_tst (s : State) (v : Nat) : (s.sendMsi v).tst = s.tst := (s.sendMsi_kept v).only.tst.resolve_left Bool.false_ne_true
@[simp] theorem State.sendMsi_mac (s : State) (v : Nat) : (s.sendMsi v).mac = s.mac := (s.sendMsi_kept v).only.mac.resolve_left Bool.false_ne_true
@[simp] theorem State.sendMsi_now (s : State) (v : Nat) : (s.sendMsi v).now = s.now := (s.sendMsi_kept v).same.now
@[simp] theorem State.sendMsi_part (s : State) (v : Nat) : (s.sendMsi v).part = s.part := (s.sendMsi_kept v).same.part
@[simp] theorem State.sendMsi_slot (s : State) (v : Nat) : (s.sendMsi v).slot = s.slot := (s.sendMsi_kept v).same.slot
@[simp] theorem State.sendMsi_uid (s : State) (v : Nat) : (s.sendMsi v).uid = s.uid := (s.sendMsi_kept v).same.uid
@[simp] theorem State.sendMsi_pending (s : State) (v : Nat) : (s.sendMsi v).pending = s.pending := (s.sendMsi_kept v).pending
@[simp] theorem State.sendMsi_freeCtr (s : State) (v : Nat) : (s.sendMsi v).freeCtr = s.freeCtr := (s.sendMsi_kept v).only.free.resolve_left Bool.false_ne_true
@[simp] theorem State.sendMsi_reg (s : State) (v : Nat) (k : Nat) : (s.sendMsi v).reg k = s.reg k := ((s.sendMsi_kept v).only.regs).resolve_left Bool.false_ne_true k (fun h => absurd h Bool.false_ne_true)

theorem State.sepEvent_kept (s : State) (bit : Nat) : Kept { sep := true, moved := true, out := true } s (s.sepEvent bit) :=
  Kept.sepEvent _ (Kept.refl s) (hSep := rfl) (hMoved := rfl) (hOut := rfl)
@[simp] theorem State.sepEvent_hce (s : State) (bit : Nat) : (s.sepEvent bit).hce = s.hce := (s.sepEvent_kept bit).only.hce.resolve_left Bool.false_ne_true
@[simp] theorem State.sepEvent_rfu (s : State) (bit : Nat) : (s.sepEvent bit).rfu = s.rfu := (s.sepEvent_kept bit).only.rfu.resolve_left Bool.false_ne_true
@[simp] theorem State.sepEvent_rge (s : State) (bit : Nat) : (s.sepEvent bit).rge = s.rge := (s.sepEvent_kept bit).only.rge.resolve_left Bool.false_ne_true
@[simp] theorem State.sepEvent_snt (s : State) (bit : Nat) : (s.sepEvent bit).snt = s.snt := (s.sepEvent_kept bit).only.snt.resolve_left Bool.false_ne_true
@[simp] theorem State.sepEvent_rfx (s : State) (bit : Nat) : (s.sepEvent bit).rfx = s.rfx := (s.sepEvent_kept bit).only.rfx.resolve_left Bool.false_ne_true
@[simp] theorem State.sepEvent_tk (s : State) (bit : Nat) : (s.sepEvent bit).tk = s.tk := (s.sepEvent_kept bit).only.tk.resolve_left Bool.false_ne_true
@[simp] theorem State.sepEvent_vsm (s : State) (bit : Nat) : (s.sepEvent bit).vsm = s.vsm := (s.sepEvent_kept bit).only.vsm.resolve_left Bool.false_ne_true
@[simp] theorem State.sepEvent_kvt (s : State) (bit : Nat) : (s.sepEvent bit).kvt = s.kvt := (s.sepEvent_kept bit).only.kvt.resolve_left Bool.false_ne_true
@[simp] theorem State.sepEvent_mbx (s : State) (bit : Nat) : (s.sepEvent bit).mbx = s.mbx := (s.sepEvent_kept bit).only.mbx.resolve_left Bool.false_ne_true
@[simp] theorem State.sepEvent_bay (s : State) (bit : Nat) : (s.sepEvent bit).bay = s.bay := (s.sepEvent_kept bit).only.bay.resolve_left Bool.false_ne_true
@[simp] theorem State.sepEvent_props (s : State) (bit : Nat) : (s.sepEvent bit).props = s.props := (s.sepEvent_kept bit).only.props.resolve_left Bool.false_ne_true
@[simp] theorem State.sepEvent_ppc (s : State) (bit : Nat) : (s.sepEvent bit).ppc = s.ppc := (s.sepEvent_kept bit).only.ppc.resolve_left Bool.false_ne_true
@[simp] theorem State.sepEvent_xbr (s : State) (bit : Nat) : (s.sepEvent bit).xbr = s.xbr := (s.sepEvent_kept bit).only.xbr.resolve_left Bool.false_ne_true
@[simp] theorem State.sepEvent_pwr (s : State) (bit : Nat) : (s.sepEvent bit).pwr = s.pwr := (s.sepEvent_kept bit).only.pwr.resolve_left Bool.false_ne_true
@[simp] theorem State.sepEvent_lcu (s : State) (bit : Nat) : (s.sepEvent bit).lcu = s.lcu := (s.sepEvent_kept bit).only.lcu.resolve_left Bool.false_ne_true
@[simp] theorem State.sepEvent_pmu (s : State) (bit : Nat) : (s.sepEvent bit).pmu = s.pmu := (s.sepEvent_kept bit).only.pmu.resolve_left Bool.false_ne_true
@[simp] theorem State.sepEvent_tst (s : State) (bit : Nat) : (s.sepEvent bit).tst = s.tst := (s.sepEvent_kept bit).only.tst.resolve_left Bool.false_ne_true
@[simp] theorem State.sepEvent_mac (s : State) (bit : Nat) : (s.sepEvent bit).mac = s.mac := (s.sepEvent_kept bit).only.mac.resolve_left Bool.false_ne_true
@[simp] theorem State.sepEvent_now (s : State) (bit : Nat) : (s.sepEvent bit).now = s.now := (s.sepEvent_kept bit).same.now
@[simp] theorem State.sepEvent_part (s : State) (bit : Nat) : (s.sepEvent bit).part = s.part := (s.sepEvent_kept bit).same.part
@[simp] theorem State.sepEvent_slot (s : State) (bit : Nat) : (s.sepEvent bit).slot = s.slot := (s.sepEvent_kept bit).same.slot
@[simp] theorem State.sepEvent_uid (s : State) (bit : Nat) : (s.sepEvent bit).uid = s.uid := (s.sepEvent_kept bit).same.uid
@[simp] theorem State.sepEvent_pending (s : State) (bit : Nat) : (s.sepEvent bit).pending = s.pending := (s.sepEvent_kept bit).pending
@[simp] theorem State.sepEvent_freeCtr (s : State) (bit : Nat) : (s.sepEvent bit).freeCtr = s.freeCtr := (s.sepEvent_kept bit).only.free.resolve_left Bool.false_ne_true

theorem State.finishOne_kept (s : State) (m : Master) (st : Nat) (res : List Byte) : Kept { out := true, moved := true, mbx := true } s (s.finishOne m st res) :=
  Kept.finishOne _ _ _ (Kept.refl s) (hOut := rfl) (hMoved := rfl) (hMbx := rfl)
@[simp] theorem State.finishOne_hce (s : State) (m : Master) (st : Nat) (res : List Byte) : (s.finishOne m st res).hce = s.hce := (s.finishOne_kept m st res).only.hce.resolve_left Bool.false_ne_true
@[simp] theorem State.finishOne_rfu (s : State) (m : Master) (st : Nat) (res : List Byte) : (s.finishOne m st res).rfu = s.rfu := (s.finishOne_kept m st res).only.rfu.resolve_left Bool.false_ne_true
@[simp] theorem State.finishOne_rge (s : State) (m : Master) (st : Nat) (res : List Byte) : (s.finishOne m st res).rge = s.rge := (s.finishOne_kept m st res).only.rge.resolve_left Bool.false_ne_true
@[simp] theorem State.finishOne_snt (s : State) (m : Master) (st : Nat) (res : List Byte) : (s.finishOne m st res).snt = s.snt := (s.finishOne_kept m st res).only.snt.resolve_left Bool.false_ne_true
@[simp] theorem State.finishOne_rfx (s : State) (m : Master) (st : Nat) (res : List Byte) : (s.finishOne m st res).rfx = s.rfx := (s.finishOne_kept m st res).only.rfx.resolve_left Bool.false_ne_true
@[simp] theorem State.finishOne_tk (s : State) (m : Master) (st : Nat) (res : List Byte) : (s.finishOne m st res).tk = s.tk := (s.finishOne_kept m st res).only.tk.resolve_left Bool.false_ne_true
@[simp] theorem State.finishOne_vsm (s : State) (m : Master) (st : Nat) (res : List Byte) : (s.finishOne m st res).vsm = s.vsm := (s.finishOne_kept m st res).only.vsm.resolve_left Bool.false_ne_true
@[simp] theorem State.finishOne_kvt (s : State) (m : Master) (st : Nat) (res : List Byte) : (s.finishOne m st res).kvt = s.kvt := (s.finishOne_kept m st res).only.kvt.resolve_left Bool.false_ne_true
@[simp] theorem State.finishOne_bay (s : State) (m : Master) (st : Nat) (res : List Byte) : (s.finishOne m st res).bay = s.bay := (s.finishOne_kept m st res).only.bay.resolve_left Bool.false_ne_true
@[simp] theorem State.finishOne_props (s : State) (m : Master) (st : Nat) (res : List Byte) : (s.finishOne m st res).props = s.props := (s.finishOne_kept m st res).only.props.resolve_left Bool.false_ne_true
@[simp] theorem State.finishOne_ppc (s : State) (m : Master) (st : Nat) (res : List Byte) : (s.finishOne m st res).ppc = s.ppc := (s.finishOne_kept m st res).only.ppc.resolve_left Bool.false_ne_true
@[simp] theorem State.finishOne_xbr (s : State) (m : Master) (st : Nat) (res : List Byte) : (s.finishOne m st res).xbr = s.xbr := (s.finishOne_kept m st res).only.xbr.resolve_left Bool.false_ne_true
@[simp] theorem State.finishOne_sep (s : State) (m : Master) (st : Nat) (res : List Byte) : (s.finishOne m st res).sep = s.sep := (s.finishOne_kept m st res).only.sep.resolve_left Bool.false_ne_true
@[simp] theorem State.finishOne_pwr (s : State) (m : Master) (st : Nat) (res : List Byte) : (s.finishOne m st res).pwr = s.pwr := (s.finishOne_kept m st res).only.pwr.resolve_left Bool.false_ne_true
@[simp] theorem State.finishOne_lcu (s : State) (m : Master) (st : Nat) (res : List Byte) : (s.finishOne m st res).lcu = s.lcu := (s.finishOne_kept m st res).only.lcu.resolve_left Bool.false_ne_true
@[simp] theorem State.finishOne_pmu (s : State) (m : Master) (st : Nat) (res : List Byte) : (s.finishOne m st res).pmu = s.pmu := (s.finishOne_kept m st res).only.pmu.resolve_left Bool.false_ne_true
@[simp] theorem State.finishOne_tst (s : State) (m : Master) (st : Nat) (res : List Byte) : (s.finishOne m st res).tst = s.tst := (s.finishOne_kept m st res).only.tst.resolve_left Bool.false_ne_true
@[simp] theorem State.finishOne_mac (s : State) (m : Master) (st : Nat) (res : List Byte) : (s.finishOne m st res).mac = s.mac := (s.finishOne_kept m st res).only.mac.resolve_left Bool.false_ne_true
@[simp] theorem State.finishOne_now (s : State) (m : Master) (st : Nat) (res : List Byte) : (s.finishOne m st res).now = s.now := (s.finishOne_kept m st res).same.now
@[simp] theorem State.finishOne_part (s : State) (m : Master) (st : Nat) (res : List Byte) : (s.finishOne m st res).part = s.part := (s.finishOne_kept m st res).same.part
@[simp] theorem State.finishOne_slot (s : State) (m : Master) (st : Nat) (res : List Byte) : (s.finishOne m st res).slot = s.slot := (s.finishOne_kept m st res).same.slot
@[simp] theorem State.finishOne_uid (s : State) (m : Master) (st : Nat) (res : List Byte) : (s.finishOne m st res).uid = s.uid := (s.finishOne_kept m st res).same.uid
@[simp] theorem State.finishOne_pending (s : State) (m : Master) (st : Nat) (res : List Byte) : (s.finishOne m st res).pending = s.pending := (s.finishOne_kept m st res).pending
@[simp] theorem State.finishOne_freeCtr (s : State) (m : Master) (st : Nat) (res : List Byte) : (s.finishOne m st res).freeCtr = s.freeCtr := (s.finishOne_kept m st res).only.free.resolve_left Bool.false_ne_true

theorem State.finish_kept (s : State) (m : Master) (st : Nat) (res : List Byte) : Kept { out := true, moved := true, mbx := true } s (s.finish m st res) :=
  Kept.finish _ _ _ (Kept.refl s) (hOut := rfl) (hMoved := rfl) (hMbx := rfl)
@[simp] theorem State.finish_hce (s : State) (m : Master) (st : Nat) (res : List Byte) : (s.finish m st res).hce = s.hce := (s.finish_kept m st res).only.hce.resolve_left Bool.false_ne_true
@[simp] theorem State.finish_rfu (s : State) (m : Master) (st : Nat) (res : List Byte) : (s.finish m st res).rfu = s.rfu := (s.finish_kept m st res).only.rfu.resolve_left Bool.false_ne_true
@[simp] theorem State.finish_rge (s : State) (m : Master) (st : Nat) (res : List Byte) : (s.finish m st res).rge = s.rge := (s.finish_kept m st res).only.rge.resolve_left Bool.false_ne_true
@[simp] theorem State.finish_snt (s : State) (m : Master) (st : Nat) (res : List Byte) : (s.finish m st res).snt = s.snt := (s.finish_kept m st res).only.snt.resolve_left Bool.false_ne_true
@[simp] theorem State.finish_rfx (s : State) (m : Master) (st : Nat) (res : List Byte) : (s.finish m st res).rfx = s.rfx := (s.finish_kept m st res).only.rfx.resolve_left Bool.false_ne_true
@[simp] theorem State.finish_tk (s : State) (m : Master) (st : Nat) (res : List Byte) : (s.finish m st res).tk = s.tk := (s.finish_kept m st res).only.tk.resolve_left Bool.false_ne_true
@[simp] theorem State.finish_vsm (s : State) (m : Master) (st : Nat) (res : List Byte) : (s.finish m st res).vsm = s.vsm := (s.finish_kept m st res).only.vsm.resolve_left Bool.false_ne_true
@[simp] theorem State.finish_kvt (s : State) (m : Master) (st : Nat) (res : List Byte) : (s.finish m st res).kvt = s.kvt := (s.finish_kept m st res).only.kvt.resolve_left Bool.false_ne_true
@[simp] theorem State.finish_bay (s : State) (m : Master) (st : Nat) (res : List Byte) : (s.finish m st res).bay = s.bay := (s.finish_kept m st res).only.bay.resolve_left Bool.false_ne_true
@[simp] theorem State.finish_props (s : State) (m : Master) (st : Nat) (res : List Byte) : (s.finish m st res).props = s.props := (s.finish_kept m st res).only.props.resolve_left Bool.false_ne_true
@[simp] theorem State.finish_ppc (s : State) (m : Master) (st : Nat) (res : List Byte) : (s.finish m st res).ppc = s.ppc := (s.finish_kept m st res).only.ppc.resolve_left Bool.false_ne_true
@[simp] theorem State.finish_xbr (s : State) (m : Master) (st : Nat) (res : List Byte) : (s.finish m st res).xbr = s.xbr := (s.finish_kept m st res).only.xbr.resolve_left Bool.false_ne_true
@[simp] theorem State.finish_sep (s : State) (m : Master) (st : Nat) (res : List Byte) : (s.finish m st res).sep = s.sep := (s.finish_kept m st res).only.sep.resolve_left Bool.false_ne_true
@[simp] theorem State.finish_pwr (s : State) (m : Master) (st : Nat) (res : List Byte) : (s.finish m st res).pwr = s.pwr := (s.finish_kept m st res).only.pwr.resolve_left Bool.false_ne_true
@[simp] theorem State.finish_lcu (s : State) (m : Master) (st : Nat) (res : List Byte) : (s.finish m st res).lcu = s.lcu := (s.finish_kept m st res).only.lcu.resolve_left Bool.false_ne_true
@[simp] theorem State.finish_pmu (s : State) (m : Master) (st : Nat) (res : List Byte) : (s.finish m st res).pmu = s.pmu := (s.finish_kept m st res).only.pmu.resolve_left Bool.false_ne_true
@[simp] theorem State.finish_tst (s : State) (m : Master) (st : Nat) (res : List Byte) : (s.finish m st res).tst = s.tst := (s.finish_kept m st res).only.tst.resolve_left Bool.false_ne_true
@[simp] theorem State.finish_mac (s : State) (m : Master) (st : Nat) (res : List Byte) : (s.finish m st res).mac = s.mac := (s.finish_kept m st res).only.mac.resolve_left Bool.false_ne_true
@[simp] theorem State.finish_now (s : State) (m : Master) (st : Nat) (res : List Byte) : (s.finish m st res).now = s.now := (s.finish_kept m st res).same.now
@[simp] theorem State.finish_part (s : State) (m : Master) (st : Nat) (res : List Byte) : (s.finish m st res).part = s.part := (s.finish_kept m st res).same.part
@[simp] theorem State.finish_slot (s : State) (m : Master) (st : Nat) (res : List Byte) : (s.finish m st res).slot = s.slot := (s.finish_kept m st res).same.slot
@[simp] theorem State.finish_uid (s : State) (m : Master) (st : Nat) (res : List Byte) : (s.finish m st res).uid = s.uid := (s.finish_kept m st res).same.uid
@[simp] theorem State.finish_pending (s : State) (m : Master) (st : Nat) (res : List Byte) : (s.finish m st res).pending = s.pending := (s.finish_kept m st res).pending
@[simp] theorem State.finish_freeCtr (s : State) (m : Master) (st : Nat) (res : List Byte) : (s.finish m st res).freeCtr = s.freeCtr := (s.finish_kept m st res).only.free.resolve_left Bool.false_ne_true

theorem State.propagate_kept (s : State) (m : Master) (r : PropRec) : Kept { props := true, mbx := true, out := true, xbr := true, moved := true } s (s.propagate m r) :=
  Kept.propagate _ _ (Kept.refl s) (hProps := rfl) (hMbx := rfl) (hOut := rfl) (hXbr := rfl) (hMoved := rfl)
@[simp] theorem State.propagate_hce (s : State) (m : Master) (r : PropRec) : (s.propagate m r).hce = s.hce := (s.propagate_kept m r).only.hce.resolve_left Bool.false_ne_true
@[simp] theorem State.propagate_rfu (s : State) (m : Master) (r : PropRec) : (s.propagate m r).rfu = s.rfu := (s.propagate_kept m r).only.rfu.resolve_left Bool.false_ne_true
@[simp] theorem State.propagate_rge (s : State) (m : Master) (r : PropRec) : (s.propagate m r).rge = s.rge := (s.propagate_kept m r).only.rge.resolve_left Bool.false_ne_true
@[simp] theorem State.propagate_snt (s : State) (m : Master) (r : PropRec) : (s.propagate m r).snt = s.snt := (s.propagate_kept m r).only.snt.resolve_left Bool.false_ne_true
@[simp] theorem State.propagate_rfx (s : State) (m : Master) (r : PropRec) : (s.propagate m r).rfx = s.rfx := (s.propagate_kept m r).only.rfx.resolve_left Bool.false_ne_true
@[simp] theorem State.propagate_tk (s : State) (m : Master) (r : PropRec) : (s.propagate m r).tk = s.tk := (s.propagate_kept m r).only.tk.resolve_left Bool.false_ne_true
@[simp] theorem State.propagate_vsm (s : State) (m : Master) (r : PropRec) : (s.propagate m r).vsm = s.vsm := (s.propagate_kept m r).only.vsm.resolve_left Bool.false_ne_true
@[simp] theorem State.propagate_kvt (s : State) (m : Master) (r : PropRec) : (s.propagate m r).kvt = s.kvt := (s.propagate_kept m r).only.kvt.resolve_left Bool.false_ne_true
@[simp] theorem State.propagate_bay (s : State) (m : Master) (r : PropRec) : (s.propagate m r).bay = s.bay := (s.propagate_kept m r).only.bay.resolve_left Bool.false_ne_true
@[simp] theorem State.propagate_ppc (s : State) (m : Master) (r : PropRec) : (s.propagate m r).ppc = s.ppc := (s.propagate_kept m r).only.ppc.resolve_left Bool.false_ne_true
@[simp] theorem State.propagate_sep (s : State) (m : Master) (r : PropRec) : (s.propagate m r).sep = s.sep := (s.propagate_kept m r).only.sep.resolve_left Bool.false_ne_true
@[simp] theorem State.propagate_pwr (s : State) (m : Master) (r : PropRec) : (s.propagate m r).pwr = s.pwr := (s.propagate_kept m r).only.pwr.resolve_left Bool.false_ne_true
@[simp] theorem State.propagate_lcu (s : State) (m : Master) (r : PropRec) : (s.propagate m r).lcu = s.lcu := (s.propagate_kept m r).only.lcu.resolve_left Bool.false_ne_true
@[simp] theorem State.propagate_pmu (s : State) (m : Master) (r : PropRec) : (s.propagate m r).pmu = s.pmu := (s.propagate_kept m r).only.pmu.resolve_left Bool.false_ne_true
@[simp] theorem State.propagate_tst (s : State) (m : Master) (r : PropRec) : (s.propagate m r).tst = s.tst := (s.propagate_kept m r).only.tst.resolve_left Bool.false_ne_true
@[simp] theorem State.propagate_mac (s : State) (m : Master) (r : PropRec) : (s.propagate m r).mac = s.mac := (s.propagate_kept m r).only.mac.resolve_left Bool.false_ne_true
@[simp] theorem State.propagate_now (s : State) (m : Master) (r : PropRec) : (s.propagate m r).now = s.now := (s.propagate_kept m r).same.now
@[simp] theorem State.propagate_part (s : State) (m : Master) (r : PropRec) : (s.propagate m r).part = s.part := (s.propagate_kept m r).same.part
@[simp] theorem State.propagate_slot (s : State) (m : Master) (r : PropRec) : (s.propagate m r).slot = s.slot := (s.propagate_kept m r).same.slot
@[simp] theorem State.propagate_uid (s : State) (m : Master) (r : PropRec) : (s.propagate m r).uid = s.uid := (s.propagate_kept m r).same.uid
@[simp] theorem State.propagate_pending (s : State) (m : Master) (r : PropRec) : (s.propagate m r).pending = s.pending := (s.propagate_kept m r).pending
@[simp] theorem State.propagate_freeCtr (s : State) (m : Master) (r : PropRec) : (s.propagate m r).freeCtr = s.freeCtr := (s.propagate_kept m r).only.free.resolve_left Bool.false_ne_true

theorem State.mirSend_kept (s : State) (b : StreamBody) : Kept { out := true, xbr := true, pmu := true, moved := true, rfx := true } s (s.mirSend b) :=
  Kept.mirSend _ (Kept.refl s) (hOut := rfl) (hXbr := rfl) (hPmu := rfl) (hMoved := rfl) (hRfx := rfl)
@[simp] theorem State.mirSend_hce (s : State) (b : StreamBody) : (s.mirSend b).hce = s.hce := (s.mirSend_kept b).only.hce.resolve_left Bool.false_ne_true
@[simp] theorem State.mirSend_rfu (s : State) (b : StreamBody) : (s.mirSend b).rfu = s.rfu := (s.mirSend_kept b).only.rfu.resolve_left Bool.false_ne_true
@[simp] theorem State.mirSend_rge (s : State) (b : StreamBody) : (s.mirSend b).rge = s.rge := (s.mirSend_kept b).only.rge.resolve_left Bool.false_ne_true
@[simp] theorem State.mirSend_snt (s : State) (b : StreamBody) : (s.mirSend b).snt = s.snt := (s.mirSend_kept b).only.snt.resolve_left Bool.false_ne_true
@[simp] theorem State.mirSend_tk (s : State) (b : StreamBody) : (s.mirSend b).tk = s.tk := (s.mirSend_kept b).only.tk.resolve_left Bool.false_ne_true
@[simp] theorem State.mirSend_vsm (s : State) (b : StreamBody) : (s.mirSend b).vsm = s.vsm := (s.mirSend_kept b).only.vsm.resolve_left Bool.false_ne_true
@[simp] theorem State.mirSend_kvt (s : State) (b : StreamBody) : (s.mirSend b).kvt = s.kvt := (s.mirSend_kept b).only.kvt.resolve_left Bool.false_ne_true
@[simp] theorem State.mirSend_mbx (s : State) (b : StreamBody) : (s.mirSend b).mbx = s.mbx := (s.mirSend_kept b).only.mbx.resolve_left Bool.false_ne_true
@[simp] theorem State.mirSend_bay (s : State) (b : StreamBody) : (s.mirSend b).bay = s.bay := (s.mirSend_kept b).only.bay.resolve_left Bool.false_ne_true
@[simp] theorem State.mirSend_props (s : State) (b : StreamBody) : (s.mirSend b).props = s.props := (s.mirSend_kept b).only.props.resolve_left Bool.false_ne_true
@[simp] theorem State.mirSend_ppc (s : State) (b : StreamBody) : (s.mirSend b).ppc = s.ppc := (s.mirSend_kept b).only.ppc.resolve_left Bool.false_ne_true
@[simp] theorem State.mirSend_sep (s : State) (b : StreamBody) : (s.mirSend b).sep = s.sep := (s.mirSend_kept b).only.sep.resolve_left Bool.false_ne_true
@[simp] theorem State.mirSend_pwr (s : State) (b : StreamBody) : (s.mirSend b).pwr = s.pwr := (s.mirSend_kept b).only.pwr.resolve_left Bool.false_ne_true
@[simp] theorem State.mirSend_lcu (s : State) (b : StreamBody) : (s.mirSend b).lcu = s.lcu := (s.mirSend_kept b).only.lcu.resolve_left Bool.false_ne_true
@[simp] theorem State.mirSend_tst (s : State) (b : StreamBody) : (s.mirSend b).tst = s.tst := (s.mirSend_kept b).only.tst.resolve_left Bool.false_ne_true
@[simp] theorem State.mirSend_mac (s : State) (b : StreamBody) : (s.mirSend b).mac = s.mac := (s.mirSend_kept b).only.mac.resolve_left Bool.false_ne_true
@[simp] theorem State.mirSend_now (s : State) (b : StreamBody) : (s.mirSend b).now = s.now := (s.mirSend_kept b).same.now
@[simp] theorem State.mirSend_part (s : State) (b : StreamBody) : (s.mirSend b).part = s.part := (s.mirSend_kept b).same.part
@[simp] theorem State.mirSend_slot (s : State) (b : StreamBody) : (s.mirSend b).slot = s.slot := (s.mirSend_kept b).same.slot
@[simp] theorem State.mirSend_uid (s : State) (b : StreamBody) : (s.mirSend b).uid = s.uid := (s.mirSend_kept b).same.uid
@[simp] theorem State.mirSend_pending (s : State) (b : StreamBody) : (s.mirSend b).pending = s.pending := (s.mirSend_kept b).pending
@[simp] theorem State.mirSend_freeCtr (s : State) (b : StreamBody) : (s.mirSend b).freeCtr = s.freeCtr := (s.mirSend_kept b).only.free.resolve_left Bool.false_ne_true

theorem State.mirSendAll_kept (s : State) (bs : List StreamBody) : Kept { out := true, xbr := true, pmu := true, moved := true, rfx := true } s (s.mirSendAll bs) :=
  Kept.mirSendAll _ (Kept.refl s) (hOut := rfl) (hXbr := rfl) (hPmu := rfl) (hMoved := rfl) (hRfx := rfl)
@[simp] theorem State.mirSendAll_hce (s : State) (bs : List StreamBody) : (s.mirSendAll bs).hce = s.hce := (s.mirSendAll_kept bs).only.hce.resolve_left Bool.false_ne_true
@[simp] theorem State.mirSendAll_rfu (s : State) (bs : List StreamBody) : (s.mirSendAll bs).rfu = s.rfu := (s.mirSendAll_kept bs).only.rfu.resolve_left Bool.false_ne_true
@[simp] theorem State.mirSendAll_rge (s : State) (bs : List StreamBody) : (s.mirSendAll bs).rge = s.rge := (s.mirSendAll_kept bs).only.rge.resolve_left Bool.false_ne_true
@[simp] theorem State.mirSendAll_snt (s : State) (bs : List StreamBody) : (s.mirSendAll bs).snt = s.snt := (s.mirSendAll_kept bs).only.snt.resolve_left Bool.false_ne_true
@[simp] theorem State.mirSendAll_tk (s : State) (bs : List StreamBody) : (s.mirSendAll bs).tk = s.tk := (s.mirSendAll_kept bs).only.tk.resolve_left Bool.false_ne_true
@[simp] theorem State.mirSendAll_vsm (s : State) (bs : List StreamBody) : (s.mirSendAll bs).vsm = s.vsm := (s.mirSendAll_kept bs).only.vsm.resolve_left Bool.false_ne_true
@[simp] theorem State.mirSendAll_kvt (s : State) (bs : List StreamBody) : (s.mirSendAll bs).kvt = s.kvt := (s.mirSendAll_kept bs).only.kvt.resolve_left Bool.false_ne_true
@[simp] theorem State.mirSendAll_mbx (s : State) (bs : List StreamBody) : (s.mirSendAll bs).mbx = s.mbx := (s.mirSendAll_kept bs).only.mbx.resolve_left Bool.false_ne_true
@[simp] theorem State.mirSendAll_bay (s : State) (bs : List StreamBody) : (s.mirSendAll bs).bay = s.bay := (s.mirSendAll_kept bs).only.bay.resolve_left Bool.false_ne_true
@[simp] theorem State.mirSendAll_props (s : State) (bs : List StreamBody) : (s.mirSendAll bs).props = s.props := (s.mirSendAll_kept bs).only.props.resolve_left Bool.false_ne_true
@[simp] theorem State.mirSendAll_ppc (s : State) (bs : List StreamBody) : (s.mirSendAll bs).ppc = s.ppc := (s.mirSendAll_kept bs).only.ppc.resolve_left Bool.false_ne_true
@[simp] theorem State.mirSendAll_sep (s : State) (bs : List StreamBody) : (s.mirSendAll bs).sep = s.sep := (s.mirSendAll_kept bs).only.sep.resolve_left Bool.false_ne_true
@[simp] theorem State.mirSendAll_pwr (s : State) (bs : List StreamBody) : (s.mirSendAll bs).pwr = s.pwr := (s.mirSendAll_kept bs).only.pwr.resolve_left Bool.false_ne_true
@[simp] theorem State.mirSendAll_lcu (s : State) (bs : List StreamBody) : (s.mirSendAll bs).lcu = s.lcu := (s.mirSendAll_kept bs).only.lcu.resolve_left Bool.false_ne_true
@[simp] theorem State.mirSendAll_tst (s : State) (bs : List StreamBody) : (s.mirSendAll bs).tst = s.tst := (s.mirSendAll_kept bs).only.tst.resolve_left Bool.false_ne_true
@[simp] theorem State.mirSendAll_mac (s : State) (bs : List StreamBody) : (s.mirSendAll bs).mac = s.mac := (s.mirSendAll_kept bs).only.mac.resolve_left Bool.false_ne_true
@[simp] theorem State.mirSendAll_now (s : State) (bs : List StreamBody) : (s.mirSendAll bs).now = s.now := (s.mirSendAll_kept bs).same.now
@[simp] theorem State.mirSendAll_part (s : State) (bs : List StreamBody) : (s.mirSendAll bs).part = s.part := (s.mirSendAll_kept bs).same.part
@[simp] theorem State.mirSendAll_slot (s : State) (bs : List StreamBody) : (s.mirSendAll bs).slot = s.slot := (s.mirSendAll_kept bs).same.slot
@[simp] theorem State.mirSendAll_uid (s : State) (bs : List StreamBody) : (s.mirSendAll bs).uid = s.uid := (s.mirSendAll_kept bs).same.uid
@[simp] theorem State.mirSendAll_pending (s : State) (bs : List StreamBody) : (s.mirSendAll bs).pending = s.pending := (s.mirSendAll_kept bs).pending
@[simp] theorem State.mirSendAll_freeCtr (s : State) (bs : List StreamBody) : (s.mirSendAll bs).freeCtr = s.freeCtr := (s.mirSendAll_kept bs).only.free.resolve_left Bool.false_ne_true

theorem State.mirSend2_kept (s : State) (b : StreamBody) : Kept { out := true, xbr := true, rfx := true } s (s.mirSend2 b) :=
  Kept.mirSend2 _ (Kept.refl s) (hOut := rfl) (hXbr := rfl) (hRfx := rfl)
@[simp] theorem State.mirSend2_hce (s : State) (b : StreamBody) : (s.mirSend2 b).hce = s.hce := (s.mirSend2_kept b).only.hce.resolve_left Bool.false_ne_true
@[simp] theorem State.mirSend2_rfu (s : State) (b : StreamBody) : (s.mirSend2 b).rfu = s.rfu := (s.mirSend2_kept b).only.rfu.resolve_left Bool.false_ne_true
@[simp] theorem State.mirSend2_rge (s : State) (b : StreamBody) : (s.mirSend2 b).rge = s.rge := (s.mirSend2_kept b).only.rge.resolve_left Bool.false_ne_true
@[simp] theorem State.mirSend2_snt (s : State) (b : StreamBody) : (s.mirSend2 b).snt = s.snt := (s.mirSend2_kept b).only.snt.resolve_left Bool.false_ne_true
@[simp] theorem State.mirSend2_tk (s : State) (b : StreamBody) : (s.mirSend2 b).tk = s.tk := (s.mirSend2_kept b).only.tk.resolve_left Bool.false_ne_true
@[simp] theorem State.mirSend2_vsm (s : State) (b : StreamBody) : (s.mirSend2 b).vsm = s.vsm := (s.mirSend2_kept b).only.vsm.resolve_left Bool.false_ne_true
@[simp] theorem State.mirSend2_kvt (s : State) (b : StreamBody) : (s.mirSend2 b).kvt = s.kvt := (s.mirSend2_kept b).only.kvt.resolve_left Bool.false_ne_true
@[simp] theorem State.mirSend2_mbx (s : State) (b : StreamBody) : (s.mirSend2 b).mbx = s.mbx := (s.mirSend2_kept b).only.mbx.resolve_left Bool.false_ne_true
@[simp] theorem State.mirSend2_bay (s : State) (b : StreamBody) : (s.mirSend2 b).bay = s.bay := (s.mirSend2_kept b).only.bay.resolve_left Bool.false_ne_true
@[simp] theorem State.mirSend2_props (s : State) (b : StreamBody) : (s.mirSend2 b).props = s.props := (s.mirSend2_kept b).only.props.resolve_left Bool.false_ne_true
@[simp] theorem State.mirSend2_ppc (s : State) (b : StreamBody) : (s.mirSend2 b).ppc = s.ppc := (s.mirSend2_kept b).only.ppc.resolve_left Bool.false_ne_true
@[simp] theorem State.mirSend2_sep (s : State) (b : StreamBody) : (s.mirSend2 b).sep = s.sep := (s.mirSend2_kept b).only.sep.resolve_left Bool.false_ne_true
@[simp] theorem State.mirSend2_pwr (s : State) (b : StreamBody) : (s.mirSend2 b).pwr = s.pwr := (s.mirSend2_kept b).only.pwr.resolve_left Bool.false_ne_true
@[simp] theorem State.mirSend2_lcu (s : State) (b : StreamBody) : (s.mirSend2 b).lcu = s.lcu := (s.mirSend2_kept b).only.lcu.resolve_left Bool.false_ne_true
@[simp] theorem State.mirSend2_pmu (s : State) (b : StreamBody) : (s.mirSend2 b).pmu = s.pmu := (s.mirSend2_kept b).only.pmu.resolve_left Bool.false_ne_true
@[simp] theorem State.mirSend2_tst (s : State) (b : StreamBody) : (s.mirSend2 b).tst = s.tst := (s.mirSend2_kept b).only.tst.resolve_left Bool.false_ne_true
@[simp] theorem State.mirSend2_mac (s : State) (b : StreamBody) : (s.mirSend2 b).mac = s.mac := (s.mirSend2_kept b).only.mac.resolve_left Bool.false_ne_true
@[simp] theorem State.mirSend2_now (s : State) (b : StreamBody) : (s.mirSend2 b).now = s.now := (s.mirSend2_kept b).same.now
@[simp] theorem State.mirSend2_part (s : State) (b : StreamBody) : (s.mirSend2 b).part = s.part := (s.mirSend2_kept b).same.part
@[simp] theorem State.mirSend2_slot (s : State) (b : StreamBody) : (s.mirSend2 b).slot = s.slot := (s.mirSend2_kept b).same.slot
@[simp] theorem State.mirSend2_uid (s : State) (b : StreamBody) : (s.mirSend2 b).uid = s.uid := (s.mirSend2_kept b).same.uid
@[simp] theorem State.mirSend2_pending (s : State) (b : StreamBody) : (s.mirSend2 b).pending = s.pending := (s.mirSend2_kept b).pending
@[simp] theorem State.mirSend2_freeCtr (s : State) (b : StreamBody) : (s.mirSend2 b).freeCtr = s.freeCtr := (s.mirSend2_kept b).only.free.resolve_left Bool.false_ne_true
@[simp] theorem State.mirSend2_reg (s : State) (b : StreamBody) (k : Nat) : (s.mirSend2 b).reg k = s.reg k := ((s.mirSend2_kept b).only.regs).resolve_left Bool.false_ne_true k (fun h => absurd h Bool.false_ne_true)

theorem State.sendLine_kept (s : State) (area : Nat) (index : Nat) (line : List Byte) : Kept { out := true, xbr := true, pmu := true, moved := true, rfx := true } s (s.sendLine area index line) :=
  Kept.sendLine _ _ _ (Kept.refl s) (hOut := rfl) (hXbr := rfl) (hPmu := rfl) (hMoved := rfl) (hRfx := rfl)
@[simp] theorem State.sendLine_hce (s : State) (area : Nat) (index : Nat) (line : List Byte) : (s.sendLine area index line).hce = s.hce := (s.sendLine_kept area index line).only.hce.resolve_left Bool.false_ne_true
@[simp] theorem State.sendLine_rfu (s : State) (area : Nat) (index : Nat) (line : List Byte) : (s.sendLine area index line).rfu = s.rfu := (s.sendLine_kept area index line).only.rfu.resolve_left Bool.false_ne_true
@[simp] theorem State.sendLine_rge (s : State) (area : Nat) (index : Nat) (line : List Byte) : (s.sendLine area index line).rge = s.rge := (s.sendLine_kept area index line).only.rge.resolve_left Bool.false_ne_true
@[simp] theorem State.sendLine_snt (s : State) (area : Nat) (index : Nat) (line : List Byte) : (s.sendLine area index line).snt = s.snt := (s.sendLine_kept area index line).only.snt.resolve_left Bool.false_ne_true
@[simp] theorem State.sendLine_tk (s : State) (area : Nat) (index : Nat) (line : List Byte) : (s.sendLine area index line).tk = s.tk := (s.sendLine_kept area index line).only.tk.resolve_left Bool.false_ne_true
@[simp] theorem State.sendLine_vsm (s : State) (area : Nat) (index : Nat) (line : List Byte) : (s.sendLine area index line).vsm = s.vsm := (s.sendLine_kept area index line).only.vsm.resolve_left Bool.false_ne_true
@[simp] theorem State.sendLine_kvt (s : State) (area : Nat) (index : Nat) (line : List Byte) : (s.sendLine area index line).kvt = s.kvt := (s.sendLine_kept area index line).only.kvt.resolve_left Bool.false_ne_true
@[simp] theorem State.sendLine_mbx (s : State) (area : Nat) (index : Nat) (line : List Byte) : (s.sendLine area index line).mbx = s.mbx := (s.sendLine_kept area index line).only.mbx.resolve_left Bool.false_ne_true
@[simp] theorem State.sendLine_bay (s : State) (area : Nat) (index : Nat) (line : List Byte) : (s.sendLine area index line).bay = s.bay := (s.sendLine_kept area index line).only.bay.resolve_left Bool.false_ne_true
@[simp] theorem State.sendLine_props (s : State) (area : Nat) (index : Nat) (line : List Byte) : (s.sendLine area index line).props = s.props := (s.sendLine_kept area index line).only.props.resolve_left Bool.false_ne_true
@[simp] theorem State.sendLine_ppc (s : State) (area : Nat) (index : Nat) (line : List Byte) : (s.sendLine area index line).ppc = s.ppc := (s.sendLine_kept area index line).only.ppc.resolve_left Bool.false_ne_true
@[simp] theorem State.sendLine_sep (s : State) (area : Nat) (index : Nat) (line : List Byte) : (s.sendLine area index line).sep = s.sep := (s.sendLine_kept area index line).only.sep.resolve_left Bool.false_ne_true
@[simp] theorem State.sendLine_pwr (s : State) (area : Nat) (index : Nat) (line : List Byte) : (s.sendLine area index line).pwr = s.pwr := (s.sendLine_kept area index line).only.pwr.resolve_left Bool.false_ne_true
@[simp] theorem State.sendLine_lcu (s : State) (area : Nat) (index : Nat) (line : List Byte) : (s.sendLine area index line).lcu = s.lcu := (s.sendLine_kept area index line).only.lcu.resolve_left Bool.false_ne_true
@[simp] theorem State.sendLine_tst (s : State) (area : Nat) (index : Nat) (line : List Byte) : (s.sendLine area index line).tst = s.tst := (s.sendLine_kept area index line).only.tst.resolve_left Bool.false_ne_true
@[simp] theorem State.sendLine_mac (s : State) (area : Nat) (index : Nat) (line : List Byte) : (s.sendLine area index line).mac = s.mac := (s.sendLine_kept area index line).only.mac.resolve_left Bool.false_ne_true
@[simp] theorem State.sendLine_now (s : State) (area : Nat) (index : Nat) (line : List Byte) : (s.sendLine area index line).now = s.now := (s.sendLine_kept area index line).same.now
@[simp] theorem State.sendLine_part (s : State) (area : Nat) (index : Nat) (line : List Byte) : (s.sendLine area index line).part = s.part := (s.sendLine_kept area index line).same.part
@[simp] theorem State.sendLine_slot (s : State) (area : Nat) (index : Nat) (line : List Byte) : (s.sendLine area index line).slot = s.slot := (s.sendLine_kept area index line).same.slot
@[simp] theorem State.sendLine_uid (s : State) (area : Nat) (index : Nat) (line : List Byte) : (s.sendLine area index line).uid = s.uid := (s.sendLine_kept area index line).same.uid
@[simp] theorem State.sendLine_pending (s : State) (area : Nat) (index : Nat) (line : List Byte) : (s.sendLine area index line).pending = s.pending := (s.sendLine_kept area index line).pending
@[simp] theorem State.sendLine_freeCtr (s : State) (area : Nat) (index : Nat) (line : List Byte) : (s.sendLine area index line).freeCtr = s.freeCtr := (s.sendLine_kept area index line).only.free.resolve_left Bool.false_ne_true

theorem State.relti_kept (s : State) (port : Nat) (typ : Nat) (dst : Nat) (payload : List Byte) : Kept { out := true, xbr := true } s (s.relti port typ dst payload) :=
  Kept.relti _ _ _ _ (Kept.refl s) (hOut := rfl) (hXbr := rfl)
@[simp] theorem State.relti_hce (s : State) (port : Nat) (typ : Nat) (dst : Nat) (payload : List Byte) : (s.relti port typ dst payload).hce = s.hce := (s.relti_kept port typ dst payload).only.hce.resolve_left Bool.false_ne_true
@[simp] theorem State.relti_rfu (s : State) (port : Nat) (typ : Nat) (dst : Nat) (payload : List Byte) : (s.relti port typ dst payload).rfu = s.rfu := (s.relti_kept port typ dst payload).only.rfu.resolve_left Bool.false_ne_true
@[simp] theorem State.relti_rge (s : State) (port : Nat) (typ : Nat) (dst : Nat) (payload : List Byte) : (s.relti port typ dst payload).rge = s.rge := (s.relti_kept port typ dst payload).only.rge.resolve_left Bool.false_ne_true
@[simp] theorem State.relti_snt (s : State) (port : Nat) (typ : Nat) (dst : Nat) (payload : List Byte) : (s.relti port typ dst payload).snt = s.snt := (s.relti_kept port typ dst payload).only.snt.resolve_left Bool.false_ne_true
@[simp] theorem State.relti_rfx (s : State) (port : Nat) (typ : Nat) (dst : Nat) (payload : List Byte) : (s.relti port typ dst payload).rfx = s.rfx := (s.relti_kept port typ dst payload).only.rfx.resolve_left Bool.false_ne_true
@[simp] theorem State.relti_tk (s : State) (port : Nat) (typ : Nat) (dst : Nat) (payload : List Byte) : (s.relti port typ dst payload).tk = s.tk := (s.relti_kept port typ dst payload).only.tk.resolve_left Bool.false_ne_true
@[simp] theorem State.relti_vsm (s : State) (port : Nat) (typ : Nat) (dst : Nat) (payload : List Byte) : (s.relti port typ dst payload).vsm = s.vsm := (s.relti_kept port typ dst payload).only.vsm.resolve_left Bool.false_ne_true
@[simp] theorem State.relti_kvt (s : State) (port : Nat) (typ : Nat) (dst : Nat) (payload : List Byte) : (s.relti port typ dst payload).kvt = s.kvt := (s.relti_kept port typ dst payload).only.kvt.resolve_left Bool.false_ne_true
@[simp] theorem State.relti_mbx (s : State) (port : Nat) (typ : Nat) (dst : Nat) (payload : List Byte) : (s.relti port typ dst payload).mbx = s.mbx := (s.relti_kept port typ dst payload).only.mbx.resolve_left Bool.false_ne_true
@[simp] theorem State.relti_bay (s : State) (port : Nat) (typ : Nat) (dst : Nat) (payload : List Byte) : (s.relti port typ dst payload).bay = s.bay := (s.relti_kept port typ dst payload).only.bay.resolve_left Bool.false_ne_true
@[simp] theorem State.relti_props (s : State) (port : Nat) (typ : Nat) (dst : Nat) (payload : List Byte) : (s.relti port typ dst payload).props = s.props := (s.relti_kept port typ dst payload).only.props.resolve_left Bool.false_ne_true
@[simp] theorem State.relti_ppc (s : State) (port : Nat) (typ : Nat) (dst : Nat) (payload : List Byte) : (s.relti port typ dst payload).ppc = s.ppc := (s.relti_kept port typ dst payload).only.ppc.resolve_left Bool.false_ne_true
@[simp] theorem State.relti_sep (s : State) (port : Nat) (typ : Nat) (dst : Nat) (payload : List Byte) : (s.relti port typ dst payload).sep = s.sep := (s.relti_kept port typ dst payload).only.sep.resolve_left Bool.false_ne_true
@[simp] theorem State.relti_pwr (s : State) (port : Nat) (typ : Nat) (dst : Nat) (payload : List Byte) : (s.relti port typ dst payload).pwr = s.pwr := (s.relti_kept port typ dst payload).only.pwr.resolve_left Bool.false_ne_true
@[simp] theorem State.relti_lcu (s : State) (port : Nat) (typ : Nat) (dst : Nat) (payload : List Byte) : (s.relti port typ dst payload).lcu = s.lcu := (s.relti_kept port typ dst payload).only.lcu.resolve_left Bool.false_ne_true
@[simp] theorem State.relti_pmu (s : State) (port : Nat) (typ : Nat) (dst : Nat) (payload : List Byte) : (s.relti port typ dst payload).pmu = s.pmu := (s.relti_kept port typ dst payload).only.pmu.resolve_left Bool.false_ne_true
@[simp] theorem State.relti_tst (s : State) (port : Nat) (typ : Nat) (dst : Nat) (payload : List Byte) : (s.relti port typ dst payload).tst = s.tst := (s.relti_kept port typ dst payload).only.tst.resolve_left Bool.false_ne_true
@[simp] theorem State.relti_mac (s : State) (port : Nat) (typ : Nat) (dst : Nat) (payload : List Byte) : (s.relti port typ dst payload).mac = s.mac := (s.relti_kept port typ dst payload).only.mac.resolve_left Bool.false_ne_true
@[simp] theorem State.relti_now (s : State) (port : Nat) (typ : Nat) (dst : Nat) (payload : List Byte) : (s.relti port typ dst payload).now = s.now := (s.relti_kept port typ dst payload).same.now
@[simp] theorem State.relti_part (s : State) (port : Nat) (typ : Nat) (dst : Nat) (payload : List Byte) : (s.relti port typ dst payload).part = s.part := (s.relti_kept port typ dst payload).same.part
@[simp] theorem State.relti_slot (s : State) (port : Nat) (typ : Nat) (dst : Nat) (payload : List Byte) : (s.relti port typ dst payload).slot = s.slot := (s.relti_kept port typ dst payload).same.slot
@[simp] theorem State.relti_uid (s : State) (port : Nat) (typ : Nat) (dst : Nat) (payload : List Byte) : (s.relti port typ dst payload).uid = s.uid := (s.relti_kept port typ dst payload).same.uid
@[simp] theorem State.relti_pending (s : State) (port : Nat) (typ : Nat) (dst : Nat) (payload : List Byte) : (s.relti port typ dst payload).pending = s.pending := (s.relti_kept port typ dst payload).pending
@[simp] theorem State.relti_freeCtr (s : State) (port : Nat) (typ : Nat) (dst : Nat) (payload : List Byte) : (s.relti port typ dst payload).freeCtr = s.freeCtr := (s.relti_kept port typ dst payload).only.free.resolve_left Bool.false_ne_true
@[simp] theorem State.relti_reg (s : State) (port : Nat) (typ : Nat) (dst : Nat) (payload : List Byte) (k : Nat) : (s.relti port typ dst payload).reg k = s.reg k := ((s.relti_kept port typ dst payload).only.regs).resolve_left Bool.false_ne_true k (fun h => absurd h Bool.false_ne_true)

theorem State.toPeer_kept (s : State) (typ : Nat) (payload : List Byte) : Kept { out := true, xbr := true } s (s.toPeer typ payload) :=
  Kept.toPeer _ _ (Kept.refl s) (hOut := rfl) (hXbr := rfl)
@[simp] theorem State.toPeer_hce (s : State) (typ : Nat) (payload : List Byte) : (s.toPeer typ payload).hce = s.hce := (s.toPeer_kept typ payload).only.hce.resolve_left Bool.false_ne_true
@[simp] theorem State.toPeer_rfu (s : State) (typ : Nat) (payload : List Byte) : (s.toPeer typ payload).rfu = s.rfu := (s.toPeer_kept typ payload).only.rfu.resolve_left Bool.false_ne_true
@[simp] theorem State.toPeer_rge (s : State) (typ : Nat) (payload : List Byte) : (s.toPeer typ payload).rge = s.rge := (s.toPeer_kept typ payload).only.rge.resolve_left Bool.false_ne_true
@[simp] theorem State.toPeer_snt (s : State) (typ : Nat) (payload : List Byte) : (s.toPeer typ payload).snt = s.snt := (s.toPeer_kept typ payload).only.snt.resolve_left Bool.false_ne_true
@[simp] theorem State.toPeer_rfx (s : State) (typ : Nat) (payload : List Byte) : (s.toPeer typ payload).rfx = s.rfx := (s.toPeer_kept typ payload).only.rfx.resolve_left Bool.false_ne_true
@[simp] theorem State.toPeer_tk (s : State) (typ : Nat) (payload : List Byte) : (s.toPeer typ payload).tk = s.tk := (s.toPeer_kept typ payload).only.tk.resolve_left Bool.false_ne_true
@[simp] theorem State.toPeer_vsm (s : State) (typ : Nat) (payload : List Byte) : (s.toPeer typ payload).vsm = s.vsm := (s.toPeer_kept typ payload).only.vsm.resolve_left Bool.false_ne_true
@[simp] theorem State.toPeer_kvt (s : State) (typ : Nat) (payload : List Byte) : (s.toPeer typ payload).kvt = s.kvt := (s.toPeer_kept typ payload).only.kvt.resolve_left Bool.false_ne_true
@[simp] theorem State.toPeer_mbx (s : State) (typ : Nat) (payload : List Byte) : (s.toPeer typ payload).mbx = s.mbx := (s.toPeer_kept typ payload).only.mbx.resolve_left Bool.false_ne_true
@[simp] theorem State.toPeer_bay (s : State) (typ : Nat) (payload : List Byte) : (s.toPeer typ payload).bay = s.bay := (s.toPeer_kept typ payload).only.bay.resolve_left Bool.false_ne_true
@[simp] theorem State.toPeer_props (s : State) (typ : Nat) (payload : List Byte) : (s.toPeer typ payload).props = s.props := (s.toPeer_kept typ payload).only.props.resolve_left Bool.false_ne_true
@[simp] theorem State.toPeer_ppc (s : State) (typ : Nat) (payload : List Byte) : (s.toPeer typ payload).ppc = s.ppc := (s.toPeer_kept typ payload).only.ppc.resolve_left Bool.false_ne_true
@[simp] theorem State.toPeer_sep (s : State) (typ : Nat) (payload : List Byte) : (s.toPeer typ payload).sep = s.sep := (s.toPeer_kept typ payload).only.sep.resolve_left Bool.false_ne_true
@[simp] theorem State.toPeer_pwr (s : State) (typ : Nat) (payload : List Byte) : (s.toPeer typ payload).pwr = s.pwr := (s.toPeer_kept typ payload).only.pwr.resolve_left Bool.false_ne_true
@[simp] theorem State.toPeer_lcu (s : State) (typ : Nat) (payload : List Byte) : (s.toPeer typ payload).lcu = s.lcu := (s.toPeer_kept typ payload).only.lcu.resolve_left Bool.false_ne_true
@[simp] theorem State.toPeer_pmu (s : State) (typ : Nat) (payload : List Byte) : (s.toPeer typ payload).pmu = s.pmu := (s.toPeer_kept typ payload).only.pmu.resolve_left Bool.false_ne_true
@[simp] theorem State.toPeer_tst (s : State) (typ : Nat) (payload : List Byte) : (s.toPeer typ payload).tst = s.tst := (s.toPeer_kept typ payload).only.tst.resolve_left Bool.false_ne_true
@[simp] theorem State.toPeer_mac (s : State) (typ : Nat) (payload : List Byte) : (s.toPeer typ payload).mac = s.mac := (s.toPeer_kept typ payload).only.mac.resolve_left Bool.false_ne_true
@[simp] theorem State.toPeer_now (s : State) (typ : Nat) (payload : List Byte) : (s.toPeer typ payload).now = s.now := (s.toPeer_kept typ payload).same.now
@[simp] theorem State.toPeer_part (s : State) (typ : Nat) (payload : List Byte) : (s.toPeer typ payload).part = s.part := (s.toPeer_kept typ payload).same.part
@[simp] theorem State.toPeer_slot (s : State) (typ : Nat) (payload : List Byte) : (s.toPeer typ payload).slot = s.slot := (s.toPeer_kept typ payload).same.slot
@[simp] theorem State.toPeer_uid (s : State) (typ : Nat) (payload : List Byte) : (s.toPeer typ payload).uid = s.uid := (s.toPeer_kept typ payload).same.uid
@[simp] theorem State.toPeer_pending (s : State) (typ : Nat) (payload : List Byte) : (s.toPeer typ payload).pending = s.pending := (s.toPeer_kept typ payload).pending
@[simp] theorem State.toPeer_freeCtr (s : State) (typ : Nat) (payload : List Byte) : (s.toPeer typ payload).freeCtr = s.freeCtr := (s.toPeer_kept typ payload).only.free.resolve_left Bool.false_ne_true
@[simp] theorem State.toPeer_reg (s : State) (typ : Nat) (payload : List Byte) (k : Nat) : (s.toPeer typ payload).reg k = s.reg k := ((s.toPeer_kept typ payload).only.regs).resolve_left Bool.false_ne_true k (fun h => absurd h Bool.false_ne_true)

theorem State.sendRec_kept (s : State) (r : TagRec) (k : CmdKind) (cqe : Option CplStatus) : Kept { out := true, xbr := true, pmu := true, moved := true, rfx := true } s (s.sendRec r k cqe) :=
  Kept.sendRec _ _ _ (Kept.refl s) (hOut := rfl) (hXbr := rfl) (hPmu := rfl) (hMoved := rfl) (hRfx := rfl)
@[simp] theorem State.sendRec_hce (s : State) (r : TagRec) (k : CmdKind) (cqe : Option CplStatus) : (s.sendRec r k cqe).hce = s.hce := (s.sendRec_kept r k cqe).only.hce.resolve_left Bool.false_ne_true
@[simp] theorem State.sendRec_rfu (s : State) (r : TagRec) (k : CmdKind) (cqe : Option CplStatus) : (s.sendRec r k cqe).rfu = s.rfu := (s.sendRec_kept r k cqe).only.rfu.resolve_left Bool.false_ne_true
@[simp] theorem State.sendRec_rge (s : State) (r : TagRec) (k : CmdKind) (cqe : Option CplStatus) : (s.sendRec r k cqe).rge = s.rge := (s.sendRec_kept r k cqe).only.rge.resolve_left Bool.false_ne_true
@[simp] theorem State.sendRec_snt (s : State) (r : TagRec) (k : CmdKind) (cqe : Option CplStatus) : (s.sendRec r k cqe).snt = s.snt := (s.sendRec_kept r k cqe).only.snt.resolve_left Bool.false_ne_true
@[simp] theorem State.sendRec_tk (s : State) (r : TagRec) (k : CmdKind) (cqe : Option CplStatus) : (s.sendRec r k cqe).tk = s.tk := (s.sendRec_kept r k cqe).only.tk.resolve_left Bool.false_ne_true
@[simp] theorem State.sendRec_vsm (s : State) (r : TagRec) (k : CmdKind) (cqe : Option CplStatus) : (s.sendRec r k cqe).vsm = s.vsm := (s.sendRec_kept r k cqe).only.vsm.resolve_left Bool.false_ne_true
@[simp] theorem State.sendRec_kvt (s : State) (r : TagRec) (k : CmdKind) (cqe : Option CplStatus) : (s.sendRec r k cqe).kvt = s.kvt := (s.sendRec_kept r k cqe).only.kvt.resolve_left Bool.false_ne_true
@[simp] theorem State.sendRec_mbx (s : State) (r : TagRec) (k : CmdKind) (cqe : Option CplStatus) : (s.sendRec r k cqe).mbx = s.mbx := (s.sendRec_kept r k cqe).only.mbx.resolve_left Bool.false_ne_true
@[simp] theorem State.sendRec_bay (s : State) (r : TagRec) (k : CmdKind) (cqe : Option CplStatus) : (s.sendRec r k cqe).bay = s.bay := (s.sendRec_kept r k cqe).only.bay.resolve_left Bool.false_ne_true
@[simp] theorem State.sendRec_props (s : State) (r : TagRec) (k : CmdKind) (cqe : Option CplStatus) : (s.sendRec r k cqe).props = s.props := (s.sendRec_kept r k cqe).only.props.resolve_left Bool.false_ne_true
@[simp] theorem State.sendRec_ppc (s : State) (r : TagRec) (k : CmdKind) (cqe : Option CplStatus) : (s.sendRec r k cqe).ppc = s.ppc := (s.sendRec_kept r k cqe).only.ppc.resolve_left Bool.false_ne_true
@[simp] theorem State.sendRec_sep (s : State) (r : TagRec) (k : CmdKind) (cqe : Option CplStatus) : (s.sendRec r k cqe).sep = s.sep := (s.sendRec_kept r k cqe).only.sep.resolve_left Bool.false_ne_true
@[simp] theorem State.sendRec_pwr (s : State) (r : TagRec) (k : CmdKind) (cqe : Option CplStatus) : (s.sendRec r k cqe).pwr = s.pwr := (s.sendRec_kept r k cqe).only.pwr.resolve_left Bool.false_ne_true
@[simp] theorem State.sendRec_lcu (s : State) (r : TagRec) (k : CmdKind) (cqe : Option CplStatus) : (s.sendRec r k cqe).lcu = s.lcu := (s.sendRec_kept r k cqe).only.lcu.resolve_left Bool.false_ne_true
@[simp] theorem State.sendRec_tst (s : State) (r : TagRec) (k : CmdKind) (cqe : Option CplStatus) : (s.sendRec r k cqe).tst = s.tst := (s.sendRec_kept r k cqe).only.tst.resolve_left Bool.false_ne_true
@[simp] theorem State.sendRec_mac (s : State) (r : TagRec) (k : CmdKind) (cqe : Option CplStatus) : (s.sendRec r k cqe).mac = s.mac := (s.sendRec_kept r k cqe).only.mac.resolve_left Bool.false_ne_true
@[simp] theorem State.sendRec_now (s : State) (r : TagRec) (k : CmdKind) (cqe : Option CplStatus) : (s.sendRec r k cqe).now = s.now := (s.sendRec_kept r k cqe).same.now
@[simp] theorem State.sendRec_part (s : State) (r : TagRec) (k : CmdKind) (cqe : Option CplStatus) : (s.sendRec r k cqe).part = s.part := (s.sendRec_kept r k cqe).same.part
@[simp] theorem State.sendRec_slot (s : State) (r : TagRec) (k : CmdKind) (cqe : Option CplStatus) : (s.sendRec r k cqe).slot = s.slot := (s.sendRec_kept r k cqe).same.slot
@[simp] theorem State.sendRec_uid (s : State) (r : TagRec) (k : CmdKind) (cqe : Option CplStatus) : (s.sendRec r k cqe).uid = s.uid := (s.sendRec_kept r k cqe).same.uid
@[simp] theorem State.sendRec_pending (s : State) (r : TagRec) (k : CmdKind) (cqe : Option CplStatus) : (s.sendRec r k cqe).pending = s.pending := (s.sendRec_kept r k cqe).pending
@[simp] theorem State.sendRec_freeCtr (s : State) (r : TagRec) (k : CmdKind) (cqe : Option CplStatus) : (s.sendRec r k cqe).freeCtr = s.freeCtr := (s.sendRec_kept r k cqe).only.free.resolve_left Bool.false_ne_true

theorem State.logError_kept (s : State) (c : Nat) (q : Nat) (cid : Nat) (st : CplStatus) (lba : Nat) : Kept { hce := true } s (s.logError c q cid st lba) :=
  Kept.logError _ _ _ _ _ (Kept.refl s) (hHce := rfl)
@[simp] theorem State.logError_rfu (s : State) (c : Nat) (q : Nat) (cid : Nat) (st : CplStatus) (lba : Nat) : (s.logError c q cid st lba).rfu = s.rfu := (s.logError_kept c q cid st lba).only.rfu.resolve_left Bool.false_ne_true
@[simp] theorem State.logError_rge (s : State) (c : Nat) (q : Nat) (cid : Nat) (st : CplStatus) (lba : Nat) : (s.logError c q cid st lba).rge = s.rge := (s.logError_kept c q cid st lba).only.rge.resolve_left Bool.false_ne_true
@[simp] theorem State.logError_snt (s : State) (c : Nat) (q : Nat) (cid : Nat) (st : CplStatus) (lba : Nat) : (s.logError c q cid st lba).snt = s.snt := (s.logError_kept c q cid st lba).only.snt.resolve_left Bool.false_ne_true
@[simp] theorem State.logError_rfx (s : State) (c : Nat) (q : Nat) (cid : Nat) (st : CplStatus) (lba : Nat) : (s.logError c q cid st lba).rfx = s.rfx := (s.logError_kept c q cid st lba).only.rfx.resolve_left Bool.false_ne_true
@[simp] theorem State.logError_tk (s : State) (c : Nat) (q : Nat) (cid : Nat) (st : CplStatus) (lba : Nat) : (s.logError c q cid st lba).tk = s.tk := (s.logError_kept c q cid st lba).only.tk.resolve_left Bool.false_ne_true
@[simp] theorem State.logError_vsm (s : State) (c : Nat) (q : Nat) (cid : Nat) (st : CplStatus) (lba : Nat) : (s.logError c q cid st lba).vsm = s.vsm := (s.logError_kept c q cid st lba).only.vsm.resolve_left Bool.false_ne_true
@[simp] theorem State.logError_kvt (s : State) (c : Nat) (q : Nat) (cid : Nat) (st : CplStatus) (lba : Nat) : (s.logError c q cid st lba).kvt = s.kvt := (s.logError_kept c q cid st lba).only.kvt.resolve_left Bool.false_ne_true
@[simp] theorem State.logError_mbx (s : State) (c : Nat) (q : Nat) (cid : Nat) (st : CplStatus) (lba : Nat) : (s.logError c q cid st lba).mbx = s.mbx := (s.logError_kept c q cid st lba).only.mbx.resolve_left Bool.false_ne_true
@[simp] theorem State.logError_bay (s : State) (c : Nat) (q : Nat) (cid : Nat) (st : CplStatus) (lba : Nat) : (s.logError c q cid st lba).bay = s.bay := (s.logError_kept c q cid st lba).only.bay.resolve_left Bool.false_ne_true
@[simp] theorem State.logError_props (s : State) (c : Nat) (q : Nat) (cid : Nat) (st : CplStatus) (lba : Nat) : (s.logError c q cid st lba).props = s.props := (s.logError_kept c q cid st lba).only.props.resolve_left Bool.false_ne_true
@[simp] theorem State.logError_ppc (s : State) (c : Nat) (q : Nat) (cid : Nat) (st : CplStatus) (lba : Nat) : (s.logError c q cid st lba).ppc = s.ppc := (s.logError_kept c q cid st lba).only.ppc.resolve_left Bool.false_ne_true
@[simp] theorem State.logError_xbr (s : State) (c : Nat) (q : Nat) (cid : Nat) (st : CplStatus) (lba : Nat) : (s.logError c q cid st lba).xbr = s.xbr := (s.logError_kept c q cid st lba).only.xbr.resolve_left Bool.false_ne_true
@[simp] theorem State.logError_sep (s : State) (c : Nat) (q : Nat) (cid : Nat) (st : CplStatus) (lba : Nat) : (s.logError c q cid st lba).sep = s.sep := (s.logError_kept c q cid st lba).only.sep.resolve_left Bool.false_ne_true
@[simp] theorem State.logError_pwr (s : State) (c : Nat) (q : Nat) (cid : Nat) (st : CplStatus) (lba : Nat) : (s.logError c q cid st lba).pwr = s.pwr := (s.logError_kept c q cid st lba).only.pwr.resolve_left Bool.false_ne_true
@[simp] theorem State.logError_lcu (s : State) (c : Nat) (q : Nat) (cid : Nat) (st : CplStatus) (lba : Nat) : (s.logError c q cid st lba).lcu = s.lcu := (s.logError_kept c q cid st lba).only.lcu.resolve_left Bool.false_ne_true
@[simp] theorem State.logError_pmu (s : State) (c : Nat) (q : Nat) (cid : Nat) (st : CplStatus) (lba : Nat) : (s.logError c q cid st lba).pmu = s.pmu := (s.logError_kept c q cid st lba).only.pmu.resolve_left Bool.false_ne_true
@[simp] theorem State.logError_tst (s : State) (c : Nat) (q : Nat) (cid : Nat) (st : CplStatus) (lba : Nat) : (s.logError c q cid st lba).tst = s.tst := (s.logError_kept c q cid st lba).only.tst.resolve_left Bool.false_ne_true
@[simp] theorem State.logError_mac (s : State) (c : Nat) (q : Nat) (cid : Nat) (st : CplStatus) (lba : Nat) : (s.logError c q cid st lba).mac = s.mac := (s.logError_kept c q cid st lba).only.mac.resolve_left Bool.false_ne_true
@[simp] theorem State.logError_now (s : State) (c : Nat) (q : Nat) (cid : Nat) (st : CplStatus) (lba : Nat) : (s.logError c q cid st lba).now = s.now := (s.logError_kept c q cid st lba).same.now
@[simp] theorem State.logError_part (s : State) (c : Nat) (q : Nat) (cid : Nat) (st : CplStatus) (lba : Nat) : (s.logError c q cid st lba).part = s.part := (s.logError_kept c q cid st lba).same.part
@[simp] theorem State.logError_slot (s : State) (c : Nat) (q : Nat) (cid : Nat) (st : CplStatus) (lba : Nat) : (s.logError c q cid st lba).slot = s.slot := (s.logError_kept c q cid st lba).same.slot
@[simp] theorem State.logError_uid (s : State) (c : Nat) (q : Nat) (cid : Nat) (st : CplStatus) (lba : Nat) : (s.logError c q cid st lba).uid = s.uid := (s.logError_kept c q cid st lba).same.uid
@[simp] theorem State.logError_pending (s : State) (c : Nat) (q : Nat) (cid : Nat) (st : CplStatus) (lba : Nat) : (s.logError c q cid st lba).pending = s.pending := (s.logError_kept c q cid st lba).pending
@[simp] theorem State.logError_out (s : State) (c : Nat) (q : Nat) (cid : Nat) (st : CplStatus) (lba : Nat) : (s.logError c q cid st lba).out = s.out := (s.logError_kept c q cid st lba).only.out.resolve_left Bool.false_ne_true
@[simp] theorem State.logError_freeCtr (s : State) (c : Nat) (q : Nat) (cid : Nat) (st : CplStatus) (lba : Nat) : (s.logError c q cid st lba).freeCtr = s.freeCtr := (s.logError_kept c q cid st lba).only.free.resolve_left Bool.false_ne_true
@[simp] theorem State.logError_reg (s : State) (c : Nat) (q : Nat) (cid : Nat) (st : CplStatus) (lba : Nat) (k : Nat) : (s.logError c q cid st lba).reg k = s.reg k := ((s.logError_kept c q cid st lba).only.regs).resolve_left Bool.false_ne_true k (fun h => absurd h Bool.false_ne_true)

theorem State.hostFrames_kept (s : State) (id : Nat) (inp : Nat) (n : Nat) (tag : Option Nat) : Kept { xbr := true } s (s.hostFrames id inp n tag) :=
  Kept.hostFrames _ _ _ _ (Kept.refl s) (hXbr := rfl)
@[simp] theorem State.hostFrames_hce (s : State) (id : Nat) (inp : Nat) (n : Nat) (tag : Option Nat) : (s.hostFrames id inp n tag).hce = s.hce := (s.hostFrames_kept id inp n tag).only.hce.resolve_left Bool.false_ne_true
@[simp] theorem State.hostFrames_rfu (s : State) (id : Nat) (inp : Nat) (n : Nat) (tag : Option Nat) : (s.hostFrames id inp n tag).rfu = s.rfu := (s.hostFrames_kept id inp n tag).only.rfu.resolve_left Bool.false_ne_true
@[simp] theorem State.hostFrames_rge (s : State) (id : Nat) (inp : Nat) (n : Nat) (tag : Option Nat) : (s.hostFrames id inp n tag).rge = s.rge := (s.hostFrames_kept id inp n tag).only.rge.resolve_left Bool.false_ne_true
@[simp] theorem State.hostFrames_snt (s : State) (id : Nat) (inp : Nat) (n : Nat) (tag : Option Nat) : (s.hostFrames id inp n tag).snt = s.snt := (s.hostFrames_kept id inp n tag).only.snt.resolve_left Bool.false_ne_true
@[simp] theorem State.hostFrames_rfx (s : State) (id : Nat) (inp : Nat) (n : Nat) (tag : Option Nat) : (s.hostFrames id inp n tag).rfx = s.rfx := (s.hostFrames_kept id inp n tag).only.rfx.resolve_left Bool.false_ne_true
@[simp] theorem State.hostFrames_tk (s : State) (id : Nat) (inp : Nat) (n : Nat) (tag : Option Nat) : (s.hostFrames id inp n tag).tk = s.tk := (s.hostFrames_kept id inp n tag).only.tk.resolve_left Bool.false_ne_true
@[simp] theorem State.hostFrames_vsm (s : State) (id : Nat) (inp : Nat) (n : Nat) (tag : Option Nat) : (s.hostFrames id inp n tag).vsm = s.vsm := (s.hostFrames_kept id inp n tag).only.vsm.resolve_left Bool.false_ne_true
@[simp] theorem State.hostFrames_kvt (s : State) (id : Nat) (inp : Nat) (n : Nat) (tag : Option Nat) : (s.hostFrames id inp n tag).kvt = s.kvt := (s.hostFrames_kept id inp n tag).only.kvt.resolve_left Bool.false_ne_true
@[simp] theorem State.hostFrames_mbx (s : State) (id : Nat) (inp : Nat) (n : Nat) (tag : Option Nat) : (s.hostFrames id inp n tag).mbx = s.mbx := (s.hostFrames_kept id inp n tag).only.mbx.resolve_left Bool.false_ne_true
@[simp] theorem State.hostFrames_bay (s : State) (id : Nat) (inp : Nat) (n : Nat) (tag : Option Nat) : (s.hostFrames id inp n tag).bay = s.bay := (s.hostFrames_kept id inp n tag).only.bay.resolve_left Bool.false_ne_true
@[simp] theorem State.hostFrames_props (s : State) (id : Nat) (inp : Nat) (n : Nat) (tag : Option Nat) : (s.hostFrames id inp n tag).props = s.props := (s.hostFrames_kept id inp n tag).only.props.resolve_left Bool.false_ne_true
@[simp] theorem State.hostFrames_ppc (s : State) (id : Nat) (inp : Nat) (n : Nat) (tag : Option Nat) : (s.hostFrames id inp n tag).ppc = s.ppc := (s.hostFrames_kept id inp n tag).only.ppc.resolve_left Bool.false_ne_true
@[simp] theorem State.hostFrames_sep (s : State) (id : Nat) (inp : Nat) (n : Nat) (tag : Option Nat) : (s.hostFrames id inp n tag).sep = s.sep := (s.hostFrames_kept id inp n tag).only.sep.resolve_left Bool.false_ne_true
@[simp] theorem State.hostFrames_pwr (s : State) (id : Nat) (inp : Nat) (n : Nat) (tag : Option Nat) : (s.hostFrames id inp n tag).pwr = s.pwr := (s.hostFrames_kept id inp n tag).only.pwr.resolve_left Bool.false_ne_true
@[simp] theorem State.hostFrames_lcu (s : State) (id : Nat) (inp : Nat) (n : Nat) (tag : Option Nat) : (s.hostFrames id inp n tag).lcu = s.lcu := (s.hostFrames_kept id inp n tag).only.lcu.resolve_left Bool.false_ne_true
@[simp] theorem State.hostFrames_pmu (s : State) (id : Nat) (inp : Nat) (n : Nat) (tag : Option Nat) : (s.hostFrames id inp n tag).pmu = s.pmu := (s.hostFrames_kept id inp n tag).only.pmu.resolve_left Bool.false_ne_true
@[simp] theorem State.hostFrames_tst (s : State) (id : Nat) (inp : Nat) (n : Nat) (tag : Option Nat) : (s.hostFrames id inp n tag).tst = s.tst := (s.hostFrames_kept id inp n tag).only.tst.resolve_left Bool.false_ne_true
@[simp] theorem State.hostFrames_mac (s : State) (id : Nat) (inp : Nat) (n : Nat) (tag : Option Nat) : (s.hostFrames id inp n tag).mac = s.mac := (s.hostFrames_kept id inp n tag).only.mac.resolve_left Bool.false_ne_true
@[simp] theorem State.hostFrames_now (s : State) (id : Nat) (inp : Nat) (n : Nat) (tag : Option Nat) : (s.hostFrames id inp n tag).now = s.now := (s.hostFrames_kept id inp n tag).same.now
@[simp] theorem State.hostFrames_part (s : State) (id : Nat) (inp : Nat) (n : Nat) (tag : Option Nat) : (s.hostFrames id inp n tag).part = s.part := (s.hostFrames_kept id inp n tag).same.part
@[simp] theorem State.hostFrames_slot (s : State) (id : Nat) (inp : Nat) (n : Nat) (tag : Option Nat) : (s.hostFrames id inp n tag).slot = s.slot := (s.hostFrames_kept id inp n tag).same.slot
@[simp] theorem State.hostFrames_uid (s : State) (id : Nat) (inp : Nat) (n : Nat) (tag : Option Nat) : (s.hostFrames id inp n tag).uid = s.uid := (s.hostFrames_kept id inp n tag).same.uid
@[simp] theorem State.hostFrames_pending (s : State) (id : Nat) (inp : Nat) (n : Nat) (tag : Option Nat) : (s.hostFrames id inp n tag).pending = s.pending := (s.hostFrames_kept id inp n tag).pending
@[simp] theorem State.hostFrames_out (s : State) (id : Nat) (inp : Nat) (n : Nat) (tag : Option Nat) : (s.hostFrames id inp n tag).out = s.out := (s.hostFrames_kept id inp n tag).only.out.resolve_left Bool.false_ne_true
@[simp] theorem State.hostFrames_freeCtr (s : State) (id : Nat) (inp : Nat) (n : Nat) (tag : Option Nat) : (s.hostFrames id inp n tag).freeCtr = s.freeCtr := (s.hostFrames_kept id inp n tag).only.free.resolve_left Bool.false_ne_true
@[simp] theorem State.hostFrames_reg (s : State) (id : Nat) (inp : Nat) (n : Nat) (tag : Option Nat) (k : Nat) : (s.hostFrames id inp n tag).reg k = s.reg k := ((s.hostFrames_kept id inp n tag).only.regs).resolve_left Bool.false_ne_true k (fun h => absurd h Bool.false_ne_true)

theorem State.dropCopies_kept (s : State) (tag : Nat) : Kept { xbr := true } s (s.dropCopies tag) :=
  Kept.dropCopies _ (Kept.refl s) (hXbr := rfl)
@[simp] theorem State.dropCopies_hce (s : State) (tag : Nat) : (s.dropCopies tag).hce = s.hce := (s.dropCopies_kept tag).only.hce.resolve_left Bool.false_ne_true
@[simp] theorem State.dropCopies_rfu (s : State) (tag : Nat) : (s.dropCopies tag).rfu = s.rfu := (s.dropCopies_kept tag).only.rfu.resolve_left Bool.false_ne_true
@[simp] theorem State.dropCopies_rge (s : State) (tag : Nat) : (s.dropCopies tag).rge = s.rge := (s.dropCopies_kept tag).only.rge.resolve_left Bool.false_ne_true
@[simp] theorem State.dropCopies_snt (s : State) (tag : Nat) : (s.dropCopies tag).snt = s.snt := (s.dropCopies_kept tag).only.snt.resolve_left Bool.false_ne_true
@[simp] theorem State.dropCopies_rfx (s : State) (tag : Nat) : (s.dropCopies tag).rfx = s.rfx := (s.dropCopies_kept tag).only.rfx.resolve_left Bool.false_ne_true
@[simp] theorem State.dropCopies_tk (s : State) (tag : Nat) : (s.dropCopies tag).tk = s.tk := (s.dropCopies_kept tag).only.tk.resolve_left Bool.false_ne_true
@[simp] theorem State.dropCopies_vsm (s : State) (tag : Nat) : (s.dropCopies tag).vsm = s.vsm := (s.dropCopies_kept tag).only.vsm.resolve_left Bool.false_ne_true
@[simp] theorem State.dropCopies_kvt (s : State) (tag : Nat) : (s.dropCopies tag).kvt = s.kvt := (s.dropCopies_kept tag).only.kvt.resolve_left Bool.false_ne_true
@[simp] theorem State.dropCopies_mbx (s : State) (tag : Nat) : (s.dropCopies tag).mbx = s.mbx := (s.dropCopies_kept tag).only.mbx.resolve_left Bool.false_ne_true
@[simp] theorem State.dropCopies_bay (s : State) (tag : Nat) : (s.dropCopies tag).bay = s.bay := (s.dropCopies_kept tag).only.bay.resolve_left Bool.false_ne_true
@[simp] theorem State.dropCopies_props (s : State) (tag : Nat) : (s.dropCopies tag).props = s.props := (s.dropCopies_kept tag).only.props.resolve_left Bool.false_ne_true
@[simp] theorem State.dropCopies_ppc (s : State) (tag : Nat) : (s.dropCopies tag).ppc = s.ppc := (s.dropCopies_kept tag).only.ppc.resolve_left Bool.false_ne_true
@[simp] theorem State.dropCopies_sep (s : State) (tag : Nat) : (s.dropCopies tag).sep = s.sep := (s.dropCopies_kept tag).only.sep.resolve_left Bool.false_ne_true
@[simp] theorem State.dropCopies_pwr (s : State) (tag : Nat) : (s.dropCopies tag).pwr = s.pwr := (s.dropCopies_kept tag).only.pwr.resolve_left Bool.false_ne_true
@[simp] theorem State.dropCopies_lcu (s : State) (tag : Nat) : (s.dropCopies tag).lcu = s.lcu := (s.dropCopies_kept tag).only.lcu.resolve_left Bool.false_ne_true
@[simp] theorem State.dropCopies_pmu (s : State) (tag : Nat) : (s.dropCopies tag).pmu = s.pmu := (s.dropCopies_kept tag).only.pmu.resolve_left Bool.false_ne_true
@[simp] theorem State.dropCopies_tst (s : State) (tag : Nat) : (s.dropCopies tag).tst = s.tst := (s.dropCopies_kept tag).only.tst.resolve_left Bool.false_ne_true
@[simp] theorem State.dropCopies_mac (s : State) (tag : Nat) : (s.dropCopies tag).mac = s.mac := (s.dropCopies_kept tag).only.mac.resolve_left Bool.false_ne_true
@[simp] theorem State.dropCopies_now (s : State) (tag : Nat) : (s.dropCopies tag).now = s.now := (s.dropCopies_kept tag).same.now
@[simp] theorem State.dropCopies_part (s : State) (tag : Nat) : (s.dropCopies tag).part = s.part := (s.dropCopies_kept tag).same.part
@[simp] theorem State.dropCopies_slot (s : State) (tag : Nat) : (s.dropCopies tag).slot = s.slot := (s.dropCopies_kept tag).same.slot
@[simp] theorem State.dropCopies_uid (s : State) (tag : Nat) : (s.dropCopies tag).uid = s.uid := (s.dropCopies_kept tag).same.uid
@[simp] theorem State.dropCopies_pending (s : State) (tag : Nat) : (s.dropCopies tag).pending = s.pending := (s.dropCopies_kept tag).pending
@[simp] theorem State.dropCopies_out (s : State) (tag : Nat) : (s.dropCopies tag).out = s.out := (s.dropCopies_kept tag).only.out.resolve_left Bool.false_ne_true
@[simp] theorem State.dropCopies_freeCtr (s : State) (tag : Nat) : (s.dropCopies tag).freeCtr = s.freeCtr := (s.dropCopies_kept tag).only.free.resolve_left Bool.false_ne_true
@[simp] theorem State.dropCopies_reg (s : State) (tag : Nat) (k : Nat) : (s.dropCopies tag).reg k = s.reg k := ((s.dropCopies_kept tag).only.regs).resolve_left Bool.false_ne_true k (fun h => absurd h Bool.false_ne_true)

theorem State.sendXport_kept (s : State) (id : Nat) : Kept { out := true, xbr := true, pmu := true, moved := true, rfx := true } s (s.sendXport id) :=
  Kept.sendXport _ (Kept.refl s) (hOut := rfl) (hXbr := rfl) (hPmu := rfl) (hMoved := rfl) (hRfx := rfl)
@[simp] theorem State.sendXport_hce (s : State) (id : Nat) : (s.sendXport id).hce = s.hce := (s.sendXport_kept id).only.hce.resolve_left Bool.false_ne_true
@[simp] theorem State.sendXport_rfu (s : State) (id : Nat) : (s.sendXport id).rfu = s.rfu := (s.sendXport_kept id).only.rfu.resolve_left Bool.false_ne_true
@[simp] theorem State.sendXport_rge (s : State) (id : Nat) : (s.sendXport id).rge = s.rge := (s.sendXport_kept id).only.rge.resolve_left Bool.false_ne_true
@[simp] theorem State.sendXport_snt (s : State) (id : Nat) : (s.sendXport id).snt = s.snt := (s.sendXport_kept id).only.snt.resolve_left Bool.false_ne_true
@[simp] theorem State.sendXport_tk (s : State) (id : Nat) : (s.sendXport id).tk = s.tk := (s.sendXport_kept id).only.tk.resolve_left Bool.false_ne_true
@[simp] theorem State.sendXport_vsm (s : State) (id : Nat) : (s.sendXport id).vsm = s.vsm := (s.sendXport_kept id).only.vsm.resolve_left Bool.false_ne_true
@[simp] theorem State.sendXport_kvt (s : State) (id : Nat) : (s.sendXport id).kvt = s.kvt := (s.sendXport_kept id).only.kvt.resolve_left Bool.false_ne_true
@[simp] theorem State.sendXport_mbx (s : State) (id : Nat) : (s.sendXport id).mbx = s.mbx := (s.sendXport_kept id).only.mbx.resolve_left Bool.false_ne_true
@[simp] theorem State.sendXport_bay (s : State) (id : Nat) : (s.sendXport id).bay = s.bay := (s.sendXport_kept id).only.bay.resolve_left Bool.false_ne_true
@[simp] theorem State.sendXport_props (s : State) (id : Nat) : (s.sendXport id).props = s.props := (s.sendXport_kept id).only.props.resolve_left Bool.false_ne_true
@[simp] theorem State.sendXport_ppc (s : State) (id : Nat) : (s.sendXport id).ppc = s.ppc := (s.sendXport_kept id).only.ppc.resolve_left Bool.false_ne_true
@[simp] theorem State.sendXport_sep (s : State) (id : Nat) : (s.sendXport id).sep = s.sep := (s.sendXport_kept id).only.sep.resolve_left Bool.false_ne_true
@[simp] theorem State.sendXport_pwr (s : State) (id : Nat) : (s.sendXport id).pwr = s.pwr := (s.sendXport_kept id).only.pwr.resolve_left Bool.false_ne_true
@[simp] theorem State.sendXport_lcu (s : State) (id : Nat) : (s.sendXport id).lcu = s.lcu := (s.sendXport_kept id).only.lcu.resolve_left Bool.false_ne_true
@[simp] theorem State.sendXport_tst (s : State) (id : Nat) : (s.sendXport id).tst = s.tst := (s.sendXport_kept id).only.tst.resolve_left Bool.false_ne_true
@[simp] theorem State.sendXport_mac (s : State) (id : Nat) : (s.sendXport id).mac = s.mac := (s.sendXport_kept id).only.mac.resolve_left Bool.false_ne_true
@[simp] theorem State.sendXport_now (s : State) (id : Nat) : (s.sendXport id).now = s.now := (s.sendXport_kept id).same.now
@[simp] theorem State.sendXport_part (s : State) (id : Nat) : (s.sendXport id).part = s.part := (s.sendXport_kept id).same.part
@[simp] theorem State.sendXport_slot (s : State) (id : Nat) : (s.sendXport id).slot = s.slot := (s.sendXport_kept id).same.slot
@[simp] theorem State.sendXport_uid (s : State) (id : Nat) : (s.sendXport id).uid = s.uid := (s.sendXport_kept id).same.uid
@[simp] theorem State.sendXport_pending (s : State) (id : Nat) : (s.sendXport id).pending = s.pending := (s.sendXport_kept id).pending
@[simp] theorem State.sendXport_freeCtr (s : State) (id : Nat) : (s.sendXport id).freeCtr = s.freeCtr := (s.sendXport_kept id).only.free.resolve_left Bool.false_ne_true

theorem State.giveRead_kept (s : State) (r : TagRec) (secs : List Sector) : Kept { out := true, pmu := true, moved := true } s (s.giveRead r secs) :=
  Kept.giveRead _ _ (Kept.refl s) (hOut := rfl) (hPmu := rfl) (hMoved := rfl)
@[simp] theorem State.giveRead_hce (s : State) (r : TagRec) (secs : List Sector) : (s.giveRead r secs).hce = s.hce := (s.giveRead_kept r secs).only.hce.resolve_left Bool.false_ne_true
@[simp] theorem State.giveRead_rfu (s : State) (r : TagRec) (secs : List Sector) : (s.giveRead r secs).rfu = s.rfu := (s.giveRead_kept r secs).only.rfu.resolve_left Bool.false_ne_true
@[simp] theorem State.giveRead_rge (s : State) (r : TagRec) (secs : List Sector) : (s.giveRead r secs).rge = s.rge := (s.giveRead_kept r secs).only.rge.resolve_left Bool.false_ne_true
@[simp] theorem State.giveRead_snt (s : State) (r : TagRec) (secs : List Sector) : (s.giveRead r secs).snt = s.snt := (s.giveRead_kept r secs).only.snt.resolve_left Bool.false_ne_true
@[simp] theorem State.giveRead_rfx (s : State) (r : TagRec) (secs : List Sector) : (s.giveRead r secs).rfx = s.rfx := (s.giveRead_kept r secs).only.rfx.resolve_left Bool.false_ne_true
@[simp] theorem State.giveRead_tk (s : State) (r : TagRec) (secs : List Sector) : (s.giveRead r secs).tk = s.tk := (s.giveRead_kept r secs).only.tk.resolve_left Bool.false_ne_true
@[simp] theorem State.giveRead_vsm (s : State) (r : TagRec) (secs : List Sector) : (s.giveRead r secs).vsm = s.vsm := (s.giveRead_kept r secs).only.vsm.resolve_left Bool.false_ne_true
@[simp] theorem State.giveRead_kvt (s : State) (r : TagRec) (secs : List Sector) : (s.giveRead r secs).kvt = s.kvt := (s.giveRead_kept r secs).only.kvt.resolve_left Bool.false_ne_true
@[simp] theorem State.giveRead_mbx (s : State) (r : TagRec) (secs : List Sector) : (s.giveRead r secs).mbx = s.mbx := (s.giveRead_kept r secs).only.mbx.resolve_left Bool.false_ne_true
@[simp] theorem State.giveRead_bay (s : State) (r : TagRec) (secs : List Sector) : (s.giveRead r secs).bay = s.bay := (s.giveRead_kept r secs).only.bay.resolve_left Bool.false_ne_true
@[simp] theorem State.giveRead_props (s : State) (r : TagRec) (secs : List Sector) : (s.giveRead r secs).props = s.props := (s.giveRead_kept r secs).only.props.resolve_left Bool.false_ne_true
@[simp] theorem State.giveRead_ppc (s : State) (r : TagRec) (secs : List Sector) : (s.giveRead r secs).ppc = s.ppc := (s.giveRead_kept r secs).only.ppc.resolve_left Bool.false_ne_true
@[simp] theorem State.giveRead_xbr (s : State) (r : TagRec) (secs : List Sector) : (s.giveRead r secs).xbr = s.xbr := (s.giveRead_kept r secs).only.xbr.resolve_left Bool.false_ne_true
@[simp] theorem State.giveRead_sep (s : State) (r : TagRec) (secs : List Sector) : (s.giveRead r secs).sep = s.sep := (s.giveRead_kept r secs).only.sep.resolve_left Bool.false_ne_true
@[simp] theorem State.giveRead_pwr (s : State) (r : TagRec) (secs : List Sector) : (s.giveRead r secs).pwr = s.pwr := (s.giveRead_kept r secs).only.pwr.resolve_left Bool.false_ne_true
@[simp] theorem State.giveRead_lcu (s : State) (r : TagRec) (secs : List Sector) : (s.giveRead r secs).lcu = s.lcu := (s.giveRead_kept r secs).only.lcu.resolve_left Bool.false_ne_true
@[simp] theorem State.giveRead_tst (s : State) (r : TagRec) (secs : List Sector) : (s.giveRead r secs).tst = s.tst := (s.giveRead_kept r secs).only.tst.resolve_left Bool.false_ne_true
@[simp] theorem State.giveRead_mac (s : State) (r : TagRec) (secs : List Sector) : (s.giveRead r secs).mac = s.mac := (s.giveRead_kept r secs).only.mac.resolve_left Bool.false_ne_true
@[simp] theorem State.giveRead_now (s : State) (r : TagRec) (secs : List Sector) : (s.giveRead r secs).now = s.now := (s.giveRead_kept r secs).same.now
@[simp] theorem State.giveRead_part (s : State) (r : TagRec) (secs : List Sector) : (s.giveRead r secs).part = s.part := (s.giveRead_kept r secs).same.part
@[simp] theorem State.giveRead_slot (s : State) (r : TagRec) (secs : List Sector) : (s.giveRead r secs).slot = s.slot := (s.giveRead_kept r secs).same.slot
@[simp] theorem State.giveRead_uid (s : State) (r : TagRec) (secs : List Sector) : (s.giveRead r secs).uid = s.uid := (s.giveRead_kept r secs).same.uid
@[simp] theorem State.giveRead_pending (s : State) (r : TagRec) (secs : List Sector) : (s.giveRead r secs).pending = s.pending := (s.giveRead_kept r secs).pending
@[simp] theorem State.giveRead_freeCtr (s : State) (r : TagRec) (secs : List Sector) : (s.giveRead r secs).freeCtr = s.freeCtr := (s.giveRead_kept r secs).only.free.resolve_left Bool.false_ne_true

theorem State.sendRead_kept (s : State) (r : TagRec) (inp : Nat) (secs : List Sector) : Kept { out := true, xbr := true, pmu := true, moved := true } s (s.sendRead r inp secs) :=
  Kept.sendRead _ _ _ (Kept.refl s) (hOut := rfl) (hXbr := rfl) (hPmu := rfl) (hMoved := rfl)
@[simp] theorem State.sendRead_hce (s : State) (r : TagRec) (inp : Nat) (secs : List Sector) : (s.sendRead r inp secs).hce = s.hce := (s.sendRead_kept r inp secs).only.hce.resolve_left Bool.false_ne_true
@[simp] theorem State.sendRead_rfu (s : State) (r : TagRec) (inp : Nat) (secs : List Sector) : (s.sendRead r inp secs).rfu = s.rfu := (s.sendRead_kept r inp secs).only.rfu.resolve_left Bool.false_ne_true
@[simp] theorem State.sendRead_rge (s : State) (r : TagRec) (inp : Nat) (secs : List Sector) : (s.sendRead r inp secs).rge = s.rge := (s.sendRead_kept r inp secs).only.rge.resolve_left Bool.false_ne_true
@[simp] theorem State.sendRead_snt (s : State) (r : TagRec) (inp : Nat) (secs : List Sector) : (s.sendRead r inp secs).snt = s.snt := (s.sendRead_kept r inp secs).only.snt.resolve_left Bool.false_ne_true
@[simp] theorem State.sendRead_rfx (s : State) (r : TagRec) (inp : Nat) (secs : List Sector) : (s.sendRead r inp secs).rfx = s.rfx := (s.sendRead_kept r inp secs).only.rfx.resolve_left Bool.false_ne_true
@[simp] theorem State.sendRead_tk (s : State) (r : TagRec) (inp : Nat) (secs : List Sector) : (s.sendRead r inp secs).tk = s.tk := (s.sendRead_kept r inp secs).only.tk.resolve_left Bool.false_ne_true
@[simp] theorem State.sendRead_vsm (s : State) (r : TagRec) (inp : Nat) (secs : List Sector) : (s.sendRead r inp secs).vsm = s.vsm := (s.sendRead_kept r inp secs).only.vsm.resolve_left Bool.false_ne_true
@[simp] theorem State.sendRead_kvt (s : State) (r : TagRec) (inp : Nat) (secs : List Sector) : (s.sendRead r inp secs).kvt = s.kvt := (s.sendRead_kept r inp secs).only.kvt.resolve_left Bool.false_ne_true
@[simp] theorem State.sendRead_mbx (s : State) (r : TagRec) (inp : Nat) (secs : List Sector) : (s.sendRead r inp secs).mbx = s.mbx := (s.sendRead_kept r inp secs).only.mbx.resolve_left Bool.false_ne_true
@[simp] theorem State.sendRead_bay (s : State) (r : TagRec) (inp : Nat) (secs : List Sector) : (s.sendRead r inp secs).bay = s.bay := (s.sendRead_kept r inp secs).only.bay.resolve_left Bool.false_ne_true
@[simp] theorem State.sendRead_props (s : State) (r : TagRec) (inp : Nat) (secs : List Sector) : (s.sendRead r inp secs).props = s.props := (s.sendRead_kept r inp secs).only.props.resolve_left Bool.false_ne_true
@[simp] theorem State.sendRead_ppc (s : State) (r : TagRec) (inp : Nat) (secs : List Sector) : (s.sendRead r inp secs).ppc = s.ppc := (s.sendRead_kept r inp secs).only.ppc.resolve_left Bool.false_ne_true
@[simp] theorem State.sendRead_sep (s : State) (r : TagRec) (inp : Nat) (secs : List Sector) : (s.sendRead r inp secs).sep = s.sep := (s.sendRead_kept r inp secs).only.sep.resolve_left Bool.false_ne_true
@[simp] theorem State.sendRead_pwr (s : State) (r : TagRec) (inp : Nat) (secs : List Sector) : (s.sendRead r inp secs).pwr = s.pwr := (s.sendRead_kept r inp secs).only.pwr.resolve_left Bool.false_ne_true
@[simp] theorem State.sendRead_lcu (s : State) (r : TagRec) (inp : Nat) (secs : List Sector) : (s.sendRead r inp secs).lcu = s.lcu := (s.sendRead_kept r inp secs).only.lcu.resolve_left Bool.false_ne_true
@[simp] theorem State.sendRead_tst (s : State) (r : TagRec) (inp : Nat) (secs : List Sector) : (s.sendRead r inp secs).tst = s.tst := (s.sendRead_kept r inp secs).only.tst.resolve_left Bool.false_ne_true
@[simp] theorem State.sendRead_mac (s : State) (r : TagRec) (inp : Nat) (secs : List Sector) : (s.sendRead r inp secs).mac = s.mac := (s.sendRead_kept r inp secs).only.mac.resolve_left Bool.false_ne_true
@[simp] theorem State.sendRead_now (s : State) (r : TagRec) (inp : Nat) (secs : List Sector) : (s.sendRead r inp secs).now = s.now := (s.sendRead_kept r inp secs).same.now
@[simp] theorem State.sendRead_part (s : State) (r : TagRec) (inp : Nat) (secs : List Sector) : (s.sendRead r inp secs).part = s.part := (s.sendRead_kept r inp secs).same.part
@[simp] theorem State.sendRead_slot (s : State) (r : TagRec) (inp : Nat) (secs : List Sector) : (s.sendRead r inp secs).slot = s.slot := (s.sendRead_kept r inp secs).same.slot
@[simp] theorem State.sendRead_uid (s : State) (r : TagRec) (inp : Nat) (secs : List Sector) : (s.sendRead r inp secs).uid = s.uid := (s.sendRead_kept r inp secs).same.uid
@[simp] theorem State.sendRead_pending (s : State) (r : TagRec) (inp : Nat) (secs : List Sector) : (s.sendRead r inp secs).pending = s.pending := (s.sendRead_kept r inp secs).pending
@[simp] theorem State.sendRead_freeCtr (s : State) (r : TagRec) (inp : Nat) (secs : List Sector) : (s.sendRead r inp secs).freeCtr = s.freeCtr := (s.sendRead_kept r inp secs).only.free.resolve_left Bool.false_ne_true

theorem State.postCqe_kept (s : State) (c : Nat) (q : Nat) (cid : Nat) (st : CplStatus) (dw0 : Nat) (lba : Nat) : Kept { hce := true, xbr := true, out := true } s (s.postCqe c q cid st dw0 lba) :=
  Kept.postCqe _ _ _ _ _ _ (Kept.refl s) (hHce := rfl) (hXbr := rfl) (hOut := rfl)
@[simp] theorem State.postCqe_rfu (s : State) (c : Nat) (q : Nat) (cid : Nat) (st : CplStatus) (dw0 : Nat) (lba : Nat) : (s.postCqe c q cid st dw0 lba).rfu = s.rfu := (s.postCqe_kept c q cid st dw0 lba).only.rfu.resolve_left Bool.false_ne_true
@[simp] theorem State.postCqe_rge (s : State) (c : Nat) (q : Nat) (cid : Nat) (st : CplStatus) (dw0 : Nat) (lba : Nat) : (s.postCqe c q cid st dw0 lba).rge = s.rge := (s.postCqe_kept c q cid st dw0 lba).only.rge.resolve_left Bool.false_ne_true
@[simp] theorem State.postCqe_snt (s : State) (c : Nat) (q : Nat) (cid : Nat) (st : CplStatus) (dw0 : Nat) (lba : Nat) : (s.postCqe c q cid st dw0 lba).snt = s.snt := (s.postCqe_kept c q cid st dw0 lba).only.snt.resolve_left Bool.false_ne_true
@[simp] theorem State.postCqe_rfx (s : State) (c : Nat) (q : Nat) (cid : Nat) (st : CplStatus) (dw0 : Nat) (lba : Nat) : (s.postCqe c q cid st dw0 lba).rfx = s.rfx := (s.postCqe_kept c q cid st dw0 lba).only.rfx.resolve_left Bool.false_ne_true
@[simp] theorem State.postCqe_tk (s : State) (c : Nat) (q : Nat) (cid : Nat) (st : CplStatus) (dw0 : Nat) (lba : Nat) : (s.postCqe c q cid st dw0 lba).tk = s.tk := (s.postCqe_kept c q cid st dw0 lba).only.tk.resolve_left Bool.false_ne_true
@[simp] theorem State.postCqe_vsm (s : State) (c : Nat) (q : Nat) (cid : Nat) (st : CplStatus) (dw0 : Nat) (lba : Nat) : (s.postCqe c q cid st dw0 lba).vsm = s.vsm := (s.postCqe_kept c q cid st dw0 lba).only.vsm.resolve_left Bool.false_ne_true
@[simp] theorem State.postCqe_kvt (s : State) (c : Nat) (q : Nat) (cid : Nat) (st : CplStatus) (dw0 : Nat) (lba : Nat) : (s.postCqe c q cid st dw0 lba).kvt = s.kvt := (s.postCqe_kept c q cid st dw0 lba).only.kvt.resolve_left Bool.false_ne_true
@[simp] theorem State.postCqe_mbx (s : State) (c : Nat) (q : Nat) (cid : Nat) (st : CplStatus) (dw0 : Nat) (lba : Nat) : (s.postCqe c q cid st dw0 lba).mbx = s.mbx := (s.postCqe_kept c q cid st dw0 lba).only.mbx.resolve_left Bool.false_ne_true
@[simp] theorem State.postCqe_bay (s : State) (c : Nat) (q : Nat) (cid : Nat) (st : CplStatus) (dw0 : Nat) (lba : Nat) : (s.postCqe c q cid st dw0 lba).bay = s.bay := (s.postCqe_kept c q cid st dw0 lba).only.bay.resolve_left Bool.false_ne_true
@[simp] theorem State.postCqe_props (s : State) (c : Nat) (q : Nat) (cid : Nat) (st : CplStatus) (dw0 : Nat) (lba : Nat) : (s.postCqe c q cid st dw0 lba).props = s.props := (s.postCqe_kept c q cid st dw0 lba).only.props.resolve_left Bool.false_ne_true
@[simp] theorem State.postCqe_ppc (s : State) (c : Nat) (q : Nat) (cid : Nat) (st : CplStatus) (dw0 : Nat) (lba : Nat) : (s.postCqe c q cid st dw0 lba).ppc = s.ppc := (s.postCqe_kept c q cid st dw0 lba).only.ppc.resolve_left Bool.false_ne_true
@[simp] theorem State.postCqe_sep (s : State) (c : Nat) (q : Nat) (cid : Nat) (st : CplStatus) (dw0 : Nat) (lba : Nat) : (s.postCqe c q cid st dw0 lba).sep = s.sep := (s.postCqe_kept c q cid st dw0 lba).only.sep.resolve_left Bool.false_ne_true
@[simp] theorem State.postCqe_pwr (s : State) (c : Nat) (q : Nat) (cid : Nat) (st : CplStatus) (dw0 : Nat) (lba : Nat) : (s.postCqe c q cid st dw0 lba).pwr = s.pwr := (s.postCqe_kept c q cid st dw0 lba).only.pwr.resolve_left Bool.false_ne_true
@[simp] theorem State.postCqe_lcu (s : State) (c : Nat) (q : Nat) (cid : Nat) (st : CplStatus) (dw0 : Nat) (lba : Nat) : (s.postCqe c q cid st dw0 lba).lcu = s.lcu := (s.postCqe_kept c q cid st dw0 lba).only.lcu.resolve_left Bool.false_ne_true
@[simp] theorem State.postCqe_pmu (s : State) (c : Nat) (q : Nat) (cid : Nat) (st : CplStatus) (dw0 : Nat) (lba : Nat) : (s.postCqe c q cid st dw0 lba).pmu = s.pmu := (s.postCqe_kept c q cid st dw0 lba).only.pmu.resolve_left Bool.false_ne_true
@[simp] theorem State.postCqe_tst (s : State) (c : Nat) (q : Nat) (cid : Nat) (st : CplStatus) (dw0 : Nat) (lba : Nat) : (s.postCqe c q cid st dw0 lba).tst = s.tst := (s.postCqe_kept c q cid st dw0 lba).only.tst.resolve_left Bool.false_ne_true
@[simp] theorem State.postCqe_mac (s : State) (c : Nat) (q : Nat) (cid : Nat) (st : CplStatus) (dw0 : Nat) (lba : Nat) : (s.postCqe c q cid st dw0 lba).mac = s.mac := (s.postCqe_kept c q cid st dw0 lba).only.mac.resolve_left Bool.false_ne_true
@[simp] theorem State.postCqe_now (s : State) (c : Nat) (q : Nat) (cid : Nat) (st : CplStatus) (dw0 : Nat) (lba : Nat) : (s.postCqe c q cid st dw0 lba).now = s.now := (s.postCqe_kept c q cid st dw0 lba).same.now
@[simp] theorem State.postCqe_part (s : State) (c : Nat) (q : Nat) (cid : Nat) (st : CplStatus) (dw0 : Nat) (lba : Nat) : (s.postCqe c q cid st dw0 lba).part = s.part := (s.postCqe_kept c q cid st dw0 lba).same.part
@[simp] theorem State.postCqe_slot (s : State) (c : Nat) (q : Nat) (cid : Nat) (st : CplStatus) (dw0 : Nat) (lba : Nat) : (s.postCqe c q cid st dw0 lba).slot = s.slot := (s.postCqe_kept c q cid st dw0 lba).same.slot
@[simp] theorem State.postCqe_uid (s : State) (c : Nat) (q : Nat) (cid : Nat) (st : CplStatus) (dw0 : Nat) (lba : Nat) : (s.postCqe c q cid st dw0 lba).uid = s.uid := (s.postCqe_kept c q cid st dw0 lba).same.uid
@[simp] theorem State.postCqe_pending (s : State) (c : Nat) (q : Nat) (cid : Nat) (st : CplStatus) (dw0 : Nat) (lba : Nat) : (s.postCqe c q cid st dw0 lba).pending = s.pending := (s.postCqe_kept c q cid st dw0 lba).pending
@[simp] theorem State.postCqe_freeCtr (s : State) (c : Nat) (q : Nat) (cid : Nat) (st : CplStatus) (dw0 : Nat) (lba : Nat) : (s.postCqe c q cid st dw0 lba).freeCtr = s.freeCtr := (s.postCqe_kept c q cid st dw0 lba).only.free.resolve_left Bool.false_ne_true
@[simp] theorem State.postCqe_reg (s : State) (c : Nat) (q : Nat) (cid : Nat) (st : CplStatus) (dw0 : Nat) (lba : Nat) (k : Nat) : (s.postCqe c q cid st dw0 lba).reg k = s.reg k := ((s.postCqe_kept c q cid st dw0 lba).only.regs).resolve_left Bool.false_ne_true k (fun h => absurd h Bool.false_ne_true)

theorem State.adminCqe_kept (s : State) (c : Nat) (cid : Nat) (st : CplStatus) (dw0 : Nat) : Kept { hce := true, xbr := true, out := true } s (s.adminCqe c cid st dw0) :=
  Kept.adminCqe _ _ _ _ (Kept.refl s) (hHce := rfl) (hXbr := rfl) (hOut := rfl)
@[simp] theorem State.adminCqe_rfu (s : State) (c : Nat) (cid : Nat) (st : CplStatus) (dw0 : Nat) : (s.adminCqe c cid st dw0).rfu = s.rfu := (s.adminCqe_kept c cid st dw0).only.rfu.resolve_left Bool.false_ne_true
@[simp] theorem State.adminCqe_rge (s : State) (c : Nat) (cid : Nat) (st : CplStatus) (dw0 : Nat) : (s.adminCqe c cid st dw0).rge = s.rge := (s.adminCqe_kept c cid st dw0).only.rge.resolve_left Bool.false_ne_true
@[simp] theorem State.adminCqe_snt (s : State) (c : Nat) (cid : Nat) (st : CplStatus) (dw0 : Nat) : (s.adminCqe c cid st dw0).snt = s.snt := (s.adminCqe_kept c cid st dw0).only.snt.resolve_left Bool.false_ne_true
@[simp] theorem State.adminCqe_rfx (s : State) (c : Nat) (cid : Nat) (st : CplStatus) (dw0 : Nat) : (s.adminCqe c cid st dw0).rfx = s.rfx := (s.adminCqe_kept c cid st dw0).only.rfx.resolve_left Bool.false_ne_true
@[simp] theorem State.adminCqe_tk (s : State) (c : Nat) (cid : Nat) (st : CplStatus) (dw0 : Nat) : (s.adminCqe c cid st dw0).tk = s.tk := (s.adminCqe_kept c cid st dw0).only.tk.resolve_left Bool.false_ne_true
@[simp] theorem State.adminCqe_vsm (s : State) (c : Nat) (cid : Nat) (st : CplStatus) (dw0 : Nat) : (s.adminCqe c cid st dw0).vsm = s.vsm := (s.adminCqe_kept c cid st dw0).only.vsm.resolve_left Bool.false_ne_true
@[simp] theorem State.adminCqe_kvt (s : State) (c : Nat) (cid : Nat) (st : CplStatus) (dw0 : Nat) : (s.adminCqe c cid st dw0).kvt = s.kvt := (s.adminCqe_kept c cid st dw0).only.kvt.resolve_left Bool.false_ne_true
@[simp] theorem State.adminCqe_mbx (s : State) (c : Nat) (cid : Nat) (st : CplStatus) (dw0 : Nat) : (s.adminCqe c cid st dw0).mbx = s.mbx := (s.adminCqe_kept c cid st dw0).only.mbx.resolve_left Bool.false_ne_true
@[simp] theorem State.adminCqe_bay (s : State) (c : Nat) (cid : Nat) (st : CplStatus) (dw0 : Nat) : (s.adminCqe c cid st dw0).bay = s.bay := (s.adminCqe_kept c cid st dw0).only.bay.resolve_left Bool.false_ne_true
@[simp] theorem State.adminCqe_props (s : State) (c : Nat) (cid : Nat) (st : CplStatus) (dw0 : Nat) : (s.adminCqe c cid st dw0).props = s.props := (s.adminCqe_kept c cid st dw0).only.props.resolve_left Bool.false_ne_true
@[simp] theorem State.adminCqe_ppc (s : State) (c : Nat) (cid : Nat) (st : CplStatus) (dw0 : Nat) : (s.adminCqe c cid st dw0).ppc = s.ppc := (s.adminCqe_kept c cid st dw0).only.ppc.resolve_left Bool.false_ne_true
@[simp] theorem State.adminCqe_sep (s : State) (c : Nat) (cid : Nat) (st : CplStatus) (dw0 : Nat) : (s.adminCqe c cid st dw0).sep = s.sep := (s.adminCqe_kept c cid st dw0).only.sep.resolve_left Bool.false_ne_true
@[simp] theorem State.adminCqe_pwr (s : State) (c : Nat) (cid : Nat) (st : CplStatus) (dw0 : Nat) : (s.adminCqe c cid st dw0).pwr = s.pwr := (s.adminCqe_kept c cid st dw0).only.pwr.resolve_left Bool.false_ne_true
@[simp] theorem State.adminCqe_lcu (s : State) (c : Nat) (cid : Nat) (st : CplStatus) (dw0 : Nat) : (s.adminCqe c cid st dw0).lcu = s.lcu := (s.adminCqe_kept c cid st dw0).only.lcu.resolve_left Bool.false_ne_true
@[simp] theorem State.adminCqe_pmu (s : State) (c : Nat) (cid : Nat) (st : CplStatus) (dw0 : Nat) : (s.adminCqe c cid st dw0).pmu = s.pmu := (s.adminCqe_kept c cid st dw0).only.pmu.resolve_left Bool.false_ne_true
@[simp] theorem State.adminCqe_tst (s : State) (c : Nat) (cid : Nat) (st : CplStatus) (dw0 : Nat) : (s.adminCqe c cid st dw0).tst = s.tst := (s.adminCqe_kept c cid st dw0).only.tst.resolve_left Bool.false_ne_true
@[simp] theorem State.adminCqe_mac (s : State) (c : Nat) (cid : Nat) (st : CplStatus) (dw0 : Nat) : (s.adminCqe c cid st dw0).mac = s.mac := (s.adminCqe_kept c cid st dw0).only.mac.resolve_left Bool.false_ne_true
@[simp] theorem State.adminCqe_now (s : State) (c : Nat) (cid : Nat) (st : CplStatus) (dw0 : Nat) : (s.adminCqe c cid st dw0).now = s.now := (s.adminCqe_kept c cid st dw0).same.now
@[simp] theorem State.adminCqe_part (s : State) (c : Nat) (cid : Nat) (st : CplStatus) (dw0 : Nat) : (s.adminCqe c cid st dw0).part = s.part := (s.adminCqe_kept c cid st dw0).same.part
@[simp] theorem State.adminCqe_slot (s : State) (c : Nat) (cid : Nat) (st : CplStatus) (dw0 : Nat) : (s.adminCqe c cid st dw0).slot = s.slot := (s.adminCqe_kept c cid st dw0).same.slot
@[simp] theorem State.adminCqe_uid (s : State) (c : Nat) (cid : Nat) (st : CplStatus) (dw0 : Nat) : (s.adminCqe c cid st dw0).uid = s.uid := (s.adminCqe_kept c cid st dw0).same.uid
@[simp] theorem State.adminCqe_pending (s : State) (c : Nat) (cid : Nat) (st : CplStatus) (dw0 : Nat) : (s.adminCqe c cid st dw0).pending = s.pending := (s.adminCqe_kept c cid st dw0).pending
@[simp] theorem State.adminCqe_freeCtr (s : State) (c : Nat) (cid : Nat) (st : CplStatus) (dw0 : Nat) : (s.adminCqe c cid st dw0).freeCtr = s.freeCtr := (s.adminCqe_kept c cid st dw0).only.free.resolve_left Bool.false_ne_true
@[simp] theorem State.adminCqe_reg (s : State) (c : Nat) (cid : Nat) (st : CplStatus) (dw0 : Nat) (k : Nat) : (s.adminCqe c cid st dw0).reg k = s.reg k := ((s.adminCqe_kept c cid st dw0).only.regs).resolve_left Bool.false_ne_true k (fun h => absurd h Bool.false_ne_true)

theorem State.adminDone_kept (s : State) (c : Nat) (cid : Nat) (st : CplStatus) (dw0 : Nat) : Kept { xbr := true, moved := true, hce := true, out := true, pmu := true, rfx := true } s (s.adminDone c cid st dw0) :=
  Kept.adminDone _ _ _ _ (Kept.refl s) (hXbr := rfl) (hMoved := rfl) (hHce := rfl) (hOut := rfl) (hPmu := rfl) (hRfx := rfl)
@[simp] theorem State.adminDone_rfu (s : State) (c : Nat) (cid : Nat) (st : CplStatus) (dw0 : Nat) : (s.adminDone c cid st dw0).rfu = s.rfu := (s.adminDone_kept c cid st dw0).only.rfu.resolve_left Bool.false_ne_true
@[simp] theorem State.adminDone_rge (s : State) (c : Nat) (cid : Nat) (st : CplStatus) (dw0 : Nat) : (s.adminDone c cid st dw0).rge = s.rge := (s.adminDone_kept c cid st dw0).only.rge.resolve_left Bool.false_ne_true
@[simp] theorem State.adminDone_snt (s : State) (c : Nat) (cid : Nat) (st : CplStatus) (dw0 : Nat) : (s.adminDone c cid st dw0).snt = s.snt := (s.adminDone_kept c cid st dw0).only.snt.resolve_left Bool.false_ne_true
@[simp] theorem State.adminDone_tk (s : State) (c : Nat) (cid : Nat) (st : CplStatus) (dw0 : Nat) : (s.adminDone c cid st dw0).tk = s.tk := (s.adminDone_kept c cid st dw0).only.tk.resolve_left Bool.false_ne_true
@[simp] theorem State.adminDone_vsm (s : State) (c : Nat) (cid : Nat) (st : CplStatus) (dw0 : Nat) : (s.adminDone c cid st dw0).vsm = s.vsm := (s.adminDone_kept c cid st dw0).only.vsm.resolve_left Bool.false_ne_true
@[simp] theorem State.adminDone_kvt (s : State) (c : Nat) (cid : Nat) (st : CplStatus) (dw0 : Nat) : (s.adminDone c cid st dw0).kvt = s.kvt := (s.adminDone_kept c cid st dw0).only.kvt.resolve_left Bool.false_ne_true
@[simp] theorem State.adminDone_mbx (s : State) (c : Nat) (cid : Nat) (st : CplStatus) (dw0 : Nat) : (s.adminDone c cid st dw0).mbx = s.mbx := (s.adminDone_kept c cid st dw0).only.mbx.resolve_left Bool.false_ne_true
@[simp] theorem State.adminDone_bay (s : State) (c : Nat) (cid : Nat) (st : CplStatus) (dw0 : Nat) : (s.adminDone c cid st dw0).bay = s.bay := (s.adminDone_kept c cid st dw0).only.bay.resolve_left Bool.false_ne_true
@[simp] theorem State.adminDone_props (s : State) (c : Nat) (cid : Nat) (st : CplStatus) (dw0 : Nat) : (s.adminDone c cid st dw0).props = s.props := (s.adminDone_kept c cid st dw0).only.props.resolve_left Bool.false_ne_true
@[simp] theorem State.adminDone_ppc (s : State) (c : Nat) (cid : Nat) (st : CplStatus) (dw0 : Nat) : (s.adminDone c cid st dw0).ppc = s.ppc := (s.adminDone_kept c cid st dw0).only.ppc.resolve_left Bool.false_ne_true
@[simp] theorem State.adminDone_sep (s : State) (c : Nat) (cid : Nat) (st : CplStatus) (dw0 : Nat) : (s.adminDone c cid st dw0).sep = s.sep := (s.adminDone_kept c cid st dw0).only.sep.resolve_left Bool.false_ne_true
@[simp] theorem State.adminDone_pwr (s : State) (c : Nat) (cid : Nat) (st : CplStatus) (dw0 : Nat) : (s.adminDone c cid st dw0).pwr = s.pwr := (s.adminDone_kept c cid st dw0).only.pwr.resolve_left Bool.false_ne_true
@[simp] theorem State.adminDone_lcu (s : State) (c : Nat) (cid : Nat) (st : CplStatus) (dw0 : Nat) : (s.adminDone c cid st dw0).lcu = s.lcu := (s.adminDone_kept c cid st dw0).only.lcu.resolve_left Bool.false_ne_true
@[simp] theorem State.adminDone_tst (s : State) (c : Nat) (cid : Nat) (st : CplStatus) (dw0 : Nat) : (s.adminDone c cid st dw0).tst = s.tst := (s.adminDone_kept c cid st dw0).only.tst.resolve_left Bool.false_ne_true
@[simp] theorem State.adminDone_mac (s : State) (c : Nat) (cid : Nat) (st : CplStatus) (dw0 : Nat) : (s.adminDone c cid st dw0).mac = s.mac := (s.adminDone_kept c cid st dw0).only.mac.resolve_left Bool.false_ne_true
@[simp] theorem State.adminDone_now (s : State) (c : Nat) (cid : Nat) (st : CplStatus) (dw0 : Nat) : (s.adminDone c cid st dw0).now = s.now := (s.adminDone_kept c cid st dw0).same.now
@[simp] theorem State.adminDone_part (s : State) (c : Nat) (cid : Nat) (st : CplStatus) (dw0 : Nat) : (s.adminDone c cid st dw0).part = s.part := (s.adminDone_kept c cid st dw0).same.part
@[simp] theorem State.adminDone_slot (s : State) (c : Nat) (cid : Nat) (st : CplStatus) (dw0 : Nat) : (s.adminDone c cid st dw0).slot = s.slot := (s.adminDone_kept c cid st dw0).same.slot
@[simp] theorem State.adminDone_uid (s : State) (c : Nat) (cid : Nat) (st : CplStatus) (dw0 : Nat) : (s.adminDone c cid st dw0).uid = s.uid := (s.adminDone_kept c cid st dw0).same.uid
@[simp] theorem State.adminDone_pending (s : State) (c : Nat) (cid : Nat) (st : CplStatus) (dw0 : Nat) : (s.adminDone c cid st dw0).pending = s.pending := (s.adminDone_kept c cid st dw0).pending
@[simp] theorem State.adminDone_freeCtr (s : State) (c : Nat) (cid : Nat) (st : CplStatus) (dw0 : Nat) : (s.adminDone c cid st dw0).freeCtr = s.freeCtr := (s.adminDone_kept c cid st dw0).only.free.resolve_left Bool.false_ne_true

theorem State.releaseLocks_kept (s : State) (t : Nat) : Kept { hce := true } s (s.releaseLocks t) :=
  Kept.releaseLocks _ (Kept.refl s) (hHce := rfl)
@[simp] theorem State.releaseLocks_rfu (s : State) (t : Nat) : (s.releaseLocks t).rfu = s.rfu := (s.releaseLocks_kept t).only.rfu.resolve_left Bool.false_ne_true
@[simp] theorem State.releaseLocks_rge (s : State) (t : Nat) : (s.releaseLocks t).rge = s.rge := (s.releaseLocks_kept t).only.rge.resolve_left Bool.false_ne_true
@[simp] theorem State.releaseLocks_snt (s : State) (t : Nat) : (s.releaseLocks t).snt = s.snt := (s.releaseLocks_kept t).only.snt.resolve_left Bool.false_ne_true
@[simp] theorem State.releaseLocks_rfx (s : State) (t : Nat) : (s.releaseLocks t).rfx = s.rfx := (s.releaseLocks_kept t).only.rfx.resolve_left Bool.false_ne_true
@[simp] theorem State.releaseLocks_tk (s : State) (t : Nat) : (s.releaseLocks t).tk = s.tk := (s.releaseLocks_kept t).only.tk.resolve_left Bool.false_ne_true
@[simp] theorem State.releaseLocks_vsm (s : State) (t : Nat) : (s.releaseLocks t).vsm = s.vsm := (s.releaseLocks_kept t).only.vsm.resolve_left Bool.false_ne_true
@[simp] theorem State.releaseLocks_kvt (s : State) (t : Nat) : (s.releaseLocks t).kvt = s.kvt := (s.releaseLocks_kept t).only.kvt.resolve_left Bool.false_ne_true
@[simp] theorem State.releaseLocks_mbx (s : State) (t : Nat) : (s.releaseLocks t).mbx = s.mbx := (s.releaseLocks_kept t).only.mbx.resolve_left Bool.false_ne_true
@[simp] theorem State.releaseLocks_bay (s : State) (t : Nat) : (s.releaseLocks t).bay = s.bay := (s.releaseLocks_kept t).only.bay.resolve_left Bool.false_ne_true
@[simp] theorem State.releaseLocks_props (s : State) (t : Nat) : (s.releaseLocks t).props = s.props := (s.releaseLocks_kept t).only.props.resolve_left Bool.false_ne_true
@[simp] theorem State.releaseLocks_ppc (s : State) (t : Nat) : (s.releaseLocks t).ppc = s.ppc := (s.releaseLocks_kept t).only.ppc.resolve_left Bool.false_ne_true
@[simp] theorem State.releaseLocks_xbr (s : State) (t : Nat) : (s.releaseLocks t).xbr = s.xbr := (s.releaseLocks_kept t).only.xbr.resolve_left Bool.false_ne_true
@[simp] theorem State.releaseLocks_sep (s : State) (t : Nat) : (s.releaseLocks t).sep = s.sep := (s.releaseLocks_kept t).only.sep.resolve_left Bool.false_ne_true
@[simp] theorem State.releaseLocks_pwr (s : State) (t : Nat) : (s.releaseLocks t).pwr = s.pwr := (s.releaseLocks_kept t).only.pwr.resolve_left Bool.false_ne_true
@[simp] theorem State.releaseLocks_lcu (s : State) (t : Nat) : (s.releaseLocks t).lcu = s.lcu := (s.releaseLocks_kept t).only.lcu.resolve_left Bool.false_ne_true
@[simp] theorem State.releaseLocks_pmu (s : State) (t : Nat) : (s.releaseLocks t).pmu = s.pmu := (s.releaseLocks_kept t).only.pmu.resolve_left Bool.false_ne_true
@[simp] theorem State.releaseLocks_tst (s : State) (t : Nat) : (s.releaseLocks t).tst = s.tst := (s.releaseLocks_kept t).only.tst.resolve_left Bool.false_ne_true
@[simp] theorem State.releaseLocks_mac (s : State) (t : Nat) : (s.releaseLocks t).mac = s.mac := (s.releaseLocks_kept t).only.mac.resolve_left Bool.false_ne_true
@[simp] theorem State.releaseLocks_now (s : State) (t : Nat) : (s.releaseLocks t).now = s.now := (s.releaseLocks_kept t).same.now
@[simp] theorem State.releaseLocks_part (s : State) (t : Nat) : (s.releaseLocks t).part = s.part := (s.releaseLocks_kept t).same.part
@[simp] theorem State.releaseLocks_slot (s : State) (t : Nat) : (s.releaseLocks t).slot = s.slot := (s.releaseLocks_kept t).same.slot
@[simp] theorem State.releaseLocks_uid (s : State) (t : Nat) : (s.releaseLocks t).uid = s.uid := (s.releaseLocks_kept t).same.uid
@[simp] theorem State.releaseLocks_pending (s : State) (t : Nat) : (s.releaseLocks t).pending = s.pending := (s.releaseLocks_kept t).pending
@[simp] theorem State.releaseLocks_out (s : State) (t : Nat) : (s.releaseLocks t).out = s.out := (s.releaseLocks_kept t).only.out.resolve_left Bool.false_ne_true
@[simp] theorem State.releaseLocks_freeCtr (s : State) (t : Nat) : (s.releaseLocks t).freeCtr = s.freeCtr := (s.releaseLocks_kept t).only.free.resolve_left Bool.false_ne_true
@[simp] theorem State.releaseLocks_reg (s : State) (t : Nat) (k : Nat) : (s.releaseLocks t).reg k = s.reg k := ((s.releaseLocks_kept t).only.regs).resolve_left Bool.false_ne_true k (fun h => absurd h Bool.false_ne_true)

theorem State.respond_kept (s : State) (t : Nat) (st : CplStatus) : Kept { hce := true, out := true, xbr := true, pmu := true, moved := true, rfx := true } s (s.respond t st) :=
  Kept.respond _ _ (Kept.refl s) (hHce := rfl) (hOut := rfl) (hXbr := rfl) (hPmu := rfl) (hMoved := rfl) (hRfx := rfl)
@[simp] theorem State.respond_rfu (s : State) (t : Nat) (st : CplStatus) : (s.respond t st).rfu = s.rfu := (s.respond_kept t st).only.rfu.resolve_left Bool.false_ne_true
@[simp] theorem State.respond_rge (s : State) (t : Nat) (st : CplStatus) : (s.respond t st).rge = s.rge := (s.respond_kept t st).only.rge.resolve_left Bool.false_ne_true
@[simp] theorem State.respond_snt (s : State) (t : Nat) (st : CplStatus) : (s.respond t st).snt = s.snt := (s.respond_kept t st).only.snt.resolve_left Bool.false_ne_true
@[simp] theorem State.respond_tk (s : State) (t : Nat) (st : CplStatus) : (s.respond t st).tk = s.tk := (s.respond_kept t st).only.tk.resolve_left Bool.false_ne_true
@[simp] theorem State.respond_vsm (s : State) (t : Nat) (st : CplStatus) : (s.respond t st).vsm = s.vsm := (s.respond_kept t st).only.vsm.resolve_left Bool.false_ne_true
@[simp] theorem State.respond_kvt (s : State) (t : Nat) (st : CplStatus) : (s.respond t st).kvt = s.kvt := (s.respond_kept t st).only.kvt.resolve_left Bool.false_ne_true
@[simp] theorem State.respond_mbx (s : State) (t : Nat) (st : CplStatus) : (s.respond t st).mbx = s.mbx := (s.respond_kept t st).only.mbx.resolve_left Bool.false_ne_true
@[simp] theorem State.respond_bay (s : State) (t : Nat) (st : CplStatus) : (s.respond t st).bay = s.bay := (s.respond_kept t st).only.bay.resolve_left Bool.false_ne_true
@[simp] theorem State.respond_props (s : State) (t : Nat) (st : CplStatus) : (s.respond t st).props = s.props := (s.respond_kept t st).only.props.resolve_left Bool.false_ne_true
@[simp] theorem State.respond_ppc (s : State) (t : Nat) (st : CplStatus) : (s.respond t st).ppc = s.ppc := (s.respond_kept t st).only.ppc.resolve_left Bool.false_ne_true
@[simp] theorem State.respond_sep (s : State) (t : Nat) (st : CplStatus) : (s.respond t st).sep = s.sep := (s.respond_kept t st).only.sep.resolve_left Bool.false_ne_true
@[simp] theorem State.respond_pwr (s : State) (t : Nat) (st : CplStatus) : (s.respond t st).pwr = s.pwr := (s.respond_kept t st).only.pwr.resolve_left Bool.false_ne_true
@[simp] theorem State.respond_lcu (s : State) (t : Nat) (st : CplStatus) : (s.respond t st).lcu = s.lcu := (s.respond_kept t st).only.lcu.resolve_left Bool.false_ne_true
@[simp] theorem State.respond_tst (s : State) (t : Nat) (st : CplStatus) : (s.respond t st).tst = s.tst := (s.respond_kept t st).only.tst.resolve_left Bool.false_ne_true
@[simp] theorem State.respond_mac (s : State) (t : Nat) (st : CplStatus) : (s.respond t st).mac = s.mac := (s.respond_kept t st).only.mac.resolve_left Bool.false_ne_true
@[simp] theorem State.respond_now (s : State) (t : Nat) (st : CplStatus) : (s.respond t st).now = s.now := (s.respond_kept t st).same.now
@[simp] theorem State.respond_part (s : State) (t : Nat) (st : CplStatus) : (s.respond t st).part = s.part := (s.respond_kept t st).same.part
@[simp] theorem State.respond_slot (s : State) (t : Nat) (st : CplStatus) : (s.respond t st).slot = s.slot := (s.respond_kept t st).same.slot
@[simp] theorem State.respond_uid (s : State) (t : Nat) (st : CplStatus) : (s.respond t st).uid = s.uid := (s.respond_kept t st).same.uid
@[simp] theorem State.respond_pending (s : State) (t : Nat) (st : CplStatus) : (s.respond t st).pending = s.pending := (s.respond_kept t st).pending
@[simp] theorem State.respond_freeCtr (s : State) (t : Nat) (st : CplStatus) : (s.respond t st).freeCtr = s.freeCtr := (s.respond_kept t st).only.free.resolve_left Bool.false_ne_true

theorem State.leaveGroup_kept (s : State) (t : Nat) : Kept { rfu := true } s (s.leaveGroup t) :=
  Kept.leaveGroup _ (Kept.refl s) (hRfu := rfl)
@[simp] theorem State.leaveGroup_hce (s : State) (t : Nat) : (s.leaveGroup t).hce = s.hce := (s.leaveGroup_kept t).only.hce.resolve_left Bool.false_ne_true
@[simp] theorem State.leaveGroup_rge (s : State) (t : Nat) : (s.leaveGroup t).rge = s.rge := (s.leaveGroup_kept t).only.rge.resolve_left Bool.false_ne_true
@[simp] theorem State.leaveGroup_snt (s : State) (t : Nat) : (s.leaveGroup t).snt = s.snt := (s.leaveGroup_kept t).only.snt.resolve_left Bool.false_ne_true
@[simp] theorem State.leaveGroup_rfx (s : State) (t : Nat) : (s.leaveGroup t).rfx = s.rfx := (s.leaveGroup_kept t).only.rfx.resolve_left Bool.false_ne_true
@[simp] theorem State.leaveGroup_tk (s : State) (t : Nat) : (s.leaveGroup t).tk = s.tk := (s.leaveGroup_kept t).only.tk.resolve_left Bool.false_ne_true
@[simp] theorem State.leaveGroup_vsm (s : State) (t : Nat) : (s.leaveGroup t).vsm = s.vsm := (s.leaveGroup_kept t).only.vsm.resolve_left Bool.false_ne_true
@[simp] theorem State.leaveGroup_kvt (s : State) (t : Nat) : (s.leaveGroup t).kvt = s.kvt := (s.leaveGroup_kept t).only.kvt.resolve_left Bool.false_ne_true
@[simp] theorem State.leaveGroup_mbx (s : State) (t : Nat) : (s.leaveGroup t).mbx = s.mbx := (s.leaveGroup_kept t).only.mbx.resolve_left Bool.false_ne_true
@[simp] theorem State.leaveGroup_bay (s : State) (t : Nat) : (s.leaveGroup t).bay = s.bay := (s.leaveGroup_kept t).only.bay.resolve_left Bool.false_ne_true
@[simp] theorem State.leaveGroup_props (s : State) (t : Nat) : (s.leaveGroup t).props = s.props := (s.leaveGroup_kept t).only.props.resolve_left Bool.false_ne_true
@[simp] theorem State.leaveGroup_ppc (s : State) (t : Nat) : (s.leaveGroup t).ppc = s.ppc := (s.leaveGroup_kept t).only.ppc.resolve_left Bool.false_ne_true
@[simp] theorem State.leaveGroup_xbr (s : State) (t : Nat) : (s.leaveGroup t).xbr = s.xbr := (s.leaveGroup_kept t).only.xbr.resolve_left Bool.false_ne_true
@[simp] theorem State.leaveGroup_sep (s : State) (t : Nat) : (s.leaveGroup t).sep = s.sep := (s.leaveGroup_kept t).only.sep.resolve_left Bool.false_ne_true
@[simp] theorem State.leaveGroup_pwr (s : State) (t : Nat) : (s.leaveGroup t).pwr = s.pwr := (s.leaveGroup_kept t).only.pwr.resolve_left Bool.false_ne_true
@[simp] theorem State.leaveGroup_lcu (s : State) (t : Nat) : (s.leaveGroup t).lcu = s.lcu := (s.leaveGroup_kept t).only.lcu.resolve_left Bool.false_ne_true
@[simp] theorem State.leaveGroup_pmu (s : State) (t : Nat) : (s.leaveGroup t).pmu = s.pmu := (s.leaveGroup_kept t).only.pmu.resolve_left Bool.false_ne_true
@[simp] theorem State.leaveGroup_tst (s : State) (t : Nat) : (s.leaveGroup t).tst = s.tst := (s.leaveGroup_kept t).only.tst.resolve_left Bool.false_ne_true
@[simp] theorem State.leaveGroup_mac (s : State) (t : Nat) : (s.leaveGroup t).mac = s.mac := (s.leaveGroup_kept t).only.mac.resolve_left Bool.false_ne_true
@[simp] theorem State.leaveGroup_now (s : State) (t : Nat) : (s.leaveGroup t).now = s.now := (s.leaveGroup_kept t).same.now
@[simp] theorem State.leaveGroup_part (s : State) (t : Nat) : (s.leaveGroup t).part = s.part := (s.leaveGroup_kept t).same.part
@[simp] theorem State.leaveGroup_slot (s : State) (t : Nat) : (s.leaveGroup t).slot = s.slot := (s.leaveGroup_kept t).same.slot
@[simp] theorem State.leaveGroup_uid (s : State) (t : Nat) : (s.leaveGroup t).uid = s.uid := (s.leaveGroup_kept t).same.uid
@[simp] theorem State.leaveGroup_pending (s : State) (t : Nat) : (s.leaveGroup t).pending = s.pending := (s.leaveGroup_kept t).pending
@[simp] theorem State.leaveGroup_out (s : State) (t : Nat) : (s.leaveGroup t).out = s.out := (s.leaveGroup_kept t).only.out.resolve_left Bool.false_ne_true
@[simp] theorem State.leaveGroup_freeCtr (s : State) (t : Nat) : (s.leaveGroup t).freeCtr = s.freeCtr := (s.leaveGroup_kept t).only.free.resolve_left Bool.false_ne_true
@[simp] theorem State.leaveGroup_reg (s : State) (t : Nat) (k : Nat) : (s.leaveGroup t).reg k = s.reg k := ((s.leaveGroup_kept t).only.regs).resolve_left Bool.false_ne_true k (fun h => absurd h Bool.false_ne_true)

theorem State.freeTag_kept (s : State) (t : Nat) : Kept { hce := true, rfu := true, out := true, xbr := true, pmu := true, moved := true, rfx := true } s (s.freeTag t) :=
  Kept.freeTag _ (Kept.refl s) (hHce := rfl) (hRfu := rfl) (hOut := rfl) (hXbr := rfl) (hPmu := rfl) (hMoved := rfl) (hRfx := rfl)
@[simp] theorem State.freeTag_rge (s : State) (t : Nat) : (s.freeTag t).rge = s.rge := (s.freeTag_kept t).only.rge.resolve_left Bool.false_ne_true
@[simp] theorem State.freeTag_snt (s : State) (t : Nat) : (s.freeTag t).snt = s.snt := (s.freeTag_kept t).only.snt.resolve_left Bool.false_ne_true
@[simp] theorem State.freeTag_tk (s : State) (t : Nat) : (s.freeTag t).tk = s.tk := (s.freeTag_kept t).only.tk.resolve_left Bool.false_ne_true
@[simp] theorem State.freeTag_vsm (s : State) (t : Nat) : (s.freeTag t).vsm = s.vsm := (s.freeTag_kept t).only.vsm.resolve_left Bool.false_ne_true
@[simp] theorem State.freeTag_kvt (s : State) (t : Nat) : (s.freeTag t).kvt = s.kvt := (s.freeTag_kept t).only.kvt.resolve_left Bool.false_ne_true
@[simp] theorem State.freeTag_mbx (s : State) (t : Nat) : (s.freeTag t).mbx = s.mbx := (s.freeTag_kept t).only.mbx.resolve_left Bool.false_ne_true
@[simp] theorem State.freeTag_bay (s : State) (t : Nat) : (s.freeTag t).bay = s.bay := (s.freeTag_kept t).only.bay.resolve_left Bool.false_ne_true
@[simp] theorem State.freeTag_props (s : State) (t : Nat) : (s.freeTag t).props = s.props := (s.freeTag_kept t).only.props.resolve_left Bool.false_ne_true
@[simp] theorem State.freeTag_ppc (s : State) (t : Nat) : (s.freeTag t).ppc = s.ppc := (s.freeTag_kept t).only.ppc.resolve_left Bool.false_ne_true
@[simp] theorem State.freeTag_sep (s : State) (t : Nat) : (s.freeTag t).sep = s.sep := (s.freeTag_kept t).only.sep.resolve_left Bool.false_ne_true
@[simp] theorem State.freeTag_pwr (s : State) (t : Nat) : (s.freeTag t).pwr = s.pwr := (s.freeTag_kept t).only.pwr.resolve_left Bool.false_ne_true
@[simp] theorem State.freeTag_lcu (s : State) (t : Nat) : (s.freeTag t).lcu = s.lcu := (s.freeTag_kept t).only.lcu.resolve_left Bool.false_ne_true
@[simp] theorem State.freeTag_tst (s : State) (t : Nat) : (s.freeTag t).tst = s.tst := (s.freeTag_kept t).only.tst.resolve_left Bool.false_ne_true
@[simp] theorem State.freeTag_mac (s : State) (t : Nat) : (s.freeTag t).mac = s.mac := (s.freeTag_kept t).only.mac.resolve_left Bool.false_ne_true
@[simp] theorem State.freeTag_now (s : State) (t : Nat) : (s.freeTag t).now = s.now := (s.freeTag_kept t).same.now
@[simp] theorem State.freeTag_part (s : State) (t : Nat) : (s.freeTag t).part = s.part := (s.freeTag_kept t).same.part
@[simp] theorem State.freeTag_slot (s : State) (t : Nat) : (s.freeTag t).slot = s.slot := (s.freeTag_kept t).same.slot
@[simp] theorem State.freeTag_uid (s : State) (t : Nat) : (s.freeTag t).uid = s.uid := (s.freeTag_kept t).same.uid
@[simp] theorem State.freeTag_pending (s : State) (t : Nat) : (s.freeTag t).pending = s.pending := (s.freeTag_kept t).pending
@[simp] theorem State.freeTag_freeCtr (s : State) (t : Nat) : (s.freeTag t).freeCtr = s.freeCtr := (s.freeTag_kept t).only.free.resolve_left Bool.false_ne_true

theorem State.groupDone_kept (s : State) (t : Nat) : Kept { rfu := true } s (s.groupDone t) :=
  Kept.groupDone _ (Kept.refl s) (hRfu := rfl)
@[simp] theorem State.groupDone_hce (s : State) (t : Nat) : (s.groupDone t).hce = s.hce := (s.groupDone_kept t).only.hce.resolve_left Bool.false_ne_true
@[simp] theorem State.groupDone_rge (s : State) (t : Nat) : (s.groupDone t).rge = s.rge := (s.groupDone_kept t).only.rge.resolve_left Bool.false_ne_true
@[simp] theorem State.groupDone_snt (s : State) (t : Nat) : (s.groupDone t).snt = s.snt := (s.groupDone_kept t).only.snt.resolve_left Bool.false_ne_true
@[simp] theorem State.groupDone_rfx (s : State) (t : Nat) : (s.groupDone t).rfx = s.rfx := (s.groupDone_kept t).only.rfx.resolve_left Bool.false_ne_true
@[simp] theorem State.groupDone_tk (s : State) (t : Nat) : (s.groupDone t).tk = s.tk := (s.groupDone_kept t).only.tk.resolve_left Bool.false_ne_true
@[simp] theorem State.groupDone_vsm (s : State) (t : Nat) : (s.groupDone t).vsm = s.vsm := (s.groupDone_kept t).only.vsm.resolve_left Bool.false_ne_true
@[simp] theorem State.groupDone_kvt (s : State) (t : Nat) : (s.groupDone t).kvt = s.kvt := (s.groupDone_kept t).only.kvt.resolve_left Bool.false_ne_true
@[simp] theorem State.groupDone_mbx (s : State) (t : Nat) : (s.groupDone t).mbx = s.mbx := (s.groupDone_kept t).only.mbx.resolve_left Bool.false_ne_true
@[simp] theorem State.groupDone_bay (s : State) (t : Nat) : (s.groupDone t).bay = s.bay := (s.groupDone_kept t).only.bay.resolve_left Bool.false_ne_true
@[simp] theorem State.groupDone_props (s : State) (t : Nat) : (s.groupDone t).props = s.props := (s.groupDone_kept t).only.props.resolve_left Bool.false_ne_true
@[simp] theorem State.groupDone_ppc (s : State) (t : Nat) : (s.groupDone t).ppc = s.ppc := (s.groupDone_kept t).only.ppc.resolve_left Bool.false_ne_true
@[simp] theorem State.groupDone_xbr (s : State) (t : Nat) : (s.groupDone t).xbr = s.xbr := (s.groupDone_kept t).only.xbr.resolve_left Bool.false_ne_true
@[simp] theorem State.groupDone_sep (s : State) (t : Nat) : (s.groupDone t).sep = s.sep := (s.groupDone_kept t).only.sep.resolve_left Bool.false_ne_true
@[simp] theorem State.groupDone_pwr (s : State) (t : Nat) : (s.groupDone t).pwr = s.pwr := (s.groupDone_kept t).only.pwr.resolve_left Bool.false_ne_true
@[simp] theorem State.groupDone_lcu (s : State) (t : Nat) : (s.groupDone t).lcu = s.lcu := (s.groupDone_kept t).only.lcu.resolve_left Bool.false_ne_true
@[simp] theorem State.groupDone_pmu (s : State) (t : Nat) : (s.groupDone t).pmu = s.pmu := (s.groupDone_kept t).only.pmu.resolve_left Bool.false_ne_true
@[simp] theorem State.groupDone_tst (s : State) (t : Nat) : (s.groupDone t).tst = s.tst := (s.groupDone_kept t).only.tst.resolve_left Bool.false_ne_true
@[simp] theorem State.groupDone_mac (s : State) (t : Nat) : (s.groupDone t).mac = s.mac := (s.groupDone_kept t).only.mac.resolve_left Bool.false_ne_true
@[simp] theorem State.groupDone_now (s : State) (t : Nat) : (s.groupDone t).now = s.now := (s.groupDone_kept t).same.now
@[simp] theorem State.groupDone_part (s : State) (t : Nat) : (s.groupDone t).part = s.part := (s.groupDone_kept t).same.part
@[simp] theorem State.groupDone_slot (s : State) (t : Nat) : (s.groupDone t).slot = s.slot := (s.groupDone_kept t).same.slot
@[simp] theorem State.groupDone_uid (s : State) (t : Nat) : (s.groupDone t).uid = s.uid := (s.groupDone_kept t).same.uid
@[simp] theorem State.groupDone_pending (s : State) (t : Nat) : (s.groupDone t).pending = s.pending := (s.groupDone_kept t).pending
@[simp] theorem State.groupDone_out (s : State) (t : Nat) : (s.groupDone t).out = s.out := (s.groupDone_kept t).only.out.resolve_left Bool.false_ne_true
@[simp] theorem State.groupDone_freeCtr (s : State) (t : Nat) : (s.groupDone t).freeCtr = s.freeCtr := (s.groupDone_kept t).only.free.resolve_left Bool.false_ne_true
@[simp] theorem State.groupDone_reg (s : State) (t : Nat) (k : Nat) : (s.groupDone t).reg k = s.reg k := ((s.groupDone_kept t).only.regs).resolve_left Bool.false_ne_true k (fun h => absurd h Bool.false_ne_true)

theorem State.finishAborts_kept (s : State) (c : Nat) (t : Nat) : Kept { hce := true, out := true, xbr := true, pmu := true, moved := true, rfx := true } s (s.finishAborts c t) :=
  Kept.finishAborts _ _ (Kept.refl s) (hHce := rfl) (hOut := rfl) (hXbr := rfl) (hPmu := rfl) (hMoved := rfl) (hRfx := rfl)
@[simp] theorem State.finishAborts_rfu (s : State) (c : Nat) (t : Nat) : (s.finishAborts c t).rfu = s.rfu := (s.finishAborts_kept c t).only.rfu.resolve_left Bool.false_ne_true
@[simp] theorem State.finishAborts_rge (s : State) (c : Nat) (t : Nat) : (s.finishAborts c t).rge = s.rge := (s.finishAborts_kept c t).only.rge.resolve_left Bool.false_ne_true
@[simp] theorem State.finishAborts_snt (s : State) (c : Nat) (t : Nat) : (s.finishAborts c t).snt = s.snt := (s.finishAborts_kept c t).only.snt.resolve_left Bool.false_ne_true
@[simp] theorem State.finishAborts_tk (s : State) (c : Nat) (t : Nat) : (s.finishAborts c t).tk = s.tk := (s.finishAborts_kept c t).only.tk.resolve_left Bool.false_ne_true
@[simp] theorem State.finishAborts_vsm (s : State) (c : Nat) (t : Nat) : (s.finishAborts c t).vsm = s.vsm := (s.finishAborts_kept c t).only.vsm.resolve_left Bool.false_ne_true
@[simp] theorem State.finishAborts_kvt (s : State) (c : Nat) (t : Nat) : (s.finishAborts c t).kvt = s.kvt := (s.finishAborts_kept c t).only.kvt.resolve_left Bool.false_ne_true
@[simp] theorem State.finishAborts_mbx (s : State) (c : Nat) (t : Nat) : (s.finishAborts c t).mbx = s.mbx := (s.finishAborts_kept c t).only.mbx.resolve_left Bool.false_ne_true
@[simp] theorem State.finishAborts_bay (s : State) (c : Nat) (t : Nat) : (s.finishAborts c t).bay = s.bay := (s.finishAborts_kept c t).only.bay.resolve_left Bool.false_ne_true
@[simp] theorem State.finishAborts_props (s : State) (c : Nat) (t : Nat) : (s.finishAborts c t).props = s.props := (s.finishAborts_kept c t).only.props.resolve_left Bool.false_ne_true
@[simp] theorem State.finishAborts_ppc (s : State) (c : Nat) (t : Nat) : (s.finishAborts c t).ppc = s.ppc := (s.finishAborts_kept c t).only.ppc.resolve_left Bool.false_ne_true
@[simp] theorem State.finishAborts_sep (s : State) (c : Nat) (t : Nat) : (s.finishAborts c t).sep = s.sep := (s.finishAborts_kept c t).only.sep.resolve_left Bool.false_ne_true
@[simp] theorem State.finishAborts_pwr (s : State) (c : Nat) (t : Nat) : (s.finishAborts c t).pwr = s.pwr := (s.finishAborts_kept c t).only.pwr.resolve_left Bool.false_ne_true
@[simp] theorem State.finishAborts_lcu (s : State) (c : Nat) (t : Nat) : (s.finishAborts c t).lcu = s.lcu := (s.finishAborts_kept c t).only.lcu.resolve_left Bool.false_ne_true
@[simp] theorem State.finishAborts_tst (s : State) (c : Nat) (t : Nat) : (s.finishAborts c t).tst = s.tst := (s.finishAborts_kept c t).only.tst.resolve_left Bool.false_ne_true
@[simp] theorem State.finishAborts_mac (s : State) (c : Nat) (t : Nat) : (s.finishAborts c t).mac = s.mac := (s.finishAborts_kept c t).only.mac.resolve_left Bool.false_ne_true
@[simp] theorem State.finishAborts_now (s : State) (c : Nat) (t : Nat) : (s.finishAborts c t).now = s.now := (s.finishAborts_kept c t).same.now
@[simp] theorem State.finishAborts_part (s : State) (c : Nat) (t : Nat) : (s.finishAborts c t).part = s.part := (s.finishAborts_kept c t).same.part
@[simp] theorem State.finishAborts_slot (s : State) (c : Nat) (t : Nat) : (s.finishAborts c t).slot = s.slot := (s.finishAborts_kept c t).same.slot
@[simp] theorem State.finishAborts_uid (s : State) (c : Nat) (t : Nat) : (s.finishAborts c t).uid = s.uid := (s.finishAborts_kept c t).same.uid
@[simp] theorem State.finishAborts_pending (s : State) (c : Nat) (t : Nat) : (s.finishAborts c t).pending = s.pending := (s.finishAborts_kept c t).pending
@[simp] theorem State.finishAborts_freeCtr (s : State) (c : Nat) (t : Nat) : (s.finishAborts c t).freeCtr = s.freeCtr := (s.finishAborts_kept c t).only.free.resolve_left Bool.false_ne_true

theorem State.handOff_kept (s : State) (r : TagRec) (st : CplStatus) : Kept { rfu := true, xbr := true, moved := true, hce := true, out := true, pmu := true, rfx := true } s (s.handOff r st) :=
  Kept.handOff _ _ (Kept.refl s) (hRfu := rfl) (hXbr := rfl) (hMoved := rfl) (hHce := rfl) (hOut := rfl) (hPmu := rfl) (hRfx := rfl)
@[simp] theorem State.handOff_rge (s : State) (r : TagRec) (st : CplStatus) : (s.handOff r st).rge = s.rge := (s.handOff_kept r st).only.rge.resolve_left Bool.false_ne_true
@[simp] theorem State.handOff_snt (s : State) (r : TagRec) (st : CplStatus) : (s.handOff r st).snt = s.snt := (s.handOff_kept r st).only.snt.resolve_left Bool.false_ne_true
@[simp] theorem State.handOff_tk (s : State) (r : TagRec) (st : CplStatus) : (s.handOff r st).tk = s.tk := (s.handOff_kept r st).only.tk.resolve_left Bool.false_ne_true
@[simp] theorem State.handOff_vsm (s : State) (r : TagRec) (st : CplStatus) : (s.handOff r st).vsm = s.vsm := (s.handOff_kept r st).only.vsm.resolve_left Bool.false_ne_true
@[simp] theorem State.handOff_kvt (s : State) (r : TagRec) (st : CplStatus) : (s.handOff r st).kvt = s.kvt := (s.handOff_kept r st).only.kvt.resolve_left Bool.false_ne_true
@[simp] theorem State.handOff_mbx (s : State) (r : TagRec) (st : CplStatus) : (s.handOff r st).mbx = s.mbx := (s.handOff_kept r st).only.mbx.resolve_left Bool.false_ne_true
@[simp] theorem State.handOff_bay (s : State) (r : TagRec) (st : CplStatus) : (s.handOff r st).bay = s.bay := (s.handOff_kept r st).only.bay.resolve_left Bool.false_ne_true
@[simp] theorem State.handOff_props (s : State) (r : TagRec) (st : CplStatus) : (s.handOff r st).props = s.props := (s.handOff_kept r st).only.props.resolve_left Bool.false_ne_true
@[simp] theorem State.handOff_ppc (s : State) (r : TagRec) (st : CplStatus) : (s.handOff r st).ppc = s.ppc := (s.handOff_kept r st).only.ppc.resolve_left Bool.false_ne_true
@[simp] theorem State.handOff_sep (s : State) (r : TagRec) (st : CplStatus) : (s.handOff r st).sep = s.sep := (s.handOff_kept r st).only.sep.resolve_left Bool.false_ne_true
@[simp] theorem State.handOff_pwr (s : State) (r : TagRec) (st : CplStatus) : (s.handOff r st).pwr = s.pwr := (s.handOff_kept r st).only.pwr.resolve_left Bool.false_ne_true
@[simp] theorem State.handOff_lcu (s : State) (r : TagRec) (st : CplStatus) : (s.handOff r st).lcu = s.lcu := (s.handOff_kept r st).only.lcu.resolve_left Bool.false_ne_true
@[simp] theorem State.handOff_tst (s : State) (r : TagRec) (st : CplStatus) : (s.handOff r st).tst = s.tst := (s.handOff_kept r st).only.tst.resolve_left Bool.false_ne_true
@[simp] theorem State.handOff_mac (s : State) (r : TagRec) (st : CplStatus) : (s.handOff r st).mac = s.mac := (s.handOff_kept r st).only.mac.resolve_left Bool.false_ne_true
@[simp] theorem State.handOff_now (s : State) (r : TagRec) (st : CplStatus) : (s.handOff r st).now = s.now := (s.handOff_kept r st).same.now
@[simp] theorem State.handOff_part (s : State) (r : TagRec) (st : CplStatus) : (s.handOff r st).part = s.part := (s.handOff_kept r st).same.part
@[simp] theorem State.handOff_slot (s : State) (r : TagRec) (st : CplStatus) : (s.handOff r st).slot = s.slot := (s.handOff_kept r st).same.slot
@[simp] theorem State.handOff_uid (s : State) (r : TagRec) (st : CplStatus) : (s.handOff r st).uid = s.uid := (s.handOff_kept r st).same.uid
@[simp] theorem State.handOff_pending (s : State) (r : TagRec) (st : CplStatus) : (s.handOff r st).pending = s.pending := (s.handOff_kept r st).pending
@[simp] theorem State.handOff_freeCtr (s : State) (r : TagRec) (st : CplStatus) : (s.handOff r st).freeCtr = s.freeCtr := (s.handOff_kept r st).only.free.resolve_left Bool.false_ne_true

theorem State.squash_kept (s : State) (t : Nat) (st : CplStatus) (post : Bool) : Kept { rfu := true, xbr := true, moved := true, hce := true, out := true, pmu := true, rfx := true } s (s.squash t st post) :=
  Kept.squash _ _ _ (Kept.refl s) (hRfu := rfl) (hXbr := rfl) (hMoved := rfl) (hHce := rfl) (hOut := rfl) (hPmu := rfl) (hRfx := rfl)
@[simp] theorem State.squash_rge (s : State) (t : Nat) (st : CplStatus) (post : Bool) : (s.squash t st post).rge = s.rge := (s.squash_kept t st post).only.rge.resolve_left Bool.false_ne_true
@[simp] theorem State.squash_snt (s : State) (t : Nat) (st : CplStatus) (post : Bool) : (s.squash t st post).snt = s.snt := (s.squash_kept t st post).only.snt.resolve_left Bool.false_ne_true
@[simp] theorem State.squash_tk (s : State) (t : Nat) (st : CplStatus) (post : Bool) : (s.squash t st post).tk = s.tk := (s.squash_kept t st post).only.tk.resolve_left Bool.false_ne_true
@[simp] theorem State.squash_vsm (s : State) (t : Nat) (st : CplStatus) (post : Bool) : (s.squash t st post).vsm = s.vsm := (s.squash_kept t st post).only.vsm.resolve_left Bool.false_ne_true
@[simp] theorem State.squash_kvt (s : State) (t : Nat) (st : CplStatus) (post : Bool) : (s.squash t st post).kvt = s.kvt := (s.squash_kept t st post).only.kvt.resolve_left Bool.false_ne_true
@[simp] theorem State.squash_mbx (s : State) (t : Nat) (st : CplStatus) (post : Bool) : (s.squash t st post).mbx = s.mbx := (s.squash_kept t st post).only.mbx.resolve_left Bool.false_ne_true
@[simp] theorem State.squash_bay (s : State) (t : Nat) (st : CplStatus) (post : Bool) : (s.squash t st post).bay = s.bay := (s.squash_kept t st post).only.bay.resolve_left Bool.false_ne_true
@[simp] theorem State.squash_props (s : State) (t : Nat) (st : CplStatus) (post : Bool) : (s.squash t st post).props = s.props := (s.squash_kept t st post).only.props.resolve_left Bool.false_ne_true
@[simp] theorem State.squash_ppc (s : State) (t : Nat) (st : CplStatus) (post : Bool) : (s.squash t st post).ppc = s.ppc := (s.squash_kept t st post).only.ppc.resolve_left Bool.false_ne_true
@[simp] theorem State.squash_sep (s : State) (t : Nat) (st : CplStatus) (post : Bool) : (s.squash t st post).sep = s.sep := (s.squash_kept t st post).only.sep.resolve_left Bool.false_ne_true
@[simp] theorem State.squash_pwr (s : State) (t : Nat) (st : CplStatus) (post : Bool) : (s.squash t st post).pwr = s.pwr := (s.squash_kept t st post).only.pwr.resolve_left Bool.false_ne_true
@[simp] theorem State.squash_lcu (s : State) (t : Nat) (st : CplStatus) (post : Bool) : (s.squash t st post).lcu = s.lcu := (s.squash_kept t st post).only.lcu.resolve_left Bool.false_ne_true
@[simp] theorem State.squash_tst (s : State) (t : Nat) (st : CplStatus) (post : Bool) : (s.squash t st post).tst = s.tst := (s.squash_kept t st post).only.tst.resolve_left Bool.false_ne_true
@[simp] theorem State.squash_mac (s : State) (t : Nat) (st : CplStatus) (post : Bool) : (s.squash t st post).mac = s.mac := (s.squash_kept t st post).only.mac.resolve_left Bool.false_ne_true
@[simp] theorem State.squash_now (s : State) (t : Nat) (st : CplStatus) (post : Bool) : (s.squash t st post).now = s.now := (s.squash_kept t st post).same.now
@[simp] theorem State.squash_part (s : State) (t : Nat) (st : CplStatus) (post : Bool) : (s.squash t st post).part = s.part := (s.squash_kept t st post).same.part
@[simp] theorem State.squash_slot (s : State) (t : Nat) (st : CplStatus) (post : Bool) : (s.squash t st post).slot = s.slot := (s.squash_kept t st post).same.slot
@[simp] theorem State.squash_uid (s : State) (t : Nat) (st : CplStatus) (post : Bool) : (s.squash t st post).uid = s.uid := (s.squash_kept t st post).same.uid
@[simp] theorem State.squash_pending (s : State) (t : Nat) (st : CplStatus) (post : Bool) : (s.squash t st post).pending = s.pending := (s.squash_kept t st post).pending
@[simp] theorem State.squash_freeCtr (s : State) (t : Nat) (st : CplStatus) (post : Bool) : (s.squash t st post).freeCtr = s.freeCtr := (s.squash_kept t st post).only.free.resolve_left Bool.false_ne_true

theorem State.failTag_kept (s : State) (t : Nat) (st : CplStatus) : Kept { hce := true, rfu := true, out := true, xbr := true, pmu := true, moved := true, rfx := true } s (s.failTag t st) :=
  Kept.failTag _ _ (Kept.refl s) (hHce := rfl) (hRfu := rfl) (hOut := rfl) (hXbr := rfl) (hPmu := rfl) (hMoved := rfl) (hRfx := rfl)
@[simp] theorem State.failTag_rge (s : State) (t : Nat) (st : CplStatus) : (s.failTag t st).rge = s.rge := (s.failTag_kept t st).only.rge.resolve_left Bool.false_ne_true
@[simp] theorem State.failTag_snt (s : State) (t : Nat) (st : CplStatus) : (s.failTag t st).snt = s.snt := (s.failTag_kept t st).only.snt.resolve_left Bool.false_ne_true
@[simp] theorem State.failTag_tk (s : State) (t : Nat) (st : CplStatus) : (s.failTag t st).tk = s.tk := (s.failTag_kept t st).only.tk.resolve_left Bool.false_ne_true
@[simp] theorem State.failTag_vsm (s : State) (t : Nat) (st : CplStatus) : (s.failTag t st).vsm = s.vsm := (s.failTag_kept t st).only.vsm.resolve_left Bool.false_ne_true
@[simp] theorem State.failTag_kvt (s : State) (t : Nat) (st : CplStatus) : (s.failTag t st).kvt = s.kvt := (s.failTag_kept t st).only.kvt.resolve_left Bool.false_ne_true
@[simp] theorem State.failTag_mbx (s : State) (t : Nat) (st : CplStatus) : (s.failTag t st).mbx = s.mbx := (s.failTag_kept t st).only.mbx.resolve_left Bool.false_ne_true
@[simp] theorem State.failTag_bay (s : State) (t : Nat) (st : CplStatus) : (s.failTag t st).bay = s.bay := (s.failTag_kept t st).only.bay.resolve_left Bool.false_ne_true
@[simp] theorem State.failTag_props (s : State) (t : Nat) (st : CplStatus) : (s.failTag t st).props = s.props := (s.failTag_kept t st).only.props.resolve_left Bool.false_ne_true
@[simp] theorem State.failTag_ppc (s : State) (t : Nat) (st : CplStatus) : (s.failTag t st).ppc = s.ppc := (s.failTag_kept t st).only.ppc.resolve_left Bool.false_ne_true
@[simp] theorem State.failTag_sep (s : State) (t : Nat) (st : CplStatus) : (s.failTag t st).sep = s.sep := (s.failTag_kept t st).only.sep.resolve_left Bool.false_ne_true
@[simp] theorem State.failTag_pwr (s : State) (t : Nat) (st : CplStatus) : (s.failTag t st).pwr = s.pwr := (s.failTag_kept t st).only.pwr.resolve_left Bool.false_ne_true
@[simp] theorem State.failTag_lcu (s : State) (t : Nat) (st : CplStatus) : (s.failTag t st).lcu = s.lcu := (s.failTag_kept t st).only.lcu.resolve_left Bool.false_ne_true
@[simp] theorem State.failTag_tst (s : State) (t : Nat) (st : CplStatus) : (s.failTag t st).tst = s.tst := (s.failTag_kept t st).only.tst.resolve_left Bool.false_ne_true
@[simp] theorem State.failTag_mac (s : State) (t : Nat) (st : CplStatus) : (s.failTag t st).mac = s.mac := (s.failTag_kept t st).only.mac.resolve_left Bool.false_ne_true
@[simp] theorem State.failTag_now (s : State) (t : Nat) (st : CplStatus) : (s.failTag t st).now = s.now := (s.failTag_kept t st).same.now
@[simp] theorem State.failTag_part (s : State) (t : Nat) (st : CplStatus) : (s.failTag t st).part = s.part := (s.failTag_kept t st).same.part
@[simp] theorem State.failTag_slot (s : State) (t : Nat) (st : CplStatus) : (s.failTag t st).slot = s.slot := (s.failTag_kept t st).same.slot
@[simp] theorem State.failTag_uid (s : State) (t : Nat) (st : CplStatus) : (s.failTag t st).uid = s.uid := (s.failTag_kept t st).same.uid
@[simp] theorem State.failTag_pending (s : State) (t : Nat) (st : CplStatus) : (s.failTag t st).pending = s.pending := (s.failTag_kept t st).pending
@[simp] theorem State.failTag_freeCtr (s : State) (t : Nat) (st : CplStatus) : (s.failTag t st).freeCtr = s.freeCtr := (s.failTag_kept t st).only.free.resolve_left Bool.false_ne_true

theorem State.dropConn_kept (s : State) (c : Nat) : Kept { hce := true, kvt := true, out := true, xbr := true, pmu := true, moved := true, rfx := true } s (s.dropConn c) :=
  Kept.dropConn _ (Kept.refl s) (hHce := rfl) (hKvt := rfl) (hOut := rfl) (hXbr := rfl) (hPmu := rfl) (hMoved := rfl) (hRfx := rfl)
@[simp] theorem State.dropConn_rfu (s : State) (c : Nat) : (s.dropConn c).rfu = s.rfu := (s.dropConn_kept c).only.rfu.resolve_left Bool.false_ne_true
@[simp] theorem State.dropConn_rge (s : State) (c : Nat) : (s.dropConn c).rge = s.rge := (s.dropConn_kept c).only.rge.resolve_left Bool.false_ne_true
@[simp] theorem State.dropConn_snt (s : State) (c : Nat) : (s.dropConn c).snt = s.snt := (s.dropConn_kept c).only.snt.resolve_left Bool.false_ne_true
@[simp] theorem State.dropConn_tk (s : State) (c : Nat) : (s.dropConn c).tk = s.tk := (s.dropConn_kept c).only.tk.resolve_left Bool.false_ne_true
@[simp] theorem State.dropConn_vsm (s : State) (c : Nat) : (s.dropConn c).vsm = s.vsm := (s.dropConn_kept c).only.vsm.resolve_left Bool.false_ne_true
@[simp] theorem State.dropConn_mbx (s : State) (c : Nat) : (s.dropConn c).mbx = s.mbx := (s.dropConn_kept c).only.mbx.resolve_left Bool.false_ne_true
@[simp] theorem State.dropConn_bay (s : State) (c : Nat) : (s.dropConn c).bay = s.bay := (s.dropConn_kept c).only.bay.resolve_left Bool.false_ne_true
@[simp] theorem State.dropConn_props (s : State) (c : Nat) : (s.dropConn c).props = s.props := (s.dropConn_kept c).only.props.resolve_left Bool.false_ne_true
@[simp] theorem State.dropConn_ppc (s : State) (c : Nat) : (s.dropConn c).ppc = s.ppc := (s.dropConn_kept c).only.ppc.resolve_left Bool.false_ne_true
@[simp] theorem State.dropConn_sep (s : State) (c : Nat) : (s.dropConn c).sep = s.sep := (s.dropConn_kept c).only.sep.resolve_left Bool.false_ne_true
@[simp] theorem State.dropConn_pwr (s : State) (c : Nat) : (s.dropConn c).pwr = s.pwr := (s.dropConn_kept c).only.pwr.resolve_left Bool.false_ne_true
@[simp] theorem State.dropConn_lcu (s : State) (c : Nat) : (s.dropConn c).lcu = s.lcu := (s.dropConn_kept c).only.lcu.resolve_left Bool.false_ne_true
@[simp] theorem State.dropConn_tst (s : State) (c : Nat) : (s.dropConn c).tst = s.tst := (s.dropConn_kept c).only.tst.resolve_left Bool.false_ne_true
@[simp] theorem State.dropConn_mac (s : State) (c : Nat) : (s.dropConn c).mac = s.mac := (s.dropConn_kept c).only.mac.resolve_left Bool.false_ne_true
@[simp] theorem State.dropConn_now (s : State) (c : Nat) : (s.dropConn c).now = s.now := (s.dropConn_kept c).same.now
@[simp] theorem State.dropConn_part (s : State) (c : Nat) : (s.dropConn c).part = s.part := (s.dropConn_kept c).same.part
@[simp] theorem State.dropConn_slot (s : State) (c : Nat) : (s.dropConn c).slot = s.slot := (s.dropConn_kept c).same.slot
@[simp] theorem State.dropConn_uid (s : State) (c : Nat) : (s.dropConn c).uid = s.uid := (s.dropConn_kept c).same.uid
@[simp] theorem State.dropConn_pending (s : State) (c : Nat) : (s.dropConn c).pending = s.pending := (s.dropConn_kept c).pending
@[simp] theorem State.dropConn_freeCtr (s : State) (c : Nat) : (s.dropConn c).freeCtr = s.freeCtr := (s.dropConn_kept c).only.free.resolve_left Bool.false_ne_true

theorem State.closeConn_kept (s : State) (c : Nat) : Kept { hce := true, kvt := true, out := true, xbr := true, pmu := true, moved := true, rfx := true } s (s.closeConn c) :=
  Kept.closeConn _ (Kept.refl s) (hHce := rfl) (hKvt := rfl) (hOut := rfl) (hXbr := rfl) (hPmu := rfl) (hMoved := rfl) (hRfx := rfl)
@[simp] theorem State.closeConn_rfu (s : State) (c : Nat) : (s.closeConn c).rfu = s.rfu := (s.closeConn_kept c).only.rfu.resolve_left Bool.false_ne_true
@[simp] theorem State.closeConn_rge (s : State) (c : Nat) : (s.closeConn c).rge = s.rge := (s.closeConn_kept c).only.rge.resolve_left Bool.false_ne_true
@[simp] theorem State.closeConn_snt (s : State) (c : Nat) : (s.closeConn c).snt = s.snt := (s.closeConn_kept c).only.snt.resolve_left Bool.false_ne_true
@[simp] theorem State.closeConn_tk (s : State) (c : Nat) : (s.closeConn c).tk = s.tk := (s.closeConn_kept c).only.tk.resolve_left Bool.false_ne_true
@[simp] theorem State.closeConn_vsm (s : State) (c : Nat) : (s.closeConn c).vsm = s.vsm := (s.closeConn_kept c).only.vsm.resolve_left Bool.false_ne_true
@[simp] theorem State.closeConn_mbx (s : State) (c : Nat) : (s.closeConn c).mbx = s.mbx := (s.closeConn_kept c).only.mbx.resolve_left Bool.false_ne_true
@[simp] theorem State.closeConn_bay (s : State) (c : Nat) : (s.closeConn c).bay = s.bay := (s.closeConn_kept c).only.bay.resolve_left Bool.false_ne_true
@[simp] theorem State.closeConn_props (s : State) (c : Nat) : (s.closeConn c).props = s.props := (s.closeConn_kept c).only.props.resolve_left Bool.false_ne_true
@[simp] theorem State.closeConn_ppc (s : State) (c : Nat) : (s.closeConn c).ppc = s.ppc := (s.closeConn_kept c).only.ppc.resolve_left Bool.false_ne_true
@[simp] theorem State.closeConn_sep (s : State) (c : Nat) : (s.closeConn c).sep = s.sep := (s.closeConn_kept c).only.sep.resolve_left Bool.false_ne_true
@[simp] theorem State.closeConn_pwr (s : State) (c : Nat) : (s.closeConn c).pwr = s.pwr := (s.closeConn_kept c).only.pwr.resolve_left Bool.false_ne_true
@[simp] theorem State.closeConn_lcu (s : State) (c : Nat) : (s.closeConn c).lcu = s.lcu := (s.closeConn_kept c).only.lcu.resolve_left Bool.false_ne_true
@[simp] theorem State.closeConn_tst (s : State) (c : Nat) : (s.closeConn c).tst = s.tst := (s.closeConn_kept c).only.tst.resolve_left Bool.false_ne_true
@[simp] theorem State.closeConn_mac (s : State) (c : Nat) : (s.closeConn c).mac = s.mac := (s.closeConn_kept c).only.mac.resolve_left Bool.false_ne_true
@[simp] theorem State.closeConn_now (s : State) (c : Nat) : (s.closeConn c).now = s.now := (s.closeConn_kept c).same.now
@[simp] theorem State.closeConn_part (s : State) (c : Nat) : (s.closeConn c).part = s.part := (s.closeConn_kept c).same.part
@[simp] theorem State.closeConn_slot (s : State) (c : Nat) : (s.closeConn c).slot = s.slot := (s.closeConn_kept c).same.slot
@[simp] theorem State.closeConn_uid (s : State) (c : Nat) : (s.closeConn c).uid = s.uid := (s.closeConn_kept c).same.uid
@[simp] theorem State.closeConn_pending (s : State) (c : Nat) : (s.closeConn c).pending = s.pending := (s.closeConn_kept c).pending
@[simp] theorem State.closeConn_freeCtr (s : State) (c : Nat) : (s.closeConn c).freeCtr = s.freeCtr := (s.closeConn_kept c).only.free.resolve_left Bool.false_ne_true

theorem State.loseConn_kept (s : State) (id : Nat) : Kept { rfu := true, xbr := true, moved := true, hce := true, kvt := true, out := true, pmu := true, rfx := true } s (s.loseConn id) :=
  Kept.loseConn _ (Kept.refl s) (hRfu := rfl) (hXbr := rfl) (hMoved := rfl) (hHce := rfl) (hKvt := rfl) (hOut := rfl) (hPmu := rfl) (hRfx := rfl)
@[simp] theorem State.loseConn_rge (s : State) (id : Nat) : (s.loseConn id).rge = s.rge := (s.loseConn_kept id).only.rge.resolve_left Bool.false_ne_true
@[simp] theorem State.loseConn_snt (s : State) (id : Nat) : (s.loseConn id).snt = s.snt := (s.loseConn_kept id).only.snt.resolve_left Bool.false_ne_true
@[simp] theorem State.loseConn_tk (s : State) (id : Nat) : (s.loseConn id).tk = s.tk := (s.loseConn_kept id).only.tk.resolve_left Bool.false_ne_true
@[simp] theorem State.loseConn_vsm (s : State) (id : Nat) : (s.loseConn id).vsm = s.vsm := (s.loseConn_kept id).only.vsm.resolve_left Bool.false_ne_true
@[simp] theorem State.loseConn_mbx (s : State) (id : Nat) : (s.loseConn id).mbx = s.mbx := (s.loseConn_kept id).only.mbx.resolve_left Bool.false_ne_true
@[simp] theorem State.loseConn_bay (s : State) (id : Nat) : (s.loseConn id).bay = s.bay := (s.loseConn_kept id).only.bay.resolve_left Bool.false_ne_true
@[simp] theorem State.loseConn_props (s : State) (id : Nat) : (s.loseConn id).props = s.props := (s.loseConn_kept id).only.props.resolve_left Bool.false_ne_true
@[simp] theorem State.loseConn_ppc (s : State) (id : Nat) : (s.loseConn id).ppc = s.ppc := (s.loseConn_kept id).only.ppc.resolve_left Bool.false_ne_true
@[simp] theorem State.loseConn_sep (s : State) (id : Nat) : (s.loseConn id).sep = s.sep := (s.loseConn_kept id).only.sep.resolve_left Bool.false_ne_true
@[simp] theorem State.loseConn_pwr (s : State) (id : Nat) : (s.loseConn id).pwr = s.pwr := (s.loseConn_kept id).only.pwr.resolve_left Bool.false_ne_true
@[simp] theorem State.loseConn_lcu (s : State) (id : Nat) : (s.loseConn id).lcu = s.lcu := (s.loseConn_kept id).only.lcu.resolve_left Bool.false_ne_true
@[simp] theorem State.loseConn_tst (s : State) (id : Nat) : (s.loseConn id).tst = s.tst := (s.loseConn_kept id).only.tst.resolve_left Bool.false_ne_true
@[simp] theorem State.loseConn_mac (s : State) (id : Nat) : (s.loseConn id).mac = s.mac := (s.loseConn_kept id).only.mac.resolve_left Bool.false_ne_true
@[simp] theorem State.loseConn_now (s : State) (id : Nat) : (s.loseConn id).now = s.now := (s.loseConn_kept id).same.now
@[simp] theorem State.loseConn_part (s : State) (id : Nat) : (s.loseConn id).part = s.part := (s.loseConn_kept id).same.part
@[simp] theorem State.loseConn_slot (s : State) (id : Nat) : (s.loseConn id).slot = s.slot := (s.loseConn_kept id).same.slot
@[simp] theorem State.loseConn_uid (s : State) (id : Nat) : (s.loseConn id).uid = s.uid := (s.loseConn_kept id).same.uid
@[simp] theorem State.loseConn_pending (s : State) (id : Nat) : (s.loseConn id).pending = s.pending := (s.loseConn_kept id).pending
@[simp] theorem State.loseConn_freeCtr (s : State) (id : Nat) : (s.loseConn id).freeCtr = s.freeCtr := (s.loseConn_kept id).only.free.resolve_left Bool.false_ne_true

theorem State.beginReset_kept (s : State) (c : Nat) (disc : Option Nat) (ends : Bool) : Kept { hce := true, rfu := true, out := true, xbr := true, pmu := true, moved := true, rfx := true } s (s.beginReset c disc ends) :=
  Kept.beginReset _ _ _ (Kept.refl s) (hHce := rfl) (hRfu := rfl) (hOut := rfl) (hXbr := rfl) (hPmu := rfl) (hMoved := rfl) (hRfx := rfl)
@[simp] theorem State.beginReset_rge (s : State) (c : Nat) (disc : Option Nat) (ends : Bool) : (s.beginReset c disc ends).rge = s.rge := (s.beginReset_kept c disc ends).only.rge.resolve_left Bool.false_ne_true
@[simp] theorem State.beginReset_snt (s : State) (c : Nat) (disc : Option Nat) (ends : Bool) : (s.beginReset c disc ends).snt = s.snt := (s.beginReset_kept c disc ends).only.snt.resolve_left Bool.false_ne_true
@[simp] theorem State.beginReset_tk (s : State) (c : Nat) (disc : Option Nat) (ends : Bool) : (s.beginReset c disc ends).tk = s.tk := (s.beginReset_kept c disc ends).only.tk.resolve_left Bool.false_ne_true
@[simp] theorem State.beginReset_vsm (s : State) (c : Nat) (disc : Option Nat) (ends : Bool) : (s.beginReset c disc ends).vsm = s.vsm := (s.beginReset_kept c disc ends).only.vsm.resolve_left Bool.false_ne_true
@[simp] theorem State.beginReset_kvt (s : State) (c : Nat) (disc : Option Nat) (ends : Bool) : (s.beginReset c disc ends).kvt = s.kvt := (s.beginReset_kept c disc ends).only.kvt.resolve_left Bool.false_ne_true
@[simp] theorem State.beginReset_mbx (s : State) (c : Nat) (disc : Option Nat) (ends : Bool) : (s.beginReset c disc ends).mbx = s.mbx := (s.beginReset_kept c disc ends).only.mbx.resolve_left Bool.false_ne_true
@[simp] theorem State.beginReset_bay (s : State) (c : Nat) (disc : Option Nat) (ends : Bool) : (s.beginReset c disc ends).bay = s.bay := (s.beginReset_kept c disc ends).only.bay.resolve_left Bool.false_ne_true
@[simp] theorem State.beginReset_props (s : State) (c : Nat) (disc : Option Nat) (ends : Bool) : (s.beginReset c disc ends).props = s.props := (s.beginReset_kept c disc ends).only.props.resolve_left Bool.false_ne_true
@[simp] theorem State.beginReset_ppc (s : State) (c : Nat) (disc : Option Nat) (ends : Bool) : (s.beginReset c disc ends).ppc = s.ppc := (s.beginReset_kept c disc ends).only.ppc.resolve_left Bool.false_ne_true
@[simp] theorem State.beginReset_sep (s : State) (c : Nat) (disc : Option Nat) (ends : Bool) : (s.beginReset c disc ends).sep = s.sep := (s.beginReset_kept c disc ends).only.sep.resolve_left Bool.false_ne_true
@[simp] theorem State.beginReset_pwr (s : State) (c : Nat) (disc : Option Nat) (ends : Bool) : (s.beginReset c disc ends).pwr = s.pwr := (s.beginReset_kept c disc ends).only.pwr.resolve_left Bool.false_ne_true
@[simp] theorem State.beginReset_lcu (s : State) (c : Nat) (disc : Option Nat) (ends : Bool) : (s.beginReset c disc ends).lcu = s.lcu := (s.beginReset_kept c disc ends).only.lcu.resolve_left Bool.false_ne_true
@[simp] theorem State.beginReset_tst (s : State) (c : Nat) (disc : Option Nat) (ends : Bool) : (s.beginReset c disc ends).tst = s.tst := (s.beginReset_kept c disc ends).only.tst.resolve_left Bool.false_ne_true
@[simp] theorem State.beginReset_mac (s : State) (c : Nat) (disc : Option Nat) (ends : Bool) : (s.beginReset c disc ends).mac = s.mac := (s.beginReset_kept c disc ends).only.mac.resolve_left Bool.false_ne_true
@[simp] theorem State.beginReset_now (s : State) (c : Nat) (disc : Option Nat) (ends : Bool) : (s.beginReset c disc ends).now = s.now := (s.beginReset_kept c disc ends).same.now
@[simp] theorem State.beginReset_part (s : State) (c : Nat) (disc : Option Nat) (ends : Bool) : (s.beginReset c disc ends).part = s.part := (s.beginReset_kept c disc ends).same.part
@[simp] theorem State.beginReset_slot (s : State) (c : Nat) (disc : Option Nat) (ends : Bool) : (s.beginReset c disc ends).slot = s.slot := (s.beginReset_kept c disc ends).same.slot
@[simp] theorem State.beginReset_uid (s : State) (c : Nat) (disc : Option Nat) (ends : Bool) : (s.beginReset c disc ends).uid = s.uid := (s.beginReset_kept c disc ends).same.uid
@[simp] theorem State.beginReset_pending (s : State) (c : Nat) (disc : Option Nat) (ends : Bool) : (s.beginReset c disc ends).pending = s.pending := (s.beginReset_kept c disc ends).pending
@[simp] theorem State.beginReset_freeCtr (s : State) (c : Nat) (disc : Option Nat) (ends : Bool) : (s.beginReset c disc ends).freeCtr = s.freeCtr := (s.beginReset_kept c disc ends).only.free.resolve_left Bool.false_ne_true

theorem State.connCqe_kept (s : State) (conn : Nat) (cid : Nat) (q : Nat) (c : Nat) (st : CplStatus) (dw0 : Nat) : Kept { hce := true, xbr := true, out := true } s (s.connCqe conn cid q c st dw0) :=
  Kept.connCqe _ _ _ _ _ _ (Kept.refl s) (hHce := rfl) (hXbr := rfl) (hOut := rfl)
@[simp] theorem State.connCqe_rfu (s : State) (conn : Nat) (cid : Nat) (q : Nat) (c : Nat) (st : CplStatus) (dw0 : Nat) : (s.connCqe conn cid q c st dw0).rfu = s.rfu := (s.connCqe_kept conn cid q c st dw0).only.rfu.resolve_left Bool.false_ne_true
@[simp] theorem State.connCqe_rge (s : State) (conn : Nat) (cid : Nat) (q : Nat) (c : Nat) (st : CplStatus) (dw0 : Nat) : (s.connCqe conn cid q c st dw0).rge = s.rge := (s.connCqe_kept conn cid q c st dw0).only.rge.resolve_left Bool.false_ne_true
@[simp] theorem State.connCqe_snt (s : State) (conn : Nat) (cid : Nat) (q : Nat) (c : Nat) (st : CplStatus) (dw0 : Nat) : (s.connCqe conn cid q c st dw0).snt = s.snt := (s.connCqe_kept conn cid q c st dw0).only.snt.resolve_left Bool.false_ne_true
@[simp] theorem State.connCqe_rfx (s : State) (conn : Nat) (cid : Nat) (q : Nat) (c : Nat) (st : CplStatus) (dw0 : Nat) : (s.connCqe conn cid q c st dw0).rfx = s.rfx := (s.connCqe_kept conn cid q c st dw0).only.rfx.resolve_left Bool.false_ne_true
@[simp] theorem State.connCqe_tk (s : State) (conn : Nat) (cid : Nat) (q : Nat) (c : Nat) (st : CplStatus) (dw0 : Nat) : (s.connCqe conn cid q c st dw0).tk = s.tk := (s.connCqe_kept conn cid q c st dw0).only.tk.resolve_left Bool.false_ne_true
@[simp] theorem State.connCqe_vsm (s : State) (conn : Nat) (cid : Nat) (q : Nat) (c : Nat) (st : CplStatus) (dw0 : Nat) : (s.connCqe conn cid q c st dw0).vsm = s.vsm := (s.connCqe_kept conn cid q c st dw0).only.vsm.resolve_left Bool.false_ne_true
@[simp] theorem State.connCqe_kvt (s : State) (conn : Nat) (cid : Nat) (q : Nat) (c : Nat) (st : CplStatus) (dw0 : Nat) : (s.connCqe conn cid q c st dw0).kvt = s.kvt := (s.connCqe_kept conn cid q c st dw0).only.kvt.resolve_left Bool.false_ne_true
@[simp] theorem State.connCqe_mbx (s : State) (conn : Nat) (cid : Nat) (q : Nat) (c : Nat) (st : CplStatus) (dw0 : Nat) : (s.connCqe conn cid q c st dw0).mbx = s.mbx := (s.connCqe_kept conn cid q c st dw0).only.mbx.resolve_left Bool.false_ne_true
@[simp] theorem State.connCqe_bay (s : State) (conn : Nat) (cid : Nat) (q : Nat) (c : Nat) (st : CplStatus) (dw0 : Nat) : (s.connCqe conn cid q c st dw0).bay = s.bay := (s.connCqe_kept conn cid q c st dw0).only.bay.resolve_left Bool.false_ne_true
@[simp] theorem State.connCqe_props (s : State) (conn : Nat) (cid : Nat) (q : Nat) (c : Nat) (st : CplStatus) (dw0 : Nat) : (s.connCqe conn cid q c st dw0).props = s.props := (s.connCqe_kept conn cid q c st dw0).only.props.resolve_left Bool.false_ne_true
@[simp] theorem State.connCqe_ppc (s : State) (conn : Nat) (cid : Nat) (q : Nat) (c : Nat) (st : CplStatus) (dw0 : Nat) : (s.connCqe conn cid q c st dw0).ppc = s.ppc := (s.connCqe_kept conn cid q c st dw0).only.ppc.resolve_left Bool.false_ne_true
@[simp] theorem State.connCqe_sep (s : State) (conn : Nat) (cid : Nat) (q : Nat) (c : Nat) (st : CplStatus) (dw0 : Nat) : (s.connCqe conn cid q c st dw0).sep = s.sep := (s.connCqe_kept conn cid q c st dw0).only.sep.resolve_left Bool.false_ne_true
@[simp] theorem State.connCqe_pwr (s : State) (conn : Nat) (cid : Nat) (q : Nat) (c : Nat) (st : CplStatus) (dw0 : Nat) : (s.connCqe conn cid q c st dw0).pwr = s.pwr := (s.connCqe_kept conn cid q c st dw0).only.pwr.resolve_left Bool.false_ne_true
@[simp] theorem State.connCqe_lcu (s : State) (conn : Nat) (cid : Nat) (q : Nat) (c : Nat) (st : CplStatus) (dw0 : Nat) : (s.connCqe conn cid q c st dw0).lcu = s.lcu := (s.connCqe_kept conn cid q c st dw0).only.lcu.resolve_left Bool.false_ne_true
@[simp] theorem State.connCqe_pmu (s : State) (conn : Nat) (cid : Nat) (q : Nat) (c : Nat) (st : CplStatus) (dw0 : Nat) : (s.connCqe conn cid q c st dw0).pmu = s.pmu := (s.connCqe_kept conn cid q c st dw0).only.pmu.resolve_left Bool.false_ne_true
@[simp] theorem State.connCqe_tst (s : State) (conn : Nat) (cid : Nat) (q : Nat) (c : Nat) (st : CplStatus) (dw0 : Nat) : (s.connCqe conn cid q c st dw0).tst = s.tst := (s.connCqe_kept conn cid q c st dw0).only.tst.resolve_left Bool.false_ne_true
@[simp] theorem State.connCqe_mac (s : State) (conn : Nat) (cid : Nat) (q : Nat) (c : Nat) (st : CplStatus) (dw0 : Nat) : (s.connCqe conn cid q c st dw0).mac = s.mac := (s.connCqe_kept conn cid q c st dw0).only.mac.resolve_left Bool.false_ne_true
@[simp] theorem State.connCqe_now (s : State) (conn : Nat) (cid : Nat) (q : Nat) (c : Nat) (st : CplStatus) (dw0 : Nat) : (s.connCqe conn cid q c st dw0).now = s.now := (s.connCqe_kept conn cid q c st dw0).same.now
@[simp] theorem State.connCqe_part (s : State) (conn : Nat) (cid : Nat) (q : Nat) (c : Nat) (st : CplStatus) (dw0 : Nat) : (s.connCqe conn cid q c st dw0).part = s.part := (s.connCqe_kept conn cid q c st dw0).same.part
@[simp] theorem State.connCqe_slot (s : State) (conn : Nat) (cid : Nat) (q : Nat) (c : Nat) (st : CplStatus) (dw0 : Nat) : (s.connCqe conn cid q c st dw0).slot = s.slot := (s.connCqe_kept conn cid q c st dw0).same.slot
@[simp] theorem State.connCqe_uid (s : State) (conn : Nat) (cid : Nat) (q : Nat) (c : Nat) (st : CplStatus) (dw0 : Nat) : (s.connCqe conn cid q c st dw0).uid = s.uid := (s.connCqe_kept conn cid q c st dw0).same.uid
@[simp] theorem State.connCqe_pending (s : State) (conn : Nat) (cid : Nat) (q : Nat) (c : Nat) (st : CplStatus) (dw0 : Nat) : (s.connCqe conn cid q c st dw0).pending = s.pending := (s.connCqe_kept conn cid q c st dw0).pending
@[simp] theorem State.connCqe_freeCtr (s : State) (conn : Nat) (cid : Nat) (q : Nat) (c : Nat) (st : CplStatus) (dw0 : Nat) : (s.connCqe conn cid q c st dw0).freeCtr = s.freeCtr := (s.connCqe_kept conn cid q c st dw0).only.free.resolve_left Bool.false_ne_true
@[simp] theorem State.connCqe_reg (s : State) (conn : Nat) (cid : Nat) (q : Nat) (c : Nat) (st : CplStatus) (dw0 : Nat) (k : Nat) : (s.connCqe conn cid q c st dw0).reg k = s.reg k := ((s.connCqe_kept conn cid q c st dw0).only.regs).resolve_left Bool.false_ne_true k (fun h => absurd h Bool.false_ne_true)

theorem State.freeIntent_kept (s : State) (idx : Nat) : Kept { moved := true, out := true, xbr := true, pmu := true, rge := true, rfx := true } s (s.freeIntent idx) :=
  Kept.freeIntent _ (Kept.refl s) (hMoved := rfl) (hOut := rfl) (hXbr := rfl) (hPmu := rfl) (hRge := rfl) (hRfx := rfl)
@[simp] theorem State.freeIntent_hce (s : State) (idx : Nat) : (s.freeIntent idx).hce = s.hce := (s.freeIntent_kept idx).only.hce.resolve_left Bool.false_ne_true
@[simp] theorem State.freeIntent_rfu (s : State) (idx : Nat) : (s.freeIntent idx).rfu = s.rfu := (s.freeIntent_kept idx).only.rfu.resolve_left Bool.false_ne_true
@[simp] theorem State.freeIntent_snt (s : State) (idx : Nat) : (s.freeIntent idx).snt = s.snt := (s.freeIntent_kept idx).only.snt.resolve_left Bool.false_ne_true
@[simp] theorem State.freeIntent_tk (s : State) (idx : Nat) : (s.freeIntent idx).tk = s.tk := (s.freeIntent_kept idx).only.tk.resolve_left Bool.false_ne_true
@[simp] theorem State.freeIntent_vsm (s : State) (idx : Nat) : (s.freeIntent idx).vsm = s.vsm := (s.freeIntent_kept idx).only.vsm.resolve_left Bool.false_ne_true
@[simp] theorem State.freeIntent_kvt (s : State) (idx : Nat) : (s.freeIntent idx).kvt = s.kvt := (s.freeIntent_kept idx).only.kvt.resolve_left Bool.false_ne_true
@[simp] theorem State.freeIntent_mbx (s : State) (idx : Nat) : (s.freeIntent idx).mbx = s.mbx := (s.freeIntent_kept idx).only.mbx.resolve_left Bool.false_ne_true
@[simp] theorem State.freeIntent_bay (s : State) (idx : Nat) : (s.freeIntent idx).bay = s.bay := (s.freeIntent_kept idx).only.bay.resolve_left Bool.false_ne_true
@[simp] theorem State.freeIntent_props (s : State) (idx : Nat) : (s.freeIntent idx).props = s.props := (s.freeIntent_kept idx).only.props.resolve_left Bool.false_ne_true
@[simp] theorem State.freeIntent_ppc (s : State) (idx : Nat) : (s.freeIntent idx).ppc = s.ppc := (s.freeIntent_kept idx).only.ppc.resolve_left Bool.false_ne_true
@[simp] theorem State.freeIntent_sep (s : State) (idx : Nat) : (s.freeIntent idx).sep = s.sep := (s.freeIntent_kept idx).only.sep.resolve_left Bool.false_ne_true
@[simp] theorem State.freeIntent_pwr (s : State) (idx : Nat) : (s.freeIntent idx).pwr = s.pwr := (s.freeIntent_kept idx).only.pwr.resolve_left Bool.false_ne_true
@[simp] theorem State.freeIntent_lcu (s : State) (idx : Nat) : (s.freeIntent idx).lcu = s.lcu := (s.freeIntent_kept idx).only.lcu.resolve_left Bool.false_ne_true
@[simp] theorem State.freeIntent_tst (s : State) (idx : Nat) : (s.freeIntent idx).tst = s.tst := (s.freeIntent_kept idx).only.tst.resolve_left Bool.false_ne_true
@[simp] theorem State.freeIntent_mac (s : State) (idx : Nat) : (s.freeIntent idx).mac = s.mac := (s.freeIntent_kept idx).only.mac.resolve_left Bool.false_ne_true
@[simp] theorem State.freeIntent_now (s : State) (idx : Nat) : (s.freeIntent idx).now = s.now := (s.freeIntent_kept idx).same.now
@[simp] theorem State.freeIntent_part (s : State) (idx : Nat) : (s.freeIntent idx).part = s.part := (s.freeIntent_kept idx).same.part
@[simp] theorem State.freeIntent_slot (s : State) (idx : Nat) : (s.freeIntent idx).slot = s.slot := (s.freeIntent_kept idx).same.slot
@[simp] theorem State.freeIntent_uid (s : State) (idx : Nat) : (s.freeIntent idx).uid = s.uid := (s.freeIntent_kept idx).same.uid
@[simp] theorem State.freeIntent_pending (s : State) (idx : Nat) : (s.freeIntent idx).pending = s.pending := (s.freeIntent_kept idx).pending
@[simp] theorem State.freeIntent_freeCtr (s : State) (idx : Nat) : (s.freeIntent idx).freeCtr = s.freeCtr := (s.freeIntent_kept idx).only.free.resolve_left Bool.false_ne_true

theorem State.sendHeader_kept (s : State) (ring : Nat) : Kept { out := true, xbr := true, pmu := true, moved := true, rfx := true } s (s.sendHeader ring) :=
  Kept.sendHeader _ (Kept.refl s) (hOut := rfl) (hXbr := rfl) (hPmu := rfl) (hMoved := rfl) (hRfx := rfl)
@[simp] theorem State.sendHeader_hce (s : State) (ring : Nat) : (s.sendHeader ring).hce = s.hce := (s.sendHeader_kept ring).only.hce.resolve_left Bool.false_ne_true
@[simp] theorem State.sendHeader_rfu (s : State) (ring : Nat) : (s.sendHeader ring).rfu = s.rfu := (s.sendHeader_kept ring).only.rfu.resolve_left Bool.false_ne_true
@[simp] theorem State.sendHeader_rge (s : State) (ring : Nat) : (s.sendHeader ring).rge = s.rge := (s.sendHeader_kept ring).only.rge.resolve_left Bool.false_ne_true
@[simp] theorem State.sendHeader_snt (s : State) (ring : Nat) : (s.sendHeader ring).snt = s.snt := (s.sendHeader_kept ring).only.snt.resolve_left Bool.false_ne_true
@[simp] theorem State.sendHeader_tk (s : State) (ring : Nat) : (s.sendHeader ring).tk = s.tk := (s.sendHeader_kept ring).only.tk.resolve_left Bool.false_ne_true
@[simp] theorem State.sendHeader_vsm (s : State) (ring : Nat) : (s.sendHeader ring).vsm = s.vsm := (s.sendHeader_kept ring).only.vsm.resolve_left Bool.false_ne_true
@[simp] theorem State.sendHeader_kvt (s : State) (ring : Nat) : (s.sendHeader ring).kvt = s.kvt := (s.sendHeader_kept ring).only.kvt.resolve_left Bool.false_ne_true
@[simp] theorem State.sendHeader_mbx (s : State) (ring : Nat) : (s.sendHeader ring).mbx = s.mbx := (s.sendHeader_kept ring).only.mbx.resolve_left Bool.false_ne_true
@[simp] theorem State.sendHeader_bay (s : State) (ring : Nat) : (s.sendHeader ring).bay = s.bay := (s.sendHeader_kept ring).only.bay.resolve_left Bool.false_ne_true
@[simp] theorem State.sendHeader_props (s : State) (ring : Nat) : (s.sendHeader ring).props = s.props := (s.sendHeader_kept ring).only.props.resolve_left Bool.false_ne_true
@[simp] theorem State.sendHeader_ppc (s : State) (ring : Nat) : (s.sendHeader ring).ppc = s.ppc := (s.sendHeader_kept ring).only.ppc.resolve_left Bool.false_ne_true
@[simp] theorem State.sendHeader_sep (s : State) (ring : Nat) : (s.sendHeader ring).sep = s.sep := (s.sendHeader_kept ring).only.sep.resolve_left Bool.false_ne_true
@[simp] theorem State.sendHeader_pwr (s : State) (ring : Nat) : (s.sendHeader ring).pwr = s.pwr := (s.sendHeader_kept ring).only.pwr.resolve_left Bool.false_ne_true
@[simp] theorem State.sendHeader_lcu (s : State) (ring : Nat) : (s.sendHeader ring).lcu = s.lcu := (s.sendHeader_kept ring).only.lcu.resolve_left Bool.false_ne_true
@[simp] theorem State.sendHeader_tst (s : State) (ring : Nat) : (s.sendHeader ring).tst = s.tst := (s.sendHeader_kept ring).only.tst.resolve_left Bool.false_ne_true
@[simp] theorem State.sendHeader_mac (s : State) (ring : Nat) : (s.sendHeader ring).mac = s.mac := (s.sendHeader_kept ring).only.mac.resolve_left Bool.false_ne_true
@[simp] theorem State.sendHeader_now (s : State) (ring : Nat) : (s.sendHeader ring).now = s.now := (s.sendHeader_kept ring).same.now
@[simp] theorem State.sendHeader_part (s : State) (ring : Nat) : (s.sendHeader ring).part = s.part := (s.sendHeader_kept ring).same.part
@[simp] theorem State.sendHeader_slot (s : State) (ring : Nat) : (s.sendHeader ring).slot = s.slot := (s.sendHeader_kept ring).same.slot
@[simp] theorem State.sendHeader_uid (s : State) (ring : Nat) : (s.sendHeader ring).uid = s.uid := (s.sendHeader_kept ring).same.uid
@[simp] theorem State.sendHeader_pending (s : State) (ring : Nat) : (s.sendHeader ring).pending = s.pending := (s.sendHeader_kept ring).pending
@[simp] theorem State.sendHeader_freeCtr (s : State) (ring : Nat) : (s.sendHeader ring).freeCtr = s.freeCtr := (s.sendHeader_kept ring).only.free.resolve_left Bool.false_ne_true

theorem State.sendEpoch_kept (s : State) (ring : Nat) (epoch : Nat) : Kept { out := true, xbr := true, pmu := true, moved := true, rfx := true } s (s.sendEpoch ring epoch) :=
  Kept.sendEpoch _ _ (Kept.refl s) (hOut := rfl) (hXbr := rfl) (hPmu := rfl) (hMoved := rfl) (hRfx := rfl)
@[simp] theorem State.sendEpoch_hce (s : State) (ring : Nat) (epoch : Nat) : (s.sendEpoch ring epoch).hce = s.hce := (s.sendEpoch_kept ring epoch).only.hce.resolve_left Bool.false_ne_true
@[simp] theorem State.sendEpoch_rfu (s : State) (ring : Nat) (epoch : Nat) : (s.sendEpoch ring epoch).rfu = s.rfu := (s.sendEpoch_kept ring epoch).only.rfu.resolve_left Bool.false_ne_true
@[simp] theorem State.sendEpoch_rge (s : State) (ring : Nat) (epoch : Nat) : (s.sendEpoch ring epoch).rge = s.rge := (s.sendEpoch_kept ring epoch).only.rge.resolve_left Bool.false_ne_true
@[simp] theorem State.sendEpoch_snt (s : State) (ring : Nat) (epoch : Nat) : (s.sendEpoch ring epoch).snt = s.snt := (s.sendEpoch_kept ring epoch).only.snt.resolve_left Bool.false_ne_true
@[simp] theorem State.sendEpoch_tk (s : State) (ring : Nat) (epoch : Nat) : (s.sendEpoch ring epoch).tk = s.tk := (s.sendEpoch_kept ring epoch).only.tk.resolve_left Bool.false_ne_true
@[simp] theorem State.sendEpoch_vsm (s : State) (ring : Nat) (epoch : Nat) : (s.sendEpoch ring epoch).vsm = s.vsm := (s.sendEpoch_kept ring epoch).only.vsm.resolve_left Bool.false_ne_true
@[simp] theorem State.sendEpoch_kvt (s : State) (ring : Nat) (epoch : Nat) : (s.sendEpoch ring epoch).kvt = s.kvt := (s.sendEpoch_kept ring epoch).only.kvt.resolve_left Bool.false_ne_true
@[simp] theorem State.sendEpoch_mbx (s : State) (ring : Nat) (epoch : Nat) : (s.sendEpoch ring epoch).mbx = s.mbx := (s.sendEpoch_kept ring epoch).only.mbx.resolve_left Bool.false_ne_true
@[simp] theorem State.sendEpoch_bay (s : State) (ring : Nat) (epoch : Nat) : (s.sendEpoch ring epoch).bay = s.bay := (s.sendEpoch_kept ring epoch).only.bay.resolve_left Bool.false_ne_true
@[simp] theorem State.sendEpoch_props (s : State) (ring : Nat) (epoch : Nat) : (s.sendEpoch ring epoch).props = s.props := (s.sendEpoch_kept ring epoch).only.props.resolve_left Bool.false_ne_true
@[simp] theorem State.sendEpoch_ppc (s : State) (ring : Nat) (epoch : Nat) : (s.sendEpoch ring epoch).ppc = s.ppc := (s.sendEpoch_kept ring epoch).only.ppc.resolve_left Bool.false_ne_true
@[simp] theorem State.sendEpoch_sep (s : State) (ring : Nat) (epoch : Nat) : (s.sendEpoch ring epoch).sep = s.sep := (s.sendEpoch_kept ring epoch).only.sep.resolve_left Bool.false_ne_true
@[simp] theorem State.sendEpoch_pwr (s : State) (ring : Nat) (epoch : Nat) : (s.sendEpoch ring epoch).pwr = s.pwr := (s.sendEpoch_kept ring epoch).only.pwr.resolve_left Bool.false_ne_true
@[simp] theorem State.sendEpoch_lcu (s : State) (ring : Nat) (epoch : Nat) : (s.sendEpoch ring epoch).lcu = s.lcu := (s.sendEpoch_kept ring epoch).only.lcu.resolve_left Bool.false_ne_true
@[simp] theorem State.sendEpoch_tst (s : State) (ring : Nat) (epoch : Nat) : (s.sendEpoch ring epoch).tst = s.tst := (s.sendEpoch_kept ring epoch).only.tst.resolve_left Bool.false_ne_true
@[simp] theorem State.sendEpoch_mac (s : State) (ring : Nat) (epoch : Nat) : (s.sendEpoch ring epoch).mac = s.mac := (s.sendEpoch_kept ring epoch).only.mac.resolve_left Bool.false_ne_true
@[simp] theorem State.sendEpoch_now (s : State) (ring : Nat) (epoch : Nat) : (s.sendEpoch ring epoch).now = s.now := (s.sendEpoch_kept ring epoch).same.now
@[simp] theorem State.sendEpoch_part (s : State) (ring : Nat) (epoch : Nat) : (s.sendEpoch ring epoch).part = s.part := (s.sendEpoch_kept ring epoch).same.part
@[simp] theorem State.sendEpoch_slot (s : State) (ring : Nat) (epoch : Nat) : (s.sendEpoch ring epoch).slot = s.slot := (s.sendEpoch_kept ring epoch).same.slot
@[simp] theorem State.sendEpoch_uid (s : State) (ring : Nat) (epoch : Nat) : (s.sendEpoch ring epoch).uid = s.uid := (s.sendEpoch_kept ring epoch).same.uid
@[simp] theorem State.sendEpoch_pending (s : State) (ring : Nat) (epoch : Nat) : (s.sendEpoch ring epoch).pending = s.pending := (s.sendEpoch_kept ring epoch).pending
@[simp] theorem State.sendEpoch_freeCtr (s : State) (ring : Nat) (epoch : Nat) : (s.sendEpoch ring epoch).freeCtr = s.freeCtr := (s.sendEpoch_kept ring epoch).only.free.resolve_left Bool.false_ne_true

theorem State.flood_kept (s : State) (except_ : Option Nat) (typ : Nat) (payload : List Byte) : Kept { out := true, xbr := true } s (s.flood except_ typ payload) :=
  Kept.flood _ _ _ (Kept.refl s) (hOut := rfl) (hXbr := rfl)
@[simp] theorem State.flood_hce (s : State) (except_ : Option Nat) (typ : Nat) (payload : List Byte) : (s.flood except_ typ payload).hce = s.hce := (s.flood_kept except_ typ payload).only.hce.resolve_left Bool.false_ne_true
@[simp] theorem State.flood_rfu (s : State) (except_ : Option Nat) (typ : Nat) (payload : List Byte) : (s.flood except_ typ payload).rfu = s.rfu := (s.flood_kept except_ typ payload).only.rfu.resolve_left Bool.false_ne_true
@[simp] theorem State.flood_rge (s : State) (except_ : Option Nat) (typ : Nat) (payload : List Byte) : (s.flood except_ typ payload).rge = s.rge := (s.flood_kept except_ typ payload).only.rge.resolve_left Bool.false_ne_true
@[simp] theorem State.flood_snt (s : State) (except_ : Option Nat) (typ : Nat) (payload : List Byte) : (s.flood except_ typ payload).snt = s.snt := (s.flood_kept except_ typ payload).only.snt.resolve_left Bool.false_ne_true
@[simp] theorem State.flood_rfx (s : State) (except_ : Option Nat) (typ : Nat) (payload : List Byte) : (s.flood except_ typ payload).rfx = s.rfx := (s.flood_kept except_ typ payload).only.rfx.resolve_left Bool.false_ne_true
@[simp] theorem State.flood_tk (s : State) (except_ : Option Nat) (typ : Nat) (payload : List Byte) : (s.flood except_ typ payload).tk = s.tk := (s.flood_kept except_ typ payload).only.tk.resolve_left Bool.false_ne_true
@[simp] theorem State.flood_vsm (s : State) (except_ : Option Nat) (typ : Nat) (payload : List Byte) : (s.flood except_ typ payload).vsm = s.vsm := (s.flood_kept except_ typ payload).only.vsm.resolve_left Bool.false_ne_true
@[simp] theorem State.flood_kvt (s : State) (except_ : Option Nat) (typ : Nat) (payload : List Byte) : (s.flood except_ typ payload).kvt = s.kvt := (s.flood_kept except_ typ payload).only.kvt.resolve_left Bool.false_ne_true
@[simp] theorem State.flood_mbx (s : State) (except_ : Option Nat) (typ : Nat) (payload : List Byte) : (s.flood except_ typ payload).mbx = s.mbx := (s.flood_kept except_ typ payload).only.mbx.resolve_left Bool.false_ne_true
@[simp] theorem State.flood_bay (s : State) (except_ : Option Nat) (typ : Nat) (payload : List Byte) : (s.flood except_ typ payload).bay = s.bay := (s.flood_kept except_ typ payload).only.bay.resolve_left Bool.false_ne_true
@[simp] theorem State.flood_props (s : State) (except_ : Option Nat) (typ : Nat) (payload : List Byte) : (s.flood except_ typ payload).props = s.props := (s.flood_kept except_ typ payload).only.props.resolve_left Bool.false_ne_true
@[simp] theorem State.flood_ppc (s : State) (except_ : Option Nat) (typ : Nat) (payload : List Byte) : (s.flood except_ typ payload).ppc = s.ppc := (s.flood_kept except_ typ payload).only.ppc.resolve_left Bool.false_ne_true
@[simp] theorem State.flood_sep (s : State) (except_ : Option Nat) (typ : Nat) (payload : List Byte) : (s.flood except_ typ payload).sep = s.sep := (s.flood_kept except_ typ payload).only.sep.resolve_left Bool.false_ne_true
@[simp] theorem State.flood_pwr (s : State) (except_ : Option Nat) (typ : Nat) (payload : List Byte) : (s.flood except_ typ payload).pwr = s.pwr := (s.flood_kept except_ typ payload).only.pwr.resolve_left Bool.false_ne_true
@[simp] theorem State.flood_lcu (s : State) (except_ : Option Nat) (typ : Nat) (payload : List Byte) : (s.flood except_ typ payload).lcu = s.lcu := (s.flood_kept except_ typ payload).only.lcu.resolve_left Bool.false_ne_true
@[simp] theorem State.flood_pmu (s : State) (except_ : Option Nat) (typ : Nat) (payload : List Byte) : (s.flood except_ typ payload).pmu = s.pmu := (s.flood_kept except_ typ payload).only.pmu.resolve_left Bool.false_ne_true
@[simp] theorem State.flood_tst (s : State) (except_ : Option Nat) (typ : Nat) (payload : List Byte) : (s.flood except_ typ payload).tst = s.tst := (s.flood_kept except_ typ payload).only.tst.resolve_left Bool.false_ne_true
@[simp] theorem State.flood_mac (s : State) (except_ : Option Nat) (typ : Nat) (payload : List Byte) : (s.flood except_ typ payload).mac = s.mac := (s.flood_kept except_ typ payload).only.mac.resolve_left Bool.false_ne_true
@[simp] theorem State.flood_now (s : State) (except_ : Option Nat) (typ : Nat) (payload : List Byte) : (s.flood except_ typ payload).now = s.now := (s.flood_kept except_ typ payload).same.now
@[simp] theorem State.flood_part (s : State) (except_ : Option Nat) (typ : Nat) (payload : List Byte) : (s.flood except_ typ payload).part = s.part := (s.flood_kept except_ typ payload).same.part
@[simp] theorem State.flood_slot (s : State) (except_ : Option Nat) (typ : Nat) (payload : List Byte) : (s.flood except_ typ payload).slot = s.slot := (s.flood_kept except_ typ payload).same.slot
@[simp] theorem State.flood_uid (s : State) (except_ : Option Nat) (typ : Nat) (payload : List Byte) : (s.flood except_ typ payload).uid = s.uid := (s.flood_kept except_ typ payload).same.uid
@[simp] theorem State.flood_pending (s : State) (except_ : Option Nat) (typ : Nat) (payload : List Byte) : (s.flood except_ typ payload).pending = s.pending := (s.flood_kept except_ typ payload).pending
@[simp] theorem State.flood_freeCtr (s : State) (except_ : Option Nat) (typ : Nat) (payload : List Byte) : (s.flood except_ typ payload).freeCtr = s.freeCtr := (s.flood_kept except_ typ payload).only.free.resolve_left Bool.false_ne_true
@[simp] theorem State.flood_reg (s : State) (except_ : Option Nat) (typ : Nat) (payload : List Byte) (k : Nat) : (s.flood except_ typ payload).reg k = s.reg k := ((s.flood_kept except_ typ payload).only.regs).resolve_left Bool.false_ne_true k (fun h => absurd h Bool.false_ne_true)

theorem State.closeStream_kept (s : State) : Kept { hce := true, rfx := true } s s.closeStream :=
  Kept.closeStream (Kept.refl s) (hHce := rfl) (hRfx := rfl)
@[simp] theorem State.closeStream_rfu (s : State) : s.closeStream.rfu = s.rfu := (s.closeStream_kept).only.rfu.resolve_left Bool.false_ne_true
@[simp] theorem State.closeStream_rge (s : State) : s.closeStream.rge = s.rge := (s.closeStream_kept).only.rge.resolve_left Bool.false_ne_true
@[simp] theorem State.closeStream_snt (s : State) : s.closeStream.snt = s.snt := (s.closeStream_kept).only.snt.resolve_left Bool.false_ne_true
@[simp] theorem State.closeStream_tk (s : State) : s.closeStream.tk = s.tk := (s.closeStream_kept).only.tk.resolve_left Bool.false_ne_true
@[simp] theorem State.closeStream_vsm (s : State) : s.closeStream.vsm = s.vsm := (s.closeStream_kept).only.vsm.resolve_left Bool.false_ne_true
@[simp] theorem State.closeStream_kvt (s : State) : s.closeStream.kvt = s.kvt := (s.closeStream_kept).only.kvt.resolve_left Bool.false_ne_true
@[simp] theorem State.closeStream_mbx (s : State) : s.closeStream.mbx = s.mbx := (s.closeStream_kept).only.mbx.resolve_left Bool.false_ne_true
@[simp] theorem State.closeStream_bay (s : State) : s.closeStream.bay = s.bay := (s.closeStream_kept).only.bay.resolve_left Bool.false_ne_true
@[simp] theorem State.closeStream_props (s : State) : s.closeStream.props = s.props := (s.closeStream_kept).only.props.resolve_left Bool.false_ne_true
@[simp] theorem State.closeStream_ppc (s : State) : s.closeStream.ppc = s.ppc := (s.closeStream_kept).only.ppc.resolve_left Bool.false_ne_true
@[simp] theorem State.closeStream_xbr (s : State) : s.closeStream.xbr = s.xbr := (s.closeStream_kept).only.xbr.resolve_left Bool.false_ne_true
@[simp] theorem State.closeStream_sep (s : State) : s.closeStream.sep = s.sep := (s.closeStream_kept).only.sep.resolve_left Bool.false_ne_true
@[simp] theorem State.closeStream_pwr (s : State) : s.closeStream.pwr = s.pwr := (s.closeStream_kept).only.pwr.resolve_left Bool.false_ne_true
@[simp] theorem State.closeStream_lcu (s : State) : s.closeStream.lcu = s.lcu := (s.closeStream_kept).only.lcu.resolve_left Bool.false_ne_true
@[simp] theorem State.closeStream_pmu (s : State) : s.closeStream.pmu = s.pmu := (s.closeStream_kept).only.pmu.resolve_left Bool.false_ne_true
@[simp] theorem State.closeStream_tst (s : State) : s.closeStream.tst = s.tst := (s.closeStream_kept).only.tst.resolve_left Bool.false_ne_true
@[simp] theorem State.closeStream_mac (s : State) : s.closeStream.mac = s.mac := (s.closeStream_kept).only.mac.resolve_left Bool.false_ne_true
@[simp] theorem State.closeStream_now (s : State) : s.closeStream.now = s.now := (s.closeStream_kept).same.now
@[simp] theorem State.closeStream_part (s : State) : s.closeStream.part = s.part := (s.closeStream_kept).same.part
@[simp] theorem State.closeStream_slot (s : State) : s.closeStream.slot = s.slot := (s.closeStream_kept).same.slot
@[simp] theorem State.closeStream_uid (s : State) : s.closeStream.uid = s.uid := (s.closeStream_kept).same.uid
@[simp] theorem State.closeStream_pending (s : State) : s.closeStream.pending = s.pending := (s.closeStream_kept).pending
@[simp] theorem State.closeStream_out (s : State) : s.closeStream.out = s.out := (s.closeStream_kept).only.out.resolve_left Bool.false_ne_true
@[simp] theorem State.closeStream_freeCtr (s : State) : s.closeStream.freeCtr = s.freeCtr := (s.closeStream_kept).only.free.resolve_left Bool.false_ne_true
@[simp] theorem State.closeStream_reg (s : State)  (k : Nat) : s.closeStream.reg k = s.reg k := ((s.closeStream_kept).only.regs).resolve_left Bool.false_ne_true k (fun h => absurd h Bool.false_ne_true)

theorem State.mirrorDown_kept (s : State) : Kept { hce := true, rfx := true } s s.mirrorDown :=
  Kept.mirrorDown (Kept.refl s) (hHce := rfl) (hRfx := rfl)
@[simp] theorem State.mirrorDown_rfu (s : State) : s.mirrorDown.rfu = s.rfu := (s.mirrorDown_kept).only.rfu.resolve_left Bool.false_ne_true
@[simp] theorem State.mirrorDown_rge (s : State) : s.mirrorDown.rge = s.rge := (s.mirrorDown_kept).only.rge.resolve_left Bool.false_ne_true
@[simp] theorem State.mirrorDown_snt (s : State) : s.mirrorDown.snt = s.snt := (s.mirrorDown_kept).only.snt.resolve_left Bool.false_ne_true
@[simp] theorem State.mirrorDown_tk (s : State) : s.mirrorDown.tk = s.tk := (s.mirrorDown_kept).only.tk.resolve_left Bool.false_ne_true
@[simp] theorem State.mirrorDown_vsm (s : State) : s.mirrorDown.vsm = s.vsm := (s.mirrorDown_kept).only.vsm.resolve_left Bool.false_ne_true
@[simp] theorem State.mirrorDown_kvt (s : State) : s.mirrorDown.kvt = s.kvt := (s.mirrorDown_kept).only.kvt.resolve_left Bool.false_ne_true
@[simp] theorem State.mirrorDown_mbx (s : State) : s.mirrorDown.mbx = s.mbx := (s.mirrorDown_kept).only.mbx.resolve_left Bool.false_ne_true
@[simp] theorem State.mirrorDown_bay (s : State) : s.mirrorDown.bay = s.bay := (s.mirrorDown_kept).only.bay.resolve_left Bool.false_ne_true
@[simp] theorem State.mirrorDown_props (s : State) : s.mirrorDown.props = s.props := (s.mirrorDown_kept).only.props.resolve_left Bool.false_ne_true
@[simp] theorem State.mirrorDown_ppc (s : State) : s.mirrorDown.ppc = s.ppc := (s.mirrorDown_kept).only.ppc.resolve_left Bool.false_ne_true
@[simp] theorem State.mirrorDown_xbr (s : State) : s.mirrorDown.xbr = s.xbr := (s.mirrorDown_kept).only.xbr.resolve_left Bool.false_ne_true
@[simp] theorem State.mirrorDown_sep (s : State) : s.mirrorDown.sep = s.sep := (s.mirrorDown_kept).only.sep.resolve_left Bool.false_ne_true
@[simp] theorem State.mirrorDown_pwr (s : State) : s.mirrorDown.pwr = s.pwr := (s.mirrorDown_kept).only.pwr.resolve_left Bool.false_ne_true
@[simp] theorem State.mirrorDown_lcu (s : State) : s.mirrorDown.lcu = s.lcu := (s.mirrorDown_kept).only.lcu.resolve_left Bool.false_ne_true
@[simp] theorem State.mirrorDown_pmu (s : State) : s.mirrorDown.pmu = s.pmu := (s.mirrorDown_kept).only.pmu.resolve_left Bool.false_ne_true
@[simp] theorem State.mirrorDown_tst (s : State) : s.mirrorDown.tst = s.tst := (s.mirrorDown_kept).only.tst.resolve_left Bool.false_ne_true
@[simp] theorem State.mirrorDown_mac (s : State) : s.mirrorDown.mac = s.mac := (s.mirrorDown_kept).only.mac.resolve_left Bool.false_ne_true
@[simp] theorem State.mirrorDown_now (s : State) : s.mirrorDown.now = s.now := (s.mirrorDown_kept).same.now
@[simp] theorem State.mirrorDown_part (s : State) : s.mirrorDown.part = s.part := (s.mirrorDown_kept).same.part
@[simp] theorem State.mirrorDown_slot (s : State) : s.mirrorDown.slot = s.slot := (s.mirrorDown_kept).same.slot
@[simp] theorem State.mirrorDown_uid (s : State) : s.mirrorDown.uid = s.uid := (s.mirrorDown_kept).same.uid
@[simp] theorem State.mirrorDown_pending (s : State) : s.mirrorDown.pending = s.pending := (s.mirrorDown_kept).pending
@[simp] theorem State.mirrorDown_out (s : State) : s.mirrorDown.out = s.out := (s.mirrorDown_kept).only.out.resolve_left Bool.false_ne_true
@[simp] theorem State.mirrorDown_freeCtr (s : State) : s.mirrorDown.freeCtr = s.freeCtr := (s.mirrorDown_kept).only.free.resolve_left Bool.false_ne_true
@[simp] theorem State.mirrorDown_reg (s : State)  (k : Nat) : s.mirrorDown.reg k = s.reg k := ((s.mirrorDown_kept).only.regs).resolve_left Bool.false_ne_true k (fun h => absurd h Bool.false_ne_true)

theorem State.freeNotice_kept (s : State) (v : Nat) (n : Nat) (b : Nat) (ver : Nat) (ring : Nat) : Kept { xbr := true, moved := true, out := true, pmu := true, rfx := true } s (s.freeNotice v n b ver ring) :=
  Kept.freeNotice _ _ _ _ _ (Kept.refl s) (hXbr := rfl) (hMoved := rfl) (hOut := rfl) (hPmu := rfl) (hRfx := rfl)
@[simp] theorem State.freeNotice_hce (s : State) (v : Nat) (n : Nat) (b : Nat) (ver : Nat) (ring : Nat) : (s.freeNotice v n b ver ring).hce = s.hce := (s.freeNotice_kept v n b ver ring).only.hce.resolve_left Bool.false_ne_true
@[simp] theorem State.freeNotice_rfu (s : State) (v : Nat) (n : Nat) (b : Nat) (ver : Nat) (ring : Nat) : (s.freeNotice v n b ver ring).rfu = s.rfu := (s.freeNotice_kept v n b ver ring).only.rfu.resolve_left Bool.false_ne_true
@[simp] theorem State.freeNotice_rge (s : State) (v : Nat) (n : Nat) (b : Nat) (ver : Nat) (ring : Nat) : (s.freeNotice v n b ver ring).rge = s.rge := (s.freeNotice_kept v n b ver ring).only.rge.resolve_left Bool.false_ne_true
@[simp] theorem State.freeNotice_snt (s : State) (v : Nat) (n : Nat) (b : Nat) (ver : Nat) (ring : Nat) : (s.freeNotice v n b ver ring).snt = s.snt := (s.freeNotice_kept v n b ver ring).only.snt.resolve_left Bool.false_ne_true
@[simp] theorem State.freeNotice_tk (s : State) (v : Nat) (n : Nat) (b : Nat) (ver : Nat) (ring : Nat) : (s.freeNotice v n b ver ring).tk = s.tk := (s.freeNotice_kept v n b ver ring).only.tk.resolve_left Bool.false_ne_true
@[simp] theorem State.freeNotice_vsm (s : State) (v : Nat) (n : Nat) (b : Nat) (ver : Nat) (ring : Nat) : (s.freeNotice v n b ver ring).vsm = s.vsm := (s.freeNotice_kept v n b ver ring).only.vsm.resolve_left Bool.false_ne_true
@[simp] theorem State.freeNotice_kvt (s : State) (v : Nat) (n : Nat) (b : Nat) (ver : Nat) (ring : Nat) : (s.freeNotice v n b ver ring).kvt = s.kvt := (s.freeNotice_kept v n b ver ring).only.kvt.resolve_left Bool.false_ne_true
@[simp] theorem State.freeNotice_mbx (s : State) (v : Nat) (n : Nat) (b : Nat) (ver : Nat) (ring : Nat) : (s.freeNotice v n b ver ring).mbx = s.mbx := (s.freeNotice_kept v n b ver ring).only.mbx.resolve_left Bool.false_ne_true
@[simp] theorem State.freeNotice_bay (s : State) (v : Nat) (n : Nat) (b : Nat) (ver : Nat) (ring : Nat) : (s.freeNotice v n b ver ring).bay = s.bay := (s.freeNotice_kept v n b ver ring).only.bay.resolve_left Bool.false_ne_true
@[simp] theorem State.freeNotice_props (s : State) (v : Nat) (n : Nat) (b : Nat) (ver : Nat) (ring : Nat) : (s.freeNotice v n b ver ring).props = s.props := (s.freeNotice_kept v n b ver ring).only.props.resolve_left Bool.false_ne_true
@[simp] theorem State.freeNotice_ppc (s : State) (v : Nat) (n : Nat) (b : Nat) (ver : Nat) (ring : Nat) : (s.freeNotice v n b ver ring).ppc = s.ppc := (s.freeNotice_kept v n b ver ring).only.ppc.resolve_left Bool.false_ne_true
@[simp] theorem State.freeNotice_sep (s : State) (v : Nat) (n : Nat) (b : Nat) (ver : Nat) (ring : Nat) : (s.freeNotice v n b ver ring).sep = s.sep := (s.freeNotice_kept v n b ver ring).only.sep.resolve_left Bool.false_ne_true
@[simp] theorem State.freeNotice_pwr (s : State) (v : Nat) (n : Nat) (b : Nat) (ver : Nat) (ring : Nat) : (s.freeNotice v n b ver ring).pwr = s.pwr := (s.freeNotice_kept v n b ver ring).only.pwr.resolve_left Bool.false_ne_true
@[simp] theorem State.freeNotice_lcu (s : State) (v : Nat) (n : Nat) (b : Nat) (ver : Nat) (ring : Nat) : (s.freeNotice v n b ver ring).lcu = s.lcu := (s.freeNotice_kept v n b ver ring).only.lcu.resolve_left Bool.false_ne_true
@[simp] theorem State.freeNotice_tst (s : State) (v : Nat) (n : Nat) (b : Nat) (ver : Nat) (ring : Nat) : (s.freeNotice v n b ver ring).tst = s.tst := (s.freeNotice_kept v n b ver ring).only.tst.resolve_left Bool.false_ne_true
@[simp] theorem State.freeNotice_mac (s : State) (v : Nat) (n : Nat) (b : Nat) (ver : Nat) (ring : Nat) : (s.freeNotice v n b ver ring).mac = s.mac := (s.freeNotice_kept v n b ver ring).only.mac.resolve_left Bool.false_ne_true
@[simp] theorem State.freeNotice_now (s : State) (v : Nat) (n : Nat) (b : Nat) (ver : Nat) (ring : Nat) : (s.freeNotice v n b ver ring).now = s.now := (s.freeNotice_kept v n b ver ring).same.now
@[simp] theorem State.freeNotice_part (s : State) (v : Nat) (n : Nat) (b : Nat) (ver : Nat) (ring : Nat) : (s.freeNotice v n b ver ring).part = s.part := (s.freeNotice_kept v n b ver ring).same.part
@[simp] theorem State.freeNotice_slot (s : State) (v : Nat) (n : Nat) (b : Nat) (ver : Nat) (ring : Nat) : (s.freeNotice v n b ver ring).slot = s.slot := (s.freeNotice_kept v n b ver ring).same.slot
@[simp] theorem State.freeNotice_uid (s : State) (v : Nat) (n : Nat) (b : Nat) (ver : Nat) (ring : Nat) : (s.freeNotice v n b ver ring).uid = s.uid := (s.freeNotice_kept v n b ver ring).same.uid
@[simp] theorem State.freeNotice_pending (s : State) (v : Nat) (n : Nat) (b : Nat) (ver : Nat) (ring : Nat) : (s.freeNotice v n b ver ring).pending = s.pending := (s.freeNotice_kept v n b ver ring).pending
@[simp] theorem State.freeNotice_freeCtr (s : State) (v : Nat) (n : Nat) (b : Nat) (ver : Nat) (ring : Nat) : (s.freeNotice v n b ver ring).freeCtr = s.freeCtr := (s.freeNotice_kept v n b ver ring).only.free.resolve_left Bool.false_ne_true

theorem State.takeAdmin_kept (s : State) (c : Nat) (cid : Nat) (op : Nat) (args : List Nat) : Kept { hce := true, out := true, xbr := true, pmu := true, moved := true, rfx := true } s (s.takeAdmin c cid op args) :=
  Kept.takeAdmin _ _ _ _ (Kept.refl s) (hHce := rfl) (hOut := rfl) (hXbr := rfl) (hPmu := rfl) (hMoved := rfl) (hRfx := rfl)
@[simp] theorem State.takeAdmin_rfu (s : State) (c : Nat) (cid : Nat) (op : Nat) (args : List Nat) : (s.takeAdmin c cid op args).rfu = s.rfu := (s.takeAdmin_kept c cid op args).only.rfu.resolve_left Bool.false_ne_true
@[simp] theorem State.takeAdmin_rge (s : State) (c : Nat) (cid : Nat) (op : Nat) (args : List Nat) : (s.takeAdmin c cid op args).rge = s.rge := (s.takeAdmin_kept c cid op args).only.rge.resolve_left Bool.false_ne_true
@[simp] theorem State.takeAdmin_snt (s : State) (c : Nat) (cid : Nat) (op : Nat) (args : List Nat) : (s.takeAdmin c cid op args).snt = s.snt := (s.takeAdmin_kept c cid op args).only.snt.resolve_left Bool.false_ne_true
@[simp] theorem State.takeAdmin_tk (s : State) (c : Nat) (cid : Nat) (op : Nat) (args : List Nat) : (s.takeAdmin c cid op args).tk = s.tk := (s.takeAdmin_kept c cid op args).only.tk.resolve_left Bool.false_ne_true
@[simp] theorem State.takeAdmin_vsm (s : State) (c : Nat) (cid : Nat) (op : Nat) (args : List Nat) : (s.takeAdmin c cid op args).vsm = s.vsm := (s.takeAdmin_kept c cid op args).only.vsm.resolve_left Bool.false_ne_true
@[simp] theorem State.takeAdmin_kvt (s : State) (c : Nat) (cid : Nat) (op : Nat) (args : List Nat) : (s.takeAdmin c cid op args).kvt = s.kvt := (s.takeAdmin_kept c cid op args).only.kvt.resolve_left Bool.false_ne_true
@[simp] theorem State.takeAdmin_mbx (s : State) (c : Nat) (cid : Nat) (op : Nat) (args : List Nat) : (s.takeAdmin c cid op args).mbx = s.mbx := (s.takeAdmin_kept c cid op args).only.mbx.resolve_left Bool.false_ne_true
@[simp] theorem State.takeAdmin_bay (s : State) (c : Nat) (cid : Nat) (op : Nat) (args : List Nat) : (s.takeAdmin c cid op args).bay = s.bay := (s.takeAdmin_kept c cid op args).only.bay.resolve_left Bool.false_ne_true
@[simp] theorem State.takeAdmin_props (s : State) (c : Nat) (cid : Nat) (op : Nat) (args : List Nat) : (s.takeAdmin c cid op args).props = s.props := (s.takeAdmin_kept c cid op args).only.props.resolve_left Bool.false_ne_true
@[simp] theorem State.takeAdmin_ppc (s : State) (c : Nat) (cid : Nat) (op : Nat) (args : List Nat) : (s.takeAdmin c cid op args).ppc = s.ppc := (s.takeAdmin_kept c cid op args).only.ppc.resolve_left Bool.false_ne_true
@[simp] theorem State.takeAdmin_sep (s : State) (c : Nat) (cid : Nat) (op : Nat) (args : List Nat) : (s.takeAdmin c cid op args).sep = s.sep := (s.takeAdmin_kept c cid op args).only.sep.resolve_left Bool.false_ne_true
@[simp] theorem State.takeAdmin_pwr (s : State) (c : Nat) (cid : Nat) (op : Nat) (args : List Nat) : (s.takeAdmin c cid op args).pwr = s.pwr := (s.takeAdmin_kept c cid op args).only.pwr.resolve_left Bool.false_ne_true
@[simp] theorem State.takeAdmin_lcu (s : State) (c : Nat) (cid : Nat) (op : Nat) (args : List Nat) : (s.takeAdmin c cid op args).lcu = s.lcu := (s.takeAdmin_kept c cid op args).only.lcu.resolve_left Bool.false_ne_true
@[simp] theorem State.takeAdmin_tst (s : State) (c : Nat) (cid : Nat) (op : Nat) (args : List Nat) : (s.takeAdmin c cid op args).tst = s.tst := (s.takeAdmin_kept c cid op args).only.tst.resolve_left Bool.false_ne_true
@[simp] theorem State.takeAdmin_mac (s : State) (c : Nat) (cid : Nat) (op : Nat) (args : List Nat) : (s.takeAdmin c cid op args).mac = s.mac := (s.takeAdmin_kept c cid op args).only.mac.resolve_left Bool.false_ne_true
@[simp] theorem State.takeAdmin_now (s : State) (c : Nat) (cid : Nat) (op : Nat) (args : List Nat) : (s.takeAdmin c cid op args).now = s.now := (s.takeAdmin_kept c cid op args).same.now
@[simp] theorem State.takeAdmin_part (s : State) (c : Nat) (cid : Nat) (op : Nat) (args : List Nat) : (s.takeAdmin c cid op args).part = s.part := (s.takeAdmin_kept c cid op args).same.part
@[simp] theorem State.takeAdmin_slot (s : State) (c : Nat) (cid : Nat) (op : Nat) (args : List Nat) : (s.takeAdmin c cid op args).slot = s.slot := (s.takeAdmin_kept c cid op args).same.slot
@[simp] theorem State.takeAdmin_uid (s : State) (c : Nat) (cid : Nat) (op : Nat) (args : List Nat) : (s.takeAdmin c cid op args).uid = s.uid := (s.takeAdmin_kept c cid op args).same.uid
@[simp] theorem State.takeAdmin_pending (s : State) (c : Nat) (cid : Nat) (op : Nat) (args : List Nat) : (s.takeAdmin c cid op args).pending = s.pending := (s.takeAdmin_kept c cid op args).pending
@[simp] theorem State.takeAdmin_freeCtr (s : State) (c : Nat) (cid : Nat) (op : Nat) (args : List Nat) : (s.takeAdmin c cid op args).freeCtr = s.freeCtr := (s.takeAdmin_kept c cid op args).only.free.resolve_left Bool.false_ne_true

theorem State.writeCc_kept (s : State) (c : Nat) (v : Nat) : Kept { rfu := true, xbr := true, moved := true, hce := true, out := true, pmu := true, rfx := true } s (s.writeCc c v) :=
  Kept.writeCc _ _ (Kept.refl s) (hRfu := rfl) (hXbr := rfl) (hMoved := rfl) (hHce := rfl) (hOut := rfl) (hPmu := rfl) (hRfx := rfl)
@[simp] theorem State.writeCc_rge (s : State) (c : Nat) (v : Nat) : (s.writeCc c v).rge = s.rge := (s.writeCc_kept c v).only.rge.resolve_left Bool.false_ne_true
@[simp] theorem State.writeCc_snt (s : State) (c : Nat) (v : Nat) : (s.writeCc c v).snt = s.snt := (s.writeCc_kept c v).only.snt.resolve_left Bool.false_ne_true
@[simp] theorem State.writeCc_tk (s : State) (c : Nat) (v : Nat) : (s.writeCc c v).tk = s.tk := (s.writeCc_kept c v).only.tk.resolve_left Bool.false_ne_true
@[simp] theorem State.writeCc_vsm (s : State) (c : Nat) (v : Nat) : (s.writeCc c v).vsm = s.vsm := (s.writeCc_kept c v).only.vsm.resolve_left Bool.false_ne_true
@[simp] theorem State.writeCc_kvt (s : State) (c : Nat) (v : Nat) : (s.writeCc c v).kvt = s.kvt := (s.writeCc_kept c v).only.kvt.resolve_left Bool.false_ne_true
@[simp] theorem State.writeCc_mbx (s : State) (c : Nat) (v : Nat) : (s.writeCc c v).mbx = s.mbx := (s.writeCc_kept c v).only.mbx.resolve_left Bool.false_ne_true
@[simp] theorem State.writeCc_bay (s : State) (c : Nat) (v : Nat) : (s.writeCc c v).bay = s.bay := (s.writeCc_kept c v).only.bay.resolve_left Bool.false_ne_true
@[simp] theorem State.writeCc_props (s : State) (c : Nat) (v : Nat) : (s.writeCc c v).props = s.props := (s.writeCc_kept c v).only.props.resolve_left Bool.false_ne_true
@[simp] theorem State.writeCc_ppc (s : State) (c : Nat) (v : Nat) : (s.writeCc c v).ppc = s.ppc := (s.writeCc_kept c v).only.ppc.resolve_left Bool.false_ne_true
@[simp] theorem State.writeCc_sep (s : State) (c : Nat) (v : Nat) : (s.writeCc c v).sep = s.sep := (s.writeCc_kept c v).only.sep.resolve_left Bool.false_ne_true
@[simp] theorem State.writeCc_pwr (s : State) (c : Nat) (v : Nat) : (s.writeCc c v).pwr = s.pwr := (s.writeCc_kept c v).only.pwr.resolve_left Bool.false_ne_true
@[simp] theorem State.writeCc_lcu (s : State) (c : Nat) (v : Nat) : (s.writeCc c v).lcu = s.lcu := (s.writeCc_kept c v).only.lcu.resolve_left Bool.false_ne_true
@[simp] theorem State.writeCc_tst (s : State) (c : Nat) (v : Nat) : (s.writeCc c v).tst = s.tst := (s.writeCc_kept c v).only.tst.resolve_left Bool.false_ne_true
@[simp] theorem State.writeCc_mac (s : State) (c : Nat) (v : Nat) : (s.writeCc c v).mac = s.mac := (s.writeCc_kept c v).only.mac.resolve_left Bool.false_ne_true
@[simp] theorem State.writeCc_now (s : State) (c : Nat) (v : Nat) : (s.writeCc c v).now = s.now := (s.writeCc_kept c v).same.now
@[simp] theorem State.writeCc_part (s : State) (c : Nat) (v : Nat) : (s.writeCc c v).part = s.part := (s.writeCc_kept c v).same.part
@[simp] theorem State.writeCc_slot (s : State) (c : Nat) (v : Nat) : (s.writeCc c v).slot = s.slot := (s.writeCc_kept c v).same.slot
@[simp] theorem State.writeCc_uid (s : State) (c : Nat) (v : Nat) : (s.writeCc c v).uid = s.uid := (s.writeCc_kept c v).same.uid
@[simp] theorem State.writeCc_pending (s : State) (c : Nat) (v : Nat) : (s.writeCc c v).pending = s.pending := (s.writeCc_kept c v).pending
@[simp] theorem State.writeCc_freeCtr (s : State) (c : Nat) (v : Nat) : (s.writeCc c v).freeCtr = s.freeCtr := (s.writeCc_kept c v).only.free.resolve_left Bool.false_ne_true

theorem State.endQueue_kept (s : State) (c : Nat) (q : Nat) : Kept { rfu := true, xbr := true, moved := true, hce := true, out := true, pmu := true, rfx := true } s (s.endQueue c q) :=
  Kept.endQueue _ _ (Kept.refl s) (hRfu := rfl) (hXbr := rfl) (hMoved := rfl) (hHce := rfl) (hOut := rfl) (hPmu := rfl) (hRfx := rfl)
@[simp] theorem State.endQueue_rge (s : State) (c : Nat) (q : Nat) : (s.endQueue c q).rge = s.rge := (s.endQueue_kept c q).only.rge.resolve_left Bool.false_ne_true
@[simp] theorem State.endQueue_snt (s : State) (c : Nat) (q : Nat) : (s.endQueue c q).snt = s.snt := (s.endQueue_kept c q).only.snt.resolve_left Bool.false_ne_true
@[simp] theorem State.endQueue_tk (s : State) (c : Nat) (q : Nat) : (s.endQueue c q).tk = s.tk := (s.endQueue_kept c q).only.tk.resolve_left Bool.false_ne_true
@[simp] theorem State.endQueue_vsm (s : State) (c : Nat) (q : Nat) : (s.endQueue c q).vsm = s.vsm := (s.endQueue_kept c q).only.vsm.resolve_left Bool.false_ne_true
@[simp] theorem State.endQueue_kvt (s : State) (c : Nat) (q : Nat) : (s.endQueue c q).kvt = s.kvt := (s.endQueue_kept c q).only.kvt.resolve_left Bool.false_ne_true
@[simp] theorem State.endQueue_mbx (s : State) (c : Nat) (q : Nat) : (s.endQueue c q).mbx = s.mbx := (s.endQueue_kept c q).only.mbx.resolve_left Bool.false_ne_true
@[simp] theorem State.endQueue_bay (s : State) (c : Nat) (q : Nat) : (s.endQueue c q).bay = s.bay := (s.endQueue_kept c q).only.bay.resolve_left Bool.false_ne_true
@[simp] theorem State.endQueue_props (s : State) (c : Nat) (q : Nat) : (s.endQueue c q).props = s.props := (s.endQueue_kept c q).only.props.resolve_left Bool.false_ne_true
@[simp] theorem State.endQueue_ppc (s : State) (c : Nat) (q : Nat) : (s.endQueue c q).ppc = s.ppc := (s.endQueue_kept c q).only.ppc.resolve_left Bool.false_ne_true
@[simp] theorem State.endQueue_sep (s : State) (c : Nat) (q : Nat) : (s.endQueue c q).sep = s.sep := (s.endQueue_kept c q).only.sep.resolve_left Bool.false_ne_true
@[simp] theorem State.endQueue_pwr (s : State) (c : Nat) (q : Nat) : (s.endQueue c q).pwr = s.pwr := (s.endQueue_kept c q).only.pwr.resolve_left Bool.false_ne_true
@[simp] theorem State.endQueue_lcu (s : State) (c : Nat) (q : Nat) : (s.endQueue c q).lcu = s.lcu := (s.endQueue_kept c q).only.lcu.resolve_left Bool.false_ne_true
@[simp] theorem State.endQueue_tst (s : State) (c : Nat) (q : Nat) : (s.endQueue c q).tst = s.tst := (s.endQueue_kept c q).only.tst.resolve_left Bool.false_ne_true
@[simp] theorem State.endQueue_mac (s : State) (c : Nat) (q : Nat) : (s.endQueue c q).mac = s.mac := (s.endQueue_kept c q).only.mac.resolve_left Bool.false_ne_true
@[simp] theorem State.endQueue_now (s : State) (c : Nat) (q : Nat) : (s.endQueue c q).now = s.now := (s.endQueue_kept c q).same.now
@[simp] theorem State.endQueue_part (s : State) (c : Nat) (q : Nat) : (s.endQueue c q).part = s.part := (s.endQueue_kept c q).same.part
@[simp] theorem State.endQueue_slot (s : State) (c : Nat) (q : Nat) : (s.endQueue c q).slot = s.slot := (s.endQueue_kept c q).same.slot
@[simp] theorem State.endQueue_uid (s : State) (c : Nat) (q : Nat) : (s.endQueue c q).uid = s.uid := (s.endQueue_kept c q).same.uid
@[simp] theorem State.endQueue_pending (s : State) (c : Nat) (q : Nat) : (s.endQueue c q).pending = s.pending := (s.endQueue_kept c q).pending
@[simp] theorem State.endQueue_freeCtr (s : State) (c : Nat) (q : Nat) : (s.endQueue c q).freeCtr = s.freeCtr := (s.endQueue_kept c q).only.free.resolve_left Bool.false_ne_true

theorem State.endAssoc_kept (s : State) (c : Nat) : Kept { hce := true, kvt := true, out := true, xbr := true, pmu := true, moved := true, rfx := true } s (s.endAssoc c) :=
  Kept.endAssoc _ (Kept.refl s) (hHce := rfl) (hKvt := rfl) (hOut := rfl) (hXbr := rfl) (hPmu := rfl) (hMoved := rfl) (hRfx := rfl)
@[simp] theorem State.endAssoc_rfu (s : State) (c : Nat) : (s.endAssoc c).rfu = s.rfu := (s.endAssoc_kept c).only.rfu.resolve_left Bool.false_ne_true
@[simp] theorem State.endAssoc_rge (s : State) (c : Nat) : (s.endAssoc c).rge = s.rge := (s.endAssoc_kept c).only.rge.resolve_left Bool.false_ne_true
@[simp] theorem State.endAssoc_snt (s : State) (c : Nat) : (s.endAssoc c).snt = s.snt := (s.endAssoc_kept c).only.snt.resolve_left Bool.false_ne_true
@[simp] theorem State.endAssoc_tk (s : State) (c : Nat) : (s.endAssoc c).tk = s.tk := (s.endAssoc_kept c).only.tk.resolve_left Bool.false_ne_true
@[simp] theorem State.endAssoc_vsm (s : State) (c : Nat) : (s.endAssoc c).vsm = s.vsm := (s.endAssoc_kept c).only.vsm.resolve_left Bool.false_ne_true
@[simp] theorem State.endAssoc_mbx (s : State) (c : Nat) : (s.endAssoc c).mbx = s.mbx := (s.endAssoc_kept c).only.mbx.resolve_left Bool.false_ne_true
@[simp] theorem State.endAssoc_bay (s : State) (c : Nat) : (s.endAssoc c).bay = s.bay := (s.endAssoc_kept c).only.bay.resolve_left Bool.false_ne_true
@[simp] theorem State.endAssoc_props (s : State) (c : Nat) : (s.endAssoc c).props = s.props := (s.endAssoc_kept c).only.props.resolve_left Bool.false_ne_true
@[simp] theorem State.endAssoc_ppc (s : State) (c : Nat) : (s.endAssoc c).ppc = s.ppc := (s.endAssoc_kept c).only.ppc.resolve_left Bool.false_ne_true
@[simp] theorem State.endAssoc_sep (s : State) (c : Nat) : (s.endAssoc c).sep = s.sep := (s.endAssoc_kept c).only.sep.resolve_left Bool.false_ne_true
@[simp] theorem State.endAssoc_pwr (s : State) (c : Nat) : (s.endAssoc c).pwr = s.pwr := (s.endAssoc_kept c).only.pwr.resolve_left Bool.false_ne_true
@[simp] theorem State.endAssoc_lcu (s : State) (c : Nat) : (s.endAssoc c).lcu = s.lcu := (s.endAssoc_kept c).only.lcu.resolve_left Bool.false_ne_true
@[simp] theorem State.endAssoc_tst (s : State) (c : Nat) : (s.endAssoc c).tst = s.tst := (s.endAssoc_kept c).only.tst.resolve_left Bool.false_ne_true
@[simp] theorem State.endAssoc_mac (s : State) (c : Nat) : (s.endAssoc c).mac = s.mac := (s.endAssoc_kept c).only.mac.resolve_left Bool.false_ne_true
@[simp] theorem State.endAssoc_now (s : State) (c : Nat) : (s.endAssoc c).now = s.now := (s.endAssoc_kept c).same.now
@[simp] theorem State.endAssoc_part (s : State) (c : Nat) : (s.endAssoc c).part = s.part := (s.endAssoc_kept c).same.part
@[simp] theorem State.endAssoc_slot (s : State) (c : Nat) : (s.endAssoc c).slot = s.slot := (s.endAssoc_kept c).same.slot
@[simp] theorem State.endAssoc_uid (s : State) (c : Nat) : (s.endAssoc c).uid = s.uid := (s.endAssoc_kept c).same.uid
@[simp] theorem State.endAssoc_pending (s : State) (c : Nat) : (s.endAssoc c).pending = s.pending := (s.endAssoc_kept c).pending
@[simp] theorem State.endAssoc_freeCtr (s : State) (c : Nat) : (s.endAssoc c).freeCtr = s.freeCtr := (s.endAssoc_kept c).only.free.resolve_left Bool.false_ne_true

theorem State.flushQueue_kept (s : State) (q : SubQ) : Kept { hce := true, out := true, xbr := true, pmu := true, moved := true, rfx := true } s (s.flushQueue q) :=
  Kept.flushQueue _ (Kept.refl s) (hHce := rfl) (hOut := rfl) (hXbr := rfl) (hPmu := rfl) (hMoved := rfl) (hRfx := rfl)
@[simp] theorem State.flushQueue_rfu (s : State) (q : SubQ) : (s.flushQueue q).rfu = s.rfu := (s.flushQueue_kept q).only.rfu.resolve_left Bool.false_ne_true
@[simp] theorem State.flushQueue_rge (s : State) (q : SubQ) : (s.flushQueue q).rge = s.rge := (s.flushQueue_kept q).only.rge.resolve_left Bool.false_ne_true
@[simp] theorem State.flushQueue_snt (s : State) (q : SubQ) : (s.flushQueue q).snt = s.snt := (s.flushQueue_kept q).only.snt.resolve_left Bool.false_ne_true
@[simp] theorem State.flushQueue_tk (s : State) (q : SubQ) : (s.flushQueue q).tk = s.tk := (s.flushQueue_kept q).only.tk.resolve_left Bool.false_ne_true
@[simp] theorem State.flushQueue_vsm (s : State) (q : SubQ) : (s.flushQueue q).vsm = s.vsm := (s.flushQueue_kept q).only.vsm.resolve_left Bool.false_ne_true
@[simp] theorem State.flushQueue_kvt (s : State) (q : SubQ) : (s.flushQueue q).kvt = s.kvt := (s.flushQueue_kept q).only.kvt.resolve_left Bool.false_ne_true
@[simp] theorem State.flushQueue_mbx (s : State) (q : SubQ) : (s.flushQueue q).mbx = s.mbx := (s.flushQueue_kept q).only.mbx.resolve_left Bool.false_ne_true
@[simp] theorem State.flushQueue_bay (s : State) (q : SubQ) : (s.flushQueue q).bay = s.bay := (s.flushQueue_kept q).only.bay.resolve_left Bool.false_ne_true
@[simp] theorem State.flushQueue_props (s : State) (q : SubQ) : (s.flushQueue q).props = s.props := (s.flushQueue_kept q).only.props.resolve_left Bool.false_ne_true
@[simp] theorem State.flushQueue_ppc (s : State) (q : SubQ) : (s.flushQueue q).ppc = s.ppc := (s.flushQueue_kept q).only.ppc.resolve_left Bool.false_ne_true
@[simp] theorem State.flushQueue_sep (s : State) (q : SubQ) : (s.flushQueue q).sep = s.sep := (s.flushQueue_kept q).only.sep.resolve_left Bool.false_ne_true
@[simp] theorem State.flushQueue_pwr (s : State) (q : SubQ) : (s.flushQueue q).pwr = s.pwr := (s.flushQueue_kept q).only.pwr.resolve_left Bool.false_ne_true
@[simp] theorem State.flushQueue_lcu (s : State) (q : SubQ) : (s.flushQueue q).lcu = s.lcu := (s.flushQueue_kept q).only.lcu.resolve_left Bool.false_ne_true
@[simp] theorem State.flushQueue_tst (s : State) (q : SubQ) : (s.flushQueue q).tst = s.tst := (s.flushQueue_kept q).only.tst.resolve_left Bool.false_ne_true
@[simp] theorem State.flushQueue_mac (s : State) (q : SubQ) : (s.flushQueue q).mac = s.mac := (s.flushQueue_kept q).only.mac.resolve_left Bool.false_ne_true
@[simp] theorem State.flushQueue_now (s : State) (q : SubQ) : (s.flushQueue q).now = s.now := (s.flushQueue_kept q).same.now
@[simp] theorem State.flushQueue_part (s : State) (q : SubQ) : (s.flushQueue q).part = s.part := (s.flushQueue_kept q).same.part
@[simp] theorem State.flushQueue_slot (s : State) (q : SubQ) : (s.flushQueue q).slot = s.slot := (s.flushQueue_kept q).same.slot
@[simp] theorem State.flushQueue_uid (s : State) (q : SubQ) : (s.flushQueue q).uid = s.uid := (s.flushQueue_kept q).same.uid
@[simp] theorem State.flushQueue_pending (s : State) (q : SubQ) : (s.flushQueue q).pending = s.pending := (s.flushQueue_kept q).pending
@[simp] theorem State.flushQueue_freeCtr (s : State) (q : SubQ) : (s.flushQueue q).freeCtr = s.freeCtr := (s.flushQueue_kept q).only.free.resolve_left Bool.false_ne_true

theorem State.dropIntake_kept (s : State) (q : SubQ) (cid : Nat) : Kept { out := true, xbr := true, pmu := true, moved := true, rfx := true } s (s.dropIntake q cid) :=
  Kept.dropIntake _ _ (Kept.refl s) (hOut := rfl) (hXbr := rfl) (hPmu := rfl) (hMoved := rfl) (hRfx := rfl)
@[simp] theorem State.dropIntake_hce (s : State) (q : SubQ) (cid : Nat) : (s.dropIntake q cid).hce = s.hce := (s.dropIntake_kept q cid).only.hce.resolve_left Bool.false_ne_true
@[simp] theorem State.dropIntake_rfu (s : State) (q : SubQ) (cid : Nat) : (s.dropIntake q cid).rfu = s.rfu := (s.dropIntake_kept q cid).only.rfu.resolve_left Bool.false_ne_true
@[simp] theorem State.dropIntake_rge (s : State) (q : SubQ) (cid : Nat) : (s.dropIntake q cid).rge = s.rge := (s.dropIntake_kept q cid).only.rge.resolve_left Bool.false_ne_true
@[simp] theorem State.dropIntake_snt (s : State) (q : SubQ) (cid : Nat) : (s.dropIntake q cid).snt = s.snt := (s.dropIntake_kept q cid).only.snt.resolve_left Bool.false_ne_true
@[simp] theorem State.dropIntake_tk (s : State) (q : SubQ) (cid : Nat) : (s.dropIntake q cid).tk = s.tk := (s.dropIntake_kept q cid).only.tk.resolve_left Bool.false_ne_true
@[simp] theorem State.dropIntake_vsm (s : State) (q : SubQ) (cid : Nat) : (s.dropIntake q cid).vsm = s.vsm := (s.dropIntake_kept q cid).only.vsm.resolve_left Bool.false_ne_true
@[simp] theorem State.dropIntake_kvt (s : State) (q : SubQ) (cid : Nat) : (s.dropIntake q cid).kvt = s.kvt := (s.dropIntake_kept q cid).only.kvt.resolve_left Bool.false_ne_true
@[simp] theorem State.dropIntake_mbx (s : State) (q : SubQ) (cid : Nat) : (s.dropIntake q cid).mbx = s.mbx := (s.dropIntake_kept q cid).only.mbx.resolve_left Bool.false_ne_true
@[simp] theorem State.dropIntake_bay (s : State) (q : SubQ) (cid : Nat) : (s.dropIntake q cid).bay = s.bay := (s.dropIntake_kept q cid).only.bay.resolve_left Bool.false_ne_true
@[simp] theorem State.dropIntake_props (s : State) (q : SubQ) (cid : Nat) : (s.dropIntake q cid).props = s.props := (s.dropIntake_kept q cid).only.props.resolve_left Bool.false_ne_true
@[simp] theorem State.dropIntake_ppc (s : State) (q : SubQ) (cid : Nat) : (s.dropIntake q cid).ppc = s.ppc := (s.dropIntake_kept q cid).only.ppc.resolve_left Bool.false_ne_true
@[simp] theorem State.dropIntake_sep (s : State) (q : SubQ) (cid : Nat) : (s.dropIntake q cid).sep = s.sep := (s.dropIntake_kept q cid).only.sep.resolve_left Bool.false_ne_true
@[simp] theorem State.dropIntake_pwr (s : State) (q : SubQ) (cid : Nat) : (s.dropIntake q cid).pwr = s.pwr := (s.dropIntake_kept q cid).only.pwr.resolve_left Bool.false_ne_true
@[simp] theorem State.dropIntake_lcu (s : State) (q : SubQ) (cid : Nat) : (s.dropIntake q cid).lcu = s.lcu := (s.dropIntake_kept q cid).only.lcu.resolve_left Bool.false_ne_true
@[simp] theorem State.dropIntake_tst (s : State) (q : SubQ) (cid : Nat) : (s.dropIntake q cid).tst = s.tst := (s.dropIntake_kept q cid).only.tst.resolve_left Bool.false_ne_true
@[simp] theorem State.dropIntake_mac (s : State) (q : SubQ) (cid : Nat) : (s.dropIntake q cid).mac = s.mac := (s.dropIntake_kept q cid).only.mac.resolve_left Bool.false_ne_true
@[simp] theorem State.dropIntake_now (s : State) (q : SubQ) (cid : Nat) : (s.dropIntake q cid).now = s.now := (s.dropIntake_kept q cid).same.now
@[simp] theorem State.dropIntake_part (s : State) (q : SubQ) (cid : Nat) : (s.dropIntake q cid).part = s.part := (s.dropIntake_kept q cid).same.part
@[simp] theorem State.dropIntake_slot (s : State) (q : SubQ) (cid : Nat) : (s.dropIntake q cid).slot = s.slot := (s.dropIntake_kept q cid).same.slot
@[simp] theorem State.dropIntake_uid (s : State) (q : SubQ) (cid : Nat) : (s.dropIntake q cid).uid = s.uid := (s.dropIntake_kept q cid).same.uid
@[simp] theorem State.dropIntake_pending (s : State) (q : SubQ) (cid : Nat) : (s.dropIntake q cid).pending = s.pending := (s.dropIntake_kept q cid).pending
@[simp] theorem State.dropIntake_freeCtr (s : State) (q : SubQ) (cid : Nat) : (s.dropIntake q cid).freeCtr = s.freeCtr := (s.dropIntake_kept q cid).only.free.resolve_left Bool.false_ne_true

theorem State.adminData_kept (s : State) (c : Nat) (cid : Nat) (bs : List Byte) : Kept { hce := true, out := true, xbr := true, pmu := true, moved := true, rfx := true } s (s.adminData c cid bs) :=
  Kept.adminData _ _ _ (Kept.refl s) (hHce := rfl) (hOut := rfl) (hXbr := rfl) (hPmu := rfl) (hMoved := rfl) (hRfx := rfl)
@[simp] theorem State.adminData_rfu (s : State) (c : Nat) (cid : Nat) (bs : List Byte) : (s.adminData c cid bs).rfu = s.rfu := (s.adminData_kept c cid bs).only.rfu.resolve_left Bool.false_ne_true
@[simp] theorem State.adminData_rge (s : State) (c : Nat) (cid : Nat) (bs : List Byte) : (s.adminData c cid bs).rge = s.rge := (s.adminData_kept c cid bs).only.rge.resolve_left Bool.false_ne_true
@[simp] theorem State.adminData_snt (s : State) (c : Nat) (cid : Nat) (bs : List Byte) : (s.adminData c cid bs).snt = s.snt := (s.adminData_kept c cid bs).only.snt.resolve_left Bool.false_ne_true
@[simp] theorem State.adminData_tk (s : State) (c : Nat) (cid : Nat) (bs : List Byte) : (s.adminData c cid bs).tk = s.tk := (s.adminData_kept c cid bs).only.tk.resolve_left Bool.false_ne_true
@[simp] theorem State.adminData_vsm (s : State) (c : Nat) (cid : Nat) (bs : List Byte) : (s.adminData c cid bs).vsm = s.vsm := (s.adminData_kept c cid bs).only.vsm.resolve_left Bool.false_ne_true
@[simp] theorem State.adminData_kvt (s : State) (c : Nat) (cid : Nat) (bs : List Byte) : (s.adminData c cid bs).kvt = s.kvt := (s.adminData_kept c cid bs).only.kvt.resolve_left Bool.false_ne_true
@[simp] theorem State.adminData_mbx (s : State) (c : Nat) (cid : Nat) (bs : List Byte) : (s.adminData c cid bs).mbx = s.mbx := (s.adminData_kept c cid bs).only.mbx.resolve_left Bool.false_ne_true
@[simp] theorem State.adminData_bay (s : State) (c : Nat) (cid : Nat) (bs : List Byte) : (s.adminData c cid bs).bay = s.bay := (s.adminData_kept c cid bs).only.bay.resolve_left Bool.false_ne_true
@[simp] theorem State.adminData_props (s : State) (c : Nat) (cid : Nat) (bs : List Byte) : (s.adminData c cid bs).props = s.props := (s.adminData_kept c cid bs).only.props.resolve_left Bool.false_ne_true
@[simp] theorem State.adminData_ppc (s : State) (c : Nat) (cid : Nat) (bs : List Byte) : (s.adminData c cid bs).ppc = s.ppc := (s.adminData_kept c cid bs).only.ppc.resolve_left Bool.false_ne_true
@[simp] theorem State.adminData_sep (s : State) (c : Nat) (cid : Nat) (bs : List Byte) : (s.adminData c cid bs).sep = s.sep := (s.adminData_kept c cid bs).only.sep.resolve_left Bool.false_ne_true
@[simp] theorem State.adminData_pwr (s : State) (c : Nat) (cid : Nat) (bs : List Byte) : (s.adminData c cid bs).pwr = s.pwr := (s.adminData_kept c cid bs).only.pwr.resolve_left Bool.false_ne_true
@[simp] theorem State.adminData_lcu (s : State) (c : Nat) (cid : Nat) (bs : List Byte) : (s.adminData c cid bs).lcu = s.lcu := (s.adminData_kept c cid bs).only.lcu.resolve_left Bool.false_ne_true
@[simp] theorem State.adminData_tst (s : State) (c : Nat) (cid : Nat) (bs : List Byte) : (s.adminData c cid bs).tst = s.tst := (s.adminData_kept c cid bs).only.tst.resolve_left Bool.false_ne_true
@[simp] theorem State.adminData_mac (s : State) (c : Nat) (cid : Nat) (bs : List Byte) : (s.adminData c cid bs).mac = s.mac := (s.adminData_kept c cid bs).only.mac.resolve_left Bool.false_ne_true
@[simp] theorem State.adminData_now (s : State) (c : Nat) (cid : Nat) (bs : List Byte) : (s.adminData c cid bs).now = s.now := (s.adminData_kept c cid bs).same.now
@[simp] theorem State.adminData_part (s : State) (c : Nat) (cid : Nat) (bs : List Byte) : (s.adminData c cid bs).part = s.part := (s.adminData_kept c cid bs).same.part
@[simp] theorem State.adminData_slot (s : State) (c : Nat) (cid : Nat) (bs : List Byte) : (s.adminData c cid bs).slot = s.slot := (s.adminData_kept c cid bs).same.slot
@[simp] theorem State.adminData_uid (s : State) (c : Nat) (cid : Nat) (bs : List Byte) : (s.adminData c cid bs).uid = s.uid := (s.adminData_kept c cid bs).same.uid
@[simp] theorem State.adminData_pending (s : State) (c : Nat) (cid : Nat) (bs : List Byte) : (s.adminData c cid bs).pending = s.pending := (s.adminData_kept c cid bs).pending
@[simp] theorem State.adminData_freeCtr (s : State) (c : Nat) (cid : Nat) (bs : List Byte) : (s.adminData c cid bs).freeCtr = s.freeCtr := (s.adminData_kept c cid bs).only.free.resolve_left Bool.false_ne_true

theorem State.doIdentify_kept (s : State) (c : Nat) (cid : Nat) (cns : Nat) (nsid : Nat) : Kept { hce := true, out := true, xbr := true, pmu := true, moved := true, rfx := true } s (s.doIdentify c cid cns nsid) :=
  Kept.doIdentify _ _ _ _ (Kept.refl s) (hHce := rfl) (hOut := rfl) (hXbr := rfl) (hPmu := rfl) (hMoved := rfl) (hRfx := rfl)
@[simp] theorem State.doIdentify_rfu (s : State) (c : Nat) (cid : Nat) (cns : Nat) (nsid : Nat) : (s.doIdentify c cid cns nsid).rfu = s.rfu := (s.doIdentify_kept c cid cns nsid).only.rfu.resolve_left Bool.false_ne_true
@[simp] theorem State.doIdentify_rge (s : State) (c : Nat) (cid : Nat) (cns : Nat) (nsid : Nat) : (s.doIdentify c cid cns nsid).rge = s.rge := (s.doIdentify_kept c cid cns nsid).only.rge.resolve_left Bool.false_ne_true
@[simp] theorem State.doIdentify_snt (s : State) (c : Nat) (cid : Nat) (cns : Nat) (nsid : Nat) : (s.doIdentify c cid cns nsid).snt = s.snt := (s.doIdentify_kept c cid cns nsid).only.snt.resolve_left Bool.false_ne_true
@[simp] theorem State.doIdentify_tk (s : State) (c : Nat) (cid : Nat) (cns : Nat) (nsid : Nat) : (s.doIdentify c cid cns nsid).tk = s.tk := (s.doIdentify_kept c cid cns nsid).only.tk.resolve_left Bool.false_ne_true
@[simp] theorem State.doIdentify_vsm (s : State) (c : Nat) (cid : Nat) (cns : Nat) (nsid : Nat) : (s.doIdentify c cid cns nsid).vsm = s.vsm := (s.doIdentify_kept c cid cns nsid).only.vsm.resolve_left Bool.false_ne_true
@[simp] theorem State.doIdentify_kvt (s : State) (c : Nat) (cid : Nat) (cns : Nat) (nsid : Nat) : (s.doIdentify c cid cns nsid).kvt = s.kvt := (s.doIdentify_kept c cid cns nsid).only.kvt.resolve_left Bool.false_ne_true
@[simp] theorem State.doIdentify_mbx (s : State) (c : Nat) (cid : Nat) (cns : Nat) (nsid : Nat) : (s.doIdentify c cid cns nsid).mbx = s.mbx := (s.doIdentify_kept c cid cns nsid).only.mbx.resolve_left Bool.false_ne_true
@[simp] theorem State.doIdentify_bay (s : State) (c : Nat) (cid : Nat) (cns : Nat) (nsid : Nat) : (s.doIdentify c cid cns nsid).bay = s.bay := (s.doIdentify_kept c cid cns nsid).only.bay.resolve_left Bool.false_ne_true
@[simp] theorem State.doIdentify_props (s : State) (c : Nat) (cid : Nat) (cns : Nat) (nsid : Nat) : (s.doIdentify c cid cns nsid).props = s.props := (s.doIdentify_kept c cid cns nsid).only.props.resolve_left Bool.false_ne_true
@[simp] theorem State.doIdentify_ppc (s : State) (c : Nat) (cid : Nat) (cns : Nat) (nsid : Nat) : (s.doIdentify c cid cns nsid).ppc = s.ppc := (s.doIdentify_kept c cid cns nsid).only.ppc.resolve_left Bool.false_ne_true
@[simp] theorem State.doIdentify_sep (s : State) (c : Nat) (cid : Nat) (cns : Nat) (nsid : Nat) : (s.doIdentify c cid cns nsid).sep = s.sep := (s.doIdentify_kept c cid cns nsid).only.sep.resolve_left Bool.false_ne_true
@[simp] theorem State.doIdentify_pwr (s : State) (c : Nat) (cid : Nat) (cns : Nat) (nsid : Nat) : (s.doIdentify c cid cns nsid).pwr = s.pwr := (s.doIdentify_kept c cid cns nsid).only.pwr.resolve_left Bool.false_ne_true
@[simp] theorem State.doIdentify_lcu (s : State) (c : Nat) (cid : Nat) (cns : Nat) (nsid : Nat) : (s.doIdentify c cid cns nsid).lcu = s.lcu := (s.doIdentify_kept c cid cns nsid).only.lcu.resolve_left Bool.false_ne_true
@[simp] theorem State.doIdentify_tst (s : State) (c : Nat) (cid : Nat) (cns : Nat) (nsid : Nat) : (s.doIdentify c cid cns nsid).tst = s.tst := (s.doIdentify_kept c cid cns nsid).only.tst.resolve_left Bool.false_ne_true
@[simp] theorem State.doIdentify_mac (s : State) (c : Nat) (cid : Nat) (cns : Nat) (nsid : Nat) : (s.doIdentify c cid cns nsid).mac = s.mac := (s.doIdentify_kept c cid cns nsid).only.mac.resolve_left Bool.false_ne_true
@[simp] theorem State.doIdentify_now (s : State) (c : Nat) (cid : Nat) (cns : Nat) (nsid : Nat) : (s.doIdentify c cid cns nsid).now = s.now := (s.doIdentify_kept c cid cns nsid).same.now
@[simp] theorem State.doIdentify_part (s : State) (c : Nat) (cid : Nat) (cns : Nat) (nsid : Nat) : (s.doIdentify c cid cns nsid).part = s.part := (s.doIdentify_kept c cid cns nsid).same.part
@[simp] theorem State.doIdentify_slot (s : State) (c : Nat) (cid : Nat) (cns : Nat) (nsid : Nat) : (s.doIdentify c cid cns nsid).slot = s.slot := (s.doIdentify_kept c cid cns nsid).same.slot
@[simp] theorem State.doIdentify_uid (s : State) (c : Nat) (cid : Nat) (cns : Nat) (nsid : Nat) : (s.doIdentify c cid cns nsid).uid = s.uid := (s.doIdentify_kept c cid cns nsid).same.uid
@[simp] theorem State.doIdentify_pending (s : State) (c : Nat) (cid : Nat) (cns : Nat) (nsid : Nat) : (s.doIdentify c cid cns nsid).pending = s.pending := (s.doIdentify_kept c cid cns nsid).pending
@[simp] theorem State.doIdentify_freeCtr (s : State) (c : Nat) (cid : Nat) (cns : Nat) (nsid : Nat) : (s.doIdentify c cid cns nsid).freeCtr = s.freeCtr := (s.doIdentify_kept c cid cns nsid).only.free.resolve_left Bool.false_ne_true

theorem State.doLog_kept (s : State) (c : Nat) (cid : Nat) (lid : Nat) : Kept { hce := true, moved := true, out := true, xbr := true, pmu := true, free := true, rfx := true } s (s.doLog c cid lid) :=
  Kept.doLog _ _ _ (Kept.refl s) (hHce := rfl) (hMoved := rfl) (hOut := rfl) (hXbr := rfl) (hPmu := rfl) (hFree := rfl) (hRfx := rfl)
@[simp] theorem State.doLog_rfu (s : State) (c : Nat) (cid : Nat) (lid : Nat) : (s.doLog c cid lid).rfu = s.rfu := (s.doLog_kept c cid lid).only.rfu.resolve_left Bool.false_ne_true
@[simp] theorem State.doLog_rge (s : State) (c : Nat) (cid : Nat) (lid : Nat) : (s.doLog c cid lid).rge = s.rge := (s.doLog_kept c cid lid).only.rge.resolve_left Bool.false_ne_true
@[simp] theorem State.doLog_snt (s : State) (c : Nat) (cid : Nat) (lid : Nat) : (s.doLog c cid lid).snt = s.snt := (s.doLog_kept c cid lid).only.snt.resolve_left Bool.false_ne_true
@[simp] theorem State.doLog_tk (s : State) (c : Nat) (cid : Nat) (lid : Nat) : (s.doLog c cid lid).tk = s.tk := (s.doLog_kept c cid lid).only.tk.resolve_left Bool.false_ne_true
@[simp] theorem State.doLog_vsm (s : State) (c : Nat) (cid : Nat) (lid : Nat) : (s.doLog c cid lid).vsm = s.vsm := (s.doLog_kept c cid lid).only.vsm.resolve_left Bool.false_ne_true
@[simp] theorem State.doLog_kvt (s : State) (c : Nat) (cid : Nat) (lid : Nat) : (s.doLog c cid lid).kvt = s.kvt := (s.doLog_kept c cid lid).only.kvt.resolve_left Bool.false_ne_true
@[simp] theorem State.doLog_mbx (s : State) (c : Nat) (cid : Nat) (lid : Nat) : (s.doLog c cid lid).mbx = s.mbx := (s.doLog_kept c cid lid).only.mbx.resolve_left Bool.false_ne_true
@[simp] theorem State.doLog_bay (s : State) (c : Nat) (cid : Nat) (lid : Nat) : (s.doLog c cid lid).bay = s.bay := (s.doLog_kept c cid lid).only.bay.resolve_left Bool.false_ne_true
@[simp] theorem State.doLog_props (s : State) (c : Nat) (cid : Nat) (lid : Nat) : (s.doLog c cid lid).props = s.props := (s.doLog_kept c cid lid).only.props.resolve_left Bool.false_ne_true
@[simp] theorem State.doLog_ppc (s : State) (c : Nat) (cid : Nat) (lid : Nat) : (s.doLog c cid lid).ppc = s.ppc := (s.doLog_kept c cid lid).only.ppc.resolve_left Bool.false_ne_true
@[simp] theorem State.doLog_sep (s : State) (c : Nat) (cid : Nat) (lid : Nat) : (s.doLog c cid lid).sep = s.sep := (s.doLog_kept c cid lid).only.sep.resolve_left Bool.false_ne_true
@[simp] theorem State.doLog_pwr (s : State) (c : Nat) (cid : Nat) (lid : Nat) : (s.doLog c cid lid).pwr = s.pwr := (s.doLog_kept c cid lid).only.pwr.resolve_left Bool.false_ne_true
@[simp] theorem State.doLog_lcu (s : State) (c : Nat) (cid : Nat) (lid : Nat) : (s.doLog c cid lid).lcu = s.lcu := (s.doLog_kept c cid lid).only.lcu.resolve_left Bool.false_ne_true
@[simp] theorem State.doLog_tst (s : State) (c : Nat) (cid : Nat) (lid : Nat) : (s.doLog c cid lid).tst = s.tst := (s.doLog_kept c cid lid).only.tst.resolve_left Bool.false_ne_true
@[simp] theorem State.doLog_mac (s : State) (c : Nat) (cid : Nat) (lid : Nat) : (s.doLog c cid lid).mac = s.mac := (s.doLog_kept c cid lid).only.mac.resolve_left Bool.false_ne_true
@[simp] theorem State.doLog_now (s : State) (c : Nat) (cid : Nat) (lid : Nat) : (s.doLog c cid lid).now = s.now := (s.doLog_kept c cid lid).same.now
@[simp] theorem State.doLog_part (s : State) (c : Nat) (cid : Nat) (lid : Nat) : (s.doLog c cid lid).part = s.part := (s.doLog_kept c cid lid).same.part
@[simp] theorem State.doLog_slot (s : State) (c : Nat) (cid : Nat) (lid : Nat) : (s.doLog c cid lid).slot = s.slot := (s.doLog_kept c cid lid).same.slot
@[simp] theorem State.doLog_uid (s : State) (c : Nat) (cid : Nat) (lid : Nat) : (s.doLog c cid lid).uid = s.uid := (s.doLog_kept c cid lid).same.uid
@[simp] theorem State.doLog_pending (s : State) (c : Nat) (cid : Nat) (lid : Nat) : (s.doLog c cid lid).pending = s.pending := (s.doLog_kept c cid lid).pending

theorem State.notAborted_kept (s : State) (c : Nat) (acid : Nat) : Kept { hce := true, out := true, xbr := true, pmu := true, moved := true, rfx := true } s (s.notAborted c acid) :=
  Kept.notAborted _ _ (Kept.refl s) (hHce := rfl) (hOut := rfl) (hXbr := rfl) (hPmu := rfl) (hMoved := rfl) (hRfx := rfl)
@[simp] theorem State.notAborted_rfu (s : State) (c : Nat) (acid : Nat) : (s.notAborted c acid).rfu = s.rfu := (s.notAborted_kept c acid).only.rfu.resolve_left Bool.false_ne_true
@[simp] theorem State.notAborted_rge (s : State) (c : Nat) (acid : Nat) : (s.notAborted c acid).rge = s.rge := (s.notAborted_kept c acid).only.rge.resolve_left Bool.false_ne_true
@[simp] theorem State.notAborted_snt (s : State) (c : Nat) (acid : Nat) : (s.notAborted c acid).snt = s.snt := (s.notAborted_kept c acid).only.snt.resolve_left Bool.false_ne_true
@[simp] theorem State.notAborted_tk (s : State) (c : Nat) (acid : Nat) : (s.notAborted c acid).tk = s.tk := (s.notAborted_kept c acid).only.tk.resolve_left Bool.false_ne_true
@[simp] theorem State.notAborted_vsm (s : State) (c : Nat) (acid : Nat) : (s.notAborted c acid).vsm = s.vsm := (s.notAborted_kept c acid).only.vsm.resolve_left Bool.false_ne_true
@[simp] theorem State.notAborted_kvt (s : State) (c : Nat) (acid : Nat) : (s.notAborted c acid).kvt = s.kvt := (s.notAborted_kept c acid).only.kvt.resolve_left Bool.false_ne_true
@[simp] theorem State.notAborted_mbx (s : State) (c : Nat) (acid : Nat) : (s.notAborted c acid).mbx = s.mbx := (s.notAborted_kept c acid).only.mbx.resolve_left Bool.false_ne_true
@[simp] theorem State.notAborted_bay (s : State) (c : Nat) (acid : Nat) : (s.notAborted c acid).bay = s.bay := (s.notAborted_kept c acid).only.bay.resolve_left Bool.false_ne_true
@[simp] theorem State.notAborted_props (s : State) (c : Nat) (acid : Nat) : (s.notAborted c acid).props = s.props := (s.notAborted_kept c acid).only.props.resolve_left Bool.false_ne_true
@[simp] theorem State.notAborted_ppc (s : State) (c : Nat) (acid : Nat) : (s.notAborted c acid).ppc = s.ppc := (s.notAborted_kept c acid).only.ppc.resolve_left Bool.false_ne_true
@[simp] theorem State.notAborted_sep (s : State) (c : Nat) (acid : Nat) : (s.notAborted c acid).sep = s.sep := (s.notAborted_kept c acid).only.sep.resolve_left Bool.false_ne_true
@[simp] theorem State.notAborted_pwr (s : State) (c : Nat) (acid : Nat) : (s.notAborted c acid).pwr = s.pwr := (s.notAborted_kept c acid).only.pwr.resolve_left Bool.false_ne_true
@[simp] theorem State.notAborted_lcu (s : State) (c : Nat) (acid : Nat) : (s.notAborted c acid).lcu = s.lcu := (s.notAborted_kept c acid).only.lcu.resolve_left Bool.false_ne_true
@[simp] theorem State.notAborted_tst (s : State) (c : Nat) (acid : Nat) : (s.notAborted c acid).tst = s.tst := (s.notAborted_kept c acid).only.tst.resolve_left Bool.false_ne_true
@[simp] theorem State.notAborted_mac (s : State) (c : Nat) (acid : Nat) : (s.notAborted c acid).mac = s.mac := (s.notAborted_kept c acid).only.mac.resolve_left Bool.false_ne_true
@[simp] theorem State.notAborted_now (s : State) (c : Nat) (acid : Nat) : (s.notAborted c acid).now = s.now := (s.notAborted_kept c acid).same.now
@[simp] theorem State.notAborted_part (s : State) (c : Nat) (acid : Nat) : (s.notAborted c acid).part = s.part := (s.notAborted_kept c acid).same.part
@[simp] theorem State.notAborted_slot (s : State) (c : Nat) (acid : Nat) : (s.notAborted c acid).slot = s.slot := (s.notAborted_kept c acid).same.slot
@[simp] theorem State.notAborted_uid (s : State) (c : Nat) (acid : Nat) : (s.notAborted c acid).uid = s.uid := (s.notAborted_kept c acid).same.uid
@[simp] theorem State.notAborted_pending (s : State) (c : Nat) (acid : Nat) : (s.notAborted c acid).pending = s.pending := (s.notAborted_kept c acid).pending
@[simp] theorem State.notAborted_freeCtr (s : State) (c : Nat) (acid : Nat) : (s.notAborted c acid).freeCtr = s.freeCtr := (s.notAborted_kept c acid).only.free.resolve_left Bool.false_ne_true

theorem State.doAbort_kept (s : State) (c : Nat) (acid : Nat) (sqid : Nat) (cid : Nat) : Kept { rfu := true, xbr := true, moved := true, hce := true, out := true, pmu := true, rfx := true } s (s.doAbort c acid sqid cid) :=
  Kept.doAbort _ _ _ _ (Kept.refl s) (hRfu := rfl) (hXbr := rfl) (hMoved := rfl) (hHce := rfl) (hOut := rfl) (hPmu := rfl) (hRfx := rfl)
@[simp] theorem State.doAbort_rge (s : State) (c : Nat) (acid : Nat) (sqid : Nat) (cid : Nat) : (s.doAbort c acid sqid cid).rge = s.rge := (s.doAbort_kept c acid sqid cid).only.rge.resolve_left Bool.false_ne_true
@[simp] theorem State.doAbort_snt (s : State) (c : Nat) (acid : Nat) (sqid : Nat) (cid : Nat) : (s.doAbort c acid sqid cid).snt = s.snt := (s.doAbort_kept c acid sqid cid).only.snt.resolve_left Bool.false_ne_true
@[simp] theorem State.doAbort_tk (s : State) (c : Nat) (acid : Nat) (sqid : Nat) (cid : Nat) : (s.doAbort c acid sqid cid).tk = s.tk := (s.doAbort_kept c acid sqid cid).only.tk.resolve_left Bool.false_ne_true
@[simp] theorem State.doAbort_vsm (s : State) (c : Nat) (acid : Nat) (sqid : Nat) (cid : Nat) : (s.doAbort c acid sqid cid).vsm = s.vsm := (s.doAbort_kept c acid sqid cid).only.vsm.resolve_left Bool.false_ne_true
@[simp] theorem State.doAbort_kvt (s : State) (c : Nat) (acid : Nat) (sqid : Nat) (cid : Nat) : (s.doAbort c acid sqid cid).kvt = s.kvt := (s.doAbort_kept c acid sqid cid).only.kvt.resolve_left Bool.false_ne_true
@[simp] theorem State.doAbort_mbx (s : State) (c : Nat) (acid : Nat) (sqid : Nat) (cid : Nat) : (s.doAbort c acid sqid cid).mbx = s.mbx := (s.doAbort_kept c acid sqid cid).only.mbx.resolve_left Bool.false_ne_true
@[simp] theorem State.doAbort_bay (s : State) (c : Nat) (acid : Nat) (sqid : Nat) (cid : Nat) : (s.doAbort c acid sqid cid).bay = s.bay := (s.doAbort_kept c acid sqid cid).only.bay.resolve_left Bool.false_ne_true
@[simp] theorem State.doAbort_props (s : State) (c : Nat) (acid : Nat) (sqid : Nat) (cid : Nat) : (s.doAbort c acid sqid cid).props = s.props := (s.doAbort_kept c acid sqid cid).only.props.resolve_left Bool.false_ne_true
@[simp] theorem State.doAbort_ppc (s : State) (c : Nat) (acid : Nat) (sqid : Nat) (cid : Nat) : (s.doAbort c acid sqid cid).ppc = s.ppc := (s.doAbort_kept c acid sqid cid).only.ppc.resolve_left Bool.false_ne_true
@[simp] theorem State.doAbort_sep (s : State) (c : Nat) (acid : Nat) (sqid : Nat) (cid : Nat) : (s.doAbort c acid sqid cid).sep = s.sep := (s.doAbort_kept c acid sqid cid).only.sep.resolve_left Bool.false_ne_true
@[simp] theorem State.doAbort_pwr (s : State) (c : Nat) (acid : Nat) (sqid : Nat) (cid : Nat) : (s.doAbort c acid sqid cid).pwr = s.pwr := (s.doAbort_kept c acid sqid cid).only.pwr.resolve_left Bool.false_ne_true
@[simp] theorem State.doAbort_lcu (s : State) (c : Nat) (acid : Nat) (sqid : Nat) (cid : Nat) : (s.doAbort c acid sqid cid).lcu = s.lcu := (s.doAbort_kept c acid sqid cid).only.lcu.resolve_left Bool.false_ne_true
@[simp] theorem State.doAbort_tst (s : State) (c : Nat) (acid : Nat) (sqid : Nat) (cid : Nat) : (s.doAbort c acid sqid cid).tst = s.tst := (s.doAbort_kept c acid sqid cid).only.tst.resolve_left Bool.false_ne_true
@[simp] theorem State.doAbort_mac (s : State) (c : Nat) (acid : Nat) (sqid : Nat) (cid : Nat) : (s.doAbort c acid sqid cid).mac = s.mac := (s.doAbort_kept c acid sqid cid).only.mac.resolve_left Bool.false_ne_true
@[simp] theorem State.doAbort_now (s : State) (c : Nat) (acid : Nat) (sqid : Nat) (cid : Nat) : (s.doAbort c acid sqid cid).now = s.now := (s.doAbort_kept c acid sqid cid).same.now
@[simp] theorem State.doAbort_part (s : State) (c : Nat) (acid : Nat) (sqid : Nat) (cid : Nat) : (s.doAbort c acid sqid cid).part = s.part := (s.doAbort_kept c acid sqid cid).same.part
@[simp] theorem State.doAbort_slot (s : State) (c : Nat) (acid : Nat) (sqid : Nat) (cid : Nat) : (s.doAbort c acid sqid cid).slot = s.slot := (s.doAbort_kept c acid sqid cid).same.slot
@[simp] theorem State.doAbort_uid (s : State) (c : Nat) (acid : Nat) (sqid : Nat) (cid : Nat) : (s.doAbort c acid sqid cid).uid = s.uid := (s.doAbort_kept c acid sqid cid).same.uid
@[simp] theorem State.doAbort_pending (s : State) (c : Nat) (acid : Nat) (sqid : Nat) (cid : Nat) : (s.doAbort c acid sqid cid).pending = s.pending := (s.doAbort_kept c acid sqid cid).pending
@[simp] theorem State.doAbort_freeCtr (s : State) (c : Nat) (acid : Nat) (sqid : Nat) (cid : Nat) : (s.doAbort c acid sqid cid).freeCtr = s.freeCtr := (s.doAbort_kept c acid sqid cid).only.free.resolve_left Bool.false_ne_true

theorem State.adminSubmit_kept (s : State) (c : Nat) (cid : Nat) (op : Nat) (i : Instr) : Kept { rfu := true, xbr := true, moved := true, free := true, hce := true, mbx := true, kvt := true, out := true, pmu := true, rfx := true } s (s.adminSubmit c cid op i) :=
  Kept.adminSubmit _ _ _ _ (Kept.refl s) (hRfu := rfl) (hXbr := rfl) (hMoved := rfl) (hFree := rfl) (hHce := rfl) (hMbx := rfl) (hKvt := rfl) (hOut := rfl) (hPmu := rfl) (hRfx := rfl)
@[simp] theorem State.adminSubmit_rge (s : State) (c : Nat) (cid : Nat) (op : Nat) (i : Instr) : (s.adminSubmit c cid op i).rge = s.rge := (s.adminSubmit_kept c cid op i).only.rge.resolve_left Bool.false_ne_true
@[simp] theorem State.adminSubmit_snt (s : State) (c : Nat) (cid : Nat) (op : Nat) (i : Instr) : (s.adminSubmit c cid op i).snt = s.snt := (s.adminSubmit_kept c cid op i).only.snt.resolve_left Bool.false_ne_true
@[simp] theorem State.adminSubmit_tk (s : State) (c : Nat) (cid : Nat) (op : Nat) (i : Instr) : (s.adminSubmit c cid op i).tk = s.tk := (s.adminSubmit_kept c cid op i).only.tk.resolve_left Bool.false_ne_true
@[simp] theorem State.adminSubmit_vsm (s : State) (c : Nat) (cid : Nat) (op : Nat) (i : Instr) : (s.adminSubmit c cid op i).vsm = s.vsm := (s.adminSubmit_kept c cid op i).only.vsm.resolve_left Bool.false_ne_true
@[simp] theorem State.adminSubmit_bay (s : State) (c : Nat) (cid : Nat) (op : Nat) (i : Instr) : (s.adminSubmit c cid op i).bay = s.bay := (s.adminSubmit_kept c cid op i).only.bay.resolve_left Bool.false_ne_true
@[simp] theorem State.adminSubmit_props (s : State) (c : Nat) (cid : Nat) (op : Nat) (i : Instr) : (s.adminSubmit c cid op i).props = s.props := (s.adminSubmit_kept c cid op i).only.props.resolve_left Bool.false_ne_true
@[simp] theorem State.adminSubmit_ppc (s : State) (c : Nat) (cid : Nat) (op : Nat) (i : Instr) : (s.adminSubmit c cid op i).ppc = s.ppc := (s.adminSubmit_kept c cid op i).only.ppc.resolve_left Bool.false_ne_true
@[simp] theorem State.adminSubmit_sep (s : State) (c : Nat) (cid : Nat) (op : Nat) (i : Instr) : (s.adminSubmit c cid op i).sep = s.sep := (s.adminSubmit_kept c cid op i).only.sep.resolve_left Bool.false_ne_true
@[simp] theorem State.adminSubmit_pwr (s : State) (c : Nat) (cid : Nat) (op : Nat) (i : Instr) : (s.adminSubmit c cid op i).pwr = s.pwr := (s.adminSubmit_kept c cid op i).only.pwr.resolve_left Bool.false_ne_true
@[simp] theorem State.adminSubmit_lcu (s : State) (c : Nat) (cid : Nat) (op : Nat) (i : Instr) : (s.adminSubmit c cid op i).lcu = s.lcu := (s.adminSubmit_kept c cid op i).only.lcu.resolve_left Bool.false_ne_true
@[simp] theorem State.adminSubmit_tst (s : State) (c : Nat) (cid : Nat) (op : Nat) (i : Instr) : (s.adminSubmit c cid op i).tst = s.tst := (s.adminSubmit_kept c cid op i).only.tst.resolve_left Bool.false_ne_true
@[simp] theorem State.adminSubmit_mac (s : State) (c : Nat) (cid : Nat) (op : Nat) (i : Instr) : (s.adminSubmit c cid op i).mac = s.mac := (s.adminSubmit_kept c cid op i).only.mac.resolve_left Bool.false_ne_true
@[simp] theorem State.adminSubmit_now (s : State) (c : Nat) (cid : Nat) (op : Nat) (i : Instr) : (s.adminSubmit c cid op i).now = s.now := (s.adminSubmit_kept c cid op i).same.now
@[simp] theorem State.adminSubmit_part (s : State) (c : Nat) (cid : Nat) (op : Nat) (i : Instr) : (s.adminSubmit c cid op i).part = s.part := (s.adminSubmit_kept c cid op i).same.part
@[simp] theorem State.adminSubmit_slot (s : State) (c : Nat) (cid : Nat) (op : Nat) (i : Instr) : (s.adminSubmit c cid op i).slot = s.slot := (s.adminSubmit_kept c cid op i).same.slot
@[simp] theorem State.adminSubmit_uid (s : State) (c : Nat) (cid : Nat) (op : Nat) (i : Instr) : (s.adminSubmit c cid op i).uid = s.uid := (s.adminSubmit_kept c cid op i).same.uid
@[simp] theorem State.adminSubmit_pending (s : State) (c : Nat) (cid : Nat) (op : Nat) (i : Instr) : (s.adminSubmit c cid op i).pending = s.pending := (s.adminSubmit_kept c cid op i).pending

theorem State.startOp_kept (s : State) (idx : Nat) (op : Nat) (v : Nat) (n : Nat) (lbaf : Nat) (rest : List Nat) (cmd : Option (Nat × Nat)) : Kept { hce := true, out := true, xbr := true, pmu := true, moved := true, rfx := true } s (s.startOp idx op v n lbaf rest cmd) :=
  Kept.startOp _ _ _ _ _ _ _ (Kept.refl s) (hHce := rfl) (hOut := rfl) (hXbr := rfl) (hPmu := rfl) (hMoved := rfl) (hRfx := rfl)
@[simp] theorem State.startOp_rfu (s : State) (idx : Nat) (op : Nat) (v : Nat) (n : Nat) (lbaf : Nat) (rest : List Nat) (cmd : Option (Nat × Nat)) : (s.startOp idx op v n lbaf rest cmd).rfu = s.rfu := (s.startOp_kept idx op v n lbaf rest cmd).only.rfu.resolve_left Bool.false_ne_true
@[simp] theorem State.startOp_rge (s : State) (idx : Nat) (op : Nat) (v : Nat) (n : Nat) (lbaf : Nat) (rest : List Nat) (cmd : Option (Nat × Nat)) : (s.startOp idx op v n lbaf rest cmd).rge = s.rge := (s.startOp_kept idx op v n lbaf rest cmd).only.rge.resolve_left Bool.false_ne_true
@[simp] theorem State.startOp_snt (s : State) (idx : Nat) (op : Nat) (v : Nat) (n : Nat) (lbaf : Nat) (rest : List Nat) (cmd : Option (Nat × Nat)) : (s.startOp idx op v n lbaf rest cmd).snt = s.snt := (s.startOp_kept idx op v n lbaf rest cmd).only.snt.resolve_left Bool.false_ne_true
@[simp] theorem State.startOp_tk (s : State) (idx : Nat) (op : Nat) (v : Nat) (n : Nat) (lbaf : Nat) (rest : List Nat) (cmd : Option (Nat × Nat)) : (s.startOp idx op v n lbaf rest cmd).tk = s.tk := (s.startOp_kept idx op v n lbaf rest cmd).only.tk.resolve_left Bool.false_ne_true
@[simp] theorem State.startOp_vsm (s : State) (idx : Nat) (op : Nat) (v : Nat) (n : Nat) (lbaf : Nat) (rest : List Nat) (cmd : Option (Nat × Nat)) : (s.startOp idx op v n lbaf rest cmd).vsm = s.vsm := (s.startOp_kept idx op v n lbaf rest cmd).only.vsm.resolve_left Bool.false_ne_true
@[simp] theorem State.startOp_kvt (s : State) (idx : Nat) (op : Nat) (v : Nat) (n : Nat) (lbaf : Nat) (rest : List Nat) (cmd : Option (Nat × Nat)) : (s.startOp idx op v n lbaf rest cmd).kvt = s.kvt := (s.startOp_kept idx op v n lbaf rest cmd).only.kvt.resolve_left Bool.false_ne_true
@[simp] theorem State.startOp_mbx (s : State) (idx : Nat) (op : Nat) (v : Nat) (n : Nat) (lbaf : Nat) (rest : List Nat) (cmd : Option (Nat × Nat)) : (s.startOp idx op v n lbaf rest cmd).mbx = s.mbx := (s.startOp_kept idx op v n lbaf rest cmd).only.mbx.resolve_left Bool.false_ne_true
@[simp] theorem State.startOp_bay (s : State) (idx : Nat) (op : Nat) (v : Nat) (n : Nat) (lbaf : Nat) (rest : List Nat) (cmd : Option (Nat × Nat)) : (s.startOp idx op v n lbaf rest cmd).bay = s.bay := (s.startOp_kept idx op v n lbaf rest cmd).only.bay.resolve_left Bool.false_ne_true
@[simp] theorem State.startOp_props (s : State) (idx : Nat) (op : Nat) (v : Nat) (n : Nat) (lbaf : Nat) (rest : List Nat) (cmd : Option (Nat × Nat)) : (s.startOp idx op v n lbaf rest cmd).props = s.props := (s.startOp_kept idx op v n lbaf rest cmd).only.props.resolve_left Bool.false_ne_true
@[simp] theorem State.startOp_ppc (s : State) (idx : Nat) (op : Nat) (v : Nat) (n : Nat) (lbaf : Nat) (rest : List Nat) (cmd : Option (Nat × Nat)) : (s.startOp idx op v n lbaf rest cmd).ppc = s.ppc := (s.startOp_kept idx op v n lbaf rest cmd).only.ppc.resolve_left Bool.false_ne_true
@[simp] theorem State.startOp_sep (s : State) (idx : Nat) (op : Nat) (v : Nat) (n : Nat) (lbaf : Nat) (rest : List Nat) (cmd : Option (Nat × Nat)) : (s.startOp idx op v n lbaf rest cmd).sep = s.sep := (s.startOp_kept idx op v n lbaf rest cmd).only.sep.resolve_left Bool.false_ne_true
@[simp] theorem State.startOp_pwr (s : State) (idx : Nat) (op : Nat) (v : Nat) (n : Nat) (lbaf : Nat) (rest : List Nat) (cmd : Option (Nat × Nat)) : (s.startOp idx op v n lbaf rest cmd).pwr = s.pwr := (s.startOp_kept idx op v n lbaf rest cmd).only.pwr.resolve_left Bool.false_ne_true
@[simp] theorem State.startOp_lcu (s : State) (idx : Nat) (op : Nat) (v : Nat) (n : Nat) (lbaf : Nat) (rest : List Nat) (cmd : Option (Nat × Nat)) : (s.startOp idx op v n lbaf rest cmd).lcu = s.lcu := (s.startOp_kept idx op v n lbaf rest cmd).only.lcu.resolve_left Bool.false_ne_true
@[simp] theorem State.startOp_tst (s : State) (idx : Nat) (op : Nat) (v : Nat) (n : Nat) (lbaf : Nat) (rest : List Nat) (cmd : Option (Nat × Nat)) : (s.startOp idx op v n lbaf rest cmd).tst = s.tst := (s.startOp_kept idx op v n lbaf rest cmd).only.tst.resolve_left Bool.false_ne_true
@[simp] theorem State.startOp_mac (s : State) (idx : Nat) (op : Nat) (v : Nat) (n : Nat) (lbaf : Nat) (rest : List Nat) (cmd : Option (Nat × Nat)) : (s.startOp idx op v n lbaf rest cmd).mac = s.mac := (s.startOp_kept idx op v n lbaf rest cmd).only.mac.resolve_left Bool.false_ne_true
@[simp] theorem State.startOp_now (s : State) (idx : Nat) (op : Nat) (v : Nat) (n : Nat) (lbaf : Nat) (rest : List Nat) (cmd : Option (Nat × Nat)) : (s.startOp idx op v n lbaf rest cmd).now = s.now := (s.startOp_kept idx op v n lbaf rest cmd).same.now
@[simp] theorem State.startOp_part (s : State) (idx : Nat) (op : Nat) (v : Nat) (n : Nat) (lbaf : Nat) (rest : List Nat) (cmd : Option (Nat × Nat)) : (s.startOp idx op v n lbaf rest cmd).part = s.part := (s.startOp_kept idx op v n lbaf rest cmd).same.part
@[simp] theorem State.startOp_slot (s : State) (idx : Nat) (op : Nat) (v : Nat) (n : Nat) (lbaf : Nat) (rest : List Nat) (cmd : Option (Nat × Nat)) : (s.startOp idx op v n lbaf rest cmd).slot = s.slot := (s.startOp_kept idx op v n lbaf rest cmd).same.slot
@[simp] theorem State.startOp_uid (s : State) (idx : Nat) (op : Nat) (v : Nat) (n : Nat) (lbaf : Nat) (rest : List Nat) (cmd : Option (Nat × Nat)) : (s.startOp idx op v n lbaf rest cmd).uid = s.uid := (s.startOp_kept idx op v n lbaf rest cmd).same.uid
@[simp] theorem State.startOp_pending (s : State) (idx : Nat) (op : Nat) (v : Nat) (n : Nat) (lbaf : Nat) (rest : List Nat) (cmd : Option (Nat × Nat)) : (s.startOp idx op v n lbaf rest cmd).pending = s.pending := (s.startOp_kept idx op v n lbaf rest cmd).pending
@[simp] theorem State.startOp_freeCtr (s : State) (idx : Nat) (op : Nat) (v : Nat) (n : Nat) (lbaf : Nat) (rest : List Nat) (cmd : Option (Nat × Nat)) : (s.startOp idx op v n lbaf rest cmd).freeCtr = s.freeCtr := (s.startOp_kept idx op v n lbaf rest cmd).only.free.resolve_left Bool.false_ne_true

theorem State.putProgress_kept (s : State) (idx : Nat) (f : Progress → Progress) : Kept { hce := true, out := true, xbr := true, pmu := true, moved := true, rfx := true } s (s.putProgress idx f) :=
  Kept.putProgress _ _ (Kept.refl s) (hHce := rfl) (hOut := rfl) (hXbr := rfl) (hPmu := rfl) (hMoved := rfl) (hRfx := rfl)
@[simp] theorem State.putProgress_rfu (s : State) (idx : Nat) (f : Progress → Progress) : (s.putProgress idx f).rfu = s.rfu := (s.putProgress_kept idx f).only.rfu.resolve_left Bool.false_ne_true
@[simp] theorem State.putProgress_rge (s : State) (idx : Nat) (f : Progress → Progress) : (s.putProgress idx f).rge = s.rge := (s.putProgress_kept idx f).only.rge.resolve_left Bool.false_ne_true
@[simp] theorem State.putProgress_snt (s : State) (idx : Nat) (f : Progress → Progress) : (s.putProgress idx f).snt = s.snt := (s.putProgress_kept idx f).only.snt.resolve_left Bool.false_ne_true
@[simp] theorem State.putProgress_tk (s : State) (idx : Nat) (f : Progress → Progress) : (s.putProgress idx f).tk = s.tk := (s.putProgress_kept idx f).only.tk.resolve_left Bool.false_ne_true
@[simp] theorem State.putProgress_vsm (s : State) (idx : Nat) (f : Progress → Progress) : (s.putProgress idx f).vsm = s.vsm := (s.putProgress_kept idx f).only.vsm.resolve_left Bool.false_ne_true
@[simp] theorem State.putProgress_kvt (s : State) (idx : Nat) (f : Progress → Progress) : (s.putProgress idx f).kvt = s.kvt := (s.putProgress_kept idx f).only.kvt.resolve_left Bool.false_ne_true
@[simp] theorem State.putProgress_mbx (s : State) (idx : Nat) (f : Progress → Progress) : (s.putProgress idx f).mbx = s.mbx := (s.putProgress_kept idx f).only.mbx.resolve_left Bool.false_ne_true
@[simp] theorem State.putProgress_bay (s : State) (idx : Nat) (f : Progress → Progress) : (s.putProgress idx f).bay = s.bay := (s.putProgress_kept idx f).only.bay.resolve_left Bool.false_ne_true
@[simp] theorem State.putProgress_props (s : State) (idx : Nat) (f : Progress → Progress) : (s.putProgress idx f).props = s.props := (s.putProgress_kept idx f).only.props.resolve_left Bool.false_ne_true
@[simp] theorem State.putProgress_ppc (s : State) (idx : Nat) (f : Progress → Progress) : (s.putProgress idx f).ppc = s.ppc := (s.putProgress_kept idx f).only.ppc.resolve_left Bool.false_ne_true
@[simp] theorem State.putProgress_sep (s : State) (idx : Nat) (f : Progress → Progress) : (s.putProgress idx f).sep = s.sep := (s.putProgress_kept idx f).only.sep.resolve_left Bool.false_ne_true
@[simp] theorem State.putProgress_pwr (s : State) (idx : Nat) (f : Progress → Progress) : (s.putProgress idx f).pwr = s.pwr := (s.putProgress_kept idx f).only.pwr.resolve_left Bool.false_ne_true
@[simp] theorem State.putProgress_lcu (s : State) (idx : Nat) (f : Progress → Progress) : (s.putProgress idx f).lcu = s.lcu := (s.putProgress_kept idx f).only.lcu.resolve_left Bool.false_ne_true
@[simp] theorem State.putProgress_tst (s : State) (idx : Nat) (f : Progress → Progress) : (s.putProgress idx f).tst = s.tst := (s.putProgress_kept idx f).only.tst.resolve_left Bool.false_ne_true
@[simp] theorem State.putProgress_mac (s : State) (idx : Nat) (f : Progress → Progress) : (s.putProgress idx f).mac = s.mac := (s.putProgress_kept idx f).only.mac.resolve_left Bool.false_ne_true
@[simp] theorem State.putProgress_now (s : State) (idx : Nat) (f : Progress → Progress) : (s.putProgress idx f).now = s.now := (s.putProgress_kept idx f).same.now
@[simp] theorem State.putProgress_part (s : State) (idx : Nat) (f : Progress → Progress) : (s.putProgress idx f).part = s.part := (s.putProgress_kept idx f).same.part
@[simp] theorem State.putProgress_slot (s : State) (idx : Nat) (f : Progress → Progress) : (s.putProgress idx f).slot = s.slot := (s.putProgress_kept idx f).same.slot
@[simp] theorem State.putProgress_uid (s : State) (idx : Nat) (f : Progress → Progress) : (s.putProgress idx f).uid = s.uid := (s.putProgress_kept idx f).same.uid
@[simp] theorem State.putProgress_pending (s : State) (idx : Nat) (f : Progress → Progress) : (s.putProgress idx f).pending = s.pending := (s.putProgress_kept idx f).pending
@[simp] theorem State.putProgress_freeCtr (s : State) (idx : Nat) (f : Progress → Progress) : (s.putProgress idx f).freeCtr = s.freeCtr := (s.putProgress_kept idx f).only.free.resolve_left Bool.false_ne_true

theorem State.freeProgress_kept (s : State) (idx : Nat) : Kept { hce := true, out := true, xbr := true, pmu := true, moved := true, rfx := true } s (s.freeProgress idx) :=
  Kept.freeProgress _ (Kept.refl s) (hHce := rfl) (hOut := rfl) (hXbr := rfl) (hPmu := rfl) (hMoved := rfl) (hRfx := rfl)
@[simp] theorem State.freeProgress_rfu (s : State) (idx : Nat) : (s.freeProgress idx).rfu = s.rfu := (s.freeProgress_kept idx).only.rfu.resolve_left Bool.false_ne_true
@[simp] theorem State.freeProgress_rge (s : State) (idx : Nat) : (s.freeProgress idx).rge = s.rge := (s.freeProgress_kept idx).only.rge.resolve_left Bool.false_ne_true
@[simp] theorem State.freeProgress_snt (s : State) (idx : Nat) : (s.freeProgress idx).snt = s.snt := (s.freeProgress_kept idx).only.snt.resolve_left Bool.false_ne_true
@[simp] theorem State.freeProgress_tk (s : State) (idx : Nat) : (s.freeProgress idx).tk = s.tk := (s.freeProgress_kept idx).only.tk.resolve_left Bool.false_ne_true
@[simp] theorem State.freeProgress_vsm (s : State) (idx : Nat) : (s.freeProgress idx).vsm = s.vsm := (s.freeProgress_kept idx).only.vsm.resolve_left Bool.false_ne_true
@[simp] theorem State.freeProgress_kvt (s : State) (idx : Nat) : (s.freeProgress idx).kvt = s.kvt := (s.freeProgress_kept idx).only.kvt.resolve_left Bool.false_ne_true
@[simp] theorem State.freeProgress_mbx (s : State) (idx : Nat) : (s.freeProgress idx).mbx = s.mbx := (s.freeProgress_kept idx).only.mbx.resolve_left Bool.false_ne_true
@[simp] theorem State.freeProgress_bay (s : State) (idx : Nat) : (s.freeProgress idx).bay = s.bay := (s.freeProgress_kept idx).only.bay.resolve_left Bool.false_ne_true
@[simp] theorem State.freeProgress_props (s : State) (idx : Nat) : (s.freeProgress idx).props = s.props := (s.freeProgress_kept idx).only.props.resolve_left Bool.false_ne_true
@[simp] theorem State.freeProgress_ppc (s : State) (idx : Nat) : (s.freeProgress idx).ppc = s.ppc := (s.freeProgress_kept idx).only.ppc.resolve_left Bool.false_ne_true
@[simp] theorem State.freeProgress_sep (s : State) (idx : Nat) : (s.freeProgress idx).sep = s.sep := (s.freeProgress_kept idx).only.sep.resolve_left Bool.false_ne_true
@[simp] theorem State.freeProgress_pwr (s : State) (idx : Nat) : (s.freeProgress idx).pwr = s.pwr := (s.freeProgress_kept idx).only.pwr.resolve_left Bool.false_ne_true
@[simp] theorem State.freeProgress_lcu (s : State) (idx : Nat) : (s.freeProgress idx).lcu = s.lcu := (s.freeProgress_kept idx).only.lcu.resolve_left Bool.false_ne_true
@[simp] theorem State.freeProgress_tst (s : State) (idx : Nat) : (s.freeProgress idx).tst = s.tst := (s.freeProgress_kept idx).only.tst.resolve_left Bool.false_ne_true
@[simp] theorem State.freeProgress_mac (s : State) (idx : Nat) : (s.freeProgress idx).mac = s.mac := (s.freeProgress_kept idx).only.mac.resolve_left Bool.false_ne_true
@[simp] theorem State.freeProgress_now (s : State) (idx : Nat) : (s.freeProgress idx).now = s.now := (s.freeProgress_kept idx).same.now
@[simp] theorem State.freeProgress_part (s : State) (idx : Nat) : (s.freeProgress idx).part = s.part := (s.freeProgress_kept idx).same.part
@[simp] theorem State.freeProgress_slot (s : State) (idx : Nat) : (s.freeProgress idx).slot = s.slot := (s.freeProgress_kept idx).same.slot
@[simp] theorem State.freeProgress_uid (s : State) (idx : Nat) : (s.freeProgress idx).uid = s.uid := (s.freeProgress_kept idx).same.uid
@[simp] theorem State.freeProgress_pending (s : State) (idx : Nat) : (s.freeProgress idx).pending = s.pending := (s.freeProgress_kept idx).pending
@[simp] theorem State.freeProgress_freeCtr (s : State) (idx : Nat) : (s.freeProgress idx).freeCtr = s.freeCtr := (s.freeProgress_kept idx).only.free.resolve_left Bool.false_ne_true

theorem State.putKey_kept (s : State) (slot : Nat) (f : KeySlot → KeySlot) : Kept { kvt := true, out := true, xbr := true, pmu := true, moved := true, rfx := true } s (s.putKey slot f) :=
  Kept.putKey _ _ (Kept.refl s) (hKvt := rfl) (hOut := rfl) (hXbr := rfl) (hPmu := rfl) (hMoved := rfl) (hRfx := rfl)
@[simp] theorem State.putKey_hce (s : State) (slot : Nat) (f : KeySlot → KeySlot) : (s.putKey slot f).hce = s.hce := (s.putKey_kept slot f).only.hce.resolve_left Bool.false_ne_true
@[simp] theorem State.putKey_rfu (s : State) (slot : Nat) (f : KeySlot → KeySlot) : (s.putKey slot f).rfu = s.rfu := (s.putKey_kept slot f).only.rfu.resolve_left Bool.false_ne_true
@[simp] theorem State.putKey_rge (s : State) (slot : Nat) (f : KeySlot → KeySlot) : (s.putKey slot f).rge = s.rge := (s.putKey_kept slot f).only.rge.resolve_left Bool.false_ne_true
@[simp] theorem State.putKey_snt (s : State) (slot : Nat) (f : KeySlot → KeySlot) : (s.putKey slot f).snt = s.snt := (s.putKey_kept slot f).only.snt.resolve_left Bool.false_ne_true
@[simp] theorem State.putKey_tk (s : State) (slot : Nat) (f : KeySlot → KeySlot) : (s.putKey slot f).tk = s.tk := (s.putKey_kept slot f).only.tk.resolve_left Bool.false_ne_true
@[simp] theorem State.putKey_vsm (s : State) (slot : Nat) (f : KeySlot → KeySlot) : (s.putKey slot f).vsm = s.vsm := (s.putKey_kept slot f).only.vsm.resolve_left Bool.false_ne_true
@[simp] theorem State.putKey_mbx (s : State) (slot : Nat) (f : KeySlot → KeySlot) : (s.putKey slot f).mbx = s.mbx := (s.putKey_kept slot f).only.mbx.resolve_left Bool.false_ne_true
@[simp] theorem State.putKey_bay (s : State) (slot : Nat) (f : KeySlot → KeySlot) : (s.putKey slot f).bay = s.bay := (s.putKey_kept slot f).only.bay.resolve_left Bool.false_ne_true
@[simp] theorem State.putKey_props (s : State) (slot : Nat) (f : KeySlot → KeySlot) : (s.putKey slot f).props = s.props := (s.putKey_kept slot f).only.props.resolve_left Bool.false_ne_true
@[simp] theorem State.putKey_ppc (s : State) (slot : Nat) (f : KeySlot → KeySlot) : (s.putKey slot f).ppc = s.ppc := (s.putKey_kept slot f).only.ppc.resolve_left Bool.false_ne_true
@[simp] theorem State.putKey_sep (s : State) (slot : Nat) (f : KeySlot → KeySlot) : (s.putKey slot f).sep = s.sep := (s.putKey_kept slot f).only.sep.resolve_left Bool.false_ne_true
@[simp] theorem State.putKey_pwr (s : State) (slot : Nat) (f : KeySlot → KeySlot) : (s.putKey slot f).pwr = s.pwr := (s.putKey_kept slot f).only.pwr.resolve_left Bool.false_ne_true
@[simp] theorem State.putKey_lcu (s : State) (slot : Nat) (f : KeySlot → KeySlot) : (s.putKey slot f).lcu = s.lcu := (s.putKey_kept slot f).only.lcu.resolve_left Bool.false_ne_true
@[simp] theorem State.putKey_tst (s : State) (slot : Nat) (f : KeySlot → KeySlot) : (s.putKey slot f).tst = s.tst := (s.putKey_kept slot f).only.tst.resolve_left Bool.false_ne_true
@[simp] theorem State.putKey_mac (s : State) (slot : Nat) (f : KeySlot → KeySlot) : (s.putKey slot f).mac = s.mac := (s.putKey_kept slot f).only.mac.resolve_left Bool.false_ne_true
@[simp] theorem State.putKey_now (s : State) (slot : Nat) (f : KeySlot → KeySlot) : (s.putKey slot f).now = s.now := (s.putKey_kept slot f).same.now
@[simp] theorem State.putKey_part (s : State) (slot : Nat) (f : KeySlot → KeySlot) : (s.putKey slot f).part = s.part := (s.putKey_kept slot f).same.part
@[simp] theorem State.putKey_slot (s : State) (slot : Nat) (f : KeySlot → KeySlot) : (s.putKey slot f).slot = s.slot := (s.putKey_kept slot f).same.slot
@[simp] theorem State.putKey_uid (s : State) (slot : Nat) (f : KeySlot → KeySlot) : (s.putKey slot f).uid = s.uid := (s.putKey_kept slot f).same.uid
@[simp] theorem State.putKey_pending (s : State) (slot : Nat) (f : KeySlot → KeySlot) : (s.putKey slot f).pending = s.pending := (s.putKey_kept slot f).pending
@[simp] theorem State.putKey_freeCtr (s : State) (slot : Nat) (f : KeySlot → KeySlot) : (s.putKey slot f).freeCtr = s.freeCtr := (s.putKey_kept slot f).only.free.resolve_left Bool.false_ne_true

theorem State.replaceKey_kept (s : State) (slot : Nat) (gen : Nat) : Kept { moved := true, kvt := true, out := true, xbr := true, pmu := true, free := true, rfx := true } s (s.replaceKey slot gen) :=
  Kept.replaceKey _ _ (Kept.refl s) (hMoved := rfl) (hKvt := rfl) (hOut := rfl) (hXbr := rfl) (hPmu := rfl) (hFree := rfl) (hRfx := rfl)
@[simp] theorem State.replaceKey_hce (s : State) (slot : Nat) (gen : Nat) : (s.replaceKey slot gen).hce = s.hce := (s.replaceKey_kept slot gen).only.hce.resolve_left Bool.false_ne_true
@[simp] theorem State.replaceKey_rfu (s : State) (slot : Nat) (gen : Nat) : (s.replaceKey slot gen).rfu = s.rfu := (s.replaceKey_kept slot gen).only.rfu.resolve_left Bool.false_ne_true
@[simp] theorem State.replaceKey_rge (s : State) (slot : Nat) (gen : Nat) : (s.replaceKey slot gen).rge = s.rge := (s.replaceKey_kept slot gen).only.rge.resolve_left Bool.false_ne_true
@[simp] theorem State.replaceKey_snt (s : State) (slot : Nat) (gen : Nat) : (s.replaceKey slot gen).snt = s.snt := (s.replaceKey_kept slot gen).only.snt.resolve_left Bool.false_ne_true
@[simp] theorem State.replaceKey_tk (s : State) (slot : Nat) (gen : Nat) : (s.replaceKey slot gen).tk = s.tk := (s.replaceKey_kept slot gen).only.tk.resolve_left Bool.false_ne_true
@[simp] theorem State.replaceKey_vsm (s : State) (slot : Nat) (gen : Nat) : (s.replaceKey slot gen).vsm = s.vsm := (s.replaceKey_kept slot gen).only.vsm.resolve_left Bool.false_ne_true
@[simp] theorem State.replaceKey_mbx (s : State) (slot : Nat) (gen : Nat) : (s.replaceKey slot gen).mbx = s.mbx := (s.replaceKey_kept slot gen).only.mbx.resolve_left Bool.false_ne_true
@[simp] theorem State.replaceKey_bay (s : State) (slot : Nat) (gen : Nat) : (s.replaceKey slot gen).bay = s.bay := (s.replaceKey_kept slot gen).only.bay.resolve_left Bool.false_ne_true
@[simp] theorem State.replaceKey_props (s : State) (slot : Nat) (gen : Nat) : (s.replaceKey slot gen).props = s.props := (s.replaceKey_kept slot gen).only.props.resolve_left Bool.false_ne_true
@[simp] theorem State.replaceKey_ppc (s : State) (slot : Nat) (gen : Nat) : (s.replaceKey slot gen).ppc = s.ppc := (s.replaceKey_kept slot gen).only.ppc.resolve_left Bool.false_ne_true
@[simp] theorem State.replaceKey_sep (s : State) (slot : Nat) (gen : Nat) : (s.replaceKey slot gen).sep = s.sep := (s.replaceKey_kept slot gen).only.sep.resolve_left Bool.false_ne_true
@[simp] theorem State.replaceKey_pwr (s : State) (slot : Nat) (gen : Nat) : (s.replaceKey slot gen).pwr = s.pwr := (s.replaceKey_kept slot gen).only.pwr.resolve_left Bool.false_ne_true
@[simp] theorem State.replaceKey_lcu (s : State) (slot : Nat) (gen : Nat) : (s.replaceKey slot gen).lcu = s.lcu := (s.replaceKey_kept slot gen).only.lcu.resolve_left Bool.false_ne_true
@[simp] theorem State.replaceKey_tst (s : State) (slot : Nat) (gen : Nat) : (s.replaceKey slot gen).tst = s.tst := (s.replaceKey_kept slot gen).only.tst.resolve_left Bool.false_ne_true
@[simp] theorem State.replaceKey_mac (s : State) (slot : Nat) (gen : Nat) : (s.replaceKey slot gen).mac = s.mac := (s.replaceKey_kept slot gen).only.mac.resolve_left Bool.false_ne_true
@[simp] theorem State.replaceKey_now (s : State) (slot : Nat) (gen : Nat) : (s.replaceKey slot gen).now = s.now := (s.replaceKey_kept slot gen).same.now
@[simp] theorem State.replaceKey_part (s : State) (slot : Nat) (gen : Nat) : (s.replaceKey slot gen).part = s.part := (s.replaceKey_kept slot gen).same.part
@[simp] theorem State.replaceKey_slot (s : State) (slot : Nat) (gen : Nat) : (s.replaceKey slot gen).slot = s.slot := (s.replaceKey_kept slot gen).same.slot
@[simp] theorem State.replaceKey_uid (s : State) (slot : Nat) (gen : Nat) : (s.replaceKey slot gen).uid = s.uid := (s.replaceKey_kept slot gen).same.uid
@[simp] theorem State.replaceKey_pending (s : State) (slot : Nat) (gen : Nat) : (s.replaceKey slot gen).pending = s.pending := (s.replaceKey_kept slot gen).pending

theorem State.dropLost_kept (s : State) (idx : Nat) : Kept { moved := true, out := true, xbr := true, pmu := true, rge := true, rfx := true } s (s.dropLost idx) :=
  Kept.dropLost _ (Kept.refl s) (hMoved := rfl) (hOut := rfl) (hXbr := rfl) (hPmu := rfl) (hRge := rfl) (hRfx := rfl)
@[simp] theorem State.dropLost_hce (s : State) (idx : Nat) : (s.dropLost idx).hce = s.hce := (s.dropLost_kept idx).only.hce.resolve_left Bool.false_ne_true
@[simp] theorem State.dropLost_rfu (s : State) (idx : Nat) : (s.dropLost idx).rfu = s.rfu := (s.dropLost_kept idx).only.rfu.resolve_left Bool.false_ne_true
@[simp] theorem State.dropLost_snt (s : State) (idx : Nat) : (s.dropLost idx).snt = s.snt := (s.dropLost_kept idx).only.snt.resolve_left Bool.false_ne_true
@[simp] theorem State.dropLost_tk (s : State) (idx : Nat) : (s.dropLost idx).tk = s.tk := (s.dropLost_kept idx).only.tk.resolve_left Bool.false_ne_true
@[simp] theorem State.dropLost_vsm (s : State) (idx : Nat) : (s.dropLost idx).vsm = s.vsm := (s.dropLost_kept idx).only.vsm.resolve_left Bool.false_ne_true
@[simp] theorem State.dropLost_kvt (s : State) (idx : Nat) : (s.dropLost idx).kvt = s.kvt := (s.dropLost_kept idx).only.kvt.resolve_left Bool.false_ne_true
@[simp] theorem State.dropLost_mbx (s : State) (idx : Nat) : (s.dropLost idx).mbx = s.mbx := (s.dropLost_kept idx).only.mbx.resolve_left Bool.false_ne_true
@[simp] theorem State.dropLost_bay (s : State) (idx : Nat) : (s.dropLost idx).bay = s.bay := (s.dropLost_kept idx).only.bay.resolve_left Bool.false_ne_true
@[simp] theorem State.dropLost_props (s : State) (idx : Nat) : (s.dropLost idx).props = s.props := (s.dropLost_kept idx).only.props.resolve_left Bool.false_ne_true
@[simp] theorem State.dropLost_ppc (s : State) (idx : Nat) : (s.dropLost idx).ppc = s.ppc := (s.dropLost_kept idx).only.ppc.resolve_left Bool.false_ne_true
@[simp] theorem State.dropLost_sep (s : State) (idx : Nat) : (s.dropLost idx).sep = s.sep := (s.dropLost_kept idx).only.sep.resolve_left Bool.false_ne_true
@[simp] theorem State.dropLost_pwr (s : State) (idx : Nat) : (s.dropLost idx).pwr = s.pwr := (s.dropLost_kept idx).only.pwr.resolve_left Bool.false_ne_true
@[simp] theorem State.dropLost_lcu (s : State) (idx : Nat) : (s.dropLost idx).lcu = s.lcu := (s.dropLost_kept idx).only.lcu.resolve_left Bool.false_ne_true
@[simp] theorem State.dropLost_tst (s : State) (idx : Nat) : (s.dropLost idx).tst = s.tst := (s.dropLost_kept idx).only.tst.resolve_left Bool.false_ne_true
@[simp] theorem State.dropLost_mac (s : State) (idx : Nat) : (s.dropLost idx).mac = s.mac := (s.dropLost_kept idx).only.mac.resolve_left Bool.false_ne_true
@[simp] theorem State.dropLost_now (s : State) (idx : Nat) : (s.dropLost idx).now = s.now := (s.dropLost_kept idx).same.now
@[simp] theorem State.dropLost_part (s : State) (idx : Nat) : (s.dropLost idx).part = s.part := (s.dropLost_kept idx).same.part
@[simp] theorem State.dropLost_slot (s : State) (idx : Nat) : (s.dropLost idx).slot = s.slot := (s.dropLost_kept idx).same.slot
@[simp] theorem State.dropLost_uid (s : State) (idx : Nat) : (s.dropLost idx).uid = s.uid := (s.dropLost_kept idx).same.uid
@[simp] theorem State.dropLost_pending (s : State) (idx : Nat) : (s.dropLost idx).pending = s.pending := (s.dropLost_kept idx).pending
@[simp] theorem State.dropLost_freeCtr (s : State) (idx : Nat) : (s.dropLost idx).freeCtr = s.freeCtr := (s.dropLost_kept idx).only.free.resolve_left Bool.false_ne_true

theorem State.clearNsLost_kept (s : State) (v : Nat) (n : Nat) : Kept { moved := true, out := true, xbr := true, pmu := true, rge := true, rfx := true } s (s.clearNsLost v n) :=
  Kept.clearNsLost _ _ (Kept.refl s) (hMoved := rfl) (hOut := rfl) (hXbr := rfl) (hPmu := rfl) (hRge := rfl) (hRfx := rfl)
@[simp] theorem State.clearNsLost_hce (s : State) (v : Nat) (n : Nat) : (s.clearNsLost v n).hce = s.hce := (s.clearNsLost_kept v n).only.hce.resolve_left Bool.false_ne_true
@[simp] theorem State.clearNsLost_rfu (s : State) (v : Nat) (n : Nat) : (s.clearNsLost v n).rfu = s.rfu := (s.clearNsLost_kept v n).only.rfu.resolve_left Bool.false_ne_true
@[simp] theorem State.clearNsLost_snt (s : State) (v : Nat) (n : Nat) : (s.clearNsLost v n).snt = s.snt := (s.clearNsLost_kept v n).only.snt.resolve_left Bool.false_ne_true
@[simp] theorem State.clearNsLost_tk (s : State) (v : Nat) (n : Nat) : (s.clearNsLost v n).tk = s.tk := (s.clearNsLost_kept v n).only.tk.resolve_left Bool.false_ne_true
@[simp] theorem State.clearNsLost_vsm (s : State) (v : Nat) (n : Nat) : (s.clearNsLost v n).vsm = s.vsm := (s.clearNsLost_kept v n).only.vsm.resolve_left Bool.false_ne_true
@[simp] theorem State.clearNsLost_kvt (s : State) (v : Nat) (n : Nat) : (s.clearNsLost v n).kvt = s.kvt := (s.clearNsLost_kept v n).only.kvt.resolve_left Bool.false_ne_true
@[simp] theorem State.clearNsLost_mbx (s : State) (v : Nat) (n : Nat) : (s.clearNsLost v n).mbx = s.mbx := (s.clearNsLost_kept v n).only.mbx.resolve_left Bool.false_ne_true
@[simp] theorem State.clearNsLost_bay (s : State) (v : Nat) (n : Nat) : (s.clearNsLost v n).bay = s.bay := (s.clearNsLost_kept v n).only.bay.resolve_left Bool.false_ne_true
@[simp] theorem State.clearNsLost_props (s : State) (v : Nat) (n : Nat) : (s.clearNsLost v n).props = s.props := (s.clearNsLost_kept v n).only.props.resolve_left Bool.false_ne_true
@[simp] theorem State.clearNsLost_ppc (s : State) (v : Nat) (n : Nat) : (s.clearNsLost v n).ppc = s.ppc := (s.clearNsLost_kept v n).only.ppc.resolve_left Bool.false_ne_true
@[simp] theorem State.clearNsLost_sep (s : State) (v : Nat) (n : Nat) : (s.clearNsLost v n).sep = s.sep := (s.clearNsLost_kept v n).only.sep.resolve_left Bool.false_ne_true
@[simp] theorem State.clearNsLost_pwr (s : State) (v : Nat) (n : Nat) : (s.clearNsLost v n).pwr = s.pwr := (s.clearNsLost_kept v n).only.pwr.resolve_left Bool.false_ne_true
@[simp] theorem State.clearNsLost_lcu (s : State) (v : Nat) (n : Nat) : (s.clearNsLost v n).lcu = s.lcu := (s.clearNsLost_kept v n).only.lcu.resolve_left Bool.false_ne_true
@[simp] theorem State.clearNsLost_tst (s : State) (v : Nat) (n : Nat) : (s.clearNsLost v n).tst = s.tst := (s.clearNsLost_kept v n).only.tst.resolve_left Bool.false_ne_true
@[simp] theorem State.clearNsLost_mac (s : State) (v : Nat) (n : Nat) : (s.clearNsLost v n).mac = s.mac := (s.clearNsLost_kept v n).only.mac.resolve_left Bool.false_ne_true
@[simp] theorem State.clearNsLost_now (s : State) (v : Nat) (n : Nat) : (s.clearNsLost v n).now = s.now := (s.clearNsLost_kept v n).same.now
@[simp] theorem State.clearNsLost_part (s : State) (v : Nat) (n : Nat) : (s.clearNsLost v n).part = s.part := (s.clearNsLost_kept v n).same.part
@[simp] theorem State.clearNsLost_slot (s : State) (v : Nat) (n : Nat) : (s.clearNsLost v n).slot = s.slot := (s.clearNsLost_kept v n).same.slot
@[simp] theorem State.clearNsLost_uid (s : State) (v : Nat) (n : Nat) : (s.clearNsLost v n).uid = s.uid := (s.clearNsLost_kept v n).same.uid
@[simp] theorem State.clearNsLost_pending (s : State) (v : Nat) (n : Nat) : (s.clearNsLost v n).pending = s.pending := (s.clearNsLost_kept v n).pending
@[simp] theorem State.clearNsLost_freeCtr (s : State) (v : Nat) (n : Nat) : (s.clearNsLost v n).freeCtr = s.freeCtr := (s.clearNsLost_kept v n).only.free.resolve_left Bool.false_ne_true

theorem State.notice_kept (s : State) (v : Nat) (n : Nat) (ana : Bool) : Kept { hce := true, out := true, xbr := true, pmu := true, moved := true, rfx := true } s (s.notice v n ana) :=
  Kept.notice _ _ _ (Kept.refl s) (hHce := rfl) (hOut := rfl) (hXbr := rfl) (hPmu := rfl) (hMoved := rfl) (hRfx := rfl)
@[simp] theorem State.notice_rfu (s : State) (v : Nat) (n : Nat) (ana : Bool) : (s.notice v n ana).rfu = s.rfu := (s.notice_kept v n ana).only.rfu.resolve_left Bool.false_ne_true
@[simp] theorem State.notice_rge (s : State) (v : Nat) (n : Nat) (ana : Bool) : (s.notice v n ana).rge = s.rge := (s.notice_kept v n ana).only.rge.resolve_left Bool.false_ne_true
@[simp] theorem State.notice_snt (s : State) (v : Nat) (n : Nat) (ana : Bool) : (s.notice v n ana).snt = s.snt := (s.notice_kept v n ana).only.snt.resolve_left Bool.false_ne_true
@[simp] theorem State.notice_tk (s : State) (v : Nat) (n : Nat) (ana : Bool) : (s.notice v n ana).tk = s.tk := (s.notice_kept v n ana).only.tk.resolve_left Bool.false_ne_true
@[simp] theorem State.notice_vsm (s : State) (v : Nat) (n : Nat) (ana : Bool) : (s.notice v n ana).vsm = s.vsm := (s.notice_kept v n ana).only.vsm.resolve_left Bool.false_ne_true
@[simp] theorem State.notice_kvt (s : State) (v : Nat) (n : Nat) (ana : Bool) : (s.notice v n ana).kvt = s.kvt := (s.notice_kept v n ana).only.kvt.resolve_left Bool.false_ne_true
@[simp] theorem State.notice_mbx (s : State) (v : Nat) (n : Nat) (ana : Bool) : (s.notice v n ana).mbx = s.mbx := (s.notice_kept v n ana).only.mbx.resolve_left Bool.false_ne_true
@[simp] theorem State.notice_bay (s : State) (v : Nat) (n : Nat) (ana : Bool) : (s.notice v n ana).bay = s.bay := (s.notice_kept v n ana).only.bay.resolve_left Bool.false_ne_true
@[simp] theorem State.notice_props (s : State) (v : Nat) (n : Nat) (ana : Bool) : (s.notice v n ana).props = s.props := (s.notice_kept v n ana).only.props.resolve_left Bool.false_ne_true
@[simp] theorem State.notice_ppc (s : State) (v : Nat) (n : Nat) (ana : Bool) : (s.notice v n ana).ppc = s.ppc := (s.notice_kept v n ana).only.ppc.resolve_left Bool.false_ne_true
@[simp] theorem State.notice_sep (s : State) (v : Nat) (n : Nat) (ana : Bool) : (s.notice v n ana).sep = s.sep := (s.notice_kept v n ana).only.sep.resolve_left Bool.false_ne_true
@[simp] theorem State.notice_pwr (s : State) (v : Nat) (n : Nat) (ana : Bool) : (s.notice v n ana).pwr = s.pwr := (s.notice_kept v n ana).only.pwr.resolve_left Bool.false_ne_true
@[simp] theorem State.notice_lcu (s : State) (v : Nat) (n : Nat) (ana : Bool) : (s.notice v n ana).lcu = s.lcu := (s.notice_kept v n ana).only.lcu.resolve_left Bool.false_ne_true
@[simp] theorem State.notice_tst (s : State) (v : Nat) (n : Nat) (ana : Bool) : (s.notice v n ana).tst = s.tst := (s.notice_kept v n ana).only.tst.resolve_left Bool.false_ne_true
@[simp] theorem State.notice_mac (s : State) (v : Nat) (n : Nat) (ana : Bool) : (s.notice v n ana).mac = s.mac := (s.notice_kept v n ana).only.mac.resolve_left Bool.false_ne_true
@[simp] theorem State.notice_now (s : State) (v : Nat) (n : Nat) (ana : Bool) : (s.notice v n ana).now = s.now := (s.notice_kept v n ana).same.now
@[simp] theorem State.notice_part (s : State) (v : Nat) (n : Nat) (ana : Bool) : (s.notice v n ana).part = s.part := (s.notice_kept v n ana).same.part
@[simp] theorem State.notice_slot (s : State) (v : Nat) (n : Nat) (ana : Bool) : (s.notice v n ana).slot = s.slot := (s.notice_kept v n ana).same.slot
@[simp] theorem State.notice_uid (s : State) (v : Nat) (n : Nat) (ana : Bool) : (s.notice v n ana).uid = s.uid := (s.notice_kept v n ana).same.uid
@[simp] theorem State.notice_pending (s : State) (v : Nat) (n : Nat) (ana : Bool) : (s.notice v n ana).pending = s.pending := (s.notice_kept v n ana).pending
@[simp] theorem State.notice_freeCtr (s : State) (v : Nat) (n : Nat) (ana : Bool) : (s.notice v n ana).freeCtr = s.freeCtr := (s.notice_kept v n ana).only.free.resolve_left Bool.false_ne_true

theorem State.sendReply_kept (s : State) (r : Reply) : Kept { out := true, xbr := true } s (s.sendReply r) :=
  Kept.sendReply _ (Kept.refl s) (hOut := rfl) (hXbr := rfl)
@[simp] theorem State.sendReply_hce (s : State) (r : Reply) : (s.sendReply r).hce = s.hce := (s.sendReply_kept r).only.hce.resolve_left Bool.false_ne_true
@[simp] theorem State.sendReply_rfu (s : State) (r : Reply) : (s.sendReply r).rfu = s.rfu := (s.sendReply_kept r).only.rfu.resolve_left Bool.false_ne_true
@[simp] theorem State.sendReply_rge (s : State) (r : Reply) : (s.sendReply r).rge = s.rge := (s.sendReply_kept r).only.rge.resolve_left Bool.false_ne_true
@[simp] theorem State.sendReply_snt (s : State) (r : Reply) : (s.sendReply r).snt = s.snt := (s.sendReply_kept r).only.snt.resolve_left Bool.false_ne_true
@[simp] theorem State.sendReply_rfx (s : State) (r : Reply) : (s.sendReply r).rfx = s.rfx := (s.sendReply_kept r).only.rfx.resolve_left Bool.false_ne_true
@[simp] theorem State.sendReply_tk (s : State) (r : Reply) : (s.sendReply r).tk = s.tk := (s.sendReply_kept r).only.tk.resolve_left Bool.false_ne_true
@[simp] theorem State.sendReply_vsm (s : State) (r : Reply) : (s.sendReply r).vsm = s.vsm := (s.sendReply_kept r).only.vsm.resolve_left Bool.false_ne_true
@[simp] theorem State.sendReply_kvt (s : State) (r : Reply) : (s.sendReply r).kvt = s.kvt := (s.sendReply_kept r).only.kvt.resolve_left Bool.false_ne_true
@[simp] theorem State.sendReply_mbx (s : State) (r : Reply) : (s.sendReply r).mbx = s.mbx := (s.sendReply_kept r).only.mbx.resolve_left Bool.false_ne_true
@[simp] theorem State.sendReply_bay (s : State) (r : Reply) : (s.sendReply r).bay = s.bay := (s.sendReply_kept r).only.bay.resolve_left Bool.false_ne_true
@[simp] theorem State.sendReply_props (s : State) (r : Reply) : (s.sendReply r).props = s.props := (s.sendReply_kept r).only.props.resolve_left Bool.false_ne_true
@[simp] theorem State.sendReply_ppc (s : State) (r : Reply) : (s.sendReply r).ppc = s.ppc := (s.sendReply_kept r).only.ppc.resolve_left Bool.false_ne_true
@[simp] theorem State.sendReply_sep (s : State) (r : Reply) : (s.sendReply r).sep = s.sep := (s.sendReply_kept r).only.sep.resolve_left Bool.false_ne_true
@[simp] theorem State.sendReply_pwr (s : State) (r : Reply) : (s.sendReply r).pwr = s.pwr := (s.sendReply_kept r).only.pwr.resolve_left Bool.false_ne_true
@[simp] theorem State.sendReply_lcu (s : State) (r : Reply) : (s.sendReply r).lcu = s.lcu := (s.sendReply_kept r).only.lcu.resolve_left Bool.false_ne_true
@[simp] theorem State.sendReply_pmu (s : State) (r : Reply) : (s.sendReply r).pmu = s.pmu := (s.sendReply_kept r).only.pmu.resolve_left Bool.false_ne_true
@[simp] theorem State.sendReply_tst (s : State) (r : Reply) : (s.sendReply r).tst = s.tst := (s.sendReply_kept r).only.tst.resolve_left Bool.false_ne_true
@[simp] theorem State.sendReply_mac (s : State) (r : Reply) : (s.sendReply r).mac = s.mac := (s.sendReply_kept r).only.mac.resolve_left Bool.false_ne_true
@[simp] theorem State.sendReply_now (s : State) (r : Reply) : (s.sendReply r).now = s.now := (s.sendReply_kept r).same.now
@[simp] theorem State.sendReply_part (s : State) (r : Reply) : (s.sendReply r).part = s.part := (s.sendReply_kept r).same.part
@[simp] theorem State.sendReply_slot (s : State) (r : Reply) : (s.sendReply r).slot = s.slot := (s.sendReply_kept r).same.slot
@[simp] theorem State.sendReply_uid (s : State) (r : Reply) : (s.sendReply r).uid = s.uid := (s.sendReply_kept r).same.uid
@[simp] theorem State.sendReply_pending (s : State) (r : Reply) : (s.sendReply r).pending = s.pending := (s.sendReply_kept r).pending
@[simp] theorem State.sendReply_freeCtr (s : State) (r : Reply) : (s.sendReply r).freeCtr = s.freeCtr := (s.sendReply_kept r).only.free.resolve_left Bool.false_ne_true
@[simp] theorem State.sendReply_reg (s : State) (r : Reply) (k : Nat) : (s.sendReply r).reg k = s.reg k := ((s.sendReply_kept r).only.regs).resolve_left Bool.false_ne_true k (fun h => absurd h Bool.false_ne_true)

theorem State.receive_kept (s : State) (m : Master) (p : List Byte) : Kept { mbx := true, kvt := true, pmu := true, moved := true } s (s.receive m p).1 :=
  Kept.receive _ _ (Kept.refl s) (hMbx := rfl) (hKvt := rfl) (hPmu := rfl) (hMoved := rfl)
@[simp] theorem State.receive_hce (s : State) (m : Master) (p : List Byte) : (s.receive m p).1.hce = s.hce := (s.receive_kept m p).only.hce.resolve_left Bool.false_ne_true
@[simp] theorem State.receive_rfu (s : State) (m : Master) (p : List Byte) : (s.receive m p).1.rfu = s.rfu := (s.receive_kept m p).only.rfu.resolve_left Bool.false_ne_true
@[simp] theorem State.receive_rge (s : State) (m : Master) (p : List Byte) : (s.receive m p).1.rge = s.rge := (s.receive_kept m p).only.rge.resolve_left Bool.false_ne_true
@[simp] theorem State.receive_snt (s : State) (m : Master) (p : List Byte) : (s.receive m p).1.snt = s.snt := (s.receive_kept m p).only.snt.resolve_left Bool.false_ne_true
@[simp] theorem State.receive_rfx (s : State) (m : Master) (p : List Byte) : (s.receive m p).1.rfx = s.rfx := (s.receive_kept m p).only.rfx.resolve_left Bool.false_ne_true
@[simp] theorem State.receive_tk (s : State) (m : Master) (p : List Byte) : (s.receive m p).1.tk = s.tk := (s.receive_kept m p).only.tk.resolve_left Bool.false_ne_true
@[simp] theorem State.receive_vsm (s : State) (m : Master) (p : List Byte) : (s.receive m p).1.vsm = s.vsm := (s.receive_kept m p).only.vsm.resolve_left Bool.false_ne_true
@[simp] theorem State.receive_bay (s : State) (m : Master) (p : List Byte) : (s.receive m p).1.bay = s.bay := (s.receive_kept m p).only.bay.resolve_left Bool.false_ne_true
@[simp] theorem State.receive_props (s : State) (m : Master) (p : List Byte) : (s.receive m p).1.props = s.props := (s.receive_kept m p).only.props.resolve_left Bool.false_ne_true
@[simp] theorem State.receive_ppc (s : State) (m : Master) (p : List Byte) : (s.receive m p).1.ppc = s.ppc := (s.receive_kept m p).only.ppc.resolve_left Bool.false_ne_true
@[simp] theorem State.receive_xbr (s : State) (m : Master) (p : List Byte) : (s.receive m p).1.xbr = s.xbr := (s.receive_kept m p).only.xbr.resolve_left Bool.false_ne_true
@[simp] theorem State.receive_sep (s : State) (m : Master) (p : List Byte) : (s.receive m p).1.sep = s.sep := (s.receive_kept m p).only.sep.resolve_left Bool.false_ne_true
@[simp] theorem State.receive_pwr (s : State) (m : Master) (p : List Byte) : (s.receive m p).1.pwr = s.pwr := (s.receive_kept m p).only.pwr.resolve_left Bool.false_ne_true
@[simp] theorem State.receive_lcu (s : State) (m : Master) (p : List Byte) : (s.receive m p).1.lcu = s.lcu := (s.receive_kept m p).only.lcu.resolve_left Bool.false_ne_true
@[simp] theorem State.receive_tst (s : State) (m : Master) (p : List Byte) : (s.receive m p).1.tst = s.tst := (s.receive_kept m p).only.tst.resolve_left Bool.false_ne_true
@[simp] theorem State.receive_mac (s : State) (m : Master) (p : List Byte) : (s.receive m p).1.mac = s.mac := (s.receive_kept m p).only.mac.resolve_left Bool.false_ne_true
@[simp] theorem State.receive_now (s : State) (m : Master) (p : List Byte) : (s.receive m p).1.now = s.now := (s.receive_kept m p).same.now
@[simp] theorem State.receive_part (s : State) (m : Master) (p : List Byte) : (s.receive m p).1.part = s.part := (s.receive_kept m p).same.part
@[simp] theorem State.receive_slot (s : State) (m : Master) (p : List Byte) : (s.receive m p).1.slot = s.slot := (s.receive_kept m p).same.slot
@[simp] theorem State.receive_uid (s : State) (m : Master) (p : List Byte) : (s.receive m p).1.uid = s.uid := (s.receive_kept m p).same.uid
@[simp] theorem State.receive_pending (s : State) (m : Master) (p : List Byte) : (s.receive m p).1.pending = s.pending := (s.receive_kept m p).pending
@[simp] theorem State.receive_out (s : State) (m : Master) (p : List Byte) : (s.receive m p).1.out = s.out := (s.receive_kept m p).only.out.resolve_left Bool.false_ne_true
@[simp] theorem State.receive_freeCtr (s : State) (m : Master) (p : List Byte) : (s.receive m p).1.freeCtr = s.freeCtr := (s.receive_kept m p).only.free.resolve_left Bool.false_ne_true

theorem State.raiseEvent_kept (s : State) (c : Nat) (bit : Nat) (code : Nat) : Kept { hce := true, out := true, xbr := true, pmu := true, moved := true, rfx := true } s (s.raiseEvent c bit code) :=
  Kept.raiseEvent _ _ _ (Kept.refl s) (hHce := rfl) (hOut := rfl) (hXbr := rfl) (hPmu := rfl) (hMoved := rfl) (hRfx := rfl)
@[simp] theorem State.raiseEvent_rfu (s : State) (c : Nat) (bit : Nat) (code : Nat) : (s.raiseEvent c bit code).rfu = s.rfu := (s.raiseEvent_kept c bit code).only.rfu.resolve_left Bool.false_ne_true
@[simp] theorem State.raiseEvent_rge (s : State) (c : Nat) (bit : Nat) (code : Nat) : (s.raiseEvent c bit code).rge = s.rge := (s.raiseEvent_kept c bit code).only.rge.resolve_left Bool.false_ne_true
@[simp] theorem State.raiseEvent_snt (s : State) (c : Nat) (bit : Nat) (code : Nat) : (s.raiseEvent c bit code).snt = s.snt := (s.raiseEvent_kept c bit code).only.snt.resolve_left Bool.false_ne_true
@[simp] theorem State.raiseEvent_tk (s : State) (c : Nat) (bit : Nat) (code : Nat) : (s.raiseEvent c bit code).tk = s.tk := (s.raiseEvent_kept c bit code).only.tk.resolve_left Bool.false_ne_true
@[simp] theorem State.raiseEvent_vsm (s : State) (c : Nat) (bit : Nat) (code : Nat) : (s.raiseEvent c bit code).vsm = s.vsm := (s.raiseEvent_kept c bit code).only.vsm.resolve_left Bool.false_ne_true
@[simp] theorem State.raiseEvent_kvt (s : State) (c : Nat) (bit : Nat) (code : Nat) : (s.raiseEvent c bit code).kvt = s.kvt := (s.raiseEvent_kept c bit code).only.kvt.resolve_left Bool.false_ne_true
@[simp] theorem State.raiseEvent_mbx (s : State) (c : Nat) (bit : Nat) (code : Nat) : (s.raiseEvent c bit code).mbx = s.mbx := (s.raiseEvent_kept c bit code).only.mbx.resolve_left Bool.false_ne_true
@[simp] theorem State.raiseEvent_bay (s : State) (c : Nat) (bit : Nat) (code : Nat) : (s.raiseEvent c bit code).bay = s.bay := (s.raiseEvent_kept c bit code).only.bay.resolve_left Bool.false_ne_true
@[simp] theorem State.raiseEvent_props (s : State) (c : Nat) (bit : Nat) (code : Nat) : (s.raiseEvent c bit code).props = s.props := (s.raiseEvent_kept c bit code).only.props.resolve_left Bool.false_ne_true
@[simp] theorem State.raiseEvent_ppc (s : State) (c : Nat) (bit : Nat) (code : Nat) : (s.raiseEvent c bit code).ppc = s.ppc := (s.raiseEvent_kept c bit code).only.ppc.resolve_left Bool.false_ne_true
@[simp] theorem State.raiseEvent_sep (s : State) (c : Nat) (bit : Nat) (code : Nat) : (s.raiseEvent c bit code).sep = s.sep := (s.raiseEvent_kept c bit code).only.sep.resolve_left Bool.false_ne_true
@[simp] theorem State.raiseEvent_pwr (s : State) (c : Nat) (bit : Nat) (code : Nat) : (s.raiseEvent c bit code).pwr = s.pwr := (s.raiseEvent_kept c bit code).only.pwr.resolve_left Bool.false_ne_true
@[simp] theorem State.raiseEvent_lcu (s : State) (c : Nat) (bit : Nat) (code : Nat) : (s.raiseEvent c bit code).lcu = s.lcu := (s.raiseEvent_kept c bit code).only.lcu.resolve_left Bool.false_ne_true
@[simp] theorem State.raiseEvent_tst (s : State) (c : Nat) (bit : Nat) (code : Nat) : (s.raiseEvent c bit code).tst = s.tst := (s.raiseEvent_kept c bit code).only.tst.resolve_left Bool.false_ne_true
@[simp] theorem State.raiseEvent_mac (s : State) (c : Nat) (bit : Nat) (code : Nat) : (s.raiseEvent c bit code).mac = s.mac := (s.raiseEvent_kept c bit code).only.mac.resolve_left Bool.false_ne_true
@[simp] theorem State.raiseEvent_now (s : State) (c : Nat) (bit : Nat) (code : Nat) : (s.raiseEvent c bit code).now = s.now := (s.raiseEvent_kept c bit code).same.now
@[simp] theorem State.raiseEvent_part (s : State) (c : Nat) (bit : Nat) (code : Nat) : (s.raiseEvent c bit code).part = s.part := (s.raiseEvent_kept c bit code).same.part
@[simp] theorem State.raiseEvent_slot (s : State) (c : Nat) (bit : Nat) (code : Nat) : (s.raiseEvent c bit code).slot = s.slot := (s.raiseEvent_kept c bit code).same.slot
@[simp] theorem State.raiseEvent_uid (s : State) (c : Nat) (bit : Nat) (code : Nat) : (s.raiseEvent c bit code).uid = s.uid := (s.raiseEvent_kept c bit code).same.uid
@[simp] theorem State.raiseEvent_pending (s : State) (c : Nat) (bit : Nat) (code : Nat) : (s.raiseEvent c bit code).pending = s.pending := (s.raiseEvent_kept c bit code).pending
@[simp] theorem State.raiseEvent_freeCtr (s : State) (c : Nat) (bit : Nat) (code : Nat) : (s.raiseEvent c bit code).freeCtr = s.freeCtr := (s.raiseEvent_kept c bit code).only.free.resolve_left Bool.false_ne_true

theorem State.startGather_kept (s : State) (owner : GatherFor) (rows : List RowNeed) : Kept { moved := true, bay := true, out := true, pmu := true, rge := true } s (s.startGather owner rows) :=
  Kept.startGather _ _ (Kept.refl s) (hMoved := rfl) (hBay := rfl) (hOut := rfl) (hPmu := rfl) (hRge := rfl)
@[simp] theorem State.startGather_hce (s : State) (owner : GatherFor) (rows : List RowNeed) : (s.startGather owner rows).hce = s.hce := (s.startGather_kept owner rows).only.hce.resolve_left Bool.false_ne_true
@[simp] theorem State.startGather_rfu (s : State) (owner : GatherFor) (rows : List RowNeed) : (s.startGather owner rows).rfu = s.rfu := (s.startGather_kept owner rows).only.rfu.resolve_left Bool.false_ne_true
@[simp] theorem State.startGather_snt (s : State) (owner : GatherFor) (rows : List RowNeed) : (s.startGather owner rows).snt = s.snt := (s.startGather_kept owner rows).only.snt.resolve_left Bool.false_ne_true
@[simp] theorem State.startGather_rfx (s : State) (owner : GatherFor) (rows : List RowNeed) : (s.startGather owner rows).rfx = s.rfx := (s.startGather_kept owner rows).only.rfx.resolve_left Bool.false_ne_true
@[simp] theorem State.startGather_tk (s : State) (owner : GatherFor) (rows : List RowNeed) : (s.startGather owner rows).tk = s.tk := (s.startGather_kept owner rows).only.tk.resolve_left Bool.false_ne_true
@[simp] theorem State.startGather_vsm (s : State) (owner : GatherFor) (rows : List RowNeed) : (s.startGather owner rows).vsm = s.vsm := (s.startGather_kept owner rows).only.vsm.resolve_left Bool.false_ne_true
@[simp] theorem State.startGather_kvt (s : State) (owner : GatherFor) (rows : List RowNeed) : (s.startGather owner rows).kvt = s.kvt := (s.startGather_kept owner rows).only.kvt.resolve_left Bool.false_ne_true
@[simp] theorem State.startGather_mbx (s : State) (owner : GatherFor) (rows : List RowNeed) : (s.startGather owner rows).mbx = s.mbx := (s.startGather_kept owner rows).only.mbx.resolve_left Bool.false_ne_true
@[simp] theorem State.startGather_props (s : State) (owner : GatherFor) (rows : List RowNeed) : (s.startGather owner rows).props = s.props := (s.startGather_kept owner rows).only.props.resolve_left Bool.false_ne_true
@[simp] theorem State.startGather_ppc (s : State) (owner : GatherFor) (rows : List RowNeed) : (s.startGather owner rows).ppc = s.ppc := (s.startGather_kept owner rows).only.ppc.resolve_left Bool.false_ne_true
@[simp] theorem State.startGather_xbr (s : State) (owner : GatherFor) (rows : List RowNeed) : (s.startGather owner rows).xbr = s.xbr := (s.startGather_kept owner rows).only.xbr.resolve_left Bool.false_ne_true
@[simp] theorem State.startGather_sep (s : State) (owner : GatherFor) (rows : List RowNeed) : (s.startGather owner rows).sep = s.sep := (s.startGather_kept owner rows).only.sep.resolve_left Bool.false_ne_true
@[simp] theorem State.startGather_pwr (s : State) (owner : GatherFor) (rows : List RowNeed) : (s.startGather owner rows).pwr = s.pwr := (s.startGather_kept owner rows).only.pwr.resolve_left Bool.false_ne_true
@[simp] theorem State.startGather_lcu (s : State) (owner : GatherFor) (rows : List RowNeed) : (s.startGather owner rows).lcu = s.lcu := (s.startGather_kept owner rows).only.lcu.resolve_left Bool.false_ne_true
@[simp] theorem State.startGather_tst (s : State) (owner : GatherFor) (rows : List RowNeed) : (s.startGather owner rows).tst = s.tst := (s.startGather_kept owner rows).only.tst.resolve_left Bool.false_ne_true
@[simp] theorem State.startGather_mac (s : State) (owner : GatherFor) (rows : List RowNeed) : (s.startGather owner rows).mac = s.mac := (s.startGather_kept owner rows).only.mac.resolve_left Bool.false_ne_true
@[simp] theorem State.startGather_now (s : State) (owner : GatherFor) (rows : List RowNeed) : (s.startGather owner rows).now = s.now := (s.startGather_kept owner rows).same.now
@[simp] theorem State.startGather_part (s : State) (owner : GatherFor) (rows : List RowNeed) : (s.startGather owner rows).part = s.part := (s.startGather_kept owner rows).same.part
@[simp] theorem State.startGather_slot (s : State) (owner : GatherFor) (rows : List RowNeed) : (s.startGather owner rows).slot = s.slot := (s.startGather_kept owner rows).same.slot
@[simp] theorem State.startGather_uid (s : State) (owner : GatherFor) (rows : List RowNeed) : (s.startGather owner rows).uid = s.uid := (s.startGather_kept owner rows).same.uid
@[simp] theorem State.startGather_pending (s : State) (owner : GatherFor) (rows : List RowNeed) : (s.startGather owner rows).pending = s.pending := (s.startGather_kept owner rows).pending
@[simp] theorem State.startGather_freeCtr (s : State) (owner : GatherFor) (rows : List RowNeed) : (s.startGather owner rows).freeCtr = s.freeCtr := (s.startGather_kept owner rows).only.free.resolve_left Bool.false_ne_true

theorem State.markRegions_kept (s : State) (r : TagRec) (n : Ns) : Kept { vsm := true } s (s.markRegions r n) :=
  Kept.markRegions _ _ (Kept.refl s) (hVsm := rfl)
@[simp] theorem State.markRegions_hce (s : State) (r : TagRec) (n : Ns) : (s.markRegions r n).hce = s.hce := (s.markRegions_kept r n).only.hce.resolve_left Bool.false_ne_true
@[simp] theorem State.markRegions_rfu (s : State) (r : TagRec) (n : Ns) : (s.markRegions r n).rfu = s.rfu := (s.markRegions_kept r n).only.rfu.resolve_left Bool.false_ne_true
@[simp] theorem State.markRegions_rge (s : State) (r : TagRec) (n : Ns) : (s.markRegions r n).rge = s.rge := (s.markRegions_kept r n).only.rge.resolve_left Bool.false_ne_true
@[simp] theorem State.markRegions_snt (s : State) (r : TagRec) (n : Ns) : (s.markRegions r n).snt = s.snt := (s.markRegions_kept r n).only.snt.resolve_left Bool.false_ne_true
@[simp] theorem State.markRegions_rfx (s : State) (r : TagRec) (n : Ns) : (s.markRegions r n).rfx = s.rfx := (s.markRegions_kept r n).only.rfx.resolve_left Bool.false_ne_true
@[simp] theorem State.markRegions_tk (s : State) (r : TagRec) (n : Ns) : (s.markRegions r n).tk = s.tk := (s.markRegions_kept r n).only.tk.resolve_left Bool.false_ne_true
@[simp] theorem State.markRegions_kvt (s : State) (r : TagRec) (n : Ns) : (s.markRegions r n).kvt = s.kvt := (s.markRegions_kept r n).only.kvt.resolve_left Bool.false_ne_true
@[simp] theorem State.markRegions_mbx (s : State) (r : TagRec) (n : Ns) : (s.markRegions r n).mbx = s.mbx := (s.markRegions_kept r n).only.mbx.resolve_left Bool.false_ne_true
@[simp] theorem State.markRegions_bay (s : State) (r : TagRec) (n : Ns) : (s.markRegions r n).bay = s.bay := (s.markRegions_kept r n).only.bay.resolve_left Bool.false_ne_true
@[simp] theorem State.markRegions_props (s : State) (r : TagRec) (n : Ns) : (s.markRegions r n).props = s.props := (s.markRegions_kept r n).only.props.resolve_left Bool.false_ne_true
@[simp] theorem State.markRegions_ppc (s : State) (r : TagRec) (n : Ns) : (s.markRegions r n).ppc = s.ppc := (s.markRegions_kept r n).only.ppc.resolve_left Bool.false_ne_true
@[simp] theorem State.markRegions_xbr (s : State) (r : TagRec) (n : Ns) : (s.markRegions r n).xbr = s.xbr := (s.markRegions_kept r n).only.xbr.resolve_left Bool.false_ne_true
@[simp] theorem State.markRegions_sep (s : State) (r : TagRec) (n : Ns) : (s.markRegions r n).sep = s.sep := (s.markRegions_kept r n).only.sep.resolve_left Bool.false_ne_true
@[simp] theorem State.markRegions_pwr (s : State) (r : TagRec) (n : Ns) : (s.markRegions r n).pwr = s.pwr := (s.markRegions_kept r n).only.pwr.resolve_left Bool.false_ne_true
@[simp] theorem State.markRegions_lcu (s : State) (r : TagRec) (n : Ns) : (s.markRegions r n).lcu = s.lcu := (s.markRegions_kept r n).only.lcu.resolve_left Bool.false_ne_true
@[simp] theorem State.markRegions_pmu (s : State) (r : TagRec) (n : Ns) : (s.markRegions r n).pmu = s.pmu := (s.markRegions_kept r n).only.pmu.resolve_left Bool.false_ne_true
@[simp] theorem State.markRegions_tst (s : State) (r : TagRec) (n : Ns) : (s.markRegions r n).tst = s.tst := (s.markRegions_kept r n).only.tst.resolve_left Bool.false_ne_true
@[simp] theorem State.markRegions_mac (s : State) (r : TagRec) (n : Ns) : (s.markRegions r n).mac = s.mac := (s.markRegions_kept r n).only.mac.resolve_left Bool.false_ne_true
@[simp] theorem State.markRegions_now (s : State) (r : TagRec) (n : Ns) : (s.markRegions r n).now = s.now := (s.markRegions_kept r n).same.now
@[simp] theorem State.markRegions_part (s : State) (r : TagRec) (n : Ns) : (s.markRegions r n).part = s.part := (s.markRegions_kept r n).same.part
@[simp] theorem State.markRegions_slot (s : State) (r : TagRec) (n : Ns) : (s.markRegions r n).slot = s.slot := (s.markRegions_kept r n).same.slot
@[simp] theorem State.markRegions_uid (s : State) (r : TagRec) (n : Ns) : (s.markRegions r n).uid = s.uid := (s.markRegions_kept r n).same.uid
@[simp] theorem State.markRegions_pending (s : State) (r : TagRec) (n : Ns) : (s.markRegions r n).pending = s.pending := (s.markRegions_kept r n).pending
@[simp] theorem State.markRegions_out (s : State) (r : TagRec) (n : Ns) : (s.markRegions r n).out = s.out := (s.markRegions_kept r n).only.out.resolve_left Bool.false_ne_true
@[simp] theorem State.markRegions_freeCtr (s : State) (r : TagRec) (n : Ns) : (s.markRegions r n).freeCtr = s.freeCtr := (s.markRegions_kept r n).only.free.resolve_left Bool.false_ne_true
@[simp] theorem State.markRegions_reg (s : State) (r : TagRec) (n : Ns) (k : Nat) : (s.markRegions r n).reg k = s.reg k := ((s.markRegions_kept r n).only.regs).resolve_left Bool.false_ne_true k (fun h => absurd h Bool.false_ne_true)

theorem State.countCpl_kept (s : State) (vsid : Nat) (op : Nat) (st : CplStatus) (t : Nat) : Kept { pmu := true, moved := true } s (s.countCpl vsid op st t) :=
  Kept.countCpl _ _ _ _ (Kept.refl s) (hPmu := rfl) (hMoved := rfl)
@[simp] theorem State.countCpl_hce (s : State) (vsid : Nat) (op : Nat) (st : CplStatus) (t : Nat) : (s.countCpl vsid op st t).hce = s.hce := (s.countCpl_kept vsid op st t).only.hce.resolve_left Bool.false_ne_true
@[simp] theorem State.countCpl_rfu (s : State) (vsid : Nat) (op : Nat) (st : CplStatus) (t : Nat) : (s.countCpl vsid op st t).rfu = s.rfu := (s.countCpl_kept vsid op st t).only.rfu.resolve_left Bool.false_ne_true
@[simp] theorem State.countCpl_rge (s : State) (vsid : Nat) (op : Nat) (st : CplStatus) (t : Nat) : (s.countCpl vsid op st t).rge = s.rge := (s.countCpl_kept vsid op st t).only.rge.resolve_left Bool.false_ne_true
@[simp] theorem State.countCpl_snt (s : State) (vsid : Nat) (op : Nat) (st : CplStatus) (t : Nat) : (s.countCpl vsid op st t).snt = s.snt := (s.countCpl_kept vsid op st t).only.snt.resolve_left Bool.false_ne_true
@[simp] theorem State.countCpl_rfx (s : State) (vsid : Nat) (op : Nat) (st : CplStatus) (t : Nat) : (s.countCpl vsid op st t).rfx = s.rfx := (s.countCpl_kept vsid op st t).only.rfx.resolve_left Bool.false_ne_true
@[simp] theorem State.countCpl_tk (s : State) (vsid : Nat) (op : Nat) (st : CplStatus) (t : Nat) : (s.countCpl vsid op st t).tk = s.tk := (s.countCpl_kept vsid op st t).only.tk.resolve_left Bool.false_ne_true
@[simp] theorem State.countCpl_vsm (s : State) (vsid : Nat) (op : Nat) (st : CplStatus) (t : Nat) : (s.countCpl vsid op st t).vsm = s.vsm := (s.countCpl_kept vsid op st t).only.vsm.resolve_left Bool.false_ne_true
@[simp] theorem State.countCpl_kvt (s : State) (vsid : Nat) (op : Nat) (st : CplStatus) (t : Nat) : (s.countCpl vsid op st t).kvt = s.kvt := (s.countCpl_kept vsid op st t).only.kvt.resolve_left Bool.false_ne_true
@[simp] theorem State.countCpl_mbx (s : State) (vsid : Nat) (op : Nat) (st : CplStatus) (t : Nat) : (s.countCpl vsid op st t).mbx = s.mbx := (s.countCpl_kept vsid op st t).only.mbx.resolve_left Bool.false_ne_true
@[simp] theorem State.countCpl_bay (s : State) (vsid : Nat) (op : Nat) (st : CplStatus) (t : Nat) : (s.countCpl vsid op st t).bay = s.bay := (s.countCpl_kept vsid op st t).only.bay.resolve_left Bool.false_ne_true
@[simp] theorem State.countCpl_props (s : State) (vsid : Nat) (op : Nat) (st : CplStatus) (t : Nat) : (s.countCpl vsid op st t).props = s.props := (s.countCpl_kept vsid op st t).only.props.resolve_left Bool.false_ne_true
@[simp] theorem State.countCpl_ppc (s : State) (vsid : Nat) (op : Nat) (st : CplStatus) (t : Nat) : (s.countCpl vsid op st t).ppc = s.ppc := (s.countCpl_kept vsid op st t).only.ppc.resolve_left Bool.false_ne_true
@[simp] theorem State.countCpl_xbr (s : State) (vsid : Nat) (op : Nat) (st : CplStatus) (t : Nat) : (s.countCpl vsid op st t).xbr = s.xbr := (s.countCpl_kept vsid op st t).only.xbr.resolve_left Bool.false_ne_true
@[simp] theorem State.countCpl_sep (s : State) (vsid : Nat) (op : Nat) (st : CplStatus) (t : Nat) : (s.countCpl vsid op st t).sep = s.sep := (s.countCpl_kept vsid op st t).only.sep.resolve_left Bool.false_ne_true
@[simp] theorem State.countCpl_pwr (s : State) (vsid : Nat) (op : Nat) (st : CplStatus) (t : Nat) : (s.countCpl vsid op st t).pwr = s.pwr := (s.countCpl_kept vsid op st t).only.pwr.resolve_left Bool.false_ne_true
@[simp] theorem State.countCpl_lcu (s : State) (vsid : Nat) (op : Nat) (st : CplStatus) (t : Nat) : (s.countCpl vsid op st t).lcu = s.lcu := (s.countCpl_kept vsid op st t).only.lcu.resolve_left Bool.false_ne_true
@[simp] theorem State.countCpl_tst (s : State) (vsid : Nat) (op : Nat) (st : CplStatus) (t : Nat) : (s.countCpl vsid op st t).tst = s.tst := (s.countCpl_kept vsid op st t).only.tst.resolve_left Bool.false_ne_true
@[simp] theorem State.countCpl_mac (s : State) (vsid : Nat) (op : Nat) (st : CplStatus) (t : Nat) : (s.countCpl vsid op st t).mac = s.mac := (s.countCpl_kept vsid op st t).only.mac.resolve_left Bool.false_ne_true
@[simp] theorem State.countCpl_now (s : State) (vsid : Nat) (op : Nat) (st : CplStatus) (t : Nat) : (s.countCpl vsid op st t).now = s.now := (s.countCpl_kept vsid op st t).same.now
@[simp] theorem State.countCpl_part (s : State) (vsid : Nat) (op : Nat) (st : CplStatus) (t : Nat) : (s.countCpl vsid op st t).part = s.part := (s.countCpl_kept vsid op st t).same.part
@[simp] theorem State.countCpl_slot (s : State) (vsid : Nat) (op : Nat) (st : CplStatus) (t : Nat) : (s.countCpl vsid op st t).slot = s.slot := (s.countCpl_kept vsid op st t).same.slot
@[simp] theorem State.countCpl_uid (s : State) (vsid : Nat) (op : Nat) (st : CplStatus) (t : Nat) : (s.countCpl vsid op st t).uid = s.uid := (s.countCpl_kept vsid op st t).same.uid
@[simp] theorem State.countCpl_pending (s : State) (vsid : Nat) (op : Nat) (st : CplStatus) (t : Nat) : (s.countCpl vsid op st t).pending = s.pending := (s.countCpl_kept vsid op st t).pending
@[simp] theorem State.countCpl_out (s : State) (vsid : Nat) (op : Nat) (st : CplStatus) (t : Nat) : (s.countCpl vsid op st t).out = s.out := (s.countCpl_kept vsid op st t).only.out.resolve_left Bool.false_ne_true
@[simp] theorem State.countCpl_freeCtr (s : State) (vsid : Nat) (op : Nat) (st : CplStatus) (t : Nat) : (s.countCpl vsid op st t).freeCtr = s.freeCtr := (s.countCpl_kept vsid op st t).only.free.resolve_left Bool.false_ne_true

theorem State.issueMember_kept (s : State) (bay : Nat) (ring : Nat) (slot : Nat) (op : MOp) (lba : Nat) (rows : List Nat) (data : List Block) (fua : Bool) (purpose : MPurpose) : Kept { out := true, moved := true, pmu := true, bay := true } s (s.issueMember bay ring slot op lba rows data fua purpose) :=
  Kept.issueMember _ _ _ _ _ _ _ _ _ (Kept.refl s) (hOut := rfl) (hMoved := rfl) (hPmu := rfl) (hBay := rfl)
@[simp] theorem State.issueMember_hce (s : State) (bay : Nat) (ring : Nat) (slot : Nat) (op : MOp) (lba : Nat) (rows : List Nat) (data : List Block) (fua : Bool) (purpose : MPurpose) : (s.issueMember bay ring slot op lba rows data fua purpose).hce = s.hce := (s.issueMember_kept bay ring slot op lba rows data fua purpose).only.hce.resolve_left Bool.false_ne_true
@[simp] theorem State.issueMember_rfu (s : State) (bay : Nat) (ring : Nat) (slot : Nat) (op : MOp) (lba : Nat) (rows : List Nat) (data : List Block) (fua : Bool) (purpose : MPurpose) : (s.issueMember bay ring slot op lba rows data fua purpose).rfu = s.rfu := (s.issueMember_kept bay ring slot op lba rows data fua purpose).only.rfu.resolve_left Bool.false_ne_true
@[simp] theorem State.issueMember_rge (s : State) (bay : Nat) (ring : Nat) (slot : Nat) (op : MOp) (lba : Nat) (rows : List Nat) (data : List Block) (fua : Bool) (purpose : MPurpose) : (s.issueMember bay ring slot op lba rows data fua purpose).rge = s.rge := (s.issueMember_kept bay ring slot op lba rows data fua purpose).only.rge.resolve_left Bool.false_ne_true
@[simp] theorem State.issueMember_snt (s : State) (bay : Nat) (ring : Nat) (slot : Nat) (op : MOp) (lba : Nat) (rows : List Nat) (data : List Block) (fua : Bool) (purpose : MPurpose) : (s.issueMember bay ring slot op lba rows data fua purpose).snt = s.snt := (s.issueMember_kept bay ring slot op lba rows data fua purpose).only.snt.resolve_left Bool.false_ne_true
@[simp] theorem State.issueMember_rfx (s : State) (bay : Nat) (ring : Nat) (slot : Nat) (op : MOp) (lba : Nat) (rows : List Nat) (data : List Block) (fua : Bool) (purpose : MPurpose) : (s.issueMember bay ring slot op lba rows data fua purpose).rfx = s.rfx := (s.issueMember_kept bay ring slot op lba rows data fua purpose).only.rfx.resolve_left Bool.false_ne_true
@[simp] theorem State.issueMember_tk (s : State) (bay : Nat) (ring : Nat) (slot : Nat) (op : MOp) (lba : Nat) (rows : List Nat) (data : List Block) (fua : Bool) (purpose : MPurpose) : (s.issueMember bay ring slot op lba rows data fua purpose).tk = s.tk := (s.issueMember_kept bay ring slot op lba rows data fua purpose).only.tk.resolve_left Bool.false_ne_true
@[simp] theorem State.issueMember_vsm (s : State) (bay : Nat) (ring : Nat) (slot : Nat) (op : MOp) (lba : Nat) (rows : List Nat) (data : List Block) (fua : Bool) (purpose : MPurpose) : (s.issueMember bay ring slot op lba rows data fua purpose).vsm = s.vsm := (s.issueMember_kept bay ring slot op lba rows data fua purpose).only.vsm.resolve_left Bool.false_ne_true
@[simp] theorem State.issueMember_kvt (s : State) (bay : Nat) (ring : Nat) (slot : Nat) (op : MOp) (lba : Nat) (rows : List Nat) (data : List Block) (fua : Bool) (purpose : MPurpose) : (s.issueMember bay ring slot op lba rows data fua purpose).kvt = s.kvt := (s.issueMember_kept bay ring slot op lba rows data fua purpose).only.kvt.resolve_left Bool.false_ne_true
@[simp] theorem State.issueMember_mbx (s : State) (bay : Nat) (ring : Nat) (slot : Nat) (op : MOp) (lba : Nat) (rows : List Nat) (data : List Block) (fua : Bool) (purpose : MPurpose) : (s.issueMember bay ring slot op lba rows data fua purpose).mbx = s.mbx := (s.issueMember_kept bay ring slot op lba rows data fua purpose).only.mbx.resolve_left Bool.false_ne_true
@[simp] theorem State.issueMember_props (s : State) (bay : Nat) (ring : Nat) (slot : Nat) (op : MOp) (lba : Nat) (rows : List Nat) (data : List Block) (fua : Bool) (purpose : MPurpose) : (s.issueMember bay ring slot op lba rows data fua purpose).props = s.props := (s.issueMember_kept bay ring slot op lba rows data fua purpose).only.props.resolve_left Bool.false_ne_true
@[simp] theorem State.issueMember_ppc (s : State) (bay : Nat) (ring : Nat) (slot : Nat) (op : MOp) (lba : Nat) (rows : List Nat) (data : List Block) (fua : Bool) (purpose : MPurpose) : (s.issueMember bay ring slot op lba rows data fua purpose).ppc = s.ppc := (s.issueMember_kept bay ring slot op lba rows data fua purpose).only.ppc.resolve_left Bool.false_ne_true
@[simp] theorem State.issueMember_xbr (s : State) (bay : Nat) (ring : Nat) (slot : Nat) (op : MOp) (lba : Nat) (rows : List Nat) (data : List Block) (fua : Bool) (purpose : MPurpose) : (s.issueMember bay ring slot op lba rows data fua purpose).xbr = s.xbr := (s.issueMember_kept bay ring slot op lba rows data fua purpose).only.xbr.resolve_left Bool.false_ne_true
@[simp] theorem State.issueMember_sep (s : State) (bay : Nat) (ring : Nat) (slot : Nat) (op : MOp) (lba : Nat) (rows : List Nat) (data : List Block) (fua : Bool) (purpose : MPurpose) : (s.issueMember bay ring slot op lba rows data fua purpose).sep = s.sep := (s.issueMember_kept bay ring slot op lba rows data fua purpose).only.sep.resolve_left Bool.false_ne_true
@[simp] theorem State.issueMember_pwr (s : State) (bay : Nat) (ring : Nat) (slot : Nat) (op : MOp) (lba : Nat) (rows : List Nat) (data : List Block) (fua : Bool) (purpose : MPurpose) : (s.issueMember bay ring slot op lba rows data fua purpose).pwr = s.pwr := (s.issueMember_kept bay ring slot op lba rows data fua purpose).only.pwr.resolve_left Bool.false_ne_true
@[simp] theorem State.issueMember_lcu (s : State) (bay : Nat) (ring : Nat) (slot : Nat) (op : MOp) (lba : Nat) (rows : List Nat) (data : List Block) (fua : Bool) (purpose : MPurpose) : (s.issueMember bay ring slot op lba rows data fua purpose).lcu = s.lcu := (s.issueMember_kept bay ring slot op lba rows data fua purpose).only.lcu.resolve_left Bool.false_ne_true
@[simp] theorem State.issueMember_tst (s : State) (bay : Nat) (ring : Nat) (slot : Nat) (op : MOp) (lba : Nat) (rows : List Nat) (data : List Block) (fua : Bool) (purpose : MPurpose) : (s.issueMember bay ring slot op lba rows data fua purpose).tst = s.tst := (s.issueMember_kept bay ring slot op lba rows data fua purpose).only.tst.resolve_left Bool.false_ne_true
@[simp] theorem State.issueMember_mac (s : State) (bay : Nat) (ring : Nat) (slot : Nat) (op : MOp) (lba : Nat) (rows : List Nat) (data : List Block) (fua : Bool) (purpose : MPurpose) : (s.issueMember bay ring slot op lba rows data fua purpose).mac = s.mac := (s.issueMember_kept bay ring slot op lba rows data fua purpose).only.mac.resolve_left Bool.false_ne_true
@[simp] theorem State.issueMember_now (s : State) (bay : Nat) (ring : Nat) (slot : Nat) (op : MOp) (lba : Nat) (rows : List Nat) (data : List Block) (fua : Bool) (purpose : MPurpose) : (s.issueMember bay ring slot op lba rows data fua purpose).now = s.now := (s.issueMember_kept bay ring slot op lba rows data fua purpose).same.now
@[simp] theorem State.issueMember_part (s : State) (bay : Nat) (ring : Nat) (slot : Nat) (op : MOp) (lba : Nat) (rows : List Nat) (data : List Block) (fua : Bool) (purpose : MPurpose) : (s.issueMember bay ring slot op lba rows data fua purpose).part = s.part := (s.issueMember_kept bay ring slot op lba rows data fua purpose).same.part
@[simp] theorem State.issueMember_slot (s : State) (bay : Nat) (ring : Nat) (slot : Nat) (op : MOp) (lba : Nat) (rows : List Nat) (data : List Block) (fua : Bool) (purpose : MPurpose) : (s.issueMember bay ring slot op lba rows data fua purpose).slot = s.slot := (s.issueMember_kept bay ring slot op lba rows data fua purpose).same.slot
@[simp] theorem State.issueMember_uid (s : State) (bay : Nat) (ring : Nat) (slot : Nat) (op : MOp) (lba : Nat) (rows : List Nat) (data : List Block) (fua : Bool) (purpose : MPurpose) : (s.issueMember bay ring slot op lba rows data fua purpose).uid = s.uid := (s.issueMember_kept bay ring slot op lba rows data fua purpose).same.uid
@[simp] theorem State.issueMember_pending (s : State) (bay : Nat) (ring : Nat) (slot : Nat) (op : MOp) (lba : Nat) (rows : List Nat) (data : List Block) (fua : Bool) (purpose : MPurpose) : (s.issueMember bay ring slot op lba rows data fua purpose).pending = s.pending := (s.issueMember_kept bay ring slot op lba rows data fua purpose).pending
@[simp] theorem State.issueMember_freeCtr (s : State) (bay : Nat) (ring : Nat) (slot : Nat) (op : MOp) (lba : Nat) (rows : List Nat) (data : List Block) (fua : Bool) (purpose : MPurpose) : (s.issueMember bay ring slot op lba rows data fua purpose).freeCtr = s.freeCtr := (s.issueMember_kept bay ring slot op lba rows data fua purpose).only.free.resolve_left Bool.false_ne_true

theorem State.toSlot_kept (s : State) (r : Ring) (slot : Nat) (op : MOp) (lba : Nat) (rows : List Nat) (data : List Block) (fua : Bool) (purpose : MPurpose) : Kept { out := true, moved := true, pmu := true, bay := true } s (s.toSlot r slot op lba rows data fua purpose) :=
  Kept.toSlot _ _ _ _ _ _ _ _ (Kept.refl s) (hOut := rfl) (hMoved := rfl) (hPmu := rfl) (hBay := rfl)
@[simp] theorem State.toSlot_hce (s : State) (r : Ring) (slot : Nat) (op : MOp) (lba : Nat) (rows : List Nat) (data : List Block) (fua : Bool) (purpose : MPurpose) : (s.toSlot r slot op lba rows data fua purpose).hce = s.hce := (s.toSlot_kept r slot op lba rows data fua purpose).only.hce.resolve_left Bool.false_ne_true
@[simp] theorem State.toSlot_rfu (s : State) (r : Ring) (slot : Nat) (op : MOp) (lba : Nat) (rows : List Nat) (data : List Block) (fua : Bool) (purpose : MPurpose) : (s.toSlot r slot op lba rows data fua purpose).rfu = s.rfu := (s.toSlot_kept r slot op lba rows data fua purpose).only.rfu.resolve_left Bool.false_ne_true
@[simp] theorem State.toSlot_rge (s : State) (r : Ring) (slot : Nat) (op : MOp) (lba : Nat) (rows : List Nat) (data : List Block) (fua : Bool) (purpose : MPurpose) : (s.toSlot r slot op lba rows data fua purpose).rge = s.rge := (s.toSlot_kept r slot op lba rows data fua purpose).only.rge.resolve_left Bool.false_ne_true
@[simp] theorem State.toSlot_snt (s : State) (r : Ring) (slot : Nat) (op : MOp) (lba : Nat) (rows : List Nat) (data : List Block) (fua : Bool) (purpose : MPurpose) : (s.toSlot r slot op lba rows data fua purpose).snt = s.snt := (s.toSlot_kept r slot op lba rows data fua purpose).only.snt.resolve_left Bool.false_ne_true
@[simp] theorem State.toSlot_rfx (s : State) (r : Ring) (slot : Nat) (op : MOp) (lba : Nat) (rows : List Nat) (data : List Block) (fua : Bool) (purpose : MPurpose) : (s.toSlot r slot op lba rows data fua purpose).rfx = s.rfx := (s.toSlot_kept r slot op lba rows data fua purpose).only.rfx.resolve_left Bool.false_ne_true
@[simp] theorem State.toSlot_tk (s : State) (r : Ring) (slot : Nat) (op : MOp) (lba : Nat) (rows : List Nat) (data : List Block) (fua : Bool) (purpose : MPurpose) : (s.toSlot r slot op lba rows data fua purpose).tk = s.tk := (s.toSlot_kept r slot op lba rows data fua purpose).only.tk.resolve_left Bool.false_ne_true
@[simp] theorem State.toSlot_vsm (s : State) (r : Ring) (slot : Nat) (op : MOp) (lba : Nat) (rows : List Nat) (data : List Block) (fua : Bool) (purpose : MPurpose) : (s.toSlot r slot op lba rows data fua purpose).vsm = s.vsm := (s.toSlot_kept r slot op lba rows data fua purpose).only.vsm.resolve_left Bool.false_ne_true
@[simp] theorem State.toSlot_kvt (s : State) (r : Ring) (slot : Nat) (op : MOp) (lba : Nat) (rows : List Nat) (data : List Block) (fua : Bool) (purpose : MPurpose) : (s.toSlot r slot op lba rows data fua purpose).kvt = s.kvt := (s.toSlot_kept r slot op lba rows data fua purpose).only.kvt.resolve_left Bool.false_ne_true
@[simp] theorem State.toSlot_mbx (s : State) (r : Ring) (slot : Nat) (op : MOp) (lba : Nat) (rows : List Nat) (data : List Block) (fua : Bool) (purpose : MPurpose) : (s.toSlot r slot op lba rows data fua purpose).mbx = s.mbx := (s.toSlot_kept r slot op lba rows data fua purpose).only.mbx.resolve_left Bool.false_ne_true
@[simp] theorem State.toSlot_props (s : State) (r : Ring) (slot : Nat) (op : MOp) (lba : Nat) (rows : List Nat) (data : List Block) (fua : Bool) (purpose : MPurpose) : (s.toSlot r slot op lba rows data fua purpose).props = s.props := (s.toSlot_kept r slot op lba rows data fua purpose).only.props.resolve_left Bool.false_ne_true
@[simp] theorem State.toSlot_ppc (s : State) (r : Ring) (slot : Nat) (op : MOp) (lba : Nat) (rows : List Nat) (data : List Block) (fua : Bool) (purpose : MPurpose) : (s.toSlot r slot op lba rows data fua purpose).ppc = s.ppc := (s.toSlot_kept r slot op lba rows data fua purpose).only.ppc.resolve_left Bool.false_ne_true
@[simp] theorem State.toSlot_xbr (s : State) (r : Ring) (slot : Nat) (op : MOp) (lba : Nat) (rows : List Nat) (data : List Block) (fua : Bool) (purpose : MPurpose) : (s.toSlot r slot op lba rows data fua purpose).xbr = s.xbr := (s.toSlot_kept r slot op lba rows data fua purpose).only.xbr.resolve_left Bool.false_ne_true
@[simp] theorem State.toSlot_sep (s : State) (r : Ring) (slot : Nat) (op : MOp) (lba : Nat) (rows : List Nat) (data : List Block) (fua : Bool) (purpose : MPurpose) : (s.toSlot r slot op lba rows data fua purpose).sep = s.sep := (s.toSlot_kept r slot op lba rows data fua purpose).only.sep.resolve_left Bool.false_ne_true
@[simp] theorem State.toSlot_pwr (s : State) (r : Ring) (slot : Nat) (op : MOp) (lba : Nat) (rows : List Nat) (data : List Block) (fua : Bool) (purpose : MPurpose) : (s.toSlot r slot op lba rows data fua purpose).pwr = s.pwr := (s.toSlot_kept r slot op lba rows data fua purpose).only.pwr.resolve_left Bool.false_ne_true
@[simp] theorem State.toSlot_lcu (s : State) (r : Ring) (slot : Nat) (op : MOp) (lba : Nat) (rows : List Nat) (data : List Block) (fua : Bool) (purpose : MPurpose) : (s.toSlot r slot op lba rows data fua purpose).lcu = s.lcu := (s.toSlot_kept r slot op lba rows data fua purpose).only.lcu.resolve_left Bool.false_ne_true
@[simp] theorem State.toSlot_tst (s : State) (r : Ring) (slot : Nat) (op : MOp) (lba : Nat) (rows : List Nat) (data : List Block) (fua : Bool) (purpose : MPurpose) : (s.toSlot r slot op lba rows data fua purpose).tst = s.tst := (s.toSlot_kept r slot op lba rows data fua purpose).only.tst.resolve_left Bool.false_ne_true
@[simp] theorem State.toSlot_mac (s : State) (r : Ring) (slot : Nat) (op : MOp) (lba : Nat) (rows : List Nat) (data : List Block) (fua : Bool) (purpose : MPurpose) : (s.toSlot r slot op lba rows data fua purpose).mac = s.mac := (s.toSlot_kept r slot op lba rows data fua purpose).only.mac.resolve_left Bool.false_ne_true
@[simp] theorem State.toSlot_now (s : State) (r : Ring) (slot : Nat) (op : MOp) (lba : Nat) (rows : List Nat) (data : List Block) (fua : Bool) (purpose : MPurpose) : (s.toSlot r slot op lba rows data fua purpose).now = s.now := (s.toSlot_kept r slot op lba rows data fua purpose).same.now
@[simp] theorem State.toSlot_part (s : State) (r : Ring) (slot : Nat) (op : MOp) (lba : Nat) (rows : List Nat) (data : List Block) (fua : Bool) (purpose : MPurpose) : (s.toSlot r slot op lba rows data fua purpose).part = s.part := (s.toSlot_kept r slot op lba rows data fua purpose).same.part
@[simp] theorem State.toSlot_slot (s : State) (r : Ring) (slot : Nat) (op : MOp) (lba : Nat) (rows : List Nat) (data : List Block) (fua : Bool) (purpose : MPurpose) : (s.toSlot r slot op lba rows data fua purpose).slot = s.slot := (s.toSlot_kept r slot op lba rows data fua purpose).same.slot
@[simp] theorem State.toSlot_uid (s : State) (r : Ring) (slot : Nat) (op : MOp) (lba : Nat) (rows : List Nat) (data : List Block) (fua : Bool) (purpose : MPurpose) : (s.toSlot r slot op lba rows data fua purpose).uid = s.uid := (s.toSlot_kept r slot op lba rows data fua purpose).same.uid
@[simp] theorem State.toSlot_pending (s : State) (r : Ring) (slot : Nat) (op : MOp) (lba : Nat) (rows : List Nat) (data : List Block) (fua : Bool) (purpose : MPurpose) : (s.toSlot r slot op lba rows data fua purpose).pending = s.pending := (s.toSlot_kept r slot op lba rows data fua purpose).pending
@[simp] theorem State.toSlot_freeCtr (s : State) (r : Ring) (slot : Nat) (op : MOp) (lba : Nat) (rows : List Nat) (data : List Block) (fua : Bool) (purpose : MPurpose) : (s.toSlot r slot op lba rows data fua purpose).freeCtr = s.freeCtr := (s.toSlot_kept r slot op lba rows data fua purpose).only.free.resolve_left Bool.false_ne_true

theorem State.makeNamespaces_kept (s : State) (r : Ring) (j : Nat) (bay : Nat) : Kept { out := true, moved := true, pmu := true, bay := true } s (s.makeNamespaces r j bay) :=
  Kept.makeNamespaces _ _ _ (Kept.refl s) (hOut := rfl) (hMoved := rfl) (hPmu := rfl) (hBay := rfl)
@[simp] theorem State.makeNamespaces_hce (s : State) (r : Ring) (j : Nat) (bay : Nat) : (s.makeNamespaces r j bay).hce = s.hce := (s.makeNamespaces_kept r j bay).only.hce.resolve_left Bool.false_ne_true
@[simp] theorem State.makeNamespaces_rfu (s : State) (r : Ring) (j : Nat) (bay : Nat) : (s.makeNamespaces r j bay).rfu = s.rfu := (s.makeNamespaces_kept r j bay).only.rfu.resolve_left Bool.false_ne_true
@[simp] theorem State.makeNamespaces_rge (s : State) (r : Ring) (j : Nat) (bay : Nat) : (s.makeNamespaces r j bay).rge = s.rge := (s.makeNamespaces_kept r j bay).only.rge.resolve_left Bool.false_ne_true
@[simp] theorem State.makeNamespaces_snt (s : State) (r : Ring) (j : Nat) (bay : Nat) : (s.makeNamespaces r j bay).snt = s.snt := (s.makeNamespaces_kept r j bay).only.snt.resolve_left Bool.false_ne_true
@[simp] theorem State.makeNamespaces_rfx (s : State) (r : Ring) (j : Nat) (bay : Nat) : (s.makeNamespaces r j bay).rfx = s.rfx := (s.makeNamespaces_kept r j bay).only.rfx.resolve_left Bool.false_ne_true
@[simp] theorem State.makeNamespaces_tk (s : State) (r : Ring) (j : Nat) (bay : Nat) : (s.makeNamespaces r j bay).tk = s.tk := (s.makeNamespaces_kept r j bay).only.tk.resolve_left Bool.false_ne_true
@[simp] theorem State.makeNamespaces_vsm (s : State) (r : Ring) (j : Nat) (bay : Nat) : (s.makeNamespaces r j bay).vsm = s.vsm := (s.makeNamespaces_kept r j bay).only.vsm.resolve_left Bool.false_ne_true
@[simp] theorem State.makeNamespaces_kvt (s : State) (r : Ring) (j : Nat) (bay : Nat) : (s.makeNamespaces r j bay).kvt = s.kvt := (s.makeNamespaces_kept r j bay).only.kvt.resolve_left Bool.false_ne_true
@[simp] theorem State.makeNamespaces_mbx (s : State) (r : Ring) (j : Nat) (bay : Nat) : (s.makeNamespaces r j bay).mbx = s.mbx := (s.makeNamespaces_kept r j bay).only.mbx.resolve_left Bool.false_ne_true
@[simp] theorem State.makeNamespaces_props (s : State) (r : Ring) (j : Nat) (bay : Nat) : (s.makeNamespaces r j bay).props = s.props := (s.makeNamespaces_kept r j bay).only.props.resolve_left Bool.false_ne_true
@[simp] theorem State.makeNamespaces_ppc (s : State) (r : Ring) (j : Nat) (bay : Nat) : (s.makeNamespaces r j bay).ppc = s.ppc := (s.makeNamespaces_kept r j bay).only.ppc.resolve_left Bool.false_ne_true
@[simp] theorem State.makeNamespaces_xbr (s : State) (r : Ring) (j : Nat) (bay : Nat) : (s.makeNamespaces r j bay).xbr = s.xbr := (s.makeNamespaces_kept r j bay).only.xbr.resolve_left Bool.false_ne_true
@[simp] theorem State.makeNamespaces_sep (s : State) (r : Ring) (j : Nat) (bay : Nat) : (s.makeNamespaces r j bay).sep = s.sep := (s.makeNamespaces_kept r j bay).only.sep.resolve_left Bool.false_ne_true
@[simp] theorem State.makeNamespaces_pwr (s : State) (r : Ring) (j : Nat) (bay : Nat) : (s.makeNamespaces r j bay).pwr = s.pwr := (s.makeNamespaces_kept r j bay).only.pwr.resolve_left Bool.false_ne_true
@[simp] theorem State.makeNamespaces_lcu (s : State) (r : Ring) (j : Nat) (bay : Nat) : (s.makeNamespaces r j bay).lcu = s.lcu := (s.makeNamespaces_kept r j bay).only.lcu.resolve_left Bool.false_ne_true
@[simp] theorem State.makeNamespaces_tst (s : State) (r : Ring) (j : Nat) (bay : Nat) : (s.makeNamespaces r j bay).tst = s.tst := (s.makeNamespaces_kept r j bay).only.tst.resolve_left Bool.false_ne_true
@[simp] theorem State.makeNamespaces_mac (s : State) (r : Ring) (j : Nat) (bay : Nat) : (s.makeNamespaces r j bay).mac = s.mac := (s.makeNamespaces_kept r j bay).only.mac.resolve_left Bool.false_ne_true
@[simp] theorem State.makeNamespaces_now (s : State) (r : Ring) (j : Nat) (bay : Nat) : (s.makeNamespaces r j bay).now = s.now := (s.makeNamespaces_kept r j bay).same.now
@[simp] theorem State.makeNamespaces_part (s : State) (r : Ring) (j : Nat) (bay : Nat) : (s.makeNamespaces r j bay).part = s.part := (s.makeNamespaces_kept r j bay).same.part
@[simp] theorem State.makeNamespaces_slot (s : State) (r : Ring) (j : Nat) (bay : Nat) : (s.makeNamespaces r j bay).slot = s.slot := (s.makeNamespaces_kept r j bay).same.slot
@[simp] theorem State.makeNamespaces_uid (s : State) (r : Ring) (j : Nat) (bay : Nat) : (s.makeNamespaces r j bay).uid = s.uid := (s.makeNamespaces_kept r j bay).same.uid
@[simp] theorem State.makeNamespaces_pending (s : State) (r : Ring) (j : Nat) (bay : Nat) : (s.makeNamespaces r j bay).pending = s.pending := (s.makeNamespaces_kept r j bay).pending
@[simp] theorem State.makeNamespaces_freeCtr (s : State) (r : Ring) (j : Nat) (bay : Nat) : (s.makeNamespaces r j bay).freeCtr = s.freeCtr := (s.makeNamespaces_kept r j bay).only.free.resolve_left Bool.false_ne_true

theorem State.writeSuperblocks_kept (s : State) (ring : Nat) : Kept { moved := true, out := true, rge := true, pmu := true, bay := true } s (s.writeSuperblocks ring) :=
  Kept.writeSuperblocks _ (Kept.refl s) (hMoved := rfl) (hOut := rfl) (hRge := rfl) (hPmu := rfl) (hBay := rfl)
@[simp] theorem State.writeSuperblocks_hce (s : State) (ring : Nat) : (s.writeSuperblocks ring).hce = s.hce := (s.writeSuperblocks_kept ring).only.hce.resolve_left Bool.false_ne_true
@[simp] theorem State.writeSuperblocks_rfu (s : State) (ring : Nat) : (s.writeSuperblocks ring).rfu = s.rfu := (s.writeSuperblocks_kept ring).only.rfu.resolve_left Bool.false_ne_true
@[simp] theorem State.writeSuperblocks_snt (s : State) (ring : Nat) : (s.writeSuperblocks ring).snt = s.snt := (s.writeSuperblocks_kept ring).only.snt.resolve_left Bool.false_ne_true
@[simp] theorem State.writeSuperblocks_rfx (s : State) (ring : Nat) : (s.writeSuperblocks ring).rfx = s.rfx := (s.writeSuperblocks_kept ring).only.rfx.resolve_left Bool.false_ne_true
@[simp] theorem State.writeSuperblocks_tk (s : State) (ring : Nat) : (s.writeSuperblocks ring).tk = s.tk := (s.writeSuperblocks_kept ring).only.tk.resolve_left Bool.false_ne_true
@[simp] theorem State.writeSuperblocks_vsm (s : State) (ring : Nat) : (s.writeSuperblocks ring).vsm = s.vsm := (s.writeSuperblocks_kept ring).only.vsm.resolve_left Bool.false_ne_true
@[simp] theorem State.writeSuperblocks_kvt (s : State) (ring : Nat) : (s.writeSuperblocks ring).kvt = s.kvt := (s.writeSuperblocks_kept ring).only.kvt.resolve_left Bool.false_ne_true
@[simp] theorem State.writeSuperblocks_mbx (s : State) (ring : Nat) : (s.writeSuperblocks ring).mbx = s.mbx := (s.writeSuperblocks_kept ring).only.mbx.resolve_left Bool.false_ne_true
@[simp] theorem State.writeSuperblocks_props (s : State) (ring : Nat) : (s.writeSuperblocks ring).props = s.props := (s.writeSuperblocks_kept ring).only.props.resolve_left Bool.false_ne_true
@[simp] theorem State.writeSuperblocks_ppc (s : State) (ring : Nat) : (s.writeSuperblocks ring).ppc = s.ppc := (s.writeSuperblocks_kept ring).only.ppc.resolve_left Bool.false_ne_true
@[simp] theorem State.writeSuperblocks_xbr (s : State) (ring : Nat) : (s.writeSuperblocks ring).xbr = s.xbr := (s.writeSuperblocks_kept ring).only.xbr.resolve_left Bool.false_ne_true
@[simp] theorem State.writeSuperblocks_sep (s : State) (ring : Nat) : (s.writeSuperblocks ring).sep = s.sep := (s.writeSuperblocks_kept ring).only.sep.resolve_left Bool.false_ne_true
@[simp] theorem State.writeSuperblocks_pwr (s : State) (ring : Nat) : (s.writeSuperblocks ring).pwr = s.pwr := (s.writeSuperblocks_kept ring).only.pwr.resolve_left Bool.false_ne_true
@[simp] theorem State.writeSuperblocks_lcu (s : State) (ring : Nat) : (s.writeSuperblocks ring).lcu = s.lcu := (s.writeSuperblocks_kept ring).only.lcu.resolve_left Bool.false_ne_true
@[simp] theorem State.writeSuperblocks_tst (s : State) (ring : Nat) : (s.writeSuperblocks ring).tst = s.tst := (s.writeSuperblocks_kept ring).only.tst.resolve_left Bool.false_ne_true
@[simp] theorem State.writeSuperblocks_mac (s : State) (ring : Nat) : (s.writeSuperblocks ring).mac = s.mac := (s.writeSuperblocks_kept ring).only.mac.resolve_left Bool.false_ne_true
@[simp] theorem State.writeSuperblocks_now (s : State) (ring : Nat) : (s.writeSuperblocks ring).now = s.now := (s.writeSuperblocks_kept ring).same.now
@[simp] theorem State.writeSuperblocks_part (s : State) (ring : Nat) : (s.writeSuperblocks ring).part = s.part := (s.writeSuperblocks_kept ring).same.part
@[simp] theorem State.writeSuperblocks_slot (s : State) (ring : Nat) : (s.writeSuperblocks ring).slot = s.slot := (s.writeSuperblocks_kept ring).same.slot
@[simp] theorem State.writeSuperblocks_uid (s : State) (ring : Nat) : (s.writeSuperblocks ring).uid = s.uid := (s.writeSuperblocks_kept ring).same.uid
@[simp] theorem State.writeSuperblocks_pending (s : State) (ring : Nat) : (s.writeSuperblocks ring).pending = s.pending := (s.writeSuperblocks_kept ring).pending
@[simp] theorem State.writeSuperblocks_freeCtr (s : State) (ring : Nat) : (s.writeSuperblocks ring).freeCtr = s.freeCtr := (s.writeSuperblocks_kept ring).only.free.resolve_left Bool.false_ne_true

theorem State.recomputeCeil_kept (s : State) : Kept { hce := true } s s.recomputeCeil :=
  Kept.recomputeCeil (Kept.refl s) (hHce := rfl)
@[simp] theorem State.recomputeCeil_rfu (s : State) : s.recomputeCeil.rfu = s.rfu := (s.recomputeCeil_kept).only.rfu.resolve_left Bool.false_ne_true
@[simp] theorem State.recomputeCeil_rge (s : State) : s.recomputeCeil.rge = s.rge := (s.recomputeCeil_kept).only.rge.resolve_left Bool.false_ne_true
@[simp] theorem State.recomputeCeil_snt (s : State) : s.recomputeCeil.snt = s.snt := (s.recomputeCeil_kept).only.snt.resolve_left Bool.false_ne_true
@[simp] theorem State.recomputeCeil_rfx (s : State) : s.recomputeCeil.rfx = s.rfx := (s.recomputeCeil_kept).only.rfx.resolve_left Bool.false_ne_true
@[simp] theorem State.recomputeCeil_tk (s : State) : s.recomputeCeil.tk = s.tk := (s.recomputeCeil_kept).only.tk.resolve_left Bool.false_ne_true
@[simp] theorem State.recomputeCeil_vsm (s : State) : s.recomputeCeil.vsm = s.vsm := (s.recomputeCeil_kept).only.vsm.resolve_left Bool.false_ne_true
@[simp] theorem State.recomputeCeil_kvt (s : State) : s.recomputeCeil.kvt = s.kvt := (s.recomputeCeil_kept).only.kvt.resolve_left Bool.false_ne_true
@[simp] theorem State.recomputeCeil_mbx (s : State) : s.recomputeCeil.mbx = s.mbx := (s.recomputeCeil_kept).only.mbx.resolve_left Bool.false_ne_true
@[simp] theorem State.recomputeCeil_bay (s : State) : s.recomputeCeil.bay = s.bay := (s.recomputeCeil_kept).only.bay.resolve_left Bool.false_ne_true
@[simp] theorem State.recomputeCeil_props (s : State) : s.recomputeCeil.props = s.props := (s.recomputeCeil_kept).only.props.resolve_left Bool.false_ne_true
@[simp] theorem State.recomputeCeil_ppc (s : State) : s.recomputeCeil.ppc = s.ppc := (s.recomputeCeil_kept).only.ppc.resolve_left Bool.false_ne_true
@[simp] theorem State.recomputeCeil_xbr (s : State) : s.recomputeCeil.xbr = s.xbr := (s.recomputeCeil_kept).only.xbr.resolve_left Bool.false_ne_true
@[simp] theorem State.recomputeCeil_sep (s : State) : s.recomputeCeil.sep = s.sep := (s.recomputeCeil_kept).only.sep.resolve_left Bool.false_ne_true
@[simp] theorem State.recomputeCeil_pwr (s : State) : s.recomputeCeil.pwr = s.pwr := (s.recomputeCeil_kept).only.pwr.resolve_left Bool.false_ne_true
@[simp] theorem State.recomputeCeil_lcu (s : State) : s.recomputeCeil.lcu = s.lcu := (s.recomputeCeil_kept).only.lcu.resolve_left Bool.false_ne_true
@[simp] theorem State.recomputeCeil_pmu (s : State) : s.recomputeCeil.pmu = s.pmu := (s.recomputeCeil_kept).only.pmu.resolve_left Bool.false_ne_true
@[simp] theorem State.recomputeCeil_tst (s : State) : s.recomputeCeil.tst = s.tst := (s.recomputeCeil_kept).only.tst.resolve_left Bool.false_ne_true
@[simp] theorem State.recomputeCeil_mac (s : State) : s.recomputeCeil.mac = s.mac := (s.recomputeCeil_kept).only.mac.resolve_left Bool.false_ne_true
@[simp] theorem State.recomputeCeil_now (s : State) : s.recomputeCeil.now = s.now := (s.recomputeCeil_kept).same.now
@[simp] theorem State.recomputeCeil_part (s : State) : s.recomputeCeil.part = s.part := (s.recomputeCeil_kept).same.part
@[simp] theorem State.recomputeCeil_slot (s : State) : s.recomputeCeil.slot = s.slot := (s.recomputeCeil_kept).same.slot
@[simp] theorem State.recomputeCeil_uid (s : State) : s.recomputeCeil.uid = s.uid := (s.recomputeCeil_kept).same.uid
@[simp] theorem State.recomputeCeil_pending (s : State) : s.recomputeCeil.pending = s.pending := (s.recomputeCeil_kept).pending
@[simp] theorem State.recomputeCeil_out (s : State) : s.recomputeCeil.out = s.out := (s.recomputeCeil_kept).only.out.resolve_left Bool.false_ne_true
@[simp] theorem State.recomputeCeil_freeCtr (s : State) : s.recomputeCeil.freeCtr = s.freeCtr := (s.recomputeCeil_kept).only.free.resolve_left Bool.false_ne_true
@[simp] theorem State.recomputeCeil_reg (s : State)  (k : Nat) : s.recomputeCeil.reg k = s.reg k := ((s.recomputeCeil_kept).only.regs).resolve_left Bool.false_ne_true k (fun h => absurd h Bool.false_ne_true)

theorem State.ringOnline_kept (s : State) (ring : Nat) : Kept { out := true, xbr := true, pmu := true, moved := true, rfx := true, rge := true } s (s.ringOnline ring) :=
  Kept.ringOnline _ (Kept.refl s) (hOut := rfl) (hXbr := rfl) (hPmu := rfl) (hMoved := rfl) (hRfx := rfl) (hRge := rfl)
@[simp] theorem State.ringOnline_hce (s : State) (ring : Nat) : (s.ringOnline ring).hce = s.hce := (s.ringOnline_kept ring).only.hce.resolve_left Bool.false_ne_true
@[simp] theorem State.ringOnline_rfu (s : State) (ring : Nat) : (s.ringOnline ring).rfu = s.rfu := (s.ringOnline_kept ring).only.rfu.resolve_left Bool.false_ne_true
@[simp] theorem State.ringOnline_snt (s : State) (ring : Nat) : (s.ringOnline ring).snt = s.snt := (s.ringOnline_kept ring).only.snt.resolve_left Bool.false_ne_true
@[simp] theorem State.ringOnline_tk (s : State) (ring : Nat) : (s.ringOnline ring).tk = s.tk := (s.ringOnline_kept ring).only.tk.resolve_left Bool.false_ne_true
@[simp] theorem State.ringOnline_vsm (s : State) (ring : Nat) : (s.ringOnline ring).vsm = s.vsm := (s.ringOnline_kept ring).only.vsm.resolve_left Bool.false_ne_true
@[simp] theorem State.ringOnline_kvt (s : State) (ring : Nat) : (s.ringOnline ring).kvt = s.kvt := (s.ringOnline_kept ring).only.kvt.resolve_left Bool.false_ne_true
@[simp] theorem State.ringOnline_mbx (s : State) (ring : Nat) : (s.ringOnline ring).mbx = s.mbx := (s.ringOnline_kept ring).only.mbx.resolve_left Bool.false_ne_true
@[simp] theorem State.ringOnline_bay (s : State) (ring : Nat) : (s.ringOnline ring).bay = s.bay := (s.ringOnline_kept ring).only.bay.resolve_left Bool.false_ne_true
@[simp] theorem State.ringOnline_props (s : State) (ring : Nat) : (s.ringOnline ring).props = s.props := (s.ringOnline_kept ring).only.props.resolve_left Bool.false_ne_true
@[simp] theorem State.ringOnline_ppc (s : State) (ring : Nat) : (s.ringOnline ring).ppc = s.ppc := (s.ringOnline_kept ring).only.ppc.resolve_left Bool.false_ne_true
@[simp] theorem State.ringOnline_sep (s : State) (ring : Nat) : (s.ringOnline ring).sep = s.sep := (s.ringOnline_kept ring).only.sep.resolve_left Bool.false_ne_true
@[simp] theorem State.ringOnline_pwr (s : State) (ring : Nat) : (s.ringOnline ring).pwr = s.pwr := (s.ringOnline_kept ring).only.pwr.resolve_left Bool.false_ne_true
@[simp] theorem State.ringOnline_lcu (s : State) (ring : Nat) : (s.ringOnline ring).lcu = s.lcu := (s.ringOnline_kept ring).only.lcu.resolve_left Bool.false_ne_true
@[simp] theorem State.ringOnline_tst (s : State) (ring : Nat) : (s.ringOnline ring).tst = s.tst := (s.ringOnline_kept ring).only.tst.resolve_left Bool.false_ne_true
@[simp] theorem State.ringOnline_mac (s : State) (ring : Nat) : (s.ringOnline ring).mac = s.mac := (s.ringOnline_kept ring).only.mac.resolve_left Bool.false_ne_true
@[simp] theorem State.ringOnline_now (s : State) (ring : Nat) : (s.ringOnline ring).now = s.now := (s.ringOnline_kept ring).same.now
@[simp] theorem State.ringOnline_part (s : State) (ring : Nat) : (s.ringOnline ring).part = s.part := (s.ringOnline_kept ring).same.part
@[simp] theorem State.ringOnline_slot (s : State) (ring : Nat) : (s.ringOnline ring).slot = s.slot := (s.ringOnline_kept ring).same.slot
@[simp] theorem State.ringOnline_uid (s : State) (ring : Nat) : (s.ringOnline ring).uid = s.uid := (s.ringOnline_kept ring).same.uid
@[simp] theorem State.ringOnline_pending (s : State) (ring : Nat) : (s.ringOnline ring).pending = s.pending := (s.ringOnline_kept ring).pending
@[simp] theorem State.ringOnline_freeCtr (s : State) (ring : Nat) : (s.ringOnline ring).freeCtr = s.freeCtr := (s.ringOnline_kept ring).only.free.resolve_left Bool.false_ne_true

theorem State.removeRing_kept (s : State) (ring : Nat) : Kept { hce := true, snt := true, rge := true } s (s.removeRing ring) :=
  Kept.removeRing _ (Kept.refl s) (hHce := rfl) (hSnt := rfl) (hRge := rfl)
@[simp] theorem State.removeRing_rfu (s : State) (ring : Nat) : (s.removeRing ring).rfu = s.rfu := (s.removeRing_kept ring).only.rfu.resolve_left Bool.false_ne_true
@[simp] theorem State.removeRing_rfx (s : State) (ring : Nat) : (s.removeRing ring).rfx = s.rfx := (s.removeRing_kept ring).only.rfx.resolve_left Bool.false_ne_true
@[simp] theorem State.removeRing_tk (s : State) (ring : Nat) : (s.removeRing ring).tk = s.tk := (s.removeRing_kept ring).only.tk.resolve_left Bool.false_ne_true
@[simp] theorem State.removeRing_vsm (s : State) (ring : Nat) : (s.removeRing ring).vsm = s.vsm := (s.removeRing_kept ring).only.vsm.resolve_left Bool.false_ne_true
@[simp] theorem State.removeRing_kvt (s : State) (ring : Nat) : (s.removeRing ring).kvt = s.kvt := (s.removeRing_kept ring).only.kvt.resolve_left Bool.false_ne_true
@[simp] theorem State.removeRing_mbx (s : State) (ring : Nat) : (s.removeRing ring).mbx = s.mbx := (s.removeRing_kept ring).only.mbx.resolve_left Bool.false_ne_true
@[simp] theorem State.removeRing_bay (s : State) (ring : Nat) : (s.removeRing ring).bay = s.bay := (s.removeRing_kept ring).only.bay.resolve_left Bool.false_ne_true
@[simp] theorem State.removeRing_props (s : State) (ring : Nat) : (s.removeRing ring).props = s.props := (s.removeRing_kept ring).only.props.resolve_left Bool.false_ne_true
@[simp] theorem State.removeRing_ppc (s : State) (ring : Nat) : (s.removeRing ring).ppc = s.ppc := (s.removeRing_kept ring).only.ppc.resolve_left Bool.false_ne_true
@[simp] theorem State.removeRing_xbr (s : State) (ring : Nat) : (s.removeRing ring).xbr = s.xbr := (s.removeRing_kept ring).only.xbr.resolve_left Bool.false_ne_true
@[simp] theorem State.removeRing_sep (s : State) (ring : Nat) : (s.removeRing ring).sep = s.sep := (s.removeRing_kept ring).only.sep.resolve_left Bool.false_ne_true
@[simp] theorem State.removeRing_pwr (s : State) (ring : Nat) : (s.removeRing ring).pwr = s.pwr := (s.removeRing_kept ring).only.pwr.resolve_left Bool.false_ne_true
@[simp] theorem State.removeRing_lcu (s : State) (ring : Nat) : (s.removeRing ring).lcu = s.lcu := (s.removeRing_kept ring).only.lcu.resolve_left Bool.false_ne_true
@[simp] theorem State.removeRing_pmu (s : State) (ring : Nat) : (s.removeRing ring).pmu = s.pmu := (s.removeRing_kept ring).only.pmu.resolve_left Bool.false_ne_true
@[simp] theorem State.removeRing_tst (s : State) (ring : Nat) : (s.removeRing ring).tst = s.tst := (s.removeRing_kept ring).only.tst.resolve_left Bool.false_ne_true
@[simp] theorem State.removeRing_mac (s : State) (ring : Nat) : (s.removeRing ring).mac = s.mac := (s.removeRing_kept ring).only.mac.resolve_left Bool.false_ne_true
@[simp] theorem State.removeRing_now (s : State) (ring : Nat) : (s.removeRing ring).now = s.now := (s.removeRing_kept ring).same.now
@[simp] theorem State.removeRing_part (s : State) (ring : Nat) : (s.removeRing ring).part = s.part := (s.removeRing_kept ring).same.part
@[simp] theorem State.removeRing_slot (s : State) (ring : Nat) : (s.removeRing ring).slot = s.slot := (s.removeRing_kept ring).same.slot
@[simp] theorem State.removeRing_uid (s : State) (ring : Nat) : (s.removeRing ring).uid = s.uid := (s.removeRing_kept ring).same.uid
@[simp] theorem State.removeRing_pending (s : State) (ring : Nat) : (s.removeRing ring).pending = s.pending := (s.removeRing_kept ring).pending
@[simp] theorem State.removeRing_out (s : State) (ring : Nat) : (s.removeRing ring).out = s.out := (s.removeRing_kept ring).only.out.resolve_left Bool.false_ne_true
@[simp] theorem State.removeRing_freeCtr (s : State) (ring : Nat) : (s.removeRing ring).freeCtr = s.freeCtr := (s.removeRing_kept ring).only.free.resolve_left Bool.false_ne_true
@[simp] theorem State.removeRing_reg (s : State) (ring : Nat) (k : Nat) : (s.removeRing ring).reg k = s.reg k := ((s.removeRing_kept ring).only.regs).resolve_left Bool.false_ne_true k (fun h => absurd h Bool.false_ne_true)

theorem State.cacheInsert_kept (s : State) (v : Nat) (n : Nat) (b : Nat) (written : Bool) (ct : Block) : Kept { hce := true } s (s.cacheInsert v n b written ct) :=
  Kept.cacheInsert _ _ _ _ _ (Kept.refl s) (hHce := rfl)
@[simp] theorem State.cacheInsert_rfu (s : State) (v : Nat) (n : Nat) (b : Nat) (written : Bool) (ct : Block) : (s.cacheInsert v n b written ct).rfu = s.rfu := (s.cacheInsert_kept v n b written ct).only.rfu.resolve_left Bool.false_ne_true
@[simp] theorem State.cacheInsert_rge (s : State) (v : Nat) (n : Nat) (b : Nat) (written : Bool) (ct : Block) : (s.cacheInsert v n b written ct).rge = s.rge := (s.cacheInsert_kept v n b written ct).only.rge.resolve_left Bool.false_ne_true
@[simp] theorem State.cacheInsert_snt (s : State) (v : Nat) (n : Nat) (b : Nat) (written : Bool) (ct : Block) : (s.cacheInsert v n b written ct).snt = s.snt := (s.cacheInsert_kept v n b written ct).only.snt.resolve_left Bool.false_ne_true
@[simp] theorem State.cacheInsert_rfx (s : State) (v : Nat) (n : Nat) (b : Nat) (written : Bool) (ct : Block) : (s.cacheInsert v n b written ct).rfx = s.rfx := (s.cacheInsert_kept v n b written ct).only.rfx.resolve_left Bool.false_ne_true
@[simp] theorem State.cacheInsert_tk (s : State) (v : Nat) (n : Nat) (b : Nat) (written : Bool) (ct : Block) : (s.cacheInsert v n b written ct).tk = s.tk := (s.cacheInsert_kept v n b written ct).only.tk.resolve_left Bool.false_ne_true
@[simp] theorem State.cacheInsert_vsm (s : State) (v : Nat) (n : Nat) (b : Nat) (written : Bool) (ct : Block) : (s.cacheInsert v n b written ct).vsm = s.vsm := (s.cacheInsert_kept v n b written ct).only.vsm.resolve_left Bool.false_ne_true
@[simp] theorem State.cacheInsert_kvt (s : State) (v : Nat) (n : Nat) (b : Nat) (written : Bool) (ct : Block) : (s.cacheInsert v n b written ct).kvt = s.kvt := (s.cacheInsert_kept v n b written ct).only.kvt.resolve_left Bool.false_ne_true
@[simp] theorem State.cacheInsert_mbx (s : State) (v : Nat) (n : Nat) (b : Nat) (written : Bool) (ct : Block) : (s.cacheInsert v n b written ct).mbx = s.mbx := (s.cacheInsert_kept v n b written ct).only.mbx.resolve_left Bool.false_ne_true
@[simp] theorem State.cacheInsert_bay (s : State) (v : Nat) (n : Nat) (b : Nat) (written : Bool) (ct : Block) : (s.cacheInsert v n b written ct).bay = s.bay := (s.cacheInsert_kept v n b written ct).only.bay.resolve_left Bool.false_ne_true
@[simp] theorem State.cacheInsert_props (s : State) (v : Nat) (n : Nat) (b : Nat) (written : Bool) (ct : Block) : (s.cacheInsert v n b written ct).props = s.props := (s.cacheInsert_kept v n b written ct).only.props.resolve_left Bool.false_ne_true
@[simp] theorem State.cacheInsert_ppc (s : State) (v : Nat) (n : Nat) (b : Nat) (written : Bool) (ct : Block) : (s.cacheInsert v n b written ct).ppc = s.ppc := (s.cacheInsert_kept v n b written ct).only.ppc.resolve_left Bool.false_ne_true
@[simp] theorem State.cacheInsert_xbr (s : State) (v : Nat) (n : Nat) (b : Nat) (written : Bool) (ct : Block) : (s.cacheInsert v n b written ct).xbr = s.xbr := (s.cacheInsert_kept v n b written ct).only.xbr.resolve_left Bool.false_ne_true
@[simp] theorem State.cacheInsert_sep (s : State) (v : Nat) (n : Nat) (b : Nat) (written : Bool) (ct : Block) : (s.cacheInsert v n b written ct).sep = s.sep := (s.cacheInsert_kept v n b written ct).only.sep.resolve_left Bool.false_ne_true
@[simp] theorem State.cacheInsert_pwr (s : State) (v : Nat) (n : Nat) (b : Nat) (written : Bool) (ct : Block) : (s.cacheInsert v n b written ct).pwr = s.pwr := (s.cacheInsert_kept v n b written ct).only.pwr.resolve_left Bool.false_ne_true
@[simp] theorem State.cacheInsert_lcu (s : State) (v : Nat) (n : Nat) (b : Nat) (written : Bool) (ct : Block) : (s.cacheInsert v n b written ct).lcu = s.lcu := (s.cacheInsert_kept v n b written ct).only.lcu.resolve_left Bool.false_ne_true
@[simp] theorem State.cacheInsert_pmu (s : State) (v : Nat) (n : Nat) (b : Nat) (written : Bool) (ct : Block) : (s.cacheInsert v n b written ct).pmu = s.pmu := (s.cacheInsert_kept v n b written ct).only.pmu.resolve_left Bool.false_ne_true
@[simp] theorem State.cacheInsert_tst (s : State) (v : Nat) (n : Nat) (b : Nat) (written : Bool) (ct : Block) : (s.cacheInsert v n b written ct).tst = s.tst := (s.cacheInsert_kept v n b written ct).only.tst.resolve_left Bool.false_ne_true
@[simp] theorem State.cacheInsert_mac (s : State) (v : Nat) (n : Nat) (b : Nat) (written : Bool) (ct : Block) : (s.cacheInsert v n b written ct).mac = s.mac := (s.cacheInsert_kept v n b written ct).only.mac.resolve_left Bool.false_ne_true
@[simp] theorem State.cacheInsert_now (s : State) (v : Nat) (n : Nat) (b : Nat) (written : Bool) (ct : Block) : (s.cacheInsert v n b written ct).now = s.now := (s.cacheInsert_kept v n b written ct).same.now
@[simp] theorem State.cacheInsert_part (s : State) (v : Nat) (n : Nat) (b : Nat) (written : Bool) (ct : Block) : (s.cacheInsert v n b written ct).part = s.part := (s.cacheInsert_kept v n b written ct).same.part
@[simp] theorem State.cacheInsert_slot (s : State) (v : Nat) (n : Nat) (b : Nat) (written : Bool) (ct : Block) : (s.cacheInsert v n b written ct).slot = s.slot := (s.cacheInsert_kept v n b written ct).same.slot
@[simp] theorem State.cacheInsert_uid (s : State) (v : Nat) (n : Nat) (b : Nat) (written : Bool) (ct : Block) : (s.cacheInsert v n b written ct).uid = s.uid := (s.cacheInsert_kept v n b written ct).same.uid
@[simp] theorem State.cacheInsert_pending (s : State) (v : Nat) (n : Nat) (b : Nat) (written : Bool) (ct : Block) : (s.cacheInsert v n b written ct).pending = s.pending := (s.cacheInsert_kept v n b written ct).pending
@[simp] theorem State.cacheInsert_out (s : State) (v : Nat) (n : Nat) (b : Nat) (written : Bool) (ct : Block) : (s.cacheInsert v n b written ct).out = s.out := (s.cacheInsert_kept v n b written ct).only.out.resolve_left Bool.false_ne_true
@[simp] theorem State.cacheInsert_freeCtr (s : State) (v : Nat) (n : Nat) (b : Nat) (written : Bool) (ct : Block) : (s.cacheInsert v n b written ct).freeCtr = s.freeCtr := (s.cacheInsert_kept v n b written ct).only.free.resolve_left Bool.false_ne_true
@[simp] theorem State.cacheInsert_reg (s : State) (v : Nat) (n : Nat) (b : Nat) (written : Bool) (ct : Block) (k : Nat) : (s.cacheInsert v n b written ct).reg k = s.reg k := ((s.cacheInsert_kept v n b written ct).only.regs).resolve_left Bool.false_ne_true k (fun h => absurd h Bool.false_ne_true)

theorem State.autoRekey_kept (s : State) (slot : Nat) : Kept { xbr := true, moved := true, free := true, kvt := true, out := true, pmu := true, rfx := true } s (s.autoRekey slot) :=
  Kept.autoRekey _ (Kept.refl s) (hXbr := rfl) (hMoved := rfl) (hFree := rfl) (hKvt := rfl) (hOut := rfl) (hPmu := rfl) (hRfx := rfl)
@[simp] theorem State.autoRekey_hce (s : State) (slot : Nat) : (s.autoRekey slot).hce = s.hce := (s.autoRekey_kept slot).only.hce.resolve_left Bool.false_ne_true
@[simp] theorem State.autoRekey_rfu (s : State) (slot : Nat) : (s.autoRekey slot).rfu = s.rfu := (s.autoRekey_kept slot).only.rfu.resolve_left Bool.false_ne_true
@[simp] theorem State.autoRekey_rge (s : State) (slot : Nat) : (s.autoRekey slot).rge = s.rge := (s.autoRekey_kept slot).only.rge.resolve_left Bool.false_ne_true
@[simp] theorem State.autoRekey_snt (s : State) (slot : Nat) : (s.autoRekey slot).snt = s.snt := (s.autoRekey_kept slot).only.snt.resolve_left Bool.false_ne_true
@[simp] theorem State.autoRekey_tk (s : State) (slot : Nat) : (s.autoRekey slot).tk = s.tk := (s.autoRekey_kept slot).only.tk.resolve_left Bool.false_ne_true
@[simp] theorem State.autoRekey_vsm (s : State) (slot : Nat) : (s.autoRekey slot).vsm = s.vsm := (s.autoRekey_kept slot).only.vsm.resolve_left Bool.false_ne_true
@[simp] theorem State.autoRekey_mbx (s : State) (slot : Nat) : (s.autoRekey slot).mbx = s.mbx := (s.autoRekey_kept slot).only.mbx.resolve_left Bool.false_ne_true
@[simp] theorem State.autoRekey_bay (s : State) (slot : Nat) : (s.autoRekey slot).bay = s.bay := (s.autoRekey_kept slot).only.bay.resolve_left Bool.false_ne_true
@[simp] theorem State.autoRekey_props (s : State) (slot : Nat) : (s.autoRekey slot).props = s.props := (s.autoRekey_kept slot).only.props.resolve_left Bool.false_ne_true
@[simp] theorem State.autoRekey_ppc (s : State) (slot : Nat) : (s.autoRekey slot).ppc = s.ppc := (s.autoRekey_kept slot).only.ppc.resolve_left Bool.false_ne_true
@[simp] theorem State.autoRekey_sep (s : State) (slot : Nat) : (s.autoRekey slot).sep = s.sep := (s.autoRekey_kept slot).only.sep.resolve_left Bool.false_ne_true
@[simp] theorem State.autoRekey_pwr (s : State) (slot : Nat) : (s.autoRekey slot).pwr = s.pwr := (s.autoRekey_kept slot).only.pwr.resolve_left Bool.false_ne_true
@[simp] theorem State.autoRekey_lcu (s : State) (slot : Nat) : (s.autoRekey slot).lcu = s.lcu := (s.autoRekey_kept slot).only.lcu.resolve_left Bool.false_ne_true
@[simp] theorem State.autoRekey_tst (s : State) (slot : Nat) : (s.autoRekey slot).tst = s.tst := (s.autoRekey_kept slot).only.tst.resolve_left Bool.false_ne_true
@[simp] theorem State.autoRekey_mac (s : State) (slot : Nat) : (s.autoRekey slot).mac = s.mac := (s.autoRekey_kept slot).only.mac.resolve_left Bool.false_ne_true
@[simp] theorem State.autoRekey_now (s : State) (slot : Nat) : (s.autoRekey slot).now = s.now := (s.autoRekey_kept slot).same.now
@[simp] theorem State.autoRekey_part (s : State) (slot : Nat) : (s.autoRekey slot).part = s.part := (s.autoRekey_kept slot).same.part
@[simp] theorem State.autoRekey_slot (s : State) (slot : Nat) : (s.autoRekey slot).slot = s.slot := (s.autoRekey_kept slot).same.slot
@[simp] theorem State.autoRekey_uid (s : State) (slot : Nat) : (s.autoRekey slot).uid = s.uid := (s.autoRekey_kept slot).same.uid
@[simp] theorem State.autoRekey_pending (s : State) (slot : Nat) : (s.autoRekey slot).pending = s.pending := (s.autoRekey_kept slot).pending

theorem State.startRekey_kept (s : State) (slot : Nat) : Kept { xbr := true, free := true, moved := true, kvt := true, out := true, pmu := true, rfx := true } s (s.startRekey slot) :=
  Kept.startRekey _ (Kept.refl s) (hXbr := rfl) (hFree := rfl) (hMoved := rfl) (hKvt := rfl) (hOut := rfl) (hPmu := rfl) (hRfx := rfl)
@[simp] theorem State.startRekey_hce (s : State) (slot : Nat) : (s.startRekey slot).hce = s.hce := (s.startRekey_kept slot).only.hce.resolve_left Bool.false_ne_true
@[simp] theorem State.startRekey_rfu (s : State) (slot : Nat) : (s.startRekey slot).rfu = s.rfu := (s.startRekey_kept slot).only.rfu.resolve_left Bool.false_ne_true
@[simp] theorem State.startRekey_rge (s : State) (slot : Nat) : (s.startRekey slot).rge = s.rge := (s.startRekey_kept slot).only.rge.resolve_left Bool.false_ne_true
@[simp] theorem State.startRekey_snt (s : State) (slot : Nat) : (s.startRekey slot).snt = s.snt := (s.startRekey_kept slot).only.snt.resolve_left Bool.false_ne_true
@[simp] theorem State.startRekey_tk (s : State) (slot : Nat) : (s.startRekey slot).tk = s.tk := (s.startRekey_kept slot).only.tk.resolve_left Bool.false_ne_true
@[simp] theorem State.startRekey_vsm (s : State) (slot : Nat) : (s.startRekey slot).vsm = s.vsm := (s.startRekey_kept slot).only.vsm.resolve_left Bool.false_ne_true
@[simp] theorem State.startRekey_mbx (s : State) (slot : Nat) : (s.startRekey slot).mbx = s.mbx := (s.startRekey_kept slot).only.mbx.resolve_left Bool.false_ne_true
@[simp] theorem State.startRekey_bay (s : State) (slot : Nat) : (s.startRekey slot).bay = s.bay := (s.startRekey_kept slot).only.bay.resolve_left Bool.false_ne_true
@[simp] theorem State.startRekey_props (s : State) (slot : Nat) : (s.startRekey slot).props = s.props := (s.startRekey_kept slot).only.props.resolve_left Bool.false_ne_true
@[simp] theorem State.startRekey_ppc (s : State) (slot : Nat) : (s.startRekey slot).ppc = s.ppc := (s.startRekey_kept slot).only.ppc.resolve_left Bool.false_ne_true
@[simp] theorem State.startRekey_sep (s : State) (slot : Nat) : (s.startRekey slot).sep = s.sep := (s.startRekey_kept slot).only.sep.resolve_left Bool.false_ne_true
@[simp] theorem State.startRekey_pwr (s : State) (slot : Nat) : (s.startRekey slot).pwr = s.pwr := (s.startRekey_kept slot).only.pwr.resolve_left Bool.false_ne_true
@[simp] theorem State.startRekey_lcu (s : State) (slot : Nat) : (s.startRekey slot).lcu = s.lcu := (s.startRekey_kept slot).only.lcu.resolve_left Bool.false_ne_true
@[simp] theorem State.startRekey_tst (s : State) (slot : Nat) : (s.startRekey slot).tst = s.tst := (s.startRekey_kept slot).only.tst.resolve_left Bool.false_ne_true
@[simp] theorem State.startRekey_mac (s : State) (slot : Nat) : (s.startRekey slot).mac = s.mac := (s.startRekey_kept slot).only.mac.resolve_left Bool.false_ne_true
@[simp] theorem State.startRekey_now (s : State) (slot : Nat) : (s.startRekey slot).now = s.now := (s.startRekey_kept slot).same.now
@[simp] theorem State.startRekey_part (s : State) (slot : Nat) : (s.startRekey slot).part = s.part := (s.startRekey_kept slot).same.part
@[simp] theorem State.startRekey_slot (s : State) (slot : Nat) : (s.startRekey slot).slot = s.slot := (s.startRekey_kept slot).same.slot
@[simp] theorem State.startRekey_uid (s : State) (slot : Nat) : (s.startRekey slot).uid = s.uid := (s.startRekey_kept slot).same.uid
@[simp] theorem State.startRekey_pending (s : State) (slot : Nat) : (s.startRekey slot).pending = s.pending := (s.startRekey_kept slot).pending

theorem State.reserve_kept (s : State) (w : StripeWrite) : Kept { xbr := true, moved := true, kvt := true, out := true, pmu := true, rfx := true } s (s.reserve w) :=
  Kept.reserve _ (Kept.refl s) (hXbr := rfl) (hMoved := rfl) (hKvt := rfl) (hOut := rfl) (hPmu := rfl) (hRfx := rfl)
@[simp] theorem State.reserve_hce (s : State) (w : StripeWrite) : (s.reserve w).hce = s.hce := (s.reserve_kept w).only.hce.resolve_left Bool.false_ne_true
@[simp] theorem State.reserve_rfu (s : State) (w : StripeWrite) : (s.reserve w).rfu = s.rfu := (s.reserve_kept w).only.rfu.resolve_left Bool.false_ne_true
@[simp] theorem State.reserve_rge (s : State) (w : StripeWrite) : (s.reserve w).rge = s.rge := (s.reserve_kept w).only.rge.resolve_left Bool.false_ne_true
@[simp] theorem State.reserve_snt (s : State) (w : StripeWrite) : (s.reserve w).snt = s.snt := (s.reserve_kept w).only.snt.resolve_left Bool.false_ne_true
@[simp] theorem State.reserve_tk (s : State) (w : StripeWrite) : (s.reserve w).tk = s.tk := (s.reserve_kept w).only.tk.resolve_left Bool.false_ne_true
@[simp] theorem State.reserve_vsm (s : State) (w : StripeWrite) : (s.reserve w).vsm = s.vsm := (s.reserve_kept w).only.vsm.resolve_left Bool.false_ne_true
@[simp] theorem State.reserve_mbx (s : State) (w : StripeWrite) : (s.reserve w).mbx = s.mbx := (s.reserve_kept w).only.mbx.resolve_left Bool.false_ne_true
@[simp] theorem State.reserve_bay (s : State) (w : StripeWrite) : (s.reserve w).bay = s.bay := (s.reserve_kept w).only.bay.resolve_left Bool.false_ne_true
@[simp] theorem State.reserve_props (s : State) (w : StripeWrite) : (s.reserve w).props = s.props := (s.reserve_kept w).only.props.resolve_left Bool.false_ne_true
@[simp] theorem State.reserve_ppc (s : State) (w : StripeWrite) : (s.reserve w).ppc = s.ppc := (s.reserve_kept w).only.ppc.resolve_left Bool.false_ne_true
@[simp] theorem State.reserve_sep (s : State) (w : StripeWrite) : (s.reserve w).sep = s.sep := (s.reserve_kept w).only.sep.resolve_left Bool.false_ne_true
@[simp] theorem State.reserve_pwr (s : State) (w : StripeWrite) : (s.reserve w).pwr = s.pwr := (s.reserve_kept w).only.pwr.resolve_left Bool.false_ne_true
@[simp] theorem State.reserve_lcu (s : State) (w : StripeWrite) : (s.reserve w).lcu = s.lcu := (s.reserve_kept w).only.lcu.resolve_left Bool.false_ne_true
@[simp] theorem State.reserve_tst (s : State) (w : StripeWrite) : (s.reserve w).tst = s.tst := (s.reserve_kept w).only.tst.resolve_left Bool.false_ne_true
@[simp] theorem State.reserve_mac (s : State) (w : StripeWrite) : (s.reserve w).mac = s.mac := (s.reserve_kept w).only.mac.resolve_left Bool.false_ne_true
@[simp] theorem State.reserve_now (s : State) (w : StripeWrite) : (s.reserve w).now = s.now := (s.reserve_kept w).same.now
@[simp] theorem State.reserve_part (s : State) (w : StripeWrite) : (s.reserve w).part = s.part := (s.reserve_kept w).same.part
@[simp] theorem State.reserve_slot (s : State) (w : StripeWrite) : (s.reserve w).slot = s.slot := (s.reserve_kept w).same.slot
@[simp] theorem State.reserve_uid (s : State) (w : StripeWrite) : (s.reserve w).uid = s.uid := (s.reserve_kept w).same.uid
@[simp] theorem State.reserve_pending (s : State) (w : StripeWrite) : (s.reserve w).pending = s.pending := (s.reserve_kept w).pending
@[simp] theorem State.reserve_freeCtr (s : State) (w : StripeWrite) : (s.reserve w).freeCtr = s.freeCtr := (s.reserve_kept w).only.free.resolve_left Bool.false_ne_true

theorem State.freeEntries_kept (s : State) (p : WbEntry → Bool) : Kept { hce := true } s (s.freeEntries p) :=
  Kept.freeEntries _ (Kept.refl s) (hHce := rfl)
@[simp] theorem State.freeEntries_rfu (s : State) (p : WbEntry → Bool) : (s.freeEntries p).rfu = s.rfu := (s.freeEntries_kept p).only.rfu.resolve_left Bool.false_ne_true
@[simp] theorem State.freeEntries_rge (s : State) (p : WbEntry → Bool) : (s.freeEntries p).rge = s.rge := (s.freeEntries_kept p).only.rge.resolve_left Bool.false_ne_true
@[simp] theorem State.freeEntries_snt (s : State) (p : WbEntry → Bool) : (s.freeEntries p).snt = s.snt := (s.freeEntries_kept p).only.snt.resolve_left Bool.false_ne_true
@[simp] theorem State.freeEntries_rfx (s : State) (p : WbEntry → Bool) : (s.freeEntries p).rfx = s.rfx := (s.freeEntries_kept p).only.rfx.resolve_left Bool.false_ne_true
@[simp] theorem State.freeEntries_tk (s : State) (p : WbEntry → Bool) : (s.freeEntries p).tk = s.tk := (s.freeEntries_kept p).only.tk.resolve_left Bool.false_ne_true
@[simp] theorem State.freeEntries_vsm (s : State) (p : WbEntry → Bool) : (s.freeEntries p).vsm = s.vsm := (s.freeEntries_kept p).only.vsm.resolve_left Bool.false_ne_true
@[simp] theorem State.freeEntries_kvt (s : State) (p : WbEntry → Bool) : (s.freeEntries p).kvt = s.kvt := (s.freeEntries_kept p).only.kvt.resolve_left Bool.false_ne_true
@[simp] theorem State.freeEntries_mbx (s : State) (p : WbEntry → Bool) : (s.freeEntries p).mbx = s.mbx := (s.freeEntries_kept p).only.mbx.resolve_left Bool.false_ne_true
@[simp] theorem State.freeEntries_bay (s : State) (p : WbEntry → Bool) : (s.freeEntries p).bay = s.bay := (s.freeEntries_kept p).only.bay.resolve_left Bool.false_ne_true
@[simp] theorem State.freeEntries_props (s : State) (p : WbEntry → Bool) : (s.freeEntries p).props = s.props := (s.freeEntries_kept p).only.props.resolve_left Bool.false_ne_true
@[simp] theorem State.freeEntries_ppc (s : State) (p : WbEntry → Bool) : (s.freeEntries p).ppc = s.ppc := (s.freeEntries_kept p).only.ppc.resolve_left Bool.false_ne_true
@[simp] theorem State.freeEntries_xbr (s : State) (p : WbEntry → Bool) : (s.freeEntries p).xbr = s.xbr := (s.freeEntries_kept p).only.xbr.resolve_left Bool.false_ne_true
@[simp] theorem State.freeEntries_sep (s : State) (p : WbEntry → Bool) : (s.freeEntries p).sep = s.sep := (s.freeEntries_kept p).only.sep.resolve_left Bool.false_ne_true
@[simp] theorem State.freeEntries_pwr (s : State) (p : WbEntry → Bool) : (s.freeEntries p).pwr = s.pwr := (s.freeEntries_kept p).only.pwr.resolve_left Bool.false_ne_true
@[simp] theorem State.freeEntries_lcu (s : State) (p : WbEntry → Bool) : (s.freeEntries p).lcu = s.lcu := (s.freeEntries_kept p).only.lcu.resolve_left Bool.false_ne_true
@[simp] theorem State.freeEntries_pmu (s : State) (p : WbEntry → Bool) : (s.freeEntries p).pmu = s.pmu := (s.freeEntries_kept p).only.pmu.resolve_left Bool.false_ne_true
@[simp] theorem State.freeEntries_tst (s : State) (p : WbEntry → Bool) : (s.freeEntries p).tst = s.tst := (s.freeEntries_kept p).only.tst.resolve_left Bool.false_ne_true
@[simp] theorem State.freeEntries_mac (s : State) (p : WbEntry → Bool) : (s.freeEntries p).mac = s.mac := (s.freeEntries_kept p).only.mac.resolve_left Bool.false_ne_true
@[simp] theorem State.freeEntries_now (s : State) (p : WbEntry → Bool) : (s.freeEntries p).now = s.now := (s.freeEntries_kept p).same.now
@[simp] theorem State.freeEntries_part (s : State) (p : WbEntry → Bool) : (s.freeEntries p).part = s.part := (s.freeEntries_kept p).same.part
@[simp] theorem State.freeEntries_slot (s : State) (p : WbEntry → Bool) : (s.freeEntries p).slot = s.slot := (s.freeEntries_kept p).same.slot
@[simp] theorem State.freeEntries_uid (s : State) (p : WbEntry → Bool) : (s.freeEntries p).uid = s.uid := (s.freeEntries_kept p).same.uid
@[simp] theorem State.freeEntries_pending (s : State) (p : WbEntry → Bool) : (s.freeEntries p).pending = s.pending := (s.freeEntries_kept p).pending
@[simp] theorem State.freeEntries_out (s : State) (p : WbEntry → Bool) : (s.freeEntries p).out = s.out := (s.freeEntries_kept p).only.out.resolve_left Bool.false_ne_true
@[simp] theorem State.freeEntries_freeCtr (s : State) (p : WbEntry → Bool) : (s.freeEntries p).freeCtr = s.freeCtr := (s.freeEntries_kept p).only.free.resolve_left Bool.false_ne_true
@[simp] theorem State.freeEntries_reg (s : State) (p : WbEntry → Bool) (k : Nat) : (s.freeEntries p).reg k = s.reg k := ((s.freeEntries_kept p).only.regs).resolve_left Bool.false_ne_true k (fun h => absurd h Bool.false_ne_true)

theorem State.clearLost_kept (s : State) (v : Nat) (n : Nat) (b : Nat) : Kept { moved := true, out := true, xbr := true, pmu := true, rge := true, rfx := true } s (s.clearLost v n b) :=
  Kept.clearLost _ _ _ (Kept.refl s) (hMoved := rfl) (hOut := rfl) (hXbr := rfl) (hPmu := rfl) (hRge := rfl) (hRfx := rfl)
@[simp] theorem State.clearLost_hce (s : State) (v : Nat) (n : Nat) (b : Nat) : (s.clearLost v n b).hce = s.hce := (s.clearLost_kept v n b).only.hce.resolve_left Bool.false_ne_true
@[simp] theorem State.clearLost_rfu (s : State) (v : Nat) (n : Nat) (b : Nat) : (s.clearLost v n b).rfu = s.rfu := (s.clearLost_kept v n b).only.rfu.resolve_left Bool.false_ne_true
@[simp] theorem State.clearLost_snt (s : State) (v : Nat) (n : Nat) (b : Nat) : (s.clearLost v n b).snt = s.snt := (s.clearLost_kept v n b).only.snt.resolve_left Bool.false_ne_true
@[simp] theorem State.clearLost_tk (s : State) (v : Nat) (n : Nat) (b : Nat) : (s.clearLost v n b).tk = s.tk := (s.clearLost_kept v n b).only.tk.resolve_left Bool.false_ne_true
@[simp] theorem State.clearLost_vsm (s : State) (v : Nat) (n : Nat) (b : Nat) : (s.clearLost v n b).vsm = s.vsm := (s.clearLost_kept v n b).only.vsm.resolve_left Bool.false_ne_true
@[simp] theorem State.clearLost_kvt (s : State) (v : Nat) (n : Nat) (b : Nat) : (s.clearLost v n b).kvt = s.kvt := (s.clearLost_kept v n b).only.kvt.resolve_left Bool.false_ne_true
@[simp] theorem State.clearLost_mbx (s : State) (v : Nat) (n : Nat) (b : Nat) : (s.clearLost v n b).mbx = s.mbx := (s.clearLost_kept v n b).only.mbx.resolve_left Bool.false_ne_true
@[simp] theorem State.clearLost_bay (s : State) (v : Nat) (n : Nat) (b : Nat) : (s.clearLost v n b).bay = s.bay := (s.clearLost_kept v n b).only.bay.resolve_left Bool.false_ne_true
@[simp] theorem State.clearLost_props (s : State) (v : Nat) (n : Nat) (b : Nat) : (s.clearLost v n b).props = s.props := (s.clearLost_kept v n b).only.props.resolve_left Bool.false_ne_true
@[simp] theorem State.clearLost_ppc (s : State) (v : Nat) (n : Nat) (b : Nat) : (s.clearLost v n b).ppc = s.ppc := (s.clearLost_kept v n b).only.ppc.resolve_left Bool.false_ne_true
@[simp] theorem State.clearLost_sep (s : State) (v : Nat) (n : Nat) (b : Nat) : (s.clearLost v n b).sep = s.sep := (s.clearLost_kept v n b).only.sep.resolve_left Bool.false_ne_true
@[simp] theorem State.clearLost_pwr (s : State) (v : Nat) (n : Nat) (b : Nat) : (s.clearLost v n b).pwr = s.pwr := (s.clearLost_kept v n b).only.pwr.resolve_left Bool.false_ne_true
@[simp] theorem State.clearLost_lcu (s : State) (v : Nat) (n : Nat) (b : Nat) : (s.clearLost v n b).lcu = s.lcu := (s.clearLost_kept v n b).only.lcu.resolve_left Bool.false_ne_true
@[simp] theorem State.clearLost_tst (s : State) (v : Nat) (n : Nat) (b : Nat) : (s.clearLost v n b).tst = s.tst := (s.clearLost_kept v n b).only.tst.resolve_left Bool.false_ne_true
@[simp] theorem State.clearLost_mac (s : State) (v : Nat) (n : Nat) (b : Nat) : (s.clearLost v n b).mac = s.mac := (s.clearLost_kept v n b).only.mac.resolve_left Bool.false_ne_true
@[simp] theorem State.clearLost_now (s : State) (v : Nat) (n : Nat) (b : Nat) : (s.clearLost v n b).now = s.now := (s.clearLost_kept v n b).same.now
@[simp] theorem State.clearLost_part (s : State) (v : Nat) (n : Nat) (b : Nat) : (s.clearLost v n b).part = s.part := (s.clearLost_kept v n b).same.part
@[simp] theorem State.clearLost_slot (s : State) (v : Nat) (n : Nat) (b : Nat) : (s.clearLost v n b).slot = s.slot := (s.clearLost_kept v n b).same.slot
@[simp] theorem State.clearLost_uid (s : State) (v : Nat) (n : Nat) (b : Nat) : (s.clearLost v n b).uid = s.uid := (s.clearLost_kept v n b).same.uid
@[simp] theorem State.clearLost_pending (s : State) (v : Nat) (n : Nat) (b : Nat) : (s.clearLost v n b).pending = s.pending := (s.clearLost_kept v n b).pending
@[simp] theorem State.clearLost_freeCtr (s : State) (v : Nat) (n : Nat) (b : Nat) : (s.clearLost v n b).freeCtr = s.freeCtr := (s.clearLost_kept v n b).only.free.resolve_left Bool.false_ne_true

theorem State.setRegion_kept (s : State) (ring : Nat) (region : Nat) : Kept { out := true, xbr := true, pmu := true, moved := true, rfx := true, rge := true } s (s.setRegion ring region) :=
  Kept.setRegion _ _ (Kept.refl s) (hOut := rfl) (hXbr := rfl) (hPmu := rfl) (hMoved := rfl) (hRfx := rfl) (hRge := rfl)
@[simp] theorem State.setRegion_hce (s : State) (ring : Nat) (region : Nat) : (s.setRegion ring region).hce = s.hce := (s.setRegion_kept ring region).only.hce.resolve_left Bool.false_ne_true
@[simp] theorem State.setRegion_rfu (s : State) (ring : Nat) (region : Nat) : (s.setRegion ring region).rfu = s.rfu := (s.setRegion_kept ring region).only.rfu.resolve_left Bool.false_ne_true
@[simp] theorem State.setRegion_snt (s : State) (ring : Nat) (region : Nat) : (s.setRegion ring region).snt = s.snt := (s.setRegion_kept ring region).only.snt.resolve_left Bool.false_ne_true
@[simp] theorem State.setRegion_tk (s : State) (ring : Nat) (region : Nat) : (s.setRegion ring region).tk = s.tk := (s.setRegion_kept ring region).only.tk.resolve_left Bool.false_ne_true
@[simp] theorem State.setRegion_vsm (s : State) (ring : Nat) (region : Nat) : (s.setRegion ring region).vsm = s.vsm := (s.setRegion_kept ring region).only.vsm.resolve_left Bool.false_ne_true
@[simp] theorem State.setRegion_kvt (s : State) (ring : Nat) (region : Nat) : (s.setRegion ring region).kvt = s.kvt := (s.setRegion_kept ring region).only.kvt.resolve_left Bool.false_ne_true
@[simp] theorem State.setRegion_mbx (s : State) (ring : Nat) (region : Nat) : (s.setRegion ring region).mbx = s.mbx := (s.setRegion_kept ring region).only.mbx.resolve_left Bool.false_ne_true
@[simp] theorem State.setRegion_bay (s : State) (ring : Nat) (region : Nat) : (s.setRegion ring region).bay = s.bay := (s.setRegion_kept ring region).only.bay.resolve_left Bool.false_ne_true
@[simp] theorem State.setRegion_props (s : State) (ring : Nat) (region : Nat) : (s.setRegion ring region).props = s.props := (s.setRegion_kept ring region).only.props.resolve_left Bool.false_ne_true
@[simp] theorem State.setRegion_ppc (s : State) (ring : Nat) (region : Nat) : (s.setRegion ring region).ppc = s.ppc := (s.setRegion_kept ring region).only.ppc.resolve_left Bool.false_ne_true
@[simp] theorem State.setRegion_sep (s : State) (ring : Nat) (region : Nat) : (s.setRegion ring region).sep = s.sep := (s.setRegion_kept ring region).only.sep.resolve_left Bool.false_ne_true
@[simp] theorem State.setRegion_pwr (s : State) (ring : Nat) (region : Nat) : (s.setRegion ring region).pwr = s.pwr := (s.setRegion_kept ring region).only.pwr.resolve_left Bool.false_ne_true
@[simp] theorem State.setRegion_lcu (s : State) (ring : Nat) (region : Nat) : (s.setRegion ring region).lcu = s.lcu := (s.setRegion_kept ring region).only.lcu.resolve_left Bool.false_ne_true
@[simp] theorem State.setRegion_tst (s : State) (ring : Nat) (region : Nat) : (s.setRegion ring region).tst = s.tst := (s.setRegion_kept ring region).only.tst.resolve_left Bool.false_ne_true
@[simp] theorem State.setRegion_mac (s : State) (ring : Nat) (region : Nat) : (s.setRegion ring region).mac = s.mac := (s.setRegion_kept ring region).only.mac.resolve_left Bool.false_ne_true
@[simp] theorem State.setRegion_now (s : State) (ring : Nat) (region : Nat) : (s.setRegion ring region).now = s.now := (s.setRegion_kept ring region).same.now
@[simp] theorem State.setRegion_part (s : State) (ring : Nat) (region : Nat) : (s.setRegion ring region).part = s.part := (s.setRegion_kept ring region).same.part
@[simp] theorem State.setRegion_slot (s : State) (ring : Nat) (region : Nat) : (s.setRegion ring region).slot = s.slot := (s.setRegion_kept ring region).same.slot
@[simp] theorem State.setRegion_uid (s : State) (ring : Nat) (region : Nat) : (s.setRegion ring region).uid = s.uid := (s.setRegion_kept ring region).same.uid
@[simp] theorem State.setRegion_pending (s : State) (ring : Nat) (region : Nat) : (s.setRegion ring region).pending = s.pending := (s.setRegion_kept ring region).pending
@[simp] theorem State.setRegion_freeCtr (s : State) (ring : Nat) (region : Nat) : (s.setRegion ring region).freeCtr = s.freeCtr := (s.setRegion_kept ring region).only.free.resolve_left Bool.false_ne_true

theorem State.openIntent_kept (s : State) (ring : Nat) (kind : Nat) (flags : Nat) (stripe : Nat) (rowmask : Nat) (posmask : Nat) (version : Nat) : Kept { moved := true, out := true, xbr := true, pmu := true, rge := true, rfx := true } s (s.openIntent ring kind flags stripe rowmask posmask version).1 :=
  Kept.openIntent _ _ _ _ _ _ _ (Kept.refl s) (hMoved := rfl) (hOut := rfl) (hXbr := rfl) (hPmu := rfl) (hRge := rfl) (hRfx := rfl)
@[simp] theorem State.openIntent_hce (s : State) (ring : Nat) (kind : Nat) (flags : Nat) (stripe : Nat) (rowmask : Nat) (posmask : Nat) (version : Nat) : (s.openIntent ring kind flags stripe rowmask posmask version).1.hce = s.hce := (s.openIntent_kept ring kind flags stripe rowmask posmask version).only.hce.resolve_left Bool.false_ne_true
@[simp] theorem State.openIntent_rfu (s : State) (ring : Nat) (kind : Nat) (flags : Nat) (stripe : Nat) (rowmask : Nat) (posmask : Nat) (version : Nat) : (s.openIntent ring kind flags stripe rowmask posmask version).1.rfu = s.rfu := (s.openIntent_kept ring kind flags stripe rowmask posmask version).only.rfu.resolve_left Bool.false_ne_true
@[simp] theorem State.openIntent_snt (s : State) (ring : Nat) (kind : Nat) (flags : Nat) (stripe : Nat) (rowmask : Nat) (posmask : Nat) (version : Nat) : (s.openIntent ring kind flags stripe rowmask posmask version).1.snt = s.snt := (s.openIntent_kept ring kind flags stripe rowmask posmask version).only.snt.resolve_left Bool.false_ne_true
@[simp] theorem State.openIntent_tk (s : State) (ring : Nat) (kind : Nat) (flags : Nat) (stripe : Nat) (rowmask : Nat) (posmask : Nat) (version : Nat) : (s.openIntent ring kind flags stripe rowmask posmask version).1.tk = s.tk := (s.openIntent_kept ring kind flags stripe rowmask posmask version).only.tk.resolve_left Bool.false_ne_true
@[simp] theorem State.openIntent_vsm (s : State) (ring : Nat) (kind : Nat) (flags : Nat) (stripe : Nat) (rowmask : Nat) (posmask : Nat) (version : Nat) : (s.openIntent ring kind flags stripe rowmask posmask version).1.vsm = s.vsm := (s.openIntent_kept ring kind flags stripe rowmask posmask version).only.vsm.resolve_left Bool.false_ne_true
@[simp] theorem State.openIntent_kvt (s : State) (ring : Nat) (kind : Nat) (flags : Nat) (stripe : Nat) (rowmask : Nat) (posmask : Nat) (version : Nat) : (s.openIntent ring kind flags stripe rowmask posmask version).1.kvt = s.kvt := (s.openIntent_kept ring kind flags stripe rowmask posmask version).only.kvt.resolve_left Bool.false_ne_true
@[simp] theorem State.openIntent_mbx (s : State) (ring : Nat) (kind : Nat) (flags : Nat) (stripe : Nat) (rowmask : Nat) (posmask : Nat) (version : Nat) : (s.openIntent ring kind flags stripe rowmask posmask version).1.mbx = s.mbx := (s.openIntent_kept ring kind flags stripe rowmask posmask version).only.mbx.resolve_left Bool.false_ne_true
@[simp] theorem State.openIntent_bay (s : State) (ring : Nat) (kind : Nat) (flags : Nat) (stripe : Nat) (rowmask : Nat) (posmask : Nat) (version : Nat) : (s.openIntent ring kind flags stripe rowmask posmask version).1.bay = s.bay := (s.openIntent_kept ring kind flags stripe rowmask posmask version).only.bay.resolve_left Bool.false_ne_true
@[simp] theorem State.openIntent_props (s : State) (ring : Nat) (kind : Nat) (flags : Nat) (stripe : Nat) (rowmask : Nat) (posmask : Nat) (version : Nat) : (s.openIntent ring kind flags stripe rowmask posmask version).1.props = s.props := (s.openIntent_kept ring kind flags stripe rowmask posmask version).only.props.resolve_left Bool.false_ne_true
@[simp] theorem State.openIntent_ppc (s : State) (ring : Nat) (kind : Nat) (flags : Nat) (stripe : Nat) (rowmask : Nat) (posmask : Nat) (version : Nat) : (s.openIntent ring kind flags stripe rowmask posmask version).1.ppc = s.ppc := (s.openIntent_kept ring kind flags stripe rowmask posmask version).only.ppc.resolve_left Bool.false_ne_true
@[simp] theorem State.openIntent_sep (s : State) (ring : Nat) (kind : Nat) (flags : Nat) (stripe : Nat) (rowmask : Nat) (posmask : Nat) (version : Nat) : (s.openIntent ring kind flags stripe rowmask posmask version).1.sep = s.sep := (s.openIntent_kept ring kind flags stripe rowmask posmask version).only.sep.resolve_left Bool.false_ne_true
@[simp] theorem State.openIntent_pwr (s : State) (ring : Nat) (kind : Nat) (flags : Nat) (stripe : Nat) (rowmask : Nat) (posmask : Nat) (version : Nat) : (s.openIntent ring kind flags stripe rowmask posmask version).1.pwr = s.pwr := (s.openIntent_kept ring kind flags stripe rowmask posmask version).only.pwr.resolve_left Bool.false_ne_true
@[simp] theorem State.openIntent_lcu (s : State) (ring : Nat) (kind : Nat) (flags : Nat) (stripe : Nat) (rowmask : Nat) (posmask : Nat) (version : Nat) : (s.openIntent ring kind flags stripe rowmask posmask version).1.lcu = s.lcu := (s.openIntent_kept ring kind flags stripe rowmask posmask version).only.lcu.resolve_left Bool.false_ne_true
@[simp] theorem State.openIntent_tst (s : State) (ring : Nat) (kind : Nat) (flags : Nat) (stripe : Nat) (rowmask : Nat) (posmask : Nat) (version : Nat) : (s.openIntent ring kind flags stripe rowmask posmask version).1.tst = s.tst := (s.openIntent_kept ring kind flags stripe rowmask posmask version).only.tst.resolve_left Bool.false_ne_true
@[simp] theorem State.openIntent_mac (s : State) (ring : Nat) (kind : Nat) (flags : Nat) (stripe : Nat) (rowmask : Nat) (posmask : Nat) (version : Nat) : (s.openIntent ring kind flags stripe rowmask posmask version).1.mac = s.mac := (s.openIntent_kept ring kind flags stripe rowmask posmask version).only.mac.resolve_left Bool.false_ne_true
@[simp] theorem State.openIntent_now (s : State) (ring : Nat) (kind : Nat) (flags : Nat) (stripe : Nat) (rowmask : Nat) (posmask : Nat) (version : Nat) : (s.openIntent ring kind flags stripe rowmask posmask version).1.now = s.now := (s.openIntent_kept ring kind flags stripe rowmask posmask version).same.now
@[simp] theorem State.openIntent_part (s : State) (ring : Nat) (kind : Nat) (flags : Nat) (stripe : Nat) (rowmask : Nat) (posmask : Nat) (version : Nat) : (s.openIntent ring kind flags stripe rowmask posmask version).1.part = s.part := (s.openIntent_kept ring kind flags stripe rowmask posmask version).same.part
@[simp] theorem State.openIntent_slot (s : State) (ring : Nat) (kind : Nat) (flags : Nat) (stripe : Nat) (rowmask : Nat) (posmask : Nat) (version : Nat) : (s.openIntent ring kind flags stripe rowmask posmask version).1.slot = s.slot := (s.openIntent_kept ring kind flags stripe rowmask posmask version).same.slot
@[simp] theorem State.openIntent_uid (s : State) (ring : Nat) (kind : Nat) (flags : Nat) (stripe : Nat) (rowmask : Nat) (posmask : Nat) (version : Nat) : (s.openIntent ring kind flags stripe rowmask posmask version).1.uid = s.uid := (s.openIntent_kept ring kind flags stripe rowmask posmask version).same.uid
@[simp] theorem State.openIntent_pending (s : State) (ring : Nat) (kind : Nat) (flags : Nat) (stripe : Nat) (rowmask : Nat) (posmask : Nat) (version : Nat) : (s.openIntent ring kind flags stripe rowmask posmask version).1.pending = s.pending := (s.openIntent_kept ring kind flags stripe rowmask posmask version).pending
@[simp] theorem State.openIntent_freeCtr (s : State) (ring : Nat) (kind : Nat) (flags : Nat) (stripe : Nat) (rowmask : Nat) (posmask : Nat) (version : Nat) : (s.openIntent ring kind flags stripe rowmask posmask version).1.freeCtr = s.freeCtr := (s.openIntent_kept ring kind flags stripe rowmask posmask version).only.free.resolve_left Bool.false_ne_true

theorem State.putRow_kept (s : State) (r : Ring) (stripe : Nat) (row : Nat) (seq : Nat) (data : List Block) (poss : List Nat) : Kept { moved := true, bay := true, out := true, pmu := true, rge := true } s (s.putRow r stripe row seq data poss) :=
  Kept.putRow _ _ _ _ _ _ (Kept.refl s) (hMoved := rfl) (hBay := rfl) (hOut := rfl) (hPmu := rfl) (hRge := rfl)
@[simp] theorem State.putRow_hce (s : State) (r : Ring) (stripe : Nat) (row : Nat) (seq : Nat) (data : List Block) (poss : List Nat) : (s.putRow r stripe row seq data poss).hce = s.hce := (s.putRow_kept r stripe row seq data poss).only.hce.resolve_left Bool.false_ne_true
@[simp] theorem State.putRow_rfu (s : State) (r : Ring) (stripe : Nat) (row : Nat) (seq : Nat) (data : List Block) (poss : List Nat) : (s.putRow r stripe row seq data poss).rfu = s.rfu := (s.putRow_kept r stripe row seq data poss).only.rfu.resolve_left Bool.false_ne_true
@[simp] theorem State.putRow_snt (s : State) (r : Ring) (stripe : Nat) (row : Nat) (seq : Nat) (data : List Block) (poss : List Nat) : (s.putRow r stripe row seq data poss).snt = s.snt := (s.putRow_kept r stripe row seq data poss).only.snt.resolve_left Bool.false_ne_true
@[simp] theorem State.putRow_rfx (s : State) (r : Ring) (stripe : Nat) (row : Nat) (seq : Nat) (data : List Block) (poss : List Nat) : (s.putRow r stripe row seq data poss).rfx = s.rfx := (s.putRow_kept r stripe row seq data poss).only.rfx.resolve_left Bool.false_ne_true
@[simp] theorem State.putRow_tk (s : State) (r : Ring) (stripe : Nat) (row : Nat) (seq : Nat) (data : List Block) (poss : List Nat) : (s.putRow r stripe row seq data poss).tk = s.tk := (s.putRow_kept r stripe row seq data poss).only.tk.resolve_left Bool.false_ne_true
@[simp] theorem State.putRow_vsm (s : State) (r : Ring) (stripe : Nat) (row : Nat) (seq : Nat) (data : List Block) (poss : List Nat) : (s.putRow r stripe row seq data poss).vsm = s.vsm := (s.putRow_kept r stripe row seq data poss).only.vsm.resolve_left Bool.false_ne_true
@[simp] theorem State.putRow_kvt (s : State) (r : Ring) (stripe : Nat) (row : Nat) (seq : Nat) (data : List Block) (poss : List Nat) : (s.putRow r stripe row seq data poss).kvt = s.kvt := (s.putRow_kept r stripe row seq data poss).only.kvt.resolve_left Bool.false_ne_true
@[simp] theorem State.putRow_mbx (s : State) (r : Ring) (stripe : Nat) (row : Nat) (seq : Nat) (data : List Block) (poss : List Nat) : (s.putRow r stripe row seq data poss).mbx = s.mbx := (s.putRow_kept r stripe row seq data poss).only.mbx.resolve_left Bool.false_ne_true
@[simp] theorem State.putRow_props (s : State) (r : Ring) (stripe : Nat) (row : Nat) (seq : Nat) (data : List Block) (poss : List Nat) : (s.putRow r stripe row seq data poss).props = s.props := (s.putRow_kept r stripe row seq data poss).only.props.resolve_left Bool.false_ne_true
@[simp] theorem State.putRow_ppc (s : State) (r : Ring) (stripe : Nat) (row : Nat) (seq : Nat) (data : List Block) (poss : List Nat) : (s.putRow r stripe row seq data poss).ppc = s.ppc := (s.putRow_kept r stripe row seq data poss).only.ppc.resolve_left Bool.false_ne_true
@[simp] theorem State.putRow_xbr (s : State) (r : Ring) (stripe : Nat) (row : Nat) (seq : Nat) (data : List Block) (poss : List Nat) : (s.putRow r stripe row seq data poss).xbr = s.xbr := (s.putRow_kept r stripe row seq data poss).only.xbr.resolve_left Bool.false_ne_true
@[simp] theorem State.putRow_sep (s : State) (r : Ring) (stripe : Nat) (row : Nat) (seq : Nat) (data : List Block) (poss : List Nat) : (s.putRow r stripe row seq data poss).sep = s.sep := (s.putRow_kept r stripe row seq data poss).only.sep.resolve_left Bool.false_ne_true
@[simp] theorem State.putRow_pwr (s : State) (r : Ring) (stripe : Nat) (row : Nat) (seq : Nat) (data : List Block) (poss : List Nat) : (s.putRow r stripe row seq data poss).pwr = s.pwr := (s.putRow_kept r stripe row seq data poss).only.pwr.resolve_left Bool.false_ne_true
@[simp] theorem State.putRow_lcu (s : State) (r : Ring) (stripe : Nat) (row : Nat) (seq : Nat) (data : List Block) (poss : List Nat) : (s.putRow r stripe row seq data poss).lcu = s.lcu := (s.putRow_kept r stripe row seq data poss).only.lcu.resolve_left Bool.false_ne_true
@[simp] theorem State.putRow_tst (s : State) (r : Ring) (stripe : Nat) (row : Nat) (seq : Nat) (data : List Block) (poss : List Nat) : (s.putRow r stripe row seq data poss).tst = s.tst := (s.putRow_kept r stripe row seq data poss).only.tst.resolve_left Bool.false_ne_true
@[simp] theorem State.putRow_mac (s : State) (r : Ring) (stripe : Nat) (row : Nat) (seq : Nat) (data : List Block) (poss : List Nat) : (s.putRow r stripe row seq data poss).mac = s.mac := (s.putRow_kept r stripe row seq data poss).only.mac.resolve_left Bool.false_ne_true
@[simp] theorem State.putRow_now (s : State) (r : Ring) (stripe : Nat) (row : Nat) (seq : Nat) (data : List Block) (poss : List Nat) : (s.putRow r stripe row seq data poss).now = s.now := (s.putRow_kept r stripe row seq data poss).same.now
@[simp] theorem State.putRow_part (s : State) (r : Ring) (stripe : Nat) (row : Nat) (seq : Nat) (data : List Block) (poss : List Nat) : (s.putRow r stripe row seq data poss).part = s.part := (s.putRow_kept r stripe row seq data poss).same.part
@[simp] theorem State.putRow_slot (s : State) (r : Ring) (stripe : Nat) (row : Nat) (seq : Nat) (data : List Block) (poss : List Nat) : (s.putRow r stripe row seq data poss).slot = s.slot := (s.putRow_kept r stripe row seq data poss).same.slot
@[simp] theorem State.putRow_uid (s : State) (r : Ring) (stripe : Nat) (row : Nat) (seq : Nat) (data : List Block) (poss : List Nat) : (s.putRow r stripe row seq data poss).uid = s.uid := (s.putRow_kept r stripe row seq data poss).same.uid
@[simp] theorem State.putRow_pending (s : State) (r : Ring) (stripe : Nat) (row : Nat) (seq : Nat) (data : List Block) (poss : List Nat) : (s.putRow r stripe row seq data poss).pending = s.pending := (s.putRow_kept r stripe row seq data poss).pending
@[simp] theorem State.putRow_freeCtr (s : State) (r : Ring) (stripe : Nat) (row : Nat) (seq : Nat) (data : List Block) (poss : List Nat) : (s.putRow r stripe row seq data poss).freeCtr = s.freeCtr := (s.putRow_kept r stripe row seq data poss).only.free.resolve_left Bool.false_ne_true

theorem State.repairPut_kept (s : State) (r : Ring) (stripe : Nat) (row : Nat) (seq : Nat) (data : List Block) (bad : List Nat) : Kept { bay := true, out := true, rge := true, pmu := true, moved := true } s (s.repairPut r stripe row seq data bad) :=
  Kept.repairPut _ _ _ _ _ _ (Kept.refl s) (hBay := rfl) (hOut := rfl) (hRge := rfl) (hPmu := rfl) (hMoved := rfl)
@[simp] theorem State.repairPut_hce (s : State) (r : Ring) (stripe : Nat) (row : Nat) (seq : Nat) (data : List Block) (bad : List Nat) : (s.repairPut r stripe row seq data bad).hce = s.hce := (s.repairPut_kept r stripe row seq data bad).only.hce.resolve_left Bool.false_ne_true
@[simp] theorem State.repairPut_rfu (s : State) (r : Ring) (stripe : Nat) (row : Nat) (seq : Nat) (data : List Block) (bad : List Nat) : (s.repairPut r stripe row seq data bad).rfu = s.rfu := (s.repairPut_kept r stripe row seq data bad).only.rfu.resolve_left Bool.false_ne_true
@[simp] theorem State.repairPut_snt (s : State) (r : Ring) (stripe : Nat) (row : Nat) (seq : Nat) (data : List Block) (bad : List Nat) : (s.repairPut r stripe row seq data bad).snt = s.snt := (s.repairPut_kept r stripe row seq data bad).only.snt.resolve_left Bool.false_ne_true
@[simp] theorem State.repairPut_rfx (s : State) (r : Ring) (stripe : Nat) (row : Nat) (seq : Nat) (data : List Block) (bad : List Nat) : (s.repairPut r stripe row seq data bad).rfx = s.rfx := (s.repairPut_kept r stripe row seq data bad).only.rfx.resolve_left Bool.false_ne_true
@[simp] theorem State.repairPut_tk (s : State) (r : Ring) (stripe : Nat) (row : Nat) (seq : Nat) (data : List Block) (bad : List Nat) : (s.repairPut r stripe row seq data bad).tk = s.tk := (s.repairPut_kept r stripe row seq data bad).only.tk.resolve_left Bool.false_ne_true
@[simp] theorem State.repairPut_vsm (s : State) (r : Ring) (stripe : Nat) (row : Nat) (seq : Nat) (data : List Block) (bad : List Nat) : (s.repairPut r stripe row seq data bad).vsm = s.vsm := (s.repairPut_kept r stripe row seq data bad).only.vsm.resolve_left Bool.false_ne_true
@[simp] theorem State.repairPut_kvt (s : State) (r : Ring) (stripe : Nat) (row : Nat) (seq : Nat) (data : List Block) (bad : List Nat) : (s.repairPut r stripe row seq data bad).kvt = s.kvt := (s.repairPut_kept r stripe row seq data bad).only.kvt.resolve_left Bool.false_ne_true
@[simp] theorem State.repairPut_mbx (s : State) (r : Ring) (stripe : Nat) (row : Nat) (seq : Nat) (data : List Block) (bad : List Nat) : (s.repairPut r stripe row seq data bad).mbx = s.mbx := (s.repairPut_kept r stripe row seq data bad).only.mbx.resolve_left Bool.false_ne_true
@[simp] theorem State.repairPut_props (s : State) (r : Ring) (stripe : Nat) (row : Nat) (seq : Nat) (data : List Block) (bad : List Nat) : (s.repairPut r stripe row seq data bad).props = s.props := (s.repairPut_kept r stripe row seq data bad).only.props.resolve_left Bool.false_ne_true
@[simp] theorem State.repairPut_ppc (s : State) (r : Ring) (stripe : Nat) (row : Nat) (seq : Nat) (data : List Block) (bad : List Nat) : (s.repairPut r stripe row seq data bad).ppc = s.ppc := (s.repairPut_kept r stripe row seq data bad).only.ppc.resolve_left Bool.false_ne_true
@[simp] theorem State.repairPut_xbr (s : State) (r : Ring) (stripe : Nat) (row : Nat) (seq : Nat) (data : List Block) (bad : List Nat) : (s.repairPut r stripe row seq data bad).xbr = s.xbr := (s.repairPut_kept r stripe row seq data bad).only.xbr.resolve_left Bool.false_ne_true
@[simp] theorem State.repairPut_sep (s : State) (r : Ring) (stripe : Nat) (row : Nat) (seq : Nat) (data : List Block) (bad : List Nat) : (s.repairPut r stripe row seq data bad).sep = s.sep := (s.repairPut_kept r stripe row seq data bad).only.sep.resolve_left Bool.false_ne_true
@[simp] theorem State.repairPut_pwr (s : State) (r : Ring) (stripe : Nat) (row : Nat) (seq : Nat) (data : List Block) (bad : List Nat) : (s.repairPut r stripe row seq data bad).pwr = s.pwr := (s.repairPut_kept r stripe row seq data bad).only.pwr.resolve_left Bool.false_ne_true
@[simp] theorem State.repairPut_lcu (s : State) (r : Ring) (stripe : Nat) (row : Nat) (seq : Nat) (data : List Block) (bad : List Nat) : (s.repairPut r stripe row seq data bad).lcu = s.lcu := (s.repairPut_kept r stripe row seq data bad).only.lcu.resolve_left Bool.false_ne_true
@[simp] theorem State.repairPut_tst (s : State) (r : Ring) (stripe : Nat) (row : Nat) (seq : Nat) (data : List Block) (bad : List Nat) : (s.repairPut r stripe row seq data bad).tst = s.tst := (s.repairPut_kept r stripe row seq data bad).only.tst.resolve_left Bool.false_ne_true
@[simp] theorem State.repairPut_mac (s : State) (r : Ring) (stripe : Nat) (row : Nat) (seq : Nat) (data : List Block) (bad : List Nat) : (s.repairPut r stripe row seq data bad).mac = s.mac := (s.repairPut_kept r stripe row seq data bad).only.mac.resolve_left Bool.false_ne_true
@[simp] theorem State.repairPut_now (s : State) (r : Ring) (stripe : Nat) (row : Nat) (seq : Nat) (data : List Block) (bad : List Nat) : (s.repairPut r stripe row seq data bad).now = s.now := (s.repairPut_kept r stripe row seq data bad).same.now
@[simp] theorem State.repairPut_part (s : State) (r : Ring) (stripe : Nat) (row : Nat) (seq : Nat) (data : List Block) (bad : List Nat) : (s.repairPut r stripe row seq data bad).part = s.part := (s.repairPut_kept r stripe row seq data bad).same.part
@[simp] theorem State.repairPut_slot (s : State) (r : Ring) (stripe : Nat) (row : Nat) (seq : Nat) (data : List Block) (bad : List Nat) : (s.repairPut r stripe row seq data bad).slot = s.slot := (s.repairPut_kept r stripe row seq data bad).same.slot
@[simp] theorem State.repairPut_uid (s : State) (r : Ring) (stripe : Nat) (row : Nat) (seq : Nat) (data : List Block) (bad : List Nat) : (s.repairPut r stripe row seq data bad).uid = s.uid := (s.repairPut_kept r stripe row seq data bad).same.uid
@[simp] theorem State.repairPut_pending (s : State) (r : Ring) (stripe : Nat) (row : Nat) (seq : Nat) (data : List Block) (bad : List Nat) : (s.repairPut r stripe row seq data bad).pending = s.pending := (s.repairPut_kept r stripe row seq data bad).pending
@[simp] theorem State.repairPut_freeCtr (s : State) (r : Ring) (stripe : Nat) (row : Nat) (seq : Nat) (data : List Block) (bad : List Nat) : (s.repairPut r stripe row seq data bad).freeCtr = s.freeCtr := (s.repairPut_kept r stripe row seq data bad).only.free.resolve_left Bool.false_ne_true

theorem State.failGroup_kept (s : State) (gid : Nat) : Kept { rfu := true, xbr := true, moved := true, hce := true, out := true, pmu := true, rfx := true } s (s.failGroup gid) :=
  Kept.failGroup _ (Kept.refl s) (hRfu := rfl) (hXbr := rfl) (hMoved := rfl) (hHce := rfl) (hOut := rfl) (hPmu := rfl) (hRfx := rfl)
@[simp] theorem State.failGroup_rge (s : State) (gid : Nat) : (s.failGroup gid).rge = s.rge := (s.failGroup_kept gid).only.rge.resolve_left Bool.false_ne_true
@[simp] theorem State.failGroup_snt (s : State) (gid : Nat) : (s.failGroup gid).snt = s.snt := (s.failGroup_kept gid).only.snt.resolve_left Bool.false_ne_true
@[simp] theorem State.failGroup_tk (s : State) (gid : Nat) : (s.failGroup gid).tk = s.tk := (s.failGroup_kept gid).only.tk.resolve_left Bool.false_ne_true
@[simp] theorem State.failGroup_vsm (s : State) (gid : Nat) : (s.failGroup gid).vsm = s.vsm := (s.failGroup_kept gid).only.vsm.resolve_left Bool.false_ne_true
@[simp] theorem State.failGroup_kvt (s : State) (gid : Nat) : (s.failGroup gid).kvt = s.kvt := (s.failGroup_kept gid).only.kvt.resolve_left Bool.false_ne_true
@[simp] theorem State.failGroup_mbx (s : State) (gid : Nat) : (s.failGroup gid).mbx = s.mbx := (s.failGroup_kept gid).only.mbx.resolve_left Bool.false_ne_true
@[simp] theorem State.failGroup_bay (s : State) (gid : Nat) : (s.failGroup gid).bay = s.bay := (s.failGroup_kept gid).only.bay.resolve_left Bool.false_ne_true
@[simp] theorem State.failGroup_props (s : State) (gid : Nat) : (s.failGroup gid).props = s.props := (s.failGroup_kept gid).only.props.resolve_left Bool.false_ne_true
@[simp] theorem State.failGroup_ppc (s : State) (gid : Nat) : (s.failGroup gid).ppc = s.ppc := (s.failGroup_kept gid).only.ppc.resolve_left Bool.false_ne_true
@[simp] theorem State.failGroup_sep (s : State) (gid : Nat) : (s.failGroup gid).sep = s.sep := (s.failGroup_kept gid).only.sep.resolve_left Bool.false_ne_true
@[simp] theorem State.failGroup_pwr (s : State) (gid : Nat) : (s.failGroup gid).pwr = s.pwr := (s.failGroup_kept gid).only.pwr.resolve_left Bool.false_ne_true
@[simp] theorem State.failGroup_lcu (s : State) (gid : Nat) : (s.failGroup gid).lcu = s.lcu := (s.failGroup_kept gid).only.lcu.resolve_left Bool.false_ne_true
@[simp] theorem State.failGroup_tst (s : State) (gid : Nat) : (s.failGroup gid).tst = s.tst := (s.failGroup_kept gid).only.tst.resolve_left Bool.false_ne_true
@[simp] theorem State.failGroup_mac (s : State) (gid : Nat) : (s.failGroup gid).mac = s.mac := (s.failGroup_kept gid).only.mac.resolve_left Bool.false_ne_true
@[simp] theorem State.failGroup_now (s : State) (gid : Nat) : (s.failGroup gid).now = s.now := (s.failGroup_kept gid).same.now
@[simp] theorem State.failGroup_part (s : State) (gid : Nat) : (s.failGroup gid).part = s.part := (s.failGroup_kept gid).same.part
@[simp] theorem State.failGroup_slot (s : State) (gid : Nat) : (s.failGroup gid).slot = s.slot := (s.failGroup_kept gid).same.slot
@[simp] theorem State.failGroup_uid (s : State) (gid : Nat) : (s.failGroup gid).uid = s.uid := (s.failGroup_kept gid).same.uid
@[simp] theorem State.failGroup_pending (s : State) (gid : Nat) : (s.failGroup gid).pending = s.pending := (s.failGroup_kept gid).pending
@[simp] theorem State.failGroup_freeCtr (s : State) (gid : Nat) : (s.failGroup gid).freeCtr = s.freeCtr := (s.failGroup_kept gid).only.free.resolve_left Bool.false_ne_true

theorem State.groupReady_kept (s : State) (gid : Nat) : Kept { rfu := true, xbr := true, moved := true, hce := true, out := true, pmu := true, rfx := true } s (s.groupReady gid) :=
  Kept.groupReady _ (Kept.refl s) (hRfu := rfl) (hXbr := rfl) (hMoved := rfl) (hHce := rfl) (hOut := rfl) (hPmu := rfl) (hRfx := rfl)
@[simp] theorem State.groupReady_rge (s : State) (gid : Nat) : (s.groupReady gid).rge = s.rge := (s.groupReady_kept gid).only.rge.resolve_left Bool.false_ne_true
@[simp] theorem State.groupReady_snt (s : State) (gid : Nat) : (s.groupReady gid).snt = s.snt := (s.groupReady_kept gid).only.snt.resolve_left Bool.false_ne_true
@[simp] theorem State.groupReady_tk (s : State) (gid : Nat) : (s.groupReady gid).tk = s.tk := (s.groupReady_kept gid).only.tk.resolve_left Bool.false_ne_true
@[simp] theorem State.groupReady_vsm (s : State) (gid : Nat) : (s.groupReady gid).vsm = s.vsm := (s.groupReady_kept gid).only.vsm.resolve_left Bool.false_ne_true
@[simp] theorem State.groupReady_kvt (s : State) (gid : Nat) : (s.groupReady gid).kvt = s.kvt := (s.groupReady_kept gid).only.kvt.resolve_left Bool.false_ne_true
@[simp] theorem State.groupReady_mbx (s : State) (gid : Nat) : (s.groupReady gid).mbx = s.mbx := (s.groupReady_kept gid).only.mbx.resolve_left Bool.false_ne_true
@[simp] theorem State.groupReady_bay (s : State) (gid : Nat) : (s.groupReady gid).bay = s.bay := (s.groupReady_kept gid).only.bay.resolve_left Bool.false_ne_true
@[simp] theorem State.groupReady_props (s : State) (gid : Nat) : (s.groupReady gid).props = s.props := (s.groupReady_kept gid).only.props.resolve_left Bool.false_ne_true
@[simp] theorem State.groupReady_ppc (s : State) (gid : Nat) : (s.groupReady gid).ppc = s.ppc := (s.groupReady_kept gid).only.ppc.resolve_left Bool.false_ne_true
@[simp] theorem State.groupReady_sep (s : State) (gid : Nat) : (s.groupReady gid).sep = s.sep := (s.groupReady_kept gid).only.sep.resolve_left Bool.false_ne_true
@[simp] theorem State.groupReady_pwr (s : State) (gid : Nat) : (s.groupReady gid).pwr = s.pwr := (s.groupReady_kept gid).only.pwr.resolve_left Bool.false_ne_true
@[simp] theorem State.groupReady_lcu (s : State) (gid : Nat) : (s.groupReady gid).lcu = s.lcu := (s.groupReady_kept gid).only.lcu.resolve_left Bool.false_ne_true
@[simp] theorem State.groupReady_tst (s : State) (gid : Nat) : (s.groupReady gid).tst = s.tst := (s.groupReady_kept gid).only.tst.resolve_left Bool.false_ne_true
@[simp] theorem State.groupReady_mac (s : State) (gid : Nat) : (s.groupReady gid).mac = s.mac := (s.groupReady_kept gid).only.mac.resolve_left Bool.false_ne_true
@[simp] theorem State.groupReady_now (s : State) (gid : Nat) : (s.groupReady gid).now = s.now := (s.groupReady_kept gid).same.now
@[simp] theorem State.groupReady_part (s : State) (gid : Nat) : (s.groupReady gid).part = s.part := (s.groupReady_kept gid).same.part
@[simp] theorem State.groupReady_slot (s : State) (gid : Nat) : (s.groupReady gid).slot = s.slot := (s.groupReady_kept gid).same.slot
@[simp] theorem State.groupReady_uid (s : State) (gid : Nat) : (s.groupReady gid).uid = s.uid := (s.groupReady_kept gid).same.uid
@[simp] theorem State.groupReady_pending (s : State) (gid : Nat) : (s.groupReady gid).pending = s.pending := (s.groupReady_kept gid).pending
@[simp] theorem State.groupReady_freeCtr (s : State) (gid : Nat) : (s.groupReady gid).freeCtr = s.freeCtr := (s.groupReady_kept gid).only.free.resolve_left Bool.false_ne_true

theorem State.memberFailed_kept (s : State) (ring : Nat) (j : Nat) : Kept { rfu := true, xbr := true, bay := true, moved := true, free := true, pmu := true, rge := true, hce := true, kvt := true, out := true, pwr := true, rfx := true } s (s.memberFailed ring j) :=
  Kept.memberFailed _ _ (Kept.refl s) (hRfu := rfl) (hXbr := rfl) (hBay := rfl) (hMoved := rfl) (hFree := rfl) (hPmu := rfl) (hRge := rfl) (hHce := rfl) (hKvt := rfl) (hOut := rfl) (hPwr := rfl) (hRfx := rfl)
@[simp] theorem State.memberFailed_snt (s : State) (ring : Nat) (j : Nat) : (s.memberFailed ring j).snt = s.snt := (s.memberFailed_kept ring j).only.snt.resolve_left Bool.false_ne_true
@[simp] theorem State.memberFailed_tk (s : State) (ring : Nat) (j : Nat) : (s.memberFailed ring j).tk = s.tk := (s.memberFailed_kept ring j).only.tk.resolve_left Bool.false_ne_true
@[simp] theorem State.memberFailed_vsm (s : State) (ring : Nat) (j : Nat) : (s.memberFailed ring j).vsm = s.vsm := (s.memberFailed_kept ring j).only.vsm.resolve_left Bool.false_ne_true
@[simp] theorem State.memberFailed_mbx (s : State) (ring : Nat) (j : Nat) : (s.memberFailed ring j).mbx = s.mbx := (s.memberFailed_kept ring j).only.mbx.resolve_left Bool.false_ne_true
@[simp] theorem State.memberFailed_props (s : State) (ring : Nat) (j : Nat) : (s.memberFailed ring j).props = s.props := (s.memberFailed_kept ring j).only.props.resolve_left Bool.false_ne_true
@[simp] theorem State.memberFailed_ppc (s : State) (ring : Nat) (j : Nat) : (s.memberFailed ring j).ppc = s.ppc := (s.memberFailed_kept ring j).only.ppc.resolve_left Bool.false_ne_true
@[simp] theorem State.memberFailed_sep (s : State) (ring : Nat) (j : Nat) : (s.memberFailed ring j).sep = s.sep := (s.memberFailed_kept ring j).only.sep.resolve_left Bool.false_ne_true
@[simp] theorem State.memberFailed_lcu (s : State) (ring : Nat) (j : Nat) : (s.memberFailed ring j).lcu = s.lcu := (s.memberFailed_kept ring j).only.lcu.resolve_left Bool.false_ne_true
@[simp] theorem State.memberFailed_tst (s : State) (ring : Nat) (j : Nat) : (s.memberFailed ring j).tst = s.tst := (s.memberFailed_kept ring j).only.tst.resolve_left Bool.false_ne_true
@[simp] theorem State.memberFailed_mac (s : State) (ring : Nat) (j : Nat) : (s.memberFailed ring j).mac = s.mac := (s.memberFailed_kept ring j).only.mac.resolve_left Bool.false_ne_true
@[simp] theorem State.memberFailed_now (s : State) (ring : Nat) (j : Nat) : (s.memberFailed ring j).now = s.now := (s.memberFailed_kept ring j).same.now
@[simp] theorem State.memberFailed_part (s : State) (ring : Nat) (j : Nat) : (s.memberFailed ring j).part = s.part := (s.memberFailed_kept ring j).same.part
@[simp] theorem State.memberFailed_slot (s : State) (ring : Nat) (j : Nat) : (s.memberFailed ring j).slot = s.slot := (s.memberFailed_kept ring j).same.slot
@[simp] theorem State.memberFailed_uid (s : State) (ring : Nat) (j : Nat) : (s.memberFailed ring j).uid = s.uid := (s.memberFailed_kept ring j).same.uid
@[simp] theorem State.memberFailed_pending (s : State) (ring : Nat) (j : Nat) : (s.memberFailed ring j).pending = s.pending := (s.memberFailed_kept ring j).pending

theorem State.membersChanged_kept (s : State) (ring : Nat) (displacedChanged : Bool) : Kept { rfu := true, xbr := true, moved := true, free := true, bay := true, pmu := true, rge := true, hce := true, kvt := true, out := true, pwr := true, rfx := true } s (s.membersChanged ring displacedChanged) :=
  Kept.membersChanged _ _ (Kept.refl s) (hRfu := rfl) (hXbr := rfl) (hMoved := rfl) (hFree := rfl) (hBay := rfl) (hPmu := rfl) (hRge := rfl) (hHce := rfl) (hKvt := rfl) (hOut := rfl) (hPwr := rfl) (hRfx := rfl)
@[simp] theorem State.membersChanged_snt (s : State) (ring : Nat) (displacedChanged : Bool) : (s.membersChanged ring displacedChanged).snt = s.snt := (s.membersChanged_kept ring displacedChanged).only.snt.resolve_left Bool.false_ne_true
@[simp] theorem State.membersChanged_tk (s : State) (ring : Nat) (displacedChanged : Bool) : (s.membersChanged ring displacedChanged).tk = s.tk := (s.membersChanged_kept ring displacedChanged).only.tk.resolve_left Bool.false_ne_true
@[simp] theorem State.membersChanged_vsm (s : State) (ring : Nat) (displacedChanged : Bool) : (s.membersChanged ring displacedChanged).vsm = s.vsm := (s.membersChanged_kept ring displacedChanged).only.vsm.resolve_left Bool.false_ne_true
@[simp] theorem State.membersChanged_mbx (s : State) (ring : Nat) (displacedChanged : Bool) : (s.membersChanged ring displacedChanged).mbx = s.mbx := (s.membersChanged_kept ring displacedChanged).only.mbx.resolve_left Bool.false_ne_true
@[simp] theorem State.membersChanged_props (s : State) (ring : Nat) (displacedChanged : Bool) : (s.membersChanged ring displacedChanged).props = s.props := (s.membersChanged_kept ring displacedChanged).only.props.resolve_left Bool.false_ne_true
@[simp] theorem State.membersChanged_ppc (s : State) (ring : Nat) (displacedChanged : Bool) : (s.membersChanged ring displacedChanged).ppc = s.ppc := (s.membersChanged_kept ring displacedChanged).only.ppc.resolve_left Bool.false_ne_true
@[simp] theorem State.membersChanged_sep (s : State) (ring : Nat) (displacedChanged : Bool) : (s.membersChanged ring displacedChanged).sep = s.sep := (s.membersChanged_kept ring displacedChanged).only.sep.resolve_left Bool.false_ne_true
@[simp] theorem State.membersChanged_lcu (s : State) (ring : Nat) (displacedChanged : Bool) : (s.membersChanged ring displacedChanged).lcu = s.lcu := (s.membersChanged_kept ring displacedChanged).only.lcu.resolve_left Bool.false_ne_true
@[simp] theorem State.membersChanged_tst (s : State) (ring : Nat) (displacedChanged : Bool) : (s.membersChanged ring displacedChanged).tst = s.tst := (s.membersChanged_kept ring displacedChanged).only.tst.resolve_left Bool.false_ne_true
@[simp] theorem State.membersChanged_mac (s : State) (ring : Nat) (displacedChanged : Bool) : (s.membersChanged ring displacedChanged).mac = s.mac := (s.membersChanged_kept ring displacedChanged).only.mac.resolve_left Bool.false_ne_true
@[simp] theorem State.membersChanged_now (s : State) (ring : Nat) (displacedChanged : Bool) : (s.membersChanged ring displacedChanged).now = s.now := (s.membersChanged_kept ring displacedChanged).same.now
@[simp] theorem State.membersChanged_part (s : State) (ring : Nat) (displacedChanged : Bool) : (s.membersChanged ring displacedChanged).part = s.part := (s.membersChanged_kept ring displacedChanged).same.part
@[simp] theorem State.membersChanged_slot (s : State) (ring : Nat) (displacedChanged : Bool) : (s.membersChanged ring displacedChanged).slot = s.slot := (s.membersChanged_kept ring displacedChanged).same.slot
@[simp] theorem State.membersChanged_uid (s : State) (ring : Nat) (displacedChanged : Bool) : (s.membersChanged ring displacedChanged).uid = s.uid := (s.membersChanged_kept ring displacedChanged).same.uid
@[simp] theorem State.membersChanged_pending (s : State) (ring : Nat) (displacedChanged : Bool) : (s.membersChanged ring displacedChanged).pending = s.pending := (s.membersChanged_kept ring displacedChanged).pending

theorem State.acceptReplacement_kept (s : State) (ring : Nat) (j : Nat) (bay : Nat) : Kept { rfu := true, xbr := true, moved := true, bay := true, free := true, pmu := true, rge := true, hce := true, kvt := true, out := true, pwr := true, rfx := true } s (s.acceptReplacement ring j bay) :=
  Kept.acceptReplacement _ _ _ (Kept.refl s) (hRfu := rfl) (hXbr := rfl) (hMoved := rfl) (hBay := rfl) (hFree := rfl) (hPmu := rfl) (hRge := rfl) (hHce := rfl) (hKvt := rfl) (hOut := rfl) (hPwr := rfl) (hRfx := rfl)
@[simp] theorem State.acceptReplacement_snt (s : State) (ring : Nat) (j : Nat) (bay : Nat) : (s.acceptReplacement ring j bay).snt = s.snt := (s.acceptReplacement_kept ring j bay).only.snt.resolve_left Bool.false_ne_true
@[simp] theorem State.acceptReplacement_tk (s : State) (ring : Nat) (j : Nat) (bay : Nat) : (s.acceptReplacement ring j bay).tk = s.tk := (s.acceptReplacement_kept ring j bay).only.tk.resolve_left Bool.false_ne_true
@[simp] theorem State.acceptReplacement_vsm (s : State) (ring : Nat) (j : Nat) (bay : Nat) : (s.acceptReplacement ring j bay).vsm = s.vsm := (s.acceptReplacement_kept ring j bay).only.vsm.resolve_left Bool.false_ne_true
@[simp] theorem State.acceptReplacement_mbx (s : State) (ring : Nat) (j : Nat) (bay : Nat) : (s.acceptReplacement ring j bay).mbx = s.mbx := (s.acceptReplacement_kept ring j bay).only.mbx.resolve_left Bool.false_ne_true
@[simp] theorem State.acceptReplacement_props (s : State) (ring : Nat) (j : Nat) (bay : Nat) : (s.acceptReplacement ring j bay).props = s.props := (s.acceptReplacement_kept ring j bay).only.props.resolve_left Bool.false_ne_true
@[simp] theorem State.acceptReplacement_ppc (s : State) (ring : Nat) (j : Nat) (bay : Nat) : (s.acceptReplacement ring j bay).ppc = s.ppc := (s.acceptReplacement_kept ring j bay).only.ppc.resolve_left Bool.false_ne_true
@[simp] theorem State.acceptReplacement_sep (s : State) (ring : Nat) (j : Nat) (bay : Nat) : (s.acceptReplacement ring j bay).sep = s.sep := (s.acceptReplacement_kept ring j bay).only.sep.resolve_left Bool.false_ne_true
@[simp] theorem State.acceptReplacement_lcu (s : State) (ring : Nat) (j : Nat) (bay : Nat) : (s.acceptReplacement ring j bay).lcu = s.lcu := (s.acceptReplacement_kept ring j bay).only.lcu.resolve_left Bool.false_ne_true
@[simp] theorem State.acceptReplacement_tst (s : State) (ring : Nat) (j : Nat) (bay : Nat) : (s.acceptReplacement ring j bay).tst = s.tst := (s.acceptReplacement_kept ring j bay).only.tst.resolve_left Bool.false_ne_true
@[simp] theorem State.acceptReplacement_mac (s : State) (ring : Nat) (j : Nat) (bay : Nat) : (s.acceptReplacement ring j bay).mac = s.mac := (s.acceptReplacement_kept ring j bay).only.mac.resolve_left Bool.false_ne_true
@[simp] theorem State.acceptReplacement_now (s : State) (ring : Nat) (j : Nat) (bay : Nat) : (s.acceptReplacement ring j bay).now = s.now := (s.acceptReplacement_kept ring j bay).same.now
@[simp] theorem State.acceptReplacement_part (s : State) (ring : Nat) (j : Nat) (bay : Nat) : (s.acceptReplacement ring j bay).part = s.part := (s.acceptReplacement_kept ring j bay).same.part
@[simp] theorem State.acceptReplacement_slot (s : State) (ring : Nat) (j : Nat) (bay : Nat) : (s.acceptReplacement ring j bay).slot = s.slot := (s.acceptReplacement_kept ring j bay).same.slot
@[simp] theorem State.acceptReplacement_uid (s : State) (ring : Nat) (j : Nat) (bay : Nat) : (s.acceptReplacement ring j bay).uid = s.uid := (s.acceptReplacement_kept ring j bay).same.uid
@[simp] theorem State.acceptReplacement_pending (s : State) (ring : Nat) (j : Nat) (bay : Nat) : (s.acceptReplacement ring j bay).pending = s.pending := (s.acceptReplacement_kept ring j bay).pending

theorem State.reask_kept (s : State) : Kept { rfu := true, xbr := true, moved := true, free := true, bay := true, pmu := true, rge := true, hce := true, kvt := true, out := true, pwr := true, rfx := true } s s.reask :=
  Kept.reask (Kept.refl s) (hRfu := rfl) (hXbr := rfl) (hMoved := rfl) (hFree := rfl) (hBay := rfl) (hPmu := rfl) (hRge := rfl) (hHce := rfl) (hKvt := rfl) (hOut := rfl) (hPwr := rfl) (hRfx := rfl)
@[simp] theorem State.reask_snt (s : State) : s.reask.snt = s.snt := (s.reask_kept).only.snt.resolve_left Bool.false_ne_true
@[simp] theorem State.reask_tk (s : State) : s.reask.tk = s.tk := (s.reask_kept).only.tk.resolve_left Bool.false_ne_true
@[simp] theorem State.reask_vsm (s : State) : s.reask.vsm = s.vsm := (s.reask_kept).only.vsm.resolve_left Bool.false_ne_true
@[simp] theorem State.reask_mbx (s : State) : s.reask.mbx = s.mbx := (s.reask_kept).only.mbx.resolve_left Bool.false_ne_true
@[simp] theorem State.reask_props (s : State) : s.reask.props = s.props := (s.reask_kept).only.props.resolve_left Bool.false_ne_true
@[simp] theorem State.reask_ppc (s : State) : s.reask.ppc = s.ppc := (s.reask_kept).only.ppc.resolve_left Bool.false_ne_true
@[simp] theorem State.reask_sep (s : State) : s.reask.sep = s.sep := (s.reask_kept).only.sep.resolve_left Bool.false_ne_true
@[simp] theorem State.reask_lcu (s : State) : s.reask.lcu = s.lcu := (s.reask_kept).only.lcu.resolve_left Bool.false_ne_true
@[simp] theorem State.reask_tst (s : State) : s.reask.tst = s.tst := (s.reask_kept).only.tst.resolve_left Bool.false_ne_true
@[simp] theorem State.reask_mac (s : State) : s.reask.mac = s.mac := (s.reask_kept).only.mac.resolve_left Bool.false_ne_true
@[simp] theorem State.reask_now (s : State) : s.reask.now = s.now := (s.reask_kept).same.now
@[simp] theorem State.reask_part (s : State) : s.reask.part = s.part := (s.reask_kept).same.part
@[simp] theorem State.reask_slot (s : State) : s.reask.slot = s.slot := (s.reask_kept).same.slot
@[simp] theorem State.reask_uid (s : State) : s.reask.uid = s.uid := (s.reask_kept).same.uid
@[simp] theorem State.reask_pending (s : State) : s.reask.pending = s.pending := (s.reask_kept).pending

theorem State.driveFailed_kept (s : State) (bay : Nat) : Kept { pwr := true, rfu := true, xbr := true, bay := true, moved := true, free := true, hce := true, kvt := true, out := true, pmu := true, rge := true, rfx := true } s (s.driveFailed bay) :=
  Kept.driveFailed _ (Kept.refl s) (hPwr := rfl) (hRfu := rfl) (hXbr := rfl) (hBay := rfl) (hMoved := rfl) (hFree := rfl) (hHce := rfl) (hKvt := rfl) (hOut := rfl) (hPmu := rfl) (hRge := rfl) (hRfx := rfl)
@[simp] theorem State.driveFailed_snt (s : State) (bay : Nat) : (s.driveFailed bay).snt = s.snt := (s.driveFailed_kept bay).only.snt.resolve_left Bool.false_ne_true
@[simp] theorem State.driveFailed_tk (s : State) (bay : Nat) : (s.driveFailed bay).tk = s.tk := (s.driveFailed_kept bay).only.tk.resolve_left Bool.false_ne_true
@[simp] theorem State.driveFailed_vsm (s : State) (bay : Nat) : (s.driveFailed bay).vsm = s.vsm := (s.driveFailed_kept bay).only.vsm.resolve_left Bool.false_ne_true
@[simp] theorem State.driveFailed_mbx (s : State) (bay : Nat) : (s.driveFailed bay).mbx = s.mbx := (s.driveFailed_kept bay).only.mbx.resolve_left Bool.false_ne_true
@[simp] theorem State.driveFailed_props (s : State) (bay : Nat) : (s.driveFailed bay).props = s.props := (s.driveFailed_kept bay).only.props.resolve_left Bool.false_ne_true
@[simp] theorem State.driveFailed_ppc (s : State) (bay : Nat) : (s.driveFailed bay).ppc = s.ppc := (s.driveFailed_kept bay).only.ppc.resolve_left Bool.false_ne_true
@[simp] theorem State.driveFailed_sep (s : State) (bay : Nat) : (s.driveFailed bay).sep = s.sep := (s.driveFailed_kept bay).only.sep.resolve_left Bool.false_ne_true
@[simp] theorem State.driveFailed_lcu (s : State) (bay : Nat) : (s.driveFailed bay).lcu = s.lcu := (s.driveFailed_kept bay).only.lcu.resolve_left Bool.false_ne_true
@[simp] theorem State.driveFailed_tst (s : State) (bay : Nat) : (s.driveFailed bay).tst = s.tst := (s.driveFailed_kept bay).only.tst.resolve_left Bool.false_ne_true
@[simp] theorem State.driveFailed_mac (s : State) (bay : Nat) : (s.driveFailed bay).mac = s.mac := (s.driveFailed_kept bay).only.mac.resolve_left Bool.false_ne_true
@[simp] theorem State.driveFailed_now (s : State) (bay : Nat) : (s.driveFailed bay).now = s.now := (s.driveFailed_kept bay).same.now
@[simp] theorem State.driveFailed_part (s : State) (bay : Nat) : (s.driveFailed bay).part = s.part := (s.driveFailed_kept bay).same.part
@[simp] theorem State.driveFailed_slot (s : State) (bay : Nat) : (s.driveFailed bay).slot = s.slot := (s.driveFailed_kept bay).same.slot
@[simp] theorem State.driveFailed_uid (s : State) (bay : Nat) : (s.driveFailed bay).uid = s.uid := (s.driveFailed_kept bay).same.uid
@[simp] theorem State.driveFailed_pending (s : State) (bay : Nat) : (s.driveFailed bay).pending = s.pending := (s.driveFailed_kept bay).pending

theorem State.sendLsa_kept (s : State) : Kept { tk := true, xbr := true, hce := true, out := true, rfx := true } s s.sendLsa :=
  Kept.sendLsa (Kept.refl s) (hTk := rfl) (hXbr := rfl) (hHce := rfl) (hOut := rfl) (hRfx := rfl)
@[simp] theorem State.sendLsa_rfu (s : State) : s.sendLsa.rfu = s.rfu := (s.sendLsa_kept).only.rfu.resolve_left Bool.false_ne_true
@[simp] theorem State.sendLsa_rge (s : State) : s.sendLsa.rge = s.rge := (s.sendLsa_kept).only.rge.resolve_left Bool.false_ne_true
@[simp] theorem State.sendLsa_snt (s : State) : s.sendLsa.snt = s.snt := (s.sendLsa_kept).only.snt.resolve_left Bool.false_ne_true
@[simp] theorem State.sendLsa_vsm (s : State) : s.sendLsa.vsm = s.vsm := (s.sendLsa_kept).only.vsm.resolve_left Bool.false_ne_true
@[simp] theorem State.sendLsa_kvt (s : State) : s.sendLsa.kvt = s.kvt := (s.sendLsa_kept).only.kvt.resolve_left Bool.false_ne_true
@[simp] theorem State.sendLsa_mbx (s : State) : s.sendLsa.mbx = s.mbx := (s.sendLsa_kept).only.mbx.resolve_left Bool.false_ne_true
@[simp] theorem State.sendLsa_bay (s : State) : s.sendLsa.bay = s.bay := (s.sendLsa_kept).only.bay.resolve_left Bool.false_ne_true
@[simp] theorem State.sendLsa_props (s : State) : s.sendLsa.props = s.props := (s.sendLsa_kept).only.props.resolve_left Bool.false_ne_true
@[simp] theorem State.sendLsa_ppc (s : State) : s.sendLsa.ppc = s.ppc := (s.sendLsa_kept).only.ppc.resolve_left Bool.false_ne_true
@[simp] theorem State.sendLsa_sep (s : State) : s.sendLsa.sep = s.sep := (s.sendLsa_kept).only.sep.resolve_left Bool.false_ne_true
@[simp] theorem State.sendLsa_pwr (s : State) : s.sendLsa.pwr = s.pwr := (s.sendLsa_kept).only.pwr.resolve_left Bool.false_ne_true
@[simp] theorem State.sendLsa_lcu (s : State) : s.sendLsa.lcu = s.lcu := (s.sendLsa_kept).only.lcu.resolve_left Bool.false_ne_true
@[simp] theorem State.sendLsa_pmu (s : State) : s.sendLsa.pmu = s.pmu := (s.sendLsa_kept).only.pmu.resolve_left Bool.false_ne_true
@[simp] theorem State.sendLsa_tst (s : State) : s.sendLsa.tst = s.tst := (s.sendLsa_kept).only.tst.resolve_left Bool.false_ne_true
@[simp] theorem State.sendLsa_mac (s : State) : s.sendLsa.mac = s.mac := (s.sendLsa_kept).only.mac.resolve_left Bool.false_ne_true
@[simp] theorem State.sendLsa_now (s : State) : s.sendLsa.now = s.now := (s.sendLsa_kept).same.now
@[simp] theorem State.sendLsa_part (s : State) : s.sendLsa.part = s.part := (s.sendLsa_kept).same.part
@[simp] theorem State.sendLsa_slot (s : State) : s.sendLsa.slot = s.slot := (s.sendLsa_kept).same.slot
@[simp] theorem State.sendLsa_uid (s : State) : s.sendLsa.uid = s.uid := (s.sendLsa_kept).same.uid
@[simp] theorem State.sendLsa_pending (s : State) : s.sendLsa.pending = s.pending := (s.sendLsa_kept).pending
@[simp] theorem State.sendLsa_freeCtr (s : State) : s.sendLsa.freeCtr = s.freeCtr := (s.sendLsa_kept).only.free.resolve_left Bool.false_ne_true
@[simp] theorem State.sendLsa_reg (s : State)  (k : Nat) : s.sendLsa.reg k = s.reg k := ((s.sendLsa_kept).only.regs).resolve_left Bool.false_ne_true k (fun h => absurd h Bool.false_ne_true)

theorem State.reroute_kept (s : State) : Kept { hce := true, tk := true, out := true, xbr := true, rfx := true } s s.reroute :=
  Kept.reroute (Kept.refl s) (hHce := rfl) (hTk := rfl) (hOut := rfl) (hXbr := rfl) (hRfx := rfl)
@[simp] theorem State.reroute_rfu (s : State) : s.reroute.rfu = s.rfu := (s.reroute_kept).only.rfu.resolve_left Bool.false_ne_true
@[simp] theorem State.reroute_rge (s : State) : s.reroute.rge = s.rge := (s.reroute_kept).only.rge.resolve_left Bool.false_ne_true
@[simp] theorem State.reroute_snt (s : State) : s.reroute.snt = s.snt := (s.reroute_kept).only.snt.resolve_left Bool.false_ne_true
@[simp] theorem State.reroute_vsm (s : State) : s.reroute.vsm = s.vsm := (s.reroute_kept).only.vsm.resolve_left Bool.false_ne_true
@[simp] theorem State.reroute_kvt (s : State) : s.reroute.kvt = s.kvt := (s.reroute_kept).only.kvt.resolve_left Bool.false_ne_true
@[simp] theorem State.reroute_mbx (s : State) : s.reroute.mbx = s.mbx := (s.reroute_kept).only.mbx.resolve_left Bool.false_ne_true
@[simp] theorem State.reroute_bay (s : State) : s.reroute.bay = s.bay := (s.reroute_kept).only.bay.resolve_left Bool.false_ne_true
@[simp] theorem State.reroute_props (s : State) : s.reroute.props = s.props := (s.reroute_kept).only.props.resolve_left Bool.false_ne_true
@[simp] theorem State.reroute_ppc (s : State) : s.reroute.ppc = s.ppc := (s.reroute_kept).only.ppc.resolve_left Bool.false_ne_true
@[simp] theorem State.reroute_sep (s : State) : s.reroute.sep = s.sep := (s.reroute_kept).only.sep.resolve_left Bool.false_ne_true
@[simp] theorem State.reroute_pwr (s : State) : s.reroute.pwr = s.pwr := (s.reroute_kept).only.pwr.resolve_left Bool.false_ne_true
@[simp] theorem State.reroute_lcu (s : State) : s.reroute.lcu = s.lcu := (s.reroute_kept).only.lcu.resolve_left Bool.false_ne_true
@[simp] theorem State.reroute_pmu (s : State) : s.reroute.pmu = s.pmu := (s.reroute_kept).only.pmu.resolve_left Bool.false_ne_true
@[simp] theorem State.reroute_tst (s : State) : s.reroute.tst = s.tst := (s.reroute_kept).only.tst.resolve_left Bool.false_ne_true
@[simp] theorem State.reroute_mac (s : State) : s.reroute.mac = s.mac := (s.reroute_kept).only.mac.resolve_left Bool.false_ne_true
@[simp] theorem State.reroute_now (s : State) : s.reroute.now = s.now := (s.reroute_kept).same.now
@[simp] theorem State.reroute_part (s : State) : s.reroute.part = s.part := (s.reroute_kept).same.part
@[simp] theorem State.reroute_slot (s : State) : s.reroute.slot = s.slot := (s.reroute_kept).same.slot
@[simp] theorem State.reroute_uid (s : State) : s.reroute.uid = s.uid := (s.reroute_kept).same.uid
@[simp] theorem State.reroute_pending (s : State) : s.reroute.pending = s.pending := (s.reroute_kept).pending
@[simp] theorem State.reroute_freeCtr (s : State) : s.reroute.freeCtr = s.freeCtr := (s.reroute_kept).only.free.resolve_left Bool.false_ne_true
@[simp] theorem State.reroute_reg (s : State)  (k : Nat) : s.reroute.reg k = s.reg k := ((s.reroute_kept).only.regs).resolve_left Bool.false_ne_true k (fun h => absurd h Bool.false_ne_true)

theorem State.flushEgress_kept (s : State) (p : Nat) : Kept { xbr := true, moved := true } s (s.flushEgress p) :=
  Kept.flushEgress _ (Kept.refl s) (hXbr := rfl) (hMoved := rfl)
@[simp] theorem State.flushEgress_hce (s : State) (p : Nat) : (s.flushEgress p).hce = s.hce := (s.flushEgress_kept p).only.hce.resolve_left Bool.false_ne_true
@[simp] theorem State.flushEgress_rfu (s : State) (p : Nat) : (s.flushEgress p).rfu = s.rfu := (s.flushEgress_kept p).only.rfu.resolve_left Bool.false_ne_true
@[simp] theorem State.flushEgress_rge (s : State) (p : Nat) : (s.flushEgress p).rge = s.rge := (s.flushEgress_kept p).only.rge.resolve_left Bool.false_ne_true
@[simp] theorem State.flushEgress_snt (s : State) (p : Nat) : (s.flushEgress p).snt = s.snt := (s.flushEgress_kept p).only.snt.resolve_left Bool.false_ne_true
@[simp] theorem State.flushEgress_rfx (s : State) (p : Nat) : (s.flushEgress p).rfx = s.rfx := (s.flushEgress_kept p).only.rfx.resolve_left Bool.false_ne_true
@[simp] theorem State.flushEgress_tk (s : State) (p : Nat) : (s.flushEgress p).tk = s.tk := (s.flushEgress_kept p).only.tk.resolve_left Bool.false_ne_true
@[simp] theorem State.flushEgress_vsm (s : State) (p : Nat) : (s.flushEgress p).vsm = s.vsm := (s.flushEgress_kept p).only.vsm.resolve_left Bool.false_ne_true
@[simp] theorem State.flushEgress_kvt (s : State) (p : Nat) : (s.flushEgress p).kvt = s.kvt := (s.flushEgress_kept p).only.kvt.resolve_left Bool.false_ne_true
@[simp] theorem State.flushEgress_mbx (s : State) (p : Nat) : (s.flushEgress p).mbx = s.mbx := (s.flushEgress_kept p).only.mbx.resolve_left Bool.false_ne_true
@[simp] theorem State.flushEgress_bay (s : State) (p : Nat) : (s.flushEgress p).bay = s.bay := (s.flushEgress_kept p).only.bay.resolve_left Bool.false_ne_true
@[simp] theorem State.flushEgress_props (s : State) (p : Nat) : (s.flushEgress p).props = s.props := (s.flushEgress_kept p).only.props.resolve_left Bool.false_ne_true
@[simp] theorem State.flushEgress_ppc (s : State) (p : Nat) : (s.flushEgress p).ppc = s.ppc := (s.flushEgress_kept p).only.ppc.resolve_left Bool.false_ne_true
@[simp] theorem State.flushEgress_sep (s : State) (p : Nat) : (s.flushEgress p).sep = s.sep := (s.flushEgress_kept p).only.sep.resolve_left Bool.false_ne_true
@[simp] theorem State.flushEgress_pwr (s : State) (p : Nat) : (s.flushEgress p).pwr = s.pwr := (s.flushEgress_kept p).only.pwr.resolve_left Bool.false_ne_true
@[simp] theorem State.flushEgress_lcu (s : State) (p : Nat) : (s.flushEgress p).lcu = s.lcu := (s.flushEgress_kept p).only.lcu.resolve_left Bool.false_ne_true
@[simp] theorem State.flushEgress_pmu (s : State) (p : Nat) : (s.flushEgress p).pmu = s.pmu := (s.flushEgress_kept p).only.pmu.resolve_left Bool.false_ne_true
@[simp] theorem State.flushEgress_tst (s : State) (p : Nat) : (s.flushEgress p).tst = s.tst := (s.flushEgress_kept p).only.tst.resolve_left Bool.false_ne_true
@[simp] theorem State.flushEgress_mac (s : State) (p : Nat) : (s.flushEgress p).mac = s.mac := (s.flushEgress_kept p).only.mac.resolve_left Bool.false_ne_true
@[simp] theorem State.flushEgress_now (s : State) (p : Nat) : (s.flushEgress p).now = s.now := (s.flushEgress_kept p).same.now
@[simp] theorem State.flushEgress_part (s : State) (p : Nat) : (s.flushEgress p).part = s.part := (s.flushEgress_kept p).same.part
@[simp] theorem State.flushEgress_slot (s : State) (p : Nat) : (s.flushEgress p).slot = s.slot := (s.flushEgress_kept p).same.slot
@[simp] theorem State.flushEgress_uid (s : State) (p : Nat) : (s.flushEgress p).uid = s.uid := (s.flushEgress_kept p).same.uid
@[simp] theorem State.flushEgress_pending (s : State) (p : Nat) : (s.flushEgress p).pending = s.pending := (s.flushEgress_kept p).pending
@[simp] theorem State.flushEgress_out (s : State) (p : Nat) : (s.flushEgress p).out = s.out := (s.flushEgress_kept p).only.out.resolve_left Bool.false_ne_true
@[simp] theorem State.flushEgress_freeCtr (s : State) (p : Nat) : (s.flushEgress p).freeCtr = s.freeCtr := (s.flushEgress_kept p).only.free.resolve_left Bool.false_ne_true

theorem State.moveIdent_kept (s : State) (i : Nat) (port : Nat) : Kept { hce := true, tk := true, out := true, pwr := true } s (s.moveIdent i port) :=
  Kept.moveIdent _ _ (Kept.refl s) (hHce := rfl) (hTk := rfl) (hOut := rfl) (hPwr := rfl)
@[simp] theorem State.moveIdent_rfu (s : State) (i : Nat) (port : Nat) : (s.moveIdent i port).rfu = s.rfu := (s.moveIdent_kept i port).only.rfu.resolve_left Bool.false_ne_true
@[simp] theorem State.moveIdent_rge (s : State) (i : Nat) (port : Nat) : (s.moveIdent i port).rge = s.rge := (s.moveIdent_kept i port).only.rge.resolve_left Bool.false_ne_true
@[simp] theorem State.moveIdent_snt (s : State) (i : Nat) (port : Nat) : (s.moveIdent i port).snt = s.snt := (s.moveIdent_kept i port).only.snt.resolve_left Bool.false_ne_true
@[simp] theorem State.moveIdent_rfx (s : State) (i : Nat) (port : Nat) : (s.moveIdent i port).rfx = s.rfx := (s.moveIdent_kept i port).only.rfx.resolve_left Bool.false_ne_true
@[simp] theorem State.moveIdent_vsm (s : State) (i : Nat) (port : Nat) : (s.moveIdent i port).vsm = s.vsm := (s.moveIdent_kept i port).only.vsm.resolve_left Bool.false_ne_true
@[simp] theorem State.moveIdent_kvt (s : State) (i : Nat) (port : Nat) : (s.moveIdent i port).kvt = s.kvt := (s.moveIdent_kept i port).only.kvt.resolve_left Bool.false_ne_true
@[simp] theorem State.moveIdent_mbx (s : State) (i : Nat) (port : Nat) : (s.moveIdent i port).mbx = s.mbx := (s.moveIdent_kept i port).only.mbx.resolve_left Bool.false_ne_true
@[simp] theorem State.moveIdent_bay (s : State) (i : Nat) (port : Nat) : (s.moveIdent i port).bay = s.bay := (s.moveIdent_kept i port).only.bay.resolve_left Bool.false_ne_true
@[simp] theorem State.moveIdent_props (s : State) (i : Nat) (port : Nat) : (s.moveIdent i port).props = s.props := (s.moveIdent_kept i port).only.props.resolve_left Bool.false_ne_true
@[simp] theorem State.moveIdent_ppc (s : State) (i : Nat) (port : Nat) : (s.moveIdent i port).ppc = s.ppc := (s.moveIdent_kept i port).only.ppc.resolve_left Bool.false_ne_true
@[simp] theorem State.moveIdent_xbr (s : State) (i : Nat) (port : Nat) : (s.moveIdent i port).xbr = s.xbr := (s.moveIdent_kept i port).only.xbr.resolve_left Bool.false_ne_true
@[simp] theorem State.moveIdent_sep (s : State) (i : Nat) (port : Nat) : (s.moveIdent i port).sep = s.sep := (s.moveIdent_kept i port).only.sep.resolve_left Bool.false_ne_true
@[simp] theorem State.moveIdent_lcu (s : State) (i : Nat) (port : Nat) : (s.moveIdent i port).lcu = s.lcu := (s.moveIdent_kept i port).only.lcu.resolve_left Bool.false_ne_true
@[simp] theorem State.moveIdent_pmu (s : State) (i : Nat) (port : Nat) : (s.moveIdent i port).pmu = s.pmu := (s.moveIdent_kept i port).only.pmu.resolve_left Bool.false_ne_true
@[simp] theorem State.moveIdent_tst (s : State) (i : Nat) (port : Nat) : (s.moveIdent i port).tst = s.tst := (s.moveIdent_kept i port).only.tst.resolve_left Bool.false_ne_true
@[simp] theorem State.moveIdent_mac (s : State) (i : Nat) (port : Nat) : (s.moveIdent i port).mac = s.mac := (s.moveIdent_kept i port).only.mac.resolve_left Bool.false_ne_true
@[simp] theorem State.moveIdent_now (s : State) (i : Nat) (port : Nat) : (s.moveIdent i port).now = s.now := (s.moveIdent_kept i port).same.now
@[simp] theorem State.moveIdent_part (s : State) (i : Nat) (port : Nat) : (s.moveIdent i port).part = s.part := (s.moveIdent_kept i port).same.part
@[simp] theorem State.moveIdent_slot (s : State) (i : Nat) (port : Nat) : (s.moveIdent i port).slot = s.slot := (s.moveIdent_kept i port).same.slot
@[simp] theorem State.moveIdent_uid (s : State) (i : Nat) (port : Nat) : (s.moveIdent i port).uid = s.uid := (s.moveIdent_kept i port).same.uid
@[simp] theorem State.moveIdent_pending (s : State) (i : Nat) (port : Nat) : (s.moveIdent i port).pending = s.pending := (s.moveIdent_kept i port).pending
@[simp] theorem State.moveIdent_freeCtr (s : State) (i : Nat) (port : Nat) : (s.moveIdent i port).freeCtr = s.freeCtr := (s.moveIdent_kept i port).only.free.resolve_left Bool.false_ne_true
@[simp] theorem State.moveIdent_reg (s : State) (i : Nat) (port : Nat) (k : Nat) : (s.moveIdent i port).reg k = s.reg k := ((s.moveIdent_kept i port).only.regs).resolve_left Bool.false_ne_true k (fun h => absurd h Bool.false_ne_true)

theorem State.startClaim_kept (s : State) : Kept { out := true, xbr := true, free := true, rfx := true } s s.startClaim :=
  Kept.startClaim (Kept.refl s) (hOut := rfl) (hXbr := rfl) (hFree := rfl) (hRfx := rfl)
@[simp] theorem State.startClaim_hce (s : State) : s.startClaim.hce = s.hce := (s.startClaim_kept).only.hce.resolve_left Bool.false_ne_true
@[simp] theorem State.startClaim_rfu (s : State) : s.startClaim.rfu = s.rfu := (s.startClaim_kept).only.rfu.resolve_left Bool.false_ne_true
@[simp] theorem State.startClaim_rge (s : State) : s.startClaim.rge = s.rge := (s.startClaim_kept).only.rge.resolve_left Bool.false_ne_true
@[simp] theorem State.startClaim_snt (s : State) : s.startClaim.snt = s.snt := (s.startClaim_kept).only.snt.resolve_left Bool.false_ne_true
@[simp] theorem State.startClaim_tk (s : State) : s.startClaim.tk = s.tk := (s.startClaim_kept).only.tk.resolve_left Bool.false_ne_true
@[simp] theorem State.startClaim_vsm (s : State) : s.startClaim.vsm = s.vsm := (s.startClaim_kept).only.vsm.resolve_left Bool.false_ne_true
@[simp] theorem State.startClaim_kvt (s : State) : s.startClaim.kvt = s.kvt := (s.startClaim_kept).only.kvt.resolve_left Bool.false_ne_true
@[simp] theorem State.startClaim_mbx (s : State) : s.startClaim.mbx = s.mbx := (s.startClaim_kept).only.mbx.resolve_left Bool.false_ne_true
@[simp] theorem State.startClaim_bay (s : State) : s.startClaim.bay = s.bay := (s.startClaim_kept).only.bay.resolve_left Bool.false_ne_true
@[simp] theorem State.startClaim_props (s : State) : s.startClaim.props = s.props := (s.startClaim_kept).only.props.resolve_left Bool.false_ne_true
@[simp] theorem State.startClaim_ppc (s : State) : s.startClaim.ppc = s.ppc := (s.startClaim_kept).only.ppc.resolve_left Bool.false_ne_true
@[simp] theorem State.startClaim_sep (s : State) : s.startClaim.sep = s.sep := (s.startClaim_kept).only.sep.resolve_left Bool.false_ne_true
@[simp] theorem State.startClaim_pwr (s : State) : s.startClaim.pwr = s.pwr := (s.startClaim_kept).only.pwr.resolve_left Bool.false_ne_true
@[simp] theorem State.startClaim_lcu (s : State) : s.startClaim.lcu = s.lcu := (s.startClaim_kept).only.lcu.resolve_left Bool.false_ne_true
@[simp] theorem State.startClaim_pmu (s : State) : s.startClaim.pmu = s.pmu := (s.startClaim_kept).only.pmu.resolve_left Bool.false_ne_true
@[simp] theorem State.startClaim_tst (s : State) : s.startClaim.tst = s.tst := (s.startClaim_kept).only.tst.resolve_left Bool.false_ne_true
@[simp] theorem State.startClaim_mac (s : State) : s.startClaim.mac = s.mac := (s.startClaim_kept).only.mac.resolve_left Bool.false_ne_true
@[simp] theorem State.startClaim_now (s : State) : s.startClaim.now = s.now := (s.startClaim_kept).same.now
@[simp] theorem State.startClaim_part (s : State) : s.startClaim.part = s.part := (s.startClaim_kept).same.part
@[simp] theorem State.startClaim_slot (s : State) : s.startClaim.slot = s.slot := (s.startClaim_kept).same.slot
@[simp] theorem State.startClaim_uid (s : State) : s.startClaim.uid = s.uid := (s.startClaim_kept).same.uid
@[simp] theorem State.startClaim_pending (s : State) : s.startClaim.pending = s.pending := (s.startClaim_kept).pending
@[simp] theorem State.startClaim_reg (s : State)  (k : Nat) : s.startClaim.reg k = s.reg k := ((s.startClaim_kept).only.regs).resolve_left Bool.false_ne_true k (fun h => absurd h Bool.false_ne_true)

theorem State.claimFail_kept (s : State) : Kept { out := true, xbr := true, free := true, rfx := true } s s.claimFail :=
  Kept.claimFail (Kept.refl s) (hOut := rfl) (hXbr := rfl) (hFree := rfl) (hRfx := rfl)
@[simp] theorem State.claimFail_hce (s : State) : s.claimFail.hce = s.hce := (s.claimFail_kept).only.hce.resolve_left Bool.false_ne_true
@[simp] theorem State.claimFail_rfu (s : State) : s.claimFail.rfu = s.rfu := (s.claimFail_kept).only.rfu.resolve_left Bool.false_ne_true
@[simp] theorem State.claimFail_rge (s : State) : s.claimFail.rge = s.rge := (s.claimFail_kept).only.rge.resolve_left Bool.false_ne_true
@[simp] theorem State.claimFail_snt (s : State) : s.claimFail.snt = s.snt := (s.claimFail_kept).only.snt.resolve_left Bool.false_ne_true
@[simp] theorem State.claimFail_tk (s : State) : s.claimFail.tk = s.tk := (s.claimFail_kept).only.tk.resolve_left Bool.false_ne_true
@[simp] theorem State.claimFail_vsm (s : State) : s.claimFail.vsm = s.vsm := (s.claimFail_kept).only.vsm.resolve_left Bool.false_ne_true
@[simp] theorem State.claimFail_kvt (s : State) : s.claimFail.kvt = s.kvt := (s.claimFail_kept).only.kvt.resolve_left Bool.false_ne_true
@[simp] theorem State.claimFail_mbx (s : State) : s.claimFail.mbx = s.mbx := (s.claimFail_kept).only.mbx.resolve_left Bool.false_ne_true
@[simp] theorem State.claimFail_bay (s : State) : s.claimFail.bay = s.bay := (s.claimFail_kept).only.bay.resolve_left Bool.false_ne_true
@[simp] theorem State.claimFail_props (s : State) : s.claimFail.props = s.props := (s.claimFail_kept).only.props.resolve_left Bool.false_ne_true
@[simp] theorem State.claimFail_ppc (s : State) : s.claimFail.ppc = s.ppc := (s.claimFail_kept).only.ppc.resolve_left Bool.false_ne_true
@[simp] theorem State.claimFail_sep (s : State) : s.claimFail.sep = s.sep := (s.claimFail_kept).only.sep.resolve_left Bool.false_ne_true
@[simp] theorem State.claimFail_pwr (s : State) : s.claimFail.pwr = s.pwr := (s.claimFail_kept).only.pwr.resolve_left Bool.false_ne_true
@[simp] theorem State.claimFail_lcu (s : State) : s.claimFail.lcu = s.lcu := (s.claimFail_kept).only.lcu.resolve_left Bool.false_ne_true
@[simp] theorem State.claimFail_pmu (s : State) : s.claimFail.pmu = s.pmu := (s.claimFail_kept).only.pmu.resolve_left Bool.false_ne_true
@[simp] theorem State.claimFail_tst (s : State) : s.claimFail.tst = s.tst := (s.claimFail_kept).only.tst.resolve_left Bool.false_ne_true
@[simp] theorem State.claimFail_mac (s : State) : s.claimFail.mac = s.mac := (s.claimFail_kept).only.mac.resolve_left Bool.false_ne_true
@[simp] theorem State.claimFail_now (s : State) : s.claimFail.now = s.now := (s.claimFail_kept).same.now
@[simp] theorem State.claimFail_part (s : State) : s.claimFail.part = s.part := (s.claimFail_kept).same.part
@[simp] theorem State.claimFail_slot (s : State) : s.claimFail.slot = s.slot := (s.claimFail_kept).same.slot
@[simp] theorem State.claimFail_uid (s : State) : s.claimFail.uid = s.uid := (s.claimFail_kept).same.uid
@[simp] theorem State.claimFail_pending (s : State) : s.claimFail.pending = s.pending := (s.claimFail_kept).pending
@[simp] theorem State.claimFail_reg (s : State)  (k : Nat) : s.claimFail.reg k = s.reg k := ((s.claimFail_kept).only.regs).resolve_left Bool.false_ne_true k (fun h => absurd h Bool.false_ne_true)

theorem State.ownerFrame_kept (s : State) (ring : Nat) (fid : Nat) (epoch : Nat) : Kept { out := true, xbr := true } s (s.ownerFrame ring fid epoch) :=
  Kept.ownerFrame _ _ _ (Kept.refl s) (hOut := rfl) (hXbr := rfl)
@[simp] theorem State.ownerFrame_hce (s : State) (ring : Nat) (fid : Nat) (epoch : Nat) : (s.ownerFrame ring fid epoch).hce = s.hce := (s.ownerFrame_kept ring fid epoch).only.hce.resolve_left Bool.false_ne_true
@[simp] theorem State.ownerFrame_rfu (s : State) (ring : Nat) (fid : Nat) (epoch : Nat) : (s.ownerFrame ring fid epoch).rfu = s.rfu := (s.ownerFrame_kept ring fid epoch).only.rfu.resolve_left Bool.false_ne_true
@[simp] theorem State.ownerFrame_rge (s : State) (ring : Nat) (fid : Nat) (epoch : Nat) : (s.ownerFrame ring fid epoch).rge = s.rge := (s.ownerFrame_kept ring fid epoch).only.rge.resolve_left Bool.false_ne_true
@[simp] theorem State.ownerFrame_snt (s : State) (ring : Nat) (fid : Nat) (epoch : Nat) : (s.ownerFrame ring fid epoch).snt = s.snt := (s.ownerFrame_kept ring fid epoch).only.snt.resolve_left Bool.false_ne_true
@[simp] theorem State.ownerFrame_rfx (s : State) (ring : Nat) (fid : Nat) (epoch : Nat) : (s.ownerFrame ring fid epoch).rfx = s.rfx := (s.ownerFrame_kept ring fid epoch).only.rfx.resolve_left Bool.false_ne_true
@[simp] theorem State.ownerFrame_tk (s : State) (ring : Nat) (fid : Nat) (epoch : Nat) : (s.ownerFrame ring fid epoch).tk = s.tk := (s.ownerFrame_kept ring fid epoch).only.tk.resolve_left Bool.false_ne_true
@[simp] theorem State.ownerFrame_vsm (s : State) (ring : Nat) (fid : Nat) (epoch : Nat) : (s.ownerFrame ring fid epoch).vsm = s.vsm := (s.ownerFrame_kept ring fid epoch).only.vsm.resolve_left Bool.false_ne_true
@[simp] theorem State.ownerFrame_kvt (s : State) (ring : Nat) (fid : Nat) (epoch : Nat) : (s.ownerFrame ring fid epoch).kvt = s.kvt := (s.ownerFrame_kept ring fid epoch).only.kvt.resolve_left Bool.false_ne_true
@[simp] theorem State.ownerFrame_mbx (s : State) (ring : Nat) (fid : Nat) (epoch : Nat) : (s.ownerFrame ring fid epoch).mbx = s.mbx := (s.ownerFrame_kept ring fid epoch).only.mbx.resolve_left Bool.false_ne_true
@[simp] theorem State.ownerFrame_bay (s : State) (ring : Nat) (fid : Nat) (epoch : Nat) : (s.ownerFrame ring fid epoch).bay = s.bay := (s.ownerFrame_kept ring fid epoch).only.bay.resolve_left Bool.false_ne_true
@[simp] theorem State.ownerFrame_props (s : State) (ring : Nat) (fid : Nat) (epoch : Nat) : (s.ownerFrame ring fid epoch).props = s.props := (s.ownerFrame_kept ring fid epoch).only.props.resolve_left Bool.false_ne_true
@[simp] theorem State.ownerFrame_ppc (s : State) (ring : Nat) (fid : Nat) (epoch : Nat) : (s.ownerFrame ring fid epoch).ppc = s.ppc := (s.ownerFrame_kept ring fid epoch).only.ppc.resolve_left Bool.false_ne_true
@[simp] theorem State.ownerFrame_sep (s : State) (ring : Nat) (fid : Nat) (epoch : Nat) : (s.ownerFrame ring fid epoch).sep = s.sep := (s.ownerFrame_kept ring fid epoch).only.sep.resolve_left Bool.false_ne_true
@[simp] theorem State.ownerFrame_pwr (s : State) (ring : Nat) (fid : Nat) (epoch : Nat) : (s.ownerFrame ring fid epoch).pwr = s.pwr := (s.ownerFrame_kept ring fid epoch).only.pwr.resolve_left Bool.false_ne_true
@[simp] theorem State.ownerFrame_lcu (s : State) (ring : Nat) (fid : Nat) (epoch : Nat) : (s.ownerFrame ring fid epoch).lcu = s.lcu := (s.ownerFrame_kept ring fid epoch).only.lcu.resolve_left Bool.false_ne_true
@[simp] theorem State.ownerFrame_pmu (s : State) (ring : Nat) (fid : Nat) (epoch : Nat) : (s.ownerFrame ring fid epoch).pmu = s.pmu := (s.ownerFrame_kept ring fid epoch).only.pmu.resolve_left Bool.false_ne_true
@[simp] theorem State.ownerFrame_tst (s : State) (ring : Nat) (fid : Nat) (epoch : Nat) : (s.ownerFrame ring fid epoch).tst = s.tst := (s.ownerFrame_kept ring fid epoch).only.tst.resolve_left Bool.false_ne_true
@[simp] theorem State.ownerFrame_mac (s : State) (ring : Nat) (fid : Nat) (epoch : Nat) : (s.ownerFrame ring fid epoch).mac = s.mac := (s.ownerFrame_kept ring fid epoch).only.mac.resolve_left Bool.false_ne_true
@[simp] theorem State.ownerFrame_now (s : State) (ring : Nat) (fid : Nat) (epoch : Nat) : (s.ownerFrame ring fid epoch).now = s.now := (s.ownerFrame_kept ring fid epoch).same.now
@[simp] theorem State.ownerFrame_part (s : State) (ring : Nat) (fid : Nat) (epoch : Nat) : (s.ownerFrame ring fid epoch).part = s.part := (s.ownerFrame_kept ring fid epoch).same.part
@[simp] theorem State.ownerFrame_slot (s : State) (ring : Nat) (fid : Nat) (epoch : Nat) : (s.ownerFrame ring fid epoch).slot = s.slot := (s.ownerFrame_kept ring fid epoch).same.slot
@[simp] theorem State.ownerFrame_uid (s : State) (ring : Nat) (fid : Nat) (epoch : Nat) : (s.ownerFrame ring fid epoch).uid = s.uid := (s.ownerFrame_kept ring fid epoch).same.uid
@[simp] theorem State.ownerFrame_pending (s : State) (ring : Nat) (fid : Nat) (epoch : Nat) : (s.ownerFrame ring fid epoch).pending = s.pending := (s.ownerFrame_kept ring fid epoch).pending
@[simp] theorem State.ownerFrame_freeCtr (s : State) (ring : Nat) (fid : Nat) (epoch : Nat) : (s.ownerFrame ring fid epoch).freeCtr = s.freeCtr := (s.ownerFrame_kept ring fid epoch).only.free.resolve_left Bool.false_ne_true
@[simp] theorem State.ownerFrame_reg (s : State) (ring : Nat) (fid : Nat) (epoch : Nat) (k : Nat) : (s.ownerFrame ring fid epoch).reg k = s.reg k := ((s.ownerFrame_kept ring fid epoch).only.regs).resolve_left Bool.false_ne_true k (fun h => absurd h Bool.false_ne_true)

theorem State.portDown_kept (s : State) (p : Nat) : Kept { tk := true, xbr := true, moved := true, bay := true, mbx := true, sep := true, pmu := true, rge := true, props := true, tst := true, hce := true, lcu := true, kvt := true, out := true, vsm := true, pwr := true, rfx := true } s (s.portDown p) :=
  Kept.portDown _ (Kept.refl s) (hTk := rfl) (hXbr := rfl) (hMoved := rfl) (hBay := rfl) (hMbx := rfl) (hSep := rfl) (hPmu := rfl) (hRge := rfl) (hProps := rfl) (hTst := rfl) (hHce := rfl) (hLcu := rfl) (hKvt := rfl) (hOut := rfl) (hVsm := rfl) (hPwr := rfl) (hRfx := rfl)
@[simp] theorem State.portDown_rfu (s : State) (p : Nat) : (s.portDown p).rfu = s.rfu := (s.portDown_kept p).only.rfu.resolve_left Bool.false_ne_true
@[simp] theorem State.portDown_snt (s : State) (p : Nat) : (s.portDown p).snt = s.snt := (s.portDown_kept p).only.snt.resolve_left Bool.false_ne_true
@[simp] theorem State.portDown_ppc (s : State) (p : Nat) : (s.portDown p).ppc = s.ppc := (s.portDown_kept p).only.ppc.resolve_left Bool.false_ne_true
@[simp] theorem State.portDown_mac (s : State) (p : Nat) : (s.portDown p).mac = s.mac := (s.portDown_kept p).only.mac.resolve_left Bool.false_ne_true
@[simp] theorem State.portDown_now (s : State) (p : Nat) : (s.portDown p).now = s.now := (s.portDown_kept p).same.now
@[simp] theorem State.portDown_part (s : State) (p : Nat) : (s.portDown p).part = s.part := (s.portDown_kept p).same.part
@[simp] theorem State.portDown_slot (s : State) (p : Nat) : (s.portDown p).slot = s.slot := (s.portDown_kept p).same.slot
@[simp] theorem State.portDown_uid (s : State) (p : Nat) : (s.portDown p).uid = s.uid := (s.portDown_kept p).same.uid
@[simp] theorem State.portDown_pending (s : State) (p : Nat) : (s.portDown p).pending = s.pending := (s.portDown_kept p).pending
@[simp] theorem State.portDown_freeCtr (s : State) (p : Nat) : (s.portDown p).freeCtr = s.freeCtr := (s.portDown_kept p).only.free.resolve_left Bool.false_ne_true

theorem State.pcsDown_kept (s : State) (port : Nat) : Kept { tk := true, xbr := true, moved := true, bay := true, mbx := true, sep := true, pmu := true, rge := true, props := true, tst := true, mac := true, hce := true, lcu := true, kvt := true, out := true, vsm := true, pwr := true, rfx := true } s (s.pcsDown port) :=
  Kept.pcsDown _ (Kept.refl s) (hTk := rfl) (hXbr := rfl) (hMoved := rfl) (hBay := rfl) (hMbx := rfl) (hSep := rfl) (hPmu := rfl) (hRge := rfl) (hProps := rfl) (hTst := rfl) (hMac := rfl) (hHce := rfl) (hLcu := rfl) (hKvt := rfl) (hOut := rfl) (hVsm := rfl) (hPwr := rfl) (hRfx := rfl)
@[simp] theorem State.pcsDown_rfu (s : State) (port : Nat) : (s.pcsDown port).rfu = s.rfu := (s.pcsDown_kept port).only.rfu.resolve_left Bool.false_ne_true
@[simp] theorem State.pcsDown_snt (s : State) (port : Nat) : (s.pcsDown port).snt = s.snt := (s.pcsDown_kept port).only.snt.resolve_left Bool.false_ne_true
@[simp] theorem State.pcsDown_ppc (s : State) (port : Nat) : (s.pcsDown port).ppc = s.ppc := (s.pcsDown_kept port).only.ppc.resolve_left Bool.false_ne_true
@[simp] theorem State.pcsDown_now (s : State) (port : Nat) : (s.pcsDown port).now = s.now := (s.pcsDown_kept port).same.now
@[simp] theorem State.pcsDown_part (s : State) (port : Nat) : (s.pcsDown port).part = s.part := (s.pcsDown_kept port).same.part
@[simp] theorem State.pcsDown_slot (s : State) (port : Nat) : (s.pcsDown port).slot = s.slot := (s.pcsDown_kept port).same.slot
@[simp] theorem State.pcsDown_uid (s : State) (port : Nat) : (s.pcsDown port).uid = s.uid := (s.pcsDown_kept port).same.uid
@[simp] theorem State.pcsDown_pending (s : State) (port : Nat) : (s.pcsDown port).pending = s.pending := (s.pcsDown_kept port).pending
@[simp] theorem State.pcsDown_freeCtr (s : State) (port : Nat) : (s.pcsDown port).freeCtr = s.freeCtr := (s.pcsDown_kept port).only.free.resolve_left Bool.false_ne_true

theorem State.sendBids_kept (s : State) : Kept { out := true, xbr := true, pmu := true, moved := true, rfx := true, rge := true } s s.sendBids :=
  Kept.sendBids (Kept.refl s) (hOut := rfl) (hXbr := rfl) (hPmu := rfl) (hMoved := rfl) (hRfx := rfl) (hRge := rfl)
@[simp] theorem State.sendBids_hce (s : State) : s.sendBids.hce = s.hce := (s.sendBids_kept).only.hce.resolve_left Bool.false_ne_true
@[simp] theorem State.sendBids_rfu (s : State) : s.sendBids.rfu = s.rfu := (s.sendBids_kept).only.rfu.resolve_left Bool.false_ne_true
@[simp] theorem State.sendBids_snt (s : State) : s.sendBids.snt = s.snt := (s.sendBids_kept).only.snt.resolve_left Bool.false_ne_true
@[simp] theorem State.sendBids_tk (s : State) : s.sendBids.tk = s.tk := (s.sendBids_kept).only.tk.resolve_left Bool.false_ne_true
@[simp] theorem State.sendBids_vsm (s : State) : s.sendBids.vsm = s.vsm := (s.sendBids_kept).only.vsm.resolve_left Bool.false_ne_true
@[simp] theorem State.sendBids_kvt (s : State) : s.sendBids.kvt = s.kvt := (s.sendBids_kept).only.kvt.resolve_left Bool.false_ne_true
@[simp] theorem State.sendBids_mbx (s : State) : s.sendBids.mbx = s.mbx := (s.sendBids_kept).only.mbx.resolve_left Bool.false_ne_true
@[simp] theorem State.sendBids_bay (s : State) : s.sendBids.bay = s.bay := (s.sendBids_kept).only.bay.resolve_left Bool.false_ne_true
@[simp] theorem State.sendBids_props (s : State) : s.sendBids.props = s.props := (s.sendBids_kept).only.props.resolve_left Bool.false_ne_true
@[simp] theorem State.sendBids_ppc (s : State) : s.sendBids.ppc = s.ppc := (s.sendBids_kept).only.ppc.resolve_left Bool.false_ne_true
@[simp] theorem State.sendBids_sep (s : State) : s.sendBids.sep = s.sep := (s.sendBids_kept).only.sep.resolve_left Bool.false_ne_true
@[simp] theorem State.sendBids_pwr (s : State) : s.sendBids.pwr = s.pwr := (s.sendBids_kept).only.pwr.resolve_left Bool.false_ne_true
@[simp] theorem State.sendBids_lcu (s : State) : s.sendBids.lcu = s.lcu := (s.sendBids_kept).only.lcu.resolve_left Bool.false_ne_true
@[simp] theorem State.sendBids_tst (s : State) : s.sendBids.tst = s.tst := (s.sendBids_kept).only.tst.resolve_left Bool.false_ne_true
@[simp] theorem State.sendBids_mac (s : State) : s.sendBids.mac = s.mac := (s.sendBids_kept).only.mac.resolve_left Bool.false_ne_true
@[simp] theorem State.sendBids_now (s : State) : s.sendBids.now = s.now := (s.sendBids_kept).same.now
@[simp] theorem State.sendBids_part (s : State) : s.sendBids.part = s.part := (s.sendBids_kept).same.part
@[simp] theorem State.sendBids_slot (s : State) : s.sendBids.slot = s.slot := (s.sendBids_kept).same.slot
@[simp] theorem State.sendBids_uid (s : State) : s.sendBids.uid = s.uid := (s.sendBids_kept).same.uid
@[simp] theorem State.sendBids_pending (s : State) : s.sendBids.pending = s.pending := (s.sendBids_kept).pending
@[simp] theorem State.sendBids_freeCtr (s : State) : s.sendBids.freeCtr = s.freeCtr := (s.sendBids_kept).only.free.resolve_left Bool.false_ne_true

theorem State.sendBid_kept (s : State) (ring : Nat) : Kept { xbr := true, moved := true, out := true, pmu := true, rge := true, rfx := true } s (s.sendBid ring) :=
  Kept.sendBid _ (Kept.refl s) (hXbr := rfl) (hMoved := rfl) (hOut := rfl) (hPmu := rfl) (hRge := rfl) (hRfx := rfl)
@[simp] theorem State.sendBid_hce (s : State) (ring : Nat) : (s.sendBid ring).hce = s.hce := (s.sendBid_kept ring).only.hce.resolve_left Bool.false_ne_true
@[simp] theorem State.sendBid_rfu (s : State) (ring : Nat) : (s.sendBid ring).rfu = s.rfu := (s.sendBid_kept ring).only.rfu.resolve_left Bool.false_ne_true
@[simp] theorem State.sendBid_snt (s : State) (ring : Nat) : (s.sendBid ring).snt = s.snt := (s.sendBid_kept ring).only.snt.resolve_left Bool.false_ne_true
@[simp] theorem State.sendBid_tk (s : State) (ring : Nat) : (s.sendBid ring).tk = s.tk := (s.sendBid_kept ring).only.tk.resolve_left Bool.false_ne_true
@[simp] theorem State.sendBid_vsm (s : State) (ring : Nat) : (s.sendBid ring).vsm = s.vsm := (s.sendBid_kept ring).only.vsm.resolve_left Bool.false_ne_true
@[simp] theorem State.sendBid_kvt (s : State) (ring : Nat) : (s.sendBid ring).kvt = s.kvt := (s.sendBid_kept ring).only.kvt.resolve_left Bool.false_ne_true
@[simp] theorem State.sendBid_mbx (s : State) (ring : Nat) : (s.sendBid ring).mbx = s.mbx := (s.sendBid_kept ring).only.mbx.resolve_left Bool.false_ne_true
@[simp] theorem State.sendBid_bay (s : State) (ring : Nat) : (s.sendBid ring).bay = s.bay := (s.sendBid_kept ring).only.bay.resolve_left Bool.false_ne_true
@[simp] theorem State.sendBid_props (s : State) (ring : Nat) : (s.sendBid ring).props = s.props := (s.sendBid_kept ring).only.props.resolve_left Bool.false_ne_true
@[simp] theorem State.sendBid_ppc (s : State) (ring : Nat) : (s.sendBid ring).ppc = s.ppc := (s.sendBid_kept ring).only.ppc.resolve_left Bool.false_ne_true
@[simp] theorem State.sendBid_sep (s : State) (ring : Nat) : (s.sendBid ring).sep = s.sep := (s.sendBid_kept ring).only.sep.resolve_left Bool.false_ne_true
@[simp] theorem State.sendBid_pwr (s : State) (ring : Nat) : (s.sendBid ring).pwr = s.pwr := (s.sendBid_kept ring).only.pwr.resolve_left Bool.false_ne_true
@[simp] theorem State.sendBid_lcu (s : State) (ring : Nat) : (s.sendBid ring).lcu = s.lcu := (s.sendBid_kept ring).only.lcu.resolve_left Bool.false_ne_true
@[simp] theorem State.sendBid_tst (s : State) (ring : Nat) : (s.sendBid ring).tst = s.tst := (s.sendBid_kept ring).only.tst.resolve_left Bool.false_ne_true
@[simp] theorem State.sendBid_mac (s : State) (ring : Nat) : (s.sendBid ring).mac = s.mac := (s.sendBid_kept ring).only.mac.resolve_left Bool.false_ne_true
@[simp] theorem State.sendBid_now (s : State) (ring : Nat) : (s.sendBid ring).now = s.now := (s.sendBid_kept ring).same.now
@[simp] theorem State.sendBid_part (s : State) (ring : Nat) : (s.sendBid ring).part = s.part := (s.sendBid_kept ring).same.part
@[simp] theorem State.sendBid_slot (s : State) (ring : Nat) : (s.sendBid ring).slot = s.slot := (s.sendBid_kept ring).same.slot
@[simp] theorem State.sendBid_uid (s : State) (ring : Nat) : (s.sendBid ring).uid = s.uid := (s.sendBid_kept ring).same.uid
@[simp] theorem State.sendBid_pending (s : State) (ring : Nat) : (s.sendBid ring).pending = s.pending := (s.sendBid_kept ring).pending
@[simp] theorem State.sendBid_freeCtr (s : State) (ring : Nat) : (s.sendBid ring).freeCtr = s.freeCtr := (s.sendBid_kept ring).only.free.resolve_left Bool.false_ne_true

theorem State.decide_kept (s : State) (ring : Nat) : Kept { out := true, xbr := true, pmu := true, moved := true, rfx := true, rge := true } s (s.decide ring) :=
  Kept.decide _ (Kept.refl s) (hOut := rfl) (hXbr := rfl) (hPmu := rfl) (hMoved := rfl) (hRfx := rfl) (hRge := rfl)
@[simp] theorem State.decide_hce (s : State) (ring : Nat) : (s.decide ring).hce = s.hce := (s.decide_kept ring).only.hce.resolve_left Bool.false_ne_true
@[simp] theorem State.decide_rfu (s : State) (ring : Nat) : (s.decide ring).rfu = s.rfu := (s.decide_kept ring).only.rfu.resolve_left Bool.false_ne_true
@[simp] theorem State.decide_snt (s : State) (ring : Nat) : (s.decide ring).snt = s.snt := (s.decide_kept ring).only.snt.resolve_left Bool.false_ne_true
@[simp] theorem State.decide_tk (s : State) (ring : Nat) : (s.decide ring).tk = s.tk := (s.decide_kept ring).only.tk.resolve_left Bool.false_ne_true
@[simp] theorem State.decide_vsm (s : State) (ring : Nat) : (s.decide ring).vsm = s.vsm := (s.decide_kept ring).only.vsm.resolve_left Bool.false_ne_true
@[simp] theorem State.decide_kvt (s : State) (ring : Nat) : (s.decide ring).kvt = s.kvt := (s.decide_kept ring).only.kvt.resolve_left Bool.false_ne_true
@[simp] theorem State.decide_mbx (s : State) (ring : Nat) : (s.decide ring).mbx = s.mbx := (s.decide_kept ring).only.mbx.resolve_left Bool.false_ne_true
@[simp] theorem State.decide_bay (s : State) (ring : Nat) : (s.decide ring).bay = s.bay := (s.decide_kept ring).only.bay.resolve_left Bool.false_ne_true
@[simp] theorem State.decide_props (s : State) (ring : Nat) : (s.decide ring).props = s.props := (s.decide_kept ring).only.props.resolve_left Bool.false_ne_true
@[simp] theorem State.decide_ppc (s : State) (ring : Nat) : (s.decide ring).ppc = s.ppc := (s.decide_kept ring).only.ppc.resolve_left Bool.false_ne_true
@[simp] theorem State.decide_sep (s : State) (ring : Nat) : (s.decide ring).sep = s.sep := (s.decide_kept ring).only.sep.resolve_left Bool.false_ne_true
@[simp] theorem State.decide_pwr (s : State) (ring : Nat) : (s.decide ring).pwr = s.pwr := (s.decide_kept ring).only.pwr.resolve_left Bool.false_ne_true
@[simp] theorem State.decide_lcu (s : State) (ring : Nat) : (s.decide ring).lcu = s.lcu := (s.decide_kept ring).only.lcu.resolve_left Bool.false_ne_true
@[simp] theorem State.decide_tst (s : State) (ring : Nat) : (s.decide ring).tst = s.tst := (s.decide_kept ring).only.tst.resolve_left Bool.false_ne_true
@[simp] theorem State.decide_mac (s : State) (ring : Nat) : (s.decide ring).mac = s.mac := (s.decide_kept ring).only.mac.resolve_left Bool.false_ne_true
@[simp] theorem State.decide_now (s : State) (ring : Nat) : (s.decide ring).now = s.now := (s.decide_kept ring).same.now
@[simp] theorem State.decide_part (s : State) (ring : Nat) : (s.decide ring).part = s.part := (s.decide_kept ring).same.part
@[simp] theorem State.decide_slot (s : State) (ring : Nat) : (s.decide ring).slot = s.slot := (s.decide_kept ring).same.slot
@[simp] theorem State.decide_uid (s : State) (ring : Nat) : (s.decide ring).uid = s.uid := (s.decide_kept ring).same.uid
@[simp] theorem State.decide_pending (s : State) (ring : Nat) : (s.decide ring).pending = s.pending := (s.decide_kept ring).pending
@[simp] theorem State.decide_freeCtr (s : State) (ring : Nat) : (s.decide ring).freeCtr = s.freeCtr := (s.decide_kept ring).only.free.resolve_left Bool.false_ne_true

theorem State.setOwner_kept (s : State) (m : Option Master) : Kept { out := true, mbx := true, kvt := true, sep := true, moved := true } s (s.setOwner m) :=
  Kept.setOwner _ (Kept.refl s) (hOut := rfl) (hMbx := rfl) (hKvt := rfl) (hSep := rfl) (hMoved := rfl)
@[simp] theorem State.setOwner_hce (s : State) (m : Option Master) : (s.setOwner m).hce = s.hce := (s.setOwner_kept m).only.hce.resolve_left Bool.false_ne_true
@[simp] theorem State.setOwner_rfu (s : State) (m : Option Master) : (s.setOwner m).rfu = s.rfu := (s.setOwner_kept m).only.rfu.resolve_left Bool.false_ne_true
@[simp] theorem State.setOwner_rge (s : State) (m : Option Master) : (s.setOwner m).rge = s.rge := (s.setOwner_kept m).only.rge.resolve_left Bool.false_ne_true
@[simp] theorem State.setOwner_snt (s : State) (m : Option Master) : (s.setOwner m).snt = s.snt := (s.setOwner_kept m).only.snt.resolve_left Bool.false_ne_true
@[simp] theorem State.setOwner_rfx (s : State) (m : Option Master) : (s.setOwner m).rfx = s.rfx := (s.setOwner_kept m).only.rfx.resolve_left Bool.false_ne_true
@[simp] theorem State.setOwner_tk (s : State) (m : Option Master) : (s.setOwner m).tk = s.tk := (s.setOwner_kept m).only.tk.resolve_left Bool.false_ne_true
@[simp] theorem State.setOwner_vsm (s : State) (m : Option Master) : (s.setOwner m).vsm = s.vsm := (s.setOwner_kept m).only.vsm.resolve_left Bool.false_ne_true
@[simp] theorem State.setOwner_bay (s : State) (m : Option Master) : (s.setOwner m).bay = s.bay := (s.setOwner_kept m).only.bay.resolve_left Bool.false_ne_true
@[simp] theorem State.setOwner_props (s : State) (m : Option Master) : (s.setOwner m).props = s.props := (s.setOwner_kept m).only.props.resolve_left Bool.false_ne_true
@[simp] theorem State.setOwner_ppc (s : State) (m : Option Master) : (s.setOwner m).ppc = s.ppc := (s.setOwner_kept m).only.ppc.resolve_left Bool.false_ne_true
@[simp] theorem State.setOwner_xbr (s : State) (m : Option Master) : (s.setOwner m).xbr = s.xbr := (s.setOwner_kept m).only.xbr.resolve_left Bool.false_ne_true
@[simp] theorem State.setOwner_pwr (s : State) (m : Option Master) : (s.setOwner m).pwr = s.pwr := (s.setOwner_kept m).only.pwr.resolve_left Bool.false_ne_true
@[simp] theorem State.setOwner_lcu (s : State) (m : Option Master) : (s.setOwner m).lcu = s.lcu := (s.setOwner_kept m).only.lcu.resolve_left Bool.false_ne_true
@[simp] theorem State.setOwner_pmu (s : State) (m : Option Master) : (s.setOwner m).pmu = s.pmu := (s.setOwner_kept m).only.pmu.resolve_left Bool.false_ne_true
@[simp] theorem State.setOwner_tst (s : State) (m : Option Master) : (s.setOwner m).tst = s.tst := (s.setOwner_kept m).only.tst.resolve_left Bool.false_ne_true
@[simp] theorem State.setOwner_mac (s : State) (m : Option Master) : (s.setOwner m).mac = s.mac := (s.setOwner_kept m).only.mac.resolve_left Bool.false_ne_true
@[simp] theorem State.setOwner_now (s : State) (m : Option Master) : (s.setOwner m).now = s.now := (s.setOwner_kept m).same.now
@[simp] theorem State.setOwner_part (s : State) (m : Option Master) : (s.setOwner m).part = s.part := (s.setOwner_kept m).same.part
@[simp] theorem State.setOwner_slot (s : State) (m : Option Master) : (s.setOwner m).slot = s.slot := (s.setOwner_kept m).same.slot
@[simp] theorem State.setOwner_uid (s : State) (m : Option Master) : (s.setOwner m).uid = s.uid := (s.setOwner_kept m).same.uid
@[simp] theorem State.setOwner_pending (s : State) (m : Option Master) : (s.setOwner m).pending = s.pending := (s.setOwner_kept m).pending
@[simp] theorem State.setOwner_freeCtr (s : State) (m : Option Master) : (s.setOwner m).freeCtr = s.freeCtr := (s.setOwner_kept m).only.free.resolve_left Bool.false_ne_true

theorem State.becomeMaster_kept (s : State) (ring : Nat) (epoch : Nat) : Kept { xbr := true, bay := true, moved := true, hce := true, kvt := true, out := true, pmu := true, rge := true, rfx := true } s (s.becomeMaster ring epoch) :=
  Kept.becomeMaster _ _ (Kept.refl s) (hXbr := rfl) (hBay := rfl) (hMoved := rfl) (hHce := rfl) (hKvt := rfl) (hOut := rfl) (hPmu := rfl) (hRge := rfl) (hRfx := rfl)
@[simp] theorem State.becomeMaster_rfu (s : State) (ring : Nat) (epoch : Nat) : (s.becomeMaster ring epoch).rfu = s.rfu := (s.becomeMaster_kept ring epoch).only.rfu.resolve_left Bool.false_ne_true
@[simp] theorem State.becomeMaster_snt (s : State) (ring : Nat) (epoch : Nat) : (s.becomeMaster ring epoch).snt = s.snt := (s.becomeMaster_kept ring epoch).only.snt.resolve_left Bool.false_ne_true
@[simp] theorem State.becomeMaster_tk (s : State) (ring : Nat) (epoch : Nat) : (s.becomeMaster ring epoch).tk = s.tk := (s.becomeMaster_kept ring epoch).only.tk.resolve_left Bool.false_ne_true
@[simp] theorem State.becomeMaster_vsm (s : State) (ring : Nat) (epoch : Nat) : (s.becomeMaster ring epoch).vsm = s.vsm := (s.becomeMaster_kept ring epoch).only.vsm.resolve_left Bool.false_ne_true
@[simp] theorem State.becomeMaster_mbx (s : State) (ring : Nat) (epoch : Nat) : (s.becomeMaster ring epoch).mbx = s.mbx := (s.becomeMaster_kept ring epoch).only.mbx.resolve_left Bool.false_ne_true
@[simp] theorem State.becomeMaster_props (s : State) (ring : Nat) (epoch : Nat) : (s.becomeMaster ring epoch).props = s.props := (s.becomeMaster_kept ring epoch).only.props.resolve_left Bool.false_ne_true
@[simp] theorem State.becomeMaster_ppc (s : State) (ring : Nat) (epoch : Nat) : (s.becomeMaster ring epoch).ppc = s.ppc := (s.becomeMaster_kept ring epoch).only.ppc.resolve_left Bool.false_ne_true
@[simp] theorem State.becomeMaster_sep (s : State) (ring : Nat) (epoch : Nat) : (s.becomeMaster ring epoch).sep = s.sep := (s.becomeMaster_kept ring epoch).only.sep.resolve_left Bool.false_ne_true
@[simp] theorem State.becomeMaster_pwr (s : State) (ring : Nat) (epoch : Nat) : (s.becomeMaster ring epoch).pwr = s.pwr := (s.becomeMaster_kept ring epoch).only.pwr.resolve_left Bool.false_ne_true
@[simp] theorem State.becomeMaster_lcu (s : State) (ring : Nat) (epoch : Nat) : (s.becomeMaster ring epoch).lcu = s.lcu := (s.becomeMaster_kept ring epoch).only.lcu.resolve_left Bool.false_ne_true
@[simp] theorem State.becomeMaster_tst (s : State) (ring : Nat) (epoch : Nat) : (s.becomeMaster ring epoch).tst = s.tst := (s.becomeMaster_kept ring epoch).only.tst.resolve_left Bool.false_ne_true
@[simp] theorem State.becomeMaster_mac (s : State) (ring : Nat) (epoch : Nat) : (s.becomeMaster ring epoch).mac = s.mac := (s.becomeMaster_kept ring epoch).only.mac.resolve_left Bool.false_ne_true
@[simp] theorem State.becomeMaster_now (s : State) (ring : Nat) (epoch : Nat) : (s.becomeMaster ring epoch).now = s.now := (s.becomeMaster_kept ring epoch).same.now
@[simp] theorem State.becomeMaster_part (s : State) (ring : Nat) (epoch : Nat) : (s.becomeMaster ring epoch).part = s.part := (s.becomeMaster_kept ring epoch).same.part
@[simp] theorem State.becomeMaster_slot (s : State) (ring : Nat) (epoch : Nat) : (s.becomeMaster ring epoch).slot = s.slot := (s.becomeMaster_kept ring epoch).same.slot
@[simp] theorem State.becomeMaster_uid (s : State) (ring : Nat) (epoch : Nat) : (s.becomeMaster ring epoch).uid = s.uid := (s.becomeMaster_kept ring epoch).same.uid
@[simp] theorem State.becomeMaster_pending (s : State) (ring : Nat) (epoch : Nat) : (s.becomeMaster ring epoch).pending = s.pending := (s.becomeMaster_kept ring epoch).pending
@[simp] theorem State.becomeMaster_freeCtr (s : State) (ring : Nat) (epoch : Nat) : (s.becomeMaster ring epoch).freeCtr = s.freeCtr := (s.becomeMaster_kept ring epoch).only.free.resolve_left Bool.false_ne_true

theorem State.forgetHosts_kept (s : State) (v : Nat) : Kept { rfu := true, xbr := true, moved := true, hce := true, kvt := true, out := true, pmu := true, rfx := true } s (s.forgetHosts v) :=
  Kept.forgetHosts _ (Kept.refl s) (hRfu := rfl) (hXbr := rfl) (hMoved := rfl) (hHce := rfl) (hKvt := rfl) (hOut := rfl) (hPmu := rfl) (hRfx := rfl)
@[simp] theorem State.forgetHosts_rge (s : State) (v : Nat) : (s.forgetHosts v).rge = s.rge := (s.forgetHosts_kept v).only.rge.resolve_left Bool.false_ne_true
@[simp] theorem State.forgetHosts_snt (s : State) (v : Nat) : (s.forgetHosts v).snt = s.snt := (s.forgetHosts_kept v).only.snt.resolve_left Bool.false_ne_true
@[simp] theorem State.forgetHosts_tk (s : State) (v : Nat) : (s.forgetHosts v).tk = s.tk := (s.forgetHosts_kept v).only.tk.resolve_left Bool.false_ne_true
@[simp] theorem State.forgetHosts_vsm (s : State) (v : Nat) : (s.forgetHosts v).vsm = s.vsm := (s.forgetHosts_kept v).only.vsm.resolve_left Bool.false_ne_true
@[simp] theorem State.forgetHosts_mbx (s : State) (v : Nat) : (s.forgetHosts v).mbx = s.mbx := (s.forgetHosts_kept v).only.mbx.resolve_left Bool.false_ne_true
@[simp] theorem State.forgetHosts_bay (s : State) (v : Nat) : (s.forgetHosts v).bay = s.bay := (s.forgetHosts_kept v).only.bay.resolve_left Bool.false_ne_true
@[simp] theorem State.forgetHosts_props (s : State) (v : Nat) : (s.forgetHosts v).props = s.props := (s.forgetHosts_kept v).only.props.resolve_left Bool.false_ne_true
@[simp] theorem State.forgetHosts_ppc (s : State) (v : Nat) : (s.forgetHosts v).ppc = s.ppc := (s.forgetHosts_kept v).only.ppc.resolve_left Bool.false_ne_true
@[simp] theorem State.forgetHosts_sep (s : State) (v : Nat) : (s.forgetHosts v).sep = s.sep := (s.forgetHosts_kept v).only.sep.resolve_left Bool.false_ne_true
@[simp] theorem State.forgetHosts_pwr (s : State) (v : Nat) : (s.forgetHosts v).pwr = s.pwr := (s.forgetHosts_kept v).only.pwr.resolve_left Bool.false_ne_true
@[simp] theorem State.forgetHosts_lcu (s : State) (v : Nat) : (s.forgetHosts v).lcu = s.lcu := (s.forgetHosts_kept v).only.lcu.resolve_left Bool.false_ne_true
@[simp] theorem State.forgetHosts_tst (s : State) (v : Nat) : (s.forgetHosts v).tst = s.tst := (s.forgetHosts_kept v).only.tst.resolve_left Bool.false_ne_true
@[simp] theorem State.forgetHosts_mac (s : State) (v : Nat) : (s.forgetHosts v).mac = s.mac := (s.forgetHosts_kept v).only.mac.resolve_left Bool.false_ne_true
@[simp] theorem State.forgetHosts_now (s : State) (v : Nat) : (s.forgetHosts v).now = s.now := (s.forgetHosts_kept v).same.now
@[simp] theorem State.forgetHosts_part (s : State) (v : Nat) : (s.forgetHosts v).part = s.part := (s.forgetHosts_kept v).same.part
@[simp] theorem State.forgetHosts_slot (s : State) (v : Nat) : (s.forgetHosts v).slot = s.slot := (s.forgetHosts_kept v).same.slot
@[simp] theorem State.forgetHosts_uid (s : State) (v : Nat) : (s.forgetHosts v).uid = s.uid := (s.forgetHosts_kept v).same.uid
@[simp] theorem State.forgetHosts_pending (s : State) (v : Nat) : (s.forgetHosts v).pending = s.pending := (s.forgetHosts_kept v).pending
@[simp] theorem State.forgetHosts_freeCtr (s : State) (v : Nat) : (s.forgetHosts v).freeCtr = s.freeCtr := (s.forgetHosts_kept v).only.free.resolve_left Bool.false_ne_true

theorem State.endHost_kept (s : State) (v : Nat) (h : Nqn) : Kept { hce := true, rfu := true, out := true, xbr := true, pmu := true, moved := true, rfx := true } s (s.endHost v h) :=
  Kept.endHost _ _ (Kept.refl s) (hHce := rfl) (hRfu := rfl) (hOut := rfl) (hXbr := rfl) (hPmu := rfl) (hMoved := rfl) (hRfx := rfl)
@[simp] theorem State.endHost_rge (s : State) (v : Nat) (h : Nqn) : (s.endHost v h).rge = s.rge := (s.endHost_kept v h).only.rge.resolve_left Bool.false_ne_true
@[simp] theorem State.endHost_snt (s : State) (v : Nat) (h : Nqn) : (s.endHost v h).snt = s.snt := (s.endHost_kept v h).only.snt.resolve_left Bool.false_ne_true
@[simp] theorem State.endHost_tk (s : State) (v : Nat) (h : Nqn) : (s.endHost v h).tk = s.tk := (s.endHost_kept v h).only.tk.resolve_left Bool.false_ne_true
@[simp] theorem State.endHost_vsm (s : State) (v : Nat) (h : Nqn) : (s.endHost v h).vsm = s.vsm := (s.endHost_kept v h).only.vsm.resolve_left Bool.false_ne_true
@[simp] theorem State.endHost_kvt (s : State) (v : Nat) (h : Nqn) : (s.endHost v h).kvt = s.kvt := (s.endHost_kept v h).only.kvt.resolve_left Bool.false_ne_true
@[simp] theorem State.endHost_mbx (s : State) (v : Nat) (h : Nqn) : (s.endHost v h).mbx = s.mbx := (s.endHost_kept v h).only.mbx.resolve_left Bool.false_ne_true
@[simp] theorem State.endHost_bay (s : State) (v : Nat) (h : Nqn) : (s.endHost v h).bay = s.bay := (s.endHost_kept v h).only.bay.resolve_left Bool.false_ne_true
@[simp] theorem State.endHost_props (s : State) (v : Nat) (h : Nqn) : (s.endHost v h).props = s.props := (s.endHost_kept v h).only.props.resolve_left Bool.false_ne_true
@[simp] theorem State.endHost_ppc (s : State) (v : Nat) (h : Nqn) : (s.endHost v h).ppc = s.ppc := (s.endHost_kept v h).only.ppc.resolve_left Bool.false_ne_true
@[simp] theorem State.endHost_sep (s : State) (v : Nat) (h : Nqn) : (s.endHost v h).sep = s.sep := (s.endHost_kept v h).only.sep.resolve_left Bool.false_ne_true
@[simp] theorem State.endHost_pwr (s : State) (v : Nat) (h : Nqn) : (s.endHost v h).pwr = s.pwr := (s.endHost_kept v h).only.pwr.resolve_left Bool.false_ne_true
@[simp] theorem State.endHost_lcu (s : State) (v : Nat) (h : Nqn) : (s.endHost v h).lcu = s.lcu := (s.endHost_kept v h).only.lcu.resolve_left Bool.false_ne_true
@[simp] theorem State.endHost_tst (s : State) (v : Nat) (h : Nqn) : (s.endHost v h).tst = s.tst := (s.endHost_kept v h).only.tst.resolve_left Bool.false_ne_true
@[simp] theorem State.endHost_mac (s : State) (v : Nat) (h : Nqn) : (s.endHost v h).mac = s.mac := (s.endHost_kept v h).only.mac.resolve_left Bool.false_ne_true
@[simp] theorem State.endHost_now (s : State) (v : Nat) (h : Nqn) : (s.endHost v h).now = s.now := (s.endHost_kept v h).same.now
@[simp] theorem State.endHost_part (s : State) (v : Nat) (h : Nqn) : (s.endHost v h).part = s.part := (s.endHost_kept v h).same.part
@[simp] theorem State.endHost_slot (s : State) (v : Nat) (h : Nqn) : (s.endHost v h).slot = s.slot := (s.endHost_kept v h).same.slot
@[simp] theorem State.endHost_uid (s : State) (v : Nat) (h : Nqn) : (s.endHost v h).uid = s.uid := (s.endHost_kept v h).same.uid
@[simp] theorem State.endHost_pending (s : State) (v : Nat) (h : Nqn) : (s.endHost v h).pending = s.pending := (s.endHost_kept v h).pending
@[simp] theorem State.endHost_freeCtr (s : State) (v : Nat) (h : Nqn) : (s.endHost v h).freeCtr = s.freeCtr := (s.endHost_kept v h).only.free.resolve_left Bool.false_ne_true

theorem State.dropPortal_kept (s : State) (v : Nat) (index : Nat) (keep : Option (BitVec 128)) : Kept { rfu := true, xbr := true, moved := true, hce := true, kvt := true, out := true, vsm := true, pmu := true, rfx := true } s (s.dropPortal v index keep) :=
  Kept.dropPortal _ _ _ (Kept.refl s) (hRfu := rfl) (hXbr := rfl) (hMoved := rfl) (hHce := rfl) (hKvt := rfl) (hOut := rfl) (hVsm := rfl) (hPmu := rfl) (hRfx := rfl)
@[simp] theorem State.dropPortal_rge (s : State) (v : Nat) (index : Nat) (keep : Option (BitVec 128)) : (s.dropPortal v index keep).rge = s.rge := (s.dropPortal_kept v index keep).only.rge.resolve_left Bool.false_ne_true
@[simp] theorem State.dropPortal_snt (s : State) (v : Nat) (index : Nat) (keep : Option (BitVec 128)) : (s.dropPortal v index keep).snt = s.snt := (s.dropPortal_kept v index keep).only.snt.resolve_left Bool.false_ne_true
@[simp] theorem State.dropPortal_tk (s : State) (v : Nat) (index : Nat) (keep : Option (BitVec 128)) : (s.dropPortal v index keep).tk = s.tk := (s.dropPortal_kept v index keep).only.tk.resolve_left Bool.false_ne_true
@[simp] theorem State.dropPortal_mbx (s : State) (v : Nat) (index : Nat) (keep : Option (BitVec 128)) : (s.dropPortal v index keep).mbx = s.mbx := (s.dropPortal_kept v index keep).only.mbx.resolve_left Bool.false_ne_true
@[simp] theorem State.dropPortal_bay (s : State) (v : Nat) (index : Nat) (keep : Option (BitVec 128)) : (s.dropPortal v index keep).bay = s.bay := (s.dropPortal_kept v index keep).only.bay.resolve_left Bool.false_ne_true
@[simp] theorem State.dropPortal_props (s : State) (v : Nat) (index : Nat) (keep : Option (BitVec 128)) : (s.dropPortal v index keep).props = s.props := (s.dropPortal_kept v index keep).only.props.resolve_left Bool.false_ne_true
@[simp] theorem State.dropPortal_ppc (s : State) (v : Nat) (index : Nat) (keep : Option (BitVec 128)) : (s.dropPortal v index keep).ppc = s.ppc := (s.dropPortal_kept v index keep).only.ppc.resolve_left Bool.false_ne_true
@[simp] theorem State.dropPortal_sep (s : State) (v : Nat) (index : Nat) (keep : Option (BitVec 128)) : (s.dropPortal v index keep).sep = s.sep := (s.dropPortal_kept v index keep).only.sep.resolve_left Bool.false_ne_true
@[simp] theorem State.dropPortal_pwr (s : State) (v : Nat) (index : Nat) (keep : Option (BitVec 128)) : (s.dropPortal v index keep).pwr = s.pwr := (s.dropPortal_kept v index keep).only.pwr.resolve_left Bool.false_ne_true
@[simp] theorem State.dropPortal_lcu (s : State) (v : Nat) (index : Nat) (keep : Option (BitVec 128)) : (s.dropPortal v index keep).lcu = s.lcu := (s.dropPortal_kept v index keep).only.lcu.resolve_left Bool.false_ne_true
@[simp] theorem State.dropPortal_tst (s : State) (v : Nat) (index : Nat) (keep : Option (BitVec 128)) : (s.dropPortal v index keep).tst = s.tst := (s.dropPortal_kept v index keep).only.tst.resolve_left Bool.false_ne_true
@[simp] theorem State.dropPortal_mac (s : State) (v : Nat) (index : Nat) (keep : Option (BitVec 128)) : (s.dropPortal v index keep).mac = s.mac := (s.dropPortal_kept v index keep).only.mac.resolve_left Bool.false_ne_true
@[simp] theorem State.dropPortal_now (s : State) (v : Nat) (index : Nat) (keep : Option (BitVec 128)) : (s.dropPortal v index keep).now = s.now := (s.dropPortal_kept v index keep).same.now
@[simp] theorem State.dropPortal_part (s : State) (v : Nat) (index : Nat) (keep : Option (BitVec 128)) : (s.dropPortal v index keep).part = s.part := (s.dropPortal_kept v index keep).same.part
@[simp] theorem State.dropPortal_slot (s : State) (v : Nat) (index : Nat) (keep : Option (BitVec 128)) : (s.dropPortal v index keep).slot = s.slot := (s.dropPortal_kept v index keep).same.slot
@[simp] theorem State.dropPortal_uid (s : State) (v : Nat) (index : Nat) (keep : Option (BitVec 128)) : (s.dropPortal v index keep).uid = s.uid := (s.dropPortal_kept v index keep).same.uid
@[simp] theorem State.dropPortal_pending (s : State) (v : Nat) (index : Nat) (keep : Option (BitVec 128)) : (s.dropPortal v index keep).pending = s.pending := (s.dropPortal_kept v index keep).pending
@[simp] theorem State.dropPortal_freeCtr (s : State) (v : Nat) (index : Nat) (keep : Option (BitVec 128)) : (s.dropPortal v index keep).freeCtr = s.freeCtr := (s.dropPortal_kept v index keep).only.free.resolve_left Bool.false_ne_true

theorem State.windTag_kept (s : State) (t : Nat) : Kept { hce := true, rfu := true, out := true, xbr := true, pmu := true, moved := true, rfx := true } s (s.windTag t) :=
  Kept.windTag _ (Kept.refl s) (hHce := rfl) (hRfu := rfl) (hOut := rfl) (hXbr := rfl) (hPmu := rfl) (hMoved := rfl) (hRfx := rfl)
@[simp] theorem State.windTag_rge (s : State) (t : Nat) : (s.windTag t).rge = s.rge := (s.windTag_kept t).only.rge.resolve_left Bool.false_ne_true
@[simp] theorem State.windTag_snt (s : State) (t : Nat) : (s.windTag t).snt = s.snt := (s.windTag_kept t).only.snt.resolve_left Bool.false_ne_true
@[simp] theorem State.windTag_tk (s : State) (t : Nat) : (s.windTag t).tk = s.tk := (s.windTag_kept t).only.tk.resolve_left Bool.false_ne_true
@[simp] theorem State.windTag_vsm (s : State) (t : Nat) : (s.windTag t).vsm = s.vsm := (s.windTag_kept t).only.vsm.resolve_left Bool.false_ne_true
@[simp] theorem State.windTag_kvt (s : State) (t : Nat) : (s.windTag t).kvt = s.kvt := (s.windTag_kept t).only.kvt.resolve_left Bool.false_ne_true
@[simp] theorem State.windTag_mbx (s : State) (t : Nat) : (s.windTag t).mbx = s.mbx := (s.windTag_kept t).only.mbx.resolve_left Bool.false_ne_true
@[simp] theorem State.windTag_bay (s : State) (t : Nat) : (s.windTag t).bay = s.bay := (s.windTag_kept t).only.bay.resolve_left Bool.false_ne_true
@[simp] theorem State.windTag_props (s : State) (t : Nat) : (s.windTag t).props = s.props := (s.windTag_kept t).only.props.resolve_left Bool.false_ne_true
@[simp] theorem State.windTag_ppc (s : State) (t : Nat) : (s.windTag t).ppc = s.ppc := (s.windTag_kept t).only.ppc.resolve_left Bool.false_ne_true
@[simp] theorem State.windTag_sep (s : State) (t : Nat) : (s.windTag t).sep = s.sep := (s.windTag_kept t).only.sep.resolve_left Bool.false_ne_true
@[simp] theorem State.windTag_pwr (s : State) (t : Nat) : (s.windTag t).pwr = s.pwr := (s.windTag_kept t).only.pwr.resolve_left Bool.false_ne_true
@[simp] theorem State.windTag_lcu (s : State) (t : Nat) : (s.windTag t).lcu = s.lcu := (s.windTag_kept t).only.lcu.resolve_left Bool.false_ne_true
@[simp] theorem State.windTag_tst (s : State) (t : Nat) : (s.windTag t).tst = s.tst := (s.windTag_kept t).only.tst.resolve_left Bool.false_ne_true
@[simp] theorem State.windTag_mac (s : State) (t : Nat) : (s.windTag t).mac = s.mac := (s.windTag_kept t).only.mac.resolve_left Bool.false_ne_true
@[simp] theorem State.windTag_now (s : State) (t : Nat) : (s.windTag t).now = s.now := (s.windTag_kept t).same.now
@[simp] theorem State.windTag_part (s : State) (t : Nat) : (s.windTag t).part = s.part := (s.windTag_kept t).same.part
@[simp] theorem State.windTag_slot (s : State) (t : Nat) : (s.windTag t).slot = s.slot := (s.windTag_kept t).same.slot
@[simp] theorem State.windTag_uid (s : State) (t : Nat) : (s.windTag t).uid = s.uid := (s.windTag_kept t).same.uid
@[simp] theorem State.windTag_pending (s : State) (t : Nat) : (s.windTag t).pending = s.pending := (s.windTag_kept t).pending
@[simp] theorem State.windTag_freeCtr (s : State) (t : Nat) : (s.windTag t).freeCtr = s.freeCtr := (s.windTag_kept t).only.free.resolve_left Bool.false_ne_true

theorem State.thaw_kept (s : State) (v : Nat) : Kept { hce := true, out := true, xbr := true, vsm := true } s (s.thaw v) :=
  Kept.thaw _ (Kept.refl s) (hHce := rfl) (hOut := rfl) (hXbr := rfl) (hVsm := rfl)
@[simp] theorem State.thaw_rfu (s : State) (v : Nat) : (s.thaw v).rfu = s.rfu := (s.thaw_kept v).only.rfu.resolve_left Bool.false_ne_true
@[simp] theorem State.thaw_rge (s : State) (v : Nat) : (s.thaw v).rge = s.rge := (s.thaw_kept v).only.rge.resolve_left Bool.false_ne_true
@[simp] theorem State.thaw_snt (s : State) (v : Nat) : (s.thaw v).snt = s.snt := (s.thaw_kept v).only.snt.resolve_left Bool.false_ne_true
@[simp] theorem State.thaw_rfx (s : State) (v : Nat) : (s.thaw v).rfx = s.rfx := (s.thaw_kept v).only.rfx.resolve_left Bool.false_ne_true
@[simp] theorem State.thaw_tk (s : State) (v : Nat) : (s.thaw v).tk = s.tk := (s.thaw_kept v).only.tk.resolve_left Bool.false_ne_true
@[simp] theorem State.thaw_kvt (s : State) (v : Nat) : (s.thaw v).kvt = s.kvt := (s.thaw_kept v).only.kvt.resolve_left Bool.false_ne_true
@[simp] theorem State.thaw_mbx (s : State) (v : Nat) : (s.thaw v).mbx = s.mbx := (s.thaw_kept v).only.mbx.resolve_left Bool.false_ne_true
@[simp] theorem State.thaw_bay (s : State) (v : Nat) : (s.thaw v).bay = s.bay := (s.thaw_kept v).only.bay.resolve_left Bool.false_ne_true
@[simp] theorem State.thaw_props (s : State) (v : Nat) : (s.thaw v).props = s.props := (s.thaw_kept v).only.props.resolve_left Bool.false_ne_true
@[simp] theorem State.thaw_ppc (s : State) (v : Nat) : (s.thaw v).ppc = s.ppc := (s.thaw_kept v).only.ppc.resolve_left Bool.false_ne_true
@[simp] theorem State.thaw_sep (s : State) (v : Nat) : (s.thaw v).sep = s.sep := (s.thaw_kept v).only.sep.resolve_left Bool.false_ne_true
@[simp] theorem State.thaw_pwr (s : State) (v : Nat) : (s.thaw v).pwr = s.pwr := (s.thaw_kept v).only.pwr.resolve_left Bool.false_ne_true
@[simp] theorem State.thaw_lcu (s : State) (v : Nat) : (s.thaw v).lcu = s.lcu := (s.thaw_kept v).only.lcu.resolve_left Bool.false_ne_true
@[simp] theorem State.thaw_pmu (s : State) (v : Nat) : (s.thaw v).pmu = s.pmu := (s.thaw_kept v).only.pmu.resolve_left Bool.false_ne_true
@[simp] theorem State.thaw_tst (s : State) (v : Nat) : (s.thaw v).tst = s.tst := (s.thaw_kept v).only.tst.resolve_left Bool.false_ne_true
@[simp] theorem State.thaw_mac (s : State) (v : Nat) : (s.thaw v).mac = s.mac := (s.thaw_kept v).only.mac.resolve_left Bool.false_ne_true
@[simp] theorem State.thaw_now (s : State) (v : Nat) : (s.thaw v).now = s.now := (s.thaw_kept v).same.now
@[simp] theorem State.thaw_part (s : State) (v : Nat) : (s.thaw v).part = s.part := (s.thaw_kept v).same.part
@[simp] theorem State.thaw_slot (s : State) (v : Nat) : (s.thaw v).slot = s.slot := (s.thaw_kept v).same.slot
@[simp] theorem State.thaw_uid (s : State) (v : Nat) : (s.thaw v).uid = s.uid := (s.thaw_kept v).same.uid
@[simp] theorem State.thaw_pending (s : State) (v : Nat) : (s.thaw v).pending = s.pending := (s.thaw_kept v).pending
@[simp] theorem State.thaw_freeCtr (s : State) (v : Nat) : (s.thaw v).freeCtr = s.freeCtr := (s.thaw_kept v).only.free.resolve_left Bool.false_ne_true
@[simp] theorem State.thaw_reg (s : State) (v : Nat) (k : Nat) : (s.thaw v).reg k = s.reg k := ((s.thaw_kept v).only.regs).resolve_left Bool.false_ne_true k (fun h => absurd h Bool.false_ne_true)

theorem State.abortMigration_kept (s : State) (v : Nat) : Kept { hce := true, out := true, xbr := true, vsm := true, moved := true } s (s.abortMigration v) :=
  Kept.abortMigration _ (Kept.refl s) (hHce := rfl) (hOut := rfl) (hXbr := rfl) (hVsm := rfl) (hMoved := rfl)
@[simp] theorem State.abortMigration_rfu (s : State) (v : Nat) : (s.abortMigration v).rfu = s.rfu := (s.abortMigration_kept v).only.rfu.resolve_left Bool.false_ne_true
@[simp] theorem State.abortMigration_rge (s : State) (v : Nat) : (s.abortMigration v).rge = s.rge := (s.abortMigration_kept v).only.rge.resolve_left Bool.false_ne_true
@[simp] theorem State.abortMigration_snt (s : State) (v : Nat) : (s.abortMigration v).snt = s.snt := (s.abortMigration_kept v).only.snt.resolve_left Bool.false_ne_true
@[simp] theorem State.abortMigration_rfx (s : State) (v : Nat) : (s.abortMigration v).rfx = s.rfx := (s.abortMigration_kept v).only.rfx.resolve_left Bool.false_ne_true
@[simp] theorem State.abortMigration_tk (s : State) (v : Nat) : (s.abortMigration v).tk = s.tk := (s.abortMigration_kept v).only.tk.resolve_left Bool.false_ne_true
@[simp] theorem State.abortMigration_kvt (s : State) (v : Nat) : (s.abortMigration v).kvt = s.kvt := (s.abortMigration_kept v).only.kvt.resolve_left Bool.false_ne_true
@[simp] theorem State.abortMigration_mbx (s : State) (v : Nat) : (s.abortMigration v).mbx = s.mbx := (s.abortMigration_kept v).only.mbx.resolve_left Bool.false_ne_true
@[simp] theorem State.abortMigration_bay (s : State) (v : Nat) : (s.abortMigration v).bay = s.bay := (s.abortMigration_kept v).only.bay.resolve_left Bool.false_ne_true
@[simp] theorem State.abortMigration_props (s : State) (v : Nat) : (s.abortMigration v).props = s.props := (s.abortMigration_kept v).only.props.resolve_left Bool.false_ne_true
@[simp] theorem State.abortMigration_ppc (s : State) (v : Nat) : (s.abortMigration v).ppc = s.ppc := (s.abortMigration_kept v).only.ppc.resolve_left Bool.false_ne_true
@[simp] theorem State.abortMigration_sep (s : State) (v : Nat) : (s.abortMigration v).sep = s.sep := (s.abortMigration_kept v).only.sep.resolve_left Bool.false_ne_true
@[simp] theorem State.abortMigration_pwr (s : State) (v : Nat) : (s.abortMigration v).pwr = s.pwr := (s.abortMigration_kept v).only.pwr.resolve_left Bool.false_ne_true
@[simp] theorem State.abortMigration_lcu (s : State) (v : Nat) : (s.abortMigration v).lcu = s.lcu := (s.abortMigration_kept v).only.lcu.resolve_left Bool.false_ne_true
@[simp] theorem State.abortMigration_pmu (s : State) (v : Nat) : (s.abortMigration v).pmu = s.pmu := (s.abortMigration_kept v).only.pmu.resolve_left Bool.false_ne_true
@[simp] theorem State.abortMigration_tst (s : State) (v : Nat) : (s.abortMigration v).tst = s.tst := (s.abortMigration_kept v).only.tst.resolve_left Bool.false_ne_true
@[simp] theorem State.abortMigration_mac (s : State) (v : Nat) : (s.abortMigration v).mac = s.mac := (s.abortMigration_kept v).only.mac.resolve_left Bool.false_ne_true
@[simp] theorem State.abortMigration_now (s : State) (v : Nat) : (s.abortMigration v).now = s.now := (s.abortMigration_kept v).same.now
@[simp] theorem State.abortMigration_part (s : State) (v : Nat) : (s.abortMigration v).part = s.part := (s.abortMigration_kept v).same.part
@[simp] theorem State.abortMigration_slot (s : State) (v : Nat) : (s.abortMigration v).slot = s.slot := (s.abortMigration_kept v).same.slot
@[simp] theorem State.abortMigration_uid (s : State) (v : Nat) : (s.abortMigration v).uid = s.uid := (s.abortMigration_kept v).same.uid
@[simp] theorem State.abortMigration_pending (s : State) (v : Nat) : (s.abortMigration v).pending = s.pending := (s.abortMigration_kept v).pending
@[simp] theorem State.abortMigration_freeCtr (s : State) (v : Nat) : (s.abortMigration v).freeCtr = s.freeCtr := (s.abortMigration_kept v).only.free.resolve_left Bool.false_ne_true

theorem State.discardNs_kept (s : State) (v : Nat) (n : Nat) : Kept { xbr := true, moved := true, hce := true, out := true, pmu := true, rfx := true } s (s.discardNs v n) :=
  Kept.discardNs _ _ (Kept.refl s) (hXbr := rfl) (hMoved := rfl) (hHce := rfl) (hOut := rfl) (hPmu := rfl) (hRfx := rfl)
@[simp] theorem State.discardNs_rfu (s : State) (v : Nat) (n : Nat) : (s.discardNs v n).rfu = s.rfu := (s.discardNs_kept v n).only.rfu.resolve_left Bool.false_ne_true
@[simp] theorem State.discardNs_rge (s : State) (v : Nat) (n : Nat) : (s.discardNs v n).rge = s.rge := (s.discardNs_kept v n).only.rge.resolve_left Bool.false_ne_true
@[simp] theorem State.discardNs_snt (s : State) (v : Nat) (n : Nat) : (s.discardNs v n).snt = s.snt := (s.discardNs_kept v n).only.snt.resolve_left Bool.false_ne_true
@[simp] theorem State.discardNs_tk (s : State) (v : Nat) (n : Nat) : (s.discardNs v n).tk = s.tk := (s.discardNs_kept v n).only.tk.resolve_left Bool.false_ne_true
@[simp] theorem State.discardNs_vsm (s : State) (v : Nat) (n : Nat) : (s.discardNs v n).vsm = s.vsm := (s.discardNs_kept v n).only.vsm.resolve_left Bool.false_ne_true
@[simp] theorem State.discardNs_kvt (s : State) (v : Nat) (n : Nat) : (s.discardNs v n).kvt = s.kvt := (s.discardNs_kept v n).only.kvt.resolve_left Bool.false_ne_true
@[simp] theorem State.discardNs_mbx (s : State) (v : Nat) (n : Nat) : (s.discardNs v n).mbx = s.mbx := (s.discardNs_kept v n).only.mbx.resolve_left Bool.false_ne_true
@[simp] theorem State.discardNs_bay (s : State) (v : Nat) (n : Nat) : (s.discardNs v n).bay = s.bay := (s.discardNs_kept v n).only.bay.resolve_left Bool.false_ne_true
@[simp] theorem State.discardNs_props (s : State) (v : Nat) (n : Nat) : (s.discardNs v n).props = s.props := (s.discardNs_kept v n).only.props.resolve_left Bool.false_ne_true
@[simp] theorem State.discardNs_ppc (s : State) (v : Nat) (n : Nat) : (s.discardNs v n).ppc = s.ppc := (s.discardNs_kept v n).only.ppc.resolve_left Bool.false_ne_true
@[simp] theorem State.discardNs_sep (s : State) (v : Nat) (n : Nat) : (s.discardNs v n).sep = s.sep := (s.discardNs_kept v n).only.sep.resolve_left Bool.false_ne_true
@[simp] theorem State.discardNs_pwr (s : State) (v : Nat) (n : Nat) : (s.discardNs v n).pwr = s.pwr := (s.discardNs_kept v n).only.pwr.resolve_left Bool.false_ne_true
@[simp] theorem State.discardNs_lcu (s : State) (v : Nat) (n : Nat) : (s.discardNs v n).lcu = s.lcu := (s.discardNs_kept v n).only.lcu.resolve_left Bool.false_ne_true
@[simp] theorem State.discardNs_tst (s : State) (v : Nat) (n : Nat) : (s.discardNs v n).tst = s.tst := (s.discardNs_kept v n).only.tst.resolve_left Bool.false_ne_true
@[simp] theorem State.discardNs_mac (s : State) (v : Nat) (n : Nat) : (s.discardNs v n).mac = s.mac := (s.discardNs_kept v n).only.mac.resolve_left Bool.false_ne_true
@[simp] theorem State.discardNs_now (s : State) (v : Nat) (n : Nat) : (s.discardNs v n).now = s.now := (s.discardNs_kept v n).same.now
@[simp] theorem State.discardNs_part (s : State) (v : Nat) (n : Nat) : (s.discardNs v n).part = s.part := (s.discardNs_kept v n).same.part
@[simp] theorem State.discardNs_slot (s : State) (v : Nat) (n : Nat) : (s.discardNs v n).slot = s.slot := (s.discardNs_kept v n).same.slot
@[simp] theorem State.discardNs_uid (s : State) (v : Nat) (n : Nat) : (s.discardNs v n).uid = s.uid := (s.discardNs_kept v n).same.uid
@[simp] theorem State.discardNs_pending (s : State) (v : Nat) (n : Nat) : (s.discardNs v n).pending = s.pending := (s.discardNs_kept v n).pending
@[simp] theorem State.discardNs_freeCtr (s : State) (v : Nat) (n : Nat) : (s.discardNs v n).freeCtr = s.freeCtr := (s.discardNs_kept v n).only.free.resolve_left Bool.false_ne_true

theorem State.applyImage_kept (s : State) (v : Nat) (img : List Byte) : Kept { xbr := true, moved := true, free := true, hce := true, kvt := true, out := true, vsm := true, pmu := true, rfx := true } s (s.applyImage v img) :=
  Kept.applyImage _ _ (Kept.refl s) (hXbr := rfl) (hMoved := rfl) (hFree := rfl) (hHce := rfl) (hKvt := rfl) (hOut := rfl) (hVsm := rfl) (hPmu := rfl) (hRfx := rfl)
@[simp] theorem State.applyImage_rfu (s : State) (v : Nat) (img : List Byte) : (s.applyImage v img).rfu = s.rfu := (s.applyImage_kept v img).only.rfu.resolve_left Bool.false_ne_true
@[simp] theorem State.applyImage_rge (s : State) (v : Nat) (img : List Byte) : (s.applyImage v img).rge = s.rge := (s.applyImage_kept v img).only.rge.resolve_left Bool.false_ne_true
@[simp] theorem State.applyImage_snt (s : State) (v : Nat) (img : List Byte) : (s.applyImage v img).snt = s.snt := (s.applyImage_kept v img).only.snt.resolve_left Bool.false_ne_true
@[simp] theorem State.applyImage_tk (s : State) (v : Nat) (img : List Byte) : (s.applyImage v img).tk = s.tk := (s.applyImage_kept v img).only.tk.resolve_left Bool.false_ne_true
@[simp] theorem State.applyImage_mbx (s : State) (v : Nat) (img : List Byte) : (s.applyImage v img).mbx = s.mbx := (s.applyImage_kept v img).only.mbx.resolve_left Bool.false_ne_true
@[simp] theorem State.applyImage_bay (s : State) (v : Nat) (img : List Byte) : (s.applyImage v img).bay = s.bay := (s.applyImage_kept v img).only.bay.resolve_left Bool.false_ne_true
@[simp] theorem State.applyImage_props (s : State) (v : Nat) (img : List Byte) : (s.applyImage v img).props = s.props := (s.applyImage_kept v img).only.props.resolve_left Bool.false_ne_true
@[simp] theorem State.applyImage_ppc (s : State) (v : Nat) (img : List Byte) : (s.applyImage v img).ppc = s.ppc := (s.applyImage_kept v img).only.ppc.resolve_left Bool.false_ne_true
@[simp] theorem State.applyImage_sep (s : State) (v : Nat) (img : List Byte) : (s.applyImage v img).sep = s.sep := (s.applyImage_kept v img).only.sep.resolve_left Bool.false_ne_true
@[simp] theorem State.applyImage_pwr (s : State) (v : Nat) (img : List Byte) : (s.applyImage v img).pwr = s.pwr := (s.applyImage_kept v img).only.pwr.resolve_left Bool.false_ne_true
@[simp] theorem State.applyImage_lcu (s : State) (v : Nat) (img : List Byte) : (s.applyImage v img).lcu = s.lcu := (s.applyImage_kept v img).only.lcu.resolve_left Bool.false_ne_true
@[simp] theorem State.applyImage_tst (s : State) (v : Nat) (img : List Byte) : (s.applyImage v img).tst = s.tst := (s.applyImage_kept v img).only.tst.resolve_left Bool.false_ne_true
@[simp] theorem State.applyImage_mac (s : State) (v : Nat) (img : List Byte) : (s.applyImage v img).mac = s.mac := (s.applyImage_kept v img).only.mac.resolve_left Bool.false_ne_true
@[simp] theorem State.applyImage_now (s : State) (v : Nat) (img : List Byte) : (s.applyImage v img).now = s.now := (s.applyImage_kept v img).same.now
@[simp] theorem State.applyImage_part (s : State) (v : Nat) (img : List Byte) : (s.applyImage v img).part = s.part := (s.applyImage_kept v img).same.part
@[simp] theorem State.applyImage_slot (s : State) (v : Nat) (img : List Byte) : (s.applyImage v img).slot = s.slot := (s.applyImage_kept v img).same.slot
@[simp] theorem State.applyImage_uid (s : State) (v : Nat) (img : List Byte) : (s.applyImage v img).uid = s.uid := (s.applyImage_kept v img).same.uid
@[simp] theorem State.applyImage_pending (s : State) (v : Nat) (img : List Byte) : (s.applyImage v img).pending = s.pending := (s.applyImage_kept v img).pending

theorem State.takeBlocks_kept (s : State) (v : Nat) (es : List MirBlock) : Kept { hce := true, pwr := true, out := true, xbr := true, pmu := true, moved := true, rfx := true } s (s.takeBlocks v es) :=
  Kept.takeBlocks _ _ (Kept.refl s) (hHce := rfl) (hPwr := rfl) (hOut := rfl) (hXbr := rfl) (hPmu := rfl) (hMoved := rfl) (hRfx := rfl)
@[simp] theorem State.takeBlocks_rfu (s : State) (v : Nat) (es : List MirBlock) : (s.takeBlocks v es).rfu = s.rfu := (s.takeBlocks_kept v es).only.rfu.resolve_left Bool.false_ne_true
@[simp] theorem State.takeBlocks_rge (s : State) (v : Nat) (es : List MirBlock) : (s.takeBlocks v es).rge = s.rge := (s.takeBlocks_kept v es).only.rge.resolve_left Bool.false_ne_true
@[simp] theorem State.takeBlocks_snt (s : State) (v : Nat) (es : List MirBlock) : (s.takeBlocks v es).snt = s.snt := (s.takeBlocks_kept v es).only.snt.resolve_left Bool.false_ne_true
@[simp] theorem State.takeBlocks_tk (s : State) (v : Nat) (es : List MirBlock) : (s.takeBlocks v es).tk = s.tk := (s.takeBlocks_kept v es).only.tk.resolve_left Bool.false_ne_true
@[simp] theorem State.takeBlocks_vsm (s : State) (v : Nat) (es : List MirBlock) : (s.takeBlocks v es).vsm = s.vsm := (s.takeBlocks_kept v es).only.vsm.resolve_left Bool.false_ne_true
@[simp] theorem State.takeBlocks_kvt (s : State) (v : Nat) (es : List MirBlock) : (s.takeBlocks v es).kvt = s.kvt := (s.takeBlocks_kept v es).only.kvt.resolve_left Bool.false_ne_true
@[simp] theorem State.takeBlocks_mbx (s : State) (v : Nat) (es : List MirBlock) : (s.takeBlocks v es).mbx = s.mbx := (s.takeBlocks_kept v es).only.mbx.resolve_left Bool.false_ne_true
@[simp] theorem State.takeBlocks_bay (s : State) (v : Nat) (es : List MirBlock) : (s.takeBlocks v es).bay = s.bay := (s.takeBlocks_kept v es).only.bay.resolve_left Bool.false_ne_true
@[simp] theorem State.takeBlocks_props (s : State) (v : Nat) (es : List MirBlock) : (s.takeBlocks v es).props = s.props := (s.takeBlocks_kept v es).only.props.resolve_left Bool.false_ne_true
@[simp] theorem State.takeBlocks_ppc (s : State) (v : Nat) (es : List MirBlock) : (s.takeBlocks v es).ppc = s.ppc := (s.takeBlocks_kept v es).only.ppc.resolve_left Bool.false_ne_true
@[simp] theorem State.takeBlocks_sep (s : State) (v : Nat) (es : List MirBlock) : (s.takeBlocks v es).sep = s.sep := (s.takeBlocks_kept v es).only.sep.resolve_left Bool.false_ne_true
@[simp] theorem State.takeBlocks_lcu (s : State) (v : Nat) (es : List MirBlock) : (s.takeBlocks v es).lcu = s.lcu := (s.takeBlocks_kept v es).only.lcu.resolve_left Bool.false_ne_true
@[simp] theorem State.takeBlocks_tst (s : State) (v : Nat) (es : List MirBlock) : (s.takeBlocks v es).tst = s.tst := (s.takeBlocks_kept v es).only.tst.resolve_left Bool.false_ne_true
@[simp] theorem State.takeBlocks_mac (s : State) (v : Nat) (es : List MirBlock) : (s.takeBlocks v es).mac = s.mac := (s.takeBlocks_kept v es).only.mac.resolve_left Bool.false_ne_true
@[simp] theorem State.takeBlocks_now (s : State) (v : Nat) (es : List MirBlock) : (s.takeBlocks v es).now = s.now := (s.takeBlocks_kept v es).same.now
@[simp] theorem State.takeBlocks_part (s : State) (v : Nat) (es : List MirBlock) : (s.takeBlocks v es).part = s.part := (s.takeBlocks_kept v es).same.part
@[simp] theorem State.takeBlocks_slot (s : State) (v : Nat) (es : List MirBlock) : (s.takeBlocks v es).slot = s.slot := (s.takeBlocks_kept v es).same.slot
@[simp] theorem State.takeBlocks_uid (s : State) (v : Nat) (es : List MirBlock) : (s.takeBlocks v es).uid = s.uid := (s.takeBlocks_kept v es).same.uid
@[simp] theorem State.takeBlocks_pending (s : State) (v : Nat) (es : List MirBlock) : (s.takeBlocks v es).pending = s.pending := (s.takeBlocks_kept v es).pending
@[simp] theorem State.takeBlocks_freeCtr (s : State) (v : Nat) (es : List MirBlock) : (s.takeBlocks v es).freeCtr = s.freeCtr := (s.takeBlocks_kept v es).only.free.resolve_left Bool.false_ne_true

theorem State.closeLost_kept (s : State) (id : Nat) : Kept { rfu := true, xbr := true, moved := true, hce := true, kvt := true, out := true, pmu := true, rfx := true } s (s.closeLost id) :=
  Kept.closeLost _ (Kept.refl s) (hRfu := rfl) (hXbr := rfl) (hMoved := rfl) (hHce := rfl) (hKvt := rfl) (hOut := rfl) (hPmu := rfl) (hRfx := rfl)
@[simp] theorem State.closeLost_rge (s : State) (id : Nat) : (s.closeLost id).rge = s.rge := (s.closeLost_kept id).only.rge.resolve_left Bool.false_ne_true
@[simp] theorem State.closeLost_snt (s : State) (id : Nat) : (s.closeLost id).snt = s.snt := (s.closeLost_kept id).only.snt.resolve_left Bool.false_ne_true
@[simp] theorem State.closeLost_tk (s : State) (id : Nat) : (s.closeLost id).tk = s.tk := (s.closeLost_kept id).only.tk.resolve_left Bool.false_ne_true
@[simp] theorem State.closeLost_vsm (s : State) (id : Nat) : (s.closeLost id).vsm = s.vsm := (s.closeLost_kept id).only.vsm.resolve_left Bool.false_ne_true
@[simp] theorem State.closeLost_mbx (s : State) (id : Nat) : (s.closeLost id).mbx = s.mbx := (s.closeLost_kept id).only.mbx.resolve_left Bool.false_ne_true
@[simp] theorem State.closeLost_bay (s : State) (id : Nat) : (s.closeLost id).bay = s.bay := (s.closeLost_kept id).only.bay.resolve_left Bool.false_ne_true
@[simp] theorem State.closeLost_props (s : State) (id : Nat) : (s.closeLost id).props = s.props := (s.closeLost_kept id).only.props.resolve_left Bool.false_ne_true
@[simp] theorem State.closeLost_ppc (s : State) (id : Nat) : (s.closeLost id).ppc = s.ppc := (s.closeLost_kept id).only.ppc.resolve_left Bool.false_ne_true
@[simp] theorem State.closeLost_sep (s : State) (id : Nat) : (s.closeLost id).sep = s.sep := (s.closeLost_kept id).only.sep.resolve_left Bool.false_ne_true
@[simp] theorem State.closeLost_pwr (s : State) (id : Nat) : (s.closeLost id).pwr = s.pwr := (s.closeLost_kept id).only.pwr.resolve_left Bool.false_ne_true
@[simp] theorem State.closeLost_lcu (s : State) (id : Nat) : (s.closeLost id).lcu = s.lcu := (s.closeLost_kept id).only.lcu.resolve_left Bool.false_ne_true
@[simp] theorem State.closeLost_tst (s : State) (id : Nat) : (s.closeLost id).tst = s.tst := (s.closeLost_kept id).only.tst.resolve_left Bool.false_ne_true
@[simp] theorem State.closeLost_mac (s : State) (id : Nat) : (s.closeLost id).mac = s.mac := (s.closeLost_kept id).only.mac.resolve_left Bool.false_ne_true
@[simp] theorem State.closeLost_now (s : State) (id : Nat) : (s.closeLost id).now = s.now := (s.closeLost_kept id).same.now
@[simp] theorem State.closeLost_part (s : State) (id : Nat) : (s.closeLost id).part = s.part := (s.closeLost_kept id).same.part
@[simp] theorem State.closeLost_slot (s : State) (id : Nat) : (s.closeLost id).slot = s.slot := (s.closeLost_kept id).same.slot
@[simp] theorem State.closeLost_uid (s : State) (id : Nat) : (s.closeLost id).uid = s.uid := (s.closeLost_kept id).same.uid
@[simp] theorem State.closeLost_pending (s : State) (id : Nat) : (s.closeLost id).pending = s.pending := (s.closeLost_kept id).pending
@[simp] theorem State.closeLost_freeCtr (s : State) (id : Nat) : (s.closeLost id).freeCtr = s.freeCtr := (s.closeLost_kept id).only.free.resolve_left Bool.false_ne_true

theorem State.endFreeze_kept (s : State) (v : Nat) : Kept { xbr := true, moved := true, hce := true, mbx := true, out := true, vsm := true } s (s.endFreeze v) :=
  Kept.endFreeze _ (Kept.refl s) (hXbr := rfl) (hMoved := rfl) (hHce := rfl) (hMbx := rfl) (hOut := rfl) (hVsm := rfl)
@[simp] theorem State.endFreeze_rfu (s : State) (v : Nat) : (s.endFreeze v).rfu = s.rfu := (s.endFreeze_kept v).only.rfu.resolve_left Bool.false_ne_true
@[simp] theorem State.endFreeze_rge (s : State) (v : Nat) : (s.endFreeze v).rge = s.rge := (s.endFreeze_kept v).only.rge.resolve_left Bool.false_ne_true
@[simp] theorem State.endFreeze_snt (s : State) (v : Nat) : (s.endFreeze v).snt = s.snt := (s.endFreeze_kept v).only.snt.resolve_left Bool.false_ne_true
@[simp] theorem State.endFreeze_rfx (s : State) (v : Nat) : (s.endFreeze v).rfx = s.rfx := (s.endFreeze_kept v).only.rfx.resolve_left Bool.false_ne_true
@[simp] theorem State.endFreeze_tk (s : State) (v : Nat) : (s.endFreeze v).tk = s.tk := (s.endFreeze_kept v).only.tk.resolve_left Bool.false_ne_true
@[simp] theorem State.endFreeze_kvt (s : State) (v : Nat) : (s.endFreeze v).kvt = s.kvt := (s.endFreeze_kept v).only.kvt.resolve_left Bool.false_ne_true
@[simp] theorem State.endFreeze_bay (s : State) (v : Nat) : (s.endFreeze v).bay = s.bay := (s.endFreeze_kept v).only.bay.resolve_left Bool.false_ne_true
@[simp] theorem State.endFreeze_props (s : State) (v : Nat) : (s.endFreeze v).props = s.props := (s.endFreeze_kept v).only.props.resolve_left Bool.false_ne_true
@[simp] theorem State.endFreeze_ppc (s : State) (v : Nat) : (s.endFreeze v).ppc = s.ppc := (s.endFreeze_kept v).only.ppc.resolve_left Bool.false_ne_true
@[simp] theorem State.endFreeze_sep (s : State) (v : Nat) : (s.endFreeze v).sep = s.sep := (s.endFreeze_kept v).only.sep.resolve_left Bool.false_ne_true
@[simp] theorem State.endFreeze_pwr (s : State) (v : Nat) : (s.endFreeze v).pwr = s.pwr := (s.endFreeze_kept v).only.pwr.resolve_left Bool.false_ne_true
@[simp] theorem State.endFreeze_lcu (s : State) (v : Nat) : (s.endFreeze v).lcu = s.lcu := (s.endFreeze_kept v).only.lcu.resolve_left Bool.false_ne_true
@[simp] theorem State.endFreeze_pmu (s : State) (v : Nat) : (s.endFreeze v).pmu = s.pmu := (s.endFreeze_kept v).only.pmu.resolve_left Bool.false_ne_true
@[simp] theorem State.endFreeze_tst (s : State) (v : Nat) : (s.endFreeze v).tst = s.tst := (s.endFreeze_kept v).only.tst.resolve_left Bool.false_ne_true
@[simp] theorem State.endFreeze_mac (s : State) (v : Nat) : (s.endFreeze v).mac = s.mac := (s.endFreeze_kept v).only.mac.resolve_left Bool.false_ne_true
@[simp] theorem State.endFreeze_now (s : State) (v : Nat) : (s.endFreeze v).now = s.now := (s.endFreeze_kept v).same.now
@[simp] theorem State.endFreeze_part (s : State) (v : Nat) : (s.endFreeze v).part = s.part := (s.endFreeze_kept v).same.part
@[simp] theorem State.endFreeze_slot (s : State) (v : Nat) : (s.endFreeze v).slot = s.slot := (s.endFreeze_kept v).same.slot
@[simp] theorem State.endFreeze_uid (s : State) (v : Nat) : (s.endFreeze v).uid = s.uid := (s.endFreeze_kept v).same.uid
@[simp] theorem State.endFreeze_pending (s : State) (v : Nat) : (s.endFreeze v).pending = s.pending := (s.endFreeze_kept v).pending
@[simp] theorem State.endFreeze_freeCtr (s : State) (v : Nat) : (s.endFreeze v).freeCtr = s.freeCtr := (s.endFreeze_kept v).only.free.resolve_left Bool.false_ne_true

theorem State.zeroVsRec_kept (s : State) (v : Nat) : Kept { pmu := true } s (s.zeroVsRec v) :=
  Kept.zeroVsRec _ (Kept.refl s) (hPmu := rfl)
@[simp] theorem State.zeroVsRec_hce (s : State) (v : Nat) : (s.zeroVsRec v).hce = s.hce := (s.zeroVsRec_kept v).only.hce.resolve_left Bool.false_ne_true
@[simp] theorem State.zeroVsRec_rfu (s : State) (v : Nat) : (s.zeroVsRec v).rfu = s.rfu := (s.zeroVsRec_kept v).only.rfu.resolve_left Bool.false_ne_true
@[simp] theorem State.zeroVsRec_rge (s : State) (v : Nat) : (s.zeroVsRec v).rge = s.rge := (s.zeroVsRec_kept v).only.rge.resolve_left Bool.false_ne_true
@[simp] theorem State.zeroVsRec_snt (s : State) (v : Nat) : (s.zeroVsRec v).snt = s.snt := (s.zeroVsRec_kept v).only.snt.resolve_left Bool.false_ne_true
@[simp] theorem State.zeroVsRec_rfx (s : State) (v : Nat) : (s.zeroVsRec v).rfx = s.rfx := (s.zeroVsRec_kept v).only.rfx.resolve_left Bool.false_ne_true
@[simp] theorem State.zeroVsRec_tk (s : State) (v : Nat) : (s.zeroVsRec v).tk = s.tk := (s.zeroVsRec_kept v).only.tk.resolve_left Bool.false_ne_true
@[simp] theorem State.zeroVsRec_vsm (s : State) (v : Nat) : (s.zeroVsRec v).vsm = s.vsm := (s.zeroVsRec_kept v).only.vsm.resolve_left Bool.false_ne_true
@[simp] theorem State.zeroVsRec_kvt (s : State) (v : Nat) : (s.zeroVsRec v).kvt = s.kvt := (s.zeroVsRec_kept v).only.kvt.resolve_left Bool.false_ne_true
@[simp] theorem State.zeroVsRec_mbx (s : State) (v : Nat) : (s.zeroVsRec v).mbx = s.mbx := (s.zeroVsRec_kept v).only.mbx.resolve_left Bool.false_ne_true
@[simp] theorem State.zeroVsRec_bay (s : State) (v : Nat) : (s.zeroVsRec v).bay = s.bay := (s.zeroVsRec_kept v).only.bay.resolve_left Bool.false_ne_true
@[simp] theorem State.zeroVsRec_props (s : State) (v : Nat) : (s.zeroVsRec v).props = s.props := (s.zeroVsRec_kept v).only.props.resolve_left Bool.false_ne_true
@[simp] theorem State.zeroVsRec_ppc (s : State) (v : Nat) : (s.zeroVsRec v).ppc = s.ppc := (s.zeroVsRec_kept v).only.ppc.resolve_left Bool.false_ne_true
@[simp] theorem State.zeroVsRec_xbr (s : State) (v : Nat) : (s.zeroVsRec v).xbr = s.xbr := (s.zeroVsRec_kept v).only.xbr.resolve_left Bool.false_ne_true
@[simp] theorem State.zeroVsRec_sep (s : State) (v : Nat) : (s.zeroVsRec v).sep = s.sep := (s.zeroVsRec_kept v).only.sep.resolve_left Bool.false_ne_true
@[simp] theorem State.zeroVsRec_pwr (s : State) (v : Nat) : (s.zeroVsRec v).pwr = s.pwr := (s.zeroVsRec_kept v).only.pwr.resolve_left Bool.false_ne_true
@[simp] theorem State.zeroVsRec_lcu (s : State) (v : Nat) : (s.zeroVsRec v).lcu = s.lcu := (s.zeroVsRec_kept v).only.lcu.resolve_left Bool.false_ne_true
@[simp] theorem State.zeroVsRec_tst (s : State) (v : Nat) : (s.zeroVsRec v).tst = s.tst := (s.zeroVsRec_kept v).only.tst.resolve_left Bool.false_ne_true
@[simp] theorem State.zeroVsRec_mac (s : State) (v : Nat) : (s.zeroVsRec v).mac = s.mac := (s.zeroVsRec_kept v).only.mac.resolve_left Bool.false_ne_true
@[simp] theorem State.zeroVsRec_now (s : State) (v : Nat) : (s.zeroVsRec v).now = s.now := (s.zeroVsRec_kept v).same.now
@[simp] theorem State.zeroVsRec_part (s : State) (v : Nat) : (s.zeroVsRec v).part = s.part := (s.zeroVsRec_kept v).same.part
@[simp] theorem State.zeroVsRec_slot (s : State) (v : Nat) : (s.zeroVsRec v).slot = s.slot := (s.zeroVsRec_kept v).same.slot
@[simp] theorem State.zeroVsRec_uid (s : State) (v : Nat) : (s.zeroVsRec v).uid = s.uid := (s.zeroVsRec_kept v).same.uid
@[simp] theorem State.zeroVsRec_pending (s : State) (v : Nat) : (s.zeroVsRec v).pending = s.pending := (s.zeroVsRec_kept v).pending
@[simp] theorem State.zeroVsRec_out (s : State) (v : Nat) : (s.zeroVsRec v).out = s.out := (s.zeroVsRec_kept v).only.out.resolve_left Bool.false_ne_true
@[simp] theorem State.zeroVsRec_freeCtr (s : State) (v : Nat) : (s.zeroVsRec v).freeCtr = s.freeCtr := (s.zeroVsRec_kept v).only.free.resolve_left Bool.false_ne_true
@[simp] theorem State.zeroVsRec_reg (s : State) (v : Nat) (k : Nat) : (s.zeroVsRec v).reg k = s.reg k := ((s.zeroVsRec_kept v).only.regs).resolve_left Bool.false_ne_true k (fun h => absurd h Bool.false_ne_true)

theorem State.tlsSent_kept (s : State) (conn : Nat) : Kept { xbr := true, moved := true, free := true, kvt := true, out := true, pmu := true, rfx := true } s (s.tlsSent conn) :=
  Kept.tlsSent _ (Kept.refl s) (hXbr := rfl) (hMoved := rfl) (hFree := rfl) (hKvt := rfl) (hOut := rfl) (hPmu := rfl) (hRfx := rfl)
@[simp] theorem State.tlsSent_hce (s : State) (conn : Nat) : (s.tlsSent conn).hce = s.hce := (s.tlsSent_kept conn).only.hce.resolve_left Bool.false_ne_true
@[simp] theorem State.tlsSent_rfu (s : State) (conn : Nat) : (s.tlsSent conn).rfu = s.rfu := (s.tlsSent_kept conn).only.rfu.resolve_left Bool.false_ne_true
@[simp] theorem State.tlsSent_rge (s : State) (conn : Nat) : (s.tlsSent conn).rge = s.rge := (s.tlsSent_kept conn).only.rge.resolve_left Bool.false_ne_true
@[simp] theorem State.tlsSent_snt (s : State) (conn : Nat) : (s.tlsSent conn).snt = s.snt := (s.tlsSent_kept conn).only.snt.resolve_left Bool.false_ne_true
@[simp] theorem State.tlsSent_tk (s : State) (conn : Nat) : (s.tlsSent conn).tk = s.tk := (s.tlsSent_kept conn).only.tk.resolve_left Bool.false_ne_true
@[simp] theorem State.tlsSent_vsm (s : State) (conn : Nat) : (s.tlsSent conn).vsm = s.vsm := (s.tlsSent_kept conn).only.vsm.resolve_left Bool.false_ne_true
@[simp] theorem State.tlsSent_mbx (s : State) (conn : Nat) : (s.tlsSent conn).mbx = s.mbx := (s.tlsSent_kept conn).only.mbx.resolve_left Bool.false_ne_true
@[simp] theorem State.tlsSent_bay (s : State) (conn : Nat) : (s.tlsSent conn).bay = s.bay := (s.tlsSent_kept conn).only.bay.resolve_left Bool.false_ne_true
@[simp] theorem State.tlsSent_props (s : State) (conn : Nat) : (s.tlsSent conn).props = s.props := (s.tlsSent_kept conn).only.props.resolve_left Bool.false_ne_true
@[simp] theorem State.tlsSent_ppc (s : State) (conn : Nat) : (s.tlsSent conn).ppc = s.ppc := (s.tlsSent_kept conn).only.ppc.resolve_left Bool.false_ne_true
@[simp] theorem State.tlsSent_sep (s : State) (conn : Nat) : (s.tlsSent conn).sep = s.sep := (s.tlsSent_kept conn).only.sep.resolve_left Bool.false_ne_true
@[simp] theorem State.tlsSent_pwr (s : State) (conn : Nat) : (s.tlsSent conn).pwr = s.pwr := (s.tlsSent_kept conn).only.pwr.resolve_left Bool.false_ne_true
@[simp] theorem State.tlsSent_lcu (s : State) (conn : Nat) : (s.tlsSent conn).lcu = s.lcu := (s.tlsSent_kept conn).only.lcu.resolve_left Bool.false_ne_true
@[simp] theorem State.tlsSent_tst (s : State) (conn : Nat) : (s.tlsSent conn).tst = s.tst := (s.tlsSent_kept conn).only.tst.resolve_left Bool.false_ne_true
@[simp] theorem State.tlsSent_mac (s : State) (conn : Nat) : (s.tlsSent conn).mac = s.mac := (s.tlsSent_kept conn).only.mac.resolve_left Bool.false_ne_true
@[simp] theorem State.tlsSent_now (s : State) (conn : Nat) : (s.tlsSent conn).now = s.now := (s.tlsSent_kept conn).same.now
@[simp] theorem State.tlsSent_part (s : State) (conn : Nat) : (s.tlsSent conn).part = s.part := (s.tlsSent_kept conn).same.part
@[simp] theorem State.tlsSent_slot (s : State) (conn : Nat) : (s.tlsSent conn).slot = s.slot := (s.tlsSent_kept conn).same.slot
@[simp] theorem State.tlsSent_uid (s : State) (conn : Nat) : (s.tlsSent conn).uid = s.uid := (s.tlsSent_kept conn).same.uid
@[simp] theorem State.tlsSent_pending (s : State) (conn : Nat) : (s.tlsSent conn).pending = s.pending := (s.tlsSent_kept conn).pending

theorem State.macsecSent_kept (s : State) (p : Nat) : Kept { tk := true, xbr := true, free := true, moved := true, bay := true, mbx := true, sep := true, pmu := true, rge := true, props := true, tst := true, hce := true, lcu := true, kvt := true, out := true, vsm := true, pwr := true, rfx := true } s (s.macsecSent p) :=
  Kept.macsecSent _ (Kept.refl s) (hTk := rfl) (hXbr := rfl) (hFree := rfl) (hMoved := rfl) (hBay := rfl) (hMbx := rfl) (hSep := rfl) (hPmu := rfl) (hRge := rfl) (hProps := rfl) (hTst := rfl) (hHce := rfl) (hLcu := rfl) (hKvt := rfl) (hOut := rfl) (hVsm := rfl) (hPwr := rfl) (hRfx := rfl)
@[simp] theorem State.macsecSent_rfu (s : State) (p : Nat) : (s.macsecSent p).rfu = s.rfu := (s.macsecSent_kept p).only.rfu.resolve_left Bool.false_ne_true
@[simp] theorem State.macsecSent_snt (s : State) (p : Nat) : (s.macsecSent p).snt = s.snt := (s.macsecSent_kept p).only.snt.resolve_left Bool.false_ne_true
@[simp] theorem State.macsecSent_ppc (s : State) (p : Nat) : (s.macsecSent p).ppc = s.ppc := (s.macsecSent_kept p).only.ppc.resolve_left Bool.false_ne_true
@[simp] theorem State.macsecSent_mac (s : State) (p : Nat) : (s.macsecSent p).mac = s.mac := (s.macsecSent_kept p).only.mac.resolve_left Bool.false_ne_true
@[simp] theorem State.macsecSent_now (s : State) (p : Nat) : (s.macsecSent p).now = s.now := (s.macsecSent_kept p).same.now
@[simp] theorem State.macsecSent_part (s : State) (p : Nat) : (s.macsecSent p).part = s.part := (s.macsecSent_kept p).same.part
@[simp] theorem State.macsecSent_slot (s : State) (p : Nat) : (s.macsecSent p).slot = s.slot := (s.macsecSent_kept p).same.slot
@[simp] theorem State.macsecSent_uid (s : State) (p : Nat) : (s.macsecSent p).uid = s.uid := (s.macsecSent_kept p).same.uid
@[simp] theorem State.macsecSent_pending (s : State) (p : Nat) : (s.macsecSent p).pending = s.pending := (s.macsecSent_kept p).pending

theorem State.pfcJudge_kept (s : State) (port : Nat) (cls : Nat) : Kept { out := true, xbr := true } s (s.pfcJudge port cls) :=
  Kept.pfcJudge _ _ (Kept.refl s) (hOut := rfl) (hXbr := rfl)
@[simp] theorem State.pfcJudge_hce (s : State) (port : Nat) (cls : Nat) : (s.pfcJudge port cls).hce = s.hce := (s.pfcJudge_kept port cls).only.hce.resolve_left Bool.false_ne_true
@[simp] theorem State.pfcJudge_rfu (s : State) (port : Nat) (cls : Nat) : (s.pfcJudge port cls).rfu = s.rfu := (s.pfcJudge_kept port cls).only.rfu.resolve_left Bool.false_ne_true
@[simp] theorem State.pfcJudge_rge (s : State) (port : Nat) (cls : Nat) : (s.pfcJudge port cls).rge = s.rge := (s.pfcJudge_kept port cls).only.rge.resolve_left Bool.false_ne_true
@[simp] theorem State.pfcJudge_snt (s : State) (port : Nat) (cls : Nat) : (s.pfcJudge port cls).snt = s.snt := (s.pfcJudge_kept port cls).only.snt.resolve_left Bool.false_ne_true
@[simp] theorem State.pfcJudge_rfx (s : State) (port : Nat) (cls : Nat) : (s.pfcJudge port cls).rfx = s.rfx := (s.pfcJudge_kept port cls).only.rfx.resolve_left Bool.false_ne_true
@[simp] theorem State.pfcJudge_tk (s : State) (port : Nat) (cls : Nat) : (s.pfcJudge port cls).tk = s.tk := (s.pfcJudge_kept port cls).only.tk.resolve_left Bool.false_ne_true
@[simp] theorem State.pfcJudge_vsm (s : State) (port : Nat) (cls : Nat) : (s.pfcJudge port cls).vsm = s.vsm := (s.pfcJudge_kept port cls).only.vsm.resolve_left Bool.false_ne_true
@[simp] theorem State.pfcJudge_kvt (s : State) (port : Nat) (cls : Nat) : (s.pfcJudge port cls).kvt = s.kvt := (s.pfcJudge_kept port cls).only.kvt.resolve_left Bool.false_ne_true
@[simp] theorem State.pfcJudge_mbx (s : State) (port : Nat) (cls : Nat) : (s.pfcJudge port cls).mbx = s.mbx := (s.pfcJudge_kept port cls).only.mbx.resolve_left Bool.false_ne_true
@[simp] theorem State.pfcJudge_bay (s : State) (port : Nat) (cls : Nat) : (s.pfcJudge port cls).bay = s.bay := (s.pfcJudge_kept port cls).only.bay.resolve_left Bool.false_ne_true
@[simp] theorem State.pfcJudge_props (s : State) (port : Nat) (cls : Nat) : (s.pfcJudge port cls).props = s.props := (s.pfcJudge_kept port cls).only.props.resolve_left Bool.false_ne_true
@[simp] theorem State.pfcJudge_ppc (s : State) (port : Nat) (cls : Nat) : (s.pfcJudge port cls).ppc = s.ppc := (s.pfcJudge_kept port cls).only.ppc.resolve_left Bool.false_ne_true
@[simp] theorem State.pfcJudge_sep (s : State) (port : Nat) (cls : Nat) : (s.pfcJudge port cls).sep = s.sep := (s.pfcJudge_kept port cls).only.sep.resolve_left Bool.false_ne_true
@[simp] theorem State.pfcJudge_pwr (s : State) (port : Nat) (cls : Nat) : (s.pfcJudge port cls).pwr = s.pwr := (s.pfcJudge_kept port cls).only.pwr.resolve_left Bool.false_ne_true
@[simp] theorem State.pfcJudge_lcu (s : State) (port : Nat) (cls : Nat) : (s.pfcJudge port cls).lcu = s.lcu := (s.pfcJudge_kept port cls).only.lcu.resolve_left Bool.false_ne_true
@[simp] theorem State.pfcJudge_pmu (s : State) (port : Nat) (cls : Nat) : (s.pfcJudge port cls).pmu = s.pmu := (s.pfcJudge_kept port cls).only.pmu.resolve_left Bool.false_ne_true
@[simp] theorem State.pfcJudge_tst (s : State) (port : Nat) (cls : Nat) : (s.pfcJudge port cls).tst = s.tst := (s.pfcJudge_kept port cls).only.tst.resolve_left Bool.false_ne_true
@[simp] theorem State.pfcJudge_mac (s : State) (port : Nat) (cls : Nat) : (s.pfcJudge port cls).mac = s.mac := (s.pfcJudge_kept port cls).only.mac.resolve_left Bool.false_ne_true
@[simp] theorem State.pfcJudge_now (s : State) (port : Nat) (cls : Nat) : (s.pfcJudge port cls).now = s.now := (s.pfcJudge_kept port cls).same.now
@[simp] theorem State.pfcJudge_part (s : State) (port : Nat) (cls : Nat) : (s.pfcJudge port cls).part = s.part := (s.pfcJudge_kept port cls).same.part
@[simp] theorem State.pfcJudge_slot (s : State) (port : Nat) (cls : Nat) : (s.pfcJudge port cls).slot = s.slot := (s.pfcJudge_kept port cls).same.slot
@[simp] theorem State.pfcJudge_uid (s : State) (port : Nat) (cls : Nat) : (s.pfcJudge port cls).uid = s.uid := (s.pfcJudge_kept port cls).same.uid
@[simp] theorem State.pfcJudge_pending (s : State) (port : Nat) (cls : Nat) : (s.pfcJudge port cls).pending = s.pending := (s.pfcJudge_kept port cls).pending
@[simp] theorem State.pfcJudge_freeCtr (s : State) (port : Nat) (cls : Nat) : (s.pfcJudge port cls).freeCtr = s.freeCtr := (s.pfcJudge_kept port cls).only.free.resolve_left Bool.false_ne_true
@[simp] theorem State.pfcJudge_reg (s : State) (port : Nat) (cls : Nat) (k : Nat) : (s.pfcJudge port cls).reg k = s.reg k := ((s.pfcJudge_kept port cls).only.regs).resolve_left Bool.false_ne_true k (fun h => absurd h Bool.false_ne_true)

theorem State.tlsReceived_kept (s : State) (conn : Nat) : Kept { rfu := true, xbr := true, moved := true, hce := true, kvt := true, out := true, pmu := true, rfx := true } s (s.tlsReceived conn) :=
  Kept.tlsReceived _ (Kept.refl s) (hRfu := rfl) (hXbr := rfl) (hMoved := rfl) (hHce := rfl) (hKvt := rfl) (hOut := rfl) (hPmu := rfl) (hRfx := rfl)
@[simp] theorem State.tlsReceived_rge (s : State) (conn : Nat) : (s.tlsReceived conn).rge = s.rge := (s.tlsReceived_kept conn).only.rge.resolve_left Bool.false_ne_true
@[simp] theorem State.tlsReceived_snt (s : State) (conn : Nat) : (s.tlsReceived conn).snt = s.snt := (s.tlsReceived_kept conn).only.snt.resolve_left Bool.false_ne_true
@[simp] theorem State.tlsReceived_tk (s : State) (conn : Nat) : (s.tlsReceived conn).tk = s.tk := (s.tlsReceived_kept conn).only.tk.resolve_left Bool.false_ne_true
@[simp] theorem State.tlsReceived_vsm (s : State) (conn : Nat) : (s.tlsReceived conn).vsm = s.vsm := (s.tlsReceived_kept conn).only.vsm.resolve_left Bool.false_ne_true
@[simp] theorem State.tlsReceived_mbx (s : State) (conn : Nat) : (s.tlsReceived conn).mbx = s.mbx := (s.tlsReceived_kept conn).only.mbx.resolve_left Bool.false_ne_true
@[simp] theorem State.tlsReceived_bay (s : State) (conn : Nat) : (s.tlsReceived conn).bay = s.bay := (s.tlsReceived_kept conn).only.bay.resolve_left Bool.false_ne_true
@[simp] theorem State.tlsReceived_props (s : State) (conn : Nat) : (s.tlsReceived conn).props = s.props := (s.tlsReceived_kept conn).only.props.resolve_left Bool.false_ne_true
@[simp] theorem State.tlsReceived_ppc (s : State) (conn : Nat) : (s.tlsReceived conn).ppc = s.ppc := (s.tlsReceived_kept conn).only.ppc.resolve_left Bool.false_ne_true
@[simp] theorem State.tlsReceived_sep (s : State) (conn : Nat) : (s.tlsReceived conn).sep = s.sep := (s.tlsReceived_kept conn).only.sep.resolve_left Bool.false_ne_true
@[simp] theorem State.tlsReceived_pwr (s : State) (conn : Nat) : (s.tlsReceived conn).pwr = s.pwr := (s.tlsReceived_kept conn).only.pwr.resolve_left Bool.false_ne_true
@[simp] theorem State.tlsReceived_lcu (s : State) (conn : Nat) : (s.tlsReceived conn).lcu = s.lcu := (s.tlsReceived_kept conn).only.lcu.resolve_left Bool.false_ne_true
@[simp] theorem State.tlsReceived_tst (s : State) (conn : Nat) : (s.tlsReceived conn).tst = s.tst := (s.tlsReceived_kept conn).only.tst.resolve_left Bool.false_ne_true
@[simp] theorem State.tlsReceived_mac (s : State) (conn : Nat) : (s.tlsReceived conn).mac = s.mac := (s.tlsReceived_kept conn).only.mac.resolve_left Bool.false_ne_true
@[simp] theorem State.tlsReceived_now (s : State) (conn : Nat) : (s.tlsReceived conn).now = s.now := (s.tlsReceived_kept conn).same.now
@[simp] theorem State.tlsReceived_part (s : State) (conn : Nat) : (s.tlsReceived conn).part = s.part := (s.tlsReceived_kept conn).same.part
@[simp] theorem State.tlsReceived_slot (s : State) (conn : Nat) : (s.tlsReceived conn).slot = s.slot := (s.tlsReceived_kept conn).same.slot
@[simp] theorem State.tlsReceived_uid (s : State) (conn : Nat) : (s.tlsReceived conn).uid = s.uid := (s.tlsReceived_kept conn).same.uid
@[simp] theorem State.tlsReceived_pending (s : State) (conn : Nat) : (s.tlsReceived conn).pending = s.pending := (s.tlsReceived_kept conn).pending
@[simp] theorem State.tlsReceived_freeCtr (s : State) (conn : Nat) : (s.tlsReceived conn).freeCtr = s.freeCtr := (s.tlsReceived_kept conn).only.free.resolve_left Bool.false_ne_true

theorem State.tlsBad_kept (s : State) (conn : Nat) : Kept { rfu := true, xbr := true, moved := true, hce := true, kvt := true, out := true, pmu := true, rfx := true } s (s.tlsBad conn) :=
  Kept.tlsBad _ (Kept.refl s) (hRfu := rfl) (hXbr := rfl) (hMoved := rfl) (hHce := rfl) (hKvt := rfl) (hOut := rfl) (hPmu := rfl) (hRfx := rfl)
@[simp] theorem State.tlsBad_rge (s : State) (conn : Nat) : (s.tlsBad conn).rge = s.rge := (s.tlsBad_kept conn).only.rge.resolve_left Bool.false_ne_true
@[simp] theorem State.tlsBad_snt (s : State) (conn : Nat) : (s.tlsBad conn).snt = s.snt := (s.tlsBad_kept conn).only.snt.resolve_left Bool.false_ne_true
@[simp] theorem State.tlsBad_tk (s : State) (conn : Nat) : (s.tlsBad conn).tk = s.tk := (s.tlsBad_kept conn).only.tk.resolve_left Bool.false_ne_true
@[simp] theorem State.tlsBad_vsm (s : State) (conn : Nat) : (s.tlsBad conn).vsm = s.vsm := (s.tlsBad_kept conn).only.vsm.resolve_left Bool.false_ne_true
@[simp] theorem State.tlsBad_mbx (s : State) (conn : Nat) : (s.tlsBad conn).mbx = s.mbx := (s.tlsBad_kept conn).only.mbx.resolve_left Bool.false_ne_true
@[simp] theorem State.tlsBad_bay (s : State) (conn : Nat) : (s.tlsBad conn).bay = s.bay := (s.tlsBad_kept conn).only.bay.resolve_left Bool.false_ne_true
@[simp] theorem State.tlsBad_props (s : State) (conn : Nat) : (s.tlsBad conn).props = s.props := (s.tlsBad_kept conn).only.props.resolve_left Bool.false_ne_true
@[simp] theorem State.tlsBad_ppc (s : State) (conn : Nat) : (s.tlsBad conn).ppc = s.ppc := (s.tlsBad_kept conn).only.ppc.resolve_left Bool.false_ne_true
@[simp] theorem State.tlsBad_sep (s : State) (conn : Nat) : (s.tlsBad conn).sep = s.sep := (s.tlsBad_kept conn).only.sep.resolve_left Bool.false_ne_true
@[simp] theorem State.tlsBad_pwr (s : State) (conn : Nat) : (s.tlsBad conn).pwr = s.pwr := (s.tlsBad_kept conn).only.pwr.resolve_left Bool.false_ne_true
@[simp] theorem State.tlsBad_lcu (s : State) (conn : Nat) : (s.tlsBad conn).lcu = s.lcu := (s.tlsBad_kept conn).only.lcu.resolve_left Bool.false_ne_true
@[simp] theorem State.tlsBad_tst (s : State) (conn : Nat) : (s.tlsBad conn).tst = s.tst := (s.tlsBad_kept conn).only.tst.resolve_left Bool.false_ne_true
@[simp] theorem State.tlsBad_mac (s : State) (conn : Nat) : (s.tlsBad conn).mac = s.mac := (s.tlsBad_kept conn).only.mac.resolve_left Bool.false_ne_true
@[simp] theorem State.tlsBad_now (s : State) (conn : Nat) : (s.tlsBad conn).now = s.now := (s.tlsBad_kept conn).same.now
@[simp] theorem State.tlsBad_part (s : State) (conn : Nat) : (s.tlsBad conn).part = s.part := (s.tlsBad_kept conn).same.part
@[simp] theorem State.tlsBad_slot (s : State) (conn : Nat) : (s.tlsBad conn).slot = s.slot := (s.tlsBad_kept conn).same.slot
@[simp] theorem State.tlsBad_uid (s : State) (conn : Nat) : (s.tlsBad conn).uid = s.uid := (s.tlsBad_kept conn).same.uid
@[simp] theorem State.tlsBad_pending (s : State) (conn : Nat) : (s.tlsBad conn).pending = s.pending := (s.tlsBad_kept conn).pending
@[simp] theorem State.tlsBad_freeCtr (s : State) (conn : Nat) : (s.tlsBad conn).freeCtr = s.freeCtr := (s.tlsBad_kept conn).only.free.resolve_left Bool.false_ne_true

theorem State.endPause_kept (s : State) (port : Nat) (cls : Nat) : Kept { xbr := true, pmu := true, moved := true } s (s.endPause port cls) :=
  Kept.endPause _ _ (Kept.refl s) (hXbr := rfl) (hPmu := rfl) (hMoved := rfl)
@[simp] theorem State.endPause_hce (s : State) (port : Nat) (cls : Nat) : (s.endPause port cls).hce = s.hce := (s.endPause_kept port cls).only.hce.resolve_left Bool.false_ne_true
@[simp] theorem State.endPause_rfu (s : State) (port : Nat) (cls : Nat) : (s.endPause port cls).rfu = s.rfu := (s.endPause_kept port cls).only.rfu.resolve_left Bool.false_ne_true
@[simp] theorem State.endPause_rge (s : State) (port : Nat) (cls : Nat) : (s.endPause port cls).rge = s.rge := (s.endPause_kept port cls).only.rge.resolve_left Bool.false_ne_true
@[simp] theorem State.endPause_snt (s : State) (port : Nat) (cls : Nat) : (s.endPause port cls).snt = s.snt := (s.endPause_kept port cls).only.snt.resolve_left Bool.false_ne_true
@[simp] theorem State.endPause_rfx (s : State) (port : Nat) (cls : Nat) : (s.endPause port cls).rfx = s.rfx := (s.endPause_kept port cls).only.rfx.resolve_left Bool.false_ne_true
@[simp] theorem State.endPause_tk (s : State) (port : Nat) (cls : Nat) : (s.endPause port cls).tk = s.tk := (s.endPause_kept port cls).only.tk.resolve_left Bool.false_ne_true
@[simp] theorem State.endPause_vsm (s : State) (port : Nat) (cls : Nat) : (s.endPause port cls).vsm = s.vsm := (s.endPause_kept port cls).only.vsm.resolve_left Bool.false_ne_true
@[simp] theorem State.endPause_kvt (s : State) (port : Nat) (cls : Nat) : (s.endPause port cls).kvt = s.kvt := (s.endPause_kept port cls).only.kvt.resolve_left Bool.false_ne_true
@[simp] theorem State.endPause_mbx (s : State) (port : Nat) (cls : Nat) : (s.endPause port cls).mbx = s.mbx := (s.endPause_kept port cls).only.mbx.resolve_left Bool.false_ne_true
@[simp] theorem State.endPause_bay (s : State) (port : Nat) (cls : Nat) : (s.endPause port cls).bay = s.bay := (s.endPause_kept port cls).only.bay.resolve_left Bool.false_ne_true
@[simp] theorem State.endPause_props (s : State) (port : Nat) (cls : Nat) : (s.endPause port cls).props = s.props := (s.endPause_kept port cls).only.props.resolve_left Bool.false_ne_true
@[simp] theorem State.endPause_ppc (s : State) (port : Nat) (cls : Nat) : (s.endPause port cls).ppc = s.ppc := (s.endPause_kept port cls).only.ppc.resolve_left Bool.false_ne_true
@[simp] theorem State.endPause_sep (s : State) (port : Nat) (cls : Nat) : (s.endPause port cls).sep = s.sep := (s.endPause_kept port cls).only.sep.resolve_left Bool.false_ne_true
@[simp] theorem State.endPause_pwr (s : State) (port : Nat) (cls : Nat) : (s.endPause port cls).pwr = s.pwr := (s.endPause_kept port cls).only.pwr.resolve_left Bool.false_ne_true
@[simp] theorem State.endPause_lcu (s : State) (port : Nat) (cls : Nat) : (s.endPause port cls).lcu = s.lcu := (s.endPause_kept port cls).only.lcu.resolve_left Bool.false_ne_true
@[simp] theorem State.endPause_tst (s : State) (port : Nat) (cls : Nat) : (s.endPause port cls).tst = s.tst := (s.endPause_kept port cls).only.tst.resolve_left Bool.false_ne_true
@[simp] theorem State.endPause_mac (s : State) (port : Nat) (cls : Nat) : (s.endPause port cls).mac = s.mac := (s.endPause_kept port cls).only.mac.resolve_left Bool.false_ne_true
@[simp] theorem State.endPause_now (s : State) (port : Nat) (cls : Nat) : (s.endPause port cls).now = s.now := (s.endPause_kept port cls).same.now
@[simp] theorem State.endPause_part (s : State) (port : Nat) (cls : Nat) : (s.endPause port cls).part = s.part := (s.endPause_kept port cls).same.part
@[simp] theorem State.endPause_slot (s : State) (port : Nat) (cls : Nat) : (s.endPause port cls).slot = s.slot := (s.endPause_kept port cls).same.slot
@[simp] theorem State.endPause_uid (s : State) (port : Nat) (cls : Nat) : (s.endPause port cls).uid = s.uid := (s.endPause_kept port cls).same.uid
@[simp] theorem State.endPause_pending (s : State) (port : Nat) (cls : Nat) : (s.endPause port cls).pending = s.pending := (s.endPause_kept port cls).pending
@[simp] theorem State.endPause_out (s : State) (port : Nat) (cls : Nat) : (s.endPause port cls).out = s.out := (s.endPause_kept port cls).only.out.resolve_left Bool.false_ne_true
@[simp] theorem State.endPause_freeCtr (s : State) (port : Nat) (cls : Nat) : (s.endPause port cls).freeCtr = s.freeCtr := (s.endPause_kept port cls).only.free.resolve_left Bool.false_ne_true

theorem State.onePass_kept (s : State) (i : PassInfo) (bs : List Byte) (icls : Nat) (len : Nat) (policed : Bool) (yellow : Bool) (icrcOk : Bool) : Kept { rfu := true, xbr := true, moved := true, hce := true, ppc := true, kvt := true, out := true, pmu := true, rfx := true } s (s.onePass i bs icls len policed yellow icrcOk) :=
  Kept.onePass _ _ _ _ _ _ _ (Kept.refl s) (hRfu := rfl) (hXbr := rfl) (hMoved := rfl) (hHce := rfl) (hPpc := rfl) (hKvt := rfl) (hOut := rfl) (hPmu := rfl) (hRfx := rfl)
@[simp] theorem State.onePass_rge (s : State) (i : PassInfo) (bs : List Byte) (icls : Nat) (len : Nat) (policed : Bool) (yellow : Bool) (icrcOk : Bool) : (s.onePass i bs icls len policed yellow icrcOk).rge = s.rge := (s.onePass_kept i bs icls len policed yellow icrcOk).only.rge.resolve_left Bool.false_ne_true
@[simp] theorem State.onePass_snt (s : State) (i : PassInfo) (bs : List Byte) (icls : Nat) (len : Nat) (policed : Bool) (yellow : Bool) (icrcOk : Bool) : (s.onePass i bs icls len policed yellow icrcOk).snt = s.snt := (s.onePass_kept i bs icls len policed yellow icrcOk).only.snt.resolve_left Bool.false_ne_true
@[simp] theorem State.onePass_tk (s : State) (i : PassInfo) (bs : List Byte) (icls : Nat) (len : Nat) (policed : Bool) (yellow : Bool) (icrcOk : Bool) : (s.onePass i bs icls len policed yellow icrcOk).tk = s.tk := (s.onePass_kept i bs icls len policed yellow icrcOk).only.tk.resolve_left Bool.false_ne_true
@[simp] theorem State.onePass_vsm (s : State) (i : PassInfo) (bs : List Byte) (icls : Nat) (len : Nat) (policed : Bool) (yellow : Bool) (icrcOk : Bool) : (s.onePass i bs icls len policed yellow icrcOk).vsm = s.vsm := (s.onePass_kept i bs icls len policed yellow icrcOk).only.vsm.resolve_left Bool.false_ne_true
@[simp] theorem State.onePass_mbx (s : State) (i : PassInfo) (bs : List Byte) (icls : Nat) (len : Nat) (policed : Bool) (yellow : Bool) (icrcOk : Bool) : (s.onePass i bs icls len policed yellow icrcOk).mbx = s.mbx := (s.onePass_kept i bs icls len policed yellow icrcOk).only.mbx.resolve_left Bool.false_ne_true
@[simp] theorem State.onePass_bay (s : State) (i : PassInfo) (bs : List Byte) (icls : Nat) (len : Nat) (policed : Bool) (yellow : Bool) (icrcOk : Bool) : (s.onePass i bs icls len policed yellow icrcOk).bay = s.bay := (s.onePass_kept i bs icls len policed yellow icrcOk).only.bay.resolve_left Bool.false_ne_true
@[simp] theorem State.onePass_props (s : State) (i : PassInfo) (bs : List Byte) (icls : Nat) (len : Nat) (policed : Bool) (yellow : Bool) (icrcOk : Bool) : (s.onePass i bs icls len policed yellow icrcOk).props = s.props := (s.onePass_kept i bs icls len policed yellow icrcOk).only.props.resolve_left Bool.false_ne_true
@[simp] theorem State.onePass_sep (s : State) (i : PassInfo) (bs : List Byte) (icls : Nat) (len : Nat) (policed : Bool) (yellow : Bool) (icrcOk : Bool) : (s.onePass i bs icls len policed yellow icrcOk).sep = s.sep := (s.onePass_kept i bs icls len policed yellow icrcOk).only.sep.resolve_left Bool.false_ne_true
@[simp] theorem State.onePass_pwr (s : State) (i : PassInfo) (bs : List Byte) (icls : Nat) (len : Nat) (policed : Bool) (yellow : Bool) (icrcOk : Bool) : (s.onePass i bs icls len policed yellow icrcOk).pwr = s.pwr := (s.onePass_kept i bs icls len policed yellow icrcOk).only.pwr.resolve_left Bool.false_ne_true
@[simp] theorem State.onePass_lcu (s : State) (i : PassInfo) (bs : List Byte) (icls : Nat) (len : Nat) (policed : Bool) (yellow : Bool) (icrcOk : Bool) : (s.onePass i bs icls len policed yellow icrcOk).lcu = s.lcu := (s.onePass_kept i bs icls len policed yellow icrcOk).only.lcu.resolve_left Bool.false_ne_true
@[simp] theorem State.onePass_tst (s : State) (i : PassInfo) (bs : List Byte) (icls : Nat) (len : Nat) (policed : Bool) (yellow : Bool) (icrcOk : Bool) : (s.onePass i bs icls len policed yellow icrcOk).tst = s.tst := (s.onePass_kept i bs icls len policed yellow icrcOk).only.tst.resolve_left Bool.false_ne_true
@[simp] theorem State.onePass_mac (s : State) (i : PassInfo) (bs : List Byte) (icls : Nat) (len : Nat) (policed : Bool) (yellow : Bool) (icrcOk : Bool) : (s.onePass i bs icls len policed yellow icrcOk).mac = s.mac := (s.onePass_kept i bs icls len policed yellow icrcOk).only.mac.resolve_left Bool.false_ne_true
@[simp] theorem State.onePass_now (s : State) (i : PassInfo) (bs : List Byte) (icls : Nat) (len : Nat) (policed : Bool) (yellow : Bool) (icrcOk : Bool) : (s.onePass i bs icls len policed yellow icrcOk).now = s.now := (s.onePass_kept i bs icls len policed yellow icrcOk).same.now
@[simp] theorem State.onePass_part (s : State) (i : PassInfo) (bs : List Byte) (icls : Nat) (len : Nat) (policed : Bool) (yellow : Bool) (icrcOk : Bool) : (s.onePass i bs icls len policed yellow icrcOk).part = s.part := (s.onePass_kept i bs icls len policed yellow icrcOk).same.part
@[simp] theorem State.onePass_slot (s : State) (i : PassInfo) (bs : List Byte) (icls : Nat) (len : Nat) (policed : Bool) (yellow : Bool) (icrcOk : Bool) : (s.onePass i bs icls len policed yellow icrcOk).slot = s.slot := (s.onePass_kept i bs icls len policed yellow icrcOk).same.slot
@[simp] theorem State.onePass_uid (s : State) (i : PassInfo) (bs : List Byte) (icls : Nat) (len : Nat) (policed : Bool) (yellow : Bool) (icrcOk : Bool) : (s.onePass i bs icls len policed yellow icrcOk).uid = s.uid := (s.onePass_kept i bs icls len policed yellow icrcOk).same.uid
@[simp] theorem State.onePass_pending (s : State) (i : PassInfo) (bs : List Byte) (icls : Nat) (len : Nat) (policed : Bool) (yellow : Bool) (icrcOk : Bool) : (s.onePass i bs icls len policed yellow icrcOk).pending = s.pending := (s.onePass_kept i bs icls len policed yellow icrcOk).pending
@[simp] theorem State.onePass_freeCtr (s : State) (i : PassInfo) (bs : List Byte) (icls : Nat) (len : Nat) (policed : Bool) (yellow : Bool) (icrcOk : Bool) : (s.onePass i bs icls len policed yellow icrcOk).freeCtr = s.freeCtr := (s.onePass_kept i bs icls len policed yellow icrcOk).only.free.resolve_left Bool.false_ne_true

theorem State.fillSlot_kept (s : State) (slot : Nat) (typ : Nat) (gen : Nat) (material : Nat) (ident : List Byte) : Kept { kvt := true, out := true, xbr := true, pmu := true, moved := true, rfx := true } s (s.fillSlot slot typ gen material ident) :=
  Kept.fillSlot _ _ _ _ _ (Kept.refl s) (hKvt := rfl) (hOut := rfl) (hXbr := rfl) (hPmu := rfl) (hMoved := rfl) (hRfx := rfl)
@[simp] theorem State.fillSlot_hce (s : State) (slot : Nat) (typ : Nat) (gen : Nat) (material : Nat) (ident : List Byte) : (s.fillSlot slot typ gen material ident).hce = s.hce := (s.fillSlot_kept slot typ gen material ident).only.hce.resolve_left Bool.false_ne_true
@[simp] theorem State.fillSlot_rfu (s : State) (slot : Nat) (typ : Nat) (gen : Nat) (material : Nat) (ident : List Byte) : (s.fillSlot slot typ gen material ident).rfu = s.rfu := (s.fillSlot_kept slot typ gen material ident).only.rfu.resolve_left Bool.false_ne_true
@[simp] theorem State.fillSlot_rge (s : State) (slot : Nat) (typ : Nat) (gen : Nat) (material : Nat) (ident : List Byte) : (s.fillSlot slot typ gen material ident).rge = s.rge := (s.fillSlot_kept slot typ gen material ident).only.rge.resolve_left Bool.false_ne_true
@[simp] theorem State.fillSlot_snt (s : State) (slot : Nat) (typ : Nat) (gen : Nat) (material : Nat) (ident : List Byte) : (s.fillSlot slot typ gen material ident).snt = s.snt := (s.fillSlot_kept slot typ gen material ident).only.snt.resolve_left Bool.false_ne_true
@[simp] theorem State.fillSlot_tk (s : State) (slot : Nat) (typ : Nat) (gen : Nat) (material : Nat) (ident : List Byte) : (s.fillSlot slot typ gen material ident).tk = s.tk := (s.fillSlot_kept slot typ gen material ident).only.tk.resolve_left Bool.false_ne_true
@[simp] theorem State.fillSlot_vsm (s : State) (slot : Nat) (typ : Nat) (gen : Nat) (material : Nat) (ident : List Byte) : (s.fillSlot slot typ gen material ident).vsm = s.vsm := (s.fillSlot_kept slot typ gen material ident).only.vsm.resolve_left Bool.false_ne_true
@[simp] theorem State.fillSlot_mbx (s : State) (slot : Nat) (typ : Nat) (gen : Nat) (material : Nat) (ident : List Byte) : (s.fillSlot slot typ gen material ident).mbx = s.mbx := (s.fillSlot_kept slot typ gen material ident).only.mbx.resolve_left Bool.false_ne_true
@[simp] theorem State.fillSlot_bay (s : State) (slot : Nat) (typ : Nat) (gen : Nat) (material : Nat) (ident : List Byte) : (s.fillSlot slot typ gen material ident).bay = s.bay := (s.fillSlot_kept slot typ gen material ident).only.bay.resolve_left Bool.false_ne_true
@[simp] theorem State.fillSlot_props (s : State) (slot : Nat) (typ : Nat) (gen : Nat) (material : Nat) (ident : List Byte) : (s.fillSlot slot typ gen material ident).props = s.props := (s.fillSlot_kept slot typ gen material ident).only.props.resolve_left Bool.false_ne_true
@[simp] theorem State.fillSlot_ppc (s : State) (slot : Nat) (typ : Nat) (gen : Nat) (material : Nat) (ident : List Byte) : (s.fillSlot slot typ gen material ident).ppc = s.ppc := (s.fillSlot_kept slot typ gen material ident).only.ppc.resolve_left Bool.false_ne_true
@[simp] theorem State.fillSlot_sep (s : State) (slot : Nat) (typ : Nat) (gen : Nat) (material : Nat) (ident : List Byte) : (s.fillSlot slot typ gen material ident).sep = s.sep := (s.fillSlot_kept slot typ gen material ident).only.sep.resolve_left Bool.false_ne_true
@[simp] theorem State.fillSlot_pwr (s : State) (slot : Nat) (typ : Nat) (gen : Nat) (material : Nat) (ident : List Byte) : (s.fillSlot slot typ gen material ident).pwr = s.pwr := (s.fillSlot_kept slot typ gen material ident).only.pwr.resolve_left Bool.false_ne_true
@[simp] theorem State.fillSlot_lcu (s : State) (slot : Nat) (typ : Nat) (gen : Nat) (material : Nat) (ident : List Byte) : (s.fillSlot slot typ gen material ident).lcu = s.lcu := (s.fillSlot_kept slot typ gen material ident).only.lcu.resolve_left Bool.false_ne_true
@[simp] theorem State.fillSlot_tst (s : State) (slot : Nat) (typ : Nat) (gen : Nat) (material : Nat) (ident : List Byte) : (s.fillSlot slot typ gen material ident).tst = s.tst := (s.fillSlot_kept slot typ gen material ident).only.tst.resolve_left Bool.false_ne_true
@[simp] theorem State.fillSlot_mac (s : State) (slot : Nat) (typ : Nat) (gen : Nat) (material : Nat) (ident : List Byte) : (s.fillSlot slot typ gen material ident).mac = s.mac := (s.fillSlot_kept slot typ gen material ident).only.mac.resolve_left Bool.false_ne_true
@[simp] theorem State.fillSlot_now (s : State) (slot : Nat) (typ : Nat) (gen : Nat) (material : Nat) (ident : List Byte) : (s.fillSlot slot typ gen material ident).now = s.now := (s.fillSlot_kept slot typ gen material ident).same.now
@[simp] theorem State.fillSlot_part (s : State) (slot : Nat) (typ : Nat) (gen : Nat) (material : Nat) (ident : List Byte) : (s.fillSlot slot typ gen material ident).part = s.part := (s.fillSlot_kept slot typ gen material ident).same.part
@[simp] theorem State.fillSlot_slot (s : State) (slot : Nat) (typ : Nat) (gen : Nat) (material : Nat) (ident : List Byte) : (s.fillSlot slot typ gen material ident).slot = s.slot := (s.fillSlot_kept slot typ gen material ident).same.slot
@[simp] theorem State.fillSlot_uid (s : State) (slot : Nat) (typ : Nat) (gen : Nat) (material : Nat) (ident : List Byte) : (s.fillSlot slot typ gen material ident).uid = s.uid := (s.fillSlot_kept slot typ gen material ident).same.uid
@[simp] theorem State.fillSlot_pending (s : State) (slot : Nat) (typ : Nat) (gen : Nat) (material : Nat) (ident : List Byte) : (s.fillSlot slot typ gen material ident).pending = s.pending := (s.fillSlot_kept slot typ gen material ident).pending
@[simp] theorem State.fillSlot_freeCtr (s : State) (slot : Nat) (typ : Nat) (gen : Nat) (material : Nat) (ident : List Byte) : (s.fillSlot slot typ gen material ident).freeCtr = s.freeCtr := (s.fillSlot_kept slot typ gen material ident).only.free.resolve_left Bool.false_ne_true

theorem State.emptySlot_kept (s : State) (slot : Nat) : Kept { kvt := true, out := true, xbr := true, pmu := true, moved := true, rfx := true } s (s.emptySlot slot) :=
  Kept.emptySlot _ (Kept.refl s) (hKvt := rfl) (hOut := rfl) (hXbr := rfl) (hPmu := rfl) (hMoved := rfl) (hRfx := rfl)
@[simp] theorem State.emptySlot_hce (s : State) (slot : Nat) : (s.emptySlot slot).hce = s.hce := (s.emptySlot_kept slot).only.hce.resolve_left Bool.false_ne_true
@[simp] theorem State.emptySlot_rfu (s : State) (slot : Nat) : (s.emptySlot slot).rfu = s.rfu := (s.emptySlot_kept slot).only.rfu.resolve_left Bool.false_ne_true
@[simp] theorem State.emptySlot_rge (s : State) (slot : Nat) : (s.emptySlot slot).rge = s.rge := (s.emptySlot_kept slot).only.rge.resolve_left Bool.false_ne_true
@[simp] theorem State.emptySlot_snt (s : State) (slot : Nat) : (s.emptySlot slot).snt = s.snt := (s.emptySlot_kept slot).only.snt.resolve_left Bool.false_ne_true
@[simp] theorem State.emptySlot_tk (s : State) (slot : Nat) : (s.emptySlot slot).tk = s.tk := (s.emptySlot_kept slot).only.tk.resolve_left Bool.false_ne_true
@[simp] theorem State.emptySlot_vsm (s : State) (slot : Nat) : (s.emptySlot slot).vsm = s.vsm := (s.emptySlot_kept slot).only.vsm.resolve_left Bool.false_ne_true
@[simp] theorem State.emptySlot_mbx (s : State) (slot : Nat) : (s.emptySlot slot).mbx = s.mbx := (s.emptySlot_kept slot).only.mbx.resolve_left Bool.false_ne_true
@[simp] theorem State.emptySlot_bay (s : State) (slot : Nat) : (s.emptySlot slot).bay = s.bay := (s.emptySlot_kept slot).only.bay.resolve_left Bool.false_ne_true
@[simp] theorem State.emptySlot_props (s : State) (slot : Nat) : (s.emptySlot slot).props = s.props := (s.emptySlot_kept slot).only.props.resolve_left Bool.false_ne_true
@[simp] theorem State.emptySlot_ppc (s : State) (slot : Nat) : (s.emptySlot slot).ppc = s.ppc := (s.emptySlot_kept slot).only.ppc.resolve_left Bool.false_ne_true
@[simp] theorem State.emptySlot_sep (s : State) (slot : Nat) : (s.emptySlot slot).sep = s.sep := (s.emptySlot_kept slot).only.sep.resolve_left Bool.false_ne_true
@[simp] theorem State.emptySlot_pwr (s : State) (slot : Nat) : (s.emptySlot slot).pwr = s.pwr := (s.emptySlot_kept slot).only.pwr.resolve_left Bool.false_ne_true
@[simp] theorem State.emptySlot_lcu (s : State) (slot : Nat) : (s.emptySlot slot).lcu = s.lcu := (s.emptySlot_kept slot).only.lcu.resolve_left Bool.false_ne_true
@[simp] theorem State.emptySlot_tst (s : State) (slot : Nat) : (s.emptySlot slot).tst = s.tst := (s.emptySlot_kept slot).only.tst.resolve_left Bool.false_ne_true
@[simp] theorem State.emptySlot_mac (s : State) (slot : Nat) : (s.emptySlot slot).mac = s.mac := (s.emptySlot_kept slot).only.mac.resolve_left Bool.false_ne_true
@[simp] theorem State.emptySlot_now (s : State) (slot : Nat) : (s.emptySlot slot).now = s.now := (s.emptySlot_kept slot).same.now
@[simp] theorem State.emptySlot_part (s : State) (slot : Nat) : (s.emptySlot slot).part = s.part := (s.emptySlot_kept slot).same.part
@[simp] theorem State.emptySlot_slot (s : State) (slot : Nat) : (s.emptySlot slot).slot = s.slot := (s.emptySlot_kept slot).same.slot
@[simp] theorem State.emptySlot_uid (s : State) (slot : Nat) : (s.emptySlot slot).uid = s.uid := (s.emptySlot_kept slot).same.uid
@[simp] theorem State.emptySlot_pending (s : State) (slot : Nat) : (s.emptySlot slot).pending = s.pending := (s.emptySlot_kept slot).pending
@[simp] theorem State.emptySlot_freeCtr (s : State) (slot : Nat) : (s.emptySlot slot).freeCtr = s.freeCtr := (s.emptySlot_kept slot).only.free.resolve_left Bool.false_ne_true

theorem State.vaultSettle_kept (s : State) : Kept { kvt := true } s s.vaultSettle :=
  Kept.vaultSettle (Kept.refl s) (hKvt := rfl)
@[simp] theorem State.vaultSettle_hce (s : State) : s.vaultSettle.hce = s.hce := (s.vaultSettle_kept).only.hce.resolve_left Bool.false_ne_true
@[simp] theorem State.vaultSettle_rfu (s : State) : s.vaultSettle.rfu = s.rfu := (s.vaultSettle_kept).only.rfu.resolve_left Bool.false_ne_true
@[simp] theorem State.vaultSettle_rge (s : State) : s.vaultSettle.rge = s.rge := (s.vaultSettle_kept).only.rge.resolve_left Bool.false_ne_true
@[simp] theorem State.vaultSettle_snt (s : State) : s.vaultSettle.snt = s.snt := (s.vaultSettle_kept).only.snt.resolve_left Bool.false_ne_true
@[simp] theorem State.vaultSettle_rfx (s : State) : s.vaultSettle.rfx = s.rfx := (s.vaultSettle_kept).only.rfx.resolve_left Bool.false_ne_true
@[simp] theorem State.vaultSettle_tk (s : State) : s.vaultSettle.tk = s.tk := (s.vaultSettle_kept).only.tk.resolve_left Bool.false_ne_true
@[simp] theorem State.vaultSettle_vsm (s : State) : s.vaultSettle.vsm = s.vsm := (s.vaultSettle_kept).only.vsm.resolve_left Bool.false_ne_true
@[simp] theorem State.vaultSettle_mbx (s : State) : s.vaultSettle.mbx = s.mbx := (s.vaultSettle_kept).only.mbx.resolve_left Bool.false_ne_true
@[simp] theorem State.vaultSettle_bay (s : State) : s.vaultSettle.bay = s.bay := (s.vaultSettle_kept).only.bay.resolve_left Bool.false_ne_true
@[simp] theorem State.vaultSettle_props (s : State) : s.vaultSettle.props = s.props := (s.vaultSettle_kept).only.props.resolve_left Bool.false_ne_true
@[simp] theorem State.vaultSettle_ppc (s : State) : s.vaultSettle.ppc = s.ppc := (s.vaultSettle_kept).only.ppc.resolve_left Bool.false_ne_true
@[simp] theorem State.vaultSettle_xbr (s : State) : s.vaultSettle.xbr = s.xbr := (s.vaultSettle_kept).only.xbr.resolve_left Bool.false_ne_true
@[simp] theorem State.vaultSettle_sep (s : State) : s.vaultSettle.sep = s.sep := (s.vaultSettle_kept).only.sep.resolve_left Bool.false_ne_true
@[simp] theorem State.vaultSettle_pwr (s : State) : s.vaultSettle.pwr = s.pwr := (s.vaultSettle_kept).only.pwr.resolve_left Bool.false_ne_true
@[simp] theorem State.vaultSettle_lcu (s : State) : s.vaultSettle.lcu = s.lcu := (s.vaultSettle_kept).only.lcu.resolve_left Bool.false_ne_true
@[simp] theorem State.vaultSettle_pmu (s : State) : s.vaultSettle.pmu = s.pmu := (s.vaultSettle_kept).only.pmu.resolve_left Bool.false_ne_true
@[simp] theorem State.vaultSettle_tst (s : State) : s.vaultSettle.tst = s.tst := (s.vaultSettle_kept).only.tst.resolve_left Bool.false_ne_true
@[simp] theorem State.vaultSettle_mac (s : State) : s.vaultSettle.mac = s.mac := (s.vaultSettle_kept).only.mac.resolve_left Bool.false_ne_true
@[simp] theorem State.vaultSettle_now (s : State) : s.vaultSettle.now = s.now := (s.vaultSettle_kept).same.now
@[simp] theorem State.vaultSettle_part (s : State) : s.vaultSettle.part = s.part := (s.vaultSettle_kept).same.part
@[simp] theorem State.vaultSettle_slot (s : State) : s.vaultSettle.slot = s.slot := (s.vaultSettle_kept).same.slot
@[simp] theorem State.vaultSettle_uid (s : State) : s.vaultSettle.uid = s.uid := (s.vaultSettle_kept).same.uid
@[simp] theorem State.vaultSettle_pending (s : State) : s.vaultSettle.pending = s.pending := (s.vaultSettle_kept).pending
@[simp] theorem State.vaultSettle_out (s : State) : s.vaultSettle.out = s.out := (s.vaultSettle_kept).only.out.resolve_left Bool.false_ne_true
@[simp] theorem State.vaultSettle_freeCtr (s : State) : s.vaultSettle.freeCtr = s.freeCtr := (s.vaultSettle_kept).only.free.resolve_left Bool.false_ne_true
@[simp] theorem State.vaultSettle_reg (s : State)  (k : Nat) : s.vaultSettle.reg k = s.reg k := ((s.vaultSettle_kept).only.regs).resolve_left Bool.false_ne_true k (fun h => absurd h Bool.false_ne_true)

theorem State.tlsAlert_kept (s : State) (conn : Nat) (code : Nat) : Kept { rfu := true, xbr := true, moved := true, hce := true, kvt := true, out := true, pmu := true, rfx := true } s (s.tlsAlert conn code) :=
  Kept.tlsAlert _ _ (Kept.refl s) (hRfu := rfl) (hXbr := rfl) (hMoved := rfl) (hHce := rfl) (hKvt := rfl) (hOut := rfl) (hPmu := rfl) (hRfx := rfl)
@[simp] theorem State.tlsAlert_rge (s : State) (conn : Nat) (code : Nat) : (s.tlsAlert conn code).rge = s.rge := (s.tlsAlert_kept conn code).only.rge.resolve_left Bool.false_ne_true
@[simp] theorem State.tlsAlert_snt (s : State) (conn : Nat) (code : Nat) : (s.tlsAlert conn code).snt = s.snt := (s.tlsAlert_kept conn code).only.snt.resolve_left Bool.false_ne_true
@[simp] theorem State.tlsAlert_tk (s : State) (conn : Nat) (code : Nat) : (s.tlsAlert conn code).tk = s.tk := (s.tlsAlert_kept conn code).only.tk.resolve_left Bool.false_ne_true
@[simp] theorem State.tlsAlert_vsm (s : State) (conn : Nat) (code : Nat) : (s.tlsAlert conn code).vsm = s.vsm := (s.tlsAlert_kept conn code).only.vsm.resolve_left Bool.false_ne_true
@[simp] theorem State.tlsAlert_mbx (s : State) (conn : Nat) (code : Nat) : (s.tlsAlert conn code).mbx = s.mbx := (s.tlsAlert_kept conn code).only.mbx.resolve_left Bool.false_ne_true
@[simp] theorem State.tlsAlert_bay (s : State) (conn : Nat) (code : Nat) : (s.tlsAlert conn code).bay = s.bay := (s.tlsAlert_kept conn code).only.bay.resolve_left Bool.false_ne_true
@[simp] theorem State.tlsAlert_props (s : State) (conn : Nat) (code : Nat) : (s.tlsAlert conn code).props = s.props := (s.tlsAlert_kept conn code).only.props.resolve_left Bool.false_ne_true
@[simp] theorem State.tlsAlert_ppc (s : State) (conn : Nat) (code : Nat) : (s.tlsAlert conn code).ppc = s.ppc := (s.tlsAlert_kept conn code).only.ppc.resolve_left Bool.false_ne_true
@[simp] theorem State.tlsAlert_sep (s : State) (conn : Nat) (code : Nat) : (s.tlsAlert conn code).sep = s.sep := (s.tlsAlert_kept conn code).only.sep.resolve_left Bool.false_ne_true
@[simp] theorem State.tlsAlert_pwr (s : State) (conn : Nat) (code : Nat) : (s.tlsAlert conn code).pwr = s.pwr := (s.tlsAlert_kept conn code).only.pwr.resolve_left Bool.false_ne_true
@[simp] theorem State.tlsAlert_lcu (s : State) (conn : Nat) (code : Nat) : (s.tlsAlert conn code).lcu = s.lcu := (s.tlsAlert_kept conn code).only.lcu.resolve_left Bool.false_ne_true
@[simp] theorem State.tlsAlert_tst (s : State) (conn : Nat) (code : Nat) : (s.tlsAlert conn code).tst = s.tst := (s.tlsAlert_kept conn code).only.tst.resolve_left Bool.false_ne_true
@[simp] theorem State.tlsAlert_mac (s : State) (conn : Nat) (code : Nat) : (s.tlsAlert conn code).mac = s.mac := (s.tlsAlert_kept conn code).only.mac.resolve_left Bool.false_ne_true
@[simp] theorem State.tlsAlert_now (s : State) (conn : Nat) (code : Nat) : (s.tlsAlert conn code).now = s.now := (s.tlsAlert_kept conn code).same.now
@[simp] theorem State.tlsAlert_part (s : State) (conn : Nat) (code : Nat) : (s.tlsAlert conn code).part = s.part := (s.tlsAlert_kept conn code).same.part
@[simp] theorem State.tlsAlert_slot (s : State) (conn : Nat) (code : Nat) : (s.tlsAlert conn code).slot = s.slot := (s.tlsAlert_kept conn code).same.slot
@[simp] theorem State.tlsAlert_uid (s : State) (conn : Nat) (code : Nat) : (s.tlsAlert conn code).uid = s.uid := (s.tlsAlert_kept conn code).same.uid
@[simp] theorem State.tlsAlert_pending (s : State) (conn : Nat) (code : Nat) : (s.tlsAlert conn code).pending = s.pending := (s.tlsAlert_kept conn code).pending
@[simp] theorem State.tlsAlert_freeCtr (s : State) (conn : Nat) (code : Nat) : (s.tlsAlert conn code).freeCtr = s.freeCtr := (s.tlsAlert_kept conn code).only.free.resolve_left Bool.false_ne_true

theorem State.rekeyStep_kept (s : State) (n : Ns) (r : Rekey) : Kept { xbr := true, moved := true, hce := true, kvt := true, out := true, pmu := true, rfx := true } s (s.rekeyStep n r) :=
  Kept.rekeyStep _ _ (Kept.refl s) (hXbr := rfl) (hMoved := rfl) (hHce := rfl) (hKvt := rfl) (hOut := rfl) (hPmu := rfl) (hRfx := rfl)
@[simp] theorem State.rekeyStep_rfu (s : State) (n : Ns) (r : Rekey) : (s.rekeyStep n r).rfu = s.rfu := (s.rekeyStep_kept n r).only.rfu.resolve_left Bool.false_ne_true
@[simp] theorem State.rekeyStep_rge (s : State) (n : Ns) (r : Rekey) : (s.rekeyStep n r).rge = s.rge := (s.rekeyStep_kept n r).only.rge.resolve_left Bool.false_ne_true
@[simp] theorem State.rekeyStep_snt (s : State) (n : Ns) (r : Rekey) : (s.rekeyStep n r).snt = s.snt := (s.rekeyStep_kept n r).only.snt.resolve_left Bool.false_ne_true
@[simp] theorem State.rekeyStep_tk (s : State) (n : Ns) (r : Rekey) : (s.rekeyStep n r).tk = s.tk := (s.rekeyStep_kept n r).only.tk.resolve_left Bool.false_ne_true
@[simp] theorem State.rekeyStep_vsm (s : State) (n : Ns) (r : Rekey) : (s.rekeyStep n r).vsm = s.vsm := (s.rekeyStep_kept n r).only.vsm.resolve_left Bool.false_ne_true
@[simp] theorem State.rekeyStep_mbx (s : State) (n : Ns) (r : Rekey) : (s.rekeyStep n r).mbx = s.mbx := (s.rekeyStep_kept n r).only.mbx.resolve_left Bool.false_ne_true
@[simp] theorem State.rekeyStep_bay (s : State) (n : Ns) (r : Rekey) : (s.rekeyStep n r).bay = s.bay := (s.rekeyStep_kept n r).only.bay.resolve_left Bool.false_ne_true
@[simp] theorem State.rekeyStep_props (s : State) (n : Ns) (r : Rekey) : (s.rekeyStep n r).props = s.props := (s.rekeyStep_kept n r).only.props.resolve_left Bool.false_ne_true
@[simp] theorem State.rekeyStep_ppc (s : State) (n : Ns) (r : Rekey) : (s.rekeyStep n r).ppc = s.ppc := (s.rekeyStep_kept n r).only.ppc.resolve_left Bool.false_ne_true
@[simp] theorem State.rekeyStep_sep (s : State) (n : Ns) (r : Rekey) : (s.rekeyStep n r).sep = s.sep := (s.rekeyStep_kept n r).only.sep.resolve_left Bool.false_ne_true
@[simp] theorem State.rekeyStep_pwr (s : State) (n : Ns) (r : Rekey) : (s.rekeyStep n r).pwr = s.pwr := (s.rekeyStep_kept n r).only.pwr.resolve_left Bool.false_ne_true
@[simp] theorem State.rekeyStep_lcu (s : State) (n : Ns) (r : Rekey) : (s.rekeyStep n r).lcu = s.lcu := (s.rekeyStep_kept n r).only.lcu.resolve_left Bool.false_ne_true
@[simp] theorem State.rekeyStep_tst (s : State) (n : Ns) (r : Rekey) : (s.rekeyStep n r).tst = s.tst := (s.rekeyStep_kept n r).only.tst.resolve_left Bool.false_ne_true
@[simp] theorem State.rekeyStep_mac (s : State) (n : Ns) (r : Rekey) : (s.rekeyStep n r).mac = s.mac := (s.rekeyStep_kept n r).only.mac.resolve_left Bool.false_ne_true
@[simp] theorem State.rekeyStep_now (s : State) (n : Ns) (r : Rekey) : (s.rekeyStep n r).now = s.now := (s.rekeyStep_kept n r).same.now
@[simp] theorem State.rekeyStep_part (s : State) (n : Ns) (r : Rekey) : (s.rekeyStep n r).part = s.part := (s.rekeyStep_kept n r).same.part
@[simp] theorem State.rekeyStep_slot (s : State) (n : Ns) (r : Rekey) : (s.rekeyStep n r).slot = s.slot := (s.rekeyStep_kept n r).same.slot
@[simp] theorem State.rekeyStep_uid (s : State) (n : Ns) (r : Rekey) : (s.rekeyStep n r).uid = s.uid := (s.rekeyStep_kept n r).same.uid
@[simp] theorem State.rekeyStep_pending (s : State) (n : Ns) (r : Rekey) : (s.rekeyStep n r).pending = s.pending := (s.rekeyStep_kept n r).pending
@[simp] theorem State.rekeyStep_freeCtr (s : State) (n : Ns) (r : Rekey) : (s.rekeyStep n r).freeCtr = s.freeCtr := (s.rekeyStep_kept n r).only.free.resolve_left Bool.false_ne_true

theorem State.commitVersion_kept (s : State) (ver : Nat) : Kept { hce := true, out := true, xbr := true, pmu := true, moved := true, rfx := true } s (s.commitVersion ver) :=
  Kept.commitVersion _ (Kept.refl s) (hHce := rfl) (hOut := rfl) (hXbr := rfl) (hPmu := rfl) (hMoved := rfl) (hRfx := rfl)
@[simp] theorem State.commitVersion_rfu (s : State) (ver : Nat) : (s.commitVersion ver).rfu = s.rfu := (s.commitVersion_kept ver).only.rfu.resolve_left Bool.false_ne_true
@[simp] theorem State.commitVersion_rge (s : State) (ver : Nat) : (s.commitVersion ver).rge = s.rge := (s.commitVersion_kept ver).only.rge.resolve_left Bool.false_ne_true
@[simp] theorem State.commitVersion_snt (s : State) (ver : Nat) : (s.commitVersion ver).snt = s.snt := (s.commitVersion_kept ver).only.snt.resolve_left Bool.false_ne_true
@[simp] theorem State.commitVersion_tk (s : State) (ver : Nat) : (s.commitVersion ver).tk = s.tk := (s.commitVersion_kept ver).only.tk.resolve_left Bool.false_ne_true
@[simp] theorem State.commitVersion_vsm (s : State) (ver : Nat) : (s.commitVersion ver).vsm = s.vsm := (s.commitVersion_kept ver).only.vsm.resolve_left Bool.false_ne_true
@[simp] theorem State.commitVersion_kvt (s : State) (ver : Nat) : (s.commitVersion ver).kvt = s.kvt := (s.commitVersion_kept ver).only.kvt.resolve_left Bool.false_ne_true
@[simp] theorem State.commitVersion_mbx (s : State) (ver : Nat) : (s.commitVersion ver).mbx = s.mbx := (s.commitVersion_kept ver).only.mbx.resolve_left Bool.false_ne_true
@[simp] theorem State.commitVersion_bay (s : State) (ver : Nat) : (s.commitVersion ver).bay = s.bay := (s.commitVersion_kept ver).only.bay.resolve_left Bool.false_ne_true
@[simp] theorem State.commitVersion_props (s : State) (ver : Nat) : (s.commitVersion ver).props = s.props := (s.commitVersion_kept ver).only.props.resolve_left Bool.false_ne_true
@[simp] theorem State.commitVersion_ppc (s : State) (ver : Nat) : (s.commitVersion ver).ppc = s.ppc := (s.commitVersion_kept ver).only.ppc.resolve_left Bool.false_ne_true
@[simp] theorem State.commitVersion_sep (s : State) (ver : Nat) : (s.commitVersion ver).sep = s.sep := (s.commitVersion_kept ver).only.sep.resolve_left Bool.false_ne_true
@[simp] theorem State.commitVersion_pwr (s : State) (ver : Nat) : (s.commitVersion ver).pwr = s.pwr := (s.commitVersion_kept ver).only.pwr.resolve_left Bool.false_ne_true
@[simp] theorem State.commitVersion_lcu (s : State) (ver : Nat) : (s.commitVersion ver).lcu = s.lcu := (s.commitVersion_kept ver).only.lcu.resolve_left Bool.false_ne_true
@[simp] theorem State.commitVersion_tst (s : State) (ver : Nat) : (s.commitVersion ver).tst = s.tst := (s.commitVersion_kept ver).only.tst.resolve_left Bool.false_ne_true
@[simp] theorem State.commitVersion_mac (s : State) (ver : Nat) : (s.commitVersion ver).mac = s.mac := (s.commitVersion_kept ver).only.mac.resolve_left Bool.false_ne_true
@[simp] theorem State.commitVersion_now (s : State) (ver : Nat) : (s.commitVersion ver).now = s.now := (s.commitVersion_kept ver).same.now
@[simp] theorem State.commitVersion_part (s : State) (ver : Nat) : (s.commitVersion ver).part = s.part := (s.commitVersion_kept ver).same.part
@[simp] theorem State.commitVersion_slot (s : State) (ver : Nat) : (s.commitVersion ver).slot = s.slot := (s.commitVersion_kept ver).same.slot
@[simp] theorem State.commitVersion_uid (s : State) (ver : Nat) : (s.commitVersion ver).uid = s.uid := (s.commitVersion_kept ver).same.uid
@[simp] theorem State.commitVersion_pending (s : State) (ver : Nat) : (s.commitVersion ver).pending = s.pending := (s.commitVersion_kept ver).pending
@[simp] theorem State.commitVersion_freeCtr (s : State) (ver : Nat) : (s.commitVersion ver).freeCtr = s.freeCtr := (s.commitVersion_kept ver).only.free.resolve_left Bool.false_ne_true

theorem State.mkaSend_kept (s : State) (p : Nat) : Kept { out := true, kvt := true } s (s.mkaSend p) :=
  Kept.mkaSend _ (Kept.refl s) (hOut := rfl) (hKvt := rfl)
@[simp] theorem State.mkaSend_hce (s : State) (p : Nat) : (s.mkaSend p).hce = s.hce := (s.mkaSend_kept p).only.hce.resolve_left Bool.false_ne_true
@[simp] theorem State.mkaSend_rfu (s : State) (p : Nat) : (s.mkaSend p).rfu = s.rfu := (s.mkaSend_kept p).only.rfu.resolve_left Bool.false_ne_true
@[simp] theorem State.mkaSend_rge (s : State) (p : Nat) : (s.mkaSend p).rge = s.rge := (s.mkaSend_kept p).only.rge.resolve_left Bool.false_ne_true
@[simp] theorem State.mkaSend_snt (s : State) (p : Nat) : (s.mkaSend p).snt = s.snt := (s.mkaSend_kept p).only.snt.resolve_left Bool.false_ne_true
@[simp] theorem State.mkaSend_rfx (s : State) (p : Nat) : (s.mkaSend p).rfx = s.rfx := (s.mkaSend_kept p).only.rfx.resolve_left Bool.false_ne_true
@[simp] theorem State.mkaSend_tk (s : State) (p : Nat) : (s.mkaSend p).tk = s.tk := (s.mkaSend_kept p).only.tk.resolve_left Bool.false_ne_true
@[simp] theorem State.mkaSend_vsm (s : State) (p : Nat) : (s.mkaSend p).vsm = s.vsm := (s.mkaSend_kept p).only.vsm.resolve_left Bool.false_ne_true
@[simp] theorem State.mkaSend_mbx (s : State) (p : Nat) : (s.mkaSend p).mbx = s.mbx := (s.mkaSend_kept p).only.mbx.resolve_left Bool.false_ne_true
@[simp] theorem State.mkaSend_bay (s : State) (p : Nat) : (s.mkaSend p).bay = s.bay := (s.mkaSend_kept p).only.bay.resolve_left Bool.false_ne_true
@[simp] theorem State.mkaSend_props (s : State) (p : Nat) : (s.mkaSend p).props = s.props := (s.mkaSend_kept p).only.props.resolve_left Bool.false_ne_true
@[simp] theorem State.mkaSend_ppc (s : State) (p : Nat) : (s.mkaSend p).ppc = s.ppc := (s.mkaSend_kept p).only.ppc.resolve_left Bool.false_ne_true
@[simp] theorem State.mkaSend_xbr (s : State) (p : Nat) : (s.mkaSend p).xbr = s.xbr := (s.mkaSend_kept p).only.xbr.resolve_left Bool.false_ne_true
@[simp] theorem State.mkaSend_sep (s : State) (p : Nat) : (s.mkaSend p).sep = s.sep := (s.mkaSend_kept p).only.sep.resolve_left Bool.false_ne_true
@[simp] theorem State.mkaSend_pwr (s : State) (p : Nat) : (s.mkaSend p).pwr = s.pwr := (s.mkaSend_kept p).only.pwr.resolve_left Bool.false_ne_true
@[simp] theorem State.mkaSend_lcu (s : State) (p : Nat) : (s.mkaSend p).lcu = s.lcu := (s.mkaSend_kept p).only.lcu.resolve_left Bool.false_ne_true
@[simp] theorem State.mkaSend_pmu (s : State) (p : Nat) : (s.mkaSend p).pmu = s.pmu := (s.mkaSend_kept p).only.pmu.resolve_left Bool.false_ne_true
@[simp] theorem State.mkaSend_tst (s : State) (p : Nat) : (s.mkaSend p).tst = s.tst := (s.mkaSend_kept p).only.tst.resolve_left Bool.false_ne_true
@[simp] theorem State.mkaSend_mac (s : State) (p : Nat) : (s.mkaSend p).mac = s.mac := (s.mkaSend_kept p).only.mac.resolve_left Bool.false_ne_true
@[simp] theorem State.mkaSend_now (s : State) (p : Nat) : (s.mkaSend p).now = s.now := (s.mkaSend_kept p).same.now
@[simp] theorem State.mkaSend_part (s : State) (p : Nat) : (s.mkaSend p).part = s.part := (s.mkaSend_kept p).same.part
@[simp] theorem State.mkaSend_slot (s : State) (p : Nat) : (s.mkaSend p).slot = s.slot := (s.mkaSend_kept p).same.slot
@[simp] theorem State.mkaSend_uid (s : State) (p : Nat) : (s.mkaSend p).uid = s.uid := (s.mkaSend_kept p).same.uid
@[simp] theorem State.mkaSend_pending (s : State) (p : Nat) : (s.mkaSend p).pending = s.pending := (s.mkaSend_kept p).pending
@[simp] theorem State.mkaSend_freeCtr (s : State) (p : Nat) : (s.mkaSend p).freeCtr = s.freeCtr := (s.mkaSend_kept p).only.free.resolve_left Bool.false_ne_true
@[simp] theorem State.mkaSend_reg (s : State) (p : Nat) (k : Nat) : (s.mkaSend p).reg k = s.reg k := ((s.mkaSend_kept p).only.regs).resolve_left Bool.false_ne_true k (fun h => absurd h Bool.false_ne_true)

theorem State.endSession_kept (s : State) : Kept { kvt := true } s s.endSession :=
  Kept.endSession (Kept.refl s) (hKvt := rfl)
@[simp] theorem State.endSession_hce (s : State) : s.endSession.hce = s.hce := (s.endSession_kept).only.hce.resolve_left Bool.false_ne_true
@[simp] theorem State.endSession_rfu (s : State) : s.endSession.rfu = s.rfu := (s.endSession_kept).only.rfu.resolve_left Bool.false_ne_true
@[simp] theorem State.endSession_rge (s : State) : s.endSession.rge = s.rge := (s.endSession_kept).only.rge.resolve_left Bool.false_ne_true
@[simp] theorem State.endSession_snt (s : State) : s.endSession.snt = s.snt := (s.endSession_kept).only.snt.resolve_left Bool.false_ne_true
@[simp] theorem State.endSession_rfx (s : State) : s.endSession.rfx = s.rfx := (s.endSession_kept).only.rfx.resolve_left Bool.false_ne_true
@[simp] theorem State.endSession_tk (s : State) : s.endSession.tk = s.tk := (s.endSession_kept).only.tk.resolve_left Bool.false_ne_true
@[simp] theorem State.endSession_vsm (s : State) : s.endSession.vsm = s.vsm := (s.endSession_kept).only.vsm.resolve_left Bool.false_ne_true
@[simp] theorem State.endSession_mbx (s : State) : s.endSession.mbx = s.mbx := (s.endSession_kept).only.mbx.resolve_left Bool.false_ne_true
@[simp] theorem State.endSession_bay (s : State) : s.endSession.bay = s.bay := (s.endSession_kept).only.bay.resolve_left Bool.false_ne_true
@[simp] theorem State.endSession_props (s : State) : s.endSession.props = s.props := (s.endSession_kept).only.props.resolve_left Bool.false_ne_true
@[simp] theorem State.endSession_ppc (s : State) : s.endSession.ppc = s.ppc := (s.endSession_kept).only.ppc.resolve_left Bool.false_ne_true
@[simp] theorem State.endSession_xbr (s : State) : s.endSession.xbr = s.xbr := (s.endSession_kept).only.xbr.resolve_left Bool.false_ne_true
@[simp] theorem State.endSession_sep (s : State) : s.endSession.sep = s.sep := (s.endSession_kept).only.sep.resolve_left Bool.false_ne_true
@[simp] theorem State.endSession_pwr (s : State) : s.endSession.pwr = s.pwr := (s.endSession_kept).only.pwr.resolve_left Bool.false_ne_true
@[simp] theorem State.endSession_lcu (s : State) : s.endSession.lcu = s.lcu := (s.endSession_kept).only.lcu.resolve_left Bool.false_ne_true
@[simp] theorem State.endSession_pmu (s : State) : s.endSession.pmu = s.pmu := (s.endSession_kept).only.pmu.resolve_left Bool.false_ne_true
@[simp] theorem State.endSession_tst (s : State) : s.endSession.tst = s.tst := (s.endSession_kept).only.tst.resolve_left Bool.false_ne_true
@[simp] theorem State.endSession_mac (s : State) : s.endSession.mac = s.mac := (s.endSession_kept).only.mac.resolve_left Bool.false_ne_true
@[simp] theorem State.endSession_now (s : State) : s.endSession.now = s.now := (s.endSession_kept).same.now
@[simp] theorem State.endSession_part (s : State) : s.endSession.part = s.part := (s.endSession_kept).same.part
@[simp] theorem State.endSession_slot (s : State) : s.endSession.slot = s.slot := (s.endSession_kept).same.slot
@[simp] theorem State.endSession_uid (s : State) : s.endSession.uid = s.uid := (s.endSession_kept).same.uid
@[simp] theorem State.endSession_pending (s : State) : s.endSession.pending = s.pending := (s.endSession_kept).pending
@[simp] theorem State.endSession_out (s : State) : s.endSession.out = s.out := (s.endSession_kept).only.out.resolve_left Bool.false_ne_true
@[simp] theorem State.endSession_freeCtr (s : State) : s.endSession.freeCtr = s.freeCtr := (s.endSession_kept).only.free.resolve_left Bool.false_ne_true
@[simp] theorem State.endSession_reg (s : State)  (k : Nat) : s.endSession.reg k = s.reg k := ((s.endSession_kept).only.regs).resolve_left Bool.false_ne_true k (fun h => absurd h Bool.false_ne_true)

theorem State.loginFailed_kept (s : State) (o : Nat) : Kept { kvt := true } s (s.loginFailed o) :=
  Kept.loginFailed _ (Kept.refl s) (hKvt := rfl)
@[simp] theorem State.loginFailed_hce (s : State) (o : Nat) : (s.loginFailed o).hce = s.hce := (s.loginFailed_kept o).only.hce.resolve_left Bool.false_ne_true
@[simp] theorem State.loginFailed_rfu (s : State) (o : Nat) : (s.loginFailed o).rfu = s.rfu := (s.loginFailed_kept o).only.rfu.resolve_left Bool.false_ne_true
@[simp] theorem State.loginFailed_rge (s : State) (o : Nat) : (s.loginFailed o).rge = s.rge := (s.loginFailed_kept o).only.rge.resolve_left Bool.false_ne_true
@[simp] theorem State.loginFailed_snt (s : State) (o : Nat) : (s.loginFailed o).snt = s.snt := (s.loginFailed_kept o).only.snt.resolve_left Bool.false_ne_true
@[simp] theorem State.loginFailed_rfx (s : State) (o : Nat) : (s.loginFailed o).rfx = s.rfx := (s.loginFailed_kept o).only.rfx.resolve_left Bool.false_ne_true
@[simp] theorem State.loginFailed_tk (s : State) (o : Nat) : (s.loginFailed o).tk = s.tk := (s.loginFailed_kept o).only.tk.resolve_left Bool.false_ne_true
@[simp] theorem State.loginFailed_vsm (s : State) (o : Nat) : (s.loginFailed o).vsm = s.vsm := (s.loginFailed_kept o).only.vsm.resolve_left Bool.false_ne_true
@[simp] theorem State.loginFailed_mbx (s : State) (o : Nat) : (s.loginFailed o).mbx = s.mbx := (s.loginFailed_kept o).only.mbx.resolve_left Bool.false_ne_true
@[simp] theorem State.loginFailed_bay (s : State) (o : Nat) : (s.loginFailed o).bay = s.bay := (s.loginFailed_kept o).only.bay.resolve_left Bool.false_ne_true
@[simp] theorem State.loginFailed_props (s : State) (o : Nat) : (s.loginFailed o).props = s.props := (s.loginFailed_kept o).only.props.resolve_left Bool.false_ne_true
@[simp] theorem State.loginFailed_ppc (s : State) (o : Nat) : (s.loginFailed o).ppc = s.ppc := (s.loginFailed_kept o).only.ppc.resolve_left Bool.false_ne_true
@[simp] theorem State.loginFailed_xbr (s : State) (o : Nat) : (s.loginFailed o).xbr = s.xbr := (s.loginFailed_kept o).only.xbr.resolve_left Bool.false_ne_true
@[simp] theorem State.loginFailed_sep (s : State) (o : Nat) : (s.loginFailed o).sep = s.sep := (s.loginFailed_kept o).only.sep.resolve_left Bool.false_ne_true
@[simp] theorem State.loginFailed_pwr (s : State) (o : Nat) : (s.loginFailed o).pwr = s.pwr := (s.loginFailed_kept o).only.pwr.resolve_left Bool.false_ne_true
@[simp] theorem State.loginFailed_lcu (s : State) (o : Nat) : (s.loginFailed o).lcu = s.lcu := (s.loginFailed_kept o).only.lcu.resolve_left Bool.false_ne_true
@[simp] theorem State.loginFailed_pmu (s : State) (o : Nat) : (s.loginFailed o).pmu = s.pmu := (s.loginFailed_kept o).only.pmu.resolve_left Bool.false_ne_true
@[simp] theorem State.loginFailed_tst (s : State) (o : Nat) : (s.loginFailed o).tst = s.tst := (s.loginFailed_kept o).only.tst.resolve_left Bool.false_ne_true
@[simp] theorem State.loginFailed_mac (s : State) (o : Nat) : (s.loginFailed o).mac = s.mac := (s.loginFailed_kept o).only.mac.resolve_left Bool.false_ne_true
@[simp] theorem State.loginFailed_now (s : State) (o : Nat) : (s.loginFailed o).now = s.now := (s.loginFailed_kept o).same.now
@[simp] theorem State.loginFailed_part (s : State) (o : Nat) : (s.loginFailed o).part = s.part := (s.loginFailed_kept o).same.part
@[simp] theorem State.loginFailed_slot (s : State) (o : Nat) : (s.loginFailed o).slot = s.slot := (s.loginFailed_kept o).same.slot
@[simp] theorem State.loginFailed_uid (s : State) (o : Nat) : (s.loginFailed o).uid = s.uid := (s.loginFailed_kept o).same.uid
@[simp] theorem State.loginFailed_pending (s : State) (o : Nat) : (s.loginFailed o).pending = s.pending := (s.loginFailed_kept o).pending
@[simp] theorem State.loginFailed_out (s : State) (o : Nat) : (s.loginFailed o).out = s.out := (s.loginFailed_kept o).only.out.resolve_left Bool.false_ne_true
@[simp] theorem State.loginFailed_freeCtr (s : State) (o : Nat) : (s.loginFailed o).freeCtr = s.freeCtr := (s.loginFailed_kept o).only.free.resolve_left Bool.false_ne_true
@[simp] theorem State.loginFailed_reg (s : State) (o : Nat) (k : Nat) : (s.loginFailed o).reg k = s.reg k := ((s.loginFailed_kept o).only.regs).resolve_left Bool.false_ne_true k (fun h => absurd h Bool.false_ne_true)

theorem State.unwrapFailed_kept (s : State) : Kept { kvt := true } s s.unwrapFailed :=
  Kept.unwrapFailed (Kept.refl s) (hKvt := rfl)
@[simp] theorem State.unwrapFailed_hce (s : State) : s.unwrapFailed.hce = s.hce := (s.unwrapFailed_kept).only.hce.resolve_left Bool.false_ne_true
@[simp] theorem State.unwrapFailed_rfu (s : State) : s.unwrapFailed.rfu = s.rfu := (s.unwrapFailed_kept).only.rfu.resolve_left Bool.false_ne_true
@[simp] theorem State.unwrapFailed_rge (s : State) : s.unwrapFailed.rge = s.rge := (s.unwrapFailed_kept).only.rge.resolve_left Bool.false_ne_true
@[simp] theorem State.unwrapFailed_snt (s : State) : s.unwrapFailed.snt = s.snt := (s.unwrapFailed_kept).only.snt.resolve_left Bool.false_ne_true
@[simp] theorem State.unwrapFailed_rfx (s : State) : s.unwrapFailed.rfx = s.rfx := (s.unwrapFailed_kept).only.rfx.resolve_left Bool.false_ne_true
@[simp] theorem State.unwrapFailed_tk (s : State) : s.unwrapFailed.tk = s.tk := (s.unwrapFailed_kept).only.tk.resolve_left Bool.false_ne_true
@[simp] theorem State.unwrapFailed_vsm (s : State) : s.unwrapFailed.vsm = s.vsm := (s.unwrapFailed_kept).only.vsm.resolve_left Bool.false_ne_true
@[simp] theorem State.unwrapFailed_mbx (s : State) : s.unwrapFailed.mbx = s.mbx := (s.unwrapFailed_kept).only.mbx.resolve_left Bool.false_ne_true
@[simp] theorem State.unwrapFailed_bay (s : State) : s.unwrapFailed.bay = s.bay := (s.unwrapFailed_kept).only.bay.resolve_left Bool.false_ne_true
@[simp] theorem State.unwrapFailed_props (s : State) : s.unwrapFailed.props = s.props := (s.unwrapFailed_kept).only.props.resolve_left Bool.false_ne_true
@[simp] theorem State.unwrapFailed_ppc (s : State) : s.unwrapFailed.ppc = s.ppc := (s.unwrapFailed_kept).only.ppc.resolve_left Bool.false_ne_true
@[simp] theorem State.unwrapFailed_xbr (s : State) : s.unwrapFailed.xbr = s.xbr := (s.unwrapFailed_kept).only.xbr.resolve_left Bool.false_ne_true
@[simp] theorem State.unwrapFailed_sep (s : State) : s.unwrapFailed.sep = s.sep := (s.unwrapFailed_kept).only.sep.resolve_left Bool.false_ne_true
@[simp] theorem State.unwrapFailed_pwr (s : State) : s.unwrapFailed.pwr = s.pwr := (s.unwrapFailed_kept).only.pwr.resolve_left Bool.false_ne_true
@[simp] theorem State.unwrapFailed_lcu (s : State) : s.unwrapFailed.lcu = s.lcu := (s.unwrapFailed_kept).only.lcu.resolve_left Bool.false_ne_true
@[simp] theorem State.unwrapFailed_pmu (s : State) : s.unwrapFailed.pmu = s.pmu := (s.unwrapFailed_kept).only.pmu.resolve_left Bool.false_ne_true
@[simp] theorem State.unwrapFailed_tst (s : State) : s.unwrapFailed.tst = s.tst := (s.unwrapFailed_kept).only.tst.resolve_left Bool.false_ne_true
@[simp] theorem State.unwrapFailed_mac (s : State) : s.unwrapFailed.mac = s.mac := (s.unwrapFailed_kept).only.mac.resolve_left Bool.false_ne_true
@[simp] theorem State.unwrapFailed_now (s : State) : s.unwrapFailed.now = s.now := (s.unwrapFailed_kept).same.now
@[simp] theorem State.unwrapFailed_part (s : State) : s.unwrapFailed.part = s.part := (s.unwrapFailed_kept).same.part
@[simp] theorem State.unwrapFailed_slot (s : State) : s.unwrapFailed.slot = s.slot := (s.unwrapFailed_kept).same.slot
@[simp] theorem State.unwrapFailed_uid (s : State) : s.unwrapFailed.uid = s.uid := (s.unwrapFailed_kept).same.uid
@[simp] theorem State.unwrapFailed_pending (s : State) : s.unwrapFailed.pending = s.pending := (s.unwrapFailed_kept).pending
@[simp] theorem State.unwrapFailed_out (s : State) : s.unwrapFailed.out = s.out := (s.unwrapFailed_kept).only.out.resolve_left Bool.false_ne_true
@[simp] theorem State.unwrapFailed_freeCtr (s : State) : s.unwrapFailed.freeCtr = s.freeCtr := (s.unwrapFailed_kept).only.free.resolve_left Bool.false_ne_true
@[simp] theorem State.unwrapFailed_reg (s : State)  (k : Nat) : s.unwrapFailed.reg k = s.reg k := ((s.unwrapFailed_kept).only.regs).resolve_left Bool.false_ne_true k (fun h => absurd h Bool.false_ne_true)

end Sys2Proof.Machine
end

