-- ==== Sys2Proof/Laws/Effects.lean ====
section
/-! SUPPORT. What the operations that the families share do: the end of a management command, the checks before it, and what
crosses the boundary. -/

set_option Elab.async false

namespace Sys2Proof.Machine

/-! ## What crosses the boundary -/

theorem State.Sent.of_emit {s a t : State} {e : Emission} (h : s.out <:+ a.out) (k : (a.emit e).out <:+ t.out) : s.Sent t e := by
  obtain ⟨l, hl⟩ := h
  obtain ⟨k, hk⟩ := k
  exact ⟨k ++ (e :: l), by rw [← hk, State.emit_out, ← hl]; simp, by simp⟩

theorem State.Sent.emit (s : State) (e : Emission) : s.Sent (s.emit e) e := ⟨[e], rfl, List.mem_singleton.mpr rfl⟩

theorem State.Sent.later {s t v : State} {e : Emission} (h : s.Sent t e) (k : t.out <:+ v.out) : s.Sent v e := by
  obtain ⟨l, hl, he⟩ := h
  obtain ⟨k, hk⟩ := k
  exact ⟨k ++ l, by rw [← hk, hl, List.append_assoc], List.mem_append_right _ he⟩

theorem State.Sent.before {s a t : State} {e : Emission} (h : s.out <:+ a.out) (k : a.Sent t e) : s.Sent t e := by
  obtain ⟨l, hl, he⟩ := k
  obtain ⟨k, hk⟩ := h
  exact ⟨l ++ k, by rw [hl, ← hk, List.append_assoc], List.mem_append_left _ he⟩

theorem State.Sent.congr {s s' t t' : State} {e : Emission} (h : s.Sent t e) (hs : s'.out = s.out) (ht : t'.out = t.out) :
    s'.Sent t' e := by
  obtain ⟨l, hl, he⟩ := h
  exact ⟨l, by rw [ht, hl, hs], he⟩

/-! ## Registers that only a register access writes -/

theorem Kept.reg_eq {u : Units} {s t : State} (k : Kept u s t) (hc : u.cfg = false) {a : Nat} (ha : ¬ IsMoved a) :
    t.reg a = s.reg a :=
  k.only.regs.resolve_left (by rw [hc]; exact Bool.false_ne_true) a fun _ => ha

theorem Kept.cfg_eq {u : Units} {s t : State} (k : Kept u s t) (hc : u.cfg = false) {a : Nat} (ha : ¬ IsMoved a) (hi lo : Nat) :
    t.cfg a hi lo = s.cfg a hi lo := by
  simp only [State.cfg, k.reg_eq hc ha]

theorem Kept.cfgBit_eq {u : Units} {s t : State} (k : Kept u s t) (hc : u.cfg = false) {a : Nat} (ha : ¬ IsMoved a) (i : Nat) :
    t.cfgBit a i = s.cfgBit a i := by
  simp only [State.cfgBit, k.cfg_eq hc ha]

/-! ## Records found after an update -/

theorem find_updWhere {α : Type} {p : α → Bool} {f : α → α} (hf : ∀ x, p x = true → p (f x) = true) (l : List α) :
    (updWhere p f l).find? p = (l.find? p).map f := by
  induction l with
  | nil => rfl
  | cons x l ih =>
    simp only [updWhere, List.map_cons] at ih ⊢
    by_cases h : p x = true
    · simp [h, hf x h]
    · simp only [h, Bool.false_eq_true, if_false, List.find?_cons, ih]

theorem State.findConn_updConn {s : State} {k : Nat} {f : HConn → HConn} (hf : ∀ x, (f x).id = x.id) :
    (s.updConn k f).findConn k = (s.findConn k).map f :=
  find_updWhere (p := fun r : HConn => r.id = k) (by simp [hf]) _

theorem State.findCtrl_updCtrl {s : State} {k : Nat} {f : Ctrl → Ctrl} (hf : ∀ x, (f x).cntlid = x.cntlid) :
    (s.updCtrl k f).findCtrl k = (s.findCtrl k).map f :=
  find_updWhere (p := fun r : Ctrl => r.cntlid = k) (by simp [hf]) _

theorem State.findSq_updSq {s : State} {c q : Nat} {f : SubQ → SubQ} (hf : ∀ x, (f x).cntlid = x.cntlid ∧ (f x).sqid = x.sqid) :
    (s.updSq c q f).findSq c q = (s.findSq c q).map f :=
  find_updWhere (p := fun r : SubQ => r.cntlid = c && r.sqid = q) (by simp [hf]) _

theorem State.findTag_updTag {s : State} {k : Nat} {f : TagRec → TagRec} (hf : ∀ x, (f x).tag = x.tag) :
    (s.updTag k f).findTag k = (s.findTag k).map f :=
  find_updWhere (p := fun r : TagRec => r.tag = k) (by simp [hf]) _

theorem State.findVs_updVs {s : State} {k : Nat} {f : Vs → Vs} (hf : ∀ x, (f x).vsid = x.vsid) :
    (s.updVs k f).findVs k = (s.findVs k).map f :=
  find_updWhere (p := fun r : Vs => r.vsid = k) (by simp [hf]) _

theorem State.findNs_updNs {s : State} {v n : Nat} {f : Ns → Ns} (hf : ∀ x, (f x).vsid = x.vsid ∧ (f x).nsid = x.nsid) :
    (s.updNs v n f).findNs v n = (s.findNs v n).map f :=
  find_updWhere (p := fun r : Ns => r.vsid = v && r.nsid = n) (by simp [hf]) _

theorem State.findRing_updRing {s : State} {k : Nat} {f : Ring → Ring} (hf : ∀ x, (f x).num = x.num) :
    (s.updRing k f).findRing k = (s.findRing k).map f :=
  find_updWhere (p := fun r : Ring => r.num = k) (by simp [hf]) _

theorem State.findGroup_updGroup {s : State} {k : Nat} {f : Group → Group} (hf : ∀ x, (f x).id = x.id) :
    (s.updGroup k f).findGroup k = (s.findGroup k).map f :=
  find_updWhere (p := fun r : Group => r.id = k) (by simp [hf]) _

theorem State.findKey_updKey {s : State} {k : Nat} {f : KeySlot → KeySlot} (hf : ∀ x, (f x).slot = x.slot) :
    (s.updKey k f).findKey k = (s.findKey k).map f :=
  find_updWhere (p := fun r : KeySlot => r.slot = k) (by simp [hf]) _

theorem State.bayOf_setBay {s : State} {b : Nat} {f : Bay → Bay} (h : b < s.bay.bays.length) :
    (s.setBay b f).bayOf b = f (s.bayOf b) := by
  simp only [State.bayOf, State.setBay, getD_setAt _ _ _ _ _ h, if_true]

theorem State.portOf_setPort {s : State} {b : Nat} {f : DrivePort → DrivePort} (h : b < s.bay.ports.length) :
    (s.setPort b f).portOf b = f (s.portOf b) := by
  simp only [State.portOf, State.setPort, getD_setAt _ _ _ _ _ h, if_true]

theorem State.fabPort_setFabPort {s : State} {b : Nat} {f : FabPort → FabPort} (h : b < s.rfx.ports.length) :
    (s.setFabPort b f).fabPort b = f (s.fabPort b) := by
  simp only [State.fabPort, State.setFabPort, getD_setAt _ _ _ _ _ h, if_true]

/-! ## Connections, controllers and queues while tags are wound up -/

theorem foldl_frame {α β : Type} {g : State → β} {f : State → α → State} (hf : ∀ s a, g (f s a) = g s) (l : List α) :
    ∀ s, g (l.foldl f s) = g s := by
  induction l with
  | nil => exact fun _ => rfl
  | cons a l ih => exact fun s => (ih _).trans (hf s a)

@[simp] theorem State.releaseLocks_conns (s : State) (t : Nat) : (s.releaseLocks t).hce.conns = s.hce.conns := by
  rfl

@[simp] theorem State.releaseLocks_ctrls (s : State) (t : Nat) : (s.releaseLocks t).hce.ctrls = s.hce.ctrls := by
  rfl

@[simp] theorem State.releaseLocks_sqs (s : State) (t : Nat) : (s.releaseLocks t).hce.sqs = s.hce.sqs := by
  rfl

@[simp] theorem State.releaseLocks_tags (s : State) (t : Nat) : (s.releaseLocks t).hce.tags = s.hce.tags := by
  rfl

theorem State.reMirror_hce (s : State) (v n b c : Nat) : (s.reMirror v n b c).hce = s.hce :=
  foldl_frame (g := fun s => s.hce) (fun s _ => by dsimp only; rw [State.mirSend2_hce, State.mirSend_hce]) _ _

theorem State.dropNotice_hce_eq (s : State) (m : Bool) (a b c d e f : Nat) : (s.dropNotice m a b c d e f).hce = s.hce := by
  unfold State.dropNotice
  dsimp only
  split
  · rw [State.mirSend_hce]
  · rw [State.reMirror_hce, State.mirSend2_hce, State.mirSend_hce]

/-- The write buffer and the deallocation records lose the version; nothing else of the engine changes. -/
theorem State.dropVersion_hce (s : State) (v : Nat) :
    (s.dropVersion v).hce = { s.hce with
      wb := s.hce.wb.filter (fun e => e.ver ≠ v || e.owner ≠ 0 || e.committed)
      deallocs := s.hce.deallocs.filter (fun e => e.ver ≠ v || e.tag = noTag || e.committed) } := by
  unfold State.dropVersion
  refine (foldl_frame (g := fun s => s.hce) (fun s d => foldl_frame (g := fun s => s.hce)
    (fun s x => State.dropNotice_hce_eq ..) _ _) _ _).trans ?_
  exact foldl_frame (g := fun s => s.hce) (fun s e => State.dropNotice_hce_eq ..) _ _

@[simp] theorem State.dropVersion_tags (s : State) (v : Nat) : (s.dropVersion v).hce.tags = s.hce.tags :=
  by rw [State.dropVersion_hce]

@[simp] theorem State.dropVersion_conns (s : State) (v : Nat) : (s.dropVersion v).hce.conns = s.hce.conns :=
  by rw [State.dropVersion_hce]

@[simp] theorem State.dropVersion_ctrls (s : State) (v : Nat) : (s.dropVersion v).hce.ctrls = s.hce.ctrls :=
  by rw [State.dropVersion_hce]

@[simp] theorem State.dropVersion_sqs (s : State) (v : Nat) : (s.dropVersion v).hce.sqs = s.hce.sqs :=
  by rw [State.dropVersion_hce]

@[simp] theorem State.sweepDead_conns (s : State) : (s.sweepDead).hce.conns = s.hce.conns := by
  rfl

@[simp] theorem State.sweepDead_ctrls (s : State) : (s.sweepDead).hce.ctrls = s.hce.ctrls := by
  rfl

@[simp] theorem State.sweepDead_sqs (s : State) : (s.sweepDead).hce.sqs = s.hce.sqs := by
  rfl

@[simp] theorem State.respond_conns (s : State) (t : Nat) (st : CplStatus) : (s.respond t st).hce.conns = s.hce.conns := by
  unfold State.respond
  split
  · rfl
  · split
    · rfl
    · simp

@[simp] theorem State.respond_ctrls (s : State) (t : Nat) (st : CplStatus) : (s.respond t st).hce.ctrls = s.hce.ctrls := by
  unfold State.respond
  split
  · rfl
  · split
    · rfl
    · simp

@[simp] theorem State.respond_sqs (s : State) (t : Nat) (st : CplStatus) : (s.respond t st).hce.sqs = s.hce.sqs := by
  unfold State.respond
  split
  · rfl
  · split
    · rfl
    · simp

@[simp] theorem State.freeTag_conns (s : State) (t : Nat) : (s.freeTag t).hce.conns = s.hce.conns := by
  unfold State.freeTag
  split
  · rfl
  · simp

@[simp] theorem State.freeTag_ctrls (s : State) (t : Nat) : (s.freeTag t).hce.ctrls = s.hce.ctrls := by
  unfold State.freeTag
  split
  · rfl
  · simp

@[simp] theorem State.freeTag_sqs (s : State) (t : Nat) : (s.freeTag t).hce.sqs = s.hce.sqs := by
  unfold State.freeTag
  split
  · rfl
  · simp

@[simp] theorem State.squash_conns (s : State) (t : Nat) (st : CplStatus) (post : Bool) : (s.squash t st post).hce.conns = s.hce.conns := by
  unfold State.squash
  split
  · rfl
  · split
    · rfl
    · simp

@[simp] theorem State.squash_ctrls (s : State) (t : Nat) (st : CplStatus) (post : Bool) : (s.squash t st post).hce.ctrls = s.hce.ctrls := by
  unfold State.squash
  split
  · rfl
  · split
    · rfl
    · simp

@[simp] theorem State.squash_sqs (s : State) (t : Nat) (st : CplStatus) (post : Bool) : (s.squash t st post).hce.sqs = s.hce.sqs := by
  unfold State.squash
  split
  · rfl
  · split
    · rfl
    · simp

@[simp] theorem State.settle_conns (s : State) (t : Nat) : (s.settle t).hce.conns = s.hce.conns := by
  unfold State.settle
  split
  · split
    · simp
    · rfl
  · rfl

@[simp] theorem State.settle_ctrls (s : State) (t : Nat) : (s.settle t).hce.ctrls = s.hce.ctrls := by
  unfold State.settle
  split
  · split
    · simp
    · rfl
  · rfl

@[simp] theorem State.settle_sqs (s : State) (t : Nat) : (s.settle t).hce.sqs = s.hce.sqs := by
  unfold State.settle
  split
  · split
    · simp
    · rfl
  · rfl

@[simp] theorem State.windTag_conns (s : State) (t : Nat) : (s.windTag t).hce.conns = s.hce.conns := by
  unfold State.windTag
  split
  · rfl
  · split
    · simp
    · dsimp only
      split <;> split <;> simp

@[simp] theorem State.windTag_ctrls (s : State) (t : Nat) : (s.windTag t).hce.ctrls = s.hce.ctrls := by
  unfold State.windTag
  split
  · rfl
  · split
    · simp
    · dsimp only
      split <;> split <;> simp

@[simp] theorem State.windTag_sqs (s : State) (t : Nat) : (s.windTag t).hce.sqs = s.hce.sqs := by
  unfold State.windTag
  split
  · rfl
  · split
    · simp
    · dsimp only
      split <;> split <;> simp

@[simp] theorem State.endQueue_conns (s : State) (c q : Nat) : (s.endQueue c q).hce.conns = s.hce.conns :=
  foldl_frame (g := fun s => s.hce.conns) (fun s t => State.windTag_conns s t) _ s

@[simp] theorem State.endQueue_ctrls (s : State) (c q : Nat) : (s.endQueue c q).hce.ctrls = s.hce.ctrls :=
  foldl_frame (g := fun s => s.hce.ctrls) (fun s t => State.windTag_ctrls s t) _ s

@[simp] theorem State.beginReset_conns (s : State) (c : Nat) (d : Option Nat) (e : Bool) :
    (s.beginReset c d e).hce.conns = s.hce.conns := by
  unfold State.beginReset
  split
  · rfl
  · exact (foldl_frame (g := fun s => s.hce.conns) (fun s t => State.windTag_conns s t) _ _).trans
      (foldl_frame (g := fun s => s.hce.conns) (fun s q => State.endQueue_conns s c q) _ s)

/-- What a controller reset makes of the controller's record (R69). -/
theorem State.beginReset_ctrls {s : State} {c : Nat} {x : Ctrl} (h : s.findCtrl c = some x) (d : Option Nat) (e : Bool) :
    (s.beginReset c d e).hce.ctrls = updWhere (fun r => r.cntlid = c) (fun y =>
      { y with ccEn := false, resetting := true, resetDisc := d, resetEnds := x.resetEnds || e, aers := [], aborts := [],
               adminWait := [], events := [], kaDeadline := if e then none else y.kaDeadline }) s.hce.ctrls := by
  unfold State.beginReset
  rw [h]
  dsimp only
  rw [State.updCtrl_hce]
  dsimp only
  congr 1
  exact (foldl_frame (g := fun s => s.hce.ctrls) (fun s t => State.windTag_ctrls s t) _ _).trans
    (foldl_frame (g := fun s => s.hce.ctrls) (fun s q => State.endQueue_ctrls s c q) _ s)

theorem State.findCtrl_beginReset {s : State} {c : Nat} {x : Ctrl} (h : s.findCtrl c = some x) (d : Option Nat) (e : Bool) :
    (s.beginReset c d e).findCtrl c = some
      { x with ccEn := false, resetting := true, resetDisc := d, resetEnds := x.resetEnds || e, aers := [], aborts := [],
               adminWait := [], events := [], kaDeadline := if e then none else x.kaDeadline } := by
  unfold State.findCtrl
  rw [State.beginReset_ctrls h, find_updWhere (by intro x h; exact h)]
  show (s.findCtrl c).map _ = _
  rw [h]
  rfl

@[simp] theorem State.dropConn_ctrls (s : State) (k : Nat) : (s.dropConn k).hce.ctrls = s.hce.ctrls := by
  unfold State.dropConn
  split <;> simp

@[simp] theorem State.closeConn_ctrls (s : State) (k : Nat) : (s.closeConn k).hce.ctrls = s.hce.ctrls := by
  unfold State.closeConn
  split
  · rfl
  · split <;> simp

@[simp] theorem State.dropConn_sqs (s : State) (k : Nat) : (s.dropConn k).hce.sqs = s.hce.sqs := by
  unfold State.dropConn
  split <;> simp

@[simp] theorem State.closeConn_sqs (s : State) (k : Nat) : (s.closeConn k).hce.sqs = s.hce.sqs := by
  unfold State.closeConn
  split
  · rfl
  · split <;> simp

@[simp] theorem State.dropConn_tags (s : State) (k : Nat) : (s.dropConn k).hce.tags = s.hce.tags := by
  unfold State.dropConn
  split <;> simp

@[simp] theorem State.closeConn_tags (s : State) (k : Nat) : (s.closeConn k).hce.tags = s.hce.tags := by
  unfold State.closeConn
  split
  · rfl
  · split <;> simp

@[simp] theorem State.logError_sqs (s : State) (c q cid : Nat) (st : CplStatus) (lba : Nat) :
    (s.logError c q cid st lba).hce.sqs = s.hce.sqs := by
  unfold State.logError
  split <;> rfl

@[simp] theorem State.logError_conns (s : State) (c q cid : Nat) (st : CplStatus) (lba : Nat) :
    (s.logError c q cid st lba).hce.conns = s.hce.conns := by
  unfold State.logError
  split <;> rfl

@[simp] theorem State.logError_tags (s : State) (c q cid : Nat) (st : CplStatus) (lba : Nat) :
    (s.logError c q cid st lba).hce.tags = s.hce.tags := by
  unfold State.logError
  split <;> rfl

@[simp] theorem State.postCqe_sqs (s : State) (c q cid : Nat) (st : CplStatus) (dw0 lba : Nat) :
    (s.postCqe c q cid st dw0 lba).hce.sqs = s.hce.sqs := by simp [State.postCqe]

@[simp] theorem State.postCqe_conns (s : State) (c q cid : Nat) (st : CplStatus) (dw0 lba : Nat) :
    (s.postCqe c q cid st dw0 lba).hce.conns = s.hce.conns := by simp [State.postCqe]

@[simp] theorem State.postCqe_tags (s : State) (c q cid : Nat) (st : CplStatus) (dw0 lba : Nat) :
    (s.postCqe c q cid st dw0 lba).hce.tags = s.hce.tags := by simp [State.postCqe]

/-! ## Admin commands -/

theorem State.adminDone_hce_ok (s : State) (c cid dw0 : Nat) : (s.adminDone c cid cplSuccess dw0).hce = s.hce := by
  unfold State.adminDone
  split
  · rfl
  · simp [State.adminCqe, State.postCqe, State.logError]

theorem State.findCtrl_adminDone_ok (s : State) (c cid dw0 k : Nat) :
    (s.adminDone c cid cplSuccess dw0).findCtrl k = s.findCtrl k := by
  simp only [State.findCtrl, State.adminDone_hce_ok]

@[simp] theorem State.intakeAdmin_hce (s : State) (c cid op : Nat) (args : List Nat) : (s.intakeAdmin c cid op args).hce = s.hce := by
  unfold State.intakeAdmin
  split
  · rfl
  · rw [State.mirSend_hce]

theorem State.takeAdmin_hce (s : State) (c cid op : Nat) (args : List Nat) : (s.takeAdmin c cid op args).hce = (s.passAdmin c).hce := by
  unfold State.takeAdmin State.passAdmin State.updCtrl
  simp only [State.intakeAdmin_hce]

@[simp] theorem State.takeAdmin_sqs (s : State) (c cid op : Nat) (args : List Nat) :
    (s.takeAdmin c cid op args).hce.sqs = s.hce.sqs := by rw [State.takeAdmin_hce]; rfl

@[simp] theorem State.takeAdmin_tags (s : State) (c cid op : Nat) (args : List Nat) :
    (s.takeAdmin c cid op args).hce.tags = s.hce.tags := by rw [State.takeAdmin_hce]; rfl

@[simp] theorem State.takeAdmin_progress (s : State) (c cid op : Nat) (args : List Nat) :
    (s.takeAdmin c cid op args).hce.progress = s.hce.progress := by rw [State.takeAdmin_hce]; rfl

theorem State.findTag_squash {s : State} {k : Nat} {r : TagRec} (h : s.findTag k = some r) (ho : r.open_ = true)
    (hi : r.intents = false) (st : CplStatus) (p : Bool) :
    (s.squash k st p).findTag k = some { r with st := .squashing, result := some st, post := p } := by
  unfold State.squash
  rw [h]
  simp only [ho, hi, Bool.not_true, Bool.or_self, Bool.false_eq_true, if_false]
  rw [State.findTag_updTag (by intro _; rfl)]
  have : (((s.releaseLocks k).dropVersion r.seq).leaveGroup k).findTag k = some r := by
    have e : (((s.releaseLocks k).dropVersion r.seq).leaveGroup k).hce.tags = s.hce.tags :=
      State.dropVersion_tags (s.releaseLocks k) r.seq
    rw [← h]
    simp only [State.findTag, e]
  rw [this]
  simp [hi]

/-- An admin completion leaves with the queue's SQHD (R41, R260). -/
theorem State.adminDone_sent {s : State} {c : Nat} {x : Ctrl} (h : s.findCtrl c = some x) (cid : Nat) (st : CplStatus) (dw0 : Nat) :
    s.Sent (s.adminDone c cid st dw0) (.cqe c 0 cid st dw0 x.adminSqhd) := by
  unfold State.adminDone
  rw [h]
  dsimp only [State.adminCqe, State.postCqe, if_true]
  have h1 : ∀ b, (s.mirSend b).findCtrl c = some x := fun b => by simp only [State.findCtrl, State.mirSend_hce]; exact h
  rw [h1]
  refine State.Sent.later (State.Sent.before (a := State.logError _ _ _ _ _ _) ?_ (.emit _ _)) (State.hostFrames_kept ..).out
  exact (State.mirSend_kept s _).out.trans (State.logError_kept ..).out

/-- An admin capsule that leaves its queue changes nothing of its controller but the queue (R41, R58). -/
theorem State.findCtrl_takeAdmin_passed {s : State} {c : Nat} {x : Ctrl} (h : s.findCtrl c = some x) (cid op : Nat) (args : List Nat) :
    (s.takeAdmin c cid op args).findCtrl c = some x.passed := by
  have e : (s.takeAdmin c cid op args).findCtrl c = (s.passAdmin c).findCtrl c := by
    simp only [State.findCtrl, State.takeAdmin_hce]
  have hf : ∀ y : Ctrl, y.passed.cntlid = y.cntlid := by
    intro y; unfold Ctrl.passed; split <;> rfl
  rw [e, State.passAdmin, State.findCtrl_updCtrl hf, h]
  rfl

theorem Ctrl.passed_eq {x : Ctrl} (hw : x.adminWait = []) : x.passed = { x with adminSqhd := x.nextSqhd } := by
  unfold Ctrl.passed
  rw [if_pos (by rw [hw]; rfl)]
  rfl

theorem State.findCtrl_takeAdmin {s : State} {c : Nat} {x : Ctrl} (h : s.findCtrl c = some x) (hw : x.adminWait = [])
    (cid op : Nat) (args : List Nat) :
    (s.takeAdmin c cid op args).findCtrl c = some { x with adminSqhd := x.nextSqhd } := by
  rw [State.findCtrl_takeAdmin_passed h, Ctrl.passed_eq hw]

/-! ## Commands of the mailbox -/

theorem State.runCmd_starts {s : State} {m : Master} {op : Nat} {c : MbCmd} (h : s.Starts m op c) (f : MbCmd → State → State) :
    s.runCmd m op f = f c s := by
  simp only [State.runCmd, h.1, h.2, if_true]

theorem State.checked_ok {s : State} {m : Master} {l : List (Bool × Nat)} (h : firstFail l = none) (f : State → State) :
    s.checked m l f = f s := by
  simp only [State.checked, h]

theorem State.checked_fail {s : State} {m : Master} {l : List (Bool × Nat)} {st : Nat} (h : firstFail l = some st)
    (f : State → State) : s.checked m l f = s.finish m st [] := by
  simp only [State.checked, h]

theorem firstFail_cons_false (st : Nat) (l : List (Bool × Nat)) : firstFail ((false, st) :: l) = firstFail l := rfl

theorem Master.num_inj {m n : Master} (h : m.num = n.num) : m = n := by
  cases m <;> cases n <;> first | rfl | exact absurd h (by decide)

theorem Master.num_lt (m : Master) : m.num < 4 := by cases m <;> decide

theorem State.heldOf_setHeld {s : State} (hl : s.mbx.held.length = 4) (m n : Master) (f : Held → Held) :
    (s.setHeld m f).heldOf n = if n = m then f (s.heldOf m) else s.heldOf n := by
  simp only [State.heldOf, State.setHeld]
  rw [getD_setAt _ _ _ _ _ (by rw [hl]; exact Master.num_lt m)]
  by_cases h : n = m
  · subst h
    simp
  · have h1 : n.num ≠ m.num := fun e => h (Master.num_inj e)
    simp [h, h1]

theorem State.dmaResult_mbx (s : State) (a : Nat) (l : List Byte) : (s.dmaResult a l).mbx = s.mbx :=
  (Kept.dmaResult (uu := { out := true }) a l (Kept.refl s) (hOut := rfl)).only.mbx.resolve_left Bool.false_ne_true

/-- The mailbox without a master's command. -/
def State.noCmdOf (s : State) (m : Master) : State :=
  { s with mbx := { s.mbx with cmds := s.mbx.cmds.filter (fun d => d.m ≠ m) } }

theorem State.Ended.of_mbx {s t : State} {m : Master} {st : Nat} (hl : s.mbx.held.length = 4) (f : Held → Held)
    (hf : ∀ h, (f h).result.map (fun r => r.1) = some st) (ht : t.mbx = ((s.noCmdOf m).setHeld m f).mbx) : t.Ended m st := by
  constructor
  · simp [State.cmdOf, ht, State.setHeld, State.noCmdOf, List.find?_filter]
  · have h1 : t.heldOf m = ((s.noCmdOf m).setHeld m f).heldOf m := by simp only [State.heldOf, ht]
    rw [h1, State.heldOf_setHeld (s := s.noCmdOf m) hl, if_pos rfl]
    exact hf _

theorem State.finishOne_ended {s : State} {m : Master} {c : MbCmd} (hl : s.mbx.held.length = 4) (hc : s.cmdOf m = some c)
    (st : Nat) (res : List Byte) : (s.finishOne m st res).Ended m st := by
  unfold State.finishOne
  rw [hc]
  dsimp only
  split
  · exact .of_mbx hl _ (fun _ => rfl) (State.bump_mbx _ _)
  · split
    · exact .of_mbx hl _ (fun _ => rfl) (State.dmaResult_mbx _ _ _)
    · exact .of_mbx hl _ (fun _ => rfl) rfl

theorem State.Ended.other {t : State} {m n : Master} {st : Nat} (hl : t.mbx.held.length = 4) (h : t.Ended m st) (hn : m ≠ n)
    (st' : Nat) (res : List Byte) : (t.finishOne n st' res).Ended m st := by
  have key : ∀ (v : State) f, v.mbx = ((t.noCmdOf n).setHeld n f).mbx → v.Ended m st := by
    intro v f hv
    constructor
    · have h0 : ∀ d ∈ t.mbx.cmds, ¬ d.m = m := by simpa [State.cmdOf] using h.1
      have h1 : v.mbx.cmds = t.mbx.cmds.filter (fun d => d.m ≠ n) := by rw [hv]; rfl
      simp only [State.cmdOf, h1, List.find?_eq_none]
      intro d hd
      simpa using h0 d (List.mem_filter.mp hd).1
    · have h1 : v.heldOf m = ((t.noCmdOf n).setHeld n f).heldOf m := by simp only [State.heldOf, hv]
      rw [h1, State.heldOf_setHeld (s := t.noCmdOf n) hl, if_neg hn]
      exact h.2
  unfold State.finishOne
  split
  · exact h
  · dsimp only
    split
    · exact key _ _ (State.bump_mbx _ _)
    · split
      · exact key _ _ (State.dmaResult_mbx _ _ _)
      · exact key _ _ rfl

@[simp] theorem State.length_held_finishOne (s : State) (m : Master) (st : Nat) (res : List Byte) :
    (s.finishOne m st res).mbx.held.length = s.mbx.held.length := by
  unfold State.finishOne
  split
  · rfl
  · dsimp only
    split
    · exact length_setAt _ _ _
    · split
      · rw [State.dmaResult_mbx]; exact length_setAt _ _ _
      · exact length_setAt _ _ _

/-- A command that ends leaves the mailbox with its status held (R417). -/
theorem State.finish_ended {s : State} {m : Master} {c : MbCmd} (hl : s.mbx.held.length = 4) (hc : s.cmdOf m = some c)
    (st : Nat) (res : List Byte) : (s.finish m st res).Ended m st := by
  have h1 := State.finishOne_ended hl hc st res
  unfold State.finish
  dsimp only
  split
  · next d l hd =>
    split
    · refine h1.other (by rw [State.length_held_finishOne, hl]) (fun e => ?_) _ _
      have h2 := h1.1
      rw [State.cmdOf, hd] at h2
      simp [e] at h2
    · exact h1
  · exact h1

theorem State.finishOne_result {s : State} {m : Master} {c : MbCmd} (hl : s.mbx.held.length = 4) (hc : s.cmdOf m = some c)
    (res : List Byte) : ((s.finishOne m stOk res).heldOf m).result = some (stOk, if c.flags / 8 % 2 = 1 then [] else res) := by
  have key : ∀ (v : State) f, v.mbx = ((s.noCmdOf m).setHeld m f).mbx → v.heldOf m = f (s.heldOf m) := by
    intro v f hv
    have h1 : v.heldOf m = ((s.noCmdOf m).setHeld m f).heldOf m := by simp only [State.heldOf, hv]
    rw [h1, State.heldOf_setHeld (s := s.noCmdOf m) hl, if_pos rfl]
    rfl
  unfold State.finishOne
  rw [hc]
  dsimp only
  split
  · refine (congrArg Held.result (key _ _ (State.bump_mbx _ _))).trans ?_; simp
  · split
    · rename_i hd; refine (congrArg Held.result (key _ _ (State.dmaResult_mbx _ _ _))).trans ?_; simp at hd ⊢; simp [hd]
    · rename_i hd; refine (congrArg Held.result (key _ _ rfl)).trans ?_; simp at hd ⊢; simp [hd]

theorem State.heldOf_finishOne {t : State} {m n : Master} (hl : t.mbx.held.length = 4) (hn : m ≠ n) (st : Nat)
    (res : List Byte) : (t.finishOne n st res).heldOf m = t.heldOf m := by
  have key : ∀ (v : State) f, v.mbx = ((t.noCmdOf n).setHeld n f).mbx → v.heldOf m = t.heldOf m := by
    intro v f hv
    have h1 : v.heldOf m = ((t.noCmdOf n).setHeld n f).heldOf m := by simp only [State.heldOf, hv]
    rw [h1, State.heldOf_setHeld (s := t.noCmdOf n) hl, if_neg hn]
    rfl
  unfold State.finishOne
  split
  · rfl
  · dsimp only
    split
    · exact key _ _ (State.bump_mbx _ _)
    · split
      · exact key _ _ (State.dmaResult_mbx _ _ _)
      · exact key _ _ rfl

/-- A command that ends with OK leaves its result in the mailbox (R417). -/
theorem State.finish_yields {s : State} {m : Master} {c : MbCmd} (hl : s.mbx.held.length = 4) (hc : s.cmdOf m = some c)
    (res : List Byte) : (s.finish m stOk res).Yields m c res := by
  refine ⟨State.finish_ended hl hc _ _, ?_⟩
  have h1 := State.finishOne_ended hl hc stOk res
  unfold State.finish
  dsimp only
  split
  · next d l hd =>
    split
    · rw [State.heldOf_finishOne (by rw [State.length_held_finishOne, hl]), State.finishOne_result hl hc]
      intro e
      have h2 := h1.1
      rw [State.cmdOf, hd] at h2
      simp [e] at h2
    · exact State.finishOne_result hl hc _
  · exact State.finishOne_result hl hc _

/-- An answer of a length that the state fixes ends with it where it has room, else with INVALID_PARAM (R414). -/
theorem State.answer_answers {s : State} {m : Master} {c : MbCmd} (hl : s.mbx.held.length = 4) (hc : s.cmdOf m = some c)
    (res : List Byte) : (s.answer c res).Answers m c res := by
  have e : c.m = m := by have := List.find?_some hc; simpa using this
  unfold State.answer State.Answers
  rw [e]
  split
  · exact State.finish_ended hl hc _ _
  · exact State.finish_yields hl hc _

end Sys2Proof.Machine
end

