-- ==== Sys2Proof/Laws/KeptFanout.lean ====
section
/-! SUPPORT. `Kept` for the commands of Machine/Fanout.lean. -/

set_option Elab.async false

namespace Sys2Proof.Machine

theorem KeptBy.coalescingWindowExpiry {uu : Units} {zz s : State} (group : Nat) (hk : Kept uu zz s)
    (hHce : uu.hce = true := by assumption) (hRfu : uu.rfu = true := by assumption) (hRfx : uu.rfx = true := by assumption)
    (hXbr : uu.xbr = true := by assumption) (hPmu : uu.pmu = true := by assumption)
    (hMoved : uu.moved = true := by assumption) (hOut : uu.out = true := by assumption) :
    KeptBy uu zz (execCoalescingWindowExpiry group s) := by
  unfold execCoalescingWindowExpiry
  repeat' first
    | with_reducible assumption
    | exact {}
    | intro _
    | extract_lets +onlyGivenNames _
    | with_reducible refine KeptBy.next ?_
    | with_reducible apply Kept.closeGroup
    | split

theorem KeptBy.groupDataReady {uu : Units} {zz s : State} (group : Nat) (hk : Kept uu zz s)
    (hHce : uu.hce = true := by assumption) (hRfu : uu.rfu = true := by assumption) (hRfx : uu.rfx = true := by assumption)
    (hXbr : uu.xbr = true := by assumption) (hPmu : uu.pmu = true := by assumption)
    (hMoved : uu.moved = true := by assumption) (hOut : uu.out = true := by assumption) :
    KeptBy uu zz (execGroupDataReady group s) := by
  unfold execGroupDataReady
  repeat' first
    | with_reducible assumption
    | exact {}
    | intro _
    | extract_lets +onlyGivenNames _
    | with_reducible refine KeptBy.next ?_
    | with_reducible apply Kept.groupReady

theorem KeptBy.residueTimeout {uu : Units} {zz s : State} (group : Nat) (tag : Nat) (hk : Kept uu zz s)
    (hRfu : uu.rfu = true := by assumption) (hXbr : uu.xbr = true := by assumption)
    (hMoved : uu.moved = true := by assumption) :
    KeptBy uu zz (execResidueTimeout group tag s) := by
  unfold execResidueTimeout
  repeat' first
    | with_reducible assumption
    | exact {}
    | intro _
    | (extract_lets +onlyGivenNames x; first | refine Kept.cut x ?_ ?_ <;> [subst x; (clear_value x; intro _)] | refine KeptBy.cut x ?_ ?_ <;> [subst x; (clear_value x; intro _)] | skip)
    | with_reducible refine KeptBy.next ?_
    | with_reducible apply Kept.dropCopies
    | with_reducible apply Kept.bumpBy
    | with_reducible apply Kept.bump
    | with_reducible apply Kept.updGroup
    | with_reducible apply Kept.dataFrames
    | split

theorem KeptBy.groupRegionRelease {uu : Units} {zz s : State} (group : Nat) (hk : Kept uu zz s)
    (hRfu : uu.rfu = true := by assumption) :
    KeptBy uu zz (execGroupRegionRelease group s) := by
  unfold execGroupRegionRelease
  repeat' first
    | with_reducible assumption
    | exact {}
    | intro _
    | extract_lets +onlyGivenNames _
    | with_reducible refine KeptBy.next ?_
    | split
    | (with_reducible apply Kept.update) <;> [assumption; exact {}]

end Sys2Proof.Machine
end

