-- ==== Sys2Proof/Laws/Members.lean ====
section
/-! SUPPORT. What a change of members leaves of the rings: the upkeep that follows it (superblocks, service records, gathers
that look again, stripe writes that advance) changes only GEN, SVCSEQ, the cursors of passes that are done, the dirty-region bits and the missed regions. -/

set_option Elab.async false

namespace Sys2Proof.Machine

/-- A ring without what the upkeep changes. -/
def Ring.form (r : Ring) : Ring :=
  { r with gen := 0, svcSeq := 0, bitmap := [], cursors := [], slots := r.slots.map (fun m => { m with missed := [] }) }

/-- Every ring of a state has the same form in another. -/
structure State.SameRings (s t : State) : Prop where
  find : ∀ n, (t.findRing n).map Ring.form = (s.findRing n).map Ring.form

theorem State.SameRings.refl (s : State) : s.SameRings s := ⟨fun _ => rfl⟩

theorem State.SameRings.trans {s t u : State} (h : s.SameRings t) (k : t.SameRings u) : s.SameRings u :=
  ⟨fun n => (k.find n).trans (h.find n)⟩

theorem State.SameRings.of_rings {s t : State} (h : t.rge.rings = s.rge.rings) : s.SameRings t := by
  constructor; intro n; unfold State.findRing; rw [h]

theorem State.SameRings.of_rge {s t : State} (h : t.rge = s.rge) : s.SameRings t := .of_rings (by rw [h])

theorem setAt_map {α β : Type} (f : α → β) (l : List α) (i : Nat) (v : α) : (setAt l i v).map f = setAt (l.map f) i (f v) := by
  induction l generalizing i with
  | nil => rfl
  | cons a l ih => cases i <;> simp [setAt, ih]

theorem setAt_self {α : Type} (l : List α) (i : Nat) (v : α) (h : ∀ x, l[i]? = some x → v = x) : setAt l i v = l := by
  induction l generalizing i with
  | nil => rfl
  | cons a l ih =>
    cases i with
    | zero => simp [setAt, h a]
    | succ n => simp only [setAt]; rw [ih n (fun x hx => h x (by simpa using hx))]

theorem Ring.form_setSlot (r : Ring) (j : Nat) (f : MemberSlot → MemberSlot) (hf : ∀ m, { f m with missed := [] } = { m with missed := [] }) :
    (r.setSlot j f).form = r.form := by
  unfold Ring.setSlot Ring.form
  simp only
  rw [setAt_map, setAt_self]
  intro x hx
  rw [hf]
  simp only [List.getElem?_map, Option.map_eq_some_iff] at hx
  obtain ⟨a, h1, h2⟩ := hx
  subst h2
  unfold Ring.slotAt
  rw [List.getD_eq_getElem?_getD, h1]; rfl

theorem State.num_of_find {s : State} {n : Nat} {r : Ring} (h : s.findRing n = some r) : r.num = n := by
  have := List.find?_some h; simpa using this

theorem State.findRing_updRing_any (s : State) (n j : Nat) (f : Ring → Ring) (hf : ∀ r, r.num = j → (f r).num = j) :
    (s.updRing j f).findRing n = (s.findRing n).map (fun r => if r.num = j then f r else r) := by
  unfold State.findRing
  show List.find? _ (updWhere _ _ _) = _
  unfold updWhere
  induction s.rge.rings with
  | nil => rfl
  | cons a l ih =>
    rw [List.map_cons, List.find?_cons, List.find?_cons]
    by_cases ha : a.num = j
    · by_cases hb : j = n
      · simp [ha, hb, hf a ha]
      · have := hf a ha; simp_all
    · by_cases hb : a.num = n <;> simp_all

theorem State.SameRings.upd (s : State) (n : Nat) (f : Ring → Ring) (hf : ∀ r, (f r).form = r.form) : s.SameRings (s.updRing n f) := by
  constructor
  intro k
  have hn : ∀ r, (f r).num = r.num := by
    intro r; show (f r).form.num = r.form.num; rw [hf r]
  rw [State.findRing_updRing_any _ _ _ _ fun r h => (hn r).trans h]
  cases s.findRing k with
  | none => rfl
  | some r =>
    simp only [Option.map_some]
    split
    · exact congrArg some (hf r)
    · rfl

/-- The ring found, written back with another value of the same form. -/
theorem State.SameRings.put {s : State} {n : Nat} {r r1 : Ring} (h : s.findRing n = some r) (hr : r1.form = r.form) :
    s.SameRings (s.updRing n (fun _ => r1)) := by
  constructor
  intro k
  have e : r1.num = n := by
    have : r1.form.num = r.form.num := by rw [hr]
    calc r1.num = r1.form.num := rfl
      _ = r.form.num := this
      _ = r.num := rfl
      _ = n := State.num_of_find h
  rw [State.findRing_updRing_any _ _ _ _ fun _ _ => e]
  cases hk : s.findRing k with
  | none => rfl
  | some x =>
    simp only [Option.map_some]
    split
    · rename_i hx
      have : k = n := (State.num_of_find hk).symm.trans hx
      subst this
      rw [h] at hk; cases hk
      exact congrArg some hr
    · rfl

theorem State.SameRings.fold {α : Type} {f : State → α → State} (hf : ∀ s a, State.SameRings s (f s a)) (l : List α) (s : State) :
    s.SameRings (l.foldl f s) := by
  induction l generalizing s with
  | nil => exact .refl s
  | cons a l ih => exact (hf s a).trans (ih _)

theorem State.SameRings.frame {z s t : State} (h : z.SameRings s) (e : t.rge = s.rge) : z.SameRings t := h.trans (.of_rge e)

/-- A change of a ring that leaves its form. -/
structure FormKept (f : Ring → Ring) : Prop where
  is : ∀ r, (f r).form = r.form := by
    intro r
    first
    | rfl
    | exact Ring.form_setSlot _ _ _ (fun _ => rfl)

/-- A change of the ring engine that leaves the rings. -/
structure RingsKept (f : RgeSt → RgeSt) : Prop where
  is : ∀ e, (f e).rings = e.rings := by first | exact fun _ => rfl | (intro e; dsimp only; split <;> rfl)

/-- A record update that leaves the rings. -/
structure RingsLike (t v : State) : Prop where
  is : v.rge.rings = t.rge.rings := by rfl

theorem State.SameRings.update {z t : State} {regs hce rfu rge snt rfx tk vsm kvt mbx bay props ppc xbr sep pwr lcu pmu tst mac out freeCtr pending}
    (h : z.SameRings t)
    (e : RingsLike t ⟨t.now, t.part, t.slot, t.uid, t.smbAddr, t.strapsOk, t.macs, regs, hce, rfu, rge, snt, rfx, tk, vsm, kvt, mbx, bay, props, ppc,
      xbr, sep, pwr, lcu, pmu, tst, mac, out, freeCtr, pending⟩) :
    z.SameRings ⟨t.now, t.part, t.slot, t.uid, t.smbAddr, t.strapsOk, t.macs, regs, hce, rfu, rge, snt, rfx, tk, vsm, kvt, mbx, bay, props, ppc, xbr,
      sep, pwr, lcu, pmu, tst, mac, out, freeCtr, pending⟩ :=
  h.trans (.of_rings e.is)

theorem State.SameRings.cut {z y : State} (x : State) (h : z.SameRings x) (k : z.SameRings x → z.SameRings y) : z.SameRings y := k h

theorem State.SameRings.ofPair {α : Type} {z a : State} {p : State × α} {b : α} (e : p = (a, b)) (h : z.SameRings p.1) : z.SameRings a := by
  cases e
  exact h

theorem State.SameRings.foldl {α : Type} {z : State} {f : State → α → State} (hf : ∀ t a, z.SameRings t → z.SameRings (f t a))
    (l : List α) : ∀ {s : State}, z.SameRings s → z.SameRings (l.foldl f s) := by
  induction l with
  | nil => exact fun h => h
  | cons a l ih => exact fun h => ih (hf _ a h)

/-! ## Operations -/

theorem State.SameRings.bumpBy {z s : State} (a : Nat) (n : Nat) (h : State.SameRings z s) :
    State.SameRings z (State.bumpBy s a n) :=
  h.frame rfl

theorem State.SameRings.raiseFlag {z s : State} (a : Nat) (i : Nat) (h : State.SameRings z s) :
    State.SameRings z (State.raiseFlag s a i) :=
  h.frame rfl

theorem State.SameRings.count {z s : State} (ev : Nat) (addr : Option Nat) (cls : Option Nat) (priv : Nat) (mst : Nat)
    (inc : Nat) (h : State.SameRings z s) :
    State.SameRings z (State.count s ev addr cls priv mst inc) :=
  h.frame ((Kept.count (uu := { moved := true, pmu := true }) _ _ _ _ _ _
    (Kept.refl s) (hMoved := rfl) (hPmu := rfl)).only.rge.resolve_left Bool.false_ne_true)

theorem State.SameRings.hostEvent {z s : State} (ev : Nat) (addr : Nat) (cls : Option Nat) (inc : Nat) (h : State.SameRings z s) :
    State.SameRings z (State.hostEvent s ev addr cls inc) :=
  h.frame ((Kept.hostEvent (uu := { moved := true, pmu := true }) _ _ _ _
    (Kept.refl s) (hMoved := rfl) (hPmu := rfl)).only.rge.resolve_left Bool.false_ne_true)

theorem State.SameRings.laneWork {z s : State} (blocks : Nat) (priv : Nat) (h : State.SameRings z s) :
    State.SameRings z (State.laneWork s blocks priv) :=
  h.frame ((Kept.laneWork (uu := { free := true, moved := true, pmu := true }) _ _
    (Kept.refl s) (hFree := rfl) (hMoved := rfl) (hPmu := rfl)).only.rge.resolve_left Bool.false_ne_true)

theorem State.SameRings.vsCount {z s : State} (v : Nat) (f : VsRec → VsRec) (h : State.SameRings z s) :
    State.SameRings z (State.vsCount s v f) :=
  h.frame ((Kept.vsCount (uu := { pmu := true }) _ _ (Kept.refl s) (hPmu := rfl)).only.rge.resolve_left Bool.false_ne_true)

theorem State.SameRings.mirSendAll {z s : State} (bs : List StreamBody) (h : State.SameRings z s) :
    State.SameRings z (State.mirSendAll s bs) :=
  h.frame ((Kept.mirSendAll (uu := { moved := true, out := true, pmu := true, rfx := true, xbr := true }) _
    (Kept.refl s) (hMoved := rfl) (hOut := rfl) (hPmu := rfl) (hRfx := rfl) (hXbr := rfl)).only.rge.resolve_left Bool.false_ne_true)

theorem State.SameRings.mirSend2 {z s : State} (b : StreamBody) (h : State.SameRings z s) :
    State.SameRings z (State.mirSend2 s b) :=
  h.frame ((Kept.mirSend2 (uu := { out := true, rfx := true, xbr := true }) _
    (Kept.refl s) (hOut := rfl) (hRfx := rfl) (hXbr := rfl)).only.rge.resolve_left Bool.false_ne_true)

theorem State.SameRings.sendLine {z s : State} (area : Nat) (index : Nat) (line : List Byte) (h : State.SameRings z s) :
    State.SameRings z (State.sendLine s area index line) :=
  h.frame ((Kept.sendLine (uu := { moved := true, out := true, pmu := true, rfx := true, xbr := true }) _ _ _
    (Kept.refl s) (hMoved := rfl) (hOut := rfl) (hPmu := rfl) (hRfx := rfl) (hXbr := rfl)).only.rge.resolve_left Bool.false_ne_true)

theorem State.SameRings.updTag {z s : State} (t : Nat) (f : TagRec → TagRec) (h : State.SameRings z s) :
    State.SameRings z (State.updTag s t f) :=
  h.frame ((Kept.updTag (uu := { hce := true }) _ _ (Kept.refl s) (hHce := rfl)).only.rge.resolve_left Bool.false_ne_true)

theorem State.SameRings.updRing {z s : State} (n : Nat) (f : Ring → Ring) (h : State.SameRings z s) (hf : FormKept f) :
    State.SameRings z (s.updRing n f) :=
  h.trans (State.SameRings.upd s n f hf.is)

theorem State.SameRings.updGroup {z s : State} (g : Nat) (f : Group → Group) (h : State.SameRings z s) :
    State.SameRings z (State.updGroup s g f) :=
  h.frame ((Kept.updGroup (uu := { rfu := true }) _ _ (Kept.refl s) (hRfu := rfl)).only.rge.resolve_left Bool.false_ne_true)

theorem State.SameRings.setBay {z s : State} (b : Nat) (f : Bay → Bay) (h : State.SameRings z s) :
    State.SameRings z (State.setBay s b f) :=
  h.frame ((Kept.setBay (uu := { bay := true }) _ _ (Kept.refl s) (hBay := rfl)).only.rge.resolve_left Bool.false_ne_true)

theorem State.SameRings.updKey {z s : State} (k : Nat) (f : KeySlot → KeySlot) (h : State.SameRings z s) :
    State.SameRings z (State.updKey s k f) :=
  h.frame ((Kept.updKey (uu := { kvt := true }) _ _ (Kept.refl s) (hKvt := rfl)).only.rge.resolve_left Bool.false_ne_true)

theorem State.SameRings.recomputeCeil {z s : State} (h : State.SameRings z s) : State.SameRings z (State.recomputeCeil s) :=
  h.frame ((Kept.recomputeCeil (uu := { hce := true })  (Kept.refl s) (hHce := rfl)).only.rge.resolve_left Bool.false_ne_true)

theorem State.SameRings.supersede {z s : State} (v : Nat) (n : Nat) (b : Nat) (cnt : Nat) (ver : Nat) (h : State.SameRings z s) :
    State.SameRings z (State.supersede s v n b cnt ver) :=
  h.frame ((Kept.supersede (uu := { hce := true, moved := true, out := true, pmu := true, rfx := true, xbr := true }) _ _ _ _ _
    (Kept.refl s) (hHce := rfl) (hMoved := rfl) (hOut := rfl) (hPmu := rfl) (hRfx := rfl) (hXbr := rfl)).only.rge.resolve_left Bool.false_ne_true)

theorem State.SameRings.putLost {zz s : State} (e : LostExtent) (hk : State.SameRings zz s) :
    State.SameRings zz (State.putLost s e) := by
  unfold State.putLost
  repeat' first
    | with_reducible assumption
    | exact {}
    | intro _
    | (extract_lets +onlyGivenNames x; first | refine State.SameRings.cut x ?_ ?_ <;> [subst x; (clear_value x; intro _)] | skip)
    | with_reducible apply State.SameRings.sendLine
    | split
    | (with_reducible apply State.SameRings.update) <;> [assumption; exact {}]

theorem State.SameRings.dropLost {zz s : State} (idx : Nat) (hk : State.SameRings zz s) :
    State.SameRings zz (State.dropLost s idx) := by
  unfold State.dropLost
  repeat' first
    | with_reducible assumption
    | exact {}
    | intro _
    | (extract_lets +onlyGivenNames x; first | refine State.SameRings.cut x ?_ ?_ <;> [subst x; (clear_value x; intro _)] | skip)
    | with_reducible apply State.SameRings.sendLine
    | split
    | (with_reducible apply State.SameRings.update) <;> [assumption; exact {}]

theorem State.SameRings.mergeLost {zz s : State} (hk : State.SameRings zz s) : State.SameRings zz (State.mergeLost s) := by
  unfold State.mergeLost
  repeat' first
    | with_reducible assumption
    | exact {}
    | intro _
    | (extract_lets +onlyGivenNames x; first | refine State.SameRings.cut x ?_ ?_ <;> [subst x; (clear_value x; intro _)] | skip)
    | with_reducible apply State.SameRings.dropLost
    | with_reducible apply State.SameRings.putLost
    | with_reducible apply State.SameRings.raiseFlag
    | split

theorem State.SameRings.addLost {zz s : State} (e : LostExtent) (hk : State.SameRings zz s) :
    State.SameRings zz (State.addLost s e) := by
  unfold State.addLost
  repeat' first
    | with_reducible assumption
    | exact {}
    | intro _
    | (extract_lets +onlyGivenNames x; first | refine State.SameRings.cut x ?_ ?_ <;> [subst x; (clear_value x; intro _)] | skip)
    | with_reducible apply State.SameRings.putLost
    | with_reducible apply State.SameRings.raiseFlag
    | with_reducible apply State.SameRings.mergeLost
    | split

theorem State.SameRings.recordLost {zz s : State} (ring : Nat) (rba : Nat) (cause : Nat) (hk : State.SameRings zz s) :
    State.SameRings zz (State.recordLost s ring rba cause) := by
  unfold State.recordLost
  repeat' first
    | with_reducible assumption
    | exact {}
    | intro _
    | (extract_lets +onlyGivenNames x; first | refine State.SameRings.cut x ?_ ?_ <;> [subst x; (clear_value x; intro _)] | skip)
    | with_reducible apply State.SameRings.putLost
    | with_reducible apply State.SameRings.addLost
    | split

theorem State.SameRings.toSlot {z s : State} (r : Ring) (slot : Nat) (op : MOp) (lba : Nat) (rows : List Nat)
    (data : List Block) (fua : Bool) (purpose : MPurpose) (h : State.SameRings z s) :
    State.SameRings z (State.toSlot s r slot op lba rows data fua purpose) :=
  h.frame ((Kept.toSlot (uu := { bay := true, moved := true, out := true, pmu := true }) _ _ _ _ _ _ _ _
    (Kept.refl s) (hBay := rfl) (hMoved := rfl) (hOut := rfl) (hPmu := rfl)).only.rge.resolve_left Bool.false_ne_true)

theorem State.SameRings.askRows {z s : State} (gid : Nat) (l : List RowNeed) (h : State.SameRings z s) :
    State.SameRings z (s.askRows gid l).1 :=
  h.frame ((Kept.askRows (uu := { bay := true, moved := true, out := true, pmu := true }) _ _ (hBay := rfl) (hMoved := rfl) (hOut := rfl) (hPmu := rfl)
    (Kept.refl s)).only.rge.resolve_left Bool.false_ne_true)

theorem State.SameRings.startGather {zz s : State} (owner : GatherFor) (rows : List RowNeed) (hk : State.SameRings zz s) :
    State.SameRings zz (State.startGather s owner rows) := by
  unfold State.startGather
  repeat' first
    | with_reducible assumption
    | exact {}
    | intro _
    | (extract_lets +onlyGivenNames x; first | refine State.SameRings.cut x ?_ ?_ <;> [subst x; (clear_value x; intro _)] | skip)
    | with_reducible apply State.SameRings.askRows
    | split
    | (with_reducible apply State.SameRings.update) <;> [assumption; exact {}]
    | refine State.SameRings.ofPair (by assumption) ?_
    | (with_reducible apply State.SameRings.update) <;> [refine State.SameRings.ofPair (by assumption) ?_; exact {}]

theorem State.SameRings.wakeStacks {z s : State} (h : State.SameRings z s) : State.SameRings z (State.wakeStacks s) :=
  h.frame ((Kept.wakeStacks (uu := { pwr := true })  (Kept.refl s) (hPwr := rfl)).only.rge.resolve_left Bool.false_ne_true)

theorem State.SameRings.cacheInsert {z s : State} (v : Nat) (n : Nat) (b : Nat) (written : Bool) (ct : Block)
    (h : State.SameRings z s) :
    State.SameRings z (State.cacheInsert s v n b written ct) :=
  h.frame ((Kept.cacheInsert (uu := { hce := true }) _ _ _ _ _
    (Kept.refl s) (hHce := rfl)).only.rge.resolve_left Bool.false_ne_true)

theorem State.SameRings.cacheDrop {z s : State} (p : Nat × Nat × Nat × Bool × Block → Bool) (h : State.SameRings z s) :
    State.SameRings z (State.cacheDrop s p) :=
  h.frame ((Kept.cacheDrop (uu := { hce := true }) _ (Kept.refl s) (hHce := rfl)).only.rge.resolve_left Bool.false_ne_true)

theorem State.SameRings.releaseLocks {z s : State} (t : Nat) (h : State.SameRings z s) :
    State.SameRings z (State.releaseLocks s t) :=
  h.frame ((Kept.releaseLocks (uu := { hce := true }) _ (Kept.refl s) (hHce := rfl)).only.rge.resolve_left Bool.false_ne_true)

theorem State.SameRings.failTag {z s : State} (t : Nat) (st : CplStatus) (h : State.SameRings z s) :
    State.SameRings z (State.failTag s t st) :=
  h.frame ((Kept.failTag (uu := { hce := true, moved := true, out := true, pmu := true, rfu := true, rfx := true, xbr := true }) _ _
    (Kept.refl s) (hHce := rfl) (hMoved := rfl) (hOut := rfl) (hPmu := rfl) (hRfu := rfl) (hRfx := rfl) (hXbr := rfl)).only.rge.resolve_left Bool.false_ne_true)

theorem State.SameRings.countSources {z s : State} (n : Ns) (hits : Nat) (miss : Nat) (h : State.SameRings z s) :
    State.SameRings z (State.countSources s n hits miss) :=
  h.frame ((Kept.countSources (uu := { free := true, moved := true, pmu := true }) _ _ _
    (Kept.refl s) (hFree := rfl) (hMoved := rfl) (hPmu := rfl)).only.rge.resolve_left Bool.false_ne_true)

theorem State.SameRings.failGroup {z s : State} (gid : Nat) (h : State.SameRings z s) :
    State.SameRings z (State.failGroup s gid) :=
  h.frame ((Kept.failGroup (uu := { hce := true, moved := true, out := true, pmu := true, rfu := true, rfx := true, xbr := true }) _
    (Kept.refl s) (hHce := rfl) (hMoved := rfl) (hOut := rfl) (hPmu := rfl) (hRfu := rfl) (hRfx := rfl) (hXbr := rfl)).only.rge.resolve_left Bool.false_ne_true)

theorem State.SameRings.groupReady {z s : State} (gid : Nat) (h : State.SameRings z s) :
    State.SameRings z (State.groupReady s gid) :=
  h.frame ((Kept.groupReady (uu := { hce := true, moved := true, out := true, pmu := true, rfu := true, rfx := true, xbr := true }) _
    (Kept.refl s) (hHce := rfl) (hMoved := rfl) (hOut := rfl) (hPmu := rfl) (hRfu := rfl) (hRfx := rfl) (hXbr := rfl)).only.rge.resolve_left Bool.false_ne_true)

theorem State.SameRings.placeWrite {zz s : State} (t : Nat) (hk : State.SameRings zz s) :
    State.SameRings zz (State.placeWrite s t) := by
  unfold State.placeWrite
  repeat' first
    | with_reducible assumption
    | exact {}
    | intro _
    | (extract_lets +onlyGivenNames x; first | refine State.SameRings.cut x ?_ ?_ <;> [subst x; (clear_value x; intro _)] | skip)
    | with_reducible apply State.SameRings.countSources
    | with_reducible apply State.SameRings.startGather
    | with_reducible apply State.SameRings.wakeStacks
    | with_reducible apply State.SameRings.mirSendAll
    | with_reducible apply State.SameRings.mirSend2
    | with_reducible apply State.SameRings.hostEvent
    | with_reducible apply State.SameRings.vsCount
    | with_reducible apply State.SameRings.updTag
    | with_reducible refine State.SameRings.foldl ?_ _ ?_
    | split
    | (with_reducible apply State.SameRings.update) <;> [assumption; exact {}]

theorem State.SameRings.rereadDone {z s : State} (r : TagRec) (n : Ns) (lost : Bool) (h : State.SameRings z s) :
    State.SameRings z (State.rereadDone s r n lost) :=
  h.frame ((Kept.rereadDone (uu := { hce := true, moved := true, out := true, pmu := true, rfu := true, rfx := true, xbr := true }) _ _ _
    (Kept.refl s) (hHce := rfl) (hMoved := rfl) (hOut := rfl) (hPmu := rfl) (hRfu := rfl) (hRfx := rfl) (hXbr := rfl)).only.rge.resolve_left Bool.false_ne_true)

theorem State.SameRings.updHce {z s : State} (f : HceSt → HceSt) (h : State.SameRings z s) :
    State.SameRings z (State.updHce s f) :=
  h.frame ((Kept.updHce (uu := { hce := true }) _ (Kept.refl s) (hHce := rfl)).only.rge.resolve_left Bool.false_ne_true)

theorem State.SameRings.updRge {z s : State} (f : RgeSt → RgeSt) (h : State.SameRings z s) (hf : RingsKept f) :
    State.SameRings z (s.updRge f) :=
  h.trans (.of_rings (hf.is _))

theorem State.SameRings.openIntent {zz s : State} (ring : Nat) (kind : Nat) (flags : Nat) (stripe : Nat) (rowmask : Nat)
    (posmask : Nat) (version : Nat) (hk : State.SameRings zz s) :
    State.SameRings zz (State.openIntent s ring kind flags stripe rowmask posmask version).1 := by
  unfold State.openIntent
  repeat' first
    | with_reducible assumption
    | exact {}
    | intro _
    | (extract_lets +onlyGivenNames x; first | refine State.SameRings.cut x ?_ ?_ <;> [subst x; (clear_value x; intro _)] | skip)
    | with_reducible apply State.SameRings.updRge
    | with_reducible apply State.SameRings.sendLine

theorem State.SameRings.freeIntent {zz s : State} (idx : Nat) (hk : State.SameRings zz s) :
    State.SameRings zz (State.freeIntent s idx) := by
  unfold State.freeIntent
  repeat' first
    | with_reducible assumption
    | exact {}
    | intro _
    | (extract_lets +onlyGivenNames x; first | refine State.SameRings.cut x ?_ ?_ <;> [subst x; (clear_value x; intro _)] | skip)
    | with_reducible apply State.SameRings.updRge
    | with_reducible apply State.SameRings.sendLine

theorem State.SameRings.setRegion {zz s : State} (ring : Nat) (region : Nat) (hk : State.SameRings zz s) :
    State.SameRings zz (State.setRegion s ring region) := by
  unfold State.setRegion
  repeat' first
    | with_reducible assumption
    | exact {}
    | intro _
    | (extract_lets +onlyGivenNames x; first | refine State.SameRings.cut x ?_ ?_ <;> [subst x; (clear_value x; intro _)] | skip)
    | with_reducible apply State.SameRings.updRing
    | with_reducible apply State.SameRings.sendLine
    | split

theorem State.SameRings.markStripe {zz s : State} (r : Ring) (stripe : Nat) (hk : State.SameRings zz s) :
    State.SameRings zz (State.markStripe s r stripe) := by
  unfold State.markStripe
  repeat' first
    | with_reducible assumption
    | exact {}
    | intro _
    | (extract_lets +onlyGivenNames x; first | refine State.SameRings.cut x ?_ ?_ <;> [subst x; (clear_value x; intro _)] | skip)
    | with_reducible apply State.SameRings.setRegion

theorem State.SameRings.sendService {z s : State} (n t : Nat) (h : State.SameRings z s) :
    State.SameRings z (s.sendService n t) := by
  unfold State.sendService
  split
  · exact h
  · rename_i r hr
    dsimp only
    exact State.SameRings.foldl (fun t e ht => State.SameRings.sendLine _ _ _ ht) _ (h.trans (State.SameRings.put hr (r1 := { r with svcSeq := r.svcSeq + 1 }) rfl))

theorem State.SameRings.sendServiceAll {z s : State} (n : Nat) (h : State.SameRings z s) :
    State.SameRings z (s.sendServiceAll n) := by
  unfold State.sendServiceAll
  split
  · exact h
  · rename_i r hr
    dsimp only
    exact State.SameRings.foldl (fun t e ht => State.SameRings.sendLine _ _ _ ht) _ (h.trans (State.SameRings.put hr (r1 := { r with svcSeq := r.svcSeq + 1 }) rfl))

theorem State.SameRings.writeSuperblocks {z s : State} (n : Nat) (h : State.SameRings z s) :
    State.SameRings z (s.writeSuperblocks n) := by
  unfold State.writeSuperblocks
  split
  · exact h
  · rename_i r hr
    dsimp only
    refine State.SameRings.foldl (fun t e ht => ?_) _ (h.trans (State.SameRings.put hr (r1 := { r with gen := r.gen + 1 }) rfl))
    split
    · split
      · exact State.SameRings.setBay _ _ (State.SameRings.toSlot _ _ _ _ _ _ _ _ ht)
      · exact State.SameRings.toSlot _ _ _ _ _ _ _ _ ht
    · exact ht

theorem State.SameRings.putBlock {z s : State} (r : Ring) (j : Nat) (stripe : Nat) (c : Nat) (row : Nat) (seq : Nat)
    (b : Block) (h : State.SameRings z s) :
    State.SameRings z (State.putBlock s r j stripe c row seq b) :=
  h.frame ((Kept.putBlock (uu := { bay := true, moved := true, out := true, pmu := true }) _ _ _ _ _ _ _
    (Kept.refl s) (hBay := rfl) (hMoved := rfl) (hOut := rfl) (hPmu := rfl)).only.rge.resolve_left Bool.false_ne_true)

theorem State.SameRings.markMissed {zz s : State} (r : Ring) (stripe : Nat) (c : Nat) (hk : State.SameRings zz s) :
    State.SameRings zz (State.markMissed s r stripe c) := by
  unfold State.markMissed
  repeat' first
    | with_reducible assumption
    | exact {}
    | intro _
    | (extract_lets +onlyGivenNames x; first | refine State.SameRings.cut x ?_ ?_ <;> [subst x; (clear_value x; intro _)] | skip)
    | with_reducible apply State.SameRings.updRing
    | with_reducible apply State.SameRings.setSlot
    | with_reducible refine State.SameRings.foldl ?_ _ ?_

theorem State.SameRings.putMember {zz s : State} (r : Ring) (stripe : Nat) (c : Nat) (row : Nat) (seq : Nat) (b : Block)
    (hk : State.SameRings zz s) :
    State.SameRings zz (State.putMember s r stripe c row seq b) := by
  unfold State.putMember
  repeat' first
    | with_reducible assumption
    | exact {}
    | intro _
    | (extract_lets +onlyGivenNames x; first | refine State.SameRings.cut x ?_ ?_ <;> [subst x; (clear_value x; intro _)] | skip)
    | with_reducible apply State.SameRings.putBlock
    | with_reducible apply State.SameRings.markMissed
    | with_reducible refine State.SameRings.foldl ?_ _ ?_

theorem State.SameRings.endTask {zz s : State} (ring : Nat) (seq : Nat) (hk : State.SameRings zz s) :
    State.SameRings zz (State.endTask s ring seq) := by
  unfold State.endTask
  repeat' first
    | with_reducible assumption
    | exact {}
    | intro _
    | with_reducible apply State.SameRings.freeIntent
    | split

theorem State.SameRings.underRecord {zz s : State} (r : Ring) (kind : Nat) (stripe : Nat) (f : Nat → State → State)
    (hf : ∀ x0 t, State.SameRings zz t → State.SameRings zz (f x0 t)) (hk : State.SameRings zz s) :
    State.SameRings zz (State.underRecord s r kind stripe f) := by
  unfold State.underRecord
  repeat' first
    | with_reducible assumption
    | exact {}
    | intro _
    | (extract_lets +onlyGivenNames x; first | refine State.SameRings.cut x ?_ ?_ <;> [subst x; (clear_value x; intro _)] | skip)
    | with_reducible apply State.SameRings.openIntent
    | with_reducible apply State.SameRings.markStripe
    | with_reducible apply State.SameRings.endTask
    | with_reducible apply hf
    | split

theorem State.SameRings.putRow {zz s : State} (r : Ring) (stripe : Nat) (row : Nat) (seq : Nat) (data : List Block)
    (poss : List Nat) (hk : State.SameRings zz s) :
    State.SameRings zz (State.putRow s r stripe row seq data poss) := by
  unfold State.putRow
  repeat' first
    | with_reducible assumption
    | exact {}
    | intro _
    | (extract_lets +onlyGivenNames x; first | refine State.SameRings.cut x ?_ ?_ <;> [subst x; (clear_value x; intro _)] | skip)
    | with_reducible apply State.SameRings.putMember
    | with_reducible refine State.SameRings.foldl ?_ _ ?_

theorem State.SameRings.recordRow {zz s : State} (r : Ring) (stripe : Nat) (row : Nat) (lost : List Nat) (cause : Nat)
    (hk : State.SameRings zz s) :
    State.SameRings zz (State.recordRow s r stripe row lost cause) := by
  unfold State.recordRow
  repeat' first
    | with_reducible assumption
    | exact {}
    | intro _
    | (extract_lets +onlyGivenNames x; first | refine State.SameRings.cut x ?_ ?_ <;> [subst x; (clear_value x; intro _)] | skip)
    | with_reducible apply State.SameRings.recordLost
    | with_reducible refine State.SameRings.foldl ?_ _ ?_

theorem State.SameRings.abandonStripe {zz s : State} (w : StripeWrite) (hk : State.SameRings zz s) :
    State.SameRings zz (State.abandonStripe s w) := by
  unfold State.abandonStripe
  repeat' first
    | with_reducible assumption
    | exact {}
    | intro _
    | (extract_lets +onlyGivenNames x; first | refine State.SameRings.cut x ?_ ?_ <;> [subst x; (clear_value x; intro _)] | skip)
    | with_reducible apply State.SameRings.updHce
    | with_reducible apply State.SameRings.updRge
    | with_reducible apply State.SameRings.freeIntent

theorem State.SameRings.autoRekey {z s : State} (slot : Nat) (h : State.SameRings z s) :
    State.SameRings z (State.autoRekey s slot) :=
  h.frame ((Kept.autoRekey (uu := { free := true, kvt := true, moved := true, out := true, pmu := true, rfx := true, xbr := true }) _
    (Kept.refl s) (hFree := rfl) (hKvt := rfl) (hMoved := rfl) (hOut := rfl) (hPmu := rfl) (hRfx := rfl) (hXbr := rfl)).only.rge.resolve_left Bool.false_ne_true)

theorem State.SameRings.reserve {z s : State} (w : StripeWrite) (h : State.SameRings z s) :
    State.SameRings z (State.reserve s w) :=
  h.frame ((Kept.reserve (uu := { kvt := true, moved := true, out := true, pmu := true, rfx := true, xbr := true }) _
    (Kept.refl s) (hKvt := rfl) (hMoved := rfl) (hOut := rfl) (hPmu := rfl) (hRfx := rfl) (hXbr := rfl)).only.rge.resolve_left Bool.false_ne_true)

theorem State.SameRings.issueStripe {zz s : State} (r : Ring) (w : StripeWrite) (hk : State.SameRings zz s) :
    State.SameRings zz (State.issueStripe s r w) := by
  unfold State.issueStripe
  repeat' first
    | with_reducible assumption
    | exact {}
    | intro _
    | (extract_lets +onlyGivenNames x; first | refine State.SameRings.cut x ?_ ?_ <;> [subst x; (clear_value x; intro _)] | skip)
    | with_reducible apply State.SameRings.markStripe
    | with_reducible apply State.SameRings.toSlot
    | with_reducible apply State.SameRings.markMissed
    | with_reducible apply State.SameRings.updKey
    | with_reducible apply State.SameRings.count
    | with_reducible apply State.SameRings.autoRekey
    | with_reducible apply State.SameRings.laneWork
    | with_reducible apply State.SameRings.updRge
    | with_reducible apply State.SameRings.cacheDrop
    | with_reducible apply State.SameRings.supersede
    | with_reducible refine State.SameRings.foldl ?_ _ ?_
    | split
    | (with_reducible apply State.SameRings.update) <;> [assumption; exact {}]
    | refine State.SameRings.ofPair (by assumption) ?_
    | (with_reducible apply State.SameRings.update) <;> [refine State.SameRings.ofPair (by assumption) ?_; exact {}]
    | fail_if_no_progress ((with_reducible apply State.SameRings.update) <;> [skip; exact {}])
    | dsimp +zetaDelta only

theorem State.SameRings.advanceStripe {zz s : State} (ring : Nat) (stripe : Nat) (hk : State.SameRings zz s) :
    State.SameRings zz (State.advanceStripe s ring stripe) := by
  unfold State.advanceStripe
  repeat' first
    | with_reducible assumption
    | exact {}
    | intro _
    | (extract_lets +onlyGivenNames x; first | refine State.SameRings.cut x ?_ ?_ <;> [subst x; (clear_value x; intro _)] | skip)
    | with_reducible apply State.SameRings.abandonStripe
    | with_reducible apply State.SameRings.updRge
    | with_reducible apply State.SameRings.reserve
    | with_reducible apply State.SameRings.issueStripe
    | split

theorem State.SameRings.advanceAll {zz s : State} (hk : State.SameRings zz s) : State.SameRings zz (State.advanceAll s) := by
  unfold State.advanceAll
  repeat' first
    | with_reducible assumption
    | exact {}
    | intro _
    | (extract_lets +onlyGivenNames x; first | refine State.SameRings.cut x ?_ ?_ <;> [subst x; (clear_value x; intro _)] | skip)
    | with_reducible apply State.SameRings.advanceStripe
    | with_reducible refine State.SameRings.foldl ?_ _ ?_

theorem State.SameRings.deferMend {zz s : State} (n : RowNeed) (cs : List Nat) (hk : State.SameRings zz s) :
    State.SameRings zz (State.deferMend s n cs) := by
  unfold State.deferMend
  repeat' first
    | with_reducible assumption
    | exact {}
    | intro _
    | with_reducible apply State.SameRings.updRge

theorem State.SameRings.repairRow {zz s : State} (r : Ring) (n : RowNeed) (hk : State.SameRings zz s) :
    State.SameRings zz (State.repairRow s r n) := by
  unfold State.repairRow
  repeat' first
    | with_reducible assumption
    | exact {}
    | intro _
    | (extract_lets +onlyGivenNames x; first | refine State.SameRings.cut x ?_ ?_ <;> [subst x; (clear_value x; intro _)] | skip)
    | with_reducible apply State.SameRings.deferMend
    | with_reducible apply State.SameRings.underRecord
    | with_reducible apply State.SameRings.putBlock
    | with_reducible apply State.SameRings.bumpBy
    | with_reducible apply State.SameRings.putRow
    | with_reducible refine State.SameRings.foldl ?_ _ ?_
    | split

theorem State.SameRings.gatherFaults {zz s : State} (g : Gather) (hk : State.SameRings zz s) :
    State.SameRings zz (State.gatherFaults s g) := by
  unfold State.gatherFaults
  repeat' first
    | with_reducible assumption
    | exact {}
    | intro _
    | (extract_lets +onlyGivenNames x; first | refine State.SameRings.cut x ?_ ?_ <;> [subst x; (clear_value x; intro _)] | skip)
    | with_reducible apply State.SameRings.recordRow
    | with_reducible apply State.SameRings.repairRow
    | with_reducible refine State.SameRings.foldl ?_ _ ?_
    | split

theorem State.SameRings.handGather {zz s : State} (g : Gather) (hk : State.SameRings zz s) :
    State.SameRings zz (State.handGather s g) := by
  unfold State.handGather
  repeat' first
    | with_reducible assumption
    | exact {}
    | intro _
    | (extract_lets +onlyGivenNames x; first | refine State.SameRings.cut x ?_ ?_ <;> [subst x; (clear_value x; intro _)] | skip)
    | with_reducible apply State.SameRings.gatherFaults
    | with_reducible apply State.SameRings.updRge
    | with_reducible apply State.SameRings.advanceStripe
    | with_reducible apply State.SameRings.rereadDone
    | with_reducible apply State.SameRings.failTag
    | with_reducible apply State.SameRings.updTag
    | with_reducible apply State.SameRings.releaseLocks
    | with_reducible apply State.SameRings.cacheInsert
    | with_reducible apply State.SameRings.placeWrite
    | with_reducible apply State.SameRings.failGroup
    | with_reducible apply State.SameRings.updGroup
    | with_reducible apply State.SameRings.groupReady
    | with_reducible refine State.SameRings.foldl ?_ _ ?_
    | split
    | (with_reducible apply State.SameRings.update) <;> [assumption; exact {}]
    | refine State.SameRings.ofPair (by assumption) ?_
    | (with_reducible apply State.SameRings.update) <;> [refine State.SameRings.ofPair (by assumption) ?_; exact {}]
    | fail_if_no_progress ((with_reducible apply State.SameRings.update) <;> [skip; exact {}])
    | dsimp +zetaDelta only

theorem State.SameRings.gatherStep {zz s : State} (gid : Nat) (hk : State.SameRings zz s) :
    State.SameRings zz (State.gatherStep s gid) := by
  unfold State.gatherStep
  repeat' first
    | with_reducible assumption
    | exact {}
    | intro _
    | (extract_lets +onlyGivenNames x; first | refine State.SameRings.cut x ?_ ?_ <;> [subst x; (clear_value x; intro _)] | skip)
    | with_reducible apply State.SameRings.handGather
    | with_reducible apply State.SameRings.askRows
    | with_reducible apply State.SameRings.updRge
    | split

theorem State.SameRings.reask {zz s : State} (hk : State.SameRings zz s) : State.SameRings zz (State.reask s) := by
  unfold State.reask
  repeat' first
    | with_reducible assumption
    | exact {}
    | intro _
    | (extract_lets +onlyGivenNames x; first | refine State.SameRings.cut x ?_ ?_ <;> [subst x; (clear_value x; intro _)] | skip)
    | with_reducible apply State.SameRings.gatherStep
    | with_reducible apply State.SameRings.advanceAll
    | with_reducible refine State.SameRings.foldl ?_ _ ?_

theorem State.SameRings.endWork {zz s : State} (hk : State.SameRings zz s) : State.SameRings zz (State.endWork s) := by
  unfold State.endWork
  repeat' first
    | with_reducible assumption
    | exact {}
    | intro _
    | with_reducible apply State.SameRings.updRge
    | split

theorem State.SameRings.membersChanged {zz s : State} (ring : Nat) (displacedChanged : Bool) (hk : State.SameRings zz s) :
    State.SameRings zz (State.membersChanged s ring displacedChanged) := by
  unfold State.membersChanged
  repeat' first
    | with_reducible assumption
    | exact {}
    | intro _
    | (extract_lets +onlyGivenNames x; first | refine State.SameRings.cut x ?_ ?_ <;> [subst x; (clear_value x; intro _)] | skip)
    | with_reducible apply State.SameRings.updRing
    | with_reducible apply State.SameRings.writeSuperblocks
    | with_reducible apply State.SameRings.sendServiceAll
    | with_reducible apply State.SameRings.recomputeCeil
    | with_reducible apply State.SameRings.endWork
    | with_reducible apply State.SameRings.reask
    | split

theorem State.SameRings.setSlot {z s : State} (slot : Nat) (x : FwSlot) (h : State.SameRings z s) :
    State.SameRings z (State.setSlot s slot x) :=
  h.frame ((Kept.setSlot (uu := { mbx := true }) _ _ (Kept.refl s) (hMbx := rfl)).only.rge.resolve_left Bool.false_ne_true)

end Sys2Proof.Machine
end

