-- ==== Sys2Proof/WellFormed.lean ====
section
/-! DEFINITION. Which commands are well formed: every number within the bound that the spec gives what it numbers. A
command outside is no command of the hardware; the machine takes it all the same, and finds no subject for it (log 5). -/

namespace Sys2Proof.Machine

/-- A command capsule (R38): an opcode of 8 bits, a CID of 16 bits, an NSID of 32 bits, a fuse field of 2 bits. -/
def Capsule.wf (c : Capsule) : Bool :=
  decide (c.opcode < 256) && decide (c.cid < 2 ^ 16) && decide (c.nsid < 2 ^ 32) && decide (c.slba < 2 ^ 64) &&
    decide (c.fuse < 4)

/-- A Connect (R39): a CID and a controller ID of 16 bits, a queue number of at most 128, a KATO of 32 bits. -/
def ConnectReq.wf (r : ConnectReq) : Bool :=
  decide (r.cid < 2 ^ 16) && decide (r.sqid ≤ 128) && decide (r.qsize ≤ 65536) && decide (r.kato < 2 ^ 32) &&
    decide (r.cntlid < 2 ^ 16)

/-- A BARKER (R220): a non-zero UID of 64 bits, a port of 0 to 3, a FID of 7 bits. -/
def Barker.wf (b : Barker) : Bool :=
  decide (0 < b.uid) && decide (b.uid < 2 ^ 64) && decide (b.slot < 2) && decide (b.port < 4) && decide (b.fidst < 4) &&
    decide (b.fid < 128) && decide (b.heard < 2 ^ 64)

/-- An LSA (R230): a FID of 7 bits and at most four links. -/
def Lsa.wf (l : Lsa) : Bool :=
  decide (l.uid < 2 ^ 64) && decide (l.fid < 128) && decide (l.links.length ≤ 4)

/-- A Relti header (R217): TYPE of 8 bits, FIDs of 7 bits, at most 8,960 payload bytes. -/
def ReltiHdr.wf (h : ReltiHdr) : Bool :=
  decide (h.typ < 256) && decide (h.dst < 128) && decide (h.src < 128) && decide (h.hops < 256) && decide (h.len ≤ 8960) &&
    decide (h.flow < 2 ^ 16)

/-- A CMDSTATE record (R259): identifiers of 16 bits, a tag of the module's 262,144. -/
def CmdRecord.wf (r : CmdRecord) : Bool :=
  decide (r.cntlid < 2 ^ 16) && decide (r.sqid ≤ 128) && decide (r.cid < 2 ^ 16) && decide (r.tag < 262144)

/-- The scan of a lane (R528): an eye no wider than one unit interval. -/
def ScanResult.wf (r : ScanResult) : Bool := decide (r.width ≤ 128)

/-- An MKA frame (R378): a priority of 8 bits and a packet number of 32 bits. -/
def MkaMsg.wf (m : MkaMsg) : Bool := decide (m.priority < 256) && decide (m.lowestPn < 2 ^ 32)

/-- Rows that a stripe check hands over (R189): row numbers of the 16 rows of a chunk, one entry per chunk position. -/
def rowsOk (l : List (Nat × RowData)) : Bool := l.all (fun r => decide (r.1 < 16) && decide (r.2.length ≤ 19))

/-- Rows of several stripes (R208). -/
def stripeRowsOk (l : List (Nat × Nat × RowData)) : Bool := l.all (fun r => decide (r.1 < 2 ^ 48) && rowsOk [r.2])

/-- A management packet (R410): at most 4,160 bytes. -/
def packetOk (l : List Byte) : Bool := decide (l.length ≤ 4160)

end Sys2Proof.Machine

namespace Sys2Proof

open Sys2Proof.Machine

/-- The numbers of a command are within their bounds. -/
def Instr.wf (i : Instr) : Bool :=
  match i with
  | .rdmaCmConnectionRequest conn port _ _ mtu => decide (conn < 2 ^ 24) && decide (port < 4) && decide (mtu ≤ 4096)
  | .tcpSyn conn port _ mss => decide (conn < 2 ^ 24) && decide (port < 4) && decide (mss < 2 ^ 16)
  | .icreq conn _ _ => decide (conn < 2 ^ 24)
  | .connect conn req => decide (conn < 2 ^ 24) && req.wf
  | .propertySet cntlid cid offset value => decide (cntlid < 2 ^ 16) && decide (cid < 2 ^ 16) && decide (offset < 2 ^ 32) && decide (value < 2 ^ 64)
  | .propertyGet cntlid cid offset => decide (cntlid < 2 ^ 16) && decide (cid < 2 ^ 16) && decide (offset < 2 ^ 32)
  | .authenticationSend conn cid _ => decide (conn < 2 ^ 24) && decide (cid < 2 ^ 16)
  | .authenticationReceive conn cid => decide (conn < 2 ^ 24) && decide (cid < 2 ^ 16)
  | .disconnect cntlid sqid cid => decide (cntlid < 2 ^ 16) && decide (sqid ≤ 128) && decide (cid < 2 ^ 16)
  | .disconnectComplete cntlid sqid => decide (cntlid < 2 ^ 16) && decide (sqid ≤ 128)
  | .getLogPage cntlid cid lid => decide (cntlid < 2 ^ 16) && decide (cid < 2 ^ 16) && decide (lid < 256)
  | .identify cntlid cid cns nsid => decide (cntlid < 2 ^ 16) && decide (cid < 2 ^ 16) && decide (cns < 256) && decide (nsid < 2 ^ 32)
  | .abort cntlid acid sqid cid => decide (cntlid < 2 ^ 16) && decide (acid < 2 ^ 16) && decide (sqid < 2 ^ 16) && decide (cid < 2 ^ 16)
  | .setFeatures cntlid cid fid value _ => decide (cntlid < 2 ^ 16) && decide (cid < 2 ^ 16) && decide (fid < 256) && decide (value < 2 ^ 32)
  | .getFeatures cntlid cid fid => decide (cntlid < 2 ^ 16) && decide (cid < 2 ^ 16) && decide (fid < 256)
  | .asynchronousEventRequest cntlid cid => decide (cntlid < 2 ^ 16) && decide (cid < 2 ^ 16)
  | .keepAlive cntlid cid => decide (cntlid < 2 ^ 16) && decide (cid < 2 ^ 16)
  | .nvmeMiSend cntlid cid miOpcode packet => decide (cntlid < 2 ^ 16) && decide (cid < 2 ^ 16) && decide (miOpcode < 256) && packetOk packet
  | .nvmeMiReceive cntlid cid miOpcode packet => decide (cntlid < 2 ^ 16) && decide (cid < 2 ^ 16) && decide (miOpcode < 256) && packetOk packet
  | .formatNvm cntlid cid nsid lbaf ses _ => decide (cntlid < 2 ^ 16) && decide (cid < 2 ^ 16) && decide (nsid < 2 ^ 32) && decide (lbaf < 16) && decide (ses < 8)
  | .sanitize cntlid cid action => decide (cntlid < 2 ^ 16) && decide (cid < 2 ^ 16) && decide (action < 8)
  | .invalidAdminOpcode cntlid cid opcode => decide (cntlid < 2 ^ 16) && decide (cid < 2 ^ 16) && decide (opcode < 256)
  | .flush tag => decide (tag < 262144)
  | .write tag => decide (tag < 262144)
  | .read tag => decide (tag < 262144)
  | .compare tag => decide (tag < 262144)
  | .writeZeroes tag => decide (tag < 262144)
  | .datasetManagement tag => decide (tag < 262144)
  | .invalidIoOpcode cntlid sqid => decide (cntlid < 2 ^ 16) && decide (sqid ≤ 128)
  | .capsuleIntake cntlid sqid capsule => decide (cntlid < 2 ^ 16) && decide (sqid ≤ 128) && capsule.wf
  | .admission vsid => decide (vsid < 512)
  | .hostDataReceived tag _ sectors => decide (tag < 262144) && decide (sectors.length ≤ 8192)
  | .commitPoint tag => decide (tag < 262144)
  | .responseHandoff tag => decide (tag < 262144)
  | .responseAcknowledged tag => decide (tag < 262144)
  | .squashComplete tag => decide (tag < 262144)
  | .keepAliveTimeout cntlid => decide (cntlid < 2 ^ 16)
  | .connectionLoss conn => decide (conn < 2 ^ 24)
  | .controllerResetComplete cntlid => decide (cntlid < 2 ^ 16)
  | .shutdownComplete cntlid => decide (cntlid < 2 ^ 16)
  | .tagqryWrite _ => true
  | .rangeLockGrant tag => decide (tag < 262144)
  | .joinCopyComplete => true
  | .powerFailTrip => true
  | .flushEnd => true
  | .formatPrepareDone rec => decide (rec < 64)
  | .eraseRegionDone rec => decide (rec < 64)
  | .keyReplacementDone rec => decide (rec < 64)
  | .deallocDone rec => decide (rec < 64)
  | .progressRecordAvailable => true
  | .coalescingWindowExpiry _ => true
  | .groupDataReady _ => true
  | .residueTimeout _ tag => decide (tag < 262144)
  | .groupRegionRelease _ => true
  | .ringCreate _ => true
  | .ringDelete _ => true
  | .ringInitComplete ring => decide (ring < 8)
  | .stripeWriteStart ring stripe => decide (ring < 8) && decide (stripe < 2 ^ 48)
  | .stripeWriteComplete ring stripe => decide (ring < 8) && decide (stripe < 2 ^ 48)
  | .drainMaxageExpiry ring stripe => decide (ring < 8) && decide (stripe < 2 ^ 48)
  | .bitmapSweep ring => decide (ring < 8)
  | .bitmapCheckpoint ring => decide (ring < 8)
  | .checkpointWriteComplete ring => decide (ring < 8)
  | .suspectStripeDone ring stripe rows => decide (ring < 8) && decide (stripe < 2 ^ 48) && rowsOk rows
  | .verifyStripeDone ring rows => decide (ring < 8) && rowsOk rows
  | .ptqryWrite _ => true
  | .rejoinWindowExpiry ring slot => decide (ring < 8) && decide (slot < 24)
  | .driveIdentified bay _ => decide (bay < 24)
  | .rejoinResyncComplete ring done => decide (ring < 8) && decide (done.slot < 24) && stripeRowsOk done.rows
  | .smartCriticalWarning bay _ => decide (bay < 24)
  | .rebuildStripeDone ring stripe rows => decide (ring < 8) && decide (stripe < 2 ^ 48) && rowsOk rows
  | .copybackChunkDone ring slot done => decide (ring < 8) && decide (slot < 24) && decide (done.chunk < 2 ^ 32) && rowsOk done.rows
  | .rebuildRateTick hostTraffic => decide (hostTraffic < 2 ^ 32)
  | .patrolStripeCheck ring rows => decide (ring < 8) && rowsOk rows
  | .memberFail _ => true
  | .memberReplace _ => true
  | .lostList _ => true
  | .barkerSend => true
  | .barkerReceive port b _ => decide (port < 4) && b.wf
  | .barkerTimeout port => decide (port < 4)
  | .pcsLinkDown port => decide (port < 8)
  | .pcsLinkUp port => decide (port < 8)
  | .peerwaitExpiry => true
  | .claimInterval => true
  | .claimWaitExpiry => true
  | .claimReceive port uid fid nonce => decide (port < 4) && decide (uid < 2 ^ 64) && decide (fid < 128) && decide (nonce < 2 ^ 16)
  | .defendReceive port uid fid claimUid nonce => decide (port < 4) && decide (uid < 2 ^ 64) && decide (fid < 128) && decide (claimUid < 2 ^ 64) && decide (nonce < 2 ^ 16)
  | .fidRetry => true
  | .lsaReceive port lsa => decide (port < 4) && lsa.wf
  | .lsaRefresh => true
  | .lsdbEntryExpiry fid => decide (fid < 128)
  | .formerFidExpiry => true
  | .frameForward port hdr => decide (port < 4) && hdr.wf
  | .badReltiFrame port f => decide (port < 4) && decide (f.bytes.length ≤ 9216)
  | .statusSend => true
  | .statusReceive _ => true
  | .electReceive ring prio fid epoch => decide (ring < 8) && decide (prio < 256) && decide (fid < 128) && decide (epoch < 2 ^ 32)
  | .electionTimeout ring => decide (ring < 8)
  | .ownerSend ring => decide (ring < 8)
  | .ownerReceive ring fid epoch => decide (ring < 8) && decide (fid < 128) && decide (epoch < 2 ^ 32)
  | .ringHandover _ => true
  | .handoverQuiesced ring => decide (ring < 8)
  | .handoverTimeout ring => decide (ring < 8)
  | .ownerClaim _ => true
  | .ownerRenew _ => true
  | .handover _ => true
  | .ownerRelease _ => true
  | .electionWindowClose => true
  | .leaseExpiry => true
  | .rtqryWrite _ => true
  | .mirrorReceive src mseq _ => decide (src < 128) && decide (mseq < 2 ^ 48)
  | .mirackSend => true
  | .mirackReceive _ mseq room => decide (mseq < 2 ^ 48) && decide (room < 2 ^ 32)
  | .mirrorResendTimeout mseq => decide (mseq < 2 ^ 48)
  | .cmdstateReceive mseq r => decide (mseq < 2 ^ 48) && r.wf
  | .xportReceive mseq _ => decide (mseq < 2 ^ 48)
  | .fwdReceive mseq _ => decide (mseq < 2 ^ 48)
  | .healthCheck _ _ => true
  | .heartbeatLoss => true
  | .fenceDelayExpiry => true
  | .fenceInAsserted => true
  | .fenceRelease _ => true
  | .peerRemoved => true
  | .fenceHoldExpiry => true
  | .announcementRepeat identity => decide (identity < 2 ^ 16)
  | .takeoverDataDrained => true
  | .vsCreate _ => true
  | .vsDelete _ => true
  | .vsModify _ => true
  | .vsHosts _ => true
  | .vsPortal _ => true
  | .nsCreate _ => true
  | .nsDelete _ => true
  | .nsDeleteComplete vsid nsid => decide (vsid < 512) && decide (nsid < 2 ^ 32)
  | .vsReset _ => true
  | .vsResetDrained vsid => decide (vsid < 512)
  | .vsFreeze _ => true
  | .freezeQuiesced vsid => decide (vsid < 512)
  | .quiesceTimeout vsid => decide (vsid < 512)
  | .maxfrzExpiry vsid => decide (vsid < 512)
  | .vsThaw _ => true
  | .vsSave _ => true
  | .vsRestore _ => true
  | .vsMigrate _ => true
  | .vsQuery _ => true
  | .mgmtPropagation p => decide (p.opcode < 2 ^ 16)
  | .migrateReceive src tvsid seq _ => decide (src < 128) && decide (tvsid < 512) && decide (seq < 2 ^ 32)
  | .migrationPhaseEnd vsid done => decide (vsid < 512) && done.blocks.all (fun b => decide (b.1 < 65536) && decide (b.2.1 < 2 ^ 48))
  | .vsqryWrite _ => true
  | .frameReceive port f => decide (port < 8) && decide (f.bytes.length ≤ 9216)
  | .recirculationPass _ _ _ => true
  | .exceptionDrain => true
  | .bankSwap _ => true
  | .swapEffect => true
  | .swapRefusal => true
  | .tableCommit => true
  | .tableRead => true
  | .batchStart => true
  | .batchEnd => true
  | .polcirWrite _ => true
  | .carouselMatch => true
  | .transferComplete input => decide (input < 14)
  | .transmitSelect port => decide (port < 8)
  | .sample point _ => decide (point < 16)
  | .samplingConfigWrite _ _ => true
  | .pfcRepeat port cls => decide (port < 8) && decide (cls < 8)
  | .pfcFrameReceive port quanta => decide (port < 8) && decide (quanta.length = 8)
  | .pauseExpiry port cls => decide (port < 8) && decide (cls < 8)
  | .cnpReceive conn => decide (conn < 2 ^ 24)
  | .rateRecovery host => decide (host < 1024)
  | .occqryWrite _ => true
  | .rekeyPieceLoaded slot _ => decide (slot < 4096)
  | .rekeyRegionDone slot => decide (slot < 4096)
  | .mkaFrameReceive port msg => decide (port < 4) && msg.wf
  | .mkaHello port => decide (port < 4)
  | .mkaLifeExpiry port _ => decide (port < 4)
  | .clientHello conn _ _ _ _ => decide (conn < 2 ^ 24)
  | .keyUpdateReceive conn => decide (conn < 2 ^ 24)
  | .pairKeyAgreementComplete _ => true
  | .keyInfo _ => true
  | .keyChallenge _ => true
  | .keyLogin _ => true
  | .keyLogout _ => true
  | .keyGenerate _ => true
  | .keyImport _ => true
  | .keyExport _ => true
  | .keyDelete _ => true
  | .keyRekey _ => true
  | .keySelftest _ failRow => decide (failRow ≤ 6)
  | .keyZeroize _ => true
  | .keyRandom _ => true
  | .sessionIdleExpiry => true
  | .nonceExpiry => true
  | .loginLockoutExpiry officer => decide (officer < 4096)
  | .vaultEnvironmentZeroize => true
  | .entropyHealthFailure => true
  | .vaultSelftestComplete failRow => decide (failRow ≤ 6)
  | .doorbellSend _ => true
  | .mctpMessage packet => packetOk packet
  | .mctpControlMessage command => decide (command < 256)
  | .mgmtFrameReceive fid kind packet => decide (fid < 128) && decide (kind < 256) && packetOk packet
  | .poll _ packet => packetOk packet
  | .commandStart _ => true
  | .describe _ => true
  | .mbFlush _ => true
  | .mbReset _ => true
  | .regRead _ => true
  | .regWrite _ => true
  | .regModify _ => true
  | .pmuLoRead addr => decide (addr < 2 ^ 21)
  | .fabTopo _ => true
  | .fwDownload _ => true
  | .fwCommit _ => true
  | .fwCommitDone => true
  | .fwActivate _ => true
  | .activationComplete => true
  | .activationTimeout => true
  | .fwStatus _ => true
  | .pldmGetSensorReading sensor => decide (sensor < 2 ^ 16)
  | .pldmRequestUpdate => true
  | .pldmComponentTransfer offset _ => decide (offset < 2 ^ 32)
  | .pldmVerifyApply => true
  | .pldmActivateFirmware => true
  | .bar0Read addr enables => decide (addr < 2 ^ 64) && decide (enables.length ≤ 1024)
  | .bar0Write addr words => decide (addr < 2 ^ 64) && decide (words.length ≤ 1024)
  | .sepPerstDeassert => true
  | .sepLinkDown => true
  | .configWrite offset _ _ => decide (offset < 4096)
  | .functionLevelReset => true
  | .flrComplete => true
  | .hotReset => true
  | .dmaCompletion tag addr _ _ => decide (tag < 1024) && decide (addr < 2 ^ 64)
  | .completionTimeout tag => decide (tag < 1024)
  | .quarantineExpiry tag => decide (tag < 1024)
  | .containmentRelease => true
  | .containmentReleaseEffect => true
  | .doeRequest _ => true
  | .doeAbort => true
  | .presenceAssert bay => decide (bay < 24)
  | .debounceComplete bay => decide (bay < 24)
  | .presenceLoss bay => decide (bay < 24)
  | .rampStart bay => decide (bay < 24)
  | .powerGood bay => decide (bay < 24)
  | .pgtimeout bay => decide (bay < 24)
  | .perstDelayExpiry bay => decide (bay < 24)
  | .driveLinkL0 port speed width => decide (port < 24) && decide (speed < 8) && decide (width < 32)
  | .linkTrainingTimeout port => decide (port < 24)
  | .bayReady bay => decide (bay < 24)
  | .overcurrent bay => decide (bay < 24)
  | .fasttrip bay => decide (bay < 24)
  | .undervolt bay => decide (bay < 24)
  | .bayInputFault => true
  | .bayInputRestored => true
  | .retryExpiry bay => decide (bay < 24)
  | .bholdARise => true
  | .holderRegain => true
  | .powerCycleDelay bay => decide (bay < 24)
  | .dpxCompletionTimeout port tag => decide (port < 24) && decide (tag < 1024)
  | .dpxQuarantineExpiry port tag => decide (port < 24) && decide (tag < 1024)
  | .memberCommandCompletion _ _ _ => true
  | .memberCommandTimeout _ => true
  | .memberAbortTimeout _ => true
  | .hedgeExpiry _ => true
  | .surpriseLinkDown port => decide (port < 24)
  | .drivePortFatalError port => decide (port < 24)
  | .containmentHoldExpiry port => decide (port < 24)
  | .dpcrelWrite _ => true
  | .bayPower _ => true
  | .bayLed _ => true
  | .bayClear _ => true
  | .bayQuery _ => true
  | .powerUp _ _ => true
  | .efuseCurrentLimit => true
  | .efuseFastTrip => true
  | .efuseRetry => true
  | .efuseFaultClear => true
  | .vinCutoff => true
  | .vinOvervoltage => true
  | .railFault _ => true
  | .aonFeedLoss => true
  | .referenceLoss => true
  | .referenceRestored => true
  | .domainWake domain => decide (domain < 112)
  | .domainIdle domain => decide (domain < 112)
  | .powerStateEvaluation window => decide (window.hostUtil.length ≤ 4)
  | .retentionCheck _ => true
  | .supervisorTrim => true
  | .modRestart _ => true
  | .restartDrainComplete => true
  | .pwrPolicy _ => true
  | .pwrQuery _ => true
  | .thermalTrip => true
  | .marginScan lane => decide (lane < 80)
  | .marginScanComplete lane r => decide (lane < 80) && r.wf
  | .relearnWaitExpiry => true
  | .egressDrained => true
  | .retrainCheck scans => scans.all ScanResult.wf
  | .parkedRetry port => decide (port < 8)
  | .routeMoveWait => true
  | .retrainNoticeTimeout => true
  | .drivePortRetrainEnd port _ => decide (port < 24)
  | .hbmPass stack _ => decide (stack < 4)
  | .hbmSlice => true
  | .eccBurst pc => decide (pc < 128)
  | .chopAverage channel _ => decide (channel < 25)
  | .sensorTrim differences => decide (differences.length ≤ 32)
  | .cntConfig _ => true
  | .cntRead _ => true
  | .cntSnapshot _ => true
  | .boxOfficeSweep _ => true
  | .testStart _ => true
  | .testStop _ => true
  | .testResult _ => true
  | .liveTestEnd _ => true
  | .tapInstruction _ => true
  | .timeBaseSet => true
  | .timeBaseLatch => true
  | .fenceInDeasserted => true
  | .bholdAFall => true
  | .masterPresenceExpiry _ => true
  | .duplicateSuppressionExpiry uid nonce => decide (uid < 2 ^ 64) && decide (nonce < 2 ^ 16)
  | .sepPerstAssert => true
  | .sepLinkUp speed width => decide (speed < 8) && decide (width < 32)
  | .domainOn domain _ => decide (domain < 112)
  | .sampleQueueDrain => true
  | .hbmpcPiece errors => decide (errors < 2 ^ 32)
  | .bayTestVoutCheck millivolt => decide (millivolt < 2 ^ 16)

end Sys2Proof
end

