-- ==== Sys2Proof/Tests/Slice0.lean ====
section
/-! SUPPORT. Tests: states and operands that meet the hypotheses of the statements, small effects with results from the spec, and
ill-formed commands. -/

set_option Elab.async false

namespace Sys2Proof.Tests

open Sys2Proof Sys2Proof.Machine

/-! ## Small states -/

/-- The form of a state as a Boolean. -/
def formOk (s : State) : Bool :=
  regsWf s.part s.slot s.regs && absentClear s.part s.regs && cellsWf s.mbx.cmdWin && cellsWf s.mbx.stage &&
    [s.bay.bays.length, s.bay.ports.length, s.rfx.ports.length, s.xbr.ports.length, s.xbr.grant.length, s.xbr.accept.length,
      s.xbr.countdown.length, s.mbx.held.length, s.pmu.sets.length, s.kvt.macsec.length, s.lcu.offsets.length,
      s.lcu.hbm.lastPass.length, s.sep.vectors.length, s.ppc.buckets.length] == [24, 24, 4, 8, 14, 14, 16, 4, 4, 4, 25, 4, 2, 3] &&
    decide (s.mbx.cmds.map (fun c => c.m)).Nodup

theorem inv_of_formOk {s : State} (h : formOk s = true) : s.Inv := by
  simp only [formOk, Bool.and_eq_true, beq_iff_eq, decide_eq_true_eq, List.cons.injEq, and_true] at h
  obtain ⟨⟨⟨⟨⟨h1, h2⟩, h3⟩, h4⟩, a, b, c, d, e, f, g, i, j, k, l, m, n, o⟩, p⟩ := h
  exact ⟨h1, h2, h3, h4, ⟨a, b, c, d, e, f, g, i, j, k, l, m, n, o⟩, p⟩

/-- A subsystem with one portal, over RDMA and TCP. -/
def vs0 : Vs := { vsid := 1, flags := 3, ports := 1, tagshare := 64, qpairs := 8, cntls := 4, nsmax := 4, hostmax := 4, svcid := 0, subnqn := [0x73], st := .active, hosts := [[0x68]], portals := [⟨0, 0, 4, 24, 5⟩], quiesceEnd := none, frzEnd := none, waiter := none, restore := [], image := [], byMigration := false, frzLen := 0, restored := false, ackDue := none }

/-- An RDMA connection that carries the admin queue. -/
def conn0 : HConn := { id := 7, port := 0, addr := 5, transport := .rdma, vsid := 1, unit := 4096, hdgst := false, ddgst := false, icDone := false, tls := false, bound := some (1, 0), auth := .idle, held := none, rcvNext := 0, sndUna := 0, sndNext := 0 }

/-- An enabled controller. -/
def ctrl0 : Ctrl := { cntlid := 1, vsid := 1, hostNqn := [0x68], discovery := false, conn := 7, adminSize := 32, adminSqhd := 1, ccEn := true, rdy := true, cc := 0x460001, shn := 0, shst := 0, resetting := false, resetDisc := none, resetEnds := false, kato := 15000, kaDeadline := some 0, granted := 2, featArb := 0, featTemp := 0, featAer := 0, featHostId := 0, aers := [], aborts := [], errLog := [], changed := [], events := [], adminWait := [] }

/-- Bits of a register set. -/
def setBits (s : State) (a : Nat) (w : Word) : State := s.putReg a (s.reg a ||| w)

/-- A subsystem with one host, its admin connection and its controller; HCE.HCFG.EN is 1. -/
def host : State :=
  setBits { State.reset with vsm := { subs := [vs0] }, hce := { conns := [conn0], ctrls := [ctrl0] } } Reg.hceHcfg 1

/-- The state after a command. -/
def after (c : Instr) (s : State) : State :=
  match exec c s with
  | .next t => t
  | _ => s

/-- The newest emission of a command. -/
def sent (c : Instr) (s : State) : Option Emission := (after c s).out.head?

/-- The status that the mailbox holds for a master after a command. -/
def status (c : Instr) (s : State) (m : Master) : Option Nat := ((after c s).heldOf m).result.map (fun r => r.1)

/-- A started command of a master, of the control owner. -/
def mbCmd (m : Master) (op : Nat) (params : List Byte) : MbCmd :=
  { m := m, seq := 1, opcode := op, rev := 0, flags := 0, params := params, daddr := 0, dlen := 0, fromOwner := true,
    started := true, running := false, fetching := false }

/-- A module with one started command of the service core. -/
def mbox (op : Nat) (params : List Byte) : State :=
  { State.reset with mbx := { cmds := [mbCmd .service op params], ready := true, owner := some .service } }

theorem test_mbox_starts (op : Nat) (l : List Byte) : (mbox op l).Starts .service op (mbCmd .service op l) :=
  ⟨rfl, by simp [MbCmd.ready, mbCmd]⟩
theorem test_mbox_inv (op : Nat) (l : List Byte) : (mbox op l).Inv := inv_of_formOk rfl

/-! ## Connections (R31 to R44) -/

def connT : HConn := { conn0 with id := 8, transport := .tcp, bound := none }
def connR : ConnectReq := ⟨3, 0, 32, 15000, 0xFFFF, [0x68], [0x73], false⟩

/-- A subsystem whose host has an admin connection, a controller, and a second connection. -/
def link (k : HConn) : State := { host with hce := { host.hce with conns := [conn0, k] } }

theorem test_portal : host.portalVs 0 5 = some vs0 ∧ host.findConn 9 = none := by decide
theorem test_rdma_accepts : host.cfgBit Reg.hceHcfg 1 = true ∧ sent (.rdmaCmConnectionRequest 9 0 5 .rc 4096) host = some (.cmAccept 9) := by decide
theorem test_rdma_uc_rejected : sent (.rdmaCmConnectionRequest 9 0 5 .uc 4096) host = some (.cmReject 9 1) := by decide
theorem test_syn_acked : sent (.tcpSyn 9 0 5 1460) host = some (.synAck 9) := by decide
theorem test_icreq_hyps : (link connT).findConn 8 = some connT ∧ connT.transport = .tcp ∧ connT.icDone = false := by decide
theorem test_icreq : sent (.icreq 8 true false) (link connT) = some (.icresp 8 131072 0 true false) := by decide
theorem test_connect_hyps : (link { connT with transport := .rdma }).findConn 8 = some { connT with transport := .rdma } ∧
    State.connectAdmin (link { connT with transport := .rdma }) { connT with transport := .rdma } connR = none ∧
    State.connectAdmin (link { connT with transport := .rdma }) { connT with transport := .rdma } { connR with kato := 0 } =
      some cplConnParam ∧
    State.connectIo (link { connT with transport := .rdma }) { connT with transport := .rdma }
      { connR with sqid := 1, cntlid := 1 } = none ∧
    State.connectIo (link { connT with transport := .rdma }) { connT with transport := .rdma }
      { connR with sqid := 1, cntlid := 2 } = some cplConnParam := by decide
theorem test_connect : (after (.connect 8 connR) (link { connT with transport := .rdma })).hce.ctrls.length = 2 := by decide
theorem test_connect_io : ((after (.connect 8 { connR with sqid := 1, cntlid := 1 }) (link { connT with transport := .rdma })).hce.sqs.map
    (fun q => (q.cntlid, q.sqid, q.size))) = [(1, 1, 32)] := by decide
theorem test_auth_hyps : (link connT).findConn 8 = some connT ∧ connT.adminOf = none ∧ conn0.adminOf = some 1 ∧
    host.TakesAdmin 1 ctrl0 := ⟨by decide, by decide, by decide, rfl, rfl, rfl, by decide, rfl, by decide⟩
theorem test_auth_negotiate : ((after (.authenticationSend 8 3 (.negotiate [0x01] [0x00] false)) (link connT)).findConn 8).map (fun k => k.auth) =
    some (.challenge 1 0) := by decide
theorem test_auth_receive_idle : .auth 8 3 1 [] ∈ (after (.authenticationReceive 8 3) (link connT)).out := by decide
theorem test_loss_hyps : (link connT).findConn 8 = some connT ∧ connT.bound = none ∧ host.findConn 7 = some conn0 ∧
    conn0.bound = some (1, 0) ∧ (∀ y ∈ host.hce.conns, y.id ≠ 7 → ∀ r, y.bound ≠ some (1, r)) := by
  refine ⟨by decide, by decide, by decide, by decide, ?_⟩
  intro y hy h
  rw [show host.hce.conns = [conn0] from rfl, List.mem_singleton] at hy
  subst hy
  exact absurd rfl h
theorem test_loss : (after (.connectionLoss 7) host).hce.ctrls.map (fun x => (x.resetting, x.resetEnds)) = [(true, true)] := by decide

/-! ## Properties, Keep Alive, Disconnect and the ends of associations (R38 to R44, R69 to R72) -/

/-- The host's state with another controller. -/
def withCtrl (x : Ctrl) : State := { host with hce := { host.hce with ctrls := [x] } }

theorem test_takes : host.TakesAdmin 1 ctrl0 := ⟨rfl, rfl, rfl, by decide, rfl, by decide⟩
theorem test_takes_disabled : (withCtrl { ctrl0 with ccEn := false }).TakesAdmin 1 { ctrl0 with ccEn := false } :=
  ⟨rfl, rfl, rfl, by decide, rfl, by decide⟩
theorem test_cc_en_sets : ((after (.propertySet 1 9 0x14 0x460001) (withCtrl { ctrl0 with ccEn := false, rdy := false })).findCtrl 1).map
    (fun x => (x.ccEn, x.rdy)) = some (true, true) := by decide
theorem test_cc_en_clears : ctrl0.ccEn = true ∧ bitsOf 0x460000 15 14 = 0 ∧ ((after (.propertySet 1 9 0x14 0x460000) host).findCtrl 1).map
    (fun x => (x.ccEn, x.resetting, x.resetEnds)) = some (false, true, false) := by decide
theorem test_cc_shutdown : ctrl0.shn = 0 ∧ bitsOf 0x464001 15 14 = 1 ∧ ((after (.propertySet 1 9 0x14 0x464001) host).findCtrl 1).map
    (fun x => x.shst) = some 1 := by decide
theorem test_cc_other : sent (.propertySet 1 9 0x18 0) host = some (.cqe 1 0 9 cplInvalidField 0 2) := by decide
theorem test_property_get : sent (.propertyGet 1 9 0x1C) host = some (.cqe 1 0 9 cplSuccess 1 2) := by decide
theorem test_keep_alive : ((after (.keepAlive 1 9) host).findCtrl 1).map (fun x => x.kaDeadline) = some (some (ms 15000)) := by decide
theorem test_keep_alive_timeout_hyps : host.findCtrl 1 = some ctrl0 ∧ ctrl0.kaDeadline = some 0 ∧ 0 ≤ host.now ∧
    host.findVs 1 = some vs0 ∧ vs0.st ≠ .frozen ∧ host.mbx.activating = none ∧ ctrl0.resetting = false := by decide
theorem test_keep_alive_timeout : ((after (.keepAliveTimeout 1) host).findCtrl 1).map (fun x => (x.resetting, x.resetEnds)) =
    some (true, true) := by decide

def sq0 : SubQ := { cntlid := 1, sqid := 1, size := 16, sqhd := 15, entries := [none, none], conn := 8, vsid := 1, stopped := false, disc := none }

/-- The host with an I/O queue. -/
def queue (q : SubQ) : State := { host with hce := { host.hce with sqs := [q] } }

theorem test_disconnect_hyps : (queue sq0).findCtrl 1 = some ctrl0 ∧ (queue sq0).findSq 1 1 = some sq0 ∧ sq0.disc = none ∧
    (queue { sq0 with disc := some 9 }).findSq 1 1 = some { sq0 with disc := some 9 } ∧
    (∀ r ∈ (queue { sq0 with disc := some 9 }).hce.tags, r.cntlid = 1 → r.sqid = 1 → r.st = .responding) := by decide
theorem test_disconnect_io : ((after (.disconnect 1 1 9) (queue sq0)).findSq 1 1).map (fun q => (q.stopped, q.disc, q.sqhd)) =
    some (true, some 9, 1) := by decide
theorem test_disconnect_complete : (after (.disconnectComplete 1 1) (queue { sq0 with disc := some 9, entries := [] })).findSq 1 1 = none ∧
    .cqe 1 1 9 cplSuccess 0 15 ∈ (after (.disconnectComplete 1 1) (queue { sq0 with disc := some 9, entries := [] })).out := by decide
theorem test_disconnect_admin : ((after (.disconnect 1 0 9) host).findCtrl 1).map (fun x => (x.resetting, x.resetEnds, x.resetDisc)) =
    some (true, true, some 9) := by decide
theorem test_reset_complete_hyps : (withCtrl { ctrl0 with resetting := true }).findCtrl 1 = some { ctrl0 with resetting := true } ∧
    (∀ r ∈ (withCtrl { ctrl0 with resetting := true }).hce.tags, r.cntlid ≠ 1) := by decide
theorem test_reset_complete : ((after (.controllerResetComplete 1) (withCtrl { ctrl0 with resetting := true })).findCtrl 1).map
    (fun x => (x.rdy, x.resetting)) = some (false, false) := by decide
theorem test_shutdown_complete : (withCtrl { ctrl0 with shst := 1 }).findCtrl 1 = some { ctrl0 with shst := 1 } ∧
    ((after (.shutdownComplete 1) (withCtrl { ctrl0 with shst := 1 })).findCtrl 1).map (fun x => x.shst) = some 2 := by decide

/-! ## Admin commands (R40, R44 to R51, R64 to R68) -/

theorem test_identify_other_cns : sent (.identify 1 9 0x07 0) host = some (.cqe 1 0 9 cplInvalidField 0 2) := by decide
theorem test_identify_no_namespace : host.findNs 1 3 = none ∧ sent (.identify 1 9 0x00 3) host = some (.cqe 1 0 9 cplInvalidNs 0 2) := by decide
theorem test_features_number_of_queues : ((after (.setFeatures 1 9 0x07 0x00030003 false) host).findCtrl 1).map (fun x => x.granted) = some 4 ∧
    sent (.setFeatures 1 9 0x07 0x00030003 false) host = some (.cqe 1 0 9 cplSuccess 0x00030003 2) := by decide
theorem test_features_hyps : featKnown 0x02 = false ∧ featKnown 0x01 = true ∧ featKnown 0x81 = true := by decide
theorem test_features_save : sent (.setFeatures 1 9 0x01 5 true) host = some (.cqe 1 0 9 cplNotSaveable 0 2) := by decide
theorem test_features_get : sent (.getFeatures 1 9 0x07) host = some (.cqe 1 0 9 cplSuccess 0x00010001 2) := by decide
theorem test_aer_waits : ((after (.asynchronousEventRequest 1 9) host).findCtrl 1).map (fun x => x.aers) = some [9] := by decide
theorem test_aer_fifth : sent (.asynchronousEventRequest 1 9) (withCtrl { ctrl0 with aers := [1, 2, 3, 4] }) =
    some (.cqe 1 0 9 cplAerLimit 0 2) := by decide
theorem test_invalid_opcode : sent (.invalidAdminOpcode 1 9 0xC0) host = some (.cqe 1 0 9 cplInvalidOpcode 0 2) := by decide
theorem test_log_unknown : host.findCtrl 1 = some ctrl0 ∧ ctrl0.resetting = false ∧
    sent (.getLogPage 1 9 0x06) host = some (.cqe 1 0 9 cplInvalidLogPage 0 2) := by decide
theorem test_abort_fifth : sent (.abort 1 9 1 3) (withCtrl { ctrl0 with aborts := [(1, 1), (2, 2), (3, 3), (4, 4)] }) =
    some (.cqe 1 0 9 cplAbortLimit 0 2) := by decide
theorem test_abort_admin : sent (.abort 1 9 0 3) host = some (.cqe 1 0 9 cplSuccess 1 2) := by decide

def cap0 : Capsule := { opcode := 2, cid := 3, nsid := 1, slba := 8, nlb := 8, fua := false, fuse := 0, deallocate := false, ranges := [], sgl := .keyed, fieldsOk := true }

def tag0 : TagRec := { tag := 0, cntlid := 1, sqid := 1, cid := 3, cidMapped := true, st := .executing, vsid := 1, cap := cap0, seq := 1, wt := false, post := true, result := none, respMseq := none, readMseq := none, fetching := false, dataIn := false, hostData := [], placed := false, dataMseq := 0, dataMseq2 := 0, intents := false, group := none, vmark := 0, rcvAt := 0, blocks := [], bases := [] }

/-- The host with an I/O queue and one tag. -/
def tagged (r : TagRec) : State := { host with hce := { host.hce with sqs := [{ sq0 with entries := [] }], tags := [r] } }

theorem test_abort_hyps : (tagged tag0).findSq 1 1 = some { sq0 with entries := [] } ∧ tag0.open_ = true ∧ tag0.intents = false ∧
    (tagged tag0).hce.tags.find? (fun r => r.cntlid = 1 && r.sqid = 1 && r.cidMapped && r.cid = 3) = some tag0 ∧
    (tagged tag0).findTag 0 = some tag0 := by decide
theorem test_abort_squashes : ((after (.abort 1 9 1 3) (tagged tag0)).findTag 0).map (fun r => (r.st, r.result)) =
    some (.squashing, some cplAborted) := by decide

/-! ## Tunnels, Format and Sanitize (R100 to R108, R405, R407) -/

def ns0 : Ns := { vsid := 1, nsid := 1, ring := 0, first := 0, regions := 1, lbaf := 0, keySlot := 0, deleting := false, waiter := none }

def key0 : KeySlot := { slot := 0, typ := 1, gen := 0, material := 5, oldMaterial := none, count := 3, oldCount := 0, resv := 0, resvMseq := 0, cursor := 0, seq := 0, ident := [] }

/-- The host with a namespace and its key. -/
def named : State := { host with vsm := { host.vsm with nss := [ns0] }, kvt := { st := .operational, slots := [key0] } }

theorem test_mi_off : host.inbandOn ctrl0 = false ∧ sent (.nvmeMiSend 1 9 0xC0 []) host = some (.cqe 1 0 9 cplInvalidField 0 2) ∧
    sent (.nvmeMiReceive 1 9 0xC1 []) host = some (.cqe 1 0 9 cplInvalidField 0 2) := by decide
theorem test_format_hyps : named.TakesAdmin 1 ctrl0 ∧ named.findNs 1 1 = some ns0 ∧ named.sanitizeOn 1 = false ∧
    named.formatOn 1 1 = false ∧ named.freeRecord = some 0 ∧ named.nsidsOf 1 = [1] ∧ named.formatIn 1 = false :=
  ⟨⟨rfl, rfl, rfl, by decide, rfl, by decide⟩, by decide⟩
theorem test_format_starts : (after (.formatNvm 1 9 1 1 1 false) named).hce.progress.map (fun p => (p.idx, p.op, p.nsid, p.cmd)) =
    [(0, 2, 1, some (1, 9))] := by decide
theorem test_format_bad_lbaf : sent (.formatNvm 1 9 1 2 1 false) named = some (.cqe 1 0 9 cplInvalidFormat 0 2) := by decide
theorem test_sanitize_starts : (after (.sanitize 1 9 2) named).hce.progress.map (fun p => (p.idx, p.op, p.nsid, p.cmd)) =
    [(0, 4, 1, none)] ∧ sent (.sanitize 1 9 2) named = some (.cqe 1 0 9 cplSuccess 0 2) := by decide

def prog0 : Progress := { idx := 0, op := 2, phase := .prepare, vsid := 1, nsid := 1, cursor := 0, total := 1, lbaf := 1, epoch := 0, seq := 1, cmd := some (1, 9), nss := [], regionsDone := 0, regionsAll := 1, asleep := false }

/-- An operation on the namespace. -/
def operating (p : Progress) : State := { named with hce := { named.hce with progress := [p] } }

theorem test_sanitize_waits : (operating prog0).formatIn 1 = true ∧
    ((after (.sanitize 1 9 2) (operating prog0)).findCtrl 1).map (fun x => (x.adminSqhd, x.adminWait)) =
      some (1, [some (.sanitize 1 9 2)]) := by decide
theorem test_prepare_hyps : (operating prog0).progressAt 0 = some prog0 ∧
    (∀ n ∈ prog0.nsid :: prog0.nss, (operating prog0).nsBusy 1 n = false ∧ (operating prog0).nsInFlight 1 n = false) := by decide
theorem test_prepare_done : prog0.erases = true ∧
    ((after (.formatPrepareDone 0) (operating prog0)).progressAt 0).map (fun p => (p.phase, p.seq)) = some (.erase, 2) := by decide
theorem test_prepare_done_no_erase : ({ prog0 with op := 1 } : Progress).erases = false ∧ ({ prog0 with op := 1 } : Progress).keys = false ∧
    ((after (.formatPrepareDone 0) (operating { prog0 with op := 1 })).progressAt 0).map (fun p => p.phase) = some .dealloc := by decide
theorem test_erase_done : ((after (.eraseRegionDone 0) (operating { prog0 with phase := .erase, total := 2 })).progressAt 0).map
    (fun p => (p.phase, p.cursor)) = some (.erase, 1) ∧
    ((after (.eraseRegionDone 0) (operating { prog0 with phase := .erase })).progressAt 0).map (fun p => (p.phase, p.seq)) =
      some (.dealloc, 3) := by decide

theorem test_key_hyps : (operating { prog0 with phase := .key, cursor := 1 }).findKey 0 = some key0 ∧
    key0.gen < 1 := by decide
theorem test_key_replaced : ((after (.keyReplacementDone 0) (operating { prog0 with phase := .key, cursor := 1 })).findKey 0).map (fun k => (k.gen, k.count)) =
    some (1, 0) := by decide
theorem test_dealloc_done : (after (.deallocDone 0) (operating { prog0 with phase := .dealloc })).progressAt 0 = none ∧
    ((after (.deallocDone 0) (operating { prog0 with phase := .dealloc })).findNs 1 1).map (fun n => n.lbaf) = some 1 := by decide

/-- A Format that waits for a record. -/
def waiting : State := { named with hce := { named.hce with ctrls := [{ ctrl0 with adminWait := [some (.formatNvm 1 9 1 1 1 false)] }] } }

theorem test_record_available_hyps : waiting.adminBusy { ctrl0 with adminWait := [some (.formatNvm 1 9 1 1 1 false)] } < 32 ∧
    waiting.findNs 1 1 = some ns0 ∧ waiting.sanitizeOn 1 = false ∧ waiting.formatOn 1 1 = false ∧ waiting.freeRecord = some 0 := by decide
theorem test_record_available : (after .progressRecordAvailable waiting).hce.progress.map (fun p => (p.op, p.cmd)) = [(2, some (1, 9))] ∧
    (after .progressRecordAvailable waiting).hce.ctrls = [{ ctrl0 with adminSqhd := 2 }] := by decide

/-! ## Capsules and admission (R42, R52 to R61) -/

def connIo : HConn := { conn0 with id := 8, bound := some (1, 1) }

/-- The host with a namespace, an I/O queue and its tags. -/
def io (q : SubQ) (l : List TagRec) : State :=
  { named with hce := { named.hce with conns := [conn0, connIo], sqs := [q], tags := l } }

def sqOf (l : List Capsule) : SubQ := { sq0 with entries := l.map (fun c => some (0, c)) }

theorem test_intake_hyps : (io (sqOf []) []).findSq 1 1 = some (sqOf []) ∧ (io (sqOf []) []).findConn 8 = some connIo := by decide
theorem test_intake : ((after (.capsuleIntake 1 1 cap0) (io (sqOf []) [])).findSq 1 1).map (fun q => q.entries) = some [some (0, cap0)] := by decide
theorem test_intake_full : .cmDisconnect 8 ∈ (after (.capsuleIntake 1 1 cap0) (io { sqOf [] with size := 2, entries := [none] } [])).out := by decide
theorem test_intake_behind_disconnect : ((after (.capsuleIntake 1 1 cap0) (io { sqOf [] with disc := some 9 } [])).findSq 1 1).map
    (fun q => (q.entries, q.sqhd)) = some ([], 0) := by decide
theorem test_admission_hyps : (io (sqOf [{ cap0 with opcode := 0 }]) []).pickQueue 1 = some (0, sqOf [{ cap0 with opcode := 0 }]) ∧
    (io (sqOf [{ cap0 with opcode := 0 }]) []).visitsLeft 1 = true ∧
    (io (sqOf [{ cap0 with opcode := 0 }]) []).ioCheck 1 .rdma { cap0 with opcode := 0 } = none ∧
    (io (sqOf [{ cap0 with opcode := 0 }]) []).admissible 1 { cap0 with opcode := 0 } ns0 = true ∧
    ({ cap0 with opcode := 0 } : Capsule).commitsAtOnce = true := by decide
theorem test_admission_lapses_hyps : (∃ x ∈ vs0 :: [{ vs0 with vsid := 2, tagshare := 1 }], x.vsid = 2) ∧
    ({ io (sqOf [cap0]) [] with hce := { (io (sqOf [cap0]) []).hce with wrr := [(1, 64)] } } : State).visitsLeft 1 = false := by decide
theorem test_admission_flush : ((after (.admission 1) (io (sqOf [{ cap0 with opcode := 0 }]) [])).findTag 0).map (fun r => (r.st, r.cid)) =
    some (.committed, 3) := by decide
theorem test_admission_conflict_hyps : (∃ r ∈ (io (sqOf [cap0]) [tag0]).hce.tags, r.cntlid = 1 ∧ r.sqid = 1 ∧ r.cidMapped = true ∧
    r.cid = 3) := by decide
theorem test_admission_conflict : (after (.admission 1) (io (sqOf [cap0]) [tag0])).hce.tags.length = 1 ∧
    ((after (.admission 1) (io (sqOf [cap0]) [tag0])).findSq 1 1).map (fun q => q.entries) = some [] := by decide
theorem test_admission_check_hyps : (io (sqOf [{ cap0 with nsid := 3 }]) []).ioCheck 1 .rdma { cap0 with nsid := 3 } = some cplInvalidNs ∧
    (io (sqOf [{ cap0 with nsid := 3 }]) []).shareFree 1 = true := by decide
theorem test_admission_check : ((after (.admission 1) (io (sqOf [{ cap0 with nsid := 3 }]) [])).findTag 0).map (fun r => (r.st, r.result)) =
    some (.squashing, some cplInvalidNs) := by decide
/-- The same with its namespace being deleted. -/
def going (q : SubQ) : State := { io q [] with vsm := { (io q []).vsm with nss := [{ ns0 with deleting := true }] } }

theorem test_admission_held : (going (sqOf [cap0])).ioCheck 1 .rdma cap0 = none ∧
    (going (sqOf [cap0])).admissible 1 cap0 { ns0 with deleting := true } = false ∧
    (after (.admission 1) (going (sqOf [cap0]))).hce.tags = [] ∧ (after (.admission 1) (going (sqOf [cap0]))).hce.rr = [(1, 1)] := by decide
theorem test_admission_write_hyps : (io (sqOf [{ cap0 with opcode := 1 }]) []).admissible 1 { cap0 with opcode := 1 } ns0 = true ∧
    ({ cap0 with opcode := 1 } : Capsule).commitsAtOnce = false ∧ (io (sqOf [{ cap0 with opcode := 1 }]) []).rfu.groups = [] := by decide
theorem test_admission_write_lock : (after (.admission 1) (io (sqOf [{ cap0 with opcode := 1 }]) [])).hce.rlt.map
    (fun e => (e.tag, e.first, e.last, e.excl)) = [(0, 8, 15, true)] := by decide
theorem test_invalid_io_opcode : ioKnown 0x7F = false ∧ (io (sqOf [{ cap0 with opcode := 0x7F }]) []).visitable (sqOf [{ cap0 with opcode := 0x7F }]) = true ∧
    ((after (.invalidIoOpcode 1 1) (io (sqOf [{ cap0 with opcode := 0x7F }]) [])).findTag 0).map (fun r => r.result) = some (some cplInvalidOpcode) := by decide
theorem test_flush_done : ((after (.flush 0) (io (sqOf []) [{ tag0 with st := .committed, cap := { cap0 with opcode := 0 } }])).findTag 0).map
    (fun r => r.result) = some (some cplSuccess) := by decide
theorem test_write_fetches : ((after (.write 0) (io (sqOf []) [{ tag0 with st := .admitted, cap := { cap0 with opcode := 1 } }])).findTag 0).map
    (fun r => (r.st, r.fetching)) = some (.executing, true) ∧
    .fetch 1 1 3 ∈ (after (.write 0) (io (sqOf []) [{ tag0 with st := .admitted, cap := { cap0 with opcode := 1 } }])).out := by decide
/-- A tag whose range lock has or has not been granted. -/
def locking (g : Bool) (r : TagRec) : State :=
  { io (sqOf []) [r] with hce := { (io (sqOf []) [r]).hce with rlt := [⟨0, 1, 1, 8, 15, true, g⟩] } }

theorem test_compare_fetches : (locking false { tag0 with st := .admitted, cap := { cap0 with opcode := 5 } }).locked 0 = false ∧
    ((after (.compare 0) (locking false { tag0 with st := .admitted, cap := { cap0 with opcode := 5 } })).findTag 0).map
    (fun r => (r.st, r.fetching)) = some (.executing, true) := by decide
theorem test_read_hyps : (locking true { tag0 with st := .admitted }).findTag 0 = some { tag0 with st := .admitted } ∧
    (locking true { tag0 with st := .admitted }).locked 0 = true ∧ (locking true { tag0 with st := .admitted }).findNs 1 1 = some ns0 := by decide
theorem test_read_executes : ((after (.read 0) (locking true { tag0 with st := .admitted })).findTag 0).map (fun r => r.st) =
    some .executing := by decide
theorem test_tagqry : (after (.tagqryWrite 0) (tagged tag0)).hce.tagSq = 0x00010001 ∧ (after (.tagqryWrite 1) (tagged tag0)).hce.tagInfo = 0 := by decide

/-! ## Commands commit and complete (R45, R52 to R55, R61, R66, R67, R78, R80, R86) -/

def tagOp (op : Nat) : TagRec := { tag0 with st := .admitted, cap := { cap0 with opcode := op } }

theorem test_write_zeroes_hyps : (locking true (tagOp 8)).findTag 0 = some (tagOp 8) ∧
    (∀ g ∈ (locking true (tagOp 8)).rge.gathers, g.owner ≠ .tag 0) ∧ (∀ w ∈ (tagOp 8).blockWrites ns0, w.secs.length = 8) ∧
    (tagOp 8).placed = false := by decide
theorem test_write_zeroes : ((after (.writeZeroes 0) (locking true (tagOp 8))).findTag 0).map (fun r => (r.st, r.placed)) =
    some (.executing, true) ∧
    (after (.writeZeroes 0) (locking true (tagOp 8))).hce.wb.map (fun e => (e.blk, e.ver)) = (natsFrom 8 8).map (fun b => (b, 1)) := by decide

def tagDsm : TagRec := { tag0 with st := .admitted, cap := { cap0 with opcode := 9, deallocate := true, ranges := [(8, 8)] } }

theorem test_dsm_hyps : (∀ w ∈ tagDsm.blockWrites ns0, w.secs.length = 8) ∧ tagDsm.deallocRanges ns0 = [(8, 8)] := by decide
theorem test_dsm_deallocates : (after (.datasetManagement 0) (locking true tagDsm)).hce.deallocs.map (fun d => (d.tag, d.ranges)) =
    [(0, [(8, 8)])] := by decide
theorem test_dsm_waits_for_lock : ((after (.datasetManagement 0) (locking false tagDsm)).findTag 0).map (fun r => r.st) = some .executing := by decide
theorem test_dsm_committed : ((after (.datasetManagement 0) (io (sqOf []) [{ tag0 with st := .committed, cap := { cap0 with opcode := 9 } }])).findTag
    0).map (fun r => r.result) = some (some cplSuccess) := by decide

def tagFetch : TagRec := { tag0 with fetching := true, cap := { cap0 with opcode := 1 } }

theorem test_data_hyps : (locking false tagFetch).findTag 0 = some tagFetch ∧ tagFetch.open_ = true ∧ (locking false tagFetch).locked 0 = false ∧
    (List.replicate 64 (0 : Sector)).length = (ns0.sectors 8 8).2 := by decide
theorem test_data_bad : ((after (.hostDataReceived 0 false []) (locking false tagFetch)).findTag 0).map (fun r => (r.st, r.result)) =
    some (.squashing, some cplTransferError) := by decide
theorem test_data_in : ((after (.hostDataReceived 0 true (List.replicate 64 0)) (locking false tagFetch)).findTag 0).map
    (fun r => (r.fetching, r.dataIn)) = some (false, true) := by decide

def tagZero : TagRec := { tagOp 8 with st := .executing, placed := true, dataMseq := 0 }

theorem test_commit_hyps : (locking true tagZero).writeCommits tagZero = true ∧ tagZero.post = true := by decide
theorem test_commit_write : ((after (.commitPoint 0) (locking true tagZero)).findTag 0).map (fun r => (r.st, r.result)) =
    some (.committed, some cplSuccess) := by decide

def tagRead : TagRec := { tag0 with readMseq := some 0, blocks := List.replicate 8 (some 0) }

theorem test_commit_read_hyps : tagRead.gathered = true ∧ (locking true tagRead).peerHolds 0 = true := by decide
theorem test_commit_read : ((after (.commitPoint 0) (locking true tagRead)).findTag 0).map (fun r => r.result) = some (some cplSuccess) := by decide
theorem test_commit_compare_hyps : ({ tagRead with cap := { cap0 with opcode := 5 }, dataIn := true } : TagRec).gathered = true := by decide

def tagDone (st : TagSt) : TagRec := { tag0 with st := st, result := some cplSuccess, respMseq := some 0 }

theorem test_response_hyps : (io (sqOf []) [tagDone .committed]).engineBusy (tagDone .committed) = false ∧
    (io (sqOf []) [tagDone .committed]).peerHolds 0 = true ∧ (io (sqOf []) [tagDone .squashing]).engineBusy (tagDone .squashing) = false := by decide
theorem test_response : ((after (.responseHandoff 0) (io (sqOf []) [tagDone .committed])).findTag 0).map (fun r => r.st) =
    some .responding := by decide
theorem test_squash_complete : ((after (.squashComplete 0) (io (sqOf []) [tagDone .squashing])).findTag 0).map (fun r => r.st) =
    some .responding ∧ (after (.squashComplete 0) (io (sqOf []) [{ tagDone .squashing with post := false }])).findTag 0 = none := by decide
theorem test_response_acknowledged : (after (.responseAcknowledged 0) (io (sqOf []) [tagDone .responding])).findTag 0 = none := by decide
theorem test_grant_hyps : (locking false (tagOp 1)).rfu.groups = [] ∧ (locking false (tagOp 1)).holdsLock 0 = true ∧
    (locking false (tagOp 1)).lockFree 0 = true := by decide
theorem test_grant : (after (.rangeLockGrant 0) (locking false (tagOp 1))).locked 0 = true := by decide

/-- The peers are joined and the join copy's last frame has been acknowledged. -/
def joining : State :=
  { State.reset with rfx := { joinMseq := some 4, out1 := { isOpen := true, next := 5, acked := 4 } }, hce := { wtJoinCopy := true } }

theorem test_join_copy_complete : (after .joinCopyComplete joining).rfx.joinMseq = none ∧ (after .joinCopyComplete joining).hce.wtJoinCopy = false := by decide

/-! ## Read groups and rings (chapters 04 and 05) -/

def req0 (k : Nat) : Requester := ⟨k, none, false, false, false, false⟩
def group0 : Group := { id := 0, vsid := 1, nsid := 1, slba := 8, nlb := 1, reqs := [req0 0, req0 1], isOpen := true, windowEnd := some 0, maxReq := 8, residue := 0, byLock := false, joined := true, media := false, dataReady := false, releasedAt := none, blocks := [some (true, 0)], lost := false }

def grouped (g : Group) (l : List TagRec) : State := { io (sqOf []) l with rfu := { groups := [g], nextId := 1 } }

def tagG (k : Nat) : TagRec := { tag0 with tag := k, cid := k, group := some 0, cap := { cap0 with nlb := 1 } }

theorem test_window_hyps : (grouped { group0 with blocks := [none] } []).findGroup 0 = some { group0 with blocks := [none] } ∧
    due group0.windowEnd 0 = true := by decide
theorem test_window_expiry : ((after (.coalescingWindowExpiry 0) (grouped { group0 with blocks := [none] } [])).findGroup 0).map
    (fun g => g.isOpen) = some false := by decide
theorem test_group_ready_hyps : group0.complete = true ∧ 2 ≤ group0.reqs.length ∧
    ((grouped group0 [tagG 0, tagG 1]).findNs 1 1).map (fun n => (grouped group0 [tagG 0, tagG 1]).rangeLost n 8 1) = some false := by decide
theorem test_group_ready : ((after (.groupDataReady 0) (grouped group0 [tagG 0, tagG 1])).findGroup 0).map (fun g => g.dataReady) = some true := by decide

/-- A released group of which requester 1's copy waits in an egress queue. -/
def residual : State :=
  { grouped { group0 with isOpen := false, dataReady := true, releasedAt := some 0 } [{ tagG 0 with st := .committed }, { tagG 1 with st := .committed }] with
    xbr := { ports := ({ queue := [(0, { port := 0, host := 0, vsid := 1, cls := 0, len := 4096, ect := false, tag := some 1, conn := some 8 })] } : EgPort) :: List.replicate 7 {} } }

theorem test_residue_hyps : residual.copiesOf 1 ≠ [] ∧ (residual.findTag 1).map (fun r => r.st) = some .committed := by decide
theorem test_residue_moves : ((after (.residueTimeout 0 1) residual).findGroup 0).map
    (fun g => (g.reqs.filter (fun q => q.tag = 1)).map (fun q => (q.moved, q.unicast))) = some [(true, true)] := by decide
theorem test_region_release_hyps : (grouped { group0 with isOpen := false, releasedAt := some 0, reqs := [] } []).regionBusy
    { group0 with isOpen := false, releasedAt := some 0, reqs := [] } = false := by decide
theorem test_region_release : (after (.groupRegionRelease 0) (grouped { group0 with isOpen := false, releasedAt := some 0, reqs := [] } [])).findGroup 0 =
    none := by decide

def drive0 (n : Nat) : DriveInfo := { serial := 100 + n, lbaf4kMeta16 := true, nsMgmt := true, maxNs := 64, writeZeroes := true, dlfeatZero := true, capacity := 2 ^ 42, superblocks := [] }
def bay0 (n : Nat) : Bay := { st := .ready, seated := true, present := true, pg := true, gate := true, drive := some (drive0 n) }

/-- Bays 0 to 7 hold drives that are ready. -/
def drives : BaysSt := { bays := (natsFrom 0 8).map bay0 ++ List.replicate 16 {}, ports := List.replicate 8 { train := .l0, perst := false } ++ List.replicate 16 {}, holder := true }

/-- RING_CREATE of ring 0: k = 4, m = 2, one spare, members in bays 0 to 7, 1 GiB each. -/
def createBytes : List Byte := [0, 4, 2, 1, 8, 0, 0, 0, 7, 0, 0, 0, 1, 0, 0, 0, 0, 1, 2, 3, 4, 5, 6, 7]

theorem test_ring_create_hyps : ({ mbox 0x0301 createBytes with bay := drives } : State).Inv ∧
    ((natsFrom 0 8).all (fun b => ({ mbox 0x0301 createBytes with bay := drives } : State).fitDrive b &&
      ({ mbox 0x0301 createBytes with bay := drives } : State).roomOn b (1 * gib)) = true) ∧
    4 + 2 ≤ ({ mbox 0x0301 createBytes with bay := drives } : State).ringChunks 1 (natsFrom 0 8) ∧ leAt createBytes 12 4 = 1 :=
  ⟨inv_of_formOk rfl, by decide, by decide, by decide⟩
theorem test_ring_create : ((after (.ringCreate .service) { mbox 0x0301 createBytes with bay := drives }).findRing 0).map
    (fun r => (r.n, r.k, r.m, r.s, r.initRunning)) = some (8, 4, 2, 1, true) := by decide
theorem test_ring_create_bad : status (.ringCreate .service) (mbox 0x0301 [0, 3, 2, 1, 8]) .service = some stInvalidParam := by decide

def mslot (n : Nat) : MemberSlot := ⟨.online, some n, 100 + n, false, none, 0, [], [], false, [], []⟩

/-- A ring of 8 members with one slab, mastered here. -/
def ring0 : Ring := { num := 0, n := 8, k := 4, m := 2, s := 1, seed := 7, chunks := 6, gen := 1, slots := (natsFrom 0 8).map mslot, initRunning := false, torn := false, flushIncomplete := false, resyncAll := false, suspects := [], verify := none, hdrSeq := 0, ckSeq := 0, ckSlot := 0, ckRot := 0, ckpt := none, hdrOwn := true, hunt := none, sweepAt := some 0, ckptAt := some 0, bitmap := [], owner := true, epoch := 1, master := some 1, bid := none, peerBid := none, bidTimer := none, ownMseq := none, handover := none, held := false, cursors := [0, 0, 0], patrol := 0, svcSeq := 0 }

def ringed (s : State) (r : Ring) : State := { s with bay := drives, rge := { rings := [r] } }

theorem test_ring_delete_hyps : (ringed (mbox 0x0302 [0]) ring0).Inv ∧ (ringed (mbox 0x0302 [0]) ring0).owns 0 = true ∧
    (ringed (mbox 0x0302 [0]) ring0).findRing 0 = some ring0 := ⟨inv_of_formOk rfl, by decide, by decide⟩
theorem test_ring_delete : (after (.ringDelete .service) (ringed (mbox 0x0302 [0]) ring0)).rge.rings = [] := by decide
theorem test_ring_init_complete : (∀ x ∈ ring0.slots, x.initLeft = false) ∧
    ((after (.ringInitComplete 0) (ringed State.reset { ring0 with initRunning := true })).findRing 0).map (fun r => r.initRunning) =
      some false := by decide
theorem test_ptqry : (after (.ptqryWrite 0x000F0000) (ringed State.reset ring0)).rge.ptData = 0x1F := by decide

/-! ## Stripes, bitmap, checkpoints, resynchronisation (chapter 05) -/

def wbe (b : Nat) (w : Bool) : WbEntry := { vsid := 1, nsid := 1, blk := b, ver := 1, ring := 0, data := 0, smask := 0xFF, mirror := false, committed := true, wt := w, issued := false, dead := false, at_ := 0, owner := 0 }

/-- The ring with the namespace and one version in the buffer. -/
def dirty (e : WbEntry) : State :=
  { ringed named ring0 with hce := { named.hce with wb := [e] } }

theorem test_stripe_write_hyps : ring0.stripes = 7 ∧ (dirty (wbe 0 true)).stripeFree ring0 0 = true ∧
    (dirty (wbe 0 true)).cands ring0 0 ≠ [] ∧ (dirty (wbe 0 true)).trigger ring0 ((dirty (wbe 0 true)).cands ring0 0) false = true ∧
    (dirty (wbe 0 false)).trigger ring0 ((dirty (wbe 0 false)).cands ring0 0) true = false := by decide
theorem test_stripe_write_starts : (after (.stripeWriteStart 0 0) (dirty (wbe 0 true))).rge.jseq = 1 ∧
    (after (.stripeWriteStart 0 0) (dirty (wbe 0 true))).rge.writes.map (fun w => (w.ring, w.stripe)) = [(0, 0)] := by decide
theorem test_maxage_not_yet : (after (.drainMaxageExpiry 0 0) (dirty (wbe 0 false))).rge.writes = [] := by decide

def sw0 : StripeWrite := { ring := 0, stripe := 0, phase := .writing, rows := [0], rmw := false, full := false, parts := [], zeroed := [], wt := false, intentIdx := 0, intentMseq := 0, outstanding := [], missedAt := [] }
def writing (w : StripeWrite) : State := { ringed named ring0 with rge := { rings := [ring0], writes := [w] } }

theorem test_stripe_complete_hyps : (writing sw0).rge.writes.find? (fun w => w.ring = 0 && w.stripe = 0) = some sw0 := by decide
theorem test_stripe_complete : (after (.stripeWriteComplete 0 0) (writing sw0)).rge.writes = [] := by decide
theorem test_sweep_hyps : due ring0.sweepAt 0 = true ∧ (ringed named ring0).sweepable ring0 0 = true := by decide
theorem test_sweep_clears : ((after (.bitmapSweep 0) (ringed named { ring0 with bitmap := [0] })).findRing 0).map (fun r => (r.bitmap, r.hdrSeq)) =
    some ([], 1) := by decide
theorem test_checkpoint_hyps : ring0.ckSlots = [0, 1, 2] ∧ due ring0.ckptAt 0 = true ∧ named.pwr.restart = none := by decide
theorem test_checkpoint : ((after (.bitmapCheckpoint 0) (ringed named ring0)).findRing 0).map (fun r => (r.ckpt, r.ckRot)) =
    some (some (0, 1), 1) := by decide
theorem test_checkpoint_complete : ((after (.checkpointWriteComplete 0) (ringed named { ring0 with ckpt := some (2, 5) })).findRing 0).map
    (fun r => (r.ckSeq, r.ckSlot, r.ckpt)) = some (5, 2, none) := by decide

def intent0 : Intent := ⟨0, 0, 1, 0, 3, 1, 1, 1, 1, 0, 0, 1⟩
def rows16 : List (Nat × RowData) := (natsFrom 0 16).map (fun b => (b, []))

theorem test_suspect_hyps : (∀ b ∈ maskRows intent0.rowmask, ∃ e ∈ rows16, e.1 = b) ∧
    (ringed named { ring0 with suspects := [intent0] }).stripeBusy 0 3 = false ∧
    (ringed named { ring0 with suspects := [intent0] }).journalFull = false := by decide
theorem test_verify_hyps : (∀ b < 16, ∃ e ∈ rows16, e.1 = b) ∧ ({ ring0 with verify := some 6 } : Ring).onlyVerify = true ∧
    ({ ringed named { ring0 with verify := some 6 } with rge := { rings := [{ ring0 with verify := some 6 }], rate := 100 } } : State).mayWork =
      true := by decide

/-! ## Members (chapter 06) -/

theorem test_identify_new_hyps : 9 < Config.bays .kv9624a ∧
    (∀ c, bestCopy (drive0 9).superblocks ring0 = some c → ring0.owner = true ∨ c.gen ≤ ring0.gen) ∧
    (∀ i < ring0.slots.length, (ring0.slotAt i).serial ≠ (drive0 9).serial ∧ (ring0.slotAt i).bay ≠ some 9) :=
  ⟨by decide, fun c h => by simp [bestCopy, drive0] at h, by decide⟩
theorem test_identify_new : (((after (.driveIdentified 9 (drive0 9)) (ringed named ring0)).bayOf 9).drive).map (fun d => d.serial) = some 109 := by decide

/-- Ring 0 with member slot 2 in another state. -/
def slotIs (m : MemberSlot) : Ring := { ring0 with slots := (natsFrom 0 2).map mslot ++ [m] ++ (natsFrom 3 5).map mslot }

theorem test_identify_absent_hyps : 2 < (slotIs { mslot 2 with st := .absent }).n ∧ ((slotIs { mslot 2 with st := .absent }).slotAt 2).st = .absent ∧
    ((slotIs { mslot 2 with st := .absent }).slotAt 2).serial = (drive0 2).serial ∧
    (∀ i < (slotIs { mslot 2 with st := .absent }).slots.length, i ≠ 2 →
      ((slotIs { mslot 2 with st := .absent }).slotAt i).serial ≠ (drive0 2).serial ∧
      ((slotIs { mslot 2 with st := .absent }).slotAt i).bay ≠ some 2) := by decide
theorem test_identify_absent : ((after (.driveIdentified 2 (drive0 2)) (ringed named (slotIs { mslot 2 with st := .absent }))).findRing 0).map
    (fun r => (r.slotAt 2).st) = some .stale := by decide
theorem test_rejoin_window : due (some 0) 0 = true ∧
    ((after (.rejoinWindowExpiry 0 2) (ringed named (slotIs { mslot 2 with st := .absent, rejoin := some 0 }))).findRing 0).map
    (fun r => ((r.slotAt 2).st, (r.slotAt 2).dorder)) = some (.failed, 1) := by decide
theorem test_rejoin_hyps : (slotIs { mslot 2 with st := .stale }).nextRebuild = none ∧ (slotIs { mslot 2 with st := .stale }).syncStripes 2 = [] ∧
    ({ slotIs { mslot 2 with st := .stale } with bitmap := [0] } : Ring).syncStripes 2 ≠ [] := by decide
theorem test_rejoin_online : ((after (.rejoinResyncComplete 0 ⟨2, []⟩) (ringed named (slotIs { mslot 2 with st := .stale }))).findRing 0).map
    (fun r => (r.slotAt 2).st) = some .online := by decide
theorem test_smart_hyps : (0, 2) ∈ (ringed named ring0).slotsOfBay 2 ∧ (ring0.slotAt 2).st = .online := by decide
theorem test_smart_bit_2 : ((after (.smartCriticalWarning 2 0x04) (ringed named ring0)).findRing 0).map (fun r => (r.slotAt 2).st) = some .failed := by decide
theorem test_smart_other_bits : ((after (.smartCriticalWarning 2 0xF3) (ringed named ring0)).findRing 0).map (fun r => (r.slotAt 2).st) = some .online := by decide

def failedRing : Ring := slotIs { mslot 2 with st := .failed, dorder := 1 }
def rated (r : Ring) : State := { ringed named r with rge := { rings := [r], rate := 100 } }

theorem test_rebuild_hyps : (∃ l st, failedRing.nextRebuild = some (l, st) ∧ (rated failedRing).mayRenew failedRing st rows16 = true ∧
    (∃ c ∈ failedRing.workChunks st, (failedRing.targetOf st c).isSome = true)) :=
  ⟨1, 0, by decide, by decide, by decide⟩
theorem test_copyback_hyps : ∃ ch st, ch ∉ ((slotIs { mslot 2 with st := .replacing, dorder := 1 }).slotAt 2).filled ∧
    (natsFrom 0 (slotIs { mslot 2 with st := .replacing, dorder := 1 }).turns).find?
      (fun t => !(slotIs { mslot 2 with st := .replacing, dorder := 1 }).turnDone 2 t) = some (ch / 6 / 4096) ∧
    (natsFrom (ch / 6 * 7) 7).find? (fun st => (slotIs { mslot 2 with st := .replacing, dorder := 1 }).homeOf st (ch % 6) = 2) = some st ∧
    (slotIs { mslot 2 with st := .replacing, dorder := 1 }).nextRebuild = none ∧
    (rated (slotIs { mslot 2 with st := .replacing, dorder := 1 })).mayRenew (slotIs { mslot 2 with st := .replacing, dorder := 1 }) st rows16 = true :=
  ⟨0, (((natsFrom 0 7).find? (fun st => (slotIs { mslot 2 with st := .replacing, dorder := 1 }).homeOf st 0 = 2)).getD 0),
    by decide, by decide, by decide, by decide, by decide⟩
theorem test_rate_tick_idle : (after (.rebuildRateTick 500) (ringed named ring0)).rge.rate = 0 ∧
    (after (.rebuildRateTick 500) (ringed named ring0)).rge.traffic = 500 := by decide
theorem test_patrol_hyps : ring0.rebuilding = false ∧ ring0.resyncing = false ∧ ring0.mustWait 0 = false ∧
    (setBits (ringed named ring0) Reg.rgePatcfg 1).cfgBit Reg.rgePatcfg 0 = true := by decide
theorem test_member_fail_hyps : (ringed (mbox 0x0303 [0, 2, 0]) ring0).Inv ∧ ring0.losesData 2 = false ∧
    (slotIs { mslot 2 with st := .online }).owner = true := ⟨inv_of_formOk rfl, by decide, by decide⟩
theorem test_member_fail : ((after (.memberFail .service) (ringed (mbox 0x0303 [0, 2, 0]) ring0)).findRing 0).map (fun r => (r.slotAt 2).st) =
    some .failed := by decide
theorem test_member_fail_not_owner : status (.memberFail .service) (ringed (mbox 0x0303 [0, 2, 0]) { ring0 with owner := false }) .service =
    some stNotOwner := by decide

/-- Two members are gone already: a third failure loses data. -/
def twoGone : Ring := { ring0 with slots := [{ mslot 0 with st := .failed, dorder := 1 }, { mslot 1 with st := .failed, dorder := 2 }] ++ (natsFrom 2 6).map mslot }

theorem test_member_fail_loses : twoGone.losesData 2 = true ∧
    status (.memberFail .service) (ringed (mbox 0x0303 [0, 2, 0]) twoGone) .service = some stConflict := by decide
theorem test_member_replace_hyps : (ringed (mbox 0x0304 [0, 2, 2]) failedRing).fitDrive 2 = true ∧
    (∀ x ∈ failedRing.slots, x.bay = some 2 → x.st = .failed) ∧
    (ringed (mbox 0x0304 [0, 2, 2]) failedRing).roomOn 2 (failedRing.chunks * 65536) = true := by decide
theorem test_member_replace : ((after (.memberReplace .service) (ringed (mbox 0x0304 [0, 2, 2]) failedRing)).findRing 0).map (fun r => (r.slotAt 2).st) =
    some .replacing := by decide
theorem test_lost_list_bad : status (.lostList .service) (mbox 0x0305 [8]) .service = some stInvalidParam ∧
    status (.lostList .service) (mbox 0x0305 [7]) .service = some stOk := by decide

/-! ## Links, FIDs, link state, forwarding (chapter 07) -/

/-- A module with a FID. -/
def fabric : State := { State.reset with rfx := { fidSt := .held, fid := 5, candidate := 5 } }
def claiming : State := { State.reset with rfx := { fidSt := .claiming, candidate := 5, claims := 1, claimTimer := some 0, claimWait := some 0 } }

theorem test_barker_send : State.reset.Inv ∧ (after .barkerSend State.reset).rfx.started = true ∧
    ((after .barkerSend State.reset).rfx.ports.map (fun p => p.bkSeq)) = [1, 1, 1, 1] := ⟨inv_of_formOk rfl, by decide, by decide⟩
theorem test_barker_timeout : (after (.barkerTimeout 2) { fabric with now := ms 3, rfx := { fabric.rfx with ports := [{}, {}, { lastBarker := some 0, up := true }, {}] } }).rfx.ports.map (fun p => p.up) =
      [false, false, false, false] ∧
    (after (.barkerTimeout 2) { fabric with rfx := { fabric.rfx with ports := [{}, {}, { lastBarker := some 0, up := true }, {}] } }).rfx.ports.map (fun p => p.up) =
      [false, false, true, false] := by decide
theorem test_pcs_down : (after (.pcsLinkDown 3) { State.reset with mac := { hostUp := [1, 3] } }).mac.hostUp = [1] := by decide
/-- All ports enabled and their lanes and MACs on. -/
def wakened : State := { State.reset with pwr := { domOn := natsFrom 0 64 } }
theorem test_pcs_up_hyps : wakened.macRuns 0 = true ∧ wakened.retrainHolds 0 = false ∧ wakened.portAwake 0 = true := by decide
theorem test_pcs_up : (after (.pcsLinkUp 0) wakened).mac.hostUp = [0] := by decide
theorem test_peerwait : due (some 0) 0 = true ∧ (after .peerwaitExpiry { State.reset with rfx := { peerWait := some 0 } }).rfx.peer.absent = true := by decide
theorem test_claim_interval : (after .claimInterval claiming).rfx.claims = 2 ∧ (after .claimInterval claiming).rfx.claimTimer = some (ms 5) ∧
    (after .claimInterval { claiming with rfx := { claiming.rfx with claims := 2 } }).rfx.claimTimer = none := by decide
theorem test_claim_wait : (after .claimWaitExpiry claiming).rfx.fidSt = .held ∧ (after .claimWaitExpiry claiming).rfx.fid = 5 := by decide
theorem test_fid_retry_hyps : due (some 0) ({ State.reset with rfx := { fidSt := .full, retryTimer := some 0 } } : State).now = true := by decide
theorem test_claim_hyps : fabric.isDup 9 3 = false ∧ (9 : Nat) ≠ fabric.uid ∧ fabric.uid < 9 ∧ 0 < fabric.uid ∧ claiming.isDup 0 3 = false := by decide
theorem test_claim_lower_uid_wins : (after (.claimReceive 0 0 5 3) claiming).rfx.failedCands = [5] := by decide
theorem test_dup_expiry : (after (.duplicateSuppressionExpiry 9 3) { State.reset with rfx := { dups := [(9, 3, 0), (9, 4, 0)] } }).rfx.dups = [(9, 4, 0)] := by decide

def lsa0 : Lsa := ⟨9, 6, 1, []⟩

theorem test_lsa_hyps : lsa0.uid ≠ fabric.uid ∧ fabric.rfx.fid ≠ lsa0.fid ∧ fabric.rfx.fidSt ≠ .claiming ∧
    serialNewer 1 0xFFFFFFFF = true ∧ serialNewer 1 1 = false := by decide
theorem test_lsa_kept : (after (.lsaReceive 0 lsa0) fabric).rfx.lsdb.map (fun e => (e.lsa.fid, e.expires)) = [(6, ms 3500)] := by decide
theorem test_lsa_old : (after (.lsaReceive 0 lsa0) { fabric with rfx := { fabric.rfx with lsdb := [⟨lsa0, 7⟩] } }).rfx.lsdb = [⟨lsa0, 7⟩] := by decide
theorem test_lsa_refresh : (after .lsaRefresh fabric).rfx.lsaSeq = 1 := by decide
theorem test_lsdb_expiry : (after (.lsdbEntryExpiry 6) { fabric with rfx := { fabric.rfx with lsdb := [⟨lsa0, 0⟩] } }).rfx.lsdb = [] := by decide
theorem test_former_expiry : (after .formerFidExpiry { fabric with rfx := { fabric.rfx with former := some 4, formerTimer := some 0 } }).rfx.former = none := by decide

def hdr0 : ReltiHdr := { typ := 0x10, dst := 6, src := 9, hops := 2, control := false, len := 64, flow := 0 }

theorem test_forward_hyps : hdr0.dst ≠ fabric.rfx.fid ∧ fabric.rfx.former ≠ some hdr0.dst := by decide
theorem test_forward_expired : (after (.frameForward 0 { hdr0 with hops := 1 }) fabric).reg Reg.rfxHopexp = 1 := by decide
theorem test_forward_no_route : (after (.frameForward 0 hdr0) fabric).reg Reg.rfxNoroute = 1 := by decide
theorem test_forward : (after (.frameForward 0 hdr0) { fabric with rfx := { fabric.rfx with routes := [(6, 1, [3])] } }).xbr.frames.map
    (fun f => (f.input, f.owed.length)) = [(4, 1)] := by decide
theorem test_rtqry : (after (.rtqryWrite 6) { fabric with rfx := { fabric.rfx with routes := [(6, 1, [3])] } }).rfx.rtData = 0x80000108 ∧
    (after (.rtqryWrite 7) { fabric with rfx := { fabric.rfx with routes := [(6, 1, [3])] } }).rfx.rtData = 0 := by decide

/-! ## STATUS, ring election and handover, control ownership (R219, R236 to R249) -/

/-- Both midplane links up, the peer joined, with an open stream. -/
def paired : State := { named with rfx := { ports := [{ pcs := true, up := true, nbrFid := 6 }, {}, {}, {}], fidSt := .held, fid := 5, candidate := 5, identity := some 5, peer := { joined := true, fid := 6, uid := 9 }, out1 := { isOpen := true } } }

theorem test_peer_port : paired.peerPort = some 0 := by
  rw [State.peerPort, show paired.upMidplane = [0] by decide]; simp [Nat.mod_one]
theorem test_status_no_peer : State.reset.peerPort = none := by
  rw [State.peerPort, show State.reset.upMidplane = [] by decide]; simp

def electing (r : Ring) : State := { ringed paired r with rfx := paired.rfx }
def ringPeer : Ring := { ring0 with owner := false, master := none, bid := some (1, 5, 1) }

theorem test_elect_hyps : (electing ring0).findRing 0 = some ring0 ∧ ring0.owner = true ∧
    (electing ringPeer).findRing 0 = some ringPeer ∧ ringPeer.owner = false ∧ ringPeer.bidTimer = none := by decide
theorem test_election_timeout_hyps : due ({ ringPeer with bidTimer := some 0 } : Ring).bidTimer 0 = true ∧
    ({ ringPeer with bidTimer := some 0 } : Ring).peerBid = none := by decide
theorem test_owner_send_hyps : ({ ringPeer with ownMseq := some 0 } : Ring).ownMseq = some 0 ∧ paired.peerHolds 0 = true := by decide
theorem test_owner_send : ((after (.ownerSend 0) (ringed named { ringPeer with ownMseq := some 0 })).findRing 0).map (fun r => r.owner) = some true := by decide
theorem test_owner_receive_older : ((after (.ownerReceive 0 6 0) (electing ring0)).findRing 0) = some ring0 := by decide
theorem test_owner_receive_newer : ((after (.ownerReceive 0 6 2) (electing ringPeer)).findRing 0).map (fun r => (r.owner, r.epoch, r.master)) =
    some (false, 2, some 6) ∧
    ((after (.ownerReceive 0 5 2) (electing ringPeer)).findRing 0).map (fun r => r.owner) = some true := by decide

/-- A started command with a ring and the peer. -/
def mboxed (op : Nat) (l : List Byte) (r : Ring) : State := { electing r with mbx := (mbox op l).mbx }

theorem test_ring_handover_hyps : (mboxed 0x0306 [0] ring0).Inv ∧ (mboxed 0x0306 [0] ring0).Starts .service 0x0306 (mbCmd .service 0x0306 [0]) ∧
    (mboxed 0x0306 [0] ring0).findRing 0 = some ring0 ∧ (mboxed 0x0306 [0] ring0).mirrorUp = true :=
  ⟨inv_of_formOk rfl, ⟨rfl, by decide⟩, rfl, by decide⟩
theorem test_ring_handover : ((after (.ringHandover .service) (mboxed 0x0306 [0] ring0)).findRing 0).map (fun r => (r.handover, r.held)) =
    some (some (.service, ms 20), true) := by decide
theorem test_ring_handover_not_owner : status (.ringHandover .service) (mboxed 0x0306 [0] ringPeer) .service = some stNotOwner := by decide

def handing : Ring := { ring0 with handover := some (.service, 0), held := true }

theorem test_quiesced_hyps : (mboxed 0x0306 [0] handing).ringBusy 0 = false ∧ (mboxed 0x0306 [0] handing).findRing 0 = some handing ∧
    (mboxed 0x0306 [0] handing).cmdOf .service = some (mbCmd .service 0x0306 [0]) ∧ (mboxed 0x0306 [0] handing).Inv :=
  ⟨by decide, rfl, rfl, inv_of_formOk rfl⟩
theorem test_quiesced : ((after (.handoverQuiesced 0) { mboxed 0x0306 [0] handing with rfx := { peer := paired.rfx.peer } }).findRing 0).map
    (fun r => (r.owner, r.epoch, r.master, r.held)) = some (false, 2, some 6, false) := by decide
theorem test_quiesced_busy : ({ mboxed 0x0306 [0] handing with rge := { rings := [handing], writes := [sw0] } } : State).ringBusy 0 = true := by decide
theorem test_handover_timeout : status (.handoverTimeout 0) (mboxed 0x0306 [0] handing) .service = some stBusy := by decide

theorem test_owner_claim_hyps : (mbox 0x0B01 []).Starts .service 0x0B01 (mbCmd .service 0x0B01 []) ∧ (mbox 0x0B01 []).Inv :=
  ⟨⟨rfl, by decide⟩, inv_of_formOk rfl⟩
/-- The mailbox with another owner, window or presence. -/
def owning (op : Nat) (l : List Byte) (o : Option Master) (w : Timer) : State := { mbox op l with mbx := { (mbox op l).mbx with owner := o, window := w } }

theorem test_owner_claim_free : (after (.ownerClaim .service) (owning 0x0B01 [] none none)).mbx.owner = some .service ∧
    status (.ownerClaim .service) (owning 0x0B01 [] none none) .service = some stOk := by decide
theorem test_owner_claim_window : (after (.ownerClaim .service) (owning 0x0B01 [] none (some 9))).mbx.claims = [.service] := by decide
theorem test_owner_claim_other : status (.ownerClaim .service) (owning 0x0B01 [] (some .bmc) none) .service = some stNotOwner := by decide
theorem test_owner_claim_own : status (.ownerClaim .service) (owning 0x0B01 [] (some .service) none) .service = some stOk := by decide
theorem test_owner_renew : status (.ownerRenew .service) (owning 0x0B02 [] (some .service) none) .service = some stOk := by decide

/-- A command that was not accepted from the control owner. -/
def foreign (op : Nat) (l : List Byte) : State :=
  { mbox op l with mbx := { (mbox op l).mbx with owner := some .bmc, cmds := [{ mbCmd .service op l with fromOwner := false }] } }

theorem test_foreign_starts : (foreign 0x0B02 []).Starts .service 0x0B02 { mbCmd .service 0x0B02 [] with fromOwner := false } ∧
    (foreign 0x0B02 []).Inv := ⟨⟨rfl, by decide⟩, inv_of_formOk rfl⟩
theorem test_not_owner : status (.ownerRenew .service) (foreign 0x0B02 []) .service = some stNotOwner ∧
    status (.handover .service) (foreign 0x0B03 [1]) .service = some stNotOwner ∧
    status (.ownerRelease .service) (foreign 0x0B04 []) .service = some stNotOwner := by decide

/-- The service core owns control and the BMC is present. -/
def present2 : State := { owning 0x0B03 [1] (some .service) none with mbx := { (mbox 0x0B03 [1]).mbx with held := [⟨none, 0, none, false, 0, none⟩, ⟨some 4, 9, some (0, []), false, 0, some 0⟩, ⟨none, 0, none, false, 0, none⟩, ⟨none, 0, none, false, 0, none⟩] } }
def present1 : State := { present2 with mbx := { present2.mbx with held := setAt present2.mbx.held 1 ⟨some 4, 9, some (0, []), false, 0, some 5⟩ } }

theorem test_handover_hyps : present1.present (masterOf 1) = true ∧ (1 : Nat) ≠ Master.service.num ∧ present1.Inv := ⟨by decide, by decide, inv_of_formOk rfl⟩
theorem test_handover : (after (.handover .service) present1).mbx.owner = some .bmc := by decide
theorem test_owner_release : (after (.ownerRelease .service) (owning 0x0B04 [] (some .service) none)).mbx.owner = none ∧
    (after (.ownerRelease .service) (owning 0x0B04 [] (some .service) none)).mbx.window = some (ms 100) := by decide

/-- A window that has run out. -/
def closing (cs : List Master) : State := { owning 0x0B01 [] none (some 0) with mbx := { (mbox 0x0B01 []).mbx with owner := none, window := some 0, claims := cs } }

theorem test_election_window_hyps : due (closing []).mbx.window 0 = true ∧ (closing [.bmc]).ranking.find? (fun m => [Master.bmc].any (fun k => k = m)) = some .bmc := by decide
theorem test_window_close : (after .electionWindowClose (closing [.bmc])).mbx.owner = some .bmc ∧
    (after .electionWindowClose (closing [])).mbx.window = none := by decide
theorem test_lease_expiry : (after .leaseExpiry { mbox 0 [] with mbx := { (mbox 0 []).mbx with lease := some 0 } }).mbx.owner = none := by decide
theorem test_presence_expiry : ((after (.masterPresenceExpiry .bmc) present2).heldOf .bmc).present = none ∧
    ((after (.masterPresenceExpiry .bmc) present2).heldOf .bmc).result = some (0, []) := by decide

/-! ## The peer's stream, death, fence and takeover (R22, R254 to R278, R433) -/

def bark0 : Barker := { uid := 9, unitPres := 0, slot := 1, port := 2, fidst := 2, fid := 6, heard := 0, lsaSeq := 0, bkSeq := 1, mac := 7 }
/-- Fabric port 2 has a PCS link. -/
def linked : State := { wakened with rfx := { ports := [{}, {}, { pcs := true }, {}] } }

theorem test_barker_hyps : linked.Inv ∧ hasNat (Config.midplane linked.part) 2 = false ∧ (linked.fabPort 2).pcs = true ∧
    linked.fabEnabled 2 = true ∧ bark0.heard ≠ 1 ∧ (linked.fabPort 2).up = false ∧ (linked.fabPort 2).nbrUid = 0 :=
  ⟨inv_of_formOk rfl, by decide⟩
theorem test_barker_receive : ((after (.barkerReceive 2 bark0 none) linked).fabPort 2).nbrFid = 6 := by decide
theorem test_barker_no_pcs : (State.reset.fabPort 2).pcs = false := by decide

/-- Joined with the peer; frames up to 4 of its stream applied. -/
def streamed : State := { named with rfx := { peer := { joined := true, fid := 6, uid := 9 }, rxApplied := 4, out1 := { isOpen := true }, fid := 5, fidSt := .held } }
def rec0 : CmdRecord := { kind := .intake, admin := false, writeThrough := false, forwarded := false, cntlid := 1, sqid := 1, cid := 3, tag := 0, conn := 8, vmark := 0, vsid := 1, spos := 0, slen := 0, capsule := some cap0, cqe := none, adminOpcode := 0, args := [] }
def mb0 (b : Nat) : MirBlock := { vsid := 1, nsid := 1, lba := b * 8, version := 1, ring := 0, writeThrough := false, smask := 0xFF, data := 0, ranges := [] }

theorem test_stream_hyps : streamed.rfx.peer.joined = true ∧ (4 : Nat) ≠ 0 ∧ 4 ≤ streamed.rfx.rxApplied ∧ 5 = streamed.rfx.rxApplied + 1 ∧
    streamed.rfx.rxHeld = [] ∧ streamed.rfx.hold2 = [] := by decide
theorem test_stream_again : (after (.cmdstateReceive 4 rec0) streamed).rfx.peerCmds = [] := by decide
theorem test_stream_record : (after (.cmdstateReceive 5 rec0) streamed).rfx.peerCmds = [rec0] ∧ (after (.cmdstateReceive 5 rec0) streamed).rfx.rxApplied = 5 := by decide
theorem test_stream_blocks : (after (.mirrorReceive 6 5 (.blocks [mb0 0])) streamed).hce.wb.map (fun e => (e.blk, e.mirror, e.owner)) =
    [(0, true, 1)] := by decide

/-- The master of ring 0 whose peer forwards; effective ceiling `c` GiB. -/
def receiver (c : Nat) : State := { ringed streamed ring0 with hce := { streamed.hce with effCeil := c } }

theorem test_forwarded_hyps : (∀ e ∈ [mb0 0], (receiver 1).owns e.ring = true) ∧ (receiver 1).hce.effCeil ≠ 0 ∧
    (receiver 1).ownBlocks + 1 ≤ (receiver 1).hce.effCeil * gibBlocks ∧ (receiver 1).rfx.rxUnacked < 63 := by decide
theorem test_forwarded : (after (.fwdReceive 5 [mb0 0]) (receiver 1)).rfx.rxApplied = 5 ∧
    (after (.fwdReceive 5 [mb0 0]) (receiver 1)).hce.wb.map (fun e => (e.blk, e.mirror)) = [(0, false)] := by decide

/-- A second holder's stream, applied up to 2. -/
def seconding : State := { streamed with rfx := { streamed.rfx with second := [(9, 2)] } }

theorem test_second_hyps : (9 : Nat) ≠ seconding.rfx.peer.fid ∧ seconding.rfx.second.find? (fun e => e.1 = 9) = some (9, 3 - 1) := by decide

theorem test_mirack_hyps : ({ streamed with rfx := { streamed.rfx with rxUnacked := 3 } } : State).rfx.rxUnacked ≠ 0 ∧
    paired.rfx.peer.joined = true ∧ paired.peerPort = some 0 := ⟨by decide, rfl, test_peer_port⟩

/-- Two frames of the stream that no MIRACK covers. -/
def unacked : State := { paired with now := us 30, rfx := { paired.rfx with out1 := { isOpen := true, next := 3, out := [⟨1, .mirror (.free []), 0, 0⟩, ⟨2, .mirror (.free []), 0, us 20⟩] } } }

theorem test_mirack_covers : (after (.mirackReceive false 1 7) unacked).rfx.out1.out.map (fun f => f.mseq) = [2] ∧
    (after (.mirackReceive false 1 7) unacked).rfx.out1.acked = 1 := by decide
theorem test_resend_hyps : (unacked.rfx.out1.out.find? (fun f => f.mseq = 1)).map (fun f => f.sentAt) = some 0 ∧ 0 + us 20 ≤ unacked.now ∧
    unacked.mirrorUp = true ∧ unacked.now < us 20 + us 20 := by decide
theorem test_resend : (after (.mirrorResendTimeout 1) unacked).rfx.out1.out.map (fun f => f.sentAt) = [us 30, us 20] := by decide
theorem test_heartbeat_hyps : paired.cfgBit Reg.rfxTkcfg 1 = true ∧ (paired.putReg Reg.rfxTkcfg 0).cfgBit Reg.rfxTkcfg 1 = false := by decide

def fencing : State := { paired with tk := { phase := .fencing, fenceDelay := some 0 } }

theorem test_fence_delay_hyps : fencing.tk.fenceIn = false ∧ fencing.tk.fenceOut = false ∧ due fencing.tk.fenceDelay fencing.now = true ∧
    fencing.cfgBit Reg.rfxTkcfg 0 = true := by decide
theorem test_fence_delay : (after .fenceDelayExpiry fencing).tk.fenceOut = true ∧ (after .fenceDelayExpiry fencing).tk.fenceHold = some (ms 1) := by decide

/-- A module that is up. -/
def upped : State := { paired with pwr := { up := true } }

theorem test_fence_in_hyps : upped.pwr.up = true ∧ upped.pwr.restart = none ∧ upped.pwr.tripped = false ∧ upped.tk.fenceIn = false ∧
    paired.pwr.up = false := by decide
theorem test_fence_in : (after .fenceInAsserted upped).tk.fenced = true ∧ (after .fenceInAsserted upped).pwr.up = false := by decide
theorem test_fence_in_down : (after .fenceInAsserted paired).tk.fenced = true := by decide
theorem test_fence_release : (after .fenceInDeasserted { paired with tk := { fenceIn := true, fenced := true } }).tk.fenced = false := by decide
theorem test_fence_release_cmd : status (.fenceRelease .service) { mbox 0x0401 [] with tk := { fenceOut := true } } .service = some stOk ∧
    status (.fenceRelease .service) (mbox 0x0401 []) .service = some stConflict := by decide
theorem test_peer_removed : (after .peerRemoved { paired with tk := { fenceOut := true } }).tk.fenceOut = false := by decide
theorem test_hold_expiry : (after .fenceHoldExpiry { paired with tk := { phase := .hold, fenceHold := some 0 } }).tk.phase = .draining := by decide
theorem test_announce : (after (.announcementRepeat 3) { paired with tk := { announces := [⟨3, 1, false, 0, 2, 0⟩] } }).tk.announces =
    [⟨3, 1, false, 0, 1, ms 1⟩] := by decide
theorem test_drained_hyps : ({ paired with tk := { phase := .draining } } : State).hce.wb = [] ∧ paired.hce.deallocs = [] := by decide
theorem test_drained : (after .takeoverDataDrained { paired with tk := { phase := .draining } }).tk.phase = .idle := by decide
theorem test_activation_timeout : (after .activationTimeout { upped with mbx := { activating := some (1, 0), prevSlot := 0, runSlot := 1 } }).mbx.runSlot = 0 := by decide

/-! ## Configuration of subsystems and namespaces (R282 to R294) -/

/-- A started command beside subsystem 1 and its namespace, with an absent peer. -/
def configured (op : Nat) (l : List Byte) (x : Vs) (r : Ring) : State :=
  { ringed named r with
    vsm := { subs := [x], nss := [ns0] }
    hce := {}
    rfx := { peer := { absent := true } }
    mbx := (mbox op l).mbx }

def createRec : List Byte := [2, 0, 3, 1] ++ zeroBytes 28 ++ padTo 256 [0x74]
def bigRing : Ring := { ring0 with chunks := 6000 }

theorem test_configured_hyps : (configured 0x0501 createRec vs0 ring0).Starts .service 0x0501 (mbCmd .service 0x0501 createRec) ∧
    (configured 0x0501 createRec vs0 ring0).Inv := ⟨⟨rfl, by decide⟩, inv_of_formOk rfl⟩
theorem test_vs_create_hyps : byteAt createRec 2 ≤ 31 ∧ byteAt createRec 3 ≤ 15 ∧ (grantsOf createRec).inRange = true ∧
    (∀ b ∈ slice createRec 0x12 14, b = 0) ∧ stripZeros (slice createRec 0x20 256) ≠ [] ∧
    (∀ y ∈ [vs0], y.subnqn ≠ stripZeros (slice createRec 0x20 256)) ∧ (configured 0 [] vs0 ring0).findVs 2 = none ∧
    (configured 0 [] vs0 ring0).overPool 2 (grantsOf createRec) = false := by decide
theorem test_vs_create : ((after (.vsCreate .service) (configured 0x0501 createRec vs0 ring0)).findVs 2).map
    (fun x => (x.st, [x.tagshare, x.qpairs, x.cntls, x.nsmax, x.hostmax], x.subnqn)) = some (.active, [512, 32, 8, 16, 16], [0x74]) := by decide
theorem test_vs_create_taken : status (.vsCreate .service) (configured 0x0501 ([1] ++ createRec.drop 1) vs0 ring0) .service = some stConflict := by decide
theorem test_vs_create_limit : (configured 0 [] { vs0 with tagshare := 262144 } ring0).overPool 2 (grantsOf createRec) = true ∧
    status (.vsCreate .service) (configured 0x0501 createRec { vs0 with tagshare := 262144 } ring0) .service = some stLimit := by decide
theorem test_vs_create_range : 511 < leAt [0, 2] 0 2 ∧ status (.vsCreate .service) (mbox 0x0501 [0, 2]) .service = some stInvalidParam := by decide

theorem test_vs_delete_hyps : (∀ n ∈ ([] : List Ns), n.vsid ≠ 1) ∧ (configured 0 [] vs0 ring0).hasAssoc 1 = false ∧
    (mbox 0 [] |> fun s => { s with vsm := { subs := [vs0] }, hce := { ctrls := [ctrl0] } } : State).hasAssoc 1 = true := by decide
theorem test_vs_delete : (after (.vsDelete .service) { configured 0x0502 [1, 0] vs0 ring0 with vsm := { subs := [vs0] } }).vsm.subs = [] := by decide
theorem test_vs_delete_in_use : status (.vsDelete .service) { configured 0x0502 [1, 0] vs0 ring0 with vsm := { subs := [vs0] }, hce := { ctrls := [ctrl0] } } .service =
    some stConflict := by decide
theorem test_vs_modify : ((after (.vsModify .service) (configured 0x0503 [1, 0, 0, 0, 32] vs0 ring0)).findVs 1).map (fun x => x.tagshare) = some 32 ∧
    (configured 0 [] vs0 ring0).overPool 1 (grantsOf [1, 0, 0, 0, 32]) = false := by decide
theorem test_vs_modify_limit : (configured 0 [] vs0 ring0).overPool 1 (grantsOf [1, 0, 0, 0, 32]) = false ∧
    ({ configured 0 [] vs0 ring0 with vsm := { subs := [vs0, { vs0 with vsid := 2, tagshare := 262144 }] } } : State).overPool 1 (grantsOf [1, 0, 0, 0, 32]) = true := by decide

def hostBytes (act : Nat) (c : Byte) : List Byte := [1, 0, BitVec.ofNat 8 act, 0] ++ padTo 256 [c]

theorem test_vs_hosts_hyps : [0x68] ∈ vs0.hosts ∧ [0x69] ∉ vs0.hosts ∧ vs0.hosts.length < vs0.hostmax ∧
    stripZeros (slice (hostBytes 1 0x69) 4 256) = [0x69] := by decide
theorem test_vs_hosts : ((after (.vsHosts .service) (configured 0x0504 (hostBytes 1 0x69) vs0 ring0)).findVs 1).map (fun x => x.hosts) = some [[0x68], [0x69]] ∧
    ((after (.vsHosts .service) (configured 0x0504 (hostBytes 2 0x68) vs0 ring0)).findVs 1).map (fun x => x.hosts) = some [] ∧
    status (.vsHosts .service) (configured 0x0504 (hostBytes 2 0x69) vs0 ring0) .service = some stInvalidParam := by decide

def portalBytes0 (ix port : Nat) : List Byte := [1, 0, BitVec.ofNat 8 ix, BitVec.ofNat 8 port, 4, 24, 0, 0] ++ zeroBytes 15 ++ [6]

theorem test_vs_portal_hyps : (1 : Nat) < Config.hostPorts .kv9624a ∧ BitVec.ofNat 128 (beAt (portalBytes0 1 1) 8 16) = 6 ∧
    (∀ q ∈ vs0.portals, q.addr ≠ 6) := by decide
theorem test_vs_portal : ((after (.vsPortal .service) (configured 0x0505 (portalBytes0 1 1) vs0 ring0)).findVs 1).map (fun x => x.portals.map (fun q => (q.index, q.port, q.addr))) =
    some [(0, 0, 5), (1, 1, 6)] ∧
    ((after (.vsPortal .service) (configured 0x0505 (portalBytes0 0 0xFF) vs0 ring0)).findVs 1).map (fun x => x.portals) = some [] := by decide

def nsBytes (nsid regions : Nat) : List Byte := [1, 0, 0, 1, BitVec.ofNat 8 nsid, 0, 0, 0, BitVec.ofNat 8 regions, 0, 0, 0, 0xFF, 0xFF]

theorem test_ns_create_hyps : (configured 0 [] vs0 bigRing).findNs 1 2 = none ∧ (configured 0 [] vs0 bigRing).findRing 0 = some bigRing ∧
    leAt (nsBytes 2 1) 12 2 = 0xFFFF ∧ (configured 0 [] vs0 bigRing).fitRun bigRing 1 = some 1 ∧ (configured 0 [] vs0 ring0).fitRun ring0 1 = none := by decide
theorem test_ns_create : ((after (.nsCreate .service) (configured 0x0506 (nsBytes 2 1) vs0 bigRing)).findNs 1 2).map (fun n => (n.ring, n.first, n.regions, n.lbaf)) =
    some (0, 1, 1, 1) ∧ status (.nsCreate .service) (configured 0x0506 (nsBytes 2 1) vs0 ring0) .service = some stLimit := by decide
theorem test_ns_delete_hyps : (configured 0 [] vs0 ring0).formatOn 1 1 = false ∧ (configured 0 [] vs0 ring0).sanitizeOn 1 = false ∧
    ({ configured 0 [] vs0 ring0 with hce := { progress := [{ prog0 with op := 4 }] } } : State).sanitizeOn 1 = true := by decide
theorem test_ns_delete : ((after (.nsDelete .service) (configured 0x0507 [1, 0, 0, 0, 1, 0, 0, 0] vs0 ring0)).findNs 1 1).map (fun n => (n.deleting, n.waiter)) =
    some (true, some .service) := by decide

/-- A namespace that is being deleted. -/
def deleted (z : Bool) : State := { configured 0x0507 [] vs0 ring0 with vsm := { subs := [vs0], nss := [{ ns0 with deleting := true, zeroing := z }] } }

theorem test_ns_delete_complete_hyps : (deleted false).nsBusy 1 1 = false ∧ ((deleted false).discardNs 1 1).nsInFlight 1 1 = false ∧
    (deleted false).owns 0 = true ∧ (deleted true).zeroesDone (deleteTag 1 1) = true ∧
    ({ deleted true with hce := { tags := [tag0] } } : State).nsBusy 1 1 = true := by decide
theorem test_ns_delete_complete : ((after (.nsDeleteComplete 1 1) (deleted false)).findNs 1 1).map (fun n => n.zeroing) = some true ∧
    (after (.nsDeleteComplete 1 1) (deleted true)).vsm.nss = [] := by decide
theorem test_vs_query : status (.vsQuery .service) (configured 0x050E [1, 0] vs0 ring0) .service = some stOk ∧
    status (.vsQuery .service) (mbox 0x050E [0, 2]) .service = some stInvalidParam := by decide
theorem test_vsqry : (after (.vsqryWrite 1) (configured 0 [] vs0 ring0)).vsm.vsShare = 64 ∧
    (after (.vsqryWrite 2) (configured 0 [] vs0 ring0)).vsm.vsShare = 0 := by decide

/-! ## Reset, freeze, images and migration (R297 to R307) -/

def inState (st : VsState) : Vs := { vs0 with st := st }

theorem test_vs_reset_hyps : (configured 0x0508 [1, 0] vs0 ring0).findVs 1 = some vs0 ∧ (configured 0x0508 [1, 0] vs0 ring0).tk.phase = .idle := by decide
theorem test_vs_reset : ((after (.vsReset .service) (configured 0x0508 [1, 0] vs0 ring0)).findVs 1).map (fun x => (x.st, x.waiter)) =
    some (.resetting, some .service) ∧
    status (.vsReset .service) (configured 0x0508 [1, 0] (inState .target) ring0) .service = some stConflict ∧
    status (.vsReset .service) (configured 0x0508 [1, 0] (inState .resetting) ring0) .service = some stBusy := by decide

def resettingVs : Vs := { vs0 with st := .resetting, waiter := some .service }

theorem test_reset_drained_hyps : (configured 0x0508 [1, 0] resettingVs ring0).cmdOf .service = some (mbCmd .service 0x0508 [1, 0]) ∧
    (∀ r ∈ (configured 0x0508 [1, 0] resettingVs ring0).hce.tags, r.vsid ≠ 1) ∧ tag0.vsid = 1 := by decide
theorem test_reset_drained : ((after (.vsResetDrained 1) (configured 0x0508 [1, 0] resettingVs ring0)).findVs 1) = some vs0 ∧
    status (.vsResetDrained 1) (configured 0x0508 [1, 0] resettingVs ring0) .service = some stOk := by decide
theorem test_vs_freeze : ((after (.vsFreeze .service) (configured 0x0509 [1, 0] vs0 ring0)).findVs 1).map (fun x => (x.st, x.waiter)) =
    some (.freezing, some .service) ∧
    status (.vsFreeze .service) (configured 0x0509 [1, 0] (inState .frozen) ring0) .service = some stConflict := by decide

def freezingVs : Vs := { vs0 with st := .freezing, waiter := some .service, quiesceEnd := some 0 }

theorem test_quiesce_hyps : (configured 0x0509 [1, 0] freezingVs ring0).findVs 1 = some freezingVs ∧ (configured 0x0509 [1, 0] freezingVs ring0).Inv ∧
    (configured 0x0509 [1, 0] freezingVs ring0).vsm.migs = [] ∧ due freezingVs.quiesceEnd 0 = true ∧ due vs0.quiesceEnd 0 = false :=
  ⟨rfl, inv_of_formOk rfl, by decide⟩
theorem test_freeze_quiesced : ((after (.freezeQuiesced 1) (configured 0x0509 [1, 0] freezingVs ring0)).findVs 1).map (fun x => (x.st, x.waiter)) =
    some (.frozen, none) ∧ status (.freezeQuiesced 1) (configured 0x0509 [1, 0] freezingVs ring0) .service = some stOk := by decide
theorem test_quiesce_timeout : status (.quiesceTimeout 1) (configured 0x0509 [1, 0] freezingVs ring0) .service = some stBusy := by decide

def frozenVs : Vs := { vs0 with st := .frozen, frzEnd := some 0 }

theorem test_maxfrz : ((after (.maxfrzExpiry 1) (configured 0 [] frozenVs ring0)).findVs 1).map (fun x => x.st) = some .active ∧
    due ({ frozenVs with frzEnd := some 1 } : Vs).frzEnd 0 = false := by decide
theorem test_thaw : ((after (.vsThaw .service) (configured 0x050A [1, 0] frozenVs ring0)).findVs 1) = some vs0 ∧
    status (.vsThaw .service) (configured 0x050A [1, 0] vs0 ring0) .service = some stConflict := by decide

/-- A frozen subsystem alone. -/
def saving : State := { configured 0x050B [1, 0, 0, 0, 0, 0, 0, 0] frozenVs ring0 with vsm := { subs := [frozenVs] } }

theorem test_save_hyps : (saving.imageOf frozenVs).length ≤ 64 * 2 ^ 20 := by decide +kernel
theorem test_save : ((after (.vsSave .service) saving).findVs 1).map (fun x => x.image.take 4) = some [0x53, 0x56, 0x56, 0x4B] ∧
    status (.vsSave .service) (configured 0x050B [1, 0, 0, 0, 0, 0, 0, 0] vs0 ring0) .service = some stConflict := by decide +kernel

/-- The shortest image whose checks hold. -/
def okImage : List Byte := zeroBytes 24 ++ [68] ++ zeroBytes 35 ++ [0x8d, 0x68, 0xc5, 0x5e, 0xc7, 0x4b, 0x67, 0x48]

theorem test_image_ok : imageOk okImage = true := by
  have e : okImage = List.replicate 24 0 ++ [68] ++ List.replicate 35 0 ++ [0x8d, 0x68, 0xc5, 0x5e, 0xc7, 0x4b, 0x67, 0x48] := rfl
  have n : leAt okImage 0x18 4 = 68 := by decide
  have h : okImage.length = 68 := by decide
  have c1 : crc32c (okImage.take 60) = 0x5ec5688d#32 := by rw [e]; simp [crc32c, List.replicate, crcByte, crcBit]
  have c2 : crc32c (okImage.take 64) = 0x48674bc7#32 := by rw [e]; simp [crc32c, List.replicate, crcByte, crcBit]
  unfold imageOk
  simp only [n, h, c1, Nat.reduceSub, c2]
  decide

/-- A target that takes pieces. -/
def target (l : List Byte) : State := configured 0x050C l (inState .target) ring0

theorem test_restore_piece : (padTo 0 (inState .target).restore ++ [7, 8]).length < 0x1C ∧
    ((after (.vsRestore .service) (target [1, 0, 0, 0, 0, 0, 0, 0, 7, 8])).findVs 1).map (fun x => x.restore) = some [7, 8] := by decide
def badImage : List Byte := zeroBytes 24 ++ [0x20, 0, 0, 0] ++ zeroBytes 4
theorem test_restore_bad : 0x1C ≤ badImage.length ∧ leAt badImage 0x18 4 ≤ badImage.length ∧ imageOk badImage = false ∧
    status (.vsRestore .service) (target ([1, 0, 0, 0, 0, 0, 0, 0] ++ badImage)) .service = some stCrc := by decide
theorem test_restore_ok_hyps : padTo 0 (inState .target).restore ++ okImage = okImage ∧ (target ([1, 0, 0, 0, 0, 0, 0, 0] ++ okImage)).findVs 1 = some (inState .target) := by decide
theorem test_restore_conflict : status (.vsRestore .service) (configured 0x050C [1, 0, 0, 0, 0, 0, 0, 0, 7] vs0 ring0) .service = some stConflict := by decide

/-- A module whose peer has joined, which migrates subsystem 1. -/
def migrating (op : Nat) (l : List Byte) (x : Vs) (gs : List Migration) : State :=
  { configured op l x ring0 with
    vsm := { subs := [x], nss := [ns0], migs := gs }
    rfx := { paired.rfx with routes := [(9, 1, [2])] } }

def mig0 : Migration := { vsid := 1, tvsid := 2, tfidA := 9, tfidB := 10, master := .service, phase := .catchUp, passes := 0, maxPasses := 4, cutover := 256, seq := 0, marked := [(1, 0), (1, 1), (1, 2), (1, 3)], sending := [], lead := true }
def migBytes : List Byte := [1, 0, 2, 0, 9, 10, 0, 0]

theorem test_migrate_hyps : (∀ n ∈ [ns0], n.vsid = 1 → (migrating 0 [] vs0 []).owns n.ring = true) ∧ vs0.portals ≠ [] ∧
    (migrating 0 [] vs0 []).paired = true ∧ leAt migBytes 2 2 ≤ 511 ∧
    (∀ n ∈ [ns0], n.vsid = 1 → ({ migrating 0 [] vs0 [] with rge := {} } : State).owns n.ring = false) := by decide
theorem test_phase_end_hyps : (migrating 0 [] vs0 [mig0]).vsm.migs.find? (fun g => g.vsid = 1) = some mig0 ∧
    mig0.cutover ≤ 64 * mig0.marked.length ∧ mig0.passes < mig0.maxPasses ∧ 64 * ({ mig0 with marked := [] } : Migration).marked.length < mig0.cutover := by decide
theorem test_pass_again : (after (.migrationPhaseEnd 1 ⟨true, []⟩) (migrating 0 [] vs0 [mig0])).vsm.migs.map (fun g => (g.phase, g.passes, g.sending.length)) =
    [(.catchUp, 1, 4)] := by decide
theorem test_migration_abort : (after (.migrationPhaseEnd 1 ⟨false, []⟩) { migrating 0 [] vs0 [mig0] with rfx := {} }).vsm.migs = [] := by decide
theorem test_cutover_hyps : ({ mig0 with phase := .cutover } : Migration).phase = .cutover ∧ frozenVs.st = .frozen := by decide
theorem test_receive_hyps : (target []).findVs 1 = some (inState .target) ∧ (padTo 0 (inState .target).restore ++ [7]).length < 0x1C := by decide
theorem test_receive_image : ((after (.migrateReceive 9 1 1 (.image 0 [7])) (target [])).findVs 1).map (fun x => x.restore) = some [7] := by decide
theorem test_moved : ((after (.migrateReceive 9 2 1 (.ack 0)) { migrating 0 [] frozenVs [{ mig0 with phase := .restore }] with rfx := {} }).findVs 1).map
    (fun x => x.st) = some .moved := by decide

/-! ## Frames, rule banks, policers, PFC at the ingress (R311 to R332, R359) -/

def frame0 : FrameIn := { bytes := zeroBytes 60, fecOk := true, icrcOk := true, macsec := none }
def macsecOn : State := setBits State.reset Reg.iclMscfg 0x80000000
def noMac : State := State.reset.putReg Reg.macPcfg 0
def pfcAll : State := setBits State.reset Reg.essPortcfg 0x00FF0000

theorem test_frame_hyps : State.reset.cfgBit Reg.macPcfg 31 = true ∧ noMac.cfgBit Reg.macPcfg 31 = false ∧
    macsecOn.cfgBit Reg.iclMscfg 31 = true ∧ beAt frame0.bytes 12 2 ≠ 0x888E ∧ beAt frame0.bytes 12 2 ≠ 0x8808 ∧
    State.reset.pfcOn 0 3 = false ∧ pfcAll.pfcOn 0 3 = true ∧ ¬(State.reset.ingressUse 0 none + 64 > ingressSize 0) ∧
    State.reset.ingressUse 0 (some 3) + 64 ≤ State.reset.xoffAt 0 + State.reset.hdrAt 0 := by decide
theorem test_frame_fec : (after (.frameReceive 0 { frame0 with fecOk := false }) State.reset).reg Reg.macFecunc = 1 := by decide
theorem test_frame_macsec : (after (.frameReceive 4 frame0) macsecOn).reg Reg.iclMsdrop = 1 ∧
    (after (.frameReceive 4 { frame0 with macsec := some false }) macsecOn).reg Reg.iclMsauth = 1 := by decide

def rc0 : Recirc := { id := 0, port := 0, bank := 0, epoch := 0, pass := 0, bytes := zeroBytes 60, cookie := 7, decap := false, tls := true, vni := 0, tunnel := 0, odip := zeroBytes 16, len := 64, icls := 0, policed := false, yellow := false, icrcOk := true }
def looped (r : Recirc) : State := { State.reset with ppc := { recircs := [r], nextId := 1 } }

theorem test_recirc_hyps : (looped rc0).ppc.recircs.find? (fun r => r.id = 0) = some rc0 ∧
    (looped { rc0 with tls := false }).ppc.recircs.find? (fun r => r.id = 0) = some { rc0 with tls := false } := by decide
theorem test_recirc_bad : (after (.recirculationPass 0 false []) (looped rc0)).ppc.recircs = [] := by decide
theorem test_exception_drain : (after .exceptionDrain { State.reset with ppc := { exq := [⟨[1], [2]⟩, ⟨[3], [4]⟩] } }).ppc.exq = [⟨[3], [4]⟩] := by decide

/-- A frame holds the standby bank. -/
def drainingBank (w : Option (Nat × Option (Master × Nat))) : State := { mbox 0x0001 [] with ppc := { recircs := [{ rc0 with bank := 1 }], nextId := 1, swap := w } }

theorem test_swap_hyps : State.reset.cfgBit Reg.ppcUpdcfg 8 = false ∧ State.reset.draining = false ∧ (drainingBank none).draining = true ∧
    (drainingBank (some (0, some (.service, 0)))).cmdOf .service = some (mbCmd .service 0x0001 []) := by decide
theorem test_bank_swap : (after (.bankSwap false) State.reset).ppc.cur = 1 ∧ (after (.bankSwap false) State.reset).ppc.epoch = 1 ∧
    (after (.bankSwap false) (drainingBank none)).ppc.swap = some (ms 1, none) := by decide
theorem test_swap_effect : (after .swapEffect { State.reset with ppc := { swap := some (5, none) } }).ppc.cur = 1 := by decide
theorem test_swap_refusal : (after .swapRefusal (drainingBank (some (0, none)))).ppc.swap = none ∧
    status .swapRefusal (drainingBank (some (0, some (.service, 0)))) .service = some stBusy := by decide

def windowed : State := setBits State.reset Reg.ppcTwdata 1

theorem test_commit_table_hyps : State.reset.commitRefused = false ∧ (State.reset.putReg Reg.ppcTwaddr 0x2000FFFF).commitRefused = true ∧
    fieldOf (windowed.reg Reg.ppcTwaddr) 30 29 < 2 ∧ windowed.twEntry ≠ zeroBytes 32 ∧ twBad 0x2000FFFF = true ∧ twBad 0 = false := by decide
theorem test_table_commit : (after .tableCommit windowed).ppc.tables = [⟨0, 0, 0, [1] ++ zeroBytes 31⟩] := by decide
theorem test_table_read : (after .tableRead { State.reset with ppc := { tables := [⟨0, 0, 0, [1] ++ zeroBytes 31⟩] } }).reg Reg.ppcTwdata = 1 := by decide
theorem test_batch : (after .batchStart State.reset).ppc.batch = some [] ∧
    (after .tableCommit { windowed with ppc := { batch := some [] } }).ppc.tables = [] ∧
    (after .batchEnd { State.reset with ppc := { batch := some [(0, [1] ++ zeroBytes 31)] } }).ppc.tables = [⟨0, 0, 0, [1] ++ zeroBytes 31⟩] ∧
    fieldOf (0 : Word) 31 31 = State.reset.ppc.cur := by decide
theorem test_polcir : State.reset.noPolicer = false ∧ ((after (.polcirWrite 5) State.reset).policer 0).cir = 5 ∧
    ((after (.polcirWrite 800001) State.reset).policer 0).cir = 0 := by decide

/-- Class 3 of port 0 in XOFF since 0. -/
def xoffed (len now : Nat) : State := { pfcAll with now := now, xbr := { xoff := [(0, 3, 0)], frames := [{ id := 0, input := 0, icls := 3, control := false, multicast := false, owed := [], moving := [], residue := false, len := len }] } }

theorem test_pfc_repeat_hyps : (xoffed 0 0).xbr.xoff.find? (fun e => e.1 = 0 && e.2.1 = 3) = some (0, 3, 0) ∧
    (xoffed 300000 (us 20)).pfcOn 0 3 = true ∧ (xoffed 300000 (us 20)).xonAt 0 ≤ (xoffed 300000 (us 20)).ingressUse 0 (some 3) ∧
    (xoffed 0 (us 20)).ingressUse 0 (some 3) < (xoffed 0 (us 20)).xonAt 0 ∧ (xoffed 0 0).now < 0 + us 20 := by decide
theorem test_pfc_repeat : sent (.pfcRepeat 0 3) (xoffed 300000 (us 20)) = some (.pfc 0 3 0xFFFF) ∧
    sent (.pfcRepeat 0 3) (xoffed 0 (us 20)) = some (.pfc 0 3 0) := by decide

/-! ## Crossbar, egress, sampling (R337 to R362) -/

def copy0 : Copy := { port := 1, host := 1024, vsid := 512, cls := 3, len := 100, ect := false, tag := none, conn := none }
def xframe (owed moving : List Copy) : XFrame := { id := 4, input := 0, icls := 3, control := false, multicast := false, owed := owed, moving := moving, residue := false, len := 100 }
def crossing (f : XFrame) : State := { State.reset with mac := { hostUp := [0, 1] }, xbr := { frames := [f], nextId := 5 } }

theorem test_carousel : (after .carouselMatch (crossing (xframe [copy0] []))).xbr.frames.map (fun f => (f.id, f.owed, f.moving)) = [(4, [], [copy0])] := by decide
theorem test_transfer_hyps : (crossing (xframe [] [copy0])).xbr.frames.find? (fun f => f.input = 0 && !f.moving.isEmpty) = some (xframe [] [copy0]) ∧
    (crossing (xframe [copy0] [copy0])).xbr.frames.find? (fun f => f.input = 0 && !f.moving.isEmpty) = some (xframe [copy0] [copy0]) ∧
    ((crossing (xframe [copy0] [copy0])).xbr.frames.filter (fun x => x.input = 0 && x.residue)).length < 1024 := by decide
theorem test_transfer : (after (.transferComplete 0) (crossing (xframe [] [copy0]))).xbr.frames = [] ∧
    ((after (.transferComplete 0) (crossing (xframe [] [copy0]))).egPort 1).queue.map (fun e => (e.1, e.2.len)) = [(4, 100)] ∧
    (after (.transferComplete 0) (crossing (xframe [copy0] [copy0]))).xbr.frames.map (fun f => f.residue) = [true] := by decide

/-- Egress port 1 with a queued copy. -/
def queued : State := after (.transferComplete 0) (crossing (xframe [] [copy0]))

theorem test_transmit_hyps : ((queued.choose 1).map (fun x => (x.1.cls, x.2.host))) = some (3, 1024) ∧
    (queued.egPort 1).queueOf 3 1024 = [(4, copy0)] ∧ State.reset.choose 1 = none := by decide
theorem test_transmit : ((after (.transmitSelect 1) queued).egPort 1).queue = [] := by decide
theorem test_pause : ((after (.pfcFrameReceive 1 [none, none, none, some 100]) State.reset).egPort 1).paused = [(3, 0, 64)] := by decide
theorem test_pause_expiry : ((after (.pauseExpiry 1 3) { State.reset with xbr := { ports := [{}, { paused := [(3, 0, 0)] }, {}, {}, {}, {}, {}, {}] } }).egPort 1).paused = [] ∧
    ((after (.pauseExpiry 1 3) { State.reset with xbr := { ports := [{}, { paused := [(3, 0, 9)] }, {}, {}, {}, {}, {}, {}] } }).egPort 1).paused = [(3, 0, 9)] := by decide

/-- The host of connection 7 has index 9. -/
def noticed : State := { host with hce := { host.hce with hostIdx := [(9, [0x68])] } }

theorem test_cnp_hyps : noticed.hostOf 7 = some 9 ∧ noticed.cfgBit Reg.essCnpcfg 31 = true ∧ (noticed.putReg Reg.essCnpcfg 0).cfgBit Reg.essCnpcfg 31 = false ∧
    (noticed.shaper 0 9).reactAt ≤ noticed.now ∧ (noticed.shaper 0 9).typ = 0 ∧ (noticed.shaper 0 9).index = 9 := by decide
theorem test_cnp : ((after (.cnpReceive 7) noticed).shaper 0 9).eff = 512 := by decide

def slowed (e : Nat) : State := { noticed with xbr := { shapers := [⟨0, 9, 0, 64, 16, 0, 0, e, 0, some 0⟩] } }

theorem test_recovery : due ((slowed 512).shaper 0 9).recovAt 0 = true ∧ ((after (.rateRecovery 9) (slowed 512)).shaper 0 9).eff = 576 ∧
    ((after (.rateRecovery 9) (slowed 1000)).shaper 0 9).eff = 1024 ∧ ((after (.rateRecovery 9) (slowed 1000)).shaper 0 9).recovAt = none := by decide

/-- Sampling at port 0's ingress, with a countdown. -/
def sampling (c : Option Nat) (n : Nat) : State :=
  { setBits State.reset Reg.xbrSampcfg 0xFFFFFFFF with xbr := { countdown := [c] ++ List.replicate 15 none, samples := List.replicate n ([], []) } }

theorem test_sample_hyps : (sampling (some 2) 0).pointOn 0 = true ∧ State.reset.pointOn 0 = false ∧ (sampling (some 2) 0).xbr.countdown.getD 0 none = some 2 ∧
    (sampling none 0).xbr.countdown.getD 0 none = none := by decide
theorem test_sample_inv : (sampling (some 2) 0).Inv ∧ (sampling none 0).Inv := ⟨inv_of_formOk rfl, inv_of_formOk rfl⟩
theorem test_sample_full : (sampling (some 1) 1024).xbr.samples.length = 1024 := List.length_replicate
theorem test_sample : (after (.sample 0 [7]) (sampling (some 2) 0)).xbr.countdown.getD 0 none = some 1 ∧
    (after (.sample 0 [7]) (sampling (some 1) 0)).xbr.samples.map (fun e => e.2) = [[7]] := by decide
theorem test_sampling_write : (after (.samplingConfigWrite true 5) (sampling (some 2) 0)).xbr.countdown.getD 0 none = none := by decide
theorem test_sample_drain : (after .sampleQueueDrain (sampling none 2)).xbr.samples.length = 1 := by decide
theorem test_occqry : (after (.occqryWrite 8) (crossing (xframe [copy0] []))).xbr.occData = 1 ∧ fieldOf (8 : Word) 3 3 = 1 ∧ fieldOf (0 : Word) 3 3 = 0 ∧
    fieldOf (0x108 : Word) 8 8 = 1 := by decide

/-! ## The key vault (R372 to R402) -/

/-- A vault that serves, with a namespace key, an officer key, a KEK and a session. -/
def kvt0 : KvtSt := { st := .operational, slots := [key0, { key0 with slot := 3, typ := 4 }, { key0 with slot := 17, typ := 5, material := 8 }], session := some (.service, 3, 0), paired := true }
def vault (op : Nat) (l : List Byte) (k : KvtSt) : State := { mbox op l with kvt := k, vsm := { subs := [vs0], nss := [ns0] }, rfx := { peer := { absent := true } } }

theorem test_vault_hyps : (vault 0x0602 [3, 0] kvt0).Starts .service 0x0602 (mbCmd .service 0x0602 [3, 0]) ∧ (vault 0x0602 [3, 0] kvt0).Inv ∧
    firstFail ((vault 0x0602 [3, 0] kvt0).keyChecks serving) = none ∧ Config.hasCipher .kv9624a = true :=
  ⟨⟨rfl, by decide⟩, inv_of_formOk rfl, by decide⟩
theorem test_vault_selftest : (after (.vaultSelftestComplete 0) (vault 0 [] { kvt0 with st := .selftest })).kvt.st = .operational ∧
    (after (.vaultSelftestComplete 0) State.reset).kvt.st = .uncommissioned ∧
    (after (.vaultSelftestComplete 2) State.reset).kvt.st = .error ∧ (after .entropyHealthFailure (vault 0 [] kvt0)).kvt.st = .error ∧
    (after .vaultEnvironmentZeroize (vault 0 [] kvt0)).kvt.session = none := by decide
theorem test_idle_hyps : 0 + ms ((vault 0 [] kvt0).cfg Reg.kvtLockcfg 13 0) ≤ sec 10000 ∧
    (vault 0 [] kvt0).now < 0 + ms ((vault 0 [] kvt0).cfg Reg.kvtLockcfg 13 0) := by decide
theorem test_session_idle : (after .sessionIdleExpiry { vault 0 [] kvt0 with now := sec 10000 }).kvt.session = none := by decide
theorem test_nonce : (after .nonceExpiry (vault 0 [] { kvt0 with nonce := some (3, 9, 0) })).kvt.nonce = none ∧
    (after .nonceExpiry (vault 0 [] { kvt0 with nonce := some (3, 9, 1) })).kvt.nonce = some (3, 9, 1) := by decide
theorem test_lockout : ((after (.loginLockoutExpiry 3) (vault 0 [] { kvt0 with officers := [⟨3, [], some 0⟩] })).officer 3).lockout = none ∧
    due ((vault 0 [] { kvt0 with officers := [⟨3, [], some 1⟩] }).officer 3).lockout 0 = false := by decide
theorem test_challenge_hyps : (vault 0x0602 [3, 0] kvt0).slotIs 3 4 = true ∧ (vault 0x0602 [4, 0] kvt0).slotIs 4 4 = false ∧
    status (.keyChallenge .service) (vault 0x0602 [4, 0] kvt0) .service = some stConflict := by decide
theorem test_challenge : (after (.keyChallenge .service) (vault 0x0602 [3, 0] kvt0)).kvt.nonce.map (fun n => (n.1, n.2.2)) = some (3, sec 5) := by decide

def loginBytes : List Byte := [3, 0, 0, 0] ++ List.replicate 48 1
def unlogged : KvtSt := { kvt0 with session := none, nonce := some (3, 9, 5) }

/-- Whether a response is right is a free value (log 46). -/
theorem test_login_hyps : (vault 0x0603 loginBytes unlogged).kvt.session = none ∧ ((vault 0x0603 loginBytes unlogged).officer 3).lockout = none ∧
    (vault 0x0603 loginBytes unlogged).loginGood .service 3 (slice loginBytes 4 48) = Config.officerGood 5 9 0 3 (slice loginBytes 4 48) := by
  refine ⟨rfl, rfl, ?_⟩
  simp [State.loginGood, vault, unlogged, kvt0, State.findKey, key0, Master.num, mbox, show State.reset.now = 0 from rfl]
theorem test_login_bad_hyps : (vault 0x0603 loginBytes { unlogged with nonce := none }).loginGood .service 3 (slice loginBytes 4 48) = false ∧
    7 ≤ ((⟨3, List.replicate 7 0, none⟩ : OfficerSt).fails.filter (fun t => 0 < t + sec 60)).length := by decide
theorem test_login_bad : status (.keyLogin .service) (vault 0x0603 loginBytes { unlogged with nonce := none }) .service = some stAuthFailed ∧
    ((after (.keyLogin .service) (vault 0x0603 loginBytes { unlogged with nonce := none, officers := [⟨3, List.replicate 7 0, none⟩] })).officer 3).lockout =
      some (sec 60) := by decide
theorem test_login_refused : status (.keyLogin .service) (vault 0x0603 loginBytes { kvt0 with session := some (.bmc, 3, 0) }) .service = some stBusy ∧
    status (.keyLogin .service) (vault 0x0603 loginBytes { unlogged with officers := [⟨3, [], some 1⟩] }) .service = some stLimit := by decide
theorem test_logout : (after (.keyLogout .service) (vault 0x0604 [] kvt0)).kvt.session = none ∧ (vault 0x0604 [] kvt0).inSession .service = true ∧
    status (.keyLogout .service) (vault 0x0604 [] unlogged) .service = some stConflict := by decide
theorem test_key_info : ((after (.keyInfo .service) (vault 0x0601 [0, 0] kvt0)).heldOf .service).result.map (fun r => r.2.take 5) = some [1, 1, 0, 0, 0] ∧
    status (.keyInfo .service) (vault 0x0601 [0, 0] { kvt0 with st := .selftest }) .service = some stConflict := by decide
theorem test_key_info_range : 0xFFF < leAt [0, 0x10] 0 2 ∧ ((vault 0x0601 [0, 0x10] { kvt0 with slots := [{ key0 with slot := 0x1000 }] }).findKey 0x1000).isSome = true := by decide
theorem test_generate : ((after (.keyGenerate .service) (vault 0x0605 [18, 0, 5, 0] kvt0)).findKey 18).map (fun k => (k.typ, k.gen, k.count)) = some (5, 1, 0) ∧
    (vault 0x0605 [18, 0, 5, 0] kvt0).unpaired = false ∧ (vault 0x0605 [18, 0, 5, 0] kvt0).findKey 18 = none ∧
    status (.keyGenerate .service) (vault 0x0605 [18, 0, 5, 0] unlogged) .service = some stConflict := by decide

def importBytes : List Byte := [18, 0, 5, 0, 17, 0, 0, 0] ++ zeroBytes 80

/-- Whether a wrapped key unwraps is a free value: where it does, the other conditions hold together. -/
theorem test_import_hyps : (vault 0x0606 importBytes kvt0).kekAllowed 17 5 = true ∧ (vault 0x0606 importBytes kvt0).kekOf 17 = some 8 ∧
    leAt importBytes 6 2 = 0 ∧ (vault 0x0606 importBytes kvt0).findKey 18 = none ∧ (vault 0x0606 importBytes kvt0).inSession .service = true := by decide
theorem test_import_fails_hyps : (vault 0x0606 importBytes kvt0).kvt.unwrapFails < 15 ∧
    ((vault 0x0606 [18, 0, 5, 0, 17, 0, 0, 0] kvt0).kekOf 18).bind (fun w => Config.unwrapKey w 5 []) = none := by decide
theorem test_export_hyps : (vault 0x0607 [17, 0, 17, 0] kvt0).findKey 17 = some { key0 with slot := 17, typ := 5, material := 8 } ∧
    (16 : Nat) ≤ 17 ∧ (5 : Nat) ≠ 4 := by decide
theorem test_export_refused : status (.keyExport .service) (vault 0x0607 [17, 0, 0, 0] kvt0) .service = some stConflict ∧ key0.typ ≠ 5 := by decide
theorem test_key_delete : (after (.keyDelete .service) (vault 0x0608 [17, 0] kvt0)).findKey 17 = none ∧ (vault 0x0608 [17, 0] kvt0).rekeying 17 = false ∧
    (∀ x ∈ (vault 0x0608 [17, 0] kvt0).vsm.nss, x.keySlot ≠ 17) := by decide
theorem test_key_delete_used : status (.keyDelete .service) { vault 0x0608 [17, 0] kvt0 with vsm := { subs := [vs0], nss := [{ ns0 with keySlot := 17 }] } } .service =
    some stConflict := by decide

/-- The namespace's ring is mastered here. -/
def rekeyable (l : List Byte) (k : KvtSt) : State := { vault 0x0609 l k with rge := { rings := [ring0] } }
def rekeyed : KvtSt := { kvt0 with slots := [{ key0 with oldMaterial := some 4 }], rekeys := [⟨0, 0, false, 0, none⟩] }

theorem test_rekey : ((after (.keyRekey .service) (rekeyable [0, 0] kvt0)).findKey 0).map (fun k => (k.gen, k.oldMaterial, k.cursor)) = some (1, some 5, 0) ∧
    (rekeyable [0, 0] kvt0).servedNs 0 = some ns0 ∧ (rekeyable [0, 0] kvt0).owns 0 = true ∧
    status (.keyRekey .service) (rekeyable [0, 0] rekeyed) .service = some stConflict := by decide
theorem test_key_selftest : (after (.keySelftest .service 0) (vault 0x060A [] kvt0)).kvt.drbgCount = 0 ∧
    (after (.keySelftest .service 2) (vault 0x060A [] kvt0)).kvt.st = .error := by decide
theorem test_zeroize : (after (.keyZeroize .service) (vault 0x060B [1] kvt0)).kvt.st = .error ∧ (after (.keyZeroize .service) (vault 0x060B [2] kvt0)).kvt.slots = [] ∧
    status (.keyZeroize .service) (vault 0x060B [2] unlogged) .service = some stConflict := by decide
theorem test_random : (after (.keyRandom .service) (vault 0x060C [4, 0] kvt0)).freeCtr = (vault 0x060C [4, 0] kvt0).freeCtr + 4 ∧
    status (.keyRandom .service) (vault 0x060C [0, 0] kvt0) .service = some stInvalidParam := by decide

/-! ## Rekey, MACsec, TLS (R263, R374 to R388) -/

theorem test_pair_key : (after (.pairKeyAgreementComplete true) { vault 0 [] { kvt0 with paired := false } with rfx := paired.rfx }).kvt.paired = true ∧
    (vault 0 [] kvt0 |> fun s => { s with rfx := paired.rfx } : State).paired = true := by decide

/-- A rekey of the namespace's key runs on region 0. -/
def rekeyRun (r : Rekey) (n : Ns) : State := { rekeyable [] { rekeyed with rekeys := [r] } with vsm := { subs := [vs0], nss := [n] }, hce := { effCeil := 32 } }

theorem test_piece_hyps : (rekeyRun ⟨0, 0, false, 0, none⟩ ns0).kvt.rekeys.find? (fun r => r.slot = 0) = some ⟨0, 0, false, 0, none⟩ ∧
    (rekeyRun ⟨0, 0, false, 0, none⟩ ns0).servedNs 0 = some ns0 ∧
    (rekeyRun ⟨0, 0, false, 0, none⟩ ns0).pieceFree ns0 { key0 with oldMaterial := some 4 } ⟨0, 0, false, 0, none⟩ = true ∧
    (rekeyRun ⟨0, 0, false, 32, none⟩ ns0).pieceFree ns0 { key0 with oldMaterial := some 4 } ⟨0, 0, false, 32, none⟩ = false ∧
    ((rekeyRun ⟨0, 0, false, 0, none⟩ ns0).newest 1 1 3).isNone = true ∧ (rekeyRun ⟨0, 0, false, 0, none⟩ ns0).isLost 1 1 3 = false := by decide
theorem test_piece : (after (.rekeyPieceLoaded 0 []) (rekeyRun ⟨0, 0, false, 0, none⟩ ns0)).kvt.rekeys = [⟨0, 0, true, 1, none⟩] := by decide
theorem test_region_hyps : (rekeyRun ⟨0, 0, false, 32, some 0⟩ ns0).peerHolds 0 = true ∧
    ({ rekeyRun ⟨0, 0, false, 32, some 7⟩ ns0 with rfx := { out1 := { isOpen := true } } } : State).peerHolds 7 = false ∧
    (rekeyRun ⟨0, 0, false, 32, none⟩ ns0).owns 0 = true := by decide
theorem test_region_done : (after (.rekeyRegionDone 0) (rekeyRun ⟨0, 0, true, 32, some 0⟩ { ns0 with regions := 2 })).kvt.rekeys = [⟨0, 1, false, 0, none⟩] ∧
    (after (.rekeyRegionDone 0) (rekeyRun ⟨0, 0, true, 32, some 0⟩ ns0)).kvt.rekeys = [] ∧
    ((after (.rekeyRegionDone 0) (rekeyRun ⟨0, 0, true, 32, none⟩ ns0)).findKey 0).map (fun k => k.cursor) = some 1 := by decide

/-- MKA on fabric port 0, with a CAK. -/
def secured (x : MacsecPort) : State := { macsecOn with kvt := { st := .operational, slots := [{ key0 with slot := 20, typ := 3 }], macsec := [x, {}, {}, {}] } }
def mka0 : MkaMsg := { member := 8, icvOk := true, priority := 4, lowestPn := 0, sak := some 6, sakInstalled := none }

theorem test_mka_hyps : (secured {}).mkaOn 0 = true ∧ (secured {}).Inv ∧ State.reset.mkaOn 0 = false ∧
    (secured {}).keyServer 0 { ({} : MacsecPort) with members := [(8, 4, sec 6)] } = false :=
  ⟨by decide, inv_of_formOk rfl, by decide, by decide⟩
theorem test_mka_frame : (((after (.mkaFrameReceive 0 mka0) (secured {})).msPort 0).members, ((after (.mkaFrameReceive 0 mka0) (secured {})).msPort 0).txSak) =
    ([(8, 4, sec 6)], some 6) ∧ (after (.mkaFrameReceive 0 { mka0 with icvOk := false }) (secured {})).reg Reg.iclMsauth = 1 := by decide
theorem test_mka_hello : ((after (.mkaHello 0) (secured {})).msPort 0).helloAt = some (sec 2) := by decide
theorem test_mka_life : ((after (.mkaLifeExpiry 0 8) (secured { txSak := some 6, members := [(8, 4, 0), (9, 5, 7)] })).msPort 0).members = [(9, 5, 7)] ∧
    ((after (.mkaLifeExpiry 0 8) (secured { txSak := some 6, members := [(8, 4, 0)] })).msPort 0).txSak = none := by decide

/-- A TCP connection and a PSK. -/
def psked : State := { link connT with kvt := { st := .operational, slots := [{ key0 with slot := 30, typ := 2, ident := [9] }], tls := [⟨7, 30, 1, 2, 0, 5, none⟩] } }

theorem test_tls_hyps : psked.findConn 8 = some connT ∧ connT.transport = .tcp ∧ connT.icDone = false ∧ connT.tls = false ∧
    psked.pskOf [[9]] = some 30 ∧ psked.pskOf [[8]] = none ∧ psked.mbx.activating = none := by decide
theorem test_client_hello : sent (.clientHello 8 [[9]] true true true) psked = some (.tls 8 2) ∧ sent (.clientHello 8 [[9]] true false true) psked = some (.tls 8 6) ∧
    ((after (.clientHello 8 [[9]] true true true) psked).findConn 8).map (fun k => k.tls) = some true := by decide
theorem test_key_update : (after (.keyUpdateReceive 7) psked).kvt.tls.map (fun t => t.rxCount) = [0] ∧
    (∀ x ∈ psked.kvt.tls, x.conn ≠ 8) := by decide

/-! ## The mailbox (R405 to R427) -/

/-- A DESCRIBE packet of the BMC with SEQ 5, and a POLL of it. -/
def pkt (fl : Nat) (c : List Byte) : List Byte := [1, 1, 1, BitVec.ofNat 8 fl, 1, 0, 0, 0, 5] ++ List.replicate 51 0 ++ c
def pktNew : List Byte := pkt 0 [0x32, 0xe4, 0xc3, 0x0e]
def pktPoll : List Byte := pkt 1 [0x55, 0x99, 0xea, 0x77]

theorem test_packet_form : packetForm .bmc pktNew = none := by
  have c : crc32c (pktNew.take 60 ++ slice pktNew 64 0) = 0x0ec3e432#32 := by
    rw [show pktNew.take 60 ++ slice pktNew 64 0 = [1, 1, 1, 0, 1, 0, 0, 0, 5] ++ List.replicate 51 0 from rfl]
    simp [crc32c, List.replicate, crcByte, crcBit]
  unfold packetForm
  simp only [show leAt pktNew 12 2 = 0 by decide, c]
  decide
theorem test_poll_form : packetForm .bmc pktPoll = none := by
  have c : crc32c (pktPoll.take 60 ++ slice pktPoll 64 0) = 0x77ea9955#32 := by
    rw [show pktPoll.take 60 ++ slice pktPoll 64 0 = [1, 1, 1, 1, 1, 0, 0, 0, 5] ++ List.replicate 51 0 from rfl]
    simp [crc32c, List.replicate, crcByte, crcBit]
  unfold packetForm
  simp only [show leAt pktPoll 12 2 = 0 by decide, c]
  decide

/-- A mailbox that serves, with a command and a held result of the BMC. -/
def serving1 (cs : List MbCmd) (h : Held) : State := { State.reset with pwr := { up := true }, mbx := { ready := true, owner := some .bmc, cmds := cs, held := [⟨none, 0, none, false, 0, none⟩, h, ⟨none, 0, none, false, 0, none⟩, ⟨none, 0, none, false, 0, none⟩] } }
def noHeld : Held := ⟨none, 0, none, false, 0, none⟩
def doneHeld : Held := ⟨some 5, 0x0101, some (0, [9]), false, 0, none⟩

theorem test_message_hyps : pktNew.length ≤ 4160 ∧ (serving1 [] noHeld).mbxServes .bmc = true ∧ (serving1 [] noHeld).Inv ∧
    byteAt pktNew 3 % 2 = 0 ∧ ((serving1 [] noHeld).heldOf .bmc).seq = none ∧ (serving1 [] noHeld).cmdOf .bmc = none ∧
    ((serving1 [mbCmd .bmc 0x0101 []] noHeld).cmdOf .bmc).isSome = true ∧ byteAt pktNew 3 % 4 = 0 ∧
    ((serving1 [] doneHeld).heldOf .bmc).seq = some (leAt pktNew 8 4) ∧ ((serving1 [] doneHeld).heldOf .bmc).opcode = leAt pktNew 0 2 ∧
    ({ State.reset with pwr := { up := true } } : State).mbxServes .bmc = false :=
  ⟨by decide, by decide, inv_of_formOk rfl, by decide⟩
theorem test_message_short : sent (.mctpMessage (pktNew.take 63)) (serving1 [] noHeld) = some (.reply .bmc 5 stCrc 1 []) ∧
    (pktNew.take 63).length < 64 + leAt (pktNew.take 63) 12 2 := by decide
theorem test_control_message : sent (.mctpControlMessage 3) State.reset = some (.reply .bmc 3 stOk 0 []) := by decide
theorem test_poll_hyps : byteAt pktPoll 3 % 2 = 1 ∧ leAt pktPoll 12 2 = 0 ∧ ((serving1 [] doneHeld).heldOf .bmc).seq = some (leAt pktPoll 8 4) := by decide

def routed : State := { State.reset with pwr := { up := true }, sep := { linkUp := true, mse := true }, mbx := { ready := true } }

theorem test_doorbell_hyps : routed.sepRoute = true ∧ fieldOf (1 : Word) 0 0 = 1 ∧ routed.mbxServes .service = true ∧ State.reset.sepRoute = false := by decide

/-- An accepted command that has not started. -/
def mbPending (m : Master) (op : Nat) (l : List Byte) : MbCmd := { mbCmd m op l with started := false, rev := 1 }

theorem test_start_hyps : (serving1 [mbPending .bmc 0x0101 []] noHeld).cmdOf .bmc = some (mbPending .bmc 0x0101 []) ∧
    (serving1 [mbPending .bmc 0x0101 []] noHeld).mayStart (mbPending .bmc 0x0101 []) = true ∧ (opRow 0x0101).isNone = false ∧
    (opRow 0x0104).isNone = true ∧ (serving1 [] noHeld).restricted 0x0101 = false ∧ opChanges 0x0101 = false ∧ opChanges 0x0502 = true ∧
    (mbPending .bmc 0x0101 []).resultOk = true ∧ (serving1 [] noHeld).bmcOnly (mbPending .bmc 0x0502 []) = false ∧
    ({ serving1 [] noHeld with tk := { fenced := true } } : State).restricted 0x0502 = true := by decide
theorem test_start : ((after (.commandStart .bmc) (serving1 [mbPending .bmc 0x0502 (zeroBytes 4)] noHeld)).cmdOf .bmc).map (fun c => c.started) = some true ∧
    status (.commandStart .bmc) (serving1 [mbPending .bmc 0x0104 []] noHeld) .bmc = some stInvalidOpcode ∧
    status (.commandStart .bmc) (serving1 [mbPending .bmc 0x0502 []] noHeld) .bmc = some stInvalidParam ∧
    status (.commandStart .bmc) (serving1 [{ mbPending .bmc 0x0502 (zeroBytes 4) with fromOwner := false }] noHeld) .bmc = some stNotOwner := by decide
theorem test_start_dma_hyps : ({ mbPending .service 0x050C [] with flags := 4, dlen := 64 } : MbCmd).dmap = true ∧
    ({ mbPending .service 0x050C [] with flags := 4, dlen := 64 } : MbCmd).lenOk = true := by decide
theorem test_describe : status (.describe .service) (mbox 0x0101 []) .service = some stOk := by decide
theorem test_topo : ((after (.fabTopo .service) { mbox 0x0402 [0] with rfx := { lsdb := [⟨lsa0, 9⟩] } }).heldOf .service).result.map (fun r => r.2.take 4) =
    some [1, 0, 0, 0] := by decide
theorem test_flush_hyps : (mbox 0x0102 []).peerHolds (mbox 0x0102 []).lastMseq = true ∧
    ({ mbox 0x0102 [] with rfx := { out1 := { isOpen := true, next := 3 } } } : State).peerHolds 2 = false := by decide
theorem test_flush : status (.mbFlush .service) (mbox 0x0102 []) .service = some stOk := by decide

/-- MB_RESET behind a command of the BMC. -/
def resetting (st : Bool) : State := { mbox 0x0103 [] with mbx := { (mbox 0x0103 []).mbx with cmds := [{ mbCmd .bmc 0x0101 [] with started := st }, mbCmd .service 0x0103 []] } }

theorem test_reset_hyps : earlier .service (resetting true).mbx.cmds = [mbCmd .bmc 0x0101 []] ∧
    (resetting true).Starts .service 0x0103 (mbCmd .service 0x0103 []) ∧ (resetting true).Inv := ⟨by decide, ⟨rfl, by decide⟩, inv_of_formOk rfl⟩
theorem test_mb_reset : status (.mbReset .service) (resetting false) .bmc = some stAborted ∧ status (.mbReset .service) (resetting false) .service = some stOk ∧
    ((after (.mbReset .service) (resetting true)).cmdOf .service).map (fun c => c.running) = some true := by decide

/-! ## Supplies, flush, power-up and restart (R96 to R99, R493 to R504, R523, R620) -/

/-- Power states of the module. -/
def powered (p : PwrSt) : State := { State.reset with pwr := p }
def upEf : State := powered { up := true, efOn := true, vinOk := true, vsbOk := true }

theorem test_trip : (after .powerFailTrip upEf).hce.flushing = true ∧ (after .powerFailTrip State.reset).hce.flushing = false := by decide +kernel

/-- A flush at its end. -/
def flushing0 : State := { upEf with hce := { flushing := true, halted := true } }
def cmdFlush : MemberCmd := { id := 0, bay := 0, ring := 0, slot := 0, op := .write, lba := 0, rows := [0], data := [], metas := [], fua := false, purpose := .flush 0 0, tries := 0, issuedAt := 0, deadline := none, abortEnd := none, hedged := false }

theorem test_flush_end_hyps : flushing0.hce.flushing = true ∧ flushing0.pwr.up = true ∧ flushing0.rge.writes = [] ∧
    flushing0.bay.cmds = [] ∧ cmdFlush.flushes = true ∧ (writing sw0).rge.writes ≠ [] := by decide
theorem test_flush_end : (after .flushEnd flushing0).hce.flushMark = true ∧ (after .flushEnd flushing0).pwr.up = false := by decide
theorem test_efuse : (after .efuseCurrentLimit upEf).pwr.efFault = 1 ∧ (after .efuseFastTrip upEf).pwr.efFault = 2 ∧
    (after .efuseFastTrip upEf).pwr.efRetryAt = some (sec 1) ∧ (after .efuseFastTrip State.reset).pwr.efFault = 0 := by decide
theorem test_efuse_retry : (after .efuseRetry (powered { efFault := 1, efRetryAt := some 0 })).pwr.efRetry = 2 ∧
    (after .efuseRetry (powered { efFault := 1, efRetryAt := some 1 })).pwr.efRetry = 3 ∧ (after .efuseFaultClear (powered { efFault := 1, efRetry := 0 })).pwr.efRetry = 3 := by decide
theorem test_cutoff : (after .vinCutoff (powered { mode := .standby, efOn := true, vinOk := true })).pwr.mode = .active ∧
    (after (.railFault .vdd) upEf).pwr.railOff = true ∧ (after (.railFault .vdd) State.reset).pwr.railOff = false := by decide
theorem test_references : (after .referenceLoss upEf).pwr.refBackup = true ∧ (after .referenceRestored (powered { refBackup := true })).pwr.refBackup = false := by decide
theorem test_power_up_hyps : State.reset.strapsOk = true ∧ State.reset.mayPower = true ∧ upEf.mayPower = false ∧
    ({ State.reset with strapsOk := false } : State).strapsOk = false := by decide
theorem test_power_up : (after (.powerUp [] []) State.reset).pwr.up = true ∧ (after (.powerUp [] []) State.reset).mac.tod = 0 := by decide +kernel
theorem test_thermal : (after .thermalTrip upEf).hce.flushing = true ∧ (after .thermalTrip upped).tk.hbOut = false ∧ upped.paired = true ∧ upEf.paired = false ∧
    (after .thermalTrip flushing0).pwr.tripped = true := by decide

def restarting (l : List Byte) (p : PwrSt) : State := { mbox 0x0807 l with pwr := p }

theorem test_restart_hyps : (restarting [1] upEf.pwr).Starts .service 0x0807 (mbCmd .service 0x0807 [1]) ∧ (restarting [1] upEf.pwr).Inv ∧
    (restarting [1] upEf.pwr).coresOff = false ∧ (restarting [1] upEf.pwr).masters = false ∧ (restarting [1] {}).coresOff = true ∧
    ({ restarting [1] upEf.pwr with rfx := paired.rfx, rge := { rings := [ring0] } } : State).masters = true :=
  ⟨⟨rfl, by decide⟩, inv_of_formOk rfl, by decide⟩
theorem test_restart : (after (.modRestart .service) (restarting [1] upEf.pwr)).pwr.restart = some ⟨1, none, true, false⟩ ∧
    status (.modRestart .service) (restarting [3] upEf.pwr) .service = some stInvalidParam ∧
    status (.modRestart .service) { restarting [1] upEf.pwr with rfx := paired.rfx, rge := { rings := [ring0] } } .service = some stConflict := by decide
theorem test_restart_off : (after (.modRestart .service) (restarting [2] {})).pwr.mode = .standby ∧
    (after (.modRestart .service) (restarting [1] { mode := .standby })).pwr.mode = .active := by decide

/-- An orderly shutdown under way. -/
def draining0 (r : Restart) : State := powered { up := true, restart := some r }

theorem test_drain_hyps : (draining0 ⟨2, none, true, true⟩).ownBlocks = 0 ∧ (draining0 ⟨2, none, true, true⟩).paired = false ∧
    (draining0 ⟨2, none, true, true⟩).checkpointing = false ∧ ({ draining0 ⟨2, none, true, true⟩ with rfx := paired.rfx } : State).paired = true ∧
    ({ draining0 ⟨2, none, true, true⟩ with rge := { rings := [{ ring0 with ckpt := some (0, 1) }] } } : State).checkpointing = true ∧
    ({ draining0 ⟨2, none, true, true⟩ with hce := { wb := [wbe 0 false] } } : State).ownBlocks ≠ 0 := by decide
theorem test_drain_checkpoints : ({ ringed named ring0 with pwr := { up := true, restart := some ⟨2, none, true, true⟩ } } : State).cleanCheckpoints.checkpointing = true := by decide +kernel
theorem test_drain : (after .restartDrainComplete (draining0 ⟨2, none, true, true⟩)).pwr.mode = .standby ∧
    (after .restartDrainComplete { draining0 ⟨2, none, true, true⟩ with rfx := paired.rfx }).tk.hbOut = false := by decide

/-! ## Power domains, states, health, policy (R265, R506 to R525) -/

theorem test_wake_hyps : domPresent .kv9624a 60 = true ∧ hasNat upEf.pwr.domOn 60 = false ∧ upEf.pwr.waking = [] := by decide
theorem test_wake : (after (.domainWake 60) upEf).pwr.waking.map (fun w => w.1) = [60] := by decide

def waking0 (d : Nat) (on : List Nat) : State := powered { up := true, waking := [(d, 0)], domOn := on }

theorem test_domain_on_hyps : (59 : Nat) ≤ 60 ∧ hasNat (waking0 60 []).kvt.lanesFailed (60 - 59) = false ∧
    hasNat (addNat (waking0 76 [77]).pwr.domOn 76) (76 + 2 * 0) = true ∧ hasNat (addNat (waking0 76 [77]).pwr.domOn 76) (77 + 2 * 0) = true := by decide
theorem test_domain_on : (after (.domainOn 60 true) (waking0 60 [])).pwr.domOn = [60] ∧ (after (.domainOn 60 true) (waking0 60 [])).kvt.lanesOn = [1] ∧
    (after (.domainOn 60 false) (waking0 60 [])).kvt.lanesFailed = [1] := by decide

def idle0 (d : Nat) : State := powered { up := true, mode := .lull, domOn := [d] }

theorem test_domain_idle_hyps : domAlways 60 = false ∧ (idle0 60).domNeeded 60 = false ∧ domRetains 41 = true ∧ (idle0 41).domNeeded 41 = false ∧
    (idle0 84).domNeeded 84 = false ∧ domAlways 84 = false ∧ domAlways 0 = true ∧ (idle0 60).deepest = 2 := by decide
theorem test_domain_idle : (after (.domainIdle 41) (idle0 41)).pwr.domRet = [41] ∧ (after (.domainIdle 60) (idle0 60)).pwr.domOn = [] ∧
    (after (.domainIdle 60) { idle0 60 with pwr := { up := true, domOn := [60] } }).pwr.domOn = [60] := by decide

/-- A window of 100 ms, or of 1 ms, with a load in 1/100 per cent. -/
def win (b : Bool) (l : Nat) : LoadWindow := ⟨b, [], l⟩
/-- The power state with runs of low windows; Doze allowed, and allowed to shed, where `deep`. -/
def modeIs (m : PwrMode) (l d : Nat) (deep : Bool) : State :=
  (powered { up := true, mode := m, lullRun := l, dozeRun := d }).putReg Reg.pwrPolicy0 (if deep then 0x03190102 else 0x03190201)

theorem test_evaluation_hyps : (modeIs .active 0 0 false).activeHold = false ∧ (modeIs .doze 0 0 false).activeHold = true ∧
    (modeIs .lull 0 0 true).activeHold = false ∧ (modeIs .lull 0 0 true).dozeBlock = false ∧ (modeIs .lull 0 0 false).dozeBlock = true ∧
    (modeIs .doze 0 0 true).activeHold = false ∧ (modeIs .doze 0 0 true).policy 0 = 2 ∧ (modeIs .active 0 0 false).policy 0 = 1 ∧
    (modeIs .active 0 0 false).policy 2 * 100 ≤ (modeIs .active 0 0 false).loadOf (win false 9999) ∧
    (modeIs .active 0 0 false).loadOf (win false 0) < (modeIs .active 0 0 false).policy 2 * 100 := by decide
theorem test_evaluation_active : (after (.powerStateEvaluation (win false 0)) (modeIs .active 0 0 false)).pwr.lullRun = 1 ∧
    (after (.powerStateEvaluation (win false 9999)) (modeIs .active 5 0 false)).pwr.lullRun = 0 ∧
    (after (.powerStateEvaluation (win false 0)) (modeIs .active 99999 0 false)).pwr.mode = .lull := by decide
theorem test_evaluation_lull : (after (.powerStateEvaluation (win true 9999)) (modeIs .lull 0 0 true)).pwr.mode = .active ∧
    (after (.powerStateEvaluation (win true 0)) (modeIs .lull 0 0 true)).pwr.mode = .lull ∧
    (after (.powerStateEvaluation (win false 0)) (modeIs .lull 0 0 true)).pwr.dozeRun = 1 ∧
    (after (.powerStateEvaluation (win false 0)) (modeIs .lull 0 99999 true)).pwr.mode = .doze ∧
    (after (.powerStateEvaluation (win false 0)) (modeIs .lull 0 5 false)).pwr.dozeRun = 0 := by decide
theorem test_evaluation_doze : (after (.powerStateEvaluation (win true 9999)) (modeIs .doze 0 0 true)).pwr.mode = .active ∧
    (after (.powerStateEvaluation (win false 0)) (modeIs .doze 0 0 true)).pwr.mode = .doze ∧
    (after (.powerStateEvaluation (win false 0)) (modeIs .doze 0 0 false)).pwr.mode = .active := by decide
theorem test_doze_block_hyps : ({ modeIs .doze 0 0 true with kvt := rekeyed } : State).dozeBlock = true ∧
    ({ modeIs .doze 0 0 true with kvt := rekeyed } : State).activeHold = false := by decide

def upHb (hb bad : Bool) : State := { upEf with tk := { hbOut := hb, healthBad := bad } }

theorem test_health_hyps : (upHb false false).kvt.st ≠ .error ∧ (upHb false false).pwr.tripped = false ∧ (upHb false false).pwr.restart = none ∧
    (upHb false false).hce.flushing = false ∧ (upHb false false).tst.boot = false ∧ (upHb true false).paired = false ∧
    ({ upped with tk := { hbOut := true } } : State).paired = true := by decide
theorem test_health : (after (.healthCheck true true) (upHb false false)).tk.hbOut = true ∧ (after (.healthCheck true false) (upHb true false)).tk.healthBad = true ∧
    (after (.healthCheck true false) (upHb true true)).pwr.railOff = true ∧ (after (.healthCheck true false) upped).tk.hbOut = false := by decide

def retained : State := { upped with pwr := { up := true, domRet := [3] } }

theorem test_retention_hyps : (natsFrom 1 5).find? (fun i => hasNat retained.pwr.domRet (checkedCore (retained.pwr.coreRot + i))) = some 1 := by decide
theorem test_retention : (after (.retentionCheck true) retained).pwr.coreRot = 1 ∧ (after (.retentionCheck false) retained).tk.hbOut = false ∧
    (after .supervisorTrim upEf).pwr.oscTrims = 1 := by decide

def goodPolicy : List Byte := [1, 2, 25, 3, 50, 6, 6, 0]

theorem test_policy_hyps : policyCheck .kv9624a ((natsFrom 0 8).map (byteAt goodPolicy)) = none ∧
    policyCheck .kv9624a ((natsFrom 0 8).map (byteAt [3])) = some stInvalidParam := by decide
theorem test_policy : (after (.pwrPolicy .service) { mbox 0x0805 goodPolicy with pwr := { up := true } }).reg Reg.pwrPolicy0 = 0x03190201 ∧
    status (.pwrPolicy .service) (mbox 0x0805 [3]) .service = some stInvalidParam := by decide
theorem test_pwr_query : status (.pwrQuery .service) (mbox 0x0806 []) .service = some stOk := by decide

/-! ## Propagation, firmware, PLDM (R283, R408, R430 to R435, R621) -/

theorem test_propagation_hyps : paired.paired = true ∧ State.reset.paired = false ∧ paired.planPeer 0x0999 [] = .error stInvalidOpcode ∧
    ∃ u r, paired.planPeer 0x050A [1, 0] = .ok (u, r) := ⟨rfl, rfl, rfl, _, _, rfl⟩
theorem test_mgmt_foreign : (after (.mgmtFrameReceive 9 1 []) State.reset).reg Reg.mbxReject = 1 := by decide

/-- A change of subsystem 1 that waits for the peer. -/
def propagating (op : Nat) : State :=
  { paired with
    mbx := { (mbox op []).mbx with cmds := [{ mbCmd .service op [] with running := true }] }
    props := [⟨.service, op, [], 1, [], [], 0, [], []⟩] }
def mgmtReply (st : Nat) : List Byte := leBytes 2 st ++ leBytes 2 0x0503

theorem test_reply_hyps : (propagating 0x0503).Inv ∧ (propagating 0x0503).props.find? (fun r => r.opcode = leAt (mgmtReply 0) 2 2) =
    some ⟨.service, 0x0503, [], 1, [], [], 0, [], []⟩ ∧ ((propagating 0x0503).cmdOf .service).isSome = true ∧ leAt (mgmtReply stOk) 0 2 = stOk ∧
    leAt (mgmtReply stLimit) 0 2 ≠ stOk ∧ (0x0503 : Nat) / 256 = 5 ∧ (∀ r ∈ paired.props, r.opcode ≠ 0x0503) :=
  ⟨inv_of_formOk rfl, by decide⟩
theorem test_reply : status (.mgmtFrameReceive 6 2 (mgmtReply stOk)) (propagating 0x0503) .service = some stOk ∧
    (after (.mgmtFrameReceive 6 2 (mgmtReply stLimit)) (propagating 0x0503)).vsm.subs = [] := by decide
theorem test_download : (after (.fwDownload .service) (mbox 0x0701 [0, 0, 0, 0, 7, 8])).mbx.stagedTop = 2 ∧
    status (.fwDownload .service) (mbox 0x0701 [0xFF, 0xFF, 0xFF, 0xFF, 7]) .service = some stInvalidParam := by decide

/-- An image whose header stands. -/
def imageHead : List Byte := [0x57, 0x46, 0x56, 0x4B, 1, 0, 0xFF, 0xFF, 3, 0, 0, 0, 0, 0, 0, 0, 0, 0, 0, 0, 1, 0, 0, 0]
def staging (op : Nat) (l : List Byte) (x : MbxSt → MbxSt) : State :=
  { mbox op l with mbx := x { (mbox op l).mbx with stage := cellWrites [] 0 imageHead, stagedTop := 24 } }

/-- The last check of R432 is a signature, a free value: where it holds, no check fails. -/
theorem test_commit_checks (h : Config.firmwareGood ((staging 0x0702 [1, 0] id).mbx.stage.filter (fun c => c.1 < 513)) = true) :
    firstFail ((staging 0x0702 [1, 0] id).commitChecks 1) = none := by
  have e : (staging 0x0702 [1, 0] id).headerOk = true := by decide
  have f : 512 + (staging 0x0702 [1, 0] id).staged 0x14 4 = 513 := by decide
  have g : decide ((staging 0x0702 [1, 0] id).staged 0x10 4 < (staging 0x0702 [1, 0] id).mbx.minSvn) = false := by decide
  simp only [State.commitChecks, e, f, h, g, firstFail]
  decide
theorem test_commit_refused : firstFail ((mbox 0x0702 [1, 0]).commitChecks 1) = some stInvalidParam ∧
    status (.fwCommit .service) (mbox 0x0702 [1, 0]) .service = some stInvalidParam ∧
    status (.fwCommit .service) (staging 0x0702 [1, 0] (fun x => { x with commitSlot := some (1, false) })) .service = some stBusy := by decide

/-- A commit of slot 1 whose image is being written. -/
def committing : State := staging 0x0702 [1, 1] (fun x => { x with commitSlot := some (1, true), cmds := [{ mbCmd .service 0x0702 [1, 1] with running := true }] })

theorem test_commit_done : (after .fwCommitDone committing).mbx.slot1 = ⟨true, 3, 0⟩ ∧ status .fwCommitDone committing .service = some stOk ∧ committing.Inv :=
  ⟨by decide, by decide, inv_of_formOk rfl⟩

def activatable (op : Nat) (l : List Byte) (x : MbxSt → MbxSt) : State :=
  { mbox op l with mbx := x { (mbox op l).mbx with slot1 := ⟨true, 3, 0⟩ } }

theorem test_activate_hyps : firstFail ((activatable 0x0703 [1] id).activateChecks 1) = none ∧
    firstFail ((mbox 0x0703 [1]).activateChecks 1) = some stInvalidParam ∧ (activatable 0x0703 [1] id).Inv := ⟨by decide, by decide, inv_of_formOk rfl⟩
theorem test_activate : (after (.fwActivate .service) (activatable 0x0703 [1] id)).mbx.activating = some (1, ms 500) ∧
    status (.fwActivate .service) (mbox 0x0703 [1]) .service = some stInvalidParam := by decide

def activating1 : State := activatable 0x0703 [1] (fun x => { x with activating := some (1, 5), cmds := [{ mbCmd .service 0x0703 [1] with running := true }] })

theorem test_activated : (after .activationComplete activating1).mbx.runSlot = 1 ∧ status .activationComplete activating1 .service = some stOk := by decide
theorem test_fw_status : status (.fwStatus .service) (mbox 0x0704 []) .service = some stOk := by decide

def pldm (n : Nat) : State := activatable 0 [] (fun x => { x with owner := some .bmc, pldm := n, cmds := [] })

theorem test_pldm_request : (after .pldmRequestUpdate (pldm 0)).mbx.pldm = 1 ∧ sent .pldmRequestUpdate (mbox 0 []) = some (.reply .bmc 0x10 4 0 []) := by decide
theorem test_pldm_transfer : (after (.pldmComponentTransfer 0 [7]) (pldm 1)).mbx.stagedTop = 1 ∧ (after (.pldmComponentTransfer 0 [7]) (pldm 0)).mbx.stagedTop = 0 := by decide
theorem test_pldm_apply : sent .pldmVerifyApply (pldm 1) = some (.reply .bmc 0x17 stInvalidParam 0 []) ∧ firstFail ((pldm 1).commitChecks 1) = some stInvalidParam := by decide
theorem test_pldm_activate : (after .pldmActivateFirmware (pldm 3)).mbx.activating = some (1, ms 500) ∧ (pldm 3).mbx.cmds = [] ∧
    firstFail ((pldm 3).activateChecks (1 - (pldm 3).mbx.runSlot)) = none ∧
    sent .pldmActivateFirmware { pldm 3 with mbx := { (pldm 3).mbx with slot1 := ⟨false, 0, 0⟩ } } = some (.reply .bmc 0x1A stInvalidParam 0 []) := by decide
theorem test_sensor : sent (.pldmGetSensorReading 6) State.reset = some (.reply .bmc 0x11 0x80 0 []) ∧
    sent (.pldmGetSensorReading 4) (powered { mode := .standby }) = some (.reply .bmc 0x11 0 0 ([2, 2, 0, 0, 0, 0] ++ zeroBytes 2)) := by decide

/-! ## Register windows and counters (R12, R396, R429, R436, R443 to R445, R557 to R565) -/

def modBytes (a w k : Nat) : List Byte := leBytes 4 a ++ leBytes 4 k ++ leBytes 4 w

theorem test_modify_hyps : badRange 0x40002 1 = true ∧ badRange Reg.rfxTkcfg 1 = false ∧
    ({ mbox 0x0203 (modBytes Reg.rfxTkcfg 0 1) with pwr := { up := true } } : State).writeRefused .service Reg.rfxTkcfg 0 = false ∧
    (mbox 0x0203 (modBytes Reg.rfxTkcfg 0 1)).writeRefused .service Reg.rfxTkcfg 0 = true := by decide
theorem test_modify : (after (.regModify .service) { mbox 0x0203 (modBytes Reg.rfxRprio 5 0xFF) with pwr := { up := true } }).reg Reg.rfxRprio = 5 ∧
    status (.regModify .service) (mbox 0x0203 (modBytes 0x40002 0 1)) .service = some stInvalidParam ∧
    status (.regModify .service) (mbox 0x0203 (modBytes Reg.rfxTkcfg 0 1)) .service = some stConflict := by decide

/-- The function serves BAR0 at 0x1000000 and BAR2 at 0x2000000. -/
def barred : State := { mbox 0 [] with pwr := { up := true }, sep := { perst := false, linkUp := true, mse := true, bar0 := 0x1000000, bar2 := 0x2000000 } }

theorem test_bar_hyps : barred.barServes = true ∧ barred.barHit 0x1000004 = some (false, 4) ∧ barred.barHit 0x2000004 = some (true, 4) ∧
    barred.barHit 0 = none ∧ barSize 4 1 = true ∧ barSize 4 17 = false ∧ barred.readRefused .service 4 = false ∧ inReplyWin 0x104000 = true ∧
    inReplyWin 4 = false ∧ inCmdWin 4 = false ∧ inCmdWin 0x102000 = true ∧ barred.servesBlock 0x102000 = true ∧ barred.readRefused .service 0x104000 = false := by decide
theorem test_bar_read : sent (.bar0Read 0 [0xF]) barred = some (.sepCpl 1 []) ∧ sent (.bar0Read 0x1000002 [0xF]) barred = some (.sepCpl 4 []) ∧
    sent (.bar0Read 0x1000000 [0xF]) barred = some (.sepCpl 0 (leBytes 4 (barred.regWord 0).toNat)) := by decide
theorem test_bar_write : (after (.bar0Write 0x1102000 [(0x07, 0xF)]) barred).mbx.cmdWin = [⟨0, 7⟩] ∧
    (after (.bar0Write (0x1000000 + Reg.rfxRprio) [(5, 0xF)]) barred).reg Reg.rfxRprio = 5 ∧
    (after (.bar0Write (0x1000000 + Reg.rfxRprio) [(5, 3)]) barred).reg Reg.sepNarrow = 1 ∧
    (after (.bar0Write (0x1000000 + Reg.rfxRprio) [(5, 0xF)]) { barred with mbx := { barred.mbx with owner := none } }).reg Reg.mbxReject = 1 := by decide
theorem test_lo_read : pmuBank (Reg.pmuCfg + 0xC0) = some (0, 0xC0) ∧ pmuBank 0 = none ∧ pmuIsLo 0xC0 = true ∧
    ((after (.pmuLoRead (Reg.pmuCfg + 0xC0)) State.reset).pmuSet 0).hold = some (0xC0, 0) := by decide

def cntBytes (v op n w : Nat) : List Byte := [BitVec.ofNat 8 v, BitVec.ofNat 8 op, BitVec.ofNat 8 n, 0] ++ leBytes 4 w ++ zeroBytes 8

theorem test_config_hyps : hasNat pmuEvents (fieldOf (0x80000010 : Word) 7 0) = true ∧ hasNat pmuEvents (fieldOf (0xFF : Word) 7 0) = false ∧
    (1 : Nat) ≠ Master.service.num ∧ byteAt (cntBytes 0 1 0 0) 0 = Master.service.num := by decide
theorem test_config : status (.cntConfig .service) (mbox 0x0901 (cntBytes 0 1 0 0x80000010)) .service = some stOk ∧
    (after (.cntConfig .service) (mbox 0x0901 (cntBytes 0 1 0 0x80000010))).reg (pmuReg Reg.pmuCtl 0 0) = 0x80000010 ∧
    status (.cntConfig .service) (mbox 0x0901 (cntBytes 0 1 0 0xFF)) .service = some stInvalidParam ∧
    status (.cntConfig .service) (mbox 0x0901 (cntBytes 0 0 0 0)) .service = some stInvalidParam ∧
    status (.cntConfig .service) (foreign 0x0901 (cntBytes 1 2 0 0)) .service = some stNotOwner := by decide
theorem test_config_clear : status (.cntConfig .service) (mbox 0x0901 (cntBytes 0 2 0 1)) .service = some stOk ∧
    status (.cntConfig .service) (mbox 0x0901 (cntBytes 0 3 0 1)) .service = some stOk := by decide
def cntRead0 (v k a n : Nat) : List Byte := [BitVec.ofNat 8 v, BitVec.ofNat 8 k, 0, 0] ++ leBytes 4 a ++ leBytes 4 n
theorem test_cnt_read : status (.cntRead .service) (mbox 0x0902 (cntRead0 0 1 0 0)) .service = some stOk ∧
    status (.cntRead .service) (mbox 0x0902 (cntRead0 0 2 0 1)) .service = some stOk ∧ status (.cntRead .service) (mbox 0x0902 (cntRead0 0 3 0 1)) .service = some stOk ∧
    status (.cntRead .service) (mbox 0x0902 (cntRead0 0 0 0 0)) .service = some stInvalidParam := by decide
theorem test_snapshot : status (.cntSnapshot .service) (mbox 0x0903 [0]) .service = some stOk ∧ status (.cntSnapshot .service) (mbox 0x0903 [4]) .service = some stInvalidParam := by decide

/-- Counts of VSID 1 since the last sweep, and its record. -/
def counted : State := { State.reset with pmu := { narrow := [⟨1, 0, 2, 0, 0, 0, 0, 0, 0, 0⟩], recs := [⟨1, 0, 3, 0, 0, 0, 0, 0, 0, 0⟩] } }

theorem test_sweep_hyps2 : counted.pmu.narrow = [⟨1, 0, 2, 0, 0, 0, 0, 0, 0, 0⟩] ∧
    counted.pmu.recs.find? (fun r => r.vsid = 1) = some ⟨1, 0, 3, 0, 0, 0, 0, 0, 0, 0⟩ := by decide
theorem test_sweep : (after (.boxOfficeSweep false) counted).pmu.recs.map (fun r => r.rdCmd) = [5] ∧ (after (.boxOfficeSweep false) counted).pmu.narrow = [] := by decide

/-! ## The service endpoint (R437 to R459) -/

def sepIs (p : SepSt) : State := { mbox 0 [] with sep := p }
def linked1 : SepSt := { perst := false, linkUp := true, speed := 3, width := 4, bme := true, mse := true }
def fetching0 : SepSt := { linked1 with fetch := some ⟨8, 0, []⟩, reads := [⟨7, 0, 4, 0, false⟩] }

theorem test_sep_link : (after (.sepLinkUp 4 8) (sepIs { linked1 with linkUp := false })).sep.speed = 4 ∧ (after (.sepLinkUp 4 8) (sepIs {})).sep.linkUp = false ∧
    (sepIs {}).cfgBit Reg.sepCfg 0 = true ∧ (after .sepPerstDeassert (sepIs {})).sep.perst = false ∧ (after .sepPerstAssert (sepIs linked1)).sep.flr = true ∧
    (after .hotReset (sepIs linked1)).sep.linkUp = false ∧ (after .functionLevelReset (sepIs linked1)).sep.flr = true := by decide
theorem test_sep_link_down : (sepIs fetching0).cmdOf .service = some (mbCmd .service 0 []) ∧ (sepIs fetching0).sep.fetch.isSome = true ∧
    status .sepLinkDown (sepIs fetching0) .service = some stInvalidParam := by decide
theorem test_flr_complete : (sepIs { linked1 with flr := true }).npOut = 0 ∧ (after .flrComplete (sepIs { linked1 with flr := true, cause := 1 })).sep.cause = 0 ∧
    (after .flrComplete (sepIs { linked1 with flr := true })).sep.bme = false ∧ (sepIs { linked1 with flr := true, reads := fetching0.reads }).npOut ≠ 0 := by decide
theorem test_config_write_hyps : ∃ m : Word → Word, ∀ old, m old = mergeBytes old 5 0xF := ⟨_, fun _ => rfl⟩
theorem test_config_write : (after (.configWrite 0x04 0x6 0xF) (sepIs linked1)).sep.mse = true ∧ (after (.configWrite 0x10 0x1234567 0xF) (sepIs linked1)).sep.bar0 = 0x1200000 ∧
    (after (.configWrite 0x44 3 0xF) (sepIs linked1)).sep.d3hot = true ∧ (after (.configWrite 0x58 0x8000 0xF) (sepIs linked1)).sep.flr = true ∧
    (after (.configWrite 0x228 0x80000000 0xF) (sepIs { linked1 with cause := 1 })).sep.relPend = some (ms 50) ∧
    fieldOf (mergeBytes 0 3 0xF) 1 0 = 3 ∧ fieldOf (mergeBytes 0 0 0xF) 1 0 = 0 := by decide
theorem test_config_ignored : (0x200 : Nat) ∉ [0x04, 0x10, 0x14, 0x18, 0x1C, 0x44, 0x58, 0x78, 0xB0, 0x104, 0x108, 0x10C, 0x110, 0x114, 0x228] := by decide
theorem test_dma_hyps : (∀ r ∈ fetching0.reads, r.tag ≠ 9) ∧ fetching0.reads.find? (fun r => r.tag = 7) = some ⟨7, 0, 4, 0, false⟩ ∧
    (sepIs fetching0).dmaAlive = true ∧ ([7] : List Byte).length < 4 ∧ (∀ x ∈ fetching0.reads, x.tag = 7 ∨ x.quarantined = true) ∧
    (sepIs { linked1 with reads := [⟨7, 0, 4, 0, true⟩] }).sep.fetch = none := by decide
theorem test_dma_stray : (after (.dmaCompletion 9 0 .success []) (sepIs fetching0)).sep.uncStat = 0x10000 := by decide
theorem test_dma_late : (after (.dmaCompletion 7 0 .success []) (sepIs { linked1 with reads := [⟨7, 0, 4, 0, true⟩] })).reg Reg.sepLateCpl = 1 := by decide
theorem test_dma_part : (after (.dmaCompletion 7 0 .success [1]) (sepIs fetching0)).sep.reads = [⟨7, 0, 3, 0, false⟩] ∧
    (after (.dmaCompletion 7 0 .success [1, 2, 3, 4]) (sepIs fetching0)).sep.fetch = none := by decide
theorem test_dma_bad : status (.dmaCompletion 7 0 .poisoned []) (sepIs fetching0) .service = some stInvalidParam ∧
    (after (.dmaCompletion 7 0 .poisoned []) (sepIs fetching0)).sep.uncStat = 0x1000 := by decide
theorem test_sep_timeout : ({ sepIs fetching0 with now := us 47500 } : State).sep.reads.find? (fun r => r.tag = 7 && !r.quarantined) = some ⟨7, 0, 4, 0, false⟩ ∧
    (after (.completionTimeout 7) { sepIs fetching0 with now := us 47500 }).sep.reads = [⟨7, 0, 4, 0, true⟩] := by decide
theorem test_sep_quarantine : (after (.quarantineExpiry 7) { sepIs { linked1 with reads := [⟨7, 0, 4, 0, true⟩] } with now := ms 100 }).sep.reads = [] ∧
    linked1.reads.find? (fun r => r.tag = 7 && !r.quarantined) = none := by decide
theorem test_sep_release : (after .containmentRelease (sepIs { linked1 with cause := 1 })).sep.relPend = some (ms 50) ∧
    (sepIs { linked1 with cause := 1, relPend := some 5 }).npOut = 0 ∧ (sepIs { linked1 with cause := 1, relPend := some 5 }).Inv ∧
    (after .containmentReleaseEffect (sepIs { linked1 with cause := 1, relPend := some 5 })).sep.cause = 0 :=
  ⟨by decide, by decide, inv_of_formOk rfl, by decide⟩
theorem test_doe : sent (.doeRequest (.discovery 0)) State.reset = some (.doe [1, 0, 0, 0, 3, 0, 0, 0, 1, 0, 0, 1]) ∧
    sent (.doeRequest (.discovery 2)) State.reset = some (.doe [1, 0, 0, 0, 3, 0, 0, 0, 0xFF, 0xFF, 0, 0]) ∧
    sent (.doeRequest (.discovery 0)) { State.reset with part := .kv9624c } = some (.doe [1, 0, 0, 0, 3, 0, 0, 0, 1, 0, 0, 0]) ∧
    (after .doeAbort (sepIs { doe := some [1] })).sep.doe = none := by decide

/-! ## Drive ports and member commands (R181 to R186, R462 to R470) -/

/-- Port 0 of the eight bays changed. -/
def port0 (p : DrivePort) : State := { ringed named ring0 with bay := { drives with ports := [p] ++ drives.ports.drop 1 } }
def l0 : DrivePort := { train := .l0, perst := false }

theorem test_contain_hyps : (port0 l0).Inv ∧ ((port0 l0).portOf 0).contained = false ∧ ((port0 { l0 with contained := true }).portOf 0).contained = true ∧
    ((port0 l0).portOf 0).train = .l0 ∧ ((port0 l0).bayOf 0).seated = true ∧ ((port0 {}).portOf 0).train ≠ .l0 :=
  ⟨inv_of_formOk rfl, by decide⟩
theorem test_contain : ((after (.surpriseLinkDown 0) (port0 l0)).portOf 0).cause = 1 ∧ ((after (.drivePortFatalError 0) (port0 l0)).portOf 0).cause = 3 ∧
    (after (.drivePortFatalError 0) (port0 l0)).reg Reg.dpxContain = 1 := by decide
theorem test_hold_end : ((after (.containmentHoldExpiry 0) (port0 { contained := true, cause := 1, holdEnd := some 0, perst := false })).portOf 0).contained = false ∧
    ((after (.containmentHoldExpiry 0) (port0 { contained := true, cause := 1, holdEnd := some 0, perst := false })).portOf 0).train = .training ∧
    ((after (.containmentHoldExpiry 0) (port0 { contained := true, stuck := true, holdEnd := none })).portOf 0).contained = true := by decide
theorem test_dpcrel : ((after (.dpcrelWrite 1) (port0 { contained := true, stuck := true })).portOf 0).contained = false ∧
    (1 : Word).getLsbD 0 = true := by decide

def training0 (n : Nat) : DrivePort := { train := .training, attempts := n, trainEnd := some 0, perst := false }

theorem test_link_hyps : ((port0 (training0 1)).portOf 0).train = .training ∧ (port0 (training0 1)).tk.fenced = false ∧ (port0 (training0 1)).lcu.dpRun ≠ some 0 ∧
    ({ port0 (training0 1) with lcu := { dpRun := some 0 } } : State).lcu.dpRun = some 0 := by decide
theorem test_link : ((after (.driveLinkL0 0 4 2) (port0 (training0 1))).portOf 0).train = .l0 ∧
    (after (.driveLinkL0 0 4 2) { port0 (training0 1) with lcu := { dpRun := some 0 } }).lcu.dpRun = none ∧
    ((after (.linkTrainingTimeout 0) (port0 (training0 1))).portOf 0).attempts = 2 ∧ ((after (.linkTrainingTimeout 0) (port0 (training0 3))).portOf 0).train = .failed := by decide

def reading (b q : Bool) (now : Nat) : State := { port0 { l0 with reads := [⟨5, 0, b, q⟩] } with now := now }

theorem test_dpx_hyps : ((reading false false 0).portOf 0).reads.find? (fun r => r.tag = 5 && !r.quarantined) = some ⟨5, 0, false, false⟩ ∧
    (reading false false 0).now < 0 + ms ((reading false false 0).cfg Reg.dpxCfg 15 8) ∧
    0 + ms ((reading true false (sec 1)).cfg Reg.dpxCfg 15 8) ≤ sec 1 := by decide
theorem test_dpx_timeout : ((after (.dpxCompletionTimeout 0 5) (reading false false (sec 1))).portOf 0).reads.map (fun r => (r.second, r.quarantined)) =
    [(false, true), (true, false)] ∧ ((after (.dpxCompletionTimeout 0 5) (reading true false (sec 1))).portOf 0).cause = 4 ∧
    ((after (.dpxQuarantineExpiry 0 5) (reading false true (sec 2))).portOf 0).reads = [] := by decide

def mcmd (op : MOp) (p : MPurpose) (n : Nat) : MemberCmd := { id := 3, bay := 0, ring := 0, slot := 0, op := op, lba := 0, rows := [0], data := [], metas := [], fua := false, purpose := p, tries := n, issuedAt := 0, deadline := some 0, abortEnd := some 0, hedged := false }
/-- A ring with one member command. -/
def commanded (c : MemberCmd) : State := { ringed named ring0 with bay := { drives with cmds := [c], nextCmd := 4 } }

theorem test_completion_hyps : (commanded (mcmd .write .upkeep 0)).findCmd 3 = some (mcmd .write .upkeep 0) ∧ (commanded (mcmd .write .upkeep 0)).findCmd 9 = none ∧
    (∀ p < 24, ∀ r ∈ ((commanded (mcmd .write .upkeep 0)).portOf p).reads, r.tag = 9 → r.quarantined = false) ∧
    ((reading false true 0).findCmd 5) = none ∧ (commanded (mcmd .write .upkeep 0)).takesWrites (mcmd .write .upkeep 0) = true := by decide
theorem test_completion_late : (after (.memberCommandCompletion 5 .success []) (reading false true 0)).reg Reg.dpxLateCpl = 1 := by decide
theorem test_takes_writes : (commanded (mcmd .write (.stripe 0 0 0 1) 0)).takesWrites (mcmd .write (.stripe 0 0 0 1) 0) = true ∧
    ({ commanded (mcmd .write (.stripe 0 2 0 1) 0) with rge := { rings := [{ ring0 with slots := [{ mslot 0 with st := .failed }] ++ (natsFrom 1 7).map mslot }] } } : State).takesWrites
      (mcmd .write (.stripe 0 2 0 1) 0) = false := by decide
theorem test_completion : (after (.memberCommandCompletion 3 .success []) (commanded (mcmd .write .upkeep 0))).bay.cmds = [] ∧
    (after (.memberCommandCompletion 3 (.error false) []) (commanded (mcmd .write .upkeep 0))).bay.cmds.map (fun c => (c.id, c.tries)) = [(4, 1)] ∧
    (after (.memberCommandCompletion 3 (.error false) []) (commanded (mcmd .write .upkeep 0))).reg Reg.dpxIoretry = 1 := by decide
theorem test_write_failed : ((after (.memberCommandCompletion 3 (.error true) []) (commanded (mcmd .write (.stripe 0 0 0 1) 0))).findRing 0).map
    (fun r => (r.slotAt 0).st) = some .failed := by decide
theorem test_timeouts : (after (.memberCommandTimeout 3) (commanded (mcmd .write .upkeep 0))).bay.cmds.map (fun c => c.purpose) = [.upkeep, .upkeep] ∧
    ((after (.memberAbortTimeout 3) (commanded (mcmd .write .upkeep 0))).portOf 0).cause = 4 ∧
    due ({ mcmd .write .upkeep 0 with deadline := some 1 } : MemberCmd).deadline 0 = false := by decide

def hedging (now : Nat) : State := { (commanded (mcmd .read (.gather 0 0 0 0) 0)).putReg Reg.dpxIocfg 5 with now := now }

theorem test_hedge_hyps : (hedging (ms 5)).findRing 0 = some ring0 ∧ 0 < (hedging (ms 5)).cfg Reg.dpxIocfg 7 0 ∧ 0 + ms ((hedging (ms 5)).cfg Reg.dpxIocfg 7 0) ≤ ms 5 ∧
    ring0.levelOf 0 < ring0.m ∧ (hedging 0).now < 0 + ms ((hedging 0).cfg Reg.dpxIocfg 7 0) := by decide
theorem test_hedge : (after (.hedgeExpiry 3) (hedging (ms 5))).reg Reg.dpxHedged = 1 ∧ (after (.hedgeExpiry 3) (hedging 0)).reg Reg.dpxHedged = 0 := by decide

/-! ## Bays and bay commands (R470 to R488) -/

/-- Bay 0 changed, on the holder. -/
def bayIs (b : Bay) (h : Bool) : State := { State.reset with bay := { bays := [b] ++ List.replicate 23 {}, holder := h } }
def bayCmd (op : Nat) (l : List Byte) (b : Bay) (h : Bool) : State := { mbox op l with bay := (bayIs b h).bay }
def stIs (st : BaySt) : Bay := { st := st, seated := true, present := true, debounceEnd := some 0, rampEnd := some 0, perstAt := some 0, retryAt := some 0, retryLeft := 2, cycleAt := some 0 }

theorem test_bay_inv : (bayIs (stIs .ready) true).Inv ∧ (bayCmd 0x0801 [0, 1] (stIs .off) true).Inv ∧ 0 < Config.bays .kv9624a ∧ Config.bays .kv9616b ≤ 23 ∧
    (bayCmd 0x0801 [0, 1] (stIs .off) true).Starts .service 0x0801 (mbCmd .service 0x0801 [0, 1]) :=
  ⟨inv_of_formOk rfl, inv_of_formOk rfl, by decide, by decide, rfl, by decide⟩
theorem test_presence : ((after (.presenceAssert 0) (bayIs {} true)).bayOf 0).st = .debounce ∧ ((after (.presenceLoss 0) (bayIs { seated := true } true)).bayOf 0).seated = false ∧
    ((after (.presenceLoss 0) (bayIs { st := .debounce, seated := true } true)).bayOf 0).st = .empty ∧
    ((after (.presenceLoss 0) (bayIs (stIs .ready) true)).bayOf 0).st = .empty := by decide
theorem test_debounce : ((after (.debounceComplete 0) (bayIs { stIs .debounce with present := false } true)).bayOf 0).st = .wait ∧
    ((after (.debounceComplete 0) (bayIs { stIs .debounce with debounceEnd := some 1 } true)).bayOf 0).st = .debounce := by decide
theorem test_ramp_hyps : (bayIs (stIs .wait) true).ramping < (bayIs (stIs .wait) true).cfg Reg.bayCfg 23 20 ∧
    (bayIs (stIs .wait) true).cfgBit (Reg.bayBcfg + 0x10 * 0) 10 = true ∧
    ((bayIs (stIs .wait) true).putReg Reg.bayBcfg 0).cfgBit (Reg.bayBcfg + 0x10 * 0) 10 = false := by decide
theorem test_ramp : ((after (.rampStart 0) (bayIs (stIs .wait) true)).bayOf 0).st = .ramping ∧
    ((after (.rampStart 0) ((bayIs (stIs .wait) true).putReg Reg.bayBcfg 0)).bayOf 0).st = .off ∧
    ((after (.rampStart 0) (bayIs (stIs .wait) false)).bayOf 0).st = .wait := by decide
theorem test_power_good : ((after (.powerGood 0) (bayIs (stIs .ramping) true)).bayOf 0).st = .powered ∧
    ((after (.powerGood 0) (bayIs (stIs .wait) false)).bayOf 0).st = .powered ∧ ((after (.powerGood 0) (bayIs (stIs .wait) true)).bayOf 0).st = .wait := by decide
theorem test_perst_delay : ((after (.perstDelayExpiry 0) (bayIs (stIs .powered) true)).portOf 0).train = .training ∧
    ((after (.perstDelayExpiry 0) (bayIs (stIs .wait) true)).portOf 0).perst = true := by decide
theorem test_bay_ready : ((after (.bayReady 0) { bayIs { stIs .powered with drive := some (drive0 0) } true with bay := { (bayIs { stIs .powered with drive := some (drive0 0) } true).bay with ports := [l0] ++ List.replicate 23 {} } }).bayOf 0).st =
    .ready ∧ ((after (.bayReady 0) (bayIs (stIs .powered) true)).bayOf 0).st = .powered := by decide
theorem test_bay_faults_hyps : (stIs .ramping).live = true ∧ (stIs .empty).live = false ∧ ((bayIs (stIs .ramping) true).portOf 0).train ≠ .l0 ∧
    ((bayIs (stIs .ramping) true).cfgBit (Reg.bayBcfg + 0x10 * 0) 11 && (stIs .ramping).retryLeft != 0) = true := by decide
theorem test_bay_faults : ((after (.pgtimeout 0) (bayIs (stIs .ramping) true)).bayOf 0).fault = 3 ∧ ((after (.overcurrent 0) (bayIs (stIs .ready) true)).bayOf 0).fault = 1 ∧
    ((after (.fasttrip 0) (bayIs (stIs .ready) true)).bayOf 0).fault = 2 ∧ ((after (.undervolt 0) (bayIs (stIs .ready) true)).bayOf 0).fault = 4 ∧
    ((after (.undervolt 0) (bayIs (stIs .ready) false)).bayOf 0).st = .wait ∧ ((after (.overcurrent 0) (bayIs { stIs .ready with retryLeft := 0 } true)).bayOf 0).st = .fault := by decide
theorem test_retry : ((after (.retryExpiry 0) (bayIs (stIs .retryWait) true)).bayOf 0).retryLeft = 1 ∧
    ((after (.retryExpiry 0) (bayIs { stIs .retryWait with retryAt := some 1 } true)).bayOf 0).retryLeft = 2 := by decide
theorem test_input_fault : ((after .bayInputFault (bayIs (stIs .ready) true)).bayOf 0).st = .inhibit ∧ (after .bayInputFault (bayIs (stIs .ready) false)).bay.inputFault = true ∧
    ((after .bayInputRestored (bayIs (stIs .inhibit) true)).bayOf 0).st = .wait := by decide +kernel
theorem test_holder : ((after .bholdARise { bayIs (stIs .ready) false with slot := .b }).bay.holder) = true ∧ (after .holderRegain { bayIs (stIs .ready) false with slot := .a }).bay.holder = true ∧
    (after .bholdAFall { bayIs (stIs .ready) true with slot := .b }).bay.holder = false ∧ (after .bholdARise (bayIs (stIs .ready) true)).bay.bholdHigh = true := by decide +kernel
theorem test_bay_power_hyps : (bayCmd 0 [] (stIs .off) true).inUse 0 = false ∧ (ringed (mbox 0x0801 [0, 0]) ring0).inUse 0 = true ∧
    (stIs .ready).st ∉ [BaySt.off, .empty, .fault] ∧ Config.bays .kv9616b ≤ 20 := by decide
theorem test_bay_power : ((after (.bayPower .service) (bayCmd 0x0801 [0, 1] (stIs .off) true)).bayOf 0).st = .wait ∧
    ((after (.bayPower .service) (bayCmd 0x0801 [0, 2] (stIs .ready) true)).bayOf 0).cycleAt = some (sec 1) ∧
    status (.bayPower .service) (bayCmd 0x0801 [24, 1] (stIs .off) true) .service = some stInvalidParam ∧
    status (.bayPower .service) (bayCmd 0x0801 [0, 1] (stIs .off) false) .service = some stNotOwner ∧
    status (.bayPower .service) (bayCmd 0x0801 [0, 1] (stIs .fault) true) .service = some stConflict ∧
    status (.bayPower .service) (bayCmd 0x0801 [0, 0] (stIs .fault) true) .service = some stOk ∧
    status (.bayPower .service) { bayCmd 0x0801 [20, 1] {} true with part := .kv9616b } .service = some stAbsent := by decide
theorem test_bay_in_use : status (.bayPower .service) (ringed (mbox 0x0801 [0, 0]) ring0) .service = some stConflict := by decide
theorem test_power_cycle : ((after (.powerCycleDelay 0) (bayIs (stIs .off) true)).bayOf 0).st = .wait ∧
    ((after (.powerCycleDelay 0) (bayIs { stIs .off with cycleAt := some 1 } true)).bayOf 0).st = .off := by decide
theorem test_led : ((after (.bayLed .service) (bayCmd 0x0802 [0, 2] (stIs .ready) true)).bayOf 0).led = 2 ∧
    status (.bayLed .service) (bayCmd 0x0802 [0, 5] (stIs .ready) true) .service = some stInvalidParam ∧
    status (.bayLed .service) (bayCmd 0x0802 [0, 2] (stIs .ready) false) .service = some stNotOwner := by decide
theorem test_bay_clear : ((after (.bayClear .service) (bayCmd 0x0803 [0] (stIs .fault) true)).bayOf 0).st = .wait ∧
    status (.bayClear .service) (bayCmd 0x0803 [0] (stIs .ready) true) .service = some stConflict ∧
    status (.bayClear .service) (bayCmd 0x0803 [0] (stIs .fault) false) .service = some stNotOwner := by decide
theorem test_bay_query : status (.bayQuery .service) (bayCmd 0x0804 [0] (stIs .ready) true) .service = some stOk ∧
    status (.bayQuery .service) (bayCmd 0x0804 [24] (stIs .ready) true) .service = some stInvalidParam := by decide

/-! ## Live calibration (R528 to R545) -/

/-- A module that is up, with host ports 0 and 1 and fabric port 2 and 3 up. -/
def calib (l : LcuSt) : State := { State.reset with pwr := { up := true, railsUp := [.bpc] }, mac := { hostUp := [0, 1] }, rfx := { ports := [{}, {}, { pcs := true, up := true }, { pcs := true, up := true }] }, lcu := l }
def lane0 (n k : Nat) : LaneSt := ⟨n, 40, 40, k, false, true, some 0⟩
def lowRes : ScanResult := ⟨0, 0, 0⟩
def highRes : ScanResult := ⟨255, 127, 0⟩

theorem test_scan_hyps : lanePort 0 = some 0 ∧ lanePort 24 = none ∧ (calib {}).cfgBit Reg.lcuSdcfg 31 = true ∧ portPresent .kv9624a 0 = true ∧
    (calib {}).linkUp 0 = true ∧ (∀ k ∈ portLanes 0, ((calib {}).laneOf k).scanning = false) ∧ (calib {}).scanDue 0 = true ∧ (calib {}).linkUp 2 = false := by decide
theorem test_scan : ((after (.marginScan 0) (calib {})).laneOf 0).scanning = true ∧ ((after (.marginScan 0) (calib {})).laneOf 1).scanning = false := by decide
theorem test_scan_low : (calib {}).lowScan 0 lowRes = true ∧ (calib {}).lowScan 0 highRes = false ∧
    ((after (.marginScanComplete 0 lowRes) (calib { lanes := [lane0 0 0] })).laneOf 0).below = 1 := by decide
theorem test_retrain_hyps : (calib {}).cfgBit Reg.lcuSdcfg 30 = true ∧ (calib {}).cfg Reg.lcuSdcfg 11 8 ≤ 15 ∧ (calib {}).rtOk 0 = true ∧ (calib {}).rtTarget 0 = some 1 ∧
    (calib {}).rtOk 6 = true ∧ hasNat (Config.midplane .kv9624a) 2 = false ∧ (calib {}).testedPort ≠ some 0 ∧ (calib {}).rtBusy 0 = false ∧
    ({ calib {} with mac := { hostUp := [0] } } : State).rtOk 0 = false ∧ (calib {}).lcu.defer = [] := by decide
theorem test_retrain_starts : (after (.marginScanComplete 0 lowRes) (calib { lanes := [lane0 0 14] })).lcu.retrains.map (fun r => (r.port, r.target, r.phase)) =
    [(0, 1, .relearn)] ∧ (after (.marginScanComplete 20 lowRes) (calib { lanes := [lane0 20 14] })).lcu.retrains.map (fun r => (r.port, r.phase)) = [(6, .routeMove)] ∧
    (after (.marginScanComplete 0 lowRes) { calib { lanes := [lane0 0 14] } with mac := { hostUp := [0] } }).lcu.defer = [0] := by decide

def rt (p : Nat) (ph : RtPhase) (tst : Bool) : Retrain := ⟨p, 1, ph, some 0, tst⟩

theorem test_phases_hyps : (calib { retrains := [rt 0 .relearn false] }).lcu.retrains.find? (fun r => r.phase = .relearn && due r.deadline 0) = some (rt 0 .relearn false) ∧
    (calib { retrains := [rt 0 .draining true] }).lcu.retrains.find? (fun r => r.phase = .draining && ((calib {}).egPort r.port).queue.isEmpty) = some (rt 0 .draining true) ∧
    (calib { retrains := [rt 4 .routeMove false] }).lcu.retrains.find? (fun r => r.phase = .routeMove && due r.deadline 0) = some (rt 4 .routeMove false) ∧
    ((calib {}).fabPort 0).up = false ∧ (calib {}).Inv := ⟨by decide, by decide, by decide, by decide, inv_of_formOk rfl⟩
theorem test_phases : (after .relearnWaitExpiry (calib { retrains := [rt 0 .relearn false] })).lcu.retrains.map (fun r => r.phase) = [.draining] ∧
    (after .egressDrained (calib { retrains := [rt 0 .draining false] })).mac.hostUp = [1] ∧
    (after .routeMoveWait (calib { retrains := [rt 4 .routeMove false] })).lcu.retrains.map (fun r => r.phase) = [.training] ∧
    (after .retrainNoticeTimeout (calib { retrains := [rt 4 .notice false] })).lcu.defer = [4] ∧
    (after .retrainNoticeTimeout { calib { retrains := [rt 4 .notice true] } with tst := { live := some ⟨2, 0, 10, 0, true⟩ } }).tst.live = none := by decide
theorem test_check_hyps : (portLanes 0).length = 4 ∧ (∃ x ∈ [highRes, highRes, highRes, lowRes], (calib {}).lowScan 0 x = true) ∧
    (∀ x ∈ List.replicate 4 highRes, (calib {}).lowScan 0 x = false) := by decide
theorem test_check : (after (.retrainCheck [highRes, highRes, highRes, lowRes]) (calib { retrains := [rt 0 .training false] })).lcu.parked = [(0, sec 600)] ∧
    (after (.retrainCheck (List.replicate 4 highRes)) { calib { retrains := [rt 0 .training false] } with mac := { hostUp := [1] } }).mac.hostUp = [1, 0] ∧
    ((after (.retrainCheck (List.replicate 2 highRes)) (calib { retrains := [rt 4 .training false] })).fabPort 0).pcs = true := by decide
theorem test_parked : (after (.parkedRetry 0) (calib { parked := [(0, 0)] })).lcu.retrains.map (fun r => r.port) = [0] ∧
    (after (.parkedRetry 0) (calib { parked := [(0, 1)] })).lcu.retrains = [] := by decide
theorem test_drive_retrain : (after (.drivePortRetrainEnd 0 true) (calib { dpRun := some 0 })).lcu.dpRun = none ∧
    ((after (.drivePortRetrainEnd 0 false) (calib { dpRun := some 0 })).portOf 0).train = .training ∧ (calib {}).testedPort ≠ some 8 := by decide
theorem test_hbm_hyps : (calib {}).cfgBit Reg.lcuHbmcfg 31 = true ∧ hasNat (calib {}).pwr.shed 0 = false ∧
    (calib {}).now < 0 + sec ((calib {}).cfg Reg.lcuHbmcfg 11 0) ∧ ((40 : Int) - 40).natAbs < (calib {}).cfg Reg.lcuHbmcfg 20 16 ∧
    (calib {}).cfg Reg.lcuHbmcfg 20 16 ≤ ((80 : Int) - 40).natAbs := by decide
theorem test_hbm_pass : (after (.hbmPass 0 40) (calib {})).lcu.hbm.pass = some (0, 0) ∧
    (after (.hbmPass 1 40) (calib { hbm := { pass := some (0, 3) } })).lcu.hbm.waiting = [(1, 40)] ∧
    (after (.hbmPass 0 40) (calib { hbm := { lastPass := [some (0, 40), none, none, none] } })).lcu.hbm.pass = none := by decide
theorem test_hbm_slice : (after .hbmSlice (calib { hbm := { urgent := [5] } })).lcu.hbm.pc = some (5, 1) ∧
    (after .hbmSlice (calib { hbm := { pass := some (1, 3) } })).lcu.hbm.pc = some (35, 1) ∧
    (after .hbmSlice { calib { hbm := { pass := some (1, 3) } } with pwr := { up := true, shed := [1] } }).lcu.hbm.pass = none ∧
    (after .hbmSlice (calib { hbm := { pc := some (5, 3) } })).lcu.hbm.pc = some (5, 4) ∧
    (after .hbmSlice (calib { hbm := { pc := some (5, 39), urgent := [5] } })).lcu.hbm.urgent = [] := by decide
theorem test_ecc_burst : (after (.eccBurst 5) (calib {})).lcu.hbm.urgent = [5] ∧ (after (.eccBurst 128) (calib {})).lcu.hbm.urgent = [] := by decide
theorem test_chop : (after (.chopAverage 24 2000) (calib {})).lcu.offsets.getD 24 none = some 1500 ∧
    (after (.chopAverage 0 100) { calib {} with lcu := { offsets := [some 0] ++ List.replicate 24 none } }).lcu.offsets.getD 0 none = some 10 ∧
    (after (.chopAverage 25 100) (calib {})).lcu.offsets.getD 24 none = none ∧ clampTo 1500 2000 = 1500 ∧ clampTo 1500 100 = 100 := by decide
theorem test_trim : (after (.sensorTrim [5, 100]) (calib {})).lcu.trims.take 2 = [-2, -2] ∧ (after (.sensorTrim [5, 100]) (calib {})).lcu.faulty = [1] ∧
    ([5, 100] : List Int)[7]? = none := by decide

/-! ## Tests, boundary scan, time base (R567 to R595) -/

def testBytes (t u fl p : Nat) : List Byte := [BitVec.ofNat 8 t, BitVec.ofNat 8 u, BitVec.ofNat 8 fl, 0] ++ leBytes 4 p
def testing (l : List Byte) (x : TstSt) : State := { calib {} with mbx := (mbox 0x0A01 l).mbx, tst := x }
def mbxOp (op : Nat) (l : List Byte) (x : TstSt) : State := { testing l x with mbx := (mbox op l).mbx }

theorem test_test_hyps : (testing (testBytes 5 1 0 0) {}).Starts .service 0x0A01 (mbCmd .service 0x0A01 (testBytes 5 1 0 0)) ∧ (testing (testBytes 5 1 0 0) {}).Inv ∧
    testAbsent .kv9624a 5 1 = false ∧ testKnown 5 = true ∧ testKnown 10 = false ∧ (1 : Nat) ≤ testUnits 5 ∧ testAbsent .kv9624c 5 1 = true ∧
    (testing [] {}).testConflict 5 1 = false ∧ (testing [] {}).testConflict 1 0 = false ∧ (testing [] {}).testConflict 2 2 = false ∧
    (testing [] {}).testConflict 0x10 0 = false ∧ (testing [] { plane := [1] }).testConflict 6 0 = true ∧ testOffline 0x10 = true ∧
    (testing [] {}).testConflict 4 0 = false ∧ (testing [] {}).bay.holder = false :=
  ⟨⟨rfl, by decide⟩, inv_of_formOk rfl, by decide⟩
theorem test_test_start : (after (.testStart .service) (testing (testBytes 5 1 0 0) {})).tst.live = some ⟨5, 1, 1000, 0, false⟩ ∧
    (after (.testStart .service) (testing (testBytes 1 0 0 10) {})).tst.live = some ⟨1, 0, 10, 0, true⟩ ∧
    (after (.testStart .service) (testing (testBytes 2 2 0 10) {})).lcu.retrains.map (fun r => (r.port, r.forTest)) = [(6, true)] ∧
    (after (.testStart .service) (testing (testBytes 0x10 0 1 0) {})).pwr.restart = some ⟨1, some (0x10, true), true, false⟩ := by decide
theorem test_test_refused : status (.testStart .service) (testing (testBytes 10 0 0 0) {}) .service = some stInvalidParam ∧
    status (.testStart .service) (testing (testBytes 5 1 0 0) { live := some ⟨5, 2, 10, 0, false⟩ }) .service = some stBusy ∧
    status (.testStart .service) (testing (testBytes 4 0 0 0) {}) .service = some stNotOwner ∧
    status (.testStart .service) (testing (testBytes 6 0 0 0) { plane := [1] }) .service = some stConflict ∧
    status (.testStart .service) { testing (testBytes 5 1 0 0) {} with part := .kv9624c } .service = some stAbsent := by decide
theorem test_drive_test : ({ ringed (mbox 0x0A01 (testBytes 3 0 0 0)) ring0 with pwr := { up := true } } : State).testConflict 3 0 = false ∧
    (after (.testStart .service) { ringed (mbox 0x0A01 (testBytes 3 0 0 0)) ring0 with pwr := { up := true } }).lcu.dpRun = some 0 := by decide
theorem test_bay_test : (after (.testStart .service) { testing (testBytes 4 0 0 0) {} with bay := (bayIs {} true).bay }).tst.live = some ⟨4, 0, 1000, 0, true⟩ := by decide
theorem test_test_stop : (after (.testStop .service) (mbxOp 0x0A02 [] { live := some ⟨5, 2, 10, 0, false⟩ })).tst.live = none ∧
    ((after (.testStop .service) (mbxOp 0x0A02 [] { live := some ⟨5, 2, 10, 0, false⟩ })).testRec 5).status = 4 := by decide
theorem test_test_stop_boot : (after (.testStop .service) (mbxOp 0x0A02 [] { boot := true })).tst.boot = false := by decide +kernel
theorem test_test_result : status (.testResult .service) (mbxOp 0x0A03 [5, 0, 0, 0] {}) .service = some stOk ∧
    status (.testResult .service) (mbxOp 0x0A03 [10, 0, 0, 0] {}) .service = some stInvalidParam := by decide

/-- A live test that runs. -/
def living (t u : Nat) (mv : Bool) : State := { testing [] { live := some ⟨t, u, 10, 0, mv⟩ } with now := ms 50 }
def okOut : TestOutcome := ⟨0, 0, true, 0⟩

theorem test_live_hyps : 0 + ms 10 ≤ (living 1 0 false).now ∧ (living 1 0 false).tst.live = some ⟨1, 0, 10, 0, false⟩ ∧
    (okOut.errors == 0 && okOut.checkOk) = true ∧ ({ living 1 0 false with lcu := { retrains := [rt 0 .training true] } } : State).lcu.retrains.find?
      (fun x => x.port = 0 && x.forTest) = some (rt 0 .training true) := by decide
theorem test_live_end : ((after (.liveTestEnd okOut) (living 5 2 false)).testRec 5).status = 2 ∧ (after (.liveTestEnd okOut) (living 5 2 false)).kvt.lanesOn = [2] ∧
    (after (.liveTestEnd ⟨1, 0, true, 0⟩) (living 6 2 false)).tst.plane = [2] ∧ (after (.liveTestEnd okOut) (living 7 2 false)).tst.live.isSome = true ∧
    ((after (.liveTestEnd okOut) (living 8 0 false)).testRec 8).status = 2 := by decide
theorem test_live_ports : (after (.liveTestEnd okOut) { living 1 2 false with lcu := { retrains := [rt 2 .training true] } }).mac.hostUp = [0, 1, 2] ∧
    ((after (.liveTestEnd okOut) (living 3 0 false)).portOf 0).train = .training := by decide
theorem test_live_bay : ((after (.liveTestEnd okOut) { living 4 0 false with bay := (bayIs (stIs .ready) true).bay }).testRec 4).status = 2 ∧
    (after (.liveTestEnd okOut) { living 4 0 false with bay := (bayIs (stIs .ramping) true).bay }).tst.live.isSome = true := by decide
theorem test_piece7 : (after (.hbmpcPiece 3) (living 7 0 false)).tst.errors = 3 ∧
    ((after (.hbmpcPiece 3) { living 7 0 false with tst := { (living 7 0 false).tst with pieces := 294911 } }).testRec 7).status = 3 := by decide
theorem test_vout : ((after (.bayTestVoutCheck 1000) (living 4 0 true)).testRec 4).code = 9 ∧ ((after (.bayTestVoutCheck 0) (living 4 0 true)).testRec 4).status = 2 ∧
    (after (.bayTestVoutCheck 0) { living 4 0 true with bay := (bayIs (stIs .off) true).bay }).tst.live = some ⟨4, 0, 10, 0, false⟩ ∧
    ((after (.bayTestVoutCheck 0) { living 4 0 true with bay := (bayIs (stIs .off) true).bay }).bayOf 0).st = .wait := by decide
theorem test_tap : sent (.tapInstruction .idcode) (powered { railsUp := [.io18] }) = some (.tdo 1 0x1962474B) ∧
    sent (.tapInstruction .idcode) State.reset = none ∧ sent (.tapInstruction .samplePreload) (powered { railsUp := [.io18] }) = some (.tdo 2 0) := by decide
theorem test_time_set : (after .timeBaseSet (setBits State.reset Reg.macTodns 5)).mac.tod = 5 := by decide
theorem test_time_latch : (after .timeBaseLatch { State.reset with mac := { tod := 1000000007 } }).reg Reg.macTodsec = 1 ∧
    (after .timeBaseLatch { State.reset with mac := { tod := 1000000007 } }).reg Reg.macTodns = 6 := by decide

/-! ## Steps (commands at the front of the queue), register accesses, ring creation without triple parity -/

/-- A command waits. -/
def queueing : State := { State.reset with pending := [.timeBaseSet, .barkerSend] }

theorem test_front_hyps : queueing.pending = .timeBaseSet :: [.barkerSend] := rfl
theorem test_step : (match step queueing with | .next t => t.pending | _ => []) = [.barkerSend] := by decide
theorem test_idle_hyps2 : State.reset.pending = [] ∧ State.reset.pmuIdle = true ∧ State.reset.rfx.out1.isOpen = false := by decide
theorem test_idle : (match step State.reset with | .next t => t.now | _ => 0) = 1 := by decide
theorem test_reset_inv : State.reset.Inv := inv_of_formOk rfl
theorem test_frame_front : ∃ t, exec .supervisorTrim State.reset = .next t := ⟨_, rfl⟩
theorem test_withFetchWord : ∀ nbits w, decodeTableWord nbits w = none → (State.reset.withFetchWord nbits w).pending = [] := by
  intro nbits w h
  simp only [State.withFetchWord, h]
  rfl

def misaligned (op : Nat) : State := mbox op [2, 0, 4, 0, 1, 0, 0, 0]

theorem test_misaligned_hyps : (misaligned 0x0201).Inv ∧ (misaligned 0x0201).Starts .service 0x0201 (mbCmd .service 0x0201 [2, 0, 4, 0, 1, 0, 0, 0]) ∧
    (mbCmd .service 0x0201 [2, 0, 4, 0, 1, 0, 0, 0]).addr % 4 ≠ 0 ∧ (∀ d ∈ (misaligned 0x0201).mbx.cmds, d.opcode ≠ 0x0103) :=
  ⟨inv_of_formOk rfl, ⟨rfl, by decide⟩, by decide, by decide⟩
theorem test_misaligned : status (.regRead .service) (misaligned 0x0201) .service = some stInvalidParam ∧
    status (.regWrite .service) (misaligned 0x0202) .service = some stInvalidParam := by decide

/-- A KV-9616B, which has no unit for triple parity, asked for a ring. -/
def noTriple (m : Byte) : State := { mbox 0x0301 ([0, 4, m, 1, 8, 0, 0, 0, 7, 0, 0, 0, 1, 0, 0, 0] ++ (natsFrom 0 8).map (BitVec.ofNat 8)) with part := .kv9616b }

theorem test_triple_hyps : Config.hasTriple .kv9616b = false ∧ (noTriple 3).Starts .service 0x0301 (mbCmd .service 0x0301
    ([0, 4, 3, 1, 8, 0, 0, 0, 7, 0, 0, 0, 1, 0, 0, 0] ++ (natsFrom 0 8).map (BitVec.ofNat 8))) ∧
    (∀ b ∈ (natsFrom 0 8).map (BitVec.ofNat 8), b.toNat < Config.bays .kv9616b) := ⟨by decide, ⟨rfl, by decide⟩, by decide⟩
theorem test_triple : status (.ringCreate .service) (noTriple 3) .service = some stAbsent ∧ status (.ringCreate .service) (noTriple 2) .service ≠ some stAbsent := by decide
theorem test_register_file : (State.reset.putReg Reg.rfxRprio 5).reg Reg.rfxRprio = 5 ∧ (State.reset.putReg Reg.rfxRprio 5).reg Reg.rfxTkcfg = State.reset.reg Reg.rfxTkcfg := by decide

/-! ## Ill-formed commands: one term for each check -/

/-- Every command of the list is refused by the check. -/
def ill (l : List Instr) : Bool := l.all (fun i => !i.wf)

def frameOf (n : Nat) : FrameIn := { bytes := List.replicate n 0, fecOk := true, icrcOk := true, macsec := none }

theorem test_wf_some : (Instr.propertyGet 1 2 0x14).wf = true ∧ (Instr.barkerReceive 2 bark0 none).wf = true ∧ (Instr.capsuleIntake 1 1 cap0).wf = true := by decide
theorem test_wf_connections : ill [.rdmaCmConnectionRequest (2 ^ 24) 0 0 .rc 1024, .rdmaCmConnectionRequest 0 4 0 .rc 1024, .rdmaCmConnectionRequest 0 0 0 .rc 4097,
    .tcpSyn (2 ^ 24) 0 0 1, .tcpSyn 0 4 0 1, .tcpSyn 0 0 0 65536, .connect 0 { connR with cid := 65536 }, .connect 0 { connR with sqid := 129 },
    .connect 0 { connR with qsize := 65537 }, .connect 0 { connR with kato := 2 ^ 32 }, .connect 0 { connR with cntlid := 65536 }, .connect (2 ^ 24) connR,
    .authenticationReceive (2 ^ 24) 0, .authenticationReceive 0 65536, .connectionLoss (2 ^ 24), .cnpReceive (2 ^ 24), .keyUpdateReceive (2 ^ 24),
    .clientHello (2 ^ 24) [] true true true] = true := by decide
theorem test_wf_admin : ill [.propertySet 65536 0 0 0, .propertySet 0 65536 0 0, .propertySet 0 0 (2 ^ 32) 0, .propertySet 0 0 0 (2 ^ 64), .propertyGet 65536 0 0,
    .propertyGet 0 65536 0, .propertyGet 0 0 (2 ^ 32), .disconnect 65536 0 0, .disconnect 0 129 0, .disconnect 0 0 65536, .disconnectComplete 0 129,
    .getLogPage 0 0 256, .identify 0 0 256 0, .identify 0 0 0 (2 ^ 32), .abort 0 0 65536 0, .abort 0 0 0 65536, .setFeatures 0 0 256 0 false,
    .setFeatures 0 0 0 (2 ^ 32) false, .getFeatures 0 0 256, .asynchronousEventRequest 65536 0, .keepAlive 0 65536, .nvmeMiSend 0 0 256 [], .nvmeMiReceive 0 0 256 [],
    .formatNvm 0 0 0 16 0 false, .formatNvm 0 0 0 0 8 false, .formatNvm 0 0 (2 ^ 32) 0 0 false, .sanitize 0 0 8, .invalidAdminOpcode 0 0 256,
    .keepAliveTimeout 65536, .controllerResetComplete 65536, .shutdownComplete 65536] = true := by decide
theorem test_wf_io : ill [.flush 262144, .write 262144, .read 262144, .compare 262144, .writeZeroes 262144, .datasetManagement 262144, .invalidIoOpcode 0 129,
    .capsuleIntake 65536 0 cap0, .capsuleIntake 0 129 cap0, .capsuleIntake 0 0 { cap0 with opcode := 256 }, .capsuleIntake 0 0 { cap0 with cid := 65536 },
    .capsuleIntake 0 0 { cap0 with nsid := 2 ^ 32 }, .capsuleIntake 0 0 { cap0 with slba := 2 ^ 64 }, .capsuleIntake 0 0 { cap0 with fuse := 4 }, .admission 512,
    .hostDataReceived 262144 true [], .commitPoint 262144, .responseHandoff 262144, .responseAcknowledged 262144, .squashComplete 262144, .rangeLockGrant 262144,
    .formatPrepareDone 64, .eraseRegionDone 64, .keyReplacementDone 64, .deallocDone 64, .residueTimeout 0 262144] = true := by decide
theorem test_wf_rings : ill [.ringInitComplete 8, .stripeWriteStart 8 0, .stripeWriteStart 0 (2 ^ 48), .stripeWriteComplete 8 0, .drainMaxageExpiry 8 0, .bitmapSweep 8,
    .bitmapCheckpoint 8, .checkpointWriteComplete 8, .suspectStripeDone 8 0 [], .suspectStripeDone 0 0 [(16, [])], .verifyStripeDone 8 [], .rejoinWindowExpiry 0 24,
    .driveIdentified 24 (drive0 0), .rejoinResyncComplete 0 ⟨24, []⟩, .rejoinResyncComplete 0 ⟨0, [(2 ^ 48, 0, [])]⟩, .smartCriticalWarning 24 0, .rebuildStripeDone 8 0 [],
    .copybackChunkDone 0 0 ⟨2 ^ 32, []⟩, .rebuildRateTick (2 ^ 32), .patrolStripeCheck 8 []] = true := by decide
theorem test_wf_fabric : ill [.barkerReceive 4 bark0 none, .barkerReceive 0 { bark0 with uid := 0 } none, .barkerReceive 0 { bark0 with slot := 2 } none,
    .barkerReceive 0 { bark0 with port := 4 } none, .barkerReceive 0 { bark0 with fid := 128 } none, .barkerTimeout 4, .pcsLinkDown 8, .pcsLinkUp 8,
    .claimReceive 4 0 0 0, .claimReceive 0 0 128 0, .defendReceive 0 0 0 (2 ^ 64) 0, .lsaReceive 0 { lsa0 with fid := 128 }, .lsaReceive 4 lsa0,
    .lsaReceive 0 { lsa0 with uid := 2 ^ 64 }, .lsdbEntryExpiry 128, .frameForward 0 { hdr0 with len := 8961 }, .frameForward 0 { hdr0 with dst := 128 }, .frameForward 4 hdr0,
    .electReceive 8 0 0 0, .electReceive 0 256 0 0, .electionTimeout 8, .ownerSend 8, .ownerReceive 0 128 0, .ownerReceive 0 0 (2 ^ 32), .handoverQuiesced 8,
    .handoverTimeout 8, .mirrorReceive 128 0 (.free []), .mirrorReceive 0 (2 ^ 48) (.free []), .mirackReceive false 0 (2 ^ 32), .mirrorResendTimeout (2 ^ 48),
    .cmdstateReceive 0 { rec0 with tag := 262144 }, .cmdstateReceive (2 ^ 48) rec0, .fwdReceive (2 ^ 48) [], .announcementRepeat 65536,
    .duplicateSuppressionExpiry (2 ^ 64) 0] = true := by decide
theorem test_wf_subsystems : ill [.nsDeleteComplete 512 0, .nsDeleteComplete 0 (2 ^ 32), .vsResetDrained 512, .freezeQuiesced 512, .quiesceTimeout 512, .maxfrzExpiry 512,
    .mgmtPropagation ⟨65536, []⟩, .migrateReceive 128 0 0 (.ack 0), .migrateReceive 0 512 0 (.ack 0), .migrationPhaseEnd 512 ⟨true, []⟩, .migrationPhaseEnd 0 ⟨true, [(65536, 0, 0)]⟩] = true := by decide
theorem test_wf_frames : ill [.frameReceive 8 frame0, .transferComplete 14, .transmitSelect 8, .sample 16 [], .pfcRepeat 8 0, .pfcRepeat 0 8, .pfcFrameReceive 8 [],
    .pfcFrameReceive 0 [none], .pauseExpiry 0 8, .rateRecovery 1024] = true := by decide
theorem test_wf_long_frame : (Instr.frameReceive 0 (frameOf 9217)).wf = false := by
  simp only [Instr.wf, frameOf, List.length_replicate]; decide
theorem test_wf_long_packet : (Instr.mctpMessage (List.replicate 4161 0)).wf = false := by
  simp only [Instr.wf, packetOk, List.length_replicate]; decide
theorem test_wf_vault : ill [.rekeyPieceLoaded 4096 [], .rekeyRegionDone 4096, .mkaFrameReceive 4 mka0, .mkaFrameReceive 0 { mka0 with priority := 256 },
    .mkaFrameReceive 0 { mka0 with lowestPn := 2 ^ 32 }, .mkaHello 4, .mkaLifeExpiry 4 0, .keySelftest .service 7, .loginLockoutExpiry 4096, .vaultSelftestComplete 7,
    .mctpControlMessage 256, .mgmtFrameReceive 128 0 [], .mgmtFrameReceive 0 256 [], .pmuLoRead (2 ^ 21), .pldmGetSensorReading 65536,
    .pldmComponentTransfer (2 ^ 32) []] = true := by decide
theorem test_wf_bays : ill [.bar0Read (2 ^ 64) [], .bar0Write (2 ^ 64) [], .configWrite 4096 0 0, .dmaCompletion 1024 0 .success [], .dmaCompletion 0 (2 ^ 64) .success [],
    .completionTimeout 1024, .quarantineExpiry 1024, .presenceAssert 24, .debounceComplete 24, .presenceLoss 24, .rampStart 24, .powerGood 24, .pgtimeout 24,
    .perstDelayExpiry 24, .driveLinkL0 24 0 0, .driveLinkL0 0 8 0, .driveLinkL0 0 0 32, .linkTrainingTimeout 24, .bayReady 24, .overcurrent 24, .fasttrip 24, .undervolt 24,
    .retryExpiry 24, .powerCycleDelay 24, .dpxCompletionTimeout 24 0, .dpxCompletionTimeout 0 1024, .dpxQuarantineExpiry 24 0, .surpriseLinkDown 24,
    .drivePortFatalError 24, .containmentHoldExpiry 24] = true := by decide
theorem test_wf_power : ill [.domainWake 112, .domainIdle 112, .domainOn 112 true, .powerStateEvaluation ⟨true, [0, 0, 0, 0, 0], 0⟩, .marginScan 80, .marginScanComplete 80 highRes,
    .marginScanComplete 0 { highRes with width := 129 }, .retrainCheck [{ highRes with width := 129 }], .parkedRetry 8, .drivePortRetrainEnd 24 true, .hbmPass 4 0,
    .eccBurst 128, .chopAverage 25 0, .sensorTrim (List.replicate 33 0), .sepLinkUp 8 0, .sepLinkUp 0 32, .hbmpcPiece (2 ^ 32), .bayTestVoutCheck 65536] = true := by decide

end Sys2Proof.Tests
end

section
/-! PROOFS. What every step does, whatever the command: a step is its command or a tick, each command changes only its parts and
keeps the form of the state; then the register file, ID.UNITPRES and misaligned register accesses. -/

namespace Sys2Proof.Machine

/-! ## Every command -/

/-- A command keeps whatever lies outside its parts, and the form of the state: the frame lemma of each row. -/
theorem exec_keptBy (c : Instr) (s : State) : KeptBy (unitsOf c) s (exec c s) :=
  match c with
  | .rdmaCmConnectionRequest conn port addr qp mtu =>
    .rdmaCmConnectionRequest conn port addr qp mtu (.refl s) rfl rfl rfl rfl rfl rfl
  | .tcpSyn conn port addr mss => .tcpSyn conn port addr mss (.refl s) rfl rfl rfl rfl rfl rfl
  | .icreq conn hdgst ddgst => .icreq conn hdgst ddgst (.refl s) rfl rfl rfl rfl rfl rfl rfl rfl
  | .connect conn req => .connect conn req (.refl s) rfl rfl rfl rfl rfl rfl
  | .propertySet cntlid cid offset value =>
    .propertySet cntlid cid offset value (.refl s) rfl rfl rfl rfl rfl rfl rfl rfl rfl rfl
  | .propertyGet cntlid cid offset => .propertyGet cntlid cid offset (.refl s) rfl rfl rfl rfl rfl rfl rfl rfl rfl rfl
  | .authenticationSend conn cid msg => .authenticationSend conn cid msg (.refl s) rfl rfl rfl rfl rfl rfl rfl rfl rfl rfl
  | .authenticationReceive conn cid => .authenticationReceive conn cid (.refl s) rfl rfl rfl rfl rfl rfl rfl rfl rfl rfl
  | .disconnect cntlid sqid cid => .disconnect cntlid sqid cid (.refl s) rfl rfl rfl rfl rfl rfl rfl rfl rfl rfl
  | .disconnectComplete cntlid sqid => .disconnectComplete cntlid sqid (.refl s) rfl rfl rfl rfl rfl rfl rfl rfl
  | .getLogPage cntlid cid lid => .getLogPage cntlid cid lid (.refl s) rfl rfl rfl rfl rfl rfl rfl
  | .identify cntlid cid cns nsid => .identify cntlid cid cns nsid (.refl s) rfl rfl rfl rfl rfl rfl rfl rfl rfl rfl
  | .abort cntlid acid sqid cid => .abort cntlid acid sqid cid (.refl s) rfl rfl rfl rfl rfl rfl rfl
  | .setFeatures cntlid cid fid value save =>
    .setFeatures cntlid cid fid value save (.refl s) rfl rfl rfl rfl rfl rfl rfl rfl rfl rfl
  | .getFeatures cntlid cid fid => .getFeatures cntlid cid fid (.refl s) rfl rfl rfl rfl rfl rfl rfl rfl rfl rfl
  | .asynchronousEventRequest cntlid cid =>
    .asynchronousEventRequest cntlid cid (.refl s) rfl rfl rfl rfl rfl rfl rfl rfl rfl rfl
  | .keepAlive cntlid cid => .keepAlive cntlid cid (.refl s) rfl rfl rfl rfl rfl rfl
  | .nvmeMiSend cntlid cid miOpcode packet =>
    .nvmeMiSend cntlid cid miOpcode packet (.refl s) rfl rfl rfl rfl rfl rfl rfl rfl rfl rfl
  | .nvmeMiReceive cntlid cid miOpcode packet =>
    .nvmeMiReceive cntlid cid miOpcode packet (.refl s) rfl rfl rfl rfl rfl rfl rfl rfl rfl rfl
  | .formatNvm cntlid cid nsid lbaf ses protection =>
    .formatNvm cntlid cid nsid lbaf ses protection (.refl s) rfl rfl rfl rfl rfl rfl rfl rfl rfl rfl
  | .sanitize cntlid cid action => .sanitize cntlid cid action (.refl s) rfl rfl rfl rfl rfl rfl rfl rfl rfl rfl
  | .invalidAdminOpcode cntlid cid opcode =>
    .invalidAdminOpcode cntlid cid opcode (.refl s) rfl rfl rfl rfl rfl rfl rfl rfl rfl rfl
  | .flush tag => .flush tag (.refl s) rfl rfl rfl rfl rfl rfl
  | .write tag => .write tag (.refl s) rfl rfl
  | .read tag => .read tag (.refl s) rfl rfl rfl rfl rfl rfl rfl rfl rfl rfl
  | .compare tag => .compare tag (.refl s) rfl rfl rfl rfl rfl rfl rfl rfl rfl rfl
  | .writeZeroes tag => .writeZeroes tag (.refl s) rfl rfl rfl rfl rfl rfl rfl rfl rfl rfl
  | .datasetManagement tag => .datasetManagement tag (.refl s) rfl rfl rfl rfl rfl rfl rfl rfl rfl rfl
  | .invalidIoOpcode cntlid sqid =>
    .invalidIoOpcode cntlid sqid (.refl s) rfl rfl rfl rfl rfl rfl rfl rfl rfl rfl rfl rfl rfl rfl
  | .capsuleIntake cntlid sqid capsule => .capsuleIntake cntlid sqid capsule (.refl s) rfl rfl rfl rfl rfl rfl rfl rfl
  | .admission vsid => .admission vsid (.refl s) rfl rfl rfl rfl rfl rfl rfl rfl rfl rfl rfl rfl rfl rfl
  | .hostDataReceived tag ok sectors => .hostDataReceived tag ok sectors (.refl s) rfl rfl rfl rfl rfl rfl rfl rfl rfl rfl rfl
  | .commitPoint tag => .commitPoint tag (.refl s) rfl rfl rfl rfl rfl rfl rfl
  | .responseHandoff tag => .responseHandoff tag (.refl s) rfl rfl rfl rfl rfl rfl rfl
  | .responseAcknowledged tag => .responseAcknowledged tag (.refl s) rfl rfl rfl rfl rfl rfl rfl
  | .squashComplete tag => .squashComplete tag (.refl s) rfl rfl rfl rfl rfl rfl rfl
  | .keepAliveTimeout cntlid => .keepAliveTimeout cntlid (.refl s) rfl rfl rfl rfl rfl rfl rfl
  | .connectionLoss conn => .connectionLoss conn (.refl s) rfl rfl rfl rfl rfl rfl rfl rfl
  | .controllerResetComplete cntlid => .controllerResetComplete cntlid (.refl s) rfl rfl rfl rfl rfl rfl rfl
  | .shutdownComplete cntlid => .shutdownComplete cntlid (.refl s) rfl rfl rfl rfl rfl rfl
  | .tagqryWrite w => .tagqryWrite w (.refl s) rfl rfl
  | .rangeLockGrant tag => .rangeLockGrant tag (.refl s) rfl rfl rfl rfl rfl rfl rfl rfl rfl rfl rfl
  | .joinCopyComplete => .joinCopyComplete (.refl s) rfl rfl
  | .powerFailTrip => .powerFailTrip (.refl s) rfl rfl rfl rfl rfl rfl rfl rfl rfl rfl
  | .flushEnd => .flushEnd (.refl s) rfl rfl rfl rfl rfl rfl rfl rfl rfl rfl rfl rfl rfl rfl rfl rfl rfl rfl rfl rfl rfl rfl rfl
  | .formatPrepareDone rec => .formatPrepareDone rec (.refl s) rfl rfl rfl rfl rfl rfl
  | .eraseRegionDone rec => .eraseRegionDone rec (.refl s) rfl rfl rfl rfl rfl rfl
  | .keyReplacementDone rec => .keyReplacementDone rec (.refl s) rfl rfl rfl rfl rfl rfl rfl rfl
  | .deallocDone rec => .deallocDone rec (.refl s) rfl rfl rfl rfl rfl rfl rfl rfl
  | .progressRecordAvailable => .progressRecordAvailable (.refl s) rfl rfl rfl rfl rfl rfl rfl rfl rfl rfl
  | .coalescingWindowExpiry group => .coalescingWindowExpiry group (.refl s) rfl rfl rfl rfl rfl rfl rfl
  | .groupDataReady group => .groupDataReady group (.refl s) rfl rfl rfl rfl rfl rfl rfl
  | .residueTimeout group tag => .residueTimeout group tag (.refl s) rfl rfl rfl
  | .groupRegionRelease group => .groupRegionRelease group (.refl s) rfl
  | .ringCreate m => .ringCreate m (.refl s) rfl rfl rfl rfl rfl rfl rfl rfl rfl
  | .ringDelete m => .ringDelete m (.refl s) rfl rfl rfl rfl rfl rfl rfl rfl rfl rfl rfl
  | .ringInitComplete ring => .ringInitComplete ring (.refl s) rfl
  | .stripeWriteStart ring stripe => .stripeWriteStart ring stripe (.refl s) rfl rfl rfl rfl rfl rfl rfl rfl rfl rfl
  | .stripeWriteComplete ring stripe =>
    .stripeWriteComplete ring stripe (.refl s) rfl rfl rfl rfl rfl rfl rfl rfl rfl rfl rfl rfl
  | .drainMaxageExpiry ring stripe => .drainMaxageExpiry ring stripe (.refl s) rfl rfl rfl rfl rfl rfl rfl rfl rfl rfl
  | .bitmapSweep ring => .bitmapSweep ring (.refl s) rfl rfl rfl rfl rfl rfl
  | .bitmapCheckpoint ring => .bitmapCheckpoint ring (.refl s) rfl rfl rfl rfl rfl rfl rfl
  | .checkpointWriteComplete ring => .checkpointWriteComplete ring (.refl s) rfl rfl rfl rfl rfl rfl
  | .suspectStripeDone ring stripe rows =>
    .suspectStripeDone ring stripe rows (.refl s) rfl rfl rfl rfl rfl rfl rfl rfl rfl rfl rfl rfl rfl
  | .verifyStripeDone ring rows => .verifyStripeDone ring rows (.refl s) rfl rfl rfl rfl rfl rfl rfl rfl rfl rfl rfl rfl
  | .ptqryWrite w => .ptqryWrite w (.refl s) rfl rfl
  | .rejoinWindowExpiry ring slot => .rejoinWindowExpiry ring slot (.refl s) rfl rfl rfl rfl rfl rfl rfl rfl rfl rfl rfl rfl
  | .driveIdentified bay info => .driveIdentified bay info (.refl s) rfl rfl rfl rfl rfl rfl rfl rfl rfl rfl rfl rfl
  | .rejoinResyncComplete ring done => .rejoinResyncComplete ring done (.refl s) rfl rfl rfl rfl rfl rfl rfl rfl rfl rfl rfl rfl
  | .smartCriticalWarning bay bits => .smartCriticalWarning bay bits (.refl s) rfl rfl rfl rfl rfl rfl rfl rfl rfl rfl rfl rfl
  | .rebuildStripeDone ring stripe rows =>
    .rebuildStripeDone ring stripe rows (.refl s) rfl rfl rfl rfl rfl rfl rfl rfl rfl rfl rfl rfl
  | .copybackChunkDone ring slot done =>
    .copybackChunkDone ring slot done (.refl s) rfl rfl rfl rfl rfl rfl rfl rfl rfl rfl rfl rfl
  | .rebuildRateTick hostTraffic => .rebuildRateTick hostTraffic (.refl s) rfl
  | .patrolStripeCheck ring rows => .patrolStripeCheck ring rows (.refl s) rfl rfl rfl rfl rfl rfl rfl
  | .memberFail m => .memberFail m (.refl s) rfl rfl rfl rfl rfl rfl rfl rfl rfl rfl rfl rfl rfl
  | .memberReplace m => .memberReplace m (.refl s) rfl rfl rfl rfl rfl rfl rfl rfl rfl rfl rfl rfl rfl
  | .lostList m => .lostList m (.refl s) rfl rfl rfl
  | .barkerSend => .barkerSend (.refl s) rfl rfl rfl rfl
  | .barkerReceive port b store =>
    .barkerReceive port b store (.refl s) rfl rfl rfl rfl rfl rfl rfl rfl rfl rfl rfl rfl rfl rfl rfl rfl rfl rfl
  | .barkerTimeout port => .barkerTimeout port (.refl s) rfl rfl rfl rfl rfl rfl rfl rfl rfl rfl rfl rfl rfl rfl rfl rfl rfl
  | .pcsLinkDown port => .pcsLinkDown port (.refl s) rfl rfl rfl rfl rfl rfl rfl rfl rfl rfl rfl rfl rfl rfl rfl rfl rfl rfl
  | .pcsLinkUp port => .pcsLinkUp port (.refl s) rfl rfl rfl rfl rfl rfl
  | .peerwaitExpiry => .peerwaitExpiry (.refl s) rfl rfl rfl rfl rfl rfl rfl rfl rfl
  | .claimInterval => .claimInterval (.refl s) rfl rfl rfl
  | .claimWaitExpiry => .claimWaitExpiry (.refl s) rfl rfl rfl rfl rfl rfl rfl rfl
  | .claimReceive port uid fid nonce => .claimReceive port uid fid nonce (.refl s) rfl rfl rfl rfl
  | .defendReceive port uid fid claimUid nonce => .defendReceive port uid fid claimUid nonce (.refl s) rfl rfl rfl rfl
  | .fidRetry => .fidRetry (.refl s) rfl rfl rfl rfl
  | .lsaReceive port lsa => .lsaReceive port lsa (.refl s) rfl rfl rfl rfl rfl rfl rfl
  | .lsaRefresh => .lsaRefresh (.refl s) rfl rfl rfl rfl rfl
  | .lsdbEntryExpiry fid => .lsdbEntryExpiry fid (.refl s) rfl rfl rfl rfl rfl
  | .formerFidExpiry => .formerFidExpiry (.refl s) rfl
  | .frameForward port hdr => .frameForward port hdr (.refl s) rfl rfl rfl rfl
  | .badReltiFrame port f => .badReltiFrame port f (.refl s) rfl
  | .statusSend => .statusSend (.refl s) rfl rfl
  | .statusReceive st => .statusReceive st (.refl s) rfl rfl rfl rfl rfl rfl rfl rfl rfl rfl rfl
  | .electReceive ring prio fid epoch => .electReceive ring prio fid epoch (.refl s) rfl rfl rfl rfl rfl rfl
  | .electionTimeout ring => .electionTimeout ring (.refl s) rfl rfl rfl rfl rfl rfl
  | .ownerSend ring => .ownerSend ring (.refl s) rfl rfl rfl rfl rfl rfl rfl rfl rfl rfl rfl rfl rfl
  | .ownerReceive ring fid epoch => .ownerReceive ring fid epoch (.refl s) rfl rfl rfl rfl rfl rfl rfl rfl rfl rfl rfl rfl
  | .ringHandover m => .ringHandover m (.refl s) rfl rfl rfl rfl
  | .handoverQuiesced ring => .handoverQuiesced ring (.refl s) rfl rfl rfl rfl rfl rfl rfl rfl
  | .handoverTimeout ring => .handoverTimeout ring (.refl s) rfl rfl rfl rfl
  | .ownerClaim m => .ownerClaim m (.refl s) rfl rfl rfl rfl rfl
  | .ownerRenew m => .ownerRenew m (.refl s) rfl rfl rfl
  | .handover m => .handover m (.refl s) rfl rfl rfl rfl rfl
  | .ownerRelease m => .ownerRelease m (.refl s) rfl rfl rfl rfl rfl
  | .electionWindowClose => .electionWindowClose (.refl s) rfl rfl rfl rfl rfl
  | .leaseExpiry => .leaseExpiry (.refl s) rfl rfl rfl rfl rfl
  | .rtqryWrite w => .rtqryWrite w (.refl s) rfl rfl
  | .mirrorReceive src mseq body =>
    .mirrorReceive src mseq body (.refl s) rfl rfl rfl rfl rfl rfl rfl rfl rfl rfl rfl rfl rfl rfl rfl
  | .mirackSend => .mirackSend (.refl s) rfl rfl rfl rfl rfl rfl rfl rfl rfl rfl rfl rfl rfl rfl rfl
  | .mirackReceive second mseq room =>
    .mirackReceive second mseq room (.refl s) rfl rfl rfl rfl rfl rfl rfl rfl rfl rfl rfl rfl rfl
  | .mirrorResendTimeout mseq => .mirrorResendTimeout mseq (.refl s) rfl rfl rfl rfl
  | .cmdstateReceive mseq r => .cmdstateReceive mseq r (.refl s) rfl rfl rfl rfl rfl rfl rfl rfl rfl rfl rfl rfl rfl rfl rfl
  | .xportReceive mseq x => .xportReceive mseq x (.refl s) rfl rfl rfl rfl rfl rfl rfl rfl rfl rfl rfl rfl rfl rfl rfl
  | .fwdReceive mseq entries => .fwdReceive mseq entries (.refl s) rfl rfl rfl rfl rfl rfl rfl rfl rfl rfl rfl rfl rfl rfl rfl
  | .healthCheck coresOk crossbarOk => .healthCheck coresOk crossbarOk (.refl s) rfl rfl rfl rfl rfl rfl rfl rfl rfl rfl rfl
  | .heartbeatLoss => .heartbeatLoss (.refl s) rfl rfl rfl rfl rfl rfl rfl rfl rfl rfl rfl rfl rfl rfl rfl rfl rfl
  | .fenceDelayExpiry => .fenceDelayExpiry (.refl s) rfl rfl
  | .fenceInAsserted =>
    .fenceInAsserted (.refl s) rfl rfl rfl rfl rfl rfl rfl rfl rfl rfl rfl rfl rfl rfl rfl rfl rfl rfl rfl rfl rfl rfl rfl
  | .fenceRelease m => .fenceRelease m (.refl s) rfl rfl rfl rfl
  | .peerRemoved => .peerRemoved (.refl s) rfl rfl
  | .fenceHoldExpiry => .fenceHoldExpiry (.refl s) rfl rfl rfl rfl rfl rfl rfl rfl rfl rfl rfl rfl rfl rfl rfl rfl
  | .announcementRepeat identity => .announcementRepeat identity (.refl s) rfl rfl
  | .takeoverDataDrained => .takeoverDataDrained (.refl s) rfl rfl
  | .vsCreate m => .vsCreate m (.refl s) rfl rfl rfl rfl rfl rfl rfl rfl rfl rfl rfl
  | .vsDelete m => .vsDelete m (.refl s) rfl rfl rfl rfl rfl rfl rfl rfl rfl rfl rfl
  | .vsModify m => .vsModify m (.refl s) rfl rfl rfl rfl rfl rfl rfl rfl rfl rfl rfl
  | .vsHosts m => .vsHosts m (.refl s) rfl rfl rfl rfl rfl rfl rfl rfl rfl rfl rfl
  | .vsPortal m => .vsPortal m (.refl s) rfl rfl rfl rfl rfl rfl rfl rfl rfl rfl rfl
  | .nsCreate m => .nsCreate m (.refl s) rfl rfl rfl rfl rfl rfl rfl rfl rfl rfl rfl
  | .nsDelete m => .nsDelete m (.refl s) rfl rfl rfl rfl rfl rfl
  | .nsDeleteComplete vsid nsid => .nsDeleteComplete vsid nsid (.refl s) rfl rfl rfl rfl rfl rfl rfl rfl rfl
  | .vsReset m => .vsReset m (.refl s) rfl rfl rfl rfl rfl rfl rfl rfl rfl
  | .vsResetDrained vsid => .vsResetDrained vsid (.refl s) rfl rfl rfl rfl rfl rfl rfl rfl rfl
  | .vsFreeze m => .vsFreeze m (.refl s) rfl rfl rfl rfl
  | .freezeQuiesced vsid => .freezeQuiesced vsid (.refl s) rfl rfl rfl rfl rfl
  | .quiesceTimeout vsid => .quiesceTimeout vsid (.refl s) rfl rfl rfl rfl rfl rfl
  | .maxfrzExpiry vsid => .maxfrzExpiry vsid (.refl s) rfl rfl rfl rfl rfl
  | .vsThaw m => .vsThaw m (.refl s) rfl rfl rfl rfl rfl rfl
  | .vsSave m => .vsSave m (.refl s) rfl rfl rfl rfl
  | .vsRestore m => .vsRestore m (.refl s) rfl rfl rfl rfl rfl rfl rfl rfl rfl rfl
  | .vsMigrate m => .vsMigrate m (.refl s) rfl rfl rfl rfl rfl
  | .vsQuery m => .vsQuery m (.refl s) rfl rfl rfl
  | .mgmtPropagation p => .mgmtPropagation p (.refl s) rfl rfl rfl rfl rfl rfl rfl rfl rfl rfl rfl
  | .migrateReceive src tvsid seq body =>
    .migrateReceive src tvsid seq body (.refl s) rfl rfl rfl rfl rfl rfl rfl rfl rfl rfl rfl
  | .migrationPhaseEnd vsid done => .migrationPhaseEnd vsid done (.refl s) rfl rfl rfl rfl rfl rfl rfl
  | .vsqryWrite w => .vsqryWrite w (.refl s) rfl rfl
  | .frameReceive port f => .frameReceive port f (.refl s) rfl rfl rfl rfl rfl rfl rfl rfl rfl
  | .recirculationPass id authOk plain => .recirculationPass id authOk plain (.refl s) rfl rfl rfl rfl rfl rfl rfl rfl rfl rfl
  | .exceptionDrain => .exceptionDrain (.refl s) rfl
  | .bankSwap byCommand => .bankSwap byCommand (.refl s) rfl
  | .swapEffect => .swapEffect (.refl s) rfl rfl rfl rfl rfl rfl rfl rfl rfl rfl rfl rfl rfl rfl rfl rfl rfl rfl rfl rfl
  | .swapRefusal => .swapRefusal (.refl s) rfl rfl rfl rfl
  | .tableCommit => .tableCommit (.refl s) rfl rfl
  | .tableRead => .tableRead (.refl s) rfl rfl
  | .batchStart => .batchStart (.refl s) rfl rfl
  | .batchEnd => .batchEnd (.refl s) rfl rfl
  | .polcirWrite w => .polcirWrite w (.refl s) rfl
  | .carouselMatch => .carouselMatch (.refl s) rfl rfl rfl
  | .transferComplete input => .transferComplete input (.refl s) rfl rfl rfl rfl
  | .transmitSelect port =>
    .transmitSelect port (.refl s) rfl rfl rfl rfl rfl rfl rfl rfl rfl rfl rfl rfl rfl rfl rfl rfl rfl rfl
  | .sample point bytes => .sample point bytes (.refl s) rfl rfl rfl
  | .samplingConfigWrite ratio w => .samplingConfigWrite ratio w (.refl s) rfl rfl
  | .pfcRepeat port cls => .pfcRepeat port cls (.refl s) rfl rfl
  | .pfcFrameReceive port quanta => .pfcFrameReceive port quanta (.refl s) rfl rfl rfl
  | .pauseExpiry port cls => .pauseExpiry port cls (.refl s) rfl rfl rfl
  | .cnpReceive conn => .cnpReceive conn (.refl s) rfl rfl
  | .rateRecovery host => .rateRecovery host (.refl s) rfl
  | .occqryWrite w => .occqryWrite w (.refl s) rfl rfl
  | .rekeyPieceLoaded slot blocks => .rekeyPieceLoaded slot blocks (.refl s) rfl rfl rfl rfl rfl rfl rfl rfl rfl
  | .rekeyRegionDone slot => .rekeyRegionDone slot (.refl s) rfl rfl rfl rfl rfl rfl rfl
  | .mkaFrameReceive port msg => .mkaFrameReceive port msg (.refl s) rfl rfl rfl rfl
  | .mkaHello port => .mkaHello port (.refl s) rfl rfl
  | .mkaLifeExpiry port member =>
    .mkaLifeExpiry port member (.refl s) rfl rfl rfl rfl rfl rfl rfl rfl rfl rfl rfl rfl rfl rfl rfl rfl rfl
  | .clientHello conn identities suiteOk groupOk binderOk =>
    .clientHello conn identities suiteOk groupOk binderOk (.refl s) rfl rfl rfl rfl rfl rfl rfl rfl rfl
  | .keyUpdateReceive conn => .keyUpdateReceive conn (.refl s) rfl rfl rfl rfl rfl rfl rfl rfl
  | .pairKeyAgreementComplete ok => .pairKeyAgreementComplete ok (.refl s) rfl rfl rfl rfl rfl rfl
  | .keyInfo m => .keyInfo m (.refl s) rfl rfl rfl
  | .keyChallenge m => .keyChallenge m (.refl s) rfl rfl rfl rfl rfl
  | .keyLogin m => .keyLogin m (.refl s) rfl rfl rfl rfl
  | .keyLogout m => .keyLogout m (.refl s) rfl rfl rfl rfl
  | .keyGenerate m => .keyGenerate m (.refl s) rfl rfl rfl rfl rfl rfl rfl rfl rfl
  | .keyImport m => .keyImport m (.refl s) rfl rfl rfl rfl rfl rfl rfl rfl
  | .keyExport m => .keyExport m (.refl s) rfl rfl rfl
  | .keyDelete m => .keyDelete m (.refl s) rfl rfl rfl rfl rfl rfl rfl rfl
  | .keyRekey m => .keyRekey m (.refl s) rfl rfl rfl rfl rfl rfl rfl rfl rfl
  | .keySelftest m failRow =>
    .keySelftest m failRow (.refl s) rfl rfl rfl rfl rfl rfl rfl rfl rfl rfl rfl rfl rfl rfl rfl rfl rfl rfl
  | .keyZeroize m => .keyZeroize m (.refl s) rfl rfl rfl rfl rfl rfl rfl rfl rfl rfl rfl rfl rfl rfl rfl rfl rfl rfl
  | .keyRandom m => .keyRandom m (.refl s) rfl rfl rfl rfl rfl
  | .sessionIdleExpiry => .sessionIdleExpiry (.refl s) rfl
  | .nonceExpiry => .nonceExpiry (.refl s) rfl
  | .loginLockoutExpiry officer => .loginLockoutExpiry officer (.refl s) rfl
  | .vaultEnvironmentZeroize =>
    .vaultEnvironmentZeroize (.refl s) rfl rfl rfl rfl rfl rfl rfl rfl rfl rfl rfl rfl rfl rfl rfl rfl rfl rfl
  | .entropyHealthFailure =>
    .entropyHealthFailure (.refl s) rfl rfl rfl rfl rfl rfl rfl rfl rfl rfl rfl rfl rfl rfl rfl rfl rfl rfl
  | .vaultSelftestComplete failRow =>
    .vaultSelftestComplete failRow (.refl s) rfl rfl rfl rfl rfl rfl rfl rfl rfl rfl rfl rfl rfl rfl rfl rfl rfl rfl
  | .doorbellSend w => .doorbellSend w (.refl s) rfl rfl rfl rfl rfl rfl rfl
  | .mctpMessage packet => .mctpMessage packet (.refl s) rfl rfl rfl rfl rfl rfl rfl
  | .mctpControlMessage command => .mctpControlMessage command (.refl s) rfl
  | .mgmtFrameReceive fid kind packet =>
    .mgmtFrameReceive fid kind packet (.refl s) rfl rfl rfl rfl rfl rfl rfl rfl rfl rfl rfl rfl rfl rfl
  | .poll m packet => .poll m packet (.refl s) rfl rfl rfl rfl rfl rfl rfl
  | .commandStart m => .commandStart m (.refl s) rfl rfl rfl rfl
  | .describe m => .describe m (.refl s) rfl rfl rfl
  | .mbFlush m => .mbFlush m (.refl s) rfl rfl rfl
  | .mbReset m => .mbReset m (.refl s) rfl rfl rfl
  | .regRead m => .regRead m (.refl s) rfl rfl rfl rfl rfl rfl rfl
  | .regWrite m => .regWrite m (.refl s) rfl rfl rfl rfl rfl rfl rfl rfl rfl rfl rfl rfl rfl rfl rfl rfl rfl rfl rfl rfl
  | .regModify m => .regModify m (.refl s) rfl rfl rfl rfl rfl rfl rfl rfl rfl rfl rfl rfl rfl rfl rfl rfl rfl rfl rfl rfl rfl
  | .pmuLoRead addr => .pmuLoRead addr (.refl s) rfl
  | .fabTopo m => .fabTopo m (.refl s) rfl rfl rfl
  | .fwDownload m => .fwDownload m (.refl s) rfl rfl rfl
  | .fwCommit m => .fwCommit m (.refl s) rfl rfl rfl
  | .fwCommitDone => .fwCommitDone (.refl s) rfl rfl rfl
  | .fwActivate m => .fwActivate m (.refl s) rfl rfl rfl
  | .activationComplete => .activationComplete (.refl s) rfl rfl rfl rfl rfl rfl rfl rfl rfl rfl rfl
  | .activationTimeout =>
    .activationTimeout (.refl s) rfl rfl rfl rfl rfl rfl rfl rfl rfl rfl rfl rfl rfl rfl rfl rfl rfl rfl rfl rfl rfl rfl rfl
  | .fwStatus m => .fwStatus m (.refl s) rfl rfl rfl
  | .pldmGetSensorReading sensor => .pldmGetSensorReading sensor (.refl s) rfl rfl
  | .pldmRequestUpdate => .pldmRequestUpdate (.refl s) rfl rfl
  | .pldmComponentTransfer offset bytes => .pldmComponentTransfer offset bytes (.refl s) rfl
  | .pldmVerifyApply => .pldmVerifyApply (.refl s) rfl rfl
  | .pldmActivateFirmware => .pldmActivateFirmware (.refl s) rfl rfl
  | .bar0Read addr enables => .bar0Read addr enables (.refl s) rfl rfl rfl rfl rfl rfl rfl
  | .bar0Write addr words =>
    .bar0Write addr words (.refl s) rfl rfl rfl rfl rfl rfl rfl rfl rfl rfl rfl rfl rfl rfl rfl rfl rfl rfl rfl rfl
  | .sepPerstDeassert => .sepPerstDeassert (.refl s) rfl
  | .sepLinkDown => .sepLinkDown (.refl s) rfl rfl rfl rfl
  | .configWrite offset w enables => .configWrite offset w enables (.refl s) rfl rfl rfl rfl
  | .functionLevelReset => .functionLevelReset (.refl s) rfl rfl rfl rfl
  | .flrComplete => .flrComplete (.refl s) rfl rfl rfl
  | .hotReset => .hotReset (.refl s) rfl rfl rfl rfl
  | .dmaCompletion tag addr status bytes => .dmaCompletion tag addr status bytes (.refl s) rfl rfl rfl rfl
  | .completionTimeout tag => .completionTimeout tag (.refl s) rfl rfl rfl rfl
  | .quarantineExpiry tag => .quarantineExpiry tag (.refl s) rfl rfl
  | .containmentRelease => .containmentRelease (.refl s) rfl
  | .containmentReleaseEffect => .containmentReleaseEffect (.refl s) rfl rfl rfl
  | .doeRequest obj => .doeRequest obj (.refl s) rfl rfl
  | .doeAbort => .doeAbort (.refl s) rfl
  | .presenceAssert bay => .presenceAssert bay (.refl s) rfl
  | .debounceComplete bay => .debounceComplete bay (.refl s) rfl
  | .presenceLoss bay => .presenceLoss bay (.refl s) rfl rfl rfl rfl rfl rfl rfl rfl rfl rfl rfl rfl rfl
  | .rampStart bay => .rampStart bay (.refl s) rfl rfl rfl rfl rfl rfl rfl rfl rfl rfl rfl rfl rfl
  | .powerGood bay => .powerGood bay (.refl s) rfl
  | .pgtimeout bay => .pgtimeout bay (.refl s) rfl rfl rfl rfl rfl rfl rfl rfl rfl rfl rfl rfl rfl
  | .perstDelayExpiry bay => .perstDelayExpiry bay (.refl s) rfl rfl
  | .driveLinkL0 port speed width => .driveLinkL0 port speed width (.refl s) rfl rfl rfl rfl rfl rfl rfl rfl rfl rfl rfl rfl rfl
  | .linkTrainingTimeout port => .linkTrainingTimeout port (.refl s) rfl rfl rfl rfl rfl rfl rfl rfl rfl rfl rfl rfl rfl
  | .bayReady bay => .bayReady bay (.refl s) rfl
  | .overcurrent bay => .overcurrent bay (.refl s) rfl rfl rfl rfl rfl rfl rfl rfl rfl rfl rfl rfl rfl
  | .fasttrip bay => .fasttrip bay (.refl s) rfl rfl rfl rfl rfl rfl rfl rfl rfl rfl rfl rfl rfl
  | .undervolt bay => .undervolt bay (.refl s) rfl rfl rfl rfl rfl rfl rfl rfl rfl rfl rfl rfl rfl
  | .bayInputFault => .bayInputFault (.refl s) rfl rfl rfl rfl rfl rfl rfl rfl rfl rfl rfl rfl rfl
  | .bayInputRestored => .bayInputRestored (.refl s) rfl
  | .retryExpiry bay => .retryExpiry bay (.refl s) rfl
  | .bholdARise => .bholdARise (.refl s) rfl rfl
  | .holderRegain => .holderRegain (.refl s) rfl rfl
  | .powerCycleDelay bay => .powerCycleDelay bay (.refl s) rfl
  | .dpxCompletionTimeout port tag =>
    .dpxCompletionTimeout port tag (.refl s) rfl rfl rfl rfl rfl rfl rfl rfl rfl rfl rfl rfl rfl
  | .dpxQuarantineExpiry port tag => .dpxQuarantineExpiry port tag (.refl s) rfl
  | .memberCommandCompletion id result blocks =>
    .memberCommandCompletion id result blocks (.refl s) rfl rfl rfl rfl rfl rfl rfl rfl rfl rfl rfl rfl
  | .memberCommandTimeout id => .memberCommandTimeout id (.refl s) rfl rfl rfl rfl rfl rfl rfl rfl rfl rfl rfl rfl
  | .memberAbortTimeout id => .memberAbortTimeout id (.refl s) rfl rfl rfl rfl rfl rfl rfl rfl rfl rfl rfl rfl rfl
  | .hedgeExpiry id => .hedgeExpiry id (.refl s) rfl rfl rfl rfl rfl rfl rfl rfl rfl rfl rfl rfl
  | .surpriseLinkDown port => .surpriseLinkDown port (.refl s) rfl rfl rfl rfl rfl rfl rfl rfl rfl rfl rfl rfl rfl
  | .drivePortFatalError port => .drivePortFatalError port (.refl s) rfl rfl rfl rfl rfl rfl rfl rfl rfl rfl rfl rfl rfl
  | .containmentHoldExpiry port => .containmentHoldExpiry port (.refl s) rfl
  | .dpcrelWrite w => .dpcrelWrite w (.refl s) rfl
  | .bayPower m => .bayPower m (.refl s) rfl rfl rfl rfl rfl rfl rfl rfl rfl rfl rfl rfl rfl rfl
  | .bayLed m => .bayLed m (.refl s) rfl rfl rfl rfl
  | .bayClear m => .bayClear m (.refl s) rfl rfl rfl rfl
  | .bayQuery m => .bayQuery m (.refl s) rfl rfl rfl rfl
  | .powerUp recalled bist => .powerUp recalled bist (.refl s) rfl rfl rfl rfl rfl rfl rfl rfl rfl rfl rfl rfl rfl rfl rfl
  | .efuseCurrentLimit =>
    .efuseCurrentLimit (.refl s) rfl rfl rfl rfl rfl rfl rfl rfl rfl rfl rfl rfl rfl rfl rfl rfl rfl rfl rfl rfl rfl rfl rfl
  | .efuseFastTrip =>
    .efuseFastTrip (.refl s) rfl rfl rfl rfl rfl rfl rfl rfl rfl rfl rfl rfl rfl rfl rfl rfl rfl rfl rfl rfl rfl rfl rfl
  | .efuseRetry => .efuseRetry (.refl s) rfl
  | .efuseFaultClear => .efuseFaultClear (.refl s) rfl
  | .vinCutoff =>
    .vinCutoff (.refl s) rfl rfl rfl rfl rfl rfl rfl rfl rfl rfl rfl rfl rfl rfl rfl rfl rfl rfl rfl rfl rfl rfl rfl
  | .vinOvervoltage => .vinOvervoltage (.refl s) rfl
  | .railFault rail =>
    .railFault rail (.refl s) rfl rfl rfl rfl rfl rfl rfl rfl rfl rfl rfl rfl rfl rfl rfl rfl rfl rfl rfl rfl rfl rfl rfl
  | .aonFeedLoss => .aonFeedLoss (.refl s) rfl
  | .referenceLoss => .referenceLoss (.refl s) rfl rfl
  | .referenceRestored => .referenceRestored (.refl s) rfl
  | .domainWake domain => .domainWake domain (.refl s) rfl
  | .domainIdle domain => .domainIdle domain (.refl s) rfl rfl
  | .powerStateEvaluation window =>
    .powerStateEvaluation window (.refl s) rfl rfl rfl rfl rfl rfl rfl rfl rfl rfl rfl rfl rfl rfl rfl rfl rfl rfl
  | .retentionCheck ok => .retentionCheck ok (.refl s) rfl rfl rfl rfl rfl rfl rfl rfl rfl rfl rfl
  | .supervisorTrim => .supervisorTrim (.refl s) rfl
  | .modRestart m =>
    .modRestart m (.refl s) rfl rfl rfl rfl rfl rfl rfl rfl rfl rfl rfl rfl rfl rfl rfl rfl rfl rfl rfl rfl rfl rfl rfl
  | .restartDrainComplete =>
    .restartDrainComplete (.refl s) rfl rfl rfl rfl rfl rfl rfl rfl rfl rfl rfl rfl rfl rfl rfl rfl rfl rfl rfl rfl rfl rfl rfl
  | .pwrPolicy m => .pwrPolicy m (.refl s) rfl rfl rfl rfl rfl rfl rfl rfl rfl rfl rfl rfl rfl rfl rfl rfl rfl rfl
  | .pwrQuery m => .pwrQuery m (.refl s) rfl rfl rfl rfl
  | .thermalTrip => .thermalTrip (.refl s) rfl rfl rfl rfl rfl rfl rfl rfl rfl rfl rfl
  | .marginScan lane => .marginScan lane (.refl s) rfl
  | .marginScanComplete lane r => .marginScanComplete lane r (.refl s) rfl rfl rfl rfl rfl rfl rfl rfl rfl rfl rfl rfl rfl rfl
  | .relearnWaitExpiry => .relearnWaitExpiry (.refl s) rfl
  | .egressDrained => .egressDrained (.refl s) rfl rfl rfl
  | .retrainCheck scans => .retrainCheck scans (.refl s) rfl rfl rfl rfl rfl rfl rfl rfl rfl rfl rfl rfl rfl rfl
  | .parkedRetry port => .parkedRetry port (.refl s) rfl
  | .routeMoveWait => .routeMoveWait (.refl s) rfl rfl rfl rfl rfl rfl rfl rfl rfl rfl rfl rfl rfl rfl rfl rfl rfl
  | .retrainNoticeTimeout => .retrainNoticeTimeout (.refl s) rfl rfl rfl rfl rfl rfl rfl rfl rfl rfl rfl
  | .drivePortRetrainEnd port ok => .drivePortRetrainEnd port ok (.refl s) rfl rfl rfl rfl rfl rfl rfl rfl rfl rfl rfl rfl rfl
  | .hbmPass stack temp => .hbmPass stack temp (.refl s) rfl
  | .hbmSlice => .hbmSlice (.refl s) rfl rfl rfl
  | .eccBurst pc => .eccBurst pc (.refl s) rfl
  | .chopAverage channel microvolt => .chopAverage channel microvolt (.refl s) rfl rfl
  | .sensorTrim differences => .sensorTrim differences (.refl s) rfl
  | .cntConfig m => .cntConfig m (.refl s) rfl rfl rfl rfl rfl
  | .cntRead m => .cntRead m (.refl s) rfl rfl rfl
  | .cntSnapshot m => .cntSnapshot m (.refl s) rfl rfl rfl
  | .boxOfficeSweep late => .boxOfficeSweep late (.refl s) rfl rfl rfl
  | .testStart m => .testStart m (.refl s) rfl rfl rfl rfl rfl rfl rfl rfl rfl rfl rfl rfl rfl rfl rfl rfl
  | .testStop m => .testStop m (.refl s) rfl rfl rfl rfl rfl rfl rfl rfl rfl rfl rfl rfl rfl rfl rfl
  | .testResult m => .testResult m (.refl s) rfl rfl rfl
  | .liveTestEnd r => .liveTestEnd r (.refl s) rfl rfl rfl rfl rfl rfl rfl rfl rfl rfl rfl rfl rfl rfl rfl rfl
  | .tapInstruction ir => .tapInstruction ir (.refl s) rfl
  | .timeBaseSet => .timeBaseSet (.refl s) rfl
  | .timeBaseLatch => .timeBaseLatch (.refl s) rfl
  | .fenceInDeasserted => .fenceInDeasserted (.refl s) rfl rfl rfl
  | .bholdAFall => .bholdAFall (.refl s) rfl
  | .masterPresenceExpiry m => .masterPresenceExpiry m (.refl s) rfl
  | .duplicateSuppressionExpiry uid nonce => .duplicateSuppressionExpiry uid nonce (.refl s) rfl
  | .sepPerstAssert => .sepPerstAssert (.refl s) rfl rfl rfl rfl
  | .sepLinkUp speed width => .sepLinkUp speed width (.refl s) rfl
  | .domainOn domain ok => .domainOn domain ok (.refl s) rfl rfl rfl
  | .sampleQueueDrain => .sampleQueueDrain (.refl s) rfl
  | .hbmpcPiece errors => .hbmpcPiece errors (.refl s) rfl
  | .bayTestVoutCheck millivolt => .bayTestVoutCheck millivolt (.refl s) rfl rfl

/-! ## Reset -/

/-- The state right after reset: an empty register file and empty buffers, every group of parts with its number. -/
theorem State.reset_inv : State.reset.Inv where
  regs := rfl
  absent := rfl
  window := rfl
  stage := rfl
  counts := ⟨rfl, rfl, rfl, rfl, rfl, rfl, rfl, rfl, rfl, rfl, rfl, rfl, rfl, rfl⟩
  oneEach := List.nodup_nil

/-! ## The register file -/

/-- A register written keeps the form of the state. -/
theorem State.putReg_inv {s : State} (h : s.Inv) (a : Nat) (w : Word) : (s.putReg a w).Inv :=
  (Kept.putReg (u := { cfg := true }) a w (.refl s) rfl).inv h

/-- A register read after a write: the word without the bits of absent units there (R6), and elsewhere what was there. -/
theorem State.reg_putReg {s : State} (h : s.Inv) (a b : Nat) (w : Word) :
    (s.putReg a w).reg b = if b = a then w &&& ~~~ absentBits s.part a else s.reg b :=
  regGet_regPut h.regs

/-! ## The identity block -/

/-- ID.UNITPRES is no register that keeps bits: only what the part has is read from it. -/
theorem regKept_idUnitpres : regKept Reg.idUnitpres = 0#32 := by decide

/-- Every part has ID.UNITPRES. -/
theorem absentBits_idUnitpres (p : Part) : absentBits p Reg.idUnitpres = 0#32 := by cases p <;> rfl

theorem State.derived_idUnitpres (s : State) : s.derived Reg.idUnitpres = Config.unitPres s.part := rfl

theorem State.regWord_idUnitpres (s : State) : s.regWord Reg.idUnitpres = Config.unitPres s.part := by
  rw [State.regWord, regKept_idUnitpres, absentBits_idUnitpres, State.derived_idUnitpres, BitVec.and_zero, BitVec.zero_or,
    BitVec.not_zero, BitVec.and_allOnes]

/-! ## Steps -/

theorem step_of_pending {s : State} {c : Instr} {rest : List Instr} (h : s.pending = c :: rest) :
    step s = exec c { s with pending := rest } := by
  simp only [step, h]

theorem step_of_idle {s : State} (h : s.pending = []) : step s = .next s.idle := by
  simp only [step, h]

/-- The form says nothing of the clock and of the queue. -/
theorem State.Inv.withClockAndQueue {s : State} (h : s.Inv) (n : Nat) (l : List Instr) :
    State.Inv { s with now := n, pending := l } :=
  ⟨h.regs, h.absent, h.window, h.stage, ⟨h.counts.bays, h.counts.drivePorts, h.counts.fabPorts, h.counts.egress, h.counts.grant,
    h.counts.accept, h.counts.points, h.counts.masters, h.counts.sets, h.counts.macsec, h.counts.sensors, h.counts.hbmStacks,
    h.counts.vectors, h.counts.buckets⟩, h.oneEach⟩

theorem State.tick_inv {s : State} (h : s.Inv) : s.tick.Inv := by
  have hk : Kept { pmu := true, moved := true, cfg := true, free := true } { s with now := s.now + 1 } s.tick := by
    refine Kept.foldl (fun t v ht => ?_) _ (Kept.hbmTraffic (.refl _) rfl rfl rfl)
    split
    · exact Kept.putReg _ _ ht rfl
    · exact ht
  exact hk.inv (h.withClockAndQueue _ _)

theorem State.idle_inv {s : State} (h : s.Inv) : s.idle.Inv :=
  (Kept.shareRings (uu := { rge := true, rfx := true, xbr := true, pmu := true, moved := true, out := true })
    (.refl s.tick) rfl rfl rfl rfl rfl rfl).inv (State.tick_inv h)

/-- A command of the queue keeps the form. -/
theorem exec_inv {c : Instr} {s t : State} (h : s.Inv) (ht : exec c s = .next t) : t.Inv :=
  ((exec_keptBy c s).keeps t ht).inv h

theorem step_inv {s t : State} (h : s.Inv) (ht : step s = .next t) : t.Inv := by
  cases hp : s.pending with
  | nil =>
    rw [step_of_idle hp] at ht
    cases ht
    exact State.idle_inv h
  | cons c rest =>
    rw [step_of_pending hp] at ht
    exact exec_inv (h.withClockAndQueue _ rest) ht

/-! ## Commands of the mailbox that end with an error -/

/-- A command that ends with an error changes nothing outside the mailbox: no result leaves by DMA. -/
theorem State.finishOne_only {s : State} {st : Nat} (hst : st ≠ stOk) (m : Master) (res : List Byte) :
    Only { mbx := true } s (s.finishOne m st res) := by
  unfold State.finishOne
  split
  · exact .refl _ s
  · simp only [hst, decide_false, Bool.and_false, Bool.false_and, Bool.false_eq_true, if_false]
    exact (Kept.setHeld m _ (Kept.dropCmds _ (.refl s) rfl) rfl).only

theorem State.finishOne_cmds_sublist (s : State) (m : Master) (st : Nat) (res : List Byte) :
    (s.finishOne m st res).mbx.cmds.Sublist s.mbx.cmds := by
  unfold State.finishOne
  split
  · exact .refl _
  · dsimp only
    split
    · exact List.filter_sublist
    · split
      · rw [State.dmaResult_mbx]
        exact List.filter_sublist
      · exact List.filter_sublist

/-- Without an MB_RESET in the queue a command ends alone (R422). -/
theorem State.finish_eq_finishOne {s : State} (h : ∀ d ∈ s.mbx.cmds, d.opcode ≠ 0x0103) (m : Master) (st : Nat)
    (res : List Byte) : s.finish m st res = s.finishOne m st res := by
  unfold State.finish
  dsimp only
  split
  · next d l hd =>
    have hmem : d ∈ s.mbx.cmds := (s.finishOne_cmds_sublist m st res).subset (by rw [hd]; exact List.mem_cons_self)
    simp [h d hmem]
  · rfl

theorem badRange_of_misaligned {a : Nat} (h : a % 4 ≠ 0) (n : Nat) : badRange a n = true := by simp [badRange, h]

/-- A range of words that is not aligned is refused before the rest of the command runs (R12). -/
theorem State.checked_misaligned {a : Nat} (ha : a % 4 ≠ 0) (s : State) (m : Master) (b : Bool) (n : Nat) (f : State → State) :
    s.checked m [(b || badRange a n, stInvalidParam)] f = s.finish m stInvalidParam [] :=
  State.checked_fail (by rw [badRange_of_misaligned ha, Bool.or_true]; rfl) f

/-- REG_READ ends with INVALID_PARAM at an address that is not a multiple of 4 (R12). -/
theorem execRegRead_misaligned {s : State} {m : Master} {c : MbCmd} (hs : s.Starts m 0x0201 c) (ha : c.addr % 4 ≠ 0) :
    execRegRead m s = .next (s.finish m stInvalidParam []) := by
  rw [execRegRead, State.runCmd_starts hs, State.checked_misaligned ha]

/-- REG_WRITE ends with INVALID_PARAM at an address that is not a multiple of 4 (R12). -/
theorem execRegWrite_misaligned {s : State} {m : Master} {c : MbCmd} (hs : s.Starts m 0x0202 c) (ha : c.addr % 4 ≠ 0) :
    execRegWrite m s = .next (s.finish m stInvalidParam []) := by
  rw [execRegWrite, State.runCmd_starts hs, State.checked_misaligned ha]

/-- A command that ends with an error, and no MB_RESET with it, leaves only the mailbox changed. -/
theorem State.finish_error {s : State} {m : Master} {c : MbCmd} {st : Nat} (h : s.Inv) (hc : s.cmdOf m = some c)
    (hr : ∀ d ∈ s.mbx.cmds, d.opcode ≠ 0x0103) (hst : st ≠ stOk) :
    (s.finish m st []).Ended m st ∧ Only { mbx := true } s (s.finish m st []) := by
  refine ⟨State.finish_ended h.counts.masters hc st [], ?_⟩
  rw [State.finish_eq_finishOne hr]
  exact State.finishOne_only hst m []

/-! ## The obligations -/

/-- Settles O3. -/
theorem resetIsInForm : Obligations.ResetIsInForm := State.reset_inv

/-- Settles O6. -/
theorem unitsPresentReadsThePart : Obligations.UnitsPresentReadsThePart := by
  intro s _
  rw [State.regWord_idUnitpres]
  cases s.part <;> rfl

/-- Settles O1. -/
theorem stepRunsTheFrontCommand : Obligations.StepRunsTheFrontCommand := fun _ _ _ h => step_of_pending h

/-- Settles O9. -/
theorem registerFileKeepsWhatIsWritten : Obligations.RegisterFileKeepsWhatIsWritten :=
  fun _ a b w h => ⟨State.putReg_inv h a w, State.reg_putReg h a b w⟩

/-- Settles O7: the range check of both commands fails first, and a command that ends with an error touches nothing but
the mailbox. -/
theorem misalignedRegisterAccessesAreRefused : Obligations.MisalignedRegisterAccessesAreRefused := by
  intro s m c hInv ha hr
  refine ⟨fun hs => ?_, fun hs => ?_⟩
  · exact ⟨_, execRegRead_misaligned hs ha, State.finish_error hInv hs.1 hr (by decide)⟩
  · exact ⟨_, execRegWrite_misaligned hs ha, State.finish_error hInv hs.1 hr (by decide)⟩

/-- Settles O5: the frame lemmas of all commands, read off. -/
theorem commandsChangeOnlyTheirParts : Obligations.CommandsChangeOnlyTheirParts := by
  intro c s t ht
  have k := (exec_keptBy c s).keeps t ht
  exact ⟨k.only, k.same, k.pending, k.out, k.free⟩

/-- Settles O4: a tick or the front command, each of which keeps the form. -/
theorem everyStepKeepsTheForm : Obligations.EveryStepKeepsTheForm := fun _ _ h ht => step_inv h ht

end Sys2Proof.Machine
end

section
/-! PROOFS. Rules of the host command engine that the statements of chapter 02 share: look-ups that a change elsewhere leaves
alone, completions that leave, and admin capsules that their controller takes at once. -/

namespace Sys2Proof.Machine

/-! ## Look-ups that a change elsewhere leaves alone -/

theorem State.findConn_congr {s t : State} (h : t.hce.conns = s.hce.conns) (k : Nat) : t.findConn k = s.findConn k := by
  simp only [State.findConn, h]

theorem State.findCtrl_congr {s t : State} (h : t.hce.ctrls = s.hce.ctrls) (k : Nat) : t.findCtrl k = s.findCtrl k := by
  simp only [State.findCtrl, h]

theorem State.findSq_congr {s t : State} (h : t.hce.sqs = s.hce.sqs) (c q : Nat) : t.findSq c q = s.findSq c q := by
  simp only [State.findSq, h]

theorem State.findTag_congr {s t : State} (h : t.hce.tags = s.hce.tags) (k : Nat) : t.findTag k = s.findTag k := by
  simp only [State.findTag, h]

theorem State.findNs_congr {s t : State} (h : t.vsm = s.vsm) (v n : Nat) : t.findNs v n = s.findNs v n := by
  simp only [State.findNs, h]

theorem State.ids_of_findSq {s : State} {c q : Nat} {x : SubQ} (h : s.findSq c q = some x) : x.cntlid = c ∧ x.sqid = q := by
  simpa using List.find?_some h

theorem State.tag_of_findTag {s : State} {k : Nat} {r : TagRec} (h : s.findTag k = some r) : r.tag = k := by
  simpa using List.find?_some h

/-! ## Completions -/

/-- What left before a frame-keeping change has left after it. -/
theorem Kept.out_of {u : Units} {s a t : State} (k : Kept u a t) (h : a.out = s.out := by rfl) : s.out <:+ t.out :=
  h ▸ k.out

/-- A completion that is posted carries the head of its queue (R41, R58). -/
theorem State.postCqe_sent (s : State) (c q cid : Nat) (st : CplStatus) (dw0 lba : Nat) :
    s.Sent (s.postCqe c q cid st dw0 lba) (.cqe c q cid st dw0 (s.headOf c q)) :=
  .later (.before (s.logError_kept ..).out (.emit _ _)) (State.hostFrames_kept ..).out

/-- So does the completion of a Connect or of authentication. -/
theorem State.connCqe_sent (s : State) (conn cid q c : Nat) (st : CplStatus) (dw0 : Nat) :
    s.Sent (s.connCqe conn cid q c st dw0) (.cqe c q cid st dw0 (s.headOf c q)) :=
  .later (.before (s.logError_kept ..).out (.emit _ _)) (State.hostFrames_kept ..).out

theorem State.connCqe_sent_head {s : State} {c q hd : Nat} (h : s.headOf c q = hd) (conn cid : Nat) (st : CplStatus) (dw0 : Nat) :
    s.Sent (s.connCqe conn cid q c st dw0) (.cqe c q cid st dw0 hd) := h ▸ s.connCqe_sent conn cid q c st dw0

theorem State.postCqe_hce_ok (s : State) (c q cid dw0 lba : Nat) : (s.postCqe c q cid cplSuccess dw0 lba).hce = s.hce := by
  simp [State.postCqe, State.logError]

theorem State.adminCqe_hce_ok (s : State) (c cid dw0 : Nat) : (s.adminCqe c cid cplSuccess dw0).hce = s.hce :=
  s.postCqe_hce_ok c 0 cid dw0 0

theorem State.connCqe_hce_ok (s : State) (conn cid q c dw0 : Nat) : (s.connCqe conn cid q c cplSuccess dw0).hce = s.hce := by
  simp [State.connCqe, State.logError]

@[simp] theorem State.length_ctrls_logError (s : State) (c q cid : Nat) (st : CplStatus) (lba : Nat) :
    (s.logError c q cid st lba).hce.ctrls.length = s.hce.ctrls.length := by
  unfold State.logError
  split
  · rfl
  · simp

/-- A refused Connect touches the Error Information log of its controller, and nothing else of the engine (R63). -/
theorem State.connCqe_frame (s : State) (conn cid q c : Nat) (st : CplStatus) (dw0 : Nat) :
    (s.connCqe conn cid q c st dw0).hce.conns = s.hce.conns ∧ (s.connCqe conn cid q c st dw0).hce.sqs = s.hce.sqs ∧
      (s.connCqe conn cid q c st dw0).hce.tags = s.hce.tags ∧
      (s.connCqe conn cid q c st dw0).hce.ctrls.length = s.hce.ctrls.length := by
  simp [State.connCqe]

@[simp] theorem State.adminDone_conns (s : State) (c cid : Nat) (st : CplStatus) (dw0 : Nat) :
    (s.adminDone c cid st dw0).hce.conns = s.hce.conns := by
  unfold State.adminDone
  split
  · rfl
  · simp [State.adminCqe]

/-! ## Admin capsules that their controller takes -/

@[simp] theorem State.takeAdmin_conns (s : State) (c cid op : Nat) (args : List Nat) :
    (s.takeAdmin c cid op args).hce.conns = s.hce.conns := by rw [State.takeAdmin_hce]; rfl

/-- A capsule that finds its admin queue free and its controller running is executed at once (R42, R50, R51). -/
theorem State.adminSubmit_runs {s t : State} {c cid op : Nat} {x : Ctrl} {i : Instr} (hx : s.findCtrl c = some x)
    (hr : x.resetting = true → x.resetTakes i = true) (hw : x.adminWait = []) (hz : 1 < x.adminSize)
    (ha : s.mbx.activating = none) (hb : s.adminBusy x < 32)
    (ht : (s.takeAdmin c cid op (adminArgs i)).adminRun i = some t) : s.adminSubmit c cid op i = t := by
  have h1 : (x.resetting && !x.resetTakes i) = false := by
    cases h : x.resetting
    · rfl
    · simp [hr h]
  rw [State.takeAdmin] at ht
  unfold State.adminSubmit
  rw [hx]
  simp [h1, hw, ha, ht, Nat.not_le.mpr hz, Nat.not_le.mpr hb]

theorem State.adminSubmit_takes {s t : State} {c cid op : Nat} {x : Ctrl} {i : Instr} (h : s.TakesAdmin c x)
    (ht : (s.takeAdmin c cid op (adminArgs i)).adminRun i = some t) : s.adminSubmit c cid op i = t := by
  obtain ⟨hx, hr, hw, hz, ha, hb⟩ := h
  exact State.adminSubmit_runs hx (by simp [hr]) hw hz ha hb ht

/-- A capsule that runs beside the queue (R51). -/
theorem State.adminBeside_runs {s : State} {c : Nat} {x : Ctrl} (hx : s.findCtrl c = some x) (hr : x.resetting = false)
    (cid op : Nat) (args : List Nat) (f : State → State) :
    s.adminBeside c cid op args f = f (s.takeAdmin c cid op args) := by
  unfold State.adminBeside
  simp [hx, hr]

/-- A command that takes its turn in the admin queue and finds it free. -/
theorem Gives.of_taken {s t : State} {c cid op : Nat} {x : Ctrl} {i : Instr} {P : State → Prop} (h : s.TakesAdmin c x)
    (he : exec i s = .next (s.adminSubmit c cid op i))
    (ht : (s.takeAdmin c cid op (adminArgs i)).adminRun i = some t) (hP : P t) : Gives i s P :=
  ⟨t, he.trans (congrArg Host.Outcome.next (State.adminSubmit_takes h ht)), hP⟩

/-- The controller's record once its capsule is taken. -/
theorem State.TakesAdmin.taken {s : State} {c : Nat} {x : Ctrl} (h : s.TakesAdmin c x) (cid op : Nat) (args : List Nat) :
    (s.takeAdmin c cid op args).findCtrl c = some { x with adminSqhd := x.nextSqhd } :=
  State.findCtrl_takeAdmin h.1 h.2.2.1 cid op args

/-- A completion whose queue's head is known. -/
theorem State.adminDone_sent_head {s t : State} {c n : Nat} {y : Ctrl} (ho : s.out <:+ t.out) (hy : t.findCtrl c = some y)
    (hn : y.adminSqhd = n) (cid : Nat) (st : CplStatus) (dw0 : Nat) :
    s.Sent (t.adminDone c cid st dw0) (.cqe c 0 cid st dw0 n) :=
  hn ▸ (State.adminDone_sent hy cid st dw0).before ho

/-- A command that is taken and completes at once carries the head behind it (R41). -/
theorem State.TakesAdmin.done_sent {s : State} {c : Nat} {x : Ctrl} (h : s.TakesAdmin c x) (cid op : Nat) (args : List Nat)
    (st : CplStatus) (dw0 : Nat) :
    s.Sent ((s.takeAdmin c cid op args).adminDone c cid st dw0) (.cqe c 0 cid st dw0 x.nextSqhd) :=
  State.adminDone_sent_head (s.takeAdmin_kept ..).out (h.taken ..) rfl cid st dw0

end Sys2Proof.Machine
end

section
/-! PROOFS. Connections, Connect and authentication (R31 to R43, R287, R382). -/

namespace Sys2Proof.Machine

/-! ## Connection requests (R31, R39, R287) -/

theorem State.addConn_conns (s : State) (k : HConn) :
    (s.addConn k).hce.conns = s.hce.conns ++ [{ k with path := { k.path with lmac := (s.macs.getD k.port 0).toNat } }] := by
  simp [State.addConn]

/-- A connection's record is found once it is kept, under a number that was free. -/
theorem State.findConn_addConn {s : State} {k : HConn} (h : s.findConn k.id = none) :
    (s.addConn k).findConn k.id = some { k with path := { k.path with lmac := (s.macs.getD k.port 0).toNat } } := by
  rw [State.findConn] at h
  rw [State.findConn, State.addConn_conns, List.find?_append, h]
  simp

theorem State.addConn_out (s : State) (k : HConn) : s.out <:+ (s.addConn k).out :=
  (State.sendXport_kept _ _).out_of

/-- A connection that is accepted: the answer leaves, and the record stands. -/
theorem State.addConn_accepts {s : State} {k : HConn} (h : s.findConn k.id = none) (e : Emission) :
    s.Sent ((s.addConn k).emit e) e ∧ ((s.addConn k).emit e).findConn k.id =
      some { k with path := { k.path with lmac := (s.macs.getD k.port 0).toNat } } :=
  ⟨.before (s.addConn_out k) (.emit _ _), State.findConn_addConn h⟩

/-- RDMA_CM_CONNECTION_REQUEST: service type, then transport, then acceptance. -/
theorem rdmaCmConnectionRequest_gives {s : State} {conn port : Nat} {addr : BitVec 128} {v : Vs} (qp : QpType) (mtu : Nat)
    (hv : s.portalVs port addr = some v) (hc : s.findConn conn = none) :
    Gives (.rdmaCmConnectionRequest conn port addr qp mtu) s fun t =>
      if qp ≠ .rc then s.Sent t (.cmReject conn 1) ∧ t.findConn conn = none
      else if s.cfgBit Reg.hceHcfg 1 = false ∨ v.flags % 2 = 0 then s.Sent t (.cmReject conn 0) ∧ t.findConn conn = none
      else s.Sent t (.cmAccept conn) ∧ ∃ k, t.findConn conn = some k ∧ k.port = port ∧ k.addr = addr ∧ k.transport = .rdma ∧
        k.vsid = v.vsid ∧ k.unit = mtu ∧ k.bound = none ∧ k.auth = .idle := by
  unfold Gives
  rw [exec_rdmaCmConnectionRequest, execRdmaCmConnectionRequest, hv]
  simp only [hc, Option.isSome_none, Bool.false_eq_true, if_false, Bool.or_eq_true, Bool.not_eq_true', decide_eq_true_eq]
  split_ifs
  · exact ⟨_, rfl, .emit _ _, hc⟩
  · exact ⟨_, rfl, .emit _ _, hc⟩
  · obtain ⟨h1, h2⟩ := State.addConn_accepts (k := newConn conn port addr .rdma v.vsid mtu) hc (.cmAccept conn)
    exact ⟨_, rfl, h1, _, h2, rfl, rfl, rfl, rfl, rfl, rfl, rfl⟩

/-- TCP_SYN: transport, then acceptance. -/
theorem tcpSyn_gives {s : State} {conn port : Nat} {addr : BitVec 128} {v : Vs} (mss : Nat)
    (hv : s.portalVs port addr = some v) (hc : s.findConn conn = none) :
    Gives (.tcpSyn conn port addr mss) s fun t =>
      if s.cfgBit Reg.hceHcfg 2 = false ∨ v.flags / 2 % 2 = 0 then s.Sent t (.rst conn) ∧ t.findConn conn = none
      else s.Sent t (.synAck conn) ∧ ∃ k, t.findConn conn = some k ∧ k.port = port ∧ k.addr = addr ∧ k.transport = .tcp ∧
        k.vsid = v.vsid ∧ k.unit = mss ∧ k.icDone = false ∧ k.bound = none := by
  unfold Gives
  rw [exec_tcpSyn, execTcpSyn, hv]
  simp only [hc, Option.isSome_none, Bool.false_eq_true, if_false, Bool.or_eq_true, Bool.not_eq_true', decide_eq_true_eq]
  split_ifs
  · exact ⟨_, rfl, .emit _ _, hc⟩
  · obtain ⟨h1, h2⟩ := State.addConn_accepts (k := newConn conn port addr .tcp v.vsid mss) hc (.synAck conn)
    exact ⟨_, rfl, h1, _, h2, rfl, rfl, rfl, rfl, rfl, rfl, rfl⟩

/-! ## ICReq (R33, R382) -/

theorem icreq_gives {s : State} {conn : Nat} (hdgst ddgst : Bool) {k : HConn} (hk : s.findConn conn = some k)
    (ht : k.transport = .tcp) (hi : k.icDone = false) :
    Gives (.icreq conn hdgst ddgst) s fun t =>
      if ((s.findVs k.vsid).map (fun v => v.flags)).getD 0 / 4 % 2 = 1 ∧ k.tls = false then s.Sent t (.rst conn)
      else s.Sent t (.icresp conn 131072 0 hdgst ddgst) ∧
        t.findConn conn = some { k with icDone := true, hdgst := hdgst, ddgst := ddgst } := by
  unfold Gives
  rw [exec_icreq, execIcreq, hk]
  dsimp only
  rw [if_neg (by simp [ht, hi])]
  split_ifs with h1 h2 h2
  · exact ⟨_, rfl, (State.Sent.emit s _).later (State.loseConn_kept _ _).out⟩
  · exact absurd (by simpa using h1) h2
  · exact absurd (by simpa using h2) h1
  · refine ⟨_, rfl, .before (State.sendXport_kept _ _).out_of (.emit _ _), ?_⟩
    rw [State.findConn_congr (congrArg HceSt.conns ((State.emit_hce ..).trans (State.sendXport_hce ..))),
      State.findConn_updConn (by intro _; rfl), hk]
    rfl

/-! ## Connect (R38, R39, R43, R287) -/

/-- A Connect on a connection that carries no queue and has exchanged ICReq where it must is judged. -/
theorem execConnect_eq {s : State} {conn : Nat} {req : ConnectReq} {k : HConn} (hk : s.findConn conn = some k)
    (hb : k.bound = none) (hi : k.transport = .tcp → k.icDone = true) :
    execConnect conn req s = match (if req.sqid = 0 then s.connectAdmin k req else s.connectIo k req) with
      | some st => .next (s.connCqe conn req.cid req.sqid (if req.sqid = 0 then 0xFFFF else req.cntlid) st (connAttr req st))
      | none => .next (if req.sqid = 0 then s.openAssoc conn k req else s.openQueue conn k req) := by
  have h1 : (decide (k.transport = .tcp) && !k.icDone) = false := by
    by_cases h : k.transport = .tcp
    · simp [hi h]
    · simp [h]
  unfold execConnect
  rw [hk]
  simp only [hb, h1, Option.isSome_none, Bool.or_self, Bool.false_eq_true, if_false] <;> rfl

/-- A Connect that a rule refuses. -/
theorem connect_refused {s : State} {conn : Nat} {req : ConnectReq} {k : HConn} (hk : s.findConn conn = some k)
    (hb : k.bound = none) (hi : k.transport = .tcp → k.icDone = true) {st : CplStatus}
    (hst : (if req.sqid = 0 then s.connectAdmin k req else s.connectIo k req) = some st) :
    Gives (.connect conn req) s fun t =>
      s.Sent t (.cqe (if req.sqid = 0 then 0xFFFF else req.cntlid) req.sqid req.cid st (connAttr req st)
        (s.headOf (if req.sqid = 0 then 0xFFFF else req.cntlid) req.sqid)) ∧
      t.hce.conns = s.hce.conns ∧ t.hce.sqs = s.hce.sqs ∧ t.hce.tags = s.hce.tags ∧ t.hce.ctrls.length = s.hce.ctrls.length := by
  refine ⟨_, ?_, s.connCqe_sent conn req.cid req.sqid _ st (connAttr req st), s.connCqe_frame ..⟩
  rw [exec_connect, execConnect_eq hk hb hi, hst]

/-- The controller of an association that opens (R38). -/
def State.newCtrl (s : State) (conn : Nat) (k : HConn) (r : ConnectReq) : Ctrl :=
  { cntlid := s.freeCntlid, vsid := k.vsid, hostNqn := r.hostNqn, discovery := r.discovery, conn := conn, adminSize := r.qsize,
    adminSqhd := 1 % r.qsize, ccEn := false, rdy := false, cc := 0, shn := 0, shst := 0, resetting := false, resetDisc := none,
    resetEnds := false, kato := r.kato, kaDeadline := if r.kato = 0 then none else some (s.now + katoNs r.kato), granted := 1,
    featArb := 0, featTemp := 0, featAer := 0, featHostId := 0, aers := [], aborts := [], errLog := [], changed := [],
    events := [], adminWait := [] }

theorem State.openAssoc_ctrls (s : State) (conn : Nat) (k : HConn) (r : ConnectReq) :
    (s.openAssoc conn k r).hce.ctrls = s.hce.ctrls ++ [s.newCtrl conn k r] := by
  rw [State.openAssoc, State.connCqe_hce_ok, State.sendXport_hce]
  rfl

theorem State.findConn_openAssoc {s : State} {conn : Nat} {k : HConn} (r : ConnectReq) (hk : s.findConn conn = some k) :
    (s.openAssoc conn k r).findConn conn = some { k with bound := some (s.freeCntlid, 0) } := by
  rw [State.openAssoc, State.findConn_congr (congrArg HceSt.conns ((State.connCqe_hce_ok ..).trans (State.sendXport_hce ..))),
    State.findConn_updConn (f := fun y => { y with bound := some (s.freeCntlid, 0) }) (fun _ => rfl)]
  exact (congrArg _ hk).trans rfl

theorem State.openAssoc_sent (s : State) (conn : Nat) (k : HConn) (r : ConnectReq) :
    s.Sent (s.openAssoc conn k r) (.cqe s.freeCntlid 0 r.cid cplSuccess s.freeCntlid
      ((s.openAssoc conn k r).headOf s.freeCntlid 0)) := by
  have hh : ∀ (t : State) (c : Nat), (t.connCqe conn r.cid 0 c cplSuccess c).headOf c 0 = t.headOf c 0 := fun t c => by
    simp only [State.headOf, State.findCtrl, State.connCqe_hce_ok, if_true]
  rw [State.openAssoc, hh]
  exact (State.connCqe_sent ..).before (State.sendXport_kept _ _).out_of

/-- The records of an association that opens: controller, connection, completion. -/
theorem State.openAssoc_opens {s : State} {conn : Nat} {k : HConn} (r : ConnectReq) (hk : s.findConn conn = some k) :
    ∃ c ∈ (s.openAssoc conn k r).hce.ctrls, c.conn = conn ∧ c.vsid = k.vsid ∧ c.hostNqn = r.hostNqn ∧ c.adminSize = r.qsize ∧
      c.adminSqhd = 1 % r.qsize ∧ c.kato = r.kato ∧ c.granted = 1 ∧ c.ccEn = false ∧ c.discovery = r.discovery ∧
      ((s.openAssoc conn k r).findConn conn).map (fun y => y.bound) = some (some (c.cntlid, 0)) ∧
      s.Sent (s.openAssoc conn k r) (.cqe c.cntlid 0 r.cid cplSuccess c.cntlid ((s.openAssoc conn k r).headOf c.cntlid 0)) := by
  refine ⟨s.newCtrl conn k r, ?_, rfl, rfl, rfl, rfl, rfl, rfl, rfl, rfl, rfl, ?_, s.openAssoc_sent conn k r⟩
  · simp [State.openAssoc_ctrls]
  · rw [State.findConn_openAssoc r hk]
    rfl

theorem connect_opensAssoc {s : State} {conn : Nat} {req : ConnectReq} {k : HConn} (hk : s.findConn conn = some k)
    (hb : k.bound = none) (hi : k.transport = .tcp → k.icDone = true) (hq : req.sqid = 0) (ho : s.connectAdmin k req = none) :
    exec (.connect conn req) s = .next (s.openAssoc conn k req) := by
  rw [exec_connect, execConnect_eq hk hb hi, if_pos hq, ho]
  exact congrArg _ (if_pos hq)

/-- A Connect of an I/O queue that is not refused names a queue that is not there yet. -/
theorem State.findSq_of_connectIo {s : State} {k : HConn} {r : ConnectReq} (h : s.connectIo k r = none) :
    s.findSq r.cntlid r.sqid = none := by
  unfold State.connectIo at h
  split at h
  · cases h
  · split at h
    · cases h
    · dsimp only at h
      split at h
      · cases h
      · rename_i hn
        simp only [Bool.or_eq_true, not_or, Bool.not_eq_true, Option.isSome_eq_false_iff, Option.isNone_iff_eq_none] at hn
        obtain ⟨⟨⟨-, hq⟩, -⟩, -⟩ := hn
        exact hq

/-- The I/O queue that a Connect opens (R39, R41). -/
def newQueue (conn : Nat) (k : HConn) (r : ConnectReq) : SubQ :=
  ⟨r.cntlid, r.sqid, r.qsize, 1 % r.qsize, [], conn, k.vsid, false, none⟩

theorem State.openQueue_sqs (s : State) (conn : Nat) (k : HConn) (r : ConnectReq) :
    (s.openQueue conn k r).hce.sqs = s.hce.sqs ++ [newQueue conn k r] := by
  rw [State.openQueue, State.connCqe_hce_ok, State.sendXport_hce]
  rfl

theorem State.findConn_openQueue {s : State} {conn : Nat} {k : HConn} (r : ConnectReq) (hk : s.findConn conn = some k) :
    (s.openQueue conn k r).findConn conn = some { k with bound := some (r.cntlid, r.sqid) } := by
  rw [State.openQueue, State.findConn_congr (congrArg HceSt.conns ((State.connCqe_hce_ok ..).trans (State.sendXport_hce ..))),
    State.findConn_updConn (f := fun y => { y with bound := some (r.cntlid, r.sqid) }) (fun _ => rfl)]
  exact (congrArg _ hk).trans rfl

/-- The completion carries the head of the queue, which has passed the Connect. -/
theorem State.openQueue_sent {s : State} {r : ConnectReq} (hr : r.sqid ≠ 0) (hs : s.findSq r.cntlid r.sqid = none) (conn : Nat)
    (k : HConn) : s.Sent (s.openQueue conn k r) (.cqe r.cntlid r.sqid r.cid cplSuccess r.cntlid (1 % r.qsize)) := by
  rw [State.findSq] at hs
  rw [State.openQueue]
  refine (State.connCqe_sent_head ?_ ..).before (State.sendXport_kept _ _).out_of
  simp [State.headOf, State.findSq, hr, hs]

/-- The records of an I/O queue that opens: queue, connection, completion. -/
theorem State.openQueue_opens {s : State} {conn : Nat} {k : HConn} {r : ConnectReq} (hk : s.findConn conn = some k)
    (hr : r.sqid ≠ 0) (hs : s.findSq r.cntlid r.sqid = none) :
    ∃ q ∈ (s.openQueue conn k r).hce.sqs, q.cntlid = r.cntlid ∧ q.sqid = r.sqid ∧ q.size = r.qsize ∧ q.conn = conn ∧
      q.vsid = k.vsid ∧ q.sqhd = 1 % r.qsize ∧ q.entries = [] ∧ q.stopped = false ∧
      ((s.openQueue conn k r).findConn conn).map (fun y => y.bound) = some (some (r.cntlid, r.sqid)) ∧
      s.Sent (s.openQueue conn k r) (.cqe r.cntlid r.sqid r.cid cplSuccess r.cntlid (1 % r.qsize)) := by
  refine ⟨newQueue conn k r, ?_, rfl, rfl, rfl, rfl, rfl, rfl, rfl, rfl, ?_, State.openQueue_sent hr hs conn k⟩
  · simp [State.openQueue_sqs]
  · rw [State.findConn_openQueue r hk]
    rfl

theorem connect_opensQueue {s : State} {conn : Nat} {req : ConnectReq} {k : HConn} (hk : s.findConn conn = some k)
    (hb : k.bound = none) (hi : k.transport = .tcp → k.icDone = true) (hq : req.sqid ≠ 0) (ho : s.connectIo k req = none) :
    exec (.connect conn req) s = .next (s.openQueue conn k req) := by
  rw [exec_connect, execConnect_eq hk hb hi, if_neg hq, ho]
  exact congrArg _ (if_neg hq)

/-! ## DH-HMAC-CHAP (R35) -/

@[simp] theorem State.authCqe_conns (s : State) (conn cid : Nat) : (s.authCqe conn cid).hce.conns = s.hce.conns := by
  unfold State.authCqe
  split
  · rw [State.connCqe_hce_ok]
  · split
    · rw [State.adminDone_conns]
    · rw [State.connCqe_hce_ok]; rfl

theorem State.authCqe_out (s : State) (conn cid : Nat) : s.out <:+ (s.authCqe conn cid).out := by
  unfold State.authCqe
  split
  · exact (State.connCqe_kept ..).out
  · split
    · exact (State.adminDone_kept ..).out
    · exact (State.connCqe_kept ..).out_of

/-- What an Authentication Send makes of the exchange, message by message. -/
theorem AuthSt.after_eq (a : AuthSt) (msg : AuthMsg) : a.after msg = match msg, a with
    | .negotiate hs gs concat, _ => (match hs.find? chapHash, gs.find? chapGroup with
      | some h, some g => if concat then .failed false else .challenge h g
      | _, _ => .failed false)
    | .reply resp bi, .challenge h g =>
      if Config.chapGood h g resp then .success h (Config.chapAnswer h g resp) bi else .failed false
    | .reply _ _, _ => .failed false
    | .success2, .success _ _ true => .done
    | .success2, _ => .failed true
    | .failure2, _ => .failed true := by
  cases msg with
  | negotiate hs gs concat => rfl
  | reply resp bi => cases a <;> rfl
  | success2 => rcases a with _ | _ | ⟨_, _, _ | _⟩ | _ | _ <;> rfl
  | failure2 => rfl

/-- An Authentication Send moves the exchange of its connection. -/
theorem State.findConn_authSend {s : State} {conn : Nat} {k : HConn} (hk : s.findConn conn = some k) (cid : Nat) (msg : AuthMsg) :
    ((s.authSend conn cid msg).findConn conn).map (fun y => y.auth) = some (k.auth.after msg) := by
  unfold State.authSend
  rw [State.findConn_congr (State.authCqe_conns ..),
    State.findConn_updConn (by intro _; rfl), hk]
  rfl

/-- An Authentication Receive sends the message of the state the exchange is in, which ends a unidirectional exchange that has
succeeded, and completes. -/
theorem State.authReceive_eq {s : State} {conn : Nat} {k : HConn} (hk : s.findConn conn = some k) (cid : Nat) :
    ∃ (t : State) (bs : List Byte), t.out = s.out ∧
      t.findConn conn = some { k with auth := match k.auth with | .success _ _ false => .done | a => a } ∧
      s.authReceive conn cid = (t.emit (match k.auth with
        | .challenge _ _ => .auth conn 1 0 bs
        | .success h a bi => .auth conn 2 0 (if bi then leBytes (chapLen h) a else [])
        | .failed second => .auth conn (if second then 4 else 3) 1 []
        | .idle => .auth conn 3 1 []
        | .done => .auth conn 2 0 [])).authCqe conn cid := by
  have hsame : ∀ a, k.auth = a → s.findConn conn = some { k with auth := a } := fun a h => by rw [hk, ← h]
  unfold State.authReceive
  cases ha : k.auth with
  | success h a bi =>
    cases bi with
    | true => exact ⟨s, [], rfl, hsame _ ha, by simp only [hk, ha]; rfl⟩
    | false =>
      refine ⟨s.updConn conn (fun y => { y with auth := .done }), [], rfl, ?_, by simp only [hk, ha]; rfl⟩
      rw [State.findConn_updConn (by intro _; rfl), hk]
      rfl
  | challenge h g => refine ⟨s.tookFree, leBytes 1 h ++ leBytes 1 g ++ leBytes (chapLen h) s.freeNow, rfl, hsame _ ha, by simp only [hk, ha]⟩
  | failed second => exact ⟨s, [], rfl, hsame _ ha, by simp only [hk, ha]⟩
  | idle => exact ⟨s, [], rfl, hsame _ ha, by simp only [hk, ha]⟩
  | done => exact ⟨s, [], rfl, hsame _ ha, by simp only [hk, ha]⟩

/-- Authentication runs on the connection's state, or on that of the admin queue it carries, which has taken the capsule. -/
theorem execAuthenticationSend_eq {s : State} {conn : Nat} {k : HConn} (hk : s.findConn conn = some k)
    (ha : ∀ c, k.adminOf = some c → ∃ x, s.TakesAdmin c x) (cid : Nat) (msg : AuthMsg) :
    ∃ t : State, t.findConn conn = some k ∧ s.out <:+ t.out ∧
      execAuthenticationSend conn cid msg s = .next (t.authSend conn cid msg) := by
  unfold execAuthenticationSend
  rw [hk]
  cases hc : k.adminOf with
  | none => exact ⟨s, hk, List.suffix_refl _, by simp only [hc]⟩
  | some c =>
    obtain ⟨x, hx⟩ := ha c hc
    refine ⟨_, ?_, (State.takeAdmin_kept ..).out, by simp only [hc]; rw [State.adminSubmit_takes hx rfl]⟩
    rw [State.findConn_congr (State.takeAdmin_conns ..), hk]

theorem execAuthenticationReceive_eq {s : State} {conn : Nat} {k : HConn} (hk : s.findConn conn = some k)
    (ha : ∀ c, k.adminOf = some c → ∃ x, s.TakesAdmin c x) (cid : Nat) :
    ∃ t : State, t.findConn conn = some k ∧ s.out <:+ t.out ∧
      execAuthenticationReceive conn cid s = .next (t.authReceive conn cid) := by
  unfold execAuthenticationReceive
  rw [hk]
  cases hc : k.adminOf with
  | none => exact ⟨s, hk, List.suffix_refl _, by simp only [hc]⟩
  | some c =>
    obtain ⟨x, hx⟩ := ha c hc
    refine ⟨_, ?_, (State.takeAdmin_kept ..).out, by simp only [hc]; rw [State.adminSubmit_takes hx rfl]⟩
    rw [State.findConn_congr (State.takeAdmin_conns ..), hk]

/-! ## Connection loss (R42, R69) -/

theorem State.dropConn_conns (s : State) (c : Nat) : (s.dropConn c).hce.conns = s.hce.conns.filter (fun x => x.id ≠ c) := by
  unfold State.dropConn
  split <;> simp

theorem State.loseConn_unbound {s : State} {conn : Nat} {k : HConn} (hk : s.findConn conn = some k) (hb : k.bound = none) :
    s.loseConn conn = s.dropConn conn := by
  unfold State.loseConn
  rw [hk]
  dsimp only
  rw [hb]

/-- A controller's admin connection that is its last goes with a reset of the controller. -/
theorem State.loseConn_admin {s : State} {conn c : Nat} {k : HConn} (hk : s.findConn conn = some k) (hb : k.bound = some (c, 0))
    (hl : ∀ y ∈ s.hce.conns, y.id ≠ conn → ∀ r, y.bound ≠ some (c, r)) :
    s.loseConn conn = (s.dropConn conn).beginReset c none true := by
  have hno : ¬ (s.dropConn conn).hce.conns.any (fun y => match y.bound with | some (d, _) => d = c | none => false) = true := by
    rw [State.dropConn_conns, List.any_eq_true]
    rintro ⟨y, hy, h⟩
    obtain ⟨hm, hi⟩ := List.mem_filter.mp hy
    cases hy : y.bound with
    | none => simp [hy] at h
    | some b =>
      obtain ⟨d, r⟩ := b
      simp only [hy, decide_eq_true_eq] at h
      exact hl y hm (by simpa using hi) r (by rw [hy, h])
  unfold State.loseConn
  rw [hk]
  dsimp only
  rw [hb]
  dsimp only
  rw [if_pos rfl]
  exact if_neg hno

/-- Every record of a controller in reset says so (R69). -/
theorem State.beginReset_marks (s : State) (c : Nat) (d : Option Nat) :
    ∀ x ∈ (s.beginReset c d true).hce.ctrls, x.cntlid = c → x.resetting = true ∧ x.resetEnds = true ∧ x.ccEn = false := by
  intro x hx hc
  cases hf : s.findCtrl c with
  | none =>
    have he : s.beginReset c d true = s := by unfold State.beginReset; rw [hf]
    rw [he] at hx
    exact absurd hc (by simpa using List.find?_eq_none.mp hf x hx)
  | some y =>
    rw [State.beginReset_ctrls hf, updWhere, List.mem_map] at hx
    obtain ⟨z, -, rfl⟩ := hx
    by_cases hz : z.cntlid = c
    · simp [hz]
    · simp [hz] at hc

/-! ## The obligation -/

/-- Settles O10: each command of a connection by its own rule above. -/
theorem connectionsOpenAndAuthenticate : Obligations.ConnectionsOpenAndAuthenticate := by
  refine ⟨?_, ?_, ?_, ?_, ?_, ?_, ?_, ?_⟩
  · exact fun s conn port addr qp mtu v hv hc => rdmaCmConnectionRequest_gives qp mtu hv hc
  · exact fun s conn port addr mss v hv hc => tcpSyn_gives mss hv hc
  · exact fun s conn hdgst ddgst k hk ht hi => icreq_gives hdgst ddgst hk ht hi
  · intro s conn req k hk hb hi
    refine ⟨fun st hst => connect_refused hk hb hi hst, fun hq ho => ?_, fun hq ho => ?_⟩
    · exact ⟨_, connect_opensAssoc hk hb hi hq ho, State.openAssoc_opens req hk⟩
    · exact ⟨_, connect_opensQueue hk hb hi hq ho, State.openQueue_opens hk hq (State.findSq_of_connectIo ho)⟩
  · intro s conn cid msg k hk ha
    obtain ⟨t, ht, -, he⟩ := execAuthenticationSend_eq hk ha cid msg
    exact ⟨_, (exec_authenticationSend ..).trans he,
      (State.findConn_authSend ht cid msg).trans (congrArg some (AuthSt.after_eq ..))⟩
  · intro s conn cid k hk ha
    obtain ⟨t, ht, ho, he⟩ := execAuthenticationReceive_eq hk ha cid
    obtain ⟨v, bs, hv, hf, hr⟩ := State.authReceive_eq ht cid
    refine ⟨_, (exec_authenticationReceive ..).trans (he.trans (congrArg _ hr)), ⟨bs, ?_⟩, ?_⟩
    · exact .later (.before (by rw [hv]; exact ho) (.emit _ _)) (State.authCqe_out ..)
    · rw [State.findConn_congr (State.authCqe_conns ..), State.findConn_congr (s := v) (congrArg HceSt.conns (State.emit_hce ..)), hf]
      rfl
  · intro s conn k hk hb
    refine ⟨_, (exec_connectionLoss ..).trans (congrArg Host.Outcome.next (State.loseConn_unbound hk hb)), ?_, by simp, by simp⟩
    simp [State.findConn, State.dropConn_conns]
  · intro s conn k c hk hb hl
    exact ⟨_, (exec_connectionLoss ..).trans (congrArg Host.Outcome.next (State.loseConn_admin hk hb hl)), State.beginReset_marks _ _ _⟩

end Sys2Proof.Machine
end

section
/-! PROOFS. Properties, Keep Alive, Disconnect, and the ends of controllers and queues (R38 to R44, R69 to R72). -/

namespace Sys2Proof.Machine

/-! ## Properties (R44, R69, R71) -/

/-- A write of CC that sets EN enables the controller. -/
theorem State.findCtrl_writeCc_enable {s : State} {c v : Nat} {x : Ctrl} (h : s.findCtrl c = some x) (hr : x.resetting = false)
    (he : x.ccEn = false) (hv : v % 2 = 1) (hs : bitsOf v 15 14 = 0) :
    (s.writeCc c v).findCtrl c = some { x with cc := v, ccEn := true, rdy := true, shn := 0, shst := 0 } := by
  unfold State.writeCc
  rw [h]
  dsimp only
  rw [State.findCtrl_congr (congrArg HceSt.ctrls (State.sendXport_hce ..)), if_neg (by simp [hs]), if_neg (by simp [hs]),
    if_neg (by simp [he]), if_pos (by simp [he, hv, hr]), State.findCtrl_updCtrl (by intro _; rfl),
    State.findCtrl_updCtrl (by intro _; rfl), h]
  rfl

/-- A write of CC that clears EN begins a controller reset that keeps the association as it was. -/
theorem State.findCtrl_writeCc_reset {s : State} {c v : Nat} {x : Ctrl} (h : s.findCtrl c = some x) (he : x.ccEn = true)
    (hv : v % 2 = 0) (hs : bitsOf v 15 14 = 0) :
    (s.writeCc c v).findCtrl c = some { x with
      cc := v, ccEn := false, resetting := true, resetDisc := none, resetEnds := x.resetEnds || false, aers := [], aborts := [],
      adminWait := [], events := [] } := by
  unfold State.writeCc
  rw [h]
  dsimp only
  rw [State.findCtrl_congr (congrArg HceSt.ctrls (State.sendXport_hce ..)), if_neg (by simp [hs]), if_neg (by simp [hs]),
    if_pos (by simp [he, hv]), State.findCtrl_beginReset (x := { x with cc := v })]
  · rfl
  · rw [State.findCtrl_updCtrl (by intro _; rfl), h]
    rfl

/-- A write of CC that asks for a normal shutdown begins one. -/
theorem State.findCtrl_writeCc_shutdown {s : State} {c v : Nat} {x : Ctrl} (h : s.findCtrl c = some x) (he : x.ccEn = true)
    (hv : v % 2 = 1) (hs : bitsOf v 15 14 = 1) (hn : x.shn = 0) :
    (s.writeCc c v).findCtrl c = some { x with cc := v, shn := 1, shst := 1 } := by
  unfold State.writeCc
  rw [h]
  dsimp only
  rw [State.findCtrl_congr (congrArg HceSt.ctrls (State.sendXport_hce ..)), if_pos (by simp [hs, hn]), if_neg (by simp [hv]),
    if_neg (by simp [he]), State.findCtrl_updCtrl (by intro _; rfl), State.findCtrl_updCtrl (by intro _; rfl), h]
  rfl

/-- A Property Set of CC that its controller takes completes with Success, and leaves the record that the write of CC made. -/
theorem propertySet_cc {s : State} {c : Nat} {x y : Ctrl} (h : s.TakesAdmin c x) (cid v : Nat)
    (hw : ∀ u : State, u.findCtrl c = some { x with adminSqhd := x.nextSqhd } → (u.writeCc c v).findCtrl c = some y)
    (hy : y.adminSqhd = x.nextSqhd) :
    Gives (.propertySet c cid 0x14 v) s fun t =>
      t.findCtrl c = some y ∧ s.Sent t (.cqe c 0 cid cplSuccess 0 x.nextSqhd) := by
  refine .of_taken h (exec_propertySet ..) rfl ?_
  have hw := hw _ (h.taken cid 0x7F (adminArgs (.propertySet c cid 0x14 v)))
  rw [State.doPropertySet, if_pos rfl]
  refine ⟨(State.findCtrl_adminDone_ok ..).trans hw, State.adminDone_sent_head ?_ hw hy ..⟩
  exact (s.takeAdmin_kept ..).out.trans (State.writeCc_kept ..).out

theorem propertySet_other {s : State} {c : Nat} {x : Ctrl} (h : s.TakesAdmin c x) {offset : Nat} (ho : offset ≠ 0x14)
    (cid v : Nat) :
    Gives (.propertySet c cid offset v) s fun t => s.Sent t (.cqe c 0 cid cplInvalidField 0 x.nextSqhd) := by
  refine .of_taken h (exec_propertySet ..) rfl ?_
  rw [State.doPropertySet, if_neg ho]
  exact h.done_sent ..

/-- The status and the value that a Property Get returns: MQES, CQR and the command set of CAP; VS; CC with its EN as it
stands; CSTS; another offset is refused (R44). -/
def Ctrl.PropertyReads (x : Ctrl) (offset : Nat) (st : CplStatus) (dw0 : Nat) : Prop :=
  (offset = 0x00 → st = cplSuccess ∧ dw0 % 2 ^ 16 = 4095 ∧ dw0 / 2 ^ 16 % 2 = 1 ∧ dw0 / 2 ^ 37 % 2 = 1) ∧
  (offset = 0x08 → st = cplSuccess ∧ dw0 = Config.nvmeVersion % 2 ^ 32) ∧
  (offset = 0x14 → st = cplSuccess ∧ dw0 = x.cc / 2 * 2 + (if x.ccEn then 1 else 0)) ∧
  (offset = 0x1C → st = cplSuccess ∧ dw0 = (if x.rdy then 1 else 0) + 4 * x.shst) ∧
  (offset ≠ 0x00 → offset ≠ 0x08 → offset ≠ 0x14 → offset ≠ 0x1C → st = cplInvalidField)

/-- CAP, whatever its free byte. -/
theorem Ctrl.propertyReads_cap (x : Ctrl) (f : Nat) :
    x.PropertyReads 0x00 cplSuccess (4095 + 2 ^ 16 + 2 ^ 24 * (f % 256) + 2 ^ 37) :=
  ⟨fun _ => ⟨rfl, by omega, by omega, by omega⟩, nofun, nofun, nofun, fun h => absurd rfl h⟩

theorem State.doPropertyGet_eq {s : State} {c : Nat} {x : Ctrl} (hx : s.findCtrl c = some x) (cid offset : Nat) :
    ∃ (t : State) (st : CplStatus) (dw0 : Nat), t.findCtrl c = some x ∧ t.out = s.out ∧
      s.doPropertyGet c cid offset = t.adminDone c cid st dw0 ∧ x.PropertyReads offset st dw0 := by
  unfold State.doPropertyGet
  rw [hx]
  dsimp only
  by_cases h0 : offset = 0x00
  · rw [if_pos h0, h0]
    exact ⟨s.tookFree, _, _, hx, rfl, rfl, x.propertyReads_cap _⟩
  rw [if_neg h0]
  by_cases h8 : offset = 0x08
  · rw [if_pos h8, h8]
    exact ⟨s, _, _, hx, rfl, rfl, nofun, fun _ => ⟨rfl, rfl⟩, nofun, nofun, fun _ h => absurd rfl h⟩
  rw [if_neg h8]
  by_cases h14 : offset = 0x14
  · rw [if_pos h14, h14]
    exact ⟨s, _, _, hx, rfl, rfl, nofun, nofun, fun _ => ⟨rfl, rfl⟩, nofun, fun _ _ h => absurd rfl h⟩
  rw [if_neg h14]
  by_cases h1C : offset = 0x1C
  · rw [if_pos h1C, h1C]
    exact ⟨s, _, _, hx, rfl, rfl, nofun, nofun, nofun, fun _ => ⟨rfl, rfl⟩, fun _ _ _ h => absurd rfl h⟩
  rw [if_neg h1C]
  exact ⟨s, _, _, hx, rfl, rfl, fun h => absurd h h0, fun h => absurd h h8, fun h => absurd h h14, fun h => absurd h h1C,
    fun _ _ _ _ => rfl⟩

/-- Property Get is taken in a reset that keeps the association too. -/
theorem propertyGet_gives {s : State} {c : Nat} {x : Ctrl} (hx : s.findCtrl c = some x)
    (hr : x.resetting = true → x.resetEnds = false) (hw : x.adminWait = []) (hz : 1 < x.adminSize)
    (ha : s.mbx.activating = none) (hb : s.adminBusy x < 32) (cid offset : Nat) :
    Gives (.propertyGet c cid offset) s fun t => ∃ st dw0,
      s.Sent t (.cqe c 0 cid st dw0 x.nextSqhd) ∧ x.PropertyReads offset st dw0 := by
  have hrun := State.adminSubmit_runs (cid := cid) (op := 0x7F) (i := .propertyGet c cid offset) hx
    (fun h => by simp [Ctrl.resetTakes, hr h]) hw hz ha hb rfl
  have hu := State.findCtrl_takeAdmin hx hw cid 0x7F (adminArgs (.propertyGet c cid offset))
  obtain ⟨t, st, dw0, ht, ho, he, hvals⟩ := State.doPropertyGet_eq hu cid offset
  refine ⟨_, (exec_propertyGet ..).trans (congrArg Host.Outcome.next (hrun.trans he)), st, dw0, ?_, hvals⟩
  exact State.adminDone_sent_head (by rw [ho]; exact (s.takeAdmin_kept ..).out) ht rfl ..

/-! ## Keep Alive (R38, R43, R300, R433) -/

theorem keepAlive_gives {s : State} {c : Nat} {x : Ctrl} (hx : s.findCtrl c = some x) (hr : x.resetting = false) (cid : Nat) :
    Gives (.keepAlive c cid) s fun t =>
      t.findCtrl c = some { x.passed with
        kaDeadline := if x.kato = 0 then none else some (s.now + ms (100 * ceilDiv x.kato 100)) } ∧
      s.Sent t (.cqe c 0 cid cplSuccess 0 x.passed.adminSqhd) := by
  have hk : x.passed.kato = x.kato := by unfold Ctrl.passed; split <;> rfl
  have hu : ((s.takeAdmin c cid 0x18 []).updCtrl c (fun y => { y with
      kaDeadline := if y.kato = 0 then none else some (s.now + katoNs y.kato) })).findCtrl c = some { x.passed with
      kaDeadline := if x.kato = 0 then none else some (s.now + ms (100 * ceilDiv x.kato 100)) } := by
    rw [State.findCtrl_updCtrl (by intro _; rfl), State.findCtrl_takeAdmin_passed hx, ← hk]
    rfl
  refine ⟨_, (exec_keepAlive ..).trans (congrArg Host.Outcome.next (State.adminBeside_runs hx hr ..)), ?_, ?_⟩
  · exact (State.findCtrl_adminDone_ok ..).trans hu
  · refine State.adminDone_sent_head ?_ hu rfl ..
    exact (s.takeAdmin_kept c cid 0x18 []).out

theorem keepAliveTimeout_gives {s : State} {c : Nat} {x : Ctrl} {d : Nat} (hx : s.findCtrl c = some x)
    (hd : x.kaDeadline = some d) (hn : d ≤ s.now) (hf : ∀ v, s.findVs x.vsid = some v → v.st ≠ .frozen)
    (ha : s.mbx.activating = none) (hr : x.resetting = false) :
    Gives (.keepAliveTimeout c) s fun t => ∃ y, t.findCtrl c = some y ∧ y.resetting = true ∧ y.resetEnds = true ∧
      y.ccEn = false ∧ y.kaDeadline = none := by
  have he : execKeepAliveTimeout c s = .next (s.beginReset c none true) := by
    unfold execKeepAliveTimeout
    rw [hx]
    dsimp only
    refine if_pos ?_
    cases hv : s.findVs x.vsid with
    | none => simp [due, hd, hn, ha, hr]
    | some v => simp [due, hd, hn, ha, hr, hf v hv]
  exact ⟨_, (exec_keepAliveTimeout ..).trans he, _, State.findCtrl_beginReset hx none true, rfl, Bool.or_true _, rfl, rfl⟩

/-! ## Disconnect (R72) -/

theorem disconnect_admin {s : State} {c : Nat} {x : Ctrl} (h : s.TakesAdmin c x) (cid : Nat) :
    Gives (.disconnect c 0 cid) s fun t => ∃ y, t.findCtrl c = some y ∧ y.resetting = true ∧ y.resetEnds = true ∧
      y.resetDisc = some cid ∧ y.ccEn = false := by
  refine .of_taken h ((exec_disconnect ..).trans (by rw [execDisconnect, h.1]; rfl)) rfl ?_
  exact ⟨_, State.findCtrl_beginReset (h.taken ..) (some cid) true, rfl, Bool.or_true _, rfl, rfl⟩

/-- The capsules of a queue complete, and the queue is empty. -/
theorem State.findSq_flushQueue {s : State} {c sqid : Nat} {q : SubQ} (hq : s.findSq c sqid = some q) :
    (s.flushQueue q).findSq c sqid = some { q with
      entries := [], sqhd := (q.sqhd + q.entries.length) % Nat.max q.size 1 } := by
  obtain ⟨rfl, rfl⟩ := State.ids_of_findSq hq
  unfold State.flushQueue
  dsimp only
  rw [State.findSq_congr (foldl_frame (g := fun u => u.hce.sqs) (fun u cid => by simp) _ _),
    State.findSq_updSq (by intro _; exact ⟨rfl, rfl⟩), hq]
  rfl

theorem disconnect_io {s : State} {c sqid : Nat} {x : Ctrl} {q : SubQ} (hx : s.findCtrl c = some x) (h0 : sqid ≠ 0)
    (hq : s.findSq c sqid = some q) (hd : q.disc = none) (cid : Nat) :
    Gives (.disconnect c sqid cid) s fun t => ∃ y, t.findSq c sqid = some y ∧ y.stopped = true ∧ y.disc = some cid ∧
      y.entries = [] ∧ y.sqhd = (q.sqhd + q.entries.length) % Nat.max q.size 1 := by
  unfold Gives
  rw [exec_disconnect, execDisconnect, hx]
  dsimp only
  rw [if_neg h0, hq]
  dsimp only
  rw [if_neg (by simp [hd])]
  refine ⟨_, rfl, { q with
    entries := [], sqhd := (q.sqhd + q.entries.length) % Nat.max q.size 1, stopped := true, disc := some cid },
    ?_, rfl, rfl, rfl, rfl⟩
  rw [State.findSq_congr (foldl_frame (g := fun u => u.hce.sqs) (fun u k => State.squash_sqs ..) _ _),
    State.findSq_updSq (by intro _; exact ⟨rfl, rfl⟩), State.findSq_flushQueue hq]
  rfl

/-- A queue that is wound up is gone. -/
theorem State.findSq_endQueue (s : State) (c q : Nat) : (s.endQueue c q).findSq c q = none := by
  refine List.find?_eq_none.mpr fun x hx => ?_
  simpa [imp_iff_not_or] using (List.mem_filter.mp hx).2

theorem disconnectComplete_gives {s : State} {c sqid cid : Nat} {q : SubQ} (hq : s.findSq c sqid = some q)
    (hd : q.disc = some cid) (h0 : sqid ≠ 0)
    (ht : ∀ r ∈ s.hce.tags, r.cntlid = c → r.sqid = sqid → r.st = .responding) :
    Gives (.disconnectComplete c sqid) s fun t => s.Sent t (.cqe c sqid cid cplSuccess 0 q.sqhd) ∧ t.findSq c sqid = none := by
  have he : execDisconnectComplete c sqid s =
      .next (((s.postCqe c sqid cid cplSuccess 0 0).endQueue c sqid).dropConn q.conn) := by
    unfold execDisconnectComplete
    rw [hq]
    dsimp only
    rw [hd]
    refine if_neg ?_
    rw [List.any_eq_true]
    rintro ⟨r, hr, h⟩
    simp only [Bool.and_eq_true, decide_eq_true_eq] at h
    obtain ⟨⟨h1, h2⟩, h3⟩ := h
    exact h3 (ht r hr h1 h2)
  have hh : s.headOf c sqid = q.sqhd := by simp [State.headOf, h0, hq]
  refine ⟨_, (exec_disconnectComplete ..).trans he, ?_, ?_⟩
  · rw [← hh]
    exact (s.postCqe_sent ..).later ((State.endQueue_kept ..).out.trans (State.dropConn_kept ..).out)
  · rw [State.findSq_congr (State.dropConn_sqs ..), State.findSq_endQueue]

/-! ## The ends of controllers (R69 to R72) -/

/-- The record of an association that ends is gone. -/
theorem State.findCtrl_endAssoc (s : State) (c : Nat) : (s.endAssoc c).findCtrl c = none := by
  unfold State.endAssoc
  split
  · next h => exact h
  · simp [State.findCtrl, List.find?_filter]

theorem controllerResetComplete_gives {s : State} {c : Nat} {x : Ctrl} (hx : s.findCtrl c = some x) (hr : x.resetting = true)
    (ht : ∀ r ∈ s.hce.tags, r.cntlid ≠ c) :
    Gives (.controllerResetComplete c) s fun t =>
      if x.resetEnds = true then t.findCtrl c = none
      else t.findCtrl c = some { x with rdy := false, resetting := false, resetDisc := none } := by
  have hc : ¬((!x.resetting || s.hce.tags.any (fun r => r.cntlid = c)) = true) := by
    simpa [hr] using ht
  unfold Gives
  rw [exec_controllerResetComplete, execControllerResetComplete, hx]
  dsimp only
  rw [if_neg hc]
  by_cases hE : x.resetEnds = true
  · rw [if_pos hE]
    exact ⟨_, rfl, by rw [if_pos hE]; exact State.findCtrl_endAssoc _ _⟩
  · rw [if_neg hE]
    refine ⟨_, rfl, ?_⟩
    rw [if_neg hE, State.findCtrl_congr (congrArg HceSt.ctrls (State.sendXport_hce ..)),
      State.findCtrl_congr (foldl_frame (g := fun u => u.hce.ctrls) State.closeConn_ctrls _ _)]
    have hu : (s.updCtrl c (fun y => { y with rdy := false, resetting := false, resetDisc := none })).findCtrl c =
        some { x with rdy := false, resetting := false, resetDisc := none } := by
      rw [State.findCtrl_updCtrl (by intro _; rfl), hx]
      rfl
    cases x.resetDisc with
    | none => exact hu
    | some cid => exact (State.findCtrl_congr (congrArg HceSt.ctrls (State.adminCqe_hce_ok ..)) c).trans hu

theorem shutdownComplete_gives {s : State} {c : Nat} {x : Ctrl} (hx : s.findCtrl c = some x) (hs : x.shst = 1)
    (hr : x.resetting = false) (ht : ∀ r ∈ s.hce.tags, r.cntlid = c → r.st = .responding) :
    Gives (.shutdownComplete c) s fun t => t.findCtrl c = some { x with shst := 2 } := by
  have hc : ¬((decide (x.shst ≠ 1) || x.resetting || s.hce.tags.any (fun r => r.cntlid = c && r.st ≠ .responding)) = true) := by
    simpa [hs, hr] using ht
  unfold Gives
  rw [exec_shutdownComplete, execShutdownComplete, hx]
  dsimp only
  rw [if_neg hc]
  refine ⟨_, rfl, ?_⟩
  rw [State.findCtrl_congr (congrArg HceSt.ctrls (State.sendXport_hce ..)), State.findCtrl_updCtrl (by intro _; rfl), hx]
  rfl

/-! ## The obligation -/

/-- Settles O11: each command by its own rule above. -/
theorem associationsLiveAndEnd : Obligations.AssociationsLiveAndEnd := by
  refine ⟨?_, ?_, ?_, ?_, ?_, ?_, ?_, ?_, ?_, ?_, ?_, ?_⟩
  · exact fun s c cid offset value x h ho => propertySet_other h ho cid value
  · intro s c cid value x h he hv hs
    exact propertySet_cc h cid value (fun u hu => State.findCtrl_writeCc_enable hu h.2.1 he hv hs) rfl
  · intro s c cid value x h he hv hs
    obtain ⟨t, ht, hf, hsent⟩ := propertySet_cc h cid value (fun u hu => State.findCtrl_writeCc_reset hu he hv hs) rfl
    exact ⟨t, ht, ⟨_, hf, rfl, Bool.or_false _, rfl, rfl, rfl⟩, hsent⟩
  · intro s c cid value x h he hv hs hn
    obtain ⟨t, ht, hf, -⟩ := propertySet_cc h cid value (fun u hu => State.findCtrl_writeCc_shutdown hu he hv hs hn) rfl
    exact ⟨t, ht, hf⟩
  · exact fun s c cid offset x hx hr hw hz ha hb => propertyGet_gives hx hr hw hz ha hb cid offset
  · exact fun s c cid x hx hr => keepAlive_gives hx hr cid
  · exact fun s c x d hx hd hn hf ha hr => keepAliveTimeout_gives hx hd hn hf ha hr
  · exact fun s c cid x h => disconnect_admin h cid
  · exact fun s c sqid cid x q hx h0 hq hd => disconnect_io hx h0 hq hd cid
  · exact fun s c sqid cid q hq hd h0 ht => disconnectComplete_gives hq hd h0 ht
  · exact fun s c x hx hr ht => controllerResetComplete_gives hx hr ht
  · exact fun s c x hx hs hr ht => shutdownComplete_gives hx hs hr ht

end Sys2Proof.Machine
end

section
/-! PROOFS. Identify, Get Log Page, features, Asynchronous Event Request, Abort and invalid admin opcodes (R40, R44 to R51, R64
to R68). -/

namespace Sys2Proof.Machine

/-- The data of an admin command leaves, then its completion with Success. -/
theorem State.adminData_sent_head {s t : State} {c n : Nat} {y : Ctrl} (ho : s.out <:+ t.out) (hy : t.findCtrl c = some y)
    (hn : y.adminSqhd = n) (cid : Nat) (bs : List Byte) :
    s.Sent (t.adminData c cid bs) (.adminData c cid bs) ∧ s.Sent (t.adminData c cid bs) (.cqe c 0 cid cplSuccess 0 n) := by
  have ho' := (State.Sent.emit t (.adminData c cid bs)).before ho
  refine ⟨ho'.later ((State.hostFrames_kept ..).out.trans (State.adminDone_kept ..).out), ?_⟩
  refine State.adminDone_sent_head ?_ (y := y) ?_ hn ..
  · exact (ho.trans (List.suffix_cons _ _)).trans (State.hostFrames_kept (t.emit (.adminData c cid bs)) ..).out
  · rw [State.findCtrl_congr (congrArg HceSt.ctrls ((State.hostFrames_hce ..).trans (State.emit_hce ..))), hy]

theorem State.findCtrl_adminData (s : State) (c cid : Nat) (bs : List Byte) (k : Nat) :
    (s.adminData c cid bs).findCtrl k = s.findCtrl k := by
  rw [State.adminData, State.findCtrl_adminDone_ok,
    State.findCtrl_congr (congrArg HceSt.ctrls ((State.hostFrames_hce ..).trans (State.emit_hce ..)))]

/-! ## Identify (R44, R49) -/

/-- Identify returns data for the structures of a controller, and for those of a namespace of its subsystem. -/
theorem State.doIdentify_data {s : State} {c : Nat} {x : Ctrl} (hx : s.findCtrl c = some x) {cns nsid : Nat}
    (h : cns = 0x01 ∨ cns = 0x02 ∨ cns = 0x06 ∨
      ((cns = 0x00 ∨ cns = 0x03 ∨ cns = 0x05 ∨ cns = 0x08) ∧ (s.findNs x.vsid nsid).isSome = true)) (cid : Nat) :
    ∃ bs, s.doIdentify c cid cns nsid = s.adminData c cid bs := by
  unfold State.doIdentify
  rw [hx]
  rcases h with rfl | rfl | rfl | ⟨h, hn⟩
  · exact ⟨_, rfl⟩
  · exact ⟨_, rfl⟩
  · exact ⟨_, rfl⟩
  · obtain ⟨n, hn⟩ := Option.isSome_iff_exists.mp hn
    dsimp only
    rw [hn]
    rcases h with rfl | rfl | rfl | rfl <;> exact ⟨_, rfl⟩

theorem State.doIdentify_invalidNs {s : State} {c : Nat} {x : Ctrl} (hx : s.findCtrl c = some x) {cns nsid : Nat}
    (h : cns = 0x00 ∨ cns = 0x03 ∨ cns = 0x05 ∨ cns = 0x08) (hn : s.findNs x.vsid nsid = none) (cid : Nat) :
    s.doIdentify c cid cns nsid = s.adminDone c cid cplInvalidNs 0 := by
  unfold State.doIdentify
  rw [hx]
  dsimp only
  rw [hn]
  rcases h with rfl | rfl | rfl | rfl <;> rfl

theorem State.doIdentify_invalidField {s : State} {c : Nat} {x : Ctrl} (hx : s.findCtrl c = some x) {cns : Nat}
    (h1 : cns ≠ 0x01) (h2 : cns ≠ 0x02) (h6 : cns ≠ 0x06) (h : ¬(cns = 0x00 ∨ cns = 0x03 ∨ cns = 0x05 ∨ cns = 0x08))
    (cid nsid : Nat) : s.doIdentify c cid cns nsid = s.adminDone c cid cplInvalidField 0 := by
  unfold State.doIdentify
  rw [hx]
  dsimp only
  rw [if_neg h1, if_neg h6, if_neg h2]
  exact if_neg (by simpa [or_assoc] using h)

theorem identify_gives {s : State} {c : Nat} {x : Ctrl} (h : s.TakesAdmin c x) (cid cns nsid : Nat) :
    Gives (.identify c cid cns nsid) s fun t =>
      if cns = 0x01 ∨ cns = 0x02 ∨ cns = 0x06 ∨
          ((cns = 0x00 ∨ cns = 0x03 ∨ cns = 0x05 ∨ cns = 0x08) ∧ (s.findNs x.vsid nsid).isSome = true) then
        (∃ bs, s.Sent t (.adminData c cid bs)) ∧ s.Sent t (.cqe c 0 cid cplSuccess 0 x.nextSqhd)
      else if cns = 0x00 ∨ cns = 0x03 ∨ cns = 0x05 ∨ cns = 0x08 then s.Sent t (.cqe c 0 cid cplInvalidNs 0 x.nextSqhd)
      else s.Sent t (.cqe c 0 cid cplInvalidField 0 x.nextSqhd) := by
  refine .of_taken h (exec_identify ..) rfl ?_
  have hu := h.taken cid 0x06 (adminArgs (.identify c cid cns nsid))
  have hns := State.findNs_congr (s.takeAdmin_vsm c cid 0x06 (adminArgs (.identify c cid cns nsid))) x.vsid nsid
  split
  · next hd =>
    rw [← hns] at hd
    obtain ⟨bs, he⟩ := State.doIdentify_data hu hd cid
    rw [he]
    have hsent := State.adminData_sent_head (s.takeAdmin_kept ..).out hu rfl cid bs
    exact ⟨⟨bs, hsent.1⟩, hsent.2⟩
  · next hd =>
    simp only [not_or, not_and, Option.not_isSome_iff_eq_none] at hd
    obtain ⟨h1, h2, h6, hn⟩ := hd
    split
    · next hc =>
      rw [State.doIdentify_invalidNs hu hc (hns.trans (hn (by simpa only [← not_or, not_not] using hc)))]
      exact h.done_sent ..
    · next hc =>
      rw [State.doIdentify_invalidField hu h1 h2 h6 hc]
      exact h.done_sent ..

/-! ## Features (R40, R47) -/

theorem not_isMoved_hceHcfg : ¬ IsMoved Reg.hceHcfg := by
  unfold IsMoved
  decide

/-- A taken capsule leaves what the grant of queues rests on (R40). -/
theorem State.grantQueues_takeAdmin (s : State) (c cid op : Nat) (args : List Nat) (x : Ctrl) (value : Nat) :
    (s.takeAdmin c cid op args).grantQueues x value = s.grantQueues x value := by
  have hcfg := (s.takeAdmin_kept c cid op args).cfg_eq rfl not_isMoved_hceHcfg 23 16
  simp only [State.grantQueues, State.qpUsed, State.findVs, State.takeAdmin_sqs, State.takeAdmin_vsm, hcfg]

theorem setFeatures_queues {s : State} {c : Nat} {x : Ctrl} (h : s.TakesAdmin c x) (cid value : Nat) :
    Gives (.setFeatures c cid 0x07 value false) s fun t =>
      t.findCtrl c = some { x with adminSqhd := x.nextSqhd, granted := s.grantQueues x value } ∧
      s.Sent t (.cqe c 0 cid cplSuccess ((s.grantQueues x value - 1) * 2 ^ 16 + (s.grantQueues x value - 1)) x.nextSqhd) := by
  refine .of_taken h (exec_setFeatures ..) rfl ?_
  have hu := h.taken cid 0x09 (adminArgs (.setFeatures c cid 0x07 value false))
  have hg : (s.takeAdmin c cid 0x09 (adminArgs (.setFeatures c cid 0x07 value false))).grantQueues
      { x with adminSqhd := x.nextSqhd } value = s.grantQueues x value := State.grantQueues_takeAdmin ..
  have ho := (s.takeAdmin_kept c cid 0x09 (adminArgs (.setFeatures c cid 0x07 value false))).out
  generalize s.takeAdmin c cid 0x09 (adminArgs (.setFeatures c cid 0x07 value false)) = u at hu hg ho
  rw [State.doSetFeature, hu]
  dsimp only
  rw [if_neg (by decide), if_neg (by decide), if_pos rfl, hg]
  have hf : ((u.updCtrl c (fun y => { y with granted := s.grantQueues x value })).sendXport x.conn).findCtrl c =
      some { x with adminSqhd := x.nextSqhd, granted := s.grantQueues x value } := by
    rw [State.findCtrl_congr (congrArg HceSt.ctrls (State.sendXport_hce ..)), State.findCtrl_updCtrl (by intro _; rfl), hu]
    rfl
  refine ⟨(State.findCtrl_adminDone_ok ..).trans hf, State.adminDone_sent_head ?_ hf rfl ..⟩
  exact ho.trans (State.sendXport_kept (u.updCtrl c _) x.conn).out

theorem setFeatures_unknown {s : State} {c : Nat} {x : Ctrl} (h : s.TakesAdmin c x) {fid : Nat} (hf : featKnown fid = false)
    (cid value : Nat) (save : Bool) :
    Gives (.setFeatures c cid fid value save) s fun t => s.Sent t (.cqe c 0 cid cplInvalidField 0 x.nextSqhd) := by
  refine .of_taken h (exec_setFeatures ..) rfl ?_
  rw [State.doSetFeature, h.taken]
  dsimp only
  rw [if_pos (by simp [hf])]
  exact h.done_sent ..

theorem setFeatures_save {s : State} {c : Nat} {x : Ctrl} (h : s.TakesAdmin c x) {fid : Nat} (hf : featKnown fid = true)
    (cid value : Nat) :
    Gives (.setFeatures c cid fid value true) s fun t => s.Sent t (.cqe c 0 cid cplNotSaveable 0 x.nextSqhd) := by
  refine .of_taken h (exec_setFeatures ..) rfl ?_
  rw [State.doSetFeature, h.taken]
  dsimp only
  rw [if_neg (by simp [hf]), if_pos rfl]
  exact h.done_sent ..

/-- The record of a controller whose host has set one of the features that only hold their value. -/
def Ctrl.withFeature (x : Ctrl) (fid value : Nat) : Ctrl :=
  { x with
    featArb := if fid = 0x01 then value else x.featArb, featTemp := if fid = 0x04 then value else x.featTemp
    featAer := if fid = 0x0B then value else x.featAer, featHostId := if fid = 0x81 then value else x.featHostId }

theorem State.doSetFeature_kept {s : State} {c : Nat} {x : Ctrl} (hx : s.findCtrl c = some x) {fid : Nat}
    (hf : fid = 0x01 ∨ fid = 0x04 ∨ fid = 0x0B ∨ fid = 0x81) (cid value : Nat) :
    s.doSetFeature c cid fid value false =
      ((s.updCtrl c (fun y => y.withFeature fid value)).sendXport x.conn).adminDone c cid cplSuccess 0 := by
  have hk : featKnown fid = true := by rcases hf with rfl | rfl | rfl | rfl <;> rfl
  have h7 : fid ≠ 0x07 ∧ fid ≠ 0x0F := by omega
  unfold State.doSetFeature
  rw [hx]
  dsimp only
  rw [if_neg (by simp [hk]), if_neg (by decide), if_neg h7.1, if_neg (by simp [h7.2])]
  refine congrArg (fun f => ((s.updCtrl c f).sendXport x.conn).adminDone c cid cplSuccess 0) (funext fun y => ?_)
  rcases hf with rfl | rfl | rfl | rfl <;> rfl

theorem setFeatures_kept {s : State} {c : Nat} {x : Ctrl} (h : s.TakesAdmin c x) {fid : Nat}
    (hf : fid = 0x01 ∨ fid = 0x04 ∨ fid = 0x0B ∨ fid = 0x81) (cid value : Nat) :
    Gives (.setFeatures c cid fid value false) s fun t =>
      t.findCtrl c = some (Ctrl.withFeature { x with adminSqhd := x.nextSqhd } fid value) ∧
      s.Sent t (.cqe c 0 cid cplSuccess 0 x.nextSqhd) := by
  refine .of_taken h (exec_setFeatures ..) rfl ?_
  have hu := h.taken cid 0x09 (adminArgs (.setFeatures c cid fid value false))
  have ho := (s.takeAdmin_kept c cid 0x09 (adminArgs (.setFeatures c cid fid value false))).out
  rw [State.doSetFeature_kept hu hf]
  generalize s.takeAdmin c cid 0x09 (adminArgs (.setFeatures c cid fid value false)) = u at hu ho
  have ht : ((u.updCtrl c (fun y => y.withFeature fid value)).sendXport x.conn).findCtrl c =
      some (Ctrl.withFeature { x with adminSqhd := x.nextSqhd } fid value) := by
    rw [State.findCtrl_congr (congrArg HceSt.ctrls (State.sendXport_hce ..)), State.findCtrl_updCtrl (by intro _; rfl), hu]
    rfl
  refine ⟨(State.findCtrl_adminDone_ok ..).trans ht, State.adminDone_sent_head ?_ ht rfl ..⟩
  exact ho.trans (State.sendXport_kept (u.updCtrl c _) x.conn).out

theorem getFeatures_gives {s : State} {c : Nat} {x : Ctrl} (h : s.TakesAdmin c x) (cid fid : Nat) :
    Gives (.getFeatures c cid fid) s fun t =>
      s.Sent t (if featKnown fid = false then .cqe c 0 cid cplInvalidField 0 x.nextSqhd
        else .cqe c 0 cid cplSuccess (if fid = 0x01 then x.featArb else if fid = 0x04 then x.featTemp
          else if fid = 0x07 then (x.granted - 1) * 2 ^ 16 + (x.granted - 1) else if fid = 0x0B then x.featAer
          else if fid = 0x81 then x.featHostId else x.kato) x.nextSqhd) := by
  refine .of_taken h (exec_getFeatures ..) rfl ?_
  rw [State.doGetFeature, h.taken]
  dsimp only
  by_cases hf : featKnown fid = false
  · rw [if_pos (by simp [hf]), if_pos hf]
    exact h.done_sent ..
  · rw [if_neg (by simpa using hf), if_neg hf]
    exact h.done_sent ..

/-! ## Asynchronous Event Request, invalid opcodes (R38, R44, R50) -/

theorem asynchronousEventRequest_gives {s : State} {c : Nat} {x : Ctrl} (h : s.TakesAdmin c x) (cid : Nat) :
    Gives (.asynchronousEventRequest c cid) s fun t =>
      if 4 ≤ x.aers.length then s.Sent t (.cqe c 0 cid cplAerLimit 0 x.nextSqhd)
      else match x.events with
        | [] => t.findCtrl c = some { x with adminSqhd := x.nextSqhd, aers := x.aers ++ [cid] }
        | e :: l => t.findCtrl c = some { x with adminSqhd := x.nextSqhd, events := l } ∧
            s.Sent t (.cqe c 0 cid cplSuccess e x.nextSqhd) := by
  refine .of_taken h (exec_asynchronousEventRequest ..) rfl ?_
  have hu := h.taken cid 0x0C (adminArgs (.asynchronousEventRequest c cid))
  have ho := (s.takeAdmin_kept c cid 0x0C (adminArgs (.asynchronousEventRequest c cid))).out
  rw [State.doAer, hu]
  dsimp only
  by_cases hl : 4 ≤ x.aers.length
  · rw [if_pos hl, if_pos hl]
    exact h.done_sent ..
  rw [if_neg hl, if_neg hl]
  cases he : x.events with
  | nil =>
    dsimp only
    rw [State.findCtrl_updCtrl (by intro _; rfl), hu]
    simp [he]
  | cons e l =>
    have hf : ((s.takeAdmin c cid 0x0C (adminArgs (.asynchronousEventRequest c cid))).updCtrl c
        (fun y => { y with events := l })).findCtrl c = some { x with adminSqhd := x.nextSqhd, events := l } := by
      rw [State.findCtrl_updCtrl (by intro _; rfl), hu]
      rfl
    refine ⟨(State.findCtrl_adminDone_ok ..).trans hf, State.adminDone_sent_head ?_ hf rfl ..⟩
    exact ho

theorem invalidAdminOpcode_gives {s : State} {c : Nat} {x : Ctrl} (h : s.TakesAdmin c x) (cid op : Nat) :
    Gives (.invalidAdminOpcode c cid op) s fun t => s.Sent t (.cqe c 0 cid cplInvalidOpcode 0 x.nextSqhd) :=
  .of_taken h (exec_invalidAdminOpcode ..) rfl (h.done_sent ..)

/-! ## Get Log Page (R46) -/

/-- The logs of a controller: those of R46, and on a discovery controller the discovery log. -/
def Ctrl.HasLog (x : Ctrl) (lid : Nat) : Prop :=
  lid = 0x01 ∨ lid = 0x02 ∨ lid = 0x03 ∨ lid = 0x04 ∨ lid = 0x05 ∨ lid = 0x0C ∨ lid = 0x81 ∨ (lid = 0x70 ∧ x.discovery = true)

/-- A log that the controller has is data; the Changed Namespace List is cleared by its reading. -/
theorem State.doLog_data {s : State} {c : Nat} {x : Ctrl} (hx : s.findCtrl c = some x) {lid : Nat} (hl : x.HasLog lid)
    (cid : Nat) :
    ∃ (t : State) (bs : List Byte), t.findCtrl c = some { x with changed := if lid = 0x04 then [] else x.changed } ∧
      t.out = s.out ∧ s.doLog c cid lid = t.adminData c cid bs := by
  unfold State.doLog
  rw [hx]
  rcases hl with rfl | rfl | rfl | rfl | rfl | rfl | rfl | ⟨rfl, hd⟩
  · exact ⟨s, _, hx, rfl, rfl⟩
  · exact ⟨s.tookFree, _, hx, rfl, rfl⟩
  · exact ⟨s, _, hx, rfl, rfl⟩
  · refine ⟨s.updCtrl c (fun y => { y with changed := [] }), _, ?_, rfl, rfl⟩
    rw [State.findCtrl_updCtrl (by intro _; rfl), hx]
    rfl
  · exact ⟨s, _, hx, rfl, rfl⟩
  · exact ⟨s, _, hx, rfl, rfl⟩
  · exact ⟨s, _, hx, rfl, rfl⟩
  · exact ⟨s, s.discoveryLog x.hostNqn, hx, rfl, by simp [hd]⟩

theorem State.doLog_invalid {s : State} {c : Nat} {x : Ctrl} (hx : s.findCtrl c = some x) {lid : Nat} (hl : ¬ x.HasLog lid)
    (cid : Nat) : s.doLog c cid lid = s.adminDone c cid cplInvalidLogPage 0 := by
  simp only [Ctrl.HasLog, not_or] at hl
  obtain ⟨h1, h2, h3, h4, h5, hC, h81, h70⟩ := hl
  unfold State.doLog
  rw [hx]
  simp only [h1, h2, h3, h4, h5, hC, h81, if_false]
  exact if_neg (by simpa using h70)

theorem getLogPage_gives {s : State} {c : Nat} {x : Ctrl} (hx : s.findCtrl c = some x) (hr : x.resetting = false)
    (cid lid : Nat) :
    (x.HasLog lid → Gives (.getLogPage c cid lid) s fun t =>
      (∃ bs, s.Sent t (.adminData c cid bs)) ∧ s.Sent t (.cqe c 0 cid cplSuccess 0 x.passed.adminSqhd) ∧
        t.findCtrl c = some { x.passed with changed := if lid = 0x04 then [] else x.changed }) ∧
    (¬ x.HasLog lid → Gives (.getLogPage c cid lid) s fun t => s.Sent t (.cqe c 0 cid cplInvalidLogPage 0 x.passed.adminSqhd)) := by
  have he : exec (.getLogPage c cid lid) s = .next ((s.takeAdmin c cid 0x02 [lid]).doLog c cid lid) :=
    (exec_getLogPage ..).trans (congrArg Host.Outcome.next (State.adminBeside_runs hx hr ..))
  have hu := State.findCtrl_takeAdmin_passed hx cid 0x02 [lid]
  have ho := (s.takeAdmin_kept c cid 0x02 [lid]).out
  have hd : x.passed.discovery = x.discovery := by unfold Ctrl.passed; split <;> rfl
  have hc : x.passed.changed = x.changed := by unfold Ctrl.passed; split <;> rfl
  have hiff : x.passed.HasLog lid ↔ x.HasLog lid := by simp only [Ctrl.HasLog, hd]
  constructor
  · intro hl
    obtain ⟨t, bs, ht, hto, hte⟩ := State.doLog_data hu (hiff.mpr hl) cid
    have hsent := State.adminData_sent_head (s := s) (by rw [hto]; exact ho) ht rfl cid bs
    refine ⟨_, he.trans (congrArg _ hte), ⟨bs, hsent.1⟩, hsent.2, (State.findCtrl_adminData ..).trans ?_⟩
    rw [ht, hc]
  · intro hl
    refine ⟨_, he.trans (congrArg _ (State.doLog_invalid hu (mt hiff.mp hl) cid)), ?_⟩
    exact State.adminDone_sent_head ho hu rfl ..

/-! ## Abort (R64, R66, R68) -/

theorem exec_abort_runs {s : State} {c : Nat} {x : Ctrl} (hx : s.findCtrl c = some x) (hr : x.resetting = false)
    (acid sqid cid : Nat) :
    exec (.abort c acid sqid cid) s = .next ((s.takeAdmin c acid 0x08 [sqid, cid]).doAbort c acid sqid cid) :=
  (exec_abort ..).trans (congrArg Host.Outcome.next (State.adminBeside_runs hx hr ..))

theorem Ctrl.passed_aborts (x : Ctrl) : x.passed.aborts = x.aborts := by unfold Ctrl.passed; split <;> rfl

theorem abort_limit {s : State} {c : Nat} {x : Ctrl} (hx : s.findCtrl c = some x) (hr : x.resetting = false)
    (hl : 4 ≤ x.aborts.length) (acid sqid cid : Nat) :
    Gives (.abort c acid sqid cid) s fun t => s.Sent t (.cqe c 0 acid cplAbortLimit 0 x.passed.adminSqhd) := by
  have hu := State.findCtrl_takeAdmin_passed hx acid 0x08 [sqid, cid]
  refine ⟨_, exec_abort_runs hx hr .., ?_⟩
  rw [State.doAbort, hu]
  dsimp only
  rw [Ctrl.passed_aborts, if_pos hl]
  exact State.adminDone_sent_head (s.takeAdmin_kept ..).out hu rfl ..

/-- An Abort that finds no queue to look in has not aborted. -/
theorem State.doAbort_nowhere {s : State} {c : Nat} {x : Ctrl} (hx : s.findCtrl c = some x) (hl : x.aborts.length < 4) {sqid : Nat}
    (hq : sqid = 0 ∨ s.findSq c sqid = none) (acid cid : Nat) : s.doAbort c acid sqid cid = s.notAborted c acid := by
  unfold State.doAbort
  rw [hx]
  dsimp only
  rw [if_neg (Nat.not_le.mpr hl)]
  by_cases h0 : sqid = 0
  · rw [if_pos h0]
  · rw [if_neg h0, hq.resolve_left h0]

theorem abort_nowhere {s : State} {c : Nat} {x : Ctrl} (hx : s.findCtrl c = some x) (hr : x.resetting = false)
    (hl : x.aborts.length < 4) {sqid : Nat} (hq : sqid = 0 ∨ s.findSq c sqid = none) (acid cid : Nat) :
    Gives (.abort c acid sqid cid) s fun t => s.Sent t (.cqe c 0 acid cplSuccess 1 x.passed.adminSqhd) := by
  have hu := State.findCtrl_takeAdmin_passed hx acid 0x08 [sqid, cid]
  refine ⟨_, exec_abort_runs hx hr .., ?_⟩
  rw [State.doAbort_nowhere hu (by rwa [Ctrl.passed_aborts])]
  · exact .congr (State.adminDone_sent_head (s.takeAdmin_kept ..).out hu rfl acid cplSuccess 1) rfl rfl
  · rwa [State.findSq_congr (s.takeAdmin_sqs ..)]

/-- An Abort of a command before its commit point squashes it and waits for it. -/
theorem State.doAbort_squashes {s : State} {c sqid cid : Nat} {x : Ctrl} {q : SubQ} {r : TagRec} (hx : s.findCtrl c = some x)
    (hl : x.aborts.length < 4) (h0 : sqid ≠ 0) (hq : s.findSq c sqid = some q)
    (hr : s.hce.tags.find? (fun r => r.cntlid = c && r.sqid = sqid && r.cidMapped && r.cid = cid) = some r)
    (ho : r.open_ = true) (hi : r.intents = false) (acid : Nat) :
    s.doAbort c acid sqid cid =
      (s.squash r.tag cplAborted true).updCtrl c (fun y => { y with aborts := y.aborts ++ [(acid, r.tag)] }) := by
  unfold State.doAbort
  rw [hx]
  dsimp only
  rw [if_neg (Nat.not_le.mpr hl), if_neg h0, hq]
  dsimp only
  rw [hr]
  exact if_pos (by simp [ho, hi])

theorem abort_squashes {s : State} {c sqid cid : Nat} {x : Ctrl} {q : SubQ} {r : TagRec} (hx : s.findCtrl c = some x)
    (hn : x.resetting = false) (hl : x.aborts.length < 4) (h0 : sqid ≠ 0) (hq : s.findSq c sqid = some q)
    (hr : s.hce.tags.find? (fun r => r.cntlid = c && r.sqid = sqid && r.cidMapped && r.cid = cid) = some r)
    (ho : r.open_ = true) (hi : r.intents = false) (ht : s.findTag r.tag = some r) (acid : Nat) :
    Gives (.abort c acid sqid cid) s fun t =>
      t.findTag r.tag = some { r with st := .squashing, result := some cplAborted, post := true } ∧
      t.findCtrl c = some { x.passed with aborts := x.aborts ++ [(acid, r.tag)] } := by
  have hu := State.findCtrl_takeAdmin_passed hx acid 0x08 [sqid, cid]
  have htags := s.takeAdmin_tags c acid 0x08 [sqid, cid]
  refine ⟨_, exec_abort_runs hx hn .., ?_⟩
  rw [State.doAbort_squashes hu (by rwa [Ctrl.passed_aborts]) h0 ((State.findSq_congr (s.takeAdmin_sqs ..) c sqid).trans hq)
    (by rw [htags, hr]) ho hi]
  constructor
  · exact State.findTag_squash ((State.findTag_congr htags _).trans ht) ho hi cplAborted true
  · rw [State.findCtrl_updCtrl (by intro _; rfl), State.findCtrl_congr (State.squash_ctrls ..), hu, ← Ctrl.passed_aborts]
    rfl

/-! ## The obligation -/

/-- Settles O12: each command by its own rule above. -/
theorem adminCommandsComplete : Obligations.AdminCommandsComplete := by
  refine ⟨?_, ?_, ?_, ?_, ?_, ?_, ?_, ?_, ?_, ?_⟩
  · exact fun s c cid cns nsid x h => identify_gives h cid cns nsid
  · intro s c cid value x h
    obtain ⟨t, ht, hf, hs⟩ := setFeatures_queues h cid value
    exact ⟨t, ht, s.grantQueues x value, rfl, hf, hs⟩
  · exact fun s c cid fid value save x h hf => setFeatures_unknown h hf cid value save
  · exact fun s c cid fid value x h hf => setFeatures_save h hf cid value
  · exact fun s c cid fid value x h hf => setFeatures_kept h hf cid value
  · exact fun s c cid fid x h => getFeatures_gives h cid fid
  · exact fun s c cid x h => asynchronousEventRequest_gives h cid
  · exact fun s c cid op x h => invalidAdminOpcode_gives h cid op
  · intro s c cid lid x hx hr
    by_cases hl : x.HasLog lid
    · obtain ⟨t, ht, hP⟩ := (getLogPage_gives hx hr cid lid).1 hl
      exact ⟨t, ht, by dsimp only; split; exacts [hP, absurd hl ‹_›]⟩
    · obtain ⟨t, ht, hP⟩ := (getLogPage_gives hx hr cid lid).2 hl
      exact ⟨t, ht, by dsimp only; split; exacts [absurd ‹_› hl, hP]⟩
  · exact fun s c acid sqid cid x hx hr => ⟨fun hl => abort_limit hx hr hl acid sqid cid,
      fun hl hq => abort_nowhere hx hr hl hq acid cid,
      fun q r hl h0 hq hf ho hi ht => abort_squashes hx hr hl h0 hq hf ho hi ht acid⟩

end Sys2Proof.Machine
end

section
/-! PROOFS. Capsules, admission, and the first step of the I/O commands (R42, R48, R52, R53, R57 to R61, R74, R83, R204). -/

namespace Sys2Proof.Machine

/-! ## Capsules enter their queue (R42, R58, R72; log 33) -/

/-- What the module sends to end a connection that it has (R42). -/
theorem State.closeLost_sent {s : State} {id : Nat} {k : HConn} (h : s.findConn id = some k) :
    s.Sent (s.closeLost id) (match k.transport with | .rdma => .cmDisconnect id | .tcp => .rst id) := by
  unfold State.closeLost
  rw [h]
  dsimp only
  cases k.transport with
  | rdma => exact (State.Sent.emit s (.cmDisconnect id)).later (State.loseConn_kept _ _).out
  | tcp => exact (State.Sent.emit s (.rst id)).later (State.loseConn_kept _ _).out

theorem capsuleIntake_gives {s : State} {c sqid : Nat} (cap : Capsule) {q : SubQ} {k : HConn} (hq : s.findSq c sqid = some q)
    (hk : s.findConn q.conn = some k) :
    Gives (.capsuleIntake c sqid cap) s fun t =>
      if q.disc.isSome = true then t.findSq c sqid = some { q with sqhd := (q.sqhd + 1) % Nat.max q.size 1 } ∧
        ∃ h, s.Sent t (.cqe c sqid cap.cid cplSqDeleted 0 h)
      else if q.size ≤ q.entries.length + 1 then
        s.Sent t (match k.transport with | .rdma => .cmDisconnect q.conn | .tcp => .rst q.conn)
      else t.findSq c sqid = some { q with entries := q.entries ++ [some (s.now, cap)] } := by
  unfold Gives
  rw [exec_capsuleIntake, execCapsuleIntake, hq]
  dsimp only
  by_cases hd : q.disc.isSome = true
  · simp only [if_pos hd]
    refine ⟨_, rfl, ?_, _, .before List.suffix_rfl (State.postCqe_sent ..)⟩
    rw [State.findSq_congr (State.postCqe_sqs ..), State.findSq_updSq (by intro _; exact ⟨rfl, rfl⟩), hq]
    rfl
  by_cases hf : q.size ≤ q.entries.length + 1
  · simp only [if_neg hd, if_pos hf]
    exact ⟨_, rfl, .before List.suffix_rfl (State.closeLost_sent (s := s.bump Reg.hceProtoerr) hk)⟩
  · simp only [if_neg hd, if_neg hf]
    refine ⟨_, rfl, ?_⟩
    rw [State.findSq_congr (s := s.updSq c sqid (fun y => { y with entries := y.entries ++ [some (s.now, cap)] }))
      (by rw [State.updConn_hce, State.mirSend_hce]), State.findSq_updSq (by intro _; exact ⟨rfl, rfl⟩), hq]
    rfl

/-! ## The queue that admission visits (R59, R74) -/

theorem State.mem_of_pickQueue {s : State} {v i : Nat} {q : SubQ} (h : s.pickQueue v = some (i, q)) :
    s.visitable q = true ∧ q ∈ s.hce.sqs ∧ q.vsid = v := by
  unfold State.pickQueue at h
  dsimp only at h
  have hm : (i, q) ∈ ((natsFrom 0 (s.hce.sqs.filter (fun q => q.vsid = v)).length).zip
      (s.hce.sqs.filter (fun q => q.vsid = v))).filter (fun e => s.visitable e.2) := by
    split at h
    next hf => exact List.mem_of_find?_eq_some (hf.trans h)
    next => exact List.mem_of_head? h
  obtain ⟨hz, hv⟩ := List.mem_filter.mp hm
  obtain ⟨hq, hvs⟩ := List.mem_filter.mp (List.of_mem_zip hz).2
  exact ⟨hv, hq, by simpa using hvs⟩

theorem State.visitsLeft_iff (s : State) (v : Nat) :
    s.visitsLeft v = true ↔ s.visits v < Nat.max 1 (((s.findVs v).map (fun x => x.tagshare)).getD 0) := decide_eq_true_iff

/-- A visit out of turn lapses (log 40). -/
theorem exec_admission_lapses {s : State} {v i : Nat} {q : SubQ} (hp : s.pickQueue v = some (i, q)) (hv : s.visitsLeft v = false)
    (h : ∃ x ∈ s.vsm.subs, s.visitsLeft x.vsid = true ∧ (s.pickQueue x.vsid).isSome = true) :
    exec (.admission v) s = .next s := by
  have ht : s.turnOf v = none := by
    unfold State.turnOf
    rw [if_neg (by simp [hv]), if_pos (by simpa using h)]
  rw [exec_admission, execAdmission, hp]
  dsimp only
  rw [ht]

/-- The state in which admission visits a subsystem's queue of place `i`: the round robin stands behind that queue, and the
weighted round counts the visit or begins anew with it (R59). -/
def State.turned (s : State) (v i : Nat) : State :=
  s.updHce (fun x => { x with
    rr := x.rr.filter (fun e => e.1 ≠ v) ++ [(v, i + 1)]
    wrr := if s.visitsLeft v = true then x.wrr.filter (fun e => e.1 ≠ v) ++ [(v, s.visits v + 1)] else [(v, 1)] })

theorem exec_admission_visits {s : State} {v i : Nat} {q : SubQ} (hp : s.pickQueue v = some (i, q))
    (h : s.visitsLeft v = true ∨ ∀ x ∈ s.vsm.subs, ¬(s.visitsLeft x.vsid = true ∧ (s.pickQueue x.vsid).isSome = true)) :
    exec (.admission v) s = .next ((s.turned v i).visit q) := by
  rw [exec_admission, execAdmission, hp]
  dsimp only
  cases hv : s.visitsLeft v with
  | true => simp [State.turnOf, State.turned, hv]
  | false =>
    have hn : (s.vsm.subs.any fun x => s.visitsLeft x.vsid && (s.pickQueue x.vsid).isSome) = false := by
      simpa [hv] using h
    simp [State.turnOf, State.turned, State.updHce, State.visits, hv, hn]

/-! ## The lowest free tag (log 37) -/

theorem natsFrom_eq_range' (a n : Nat) : natsFrom a n = List.range' a n := by
  induction n generalizing a with
  | zero => rfl
  | succ n ih => rw [natsFrom, ih, List.range'_succ]

/-- Of one number more than there are tags, one names no tag. -/
theorem State.exists_free_tag (s : State) : ∃ i ∈ natsFrom 0 (s.hce.tags.length + 1), ∀ r ∈ s.hce.tags, r.tag ≠ i := by
  by_contra h
  push Not at h
  have hsub : natsFrom 0 (s.hce.tags.length + 1) ⊆ s.hce.tags.map (fun r => r.tag) := fun i hi => by
    obtain ⟨r, hr, he⟩ := h i hi
    exact List.mem_map.mpr ⟨r, hr, he⟩
  rw [natsFrom_eq_range'] at hsub
  have hle := (List.subperm_of_subset List.nodup_range' hsub).length_le
  simp at hle

theorem State.freeTagNum_free (s : State) : ∀ r ∈ s.hce.tags, r.tag ≠ s.freeTagNum := by
  obtain ⟨i, hi, hf⟩ := s.exists_free_tag
  unfold State.freeTagNum
  cases h : (natsFrom 0 (s.hce.tags.length + 1)).find? (fun i => !s.hce.tags.any (fun r => r.tag = i)) with
  | none => exact absurd (List.find?_eq_none.mp h i hi) (by simpa using hf)
  | some j => simpa using List.find?_some h

theorem State.findTag_freeTagNum (s : State) : s.findTag s.freeTagNum = none :=
  List.find?_eq_none.mpr fun r hr => by simpa using s.freeTagNum_free r hr

/-! ## What a visit leaves alone -/

/-- A new tag's record stands, its ADMITTED record sent, and nothing else of the engine has changed (R52, R74). -/
theorem State.grantTag_hce (s : State) (r : TagRec) : ∃ m, (s.grantTag r).hce = { s.hce with
    tags := updWhere (fun x => x.tag = r.tag) (fun x => { x with dataMseq := m }) (s.hce.tags ++ [r]), seq := r.seq } := by
  unfold State.grantTag
  simp only [State.hostEvent_hce, apply_ite State.hce, State.putReg_hce, ite_self, State.updTag_hce, State.sendRec_hce]
  exact ⟨_, rfl⟩

theorem State.grantTag_rfu (s : State) (r : TagRec) : (s.grantTag r).rfu = s.rfu := by
  unfold State.grantTag
  simp only [State.hostEvent_rfu, apply_ite State.rfu, State.putReg_rfu, ite_self, State.updTag_rfu, State.sendRec_rfu]
  rfl

theorem State.findTag_grantTag {s : State} {r : TagRec} (h : s.findTag r.tag = none) :
    ∃ m, (s.grantTag r).findTag r.tag = some { r with dataMseq := m } := by
  obtain ⟨m, hm⟩ := s.grantTag_hce r
  refine ⟨m, ?_⟩
  rw [State.findTag] at h
  rw [State.findTag, hm]
  dsimp only
  rw [find_updWhere (p := fun x : TagRec => x.tag = r.tag) (by simp), List.find?_append, h]
  simp

/-- The record that admission makes is found under the tag that it took. -/
theorem State.findTag_admitted (s : State) (q : SubQ) (c : Capsule) (t0 : Nat) :
    ∃ m, ((s.leaveHead q).grantTag (s.newTag q c t0)).findTag s.freeTagNum = some { s.newTag q c t0 with dataMseq := m } :=
  State.findTag_grantTag (s := s.leaveHead q) (r := s.newTag q c t0) s.findTag_freeTagNum

/-! ## Locks of a command that has just been admitted (R83, R86, R87) -/

/-- A command's data waits for its first step and for its locks. -/
theorem State.placeWrite_waits {s : State} {k : Nat} {r : TagRec} (h : s.findTag k = some r)
    (hw : r.st ≠ .executing ∨ s.locked k = false) : s.placeWrite k = s := by
  unfold State.placeWrite
  rw [h]
  dsimp only
  cases s.findNs r.vsid r.cap.nsid with
  | none => rfl
  | some n => exact if_pos (by rcases hw with hw | hw <;> simp [hw])

/-- The lock requests of a tag, granted (R86). -/
def State.grantLocks (s : State) (k : Nat) : State :=
  { s with hce := { s.hce with rlt := updWhere (fun e => e.tag = k) (fun e => { e with granted := true }) s.hce.rlt } }

theorem State.lockGranted_admitted {s : State} {k : Nat} {r : TagRec} (h : s.findTag k = some r) (hst : r.st = .admitted)
    (h2 : r.cap.opcode ≠ 2) (h5 : r.cap.opcode ≠ 5) (hg : s.rfu.groups = []) : s.lockGranted k = s := by
  unfold State.lockGranted
  rw [h]
  dsimp only
  rw [hg, if_neg (by simp [h2, h5])]
  exact State.placeWrite_waits h (.inl (by simp [hst]))

/-- A command that changes data, not begun yet, gains nothing but its locks when they are granted and no group is open. -/
theorem State.tryLock_admitted {s : State} {k : Nat} {r : TagRec} (h : s.findTag k = some r) (hst : r.st = .admitted)
    (h2 : r.cap.opcode ≠ 2) (h5 : r.cap.opcode ≠ 5) (hg : s.rfu.groups = []) :
    s.tryLock k = if s.holdsLock k && !s.locked k && s.lockFree k then s.grantLocks k else s := by
  unfold State.tryLock
  exact congrArg (ite _ · s) (State.lockGranted_admitted (s := s.grantLocks k) h hst h2 h5 hg)

/-- Granted or waiting, a lock request stays in the table with its range. -/
theorem State.mem_grantLocks {s : State} {k : Nat} {e : RangeLock} (h : e ∈ s.hce.rlt) :
    ∃ e' ∈ (s.grantLocks k).hce.rlt, e'.tag = e.tag ∧ e'.vsid = e.vsid ∧ e'.nsid = e.nsid ∧ e'.first = e.first ∧ e'.last = e.last := by
  refine ⟨_, List.mem_map.mpr ⟨e, h, rfl⟩, ?_⟩
  split_ifs
  · exact ⟨rfl, rfl, rfl, rfl, rfl⟩
  · exact ⟨rfl, rfl, rfl, rfl, rfl⟩

/-- The lock requests of a command, not granted yet (R83). -/
def TagRec.lockRequests (r : TagRec) (n : Ns) : List RangeLock :=
  (r.cap.lockRanges n).map (fun p => ⟨r.tag, r.vsid, r.cap.nsid, p.1, p.1 + p.2 - 1, r.cap.exclusive, false⟩)

/-- The state with a command's lock requests in the table. -/
def State.askLocks (s : State) (r : TagRec) (n : Ns) : State := s.updHce (fun x => { x with rlt := x.rlt ++ r.lockRequests n })

theorem State.takeLocks_hce (s : State) (r : TagRec) (n : Ns) :
    (s.takeLocks r n).hce = ((s.askLocks r n).tryLock r.tag).hce := by
  unfold State.takeLocks
  dsimp only
  rw [State.hostEvent_hce, State.bumpBy_hce]
  rfl

theorem State.mem_askLocks {s : State} {r : TagRec} {n : Ns} {p : Nat × Nat} (hp : p ∈ r.cap.lockRanges n) :
    ∃ e ∈ (s.askLocks r n).hce.rlt, e.tag = r.tag ∧ e.vsid = r.vsid ∧ e.nsid = r.cap.nsid ∧ e.first = p.1 ∧ e.last = p.1 + p.2 - 1 :=
  ⟨_, List.mem_append_right _ (List.mem_map.mpr ⟨p, hp, rfl⟩), rfl, rfl, rfl, rfl, rfl⟩

/-- A command that changes data and meets no group asks for the locks of its ranges, and stays admitted. -/
theorem State.takeLocks_gives {s : State} {r x : TagRec} (n : Ns) (h : s.findTag r.tag = some x) (hst : x.st = .admitted)
    (h2 : x.cap.opcode ≠ 2) (h5 : x.cap.opcode ≠ 5) (hg : s.rfu.groups = []) :
    (s.takeLocks r n).findTag r.tag = some x ∧ ∀ p ∈ r.cap.lockRanges n, ∃ e ∈ (s.takeLocks r n).hce.rlt,
      e.tag = r.tag ∧ e.vsid = r.vsid ∧ e.nsid = r.cap.nsid ∧ e.first = p.1 ∧ e.last = p.1 + p.2 - 1 := by
  have ht := s.takeLocks_hce r n
  rw [State.tryLock_admitted (s := s.askLocks r n) h hst h2 h5 hg] at ht
  rw [State.findTag_congr (congrArg HceSt.tags ht), ht]
  split_ifs
  · refine ⟨h, fun p hp => ?_⟩
    obtain ⟨e, he, h1, h2, h3, h4, h5⟩ := s.mem_askLocks hp
    obtain ⟨e', he', g1, g2, g3, g4, g5⟩ := State.mem_grantLocks (k := r.tag) he
    exact ⟨e', he', g1.trans h1, g2.trans h2, g3.trans h3, g4.trans h4, g5.trans h5⟩
  · exact ⟨h, fun p hp => State.mem_askLocks hp⟩

/-! ## One visit to the head of a queue (R52, R53, R57 to R61) -/

/-- The CID of a capsule is mapped to a tag of its queue. -/
def State.CidUsed (s : State) (q : SubQ) (cid : Nat) : Prop :=
  ∃ r ∈ s.hce.tags, r.cntlid = q.cntlid ∧ r.sqid = q.sqid ∧ r.cidMapped = true ∧ r.cid = cid

theorem State.cidUsed_iff (s : State) (q : SubQ) (cid : Nat) :
    s.hce.tags.any (fun r => r.cntlid = q.cntlid && r.sqid = q.sqid && r.cidMapped && r.cid = cid) = true ↔ s.CidUsed q cid := by
  simp [State.CidUsed, and_assoc]

/-- What is left of a queue once its head has left it. -/
theorem SubQ.pass_entries (q : SubQ) : q.pass.entries = q.entries.dropWhile (fun e => e.isNone) :=
  (List.suffix_iff_eq_drop.mp (List.dropWhile_suffix _)).symm

theorem State.findSq_leaveHead {s : State} {q : SubQ} (hq : s.findSq q.cntlid q.sqid = some q) :
    ((s.leaveHead q).findSq q.cntlid q.sqid).map (fun y => y.entries) =
      some ((q.entries.drop 1).dropWhile (fun e => e.isNone)) := by
  rw [State.leaveHead, State.findSq_updSq (by intro _; exact ⟨rfl, rfl⟩), hq]
  exact congrArg some (SubQ.pass_entries _)

section Visit
variable {s : State} {q : SubQ} {t0 : Nat} {c : Capsule} {rest : List (Option (Nat × Capsule))}

theorem State.visit_conflict (he : q.entries = some (t0, c) :: rest) (hc : s.CidUsed q c.cid) :
    s.visit q = (((s.leaveHead q).dropIntake q c.cid).postCqe q.cntlid q.sqid c.cid cplCidConflict 0 0).countCpl
      q.vsid c.opcode cplCidConflict t0 := by
  unfold State.visit
  rw [he]
  exact if_pos ((s.cidUsed_iff q c.cid).mpr hc)

theorem State.visit_fails (he : q.entries = some (t0, c) :: rest) (hc : ¬s.CidUsed q c.cid) {st : CplStatus}
    (hi : s.ioCheck q.vsid (((s.findConn q.conn).map (fun k => k.transport)).getD .tcp) c = some st)
    (hn : s.hce.tags.length < 262144) (hf : s.shareFree q.vsid = true) :
    s.visit q = ((s.leaveHead q).grantTag (s.newTag q c t0)).failTag s.freeTagNum st := by
  unfold State.visit
  rw [he]
  dsimp only
  rw [if_neg (fun h => hc ((s.cidUsed_iff q c.cid).mp h)), hi]
  exact if_pos (by simp [hn, hf])

variable {n : Ns}

theorem State.visit_held (he : q.entries = some (t0, c) :: rest) (hc : ¬s.CidUsed q c.cid)
    (hi : s.ioCheck q.vsid (((s.findConn q.conn).map (fun k => k.transport)).getD .tcp) c = none)
    (hn : s.findNs q.vsid c.nsid = some n) (ha : s.admissible q.vsid c n = false) :
    s.visit q = s.hostEvent 0x04 q.vsid (opClass c.opcode) 1 := by
  unfold State.visit
  rw [he]
  dsimp only
  rw [if_neg (fun h => hc ((s.cidUsed_iff q c.cid).mp h)), hi]
  dsimp only
  rw [hn]
  exact if_pos (by simp [ha])

theorem State.visit_admits (he : q.entries = some (t0, c) :: rest) (hc : ¬s.CidUsed q c.cid)
    (hi : s.ioCheck q.vsid (((s.findConn q.conn).map (fun k => k.transport)).getD .tcp) c = none)
    (hn : s.findNs q.vsid c.nsid = some n) (ha : s.admissible q.vsid c n = true) :
    s.visit q = if c.commitsAtOnce = true then
        ((s.leaveHead q).grantTag (s.newTag q c t0)).updTag s.freeTagNum (fun x => { x with st := .committed })
      else (((s.leaveHead q).grantTag (s.newTag q c t0)).markRegions (s.newTag q c t0) n).takeLocks (s.newTag q c t0) n := by
  unfold State.visit
  rw [he]
  dsimp only
  rw [if_neg (fun h => hc ((s.cidUsed_iff q c.cid).mp h)), hi]
  dsimp only
  rw [hn]
  exact if_neg (by simp [ha])

theorem State.visit_conflict_gives (hq : s.findSq q.cntlid q.sqid = some q) (he : q.entries = some (t0, c) :: rest)
    (hc : s.CidUsed q c.cid) :
    (∃ h, s.Sent (s.visit q) (.cqe q.cntlid q.sqid c.cid cplCidConflict 0 h)) ∧ (s.visit q).hce.tags = s.hce.tags ∧
      ((s.visit q).findSq q.cntlid q.sqid).map (fun y => y.entries) = some (rest.dropWhile (fun e => e.isNone)) := by
  rw [State.visit_conflict he hc]
  refine ⟨⟨_, .later (.before (State.dropIntake_kept (s.leaveHead q) q c.cid).out (State.postCqe_sent ..))
    (State.countCpl_kept ..).out⟩, ?_, ?_⟩
  · rw [State.countCpl_hce, State.postCqe_tags, State.dropIntake_hce]
    rfl
  · rw [State.findSq_congr (s := s.leaveHead q) (by rw [State.countCpl_hce, State.postCqe_sqs, State.dropIntake_hce]),
      State.findSq_leaveHead hq, he]
    rfl

theorem State.visit_fails_gives (he : q.entries = some (t0, c) :: rest) (hc : ¬s.CidUsed q c.cid) {st : CplStatus}
    (hi : s.ioCheck q.vsid (((s.findConn q.conn).map (fun k => k.transport)).getD .tcp) c = some st)
    (hn : s.hce.tags.length < 262144) (hf : s.shareFree q.vsid = true) :
    ∃ r, (s.visit q).findTag s.freeTagNum = some r ∧ r.cid = c.cid ∧ r.st = .squashing ∧ r.result = some st ∧ r.post = true ∧
      r.seq = s.hce.seq + 1 := by
  obtain ⟨m, hm⟩ := s.findTag_admitted q c t0
  rw [State.visit_fails he hc hi hn hf]
  exact ⟨_, State.findTag_squash hm rfl rfl st true, rfl, rfl, rfl, rfl, rfl⟩

theorem State.visit_commits_gives (he : q.entries = some (t0, c) :: rest) (hc : ¬s.CidUsed q c.cid)
    (hi : s.ioCheck q.vsid (((s.findConn q.conn).map (fun k => k.transport)).getD .tcp) c = none)
    (hn : s.findNs q.vsid c.nsid = some n) (ha : s.admissible q.vsid c n = true) (ho : c.commitsAtOnce = true) :
    ∃ r, (s.visit q).findTag s.freeTagNum = some r ∧ r.cap = c ∧ r.cid = c.cid ∧ r.st = .committed ∧ r.seq = s.hce.seq + 1 := by
  obtain ⟨m, hm⟩ := s.findTag_admitted q c t0
  rw [State.visit_admits he hc hi hn ha, if_pos ho, State.findTag_updTag (by intro _; rfl), hm]
  exact ⟨_, rfl, rfl, rfl, rfl, rfl⟩

theorem State.visit_locks_gives (he : q.entries = some (t0, c) :: rest) (hc : ¬s.CidUsed q c.cid)
    (hi : s.ioCheck q.vsid (((s.findConn q.conn).map (fun k => k.transport)).getD .tcp) c = none)
    (hn : s.findNs q.vsid c.nsid = some n) (ha : s.admissible q.vsid c n = true) (ho : c.commitsAtOnce = false)
    (h2 : c.opcode ≠ 2) (h5 : c.opcode ≠ 5) (hg : s.rfu.groups = []) :
    (∃ r, (s.visit q).findTag s.freeTagNum = some r ∧ r.cap = c ∧ r.cid = c.cid ∧ r.st = .admitted ∧ r.seq = s.hce.seq + 1) ∧
      ∀ p ∈ c.lockRanges n, ∃ e ∈ (s.visit q).hce.rlt, e.tag = s.freeTagNum ∧ e.vsid = q.vsid ∧ e.nsid = c.nsid ∧
        e.first = p.1 ∧ e.last = p.1 + p.2 - 1 := by
  obtain ⟨m, hm⟩ := s.findTag_admitted q c t0
  rw [← State.findTag_congr (congrArg HceSt.tags (State.markRegions_hce _ (s.newTag q c t0) n))] at hm
  have hg' : (((s.leaveHead q).grantTag (s.newTag q c t0)).markRegions (s.newTag q c t0) n).rfu.groups = [] := by
    rw [State.markRegions_rfu, State.grantTag_rfu]
    exact hg
  rw [State.visit_admits he hc hi hn ha, if_neg (by simp [ho])]
  obtain ⟨ht, hl⟩ := State.takeLocks_gives (r := s.newTag q c t0) n hm rfl h2 h5 hg'
  exact ⟨⟨_, ht, rfl, rfl, rfl, rfl⟩, hl⟩

end Visit

/-! ## Admission and INVALID_IO_OPCODE -/

section Admission
variable {s : State} {v i : Nat} {q : SubQ} {t0 : Nat} {c : Capsule} {rest : List (Option (Nat × Capsule))}
  (hp : s.pickQueue v = some (i, q))
  (hv : s.visitsLeft v = true ∨ ∀ x ∈ s.vsm.subs, ¬(s.visitsLeft x.vsid = true ∧ (s.pickQueue x.vsid).isSome = true))
include hp hv

/-- What a visit in turn does, admission does: it looks at nothing that the turn moves on. -/
theorem admission_gives {P : State → Prop} (h : P ((s.turned v i).visit q)) : Gives (.admission v) s P :=
  ⟨_, exec_admission_visits hp hv, h⟩

variable (he : q.entries = some (t0, c) :: rest)
include he

theorem admission_conflict (hq : s.findSq q.cntlid q.sqid = some q) (hc : s.CidUsed q c.cid) :
    Gives (.admission v) s fun t => (∃ h, s.Sent t (.cqe q.cntlid q.sqid c.cid cplCidConflict 0 h)) ∧
      t.hce.tags = s.hce.tags ∧
      (t.findSq q.cntlid q.sqid).map (fun y => y.entries) = some (rest.dropWhile (fun e => e.isNone)) :=
  admission_gives hp hv (State.visit_conflict_gives (s := s.turned v i) hq he hc)

theorem admission_fails (hc : ¬s.CidUsed q c.cid) {st : CplStatus}
    (hi : s.ioCheck q.vsid (((s.findConn q.conn).map (fun k => k.transport)).getD .tcp) c = some st)
    (hn : s.hce.tags.length < 262144) (hf : s.shareFree q.vsid = true) :
    Gives (.admission v) s fun t => ∃ r, t.findTag s.freeTagNum = some r ∧ r.cid = c.cid ∧ r.st = .squashing ∧
      r.result = some st ∧ r.post = true ∧ r.seq = s.hce.seq + 1 :=
  admission_gives hp hv (State.visit_fails_gives (s := s.turned v i) he hc hi hn hf)

variable {n : Ns} (hc : ¬s.CidUsed q c.cid)
  (hi : s.ioCheck q.vsid (((s.findConn q.conn).map (fun k => k.transport)).getD .tcp) c = none)
  (hn : s.findNs q.vsid c.nsid = some n)
include hc hi hn

theorem admission_held (hq : s.findSq q.cntlid q.sqid = some q) (ha : s.admissible q.vsid c n = false) :
    Gives (.admission v) s fun t => t.hce.tags = s.hce.tags ∧ t.findSq q.cntlid q.sqid = some q ∧
      t.hce.rr = s.hce.rr.filter (fun e => e.1 ≠ v) ++ [(v, i + 1)] ∧
      t.hce.wrr = if s.visitsLeft v = true then s.hce.wrr.filter (fun e => e.1 ≠ v) ++ [(v, s.visits v + 1)] else [(v, 1)] := by
  refine admission_gives hp hv ?_
  have hh : ((s.turned v i).visit q).hce = (s.turned v i).hce := by
    rw [State.visit_held (s := s.turned v i) he hc hi hn ha, State.hostEvent_hce]
  rw [State.findSq_congr (congrArg HceSt.sqs hh), hh]
  exact ⟨rfl, hq, rfl, rfl⟩

theorem admission_commits (ha : s.admissible q.vsid c n = true) (ho : c.commitsAtOnce = true) :
    Gives (.admission v) s fun t => ∃ r, t.findTag s.freeTagNum = some r ∧ r.cap = c ∧ r.cid = c.cid ∧
      r.st = .committed ∧ r.seq = s.hce.seq + 1 :=
  admission_gives hp hv (State.visit_commits_gives (s := s.turned v i) he hc hi hn ha ho)

theorem admission_locks (ha : s.admissible q.vsid c n = true) (ho : c.commitsAtOnce = false) (h2 : c.opcode ≠ 2)
    (h5 : c.opcode ≠ 5) (hg : s.rfu.groups = []) :
    Gives (.admission v) s fun t =>
      (∃ r, t.findTag s.freeTagNum = some r ∧ r.cap = c ∧ r.cid = c.cid ∧ r.st = .admitted ∧ r.seq = s.hce.seq + 1) ∧
      ∀ p ∈ c.lockRanges n, ∃ e ∈ t.hce.rlt, e.tag = s.freeTagNum ∧ e.vsid = q.vsid ∧ e.nsid = c.nsid ∧
        e.first = p.1 ∧ e.last = p.1 + p.2 - 1 :=
  admission_gives hp hv (State.visit_locks_gives (s := s.turned v i) he hc hi hn ha ho h2 h5 hg)

end Admission

theorem State.ioCheck_unknown {c : Capsule} (h : ioKnown c.opcode = false) (s : State) (v : Nat) (t : Transport) :
    s.ioCheck v t c = some cplInvalidOpcode := by
  unfold State.ioCheck
  exact if_pos (by simp [h])

theorem invalidIoOpcode_gives {s : State} {cn sqid : Nat} {q : SubQ} {t0 : Nat} {c : Capsule}
    {rest : List (Option (Nat × Capsule))} (hq : s.findSq cn sqid = some q) (he : q.entries = some (t0, c) :: rest)
    (hv : s.visitable q = true) (ho : ioKnown c.opcode = false) (hn : s.hce.tags.length < 262144)
    (hf : s.shareFree q.vsid = true) (hc : ¬s.CidUsed q c.cid) :
    Gives (.invalidIoOpcode cn sqid) s fun t => ∃ r, t.findTag s.freeTagNum = some r ∧ r.cid = c.cid ∧ r.st = .squashing ∧
      r.result = some cplInvalidOpcode := by
  obtain ⟨r, hr, hcid, hst, hres, -, -⟩ := State.visit_fails_gives he hc (State.ioCheck_unknown ho s _ _) hn hf
  refine ⟨s.visit q, ?_, r, hr, hcid, hst, hres⟩
  rw [exec_invalidIoOpcode, execInvalidIoOpcode, hq]
  dsimp only
  rw [he]
  exact if_pos (by simp [hv, ho])

end Sys2Proof.Machine
end

section
/-! PROOFS. The first step of Flush, Write, Read and Compare, and the tag query (R33, R48, R52, R53, R204). -/

namespace Sys2Proof.Machine

theorem State.onTag_of {s : State} {k op : Nat} {st : TagSt} {r : TagRec} (h : s.findTag k = some r) (ho : r.cap.opcode = op)
    (hst : r.st = st) (f : TagRec → State) : s.onTag k op st f = f r := by
  unfold State.onTag
  rw [h]
  exact if_pos (by simp [ho, hst])

/-! ## Results (R54, R260) -/

/-- A result that is decided, and its RESPONDING record where a completion is to be posted. -/
theorem State.findTag_respond {s : State} {k : Nat} {r : TagRec} (h : s.findTag k = some r) (st : CplStatus) :
    ∃ m, (s.respond k st).findTag k = some { r with result := some st, respMseq := m } := by
  unfold State.respond
  rw [h]
  dsimp only
  split_ifs
  · refine ⟨r.respMseq, ?_⟩
    rw [State.findTag_updTag (by intro _; rfl), h]
    rfl
  · refine ⟨some (s.sendRec r .responding (some st)).lastMseq, ?_⟩
    rw [State.findTag_updTag (by intro _; rfl), State.findTag_congr (congrArg HceSt.tags (State.sendRec_hce ..)), h]
    rfl

theorem flush_gives {s : State} {k : Nat} {r : TagRec} (h : s.findTag k = some r) (ho : r.cap.opcode = 0)
    (hst : r.st = .committed) (hr : r.result = none) :
    Gives (.flush k) s fun t => ∃ m, t.findTag k = some { r with result := some cplSuccess, respMseq := m } := by
  refine ⟨s.respond k cplSuccess, ?_, State.findTag_respond h cplSuccess⟩
  rw [exec_flush, execFlush, State.onTag_of h ho hst, if_neg (by simp [hr])]

/-! ## The fetch of host data (R32, R33; log 66) -/

theorem State.sendR2ts_hce (s : State) (r : TagRec) (fuel off n : Nat) : (s.sendR2ts r fuel off n).hce = s.hce := by
  induction fuel generalizing s off n with
  | zero => rfl
  | succ fuel ih =>
    unfold State.sendR2ts
    dsimp only
    split_ifs
    · rfl
    · exact ih ..

theorem State.sendR2ts_out (s : State) (r : TagRec) (fuel off n : Nat) : s.out <:+ (s.sendR2ts r fuel off n).out := by
  induction fuel generalizing s off n with
  | zero => exact List.suffix_rfl
  | succ fuel ih =>
    unfold State.sendR2ts
    dsimp only
    split_ifs
    · exact List.suffix_rfl
    · exact (List.suffix_cons _ s.out).trans (ih (s.emit _) ..)

/-- The `i`-th R2T asks for MAXH2CDATA from its place on, the last one for what is left. -/
theorem State.sendR2ts_sent (s : State) (r : TagRec) (fuel off n i : Nat) (hi : i < fuel) (hn : 131072 * i < n) :
    s.Sent (s.sendR2ts r fuel off n)
      (.r2t r.cntlid r.sqid r.cid (off + 131072 * i) (Nat.min (n - 131072 * i) 131072)) := by
  induction fuel generalizing s off n i with
  | zero => omega
  | succ fuel ih =>
    unfold State.sendR2ts
    dsimp only
    rw [if_neg (by omega)]
    cases i with
    | zero => exact (State.Sent.emit s _).later (State.sendR2ts_out ..)
    | succ i =>
      have hk : Nat.min n 131072 = 131072 := Nat.min_eq_right (by omega)
      have hs := ih (s.emit (.r2t r.cntlid r.sqid r.cid off 131072)) (off + 131072) (n - 131072) i (by omega) (by omega)
      rw [show off + 131072 + 131072 * i = off + 131072 * (i + 1) by omega,
        show n - 131072 - 131072 * i = n - 131072 * (i + 1) by omega] at hs
      rw [hk]
      exact hs.before (List.suffix_cons _ _)

theorem State.startFetchData_hce (s : State) (r : TagRec) :
    (s.startFetchData r).hce = (s.updTag r.tag (fun x => { x with st := .executing, fetching := true })).hce := by
  unfold State.startFetchData
  dsimp only
  split
  · rfl
  · exact State.sendR2ts_hce ..

/-- From `s` to `t` the fetch of a tag's data begins: the tag executes, and the requests of its transport leave. -/
def State.Fetches (s t : State) (k : Nat) (r : TagRec) : Prop :=
  t.findTag k = some { r with st := .executing, fetching := true } ∧
  (s.transportOf r.cntlid r.sqid = .rdma → s.Sent t (.fetch r.cntlid r.sqid r.cid)) ∧
  (s.transportOf r.cntlid r.sqid = .tcp → ∀ n i, s.findNs r.vsid r.cap.nsid = some n → i < 16 → 131072 * i < r.cap.bytes n →
    s.Sent t (.r2t r.cntlid r.sqid r.cid (131072 * i) (Nat.min (r.cap.bytes n - 131072 * i) 131072)))

theorem State.startFetchData_fetches {s : State} {k : Nat} {r : TagRec} (h : s.findTag k = some r) :
    s.Fetches (s.startFetchData r) k r := by
  obtain rfl := State.tag_of_findTag h
  refine ⟨?_, fun ht => ?_, fun ht n i hn hi hb => ?_⟩
  · rw [State.findTag_congr (congrArg HceSt.tags (State.startFetchData_hce ..)), State.findTag_updTag (by intro _; rfl), h]
    rfl
  · unfold State.startFetchData
    rw [ht]
    exact .before List.suffix_rfl (.emit _ _)
  · unfold State.startFetchData
    rw [ht, hn]
    have hs := State.sendR2ts_sent (s.updTag r.tag (fun x => { x with st := .executing, fetching := true })) r 16 0
      (r.cap.bytes n) i hi hb
    rw [Nat.zero_add] at hs
    exact hs.before List.suffix_rfl

theorem write_gives {s : State} {k : Nat} {r : TagRec} (h : s.findTag k = some r) (ho : r.cap.opcode = 1)
    (hst : r.st = .admitted) :
    Gives (.write k) s fun t => s.Fetches t k r := by
  refine ⟨s.startFetchData r, ?_, State.startFetchData_fetches h⟩
  rw [exec_write, execWrite, State.onTag_of h ho hst]

theorem compare_gives {s : State} {k : Nat} {r : TagRec} (h : s.findTag k = some r) (ho : r.cap.opcode = 5)
    (hst : r.st = .admitted) (hl : s.locked k = false) :
    Gives (.compare k) s fun t => s.Fetches t k r := by
  have hl' : (s.startFetchData r).locked k = false := by
    rw [State.locked, State.startFetchData_hce]
    exact hl
  refine ⟨s.startFetchData r, ?_, State.startFetchData_fetches h⟩
  rw [exec_compare, execCompare, h]
  dsimp only
  rw [if_neg (by simp [ho, TagRec.open_, hst]), if_pos hst, if_neg (by simp [hl'])]

/-! ## Reads (R25, R89, R204) -/

theorem State.countSources_hce (s : State) (n : Ns) (a b : Nat) : (s.countSources n a b).hce = s.hce := by
  unfold State.countSources State.laneWork
  split_ifs <;> simp

/-- A read gathered alone executes with the blocks that buffer and cache hold. -/
theorem State.findTag_gatherRead {s : State} {k : Nat} {r : TagRec} (h : s.findTag k = some r) (n : Ns) :
    (s.gatherRead r n).findTag k = some { r with
      st := .executing
      blocks := (natsFrom (n.touch r.cap.slba r.cap.nlb).1 (n.touch r.cap.slba r.cap.nlb).2).map (s.nearBlock n) } := by
  obtain rfl := State.tag_of_findTag h
  have hc : ∀ a b, (s.countSources n a b).findTag r.tag = some r := fun a b =>
    (State.findTag_congr (congrArg HceSt.tags (s.countSources_hce n a b)) _).trans h
  unfold State.gatherRead
  dsimp only
  split
  · rw [State.findTag_updTag (by intro _; rfl), hc]
    rfl
  · split_ifs
    · rw [State.findTag_congr (State.releaseLocks_tags ..), State.findTag_updTag (by intro _; rfl), hc]
      rfl
    · rw [State.findTag_congr (congrArg HceSt.tags (State.startGather_hce ..)), State.findTag_updTag (by intro _; rfl), hc]
      rfl

theorem read_gives {s : State} {k : Nat} {r : TagRec} {n : Ns} (h : s.findTag k = some r) (ho : r.cap.opcode = 2)
    (hst : r.st = .admitted) (hl : s.locked k = true) (hg : r.group = none) (hi : r.intents = false)
    (hn : s.findNs r.vsid r.cap.nsid = some n) :
    Gives (.read k) s fun t =>
      if (natsFrom (n.touch r.cap.slba r.cap.nlb).1 (n.touch r.cap.slba r.cap.nlb).2).any
          (fun b => s.lostTouched r.vsid r.cap.nsid b) = true then
        t.findTag k = some { r with st := .squashing, result := some cplUnrecRead, post := true }
      else t.findTag k = some { r with
        st := .executing
        blocks := (natsFrom (n.touch r.cap.slba r.cap.nlb).1 (n.touch r.cap.slba r.cap.nlb).2).map (s.nearBlock n) } := by
  obtain rfl := State.tag_of_findTag h
  refine ⟨s.gatherOrFail r, ?_, ?_⟩
  · rw [exec_read, execRead, State.onTag_of h ho hst, if_pos (by simp [hl, hg])]
  · unfold State.gatherOrFail
    rw [hn]
    dsimp only
    split_ifs
    · exact State.findTag_squash h (by simp [TagRec.open_, hst]) hi cplUnrecRead true
    · exact State.findTag_gatherRead h n

/-! ## Tag query (R52, R54) -/

theorem tagqryWrite_gives (s : State) (w : Word) : Gives (.tagqryWrite w) s fun t =>
    match s.findTag (fieldOf w 17 0) with
    | none => t.hce.tagInfo = 0 ∧ t.hce.tagSq = 0
    | some r => t.hce.tagInfo = (place r.st.code 29 ||| place r.vsid 20 |||
          place ((if r.st = .responding ∨ (r.st = .squashing ∧ r.post = false) then 0 else r.cid) % 65536) 0) ∧
        t.hce.tagSq = (place (r.cntlid % 65536) 16 ||| place (r.sqid % 256) 0) := by
  refine ⟨s.tagqryWrite w, rfl, ?_⟩
  unfold State.tagqryWrite
  cases h : s.findTag (fieldOf w 17 0) with
  | none => simp [h]
  | some r => simp [h]

/-! ## The statement -/

/-- Settles O14, by the equations of one visit of admission, and of each first step. -/
theorem capsulesAreAdmitted : Obligations.CapsulesAreAdmitted := by
  unfold Obligations.CapsulesAreAdmitted
  refine ⟨fun s c sqid cap q k hq hk => capsuleIntake_gives cap hq hk, fun s v i q h => State.mem_of_pickQueue h,
    State.visitsLeft_iff, fun s v i q => exec_admission_lapses, fun s v i q t0 c rest hp hq he hv => ⟨?_, fun hc => ⟨?_, ?_⟩⟩,
    ?_, fun s k r => flush_gives, fun s k r => write_gives, fun s k r n => read_gives, fun s k r => compare_gives, tagqryWrite_gives⟩
  · exact fun hc => admission_conflict hp hv he hq hc
  · exact fun st hi hn hf => admission_fails hp hv he (fun ⟨r, hr, h⟩ => hc r hr h) hi hn hf
  · intro n hi hn
    have hc' : ¬s.CidUsed q c.cid := fun ⟨r, hr, h⟩ => hc r hr h
    exact ⟨admission_held hp hv he hc' hi hn hq, admission_commits hp hv he hc' hi hn, admission_locks hp hv he hc' hi hn⟩
  · intro s cn sqid q t0 c rest hq he hv ho hn hf hc
    exact invalidIoOpcode_gives hq he hv ho hn hf (fun ⟨r, hr, h⟩ => hc r hr h)

end Sys2Proof.Machine
end

section
/-! PROOFS. Data into the buffer, commit points, responses, squashing and lock grants (R45, R48, R52 to R55, R61, R66, R67,
R78, R80, R86). -/

namespace Sys2Proof.Machine

/-! ## A command's data enters the write buffer (R74, R84) -/

theorem State.wakeStacks_hce (s : State) : s.wakeStacks.hce = s.hce :=
  (Kept.wakeStacks (uu := { pwr := true }) (Kept.refl s) (hPwr := rfl)).only.hce.resolve_left Bool.false_ne_true

theorem State.foldl_mirSend2_hce (s : State) (bs : List StreamBody) : (bs.foldl State.mirSend2 s).hce = s.hce :=
  foldl_frame (g := State.hce) State.mirSend2_hce bs s

theorem mem_addNat {l : List Nat} {x y : Nat} : x ∈ addNat l y ↔ x ∈ l ∨ x = y := by
  unfold addNat
  split_ifs with h
  · have hy : y ∈ l := by simpa [hasNat] using h
    exact ⟨.inl, fun hx => hx.elim id (fun e => e ▸ hy)⟩
  · simp

theorem mem_foldl_addNat {l : List Nat} {x : Nat} : ∀ {a : List Nat}, x ∈ l.foldl addNat a ↔ x ∈ a ∨ x ∈ l := by
  induction l with
  | nil => simp
  | cons y l ih =>
    intro a
    rw [List.foldl_cons, ih, mem_addNat, List.mem_cons, or_assoc]

theorem mem_writeBlocks {ws : List BlockWrite} {b : Nat} : b ∈ writeBlocks ws ↔ ∃ w ∈ ws, w.blk = b := by
  rw [writeBlocks, mem_foldl_addNat]
  simp

/-- Blocks that are written as a whole need no stored content. -/
theorem wholeWrite_of_mem {ws : List BlockWrite} (hw : ∀ w ∈ ws, w.secs.length = 8) {b : Nat} (hb : b ∈ writeBlocks ws) :
    wholeWrite b ws = true := by
  obtain ⟨w, h, rfl⟩ := mem_writeBlocks.mp hb
  exact List.any_eq_true.mpr ⟨w, h, by simp [hw w h]⟩

section Place
variable {s : State} {k : Nat} {r : TagRec} {n : Ns}

/-- Whole blocks of a command whose locks are granted stand in the buffer under its version, and so do its deallocations. -/
theorem State.placeWrite_places (h : s.findTag k = some r) (hn : s.findNs r.vsid r.cap.nsid = some n) (hst : r.st = .executing)
    (hp : r.placed = false) (hl : s.locked k = true) (ho : r.cap.opcode ≠ 1) (hg : ∀ g ∈ s.rge.gathers, g.owner ≠ .tag k)
    (hw : ∀ w ∈ r.blockWrites n, w.secs.length = 8) :
    ∃ es ds wt m m2, (s.placeWrite k).hce = { s.hce with
        wb := s.hce.wb ++ es, deallocs := s.hce.deallocs ++ ds
        tags := updWhere (fun x => x.tag = k)
          (fun x => { x with placed := true, wt := wt, dataMseq := m, dataMseq2 := m2 }) s.hce.tags } ∧
      (∀ w ∈ r.blockWrites n, ∃ e ∈ es, e.vsid = r.vsid ∧ e.nsid = r.cap.nsid ∧ e.blk = w.blk ∧ e.ver = r.seq) ∧
      (r.deallocRanges n ≠ [] → ∃ d ∈ ds, d.tag = k ∧ d.ver = r.seq ∧ d.ranges = r.deallocRanges n) := by
  have hneed : (writeBlocks (r.blockWrites n)).filter
      (fun b => !wholeWrite b (r.blockWrites n) && (s.baseOf r n b).isNone) = [] :=
    List.filter_eq_nil_iff.mpr fun b hb => by simp [wholeWrite_of_mem hw hb]
  have hgather : s.rge.gathers.any (fun g => g.owner = .tag k) = false := by simpa using hg
  unfold State.placeWrite
  rw [h]
  dsimp only
  rw [hn]
  dsimp only
  rw [if_neg (by simp [hst, hp, hl, ho, hgather]), hneed, if_neg (by simp)]
  simp only [State.updTag_hce, State.vsCount_hce, State.hostEvent_hce, apply_ite State.hce, State.foldl_mirSend2_hce,
    State.mirSendAll_hce, ite_self, State.wakeStacks_hce]
  refine ⟨_, _, _, _, _, rfl, fun w hw => ?_, fun hd => ?_⟩
  · exact ⟨_, List.mem_map.mpr ⟨w.blk, mem_writeBlocks.mpr ⟨w, hw, rfl⟩, rfl⟩, rfl, rfl, rfl, rfl⟩
  · rw [if_neg (by simpa using hd)]
    exact ⟨_, List.mem_singleton_self _, rfl, rfl, rfl⟩

/-- The state in which a tag executes. -/
def State.executing (s : State) (k : Nat) : State := s.updTag k (fun x => { x with st := .executing })

theorem State.findTag_executing (h : s.findTag k = some r) : (s.executing k).findTag k = some { r with st := .executing } := by
  rw [State.executing, State.findTag_updTag (by intro _; rfl), h]
  rfl

theorem State.startChange_of (h : s.findTag k = some r) (hst : r.st = .admitted) :
    s.startChange k r.cap.opcode = (s.executing k).placeWrite k := State.onTag_of h rfl hst _

section Change
variable (h : s.findTag k = some r) (hst : r.st = .admitted) (hp : r.placed = false)
  (hn : s.findNs r.vsid r.cap.nsid = some n) (hg : ∀ g ∈ s.rge.gathers, g.owner ≠ .tag k)
  (hw : ∀ w ∈ r.blockWrites n, w.secs.length = 8)
include h hst hp hn hg hw

/-- The first step of a command that changes data and fetches none: its data is placed at once, or waits for the locks. -/
theorem State.startChange_gives (ho : r.cap.opcode ≠ 1) :
    if s.locked k = true then
      ((s.startChange k r.cap.opcode).findTag k).map (fun x => (x.st, x.placed)) = some (.executing, true) ∧
      (∀ w ∈ r.blockWrites n, ∃ e ∈ (s.startChange k r.cap.opcode).hce.wb,
        e.vsid = r.vsid ∧ e.nsid = r.cap.nsid ∧ e.blk = w.blk ∧ e.ver = r.seq) ∧
      (r.deallocRanges n ≠ [] → ∃ d ∈ (s.startChange k r.cap.opcode).hce.deallocs,
        d.tag = k ∧ d.ver = r.seq ∧ d.ranges = r.deallocRanges n)
    else (s.startChange k r.cap.opcode).findTag k = some { r with st := .executing } := by
  have he := State.findTag_executing h
  rw [State.startChange_of h hst]
  split_ifs with hl
  · obtain ⟨es, ds, wt, m, m2, hh, hes, hds⟩ := State.placeWrite_places he hn rfl hp hl ho hg hw
    refine ⟨?_, fun w hw => ?_, fun hd => ?_⟩
    · rw [State.findTag, hh]
      dsimp only
      rw [find_updWhere (p := fun x : TagRec => x.tag = k) (by simp)]
      change Option.map _ (Option.map _ ((s.executing k).findTag k)) = _
      rw [he]
      rfl
    · obtain ⟨e, hm, h'⟩ := hes w hw
      rw [hh]
      exact ⟨e, List.mem_append_right _ hm, h'⟩
    · obtain ⟨d, hm, h'⟩ := hds hd
      rw [hh]
      exact ⟨d, List.mem_append_right _ hm, h'⟩
  · rw [State.placeWrite_waits he (.inr (Bool.eq_false_iff.mpr hl)), he]

theorem writeZeroes_gives (ho : r.cap.opcode = 8) :
    Gives (.writeZeroes k) s fun t =>
      if s.locked k = true then (t.findTag k).map (fun x => (x.st, x.placed)) = some (.executing, true) ∧
        (∀ w ∈ r.blockWrites n, ∃ e ∈ t.hce.wb, e.vsid = r.vsid ∧ e.nsid = r.cap.nsid ∧ e.blk = w.blk ∧ e.ver = r.seq)
      else t.findTag k = some { r with st := .executing } := by
  have hs := State.startChange_gives h hst hp hn hg hw (by omega)
  refine ⟨s.startChange k r.cap.opcode, by rw [exec_writeZeroes, execWriteZeroes, ho], ?_⟩
  split_ifs at hs ⊢
  · exact ⟨hs.1, hs.2.1⟩
  · exact hs

theorem datasetManagement_deallocates (ho : r.cap.opcode = 9) (hd : r.cap.deallocate = true) :
    Gives (.datasetManagement k) s fun t =>
      if s.locked k = true then (t.findTag k).map (fun x => (x.st, x.placed)) = some (.executing, true) ∧
        (r.deallocRanges n ≠ [] → ∃ d ∈ t.hce.deallocs, d.tag = k ∧ d.ver = r.seq ∧ d.ranges = r.deallocRanges n)
      else t.findTag k = some { r with st := .executing } := by
  have hs := State.startChange_gives h hst hp hn hg hw (by omega)
  refine ⟨s.startChange k r.cap.opcode, ?_, ?_⟩
  · rw [exec_datasetManagement, execDatasetManagement, h]
    dsimp only
    rw [if_neg (by simp [ho]), if_pos hd, ho]
  · split_ifs at hs ⊢
    · exact ⟨hs.1, hs.2.2⟩
    · exact hs

end Change

/-- Dataset Management that deallocates nothing has its result at once (R48). -/
theorem datasetManagement_completes (h : s.findTag k = some r) (ho : r.cap.opcode = 9) (hd : r.cap.deallocate = false)
    (hst : r.st = .committed) (hr : r.result = none) :
    Gives (.datasetManagement k) s fun t => ∃ m, t.findTag k = some { r with result := some cplSuccess, respMseq := m } := by
  refine ⟨s.respond k cplSuccess, ?_, State.findTag_respond h cplSuccess⟩
  rw [exec_datasetManagement, execDatasetManagement, h]
  dsimp only
  rw [if_neg (by simp [ho]), if_neg (by simp [hd]), if_pos (by simp [hst, hr])]

/-! ## Host data (R61, R87) -/

/-- The tag's transfer is over. -/
def State.fetched (s : State) (k : Nat) : State := s.updTag k (fun x => { x with fetching := false })

theorem State.findTag_fetched (h : s.findTag k = some r) : (s.fetched k).findTag k = some { r with fetching := false } := by
  rw [State.fetched, State.findTag_updTag (by intro _; rfl), h]
  rfl

theorem hostDataReceived_fails (h : s.findTag k = some r) (hf : r.fetching = true) (ho : r.open_ = true)
    (hi : r.intents = false) (hn : s.findNs r.vsid r.cap.nsid = some n) {ok : Bool} {xs : List Sector}
    (hx : ok = false ∨ xs.length ≠ (n.sectors r.cap.slba r.cap.nlb).2) :
    Gives (.hostDataReceived k ok xs) s fun t => t.findTag k = some { r with
      fetching := false, st := .squashing, result := some cplTransferError, post := true } := by
  refine ⟨(s.fetched k).failTag k cplTransferError, ?_, State.findTag_squash (State.findTag_fetched h) ho hi _ _⟩
  rw [exec_hostDataReceived, execHostDataReceived, h]
  dsimp only
  rw [if_neg (by simp [hf]), if_neg (by simp [ho]), hn]
  exact if_pos (by simpa using hx)

theorem hostDataReceived_holds (h : s.findTag k = some r) (hf : r.fetching = true) (ho : r.open_ = true)
    (hn : s.findNs r.vsid r.cap.nsid = some n) {xs : List Sector} (hx : xs.length = (n.sectors r.cap.slba r.cap.nlb).2)
    (hop : r.cap.opcode = 5 ∨ (r.cap.opcode = 1 ∧ s.locked k = false)) :
    Gives (.hostDataReceived k true xs) s fun t => t.findTag k = some { r with
      fetching := false, dataIn := true, hostData := xs } := by
  have hd : ((s.fetched k).updTag k (fun x => { x with dataIn := true, hostData := xs })).findTag k =
      some { r with fetching := false, dataIn := true, hostData := xs } := by
    rw [State.findTag_updTag (by intro _; rfl), State.findTag_fetched h]
    rfl
  refine ⟨_, ?_, hd⟩
  rw [exec_hostDataReceived, execHostDataReceived, h]
  dsimp only
  rw [if_neg (by simp [hf]), if_neg (by simp [ho]), hn]
  dsimp only
  rw [if_neg (by simp [hx])]
  rcases hop with h5 | ⟨h1, hl⟩
  · exact if_neg (by omega)
  · rw [if_pos h1]
    exact congrArg _ (State.placeWrite_waits hd (.inr hl))

end Place

/-- Read data leaves for its host. -/
theorem State.sendRead_sent (s : State) (r : TagRec) (inp : Nat) (secs : List Sector) :
    s.Sent (s.sendRead r inp secs) (.readData (s.transportOf r.cntlid r.sqid) r.cntlid r.sqid r.cid secs) := by
  refine .later (v := s.sendRead r inp secs) (t := s.giveRead r secs) ?_
    (Kept.dataFrames (uu := { xbr := true }) r inp 0 _ (.refl _) rfl).out
  exact (State.Sent.emit s _).later ((State.hostEvent_kept ..).out.trans (State.vsCount_kept ..).out)

/-! ## Commit points (R53, R76 to R79) -/

theorem State.supersede_tags (s : State) (v n b cnt ver : Nat) : (s.supersede v n b cnt ver).hce.tags = s.hce.tags := by
  unfold State.supersede
  exact foldl_frame (g := fun t => t.hce.tags) (fun t e => congrArg HceSt.tags (t.freeNotice_hce ..)) _ _

/-- Versions become dirty and supersede others: the tags stand as they did. -/
theorem State.commitVersion_tags (s : State) (ver : Nat) : (s.commitVersion ver).hce.tags = s.hce.tags := by
  unfold State.commitVersion
  dsimp only
  rw [foldl_frame (g := fun t : State => t.hce.tags) (fun t d =>
      foldl_frame (g := fun t : State => t.hce.tags) (fun u x => State.supersede_tags u ..) _ t),
    foldl_frame (g := fun t : State => t.hce.tags) (fun t m => State.supersede_tags t ..)]

section Commit
variable {s : State} {k : Nat} {r : TagRec} {n : Ns}

/-- A tag with a completion to post is not settled: it waits for its response. -/
theorem State.settle_posts (h : s.findTag k = some r) (hp : r.post = true) : s.settle k = s := by
  unfold State.settle
  rw [h]
  exact if_neg (by simp [hp])

/-- A tag past its commit point. -/
def State.committed (s : State) (k : Nat) : State := s.updTag k (fun x => { x with st := .committed })

theorem State.findTag_committed (h : s.findTag k = some r) : (s.committed k).findTag k = some { r with st := .committed } := by
  rw [State.committed, State.findTag_updTag (by intro _; rfl), h]
  rfl

theorem State.findTag_commitWrite (h : s.findTag k = some r) :
    ∃ m, (s.commitWrite r).findTag k = some { r with st := .committed, result := some cplSuccess, respMseq := m } := by
  obtain rfl := State.tag_of_findTag h
  refine State.findTag_respond (State.findTag_committed ?_) cplSuccess
  rw [State.findTag_congr ((State.releaseLocks_tags ..).trans (State.commitVersion_tags ..)), h]

theorem commitPoint_write (h : s.findTag k = some r) (hst : r.st = .executing) (hp : r.post = true)
    (hn : s.findNs r.vsid r.cap.nsid = some n) (h2 : r.cap.opcode ≠ 2) (h5 : r.cap.opcode ≠ 5) (hc : s.writeCommits r = true) :
    Gives (.commitPoint k) s fun t => ∃ m, t.findTag k = some { r with
      st := .committed, result := some cplSuccess, respMseq := m } := by
  obtain ⟨m, hm⟩ := State.findTag_commitWrite h
  refine ⟨s.commitWrite r, ?_, m, hm⟩
  rw [exec_commitPoint, execCommitPoint, h]
  dsimp only
  rw [hn]
  dsimp only
  rw [if_neg (by simp [hst]), if_neg (by simp [h2, h5]), if_pos hc, State.settle_posts hm hp]

/-- A Read or Compare whose COMMITTED record the peer holds commits; a Read's data leaves with it (R53, R260). -/
theorem State.commitRead_of (hr : r.readMseq = some m) (hm : s.peerHolds m = true) (hp : r.post = true) :
    s.commitRead r n = if r.cap.opcode = 2 then
        ((s.committed r.tag).sendRead r 8 (readSectors n r.cap.slba r.cap.nlb r.blocks)).respond r.tag cplSuccess
      else (s.committed r.tag).respond r.tag (s.compareResult r n) := by
  unfold State.commitRead
  rw [hr]
  dsimp only
  rw [if_neg (by simp [hm]), if_pos hp]
  rfl

theorem exec_commitPoint_read (h : s.findTag k = some r) (hst : r.st = .executing) (hn : s.findNs r.vsid r.cap.nsid = some n)
    (ho : r.cap.opcode = 2 ∨ r.cap.opcode = 5 ∧ r.dataIn = true) (hg : r.group = none) (hd : r.gathered = true) :
    exec (.commitPoint k) s = .next ((s.commitRead r n).settle k) := by
  rw [exec_commitPoint, execCommitPoint, h]
  dsimp only
  rw [hn]
  dsimp only
  rw [if_neg (by simp [hst]), if_pos (by rcases ho with h2 | ⟨h5, -⟩ <;> simp [*]), hg]
  exact if_pos (by rcases ho with h2 | ⟨-, hi⟩ <;> simp [*])

variable {m : Nat}

theorem commitPoint_read (h : s.findTag k = some r) (hst : r.st = .executing) (hp : r.post = true)
    (hn : s.findNs r.vsid r.cap.nsid = some n) (hg : r.group = none) (hd : r.gathered = true) (hr : r.readMseq = some m)
    (hm : s.peerHolds m = true) (ho : r.cap.opcode = 2) :
    Gives (.commitPoint k) s fun t =>
      s.Sent t (.readData (s.transportOf r.cntlid r.sqid) r.cntlid r.sqid r.cid (readSectors n r.cap.slba r.cap.nlb r.blocks)) ∧
      ∃ m, t.findTag k = some { r with st := .committed, result := some cplSuccess, respMseq := m } := by
  obtain rfl := State.tag_of_findTag h
  have hs : ((s.committed r.tag).sendRead r 8 (readSectors n r.cap.slba r.cap.nlb r.blocks)).findTag r.tag =
      some { r with st := .committed } := by
    rw [State.findTag_congr (congrArg HceSt.tags (State.sendRead_hce ..)), State.findTag_committed h]
  obtain ⟨m', hm'⟩ := State.findTag_respond hs cplSuccess
  refine ⟨_, ?_, ?_, m', hm'⟩
  · rw [exec_commitPoint_read h hst hn (.inl ho) hg hd, State.commitRead_of hr hm hp, if_pos ho, State.settle_posts hm' hp]
  · exact .later (.before List.suffix_rfl (State.sendRead_sent (s.committed r.tag) ..)) (State.respond_kept ..).out

theorem commitPoint_compare (h : s.findTag k = some r) (hst : r.st = .executing) (hp : r.post = true)
    (hn : s.findNs r.vsid r.cap.nsid = some n) (hg : r.group = none) (hd : r.gathered = true) (hr : r.readMseq = some m)
    (hm : s.peerHolds m = true) (ho : r.cap.opcode = 5) (hi : r.dataIn = true) :
    Gives (.commitPoint k) s fun t => ∃ m, t.findTag k = some { r with
      st := .committed, respMseq := m
      result := some (if readSectors n r.cap.slba r.cap.nlb r.blocks = r.hostData then cplSuccess else cplCompare) } := by
  obtain rfl := State.tag_of_findTag h
  obtain ⟨m', hm'⟩ := State.findTag_respond (State.findTag_committed h) (s.compareResult r n)
  refine ⟨_, ?_, m', hm'⟩
  rw [exec_commitPoint_read h hst hn (.inr ⟨ho, hi⟩) hg hd, State.commitRead_of hr hm hp, if_neg (by omega),
    State.settle_posts hm' hp]

end Commit

/-! ## Responses and tags that become free (R52, R54, R55, R66, R67) -/

theorem State.handOff_sent (s : State) (r : TagRec) (st : CplStatus) :
    ∃ h, s.Sent (s.handOff r st) (.cqe r.cntlid r.sqid r.cid st 0 h) := by
  refine ⟨_, .later (.before List.suffix_rfl (State.postCqe_sent
    (s.updTag r.tag (fun x => { x with st := .responding, cidMapped := false })) r.cntlid r.sqid r.cid st 0 (s.failLba r st))) ?_⟩
  exact (Kept.sendInvalidate (uu := { out := true }) r (.refl _) rfl).out.trans ((State.countCpl_kept ..).out.trans
    ((State.groupDone_kept ..).out.trans (State.finishAborts_kept ..).out))

section Respond
variable {s : State} {k m : Nat} {r : TagRec} {st : CplStatus}

theorem State.tryHandOff_of (h : s.findTag k = some r) (hst : r.st = .committed ∨ r.st = .squashing) (hp : r.post = true)
    (hb : s.engineBusy r = false) (hr : r.result = some st) (hm : r.respMseq = some m) (hh : s.peerHolds m = true) :
    s.tryHandOff k = s.handOff r st := by
  unfold State.tryHandOff
  rw [h]
  dsimp only
  rw [hr, hm]
  exact if_pos (by rcases hst with hst | hst <;> simp [hst, hp, hb, hh])

theorem responseHandoff_gives (h : s.findTag k = some r) (hst : r.st = .committed ∨ r.st = .squashing) (hp : r.post = true)
    (hb : s.engineBusy r = false) (hr : r.result = some st) (hm : r.respMseq = some m) (hh : s.peerHolds m = true) :
    Gives (.responseHandoff k) s fun t => ∃ h, s.Sent t (.cqe r.cntlid r.sqid r.cid st 0 h) := by
  refine ⟨s.handOff r st, ?_, s.handOff_sent r st⟩
  rw [exec_responseHandoff, execResponseHandoff, State.tryHandOff_of h hst hp hb hr hm hh]

theorem squashComplete_posts (h : s.findTag k = some r) (hst : r.st = .squashing) (hp : r.post = true)
    (hb : s.engineBusy r = false) (hr : r.result = some st) (hm : r.respMseq = some m) (hh : s.peerHolds m = true) :
    Gives (.squashComplete k) s fun t => ∃ h, s.Sent t (.cqe r.cntlid r.sqid r.cid st 0 h) := by
  refine ⟨s.handOff r st, ?_, s.handOff_sent r st⟩
  rw [exec_squashComplete, execSquashComplete, h]
  dsimp only
  rw [if_neg (by simp [hst, hb]), if_neg (by simp [hp]), if_pos (by simp [hm]),
    State.tryHandOff_of h (.inr hst) hp hb hr hm hh]

/-- A tag that is freed is found no more. -/
theorem State.findTag_freeTag (s : State) (k : Nat) : (s.freeTag k).findTag k = none := by
  unfold State.freeTag
  split
  next h => exact h
  next => exact List.find?_eq_none.mpr fun x hx => by simpa using (List.mem_filter.mp hx).2

theorem State.finishAborts_tags (s : State) (c k : Nat) : (s.finishAborts c k).hce.tags = s.hce.tags := by
  unfold State.finishAborts
  split
  · rfl
  · dsimp only
    rw [foldl_frame (g := fun t : State => t.hce.tags) (fun t a => by rw [State.bumpHalf_hce, State.adminDone_hce_ok])]
    rfl

theorem responseAcknowledged_gives (h : s.findTag k = some r) (hst : r.st = .responding) :
    Gives (.responseAcknowledged k) s fun t => t.findTag k = none := by
  refine ⟨s.freeTag k, ?_, s.findTag_freeTag k⟩
  rw [exec_responseAcknowledged, execResponseAcknowledged, h]
  exact if_pos hst

theorem squashComplete_frees (h : s.findTag k = some r) (hst : r.st = .squashing) (hb : s.engineBusy r = false)
    (hp : r.post = false) : Gives (.squashComplete k) s fun t => t.findTag k = none := by
  refine ⟨(s.freeTag k).finishAborts r.cntlid k, ?_, ?_⟩
  · rw [exec_squashComplete, execSquashComplete, h]
    dsimp only
    rw [if_neg (by simp [hst, hb]), if_pos (by simp [hp])]
  · exact (State.findTag_congr (State.finishAborts_tags ..) k).trans (s.findTag_freeTag k)

end Respond

/-! ## Lock grants and the join copy (R80, R86) -/

theorem State.holdsLock_grantLocks (s : State) (k : Nat) : (s.grantLocks k).holdsLock k = s.holdsLock k := by
  simp only [State.holdsLock, State.grantLocks, updWhere, List.any_map]
  refine congrArg (List.any s.hce.rlt) (funext fun e => ?_)
  dsimp only [Function.comp]
  split_ifs <;> rfl

theorem State.locked_grantLocks (s : State) (k : Nat) : (s.grantLocks k).locked k = true := by
  refine List.all_eq_true.mpr fun e he => ?_
  obtain ⟨e', -, rfl⟩ := List.mem_map.mp he
  by_cases h : e'.tag = k <;> simp [h]

theorem rangeLockGrant_gives {s : State} {k : Nat} {r : TagRec} (h : s.findTag k = some r) (hst : r.st = .admitted)
    (h2 : r.cap.opcode ≠ 2) (h5 : r.cap.opcode ≠ 5) (hg : s.rfu.groups = []) (hl : s.holdsLock k = true)
    (hf : s.lockFree k = true) :
    Gives (.rangeLockGrant k) s fun t => t.holdsLock k = true ∧ t.locked k = true := by
  refine ⟨s.tryLock k, rfl, ?_⟩
  rw [State.tryLock_admitted h hst h2 h5 hg]
  cases hk : s.locked k with
  | true => simp [hl, hk]
  | false => simp [hl, hf, State.holdsLock_grantLocks, State.locked_grantLocks]

theorem joinCopyComplete_gives {s : State} {m : Nat} (hm : s.rfx.joinMseq = some m) (ho : s.rfx.out1.isOpen = true)
    (ha : m ≤ s.rfx.out1.acked) :
    Gives .joinCopyComplete s fun t => t.rfx.joinMseq = none ∧ t.hce.wtJoinCopy = false := by
  refine ⟨(s.updRfx (fun x => { x with joinMseq := none })).updHce (fun h => { h with wtJoinCopy := false }), ?_, rfl, rfl⟩
  rw [exec_joinCopyComplete, execJoinCopyComplete, hm]
  exact if_pos (by simp [ho, ha])

/-! ## The statement -/

/-- Settles O15, by what placing, committing, responding and freeing do to a tag's record. -/
theorem commandsCommitAndComplete : Obligations.CommandsCommitAndComplete := by
  unfold Obligations.CommandsCommitAndComplete
  refine ⟨fun s k r n h hst hp hn hg hw => ?_, fun s k r => datasetManagement_completes, fun s k r n ok xs h hf ho hi hn => ?_,
    fun s k r n h hst hp hn => ?_, fun s k r st m h hst hp hb hr hm hh => ?_, fun s k r => responseAcknowledged_gives,
    fun s k r => squashComplete_frees, fun s k r => rangeLockGrant_gives, fun s m => joinCopyComplete_gives⟩
  · exact ⟨writeZeroes_gives h hst hp hn hg hw, datasetManagement_deallocates h hst hp hn hg hw⟩
  · exact ⟨hostDataReceived_fails h hf ho hi hn, fun hok hx hop => hok ▸ hostDataReceived_holds h hf ho hn hx hop⟩
  · exact ⟨commitPoint_write h hst hp hn, fun m hg hd hr hm =>
      ⟨commitPoint_read h hst hp hn hg hd hr hm, commitPoint_compare h hst hp hn hg hd hr hm⟩⟩
  · exact ⟨responseHandoff_gives h hst hp hb hr hm hh, fun hs => squashComplete_posts h hs hp hb hr hm hh⟩

end Sys2Proof.Machine
end

section
/-! PROOFS. The statement of supplies, the power-fail flush, power-up, restart and thermal trip (chapters 03 and 16). -/

namespace Sys2Proof.Machine

/-! ## What a loss of power leaves (R503) -/

/-- The power unit's state as the rails fall: nothing of it for a module that is down already. -/
def PwrSt.fallen (p : PwrSt) : PwrSt :=
  if p.up then
    { p with
      up := false, railsUp := [], domOn := [0], domRet := [], waking := [], lullRun := 0, dozeRun := 0, idents := []
      util := [0, 0, 0, 0], shed := [], coreRot := 0 }
  else p

section
variable (p : PwrSt)

@[simp] theorem PwrSt.fallen_up : p.fallen.up = false := by
  unfold PwrSt.fallen
  split
  · rfl
  · simp_all

@[simp] theorem PwrSt.fallen_efRetry : p.fallen.efRetry = p.efRetry := by
  unfold PwrSt.fallen
  split <;> rfl

@[simp] theorem PwrSt.fallen_mode : p.fallen.mode = p.mode := by
  unfold PwrSt.fallen
  split <;> rfl

end

/-- What a module still does before its rails fall (R471, R503). -/
def State.lastActs (s : State) : State :=
  let t := s.hbStop.cutFlush.dropBays
  if s.slot = .a && s.bay.holder then t.emit (.pin .bholdA true) else t

theorem State.powerDown_of_up {s : State} (h : s.pwr.up = true) (e : Bool) :
    s.powerDown e = s.lastActs.rebooted.updPwr (fun p => { p with efOn := e }) :=
  if_neg (by simp [h])

theorem State.powerDown_of_down {s : State} (h : s.pwr.up = false) (e : Bool) :
    s.powerDown e = s.updPwr (fun p => { p with efOn := e }) :=
  if_pos (by simp [h])

@[simp] theorem State.hbStop_hbOut (s : State) : s.hbStop.tk.hbOut = false := by
  unfold State.hbStop
  split
  · rfl
  · simp_all

@[simp] theorem State.hbStop_fenceIn (s : State) : s.hbStop.tk.fenceIn = s.tk.fenceIn := by
  unfold State.hbStop
  split <;> rfl

@[simp] theorem State.hbStop_pwr (s : State) : s.hbStop.pwr = s.pwr := by
  unfold State.hbStop
  split <;> rfl

@[simp] theorem State.hbStop_hce (s : State) : s.hbStop.hce = s.hce := by
  unfold State.hbStop
  split <;> rfl

theorem State.cutFlush_of_not_flushing {s : State} (h : s.hce.flushing = false) : s.cutFlush = s :=
  if_neg (by simp [h])

@[simp] theorem State.cutFlush_pwr (s : State) : s.cutFlush.pwr = s.pwr := by
  unfold State.cutFlush
  split <;> rfl

@[simp] theorem State.cutFlush_tk (s : State) : s.cutFlush.tk = s.tk := by
  unfold State.cutFlush
  split <;> rfl

@[simp] theorem State.cutFlush_flushMark (s : State) : s.cutFlush.hce.flushMark = s.hce.flushMark := by
  unfold State.cutFlush
  split <;> rfl

@[simp] theorem State.lastActs_pwr (s : State) : s.lastActs.pwr = s.pwr := by
  have h : s.hbStop.cutFlush.dropBays.pwr = s.pwr := (State.cutFlush_pwr _).trans s.hbStop_pwr
  unfold State.lastActs
  split <;> exact h

@[simp] theorem State.lastActs_fenceIn (s : State) : s.lastActs.tk.fenceIn = s.tk.fenceIn := by
  have h : s.hbStop.cutFlush.dropBays.tk.fenceIn = s.tk.fenceIn :=
    (congrArg TkSt.fenceIn (State.cutFlush_tk _)).trans s.hbStop_fenceIn
  unfold State.lastActs
  split <;> exact h

theorem State.lastActs_hce (s : State) : s.lastActs.hce = s.hbStop.cutFlush.hce := by
  unfold State.lastActs
  split <;> rfl

/-- A flag that a condition raises changes only its register. -/
theorem frame_ite_raiseFlag {β : Type} {g : State → β} (hg : ∀ t a i, g (State.raiseFlag t a i) = g t) (c : Bool)
    (t : State) (a i : Nat) : g (if c then t.raiseFlag a i else t) = g t := by
  split
  · exact hg t a i
  · rfl

theorem State.rebooted_pwr_of_up {s : State} (h : s.pwr.up = true) : s.rebooted.pwr = s.pwr.fallen := by
  unfold State.rebooted PwrSt.fallen
  rw [if_pos h]
  exact frame_ite_raiseFlag (g := fun t => t.pwr) (fun _ _ _ => rfl) ..

/-- What a reboot leaves of the host command engine (R592). -/
theorem State.rebooted_hce (s : State) : s.rebooted.hce =
    { seq := s.hce.seq, flushMark := s.hce.flushMark, flushArea := s.hce.flushArea, flushRecs := s.hce.flushRecs
      flushRings := s.hce.flushRings, notWhole := s.hce.notWhole, sanitized := s.hce.sanitized
      progress := s.hce.progress.map (fun p => { p with cmd := none, asleep := true }) } :=
  frame_ite_raiseFlag (g := fun t => t.hce) (fun _ _ _ => rfl) ..

theorem State.rebooted_hbOut (s : State) : s.rebooted.tk.hbOut = false :=
  frame_ite_raiseFlag (g := fun t => t.tk.hbOut) (fun _ _ _ => rfl) ..

theorem State.rebooted_fenceIn (s : State) : s.rebooted.tk.fenceIn = s.tk.fenceIn :=
  frame_ite_raiseFlag (g := fun t => t.tk.fenceIn) (fun _ _ _ => rfl) ..

@[simp] theorem State.powerDown_pwr (s : State) (e : Bool) : (s.powerDown e).pwr = { s.pwr.fallen with efOn := e } := by
  cases h : s.pwr.up with
  | true => rw [State.powerDown_of_up h, State.updPwr_pwr, State.rebooted_pwr_of_up (by simpa using h), State.lastActs_pwr]
  | false => rw [State.powerDown_of_down h, State.updPwr_pwr, PwrSt.fallen, if_neg (by simp [h])]

@[simp] theorem State.powerDown_fenceIn (s : State) (e : Bool) : (s.powerDown e).tk.fenceIn = s.tk.fenceIn := by
  cases h : s.pwr.up with
  | true => rw [State.powerDown_of_up h]; exact (State.rebooted_fenceIn _).trans s.lastActs_fenceIn
  | false => rw [State.powerDown_of_down h]; rfl

section
variable {s : State} (h : s.pwr.up = true) (e : Bool)
include h

theorem State.powerDown_hce : (s.powerDown e).hce = s.lastActs.rebooted.hce := by
  rw [State.powerDown_of_up h]
  rfl

theorem State.powerDown_hce_of_not_flushing (hf : s.hce.flushing = false) : (s.powerDown e).hce = s.rebooted.hce := by
  rw [State.powerDown_hce h, State.rebooted_hce, State.rebooted_hce, State.lastActs_hce,
    State.cutFlush_of_not_flushing (by rw [State.hbStop_hce, hf]), State.hbStop_hce]

theorem State.powerDown_hbOut : (s.powerDown e).tk.hbOut = false := by
  rw [State.powerDown_of_up h]
  exact State.rebooted_hbOut _

theorem State.powerDown_wb : (s.powerDown e).hce.wb = [] := by
  rw [State.powerDown_hce h, State.rebooted_hce]

theorem State.powerDown_conns : (s.powerDown e).hce.conns = [] := by
  rw [State.powerDown_hce h, State.rebooted_hce]

theorem State.powerDown_flushMark : (s.powerDown e).hce.flushMark = s.hce.flushMark := by
  simp only [State.powerDown_hce h, State.rebooted_hce, State.lastActs_hce, State.cutFlush_flushMark, State.hbStop_hce]

end

/-! ## The flush begins (R96) -/

/-- The two flags of a flush in progress. -/
def HceSt.stopped (h : HceSt) : Bool × Bool := (h.halted, h.flushing)

@[simp] theorem State.freeTag_stopped (s : State) (t : Nat) : (s.freeTag t).hce.stopped = s.hce.stopped := by
  unfold State.freeTag
  split
  · rfl
  next r _ =>
    exact (congrArg HceSt.stopped (s.sendRec_hce r (if r.st = .squashing then .squashed else .freed) none) :)

@[simp] theorem State.squash_stopped (s : State) (t : Nat) (st : CplStatus) (post : Bool) :
    (s.squash t st post).hce.stopped = s.hce.stopped := by
  unfold State.squash
  split
  · rfl
  next r _ =>
    split
    · rfl
    · exact (congrArg HceSt.stopped ((s.releaseLocks t).dropVersion_hce r.seq) :)

@[simp] theorem State.settle_stopped (s : State) (t : Nat) : (s.settle t).hce.stopped = s.hce.stopped := by
  unfold State.settle
  split
  · split
    · exact s.freeTag_stopped t
    · rfl
  · rfl

/-- A tag that is wound up leaves a flush in progress and admission stopped. -/
theorem State.windTag_stopped (s : State) (t : Nat) : (s.windTag t).hce.stopped = s.hce.stopped := by
  unfold State.windTag
  split
  · rfl
  next r _ =>
    split
    · exact s.freeTag_stopped t
    · have h : ((if r.open_ then s else s.dropCopies t).updTag t (fun x => { x with post := false })).hce.stopped =
          s.hce.stopped := by split <;> rfl
      dsimp only
      split
      · exact (State.squash_stopped ..).trans h
      · exact (State.settle_stopped ..).trans h

@[simp] theorem State.writeGroups_hce (s : State) (gs : List FlushGroup) : (s.writeGroups gs).hce = s.hce :=
  (Kept.writeGroups (uu := { bay := true, pmu := true, moved := true, out := true }) gs
    (.refl s) rfl rfl rfl rfl).only.hce.resolve_left Bool.false_ne_true

@[simp] theorem State.laneWork_hce (s : State) (n p : Nat) : (s.laneWork n p).hce = s.hce := by
  unfold State.laneWork
  split
  · rfl
  · exact State.count_hce ..

@[simp] theorem State.startFlush_pwr (s : State) : s.startFlush.pwr = s.pwr :=
  (Kept.startFlush (uu := { hce := true, rfu := true, rfx := true, bay := true, xbr := true, pmu := true, moved := true,
                            out := true, free := true }) (.refl s) rfl rfl rfl rfl rfl rfl rfl rfl rfl).only.pwr.resolve_left
    Bool.false_ne_true

theorem State.startFlush_hce {s : State} (hu : s.pwr.up = true) (hf : s.hce.flushing = false) :
    s.startFlush.hce.flushing = true ∧ s.startFlush.hce.halted = true ∧ s.startFlush.hce.flushMark = false := by
  unfold State.startFlush
  rw [if_neg (by simp [hu, hf])]
  dsimp only
  rw [State.laneWork_hce, State.writeGroups_hce, State.updHce_hce]
  have h := foldl_frame (g := fun t : State => t.hce.stopped) State.windTag_stopped (s.tagsOf (fun r => r.open_ && !r.intents))
    (s.updHce (fun x => { x with halted := true, flushing := true }))
  exact ⟨congrArg Prod.snd h, congrArg Prod.fst h, rfl⟩

/-! ## Waking (R517) -/

theorem State.wakeDom_pwr (s : State) (d : Nat) : ∃ w, (s.wakeDom d).pwr = { s.pwr with waking := w } := by
  unfold State.wakeDom
  split
  · exact ⟨_, rfl⟩
  · exact ⟨_, rfl⟩

/-- A wake of domains changes only the list of those that wake. -/
theorem State.wakeAll_pwr (ds : List Nat) : ∀ s : State, ∃ w, (s.wakeAll ds).pwr = { s.pwr with waking := w } := by
  induction ds with
  | nil => exact fun s => ⟨_, rfl⟩
  | cons d ds ih =>
    intro s
    obtain ⟨w, hw⟩ := s.wakeDom_pwr d
    obtain ⟨v, hv⟩ := ih (s.wakeDom d)
    exact ⟨v, hv.trans (by rw [hw])⟩

@[simp] theorem State.wakeAll_hce (s : State) (ds : List Nat) : (s.wakeAll ds).hce = s.hce :=
  (Kept.wakeAll (uu := { pwr := true }) ds (.refl s) rfl).only.hce.resolve_left Bool.false_ne_true


/-! ## A module that runs goes on running while a peer is declared dead (R266, R518, R534) -/

theorem State.wakeAll_up (s : State) (ds : List Nat) : (s.wakeAll ds).pwr.up = s.pwr.up := by
  obtain ⟨w, hw⟩ := State.wakeAll_pwr ds s
  rw [hw]

theorem State.wakeActive_up (s : State) : s.wakeActive.pwr.up = s.pwr.up := by
  unfold State.wakeActive
  split
  · exact s.wakeAll_up _
  · rfl

theorem State.announceIdent_pwr (s : State) (i p : Nat) : (s.announceIdent i p).pwr = s.pwr :=
  (Kept.announceIdent (uu := { tk := true, out := true }) i p (.refl s) rfl rfl).only.pwr.resolve_left Bool.false_ne_true

theorem State.moveIdent_up (s : State) (i p : Nat) : (s.moveIdent i p).pwr.up = s.pwr.up := by
  unfold State.moveIdent
  dsimp only
  split
  · rfl
  · rw [State.announceIdent_pwr]
    split <;> rfl

theorem State.cancelRetrain_up (s : State) (r : Retrain) : (s.cancelRetrain r).pwr.up = s.pwr.up := by
  unfold State.cancelRetrain
  dsimp only
  split
  · refine foldl_frame (g := fun t : State => t.pwr.up) (fun t i => ?_) _ _
    split
    · exact t.moveIdent_up i _
    · rfl
  · split
    · rw [State.sendLsa_pwr]
    · rfl

theorem State.cancelRetrains_up (s : State) : s.cancelRetrains.pwr.up = s.pwr.up :=
  foldl_frame (g := fun t : State => t.pwr.up) State.cancelRetrain_up _ s

theorem State.stopLive_up (s : State) (n : Nat) : (s.stopLive n).pwr.up = s.pwr.up := by
  unfold State.stopLive
  split
  · rfl
  · dsimp only
    split
    · split
      · split
        · exact State.cancelRetrain_up ..
        · rfl
      · rfl
    · split_ifs <;> rfl

theorem State.applyWt_pwr (s : State) : s.applyWt.pwr = s.pwr :=
  (Kept.applyWt (uu := { hce := true }) (.refl s) rfl).only.pwr.resolve_left Bool.false_ne_true

theorem State.failHandovers_pwr (s : State) : s.failHandovers.pwr = s.pwr :=
  (Kept.failHandovers (uu := { rge := true, mbx := true, moved := true, out := true })
    (.refl s) rfl rfl rfl rfl).only.pwr.resolve_left Bool.false_ne_true

theorem State.flushProps_pwr (s : State) : s.flushProps.pwr = s.pwr :=
  (Kept.flushProps (uu := { mbx := true, props := true, moved := true, out := true })
    (.refl s) rfl rfl rfl rfl).only.pwr.resolve_left Bool.false_ne_true

theorem State.decideAll_pwr (s : State) : s.decideAll.pwr = s.pwr :=
  (Kept.decideAll (uu := { rge := true, rfx := true, xbr := true, pmu := true, moved := true, out := true })
    (.refl s) rfl rfl rfl rfl rfl rfl).only.pwr.resolve_left Bool.false_ne_true

theorem State.assertFence_pwr (s : State) : s.assertFence.pwr = s.pwr :=
  (Kept.assertFence (uu := { tk := true, out := true }) (.refl s) rfl rfl).only.pwr.resolve_left Bool.false_ne_true

theorem State.declareDead_up (s : State) (n : Nat) : (s.declareDead n).pwr.up = s.pwr.up := by
  unfold State.declareDead
  dsimp only
  split
  · rfl
  · split
    · split <;> rfl
    · have h : ∀ t : State, (t.stopLive 5).cancelRetrains.pwr.up = t.pwr.up := fun t =>
        (State.cancelRetrains_up _).trans (t.stopLive_up 5)
      split <;> split <;>
        simp only [State.assertFence_pwr, State.wakeActive_up, h,
          foldl_frame (g := fun t : State => t.pwr) State.abortMigration_pwr, State.sepEvent_pwr, State.decideAll_pwr,
          State.flushProps_pwr, State.failHandovers_pwr, State.applyWt_pwr, State.closeStream_pwr] <;> rfl

theorem State.portDown_up (s : State) (p : Nat) : (s.portDown p).pwr.up = s.pwr.up := by
  unfold State.portDown
  split
  · rfl
  · have h : (((s.setFabPort p (fun f => { f with up := false })).flushEgress (4 + p)).sendLsa).pwr = s.pwr := by
      rw [State.sendLsa_pwr, State.flushEgress_pwr, State.setFabPort_pwr]
    dsimp only
    split
    · rw [h]
    · split
      · rw [State.mirrorDown_pwr, h]
      · rw [State.declareDead_up, h]

theorem State.dropKeyed_up (s : State) : s.dropKeyed.pwr.up = s.pwr.up := by
  unfold State.dropKeyed
  dsimp only
  refine (foldl_frame (g := fun t : State => t.pwr.up) (fun t p => ?_) _ _).trans
    (congrArg PwrSt.up (foldl_frame (g := fun t : State => t.pwr) State.closeLost_pwr _ s))
  split
  · exact t.portDown_up p
  · rfl

/-- A vault that zeroises its keys leaves the module powered (R400, R402). -/
theorem State.zeroise_up (s : State) : s.zeroise.pwr.up = s.pwr.up :=
  State.dropKeyed_up _

/-! ## The power-fail trip and the end of its flush (R96, R98, R165) -/

theorem powerFailTrip_flushes {s : State} (hu : s.pwr.up = true) (hf : s.hce.flushing = false) :
    Gives .powerFailTrip s fun t => t.pwr.vinOk = false ∧ t.hce.flushing = true ∧ t.hce.halted = true ∧
      t.hce.flushMark = false := by
  obtain ⟨w, hw⟩ := State.wakeAll_pwr (allDomains s.part)
    ((s.raiseFlag Reg.pwrEvt 0).updPwr (fun p => { p with vinOk := false }))
  unfold Gives
  rw [exec_powerFailTrip, execPowerFailTrip, if_pos hu]
  refine ⟨_, rfl, ?_, State.startFlush_hce ?_ ?_⟩
  · rw [State.startFlush_pwr, hw, State.updPwr_pwr]
  · rw [hw]
    exact hu
  · rw [State.wakeAll_hce]
    exact hf

theorem powerFailTrip_down {s : State} (hu : s.pwr.up = false) :
    Gives .powerFailTrip s fun t => t.pwr = { s.pwr with vinOk := false } ∧ t.hce = s.hce ∧
      t.regs = (s.raiseFlag Reg.pwrEvt 0).regs := by
  unfold Gives
  rw [exec_powerFailTrip, execPowerFailTrip, if_neg (by simp [hu])]
  exact ⟨_, rfl, rfl, rfl, rfl⟩

theorem flushEnd_gives {s : State} (hf : s.hce.flushing = true) (hu : s.pwr.up = true) (hw : s.rge.writes = [])
    (hc : ∀ c ∈ s.bay.cmds, c.flushes = false) :
    Gives .flushEnd s fun t => t.pwr.up = false ∧ t.hce.flushMark = true ∧ t.hce.flushing = false ∧
      t.hce.flushArea = s.hce.flushArea ∧ t.hce.notWhole = s.hce.notWhole ∧ t.tk.hbOut = false ∧
      t.pwr.efOn = (!s.pwr.tripped && !s.pwr.railOff) := by
  have hn : s.bay.cmds.any MemberCmd.flushes = false := List.any_eq_false.mpr fun c h => by simp [hc c h]
  unfold Gives
  rw [exec_flushEnd, execFlushEnd, if_neg (by simp [hf, hw, hn])]
  refine ⟨_, rfl, ?_⟩
  dsimp only
  rw [State.powerDown_pwr, State.powerDown_hce_of_not_flushing (by exact hu) _ rfl, State.rebooted_hce]
  exact ⟨PwrSt.fallen_up _, rfl, rfl, rfl, rfl, State.powerDown_hbOut (by exact hu) _, rfl⟩

theorem flushEnd_waits_for_writes {s : State} (hw : s.rge.writes ≠ []) : exec .flushEnd s = .next s :=
  if_pos (by simp [hw])

theorem flushEnd_waits_for_flush {s : State} {c : MemberCmd} (hc : c ∈ s.bay.cmds) (hf : c.flushes = true) :
    exec .flushEnd s = .next s :=
  if_pos (by rw [List.any_eq_true.mpr ⟨c, hc, hf⟩, Bool.or_true])

/-! ## Supplies (R495, R498, R503, R504) -/

theorem efuseTrip_off {s : State} (h : s.pwr.efOn = false) (n : Nat) : s.efuseTrip n = s :=
  if_pos (by simp [h])

theorem efuseTrip_on {s : State} (h : s.pwr.efOn = true) (n : Nat) :
    s.efuseTrip n = ((s.raiseFlag Reg.pwrEvt 1).powerDown false).updPwr (fun p => { p with
      efFault := n, efRetryAt := if p.efRetry = 0 then none else some (s.now + sec 1) }) :=
  if_neg (by simp [h])

theorem efuseTrip_gives {s : State} {c : Instr} {n : Nat} (hc : exec c s = .next (s.efuseTrip n)) (h : s.pwr.efOn = true) :
    Gives c s fun t => t.pwr.up = false ∧ t.pwr.efOn = false ∧ t.pwr.efFault = n ∧
      t.pwr.efRetry = s.pwr.efRetry ∧ t.pwr.efRetryAt = (if s.pwr.efRetry = 0 then none else some (s.now + sec 1)) ∧
      (s.pwr.up = true → t.hce.wb = [] ∧ t.hce.flushMark = s.hce.flushMark) := by
  refine ⟨_, hc.trans (congrArg _ (efuseTrip_on h n)), ?_⟩
  dsimp only
  rw [State.updPwr_pwr, State.powerDown_pwr, State.raiseFlag_pwr, State.updPwr_hce]
  refine ⟨PwrSt.fallen_up _, rfl, rfl, PwrSt.fallen_efRetry _, ?_, fun hu =>
    ⟨State.powerDown_wb (by exact hu) _, State.powerDown_flushMark (by exact hu) _⟩⟩
  dsimp only
  rw [PwrSt.fallen_efRetry]

theorem efuseRetry_due {s : State} (h : due s.pwr.efRetryAt s.now = true) :
    Gives .efuseRetry s fun t =>
      t.pwr = { s.pwr with efRetry := s.pwr.efRetry - 1, efRetryAt := none, efFault := 0, efOn := true } :=
  ⟨_, if_pos h, rfl⟩

theorem efuseRetry_not_due {s : State} (h : due s.pwr.efRetryAt s.now = false) : exec .efuseRetry s = .next s :=
  if_neg (by simp [h])

theorem vinCutoff_gives (s : State) :
    Gives .vinCutoff s fun t => t.pwr.up = false ∧ t.pwr.efOn = false ∧ t.pwr.vinOk = false ∧ t.pwr.railOff = false ∧
      t.pwr.tripped = false ∧ (s.tk.fenceIn = false → s.pwr.mode = .standby → t.pwr.mode = .active) := by
  refine ⟨_, rfl, ?_⟩
  dsimp only
  simp only [State.updPwr_pwr, State.updPwr_tk, State.powerDown_pwr, State.powerDown_fenceIn, PwrSt.fallen_mode]
  split
  · simp
  next hm => simpa using fun hf hs => absurd (by simp [hf, hs]) hm

theorem railFault_up {s : State} (hu : s.pwr.up = true) (r : Rail) :
    Gives (.railFault r) s fun t => t.pwr.up = false ∧ t.pwr.efOn = false ∧ t.pwr.railOff = true ∧ t.hce.wb = [] := by
  have h : (if r = .vdd && Config.hasCipher s.part then s.zeroise else s).pwr.up = true := by
    split
    · exact s.zeroise_up.trans hu
    · exact hu
  unfold Gives
  rw [exec_railFault, execRailFault, if_neg (by simp [hu])]
  refine ⟨_, rfl, ?_⟩
  dsimp only
  rw [State.updPwr_pwr, State.powerDown_pwr, State.updPwr_hce, State.powerDown_wb (by exact h)]
  exact ⟨PwrSt.fallen_up _, rfl, rfl, rfl⟩

theorem railFault_down {s : State} (hu : s.pwr.up = false) (r : Rail) : exec (.railFault r) s = .next s :=
  if_pos (by simp [hu])

/-! ## Power-up (R494, R502, R607) -/

theorem State.strapsOk_of_mayPower {s : State} (h : s.mayPower = true) : s.strapsOk = true := by
  by_contra hn
  simp [State.mayPower, hn] at h

section
variable (s : State)

@[simp] theorem State.startCycles_pwr : s.startCycles.pwr = s.pwr := rfl

@[simp] theorem State.startCycles_mac : s.startCycles.mac = s.mac := rfl

@[simp] theorem State.startCycles_hce : s.startCycles.hce = s.hce := rfl

@[simp] theorem State.startCycles_rge : s.startCycles.rge = s.rge := rfl

@[simp] theorem State.startCycles_regs : s.startCycles.regs = s.regs := rfl

end

/-- The state in which the datapath leaves reset (R502, R595). -/
def State.railsRisen (s : State) : State :=
  let s1 := (State.startCycles (s.updMac (fun x => { x with tod := 0, at_ := s.now }))).updPwr (fun p => { p with
    up := true, efOn := true, vinOk := true, vsbOk := true, mode := .active, restart := none,
    railsUp := [.bpc, .pll, .sds, .vdd, .sram, .hbm, .io18, .io33], domOn := allDomains s.part, domRet := [], waking := [] })
  if Config.hasCipher s.part then s1.updKvt (fun k => { k with lanesOn := natsFrom 0 16 }) else s1

theorem State.railsRisen_spec (s : State) :
    s.railsRisen.pwr = { s.pwr with
      up := true, efOn := true, vinOk := true, vsbOk := true, mode := .active, restart := none,
      railsUp := [.bpc, .pll, .sds, .vdd, .sram, .hbm, .io18, .io33], domOn := allDomains s.part, domRet := [], waking := [] } ∧
    s.railsRisen.mac.tod = 0 ∧ s.railsRisen.hce = s.hce ∧ s.railsRisen.rge = s.rge ∧ s.railsRisen.regs = s.regs := by
  unfold State.railsRisen
  dsimp only
  split <;> simp

theorem powerUp_mayPower {s : State} (h : s.mayPower = true) (l : List MirBlock) (b : List TestOutcome) :
    exec (.powerUp l b) s = .next (match s.pwr.restart.bind (fun r => r.test) with
      | some (t, hold) => s.railsRisen.testBoot t hold b l
      | none => s.railsRisen.boot l) := by
  rw [exec_powerUp, execPowerUp, if_neg (by simp [State.strapsOk_of_mayPower h]), if_neg (by simp [h])]
  cases s.pwr.restart.bind (fun r => r.test) <;> rfl

theorem powerUp_strapless {s : State} (h : s.strapsOk = false) (l : List MirBlock) (b : List TestOutcome) :
    Gives (.powerUp l b) s fun t => t.pwr = { s.pwr with vsbOk := true, vinOk := true } :=
  ⟨_, if_pos (by simp [h]), rfl⟩

theorem powerUp_held {s : State} (h : s.strapsOk = true) (hm : s.mayPower = false) (l : List MirBlock) (b : List TestOutcome) :
    exec (.powerUp l b) s = .next s := by
  rw [exec_powerUp, execPowerUp, if_neg (by simp [h]), if_pos (by simp [hm])]

/-! ## Thermal trip (R620) -/

theorem thermalTrip_down {s : State} (hu : s.pwr.up = false) : exec .thermalTrip s = .next s :=
  if_pos (by simp [hu])

theorem thermalTrip_flushing {s : State} (hu : s.pwr.up = true) (hf : s.hce.flushing = true) :
    Gives .thermalTrip s fun t => t.pwr = { s.pwr with tripped := true } ∧ t.hce = s.hce ∧ t.tk = s.tk := by
  unfold Gives
  rw [exec_thermalTrip, execThermalTrip, if_neg (by simp [hu]), if_pos hf]
  exact ⟨_, rfl, rfl, rfl, rfl⟩

theorem thermalTrip_paired {s : State} (hu : s.pwr.up = true) (hf : s.hce.flushing = false) (hp : s.paired = true) :
    Gives .thermalTrip s fun t => t.pwr = { s.pwr with tripped := true } ∧ t.tk.hbOut = false ∧ t.hce = s.hce := by
  unfold Gives
  rw [exec_thermalTrip, execThermalTrip, if_neg (by simp [hu]), if_neg (by simp [hf]), if_pos hp]
  exact ⟨_, rfl, State.hbStop_pwr _, State.hbStop_hbOut _, State.hbStop_hce _⟩

theorem thermalTrip_alone {s : State} (hu : s.pwr.up = true) (hf : s.hce.flushing = false) (hp : s.paired = false) :
    Gives .thermalTrip s fun t => t.pwr.tripped = true ∧ t.hce.flushing = true ∧ t.hce.halted = true := by
  obtain ⟨h1, h2, -⟩ := State.startFlush_hce (s := s.updPwr (fun p => { p with tripped := true })) hu hf
  unfold Gives
  rw [exec_thermalTrip, execThermalTrip, if_neg (by simp [hu]), if_neg (by simp [hf]), if_neg (by simp [hp])]
  refine ⟨_, rfl, ?_, h1, h2⟩
  rw [State.startFlush_pwr, State.updPwr_pwr]

/-! ## MOD_RESTART (R495, R504, R523, R620) -/

/-- What an accepted MOD_RESTART does, on a module whose application cores run or not. -/
def State.restartBy (s : State) (off : Bool) (mode : Nat) : State :=
  if !off then s.beginRestart mode none
  else if mode = 2 then (if s.tst.boot then s.powerDown false else s).updPwr (fun p => { p with mode := .standby })
  else if s.tst.boot then s.boot []
  else s.clearOff.updPwr (fun p => { p with mode := .active })

section
variable {s : State} {m : Master} {c : MbCmd} (hs : s.Starts m 0x0807 c) (hi : s.Inv)
include hs

/-- Where no thermal trip is to be cleared, MOD_RESTART takes no reading. -/
theorem exec_modRestart_cold (hh : s.pwr.tripped = false ∨ byteAt c.params 0 ≠ 1) :
    exec (.modRestart m) s = .next (s.checked m
      [(byteAt c.params 0 ≠ 1 && byteAt c.params 0 ≠ 2, stInvalidParam),
        (!(s.coresOff || s.tst.boot) && s.masters, stConflict), (false && s.tooHot, stConflict)]
      (fun t => (t.finish m stOk []).restartBy (s.coresOff || s.tst.boot) (byteAt c.params 0))) := by
  have hot : (s.pwr.tripped && decide (byteAt c.params 0 = 1)) = false := by rcases hh with h | h <;> simp [h]
  rw [exec_modRestart, execModRestart, State.runCmd_starts hs]
  dsimp only
  rw [hot, if_neg Bool.false_ne_true]
  rfl

theorem exec_modRestart_accepted (hm : byteAt c.params 0 = 1 ∨ byteAt c.params 0 = 2)
    (hh : s.pwr.tripped = false ∨ byteAt c.params 0 ≠ 1) (hc : (s.coresOff || s.tst.boot) = true ∨ s.masters = false) :
    exec (.modRestart m) s =
      .next ((s.finish m stOk []).restartBy (s.coresOff || s.tst.boot) (byteAt c.params 0)) := by
  have h1 : (byteAt c.params 0 ≠ 1 && byteAt c.params 0 ≠ 2) = false := by rcases hm with h | h <;> simp [h]
  have h2 : (!(s.coresOff || s.tst.boot) && s.masters) = false := by rcases hc with h | h <;> simp [h]
  rw [exec_modRestart_cold hs hh, h1, h2]
  rfl

include hi

theorem modRestart_badMode (h1 : byteAt c.params 0 ≠ 1) (h2 : byteAt c.params 0 ≠ 2) :
    Gives (.modRestart m) s fun t => t.Ended m stInvalidParam ∧ t.pwr = s.pwr ∧ t.hce = s.hce := by
  refine ⟨s.finish m stInvalidParam [], ?_, State.finish_ended hi.counts.masters hs.1 _ _, State.finish_pwr ..,
    State.finish_hce ..⟩
  rw [exec_modRestart_cold hs (.inr h1), State.checked_fail]
  simp [firstFail, h1, h2]

theorem modRestart_masters (hm : byteAt c.params 0 = 1 ∨ byteAt c.params 0 = 2) (hc : s.coresOff = false)
    (hb : s.tst.boot = false) (ht : s.pwr.tripped = false) (ho : s.masters = true) :
    Gives (.modRestart m) s fun t => t.Ended m stConflict ∧ t.pwr = s.pwr ∧ t.hce = s.hce := by
  refine ⟨s.finish m stConflict [], ?_, State.finish_ended hi.counts.masters hs.1 _ _, State.finish_pwr ..,
    State.finish_hce ..⟩
  rw [exec_modRestart_cold hs (.inl ht), State.checked_fail]
  rcases hm with h | h <;> simp [firstFail, h, hc, hb, ho]

theorem modRestart_begins (hm : byteAt c.params 0 = 1 ∨ byteAt c.params 0 = 2) (hc : s.coresOff = false)
    (hb : s.tst.boot = false) (ht : s.pwr.tripped = false) (ho : s.masters = false) :
    Gives (.modRestart m) s fun t => t.Ended m stOk ∧ t.hce = { s.hce with halted := true } ∧
      t.pwr = { s.pwr with restart := some ⟨byteAt c.params 0, none, true, false⟩ } := by
  refine ⟨(s.finish m stOk []).beginRestart (byteAt c.params 0) none, ?_,
    State.finish_ended hi.counts.masters hs.1 stOk [], ?_, ?_⟩
  · rw [exec_modRestart_accepted hs hm (.inl ht) (.inr ho), hc, hb]
    rfl
  · rw [State.beginRestart, State.updPwr_hce, State.updHce_hce, State.finish_hce]
  · rw [State.beginRestart, State.updPwr_pwr, State.updHce_pwr, State.finish_pwr]

theorem modRestart_standby (hc : s.coresOff = true) (hb : s.tst.boot = false) (hm : byteAt c.params 0 = 2) :
    Gives (.modRestart m) s fun t => t.Ended m stOk ∧ t.pwr = { s.pwr with mode := .standby } := by
  refine ⟨(s.finish m stOk []).updPwr (fun p => { p with mode := .standby }), ?_,
    State.finish_ended hi.counts.masters hs.1 stOk [], ?_⟩
  · rw [exec_modRestart_accepted hs (.inr hm) (.inr (by simp [hm])) (.inl (by simp [hc])), hm, State.restartBy,
      if_neg (by simp [hc]), if_pos rfl, if_neg (by simp [hb])]
  · rw [State.updPwr_pwr, State.finish_pwr]

theorem modRestart_starts (hc : s.coresOff = true) (hb : s.tst.boot = false) (hm : byteAt c.params 0 = 1)
    (ht : s.pwr.tripped = false) :
    Gives (.modRestart m) s fun t => t.Ended m stOk ∧
      t.pwr = { s.pwr with efFault := 0, efRetry := 3, efRetryAt := none, railOff := false, mode := .active } := by
  refine ⟨(s.finish m stOk []).clearOff.updPwr (fun p => { p with mode := .active }), ?_,
    State.finish_ended hi.counts.masters hs.1 stOk [], ?_⟩
  · rw [exec_modRestart_accepted hs (.inl hm) (.inl ht) (.inl (by simp [hc])), hm, State.restartBy,
      if_neg (by simp [hc]), if_neg (by decide), if_neg (by simp [hb])]
  · rw [State.updPwr_pwr, State.clearOff, State.updPwr_pwr, State.finish_pwr, ← ht]

end

/-! ## RESTART_DRAIN_COMPLETE (R173, R523) -/

section
variable {s : State} {r : Restart} (hr : s.pwr.restart = some r)
include hr

theorem restartDrainComplete_dirty (h : s.ownBlocks ≠ 0) : exec .restartDrainComplete s = .next s := by
  rw [exec_restartDrainComplete, execRestartDrainComplete, hr]
  exact if_pos (by simp [h])

variable (hd : r.draining = true) (h0 : s.ownBlocks = 0) (hu : s.pwr.up = true)
include hd h0 hu

/-- A drained module without a joined peer that writes no checkpoint: clean checkpoints, then it closes and powers down. -/
theorem exec_restartDrainComplete_drained : exec .restartDrainComplete s =
    if s.paired then .next ((s.updPwr (fun p => { p with restart := some { r with draining := false } })).hbStop)
    else if s.checkpointing then .next s
    else
      let s1 := if r.clean then s
        else (s.updPwr (fun p => { p with restart := some { r with clean := true } })).cleanCheckpoints
      if s1.checkpointing then .next s1
      else .next (((s1.hce.conns.map (fun k => k.id)).foldl State.closeConn s1).restartDown r) := by
  rw [exec_restartDrainComplete, execRestartDrainComplete, hr]
  exact if_neg (by simp [hd, h0, hu])

theorem restartDrainComplete_paired (hp : s.paired = true) :
    Gives .restartDrainComplete s fun t => t.tk.hbOut = false ∧
      t.pwr = { s.pwr with restart := some { r with draining := false } } := by
  unfold Gives
  rw [exec_restartDrainComplete_drained hr hd h0 hu, if_pos hp]
  exact ⟨_, rfl, State.hbStop_hbOut _, State.hbStop_pwr _⟩

variable (hp : s.paired = false)
include hp

theorem restartDrainComplete_checkpointing (hc : s.checkpointing = true) : exec .restartDrainComplete s = .next s := by
  rw [exec_restartDrainComplete_drained hr hd h0 hu, if_neg (by simp [hp]), if_pos hc]

variable (hc : s.checkpointing = false)
include hc

theorem restartDrainComplete_writes_clean (hn : r.clean = false) :
    ∃ u : State, u.pwr = { s.pwr with restart := some { r with clean := true } } ∧ u.rge = s.rge ∧
      (u.cleanCheckpoints.checkpointing = true → exec .restartDrainComplete s = .next u.cleanCheckpoints) := by
  refine ⟨s.updPwr (fun p => { p with restart := some { r with clean := true } }), rfl, rfl, fun h => ?_⟩
  rw [exec_restartDrainComplete_drained hr hd h0 hu, if_neg (by simp [hp]), if_neg (by simp [hc]),
    if_neg (show ¬ r.clean = true by simp [hn])]
  exact if_pos h

theorem restartDrainComplete_powers_down (hn : r.clean = true) :
    Gives .restartDrainComplete s fun t => t.hce.conns = [] ∧ t.pwr.up = false ∧ t.tk.hbOut = false ∧
      t.pwr.mode = (if r.mode = 2 then .standby else .active) ∧
      t.pwr.restart = (if r.mode = 2 then none else some { r with draining := false }) := by
  have h : ((s.hce.conns.map (fun k => k.id)).foldl State.closeConn s).pwr.up = true :=
    (congrArg PwrSt.up (foldl_frame (g := fun t : State => t.pwr) State.closeConn_pwr _ s)).trans hu
  unfold Gives
  rw [exec_restartDrainComplete_drained hr hd h0 hu, if_neg (by simp [hp]), if_neg (by simp [hc]), if_pos hn]
  dsimp only
  rw [if_neg (by simp [hc])]
  refine ⟨_, rfl, ?_⟩
  rw [State.restartDown, State.updPwr_hce, State.updPwr_pwr, State.updPwr_tk, State.powerDown_pwr]
  exact ⟨State.powerDown_conns h _, PwrSt.fallen_up _, State.powerDown_hbOut h _, rfl, rfl⟩

end

/-! ## The statement -/

/-- Settles O29, by the rules above: what a power-down leaves, how a flush begins, and one rule for each outcome of a
command. -/
theorem suppliesFlushAndRestart : Obligations.SuppliesFlushAndRestart := by
  unfold Obligations.SuppliesFlushAndRestart
  refine ⟨fun s => ⟨powerFailTrip_flushes, powerFailTrip_down⟩,
    fun s => ⟨flushEnd_gives, flushEnd_waits_for_writes, fun c => flushEnd_waits_for_flush⟩,
    fun s c n h => ?_, fun s => ⟨efuseRetry_due, efuseRetry_not_due, _, rfl, rfl⟩, vinCutoff_gives,
    fun s r => ⟨fun h => railFault_up h r, fun h => railFault_down h r⟩,
    fun s => ⟨rfl, rfl, ⟨_, rfl, rfl, rfl⟩, _, rfl, rfl, rfl⟩,
    fun s l b => ⟨fun h => powerUp_strapless h l b, fun h hm => powerUp_held h hm l b, fun h => ?_⟩,
    fun s => ⟨thermalTrip_down, thermalTrip_flushing, thermalTrip_paired, thermalTrip_alone⟩,
    fun s m c hs hi => ⟨modRestart_badMode hs hi, fun hm hc hb ht =>
      ⟨modRestart_masters hs hi hm hc hb ht, modRestart_begins hs hi hm hc hb ht⟩, fun hc hb =>
      ⟨modRestart_standby hs hi hc hb, modRestart_starts hs hi hc hb⟩⟩,
    fun s r hr => ⟨restartDrainComplete_dirty hr, fun hd h0 hu => ⟨restartDrainComplete_paired hr hd h0 hu,
      restartDrainComplete_checkpointing hr hd h0 hu, restartDrainComplete_writes_clean hr hd h0 hu,
      restartDrainComplete_powers_down hr hd h0 hu⟩⟩⟩
  · have hc : exec c s = .next (s.efuseTrip n) := by
      rcases h with ⟨rfl, rfl⟩ | ⟨rfl, rfl⟩
      · exact exec_efuseCurrentLimit s
      · exact exec_efuseFastTrip s
    exact ⟨efuseTrip_gives hc, fun he => hc.trans (congrArg _ (efuseTrip_off he n))⟩
  · obtain ⟨hpwr, htod, hhce, hrge, hregs⟩ := s.railsRisen_spec
    exact ⟨s.railsRisen, hpwr, htod, hhce, hrge, hregs, powerUp_mayPower h l b⟩

end Sys2Proof.Machine
end

section
/-! PROOFS. The member slots as the commands of chapter 06 see them: state, bay and serial number of each slot, and who masters the
ring. What an operation on one slot does to it, and that every other slot stays. -/

namespace Sys2Proof.Machine

/-! ## Slots of a ring -/

/-- What the member commands ask of a slot: its state, its bay and its serial number. -/
def MemberSlot.face (m : MemberSlot) : MemSt × Option Nat × Nat := (m.st, m.bay, m.serial)

/-- What is read where a ring has no such slot. -/
def MemberSlot.vacant : MemberSlot := ⟨.unused, none, 0, false, none, 0, [], [], false, [], []⟩

theorem Ring.slotAt_of_le {r : Ring} {j : Nat} (h : r.slots.length ≤ j) :
    r.slotAt j = MemberSlot.vacant :=
  List.getD_eq_default _ _ h

/-- A slot in use is one of the ring's. -/
theorem Ring.lt_of_used {r : Ring} {j : Nat} (h : (r.slotAt j).st ≠ .unused) : j < r.slots.length := by
  by_contra hj
  exact h (by rw [Ring.slotAt_of_le (Nat.le_of_not_lt hj)]; rfl)

theorem Ring.slotAt_setSlot_self {r : Ring} {j : Nat} (h : j < r.slots.length) (f : MemberSlot → MemberSlot) :
    (r.setSlot j f).slotAt j = f (r.slotAt j) := by
  simp only [Ring.setSlot, Ring.slotAt, getD_setAt _ _ _ _ _ h, if_true]

theorem Ring.slotAt_setSlot_ne (r : Ring) {i j : Nat} (h : i ≠ j) (f : MemberSlot → MemberSlot) :
    (r.setSlot j f).slotAt i = r.slotAt i := by
  by_cases hj : j < r.slots.length
  · simp only [Ring.setSlot, Ring.slotAt, getD_setAt _ _ _ _ _ hj, if_neg h]
  · simp only [Ring.setSlot, setAt_of_le _ _ _ (Nat.le_of_not_lt hj)]

/-- A change of every slot that leaves its face leaves the face at each number. -/
theorem Ring.face_of_map {r g : Ring} (h : g.slots.map MemberSlot.face = r.slots.map MemberSlot.face) (j : Nat) :
    (g.slotAt j).face = (r.slotAt j).face := by
  have hd (x : Ring) : (x.slotAt j).face = (x.slots.map MemberSlot.face).getD j (.unused, none, 0) :=
    (List.getD_map _ _ MemberSlot.face).symm
  rw [hd, hd, h]

/-- What the upkeep leaves of a ring holds the faces of its slots (`Ring.form`). -/
theorem Ring.face_of_form {r g : Ring} (h : g.form = r.form) (j : Nat) : (g.slotAt j).face = (r.slotAt j).face := by
  have hf (x : Ring) : x.form.slots.map MemberSlot.face = x.slots.map MemberSlot.face := by
    simp only [Ring.form, List.map_map]
    rfl
  exact Ring.face_of_map (by rw [← hf, h, hf]) j

/-- Chunks that move to other targets concern no face (R194). -/
theorem Ring.face_retarget (old new : Ring) (j : Nat) : ((old.retarget new).slotAt j).face = (new.slotAt j).face := by
  refine Ring.face_of_map ?_ j
  have hz : ((natsFrom 0 new.slots.length).zip new.slots).map Prod.snd = new.slots :=
    List.map_snd_zip (by rw [natsFrom_eq_range', List.length_range'])
  calc (old.retarget new).slots.map MemberSlot.face
      = (((natsFrom 0 new.slots.length).zip new.slots).map Prod.snd).map MemberSlot.face := by
        simp only [Ring.retarget, List.map_map]
        rfl
    _ = new.slots.map MemberSlot.face := by rw [hz]

/-! ## Slots of a state -/

/-- The member slot `j` of ring `n`; an unused one where there is no such ring. -/
def State.slotOf (s : State) (n j : Nat) : MemberSlot :=
  match s.findRing n with
  | some r => r.slotAt j
  | none => MemberSlot.vacant

theorem State.slotOf_of_find {s : State} {n : Nat} {r : Ring} (h : s.findRing n = some r) (j : Nat) :
    s.slotOf n j = r.slotAt j := by
  rw [State.slotOf, h]

theorem State.slotOf_of_none {s : State} {n : Nat} (h : s.findRing n = none) (j : Nat) : s.slotOf n j = .vacant := by
  rw [State.slotOf, h]

theorem State.owns_of_find {s : State} {n : Nat} {r : Ring} (h : s.findRing n = some r) : s.owns n = r.owner := by
  rw [State.owns, h]

/-- A slot in use belongs to a ring. -/
theorem State.ring_of_used {s : State} {n j : Nat} (h : (s.slotOf n j).st ≠ .unused) :
    ∃ r, s.findRing n = some r ∧ s.slotOf n j = r.slotAt j := by
  cases hr : s.findRing n with
  | none => exact absurd (by rw [State.slotOf_of_none hr]; rfl) h
  | some r => exact ⟨r, rfl, State.slotOf_of_find hr j⟩

theorem State.ring_of_st {s : State} {n j : Nat} {m : MemSt} (h : (s.slotOf n j).st = m) (hm : m ≠ .unused := by decide) :
    ∃ r, s.findRing n = some r ∧ s.slotOf n j = r.slotAt j := State.ring_of_used (h ▸ hm)

/-- From `s` to `t` the rings have the same masters and every member slot the same face, but for the slot that `x` names. -/
structure State.MembersBut (x : Option (Nat × Nat)) (s t : State) : Prop where
  face : ∀ n j, x ≠ some (n, j) → (t.slotOf n j).face = (s.slotOf n j).face
  owns : ∀ n, t.owns n = s.owns n

section
variable {x : Option (Nat × Nat)} {s t u : State}

theorem State.MembersBut.refl (x : Option (Nat × Nat)) (s : State) : s.MembersBut x s := ⟨fun _ _ _ => rfl, fun _ => rfl⟩

theorem State.MembersBut.trans (h : s.MembersBut x t) (k : t.MembersBut x u) : s.MembersBut x u :=
  ⟨fun n j hx => (k.face n j hx).trans (h.face n j hx), fun n => (k.owns n).trans (h.owns n)⟩

theorem State.MembersBut.weaken (h : s.MembersBut none t) : s.MembersBut x t :=
  ⟨fun n j _ => h.face n j (Option.some_ne_none _).symm, h.owns⟩

theorem State.MembersBut.st (h : s.MembersBut x t) {n j : Nat} (hx : x ≠ some (n, j)) :
    (t.slotOf n j).st = (s.slotOf n j).st := congrArg (fun f => f.1) (h.face n j hx)

theorem State.MembersBut.serial (h : s.MembersBut x t) {n j : Nat} (hx : x ≠ some (n, j)) :
    (t.slotOf n j).serial = (s.slotOf n j).serial := congrArg (fun f => f.2.2) (h.face n j hx)

/-- With no slot left out, every slot has its face. -/
theorem State.MembersBut.faceAll (h : s.MembersBut none t) (n j : Nat) : (t.slotOf n j).face = (s.slotOf n j).face :=
  h.face n j (Option.some_ne_none _).symm

theorem State.MembersBut.stAll (h : s.MembersBut none t) (n j : Nat) : (t.slotOf n j).st = (s.slotOf n j).st :=
  h.st (Option.some_ne_none _).symm

theorem State.MembersBut.of_rings (h : t.rge.rings = s.rge.rings) : s.MembersBut x t := by
  have hf (n : Nat) : t.findRing n = s.findRing n := by simp only [State.findRing, h]
  exact ⟨fun n j _ => by rw [State.slotOf, hf, State.slotOf], fun n => by rw [State.owns, hf, State.owns]⟩

theorem State.MembersBut.of_rge (h : t.rge = s.rge) : s.MembersBut x t := .of_rings (by rw [h])

/-- A ring is found again after the upkeep, in its form. -/
theorem State.SameRings.found (h : s.SameRings t) {n : Nat} {r : Ring} (hr : s.findRing n = some r) :
    ∃ g, t.findRing n = some g ∧ g.form = r.form :=
  Option.map_eq_some_iff.mp ((h.find n).trans (by rw [hr]; rfl))

/-- The upkeep after a change of members touches no member (R95, R139, R188). -/
theorem State.SameRings.members (h : s.SameRings t) : s.MembersBut none t := by
  have key (n : Nat) : (∀ j, (t.slotOf n j).face = (s.slotOf n j).face) ∧ t.owns n = s.owns n := by
    have hn := h.find n
    simp only [State.slotOf, State.owns]
    cases hs : s.findRing n with
    | none =>
      rw [hs] at hn
      rw [Option.map_eq_none_iff.mp hn]
      exact ⟨fun _ => rfl, rfl⟩
    | some r =>
      rw [hs] at hn
      obtain ⟨g, hg, hf⟩ := Option.map_eq_some_iff.mp hn
      rw [hg]
      exact ⟨Ring.face_of_form hf, show g.form.owner = r.form.owner from congrArg Ring.owner hf⟩
  exact ⟨fun n j _ => (key n).1 j, fun n => (key n).2⟩

/-- An update of one ring, which keeps its number and its master, and the faces of the slots that `x` does not name. -/
theorem State.MembersBut.updRing (n : Nat) {f : Ring → Ring} (hn : ∀ r, r.num = n → (f r).num = n)
    (ho : ∀ r, s.findRing n = some r → (f r).owner = r.owner)
    (hf : ∀ r, s.findRing n = some r → ∀ j, x ≠ some (n, j) → ((f r).slotAt j).face = (r.slotAt j).face) :
    s.MembersBut x (s.updRing n f) := by
  have key (k : Nat) : (∀ j, x ≠ some (k, j) → ((s.updRing n f).slotOf k j).face = (s.slotOf k j).face) ∧
      (s.updRing n f).owns k = s.owns k := by
    simp only [State.slotOf, State.owns, State.findRing_updRing_any _ _ _ _ hn]
    cases hr : s.findRing k with
    | none => exact ⟨fun _ _ => rfl, rfl⟩
    | some r =>
      simp only [Option.map_some]
      split
      · next hk =>
        have : k = n := (State.num_of_find hr).symm.trans hk
        subst this
        exact ⟨hf r hr, ho r hr⟩
      · exact ⟨fun _ _ => rfl, rfl⟩
  exact ⟨fun k => (key k).1, fun k => (key k).2⟩

/-- The ring found, written back with its number, its master and the faces of the slots that `x` does not name. -/
theorem State.MembersBut.put {n : Nat} {r g : Ring} (hr : s.findRing n = some r) (hn : g.num = r.num) (ho : g.owner = r.owner)
    (hf : ∀ j, x ≠ some (n, j) → (g.slotAt j).face = (r.slotAt j).face) : s.MembersBut x (s.updRing n (fun _ => g)) := by
  refine .updRing n (fun _ _ => hn.trans (State.num_of_find hr)) (fun y hy => ?_) fun y hy => ?_
  · cases hr.symm.trans hy
    exact ho
  · cases hr.symm.trans hy
    exact hf

/-- A change of one slot keeps every other one. -/
theorem State.MembersBut.setSlot (s : State) (n j : Nat) (f : MemberSlot → MemberSlot) :
    s.MembersBut (some (n, j)) (s.updRing n (fun r => r.setSlot j f)) := by
  refine .updRing n (fun _ h => h) (fun _ _ => rfl) fun r _ i hx => ?_
  rw [Ring.slotAt_setSlot_ne r (fun h => hx (by rw [h]))]

end

theorem State.findRing_put {s : State} {n : Nat} {r g : Ring} (hr : s.findRing n = some r) (hn : g.num = r.num) :
    (s.updRing n (fun _ => g)).findRing n = some g := by
  have hnum := State.num_of_find hr
  rw [State.findRing_updRing_any _ _ _ _ (fun _ _ => hn.trans hnum), hr, Option.map_some, if_pos hnum]

/-- What a change of one slot in use makes of it. -/
theorem State.slotOf_setSlot {s : State} {n j : Nat} (h : (s.slotOf n j).st ≠ .unused) (f : MemberSlot → MemberSlot) :
    (s.updRing n (fun r => r.setSlot j f)).slotOf n j = f (s.slotOf n j) := by
  obtain ⟨r, hr, hs⟩ := State.ring_of_used h
  have hu : (s.updRing n (fun r => r.setSlot j f)).findRing n = some (r.setSlot j f) := by
    rw [State.findRing_updRing (f := fun r => r.setSlot j f) (fun _ => rfl), hr]
    rfl
  rw [State.slotOf_of_find hu, hs, Ring.slotAt_setSlot_self (Ring.lt_of_used (hs ▸ h))]

/-- A slot in use that changes, with the upkeep that follows: it is as it was changed, and the others keep their faces. -/
theorem State.setSlot_upkept {s u : State} {n j : Nat} (h : (s.slotOf n j).st ≠ .unused) {f : MemberSlot → MemberSlot}
    (hu : (s.updRing n (fun r => r.setSlot j f)).MembersBut none u) :
    s.MembersBut (some (n, j)) u ∧ (u.slotOf n j).face = (f (s.slotOf n j)).face :=
  ⟨(State.MembersBut.setSlot s n j f).trans hu.weaken,
    (hu.faceAll n j).trans (congrArg MemberSlot.face (State.slotOf_setSlot h f))⟩

/-! ## Changes that their upkeep follows -/

theorem State.membersChanged_members (s : State) (n : Nat) (b : Bool) : s.MembersBut none (s.membersChanged n b) :=
  (State.SameRings.membersChanged n b (.refl s)).members

theorem State.reask_members (s : State) : s.MembersBut none s.reask := (State.SameRings.reask (.refl s)).members

/-! ## A slot that fails (R181, R189) -/

theorem State.dropCmd_members (s : State) (id : Nat) : s.MembersBut none (s.dropCmd id) := .of_rge rfl

/-- A missed write is noted beside the face of its slot (R169). -/
theorem State.stripeCmdDone_members (s : State) (c : MemberCmd) (n st : Nat) (b : Bool) :
    s.MembersBut none (s.stripeCmdDone c n st b) := by
  refine State.SameRings.members ?_
  unfold State.stripeCmdDone
  dsimp only
  split
  · exact .updRing _ _ (.updRge _ (.refl s) {}) {}
  · exact .updRge _ (.refl s) {}

theorem State.repairGone_members (s : State) (c : MemberCmd) (n st seq : Nat) : s.MembersBut none (s.repairGone c n st seq) := by
  refine State.SameRings.members ?_
  unfold State.repairGone
  exact .endTask _ _ (.updRing _ _ (.updRge _ (.refl s) {}) {})

theorem State.checkpointGone_members (s : State) (n : Nat) : s.MembersBut none (s.checkpointGone n) :=
  .updRing n (fun _ h => h) (fun _ _ => rfl) fun _ _ _ _ => rfl

/-- The end of the search for a checkpoint changes the ring's records, and none of its slots (R174). -/
theorem State.endHunt_members (s : State) (n : Nat) : s.MembersBut none (s.endHunt n) := by
  unfold State.endHunt
  split
  · exact .refl none s
  next r hr =>
    split
    · exact .refl none s
    next best _ =>
      split
      · exact .refl none s
      · have put (g : Ring) (hn : g.num = r.num) (ho : g.owner = r.owner) (hs : g.slots = r.slots) :
            s.MembersBut none ((s.updRing n (fun _ => g)).sendHeader n) :=
          (State.MembersBut.put hr hn ho fun j _ => by rw [Ring.slotAt, hs, Ring.slotAt]).trans
            (.of_rge (State.sendHeader_rge _ _))
        dsimp only
        split <;> exact put _ rfl rfl rfl

theorem State.releaseCmd_members (s : State) (c : MemberCmd) : s.MembersBut none (s.releaseCmd c) := by
  have hd := s.dropCmd_members c.id
  unfold State.releaseCmd
  dsimp only
  split
  · exact hd.trans (State.stripeCmdDone_members ..)
  · exact hd.trans (State.repairGone_members ..)
  · split
    · exact hd.trans (State.checkpointGone_members ..)
    · exact hd.trans (State.endHunt_members ..)
  · exact hd

theorem State.MembersBut.foldl {α : Type} {x : Option (Nat × Nat)} {f : State → α → State}
    (hf : ∀ s a, State.MembersBut x s (f s a)) (l : List α) : ∀ s, State.MembersBut x s (l.foldl f s) := by
  induction l with
  | nil => exact fun s => .refl x s
  | cons a l ih => exact fun s => (hf s a).trans (ih _)

theorem State.releaseSlot_members (s : State) (n j : Nat) : s.MembersBut none (s.releaseSlot n j) :=
  .foldl State.releaseCmd_members _ s

/-- The ring with a slot that has failed: it is displaced, and its own progress starts anew (R151, R189). -/
def Ring.failSlot (r : Ring) (j : Nat) : Ring :=
  r.setSlot j (fun m => { m with
    st := .failed, rejoin := none, dorder := if (r.slotAt j).dorder = 0 then r.nextOrder else (r.slotAt j).dorder
    rebuilt := if (r.slotAt j).dorder = 0 then [] else m.rebuilt, filled := [], initLeft := false })

theorem Ring.face_failSlot_ne (r : Ring) {i j : Nat} (h : i ≠ j) :
    ((r.retarget (r.failSlot j)).slotAt i).face = (r.slotAt i).face := by
  rw [Ring.face_retarget, Ring.failSlot, Ring.slotAt_setSlot_ne r h]

theorem Ring.st_failSlot {r : Ring} {j : Nat} (h : (r.slotAt j).st ≠ .unused) :
    ((r.retarget (r.failSlot j)).slotAt j).st = .failed := by
  refine (congrArg (fun f => f.1) (Ring.face_retarget r (r.failSlot j) j)).trans ?_
  rw [Ring.failSlot, Ring.slotAt_setSlot_self (Ring.lt_of_used h)]
  rfl

theorem State.memberFailed_eq {s : State} {n : Nat} {r : Ring} (j : Nat) (hr : (s.releaseSlot n j).findRing n = some r) :
    s.memberFailed n j =
      ((s.releaseSlot n j).updRing n (fun _ => r.retarget (r.failSlot j))).membersChanged n true := by
  unfold State.memberFailed
  dsimp only
  rw [hr]
  rfl

/-- A slot that fails is FAILED, where it was in use; every other slot keeps its face (R181, R189). -/
theorem State.memberFailed_spec (s : State) (n j : Nat) : s.MembersBut (some (n, j)) (s.memberFailed n j) ∧
    ((s.slotOf n j).st ≠ .unused → ((s.memberFailed n j).slotOf n j).st = .failed) := by
  have h0 := s.releaseSlot_members n j
  cases hr : (s.releaseSlot n j).findRing n with
  | none =>
    have he : s.memberFailed n j = s.releaseSlot n j := by
      unfold State.memberFailed
      dsimp only
      rw [hr]
    rw [he]
    refine ⟨h0.weaken, fun hu => absurd ?_ hu⟩
    rw [← h0.stAll, State.slotOf_of_none hr]
    rfl
  | some r =>
    have hput : (s.releaseSlot n j).MembersBut (some (n, j))
        ((s.releaseSlot n j).updRing n (fun _ => r.retarget (r.failSlot j))) :=
      .put hr rfl rfl fun i hx => r.face_failSlot_ne fun h => hx (by rw [h])
    have hc := State.membersChanged_members ((s.releaseSlot n j).updRing n (fun _ => r.retarget (r.failSlot j))) n true
    rw [State.memberFailed_eq j hr]
    refine ⟨(h0.weaken.trans hput).trans hc.weaken, fun hu => ?_⟩
    rw [hc.stAll, State.slotOf_of_find (State.findRing_put (g := r.retarget (r.failSlot j)) hr rfl)]
    refine Ring.st_failSlot ?_
    rwa [← State.slotOf_of_find hr, h0.stAll]

theorem State.memberFailed_members (s : State) (n j : Nat) : s.MembersBut (some (n, j)) (s.memberFailed n j) :=
  (s.memberFailed_spec n j).1

theorem State.memberFailed_st {s : State} {n j : Nat} (h : (s.slotOf n j).st ≠ .unused) :
    ((s.memberFailed n j).slotOf n j).st = .failed := (s.memberFailed_spec n j).2 h

end Sys2Proof.Machine
end

section
/-! PROOFS. Members that leave service and come back, and the member commands (R180, R181, R192, R207, R208, R213). -/

namespace Sys2Proof.Machine

/-! ## The rejoin window and the drive's own warnings (R180, R181) -/

theorem rejoinWindowExpiry_gives {s : State} {n j : Nat} {r : Ring} (hr : s.findRing n = some r) (ho : r.owner = true)
    (ha : (r.slotAt j).st = .absent) (hd : due (r.slotAt j).rejoin s.now = true) :
    Gives (.rejoinWindowExpiry n j) s fun t => ∃ g, t.findRing n = some g ∧ (g.slotAt j).st = .failed ∧
      ∀ i, i ≠ j → (g.slotAt i).st = (r.slotAt i).st := by
  have hslot := State.slotOf_of_find hr
  have hf : ((s.memberFailed n j).slotOf n j).st = .failed := State.memberFailed_st (by rw [hslot, ha]; decide)
  obtain ⟨g, hg, hgj⟩ := State.ring_of_st hf
  refine ⟨s.memberFailed n j, ?_, g, hg, hgj ▸ hf, fun i hi => ?_⟩
  · rw [exec_rejoinWindowExpiry, execRejoinWindowExpiry, hr]
    exact if_pos (by simp [ho, ha, hd])
  · rw [← State.slotOf_of_find hg, ← hslot]
    exact (s.memberFailed_members n j).st (by simpa using Ne.symm hi)

/-- A state in which the causes of R181 make a slot FAILED. -/
def MemSt.CanFail (m : MemSt) : Prop := m = .online ∨ m = .stale ∨ m = .absent ∨ m = .replacing

/-- A drive's failure at one of its slots (R181). -/
def State.failSlotOf (s : State) (e : Nat × Nat) : State :=
  if s.owns e.1 && ((s.slotOf e.1 e.2).st = .online || (s.slotOf e.1 e.2).st = .stale || (s.slotOf e.1 e.2).st = .absent ||
      (s.slotOf e.1 e.2).st = .replacing) then s.memberFailed e.1 e.2
  else s

theorem State.driveFailed_eq (s : State) (b : Nat) : s.driveFailed b = (s.slotsOfBay b).foldl State.failSlotOf s := by
  unfold State.driveFailed
  congr 1
  funext t e
  have hst : ((t.findRing e.1).map (fun r => (r.slotAt e.2).st)).getD .unused = (t.slotOf e.1 e.2).st := by
    unfold State.slotOf
    cases t.findRing e.1 <;> rfl
  dsimp only
  rw [hst]
  rfl

theorem State.failSlotOf_owns (s : State) (e : Nat × Nat) (n : Nat) : (s.failSlotOf e).owns n = s.owns n := by
  unfold State.failSlotOf
  split
  · exact (s.memberFailed_members e.1 e.2).owns n
  · rfl

/-- A slot that is not the drive's stays; one of the drive's that can fail fails. -/
theorem State.failSlotOf_st (s : State) (e : Nat × Nat) (n j : Nat) (h : s.owns n = true) (hs : (s.slotOf n j).st.CanFail) :
    if e = (n, j) then ((s.failSlotOf e).slotOf n j).st = .failed
    else ((s.failSlotOf e).slotOf n j).st = (s.slotOf n j).st := by
  split
  · next he =>
    subst he
    rw [State.failSlotOf, if_pos (by simpa [h, MemSt.CanFail, or_assoc] using hs)]
    refine State.memberFailed_st ?_
    rcases hs with hs | hs | hs | hs <;> rw [hs] <;> decide
  · next he =>
    unfold State.failSlotOf
    split
    · exact (s.memberFailed_members e.1 e.2).st (by simpa using he)
    · rfl

/-- A slot that is FAILED stays so while the drive's other slots fail. -/
theorem State.failSlotOf_failed {s : State} {n j : Nat} (h : (s.slotOf n j).st = .failed) (e : Nat × Nat) :
    ((s.failSlotOf e).slotOf n j).st = .failed := by
  unfold State.failSlotOf
  split
  · next hc =>
    have hne : e ≠ (n, j) := by
      rintro rfl
      simp [h] at hc
    exact ((s.memberFailed_members e.1 e.2).st (by simpa using hne)).trans h
  · exact h

theorem State.foldl_failSlotOf_failed (l : List (Nat × Nat)) (n j : Nat) : ∀ s : State, (s.slotOf n j).st = .failed →
    ((l.foldl State.failSlotOf s).slotOf n j).st = .failed := by
  induction l with
  | nil => exact fun _ h => h
  | cons e l ih => exact fun s h => ih _ (State.failSlotOf_failed h e)

/-- Each slot of the drive that is mastered here and can fail is FAILED in the end (R181). -/
theorem State.foldl_failSlotOf {l : List (Nat × Nat)} {n j : Nat} (hl : (n, j) ∈ l) : ∀ s : State, s.owns n = true →
    (s.slotOf n j).st.CanFail → ((l.foldl State.failSlotOf s).slotOf n j).st = .failed := by
  induction l with
  | nil => cases hl
  | cons e l ih =>
    intro s ho hs
    have he := s.failSlotOf_st e n j ho hs
    rw [List.foldl_cons]
    by_cases hej : e = (n, j)
    · rw [if_pos hej] at he
      exact State.foldl_failSlotOf_failed l n j _ he
    · rw [if_neg hej] at he
      refine ih ((List.mem_cons.mp hl).resolve_left (Ne.symm hej)) _ ?_ (he ▸ hs)
      rw [State.failSlotOf_owns, ho]

theorem smartCriticalWarning_other {bits : BitVec 8} (h2 : bits.getLsbD 2 = false) (h3 : bits.getLsbD 3 = false) (s : State)
    (b : Nat) : Gives (.smartCriticalWarning b bits) s fun t => t = s := by
  refine ⟨s, ?_, rfl⟩
  rw [exec_smartCriticalWarning, execSmartCriticalWarning, if_neg (by rw [h2, h3]; decide)]

theorem smartCriticalWarning_fails {s : State} {b n j : Nat} {bits : BitVec 8} {r : Ring}
    (hb : bits.getLsbD 2 = true ∨ bits.getLsbD 3 = true) (hr : s.findRing n = some r) (ho : r.owner = true)
    (hj : (n, j) ∈ s.slotsOfBay b) (hs : (r.slotAt j).st.CanFail) :
    Gives (.smartCriticalWarning b bits) s fun t => ∃ g, t.findRing n = some g ∧ (g.slotAt j).st = .failed := by
  have hf : ((s.driveFailed b).slotOf n j).st = .failed := by
    rw [State.driveFailed_eq]
    exact State.foldl_failSlotOf hj s (by rw [State.owns_of_find hr, ho]) (by rwa [State.slotOf_of_find hr])
  obtain ⟨g, hg, hgj⟩ := State.ring_of_st hf
  refine ⟨s.driveFailed b, ?_, g, hg, hgj ▸ hf⟩
  rw [exec_smartCriticalWarning, execSmartCriticalWarning, if_pos (by simpa using hb)]

/-! ## MEMBER_FAIL and MEMBER_REPLACE (R192, R213) -/

/-- A command that has started ends with a status whatever has changed outside the mailbox. -/
theorem State.Starts.ends {s t : State} {m : Master} {op : Nat} {c : MbCmd} (h : s.Starts m op c) (hi : s.Inv) (ht : t.mbx = s.mbx)
    (st : Nat) : (t.finish m st []).Ended m st :=
  State.finish_ended (c := c) (by rw [ht]; exact hi.counts.masters) (by rw [State.cmdOf, ht]; exact h.1) st []

section
variable {s : State} {m : Master} {c : MbCmd} {n j fl : Nat} {r : Ring} (hs : s.Starts m 0x0303 c) (hi : s.Inv)
  (hn : byteAt c.params 0 = n) (hj : byteAt c.params 1 = j) (hfl : byteAt c.params 2 = fl) (hn7 : n ≤ 7) (hj23 : j ≤ 23)
  (hfl1 : fl ≤ 1) (hr : s.findRing n = some r)
include hs hi hn hj hfl hn7 hj23 hfl1 hr

omit hi in
/-- MEMBER_FAIL on a ring that exists, its parameters in range: the checks that are left (R213). -/
theorem exec_memberFail_ring : exec (.memberFail m) s = .next (s.checked m
    [(!r.owner, stNotOwner),
     (!((r.slotAt j).st = .online || (r.slotAt j).st = .stale || (r.slotAt j).st = .absent), stConflict),
     (fl = 0 && r.losesData j, stConflict)] (fun s => (s.memberFailed n j).finish m stOk [])) := by
  rw [exec_memberFail, execMemberFail, State.runCmd_starts hs]
  simp only [hn, hj, hfl, hr, State.owns_of_find hr, State.checked, firstFail, Nat.not_lt.mpr hn7, Nat.not_lt.mpr hj23,
    Nat.not_lt.mpr hfl1, Option.isNone_some, Option.map_some, Option.getD_some, decide_false, Bool.or_self,
    Bool.false_eq_true, if_false]

theorem memberFail_fails (ho : r.owner = true)
    (hst : (r.slotAt j).st = .online ∨ (r.slotAt j).st = .stale ∨ (r.slotAt j).st = .absent) (hl : fl = 0 → r.losesData j = false) :
    Gives (.memberFail m) s fun t => t.Ended m stOk ∧ ∃ g, t.findRing n = some g ∧ (g.slotAt j).st = .failed := by
  have hf : ((s.memberFailed n j).slotOf n j).st = .failed := State.memberFailed_st (by
    rw [State.slotOf_of_find hr]
    rcases hst with h | h | h <;> rw [h] <;> decide)
  obtain ⟨g, hg, hgj⟩ := State.ring_of_st hf
  refine ⟨_, ?_, hs.ends hi (t := s.memberFailed n j) (State.memberFailed_mbx ..) stOk, g, ?_, hgj ▸ hf⟩
  · rw [exec_memberFail_ring hs hn hj hfl hn7 hj23 hfl1 hr, State.checked_ok]
    have h3 : (decide (fl = 0) && r.losesData j) = false := by
      by_cases h0 : fl = 0
      · rw [hl h0, Bool.and_false]
      · simp [h0]
    simp only [firstFail, ho, h3, Bool.not_true, Bool.false_eq_true, if_false]
    rcases hst with h | h | h <;> simp [h]
  · rw [← hg, State.findRing, State.finish_rge]
    rfl

theorem memberFail_not_owner (ho : r.owner = false) :
    Gives (.memberFail m) s fun t => t.Ended m stNotOwner ∧ t.rge = s.rge := by
  refine ⟨_, ?_, hs.ends hi (t := s) rfl stNotOwner, State.finish_rge ..⟩
  rw [exec_memberFail_ring hs hn hj hfl hn7 hj23 hfl1 hr, State.checked_fail (by rw [ho]; rfl)]

theorem memberFail_loses_data (ho : r.owner = true) (h0 : fl = 0) (hl : r.losesData j = true) :
    Gives (.memberFail m) s fun t => t.Ended m stConflict ∧ t.rge = s.rge := by
  refine ⟨_, ?_, hs.ends hi (t := s) rfl stConflict, State.finish_rge ..⟩
  rw [exec_memberFail_ring hs hn hj hfl hn7 hj23 hfl1 hr, State.checked_fail]
  simp only [firstFail, ho, h0, hl, Bool.not_true, Bool.false_eq_true, if_false, decide_true, Bool.and_self, if_true]
  split <;> rfl

end

/-- A replacement that is accepted stands in its slot (R192). -/
theorem State.slotOf_acceptReplacement {s : State} {n j b : Nat} {d : DriveInfo} (hu : (s.slotOf n j).st ≠ .unused)
    (hd : (s.bayOf b).drive = some d) : ((s.acceptReplacement n j b).slotOf n j).face = (.replacing, some b, d.serial) := by
  obtain ⟨r, hr, -⟩ := State.ring_of_used hu
  unfold State.acceptReplacement
  rw [hr, hd]
  dsimp only
  have hm : s.MembersBut none (s.makeNamespaces r j b) := .of_rge (State.makeNamespaces_rge ..)
  exact (State.setSlot_upkept (by rwa [hm.stAll]) (State.membersChanged_members _ n true)).2

/-- A drive that fits is identified (R141). -/
theorem State.drive_of_fit {s : State} {b : Nat} (h : s.fitDrive b = true) : ∃ d, (s.bayOf b).drive = some d := by
  unfold State.fitDrive State.poweredDrive at h
  dsimp only at h
  cases hd : (s.bayOf b).drive with
  | some d => exact ⟨d, rfl⟩
  | none =>
    rw [hd, ite_self] at h
    cases h

theorem memberReplace_gives {s : State} {m : Master} {c : MbCmd} {n j b : Nat} {r : Ring} (hs : s.Starts m 0x0304 c) (hi : s.Inv)
    (hn : byteAt c.params 0 = n) (hj : byteAt c.params 1 = j) (hb : byteAt c.params 2 = b) (hn7 : n ≤ 7) (hj23 : j ≤ 23)
    (hb23 : b ≤ 23) (hbay : b < Config.bays s.part) (hr : s.findRing n = some r) (ho : r.owner = true)
    (hst : (r.slotAt j).st = .failed) (hfit : s.fitDrive b = true) (hin : ∀ x ∈ r.slots, x.bay = some b → x.st = .failed)
    (hroom : s.roomOn b (r.chunks * 65536) = true) :
    Gives (.memberReplace m) s fun t => t.Ended m stOk ∧ ∃ g, t.findRing n = some g ∧ (g.slotAt j).st = .replacing ∧
      (g.slotAt j).bay = some b := by
  obtain ⟨d, hd⟩ := State.drive_of_fit hfit
  have hface := State.slotOf_acceptReplacement (s := s) (n := n) (j := j) (by rw [State.slotOf_of_find hr, hst]; decide) hd
  have hrep : ((s.acceptReplacement n j b).slotOf n j).st = .replacing := congrArg (fun f => f.1) hface
  obtain ⟨g, hg, hgj⟩ := State.ring_of_st hrep
  refine ⟨_, ?_, hs.ends hi (t := s.acceptReplacement n j b) (State.acceptReplacement_mbx ..) stOk, g, ?_, hgj ▸ hrep,
    hgj ▸ congrArg (fun f => f.2.1) hface⟩
  · have hring : r.slots.any (fun y => y.bay = some b && y.st ≠ .failed) = false := by
      simpa using hin
    rw [exec_memberReplace, execMemberReplace, State.runCmd_starts hs]
    dsimp only
    rw [State.checked_ok]
    · simp only [hn, hj, hb]
    · simp only [hn, hj, hb, hr, State.owns_of_find hr, firstFail, Nat.not_lt.mpr hn7, Nat.not_lt.mpr hj23, Nat.not_lt.mpr hb23,
        Nat.not_le.mpr hbay, Option.isNone_some, Option.map_some, Option.getD_some, ho, hst, hfit, hring, hroom, ne_eq,
        not_true_eq_false, decide_false, Bool.or_self, Bool.not_true, Bool.false_eq_true, if_false]
  · rw [← hg, State.findRing, State.finish_rge]
    rfl

/-! ## LOST_LIST (R213) -/

theorem mem_insLost {x e : LostExtent} {l : List LostExtent} : e ∈ insLost x l ↔ e = x ∨ e ∈ l := by
  induction l with
  | nil => simp [insLost]
  | cons y l ih =>
    unfold insLost
    split
    · exact List.mem_cons
    · rw [List.mem_cons, ih, List.mem_cons, or_left_comm]

theorem insLost_pairwise (x : LostExtent) {l : List LostExtent} (h : l.Pairwise (fun a b => a.idx ≤ b.idx)) :
    (insLost x l).Pairwise (fun a b => a.idx ≤ b.idx) := by
  induction l with
  | nil => exact List.pairwise_singleton _ _
  | cons y l ih =>
    obtain ⟨hy, hl⟩ := List.pairwise_cons.mp h
    unfold insLost
    split
    · next hxy =>
      refine List.pairwise_cons.mpr ⟨fun e he => ?_, h⟩
      rcases List.mem_cons.mp he with rfl | he
      · exact hxy
      · exact Nat.le_trans hxy (hy e he)
    · next hxy =>
      refine List.pairwise_cons.mpr ⟨fun e he => ?_, ih hl⟩
      rcases mem_insLost.mp he with rfl | he
      · exact Nat.le_of_not_le hxy
      · exact hy e he

/-- The extents inserted one after another stand in the order of their indices. -/
theorem foldl_insLost (l : List LostExtent) : ∀ a : List LostExtent, a.Pairwise (fun x y => x.idx ≤ y.idx) →
    (l.foldl (fun l e => insLost e l) a).Pairwise (fun x y => x.idx ≤ y.idx) ∧
      ∀ e, e ∈ l.foldl (fun l e => insLost e l) a ↔ e ∈ l ∨ e ∈ a := by
  induction l with
  | nil => exact fun a ha => ⟨ha, fun e => by simp⟩
  | cons x l ih =>
    intro a ha
    obtain ⟨hp, hm⟩ := ih (insLost x a) (insLost_pairwise x ha)
    exact ⟨hp, fun e => by rw [List.foldl_cons, hm, mem_insLost, List.mem_cons, or_left_comm, or_assoc]⟩

theorem lostList_badRing {s : State} {m : Master} {c : MbCmd} (hs : s.Starts m 0x0305 c) (hi : s.Inv)
    (hn : 7 < byteAt c.params 0) : Gives (.lostList m) s fun t => t.Ended m stInvalidParam ∧ t.rge = s.rge := by
  refine ⟨_, ?_, hs.ends hi (t := s) rfl stInvalidParam, State.finish_rge ..⟩
  rw [exec_lostList, execLostList, State.runCmd_starts hs]
  exact congrArg _ (State.checked_fail (by simp [firstFail, hn]) _)

theorem State.answer_rge (s : State) (c : MbCmd) (res : List Byte) : (s.answer c res).rge = s.rge := by
  unfold State.answer
  split <;> exact State.finish_rge ..

theorem lostList_answers {s : State} {m : Master} {c : MbCmd} {n : Nat} (hs : s.Starts m 0x0305 c) (hi : s.Inv)
    (hn : byteAt c.params 0 = n) (hn7 : n ≤ 7) :
    Gives (.lostList m) s fun t => t.rge = s.rge ∧ ∃ all from_ : List LostExtent,
      (∀ e, e ∈ all ↔ e ∈ s.rge.lost ++ s.peerLost ∧ e.ring = n) ∧ (∀ e, e ∈ from_ ↔ e ∈ all ∧ leAt c.params 4 4 ≤ e.idx) ∧
      from_.Pairwise (fun x y => x.idx ≤ y.idx) ∧
      t.Answers m c (padTo 64 (leBytes 4 all.length ++
        leBytes 4 (((from_.drop 63).head?.map (fun e => e.idx)).getD 0xFFFFFFFF)) ++
        (from_.take 63).flatMap (fun e => e.line)) := by
  obtain ⟨hp, hm⟩ := foldl_insLost (s.lostOf n) [] List.Pairwise.nil
  refine ⟨_, ?_, s.answer_rge c _, (s.lostOf n).foldl (fun l e => insLost e l) [],
    ((s.lostOf n).foldl (fun l e => insLost e l) []).filter (fun e => leAt c.params 4 4 ≤ e.idx), fun e => ?_, fun e => ?_,
    hp.filter _, State.answer_answers hi.counts.masters hs.1 _⟩
  · rw [exec_lostList, execLostList, State.runCmd_starts hs]
    dsimp only
    rw [State.checked_ok (by simp [firstFail, hn, Nat.not_lt.mpr hn7]), hn]
  · rw [hm]
    simp [State.lostOf, or_and_right]
  · simp

end Sys2Proof.Machine
end

section
/-! PROOFS. DRIVE_IDENTIFIED (R139, R143, R180, R207). -/

namespace Sys2Proof.Machine

/-! ## The drive in its bay -/

theorem State.issueMember_bays (s : State) (b r j : Nat) (op : MOp) (lba : Nat) (rows : List Nat) (data : List Block) (fua : Bool)
    (p : MPurpose) : (s.issueMember b r j op lba rows data fua p).bay.bays = s.bay.bays := by
  unfold State.issueMember State.issueWith
  cases op <;> simp

/-- What superblocks of deleted rings leave on a drive concerns no ring (R143). -/
theorem State.cleanDrive_rge (s : State) (b : Nat) (d : DriveInfo) : (s.cleanDrive b d).rge = s.rge := by
  unfold State.cleanDrive
  dsimp only
  split
  · rfl
  · exact foldl_frame (g := fun t : State => t.rge) (fun t n => by simp) _ s

/-- A drive that is cleaned keeps its serial number; a module that does not hold the bays leaves it as it is (R143). -/
theorem State.cleanDrive_drive {s : State} {b : Nat} {d : DriveInfo} (hb : b < s.bay.bays.length)
    (h : (s.bayOf b).drive = some d) : ∃ x, ((s.cleanDrive b d).bayOf b).drive = some x ∧ x.serial = d.serial ∧
      (s.bay.holder = false → x = d) := by
  unfold State.cleanDrive
  dsimp only
  split
  · exact ⟨d, h, rfl, fun _ => rfl⟩
  · next hh =>
    generalize hu : List.foldl _ s _ = u
    have hbays : u.bay.bays = s.bay.bays := by
      rw [← hu]
      exact foldl_frame (g := fun t : State => t.bay.bays)
        (fun t n => (State.issueMember_bays ..).trans (State.issueMember_bays ..)) _ s
    have hdrive : (u.bayOf b).drive = some d := by rw [State.bayOf, hbays, ← h, State.bayOf]
    rw [State.bayOf_setBay (by rw [hbays]; exact hb)]
    dsimp only
    rw [hdrive]
    exact ⟨_, rfl, rfl, fun hf => absurd hf (by simpa using hh)⟩

/-- Superblocks that are not newer than what this module knows change nothing (R139). -/
theorem State.useSuperblocks_of_old {s : State} {d : DriveInfo}
    (h : ∀ x ∈ s.rge.rings, ∀ c, bestCopy d.superblocks x = some c → x.owner = true ∨ c.gen ≤ x.gen) :
    s.useSuperblocks d = s := by
  unfold State.useSuperblocks State.updRge
  dsimp only
  rw [List.map_congr_left (g := id) fun r hr => ?_, List.map_id]
  split
  · next c hc => exact if_pos (by simpa using h r hr c hc)
  · rfl

/-- The state in which the slots of an identified drive are looked for. -/
def State.withDrive (s : State) (b : Nat) (d : DriveInfo) : State :=
  (s.setBay b (fun x => { x with drive := some d })).cleanDrive b d

theorem State.withDrive_rge (s : State) (b : Nat) (d : DriveInfo) : (s.withDrive b d).rge = s.rge := State.cleanDrive_rge ..

theorem State.withDrive_members (s : State) (b : Nat) (d : DriveInfo) : s.MembersBut none (s.withDrive b d) :=
  .of_rge (s.withDrive_rge b d)

theorem State.withDrive_drive {s : State} {b : Nat} (hb : b < s.bay.bays.length) (d : DriveInfo) :
    ∃ x, ((s.withDrive b d).bayOf b).drive = some x ∧ x.serial = d.serial ∧ (s.bay.holder = false → x = d) :=
  State.cleanDrive_drive (s := s.setBay b (fun x => { x with drive := some d })) (by simpa using hb)
    (by rw [State.bayOf_setBay hb])

/-- Every member slot of every ring, in the order in which an identified drive is looked for. -/
def State.allSlots (s : State) : List (Nat × Nat) :=
  s.rge.rings.flatMap (fun r => (natsFrom 0 r.n).map (fun j => (r.num, j)))

theorem State.mem_allSlots {s : State} {n j : Nat} {r : Ring} (hr : s.findRing n = some r) (hj : j < r.n) :
    (n, j) ∈ s.allSlots := by
  refine List.mem_flatMap.mpr ⟨r, List.mem_of_find?_eq_some hr, List.mem_map.mpr ⟨j, ?_, by rw [State.num_of_find hr]⟩⟩
  rw [natsFrom_eq_range']
  exact List.mem_range'_1.mpr ⟨Nat.zero_le j, by omega⟩

theorem exec_driveIdentified_old {s : State} {b : Nat} {d : DriveInfo} (hb : b < Config.bays s.part)
    (h : ∀ x ∈ s.rge.rings, ∀ c, bestCopy d.superblocks x = some c → x.owner = true ∨ c.gen ≤ x.gen) :
    exec (.driveIdentified b d) s =
      .next (s.allSlots.foldl (fun t e => t.matchSlot b d e.1 e.2) (s.withDrive b d)) := by
  have hu : (s.withDrive b d).useSuperblocks d = s.withDrive b d :=
    State.useSuperblocks_of_old (by rw [s.withDrive_rge b d]; exact h)
  rw [exec_driveIdentified, execDriveIdentified, if_neg (Nat.not_le.mpr hb)]
  dsimp only
  rw [← State.withDrive, hu, s.withDrive_rge b d]
  rfl

/-! ## Slots that a drive meets -/

/-- A slot that knows nothing of a drive in a bay. -/
def MemberSlot.Foreign (m : MemberSlot) (b : Nat) (d : DriveInfo) : Prop :=
  m.st = .unused ∨ m.serial ≠ d.serial ∧ m.bay ≠ some b

theorem MemberSlot.Foreign.of_face {m k : MemberSlot} {b : Nat} {d : DriveInfo} (h : m.Foreign b d) (hf : k.face = m.face) :
    k.Foreign b d := by
  simp only [MemberSlot.face, Prod.mk.injEq] at hf
  obtain ⟨hst, hbay, hser⟩ := hf
  rwa [MemberSlot.Foreign, hst, hbay, hser]

/-- Slots of a ring's list that know nothing of a drive, as a slot of the state. -/
theorem State.foreign_of_rings {s : State} {b : Nat} {d : DriveInfo} {k i : Nat}
    (h : ∀ x, s.findRing k = some x → i < x.slots.length → (x.slotAt i).serial ≠ d.serial ∧ (x.slotAt i).bay ≠ some b) :
    (s.slotOf k i).Foreign b d := by
  by_cases hu : (s.slotOf k i).st = .unused
  · exact .inl hu
  · obtain ⟨x, hx, hs⟩ := State.ring_of_used hu
    exact .inr (hs ▸ h x hx (Ring.lt_of_used (hs ▸ hu)))

theorem State.matchSlot_foreign {s : State} {b k i : Nat} {d : DriveInfo} (h : (s.slotOf k i).Foreign b d) :
    s.matchSlot b d k i = s := by
  unfold State.matchSlot
  split
  · rfl
  · next r hr =>
    rw [State.slotOf_of_find hr] at h
    dsimp only
    rcases h with hu | ⟨hs, hb⟩
    · rw [if_pos hu]
    · simp only [hs, hb, if_false, ite_self]

/-- The slot of a ring that waits for a drive: ABSENT with its serial number, or found in its bay already. -/
structure State.Waits (s : State) (b : Nat) (d : DriveInfo) (n j : Nat) : Prop where
  serial : (s.slotOf n j).serial = d.serial
  st : (s.slotOf n j).st = .absent ∨ s.owns n = true ∧ (s.slotOf n j).st = .stale ∧ (s.slotOf n j).bay = some b

/-- The face of a slot whose drive has come back: STALE where this module masters the ring; elsewhere the
ringmaster's view of it stands (R179, R180; log 30). -/
def rejoinedFace (own : Bool) (b : Nat) (d : DriveInfo) : MemSt × Option Nat × Nat :=
  (if own = true then .stale else .absent, some b, d.serial)

/-- A slot that waits for a drive takes it (R180, R207). -/
theorem State.matchSlot_waits {s : State} {b n j : Nat} {d : DriveInfo} (h : s.Waits b d n j) :
    s.MembersBut (some (n, j)) (s.matchSlot b d n j) ∧
      ((s.matchSlot b d n j).slotOf n j).face = rejoinedFace (s.owns n) b d := by
  have hu : (s.slotOf n j).st ≠ .unused := by rcases h.st with h | ⟨-, h, -⟩ <;> rw [h] <;> decide
  obtain ⟨hser, hst⟩ := h
  obtain ⟨r, hr, hs⟩ := State.ring_of_used hu
  have hnum := State.num_of_find hr
  rw [State.owns_of_find hr] at hst ⊢
  rw [hs] at hser hst
  rw [State.matchSlot, hr]
  dsimp only
  rw [if_neg (hs ▸ hu)]
  cases ho : r.owner with
  | false =>
    have ha : (r.slotAt j).st = .absent := hst.resolve_right (by simp [ho])
    simp only [Bool.not_false, if_true, hser]
    obtain ⟨hm, hf⟩ := State.setSlot_upkept hu (State.reask_members (s.updRing n (fun x => x.setSlot j (fun y =>
      { y with bay := some b, localBad := false }))))
    exact ⟨hm, hf.trans (by rw [hs, MemberSlot.face, ha, hser]; rfl)⟩
  | true =>
    simp only [Bool.not_true, Bool.false_eq_true, if_false, hser, if_true]
    unfold State.matchOwn
    rw [hnum]
    dsimp only
    rcases hst with ha | ⟨-, ha, hb⟩
    · rw [ha]
      dsimp only
      have upkept (v : State) (hv : (s.updRing n (fun x => x.setSlot j (fun y =>
          { y with st := .stale, bay := some b, rejoin := none, localBad := false, resynced := [] }))).MembersBut none v) :
          s.MembersBut (some (n, j)) (v.membersChanged n false) ∧
            ((v.membersChanged n false).slotOf n j).face = rejoinedFace true b d := by
        obtain ⟨hm, hf⟩ := State.setSlot_upkept hu (hv.trans (State.membersChanged_members v n false))
        exact ⟨hm, hf.trans (by rw [hs, MemberSlot.face, hser]; rfl)⟩
      split
      · split
        · exact upkept _ (.of_rge (State.toSlot_rge ..))
        · exact upkept _ (.refl _ _)
      · exact upkept _ (.refl _ _)
    · rw [ha]
      dsimp only
      rw [if_pos hb]
      obtain ⟨hm, hf⟩ := State.setSlot_upkept hu (State.reask_members (s.updRing n (fun x => x.setSlot j (fun y =>
        { y with localBad := false }))))
      exact ⟨hm, hf.trans (by rw [hs, MemberSlot.face, ha, hb, hser]; rfl)⟩

/-! ## The search for the drive's slot -/

/-- Only the slot `j` of ring `n` knows a drive, and waits for it. -/
structure State.WaitsAlone (s : State) (b : Nat) (d : DriveInfo) (n j : Nat) : Prop where
  waits : s.Waits b d n j
  others : ∀ k i, (k, i) ≠ (n, j) → (s.slotOf k i).Foreign b d

/-- After the drive has come the slot waits for it no less: a second visit finds it in its bay. -/
theorem State.WaitsAlone.matched {s : State} {b n j : Nat} {d : DriveInfo} (h : s.WaitsAlone b d n j) :
    (s.matchSlot b d n j).WaitsAlone b d n j ∧ (s.matchSlot b d n j).owns n = s.owns n ∧
      ((s.matchSlot b d n j).slotOf n j).face = rejoinedFace (s.owns n) b d := by
  obtain ⟨hm, hf⟩ := State.matchSlot_waits h.waits
  have hst := congrArg (fun f => f.1) hf
  have hbay := congrArg (fun f => f.2.1) hf
  refine ⟨⟨⟨congrArg (fun f => f.2.2) hf, ?_⟩, fun k i hk => (h.others k i hk).of_face (hm.face k i (by simpa using Ne.symm hk))⟩,
    hm.owns n, hf⟩
  rw [hm.owns n]
  cases ho : s.owns n with
  | true => exact .inr ⟨rfl, by simpa [MemberSlot.face, rejoinedFace, ho] using hst, hbay⟩
  | false => exact .inl (by simpa [MemberSlot.face, rejoinedFace, ho] using hst)

theorem State.WaitsAlone.foldl_matched {l : List (Nat × Nat)} {b n j : Nat} {d : DriveInfo} : ∀ s : State, s.WaitsAlone b d n j →
    (n, j) ∈ l ∨ (s.slotOf n j).face = rejoinedFace (s.owns n) b d →
    ((l.foldl (fun t e => t.matchSlot b d e.1 e.2) s).slotOf n j).face = rejoinedFace (s.owns n) b d := by
  induction l with
  | nil => exact fun s _ hl => hl.resolve_left List.not_mem_nil
  | cons e l ih =>
    intro s h hl
    rw [List.foldl_cons]
    by_cases he : e = (n, j)
    · subst he
      obtain ⟨hw, ho, hf⟩ := h.matched
      rw [← ho] at hf ⊢
      exact ih _ hw (.inr hf)
    · rw [State.matchSlot_foreign (h.others e.1 e.2 he)]
      exact ih s h (hl.imp_left fun hm => (List.mem_cons.mp hm).resolve_left (Ne.symm he))

theorem driveIdentified_new {s : State} {b : Nat} {d : DriveInfo} (hb : b < Config.bays s.part) (hl : b < s.bay.bays.length)
    (hold : ∀ x ∈ s.rge.rings, ∀ c, bestCopy d.superblocks x = some c → x.owner = true ∨ c.gen ≤ x.gen)
    (hno : ∀ k x, s.findRing k = some x → ∀ i < x.slots.length, (x.slotAt i).serial ≠ d.serial ∧ (x.slotAt i).bay ≠ some b) :
    Gives (.driveIdentified b d) s fun t => ∃ x, (t.bayOf b).drive = some x ∧ x.serial = d.serial ∧
      (s.bay.holder = false → x = d) := by
  refine ⟨_, exec_driveIdentified_old hb hold, ?_⟩
  have hf (k i : Nat) : ((s.withDrive b d).slotOf k i).Foreign b d :=
    (State.foreign_of_rings fun x hx hi => hno k x hx i hi).of_face
      ((s.withDrive_members b d).faceAll k i)
  have hid (l : List (Nat × Nat)) : l.foldl (fun t e => t.matchSlot b d e.1 e.2) (s.withDrive b d) = s.withDrive b d := by
    induction l with
    | nil => rfl
    | cons e l ih => rw [List.foldl_cons, State.matchSlot_foreign (hf e.1 e.2), ih]
  rw [hid]
  exact State.withDrive_drive hl d

theorem driveIdentified_rejoins {s : State} {b n j : Nat} {d : DriveInfo} {r : Ring} (hb : b < Config.bays s.part)
    (hr : s.findRing n = some r) (hj : j < r.n) (ha : (r.slotAt j).st = .absent) (hser : (r.slotAt j).serial = d.serial)
    (hold : ∀ x ∈ s.rge.rings, ∀ c, bestCopy d.superblocks x = some c → x.owner = true ∨ c.gen ≤ x.gen)
    (hno : ∀ k x, s.findRing k = some x → ∀ i < x.slots.length, ¬(k = n ∧ i = j) →
      (x.slotAt i).serial ≠ d.serial ∧ (x.slotAt i).bay ≠ some b) :
    Gives (.driveIdentified b d) s fun t => ∃ g, t.findRing n = some g ∧ (g.slotAt j).bay = some b ∧
      (g.slotAt j).st = if r.owner = true then .stale else .absent := by
  have hm := s.withDrive_members b d
  have hslot := State.slotOf_of_find hr j
  have hw : (s.withDrive b d).WaitsAlone b d n j := by
    refine ⟨⟨?_, .inl ?_⟩, fun k i hk => ?_⟩
    · rw [hm.serial (Option.some_ne_none _).symm, hslot, hser]
    · rw [hm.stAll, hslot, ha]
    · exact (State.foreign_of_rings fun x hx hi => hno k x hx i hi (by simpa using hk)).of_face
        (hm.faceAll k i)
  have hf := hw.foldl_matched (l := s.allSlots) _ (.inl (State.mem_allSlots hr hj))
  rw [hm.owns, State.owns_of_find hr] at hf
  have hst := congrArg (fun f => f.1) hf
  have hbay := congrArg (fun f => f.2.1) hf
  obtain ⟨g, hg, hgj⟩ := State.ring_of_used (n := n) (j := j) (fun hu => by
    have := hst.symm.trans hu
    cases ho : r.owner <;> simp [rejoinedFace, ho] at this)
  exact ⟨_, exec_driveIdentified_old hb hold, g, hg, hgj ▸ hbay, hgj ▸ hst⟩

end Sys2Proof.Machine
end

section
/-! PROOFS. Chunks sent to member slots by rebuild, copyback and rejoin, the patrol, and the rate (R189 to R195, R208, R210). -/

namespace Sys2Proof.Machine

/-! ## What the pass over a stripe's rows leaves (R189, R198, R201, R211) -/

/-- Chunks on their way to their slots, and the bytes of rebuild work issued. -/
def RgeSt.onTheWay (e : RgeSt) : List RebuildTask × Nat := (e.tasks, e.work)

theorem RgeSt.onTheWay_eq_iff {e : RgeSt} {ts : List RebuildTask} {w : Nat} :
    e.onTheWay = (ts, w) ↔ e.tasks = ts ∧ e.work = w := Prod.ext_iff

@[simp] theorem State.putLost_onTheWay (s : State) (e : LostExtent) : (s.putLost e).rge.onTheWay = s.rge.onTheWay := by
  unfold State.putLost
  dsimp only
  rw [State.sendLine_rge]
  rfl

@[simp] theorem State.dropLost_onTheWay (s : State) (i : Nat) : (s.dropLost i).rge.onTheWay = s.rge.onTheWay := by
  unfold State.dropLost
  rw [State.sendLine_rge]
  rfl

@[simp] theorem State.mergeLost_onTheWay (s : State) : s.mergeLost.rge.onTheWay = s.rge.onTheWay := by
  unfold State.mergeLost
  split
  · rfl
  · simp

@[simp] theorem State.addLost_onTheWay (s : State) (e : LostExtent) : (s.addLost e).rge.onTheWay = s.rge.onTheWay := by
  unfold State.addLost
  dsimp only
  split
  · simp
  · split <;> simp

@[simp] theorem State.recordLost_onTheWay (s : State) (n rba cause : Nat) :
    (s.recordLost n rba cause).rge.onTheWay = s.rge.onTheWay := by
  unfold State.recordLost
  split
  · rfl
  · split
    · rfl
    · dsimp only
      split <;> simp

@[simp] theorem State.recordRow_onTheWay (s : State) (r : Ring) (st row : Nat) (lost : List Nat) (cause : Nat) :
    (s.recordRow r st row lost cause).rge.onTheWay = s.rge.onTheWay :=
  foldl_frame (g := fun t : State => t.rge.onTheWay) (fun _ _ => State.recordLost_onTheWay ..) _ s

@[simp] theorem State.putBlock_rge (s : State) (r : Ring) (j st c row seq : Nat) (b : Block) :
    (s.putBlock r j st c row seq b).rge = s.rge := State.toSlot_rge ..

@[simp] theorem State.markMissed_onTheWay (s : State) (r : Ring) (st c : Nat) :
    (s.markMissed r st c).rge.onTheWay = s.rge.onTheWay :=
  foldl_frame (g := fun t : State => t.rge.onTheWay) (f := fun t j => t.updRing r.num (fun x => x.setSlot j (fun m =>
    { m with missed := addNat (addNat m.missed (x.region0 st)) (x.region1 st) }))) (fun _ _ => rfl) (r.missing st c) s

@[simp] theorem State.putMember_onTheWay (s : State) (r : Ring) (st c row seq : Nat) (b : Block) :
    (s.putMember r st c row seq b).rge.onTheWay = s.rge.onTheWay :=
  (foldl_frame (g := fun t : State => t.rge.onTheWay) (fun _ _ => by rw [State.putBlock_rge]) _ _).trans
    (s.markMissed_onTheWay r st c)

@[simp] theorem State.repairPut_onTheWay (s : State) (r : Ring) (st row seq : Nat) (data : List Block) (bad : List Nat) :
    (s.repairPut r st row seq data bad).rge.onTheWay = s.rge.onTheWay :=
  foldl_frame (g := fun t : State => t.rge.onTheWay) (fun _ _ => State.putMember_onTheWay ..) _ s

/-- Blocks that go to member slots change nothing of the ring engine. -/
theorem State.foldl_putBlock_rge {α : Type} (r : Ring) (st row seq : Nat) (slot pos : α → Nat) (b : α → Block) (l : List α)
    (s : State) : (l.foldl (fun t a => t.putBlock r (slot a) st (pos a) row seq (b a)) s).rge = s.rge :=
  foldl_frame (g := fun t : State => t.rge) (fun _ _ => State.putBlock_rge ..) l s

/-- A row that is renewed sends blocks, and neither starts nor ends a chunk. -/
@[simp] theorem State.renewRow_onTheWay (s : State) (r : Ring) (st seq : Nat) (put : List (Nat × Nat)) (d : RowData) (row : Nat) :
    (s.renewRow r st seq put d row).rge.onTheWay = s.rge.onTheWay := by
  unfold State.renewRow
  dsimp only
  generalize mendRow r.k (r.unverified st) (r.rowRead st d) = x
  have hput (t : State) := State.foldl_putBlock_rge r st row seq Prod.snd Prod.fst (fun p => rowBlock r.k x.1 p.1) put t
  split
  · rw [hput, State.repairPut_onTheWay, State.recordRow_onTheWay]
  · rw [foldl_frame (g := fun t : State => t.rge.onTheWay) (fun t c => ?_), hput, State.repairPut_onTheWay,
      State.recordRow_onTheWay]
    exact (congrArg RgeSt.onTheWay (State.foldl_putBlock_rge r st row seq id (fun _ => c) (fun _ => rowBlock r.k x.1 c) _ _)).trans
      (State.markMissed_onTheWay ..)

theorem State.SameRings.repairPut {z s : State} (r : Ring) (st row seq : Nat) (data : List Block) (bad : List Nat)
    (h : State.SameRings z s) : State.SameRings z (s.repairPut r st row seq data bad) :=
  (h.putRow r st row seq data bad).bumpBy _ _

theorem State.SameRings.renewRow {z s : State} (r : Ring) (st seq : Nat) (put : List (Nat × Nat)) (d : RowData) (row : Nat)
    (h : State.SameRings z s) : State.SameRings z (s.renewRow r st seq put d row) := by
  unfold State.renewRow
  dsimp only
  generalize mendRow r.k (r.unverified st) (r.rowRead st d) = x
  have hput : State.SameRings z (put.foldl (fun t p => t.putBlock r p.2 st p.1 row seq (rowBlock r.k x.1 p.1))
      ((s.recordRow r st row x.2.1 x.2.2).repairPut r st row seq x.1
        ((rowBad (r.rowRead st d)).filter (fun c => !hasNat x.2.1 c)))) :=
    .foldl (fun _ _ ht => ht.putBlock _ _ _ _ _ _ _) put ((h.recordRow _ _ _ _ _).repairPut _ _ _ _ _ _)
  split
  · exact hput
  · exact .foldl (fun t c ht => .foldl (fun _ _ hu => hu.putBlock _ _ _ _ _ _ _) _ (ht.markMissed _ _ _)) _ hput

theorem State.SameRings.patrolRow {z s : State} (r : Ring) (st seq : Nat) (d : RowData) (row : Nat)
    (h : State.SameRings z s) : State.SameRings z (s.patrolRow r st seq d row) := by
  unfold State.patrolRow
  dsimp only
  split
  · exact (h.recordRow _ _ _ _ _).putRow _ _ _ _ _ _
  · split
    · exact h.repairPut _ _ _ _ _ _
    · split
      · exact h
      · split <;> exact (h.bumpBy _ _).putRow _ _ _ _ _ _

/-! ## A task under its record (R162, R199) -/

@[simp] theorem State.setRegion_onTheWay (s : State) (n g : Nat) : (s.setRegion n g).rge.onTheWay = s.rge.onTheWay := by
  unfold State.setRegion
  split
  · rfl
  · split
    · rfl
    · dsimp only
      rw [State.sendLine_rge]
      rfl

@[simp] theorem State.markStripe_onTheWay (s : State) (r : Ring) (st : Nat) :
    (s.markStripe r st).rge.onTheWay = s.rge.onTheWay := by simp [State.markStripe]

@[simp] theorem State.endTask_onTheWay (s : State) (n seq : Nat) : (s.endTask n seq).rge.onTheWay = s.rge.onTheWay := by
  unfold State.endTask
  split
  · rfl
  · split
    · rw [State.freeIntent, State.sendLine_rge]
      rfl
    · rfl

/-- An intent record takes the next SEQ, and starts no chunk (R167). -/
theorem State.openIntent_spec (s : State) (n kind flags st rm pm v : Nat) :
    (s.openIntent n kind flags st rm pm v).1.rge.onTheWay = s.rge.onTheWay ∧
      (s.openIntent n kind flags st rm pm v).1.rge.jseq = s.rge.jseq + 1 := by
  unfold State.openIntent
  dsimp only
  rw [State.sendLine_rge]
  exact ⟨rfl, rfl⟩

/-- Whether or not it writes, a task under a record starts its chunks under the next SEQ. -/
theorem State.underRecord_onTheWay {r : Ring} {kind st : Nat} {f : Nat → State → State} {new : Nat → List RebuildTask}
    (hf : ∀ q t, (f q t).rge.onTheWay = (t.rge.tasks ++ new q, t.rge.work)) (s : State) :
    (s.underRecord r kind st f).rge.onTheWay = (s.rge.tasks ++ new (s.rge.jseq + 1), s.rge.work) := by
  unfold State.underRecord
  dsimp only
  split
  · exact hf _ s
  · obtain ⟨hway, hseq⟩ := s.openIntent_spec r.num kind (if r.levelOf st = 0 then 0 else 2) st
      (maskOf ((f (s.rge.jseq + 1) s).taskWrites s.bay.nextCmd).1).toNat
      (maskOf ((f (s.rge.jseq + 1) s).taskWrites s.bay.nextCmd).2).toNat 0
    rw [State.endTask_onTheWay, hf, hseq]
    obtain ⟨htasks, hwork⟩ := RgeSt.onTheWay_eq_iff.mp ((State.markStripe_onTheWay _ r st).trans hway)
    rw [htasks, hwork]

/-! ## Chunks of a stripe that are renewed (R189, R192, R208) -/

/-- The chunks of a stripe as they go to their slots under the record of SEQ `seq`. -/
def Ring.tasksOf (r : Ring) (st : Nat) (put : List (Nat × Nat)) (seq : Nat) : List RebuildTask :=
  put.map (fun p => ⟨r.num, st, p.1, p.2, seq⟩)

/-- Chunks that are renewed are on their way, and their bytes count as issued (R176, R195). -/
theorem State.renewStripe_onTheWay (s : State) (r : Ring) (st : Nat) (put : List (Nat × Nat)) (rows : List (Nat × RowData)) :
    (s.renewStripe r st put rows).rge.onTheWay =
      (s.rge.tasks ++ r.tasksOf st put (s.rge.jseq + 1), s.rge.work + 65536 * put.length) := by
  have hu := State.underRecord_onTheWay (r := r) (kind := 2) (st := st) (new := r.tasksOf st put)
    (f := fun seq t => (natsFrom 0 16).foldl (fun u b => u.renewRow r st seq put (rowsFor rows b) b)
      (t.updRge (fun e => { e with tasks := e.tasks ++ r.tasksOf st put seq })))
    (fun q t => foldl_frame (g := fun t : State => t.rge.onTheWay) (fun _ _ => State.renewRow_onTheWay ..) _ _) s
  obtain ⟨htasks, hwork⟩ := RgeSt.onTheWay_eq_iff.mp hu
  unfold State.renewStripe State.worked
  rw [State.updRge_rge]
  exact RgeSt.onTheWay_eq_iff.mpr ⟨htasks, congrArg (· + 65536 * put.length) hwork⟩

theorem State.renewStripe_tasks (s : State) (r : Ring) (st : Nat) (put : List (Nat × Nat)) (rows : List (Nat × RowData)) :
    (s.renewStripe r st put rows).rge.tasks = s.rge.tasks ++ r.tasksOf st put (s.rge.jseq + 1) :=
  (RgeSt.onTheWay_eq_iff.mp (s.renewStripe_onTheWay r st put rows)).1

theorem State.renewStripe_work (s : State) (r : Ring) (st : Nat) (put : List (Nat × Nat)) (rows : List (Nat × RowData)) :
    (s.renewStripe r st put rows).rge.work = s.rge.work + 65536 * put.length :=
  (RgeSt.onTheWay_eq_iff.mp (s.renewStripe_onTheWay r st put rows)).2

/-- A chunk that goes to a slot is on its way there. -/
theorem State.mem_renewStripe_tasks {s : State} {r : Ring} {n st c j : Nat} {put : List (Nat × Nat)} (hn : r.num = n)
    (h : (c, j) ∈ put) (rows : List (Nat × RowData)) :
    ⟨n, st, c, j, s.rge.jseq + 1⟩ ∈ (s.renewStripe r st put rows).rge.tasks := by
  rw [State.renewStripe_tasks, ← hn]
  exact List.mem_append_right _ (List.mem_map.mpr ⟨(c, j), h, rfl⟩)

theorem State.SameRings.renewStripe {z s : State} (r : Ring) (st : Nat) (put : List (Nat × Nat)) (rows : List (Nat × RowData))
    (h : State.SameRings z s) : State.SameRings z (s.renewStripe r st put rows) := by
  unfold State.renewStripe State.worked
  refine .updRge _ (.underRecord r 2 st _ (fun seq t ht => ?_) h) {}
  exact .foldl (fun _ _ hu => hu.renewRow _ _ _ _ _ _) _ (.updRge _ ht {})

/-! ## REBUILD_STRIPE_DONE and COPYBACK_CHUNK_DONE (R189, R190, R192, R193, R195) -/

theorem State.updRing_tasks (s : State) (n : Nat) (f : Ring → Ring) : (s.updRing n f).rge.tasks = s.rge.tasks := rfl

theorem State.updRing_work (s : State) (n : Nat) (f : Ring → Ring) : (s.updRing n f).rge.work = s.rge.work := rfl

/-- The chunks of a stripe that rebuild can write, each with its target. -/
def Ring.rebuildPut (r : Ring) (st : Nat) : List (Nat × Nat) :=
  (r.workChunks st).filterMap (fun c => (r.targetOf st c).map (fun t => (c, t)))

theorem Ring.mem_rebuildPut {r : Ring} {st c j : Nat} (hc : c ∈ r.workChunks st) (hj : r.targetOf st c = some j) :
    (c, j) ∈ r.rebuildPut st :=
  List.mem_filterMap.mpr ⟨c, hc, by rw [hj]; rfl⟩

theorem Ring.length_rebuildPut (r : Ring) (st : Nat) :
    (r.rebuildPut st).length = ((r.workChunks st).filter (fun c => (r.targetOf st c).isSome)).length := by
  simp [Ring.rebuildPut, List.length_filterMap_eq_countP, List.countP_eq_length_filter]

/-- The ring once its pass of a level has been at a stripe (R190). -/
def Ring.passed (r : Ring) (lvl st : Nat) : Ring := { r with cursors := setAt r.cursors (lvl - 1) (st + 1) }

theorem Ring.cursor_passed {r : Ring} {lvl : Nat} (st : Nat) (h : lvl - 1 < (r.passed lvl st).cursors.length) :
    (r.passed lvl st).cursors.getD (lvl - 1) 0 = st + 1 := by
  rw [Ring.passed, length_setAt] at h
  rw [Ring.passed, getD_setAt _ _ _ _ _ h, if_pos rfl]

theorem rebuildStripeDone_gives {s : State} {n st lvl : Nat} {rows : List (Nat × RowData)} {r : Ring}
    (hr : s.findRing n = some r) (hnext : r.nextRebuild = some (lvl, st)) (hmay : s.mayRenew r st rows = true) :
    Gives (.rebuildStripeDone n st rows) s fun t => ∃ u : State, t = u.reask ∧
      (∃ g, u.findRing n = some g ∧ (lvl - 1 < g.cursors.length → g.cursors.getD (lvl - 1) 0 = st + 1)) ∧
      (∀ c ∈ r.workChunks st, ∀ j, r.targetOf st c = some j → ⟨n, st, c, j, s.rge.jseq + 1⟩ ∈ u.rge.tasks) ∧
      u.rge.work = s.rge.work + 65536 * ((r.workChunks st).filter (fun c => (r.targetOf st c).isSome)).length := by
  obtain ⟨g, hg, -⟩ := ((State.SameRings.refl s).renewStripe r st (r.rebuildPut st) rows).found hr
  refine ⟨_, ?_, (s.renewStripe r st (r.rebuildPut st) rows).updRing n (fun y => y.passed lvl st), rfl,
    ⟨g.passed lvl st, ?_, Ring.cursor_passed st⟩, fun c hc j hj => ?_, ?_⟩
  · rw [exec_rebuildStripeDone, execRebuildStripeDone, hr]
    dsimp only
    rw [hnext]
    dsimp only
    rw [if_neg (by simp [hmay])]
    rfl
  · rw [State.findRing_updRing (f := fun y => y.passed lvl st) (fun _ => rfl), hg]
    rfl
  · rw [State.updRing_tasks]
    exact State.mem_renewStripe_tasks (State.num_of_find hr) (Ring.mem_rebuildPut hc hj) rows
  · rw [State.updRing_work, State.renewStripe_work, Ring.length_rebuildPut]

theorem copybackChunkDone_gives {s : State} {n j ch st : Nat} {rows : List (Nat × RowData)} {r : Ring}
    (hr : s.findRing n = some r) (hst : (r.slotAt j).st = .replacing) (hnext : r.nextRebuild = none)
    (hstale : ∀ x ∈ r.slots, x.st ≠ .stale) (hch : ch ∉ (r.slotAt j).filled)
    (hturn : (natsFrom 0 r.turns).find? (fun t => !r.turnDone j t) = some (ch / Nat.max r.w 1 / 4096))
    (hfind : (natsFrom (ch / Nat.max r.w 1 * r.d) r.d).find? (fun st => r.homeOf st (ch % Nat.max r.w 1) = j) = some st)
    (hmay : s.mayRenew r st rows = true) :
    Gives (.copybackChunkDone n j ⟨ch, rows⟩) s fun t => ∃ u : State, t = u.reask ∧
      ⟨n, st, ch % Nat.max r.w 1, j, s.rge.jseq + 1⟩ ∈ u.rge.tasks ∧ u.rge.work = s.rge.work + 65536 := by
  refine ⟨_, ?_, s.renewStripe r st [(ch % Nat.max r.w 1, j)] rows, rfl,
    State.mem_renewStripe_tasks (State.num_of_find hr) (List.mem_singleton.mpr rfl) rows, State.renewStripe_work ..⟩
  have hfilled : hasNat (r.slotAt j).filled ch = false := by
    rw [hasNat, List.any_eq_false]
    intro y hy he
    exact hch (of_decide_eq_true he ▸ hy)
  have hnone : r.slots.any (fun m => m.st = .stale) = false := by simpa using hstale
  rw [exec_copybackChunkDone, execCopybackChunkDone, hr]
  dsimp only
  rw [hfind]
  dsimp only
  rw [if_neg (by simp [hst, hfilled, hturn, hnext, hnone, hmay])]

/-! ## REJOIN_RESYNC_COMPLETE (R193, R208) -/

/-- Later stripes of a resynchronisation leave the chunks that are on their way. -/
theorem State.syncRun_tasks (n j : Nat) (rows : List (Nat × Nat × RowData)) (l : List Nat) :
    ∀ s : State, s.rge.tasks ⊆ (s.syncRun n j rows l).rge.tasks := by
  induction l with
  | nil => exact fun s => List.Subset.refl _
  | cons st l ih =>
    intro s
    rw [State.syncRun]
    split
    · exact List.Subset.refl _
    · split
      · exact List.Subset.refl _
      · refine List.Subset.trans ?_ (ih _)
        rw [State.renewStripe_tasks]
        exact List.subset_append_left _ _

theorem State.syncRun_first {s : State} {n j st : Nat} {l : List Nat} {rows : List (Nat × Nat × RowData)} {r : Ring}
    (hr : s.findRing n = some r)
    (hmay : s.mayRenew r st ((rows.filter (fun e => e.1 = st)).map (fun e => e.2)) = true) {c : Nat} (hc : c ∈ r.storedOn st j) :
    ⟨n, st, c, j, s.rge.jseq + 1⟩ ∈ (s.syncRun n j rows (st :: l)).rge.tasks := by
  rw [State.syncRun, hr]
  dsimp only
  rw [if_neg (by simp [hmay])]
  have hput : (c, j) ∈ (r.storedOn st j).map (fun c => (c, j)) := List.mem_map.mpr ⟨c, hc, rfl⟩
  have htask := State.mem_renewStripe_tasks (s := s) (st := st) (State.num_of_find hr) hput
    ((rows.filter (fun e => e.1 = st)).map (fun e => e.2))
  exact State.syncRun_tasks n j rows l _ htask

/-- A STALE member with nothing left to rewrite is ONLINE, and the others stay (R208). -/
theorem State.endSync_spec {s : State} {n j : Nat} {r : Ring} (hr : s.findRing n = some r) (hst : (r.slotAt j).st = .stale)
    (hl : r.syncStripes j = []) :
    s.MembersBut (some (n, j)) (s.endSync n j) ∧ ((s.endSync n j).slotOf n j).st = .online := by
  have hu : (s.slotOf n j).st ≠ .unused := by
    rw [State.slotOf_of_find hr, hst]
    decide
  unfold State.endSync
  rw [hr]
  dsimp only
  rw [if_pos (by simp [hst, hl])]
  obtain ⟨hm, hf⟩ := State.setSlot_upkept hu (State.membersChanged_members (s.updRing n (fun x => x.setSlot j (fun m =>
    { m with st := .online, missed := [], resynced := [] }))) n false)
  exact ⟨hm, congrArg (fun f => f.1) hf⟩

theorem rejoinResyncComplete_gives {s : State} {n j : Nat} {rows : List (Nat × Nat × RowData)} {r : Ring}
    (hr : s.findRing n = some r) (ho : r.owner = true) (hst : (r.slotAt j).st = .stale) (hsus : r.suspects = [])
    (hhunt : r.hunt = none) (hinit : (r.initRunning && (r.slotAt j).initLeft) = false) (hnext : r.nextRebuild = none) :
    Gives (.rejoinResyncComplete n ⟨j, rows⟩) s fun t =>
      (r.syncStripes j = [] → ∃ g, t.findRing n = some g ∧ (g.slotAt j).st = .online ∧
        ∀ i, i ≠ j → (g.slotAt i).st = (r.slotAt i).st) ∧
      (∀ st l, r.syncStripes j = st :: l →
        s.mayRenew r st ((rows.filter (fun e => e.1 = st)).map (fun e => e.2)) = true →
        ∃ u : State, t = (u.endSync n j).reask ∧ ∀ c ∈ r.storedOn st j, ⟨n, st, c, j, s.rge.jseq + 1⟩ ∈ u.rge.tasks) := by
  refine ⟨((s.syncRun n j rows (r.syncStripes j)).endSync n j).reask, ?_, fun hl => ?_, fun st l hl hmay => ?_⟩
  · rw [exec_rejoinResyncComplete, execRejoinResyncComplete, hr]
    exact if_pos (by simp [ho, hst, hsus, hhunt, hinit, hnext])
  · rw [hl, State.syncRun]
    obtain ⟨hm, hon⟩ := State.endSync_spec hr hst hl
    have hk := State.reask_members (s.endSync n j)
    have hon' := (hk.stAll n j).trans hon
    obtain ⟨g, hg, hgj⟩ := State.ring_of_st hon'
    refine ⟨g, hg, hgj ▸ hon', fun i hi => ?_⟩
    rw [← State.slotOf_of_find hg, ← State.slotOf_of_find hr]
    exact (hm.trans hk.weaken).st (by simpa using Ne.symm hi)
  · exact ⟨s.syncRun n j rows (r.syncStripes j), rfl, fun c hc => hl ▸ State.syncRun_first hr hmay hc⟩

/-! ## REBUILD_RATE_TICK (R195) -/

/-- The rate is 0 without work, and never above the share of the ceiling, in 1/256 (log 31, log 92). -/
theorem rebuildRateTick_gives (s : State) (h : Nat) : Gives (.rebuildRateTick h) s fun t => t.rge.traffic = h ∧
    ((∀ r ∈ s.rge.rings, r.hasWork = false) → t.rge.rate = 0 ∧ t.rge.fshare = 0) ∧
    t.rge.rate ≤ 100 * s.cfg Reg.rgeRbcfg 23 16 * t.rge.fshare / 256 := by
  unfold Gives
  rw [exec_rebuildRateTick, execRebuildRateTick]
  dsimp only
  split
  · exact ⟨_, rfl, rfl, fun _ => ⟨rfl, rfl⟩, Nat.zero_le _⟩
  · next hw =>
    refine ⟨_, rfl, rfl, fun hno => absurd ?_ hw, Nat.min_le_right _ _⟩
    rw [List.filter_eq_nil_iff.mpr fun r hr => by simp [hno r hr]]
    rfl

/-! ## PATROL_STRIPE_CHECK (R210) -/

theorem patrolStripeCheck_gives {s : State} {n : Nat} {rows : List (Nat × RowData)} {r : Ring} (hr : s.findRing n = some r)
    (ho : r.owner = true) (hcfg : s.cfgBit Reg.rgePatcfg 0 = true) (hreb : r.rebuilding = false) (hres : r.resyncing = false)
    (hrows : ∀ b < 16, ∃ e ∈ rows, e.1 = b) (hbusy : s.stripeBusy n r.patrol = false) (hfull : s.journalFull = false)
    (hwait : r.mustWait r.patrol = false) :
    Gives (.patrolStripeCheck n rows) s fun t => ∃ g, t.findRing n = some g ∧
      g.patrol = if r.patrol + 1 < r.stripes then r.patrol + 1 else 0 := by
  have hall : (natsFrom 0 16).all (fun b => rows.any (fun e => e.1 = b)) = true := by
    rw [natsFrom_eq_range', List.all_eq_true]
    intro b hb
    obtain ⟨e, he, rfl⟩ := hrows b (by simpa using hb)
    exact List.any_eq_true.mpr ⟨e, he, by simp⟩
  have h1 : s.SameRings (s.underRecord r 3 r.patrol (fun seq t =>
      (natsFrom 0 16).foldl (fun u b => u.patrolRow r r.patrol seq (rowsFor rows b) b) t)) :=
    .underRecord r 3 r.patrol _ (fun seq t ht => .foldl (fun _ _ hu => hu.patrolRow _ _ _ _ _) _ ht) (.refl s)
  obtain ⟨g, hg, -⟩ := h1.found hr
  unfold Gives
  rw [exec_patrolStripeCheck, execPatrolStripeCheck, hr]
  dsimp only
  rw [if_neg (by simp [ho, hcfg, hreb, hres, hall, hbusy, hfull, hwait])]
  refine ⟨_, rfl, ?_⟩
  generalize (if r.patrol + 1 < r.stripes then r.patrol + 1 else 0) = next
  have hnow : ((s.underRecord r 3 r.patrol (fun seq t =>
      (natsFrom 0 16).foldl (fun u b => u.patrolRow r r.patrol seq (rowsFor rows b) b) t)).updRing n
      (fun y => { y with patrol := next })).findRing n = some { g with patrol := next } := by
    rw [State.findRing_updRing (f := fun y : Ring => { y with patrol := next }) (fun _ => rfl), hg]
    rfl
  split
  · obtain ⟨x, hx, hf⟩ := (State.SameRings.sendService n (r.slabOf r.patrol / 4096) (.refl _)).found hnow
    exact ⟨x, hx, show x.form.patrol = _ by rw [hf]; rfl⟩
  · exact ⟨_, hnow, rfl⟩

end Sys2Proof.Machine
end

section
/-! PROOFS. The statement of the members (chapter 06). -/

namespace Sys2Proof.Machine

/-- Settles O18: each command by its own rule above. -/
theorem membersServeAndRebuild : Obligations.MembersServeAndRebuild := by
  unfold Obligations.MembersServeAndRebuild
  refine ⟨?_, ?_, ?_, ?_, ?_, ?_, ?_, ?_, ?_, ?_, ?_, ?_⟩
  · exact fun s bay info hb hl hold hno => driveIdentified_new hb hl hold hno
  · exact fun s bay info n j r hb hr hj ha hser hold hno => driveIdentified_rejoins hb hr hj ha hser hold hno
  · exact fun s n j r hr ho ha hd => rejoinWindowExpiry_gives hr ho ha hd
  · exact fun s n j rows r hr ho hst hsus hhunt hinit hnext => rejoinResyncComplete_gives hr ho hst hsus hhunt hinit hnext
  · exact fun s b bits => ⟨fun h2 h3 => smartCriticalWarning_other h2 h3 s b,
      fun hb n j r hr ho hj hs => smartCriticalWarning_fails hb hr ho hj hs⟩
  · exact fun s n st rows r lvl hr hnext hmay => rebuildStripeDone_gives hr hnext hmay
  · exact fun s n j ch rows r st hr hst hnext hstale hch hturn hfind hmay =>
      copybackChunkDone_gives hr hst hnext hstale hch hturn hfind hmay
  · exact rebuildRateTick_gives
  · exact fun s n rows r hr ho hcfg hreb hres hrows hbusy hfull hwait =>
      patrolStripeCheck_gives hr ho hcfg hreb hres hrows hbusy hfull hwait
  · exact fun s m c n j fl r hs hi hn hj hfl hn7 hj23 hfl1 hr =>
      ⟨memberFail_fails hs hi hn hj hfl hn7 hj23 hfl1 hr, memberFail_not_owner hs hi hn hj hfl hn7 hj23 hfl1 hr,
        memberFail_loses_data hs hi hn hj hfl hn7 hj23 hfl1 hr⟩
  · exact fun s m c n j b r hs hi hn hj hb hn7 hj23 hb23 hbay hr ho hst hfit hin hroom =>
      memberReplace_gives hs hi hn hj hb hn7 hj23 hb23 hbay hr ho hst hfit hin hroom
  · exact fun s m c n hs hi hn => ⟨fun h7 => lostList_badRing hs hi (hn ▸ h7), fun hn7 => lostList_answers hs hi hn hn7⟩

end Sys2Proof.Machine
end

section
/-! PROOFS. The control owner (R245 to R249): what ends a command of the mailbox, and who owns control after it. -/

namespace Sys2Proof.Machine

/-! ## The mailbox beside its commands -/

/-- The mailbox without its commands and without what it holds for the masters: owner, lease, window and claims are left. -/
def State.seat (s : State) : MbxSt := { s.mbx with cmds := [], held := [] }

/-- The result of a command touches only the mailbox's commands and what it holds (R417). -/
theorem State.finishOne_seat (s : State) (m : Master) (st : Nat) (res : List Byte) : (s.finishOne m st res).seat = s.seat := by
  unfold State.finishOne
  split
  · rfl
  · dsimp only
    split
    · exact congrArg (fun x : MbxSt => { x with cmds := [], held := [] }) (State.bump_mbx _ _)
    · split
      · exact congrArg (fun x : MbxSt => { x with cmds := [], held := [] }) (State.dmaResult_mbx _ _ _)
      · rfl

theorem State.finish_seat (s : State) (m : Master) (st : Nat) (res : List Byte) : (s.finish m st res).seat = s.seat := by
  unfold State.finish
  dsimp only
  split
  · split
    · rw [State.finishOne_seat, State.finishOne_seat]
    · exact State.finishOne_seat ..
  · exact State.finishOne_seat ..

theorem State.finish_owner (s : State) (m : Master) (st : Nat) (res : List Byte) :
    (s.finish m st res).mbx.owner = s.mbx.owner := (congrArg MbxSt.owner (s.finish_seat m st res) :)

theorem State.finish_lease (s : State) (m : Master) (st : Nat) (res : List Byte) :
    (s.finish m st res).mbx.lease = s.mbx.lease := (congrArg MbxSt.lease (s.finish_seat m st res) :)

theorem State.finish_window (s : State) (m : Master) (st : Nat) (res : List Byte) :
    (s.finish m st res).mbx.window = s.mbx.window := (congrArg MbxSt.window (s.finish_seat m st res) :)

/-- A master's command ends with its status whatever else has changed, the mailbox's commands and held records aside. -/
theorem State.ends_of_mail {s t : State} {m : Master} {c : MbCmd} (hi : s.Inv) (hc : s.cmdOf m = some c)
    (hcmds : t.mbx.cmds = s.mbx.cmds) (hheld : t.mbx.held = s.mbx.held) (st : Nat) (res : List Byte) :
    (t.finish m st res).Ended m st :=
  State.finish_ended (c := c) (hheld ▸ hi.counts.masters) ((congrArg (List.find? _) hcmds).trans hc) st res

/-- A command that waits inside its operation stays outstanding (R421). -/
theorem State.cmdOf_keepRunning {s t : State} {m : Master} {c : MbCmd} (hc : s.cmdOf m = some c)
    (hcmds : t.mbx.cmds = s.mbx.cmds) : ∃ d, (t.keepRunning m).cmdOf m = some d ∧ d.running = true := by
  have ht : t.cmdOf m = some c := (congrArg (List.find? _) hcmds).trans hc
  refine ⟨{ c with running := true }, ?_, rfl⟩
  exact (find_updWhere (f := fun x => { x with running := true }) (fun _ hx => hx) t.mbx.cmds).trans
    (congrArg (Option.map fun x : MbCmd => { x with running := true }) ht)

/-! ## Owner, lease and window (R245, R246) -/

/-- A new control owner, or none: its lease starts, and the mailbox's rest stays. -/
theorem State.setOwner_mbx (s : State) (m : Option Master) : (s.setOwner m).mbx =
    { s.mbx with owner := m, lease := m.map (fun _ => s.now + s.leaseNs) } := by
  unfold State.setOwner
  dsimp only
  have h0 : (if s.kvt.session.any (fun x => m ≠ some x.1) then s.endSession else s).mbx = s.mbx := by
    split
    · exact State.endSession_mbx s
    · rfl
  split
  · rw [State.sepEvent_mbx, State.updMbx_mbx, h0]
  · rw [State.updMbx_mbx, h0]

theorem State.openWindow_mbx (s : State) :
    s.openWindow.mbx = { s.mbx with window := some (s.now + ms 100), claims := [] } := rfl

/-- Control without an owner, and a window open for claims (R246). -/
theorem State.vacate_mbx (s : State) : (s.setOwner none).openWindow.mbx =
    { s.mbx with owner := none, lease := none, window := some (s.now + ms 100), claims := [] } := by
  rw [State.openWindow_mbx, State.setOwner_mbx, State.setOwner_now]
  rfl

/-! ## OWNER_CLAIM (R245, R247, R248) -/

section
variable {s : State} {m : Master} {c : MbCmd} (hs : s.Starts m 0x0B01 c)
include hs

theorem ownerClaim_in_window (hw : s.mbx.window.isSome = true) :
    Gives (.ownerClaim m) s fun t => m ∈ t.mbx.claims ∧ ∃ d, t.cmdOf m = some d ∧ d.running = true := by
  unfold Gives
  rw [exec_ownerClaim, execOwnerClaim, State.runCmd_starts hs, if_pos hw]
  refine ⟨_, rfl, ?_, State.cmdOf_keepRunning (s := s) hs.1 rfl⟩
  show m ∈ if s.mbx.claims.any (fun k => k = m) then s.mbx.claims else s.mbx.claims ++ [m]
  split
  · next h => simpa using h
  · exact List.mem_append_right _ (List.mem_singleton.mpr rfl)

variable (hi : s.Inv) (hw : s.mbx.window = none)
include hi hw

theorem ownerClaim_free (ho : s.mbx.owner = none) :
    Gives (.ownerClaim m) s fun t => t.Ended m stOk ∧ t.mbx.owner = some m ∧ t.mbx.lease = some (s.now + s.leaseNs) := by
  have hm := s.setOwner_mbx (some m)
  unfold Gives
  rw [exec_ownerClaim, execOwnerClaim, State.runCmd_starts hs, if_neg (by simp [hw]), if_neg (by simp [ho]),
    if_neg (by simp [ho])]
  refine ⟨_, rfl, State.ends_of_mail hi hs.1 (by rw [hm]) (by rw [hm]) _ _, ?_, ?_⟩
  · rw [State.finish_owner, hm]
  · rw [State.finish_lease, hm]
    rfl

theorem ownerClaim_own (ho : s.mbx.owner = some m) : Gives (.ownerClaim m) s fun t => t.Yields m c s.ownerResult := by
  unfold Gives
  rw [exec_ownerClaim, execOwnerClaim, State.runCmd_starts hs, if_neg (by simp [hw]), if_pos ho]
  exact ⟨_, rfl, State.finish_yields hi.counts.masters hs.1 _⟩

theorem ownerClaim_other {o : Master} (ho : s.mbx.owner = some o) (hne : o ≠ m) :
    Gives (.ownerClaim m) s fun t => t.Ended m stNotOwner ∧ t.mbx.owner = some o := by
  unfold Gives
  rw [exec_ownerClaim, execOwnerClaim, State.runCmd_starts hs, if_neg (by simp [hw]), if_neg (by simp [ho, hne]),
    if_pos (by simp [ho])]
  exact ⟨_, rfl, hs.ends hi rfl _, (State.finish_owner ..).trans ho⟩

end

/-! ## OWNER_RENEW, HANDOVER, OWNER_RELEASE (R246, R248, R249) -/

/-- The check that each of the three makes first (R248). -/
theorem State.checked_not_owner {s : State} {m : Master} {c : MbCmd} (h : c.fromOwner = false) (l : List (Bool × Nat))
    (f : State → State) : s.checked m ((!c.fromOwner, stNotOwner) :: l) f = s.finish m stNotOwner [] :=
  State.checked_fail (by rw [h]; rfl) f

theorem ownerRenew_gives {s : State} {m : Master} {c : MbCmd} (hs : s.Starts m 0x0B02 c) (hi : s.Inv) :
    (c.fromOwner = true → Gives (.ownerRenew m) s fun t => t.Yields m c s.ownerResult) ∧
    (c.fromOwner = false → Gives (.ownerRenew m) s fun t => t.Ended m stNotOwner) := by
  unfold Gives
  rw [exec_ownerRenew, execOwnerRenew, State.runCmd_starts hs]
  refine ⟨fun ho => ⟨_, rfl, ?_⟩, fun ho => ⟨_, rfl, ?_⟩⟩
  · rw [State.checked_ok (by simp [firstFail, ho])]
    exact State.finish_yields hi.counts.masters hs.1 _
  · rw [State.checked_not_owner ho]
    exact hs.ends hi rfl _

theorem handover_gives {s : State} {m : Master} {c : MbCmd} {o : Nat} (hs : s.Starts m 0x0B03 c) (hi : s.Inv)
    (hp : byteAt c.params 0 = o) :
    (c.fromOwner = true → o ≤ 3 → o ≠ m.num → s.present (masterOf o) = true →
      Gives (.handover m) s fun t => t.Ended m stOk ∧ t.mbx.owner = some (masterOf o)) ∧
    (c.fromOwner = false → Gives (.handover m) s fun t => t.Ended m stNotOwner ∧ t.mbx.owner = s.mbx.owner) := by
  have hm := s.setOwner_mbx (some (masterOf o))
  unfold Gives
  rw [exec_handover, execHandover, State.runCmd_starts hs]
  dsimp only
  rw [hp]
  refine ⟨fun ho h3 hne hpr => ⟨_, rfl, ?_⟩, fun ho => ⟨_, rfl, ?_⟩⟩
  · rw [State.checked_ok (by simp [firstFail, ho, Nat.not_lt.mpr h3, hne, hpr])]
    exact ⟨State.ends_of_mail hi hs.1 (by rw [hm]) (by rw [hm]) _ _, by rw [State.finish_owner, hm]⟩
  · rw [State.checked_not_owner ho]
    exact ⟨hs.ends hi rfl _, State.finish_owner ..⟩

theorem ownerRelease_gives {s : State} {m : Master} {c : MbCmd} (hs : s.Starts m 0x0B04 c) (hi : s.Inv) :
    (c.fromOwner = true → Gives (.ownerRelease m) s fun t => t.Ended m stOk ∧ t.mbx.owner = none ∧
      t.mbx.window = some (s.now + ms 100)) ∧
    (c.fromOwner = false → Gives (.ownerRelease m) s fun t => t.Ended m stNotOwner ∧ t.mbx.owner = s.mbx.owner) := by
  have hm := s.vacate_mbx
  unfold Gives
  rw [exec_ownerRelease, execOwnerRelease, State.runCmd_starts hs]
  refine ⟨fun ho => ⟨_, rfl, ?_⟩, fun ho => ⟨_, rfl, ?_⟩⟩
  · rw [State.checked_ok (by simp [firstFail, ho])]
    exact ⟨State.ends_of_mail hi hs.1 (by rw [hm]) (by rw [hm]) _ _, by rw [State.finish_owner, hm],
      by rw [State.finish_window, hm]⟩
  · rw [State.checked_not_owner ho]
    exact ⟨hs.ends hi rfl _, State.finish_owner ..⟩

/-! ## The ends of window, lease and presence (R245, R246) -/

/-- The claimant of highest rank owns control; the answers to the claims leave owner and window alone. -/
theorem electionWindowClose_gives {s : State} (hd : due s.mbx.window s.now = true) :
    (∀ w, s.ranking.find? (fun m => s.mbx.claims.any (fun k => k = m)) = some w →
      Gives .electionWindowClose s fun t => t.mbx.owner = some w ∧ t.mbx.window = none ∧ t.mbx.claims = []) ∧
    (s.mbx.claims = [] → Gives .electionWindowClose s fun t => t.mbx.owner = s.mbx.owner ∧ t.mbx.window = none) := by
  unfold Gives
  rw [exec_electionWindowClose, execElectionWindowClose, if_neg (by simp [hd])]
  dsimp only
  refine ⟨fun w hw => ?_, fun hc => ?_⟩
  · rw [hw]
    refine ⟨_, rfl, ?_⟩
    have hseat := foldl_frame (g := State.seat)
      (f := fun t k => if k = w then t.finish k stOk t.ownerResult else t.finish k stNotOwner [])
      (fun t k => by split <;> exact State.finish_seat ..) s.mbx.claims
      ((s.updMbx (fun x => { x with window := none, claims := [] })).setOwner (some w))
    have hm := (s.updMbx (fun x => { x with window := none, claims := [] })).setOwner_mbx (some w)
    exact ⟨(congrArg MbxSt.owner hseat).trans (congrArg MbxSt.owner hm),
      (congrArg MbxSt.window hseat).trans (congrArg MbxSt.window hm),
      (congrArg MbxSt.claims hseat).trans (congrArg MbxSt.claims hm)⟩
  · have hnone : s.ranking.find? (fun m => s.mbx.claims.any (fun k => k = m)) = none := by simp [hc]
    rw [hnone]
    exact ⟨_, rfl, rfl, rfl⟩

theorem leaseExpiry_gives {s : State} (hd : due s.mbx.lease s.now = true) : Gives .leaseExpiry s fun t =>
    t.mbx.owner = none ∧ t.mbx.window = some (s.now + ms 100) ∧ t.mbx.claims = [] := by
  refine ⟨(s.setOwner none).openWindow, ?_, ?_⟩
  · rw [exec_leaseExpiry, execLeaseExpiry, if_pos hd]
  · beta_reduce
    rw [State.vacate_mbx]
    exact ⟨rfl, rfl, rfl⟩

theorem masterPresenceExpiry_gives {s : State} {m : Master} (hi : s.Inv) (hd : due (s.heldOf m).present s.now = true) :
    Gives (.masterPresenceExpiry m) s fun t => (t.heldOf m).present = none ∧ (t.heldOf m).result = (s.heldOf m).result := by
  refine ⟨s.setHeld m (fun h => { h with present := none }), ?_, ?_⟩
  · rw [exec_masterPresenceExpiry, execMasterPresenceExpiry, if_pos hd]
  · beta_reduce
    rw [State.heldOf_setHeld hi.counts.masters, if_pos rfl]
    exact ⟨rfl, rfl⟩

end Sys2Proof.Machine
end

section
/-! PROOFS. STATUS frames, the election of a ringmaster and the handover of a ring (R219, R236 to R243). -/

namespace Sys2Proof.Machine

/-! ## Rings and frames -/

/-- The end of a command leaves the rings. -/
theorem State.findRing_finish (s : State) (m : Master) (st : Nat) (res : List Byte) (n : Nat) :
    (s.finish m st res).findRing n = s.findRing n := by
  rw [State.findRing, State.finish_rge]
  rfl

/-- The frames of a handover leave the rings, and the commands of the mailbox. -/
theorem State.handoverFrames_rge (s : State) (n fid e : Nat) :
    (((s.sendEpoch n e).sendHeader n).ownerFrame n fid e).rge = s.rge := by
  rw [State.ownerFrame_rge, State.sendHeader_rge, State.sendEpoch_rge]

theorem State.handoverFrames_mbx (s : State) (n fid e : Nat) :
    (((s.sendEpoch n e).sendHeader n).ownerFrame n fid e).mbx = s.mbx := by
  rw [State.ownerFrame_mbx, State.sendHeader_mbx, State.sendEpoch_mbx]

theorem State.findRing_ringRegion (s : State) (k : Nat) (b : Bool) (n : Nat) : (s.ringRegion k b).findRing n = s.findRing n := rfl

theorem State.findRing_keepRunning (s : State) (m : Master) (n : Nat) : (s.keepRunning m).findRing n = s.findRing n := rfl

/-- The ring that an update of its record leaves. -/
theorem State.findRing_updRing_some {s : State} {n : Nat} {r : Ring} (hr : s.findRing n = some r) {f : Ring → Ring}
    (hf : ∀ x, (f x).num = x.num) : (s.updRing n f).findRing n = some (f r) := by
  rw [State.findRing_updRing hf, hr]
  rfl

/-! ## STATUS (R219) -/

theorem statusSend_gives {s : State} {p : Nat} (hp : s.peerPort = some p) :
    Gives .statusSend s fun t => s.Sent t (.status p s.statusNow) := by
  refine ⟨(s.emit (.status p s.statusNow)).xbarRelti p s.rfx.peer.fid 7 64, ?_,
    (State.Sent.emit s _).later (State.xbarRelti_kept ..).out⟩
  rw [exec_statusSend, execStatusSend, State.sendStatus, hp]

theorem statusSend_no_port {s : State} (hp : s.peerPort = none) : exec .statusSend s = .next s := by
  rw [exec_statusSend, execStatusSend, State.sendStatus, hp]

/-- Without a notice of a retrain, its acknowledgement or its end, a STATUS frame brings only the peer's figures (R536). -/
theorem statusReceive_gives {s : State} {st : PeerStatus} (hn : st.retrainNotice = false) (ha : st.retrainAck = false)
    (hc : st.retrainClear = false) : Gives (.statusReceive st) s fun t => t.rfx.peer = { s.rfx.peer with
      dirty := st.dirty, ceiling := st.ceiling, room := st.mirrorRoom, rebuildRings := st.rebuildRings,
      traffic := st.memberTraffic, hbEnabled := st.hbEnabled } := by
  unfold Gives
  rw [exec_statusReceive, execStatusReceive]
  simp only [hn, ha, hc, Bool.false_and, Bool.false_eq_true, if_false]
  exact ⟨_, rfl, rfl⟩

/-! ## ELECT and OWNER (R236 to R240) -/

section
variable {s : State} {n : Nat} {r : Ring} (hr : s.findRing n = some r)
include hr

/-- The master of the ring answers with OWNER (R236); another module decides with both bids, or sends its own (R237, R238). -/
theorem electReceive_gives (prio fid e : Nat) :
    (r.owner = true → exec (.electReceive n prio fid e) s = .next (s.ownerFrame n s.rfx.fid r.epoch)) ∧
    (r.owner = false → r.bidTimer.isSome = true → exec (.electReceive n prio fid e) s =
      .next ((s.updRing n (fun x => { x with peerBid := some (prio, fid, e) })).decide n)) ∧
    (r.owner = false → r.bidTimer = none → exec (.electReceive n prio fid e) s =
      .next ((s.updRing n (fun x => { x with peerBid := some (prio, fid, e) })).sendBid n)) := by
  rw [exec_electReceive, execElectReceive, hr]
  dsimp only
  refine ⟨fun ho => if_pos ho, fun ho ht => ?_, fun ho ht => ?_⟩
  · rw [if_neg (by simp [ho]), if_pos ht]
  · rw [if_neg (by simp [ho]), if_neg (by simp [ht])]

theorem electionTimeout_decides (hd : due r.bidTimer s.now = true) (hp : r.peerBid = none) :
    exec (.electionTimeout n) s = .next (s.decide n) := by
  rw [exec_electionTimeout, execElectionTimeout, hr]
  exact if_pos (by simp [hd, hp])

theorem ownerSend_eq {k : Nat} (hk : r.ownMseq = some k) : exec (.ownerSend n) s =
    .next (if s.peerHolds k then ((s.ownerFrame n s.rfx.fid r.epoch).masterRing n r.epoch).resumeOps [n] else s) := by
  rw [exec_ownerSend, execOwnerSend, hr]
  dsimp only
  rw [hk]
  exact (apply_ite Host.Outcome.next _ _ _).symm

/-- An older epoch, or the module's own, says nothing new (R240). -/
theorem ownerReceive_stale {fid e : Nat} (h : e < r.epoch ∨ e = r.epoch ∧ r.owner = true) :
    exec (.ownerReceive n fid e) s = .next s := by
  rw [exec_ownerReceive, execOwnerReceive, hr]
  exact if_pos (by simpa using h)

theorem ownerReceive_self {fid e : Nat} (he : r.epoch < e) (hf : fid = s.rfx.fid) :
    exec (.ownerReceive n fid e) s = .next ((s.sendEpoch n e).masterRing n e) := by
  rw [exec_ownerReceive, execOwnerReceive, hr]
  dsimp only
  rw [if_neg (by simp; omega), if_pos hf]

/-- The ring of a newer epoch has the master that the frame names (R238, R240). -/
theorem ownerReceive_follows {fid e : Nat} (he : r.epoch < e) (hf : fid ≠ s.rfx.fid) :
    Gives (.ownerReceive n fid e) s fun t => ∃ g, t.findRing n = some g ∧ g.owner = false ∧ g.epoch = e ∧
      g.master = some fid := by
  unfold Gives
  rw [exec_ownerReceive, execOwnerReceive, hr]
  dsimp only
  rw [if_neg (by simp; omega), if_neg hf]
  refine ⟨_, rfl, ?_⟩
  have hkeep : ∀ u : State, ((if r.owner then u.ringRegion n true else u).leaveOps n).findRing n = u.findRing n :=
    fun u => by split <;> rfl
  rw [hkeep, State.findRing_updRing_some hr (by intro _; rfl)]
  exact ⟨_, rfl, rfl, rfl, rfl⟩

/-! ## The handover of a ring (R242, R243) -/

theorem ringHandover_gives {m : Master} {c : MbCmd} (hs : s.Starts m 0x0306 c) (hi : s.Inv) (hn : byteAt c.params 0 = n)
    (hn7 : n ≤ 7) :
    (r.owner = true → s.rfx.peer.joined = true → s.mirrorUp = true → r.initRunning = false →
      r.resyncing = false → r.handover = none → Gives (.ringHandover m) s fun t => (∃ d, t.cmdOf m = some d ∧ d.running = true) ∧
        t.findRing n = some { r with handover := some (m, s.now + ms 20), held := true }) ∧
    (r.owner = false → Gives (.ringHandover m) s fun t => t.Ended m stNotOwner ∧ t.rge = s.rge) := by
  unfold Gives
  rw [exec_ringHandover, execRingHandover, State.runCmd_starts hs]
  dsimp only
  rw [hn, hr, State.owns_of_find hr]
  refine ⟨fun ho hj hm hinit hres hh => ⟨_, rfl, ?_⟩, fun ho => ⟨_, rfl, ?_⟩⟩
  · rw [State.checked_ok (by simp [firstFail, Nat.not_lt.mpr hn7, ho, hj, hm, hinit, hres, hh])]
    refine ⟨State.cmdOf_keepRunning (s := s) hs.1 rfl, ?_⟩
    rw [State.findRing_keepRunning, State.findRing_updRing_some hr (by intro _; rfl)]
  · rw [State.checked_fail (st := stNotOwner) (by simp [firstFail, Nat.not_lt.mpr hn7, ho])]
    exact ⟨hs.ends hi rfl _, State.finish_rge ..⟩

variable {m : Master} {d : Nat} (hh : r.handover = some (m, d))
include hh

theorem handoverQuiesced_busy (hb : s.ringBusy n = true) : exec (.handoverQuiesced n) s = .next s := by
  rw [exec_handoverQuiesced, execHandoverQuiesced, hr]
  dsimp only
  rw [hh]
  exact if_pos (by simp [hb])

variable {c : MbCmd} (hi : s.Inv) (hc : s.cmdOf m = some c)
include hi hc

/-- The peer masters the ring under the next epoch (R243 steps 3 to 5). -/
theorem handoverQuiesced_gives (ho : r.owner = true) (hb : s.ringBusy n = false) :
    Gives (.handoverQuiesced n) s fun t => t.Ended m stOk ∧ ∃ g, t.findRing n = some g ∧
      g.owner = false ∧ g.epoch = r.epoch + 1 ∧ g.master = some s.rfx.peer.fid ∧ g.handover = none ∧ g.held = false := by
  have hrge := s.handoverFrames_rge n s.rfx.peer.fid (r.epoch + 1)
  have hmbx := s.handoverFrames_mbx n s.rfx.peer.fid (r.epoch + 1)
  unfold Gives
  rw [exec_handoverQuiesced, execHandoverQuiesced, hr]
  dsimp only
  rw [hh]
  dsimp only
  rw [if_neg (by simp [ho, hb])]
  generalize ((s.sendEpoch n (r.epoch + 1)).sendHeader n).ownerFrame n s.rfx.peer.fid (r.epoch + 1) = u at hrge hmbx
  have hu : u.findRing n = some r := by
    rw [State.findRing, hrge]
    exact hr
  refine ⟨_, rfl, State.ends_of_mail hi hc (by exact congrArg MbxSt.cmds hmbx) (by exact congrArg MbxSt.held hmbx) _ _, ?_⟩
  rw [State.findRing_finish, State.findRing_ringRegion, State.findRing_updRing_some hu (by intro _; rfl)]
  exact ⟨_, rfl, rfl, rfl, rfl, rfl, rfl⟩

/-- The ring that was not quiet in 20 ms stays here (R243). -/
theorem handoverTimeout_gives (hd : d ≤ s.now) : Gives (.handoverTimeout n) s fun t => t.Ended m stBusy ∧
    t.findRing n = some { r with handover := none, held := false } := by
  unfold Gives
  rw [exec_handoverTimeout, execHandoverTimeout, hr]
  dsimp only
  rw [hh]
  dsimp only
  rw [if_neg (Nat.not_lt.mpr hd)]
  refine ⟨_, rfl, State.ends_of_mail hi hc (by rfl) (by rfl) _ _, ?_⟩
  rw [State.findRing_finish, State.findRing_updRing_some hr (by intro _; rfl)]

end

/-! ## The statement -/

/-- Settles O20, each command by its own rule above. -/
theorem statusElectionAndOwnership : Obligations.StatusElectionAndOwnership := by
  unfold Obligations.StatusElectionAndOwnership
  refine ⟨fun s p hp => statusSend_gives hp, fun s hp => statusSend_no_port hp,
    fun s st hn ha hc => statusReceive_gives hn ha hc, ?_, ?_, ?_, ?_, ?_, ?_, ?_, ?_, ?_, ?_, ?_, ?_⟩
  · intro s n prio fid e r hr
    obtain ⟨howner, hdecides, hbids⟩ := electReceive_gives hr prio fid e
    exact ⟨howner, hdecides, hbids, electionTimeout_decides hr⟩
  · exact fun s n r m hr hm => ownerSend_eq hr hm
  · exact fun s n fid e r hr => ⟨ownerReceive_stale hr, ownerReceive_self hr, ownerReceive_follows hr⟩
  · exact fun s m c n r hs hi hn hn7 hr => ringHandover_gives hr hs hi hn hn7
  · exact fun s n r m d c hr hh hi hc =>
      ⟨handoverQuiesced_gives hr hh hi hc, handoverQuiesced_busy hr hh, handoverTimeout_gives hr hh hi hc⟩
  · exact fun s m c hs hi => ⟨ownerClaim_in_window hs, ownerClaim_free hs hi, ownerClaim_own hs hi,
      fun o hw ho hne => ownerClaim_other hs hi hw ho hne⟩
  · exact fun s m c hs hi => ownerRenew_gives hs hi
  · exact fun s m c o hs hi ho => handover_gives hs hi ho
  · exact fun s m c hs hi => ownerRelease_gives hs hi
  · exact fun s hd => electionWindowClose_gives hd
  · exact fun s hd => leaseExpiry_gives hd
  · exact fun s m hi hd => masterPresenceExpiry_gives hi hd

end Sys2Proof.Machine
end

section
/-! PROOFS. Frames that arrive and that come round again, and the exception queue (R218, R311, R321 to R323, R329, R342, R359,
R379, R383, R433, R597). -/

namespace Sys2Proof.Machine

/-! ## FRAME_RECEIVE (R311, R342, R359, R379, R597) -/

/-- The ingress class of a frame that arrives (R342). -/
def State.frameClass (s : State) (p : Nat) (f : FrameIn) : Nat := ingressClass p (s.parse f.bytes).1

/-- The module with the arrival of a frame counted. -/
def State.arrived (s : State) (p : Nat) (f : FrameIn) : State :=
  (s.hostEvent 0x10 p (some (s.frameClass p f)) 1).hostEvent 0x12 p (some (s.frameClass p f)) (ceilDiv (f.bytes.length + 4) 64)

theorem State.arrived_only (s : State) (p : Nat) (f : FrameIn) : Only { pmu := true, moved := true } s (s.arrived p f) :=
  (s.hostEvent_kept ..).only.trans (State.hostEvent_kept ..).only

/-- Pass 0 of a frame in the current bank, and the judgement of its class. -/
def State.firstPass (s : State) (p : Nat) (f : FrameIn) : State :=
  ((s.arrived p f).onePass ⟨p, 0, s.ppc.cur, s.ppc.epoch, 0, false, false, 0, 0, zeroBytes 16⟩ f.bytes (s.frameClass p f)
    (f.bytes.length + 4) false false f.icrcOk).pfcJudge p (s.frameClass p f)

section
variable {s : State} {p : Nat} {f : FrameIn}

theorem frameReceive_off (h : 8 ≤ p ∨ s.cfgBit (Reg.macPcfg + 0x40 * p) 31 = false) : exec (.frameReceive p f) s = .next s := by
  rw [exec_frameReceive, execFrameReceive]
  dsimp only
  by_cases hp : 8 ≤ p
  · exact if_pos hp
  · rw [if_neg hp]
    exact if_pos (by simp [h.resolve_left hp])

variable (hp : p < 8) (hon : s.cfgBit (Reg.macPcfg + 0x40 * p) 31 = true)
include hp hon

theorem frameReceive_uncorrectable (hfec : f.fecOk = false) :
    exec (.frameReceive p f) s = .next (s.bump (Reg.macFecunc + 0x40 * p)) := by
  rw [exec_frameReceive, execFrameReceive]
  dsimp only
  rw [if_neg (Nat.not_le.mpr hp), if_neg (by simp [hon])]
  exact if_pos (by simp [hfec])

variable (hfec : f.fecOk = true)
include hfec

theorem frameReceive_badFcs (hfcs : f.fcsOk = false) : exec (.frameReceive p f) s = .next s := by
  rw [exec_frameReceive, execFrameReceive]
  dsimp only
  rw [if_neg (Nat.not_le.mpr hp), if_neg (by simp [hon]), if_neg (by simp [hfec])]
  exact if_pos (by simp [hfcs])

variable (hfcs : f.fcsOk = true)
include hfcs

section
variable (h4 : 4 ≤ p) (hsec : s.cfgBit (Reg.iclMscfg + 4 * (p - 4)) 31 = true)
include h4 hsec

theorem frameReceive_unprotected (hm : f.macsec = none) (het : beAt f.bytes 12 2 ≠ 0x888E) :
    exec (.frameReceive p f) s = .next (s.bump Reg.iclMsdrop) := by
  rw [exec_frameReceive, execFrameReceive]
  dsimp only
  rw [if_neg (Nat.not_le.mpr hp), if_neg (by simp [hon]), if_neg (by simp [hfec]), if_neg (by simp [hfcs])]
  exact if_pos (by simp [h4, hsec, hm, het])

theorem frameReceive_unauthentic (hm : f.macsec = some false) :
    exec (.frameReceive p f) s = .next (s.bump Reg.iclMsauth) := by
  rw [exec_frameReceive, execFrameReceive]
  dsimp only
  rw [if_neg (Nat.not_le.mpr hp), if_neg (by simp [hon]), if_neg (by simp [hfec]), if_neg (by simp [hfcs]),
    if_neg (by simp [hm])]
  exact if_pos (by simp [h4, hsec, hm])

end

variable (hpass : p < 4 ∨ s.cfgBit (Reg.iclMscfg + 4 * (p - 4)) 31 = false ∨ f.macsec = some true)
include hpass

/-- What is left to be decided once the MAC and MACsec have let a frame pass. -/
theorem exec_frameReceive_passed : exec (.frameReceive p f) s =
    if beAt f.bytes 12 2 = 0x8808 || (4 ≤ p && beAt f.bytes 12 2 = 0x888E) then .next s
    else if (s.arrived p f).pfcOn p (s.frameClass p f) && (s.arrived p f).xoffAt p + (s.arrived p f).hdrAt p <
        (s.arrived p f).ingressUse p (some (s.frameClass p f)) + (f.bytes.length + 4) then
      .next ((s.arrived p f).bump Reg.essPfcovf)
    else if !(s.arrived p f).pfcOn p (s.frameClass p f) && ingressSize p < s.ingressUse p none + (f.bytes.length + 4) then
      .next (s.arrived p f)
    else .next (s.firstPass p f) := by
  rw [exec_frameReceive, execFrameReceive]
  dsimp only
  have hdrop : ¬ (4 ≤ p && s.cfgBit (Reg.iclMscfg + 4 * (p - 4)) 31 && f.macsec = none && beAt f.bytes 12 2 ≠ 0x888E) = true := by
    rcases hpass with h | h | h
    · simp [Nat.not_le.mpr h]
    · simp [h]
    · simp [h]
  have hauth : ¬ (4 ≤ p && s.cfgBit (Reg.iclMscfg + 4 * (p - 4)) 31 && f.macsec = some false) = true := by
    rcases hpass with h | h | h
    · simp [Nat.not_le.mpr h]
    · simp [h]
    · simp [h]
  rw [if_neg (Nat.not_le.mpr hp), if_neg (by simp [hon]), if_neg (by simp [hfec]), if_neg (by simp [hfcs]), if_neg hdrop,
    if_neg hauth]
  rfl

theorem frameReceive_consumed (het : beAt f.bytes 12 2 = 0x8808 ∨ 4 ≤ p ∧ beAt f.bytes 12 2 = 0x888E) :
    exec (.frameReceive p f) s = .next s := by
  rw [exec_frameReceive_passed hp hon hfec hfcs hpass]
  exact if_pos (by simpa using het)

/-- A frame for the ingress region: without PFC it needs room in the region, with PFC it must not pass the headroom (R342, R359). -/
theorem frameReceive_admission (hctl : beAt f.bytes 12 2 ≠ 0x8808) (heap : 4 ≤ p → beAt f.bytes 12 2 ≠ 0x888E) :
    ∃ u cls v, Only { pmu := true, moved := true } s u ∧ cls = ingressClass p (s.parse f.bytes).1 ∧
      v = (u.onePass ⟨p, 0, s.ppc.cur, s.ppc.epoch, 0, false, false, 0, 0, zeroBytes 16⟩ f.bytes cls (f.bytes.length + 4)
        false false f.icrcOk).pfcJudge p cls ∧
      (u.pfcOn p cls = false →
        (s.ingressUse p none + (f.bytes.length + 4) ≤ ingressSize p → exec (.frameReceive p f) s = .next v) ∧
        (ingressSize p < s.ingressUse p none + (f.bytes.length + 4) → exec (.frameReceive p f) s = .next u)) ∧
      (u.pfcOn p cls = true →
        (u.ingressUse p (some cls) + (f.bytes.length + 4) ≤ u.xoffAt p + u.hdrAt p → exec (.frameReceive p f) s = .next v) ∧
        (u.xoffAt p + u.hdrAt p < u.ingressUse p (some cls) + (f.bytes.length + 4) →
          exec (.frameReceive p f) s = .next (u.bump Reg.essPfcovf))) := by
  refine ⟨s.arrived p f, s.frameClass p f, s.firstPass p f, s.arrived_only p f, rfl, rfl, ?_⟩
  rw [exec_frameReceive_passed hp hon hfec hfcs hpass, if_neg (by simpa [hctl] using heap)]
  refine ⟨fun hoff => ⟨fun hroom => ?_, fun hfull => ?_⟩, fun hpfc => ⟨fun hroom => ?_, fun hfull => ?_⟩⟩
  · rw [if_neg (by simp [hoff]), if_neg (by simp [hroom])]
  · rw [if_neg (by simp [hoff]), if_pos (by simp [hoff, hfull])]
  · rw [if_neg (by simp [hroom]), if_neg (by simp [hpfc])]
  · rw [if_pos (by simp [hpfc, hfull])]

end

/-! ## RECIRCULATION_PASS (R321 to R323, R383; log 21) -/

/-- The frame leaves the list; a record that failed ends its connection, and another pass runs in the bank recorded. -/
theorem recirculationPass_gives {s : State} {id : Nat} {r : Recirc} (ok : Bool) (pl : List Byte)
    (hr : s.ppc.recircs.find? (fun r => r.id = id) = some r) : ∃ u : State,
    u.ppc = { s.ppc with recircs := s.ppc.recircs.filter (fun x => x.id ≠ id) } ∧ u.hce = s.hce ∧ u.regs = s.regs ∧
    (r.tls = true → ok = false → exec (.recirculationPass id ok pl) s = .next (u.tlsBad (r.cookie % 2 ^ 32))) ∧
    (r.tls = false → exec (.recirculationPass id ok pl) s = .next (u.onePass
      ⟨r.port, r.pass, r.bank, r.epoch, r.cookie % 2 ^ 32, r.decap, r.tls, r.vni, r.tunnel, r.odip⟩ r.bytes r.icls r.len
      r.policed r.yellow r.icrcOk)) ∧
    (r.tls = true → ok = true → ∃ v : State, Only { pmu := true, moved := true, free := true } u v ∧
      exec (.recirculationPass id ok pl) s = .next ((v.tlsReceived (r.cookie % 2 ^ 32)).onePass
      ⟨r.port, r.pass, r.bank, r.epoch, r.cookie % 2 ^ 32, r.decap, r.tls, r.vni, r.tunnel, r.odip⟩
      (r.bytes.take (s.parse r.bytes).1.payload ++ pl) r.icls r.len r.policed r.yellow r.icrcOk)) := by
  refine ⟨{ s with ppc := { s.ppc with recircs := s.ppc.recircs.filter (fun x => x.id ≠ id) } }, rfl, rfl, rfl, ?_⟩
  rw [exec_recirculationPass, execRecirculationPass, hr]
  dsimp only
  refine ⟨fun htls hok => if_pos (by simp [htls, hok]), fun htls => ?_, fun htls hok => ?_⟩
  · rw [if_neg (by simp [htls]), if_neg (by simp [htls]), if_neg (by simp [htls])]
  · refine ⟨_, (Kept.laneWork (ceilDiv pl.length 16) 0 (.refl _) rfl rfl rfl).only, ?_⟩
    rw [if_neg (by simp [hok]), if_pos htls, if_pos htls]

/-! ## EXCEPTION_DRAIN (R329, R433) -/

theorem exceptionDrain_gives (s : State) :
    (s.mbx.activating = none → Gives .exceptionDrain s fun t => t.ppc = { s.ppc with exq := s.ppc.exq.drop 1 }) ∧
    (s.mbx.activating.isSome = true → exec .exceptionDrain s = .next s) := by
  unfold Gives
  rw [exec_exceptionDrain, execExceptionDrain]
  refine ⟨fun h => ?_, fun h => if_pos h⟩
  rw [if_neg (by simp [h])]
  exact ⟨_, rfl, rfl⟩

end Sys2Proof.Machine
end

section
/-! PROOFS. Rule banks and the table window, policers, and the PFC frames repeated (R323 to R328, R331, R332, R359). -/

namespace Sys2Proof.Machine

/-! ## Bank swaps (R323 to R326) -/

/-- A swap asked for by the side that OWNWR gives the banks to takes effect at once, or waits for the standby bank. -/
theorem bankSwap_gives (s : State) (b : Bool) : (s.cfgBit Reg.ppcUpdcfg 8 ≠ b → exec (.bankSwap b) s = .next s) ∧
    (s.cfgBit Reg.ppcUpdcfg 8 = b → s.ppc.swap = none →
      (s.draining = false → Gives (.bankSwap b) s fun t => t.ppc.cur = 1 - s.ppc.cur ∧
        t.ppc.epoch = (s.ppc.epoch + 1) % 65536 ∧ t.ppc.tables = s.ppc.tables) ∧
      (s.draining = true → Gives (.bankSwap b) s fun t => t.ppc = { s.ppc with swap := some (s.now + ms 1, none) })) := by
  unfold Gives
  rw [exec_bankSwap, execBankSwap]
  refine ⟨fun h => if_neg h, fun h hs => ?_⟩
  rw [if_pos h, State.requestSwap, if_neg (by simp [hs])]
  refine ⟨fun hd => ⟨_, rfl, ?_⟩, fun hd => ⟨_, rfl, ?_⟩⟩
  · rw [if_neg (by simp [hd])]
    exact ⟨rfl, rfl, rfl⟩
  · rw [if_pos hd]

section
variable {s : State} {d : Nat} {b : Option (Master × Nat)} (hs : s.ppc.swap = some (d, b))
include hs

theorem swapEffect_waits (hd : s.draining = true) : exec .swapEffect s = .next s := by
  rw [exec_swapEffect, execSwapEffect, hs]
  exact if_pos hd

theorem swapEffect_gives (hd : s.draining = false) (hb : b = none) : Gives .swapEffect s fun t =>
    t.ppc.cur = 1 - s.ppc.cur ∧ t.ppc.swap = none ∧ t.ppc.epoch = (s.ppc.epoch + 1) % 65536 := by
  refine ⟨s.swapNow, ?_, rfl, rfl, rfl⟩
  rw [exec_swapEffect, execSwapEffect, hs, hb]
  exact if_neg (by simp [hd])

theorem swapRefusal_early (h : s.now < d) : exec .swapRefusal s = .next s := by
  rw [exec_swapRefusal, execSwapRefusal, hs]
  exact if_pos (by simp [h])

variable (hd : s.draining = true) (hl : d ≤ s.now)
include hd hl

/-- A swap that no REG_WRITE asked for is refused in PPC.BANKSTAT (R325). -/
theorem swapRefusal_flags (hb : b = none) : Gives .swapRefusal s fun t => t.ppc = { s.ppc with swap := none } ∧
    ∃ u : State, u.regs = s.regs ∧ t = u.raiseFlag Reg.ppcBankstat 9 := by
  refine ⟨State.raiseFlag { s with ppc := { s.ppc with swap := none } } Reg.ppcBankstat 9, ?_, rfl,
    { s with ppc := { s.ppc with swap := none } }, rfl, rfl⟩
  rw [exec_swapRefusal, execSwapRefusal, hs, hb]
  exact if_neg (by simp [hd, hl])

/-- The REG_WRITE that asked for the swap ends with BUSY (R325). -/
theorem swapRefusal_ends {m : Master} {n : Nat} {c : MbCmd} (hb : b = some (m, n)) (hc : s.cmdOf m = some c) (hi : s.Inv) :
    Gives .swapRefusal s fun t => t.Ended m stBusy ∧ t.ppc.swap = none ∧ t.ppc.cur = s.ppc.cur := by
  refine ⟨State.finish { s with ppc := { s.ppc with swap := none } } m stBusy (leBytes 4 n), ?_,
    State.ends_of_mail hi hc (by rfl) (by rfl) _ _, ?_, ?_⟩
  · rw [exec_swapRefusal, execSwapRefusal, hs, hb]
    exact if_neg (by simp [hd, hl])
  · rw [State.finish_ppc]
  · rw [State.finish_ppc]

end

/-! ## The table window (R326, R327; log 24) -/

theorem tableCommit_refused {s : State} (h : s.commitRefused = true) :
    exec .tableCommit s = .next (s.raiseFlag Reg.ppcTwctl 9) := by
  rw [exec_tableCommit, execTableCommit, State.tableCommit, if_pos h]

theorem tableCommit_stages {s : State} {l : List (Word × List Byte)} (h : s.commitRefused = false) (hb : s.ppc.batch = some l) :
    Gives .tableCommit s fun t => t.ppc = { s.ppc with batch := some (l ++ [(s.reg Reg.ppcTwaddr, s.twEntry)]) } := by
  unfold Gives
  rw [exec_tableCommit, execTableCommit, State.tableCommit, if_neg (by simp [h]), hb]
  exact ⟨_, rfl, rfl⟩

/-- An entry that is not all zeroes stands in its table, beside those of other places. -/
theorem State.putEntry_tables (s : State) {w : Word} {e : List Byte} (ht : fieldOf w 30 29 < 2) (he : e ≠ zeroBytes 32) :
    (s.putEntry w e).ppc.tables = s.ppc.tables.filter (fun x =>
      !(x.bank = fieldOf w 31 31 && x.table = fieldOf w 30 29 && x.index = fieldOf w 15 0)) ++
        [⟨fieldOf w 31 31, fieldOf w 30 29, fieldOf w 15 0, e⟩] := by
  unfold State.putEntry
  dsimp only
  rw [if_neg (Nat.not_le.mpr ht), if_neg he]

theorem tableCommit_writes {s : State} (h : s.commitRefused = false) (hb : s.ppc.batch = none)
    (ht : fieldOf (s.reg Reg.ppcTwaddr) 30 29 < 2) (he : s.twEntry ≠ zeroBytes 32) : Gives .tableCommit s fun t =>
    ⟨fieldOf (s.reg Reg.ppcTwaddr) 31 31, fieldOf (s.reg Reg.ppcTwaddr) 30 29, fieldOf (s.reg Reg.ppcTwaddr) 15 0, s.twEntry⟩ ∈
      t.ppc.tables ∧
    ∀ x, x ∈ s.ppc.tables → ¬(x.bank = fieldOf (s.reg Reg.ppcTwaddr) 31 31 ∧ x.table = fieldOf (s.reg Reg.ppcTwaddr) 30 29 ∧
      x.index = fieldOf (s.reg Reg.ppcTwaddr) 15 0) → x ∈ t.ppc.tables := by
  refine ⟨s.putEntry (s.reg Reg.ppcTwaddr) s.twEntry, ?_, ?_⟩
  · rw [exec_tableCommit, execTableCommit, State.tableCommit, if_neg (by simp [h]), hb]
  · beta_reduce
    rw [State.putEntry_tables s ht he]
    refine ⟨List.mem_append_right _ (List.mem_singleton.mpr rfl), fun x hx hne => List.mem_append_left _ ?_⟩
    exact List.mem_filter.mpr ⟨hx, by simpa [-not_and, not_and_or, or_assoc] using hne⟩

theorem tableRead_refused {s : State} (h : twBad (s.reg Reg.ppcTwaddr) = true) :
    exec .tableRead s = .next (s.raiseFlag Reg.ppcTwctl 9) := by
  rw [exec_tableRead, execTableRead, State.tableRead, if_pos h]

/-- Registers written one after another at different addresses: each written one reads its word, the others are as before. -/
theorem State.reg_foldl_putReg {a : Nat → Nat} (ha : Function.Injective a) (v : Nat → Word) (i : Nat) (l : List Nat) :
    ∀ s : State, s.Inv → (l.foldl (fun t j => t.putReg (a j) (v j)) s).reg (a i) =
      if i ∈ l then v i &&& ~~~ absentBits s.part (a i) else s.reg (a i) := by
  induction l with
  | nil => exact fun s _ => rfl
  | cons j l ih =>
    intro s hi
    rw [List.foldl_cons, ih _ (State.putReg_inv hi _ _), State.reg_putReg hi, State.putReg_part]
    simp only [ha.eq_iff]
    by_cases hl : i ∈ l
    · simp [hl]
    · by_cases hij : i = j
      · simp [hij]
      · simp [hl, hij]

theorem tableRead_loads {s : State} (hi : s.Inv) (h : twBad (s.reg Reg.ppcTwaddr) = false) : Gives .tableRead s fun t =>
    ∀ i < 8, t.reg (Reg.ppcTwdata + 4 * i) =
      BitVec.ofNat 32 (leAt (s.entry (fieldOf (s.reg Reg.ppcTwaddr) 31 31) (fieldOf (s.reg Reg.ppcTwaddr) 30 29)
        (fieldOf (s.reg Reg.ppcTwaddr) 15 0)) (4 * i) 4) &&& ~~~ absentBits s.part (Reg.ppcTwdata + 4 * i) := by
  have hinj : Function.Injective (fun i => Reg.ppcTwdata + 4 * i) := fun i j h => by
    dsimp only at h
    omega
  unfold Gives
  rw [exec_tableRead, execTableRead, State.tableRead]
  dsimp only
  rw [if_neg (by simp [h])]
  refine ⟨_, rfl, fun i h8 => ?_⟩
  rw [State.reg_foldl_putReg hinj _ i _ s hi, if_pos (by simpa [natsFrom_eq_range'] using h8)]

/-! ## Batches (R327, R328) -/

theorem batchCommands_without_batch {s : State} (hb : s.ppc.batch = none) :
    (Gives .batchStart s fun t => t.ppc = { s.ppc with batch := some [] }) ∧
      exec .batchEnd s = .next (s.raiseFlag Reg.ppcTwctl 9) := by
  unfold Gives
  rw [exec_batchStart, execBatchStart, State.batchStart, if_neg (by simp [hb]), exec_batchEnd, execBatchEnd, State.batchEnd, hb]
  exact ⟨⟨_, rfl, rfl⟩, rfl⟩

theorem State.putEntry_batch (s : State) (w : Word) (e : List Byte) : (s.putEntry w e).ppc.batch = s.ppc.batch := by
  unfold State.putEntry
  dsimp only
  split <;> rfl

/-- An open batch refuses another, and ends with its entries written; one to the current bank is never refused. -/
theorem batchCommands_in_batch {s : State} {l : List (Word × List Byte)} (hb : s.ppc.batch = some l) :
    exec .batchStart s = .next (s.raiseFlag Reg.ppcTwctl 9) ∧
      (l = [] → Gives .batchEnd s fun t => t.ppc = { s.ppc with batch := none }) ∧
      (∀ w e, l = [(w, e)] → fieldOf w 31 31 = s.ppc.cur → Gives .batchEnd s fun t => t.ppc.batch = none ∧
        ∃ u : State, u.ppc = { s.ppc with batch := none } ∧ t = u.putEntry w e) := by
  unfold Gives
  rw [exec_batchStart, execBatchStart, State.batchStart, if_pos (by simp [hb]), exec_batchEnd, execBatchEnd, State.batchEnd, hb]
  refine ⟨rfl, fun hl => ?_, fun w e hl hw => ?_⟩
  · subst hl
    exact ⟨_, rfl, rfl⟩
  · subst hl
    dsimp only
    rw [List.foldl_cons, List.foldl_nil, if_neg (by simp [hw])]
    exact ⟨_, rfl, State.putEntry_batch .., _, rfl, rfl⟩

/-! ## POLCIR_WRITE (R331, R332) -/

theorem State.policer_setPolicer (s : State) (p : Policer) : (s.setPolicer p).policer p.index = p := by
  have hnone : (s.ppc.policers.filter (fun q => q.index ≠ p.index)).find? (fun q => q.index = p.index) = none :=
    List.find?_eq_none.mpr fun q hq => by simpa using (List.mem_filter.mp hq).2
  have hfind : (s.ppc.policers.filter (fun q => q.index ≠ p.index) ++ [p]).find? (fun q => q.index = p.index) = some p := by
    rw [List.find?_append, hnone]
    simp
  unfold State.policer State.setPolicer
  rw [hfind]

theorem polcirWrite_gives {s : State} {w : Word} (hno : s.noPolicer = false) :
    (fieldOf w 19 0 ≤ 800000 → Gives (.polcirWrite w) s fun t =>
      t.policer (s.policer (s.cfg Reg.essPolsel 9 0)).index = { s.policer (s.cfg Reg.essPolsel 9 0) with
        cir := fieldOf w 19 0, tc := (s.policer (s.cfg Reg.essPolsel 9 0)).cbs * 1024 * 8000,
        te := (s.policer (s.cfg Reg.essPolsel 9 0)).ebs * 1024 * 8000, at_ := s.now }) ∧
    (800000 < fieldOf w 19 0 → exec (.polcirWrite w) s = .next s) := by
  unfold Gives
  rw [exec_polcirWrite, execPolcirWrite, State.polcirWrite]
  refine ⟨fun h => ?_, fun h => ?_⟩
  · rw [if_neg (by simp [hno, Nat.not_lt.mpr h])]
    exact ⟨_, rfl, State.policer_setPolicer ..⟩
  · rw [if_pos (by simp [h])]

/-! ## PFC_REPEAT (R359) -/

/-- A class in XOFF that leaves it: a PFC frame of 0 quanta, and no entry left. -/
theorem State.pfcXon_of_inXoff {s : State} {p c : Nat} (h : s.inXoff p c = true) :
    s.Sent (s.pfcXon p c) (.pfc p c 0) ∧ (s.pfcXon p c).inXoff p c = false := by
  rw [State.pfcXon, if_pos h]
  exact ⟨(State.Sent.emit _ _).congr rfl rfl,
    List.any_eq_false.mpr fun e he => by simpa [-not_and, not_and_or] using (List.mem_filter.mp he).2⟩

section
variable {s : State} {p c : Nat} {e : Nat × Nat × Nat} (he : s.xbr.xoff.find? (fun e => e.1 = p && e.2.1 = c) = some e)
include he

theorem pfcRepeat_early (ht : s.now < e.2.2 + us 20) : exec (.pfcRepeat p c) s = .next s := by
  rw [exec_pfcRepeat, execPfcRepeat, he]
  exact if_pos ht

variable (ht : e.2.2 + us 20 ≤ s.now)
include ht

/-- A class that still holds XON or more has its pause repeated (R359). -/
theorem pfcRepeat_repeats (hp : s.pfcOn p c = true) (hu : s.xonAt p ≤ s.ingressUse p (some c)) :
    Gives (.pfcRepeat p c) s fun t => s.Sent t (.pfc p c 0xFFFF) ∧ (p, c, s.now) ∈ t.xbr.xoff := by
  obtain ⟨e1, e2, e3⟩ := e
  obtain ⟨rfl, rfl⟩ : e1 = p ∧ e2 = c := by simpa using List.find?_some he
  unfold Gives
  rw [exec_pfcRepeat, execPfcRepeat, he]
  dsimp only
  rw [if_neg (Nat.not_lt.mpr ht), if_neg (by simp [hp, hu])]
  refine ⟨_, rfl, (State.Sent.emit _ _).congr rfl rfl, ?_⟩
  exact List.mem_map.mpr ⟨_, List.mem_of_find?_eq_some he, if_pos (by simp)⟩

/-- A class that has fallen below XON leaves XOFF (R359). -/
theorem pfcRepeat_ends (hu : s.ingressUse p (some c) < s.xonAt p) :
    Gives (.pfcRepeat p c) s fun t => s.Sent t (.pfc p c 0) ∧ t.inXoff p c = false := by
  have hm := List.find?_some he
  have hx : s.inXoff p c = true := List.any_eq_true.mpr ⟨e, List.mem_of_find?_eq_some he, hm⟩
  refine ⟨s.pfcXon p c, ?_, State.pfcXon_of_inXoff hx⟩
  rw [exec_pfcRepeat, execPfcRepeat, he]
  dsimp only
  rw [if_neg (Nat.not_lt.mpr ht), if_pos (by simp [hu])]

end

/-! ## The statement -/

/-- Settles O24, each command by its own rules above. -/
theorem framesRuleBanksAndPolicers : Obligations.FramesRuleBanksAndPolicers := by
  unfold Obligations.FramesRuleBanksAndPolicers
  refine ⟨fun s p f => ⟨frameReceive_off, frameReceive_uncorrectable, frameReceive_badFcs, ?_⟩, ?_, exceptionDrain_gives,
    bankSwap_gives, ?_, ?_, ?_, ?_, ?_⟩
  · intro hp hon hfec hfcs
    exact ⟨fun h4 hsec => ⟨frameReceive_unprotected hp hon hfec hfcs h4 hsec, frameReceive_unauthentic hp hon hfec hfcs h4 hsec⟩,
      fun hpass => ⟨frameReceive_consumed hp hon hfec hfcs hpass, frameReceive_admission hp hon hfec hfcs hpass⟩⟩
  · exact fun s id r ok pl hr => recirculationPass_gives ok pl hr
  · exact fun s d b hs => ⟨swapEffect_waits hs, swapEffect_gives hs, swapRefusal_flags hs,
      fun hd hl m n c hb hc hi => swapRefusal_ends hs hd hl hb hc hi, swapRefusal_early hs⟩
  · rintro s w rfl
    exact ⟨tableCommit_refused, fun l => tableCommit_stages, tableCommit_writes, tableRead_refused,
      fun h hi => tableRead_loads hi h⟩
  · exact fun s => ⟨batchCommands_without_batch, fun l => batchCommands_in_batch⟩
  · rintro s w p rfl hno
    exact polcirWrite_gives hno
  · exact fun s p c e he => ⟨pfcRepeat_repeats he, pfcRepeat_ends he, pfcRepeat_early he⟩

end Sys2Proof.Machine
end

section
/-! PROOFS. Power domains, as they wake and as they go to their lowest mode (R399, R506 to R508, R515, R522, R538). -/

namespace Sys2Proof.Machine

/-! ## DOMAIN_WAKE (R508, R522) -/

theorem State.wakeDom_of_on {s : State} {d : Nat} (ho : hasNat s.pwr.domOn d = true) : s.wakeDom d = s :=
  if_pos (by simp [ho])

theorem State.wakeDom_of_off {s : State} {d : Nat} (hp : domPresent s.part d = true) (ho : hasNat s.pwr.domOn d = false)
    (hw : ∀ w ∈ s.pwr.waking, w.1 ≠ d) : s.wakeDom d =
      s.updPwr (fun p => { p with waking := p.waking ++ [(d, s.now + wakeNs (hasNat p.domRet d) d)] }) := by
  have hany : s.pwr.waking.any (fun w => w.1 = d) = false := List.any_eq_false.mpr fun w h => by simpa using hw w h
  exact if_neg (by rw [hp, ho, hany]; exact Bool.false_ne_true)

theorem domainWake_gives (s : State) (d : Nat) : (s.pwr.up = false → exec (.domainWake d) s = .next s) ∧
    (s.pwr.up = true → domPresent s.part d = true → hasNat s.pwr.domOn d = false → (∀ w ∈ s.pwr.waking, w.1 ≠ d) →
      Gives (.domainWake d) s fun t => t.pwr = { s.pwr with
        waking := s.pwr.waking ++ [(d, s.now + wakeNs (hasNat s.pwr.domRet d) d)] }) ∧
    (hasNat s.pwr.domOn d = true → exec (.domainWake d) s = .next s) := by
  unfold Gives
  rw [exec_domainWake, execDomainWake]
  refine ⟨fun hu => by simp [hu], fun hu hp ho hw => ?_, fun ho => by rw [State.wakeDom_of_on ho, ite_self]⟩
  rw [if_pos hu, State.wakeDom_of_off hp ho hw]
  exact ⟨_, rfl, rfl⟩

/-! ## DOMAIN_ON (R399, R507, R522, R538) -/

/-- A domain is ON: it wakes no more and retains nothing. -/
def PwrSt.woken (p : PwrSt) (d : Nat) : PwrSt :=
  { p with waking := p.waking.filter (fun w => w.1 ≠ d), domRet := dropNat p.domRet d, domOn := addNat p.domOn d }

theorem domainOn_asleep {s : State} {d : Nat} (ok : Bool) (hw : ∀ w ∈ s.pwr.waking, w.1 ≠ d) :
    exec (.domainOn d ok) s = .next s := by
  rw [exec_domainOn, execDomainOn, if_pos (by simpa using hw)]

section
variable {s : State} {d : Nat} (ok : Bool) {w : Nat × Nat} (hw : w ∈ s.pwr.waking) (hd : w.1 = d)
include hw hd

/-- Which domain it is decides what comes back with it: a cipher lane, an HBM stack, or nothing more. -/
theorem exec_domainOn_waking : exec (.domainOn d ok) s =
    if 59 ≤ d && d < 75 then
      if hasNat s.kvt.lanesFailed (d - 59) then .next (s.updPwr (·.woken d))
      else .next ((s.updPwr (·.woken d)).updKvt (fun k =>
        if ok then { k with lanesOn := addNat k.lanesOn (d - 59) } else { k with lanesFailed := addNat k.lanesFailed (d - 59) }))
    else if 76 ≤ d && d < 84 then
      if hasNat (addNat s.pwr.domOn d) (76 + 2 * ((d - 76) / 2)) && hasNat (addNat s.pwr.domOn d) (77 + 2 * ((d - 76) / 2)) then
        .next (((s.updPwr (·.woken d)).updPwr (fun p => { p with shed := dropNat p.shed ((d - 76) / 2) })).bumpBy Reg.lcuHbmrt 32)
      else .next (s.updPwr (·.woken d))
    else .next (s.updPwr (·.woken d)) := by
  have hany : s.pwr.waking.any (fun w => w.1 = d) = true := List.any_eq_true.mpr ⟨w, hw, by simpa using hd⟩
  rw [exec_domainOn, execDomainOn]
  exact if_neg (by rw [hany]; exact Bool.false_ne_true)

/-- Whatever the domain, only the list of shed stacks may change beside it. -/
theorem domainOn_powers : Gives (.domainOn d ok) s fun t => ∃ l, t.pwr = { s.pwr.woken d with shed := l } := by
  unfold Gives
  rw [exec_domainOn_waking ok hw hd]
  split_ifs <;> exact ⟨_, rfl, _, rfl⟩

theorem domainOn_lane (h1 : 59 ≤ d) (h2 : d < 75) (hf : hasNat s.kvt.lanesFailed (d - 59) = false) :
    Gives (.domainOn d ok) s fun t => t.kvt = if ok = true then { s.kvt with lanesOn := addNat s.kvt.lanesOn (d - 59) }
      else { s.kvt with lanesFailed := addNat s.kvt.lanesFailed (d - 59) } := by
  unfold Gives
  rw [exec_domainOn_waking ok hw hd, if_pos (by simp [h1, h2]), if_neg (by simp [hf])]
  exact ⟨_, rfl, rfl⟩

theorem domainOn_stack {k : Nat} (h1 : 76 + 2 * k ≤ d) (h2 : d ≤ 77 + 2 * k) (hk : k < 4)
    (ha : hasNat (addNat s.pwr.domOn d) (76 + 2 * k) = true) (hb : hasNat (addNat s.pwr.domOn d) (77 + 2 * k) = true) :
    Gives (.domainOn d ok) s fun t => t.pwr.shed = dropNat s.pwr.shed k := by
  have hdk : (d - 76) / 2 = k := by omega
  unfold Gives
  rw [exec_domainOn_waking ok hw hd, if_neg (by simp; omega), if_pos (by simp; omega), hdk, if_pos (by rw [ha, hb]; rfl)]
  exact ⟨_, rfl, rfl⟩

end

/-! ## DOMAIN_IDLE (R506, R507, R515) -/

theorem domainIdle_active {s : State} {d : Nat} (hm : s.pwr.mode = .active) : exec (.domainIdle d) s = .next s := by
  rw [exec_domainIdle, execDomainIdle]
  exact if_pos (by simp [hm])

theorem domainIdle_stays {s : State} {d : Nat} (h : domAlways d = true ∨ s.domNeeded d = true ∨ hasNat s.pwr.domOn d = false) :
    exec (.domainIdle d) s = .next s := by
  rw [exec_domainIdle, execDomainIdle]
  refine if_pos ?_
  rcases h with h | h | h <;> simp [h]

theorem State.domsOff_off (s : State) (d : Nat) : d ∉ (s.domsOff [d]).pwr.domOn ∧ d ∉ (s.domsOff [d]).pwr.domRet := by
  simp [State.domsOff, hasNat]

section
variable {s : State} {d : Nat} (hm : s.pwr.mode = .lull ∨ s.pwr.mode = .doze) (hon : hasNat s.pwr.domOn d = true)
  (ha : domAlways d = false) (hn : s.domNeeded d = false)
include hm hon ha hn

/-- A domain that nothing keeps ON goes to the lowest mode of its kind. -/
theorem exec_domainIdle_low : exec (.domainIdle d) s =
    if domRetains d then
      .next (s.updPwr (fun p => { p with domOn := dropNat p.domOn d, domRet := addNat p.domRet d }))
    else if 59 ≤ d && d < 75 then
      .next ((s.domsOff [d]).updKvt (fun k => { k with lanesOn := dropNat k.lanesOn (d - 59) }))
    else if (84 ≤ d && d < 96) || d = 111 then .next (s.domsOff [d])
    else if 76 ≤ d && d < 84 then .next (if s.deepest ≤ (d - 76) / 2 then s.shedStack ((d - 76) / 2) else s)
    else .next s := by
  rw [exec_domainIdle, execDomainIdle]
  exact if_neg (by rcases hm with hm | hm <;> simp [hm, hon, ha, hn])

theorem domainIdle_retains (hr : domRetains d = true) : Gives (.domainIdle d) s fun t =>
    t.pwr = { s.pwr with domOn := dropNat s.pwr.domOn d, domRet := addNat s.pwr.domRet d } := by
  unfold Gives
  rw [exec_domainIdle_low hm hon ha hn, if_pos hr]
  exact ⟨_, rfl, rfl⟩

theorem domainIdle_lane (h1 : 59 ≤ d) (h2 : d < 75) : Gives (.domainIdle d) s fun t =>
    d ∉ t.pwr.domOn ∧ d ∉ t.pwr.domRet ∧ t.kvt = { s.kvt with lanesOn := dropNat s.kvt.lanesOn (d - 59) } := by
  have hr : domRetains d = false := by simp [domRetains]; omega
  obtain ⟨hoff, hret⟩ := s.domsOff_off d
  unfold Gives
  rw [exec_domainIdle_low hm hon ha hn, if_neg (by simp [hr]), if_pos (by simp [h1, h2])]
  exact ⟨_, rfl, hoff, hret, rfl⟩

theorem domainIdle_engine (h : (84 ≤ d ∧ d < 96) ∨ d = 111) : Gives (.domainIdle d) s fun t =>
    d ∉ t.pwr.domOn ∧ d ∉ t.pwr.domRet ∧ t.kvt = s.kvt := by
  have hr : domRetains d = false := by simp [domRetains]; omega
  obtain ⟨hoff, hret⟩ := s.domsOff_off d
  unfold Gives
  rw [exec_domainIdle_low hm hon ha hn, if_neg (by simp [hr]), if_neg (by simp; omega), if_pos (by simpa using h)]
  exact ⟨_, rfl, hoff, hret, rfl⟩

theorem domainIdle_stack {k : Nat} (hk : k < 4) (hd : d = 76 + 2 * k ∨ d = 77 + 2 * k) :
    exec (.domainIdle d) s = .next (if s.deepest ≤ k then s.shedStack k else s) := by
  have hr : domRetains d = false := by simp [domRetains]; omega
  have hdk : (d - 76) / 2 = k := by omega
  rw [exec_domainIdle_low hm hon ha hn, if_neg (by simp [hr]), if_neg (by simp; omega), if_neg (by simp; omega),
    if_pos (by simp; omega), hdk]

end

end Sys2Proof.Machine
end

section
/-! PROOFS. Power states, the health check and the power policy (R265, R511, R514 to R518, R524, R525, R624; what
blocks a power state and when a policy counts is log 90, and readings are the free values of log 4). -/

namespace Sys2Proof.Machine

/-! ## Changes of the power state (R515, R517) -/

theorem State.wakeActive_mode {s : State} (hm : s.pwr.mode = .lull ∨ s.pwr.mode = .doze) : s.wakeActive.pwr.mode = .active := by
  rw [State.wakeActive, if_pos (by simpa using hm)]
  rfl

theorem State.enterLull_runs (s : State) :
    s.enterLull.pwr.mode = .lull ∧ s.enterLull.pwr.lullRun = 0 ∧ s.enterLull.pwr.dozeRun = 0 :=
  ⟨rfl, rfl, rfl⟩

theorem State.enterDoze_runs (s : State) : s.enterDoze.pwr.mode = .doze ∧ s.enterDoze.pwr.dozeRun = 0 := ⟨rfl, rfl⟩

/-! ## POWER_STATE_EVALUATION (R516 to R518) -/

/-- The host ports' loads of a window of 100 ms are kept (R532). -/
def State.utilTaken (s : State) (w : LoadWindow) : State :=
  if w.isMs then s else s.updPwr (fun p => { p with util := w.hostUtil })

theorem State.utilTaken_ms {s : State} {w : LoadWindow} (hw : w.isMs = true) : s.utilTaken w = s := if_pos hw

theorem State.utilTaken_long {s : State} {w : LoadWindow} (hw : w.isMs = false) :
    s.utilTaken w = s.updPwr (fun p => { p with util := w.hostUtil }) := if_neg (by simp [hw])

/-- The run of windows of low load after this one, towards Lull (R517). -/
def State.lullCount (s : State) (w : LoadWindow) : Nat :=
  if 1 ≤ s.policy 0 && s.loadOf w < s.policy 2 * 100 then s.pwr.lullRun + 1 else 0

theorem State.lullCount_low {s : State} {w : LoadWindow} (h1 : 1 ≤ s.policy 0) (hl : s.loadOf w < s.policy 2 * 100) :
    s.lullCount w = s.pwr.lullRun + 1 := if_pos (by simp [h1, hl])

theorem State.lullCount_high {s : State} {w : LoadWindow} (h : s.policy 0 = 0 ∨ s.policy 2 * 100 ≤ s.loadOf w) :
    s.lullCount w = 0 := if_neg (by simp; omega)

/-- The run of windows of low load after this one, towards Doze (R517). -/
def State.dozeCount (s : State) (w : LoadWindow) : Nat :=
  if s.policy 0 = 2 && !s.dozeBlock && s.loadOf w < s.policy 3 * 100 then s.pwr.dozeRun + 1 else 0

theorem State.dozeCount_low {s : State} {w : LoadWindow} (h2 : s.policy 0 = 2) (hb : s.dozeBlock = false)
    (hl : s.loadOf w < s.policy 3 * 100) : s.dozeCount w = s.pwr.dozeRun + 1 := if_pos (by simp [h2, hb, hl])

theorem State.dozeCount_high {s : State} {w : LoadWindow} (h : s.dozeBlock = true ∨ s.policy 3 * 100 ≤ s.loadOf w) :
    s.dozeCount w = 0 := if_neg (by rcases h with h | h <;> simp [h])

theorem evaluation_down {s : State} {w : LoadWindow} (hu : s.pwr.up = false) : exec (.powerStateEvaluation w) s = .next s := by
  rw [exec_powerStateEvaluation, execPowerStateEvaluation, if_pos (by simp [hu])]

section
variable {s : State} {w : LoadWindow} (hu : s.pwr.up = true) (ha : s.mbx.activating = none)
include hu ha

theorem evaluation_held (hh : s.activeHold = true) (hm : s.pwr.mode = .lull ∨ s.pwr.mode = .doze) :
    Gives (.powerStateEvaluation w) s fun t => t.pwr.mode = .active ∧ t.pwr.lullRun = 0 ∧ t.pwr.dozeRun = 0 := by
  have hm1 : (s.utilTaken w).pwr.mode = .lull ∨ (s.utilTaken w).pwr.mode = .doze := by
    unfold State.utilTaken
    split <;> exact hm
  unfold Gives
  rw [exec_powerStateEvaluation, execPowerStateEvaluation, if_neg (by simp [hu])]
  dsimp only
  rw [if_neg (by simp [ha]), if_pos hh]
  exact ⟨_, rfl, State.wakeActive_mode hm1, rfl, rfl⟩

variable (hh : s.activeHold = false)
include hh

section
variable (hm : s.pwr.mode = .active) (hw : w.isMs = false)
include hm hw

/-- In Active a window of 100 ms counts towards Lull, or ends the run. -/
theorem exec_evaluation_active : exec (.powerStateEvaluation w) s =
    if s.policy 5 * 100 ≤ s.lullCount w && s.lullCount w ≠ 0 then
      .next ((s.utilTaken w).updPwr (fun p => { p with lullRun := s.lullCount w })).enterLull
    else .next ((s.utilTaken w).updPwr (fun p => { p with lullRun := s.lullCount w })) := by
  rw [exec_powerStateEvaluation, execPowerStateEvaluation, if_neg (by simp [hu])]
  dsimp only
  rw [if_neg (by simp [ha]), if_neg (by simp [hh]), hm]
  dsimp only
  rw [if_neg (by simp [hw])]
  rfl

theorem evaluation_counts_lull (h : s.lullCount w = 0 ∨ s.lullCount w < s.policy 5 * 100) :
    Gives (.powerStateEvaluation w) s fun t => t.pwr = { s.pwr with util := w.hostUtil, lullRun := s.lullCount w } := by
  unfold Gives
  rw [exec_evaluation_active hu ha hh hm hw, if_neg (by simp; omega), State.utilTaken_long hw]
  exact ⟨_, rfl, rfl⟩

theorem evaluation_enters_lull (h0 : s.lullCount w ≠ 0) (h : s.policy 5 * 100 ≤ s.lullCount w) :
    Gives (.powerStateEvaluation w) s fun t => t.pwr.mode = .lull ∧ t.pwr.lullRun = 0 ∧ t.pwr.dozeRun = 0 := by
  unfold Gives
  rw [exec_evaluation_active hu ha hh hm hw, if_pos (by simp [h0, h])]
  exact ⟨_, rfl, State.enterLull_runs _⟩

end

section
variable (hm : s.pwr.mode = .lull)
include hm

/-- In Lull a window of 1 ms may wake the module; one of 100 ms counts towards Doze, or ends the run. -/
theorem exec_evaluation_lull : exec (.powerStateEvaluation w) s =
    if w.isMs then (if s.policy 4 * 100 < s.loadOf w then .next (s.utilTaken w).wakeActive else .next (s.utilTaken w))
    else if s.policy 6 * 100 ≤ s.dozeCount w && s.dozeCount w ≠ 0 then
      .next ((s.utilTaken w).updPwr (fun p => { p with dozeRun := s.dozeCount w })).enterDoze
    else .next ((s.utilTaken w).updPwr (fun p => { p with dozeRun := s.dozeCount w })) := by
  rw [exec_powerStateEvaluation, execPowerStateEvaluation, if_neg (by simp [hu])]
  dsimp only
  rw [if_neg (by simp [ha]), if_neg (by simp [hh]), hm]
  rfl

theorem evaluation_lull_stays (hw : w.isMs = true) (hl : s.loadOf w ≤ s.policy 4 * 100) :
    exec (.powerStateEvaluation w) s = .next s := by
  rw [exec_evaluation_lull hu ha hh hm, if_pos hw, if_neg (Nat.not_lt.mpr hl), State.utilTaken_ms hw]

theorem evaluation_counts_doze (hw : w.isMs = false) (h : s.dozeCount w = 0 ∨ s.dozeCount w < s.policy 6 * 100) :
    Gives (.powerStateEvaluation w) s fun t => t.pwr = { s.pwr with util := w.hostUtil, dozeRun := s.dozeCount w } := by
  unfold Gives
  rw [exec_evaluation_lull hu ha hh hm, if_neg (by simp [hw]), if_neg (by simp; omega), State.utilTaken_long hw]
  exact ⟨_, rfl, rfl⟩

theorem evaluation_enters_doze (hw : w.isMs = false) (h0 : s.dozeCount w ≠ 0) (h : s.policy 6 * 100 ≤ s.dozeCount w) :
    Gives (.powerStateEvaluation w) s fun t => t.pwr.mode = .doze ∧ t.pwr.dozeRun = 0 := by
  unfold Gives
  rw [exec_evaluation_lull hu ha hh hm, if_neg (by simp [hw]), if_pos (by simp [h0, h])]
  exact ⟨_, rfl, State.enterDoze_runs _⟩

end

section
variable (hm : s.pwr.mode = .doze)
include hm

/-- In Doze the load of 1 ms may wake the module, and a Doze block or a loaded port brings it back to Lull. -/
theorem exec_evaluation_doze : exec (.powerStateEvaluation w) s =
    if w.isMs && s.policy 4 * 100 < s.loadOf w then .next (s.utilTaken w).wakeActive
    else if s.dozeBlock || (w.isMs && s.mac.hostUp.any (fun p => 4000 < w.hostUtil.getD p 0)) then .next (s.utilTaken w).leaveDoze
    else .next (s.utilTaken w) := by
  rw [exec_powerStateEvaluation, execPowerStateEvaluation, if_neg (by simp [hu])]
  dsimp only
  rw [if_neg (by simp [ha]), if_neg (by simp [hh]), hm]
  rfl

theorem evaluation_leaves_doze (hw : w.isMs = false) (hb : s.dozeBlock = true) :
    Gives (.powerStateEvaluation w) s fun t => t.pwr.mode = .lull := by
  unfold Gives
  rw [exec_evaluation_doze hu ha hh hm, if_neg (by simp [hw]), if_pos (by simp [hb])]
  exact ⟨_, rfl, rfl⟩

theorem evaluation_doze_stays (hw : w.isMs = false) (hb : s.dozeBlock = false) :
    Gives (.powerStateEvaluation w) s fun t => t.pwr = { s.pwr with util := w.hostUtil } := by
  unfold Gives
  rw [exec_evaluation_doze hu ha hh hm, if_neg (by simp [hw]), if_neg (by simp [hw, hb]), State.utilTaken_long hw]
  exact ⟨_, rfl, rfl⟩

end

/-- Load above the policy's level over 1 ms wakes the module (R517). -/
theorem evaluation_wakes (hm : s.pwr.mode = .lull ∨ s.pwr.mode = .doze) (hw : w.isMs = true)
    (hl : s.policy 4 * 100 < s.loadOf w) : Gives (.powerStateEvaluation w) s fun t => t.pwr.mode = .active := by
  refine ⟨s.wakeActive, ?_, State.wakeActive_mode hm⟩
  rcases hm with hm | hm
  · rw [exec_evaluation_lull hu ha hh hm, if_pos hw, if_pos hl, State.utilTaken_ms hw]
  · rw [exec_evaluation_doze hu ha hh hm, if_pos (by simp [hw, hl]), State.utilTaken_ms hw]

end

/-! ## HEALTH_CHECK, RETENTION_CHECK (R265, R400, R511, R514, R624) -/

theorem healthCheck_off {s : State} {a b : Bool} (h : s.pwr.up = false ∨ s.tk.fenced = true) :
    exec (.healthCheck a b) s = .next s := by
  rw [exec_healthCheck, execHealthCheck]
  refine if_pos ?_
  rcases h with h | h <;> simp [h]

theorem State.healthFail_paired {s : State} (hp : s.paired = true) : s.healthFail = s.hbStop := if_pos (by simp [hp])

/-- HB_OUT stops: nothing of the supervisor's state changes but it, and the pin falls. -/
theorem State.hbStop_on {s : State} (hb : s.tk.hbOut = true) :
    s.hbStop.tk = { s.tk with hbOut := false } ∧ s.Sent s.hbStop (.pin .hbOut false) := by
  rw [State.hbStop, if_pos hb]
  exact ⟨rfl, State.Sent.emit (s.updTk (fun k => { k with hbOut := false })) _⟩

/-- Without a joined peer the module flushes; when it fails again before it has served, it also stays down (R624). -/
theorem State.healthFail_unpaired {s : State} (hu : s.pwr.up = true) (hp : s.paired = false) (hf : s.hce.flushing = false) :
    s.healthFail.hce.flushing = true ∧ s.healthFail.hce.halted = true ∧
      (s.tk.healthBad = true → s.healthFail.pwr.railOff = true) ∧ (s.tk.healthBad = false → s.healthFail.tk.healthBad = true) := by
  obtain ⟨hfl, hha, -⟩ := State.startFlush_hce (s := s.hbStop) (by rw [State.hbStop_pwr, hu]) (by rw [State.hbStop_hce, hf])
  rw [State.healthFail, if_neg (by simp [hp, hf, hu])]
  cases hb : s.tk.healthBad with
  | true => exact ⟨hfl, hha, fun _ => rfl, fun h => absurd h (by simp)⟩
  | false => exact ⟨hfl, hha, fun h => absurd h (by simp), fun _ => rfl⟩

section
variable {s : State} {a b : Bool} (hu : s.pwr.up = true) (hx : s.tk.fenced = false) (ht : s.tst.boot = false)
include hu hx ht

theorem healthCheck_starts (ha : a = true) (hb : b = true) (hk : s.kvt.st ≠ .error) (ho : s.tk.hbOut = false)
    (htr : s.pwr.tripped = false) (hr : s.pwr.restart = none) (hf : s.hce.flushing = false) :
    Gives (.healthCheck a b) s fun t => t.tk = { s.tk with hbOut := true } ∧ t.hce = s.hce ∧ s.Sent t (.pin .hbOut true) := by
  subst ha hb
  unfold Gives
  rw [exec_healthCheck, execHealthCheck, if_neg (by simp [hu, hx, ht]), if_pos (by simp [hk]), if_neg (by simp [ho, htr, hr, hf])]
  exact ⟨_, rfl, rfl, rfl, State.Sent.emit (s.updTk (fun k => { k with hbOut := true })) _⟩

variable (ho : s.tk.hbOut = true)
include ho

theorem healthCheck_goes_on (ha : a = true) (hb : b = true) (hk : s.kvt.st ≠ .error) : exec (.healthCheck a b) s = .next s := by
  subst ha hb
  rw [exec_healthCheck, execHealthCheck, if_neg (by simp [hu, hx, ht]), if_pos (by simp [hk]), if_pos (by simp [ho])]

variable (hbad : b = false ∨ s.kvt.st = .error ∨ (a = false ∧ s.mbx.activating = none))
include hbad

theorem exec_healthCheck_fails : exec (.healthCheck a b) s = .next s.healthFail := by
  rw [exec_healthCheck, execHealthCheck, if_neg (by simp [hu, hx, ht]), if_neg ?_, if_pos ho]
  rcases hbad with h | h | ⟨h, h'⟩
  · simp [h]
  · simp [h]
  · simp [h, h']

theorem healthCheck_fails_paired (hp : s.paired = true) : Gives (.healthCheck a b) s fun t =>
    t.tk = { s.tk with hbOut := false } ∧ t.hce = s.hce ∧ s.Sent t (.pin .hbOut false) := by
  obtain ⟨htk, hsent⟩ := State.hbStop_on ho
  refine ⟨s.hbStop, ?_, htk, s.hbStop_hce, hsent⟩
  rw [exec_healthCheck_fails hu hx ht ho hbad, State.healthFail_paired hp]

theorem healthCheck_fails_unpaired (hp : s.paired = false) (hf : s.hce.flushing = false) : Gives (.healthCheck a b) s fun t =>
    t.hce.flushing = true ∧ t.hce.halted = true ∧ (s.tk.healthBad = true → t.pwr.railOff = true) ∧
      (s.tk.healthBad = false → t.tk.healthBad = true) :=
  ⟨_, exec_healthCheck_fails hu hx ht ho hbad, State.healthFail_unpaired hu hp hf⟩

end

section
variable {s : State} {i : Nat}
  (hi : (natsFrom 1 5).find? (fun i => hasNat s.pwr.domRet (checkedCore (s.pwr.coreRot + i))) = some i)
include hi

theorem retentionCheck_passes : Gives (.retentionCheck true) s fun t =>
    t.pwr = { s.pwr with coreRot := (s.pwr.coreRot + i) % 5 } ∧ t.tk = s.tk := by
  unfold Gives
  rw [exec_retentionCheck, execRetentionCheck, hi]
  exact ⟨_, rfl, rfl, rfl⟩

theorem retentionCheck_fails_paired (ho : s.tk.hbOut = true) (hp : s.paired = true) : Gives (.retentionCheck false) s fun t =>
    t.tk.hbOut = false ∧ t.pwr = { s.pwr with coreRot := (s.pwr.coreRot + i) % 5 } := by
  unfold Gives
  rw [exec_retentionCheck, execRetentionCheck, hi]
  dsimp only
  rw [if_neg (by simp [ho]), State.healthFail_paired (s := s.updPwr _) hp]
  exact ⟨_, rfl, State.hbStop_hbOut _, State.hbStop_pwr _⟩

end

theorem supervisorTrim_counts (s : State) :
    Gives .supervisorTrim s fun t => t.pwr = { s.pwr with oscTrims := s.pwr.oscTrims + 1 } :=
  ⟨_, rfl, rfl⟩

/-! ## PWR_POLICY, PWR_QUERY (R518, R524, R525) -/

theorem not_isMoved_pwrPolicy0 : ¬ IsMoved Reg.pwrPolicy0 := by
  unfold IsMoved
  decide

theorem not_isMoved_pwrPolicy1 : ¬ IsMoved Reg.pwrPolicy1 := by
  unfold IsMoved
  decide

section
variable {s : State} {m : Master} {c : MbCmd}

theorem pwrPolicy_refused (hs : s.Starts m 0x0805 c) (hi : s.Inv) {st : Nat}
    (h : policyCheck s.part ((natsFrom 0 8).map (byteAt c.params)) = some st) : Gives (.pwrPolicy m) s fun t =>
      t.Ended m st ∧ t.pwr = s.pwr ∧ t.reg Reg.pwrPolicy0 = s.reg Reg.pwrPolicy0 ∧
        t.reg Reg.pwrPolicy1 = s.reg Reg.pwrPolicy1 := by
  have hk := s.finish_kept m st []
  refine ⟨_, ?_, hs.ends hi (t := s) rfl st, State.finish_pwr .., hk.reg_eq rfl not_isMoved_pwrPolicy0,
    hk.reg_eq rfl not_isMoved_pwrPolicy1⟩
  rw [exec_pwrPolicy, execPwrPolicy, State.runCmd_starts hs]
  dsimp only
  rw [h]

theorem pwrPolicy_taken (hs : s.Starts m 0x0805 c) (h : policyCheck s.part ((natsFrom 0 8).map (byteAt c.params)) = none) :
    ∃ u : State, u.regs = ((s.putReg Reg.pwrPolicy0 (BitVec.ofNat 32 (leAt c.params 0 4))).putReg Reg.pwrPolicy1
        (BitVec.ofNat 32 (leAt c.params 4 4))).regs ∧ u.pwr = s.pwr ∧
      exec (.pwrPolicy m) s = .next (u.applyPolicy.finish m stOk []) := by
  refine ⟨_, rfl, rfl, ?_⟩
  rw [exec_pwrPolicy, execPwrPolicy, State.runCmd_starts hs]
  dsimp only
  rw [h]

theorem length_leBytes (n v : Nat) : (leBytes n v).length = n := by
  induction n generalizing v with
  | zero => rfl
  | succ n ih => exact congrArg (· + 1) (ih _)

theorem length_readingBytes (n : Nat) (v : Int) : (readingBytes n v).length = n := length_leBytes n _

theorem pwrQuery_gives (hs : s.Starts m 0x0806 c) (hi : s.Inv) : Gives (.pwrQuery m) s fun t => t.Ended m stOk ∧ t.pwr = s.pwr ∧
    ∃ r, t.Yields m c (leBytes 1 s.pwr.mode.rank ++ leBytes 1 s.blockBits ++ zeroBytes 2 ++ r ++
      leBytes 14 (sumNat (s.pwr.domOn.map (fun d => 2 ^ d))) ++ zeroBytes 2) ∧ r.length = 12 := by
  have hy := fun res => State.finish_yields (s := { s with freeCtr := s.freeCtr + 5 }) hi.counts.masters hs.1 res
  refine ⟨_, ?_, (hy _).1, State.finish_pwr .., readingBytes 2 (s.measured 1) ++
    readingBytes 2 (State.measured { s with freeCtr := s.freeCtr + 1 } 2) ++
    readingBytes 4 (State.measured { s with freeCtr := s.freeCtr + 2 } 3) ++
    readingBytes 2 (State.measured { s with freeCtr := s.freeCtr + 3 } 4) ++
    readingBytes 2 (State.measured { s with freeCtr := s.freeCtr + 4 } 5), hy _, ?_⟩
  · rw [exec_pwrQuery, execPwrQuery, State.runCmd_starts hs]
    simp only [List.append_assoc, Nat.add_zero]
  · simp only [List.length_append, length_readingBytes]

end

/-! ## The statement -/

/-- Settles O30, each command by its own rules above. -/
theorem powerDomainsStatesAndHealth : Obligations.PowerDomainsStatesAndHealth := by
  unfold Obligations.PowerDomainsStatesAndHealth
  refine ⟨domainWake_gives, ?_, ?_, ?_, fun s w => evaluation_down, ?_, fun s a b => healthCheck_off,
    fun s i hi => ⟨retentionCheck_passes hi, retentionCheck_fails_paired hi⟩, supervisorTrim_counts,
    fun s m c hs hi => ⟨fun st => pwrPolicy_refused hs hi, pwrPolicy_taken hs⟩, fun s m c => pwrQuery_gives⟩
  · refine fun s d ok => ⟨domainOn_asleep ok, fun w hw hd =>
      ⟨?_, domainOn_lane ok hw hd, fun k => domainOn_stack ok hw hd⟩⟩
    obtain ⟨t, ht, l, hl⟩ := domainOn_powers ok hw hd
    exact ⟨t, ht, congrArg PwrSt.domOn hl, congrArg PwrSt.domRet hl, congrArg PwrSt.waking hl, (congrArg PwrSt.mode hl :)⟩
  · exact fun s d => ⟨domainIdle_active, domainIdle_stays, fun hm hon ha hn => ⟨domainIdle_retains hm hon ha hn,
      domainIdle_lane hm hon ha hn, domainIdle_engine hm hon ha hn, fun k => domainIdle_stack hm hon ha hn⟩⟩
  · intro s w hu ha
    refine ⟨evaluation_held hu ha, fun hh hm hw => ⟨fun h => ?_, fun h1 hl => ⟨fun hr => ?_, fun hr => ?_⟩⟩,
      fun hh hm => ⟨evaluation_wakes hu ha hh (.inl hm), evaluation_lull_stays hu ha hh hm, fun hw h2 hb hl =>
        ⟨fun hr => ?_, fun hr => ?_⟩, fun hw h => ?_⟩,
      fun hh hm => ⟨evaluation_wakes hu ha hh (.inr hm), evaluation_leaves_doze hu ha hh hm,
        evaluation_doze_stays hu ha hh hm⟩⟩
    · have hc := State.lullCount_high h
      simpa only [hc] using evaluation_counts_lull hu ha hh hm hw (.inl hc)
    · have hc := State.lullCount_low h1 hl
      simpa only [hc] using evaluation_counts_lull hu ha hh hm hw (.inr (hc ▸ hr))
    · have hc := State.lullCount_low h1 hl
      exact evaluation_enters_lull hu ha hh hm hw (hc ▸ Nat.succ_ne_zero _) (hc ▸ hr)
    · have hc := State.dozeCount_low h2 hb hl
      simpa only [hc] using evaluation_counts_doze hu ha hh hm hw (.inr (hc ▸ hr))
    · have hc := State.dozeCount_low h2 hb hl
      exact evaluation_enters_doze hu ha hh hm hw (hc ▸ Nat.succ_ne_zero _) (hc ▸ hr)
    · have hc := State.dozeCount_high h
      simpa only [hc] using evaluation_counts_doze hu ha hh hm hw (.inl hc)
  · exact fun s a b hu hx ht => ⟨healthCheck_starts hu hx ht, fun ha hb hk ho => healthCheck_goes_on hu hx ht ho ha hb hk,
      fun hbad ho => ⟨healthCheck_fails_paired hu hx ht ho hbad, healthCheck_fails_unpaired hu hx ht ho hbad⟩⟩

end Sys2Proof.Machine
end

section
/-! PROOFS. The pair key and the rekey of a namespace (R263, R374, R388). -/

namespace Sys2Proof.Machine

/-! ## PAIR_KEY_AGREEMENT_COMPLETE (R263, R388) -/

theorem pairKeyAgreement_gives {s : State} (hc : Config.hasCipher s.part = true) (hp : s.paired = true)
    (hk : s.kvt.st = .operational) :
    (Gives (.pairKeyAgreementComplete true) s fun t => t.kvt = { s.kvt with paired := true }) ∧
    (Gives (.pairKeyAgreementComplete false) s fun t => t.kvt = { s.kvt with paired := false } ∧
      ∃ u : State, u.regs = s.regs ∧ t = u.raiseFlag Reg.kvtStat 6) := by
  have hg : ¬ ((!Config.hasCipher s.part || !s.paired || !serving.any (fun x => x = s.kvt.st)) = true) := by
    simp [hc, hp, hk, serving]
  unfold Gives
  simp only [exec_pairKeyAgreementComplete, execPairKeyAgreementComplete, if_neg hg, if_true, Bool.false_eq_true, if_false]
  exact ⟨⟨_, rfl, foldl_frame (g := fun t : State => t.kvt) (fun t (x : TlsCtx) => t.sendXport_kvt x.conn) _ _⟩,
    _, rfl, rfl, s.updKvt (fun k => { k with paired := false }), rfl, rfl⟩

/-! ## Key slots and rekeys after a change -/

theorem State.findKey_putKey {s : State} {n : Nat} {f : KeySlot → KeySlot} (hf : ∀ k, (f k).slot = k.slot) :
    (s.putKey n f).findKey n = (s.findKey n).map (fun k => { f k with seq := k.seq + 1 }) := by
  have h : (s.putKey n f).kvt = (s.updKey n (fun k => { f k with seq := k.seq + 1 })).kvt := by
    unfold State.putKey
    dsimp only
    split
    · exact State.sendLine_kvt ..
    · rfl
  rw [State.findKey, h]
  exact State.findKey_updKey (s := s) hf

theorem State.putKey_rekeys (s : State) (n : Nat) (f : KeySlot → KeySlot) : (s.putKey n f).kvt.rekeys = s.kvt.rekeys := by
  unfold State.putKey
  dsimp only
  split
  · exact (congrArg KvtSt.rekeys (State.sendLine_kvt ..) :)
  · rfl

theorem State.find_updRekey {s : State} {n : Nat} {r : Rekey} {f : Rekey → Rekey} (hf : ∀ x, (f x).slot = x.slot)
    (hr : s.kvt.rekeys.find? (fun r => r.slot = n) = some r) :
    (s.updRekey n f).kvt.rekeys.find? (fun r => r.slot = n) = some (f r) :=
  (find_updWhere (p := fun r : Rekey => r.slot = n) (by simp [hf]) _).trans (congrArg (Option.map f) hr)

/-! ## REKEY_PIECE_LOADED (R374 step 2) -/

/-- A block of the members, decrypted under the old key, as a dirty entry with a new version. -/
def State.pieceEntry (s : State) (x : Ns) (b : Nat) (d : Block) : WbEntry :=
  ⟨x.vsid, x.nsid, b, s.hce.seq + 1, x.ring, s.unseal x b true d, 0, false, false, s.wtOn, false, false, s.now, 0, true⟩

/-- The entries of the write buffer that a loaded piece makes: of its blocks that the buffer does not hold and that are not
lost. -/
def State.pieceWrites (s : State) (x : Ns) (r : Rekey) (bs : List (Nat × Block)) : List WbEntry :=
  (bs.filter (fun e => r.region * 16384 + r.loaded * 512 ≤ e.1 && e.1 < r.region * 16384 + r.loaded * 512 + 512 &&
      (s.newest x.vsid x.nsid e.1).isNone && !s.isLost x.vsid x.nsid e.1)).map
    (fun e => s.pieceEntry x e.1 e.2)

/-- The piece is counted. -/
def State.pieceCounted (s : State) (n : Nat) : State :=
  s.updRekey n (fun x => { x with loading := true, loaded := x.loaded + 1 })

/-- The piece is counted, and its entries stand in the write buffer. -/
def State.pieceBuffered (s : State) (n : Nat) (ws : List WbEntry) : State :=
  (((s.pieceCounted n).updHce (fun x => { x with wb := x.wb ++ ws, seq := s.hce.seq + 1 })).wakeStacks).laneWork (256 * ws.length) 1

theorem State.pieceBuffered_hce (s : State) (n : Nat) (ws : List WbEntry) :
    (s.pieceBuffered n ws).hce = { s.hce with wb := s.hce.wb ++ ws, seq := s.hce.seq + 1 } := by
  unfold State.pieceBuffered
  rw [State.laneWork_hce, State.wakeStacks_hce]
  rfl

theorem State.pieceBuffered_kvt (s : State) (n : Nat) (ws : List WbEntry) : (s.pieceBuffered n ws).kvt = (s.pieceCounted n).kvt :=
  (Kept.laneWork (uu := { hce := true, pwr := true, pmu := true, moved := true, free := true }) (256 * ws.length) 1
    (Kept.wakeStacks (Kept.updHce _ (.refl (s.pieceCounted n)) rfl) rfl) rfl rfl rfl).only.kvt.resolve_left Bool.false_ne_true

section
variable {s : State} {n : Nat} {r : Rekey} {x : Ns} {k : KeySlot} (hr : s.kvt.rekeys.find? (fun r => r.slot = n) = some r)
  (hx : s.servedNs n = some x) (hk : s.findKey n = some k)
include hr hx hk

theorem rekeyPieceLoaded_waits {bs : List (Nat × Block)} (hp : s.pieceFree x k r = false) :
    exec (.rekeyPieceLoaded n bs) s = .next s := by
  rw [exec_rekeyPieceLoaded, execRekeyPieceLoaded, hr, hx, hk]
  exact if_pos (by simp [hp])

variable (hp : s.pieceFree x k r = true)
include hp

theorem exec_rekeyPieceLoaded_free (bs : List (Nat × Block)) : exec (.rekeyPieceLoaded n bs) s =
    if (s.pieceWrites x r bs).isEmpty then .next (s.pieceCounted n)
    else .next (((s.pieceBuffered n (s.pieceWrites x r bs)).mirSendAll (carryFrames true ((s.pieceWrites x r bs).map (fun w =>
      ⟨w.vsid, w.nsid, w.blk, w.ver, w.ring, w.wt, w.smask, w.data, []⟩)))).commitVersion (s.hce.seq + 1)) := by
  rw [exec_rekeyPieceLoaded, execRekeyPieceLoaded, hr, hx, hk]
  exact if_neg (by simp [hp])

theorem rekeyPieceLoaded_counts (bs : List (Nat × Block)) : Gives (.rekeyPieceLoaded n bs) s fun t =>
    t.kvt.rekeys.find? (fun r => r.slot = n) = some { r with loading := true, loaded := r.loaded + 1 } := by
  have hc : (s.pieceCounted n).kvt.rekeys.find? (fun r => r.slot = n) = some { r with loading := true, loaded := r.loaded + 1 } :=
    State.find_updRekey (by intro _; rfl) hr
  unfold Gives
  rw [exec_rekeyPieceLoaded_free hr hx hk hp]
  split
  · exact ⟨_, rfl, hc⟩
  · exact ⟨_, rfl, by simpa only [State.commitVersion_kvt, State.mirSendAll_kvt, State.pieceBuffered_kvt] using hc⟩

/-- A block of the piece that the buffer does not hold becomes dirty under a new version. -/
theorem rekeyPieceLoaded_dirties {b : Nat} {d : Block} (h1 : r.region * 16384 + r.loaded * 512 ≤ b)
    (h2 : b < r.region * 16384 + r.loaded * 512 + 512) (hn : (s.newest x.vsid x.nsid b).isNone = true)
    (hl : s.isLost x.vsid x.nsid b = false) :
    ∃ (u : State) (e : WbEntry), u.hce.wb = s.hce.wb ++ [e] ∧ e.vsid = x.vsid ∧ e.nsid = x.nsid ∧ e.blk = b ∧
      e.ver = s.hce.seq + 1 ∧ e.data = s.unseal x b true d ∧ u.hce.seq = s.hce.seq + 1 ∧
      ∃ ms, exec (.rekeyPieceLoaded n [(b, d)]) s =
        .next ((u.mirSendAll (carryFrames true ms)).commitVersion (s.hce.seq + 1)) := by
  have hw : s.pieceWrites x r [(b, d)] = [s.pieceEntry x b d] := by
    rw [State.pieceWrites, List.filter_cons_of_pos (by simp [h1, h2, hn, hl])]
    rfl
  refine ⟨s.pieceBuffered n (s.pieceWrites x r [(b, d)]), s.pieceEntry x b d, ?_, rfl, rfl, rfl, rfl, rfl, ?_,
    _, (exec_rekeyPieceLoaded_free hr hx hk hp _).trans (if_neg (by rw [hw]; exact Bool.false_ne_true))⟩
  · rw [State.pieceBuffered_hce, hw]
  · rw [State.pieceBuffered_hce]

end

/-! ## REKEY_REGION_DONE (R374 step 4) -/

/-- The key of a rekey that has passed a region: at the last one the old key goes. -/
theorem State.findKey_rekeyStep (s : State) (x : Ns) (r : Rekey) : (s.rekeyStep x r).findKey r.slot =
    if r.region + 1 < x.regions then s.findKey r.slot
    else (s.findKey r.slot).map (fun k => { k with oldMaterial := none, oldCount := 0, seq := k.seq + 1 }) := by
  unfold State.rekeyStep
  dsimp only
  split
  · rfl
  · exact State.findKey_putKey (f := fun k => { k with oldMaterial := none, oldCount := 0 }) (fun _ => rfl)

theorem State.find_rekeyStep_next {s : State} {x : Ns} {r : Rekey} (hr : s.kvt.rekeys.find? (fun y => y.slot = r.slot) = some r)
    (hx : r.region + 1 < x.regions) : (s.rekeyStep x r).kvt.rekeys.find? (fun y => y.slot = r.slot) =
      some { r with region := r.region + 1, loading := false, loaded := 0, curMseq := none } := by
  rw [State.rekeyStep, if_pos hx]
  exact State.find_updRekey (s := s.cacheDrop _) (by intro _; rfl) hr

theorem State.find_rekeyStep_last {s : State} {x : Ns} {r : Rekey} (hx : x.regions ≤ r.region + 1) :
    (s.rekeyStep x r).kvt.rekeys.find? (fun y => y.slot = r.slot) = none := by
  rw [State.rekeyStep, if_neg (Nat.not_lt.mpr hx)]
  exact List.find?_eq_none.mpr fun y hy => by simpa using (List.mem_filter.mp hy).2

section
variable {s : State} {n : Nat} {r : Rekey} {x : Ns} (hr : s.kvt.rekeys.find? (fun r => r.slot = n) = some r)
  (hx : s.servedNs n = some x)
include hr hx

section
variable {m : Nat} (hm : r.curMseq = some m)
include hm

theorem exec_rekeyRegionDone_sent : exec (.rekeyRegionDone n) s = if s.peerHolds m then .next (s.rekeyStep x r) else .next s := by
  rw [exec_rekeyRegionDone, execRekeyRegionDone, hr, hx]
  dsimp only
  rw [hm]

theorem rekeyRegionDone_waits (hh : s.peerHolds m = false) : exec (.rekeyRegionDone n) s = .next s := by
  rw [exec_rekeyRegionDone_sent hr hx hm, if_neg (by simp [hh])]

theorem rekeyRegionDone_next (hh : s.peerHolds m = true) (hl : r.region + 1 < x.regions) :
    Gives (.rekeyRegionDone n) s fun t => t.kvt.rekeys.find? (fun r => r.slot = n) =
      some { r with region := r.region + 1, loading := false, loaded := 0, curMseq := none } := by
  obtain rfl : r.slot = n := by simpa using List.find?_some hr
  refine ⟨s.rekeyStep x r, ?_, State.find_rekeyStep_next hr hl⟩
  rw [exec_rekeyRegionDone_sent hr hx hm, if_pos hh]

theorem rekeyRegionDone_ends (hh : s.peerHolds m = true) (hl : x.regions ≤ r.region + 1) :
    Gives (.rekeyRegionDone n) s fun t => t.kvt.rekeys.find? (fun r => r.slot = n) = none ∧ ∀ k, s.findKey n = some k →
      ∃ y, t.findKey n = some y ∧ y.oldMaterial = none ∧ y.material = k.material := by
  obtain rfl : r.slot = n := by simpa using List.find?_some hr
  refine ⟨s.rekeyStep x r, ?_, State.find_rekeyStep_last hl, fun k hk =>
    ⟨{ k with oldMaterial := none, oldCount := 0, seq := k.seq + 1 }, ?_, rfl, rfl⟩⟩
  · rw [exec_rekeyRegionDone_sent hr hx hm, if_pos hh]
  · rw [State.findKey_rekeyStep, if_neg (Nat.not_lt.mpr hl), hk]
    rfl

end

/-- With every piece loaded the key's CURSOR passes the region, whether the peer holds its line at once or later. -/
theorem rekeyRegionDone_cursor (hm : r.curMseq = none) (hl : 32 ≤ r.loaded) (ho : s.owns x.ring = true) {k : KeySlot}
    (hk : s.findKey n = some k) : Gives (.rekeyRegionDone n) s fun t =>
      ∃ y, t.findKey n = some y ∧ y.cursor = r.region + 1 := by
  obtain rfl : r.slot = n := by simpa using List.find?_some hr
  have hc : (s.putKey r.slot (fun k => { k with cursor := r.region + 1 })).findKey r.slot =
      some { k with cursor := r.region + 1, seq := k.seq + 1 } := by
    rw [State.findKey_putKey (by intro _; rfl), hk]
    rfl
  unfold Gives
  rw [exec_rekeyRegionDone, execRekeyRegionDone, hr, hx]
  dsimp only
  rw [hm]
  dsimp only
  rw [if_neg (by simp [ho, hl])]
  split
  · refine ⟨_, rfl, ?_⟩
    rw [State.findKey_rekeyStep]
    split
    · exact ⟨_, hc, rfl⟩
    · exact ⟨_, congrArg (Option.map _) hc, rfl⟩
  · exact ⟨_, rfl, _, hc, rfl⟩

end

end Sys2Proof.Machine
end

section
/-! PROOFS. MKA and TLS, and the statement of pair key, rekey, MKA and TLS (R378 to R384; alert codes log 7, the election of a
key server log 44). -/

namespace Sys2Proof.Machine

/-! ## MACsec ports -/

section
variable {s : State} {p : Nat} (hl : s.kvt.macsec.length = 4) (hp : p < 4)
include hl hp

theorem State.msPort_setMsPort (x : MacsecPort) : (s.setMsPort p x).msPort p = x := by
  simp only [State.msPort, State.setMsPort, State.updKvt_kvt, getD_setAt _ _ _ _ _ (hl ▸ hp), if_true]

/-- A frame sent changes the time of the next one alone (R378). -/
theorem State.msPort_mkaSend : (s.mkaSend p).msPort p = { s.msPort p with helloAt := some (s.now + sec 2) } :=
  State.msPort_setMsPort hl hp _

theorem State.msPort_mkaSend_setMsPort (x : MacsecPort) :
    ((s.setMsPort p x).mkaSend p).msPort p = { x with helloAt := some (s.now + sec 2) } := by
  rw [State.msPort_mkaSend ((length_setAt ..).trans hl) hp, State.msPort_setMsPort hl hp]
  rfl

end

theorem State.mkaSend_out (s : State) (p : Nat) : ∃ e, (s.mkaSend p).out = e :: s.out := ⟨_, rfl⟩

/-! ## MKA_FRAME_RECEIVE, MKA_HELLO (R378 to R380) -/

/-- A member's life restarts (R378). -/
def MacsecPort.heard (x : MacsecPort) (msg : MkaMsg) (at_ : Nat) : MacsecPort :=
  { x with members := x.members.filter (fun y => y.1 ≠ msg.member) ++ [(msg.member, msg.priority, at_)] }

/-- A SAK comes into use both ways, and packets are numbered anew (R379, R380). -/
def MacsecPort.installed (x : MacsecPort) (k : Nat) : MacsecPort :=
  { x with txSak := some k, rxSak := some k, newSak := none, txPn := 1 }

/-- The key server uses a distributed SAK once the member has installed it (R379). -/
def MacsecPort.confirmed (x : MacsecPort) (msg : MkaMsg) : MacsecPort :=
  if x.newSak.isSome && msg.sakInstalled = x.newSak then { x with txSak := x.newSak, rxSak := x.newSak, newSak := none, txPn := 1 }
  else x

theorem MacsecPort.confirmed_members (x : MacsecPort) (msg : MkaMsg) : (x.confirmed msg).members = x.members := by
  unfold MacsecPort.confirmed
  split <;> rfl

theorem mka_off {s : State} {p : Nat} {msg : MkaMsg} (ho : s.mkaOn p = false) :
    exec (.mkaFrameReceive p msg) s = .next s ∧ exec (.mkaHello p) s = .next s := by
  rw [exec_mkaFrameReceive, execMkaFrameReceive, exec_mkaHello, execMkaHello]
  exact ⟨if_pos (by simp [ho]), if_neg (by simp [ho])⟩

section
variable {s : State} {p : Nat} {msg : MkaMsg} (ho : s.mkaOn p = true)
include ho

theorem mkaFrameReceive_unauthentic (hi : msg.icvOk = false) : exec (.mkaFrameReceive p msg) s = .next (s.bump Reg.iclMsauth) := by
  rw [exec_mkaFrameReceive, execMkaFrameReceive, if_neg (by simp [ho]), if_pos (by simp [hi])]

section
variable (hi : msg.icvOk = true)
include hi

/-- The key server draws a new SAK where there is none in use or its packet numbers end (R379, R380). -/
theorem exec_mkaFrameReceive_server (hs : s.keyServer p ((s.msPort p).heard msg (s.now + sec 6)) = true) :
    exec (.mkaFrameReceive p msg) s =
      let x := ((s.msPort p).heard msg (s.now + sec 6)).confirmed msg
      if x.newSak.isNone && (x.txSak.isNone || (msg.sakInstalled = x.txSak && 2 ^ 62 ≤ msg.lowestPn)) then
        .next ((s.tookFree.setMsPort p { x with newSak := some s.freeNow }).mkaSend p)
      else .next (s.setMsPort p x) := by
  rw [exec_mkaFrameReceive, execMkaFrameReceive, if_neg (by simp [ho]), if_neg (by simp [hi])]
  exact if_pos hs

variable (hs : s.keyServer p ((s.msPort p).heard msg (s.now + sec 6)) = false)
include hs

theorem exec_mkaFrameReceive_without_sak (hk : msg.sak = none) :
    exec (.mkaFrameReceive p msg) s = .next (s.setMsPort p ((s.msPort p).heard msg (s.now + sec 6))) := by
  rw [exec_mkaFrameReceive, execMkaFrameReceive, if_neg (by simp [ho]), if_neg (by simp [hi]), hk]
  exact if_neg fun h => Bool.false_ne_true (hs.symm.trans h)

theorem exec_mkaFrameReceive_sak {k : Nat} (hk : msg.sak = some k) : exec (.mkaFrameReceive p msg) s =
    if (s.msPort p).txSak = some k then .next (s.setMsPort p ((s.msPort p).heard msg (s.now + sec 6)))
    else .next ((s.setMsPort p (((s.msPort p).heard msg (s.now + sec 6)).installed k)).mkaSend p) := by
  rw [exec_mkaFrameReceive, execMkaFrameReceive, if_neg (by simp [ho]), if_neg (by simp [hi]), hk]
  exact if_neg fun h => Bool.false_ne_true (hs.symm.trans h)

end

variable (hl : s.kvt.macsec.length = 4) (hp : p < 4)
include hl hp

theorem mkaHello_sends (hn : (s.msPort p).helloAt = none) : Gives (.mkaHello p) s fun t =>
    (t.msPort p).helloAt = some (s.now + sec 2) ∧ t.out ≠ s.out := by
  obtain ⟨e, he⟩ := s.mkaSend_out p
  refine ⟨s.mkaSend p, ?_, congrArg MacsecPort.helloAt (State.msPort_mkaSend hl hp), he ▸ List.cons_ne_self e s.out⟩
  rw [exec_mkaHello, execMkaHello]
  exact if_pos (by simp [ho, hn])

variable (hi : msg.icvOk = true)
include hi

/-- Whoever serves the keys, an authentic frame leaves its member on the list with a new life. -/
theorem mkaFrameReceive_renews : Gives (.mkaFrameReceive p msg) s fun t =>
    (msg.member, msg.priority, s.now + sec 6) ∈ (t.msPort p).members := by
  have hm : (msg.member, msg.priority, s.now + sec 6) ∈ ((s.msPort p).heard msg (s.now + sec 6)).members := by
    simp [MacsecPort.heard]
  have hset : ∀ x : MacsecPort, x.members = ((s.msPort p).heard msg (s.now + sec 6)).members →
      (msg.member, msg.priority, s.now + sec 6) ∈ ((s.setMsPort p x).msPort p).members := fun x hx => by
    rw [State.msPort_setMsPort hl hp, hx]
    exact hm
  have hsend : ∀ (t : State) (x : MacsecPort), t.kvt.macsec.length = 4 →
      x.members = ((s.msPort p).heard msg (s.now + sec 6)).members →
      (msg.member, msg.priority, s.now + sec 6) ∈ (((t.setMsPort p x).mkaSend p).msPort p).members := fun t x ht hx => by
    rw [State.msPort_mkaSend_setMsPort ht hp]
    exact hx ▸ hm
  unfold Gives
  cases hs : s.keyServer p ((s.msPort p).heard msg (s.now + sec 6)) with
  | true =>
    rw [exec_mkaFrameReceive_server ho hi hs]
    dsimp only
    split
    · exact ⟨_, rfl, hsend s.tookFree _ hl (MacsecPort.confirmed_members ..)⟩
    · exact ⟨_, rfl, hset _ (MacsecPort.confirmed_members ..)⟩
  | false =>
    cases hk : msg.sak with
    | none => exact ⟨_, exec_mkaFrameReceive_without_sak ho hi hs hk, hset _ rfl⟩
    | some k =>
      rw [exec_mkaFrameReceive_sak ho hi hs hk]
      split
      · exact ⟨_, rfl, hset _ rfl⟩
      · exact ⟨_, rfl, hsend s _ hl rfl⟩

/-- A participant that does not serve the keys installs the SAK that it is given (R379). -/
theorem mkaFrameReceive_installs {k : Nat} (hk : msg.sak = some k) (hn : (s.msPort p).txSak ≠ some k)
    (hs : s.keyServer p ((s.msPort p).heard msg (s.now + sec 6)) = false) : Gives (.mkaFrameReceive p msg) s fun t =>
      (t.msPort p).txSak = some k ∧ (t.msPort p).rxSak = some k ∧ (t.msPort p).newSak = none ∧ (t.msPort p).txPn = 1 := by
  have h := State.msPort_mkaSend_setMsPort hl hp (((s.msPort p).heard msg (s.now + sec 6)).installed k)
  unfold Gives
  rw [exec_mkaFrameReceive_sak ho hi hs hk, if_neg hn]
  exact ⟨_, rfl, congrArg MacsecPort.txSak h, congrArg MacsecPort.rxSak h, congrArg MacsecPort.newSak h,
    congrArg MacsecPort.txPn h⟩

end

/-! ## MKA_LIFE_EXPIRY (R378, R379) -/

section
variable {s : State} {p m pr d : Nat} (hl : s.kvt.macsec.length = 4) (hp : p < 4) (hm : (m, pr, d) ∈ (s.msPort p).members)
  (hd : d ≤ s.now)
include hl hp hm hd

theorem mkaLifeExpiry_drops {y : Nat × Nat × Nat} (hy : y ∈ (s.msPort p).members) (hne : y.1 ≠ m) :
    Gives (.mkaLifeExpiry p m) s fun t => (t.msPort p).members = (s.msPort p).members.filter (fun y => y.1 ≠ m) ∧
      (t.msPort p).txSak = (s.msPort p).txSak := by
  have hmem : y ∈ (s.msPort p).members.filter (fun y => y.1 ≠ m) := List.mem_filter.mpr ⟨hy, by simpa using hne⟩
  have h := State.msPort_setMsPort hl hp { s.msPort p with members := (s.msPort p).members.filter (fun y => y.1 ≠ m) }
  refine ⟨_, ?_, congrArg MacsecPort.members h, (congrArg MacsecPort.txSak h :)⟩
  rw [exec_mkaLifeExpiry, execMkaLifeExpiry]
  dsimp only
  rw [if_pos (List.any_eq_true.mpr ⟨_, hm, by simp [hd]⟩), if_neg]
  rw [List.isEmpty_iff]
  exact List.ne_nil_of_mem hmem

/-- With its last member the port loses its SAKs (R379). -/
theorem mkaLifeExpiry_last (ha : ∀ y ∈ (s.msPort p).members, y.1 = m) : ∃ u : State, (u.msPort p).members = [] ∧
    (u.msPort p).txSak = none ∧ (u.msPort p).rxSak = none ∧ exec (.mkaLifeExpiry p m) s =
      .next (if s.cfgBit (Reg.iclMscfg + 4 * p) 31 = true then u.portDown p else u) := by
  have hnil : (s.msPort p).members.filter (fun y => y.1 ≠ m) = [] := List.filter_eq_nil_iff.mpr fun y hy => by simpa using ha y hy
  have hu := State.msPort_setMsPort hl hp { helloAt := (s.msPort p).helloAt }
  refine ⟨s.setMsPort p { helloAt := (s.msPort p).helloAt }, congrArg MacsecPort.members hu, congrArg MacsecPort.txSak hu,
    congrArg MacsecPort.rxSak hu, ?_⟩
  rw [exec_mkaLifeExpiry, execMkaLifeExpiry]
  dsimp only
  rw [if_pos (List.any_eq_true.mpr ⟨_, hm, by simp [hd]⟩), if_pos (by rw [hnil]; rfl)]
  split <;> rfl

end

/-! ## CLIENT_HELLO, KEY_UPDATE_RECEIVE (R381 to R384) -/

section
variable {s : State} {n : Nat} {ids : List (List Byte)} {suite grp binder : Bool} {k : HConn} (hc : s.findConn n = some k)
  (htr : k.transport = .tcp) (hic : k.icDone = false) (htls : k.tls = false) (hci : Config.hasCipher s.part = true)
  (hst : s.kvt.st = .operational) (hact : s.mbx.activating = none)
include hc htr hic htls hci hst hact

theorem clientHello_unknown (hn : s.pskOf ids = none) :
    exec (.clientHello n ids suite grp binder) s = .next (s.tlsAlert n 115) := by
  rw [exec_clientHello, execClientHello, hc]
  dsimp only
  rw [if_neg (by simp [htr, hic, htls, hci, hst, hact, serving]), hn]

variable {p : Nat} (hp : s.pskOf ids = some p)
include hp

/-- With a known PSK the cipher suite, the group and the binder are checked in this order (R381, R382). -/
theorem exec_clientHello_psk : exec (.clientHello n ids suite grp binder) s =
    if !suite then .next (s.tlsAlert n 40)
    else if !grp then .next (s.emit (.tls n 6))
    else if !binder then .next (s.tlsAlert n 51)
    else .next ((((s.tookFree.tookFree.updConn n (fun x => { x with tls := true })).updKvt (fun v => { v with
      tls := v.tls ++ [⟨n, p, s.freeNow, s.tookFree.freeNow, 0, 0, none⟩] })).emit (.tls n 2)).sendXport n) := by
  rw [exec_clientHello, execClientHello, hc]
  dsimp only
  rw [if_neg (by simp [htr, hic, htls, hci, hst, hact, serving]), hp]

theorem clientHello_refused :
    (suite = false → exec (.clientHello n ids suite grp binder) s = .next (s.tlsAlert n 40)) ∧
    (suite = true → grp = false → exec (.clientHello n ids suite grp binder) s = .next (s.emit (.tls n 6))) ∧
    (suite = true → grp = true → binder = false → exec (.clientHello n ids suite grp binder) s = .next (s.tlsAlert n 51)) := by
  rw [exec_clientHello_psk hc htr hic htls hci hst hact hp]
  refine ⟨?_, ?_, ?_⟩
  · rintro rfl
    rfl
  · rintro rfl rfl
    rfl
  · rintro rfl rfl rfl
    rfl

theorem clientHello_accepts : Gives (.clientHello n ids true true true) s fun t =>
    t.kvt.tls = s.kvt.tls ++ [⟨n, p, s.freeNow, s.tookFree.freeNow, 0, 0, none⟩] ∧ s.Sent t (.tls n 2) ∧
      t.findConn n = some { k with tls := true } := by
  unfold Gives
  rw [exec_clientHello_psk hc htr hic htls hci hst hact hp]
  refine ⟨_, rfl, congrArg KvtSt.tls (State.sendXport_kvt ..), ?_, ?_⟩
  · exact .of_emit (a := (s.tookFree.tookFree.updConn n (fun x => { x with tls := true })).updKvt _) List.suffix_rfl
      (State.sendXport_kept _ n).out
  · rw [State.findConn, State.sendXport_hce]
    exact (State.findConn_updConn (s := s.tookFree.tookFree) (by intro _; rfl)).trans (congrArg (Option.map _) hc)

end

/-- The read key changes at once, whenever the peer comes to hold the change (R261, R384). -/
theorem keyUpdateReceive_changes {s : State} {n : Nat} {x : TlsCtx} (hx : s.kvt.tls.find? (fun t => t.conn = n) = some x) :
    Gives (.keyUpdateReceive n) s fun t =>
      t.kvt.tls.find? (fun t => t.conn = n) = some { x with rxKey := s.freeNow, rxCount := 0 } := by
  have hk : (updWhere (fun t : TlsCtx => t.conn = n) (fun t => { t with rxKey := s.freeNow, rxCount := 0 }) s.kvt.tls).find?
      (fun t => t.conn = n) = some { x with rxKey := s.freeNow, rxCount := 0 } :=
    (find_updWhere (p := fun t : TlsCtx => t.conn = n) (by simp) _).trans (congrArg (Option.map _) hx)
  unfold Gives
  rw [exec_keyUpdateReceive, execKeyUpdateReceive,
    if_pos (List.any_eq_true.mpr ⟨x, List.mem_of_find?_eq_some hx, List.find?_some hx⟩)]
  refine ⟨_, rfl, ?_⟩
  split
  · rw [State.sendXport_kvt]
    exact hk
  · rw [State.updConn_kvt, State.sendXport_kvt]
    exact hk

theorem keyUpdateReceive_unknown {s : State} {n : Nat} (hn : ∀ x ∈ s.kvt.tls, x.conn ≠ n) :
    exec (.keyUpdateReceive n) s = .next s := by
  rw [exec_keyUpdateReceive, execKeyUpdateReceive, if_neg (by simpa using hn)]

/-! ## The statement -/

/-- Settles O27, each command by its own rules above. -/
theorem rekeyMacsecAndTls : Obligations.RekeyMacsecAndTls := by
  unfold Obligations.RekeyMacsecAndTls
  refine ⟨fun s => pairKeyAgreement_gives, ?_, ?_, ?_, fun s p msg => mka_off, ?_, ?_, fun s n x => keyUpdateReceive_changes,
    fun s n => keyUpdateReceive_unknown⟩
  · rintro s n bs r x k hr hx hk
    refine ⟨fun hp => rekeyPieceLoaded_counts hr hx hk hp bs, ?_, rekeyPieceLoaded_waits hr hx hk⟩
    rintro hp b d rfl
    exact rekeyPieceLoaded_dirties hr hx hk hp
  · exact fun s n r x hr hx => ⟨fun m hm => rekeyRegionDone_next hr hx hm, fun m hm => rekeyRegionDone_ends hr hx hm,
      fun m hm => rekeyRegionDone_waits hr hx hm, fun hm hl ho k => rekeyRegionDone_cursor hr hx hm hl ho⟩
  · intro s p msg hinv ho hp
    have hl := hinv.counts.macsec
    refine ⟨mkaFrameReceive_unauthentic ho, mkaFrameReceive_renews ho hl hp, ?_, mkaHello_sends ho hl hp⟩
    rintro k x hi hk rfl hn hs
    exact mkaFrameReceive_installs ho hl hp hi hk hn hs
  · intro s p m pr d hinv hp hm hd
    have hl := hinv.counts.macsec
    exact ⟨fun y => mkaLifeExpiry_drops hl hp hm hd, mkaLifeExpiry_last hl hp hm hd⟩
  · intro s n ids suite grp binder k hc htr hic htls hci hst hact
    refine ⟨clientHello_unknown hc htr hic htls hci hst hact, fun p hp => ?_⟩
    obtain ⟨h1, h2, h3⟩ := clientHello_refused (suite := suite) (grp := grp) (binder := binder) hc htr hic htls hci hst hact hp
    refine ⟨h1, h2, h3, ?_⟩
    rintro rfl rfl rfl
    exact clientHello_accepts hc htr hic htls hci hst hact hp

end Sys2Proof.Machine
end

section
/-! PROOFS. Propagation between the modules (R283, R293, R389, R405, R408), firmware (R430 to R434) and PLDM (R435, R621; PLDM
codes log 7, readings log 4, a commit beside a slot write log 87). -/

namespace Sys2Proof.Machine

/-! ## The mailbox beside its commands -/

/-- The end of a command leaves all of the mailbox but its commands and what it holds for the masters (R417). -/
theorem State.finish_mbx_eq (s : State) (m : Master) (st : Nat) (res : List Byte) :
    ∃ cs hs, (s.finish m st res).mbx = { s.mbx with cmds := cs, held := hs } :=
  ⟨(s.finish m st res).mbx.cmds, (s.finish m st res).mbx.held,
    congrArg (fun x : MbxSt => { x with cmds := (s.finish m st res).mbx.cmds, held := (s.finish m st res).mbx.held })
      (s.finish_seat m st res)⟩

theorem State.fwSlot_finish (s : State) (m : Master) (st : Nat) (res : List Byte) (k : Nat) :
    (s.finish m st res).fwSlot k = s.fwSlot k := by
  obtain ⟨_, _, hm⟩ := s.finish_mbx_eq m st res
  rw [State.fwSlot, hm]
  rfl

/-- The record of a command that stays outstanding inside its operation (R421). -/
theorem State.cmdOf_keepRunning_eq {s t : State} {m : Master} {c : MbCmd} (hc : s.cmdOf m = some c)
    (hcmds : t.mbx.cmds = s.mbx.cmds) : (t.keepRunning m).cmdOf m = some { c with running := true } :=
  (find_updWhere (p := fun x : MbCmd => x.m = m) (f := fun x => { x with running := true }) (fun _ hx => hx) t.mbx.cmds).trans
    (congrArg (Option.map fun x : MbCmd => { x with running := true }) ((congrArg (List.find? _) hcmds).trans hc))

/-- A waiting command of an opcode ends with the status (R432, R433). -/
theorem State.finishOp_ended {t : State} {op st : Nat} {c : MbCmd} (hl : t.mbx.held.length = 4)
    (hc : t.mbx.cmds.find? (fun c => c.opcode = op && c.running) = some c) : (t.finishOp op st).Ended c.m st := by
  have hsome : (t.cmdOf c.m).isSome := by
    rw [State.cmdOf, List.find?_isSome]
    exact ⟨c, List.mem_of_find?_eq_some hc, by simp⟩
  obtain ⟨d, hd⟩ := Option.isSome_iff_exists.mp hsome
  rw [State.finishOp, hc]
  exact State.finish_ended hl hd st []

theorem State.finishOp_mbx_eq (s : State) (op st : Nat) :
    ∃ cs hs, (s.finishOp op st).mbx = { s.mbx with cmds := cs, held := hs } := by
  unfold State.finishOp
  split
  · exact s.finish_mbx_eq ..
  · exact ⟨_, _, rfl⟩

/-! ## MGMT_PROPAGATION (R143, R283, R293, R389) -/

theorem State.replyPeer_kept (s : State) (st : Nat) : Kept { out := true, xbr := true } s (s.replyPeer st) :=
  Kept.replyPeer st (.refl s) rfl rfl

theorem State.replyPeer_sent (s : State) (st : Nat) : s.Sent (s.replyPeer st) (.reply .peer 0 st 0 []) :=
  (State.Sent.emit s _).later (Kept.mgmtPeer (uu := { out := true, xbr := true }) 68 (.refl _) rfl rfl).out

/-- An answer to the peer is all that happens: stores, keys and rings stay. -/
theorem State.answerPeer_gives (s : State) (st : Nat) : s.Sent (s.answerPeer st) (.reply .peer 0 st 0 []) ∧
    (s.answerPeer st).vsm = s.vsm ∧ (s.answerPeer st).kvt = s.kvt ∧ (s.answerPeer st).rge = s.rge :=
  have hk := (s.replyPeer_kept st).only
  ⟨s.replyPeer_sent st, hk.vsm.resolve_left Bool.false_ne_true, hk.kvt.resolve_left Bool.false_ne_true,
    hk.rge.resolve_left Bool.false_ne_true⟩

theorem mgmtPropagation_unpaired {s : State} (hp : s.paired = false) (p : Propagation) :
    exec (.mgmtPropagation p) s = .next s := by
  rw [exec_mgmtPropagation, execMgmtPropagation, if_neg (by simp [hp])]

section
variable {s : State} {p : Propagation} (hp : s.paired = true)
include hp

theorem exec_mgmtPropagation_paired : exec (.mgmtPropagation p) s = .next (s.takePropagation p.opcode p.params) := by
  rw [exec_mgmtPropagation, execMgmtPropagation, if_pos hp]

theorem mgmtPropagation_refused {st : Nat} (h : s.planPeer p.opcode p.params = .error st) :
    Gives (.mgmtPropagation p) s fun t =>
      s.Sent t (.reply .peer 0 st 0 []) ∧ t.vsm = s.vsm ∧ t.kvt = s.kvt ∧ t.rge = s.rge := by
  refine ⟨s.answerPeer st, ?_, s.answerPeer_gives st⟩
  rw [exec_mgmtPropagation_paired hp, State.takePropagation, h]

variable {u : State} {r : List Byte} (h : s.planPeer p.opcode p.params = .ok (u, r))
include h

theorem mgmtPropagation_nsDelete (ho : p.opcode = 0x0507) : exec (.mgmtPropagation p) s = .next u := by
  rw [exec_mgmtPropagation_paired hp, State.takePropagation, h]
  exact congrArg _ (if_pos ho)

theorem mgmtPropagation_applied (ho : p.opcode ≠ 0x0507) : Gives (.mgmtPropagation p) s fun t =>
    u.Sent t (.reply .peer 0 stOk 0 []) ∧ t.vsm = u.vsm ∧ t.kvt = u.kvt ∧ t.rge = u.rge := by
  refine ⟨u.answerPeer stOk, ?_, u.answerPeer_gives stOk⟩
  rw [exec_mgmtPropagation_paired hp, State.takePropagation, h]
  exact congrArg _ (if_neg ho)

end

/-! ## MGMT_FRAME_RECEIVE (R283, R405, R408) -/

section
variable {s : State} {fid k : Nat} {p : List Byte}

theorem mgmtFrameReceive_strangerPacket (hk : k = 1) (h : s.paired = false ∨ fid ≠ s.rfx.peer.fid) :
    exec (.mgmtFrameReceive fid k p) s = .next (s.bump Reg.mbxReject) := by
  rw [exec_mgmtFrameReceive, execMgmtFrameReceive, if_pos hk, if_neg]
  rw [← State.paired]
  rcases h with h | h <;> simp [h]

theorem mgmtFrameReceive_stranger (hk : k ≠ 1) (h : s.paired = false ∨ fid ≠ s.rfx.peer.fid ∨ 3 < k ∨ k = 0) :
    exec (.mgmtFrameReceive fid k p) s = .next s := by
  rw [exec_mgmtFrameReceive, execMgmtFrameReceive, if_neg hk]
  by_cases hd : s.paired = false ∨ fid ≠ s.rfx.peer.fid
  · rw [if_pos]
    rcases hd with hd | hd <;> simp [hd]
  · have hk' : 3 < k ∨ k = 0 := by tauto
    rw [if_neg (by simpa using hd), if_neg (by omega), if_neg (by omega)]

section
variable (hp : s.paired = true) (hf : fid = s.rfx.peer.fid)
include hp hf

theorem mgmtFrameReceive_packet (hk : k = 1) : exec (.mgmtFrameReceive fid k p) s = .next (s.route .peer p) := by
  rw [exec_mgmtFrameReceive, execMgmtFrameReceive, if_pos hk, if_pos]
  rw [← State.paired]
  simp [hp, hf]

theorem mgmtFrameReceive_propagation (hk : k = 3) : exec (.mgmtFrameReceive fid k p) s =
    exec (.mgmtPropagation ⟨leAt p 0 2, slice p 64 (leAt p 12 2)⟩) s := by
  rw [exec_mgmtPropagation_paired hp, exec_mgmtFrameReceive, execMgmtFrameReceive, if_neg (by omega), if_neg (by simp [hp, hf]),
    if_neg (by omega), if_pos hk]

theorem exec_mgmtFrameReceive_reply (hk : k = 2) :
    exec (.mgmtFrameReceive fid k p) s = .next (s.takeReply (leAt p 2 2) (leAt p 0 2)) := by
  rw [exec_mgmtFrameReceive, execMgmtFrameReceive, if_neg (by omega), if_neg (by simp [hp, hf]), if_pos hk]

theorem mgmtFrameReceive_unasked (hk : k = 2) (hn : ∀ r ∈ s.props, r.opcode ≠ leAt p 2 2) :
    exec (.mgmtFrameReceive fid k p) s = .next s := by
  rw [exec_mgmtFrameReceive_reply hp hf hk, State.takeReply, List.find?_eq_none.mpr (by simpa using hn)]

variable (hk : k = 2) (hi : s.Inv) {r : PropRec} {c : MbCmd} (hr : s.props.find? (fun r => r.opcode = leAt p 2 2) = some r)
  (hc : s.cmdOf r.m = some c)
include hk hi hr hc

theorem mgmtFrameReceive_completes (hst : leAt p 0 2 = stOk) (ho : r.opcode ≠ 0x0507) :
    Gives (.mgmtFrameReceive fid k p) s fun t => t.Ended r.m stOk ∧ t.props = s.props.erase r ∧ t.vsm = s.vsm := by
  refine ⟨State.finish { s with props := s.props.erase r } r.m stOk r.result, ?_,
    State.finish_ended (s := { s with props := s.props.erase r }) hi.counts.masters hc _ _,
    State.finish_props .., State.finish_vsm ..⟩
  rw [exec_mgmtFrameReceive_reply hp hf hk, State.takeReply, hr]
  dsimp only
  rw [if_pos hst, State.propDone, if_neg (by simp [ho])]

theorem mgmtFrameReceive_undoes (hst : leAt p 0 2 ≠ stOk) (ho : r.opcode / 256 = 5) :
    Gives (.mgmtFrameReceive fid k p) s fun t => t.Ended r.m (leAt p 0 2) ∧ t.props = s.props.erase r ∧
      t.vsm.subs = s.vsm.subs.filter (fun x => x.vsid ≠ r.vsid) ++ r.subs ∧
      t.vsm.nss = s.vsm.nss.filter (fun n => n.vsid ≠ r.vsid) ++ r.nss := by
  have hu : ∀ v : State, v.undo r = v.updVsm (fun m => { m with
      subs := m.subs.filter (fun x => x.vsid ≠ r.vsid) ++ r.subs
      nss := m.nss.filter (fun n => n.vsid ≠ r.vsid) ++ r.nss }) := fun v => if_pos ho
  unfold Gives
  rw [exec_mgmtFrameReceive_reply hp hf hk, State.takeReply, hr]
  dsimp only
  rw [if_neg hst, hu]
  refine ⟨_, rfl, State.ends_of_mail hi hc (by rfl) (by rfl) _ _, State.finish_props .., ?_, ?_⟩
  · rw [State.finish_vsm]
    rfl
  · rw [State.finish_vsm]
    rfl

end
end

/-! ## FW_DOWNLOAD, FW_COMMIT, FW_COMMIT_DONE (R431, R432; log 87) -/

section
variable {s : State} {m : Master} {c : MbCmd} {o : Nat} {bs : List Byte} (hs : s.Starts m 0x0701 c) (hi : s.Inv)
  (ho : o = leAt c.params 0 4) (hb : bs = c.params.drop 4)
include hs hi ho hb

theorem fwDownload_fills (h : o + bs.length ≤ stageSize) : Gives (.fwDownload m) s fun t => t.Ended m stOk ∧
    t.mbx.stage = cellWrites s.mbx.stage o bs ∧ t.mbx.stagedTop = Nat.max s.mbx.stagedTop (o + bs.length) := by
  obtain ⟨_, _, hm⟩ := (s.stageBytes o bs).finish_mbx_eq m stOk []
  refine ⟨(s.stageBytes o bs).finish m stOk [], ?_, State.ends_of_mail hi hs.1 (by rfl) (by rfl) _ _,
    by rw [hm]; rfl, by rw [hm]; rfl⟩
  rw [exec_fwDownload, execFwDownload, State.runCmd_starts hs]
  dsimp only
  rw [← ho, ← hb, State.checked_ok (by simp [firstFail, Nat.not_lt.mpr h])]

theorem fwDownload_refused (h : stageSize < o + bs.length) : Gives (.fwDownload m) s fun t =>
    t.Ended m stInvalidParam ∧ t.mbx.stage = s.mbx.stage := by
  obtain ⟨_, _, hm⟩ := s.finish_mbx_eq m stInvalidParam []
  refine ⟨s.finish m stInvalidParam [], ?_, hs.ends hi rfl _, by rw [hm]⟩
  rw [exec_fwDownload, execFwDownload, State.runCmd_starts hs]
  dsimp only
  rw [← ho, ← hb, State.checked_fail (st := stInvalidParam) (by simp [firstFail, h])]

end

theorem State.fwSlot_beginCommit (s : State) {k : Nat} (hk : k ≤ 1) (b : Bool) :
    (s.beginCommit k b).fwSlot k = ⟨false, 0, 0⟩ ∧ (s.beginCommit k b).fwSlot (1 - k) = s.fwSlot (1 - k) := by
  obtain rfl | rfl : k = 0 ∨ k = 1 := by omega
  · exact ⟨rfl, rfl⟩
  · exact ⟨rfl, rfl⟩

/-- A slot's record replaced leaves the rest of the mailbox. -/
theorem State.setSlot_mbx_eq (s : State) (k : Nat) (x : FwSlot) :
    ∃ y z, (s.setSlot k x).mbx = { s.mbx with slot0 := y, slot1 := z } := by
  simp only [State.setSlot, State.updMbx_mbx]
  split
  · exact ⟨_, _, rfl⟩
  · exact ⟨_, _, rfl⟩

theorem State.beginCommit_cmds (s : State) (k : Nat) (b : Bool) : (s.beginCommit k b).mbx.cmds = s.mbx.cmds := by
  obtain ⟨_, _, hx⟩ := s.setSlot_mbx_eq k ⟨false, 0, 0⟩
  rw [State.beginCommit, State.updMbx_mbx, hx]

section
variable {s : State} {m : Master} {c : MbCmd} {k : Nat} (hs : s.Starts m 0x0702 c) (hk : k = byteAt c.params 0)
  (hk1 : k ≤ 1) (hf : byteAt c.params 1 ≤ 1)
include hs hk hk1 hf

/-- FW_COMMIT with its parameters in range: the slot write under way and the checks of R432 are left. -/
theorem exec_fwCommit_inRange : exec (.fwCommit m) s = .next (s.checked m
    ((s.mbx.commitSlot.isSome, stBusy) :: s.commitChecks k)
    (fun t => (t.beginCommit k (decide (byteAt c.params 1 = 1))).keepRunning m)) := by
  have h0 : (decide (1 < k) || decide (1 < byteAt c.params 1)) = false := by simp [hk1, hf]
  rw [exec_fwCommit, execFwCommit, State.runCmd_starts hs]
  dsimp only
  rw [← hk, h0]
  rfl

theorem fwCommit_busy (hi : s.Inv) (hn : s.mbx.commitSlot ≠ none) : Gives (.fwCommit m) s fun t =>
    t.Ended m stBusy ∧ t.mbx.commitSlot = s.mbx.commitSlot := by
  obtain ⟨_, _, hm⟩ := s.finish_mbx_eq m stBusy []
  refine ⟨s.finish m stBusy [], ?_, hs.ends hi rfl _, by rw [hm]⟩
  rw [exec_fwCommit_inRange hs hk hk1 hf, State.checked_fail]
  rw [Option.isSome_iff_ne_none.mpr hn]
  rfl

variable (hn : s.mbx.commitSlot = none)
include hn

theorem fwCommit_refused (hi : s.Inv) {st : Nat} (h : firstFail (s.commitChecks k) = some st) : Gives (.fwCommit m) s fun t =>
    t.Ended m st ∧ t.fwSlot 0 = s.fwSlot 0 ∧ t.fwSlot 1 = s.fwSlot 1 := by
  refine ⟨s.finish m st [], ?_, hs.ends hi rfl _, State.fwSlot_finish .., State.fwSlot_finish ..⟩
  rw [exec_fwCommit_inRange hs hk hk1 hf, State.checked_fail]
  rw [hn]
  exact h

theorem fwCommit_erases (h : firstFail (s.commitChecks k) = none) : Gives (.fwCommit m) s fun t =>
    t.cmdOf m = some { c with running := true } ∧ t.mbx.commitSlot = some (k, decide (byteAt c.params 1 = 1)) ∧
    t.fwSlot k = ⟨false, 0, 0⟩ ∧ t.fwSlot (1 - k) = s.fwSlot (1 - k) := by
  refine ⟨(s.beginCommit k (decide (byteAt c.params 1 = 1))).keepRunning m, ?_,
    State.cmdOf_keepRunning_eq hs.1 (s.beginCommit_cmds ..), rfl,
    s.fwSlot_beginCommit hk1 (decide (byteAt c.params 1 = 1))⟩
  rw [exec_fwCommit_inRange hs hk hk1 hf, State.checked_ok]
  rw [hn]
  exact h

end

/-- The slot is written and read back, the staging area cleared (R431, R432). -/
def State.slotWritten (s : State) (k : Nat) (b : Bool) : State :=
  (s.setSlot k ⟨true, s.staged 8 8, s.staged 0x10 4⟩).updMbx (fun x => { x with
    commitSlot := none, minSvn := if b then Nat.max x.minSvn (s.staged 0x10 4) else x.minSvn, stage := [], stagedTop := 0,
    pldm := if x.pldm = 2 then 3 else x.pldm })

section
variable {s : State} {k : Nat} {b : Bool} (h : s.mbx.commitSlot = some (k, b))
include h

theorem exec_fwCommitDone_writing : exec .fwCommitDone s = .next ((s.slotWritten k b).finishOp 0x0702 stOk) := by
  rw [exec_fwCommitDone, execFwCommitDone, h]
  rfl

theorem fwCommitDone_writes (hk : k ≤ 1) : Gives .fwCommitDone s fun t =>
    t.fwSlot k = ⟨true, s.staged 8 8, s.staged 0x10 4⟩ ∧
    t.mbx.commitSlot = none ∧ t.mbx.stage = [] ∧
    t.mbx.minSvn = (if b = true then Nat.max s.mbx.minSvn (s.staged 0x10 4) else s.mbx.minSvn) := by
  obtain ⟨_, _, hm⟩ := (s.slotWritten k b).finishOp_mbx_eq 0x0702 stOk
  obtain ⟨_, _, hx⟩ := s.setSlot_mbx_eq k ⟨true, s.staged 8 8, s.staged 0x10 4⟩
  refine ⟨_, exec_fwCommitDone_writing h, ?_, by rw [hm]; rfl, by rw [hm]; rfl, ?_⟩
  · rw [State.fwSlot, hm]
    obtain rfl | rfl : k = 0 ∨ k = 1 := by omega
    · rfl
    · rfl
  · rw [hm]
    simp only [State.slotWritten, State.updMbx_mbx, hx]

theorem fwCommitDone_ends (hi : s.Inv) {c : MbCmd} (hc : s.mbx.cmds.find? (fun c => c.opcode = 0x0702 && c.running) = some c) :
    Gives .fwCommitDone s fun t => t.Ended c.m stOk := by
  obtain ⟨_, _, hx⟩ := s.setSlot_mbx_eq k ⟨true, s.staged 8 8, s.staged 0x10 4⟩
  have hheld : (s.slotWritten k b).mbx.held = s.mbx.held := by simp only [State.slotWritten, State.updMbx_mbx, hx]
  have hcmds : (s.slotWritten k b).mbx.cmds = s.mbx.cmds := by simp only [State.slotWritten, State.updMbx_mbx, hx]
  exact ⟨_, exec_fwCommitDone_writing h, State.finishOp_ended (hheld ▸ hi.counts.masters) (hcmds ▸ hc)⟩

end

theorem fwCommitDone_idle {s : State} (h : s.mbx.commitSlot = none) : exec .fwCommitDone s = .next s := by
  rw [exec_fwCommitDone, execFwCommitDone, h]

/-! ## FW_ACTIVATE, ACTIVATION_COMPLETE, FW_STATUS (R433, R434, R446) -/

section
variable {s : State} {m : Master} {c : MbCmd} {k : Nat} (hs : s.Starts m 0x0703 c) (hk : k = byteAt c.params 0)
include hs hk

theorem exec_fwActivate_starts : exec (.fwActivate m) s =
    .next (s.checked m (s.activateChecks k) (fun t => (t.beginActivate k).keepRunning m)) := by
  rw [exec_fwActivate, execFwActivate, State.runCmd_starts hs, hk]

theorem fwActivate_refused (hi : s.Inv) {st : Nat} (h : firstFail (s.activateChecks k) = some st) :
    Gives (.fwActivate m) s fun t => t.Ended m st ∧ t.mbx.activating = s.mbx.activating := by
  obtain ⟨_, _, hm⟩ := s.finish_mbx_eq m st []
  refine ⟨s.finish m st [], ?_, hs.ends hi rfl _, by rw [hm]⟩
  rw [exec_fwActivate_starts hs hk, State.checked_fail h]

theorem fwActivate_starts (h : firstFail (s.activateChecks k) = none) : Gives (.fwActivate m) s fun t =>
    t.cmdOf m = some { c with running := true } ∧ t.mbx.activating = some (k, s.now + ms 500) ∧
    t.mbx.prevSlot = s.mbx.runSlot ∧ t.mbx.runSlot = s.mbx.runSlot := by
  refine ⟨(s.beginActivate k).keepRunning m, ?_, State.cmdOf_keepRunning_eq hs.1 rfl, rfl, rfl, rfl⟩
  rw [exec_fwActivate_starts hs hk, State.checked_ok h]

end

/-- The new firmware runs and FW_ACTIVATE completes (R433 step 3), before the admin commands that waited go on. -/
theorem activationComplete_gives {s : State} {k d : Nat} (h : s.mbx.activating = some (k, d)) : ∃ u : State,
    u.mbx.activating = none ∧ u.mbx.runSlot = k ∧ u.mbx.bootSlot = k ∧
    (∀ c, s.Inv → s.mbx.cmds.find? (fun c => c.opcode = 0x0703 && c.running) = some c → u.Ended c.m stOk) ∧
    exec .activationComplete s = .next u.adminAll := by
  have hv := (s.updMbx (fun x => { x with
    activating := none, runSlot := k, bootSlot := k, pldm := if x.pldm = 3 then 0 else x.pldm })).sepEvent_mbx 2
  obtain ⟨_, _, hm⟩ := ((s.updMbx (fun x => { x with
    activating := none, runSlot := k, bootSlot := k,
    pldm := if x.pldm = 3 then 0 else x.pldm })).sepEvent 2).finishOp_mbx_eq 0x0703 stOk
  refine ⟨_, by rw [hm, hv]; rfl, by rw [hm, hv]; rfl, by rw [hm, hv]; rfl,
    fun c hi hc => State.finishOp_ended (by rw [hv]; exact hi.counts.masters) (by rw [hv]; exact hc), ?_⟩
  rw [exec_activationComplete, execActivationComplete, h]

theorem fwStatus_gives {s : State} {m : Master} {c : MbCmd} (hs : s.Starts m 0x0704 c) (hi : s.Inv) :
    Gives (.fwStatus m) s fun t =>
    t.mbx.stage = s.mbx.stage ∧ t.Yields m c
    ((if s.mbx.slot0.valid = true then leBytes 8 s.mbx.slot0.version ++ leBytes 4 s.mbx.slot0.svn else zeroBytes 12) ++
     (if s.mbx.slot1.valid = true then leBytes 8 s.mbx.slot1.version ++ leBytes 4 s.mbx.slot1.svn else zeroBytes 12) ++
      leBytes 4 s.mbx.stagedTop ++ leBytes 4 s.fwstat.toNat) := by
  unfold Gives
  rw [exec_fwStatus, execFwStatus, State.runCmd_starts hs]
  refine ⟨_, rfl, ?_, State.finish_yields hi.counts.masters hs.1 _⟩
  obtain ⟨_, _, hm⟩ := s.finish_mbx_eq m stOk _
  rw [hm]

/-! ## PLDM: the firmware update of the BMC (R406, R435; log 7) -/

theorem pldmRequestUpdate_gives (s : State) :
    (s.isOwner .bmc = true → Gives .pldmRequestUpdate s fun t => t.mbx = { s.mbx with pldm := 1 } ∧
      s.Sent t (.reply .bmc 0x10 0 0 [])) ∧
    (s.isOwner .bmc = false → exec .pldmRequestUpdate s = .next (s.emit (.reply .bmc 0x10 4 0 []))) := by
  unfold Gives
  rw [exec_pldmRequestUpdate, execPldmRequestUpdate]
  refine ⟨fun ho => ?_, fun ho => if_neg (by simp [ho])⟩
  rw [if_pos ho]
  exact ⟨_, rfl, rfl, (State.Sent.emit _ _).before List.suffix_rfl⟩

theorem pldmComponentTransfer_gives (s : State) (o : Nat) (bs : List Byte) :
    (s.mbx.pldm = 1 → o + bs.length ≤ stageSize → Gives (.pldmComponentTransfer o bs) s fun t =>
      t.mbx = { s.mbx with stage := cellWrites s.mbx.stage o bs, stagedTop := Nat.max s.mbx.stagedTop (o + bs.length) }) ∧
    (s.mbx.pldm ≠ 1 ∨ stageSize < o + bs.length → exec (.pldmComponentTransfer o bs) s = .next s) := by
  unfold Gives
  rw [exec_pldmComponentTransfer, execPldmComponentTransfer]
  refine ⟨fun hp hl => ?_, fun h => if_neg ?_⟩
  · rw [if_pos (by simp [hp, hl])]
    exact ⟨_, rfl, rfl⟩
  · rcases h with h | h
    · simp [h]
    · simp [Nat.not_le.mpr h]

section
variable {s : State} {k : Nat} (hk : k = 1 - s.mbx.runSlot)

theorem pldmVerifyApply_lapses (h : s.mbx.pldm ≠ 1 ∨ s.mbx.commitSlot ≠ none) : exec .pldmVerifyApply s = .next s := by
  rw [exec_pldmVerifyApply, execPldmVerifyApply, if_pos]
  rcases h with h | h
  · simp [h]
  · simp [Option.isSome_iff_ne_none.mpr h]

section
variable (hp : s.mbx.pldm = 1) (hn : s.mbx.commitSlot = none)
include hk hp hn

theorem pldmVerifyApply_refused {st : Nat} (h : firstFail (s.commitChecks k) = some st) :
    exec .pldmVerifyApply s = .next (s.emit (.reply .bmc 0x17 st 0 [])) := by
  rw [exec_pldmVerifyApply, execPldmVerifyApply, if_neg (by simp [hp, hn])]
  dsimp only
  rw [← hk, h]
  rfl

theorem pldmVerifyApply_commits (h : firstFail (s.commitChecks k) = none) : Gives .pldmVerifyApply s fun t =>
    t.mbx.commitSlot = some (k, false) ∧ t.mbx.pldm = 2 ∧ t.fwSlot k = ⟨false, 0, 0⟩ ∧
      s.Sent t (.reply .bmc 0x17 0 0 []) := by
  refine ⟨((s.beginCommit k false).updMbx (fun x => { x with pldm := 2 })).pldmReply 0x17 0 [], ?_, rfl, rfl,
    (s.fwSlot_beginCommit (by omega) false).1, (State.Sent.emit _ _).before ?_⟩
  · rw [exec_pldmVerifyApply, execPldmVerifyApply, if_neg (by simp [hp, hn])]
    dsimp only
    rw [← hk, h]
  · exact (Kept.beginCommit (uu := { mbx := true }) k false (.refl s) rfl).out

end

theorem pldmActivateFirmware_lapses (h : s.mbx.pldm ≠ 3 ∨ s.mbx.cmds ≠ [] ∨ s.mbx.activating ≠ none) :
    exec .pldmActivateFirmware s = .next s := by
  rw [exec_pldmActivateFirmware, execPldmActivateFirmware, if_pos]
  rcases h with h | h | h
  · simp [h]
  · simp [h]
  · simp [Option.isSome_iff_ne_none.mpr h]

variable (hp : s.mbx.pldm = 3) (hc : s.mbx.cmds = []) (hn : s.mbx.activating = none)
include hk hp hc hn

theorem pldmActivateFirmware_refused {st : Nat} (h : firstFail (s.activateChecks k) = some st) :
    exec .pldmActivateFirmware s = .next (s.emit (.reply .bmc 0x1A st 0 [])) := by
  rw [exec_pldmActivateFirmware, execPldmActivateFirmware, if_neg (by simp [hp, hc, hn])]
  dsimp only
  rw [← hk, h]
  rfl

theorem pldmActivateFirmware_starts (h : firstFail (s.activateChecks k) = none) : Gives .pldmActivateFirmware s fun t =>
    t.mbx = { s.mbx with activating := some (k, s.now + ms 500), prevSlot := s.mbx.runSlot } ∧
    s.Sent t (.reply .bmc 0x1A 0 0 []) := by
  refine ⟨(s.beginActivate k).pldmReply 0x1A 0 [], ?_, rfl, (State.Sent.emit _ _).before List.suffix_rfl⟩
  rw [exec_pldmActivateFirmware, execPldmActivateFirmware, if_neg (by simp [hp, hc, hn])]
  dsimp only
  rw [← hk, h]

end

/-! ## PLDM_GET_SENSOR_READING (R621; log 4) -/

theorem pldmGetSensorReading_unknown {s : State} {n : Nat} (h : n = 0 ∨ 5 < n) :
    exec (.pldmGetSensorReading n) s = .next (s.emit (.reply .bmc 0x11 0x80 0 [])) := by
  rw [exec_pldmGetSensorReading, execPldmGetSensorReading, if_pos (by simpa using h)]
  rfl

theorem pldmGetSensorReading_standby {s : State} {n : Nat} (h : n = 4 ∨ n = 5) (hm : s.pwr.mode = .standby) :
    exec (.pldmGetSensorReading n) s = .next (s.emit (.reply .bmc 0x11 0 0 ([2, 2, 0, 0, 0, 0] ++ zeroBytes 2))) := by
  have h4 : 4 ≤ n := by omega
  have hz : sensorSize n = 2 := if_neg (by omega)
  rw [exec_pldmGetSensorReading, execPldmGetSensorReading, if_neg (by simp; omega), if_pos (by simp [h4, hm]), hz]
  rfl

theorem pldmGetSensorReading_reads {s : State} {n : Nat} (h0 : 0 < n) (h4 : n < 4) : ∃ b,
    Gives (.pldmGetSensorReading n) s fun t => t.mbx = s.mbx ∧ s.Sent t (.reply .bmc 0x11 0 0
      ([BitVec.ofNat 8 (sensorSize n), 0, 0, BitVec.ofNat 8 (presentState (s.measured n) (s.limits n)), b,
        BitVec.ofNat 8 (presentState (s.measured n) (s.limits n))] ++
        leBytes (sensorSize n) (s.measured n % Int.ofNat (2 ^ (8 * sensorSize n))).toNat)) := by
  unfold Gives
  rw [exec_pldmGetSensorReading, execPldmGetSensorReading, if_neg (by simp; omega), if_neg (by simp; omega)]
  exact ⟨_, _, rfl, rfl, (State.Sent.emit _ _).before List.suffix_rfl⟩

/-! ## The statement -/

/-- Settles O31, each command by its own rules above. -/
theorem firmwareAndPldm : Obligations.FirmwareAndPldm := by
  unfold Obligations.FirmwareAndPldm
  refine ⟨?_, ?_, ?_, ?_, ?_, fun s => fwCommitDone_idle, ?_, fun s k d => activationComplete_gives,
    fun s m c => fwStatus_gives,
    pldmRequestUpdate_gives, pldmComponentTransfer_gives, ?_, ?_, ?_⟩
  · exact fun s p => ⟨fun hp => mgmtPropagation_unpaired hp p, fun hp => ⟨fun st => mgmtPropagation_refused hp,
      fun u r h => ⟨mgmtPropagation_nsDelete hp h, mgmtPropagation_applied hp h⟩⟩⟩
  · exact fun s fid k p => ⟨mgmtFrameReceive_strangerPacket, fun hk hp hf => mgmtFrameReceive_packet hp hf hk,
      mgmtFrameReceive_stranger, mgmtFrameReceive_propagation, fun hp hf hk =>
        ⟨fun r c hi hr hc => ⟨mgmtFrameReceive_completes hp hf hk hi hr hc, mgmtFrameReceive_undoes hp hf hk hi hr hc⟩,
          mgmtFrameReceive_unasked hp hf hk⟩⟩
  · exact fun s m c o bs hs hi ho hb => ⟨fwDownload_fills hs hi ho hb, fwDownload_refused hs hi ho hb⟩
  · exact fun s m c k hs hi hk hk1 hf => ⟨fwCommit_busy hs hk hk1 hf hi, fun hn =>
      ⟨fun st => fwCommit_refused hs hk hk1 hf hn hi, fwCommit_erases hs hk hk1 hf hn⟩⟩
  · exact fun s k b h hk => ⟨fwCommitDone_writes h hk, fun c hi => fwCommitDone_ends h hi⟩
  · exact fun s m c k hs hi hk => ⟨fun st => fwActivate_refused hs hk hi, fwActivate_starts hs hk⟩
  · exact fun s k hk => ⟨pldmVerifyApply_lapses, fun hp hn =>
      ⟨fun st => pldmVerifyApply_refused hk hp hn, pldmVerifyApply_commits hk hp hn⟩⟩
  · exact fun s k hk => ⟨pldmActivateFirmware_lapses, fun hp hc hn =>
      ⟨fun st => pldmActivateFirmware_refused hk hp hc hn, pldmActivateFirmware_starts hk hp hc hn⟩⟩
  · exact fun s n => ⟨pldmGetSensorReading_unknown, pldmGetSensorReading_standby, pldmGetSensorReading_reads⟩

end Sys2Proof.Machine
end

section
/-! PROOFS. Reset, freeze and thaw of virtual subsystems (R297 to R300). -/

namespace Sys2Proof.Machine

/-! ## Records of subsystems and migrations -/

theorem State.findVs_congr {s t : State} (h : t.vsm.subs = s.vsm.subs) (v : Nat) : t.findVs v = s.findVs v := by
  rw [State.findVs, h, ← State.findVs]

/-- The subsystem that an update of its record leaves. -/
theorem State.findVs_updVs_some {s : State} {v : Nat} {x : Vs} (hx : s.findVs v = some x) {f : Vs → Vs}
    (hf : ∀ y, (f y).vsid = y.vsid) : (s.updVs v f).findVs v = some (f x) := by
  rw [State.findVs_updVs hf, hx]
  rfl

theorem State.vsState_of {s : State} {v : Nat} {x : Vs} (hx : s.findVs v = some x) : s.vsState v = some x.st := by
  rw [State.vsState, hx]
  rfl

/-- The migration of a subsystem. -/
def State.findMig (s : State) (v : Nat) : Option Migration := s.vsm.migs.find? (fun g => g.vsid = v)

theorem State.Ended.congr_mbx {t u : State} {m : Master} {st : Nat} (h : t.Ended m st) (e : u.mbx = t.mbx) : u.Ended m st := by
  obtain ⟨hc, hr⟩ := h
  exact ⟨by rw [State.cmdOf, e, ← State.cmdOf, hc], by rw [State.heldOf, e, ← State.heldOf, hr]⟩

theorem not_any_tags {s : State} {v : Nat} (h : ∀ r ∈ s.hce.tags, r.vsid ≠ v) :
    s.hce.tags.any (fun r => r.vsid = v) = false := by
  simpa using h

/-! ## Thaw and the end of a migration (R300, R304) -/

/-- A subsystem that is thawed (R300). -/
def Vs.thawed (x : Vs) : Vs := { x with
  st := .active, quiesceEnd := none, frzEnd := none, image := [], byMigration := false, restored := false, ackDue := none }

theorem State.resumeAt_vsm (s : State) (k : HConn) : (s.resumeAt k).vsm = s.vsm :=
  (Kept.resumeAt (uu := { hce := true, xbr := true, out := true }) k (.refl s) rfl rfl rfl).only.vsm.resolve_left
    Bool.false_ne_true

/-- Of the subsystems' records a thaw changes its own (R300). -/
theorem State.thaw_vsm {s : State} {v : Nat} {x : Vs} (hx : s.findVs v = some x) :
    (s.thaw v).vsm = (s.updVs v Vs.thawed).vsm := by
  rw [State.thaw, hx]
  dsimp only
  split
  · exact foldl_frame (g := fun t : State => t.vsm) State.resumeAt_vsm _ _
  · rfl

theorem State.findVs_thaw {s : State} {v : Nat} {x : Vs} (hx : s.findVs v = some x) : (s.thaw v).findVs v = some x.thawed := by
  rw [State.findVs_congr (s := s.updVs v Vs.thawed) (by rw [State.thaw_vsm hx]), State.findVs_updVs_some hx (by intro _; rfl)]

theorem State.thaw_migs (s : State) (v : Nat) : (s.thaw v).vsm.migs = s.vsm.migs := by
  cases hx : s.findVs v with
  | none => rw [State.thaw, hx]
  | some x => rw [State.thaw_vsm hx, State.updVs_vsm]

theorem State.abortMigration_none {s : State} {v : Nat} (h : s.findMig v = none) : s.abortMigration v = s := by
  rw [State.findMig] at h
  rw [State.abortMigration, State.endMigration, h]

/-- A migration is taken off the list, and both targets and the other source module are told (R304, R306). -/
def State.migrationTold (s : State) (v : Nat) (g : Migration) : State :=
  let s1 := { s with vsm := { s.vsm with migs := s.vsm.migs.filter (fun x => x.vsid ≠ v) } }
  let s2 := (s1.sendMigrate g.tfidA g.tvsid (g.seq + 1) .abort).sendMigrate g.tfidB g.tvsid (g.seq + 1) .abort
  if s2.paired then s2.sendProp 0x050A (leBytes 2 v ++ zeroBytes 2) else s2

theorem State.abortMigration_some {s : State} {v : Nat} {g : Migration} (h : s.findMig v = some g) :
    s.abortMigration v = if ((s.migrationTold v g).findVs v).any (fun x => x.byMigration) then (s.migrationTold v g).thaw v
      else s.migrationTold v g := by
  rw [State.findMig] at h
  rw [State.abortMigration, State.endMigration, h]
  rfl

theorem State.sendMigrate_kept (s : State) (dst tvsid seq : Nat) (b : MigrateBody) :
    Kept { out := true, xbr := true, moved := true } s (s.sendMigrate dst tvsid seq b) :=
  Kept.sendMigrate dst tvsid seq b (.refl s) rfl rfl rfl

@[simp] theorem State.sendMigrate_vsm (s : State) (dst tvsid seq : Nat) (b : MigrateBody) :
    (s.sendMigrate dst tvsid seq b).vsm = s.vsm := (s.sendMigrate_kept dst tvsid seq b).only.vsm.resolve_left Bool.false_ne_true

theorem State.sendProp_kept (s : State) (op : Nat) (p : List Byte) : Kept { out := true, xbr := true } s (s.sendProp op p) :=
  Kept.sendProp op p (.refl s) rfl rfl

@[simp] theorem State.sendProp_vsm (s : State) (op : Nat) (p : List Byte) : (s.sendProp op p).vsm = s.vsm :=
  (s.sendProp_kept op p).only.vsm.resolve_left Bool.false_ne_true

@[simp] theorem State.sendProp_mbx (s : State) (op : Nat) (p : List Byte) : (s.sendProp op p).mbx = s.mbx :=
  (s.sendProp_kept op p).only.mbx.resolve_left Bool.false_ne_true

theorem State.migrationTold_vsm (s : State) (v : Nat) (g : Migration) :
    (s.migrationTold v g).vsm = { s.vsm with migs := s.vsm.migs.filter (fun x => x.vsid ≠ v) } := by
  unfold State.migrationTold
  dsimp only
  split
  · rw [State.sendProp_vsm, State.sendMigrate_vsm, State.sendMigrate_vsm]
  · rw [State.sendMigrate_vsm, State.sendMigrate_vsm]

theorem State.findMig_abortMigration (s : State) (v : Nat) : (s.abortMigration v).findMig v = none := by
  cases h : s.findMig v with
  | none => rw [State.abortMigration_none h, h]
  | some g =>
    have ht : (s.migrationTold v g).findMig v = none := by
      rw [State.findMig, State.migrationTold_vsm, List.find?_filter]
      simp
    rw [State.abortMigration_some h]
    split
    · rw [State.findMig, State.thaw_migs, ← State.findMig, ht]
    · exact ht

/-- The subsystem of an aborted migration is as it was, or thawed from the freeze of its cutover (R304). -/
theorem State.findVs_abortMigration {s : State} {v : Nat} {x : Vs} (hx : s.findVs v = some x) :
    (s.abortMigration v).findVs v = some x ∨ (s.abortMigration v).findVs v = some x.thawed := by
  cases h : s.findMig v with
  | none => exact .inl (by rw [State.abortMigration_none h, hx])
  | some g =>
    have ht : (s.migrationTold v g).findVs v = some x := by
      rw [State.findVs_congr (s := s) (by rw [State.migrationTold_vsm]), hx]
    rw [State.abortMigration_some h]
    split
    · exact .inr (State.findVs_thaw ht)
    · exact .inl ht

/-! ## VS_RESET, VS_RESET_DRAINED (R297, R298) -/

theorem State.foldl_windTag_vsm (s : State) (l : List Nat) : (l.foldl State.windTag s).vsm = s.vsm :=
  foldl_frame (g := fun t : State => t.vsm) State.windTag_vsm l s

theorem State.foldl_windTag_mbx (s : State) (l : List Nat) : (l.foldl State.windTag s).mbx = s.mbx :=
  foldl_frame (g := fun t : State => t.mbx) State.windTag_mbx l s

section
variable {s : State} {m : Master} {c : MbCmd} {x : Vs} {v : Nat} (hs : s.Starts m 0x0508 c) (hv : v = leAt c.params 0 2)
  (hv5 : v ≤ 511) (hx : s.findVs v = some x)
include hs hv hv5 hx

theorem vsReset_begins (hst : x.st = .active) (hp : s.tk.phase = .idle ∨ s.tk.phase = .draining) :
    Gives (.vsReset m) s fun t =>
      (∃ y, t.findVs v = some y ∧ y.st = .resetting ∧ y.waiter = some m ∧ y.hosts = x.hosts) ∧
      ∃ d, t.cmdOf m = some d ∧ d.running = true := by
  have hph : s.tk.phase ≠ .fencing ∧ s.tk.phase ≠ .hold ∧ s.tk.phase ≠ .resuming := by rcases hp with h | h <;> simp [h]
  unfold Gives
  rw [exec_vsReset, execVsReset, State.runCmd_starts hs]
  dsimp only
  rw [← hv, State.vsState_of hx, hst, State.checked_ok (by simp [firstFail, hv5, hph]), if_neg (by simp)]
  refine ⟨_, rfl, ?_, State.cmdOf_keepRunning hs.1 ?_⟩
  · have hy : ∃ y, (s.abortMigration v).findVs v = some y ∧ y.hosts = x.hosts := by
      rcases State.findVs_abortMigration hx with h | h
      · exact ⟨_, h, rfl⟩
      · exact ⟨_, h, rfl⟩
    obtain ⟨y, hy, hh⟩ := hy
    refine ⟨{ y with st := .resetting, waiter := some m, image := [] }, ?_, rfl, rfl, hh⟩
    exact (State.findVs_congr (by rw [State.keepRunning_vsm, State.foldl_windTag_vsm]) v).trans
      (State.findVs_updVs_some (f := fun y => { y with st := .resetting, waiter := some m, image := [] }) hy fun _ => rfl)
  · rw [State.foldl_windTag_mbx, State.updVs_mbx, State.abortMigration_mbx]

variable (hi : s.Inv)
include hi

theorem vsReset_conflicts (hst : x.st = .target ∨ x.st = .moved) :
    Gives (.vsReset m) s fun t => t.Ended m stConflict ∧ t.vsm = s.vsm := by
  refine ⟨s.finish m stConflict [], ?_, hs.ends hi rfl _, State.finish_vsm ..⟩
  rw [exec_vsReset, execVsReset, State.runCmd_starts hs]
  dsimp only
  rw [← hv, State.vsState_of hx, State.checked_fail (st := stConflict)]
  rcases hst with h | h <;> simp [firstFail, hv5, h]

theorem vsReset_busy (hst : x.st = .resetting) : Gives (.vsReset m) s fun t => t.Ended m stBusy ∧ t.vsm = s.vsm := by
  refine ⟨s.finish m stBusy [], ?_, hs.ends hi rfl _, State.finish_vsm ..⟩
  rw [exec_vsReset, execVsReset, State.runCmd_starts hs]
  dsimp only
  rw [← hv, State.vsState_of hx, State.checked_fail (st := stBusy) (by simp [firstFail, hv5, hst])]

end

/-- Associations, connections and queues of a subsystem go (R297 step 5). -/
def State.hostsClosed (s : State) (v : Nat) : State :=
  let s1 := (s.hce.ctrls.filter (fun c => c.vsid = v)).foldl (fun t c => t.endAssoc c.cntlid) s
  let s2 := (s1.hce.conns.filter (fun k => k.vsid = v)).foldl (fun t k => t.closeConn k.id) s1
  s2.updHce (fun h => { h with sqs := h.sqs.filter (fun q => q.vsid ≠ v) })

theorem State.hostsClosed_frame {β : Type} {g : State → β} (h1 : ∀ t n, g (State.endAssoc t n) = g t)
    (h2 : ∀ t n, g (State.closeConn t n) = g t) (h3 : ∀ t f, g (State.updHce t f) = g t) (s : State) (v : Nat) :
    g (s.hostsClosed v) = g s := by
  unfold State.hostsClosed
  dsimp only
  exact (h3 ..).trans ((foldl_frame (g := g) (f := fun t (k : HConn) => State.closeConn t k.id) (fun t k => h2 t k.id) _ _).trans
    (foldl_frame (g := g) (f := fun t (c : Ctrl) => State.endAssoc t c.cntlid) (fun t c => h1 t c.cntlid) _ _))

theorem State.hostsClosed_vsm (s : State) (v : Nat) : (s.hostsClosed v).vsm = s.vsm :=
  State.hostsClosed_frame (g := fun t => t.vsm) State.endAssoc_vsm State.closeConn_vsm State.updHce_vsm s v

theorem State.hostsClosed_mbx (s : State) (v : Nat) : (s.hostsClosed v).mbx = s.mbx :=
  State.hostsClosed_frame (g := fun t => t.mbx) State.endAssoc_mbx State.closeConn_mbx State.updHce_mbx s v

theorem State.hostsClosed_sqs (s : State) (v : Nat) : ∀ q ∈ (s.hostsClosed v).hce.sqs, q.vsid ≠ v := by
  intro q hq
  simpa using (List.mem_filter.mp hq).2

section
variable {s : State} {v : Nat} {x : Vs} (hx : s.findVs v = some x)
include hx

theorem vsResetDrained_completes {m : Master} {c : MbCmd} (hst : x.st = .resetting) (hw : x.waiter = some m)
    (hc : s.cmdOf m = some c) (hi : s.Inv) (hn : ∀ r ∈ s.hce.tags, r.vsid ≠ v) : Gives (.vsResetDrained v) s fun t =>
    t.Ended m stOk ∧ t.findVs v = some { x with st := .active, waiter := none } ∧ ∀ q ∈ t.hce.sqs, q.vsid ≠ v := by
  have hm := s.hostsClosed_mbx v
  refine ⟨((s.hostsClosed v).updVs v (fun y => { y with st := .active, waiter := none })).finish m stOk [], ?_,
    State.ends_of_mail hi hc (by rw [State.updVs_mbx, hm]) (by rw [State.updVs_mbx, hm]) _ _, ?_, ?_⟩
  · rw [exec_vsResetDrained, execVsResetDrained, hx]
    dsimp only
    rw [if_neg (by simp [hst, not_any_tags hn]), hw]
    rfl
  · exact (State.findVs_congr (by rw [State.finish_vsm]) v).trans <|
      State.findVs_updVs_some (f := fun y => { y with st := .active, waiter := none })
        ((State.findVs_congr (congrArg (fun m => m.subs) (s.hostsClosed_vsm v)) v).trans hx) fun _ => rfl
  · rw [State.finish_hce, State.updVs_hce]
    exact s.hostsClosed_sqs v

theorem vsResetDrained_waits {r : TagRec} (hr : r ∈ s.hce.tags) (hrv : r.vsid = v) : exec (.vsResetDrained v) s = .next s := by
  have ha : s.hce.tags.any (fun r => r.vsid = v) = true := List.any_eq_true.mpr ⟨r, hr, by simpa using hrv⟩
  rw [exec_vsResetDrained, execVsResetDrained, hx]
  exact if_pos (by simp [ha])

end

/-! ## VS_FREEZE, FREEZE_QUIESCED, QUIESCE_TIMEOUT (R299) -/

section
variable {s : State} {m : Master} {c : MbCmd} {x : Vs} {v : Nat} (hs : s.Starts m 0x0509 c) (hv : v = leAt c.params 0 2)
  (hv5 : v ≤ 511) (hx : s.findVs v = some x)
include hs hv hv5 hx

theorem vsFreeze_begins (hst : x.st = .active) : Gives (.vsFreeze m) s fun t =>
    (∃ d, t.cmdOf m = some d ∧ d.running = true) ∧ t.findVs v = some { x with
      st := .freezing, quiesceEnd := some (s.now + ms (s.cfg Reg.vsmFrzcfg 6 0)), frzLen := s.cfg Reg.vsmFrzcfg 25 16
      waiter := some m, byMigration := false } := by
  refine ⟨(s.startFreeze v (some m) false).keepRunning m, ?_, State.cmdOf_keepRunning (s := s) hs.1 rfl,
    State.findVs_updVs_some hx (by intro _; rfl)⟩
  rw [exec_vsFreeze, execVsFreeze, State.runCmd_starts hs]
  dsimp only
  rw [← hv, State.vsState_of hx, State.checked_ok (by simp [firstFail, hv5, hst])]

theorem vsFreeze_conflicts (hi : s.Inv) (hst : x.st ≠ .active) :
    Gives (.vsFreeze m) s fun t => t.Ended m stConflict ∧ t.vsm = s.vsm := by
  refine ⟨s.finish m stConflict [], ?_, hs.ends hi rfl _, State.finish_vsm ..⟩
  rw [exec_vsFreeze, execVsFreeze, State.runCmd_starts hs]
  dsimp only
  rw [← hv, State.vsState_of hx, State.checked_fail (st := stConflict) (by simp [firstFail, hv5, hst])]

end

/-- The subsystem is FROZEN and its Keep Alive timers have stopped (R299 step 4, R300). -/
def State.quiesced (s : State) (v : Nat) : State :=
  (s.updVs v (fun y => { y with
    st := .frozen, quiesceEnd := none, frzEnd := some (s.now + ms y.frzLen), waiter := none })).updHce
      (fun h => { h with ctrls := updWhere (fun c => c.vsid = v) (fun c => { c with kaDeadline := none }) h.ctrls })

theorem State.quiesced_timers (s : State) (v : Nat) : ∀ k ∈ (s.quiesced v).hce.ctrls, k.vsid = v → k.kaDeadline = none := by
  intro k hk hkv
  obtain ⟨y, -, rfl⟩ := List.mem_map.mp hk
  split
  · rfl
  · next hy =>
    rw [if_neg hy] at hkv
    exact absurd hkv (by simpa using hy)

section
variable {s : State} {v : Nat} {x : Vs} {m : Master} {c : MbCmd} (hx : s.findVs v = some x)
include hx

theorem freezeQuiesced_freezes (hi : s.Inv) (hst : x.st = .freezing) (hn : ∀ r ∈ s.hce.tags, r.vsid ≠ v) :
    Gives (.freezeQuiesced v) s fun t =>
      t.findVs v = some { x with st := .frozen, quiesceEnd := none, frzEnd := some (s.now + ms x.frzLen), waiter := none } ∧
      (∀ k ∈ t.hce.ctrls, k.vsid = v → k.kaDeadline = none) ∧
      (x.waiter = some m → s.cmdOf m = some c → t.Ended m stOk) := by
  have hfrozen : (s.quiesced v).findVs v =
      some { x with st := .frozen, quiesceEnd := none, frzEnd := some (s.now + ms x.frzLen), waiter := none } :=
    State.findVs_updVs_some hx (by intro _; rfl)
  unfold Gives
  rw [exec_freezeQuiesced, execFreezeQuiesced, hx]
  dsimp only
  rw [if_neg (by simp [hst, not_any_tags hn])]
  refine ⟨_, rfl, ?_⟩
  cases hw : x.waiter with
  | none => exact ⟨hfrozen, s.quiesced_timers v, fun h => absurd h (by simp)⟩
  | some w =>
    refine ⟨(State.findVs_congr (by rw [State.finish_vsm]; rfl) v).trans hfrozen, ?_, fun h hc => ?_⟩
    · dsimp only
      rw [State.finish_hce]
      exact s.quiesced_timers v
    · obtain rfl := Option.some.inj h
      exact State.ends_of_mail hi hc (by rfl) (by rfl) _ _

theorem quiesceTimeout_thaws (hi : s.Inv) (hst : x.st = .freezing) (hw : x.waiter = some m) (hc : s.cmdOf m = some c)
    (hg : s.vsm.migs = []) (hd : due x.quiesceEnd s.now = true) : Gives (.quiesceTimeout v) s fun t =>
    t.Ended m stBusy ∧ ∃ y, t.findVs v = some y ∧ y.st = .active ∧ y.waiter = none := by
  have hm : s.findMig v = none := by rw [State.findMig, hg]; rfl
  have hy : ((s.finish m stBusy []).updVs v (fun y => { y with waiter := none })).findVs v = some { x with waiter := none } :=
    State.findVs_updVs_some ((State.findVs_congr (by rw [State.finish_vsm]) v).trans hx) (by intro _; rfl)
  refine ⟨((s.finish m stBusy []).updVs v (fun y => { y with waiter := none })).thaw v, ?_,
    (State.finish_ended hi.counts.masters hc stBusy []).congr_mbx ?_, _, State.findVs_thaw hy, rfl, rfl⟩
  · rw [exec_quiesceTimeout, execQuiesceTimeout, hx]
    dsimp only
    rw [if_pos (by simp [hst, hd]), State.abortMigration_none hm, State.endFreeze, hx]
    dsimp only
    rw [hw]
  · rw [State.thaw_mbx, State.updVs_mbx]

theorem quiesceTimeout_early (hd : due x.quiesceEnd s.now = false) : exec (.quiesceTimeout v) s = .next s := by
  rw [exec_quiesceTimeout, execQuiesceTimeout, hx]
  exact if_neg (by simp [hd])

end

/-! ## MAXFRZ_EXPIRY, VS_THAW (R300) -/

section
variable {s : State} {v : Nat} {x : Vs} (hx : s.findVs v = some x)
include hx

theorem maxfrzExpiry_thaws (hst : x.st = .frozen) (hd : due x.frzEnd s.now = true) (hg : s.vsm.migs = []) :
    Gives (.maxfrzExpiry v) s fun t => ∃ u : State, t = u.raiseFlag Reg.vsmCfgstat 1 ∧ t.findVs v = some x.thawed := by
  have hm : s.findMig v = none := by rw [State.findMig, hg]; rfl
  refine ⟨(s.thaw v).raiseFlag Reg.vsmCfgstat 1, ?_, s.thaw v, rfl, State.findVs_thaw hx⟩
  rw [exec_maxfrzExpiry, execMaxfrzExpiry, hx]
  dsimp only
  rw [if_pos (by simp [hst, hd]), State.abortMigration_none hm]

theorem maxfrzExpiry_early (hd : due x.frzEnd s.now = false) : exec (.maxfrzExpiry v) s = .next s := by
  rw [exec_maxfrzExpiry, execMaxfrzExpiry, hx]
  exact if_neg (by simp [hd])

variable {m : Master} {c : MbCmd} (hs : s.Starts m 0x050A c) (hi : s.Inv) (hv : v = leAt c.params 0 2) (hv5 : v ≤ 511)
include hs hi hv hv5

theorem vsThaw_thaws (hst : x.st = .frozen) : Gives (.vsThaw m) s fun t => t.Ended m stOk ∧ t.findVs v = some x.thawed := by
  refine ⟨(s.thaw v).finish m stOk [], ?_, hs.ends hi (State.thaw_mbx s v) _,
    (State.findVs_congr (by rw [State.finish_vsm]) v).trans (State.findVs_thaw hx)⟩
  rw [exec_vsThaw, execVsThaw, State.runCmd_starts hs]
  dsimp only
  rw [← hv, State.vsState_of hx, State.checked_ok (by simp [firstFail, hv5, hst])]

theorem vsThaw_conflicts (hst : x.st ≠ .frozen) : Gives (.vsThaw m) s fun t => t.Ended m stConflict ∧ t.vsm = s.vsm := by
  refine ⟨s.finish m stConflict [], ?_, hs.ends hi rfl _, State.finish_vsm ..⟩
  rw [exec_vsThaw, execVsThaw, State.runCmd_starts hs]
  dsimp only
  rw [← hv, State.vsState_of hx, State.checked_fail (st := stConflict) (by simp [firstFail, hv5, hst])]

end

end Sys2Proof.Machine
end

section
/-! PROOFS. State images and migration of virtual subsystems (R301 to R306; logs 41, 42, 73, 77). -/

namespace Sys2Proof.Machine

/-! ## VS_SAVE (R301) -/

section
variable {s : State} {m : Master} {c : MbCmd} {x : Vs} {v : Nat} (hs : s.Starts m 0x050B c) (hi : s.Inv)
  (hv : v = leAt c.params 0 2) (hv5 : v ≤ 511) (hx : s.findVs v = some x)
include hs hi hv hv5 hx

theorem vsSave_yields (hst : x.st = .frozen) (hlen : (s.imageOf x).length ≤ 64 * 2 ^ 20) : Gives (.vsSave m) s fun t =>
    t.findVs v = some { x with image := s.imageOf x } ∧
      t.Yields m c (slice (s.imageOf x) (leAt c.params 4 4) (if c.dmar then c.dlen else 4096)) := by
  refine ⟨(s.updVs v (fun y => { y with image := s.imageOf x })).finish m stOk
      (slice (s.imageOf x) (leAt c.params 4 4) (if c.dmar then c.dlen else 4096)), ?_,
    (State.findVs_congr (by rw [State.finish_vsm]) v).trans
      (State.findVs_updVs_some (f := fun y => { y with image := s.imageOf x }) hx fun _ => rfl),
    State.finish_yields (s := s.updVs v _) hi.counts.masters hs.1 _⟩
  rw [exec_vsSave, execVsSave, State.runCmd_starts hs]
  dsimp only
  rw [← hv, State.vsState_of hx, hx]
  exact congrArg _ (State.checked_ok (by simpa [firstFail, hst, Nat.not_lt.mpr hv5] using hlen) _)

theorem vsSave_conflicts (hst : x.st ≠ .frozen) : Gives (.vsSave m) s fun t => t.Ended m stConflict ∧ t.vsm = s.vsm := by
  refine ⟨s.finish m stConflict [], ?_, hs.ends hi rfl _, State.finish_vsm ..⟩
  rw [exec_vsSave, execVsSave, State.runCmd_starts hs]
  dsimp only
  rw [← hv, State.vsState_of hx, State.checked_fail (st := stConflict) (by simp [firstFail, hv5, hst])]

end

/-! ## Pieces of an image and the whole image (R302) -/

section
variable {s : State} {v o : Nat} {bs : List Byte} {x : Vs} (hx : s.findVs v = some x)
include hx

theorem State.takePiece_part (h : (padTo o x.restore ++ bs).length < 0x1C) :
    s.takePiece v o bs = (s.updVs v (fun y => { y with restore := padTo o x.restore ++ bs }), none) := by
  rw [State.takePiece, hx]
  dsimp only
  rw [if_neg (by simp at h ⊢; omega)]

theorem State.takePiece_whole (h : 0x1C ≤ (padTo o x.restore ++ bs).length)
    (hl : leAt (padTo o x.restore ++ bs) 0x18 4 ≤ (padTo o x.restore ++ bs).length) :
    s.takePiece v o bs = (s.updVs v (fun y => { y with restore := [] }), some (padTo o x.restore ++ bs)) := by
  rw [State.takePiece, hx]
  dsimp only
  rw [if_pos (by rw [Bool.and_eq_true]; exact ⟨decide_eq_true h, decide_eq_true hl⟩)]

end

/-- An image that passes its checks has the length that its header states, and room for header and trailer. -/
theorem length_of_imageOk {img : List Byte} (h : imageOk img = true) : leAt img 0x18 4 = img.length ∧ 68 ≤ img.length := by
  simp only [imageOk, Bool.and_eq_true, decide_eq_true_eq] at h
  obtain ⟨⟨⟨hn, h68⟩, -⟩, -⟩ := h
  exact ⟨hn, hn ▸ h68⟩

/-- The subsystem's record after an image is applied to it (R302). -/
def Vs.withImage (s : State) (img : List Byte) (x : Vs) : Vs :=
  let r := slice img 64 288
  { x with
    flags := byteAt r 2 % 16, ports := byteAt r 3, svcid := leAt r 0x10 2, subnqn := stripZeros (slice r 0x20 256)
    hosts := (section_ img 352 256 (leAt img 0x2C 4)).map stripZeros
    portals := ((section_ img (352 + 256 * leAt img 0x2C 4) 32 8).map portalOf).filter (fun p => p.port ≠ 0xFF)
    st := .frozen, restore := [], restored := true, frzEnd := some (s.now + ms (s.cfg Reg.vsmFrzcfg 25 16)) }

theorem State.addHost_vsm (s : State) (h : Nqn) : (s.addHost h).vsm = s.vsm :=
  (Kept.addHost (uu := { hce := true }) h (.refl s) rfl).only.vsm.resolve_left Bool.false_ne_true

/-- Of the subsystems' records an image changes the one that it is applied to (R302). -/
theorem State.applyImage_vsm (s : State) (v : Nat) (img : List Byte) :
    (s.applyImage v img).vsm = (s.updVs v (Vs.withImage s img)).vsm := by
  unfold State.applyImage
  exact (foldl_frame (g := fun t : State => t.vsm) (f := fun t (b : List Byte) => t.sendXport (leAt b 0 4))
    (fun t _ => t.sendXport_vsm _) _ _).trans (foldl_frame (g := fun t : State => t.vsm) State.addHost_vsm _ _)

theorem State.findVs_applyImage {s : State} {v : Nat} {x : Vs} (hx : s.findVs v = some x) (img : List Byte) :
    (s.applyImage v img).findVs v = some (x.withImage s img) :=
  (State.findVs_congr (by rw [State.applyImage_vsm]) v).trans (State.findVs_updVs_some hx fun _ => rfl)

/-! ## VS_RESTORE (R302) -/

section
variable {s : State} {m : Master} {c : MbCmd} {x : Vs} {v : Nat} {img : List Byte} (hs : s.Starts m 0x050C c) (hi : s.Inv)
  (hv : v = leAt c.params 0 2) (hv5 : v ≤ 511) (hx : s.findVs v = some x)
  (himg : img = padTo (leAt c.params 4 4) x.restore ++ c.params.drop 8)
include hs hv hv5 hx

theorem exec_vsRestore_part {t : State} (hst : x.st = .target)
    (hp : s.takePiece v (leAt c.params 4 4) (c.params.drop 8) = (t, none)) :
    exec (.vsRestore m) s = .next (t.finish m stOk []) := by
  rw [exec_vsRestore, execVsRestore, State.runCmd_starts hs]
  dsimp only
  rw [← hv, State.vsState_of hx, State.checked_ok (by simp [firstFail, hv5, hst]), hp]

theorem exec_vsRestore_whole {t : State} (hst : x.st = .target)
    (hp : s.takePiece v (leAt c.params 4 4) (c.params.drop 8) = (t, some img)) : exec (.vsRestore m) s =
      .next (if imageOk img then (t.applyImage v img).finish m stOk [] else t.finish m stCrc []) := by
  rw [exec_vsRestore, execVsRestore, State.runCmd_starts hs]
  dsimp only
  rw [← hv, State.vsState_of hx, State.checked_ok (by simp [firstFail, hv5, hst]), hp]

include hi

theorem vsRestore_conflicts (hst : x.st ≠ .target) :
    Gives (.vsRestore m) s fun t => t.Ended m stConflict ∧ t.vsm = s.vsm := by
  refine ⟨s.finish m stConflict [], ?_, hs.ends hi rfl _, State.finish_vsm ..⟩
  rw [exec_vsRestore, execVsRestore, State.runCmd_starts hs]
  dsimp only
  rw [← hv, State.vsState_of hx, State.checked_fail (st := stConflict) (by simp [firstFail, hv5, hst])]

include himg

theorem vsRestore_takes_piece (hst : x.st = .target) (hlen : img.length < 0x1C) : Gives (.vsRestore m) s fun t =>
    t.Ended m stOk ∧ t.findVs v = some { x with restore := img } := by
  subst himg
  exact ⟨_, exec_vsRestore_part hs hv hv5 hx hst (State.takePiece_part hx hlen), hs.ends hi (by rfl) _,
    (State.findVs_congr (by rw [State.finish_vsm]) v).trans
      (State.findVs_updVs_some (f := fun y => { y with restore := _ }) hx fun _ => rfl)⟩

theorem vsRestore_crc (hst : x.st = .target) (hlen : 0x1C ≤ img.length) (hl : leAt img 0x18 4 ≤ img.length)
    (hok : imageOk img = false) : Gives (.vsRestore m) s fun t =>
    t.Ended m stCrc ∧ t.findVs v = some { x with restore := [] } := by
  subst himg
  refine ⟨_, exec_vsRestore_whole hs hv hv5 hx hst (State.takePiece_whole hx hlen hl), ?_⟩
  rw [if_neg (by simp [hok])]
  exact ⟨hs.ends hi (by rfl) _, (State.findVs_congr (by rw [State.finish_vsm]) v).trans
    (State.findVs_updVs_some (f := fun y => { y with restore := [] }) hx fun _ => rfl)⟩

theorem vsRestore_applies (hst : x.st = .target) (hok : imageOk img = true) : Gives (.vsRestore m) s fun t =>
    t.Ended m stOk ∧ ∃ y, t.findVs v = some y ∧ y.st = .frozen ∧
      y.frzEnd = some (s.now + ms (s.cfg Reg.vsmFrzcfg 25 16)) ∧
      y.subnqn = stripZeros (slice (slice img 64 288) 0x20 256) := by
  obtain ⟨hn, h68⟩ := length_of_imageOk hok
  subst himg
  refine ⟨_, exec_vsRestore_whole hs hv hv5 hx hst (State.takePiece_whole hx (by omega) hn.le), ?_⟩
  rw [if_pos hok]
  have hy : (s.updVs v (fun y => { y with restore := [] })).findVs v = some { x with restore := [] } :=
    State.findVs_updVs_some hx fun _ => rfl
  exact ⟨hs.ends hi (by rw [State.applyImage_mbx, State.updVs_mbx]) _, _,
    (State.findVs_congr (by rw [State.finish_vsm]) v).trans (State.findVs_applyImage hy _), rfl, rfl, rfl⟩

end

/-! ## VS_MIGRATE (R303) -/

/-- A migration that replaces those of its subsystem is the one that is found. -/
theorem find_migration_replaced {g : Migration} {v : Nat} (hg : g.vsid = v) (l : List Migration) :
    (l.filter (fun y => y.vsid ≠ v) ++ [g]).find? (fun y => y.vsid = v) = some g := by
  have hl : (l.filter (fun y => y.vsid ≠ v)).find? (fun y => y.vsid = v) = none := by simp
  rw [List.find?_append, hl]
  simp [hg]

section
variable {s : State} {m : Master} {c : MbCmd} {x : Vs} {v : Nat} (hs : s.Starts m 0x050D c) (hi : s.Inv)
  (hv : v = leAt c.params 0 2) (hv5 : v ≤ 511) (ht5 : leAt c.params 2 2 ≤ 511) (hx : s.findVs v = some x)
include hs hi hv hv5 ht5

/-- The migration that VS_MIGRATE starts (R303). -/
def State.newMigration (s : State) (m : Master) (c : MbCmd) : Migration :=
  { vsid := leAt c.params 0 2, tvsid := leAt c.params 2 2, tfidA := byteAt c.params 4, tfidB := byteAt c.params 5, master := m
    phase := .copy, passes := 0, maxPasses := s.cfg Reg.vsmMigcfg 19 16, cutover := s.cfg Reg.vsmMigcfg 12 0, seq := 0
    marked := [], sending := [], lead := true }

include hx in
theorem vsMigrate_starts (hown : ∀ n ∈ s.vsm.nss, n.vsid = v → s.owns n.ring = true) (hst : x.st = .active)
    (hp : x.portals ≠ []) (hpair : s.paired = true) : Gives (.vsMigrate m) s fun t =>
    t.Ended m stOk ∧ t.findMig v = some (s.newMigration m c) := by
  subst hv
  have hnss : (s.vsm.nss.filter (fun n => n.vsid = leAt c.params 0 2)).any (fun n => !s.owns n.ring) = false := by
    simpa using hown
  refine ⟨((s.updVsm (fun y => { y with
      migs := y.migs.filter (fun g => g.vsid ≠ leAt c.params 0 2) ++ [s.newMigration m c] })).sendProp 0x050D
        ((s.newMigration m c).told false)).finish m stOk [], ?_,
    hs.ends hi (by rw [State.sendProp_mbx, State.updVsm_mbx]) _, ?_⟩
  · rw [exec_vsMigrate, execVsMigrate, State.runCmd_starts hs]
    dsimp only
    rw [State.vsState_of hx, hx, hnss, State.checked_ok (by simp [firstFail, hv5, ht5, hst, hp, hpair])]
    rfl
  · rw [State.findMig, State.finish_vsm, State.sendProp_vsm, State.updVsm_vsm]
    exact find_migration_replaced (g := s.newMigration m c) rfl _

theorem vsMigrate_not_owner {n : Ns} (hn : n ∈ s.vsm.nss) (hnv : n.vsid = v) (hown : s.owns n.ring = false) :
    Gives (.vsMigrate m) s fun t => t.Ended m stNotOwner ∧ t.vsm = s.vsm := by
  have hnss : (s.vsm.nss.filter (fun n => n.vsid = v)).any (fun n => !s.owns n.ring) = true :=
    List.any_eq_true.mpr ⟨n, List.mem_filter.mpr ⟨hn, by simpa using hnv⟩, by simp [hown]⟩
  refine ⟨s.finish m stNotOwner [], ?_, hs.ends hi rfl _, State.finish_vsm ..⟩
  rw [exec_vsMigrate, execVsMigrate, State.runCmd_starts hs]
  dsimp only
  rw [← hv, hnss, State.checked_fail (st := stNotOwner) (by simp [firstFail, hv5, ht5])]

end

/-! ## Frames of a migration (R304, R305) -/

theorem State.sendMigrate_sent {s : State} {dst : Nat} (h : s.routePort dst ≠ none) (tvsid seq : Nat) (b : MigrateBody) :
    s.Sent (s.sendMigrate dst tvsid seq b) (.migrate dst tvsid seq b) := by
  obtain ⟨p, hp⟩ := Option.ne_none_iff_exists'.mp h
  rw [State.sendMigrate, hp]
  exact (State.Sent.emit s _).later (State.xbarRelti_kept ..).out

/-- An aborted migration tells its first target, where a route leads there (R304). -/
theorem State.migrationTold_sent {s : State} {v : Nat} {g : Migration} (h : s.routePort g.tfidA ≠ none) :
    s.Sent (s.migrationTold v g) (.migrate g.tfidA g.tvsid (g.seq + 1) .abort) := by
  have hsent := State.sendMigrate_sent (s := { s with vsm := { s.vsm with migs := s.vsm.migs.filter (fun x => x.vsid ≠ v) } })
    h g.tvsid (g.seq + 1) .abort
  have htwo := hsent.later (State.sendMigrate_kept _ g.tfidB g.tvsid (g.seq + 1) .abort).out
  unfold State.migrationTold
  dsimp only
  split
  · exact htwo.later (State.sendProp_kept ..).out
  · exact htwo

theorem State.abortMigration_sent {s : State} {v : Nat} {g : Migration} (hg : s.findMig v = some g)
    (h : s.routePort g.tfidA ≠ none) : s.Sent (s.abortMigration v) (.migrate g.tfidA g.tvsid (g.seq + 1) .abort) := by
  rw [State.abortMigration_some hg]
  split
  · exact (State.migrationTold_sent h).later (State.thaw_kept ..).out
  · exact State.migrationTold_sent h

theorem State.findMig_congr {s t : State} (h : t.vsm.migs = s.vsm.migs) (v : Nat) : t.findMig v = s.findMig v := by
  rw [State.findMig, h, ← State.findMig]

theorem State.findMig_updMig {s : State} {v : Nat} {g : Migration} (hg : s.findMig v = some g) {f : Migration → Migration}
    (hf : ∀ x, (f x).vsid = x.vsid) : (s.updMig v f).findMig v = some (f g) := by
  have h := find_updWhere (p := fun r : Migration => r.vsid = v) (f := f) (by simp [hf]) s.vsm.migs
  rw [State.findMig] at hg
  rw [hg] at h
  exact h

theorem State.vsid_of_findMig {s : State} {v : Nat} {g : Migration} (hg : s.findMig v = some g) : g.vsid = v := by
  simpa using List.find?_some hg

theorem State.foldl_sendMigrate_vsm {α : Type} (dst tvsid : Nat) (n : α → Nat) (b : α → MigrateBody) (l : List α)
    (s : State) :
    (l.foldl (fun t e => t.sendMigrate dst tvsid (n e) (b e)) s).vsm = s.vsm :=
  foldl_frame (g := fun t : State => t.vsm) (fun t e => t.sendMigrate_vsm dst tvsid (n e) (b e)) l s

theorem State.laneWork_vsm (s : State) (n p : Nat) : (s.laneWork n p).vsm = s.vsm :=
  (Kept.laneWork (uu := { pmu := true, moved := true, free := true }) n p (.refl s) rfl rfl rfl).only.vsm.resolve_left
    Bool.false_ne_true

/-- Sending a phase's blocks changes of the subsystems and migrations one SEQ (R304, R305). -/
theorem State.sendPhase_vsm (s : State) (g : Migration) (bs : List (Nat × Nat × Block)) :
    ∃ n, (s.sendPhase g bs).vsm = (s.updMig g.vsid (fun x => { x with seq := n })).vsm := by
  refine ⟨g.seq + (pairUp (s.phaseBlocks g bs)).length, ?_⟩
  unfold State.sendPhase State.updMig
  dsimp only
  rw [State.updVsm_vsm, State.updVsm_vsm, State.foldl_sendMigrate_vsm, State.laneWork_vsm]

theorem State.findVs_sendPhase (s : State) (g : Migration) (bs : List (Nat × Nat × Block)) (v : Nat) :
    (s.sendPhase g bs).findVs v = s.findVs v := by
  obtain ⟨n, hn⟩ := s.sendPhase_vsm g bs
  exact State.findVs_congr (congrArg (fun x => x.subs) hn) v

/-- Sending an image puts its migration into RESTORE (R304). -/
theorem State.sendImage_vsm (s : State) (g : Migration) (x : Vs) : ∃ n, (s.sendImage g x).vsm =
    (s.updMig g.vsid (fun x => { x with phase := .restore, sending := [], seq := n })).vsm := by
  refine ⟨g.seq + (imageFrames (s.imageOf x) ((s.imageOf x).length + 1) 0).length, ?_⟩
  unfold State.sendImage State.updMig
  dsimp only
  rw [State.updVsm_vsm, State.updVsm_vsm, State.foldl_sendMigrate_vsm]

/-! ## MIGRATION_PHASE_END (R304, R306) -/

section
variable {s : State} {v : Nat} {g : Migration} (hg : s.findMig v = some g)
include hg

theorem State.findMig_sendPhase (bs : List (Nat × Nat × Block)) :
    ∃ n, (s.sendPhase g bs).findMig v = some { g with seq := n } := by
  obtain ⟨n, hn⟩ := s.sendPhase_vsm g bs
  rw [State.vsid_of_findMig hg] at hn
  exact ⟨n, (State.findMig_congr (congrArg (fun x => x.migs) hn) v).trans
    (State.findMig_updMig (f := fun x => { x with seq := n }) hg fun _ => rfl)⟩

theorem State.findMig_sendImage (x : Vs) : ∃ n, (s.sendImage g x).findMig v =
    some { g with phase := .restore, sending := [], seq := n } := by
  obtain ⟨n, hn⟩ := s.sendImage_vsm g x
  rw [State.vsid_of_findMig hg] at hn
  exact ⟨n, (State.findMig_congr (congrArg (fun x => x.migs) hn) v).trans
    (State.findMig_updMig (f := fun x => { x with phase := .restore, sending := [], seq := n }) hg fun _ => rfl)⟩

/-- The pass that has ended leaves too much, and passes are left: a further pass over the marked regions (R304). -/
theorem State.nextPass_again {t : State} (hc : g.cutover ≤ 64 * g.marked.length) (hp : g.passes < g.maxPasses) :
    t.nextPass g =
      t.updMig v (fun x => { x with phase := .catchUp, passes := x.passes + 1, sending := x.marked, marked := [] }) := by
  rw [State.nextPass, State.vsid_of_findMig hg]
  exact if_neg (by simp; omega)

/-- Little enough is left, or no pass is: CUTOVER begins (R304). -/
theorem State.nextPass_cutover_vsm {t : State} (hc : 64 * g.marked.length < g.cutover ∨ g.maxPasses ≤ g.passes) :
    (t.nextPass g).vsm = ((t.updMig v (fun x => { x with phase := .cutover, sending := x.marked, marked := [] })).startFreeze
      v none true).vsm := by
  rw [State.nextPass, if_pos (by simpa using hc), State.startCutover, State.vsid_of_findMig hg]
  dsimp only
  split
  · rw [State.sendProp_vsm]
  · rfl

variable (bs : List (Nat × Nat × Block))

theorem migrationPhaseEnd_failed : Gives (.migrationPhaseEnd v ⟨false, bs⟩) s fun t => t.findMig v = none ∧
    (s.routePort g.tfidA ≠ none → s.Sent t (.migrate g.tfidA g.tvsid (g.seq + 1) .abort)) := by
  refine ⟨s.abortMigration v, ?_, s.findMig_abortMigration v, State.abortMigration_sent hg⟩
  rw [State.findMig] at hg
  rw [exec_migrationPhaseEnd, execMigrationPhaseEnd, hg]
  rfl

/-- The end of a pass of COPY or CATCH_UP sends the phase's blocks and goes on (R304). -/
theorem exec_migrationPhaseEnd_pass (hph : (g.phase = .copy ∧ g.lead = true) ∨ g.phase = .catchUp) :
    exec (.migrationPhaseEnd v ⟨true, bs⟩) s = .next ((s.sendPhase g bs).nextPass g) := by
  rw [State.findMig] at hg
  rw [exec_migrationPhaseEnd, execMigrationPhaseEnd, hg]
  rcases hph with ⟨hph, hl⟩ | hph
  · simp [hph, hl]
  · simp [hph]

theorem migrationPhaseEnd_passes (hph : g.phase = .catchUp) (hc : g.cutover ≤ 64 * g.marked.length)
    (hp : g.passes < g.maxPasses) : Gives (.migrationPhaseEnd v ⟨true, bs⟩) s fun t => ∃ h, t.findMig v = some h ∧
      h.phase = .catchUp ∧ h.passes = g.passes + 1 ∧ h.marked = [] ∧ h.sending = g.marked := by
  obtain ⟨n, hn⟩ := State.findMig_sendPhase hg bs
  refine ⟨_, exec_migrationPhaseEnd_pass hg bs (.inr hph), ?_⟩
  rw [State.nextPass_again hg hc hp]
  exact ⟨_, State.findMig_updMig hn fun _ => rfl, rfl, rfl, rfl, rfl⟩

theorem migrationPhaseEnd_cuts (hph : (g.phase = .copy ∧ g.lead = true) ∨ g.phase = .catchUp)
    (hc : 64 * g.marked.length < g.cutover ∨ g.maxPasses ≤ g.passes) {x : Vs} (hx : s.findVs v = some x) :
    Gives (.migrationPhaseEnd v ⟨true, bs⟩) s fun t => (∃ h, t.findMig v = some h ∧ h.phase = .cutover) ∧
      ∃ y, t.findVs v = some y ∧ y.st = .freezing ∧ y.byMigration = true := by
  obtain ⟨n, hn⟩ := State.findMig_sendPhase hg bs
  have hvsm := State.nextPass_cutover_vsm hg (t := s.sendPhase g bs) hc
  exact ⟨_, exec_migrationPhaseEnd_pass hg bs hph,
    ⟨_, (State.findMig_congr (congrArg (fun x => x.migs) hvsm) v).trans (State.findMig_updMig
      (f := fun x => { x with phase := .cutover, sending := x.marked, marked := [] }) hn fun _ => rfl), rfl⟩,
    _, (State.findVs_congr (congrArg (fun x => x.subs) hvsm) v).trans
      (State.findVs_updVs_some (f := fun y => { y with
        st := .freezing, quiesceEnd := _, frzLen := _, waiter := none, byMigration := true })
        ((s.findVs_sendPhase g bs v).trans hx) fun _ => rfl), rfl, rfl⟩

theorem migrationPhaseEnd_restores (hph : g.phase = .cutover) {x : Vs} (hx : s.findVs v = some x) (hst : x.st = .frozen) :
    Gives (.migrationPhaseEnd v ⟨true, bs⟩) s fun t =>
      ∃ h, t.findMig v = some h ∧ h.phase = .restore ∧ h.sending = [] := by
  have hsent : ∃ n, (if g.lead then s.sendPhase g bs else s).findMig v = some { g with seq := n } := by
    split
    · exact State.findMig_sendPhase hg bs
    · exact ⟨g.seq, hg⟩
  obtain ⟨n, hn⟩ := hsent
  obtain ⟨k, hk⟩ := State.findMig_sendImage hn x
  refine ⟨_, ?_, _, hk, rfl, rfl⟩
  rw [State.findMig] at hg hn
  rw [exec_migrationPhaseEnd, execMigrationPhaseEnd, hg]
  dsimp only
  rw [if_neg (by decide), hph, hx]
  dsimp only
  rw [if_neg (by simp [hst]), hn]
  rfl

end

/-! ## MIGRATE_RECEIVE (R304 to R306) -/

/-- What the route of a frame is read from (R232, R233). -/
def State.routing (s : State) : List (Nat × Nat × List Nat) × Nat := (s.rfx.routes, s.rfx.fid)

theorem State.routePort_congr {s t : State} (h : t.routing = s.routing) (dst : Nat) : t.routePort dst = s.routePort dst := by
  obtain ⟨hr, hf⟩ := Prod.mk.inj h
  rw [State.routePort, hr, hf, ← State.routePort]

theorem State.mirSend_routing (s : State) (b : StreamBody) : (s.mirSend b).routing = s.routing := by
  unfold State.mirSend State.routing
  dsimp only
  split
  · simp
  · split
    · split <;> simp
    · rfl

theorem State.mirSendAll_routing (s : State) (l : List StreamBody) : (s.mirSendAll l).routing = s.routing :=
  foldl_frame (g := State.routing) State.mirSend_routing l s

theorem State.mirSend2_routing (s : State) (b : StreamBody) : (s.mirSend2 b).routing = s.routing := by
  unfold State.mirSend2 State.routing
  split
  · split <;> simp
  · rfl

theorem State.freeNotice_routing (s : State) (v n b ver ring : Nat) : (s.freeNotice v n b ver ring).routing = s.routing :=
  (State.mirSend2_routing ..).trans (State.mirSend_routing ..)

theorem State.supersede_routing (s : State) (v n b cnt ver : Nat) : (s.supersede v n b cnt ver).routing = s.routing :=
  (foldl_frame (g := State.routing) (f := fun u (e : WbEntry) => u.freeNotice e.vsid e.nsid e.blk e.ver e.ring)
    (fun u e => u.freeNotice_routing e.vsid e.nsid e.blk e.ver e.ring) _ _).trans
      (by rw [State.routing, State.freeEntries_rfx]; rfl)

theorem State.commitVersion_routing (s : State) (ver : Nat) : (s.commitVersion ver).routing = s.routing := by
  unfold State.commitVersion
  refine (foldl_frame (g := State.routing) (fun t d => ?_) _ _).trans (foldl_frame (g := State.routing) (fun t e => ?_) _ _)
  · exact foldl_frame (g := State.routing) (fun u x => u.supersede_routing ..) _ t
  · exact t.supersede_routing ..

theorem State.wakeStacks_rfx (s : State) : s.wakeStacks.rfx = s.rfx :=
  (Kept.wakeStacks (uu := { pwr := true }) (.refl s) rfl).only.rfx.resolve_left Bool.false_ne_true

/-- Received blocks leave the routes as they are (R304). -/
theorem State.takeBlocks_routing (s : State) (v : Nat) (es : List MirBlock) : (s.takeBlocks v es).routing = s.routing := by
  unfold State.takeBlocks
  dsimp only
  split
  · rfl
  · rw [State.commitVersion_routing, State.mirSendAll_routing, State.mirSendAll_routing, State.routing, State.wakeStacks_rfx,
      State.updHce_rfx]
    rfl

section
variable {s : State} {src v : Nat} (seq : Nat) {x : Vs} (hx : s.findVs v = some x) (hst : x.st = .target)
include hx hst

theorem migrateReceive_acknowledges (es : List MirBlock) : Gives (.migrateReceive src v seq (.blocks es)) s fun t =>
    s.routePort src ≠ none → s.Sent t (.migrate src v seq (.ack seq)) := by
  refine ⟨(s.takeBlocks v es).sendMigrate src v seq (.ack seq), ?_, fun h => ?_⟩
  · rw [exec_migrateReceive, execMigrateReceive, State.vsState_of hx, hst]
    exact if_pos (by decide)
  · rw [← State.routePort_congr (s.takeBlocks_routing v es)] at h
    exact (State.sendMigrate_sent h v seq (.ack seq)).before (s.takeBlocks_kept v es).out

theorem migrateReceive_takes_piece {o : Nat} {bs : List Byte} (hlen : (padTo o x.restore ++ bs).length < 0x1C) :
    Gives (.migrateReceive src v seq (.image o bs)) s fun t =>
      t.findVs v = some { x with restore := padTo o x.restore ++ bs } := by
  refine ⟨s.updVs v (fun y => { y with restore := padTo o x.restore ++ bs }), ?_, State.findVs_updVs_some hx fun _ => rfl⟩
  rw [exec_migrateReceive, execMigrateReceive, State.vsState_of hx, hst]
  dsimp only
  rw [if_neg (by decide), State.takePiece_part hx hlen]

end

section
variable {s : State} {src v n : Nat} {g : Migration} (seq : Nat)
  (hg : s.vsm.migs.find? (fun g => g.tvsid = v && (g.tfidA = src || g.tfidB = src)) = some g)
include hg

theorem migrateReceive_moves {x : Vs} (hph : g.phase = .restore) (hx : s.findVs g.vsid = some x) (hn : g.seq ≤ n) :
    Gives (.migrateReceive src v seq (.ack n)) s fun t => (∃ y, t.findVs g.vsid = some y ∧ y.st = .moved) ∧
      (∀ h ∈ t.vsm.migs, h.vsid ≠ g.vsid) ∧ t.hce = s.hce := by
  refine ⟨(s.updVs g.vsid (fun x => { x with st := .moved, frzEnd := none, byMigration := false, image := [] })).updVsm
    (fun m => { m with migs := m.migs.filter (fun x => x.vsid ≠ g.vsid) }), ?_,
    ⟨_, State.findVs_updVs_some (f := fun x => { x with st := .moved, frzEnd := none, byMigration := false, image := [] }) hx
      fun _ => rfl, rfl⟩, fun h hh => ?_, rfl⟩
  · rw [exec_migrateReceive, execMigrateReceive, hg]
    exact if_pos (by simp [hph, hn])
  · simpa using (List.mem_filter.mp hh).2

theorem migrateReceive_early (hn : n < g.seq) : exec (.migrateReceive src v seq (.ack n)) s = .next s := by
  rw [exec_migrateReceive, execMigrateReceive, hg]
  exact if_neg (by simp [hn])

end

/-! ## The obligation -/

/-- Settles O23: each command by its own rules above, from VS_RESET to the acknowledgement of a migrated image. Both subsystem
and migration are followed through the records that the commands find by VSID. -/
theorem resetFreezeAndMigration : Obligations.ResetFreezeAndMigration := by
  unfold Obligations.ResetFreezeAndMigration
  refine ⟨?reset, ?drained, ?freeze, ?quiesce, ?maxfrz, ?thaw, ?save, ?restore, ?migrate, ?phase, ?receive, ?acknowledged⟩
  case reset =>
    exact fun s m c x v hs hi hv hv5 hx => ⟨vsReset_begins hs hv hv5 hx, vsReset_conflicts hs hv hv5 hx hi,
      vsReset_busy hs hv hv5 hx hi⟩
  case drained =>
    exact fun s v x m c hx hst hw hc hi => ⟨vsResetDrained_completes hx hst hw hc hi, fun r => vsResetDrained_waits hx⟩
  case freeze =>
    exact fun s m c x v hs hi hv hv5 hx => ⟨vsFreeze_begins hs hv hv5 hx, vsFreeze_conflicts hs hv hv5 hx hi⟩
  case quiesce =>
    exact fun s v x m c hx hst hi => ⟨freezeQuiesced_freezes hx hi hst, quiesceTimeout_thaws hx hi hst,
      quiesceTimeout_early hx⟩
  case maxfrz => exact fun s v x hx hst => ⟨maxfrzExpiry_thaws hx hst, maxfrzExpiry_early hx⟩
  case thaw =>
    exact fun s m c x v hs hi hv hv5 hx => ⟨vsThaw_thaws hx hs hi hv hv5, vsThaw_conflicts hx hs hi hv hv5⟩
  case save =>
    exact fun s m c x v hs hi hv hv5 hx => ⟨vsSave_yields hs hi hv hv5 hx, vsSave_conflicts hs hi hv hv5 hx⟩
  case restore =>
    exact fun s m c x v img hs hi hv hv5 hx himg => ⟨vsRestore_takes_piece hs hi hv hv5 hx himg,
      vsRestore_crc hs hi hv hv5 hx himg, vsRestore_applies hs hi hv hv5 hx himg, vsRestore_conflicts hs hi hv hv5 hx⟩
  case migrate =>
    exact fun s m c x v hs hi hv hv5 ht5 hx => ⟨fun hown hst hp hpair =>
      have ⟨t, ht, hend, hg⟩ := vsMigrate_starts hs hi hv hv5 ht5 hx hown hst hp hpair
      ⟨t, ht, hend, _, hg, rfl, rfl, rfl, rfl, rfl, rfl⟩, fun n => vsMigrate_not_owner hs hi hv hv5 ht5⟩
  case phase =>
    exact fun s v g bs hg => ⟨migrationPhaseEnd_failed hg bs, migrationPhaseEnd_passes hg bs,
      fun hph hc x => migrationPhaseEnd_cuts hg bs hph hc, fun hph x => migrationPhaseEnd_restores hg bs hph⟩
  case receive =>
    exact fun s src v seq x hx hst => ⟨migrateReceive_acknowledges seq hx hst,
      fun o bs => migrateReceive_takes_piece seq hx hst⟩
  case acknowledged =>
    exact fun s src v seq n g x hg hph hx => ⟨migrateReceive_moves seq hg hph hx, migrateReceive_early seq hg⟩

end Sys2Proof.Machine
end

section
/-! PROOFS. The key vault: its self-tests and zeroisation, its sessions, its key slots, and the statement about them (R373,
R385 to R402; the first generation of a key log 56, the order of the key checks log 43). -/

namespace Sys2Proof.Machine

/-! ## Checks and ends of key commands -/

theorem firstFail_append {l : List (Bool × Nat)} (h : firstFail l = none) (l' : List (Bool × Nat)) :
    firstFail (l ++ l') = firstFail l' := by
  induction l with
  | nil => rfl
  | cons e l ih =>
    obtain ⟨b, st⟩ := e
    cases b with
    | true => exact absurd h (Option.some_ne_none st)
    | false => exact ih h

/-- On a vault that serves, the checks of a key command that are left (R392; log 43). -/
theorem State.checked_serving {s : State} (hk : firstFail (s.keyChecks serving) = none) (m : Master) (l : List (Bool × Nat))
    (f : State → State) : s.checked m (s.keyChecks serving ++ l) f = s.checked m l f := by
  rw [State.checked, firstFail_append hk, ← State.checked]

section
variable {s : State} {m : Master} {op : Nat} {c : MbCmd} (hs : s.Starts m op c) (hi : s.Inv)
include hs hi

/-- A command that only ends with an error leaves the vault as it is. -/
theorem State.Starts.refuses {i : Instr} {st : Nat} (h : exec i s = .next (s.finish m st [])) :
    Gives i s fun t => t.Ended m st ∧ t.kvt = s.kvt :=
  ⟨_, h, hs.ends hi rfl st, State.finish_kvt ..⟩

variable {t : State} (ht : t.mbx = s.mbx)
include ht

/-- A command that has started ends with OK and its result whatever has changed outside the mailbox. -/
theorem State.Starts.yields (res : List Byte) : (t.finish m stOk res).Yields m c res :=
  State.finish_yields (ht ▸ hi.counts.masters) (by rw [State.cmdOf, ht]; exact hs.1) res

/-- A change that goes to the peer ends its command, or leaves it waiting inside its operation (R283). -/
theorem State.Starts.propagates (r : PropRec) : (t.propagate m r).Propagated (t.propagate m r) m := by
  have hc : t.cmdOf m = some c := by rw [State.cmdOf, ht]; exact hs.1
  unfold State.Propagated
  rw [State.propagate_rfx]
  unfold State.propagate
  simp only [Bool.or_eq_true]
  split
  · exact State.finish_ended (ht ▸ hi.counts.masters) hc stOk r.result
  · obtain ⟨d, hd, hr⟩ := State.cmdOf_keepRunning hc rfl
    refine ⟨d, ?_, hr⟩
    split
    · rw [State.cmdOf, State.sendProp_mbx]
      exact hd
    · exact hd

theorem State.Starts.sendKey_propagates (old : State) (code n : Nat) :
    (t.sendKey m old code n).Propagated (t.sendKey m old code n) m :=
  hs.propagates hi ht _

end

theorem State.sendKey_kvt (s : State) (m : Master) (old : State) (op n : Nat) : (s.sendKey m old op n).kvt = s.kvt :=
  State.propagate_kvt ..

/-! ## Key slots (R385, R389, R398) -/

theorem internalSlot_eq_false {n : Nat} (h : 16 ≤ n) : internalSlot n = false := decide_eq_false (Nat.not_lt.mpr h)

theorem State.findKey_congr {s t : State} (h : t.kvt.slots = s.kvt.slots) (n : Nat) : t.findKey n = s.findKey n := by
  rw [State.findKey, h, ← State.findKey]

theorem State.findKey_sendKey (s : State) (m : Master) (old : State) (op n k : Nat) :
    (s.sendKey m old op n).findKey k = s.findKey k :=
  State.findKey_congr (congrArg KvtSt.slots (s.sendKey_kvt m old op n)) k

theorem State.slotIs_of_findKey {s : State} {n : Nat} {k : KeySlot} (h : s.findKey n = some k) (ty : Nat) :
    s.slotIs n ty = Decidable.decide (k.typ = ty) := by
  rw [State.slotIs, h]
  rfl

/-- The vault follows its officer keys with its state and its session alone (R392, R394). -/
theorem State.vaultSettle_kvt (s : State) : ∃ st x, s.vaultSettle.kvt = { s.kvt with st := st, session := x } := by
  unfold State.vaultSettle
  dsimp only
  split
  · split
    · exact ⟨_, _, rfl⟩
    · exact ⟨_, _, rfl⟩
  · split
    · exact ⟨_, _, rfl⟩
    · exact ⟨_, _, rfl⟩
  · exact ⟨_, _, rfl⟩

theorem State.vaultSettle_slots (s : State) : s.vaultSettle.kvt.slots = s.kvt.slots := by
  obtain ⟨st, x, h⟩ := s.vaultSettle_kvt
  rw [h]

theorem State.vaultSettle_storeGen (s : State) : s.vaultSettle.kvt.storeGen = s.kvt.storeGen := by
  obtain ⟨st, x, h⟩ := s.vaultSettle_kvt
  rw [h]

/-- A key as it stands in a slot that was filled just now (R385). -/
def KeySlot.fresh (n ty gen material : Nat) (ident : List Byte) : KeySlot :=
  { slot := n, typ := ty, gen := gen, material := material, oldMaterial := none, count := 0, oldCount := 0, resv := 0,
    resvMseq := 0, cursor := 0, seq := 1, ident := ident }

theorem State.fillSlot_slots (s : State) (n ty gen material : Nat) (ident : List Byte) :
    (s.fillSlot n ty gen material ident).kvt.slots = s.kvt.slots ++ [.fresh n ty gen material ident] := by
  unfold State.fillSlot
  rw [State.vaultSettle_slots, State.sendLine_kvt]
  rfl

theorem State.findKey_fillSlot {s : State} {n : Nat} (h : s.findKey n = none) (ty gen material : Nat) (ident : List Byte) :
    (s.fillSlot n ty gen material ident).findKey n = some (.fresh n ty gen material ident) := by
  rw [State.findKey] at h
  rw [State.findKey, State.fillSlot_slots, List.find?_append, h]
  simp [KeySlot.fresh]

theorem State.emptySlot_slots (s : State) (n : Nat) :
    (s.emptySlot n).kvt.slots = s.kvt.slots.filter (fun k => k.slot ≠ n) := by
  unfold State.emptySlot
  rw [State.vaultSettle_slots, State.sendLine_kvt]
  rfl

theorem State.findKey_emptySlot (s : State) (n : Nat) : (s.emptySlot n).findKey n = none := by
  rw [State.findKey, State.emptySlot_slots, List.find?_filter]
  simp

theorem State.emptySlot_storeGen (s : State) (n : Nat) : (s.emptySlot n).kvt.storeGen = s.kvt.storeGen + 1 := by
  unfold State.emptySlot
  rw [State.vaultSettle_storeGen, State.sendLine_kvt]
  rfl

/-- The slot of a rekey that starts: the next key beside the current one, under the next generation (R373). -/
theorem State.findKey_startRekey {s : State} {n : Nat} {k : KeySlot} (h : s.findKey n = some k) :
    (s.startRekey n).findKey n = some { k with
      oldMaterial := some k.material, material := s.freeNow, gen := k.gen + 1, oldCount := k.count, count := 0, resv := 0
      cursor := 0, seq := k.seq + 1 } :=
  (State.findKey_putKey (s := s.tookFree) (f := fun x => { x with
      oldMaterial := some x.material, material := s.freeNow, gen := x.gen + 1, oldCount := x.count, count := 0, resv := 0
      cursor := 0 }) fun _ => rfl).trans (congrArg (Option.map _) h)

/-! ## Self-tests and zeroisation (R392, R399 to R402) -/

/-- The vault in ERROR, before TLS and MACsec lose their keys (R400). -/
def State.vaultStopped (s : State) (row : Nat) : State :=
  s.updKvt (fun k => { k with
    st := .error, failTest := row, session := none, nonce := none, paired := false, lanesOn := [], drbgCount := 0
    rekeys := k.rekeys.map (fun r => { r with loading := false, loaded := 0 }) })

theorem State.vaultError_eq (s : State) (row : Nat) : s.vaultError row = (s.vaultStopped row).dropKeyed := rfl

theorem State.zeroise_eq (s : State) : s.zeroise = (s.vaultStopped s.kvt.failTest).dropKeyed.raiseFlag Reg.kvtStat 7 := rfl

section
variable {s : State} (hc : Config.hasCipher s.part = true)
include hc

theorem vaultSelftestComplete_passes (hst : s.kvt.st = .selftest) : Gives (.vaultSelftestComplete 0) s fun t =>
    t.kvt.slots = s.kvt.slots ∧
      t.kvt.st = if s.kvt.slots.any (fun k => k.typ = 4) then .operational else .uncommissioned := by
  refine ⟨(s.updKvt (fun k => { k with st := .uncommissioned })).vaultSettle, ?_, State.vaultSettle_slots _, ?_⟩
  · rw [exec_vaultSelftestComplete, execVaultSelftestComplete, if_neg (by simp [hc, hst]), if_neg (by simp)]
  · unfold State.vaultSettle
    dsimp only [State.updKvt_kvt]
    split
    · rfl
    · rfl

theorem vaultSelftestComplete_fails {row : Nat} (hst : s.kvt.st = .selftest) (hr : row ≠ 0) :
    exec (.vaultSelftestComplete row) s = .next (s.vaultStopped row).dropKeyed := by
  rw [exec_vaultSelftestComplete, execVaultSelftestComplete, if_neg (by simp [hc, hst]), if_pos hr, State.vaultError_eq]

theorem entropyHealthFailure_stops : exec .entropyHealthFailure s = .next (s.vaultStopped 4).dropKeyed := by
  rw [exec_entropyHealthFailure, execEntropyHealthFailure, if_pos hc, State.vaultError_eq]

theorem vaultEnvironmentZeroize_stops : exec .vaultEnvironmentZeroize s =
    .next ((s.vaultStopped s.kvt.failTest).dropKeyed.raiseFlag Reg.kvtStat 7) := by
  rw [exec_vaultEnvironmentZeroize, execVaultEnvironmentZeroize, if_pos hc, State.zeroise_eq]

end

/-! ## Sessions, nonces and lockouts end with their time (R394) -/

theorem sessionIdleExpiry_gives {s : State} {m : Master} {o d : Nat} (h : s.kvt.session = some (m, o, d)) :
    (d + ms (s.cfg Reg.kvtLockcfg 13 0) ≤ s.now →
      Gives .sessionIdleExpiry s fun t => t.kvt = { s.kvt with session := none }) ∧
    (s.now < d + ms (s.cfg Reg.kvtLockcfg 13 0) → exec .sessionIdleExpiry s = .next s) := by
  unfold Gives
  rw [exec_sessionIdleExpiry, execSessionIdleExpiry, h]
  exact ⟨fun hd => ⟨_, if_pos hd, rfl⟩, fun hd => if_neg (Nat.not_le.mpr hd)⟩

theorem nonceExpiry_gives {s : State} {o n d : Nat} (h : s.kvt.nonce = some (o, n, d)) :
    (d ≤ s.now → Gives .nonceExpiry s fun t => t.kvt = { s.kvt with nonce := none }) ∧
    (s.now < d → exec .nonceExpiry s = .next s) := by
  unfold Gives
  rw [exec_nonceExpiry, execNonceExpiry, h]
  exact ⟨fun hd => ⟨_, if_pos hd, rfl⟩, fun hd => if_neg (Nat.not_le.mpr hd)⟩

theorem State.officer_setOfficer {s : State} {x : OfficerSt} {o : Nat} (h : x.officer = o) : (s.setOfficer x).officer o = x := by
  have hf : (s.kvt.officers.filter (fun y => y.officer ≠ x.officer)).find? (fun y => y.officer = o) = none := by
    rw [List.find?_filter]
    simp [h]
  simp only [State.officer, State.setOfficer, State.updKvt_kvt]
  rw [List.find?_append, hf]
  simp [h]

theorem loginLockoutExpiry_gives (s : State) (o : Nat) :
    (due (s.officer o).lockout s.now = true → (s.officer o).officer = o → Gives (.loginLockoutExpiry o) s fun t =>
      t.officer o = { s.officer o with lockout := none }) ∧
    (due (s.officer o).lockout s.now = false → exec (.loginLockoutExpiry o) s = .next s) := by
  unfold Gives
  rw [exec_loginLockoutExpiry, execLoginLockoutExpiry]
  exact ⟨fun hd ho => ⟨_, if_pos hd, State.officer_setOfficer ho⟩, fun hd => if_neg (by simp [hd])⟩

/-- The eighth failure within 60 s locks the officer out (R394). -/
theorem State.officer_loginFailed {s : State} {o : Nat}
    (h : 7 ≤ ((s.officer o).fails.filter (fun t => s.now < t + sec 60)).length) :
    (s.loginFailed o).officer o = ⟨o, [], some (s.now + sec 60)⟩ := by
  unfold State.loginFailed
  dsimp only
  rw [if_pos (by rw [List.length_append, List.length_singleton]; omega)]
  exact State.officer_setOfficer rfl

/-! ## KEY_CHALLENGE, KEY_LOGIN, KEY_LOGOUT (R394) -/

section
variable {s : State} {m : Master} {c : MbCmd} {o : Nat} (hs : s.Starts m 0x0602 c) (hi : s.Inv) (ho : o = leAt c.params 0 2)
  (hk : firstFail (s.keyChecks serving) = none)
include hs hi ho hk

theorem keyChallenge_answers (hf : s.slotIs o 4 = true) : Gives (.keyChallenge m) s fun t =>
    t.Yields m c (leBytes 32 s.freeNow) ∧ t.kvt = { s.kvt with nonce := some (o, s.freeNow, s.now + sec 5) } := by
  refine ⟨(s.tookFree.updKvt (fun k => { k with nonce := some (o, s.freeNow, s.now + sec 5) })).finish m stOk
    (leBytes 32 s.freeNow), ?_, hs.yields hi (by rfl) _, State.finish_kvt ..⟩
  rw [exec_keyChallenge, execKeyChallenge, State.runCmd_starts hs, State.checked_serving hk, ← ho,
    State.checked_ok (by simp [firstFail, hf])]

theorem keyChallenge_conflicts (hf : s.slotIs o 4 = false) :
    Gives (.keyChallenge m) s fun t => t.Ended m stConflict ∧ t.kvt = s.kvt := by
  refine hs.refuses hi ?_
  rw [exec_keyChallenge, execKeyChallenge, State.runCmd_starts hs, State.checked_serving hk, ← ho,
    State.checked_fail (st := stConflict) (by simp [firstFail, hf])]

end

section
variable {s : State} {m : Master} {c : MbCmd} {o : Nat} (hs : s.Starts m 0x0603 c) (hi : s.Inv) (ho : o = leAt c.params 0 2)
  (hk : firstFail (s.keyChecks serving) = none)
include hs ho hk

/-- KEY_LOGIN without a session and without a lockout: the response decides (R394). -/
theorem exec_keyLogin_free (hses : s.kvt.session = none) (hl : (s.officer o).lockout = none) : exec (.keyLogin m) s = .next (
    if s.loginGood m o (slice c.params 4 48) then
      (s.updKvt (fun k => { k with nonce := none, session := some (m, o, s.now) })).finish m stOk []
    else ((s.updKvt (fun k => { k with nonce := none })).loginFailed o).finish m stAuthFailed []) := by
  rw [exec_keyLogin, execKeyLogin, State.runCmd_starts hs]
  dsimp only
  rw [State.checked_serving hk, ← ho, State.checked_ok (by simp [firstFail, hses, hl])]
  rfl

include hi

theorem keyLogin_takes (hses : s.kvt.session = none) (hl : (s.officer o).lockout = none)
    (hg : s.loginGood m o (slice c.params 4 48) = true) : Gives (.keyLogin m) s fun t => t.Ended m stOk ∧
      t.kvt = { s.kvt with nonce := none, session := some (m, o, s.now) } := by
  unfold Gives
  rw [exec_keyLogin_free hs ho hk hses hl, if_pos hg]
  exact ⟨_, rfl, hs.ends hi (by rfl) _, State.finish_kvt ..⟩

theorem keyLogin_fails (hses : s.kvt.session = none) (hl : (s.officer o).lockout = none)
    (hg : s.loginGood m o (slice c.params 4 48) = false) : Gives (.keyLogin m) s fun t => t.Ended m stAuthFailed ∧
      t.kvt.session = none ∧ t.kvt.nonce = none ∧
      (7 ≤ ((s.officer o).fails.filter (fun t => s.now < t + sec 60)).length →
        (t.officer o).lockout = some (s.now + sec 60)) := by
  unfold Gives
  rw [exec_keyLogin_free hs ho hk hses hl, if_neg (by simp [hg])]
  refine ⟨_, rfl, hs.ends hi (by rw [State.loginFailed_mbx]; rfl) _, ?_, ?_, fun h7 => ?_⟩
  · rw [State.finish_kvt]
    exact hses
  · rw [State.finish_kvt]
    rfl
  · rw [State.officer, State.finish_kvt, ← State.officer,
      State.officer_loginFailed (s := s.updKvt (fun k => { k with nonce := none })) h7]
    rfl

omit ho in
theorem keyLogin_busy {m2 : Master} {o2 d : Nat} (hses : s.kvt.session = some (m2, o2, d)) (hm : m2 ≠ m) :
    Gives (.keyLogin m) s fun t => t.Ended m stBusy ∧ t.kvt = s.kvt := by
  refine hs.refuses hi ?_
  rw [exec_keyLogin, execKeyLogin, State.runCmd_starts hs]
  dsimp only
  rw [State.checked_serving hk, State.checked_fail (st := stBusy) (by simp [firstFail, hses, hm])]

theorem keyLogin_locked_out {d : Nat} (hses : s.kvt.session = none) (hl : (s.officer o).lockout = some d) (hd : s.now < d) :
    Gives (.keyLogin m) s fun t => t.Ended m stLimit ∧ t.kvt = s.kvt := by
  refine hs.refuses hi ?_
  rw [exec_keyLogin, execKeyLogin, State.runCmd_starts hs]
  dsimp only
  rw [State.checked_serving hk, ← ho, State.checked_fail (st := stLimit) (by simp [firstFail, hses, hl, hd])]

end

section
variable {s : State} {m : Master} {c : MbCmd} (hs : s.Starts m 0x0604 c) (hi : s.Inv)
  (hk : firstFail (s.keyChecks serving) = none)
include hs hi hk

theorem keyLogout_ends (hin : s.inSession m = true) :
    Gives (.keyLogout m) s fun t => t.Ended m stOk ∧ t.kvt = { s.kvt with session := none } := by
  refine ⟨s.endSession.finish m stOk [], ?_, hs.ends hi (by rfl) _, State.finish_kvt ..⟩
  rw [exec_keyLogout, execKeyLogout, State.runCmd_starts hs, State.checked_serving hk,
    State.checked_ok (by simp [firstFail, hin])]

theorem keyLogout_conflicts (hin : s.inSession m = false) :
    Gives (.keyLogout m) s fun t => t.Ended m stConflict ∧ t.kvt = s.kvt := by
  refine hs.refuses hi ?_
  rw [exec_keyLogout, execKeyLogout, State.runCmd_starts hs, State.checked_serving hk,
    State.checked_fail (st := stConflict) (by simp [firstFail, hin])]

end

/-! ## KEY_INFO (R385, R398, R403) -/

section
variable {s : State} {m : Master} {c : MbCmd} {n : Nat} (hs : s.Starts m 0x0601 c) (hi : s.Inv) (hn : n = leAt c.params 0 2)
  (hc : Config.hasCipher s.part = true)
include hs hi hn hc

theorem keyInfo_reports {k : KeySlot} (hf : s.findKey n = some k) (hst : s.kvt.st = .operational) (hr : n ≤ 0xFFF) :
    Gives (.keyInfo m) s fun t => t.kvt = s.kvt ∧ t.Yields m c (leBytes 1 k.typ ++
      leBytes 1 (if k.oldMaterial.isSome then 2 else 1) ++ zeroBytes 2 ++ leBytes 4 k.gen ++ leBytes 8 k.count ++
      leBytes 4 k.cursor ++ leBytes 1 1 ++ zeroBytes 3) := by
  have hserves : serving.any (fun x => x = s.kvt.st) = true := by simp [serving, hst]
  refine ⟨_, ?_, State.finish_kvt .., hs.yields (t := s) hi rfl _⟩
  rw [exec_keyInfo, execKeyInfo, State.runCmd_starts hs]
  dsimp only
  rw [← hn, hf, hserves, State.checked_ok (by simp [State.keyChecks, firstFail, hc, hst, hr])]
  rfl

theorem keyInfo_refuses_range (hst : s.kvt.st = .operational) (hr : 0xFFF < n) :
    Gives (.keyInfo m) s fun t => t.Ended m stInvalidParam ∧ t.kvt = s.kvt := by
  refine hs.refuses hi ?_
  rw [exec_keyInfo, execKeyInfo, State.runCmd_starts hs]
  dsimp only
  rw [← hn, State.checked_fail (st := stInvalidParam) (by simp [State.keyChecks, firstFail, hc, hst, hr])]

omit hn in
theorem keyInfo_conflicts (hst : s.kvt.st = .selftest) :
    Gives (.keyInfo m) s fun t => t.Ended m stConflict ∧ t.kvt = s.kvt := by
  refine hs.refuses hi ?_
  rw [exec_keyInfo, execKeyInfo, State.runCmd_starts hs]
  dsimp only
  rw [State.checked_fail (st := stConflict) (by simp [State.keyChecks, firstFail, hc, hst])]

end

/-! ## KEY_GENERATE (R389, R398) -/

section
variable {s : State} {m : Master} {c : MbCmd} (hs : s.Starts m 0x0605 c) (hi : s.Inv)
  (hk : firstFail (s.keyChecks serving) = none)
include hs hi hk

theorem keyGenerate_fills {n ty : Nat} (hn : n = leAt c.params 0 2) (ht : ty = byteAt c.params 2) (hin : s.inSession m = true)
    (hf : s.findKey n = none) (h16 : 16 ≤ n) (hr : n ≤ 0xFFF) (hty : ty = 1 ∨ ty = 5) (hu : s.unpaired = false) :
    Gives (.keyGenerate m) s fun t => t.Propagated t m ∧ ∃ k, t.findKey n = some k ∧ k.typ = ty ∧ k.gen = 1 ∧
      k.material = s.freeNow ∧ k.oldMaterial = none ∧ k.count = 0 := by
  refine ⟨(s.tookFree.fillSlot n ty 1 s.freeNow []).sendKey m s 0x0605 n, ?_,
    hs.sendKey_propagates hi (State.fillSlot_mbx s.tookFree ..) s 0x0605 n, _,
    (State.findKey_sendKey ..).trans (State.findKey_fillSlot (s := s.tookFree) hf ty 1 s.freeNow []), rfl, rfl, rfl, rfl, rfl⟩
  rw [exec_keyGenerate, execKeyGenerate, State.runCmd_starts hs]
  dsimp only
  rw [State.checked_serving hk, ← hn, ← ht, State.checked_ok]
  rcases hty with rfl | rfl <;> simp [firstFail, hin, hf, internalSlot_eq_false h16, hr, hu, userType]

theorem keyGenerate_conflicts (hin : s.inSession m = false) :
    Gives (.keyGenerate m) s fun t => t.Ended m stConflict ∧ t.kvt = s.kvt := by
  refine hs.refuses hi ?_
  rw [exec_keyGenerate, execKeyGenerate, State.runCmd_starts hs]
  dsimp only
  rw [State.checked_serving hk, State.checked_fail (st := stConflict) (by simp [firstFail, hin])]

end

/-! ## KEY_IMPORT (R390, R391, R397, R398) -/

/-- A failed unwrap before the sixteenth in a row is counted (R391). -/
theorem State.unwrapFailed_kvt {s : State} (h : s.kvt.unwrapFails < 15) :
    s.unwrapFailed.kvt = { s.kvt with unwrapFails := s.kvt.unwrapFails + 1 } := by
  have h16 : ¬ 16 ≤ s.kvt.unwrapFails + 1 := by omega
  unfold State.unwrapFailed
  dsimp only
  rw [if_neg h16, State.updKvt_kvt, if_neg h16]

/-- A key that unwraps ends the row of failed unwraps (R391). -/
def State.unwrapPassed (s : State) : State := s.updKvt (fun k => { k with unwrapFails := 0 })

section
variable {s : State} {m : Master} {c : MbCmd} {n kek : Nat} (hs : s.Starts m 0x0606 c) (hi : s.Inv)
  (hn : n = leAt c.params 0 2) (ht : 5 = byteAt c.params 2) (hkek : kek = leAt c.params 4 2)
  (hk : firstFail (s.keyChecks serving) = none) (hin : s.inSession m = true) (ha : s.kekAllowed kek 5 = true)
include hs hn ht hkek hk hin ha

/-- KEY_IMPORT of a KEK in a session, under a KEK that may serve it: the unwrap, then the checks of the slot (log 43). -/
theorem exec_keyImport_kek : exec (.keyImport m) s = .next (
    let key := (s.kekOf kek).bind (fun w => Config.unwrapKey w 5 (slice c.params 8 80))
    if key.isNone then s.unwrapFailed.finish m stAuthFailed []
    else s.unwrapPassed.checked m
      [((s.findKey n).isSome || internalSlot n, stConflict), (0xFFF < n || 0 < leAt c.params 6 2, stInvalidParam),
       (s.unpaired, stAuthFailed)]
      (fun u => (u.fillSlot n 5 1 (key.getD 0) (slice c.params 88 (leAt c.params 6 2))).sendKey m s 0x0606 n)) := by
  have hchecks : ∀ b, firstFail (s.keyChecks serving ++ [(!b && !s.inSession m, stConflict)]) = none := fun b => by
    rw [firstFail_append hk]
    simp [firstFail, hin]
  rw [exec_keyImport, execKeyImport, State.runCmd_starts hs]
  dsimp only
  rw [← hn, ← ht, ← hkek, hchecks]
  simp [ha, userType, State.checked, firstFail, State.unwrapPassed]

include hi

theorem keyImport_fills {w key : Nat} (hw : s.kekOf kek = some w)
    (hkey : Config.unwrapKey w 5 (slice c.params 8 80) = some key) (hid : leAt c.params 6 2 = 0) (hf : s.findKey n = none)
    (h16 : 16 ≤ n) (hr : n ≤ 0xFFF) (hu : s.unpaired = false) : Gives (.keyImport m) s fun t => t.Propagated t m ∧
      ∃ k, t.findKey n = some k ∧ k.typ = 5 ∧ k.material = key := by
  refine ⟨(s.unwrapPassed.fillSlot n 5 1 key (slice c.params 88 0)).sendKey m s 0x0606 n, ?_,
    hs.sendKey_propagates hi (State.fillSlot_mbx s.unwrapPassed ..) s 0x0606 n, _,
    (State.findKey_sendKey ..).trans (State.findKey_fillSlot (s := s.unwrapPassed) hf 5 1 key (slice c.params 88 0)), rfl, rfl⟩
  rw [exec_keyImport_kek hs hn ht hkek hk hin ha, hw, Option.bind_some, hkey]
  dsimp only
  rw [if_neg (by simp), hid, State.checked_ok (by simp [firstFail, hf, internalSlot_eq_false h16, hr, hu])]
  rfl

theorem keyImport_fails (hkey : (s.kekOf kek).bind (fun w => Config.unwrapKey w 5 (slice c.params 8 80)) = none)
    (hl : s.kvt.unwrapFails < 15) : Gives (.keyImport m) s fun t => t.Ended m stAuthFailed ∧
      t.kvt = { s.kvt with unwrapFails := s.kvt.unwrapFails + 1 } := by
  refine ⟨s.unwrapFailed.finish m stAuthFailed [], ?_, hs.ends hi (State.unwrapFailed_mbx s) _,
    (State.finish_kvt ..).trans (State.unwrapFailed_kvt hl)⟩
  rw [exec_keyImport_kek hs hn ht hkek hk hin ha, hkey]
  rfl

end

/-! ## KEY_EXPORT (R390, R398) -/

section
variable {s : State} {m : Master} {c : MbCmd} {n kek : Nat} {k w : KeySlot} (hs : s.Starts m 0x0607 c) (hi : s.Inv)
  (hn : n = leAt c.params 0 2) (hkek : kek = leAt c.params 2 2) (hk : firstFail (s.keyChecks serving) = none)
  (hin : s.inSession m = true) (h16 : 16 ≤ n) (hf : s.findKey n = some k) (hw : s.findKey kek = some w)
include hs hi hn hkek hk hin h16 hf hw

theorem keyExport_wraps (hk4 : k.typ ≠ 4) (hw5 : w.typ = 5) : Gives (.keyExport m) s fun t => t.kvt = s.kvt ∧
    t.Yields m c (padTo 80 (Config.wrapKey w.material k.typ k.gen k.material)) := by
  refine ⟨_, ?_, State.finish_kvt .., hs.yields (t := s) hi rfl _⟩
  rw [exec_keyExport, execKeyExport, State.runCmd_starts hs]
  dsimp only
  rw [State.checked_serving hk, ← hn, ← hkek, State.slotIs_of_findKey hf, State.slotIs_of_findKey hw,
    State.checked_ok (by simp [firstFail, hin, internalSlot_eq_false h16, hf, hk4, hw5]), hf, hw]

omit h16 in
theorem keyExport_conflicts (hne : k.typ = 4 ∨ w.typ ≠ 5) :
    Gives (.keyExport m) s fun t => t.Ended m stConflict ∧ t.kvt = s.kvt := by
  refine hs.refuses hi ?_
  rw [exec_keyExport, execKeyExport, State.runCmd_starts hs]
  dsimp only
  rw [State.checked_serving hk, ← hn, ← hkek, State.slotIs_of_findKey hf, State.slotIs_of_findKey hw,
    State.checked_fail (st := stConflict)]
  rcases hne with h | h <;> simp [firstFail, hin, h]

end

/-! ## KEY_DELETE (R389, R398) -/

section
variable {s : State} {m : Master} {c : MbCmd} {n : Nat} (hs : s.Starts m 0x0608 c) (hi : s.Inv) (hn : n = leAt c.params 0 2)
  (hk : firstFail (s.keyChecks serving) = none) (hin : s.inSession m = true)
include hs hi hn hk hin

theorem keyDelete_empties (hu : s.unpaired = false) (h16 : 16 ≤ n) (hx : ∀ x ∈ s.vsm.nss, x.keySlot ≠ n)
    (hr : s.rekeying n = false) : Gives (.keyDelete m) s fun t => t.Propagated t m ∧ t.findKey n = none ∧
      t.kvt.storeGen = s.kvt.storeGen + 1 := by
  have hnss : s.vsm.nss.any (fun x => x.keySlot = n) = false := by simpa using hx
  refine ⟨(s.emptySlot n).sendKey m s 0x0608 n, ?_, hs.sendKey_propagates hi (State.emptySlot_mbx ..) s 0x0608 n,
    (State.findKey_sendKey ..).trans (s.findKey_emptySlot n), ?_⟩
  · rw [exec_keyDelete, execKeyDelete, State.runCmd_starts hs]
    dsimp only
    rw [State.checked_serving hk, ← hn, hnss, State.checked_ok (by simp [firstFail, hin, internalSlot_eq_false h16, hr, hu])]
  · rw [State.sendKey_kvt, State.emptySlot_storeGen]

theorem keyDelete_conflicts {x : Ns} (hx : x ∈ s.vsm.nss) (hxn : x.keySlot = n) :
    Gives (.keyDelete m) s fun t => t.Ended m stConflict ∧ t.kvt = s.kvt := by
  have hnss : s.vsm.nss.any (fun x => x.keySlot = n) = true := List.any_eq_true.mpr ⟨x, hx, decide_eq_true hxn⟩
  refine hs.refuses hi ?_
  rw [exec_keyDelete, execKeyDelete, State.runCmd_starts hs]
  dsimp only
  rw [State.checked_serving hk, ← hn, hnss, State.checked_fail (st := stConflict) (by simp [firstFail, hin])]

end

/-! ## KEY_REKEY (R373, R389, R398) -/

section
variable {s : State} {m : Master} {c : MbCmd} {n : Nat} {k : KeySlot} (hs : s.Starts m 0x0609 c) (hi : s.Inv)
  (hn : n = leAt c.params 0 2) (hk : firstFail (s.keyChecks serving) = none) (hin : s.inSession m = true)
  (hf : s.findKey n = some k)
include hs hi hn hk hin hf

theorem keyRekey_starts {x : Ns} (hu : s.unpaired = false) (hty : k.typ = 1) (hx : s.servedNs n = some x)
    (hown : s.owns x.ring = true) (hold : k.oldMaterial = none) : Gives (.keyRekey m) s fun t => t.Propagated t m ∧
      ∃ y, t.findKey n = some y ∧ y.material = s.freeNow ∧ y.oldMaterial = some k.material ∧ y.gen = k.gen + 1 ∧
        y.cursor = 0 ∧ y.count = 0 := by
  refine ⟨(s.startRekey n).sendKey m s 0x0609 n, ?_, hs.sendKey_propagates hi (State.startRekey_mbx ..) s 0x0609 n, _,
    (State.findKey_sendKey ..).trans (State.findKey_startRekey hf), rfl, rfl, rfl, rfl, rfl⟩
  rw [exec_keyRekey, execKeyRekey, State.runCmd_starts hs]
  dsimp only
  rw [State.checked_serving hk, ← hn, State.slotIs_of_findKey hf, hx, State.rekeying, hf,
    State.checked_ok (by simp [firstFail, hin, hty, hold, hown, hu])]

theorem keyRekey_conflicts (hold : k.oldMaterial.isSome = true) :
    Gives (.keyRekey m) s fun t => t.Ended m stConflict ∧ t.kvt = s.kvt := by
  refine hs.refuses hi ?_
  rw [exec_keyRekey, execKeyRekey, State.runCmd_starts hs]
  dsimp only
  rw [State.checked_serving hk, ← hn, State.rekeying, hf,
    State.checked_fail (st := stConflict) (by simp [firstFail, hin, hold])]

end

/-! ## KEY_SELFTEST, KEY_ZEROIZE, KEY_RANDOM (R398 to R401) -/

section
variable {s : State} {m : Master} {c : MbCmd} (hs : s.Starts m 0x060A c) (hk : firstFail (s.keyChecks serving) = none)
include hs hk

theorem exec_keySelftest_serving (row : Nat) : exec (.keySelftest m row) s = .next (
    (if row = 0 then s.updKvt (fun k => { k with drbgCount := 0 }) else
      ((s.updKvt (fun k => { k with drbgCount := 0 })).vaultStopped row).dropKeyed).finish m stOk (leBytes 4 row)) := by
  rw [exec_keySelftest, execKeySelftest, State.runCmd_starts hs, State.checked_ok hk]
  rfl

theorem keySelftest_passes (hi : s.Inv) : Gives (.keySelftest m 0) s fun t => t.Yields m c (leBytes 4 0) ∧
    t.kvt = { s.kvt with drbgCount := 0 } :=
  ⟨_, exec_keySelftest_serving hs hk 0, hs.yields hi (by rfl) _, State.finish_kvt ..⟩

theorem keySelftest_fails {row : Nat} (hr : row ≠ 0) : exec (.keySelftest m row) s = .next
    (((s.updKvt (fun k => { k with drbgCount := 0 })).vaultStopped row).dropKeyed.finish m stOk (leBytes 4 row)) := by
  rw [exec_keySelftest_serving hs hk, if_neg hr]

end

section
variable {s : State} {m : Master} {c : MbCmd} (hs : s.Starts m 0x060B c) (hc : Config.hasCipher s.part = true)
  (hst : s.kvt.st ≠ .selftest)
include hs hc hst

theorem keyZeroize_volatile (h1 : byteAt c.params 0 = 1) : exec (.keyZeroize m) s =
    .next (((s.vaultStopped s.kvt.failTest).dropKeyed.raiseFlag Reg.kvtStat 7).finish m stOk []) := by
  rw [exec_keyZeroize, execKeyZeroize, State.runCmd_starts hs]
  dsimp only
  rw [h1, State.checked_ok (by simp [firstFail, hc, hst]), if_pos rfl, State.zeroise_eq]

theorem keyZeroize_full (h2 : byteAt c.params 0 = 2) (hin : s.inSession m = true) : Gives (.keyZeroize m) s fun t =>
    t.kvt.slots = [] ∧ t.kvt.rekeys = [] ∧ t.kvt.officers = [] := by
  have hkvt := s.zeroiseAll.finish_kvt m stOk []
  refine ⟨_, ?_, congrArg KvtSt.slots hkvt, congrArg KvtSt.rekeys hkvt, congrArg KvtSt.officers hkvt⟩
  rw [exec_keyZeroize, execKeyZeroize, State.runCmd_starts hs]
  dsimp only
  rw [h2, State.checked_ok (by simp [firstFail, hc, hst, hin]), if_neg (by decide)]

theorem keyZeroize_conflicts (hi : s.Inv) (h2 : byteAt c.params 0 = 2) (hin : s.inSession m = false) :
    Gives (.keyZeroize m) s fun t => t.Ended m stConflict ∧ t.kvt = s.kvt := by
  refine hs.refuses hi ?_
  rw [exec_keyZeroize, execKeyZeroize, State.runCmd_starts hs]
  dsimp only
  rw [h2, State.checked_fail (st := stConflict) (by simp [firstFail, hc, hst, hin])]

end

section
variable {s : State} {m : Master} {c : MbCmd} {n : Nat} (hs : s.Starts m 0x060C c) (hi : s.Inv) (hn : n = leAt c.params 0 2)
  (hk : firstFail (s.keyChecks serving) = none)
include hs hi hn hk

theorem keyRandom_answers (h0 : 0 < n) (hr : n ≤ 4096) : Gives (.keyRandom m) s fun t =>
    t.Yields m c ((natsFrom s.freeCtr n).map Config.freeByte) ∧ t.freeCtr = s.freeCtr + n ∧
      t.kvt.drbgCount = (s.kvt.drbgCount + 1) % 2 ^ 20 := by
  refine ⟨(({ s with freeCtr := s.freeCtr + n } : State).updKvt (fun k => { k with
    drbgCount := (k.drbgCount + 1) % 2 ^ 20 })).finish m stOk ((natsFrom s.freeCtr n).map Config.freeByte), ?_,
    hs.yields hi (by rfl) _, State.finish_freeCtr .., congrArg KvtSt.drbgCount (State.finish_kvt ..)⟩
  rw [exec_keyRandom, execKeyRandom, State.runCmd_starts hs]
  dsimp only
  rw [State.checked_serving hk, ← hn, State.checked_ok (by simp [firstFail, hr, Nat.ne_of_gt h0])]

theorem keyRandom_refuses (hr : n = 0 ∨ 4096 < n) :
    Gives (.keyRandom m) s fun t => t.Ended m stInvalidParam ∧ t.kvt = s.kvt := by
  refine hs.refuses hi ?_
  rw [exec_keyRandom, execKeyRandom, State.runCmd_starts hs]
  dsimp only
  rw [State.checked_serving hk, ← hn, State.checked_fail (st := stInvalidParam)]
  rcases hr with h | h <;> simp [firstFail, h]

end

/-! ## The statement -/

/-- Settles O26: each command by its own rules above. Where the vault stops, the state before TLS and MACsec lose their keys is
`State.vaultStopped`. -/
theorem vaultSessionsAndKeys : Obligations.VaultSessionsAndKeys := by
  unfold Obligations.VaultSessionsAndKeys
  refine ⟨?stops, fun s m o d => sessionIdleExpiry_gives, fun s o n d => nonceExpiry_gives, loginLockoutExpiry_gives,
    ?challenge, ?login, ?logout, ?info, ?generate, ?imports, ?exports, ?delete, ?rekey, ?selftest, ?zeroize, ?random⟩
  case stops =>
    intro s row hc
    refine ⟨?_, s.vaultStopped row, rfl, rfl, rfl, rfl, rfl, rfl, vaultSelftestComplete_fails hc, ?_, ?_⟩
    · rintro hst rfl
      exact vaultSelftestComplete_passes hc hst
    · rintro rfl
      exact entropyHealthFailure_stops hc
    · rintro rfl
      exact vaultEnvironmentZeroize_stops hc
  case challenge =>
    exact fun s m c o hs hi ho hk => ⟨keyChallenge_answers hs hi ho hk, keyChallenge_conflicts hs hi ho hk⟩
  case login =>
    exact fun s m c o hs hi ho hk => ⟨
      fun hses hl => ⟨keyLogin_takes hs hi ho hk hses hl, keyLogin_fails hs hi ho hk hses hl⟩,
      fun m2 o2 d => keyLogin_busy hs hi hk, fun d => keyLogin_locked_out hs hi ho hk⟩
  case logout => exact fun s m c hs hi hk => ⟨keyLogout_ends hs hi hk, keyLogout_conflicts hs hi hk⟩
  case info =>
    exact fun s m c n k hs hi hn hf hc => ⟨keyInfo_reports hs hi hn hc hf, keyInfo_refuses_range hs hi hn hc,
      keyInfo_conflicts hs hi hc⟩
  case generate =>
    exact fun s m c n ty hs hi hn ht hk => ⟨keyGenerate_fills hs hi hk hn ht, keyGenerate_conflicts hs hi hk⟩
  case imports =>
    rintro s m c n ty kek hs hi hn ht hkek hk hin rfl ha
    exact ⟨fun w key => keyImport_fills hs hi hn ht hkek hk hin ha, keyImport_fails hs hi hn ht hkek hk hin ha⟩
  case exports =>
    exact fun s m c n kek k w hs hi hn hkek hk hin h16 hf hw => ⟨keyExport_wraps hs hi hn hkek hk hin h16 hf hw,
      keyExport_conflicts hs hi hn hkek hk hin hf hw⟩
  case delete =>
    exact fun s m c n hs hi hn hk hin hu h16 => ⟨keyDelete_empties hs hi hn hk hin hu h16,
      fun x => keyDelete_conflicts hs hi hn hk hin⟩
  case rekey =>
    exact fun s m c n k x hs hi hn hk hin hu hf hty hx hown => ⟨keyRekey_starts hs hi hn hk hin hf hu hty hx hown,
      keyRekey_conflicts hs hi hn hk hin hf⟩
  case selftest =>
    intro s m c row hs hi hk
    refine ⟨?_, fun hr => ⟨(s.updKvt (fun k => { k with drbgCount := 0 })).vaultStopped row, rfl, rfl, rfl, rfl,
      keySelftest_fails hs hk hr⟩⟩
    rintro rfl
    exact keySelftest_passes hs hk hi
  case zeroize =>
    exact fun s m c hs hi hc hst => ⟨
      fun h1 => ⟨s.vaultStopped s.kvt.failTest, rfl, rfl, rfl, keyZeroize_volatile hs hc hst h1⟩,
      keyZeroize_full hs hc hst, keyZeroize_conflicts hs hc hst hi⟩
  case random =>
    exact fun s m c n hs hi hn hk => ⟨keyRandom_answers hs hi hn hk, keyRandom_refuses hs hi hn hk⟩

end Sys2Proof.Machine
end

section
/-! PROOFS. Packets of the masters and their replies (R405, R406, R415 to R418, R436): what the mailbox does with a packet, and
what it answers (the order of the checks of a packet's form log 34, the answer to a control message log 7). -/

namespace Sys2Proof.Machine

/-! ## Replies (R412, R417) -/

/-- The emission that carries a reply. -/
def Reply.emission (r : Reply) : Emission :=
  .reply r.m r.seq r.status ((if r.reject then 1 else 0) + (if r.dmaErr then 2 else 0)) r.result

theorem State.sendReply_sent (s : State) (r : Reply) : s.Sent (s.sendReply r) r.emission := by
  unfold State.sendReply
  dsimp only
  split
  · exact (State.Sent.emit s _).later (Kept.mgmtPeer (uu := { out := true, xbr := true }) _ (.refl _) rfl rfl).out
  · exact State.Sent.emit s _

theorem State.serviceReply_mbx (s : State) (r : Reply) : (s.serviceReply r).mbx =
    { s.mbx with replyWin := r.bytes, replyReject := r.reject, replyStatus := r.status, replyDmaErr := r.dmaErr } := by
  unfold State.serviceReply
  dsimp only
  split
  · rw [State.sendMsi_mbx, State.sendReply_mbx, State.updMbx_mbx]
  · rw [State.sendReply_mbx, State.updMbx_mbx]

theorem State.serviceReply_sent (s : State) (r : Reply) : s.Sent (s.serviceReply r) r.emission := by
  have hs := ((s.updMbx fun x => { x with
    replyWin := r.bytes, replyReject := r.reject, replyStatus := r.status, replyDmaErr := r.dmaErr }).sendReply_sent r).congr
      (s' := s) rfl rfl
  unfold State.serviceReply
  dsimp only
  split
  · exact hs.later (State.sendMsi_kept _ 0).out
  · exact hs

/-- The emission of what is held for a master. -/
theorem State.heldReply_emission (s : State) (m : Master) (seq : Nat) : (s.heldReply m seq).emission = .reply m seq
    (match (s.heldOf m).result with | none => stPending | some x => x.1)
    (match (s.heldOf m).result with | none => 0 | some _ => if (s.heldOf m).dmaErr then 2 else 0)
    (match (s.heldOf m).result with | none => [] | some x => x.2) := by
  unfold State.heldReply
  dsimp only
  split
  · next h => rw [h]; rfl
  · next st res h => rw [h]; simp [Reply.emission]

/-! ## The packet of a route -/

section
variable {s : State} {m : Master} {p : List Byte}

/-- A packet that the mailbox serves is taken, and its reply leaves; what the mailbox keeps of its commands and replies is
what the packet's acceptance left. -/
theorem State.route_served (hv : s.mbxServes m = true) : s.Sent (s.route m p) (s.receive m p).2.emission ∧
    (s.route m p).mbx.cmds = (s.receive m p).1.mbx.cmds ∧ (s.route m p).mbx.held = (s.receive m p).1.mbx.held := by
  have ho := (s.receive_kept m p).out
  unfold State.route
  rw [if_neg (by simp [hv])]
  dsimp only
  split
  · exact ⟨(State.serviceReply_sent ..).before ho, by rw [State.serviceReply_mbx], by rw [State.serviceReply_mbx]⟩
  · exact ⟨(State.sendReply_sent ..).before ho, by rw [State.sendReply_mbx], by rw [State.sendReply_mbx]⟩

theorem State.route_unserved (hv : s.mbxServes m = false) : s.route m p = s := if_pos (by simp [hv])

/-- A packet of bad form is rejected with what its form fails (R415). -/
theorem State.receive_malformed {st : Nat} (h : packetForm m p = some st) : s.receive m p = s.reject m p st := by
  simp only [State.receive, h]

section
variable (h : packetForm m p = none)
include h

/-- A poll of the held SEQ is answered from what is held (R418). -/
theorem State.receive_poll (hf : byteAt p 3 % 2 = 1) (hl : leAt p 12 2 = 0) (hq : (s.heldOf m).seq = some (leAt p 8 4)) :
    s.receive m p = (s.renew m false, s.heldReply m (leAt p 8 4)) := by
  simp only [State.receive, h, hf, hl, hq, decide_true, Bool.and_true, if_true]

/-- A new command: SYNC is set, or nothing is held of its master (R417). -/
theorem State.receive_new (hf : byteAt p 3 % 2 = 0) (hn : byteAt p 3 / 2 % 2 = 1 ∨ (s.heldOf m).seq = none) :
    s.receive m p = if (s.cmdOf m).isSome then s.reject m p stBusy else s.accept m p := by
  simp only [State.receive, h]
  rw [if_neg (by omega), if_pos]
  rcases hn with hn | hn
  · split <;> simp [hn]
  · rw [hn]

/-- The held SEQ and opcode again are answered from what is held (R417). -/
theorem State.receive_again (hf : byteAt p 3 % 4 = 0) (hq : (s.heldOf m).seq = some (leAt p 8 4))
    (ho : (s.heldOf m).opcode = leAt p 0 2) : s.receive m p = (s.renew m true, s.heldReply m (leAt p 8 4)) := by
  have hsync : ¬ byteAt p 3 / 2 % 2 = 1 := by omega
  have hnext : leAt p 8 4 ≠ (leAt p 8 4 + 1) % 2 ^ 32 := by omega
  simp only [State.receive, h, hq, ho]
  rw [if_neg (by omega), if_neg, if_pos (by simp)]
  simp only [hsync, hnext, decide_false, Bool.or_false, Bool.false_eq_true, not_false_eq_true]

end

end

/-! ## Leases and presence (R245, R246, R418) -/

/-- The lease renewed where the master owns control. -/
def State.leaseRenewed (s : State) (m : Master) : State :=
  if s.isOwner m then s.updMbx (fun x => { x with lease := some (s.now + s.leaseNs) }) else s

theorem State.leaseRenewed_mbx (s : State) (m : Master) : ∃ x, (s.leaseRenewed m).mbx = { s.mbx with lease := x } := by
  unfold State.leaseRenewed
  split
  · exact ⟨_, rfl⟩
  · exact ⟨_, rfl⟩

theorem State.renew_poll (s : State) (m : Master) : s.renew m false = s.leaseRenewed m := rfl

theorem State.renew_post (s : State) (m : Master) : s.renew m true =
    (s.leaseRenewed m).setHeld m (fun h => { h with present := some (s.now + 2 * s.leaseNs) }) := rfl

theorem State.renew_cmds (s : State) (m : Master) (post : Bool) : (s.renew m post).mbx.cmds = s.mbx.cmds := by
  obtain ⟨_, h⟩ := s.leaseRenewed_mbx m
  cases post with
  | false => rw [State.renew_poll, h]
  | true => rw [State.renew_post, State.setHeld_mbx, h]

theorem State.renew_poll_held (s : State) (m : Master) : (s.renew m false).mbx.held = s.mbx.held := by
  obtain ⟨_, h⟩ := s.leaseRenewed_mbx m
  rw [State.renew_poll, h]

/-- A posted packet renews the presence of its master; the rest of what is held stays. -/
theorem State.heldOf_renew_post {s : State} (hl : s.mbx.held.length = 4) (m : Master) :
    (s.renew m true).heldOf m = { s.heldOf m with present := some (s.now + 2 * s.leaseNs) } := by
  obtain ⟨_, h⟩ := s.leaseRenewed_mbx m
  rw [State.renew_post, State.heldOf_setHeld (by rw [h]; exact hl), if_pos rfl, State.heldOf, h, ← State.heldOf]

/-! ## A new command (R416, R417, R420) -/

/-- The command that a packet carries, as it is accepted. -/
def State.newCmd (s : State) (m : Master) (p : List Byte) : MbCmd :=
  { m := m, seq := leAt p 8 4, opcode := leAt p 0 2, rev := byteAt p 2, flags := byteAt p 3,
    params := slice p 64 (leAt p 12 2), daddr := leAt p 16 8, dlen := leAt p 24 4, fromOwner := s.isOwner m,
    started := false, running := false, fetching := false, noDma := !s.sep.bme }

/-- What is held for a master while its command is outstanding. -/
def Held.pending (h : Held) (seq op : Nat) : Held :=
  { h with seq := some seq, opcode := op, result := none, dmaErr := false, ddone := 0 }

/-- In the mailbox a new command does three things: it is queued, PENDING replaces the held result, and its master's
presence is renewed. -/
theorem State.accept_mbx (s : State) (m : Master) (p : List Byte) : ∃ u : State,
    u.mbx = { s.mbx with cmds := s.mbx.cmds ++ [s.newCmd m p] } ∧
    (s.accept m p).1.mbx = ((u.setHeld m (fun h => h.pending (leAt p 8 4) (leAt p 0 2))).renew m true).mbx :=
  ⟨_, rfl, State.count_mbx ..⟩

theorem State.heldOf_accept {s : State} (hl : s.mbx.held.length = 4) (m : Master) (p : List Byte) :
    ((s.accept m p).1.heldOf m).seq = some (leAt p 8 4) ∧ ((s.accept m p).1.heldOf m).result = none := by
  obtain ⟨u, hu, hm⟩ := s.accept_mbx m p
  have hlu : u.mbx.held.length = 4 := by rw [hu]; exact hl
  rw [State.heldOf, hm, ← State.heldOf, State.heldOf_renew_post (by rw [State.setHeld_mbx, length_setAt]; exact hlu),
    State.heldOf_setHeld hlu, if_pos rfl]
  exact ⟨rfl, rfl⟩

theorem State.accept_emission {s : State} (hl : s.mbx.held.length = 4) (m : Master) (p : List Byte) :
    (s.accept m p).2.emission = .reply m (leAt p 8 4) stPending 0 [] := by
  have h := (s.accept m p).1.heldReply_emission m (leAt p 8 4)
  rwa [(State.heldOf_accept hl m p).2] at h

theorem State.cmdOf_accept {s : State} {m : Master} (hc : s.cmdOf m = none) (p : List Byte) :
    (s.accept m p).1.cmdOf m = some (s.newCmd m p) := by
  obtain ⟨u, hu, hm⟩ := s.accept_mbx m p
  rw [State.cmdOf] at hc
  rw [State.cmdOf, hm, State.renew_cmds, State.setHeld_mbx, hu, List.find?_append, hc]
  simp [State.newCmd]

/-! ## MCTP_MESSAGE, MCTP_CONTROL_MESSAGE (R405, R406, R415, R417) -/

theorem mctpMessage_dropped {s : State} {p : List Byte} (h : 4160 < p.length ∨ s.mbxServes .bmc = false) :
    exec (.mctpMessage p) s = .next s := by
  rw [exec_mctpMessage, execMctpMessage]
  by_cases hp : 4160 < p.length
  · exact if_pos hp
  · rw [if_neg hp, State.route_unserved (h.resolve_left hp)]

section
variable {s : State} {p : List Byte} (hp : p.length ≤ 4160) (hv : s.mbxServes .bmc = true)
include hp hv

/-- A message of the BMC that is served: its reply leaves, and the mailbox is as the packet's acceptance left it. -/
theorem mctpMessage_served : ∃ t, exec (.mctpMessage p) s = .next t ∧ s.Sent t (s.receive .bmc p).2.emission ∧
    t.mbx = (s.receive .bmc p).1.mbx := by
  refine ⟨s.route .bmc p, ?_, (State.route_served hv).1, ?_⟩
  · rw [exec_mctpMessage, execMctpMessage, if_neg (Nat.not_lt.mpr hp)]
  · rw [State.route, if_neg (by simp [hv])]
    exact State.sendReply_mbx ..

/-- A packet that is rejected leaves the mailbox as it is (R415). -/
theorem mctpMessage_rejected {st : Nat} (h : s.receive .bmc p = s.reject .bmc p st) : Gives (.mctpMessage p) s fun t =>
    s.Sent t (.reply .bmc (leAt p 8 4) st 1 []) ∧ t.mbx = s.mbx := by
  obtain ⟨t, ht, hsent, hm⟩ := mctpMessage_served hp hv
  rw [h] at hsent hm
  exact ⟨t, ht, hsent, hm.trans (State.bump_mbx ..)⟩

theorem mctpMessage_crc (hlen : leAt p 12 2 ≤ 4096)
    (hbad : p.length < 64 + leAt p 12 2 ∨ leAt p 60 4 ≠ (crc32c (p.take 60 ++ slice p 64 (leAt p 12 2))).toNat) :
    Gives (.mctpMessage p) s fun t => s.Sent t (.reply .bmc (leAt p 8 4) stCrc 1 []) ∧ t.mbx = s.mbx := by
  refine mctpMessage_rejected hp hv (State.receive_malformed ?_)
  unfold packetForm
  dsimp only
  rw [if_neg (Nat.not_lt.mpr hlen), if_pos (by simpa using hbad)]

section
variable (h : packetForm .bmc p = none)
include h

section
variable (hf : byteAt p 3 % 2 = 0) (hn : byteAt p 3 / 2 % 2 = 1 ∨ (s.heldOf .bmc).seq = none)
include hf hn

theorem mctpMessage_busy {c : MbCmd} (hc : s.cmdOf .bmc = some c) : Gives (.mctpMessage p) s fun t =>
    s.Sent t (.reply .bmc (leAt p 8 4) stBusy 1 []) ∧ t.mbx = s.mbx :=
  mctpMessage_rejected hp hv (by rw [State.receive_new h hf hn, hc]; rfl)

theorem mctpMessage_accepts (hl : s.mbx.held.length = 4) (hc : s.cmdOf .bmc = none) : Gives (.mctpMessage p) s fun t =>
    s.Sent t (.reply .bmc (leAt p 8 4) stPending 0 []) ∧ (t.heldOf .bmc).seq = some (leAt p 8 4) ∧
    (t.heldOf .bmc).result = none ∧ ∃ c, t.cmdOf .bmc = some c ∧ c.opcode = leAt p 0 2 ∧ c.rev = byteAt p 2 ∧
      c.params = slice p 64 (leAt p 12 2) ∧ c.started = false ∧ c.fromOwner = s.isOwner .bmc := by
  obtain ⟨t, ht, hsent, hm⟩ := mctpMessage_served hp hv
  have hr : s.receive .bmc p = s.accept .bmc p := by rw [State.receive_new h hf hn, hc]; rfl
  have hheld := State.heldOf_accept hl .bmc p
  rw [hr] at hsent hm
  rw [State.heldOf, ← hm, ← State.heldOf] at hheld
  rw [State.accept_emission hl] at hsent
  refine ⟨t, ht, hsent, hheld.1, hheld.2, s.newCmd .bmc p, ?_, rfl, rfl, rfl, rfl, rfl⟩
  rw [State.cmdOf, hm, ← State.cmdOf]
  exact State.cmdOf_accept hc p

end

theorem mctpMessage_again (hf : byteAt p 3 % 4 = 0) (hq : (s.heldOf .bmc).seq = some (leAt p 8 4))
    (ho : (s.heldOf .bmc).opcode = leAt p 0 2) {st : Nat} {r : List Byte} (hr : (s.heldOf .bmc).result = some (st, r)) :
    Gives (.mctpMessage p) s fun t => t.mbx.cmds = s.mbx.cmds ∧
      s.Sent t (.reply .bmc (leAt p 8 4) st (if (s.heldOf .bmc).dmaErr then 2 else 0) r) := by
  obtain ⟨t, ht, hsent, hm⟩ := mctpMessage_served hp hv
  rw [State.receive_again h hf hq ho] at hsent hm
  rw [State.heldReply_emission, hr] at hsent
  exact ⟨t, ht, by rw [hm, State.renew_cmds], hsent⟩

end
end

theorem mctpControlMessage_answers (s : State) (n : Nat) :
    exec (.mctpControlMessage n) s = .next (s.emit (.reply .bmc n stOk 0 [])) := by
  rw [exec_mctpControlMessage, execMctpControlMessage]

/-! ## POLL, DOORBELL_SEND (R405, R418, R436) -/

theorem poll_posted {s : State} {m : Master} {p : List Byte} (hf : byteAt p 3 % 2 = 0) :
    exec (.poll m p) s = .next s := by
  rw [exec_poll, execPoll, if_neg (by omega)]

theorem poll_answers {s : State} {m : Master} {p : List Byte} (hf : byteAt p 3 % 2 = 1) (hv : s.mbxServes m = true)
    (h : packetForm m p = none) (hl : leAt p 12 2 = 0) (hq : (s.heldOf m).seq = some (leAt p 8 4)) :
    Gives (.poll m p) s fun t => t.mbx.cmds = s.mbx.cmds ∧ t.mbx.held = s.mbx.held ∧
      s.Sent t (.reply m (leAt p 8 4) (match (s.heldOf m).result with | none => stPending | some x => x.1)
        (match (s.heldOf m).result with | none => 0 | some _ => if (s.heldOf m).dmaErr then 2 else 0)
        (match (s.heldOf m).result with | none => [] | some x => x.2)) := by
  obtain ⟨hsent, hc, hh⟩ := State.route_served (p := p) hv
  rw [State.receive_poll h hf hl hq] at hsent hc hh
  rw [State.heldReply_emission] at hsent
  refine ⟨s.route m p, ?_, by rw [hc, State.renew_cmds], by rw [hh, State.renew_poll_held], hsent⟩
  rw [exec_poll, execPoll, if_pos hf]

theorem doorbellSend_lapses {s : State} {w : Word}
    (h : s.sepRoute = false ∨ fieldOf w 0 0 = 0 ∨ s.mbxServes .service = false) : exec (.doorbellSend w) s = .next s := by
  rw [exec_doorbellSend, execDoorbellSend]
  cases hr : s.sepRoute with
  | false => rfl
  | true =>
    rw [if_pos rfl, State.doorbell]
    split
    · next hw =>
      rw [State.route_unserved (by simpa [hr, hw] using h)]
    · rfl

theorem doorbellSend_fills_reply {s : State} {w : Word} (hr : s.sepRoute = true) (hw : fieldOf w 0 0 = 1)
    (hv : s.mbxServes .service = true) : Gives (.doorbellSend w) s fun t => ∃ (u : State) (r : Reply),
      s.receive .service (s.windowPacket.take (64 + leAt s.windowPacket 12 2)) = (u, r) ∧
        t.mbx.replyWin = r.bytes ∧ t.mbx.replyStatus = r.status ∧ t.mbx.cmds = u.mbx.cmds ∧ t.mbx.held = u.mbx.held ∧
        u.Sent t (.reply r.m r.seq r.status ((if r.reject then 1 else 0) + (if r.dmaErr then 2 else 0)) r.result) := by
  obtain ⟨u, r, hur⟩ : ∃ u r, s.receive .service (s.windowPacket.take (64 + leAt s.windowPacket 12 2)) = (u, r) :=
    ⟨_, _, rfl⟩
  have hm := u.serviceReply_mbx r
  refine ⟨u.serviceReply r, ?_, u, r, hur, by rw [hm], by rw [hm], by rw [hm], by rw [hm], u.serviceReply_sent r⟩
  rw [exec_doorbellSend, execDoorbellSend, if_pos hr, State.doorbell, if_pos hw, State.route, if_neg (by simp [hv])]
  dsimp only
  rw [hur]
  rfl

end Sys2Proof.Machine
end

section
/-! PROOFS. The start of commands, and the commands of the mailbox itself (R411, R413, R421 to R427, R625; the order of the checks
log 35). -/

namespace Sys2Proof.Machine

/-! ## COMMAND_START (R411, R421, R425, R625) -/

theorem commandStart_nothing {s : State} {m : Master} (hc : s.cmdOf m = none) : exec (.commandStart m) s = .next s := by
  rw [exec_commandStart, execCommandStart, hc]

section
variable {s : State} {m : Master} {c : MbCmd} (hc : s.cmdOf m = some c)
include hc

theorem commandStart_waits (h : c.started = true ∨ s.mayStart c = false) : exec (.commandStart m) s = .next s := by
  rw [exec_commandStart, execCommandStart, hc]
  exact if_pos (by simpa using h)

variable (hst : c.started = false) (hmay : s.mayStart c = true)
include hst hmay

/-- The first failing check of R625 ends the command. -/
theorem commandStart_refused (hl : s.mbx.held.length = 4) {st : Nat} (h : s.startCheck c = some st) :
    Gives (.commandStart m) s fun t => t.Ended m st := by
  refine ⟨s.finish m st [], ?_, State.finish_ended hl hc st []⟩
  rw [exec_commandStart, execCommandStart, hc]
  dsimp only
  rw [if_neg (by simp [hst, hmay]), h]

/-- The mailbox with the master's command started. -/
def State.withStarted (s : State) (m : Master) (fetch : Bool) : State :=
  s.updMbx (fun x => { x with cmds := updWhere (fun d => d.m = m) (fun d => { d with started := true, fetching := fetch }) x.cmds })

omit hst hmay in
theorem State.cmdOf_withStarted (fetch : Bool) :
    (s.withStarted m fetch).cmdOf m = some { c with started := true, fetching := fetch } :=
  (find_updWhere (p := fun d : MbCmd => d.m = m) (f := fun d => { d with started := true, fetching := fetch })
    (fun _ hd => hd) s.mbx.cmds).trans (congrArg (Option.map _) hc)

variable (h : s.startCheck c = none)
include h

theorem exec_commandStart_starts : exec (.commandStart m) s = .next
    (if c.dmap then (s.withStarted m c.dmap).startFetch c.daddr c.dlen c.noDma else s.withStarted m c.dmap) := by
  rw [exec_commandStart, execCommandStart, hc]
  dsimp only
  rw [if_neg (by simp [hst, hmay]), h]
  exact (apply_ite Host.Outcome.next _ _ _).symm

theorem commandStart_starts (hd : c.dmap = false) : Gives (.commandStart m) s fun t =>
    t.cmdOf m = some { c with started := true, fetching := false } := by
  have hexec := exec_commandStart_starts hc hst hmay h
  rw [hd] at hexec
  exact ⟨_, hexec, State.cmdOf_withStarted hc false⟩

/-- Parameters by DMA are fetched first (R411). -/
theorem commandStart_fetches (hd : c.dmap = true) : ∃ u : State,
    u.cmdOf m = some { c with started := true, fetching := true } ∧
    exec (.commandStart m) s = .next (u.startFetch c.daddr c.dlen c.noDma) := by
  have hexec := exec_commandStart_starts hc hst hmay h
  rw [hd] at hexec
  exact ⟨_, State.cmdOf_withStarted hc true, hexec⟩

end

/-! ## The checks of R625 -/

section
variable {s : State} {c : MbCmd}

theorem State.startCheck_unknown (h : (opRow c.opcode).isNone = true ∨ c.rev ≠ 1) : s.startCheck c = some stInvalidOpcode := by
  rw [State.startCheck, firstFail, if_pos (by simpa using h)]

variable (hop : (opRow c.opcode).isNone = false) (hrev : c.rev = 1)
include hop hrev

theorem State.startCheck_restricted (h : s.restricted c.opcode = true) : s.startCheck c = some stConflict := by
  simp [State.startCheck, firstFail, hop, hrev, h]

variable (hres : s.restricted c.opcode = false)
include hres

theorem State.startCheck_stranger (ho : c.fromOwner = false) (hch : opChanges c.opcode = true) (hb : s.bmcOnly c = false) :
    s.startCheck c = some stNotOwner := by
  simp [State.startCheck, firstFail, hop, hrev, hres, ho, hch, hb]

variable (hown : c.fromOwner = true ∨ opChanges c.opcode = false ∨ s.bmcOnly c = true)
include hown

/-- Of a command that its master may give, only the lengths of parameters and result are left to be checked. -/
theorem State.startCheck_lengths : s.startCheck c = if !c.lenOk || !c.resultOk then some stInvalidParam else none := by
  have hsome : (!c.fromOwner && opChanges c.opcode && !s.bmcOnly c) = false := by
    rcases hown with h | h | h
    · simp [h]
    · simp [h]
    · simp [h]
  simp only [State.startCheck, firstFail, hop, hrev, hres, hsome, ne_eq, not_true_eq_false, decide_false, Bool.or_false,
    Bool.false_eq_true, if_false]

end

/-! ## DESCRIBE, FAB_TOPO (R426, R427) -/

theorem describe_yields {s : State} {m : Master} {c : MbCmd} (hs : s.Starts m 0x0101 c) (hi : s.Inv)
    (hf : s.tk.fenced = false) : Gives (.describe m) s fun t => t.Yields m c
    (leBytes 4 (Config.unitPres s.part).toNat ++ leBytes 4 s.routes ++ zeroBytes 24 ++ leBytes 8 s.fwVersion ++
      leBytes 1 s.mbx.runSlot ++ leBytes 1 (if s.slot = .a then 0 else 1) ++ leBytes 2 opRows.length ++ zeroBytes 20 ++
      opRows.flatMap (fun r => leBytes 2 r.op ++ [1] ++
        leBytes 1 ((if r.anyone then 1 else 0) + (if opBarrier r.op then 2 else 0)))) := by
  refine ⟨_, ?_, State.finish_yields hi.counts.masters hs.1 _⟩
  rw [exec_describe, execDescribe, State.runCmd_starts hs]
  dsimp only
  rw [if_neg (ne_true_of_eq_false hf)]

theorem insLsa_eq_orderedInsert (x : Lsa) (l : List Lsa) : insLsa x l = l.orderedInsert (fun a b => a.fid ≤ b.fid) x := by
  induction l with
  | nil => rfl
  | cons y l ih => rw [insLsa, List.orderedInsert_cons, ih]

theorem foldl_insLsa (l : List Lsa) :
    l.foldl (fun k a => insLsa a k) [] = l.reverse.insertionSort (fun a b => a.fid ≤ b.fid) := by
  simp only [insLsa_eq_orderedInsert]
  rw [List.insertionSort, List.foldr_reverse]

theorem pairwise_sortedLsas (l : List Lsa) :
    (l.insertionSort (fun a b => a.fid ≤ b.fid)).Pairwise (fun a b => a.fid ≤ b.fid) :=
  have : Std.Total (fun a b : Lsa => a.fid ≤ b.fid) := ⟨fun _ _ => Nat.le_total ..⟩
  have : IsTrans Lsa (fun a b => a.fid ≤ b.fid) := ⟨fun _ _ _ => Nat.le_trans⟩
  List.pairwise_insertionSort _ l

theorem fabTopo_answers {s : State} {m : Master} {c : MbCmd} (hs : s.Starts m 0x0402 c) (hi : s.Inv) :
    Gives (.fabTopo m) s fun t => ∃ l : List Lsa,
    t.Answers m c (leBytes 1 l.length ++ zeroBytes 3 ++ l.flatMap Lsa.bytes) ∧
    (∀ a, a ∈ l ↔ byteAt c.params 0 ≤ a.fid ∧ ∃ e ∈ s.rfx.lsdb, e.lsa = a) ∧ l.Pairwise (fun a b => a.fid ≤ b.fid) := by
  refine ⟨_, ?_, _, State.answer_answers hi.counts.masters hs.1 _, fun a => ?_,
    pairwise_sortedLsas ((s.rfx.lsdb.map (fun e => e.lsa)).filter (fun a => byteAt c.params 0 ≤ a.fid)).reverse⟩
  · rw [exec_fabTopo, execFabTopo, State.runCmd_starts hs]
    dsimp only
    rw [foldl_insLsa]
  · simp [and_comm]

/-! ## MB_FLUSH (R423) -/

/-- At most one command of each master is outstanding (R416). -/
theorem State.Inv.cmdOf_mem {s : State} (hi : s.Inv) {d : MbCmd} (hd : d ∈ s.mbx.cmds) : s.cmdOf d.m = some d := by
  obtain ⟨e, he⟩ := Option.isSome_iff_exists.mp
    (List.find?_isSome (p := fun e : MbCmd => e.m = d.m) |>.mpr ⟨d, hd, by simp⟩)
  have hm : e.m = d.m := by simpa using List.find?_some he
  rw [State.cmdOf, he, List.inj_on_of_nodup_map hi.oneEach (List.mem_of_find?_eq_some he) hd hm]

theorem State.cmdOf_mem {s : State} {m : Master} {c : MbCmd} (hc : s.cmdOf m = some c) : c ∈ s.mbx.cmds ∧ c.m = m :=
  ⟨List.mem_of_find?_eq_some hc, by simpa using List.find?_some hc⟩

theorem State.Starts.opcode_and_started {s : State} {m : Master} {op : Nat} {c : MbCmd} (h : s.Starts m op c) :
    c.opcode = op ∧ c.started = true := by
  obtain ⟨-, hready⟩ := h
  simp only [MbCmd.ready, Bool.and_eq_true, decide_eq_true_eq] at hready
  obtain ⟨⟨⟨hop, hst⟩, -⟩, -⟩ := hready
  exact ⟨hop, hst⟩

/-- A command is found by what is true of it alone. -/
theorem State.Inv.find_only {s : State} (hi : s.Inv) {m : Master} {c : MbCmd} (hc : s.cmdOf m = some c) {q : MbCmd → Bool}
    (hq : q c = true) (hone : ∀ d ∈ s.mbx.cmds, q d = true → d.m = m) : s.mbx.cmds.find? q = some c := by
  obtain ⟨e, he⟩ := Option.isSome_iff_exists.mp (List.find?_isSome.mpr ⟨c, (State.cmdOf_mem hc).1, hq⟩)
  have hmem := List.mem_of_find?_eq_some he
  have hec := hi.cmdOf_mem hmem
  rw [hone e hmem (List.find?_some he), hc] at hec
  rw [he, hec]

/-- The mailbox with an MB_FLUSH that waits for the last update. -/
def State.flushWaits (s : State) (m : Master) : State := (s.updMbx (fun x => { x with flushMseq := s.lastMseq })).keepRunning m

theorem State.flushWaits_inv {s : State} (hi : s.Inv) (m : Master) : (s.flushWaits m).Inv :=
  (Kept.keepRunning (uu := { mbx := true }) m (Kept.updMbx _ (fun _ => { mbxU := .inl rfl }) (.refl s) rfl) rfl).inv hi

section
variable {s : State} {m : Master} {c : MbCmd} (hs : s.Starts m 0x0102 c)
include hs

theorem exec_mbFlush_starts : exec (.mbFlush m) s = .next (s.flushWaits m).flushCheck := by
  rw [exec_mbFlush, execMbFlush, State.runCmd_starts hs]
  rfl

theorem State.cmdOf_flushWaits : (s.flushWaits m).cmdOf m = some { c with running := true } :=
  State.cmdOf_keepRunning_eq (t := s.updMbx (fun x => { x with flushMseq := s.lastMseq })) hs.1 rfl

variable (hi : s.Inv) (hone : ∀ d ∈ s.mbx.cmds, d.opcode = 0x0102 → d.m = m)
include hi hone

/-- The MB_FLUSH that waits is the master's own. -/
theorem State.find_flushWaits : (s.flushWaits m).mbx.cmds.find? (fun d => d.opcode = 0x0102 && d.running) =
    some { c with running := true } := by
  refine (State.flushWaits_inv hi m).find_only (State.cmdOf_flushWaits hs) (by simp [hs.opcode_and_started.1]) fun d hd hq => ?_
  obtain ⟨e, he, rfl⟩ := List.mem_map.mp hd
  have hop : e.opcode = 0x0102 := by
    obtain ⟨h, -⟩ := Bool.and_eq_true_iff.mp hq
    split at h
    · exact of_decide_eq_true h
    · exact of_decide_eq_true h
  have hm := hone e he hop
  simp [hm]

theorem flushCheck_flushWaits : (s.flushWaits m).flushCheck =
    if s.peerHolds s.lastMseq then (s.flushWaits m).finish m stOk [] else s.flushWaits m := by
  rw [State.flushCheck, State.find_flushWaits hs hi hone]
  dsimp only
  rw [(State.cmdOf_mem hs.1).2]
  rfl

theorem mbFlush_ends (h : s.peerHolds s.lastMseq = true) : Gives (.mbFlush m) s fun t => t.Ended m stOk := by
  refine ⟨_, exec_mbFlush_starts hs, ?_⟩
  rw [flushCheck_flushWaits hs hi hone, if_pos h]
  exact State.finish_ended (State.flushWaits_inv hi m).counts.masters (State.cmdOf_flushWaits hs) _ _

theorem mbFlush_waits (h : s.peerHolds s.lastMseq = false) : Gives (.mbFlush m) s fun t =>
    t.cmdOf m = some { c with running := true } ∧ t.mbx.flushMseq = s.lastMseq := by
  refine ⟨_, exec_mbFlush_starts hs, ?_⟩
  rw [flushCheck_flushWaits hs hi hone, if_neg (ne_true_of_eq_false h)]
  exact ⟨State.cmdOf_flushWaits hs, rfl⟩

end

/-! ## What the end of one command leaves of the others (R417, R422) -/

section
variable {t : State} {k n : Master}

/-- In the mailbox the end of a command does two things: the command leaves, and its master's held record changes, but
for the SEQ (R417). -/
theorem State.finishOne_mbx {c : MbCmd} (hc : t.cmdOf n = some c) (st : Nat) (res : List Byte) : ∃ f : Held → Held,
    (t.finishOne n st res).mbx = ((t.noCmdOf n).setHeld n f).mbx ∧ ∀ h, (f h).seq = h.seq := by
  unfold State.finishOne
  rw [hc]
  dsimp only
  split
  · exact ⟨_, State.bump_mbx _ _, fun _ => rfl⟩
  · split
    · exact ⟨_, State.dmaResult_mbx _ _ _, fun _ => rfl⟩
    · exact ⟨_, rfl, fun _ => rfl⟩

theorem State.finishOne_of_none (hc : t.cmdOf n = none) (st : Nat) (res : List Byte) : t.finishOne n st res = t := by
  rw [State.finishOne, hc]

theorem State.finishOne_cmds (t : State) (n : Master) (st : Nat) (res : List Byte) :
    (t.finishOne n st res).mbx.cmds = t.mbx.cmds.filter (fun d => d.m ≠ n) := by
  cases hc : t.cmdOf n with
  | none =>
    rw [State.finishOne_of_none hc]
    exact (List.filter_eq_self.mpr fun d hd => by simpa using List.find?_eq_none.mp hc d hd).symm
  | some c =>
    obtain ⟨f, hm, _⟩ := State.finishOne_mbx hc st res
    rw [hm]
    rfl

/-- A command that has ended stays so whatever else ends. -/
theorem State.Ended.finishOne {st : Nat} (hl : t.mbx.held.length = 4) (h : t.Ended k st) (n : Master) (st' : Nat)
    (res : List Byte) : (t.finishOne n st' res).Ended k st := by
  by_cases hn : k = n
  · subst hn
    rwa [State.finishOne_of_none h.1]
  · exact h.other hl hn st' res

theorem State.Ended.finish {st : Nat} (hl : t.mbx.held.length = 4) (h : t.Ended k st) (n : Master) (st' : Nat)
    (res : List Byte) : (t.finish n st' res).Ended k st := by
  have h1 := h.finishOne hl n st' res
  unfold State.finish
  dsimp only
  split
  · split
    · exact h1.finishOne (by rw [State.length_held_finishOne, hl]) _ _ _
    · exact h1
  · exact h1

theorem State.Ended.keepRunning {st : Nat} (h : t.Ended k st) (n : Master) : (t.keepRunning n).Ended k st := by
  refine ⟨List.find?_eq_none.mpr fun d hd => ?_, h.2⟩
  obtain ⟨e, he, rfl⟩ := List.mem_map.mp hd
  have hek := List.find?_eq_none.mp h.1 e he
  split <;> exact hek

theorem State.cmdOf_finishOne (hn : n ≠ k) (st : Nat) (res : List Byte) : (t.finishOne n st res).cmdOf k = t.cmdOf k := by
  rw [State.cmdOf, State.finishOne_cmds, List.find?_filter, State.cmdOf]
  congr 1
  funext d
  by_cases hd : d.m = k
  · simp [hd, hn.symm]
  · simp [hd]

/-- The end of a command leaves the held SEQ of every master (R417). -/
theorem State.seq_finishOne (hl : t.mbx.held.length = 4) (k n : Master) (st : Nat) (res : List Byte) :
    ((t.finishOne n st res).heldOf k).seq = (t.heldOf k).seq := by
  by_cases hn : k = n
  · subst hn
    cases hc : t.cmdOf k with
    | none => rw [State.finishOne_of_none hc]
    | some c =>
      obtain ⟨f, hm, hf⟩ := State.finishOne_mbx hc st res
      rw [State.heldOf, hm, ← State.heldOf, State.heldOf_setHeld (s := t.noCmdOf k) hl, if_pos rfl, hf]
      rfl
  · rw [State.heldOf_finishOne hl hn]

theorem State.seq_finish (hl : t.mbx.held.length = 4) (k n : Master) (st : Nat) (res : List Byte) :
    ((t.finish n st res).heldOf k).seq = (t.heldOf k).seq := by
  unfold State.finish
  dsimp only
  split
  · split
    · rw [State.seq_finishOne (by rw [State.length_held_finishOne, hl]), State.seq_finishOne hl]
    · rw [State.seq_finishOne hl]
  · rw [State.seq_finishOne hl]

end

/-! ## MB_RESET (R422) -/

/-- The commands of a list end with ABORTED, one after another. -/
def State.abortAll (s : State) (l : List MbCmd) : State := l.foldl (fun t c => t.finishOne c.m stAborted []) s

theorem State.length_held_abortAll (l : List MbCmd) (s : State) : (s.abortAll l).mbx.held.length = s.mbx.held.length :=
  foldl_frame (f := fun t (c : MbCmd) => t.finishOne c.m stAborted []) (g := fun t : State => t.mbx.held.length)
    (fun t c => t.length_held_finishOne c.m stAborted []) l s

theorem State.Ended.abortAll {k : Master} {st : Nat} (l : List MbCmd) : ∀ {t : State}, t.mbx.held.length = 4 → t.Ended k st →
    (t.abortAll l).Ended k st := by
  induction l with
  | nil => exact fun _ h => h
  | cons c l ih => exact fun hl h => ih (by rw [State.length_held_finishOne, hl]) (h.finishOne hl _ _ _)

theorem State.cmdOf_abortAll {k : Master} {l : List MbCmd} : ∀ {t : State}, (∀ c ∈ l, c.m ≠ k) →
    (t.abortAll l).cmdOf k = t.cmdOf k := by
  induction l with
  | nil => exact fun _ => rfl
  | cons c l ih =>
    intro t h
    exact (ih fun d hd => h d (List.mem_cons_of_mem _ hd)).trans (State.cmdOf_finishOne (h c List.mem_cons_self) _ _)

/-- A listed command that is outstanding ends with ABORTED. -/
theorem State.abortAll_ended {c d : MbCmd} {l : List MbCmd} : ∀ {t : State}, t.mbx.held.length = 4 → c ∈ l →
    t.cmdOf c.m = some d → (t.abortAll l).Ended c.m stAborted := by
  induction l with
  | nil => exact fun _ h => absurd h List.not_mem_nil
  | cons e l ih =>
    intro t hl hmem hd
    have hl' : (t.finishOne e.m stAborted []).mbx.held.length = 4 := by rw [State.length_held_finishOne, hl]
    by_cases he : e.m = c.m
    · exact State.Ended.abortAll l hl' (by rw [← he] at hd ⊢; exact State.finishOne_ended hl hd _ _)
    · rcases List.mem_cons.mp hmem with rfl | hmem
      · exact absurd rfl he
      · exact ih hl' hmem ((State.cmdOf_finishOne he _ _).trans hd)

theorem State.abortAll_cmds (l : List MbCmd) : ∀ t : State,
    (t.abortAll l).mbx.cmds = t.mbx.cmds.filter (fun d => l.all (fun c => d.m ≠ c.m)) := by
  induction l with
  | nil => exact fun t => (List.filter_eq_self.mpr fun _ _ => rfl).symm
  | cons c l ih =>
    intro t
    refine (ih _).trans ?_
    rw [State.finishOne_cmds, List.filter_filter]
    simp only [List.all_cons, Bool.and_comm]

/-- The held SEQs of the masters of a list forgotten. -/
def State.forgetSeqs (s : State) (ks : List Master) : State :=
  ks.foldl (fun t k => t.setHeld k (fun h => { h with seq := none })) s

theorem State.forgetSeqs_cmds (ks : List Master) (s : State) : (s.forgetSeqs ks).mbx.cmds = s.mbx.cmds :=
  foldl_frame (f := fun t k => t.setHeld k (fun h => { h with seq := none })) (g := fun t : State => t.mbx.cmds)
    (fun _ _ => rfl) ks s

theorem State.length_held_forgetSeqs (ks : List Master) (s : State) :
    (s.forgetSeqs ks).mbx.held.length = s.mbx.held.length :=
  foldl_frame (f := fun t k => t.setHeld k (fun h => { h with seq := none })) (g := fun t : State => t.mbx.held.length)
    (fun _ _ => length_setAt ..) ks s

theorem State.heldOf_forgetSeqs (ks : List Master) (k : Master) : ∀ {s : State}, s.mbx.held.length = 4 →
    (s.forgetSeqs ks).heldOf k = if k ∈ ks then { s.heldOf k with seq := none } else s.heldOf k := by
  induction ks with
  | nil => exact fun _ => rfl
  | cons n ks ih =>
    intro s hl
    refine (ih (s := s.setHeld n _) (by rw [State.setHeld_mbx, length_setAt]; exact hl)).trans ?_
    rw [State.heldOf_setHeld hl]
    by_cases hn : k = n
    · subst hn
      simp
    · simp [hn]

/-- The commands that have not started. -/
def State.idleCmds (s : State) : List MbCmd := s.mbx.cmds.filter (fun c => !c.started)

/-- The mailbox after the two first effects of MB_RESET: unstarted commands have ended, and the SEQs of the other masters are
forgotten. -/
def State.cleared (s : State) (m : Master) : State :=
  (s.abortAll s.idleCmds).forgetSeqs ([Master.service, .bmc, .inband, .peer].filter (fun k => k ≠ m))

theorem Master.mem_others {k m : Master} : k ∈ [Master.service, .bmc, .inband, .peer].filter (fun k => k ≠ m) ↔ k ≠ m := by
  cases k <;> simp

section
variable {s : State} {m : Master} {c : MbCmd} (hi : s.Inv)
include hi

theorem State.length_held_cleared : (s.cleared m).mbx.held.length = 4 := by
  rw [State.cleared, State.length_held_forgetSeqs, State.length_held_abortAll, hi.counts.masters]

theorem State.cleared_aborts {k : Master} {d : MbCmd} (hd : s.cmdOf k = some d) (hst : d.started = false) :
    (s.cleared m).Ended k stAborted := by
  obtain ⟨hmem, rfl⟩ := State.cmdOf_mem hd
  have h := State.abortAll_ended (l := s.idleCmds) hi.counts.masters (List.mem_filter.mpr ⟨hmem, by simp [hst]⟩) hd
  refine ⟨?_, ?_⟩
  · rw [State.cmdOf, State.cleared, State.forgetSeqs_cmds, ← State.cmdOf]
    exact h.1
  · rw [State.cleared, State.heldOf_forgetSeqs _ _ (by rw [State.length_held_abortAll, hi.counts.masters])]
    split
    · exact h.2
    · exact h.2

theorem State.seq_cleared {k : Master} (hk : k ≠ m) : ((s.cleared m).heldOf k).seq = none := by
  rw [State.cleared, State.heldOf_forgetSeqs _ _ (by rw [State.length_held_abortAll, hi.counts.masters]),
    if_pos (Master.mem_others.mpr hk)]

/-- The commands that have started stay (R422). -/
theorem State.cleared_cmds : (s.cleared m).mbx.cmds = s.mbx.cmds.filter (fun d => d.started) := by
  rw [State.cleared, State.forgetSeqs_cmds, State.abortAll_cmds]
  refine List.filter_congr fun d hd => ?_
  rw [Bool.eq_iff_iff, List.all_eq_true]
  constructor
  · intro h
    by_contra hst
    simpa using h d (List.mem_filter.mpr ⟨hd, by simpa using hst⟩)
  · intro hst e he
    obtain ⟨he, hidle⟩ := List.mem_filter.mp he
    rw [decide_eq_true_eq]
    intro hm
    rw [List.inj_on_of_nodup_map hi.oneEach hd he hm] at hst
    simp [hst] at hidle

theorem State.cmdOf_cleared (hc : s.cmdOf m = some c) (hst : c.started = true) : (s.cleared m).cmdOf m = some c := by
  rw [State.cmdOf, State.cleared, State.forgetSeqs_cmds, ← State.cmdOf, State.cmdOf_abortAll, hc]
  intro d hd hm
  obtain ⟨hmem, hidle⟩ := List.mem_filter.mp hd
  have hdc := hi.cmdOf_mem hmem
  rw [hm, hc, Option.some_inj] at hdc
  rw [← hdc, hst] at hidle
  exact absurd hidle (by decide)

end

theorem earlier_filter {m : Master} {q : MbCmd → Bool} {l : List MbCmd} (h : ∀ d ∈ l, d.m = m → q d = true) :
    earlier m (l.filter q) = (earlier m l).filter q := by
  induction l with
  | nil => rfl
  | cons c l ih =>
    have ih := ih fun d hd => h d (List.mem_cons_of_mem _ hd)
    by_cases hm : c.m = m
    · have hq := h c List.mem_cons_self hm
      simp [earlier, hm, hq]
    · by_cases hq : q c = true
      · simp [earlier, hm, hq, ih]
      · simp [earlier, hm, hq, ih]

section
variable {s : State} {m : Master} {c : MbCmd} (hs : s.Starts m 0x0103 c) (hi : s.Inv)
include hs

theorem exec_mbReset_starts : exec (.mbReset m) s = .next
    (if (earlier m (s.cleared m).mbx.cmds).isEmpty then (s.cleared m).finish m stOk [] else (s.cleared m).keepRunning m) := by
  rw [exec_mbReset, execMbReset, State.runCmd_starts hs]
  rfl

include hi

theorem earlier_cleared : earlier m (s.cleared m).mbx.cmds = (earlier m s.mbx.cmds).filter (fun d => d.started) := by
  rw [State.cleared_cmds hi, earlier_filter]
  intro d hd hm
  have hdc := hi.cmdOf_mem hd
  rw [hm, hs.1, Option.some_inj] at hdc
  rw [← hdc]
  exact hs.opcode_and_started.2

theorem mbReset_aborts {k : Master} {d : MbCmd} (hd : s.cmdOf k = some d) (hst : d.started = false) :
    Gives (.mbReset m) s fun t => t.Ended k stAborted := by
  have hl := State.length_held_cleared (m := m) hi
  have h := State.cleared_aborts (m := m) hi hd hst
  refine ⟨_, exec_mbReset_starts hs, ?_⟩
  split
  · exact h.finish hl m stOk []
  · exact h.keepRunning m

theorem mbReset_forgets : Gives (.mbReset m) s fun t => ∀ k, k ≠ m → (t.heldOf k).seq = none := by
  refine ⟨_, exec_mbReset_starts hs, fun k hk => ?_⟩
  split
  · rw [State.seq_finish (State.length_held_cleared hi), State.seq_cleared hi hk]
  · exact State.seq_cleared hi hk

theorem mbReset_ends (h : ∀ d ∈ earlier m s.mbx.cmds, d.started = false) : Gives (.mbReset m) s fun t => t.Ended m stOk := by
  refine ⟨_, exec_mbReset_starts hs, ?_⟩
  rw [earlier_cleared hs hi, if_pos (by simpa using h)]
  exact State.finish_ended (State.length_held_cleared hi) (State.cmdOf_cleared hi hs.1 hs.opcode_and_started.2) _ _

theorem mbReset_waits {d : MbCmd} (hd : d ∈ earlier m s.mbx.cmds) (hst : d.started = true) :
    Gives (.mbReset m) s fun t => t.cmdOf m = some { c with running := true } := by
  refine ⟨_, exec_mbReset_starts hs, ?_⟩
  rw [earlier_cleared hs hi, if_neg (by simpa using ⟨d, hd, hst⟩)]
  exact State.cmdOf_keepRunning_eq (State.cmdOf_cleared hi hs.1 hs.opcode_and_started.2) rfl

end

/-! ## The statement -/

/-- Settles O28, each command by its own rules: the packets and their replies in the part above, the start of commands and the
mailbox's own commands here. -/
theorem mailboxPackets : Obligations.MailboxPackets := by
  unfold Obligations.MailboxPackets
  refine ⟨?message, mctpControlMessage_answers, fun s m p => ⟨poll_posted, poll_answers⟩,
    fun s w => ⟨doorbellSend_lapses, doorbellSend_fills_reply⟩, fun s m => commandStart_nothing,
    fun s m c => commandStart_waits, ?start, fun s m c hi hs => describe_yields hs hi,
    fun s m c hi hs => fabTopo_answers hs hi, ?flush, ?reset⟩
  case message =>
    exact fun s p => ⟨mctpMessage_dropped, fun hp hv hi => ⟨mctpMessage_crc hp hv,
      fun h hf hn => ⟨fun c => mctpMessage_busy hp hv h hf hn, mctpMessage_accepts hp hv h hf hn hi.counts.masters⟩,
      fun h hf hq ho st r => mctpMessage_again hp hv h hf hq ho⟩⟩
  case start =>
    intro s m c hi hc hst hmay
    have hl := hi.counts.masters
    refine ⟨fun h => commandStart_refused hc hst hmay hl (State.startCheck_unknown h),
      fun hop hrev h => commandStart_refused hc hst hmay hl (State.startCheck_restricted hop hrev h),
      fun hop hrev hres => ⟨fun ho hch hb => commandStart_refused hc hst hmay hl
        (State.startCheck_stranger hop hrev hres ho hch hb), fun hown => ?_⟩⟩
    have hcheck := State.startCheck_lengths hop hrev hres hown
    exact ⟨fun h => commandStart_refused hc hst hmay hl (hcheck.trans (if_pos (by simpa using h))),
      fun hlen hroom => commandStart_starts hc hst hmay (hcheck.trans (if_neg (by simp [hlen, hroom]))),
      fun hlen hroom => commandStart_fetches hc hst hmay (hcheck.trans (if_neg (by simp [hlen, hroom])))⟩
  case flush =>
    exact fun s m c hi hs hone => ⟨mbFlush_ends hs hi hone, mbFlush_waits hs hi hone⟩
  case reset =>
    exact fun s m c hi hs => ⟨fun k d => mbReset_aborts hs hi, mbReset_forgets hs hi, mbReset_ends hs hi,
      fun d => mbReset_waits hs hi⟩

end Sys2Proof.Machine
end

section
/-! PROOFS. REG_MODIFY and the memory windows of the service endpoint (R12, R396, R425, R429, R436, R439, R443 to R445). -/

namespace Sys2Proof.Machine

/-! ## REG_MODIFY (R12, R396, R429) -/

section
variable {s : State} {m : Master} {c : MbCmd} {a : Nat} {w : Word} (hs : s.Starts m 0x0203 c) (ha : a = leAt c.params 0 4)
  (hw : w = ((s.regWord a &&& ~~~ BitVec.ofNat 32 (leAt c.params 4 4)) |||
    (BitVec.ofNat 32 (leAt c.params 8 4) &&& BitVec.ofNat 32 (leAt c.params 4 4))) &&&
    (BitVec.ofNat 32 (leAt c.params 4 4) ||| ~~~ w1cBits a))
include hs ha hw

/-- The row's operation, with the address and the word that it writes named. -/
theorem exec_regModify_starts : exec (.regModify m) s = .next (s.checked m
    [(badRange a 1, stInvalidParam), (s.writeRefused m a w, stConflict)]
    (fun s => ((s.regRead m a).2.regWrite m a w).finish m stOk (leBytes 4 (s.regWord a).toNat))) := by
  subst ha hw
  rw [exec_regModify, execRegModify, State.runCmd_starts hs]
  rfl

theorem regModify_badRange (hi : s.Inv) (hr : badRange a 1 = true) : Gives (.regModify m) s fun t =>
    t.Ended m stInvalidParam ∧ t.regs = (s.finish m stInvalidParam []).regs := by
  refine ⟨s.finish m stInvalidParam [], ?_, hs.ends hi rfl _, rfl⟩
  rw [exec_regModify_starts hs ha hw, State.checked_fail (by rw [hr]; rfl)]

variable (hr : badRange a 1 = false)
include hr

theorem regModify_refused (hi : s.Inv) (hf : s.writeRefused m a w = true) : Gives (.regModify m) s fun t =>
    t.Ended m stConflict := by
  refine ⟨s.finish m stConflict [], ?_, hs.ends hi rfl _⟩
  rw [exec_regModify_starts hs ha hw, State.checked_fail (by rw [hr, hf]; rfl)]

theorem regModify_writes (hf : s.writeRefused m a w = false) : exec (.regModify m) s =
    .next (((s.regRead m a).2.regWrite m a w).finish m stOk (leBytes 4 (s.regWord a).toNat)) := by
  rw [exec_regModify_starts hs ha hw, State.checked_ok (by rw [hr, hf]; rfl)]

end

/-! ## BAR0_READ (R436, R439, R443 to R445, R455) -/

theorem State.aerRole_out (s : State) (bit : Nat) : s.out <:+ (s.aerRole bit).out :=
  (Kept.aerRole (uu := { sep := true, out := true }) bit (.refl s) rfl rfl).out

/-- A completion after what a request has changed. -/
theorem State.Sent.completion {s a : State} (h : s.out <:+ a.out) (e : Emission) : s.Sent (a.emit e) e :=
  (State.Sent.emit a e).before h

theorem barSize_word {o : Nat} (ho : o % 4 = 0) : barSize o 1 = true := by
  have h : o % 64 / 4 + 1 ≤ 16 := by omega
  simp [barSize, within, ho, h]

theorem bar0Read_linkDown {s : State} (h : s.sep.linkUp = false) (a : Nat) (es : List (BitVec 4)) :
    exec (.bar0Read a es) s = .next s := by
  rw [exec_bar0Read, execBar0Read, if_pos (by simp [h])]

section
variable {s : State} {a : Nat} {es : List (BitVec 4)} (hl : s.sep.linkUp = true)
include hl

theorem bar0Read_unsupported (h : s.barServes = false ∨ s.barHit a = none) : Gives (.bar0Read a es) s fun t =>
    s.Sent t (.sepCpl 1 []) := by
  refine ⟨(s.aerRole 20).emit (.sepCpl 1 []), ?_, .completion (s.aerRole_out 20) _⟩
  rw [exec_bar0Read, execBar0Read, if_neg (by simp [hl])]
  split
  · rfl
  · next hb =>
    rw [h.resolve_left (by simpa using hb)]

variable {b : Bool} {o : Nat} (hb : s.barServes = true) (hh : s.barHit a = some (b, o))
include hb hh

theorem bar0Read_badSize (hz : barSize o es.length = false) : Gives (.bar0Read a es) s fun t => s.Sent t (.sepCpl 4 []) := by
  refine ⟨(s.aerRole 15).emit (.sepCpl 4 []), ?_, .completion (s.aerRole_out 15) _⟩
  rw [exec_bar0Read, execBar0Read, if_neg (by simp [hl]), if_neg (by simp [hb]), hh]
  dsimp only
  rw [if_pos (by simp [hz])]

variable (hz : barSize o es.length = true)
include hz

theorem bar0Read_table (h2 : b = true) : exec (.bar0Read a es) s = .next (s.emit (.sepCpl 0
    ((es.zip (natsFrom 0 es.length)).flatMap (fun e => enabledBytes (s.bar2Word (o + 4 * e.2)) e.1)))) := by
  rw [exec_bar0Read, execBar0Read, if_neg (by simp [hl]), if_neg (by simp [hb]), hh]
  dsimp only
  rw [if_neg (by simp [hz]), if_pos h2]

/-- A read of one whole word of BAR0. -/
theorem exec_bar0Read_word (h0 : b = false) (hes : es = [0xF]) : exec (.bar0Read a es) s =
    .next ((s.bar0Word o).2.emit (.sepCpl 0 (leBytes 4 (s.bar0Word o).1.toNat))) := by
  subst hes
  rw [exec_bar0Read, execBar0Read, if_neg (by simp [hl]), if_neg (by simp [hb]), hh]
  dsimp only
  rw [if_neg (by simpa using hz), if_neg (by simp [h0])]
  rfl

variable (h0 : b = false) (hes : es = [0xF]) (ho : o < 0x160000) (hr : s.readRefused .service o = false)
include h0 hes ho hr

theorem bar0Read_register (hc : inCmdWin o = false) (hw : inReplyWin o = false) : Gives (.bar0Read a es) s fun t =>
    s.Sent t (.sepCpl 0 (leBytes 4 (s.regWord o).toNat)) := by
  have hword : s.bar0Word o = s.regRead .service o := by
    rw [State.bar0Word, if_neg (by simp [hr, ho]), if_neg (by simp [hc]), if_neg (by simp [hw])]
  refine ⟨_, exec_bar0Read_word hl hb hh hz h0 hes, ?_⟩
  rw [hword]
  exact .completion (Kept.regRead (uu := { ppc := true, pmu := true, moved := true, cfg := true, free := true }) .service o
    (.refl s) rfl rfl rfl rfl rfl).out _

/-- The two windows of the mailbox lie apart (R436). -/
theorem bar0Read_replyWindow (hw : inReplyWin o = true) : Gives (.bar0Read a es) s fun t => t.mbx = s.mbx ∧
    s.Sent t (.sepCpl 0 (leBytes 4 (leAt s.mbx.replyWin (o - 0x104000) 4 % 2 ^ 32))) := by
  have hc : inCmdWin o = false := by
    simp only [inCmdWin, inReplyWin, Bool.and_eq_true, decide_eq_true_eq, Bool.and_eq_false_iff, decide_eq_false_iff_not] at hw ⊢
    omega
  have hword : s.bar0Word o =
      (BitVec.ofNat 32 (leAt s.mbx.replyWin (o - 0x104000) 4), s.regEvent .service o 0) := by
    rw [State.bar0Word, if_neg (by simp [hr, ho]), if_neg (by simp [hc]), if_pos hw]
  refine ⟨_, exec_bar0Read_word hl hb hh hz h0 hes, ?_⟩
  rw [hword, BitVec.toNat_ofNat]
  exact ⟨State.count_mbx .., .completion (s.count_kept ..).out _⟩

end

/-! ## BAR0_WRITE (R425, R436, R443 to R445) -/

theorem bar0Write_discarded {s : State} (h : s.sep.linkUp = false ∨ s.sep.cause ≠ 0) (a : Nat) (ws : List (Word × BitVec 4)) :
    exec (.bar0Write a ws) s = .next s := by
  rw [exec_bar0Write, execBar0Write, if_pos (by simpa using h)]

/-- Four bytes written one by one, all of them enabled, are written from the first address upward. -/
theorem foldl_cellWrite_all (l : List Host.Cell) (n v : Nat) : (natsFrom 0 4).foldl (fun l i =>
    if (0xF : BitVec 4).getLsbD i then cellWrite l (n + i) ((leBytes 4 v).getD i 0) else l) l = cellWrites l n (leBytes 4 v) :=
  rfl

theorem State.cmdWinWrite_all (s : State) (a : Nat) (w : Word) : (s.cmdWinWrite a w 0xF).mbx =
    { s.mbx with cmdWin := cellWrites s.mbx.cmdWin (a - 0x102000) (leBytes 4 w.toNat) } := by
  unfold State.cmdWinWrite
  dsimp only
  rw [foldl_cellWrite_all, State.regEvent, State.count_mbx, State.updMbx_mbx]

section
variable {s : State} {a o : Nat} {ws : List (Word × BitVec 4)} {w : Word} {en : BitVec 4} (hl : s.sep.linkUp = true)
  (hc : s.sep.cause = 0) (hb : s.barServes = true) (hh : s.barHit a = some (false, o)) (hws : ws = [(w, en)]) (h4 : o % 4 = 0)
include hl hc hb hh hws h4

/-- A write of one word to BAR0. -/
theorem exec_bar0Write_word : exec (.bar0Write a ws) s = .next (s.bar0Put o w en) := by
  subst hws
  rw [exec_bar0Write, execBar0Write, if_neg (by simp [hl, hc]), if_neg (by simp [hb]), hh]
  dsimp only
  rw [if_neg (by simp [barSize_word h4]), if_neg Bool.false_ne_true]
  rfl

variable (ho : o < 0x160000) (hv : s.servesBlock o = true)
include ho hv

theorem bar0Write_commandWindow (hw : inCmdWin o = true) (hen : en = 0xF) : Gives (.bar0Write a ws) s fun t =>
    t.mbx = { s.mbx with cmdWin := cellWrites s.mbx.cmdWin (o - 0x102000) (leBytes 4 w.toNat) } := by
  refine ⟨_, exec_bar0Write_word hl hc hb hh hws h4, ?_⟩
  rw [State.bar0Put, if_neg (Nat.not_le.mpr ho), if_neg (by simp [hv]), if_pos hw, hen]
  exact s.cmdWinWrite_all o w

variable (hw : inCmdWin o = false)
include hw

theorem bar0Write_narrow (hen : en ≠ 0xF) : exec (.bar0Write a ws) s = .next (s.bump Reg.sepNarrow) := by
  rw [exec_bar0Write_word hl hc hb hh hws h4, State.bar0Put, if_neg (Nat.not_le.mpr ho), if_neg (by simp [hv]),
    if_neg (by simp [hw]), if_pos hen]

variable (hen : en = 0xF) (hd : o ≠ Reg.mbxDoorbell)
include hen hd

/-- A whole word to a register goes by the owner of control and by what its block refuses (R245, R425). -/
theorem exec_bar0Write_register : exec (.bar0Write a ws) s = .next
    (if !s.isOwner .service then s.bump Reg.mbxReject else if s.writeRefused .service o w then s
      else s.regWrite .service o w) := by
  rw [exec_bar0Write_word hl hc hb hh hws h4, State.bar0Put, if_neg (Nat.not_le.mpr ho), if_neg (by simp [hv]),
    if_neg (by simp [hw]), if_neg (not_not_intro hen), if_neg hd]

theorem bar0Write_register_gives :
    (s.isOwner .service = false → exec (.bar0Write a ws) s = .next (s.bump Reg.mbxReject)) ∧
    (s.isOwner .service = true → s.writeRefused .service o w = false →
      exec (.bar0Write a ws) s = .next (s.regWrite .service o w)) ∧
    (s.isOwner .service = true → s.writeRefused .service o w = true → exec (.bar0Write a ws) s = .next s) := by
  rw [exec_bar0Write_register hl hc hb hh hws h4 ho hv hw hen hd]
  refine ⟨fun hi => ?_, fun hi hf => ?_, fun hi hf => ?_⟩
  · rw [hi]; rfl
  · rw [hi, hf]; rfl
  · rw [hi, hf]; rfl

end

end Sys2Proof.Machine
end

section
/-! PROOFS. The performance monitor (R552, R555 to R565): its holding registers, its commands, and the box office. -/

namespace Sys2Proof.Machine

/-! ## Counter sets and their registers -/

theorem State.pmuSet_congr {s t : State} (h : t.pmu = s.pmu) (v : Nat) : t.pmuSet v = s.pmuSet v := by
  rw [State.pmuSet, h, ← State.pmuSet]

theorem State.pmuSet_setPmuSet {s : State} {v : Nat} (hl : s.pmu.sets.length = 4) (hv : v ≤ 3) (f : PmuSet → PmuSet) :
    (s.setPmuSet v f).pmuSet v = f (s.pmuSet v) :=
  (getD_setAt _ _ _ _ _ (by omega)).trans (if_pos rfl)

/-- The registers that a counter is programmed with: no command moves them but a register access and CNT_CONFIG. -/
theorem not_isMoved_of_bank {a : Nat} (h1 : 0x131000 ≤ a) (h2 : a < 0x131400) (h3 : 0x40 ≤ a % 0x100) : ¬ IsMoved a := by
  have hlist : ∀ r ∈ movedRegs, r < 0x131000 ∨ 0x131400 ≤ r := by decide
  rintro (h | ⟨n, hn, rfl⟩ | ⟨n, hn, rfl | rfl⟩ | ⟨n, hn, rfl⟩)
  · have := hlist a h
    omega
  · simp only [Reg.ppcExdrop0] at h1; omega
  · simp only [Reg.macPfcrx] at h1; omega
  · simp only [Reg.macFecunc] at h1; omega
  · simp only [Reg.pmuOvf] at h3; omega

/-! ## PMU_LO_READ (R557) -/

theorem pmuLoRead_elsewhere {a : Nat} (h : pmuBank a = none) (s : State) : exec (.pmuLoRead a) s = .next s := by
  rw [exec_pmuLoRead, execPmuLoRead, State.pmuTouch, h]

theorem pmuBank_set_le {a v o : Nat} (h : pmuBank a = some (v, o)) : v ≤ 3 := by
  unfold pmuBank at h
  split at h
  · next hr =>
    simp only [Bool.and_eq_true, decide_eq_true_eq] at hr
    obtain ⟨rfl, -⟩ := Prod.mk.inj (Option.some.inj h)
    omega
  · exact absurd h (by simp)

theorem pmuLoRead_holds {s : State} {a v o : Nat} (hi : s.Inv) (h : pmuBank a = some (v, o)) : Gives (.pmuLoRead a) s fun t =>
    t.pmuSet v = { s.pmuSet v with hold := if pmuIsLo o = true then some (o, (s.pmuLive v (o + 4)).getD 0) else none } := by
  refine ⟨s.pmuTouch a, by rw [exec_pmuLoRead, execPmuLoRead], ?_⟩
  rw [State.pmuTouch, h]
  exact State.pmuSet_setPmuSet hi.counts.sets (pmuBank_set_le h) _

/-! ## CNT_CONFIG (R552, R556, R562, R563) -/

section
variable {s : State} {m : Master} {op : Nat} {c : MbCmd} (hs : s.Starts m op c) (hi : s.Inv)
include hs hi

/-- A command that only ends with an error leaves the monitor as it is. -/
theorem State.Starts.refuses_pmu {i : Instr} {st : Nat} (h : exec i s = .next (s.finish m st [])) :
    Gives i s fun t => t.Ended m st ∧ t.pmu = s.pmu :=
  ⟨_, h, hs.ends hi rfl st, State.finish_pmu ..⟩

/-- A command that answers from the monitor leaves it as it is. -/
theorem State.Starts.yields_pmu {i : Instr} {res : List Byte} (h : exec i s = .next (s.finish m stOk res)) :
    Gives i s fun t => t.pmu = s.pmu ∧ t.Yields m c res :=
  ⟨_, h, State.finish_pmu .., hs.yields hi rfl res⟩

end

/-- CTL, ABASE and AMASK of a counter written (R552, R554). -/
def State.pmuSetup (s : State) (v n : Nat) (w base mask : Word) : State :=
  ((s.pmuProgram v n w).putReg (pmuReg Reg.pmuAbase v n) base).putReg (pmuReg Reg.pmuAmask v n) mask

/-- The three registers of a counter read what was written. -/
theorem State.reg_pmuSetup {s : State} (hi : s.Inv) {v n : Nat} {w : Word} (hw : hasNat pmuEvents (fieldOf w 7 0) = true)
    (base mask : Word) :
    (s.pmuSetup v n w base mask).reg (pmuReg Reg.pmuCtl v n) =
      w &&& regKept (pmuReg Reg.pmuCtl v n) &&& ~~~ absentBits s.part (pmuReg Reg.pmuCtl v n) ∧
    (s.pmuSetup v n w base mask).reg (pmuReg Reg.pmuAbase v n) = base &&& ~~~ absentBits s.part (pmuReg Reg.pmuAbase v n) ∧
    (s.pmuSetup v n w base mask).reg (pmuReg Reg.pmuAmask v n) = mask &&& ~~~ absentBits s.part (pmuReg Reg.pmuAmask v n) := by
  have h1 := State.putReg_inv hi (pmuReg Reg.pmuCtl v n) (w &&& regKept (pmuReg Reg.pmuCtl v n))
  have h2 := State.putReg_inv h1 (pmuReg Reg.pmuAbase v n) base
  have hca : pmuReg Reg.pmuCtl v n ≠ pmuReg Reg.pmuAbase v n := by simp only [pmuReg, Reg.pmuCtl, Reg.pmuAbase]; omega
  have hcm : pmuReg Reg.pmuCtl v n ≠ pmuReg Reg.pmuAmask v n := by simp only [pmuReg, Reg.pmuCtl, Reg.pmuAmask]; omega
  have ham : pmuReg Reg.pmuAbase v n ≠ pmuReg Reg.pmuAmask v n := by simp only [pmuReg, Reg.pmuAbase, Reg.pmuAmask]; omega
  rw [State.pmuSetup, State.pmuProgram, if_pos hw]
  refine ⟨?_, ?_, ?_⟩
  · rw [State.reg_putReg h2, if_neg hcm, State.reg_putReg h1, if_neg hca, State.reg_putReg hi, if_pos rfl]
  · rw [State.reg_putReg h2, if_neg ham, State.reg_putReg h1, if_pos rfl]
    rfl
  · rw [State.reg_putReg h2, if_pos rfl]
    rfl

theorem State.pmuSet_ite_putReg (p : Prop) [Decidable p] (t : State) (a v : Nat) (w : Word) :
    (if p then t.putReg a w else t).pmuSet v = t.pmuSet v := by
  split
  · rfl
  · rfl

/-- Counters of a set are cleared one by one, as the mask names them. -/
theorem State.cnt_pmuClear {s : State} (hi : s.Inv) {v i : Nat} (hv : v ≤ 3) (hi8 : i < 8) (mask : Nat) :
    ((s.pmuClear v mask).pmuSet v).cnt.getD i 0 = if mask / 2 ^ i % 2 = 1 then 0 else (s.pmuSet v).cnt.getD i 0 := by
  unfold State.pmuClear
  dsimp only
  rw [State.pmuSet_ite_putReg, State.pmuSet_setPmuSet hi.counts.sets hv, natsFrom_eq_range']
  simp [hi8]

section
variable {s : State} {m : Master} {c : MbCmd} {v op n : Nat} {w : Word} (hs : s.Starts m 0x0901 c)
  (hv : v = byteAt c.params 0) (hop : op = byteAt c.params 1) (hn : n = byteAt c.params 2)
  (hw : w = BitVec.ofNat 32 (leAt c.params 4 4))
include hs hv hop hn hw

/-- The row's operation, with set, operation, counter and word named. -/
theorem exec_cntConfig_starts : exec (.cntConfig m) s = .next (s.checked m
    [(v ≠ m.num && !c.fromOwner, stNotOwner), (3 < v || op = 0 || 3 < op, stInvalidParam),
      (op = 1 && (7 < n || !hasNat pmuEvents (fieldOf w 7 0)), stInvalidParam)]
    (fun s => (if op = 1 then s.pmuSetup v n w (BitVec.ofNat 32 (leAt c.params 8 4)) (BitVec.ofNat 32 (leAt c.params 12 4))
      else if op = 2 then s.pmuClear v w.toNat else s.pmuSetMode v w).finish m stOk [])) := by
  subst hv hop hn hw
  rw [exec_cntConfig, execCntConfig, State.runCmd_starts hs]
  rfl

theorem cntConfig_stranger (hi : s.Inv) (hm : v ≠ m.num) (ho : c.fromOwner = false) : Gives (.cntConfig m) s fun t =>
    t.Ended m stNotOwner ∧ t.pmu = s.pmu := by
  refine hs.refuses_pmu hi ?_
  rw [exec_cntConfig_starts hs hv hop hn hw, State.checked_fail (st := stNotOwner) (by simp [firstFail, hm, ho])]

variable (ho : v = m.num ∨ c.fromOwner = true)
include ho

/-- Of a set that its master may configure, the checks of operation, counter and event are left (R563). -/
theorem exec_cntConfig_owned : exec (.cntConfig m) s = .next (s.checked m
    [(3 < v || op = 0 || 3 < op, stInvalidParam),
      (op = 1 && (7 < n || !hasNat pmuEvents (fieldOf w 7 0)), stInvalidParam)]
    (fun s => (if op = 1 then s.pmuSetup v n w (BitVec.ofNat 32 (leAt c.params 8 4)) (BitVec.ofNat 32 (leAt c.params 12 4))
      else if op = 2 then s.pmuClear v w.toNat else s.pmuSetMode v w).finish m stOk [])) := by
  have howned : (decide (v ≠ m.num) && !c.fromOwner) = false := by
    rcases ho with ho | ho
    · simp [ho]
    · simp [ho]
  rw [exec_cntConfig_starts hs hv hop hn hw, howned]
  rfl

theorem cntConfig_unknown (hi : s.Inv) (h : 3 < v ∨ op = 0 ∨ 3 < op) : Gives (.cntConfig m) s fun t =>
    t.Ended m stInvalidParam ∧ t.pmu = s.pmu := by
  refine hs.refuses_pmu hi ?_
  rw [exec_cntConfig_owned hs hv hop hn hw ho,
    State.checked_fail (st := stInvalidParam) (by rw [firstFail, if_pos (by simpa [or_assoc] using h)])]

theorem cntConfig_badEvent (hi : s.Inv) (h1 : op = 1) (h : 7 < n ∨ hasNat pmuEvents (fieldOf w 7 0) = false) :
    Gives (.cntConfig m) s fun t => t.Ended m stInvalidParam ∧ t.pmu = s.pmu := by
  refine hs.refuses_pmu hi ?_
  rw [exec_cntConfig_owned hs hv hop hn hw ho, State.checked_fail (st := stInvalidParam)]
  rcases h with h | h
  · simp [firstFail, h1, h]
  · simp [firstFail, h1, h]

variable (hv3 : v ≤ 3)
include hv3

theorem cntConfig_programs (hi : s.Inv) (h1 : op = 1) (hn7 : n ≤ 7) (h : hasNat pmuEvents (fieldOf w 7 0) = true) :
    Gives (.cntConfig m) s fun t => t.Ended m stOk ∧
      t.reg (pmuReg Reg.pmuCtl v n) = w &&& regKept (pmuReg Reg.pmuCtl v n) &&& ~~~ absentBits s.part (pmuReg Reg.pmuCtl v n) ∧
      t.reg (pmuReg Reg.pmuAbase v n) = BitVec.ofNat 32 (leAt c.params 8 4) &&& ~~~ absentBits s.part (pmuReg Reg.pmuAbase v n) ∧
      t.reg (pmuReg Reg.pmuAmask v n) =
        BitVec.ofNat 32 (leAt c.params 12 4) &&& ~~~ absentBits s.part (pmuReg Reg.pmuAmask v n) := by
  have hreg := State.reg_pmuSetup hi (v := v) (n := n) h (BitVec.ofNat 32 (leAt c.params 8 4))
    (BitVec.ofNat 32 (leAt c.params 12 4))
  generalize hu : s.pmuSetup v n w (BitVec.ofNat 32 (leAt c.params 8 4)) (BitVec.ofNat 32 (leAt c.params 12 4)) = u at hreg
  have hmbx : u.mbx = s.mbx := by
    rw [← hu, State.pmuSetup, State.pmuProgram, if_pos h]
    rfl
  have hfin : ∀ a, ¬ IsMoved a → (u.finish m stOk []).reg a = u.reg a := fun a => (u.finish_kept m stOk []).reg_eq rfl
  refine ⟨u.finish m stOk [], ?_, hs.ends hi hmbx _, ?_⟩
  · rw [exec_cntConfig_owned hs hv hop hn hw ho,
      State.checked_ok (by simp [firstFail, h1, h, Nat.not_lt.mpr hn7, Nat.not_lt.mpr hv3]), if_pos h1, hu]
  · rw [hfin, hfin, hfin]
    · exact hreg
    all_goals
      simp only [pmuReg, Reg.pmuCtl, Reg.pmuAbase, Reg.pmuAmask]
      exact not_isMoved_of_bank (by omega) (by omega) (by omega)

theorem cntConfig_clears (hi : s.Inv) (h2 : op = 2) : Gives (.cntConfig m) s fun t => t.Ended m stOk ∧
    ∀ i < 8, (t.pmuSet v).cnt.getD i 0 = if w.toNat / 2 ^ i % 2 = 1 then 0 else (s.pmuSet v).cnt.getD i 0 := by
  have hmbx : (s.pmuClear v w.toNat).mbx = s.mbx := (Kept.pmuClear (uu := { pmu := true, cfg := true }) v w.toNat (.refl s)
    rfl rfl).only.mbx.resolve_left Bool.false_ne_true
  refine ⟨(s.pmuClear v w.toNat).finish m stOk [], ?_, hs.ends hi hmbx _, fun i h8 => ?_⟩
  · rw [exec_cntConfig_owned hs hv hop hn hw ho, State.checked_ok (by simp [firstFail, h2, Nat.not_lt.mpr hv3]),
      if_neg (by omega), if_pos h2]
  · rw [State.pmuSet_congr (State.finish_pmu ..), State.cnt_pmuClear hi hv3 h8]

theorem cntConfig_setsMode (h3 : op = 3) : exec (.cntConfig m) s = .next ((s.pmuSetMode v w).finish m stOk []) := by
  rw [exec_cntConfig_owned hs hv hop hn hw ho, State.checked_ok (by simp [firstFail, h3, Nat.not_lt.mpr hv3]),
    if_neg (by omega), if_neg (by omega)]

end

/-! ## CNT_READ, CNT_SNAPSHOT (R557, R558, R560, R564, R565) -/

/-- Records that are few enough for a reply, or leave by DMA (R564). -/
theorem answerTooLong_eq_false {n k : Nat} {c : MbCmd} (h : n ≤ k ∨ c.flags / 8 % 2 = 1) :
    (decide (k < n) && !decide (c.flags / 8 % 2 = 1)) = false := by
  rcases h with h | h
  · simp [Nat.not_lt.mpr h]
  · simp [h]

section
variable {s : State} {m : Master} {c : MbCmd} {v a n : Nat} (hs : s.Starts m 0x0902 c) (hi : s.Inv)
include hs hi

theorem cntRead_unknown (hv : v = byteAt c.params 0) (h : byteAt c.params 1 = 0 ∨ 3 < byteAt c.params 1 ∨
    (byteAt c.params 1 = 1 ∧ 3 < v)) : Gives (.cntRead m) s fun t => t.Ended m stInvalidParam := by
  refine ⟨s.finish m stInvalidParam [], ?_, hs.ends hi rfl _⟩
  rw [exec_cntRead, execCntRead, State.runCmd_starts hs]
  dsimp only
  rw [← hv, State.checked_fail (st := stInvalidParam) (by rw [firstFail, if_pos (by simpa [or_assoc] using h)])]

theorem cntRead_set (hv : v = byteAt c.params 0) (hk : byteAt c.params 1 = 1) (hv3 : v ≤ 3) :
    Gives (.cntRead m) s fun t => t.pmu = s.pmu ∧ t.Yields m c
      (leBytes 4 (s.reg (Reg.pmuCfg + 0x100 * v)).toNat ++ leBytes 4 (s.reg (Reg.pmuOvf + 0x100 * v)).toNat ++
        leBytes 8 (s.cycles v) ++ leBytes 8 (s.cycles v) ++
        (natsFrom 0 8).flatMap (fun i => leBytes 8 ((s.pmuSet v).cnt.getD i 0) ++ leBytes 8 (s.cycles v))) := by
  refine hs.yields_pmu hi ?_
  rw [exec_cntRead, execCntRead, State.runCmd_starts hs]
  dsimp only
  rw [← hv, hk, State.checked_ok (by simp [firstFail, Nat.not_lt.mpr hv3]), if_pos rfl]
  rfl

variable (ha : a = leAt c.params 4 4) (hn : n = leAt c.params 8 4)
include ha hn

theorem cntRead_records (hk : byteAt c.params 1 = 2) (h0 : 0 < n) (hr : a + n ≤ 512) (hroom : n ≤ 64 ∨ c.flags / 8 % 2 = 1) :
    Gives (.cntRead m) s fun t => t.Yields m c ((natsFrom a n).flatMap (fun i => (s.vsRecord i).bytes)) := by
  refine ⟨_, ?_, hs.yields hi rfl _⟩
  rw [exec_cntRead, execCntRead, State.runCmd_starts hs]
  dsimp only
  rw [← ha, ← hn, hk, answerTooLong_eq_false hroom,
    State.checked_ok (by simp [firstFail, Nat.ne_of_gt h0, Nat.not_lt.mpr hr]), if_neg (by decide), if_pos rfl]

theorem cntRead_rules (hk : byteAt c.params 1 = 3) (h0 : 0 < n) (hr : a + n ≤ 32768) (hroom : n ≤ 255 ∨ c.flags / 8 % 2 = 1) :
    Gives (.cntRead m) s fun t => t.Yields m c (leBytes 8 s.pmu.rulesStamp ++ zeroBytes 8 ++
      (natsFrom a n).flatMap (fun i => leBytes 8 (s.ruleTotals i).1 ++ leBytes 8 (s.ruleTotals i).2)) := by
  refine ⟨_, ?_, hs.yields hi rfl _⟩
  rw [exec_cntRead, execCntRead, State.runCmd_starts hs]
  dsimp only
  rw [← ha, ← hn, hk, answerTooLong_eq_false hroom,
    State.checked_ok (by simp [firstFail, Nat.ne_of_gt h0, Nat.not_lt.mpr hr]), if_neg (by decide), if_neg (by decide)]

end

section
variable {s : State} {m : Master} {c : MbCmd} {v : Nat} (hs : s.Starts m 0x0903 c) (hi : s.Inv) (hv : v = byteAt c.params 0)
include hs hi hv

theorem cntSnapshot_yields (hv3 : v ≤ 3) : Gives (.cntSnapshot m) s fun t => t.pmu = s.pmu ∧ t.Yields m c
    (leBytes 4 (s.reg (Reg.pmuCfg + 0x100 * v)).toNat ++ leBytes 4 (s.reg (Reg.pmuOvf + 0x100 * v)).toNat ++
      leBytes 8 (s.cycles v) ++ (natsFrom 0 8).flatMap (fun i => leBytes 8 ((s.pmuSet v).cnt.getD i 0))) := by
  refine hs.yields_pmu hi ?_
  rw [exec_cntSnapshot, execCntSnapshot, State.runCmd_starts hs]
  dsimp only
  rw [← hv, State.checked_ok (by simp [firstFail, Nat.not_lt.mpr hv3])]
  rfl

theorem cntSnapshot_unknown (h : 3 < v) : Gives (.cntSnapshot m) s fun t => t.Ended m stInvalidParam ∧ t.pmu = s.pmu := by
  refine hs.refuses_pmu hi ?_
  rw [exec_cntSnapshot, execCntSnapshot, State.runCmd_starts hs]
  dsimp only
  rw [← hv, State.checked_fail (st := stInvalidParam) (by simp [firstFail, h])]

end

/-! ## BOX_OFFICE_SWEEP (R559) -/

theorem boxOfficeSweep_clears (s : State) (b : Bool) : Gives (.boxOfficeSweep b) s fun t => t.pmu.narrow = [] ∧
    t.ppc = { s.ppc with ruleCnt := [] } ∧ t.pmu.rulesStamp = s.cycles 0 ∧ t.pmu.sweeps = (s.pmu.sweeps + 1) % 2 ^ 31 ∧
    t.pmu.sets = s.pmu.sets := by
  unfold Gives
  rw [exec_boxOfficeSweep, execBoxOfficeSweep]
  refine ⟨_, rfl, ?_⟩
  cases b with
  | true => exact ⟨rfl, rfl, rfl, rfl, rfl⟩
  | false => exact ⟨rfl, rfl, rfl, rfl, rfl⟩

theorem boxOfficeSweep_adds {s : State} {n r : VsRec} (hn : s.pmu.narrow = [n])
    (hr : s.pmu.recs.find? (fun r => r.vsid = n.vsid) = some r) (b : Bool) : Gives (.boxOfficeSweep b) s fun t =>
      t.pmu.recs.find? (fun r => r.vsid = n.vsid) = some { r with
        stamp := s.cycles 0, rdCmd := r.rdCmd + n.rdCmd, wrCmd := r.wrCmd + n.wrCmd, rdBytes := r.rdBytes + n.rdBytes,
        wrBytes := r.wrBytes + n.wrBytes, rdLat := r.rdLat + n.rdLat, wrLat := r.wrLat + n.wrLat,
        oth := (r.oth + n.oth) % 2 ^ 32, err := (r.err + n.err) % 2 ^ 32 } := by
  have hany : s.pmu.recs.any (fun r => r.vsid = n.vsid) = true :=
    List.any_eq_true.mpr ⟨r, List.mem_of_find?_eq_some hr, List.find?_some (p := fun r : VsRec => r.vsid = n.vsid) hr⟩
  unfold Gives
  rw [exec_boxOfficeSweep, execBoxOfficeSweep]
  refine ⟨_, rfl, ?_⟩
  have hpmu : ∀ t : State, (if b then t.raiseFlag Reg.pmuBoxstat 31 else t).pmu = t.pmu := fun t => by split <;> rfl
  dsimp only
  rw [hpmu]
  dsimp only
  rw [hn, List.foldl_cons, List.foldl_nil, if_pos hany]
  refine (find_updWhere ?_ _).trans (congrArg (Option.map _) hr)
  exact fun _ hx => hx

/-! ## The statement -/

/-- Settles O32, each command by its own rules: REG_MODIFY and the windows in the part above, the monitor's commands here. -/
theorem registerWindowsAndCounters : Obligations.RegisterWindowsAndCounters := by
  unfold Obligations.RegisterWindowsAndCounters
  refine ⟨?modify, ?read, ?write, fun s a => ⟨fun h => pmuLoRead_elsewhere h s, fun v o => pmuLoRead_holds⟩, ?config, ?counters,
    fun s m c v hs hi hv => ⟨cntSnapshot_yields hs hi hv, cntSnapshot_unknown hs hi hv⟩,
    fun s b => ⟨boxOfficeSweep_clears s b, fun n r hn hr => boxOfficeSweep_adds hn hr b⟩⟩
  case modify =>
    exact fun s m c a w hs hi ha hw => ⟨regModify_badRange hs ha hw hi, fun hr =>
      regModify_refused hs ha hw hr hi, regModify_writes hs ha hw⟩
  case read =>
    exact fun s a es => ⟨fun h => bar0Read_linkDown h a es, bar0Read_unsupported, fun b o hl hb hh =>
      ⟨bar0Read_badSize hl hb hh, bar0Read_table hl hb hh, fun hz h0 hes ho hr =>
        ⟨bar0Read_register hl hb hh hz h0 hes ho hr, bar0Read_replyWindow hl hb hh hz h0 hes ho hr⟩⟩⟩
  case write =>
    exact fun s a ws => ⟨fun h => bar0Write_discarded h a ws, fun o w en hl hc hb hh hws h4 ho hv =>
      ⟨bar0Write_commandWindow hl hc hb hh hws h4 ho hv, bar0Write_narrow hl hc hb hh hws h4 ho hv,
        bar0Write_register_gives hl hc hb hh hws h4 ho hv⟩⟩
  case config =>
    exact fun s m c v op n w hs hi hv hop hn hw => ⟨cntConfig_stranger hs hv hop hn hw hi, fun ho =>
      ⟨cntConfig_unknown hs hv hop hn hw ho hi, fun _ => cntConfig_badEvent hs hv hop hn hw ho hi,
        fun h3 => cntConfig_programs hs hv hop hn hw ho h3 hi, fun h3 => cntConfig_clears hs hv hop hn hw ho h3 hi,
        cntConfig_setsMode hs hv hop hn hw ho⟩⟩
  case counters =>
    exact fun s m c v a n hs hi hv ha hn => ⟨cntRead_unknown hs hi hv, cntRead_set hs hi hv, cntRead_records hs hi ha hn,
      cntRead_rules hs hi ha hn⟩

end Sys2Proof.Machine
end

section
/-! PROOFS. What the operations of the service endpoint do (R411, R446, R447, R451, R452, R455 to R457): a fetch that fails, requests
and messages that wait, errors and containment. -/

namespace Sys2Proof.Machine

/-! ## The endpoint's registers -/

/-- Every part has the endpoint's registers. -/
theorem absentBits_endpoint (p : Part) :
    ∀ a ∈ [Reg.sepLateCpl, Reg.sepCto, Reg.sepEvtstat], absentBits p a = 0#32 := by
  cases p <;> decide

/-- A counter without absent bits counts one event, and stays at its maximum (R14). -/
theorem State.toNat_reg_bump {s : State} (hi : s.Inv) {a : Nat} (ha : absentBits s.part a = 0#32) :
    ((s.bump a).reg a).toNat = satAt 0xFFFFFFFF ((s.reg a).toNat + 1) := by
  have hlt : satAt 0xFFFFFFFF ((s.reg a).toNat + 1) < 2 ^ 32 := by
    unfold satAt
    split <;> omega
  rw [State.bump, State.bumpBy, State.reg_putReg hi, if_pos rfl, ha, BitVec.not_zero, BitVec.and_allOnes, BitVec.toNat_ofNat,
    Nat.mod_eq_of_lt hlt]

/-- A flag without absent bits reads 1 after it is raised (R14). -/
theorem State.getLsbD_reg_raiseFlag {s : State} (hi : s.Inv) {a i : Nat} (ha : absentBits s.part a = 0#32)
    (hp : (place 1 i).getLsbD i = true) : ((s.raiseFlag a i).reg a).getLsbD i = true := by
  rw [State.raiseFlag, State.reg_putReg hi, if_pos rfl, ha, BitVec.not_zero, BitVec.and_allOnes, BitVec.getLsbD_or, hp,
    Bool.or_true]

/-! ## The end of a fetch (R411, R451) -/

/-- From `s` to `t` a fetch has failed: its command has ended with INVALID_PARAM; without one the mailbox is as it was. -/
def State.FetchFailed (s t : State) : Prop :=
  if s.sep.fetch.isSome = true then t.Ended .service stInvalidParam else t.mbx = s.mbx

theorem State.FetchFailed.of_mbx {s t u : State} (h : s.FetchFailed t) (e : u.mbx = t.mbx) : s.FetchFailed u := by
  unfold State.FetchFailed at h ⊢
  split
  · next hf =>
    rw [if_pos hf] at h
    exact h.congr_mbx e
  · next hf =>
    rw [if_neg hf] at h
    exact e.trans h

theorem State.FetchFailed.ended {s t : State} (h : s.FetchFailed t) (hf : s.sep.fetch.isSome = true) :
    t.Ended .service stInvalidParam := by
  rwa [State.FetchFailed, if_pos hf] at h

theorem State.FetchFailed.mbx {s t : State} (h : s.FetchFailed t) (hf : s.sep.fetch = none) : t.mbx = s.mbx := by
  rwa [State.FetchFailed, if_neg (by simp [hf])] at h

theorem State.fetchFail_of_none {s : State} (h : s.sep.fetch = none) : s.fetchFail = s := by
  rw [State.fetchFail, h]

theorem State.fetchFail_of_some {s : State} {f : SepFetch} (h : s.sep.fetch = some f) : s.fetchFail =
    ((s.updSep (fun x => { x with fetch := none })).bump Reg.sepDmafail).finish .service stInvalidParam [] := by
  rw [State.fetchFail, h]

@[simp] theorem State.fetchFail_sep (s : State) : s.fetchFail.sep = { s.sep with fetch := none } := by
  cases hf : s.sep.fetch with
  | none =>
    rw [State.fetchFail_of_none hf, ← hf]
  | some f =>
    rw [State.fetchFail_of_some hf, State.finish_sep, State.bump_sep, State.updSep_sep]

/-- The fetch that `s` has fails in any state that has the same fetch and the same mailbox. -/
theorem State.fetchFailed_fetchFail {s u : State} {c : MbCmd} (hi : s.Inv) (hc : s.cmdOf .service = some c)
    (hm : u.mbx = s.mbx) (hu : u.sep.fetch = s.sep.fetch) : s.FetchFailed u.fetchFail := by
  unfold State.FetchFailed
  cases hf : s.sep.fetch with
  | none =>
    rw [State.fetchFail_of_none (hu.trans hf)]
    exact hm
  | some f =>
    rw [State.fetchFail_of_some (hu.trans hf)]
    have hl : u.mbx.held.length = 4 := by rw [hm]; exact hi.counts.masters
    have hcu : u.cmdOf .service = some c := by rw [State.cmdOf, hm, ← State.cmdOf, hc]
    exact State.finish_ended (s := (u.updSep (fun x => { x with fetch := none })).bump Reg.sepDmafail) hl hcu _ _

/-! ## Requests of a fetch (R447) -/

/-- Without bytes to ask for, no request is issued. -/
theorem State.pumpFetch_asked {s : State} (h : ∀ f, s.sep.fetch = some f → f.left = 0) (n : Nat) :
    State.pumpFetch n s = s := by
  cases n with
  | zero => rfl
  | succ n =>
    unfold State.pumpFetch
    split
    · rfl
    · next f hf => rw [if_pos (by simp [h f hf])]

theorem State.pumpFetch_noFetch {s : State} (h : s.sep.fetch = none) (n : Nat) : State.pumpFetch n s = s :=
  State.pumpFetch_asked (fun f hf => by rw [h] at hf; cases hf) n

/-- Requests leave the power state of the function. -/
theorem State.pumpFetch_d3hot (n : Nat) : ∀ s : State, (State.pumpFetch n s).sep.d3hot = s.sep.d3hot := by
  induction n with
  | zero => exact fun _ => rfl
  | succ n ih =>
    intro s
    unfold State.pumpFetch
    split
    · rfl
    · split
      · rfl
      · dsimp only
        split
        · rfl
        · rw [ih]
          rfl

/-! ## Messages that wait (R446, R452) -/

theorem State.sendMsi_sep (s : State) (v : Nat) : ∃ p, (s.sendMsi v).sep = { s.sep with pba := p } := by
  unfold State.sendMsi
  dsimp only
  split
  · exact ⟨_, rfl⟩
  · split
    · exact ⟨_, rfl⟩
    · exact ⟨_, rfl⟩

theorem State.sendMsi_disabled {s : State} (h : s.sep.msixEn = false) (v : Nat) : s.sendMsi v = s := by
  rw [State.sendMsi, h]
  rfl

/-- The vectors that wait are all that sending them changes of the endpoint. -/
theorem State.msiFlush_sep (s : State) : ∃ p, s.msiFlush.sep = { s.sep with pba := p } := by
  have hframe : { s.msiFlush.sep with pba := [] } = { s.sep with pba := [] } := by
    unfold State.msiFlush
    split
    · refine foldl_frame (g := fun t : State => { t.sep with pba := [] }) (fun t v => ?_) _ _
      obtain ⟨p, hp⟩ := t.sendMsi_sep v
      rw [hp]
    · rfl
  exact ⟨s.msiFlush.sep.pba, congrArg (fun x : SepSt => { x with pba := s.msiFlush.sep.pba }) hframe⟩

theorem State.msiFlush_kept (s : State) : Kept { sep := true, out := true } s s.msiFlush := .msiFlush (.refl s) rfl rfl

theorem State.msiFlush_reg (s : State) (a : Nat) : s.msiFlush.reg a = s.reg a :=
  s.msiFlush_kept.only.regs.resolve_left Bool.false_ne_true a fun h => absurd h Bool.false_ne_true

theorem State.msiFlush_disabled {s : State} (h : s.sep.msixEn = false) : s.msiFlush = s := by
  rw [State.msiFlush, h]
  rfl

theorem State.sepEvent_sep (s : State) (bit : Nat) : ∃ p, (s.sepEvent bit).sep = { s.sep with pba := p } := by
  unfold State.sepEvent
  dsimp only
  split
  · exact State.sendMsi_sep _ 1
  · exact ⟨_, rfl⟩

theorem State.sepEvent_disabled {s : State} (h : s.sep.msixEn = false) (bit : Nat) :
    s.sepEvent bit = s.raiseFlag Reg.sepEvtstat bit := by
  unfold State.sepEvent
  dsimp only
  rw [State.sendMsi_disabled (by exact h), ite_self]

theorem State.sepEvent_reg (s : State) (bit a : Nat) :
    (s.sepEvent bit).reg a = (s.raiseFlag Reg.sepEvtstat bit).reg a := by
  unfold State.sepEvent
  dsimp only
  split
  · exact State.sendMsi_reg _ 1 a
  · rfl

/-! ## Errors and containment (R455 to R457) -/

/-- The first cause of containment stands. -/
theorem State.sepContain_sep (s : State) (k : Nat) :
    (s.sepContain k).sep = { s.sep with cause := if s.sep.cause ≠ 0 then s.sep.cause else k } := by
  unfold State.sepContain
  split
  · rfl
  · rfl

@[simp] theorem State.aerUnc_sep (s : State) (bit : Nat) : (s.aerUnc bit).sep = { s.sep with
    uncStat := s.sep.uncStat ||| place 1 bit
    cause := if s.sep.cause ≠ 0 then s.sep.cause else if fieldOf s.sep.uncSev bit bit = 1 then 1 else 0 } := by
  have hsep : ∀ t : State, (if s.sep.uncMask.getLsbD bit then t else t.emit (.aer bit)).sep = t.sep := fun t => by
    split <;> rfl
  unfold State.aerUnc
  dsimp only
  split
  · rw [State.sepContain_sep, hsep]
    rfl
  · rw [hsep, State.updSep_sep]
    congr 1
    split
    · rfl
    · omega

theorem State.aerUnc_kept (s : State) (bit : Nat) : Kept { sep := true, out := true } s (s.aerUnc bit) :=
  .aerUnc bit (.refl s) rfl rfl

@[simp] theorem State.aerUnc_mbx (s : State) (bit : Nat) : (s.aerUnc bit).mbx = s.mbx :=
  (s.aerUnc_kept bit).only.mbx.resolve_left Bool.false_ne_true

@[simp] theorem State.aerUnc_reg (s : State) (bit a : Nat) : (s.aerUnc bit).reg a = s.reg a :=
  (s.aerUnc_kept bit).only.regs.resolve_left Bool.false_ne_true a fun h => absurd h Bool.false_ne_true

@[simp] theorem State.aerAdvisory_sep (s : State) (bit : Nat) : (s.aerAdvisory bit).sep = { s.sep with
    uncStat := s.sep.uncStat ||| place 1 bit, corStat := s.sep.corStat ||| place 1 13 } := by
  unfold State.aerAdvisory
  dsimp only
  split <;> rfl

theorem State.aerAdvisory_kept (s : State) (bit : Nat) : Kept { sep := true, out := true } s (s.aerAdvisory bit) :=
  .aerAdvisory bit (.refl s) rfl rfl

@[simp] theorem State.aerAdvisory_mbx (s : State) (bit : Nat) : (s.aerAdvisory bit).mbx = s.mbx :=
  (s.aerAdvisory_kept bit).only.mbx.resolve_left Bool.false_ne_true

@[simp] theorem State.aerAdvisory_reg (s : State) (bit a : Nat) : (s.aerAdvisory bit).reg a = s.reg a :=
  (s.aerAdvisory_kept bit).only.regs.resolve_left Bool.false_ne_true a fun h => absurd h Bool.false_ne_true

/-- The record of containment cleared. -/
def State.uncontained (s : State) : State := s.updSep (fun x => { x with cause := 0, relPend := none })

theorem State.sepRelease_uncontained {s : State} (h : s.sep.cause = 0) : s.sepRelease = s := if_pos h

theorem State.sepRelease_contained {s : State} (h : s.sep.cause ≠ 0) :
    s.sepRelease = (s.uncontained.sepEvent 3).msiFlush := if_neg h

/-- Containment ends: beside its own record only the vectors that wait change. -/
theorem State.sepRelease_sep {s : State} (h : s.sep.cause ≠ 0) : ∃ p, s.sepRelease.sep =
    { s.sep with cause := 0, relPend := none, pba := p } := by
  obtain ⟨p, hp⟩ := (s.uncontained.sepEvent 3).msiFlush_sep
  obtain ⟨q, hq⟩ := s.uncontained.sepEvent_sep 3
  exact ⟨p, by rw [State.sepRelease_contained h, hp, hq]; rfl⟩

/-- Without MSI-X no vector waits after the end of containment that did not before. -/
theorem State.sepRelease_sep_disabled {s : State} (h : s.sep.cause ≠ 0) (hx : s.sep.msixEn = false) :
    s.sepRelease.sep = { s.sep with cause := 0, relPend := none } := by
  rw [State.sepRelease_contained h, State.sepEvent_disabled (s := s.uncontained) hx,
    State.msiFlush_disabled (s := s.uncontained.raiseFlag Reg.sepEvtstat 3) hx]
  rfl

theorem State.sepRelease_mbx (s : State) : s.sepRelease.mbx = s.mbx :=
  (Kept.sepRelease (uu := { sep := true, moved := true, out := true }) (.refl s) rfl rfl rfl).only.mbx.resolve_left
    Bool.false_ne_true

/-- The end of containment raises bit 3 of SEP.EVTSTAT (R446). -/
theorem State.sepRelease_event {s : State} (hi : s.Inv) (h : s.sep.cause ≠ 0) :
    (s.sepRelease.reg Reg.sepEvtstat).getLsbD 3 = true := by
  have hi' : s.uncontained.Inv :=
    (Kept.updSep (uu := { sep := true }) _ (fun _ => { sepU := .inl rfl }) (.refl s) rfl).inv hi
  rw [State.sepRelease_contained h, State.msiFlush_reg, State.sepEvent_reg]
  exact State.getLsbD_reg_raiseFlag hi' (absentBits_endpoint s.part _ (by decide)) (by decide)

end Sys2Proof.Machine
end

section
/-! PROOFS. The service endpoint's link, resets and configuration writes (R437, R438, R440 to R442, R451 to R454, R457; the
bits of configuration space log 7). -/

namespace Sys2Proof.Machine

/-! ## PERST#, link and resets (R437, R438, R451, R453, R454, R457) -/

theorem State.flrBegin_sep (s : State) : s.flrBegin.sep = { s.sep with flr := true, fetch := none } := by
  rw [State.flrBegin, State.fetchFail_sep, State.updSep_sep]

theorem sepPerstAssert_gives (s : State) : Gives .sepPerstAssert s fun t => t.sep = { s.sep with
    flr := true, fetch := none, perst := true, linkUp := false, speed := 0, width := 0, reads := [] } :=
  ⟨_, exec_sepPerstAssert s, congrArg (fun x : SepSt => { x with
    perst := true, linkUp := false, speed := 0, width := 0, reads := [] }) s.flrBegin_sep⟩

theorem hotReset_gives (s : State) : Gives .hotReset s fun t => t.sep = { s.sep with
    flr := true, fetch := none, linkUp := false, speed := 0, width := 0, reads := [] } :=
  ⟨_, exec_hotReset s, congrArg (fun x : SepSt => { x with
    linkUp := false, speed := 0, width := 0, reads := [] }) s.flrBegin_sep⟩

theorem sepLinkDown_gives (s : State) : Gives .sepLinkDown s fun t => t.sep = { s.sep with
    fetch := none, linkUp := false, speed := 0, width := 0, reads := [] } :=
  ⟨_, exec_sepLinkDown s, congrArg (fun x : SepSt => { x with
    linkUp := false, speed := 0, width := 0, reads := [] }) s.fetchFail_sep⟩

theorem functionLevelReset_gives (s : State) : Gives .functionLevelReset s fun t =>
    t.sep = { s.sep with flr := true, fetch := none } :=
  ⟨_, exec_functionLevelReset s, s.flrBegin_sep⟩

/-- What ends the endpoint's requests fails a fetch, and of the mailbox changes nothing else. -/
theorem requestsEnd_fetchFailed {s : State} {c : MbCmd} {e : Instr} (hi : s.Inv) (hc : s.cmdOf .service = some c)
    (he : e = .sepPerstAssert ∨ e = .sepLinkDown ∨ e = .hotReset ∨ e = .functionLevelReset) :
    Gives e s fun t => s.FetchFailed t := by
  have hreset : s.FetchFailed s.flrBegin :=
    State.fetchFailed_fetchFail (u := s.updSep fun x => { x with flr := true }) hi hc rfl rfl
  have hdown : s.FetchFailed s.fetchFail := State.fetchFailed_fetchFail hi hc rfl rfl
  rcases he with rfl | rfl | rfl | rfl
  · exact ⟨_, exec_sepPerstAssert s, hreset.of_mbx rfl⟩
  · exact ⟨_, exec_sepLinkDown s, hdown.of_mbx rfl⟩
  · exact ⟨_, exec_hotReset s, hreset.of_mbx rfl⟩
  · exact ⟨_, exec_functionLevelReset s, hreset⟩

theorem sepLinkUp_lapses {s : State} (h : s.sep.perst = true ∨ s.cfgBit Reg.sepCfg 0 = false) (v w : Nat) :
    exec (.sepLinkUp v w) s = .next s := by
  rw [exec_sepLinkUp, execSepLinkUp, if_pos (by simpa using h)]

theorem sepLinkUp_trains {s : State} (hp : s.sep.perst = false) (he : s.cfgBit Reg.sepCfg 0 = true) (v w : Nat) :
    exec (.sepLinkUp v w) s = .next { s with sep := { s.sep with linkUp := true, speed := v, width := w } } := by
  rw [exec_sepLinkUp, execSepLinkUp, if_neg (by simp [hp, he])]
  rfl

theorem flrComplete_lapses {s : State} (h : s.sep.flr = false ∨ s.npOut ≠ 0) : exec .flrComplete s = .next s := by
  rw [exec_flrComplete, execFlrComplete, if_neg]
  rcases h with h | h <;> simp [h]

section
variable {s : State} (hf : s.sep.flr = true) (hn : s.npOut = 0)
include hf hn

theorem exec_flrComplete_retired :
    exec .flrComplete s = .next (s.updSep (fun x => { x.resetCfg with flr := false })).sepRelease := by
  rw [exec_flrComplete, execFlrComplete, if_pos (by simp [hf, hn])]

theorem flrComplete_resets (h : s.sep.cause = 0) :
    exec .flrComplete s = .next { s with sep := { s.sep.resetCfg with flr := false } } := by
  rw [exec_flrComplete_retired hf hn, State.sepRelease_uncontained (by exact h)]
  rfl

/-- The reset clears MSI-X Enable, so the end of containment sends no vector. -/
theorem flrComplete_releases (h : s.sep.cause ≠ 0) : Gives .flrComplete s fun t => t.mbx = s.mbx ∧
    t.sep = { s.sep.resetCfg with flr := false, cause := 0, relPend := none } :=
  ⟨_, exec_flrComplete_retired hf hn, State.sepRelease_mbx _,
    State.sepRelease_sep_disabled (s := s.updSep (fun x => { x.resetCfg with flr := false })) h rfl⟩

end

/-! ## CONFIG_WRITE (R440 to R442, R451 to R453, R457) -/

theorem configWrite_lapses {s : State} (h : s.sep.flr = true ∨ s.sep.linkUp = false) (o : Nat) (w : Word) (en : BitVec 4) :
    exec (.configWrite o w en) s = .next s := by
  rw [exec_configWrite]
  exact if_pos (by simpa using h)

/-- A release of containment that is asked for (R457). -/
theorem State.relAsk_eq (s : State) : s.relAsk = if s.sep.cause = 0 then s
    else { s with sep := { s.sep with relPend := some (s.now + ms 50) } } := rfl

/-- What a change of Bus Master Enable changes of the endpoint. -/
theorem State.setBme_sep (s : State) (b : Bool) : ∃ p, (s.setBme b).sep = { s.sep with
    bme := b, pba := p, fetch := if s.sep.bme = true ∧ b = false then none else s.sep.fetch } := by
  unfold State.setBme
  split
  · next h =>
    obtain ⟨hs, hb⟩ : s.sep.bme = true ∧ b = false := by simpa using h
    exact ⟨s.sep.pba, by rw [State.fetchFail_sep, State.updSep_sep, if_pos ⟨hs, hb⟩, hb]⟩
  · next hc =>
    split
    · next h =>
      obtain ⟨hs, hb⟩ : s.sep.bme = false ∧ b = true := by simpa using h
      obtain ⟨p, hp⟩ := (s.updSep fun x => { x with bme := true }).msiFlush_sep
      exact ⟨p, by rw [hp, if_neg (by simp [hs]), hb]; rfl⟩
    · next ho =>
      have hkept : ∀ x y : Bool, (x && !y) ≠ true → (!x && y) ≠ true → y = x := by decide
      have hb : b = s.sep.bme := hkept _ _ hc ho
      exact ⟨s.sep.pba, by rw [hb, if_neg (by simp)]⟩

/-- The Command register written. -/
def State.withCommand (s : State) (c : Word) : State :=
  (s.updSep (fun y => { y with mse := c.getLsbD 1, parity := c.getLsbD 6, serr := c.getLsbD 8 })).setBme (c.getLsbD 2)

/-- The bits of the Command register hold what was written, and a cleared Bus Master Enable has failed a fetch (R451). -/
theorem State.withCommand_sep (s : State) (c : Word) :
    (s.withCommand c).sep.mse = c.getLsbD 1 ∧ (s.withCommand c).sep.bme = c.getLsbD 2 ∧
    (s.withCommand c).sep.parity = c.getLsbD 6 ∧ (s.withCommand c).sep.serr = c.getLsbD 8 ∧
    (s.sep.bme = true → c.getLsbD 2 = false → (s.withCommand c).sep.fetch = none) := by
  obtain ⟨p, hp⟩ := State.setBme_sep (s.updSep fun y => { y with
    mse := c.getLsbD 1, parity := c.getLsbD 6, serr := c.getLsbD 8 }) (c.getLsbD 2)
  rw [State.withCommand, hp]
  exact ⟨rfl, rfl, rfl, rfl, fun hb hc => if_pos ⟨hb, hc⟩⟩

/-- The control register of MSI-X written. -/
def State.withMsix (s : State) (c : Word) : State :=
  (s.updSep (fun y => { y with msixEn := c.getLsbD 31, msixMask := c.getLsbD 30 })).msiFlush

theorem State.withMsix_sep (s : State) (c : Word) :
    (s.withMsix c).sep.msixEn = c.getLsbD 31 ∧ (s.withMsix c).sep.msixMask = c.getLsbD 30 := by
  obtain ⟨p, hp⟩ := (s.updSep fun y => { y with msixEn := c.getLsbD 31, msixMask := c.getLsbD 30 }).msiFlush_sep
  rw [State.withMsix, hp]
  exact ⟨rfl, rfl⟩

section
variable {s : State} (hf : s.sep.flr = false) (hl : s.sep.linkUp = true)
include hf hl

/-- Outside a function reset, with the link up, a configuration write is taken. -/
theorem configWrite_taken {o : Nat} {w : Word} {en : BitVec 4} {r : Host.Outcome State Fault Refusal}
    (h : execConfigWrite o w en s = if s.sep.flr || !s.sep.linkUp then .next s else r) : exec (.configWrite o w en) s = r := by
  rw [exec_configWrite, h, if_neg (by simp [hf, hl])]

theorem configWrite_elsewhere {o : Nat}
    (ho : o ∉ [0x04, 0x10, 0x14, 0x18, 0x1C, 0x44, 0x58, 0x78, 0xB0, 0x104, 0x108, 0x10C, 0x110, 0x114, 0x228])
    (w : Word) (en : BitVec 4) : exec (.configWrite o w en) s = .next s := by
  simp only [List.mem_cons, List.not_mem_nil, or_false, not_or] at ho
  refine configWrite_taken hf hl ?_
  simp only [execConfigWrite, ho, if_false]

variable {w : Word} {en : BitVec 4} {m : Word → Word} (hm : ∀ old, m old = mergeBytes old w en)
include hm

theorem exec_configWrite_command : exec (.configWrite 0x04 w en) s = .next (s.withCommand (m s.sep.command)) := by
  rw [hm]
  exact configWrite_taken hf hl rfl

theorem configWrite_bars :
    exec (.configWrite 0x10 w en) s = .next { s with sep := { s.sep with
      bar0 := s.sep.bar0 / 2 ^ 32 * 2 ^ 32 + (m (BitVec.ofNat 32 s.sep.bar0)).toNat / 2 ^ 21 * 2 ^ 21 } } ∧
    exec (.configWrite 0x14 w en) s = .next { s with sep := { s.sep with
      bar0 := (m (BitVec.ofNat 32 (s.sep.bar0 / 2 ^ 32))).toNat * 2 ^ 32 + s.sep.bar0 % 2 ^ 32 } } ∧
    exec (.configWrite 0x18 w en) s = .next { s with sep := { s.sep with
      bar2 := s.sep.bar2 / 2 ^ 32 * 2 ^ 32 + (m (BitVec.ofNat 32 s.sep.bar2)).toNat / 2 ^ 13 * 2 ^ 13 } } ∧
    exec (.configWrite 0x1C w en) s = .next { s with sep := { s.sep with
      bar2 := (m (BitVec.ofNat 32 (s.sep.bar2 / 2 ^ 32))).toNat * 2 ^ 32 + s.sep.bar2 % 2 ^ 32 } } := by
  simp only [hm]
  and_intros <;> exact configWrite_taken hf hl rfl

/-- The power state D3hot (3) or D0 (0); other values leave it. -/
theorem exec_configWrite_power {n : Nat} (h : fieldOf (m (if s.sep.d3hot then 3 else 0)) 1 0 = n) :
    exec (.configWrite 0x44 w en) s = if n = 3 then .next (s.updSep (fun y => { y with d3hot := true }))
      else if n = 0 then .next (State.pumpFetch 64 (s.updSep (fun y => { y with d3hot := false })).msiFlush)
      else .next s := by
  subst h
  rw [hm]
  exact configWrite_taken hf hl rfl

theorem configWrite_d0 (h : fieldOf (m (if s.sep.d3hot then 3 else 0)) 1 0 = 0) :
    Gives (.configWrite 0x44 w en) s fun t => t.sep.d3hot = false := by
  refine ⟨_, exec_configWrite_power hf hl hm h, ?_⟩
  obtain ⟨p, hp⟩ := (s.updSep fun y => { y with d3hot := false }).msiFlush_sep
  rw [State.pumpFetch_d3hot, hp]
  rfl

/-- Device Control: bit 15 begins a function reset (R453). -/
theorem configWrite_deviceControl : Gives (.configWrite 0x58 w en) s fun t => t.sep = { s.sep with
    devCtl := m s.sep.devCtl &&& 0x00007FFF, flr := (m s.sep.devCtl).getLsbD 15,
    fetch := if (m s.sep.devCtl).getLsbD 15 = true then none else s.sep.fetch } := by
  have hexec : exec (.configWrite 0x58 w en) s = if (m s.sep.devCtl).getLsbD 15
      then .next (s.updSep (fun y => { y with devCtl := m s.sep.devCtl &&& 0x00007FFF })).flrBegin
      else .next (s.updSep (fun y => { y with devCtl := m s.sep.devCtl &&& 0x00007FFF })) := by
    rw [hm]
    exact configWrite_taken hf hl rfl
  cases hb : (m s.sep.devCtl).getLsbD 15 with
  | true =>
    rw [hb] at hexec
    exact ⟨_, hexec, State.flrBegin_sep _⟩
  | false =>
    rw [hb] at hexec
    exact ⟨_, hexec, congrArg (fun b => { s.sep with devCtl := m s.sep.devCtl &&& 0x00007FFF, flr := b }) hf⟩

theorem configWrite_tag10 : exec (.configWrite 0x78 w en) s =
    .next { s with sep := { s.sep with tag10 := (m (placeBit s.sep.tag10 12)).getLsbD 12 } } := by
  rw [hm]
  exact configWrite_taken hf hl rfl

theorem exec_configWrite_msix : exec (.configWrite 0xB0 w en) s =
    .next (s.withMsix (m (placeBit s.sep.msixEn 31 ||| placeBit s.sep.msixMask 30))) := by
  rw [hm]
  exact configWrite_taken hf hl rfl

/-- The registers of AER: a 1 clears a status bit. -/
theorem configWrite_aer :
    exec (.configWrite 0x104 w en) s = .next { s with sep := { s.sep with uncStat := s.sep.uncStat &&& ~~~ m 0 } } ∧
    exec (.configWrite 0x108 w en) s = .next { s with sep := { s.sep with uncMask := m s.sep.uncMask } } ∧
    exec (.configWrite 0x10C w en) s = .next { s with sep := { s.sep with uncSev := m s.sep.uncSev } } ∧
    exec (.configWrite 0x110 w en) s = .next { s with sep := { s.sep with corStat := s.sep.corStat &&& ~~~ m 0 } } ∧
    exec (.configWrite 0x114 w en) s = .next { s with sep := { s.sep with corMask := m s.sep.corMask } } := by
  simp only [hm]
  and_intros <;> exact configWrite_taken hf hl rfl

theorem configWrite_release : exec (.configWrite 0x228 w en) s = .next (if (m 0).getLsbD 31 = true ∧ s.sep.cause ≠ 0
    then { s with sep := { s.sep with relPend := some (s.now + ms 50) } } else s) := by
  have hexec : exec (.configWrite 0x228 w en) s = if (m 0).getLsbD 31 then .next s.relAsk else .next s := by
    rw [hm]
    exact configWrite_taken hf hl rfl
  rw [hexec]
  cases (m 0).getLsbD 31 with
  | true =>
    rw [if_pos rfl, State.relAsk_eq]
    simp only [true_and, ne_eq, ite_not]
  | false => rw [if_neg Bool.false_ne_true, if_neg fun h => Bool.false_ne_true h.1]

end

end Sys2Proof.Machine
end

section
/-! PROOFS. The service endpoint's reads by DMA, containment and DOE (R446, R447, R449 to R451, R455 to R459; the tags log 88,
DOE objects log 7). -/

namespace Sys2Proof.Machine

/-! ## Reads and the fetch they belong to (R411, R447) -/

theorem State.npOut_eq_zero {s : State} : s.npOut = 0 ↔ ∀ x ∈ s.sep.reads, x.quarantined = true := by
  simp [State.npOut]

/-- While a request is outstanding, the fetch waits. -/
theorem State.fetchDone_waits {s : State} (h : s.npOut ≠ 0) : s.fetchDone = s := by
  unfold State.fetchDone
  split
  · exact if_neg (by simp [h])
  · rfl

/-- With every byte arrived the fetch is over, and its command has its parameters. -/
theorem State.fetchDone_hands {s : State} {f : SepFetch} {c : MbCmd} (hf : s.sep.fetch = some f)
    (hc : s.cmdOf .service = some c) (hl : f.left = 0) (hn : s.npOut = 0) :
    s.fetchDone.sep = { s.sep with fetch := none } ∧ s.fetchDone.cmdOf .service =
      some { c with params := c.params ++ fetchBytes f.got.length c.daddr f.got, fetching := false } := by
  have hdone : s.fetchDone = { s with
      sep := { s.sep with fetch := none }
      mbx := { s.mbx with cmds := updWhere (fun d => d.m = .service) (fun d => { d with
        params := d.params ++ fetchBytes f.got.length c.daddr f.got, fetching := false }) s.mbx.cmds } } := by
    rw [State.fetchDone, hf, hc]
    exact if_pos (by simp [hl, hn])
  rw [hdone]
  refine ⟨rfl, (find_updWhere (p := fun d : MbCmd => d.m = .service) ?_ s.mbx.cmds).trans (congrArg (Option.map _) hc)⟩
  exact fun _ hd => hd

/-- The reads and the fetch of the endpoint replaced. -/
def State.withFetch (s : State) (l : List SepRead) (f : SepFetch) : State :=
  { s with sep := { s.sep with reads := l, fetch := some f } }

/-! ## Failed reads (R451, R455, R456) -/

/-- What a failed read logs and contains; `holds` says whether a poisoned completion contains the function by itself. -/
def State.readError (u : State) (holds : Bool) : DmaCpl → State
  | .poisoned => if holds then (u.aerUnc 12).sepContain 2 else u.aerUnc 12
  | .malformed => u.aerUnc 18
  | _ => u

/-- The bit of AER that a failed read logs (R455). -/
def DmaCpl.logged : DmaCpl → Word
  | .poisoned => place 1 12
  | .malformed => place 1 18
  | _ => 0

/-- The cause of containment after a failed read (R456). -/
def SepSt.causeAfter (x : SepSt) (holds : Bool) : DmaCpl → Nat
  | .poisoned => if x.cause ≠ 0 then x.cause else if fieldOf x.uncSev 12 12 = 1 then 1 else if holds then 2 else 0
  | .malformed => if x.cause ≠ 0 then x.cause else if fieldOf x.uncSev 18 18 = 1 then 1 else 0
  | _ => x.cause

theorem State.readError_mbx (u : State) (holds : Bool) (st : DmaCpl) : (u.readError holds st).mbx = u.mbx := by
  cases st with
  | poisoned =>
    cases holds with
    | true =>
      rw [State.readError, if_pos rfl, State.sepContain]
      split
      · exact u.aerUnc_mbx 12
      · exact u.aerUnc_mbx 12
    | false => exact u.aerUnc_mbx 12
  | malformed => exact u.aerUnc_mbx 18
  | success | unsupported | abort | retry => rfl

/-- A Fatal error comes before the poisoned completion as a cause, and both after the cause that stands (R456). -/
theorem firstCause (k : Nat) (fatal : Prop) [Decidable fatal] :
    (if (if k ≠ 0 then k else if fatal then 1 else 0) ≠ 0 then (if k ≠ 0 then k else if fatal then 1 else 0) else 2) =
      if k ≠ 0 then k else if fatal then 1 else 2 := by
  by_cases hk : k = 0
  · by_cases hf : fatal
    · simp [hk, hf]
    · simp [hk, hf]
  · simp [hk]

theorem State.readError_sep (u : State) (holds : Bool) (st : DmaCpl) : (u.readError holds st).sep = { u.sep with
    uncStat := u.sep.uncStat ||| st.logged, cause := u.sep.causeAfter holds st } := by
  cases st with
  | poisoned =>
    cases holds with
    | true =>
      rw [State.readError, if_pos rfl, State.sepContain_sep, State.aerUnc_sep]
      exact congrArg (fun k => { u.sep with uncStat := u.sep.uncStat ||| place 1 12, cause := k }) 
        (firstCause u.sep.cause (fieldOf u.sep.uncSev 12 12 = 1))
    | false => exact u.aerUnc_sep 12
  | malformed => exact u.aerUnc_sep 18
  | success | unsupported | abort | retry =>
    exact congrArg (fun w => { u.sep with uncStat := w }) (BitVec.or_zero (x := u.sep.uncStat)).symm

/-! ## DMA_COMPLETION (R447, R450, R451, R455, R456) -/

theorem dmaCompletion_stray {s : State} {g : Nat} (h : ∀ r ∈ s.sep.reads, r.tag ≠ g) (a : Nat) (st : DmaCpl) (bs : List Byte) :
    Gives (.dmaCompletion g a st bs) s fun t => t.mbx = s.mbx ∧ t.sep = { s.sep with
      uncStat := s.sep.uncStat ||| place 1 16, corStat := s.sep.corStat ||| place 1 13 } := by
  have hnone : s.sep.reads.find? (fun r => r.tag = g) = none := List.find?_eq_none.mpr (by simpa using h)
  refine ⟨s.aerAdvisory 16, ?_, s.aerAdvisory_mbx 16, s.aerAdvisory_sep 16⟩
  rw [exec_dmaCompletion, execDmaCompletion, hnone]

section
variable {s : State} {g : Nat} {r : SepRead} (hr : s.sep.reads.find? (fun r => r.tag = g) = some r)
include hr

/-- A late completion of a quarantined tag frees the tag and is counted. -/
theorem dmaCompletion_late (hq : r.quarantined = true) (hf : s.sep.fetch = none) (a : Nat) (st : DmaCpl) (bs : List Byte) :
    Gives (.dmaCompletion g a st bs) s fun t => t.mbx = s.mbx ∧ t.sep = { s.sep with
        reads := s.sep.reads.filter (fun r => r.tag ≠ g), uncStat := s.sep.uncStat ||| place 1 16
        corStat := s.sep.corStat ||| place 1 13 } ∧
      (s.Inv → (t.reg Reg.sepLateCpl).toNat = satAt 0xFFFFFFFF ((s.reg Reg.sepLateCpl).toNat + 1)) := by
  have hsep := ((s.dropRead g).bump Reg.sepLateCpl).aerAdvisory_sep 16
  refine ⟨((s.dropRead g).bump Reg.sepLateCpl).aerAdvisory 16, ?_, State.aerAdvisory_mbx _ 16, hsep, fun hi => ?_⟩
  · rw [exec_dmaCompletion, execDmaCompletion, hr]
    dsimp only
    rw [if_pos hq, State.pumpFetch_noFetch (by rw [hsep]; exact hf)]
  · have hi' : (s.dropRead g).Inv := (Kept.dropRead (uu := { sep := true }) g (.refl s) rfl).inv hi
    rw [State.aerAdvisory_reg, State.toNat_reg_bump hi' (absentBits_endpoint _ _ (by decide))]
    rfl

section
variable (hq : r.quarantined = false)
include hq

section
variable {f : SepFetch} (hf : s.sep.fetch = some f) (h0 : f.left = 0) (hd : s.dmaAlive = true)
include hf h0 hd

/-- A piece of a read is added to the fetch; nothing is left to ask for. -/
theorem exec_dmaCompletion_success (a : Nat) (bs : List Byte) : exec (.dmaCompletion g a .success bs) s =
    .next (s.withFetch (if r.left - bs.length = 0 then s.sep.reads.filter (fun r => r.tag ≠ g)
        else updWhere (fun y => y.tag = g) (fun y => { y with left := r.left - bs.length }) s.sep.reads)
      { f with got := f.got ++ [(a, bs)] }).fetchDone := by
  have hpump : ∀ l, State.pumpFetch 64 (s.withFetch l { f with got := f.got ++ [(a, bs)] }) =
      s.withFetch l { f with got := f.got ++ [(a, bs)] } := fun l =>
    State.pumpFetch_asked (by rintro _ ⟨⟩; exact h0) 64
  rw [exec_dmaCompletion, execDmaCompletion, hr]
  dsimp only
  rw [if_neg (by simp [hq]), if_neg (by simp [hd]), ← hpump]
  split
  · simp only [State.dropRead, State.updSep, hf, Option.map_some, State.withFetch]
  · simp only [State.updSep, hf, Option.map_some, State.withFetch]

/-- With bytes of the read still to come, its tag stays outstanding. -/
theorem dmaCompletion_piece {bs : List Byte} (hb : bs.length < r.left) (a : Nat) :
    exec (.dmaCompletion g a .success bs) s = .next { s with sep := { s.sep with
      reads := updWhere (fun y => y.tag = g) (fun y => { y with left := r.left - bs.length }) s.sep.reads,
      fetch := some { f with got := f.got ++ [(a, bs)] } } } := by
  rw [exec_dmaCompletion_success hr hq hf h0 hd, if_neg (Nat.sub_ne_zero_of_lt hb), State.fetchDone_waits]
  · rfl
  · rw [Ne, State.npOut_eq_zero]
    intro hall
    have hmem : { r with left := r.left - bs.length } ∈
        updWhere (fun y => y.tag = g) (fun y => { y with left := r.left - bs.length }) s.sep.reads :=
      List.mem_map.mpr ⟨r, List.mem_of_find?_eq_some hr, if_pos (List.find?_some (p := fun r : SepRead => r.tag = g) hr)⟩
    exact absurd (hall _ hmem) (by simp [hq])

/-- The last piece of the last read hands the parameters over. -/
theorem dmaCompletion_last {bs : List Byte} {c : MbCmd} (hc : s.cmdOf .service = some c) (hb : r.left ≤ bs.length)
    (hlast : ∀ x ∈ s.sep.reads, x.tag = g ∨ x.quarantined = true) (a : Nat) :
    Gives (.dmaCompletion g a .success bs) s fun t =>
      t.sep = { s.sep with fetch := none, reads := s.sep.reads.filter (fun r => r.tag ≠ g) } ∧
      t.cmdOf .service = some { c with
        params := c.params ++ fetchBytes (f.got.length + 1) c.daddr (f.got ++ [(a, bs)]), fetching := false } := by
  have hexec := exec_dmaCompletion_success hr hq hf h0 hd a bs
  rw [if_pos (Nat.sub_eq_zero_of_le hb)] at hexec
  have hn : (s.withFetch (s.sep.reads.filter (fun r => r.tag ≠ g)) { f with got := f.got ++ [(a, bs)] }).npOut = 0 := by
    refine State.npOut_eq_zero.mpr fun x hx => ?_
    obtain ⟨hmem, hne⟩ := List.mem_filter.mp hx
    exact (hlast x hmem).resolve_left (of_decide_eq_true hne)
  obtain ⟨hsep, hcmd⟩ := State.fetchDone_hands (f := { f with got := f.got ++ [(a, bs)] }) rfl (by exact hc) h0 hn
  rw [List.length_append] at hcmd
  exact ⟨_, hexec, hsep, hcmd⟩

end

/-- A failed read: its tag is free, its fetch fails, and an error of AER is logged and may contain the function. -/
theorem dmaCompletion_failed {c : MbCmd} (hi : s.Inv) (hc : s.cmdOf .service = some c) {st : DmaCpl} (hst : st ≠ .success)
    (a : Nat) (bs : List Byte) : Gives (.dmaCompletion g a st bs) s fun t => s.FetchFailed t ∧ t.sep = { s.sep with
      fetch := none, reads := s.sep.reads.filter (fun r => r.tag ≠ g)
      uncStat := s.sep.uncStat ||| st.logged, cause := s.sep.causeAfter (s.cfgBit Reg.sepCfg 1) st } := by
  have hfail : s.FetchFailed (s.dropRead g).fetchFail := State.fetchFailed_fetchFail hi hc rfl rfl
  refine ⟨(s.dropRead g).fetchFail.readError (s.cfgBit Reg.sepCfg 1) st, ?_, hfail.of_mbx (State.readError_mbx ..), ?_⟩
  · rw [exec_dmaCompletion, execDmaCompletion, hr]
    dsimp only
    rw [if_neg (by simp [hq])]
    cases st with
    | success => exact absurd rfl hst
    | poisoned | malformed | unsupported | abort | retry => rfl
  · rw [State.readError_sep, State.fetchFail_sep]
    rfl

end
end

/-! ## COMPLETION_TIMEOUT, QUARANTINE_EXPIRY (R449, R450) -/

/-- A read whose completion is late: its tag is quarantined. -/
def State.quarantined (s : State) (g : Nat) : State :=
  s.updSep (fun x => { x with reads := updWhere (fun y => y.tag = g) (fun y => { y with quarantined := true }) x.reads })

theorem completionTimeout_nothing {s : State} {g : Nat}
    (h : s.sep.reads.find? (fun r => r.tag = g && !r.quarantined) = none) : exec (.completionTimeout g) s = .next s := by
  rw [exec_completionTimeout, execCompletionTimeout, h]

section
variable {s : State} {g : Nat} {r : SepRead} (hr : s.sep.reads.find? (fun r => r.tag = g && !r.quarantined) = some r)
include hr

theorem completionTimeout_early (h : s.now < r.issuedAt + us 47500) : exec (.completionTimeout g) s = .next s := by
  rw [exec_completionTimeout, execCompletionTimeout, hr]
  exact if_pos h

theorem completionTimeout_quarantines (h : r.issuedAt + us 47500 ≤ s.now) : Gives (.completionTimeout g) s fun t =>
    t.sep.fetch = none ∧
    t.sep.reads = updWhere (fun y => y.tag = g) (fun y => { y with quarantined := true }) s.sep.reads ∧
    t.sep.uncStat = s.sep.uncStat ||| place 1 14 ∧
    (s.Inv → s.sep.fetch = none → t.mbx = s.mbx ∧
      (t.reg Reg.sepCto).toNat = satAt 0xFFFFFFFF ((s.reg Reg.sepCto).toNat + 1)) := by
  have hsep := (((s.quarantined g).bump Reg.sepCto).fetchFail).aerUnc_sep 14
  rw [State.fetchFail_sep] at hsep
  refine ⟨(((s.quarantined g).bump Reg.sepCto).fetchFail).aerUnc 14, ?_, ?_, ?_, ?_, fun hi hf => ?_⟩
  · rw [exec_completionTimeout, execCompletionTimeout, hr]
    exact if_neg (Nat.not_lt.mpr h)
  · rw [hsep]
  · rw [hsep]
    rfl
  · rw [hsep]
    rfl
  · have hi' : (s.quarantined g).Inv :=
      (Kept.updSep (uu := { sep := true }) _ (fun _ => { sepU := .inl rfl }) (.refl s) rfl).inv hi
    rw [State.aerUnc_mbx, State.aerUnc_reg, State.fetchFail_of_none (by exact hf),
      State.toNat_reg_bump hi' (absentBits_endpoint _ _ (by decide))]
    exact ⟨rfl, rfl⟩

end

theorem quarantineExpiry_frees {s : State} (hf : s.sep.fetch = none) (g : Nat) : exec (.quarantineExpiry g) s = .next
    (if s.sep.reads.any (fun r => r.tag = g && r.quarantined && r.issuedAt + ms 100 ≤ s.now) = true
      then { s with sep := { s.sep with reads := s.sep.reads.filter (fun r => r.tag ≠ g) } } else s) := by
  rw [exec_quarantineExpiry, execQuarantineExpiry, State.pumpFetch_noFetch (by exact hf), apply_ite Host.Outcome.next]
  rfl

/-! ## CONTAINMENT_RELEASE, CONTAINMENT_RELEASE_EFFECT (R446, R457) -/

theorem containmentRelease_asks (s : State) : exec .containmentRelease s = .next (if s.sep.cause = 0 then s
    else { s with sep := { s.sep with relPend := some (s.now + ms 50) } }) := by
  rw [exec_containmentRelease, execContainmentRelease, State.relAsk_eq]

theorem containmentReleaseEffect_waits {s : State}
    (h : s.sep.relPend = none ∨ (s.npOut ≠ 0 ∧ due s.sep.relPend s.now = false)) :
    exec .containmentReleaseEffect s = .next s := by
  rw [exec_containmentReleaseEffect, execContainmentReleaseEffect, if_neg]
  rcases h with h | ⟨hn, hd⟩
  · simp [h]
  · simp [hn, hd]

theorem containmentReleaseEffect_releases {s : State} (hi : s.Inv) (hp : s.sep.relPend.isSome = true)
    (h : s.npOut = 0 ∨ due s.sep.relPend s.now = true) (hc : s.sep.cause ≠ 0) :
    Gives .containmentReleaseEffect s fun t => t.sep.cause = 0 ∧ t.sep.relPend = none ∧
      (t.reg Reg.sepEvtstat).getLsbD 3 = true := by
  obtain ⟨p, hsep⟩ := State.sepRelease_sep hc
  refine ⟨s.sepRelease, ?_, by rw [hsep], by rw [hsep], State.sepRelease_event hi hc⟩
  rw [exec_containmentReleaseEffect, execContainmentReleaseEffect, if_pos (by simpa [hp] using h)]

/-! ## DOE_REQUEST, DOE_ABORT (R458, R459) -/

/-- A response stands in the mailbox and leaves. -/
theorem State.doeReply_gives (s : State) (o : List Byte) : (s.doeReply o).sep.doe = some o ∧ s.Sent (s.doeReply o) (.doe o) :=
  ⟨rfl, (State.Sent.emit (s.updSep fun x => { x with doe := some o }) (.doe o)).congr rfl rfl⟩

/-- A discovery of an index that the part serves names it and the next one. -/
theorem exec_doeRequest_discovery {s : State} {i : Nat} (h : i ≤ if Config.hasCipher s.part then 1 else 0) :
    exec (.doeRequest (.discovery i)) s = .next (s.doeReply (doeObject 0 (leBytes 2 1 ++ leBytes 1 i ++
      leBytes 1 (if i < (if Config.hasCipher s.part then 1 else 0) then i + 1 else 0)))) := by
  rw [exec_doeRequest, execDoeRequest]
  exact if_pos h

theorem doeRequest_discoveryCipher {s : State} {i : Nat} (hx : Config.hasCipher s.part = true) (h : i ≤ 1) :
    Gives (.doeRequest (.discovery i)) s fun t =>
      s.Sent t (.doe ([1, 0, 0, 0, 3, 0, 0, 0, 1, 0] ++ leBytes 1 i ++ leBytes 1 (1 - i))) := by
  have hobj : ∀ i ≤ 1, doeObject 0 (leBytes 2 1 ++ leBytes 1 i ++ leBytes 1 (if i < 1 then i + 1 else 0)) =
      [1, 0, 0, 0, 3, 0, 0, 0, 1, 0] ++ leBytes 1 i ++ leBytes 1 (1 - i) := by decide
  refine ⟨_, exec_doeRequest_discovery (by rwa [if_pos hx]), ?_⟩
  rw [if_pos hx, hobj i h]
  exact (s.doeReply_gives _).2

theorem doeRequest_discoveryPlain {s : State} {i : Nat} (hx : Config.hasCipher s.part = false) (h : i = 0) :
    Gives (.doeRequest (.discovery i)) s fun t => s.Sent t (.doe [1, 0, 0, 0, 3, 0, 0, 0, 1, 0, 0, 0]) := by
  subst h
  have hobj : doeObject 0 (leBytes 2 1 ++ leBytes 1 0 ++ leBytes 1 (if 0 < 0 then 0 + 1 else 0)) =
      [1, 0, 0, 0, 3, 0, 0, 0, 1, 0, 0, 0] := by decide
  refine ⟨_, exec_doeRequest_discovery (Nat.zero_le _), ?_⟩
  rw [if_neg (ne_true_of_eq_false hx), hobj]
  exact (s.doeReply_gives _).2

theorem doeRequest_discoveryUnknown {s : State} {i : Nat} (h : 1 < i ∨ (Config.hasCipher s.part = false ∧ i ≠ 0)) :
    Gives (.doeRequest (.discovery i)) s fun t => s.Sent t (.doe [1, 0, 0, 0, 3, 0, 0, 0, 0xFF, 0xFF, 0, 0]) := by
  have hobj : doeObject 0 (leBytes 2 0xFFFF ++ zeroBytes 2) = [1, 0, 0, 0, 3, 0, 0, 0, 0xFF, 0xFF, 0, 0] := by decide
  refine ⟨s.doeReply (doeObject 0 (leBytes 2 0xFFFF ++ zeroBytes 2)), ?_, ?_⟩
  · rw [exec_doeRequest, execDoeRequest]
    refine if_neg ?_
    rcases h with h | ⟨hx, h⟩
    · split <;> omega
    · rw [if_neg (ne_true_of_eq_false hx)]
      omega
  · rw [hobj]
    exact (s.doeReply_gives _).2

theorem doeRequest_spdmAbsent {s : State} (hx : Config.hasCipher s.part = false) (q : SpdmReq) :
    exec (.doeRequest (.spdm q)) s = .next s := by
  rw [exec_doeRequest, execDoeRequest]
  exact if_neg (ne_true_of_eq_false hx)

theorem doeRequest_spdmAnswers {s : State} (hx : Config.hasCipher s.part = true) (q : SpdmReq) :
    Gives (.doeRequest (.spdm q)) s fun t => t.sep.doe = some (doeObject 1 (s.spdm q)) ∧
      s.Sent t (.doe (doeObject 1 (s.spdm q))) := by
  refine ⟨_, ?_, s.doeReply_gives _⟩
  rw [exec_doeRequest, execDoeRequest]
  exact if_pos hx

/-! ## The statement -/

/-- Settles O33, each command by its own rules: the link, the resets and configuration writes in the part above, the reads by
DMA, containment and DOE here. -/
theorem endpointLinkDmaAndContainment : Obligations.EndpointLinkDmaAndContainment := by
  unfold Obligations.EndpointLinkDmaAndContainment
  refine ⟨sepPerstAssert_gives, exec_sepPerstDeassert, fun s v w => ⟨fun h => sepLinkUp_lapses h v w, fun hp he =>
    sepLinkUp_trains hp he v w⟩, sepLinkDown_gives, hotReset_gives, functionLevelReset_gives,
    fun s c e hi hc he => requestsEnd_fetchFailed hi hc he,
    fun s => ⟨flrComplete_lapses, fun hf hn => ⟨flrComplete_resets hf hn, flrComplete_releases hf hn⟩⟩,
    fun s o w en h => configWrite_lapses h o w en, ?config, fun s g a st bs h => dmaCompletion_stray h a st bs,
    fun s g a st bs r hr hq hf => dmaCompletion_late hr hq hf a st bs, ?completion,
    fun s g r hr => ⟨completionTimeout_early hr, completionTimeout_quarantines hr⟩,
    fun s g h => completionTimeout_nothing h, fun s g hf => quarantineExpiry_frees hf g, containmentRelease_asks,
    fun s => ⟨containmentReleaseEffect_waits, containmentReleaseEffect_releases⟩,
    fun s i => ⟨doeRequest_discoveryCipher, doeRequest_discoveryPlain, doeRequest_discoveryUnknown⟩,
    fun s q => ⟨fun hx => doeRequest_spdmAbsent hx q, fun hx => doeRequest_spdmAnswers hx q⟩,
    fun s => ⟨exec_doeRequest .other s, exec_doeAbort s⟩⟩
  case config =>
    intro s w en m hf hl hm
    obtain ⟨hbar0, hbar0High, hbar2, hbar2High⟩ := configWrite_bars hf hl hm
    obtain ⟨huncStat, huncMask, huncSev, hcorStat, hcorMask⟩ := configWrite_aer hf hl hm
    exact ⟨⟨_, exec_configWrite_command hf hl hm, s.withCommand_sep _⟩, hbar0, hbar0High, hbar2, hbar2High,
      exec_configWrite_power hf hl hm, configWrite_d0 hf hl hm, configWrite_deviceControl hf hl hm,
      configWrite_tag10 hf hl hm, ⟨_, exec_configWrite_msix hf hl hm, s.withMsix_sep _⟩, huncStat, huncMask, huncSev, hcorStat, hcorMask,
      configWrite_release hf hl hm, fun o ho => configWrite_elsewhere hf hl ho w en⟩
  case completion =>
    intro s g a st bs r c hi hr hq hc
    refine ⟨fun f hst hf h0 hd => ?_, fun hst => ?_⟩
    · subst hst
      exact ⟨fun hb => dmaCompletion_piece hr hq hf h0 hd hb a, fun hb hlast =>
        dmaCompletion_last hr hq hf h0 hd hc hb hlast a⟩
    · obtain ⟨t, ht, hfail, hsep⟩ := dmaCompletion_failed hr hq hi hc hst a bs
      refine ⟨t, ht, by rw [hsep], by rw [hsep], hfail.ended, hfail.mbx, ?_, ?_, ?_⟩
      · rintro rfl
        rw [hsep]
        exact ⟨rfl, rfl⟩
      · rintro rfl
        rw [hsep]
        exact ⟨rfl, rfl⟩
      · rintro (rfl | rfl | rfl)
        all_goals rw [hsep]; exact ⟨BitVec.or_zero, rfl⟩

end Sys2Proof.Machine
end

section
/-! PROOFS. Drive ports: containment and its end, link training and the reads of a port (R462 to R465, R468 to R470, R537). -/

namespace Sys2Proof.Machine

/-! ## Ports and counters -/

theorem State.portOf_congr {s t : State} (h : t.bay.ports = s.bay.ports) (p : Nat) : t.portOf p = s.portOf p := by
  rw [State.portOf, h, ← State.portOf]

@[simp] theorem State.emit_portOf (s : State) (e : Emission) (p : Nat) : (s.emit e).portOf p = s.portOf p := rfl

@[simp] theorem State.emitAll_portOf (s : State) (l : List Emission) (p : Nat) : (s.emitAll l).portOf p = s.portOf p := rfl

@[simp] theorem State.bump_portOf (s : State) (a p : Nat) : (s.bump a).portOf p = s.portOf p := rfl

/-- Every port of a state in form can be set. -/
theorem State.Inv.portOf_setPort {s : State} (hi : s.Inv) {p : Nat} (hp : p < 24) (f : DrivePort → DrivePort) :
    (s.setPort p f).portOf p = f (s.portOf p) :=
  State.portOf_setPort (by rw [hi.counts.drivePorts]; exact hp)

theorem State.portOf_setPort_ne {p i : Nat} (h : i ≠ p) (s : State) (f : DrivePort → DrivePort) :
    (s.setPort p f).portOf i = s.portOf i := by
  rcases Nat.lt_or_ge p s.bay.ports.length with hp | hp
  · exact (getD_setAt _ _ _ _ _ hp).trans (if_neg h)
  · exact congrArg (fun l => l.getD i {}) (setAt_of_le _ _ _ hp)

/-- Every part has the counters of the drive ports. -/
theorem absentBits_dpx (p : Part) :
    ∀ a ∈ [Reg.dpxCto, Reg.dpxLateCpl, Reg.dpxIoretry, Reg.dpxHedged, Reg.dpxContain], absentBits p a = 0#32 := by
  cases p <;> decide

theorem State.Inv.setPort {s : State} (hi : s.Inv) (p : Nat) (f : DrivePort → DrivePort) : (s.setPort p f).Inv :=
  (Kept.setPort (uu := { bay := true }) p f (.refl s) rfl).inv hi

/-- A counter of the drive ports counts one event, whatever changed outside the registers before it (R14). -/
theorem State.toNat_reg_bump_dpx {s t : State} (hi : s.Inv) {a : Nat}
    (ha : a ∈ [Reg.dpxCto, Reg.dpxLateCpl, Reg.dpxIoretry, Reg.dpxHedged, Reg.dpxContain])
    (hr : t.regs = s.regs := by rfl) (hp : t.part = s.part := by rfl) (hs : t.slot = s.slot := by rfl) :
    ((t.bump a).reg a).toNat = satAt 0xFFFFFFFF ((s.reg a).toNat + 1) := by
  rw [← State.toNat_reg_bump hi (absentBits_dpx s.part a ha)]
  simp only [State.bump, State.bumpBy, State.putReg, State.reg, hr, hp, hs]

/-- A pass over the numbers below `n`, seen at one of them: the step of that number changes what is seen, the others do not. -/
theorem foldl_natsFrom_at {σ α : Type} {f : σ → Nat → σ} {K : σ → Prop} {look : σ → α} {n i : Nat} {a b : α} (hin : i < n)
    (hK : ∀ t k, k < n → K t → K (f t k)) (hother : ∀ t k, k < n → K t → k ≠ i → look (f t k) = look t)
    (hself : ∀ t, K t → look t = a → look (f t i) = b) {s : σ} (h0 : K s) (hs : look s = a) :
    look ((natsFrom 0 n).foldl f s) = b := by
  have hpass : ∀ m t, m ≤ n → K t → look t = (if n - m ≤ i then a else b) →
      look ((natsFrom (n - m) m).foldl f t) = b := by
    intro m
    induction m with
    | zero =>
      intro t _ _ ht
      exact ht.trans (if_neg (by omega))
    | succ m ih =>
      intro t hm ht hl
      have hlt : n - (m + 1) < n := by omega
      rw [natsFrom, List.foldl_cons, show n - (m + 1) + 1 = n - m by omega]
      refine ih _ (by omega) (hK t _ hlt ht) ?_
      by_cases he : n - (m + 1) = i
      · rw [if_pos (by omega)] at hl
        rw [if_neg (by omega), he]
        exact hself t ht hl
      · rw [hother t _ hlt ht he, hl]
        split <;> split <;> first | rfl | omega
  have h := hpass n s (Nat.le_refl n) h0 (by rw [Nat.sub_self, if_pos (Nat.zero_le i)]; exact hs)
  rwa [Nat.sub_self] at h

/-- What every step of a pass keeps holds after it. -/
theorem foldl_keeps {σ α : Type} {f : σ → α → σ} {K : σ → Prop} (hK : ∀ t k, K t → K (f t k)) (l : List α) :
    ∀ {s : σ}, K s → K (l.foldl f s) := by
  induction l with
  | nil => exact fun h => h
  | cons k l ih => exact fun h => ih (hK _ k h)

/-! ## Containment and its end (R468 to R470) -/

/-- A contained port, with the times of the containments of the last 60 s (R469, R470). -/
def State.containPort (s : State) (k : Nat) (hist : List Nat) (q : DrivePort) : DrivePort :=
  { q with
    contained := true, cause := k, train := .down, speed := 0, width := 0, trainEnd := none, reads := [], history := hist
    stuck := q.stuck || s.cfg Reg.dpxDpccfg 19 16 < hist.length
    holdEnd := if (k = 1 ∨ k = 3 ∨ k = 4) ∧ hist.length ≤ s.cfg Reg.dpxDpccfg 19 16
      then some (s.now + ms (s.cfg Reg.dpxDpccfg 9 0)) else none }

theorem State.contain_contained {s : State} {p : Nat} (h : (s.portOf p).contained = true) (k : Nat) : s.contain p k = s :=
  if_pos h

theorem State.contain_eq {s : State} {p : Nat} (h : (s.portOf p).contained = false) (k : Nat) {hist : List Nat}
    (hh : hist = (s.now :: (s.portOf p).history).filter (fun t => s.now < t + sec 60)) :
    s.contain p k = ((((s.setPort p (s.containPort k hist)).bump Reg.dpxContain).dropDpRun p).failPort p).driveLost p := by
  subst hh
  unfold State.contain
  rw [if_neg (by rw [h]; decide)]
  simp only [Bool.or_eq_true, decide_eq_true_eq, Bool.and_eq_true, Bool.not_eq_true', decide_eq_false_iff_not, Nat.not_lt, or_assoc]
  rfl

theorem State.contain_contains {s : State} (hi : s.Inv) {p : Nat} (hp : p < 24) (h : (s.portOf p).contained = false) (k : Nat)
    {hist : List Nat} (hh : hist = (s.now :: (s.portOf p).history).filter (fun t => s.now < t + sec 60)) :
    ∃ u : State, u.rge = s.rge ∧ u.bay.cmds = s.bay.cmds ∧ u.lcu = s.lcu ∧
      s.contain p k = ((u.dropDpRun p).failPort p).driveLost p ∧
      (u.reg Reg.dpxContain).toNat = satAt 0xFFFFFFFF ((s.reg Reg.dpxContain).toNat + 1) ∧
      u.portOf p = s.containPort k hist (s.portOf p) :=
  ⟨(s.setPort p (s.containPort k hist)).bump Reg.dpxContain, rfl, rfl, rfl, State.contain_eq h k hh,
    State.toNat_reg_bump_dpx hi (by decide), hi.portOf_setPort hp _⟩

/-- The end of containment: where the bay has power and PERST_N is up, the link trains again (R462, R470). -/
theorem State.release_portOf {s : State} (hi : s.Inv) {p : Nat} (hp : p < 24) :
    (s.release p).portOf p = if ((s.bayOf p).st = .powered ∨ (s.bayOf p).st = .ready) ∧ (s.portOf p).perst = false
      then { s.portOf p with
        contained := false, stuck := false, holdEnd := none, train := .training, attempts := 1
        trainEnd := some (s.now + ms 250), speed := 0, width := 0 }
      else { s.portOf p with contained := false, stuck := false, holdEnd := none } := by
  unfold State.release
  simp only [Bool.and_eq_true, Bool.or_eq_true, decide_eq_true_eq, Bool.not_eq_true']
  split
  · rw [State.train, (hi.setPort p _).portOf_setPort hp, hi.portOf_setPort hp]
    rfl
  · exact hi.portOf_setPort hp _

theorem State.release_portOf_ne {p i : Nat} (h : i ≠ p) (s : State) : (s.release p).portOf i = s.portOf i := by
  unfold State.release
  dsimp only
  split
  · exact (State.portOf_setPort_ne h _ _).trans (State.portOf_setPort_ne h s _)
  · exact State.portOf_setPort_ne h s _

/-- The release of a port concerns its record alone. -/
theorem State.release_frame (s : State) (p : Nat) : (s.release p).bay.bays = s.bay.bays ∧ (s.release p).bay.cmds = s.bay.cmds ∧
    (s.release p).rge = s.rge ∧ (s.release p).now = s.now := by
  unfold State.release
  dsimp only
  split <;> exact ⟨rfl, rfl, rfl, rfl⟩

theorem surpriseLinkDown_contains {s : State} {p : Nat} (ht : (s.portOf p).train = .l0) (hs : (s.bayOf p).seated = true) :
    exec (.surpriseLinkDown p) s = .next (s.contain p 1) := by
  rw [exec_surpriseLinkDown, execSurpriseLinkDown]
  exact if_pos (by simp [ht, hs])

theorem surpriseLinkDown_lapses {s : State} {p : Nat} (h : (s.portOf p).train ≠ .l0 ∨ (s.bayOf p).seated = false) :
    exec (.surpriseLinkDown p) s = .next s := by
  rw [exec_surpriseLinkDown, execSurpriseLinkDown]
  exact if_neg (by rcases h with h | h <;> simp [h])

theorem drivePortFatalError_contains {s : State} {p : Nat} (hp : p < Config.bays s.part) (ht : (s.portOf p).train ≠ .down) :
    exec (.drivePortFatalError p) s = .next (s.contain p 3) := by
  rw [exec_drivePortFatalError, execDrivePortFatalError]
  exact if_pos (by simp [hp, ht])

theorem drivePortFatalError_lapses {s : State} {p : Nat} (h : Config.bays s.part ≤ p ∨ (s.portOf p).train = .down) :
    exec (.drivePortFatalError p) s = .next s := by
  rw [exec_drivePortFatalError, execDrivePortFatalError]
  exact if_neg (by rcases h with h | h <;> simp [h])

theorem containmentHoldExpiry_releases {s : State} {p : Nat} (hc : (s.portOf p).contained = true)
    (hs : (s.portOf p).stuck = false) (hd : due (s.portOf p).holdEnd s.now = true) :
    exec (.containmentHoldExpiry p) s = .next (s.release p) := by
  rw [exec_containmentHoldExpiry, execContainmentHoldExpiry]
  exact if_pos (by simp [hc, hs, hd])

theorem containmentHoldExpiry_lapses {s : State} {p : Nat} (h : (s.portOf p).contained = false ∨ (s.portOf p).stuck = true ∨
    due (s.portOf p).holdEnd s.now = false) : exec (.containmentHoldExpiry p) s = .next s := by
  rw [exec_containmentHoldExpiry, execContainmentHoldExpiry]
  exact if_neg (by rcases h with h | h | h <;> simp [h])

/-- What the pass over DPCREL keeps of the state it started from. -/
structure State.Releasing (s t : State) : Prop where
  inv : t.Inv
  bays : t.bay.bays = s.bay.bays
  cmds : t.bay.cmds = s.bay.cmds
  rge : t.rge = s.rge
  now : t.now = s.now

theorem State.Releasing.release {s t : State} (h : s.Releasing t) (p : Nat) : s.Releasing (t.release p) := by
  obtain ⟨hbays, hcmds, hrge, hnow⟩ := t.release_frame p
  exact ⟨(Kept.release (uu := { bay := true }) p (.refl t) rfl).inv h.inv, hbays.trans h.bays, hcmds.trans h.cmds, hrge.trans h.rge,
    hnow.trans h.now⟩

theorem dpcrelWrite_gives {s : State} (hi : s.Inv) (w : Word) : Gives (.dpcrelWrite w) s fun t =>
    t.bay.cmds = s.bay.cmds ∧ t.rge = s.rge ∧
    ∀ i < 24, t.portOf i = if w.getLsbD i = true ∧ (s.portOf i).stuck = true then (s.release i).portOf i else s.portOf i := by
  have hstep : ∀ (t : State) k, s.Releasing t →
      s.Releasing (if w.getLsbD k && (t.portOf k).stuck then t.release k else t) := by
    intro t k ht
    split
    · exact ht.release k
    · exact ht
  have h0 : s.Releasing s := ⟨hi, rfl, rfl, rfl, rfl⟩
  have hend : s.Releasing (s.dpcrelWrite w) := foldl_keeps hstep _ h0
  refine ⟨s.dpcrelWrite w, by rw [exec_dpcrelWrite, execDpcrelWrite], hend.cmds, hend.rge, fun i h24 => ?_⟩
  refine foldl_natsFrom_at (look := fun t => t.portOf i) (a := s.portOf i) h24 (fun t k _ => hstep t k) (fun t k _ _ hk => ?_)
    (fun t ht hl => ?_) h0 rfl
  · split
    · exact State.release_portOf_ne hk.symm t
    · rfl
  · rw [apply_ite (fun u : State => u.portOf i), State.release_portOf ht.inv h24, State.release_portOf hi h24, hl, ht.now,
      State.bayOf, ht.bays, ← State.bayOf]
    simp only [Bool.and_eq_true]

/-! ## Training (R462, R537) -/

theorem driveLinkL0_lapses {s : State} {p : Nat} (h : (s.portOf p).train ≠ .training ∨ (s.portOf p).contained = true ∨
    (s.portOf p).perst = true ∨ s.tk.fenced = true) (v n : Nat) : exec (.driveLinkL0 p v n) s = .next s := by
  rw [exec_driveLinkL0, execDriveLinkL0]
  exact if_neg (by rcases h with h | h | h | h <;> simp [h])

/-- What a port is in L0, no faster than MAXSPD, the controller registers of its drive being read (R462, R474). -/
def State.linked (s : State) (v n : Nat) (q : DrivePort) : DrivePort :=
  { q with
    train := .l0, speed := Nat.min v (s.cfg Reg.dpxCfg 18 16), width := Nat.min n 2, trainEnd := none
    reads := [⟨0, s.now, false, false⟩] }

theorem State.endDpRun_other {s : State} {p : Nat} (h : s.lcu.dpRun ≠ some p) : s.endDpRun p = s := if_pos h

/-- The run of the port is over, whatever waited on it goes on (R537). -/
theorem State.endDpRun_lcu {s : State} {p : Nat} (h : s.lcu.dpRun = some p) : (s.endDpRun p).lcu = { s.lcu with dpRun := none } := by
  have hall : ∀ t : State, t.advanceAll.lcu = t.lcu := fun t =>
    (Kept.advanceAll (uu := { hce := true, rge := true, rfx := true, kvt := true, bay := true, xbr := true, pmu := true
                              moved := true, out := true, free := true })
      (.refl t) rfl rfl rfl rfl rfl rfl rfl rfl rfl rfl).only.lcu.resolve_left Bool.false_ne_true
  unfold State.endDpRun
  rw [if_neg (not_not.mpr h)]
  dsimp only
  rw [hall, State.reask_lcu]
  exact foldl_frame (fun t _ => State.updRing_lcu ..) _ _

section
variable {s : State} {p : Nat} (ht : (s.portOf p).train = .training)
include ht

theorem exec_driveLinkL0_trained (hc : (s.portOf p).contained = false) (hr : (s.portOf p).perst = false)
    (hf : s.tk.fenced = false) (v n : Nat) :
    exec (.driveLinkL0 p v n) s = .next ((s.setPort p (s.linked v n)).endDpRun p) := by
  rw [exec_driveLinkL0, execDriveLinkL0]
  exact if_pos (by simp [ht, hc, hr, hf])

variable (hi : s.Inv) (hp : p < 24)
include hi hp

theorem linkTrainingTimeout_retries (hd : due (s.portOf p).trainEnd s.now = true) (ha : (s.portOf p).attempts < 3) :
    Gives (.linkTrainingTimeout p) s fun t =>
      t.portOf p = { s.portOf p with attempts := (s.portOf p).attempts + 1, trainEnd := some (s.now + ms 251) } ∧
      s.Sent t (.pin (.perst p) false) ∧ s.Sent t (.pin (.perst p) true) := by
  unfold Gives
  rw [exec_linkTrainingTimeout, execLinkTrainingTimeout]
  dsimp only
  rw [if_pos (by simp [ht, hd]), if_pos ha]
  refine ⟨_, rfl, ?_, ⟨_, rfl, by simp⟩, ⟨_, rfl, by simp⟩⟩
  rw [State.emitAll_portOf, hi.portOf_setPort hp]

theorem linkTrainingTimeout_fails (hd : due (s.portOf p).trainEnd s.now = true) (ha : 3 ≤ (s.portOf p).attempts) :
    ∃ u : State, u.portOf p = { s.portOf p with train := .failed, trainEnd := none } ∧ u.rge = s.rge ∧ u.lcu = s.lcu ∧
      exec (.linkTrainingTimeout p) s = .next (if s.lcu.dpRun = some p then (u.dropDpRun p).driveLost p else u) := by
  refine ⟨s.setPort p (fun q => { q with train := .failed, trainEnd := none }), hi.portOf_setPort hp _, rfl, rfl, ?_⟩
  rw [exec_linkTrainingTimeout, execLinkTrainingTimeout, apply_ite Host.Outcome.next]
  exact (if_pos (by simp [ht, hd])).trans (if_neg (Nat.not_lt.mpr ha))

end

theorem linkTrainingTimeout_lapses {s : State} {p : Nat} (h : (s.portOf p).train ≠ .training ∨ due (s.portOf p).trainEnd s.now = false) :
    exec (.linkTrainingTimeout p) s = .next s := by
  rw [exec_linkTrainingTimeout, execLinkTrainingTimeout]
  exact if_neg (by rcases h with h | h <;> simp [h])

/-! ## Reads of a port (R464, R465) -/

section
variable {s : State} {p g : Nat} {r : DpxRead} (hr : (s.portOf p).reads.find? (fun r => r.tag = g && !r.quarantined) = some r)
include hr

theorem dpxCompletionTimeout_early (ht : s.now < r.issuedAt + ms (s.cfg Reg.dpxCfg 15 8)) :
    exec (.dpxCompletionTimeout p g) s = .next s := by
  rw [exec_dpxCompletionTimeout, execDpxCompletionTimeout, hr]
  exact if_pos ht

theorem dpxCompletionTimeout_second (ht : r.issuedAt + ms (s.cfg Reg.dpxCfg 15 8) ≤ s.now) (h2 : r.second = true) :
    exec (.dpxCompletionTimeout p g) s = .next ((s.bump Reg.dpxCto).contain p 4) := by
  rw [exec_dpxCompletionTimeout, execDpxCompletionTimeout, hr]
  exact (if_neg (Nat.not_lt.mpr ht)).trans (if_pos h2)

theorem dpxCompletionTimeout_again (ht : r.issuedAt + ms (s.cfg Reg.dpxCfg 15 8) ≤ s.now) (h2 : r.second = false) (hi : s.Inv)
    (hp : p < 24) : Gives (.dpxCompletionTimeout p g) s fun t =>
      (t.reg Reg.dpxCto).toNat = satAt 0xFFFFFFFF ((s.reg Reg.dpxCto).toNat + 1) ∧
      t.portOf p = { s.portOf p with
        reads := updWhere (fun x => x.tag = g) (fun x => { x with quarantined := true }) (s.portOf p).reads ++
          [⟨(s.portOf p).freeTag, s.now, true, false⟩] } := by
  unfold Gives
  rw [exec_dpxCompletionTimeout, execDpxCompletionTimeout, hr]
  dsimp only
  rw [if_neg (Nat.not_lt.mpr ht), if_neg (by simp [h2])]
  refine ⟨_, rfl, ?_, ?_⟩
  · exact State.toNat_reg_bump_dpx (t := s) hi (by decide)
  · rw [State.portOf_setPort (hi.counts.drivePorts ▸ hp)]
    rfl

end

theorem dpxCompletionTimeout_nothing {s : State} {p g : Nat}
    (h : (s.portOf p).reads.find? (fun r => r.tag = g && !r.quarantined) = none) :
    exec (.dpxCompletionTimeout p g) s = .next s := by
  rw [exec_dpxCompletionTimeout, execDpxCompletionTimeout, h]

theorem dpxQuarantineExpiry_frees {s : State} (hi : s.Inv) {p : Nat} (hp : p < 24) (g : Nat) :
    Gives (.dpxQuarantineExpiry p g) s fun t => t.portOf p = { s.portOf p with
      reads := (s.portOf p).reads.filter (fun r =>
        !(r.tag = g && r.quarantined && r.issuedAt + ms (2 * s.cfg Reg.dpxCfg 15 8) ≤ s.now)) } :=
  ⟨_, by rw [exec_dpxQuarantineExpiry, execDpxQuarantineExpiry], hi.portOf_setPort hp _⟩

end Sys2Proof.Machine
end

section
/-! PROOFS. The end of member commands (R181, R183, R186, R465 to R467; a completion of an unknown number log 18, upkeep commands
log 19), and the statement about drive ports and member commands. -/

namespace Sys2Proof.Machine

/-! ## MEMBER_COMMAND_COMPLETION (R181, R183, R186, R465, R466) -/

section
variable {s : State} {i : Nat} (h : s.findCmd i = none)
include h

theorem memberCommandCompletion_unknown
    (hq : ∀ p < 24, ∀ r ∈ (s.portOf p).reads, r.tag = i → r.quarantined = false) (res : MemberResult) (bs : List MemberBlock) :
    exec (.memberCommandCompletion i res bs) s = .next s := by
  rw [exec_memberCommandCompletion, execMemberCommandCompletion, h]
  dsimp only
  rw [List.find?_eq_none.mpr]
  intro p hp
  rw [natsFrom_eq_range', List.mem_range'_1] at hp
  simpa using hq p (by omega)

/-- A late completion is counted, whichever port holds the tag (R465). -/
theorem memberCommandCompletion_late (hi : s.Inv) {p : Nat} {r : DpxRead} (hp : p < 24) (hr : r ∈ (s.portOf p).reads)
    (ht : r.tag = i) (hq : r.quarantined = true) (res : MemberResult) (bs : List MemberBlock) :
    Gives (.memberCommandCompletion i res bs) s fun t => t.rge = s.rge ∧
      (t.reg Reg.dpxLateCpl).toNat = satAt 0xFFFFFFFF ((s.reg Reg.dpxLateCpl).toNat + 1) := by
  have hsome : ((natsFrom 0 24).find? (fun p => (s.portOf p).reads.any (fun r => r.tag = i && r.quarantined))).isSome = true := by
    rw [List.find?_isSome, natsFrom_eq_range']
    exact ⟨p, by simpa using hp, List.any_eq_true.mpr ⟨r, hr, by simp [ht, hq]⟩⟩
  obtain ⟨p', hp'⟩ := Option.isSome_iff_exists.mp hsome
  unfold Gives
  rw [exec_memberCommandCompletion, execMemberCommandCompletion, h]
  dsimp only
  rw [hp']
  exact ⟨_, rfl, rfl, State.toNat_reg_bump_dpx hi (by decide)⟩

theorem memberCommandTimeout_unknown : exec (.memberCommandTimeout i) s = .next s := by
  rw [exec_memberCommandTimeout, execMemberCommandTimeout, h]

theorem memberAbortTimeout_unknown : exec (.memberAbortTimeout i) s = .next s := by
  rw [exec_memberAbortTimeout, execMemberAbortTimeout, h]

theorem hedgeExpiry_unknown : exec (.hedgeExpiry i) s = .next s := by
  rw [exec_hedgeExpiry, execHedgeExpiry, h]

end

@[simp] theorem State.dropCmd_takesWrites (s : State) (i : Nat) (c : MemberCmd) : (s.dropCmd i).takesWrites c = s.takesWrites c :=
  rfl

section
variable {s : State} {i : Nat} {c : MemberCmd} (hc : s.findCmd i = some c)
include hc

theorem exec_memberCommandCompletion_success (bs : List MemberBlock) :
    exec (.memberCommandCompletion i .success bs) s = .next ((s.dropCmd i).cmdSucceeded c bs) := by
  rw [exec_memberCommandCompletion, execMemberCommandCompletion, hc]

theorem exec_memberCommandCompletion_readError (ho : c.op = .read) (d : Bool) (bs : List MemberBlock) :
    exec (.memberCommandCompletion i (.error d) bs) s = .next ((s.dropCmd i).readFailed c) := by
  rw [exec_memberCommandCompletion, execMemberCommandCompletion, hc]
  exact congrArg _ (if_pos ho)

theorem exec_memberCommandCompletion_writeError (ho : c.op ≠ .read) (d : Bool) (bs : List MemberBlock) :
    exec (.memberCommandCompletion i (.error d) bs) s = .next ((s.dropCmd i).writeFailed c d) := by
  rw [exec_memberCommandCompletion, execMemberCommandCompletion, hc]
  exact congrArg _ (if_neg ho)

omit hc in
/-- A read of one block brings that block (R186). -/
theorem State.cmdSucceeded_gather (t : State) {g n st pos row : Nat} (hp : c.purpose = .gather g n st pos) (hr : c.rows = [row])
    (bs : List MemberBlock) : t.cmdSucceeded c bs = t.gatherBlock g st row pos (some (bs.getD 0 badBlock)) := by
  rw [State.cmdSucceeded, hp]
  dsimp only
  rw [hr]
  rfl

omit hc in
theorem State.readFailed_gather (t : State) {g n st pos row : Nat} (hp : c.purpose = .gather g n st pos) (hr : c.rows = [row]) :
    t.readFailed c = t.gatherBlock g st row pos (some badBlock) := by
  rw [State.readFailed, hp]
  dsimp only
  rw [hr]
  rfl

/-- A member command that is issued again has a new number and one more try (R466). -/
def State.again (s : State) (c : MemberCmd) : MemberCmd :=
  { c with
    id := s.bay.nextCmd, tries := c.tries + 1, issuedAt := s.now
    deadline := some (s.now + ms (10 * s.cfg Reg.dpxIocfg 31 16)), abortEnd := none }

theorem memberCommandCompletion_again {bs : List MemberBlock} (ho : c.op ≠ .read) (hw : s.takesWrites c = true) (ht : c.tries < 3) :
    Gives (.memberCommandCompletion i (.error false) bs) s fun t => ∃ n : MemberCmd, n = s.again c ∧
      t.bay.cmds = s.bay.cmds.filter (fun c => c.id ≠ i) ++ [n] ∧ s.Sent t (.member n) ∧
      (s.Inv → (t.reg Reg.dpxIoretry).toNat = satAt 0xFFFFFFFF ((s.reg Reg.dpxIoretry).toNat + 1)) := by
  refine ⟨_, exec_memberCommandCompletion_writeError hc ho false bs, s.again c, rfl, ?_⟩
  unfold State.writeFailed
  rw [if_neg (by simp [hw]), if_pos (by simp [ht])]
  exact ⟨rfl, ⟨[_], rfl, List.mem_singleton.mpr rfl⟩, fun hi => State.toNat_reg_bump_dpx hi (by decide)⟩

omit hc in
/-- The third failure of an upkeep command, or its error with DNR, counts against the drive (R181, R466). -/
theorem State.writeFailed_upkeep {t : State} {d : Bool} (hw : t.takesWrites c = true) (hd : (!d && c.tries < 3) = false)
    (hp : c.purpose = .upkeep) : t.writeFailed c d = t.driveFailed c.bay := by
  rw [State.writeFailed, if_neg (by simp [hw]), if_neg (ne_true_of_eq_false hd), hp]

omit hc in
/-- That of a stripe write counts against the member, which has missed the write (R163, R181). -/
theorem State.writeFailed_stripe {t : State} {d : Bool} {n st pos seq : Nat} (hw : t.takesWrites c = true)
    (hd : (!d && c.tries < 3) = false) (hp : c.purpose = .stripe n st pos seq) :
    t.writeFailed c d = (t.stripeCmdDone c n st true).memberFailed n c.slot := by
  rw [State.writeFailed, if_neg (by simp [hw]), if_neg (ne_true_of_eq_false hd), hp]

theorem exec_memberCommandCompletion_unwritable {d : Bool} (ho : c.op ≠ .read) (hw : s.takesWrites c = false)
    (bs : List MemberBlock) : exec (.memberCommandCompletion i (.error d) bs) s = .next ((s.dropCmd i).cmdPortFailed c) := by
  rw [exec_memberCommandCompletion_writeError hc ho, State.writeFailed, if_pos (by simp [hw])]

/-! ## MEMBER_COMMAND_TIMEOUT, MEMBER_ABORT_TIMEOUT (R466) -/

/-- The drive is asked to abort the command, which stays outstanding for a second and serves nothing any more. -/
def State.aborting (s : State) (i : Nat) (c : MemberCmd) : State :=
  State.emit { s with bay := { s.bay with cmds := updWhere (fun x => x.id = i) (fun _ => { c with
    deadline := none, abortEnd := some (s.now + sec 1), purpose := .upkeep }) s.bay.cmds } } (.memberAbort i)

theorem memberCommandTimeout_early (hd : due c.deadline s.now = false) : exec (.memberCommandTimeout i) s = .next s := by
  rw [exec_memberCommandTimeout, execMemberCommandTimeout, hc]
  exact if_pos (by simp [hd])

theorem memberCommandTimeout_aborts (hd : due c.deadline s.now = true) : ∃ u : State, s.Sent u (.memberAbort i) ∧ u.rge = s.rge ∧
    u.bay.cmds = updWhere (fun x => x.id = i) (fun _ => { c with
      deadline := none, abortEnd := some (s.now + sec 1), purpose := .upkeep }) s.bay.cmds ∧
    exec (.memberCommandTimeout i) s = .next (if c.op = .read then u.readFailed c else u.writeFailed c false) := by
  refine ⟨s.aborting i c, ⟨[_], rfl, List.mem_singleton.mpr rfl⟩, rfl, rfl, ?_⟩
  rw [exec_memberCommandTimeout, execMemberCommandTimeout, hc]
  exact if_neg (by simp [hd])

theorem memberAbortTimeout_early (hd : due c.abortEnd s.now = false) : exec (.memberAbortTimeout i) s = .next s := by
  rw [exec_memberAbortTimeout, execMemberAbortTimeout, hc]
  exact if_neg (by simp [hd])

theorem memberAbortTimeout_contains (hd : due c.abortEnd s.now = true) :
    exec (.memberAbortTimeout i) s = .next ((s.dropCmd i).contain c.bay 4) := by
  rw [exec_memberAbortTimeout, execMemberAbortTimeout, hc]
  exact if_pos hd

/-! ## HEDGE_EXPIRY (R467) -/

/-- A read is noted as hedged. -/
def State.hedging (s : State) (i : Nat) : State :=
  { s with bay := { s.bay with cmds := updWhere (fun x => x.id = i) (fun x => { x with hedged := true }) s.bay.cmds } }

theorem hedgeExpiry_upkeep (hp : c.purpose = .upkeep) : exec (.hedgeExpiry i) s = .next s := by
  rw [exec_hedgeExpiry, execHedgeExpiry, hc]
  dsimp only
  rw [hp]

variable {g n st pos : Nat} {r : Ring} (hp : c.purpose = .gather g n st pos) (hr : s.findRing n = some r)
include hp hr

theorem hedgeExpiry_waits (h : s.cfg Reg.dpxIocfg 7 0 = 0 ∨ c.hedged = true ∨ s.now < c.issuedAt + ms (s.cfg Reg.dpxIocfg 7 0) ∨
    r.m ≤ r.levelOf st) : exec (.hedgeExpiry i) s = .next s := by
  rw [exec_hedgeExpiry, execHedgeExpiry, hc]
  dsimp only
  rw [hp]
  dsimp only
  rw [hr]
  exact if_pos (by simpa [or_assoc] using h)

theorem hedgeExpiry_hedges (hcfg : 0 < s.cfg Reg.dpxIocfg 7 0) (hh : c.hedged = false)
    (ht : c.issuedAt + ms (s.cfg Reg.dpxIocfg 7 0) ≤ s.now) (hl : r.levelOf st < r.m) : ∃ u : State, u.rge = s.rge ∧
      u.bay.cmds = updWhere (fun x => x.id = i) (fun x => { x with hedged := true }) s.bay.cmds ∧
      (s.Inv → (u.reg Reg.dpxHedged).toNat = satAt 0xFFFFFFFF ((s.reg Reg.dpxHedged).toNat + 1)) ∧
      exec (.hedgeExpiry i) s = .next (c.rows.foldl (fun t row => t.gatherBlock g st row pos none) u) := by
  refine ⟨(s.hedging i).bump Reg.dpxHedged, rfl, rfl, fun hi => State.toNat_reg_bump_dpx hi (by decide), ?_⟩
  rw [exec_hedgeExpiry, execHedgeExpiry, hc]
  dsimp only
  rw [hp]
  dsimp only
  rw [hr]
  exact if_neg (by simp [hcfg.ne', hh, Nat.not_lt.mpr ht, Nat.not_le.mpr hl])

end

/-! ## The statement -/

/-- Settles O34, each command by its own rules: the ports in the part above, the member commands here. -/
theorem drivePortsAndMemberCommands : Obligations.DrivePortsAndMemberCommands := by
  unfold Obligations.DrivePortsAndMemberCommands
  refine ⟨fun s p k hi hp => ⟨fun h => State.contain_contained h k, fun hist h hh => State.contain_contains hi hp h k hh⟩,
    fun s p hi hp => State.release_portOf hi hp,
    fun s p => ⟨fun h => surpriseLinkDown_contains h.1 h.2, surpriseLinkDown_lapses, drivePortFatalError_contains,
      drivePortFatalError_lapses, containmentHoldExpiry_releases, containmentHoldExpiry_lapses⟩,
    fun s w hi => dpcrelWrite_gives hi w, ?link, ?timeout,
    fun s p g r hr => ⟨dpxCompletionTimeout_early hr, fun ht => ⟨dpxCompletionTimeout_second hr ht, fun hi hp h2 =>
      dpxCompletionTimeout_again hr ht h2 hi hp⟩⟩,
    fun s p g => ⟨dpxCompletionTimeout_nothing, fun hi hp => dpxQuarantineExpiry_frees hi hp g⟩,
    fun s i res bs h => ⟨fun hq => memberCommandCompletion_unknown h hq res bs, fun p r hi hp hr ht hq =>
      memberCommandCompletion_late h hi hp hr ht hq res bs⟩,
    ?completion,
    fun s i h => ⟨memberCommandTimeout_unknown h, memberAbortTimeout_unknown h, hedgeExpiry_unknown h⟩,
    fun s i c hc => ⟨memberCommandTimeout_early hc, memberCommandTimeout_aborts hc, memberAbortTimeout_early hc,
      memberAbortTimeout_contains hc, fun g n st pos r hp hr => ⟨hedgeExpiry_waits hc hp hr, hedgeExpiry_hedges hc hp hr⟩,
      hedgeExpiry_upkeep hc⟩⟩
  case link =>
    intro s p v n
    refine ⟨fun h => driveLinkL0_lapses h v n, fun hi hp ht hc hr hf => ?_⟩
    have he := exec_driveLinkL0_trained ht hc hr hf v n
    refine ⟨fun hd => ⟨_, he, ?_⟩, fun hd => ⟨_, he, State.endDpRun_lcu (s := s.setPort p (s.linked v n)) hd⟩⟩
    rw [State.endDpRun_other (s := s.setPort p (s.linked v n)) hd]
    exact ⟨rfl, hi.portOf_setPort hp _⟩
  case timeout =>
    exact fun s p => ⟨linkTrainingTimeout_lapses, fun hi hp ht hd =>
      ⟨linkTrainingTimeout_retries ht hi hp hd, linkTrainingTimeout_fails ht hi hp hd⟩⟩
  case completion =>
    intro s i bs c hc
    have hok := exec_memberCommandCompletion_success hc bs
    have hlast : ∀ d : Bool, d = true ∨ 3 ≤ c.tries → (!d && c.tries < 3) = false := by
      rintro d (rfl | h)
      · rfl
      · simp [Nat.not_lt.mpr h]
    refine ⟨fun hp => ?_, fun n st pos seq hp => ?_, fun n st row pos seq hp => ?_, fun g n st pos row hp hr => ⟨?_, fun ho d => ?_⟩,
      fun d ho => ⟨fun hw => exec_memberCommandCompletion_unwritable hc ho hw bs, ?_, fun hw hd => ⟨fun hp => ?_,
        fun n st pos seq hp => ?_⟩⟩⟩
    · rw [hok, State.cmdSucceeded, hp]
    · rw [hok, State.cmdSucceeded, hp]
    · rw [hok, State.cmdSucceeded, hp]
    · rw [hok, State.cmdSucceeded_gather _ hp hr]
    · rw [exec_memberCommandCompletion_readError hc ho, State.readFailed_gather _ hp hr]
    · rintro hw rfl ht
      exact memberCommandCompletion_again hc ho hw ht
    · rw [exec_memberCommandCompletion_writeError hc ho, State.writeFailed_upkeep (by simp [hw]) (hlast d hd) hp]
    · rw [exec_memberCommandCompletion_writeError hc ho, State.writeFailed_stripe (by simp [hw]) (hlast d hd) hp]

end Sys2Proof.Machine
end

section
/-! PROOFS. What commands to members leave of bays and drive ports: the upkeep that follows a change of members, failed requests
and lost drives issue and drop commands and write superblocks, and touch nothing else of the unit (R139, R180, R466, R469). -/

namespace Sys2Proof.Machine

/-- Bays, ports and holder lines: the unit without its outstanding commands and what is known of the drives. -/
def State.rack (s : State) : BaysSt :=
  { s.bay with bays := s.bay.bays.map (fun b => { b with drive := none }), cmds := [], nextCmd := 0 }

theorem State.rack_congr {s t : State} (h : t.bay = s.bay) : t.rack = s.rack := by
  rw [State.rack, h, ← State.rack]

/-- Every part of the state but the bays. -/
def Units.offBay : Units :=
  { hce := true, rfu := true, rge := true, rfx := true, kvt := true, xbr := true, pwr := true, pmu := true, moved := true,
    out := true, free := true }

theorem Kept.rack {s t : State} (k : Kept .offBay s t) : t.rack = s.rack :=
  State.rack_congr (k.only.bay.resolve_left Bool.false_ne_true)

@[simp] theorem State.emit_rack (s : State) (e : Emission) : (s.emit e).rack = s.rack := rfl

@[simp] theorem State.bumpBy_rack (s : State) (a n : Nat) : (s.bumpBy a n).rack = s.rack := rfl

@[simp] theorem State.bump_rack (s : State) (a : Nat) : (s.bump a).rack = s.rack := rfl

@[simp] theorem State.updHce_rack (s : State) (f : HceSt → HceSt) : (s.updHce f).rack = s.rack := rfl

@[simp] theorem State.updRge_rack (s : State) (f : RgeSt → RgeSt) : (s.updRge f).rack = s.rack := rfl

@[simp] theorem State.updRing_rack (s : State) (n : Nat) (f : Ring → Ring) : (s.updRing n f).rack = s.rack := rfl

@[simp] theorem State.dropCmd_rack (s : State) (id : Nat) : (s.dropCmd id).rack = s.rack := rfl

@[simp] theorem State.dropDpRun_rack (s : State) (p : Nat) : (s.dropDpRun p).rack = s.rack := by
  unfold State.dropDpRun
  split <;> rfl

/-! ## Commands to members -/

@[simp] theorem State.issueMember_rack (s : State) (b r j : Nat) (op : MOp) (lba : Nat) (rows : List Nat) (data : List Block)
    (fua : Bool) (p : MPurpose) : (s.issueMember b r j op lba rows data fua p).rack = s.rack := by
  unfold State.issueMember State.issueWith
  dsimp only
  split
  · rw [State.rack, State.count_bay, State.count_bay]; rfl
  · rw [State.rack, State.count_bay, State.count_bay]; rfl
  · rfl

@[simp] theorem State.toSlot_rack (s : State) (r : Ring) (j : Nat) (op : MOp) (lba : Nat) (rows : List Nat) (data : List Block)
    (fua : Bool) (p : MPurpose) : (s.toSlot r j op lba rows data fua p).rack = s.rack := by
  unfold State.toSlot
  split
  · exact State.issueMember_rack ..
  · rfl

@[simp] theorem State.askRow_rack (s : State) (g : Nat) (n : RowNeed) : (s.askRow g n).1.rack = s.rack := by
  unfold State.askRow
  split
  · rfl
  · split
    · rfl
    · refine foldl_frame (fun t c => ?_) _ s
      split
      · exact State.toSlot_rack ..
      · rfl

@[simp] theorem State.askRows_rack (g : Nat) (l : List RowNeed) : ∀ s : State, (s.askRows g l).1.rack = s.rack := by
  induction l with
  | nil => exact fun _ => rfl
  | cons n l ih => exact fun s => (ih _).trans (s.askRow_rack g n)

@[simp] theorem State.startGather_rack (s : State) (o : GatherFor) (l : List RowNeed) : (s.startGather o l).rack = s.rack :=
  (State.askRows_rack _ _ _ :)

@[simp] theorem State.putBlock_rack (s : State) (r : Ring) (j st c row seq : Nat) (b : Block) :
    (s.putBlock r j st c row seq b).rack = s.rack := State.toSlot_rack ..

@[simp] theorem State.markMissed_rack (s : State) (r : Ring) (st c : Nat) : (s.markMissed r st c).rack = s.rack :=
  foldl_frame (fun _ _ => State.updRing_rack ..) _ s

@[simp] theorem State.putRow_rack (s : State) (r : Ring) (st row seq : Nat) (data : List Block) (l : List Nat) :
    (s.putRow r st row seq data l).rack = s.rack :=
  foldl_frame (fun t c => (foldl_frame (fun _ _ => State.putBlock_rack ..) _ _).trans (t.markMissed_rack r st c)) _ s

@[simp] theorem State.endTask_rack (s : State) (n seq : Nat) : (s.endTask n seq).rack = s.rack :=
  (Kept.endTask n seq (.refl s) rfl rfl rfl rfl rfl rfl).rack

theorem State.underRecord_rack {f : Nat → State → State} (hf : ∀ seq t, (f seq t).rack = t.rack) (s : State) (r : Ring)
    (kind st : Nat) : (s.underRecord r kind st f).rack = s.rack := by
  unfold State.underRecord
  dsimp only
  split
  · exact hf _ s
  · rw [State.endTask_rack, hf, (Kept.markStripe r st (.refl _) rfl rfl rfl rfl rfl rfl).rack]
    exact State.rack_congr (State.openIntent_bay ..)

/-! ## Stripe writes and gathers -/

theorem State.foldl_supersede_rack (l : List (Nat × Nat × Nat × Nat)) (s : State) :
    (l.foldl (fun t p => t.supersede p.1 p.2.1 p.2.2.1 1 p.2.2.2) s).rack = s.rack :=
  foldl_frame (g := State.rack) (fun t _ => (Kept.supersede _ _ _ _ _ (.refl t) rfl rfl rfl rfl rfl rfl).rack) l s

theorem State.laneWork_rack (s : State) (n priv : Nat) : (s.laneWork n priv).rack = s.rack :=
  (Kept.laneWork n priv (.refl s) rfl rfl rfl).rack

/-- The writes of a stripe write are commands to members; the rest of it concerns keys, the journal and the buffer (R162). -/
theorem State.issueStripe_rack (s : State) (r : Ring) (w : StripeWrite) : (s.issueStripe r w).rack = s.rack := by
  have hput : ∀ (b : Bool) (t u : State), u.rack = t.rack → (if b then t else u).rack = t.rack := by
    intro b t u h
    split
    · rfl
    · exact h
  unfold State.issueStripe
  extract_lets g parts writes dead seq s1 first s2 ids s3 s3b s4 s6
  have h2 : s2.rack = s1.rack := by
    refine foldl_frame (g := State.rack) (fun t c => ?_) _ s1
    refine hput _ _ _ ?_
    refine (State.markMissed_rack ..).trans (foldl_frame (g := State.rack) (fun u j => ?_) _ t)
    exact (hput _ _ _ (State.toSlot_rack ..)).trans (hput _ _ _ (State.toSlot_rack ..))
  have h3 : s3.rack = s2.rack := foldl_frame (g := State.rack) (fun t k => State.rack_congr (t.updKey k _ |>.autoRekey_bay k)) _ s2
  have h6 : s6.rack = s.rack := calc
    s6.rack = s3.rack := s3.laneWork_rack _ _
    _ = s1.rack := h3.trans h2
    _ = s.rack := (Kept.markStripe r w.stripe (.refl s) rfl rfl rfl rfl rfl rfl).rack
  split
  · rw [State.foldl_supersede_rack, State.foldl_supersede_rack, h6]
  · exact h6

theorem State.advanceStripe_rack (s : State) (n st : Nat) : (s.advanceStripe n st).rack = s.rack := by
  unfold State.advanceStripe
  split
  · dsimp only
    split_ifs
    · rfl
    · exact (Kept.abandonStripe _ (.refl s) rfl rfl rfl rfl rfl rfl rfl).rack
    · rfl
    · rfl
    · rw [State.issueStripe_rack]
      exact State.rack_congr (State.reserve_bay ..)
    · exact State.rack_congr (State.reserve_bay ..)
  · rfl

@[simp] theorem State.advanceAll_rack (s : State) : s.advanceAll.rack = s.rack :=
  foldl_frame (fun _ _ => State.advanceStripe_rack ..) _ s

theorem State.repairRow_rack (s : State) (r : Ring) (n : RowNeed) : (s.repairRow r n).rack = s.rack := by
  unfold State.repairRow
  extract_lets lost place bad data cs
  split_ifs
  · rfl
  · rfl
  · split
    · rfl
    · rw [State.bumpBy_rack]
      refine State.underRecord_rack (fun seq t => foldl_frame (fun u c => ?_) _ t) ..
      split
      · exact State.putBlock_rack ..
      · rfl
  · exact State.underRecord_rack (fun seq t => State.putRow_rack ..) ..

theorem State.gatherFaults_rack (s : State) (g : Gather) : (s.gatherFaults g).rack = s.rack := by
  refine foldl_frame (g := State.rack) (fun t n => ?_) _ s
  split
  · rfl
  · rw [State.repairRow_rack]
    split
    · exact (Kept.recordRow _ _ _ _ _ (.refl t) rfl rfl rfl rfl rfl rfl).rack
    · rfl

theorem State.placeWrite_rack (s : State) (t : Nat) : (s.placeWrite t).rack = s.rack := by
  unfold State.placeWrite
  split
  · rfl
  · split
    · rfl
    · extract_lets ws bs need
      split
      · rfl
      · split
        · split
          · rw [State.startGather_rack, (Kept.countSources _ _ _ (.refl s) rfl rfl rfl).rack]
          · rfl
        · refine (Kept.updTag _ _ (.refl _) rfl).rack.trans ((State.rack_congr (State.vsCount_bay ..)).trans
            ((State.rack_congr (State.hostEvent_bay ..)).trans ?_))
          have hput := fun u l => (State.rack_congr (State.mirSendAll_bay (State.wakeStacks u) l)).trans
            (Kept.wakeStacks (.refl u) rfl).rack
          split
          · exact (foldl_frame (g := State.rack) (fun t b => State.rack_congr (State.mirSend2_bay ..)) _ _).trans (hput _ _)
          · exact hput _ _

theorem State.handGather_rack (s : State) (g : Gather) : (s.handGather g).rack = s.rack := by
  have hf := s.gatherFaults_rack g
  have hserve : ∀ (p : Prop) [Decidable p] {f : State → Nat × Option Block → State} {l : List (Nat × Option Block)} {u : State},
      (∀ t e, (f t e).rack = t.rack) → u.rack = s.rack → (if p then l.foldl f u else u).rack = s.rack := by
    intro p _ f l u hfill hu
    split
    · exact (foldl_frame hfill l u).trans hu
    · exact hu
  unfold State.handGather
  extract_lets lost s1
  split
  · rw [State.advanceStripe_rack]
    exact hf
  · exact hf
  · split
    · exact hf
    · split
      · exact hf
      · split
        · split
          · split
            · exact (Kept.rereadDone _ _ _ (.refl _) rfl rfl rfl rfl rfl rfl rfl).rack.trans hf
            · exact (State.rack_congr (State.failTag_bay ..)).trans hf
          · rw [apply_ite State.rack, (Kept.rereadDone _ _ _ (.refl _) rfl rfl rfl rfl rfl rfl rfl).rack, ite_self]
            refine hserve _ (fun t e => ?_) ((Kept.releaseLocks _ (Kept.updTag _ _ (.refl _) rfl) rfl).rack.trans hf)
            split
            · rfl
            · split
              · exact (Kept.cacheInsert _ _ _ _ _ (.refl t) rfl).rack
              · rfl
        · exact (State.placeWrite_rack ..).trans ((Kept.updTag _ _ (.refl _) rfl).rack.trans hf)
  · split
    · exact (State.rack_congr (State.failGroup_bay ..)).trans hf
    · split
      · exact hf
      · split
        · exact hf
        · exact (State.rack_congr (State.groupReady_bay ..)).trans hf

@[simp] theorem State.gatherStep_rack (s : State) (g : Nat) : (s.gatherStep g).rack = s.rack := by
  unfold State.gatherStep
  split
  · rfl
  · split
    · exact State.handGather_rack ..
    · exact (State.askRows_rack _ _ _ :)

@[simp] theorem State.reask_rack (s : State) : s.reask.rack = s.rack := by
  rw [State.reask, State.advanceAll_rack]
  exact foldl_frame (fun _ _ => State.gatherStep_rack ..) _ s

@[simp] theorem State.gatherBlock_rack (s : State) (g st row pos : Nat) (b : Option MemberBlock) :
    (s.gatherBlock g st row pos b).rack = s.rack := State.gatherStep_rack ..

/-! ## Members that leave -/

theorem State.setBay_drive_rack (s : State) (b : Nat) (f : Option DriveInfo → Option DriveInfo) :
    (s.setBay b (fun x => { x with drive := f x.drive })).rack = s.rack := by
  rw [State.rack, State.rack, State.setBay]
  dsimp only
  rw [setAt_map, setAt_self]
  intro x hx
  rw [List.getElem?_map, Option.map_eq_some_iff] at hx
  obtain ⟨y, hy, rfl⟩ := hx
  rw [State.bayOf, List.getD_eq_getElem?_getD, hy]
  rfl

theorem State.writeSuperblocks_rack (s : State) (n : Nat) : (s.writeSuperblocks n).rack = s.rack := by
  unfold State.writeSuperblocks
  split
  · rfl
  · refine foldl_frame (fun t j => ?_) _ _
    dsimp only
    split
    · split
      · rw [State.setBay_drive_rack _ _ (Option.map _), State.toSlot_rack]
      · exact State.toSlot_rack ..
    · rfl

@[simp] theorem State.membersChanged_rack (s : State) (n : Nat) (d : Bool) : (s.membersChanged n d).rack = s.rack := by
  unfold State.membersChanged
  dsimp only
  have hw : ∀ t : State, t.recomputeCeil.endWork.rack = t.rack := by
    intro t
    unfold State.endWork
    split
    · exact State.rack_congr t.recomputeCeil_bay
    · exact State.rack_congr t.recomputeCeil_bay
  rw [State.reask_rack, hw]
  split
  · rw [(Kept.sendServiceAll n (.refl _) rfl rfl rfl rfl rfl rfl).rack, State.writeSuperblocks_rack]
    rfl
  · rfl

@[simp] theorem State.stripeCmdDone_rack (s : State) (c : MemberCmd) (n st : Nat) (b : Bool) :
    (s.stripeCmdDone c n st b).rack = s.rack := (Kept.stripeCmdDone c n st b (.refl s) rfl).rack

@[simp] theorem State.repairGone_rack (s : State) (c : MemberCmd) (n st seq : Nat) : (s.repairGone c n st seq).rack = s.rack :=
  (Kept.repairGone c n st seq (.refl s) rfl rfl rfl rfl rfl rfl).rack

@[simp] theorem State.endHunt_rack (s : State) (n : Nat) : (s.endHunt n).rack = s.rack :=
  (Kept.endHunt n (.refl s) rfl rfl rfl rfl rfl rfl).rack

theorem State.releaseCmd_rack (s : State) (c : MemberCmd) : (s.releaseCmd c).rack = s.rack := by
  unfold State.releaseCmd
  split
  · simp
  · simp
  · split
    · rfl
    · simp
  · rfl

theorem State.memberFailed_rack (s : State) (n j : Nat) : (s.memberFailed n j).rack = s.rack := by
  have h : (s.releaseSlot n j).rack = s.rack := foldl_frame State.releaseCmd_rack _ s
  unfold State.memberFailed
  dsimp only
  split
  · exact h
  · simpa using h

theorem State.memberLeaves_rack (s : State) (n j : Nat) : (s.memberLeaves n j).rack = s.rack := by
  unfold State.memberLeaves
  split
  · rfl
  · split
    · simp
    · simp
    · exact State.memberFailed_rack ..
    · rfl

/-- A drive that is lost changes members, and nothing of its bay or port (R180, R182). -/
@[simp] theorem State.driveLost_rack (s : State) (b : Nat) : (s.driveLost b).rack = s.rack := by
  refine foldl_frame (g := State.rack) (fun t e => ?_) _ s
  split
  · exact State.memberLeaves_rack ..
  · simp

theorem State.cmdPortFailed_rack (s : State) (c : MemberCmd) : (s.cmdPortFailed c).rack = s.rack := by
  unfold State.cmdPortFailed
  dsimp only
  split
  · exact foldl_frame (fun _ _ => State.gatherBlock_rack ..) _ _
  · simp
  · simp
  · split
    · rfl
    · simp
  · rfl
  · rfl

@[simp] theorem State.failPort_rack (s : State) (p : Nat) : (s.failPort p).rack = s.rack :=
  foldl_frame State.cmdPortFailed_rack _ s

end Sys2Proof.Machine
end

section
/-! PROOFS. Bays: what a write, a gate and a loss of power change of a bay (R471, R474, R478). -/

namespace Sys2Proof.Machine

/-! ## Bays -/

theorem Config.bays_le (p : Part) : Config.bays p ≤ 24 := by
  cases p <;> decide

@[simp] theorem State.emit_bayOf (s : State) (e : Emission) (b : Nat) : (s.emit e).bayOf b = s.bayOf b := rfl

@[simp] theorem State.setPort_bayOf (s : State) (p : Nat) (f : DrivePort → DrivePort) (b : Nat) :
    (s.setPort p f).bayOf b = s.bayOf b := rfl

@[simp] theorem State.length_bays_setBay (s : State) (b : Nat) (f : Bay → Bay) :
    (s.setBay b f).bay.bays.length = s.bay.bays.length := length_setAt ..

theorem State.bayOf_setBay_ne {b i : Nat} (h : i ≠ b) (s : State) (f : Bay → Bay) : (s.setBay b f).bayOf i = s.bayOf i := by
  rcases Nat.lt_or_ge b s.bay.bays.length with hb | hb
  · exact (getD_setAt _ _ _ _ _ hb).trans (if_neg h)
  · exact congrArg (fun l => l.getD i {}) (setAt_of_le _ _ _ hb)

/-- Every bay of a state in form can be set. -/
theorem State.Inv.bayOf_setBay {s : State} (hi : s.Inv) {b : Nat} (hb : b < 24) (f : Bay → Bay) :
    (s.setBay b f).bayOf b = f (s.bayOf b) :=
  State.bayOf_setBay (by rw [hi.counts.bays]; exact hb)

theorem State.bayOf_congr {s t : State} (h : t.bay = s.bay) (b : Nat) : t.bayOf b = s.bayOf b := by
  rw [State.bayOf, h, ← State.bayOf]

/-- Where the racks agree, the bays agree but for what is known of their drives. -/
theorem State.bayOf_of_rack {s t : State} (h : t.rack = s.rack) (b : Nat) : ∃ d, t.bayOf b = { s.bayOf b with drive := d } := by
  have hrow : ∀ u : State, u.rack.bays.getD b {} = { u.bayOf b with drive := none } := fun u =>
    List.getD_map u.bay.bays ({} : Bay) (fun x : Bay => ({ x with drive := none } : Bay))
  have he : ({ t.bayOf b with drive := none } : Bay) = { s.bayOf b with drive := none } := by rw [← hrow, ← hrow, h]
  exact ⟨(t.bayOf b).drive, congrArg (fun x : Bay => { x with drive := (t.bayOf b).drive }) he⟩

theorem State.length_bays_of_rack {s t : State} (h : t.rack = s.rack) : t.bay.bays.length = s.bay.bays.length := by
  have hl := congrArg (fun x : BaysSt => x.bays.length) h
  simpa [State.rack] using hl

/-! ## Gates and power (R471, R474, R478) -/

/-- A gate is a matter of its bay. -/
theorem State.gateTo_bay (s : State) (b : Nat) (on : Bool) : (s.gateTo b on).bay =
    (s.setBay b (fun x => { x with gate := on && s.bay.holder, pwrdis := !on && s.bay.holder })).bay := by
  unfold State.gateTo
  dsimp only
  split <;> rfl

theorem State.bayOf_gateTo {s : State} {b : Nat} (h : b < s.bay.bays.length) (on : Bool) :
    (s.gateTo b on).bayOf b = { s.bayOf b with gate := on && s.bay.holder, pwrdis := !on && s.bay.holder } :=
  (State.bayOf_congr (s.gateTo_bay b on) b).trans (State.bayOf_setBay h)

theorem State.bayOf_gateTo_ne {b i : Nat} (h : i ≠ b) (s : State) (on : Bool) : (s.gateTo b on).bayOf i = s.bayOf i :=
  (State.bayOf_congr (s.gateTo_bay b on) i).trans (State.bayOf_setBay_ne h s _)

@[simp] theorem State.length_bays_gateTo (s : State) (b : Nat) (on : Bool) :
    (s.gateTo b on).bay.bays.length = s.bay.bays.length := by
  rw [State.gateTo_bay, State.length_bays_setBay]

theorem State.gateTo_sent {s : State} (h : s.bay.holder = true) (b : Nat) (on : Bool) :
    s.Sent (s.gateTo b on) (.pin (.pwrdis b) (!on)) ∧ s.Sent (s.gateTo b on) (.pin (.gate b) on) := by
  unfold State.gateTo
  rw [if_pos h]
  exact ⟨⟨_, rfl, by simp⟩, ⟨_, rfl, by simp⟩⟩

/-- A link that goes down changes its port, and the members, which are none of the bay's. -/
theorem State.linkOff_rack (s : State) (p : Nat) (b : Bool) : ∃ f, (s.linkOff p b).rack = (s.setPort p f).rack := by
  refine ⟨fun q => { q with train := .down, speed := 0, width := 0, trainEnd := none, perst := true, reads := [] }, ?_⟩
  unfold State.linkOff
  dsimp only
  rw [apply_ite State.rack, State.driveLost_rack, ite_self, State.failPort_rack, State.dropDpRun_rack, State.emit_rack]

/-- A bay without power, in the state given (R474, R478). -/
theorem State.bayOf_powerOff {s : State} {b : Nat} (h : b < s.bay.bays.length) (st : BaySt) : ∃ d,
    (s.powerOff b st).bayOf b = { s.bayOf b with
      gate := false, pwrdis := s.bay.holder, st := st, pg := false, rampEnd := none, perstAt := none, retryAt := none
      cycleAt := none, drive := d } := by
  obtain ⟨f, hf⟩ := (s.gateTo b false).linkOff_rack b false
  obtain ⟨d, hd⟩ := State.bayOf_of_rack hf b
  have hl : ((s.gateTo b false).linkOff b false).bay.bays.length = s.bay.bays.length := by
    rw [State.length_bays_of_rack hf]
    exact s.length_bays_gateTo b false
  refine ⟨d, ?_⟩
  rw [State.powerOff, State.bayOf_setBay (by rw [hl]; exact h), hd, State.setPort_bayOf, State.bayOf_gateTo h]
  simp

theorem State.bayOf_powerOff_ne {b i : Nat} (h : i ≠ b) (s : State) (st : BaySt) :
    ∃ d, (s.powerOff b st).bayOf i = { s.bayOf i with drive := d } := by
  obtain ⟨f, hf⟩ := (s.gateTo b false).linkOff_rack b false
  obtain ⟨d, hd⟩ := State.bayOf_of_rack hf i
  refine ⟨d, ?_⟩
  rw [State.powerOff, State.bayOf_setBay_ne h, hd, State.setPort_bayOf, State.bayOf_gateTo_ne h]

theorem State.length_bays_powerOff (s : State) (b : Nat) (st : BaySt) : (s.powerOff b st).bay.bays.length = s.bay.bays.length := by
  obtain ⟨f, hf⟩ := (s.gateTo b false).linkOff_rack b false
  rw [State.powerOff, State.length_bays_setBay, State.length_bays_of_rack hf]
  exact s.length_bays_gateTo b false

theorem State.powerOff_inputFault (s : State) (b : Nat) (st : BaySt) : (s.powerOff b st).bay.inputFault = s.bay.inputFault := by
  obtain ⟨f, hf⟩ := (s.gateTo b false).linkOff_rack b false
  have hg : (s.gateTo b false).bay.inputFault = s.bay.inputFault := by rw [State.gateTo_bay, State.setBay_bay]
  rw [State.powerOff, State.setBay_bay]
  exact (congrArg (fun x : BaysSt => x.inputFault) hf).trans hg

end Sys2Proof.Machine
end

section
/-! PROOFS. Bays: the insertion sequence and removal (R462, R470, R474 to R478, R483, R484). -/

namespace Sys2Proof.Machine

/-! ## Insertion and removal (R470, R474, R477, R484) -/

theorem mem_natsFrom_zero {i n : Nat} : i ∈ natsFrom 0 n ↔ i < n := by
  rw [natsFrom_eq_range', List.mem_range'_1]
  omega

theorem State.Inv.bay_lt {s : State} (hi : s.Inv) {b : Nat} (hb : b < 24) : b < s.bay.bays.length :=
  hi.counts.bays ▸ hb

theorem presenceAssert_absent {s : State} {b : Nat} (h : Config.bays s.part ≤ b) : exec (.presenceAssert b) s = .next s := by
  rw [exec_presenceAssert, execPresenceAssert]
  exact if_pos h

theorem presenceAssert_seats {s : State} (hi : s.Inv) {b : Nat} (hb : b < Config.bays s.part) :
    Gives (.presenceAssert b) s fun t => t.rge = s.rge ∧ t.bayOf b =
      if (s.bayOf b).st = .empty then { s.bayOf b with seated := true, st := .debounce, debounceEnd := some (s.now + ms 250) }
      else { s.bayOf b with seated := true } := by
  unfold Gives
  rw [exec_presenceAssert, execPresenceAssert, if_neg (Nat.not_le.mpr hb)]
  exact ⟨_, rfl, rfl, hi.bayOf_setBay (Nat.lt_of_lt_of_le hb (Config.bays_le _)) _⟩

section
variable {s : State} {b : Nat}

theorem debounceComplete_lapses (h : (s.bayOf b).st ≠ .debounce ∨ (s.bayOf b).seated = false ∨
    due (s.bayOf b).debounceEnd s.now = false) : exec (.debounceComplete b) s = .next s := by
  rw [exec_debounceComplete, execDebounceComplete]
  exact if_neg (by rcases h with h | h | h <;> simp [h])

/-- Bays and ports of a state in form can be set one after the other. -/
theorem State.Inv.bay_port_set (hi : s.Inv) (hb : b < 24) (f : Bay → Bay) (g : DrivePort → DrivePort) :
    ((s.setBay b f).setPort b g).bayOf b = f (s.bayOf b) ∧ ((s.setBay b f).setPort b g).portOf b = g (s.portOf b) :=
  ⟨hi.bayOf_setBay hb f, State.portOf_setPort (s := s.setBay b f) (hi.counts.drivePorts ▸ hb)⟩

theorem debounceComplete_inserts (hi : s.Inv) (hb : b < 24) (hst : (s.bayOf b).st = .debounce) (hseat : (s.bayOf b).seated = true)
    (hd : due (s.bayOf b).debounceEnd s.now = true) :
    Gives (.debounceComplete b) s fun t => t.bayOf b = { s.bayOf b with
        present := true, st := if s.bay.inputFault = true ∧ s.bay.holder = true then .inhibit else .wait, debounceEnd := none
        fault := 0, retryLeft := s.retryN b, inserts := satAt 0xFFFF ((s.bayOf b).inserts + 1), forced := false } ∧
      t.portOf b = { s.portOf b with contained := false, stuck := false, holdEnd := none, history := [] } := by
  unfold Gives
  rw [exec_debounceComplete, execDebounceComplete]
  dsimp only
  rw [if_pos (by simp [hst, hseat, hd])]
  simp only [Bool.and_eq_true]
  exact ⟨_, rfl, hi.bay_port_set hb _ _⟩

theorem presenceLoss_empty (hi : s.Inv) (hb : b < 24) (h : (s.bayOf b).st = .empty) :
    Gives (.presenceLoss b) s fun t => t.bayOf b = { s.bayOf b with seated := false } ∧ t.rge = s.rge := by
  unfold Gives
  rw [exec_presenceLoss, execPresenceLoss]
  dsimp only
  rw [if_pos h]
  exact ⟨_, rfl, hi.bayOf_setBay hb _, rfl⟩

theorem presenceLoss_debounce (hi : s.Inv) (hb : b < 24) (h : (s.bayOf b).st = .debounce) (hp : (s.bayOf b).present = false) :
    Gives (.presenceLoss b) s fun t =>
      t.bayOf b = { s.bayOf b with seated := false, st := .empty, debounceEnd := none } ∧ t.rge = s.rge := by
  unfold Gives
  rw [exec_presenceLoss, execPresenceLoss]
  dsimp only
  rw [if_neg (by simp [h]), if_pos (by simp [h, hp])]
  exact ⟨_, rfl, hi.bayOf_setBay hb _, rfl⟩

/-- Containment leaves as many bays as there were. -/
theorem State.Inv.contain_bay_lt (hi : s.Inv) (hb : b < 24) (p k : Nat) : b < (s.contain p k).bay.bays.length := by
  rcases hc : (s.portOf p).contained with _ | _
  · rw [State.contain_eq hc k rfl, State.length_bays_of_rack (State.driveLost_rack ..), State.length_bays_of_rack (State.failPort_rack ..),
      State.length_bays_of_rack (State.dropDpRun_rack ..)]
    exact hi.bay_lt hb
  · rw [State.contain_contained hc]
    exact hi.bay_lt hb

/-- A bay whose drive is pulled is EMPTY, whatever its port does (R477). -/
theorem presenceLoss_empties (hi : s.Inv) (hb : b < 24) (he : (s.bayOf b).st ≠ .empty)
    (hd : (s.bayOf b).st ≠ .debounce ∨ (s.bayOf b).present = true) : Gives (.presenceLoss b) s fun t =>
      (t.bayOf b).st = .empty ∧ (t.bayOf b).seated = false ∧ (t.bayOf b).present = false ∧ (t.bayOf b).drive = none ∧
      (t.bayOf b).pg = false ∧ (t.bayOf b).debounceEnd = none ∧ (t.bayOf b).forced = false := by
  unfold Gives
  rw [exec_presenceLoss, execPresenceLoss]
  dsimp only
  rw [if_neg he, if_neg (by rcases hd with h | h <;> simp [h])]
  refine ⟨_, rfl, ?_⟩
  have hlt := hi.contain_bay_lt hb b 2
  obtain ⟨d, hd⟩ := State.bayOf_powerOff (s := (s.contain b 2).setPort b (fun p => { p with cause := 2, holdEnd := none }))
    hlt .empty
  rw [State.bayOf_setBay (by rw [State.length_bays_powerOff]; exact hlt), hd]
  exact ⟨rfl, rfl, rfl, rfl, rfl, rfl, rfl⟩

/-! ## From the ramp to READY (R462, R474, R476, R478, R483) -/

theorem rampStart_lapses (h : s.bay.holder = false ∨ (s.bayOf b).st ≠ .wait ∨ s.bay.inputFault = true ∨
    s.cfg Reg.bayCfg 23 20 ≤ s.ramping ∨ (∃ i < b, (s.bayOf i).st = .wait)) : exec (.rampStart b) s = .next s := by
  rw [exec_rampStart, execRampStart]
  refine if_pos ?_
  rcases h with h | h | h | h | ⟨i, hi, h⟩
  · simp [h]
  · simp [h]
  · simp [h]
  · simp [h]
  · have hany : (natsFrom 0 b).any (fun i => (s.bayOf i).st = .wait) = true :=
      List.any_eq_true.mpr ⟨i, mem_natsFrom_zero.mpr hi, decide_eq_true h⟩
    simp [hany]

/-- The bay whose turn it is to ramp (R474 steps 2 to 4, R476). -/
structure State.RampsNext (s : State) (b : Nat) : Prop where
  holder : s.bay.holder = true
  waits : (s.bayOf b).st = .wait
  input : s.bay.inputFault = false
  stagger : s.ramping < s.cfg Reg.bayCfg 23 20
  lowest : ∀ i < b, (s.bayOf i).st ≠ .wait

theorem exec_rampStart_next (h : s.RampsNext b) : exec (.rampStart b) s =
    if s.cfgBit (Reg.bayBcfg + 0x10 * b) 10 = false ∧ (s.bayOf b).forced = false then .next (s.powerOff b .off)
    else .next ((s.gateTo b true).setBay b (fun x => { x with
      st := .ramping, rampEnd := some (s.now + ms (s.cfg (Reg.bayBcfg + 0x10 * b) 7 0 + 40)) })) := by
  obtain ⟨hh, hw, hin, hst, hlow⟩ := h
  have hany : (natsFrom 0 b).any (fun i => (s.bayOf i).st = .wait) = false :=
    List.any_eq_false.mpr fun i hi => by simpa using hlow i (mem_natsFrom_zero.mp hi)
  rw [exec_rampStart, execRampStart, if_neg (by simp [hh, hw, hin, hst, hany])]
  simp only [Bool.and_eq_true, Bool.not_eq_true']

theorem rampStart_off (h : s.RampsNext b) (hi : s.Inv) (hb : b < 24) (hauto : s.cfgBit (Reg.bayBcfg + 0x10 * b) 10 = false)
    (hf : (s.bayOf b).forced = false) : Gives (.rampStart b) s fun t => (t.bayOf b).st = .off ∧ (t.bayOf b).pg = false := by
  unfold Gives
  rw [exec_rampStart_next h, if_pos ⟨hauto, hf⟩]
  obtain ⟨d, hd⟩ := State.bayOf_powerOff (hi.bay_lt hb) .off
  exact ⟨_, rfl, by rw [hd], by rw [hd]⟩

theorem rampStart_ramps (h : s.RampsNext b) (hi : s.Inv) (hb : b < 24)
    (hon : s.cfgBit (Reg.bayBcfg + 0x10 * b) 10 = true ∨ (s.bayOf b).forced = true) : Gives (.rampStart b) s fun t =>
      t.bayOf b = { s.bayOf b with
        gate := true, pwrdis := false, st := .ramping
        rampEnd := some (s.now + ms (s.cfg (Reg.bayBcfg + 0x10 * b) 7 0 + 40)) } ∧
      s.Sent t (.pin (.pwrdis b) false) ∧ s.Sent t (.pin (.gate b) true) := by
  unfold Gives
  rw [exec_rampStart_next h, if_neg (by rcases hon with h | h <;> simp [h])]
  obtain ⟨hp, hg⟩ := State.gateTo_sent h.holder b true
  refine ⟨_, rfl, ?_, hp.later (List.suffix_refl _), hg.later (List.suffix_refl _)⟩
  rw [State.bayOf_setBay (by rw [State.length_bays_gateTo]; exact hi.bay_lt hb), State.bayOf_gateTo (hi.bay_lt hb), h.holder]
  rfl

theorem powerGood_lapses (hr : (s.bayOf b).st ≠ .ramping)
    (h : s.bay.holder = true ∨ (s.bayOf b).present = false ∨ (s.bayOf b).st ≠ .wait) : exec (.powerGood b) s = .next s := by
  rw [exec_powerGood, execPowerGood]
  exact if_neg (by rcases h with h | h | h <;> simp [h, hr])

theorem powerGood_powers (hi : s.Inv) (hb : b < 24)
    (h : (s.bayOf b).st = .ramping ∨ (s.bay.holder = false ∧ (s.bayOf b).present = true ∧ (s.bayOf b).st = .wait)) :
    Gives (.powerGood b) s fun t => t.rge = s.rge ∧
      t.bayOf b = { s.bayOf b with st := .powered, pg := true, rampEnd := none, perstAt := some (s.now + ms 100) } := by
  unfold Gives
  rw [exec_powerGood, execPowerGood]
  dsimp only
  rw [if_pos (by rcases h with h | ⟨hh, hp, hw⟩
                 · simp [h]
                 · simp [hh, hp, hw])]
  exact ⟨_, rfl, rfl, hi.bayOf_setBay hb _⟩

theorem perstDelayExpiry_lapses (h : ((s.bayOf b).st ≠ .powered ∧ (s.bayOf b).st ≠ .ready) ∨ due (s.bayOf b).perstAt s.now = false ∨
    s.tk.fenced = true) : exec (.perstDelayExpiry b) s = .next s := by
  rw [exec_perstDelayExpiry, execPerstDelayExpiry]
  exact if_neg (by rcases h with ⟨hp, hr⟩ | h | h <;> simp [*])

theorem perstDelayExpiry_trains (hi : s.Inv) (hb : b < 24) (hst : (s.bayOf b).st = .powered ∨ (s.bayOf b).st = .ready)
    (hd : due (s.bayOf b).perstAt s.now = true) (hf : s.tk.fenced = false) :
    Gives (.perstDelayExpiry b) s fun t => s.Sent t (.pin (.perst b) true) ∧
      t.bayOf b = { s.bayOf b with perstAt := none } ∧ t.portOf b = if (s.portOf b).contained = true
        then { s.portOf b with perst := false }
        else { s.portOf b with
          perst := false, train := .training, attempts := 1, trainEnd := some (s.now + ms 250), speed := 0, width := 0 } := by
  unfold Gives
  rw [exec_perstDelayExpiry, execPerstDelayExpiry]
  dsimp only
  rw [if_pos (by rcases hst with h | h <;> simp [h, hd, hf])]
  refine ⟨_, rfl, ?_⟩
  obtain ⟨hbay, hport⟩ := hi.bay_port_set hb (fun x => { x with perstAt := none }) (fun p => { p with perst := false })
  split
  · exact ⟨.emit _ _, hbay, hport⟩
  · refine ⟨.emit _ _, hbay, ?_⟩
    rw [State.train, State.portOf_setPort, State.emit_portOf, hport]
    · rfl
    · exact lt_of_lt_of_eq hb (hi.counts.drivePorts.symm.trans (length_setAt ..).symm)

theorem bayReady_lapses (h : (s.bayOf b).st ≠ .powered ∨ (s.bayOf b).drive = none ∨ (s.portOf b).train ≠ .l0) :
    exec (.bayReady b) s = .next s := by
  rw [exec_bayReady, execBayReady]
  exact if_neg (by rcases h with h | h | h <;> simp [h])

theorem bayReady_readies (hi : s.Inv) (hb : b < 24) (hst : (s.bayOf b).st = .powered) (hd : (s.bayOf b).drive.isSome = true)
    (ht : (s.portOf b).train = .l0) :
    Gives (.bayReady b) s fun t => t.bayOf b = { s.bayOf b with st := .ready, retryLeft := s.retryN b } ∧
      t.portOf b = { s.portOf b with reads := (s.portOf b).reads.filter (fun r => r.quarantined) } := by
  unfold Gives
  rw [exec_bayReady, execBayReady]
  dsimp only
  rw [if_pos (by simp [hst, hd, ht])]
  exact ⟨_, rfl, hi.bay_port_set hb _ _⟩

end

end Sys2Proof.Machine
end

section
/-! PROOFS. Bays: faults and retries, the input of the midplane and the holder (R471, R472, R478 to R483). An EMPTY bay stays EMPTY
at an input fault (log 28). -/

namespace Sys2Proof.Machine

section
variable {s : State} {b : Nat}

/-! ## Faults and retries (R478 to R483) -/

/-- The units that a bay without power may reach: its drive is lost to its rings. -/
def Units.ofBay : Units :=
  { hce := true, rfu := true, rge := true, rfx := true, kvt := true, bay := true, xbr := true, pwr := true, lcu := true, pmu := true
    moved := true, out := true, free := true }

theorem State.powerOff_kept (s : State) (b : Nat) (st : BaySt) : Kept .ofBay s (s.powerOff b st) :=
  Kept.powerOff b st (.refl s) rfl rfl rfl rfl rfl rfl rfl rfl rfl rfl rfl rfl rfl

/-- A holder that takes power from a bay says so on both its lines (R471). -/
theorem State.powerOff_sent (h : s.bay.holder = true) (b : Nat) (st : BaySt) :
    s.Sent (s.powerOff b st) (.pin (.pwrdis b) true) ∧ s.Sent (s.powerOff b st) (.pin (.gate b) false) := by
  have hout : (s.gateTo b false).out <:+ (s.powerOff b st).out :=
    (Kept.linkOff (uu := .ofBay) b false (.refl (s.gateTo b false)) rfl rfl rfl rfl rfl rfl rfl rfl rfl rfl rfl rfl rfl).out
  obtain ⟨hp, hg⟩ := State.gateTo_sent h b false
  exact ⟨hp.later hout, hg.later hout⟩

/-- A fault may be retried by itself (R483). -/
def State.retries (s : State) (b : Nat) : Bool := s.cfgBit (Reg.bayBcfg + 0x10 * b) 11 && (s.bayOf b).retryLeft ≠ 0

theorem State.retries_eq_bne (s : State) (b : Nat) :
    s.retries b = (s.cfgBit (Reg.bayBcfg + 0x10 * b) 11 && (s.bayOf b).retryLeft != 0) := by
  rw [State.retries, Bool.eq_iff_iff]
  simp

theorem State.bayFault_follower (h : s.bay.holder = false) (b k : Nat) : s.bayFault b k = s.powerOff b .wait :=
  if_pos (by rw [h]; rfl)

theorem State.bayFault_holder (h : s.bay.holder = true) (b k : Nat) : s.bayFault b k =
    (s.powerOff b (if s.retries b = true then .retryWait else .fault)).setBay b (fun y => { y with
      fault := k, faults := satAt 0xFFFF (y.faults + 1)
      retryAt := if s.retries b = true then some (s.now + sec 1) else none }) := by
  exact if_neg (by rw [h]; decide)

theorem bayFault_follows {e : Instr} {k : Nat} (he : exec e s = .next (s.bayFault b k)) (hi : s.Inv) (hb : b < 24)
    (h : s.bay.holder = false) : Gives e s fun t => (t.bayOf b).st = .wait ∧ (t.bayOf b).pg = false := by
  obtain ⟨d, hd⟩ := State.bayOf_powerOff (hi.bay_lt hb) .wait
  rw [State.bayFault_follower h] at he
  exact ⟨_, he, by rw [hd], by rw [hd]⟩

/-- The holder takes power from the bay and latches the fault (R482, R483). -/
theorem State.bayOf_bayFault (hb : b < s.bay.bays.length) (h : s.bay.holder = true) (k : Nat) : ∃ d,
    (s.bayFault b k).bayOf b = { s.bayOf b with
      gate := false, pwrdis := true, st := if s.retries b = true then .retryWait else .fault, pg := false, rampEnd := none
      perstAt := none, cycleAt := none, drive := d, fault := k, faults := satAt 0xFFFF ((s.bayOf b).faults + 1)
      retryAt := if s.retries b = true then some (s.now + sec 1) else none } := by
  obtain ⟨d, hd⟩ := State.bayOf_powerOff hb (if s.retries b = true then .retryWait else .fault)
  refine ⟨d, ?_⟩
  rw [State.bayFault_holder h, State.bayOf_setBay (by rw [State.length_bays_powerOff]; exact hb), hd, h]

theorem State.bayFault_sent (h : s.bay.holder = true) (b k : Nat) :
    s.Sent (s.bayFault b k) (.pin (.pwrdis b) true) ∧ s.Sent (s.bayFault b k) (.pin (.gate b) false) := by
  obtain ⟨hp, hg⟩ := State.powerOff_sent h b (if s.retries b = true then .retryWait else .fault)
  rw [State.bayFault_holder h]
  exact ⟨hp.later (List.suffix_refl _), hg.later (List.suffix_refl _)⟩

theorem exec_pgtimeout_faults (hst : (s.bayOf b).st = .ramping) (hd : due (s.bayOf b).rampEnd s.now = true) :
    exec (.pgtimeout b) s = .next (s.bayFault b 3) := by
  rw [exec_pgtimeout, execPgtimeout]
  exact if_pos (by simp [hst, hd])

theorem pgtimeout_lapses (h : (s.bayOf b).st ≠ .ramping ∨ due (s.bayOf b).rampEnd s.now = false) :
    exec (.pgtimeout b) s = .next s := by
  rw [exec_pgtimeout, execPgtimeout]
  exact if_neg (by rcases h with h | h <;> simp [h])

theorem exec_undervolt_faults (h : (s.bayOf b).st = .powered ∨ (s.bayOf b).st = .ready) :
    exec (.undervolt b) s = .next (s.bayFault b 4) := by
  rw [exec_undervolt, execUndervolt]
  exact if_pos (by rcases h with h | h <;> simp [h])

theorem undervolt_lapses (hp : (s.bayOf b).st ≠ .powered) (hr : (s.bayOf b).st ≠ .ready) :
    exec (.undervolt b) s = .next s := by
  rw [exec_undervolt, execUndervolt]
  exact if_neg (by simp [hp, hr])

theorem bayTrips_lapse (h : (s.bayOf b).live = false) :
    exec (.overcurrent b) s = .next s ∧ exec (.fasttrip b) s = .next s ∧ exec (.undervolt b) s = .next s := by
  have hst := h
  simp only [Bay.live, Bool.or_eq_false_iff, decide_eq_false_iff_not] at hst
  obtain ⟨⟨-, hp⟩, hr⟩ := hst
  refine ⟨?_, ?_, undervolt_lapses hp hr⟩
  · rw [exec_overcurrent, execOvercurrent, if_neg (by simp [h])]
  · rw [exec_fasttrip, execFasttrip, if_neg (by simp [h])]

/-- Every fault of a bay is one of four, each with its code (R478 to R481). -/
theorem exec_bay_faults {e : Instr} {k : Nat}
    (h : (e = .pgtimeout b ∧ k = 3 ∧ (s.bayOf b).st = .ramping ∧ due (s.bayOf b).rampEnd s.now = true) ∨
      (e = .overcurrent b ∧ k = 1 ∧ (s.bayOf b).live = true) ∨ (e = .fasttrip b ∧ k = 2 ∧ (s.bayOf b).live = true) ∨
      (e = .undervolt b ∧ k = 4 ∧ ((s.bayOf b).st = .powered ∨ (s.bayOf b).st = .ready))) :
    exec e s = .next (s.bayFault b k) := by
  rcases h with ⟨rfl, rfl, hst, hd⟩ | ⟨rfl, rfl, hl⟩ | ⟨rfl, rfl, hl⟩ | ⟨rfl, rfl, hst⟩
  · exact exec_pgtimeout_faults hst hd
  · rw [exec_overcurrent, execOvercurrent, if_pos hl]
  · rw [exec_fasttrip, execFasttrip, if_pos hl]
  · exact exec_undervolt_faults hst

theorem retryExpiry_lapses (h : (s.bayOf b).st ≠ .retryWait ∨ due (s.bayOf b).retryAt s.now = false) :
    exec (.retryExpiry b) s = .next s := by
  rw [exec_retryExpiry, execRetryExpiry]
  exact if_neg (by rcases h with h | h <;> simp [h])

theorem retryExpiry_restarts (hi : s.Inv) (hb : b < 24) (hst : (s.bayOf b).st = .retryWait)
    (hd : due (s.bayOf b).retryAt s.now = true) : Gives (.retryExpiry b) s fun t => t.bayOf b = { s.bayOf b with
      st := if s.bay.inputFault = true then .inhibit else .wait, retryAt := none, retryLeft := (s.bayOf b).retryLeft - 1 } := by
  unfold Gives
  rw [exec_retryExpiry, execRetryExpiry]
  dsimp only
  rw [if_pos (by simp [hst, hd])]
  exact ⟨_, rfl, hi.bayOf_setBay hb _⟩

end

/-! ## The input of the midplane (R481) -/

theorem bayInputFault_follower {s : State} (h : s.bay.holder = false) :
    exec .bayInputFault s = .next { s with bay := { s.bay with inputFault := true } } := by
  rw [exec_bayInputFault, execBayInputFault]
  exact if_pos (by simp [h])

/-- An input fault at one bay: one that waits for nothing of the input stays as it is (R481, log 28). -/
def State.inhibitBay (t : State) (b : Nat) : State :=
  if (t.bayOf b).st = .empty || (t.bayOf b).st = .off || (t.bayOf b).st = .fault || (t.bayOf b).st = .inhibit then t
  else (t.powerOff b .inhibit).setBay b (fun y => { y with debounceEnd := none, present := true })

theorem State.inhibitBay_st {t : State} {b : Nat} (h : b < t.bay.bays.length) : ((t.inhibitBay b).bayOf b).st =
    if (t.bayOf b).st = .empty ∨ (t.bayOf b).st = .off ∨ (t.bayOf b).st = .fault then (t.bayOf b).st else .inhibit := by
  unfold State.inhibitBay
  simp only [Bool.or_eq_true, decide_eq_true_eq, or_assoc]
  split
  · grind
  · obtain ⟨d, hd⟩ := State.bayOf_powerOff h .inhibit
    rw [State.bayOf_setBay (by rw [State.length_bays_powerOff]; exact h), hd, if_neg (by tauto)]

theorem State.inhibitBay_other {b i : Nat} (h : i ≠ b) (t : State) : ((t.inhibitBay b).bayOf i).st = (t.bayOf i).st := by
  unfold State.inhibitBay
  split
  · rfl
  · obtain ⟨d, hd⟩ := State.bayOf_powerOff_ne h t .inhibit
    rw [State.bayOf_setBay_ne h, hd]

theorem State.inhibitBay_frame (t : State) (b : Nat) :
    (t.inhibitBay b).bay.bays.length = t.bay.bays.length ∧ (t.inhibitBay b).bay.inputFault = t.bay.inputFault := by
  unfold State.inhibitBay
  split
  · exact ⟨rfl, rfl⟩
  · rw [State.length_bays_setBay, State.length_bays_powerOff]
    exact ⟨rfl, t.powerOff_inputFault b .inhibit⟩

theorem bayInputFault_inhibits {s : State} (hi : s.Inv) (h : s.bay.holder = true) : Gives .bayInputFault s fun t =>
    t.bay.inputFault = true ∧ ∀ b < Config.bays s.part, (t.bayOf b).st =
      if (s.bayOf b).st = .empty ∨ (s.bayOf b).st = .off ∨ (s.bayOf b).st = .fault then (s.bayOf b).st else .inhibit := by
  have he : exec .bayInputFault s = .next ((natsFrom 0 (Config.bays s.part)).foldl State.inhibitBay
      { s with bay := { s.bay with inputFault := true } }) := by
    rw [exec_bayInputFault, execBayInputFault]
    exact if_neg (by simp [h])
  refine ⟨_, he, ?_, fun b hb => ?_⟩
  · exact foldl_keeps (K := fun t : State => t.bay.inputFault = true) (fun t k ht => (t.inhibitBay_frame k).2.trans ht) _ rfl
  · have h24 : b < 24 := Nat.lt_of_lt_of_le hb (Config.bays_le _)
    refine foldl_natsFrom_at (look := fun t : State => (t.bayOf b).st) (a := (s.bayOf b).st)
      (K := fun t => t.bay.bays.length = 24) hb (fun t k _ ht => (t.inhibitBay_frame k).1.trans ht)
      (fun t k _ _ hk => State.inhibitBay_other hk.symm t) (fun t ht hl => ?_) hi.counts.bays rfl
    rw [State.inhibitBay_st (by rw [ht]; exact h24), show (t.bayOf b).st = (s.bayOf b).st from hl]

/-! ## The holder (R471, R472) -/

/-- What a new holder makes of a bay's fault, retries, LED and forced power (R472, R483, R488). -/
def Bay.taken (n : Nat) (x : Bay) : Bay :=
  { x with fault := 0, retryLeft := n, led := 4, retryAt := none, cycleAt := none, forced := false }

/-- A bay with its new holder: gate fully on where it is live, else a new insertion where it is seated (R472). -/
def Bay.held (now : Nat) (x : Bay) : Bay :=
  if x.st = .powered ∨ x.st = .ready then { x with gate := true, pwrdis := false }
  else if x.seated = true then { x with st := .debounce, present := false, pg := false, debounceEnd := some (now + ms 250) }
  else x

/-- The new holder takes one bay (R472). -/
def State.takeBay (t : State) (b : Nat) : State :=
  let t1 := t.setBay b (Bay.taken (t.retryN b))
  if (t.bayOf b).st = .powered || (t.bayOf b).st = .ready then t1.gateTo b true
  else if (t.bayOf b).seated then
    t1.setBay b (fun y => { y with st := .debounce, present := false, pg := false, debounceEnd := some (t.now + ms 250) })
  else t1

theorem State.takeBay_bayOf {t : State} {b : Nat} (h : b < t.bay.bays.length) (hh : t.bay.holder = true) :
    (t.takeBay b).bayOf b = ((t.bayOf b).taken (t.retryN b)).held t.now := by
  have h1 : (t.setBay b (Bay.taken (t.retryN b))).bayOf b = (t.bayOf b).taken (t.retryN b) := State.bayOf_setBay h
  have hlt : b < (t.setBay b (Bay.taken (t.retryN b))).bay.bays.length := by rwa [State.length_bays_setBay]
  unfold State.takeBay Bay.held
  simp only [Bool.or_eq_true, decide_eq_true_eq]
  split
  · rw [State.bayOf_gateTo hlt, h1, State.setBay_bay, hh]
    exact (if_pos ‹_›).symm
  · split
    · rw [State.bayOf_setBay hlt, h1]
      exact ((if_neg ‹_›).trans (if_pos ‹_›)).symm
    · rw [h1]
      exact ((if_neg ‹_›).trans (if_neg ‹_›)).symm

theorem State.takeBay_bayOf_ne {b i : Nat} (h : i ≠ b) (t : State) : (t.takeBay b).bayOf i = t.bayOf i := by
  unfold State.takeBay
  dsimp only
  split
  · rw [State.bayOf_gateTo_ne h, State.bayOf_setBay_ne h]
  · split
    · rw [State.bayOf_setBay_ne h, State.bayOf_setBay_ne h]
    · rw [State.bayOf_setBay_ne h]

/-- What the pass over the bays keeps of the state it started from. -/
structure State.Taking (s t : State) : Prop where
  bays : t.bay.bays.length = 24
  holder : t.bay.holder = true
  line : t.bay.bholdHigh = s.bay.bholdHigh
  now : t.now = s.now
  retries : ∀ b, t.retryN b = s.retryN b

theorem State.Taking.setBay {s t : State} (h : s.Taking t) (b : Nat) (f : Bay → Bay) : s.Taking (t.setBay b f) :=
  ⟨(t.length_bays_setBay b f).trans h.bays, h.holder, h.line, h.now, h.retries⟩

theorem State.Taking.gateTo {s t : State} (h : s.Taking t) (b : Nat) (on : Bool) : s.Taking (t.gateTo b on) := by
  have hs := h.setBay b (fun x => { x with gate := on && t.bay.holder, pwrdis := !on && t.bay.holder })
  unfold State.gateTo
  dsimp only
  split
  · exact ⟨hs.bays, hs.holder, hs.line, hs.now, hs.retries⟩
  · exact hs

theorem State.Taking.takeBay {s t : State} (h : s.Taking t) (b : Nat) : s.Taking (t.takeBay b) := by
  unfold State.takeBay
  dsimp only
  split
  · exact (h.setBay b _).gateTo b true
  · split
    · exact (h.setBay b _).setBay b _
    · exact h.setBay b _

theorem State.takeBays_taking {s : State} (hl : s.bay.bays.length = 24) : s.Taking s.takeBays :=
  foldl_keeps (K := s.Taking) (fun _ k h => h.takeBay k) _ ⟨hl, rfl, rfl, rfl, fun _ => rfl⟩

theorem State.takeBays_bayOf {s : State} (hl : s.bay.bays.length = 24) {b : Nat} (hb : b < Config.bays s.part) :
    s.takeBays.bayOf b = ((s.bayOf b).taken (s.retryN b)).held s.now := by
  have h24 : b < 24 := Nat.lt_of_lt_of_le hb (Config.bays_le _)
  refine foldl_natsFrom_at (look := fun t : State => t.bayOf b) (a := s.bayOf b) (K := s.Taking) hb (fun t k _ ht => ht.takeBay k)
    (fun t k _ _ hk => State.takeBay_bayOf_ne hk.symm t) (fun t ht hl => ?_) ⟨hl, rfl, rfl, rfl, fun _ => rfl⟩ rfl
  rw [State.takeBay_bayOf (by rw [ht.bays]; exact h24) ht.holder, show t.bayOf b = s.bayOf b from hl, ht.now, ht.retries]

section
variable {s : State}

theorem exec_bholdARise_takes (hs : s.slot = .b) (hh : s.bay.holder = false) (hf : s.tk.fenced = false) :
    exec .bholdARise s = .next { s with bay := { s.bay with bholdHigh := true } }.takeBays := by
  rw [exec_bholdARise, execBholdARise]
  exact if_pos (by simp [hs, hh, hf])

theorem bholdARise_lapses (h : s.slot = .a ∨ s.bay.holder = true ∨ s.tk.fenced = true) :
    exec .bholdARise s = .next { s with bay := { s.bay with bholdHigh := true } } := by
  rw [exec_bholdARise, execBholdARise]
  exact if_neg (by rcases h with h | h | h <;> simp [h])

theorem exec_holderRegain_takes (hs : s.slot = .a) (hh : s.bay.holder = false) (hf : s.tk.fenced = false) :
    exec .holderRegain s =
      .next (({ s with bay := { s.bay with bholdHigh := false } } : State).emit (.pin .bholdA false)).takeBays := by
  rw [exec_holderRegain, execHolderRegain]
  exact if_pos (by simp [hs, hh, hf])

theorem holderRegain_lapses (h : s.slot = .b ∨ s.bay.holder = true ∨ s.tk.fenced = true) :
    exec .holderRegain s = .next s := by
  rw [exec_holderRegain, execHolderRegain]
  exact if_neg (by rcases h with h | h | h <;> simp [h])

theorem holderRegain_drives_low (hs : s.slot = .a) (hh : s.bay.holder = false) (hf : s.tk.fenced = false) :
    Gives .holderRegain s fun t => s.Sent t (.pin .bholdA false) :=
  ⟨_, exec_holderRegain_takes hs hh hf,
    (State.Sent.emit ({ s with bay := { s.bay with bholdHigh := false } } : State) (.pin .bholdA false)).later
      (Kept.takeBays (uu := .ofBay) (.refl _) rfl rfl).out⟩

theorem exec_bholdAFall_eq : exec .bholdAFall s = .next { s with bay :=
    if s.slot = .b then { s.bay with
      bholdHigh := false, holder := false, bays := s.bay.bays.map (fun b => { b with gate := false, pwrdis := false }) }
    else { s.bay with bholdHigh := false } } := by
  rw [exec_bholdAFall, execBholdAFall]
  dsimp only
  split <;> rfl

/-- Either slot takes the bays alike, each with its own level of the line (R471, R472). -/
theorem newHolder_takes {e : Instr} (hi : s.Inv) (he : (e = .bholdARise ∧ s.slot = .b) ∨ (e = .holderRegain ∧ s.slot = .a))
    (hh : s.bay.holder = false) (hf : s.tk.fenced = false) : Gives e s fun t =>
      t.bay.holder = true ∧ t.bay.bholdHigh = (s.slot == .b) ∧
      ∀ b < Config.bays s.part, t.bayOf b = ((s.bayOf b).taken (s.retryN b)).held s.now := by
  have htake : ∀ u : State, u.part = s.part → u.now = s.now → (∀ b, u.retryN b = s.retryN b) → u.bay.bays = s.bay.bays →
      u.takeBays.bay.holder = true ∧ u.takeBays.bay.bholdHigh = u.bay.bholdHigh ∧
      ∀ b < Config.bays s.part, u.takeBays.bayOf b = ((s.bayOf b).taken (s.retryN b)).held s.now := by
    intro u hp hn hr hbays
    have hl : u.bay.bays.length = 24 := by rw [hbays, hi.counts.bays]
    refine ⟨(State.takeBays_taking hl).holder, (State.takeBays_taking hl).line, fun b hb => ?_⟩
    rw [State.takeBays_bayOf hl (hp ▸ hb), hn, hr, State.bayOf, hbays, ← State.bayOf]
  rcases he with ⟨rfl, hs⟩ | ⟨rfl, hs⟩
  · obtain ⟨h1, h2, h3⟩ := htake { s with bay := { s.bay with bholdHigh := true } } rfl rfl (fun _ => rfl) rfl
    exact ⟨_, exec_bholdARise_takes hs hh hf, h1, by rw [h2, hs]; rfl, h3⟩
  · obtain ⟨h1, h2, h3⟩ := htake (({ s with bay := { s.bay with bholdHigh := false } } : State).emit (.pin .bholdA false)) rfl rfl
      (fun _ => rfl) rfl
    exact ⟨_, exec_holderRegain_takes hs hh hf, h1, by rw [h2, hs]; rfl, h3⟩

end

end Sys2Proof.Machine
end

section
/-! PROOFS. Bay commands: number, presence, holder and state are checked in this order (R486 to R488). BAY_POWER off leaves an EMPTY
bay EMPTY (log 28); VOUT and IOUT of BAY_QUERY are free values (log 4). -/

namespace Sys2Proof.Machine

/-! ## The checks of every bay command -/

theorem firstFail_append_some {l : List (Bool × Nat)} {st : Nat} (h : firstFail l = some st) (l' : List (Bool × Nat)) :
    firstFail (l ++ l') = some st := by
  induction l with
  | nil => exact absurd h (by simp [firstFail])
  | cons e l ih =>
    obtain ⟨x, n⟩ := e
    cases x with
    | true => exact h
    | false => exact ih h

theorem State.bayChecks_number {s : State} {b : Nat} (h : 23 < b) (x : Bool) : firstFail (s.bayChecks b x) = some stInvalidParam := by
  simp [State.bayChecks, firstFail, h]

theorem State.bayChecks_absent {s : State} {b : Nat} (h : b ≤ 23) (hb : Config.bays s.part ≤ b) (x : Bool) :
    firstFail (s.bayChecks b x) = some stAbsent := by
  simp [State.bayChecks, firstFail, Nat.not_lt.mpr h, hb]

theorem Config.not_lt_of_bay {p : Part} {b : Nat} (h : b < Config.bays p) : ¬23 < b := by
  have := Config.bays_le p
  omega

theorem State.bayChecks_follower {s : State} {b : Nat} (hb : b < Config.bays s.part) (hh : s.bay.holder = false) :
    firstFail (s.bayChecks b true) = some stNotOwner := by
  simp [State.bayChecks, firstFail, Config.not_lt_of_bay hb, Nat.not_le.mpr hb, hh]

theorem State.bayChecks_pass {s : State} {b : Nat} (hb : b < Config.bays s.part) {x : Bool} (hh : x = true → s.bay.holder = true) :
    firstFail (s.bayChecks b x) = none := by
  have hx : (x && !s.bay.holder) = false := by
    cases x with
    | false => rfl
    | true => rw [hh rfl]; rfl
  simp [State.bayChecks, firstFail, Config.not_lt_of_bay hb, Nat.not_le.mpr hb, hx]

section
variable {s : State} {m : Master} {op : Nat} {c : MbCmd} (hs : s.Starts m op c) (hi : s.Inv)
include hs hi

/-- A bay command that fails a check ends with that check's status and changes no bay. -/
theorem State.Starts.bay_refuses {i : Instr} {l : List (Bool × Nat)} {f : State → State} {st : Nat}
    (he : exec i s = .next (s.checked m l f)) (hl : firstFail l = some st) :
    Gives i s fun t => t.Ended m st ∧ t.bay = s.bay :=
  ⟨_, he.trans (congrArg _ (State.checked_fail hl f)), hs.ends hi rfl st, State.finish_bay ..⟩

theorem State.Starts.bay_accepts {i : Instr} {l : List (Bool × Nat)} {u : State → State}
    (he : exec i s = .next (s.checked m l fun t => (u t).finish m stOk [])) (hl : firstFail l = none)
    (hm : (u s).mbx = s.mbx) : Gives i s fun t => t.Ended m stOk ∧ t.bay = (u s).bay ∧ (u s).out <:+ t.out :=
  ⟨_, he.trans (congrArg _ (State.checked_ok hl _)), hs.ends hi hm stOk, State.finish_bay .., (State.finish_kept ..).out⟩

section
variable {i : Instr} {b : Nat} {l : List (Bool × Nat)} {f : State → State}
  (he : exec i s = .next (s.checked m (s.bayChecks b true ++ l) f))
include he

theorem State.Starts.bay_number (h : 23 < b) : Gives i s fun t => t.Ended m stInvalidParam ∧ t.bay = s.bay :=
  hs.bay_refuses hi he (firstFail_append_some (State.bayChecks_number h true) l)

theorem State.Starts.bay_absent (h : b ≤ 23) (hb : Config.bays s.part ≤ b) :
    Gives i s fun t => t.Ended m stAbsent ∧ t.bay = s.bay :=
  hs.bay_refuses hi he (firstFail_append_some (State.bayChecks_absent h hb true) l)

theorem State.Starts.bay_follower (hb : b < Config.bays s.part) (hh : s.bay.holder = false) :
    Gives i s fun t => t.Ended m stNotOwner ∧ t.bay = s.bay :=
  hs.bay_refuses hi he (firstFail_append_some (State.bayChecks_follower hb hh) l)

theorem State.Starts.bay_fails (hb : b < Config.bays s.part) (hh : s.bay.holder = true) {st : Nat} (hl : firstFail l = some st) :
    Gives i s fun t => t.Ended m st ∧ t.bay = s.bay :=
  hs.bay_refuses hi he ((firstFail_append (State.bayChecks_pass hb fun _ => hh) l).trans hl)

end

end

/-! ## BAY_POWER (R483, R484, R486) -/

/-- What BAY_POWER makes of a bay that passes its checks. -/
def State.bayPowerTo (s : State) (b op : Nat) : State :=
  if op = 1 then
    (if (s.bayOf b).st = .off then s.setBay b (fun x => { x with
      st := if s.bay.inputFault then .inhibit else .wait, forced := true, cycleAt := none }) else s)
  else if (s.bayOf b).st = .empty || (s.bayOf b).st = .fault then s
  else
    let t := (s.powerOff b .off).setBay b (fun x => { x with debounceEnd := none, present := true, forced := false })
    if op = 2 then t.setBay b (fun x => { x with cycleAt := some (s.now + sec 1) }) else t

/-- The checks of BAY_POWER's operation. -/
def State.bayPowerChecks (s : State) (b op : Nat) : List (Bool × Nat) :=
  [(2 < op, stInvalidParam), ((op = 0 || op = 2) && s.inUse b, stConflict),
    (op = 1 && ((s.bayOf b).st = .empty || (s.bayOf b).st = .fault), stConflict)]

theorem State.bayPowerTo_mbx (s : State) (b op : Nat) : (s.bayPowerTo b op).mbx = s.mbx := by
  have hoff : (s.powerOff b .off).mbx = s.mbx := (s.powerOff_kept b .off).only.mbx.resolve_left Bool.false_ne_true
  unfold State.bayPowerTo
  dsimp only
  split
  · split <;> rfl
  · split
    · rfl
    · split <;> exact hoff

section
variable {s : State} {b op : Nat}

theorem State.bayPowerTo_off (hb : b < s.bay.bays.length) (hop : op ≠ 1) (he : (s.bayOf b).st ≠ .empty) (hf : (s.bayOf b).st ≠ .fault) :
    ∃ d, (s.bayPowerTo b op).bayOf b = { s.bayOf b with
      gate := false, pwrdis := s.bay.holder, st := .off, pg := false, rampEnd := none, perstAt := none, retryAt := none
      debounceEnd := none, present := true, forced := false, cycleAt := if op = 2 then some (s.now + sec 1) else none
      drive := d } := by
  obtain ⟨d, hd⟩ := State.bayOf_powerOff hb .off
  have hlt : b < (s.powerOff b .off).bay.bays.length := by rwa [State.length_bays_powerOff]
  refine ⟨d, ?_⟩
  unfold State.bayPowerTo
  dsimp only
  rw [if_neg hop, if_neg (by simp [he, hf])]
  split
  · rw [State.bayOf_setBay (by rwa [State.length_bays_setBay]), State.bayOf_setBay hlt, hd]
  · rw [State.bayOf_setBay hlt, hd]

theorem firstFail_bayPowerChecks_op (h : 2 < op) : firstFail (s.bayPowerChecks b op) = some stInvalidParam := by
  simp [State.bayPowerChecks, firstFail, h]

theorem firstFail_bayPowerChecks_inUse (h : op ≤ 2) (h1 : op ≠ 1) (hu : s.inUse b = true) :
    firstFail (s.bayPowerChecks b op) = some stConflict := by
  have h02 : op = 0 ∨ op = 2 := by omega
  simp [State.bayPowerChecks, firstFail, Nat.not_lt.mpr h, h02, hu]

theorem firstFail_bayPowerChecks_on (hst : (s.bayOf b).st = .empty ∨ (s.bayOf b).st = .fault) :
    firstFail (s.bayPowerChecks b 1) = some stConflict := by
  simp [State.bayPowerChecks, firstFail, hst]

theorem firstFail_bayPowerChecks_none (h : op ≤ 2) (hu : op ≠ 1 → s.inUse b = false)
    (hst : op = 1 → (s.bayOf b).st ≠ .empty ∧ (s.bayOf b).st ≠ .fault) : firstFail (s.bayPowerChecks b op) = none := by
  by_cases h1 : op = 1
  · obtain ⟨he, hf⟩ := hst h1
    simp [State.bayPowerChecks, firstFail, h1, he, hf]
  · simp [State.bayPowerChecks, firstFail, Nat.not_lt.mpr h, h1, hu h1]

end

section
variable {s : State} {m : Master} {c : MbCmd} {b op : Nat} (hs : s.Starts m 0x0801 c) (hb : b = byteAt c.params 0)
  (hop : op = byteAt c.params 1)
include hs hb hop

theorem exec_bayPower_checked : exec (.bayPower m) s =
    .next (s.checked m (s.bayChecks b true ++ s.bayPowerChecks b op) fun t => (t.bayPowerTo b op).finish m stOk []) := by
  rw [exec_bayPower, execBayPower, State.runCmd_starts hs, hb, hop]
  rfl

variable (hi : s.Inv) (hlt : b < Config.bays s.part) (hh : s.bay.holder = true) (h2 : op ≤ 2)
include hi hlt hh h2

theorem bayPower_taken (hu : op ≠ 1 → s.inUse b = false) (hst : op = 1 → (s.bayOf b).st ≠ .empty ∧ (s.bayOf b).st ≠ .fault) :
    Gives (.bayPower m) s fun t => t.Ended m stOk ∧ t.bay = (s.bayPowerTo b op).bay := by
  obtain ⟨t, he, hend, hbay, -⟩ := hs.bay_accepts hi (exec_bayPower_checked hs hb hop)
    ((firstFail_append (State.bayChecks_pass hlt fun _ => hh) _).trans (firstFail_bayPowerChecks_none h2 hu hst))
    (s.bayPowerTo_mbx b op)
  exact ⟨t, he, hend, hbay⟩

theorem bayPower_unchanged (hu : op ≠ 1 → s.inUse b = false)
    (hst : op = 1 → (s.bayOf b).st ≠ .empty ∧ (s.bayOf b).st ≠ .fault) (ht : s.bayPowerTo b op = s) :
    Gives (.bayPower m) s fun t => t.Ended m stOk ∧ t.bay = s.bay := by
  have h := bayPower_taken hs hb hop hi hlt hh h2 hu hst
  rwa [ht] at h

theorem bayPower_on (h1 : op = 1) (hst : (s.bayOf b).st = .off) : Gives (.bayPower m) s fun t => t.Ended m stOk ∧
    t.bayOf b = { s.bayOf b with st := if s.bay.inputFault = true then .inhibit else .wait, forced := true, cycleAt := none } := by
  obtain ⟨t, he, hend, hbay⟩ := bayPower_taken hs hb hop hi hlt hh h2 (fun h => absurd h1 h) (fun _ => by simp [hst])
  refine ⟨t, he, hend, (State.bayOf_congr hbay b).trans ?_⟩
  rw [State.bayPowerTo, if_pos h1, if_pos hst]
  exact hi.bayOf_setBay (Nat.lt_of_lt_of_le hlt (Config.bays_le _)) _

theorem bayPower_on_already (h1 : op = 1) (hst : (s.bayOf b).st ∉ [.off, .empty, .fault]) :
    Gives (.bayPower m) s fun t => t.Ended m stOk ∧ t.bay = s.bay := by
  simp only [List.mem_cons, List.not_mem_nil, or_false, not_or] at hst
  obtain ⟨hoff, hem, hfa⟩ := hst
  exact bayPower_unchanged hs hb hop hi hlt hh h2 (fun h => absurd h1 h) (fun _ => ⟨hem, hfa⟩) (by
    rw [State.bayPowerTo, if_pos h1, if_neg hoff])

theorem bayPower_off_already (h1 : op ≠ 1) (hu : s.inUse b = false) (hst : (s.bayOf b).st = .empty ∨ (s.bayOf b).st = .fault) :
    Gives (.bayPower m) s fun t => t.Ended m stOk ∧ t.bay = s.bay :=
  bayPower_unchanged hs hb hop hi hlt hh h2 (fun _ => hu) (fun h => absurd h h1) (by
    rw [State.bayPowerTo, if_neg h1, if_pos (by simpa using hst)])

theorem bayPower_off (h1 : op ≠ 1) (hu : s.inUse b = false) (hem : (s.bayOf b).st ≠ .empty) (hfa : (s.bayOf b).st ≠ .fault) :
    Gives (.bayPower m) s fun t => t.Ended m stOk ∧ (t.bayOf b).st = .off ∧ (t.bayOf b).pg = false ∧ (t.bayOf b).forced = false ∧
      (t.bayOf b).present = true ∧ (t.bayOf b).cycleAt = (if op = 2 then some (s.now + sec 1) else none) := by
  obtain ⟨t, he, hend, hbay⟩ := bayPower_taken hs hb hop hi hlt hh h2 (fun _ => hu) (fun h => absurd h h1)
  obtain ⟨d, hd⟩ := State.bayPowerTo_off (hi.bay_lt (Nat.lt_of_lt_of_le hlt (Config.bays_le _))) h1 hem hfa
  refine ⟨t, he, hend, ?_⟩
  rw [State.bayOf_congr hbay b, hd]
  exact ⟨rfl, rfl, rfl, rfl, rfl⟩

end

theorem powerCycleDelay_lapses {s : State} {b : Nat} (h : (s.bayOf b).st ≠ .off ∨ due (s.bayOf b).cycleAt s.now = false) :
    exec (.powerCycleDelay b) s = .next s := by
  rw [exec_powerCycleDelay, execPowerCycleDelay]
  exact if_neg (by rcases h with h | h <;> simp [h])

theorem powerCycleDelay_restarts {s : State} {b : Nat} (hi : s.Inv) (hb : b < 24) (hst : (s.bayOf b).st = .off)
    (hd : due (s.bayOf b).cycleAt s.now = true) : Gives (.powerCycleDelay b) s fun t => t.bayOf b = { s.bayOf b with
      st := if s.bay.inputFault = true then .inhibit else .wait, forced := true, cycleAt := none } := by
  unfold Gives
  rw [exec_powerCycleDelay, execPowerCycleDelay]
  dsimp only
  rw [if_pos (by simp [hst, hd])]
  exact ⟨_, rfl, hi.bayOf_setBay hb _⟩

/-! ## BAY_LED (R486, R488) -/

section
variable {s : State} {m : Master} {c : MbCmd} {b p : Nat} (hs : s.Starts m 0x0802 c) (hb : b = byteAt c.params 0)
  (hp : p = byteAt c.params 1)
include hs hb hp

theorem exec_bayLed_checked : exec (.bayLed m) s = .next (s.checked m (s.bayChecks b true ++ [(decide (4 < p), stInvalidParam)])
    fun t => ((t.setBay b (fun x => { x with led := p })).emit (.pin (.led b) (p != 0))).finish m stOk []) := by
  have hne : (p != 0) = decide (p ≠ 0) := by
    rw [Bool.eq_iff_iff]
    simp
  rw [exec_bayLed, execBayLed, State.runCmd_starts hs, hne, hb, hp]

theorem bayLed_sets (hi : s.Inv) (hlt : b < Config.bays s.part) (hh : s.bay.holder = true) (h4 : p ≤ 4) :
    Gives (.bayLed m) s fun t => t.Ended m stOk ∧ t.bayOf b = { s.bayOf b with led := p } ∧ s.Sent t (.pin (.led b) (p != 0)) := by
  obtain ⟨t, he, hend, hbay, hout⟩ := hs.bay_accepts hi (exec_bayLed_checked hs hb hp)
    ((firstFail_append (State.bayChecks_pass hlt fun _ => hh) _).trans (by simp [firstFail, Nat.not_lt.mpr h4])) rfl
  refine ⟨t, he, hend, ?_, (State.Sent.emit (s.setBay b fun x => { x with led := p }) (.pin (.led b) (p != 0))).later hout⟩
  rw [State.bayOf_congr hbay b, State.emit_bayOf]
  exact hi.bayOf_setBay (Nat.lt_of_lt_of_le hlt (Config.bays_le _)) _

end

/-! ## BAY_CLEAR (R470, R484, R486) -/

/-- A fault that BAY_CLEAR clears. -/
def Bay.latched (x : Bay) : Bool := x.st = .fault || x.st = .retryWait || (x.st = .empty && x.fault ≠ 0)

theorem Bay.latched_eq_beq (x : Bay) :
    x.latched = (x.st == .fault || x.st == .retryWait || (x.st == .empty && x.fault != 0)) := by
  rw [Bay.latched, Bool.eq_iff_iff]
  simp

/-- The bay of BAY_CLEAR with its fault cleared. -/
def State.clearFault (s : State) (b : Nat) : State :=
  if (s.bayOf b).latched then
    s.setBay b (fun y => { y with
      fault := 0, retryLeft := s.retryN b, retryAt := none
      st := if y.st = .empty then .empty else if s.bay.inputFault then .inhibit else .wait })
  else s

/-- What BAY_CLEAR makes of a bay that passes its checks: a port held for good is released too (R470). -/
def State.bayClearTo (s : State) (b : Nat) : State :=
  if (s.portOf b).stuck then (s.clearFault b).release b else s.clearFault b

section
variable {s : State} {b : Nat}

theorem State.clearFault_kept (s : State) (b : Nat) : Kept { bay := true } s (s.clearFault b) := by
  unfold State.clearFault
  split
  · exact Kept.setBay b _ (.refl s) rfl
  · exact .refl s

theorem State.bayClearTo_mbx (s : State) (b : Nat) : (s.bayClearTo b).mbx = s.mbx := by
  have hk : Kept { bay := true } s (s.bayClearTo b) := by
    unfold State.bayClearTo
    split
    · exact Kept.release b (s.clearFault_kept b) rfl
    · exact s.clearFault_kept b
  exact hk.only.mbx.resolve_left Bool.false_ne_true

theorem State.bayClearTo_bayOf (hl : b < s.bay.bays.length) : (s.bayClearTo b).bayOf b = if (s.bayOf b).latched = true
    then { s.bayOf b with
      fault := 0, retryLeft := s.retryN b, retryAt := none
      st := if (s.bayOf b).st = .empty then .empty else if s.bay.inputFault = true then .inhibit else .wait }
    else s.bayOf b := by
  have hc : (s.bayClearTo b).bay.bays = (s.clearFault b).bay.bays := by
    unfold State.bayClearTo
    split
    · exact (State.release_frame _ b).1
    · rfl
  rw [State.bayOf, hc, ← State.bayOf]
  unfold State.clearFault
  split
  · exact State.bayOf_setBay hl
  · rfl

theorem State.bayClearTo_stuck (hi : s.Inv) (hb : b < 24) : ((s.bayClearTo b).portOf b).stuck = false := by
  unfold State.bayClearTo
  split
  · rw [State.release_portOf ((s.clearFault_kept b).inv hi) hb]
    split <;> rfl
  · next hst =>
    have hport : (s.clearFault b).portOf b = s.portOf b := by
      unfold State.clearFault
      split <;> rfl
    rw [hport]
    exact Bool.eq_false_iff.mpr hst

end

section
variable {s : State} {m : Master} {c : MbCmd} {b : Nat} (hs : s.Starts m 0x0803 c) (hb : b = byteAt c.params 0)
include hs hb

theorem exec_bayClear_checked : exec (.bayClear m) s = .next (s.checked m
    (s.bayChecks b true ++ [(!(s.bayOf b).latched && !(s.portOf b).stuck, stConflict)])
    fun t => (t.bayClearTo b).finish m stOk []) := by
  rw [exec_bayClear, execBayClear, State.runCmd_starts hs, hb]
  rfl

variable (hi : s.Inv) (hlt : b < Config.bays s.part) (hh : s.bay.holder = true)
include hi hlt hh

theorem bayClear_nothing (hl : (s.bayOf b).latched = false) (hst : (s.portOf b).stuck = false) :
    Gives (.bayClear m) s fun t => t.Ended m stConflict ∧ t.bay = s.bay :=
  hs.bay_fails hi (exec_bayClear_checked hs hb) hlt hh (by simp [firstFail, hl, hst])

theorem bayClear_clears (h : (s.bayOf b).latched = true ∨ (s.portOf b).stuck = true) :
    Gives (.bayClear m) s fun t => t.Ended m stOk ∧ (t.portOf b).stuck = false ∧ t.bayOf b = if (s.bayOf b).latched = true
      then { s.bayOf b with
        fault := 0, retryLeft := s.retryN b, retryAt := none
        st := if (s.bayOf b).st = .empty then .empty else if s.bay.inputFault = true then .inhibit else .wait }
      else s.bayOf b := by
  have h24 : b < 24 := Nat.lt_of_lt_of_le hlt (Config.bays_le _)
  obtain ⟨t, he, hend, hbay, -⟩ := hs.bay_accepts hi (exec_bayClear_checked hs hb)
    ((firstFail_append (State.bayChecks_pass hlt fun _ => hh) _).trans (by rcases h with h | h <;> simp [firstFail, h]))
    (s.bayClearTo_mbx b)
  refine ⟨t, he, hend, ?_, (State.bayOf_congr hbay b).trans (State.bayClearTo_bayOf (hi.bay_lt h24))⟩
  rw [State.portOf_congr (congrArg BaysSt.ports hbay)]
  exact State.bayClearTo_stuck hi h24

end

/-! ## BAY_QUERY (R487) -/

section
variable {s : State} {m : Master} {c : MbCmd} {b : Nat} (hs : s.Starts m 0x0804 c) (hi : s.Inv) (hb : b = byteAt c.params 0)
include hs hi hb

theorem bayQuery_refused {st : Nat} (h : firstFail (s.bayChecks b false) = some st) :
    Gives (.bayQuery m) s fun t => t.Ended m st := by
  unfold Gives
  rw [exec_bayQuery, execBayQuery, State.runCmd_starts hs, ← hb]
  dsimp only
  rw [State.checked_fail h]
  exact ⟨_, rfl, hs.ends hi rfl st⟩

theorem bayQuery_answers (hlt : b < Config.bays s.part) {x : Bay} (hx : x = s.bayOf b) {p : DrivePort} (hp : p = s.portOf b) :
    Gives (.bayQuery m) s fun t => t.bay = s.bay ∧ ∃ v i, v < 65536 ∧ i < 65536 ∧ t.Yields m c (leBytes 1 x.st.code ++
      leBytes 1 (if s.bay.holder = true then x.fault else 0) ++ leBytes 1 x.retryLeft ++
      leBytes 1 ((if x.present then 1 else 0) + (if s.bay.holder then 2 else 0) + (if x.pg then 4 else 0) +
        (if x.pwrdis then 8 else 0) + (if p.contained then 16 else 0)) ++
      leBytes 2 v ++ leBytes 2 i ++ leBytes 1 p.speed ++ leBytes 1 p.width ++ leBytes 1 x.pattern ++ zeroBytes 1 ++
      leBytes 2 x.inserts ++ leBytes 2 x.faults) := by
  subst hx hp
  unfold Gives
  rw [exec_bayQuery, execBayQuery, State.runCmd_starts hs, ← hb]
  dsimp only
  rw [State.checked_ok (State.bayChecks_pass hlt fun h => absurd h Bool.false_ne_true)]
  refine ⟨_, rfl, State.finish_bay .., s.freeNow % 65536, s.tookFree.freeNow % 65536, Nat.mod_lt _ (by decide),
    Nat.mod_lt _ (by decide), ?_⟩
  exact hs.yields hi (t := s.tookFree.tookFree) rfl _

end

/-! ## The statement -/

/-- Settles O35, each command by its own rules: insertion, power and faults in the parts above, the bay commands here. -/
theorem baysAndBayCommands : Obligations.BaysAndBayCommands := by
  unfold Obligations.BaysAndBayCommands
  refine ⟨fun s b => ⟨presenceAssert_absent, fun hi hb => presenceAssert_seats hi hb⟩,
    fun s b => ⟨debounceComplete_lapses, debounceComplete_inserts⟩,
    fun s b hi hb => ⟨presenceLoss_empty hi hb, presenceLoss_debounce hi hb, presenceLoss_empties hi hb⟩,
    ?ramp,
    fun s b => ⟨powerGood_lapses, powerGood_powers⟩,
    fun s b => ⟨perstDelayExpiry_lapses, perstDelayExpiry_trains⟩,
    fun s b => ⟨bayReady_lapses, bayReady_readies⟩,
    fun s b => ⟨pgtimeout_lapses, bayTrips_lapse, fun h => undervolt_lapses (by simp [h]) (by simp [h])⟩,
    ?fault,
    fun s b => ⟨retryExpiry_lapses, retryExpiry_restarts⟩,
    fun s => ⟨bayInputFault_follower, bayInputFault_inhibits, rfl⟩,
    ?taken,
    fun s => ⟨bholdARise_lapses, holderRegain_lapses, holderRegain_drives_low, exec_bholdAFall_eq⟩,
    ?power,
    fun s b => ⟨powerCycleDelay_lapses, powerCycleDelay_restarts⟩,
    ?led, ?clear,
    fun s m c b hs hi hb => ⟨fun h => bayQuery_refused hs hi hb (State.bayChecks_number h false),
      fun h hp => bayQuery_refused hs hi hb (State.bayChecks_absent h hp false),
      fun x p hlt hx hp => bayQuery_answers hs hi hb hlt hx hp⟩⟩
  case ramp =>
    refine fun s b => ⟨rampStart_lapses, fun hi hb hh hw hin hst hlow => ?_⟩
    have hnext : s.RampsNext b := ⟨hh, hw, hin, hst, hlow⟩
    exact ⟨rampStart_off hnext hi hb, rampStart_ramps hnext hi hb⟩
  case fault =>
    intro s b e k retry hi hb h hretry
    have he := exec_bay_faults h
    refine ⟨bayFault_follows he hi hb, fun hh => ⟨_, he, ?_⟩⟩
    obtain ⟨d, hd⟩ := State.bayOf_bayFault (hi.bay_lt hb) hh k
    rw [hretry, ← State.retries_eq_bne, hd]
    exact ⟨rfl, rfl, rfl, rfl, rfl, fun _ _ => rfl, State.bayFault_sent hh b k⟩
  case taken =>
    intro s e hi he hh hf
    obtain ⟨t, ht, hhold, hline, hbays⟩ := newHolder_takes hi he hh hf
    exact ⟨t, ht, hhold, hline, fun b hb x hx => hx ▸ hbays b hb⟩
  case power =>
    intro s m c b op hs hi hb hop
    have he := exec_bayPower_checked hs hb hop
    refine ⟨?_, hs.bay_absent hi he, hs.bay_follower hi he, fun hlt hh h2 => ⟨fun h1 hu => ?_, fun h1 hst => ?_,
      bayPower_on hs hb hop hi hlt hh h2, bayPower_on_already hs hb hop hi hlt hh h2, bayPower_off_already hs hb hop hi hlt hh h2,
      bayPower_off hs hb hop hi hlt hh h2⟩⟩
    · rintro (h | ⟨hlt, hh, h2⟩)
      · exact hs.bay_number hi he h
      · exact hs.bay_fails hi he hlt hh (firstFail_bayPowerChecks_op h2)
    · exact hs.bay_fails hi he hlt hh (firstFail_bayPowerChecks_inUse h2 h1 hu)
    · exact hs.bay_fails hi he hlt hh (h1 ▸ firstFail_bayPowerChecks_on hst)
  case led =>
    intro s m c b p hs hi hb hp
    have he := exec_bayLed_checked hs hb hp
    refine ⟨?_, hs.bay_absent hi he, hs.bay_follower hi he, bayLed_sets hs hb hp hi⟩
    rintro (h | ⟨hlt, hh, h4⟩)
    · exact hs.bay_number hi he h
    · exact hs.bay_fails hi he hlt hh (by simp [firstFail, h4])
  case clear =>
    intro s m c b latched hs hi hb hl
    have he := exec_bayClear_checked hs hb
    rw [← Bay.latched_eq_beq] at hl
    subst hl
    exact ⟨hs.bay_number hi he, hs.bay_absent hi he, hs.bay_follower hi he, fun hlt hh =>
      ⟨bayClear_nothing hs hb hi hlt hh, bayClear_clears hs hb hi hlt hh⟩⟩

end Sys2Proof.Machine
end

section
/-! PROOFS. An idle step (R142, R549, R552, R555): the clock goes on by 1 ns, the monitor counts the traffic of the HBM, and the peer
is told of rings that changed. That a tick is what an idle block does is the model's choice (logs 2, 79 and 91). -/

namespace Sys2Proof.Machine

/-- The state 1 ns later, before anything counts. -/
def State.later (s : State) : State := { s with now := s.now + 1 }

theorem State.only_later (u : Units) (s : State) : Only u s s.later := { Only.refl u s with }

/-- No counter of the monitor counts the traffic of the HBM while none is listed. -/
theorem State.hbmTraffic_of_pmuIdle {s : State} (h : s.pmuIdle = true) : s.hbmTraffic = s := by
  simp only [State.hbmTraffic, h, if_true]

/-- Besides what its HBM traffic counts, a tick sets overflow flags of cycle counters (R555). -/
theorem State.tick_kept_of_hbmTraffic {u : Units} {s : State} (h : Kept u s.later s.later.hbmTraffic) (hu : u.moved = true) :
    Kept u s.later s.tick := by
  refine List.foldlRecOn _ _ h fun t ht v hv => ?_
  have hv4 : v < 4 := mem_natsFrom_zero.mp hv
  split
  · exact Kept.raiseFlag _ 8 ht ⟨.inr (.inr (.inr ⟨v, hv4, rfl⟩))⟩
  · exact ht

theorem State.tick_kept (s : State) : Kept { pmu := true, moved := true, free := true } s.later s.tick :=
  State.tick_kept_of_hbmTraffic (Kept.hbmTraffic (.refl _) rfl rfl rfl) rfl

theorem State.tick_kept_of_pmuIdle {s : State} (h : s.pmuIdle = true) : Kept { moved := true } s.later s.tick :=
  State.tick_kept_of_hbmTraffic (by rw [State.hbmTraffic_of_pmuIdle (s := s.later) h]; exact .refl _) rfl

/-- With no counter listed only the overflow flags of the counter sets move in a tick. -/
theorem State.tick_reg_of_pmuIdle {s : State} (h : s.pmuIdle = true) {a : Nat} (ha : ∀ v < 4, a ≠ Reg.pmuOvf + 0x100 * v) :
    s.tick.reg a = s.reg a := by
  refine List.foldlRecOn (motive := fun t : State => t.reg a = s.reg a) _ _ ?_ fun t ht v hv => ?_
  · show s.later.hbmTraffic.reg a = s.later.reg a
    rw [State.hbmTraffic_of_pmuIdle (s := s.later) h]
  · split
    · exact (regGet_regPut_ne (ha v (mem_natsFrom_zero.mp hv))).trans ht
    · exact ht

/-- What the peer is told of a ring changes no ring. -/
theorem State.shareRings_rings (s : State) : s.shareRings.rge.rings = s.rge.rings := by
  unfold State.shareRings
  split
  · rfl
  · refine foldl_frame (g := fun t : State => t.rge.rings) (fun t r => ?_) _ s
    split
    · rfl
    · rw [State.mirSend_rge, State.updRge_rge]

theorem State.shareRings_of_closed {s : State} (h : s.rfx.out1.isOpen = false) : s.shareRings = s := by
  simp [State.shareRings, h]

theorem State.idle_kept (s : State) :
    Kept { rge := true, rfx := true, xbr := true, pmu := true, moved := true, out := true, free := true } s.later s.idle :=
  Kept.shareRings (State.tick_kept_of_hbmTraffic (Kept.hbmTraffic (.refl _) rfl rfl rfl) rfl) rfl rfl rfl rfl rfl rfl

/-- With no counter listed and no stream to the peer an idle step is a tick. -/
theorem State.idle_eq_tick {s : State} (h : s.pmuIdle = true) (ho : s.rfx.out1.isOpen = false) : s.idle = s.tick := by
  have hrfx : s.tick.rfx = s.rfx := (State.tick_kept_of_pmuIdle h).only.rfx.resolve_left Bool.false_ne_true
  exact State.shareRings_of_closed (hrfx ▸ ho)

/-- Settles O2. -/
theorem idleStepIsATick : Obligations.IdleStepIsATick := by
  intro s hp
  have hk := s.idle_kept
  have htick : s.tick.rge = s.rge := s.tick_kept.only.rge.resolve_left Bool.false_ne_true
  refine ⟨s.idle, step_of_idle hp, hk.same.now, hk.pending.trans hp, (s.only_later _).trans hk.only,
    s.tick.shareRings_rings.trans (congrArg _ htick), hk.same.part, hk.same.slot, hk.same.uid, hk.same.smbAddr, hk.same.strapsOk,
    hk.same.macs, fun hi ho => ?_⟩
  rw [State.idle_eq_tick hi ho]
  exact ⟨(s.only_later _).trans (State.tick_kept_of_pmuIdle hi).only, fun a => State.tick_reg_of_pmuIdle hi⟩

end Sys2Proof.Machine
end

section
/-! PROOFS. Margin scans and what they lead to (R528 to R532, R535; FECLIM log 49, LCU.RETRAINS and the 10 µV steps log 58): the lanes,
the judgement of a port after a scan, and the start of its retrain. -/

namespace Sys2Proof.Machine

/-! ## Records found by a number -/

theorem find_filter_ne {α : Type} (f : α → Nat) (l : List α) (k : Nat) :
    (l.filter (fun y => f y ≠ k)).find? (fun y => f y = k) = none :=
  List.find?_eq_none.mpr fun y hy => by simpa using (List.mem_filter.mp hy).2

theorem find_filter_ne_other {α : Type} (f : α → Nat) (l : List α) {k n : Nat} (h : k ≠ n) :
    (l.filter (fun y => f y ≠ n)).find? (fun y => f y = k) = l.find? (fun y => f y = k) := by
  rw [List.find?_filter]
  congr 1
  funext y
  by_cases hy : f y = k
  · simp [hy, h]
  · simp [hy]

/-- A record that replaces those of its number is found by it, and the others as before. -/
theorem find_filter_append {α : Type} (f : α → Nat) (l : List α) (x : α) (k : Nat) :
    (l.filter (fun y => f y ≠ f x) ++ [x]).find? (fun y => f y = k) =
      if k = f x then some x else l.find? (fun y => f y = k) := by
  rw [List.find?_append]
  split
  · next h => rw [h, find_filter_ne]; simp
  · next h => rw [find_filter_ne_other f l h]; simp [Ne.symm h]

/-! ## Lanes (R528) -/

theorem State.laneOf_lane (s : State) (l : Nat) : (s.laneOf l).lane = l := by
  unfold State.laneOf
  cases h : s.lcu.lanes.find? (fun x => x.lane = l) with
  | none => rfl
  | some x => simpa using List.find?_some h

/-- A lane's record replaces the one before it and no other. -/
theorem State.laneOf_putLane (s : State) (x : LaneSt) (k : Nat) :
    (s.putLane x).laneOf k = if k = x.lane then x else s.laneOf k := by
  rw [State.laneOf, State.putLane, State.updLcu_lcu, find_filter_append LaneSt.lane]
  split <;> rfl

/-! ## MARGIN_SCAN (R528) -/

theorem marginScan_no_port {s : State} {l : Nat} (h : lanePort l = none) : exec (.marginScan l) s = .next s := by
  rw [exec_marginScan, execMarginScan, h]

section
variable {s : State} {l p : Nat} (hp : lanePort l = some p)
include hp

theorem marginScan_lapses (h : s.pwr.up = false ∨ s.cfgBit Reg.lcuSdcfg 31 = false ∨ portPresent s.part p = false ∨
    s.linkUp p = false ∨ (∃ k ∈ portLanes p, (s.laneOf k).scanning = true) ∨ s.scanDue l = false) :
    exec (.marginScan l) s = .next s := by
  rw [exec_marginScan, execMarginScan, hp]
  refine if_neg ?_
  rcases h with h | h | h | h | ⟨k, hk, hs⟩ | h
  case inr.inr.inr.inr.inl =>
    have hb : (portLanes p).any (fun l => (s.laneOf l).scanning) = true := List.any_eq_true.mpr ⟨k, hk, hs⟩
    simp only [hb, Bool.not_true, Bool.and_false, Bool.false_and, Bool.false_eq_true, not_false_eq_true]
  all_goals simp [h]

theorem marginScan_starts (hu : s.pwr.up = true) (hc : s.cfgBit Reg.lcuSdcfg 31 = true) (hpr : portPresent s.part p = true)
    (hl : s.linkUp p = true) (hn : ∀ k ∈ portLanes p, (s.laneOf k).scanning = false) (hd : s.scanDue l = true) :
    Gives (.marginScan l) s fun t => t.laneOf l = { s.laneOf l with scanning := true, started := some s.now } ∧
      ∀ k, k ≠ l → t.laneOf k = s.laneOf k := by
  refine ⟨s.putLane { s.laneOf l with scanning := true, started := some s.now }, ?_, ?_, fun k hk => ?_⟩
  · rw [exec_marginScan, execMarginScan, hp]
    have hb : (portLanes p).any (fun k => (s.laneOf k).scanning) = false := List.any_eq_false.mpr fun k hk => by simp [hn k hk]
    exact if_pos (by simp [hu, hc, hpr, hl, hb, hd])
  · rw [State.laneOf_putLane, if_pos (s.laneOf_lane l).symm]
  · rw [State.laneOf_putLane, if_neg fun e => hk (e.trans (s.laneOf_lane l))]

end

/-! ## The result of a scan (R529, R530; log 49) -/

theorem State.laneOf_noteScan {s : State} {l p : Nat} {r : ScanResult} {low : Bool}
    (h : low = (s.lowScan p r || (Decidable.decide (p < 8) && s.cfg Reg.lcuFeclim 23 0 < r.fecHigh))) :
    (s.noteScan l p r).laneOf l = { s.laneOf l with
      lane := l, eyeH := satAt 255 r.height, eyeW := satAt 255 r.width
      below := if low = true then satAt 15 ((s.laneOf l).below + 1) else 0, warn := s.warnScan p r, scanning := false } := by
  subst h
  exact (s.laneOf_putLane _ l).trans (if_pos rfl)

/-! ## Identities move (R532) -/

/-- What is announced of an identity moves none. -/
theorem State.announceIdent_identPort (s : State) (i p j : Nat) : (s.announceIdent i p).identPort j = s.identPort j := by
  have h : (s.announceIdent i p).tk.idents = s.tk.idents := by
    unfold State.announceIdent
    dsimp only
    refine foldl_frame (g := fun t : State => t.tk.idents) ?_ _ s
    exact fun t a => rfl
  simp only [State.identPort, State.announceIdent_pwr, h]

/-- An identity that moves is carried by its new port, and the others by theirs. -/
theorem State.identPort_moveIdent (s : State) (i p j : Nat) :
    (s.moveIdent i p).identPort j = if j = i then p else s.identPort j := by
  unfold State.moveIdent
  dsimp only
  split
  · next h =>
    split
    · next hj => rw [hj, h]
    · rfl
  · rw [State.announceIdent_identPort]
    by_cases hi : i < 4 <;> by_cases hj : j < 4
    · simp only [State.identPort, State.updHce_pwr, hi, hj, if_true]
      by_cases hp : i = p
      · rw [if_pos hp]
        split
        · next h => rw [h, find_filter_ne Prod.fst]; simp; omega
        · next h => rw [find_filter_ne_other Prod.fst _ h]
      · rw [if_neg hp, find_filter_append Prod.fst s.pwr.idents (i, p)]
        split <;> rfl
    · simp only [State.identPort, State.updHce_tk, hi, hj, if_true, if_false]
      rw [if_neg (by omega)]
    · simp only [State.identPort, State.updHce_pwr, State.updTk_pwr, hi, hj, if_true, if_false]
      rw [if_neg (by omega)]
    · simp only [State.identPort, State.updHce_tk, State.updTk_tk, hi, hj, if_false]
      rw [find_filter_append Prod.fst s.tk.idents (i, p)]
      split <;> rfl

/-- All identities of a list move to a port. -/
theorem State.identPort_moveAll (p : Nat) (l : List Nat) :
    ∀ {s : State} {j : Nat}, (j ∈ l ∨ s.identPort j = p) → (l.foldl (fun t i => t.moveIdent i p) s).identPort j = p := by
  induction l with
  | nil => exact fun h => h.resolve_left List.not_mem_nil
  | cons i l ih =>
    intro s j h
    refine ih ?_
    rw [State.identPort_moveIdent]
    by_cases hj : j = i
    · exact .inr (if_pos hj)
    · rw [if_neg hj]
      exact h.imp_left fun hm => (List.mem_cons.mp hm).resolve_left hj

/-! ## A retrain starts or is deferred (R531, R532, R535) -/

theorem State.sendStatus_lcu (s : State) : s.sendStatus.lcu = s.lcu :=
  (Kept.sendStatus (uu := { xbr := true, out := true }) (.refl s) rfl rfl).only.lcu.resolve_left Bool.false_ne_true

/-- A drive port's retrain is on record (R537). -/
theorem State.beginDpRun_lcu (s : State) (p : Nat) : (s.beginDpRun p).lcu = { s.lcu with dpRun := some p } := by
  refine foldl_frame (g := fun t : State => t.lcu) (fun t e => ?_) _ _
  rw [State.reask_lcu, State.updRing_lcu]

/-- A host port's retrain starts with the re-learn wait, its identities moved (R532). -/
theorem State.beginRetrain_host {s : State} {p q : Nat} (hp : p < 4) (ht : s.rtTarget p = some q) (b : Bool) :
    s.beginRetrain p b = (s.identsOn p).foldl (fun t i => t.moveIdent i q) (s.updLcu fun l => { l with
      defer := dropNat l.defer p, retrains := l.retrains ++ [⟨p, q, .relearn, some (s.now + ms 5), b⟩] }) := by
  have h8 : ¬8 ≤ p := by omega
  have h0 : ∀ f, (s.updLcu f).rtTarget p = some q := fun f => ht
  unfold State.beginRetrain
  simp only [if_pos hp, if_neg h8, h0]
  rfl

theorem State.beginRetrain_host_spec {s : State} {p q : Nat} (hp : p < 4) (ht : s.rtTarget p = some q) (b : Bool) :
    (s.beginRetrain p b).lcu = { s.lcu with
      defer := dropNat s.lcu.defer p, retrains := s.lcu.retrains ++ [⟨p, q, .relearn, some (s.now + ms 5), b⟩] } ∧
    ∀ i ∈ s.identsOn p, (s.beginRetrain p b).identPort i = q := by
  rw [State.beginRetrain_host hp ht b]
  exact ⟨foldl_frame (g := fun t : State => t.lcu) (fun t i => t.moveIdent_lcu i q) _ _,
    fun i hi => State.identPort_moveAll q _ (.inl hi)⟩

/-- A fabric port's retrain, where another port takes over its routes, starts with their move (R535). -/
theorem State.beginRetrain_fabric_lcu {s : State} {p : Nat} (h4 : 4 ≤ p) (h8 : p < 8)
    (hm : (hasNat (Config.midplane s.part) (p - 4) && (Config.midplane s.part).length = 1) = false) (b : Bool) :
    (s.beginRetrain p b).lcu = { s.lcu with
      defer := dropNat s.lcu.defer p, retrains := s.lcu.retrains ++ [⟨p, p, .routeMove, some (s.now + ms 1), b⟩] } := by
  unfold State.beginRetrain
  simp only [if_neg (Nat.not_lt.mpr h4), if_pos h8, if_neg (Nat.not_le.mpr h8)]
  rw [if_neg (by simp [hm]), State.sendLsa_lcu]
  rfl

theorem State.deferRetrain_lcu {s : State} {p : Nat} (h8 : p < 8) :
    (s.deferRetrain p).lcu = { s.lcu with defer := if hasNat s.lcu.defer p = true then s.lcu.defer else s.lcu.defer ++ [p] } := by
  unfold State.deferRetrain
  rw [if_pos h8]
  split <;> rfl

/-- Every part has the counters of live calibration. -/
theorem absentBits_lcu (p : Part) : ∀ a ∈ [Reg.lcuDefers, Reg.lcuRetrains, Reg.lcuDpretrain, Reg.lcuHbmrt],
    absentBits p a = 0#32 := by
  cases p <;> decide

/-- A retrain that is deferred anew is counted (R531). -/
theorem State.deferRetrain_counts {s : State} (hi : s.Inv) {p : Nat} (h8 : p < 8) (hn : hasNat s.lcu.defer p = false) :
    ((s.deferRetrain p).reg Reg.lcuDefers).toNat = satAt 0xFFFFFFFF ((s.reg Reg.lcuDefers).toNat + 1) := by
  unfold State.deferRetrain
  rw [if_pos h8, if_neg (by simp [hn])]
  exact State.toNat_reg_bump hi (absentBits_lcu s.part _ (by decide))

/-! ## A port is judged after a scan (R530, R531, R571) -/

/-- No lane of the port has been low often enough for a retrain, or none is to start by itself (R530). -/
def State.Unwanted (s : State) (p : Nat) : Prop :=
  s.cfgBit Reg.lcuSdcfg 30 = false ∨ ∀ k ∈ portLanes p, (s.laneOf k).below < s.cfg Reg.lcuSdcfg 11 8

theorem State.judgePort_unwanted {s : State} {p : Nat} (h : s.Unwanted p) :
    (s.judgePort p).lcu.retrains = s.lcu.retrains ∧ (s.judgePort p).lcu.defer = dropNat s.lcu.defer p := by
  have hw : (s.cfgBit Reg.lcuSdcfg 30 && (portLanes p).any (fun l => s.cfg Reg.lcuSdcfg 11 8 ≤ (s.laneOf l).below)) = false := by
    rcases h with h | h
    · rw [h, Bool.false_and]
    · rw [List.any_eq_false.mpr fun k hk => by simpa using h k hk, Bool.and_false]
  unfold State.judgePort
  rw [hw]
  exact ⟨rfl, rfl⟩

section
variable {s : State} {p k : Nat} (hc : s.cfgBit Reg.lcuSdcfg 30 = true) (hk : k ∈ portLanes p)
  (hb : s.cfg Reg.lcuSdcfg 11 8 ≤ (s.laneOf k).below) (ht : s.testedPort ≠ some p) (hr : s.rtBusy p = false)
include hc hk hb ht hr

/-- A retrain that is wanted starts where the conditions hold, and is deferred else. -/
theorem State.judgePort_wanted : s.judgePort p = if s.rtOk p = true then s.beginRetrain p false else s.deferRetrain p := by
  have hw : (portLanes p).any (fun l => s.cfg Reg.lcuSdcfg 11 8 ≤ (s.laneOf l).below) = true :=
    List.any_eq_true.mpr ⟨k, hk, by simpa using hb⟩
  unfold State.judgePort
  simp only [hc, hw, Bool.and_self, Bool.not_true, Bool.false_eq_true, if_false, if_neg ht, hr]

end

/-- A retrain that starts leaves the lanes as they are. -/
theorem State.beginRetrain_lanes (s : State) (p : Nat) (b : Bool) : (s.beginRetrain p b).lcu.lanes = s.lcu.lanes := by
  unfold State.beginRetrain
  dsimp only
  split
  · split
    · rfl
    · rw [foldl_frame (g := fun t : State => t.lcu) (fun t i => t.moveIdent_lcu i _)]
      rfl
  · split
    · split
      · rw [State.sendStatus_lcu]
        rfl
      · rw [State.sendLsa_lcu]
        rfl
    · rw [State.beginDpRun_lcu]
      rfl

theorem State.judgePort_lanes (s : State) (p : Nat) : (s.judgePort p).lcu.lanes = s.lcu.lanes := by
  unfold State.judgePort
  dsimp only
  split
  · rfl
  · have hd : (s.deferRetrain p).lcu.lanes = s.lcu.lanes := by
      unfold State.deferRetrain
      split_ifs <;> rfl
    split_ifs
    · exact hd
    · rfl
    · exact s.beginRetrain_lanes p false
    · exact hd

/-! ## MARGIN_SCAN_COMPLETE (R528 to R531) -/

theorem marginScanComplete_lapses {s : State} {l : Nat} (h : lanePort l = none ∨ (s.laneOf l).scanning = false) (r : ScanResult) :
    exec (.marginScanComplete l r) s = .next s := by
  rw [exec_marginScanComplete, execMarginScanComplete]
  cases hp : lanePort l with
  | none => rfl
  | some p =>
    have hs : (s.laneOf l).scanning = false := h.resolve_left (by rw [hp]; exact Option.some_ne_none p)
    exact if_pos (by simp [hs])

section
variable {s : State} {l p : Nat} {r : ScanResult} (hp : lanePort l = some p) (hs : (s.laneOf l).scanning = true)
include hp hs

theorem marginScanComplete_cut (hl : s.linkUp p = false) : Gives (.marginScanComplete l r) s fun t =>
    t.laneOf l = { s.laneOf l with scanning := false } ∧ t.lcu.retrains = s.lcu.retrains := by
  refine ⟨s.putLane { s.laneOf l with scanning := false }, ?_, ?_, rfl⟩
  · rw [exec_marginScanComplete, execMarginScanComplete, hp]
    exact (if_neg (by simp [hs])).trans (if_pos (by simp [hl]))
  · rw [State.laneOf_putLane, if_pos (s.laneOf_lane l).symm]

theorem exec_marginScanComplete_judges (hl : s.linkUp p = true) :
    exec (.marginScanComplete l r) s = .next ((s.noteScan l p r).judgePort p) := by
  rw [exec_marginScanComplete, execMarginScanComplete, hp]
  exact (if_neg (by simp [hs])).trans (if_neg (by simp [hl]))

theorem marginScanComplete_lanes (hl : s.linkUp p = true) : Gives (.marginScanComplete l r) s fun t =>
    t.lcu.lanes = (s.noteScan l p r).lcu.lanes :=
  ⟨_, exec_marginScanComplete_judges hp hs hl, State.judgePort_lanes ..⟩

theorem marginScanComplete_unwanted (hl : s.linkUp p = true) (h : (s.noteScan l p r).Unwanted p) :
    Gives (.marginScanComplete l r) s fun t =>
      t.lcu.retrains = s.lcu.retrains ∧ t.lcu.defer = dropNat s.lcu.defer p :=
  ⟨_, exec_marginScanComplete_judges hp hs hl, State.judgePort_unwanted h⟩

section
variable {k : Nat} (hl : s.linkUp p = true) (hc : s.cfgBit Reg.lcuSdcfg 30 = true) (hk : k ∈ portLanes p)
  (hb : s.cfg Reg.lcuSdcfg 11 8 ≤ ((s.noteScan l p r).laneOf k).below) (ht : s.testedPort ≠ some p) (hr : s.rtBusy p = false)
include hl hc hk hb ht hr

/-- What a wanted retrain hangs on, the lanes have no part in. -/
theorem exec_marginScanComplete_wanted : exec (.marginScanComplete l r) s = .next
    (if s.rtOk p = true then (s.noteScan l p r).beginRetrain p false else (s.noteScan l p r).deferRetrain p) :=
  (exec_marginScanComplete_judges hp hs hl).trans
    (congrArg _ (State.judgePort_wanted (s := s.noteScan l p r) hc hk hb ht hr))

theorem marginScanComplete_defers (ho : s.rtOk p = false) (h8 : p < 8) (hn : hasNat s.lcu.defer p = false) :
    Gives (.marginScanComplete l r) s fun t =>
      t.lcu = { (s.noteScan l p r).lcu with defer := s.lcu.defer ++ [p] } ∧
      (s.Inv → (t.reg Reg.lcuDefers).toNat = satAt 0xFFFFFFFF ((s.reg Reg.lcuDefers).toNat + 1)) := by
  refine ⟨_, exec_marginScanComplete_wanted hp hs hl hc hk hb ht hr, ?_⟩
  rw [if_neg (by simp [ho])]
  have hn' : hasNat (s.noteScan l p r).lcu.defer p = false := hn
  refine ⟨?_, fun hi => ?_⟩
  · rw [State.deferRetrain_lcu h8, hn']
    rfl
  · exact State.deferRetrain_counts ((Kept.noteScan (uu := { lcu := true }) l p r (.refl s) rfl).inv hi) h8 hn'

theorem marginScanComplete_host {q : Nat} (ho : s.rtOk p = true) (h4 : p < 4) (hq : s.rtTarget p = some q) :
    Gives (.marginScanComplete l r) s fun t =>
      t.lcu = { (s.noteScan l p r).lcu with
        defer := dropNat s.lcu.defer p, retrains := s.lcu.retrains ++ [⟨p, q, .relearn, some (s.now + ms 5), false⟩] } ∧
      ∀ i ∈ s.identsOn p, t.identPort i = q := by
  refine ⟨_, exec_marginScanComplete_wanted hp hs hl hc hk hb ht hr, ?_⟩
  rw [if_pos ho]
  exact State.beginRetrain_host_spec (s := s.noteScan l p r) h4 hq false

theorem marginScanComplete_fabric (ho : s.rtOk p = true) (h4 : 4 ≤ p) (h8 : p < 8)
    (hm : hasNat (Config.midplane s.part) (p - 4) = false) : Gives (.marginScanComplete l r) s fun t =>
      t.lcu = { (s.noteScan l p r).lcu with
        defer := dropNat s.lcu.defer p, retrains := s.lcu.retrains ++ [⟨p, p, .routeMove, some (s.now + ms 1), false⟩] } := by
  refine ⟨_, exec_marginScanComplete_wanted hp hs hl hc hk hb ht hr, ?_⟩
  rw [if_pos ho]
  refine State.beginRetrain_fabric_lcu (s := s.noteScan l p r) h4 h8 ?_ false
  exact (congrArg (· && _) hm).trans (Bool.false_and _)

end

end

end Sys2Proof.Machine
end

section
/-! PROOFS. The phases of a port retrain (R532, R535, R536), its check, parked ports and the end of a drive port's retrain (R533, R537;
LCU.RETRAINS log 58). -/

namespace Sys2Proof.Machine

/-! ## From the re-learn wait to the training (R532, R535) -/

theorem relearnWaitExpiry_lapses {s : State}
    (h : s.lcu.retrains.find? (fun r => r.phase = .relearn && due r.deadline s.now) = none) :
    exec .relearnWaitExpiry s = .next s := by
  rw [exec_relearnWaitExpiry, execRelearnWaitExpiry, h]

theorem relearnWaitExpiry_drains {s : State} {r : Retrain}
    (h : s.lcu.retrains.find? (fun r => r.phase = .relearn && due r.deadline s.now) = some r) :
    exec .relearnWaitExpiry s = .next { s with lcu := { s.lcu with
      retrains := updWhere (fun x => x.port = r.port) (fun x => { x with phase := .draining, deadline := none }) s.lcu.retrains } } := by
  rw [exec_relearnWaitExpiry, execRelearnWaitExpiry, h]
  rfl

@[simp] theorem State.testRuns_lcu (s : State) (r : Retrain) : (s.testRuns r).lcu = s.lcu := by
  unfold State.testRuns
  split <;> rfl

@[simp] theorem State.testRuns_mac (s : State) (r : Retrain) : (s.testRuns r).mac = s.mac := by
  unfold State.testRuns
  split <;> rfl

@[simp] theorem State.testRuns_fabPort (s : State) (r : Retrain) (p : Nat) : (s.testRuns r).fabPort p = s.fabPort p := by
  unfold State.testRuns
  split <;> rfl

/-- The run of a port's test begins once its traffic has moved (R573). -/
theorem State.testRuns_tst (s : State) (r : Retrain) : (s.testRuns r).tst =
    if r.forTest = true then { s.tst with live := s.tst.live.map (fun l => { l with moving := false }) } else s.tst := by
  unfold State.testRuns
  split <;> rfl

theorem egressDrained_lapses {s : State}
    (h : s.lcu.retrains.find? (fun r => r.phase = .draining && (s.egPort r.port).queue.isEmpty) = none) :
    exec .egressDrained s = .next s := by
  rw [exec_egressDrained, execEgressDrained, h]

theorem egressDrained_trains {s : State} {r : Retrain}
    (h : s.lcu.retrains.find? (fun r => r.phase = .draining && (s.egPort r.port).queue.isEmpty) = some r) :
    Gives .egressDrained s fun t => t.mac = { s.mac with hostUp := dropNat s.mac.hostUp r.port } ∧
      t.lcu = { s.lcu with retrains := updWhere (fun x => x.port = r.port) (fun x => { x with phase := .training }) s.lcu.retrains } ∧
      (r.forTest = true → t.tst.live = s.tst.live.map (fun l => { l with moving := false })) ∧
      (r.forTest = false → t.tst = s.tst) := by
  unfold Gives
  rw [exec_egressDrained, execEgressDrained, h]
  refine ⟨_, rfl, State.testRuns_mac .., State.testRuns_lcu .., fun hr => ?_, fun hr => ?_⟩
  · rw [State.testRuns_tst, if_pos hr]
    rfl
  · rw [State.testRuns_tst, if_neg (by simp [hr])]
    rfl

theorem State.portDown_of_down {s : State} {p : Nat} (h : (s.fabPort p).up = false) : s.portDown p = s := if_pos (by simp [h])

theorem routeMoveWait_lapses {s : State}
    (h : s.lcu.retrains.find? (fun r => r.phase = .routeMove && due r.deadline s.now) = none) :
    exec .routeMoveWait s = .next s := by
  rw [exec_routeMoveWait, execRouteMoveWait, h]

section
variable {s : State} {r : Retrain} (h : s.lcu.retrains.find? (fun r => r.phase = .routeMove && due r.deadline s.now) = some r)
include h

theorem routeMoveWait_link_down (hi : s.Inv) (h8 : r.port < 8) :
    Gives .routeMoveWait s fun t => (t.fabPort (r.port - 4)).pcs = false := by
  unfold Gives
  rw [exec_routeMoveWait, execRouteMoveWait, h]
  refine ⟨_, rfl, ?_⟩
  have h1 : (s.updRetrain r.port (fun x => { x with phase := .training, deadline := none })).Inv :=
    (Kept.updRetrain (uu := { lcu := true }) _ _ (.refl s) rfl).inv hi
  dsimp only
  rw [State.testRuns_fabPort, State.fabPort_setFabPort]
  rw [((State.portDown_kept ..).inv h1).counts.fabPorts]
  omega

theorem routeMoveWait_trains (hu : (s.fabPort (r.port - 4)).up = false) : Gives .routeMoveWait s fun t =>
    t.lcu = { s.lcu with
      retrains := updWhere (fun x => x.port = r.port) (fun x => { x with phase := .training, deadline := none }) s.lcu.retrains } := by
  unfold Gives
  rw [exec_routeMoveWait, execRouteMoveWait, h]
  refine ⟨_, rfl, (State.testRuns_lcu ..).trans ?_⟩
  rw [State.setFabPort_lcu,
    State.portDown_of_down (s := s.updRetrain r.port fun x => { x with phase := .training, deadline := none }) hu]
  rfl

end

/-! ## A notice that finds no acknowledgement (R536, R571) -/

theorem State.cancelRetrain_tst (s : State) (r : Retrain) : (s.cancelRetrain r).tst = s.tst :=
  (Kept.cancelRetrain (uu := { hce := true, rfx := true, tk := true, xbr := true, pwr := true, lcu := true, out := true }) r
    (.refl s) rfl rfl rfl rfl rfl rfl rfl).only.tst.resolve_left Bool.false_ne_true

theorem State.stopLive_none {s : State} (h : s.tst.live = none) (n : Nat) : s.stopLive n = s := by
  unfold State.stopLive
  rw [h]

/-- A live test that stops leaves its record (R571, R572). -/
theorem State.stopLive_tst {s : State} {l : LiveTest} (h : s.tst.live = some l) (n : Nat) : (s.stopLive n).tst =
    (({ s with tst := { s.tst with live := none, pieces := 0, errors := 0, firstBad := 0 } } : State).putResult
      ⟨l.test, l.unit, n, 0, if l.test = 7 then s.tst.errors else 0, 0, (s.now - l.start) / 1000⟩).tst := by
  unfold State.stopLive
  rw [h]
  dsimp only
  split
  · split
    · split
      · exact State.cancelRetrain_tst ..
      · rfl
    · rfl
  · split_ifs <;> rfl

theorem State.stopLive_live (s : State) (n : Nat) : (s.stopLive n).tst.live = none := by
  cases h : s.tst.live with
  | none => rw [State.stopLive_none h, h]
  | some l =>
    rw [State.stopLive_tst h]
    rfl

theorem retrainNoticeTimeout_lapses {s : State}
    (h : s.lcu.retrains.find? (fun r => r.phase = .notice && due r.deadline s.now) = none) :
    exec .retrainNoticeTimeout s = .next s := by
  rw [exec_retrainNoticeTimeout, execRetrainNoticeTimeout, h]

section
variable {s : State} {r : Retrain} (h : s.lcu.retrains.find? (fun r => r.phase = .notice && due r.deadline s.now) = some r)
include h

theorem retrainNoticeTimeout_defers (h8 : r.port < 8) (hr : r.forTest = false) : Gives .retrainNoticeTimeout s fun t =>
    t.lcu = { s.lcu with
      retrains := s.lcu.retrains.filter (fun x => x.port ≠ r.port)
      defer := if hasNat s.lcu.defer r.port = true then s.lcu.defer else s.lcu.defer ++ [r.port] } := by
  unfold Gives
  rw [exec_retrainNoticeTimeout, execRetrainNoticeTimeout, h]
  refine ⟨_, rfl, ?_⟩
  dsimp only
  rw [hr, if_neg Bool.false_ne_true, State.deferRetrain_lcu h8, State.abortIfTest, hr, if_neg Bool.false_ne_true]
  rfl

theorem retrainNoticeTimeout_aborts (hr : r.forTest = true) : Gives .retrainNoticeTimeout s fun t =>
    t.tst.live = none ∧ ∀ x ∈ t.lcu.retrains, x.port ≠ r.port := by
  unfold Gives
  rw [exec_retrainNoticeTimeout, execRetrainNoticeTimeout, h]
  refine ⟨_, rfl, ?_⟩
  rw [if_pos hr, State.abortIfTest, if_pos hr]
  exact ⟨s.stopLive_live 5, fun x hx => by simpa using (List.mem_filter.mp hx).2⟩

end

/-! ## The end of a retrain (R532 step 6, R533, R536) -/

theorem State.portUp_lcu (s : State) (p : Nat) : (s.portUp p).lcu = s.lcu :=
  (Kept.portUp (uu := { hce := true, rfx := true, tk := true, xbr := true, out := true }) p
    (.refl s) rfl rfl rfl rfl rfl).only.lcu.resolve_left Bool.false_ne_true

theorem State.joinPeer_lcu (s : State) : s.joinPeer.lcu = s.lcu :=
  (Kept.joinPeer (uu := { hce := true, rge := true, rfx := true, vsm := true, kvt := true, mbx := true, xbr := true, pmu := true
                          moved := true, out := true })
    (.refl s) rfl rfl rfl rfl rfl rfl rfl rfl rfl rfl).only.lcu.resolve_left Bool.false_ne_true

theorem State.endRetrain_tst (s : State) (r : Retrain) (ok : Bool) : (s.endRetrain r ok).tst = s.tst :=
  (Kept.endRetrain (uu := { hce := true, rge := true, rfx := true, tk := true, vsm := true, kvt := true, mbx := true, xbr := true
                            pwr := true, lcu := true, pmu := true, mac := true, moved := true, out := true })
    r ok (.refl s) rfl rfl rfl rfl rfl rfl rfl rfl rfl rfl rfl rfl rfl rfl).only.tst.resolve_left Bool.false_ne_true

/-- The state in which a port whose check has passed goes back into service (R532 step 6). -/
def State.retrained (s : State) (r : Retrain) : State :=
  let s1 := s.updLcu (fun l => { l with
    retrains := l.retrains.filter (fun x => x.port ≠ r.port), parked := l.parked.filter (fun x => x.1 ≠ r.port) })
  if r.forTest then s1 else s1.bump Reg.lcuRetrains

theorem State.retrained_lcu (s : State) (r : Retrain) : (s.retrained r).lcu = { s.lcu with
    retrains := s.lcu.retrains.filter (fun x => x.port ≠ r.port), parked := s.lcu.parked.filter (fun x => x.1 ≠ r.port) } := by
  unfold State.retrained
  dsimp only
  split <;> rfl

theorem State.retrained_rest (s : State) (r : Retrain) : (s.retrained r).mac = s.mac ∧ (s.retrained r).rfx = s.rfx := by
  unfold State.retrained
  dsimp only
  split <;> exact ⟨rfl, rfl⟩

/-- A retrain of the module's own is counted (log 58). -/
theorem State.retrained_counts {s : State} (hi : s.Inv) {r : Retrain} (hr : r.forTest = false) :
    ((s.retrained r).reg Reg.lcuRetrains).toNat = satAt 0xFFFFFFFF ((s.reg Reg.lcuRetrains).toNat + 1) := by
  unfold State.retrained
  dsimp only
  rw [hr, if_neg Bool.false_ne_true]
  exact State.toNat_reg_bump hi (absentBits_lcu s.part _ (by decide))

/-- An identity comes back to its host port (R532). -/
def State.identBack (s : State) (p i : Nat) : State :=
  if s.identPort i ≠ p && (i < 4 || s.tk.idents.any (fun e => e.1 = i)) then s.moveIdent i p else s

theorem State.identBack_frame (s : State) (p i : Nat) : (s.identBack p i).mac = s.mac ∧ (s.identBack p i).lcu = s.lcu ∧
    ∀ a, (s.identBack p i).reg a = s.reg a := by
  unfold State.identBack
  split
  · exact ⟨State.moveIdent_mac .., State.moveIdent_lcu .., fun a => State.moveIdent_reg ..⟩
  · exact ⟨rfl, rfl, fun _ => rfl⟩

/-- A port's own identity is back on it. -/
theorem State.identBack_own {s : State} {p : Nat} (hp : p < 4) : (s.identBack p p).identPort p = p := by
  unfold State.identBack
  split
  · rw [State.identPort_moveIdent, if_pos rfl]
  · next h => simpa [hp] using h

theorem State.identBack_other {s : State} {p i j : Nat} (h : j ≠ i) : (s.identBack p i).identPort j = s.identPort j := by
  unfold State.identBack
  split
  · rw [State.identPort_moveIdent, if_neg h]
  · rfl

theorem State.endRetrain_host {s : State} {r : Retrain} (h4 : r.port < 4) : s.endRetrain r true =
    ((State.updMac (s.retrained r) fun m => { m with hostUp := addNat m.hostUp r.port }).identBack r.port r.port).identBack
      r.port (4 + r.port) := by
  unfold State.endRetrain
  exact if_pos h4

theorem State.endRetrain_fabric {s : State} {r : Retrain} (h4 : 4 ≤ r.port) : s.endRetrain r true =
    let t := (s.retrained r).setFabPort (r.port - 4) (fun x => { x with pcs := true })
    if (s.lcu.exempt && hasNat (Config.midplane s.part) (r.port - 4)) = true then
      let u := (t.portUp (r.port - 4)).updLcu (fun l => { l with exempt := false })
      if u.rfx.peer.joined then u.joinPeer else u
    else t := by
  unfold State.endRetrain
  exact if_neg (Nat.not_lt.mpr h4)

/-- A port whose retrain is over retrains no more, and is parked unless its check has passed. -/
theorem State.endRetrain_lcu (s : State) (r : Retrain) (ok : Bool) :
    (s.endRetrain r ok).lcu.retrains = s.lcu.retrains.filter (fun x => x.port ≠ r.port) ∧
      (s.endRetrain r ok).lcu.parked =
        s.lcu.parked.filter (fun x => x.1 ≠ r.port) ++ (if ok = true then [] else [(r.port, s.now + sec 600)]) := by
  cases ok with
  | false => exact ⟨rfl, rfl⟩
  | true =>
    rw [if_pos rfl, List.append_nil]
    by_cases h4 : r.port < 4
    · rw [State.endRetrain_host h4, (State.identBack_frame ..).2.1, (State.identBack_frame ..).2.1, State.updMac_lcu,
        State.retrained_lcu]
      exact ⟨rfl, rfl⟩
    · rw [State.endRetrain_fabric (Nat.not_lt.mp h4)]
      dsimp only
      split
      · split
        · rw [State.joinPeer_lcu, State.updLcu_lcu, State.portUp_lcu, State.setFabPort_lcu, State.retrained_lcu]
          exact ⟨rfl, rfl⟩
        · rw [State.updLcu_lcu, State.portUp_lcu, State.setFabPort_lcu, State.retrained_lcu]
          exact ⟨rfl, rfl⟩
      · rw [State.setFabPort_lcu, State.retrained_lcu]
        exact ⟨rfl, rfl⟩

/-- A host port that serves again has its own identity back (R532). -/
theorem State.endRetrain_host_serves {s : State} {r : Retrain} (h4 : r.port < 4) :
    (s.endRetrain r true).mac = { s.mac with hostUp := addNat s.mac.hostUp r.port } ∧
      (s.endRetrain r true).identPort r.port = r.port ∧
      ∀ a, (s.endRetrain r true).reg a = (s.retrained r).reg a := by
  rw [State.endRetrain_host h4]
  refine ⟨?_, ?_, fun a => ?_⟩
  · rw [(State.identBack_frame ..).1, (State.identBack_frame ..).1, State.updMac_mac, (s.retrained_rest r).1]
  · rw [State.identBack_other (by omega), State.identBack_own h4]
  · rw [(State.identBack_frame ..).2.2, (State.identBack_frame ..).2.2]
    rfl

theorem State.endRetrain_fabric_serves {s : State} {r : Retrain} (hi : s.Inv) (h4 : 4 ≤ r.port) (h8 : r.port < 8)
    (he : s.lcu.exempt = false) :
    (s.endRetrain r true).fabPort (r.port - 4) = { s.fabPort (r.port - 4) with pcs := true } := by
  have hl : r.port - 4 < (s.retrained r).rfx.ports.length := by
    rw [(s.retrained_rest r).2, hi.counts.fabPorts]
    omega
  rw [State.endRetrain_fabric h4]
  dsimp only
  rw [he, Bool.false_and, if_neg Bool.false_ne_true, State.fabPort_setFabPort hl, State.fabPort, (s.retrained_rest r).2,
    ← State.fabPort]

/-! ## RETRAIN_CHECK (R532, R533) -/

/-- The scans of the check change the lanes and nothing else. -/
theorem State.noteScans_lanes (s : State) (p : Nat) (l : List ScanResult) :
    ∃ ls, s.noteScans p l = s.updLcu fun c => { c with lanes := ls } := by
  unfold State.noteScans
  refine List.foldlRecOn (motive := fun t => ∃ ls, t = s.updLcu fun c => { c with lanes := ls }) _ _ ⟨s.lcu.lanes, rfl⟩ ?_
  rintro t ⟨ls, rfl⟩ e -
  exact ⟨_, rfl⟩

theorem State.Inv.withLanes {s : State} (hi : s.Inv) (ls : List LaneSt) : (s.updLcu fun c => { c with lanes := ls }).Inv :=
  (Kept.updLcu (uu := { lcu := true }) _ (fun _ => { lcuU := .inl rfl }) (.refl s) rfl).inv hi

theorem retrainCheck_lapses {s : State} {l : List ScanResult} (h : s.lcu.retrains.find? (fun r : Retrain =>
    decide (r.phase = .training) && !r.forTest && decide ((portLanes r.port).length = l.length)) = none) :
    exec (.retrainCheck l) s = .next s := by
  rw [exec_retrainCheck, execRetrainCheck, h]

section
variable {s : State} {l : List ScanResult} {r : Retrain} (h : s.lcu.retrains.find? (fun r : Retrain =>
    decide (r.phase = .training) && !r.forTest && decide ((portLanes r.port).length = l.length)) = some r)
include h

theorem exec_retrainCheck_ends : exec (.retrainCheck l) s =
    .next ((s.noteScans r.port l).endRetrain r (l.all fun x => !s.lowScan r.port x)) := by
  rw [exec_retrainCheck, execRetrainCheck, h]

theorem retrainCheck_parks (hl : ∃ x ∈ l, s.lowScan r.port x = true) : Gives (.retrainCheck l) s fun t => t.mac = s.mac ∧
    t.lcu.retrains = s.lcu.retrains.filter (fun x => x.port ≠ r.port) ∧
    t.lcu.parked = s.lcu.parked.filter (fun x => x.1 ≠ r.port) ++ [(r.port, s.now + sec 600)] := by
  obtain ⟨x, hx, hlow⟩ := hl
  obtain ⟨ls, hls⟩ := s.noteScans_lanes r.port l
  have hall : (l.all fun x => !s.lowScan r.port x) = false := List.all_eq_false.mpr ⟨x, hx, by simp [hlow]⟩
  refine ⟨_, exec_retrainCheck_ends h, ?_⟩
  rw [hall, hls]
  exact ⟨rfl, rfl, rfl⟩

section
variable (hl : ∀ x ∈ l, s.lowScan r.port x = false)
include hl

theorem exec_retrainCheck_passes :
    ∃ ls, exec (.retrainCheck l) s = .next ((s.updLcu fun c => { c with lanes := ls }).endRetrain r true) := by
  obtain ⟨ls, hls⟩ := s.noteScans_lanes r.port l
  have hall : (l.all fun x => !s.lowScan r.port x) = true := List.all_eq_true.mpr fun x hx => by simp [hl x hx]
  exact ⟨ls, by rw [exec_retrainCheck_ends h, hall, hls]⟩

theorem retrainCheck_serves : Gives (.retrainCheck l) s fun t =>
    t.lcu.retrains = s.lcu.retrains.filter (fun x => x.port ≠ r.port) ∧
    t.lcu.parked = s.lcu.parked.filter (fun x => x.1 ≠ r.port) := by
  obtain ⟨ls, he⟩ := exec_retrainCheck_passes h hl
  obtain ⟨hr, hp⟩ := State.endRetrain_lcu (s.updLcu fun c => { c with lanes := ls }) r true
  exact ⟨_, he, hr, hp.trans (List.append_nil _)⟩

theorem retrainCheck_host_serves (h4 : r.port < 4) : Gives (.retrainCheck l) s fun t =>
    t.mac = { s.mac with hostUp := addNat s.mac.hostUp r.port } ∧
    (s.Inv → (t.reg Reg.lcuRetrains).toNat = satAt 0xFFFFFFFF ((s.reg Reg.lcuRetrains).toNat + 1)) ∧
    t.identPort r.port = r.port := by
  obtain ⟨ls, he⟩ := exec_retrainCheck_passes h hl
  obtain ⟨hmac, hown, hreg⟩ := State.endRetrain_host_serves (s := s.updLcu fun c => { c with lanes := ls }) h4
  have ht : r.forTest = false := by
    have hf := List.find?_some h
    simp only [Bool.and_eq_true, Bool.not_eq_true'] at hf
    exact hf.1.2
  refine ⟨_, he, hmac, fun hi => ?_, hown⟩
  rw [hreg]
  exact State.retrained_counts (hi.withLanes ls) ht

theorem retrainCheck_fabric_serves (hi : s.Inv) (h4 : 4 ≤ r.port) (h8 : r.port < 8) (hx : s.lcu.exempt = false) :
    Gives (.retrainCheck l) s fun t => t.fabPort (r.port - 4) = { s.fabPort (r.port - 4) with pcs := true } := by
  obtain ⟨ls, he⟩ := exec_retrainCheck_passes h hl
  exact ⟨_, he, State.endRetrain_fabric_serves (hi.withLanes ls) h4 h8 hx⟩

end

end

/-! ## PARKED_RETRY, DRIVE_PORT_RETRAIN_END (R462, R533, R537) -/

theorem exec_parkedRetry_eq (s : State) (p : Nat) : exec (.parkedRetry p) s = .next
    (if s.lcu.parked.any (fun e => e.1 = p && e.2 ≤ s.now) = true ∧ (∀ r ∈ s.lcu.retrains, ¬ (r.port < 4 ↔ p < 4))
      then { s with lcu := { s.lcu with
        parked := updWhere (fun e => e.1 = p) (fun e => (e.1, s.now + sec 600)) s.lcu.parked
        retrains := s.lcu.retrains ++ [⟨p, s.identPort p, .training, none, false⟩] } }
      else s) := by
  rw [exec_parkedRetry, execParkedRetry, apply_ite Host.Outcome.next]
  refine if_congr ?_ rfl rfl
  simp

theorem drivePortRetrainEnd_lapses {s : State} {p : Nat} (h : s.lcu.dpRun ≠ some p ∨ s.testedPort = some (8 + p)) (b : Bool) :
    exec (.drivePortRetrainEnd p b) s = .next s := by
  rw [exec_drivePortRetrainEnd, execDrivePortRetrainEnd]
  exact if_pos (by simpa using h)

section
variable {s : State} {p : Nat} (hd : s.lcu.dpRun = some p) (ht : s.testedPort ≠ some (8 + p))
include hd ht

theorem exec_drivePortRetrainEnd_ends (b : Bool) : exec (.drivePortRetrainEnd p b) s =
    .next (if b = true then (s.bump Reg.lcuDpretrain).endDpRun p else (s.bump Reg.lcuDpretrain).train p) := by
  rw [exec_drivePortRetrainEnd, execDrivePortRetrainEnd]
  exact if_neg (by simp [hd, ht])

theorem drivePortRetrainEnd_back : Gives (.drivePortRetrainEnd p true) s fun t => t.lcu = { s.lcu with dpRun := none } :=
  ⟨_, exec_drivePortRetrainEnd_ends hd ht true, State.endDpRun_lcu (s := s.bump Reg.lcuDpretrain) hd⟩

theorem drivePortRetrainEnd_trains (hi : s.Inv) (hp : p < 24) : Gives (.drivePortRetrainEnd p false) s fun t =>
    t.lcu = s.lcu ∧ t.portOf p = { s.portOf p with
      train := .training, attempts := 1, trainEnd := some (s.now + ms 250), speed := 0, width := 0 } ∧
    (t.reg Reg.lcuDpretrain).toNat = satAt 0xFFFFFFFF ((s.reg Reg.lcuDpretrain).toNat + 1) :=
  ⟨_, (exec_drivePortRetrainEnd_ends hd ht false).trans (congrArg _ (if_neg Bool.false_ne_true)), rfl,
    State.portOf_setPort (by rw [State.bump_bay, hi.counts.drivePorts]; exact hp),
    State.toNat_reg_bump hi (absentBits_lcu s.part _ (by decide))⟩

end

end Sys2Proof.Machine
end

section
/-! PROOFS. HBM retraining (R538 to R540), current sensing and temperature sensors (R541 to R545; the 10 µV steps log 58), and the
statement of live calibration. -/

namespace Sys2Proof.Machine

/-! ## HBM_PASS (R538) -/

/-- The turn of a waiting stack changes neither the pseudo-channel in retraining nor those wanted at once. -/
theorem HbmCal.turn_pc (h : HbmCal) (now : Nat) : (h.turn now).pc = h.pc ∧ (h.turn now).urgent = h.urgent := by
  unfold HbmCal.turn
  split <;> exact ⟨rfl, rfl⟩

theorem HbmCal.turn_of_pass {h : HbmCal} {x : Nat × Nat} (hp : h.pass = some x) (now : Nat) : h.turn now = h := by
  simp only [HbmCal.turn, hp]

theorem HbmCal.turn_of_none {h : HbmCal} (hw : h.waiting = []) (now : Nat) : h.turn now = h := by
  unfold HbmCal.turn
  split
  · next hws => simp [hw] at hws
  · rfl

theorem hbmPass_not_served {s : State} {k : Nat}
    (h : s.pwr.up = false ∨ 4 ≤ k ∨ s.cfgBit Reg.lcuHbmcfg 31 = false ∨ hasNat s.pwr.shed k = true) (c : Int) :
    exec (.hbmPass k c) s = .next s := by
  rw [exec_hbmPass, execHbmPass]
  refine if_neg ?_
  rcases h with h | h | h | h
  case inr.inl => simp [Nat.not_lt.mpr h]
  all_goals simp [h]

theorem hbmPass_not_due {s : State} {k t : Nat} {c c0 : Int} (hl : s.lcu.hbm.lastPass.getD k none = some (t, c0))
    (ht : s.now < t + sec (s.cfg Reg.lcuHbmcfg 11 0)) (hc : (c - c0).natAbs < s.cfg Reg.lcuHbmcfg 20 16) :
    exec (.hbmPass k c) s = .next s := by
  rw [exec_hbmPass, execHbmPass, hl]
  exact if_neg (by simp [Nat.not_le.mpr ht, Nat.not_le.mpr hc])

/-- A stack whose interval is over, or whose temperature has moved, since its last pass (R538). -/
def State.PassDue (s : State) (k : Nat) (c : Int) : Prop := ∀ t c0, s.lcu.hbm.lastPass.getD k none = some (t, c0) →
  t + sec (s.cfg Reg.lcuHbmcfg 11 0) ≤ s.now ∨ s.cfg Reg.lcuHbmcfg 20 16 ≤ (c - c0).natAbs

section
variable {s : State} {k : Nat} {c : Int} (hu : s.pwr.up = true) (hk : k < 4) (he : s.cfgBit Reg.lcuHbmcfg 31 = true)
  (hs : hasNat s.pwr.shed k = false) (hd : s.PassDue k c)
include hu hk he hs hd

theorem hbmPass_due : Gives (.hbmPass k c) s fun t => t.lcu.hbm =
    ({ s.lcu.hbm with waiting := s.lcu.hbm.waiting.filter (fun w => w.1 ≠ k) ++ [(k, c)] } : HbmCal).turn s.now := by
  unfold Gives
  rw [exec_hbmPass, execHbmPass]
  refine ⟨_, if_pos ?_, rfl⟩
  cases hl : s.lcu.hbm.lastPass.getD k none with
  | none => simp [hu, hk, he, hs]
  | some x => simpa [hu, hk, he, hs] using hd x.1 x.2 hl

theorem hbmPass_starts (hp : s.lcu.hbm.pass = none) (hw : s.lcu.hbm.waiting = []) : Gives (.hbmPass k c) s fun t =>
    t.lcu.hbm = { s.lcu.hbm with pass := some (k, 0), lastPass := setAt s.lcu.hbm.lastPass k (some (s.now, c)) } := by
  obtain ⟨t, ht, hb⟩ := hbmPass_due hu hk he hs hd
  refine ⟨t, ht, hb.trans ?_⟩
  simp only [HbmCal.turn, HbmCal.start, hp, hw, List.filter_nil, List.nil_append]

theorem hbmPass_waits (hp : s.lcu.hbm.pass ≠ none) : Gives (.hbmPass k c) s fun t =>
    t.lcu.hbm = { s.lcu.hbm with waiting := s.lcu.hbm.waiting.filter (fun w => w.1 ≠ k) ++ [(k, c)] } := by
  obtain ⟨t, ht, hb⟩ := hbmPass_due hu hk he hs hd
  obtain ⟨x, hx⟩ := Option.ne_none_iff_exists'.mp hp
  exact ⟨t, ht, hb.trans (HbmCal.turn_of_pass (by exact hx) _)⟩

end

/-! ## HBM_SLICE, ECC_BURST (R539, R540) -/

theorem hbmSlice_next {s : State} (h : s.lcu.hbm.pc = none) {x : Option Nat × Option (Nat × Nat)} (hx : s.nextPc = x) :
    Gives .hbmSlice s fun t =>
      t.lcu.hbm = ({ s.lcu.hbm with pc := x.1.map (fun c => (c, 1)), pass := x.2 } : HbmCal).turn s.now := by
  subst hx
  unfold Gives
  rw [exec_hbmSlice, execHbmSlice, h]
  exact ⟨_, rfl, rfl⟩

theorem hbmSlice_urgent {s : State} {u : Nat} {us : List Nat} (h : s.lcu.hbm.pc = none) (hu : s.lcu.hbm.urgent = u :: us) :
    Gives .hbmSlice s fun t => t.lcu.hbm.pc = some (u, 1) ∧ t.lcu.hbm.urgent = s.lcu.hbm.urgent := by
  have hn : s.nextPc = (some u, s.lcu.hbm.pass) := by simp only [State.nextPc, hu]
  obtain ⟨t, ht, hb⟩ := hbmSlice_next h hn
  exact ⟨t, ht, by rw [hb, (HbmCal.turn_pc ..).1]; rfl, by rw [hb, (HbmCal.turn_pc ..).2]⟩

section
variable {s : State} {k ch : Nat} (h : s.lcu.hbm.pc = none) (hu : s.lcu.hbm.urgent = []) (hp : s.lcu.hbm.pass = some (k, ch))
include h hu hp

theorem hbmSlice_pass (hs : hasNat s.pwr.shed k = false) : Gives .hbmSlice s fun t =>
    t.lcu.hbm.pc = some (32 * k + ch, 1) ∧ (ch < 31 → t.lcu.hbm.pass = some (k, ch + 1)) := by
  have hn : s.nextPc = (some (32 * k + ch), if ch = 31 then none else some (k, ch + 1)) := by
    simp [State.nextPc, hu, hp, hs]
  obtain ⟨t, ht, hb⟩ := hbmSlice_next h hn
  refine ⟨t, ht, by rw [hb, (HbmCal.turn_pc ..).1]; rfl, fun hlt => ?_⟩
  rw [if_neg (Nat.ne_of_lt hlt), HbmCal.turn_of_pass rfl] at hb
  rw [hb]

/-- The pass of a stack that is shed is abandoned (R540). -/
theorem hbmSlice_shed (hs : hasNat s.pwr.shed k = true) : Gives .hbmSlice s fun t =>
    t.lcu.hbm.pc = none ∧ (s.lcu.hbm.waiting = [] → t.lcu.hbm.pass = none) := by
  have hn : s.nextPc = (none, none) := by simp [State.nextPc, hu, hp, hs]
  obtain ⟨t, ht, hb⟩ := hbmSlice_next h hn
  refine ⟨t, ht, by rw [hb, (HbmCal.turn_pc ..).1]; rfl, fun hw => ?_⟩
  rw [hb.trans (HbmCal.turn_of_none (by exact hw) _)]

end

/-- Shedding the stacks that waited concerns the power domains alone (R539). -/
theorem State.shedDue_kept (s : State) : Kept { pwr := true } s
    (if s.pwr.mode = .lull then s.shedStacks 2 else if s.pwr.mode = .doze then s.shedStacks 1 else s) := by
  split_ifs
  · exact Kept.shedStacks 2 (.refl s) rfl
  · exact Kept.shedStacks 1 (.refl s) rfl
  · exact .refl s

section
variable {s : State} {c n : Nat} (h : s.lcu.hbm.pc = some (c, n))
include h

theorem hbmSlice_goes_on (hn : n + 1 < 40) : exec .hbmSlice s =
    .next { s with lcu := { s.lcu with hbm := { s.lcu.hbm with pc := some (c, n + 1) } } } := by
  rw [exec_hbmSlice, execHbmSlice, h]
  exact if_pos hn

theorem hbmSlice_last (hn : 40 ≤ n + 1) : Gives .hbmSlice s fun t =>
    t.lcu.hbm = { s.lcu.hbm with pc := none, last := c, urgent := dropNat s.lcu.hbm.urgent c } ∧
    (s.Inv → (t.reg Reg.lcuHbmrt).toNat = satAt 0xFFFFFFFF ((s.reg Reg.lcuHbmrt).toNat + 1)) := by
  unfold Gives
  rw [exec_hbmSlice, execHbmSlice, h]
  refine ⟨_, if_neg (Nat.not_lt.mpr hn), ?_, fun hi => ?_⟩
  · rw [(State.shedDue_kept _).only.lcu.resolve_left Bool.false_ne_true]
    rfl
  · rw [(State.shedDue_kept _).only.regs.resolve_left Bool.false_ne_true _ fun e => absurd e Bool.false_ne_true]
    exact State.toNat_reg_bump hi (absentBits_lcu s.part _ (by decide))

end

theorem exec_eccBurst_eq (s : State) (c : Nat) : exec (.eccBurst c) s = .next
    (if s.pwr.up = true ∧ c < 128 ∧ hasNat s.pwr.shed (c / 32) = false
      then { s with lcu := { s.lcu with hbm := { s.lcu.hbm with urgent := addNat s.lcu.hbm.urgent c } } } else s) := by
  rw [exec_eccBurst, execEccBurst, apply_ite Host.Outcome.next]
  exact if_congr (by simp [and_assoc]) rfl rfl

/-! ## CHOP_AVERAGE (R541 to R543) -/

/-- A flag that the part has reads 1 after it is raised (R6, R14). -/
theorem State.getLsbD_reg_raiseFlag_bit {s : State} (hi : s.Inv) {a i : Nat} (ha : (absentBits s.part a).getLsbD i = false)
    (hp : (place 1 i).getLsbD i = true) : ((s.raiseFlag a i).reg a).getLsbD i = true := by
  rw [State.raiseFlag, State.reg_putReg hi, if_pos rfl, BitVec.getLsbD_and, BitVec.getLsbD_or, BitVec.getLsbD_not, hp, ha]
  simp [BitVec.lt_of_getLsbD hp]

/-- A rail is up when it is listed (R494). -/
theorem any_rail (l : List Rail) (r : Rail) : l.any (fun x => x = r) = decide (r ∈ l) := by
  rw [Bool.eq_iff_iff]
  simp

theorem chopAverage_lapses {s : State} {c : Nat}
    (h : .bpc ∉ s.pwr.railsUp ∨ 24 < c ∨ (c < 24 ∧ Config.bays s.part ≤ c)) (v : Int) : exec (.chopAverage c v) s = .next s := by
  rw [exec_chopAverage, execChopAverage, any_rail]
  exact if_pos (by simpa [or_assoc] using h)

/-- Every part has the flags of LCU.BPCOOR that its sensors raise: its bays', and the eFuse's. -/
theorem absentBits_bpcoor (p : Part) : ∀ c ≤ 24, c = 24 ∨ c < Config.bays p →
    (absentBits p Reg.lcuBpcoor).getLsbD (if c = 24 then 31 else c) = false ∧
      (place 1 (if c = 24 then 31 else c)).getLsbD (if c = 24 then 31 else c) = true := by
  cases p <;> decide

section
variable {s : State} {c : Nat} {v e : Int} (he : e = clampTo 1500 v)

/-- The correction of a sensor's offset: the first estimate whole, a later one by at most 10 µV (R542; log 58). -/
def offsetNext (o : Option Int) (e : Int) : Int :=
  match o with
  | none => e
  | some o => o + clampTo 10 (e - o)

include he

theorem chopAverage_estimates (hi : s.Inv) (hr : .bpc ∈ s.pwr.railsUp) (hc : c = 24 ∨ c < Config.bays s.part) :
    Gives (.chopAverage c v) s fun t =>
      t.lcu = { s.lcu with offsets := setAt s.lcu.offsets c (some (offsetNext (s.lcu.offsets.getD c none) e)) } ∧
      (e = v → t.regs = s.regs) ∧ (e ≠ v → (t.reg Reg.lcuBpcoor).getLsbD (if c = 24 then 31 else c) = true) := by
  have hb := Config.bays_le s.part
  obtain ⟨habs, hplace⟩ := absentBits_bpcoor s.part c (by omega) hc
  subst he
  unfold Gives
  rw [exec_chopAverage, execChopAverage, any_rail]
  refine ⟨_, if_neg ?_, ?_, fun hv => ?_, fun hv => ?_⟩
  · simp only [hr, decide_true, Bool.not_true, Bool.false_or, Bool.or_eq_true, Bool.and_eq_true, decide_eq_true_eq]
    omega
  · dsimp only
    split <;> rfl
  · rw [if_pos hv]
    rfl
  · rw [if_neg hv]
    exact State.getLsbD_reg_raiseFlag_bit hi habs hplace

theorem chopAverage_corrects (hi : s.Inv) (hr : .bpc ∈ s.pwr.railsUp) (hc : c = 24 ∨ c < Config.bays s.part) :
    Gives (.chopAverage c v) s fun t =>
      (∀ i, i ≠ c → t.lcu.offsets.getD i none = s.lcu.offsets.getD i none) ∧
      (s.lcu.offsets.getD c none = none → t.lcu.offsets.getD c none = some e) ∧
      (∀ o, s.lcu.offsets.getD c none = some o → t.lcu.offsets.getD c none = some (o + clampTo 10 (e - o))) ∧
      (e = v → t.regs = s.regs) ∧ (e ≠ v → (t.reg Reg.lcuBpcoor).getLsbD (if c = 24 then 31 else c) = true) := by
  obtain ⟨t, ht, hl, hregs, hflag⟩ := chopAverage_estimates he hi hr hc
  have hlen : c < s.lcu.offsets.length := by
    have hb := Config.bays_le s.part
    rw [hi.counts.sensors]
    omega
  refine ⟨t, ht, fun i hic => ?_, fun ho => ?_, fun o ho => ?_, hregs, hflag⟩
  · rw [hl, getD_setAt _ _ _ _ _ hlen, if_neg hic]
  · rw [hl, getD_setAt _ _ _ _ _ hlen, if_pos rfl, ho]
    rfl
  · rw [hl, getD_setAt _ _ _ _ _ hlen, if_pos rfl, ho]
    rfl

end

/-! ## SENSOR_TRIM (R544, R545) -/

theorem sensorTrim_lapses {s : State} (h : s.pwr.up = false) (ds : List Int) : exec (.sensorTrim ds) s = .next s := by
  rw [exec_sensorTrim, execSensorTrim]
  exact if_pos (by simp [h])

/-- What a sensor's comparison with its diode gives: its trim and whether it is faulty. -/
def State.trimmed (s : State) (ds : List Int) (i : Nat) : Int × Bool :=
  match ds[i]? with
  | some d => trimOne (s.lcu.trims.getD i 0) d (hasNat s.lcu.faulty i)
  | none => (s.lcu.trims.getD i 0, hasNat s.lcu.faulty i)

theorem State.trimmed_some {s : State} {ds : List Int} {i : Nat} {d : Int} (h : ds[i]? = some d) :
    (s.trimmed ds i).1 = s.lcu.trims.getD i 0 - clampTo 2 d ∧
    (s.trimmed ds i).2 = if hasNat s.lcu.faulty i = true then Decidable.decide (16 < d.natAbs) else Decidable.decide (64 < d.natAbs) := by
  rw [State.trimmed, h]
  exact ⟨rfl, by cases hasNat s.lcu.faulty i <;> rfl⟩

theorem State.trimmed_none {s : State} {ds : List Int} {i : Nat} (h : ds[i]? = none) :
    s.trimmed ds i = (s.lcu.trims.getD i 0, hasNat s.lcu.faulty i) := by
  simp only [State.trimmed, h]

theorem getD_map_natsFrom {α : Type} (f : Nat → α) (d : α) {n i : Nat} (h : i < n) : ((natsFrom 0 n).map f).getD i d = f i := by
  rw [natsFrom_eq_range', List.getD_eq_getElem _ _ (by simpa using h), List.getElem_map, List.getElem_range']
  simp

theorem hasNat_iff {l : List Nat} {i : Nat} : hasNat l i = true ↔ i ∈ l := by
  simp [hasNat]

theorem sensorTrim_trims {s : State} (h : s.pwr.up = true) (ds : List Int) : Gives (.sensorTrim ds) s fun t =>
    ∀ i < 32, t.lcu.trims.getD i 0 = (s.trimmed ds i).1 ∧ hasNat t.lcu.faulty i = (s.trimmed ds i).2 := by
  unfold Gives
  rw [exec_sensorTrim, execSensorTrim]
  refine ⟨_, if_neg (by simp [h]), fun i hi => ⟨?_, ?_⟩⟩
  · rw [State.updLcu_lcu, List.map_map]
    exact getD_map_natsFrom _ _ hi
  · rw [State.updLcu_lcu, Bool.eq_iff_iff, hasNat_iff, List.mem_filter, mem_natsFrom_zero, List.map_map,
      getD_map_natsFrom _ _ hi]
    exact and_iff_right hi

/-! ## The statement -/

/-- Settles O36: each command by its own rules, the lanes and phases of a retrain in the parts above. -/
theorem liveCalibration : Obligations.LiveCalibration := by
  refine ⟨
    fun s l => ⟨marginScan_no_port, fun p hp => ⟨marginScan_lapses hp, marginScan_starts hp⟩⟩,
    fun s l r p low _ hlow => State.laneOf_noteScan hlow,
    ?complete,
    fun s => ⟨relearnWaitExpiry_lapses, fun r => relearnWaitExpiry_drains⟩,
    fun s => ⟨egressDrained_lapses, fun r => egressDrained_trains⟩,
    fun s => ⟨routeMoveWait_lapses, fun r hi h _ h8 => ⟨routeMoveWait_link_down h hi h8, routeMoveWait_trains h⟩⟩,
    fun s => ⟨retrainNoticeTimeout_lapses, fun r h h8 => ⟨retrainNoticeTimeout_defers h h8, retrainNoticeTimeout_aborts h⟩⟩,
    ?check,
    fun s p => exec_parkedRetry_eq s p,
    ?drive,
    fun s k c => ⟨fun h => hbmPass_not_served h c, fun t c0 => hbmPass_not_due, fun hu hk he hs hd =>
      ⟨hbmPass_starts hu hk he hs hd, hbmPass_waits hu hk he hs hd⟩⟩,
    fun s => ⟨fun u us => hbmSlice_urgent, fun k ch h hu hp => ⟨hbmSlice_pass h hu hp, hbmSlice_shed h hu hp⟩,
      fun c n h => ⟨hbmSlice_goes_on h, hbmSlice_last h⟩⟩,
    exec_eccBurst_eq,
    fun s c v e he => ⟨fun h => chopAverage_lapses h v, chopAverage_corrects he⟩,
    ?trim⟩
  case complete =>
    refine fun s l r => ⟨fun h => marginScanComplete_lapses h r, fun p hp hs => ⟨marginScanComplete_cut hp hs, fun u hl hu => ?_⟩⟩
    subst hu
    exact ⟨marginScanComplete_lanes hp hs hl, marginScanComplete_unwanted hp hs hl, fun k hc hk hb ht hr =>
      ⟨marginScanComplete_defers hp hs hl hc hk hb ht hr, fun q => marginScanComplete_host hp hs hl hc hk hb ht hr,
        marginScanComplete_fabric hp hs hl hc hk hb ht hr⟩⟩
  case check =>
    intro s l f hf
    subst hf
    exact ⟨retrainCheck_lapses, fun r h => ⟨retrainCheck_parks h, fun hl =>
      ⟨retrainCheck_serves h hl, retrainCheck_host_serves h hl, retrainCheck_fabric_serves h hl⟩⟩⟩
  case drive =>
    refine fun s p b => ⟨fun h => drivePortRetrainEnd_lapses h b, fun hi hp hd ht => ⟨?_, ?_⟩⟩
    · rintro rfl
      exact drivePortRetrainEnd_back hd ht
    · rintro rfl
      exact drivePortRetrainEnd_trains hd ht hi hp
  case trim =>
    refine fun s ds => ⟨fun h => sensorTrim_lapses h ds, fun h => ?_⟩
    obtain ⟨t, ht, hall⟩ := sensorTrim_trims h ds
    refine ⟨t, ht, fun i hi d hd => ?_, fun i hi hn => ?_⟩
    · obtain ⟨htrim, hfault⟩ := hall i hi
      exact ⟨htrim.trans (State.trimmed_some hd).1, hfault.trans (State.trimmed_some hd).2⟩
    · rw [(hall i hi).1, (hall i hi).2, State.trimmed_none hn]
      exact ⟨rfl, rfl⟩

end Sys2Proof.Machine
end

section
/-! PROOFS. TEST_START (R567, R568, R570 to R578, R581; PARAM 1 to 9, flags and the reserved byte log 50, one record per test log 59). -/

namespace Sys2Proof.Machine

/-! ## Records of tests (R572) -/

/-- A test's record is that of its last run, and those of the other tests stay. -/
theorem State.testRec_putResult (s : State) (r : TestRec) (t : Nat) :
    (s.putResult r).testRec t = if t = r.test then r else s.testRec t := by
  simp only [State.testRec, State.putResult]
  rw [find_filter_append TestRec.test]
  split <;> rfl

theorem State.testRec_congr {s t : State} (h : t.tst = s.tst) (n : Nat) : t.testRec n = s.testRec n := by
  rw [State.testRec, h, ← State.testRec]

/-! ## A live test starts (R569, R572 to R578) -/

/-- The identities of a host port find their target where utilisation, links and identities are the same. -/
theorem State.rtTarget_congr {s t : State} (hu : t.pwr.util = s.pwr.util) (hi : t.pwr.idents = s.pwr.idents)
    (hk : t.tk = s.tk) (hm : t.mac = s.mac) (p : Nat) : t.rtTarget p = s.rtTarget p := by
  have hid : t.identPort = s.identPort := funext fun i => by rw [State.identPort, hi, hk, ← State.identPort]
  have hon : t.identsOn = s.identsOn := funext fun q => by rw [State.identsOn, hid, hk, ← State.identsOn]
  have hown : t.ownOnly = s.ownOnly := funext fun q => by rw [State.ownOnly, hm, hon, ← State.ownOnly]
  rw [State.rtTarget, hu, hown, ← State.rtTarget]

/-- A host port that may retrain has a target for its identities (R531, R532). -/
theorem State.rtTarget_of_rtOk {s : State} {p : Nat} (h4 : p < 4) (h : s.rtOk p = true) : ∃ q, s.rtTarget p = some q := by
  rw [State.rtOk, if_pos h4] at h
  simp only [Bool.and_eq_true] at h
  exact Option.isSome_iff_exists.mp h.1.2

/-- A wake changes neither the utilisation nor the identities of the ports. -/
theorem State.holdWake_ports (s : State) : s.holdWake.pwr.util = s.pwr.util ∧ s.holdWake.pwr.idents = s.pwr.idents := by
  unfold State.holdWake State.wakeActive
  split_ifs
  · obtain ⟨w, hw⟩ := s.wakeAll_pwr (allDomains s.part)
    rw [State.updPwr_pwr, hw]
    exact ⟨rfl, rfl⟩
  all_goals exact ⟨rfl, rfl⟩

/-- The state in which a live test has its record and an Active hold, and its unit still serves. -/
def State.testBegun (s : State) (t u param : Nat) : State :=
  (((s.updTst (fun x => { x with
    live := some ⟨t, u, param, s.now, t = 1 || t = 2 || t = 4⟩, pieces := 0, errors := 0, firstBad := 0 })).putResult
      ⟨t, u, 1, 0, 0, 0, 0⟩).applyWt).holdWake

section
variable (s : State) (t u p : Nat)

theorem State.startLive_eq : s.startLive t u p =
    let s1 := s.testBegun t u p
    if t = 1 then s1.beginRetrain u true
    else if t = 2 then s1.beginRetrain (4 + u) true
    else if t = 3 then s1.beginDpRun u
    else if t = 4 then (s1.powerOff u (if (s1.bayOf u).st = .empty then .empty else .off)).setBay u fun x =>
      { x with debounceEnd := none, present := x.seated }
    else if t = 5 then s1.updKvt (fun k => { k with lanesOn := dropNat k.lanesOn u })
    else s1 := rfl

theorem State.testBegun_kept : Kept { hce := true, pwr := true, tst := true } s (s.testBegun t u p) :=
  Kept.holdWake (Kept.applyWt (Kept.putResult _ (Kept.updTst _ (.refl s) rfl) rfl) rfl) rfl

theorem State.testBegun_bay : (s.testBegun t u p).bay = s.bay := (s.testBegun_kept t u p).only.bay.resolve_left Bool.false_ne_true

theorem State.testBegun_now : (s.testBegun t u p).now = s.now := (s.testBegun_kept t u p).same.now

theorem State.testBegun_tst : (s.testBegun t u p).tst = ((s.updTst (fun x => { x with
    live := some ⟨t, u, p, s.now, t = 1 || t = 2 || t = 4⟩, pieces := 0, errors := 0, firstBad := 0 })).putResult
      ⟨t, u, 1, 0, 0, 0, 0⟩).tst :=
  (Kept.holdWake (uu := { hce := true, pwr := true }) (Kept.applyWt (.refl _) rfl) rfl).only.tst.resolve_left Bool.false_ne_true

theorem State.testBegun_rtTarget (q : Nat) : (s.testBegun t u p).rtTarget q = s.rtTarget q := by
  have hk := s.testBegun_kept t u p
  obtain ⟨hutil, hidents⟩ := State.holdWake_ports (((s.updTst (fun x => { x with
    live := some ⟨t, u, p, s.now, t = 1 || t = 2 || t = 4⟩, pieces := 0, errors := 0, firstBad := 0 })).putResult
      ⟨t, u, 1, 0, 0, 0, 0⟩).applyWt)
  rw [State.applyWt_pwr] at hutil hidents
  exact State.rtTarget_congr hutil hidents (hk.only.tk.resolve_left Bool.false_ne_true) (hk.only.mac.resolve_left Bool.false_ne_true) q

theorem State.beginRetrain_tst (b : Bool) : (s.beginRetrain p b).tst = s.tst :=
  (Kept.beginRetrain (uu := { hce := true, rfu := true, rge := true, rfx := true, tk := true, kvt := true, bay := true, xbr := true
                              pwr := true, lcu := true, pmu := true, moved := true, out := true, free := true })
    p b (.refl s) rfl rfl rfl rfl rfl rfl rfl rfl rfl rfl rfl rfl rfl rfl).only.tst.resolve_left Bool.false_ne_true

theorem State.beginDpRun_tst : (s.beginDpRun p).tst = s.tst := by
  refine foldl_frame (g := fun t : State => t.tst) (fun t e => ?_) _ _
  rw [State.reask_tst, State.updRing_tst]

/-- What a test does to its unit leaves the test's own record alone. -/
theorem State.startLive_tst : (s.startLive t u p).tst = (s.testBegun t u p).tst := by
  have hoff : ∀ st, ((s.testBegun t u p).powerOff u st).tst = (s.testBegun t u p).tst := fun st =>
    (State.powerOff_kept ..).only.tst.resolve_left Bool.false_ne_true
  rw [State.startLive_eq]
  dsimp only
  split_ifs
  · exact State.beginRetrain_tst ..
  · exact State.beginRetrain_tst ..
  · exact State.beginDpRun_tst ..
  · exact (State.setBay_tst ..).trans (hoff .empty)
  · exact (State.setBay_tst ..).trans (hoff .off)
  · rfl
  · rfl

theorem State.startLive_mbx : (s.startLive t u p).mbx = s.mbx :=
  (Kept.startLive (uu := { hce := true, rfu := true, rge := true, rfx := true, tk := true, kvt := true, bay := true, xbr := true
                           pwr := true, lcu := true, pmu := true, tst := true, moved := true, out := true, free := true })
    t u p (.refl s) rfl rfl rfl rfl rfl rfl rfl rfl rfl rfl rfl rfl rfl rfl rfl).only.mbx.resolve_left Bool.false_ne_true

theorem State.startLive_runs : (s.startLive t u p).tst.live = some ⟨t, u, p, s.now, t == 1 || t == 2 || t == 4⟩ ∧
    (s.startLive t u p).testRec t = ⟨t, u, 1, 0, 0, 0, 0⟩ := by
  refine ⟨?_, ?_⟩
  · rw [State.startLive_tst, State.testBegun_tst]
    rfl
  · rw [State.testRec_congr ((s.startLive_tst t u p).trans (s.testBegun_tst t u p)), State.testRec_putResult, if_pos rfl]

end

/-- A fabric port whose traffic moves for a test or a retrain has its retrain on record (R535, R536). -/
theorem State.beginRetrain_fabric_mem {s : State} {p : Nat} (h4 : 4 ≤ p) (h8 : p < 8) (b : Bool) :
    ∃ r ∈ (s.beginRetrain p b).lcu.retrains, r.port = p ∧ r.forTest = b := by
  by_cases hm : (hasNat (Config.midplane s.part) (p - 4) && Decidable.decide ((Config.midplane s.part).length = 1)) = true
  · refine ⟨⟨p, p, .notice, some (s.now + ms 1), b⟩, ?_, rfl, rfl⟩
    unfold State.beginRetrain
    simp only [if_neg (Nat.not_lt.mpr h4), if_pos h8]
    rw [if_pos hm, State.sendStatus_lcu]
    simp
  · rw [State.beginRetrain_fabric_lcu h4 h8 (by simpa using hm)]
    exact ⟨⟨p, p, .routeMove, some (s.now + ms 1), b⟩, by simp, rfl, rfl⟩

section
variable {s : State} {u : Nat} (p : Nat)

/-- A HOSTPORT test moves the identities of its port away (R573). -/
theorem State.startLive_hostport {q : Nat} (hu : u < 4) (hq : s.rtTarget u = some q) :
    ⟨u, q, .relearn, some (s.now + ms 5), true⟩ ∈ (s.startLive 1 u p).lcu.retrains := by
  rw [State.startLive_eq]
  dsimp only
  rw [if_pos rfl, (State.beginRetrain_host_spec hu ((s.testBegun_rtTarget 1 u p u).trans hq) true).1, State.testBegun_now]
  simp

/-- A FABPORT test moves the routes of its port away (R574). -/
theorem State.startLive_fabport (hu : u ≤ 3) : ∃ r ∈ (s.startLive 2 u p).lcu.retrains, r.port = 4 + u ∧ r.forTest = true :=
  State.beginRetrain_fabric_mem (by omega) (by omega) true

theorem State.startLive_driveport : (s.startLive 3 u p).lcu.dpRun = some u :=
  congrArg LcuSt.dpRun (State.beginDpRun_lcu ..)

/-- A BAY test takes the power from its bay (R575). -/
theorem State.startLive_bay (hi : s.Inv) (hu : u < 24) :
    ((s.startLive 4 u p).bayOf u).st = if (s.bayOf u).st = .empty then .empty else .off := by
  have hb : (s.testBegun 4 u p).bayOf u = s.bayOf u := State.bayOf_congr (s.testBegun_bay 4 u p) u
  have hl : u < (s.testBegun 4 u p).bay.bays.length := by
    rw [State.testBegun_bay, hi.counts.bays]
    exact hu
  rw [State.startLive_eq]
  simp only [if_true, if_false, Nat.reduceEqDiff]
  rw [State.bayOf_setBay (by rw [State.length_bays_powerOff]; exact hl), hb]
  obtain ⟨d, hd⟩ := State.bayOf_powerOff hl (if (s.bayOf u).st = .empty then .empty else .off)
  rw [hd]

/-- A LANE test takes its cipher lane out of service (R576). -/
theorem State.startLive_lane : u ∉ (s.startLive 5 u p).kvt.lanesOn := by
  rw [State.startLive_eq]
  simp [dropNat]

end

end Sys2Proof.Machine
end

section
/-! PROOFS. The commands TEST_START, TEST_STOP and TEST_RESULT (R567 to R572, R581, R582; PARAM 1 to 9, flags and reserved bytes logs 14
and 50, one record per test log 59). -/

namespace Sys2Proof.Machine

/-! ## TEST_START (R567, R568, R570, R581) -/

/-- The checks of TEST_START, in their order. -/
def State.testChecks (s : State) (t u fl p r : Nat) : List (Bool × Nat) :=
  [(testAbsent s.part t u, stAbsent),
   (!testKnown t || testUnits t < u || 10000 < p || (p ≠ 0 && p < 10) || 1 < fl || r ≠ 0, stInvalidParam),
   (s.tst.live.isSome, stBusy), (t = 4 && !s.bay.holder, stNotOwner), (s.testConflict t u, stConflict)]

section
variable {s : State} {t u fl p r : Nat}

theorem firstFail_testChecks_absent (h : testAbsent s.part t u = true) : firstFail (s.testChecks t u fl p r) = some stAbsent := by
  simp [State.testChecks, firstFail, h]

variable (ha : testAbsent s.part t u = false)
include ha

theorem firstFail_testChecks_param
    (h : testKnown t = false ∨ testUnits t < u ∨ 10000 < p ∨ (0 < p ∧ p < 10) ∨ 1 < fl ∨ r ≠ 0) :
    firstFail (s.testChecks t u fl p r) = some stInvalidParam := by
  have hb : (!testKnown t || testUnits t < u || 10000 < p || (p ≠ 0 && p < 10) || 1 < fl || r ≠ 0) = true := by
    simpa [or_assoc, Nat.pos_iff_ne_zero] using h
  simp only [State.testChecks, firstFail, ha, hb, if_true, Bool.false_eq_true, if_false]

variable (hk : testKnown t = true) (hu : u ≤ testUnits t) (h0 : p = 0 ∨ 10 ≤ p) (hp : p ≤ 10000) (hf : fl ≤ 1) (hr : r = 0)
include hk hu h0 hp hf hr

/-- With the parameters in range the state of the test unit and of the unit under test decides. -/
theorem firstFail_testChecks_state : firstFail (s.testChecks t u fl p r) =
    firstFail [(s.tst.live.isSome, stBusy), (t = 4 && !s.bay.holder, stNotOwner), (s.testConflict t u, stConflict)] := by
  have hb : (!testKnown t || testUnits t < u || 10000 < p || (p ≠ 0 && p < 10) || 1 < fl || r ≠ 0) = false := by
    simp only [hk, Bool.not_true, Bool.false_or, Bool.or_eq_false_iff, Bool.and_eq_false_iff, decide_eq_false_iff_not]
    omega
  simp only [State.testChecks, firstFail, ha, hb, Bool.false_eq_true, if_false]

theorem firstFail_testChecks_busy (hl : s.tst.live ≠ none) : firstFail (s.testChecks t u fl p r) = some stBusy := by
  rw [firstFail_testChecks_state ha hk hu h0 hp hf hr, Option.isSome_iff_ne_none.mpr hl]
  rfl

theorem firstFail_testChecks_follower (hl : s.tst.live = none) (h4 : t = 4) (hh : s.bay.holder = false) :
    firstFail (s.testChecks t u fl p r) = some stNotOwner := by
  rw [firstFail_testChecks_state ha hk hu h0 hp hf hr, hl, h4, hh]
  rfl

/-- With no live test, and at the holder for a BAY test, the condition of the test decides (R573 to R580). -/
theorem firstFail_testChecks_idle (hl : s.tst.live = none) (h : t ≠ 4 ∨ s.bay.holder = true) :
    firstFail (s.testChecks t u fl p r) = if s.testConflict t u = true then some stConflict else none := by
  have hb : (t = 4 && !s.bay.holder) = false := by
    simpa [Decidable.imp_iff_not_or] using h
  rw [firstFail_testChecks_state ha hk hu h0 hp hf hr, hl, hb]
  rfl

end

section
variable {s : State} {m : Master} {c : MbCmd} {t u fl p : Nat} (hs : s.Starts m 0x0A01 c)
  (ht : t = byteAt c.params 0) (hu : u = byteAt c.params 1) (hfl : fl = byteAt c.params 2) (hp : p = leAt c.params 4 4)
include hs ht hu hfl hp

theorem exec_testStart_checked : exec (.testStart m) s = .next (s.checked m (s.testChecks t u fl p (byteAt c.params 3)) fun s =>
    if testOffline t then (s.finish m stOk []).beginRestart 1 (some (t, fl % 2 == 1))
    else (s.finish m stOk []).startLive t u (if p = 0 then 1000 else p)) := by
  subst ht hu hfl hp
  rw [exec_testStart, execTestStart, State.runCmd_starts hs]
  rfl

variable (hi : s.Inv)
include hi

/-- A TEST_START that fails a check ends with that check's status and starts no test. -/
theorem testStart_refused {st : Nat} (h : firstFail (s.testChecks t u fl p (byteAt c.params 3)) = some st) :
    Gives (.testStart m) s fun x => x.Ended m st ∧ x.tst = s.tst :=
  ⟨_, (exec_testStart_checked hs ht hu hfl hp).trans (congrArg _ (State.checked_fail h _)), hs.ends hi rfl st, State.finish_tst ..⟩

variable (hn : firstFail (s.testChecks t u fl p (byteAt c.params 3)) = none)
include hn

/-- An offline test begins the restart into test boot (R581). -/
theorem testStart_offline (ho : testOffline t = true) : Gives (.testStart m) s fun x => x.Ended m stOk ∧
    x.hce.halted = true ∧ x.pwr.restart = some ⟨1, some (t, fl % 2 == 1), true, false⟩ ∧ x.tst = s.tst := by
  refine ⟨_, (exec_testStart_checked hs ht hu hfl hp).trans (congrArg _ (State.checked_ok hn _)), ?_⟩
  rw [if_pos ho]
  exact ⟨(hs.ends hi rfl stOk).congr_mbx rfl, rfl, rfl, State.finish_tst ..⟩

theorem testStart_live (ho : testOffline t = false) : Gives (.testStart m) s fun x => x.Ended m stOk ∧
    x = (s.finish m stOk []).startLive t u (if p = 0 then 1000 else p) := by
  refine ⟨_, (exec_testStart_checked hs ht hu hfl hp).trans (congrArg _ (State.checked_ok hn _)), ?_⟩
  rw [ho, if_neg Bool.false_ne_true]
  exact ⟨(hs.ends hi rfl stOk).congr_mbx (State.startLive_mbx ..), rfl⟩

/-- A live test runs with its record at "running", and its unit moves its traffic or leaves service (R569, R572 to R578). -/
theorem testStart_runs (hk : u ≤ testUnits t) (hx : s.testConflict t u = false) (ho : testOffline t = false) :
    Gives (.testStart m) s fun x => x.Ended m stOk ∧
      x.tst.live = some ⟨t, u, if p = 0 then 1000 else p, s.now, t == 1 || t == 2 || t == 4⟩ ∧
      x.testRec t = ⟨t, u, 1, 0, 0, 0, 0⟩ ∧
      (t = 1 → ∃ q, ⟨u, q, .relearn, some (s.now + ms 5), true⟩ ∈ x.lcu.retrains) ∧
      (t = 2 → ∃ r ∈ x.lcu.retrains, r.port = 4 + u ∧ r.forTest = true) ∧
      (t = 3 → x.lcu.dpRun = some u) ∧
      (t = 4 → (x.bayOf u).st = if (s.bayOf u).st = .empty then .empty else .off) ∧
      (t = 5 → u ∉ x.kvt.lanesOn) := by
  obtain ⟨x, he, hend, rfl⟩ := testStart_live hs ht hu hfl hp hi hn ho
  clear ht hu
  obtain ⟨hlive, hrec⟩ := State.startLive_runs (s.finish m stOk []) t u (if p = 0 then 1000 else p)
  rw [State.finish_now] at hlive
  refine ⟨_, he, hend, hlive, hrec, ?_, ?_, ?_, ?_, ?_⟩
  · rintro rfl
    have h4 : u < 4 := Nat.lt_succ_of_le hk
    have hok : s.rtOk u = true := by simpa [State.testConflict] using hx
    obtain ⟨q, hq⟩ := State.rtTarget_of_rtOk h4 hok
    have hq' : (s.finish m stOk []).rtTarget u = some q :=
      (State.rtTarget_congr (congrArg PwrSt.util (State.finish_pwr ..)) (congrArg PwrSt.idents (State.finish_pwr ..))
        (State.finish_tk ..) (State.finish_mac ..) u).trans hq
    exact ⟨q, s.finish_now m stOk [] ▸ State.startLive_hostport _ h4 hq'⟩
  · rintro rfl
    exact State.startLive_fabport _ hk
  · rintro rfl
    exact State.startLive_driveport _
  · rintro rfl
    rw [State.startLive_bay _ ((State.finish_kept ..).inv hi) (Nat.lt_succ_of_le hk), State.bayOf_congr (State.finish_bay ..)]
  · rintro rfl
    exact State.startLive_lane _

end

/-! ## TEST_RESULT (R567, R572) -/

section
variable {s : State} {m : Master} {c : MbCmd} {t : Nat} (hs : s.Starts m 0x0A03 c) (ht : t = byteAt c.params 0)
include hs ht

theorem exec_testResult_checked : exec (.testResult m) s =
    .next (s.checked m [(!testKnown t || (slice c.params 1 3).any (fun b => b ≠ 0), stInvalidParam)] fun s =>
      s.finish m stOk (s.testRec t).bytes) := by
  subst ht
  rw [exec_testResult, execTestResult, State.runCmd_starts hs]

variable (hi : s.Inv)
include hi

theorem testResult_refused (h : testKnown t = false ∨ (slice c.params 1 3).any (fun b => b ≠ 0) = true) :
    Gives (.testResult m) s fun x => x.Ended m stInvalidParam := by
  refine ⟨_, (exec_testResult_checked hs ht).trans (congrArg _ (State.checked_fail ?_ _)), hs.ends hi rfl stInvalidParam⟩
  rcases h with h | h <;> simp only [firstFail, h, Bool.not_false, Bool.true_or, Bool.or_true, if_true]

theorem testResult_answers (hk : testKnown t = true) (h : (slice c.params 1 3).any (fun b => b ≠ 0) = false) :
    Gives (.testResult m) s fun x => x.Yields m c (s.testRec t).bytes ∧ x.tst = s.tst := by
  refine ⟨_, (exec_testResult_checked hs ht).trans (congrArg _ (State.checked_ok ?_ _)), hs.yields hi rfl _, State.finish_tst ..⟩
  simp only [firstFail, hk, h, Bool.not_true, Bool.false_or, Bool.false_eq_true, if_false]

end

/-! ## TEST_STOP (R571, R582) -/

theorem State.stopLive_mbx (s : State) (n : Nat) : (s.stopLive n).mbx = s.mbx :=
  (Kept.stopLive (uu := { hce := true, rfx := true, tk := true, kvt := true, bay := true, xbr := true, pwr := true, lcu := true
                          tst := true, out := true })
    n (.refl s) rfl rfl rfl rfl rfl rfl rfl rfl rfl rfl).only.mbx.resolve_left Bool.false_ne_true

theorem State.stopLive_boot (s : State) (n : Nat) : (s.stopLive n).tst.boot = s.tst.boot := by
  cases h : s.tst.live with
  | none => rw [State.stopLive_none h]
  | some l =>
    rw [State.stopLive_tst h]
    rfl

/-- The restore concerns neither the safety net's readiness nor the heartbeat (R98, R99). -/
theorem State.restore_ready (s : State) (l : List MirBlock) :
    (s.restore l).snt = s.snt ∧ (s.restore l).tk.hbOut = s.tk.hbOut := by
  refine ⟨(Kept.restore (uu := { hce := true, rge := true, tk := true, moved := true }) l
    (.refl s) rfl rfl rfl rfl).only.snt.resolve_left Bool.false_ne_true, ?_⟩
  unfold State.restore
  dsimp only
  rw [State.updTk_tk, apply_ite (fun t : State => t.tk), State.raiseFlag_tk, ite_self, State.updHce_tk]
  refine foldl_frame (g := fun t : State => t.tk.hbOut) ?_ _ s
  exact fun t r => rfl

theorem State.takeBays_tk (s : State) : s.takeBays.tk = s.tk :=
  (Kept.takeBays (uu := { bay := true, out := true }) (.refl s) rfl rfl).only.tk.resolve_left Bool.false_ne_true

theorem State.bootFirmware_tk (s : State) : s.bootFirmware.tk = s.tk :=
  (Kept.bootFirmware (uu := { mbx := true, moved := true }) (.refl s) rfl rfl).only.tk.resolve_left Bool.false_ne_true

/-- A boot that goes on leaves the test boot, with its heartbeat on and the safety net ready (R502, R582). -/
theorem State.boot_ready (s : State) (l : List MirBlock) : (s.boot l).tst.boot = false ∧ (s.boot l).tst.hold = false ∧
    (s.boot l).tk.hbOut = true ∧ (s.boot l).snt.ready = true := by
  unfold State.boot
  dsimp only
  refine ⟨by rw [State.recomputeCeil_tst], by rw [State.recomputeCeil_tst], ?_, ?_⟩
  · rw [State.recomputeCeil_tk]
    dsimp only
    rw [foldl_frame (g := fun t : State => t.tk) State.ringOnline_tk, (State.restore_ready ..).2,
      apply_ite (fun t : State => t.tk), State.updMbx_tk, ite_self, State.bootFirmware_tk]
    split_ifs
    · rw [State.takeBays_tk]
      rfl
    · rw [State.takeBays_tk]
      rfl
    · rfl
  · rw [State.recomputeCeil_snt]
    dsimp only
    rw [foldl_frame (g := fun t : State => t.snt) State.ringOnline_snt, (State.restore_ready ..).1]

section
variable {s : State} {m : Master} {c : MbCmd} (hs : s.Starts m 0x0A02 c)
include hs

theorem exec_testStop_eq : exec (.testStop m) s = .next
    (if s.tst.boot = true then (s.finish m stOk []).boot [] else (s.finish m stOk []).stopLive 4) := by
  rw [exec_testStop, execTestStop, State.runCmd_starts hs]
  dsimp only
  rw [State.finish_tst]

theorem testStop_boots (hb : s.tst.boot = true) : Gives (.testStop m) s fun x =>
    x.tst.boot = false ∧ x.tst.hold = false ∧ x.tk.hbOut = true ∧ x.snt.ready = true :=
  ⟨_, (exec_testStop_eq hs).trans (congrArg _ (if_pos hb)), State.boot_ready ..⟩

/-- TEST_STOP ends the live test that runs, which leaves its record at "stopped" (R571). -/
theorem testStop_stops (hi : s.Inv) (hb : s.tst.boot = false) : Gives (.testStop m) s fun x =>
    x.Ended m stOk ∧ x.tst.live = none ∧ x.tst.boot = false ∧ ∀ l, s.tst.live = some l → x.testRec l.test =
      ⟨l.test, l.unit, 4, 0, if l.test = 7 then s.tst.errors else 0, 0, (s.now - l.start) / 1000⟩ := by
  refine ⟨_, (exec_testStop_eq hs).trans (congrArg _ (if_neg (by simp [hb]))),
    (hs.ends hi rfl stOk).congr_mbx (State.stopLive_mbx ..), State.stopLive_live .., ?_, fun l hl => ?_⟩
  · rw [State.stopLive_boot, State.finish_tst, hb]
  · have hl' : (s.finish m stOk []).tst.live = some l := by rw [State.finish_tst, hl]
    rw [State.testRec_congr (State.stopLive_tst hl' 4), State.testRec_putResult, if_pos rfl, State.finish_tst, State.finish_now]

end

end Sys2Proof.Machine
end

section
/-! PROOFS. The ends of live tests (R568, R573 to R580; one record per test log 59), boundary scan (R583, R584), the time base (R595),
and the statement. -/

namespace Sys2Proof.Machine

/-! ## A live test is over (R572) -/

theorem State.closeLive_testRec (s : State) (l : LiveTest) (pass : Bool) (code errors wh : Nat) :
    (s.closeLive l pass code errors wh).testRec l.test =
      ⟨l.test, l.unit, if pass = true then 2 else 3, code, errors, wh, (s.now - l.start) / 1000⟩ :=
  (State.testRec_putResult ..).trans (if_pos rfl)

@[simp] theorem State.closeLive_lcu (s : State) (l : LiveTest) (pass : Bool) (code errors wh : Nat) :
    (s.closeLive l pass code errors wh).lcu = s.lcu := rfl

/-! ## LIVE_TEST_END (R568, R573 to R580) -/

theorem liveTestEnd_none {s : State} (h : s.tst.live = none) (o : TestOutcome) : exec (.liveTestEnd o) s = .next s := by
  rw [exec_liveTestEnd, execLiveTestEnd, h]

/-- A live test whose time is over, and that waits for nothing else, may end. -/
theorem LiveTest.may_end {l : LiveTest} {now : Nat} (hm : l.moving = false) (h7 : l.test ≠ 7)
    (hd : l.test ≤ 3 → l.start + ms l.param ≤ now) :
    ¬(l.moving || l.test = 7 || (l.test ≤ 3 && now < l.start + ms l.param)) = true := by
  simpa [hm, h7] using hd

section
variable {s : State} {l : LiveTest} {o : TestOutcome} (hl : s.tst.live = some l)
include hl

theorem liveTestEnd_runs_on (h : l.moving = true ∨ l.test = 7 ∨ (l.test ≤ 3 ∧ s.now < l.start + ms l.param)) :
    exec (.liveTestEnd o) s = .next s := by
  rw [exec_liveTestEnd, execLiveTestEnd, hl]
  exact if_pos (by simpa [or_assoc] using h)

variable (hm : l.moving = false)
include hm

section
variable (ht : l.test = 1 ∨ l.test = 2) (hd : l.start + ms l.param ≤ s.now) {good : Bool} (hg : good = (o.errors == 0 && o.checkOk))
  {p : Nat} (hp : p = (if l.test = 1 then l.unit else 4 + l.unit))
include ht hd hg hp

theorem exec_liveTestEnd_port {r : Retrain} (hr : s.lcu.retrains.find? (fun x => x.port = p && x.forTest) = some r) :
    exec (.liveTestEnd o) s = .next ((s.closeLive l good 0 o.errors o.whereWord).endRetrain r good) := by
  subst hg hp
  rw [exec_liveTestEnd, execLiveTestEnd, hl]
  dsimp only
  rw [if_neg (LiveTest.may_end hm (by omega) fun _ => hd), if_pos (by simpa using ht), State.closeLive_lcu, hr]
  rfl

theorem exec_liveTestEnd_port_idle (hr : s.lcu.retrains.find? (fun x => x.port = p && x.forTest) = none) :
    exec (.liveTestEnd o) s = .next (s.closeLive l good 0 o.errors o.whereWord) := by
  subst hg hp
  rw [exec_liveTestEnd, execLiveTestEnd, hl]
  dsimp only
  rw [if_neg (LiveTest.may_end hm (by omega) fun _ => hd), if_pos (by simpa using ht), State.closeLive_lcu, hr]
  rfl

/-- The port of a test that ends serves again, or is parked where the test has failed (R573, R574). -/
theorem liveTestEnd_port {r : Retrain} (hr : s.lcu.retrains.find? (fun x => x.port = p && x.forTest) = some r) :
    Gives (.liveTestEnd o) s fun x => x.lcu.retrains = s.lcu.retrains.filter (fun y => y.port ≠ p) ∧
      x.lcu.parked = s.lcu.parked.filter (fun y => y.1 ≠ p) ++ (if good = true then [] else [(p, s.now + sec 600)]) ∧
      (p < 4 → good = true → x.mac.hostUp = addNat s.mac.hostUp p) := by
  have he := exec_liveTestEnd_port hl hm ht hd hg hp hr
  have hrp : r.port = p := by
    have hf := List.find?_some hr
    simp only [Bool.and_eq_true, decide_eq_true_eq] at hf
    exact hf.1
  clear hp hr
  subst hrp
  obtain ⟨hret, hpark⟩ := State.endRetrain_lcu (s.closeLive l good 0 o.errors o.whereWord) r good
  refine ⟨_, he, hret, hpark, fun h4 hgood => ?_⟩
  rw [hgood, (State.endRetrain_host_serves h4).1]
  rfl

theorem liveTestEnd_port_record : Gives (.liveTestEnd o) s fun x => x.tst.live = none ∧ x.testRec l.test =
    ⟨l.test, l.unit, if good = true then 2 else 3, 0, o.errors, o.whereWord, (s.now - l.start) / 1000⟩ := by
  cases hr : s.lcu.retrains.find? (fun x => x.port = p && x.forTest) with
  | none => exact ⟨_, exec_liveTestEnd_port_idle hl hm ht hd hg hp hr, rfl, State.closeLive_testRec ..⟩
  | some r =>
    refine ⟨_, exec_liveTestEnd_port hl hm ht hd hg hp hr, ?_, ?_⟩
    · rw [State.endRetrain_tst]
      rfl
    · rw [State.testRec_congr (State.endRetrain_tst ..), State.closeLive_testRec]

end

/-- A drive port trains again whatever the result of its test (R577). -/
theorem liveTestEnd_driveport (ht : l.test = 3) (hd : l.start + ms l.param ≤ s.now) (hi : s.Inv) (hu : l.unit < 24) :
    Gives (.liveTestEnd o) s fun x => x.tst.live = none ∧
      x.testRec 3 = ⟨3, l.unit, if o.errors = 0 then 2 else 3, 0, o.errors, o.whereWord, (s.now - l.start) / 1000⟩ ∧
      x.portOf l.unit = { s.portOf l.unit with
        train := .training, attempts := 1, trainEnd := some (s.now + ms 250), speed := 0, width := 0 } := by
  unfold Gives
  rw [exec_liveTestEnd, execLiveTestEnd, hl]
  dsimp only
  rw [if_neg (LiveTest.may_end hm (by omega) fun _ => hd), if_neg (by simp [ht]), if_pos ht]
  refine ⟨_, rfl, rfl, ?_, State.portOf_setPort (hi.counts.drivePorts ▸ hu)⟩
  have hrec := s.closeLive_testRec l (o.errors = 0) 0 o.errors o.whereWord
  rw [ht] at hrec
  simpa only [decide_eq_true_eq] using (State.testRec_congr (t := (s.closeLive ..).train l.unit) rfl 3).trans hrec

section
variable (ht : l.test = 4) {b : Bay} (hb : b = s.bayOf l.unit)
include ht hb

/-- A BAY test waits for the insertion sequence of its bay (R575). -/
theorem liveTestEnd_bay_waits (hst : b.st ∈ [.wait, .ramping, .retryWait, .debounce]) : exec (.liveTestEnd o) s = .next s := by
  subst hb
  rw [exec_liveTestEnd, execLiveTestEnd, hl]
  dsimp only
  rw [if_neg (LiveTest.may_end hm (by omega) (by omega)), if_neg (by simp [ht]), if_neg (by simp [ht]), if_pos ht, if_pos]
  simpa [or_assoc] using hst

theorem liveTestEnd_bay {k : Nat} (hk : k = (if b.fault ≠ 0 then b.fault else if s.cfgBit Reg.lcuBpcoor l.unit = true then 8 else 0))
    (hst : b.st ∉ [.wait, .ramping, .retryWait, .debounce]) : Gives (.liveTestEnd o) s fun x => x.tst.live = none ∧
      x.testRec 4 = ⟨4, l.unit, if k = 0 then 2 else 3, k, o.errors, o.whereWord, (s.now - l.start) / 1000⟩ := by
  subst hb hk
  unfold Gives
  rw [exec_liveTestEnd, execLiveTestEnd, hl]
  dsimp only
  rw [if_neg (LiveTest.may_end hm (by omega) (by omega)), if_neg (by simp [ht]), if_neg (by simp [ht]), if_pos ht,
    if_neg (by simpa [not_or, and_assoc] using hst)]
  refine ⟨_, rfl, rfl, ?_⟩
  have hrec := fun k => s.closeLive_testRec l (Decidable.decide (k = 0)) k o.errors o.whereWord
  simp only [ht, decide_eq_true_eq] at hrec
  exact hrec _

end

section
variable {good : Bool} (hg : good = (o.errors == 0 && o.checkOk))
include hg

theorem exec_liveTestEnd_lane (ht : l.test = 5) : exec (.liveTestEnd o) s =
    .next ((s.closeLive l good 0 o.errors o.whereWord).updKvt fun k =>
      if good then { k with lanesOn := addNat k.lanesOn l.unit } else { k with lanesFailed := addNat k.lanesFailed l.unit }) := by
  subst hg
  rw [exec_liveTestEnd, execLiveTestEnd, hl]
  dsimp only
  rw [if_neg (LiveTest.may_end hm (by omega) (by omega))]
  simp only [ht, Nat.reduceEqDiff, decide_false, Bool.or_self, Bool.false_eq_true, if_false, if_true]
  rfl

theorem exec_liveTestEnd_plane (ht : l.test = 6) : exec (.liveTestEnd o) s =
    .next ((s.closeLive l good 0 o.errors o.whereWord).updTst fun x =>
      if good then x else { x with plane := addNat x.plane l.unit }) := by
  subst hg
  rw [exec_liveTestEnd, execLiveTestEnd, hl]
  dsimp only
  rw [if_neg (LiveTest.may_end hm (by omega) (by omega))]
  simp only [ht, Nat.reduceEqDiff, decide_false, Bool.or_self, Bool.false_eq_true, if_false, if_true]
  rfl

/-- A test of a port, a cipher lane or a parity lane passes where no error was counted and its check holds. -/
theorem liveTestEnd_unit_record (ht : l.test = 1 ∨ l.test = 2 ∨ l.test = 5 ∨ l.test = 6) (hd : l.start + ms l.param ≤ s.now) :
    Gives (.liveTestEnd o) s fun x => x.tst.live = none ∧ x.testRec l.test =
      ⟨l.test, l.unit, if good = true then 2 else 3, 0, o.errors, o.whereWord, (s.now - l.start) / 1000⟩ := by
  have hrec := s.closeLive_testRec l good 0 o.errors o.whereWord
  rcases or_assoc.mpr ht with ht | ht | ht
  · exact liveTestEnd_port_record hl hm ht hd hg rfl
  · exact ⟨_, exec_liveTestEnd_lane hl hm hg ht, rfl, hrec⟩
  · refine ⟨_, exec_liveTestEnd_plane hl hm hg ht, ?_⟩
    cases good <;> exact ⟨rfl, hrec⟩

theorem liveTestEnd_lane (ht : l.test = 5) : Gives (.liveTestEnd o) s fun x => x.kvt = if good = true
    then { s.kvt with lanesOn := addNat s.kvt.lanesOn l.unit } else { s.kvt with lanesFailed := addNat s.kvt.lanesFailed l.unit } :=
  ⟨_, exec_liveTestEnd_lane hl hm hg ht, rfl⟩

theorem liveTestEnd_plane (ht : l.test = 6) : Gives (.liveTestEnd o) s fun x =>
    x.tst.plane = if good = true then s.tst.plane else addNat s.tst.plane l.unit := by
  refine ⟨_, exec_liveTestEnd_plane hl hm hg ht, ?_⟩
  cases good <;> rfl

end

/-- The other live tests end with their result (R579, R580). -/
theorem liveTestEnd_other (ht : l.test = 8 ∨ l.test = 9) : Gives (.liveTestEnd o) s fun x => x.tst.live = none ∧ x.testRec l.test =
    ⟨l.test, l.unit, if o.errors = 0 then 2 else 3, 0, o.errors, o.whereWord, (s.now - l.start) / 1000⟩ := by
  unfold Gives
  rw [exec_liveTestEnd, execLiveTestEnd, hl]
  dsimp only
  rw [if_neg (LiveTest.may_end hm (by omega) (by omega)), if_neg (by simp; omega), if_neg (by omega), if_neg (by omega),
    if_neg (by omega), if_neg (by omega)]
  exact ⟨_, rfl, rfl, by simpa only [decide_eq_true_eq] using s.closeLive_testRec l (decide (o.errors = 0)) 0 o.errors o.whereWord⟩

end

end Sys2Proof.Machine
end

section
/-! PROOFS. The pieces of HBMPC (R578), the check of VOUT (R575), boundary scan (R583, R584), the time base (R595), and the statement
of the tests (PARAM 1 to 9, flags and the reserved byte log 50, one record per test and the TAP's numbers logs 59 and 14). -/

namespace Sys2Proof.Machine

/-! ## HBMPC_PIECE (R578) -/

theorem hbmpcPiece_none {s : State} (h : s.tst.live = none) (e : Nat) : exec (.hbmpcPiece e) s = .next s := by
  rw [exec_hbmpcPiece, execHbmpcPiece, h]

section
variable {s : State} {l : LiveTest} (hl : s.tst.live = some l)
include hl

theorem hbmpcPiece_other (ht : l.test ≠ 7) (e : Nat) : exec (.hbmpcPiece e) s = .next s := by
  rw [exec_hbmpcPiece, execHbmpcPiece, hl]
  exact if_pos ht

variable {e n k f : Nat} (ht : l.test = 7) (hn : n = s.tst.pieces + 1) (hk : k = satAt 0xFFFFFFFF (s.tst.errors + e))
  (hf : f = (if s.tst.errors = 0 ∧ e ≠ 0 then 4096 * s.tst.pieces else s.tst.firstBad))
include ht hn hk hf

theorem exec_hbmpcPiece_walks : exec (.hbmpcPiece e) s =
    if n < 294912 then .next (s.updTst fun x => { x with pieces := n, errors := k, firstBad := f })
    else .next ((s.closeLive l (k = 0) 0 k f).updTst fun x => { x with pieces := 0, errors := 0, firstBad := 0 }) := by
  subst hn hk hf
  rw [exec_hbmpcPiece, execHbmpcPiece, hl]
  simp only [ht, ne_eq, not_true_eq_false, if_false, Bool.and_eq_true, decide_eq_true_eq, decide_not, Bool.not_eq_true',
    decide_eq_false_iff_not]

/-- The last piece ends the test, and the next one begins without errors. -/
theorem hbmpcPiece_ends (h : 294912 ≤ n) : Gives (.hbmpcPiece e) s fun x => x.tst.live = none ∧ x.tst.pieces = 0 ∧
    x.tst.errors = 0 ∧ x.testRec 7 = ⟨7, l.unit, if k = 0 then 2 else 3, 0, k, f, (s.now - l.start) / 1000⟩ := by
  refine ⟨_, (exec_hbmpcPiece_walks hl ht hn hk hf).trans (if_neg (by omega)), rfl, rfl, rfl, ?_⟩
  have hrec := s.closeLive_testRec l (decide (k = 0)) 0 k f
  simp only [ht, decide_eq_true_eq] at hrec
  exact hrec

end

/-! ## BAY_TEST_VOUT_CHECK (R575) -/

/-- Back to its place in the insertion sequence goes a bay that the test has turned off. -/
def State.bayAgain (t : State) (b : Bay) (u : Nat) : State :=
  if b.st = .off then t.setBay u (fun x => { x with st := if t.bay.inputFault then .inhibit else .wait }) else t

theorem State.bayAgain_tst (t : State) (b : Bay) (u : Nat) : (t.bayAgain b u).tst = t.tst := by
  unfold State.bayAgain
  split <;> rfl

theorem State.bayOf_bayAgain {t : State} {u : Nat} (h : u < t.bay.bays.length) :
    (t.bayAgain (t.bayOf u) u).bayOf u = if (t.bayOf u).st = .off
      then { t.bayOf u with st := if t.bay.inputFault = true then .inhibit else .wait } else t.bayOf u := by
  unfold State.bayAgain
  split
  · exact State.bayOf_setBay h
  · rfl

theorem bayTestVoutCheck_none {s : State} (h : s.tst.live = none) (v : Nat) : exec (.bayTestVoutCheck v) s = .next s := by
  rw [exec_bayTestVoutCheck, execBayTestVoutCheck, h]

section
variable {s : State} {l : LiveTest} {b : Bay} (hl : s.tst.live = some l) (hb : b = s.bayOf l.unit)
include hl

theorem bayTestVoutCheck_lapses (h : l.test ≠ 4 ∨ l.moving = false ∨ s.now < l.start + ms 50) (v : Nat) :
    exec (.bayTestVoutCheck v) s = .next s := by
  rw [exec_bayTestVoutCheck, execBayTestVoutCheck, hl]
  exact if_pos (by simpa [or_assoc] using h)

variable (ht : l.test = 4) (hm : l.moving = true) (hd : l.start + ms 50 ≤ s.now)
include hb ht hm hd

theorem exec_bayTestVoutCheck_due (v : Nat) : exec (.bayTestVoutCheck v) s =
    if 1000 ≤ v then .next ((s.closeLive l false 9 0 0).bayAgain b l.unit)
    else if b.st = .empty then .next (s.closeLive l true 0 0 0)
    else .next ((s.bayAgain b l.unit).updTst fun x => { x with live := some { l with moving := false } }) := by
  subst hb
  rw [exec_bayTestVoutCheck, execBayTestVoutCheck, hl]
  exact if_neg (by simpa [ht, hm] using hd)

/-- A bay that keeps its voltage has a gate that does not turn off. -/
theorem bayTestVoutCheck_fails {v : Nat} (hv : 1000 ≤ v) : Gives (.bayTestVoutCheck v) s fun x => x.tst.live = none ∧
    x.testRec 4 = ⟨4, l.unit, 3, 9, 0, 0, (s.now - l.start) / 1000⟩ := by
  have hrec := s.closeLive_testRec l false 9 0 0
  rw [ht] at hrec
  refine ⟨_, (exec_bayTestVoutCheck_due hl hb ht hm hd v).trans (if_pos hv), ?_, ?_⟩
  · rw [State.bayAgain_tst]
    rfl
  · exact (State.testRec_congr (State.bayAgain_tst ..) 4).trans hrec

section
variable {v : Nat} (hv : v < 1000)
include hv

theorem bayTestVoutCheck_empty (he : b.st = .empty) : Gives (.bayTestVoutCheck v) s fun x => x.tst.live = none ∧
    x.testRec 4 = ⟨4, l.unit, 2, 0, 0, 0, (s.now - l.start) / 1000⟩ := by
  have hrec := s.closeLive_testRec l true 0 0 0
  rw [ht] at hrec
  exact ⟨_, (exec_bayTestVoutCheck_due hl hb ht hm hd v).trans ((if_neg (by omega)).trans (if_pos he)), rfl, hrec⟩

theorem bayTestVoutCheck_drive (he : b.st ≠ .empty) :
    Gives (.bayTestVoutCheck v) s fun x => x.tst = { s.tst with live := some { l with moving := false } } := by
  refine ⟨_, (exec_bayTestVoutCheck_due hl hb ht hm hd v).trans ((if_neg (by omega)).trans (if_neg he)), ?_⟩
  show { (s.bayAgain b l.unit).tst with live := some { l with moving := false } } = _
  rw [State.bayAgain_tst]

end

/-- The insertion sequence takes the bay again. -/
theorem bayTestVoutCheck_bay {v : Nat} (hi : s.Inv) (hu : l.unit < 24) (h : 1000 ≤ v ∨ b.st ≠ .empty) :
    Gives (.bayTestVoutCheck v) s fun x => x.bayOf l.unit = if b.st = .off
      then { b with st := if s.bay.inputFault = true then .inhibit else .wait } else b := by
  unfold Gives
  rw [exec_bayTestVoutCheck_due hl hb ht hm hd v]
  subst hb
  have hlen : l.unit < s.bay.bays.length := by rw [hi.counts.bays]; exact hu
  split
  · exact ⟨_, rfl, State.bayOf_bayAgain (t := s.closeLive l false 9 0 0) hlen⟩
  · next hv =>
    exact ⟨_, if_neg (h.resolve_left hv), State.bayOf_bayAgain (t := s) hlen⟩

end

/-! ## TAP_INSTRUCTION (R583, R584) -/

theorem tapInstruction_unpowered {s : State} (h : .io18 ∉ s.pwr.railsUp) (i : TapInstr) : exec (.tapInstruction i) s = .next s := by
  rw [exec_tapInstruction, execTapInstruction, any_rail]
  exact if_pos (by simpa using h)

theorem idcode_eq (p : Part) : idcode p = if p = .kv9616b then 0x1961674B else 0x1962474B := by cases p <;> rfl

section
variable {s : State} (h : .io18 ∈ s.pwr.railsUp)
include h

theorem exec_tapInstruction_powered (i : TapInstr) : exec (.tapInstruction i) s =
    .next (s.emit (.tdo (s.tapActs i).code (if s.tapActs i = .idcode then idcode s.part else 0))) := by
  rw [exec_tapInstruction, execTapInstruction, any_rail]
  exact if_neg (by simpa using h)

theorem tapInstruction_idcode :
    exec (.tapInstruction .idcode) s = .next (s.emit (.tdo 1 (if s.part = .kv9616b then 0x1961674B else 0x1962474B))) := by
  rw [exec_tapInstruction_powered h, ← idcode_eq]
  rfl

theorem tapInstruction_samplePreload : exec (.tapInstruction .samplePreload) s = .next (s.emit (.tdo 2 0)) :=
  exec_tapInstruction_powered h _

/-- The other instructions act in test boot, and elsewhere as BYPASS. -/
theorem tapInstruction_boot {i : TapInstr} (h1 : i ≠ .idcode) (h2 : i ≠ .samplePreload) :
    exec (.tapInstruction i) s = .next (s.emit (.tdo (if s.tst.boot = true then i.code else 0) 0)) := by
  rw [exec_tapInstruction_powered h]
  have hacts : s.tapActs i = if s.tst.boot = true then i else .bypass := by
    cases i with
    | idcode => exact absurd rfl h1
    | samplePreload => exact absurd rfl h2
    | bypass => exact (ite_self _).symm
    | _ => rfl
  rw [hacts]
  cases s.tst.boot with
  | true => simp [h1]
  | false => rfl

end

/-! ## TIME_BASE_LATCH (R595) -/

theorem absentBits_time (p : Part) : ∀ a ∈ [Reg.macTodsec, Reg.macTodns], absentBits p a = 0#32 := by
  cases p <;> decide

theorem timeBaseLatch_copies {s : State} (hi : s.Inv) : Gives .timeBaseLatch s fun t => t.mac = s.mac ∧
    t.reg Reg.macTodsec = BitVec.ofNat 32 (s.timeNow / 1000000000) ∧
    t.reg Reg.macTodns = BitVec.ofNat 32 (s.timeNow % 1000000000) := by
  have hi' := State.putReg_inv hi Reg.macTodsec (BitVec.ofNat 32 (s.timeNow / 1000000000))
  have hne : Reg.macTodsec ≠ Reg.macTodns := by decide
  refine ⟨s.timeLatch, rfl, rfl, ?_, ?_⟩
  · rw [State.timeLatch, State.reg_putReg hi', if_neg hne, State.reg_putReg hi, if_pos rfl,
      absentBits_time s.part _ (by decide), BitVec.not_zero, BitVec.and_allOnes]
  · rw [State.timeLatch, State.reg_putReg hi', if_pos rfl, absentBits_time _ _ (by decide), BitVec.not_zero, BitVec.and_allOnes]

/-! ## The statement -/

/-- Settles O37: TEST_START by its checks in their order and by what a test does to its unit, the ends of live tests by the record
that closing a test leaves. -/
theorem liveTestsBoundaryScanAndTimeBase : Obligations.LiveTestsBoundaryScanAndTimeBase := by
  refine ⟨?start, ?stop, ?result, ?ends, ?piece, ?vout, ?none, ?tap, fun s => ⟨rfl, timeBaseLatch_copies⟩⟩
  case start =>
    intro s m c t u fl p hs hi ht hu hfl hp
    have refused {st : Nat} := testStart_refused (st := st) hs ht hu hfl hp hi
    refine ⟨fun h => refused (firstFail_testChecks_absent h), fun ha => ⟨fun h => refused (firstFail_testChecks_param ha h), ?_⟩⟩
    intro hk hun hp0 hpm hf hr
    refine ⟨fun hlive => refused (firstFail_testChecks_busy ha hk hun hp0 hpm hf hr hlive),
      fun hlive h4 hh => refused (firstFail_testChecks_follower ha hk hun hp0 hpm hf hr hlive h4 hh), fun hlive hown => ?_⟩
    have hidle := firstFail_testChecks_idle (s := s) ha hk hun hp0 hpm hf hr hlive hown
    have passes (hc : s.testConflict t u = false) := hidle.trans (if_neg (hc ▸ Bool.false_ne_true))
    exact ⟨fun hc => refused (hidle.trans (if_pos hc)), fun hc => testStart_offline hs ht hu hfl hp hi (passes hc),
      fun hc => testStart_runs hs ht hu hfl hp hi (passes hc) hun hc⟩
  case stop => exact fun s m c hs hi => ⟨testStop_stops hs hi, testStop_boots hs⟩
  case result => exact fun s m c t hs hi ht => ⟨testResult_refused hs ht hi, testResult_answers hs ht hi⟩
  case ends =>
    intro s o
    refine ⟨fun h => liveTestEnd_none h o, fun l good hl hg => ⟨liveTestEnd_runs_on hl, fun hm => ⟨?_, ?_, ?_, ?_, ?_, ?_, ?_⟩⟩⟩
    · exact liveTestEnd_unit_record hl hm hg
    · exact fun r p ht hd hp => liveTestEnd_port hl hm ht hd hg hp
    · exact liveTestEnd_driveport hl hm
    · exact fun b k ht hb hk => ⟨liveTestEnd_bay_waits hl hm ht hb, liveTestEnd_bay hl hm ht hb hk⟩
    · exact liveTestEnd_lane hl hm hg
    · exact liveTestEnd_plane hl hm hg
    · exact liveTestEnd_other hl hm
  case piece =>
    intro s e l n k f hl hn hk hf
    exact ⟨fun ht => hbmpcPiece_other hl ht e, fun ht h => (exec_hbmpcPiece_walks hl ht hn hk hf).trans (if_pos h),
      fun ht => hbmpcPiece_ends hl ht hn hk hf⟩
  case vout =>
    intro s v l b hl hb
    exact ⟨fun h => bayTestVoutCheck_lapses hl h v, fun ht hm hd hi hu => ⟨bayTestVoutCheck_fails hl hb ht hm hd,
      bayTestVoutCheck_empty hl hb ht hm hd, bayTestVoutCheck_drive hl hb ht hm hd, bayTestVoutCheck_bay hl hb ht hm hd hi hu⟩⟩
  case none => exact fun s n h => ⟨hbmpcPiece_none h n, bayTestVoutCheck_none h n⟩
  case tap =>
    exact fun s i => ⟨fun h => tapInstruction_unpowered h i, fun h => ⟨fun hi => hi ▸ tapInstruction_idcode h,
      fun hi => hi ▸ tapInstruction_samplePreload h, tapInstruction_boot h⟩⟩

end Sys2Proof.Machine
end
